-- ==== Sys2Proof/Word.lean ====
section
/-! DEFINITION. The word types of the two parts: registers are 32 bits and little-endian (R12). -/

namespace Sys2Proof

/-- One register (R12). -/
abbrev Word := BitVec 32

/-- One byte of memory or of a payload (R17). -/
abbrev Byte := BitVec 8

/-- Sparse data by number: pairs of a key and a value, in one canonical form (`Machine.SMap.wf`): keys strictly
rising, and no entry equal to what an unlisted key reads as. -/
abbrev SMap (α : Type) := List (Nat × α)

end Sys2Proof
end

