-- ==== Sys2Proof/Syntax.lean ====
section
/-! DEFINITION. The messages the two parts exchange with the outside, and the commands: one constructor of `Instr`
per row of opcode_table.json. Identifiers and counts are numbers (their widths are checked in WellFormed); register
contents, payload bytes and accumulators are bit vectors. -/

namespace Sys2Proof

/-- The two parts that the manual covers in full (R1). -/
inductive Part where
  | ronpex
  | plocen
  deriving DecidableEq, Repr

/-- Who made a register write, as the change log records it (R400): interface code of R384 (8 for the attach link),
PCIe requester, I3C address or RID, and whether the access is of skein origin. -/
structure Writer where
  origin : Nat
  requester : Nat
  deriving DecidableEq, Repr

/-- A weft container (R149), kinds 0, 1 and 2. `payload` holds its bytes (at most 768; missing bytes are zero). -/
structure Container where
  kind : Nat
  reply : Bool
  refl : Bool
  ord : Bool
  sync : Bool
  dest : Nat
  src : Nat
  skein : Nat
  epoch : Nat
  stream : Nat
  seq : Nat
  hank : Nat
  age : Nat
  hops : Nat
  defl : Nat
  opc : Nat
  len : Nat
  offset : Nat
  ttag : Nat
  win : Nat
  nmsg : Nat
  crc : Nat
  payload : List Byte
  deriving DecidableEq, Repr

/-- One message: a single container's, or one record of a packed container (R154). -/
structure Msg where
  opc : Nat
  len : Nat
  reply : Bool
  ord : Bool
  hank : Nat
  seq : Nat
  offset : Nat
  ttag : Nat
  data : List Byte
  deriving DecidableEq, Repr

/-- A warp cell (R197). -/
structure WarpCell where
  dir : Bool
  ctrl : Nat
  node : Nat
  skein : Nat
  epoch : Nat
  phase : Nat
  draft : Nat
  inst : Nat
  round : Nat
  cell : Nat
  slice : Nat
  status : Nat
  count : Nat
  opdata : Nat
  crc : Nat
  payload : List Byte
  deriving DecidableEq, Repr

/-- What one slot of one direction of a link carries (R23-R25, R274). -/
inductive Block where
  | nothing               -- low-power idle: no block at all (R329)
  | fill                  -- 800 zero bytes, encrypted (R274)
  | empty                 -- a container of kind 0 (R150)
  | weft (c : Container)
  | warp (c : WarpCell)
  deriving DecidableEq, Repr

/-- One transaction of the attach protocol (R77). -/
structure Txn where
  opc : Nat
  tag : Nat
  rid : Nat
  len : Nat               -- byte count, 1-256
  relax : Bool
  space : Bool            -- 0 fabric window, 1 register window
  status : Nat
  addr : Nat
  aux : Nat
  data : List Byte
  deriving DecidableEq, Repr

/-- One flit (R69), field by field. -/
structure Flit where
  kind : Nat
  seq : Nat
  ack : Nat
  body : List (BitVec 128)    -- 15 chunks of 16 bytes
  reqCrd : Nat
  cplCrd : Nat
  crc : Nat
  deriving DecidableEq, Repr

/-- What a control flit holds beside its subtype and parameters (R69, R70). -/
structure FlitHead where
  seq : Nat
  ack : Nat
  reqCrd : Nat
  cplCrd : Nat
  crc : Nat
  deriving DecidableEq, Repr

/-- The header of the first control flit of an activation: no data flit taken yet (ACK 4,095), no credit freed (R70). -/
def FlitHead.blank : FlitHead := { seq := 0, ack := 4095, reqCrd := 0, cplCrd := 0, crc := 0 }

/-- The parameters of an INIT control flit (R72, R74). -/
structure InitParams where
  version : Nat
  modules : Nat
  p2aReq : Nat
  p2aCpl : Nat
  rids : Nat
  deriving DecidableEq, Repr

/-- An INIT control flit (R72). -/
structure InitFlit where
  params : InitParams
  head : FlitHead
  deriving DecidableEq, Repr

/-- A NAK control flit (R71). -/
structure NakFlit where
  seq : Nat
  head : FlitHead
  deriving DecidableEq, Repr

/-- A switch order (R207, R393). Pairs are (map, logical, physical). -/
structure SwitchOrder where
  kind : Nat
  cls : Nat
  plane : Nat
  unitType : Nat
  unit : Nat
  gen : Nat
  skeins : BitVec 64
  faultFrame : Nat
  effective : Nat
  pairs : List (Nat × Nat × Nat)
  deriving DecidableEq, Repr

/-- A fault report (R357). -/
structure Report where
  type : Nat
  plane : Nat
  target : Nat
  epoch : Nat
  suppressed : Nat
  time : Nat
  deriving DecidableEq, Repr

/-- One change-log entry (R400, R455), without its chain bytes. -/
structure LogBody where
  time : Nat
  type : Nat
  origin : Nat
  requester : Nat
  port : Nat
  skein : Nat
  addr : Nat
  old : Word
  new : Word
  deriving DecidableEq, Repr

/-- One change-log entry with CHAIN (R400, R401). -/
structure LogEntry where
  body : LogBody
  chain : Word
  deriving DecidableEq, Repr

/-- A MGMT payload (R392). -/
inductive Mgmt where
  | assign (skein : Nat) (isSealed : Bool) (slots epoch node : Nat)
  | assignAck (skein : Nat) (isSealed : Bool) (slots epoch node : Nat)
  | portRelease (port gen : Nat)
  | switchOrder (o : SwitchOrder)
  | epochOrder (epoch effective : Nat)
  | snapshotOrder (t number : Nat) (skeins : BitVec 64)
  | pathLoss (plane tL : Nat)
  | report (r : Report)
  | logCopy (e : LogEntry)
  | raw (bytes : List Byte)       -- the payload of a SEND command (R388)
  deriving DecidableEq, Repr

/-- Where a MGMT payload came from (R392): the fabric port and node it arrived on, or the tray chain. -/
structure MgmtSource where
  port : Nat
  node : Nat
  tray : Bool
  deriving DecidableEq, Repr

/-- A tray-chain frame (R395). -/
structure TrayFrame where
  ftype : Nat
  hops : Nat
  src : Nat
  dst : Nat
  fseq : Nat
  mgmt : Option Mgmt          -- FTYPE 1
  body : List Byte            -- the other types
  crc : Nat
  deriving DecidableEq, Repr

/-- A reply frame of a laser module (R294). -/
structure LasReply where
  op : Nat
  addr : Nat
  seq : Nat
  data : Word
  crc : Nat
  deriving DecidableEq, Repr

/-- An event-ring entry (R389). Operator events carry the unit and 12 argument bytes as one number; tenant records
carry the record of R318. -/
structure Event where
  time : Nat
  code : Nat
  tenant : Option (Nat × Nat)   -- receiving skein and SCOPE of a tenant record
  unitType : Nat
  unit : Nat
  gen : Nat
  arg : Nat                     -- bytes 20-31, little-endian
  deriving DecidableEq, Repr

/-- A management command entry (R387). -/
structure Command where
  op : Nat
  tag : Nat
  addr : Nat
  len : Nat
  p0 : Nat
  p1 : Nat
  args : List Byte
  rsv : Nat := 0              -- bytes 1-3, which are reserved
  fetchOk : Bool := true      -- the memory read that fetched the entry ended without an error (R408)
  deriving DecidableEq, Repr

/-- What an LMC message carries beside its TYPE and BODY: SEQ and the CRC-16 (R268). -/
structure Lmc where
  seq : Nat
  crc : Nat
  deriving DecidableEq, Repr

/-- A codeword as it was received: its logical lane, its place in the lane's codeword group, and its 136 symbols (R272, R273). -/
structure RxWord where
  lane : Fin 8
  place : Fin 5
  symbols : List Nat
  deriving DecidableEq, Repr

/-- What the receiver of a port saw in the time of one codeword group (R272, R273, R279). -/
structure RxGroup where
  start : Nat                         -- fabric time of the group's first slot
  lit : Bool                          -- modulated light; without it the far end is in low-power idle
  burst : Bool                        -- an exit burst ended where the group starts
  words : List RxWord                 -- codewords; one that is not listed came without error
  deriving DecidableEq, Repr

/-- The bits of a test pattern that were received on a wavelength (R282). -/
structure RxPattern where
  wave : Nat
  bits : List Nat
  deriving DecidableEq, Repr

/-- The readings of a wavelength's two feeds at the reference detector (R292, R300). -/
structure FeedReading where
  wave : Fin 10
  pri : Int
  stby : Int
  deriving DecidableEq, Repr

/-- The identity that an IDENT message carries (R268). -/
structure Identity where
  serial : BitVec 64
  port : Nat
  plocen : Bool
  deriving DecidableEq, Repr

/-- The units of R29 that a command names: the unit index of R419, a cluster, a region or a die. -/
inductive FaultSite where
  | unit (index : Nat)
  | cluster (k : Nat)
  | region (r : Nat)
  | die (d : Nat)
  deriving DecidableEq, Repr

/-- The commands: one constructor per row of opcode_table.json, in the table's order. -/
inductive Instr where
  | registerWrite (part : Part) (addr width : Nat) (value : BitVec 64) (wr : Writer)
  | slotBoundary
  | frameBoundary (activity : List Nat) (sensors : List Int)
  | eddyWaitExpire (port : Fin 192)
  | weftLpiEnter (part : Part) (port : Fin 192)
  | moduleTrained (m : Fin 8) (rate : Nat)
  | parameterExchange (version : Nat) (fit4 : Bool)
  | init (f : InitFlit)
  | initAck (h : FlitHead := FlitHead.blank)
  | initResend
  | dataFlit (f : Flit)
  | nak (f : NakFlit)
  | replayLimitRetrain
  | retrainTimeout
  | directLoad (t : Txn)
  | directStore (t : Txn)
  | epHnkFenceRead (t : Txn)
  | cpl (t : Txn)
  | cpld (t : Txn)
  | accTimeout (tag : Nat)
  | timeout (rid tag : Nat)
  | sqDb (n : Fin 1024) (tail : Word)
  | cqDb (n : Fin 1024) (head : Word)
  | arm (n : Fin 1024) (value : Word)
  | intrModerationTimeout (n : Fin 1024)
  | put (n : Fin 1024)
  | putAck (n : Fin 1024)
  | get (n : Fin 1024)
  | atomic (n : Fin 1024)
  | gather (n : Fin 1024)
  | scatter (n : Fin 1024)
  | warpJoin (n : Fin 1024)
  | hankWait (n : Fin 1024)
  | hankSet (n : Fin 1024)
  | fmemPage (n : Fin 1024)
  | scheduleBurst (s : Fin 16)
  | gateMet (n : Fin 1024) (index : Nat)
  | waitTimeout (n : Fin 1024) (index : Nat)
  | packHoldExpire (dest : Nat) (plane : Fin 8)
  | shuttleInternalError (s : Fin 16)
  | ringEnable (n : Fin 1024) (cfg : Word) (wr : Writer)
  | ringDisable (n : Fin 1024) (cfg : Word) (wr : Writer)
  | ringDrainDone (n : Fin 1024)
  | fillDb (tail : Word)
  | missDb (head : Word)
  | xltArm (value : Word)
  | fillNop
  | fillOut
  | fillIn
  | fillFault
  | invTag
  | invRange
  | microCacheAck (m : Fin 17)
  | drained (tag : Nat)
  | removeIn
  | inRemoved
  | missTmoExpire (record : Nat)
  | xltEnable (ctl : Word) (wr : Writer)
  | xltDisable (ctl : Word) (wr : Writer)
  | containerIngress (port : Fin 192) (c : Container)
  | inject (p : Fin 8)
  | requestArrival (p : Fin 8) (c : Container)
  | orderedArrival (p : Fin 8) (c : Container)
  | replyArrival (p : Fin 8) (c : Container)
  | reflectedArrival (p : Fin 8) (c : Container)
  | backoffResend (part : Part) (id : Nat)
  | retryTimeout (part : Part) (id : Nat)
  | lifeExpire (part : Part) (id : Nat)
  | receiveRecordExpire (part : Part) (node : Nat)
  | contextIdleExpire (part : Part) (node stream : Nat)
  | replyCacheExpire (part : Part)
  | replyHoldExpire (node : Nat)
  | memoryAgentRequest (port : Fin 192) (c : Container) (ce : Nat) (ue : List Nat)
  | sealedReplyRelease
  | regionGrant (n : Fin 256) (ctl : Word) (wr : Writer)
  | zeroingDone
  | relayEnable (m : Fin 4096) (ctl : Word) (wr : Writer)
  | drfGo (ctl : Word) (wr : Writer)
  | drfStop (ctl : Word) (wr : Writer)
  | wctlGo (ctl : Word) (wr : Writer)
  | wctlStop (ctl : Word) (wr : Writer)
  | commit (value : Word) (wr : Writer)
  | draftActivation (part : Part)
  | warpCellIngress (port : Fin 192) (c : WarpCell)
  | spindleEmit (n : Fin 96)
  | warpCellLanding (p : Fin 8) (c : WarpCell)
  | switchOrder (part : Part) (src : MgmtSource) (o : SwitchOrder)
  | switchOrderApply (part : Part)
  | spindleInternalError (n : Fin 96)
  | spdFence (n : Fin 96) (value : Word) (wr : Writer)
  | ident (part : Part) (port : Fin 192) (l : Lmc) (far : Identity)
  | pwrA (part : Part) (port : Fin 192) (l : Lmc) (readings : List Int)
  | pwrB (part : Part) (port : Fin 192) (l : Lmc) (readings : List Int)
  | tune (part : Part) (port : Fin 192) (l : Lmc) (w request : Nat)
  | swapReq (part : Part) (port : Fin 192) (l : Lmc) (lane reason frame : Nat)
  | swapAck (part : Part) (port : Fin 192) (l : Lmc) (lane reason frame : Nat)
  | state (part : Part) (port : Fin 192) (l : Lmc) (step : Nat)
  | stress (part : Part) (port : Fin 192) (l : Lmc) (apply : Bool)
  | sync (part : Part) (port : Fin 192) (l : Lmc) (locked master : Bool) (depth time16 recv16 : Nat)
  | rxstamp (part : Part) (port : Fin 192) (l : Lmc) (syncSeq time16 : Nat)
  | cert (part : Part) (port : Fin 192) (l : Lmc) (frag : Nat) (data : List Byte)
  | eph (part : Part) (port : Fin 192) (l : Lmc) (frag : Nat) (data : List Byte)
  | sig (part : Part) (port : Fin 192) (l : Lmc) (frag : Nat) (data : List Byte)
  | switch (part : Part) (port : Fin 192) (l : Lmc) (gen frame : Nat)
  | switchAck (part : Part) (port : Fin 192) (l : Lmc) (gen frame : Nat)
  | frametag (part : Part) (port : Fin 192) (l : Lmc) (frameLow : Nat) (tag : BitVec 64)
  | abort (part : Part) (port : Fin 192) (l : Lmc) (reason : Nat)
  | keySwitchApply (part : Part) (port : Fin 192)
  | rekeyStart (part : Part) (port : Fin 192)
  | rekeyTimeout (part : Part) (port : Fin 192)
  | lightLost (part : Part) (port : Fin 192)
  | locHoldoverExpire (part : Part) (port : Fin 192)
  | clockStopDetect (part : Part) (port : Fin 192)
  | trainingStepDone (part : Part) (port : Fin 192) (delayIn delayOut : Nat) (errors : List Nat)
  | trainingStepTimeout (part : Part) (port : Fin 192)
  | downRetry (part : Part) (port : Fin 192)
  | laneFailed (part : Part) (port : Fin 192) (lane : Fin 8)
  | uncorrectableDown (part : Part) (port : Fin 192) (groups : List RxGroup) (patterns : List RxPattern)
  | powerReading (part : Part) (port : Fin 192) (readings : List Int)
  | lowPowerLaneFail (part : Part) (port : Fin 192) (lane : Fin 8)
  | swapApply (part : Part) (port : Fin 192)
  | revalidationStart (part : Part) (port : Fin 192) (cls : Bool) (temp : Int)
  | revalidationCheckDone (part : Part) (port : Fin 192) (errors : Nat)
  | biasEval (part : Part) (m : Fin 4)
  | feedTrip (e : Fin 16) (w : FeedReading)
  | feedRevert (e : Fin 16) (w : FeedReading)
  | feedRevertCmd (e : Fin 16) (value : Word) (wr : Writer)
  | feedForce (e : Fin 16) (value : Word) (wr : Writer)
  | emitterFail (m : Fin 4) (w : Fin 10) (overtemp : Bool)
  | lasAccessGo (m : Fin 4) (value : Word) (wr : Writer)
  | lasReply (m : Fin 4) (r : LasReply)
  | lasReplyTimeout (m : Fin 4)
  | epEmitterFail (w : Fin 10) (b : Bool)
  | portMode (part : Part) (port : Fin 192) (value : Word) (wr : Writer)
  | counterClr (part : Part) (port : Fin 192) (value : Word) (wr : Writer)
  | claim (k : Fin 64) (wr : Writer)
  | activate (k : Fin 64) (wr : Writer)
  | quiesce (k : Fin 64) (wr : Writer)
  | release (k : Fin 64) (wr : Writer)
  | skeinCommandEffect
  | confScrubDone
  | portAssign (port : Fin 192) (value : Word) (wr : Writer)
  | assign (p : Fin 8) (src : MgmtSource) (skein : Nat) (isSealed : Bool) (slots epoch node : Nat)
  | assignAck (port : Fin 192) (src : MgmtSource) (skein : Nat) (isSealed : Bool) (slots epoch node : Nat)
  | tenantRecordRelease
  | getVersion (part : Part) (req : List Byte)
  | getCapabilities (part : Part) (req : List Byte)
  | negotiateAlgorithms (part : Part) (req : List Byte)
  | getDigests (part : Part) (req : List Byte)
  | getCertificate (part : Part) (slot : Nat) (req : List Byte)
  | challenge (part : Part) (slot : Nat) (req : List Byte)
  | getMeasurements (part : Part) (index : Nat) (session : Option Nat) (req : List Byte)
  | keyExchange (part : Part) (req : List Byte)
  | finish (part : Part) (session : Nat) (req : List Byte)
  | keyUpdate (part : Part) (session : Nat) (req : List Byte)
  | heartbeat (part : Part) (session : Nat) (req : List Byte)
  | endSession (part : Part) (session : Nat) (req : List Byte)
  | install (part : Part) (session : Option Nat) (kind skein : Nat) (keyId : Word) (key : BitVec 512) (malformed : Bool)
  | destroy (part : Part) (session : Option Nat) (kind skein : Nat) (keyId : Word) (malformed : Bool)
  | layer1RestartDone (part : Part)
  | fwStartFailure (part : Part)
  | unitInternalError (site : FaultSite)
  | prtFence (n : Fin 192) (value : Word) (wr : Writer)
  | prtReturn (n : Fin 192) (value : Word) (wr : Writer)
  | uctlFence (i : Fin 609) (value : Word) (wr : Writer)
  | uctlReturn (i : Fin 609) (value : Word) (wr : Writer)
  | quarantineStepDone (i : Fin 609) (passed : Bool)
  | portRelease (p : Fin 8) (src : MgmtSource) (port gen : Nat)
  | pathLoss (part : Part) (src : MgmtSource) (plane tL : Nat)
  | unreachableExpire (dest : Nat) (plane : Fin 8)
  | epochOrder (part : Part) (src : MgmtSource) (epoch effective : Nat)
  | epochApply (part : Part)
  | report (src : MgmtSource) (r : Report)
  | reportWindowExpire (type target : Nat)
  | snapshotOrder (part : Part) (src : MgmtSource) (t number : Nat) (skeins : BitVec 64)
  | snapshotCapture (part : Part)
  | regionResetDone (r : Fin 16)
  | pkgReset
  | hubReset (value : Word) (wr : Writer)
  | thermtrip
  | epReset
  | pciePerst
  | pwralertAssert
  | pwralertDeassert
  | alertClearTimeout
  | thermalFenceTimer (d : Fin 4)
  | thermalStepClear
  | regionCoolReturn (d : Fin 4)
  | sleep (value : Word) (wr : Writer)
  | wake (value : Word) (wr : Writer)
  | wakeToken (token : Fin 2)
  | corePg (d : Fin 4)
  | powerGoodTimeout (d : Fin 4)
  | supplyMonitorTrip (voltEntries chargeEntries : Nat)
  | parentLoss (part : Part)
  | holdoverLimit (part : Part)
  | timeSet (value : BitVec 64) (wr : Writer)
  | cmdDb (tail : Word) (wr : Writer)
  | evtDb (head : Word) (wr : Writer)
  | logDb (head : Word) (wr : Writer)
  | logStream
  | nop (c : Command)
  | draftLoad (c : Command) (image : List (Nat × Word)) (dmaOk : Bool)
  | skein (c : Command)
  | fence (c : Command)
  | return (c : Command)
  | reset (c : Command)
  | epoch (c : Command)
  | snapshot (c : Command)
  | send (c : Command) (payload : List Byte) (dmaOk : Bool)
  | tenant (c : Command)
  | fwWrite (c : Command) (data : List Byte) (dmaOk : Bool)
  | fwVerify (c : Command)
  | fwActivate (c : Command)
  | fwErase (c : Command)
  | logCopy (src : MgmtSource) (e : LogEntry)
  | trayFrame (port : Fin 2) (f : TrayFrame)
  | token (port : Fin 2) (f : TrayFrame)
  | tokenRegen (token : Fin 2)
  | trayChainLink (port : Fin 2) (up : Bool)
  | pstWritePersist
  | hoursTick
  | pkgResetDeassert
  | lightRestored (part : Part) (port : Fin 192)
  | alignmentLost (part : Part) (port : Fin 192)
  | lmcMessageSend (part : Part) (port : Fin 192)
  | rekeySwitchRetry (part : Part) (port : Fin 192)
  | hbmTrained (s : Fin 4)
  | epThermtrip
  deriving DecidableEq, Repr

end Sys2Proof
end

