-- ==== Sys2Proof/Config.lean ====
section
/-! DEFINITION. What an implementation fixes and the manual does not state: factory values, the functions of the
published standards that the manual only names, and the free values. Every constant is opaque: no proof can see it. -/

namespace Sys2Proof.Config

/-- FREE VALUE. The n-th value that the manual leaves open during a run (the backoff draw of R176, a read the manual
gives no value for); the step reads it at `State.free` and advances that counter (log 1). -/
opaque freeValue : Nat → BitVec 128

/-- The address straps I3C_ADDR[2:0] (R425, R435). -/
opaque i3cAddr : BitVec 3

/-- Whether a Plocen grants a hank index to a skein (R43, R305): the manual names the grant and gives no register that holds
it (log 17). -/
opaque hankGranted : Nat → Nat → Bool

/-- The subcode that an event of a code carries for a case that R390 lists without a number (PST, TIME); log 9. -/
opaque subcode : Nat → Nat → Nat

/-- The region of its die, taken modulo 4, that each of the die's eight sensors lies in (R370, R371): the manual gives no map. -/
opaque sensorRegion : Nat → Nat

/-- HUB.SERIAL, fixed at manufacture (R407, R415). -/
opaque ronpexSerial : BitVec 64

/-- EP_OPT.SERIAL, fixed at manufacture (R301, R415). -/
opaque plocenSerial : BitVec 64

/-- Factory bias and end-of-life bias of a Plocen emitter pair, as EP_OPT.EMIT shows them (R301). -/
opaque emitFactory : Nat → Word

/-- SEQ that an idle or a control flit carries when the next data flit has a given SEQ (R70 gives it no meaning); log 114. -/
opaque controlSeq : Nat → Nat

/-- The parameter bytes of an INIT control flit, from byte 8 (R72 names the parameters and gives no layout): version, fit,
the two advertisements and the number of requester IDs; log 114. -/
opaque initBytes : List Nat → List Byte

/-- The five parameters that the bytes of an INIT control flit spell; log 114. -/
opaque initFields : List Byte → List Nat

/-- Whether the container of an ATOMIC says that RESULT was requested (R152): no field of R149 or R154 shows it. The arguments are the
source node, the stream plus one or 0, and SEQ; log 64. -/
opaque resultWanted : Nat → Nat → Nat → Bool

/-- SHA-384 of the standard R22 names (used by R322, R401, R404). -/
opaque sha384 : List Byte → BitVec 384

/-- Whether a certificate chain verifies to the Fjarryn root (R330). -/
opaque chainVerifies : List Byte → Bool

/-- The DeviceID serial number a certificate chain carries (R323). -/
opaque chainSerial : List Byte → BitVec 64

/-- Whether a signature verifies with the Alias key of a chain (R330): chain, the bytes signed, signature. -/
opaque signatureVerifies : List Byte → List Byte → List Byte → Bool

/-- HMAC-SHA-384 of the standards R322 and R331 name: key and message. -/
opaque hmacSha384 : List Byte → List Byte → BitVec 384

/-- The fused secret of a part (R322); the argument says whether it is the Plocen's. -/
opaque uds : Bool → BitVec 384

/-- The certificates of R323, in DER: CDI_0 and CDI_1, from which the keys are derived, the serial number and the measurement. -/
opaque certChain : BitVec 384 → BitVec 384 → BitVec 64 → List Byte → List Byte

/-- The signature over some bytes with the Alias key derived from CDI_1 (R322, R330): 96 bytes. -/
opaque sign : BitVec 384 → List Byte → List Byte

/-- The private key that a port forms for a key agreement, numbered by the free values used before it (R330, R331); the first argument
says whether the part is the Plocen. -/
opaque ephemeral : Bool → Nat → Nat → BitVec 384

/-- The uncompressed P-384 point of a private key (R330). -/
opaque ecPoint : BitVec 384 → List Byte

/-- The x-coordinate that a private key and a far point give (R331). -/
opaque ecdh : BitVec 384 → List Byte → BitVec 384

/-- The 128-bit tag of AES-256-GCM with no additional data (R329, R332, R335): key, 96-bit IV, the bytes. -/
opaque gcmTag : BitVec 256 → List Byte → List Byte → BitVec 128

/-- The ciphertext of AES-256-GCM (R329, R335): key, 96-bit IV, the bytes. -/
opaque gcmCipher : BitVec 256 → List Byte → List Byte → List Byte

/-- The register of a wavelength's pattern generator when a pattern starts (R282 gives a seed for the exit burst alone); log 147. -/
opaque prbsSeed : Nat → Nat

/-- XTS-AES-256 encryption of one 64-byte unit under two keys and a tweak (R263). -/
opaque xtsEncrypt : BitVec 512 → Nat → List Byte → List Byte

/-- XTS-AES-256 decryption of one 64-byte unit under two keys and a tweak (R338). -/
opaque xtsDecrypt : BitVec 512 → Nat → List Byte → List Byte

/-- The 64b/66b coding of eight bytes on a lane of the tray chain (R395), which the manual only names (log 157). -/
opaque code66b : BitVec 64 → BitVec 66

/-- The plane of a spine (R32), which no register or port of a spine tells it (log 8). -/
opaque spinePlane : Nat

/-- Whether the verify data and signature of an SPDM FINISH hold (R324): CDI_1, the requests since GET_VERSION, and the bytes of FINISH. -/
opaque spdmFinishVerifies : BitVec 384 → List (Nat × List Byte) → List Byte → Bool

/-- The body of the SPDM response that a part sends (R324, R327): CDI_1, from which its Alias key is derived, the number of responses
before it (for its nonce), the requests since GET_VERSION, the request code, the request's bytes, and what it reports. -/
opaque spdmResponse : BitVec 384 → Nat → List (Nat × List Byte) → Nat → List Byte → List Byte → List Byte

/-- Whether a firmware image's signature verifies under the Fjarryn firmware key (R404): the SHA-384 of the header's bytes 0-63, and the
signature. -/
opaque firmwareSignatureVerifies : BitVec 384 → List Byte → Bool

/-- A secured message of DSP0277 (R324): session, the number of responses before it, the SPDM message. -/
opaque securedMessage : Nat → Nat → List Byte → List Byte

/-- Digest of the boot ROM, as measured (R326 index 1); the argument says whether it is the Plocen's. -/
opaque romDigest : Bool → BitVec 384

/-- Digest of the image that a firmware slot holds at manufacture (R326): part and slot. -/
opaque imageDigest : Bool → Bool → BitVec 384

end Sys2Proof.Config
end

