-- ==== Sys2Proof/Machine/Bits.lean ====
section
/-! DEFINITION. Bit fields, byte order and address arithmetic (R4, R10, R12, R17): one definition of each. -/

namespace Sys2Proof.Machine

/-- The `len` bits of `w` from bit `lo` upward (R12). -/
def bits (lo len w : Nat) : Nat := (w / 2 ^ lo) % 2 ^ len

/-- Bit `i` of `w`. -/
def bit (i w : Nat) : Bool := bits i 1 w == 1

/-- `w` with the `len` bits from `lo` replaced by `v`. -/
def setBits (lo len v w : Nat) : Nat := w - bits lo len w * 2 ^ lo + (v % 2 ^ len) * 2 ^ lo

/-- `w` with bit `i` set to `b`. -/
def setBit (i : Nat) (b : Bool) (w : Nat) : Nat := setBits i 1 (if b then 1 else 0) w

/-- A Bool as a number, as a one-bit field holds it. -/
def ofBool (b : Bool) : Nat := if b then 1 else 0

/-- The low `len` bits of `w` read as a two's-complement number. -/
def signed (len w : Nat) : Int :=
  if w % 2 ^ len < 2 ^ (len - 1) then (w % 2 ^ len : Nat) else (w % 2 ^ len : Nat) - (2 ^ len : Nat)

/-- The `len`-bit two's-complement code of `z`. -/
def ofSigned (len : Nat) (z : Int) : Nat := (z % (2 ^ len : Nat)).toNat

/-- (a - b) mod 2^len. -/
def subMod (len a b : Nat) : Nat := (a % 2 ^ len + 2 ^ len - b % 2 ^ len) % 2 ^ len

/-- A count that saturates at the top of its `len`-bit field. -/
def satAdd (len a b : Nat) : Nat := min (a + b) (2 ^ len - 1)

/-- The `n` bytes of `w`, lowest first (R17). -/
def leBytes : Nat → Nat → List Byte
  | 0, _ => []
  | n + 1, w => BitVec.ofNat 8 w :: leBytes n (w / 256)

/-- The number that a list of bytes spells, lowest byte first (R17). -/
def leNat : List Byte → Nat
  | [] => 0
  | b :: r => b.toNat + 256 * leNat r

/-- `n` bytes of `l` from offset `o`; bytes beyond the end are zero. -/
def sliceBytes (l : List Byte) (o n : Nat) : List Byte :=
  let t := (l.drop o).take n
  t ++ List.replicate (n - t.length) 0

/-- The little-endian number in the `n` bytes of `l` from offset `o`. -/
def fieldNat (l : List Byte) (o n : Nat) : Nat := leNat ((l.drop o).take n)

/-- `l` with the bytes `d` written from offset `o`; `l` is extended with zeros where it is too short. -/
def spliceBytes (l : List Byte) (o : Nat) (d : List Byte) : List Byte :=
  sliceBytes l 0 o ++ d ++ l.drop (o + d.length)

/-- The indices of the set bits of a mask of `n` bits, lowest first. -/
def setBitsOf (n m : Nat) : List Nat := (List.range n).filter fun i => bit i m

/-- How many of the low `n` bits of `m` are set. -/
def popCount (n m : Nat) : Nat := (setBitsOf n m).length

/-- A mask from the indices of its set bits. -/
def maskOf (l : List Nat) : Nat := l.foldl (fun m i => setBit i true m) 0

/-- The numbers `a` to `b`. -/
def upTo (a b : Nat) : List Nat := (List.range (b + 1 - a)).map (a + ·)

/-- Bitwise operations on numbers of `len` bits. -/
def bAnd (a b : Nat) : Nat := a &&& b
/-- Bitwise or. -/
def bOr (a b : Nat) : Nat := a ||| b
/-- `a` without the bits of `b`. -/
def bClear (a b : Nat) : Nat := a - (a &&& b)

/-- Ports, spindles and the units of R4: the die of a port. -/
def portDie (p : Nat) : Nat := p / 48
/-- The region of a port within its die (R4). -/
def portRegion (p : Nat) : Nat := p % 48 / 12
/-- The region number 0-15 of a port: die * 4 + region, which is its optical engine (R4, R5). -/
def portEngine (p : Nat) : Nat := p / 12
/-- The cluster number of a port, as EDY numbers clusters (R182). -/
def portCluster (p : Nat) : Nat := p / 4
/-- Where port p's block starts in the configuration space (R10). -/
def portBase (p : Nat) : Nat :=
  0x1000000 * (p / 48 + 1) + 0x400000 * (p % 48 / 12) + 0x100000 * (p % 12 / 4) + 0x10000 * (p % 4)
/-- Where spindle n's block starts (R10). -/
def spindleBase (n : Nat) : Nat :=
  0x1000000 * (n / 24 + 1) + 0x400000 * (n % 24 / 6) + 0x100000 * (n % 6 / 2) + 0x80000 + 0x10000 * (n % 2)
/-- Where cluster k's base lies (R10, R182). -/
def clusterBase (k : Nat) : Nat :=
  0x1000000 * (k / 12 + 1) + 0x400000 * (k % 12 / 3) + 0x100000 * (k % 3)
/-- Where optical engine e starts (R10). -/
def engineBase (e : Nat) : Nat := 0x5000000 + 0x100000 * e
/-- The port set of Ronpex port p in its optical engine (R299). -/
def portSetBase (p : Nat) : Nat := engineBase (p / 12) + 0x1000 + 0x100 * (p % 12)
/-- The port set of Plocen port p (R301). -/
def epPortSetBase (p : Nat) : Nat := 0x61000 + 0x100 * p
/-- The spindles of cluster k (R4). -/
def clusterSpindles (k : Nat) : List Nat :=
  let b := k / 12 * 24 + k % 12 / 3 * 6 + k % 3 * 2
  [b, b + 1]
/-- The die of a spindle (R4). -/
def spindleDie (n : Nat) : Nat := n / 24
/-- The region 0-15 of a spindle. -/
def spindleRegion (n : Nat) : Nat := n / 24 * 4 + n % 24 / 6
/-- Slots per frame, and nanoseconds of a slot and of a frame (R19). -/
def slotNs : Nat := 4
/-- Slots in a frame (R19). -/
def frameSlots : Nat := 4096
/-- Nanoseconds in a frame (R19). -/
def frameNs : Nat := 16384
/-- The slot of its frame that fabric time t lies in (R19). -/
def slotOf (t : Nat) : Nat := t % frameNs / slotNs
/-- The number of the frame that fabric time t lies in, counted from fabric time 0. -/
def frameOf (t : Nat) : Nat := t / frameNs
/-- The first frame boundary after fabric time t (R19). -/
def nextFrame (t : Nat) : Nat := (t / frameNs + 1) * frameNs

/-- The 64-byte lines of a range (R59). -/
def linesOf (addr len : Nat) : List Nat := if len = 0 then [] else upTo (addr / 64) ((addr + len - 1) / 64)

/-- The 32-byte bursts of a range. -/
def burstsOf (off len : Nat) : List Nat := if len = 0 then [] else upTo (off / 32) ((off + len - 1) / 32)

/-- The bursts that a write covers whole: it heals them (R262). -/
def wholeBursts (off len : Nat) : List Nat :=
  (burstsOf off len).filter fun b => decide (off ≤ 32 * b) && decide (32 * b + 32 ≤ off + len)

end Sys2Proof.Machine
end

