-- ==== Sys2Proof/Machine/Operands.lean ====
section
/-! DEFINITION. The formats in which the parts exchange data: the attach header (R77), descriptors (R103-R107),
completion entries (R116), miss and fill records (R137, R138), containers, packed messages and their CRC (R149-R154),
warp cells (R197) and log entries (R400). -/

namespace Sys2Proof.Machine

/-- The number that a list of fields spells, lowest field first: (width, value). -/
def packFields : List (Nat × Nat) → Nat
  | [] => 0
  | (w, v) :: r => v % 2 ^ w + 2 ^ w * packFields r

/-! ### Attach transactions (R77, R78) -/

/-- The header chunk of a transaction (R77). -/
def txnHeader (t : Txn) : BitVec 128 :=
  BitVec.ofNat 128 (packFields [(8, t.opc), (12, t.tag), (10, t.rid), (2, 0), (9, t.len - 1), (1, ofBool t.relax),
    (1, ofBool t.space), (1, 0), (4, t.status), (52, t.addr), (4, 0), (24, t.aux)])

/-- The transaction that a header chunk begins, without its data (R77). -/
def txnOfHeader (h : BitVec 128) : Txn :=
  let w := h.toNat
  { opc := bits 0 8 w, tag := bits 8 12 w, rid := bits 20 10 w, len := bits 32 9 w + 1, relax := bit 41 w,
    space := bit 42 w, status := bits 44 4 w, addr := bits 48 52 w, aux := bits 104 24 w, data := [] }

/-- Whether an opcode carries data (R78). -/
def opcHasData (o : Nat) : Bool := o == 0x02 || o == 0x12 || o == 0x21

/-- Chunks of a transaction, header included (R72, R74). -/
def txnChunks (opc len : Nat) : Nat := if opcHasData opc then 1 + (len + 15) / 16 else 1

/-- Data packed into 16-byte chunks, the unused bytes of the last one zero (R78). -/
def dataChunks : Nat → List Byte → List (BitVec 128)
  | 0, _ => []
  | n + 1, d => BitVec.ofNat 128 (leNat (d.take 16)) :: dataChunks n (d.drop 16)

/-- All chunks of a transaction (R72). -/
def chunksOf (t : Txn) : List (BitVec 128) :=
  txnHeader t :: (if opcHasData t.opc then dataChunks ((t.len + 15) / 16) t.data else [])

/-- The first `n` bytes of a list of chunks. -/
def bytesOfChunks (n : Nat) (cs : List (BitVec 128)) : List Byte :=
  (cs.flatMap fun c => leBytes 16 c.toNat).take n

/-! ### Flits (R69, R72) -/

/-- One byte into the CRC of R69 and R151: reflected input, polynomial 0x04C1_1DB7. -/
def crcBits : Nat → Nat → Nat
  | 0, c => c
  | n + 1, c => crcBits n (if c % 2 = 1 then (c / 2) ^^^ 0xEDB88320 else c / 2)

/-- CRC-32 of a list of bytes, as R151 states it. -/
def crc32 (l : List Byte) : Nat :=
  (l.foldl (fun c b => crcBits 8 (c ^^^ b.toNat)) 0xFFFFFFFF) ^^^ 0xFFFFFFFF

/-- Bytes 0-251 of a flit (R69). -/
def flitBytes (f : Flit) : List Byte :=
  leBytes 4 (packFields [(4, f.kind), (12, f.seq), (12, f.ack), (4, 0)]) ++ bytesOfChunks 240 f.body
    ++ leBytes 2 f.reqCrd ++ leBytes 2 f.cplCrd ++ leBytes 4 0

/-- The CRC of a flit (R69), with the initial value, reflection and final XOR that R151 gives for its polynomial (DEDUCED, log 115). -/
@[irreducible] def flitCrc (f : Flit) : Nat := crc32 (flitBytes { f with crc := 0 })

/-- A flit with its CRC computed. -/
def sealedFlit (f : Flit) : Flit := { f with crc := flitCrc f }

/-- Whether the CRC of a flit checks (R71). -/
def flitGood (f : Flit) : Bool := f.crc == flitCrc f

/-- The 256 bytes of a flit (R69). -/
def flitWire (f : Flit) : List Byte := flitBytes f ++ leBytes 4 f.crc

/-- Subtypes of a control flit (R72): INIT. -/
def ctlInit : Nat := 1
/-- INIT_ACK (R72). -/
def ctlInitAck : Nat := 2
/-- NAK (R72). -/
def ctlNak : Nat := 3

/-- The body of a control flit (R72): the subtype in byte 4 of the flit, the parameters from byte 8. -/
def controlBody (subtype : Nat) (params : List Byte) : List (BitVec 128) :=
  dataChunks 15 (spliceBytes (spliceBytes (List.replicate 240 0) 0 (leBytes 1 subtype)) 4 params)

/-- A control flit (R69, R72). -/
def controlFlit (h : FlitHead) (subtype : Nat) (params : List Byte) : Flit :=
  { kind := 2, seq := h.seq, ack := h.ack, body := controlBody subtype params, reqCrd := h.reqCrd, cplCrd := h.cplCrd, crc := h.crc }

/-- The subtype of a control flit (R72). -/
def flitSubtype (f : Flit) : Nat := fieldNat (bytesOfChunks 240 f.body) 0 1

/-- The parameters of a control flit, from byte 8 of the flit (R72). -/
def flitParams (f : Flit) : List Byte := (bytesOfChunks 240 f.body).drop 4

/-- The parameter bytes of an INIT (R72). -/
def initBytes (p : InitParams) : List Byte := Config.initBytes [p.version, p.modules, p.p2aReq, p.p2aCpl, p.rids]

/-- The parameters that the bytes of an INIT spell (R72). -/
def initOf (b : List Byte) : InitParams :=
  let l := Config.initFields b
  { version := l.getD 0 0, modules := l.getD 1 0, p2aReq := l.getD 2 0, p2aCpl := l.getD 3 0, rids := l.getD 4 0 }

/-! ### Descriptors (R103-R107) -/

/-- A descriptor, field by field (R103). -/
structure Desc where
  opc : Nat
  flags : Nat
  planes : Nat
  sub : Nat
  len : Nat
  locl : Nat
  remote : Nat
  rhank : Nat
  lhank : Nat
  ghank : Nat
  stream : Nat
  gthresh : Nat
  opa : Nat
  opb : Nat
  cookie : Nat
  rsv : Nat
  deriving DecidableEq, Repr

/-- The fields of the 512 bits of a descriptor (R103). -/
def descOf (w : Nat) : Desc :=
  { opc := bits 0 8 w, flags := bits 8 8 w, planes := bits 16 8 w, sub := bits 24 8 w, len := bits 32 32 w,
    locl := bits 64 64 w, remote := bits 128 64 w, rhank := bits 192 16 w, lhank := bits 208 16 w,
    ghank := bits 224 16 w, stream := bits 240 16 w, gthresh := bits 256 64 w, opa := bits 320 64 w,
    opb := bits 384 64 w, cookie := bits 448 32 w, rsv := bits 480 32 w }

/-- FLAGS.GATE (R103). -/
def Desc.gate (d : Desc) : Bool := bit 0 d.flags
/-- FLAGS.ORDERED. -/
def Desc.ordered (d : Desc) : Bool := bit 1 d.flags
/-- FLAGS.ACK. -/
def Desc.ack (d : Desc) : Bool := bit 2 d.flags
/-- FLAGS.RESULT. -/
def Desc.result (d : Desc) : Bool := bit 3 d.flags
/-- FLAGS.DECRYPT. -/
def Desc.decrypt (d : Desc) : Bool := bit 4 d.flags

/-- Width in bytes of an atomic operation (R106). -/
def atomWidth (sub : Nat) : Nat :=
  if bits 0 4 sub == 0xC || bits 0 4 sub == 0xD then 16 else 2 ^ bits 4 2 sub

/-- Width in bits of an input format of the converted anchored-add (R106). -/
def anchoredInputBits (f : Nat) : Nat :=
  if f = 0 || f = 5 then 32 else if f = 1 || f = 2 then 16 else 8

/-- The byte offsets of the fields that break a rule which the descriptor alone decides (R104-R109). An attach address in OPA or OPB
has 52 bits as LOCAL does: with a bit above them set it is outside its limits (DESIGN CHOICE, log 124). The compare value of a
compare-and-swap with bits above the width is BAD_DESC as OPA's is (DESIGN CHOICE, log 167). -/
def descFaults (d : Desc) : List Nat :=
  let nz (off v : Nat) : List Nat := if v = 0 then [] else [off]
  let no (off : Nat) (b : Bool) : List Nat := if b then [off] else []
  let isPut := d.opc = 0x01 || d.opc = 0x02
  let isList := d.opc = 0x05 || d.opc = 0x06
  let allowed := (1 ≤ d.opc && d.opc ≤ 0x0A)
  let flagsBad :=
    bits 5 3 d.flags != 0
    || (d.ordered && !(isPut || d.opc = 0x03 || d.opc = 0x04 || d.opc = 0x09))
    || (d.ack && d.opc != 0x06) || (d.result && d.opc != 0x04)
    || (d.decrypt && !(d.opc = 0x03 || d.opc = 0x05 || d.opc = 0x0A))
    || (d.gate && d.opc = 0x08)
  let common := no 0 (!allowed) ++ no 1 flagsBad ++ nz 60 d.rsv
    ++ (if d.opc = 0x07 || d.opc = 0x08 then nz 2 d.planes else [])
    ++ (if d.opc = 0x04 then [] else nz 3 d.sub)
    ++ (if d.gate || d.opc = 0x08 then [] else nz 28 d.ghank ++ nz 32 d.gthresh)
    ++ (if d.ordered then no 30 (d.stream ≥ 4096) else nz 30 d.stream)
  let localUsed := isPut || d.opc = 0x03 || d.opc = 0x04 || isList || d.opc = 0x07 || d.opc = 0x0A
  let localPart := if localUsed then no 8 (d.locl ≥ 2 ^ 52) else nz 8 d.locl
  let remoteUsed := isPut || d.opc = 0x03 || d.opc = 0x04 || d.opc = 0x09
  let remotePart := if remoteUsed then [] else nz 16 d.remote
  let rhankUsed := isPut || d.opc = 0x04 || d.opc = 0x06 || d.opc = 0x09
  let rhankPart := if rhankUsed then [] else nz 24 d.rhank
  let lhankUsed := d.opc = 0x03 || d.opc = 0x05 || d.opc = 0x07 || d.opc = 0x0A || (d.opc = 0x04 && d.result)
  let lhankPart := if lhankUsed then [] else nz 26 d.lhank
  let lenPart :=
    if isPut || d.opc = 0x03 then no 4 (d.len = 0)
    else if isList then no 4 (d.len = 0 || d.len > 65536)
    else if d.opc = 0x0A then no 4 (d.len = 0 || d.len > 4096)
    else if d.opc = 0x04 then
      (if bits 0 4 d.sub = 0xC then
        no 4 (!(bits 16 8 d.len = 32 || bits 16 8 d.len = 64 || bits 16 8 d.len = 104) || bits 24 8 d.len > 5)
       else nz 4 d.len)
    else if d.opc = 0x07 then [] else nz 4 d.len
  let sub := bits 0 4 d.sub
  let subPart := if d.opc != 0x04 then [] else
    no 3 (bits 6 2 d.sub != 0 || sub > 0xD || (sub = 0xA && bits 4 2 d.sub != 2)
      || (sub = 0xB && bits 4 2 d.sub != 1) || ((sub = 0xC || sub = 0xD) && bits 4 2 d.sub != 0))
  let w := atomWidth d.sub
  let opaPart :=
    if d.opc = 0x04 then
      (if sub = 0xC then no 40 (d.opa ≥ 2 ^ anchoredInputBits (bits 24 8 d.len))
       else if sub = 0xD then [] else no 40 (d.opa ≥ 2 ^ (8 * w)))
    else if isList || d.opc = 0x0A then no 40 ((isList && d.opa % 8 != 0) || d.opa ≥ 2 ^ 52)
    else if d.opc = 0x08 then no 40 (bits 32 32 d.opa != 0)
    else if d.opc = 0x09 || d.opc = 0x07 then [] else nz 40 d.opa
  let opbPart :=
    if d.opc = 0x04 then
      (if sub = 0xD then [] else if sub = 0x9 then no 48 (d.opb ≥ 2 ^ (8 * w)) else nz 48 d.opb)
    else if isList then no 48 (d.opb < 8 || d.opb > 65536 || d.opb % 8 != 0)
    else if d.opc = 0x07 then no 48 (d.opb ≥ 2 ^ 52) else nz 48 d.opb
  let pagePart := if d.opc = 0x0A then no 8 (d.locl % 4096 != 0) else []
  if allowed then common ++ localPart ++ remotePart ++ rhankPart ++ lhankPart ++ lenPart ++ subPart ++ opaPart
    ++ opbPart ++ pagePart
  else common

/-- The lowest of a list of offsets, if there is one (R105). -/
def lowestOf : List Nat → Option Nat
  | [] => none
  | a :: r => match lowestOf r with | none => some a | some b => some (min a b)

/-! ### Completion entries, miss and fill records (R116, R137, R138) -/

/-- A completion entry (R116). -/
def completionBytes (index code phase cookie info time : Nat) : List Byte :=
  leBytes 16 (packFields [(16, index), (8, code), (8, phase), (32, cookie), (32, info), (32, time)])

/-- A miss record (R137), without PHASE and TIME, which are set at posting. -/
def missBytes (type tag access source ring va index fill info : Nat) : List Byte :=
  leBytes 32 (packFields [(8, type), (8, 0), (16, tag), (8, access), (8, source), (16, ring), (64, va), (32, index),
    (32, fill), (32, info), (32, 0)])

/-- A miss record at posting: PHASE and TIME added (R136, R137). -/
def missPosted (b : List Byte) (phase time : Nat) : List Byte :=
  spliceBytes (spliceBytes b 1 (leBytes 1 phase)) 28 (leBytes 4 time)

/-- A fill record (R138). -/
structure Fill where
  op : Nat
  flags : Nat
  tag : Nat
  pages : Nat
  start : Nat
  target : Nat
  ttag : Nat
  rsv : Nat
  miss : Nat
  deriving DecidableEq, Repr

/-- The fields of the 256 bits of a fill record (R138). -/
def fillOf (w : Nat) : Fill :=
  { op := bits 0 8 w, flags := bits 8 8 w, tag := bits 16 16 w, pages := bits 32 32 w, start := bits 64 64 w,
    target := bits 128 64 w, ttag := bits 192 16 w, rsv := bits 208 16 w, miss := bits 224 32 w }

/-- FLAGS.PERM of a fill record. -/
def Fill.perm (f : Fill) : Nat := bits 0 3 f.flags
/-- FLAGS.DRAIN of a fill record. -/
def Fill.drain (f : Fill) : Bool := bit 7 f.flags
/-- Bytes of the range of a fill record. -/
def Fill.span (f : Fill) : Nat := 4096 * f.pages

/-- Reason 4 of R138: an unknown OP, a nonzero reserved or unused field, PERM or PAGES zero where they are used. A
TARGET that is not 4 KiB-aligned counts as such a field (DESIGN CHOICE, log 174). -/
def Fill.malformed (f : Fill) : Bool :=
  let usesRange := f.op = 1 || f.op = 2 || f.op = 5 || f.op = 6
  let isInv := f.op = 4 || f.op = 5
  f.op > 6 || f.rsv != 0 || bits 3 4 f.flags != 0
  || (f.perm != 0 && !(f.op = 1 || f.op = 2)) || (f.drain && !isInv)
  || (f.op = 3 && f.tag != 0) || f.tag ≥ 4096
  || (f.pages != 0 && !usesRange) || (f.start != 0 && !usesRange)
  || (usesRange && f.start % 4096 != 0)
  || (f.target != 0 && !(f.op = 1 || f.op = 2)) || (f.op = 1 && f.target % 4096 != 0)
  || (f.op = 2 && (f.target % 4096 != 0 || f.target ≥ 2 ^ 52))
  || (f.op = 1 && f.ttag ≥ 4096) || ((f.op = 2 || f.op = 6) && f.ttag ≥ 64)
  || (f.ttag != 0 && !(f.op = 1 || f.op = 2 || f.op = 6))
  || (f.miss != 0 && f.op != 3)
  || ((f.op = 2 || f.op = 6) && f.start ≥ 2 ^ 49)
  || (usesRange && f.pages = 0) || ((f.op = 1 || f.op = 2) && f.perm = 0)

/-- Reason 2 of R138: the range runs past the end of its address space. -/
def Fill.outOfRange (f : Fill) : Bool :=
  (f.op = 1 && (f.start + f.span > 2 ^ 64 || f.target % 2 ^ 49 + f.span > 2 ^ 49))
  || (f.op = 2 && (f.start + f.span > 2 ^ 49 || f.target + f.span > 2 ^ 52))
  || (f.op = 5 && f.start + f.span > 2 ^ 64) || (f.op = 6 && f.start + f.span > 2 ^ 49)

/-! ### Containers and cells (R149-R155, R197) -/

/-- Bits 223:0 of a container header (R149). -/
def containerHead (c : Container) : Nat :=
  packFields [(3, c.kind), (1, ofBool c.reply), (1, ofBool c.refl), (1, ofBool c.ord), (1, ofBool c.sync), (1, 0),
    (15, c.dest), (15, c.src), (6, c.skein), (8, c.epoch), (12, c.stream), (32, c.seq), (16, c.hank), (16, c.age),
    (4, c.hops), (4, c.defl), (6, c.opc), (10, c.len), (49, c.offset), (12, c.ttag), (7, c.win), (4, c.nmsg)]

/-- The CRC of a container (R151): REFL, HOPS and DEFL count as zero. -/
def containerCrc (c : Container) : Nat :=
  crc32 (leBytes 28 (containerHead { c with refl := false, hops := 0, defl := 0 }) ++ sliceBytes c.payload 0 768)

/-- A container with its CRC computed. -/
def sealed (c : Container) : Container := { c with crc := containerCrc c }

/-- Bits 223:0 of a warp-cell header (R197). -/
def cellHead (c : WarpCell) : Nat :=
  packFields [(3, 3), (1, ofBool c.dir), (2, 0), (2, c.ctrl), (15, c.node), (15, 0), (6, c.skein), (8, c.epoch),
    (8, c.phase), (3, c.draft), (1, 0), (16, c.inst), (16, c.round), (16, c.cell), (8, c.slice), (16, 0),
    (2, c.status), (14, c.count), (72, c.opdata)]

/-- The CRC of a warp cell (R151, R197). -/
def cellCrc (c : WarpCell) : Nat := crc32 (leBytes 28 (cellHead c) ++ sliceBytes c.payload 0 768)

/-- A warp cell with its CRC computed. -/
def sealedCell (c : WarpCell) : WarpCell := { c with crc := cellCrc c }

/-- An empty container (R150): KIND 0 and zero in every field but CRC. -/
def emptyContainer : Container :=
  { kind := 0, reply := false, refl := false, ord := false, sync := false, dest := 0, src := 0, skein := 0, epoch := 0,
    stream := 0, seq := 0, hank := 0, age := 0, hops := 0, defl := 0, opc := 0, len := 0, offset := 0, ttag := 0,
    win := 0, nmsg := 0, crc := 0, payload := [] }

/-- The 800 bytes of a container (R149). -/
def containerBytes (c : Container) : List Byte := leBytes 28 (containerHead c) ++ leBytes 4 c.crc ++ sliceBytes c.payload 0 768

/-- The 800 bytes of a warp cell (R197). -/
def cellBytes (c : WarpCell) : List Byte := leBytes 28 (cellHead c) ++ leBytes 4 c.crc ++ sliceBytes c.payload 0 768

/-- The bytes of what a slot carries (R23, R150, R274); none in low-power idle. -/
def blockBytes : Block → List Byte
  | .nothing => []
  | .fill => List.replicate 800 0
  | .empty => containerBytes (sealed emptyContainer)
  | .weft c => containerBytes c
  | .warp c => cellBytes c

/-! ### AES-256-GCM of blocks and cells (R329, R335) -/

/-- The 96-bit IV: the salt, then the 64-bit counter, big-endian. -/
def gcmIv (k : BitVec 288) (count : Nat) : List Byte := leBytes 4 (k.toNat / 2 ^ 256) ++ (leBytes 8 count).reverse

/-- The tag of a block under a key with its salt, at a count. -/
def blockTag (k : BitVec 288) (count : Nat) (b : List Byte) : BitVec 128 := Config.gcmTag (BitVec.ofNat 256 k.toNat) (gcmIv k count) b

/-- The ciphertext of a block. -/
def blockCipher (k : BitVec 288) (count : Nat) (b : List Byte) : List Byte :=
  Config.gcmCipher (BitVec.ofNat 256 k.toNat) (gcmIv k count) b

/-- The plaintext of a block: GCM adds its key stream, which is what it makes of zeros. -/
def blockPlain (k : BitVec 288) (count : Nat) (b : List Byte) : List Byte :=
  List.zipWith (fun x y => x ^^^ y) b (blockCipher k count (List.replicate b.length 0))

/-- Records that a message takes in a packed container (R154). -/
def msgRecords (n : Nat) : Nat := if n ≤ 48 then 1 else 2

/-- The record bytes of one packed message (R154). -/
def msgBytes (m : Msg) : List Byte :=
  let n := 64 * msgRecords m.data.length
  sliceBytes (leBytes 16 (packFields [(6, m.opc), (7, m.len), (1, ofBool m.reply), (1, ofBool m.ord), (1, 0),
    (16, m.hank), (32, m.seq), (49, m.offset), (12, m.ttag), (3, 0)]) ++ m.data) 0 n

/-- Bytes of data that a message of this opcode carries in its payload (R152): a READ and an ACK carry none. -/
def dataLen (opc len : Nat) : Nat :=
  if opc = 0x02 || opc = 0x31 then 0
  else if opc = 0x29 then 2 * len     -- compare-and-swap: operand and compare
  else if opc = 0x04 then 8 else len

/-- The packed message at the start of a record (R154). -/
def msgOf (b : List Byte) : Msg :=
  let w := fieldNat b 0 16
  let opc := bits 0 6 w
  let len := bits 6 7 w
  { opc := opc, len := len, reply := bit 13 w, ord := bit 14 w, hank := bits 16 16 w, seq := bits 32 32 w,
    offset := bits 64 49 w, ttag := bits 113 12 w, data := sliceBytes (b.drop 16) 0 (dataLen opc len) }

/-- The messages of a packed container's payload (R154). -/
def unpackMsgs : Nat → List Byte → List Msg
  | 0, _ => []
  | n + 1, b =>
    let m := msgOf b
    m :: unpackMsgs n (b.drop (64 * msgRecords m.data.length))

/-- The command that a 64-byte ring entry holds (R387). -/
def commandOf (b : List Byte) : Command :=
  { op := fieldNat b 0 1, rsv := fieldNat b 1 3, tag := fieldNat b 4 4, addr := fieldNat b 8 8, len := fieldNat b 16 4, p0 := fieldNat b 20 4
    p1 := fieldNat b 24 8, args := sliceBytes b 32 32 }

/-- The 64-byte ring entry of a command (R387). -/
def commandBytes (c : Command) : List Byte :=
  leBytes 1 c.op ++ leBytes 3 c.rsv ++ leBytes 4 c.tag ++ leBytes 8 c.addr ++ leBytes 4 c.len ++ leBytes 4 c.p0 ++ leBytes 8 c.p1
    ++ sliceBytes c.args 0 32

/-- The messages that a container carries (R155): its own, or those of its records. -/
def containerMsgs (c : Container) : List Msg :=
  if c.kind = 2 then unpackMsgs c.nmsg (sliceBytes c.payload 0 768)
  else [{ opc := c.opc, len := c.len, reply := c.reply, ord := c.ord, hank := c.hank, seq := c.seq,
          offset := c.offset, ttag := c.ttag, data := sliceBytes c.payload 0 (dataLen c.opc c.len) }]

/-- Whether a container holds any reply record (R164, R167). -/
def holdsReply (c : Container) : Bool := (containerMsgs c).any (·.reply)

/-- The base fields of a container that its messages, one or several, do not set. -/
structure Envelope where
  dest : Nat
  src : Nat
  skein : Nat
  epoch : Nat
  age : Nat
  win : Nat
  stream : Nat
  sync : Bool
  deriving DecidableEq, Repr

/-- A container that carries the messages `ms` (R149, R154, R155): single for one message, packed for several. -/
def containerOf (e : Envelope) (ms : List Msg) : Container :=
  match ms with
  | [m] =>
    { kind := 1, reply := m.reply, refl := false, ord := m.ord, sync := e.sync, dest := e.dest, src := e.src,
      skein := e.skein, epoch := e.epoch, stream := if m.ord then e.stream else 0, seq := m.seq, hank := m.hank,
      age := e.age, hops := 0, defl := 0, opc := m.opc, len := m.len, offset := m.offset, ttag := m.ttag,
      win := e.win, nmsg := 0, crc := 0, payload := m.data }
  | ms =>
    { kind := 2, reply := false, refl := false, ord := ms.any (·.ord), sync := e.sync, dest := e.dest, src := e.src,
      skein := e.skein, epoch := e.epoch, stream := if ms.any (·.ord) then e.stream else 0, seq := 0, hank := 0,
      age := e.age, hops := 0, defl := 0, opc := 0, len := 0, offset := (ms.map (·.offset)).headD 0, ttag := 0,
      win := e.win, nmsg := ms.length, crc := 0, payload := ms.flatMap msgBytes }

/-! ### The hash of R123 -/

/-- h of R123 for a node and an offset. -/
def hashOf (node offset : Nat) : Nat :=
  ((node * 2 ^ 37 + offset / 4096) * 0x9E3779B97F4A7C15) % 2 ^ 64

/-- The plane that R123 chooses from the mask `m` of planes, if there is one. -/
def planeOf (node offset m : Nat) : Option Nat :=
  let l := setBitsOf 8 m
  if l.length = 0 then none else l[(hashOf node offset / 2 ^ 32) % l.length]?

/-! ### Waits on a counter (R48) -/

/-- Whether a counter value satisfies a threshold (R48). -/
def hankMet (counter thresh : Nat) : Bool := subMod 64 counter thresh < 2 ^ 63

end Sys2Proof.Machine
end

