-- ==== Sys2Proof/Machine/RegTable.lean ====
section
/-! DEFINITION. The register tables of the manual (R53, R93, R101, R127, R128, R148, R180-R182, R215, R216, R245,
R246, R264, R299-R301, R319-R321, R343, R344, R364, R365, R383, R407-R410, R419): one row per register, with the bits of each
access type (R13) and its reset value (R14), and one address per register. -/

namespace Sys2Proof.Machine

/-- One row of a register table: where the register lies (`dims` are the strides and counts of an array, widest
first), which of its bits have which access type (R13), and its reset value. -/
structure RegRow where
  base : Nat
  dims : List (Nat × Nat)
  rw : Nat
  rwp : Nat
  w1c : Nat
  wo : Nat
  ro : Nat
  reset : Nat

namespace RegTable

/-- Rows of the ep registers, part 0. -/
def epRows0 : List RegRow := [
  ⟨0x800000, [(0x8, 65536)], 0x0, 0x0, 0x0, 0x0, 0xFFFFFFFF, 0x0⟩,  -- EP_HNK.CNT_LO[n] (R53)
  ⟨0x800004, [(0x8, 65536)], 0x0, 0x0, 0x0, 0x0, 0xFFFFFFFF, 0x0⟩,  -- EP_HNK.CNT_HI[n] (R53)
  ⟨0x880000, [], 0x0, 0x0, 0x0, 0x0, 0xFFFFFFFF, 0x0⟩,  -- EP_HNK.FENCE (R53)
  ⟨0x0, [], 0x0, 0x0, 0x0, 0x0, 0xFFFFFFFF, 0xE08B001⟩,  -- EP_ATT.ID (R93)
  ⟨0x4, [], 0x3, 0x0, 0x0, 0x0, 0x0, 0x0⟩,  -- EP_ATT.CTL (R93)
  ⟨0x8, [], 0x0, 0x0, 0x0, 0x0, 0xFFF1, 0x0⟩,  -- EP_ATT.STAT (R93)
  ⟨0xC, [], 0x0, 0x0, 0x7FF, 0x0, 0x0, 0x0⟩,  -- EP_ATT.ERR (R93)
  ⟨0x10, [], 0x0, 0x0, 0x0, 0x0, 0xFFFFFFFF, 0x0⟩,  -- EP_ATT.ERRCNT (R93)
  ⟨0x14, [], 0xFFFFFFFF, 0x0, 0x0, 0x0, 0x0, 0x271003E8⟩,  -- EP_ATT.TMO (R93)
  ⟨0x18, [], 0x0, 0x0, 0x0, 0x0, 0xFFFFFFFF, 0x10000000⟩,  -- EP_ATT.CRED (R93)
  ⟨0x1000, [(0x10, 256)], 0xFFFFFFFF, 0x0, 0x0, 0x0, 0x0, 0x0⟩,  -- EP_ATT.FWSEG_BASE[n] (R93)
  ⟨0x1004, [(0x10, 256)], 0xFFFFF1, 0x0, 0x0, 0x0, 0x0, 0xFF0000⟩,  -- EP_ATT.FWSEG_CTL[n] (R93)
  ⟨0x1008, [(0x10, 256)], 0xFFFF, 0x0, 0x0, 0x0, 0x0, 0x0⟩,  -- EP_ATT.FWSEG_HANK[n] (R93)
  ⟨0x400000, [(0x1000, 1024)], 0xFFFFFFFF, 0x0, 0x0, 0x0, 0x0, 0x0⟩,  -- EP_RNG[n].SQ_DB (R101)
  ⟨0x400008, [(0x1000, 1024)], 0xFFFFFFFF, 0x0, 0x0, 0x0, 0x0, 0x0⟩,  -- EP_RNG[n].CQ_DB (R101)
  ⟨0x40000C, [(0x1000, 1024)], 0x0, 0x0, 0x0, 0x1, 0x0, 0x0⟩,  -- EP_RNG[n].ARM (R101)
  ⟨0x100000, [(0x40, 1024)], 0xFFFFF000, 0x0, 0x0, 0x0, 0x0, 0x0⟩,  -- EP_RNG[n].SQ_BASE_LO (R127)
  ⟨0x100004, [(0x40, 1024)], 0xFFFFF, 0x0, 0x0, 0x0, 0x0, 0x0⟩,  -- EP_RNG[n].SQ_BASE_HI (R127)
  ⟨0x100008, [(0x40, 1024)], 0xFFFFF000, 0x0, 0x0, 0x0, 0x0, 0x0⟩,  -- EP_RNG[n].CQ_BASE_LO (R127)
  ⟨0x10000C, [(0x40, 1024)], 0xFFFFF, 0x0, 0x0, 0x0, 0x0, 0x0⟩]  -- EP_RNG[n].CQ_BASE_HI (R127)

/-- Rows of the ep registers, part 1. -/
def epRows1 : List RegRow := [
  ⟨0x100010, [(0x40, 1024)], 0x7FFFFFF, 0x0, 0x0, 0x0, 0x0, 0xFF0000⟩,  -- EP_RNG[n].CFG (R127)
  ⟨0x100014, [(0x40, 1024)], 0xFFFF, 0x0, 0x0, 0x0, 0x0, 0x4001⟩,  -- EP_RNG[n].SCHED (R127)
  ⟨0x100018, [(0x40, 1024)], 0xFFFFFF, 0x0, 0x0, 0x0, 0x0, 0x1⟩,  -- EP_RNG[n].IMOD (R127)
  ⟨0x10001C, [(0x40, 1024)], 0x0, 0x0, 0x0, 0x0, 0xFFFFFF07, 0x0⟩,  -- EP_RNG[n].STAT (R127)
  ⟨0x100020, [(0x40, 1024)], 0x0, 0x0, 0x0, 0x0, 0xFFFFFFFF, 0x0⟩,  -- EP_RNG[n].SQ_HEAD (R127)
  ⟨0x100024, [(0x40, 1024)], 0x0, 0x0, 0x0, 0x0, 0xFFFFFFFF, 0x0⟩,  -- EP_RNG[n].SQ_TAIL (R127)
  ⟨0x100028, [(0x40, 1024)], 0x0, 0x0, 0x0, 0x0, 0xFFFFFFFF, 0x0⟩,  -- EP_RNG[n].CQ_TAIL (R127)
  ⟨0x10002C, [(0x40, 1024)], 0x0, 0x0, 0x0, 0x0, 0xFFFFFFFF, 0x0⟩,  -- EP_RNG[n].CQ_HEAD (R127)
  ⟨0x20000, [], 0xFFFFF, 0x0, 0x0, 0x0, 0x0, 0x4FFFF⟩,  -- EP_SHT.CTL (R128)
  ⟨0x20004, [], 0xFFFF, 0x0, 0x0, 0x0, 0x0, 0x0⟩,  -- EP_SHT.PACK (R128)
  ⟨0x20008, [], 0x0, 0x0, 0x0, 0x0, 0x3FFF, 0x0⟩,  -- EP_SHT.GATES (R128)
  ⟨0x2000C, [], 0x0, 0x0, 0x0, 0x0, 0xFFFFFFFF, 0x0⟩,  -- EP_SHT.ACTIVE (R128)
  ⟨0x20100, [(0x10, 16)], 0x0, 0x0, 0x0, 0x0, 0x3FF7, 0x0⟩,  -- EP_SHT.STAT[s] (R128)
  ⟨0x20104, [(0x10, 16)], 0x0, 0x0, 0x0, 0x0, 0xFFFFFFFF, 0x0⟩,  -- EP_SHT.CNT_LO[s] (R128)
  ⟨0x20108, [(0x10, 16)], 0x0, 0x0, 0x0, 0x0, 0xFFFFFFFF, 0x0⟩,  -- EP_SHT.CNT_HI[s] (R128)
  ⟨0x30000, [], 0x3, 0x0, 0x0, 0x0, 0x0, 0x0⟩,  -- EP_XLT.CTL (R148)
  ⟨0x30004, [], 0xFF, 0x0, 0x0, 0x0, 0x0, 0x0⟩,  -- EP_XLT.RCFG (R148)
  ⟨0x30008, [], 0xFFFFF000, 0x0, 0x0, 0x0, 0x0, 0x0⟩,  -- EP_XLT.MISS_BASE_LO (R148)
  ⟨0x3000C, [], 0xFFFFF, 0x0, 0x0, 0x0, 0x0, 0x0⟩,  -- EP_XLT.MISS_BASE_HI (R148)
  ⟨0x30010, [], 0xFFFFF000, 0x0, 0x0, 0x0, 0x0, 0x0⟩]  -- EP_XLT.FILL_BASE_LO (R148)

/-- Rows of the ep registers, part 2. -/
def epRows2 : List RegRow := [
  ⟨0x30014, [], 0xFFFFF, 0x0, 0x0, 0x0, 0x0, 0x0⟩,  -- EP_XLT.FILL_BASE_HI (R148)
  ⟨0x30018, [], 0xFFFF, 0x0, 0x0, 0x0, 0x0, 0x3E8⟩,  -- EP_XLT.TMO (R148)
  ⟨0x3001C, [], 0xFFFFFFFF, 0x0, 0x0, 0x0, 0x0, 0x0⟩,  -- EP_XLT.FILL_DB (R148)
  ⟨0x30020, [], 0xFFFFFFFF, 0x0, 0x0, 0x0, 0x0, 0x0⟩,  -- EP_XLT.MISS_DB (R148)
  ⟨0x30024, [], 0x0, 0x0, 0x0, 0x1, 0x0, 0x0⟩,  -- EP_XLT.ARM (R148)
  ⟨0x30028, [], 0x0, 0x0, 0x0, 0x0, 0xFFFFFF07, 0x0⟩,  -- EP_XLT.STAT (R148)
  ⟨0x3002C, [], 0x0, 0x0, 0x0, 0x0, 0xFFF1FFF, 0x0⟩,  -- EP_XLT.OCC (R148)
  ⟨0x30030, [], 0x0, 0x0, 0x0, 0x0, 0xFFFF07FF, 0x0⟩,  -- EP_XLT.DMISS (R148)
  ⟨0x30034, [], 0x0, 0x0, 0x0, 0x0, 0xFFFFFFFF, 0x0⟩,  -- EP_XLT.DROP (R148)
  ⟨0x30038, [], 0x0, 0x0, 0x0, 0x0, 0xFFFFFFFF, 0x0⟩,  -- EP_XLT.MISS_TAIL (R148)
  ⟨0x3003C, [], 0x0, 0x0, 0x0, 0x0, 0xFFFFFFFF, 0x0⟩,  -- EP_XLT.MISS_HEAD (R148)
  ⟨0x30040, [], 0x0, 0x0, 0x0, 0x0, 0xFFFFFFFF, 0x0⟩,  -- EP_XLT.FILL_TAIL (R148)
  ⟨0x30044, [], 0x0, 0x0, 0x0, 0x0, 0xFFFFFFFF, 0x0⟩,  -- EP_XLT.FILL_HEAD (R148)
  ⟨0x40000, [], 0xF, 0x0, 0x0, 0x0, 0x0, 0x3⟩,  -- EP_SEQ.CTL (R180)
  ⟨0x40004, [], 0xFFFFFF, 0x0, 0x0, 0x0, 0x0, 0x40008⟩,  -- EP_SEQ.TMO (R180)
  ⟨0x40008, [], 0x3FF, 0x0, 0x0, 0x0, 0x0, 0x1F4⟩,  -- EP_SEQ.LIFE (R180)
  ⟨0x4000C, [], 0xFFFF, 0x0, 0x0, 0x0, 0x0, 0x100⟩,  -- EP_SEQ.BACKOFF (R180)
  ⟨0x40010, [], 0x7F7F, 0x0, 0x0, 0x0, 0x0, 0x840⟩,  -- EP_SEQ.CRED (R180)
  ⟨0x40014, [], 0xFFFF, 0x0, 0x0, 0x0, 0x0, 0xC8⟩,  -- EP_SEQ.ACK (R180)
  ⟨0x40018, [], 0xFFFF, 0x0, 0x0, 0x0, 0x0, 0x0⟩]  -- EP_SEQ.EPOCH (R180)

/-- Rows of the ep registers, part 3. -/
def epRows3 : List RegRow := [
  ⟨0x4001C, [], 0x0, 0x0, 0x0, 0x0, 0x1FFF1FFF, 0x0⟩,  -- EP_SEQ.STAT (R180)
  ⟨0x40020, [], 0x0, 0x0, 0x0, 0x0, 0xFFFFFFFF, 0x0⟩,  -- EP_SEQ.REFL_LO (R180)
  ⟨0x40024, [], 0x0, 0x0, 0x0, 0x0, 0xFFFFFFFF, 0x0⟩,  -- EP_SEQ.REFL_HI (R180)
  ⟨0x40028, [], 0x0, 0x0, 0x0, 0x0, 0xFFFFFFFF, 0x0⟩,  -- EP_SEQ.TOUT_LO (R180)
  ⟨0x4002C, [], 0x0, 0x0, 0x0, 0x0, 0xFFFFFFFF, 0x0⟩,  -- EP_SEQ.TOUT_HI (R180)
  ⟨0x40030, [], 0x0, 0x0, 0x0, 0x0, 0xFFFFFFFF, 0x0⟩,  -- EP_SEQ.DUP_LO (R180)
  ⟨0x40034, [], 0x0, 0x0, 0x0, 0x0, 0xFFFFFFFF, 0x0⟩,  -- EP_SEQ.DUP_HI (R180)
  ⟨0x40038, [], 0x0, 0x0, 0x0, 0x0, 0xFFFFFFFF, 0x0⟩,  -- EP_SEQ.REFUSE_LO (R180)
  ⟨0x4003C, [], 0x0, 0x0, 0x0, 0x0, 0xFFFFFFFF, 0x0⟩,  -- EP_SEQ.REFUSE_HI (R180)
  ⟨0x40040, [], 0x0, 0x0, 0x0, 0x0, 0xFFFFFFFF, 0x0⟩,  -- EP_SEQ.LOST (R180)
  ⟨0x50000, [], 0x7, 0x0, 0x0, 0x18, 0x0, 0x0⟩,  -- EP_SEQ.WCTL (R216)
  ⟨0x50004, [], 0xFFFFFFFF, 0x0, 0x0, 0x0, 0x0, 0x0⟩,  -- EP_SEQ.WSTART (R216)
  ⟨0x50008, [], 0x0, 0x0, 0x0, 0x0, 0x3FFF, 0x0⟩,  -- EP_SEQ.WSTAT (R216)
  ⟨0x5000C, [], 0x0, 0x0, 0x0, 0x0, 0xFFFF0703, 0x0⟩,  -- EP_SEQ.WORDER (R216)
  ⟨0x50010, [], 0x0, 0x0, 0x0, 0x0, 0xFFFFFFFF, 0x0⟩,  -- EP_SEQ.WFAULT (R216)
  ⟨0x50014, [], 0x0, 0x0, 0x0, 0x0, 0xFFFFFFFF, 0x0⟩,  -- EP_SEQ.WCNT (R216)
  ⟨0x50020, [(0x4, 8)], 0x7FFF, 0x0, 0x0, 0x0, 0x0, 0x0⟩,  -- EP_SEQ.WNODE[p] (R216)
  ⟨0x50040, [(0x4, 8)], 0x0, 0x0, 0x0, 0x0, 0xFFFF, 0x0⟩,  -- EP_SEQ.WDLY[p] (R216)
  ⟨0x50060, [(0x4, 8)], 0xF, 0x0, 0x0, 0x0, 0x0, 0x0⟩,  -- EP_SEQ.WALT[c] (R216)
  ⟨0x50080, [(0x4, 8)], 0x0, 0x0, 0x0, 0x0, 0x77, 0x0⟩]  -- EP_SEQ.WPORT[p] (R216)

/-- Rows of the ep registers, part 4. -/
def epRows4 : List RegRow := [
  ⟨0x60000, [], 0xF, 0x0, 0x0, 0x0, 0x0, 0xD⟩,  -- EP_OPT.CTL (R301)
  ⟨0x60004, [], 0x0, 0x0, 0x0, 0x0, 0xFF, 0x0⟩,  -- EP_OPT.STAT (R301)
  ⟨0x60008, [], 0x0, 0x0, 0x0, 0x0, 0xFFFFFFFF, 0x0⟩,  -- EP_OPT.SERIAL_LO (R301)
  ⟨0x6000C, [], 0x0, 0x0, 0x0, 0x0, 0xFFFFFFFF, 0x0⟩,  -- EP_OPT.SERIAL_HI (R301)
  ⟨0x60010, [], 0xFFFFFF, 0x0, 0x0, 0x0, 0x0, 0x5000A⟩,  -- EP_OPT.EVAL (R301)
  ⟨0x60014, [], 0x0, 0x0, 0x7, 0x0, 0x0, 0x0⟩,  -- EP_OPT.ERR (R301)
  ⟨0x60020, [(0x4, 10)], 0x0, 0x0, 0x0, 0x0, 0xFFF3FFF, 0x0⟩,  -- EP_OPT.EMIT[w] (R301)
  ⟨0x60100, [(0x4, 8)], 0x0, 0x0, 0x0, 0x0, 0xFFFF, 0x0⟩,  -- EP_OPT.SKYPWR[p] (R301)
  ⟨0x70000, [], 0x3F01, 0x0, 0x0, 0x0, 0x0, 0x2801⟩,  -- EP_SEC.CFG (R344)
  ⟨0x70004, [], 0x0, 0x0, 0x0, 0x0, 0x7, 0x0⟩,  -- EP_SEC.FW (R344)
  ⟨0x70008, [], 0x0, 0x0, 0x0, 0x0, 0x1FFF00FF, 0x0⟩,  -- EP_SEC.ASSIGN (R344)
  ⟨0x7000C, [], 0x0, 0x0, 0x0, 0x0, 0x3, 0x0⟩,  -- EP_SEC.KEYS (R344)
  ⟨0x70010, [], 0x0, 0x0, 0x0, 0x0, 0xFFFFFFFF, 0x0⟩,  -- EP_SEC.MODEL_ID (R344)
  ⟨0x70014, [], 0x0, 0x0, 0x0, 0x0, 0xFFFFFFFF, 0x0⟩,  -- EP_SEC.SKY_ID (R344)
  ⟨0x70018, [], 0x0, 0x0, 0x0, 0x0, 0x1, 0x1⟩,  -- EP_SEC.DBG (R344)
  ⟨0x7001C, [], 0x0, 0x0, 0x1F, 0x0, 0x0, 0x0⟩,  -- EP_SEC.ERR (R344)
  ⟨0x70020, [], 0x0, 0x0, 0x0, 0x0, 0xFFFF, 0x0⟩,  -- EP_SEC.NODE (R344)
  ⟨0x70100, [(0x10, 8)], 0x0, 0x0, 0x0, 0x0, 0xFFFFFFFF, 0x0⟩,  -- EP_SEC.P[p].TXCNT_LO (R344)
  ⟨0x70104, [(0x10, 8)], 0x0, 0x0, 0x0, 0x0, 0xFFFFFFFF, 0x0⟩,  -- EP_SEC.P[p].TXCNT_HI (R344)
  ⟨0x70108, [(0x10, 8)], 0x0, 0x0, 0x0, 0x0, 0xFFFF, 0x0⟩]  -- EP_SEC.P[p].KEYGEN (R344)

/-- Rows of the ep registers, part 5. -/
def epRows5 : List RegRow := [
  ⟨0x7010C, [(0x10, 8)], 0x0, 0x0, 0x0, 0x0, 0xFFFFFFFF, 0x0⟩,  -- EP_SEC.P[p].TAGSTAT (R344)
  ⟨0x70200, [], 0x0, 0x0, 0x0, 0x0, 0x1FFF, 0x0⟩,  -- EP_SEC.LOG_STAT (R344)
  ⟨0x70204, [], 0x0, 0x0, 0x0, 0x0, 0xFFFFFFFF, 0x0⟩,  -- EP_SEC.LOG_COPYLOST (R344)
  ⟨0x70210, [(0x4, 12)], 0x0, 0x0, 0x0, 0x0, 0xFFFFFFFF, 0x0⟩,  -- EP_SEC.LOG_HASH[i] (R344)
  ⟨0xC0000, [(0x20, 4096), (0x4, 8)], 0x0, 0x0, 0x0, 0x0, 0xFFFFFFFF, 0x0⟩,  -- EP_SEC.LOG[n] (R344)
  ⟨0x900000, [(0x8, 65536)], 0x0, 0x0, 0x0, 0x0, 0xFFFFFFFF, 0x0⟩,  -- EP_HNK.SNAP_LO[n] (R364)
  ⟨0x900004, [(0x8, 65536)], 0x0, 0x0, 0x0, 0x0, 0xFFFFFFFF, 0x0⟩,  -- EP_HNK.SNAP_HI[n] (R364)
  ⟨0x980000, [], 0x0, 0x0, 0x0, 0x0, 0x7FFFF, 0x0⟩,  -- EP_HNK.SNAP_STAT (R364)
  ⟨0x980008, [], 0x0, 0x0, 0x0, 0x0, 0xFFFFFFFF, 0x0⟩,  -- EP_HNK.SNAP_T_LO (R364)
  ⟨0x98000C, [], 0x0, 0x0, 0x0, 0x0, 0xFFFFFFFF, 0x0⟩]  -- EP_HNK.SNAP_T_HI (R364)

/-- Every row of the ep registers. -/
def epRows : List RegRow := epRows0 ++ epRows1 ++ epRows2 ++ epRows3 ++ epRows4 ++ epRows5

/-- Rows of the hub registers, part 0. -/
def hubRows0 : List RegRow := [
  ⟨0x200000, [], 0xFF03, 0x0, 0x0, 0x0, 0x0, 0x100⟩,  -- XBR.CTL (R181)
  ⟨0x200004, [(0x4, 6)], 0xFFFFFFFF, 0x0, 0x0, 0x0, 0x0, 0xFFFFFFFF⟩,  -- XBR.PATHMASK[k], k = 0–5 (R181)
  ⟨0x200020, [], 0x7FFFFF0F, 0x0, 0x0, 0x0, 0x0, 0xC⟩,  -- XBR.ANA_CTL (R181)
  ⟨0x200024, [], 0xFFFFFFFF, 0x0, 0x0, 0x0, 0x0, 0x0⟩,  -- XBR.ANA_FLT (R181)
  ⟨0x200028, [], 0x0, 0x0, 0x0, 0x0, 0xFFFFFFFF, 0x0⟩,  -- XBR.ANA_STAT (R181)
  ⟨0x210000, [(0x4, 28672)], 0xFF07, 0x0, 0x0, 0x0, 0x0, 0x0⟩,  -- XBR.RT[n] (R181)
  ⟨0x300000, [], 0x27, 0x0, 0x0, 0x18, 0x0, 0x0⟩,  -- DRF.CTL (R215)
  ⟨0x300004, [], 0xFFFFFFFF, 0x0, 0x0, 0x0, 0x0, 0x0⟩,  -- DRF.START (R215)
  ⟨0x300008, [], 0x0, 0x0, 0x0, 0x0, 0x7FF0F, 0x0⟩,  -- DRF.STAT (R215)
  ⟨0x30000C, [], 0x0, 0x0, 0x0, 0x7, 0x0, 0x0⟩,  -- DRF.COMMIT (R215)
  ⟨0x300010, [(0x4, 8)], 0xF, 0x0, 0x0, 0x0, 0x0, 0x0⟩,  -- DRF.ALT[c] (R215)
  ⟨0x300030, [], 0x0, 0x0, 0x0, 0x0, 0xFFFF0773, 0x0⟩,  -- DRF.ORDER (R215)
  ⟨0x300034, [], 0x0, 0x0, 0x0, 0x0, 0xFFFFFFFF, 0x0⟩,  -- DRF.FAULT (R215)
  ⟨0x300038, [], 0x0, 0x0, 0x0, 0x0, 0xFFFFFFFF, 0x0⟩,  -- DRF.EFFECT (R215)
  ⟨0x300040, [], 0x1FFFFFFF, 0x0, 0x0, 0x0, 0x0, 0x0⟩,  -- DRF.SHADOW_BASE (R215)
  ⟨0x300044, [], 0xFFFF, 0x0, 0x0, 0x0, 0x0, 0x0⟩,  -- DRF.SHADOW_SIZE (R215)
  ⟨0x300080, [(0x4, 96)], 0x1F, 0x0, 0x0, 0x0, 0x0, 0x0⟩,  -- DRF.SPMAP[n] (R215)
  ⟨0x300200, [(0x4, 192)], 0xFF, 0x0, 0x0, 0x0, 0x0, 0x0⟩,  -- DRF.PMAP[n] (R215)
  ⟨0x300500, [(0x4, 192)], 0x0, 0x0, 0x0, 0x0, 0xFFFF, 0x0⟩,  -- DRF.LDLY[p] (R215)
  ⟨0x300800, [], 0xFF, 0x0, 0x0, 0x0, 0x0, 0x0⟩]  -- DRF.TSEL (R215)

/-- Rows of the hub registers, part 1. -/
def hubRows1 : List RegRow := [
  ⟨0x300804, [(0x4, 6)], 0x0, 0x0, 0x0, 0x0, 0xFFFFFFFF, 0x0⟩,  -- DRF.TMAP[k] (R215)
  ⟨0x30081C, [], 0x0, 0x0, 0x0, 0x0, 0xFFFF0003, 0x0⟩,  -- DRF.TSTAT (R215)
  ⟨0x400000, [], 0x0, 0x0, 0x0, 0x0, 0xFF, 0x1⟩,  -- SPD.ID (R245)
  ⟨0x400100, [(0x8, 64)], 0xFFFFFFFF, 0x0, 0x0, 0x0, 0x0, 0x0⟩,  -- SPD.SEED_LO[k] (R245)
  ⟨0x400104, [(0x8, 64)], 0xFFFFFFFF, 0x0, 0x0, 0x0, 0x0, 0x0⟩,  -- SPD.SEED_HI[k] (R245)
  ⟨0x500000, [], 0x1, 0x0, 0x0, 0x0, 0x0, 0x0⟩,  -- FMH.CTL (R264)
  ⟨0x500004, [], 0xFFFF, 0x0, 0x0, 0x0, 0x0, 0x0⟩,  -- FMH.EPOCH (R264)
  ⟨0x500008, [], 0x0, 0x0, 0x0, 0x0, 0x60000000, 0x0⟩,  -- FMH.STAT (R264)
  ⟨0x50000C, [], 0x0, 0x0, 0x1F, 0x0, 0x0, 0x0⟩,  -- FMH.ERR (R264)
  ⟨0x500010, [], 0x0, 0x0, 0x0, 0x0, 0xFFFFFFFF, 0x0⟩,  -- FMH.CECNT (R264)
  ⟨0x500014, [], 0x0, 0x0, 0x0, 0x0, 0xFFFFFFFF, 0x0⟩,  -- FMH.UECNT (R264)
  ⟨0x500018, [(0x4, 4)], 0x0, 0x0, 0x0, 0x0, 0xFFFFFFFF, 0x0⟩,  -- FMH.CHFENCE[s] (R264)
  ⟨0x500028, [], 0x0, 0x0, 0x0, 0x0, 0xFF, 0x0⟩,  -- FMH.SCRUB (R264)
  ⟨0x501000, [(0x10, 256)], 0x1FFFF, 0x0, 0x0, 0x0, 0x0, 0x0⟩,  -- FMH.RGN_BASE[n] (R264)
  ⟨0x501004, [(0x10, 256)], 0x1FFFF, 0x0, 0x0, 0x0, 0x0, 0x0⟩,  -- FMH.RGN_SIZE[n] (R264)
  ⟨0x501008, [(0x10, 256)], 0x3FF, 0x0, 0x0, 0x0, 0x400, 0x0⟩,  -- FMH.RGN_CTL[n] (R264)
  ⟨0x502000, [(0x4, 64)], 0x7FFF3FFF, 0x0, 0x0, 0x0, 0x0, 0x0⟩,  -- FMH.HGRANT[k] (R264)
  ⟨0x504000, [(0x10, 4096)], 0x7FFF, 0x0, 0x0, 0x0, 0x0, 0x0⟩,  -- FMH.RELAY_CTL[m] (R264)
  ⟨0x504004, [(0x10, 4096)], 0xFFFF7FFF, 0x0, 0x0, 0x0, 0x0, 0x0⟩,  -- FMH.RELAY_TGT[m] (R264)
  ⟨0x504008, [(0x10, 4096)], 0xFFFFFFFF, 0x0, 0x0, 0x0, 0x0, 0x0⟩]  -- FMH.RELAY_STEP[m] (R264)

/-- Rows of the hub registers, part 2. -/
def hubRows2 : List RegRow := [
  ⟨0x580000, [(0x8, 16384)], 0x0, 0x0, 0x0, 0x0, 0xFFFFFFFF, 0x0⟩,  -- FMH.HCNT_LO[n] (R264)
  ⟨0x580004, [(0x8, 16384)], 0x0, 0x0, 0x0, 0x0, 0xFFFFFFFF, 0x0⟩,  -- FMH.HCNT_HI[n] (R264)
  ⟨0x600000, [(0x100, 4)], 0x3, 0x0, 0x0, 0x0, 0x0, 0x2⟩,  -- LAS[m].CTL (R300)
  ⟨0x600004, [(0x100, 4)], 0x0, 0x0, 0x0, 0x0, 0x1FFF, 0x0⟩,  -- LAS[m].STAT (R300)
  ⟨0x600008, [(0x100, 4)], 0x0, 0x0, 0x1F, 0x0, 0x0, 0x0⟩,  -- LAS[m].ERR (R300)
  ⟨0x600010, [(0x100, 4), (0x4, 10)], 0x0, 0x0, 0x0, 0x0, 0xFFF0FFF, 0x0⟩,  -- LAS[m].BIAS[w] (R300)
  ⟨0x600040, [(0x100, 4)], 0x1FF, 0x0, 0x0, 0x200, 0xC00, 0x0⟩,  -- LAS[m].ACCESS (R300)
  ⟨0x600044, [(0x100, 4)], 0xFFFFFFFF, 0x0, 0x0, 0x0, 0x0, 0x0⟩,  -- LAS[m].DATA (R300)
  ⟨0x600400, [], 0xFFFFFF, 0x0, 0x0, 0x0, 0x0, 0x5000A⟩,  -- LAS.EVAL (R300)
  ⟨0x700000, [], 0x0, 0x0, 0x0, 0x73F, 0x0, 0x0⟩,  -- SKN.CMD (R319)
  ⟨0x700004, [], 0x0, 0x0, 0x0, 0x0, 0xFF7F, 0x0⟩,  -- SKN.STAT (R319)
  ⟨0x700008, [], 0x0, 0x0, 0x0, 0x0, 0xFFFFFFFF, 0x0⟩,  -- SKN.FRAME (R319)
  ⟨0x700100, [(0x4, 64)], 0xC, 0x0, 0x0, 0x0, 0x3, 0x0⟩,  -- SKN[k].CTL (R319)
  ⟨0x700800, [(0x4, 192)], 0x7FFF7F, 0x0, 0x0, 0x0, 0x80, 0x0⟩,  -- SKN.PORT[p] (R319)
  ⟨0x800000, [], 0x1, 0x0, 0x0, 0x0, 0x0, 0x1⟩,  -- BUD.CTL (R320)
  ⟨0x800004, [], 0xFFFF, 0x0, 0x0, 0x0, 0x0, 0x400⟩,  -- BUD.SEALLAT (R320)
  ⟨0x800008, [], 0x0, 0x0, 0x0, 0x0, 0x1FF, 0x100⟩,  -- BUD.STAT (R320)
  ⟨0x800100, [(0x10, 64)], 0x3F1FFF, 0x0, 0x0, 0x0, 0x0, 0x201000⟩,  -- BUD.WEFT[k] (R320)
  ⟨0x800104, [(0x10, 64)], 0x7FFFF, 0x0, 0x0, 0x0, 0x0, 0x60000⟩,  -- BUD.SPIN[k] (R320)
  ⟨0x800108, [(0x10, 64)], 0x1FFFFF, 0x0, 0x0, 0x0, 0x0, 0x190000⟩]  -- BUD.HBM[k] (R320)

/-- Rows of the hub registers, part 3. -/
def hubRows3 : List RegRow := [
  ⟨0x80010C, [(0x10, 64)], 0xFFFF3FFF, 0x0, 0x0, 0x0, 0x0, 0x1002000⟩,  -- BUD.AUX[k] (R320)
  ⟨0x900000, [], 0x3F01, 0x0, 0x0, 0x0, 0x0, 0x2801⟩,  -- SEC.CFG (R343)
  ⟨0x900004, [], 0x0, 0x0, 0x0, 0x0, 0x7, 0x0⟩,  -- SEC.FW (R343)
  ⟨0x900008, [], 0x0, 0x0, 0x0, 0x0, 0xFF07, 0x7⟩,  -- SEC.DBG (R343)
  ⟨0x90000C, [], 0x0, 0x0, 0xF, 0x0, 0x0, 0x0⟩,  -- SEC.ERR (R343)
  ⟨0x900100, [(0x10, 64)], 0x0, 0x0, 0x0, 0x0, 0xFFFFFFFF, 0x0⟩,  -- SEC.FKEY_ID[k] (R343)
  ⟨0x900104, [(0x10, 64)], 0x0, 0x0, 0x0, 0x0, 0x1, 0x0⟩,  -- SEC.FKEY_STAT[k] (R343)
  ⟨0x901000, [(0x10, 192)], 0x0, 0x0, 0x0, 0x0, 0xFFFFFFFF, 0x0⟩,  -- SEC.P[p].TXCNT_LO (R343)
  ⟨0x901004, [(0x10, 192)], 0x0, 0x0, 0x0, 0x0, 0xFFFFFFFF, 0x0⟩,  -- SEC.P[p].TXCNT_HI (R343)
  ⟨0x901008, [(0x10, 192)], 0x0, 0x0, 0x0, 0x0, 0xFFFF, 0x0⟩,  -- SEC.P[p].KEYGEN (R343)
  ⟨0x90100C, [(0x10, 192)], 0x0, 0x0, 0x0, 0x0, 0xFFFFFFFF, 0x0⟩,  -- SEC.P[p].TAGSTAT (R343)
  ⟨0xA00000, [], 0xFFFF03, 0x0, 0x0, 0x0, 0x0, 0xFFFF00⟩,  -- TIM.CTL (R383)
  ⟨0xA00004, [], 0x0, 0x0, 0x0, 0x0, 0xFF, 0xC⟩,  -- TIM.STAT (R383)
  ⟨0xA00008, [], 0x0, 0x0, 0x0, 0x0, 0xFFFFFFFF, 0x0⟩,  -- TIM.NOW_LO (R383)
  ⟨0xA0000C, [], 0x0, 0x0, 0x0, 0x0, 0xFFFFFFFF, 0x0⟩,  -- TIM.NOW_HI (R383)
  ⟨0xA00010, [], 0x0, 0x0, 0x0, 0xFFFFFFFF, 0x0, 0x0⟩,  -- TIM.SET_LO (R383)
  ⟨0xA00014, [], 0x0, 0x0, 0x0, 0xFFFFFFFF, 0x0, 0x0⟩,  -- TIM.SET_HI (R383)
  ⟨0xA00018, [], 0x0, 0x0, 0x0, 0x0, 0xFFFFFFFF, 0x0⟩,  -- TIM.OFFSET (R383)
  ⟨0xA0001C, [], 0x0, 0x0, 0x0, 0x0, 0xFFFFFFFF, 0x0⟩,  -- TIM.DELAY (R383)
  ⟨0xA00020, [], 0x0, 0x0, 0x0, 0x0, 0xFFFFFFFF, 0x0⟩]  -- TIM.FREQ (R383)

/-- Rows of the hub registers, part 4. -/
def hubRows4 : List RegRow := [
  ⟨0xA00100, [], 0x1FF3FF3, 0x0, 0x0, 0x0, 0x0, 0x403E80⟩,  -- TIM.PWR_CTL (R383)
  ⟨0xA00104, [], 0x0, 0x0, 0x0, 0x0, 0xFFFF001F, 0x0⟩,  -- TIM.PWR_STAT (R383)
  ⟨0xA00108, [(0x4, 6)], 0x0, 0x0, 0x0, 0x0, 0xFFFFFFFF, 0x0⟩,  -- TIM.PWR[a] (R383)
  ⟨0xA00120, [(0x4, 4)], 0x0, 0x0, 0x0, 0x0, 0xFFFFF, 0x0⟩,  -- TIM.THERM[d] (R383)
  ⟨0xA00130, [], 0x0, 0x0, 0x0, 0x0, 0xFFFF3FFF, 0x0⟩,  -- TIM.HOLDUP (R383)
  ⟨0xA00134, [], 0x30, 0x0, 0x0, 0x3, 0xC, 0x0⟩,  -- TIM.WAKE (R383)
  ⟨0x0, [], 0x0, 0x0, 0x0, 0x0, 0xFFFFFF00, 0x192B000⟩,  -- HUB.ID (R407)
  ⟨0x4, [], 0x0, 0x0, 0x0, 0x0, 0xFFFFFFFF, 0x0⟩,  -- HUB.SERIAL_LO (R407)
  ⟨0x8, [], 0x0, 0x0, 0x0, 0x0, 0xFFFFFFFF, 0x0⟩,  -- HUB.SERIAL_HI (R407)
  ⟨0xC, [], 0x0, 0x0, 0x0, 0x0, 0x3, 0x0⟩,  -- HUB.STAT (R407)
  ⟨0x10, [], 0x0, 0x0, 0x0, 0x0, 0xFFFFF, 0x0⟩,  -- HUB.RESET (R407)
  ⟨0x14, [], 0x0, 0x0, 0x0, 0x0, 0x1FF, 0x0⟩,  -- HUB.ERRSUM (R407)
  ⟨0x18, [], 0x2, 0x0, 0x0, 0x1, 0x0, 0x0⟩,  -- HUB.CTL (R407)
  ⟨0xC00000, [], 0xFFFFF000, 0x0, 0x0, 0x0, 0x0, 0x0⟩,  -- MGT.CMD_BASE_LO (R408)
  ⟨0xC00004, [], 0xFFFFFFFF, 0x0, 0x0, 0x0, 0x0, 0x0⟩,  -- MGT.CMD_BASE_HI (R408)
  ⟨0xC00008, [], 0x1F, 0x0, 0x0, 0x0, 0x0, 0x0⟩,  -- MGT.CMD_CFG (R408)
  ⟨0xC0000C, [], 0xFFFFFFFF, 0x0, 0x0, 0x0, 0x0, 0x0⟩,  -- MGT.CMD_DB (R408)
  ⟨0xC00010, [], 0xFFFFF000, 0x0, 0x0, 0x0, 0x0, 0x0⟩,  -- MGT.EVT_BASE_LO (R408)
  ⟨0xC00014, [], 0xFFFFFFFF, 0x0, 0x0, 0x0, 0x0, 0x0⟩,  -- MGT.EVT_BASE_HI (R408)
  ⟨0xC00018, [], 0x1F, 0x0, 0x0, 0x0, 0x0, 0x0⟩]  -- MGT.EVT_CFG (R408)

/-- Rows of the hub registers, part 5. -/
def hubRows5 : List RegRow := [
  ⟨0xC0001C, [], 0xFFFFFFFF, 0x0, 0x0, 0x0, 0x0, 0x0⟩,  -- MGT.EVT_DB (R408)
  ⟨0xC00020, [], 0x0, 0x0, 0x0, 0x0, 0xFF07, 0x0⟩,  -- MGT.STAT (R408)
  ⟨0xC00024, [], 0x0, 0x0, 0x0, 0x0, 0xFFFFFFFF, 0x0⟩,  -- MGT.EVT_OVF (R408)
  ⟨0xC00030, [], 0x3FFFF, 0x0, 0x0, 0x0, 0x0, 0x0⟩,  -- MGT.MWIN (R408)
  ⟨0xC00040, [], 0x0, 0x0, 0x0, 0x0, 0x7FFFF, 0x0⟩,  -- MGT.SNAP_STAT (R408)
  ⟨0xC00048, [], 0x0, 0x0, 0x0, 0x0, 0xFFFFFFFF, 0x0⟩,  -- MGT.SNAP_T_LO (R408)
  ⟨0xC0004C, [], 0x0, 0x0, 0x0, 0x0, 0xFFFFFFFF, 0x0⟩,  -- MGT.SNAP_T_HI (R408)
  ⟨0xC00050, [], 0x0, 0x0, 0x0, 0x0, 0xF, 0x0⟩,  -- MGT.CHAIN (R408)
  ⟨0xC01000, [(0x4, 16)], 0xFFFFFFFF, 0x0, 0x0, 0x0, 0x0, 0x0⟩,  -- MGT.MSIX (R408)
  ⟨0xC01800, [(0x4, 2)], 0x0, 0x0, 0x0, 0x0, 0xFFFFFFFF, 0x0⟩,  -- MGT.MSIX_PBA (R408)
  ⟨0xC10000, [(0x8, 16384)], 0x0, 0x0, 0x0, 0x0, 0xFFFFFFFF, 0x0⟩,  -- MGT.SNAP_LO[n] (R408)
  ⟨0xC10004, [(0x8, 16384)], 0x0, 0x0, 0x0, 0x0, 0xFFFFFFFF, 0x0⟩,  -- MGT.SNAP_HI[n] (R408)
  ⟨0xD00000, [(0x4, 262144)], 0xFFFFFFFF, 0x0, 0x0, 0x0, 0x0, 0x0⟩,  -- MGT.WIN (R408)
  ⟨0xB00000, [], 0xFFFFF000, 0x0, 0x0, 0x0, 0x0, 0x0⟩,  -- LOG.BASE_LO (R409)
  ⟨0xB00004, [], 0xFFFFFFFF, 0x0, 0x0, 0x0, 0x0, 0x0⟩,  -- LOG.BASE_HI (R409)
  ⟨0xB00008, [], 0x1F, 0x0, 0x0, 0x0, 0x0, 0x0⟩,  -- LOG.CFG (R409)
  ⟨0xB0000C, [], 0xFFFFFFFF, 0x0, 0x0, 0x0, 0x0, 0x0⟩,  -- LOG.DB (R409)
  ⟨0xB00010, [], 0x0, 0x0, 0x0, 0x0, 0xFFFFF, 0x0⟩,  -- LOG.STAT (R409)
  ⟨0xB00014, [], 0x0, 0x0, 0x0, 0x0, 0xFFFFFFFF, 0x0⟩,  -- LOG.LOST (R409)
  ⟨0xB00018, [], 0x0, 0x0, 0x0, 0x0, 0xFFFFFFFF, 0x0⟩]  -- LOG.COUNT_LO (R409)

/-- Rows of the hub registers, part 6. -/
def hubRows6 : List RegRow := [
  ⟨0xB0001C, [], 0x0, 0x0, 0x0, 0x0, 0xFFFFFFFF, 0x0⟩,  -- LOG.COUNT_HI (R409)
  ⟨0xB00040, [(0x4, 12)], 0x0, 0x0, 0x0, 0x0, 0xFFFFFFFF, 0x0⟩,  -- LOG.HASH[i] (R409)
  ⟨0xF00000, [], 0x0, 0xFFFF, 0x0, 0x0, 0x0, 0x0⟩,  -- PST.NODE (R410)
  ⟨0xF00004, [], 0x0, 0x3, 0x0, 0x0, 0x0, 0x0⟩,  -- PST.TRAY (R410)
  ⟨0xF00008, [], 0x0, 0x0, 0x0, 0x0, 0xFFFF, 0x0⟩,  -- PST.FWSVN (R410)
  ⟨0xF00100, [(0xC, 192)], 0x0, 0xFFFFFFFF, 0x0, 0x0, 0x0, 0x0⟩,  -- PST.PMAP_LO[p] (R410)
  ⟨0xF00104, [(0xC, 192)], 0x0, 0xFFFFFFFF, 0x0, 0x0, 0x0, 0x0⟩,  -- PST.PMAP_HI[p] (R410)
  ⟨0xF00108, [(0xC, 192)], 0x0, 0x3FF, 0x0, 0x0, 0x0, 0x0⟩,  -- PST.PMAP_PORT[p] (R410)
  ⟨0xF00A00, [(0x4, 305)], 0x0, 0x0, 0x0, 0x0, 0xFFFFFFFF, 0x0⟩,  -- PST.GEN[i] (R410)
  ⟨0xF00F00, [(0x4, 19)], 0x0, 0xFFFFFFFF, 0x0, 0x0, 0x0, 0x0⟩,  -- PST.FENCE[i] (R410)
  ⟨0xF00F80, [], 0x0, 0x0, 0x0, 0x0, 0xFFFFFFFF, 0x0⟩,  -- PST.HOURS (R410)
  ⟨0xF00F84, [], 0x0, 0x0, 0x0, 0x0, 0xFFFFFFFF, 0x0⟩,  -- PST.CYCLES (R410)
  ⟨0xF00F88, [], 0x0, 0x0, 0x0, 0x0, 0xFFFFFFFF, 0x0⟩,  -- PST.TRIPS (R410)
  ⟨0xF00F8C, [], 0x0, 0x0, 0x0, 0x0, 0x3FFF, 0x0⟩,  -- PST.HOLDUP (R410)
  ⟨0xF01000, [(0x20, 64)], 0x0, 0x3F1FFF, 0x0, 0x0, 0x0, 0x0⟩,  -- PST.TPL[t] word 0 (R410)
  ⟨0xF01004, [(0x20, 64)], 0x0, 0x7FFFF, 0x0, 0x0, 0x0, 0x0⟩,  -- PST.TPL[t] word 1 (R410)
  ⟨0xF01008, [(0x20, 64)], 0x0, 0x1FFFFF, 0x0, 0x0, 0x0, 0x0⟩,  -- PST.TPL[t] word 2 (R410)
  ⟨0xF0100C, [(0x20, 64)], 0x0, 0xFFFF3FFF, 0x0, 0x0, 0x0, 0x0⟩,  -- PST.TPL[t] word 3 (R410)
  ⟨0xF01010, [(0x20, 64)], 0x0, 0xC, 0x0, 0x0, 0x0, 0x0⟩,  -- PST.TPL[t] word 4 (R410)
  ⟨0xF04000, [(0x8, 4096)], 0x0, 0x0, 0x0, 0x0, 0x7FFFF, 0x0⟩]  -- PST.BIAS_LO[r] (R410)

/-- Rows of the hub registers, part 7. -/
def hubRows7 : List RegRow := [
  ⟨0xF04004, [(0x8, 4096)], 0x0, 0x0, 0x0, 0x0, 0xFFFFFFFF, 0x0⟩,  -- PST.BIAS_HI[r] (R410)
  ⟨0xF0C000, [(0x4, 4096)], 0x0, 0xFFFFFFFF, 0x0, 0x0, 0x0, 0x0⟩,  -- PST.OPER[n] (R410)
  ⟨0xF10000, [(0x4, 16384)], 0x0, 0x0, 0x0, 0x0, 0xC001FFFF, 0x0⟩,  -- PST.WEAR[w] (R410)
  ⟨0xF20000, [], 0x0, 0x0, 0x0, 0x0, 0xFFFF007F, 0x0⟩,  -- PST.STAT (R410)
  ⟨0xE00000, [(0x8, 609)], 0x0, 0x0, 0x0, 0x0, 0xFFFFFF1F, 0x3⟩,  -- HUB.USTAT[i] (R419)
  ⟨0xE00004, [(0x8, 609)], 0x0, 0x0, 0x0, 0x3, 0x0, 0x0⟩]  -- HUB.UCTL[i] (R419)

/-- Every row of the hub registers. -/
def hubRows : List RegRow := hubRows0 ++ hubRows1 ++ hubRows2 ++ hubRows3 ++ hubRows4 ++ hubRows5 ++ hubRows6 ++ hubRows7

/-- Rows of the prt registers, part 0. -/
def prtRows0 : List RegRow := [
  ⟨0x0, [], 0x0, 0x0, 0x0, 0x0, 0xFF03, 0x3⟩,  -- PRT[n].STAT (R365)
  ⟨0x4, [], 0x0, 0x0, 0x0, 0x3, 0x0, 0x0⟩,  -- PRT[n].CTL (R365)
  ⟨0x8, [], 0x0, 0x0, 0x0, 0x0, 0xFFFF, 0x0⟩,  -- PRT[n].GEN (R365)
  ⟨0xC, [], 0x0, 0x0, 0x0, 0x0, 0x7, 0x0⟩,  -- PRT[n].QSTEP (R365)
  ⟨0x10, [], 0x0, 0x0, 0x0, 0x0, 0xFFFF, 0x0⟩]  -- PRT[n].FENCES (R365)

/-- Every row of the prt registers. -/
def prtRows : List RegRow := prtRows0

/-- Rows of the edy registers, part 0. -/
def edyRows0 : List RegRow := [
  ⟨0x0, [], 0xFFF, 0x0, 0x0, 0x0, 0x0, 0x280⟩]  -- EDY[k].CTL (R182)

/-- Every row of the edy registers. -/
def edyRows : List RegRow := edyRows0

/-- Rows of the seal registers, part 0. -/
def sealRows0 : List RegRow := [
  ⟨0x0, [(0x4, 16)], 0xBFBFBFBF, 0x0, 0x0, 0x0, 0x0, 0x0⟩]  -- BUD.P[p].SEAL[i] (R321)

/-- Every row of the seal registers. -/
def sealRows : List RegRow := sealRows0

/-- Rows of the spd registers, part 0. -/
def spdRows0 : List RegRow := [
  ⟨0x0, [], 0x0, 0x0, 0x0, 0x0, 0x71, 0x0⟩,  -- SPD[n].STAT (R246)
  ⟨0x4, [], 0x0, 0x0, 0xF, 0x0, 0x0, 0x0⟩,  -- SPD[n].ERR (R246)
  ⟨0x8, [], 0x0, 0x0, 0x0, 0x1, 0x0, 0x0⟩]  -- SPD[n].CTL (R246)

/-- Every row of the spd registers. -/
def spdRows : List RegRow := spdRows0

/-- Rows of the opt registers, part 0. -/
def optRows0 : List RegRow := [
  ⟨0x0, [], 0xFF, 0x0, 0x0, 0x0, 0x0, 0x3D⟩,  -- OPT[e].CTL (R299)
  ⟨0x4, [], 0x0, 0x0, 0x0, 0x0, 0xFF03FF, 0x0⟩,  -- OPT[e].STAT (R299)
  ⟨0x8, [], 0x0, 0x0, 0x0, 0xFFFFF, 0x0, 0x0⟩,  -- OPT[e].FEED (R299)
  ⟨0x10, [(0x4, 10)], 0x0, 0x0, 0x0, 0x0, 0xFFFFFFFF, 0x0⟩]  -- OPT[e].FEEDPWR[w] (R299)

/-- Every row of the opt registers. -/
def optRows : List RegRow := optRows0

/-- Rows of the ps registers, part 0. -/
def psRows0 : List RegRow := [
  ⟨0x0, [], 0xF, 0x0, 0x0, 0x10, 0x0, 0x8⟩,  -- OPT[e].P[j].CTL (R299)
  ⟨0x4, [], 0x0, 0x0, 0x0, 0x0, 0xFF2F, 0x0⟩,  -- OPT[e].P[j].STAT (R299)
  ⟨0x8, [], 0x0, 0x0, 0x0, 0x0, 0xFFFFFFFF, 0x87653210⟩,  -- OPT[e].P[j].LANEMAP (R299)
  ⟨0xC, [], 0x0, 0x0, 0x0, 0x0, 0x1F, 0x9⟩,  -- OPT[e].P[j].SPARE (R299)
  ⟨0x10, [], 0x0, 0x0, 0x0, 0x0, 0xFFFFFFFF, 0x0⟩,  -- OPT[e].P[j].IDENT_LO (R299)
  ⟨0x14, [], 0x0, 0x0, 0x0, 0x0, 0xFFFFFFFF, 0x0⟩,  -- OPT[e].P[j].IDENT_HI (R299)
  ⟨0x18, [], 0x0, 0x0, 0x0, 0x0, 0x3FF, 0x0⟩,  -- OPT[e].P[j].IDENT_PORT (R299)
  ⟨0x20, [(0x4, 10)], 0x0, 0x0, 0x0, 0x0, 0xFFFFFFFF, 0x0⟩,  -- OPT[e].P[j].PWR[w] (R299)
  ⟨0x50, [(0x4, 10)], 0x0, 0x0, 0x0, 0x0, 0xFFFFFFFF, 0x0⟩,  -- OPT[e].P[j].CORR[w] (R299)
  ⟨0x78, [], 0x0, 0x0, 0x0, 0x0, 0xFFFFFFFF, 0x0⟩,  -- OPT[e].P[j].UNCORR (R299)
  ⟨0x7C, [], 0x0, 0x0, 0x0, 0x0, 0xFFFFFFFF, 0x0⟩,  -- OPT[e].P[j].EVENTS (R299)
  ⟨0x80, [(0x4, 10)], 0x0, 0x0, 0x0, 0x0, 0xFFFFFFFF, 0x0⟩,  -- OPT[e].P[j].PRBSERR[w] (R299)
  ⟨0xB0, [(0x4, 10)], 0x0, 0x0, 0x0, 0x0, 0x2FF, 0x0⟩]  -- OPT[e].P[j].CAL[w] (R299)

/-- Every row of the ps registers. -/
def psRows : List RegRow := psRows0

end RegTable

/-! Addresses. -/
namespace Reg

/-- EP_HNK.CNT_LO[n] (R53). -/
abbrev epHnkCntLo (i : Nat) : Nat := 0x800000 + 0x8 * i
/-- EP_HNK.CNT_HI[n] (R53). -/
abbrev epHnkCntHi (i : Nat) : Nat := 0x800004 + 0x8 * i
/-- EP_HNK.FENCE (R53). -/
abbrev epHnkFence : Nat := 0x880000
/-- EP_ATT.ID (R93). -/
abbrev epAttId : Nat := 0x0
/-- EP_ATT.CTL (R93). -/
abbrev epAttCtl : Nat := 0x4
/-- EP_ATT.STAT (R93). -/
abbrev epAttStat : Nat := 0x8
/-- EP_ATT.ERR (R93). -/
abbrev epAttErr : Nat := 0xC
/-- EP_ATT.ERRCNT (R93). -/
abbrev epAttErrcnt : Nat := 0x10
/-- EP_ATT.TMO (R93). -/
abbrev epAttTmo : Nat := 0x14
/-- EP_ATT.CRED (R93). -/
abbrev epAttCred : Nat := 0x18
/-- EP_ATT.FWSEG_BASE[n] (R93). -/
abbrev epAttFwsegBase (i : Nat) : Nat := 0x1000 + 0x10 * i
/-- EP_ATT.FWSEG_CTL[n] (R93). -/
abbrev epAttFwsegCtl (i : Nat) : Nat := 0x1004 + 0x10 * i
/-- EP_ATT.FWSEG_HANK[n] (R93). -/
abbrev epAttFwsegHank (i : Nat) : Nat := 0x1008 + 0x10 * i
/-- EP_RNG[n].SQ_DB (R101). -/
abbrev epRngSqDb (i : Nat) : Nat := 0x400000 + 0x1000 * i
/-- EP_RNG[n].CQ_DB (R101). -/
abbrev epRngCqDb (i : Nat) : Nat := 0x400008 + 0x1000 * i
/-- EP_RNG[n].ARM (R101). -/
abbrev epRngArm (i : Nat) : Nat := 0x40000C + 0x1000 * i
/-- EP_RNG[n].SQ_BASE_LO (R127). -/
abbrev epRngSqBaseLo (i : Nat) : Nat := 0x100000 + 0x40 * i
/-- EP_RNG[n].SQ_BASE_HI (R127). -/
abbrev epRngSqBaseHi (i : Nat) : Nat := 0x100004 + 0x40 * i
/-- EP_RNG[n].CQ_BASE_LO (R127). -/
abbrev epRngCqBaseLo (i : Nat) : Nat := 0x100008 + 0x40 * i
/-- EP_RNG[n].CQ_BASE_HI (R127). -/
abbrev epRngCqBaseHi (i : Nat) : Nat := 0x10000C + 0x40 * i
/-- EP_RNG[n].CFG (R127). -/
abbrev epRngCfg (i : Nat) : Nat := 0x100010 + 0x40 * i
/-- EP_RNG[n].SCHED (R127). -/
abbrev epRngSched (i : Nat) : Nat := 0x100014 + 0x40 * i
/-- EP_RNG[n].IMOD (R127). -/
abbrev epRngImod (i : Nat) : Nat := 0x100018 + 0x40 * i
/-- EP_RNG[n].STAT (R127). -/
abbrev epRngStat (i : Nat) : Nat := 0x10001C + 0x40 * i
/-- EP_RNG[n].SQ_HEAD (R127). -/
abbrev epRngSqHead (i : Nat) : Nat := 0x100020 + 0x40 * i
/-- EP_RNG[n].SQ_TAIL (R127). -/
abbrev epRngSqTail (i : Nat) : Nat := 0x100024 + 0x40 * i
/-- EP_RNG[n].CQ_TAIL (R127). -/
abbrev epRngCqTail (i : Nat) : Nat := 0x100028 + 0x40 * i
/-- EP_RNG[n].CQ_HEAD (R127). -/
abbrev epRngCqHead (i : Nat) : Nat := 0x10002C + 0x40 * i
/-- EP_SHT.CTL (R128). -/
abbrev epShtCtl : Nat := 0x20000
/-- EP_SHT.PACK (R128). -/
abbrev epShtPack : Nat := 0x20004
/-- EP_SHT.GATES (R128). -/
abbrev epShtGates : Nat := 0x20008
/-- EP_SHT.ACTIVE (R128). -/
abbrev epShtActive : Nat := 0x2000C
/-- EP_SHT.STAT[s] (R128). -/
abbrev epShtStat (i : Nat) : Nat := 0x20100 + 0x10 * i
/-- EP_SHT.CNT_LO[s] (R128). -/
abbrev epShtCntLo (i : Nat) : Nat := 0x20104 + 0x10 * i
/-- EP_SHT.CNT_HI[s] (R128). -/
abbrev epShtCntHi (i : Nat) : Nat := 0x20108 + 0x10 * i
/-- EP_XLT.CTL (R148). -/
abbrev epXltCtl : Nat := 0x30000
/-- EP_XLT.RCFG (R148). -/
abbrev epXltRcfg : Nat := 0x30004
/-- EP_XLT.MISS_BASE_LO (R148). -/
abbrev epXltMissBaseLo : Nat := 0x30008
/-- EP_XLT.MISS_BASE_HI (R148). -/
abbrev epXltMissBaseHi : Nat := 0x3000C
/-- EP_XLT.FILL_BASE_LO (R148). -/
abbrev epXltFillBaseLo : Nat := 0x30010
/-- EP_XLT.FILL_BASE_HI (R148). -/
abbrev epXltFillBaseHi : Nat := 0x30014
/-- EP_XLT.TMO (R148). -/
abbrev epXltTmo : Nat := 0x30018
/-- EP_XLT.FILL_DB (R148). -/
abbrev epXltFillDb : Nat := 0x3001C
/-- EP_XLT.MISS_DB (R148). -/
abbrev epXltMissDb : Nat := 0x30020
/-- EP_XLT.ARM (R148). -/
abbrev epXltArm : Nat := 0x30024
/-- EP_XLT.STAT (R148). -/
abbrev epXltStat : Nat := 0x30028
/-- EP_XLT.OCC (R148). -/
abbrev epXltOcc : Nat := 0x3002C
/-- EP_XLT.DMISS (R148). -/
abbrev epXltDmiss : Nat := 0x30030
/-- EP_XLT.DROP (R148). -/
abbrev epXltDrop : Nat := 0x30034
/-- EP_XLT.MISS_TAIL (R148). -/
abbrev epXltMissTail : Nat := 0x30038
/-- EP_XLT.MISS_HEAD (R148). -/
abbrev epXltMissHead : Nat := 0x3003C
/-- EP_XLT.FILL_TAIL (R148). -/
abbrev epXltFillTail : Nat := 0x30040
/-- EP_XLT.FILL_HEAD (R148). -/
abbrev epXltFillHead : Nat := 0x30044
/-- EP_SEQ.CTL (R180). -/
abbrev epSeqCtl : Nat := 0x40000
/-- EP_SEQ.TMO (R180). -/
abbrev epSeqTmo : Nat := 0x40004
/-- EP_SEQ.LIFE (R180). -/
abbrev epSeqLife : Nat := 0x40008
/-- EP_SEQ.BACKOFF (R180). -/
abbrev epSeqBackoff : Nat := 0x4000C
/-- EP_SEQ.CRED (R180). -/
abbrev epSeqCred : Nat := 0x40010
/-- EP_SEQ.ACK (R180). -/
abbrev epSeqAck : Nat := 0x40014
/-- EP_SEQ.EPOCH (R180). -/
abbrev epSeqEpoch : Nat := 0x40018
/-- EP_SEQ.STAT (R180). -/
abbrev epSeqStat : Nat := 0x4001C
/-- EP_SEQ.REFL_LO (R180). -/
abbrev epSeqReflLo : Nat := 0x40020
/-- EP_SEQ.REFL_HI (R180). -/
abbrev epSeqReflHi : Nat := 0x40024
/-- EP_SEQ.TOUT_LO (R180). -/
abbrev epSeqToutLo : Nat := 0x40028
/-- EP_SEQ.TOUT_HI (R180). -/
abbrev epSeqToutHi : Nat := 0x4002C
/-- EP_SEQ.DUP_LO (R180). -/
abbrev epSeqDupLo : Nat := 0x40030
/-- EP_SEQ.DUP_HI (R180). -/
abbrev epSeqDupHi : Nat := 0x40034
/-- EP_SEQ.REFUSE_LO (R180). -/
abbrev epSeqRefuseLo : Nat := 0x40038
/-- EP_SEQ.REFUSE_HI (R180). -/
abbrev epSeqRefuseHi : Nat := 0x4003C
/-- EP_SEQ.LOST (R180). -/
abbrev epSeqLost : Nat := 0x40040
/-- EP_SEQ.WCTL (R216). -/
abbrev epSeqWctl : Nat := 0x50000
/-- EP_SEQ.WSTART (R216). -/
abbrev epSeqWstart : Nat := 0x50004
/-- EP_SEQ.WSTAT (R216). -/
abbrev epSeqWstat : Nat := 0x50008
/-- EP_SEQ.WORDER (R216). -/
abbrev epSeqWorder : Nat := 0x5000C
/-- EP_SEQ.WFAULT (R216). -/
abbrev epSeqWfault : Nat := 0x50010
/-- EP_SEQ.WCNT (R216). -/
abbrev epSeqWcnt : Nat := 0x50014
/-- EP_SEQ.WNODE[p] (R216). -/
abbrev epSeqWnode (i : Nat) : Nat := 0x50020 + 0x4 * i
/-- EP_SEQ.WDLY[p] (R216). -/
abbrev epSeqWdly (i : Nat) : Nat := 0x50040 + 0x4 * i
/-- EP_SEQ.WALT[c] (R216). -/
abbrev epSeqWalt (i : Nat) : Nat := 0x50060 + 0x4 * i
/-- EP_SEQ.WPORT[p] (R216). -/
abbrev epSeqWport (i : Nat) : Nat := 0x50080 + 0x4 * i
/-- EP_OPT.CTL (R301). -/
abbrev epOptCtl : Nat := 0x60000
/-- EP_OPT.STAT (R301). -/
abbrev epOptStat : Nat := 0x60004
/-- EP_OPT.SERIAL_LO (R301). -/
abbrev epOptSerialLo : Nat := 0x60008
/-- EP_OPT.SERIAL_HI (R301). -/
abbrev epOptSerialHi : Nat := 0x6000C
/-- EP_OPT.EVAL (R301). -/
abbrev epOptEval : Nat := 0x60010
/-- EP_OPT.ERR (R301). -/
abbrev epOptErr : Nat := 0x60014
/-- EP_OPT.EMIT[w] (R301). -/
abbrev epOptEmit (i : Nat) : Nat := 0x60020 + 0x4 * i
/-- EP_OPT.SKYPWR[p] (R301). -/
abbrev epOptSkypwr (i : Nat) : Nat := 0x60100 + 0x4 * i
/-- EP_SEC.CFG (R344). -/
abbrev epSecCfg : Nat := 0x70000
/-- EP_SEC.FW (R344). -/
abbrev epSecFw : Nat := 0x70004
/-- EP_SEC.ASSIGN (R344). -/
abbrev epSecAssign : Nat := 0x70008
/-- EP_SEC.KEYS (R344). -/
abbrev epSecKeys : Nat := 0x7000C
/-- EP_SEC.MODEL_ID (R344). -/
abbrev epSecModelId : Nat := 0x70010
/-- EP_SEC.SKY_ID (R344). -/
abbrev epSecSkyId : Nat := 0x70014
/-- EP_SEC.DBG (R344). -/
abbrev epSecDbg : Nat := 0x70018
/-- EP_SEC.ERR (R344). -/
abbrev epSecErr : Nat := 0x7001C
/-- EP_SEC.NODE (R344). -/
abbrev epSecNode : Nat := 0x70020
/-- EP_SEC.P[p].TXCNT_LO (R344). -/
abbrev epSecPTxcntLo (i : Nat) : Nat := 0x70100 + 0x10 * i
/-- EP_SEC.P[p].TXCNT_HI (R344). -/
abbrev epSecPTxcntHi (i : Nat) : Nat := 0x70104 + 0x10 * i
/-- EP_SEC.P[p].KEYGEN (R344). -/
abbrev epSecPKeygen (i : Nat) : Nat := 0x70108 + 0x10 * i
/-- EP_SEC.P[p].TAGSTAT (R344). -/
abbrev epSecPTagstat (i : Nat) : Nat := 0x7010C + 0x10 * i
/-- EP_SEC.LOG_STAT (R344). -/
abbrev epSecLogStat : Nat := 0x70200
/-- EP_SEC.LOG_COPYLOST (R344). -/
abbrev epSecLogCopylost : Nat := 0x70204
/-- EP_SEC.LOG_HASH[i] (R344). -/
abbrev epSecLogHash (i : Nat) : Nat := 0x70210 + 0x4 * i
/-- EP_SEC.LOG[n] (R344). -/
abbrev epSecLog (i j : Nat) : Nat := 0xC0000 + 0x20 * i + 0x4 * j
/-- EP_HNK.SNAP_LO[n] (R364). -/
abbrev epHnkSnapLo (i : Nat) : Nat := 0x900000 + 0x8 * i
/-- EP_HNK.SNAP_HI[n] (R364). -/
abbrev epHnkSnapHi (i : Nat) : Nat := 0x900004 + 0x8 * i
/-- EP_HNK.SNAP_STAT (R364). -/
abbrev epHnkSnapStat : Nat := 0x980000
/-- EP_HNK.SNAP_T_LO (R364). -/
abbrev epHnkSnapTLo : Nat := 0x980008
/-- EP_HNK.SNAP_T_HI (R364). -/
abbrev epHnkSnapTHi : Nat := 0x98000C
/-- XBR.CTL (R181). -/
abbrev xbrCtl : Nat := 0x200000
/-- XBR.PATHMASK[k], k = 0–5 (R181). -/
abbrev xbrPathmask (i : Nat) : Nat := 0x200004 + 0x4 * i
/-- XBR.ANA_CTL (R181). -/
abbrev xbrAnaCtl : Nat := 0x200020
/-- XBR.ANA_FLT (R181). -/
abbrev xbrAnaFlt : Nat := 0x200024
/-- XBR.ANA_STAT (R181). -/
abbrev xbrAnaStat : Nat := 0x200028
/-- XBR.RT[n] (R181). -/
abbrev xbrRt (i : Nat) : Nat := 0x210000 + 0x4 * i
/-- DRF.CTL (R215). -/
abbrev drfCtl : Nat := 0x300000
/-- DRF.START (R215). -/
abbrev drfStart : Nat := 0x300004
/-- DRF.STAT (R215). -/
abbrev drfStat : Nat := 0x300008
/-- DRF.COMMIT (R215). -/
abbrev drfCommit : Nat := 0x30000C
/-- DRF.ALT[c] (R215). -/
abbrev drfAlt (i : Nat) : Nat := 0x300010 + 0x4 * i
/-- DRF.ORDER (R215). -/
abbrev drfOrder : Nat := 0x300030
/-- DRF.FAULT (R215). -/
abbrev drfFault : Nat := 0x300034
/-- DRF.EFFECT (R215). -/
abbrev drfEffect : Nat := 0x300038
/-- DRF.SHADOW_BASE (R215). -/
abbrev drfShadowBase : Nat := 0x300040
/-- DRF.SHADOW_SIZE (R215). -/
abbrev drfShadowSize : Nat := 0x300044
/-- DRF.SPMAP[n] (R215). -/
abbrev drfSpmap (i : Nat) : Nat := 0x300080 + 0x4 * i
/-- DRF.PMAP[n] (R215). -/
abbrev drfPmap (i : Nat) : Nat := 0x300200 + 0x4 * i
/-- DRF.LDLY[p] (R215). -/
abbrev drfLdly (i : Nat) : Nat := 0x300500 + 0x4 * i
/-- DRF.TSEL (R215). -/
abbrev drfTsel : Nat := 0x300800
/-- DRF.TMAP[k] (R215). -/
abbrev drfTmap (i : Nat) : Nat := 0x300804 + 0x4 * i
/-- DRF.TSTAT (R215). -/
abbrev drfTstat : Nat := 0x30081C
/-- SPD.ID (R245). -/
abbrev spdId : Nat := 0x400000
/-- SPD.SEED_LO[k] (R245). -/
abbrev spdSeedLo (i : Nat) : Nat := 0x400100 + 0x8 * i
/-- SPD.SEED_HI[k] (R245). -/
abbrev spdSeedHi (i : Nat) : Nat := 0x400104 + 0x8 * i
/-- FMH.CTL (R264). -/
abbrev fmhCtl : Nat := 0x500000
/-- FMH.EPOCH (R264). -/
abbrev fmhEpoch : Nat := 0x500004
/-- FMH.STAT (R264). -/
abbrev fmhStat : Nat := 0x500008
/-- FMH.ERR (R264). -/
abbrev fmhErr : Nat := 0x50000C
/-- FMH.CECNT (R264). -/
abbrev fmhCecnt : Nat := 0x500010
/-- FMH.UECNT (R264). -/
abbrev fmhUecnt : Nat := 0x500014
/-- FMH.CHFENCE[s] (R264). -/
abbrev fmhChfence (i : Nat) : Nat := 0x500018 + 0x4 * i
/-- FMH.SCRUB (R264). -/
abbrev fmhScrub : Nat := 0x500028
/-- FMH.RGN_BASE[n] (R264). -/
abbrev fmhRgnBase (i : Nat) : Nat := 0x501000 + 0x10 * i
/-- FMH.RGN_SIZE[n] (R264). -/
abbrev fmhRgnSize (i : Nat) : Nat := 0x501004 + 0x10 * i
/-- FMH.RGN_CTL[n] (R264). -/
abbrev fmhRgnCtl (i : Nat) : Nat := 0x501008 + 0x10 * i
/-- FMH.HGRANT[k] (R264). -/
abbrev fmhHgrant (i : Nat) : Nat := 0x502000 + 0x4 * i
/-- FMH.RELAY_CTL[m] (R264). -/
abbrev fmhRelayCtl (i : Nat) : Nat := 0x504000 + 0x10 * i
/-- FMH.RELAY_TGT[m] (R264). -/
abbrev fmhRelayTgt (i : Nat) : Nat := 0x504004 + 0x10 * i
/-- FMH.RELAY_STEP[m] (R264). -/
abbrev fmhRelayStep (i : Nat) : Nat := 0x504008 + 0x10 * i
/-- FMH.HCNT_LO[n] (R264). -/
abbrev fmhHcntLo (i : Nat) : Nat := 0x580000 + 0x8 * i
/-- FMH.HCNT_HI[n] (R264). -/
abbrev fmhHcntHi (i : Nat) : Nat := 0x580004 + 0x8 * i
/-- LAS[m].CTL (R300). -/
abbrev lasCtl (i : Nat) : Nat := 0x600000 + 0x100 * i
/-- LAS[m].STAT (R300). -/
abbrev lasStat (i : Nat) : Nat := 0x600004 + 0x100 * i
/-- LAS[m].ERR (R300). -/
abbrev lasErr (i : Nat) : Nat := 0x600008 + 0x100 * i
/-- LAS[m].BIAS[w] (R300). -/
abbrev lasBias (i j : Nat) : Nat := 0x600010 + 0x100 * i + 0x4 * j
/-- LAS[m].ACCESS (R300). -/
abbrev lasAccess (i : Nat) : Nat := 0x600040 + 0x100 * i
/-- LAS[m].DATA (R300). -/
abbrev lasData (i : Nat) : Nat := 0x600044 + 0x100 * i
/-- LAS.EVAL (R300). -/
abbrev lasEval : Nat := 0x600400
/-- SKN.CMD (R319). -/
abbrev sknCmd : Nat := 0x700000
/-- SKN.STAT (R319). -/
abbrev sknStat : Nat := 0x700004
/-- SKN.FRAME (R319). -/
abbrev sknFrame : Nat := 0x700008
/-- SKN[k].CTL (R319). -/
abbrev sknCtl (i : Nat) : Nat := 0x700100 + 0x4 * i
/-- SKN.PORT[p] (R319). -/
abbrev sknPort (i : Nat) : Nat := 0x700800 + 0x4 * i
/-- BUD.CTL (R320). -/
abbrev budCtl : Nat := 0x800000
/-- BUD.SEALLAT (R320). -/
abbrev budSeallat : Nat := 0x800004
/-- BUD.STAT (R320). -/
abbrev budStat : Nat := 0x800008
/-- BUD.WEFT[k] (R320). -/
abbrev budWeft (i : Nat) : Nat := 0x800100 + 0x10 * i
/-- BUD.SPIN[k] (R320). -/
abbrev budSpin (i : Nat) : Nat := 0x800104 + 0x10 * i
/-- BUD.HBM[k] (R320). -/
abbrev budHbm (i : Nat) : Nat := 0x800108 + 0x10 * i
/-- BUD.AUX[k] (R320). -/
abbrev budAux (i : Nat) : Nat := 0x80010C + 0x10 * i
/-- SEC.CFG (R343). -/
abbrev secCfg : Nat := 0x900000
/-- SEC.FW (R343). -/
abbrev secFw : Nat := 0x900004
/-- SEC.DBG (R343). -/
abbrev secDbg : Nat := 0x900008
/-- SEC.ERR (R343). -/
abbrev secErr : Nat := 0x90000C
/-- SEC.FKEY_ID[k] (R343). -/
abbrev secFkeyId (i : Nat) : Nat := 0x900100 + 0x10 * i
/-- SEC.FKEY_STAT[k] (R343). -/
abbrev secFkeyStat (i : Nat) : Nat := 0x900104 + 0x10 * i
/-- SEC.P[p].TXCNT_LO (R343). -/
abbrev secPTxcntLo (i : Nat) : Nat := 0x901000 + 0x10 * i
/-- SEC.P[p].TXCNT_HI (R343). -/
abbrev secPTxcntHi (i : Nat) : Nat := 0x901004 + 0x10 * i
/-- SEC.P[p].KEYGEN (R343). -/
abbrev secPKeygen (i : Nat) : Nat := 0x901008 + 0x10 * i
/-- SEC.P[p].TAGSTAT (R343). -/
abbrev secPTagstat (i : Nat) : Nat := 0x90100C + 0x10 * i
/-- TIM.CTL (R383). -/
abbrev timCtl : Nat := 0xA00000
/-- TIM.STAT (R383). -/
abbrev timStat : Nat := 0xA00004
/-- TIM.NOW_LO (R383). -/
abbrev timNowLo : Nat := 0xA00008
/-- TIM.NOW_HI (R383). -/
abbrev timNowHi : Nat := 0xA0000C
/-- TIM.SET_LO (R383). -/
abbrev timSetLo : Nat := 0xA00010
/-- TIM.SET_HI (R383). -/
abbrev timSetHi : Nat := 0xA00014
/-- TIM.OFFSET (R383). -/
abbrev timOffset : Nat := 0xA00018
/-- TIM.DELAY (R383). -/
abbrev timDelay : Nat := 0xA0001C
/-- TIM.FREQ (R383). -/
abbrev timFreq : Nat := 0xA00020
/-- TIM.PWR_CTL (R383). -/
abbrev timPwrCtl : Nat := 0xA00100
/-- TIM.PWR_STAT (R383). -/
abbrev timPwrStat : Nat := 0xA00104
/-- TIM.PWR[a] (R383). -/
abbrev timPwr (i : Nat) : Nat := 0xA00108 + 0x4 * i
/-- TIM.THERM[d] (R383). -/
abbrev timTherm (i : Nat) : Nat := 0xA00120 + 0x4 * i
/-- TIM.HOLDUP (R383). -/
abbrev timHoldup : Nat := 0xA00130
/-- TIM.WAKE (R383). -/
abbrev timWake : Nat := 0xA00134
/-- HUB.ID (R407). -/
abbrev hubId : Nat := 0x0
/-- HUB.SERIAL_LO (R407). -/
abbrev hubSerialLo : Nat := 0x4
/-- HUB.SERIAL_HI (R407). -/
abbrev hubSerialHi : Nat := 0x8
/-- HUB.STAT (R407). -/
abbrev hubStat : Nat := 0xC
/-- HUB.RESET (R407). -/
abbrev hubReset : Nat := 0x10
/-- HUB.ERRSUM (R407). -/
abbrev hubErrsum : Nat := 0x14
/-- HUB.CTL (R407). -/
abbrev hubCtl : Nat := 0x18
/-- MGT.CMD_BASE_LO (R408). -/
abbrev mgtCmdBaseLo : Nat := 0xC00000
/-- MGT.CMD_BASE_HI (R408). -/
abbrev mgtCmdBaseHi : Nat := 0xC00004
/-- MGT.CMD_CFG (R408). -/
abbrev mgtCmdCfg : Nat := 0xC00008
/-- MGT.CMD_DB (R408). -/
abbrev mgtCmdDb : Nat := 0xC0000C
/-- MGT.EVT_BASE_LO (R408). -/
abbrev mgtEvtBaseLo : Nat := 0xC00010
/-- MGT.EVT_BASE_HI (R408). -/
abbrev mgtEvtBaseHi : Nat := 0xC00014
/-- MGT.EVT_CFG (R408). -/
abbrev mgtEvtCfg : Nat := 0xC00018
/-- MGT.EVT_DB (R408). -/
abbrev mgtEvtDb : Nat := 0xC0001C
/-- MGT.STAT (R408). -/
abbrev mgtStat : Nat := 0xC00020
/-- MGT.EVT_OVF (R408). -/
abbrev mgtEvtOvf : Nat := 0xC00024
/-- MGT.MWIN (R408). -/
abbrev mgtMwin : Nat := 0xC00030
/-- MGT.SNAP_STAT (R408). -/
abbrev mgtSnapStat : Nat := 0xC00040
/-- MGT.SNAP_T_LO (R408). -/
abbrev mgtSnapTLo : Nat := 0xC00048
/-- MGT.SNAP_T_HI (R408). -/
abbrev mgtSnapTHi : Nat := 0xC0004C
/-- MGT.CHAIN (R408). -/
abbrev mgtChain : Nat := 0xC00050
/-- MGT.MSIX (R408). -/
abbrev mgtMsix (i : Nat) : Nat := 0xC01000 + 0x4 * i
/-- MGT.MSIX_PBA (R408). -/
abbrev mgtMsixPba (i : Nat) : Nat := 0xC01800 + 0x4 * i
/-- MGT.SNAP_LO[n] (R408). -/
abbrev mgtSnapLo (i : Nat) : Nat := 0xC10000 + 0x8 * i
/-- MGT.SNAP_HI[n] (R408). -/
abbrev mgtSnapHi (i : Nat) : Nat := 0xC10004 + 0x8 * i
/-- MGT.WIN (R408). -/
abbrev mgtWin (i : Nat) : Nat := 0xD00000 + 0x4 * i
/-- LOG.BASE_LO (R409). -/
abbrev logBaseLo : Nat := 0xB00000
/-- LOG.BASE_HI (R409). -/
abbrev logBaseHi : Nat := 0xB00004
/-- LOG.CFG (R409). -/
abbrev logCfg : Nat := 0xB00008
/-- LOG.DB (R409). -/
abbrev logDb : Nat := 0xB0000C
/-- LOG.STAT (R409). -/
abbrev logStat : Nat := 0xB00010
/-- LOG.LOST (R409). -/
abbrev logLost : Nat := 0xB00014
/-- LOG.COUNT_LO (R409). -/
abbrev logCountLo : Nat := 0xB00018
/-- LOG.COUNT_HI (R409). -/
abbrev logCountHi : Nat := 0xB0001C
/-- LOG.HASH[i] (R409). -/
abbrev logHash (i : Nat) : Nat := 0xB00040 + 0x4 * i
/-- PST.NODE (R410). -/
abbrev pstNode : Nat := 0xF00000
/-- PST.TRAY (R410). -/
abbrev pstTray : Nat := 0xF00004
/-- PST.FWSVN (R410). -/
abbrev pstFwsvn : Nat := 0xF00008
/-- PST.PMAP_LO[p] (R410). -/
abbrev pstPmapLo (i : Nat) : Nat := 0xF00100 + 0xC * i
/-- PST.PMAP_HI[p] (R410). -/
abbrev pstPmapHi (i : Nat) : Nat := 0xF00104 + 0xC * i
/-- PST.PMAP_PORT[p] (R410). -/
abbrev pstPmapPort (i : Nat) : Nat := 0xF00108 + 0xC * i
/-- PST.GEN[i] (R410). -/
abbrev pstGen (i : Nat) : Nat := 0xF00A00 + 0x4 * i
/-- PST.FENCE[i] (R410). -/
abbrev pstFence (i : Nat) : Nat := 0xF00F00 + 0x4 * i
/-- PST.HOURS (R410). -/
abbrev pstHours : Nat := 0xF00F80
/-- PST.CYCLES (R410). -/
abbrev pstCycles : Nat := 0xF00F84
/-- PST.TRIPS (R410). -/
abbrev pstTrips : Nat := 0xF00F88
/-- PST.HOLDUP (R410). -/
abbrev pstHoldup : Nat := 0xF00F8C
/-- PST.TPL[t] word 0 (R410). -/
abbrev pstTplW0 (i : Nat) : Nat := 0xF01000 + 0x20 * i
/-- PST.BIAS_LO[r] (R410). -/
abbrev pstBiasLo (i : Nat) : Nat := 0xF04000 + 0x8 * i
/-- PST.BIAS_HI[r] (R410). -/
abbrev pstBiasHi (i : Nat) : Nat := 0xF04004 + 0x8 * i
/-- PST.OPER[n] (R410). -/
abbrev pstOper (i : Nat) : Nat := 0xF0C000 + 0x4 * i
/-- PST.WEAR[w] (R410). -/
abbrev pstWear (i : Nat) : Nat := 0xF10000 + 0x4 * i
/-- PST.STAT (R410). -/
abbrev pstStat : Nat := 0xF20000
/-- HUB.USTAT[i] (R419). -/
abbrev hubUstat (i : Nat) : Nat := 0xE00000 + 0x8 * i
/-- HUB.UCTL[i] (R419). -/
abbrev hubUctl (i : Nat) : Nat := 0xE00004 + 0x8 * i
/-- PRT[n].STAT (R365). -/
abbrev prtStatOff : Nat := 0x0
/-- PRT[n].CTL (R365). -/
abbrev prtCtlOff : Nat := 0x4
/-- PRT[n].GEN (R365). -/
abbrev prtGenOff : Nat := 0x8
/-- PRT[n].QSTEP (R365). -/
abbrev prtQstepOff : Nat := 0xC
/-- PRT[n].FENCES (R365). -/
abbrev prtFencesOff : Nat := 0x10
/-- EDY[k].CTL (R182). -/
abbrev edyCtlOff : Nat := 0x0
/-- BUD.P[p].SEAL[i] (R321). -/
abbrev budPSealOff (i : Nat) : Nat := 0x0 + 0x4 * i
/-- SPD[n].STAT (R246). -/
abbrev spdStatOff : Nat := 0x0
/-- SPD[n].ERR (R246). -/
abbrev spdErrOff : Nat := 0x4
/-- SPD[n].CTL (R246). -/
abbrev spdCtlOff : Nat := 0x8
/-- OPT[e].CTL (R299). -/
abbrev optCtlOff : Nat := 0x0
/-- OPT[e].STAT (R299). -/
abbrev optStatOff : Nat := 0x4
/-- OPT[e].FEED (R299). -/
abbrev optFeedOff : Nat := 0x8
/-- OPT[e].FEEDPWR[w] (R299). -/
abbrev optFeedpwrOff (i : Nat) : Nat := 0x10 + 0x4 * i
/-- OPT[e].P[j].CTL (R299). -/
abbrev psCtl : Nat := 0x0
/-- OPT[e].P[j].STAT (R299). -/
abbrev psStat : Nat := 0x4
/-- OPT[e].P[j].LANEMAP (R299). -/
abbrev psLanemap : Nat := 0x8
/-- OPT[e].P[j].SPARE (R299). -/
abbrev psSpare : Nat := 0xC
/-- OPT[e].P[j].IDENT_LO (R299). -/
abbrev psIdentLo : Nat := 0x10
/-- OPT[e].P[j].IDENT_HI (R299). -/
abbrev psIdentHi : Nat := 0x14
/-- OPT[e].P[j].IDENT_PORT (R299). -/
abbrev psIdentPort : Nat := 0x18
/-- OPT[e].P[j].PWR[w] (R299). -/
abbrev psPwr (i : Nat) : Nat := 0x20 + 0x4 * i
/-- OPT[e].P[j].CORR[w] (R299). -/
abbrev psCorr (i : Nat) : Nat := 0x50 + 0x4 * i
/-- OPT[e].P[j].UNCORR (R299). -/
abbrev psUncorr : Nat := 0x78
/-- OPT[e].P[j].EVENTS (R299). -/
abbrev psEvents : Nat := 0x7C
/-- OPT[e].P[j].PRBSERR[w] (R299). -/
abbrev psPrbserr (i : Nat) : Nat := 0x80 + 0x4 * i
/-- OPT[e].P[j].CAL[w] (R299). -/
abbrev psCal (i : Nat) : Nat := 0xB0 + 0x4 * i

end Reg
end Sys2Proof.Machine
end

