-- ==== Sys2Proof/Machine/RegMap.lean ====
section
/-! DEFINITION. Which register an address of either register space names (R10, R411-R413), what it holds at reset (R14),
and what a write does to its fields by their access types (R13). -/

namespace Sys2Proof.Machine

/-- The index along each dimension of a register array that offset `x` names, if it names one of its registers. -/
def dimIndex : List (Nat × Nat) → Nat → Option (List Nat)
  | [], x => if x = 0 then some [] else none
  | (stride, count) :: r, x =>
    let i := min (x / stride) (count - 1)
    (dimIndex r (x - i * stride)).map (i :: ·)

/-- The register of a list of rows that offset `a` names, with its indices. -/
def findRow (rows : List RegRow) (a : Nat) : Option (RegRow × List Nat) :=
  rows.findSome? fun r => if a < r.base then none else (dimIndex r.dims (a - r.base)).map fun i => (r, i)

/-- A word of a draft store or slot-table store: every bit is written and read, zero after reset (R185, R193). -/
def storeRow : RegRow := { base := 0, dims := [], rw := 0xFFFFFFFF, rwp := 0, w1c := 0, wo := 0, ro := 0, reset := 0 }

/-- The blocks of the configuration space (R412). -/
inductive Block412 where
  | hub | port | eddy | sealMap | spindle | draft | engine | portSet
  deriving DecidableEq, Repr

/-- The register block, the number of the instance and the offset that a configuration address names (R411, R412). -/
def decode412 (a : Nat) : Option (Block412 × Nat × Nat) :=
  if a < 0x1000000 then some (.hub, 0, a)
  else if 0x6000000 ≤ a then none
  else if 0x5000000 ≤ a then
    let e := (a - 0x5000000) / 0x100000
    let y := a % 0x100000
    if y < 0x50 then some (.engine, e, y)
    else if 0x1000 ≤ y ∧ y < 0x1C00 then some (.portSet, 12 * e + (y - 0x1000) / 0x100, y % 0x100)
    else none
  else
    let d := a / 0x1000000 - 1
    let r := a / 0x400000 % 4
    let x := a % 0x400000
    if 0x300000 ≤ x then some (.draft, 4 * d + r, x - 0x300000)
    else
      let c := x / 0x100000
      let y := x % 0x100000
      let port := 48 * d + 12 * r + 4 * c
      if y < 0x40000 then some (.port, port + y / 0x10000, y % 0x10000)
      else if y < 0x50000 then some (.eddy, 12 * d + 3 * r + c, y - 0x40000)
      else if y < 0x50100 then some (.sealMap, port + (y - 0x50000) / 0x40, y % 0x40)
      else if 0x80000 ≤ y ∧ y < 0xA0000 then some (.spindle, 24 * d + 6 * r + 2 * c + (y - 0x80000) / 0x10000, y % 0x10000)
      else none

/-- The row of a configuration address; none where it is reserved (R414). -/
def rpRow (a : Nat) : Option (RegRow × List Nat) :=
  match decode412 a with
  | none => none
  | some (.hub, _, o) => findRow RegTable.hubRows o
  | some (.port, _, o) => findRow RegTable.prtRows o
  | some (.eddy, _, o) => findRow RegTable.edyRows o
  | some (.sealMap, _, o) => findRow RegTable.sealRows o
  | some (.spindle, _, o) => findRow RegTable.spdRows o
  | some (.draft, _, _) => some (storeRow, [])
  | some (.engine, _, o) => findRow RegTable.optRows o
  | some (.portSet, _, o) => findRow RegTable.psRows o

/-- The row of a register-window offset of the Plocen; none where it is reserved (R413, R414). -/
def epRow (a : Nat) : Option (RegRow × List Nat) :=
  if 0x200000 ≤ a ∧ a < 0x300000 then some (storeRow, [])
  else if 0x61000 ≤ a ∧ a < 0x61800 then findRow RegTable.psRows (a % 0x100)
  else findRow RegTable.epRows a

/-- Caps of R367, W. -/
def powerCap (a : Nat) : Nat := [340, 110, 95, 165, 40, 150].getD a 0

/-- What a register of the Ronpex holds at reset: its table's value, with the values that a table gives in words
(n mod 24 for DRF.SPMAP, n for DRF.PMAP, 2 for SKN[0].CTL.STATE, the cap of R367, factory values). -/
def rpReset (a : Nat) : Nat :=
  if Reg.drfSpmap 0 ≤ a ∧ a < Reg.drfSpmap 96 then (a - Reg.drfSpmap 0) / 4 % 24
  else if Reg.drfPmap 0 ≤ a ∧ a < Reg.drfPmap 192 then (a - Reg.drfPmap 0) / 4
  else if a = Reg.sknCtl 0 then 2
  else if Reg.mgtMsix 0 ≤ a ∧ a < Reg.mgtMsix 16 then ofBool (a % 16 == 12)
  else if Reg.timPwr 0 ≤ a ∧ a < Reg.timPwr 6 then 0x10000 * powerCap ((a - Reg.timPwr 0) / 4)
  else if a = Reg.hubSerialLo then bits 0 32 Config.ronpexSerial.toNat
  else if a = Reg.hubSerialHi then bits 32 32 Config.ronpexSerial.toNat
  else match rpRow a with
    | none => 0
    | some (r, _) => r.reset

/-- What a register of the Plocen holds at reset: its table's value, or the factory value. -/
def epReset (a : Nat) : Nat :=
  if a = Reg.epOptSerialLo then bits 0 32 Config.plocenSerial.toNat
  else if a = Reg.epOptSerialHi then bits 32 32 Config.plocenSerial.toNat
  else if Reg.epOptEmit 0 ≤ a ∧ a < Reg.epOptEmit 10 then (Config.emitFactory ((a - Reg.epOptEmit 0) / 4)).toNat &&& 0x0FFF0FFF
  else match epRow a with
    | none => 0
    | some (r, _) => r.reset

/-- What a plain write leaves in a register of row `r` (R13, R415): RW and RWP fields take the written bits, a 1 clears
a W1C bit, and RO, WO and reserved bits keep their stored value. -/
def RegRow.written (r : RegRow) (old value : Nat) : Nat :=
  let store := r.rw ||| r.rwp
  (bClear old store ||| (value &&& store)) - ((bClear old store ||| (value &&& store)) &&& (value &&& r.w1c))

end Sys2Proof.Machine
end

