-- ==== Sys2Proof/Machine/LineOps.lean ====
section
/-! DEFINITION. What travels on a wavelength (R267, R268, R270-R273, R282, R294): PAM4 levels, symbols and lanes, the Reed-Solomon code
and its decoder, PRBS patterns and their checkers, and the frames of the link management channel and of the laser modules. -/

namespace Sys2Proof.Machine

open Sys2Proof

/-! ### PAM4 and lanes (R270, R271) -/

/-- The PAM4 level of a bit pair, by Gray code: 00, 01, 11 and 10 are levels 0 to 3. -/
def pam4 (pair : Nat) : Nat := pair ^^^ (pair / 2)

/-- A 10-bit symbol as 5 UI: UI i carries bits 2i + 1 and 2i. -/
def symbolLevels (sym : Nat) : List Nat := (List.range 5).map fun i => pam4 (bits (2 * i) 2 sym)

/-- The 640 symbols of the 800 bytes of a slot: symbol k holds bits 10k to 10k + 9. -/
def slotSymbols (b : List Byte) : List Nat :=
  let w := leNat b
  (List.range 640).map fun k => bits (10 * k) 10 w

/-- The 80 symbols of a slot on a logical lane: symbol k travels on lane k mod 8. -/
def laneSymbols (lane : Nat) (b : List Byte) : List Nat :=
  let w := leNat b
  (List.range 80).map fun j => bits (10 * (8 * j + lane)) 10 w

/-! ### GF(2^10), with the primitive polynomial x^10 + x^3 + 1 (R272) -/

/-- Twice an element: by α. -/
def gfDouble (a : Nat) : Nat := if 512 ≤ a then (2 * a) ^^^ 0x409 else 2 * a

/-- The product with the low `n` bits of `b`. -/
def gfMulN : Nat → Nat → Nat → Nat
  | 0, _, _ => 0
  | n + 1, a, b => (if b % 2 = 1 then a else 0) ^^^ gfMulN n (gfDouble a) (b / 2)

/-- The product of two elements. -/
def gfMul (a b : Nat) : Nat := gfMulN 10 a b

/-- The square of an element, `n` times. -/
def gfSquares : Nat → Nat → Nat
  | 0, a => a
  | n + 1, a => gfSquares n (gfMul a a)

/-- The inverse of a nonzero element: its power 2^10 - 2. -/
def gfInv (a : Nat) : Nat := (List.range 9).foldl (fun r i => gfMul r (gfSquares (i + 1) a)) 1

/-- α^n. -/
def gfAlpha : Nat → Nat
  | 0 => 1
  | n + 1 => gfDouble (gfAlpha n)

/-! ### RS(136,128) (R272, R273); the first symbol sent is the coefficient of the highest power (DEDUCED, log 146) -/

/-- The product of a polynomial, lowest coefficient first, and x + r. -/
def polyRoot (r : Nat) (p : List Nat) : List Nat :=
  List.zipWith (fun a b => a ^^^ b) (0 :: p) (p.map (gfMul r) ++ [0])

/-- The generator: the product of x - α^i for i = 0 to 7, lowest coefficient first. -/
def rsGenerator : List Nat := (List.range 8).foldl (fun p i => polyRoot (gfAlpha i) p) [1]

/-- The 8 parity symbols of some data symbols. -/
def rsParity (data : List Nat) : List Nat :=
  let g := (rsGenerator.take 8).reverse
  data.foldl (fun (r : List Nat) d =>
    let f := d ^^^ r.headD 0
    List.zipWith (fun a b => a ^^^ b) (r.drop 1 ++ [0]) (g.map (gfMul f))) (List.replicate 8 0)

/-- A codeword: 128 data symbols and their parity. -/
def rsEncode (data : List Nat) : List Nat := data ++ rsParity data

/-- The value of a received word at α^i. -/
def rsSyndrome (word : List Nat) (i : Nat) : Nat :=
  let x := gfAlpha i
  word.foldl (fun v c => gfMul v x ^^^ c) 0

/-- The value at `x` of a polynomial, lowest coefficient first. -/
def polyAt (p : List Nat) (x : Nat) : Nat := p.foldr (fun c v => c ^^^ gfMul v x) 0

/-- `p` + c * x^k * `q`. -/
def polyAddShift (p : List Nat) (c k : Nat) (q : List Nat) : List Nat :=
  let s := List.replicate k 0 ++ q.map (gfMul c)
  (List.range (max p.length s.length)).map fun i => p.getD i 0 ^^^ s.getD i 0

/-- The search for the shortest recurrence of the syndromes: the present polynomial and the one before its length last changed, the
length, the shift and the discrepancy at that change. -/
structure RsSearch where
  now : List Nat
  before : List Nat
  len : Nat
  shift : Nat
  at_ : Nat

/-- One syndrome more. -/
def RsSearch.step (syn : List Nat) (b : RsSearch) (n : Nat) : RsSearch :=
  let d := (List.range (b.len + 1)).foldl (fun v i => v ^^^ gfMul (b.now.getD i 0) (if i ≤ n then syn.getD (n - i) 0 else 0)) 0
  if d = 0 then { b with shift := b.shift + 1 }
  else
    let p := polyAddShift b.now (gfMul d (gfInv b.at_)) b.shift b.before
    if 2 * b.len ≤ n then { now := p, before := b.now, len := n + 1 - b.len, shift := 1, at_ := d }
    else { b with now := p, shift := b.shift + 1 }

/-- The error locator of some syndromes, and how many errors it says. -/
def rsLocator (syn : List Nat) : List Nat × Nat :=
  let b := (List.range 8).foldl (RsSearch.step syn) { now := [1], before := [1], len := 0, shift := 1, at_ := 1 }
  (b.now, b.len)

/-- The value of the error at position `k` of a word of 136 symbols. -/
def rsErrorAt (syn loc : List Nat) (k : Nat) : Nat :=
  let x := gfAlpha (135 - k)
  let y := gfInv x
  let omega := (List.range 8).map fun n => (List.range (n + 1)).foldl (fun v i => v ^^^ gfMul (loc.getD i 0) (syn.getD (n - i) 0)) 0
  let slope := (List.range loc.length).map fun i => if i % 2 = 0 then loc.getD (i + 1) 0 else 0
  gfMul x (gfMul (polyAt omega y) (gfInv (polyAt slope y)))

/-- The decoder (R273): the codeword within 4 symbol errors of a received word, and how many it corrected; none where there is none. -/
def rsDecode (word : List Nat) : Option (List Nat × Nat) :=
  let syn := (List.range 8).map (rsSyndrome word)
  if syn.all (· == 0) then some (word, 0)
  else
    let (loc, n) := rsLocator syn
    let hits := (List.range 136).filter fun k => polyAt loc (gfInv (gfAlpha (135 - k))) == 0
    let fixed := (List.range 136).map fun k => word.getD k 0 ^^^ (if hits.contains k then rsErrorAt syn loc k else 0)
    if n ≤ 4 ∧ hits.length = n ∧ ((List.range 8).map (rsSyndrome fixed)).all (· == 0) then some (fixed, n) else none

/-! ### Codeword groups (R272, R273) -/

/-- The slots of its group that codeword `c` of a lane touches: it holds the lane's data symbols 128c to 128c + 127, 80 to a slot. -/
def codewordSlots (c : Nat) : List Nat := upTo (128 * c / 80) ((128 * c + 127) / 80)

/-- The 680 symbols that a lane sends for the blocks of 8 slots: five codewords. -/
def groupSymbols (lane : Nat) (blocks : List (List Byte)) : List Nat :=
  let data := blocks.flatMap (laneSymbols lane)
  (List.range 5).flatMap fun c => rsEncode ((data.drop (128 * c)).take 128)

/-- The UI levels that a lane sends for the blocks of 8 slots. -/
def groupLevels (lane : Nat) (blocks : List (List Byte)) : List Nat := (groupSymbols lane blocks).flatMap symbolLevels

/-! ### PRBS (R282); the register's bit i is the bit sent i + 1 bits before (DEDUCED, log 147) -/

/-- A pattern: PRBS13 or PRBS31. -/
inductive Prbs where
  | p13
  | p31
  deriving DecidableEq, Repr

/-- The length of the register of a pattern. -/
def Prbs.len : Prbs → Nat
  | .p13 => 13
  | .p31 => 31

/-- The next bit of a pattern: x^13 + x^12 + x^2 + x + 1, or x^31 + x^28 + 1. -/
def Prbs.next : Prbs → Nat → Nat
  | .p13, r => bits 12 1 r ^^^ bits 11 1 r ^^^ bits 1 1 r ^^^ bits 0 1 r
  | .p31, r => bits 30 1 r ^^^ bits 27 1 r

/-- A bit enters the register. -/
def Prbs.push (k : Prbs) (r b : Nat) : Nat := (2 * r + b) % 2 ^ k.len

/-- The next `n` bits of a pattern, and the register after them. -/
def Prbs.run (k : Prbs) : Nat → Nat → List Nat × Nat
  | 0, r => ([], r)
  | n + 1, r =>
    let b := k.next r
    let (l, r') := Prbs.run k n (k.push r b)
    (b :: l, r')

/-- Successive bit pairs as levels: the first bit of a pair is its bit 0. -/
def pairLevels : List Nat → List Nat
  | a :: b :: r => pam4 (a + 2 * b) :: pairLevels r
  | _ => []

/-- `n` UI of a pattern, and the register after them. -/
def Prbs.levels (k : Prbs) (n r : Nat) : List Nat × Nat :=
  let (l, r') := k.run (2 * n) r
  (pairLevels l, r')

/-- A register of ones. -/
def Prbs.ones (k : Prbs) : Nat := 2 ^ k.len - 1

/-- The exit burst (R282): 32 UI alternating between levels 0 and 3, then the first 32 UI of PRBS13 from the all-ones seed. -/
def exitBurst : List Nat := (List.range 32).map (fun i => 3 * (i % 2)) ++ (Prbs.p13.levels 32 Prbs.p13.ones).1

/-- A checker (R282): how many bits it has taken, 64 at most, and its register. -/
structure PrbsChecker where
  got : Nat
  reg : Nat
  deriving DecidableEq, Repr

/-- A bit reaches a checker: the first 64 synchronise it, and each later one is compared. -/
def PrbsChecker.step (k : Prbs) (c : PrbsChecker) (b : Nat) : PrbsChecker × Nat :=
  if c.got < 64 then ({ got := c.got + 1, reg := k.push c.reg b }, 0)
  else
    let want := k.next c.reg
    ({ c with reg := k.push c.reg want }, if want = b then 0 else 1)

/-- Received bits reach a checker: the checker after them, and how many were wrong. -/
def PrbsChecker.run (k : Prbs) (c : PrbsChecker) (l : List Nat) : PrbsChecker × Nat :=
  l.foldl (fun a b =>
    let (c', e) := a.1.step k b
    (c', a.2 + e)) (c, 0)

/-! ### Messages of the link management channel (R267, R268) -/

/-- One bit into the CRC-16 of an LMC message: polynomial 0x1021, the highest bit first. -/
def crc16Bits : Nat → Nat → Nat
  | 0, c => c
  | n + 1, c => crc16Bits n (if 0x8000 ≤ c then ((2 * c) % 65536) ^^^ 0x1021 else 2 * c)

/-- The CRC-16 over bytes, with initial value 0xFFFF (no reflection and no final XOR; DEDUCED, log 148). -/
def crc16 (l : List Byte) : Nat := l.foldl (fun c b => crc16Bits 8 (c ^^^ (256 * b.toNat))) 0xFFFF

/-- Bytes 2-13 of a message: TYPE, SEQ and BODY. -/
def lmcCore (type seq : Nat) (body : List Byte) : List Byte := leBytes 1 type ++ leBytes 1 seq ++ sliceBytes body 0 10

/-- The 16 bytes of a message (R268). -/
def lmcFrame (type seq : Nat) (body : List Byte) : List Byte :=
  leBytes 2 0x7E81 ++ lmcCore type seq body ++ leBytes 2 (crc16 (lmcCore type seq body))

/-- The bits of some bytes, least significant first from byte 0. -/
def bitsOf (l : List Byte) : List Bool := l.flatMap fun b => (List.range 8).map fun i => bit i b.toNat

/-- The half-cells of some bytes on the clock wavelength (R267), true for the full clock swing: bit 1 is high then low, bit 0 low then
high. -/
def manchester (l : List Byte) : List Bool := (bitsOf l).flatMap fun b => [b, !b]

/-! ### Frames of the laser modules (R294) -/

/-- One bit into the CRC-8 of a frame: polynomial 0x07, the highest bit first. -/
def crc8Bits : Nat → Nat → Nat
  | 0, c => c
  | n + 1, c => crc8Bits n (if 0x80 ≤ c then ((2 * c) % 256) ^^^ 0x07 else 2 * c)

/-- The CRC-8 over bytes, with initial value 0x00 (DEDUCED, log 148). -/
def crc8 (l : List Byte) : Nat := l.foldl (fun c b => crc8Bits 8 (c ^^^ b.toNat)) 0

/-- Bytes 0-6 of a frame: OP, ADDR, SEQ and DATA. -/
def lasCore (op addr seq data : Nat) : List Byte := leBytes 1 op ++ leBytes 1 addr ++ leBytes 1 seq ++ leBytes 4 data

/-- The 8 bytes of a frame. -/
def lasFrame (op addr seq data : Nat) : List Byte := lasCore op addr seq data ++ leBytes 1 (crc8 (lasCore op addr seq data))

/-- A frame on its line: a start bit of 0, 64 bits least significant first, and a stop bit of 1. -/
def lasWire (frame : List Byte) : List Bool := false :: bitsOf frame ++ [true]

end Sys2Proof.Machine
end

