-- ==== Sys2Proof/Machine/Spindle.lean ====
section
/-! DEFINITION. Spindle arithmetic (chapter 08) and the atomic operations (R61): formats, exact values, the anchored
sum, rounding and the rounding generator. Everything here is a function of its arguments alone (R243). -/

namespace Sys2Proof.Machine

/-- The value of one element (R223): a finite value is plus or minus m times 2^e. -/
inductive Val where
  | nan
  | inf (neg : Bool)
  | fin (neg : Bool) (m : Nat) (e : Int)
  deriving DecidableEq, Repr

/-- A floating format: exponent bits, fraction bits, and its special encodings: 0 IEEE, 1 E4M3 (one NaN, no
infinity), 2 none (the small MX elements). -/
structure FpFmt where
  eb : Nat
  mb : Nat
  spec : Nat
  deriving DecidableEq, Repr

/-- fp32, bf16, fp16, E4M3, E5M2 (R220). -/
def fp32 : FpFmt := ⟨8, 23, 0⟩
/-- bf16. -/
def bf16 : FpFmt := ⟨8, 7, 0⟩
/-- fp16. -/
def fp16 : FpFmt := ⟨5, 10, 0⟩
/-- fp8 E4M3 (OCP). -/
def e4m3 : FpFmt := ⟨4, 3, 1⟩
/-- fp8 E5M2 (OCP). -/
def e5m2 : FpFmt := ⟨5, 2, 0⟩
/-- E3M2, E2M3 and E2M1 of OCP Microscaling. -/
def e3m2 : FpFmt := ⟨3, 2, 2⟩
/-- E2M3. -/
def e2m3 : FpFmt := ⟨2, 3, 2⟩
/-- E2M1. -/
def e2m1 : FpFmt := ⟨2, 1, 2⟩

/-- Exponent bias. -/
def FpFmt.bias (f : FpFmt) : Int := (2 ^ (f.eb - 1) : Nat) - 1
/-- P, the significand width with the hidden bit (R230). -/
def FpFmt.p (f : FpFmt) : Nat := f.mb + 1
/-- EMIN (R230). -/
def FpFmt.emin (f : FpFmt) : Int := 1 - f.bias
/-- EMAX (R230). -/
def FpFmt.emax (f : FpFmt) : Int := if f.spec = 0 then f.bias else (2 ^ f.eb : Nat) - 1 - f.bias
/-- Bits of one element. -/
def FpFmt.width (f : FpFmt) : Nat := 1 + f.eb + f.mb

/-- The value of a code of a floating format (R223). -/
def FpFmt.decode (f : FpFmt) (w : Nat) : Val :=
  let neg := bit (f.eb + f.mb) w
  let ex := bits f.mb f.eb w
  let fr := bits 0 f.mb w
  if f.spec = 0 ∧ ex = 2 ^ f.eb - 1 then (if fr = 0 then .inf neg else .nan)
  else if f.spec = 1 ∧ ex = 2 ^ f.eb - 1 ∧ fr = 2 ^ f.mb - 1 then .nan
  else if ex = 0 then .fin neg fr (1 - f.bias - f.mb)
  else .fin neg (2 ^ f.mb + fr) (ex - f.bias - f.mb)

/-- floor(log2 |x|) of a nonzero finite value. -/
def log2Of (m : Nat) (e : Int) : Int := (Nat.log2 m : Int) + e

/-- A finite value of magnitude 2^128 or more is taken as the infinity of its sign (R223). -/
def Val.clamp : Val → Val
  | .fin n m e => if m ≠ 0 ∧ log2Of m e ≥ 128 then .inf n else .fin n m e
  | v => v

/-- m times 2^k, rounded toward zero. -/
def scaleNat (m : Nat) (k : Int) : Nat := if 0 ≤ k then m * 2 ^ k.toNat else m / 2 ^ (-k).toNat

/-- R230 steps 3-5 for the magnitude m * 2^e (m not 0): the rounded multiple of 2^g, and g. `draw` is the generator's
value in stochastic mode, none in nearest-even mode. -/
def roundMag (p : Nat) (emin : Int) (draw : Option Nat) (m : Nat) (e : Int) : Nat × Int :=
  let g := max (log2Of m e) emin - (p - 1 : Int)
  if g ≤ e then (m * 2 ^ (e - g).toNat, g)
  else
    let k := (g - e).toNat
    let d := m / 2 ^ k
    let r := m % 2 ^ k
    let up := match draw with
      | none => decide (2 * r > 2 ^ k ∨ (2 * r = 2 ^ k ∧ d % 2 = 1))
      | some x => decide (x < r * 2 ^ 32 / 2 ^ k)
    (if up then d + 1 else d, g)

/-- The code of a sign in front of `v`. -/
def FpFmt.withSign (f : FpFmt) (neg : Bool) (v : Nat) : Nat := ofBool neg * 2 ^ (f.eb + f.mb) + v

/-- The canonical NaN of a format (R231). -/
def FpFmt.nanCode (f : FpFmt) : Nat :=
  if f.spec = 0 then (2 ^ f.eb - 1) * 2 ^ f.mb + 2 ^ (f.mb - 1) else 2 ^ (f.eb + f.mb) - 1

/-- The code of the largest finite magnitude. -/
def FpFmt.maxCode (f : FpFmt) : Nat :=
  if f.spec = 0 then (2 ^ f.eb - 1) * 2 ^ f.mb - 1 else if f.spec = 1 then 2 ^ (f.eb + f.mb) - 2
  else 2 ^ (f.eb + f.mb) - 1

/-- The code of an infinite result (R231): E4M3 encodes it as its NaN. -/
def FpFmt.infCode (f : FpFmt) (neg : Bool) : Nat :=
  if f.spec = 0 then f.withSign neg ((2 ^ f.eb - 1) * 2 ^ f.mb) else f.nanCode

/-- The code of n * 2^g after rounding, with overflow as R231 says; `sat` saturates in every format. -/
def FpFmt.encodeMag (f : FpFmt) (sat : Bool) (neg : Bool) (n : Nat) (g : Int) : Nat :=
  let code := if n < 2 ^ f.mb then n else ((g + f.mb + f.bias).toNat * 2 ^ f.mb) + (n - 2 ^ f.mb)
  if code > f.maxCode then
    (if f.spec = 0 ∧ !sat then f.infCode neg else f.withSign neg f.maxCode)
  else f.withSign neg code

/-- R230 and R231: a value rounded once to a format. -/
def FpFmt.encode (f : FpFmt) (sat : Bool) (draw : Option Nat) : Val → Nat
  | .nan => f.nanCode
  | .inf n => f.infCode n
  | .fin n m e =>
    if m = 0 then f.withSign n 0
    else
      let r := roundMag f.p f.emin draw m e
      f.encodeMag sat n r.1 r.2

/-- IEEE 754 addition of two values, exact (R61, R242): an exact zero sum of opposite signs is +0. -/
def Val.add : Val → Val → Val
  | .nan, _ => .nan
  | _, .nan => .nan
  | .inf a, .inf b => if a = b then .inf a else .nan
  | .inf a, _ => .inf a
  | _, .inf b => .inf b
  | .fin an am ae, .fin bn bm be =>
    let e := min ae be
    let x : Int := (if an then -1 else 1) * ((am * 2 ^ (ae - e).toNat : Nat) : Int)
    let y : Int := (if bn then -1 else 1) * ((bm * 2 ^ (be - e).toNat : Nat) : Int)
    let z := x + y
    .fin (if z = 0 then an && bn && am == 0 && bm == 0 else decide (z < 0)) z.natAbs e

/-- fp32 or bf16 addition of two codes, rounded to nearest even, NaN the default quiet NaN (R61). -/
def FpFmt.addCodes (f : FpFmt) (a b : Nat) : Nat := f.encode false none ((f.decode a).add (f.decode b))

/-! ### Formats of cells (R220-R222) -/

/-- Element bits of a format code (R220). -/
def fmtBits (f : Nat) : Nat :=
  if f = 0x00 || f = 0x05 then 32 else if f = 0x01 || f = 0x02 then 16
  else if f = 0x09 || f = 0x0A then 6 else if f = 0x0B then 4
  else if f = 0x10 || f = 0x19 then 64 else if f = 0x11 then 128 else 8

/-- Elements per cell of a format code (R220). -/
def fmtElems (f : Nat) : Nat :=
  if f = 0x00 || f = 0x05 then 192 else if f = 0x01 || f = 0x02 then 384
  else if f = 0x07 || f = 0x08 then 736 else if f = 0x10 || f = 0x19 then 96 else if f = 0x11 then 48 else 768

/-- Whether a format carries shared scales (R222). -/
def fmtIsMx (f : Nat) : Bool := 0x07 ≤ f && f ≤ 0x0B

/-- Data bytes of a full cell (R222, R226). -/
def fmtBytes (f : Nat) : Nat :=
  if f = 0x07 || f = 0x08 then 760 else if f = 0x09 || f = 0x0A then 600 else if f = 0x0B then 408 else 768

/-- The floating format of a code's elements. -/
def fmtFp (f : Nat) : Option FpFmt :=
  if f = 0x00 then some fp32 else if f = 0x01 then some bf16 else if f = 0x02 then some fp16
  else if f = 0x03 || f = 0x07 then some e4m3 else if f = 0x04 || f = 0x08 then some e5m2
  else if f = 0x09 then some e3m2 else if f = 0x0A then some e2m3 else if f = 0x0B then some e2m1 else none

/-- Element codes of a cell's payload (R221). -/
def elemCodes (f : Nat) (payload : List Byte) : List Nat :=
  let w := leNat (if fmtIsMx f then payload.drop 24 else payload)
  (List.range (fmtElems f)).map fun j => bits (j * fmtBits f) (fmtBits f) w

/-- The value of a floating element code, with the scale of its block (R222, R223). -/
def elemVal (f : Nat) (scale : Option Nat) (code : Nat) : Val :=
  match fmtFp f with
  | none => .fin false code 0
  | some ff =>
    match scale with
    | none => ff.decode code
    | some s =>
      if s = 0xFF then .nan
      else match ff.decode code with
        | .fin n m e => (Val.fin n m (e + s - 127)).clamp
        | v => v

/-- The values of a cell's elements (R221-R223). -/
def cellVals (f : Nat) (payload : List Byte) : List Val :=
  let codes := elemCodes f payload
  if fmtIsMx f then
    (codes.zipIdx).map fun (c, j) => elemVal f (some ((payload[j / 32]?).getD 0).toNat) c
  else codes.map (elemVal f none)

/-! ### The anchored sum (R227-R232) -/

/-- k(x) of R227 for a nonzero finite value. -/
def exponentCode (m : Nat) (e : Int) : Nat := (max (log2Of m e) (-126) + 127).toNat

/-- The anchor code of a block of values (R227). -/
def anchorCode (vs : List Val) : Nat :=
  vs.foldl (fun b v => match v with
    | .fin _ m e => if m = 0 then b else max b (exponentCode m e)
    | _ => b) 0

/-- What truncation makes of a value (R228): an integer, or a special flag. -/
inductive Quot where
  | q (z : Int)
  | nan
  | inf (neg : Bool)
  deriving DecidableEq, Repr

/-- R228: the multiple of u = 2^(A - W) that x is truncated to. `present` is false for anchor code 0. -/
def truncate (present : Bool) (a : Int) (w : Nat) : Val → Quot
  | .nan => .nan
  | .inf n => .inf n
  | .fin n m e =>
    if m = 0 then .q 0
    else if !present || log2Of m e ≥ a - 1 then .inf n
    else
      let k : Nat := scaleNat m (e - (a - w))
      .q (if n then -(k : Int) else k)

/-- The value that a member sends for a truncated value (R228): u * q, or the special value; zero as +0. -/
def Quot.val (a : Int) (w : Nat) : Quot → Val
  | .nan => .nan
  | .inf n => .inf n
  | .q z => .fin (decide (z < 0)) z.natAbs (a - w)

/-- The rounding generator's mix (R232). -/
def mix (z : Nat) : Nat :=
  let z := z % 2 ^ 64
  let z := ((z ^^^ (z / 2 ^ 31)) * 0xD6E8FEB86659FD93) % 2 ^ 64
  let z := ((z ^^^ (z / 2 ^ 29)) * 0xA0761D6478BD642F) % 2 ^ 64
  z ^^^ (z / 2 ^ 32)

/-- DRAW of R232. -/
def draw (seed tensor index : Nat) : Nat :=
  let key := mix (seed ^^^ (tensor * 0xC2B2AE3D27D4EB4F % 2 ^ 64))
  mix ((key + index * 0x9E3779B97F4A7C15) % 2 ^ 64) / 2 ^ 32

/-! ### Accumulation contexts (R217) -/

/-- One element of a context: a 128-bit accumulator and three flags (R217). -/
structure Elem where
  acc : BitVec 128
  nan : Bool
  pinf : Bool
  ninf : Bool
  deriving DecidableEq, Repr

/-- An element that nothing has been added to. -/
def Elem.zero : Elem := ⟨0, false, false, false⟩

/-- `q` added to an element, or its flag set (R229). -/
def Elem.addQ (x : Elem) : Quot → Elem
  | .q z => { x with acc := x.acc + BitVec.ofInt 128 z }
  | .nan => { x with nan := true }
  | .inf n => if n then { x with ninf := true } else { x with pinf := true }

/-- What a phase's record says of a reduction (R195, R224). -/
structure RedOp where
  op : Nat
  fin : Nat
  fout : Nat
  classF : Bool
  w : Nat
  stoch : Bool
  deriving DecidableEq, Repr

/-- The window of MODE.W (R195); 0 for the code 3, which names none. -/
def windowOf (mode : Nat) : Nat := [32, 64, 104, 0].getD (bits 1 2 mode) 0

/-- Whether OP, FMT_IN, FMT_OUT and MODE form a row of R224. -/
def RedOp.legal (r : RedOp) : Bool :=
  let fpIn := r.fin ≤ 0x04 || (0x07 ≤ r.fin && r.fin ≤ 0x0B)
  let fpOut := r.fout ≤ 0x04 || r.fout = 0x07 || r.fout = 0x08
  let part (f : Nat) : Bool := (f = 0x10 && r.w = 32) || f = 0x11
  let partOut := part r.fout
  let window := r.w != 0
  match r.op with
  | 0x01 =>
    (fpIn && window && (fpOut || (!r.classF && partOut)))
    || (part r.fin && window && !r.classF && (fpOut || r.fout = r.fin))
    || ((r.fin = 0x05 || r.fin = 0x06) && r.fout = 0x05)
  | 0x02 | 0x03 => r.fin ≤ 0x06 && (r.fout = (if r.fin = 0x06 then 0x05 else r.fin))
  | 0x04 => r.fin ≤ 0x0B && r.fout = 0x05
  | 0x05 | 0x06 => (r.fin = 0x05 || r.fin = 0x06) && r.fout = r.fin
  | 0x07 => r.fin = 0x19 && r.fout = 0x19
  | 0x08 =>
    window && if r.classF then r.fin = 0x00 && r.fout = 0x00
    else (r.fin = 0x00 || part r.fin) && (r.fout = 0x00 || partOut)
  | 0x09 | 0x0A => r.fin = 0x18 && r.fout = 0x18
  | 0x0B => r.fin = 0x05 && r.fout = 0x05
  | _ => false

/-- Whether a reduction is a SUM or LSE on floating or partial formats: the only ones whose CLASS counts and whose cells carry TENSOR and
INDEX (R224, R225). -/
def RedOp.floats (r : RedOp) : Bool := (r.op = 0x01 || r.op = 0x08) && !(r.fin = 0x05 || r.fin = 0x06)

/-- Whether a reduction sums anchored integers (Class D SUM or LSE on floating or partial formats). -/
def RedOp.anchored (r : RedOp) : Bool := r.floats && !r.classF

/-- The flag or integer of a partial's code (R235). -/
def partialQ (n code : Nat) : Quot :=
  if code = 2 ^ (n - 1) then .nan else if code = 2 ^ (n - 1) + 1 then .inf false
  else if code = 2 ^ (n - 1) + 2 then .inf true else .q (signed n code)

/-- R241: an LSE input that is NaN, negative, or 2^24 or more is taken as NaN. -/
def lseTest (v : Val) : Val :=
  match v with
  | .fin n m e => if (n && m != 0) || (m ≠ 0 ∧ log2Of m e ≥ 24) then .nan else v
  | _ => .nan

/-- The anchor A and whether there is one, of the block of element j; LSE uses the fixed anchor 25 (R227, R241). -/
def blockAnchor (r : RedOp) (anchors : List Nat) (base j : Nat) : Bool × Int :=
  if r.op = 0x08 then (true, 25)
  else
    let b := anchors.getD ((base + j) / 32) 0
    (b != 0, (b : Int) - 125)

/-- A comparison key of R237: -0 below +0, infinities as themselves; NaN is handled apart. -/
def ltVal : Val → Val → Bool
  | .inf a, .inf b => a && !b
  | .inf a, _ => a
  | _, .inf b => !b
  | .fin an am ae, .fin bn bm be =>
    let e := min ae be
    let x : Int := (if an then -1 else 1) * ((am * 2 ^ (ae - e).toNat : Nat) : Int)
    let y : Int := (if bn then -1 else 1) * ((bm * 2 ^ (be - e).toNat : Nat) : Int)
    decide (x < y) || (x = y && am == 0 && an && !bn)
  | _, _ => false

/-- R240: whether entry x ranks ahead of entry y; entries are 64 bits, VALUE low. -/
def topkAhead (x y : Nat) : Bool :=
  let vx := fp32.decode (bits 0 32 x)
  let vy := fp32.decode (bits 0 32 y)
  let strip : Val → Val := fun v => match v with | .fin _ 0 e => .fin false 0 e | v => v
  match vx, vy with
  | .nan, .nan => decide (bits 32 32 x < bits 32 32 y)
  | .nan, _ => false
  | _, .nan => true
  | a, b =>
    if ltVal (strip b) (strip a) then true
    else if ltVal (strip a) (strip b) then false
    else decide (bits 32 32 x < bits 32 32 y)

/-- Entries of equal rank that differ in their bits stand in the order of their 64-bit codes, so that the result depends only on the set of
entries (R240; DESIGN CHOICE, log 143). -/
def topkBefore (x y : Nat) : Bool := topkAhead x y || (!topkAhead y x && decide (x < y))

/-- `x` inserted into a ranked list. -/
def topkInsert (x : Nat) : List Nat → List Nat
  | [] => [x]
  | y :: r => if topkBefore x y then x :: y :: r else y :: topkInsert x r

/-- The K highest of two ranked lists of entries (R240). -/
def topkMerge (k : Nat) (a b : List Nat) : List Nat := (b.foldl (fun l x => topkInsert x l) a).take k

/-- The elements of a context after one contribution (R229, R237-R242). `first`: no earlier contribution. `base` is
the place of the cell's first element in the blocks of `anchors`; `opdata` gives K and LISTS of a TOPK; `leaf` says that the cell is a leaf's
partial, not a member's, which the test of R241 does not concern. -/
def accumulate (r : RedOp) (first : Bool) (anchors : List Nat) (base opdata : Nat) (xs : List Elem)
    (payload : List Byte) (leaf : Bool := false) : List Elem :=
  let lseIn (v : Val) : Val := if r.op = 0x08 && !leaf then lseTest v else v
  let codes := elemCodes r.fin payload
  let vals := cellVals r.fin payload
  let put (x : Elem) (n : Nat) : Elem := { x with acc := BitVec.ofNat 128 n }
  if r.op = 0x07 then
    let k := bits 0 7 opdata
    let lists := bits 7 7 opdata
    let old := xs.map fun x => x.acc.toNat
    let merged := (List.range lists).flatMap fun l =>
      let inp := ((codes.drop (l * k)).take k).foldl (fun acc x => topkInsert x acc) []
      if first then inp else topkMerge k ((old.drop (l * k)).take k) inp
    (merged ++ List.replicate (768 - merged.length) 0).map fun n => put Elem.zero n
  else
  (xs.zipIdx).map fun (x, j) =>
    if j ≥ codes.length then x
    else
    let c := codes.getD j 0
    let v := vals.getD j .nan
    match r.op with
    | 0x02 | 0x03 =>
      if r.fin = 0x05 || r.fin = 0x06 then
        let s := signed (fmtBits r.fin) c
        let o := x.acc.toInt
        put x (ofSigned 128 (if first then s else if r.op = 0x02 then max s o else min s o))
      else if v = .nan then { x with nan := true }
      else if first then put x c
      else
        let o := elemVal r.fin none x.acc.toNat
        if x.nan then x
        else if (if r.op = 0x02 then ltVal o v else ltVal v o) then put x c else x
    | 0x04 =>
      let present := if r.fin = 0x05 || r.fin = 0x06 then c != 0 else decide (v ≠ .nan)
      { x with acc := x.acc + BitVec.ofNat 128 (ofBool present) }
    | 0x05 => if first then put x c else put x (bAnd x.acc.toNat c)
    | 0x06 => if first then put x c else put x (bOr x.acc.toNat c)
    | 0x09 => if first then put x c else put x (max x.acc.toNat c)
    | 0x0A => put x c
    | 0x0B =>
      let s := signed 32 c
      put x (ofSigned 128 (if first then s else max s x.acc.toInt))
    | _ =>
      if r.fin = 0x05 || r.fin = 0x06 then x.addQ (.q (signed (fmtBits r.fin) c))
      else if r.classF then
        let w := fp32.encode false none (lseIn v)
        if first then put x w else put x (fp32.addCodes x.acc.toNat w)
      else if r.fin = 0x10 then x.addQ (partialQ 64 c)
      else if r.fin = 0x11 then x.addQ (partialQ 128 c)
      else
        let a := blockAnchor r anchors base j
        x.addQ (truncate a.1 a.2 r.w (lseIn v))

/-- Whether a contribution holds an element beyond a supplied anchor (R234: SPD[n].ERR.WINDOW). -/
def beyondAnchor (r : RedOp) (anchors : List Nat) (base : Nat) (payload : List Byte) : Bool :=
  r.anchored && r.op = 0x01 && r.fin < 0x10 &&
  ((cellVals r.fin payload).zipIdx).any fun (v, j) =>
    let a := blockAnchor r anchors base j
    match v with
    | .fin _ m e => m ≠ 0 ∧ (!a.1 ∨ log2Of m e ≥ a.2 - 1)
    | _ => false

/-- The value v = S * 2^(A - W) of an element, with its flags (R230). -/
def Elem.val (x : Elem) (a : Int) (w : Nat) : Val :=
  if x.nan || (x.pinf && x.ninf) then .nan
  else if x.pinf then .inf false else if x.ninf then .inf true
  else .fin (decide (x.acc.toInt < 0)) x.acc.toInt.natAbs (a - w)

/-- The code of a partial (R235). -/
def Elem.partialCode (x : Elem) (n : Nat) : Nat :=
  if x.nan || (x.pinf && x.ninf) then 2 ^ (n - 1)
  else if x.pinf then 2 ^ (n - 1) + 1 else if x.ninf then 2 ^ (n - 1) + 2
  else ofSigned n x.acc.toInt

/-- MXFP8 output of one block of at most 32 results (R231): its scale byte and its element codes. -/
def mxBlock (ff : FpFmt) (vs : List Val) (draws : List (Option Nat)) : Nat × List Nat :=
  let logs := vs.filterMap fun v => match v with
    | .fin _ m e => if m = 0 then none else some (log2Of m e)
    | _ => none
  let shift : Int := if ff.mb = 3 then 8 else 15
  match logs with
  | [] => (0, vs.map fun v => match v with
      | .fin _ _ _ => 0
      | v => ff.encode true none v)
  | l :: r =>
    let s := max (-127) (min 127 (r.foldl max l - shift))
    ((s + 127).toNat, (vs.zip draws).map fun (v, d) => match v with
      | .fin n m e => ff.encode true d (.fin n m (e - s))
      | v => ff.encode true none v)

/-- Elements of a list in groups of `k`, at most `n` groups. -/
def groupsOf {α : Type} (k : Nat) : Nat → List α → List (List α)
  | 0, _ => []
  | n + 1, l => if l.isEmpty then [] else l.take k :: groupsOf k n (l.drop k)

/-- Element codes packed into bytes, element j at bit j * b (R221). -/
def packElems (b : Nat) (cs : List Nat) : List Byte :=
  leBytes ((cs.length * b + 7) / 8) (packFieldsW b cs)
where
  /-- The number that equal-width fields spell. -/
  packFieldsW (b : Nat) : List Nat → Nat
    | [] => 0
    | c :: r => c % 2 ^ b + 2 ^ b * packFieldsW b r

/-- The output cells of a context (R219): the payload of each. `n` is the context's element count. -/
def emitPayloads (r : RedOp) (n : Nat) (anchors : List Nat) (base : Nat) (seed tensor index : Nat)
    (xs : List Elem) : List (List Byte) :=
  let per := fmtElems r.fout
  let k := (n + per - 1) / per
  let ys := ((xs.take n).zipIdx).map fun (x, j) =>
    let d := if r.stoch then some (draw seed tensor ((index + j) % 2 ^ 40)) else none
    let v : Val :=
      if r.anchored then
        let a := blockAnchor r anchors base j
        x.val a.2 r.w
      else if r.floats then fp32.decode (x.acc.toNat % 2 ^ 32)
      else .fin false 0 0
    (x, v, d)
  let code : Elem × Val × Option Nat → Nat := fun (x, v, d) =>
    if r.floats then
      (if r.fout = 0x10 then x.partialCode 64 else if r.fout = 0x11 then x.partialCode 128
       else match fmtFp r.fout with
         | some ff => ff.encode false d v
         | none => 0)
    else if (r.op = 0x02 || r.op = 0x03) && x.nan then
      (match fmtFp r.fout with | some ff => ff.nanCode | none => 0)
    else x.acc.toNat % 2 ^ fmtBits r.fout
  (groupsOf per k ys).map fun g =>
    if fmtIsMx r.fout then
      let blocks := (groupsOf 32 24 g).map fun b =>
        mxBlock (if r.fout = 0x07 then e4m3 else e5m2) (b.map (·.2.1)) (b.map (·.2.2))
      sliceBytes (packElems 8 (blocks.map (·.1))) 0 24 ++ packElems 8 (blocks.flatMap (·.2))
    else packElems (fmtBits r.fout) (g.map code)

/-! ### Atomic operations (R61) -/

/-- The new value of a target of `w` bytes (R61, R106): `op` is SUB 3:0. -/
def atomicNew (op w old operand compare : Nat) : Nat :=
  let n := 8 * w
  match op with
  | 0x0 => (old + operand) % 2 ^ n
  | 0x1 => if signed n operand < signed n old then operand else old
  | 0x2 => if signed n old < signed n operand then operand else old
  | 0x3 => min old operand
  | 0x4 => max old operand
  | 0x5 => bAnd old operand
  | 0x6 => bOr old operand
  | 0x7 => old ^^^ operand
  | 0x8 => operand
  | 0x9 => if old = compare then operand else old
  | 0xA => fp32.addCodes old operand
  | 0xB => bf16.addCodes old operand
  | _ => (old + operand) % 2 ^ 128

/-- The 128-bit term of a converted anchored-add (R106, R236): none where the value is special or beyond the window. -/
def anchoredTerm (a : Int) (w fmt code : Nat) : Option Nat :=
  let v := if fmt = 5 then
      (let z := signed 32 code; Val.fin (decide (z < 0)) z.natAbs 0)
    else elemVal fmt none code
  match truncate true a w v with
  | .q z => some (ofSigned 128 z)
  | _ => none

end Sys2Proof.Machine
end

