-- ==== Sys2Proof/Machine/Store.lean ====
section
/-! DEFINITION. Sparse memories and tables: reading and writing an `SMap`, which keeps one canonical form. -/

namespace Sys2Proof.Machine.SMap

variable {α : Type}

/-- What key `k` holds; `d` says what an unlisted key reads as. -/
def look (d : Nat → α) : SMap α → Nat → α
  | [], k => d k
  | (j, v) :: r, k => if j = k then v else look d r k

/-- `m` without key `k`. -/
def drop (m : SMap α) (k : Nat) : SMap α := m.filter fun e => decide (e.1 ≠ k)

/-- `m` with the pair (k, v) before the first greater key. -/
def insert (k : Nat) (v : α) : SMap α → SMap α
  | [] => [(k, v)]
  | (j, w) :: r => if k < j then (k, v) :: (j, w) :: r else (j, w) :: insert k v r

/-- `m` with key `k` holding `v`; a value that an unlisted key reads as is not listed. -/
def put [DecidableEq α] (d : Nat → α) (m : SMap α) (k : Nat) (v : α) : SMap α :=
  if v = d k then drop m k else insert k v (drop m k)

/-- The canonical form: keys strictly rising, and no entry that reads as an unlisted key does. -/
def wf [DecidableEq α] (d : Nat → α) (m : SMap α) : Bool :=
  decide (m.Pairwise fun a b => a.1 < b.1) && m.all fun e => decide (e.2 ≠ d e.1)

/-- The value of a key that is listed, if it is. -/
def find? (m : SMap α) (k : Nat) : Option α :=
  match m with
  | [] => none
  | (j, v) :: r => if j = k then some v else find? r k

/-- `m` with key `k` holding `v`, for tables in which an unlisted key is absent. -/
def set (m : SMap α) (k : Nat) (v : α) : SMap α := insert k v (drop m k)

end Sys2Proof.Machine.SMap
end

