-- ==== Sys2Proof/Machine/State.lean ====
section
/-! DEFINITION. The state of one Ronpex and one Plocen: every register, queue, store and timer that the manual gives
them, as plain data, and the state right after reset. The docstring of a field gives its width, its rule and its reset
value; the registers of the two register spaces are in `Ronpex.regs` and `Plocen.regs` (RegTable). -/

namespace Sys2Proof.Machine

open Sys2Proof

/-! ### The attach link (R66-R92) -/

/-- What an outstanding attach access of the Plocen serves: R89 and R90 say what its failure does. -/
inductive AttUse where
  | ringFetch (ring first n : Nat)       -- descriptors first .. first+n-1 of a ring (R97)
  | fillFetch (first n : Nat)            -- fill records (R138)
  | source (held off : Nat)              -- bytes of a container that is being formed (R55)
  | list (ring sub first n : Nat)        -- list entries of GATHER, SCATTER or FMEM_PAGE (R107, R108)
  | listPart (ring sub entry lo : Nat)   -- part of a list entry that lies across a 4 KiB boundary, from its byte `lo` on (R108)
  | landReply (land : Nat)               -- landing of a reply (R89)
  | reqRead (job off : Nat)              -- data of an arriving READ
  | reqWrite (job off : Nat)             -- one piece of an arriving WRITE
  | atomRead (job : Nat)                 -- old value of an arriving ATOMIC
  | atomWrite (job : Nat)                -- new value of an arriving ATOMIC
  | completion (ring count : Nat)        -- a completion entry (R116)
  | missRecord (count : Nat)             -- a miss record (R136)
  | contribution (bind phase round slice cell off : Nat)   -- a contribution read (R202)
  | warpLand (land : Nat)                -- landing of a result cell (R202)
  deriving DecidableEq, Repr

/-- One request that the Plocen has to send on P2A_REQ: its opcode (R78), address, length, data and AUX. -/
structure AttReq where
  kind : Nat
  use : Option AttUse
  addr : Nat
  len : Nat
  data : List Byte
  aux : Nat
  deriving DecidableEq, Repr

/-- One tag in use on P2A_REQ (R79, R89). `dead`: timed out, not reused until its completion arrives. `void`: what it served has been
given up, and its end is counted as an error all the same (R89, R126, R147). -/
structure AttTag where
  use : AttUse
  isRead : Bool
  addr : Nat
  len : Nat
  got : Nat
  data : List Byte
  sentAt : Nat
  dead : Bool
  void : Bool
  deriving DecidableEq, Repr

/-- The attach link of the Plocen. -/
structure Attach where
  /-- Modules that have trained with their data rate in GT/s, number and rate; R92 (03); none after reset. -/
  trained : List (Nat × Nat) := []
  /-- Whether the sideband exchange is done (R92 step 2); 1 bit; false after reset. -/
  exchanged : Bool := false
  /-- Modules in use, 0, 4 or 8 (R67, R68); 0 after reset. -/
  modules : Nat := 0
  /-- The other end's INIT has arrived (R92 step 4); false after reset. -/
  initSeen : Bool := false
  /-- INIT_ACK has arrived (R92 step 5); false after reset. -/
  ackSeen : Bool := false
  /-- When INIT was last sent, in ns (R92); 0 after reset. -/
  initAt : Nat := 0
  /-- The link is active (EP_ATT.STAT.ACTIVE, R92); false after reset. -/
  active : Bool := false
  /-- The link has been lost (R90): it comes back only through a Plocen reset; false after reset. -/
  down : Bool := false
  /-- When the retrain in progress began, ns (R71); none after reset. -/
  retrainAt : Option Nat := none
  /-- Next SEQ expected of the accelerator, 12 bits (R70); 0 after reset (R92). -/
  rxSeq : Nat := 0
  /-- Next SEQ of an own data flit, 12 bits (R70); 0 after reset. -/
  txSeq : Nat := 0
  /-- Own data flits not yet acknowledged: SEQ and body, oldest first, at most 1,024 (R71); none after reset. -/
  txHeld : List (Nat × List (BitVec 128)) := []
  /-- SEQ that the last NAK received named, and how many NAKs in a row named it (R71); 0 after reset. -/
  nakSeq : Nat := 0
  /-- NAKs received in a row for `nakSeq` (R71); 0 after reset. -/
  nakRun : Nat := 0
  /-- NAKs sent in a row for the SEQ now expected (R71); 0 after reset. -/
  nakSent : Nat := 0
  /-- Chunks of an unfinished transaction of the incoming stream, header first (R72); none after reset. -/
  rxChunks : List (BitVec 128) := []
  /-- Credit that the accelerator advertised on P2A_REQ, chunks, 0 unlimited (R74); 0 after reset. -/
  p2aLimit : Nat := 0
  /-- Chunks sent on P2A_REQ since INIT (R74); 0 after reset (R92). -/
  p2aUsed : Nat := 0
  /-- Chunks of P2A_REQ that the accelerator has freed since INIT (R69); 0 after reset. -/
  p2aFreed : Nat := 0
  /-- Chunks received on A2P_REQ since INIT (R74); 0 after reset. -/
  a2pUsed : Nat := 0
  /-- Chunks of A2P_REQ freed since INIT, the REQ_CRD total (R69); 0 after reset. -/
  a2pFreed : Nat := 0
  /-- A2P_REQ transactions received that wait in the Plocen's buffers while 1,024 direct loads are outstanding, oldest
  first, each with the time at which it arrived (R76, R86, R122); none after reset. -/
  a2pBuf : List (Txn × Nat) := []
  /-- Completions that wait to go out on P2A_CPL, oldest first (R72, R85); none after reset. -/
  cplQueue : List Txn := []
  /-- Completion chunks freed since INIT, the CPL_CRD total (R69); 0 after reset. -/
  cplFreed : Nat := 0
  /-- ACK, REQ_CRD and CPL_CRD of the last flit sent (R69, R70); 4,095, 0 and 0 after reset. -/
  told : Nat × Nat × Nat := (4095, 0, 0)
  /-- Requester IDs that the accelerator announced (R72); 0 after reset. -/
  rids : Nat := 0
  /-- Tags in use on P2A_REQ, by tag (R77, 12 bits); none after reset. -/
  tags : SMap AttTag := []
  /-- P2A_REQ transactions that wait for a tag or for credit (R74), oldest first; none after reset. -/
  queue : List AttReq := []
  deriving DecidableEq, Repr

/-! ### Rings, descriptors and shuttles (R94-R128) -/

/-- One descriptor ring. -/
structure Ring where
  /-- STAT.ACTIVE (R127); reset 0. -/
  active : Bool := false
  /-- STAT.ERR (R127); reset 0. -/
  err : Bool := false
  /-- STAT.ERRCODE, 8 bits (R127); reset 0. -/
  errCode : Nat := 0
  /-- Fetching has stopped until the ring is disabled and enabled again (R96, R127); false at reset. -/
  fetchStop : Bool := false
  /-- STAT.QUIESCED (R126); reset 0. -/
  quiesced : Bool := false
  /-- SQ_TAIL, 32 bits (R95); reset 0. -/
  sqTail : Nat := 0
  /-- SQ_HEAD, 32 bits (R95); reset 0. -/
  sqHead : Nat := 0
  /-- CQ_TAIL, 32 bits (R95); reset 0. -/
  cqTail : Nat := 0
  /-- CQ_HEAD, 32 bits (R95); reset 0. -/
  cqHead : Nat := 0
  /-- Count up to which descriptor fetches have been issued, 32 bits (R97); reset 0. -/
  issued : Nat := 0
  /-- Descriptors whose data has arrived ahead of SQ_HEAD, by count (R97); none at reset. -/
  arrived : SMap Nat := []
  /-- Descriptors fetched and not started, in start order: count and 512 bits (R97, R118); none at reset. -/
  fetched : List (Nat × Nat) := []
  /-- The arm state (R102); reset 0. -/
  armed : Bool := false
  /-- Posting times of completions since the last INTR whose entry is written, oldest first (R102); none at reset. -/
  unannounced : List Nat := []
  /-- Deficit, in containers (R120); reset 0. -/
  deficit : Nat := 0
  /-- WEIGHT in use since the last deficit refill, 8 bits (R126); reset 1. -/
  weight : Nat := 1
  /-- BURST in use since the last deficit refill (R126); reset 64. -/
  burst : Nat := 64
  deriving DecidableEq, Repr

/-- A range of a descriptor's elements that has not been formed: from byte `eoff` of element `pos` up to byte `endOff` of element
`endPos` (R119). -/
structure Rng where
  pos : Nat
  eoff : Nat
  endPos : Nat
  endOff : Nat
  deriving DecidableEq, Repr

/-- A started descriptor (R118). -/
structure Act where
  ring : Nat
  sub : Nat                 -- submission count
  raw : Nat                 -- the 512 bits
  todo : List Rng           -- what is still to be formed, in order, but for what shuttles hold (R119)
  list : SMap Nat           -- list entries fetched, by index
  halves : List (Nat × Nat) -- list entries of which one part has been fetched, and its value (R108)
  asked : Nat               -- list entries whose reads have been issued
  checked : Bool            -- the list entries of a DECRYPT descriptor have been checked (R338)
  ahead : Nat               -- bytes of a PUT's or GET's range whose extents have been looked at before anything is sent (R117)
  sent : Bool               -- some container has been formed
  parts : Nat               -- source reads, replies and landings outstanding
  landed : Nat              -- bytes landed
  code : Nat                -- completion code so far (R117)
  info : Nat
  keyDead : Bool            -- its model key was destroyed while it ran (R338)
  bad : Option Nat := none  -- INFO of its BAD_DESC, where only its list entries can give a lower offset (R338)
  deriving DecidableEq, Repr

/-- A descriptor in the gate pool (R113): a gated descriptor, or a HANK_WAIT. -/
structure Parked where
  ring : Nat
  sub : Nat
  raw : Nat
  since : Nat
  deriving DecidableEq, Repr

/-- A burst that a shuttle holds (R119): its descriptor, the range that it is to form and how many containers are left of it. -/
structure Burst where
  ring : Nat
  sub : Nat
  rng : Rng
  left : Nat
  node : Option Nat         -- the node of the containers that it has formed (R119)
  deriving DecidableEq, Repr

/-- An outbound extent (R129). -/
structure OutExt where
  tag : Nat
  start : Nat
  pages : Nat
  target : Nat
  ttag : Nat
  perm : Nat
  deriving DecidableEq, Repr

/-- An inbound extent (R130). -/
structure InExt where
  tag : Nat
  skein : Nat
  start : Nat
  pages : Nat
  attach : Nat
  perm : Nat
  deriving DecidableEq, Repr

/-- One shuttle (R118, R125). -/
structure Shuttle where
  /-- The burst it holds (R119); none at reset. -/
  burst : Option Burst := none
  /-- The miss record it is stalled on, by the model's record number (R139); none at reset. -/
  miss : Option Nat := none
  /-- STAT.FENCED (R128); reset 0. -/
  fenced : Bool := false
  /-- Containers formed, 64 bits (R128); reset 0. -/
  formed : Nat := 0
  /-- The 64-entry micro-cache, least recently used first (R133); empty at reset. -/
  micro : List OutExt := []
  deriving DecidableEq, Repr

/-- A direct load that the Plocen has accepted (R85, R86). -/
structure Load where
  id : Nat
  rid : Nat
  tag : Nat
  addr : Nat
  len : Nat
  at_ : Nat                 -- when it was accepted
  inMiss : Bool             -- it waits in the direct miss store (R141)
  deriving DecidableEq, Repr

/-- A direct store not yet committed (R53). -/
structure Store where
  id : Nat
  rid : Nat
  deriving DecidableEq, Repr

/-- A read of EP_HNK.FENCE that waits (R53). -/
structure FenceRd where
  rid : Nat
  tag : Nat
  addr : Nat
  len : Nat
  at_ : Nat
  waits : List Nat          -- the stores it waits for
  deriving DecidableEq, Repr

/-! ### Extent translation (R129-R148) -/

/-- A direct access, with what its window segment said as it arrived (R83, R93); it may wait in the direct miss store (R141). -/
structure DMiss where
  store : Bool
  id : Nat                  -- of its load or store
  va : Nat
  xtag : Nat
  planes : Nat
  hank : Nat
  len : Nat
  data : List Byte
  deriving DecidableEq, Repr

/-- A MISS or FAULT record that awaits an answer (R139). -/
structure Miss where
  id : Nat                  -- the model's record number
  fault : Bool
  tag : Nat
  va : Nat
  count : Option Nat        -- miss-ring count once posted (R140)
  formedAt : Nat
  direct : List DMiss       -- direct accesses that wait on it; shuttles name it themselves
  deriving DecidableEq, Repr

/-- A record to be written to the miss ring: its 32 bytes but for PHASE and TIME, and the MISS or FAULT it posts. -/
structure MissRec where
  bytes : List Byte
  id : Option Nat
  deriving DecidableEq, Repr

/-- A REMOVE_IN whose IN_REMOVED is not yet posted (R146). -/
structure Removal where
  fill : Nat                         -- its fill count
  tag : Nat
  count : Nat                        -- extents removed
  waits : List (Nat × Nat × Nat)     -- the pieces waited for: job, offset in the message, length
  deriving DecidableEq, Repr

/-- The translation unit. -/
structure Xlt where
  /-- EP_XLT.STAT.ACTIVE (R148); reset 0. -/
  active : Bool := false
  /-- EP_XLT.STAT.ERR (R148); reset 0. -/
  err : Bool := false
  /-- EP_XLT.STAT.ERRCODE, 8 bits (R148); reset 0. -/
  errCode : Nat := 0
  /-- Fetching has stopped until EN is cleared and set again (R135, R148); false at reset. -/
  fetchStop : Bool := false
  /-- MISS_TAIL, 32 bits (R135); reset 0. -/
  missTail : Nat := 0
  /-- MISS_HEAD, 32 bits (R135); reset 0. -/
  missHead : Nat := 0
  /-- FILL_TAIL, 32 bits (R135); reset 0. -/
  fillTail : Nat := 0
  /-- FILL_HEAD, 32 bits (R135); reset 0. -/
  fillHead : Nat := 0
  /-- Count up to which fill fetches have been issued (R138); reset 0. -/
  issued : Nat := 0
  /-- Fill records that have arrived ahead of FILL_HEAD, by count, 256 bits each (R138); none at reset. -/
  arrived : SMap Nat := []
  /-- Fill records fetched and not yet processed, in ring order: count and 256 bits (R138); none at reset. -/
  fetched : List (Nat × Nat) := []
  /-- The extent cache's outbound extents, least recently used first (R133); empty at reset. -/
  outExt : List OutExt := []
  /-- The inbound extents (R130); empty at reset. -/
  inExt : List InExt := []
  /-- Micro-cache of the direct path (R133); empty at reset. -/
  dMicro : List OutExt := []
  /-- MISS and FAULT records awaiting an answer (R139); none at reset. -/
  misses : List Miss := []
  /-- Next record number of the model; 0 at reset. -/
  nextMiss : Nat := 0
  /-- Records held for lack of miss-ring space (R136), oldest first; none at reset. -/
  held : List MissRec := []
  /-- Records written and not confirmed, by count: kept to be written again (R148); none at reset. -/
  written : SMap MissRec := []
  /-- Records whose write failed, by count (R148); none at reset. -/
  failed : List (Nat × MissRec) := []
  /-- The arm state of vector 1,024 (R136); reset 0. -/
  armed : Bool := false
  /-- Records posted and confirmed since the last INTR (R136); 0 at reset. -/
  unannounced : Nat := 0
  /-- INV_RANGE in progress: fill count, record, acknowledgement map of 17 bits (R143); none at reset. -/
  inv : Option (Nat × Nat × Nat) := none
  /-- DRAINED records pending: fill count, tag, the containers waited for, whether INV_DONE is posted (R145). -/
  drains : List (Nat × Nat × List Nat × Bool) := []
  /-- REMOVE_IN in progress (R137, R146); none at reset. -/
  removal : Option Removal := none
  /-- EP_XLT.DMISS.OVF, 16 bits (R148); reset 0. -/
  ovf : Nat := 0
  /-- EP_XLT.DROP, 32 bits (R148); reset 0. -/
  drop : Nat := 0
  deriving DecidableEq, Repr

/-! ### Source and destination of weft (R149-R180) -/

/-- What an operation at the source belongs to. -/
inductive Owner where
  | desc (ring sub : Nat)           -- a descriptor
  | load (id : Nat)                 -- a direct load
  | store (id : Nat)                -- a direct store
  | shadow (bind plane phase slice round cell : Nat) (tally : Bool) -- the Plocen's own READs of the phase shadow of a plane's Ronpex (R205)
  | mgmt (order : Nat)              -- a MGMT message (R392); `order` names the pending order, 0 none
  | relay (m : Nat)                 -- a relay's HANK_SET (R259)
  deriving DecidableEq, Repr

/-- One request message of a container in the retransmit store. -/
structure SentMsg where
  msg : Msg
  owner : Owner
  land : Nat                -- attach address where its reply lands
  hank : Nat                -- local hank index that the landing names (R44)
  wants : Nat               -- bytes of reply to be landed
  decrypt : Bool            -- DATA is decrypted with the model key (R115)
  page : Nat                -- the source address / 64 of the data's first unit, for decryption (R338)
  owes : Bool               -- its end is counted among the parts of its descriptor
  answered : Bool
  deriving DecidableEq, Repr

/-- Where a container of the retransmit store stands. -/
inductive HeldAt where
  | forming (reads : Nat)   -- source reads outstanding
  | again                   -- its shuttle was fenced: another one forms it again (R125)
  | packing                 -- a small message that waits for others to join it (R121)
  | waiting                 -- formed; waits for credit, store room and window room (R163)
  | port                    -- injected, and not yet transmitted
  | sent                    -- transmitted; its timer runs
  | backoff (until_ : Nat)  -- reflected; resent then (R176)
  | own                     -- for the own node: executed inside (R40)
  deriving DecidableEq, Repr

/-- One container of the retransmit store (R162, R176). -/
structure Held where
  id : Nat
  c : Container
  msgs : List SentMsg
  planes : Nat              -- plane mask (R123)
  plane : Nat               -- at the Ronpex 0, or 8 (port + 1) where it leaves by a given port
  direct : Bool
  small : Bool              -- a small message (R121)
  xtags : List Nat          -- address-space tags that its messages were translated under (R145)
  room : Bool               -- it has its space in the retransmit and reply-reservation store (R162)
  shuttle : Option Nat      -- the shuttle that formed it (R125)
  numbered : Bool           -- its messages have their SEQ (R163)
  loc : HeldAt
  formedAt : Nat
  first : Option Nat        -- first injection (R163)
  due : Nat                 -- when its retry timer expires
  tmo : Nat
  refls : Nat
  retryUs : Nat             -- limits it was sent under (R180)
  maxTmo : Nat
  lifeUs : Nat
  reserve : Nat             -- bytes reserved for the reply (R162)
  deriving DecidableEq, Repr

/-- One ordered stream of a source (R114, R163). -/
structure Stream where
  dest : Nat
  next : Nat
  deriving DecidableEq, Repr

/-- A source of weft containers (R160-R163, R176). -/
structure Source where
  /-- Next unordered SEQ by destination node, 32 bits (R163); 0 at reset. -/
  next : SMap Nat := []
  /-- Streams in use, by stream (R163); none at reset. -/
  streams : SMap Stream := []
  /-- Window that a destination grants, by node * 8 + plane; 0: the initial window (R160, R161). -/
  window : SMap Nat := []
  /-- Credits in use, by node * 8 + plane (R160); 0 at reset. -/
  used : SMap Nat := []
  /-- The retransmit store (R162), oldest first; empty at reset. -/
  held : List Held := []
  /-- Next container number of the model; 0 at reset. -/
  nextId : Nat := 0
  /-- Planes unreachable for a destination: node, plane, until when (R350); none at reset. -/
  unreach : List (Nat × Nat × Nat) := []
  deriving DecidableEq, Repr

/-- A receive record (R171). -/
structure RecvRec where
  base : Nat
  done : List Nat           -- SEQs from base on that are done
  prog : List Nat           -- SEQs in progress
  last : Nat                -- last arrival of a request
  deriving DecidableEq, Repr

/-- One request message at its destination: as it arrived, or as the own node formed it (R40). -/
structure Arrival where
  msg : Msg
  src : Nat
  plane : Nat               -- the port it came in on; its answer leaves there
  age : Nat
  skein : Nat
  epoch : Nat
  stream : Option Nat       -- of an ordered message
  entry : Option Nat        -- its receive-store entry (R170)
  own : Option (Nat × Nat)  -- own-node operation: held container and message (R40)
  dup : Bool                -- a duplicate READ that is read again (R173)
  deriving DecidableEq, Repr

/-- A resequencing context (R175). -/
structure Ctx where
  src : Nat
  stream : Nat
  base : Nat
  held : List Arrival
  busy : Bool               -- the message `base` is being committed
  last : Nat
  deriving DecidableEq, Repr

/-- An entry of the reply cache (R174). -/
structure CacheEnt where
  src : Nat
  stream : Option Nat
  seq : Nat
  old : List Byte
  failed : Bool
  at_ : Nat
  deriving DecidableEq, Repr

/-- One message that the destination is executing. -/
structure Job where
  id : Nat
  arr : Arrival
  started : Bool
  pcs : List (Nat × Nat × Nat)  -- attach address, offset in the message and length of each granted piece (R134)
  under : List (InExt × Nat × Nat)  -- extent, offset in the message and length of each granted piece (R146)
  lines : List Nat          -- 64-byte lines of attach memory that it touches (R59)
  left : Nat                -- attach accesses outstanding
  todo : List Nat           -- offsets in the message of the accesses that have not ended
  failed : Bool
  writing : Bool            -- an ATOMIC whose old value has been read
  buf : List Byte           -- bytes read
  deriving DecidableEq, Repr

/-- A reply that waits to be sent (R173). -/
structure Reply where
  dest : Nat
  plane : Nat
  skein : Nat
  age : Nat
  msg : Msg
  ord : Option Nat
  due : Nat                 -- until when it may be held
  deriving DecidableEq, Repr

/-- A destination of weft requests (R170-R175): the Plocen's, and that of the Ronpex's memory agent. -/
structure Dest where
  /-- Receive-store entries in use: number and messages left (R170); none at reset. -/
  store : List (Nat × Nat) := []
  /-- Oldest AGE refused since the memory was last cleared, 16 bits (R170); none at reset. -/
  refused : Option Nat := none
  /-- Receive records, by source node (R171); empty at reset. -/
  recs : SMap RecvRec := []
  /-- Resequencing contexts (R175); none at reset. -/
  ctxs : List Ctx := []
  /-- Reply cache (R174), oldest first; empty at reset. -/
  cache : List CacheEnt := []
  /-- Messages being executed, oldest first; none at reset. -/
  jobs : List Job := []
  /-- Replies waiting to be sent (R173); none at reset. -/
  replies : List Reply := []
  /-- Landing writes that wait for an atomic on their 64-byte line to end (R59), oldest first; none at reset. -/
  lineWait : List AttReq := []
  /-- Next number of a store entry or job; 0 at reset. -/
  nextId : Nat := 0
  deriving DecidableEq, Repr

/-- Landing of a reply in accelerator memory (R89). -/
structure Landing where
  id : Nat
  owner : Owner
  left : Nat                -- writes outstanding
  failed : Bool
  hank : Nat
  bytes : Nat
  deriving DecidableEq, Repr

/-- What waits at one Plocen port to be transmitted (R122, R164). -/
structure TxQ where
  /-- Replies and reflected requests, in any order; the oldest goes first (R164); none at reset. -/
  replies : List Container := []
  /-- Direct requests, oldest first: store number and container (R122); none at reset. -/
  direct : List (Nat × Container) := []
  /-- Other requests, oldest first (R122); none at reset. -/
  shuttle : List (Nat × Container) := []
  /-- Weft slots since the share of R122 began, 0-15; 0 at reset. -/
  turn : Nat := 0
  deriving DecidableEq, Repr

/-! ### Switch: crossbar and eddies (R156-R169) -/

/-- A weft container at an output of the Ronpex: a candidate, or in its eddy (R165, R166). -/
structure EddyEnt where
  c : Container
  ingress : Nat             -- ingress port, the last tie-break of R165
  since : Nat               -- fabric time at which it reached this output
  agent : Option Nat        -- the memory agent's receive-store entry that it answers (R252)
  deriving DecidableEq, Repr

/-! ### Warp plane of the Ronpex (R183-R219) -/

/-- What enters a spindle in one input slot (R199). -/
inductive Contrib where
  | data (c : WarpCell)
  | empty
  | missing
  deriving DecidableEq, Repr

/-- Where a cell inside the package is going (R190). -/
inductive FlightTo where
  | port (p : Nat)
  | input (n phase : Nat)       -- physical spindle
  | anchors (n : Nat)           -- anchor store of a physical spindle
  deriving DecidableEq, Repr

/-- A warp cell on its way through the package (R190). -/
structure Flight where
  due : Nat
  dst : FlightTo
  what : Contrib
  deriving DecidableEq, Repr

/-- One accumulation context of a spindle (R217, R218): an open result cell. -/
structure AccCtx where
  phase : Nat
  inputs : Nat              -- input slots of the group so far (R199)
  empties : Nat
  missing : Nat
  count : Nat               -- data contributions combined
  agree : Bool
  head : Option WarpCell    -- the first data contribution, without payload
  node : Nat                -- lowest NODE seen (R225)
  opdata : Nat
  lowRound : Nat
  kept : List (List Byte)   -- payloads combined so far, kept for TOPK (R225)
  elems : List Elem
  emitAt : Option Nat       -- fabric time of its first output cell (R190)
  status : Nat
  out : List WarpCell       -- output cells still to be emitted, with their index (R219)
  deriving DecidableEq, Repr

/-- A spindle (R217). -/
structure SpindleSt where
  /-- Accumulation contexts in use, at most four (R217); none at reset. -/
  ctxs : List AccCtx := []
  /-- The anchor store, 16 KiB, one code a block (R217, R233); zero at reset (DESIGN CHOICE 0, log 7). -/
  anchors : SMap Nat := []
  /-- SPD[n].ERR bits posted as an event in this frame, 4 bits (R246); 0 at reset. -/
  posted : Nat := 0
  deriving DecidableEq, Repr

/-- The tally of the latest round of a phase (R199, R203). -/
structure Tally where
  status : Nat
  inst : Nat
  round : Nat
  frame : Nat               -- the frame in which the round ran
  missed : List Nat         -- ports that some result cell of the round did not leave by
  ports : List Nat          -- ports that the round's result cells were sent to
  skein : Nat               -- the skein whose cells the phase carries; 0 before the first
  unknown : Bool            -- no header has given its instance and round yet
  deriving DecidableEq, Repr

/-- A switch order that waits for its EFFECTIVE (R207). -/
structure PendOrder where
  o : SwitchOrder
  own : Bool                -- issued by this part
  deriving DecidableEq, Repr

/-- The warp plane of the Ronpex. -/
structure Warp where
  /-- Slot and START frame of the GO that waits (R214); none at reset. -/
  go : Option (Nat × Nat) := none
  /-- A STOP waits for the next frame boundary (R214); false at reset. -/
  stop : Bool := false
  /-- The primary's slot: that of the last GO applied (R209, R214); 0 at reset. -/
  primary : Nat := 0
  /-- Switch orders applied, the last 64 (R351); none at reset. -/
  applied : List SwitchOrder := []
  /-- Switch orders received or issued, as they came, the last 64 (R207, R351); none at reset. -/
  seen : List SwitchOrder := []
  /-- Switch orders that this part issued itself, the last 64 (R351); none at reset. -/
  issued : List SwitchOrder := []
  /-- Draft slots whose image was accepted at its last commit, 8 bits (R192); 0 at reset. -/
  accepted : Nat := 0
  /-- Port units that were fenced when a draft slot was last committed, by slot (R347); none at reset. -/
  fencedAt : SMap (List Nat) := []
  /-- DRF.SPMAP in effect, by logical spindle (R191, R215); n mod 24 at reset. -/
  spmap : SMap Nat := []
  /-- DRF.PMAP in effect, by logical port (R191, R215); n at reset. -/
  pmap : SMap Nat := []
  /-- Switch orders that wait for EFFECTIVE (R207); none at reset. -/
  orders : List PendOrder := []
  /-- Ports whose warp entries are treated as IDLE until the next activation (R212); none at reset. -/
  idle : List Nat := []
  /-- Skeins that this plane carries no warp for (R208), 64 bits; 0 at reset. -/
  outSkeins : Nat := 0
  /-- Cells on their way through the package (R190); none at reset. -/
  flight : List Flight := []
  /-- Ports that a cell or container has entered in the present slot (R199); none at reset. -/
  heard : List Nat := []
  /-- Tally of the latest round, by phase (R199); none at reset. -/
  tallies : SMap Tally := []
  /-- Next instance number, by pattern, 16 bits (R198); 0 at activation. -/
  inst : SMap Nat := []
  /-- What each member last reported as held: pattern, node, instance, round (R204); none at reset. -/
  heldRounds : List (Nat × Nat × Nat × Nat) := []
  /-- Nodes whose UNROUTED discard was logged in this frame (R156); none at reset. -/
  logged : List Nat := []
  /-- Ports in a sky window: the photonic matrix's partner of each (R210); none at reset. -/
  sky : SMap Nat := []
  deriving DecidableEq, Repr

/-! ### Warp plane of the Plocen (R193-R209) -/

/-- A warp binding (R109). -/
structure Binding where
  id : Nat
  ring : Nat
  sub : Nat
  raw : Nat
  first : Nat
  last : Nat
  pattern : Nat
  inst : Option Nat         -- the instance it belongs to, once that has started
  landed : List (Nat × Nat × Nat × Nat)   -- phase, slice, round, cell landed with OK (R202)
  shadowed : List (Nat × Nat)   -- phase and round that used a shadow (R202)
  failed : Option Nat       -- fabric time of the slot whose cell could not be read (R202)
  landing : Nat             -- landings outstanding
  code : Option (Nat × Nat) -- code and INFO with which it ends, once that is decided
  deriving DecidableEq, Repr

/-- Contribution data read ahead for one cell (R194, R202). -/
structure CellData where
  bind : Nat
  phase : Nat
  round : Nat
  slice : Nat
  cell : Nat
  data : List Byte
  left : Nat                -- reads outstanding
  bad : Bool                -- a read of it failed (R202)
  deriving DecidableEq, Repr

/-- A pattern's instance at the Plocen (R198-R201). -/
structure Run where
  pattern : Nat
  inst : Nat
  start : Nat               -- frame in which its round 0 runs
  next : List (Nat × Nat × Nat)     -- plane, next round of its own slice, frame from which that may run
  orphans : List (Nat × Nat × Nat)  -- plane, slice, round: orphans dealt to a plane (R208)
  cur : List (Nat × Nat × Nat)      -- plane, slice, round that each plane runs in the present frame
  replay : List (Nat × Nat)         -- plane and lowest round that a REPLAY cell of this frame named
  checks : List (Nat × Nat)         -- plane and round whose CHECK emission came with OK (R211)
  history : List (Nat × Nat × Nat × Nat)  -- frame, plane, slice, round run in the last four frames (R208)
  dealt : List (Nat × Nat × Nat × Nat)    -- binding, plane, slice, round of every orphan dealt (R208)
  passed : List (Nat × Nat)         -- slice and round whose CHECK emission came with OK in this instance (R211)
  done : List Binding               -- bindings of the instance that have completed with OK (R201, R202)
  deriving DecidableEq, Repr

/-- A landing of a result cell (R202). -/
structure WarpLanding where
  id : Nat
  bind : Nat
  phase : Nat
  slice : Nat
  round : Nat
  cell : Nat
  bytes : Nat
  left : Nat
  failed : Bool
  deriving DecidableEq, Repr

/-- One direction of a sky run at a port of the Plocen (R335). -/
structure SkyRun where
  /-- XOR of the tags of the run's cells (R335). -/
  tag : BitVec 128 := 0
  /-- Cells of the run with a bad CRC (R211). -/
  bad : Nat := 0
  /-- Receipt: the run's tag cell agreed, and no cell had a bad CRC (R211, R335). -/
  good : Bool := false
  /-- Cells received under the sky key, 64 bits (R335). -/
  count : Nat := 0
  deriving DecidableEq, Repr

/-- The warp plane of the Plocen. -/
structure EpWarp where
  /-- Slot and WSTART frame of the GO that waits (R214); none at reset. -/
  go : Option (Nat × Nat) := none
  /-- A STOP waits for the next frame boundary (R214); false at reset. -/
  stop : Bool := false
  /-- The primary's slot (R209); 0 at reset. -/
  primary : Nat := 0
  /-- Switch orders that wait for EFFECTIVE (R207); none at reset. -/
  orders : List SwitchOrder := []
  /-- Orders already received, to be relayed once and applied once (R207, R351); none at reset. -/
  seenOrders : List SwitchOrder := []
  /-- Ports whose warp entries are treated as IDLE until the next activation (R209, R212); none at reset. -/
  idle : List Nat := []
  /-- Planes that have left the warp plane (R208); none at reset. -/
  out : List Nat := []
  /-- Bindings held, oldest first, at most 512 (R109); none at reset. -/
  binds : List Binding := []
  /-- Next binding or landing number; 0 at reset. -/
  nextId : Nat := 0
  /-- Instances running, at most one for each pattern (R198); none at reset. -/
  runs : List Run := []
  /-- Runs that are over, with the frame in which they ended, for three frames (R208); none at reset. -/
  past : List (Nat × Run) := []
  /-- Next instance number that a GO carries, by pattern, 16 bits (R198); 0 at activation. -/
  inst : SMap Nat := []
  /-- Last instance and round held complete, by pattern (R197); 0 at reset. -/
  complete : SMap (Nat × Nat) := []
  /-- Contribution data read ahead of its slot (R202); none at reset. -/
  cells : List CellData := []
  /-- Anchor store of 16 KiB per port: by port * 65536 + block (R233); 0 at reset (DESIGN CHOICE 0, log 7). -/
  anchors : SMap Nat := []
  /-- Landings of result cells outstanding; none at reset. -/
  landings : List WarpLanding := []
  /-- Sky runs received, by port (R211, R335); each as `SkyRun` at reset. -/
  skyRx : SMap SkyRun := []
  /-- Tag XOR of the sky run being sent, by port (R335); 0 at reset. -/
  skyTx : SMap (BitVec 128) := []
  /-- Phases that were late in round 0 of the running instance: pattern and phase (R110); none at reset. -/
  late : List (Nat × Nat) := []
  /-- Ports whose slot mismatch was logged in this frame (R153); none at reset. -/
  logged : List Nat := []
  deriving DecidableEq, Repr

/-! ### Fabric-resident memory (R247-R264) -/

/-- A sealed skein's reply that is held (R316). -/
structure SealedReply where
  at_ : Nat                 -- when it is sent
  c : Container
  entry : Nat
  deriving DecidableEq, Repr

/-- The memory agent and its memory, but for the bytes themselves. -/
structure Fmem where
  /-- Containers routed LOCAL and not yet taken by the agent, with their ingress port (R156); none at reset. -/
  inbox : List (Nat × Container) := []
  /-- The agent as a destination (R250): receive store of 8,192, records, contexts, reply cache; empty at reset. -/
  dest : Dest := {}
  /-- Switch-side counters, 16,384 of 64 bits (R258); 0 at reset. -/
  hcnt : SMap Nat := []
  /-- NEXT of each armed relay, 64 bits (R259); 0 at reset. -/
  next : SMap Nat := []
  /-- The skein that each region last served, plus one; 0: none (R255); 0 at reset. -/
  served : SMap Nat := []
  /-- Regions that wait to be zeroed, the first in progress (R255); none at reset. -/
  zeroing : List Nat := []
  /-- HBM accesses spent in this frame, by skein (R311); 0 at reset. -/
  spent : SMap Nat := []
  /-- HBM accesses of all kinds in this frame (R260); 0 at reset. -/
  total : Nat := 0
  /-- HBM accesses of shadow writes beyond a frame's capacity, by pattern, still to be made (R261); 0 at reset. -/
  shadowDue : SMap Nat := []
  /-- Patterns whose rounds wait in this frame for shadow writes that exceeded the capacity of the one before (R261); none at reset. -/
  shadowLate : List Nat := []
  /-- 64-byte lines of the first region that waits to be zeroed which are not yet zero (R255, R261); 0 at reset. -/
  zeroLeft : Nat := 0
  /-- 64-byte lines that hold cipher text, with the two keys under which they were written (R263); none at reset. -/
  cipher : SMap (BitVec 512) := []
  /-- Request messages that wait for budget, in arrival order (R261); none at reset. -/
  waiting : List Arrival := []
  /-- Receive-store entries in use: number, skein and arrival (R311, R316); none at reset. -/
  entries : List (Nat × Nat × Nat) := []
  /-- Oldest AGE refused since the memory was last cleared, by skein (R170, R311), 16 bits; none at reset. -/
  refused : SMap Nat := []
  /-- Replies of sealed skeins held for SEALLAT slots (R316); none at reset. -/
  sealedRep : List SealedReply := []
  /-- 32-byte bursts whose contents are uncorrectable (R262); none at reset. -/
  bad : List Nat := []
  /-- Times of uncorrectable errors in the last second, with their channel 0-127 (R262); none at reset. -/
  ues : List (Nat × Nat) := []
  /-- Stacks trained, 4 bits (R264 READY); 0 at reset. -/
  trained : Nat := 0
  deriving DecidableEq, Repr
/-! ### Optical links (R265-R299), keys (R329-R335) and time exchange (R380, R381), one per port of either part -/

/-- A message that a port sends on its LMC (R268, R330, R380). -/
inductive LmcMsg where
  | idle
  | ident (i : Identity)
  | pwr (b : Bool) (readings : List Int)        -- PWR_A, or PWR_B where `b`, with five LOCAL readings
  | tune (w request : Nat)
  | swapReq (lane reason frame : Nat)
  | swapAck (lane reason frame : Nat)
  | state (step : Nat)
  | sync (locked master : Bool) (depth time16 : Nat)
  | rxstamp (syncSeq time16 : Nat)
  | key (sub f : Nat) (data : List Byte)
  | stress (apply : Bool)
  deriving DecidableEq, Repr

/-- A lane swap that this port asked for as the receiver, or accepted as the transmitter (R288). -/
structure Swap where
  lane : Nat
  reason : Nat
  frame : Nat               -- F
  asked : Bool              -- this end is the receiver that asked
  acked : Bool
  deriving DecidableEq, Repr

/-- A revalidation in progress (R289). -/
structure Reval where
  since : Nat
  temp : Int                -- the conditions that are stamped
  cls : Bool
  retuned : Bool            -- the spare has been retuned in this turn of the loop
  todo : List Nat           -- data lanes not yet stamped
  corr : List Nat           -- corrected symbols by wavelength when the check began
  deriving DecidableEq, Repr

/-- The keys of both directions before a rekey, with their counters (R333). -/
structure OldKeys where
  tx : BitVec 288
  rx : BitVec 288
  txCnt : Nat
  rxCnt : Nat
  gen : Nat                 -- KEYGEN before the rekey
  since : Nat               -- when the rekey started
  fresh : BitVec 288 × BitVec 288   -- the new keys
  tried : Nat               -- blocks that failed under the new key and passed under the old
  deriving DecidableEq, Repr

/-- Keys of one link (R329-R334). -/
structure LinkKeys where
  /-- Transmit key and salt, 288 bits (R331); none at reset. -/
  tx : Option (BitVec 288) := none
  /-- Receive key and salt (R331); none at reset. -/
  rx : Option (BitVec 288) := none
  /-- New keys of a rekey, transmit and receive, until F' (R333); none at reset. -/
  fresh : Option (BitVec 288 × BitVec 288) := none
  /-- Transmit block counter, 64 bits (R329); 0 at reset. -/
  txCnt : Nat := 0
  /-- Receive block counter, 64 bits (R329); 0 at reset. -/
  rxCnt : Nat := 0
  /-- XOR of the tags of the blocks sent in the present frame (R332); 0 at reset. -/
  txTag : BitVec 128 := 0
  /-- XOR of the tags of the blocks received that were sent in the frame `rxFrame` (R332); 0 at reset. -/
  rxTag : BitVec 128 := 0
  /-- The frame whose blocks are being received (R212, R332); 0 at reset. -/
  rxFrame : Nat := 0
  /-- The time from which received slots hold blocks of the present training (R212, R329); 0 at reset. -/
  rxFrom : Nat := 0
  /-- The receive key that a rekey brings, and the time of the first slot that was sent under it (R212, R333); none at reset. -/
  rxNext : Option (BitVec 288 × Nat) := none
  /-- The keys before a rekey, at an end that acknowledged it, while its first 4 blocks are looked at (R333); none at reset. -/
  old : Option OldKeys := none
  /-- An agreement has failed: the cause with which the port goes DOWN once ABORT is sent (R330); none at reset. -/
  failed : Option Nat := none
  /-- The slot time of the last block received that is counted; none at reset. -/
  rxSlot : Option Nat := none
  /-- No codeword of the frame `rxFrame` was uncorrectable (R332); true at reset. -/
  rxClean : Bool := true
  /-- Received XORs of complete frames not yet compared: frame, XOR, whether checkable (R332); none at reset. -/
  rxDone : List (Nat × BitVec 128 × Bool) := []
  /-- Frames with a mismatch in the last 64 frames (R332); none at reset. -/
  bad : List Nat := []
  /-- Certificate chain, ephemeral key and signature received so far (R330); empty at reset. -/
  cert : List Byte := []
  /-- Ephemeral key received so far (R330); empty at reset. -/
  eph : List Byte := []
  /-- Signature received so far (R330); empty at reset. -/
  sig : List Byte := []
  /-- The number of the own ephemeral key of the agreement in progress (R330); none at reset. -/
  own : Option Nat := none
  /-- The own SIG of that agreement has been sent; false at reset. -/
  sigOut : Bool := false
  /-- The far end's part of an agreement has been accepted (R330); false at reset. -/
  accepted : Bool := false
  /-- Hash of the previous transcript (R330); empty at reset. -/
  prev : List Byte := []
  /-- When the rekey in progress started (R333); none at reset. -/
  rekeyAt : Option Nat := none
  /-- This end started the rekey (R333); false at reset. -/
  starter : Bool := false
  /-- SWITCH in force: generation, F', acknowledged (R333); none at reset. -/
  switch : Option (Nat × Nat × Bool) := none
  deriving DecidableEq, Repr

/-- One port's link. -/
structure Link where
  /-- Training step that this end has entered, 1-8 (R276); a port that is DOWN is at step 1 (R278); 0 otherwise. -/
  step : Nat := 0
  /-- Training step of the own receiver, as its last STATE said (R276); 0 at reset. -/
  rxStep : Nat := 0
  /-- An IDENT has been received in the present training (R276, R277); false at reset. -/
  identGot : Bool := false
  /-- The clock modulator is held at the mid level (R266, R348); false at reset. -/
  clockOff : Bool := false
  /-- When that step was entered (R276); 0 at reset. -/
  stepAt : Nat := 0
  /-- Training step of the far receiver, as its last STATE said (R276); 0 at reset. -/
  farStep : Nat := 0
  /-- When the clock's light was lost (R266); none at reset. -/
  darkAt : Option Nat := none
  /-- When the port went DOWN (R278); none at reset. -/
  downAt : Option Nat := none
  /-- SEQ of the next LMC message, 8 bits (R268); 0 at reset. -/
  lmcSeq : Nat := 0
  /-- When the last LMC message was sent (R268); none at reset. -/
  lmcAt : Option Nat := none
  /-- One-time messages waiting, oldest first (R268); none at reset. -/
  lmcQ : List LmcMsg := []
  /-- When IDENT was last sent (R268); none at reset. -/
  identAt : Option Nat := none
  /-- When PWR_A and PWR_B were last sent (R268); none at reset. -/
  pwrAt : Option Nat := none
  /-- Whether PWR_B is owed (R268); false at reset. -/
  pwrB : Bool := false
  /-- Consecutive LOCAL readings below Alarm, by wavelength (R285, R287); 0 at reset. -/
  low : SMap Nat := []
  /-- The swap asked for or accepted (R288); none at reset. -/
  swap : Option Swap := none
  /-- Revalidation in progress (R289); none at reset. -/
  reval : Option Reval := none
  /-- Activity class, HIGH true, held internally (R289); LOW at reset. -/
  cls : Bool := false
  /-- Measurements in a row that gave the other class (R289); 0 at reset. -/
  clsRun : Nat := 0
  /-- Slots with containers in each of the last 64 frames, newest first (R289); none at reset. -/
  busy : List Nat := []
  /-- Slots with containers in the present frame (R289); 0 at reset. -/
  busyNow : Nat := 0
  /-- Class stamp of each wavelength's calibration (R289, R299); LOW at reset. -/
  stamps : SMap Bool := []
  /-- The far end asks for 1.5 dB less on the spare (R289 STRESS); false at reset. -/
  stressed : Bool := false
  /-- Drive settings of each wavelength, changed by TUNE: amplitude, pre- and post-cursor, offset by 128 (R268). -/
  drive : SMap Nat := []
  /-- Fill codeword slots in a row (R281); 0 at reset. -/
  fillRun : Nat := 0
  /-- In LPI by R281, with the slots until it has left (R280); none at reset. -/
  weftLpi : Option Nat := none
  /-- The time at which data resumes after the exit burst, while the port leaves LPI or a sky window (R280, R298); none at reset. -/
  lpiExit : Option Nat := none
  /-- Where the codeword groups that the port sends began to follow one another (R272, R280); 0 at reset. -/
  groupAt : Nat := 0
  /-- The blocks of the codeword group in progress, as encrypted (R271, R272); none at reset. -/
  txGroup : List (List Byte) := []
  /-- Pattern generators: the register of a wavelength's PRBS13, and 16 on that of its PRBS31 (R282); the seeds at reset. -/
  gens : SMap Nat := []
  /-- Pattern checkers by wavelength (R282); empty at reset. -/
  checkers : SMap PrbsChecker := []
  /-- The slot modulo 8 in which the received codeword groups start (R272, R298); 0 at reset. -/
  align : Nat := 0
  /-- The alignment to the Ronpex, saved for a sky run (R298); none at reset. -/
  alignSaved : Option Nat := none
  /-- Slots whose container is discarded: an uncorrectable codeword touches it (R273); none at reset. -/
  lost : List Nat := []
  /-- The lanes whose codeword was uncorrectable at each of the last 4 places, newest first, as masks (R287); none at reset. -/
  laneFails : List Nat := []
  /-- Lanes of which four consecutive codewords were uncorrectable while the others decoded, 8 bits (R287); 0 at reset. -/
  laneDead : Nat := 0
  /-- Received slots of which it is not known yet whether they held a fill block, oldest first, each with whether the draft has it IDLE
  (R274, R279); none at reset. -/
  pend : List (Nat × Bool) := []
  /-- Where the codeword groups sent toward the Ronpex began, saved for a sky run (R298); none at reset. -/
  groupSaved : Option Nat := none
  /-- Consecutive groups with uncorrectable codewords on two or more lanes: the last one's start, and how many (R278); none at reset. -/
  badRun : Option (Nat × Nat) := none
  /-- Unmodulated light is received: decoding and counting are suspended (R279); false at reset. -/
  rxIdle : Bool := false
  /-- A revalidation was abandoned, and starts again once the swap is complete (R289); none at reset. -/
  again : Option (Bool × Int) := none
  /-- The start of the sky run that SKYPWR shows (R298); none at reset. -/
  skyRun : Option Nat := none
  /-- Keys (R329-R334). -/
  keys : LinkKeys := {}
  /-- LMC SEQ and TIME of the last SYNC sent (R380); none at reset. -/
  syncSent : Option (Nat × Nat) := none
  /-- TIME and arrival of the last SYNC received, with its SEQ (R380); none at reset. -/
  syncGot : Option (Nat × Nat × Nat) := none
  /-- When SYNC was last sent (R380); none at reset. -/
  syncAt : Option Nat := none
  /-- LOCKED, MASTER and DEPTH of the last SYNC received (R380); none at reset. -/
  farTime : Option (Bool × Bool × Nat) := none
  /-- When an exchange with this port's far end was last complete (R382); none at reset. -/
  exchAt : Option Nat := none
  /-- The delay in and out, in slots, that the exchanges of a training have measured (R212, R380); none at reset. -/
  measured : Option (Nat × Nat) := none
  /-- Consecutive measurements that differ from the link delay (R212); 0 at reset. -/
  delayBad : Nat := 0
  /-- Measured delay in, slots (R212); 0 at reset. -/
  delayIn : Nat := 0
  /-- Measured delay out, slots (R212); 0 at reset. -/
  delayOut : Nat := 0
  /-- Slot mismatch and QUIESCENT or CHECK discards logged in this frame (R153, R303, R304); none at reset. -/
  loggedNow : List Nat := []
  /-- Request containers counted for the transmit frame `reqFrame` (R308); 0 at reset. -/
  reqs : Nat := 0
  /-- The frame in which the containers that `reqs` counts were transmitted (R308); 0 at reset. -/
  reqFrame : Nat := 0
  deriving DecidableEq, Repr
/-! ### Skeins, budgets and tenant records (R302-R321) -/

/-- A skein command that waits for its frame boundary (R303). -/
structure SkeinCmd where
  op : Nat                  -- 1 CLAIM, 2 ACTIVATE, 3 QUIESCE, 4 RELEASE
  skein : Nat
  effect : Nat              -- fabric time of the boundary at which it takes effect
  template : Option Nat     -- template of the SKEIN command (R388)
  deriving DecidableEq, Repr

/-- Skeins and budgets of the Ronpex. -/
structure Skeins where
  /-- The command that waits (R303; SKN.STAT.BUSY); none at reset. -/
  cmd : Option SkeinCmd := none
  /-- Budget registers in effect since the last frame boundary, by 4k + word: WEFT, SPIN, HBM, AUX (R307, R312);
  an unlisted one is at its reset value. -/
  loaded : SMap Nat := []
  /-- SLOTS that ports are policed against, by skein, 13 bits (R312); an unlisted one is 4,096. -/
  police : SMap Nat := []
  /-- Scaled SLOTS of the last assignment, by skein, 13 bits (R304, R312); an unlisted one is 4,096. -/
  scaled : SMap Nat := []
  /-- Scaled SLOTS one frame boundary before those of `scaled`, by skein, 13 bits (R312); an unlisted one is 4,096. -/
  scaledOld : SMap Nat := []
  /-- Cells that have entered spindles in this frame, by skein (R310); 0 at reset. -/
  spin : SMap Nat := []
  /-- Skeins whose spindle-budget discard has been posted in this frame (R310); none at reset. -/
  spinPosted : List Nat := []
  /-- Management accesses of skein origin in this frame, by skein (R394); 0 at reset. -/
  mgmt : SMap Nat := []
  /-- Tenant records of SCOPE 1 and 2 that wait, with their release time (R318); none at reset. -/
  records : List (Nat × Event) := []
  deriving DecidableEq, Repr

/-! ### Security and firmware of either part (R322-R344, R404-R406) -/

/-- One SPDM session (R324). -/
structure Session where
  id : Nat
  finished : Bool           -- FINISH has been accepted: secured requests may be made
  updates : Nat             -- KEY_UPDATEs made
  deriving DecidableEq, Repr

/-- An SPDM request held while layer 1 restarts (R327). -/
structure HeldReq where
  code : Nat                -- SPDM request code
  session : Option Nat
  slot : Nat
  req : List Byte
  deriving DecidableEq, Repr

/-- Security controller and firmware slots of one part. -/
structure Security where
  /-- SPDM negotiation: 0 none, 1 version, 2 capabilities, 3 algorithms (R324); 0 at reset. -/
  neg : Nat := 0
  /-- The SPDM requests answered since GET_VERSION, oldest first: code and bytes, the transcript that signed responses cover (R324, R327);
  none at reset. -/
  msgs : List (Nat × List Byte) := []
  /-- SPDM responses sent; 0 at reset. -/
  answered : Nat := 0
  /-- Sessions, at most four (R324); none at reset. -/
  sessions : List Session := []
  /-- Next session number; 0 at reset. -/
  nextSession : Nat := 0
  /-- Requests held over a restart of layer 1, oldest first (R327); none at reset. -/
  held : List HeldReq := []
  /-- When layer 1 began to restart (R327); none at reset. -/
  restartAt : Option Nat := none
  /-- The restart activates a staged image (R406); false at reset. -/
  activating : Bool := false
  /-- Layer 1 has restarted since the last measurement response (R326 index 5); false at reset. -/
  restarted : Bool := false
  /-- Active slot, false A (R328); A at reset. -/
  slotB : Bool := false
  /-- Firmware state 0 stable, 1 staged, 2 activating (R328); 0 at reset. -/
  fw : Nat := 0
  /-- Slot A's bytes as written since manufacture, 32 MiB (R404); unlisted bytes read 0 (log 5). -/
  slotDataA : SMap Byte := []
  /-- Slot B's bytes as written since manufacture, 32 MiB (R404); unlisted bytes read 0 (log 5). -/
  slotDataB : SMap Byte := []
  /-- Slots that still hold the image of manufacture, A then B (R326); both hold it (log 5). -/
  factory : Bool × Bool := (true, true)
  /-- FMEM keys, by skein (R336); none at reset. -/
  fkeys : List (Nat × BitVec 512) := []
  /-- Model key of a Plocen (R336); none at reset. -/
  model : Option (BitVec 512) := none
  /-- Sky key of a Plocen (R336); none at reset. -/
  sky : Option (BitVec 512) := none
  /-- Sky cells sent on each plane under the sky key, 64 bits (R335); 0 at reset. -/
  skyCnt : SMap Nat := []
  /-- Ports that have reached the last count of the sky key and have not gone DOWN yet (R334, R335); none at reset. -/
  skyOver : List Nat := []
  deriving DecidableEq, Repr

/-! ### Units, faults and reports (R345-R365, R419) -/

/-- Units of the Ronpex beside their registers. -/
structure Units where
  /-- Quarantine step of a spindle or channel controller, by unit index (R352, R420); 0 at reset. -/
  qstep : SMap Nat := []
  /-- CAUSE of a unit that has no register for it, by unit index (R420); 0 at reset. -/
  cause : SMap Nat := []
  /-- When the present quarantine step was entered, by unit index (R352); 0 at reset. -/
  since : SMap Nat := []
  /-- Uncorrectable codewords and frame-tag mismatches of a port when step 4 of its quarantine began (R352); 0 at reset. -/
  qbase : SMap Nat := []
  /-- Failures of step 1 in a row, by unit index (R399); 0 at reset. -/
  fails : SMap Nat := []
  /-- Regions in reset, with the time at which it began (R345); none at reset. -/
  regions : List (Nat × Nat) := []
  /-- Dies in reset, with the time at which it began (R345); none at reset. -/
  dies : List (Nat × Nat) := []
  /-- Core dies that are powered and awake, 4 bits (R373, R447); 0 at reset. -/
  awake : Nat := 0
  /-- Units whose return to service a bit of PST.FENCE has stopped (R399); none at reset. -/
  heldBack : List Nat := []
  /-- Dies whose channel controllers have not returned since their reset or their loss of power, 4 bits (R345, R352); all at reset. -/
  channels : Nat := 15
  /-- UNIT_STATE last posted, by unit index, plus one (R420); 0: the state at reset, 3. -/
  shown : SMap Nat := []
  deriving DecidableEq, Repr

/-- A report window of a Plocen (R359). -/
structure RepWin where
  r : Report                -- the latest report withheld, or the one sent
  since : Nat
  withheld : Nat
  deriving DecidableEq, Repr

/-- An entry of the report filter (R360). -/
structure RepEnt where
  type : Nat
  target : Nat
  since : Nat
  count : Nat
  deriving DecidableEq, Repr

/-- The report filter of the Ronpex (R360). -/
structure RepFilter where
  /-- Entries, oldest first, at most 1,024; none at reset. -/
  ents : List RepEnt := []
  /-- Reports counted as overflow and not yet posted (R360); 0 at reset. -/
  ovf : Nat := 0
  /-- When an overflow event was last posted (R360); none at reset. -/
  ovfAt : Option Nat := none
  deriving DecidableEq, Repr

/-- Pending epoch and snapshot orders of one part, and the captured image (R355, R363). -/
structure Orders where
  /-- The epoch order that waits: E' and the fabric time of EFFECTIVE (R355); none at reset. -/
  epoch : Option (Nat × Nat) := none
  /-- T, NUMBER and skein mask of the snapshot order that waits (R363); none at reset. -/
  snap : Option (Nat × Nat × BitVec 64) := none
  /-- The captured image, by counter, 64 bits (R363); 0 at reset. -/
  image : SMap Nat := []
  /-- When that image was captured (R363); none at reset. -/
  imageAt : Option Nat := none
  deriving DecidableEq, Repr

/-! ### Power, thermal, wake and pins (R366-R376, R428-R430) -/

/-- Power and thermal control of the Ronpex. -/
structure Power where
  /-- The last 61 frames' power of the six activities, newest first, W (R367); none at reset. -/
  hist : List (List Nat) := []
  /-- Frames in a row with over below 0.95 (R368); 0 at reset. -/
  calm : Nat := 0
  /-- Frames in a row with the spindles over their cap (R368); 0 at reset. -/
  spinOver : Nat := 0
  /-- Frames in a row with the optics below 0.95 of their cap (R368); 0 at reset. -/
  optCalm : Nat := 0
  /-- WEFT_LPI set by the controller on every port (R368); false at reset. -/
  optLpi : Bool := false
  /-- Frames in a row with the hub below 0.95 of its cap (R368); 0 at reset. -/
  hubCalm : Nat := 0
  /-- Every MGMT budget is halved (R368); false at reset. -/
  hubHalf : Bool := false
  /-- The average of activity 5 is over its cap, which has been posted (R367); false at reset. -/
  otherOver : Bool := false
  /-- PWRALERT_N asserted (R369); false at reset. -/
  alert : Bool := false
  /-- When PWRALERT_N was last deasserted while its alternate held (R369); none at reset. -/
  alertOff : Option Nat := none
  /-- Weft HBM accesses are held until the POWER alternate takes effect (R369); false at reset. -/
  hbmHeld : Bool := false
  /-- Sensor readings of the last frame, 32, die * 8 + sensor, 0.1 degrees (R370); none at reset. -/
  sensors : List Int := []
  /-- Since when each THERM_STEP's clearing condition has held: steps 1-3 (R371); none at reset. -/
  cool : List (Nat × Nat) := []
  /-- When step 3 last fenced a region of each die (R371); none at reset. -/
  fencedAt : List (Nat × Nat) := []
  /-- Since when each die has stayed below 97 degrees (R371); none at reset. -/
  dieCool : List (Nat × Nat) := []
  /-- The package has tripped and not returned through a power cycle (R372, R429); false at reset. -/
  tripped : Bool := false
  /-- When the latch of THERMTRIP_N clears: every power good has been deasserted for 10 ms (R429); 0 at reset. -/
  tripClear : Nat := 0
  /-- t0 of the staged wake in progress (R373); none at reset. -/
  t0 : Option Nat := none
  /-- Wake token held, with the time since when (R374, R396); none at reset. -/
  token : Option (Nat × Nat) := none
  /-- Dies still to be enabled in this wake; none at reset. -/
  ramp : List Nat := []
  /-- A wake interrupted by PWRALERT_N resumes 100 ms after its deassertion (R430); false at reset. -/
  wakeHeld : Bool := false
  /-- CORE_EN[d], 4 bits (R428); 0 at reset (R447). -/
  coreEn : Nat := 0
  /-- HBM_EN[d], 4 bits (R428); 0 at reset (R447). -/
  hbmEn : Nat := 0
  /-- CORE_PG[d] as seen, 4 bits (R428); 0 at reset. -/
  corePg : Nat := 0
  /-- HBM_PG[d] as seen, 4 bits (R425, R428); 0 at reset. -/
  hbmPg : Nat := 0
  /-- AUX_PG as seen (R425, R428); false at reset. -/
  auxPg : Bool := false
  /-- When each CORE_EN was asserted (R428); none at reset. -/
  enAt : SMap Nat := []
  /-- PKG_READY (R434, R447); false at reset. -/
  ready : Bool := false
  /-- PKG_RESET_N asserted (R447); true at reset. -/
  inReset : Bool := true
  /-- The reset in force began with a loss of power (R375, R410 CYCLES, R429); true at reset. -/
  powerUp : Bool := true
  /-- The supply monitor has tripped: the hub accepts no write (R375, R398); false at reset. -/
  supplyLost : Bool := false
  /-- Capacitor voltage, mV, 16 bits (R383); 0 at reset. -/
  volt : Nat := 0
  deriving DecidableEq, Repr

/-! ### Fabric time of one part (R379-R383) -/

/-- Fabric time beside the TIM registers. -/
structure TimeSt where
  /-- LOCKED (R381); false at reset. -/
  locked : Bool := false
  /-- LOCKED at some time since the last reset (R382); false at reset. -/
  everLocked : Bool := false
  /-- Consecutive exchanges with the offset within 0.5 ns (R381); 0 at reset. -/
  good : Nat := 0
  /-- Consecutive exchanges with the offset beyond 2 ns (R381); 0 at reset. -/
  bad : Nat := 0
  /-- Holding over since (R382); none at reset. -/
  holdover : Option Nat := none
  /-- Source: 0 parent, 1 alternate, 2 master, 3 none (R383); 3 at reset. -/
  source : Nat := 3
  /-- Port that time is taken from (R379); none at reset. -/
  parent : Option Nat := none
  /-- Hops from the master, 4 bits (R383); 0 at reset. -/
  depth : Nat := 0
  /-- When the last exchange with the parent was complete (R382); none at reset. -/
  exchAt : Option Nat := none
  /-- Last offset, signed, 1/16 ns (R383); 0 at reset. -/
  theta : Int := 0
  /-- Delay to the parent, 1/16 ns (R383); 0 at reset. -/
  delay : Nat := 0
  /-- The time that TIM.SET sets at the next frame boundary (R379); none at reset. -/
  set : Option Nat := none
  /-- What TIM.NOW counts from (R383): the model's clock at the last reset, until the part takes fabric time again; 0 at reset. -/
  base : Nat := 0
  /-- The model's clock at the last reset of the part (R382); 0 at reset. -/
  resetAt : Nat := 0
  deriving DecidableEq, Repr

/-! ### Management (R384-R403) -/

/-- What the running command waits for (R387, R388). -/
inductive CmdWait where
  | none
  | skein                   -- SKN.STAT.BUSY clears
  | reset (die : Bool) (n : Nat)
  | epoch (effective : Nat)
  | sent (held : List Nat) (lost : Bool)   -- the containers of a SEND; one has ended unanswered
  | activate                -- layer 1 restarts
  | budget (c : Command)    -- a TENANT access waits for the next frame
  deriving DecidableEq, Repr

/-- The command that executes (R387). -/
structure Running where
  tag : Nat
  count : Nat               -- its ring count
  wait : CmdWait
  deriving DecidableEq, Repr

/-- Management rings and log of the Ronpex. -/
structure MgmtRings where
  /-- CMD_TAIL, 32 bits (R386); 0 at reset. -/
  cmdTail : Nat := 0
  /-- CMD_HEAD, 32 bits (R386); 0 at reset. -/
  cmdHead : Nat := 0
  /-- EVT_TAIL, 32 bits (R386); 0 at reset. -/
  evtTail : Nat := 0
  /-- EVT_HEAD, 32 bits (R386); 0 at reset. -/
  evtHead : Nat := 0
  /-- LOG_TAIL, 32 bits (R386); 0 at reset. -/
  logTail : Nat := 0
  /-- LOG_HEAD, 32 bits (R386); 0 at reset. -/
  logHead : Nat := 0
  /-- The command that executes (R387); none at reset. -/
  running : Option Running := none
  /-- A command that a hub reset interrupted: it completes with ABORTED (R387); none at reset. -/
  aborted : Option Running := none
  /-- Events held while layer 1 restarts, at most 4,096 (R406); none at reset. -/
  held : List Event := []
  deriving DecidableEq, Repr

/-- The change log of one part (R400-R403). -/
structure Log where
  /-- Entries in the ring, oldest first: at most 262,144 in the Ronpex, 4,096 in the Plocen (R400, R403); none at
  reset. -/
  ents : List LogEntry := []
  /-- Entries made since power-up, 64 bits (R409); 0 at reset. -/
  count : Nat := 0
  /-- Entries of the ring not yet streamed (R402), 19 bits; 0 at reset. -/
  pend : Nat := 0
  /-- Entries lost since the last one streamed (R402); 0 at reset. -/
  lost : Nat := 0
  /-- H, 48 bytes, of the newest entry (R401); H_0 follows at the first entry. -/
  h : Option (BitVec 384) := none
  /-- Save area: H, entries newest first (R397, R375); none valid at reset (DESIGN CHOICE, log 6). -/
  saved : Option (Option (BitVec 384) × List LogEntry) := none
  /-- Entries saved when the first measure called the capacitor empty, with the loss of capacitance seen (R376). -/
  capLoss : Option Nat := none
  /-- Copies sent to the Ronpex, by time, in the last 100 us (R403); none at reset. -/
  copies : List Nat := []
  deriving DecidableEq, Repr

/-- The persistent settings store (R397-R399, R410). -/
structure Pst where
  /-- Words by configuration address, 32 bits each; "Kept": 0 before the first write (DESIGN CHOICE 0, log 6), except
  PST.HOLDUP, 4,096 at manufacture. -/
  words : SMap Word := []
  /-- Writes to each word, by word index, 17 bits (R399, R410); 0 at manufacture (log 6). -/
  wear : SMap Nat := []
  /-- RWP writes in the queue, oldest first: address and value, at most 64 (R398); none at reset. -/
  queue : List (Nat × Word) := []
  deriving DecidableEq, Repr

/-- The tray chain of the Ronpex (R395, R396). -/
structure Tray where
  /-- Links of ports 0 and 1 up (R408); down at reset. -/
  link : Bool × Bool := (false, false)
  /-- Own frame count, 16 bits (R395); 0 at reset. -/
  fseq : Nat := 0
  /-- Frames seen: SRC, FSEQ and when (R396); none at reset. -/
  seen : List (Nat × Nat × Nat) := []
  /-- When the chain master last saw each token (R396); 0 at reset. -/
  tokenAt : SMap Nat := []
  /-- The tokens that the chain master has created and not withdrawn (R374); none at reset. -/
  tokens : List Nat := []
  deriving DecidableEq, Repr

/-! ### Lasers and analysis (R178, R290-R296) -/

/-- A register access of a laser module in progress (R294). -/
structure LasReq where
  write : Bool
  addr : Nat
  data : Word
  seq : Nat
  sentAt : Nat
  tries : Nat               -- sent so far; 0 while it waits for an earlier one
  user : Bool               -- made by a write of LAS[m].ACCESS
  deriving DecidableEq, Repr

/-- Laser supply of the Ronpex. -/
structure Lasers where
  /-- Accesses in progress, by module (R294); none at reset. -/
  reqs : List (Nat × LasReq) := []
  /-- Next SEQ of each module's interface, 8 bits (R294); 0 at reset. -/
  seq : SMap Nat := []
  /-- Modules whose JL.STAT is read by the hub itself after an alert (R293); none at reset. -/
  alert : List Nat := []
  /-- Reference power of each feed: engine * 32 + wavelength * 2, and 1 for the standby (R292); none at reset. -/
  refs : SMap Int := []
  /-- Since when each feed has been within 1 dB of its reference (R292); none at reset. -/
  steady : SMap Nat := []
  /-- Commanded reverts that wait for a changeover, engine * 16 + wavelength (R292, R299); none at reset. -/
  wanted : List Nat := []
  /-- What the hub has last seen of each JL.EMIT: module * 16 + wavelength (R295); none at reset. -/
  emits : SMap Nat := []
  /-- What the hub knows of each JL.BIAS (R295); none at reset. -/
  biases : SMap Nat := []
  /-- What the hub knows of each JL.BIASMAX (R295); none at reset. -/
  limits : SMap Nat := []
  /-- Changeovers that the hub follows, with when they began (R293); none at reset. -/
  follow : SMap Nat := []
  /-- When bias was last evaluated, by module (R286); 0 at reset. -/
  evalAt : SMap Nat := []
  deriving DecidableEq, Repr

/-! ### Test access ports (R341, R436, R444) -/

/-- The TAP of a part. -/
structure Tap where
  /-- The instruction register, 8 bits (R436); IDCODE after Test-Logic-Reset. -/
  ir : Nat := 0x02
  /-- The boundary register, 72 cells (R436); 0 at reset (DESIGN CHOICE 0, log 150). -/
  boundary : BitVec 72 := 0
  deriving DecidableEq, Repr

/-! ### What leaves the two parts -/

/-- What a part sends outside. -/
inductive Out where
  | attach (t : Txn)                                  -- a transaction of the Plocen (R77)
  | flit (f : Flit)                                   -- a flit of the Plocen: data, control or idle (R69, R72)
  | attachRetrain                                     -- the link retrains (R71)
  | block (part : Part) (port : Nat) (b : Block)      -- what a slot of a port carries (R23)
  | analysis (c : Container)                          -- copy sent by the analysis port (R178)
  | lmc (part : Part) (port : Nat) (seq : Nat) (m : LmcMsg) (cells : List Bool)   -- an LMC message, and its half-cells (R267, R268)
  | line (part : Part) (port w : Nat) (levels : List Nat)     -- UI levels on a modulated wavelength (R270-R272, R282)
  | tray (port : Nat) (f : TrayFrame) (bytes : List Byte) (lanes : List (List (BitVec 66)))   -- a tray-chain frame, its bytes and what its lanes carry (R395)
  | las (m : Nat) (wire : List Bool)                  -- a request frame to a laser module, on its line (R294)
  | event (addr : Nat) (e : Event) (entry : List Byte)    -- an event written to the event ring, and its 32 bytes (R389)
  | logEntry (addr : Nat) (e : LogEntry) (entry : List Byte)  -- a log entry written to the log ring, and its 32 bytes (R400, R402)
  | msix (vector : Nat)                               -- an MSI-X message (R384)
  | dmaWrite (addr : Nat) (data : List Byte)          -- the data of a TENANT read (R388)
  | cmdFetch (count : Nat)                            -- a fetch of a command entry (R387)
  | spdm (part : Part) (code : Nat) (body : List Byte) (words : List (BitVec 64))  -- an SPDM response, and the words that carry it (R324, R325)
  | ibi                                               -- an I3C in-band interrupt (R384)
  | refusedAccess (origin : Nat)                      -- PCIe Unsupported Request (ORIGIN 0) or an I3C NACK (1) (R385)
  deriving DecidableEq, Repr

/-- Why the machine would stop. No rule of the manual stops the machine: a command that meets no condition leaves the
state as it is, so this type has no constructor and no command faults. -/
inductive Fault where
  deriving DecidableEq, Repr

/-- Why a command has no meaning. -/
inductive Refusal where
  /-- The command has no meaning yet; raised by the arms of `exec` that are not written. Safe: the run stops. -/
  | notModelled (mnemonic : String)
  deriving DecidableEq, Repr

/-! ### The parts -/

/-- The Ronpex. -/
structure Ronpex where
  /-- Registers of the configuration space, draft stores included, by address (R411, R412); RegTable resets. -/
  regs : SMap Word := []
  /-- Containers that may leave each output, by port (R165); none at reset. -/
  cand : SMap (List EddyEnt) := []
  /-- Containers of the Ronpex itself, and those that come back to it, which reach it in the next slot (R156, R167), oldest first; none
  at reset. -/
  home : List Container := []
  /-- Copies that wait for the analysis port, oldest first (R178); none at reset. -/
  ana : List Container := []
  /-- Eddy of each output, at most 32 (R166); empty at reset. -/
  eddy : SMap (List EddyEnt) := []
  /-- The warp plane (R183-R219). -/
  warp : Warp := {}
  /-- Spindles, by physical number 0-95 (R217); each as `SpindleSt` at reset. -/
  spindles : SMap SpindleSt := []
  /-- The memory agent (R247-R264). -/
  fmem : Fmem := {}
  /-- The Ronpex as a source of MGMT and relay containers (R259, R392); empty at reset. -/
  src : Source := {}
  /-- Links of the 192 ports (R265-R299, R329-R334); each as `Link` at reset. -/
  links : SMap Link := []
  /-- Lasers (R290-R296). -/
  lasers : Lasers := {}
  /-- Skeins and budgets (R302-R321). -/
  skeins : Skeins := {}
  /-- Security controller (R322-R344). -/
  sec : Security := {}
  /-- Units (R345-R365). -/
  units : Units := {}
  /-- Report filter (R360). -/
  filter : RepFilter := {}
  /-- Epoch and snapshot orders (R355, R363). -/
  orders : Orders := {}
  /-- Power (R366-R376). -/
  power : Power := {}
  /-- Fabric time (R379-R383). -/
  time : TimeSt := {}
  /-- Management rings (R386-R391). -/
  mgmt : MgmtRings := {}
  /-- Change log (R400-R402). -/
  log : Log := {}
  /-- Persistent settings (R397-R399). -/
  pst : Pst := {}
  /-- Tray chain (R395, R396). -/
  tray : Tray := {}
  /-- Test access port (R436). -/
  tap : Tap := {}
  deriving DecidableEq, Repr

/-- The Plocen. -/
structure Plocen where
  /-- Registers of the register window, slot tables included, by address (R413); RegTable resets. -/
  regs : SMap Word := []
  /-- Hank counters, 65,536 of 64 bits (R44, R53); 0 at reset. -/
  hanks : SMap Nat := []
  /-- The attach link (R66-R92). -/
  att : Attach := {}
  /-- Rings 0-1,023 (R94-R103); each as `Ring` at reset. -/
  rings : SMap Ring := []
  /-- Started descriptors, oldest first (R118), at most 65,536; none at reset. -/
  acts : List Act := []
  /-- The gate pool, at most 8,192 (R113); empty at reset. -/
  gates : List Parked := []
  /-- Shuttles 0-15 (R118, R125); each as `Shuttle` at reset. -/
  shuttles : SMap Shuttle := []
  /-- last[0] and last[1] of the scheduler (R120), plus one; 0: none yet, so that ring 0 comes first; 0 at reset. -/
  drr : Nat × Nat := (0, 0)
  /-- Direct loads accepted and not completed (R85); none at reset. -/
  loads : List Load := []
  /-- Direct stores accepted and not committed (R53); none at reset. -/
  stores : List Store := []
  /-- Reads of EP_HNK.FENCE that wait (R53); none at reset. -/
  fences : List FenceRd := []
  /-- Next number of the model for stores, landings and acts; 0 at reset. -/
  nextId : Nat := 0
  /-- Extent translation (R129-R148). -/
  xlt : Xlt := {}
  /-- Source of weft (R160-R163, R176). -/
  src : Source := {}
  /-- Destination of weft (R170-R175). -/
  dest : Dest := {}
  /-- Landings of replies (R89); none at reset. -/
  lands : List Landing := []
  /-- What waits at each port (R122, R164); empty at reset. -/
  tx : SMap TxQ := []
  /-- Request containers transmitted in this frame, by port (R308); 0 at reset. -/
  paced : SMap Nat := []
  /-- The warp plane (R193-R209). -/
  warp : EpWarp := {}
  /-- Links of the 8 ports (R265-R301, R329-R334); each as `Link` at reset. -/
  links : SMap Link := []
  /-- Ports released into service, with the generation of the port unit (R354); none at reset. -/
  released : List (Nat × Nat) := []
  /-- Security controller (R322-R344). -/
  sec : Security := {}
  /-- Report windows (R359); none at reset. -/
  reps : List RepWin := []
  /-- Times of the reports sent in the last 100 us (R359); none at reset. -/
  repTimes : List Nat := []
  /-- Epoch and snapshot orders (R355, R363). -/
  orders : Orders := {}
  /-- Fabric time (R379-R382). -/
  time : TimeSt := {}
  /-- Change log (R403). -/
  log : Log := {}
  /-- EP_THERMTRIP_N asserted (R444); false at reset. -/
  tripped : Bool := false
  /-- When bias was last evaluated (R286, R296); 0 at reset. -/
  evalAt : Nat := 0
  /-- Test access port (R436, R444). -/
  tap : Tap := {}
  deriving DecidableEq, Repr

/-- The whole machine: one Ronpex and one Plocen. -/
structure State where
  /-- Fabric time, ns, 64 bits (R18, R54); 0 at reset. -/
  now : Nat
  /-- How many free values have been used: the model's own field (DESIGN CHOICE 0, log 1). -/
  free : Nat
  /-- Commands waiting, first in first out: the model's queue; empty at reset. -/
  pending : List Instr
  /-- What has been sent outside, newest first: the model's own record; empty at reset. -/
  out : List Out
  /-- Fabric-resident memory of the Ronpex, 192 GiB, by byte offset (R247): an unlisted byte reads 0 (DESIGN CHOICE
  0, log 2). -/
  hbm : SMap Byte
  /-- The Ronpex. -/
  rp : Ronpex
  /-- The Plocen. -/
  ep : Plocen
  deriving DecidableEq, Repr

/-- The machine right after reset: PKG_RESET_N and EP_RESET_N have just been asserted with everything else as the
manual states for reset, and what it leaves open as the log names. -/
def State.reset : State :=
  { now := 0, free := 0, pending := [], out := [], hbm := [], rp := {}, ep := {} }

end Sys2Proof.Machine
end

