-- ==== Sys2Proof/Machine/Ops.lean ====
section
/-! DEFINITION. The operations that every family shares: registers and their fields (R12-R16), fabric-resident memory,
free values, what is sent outside, the change log (R400, R401, R455), events and tenant records (R318, R389-R391), the
persistent store (R398, R399) and the state of units (R419, R420). -/

namespace Sys2Proof.Machine

open Sys2Proof

/-! ### Registers -/

/-- What an unlisted register of the Ronpex reads as: its reset value. -/
def rpDefault (a : Nat) : Word := BitVec.ofNat 32 (rpReset a)

/-- What an unlisted register of the Plocen reads as: its reset value. -/
def epDefault (a : Nat) : Word := BitVec.ofNat 32 (epReset a)

/-- The stored value of a register of the Ronpex. -/
def Ronpex.reg (r : Ronpex) (a : Nat) : Nat := (SMap.look rpDefault r.regs a).toNat

/-- `r` with a register set. -/
def Ronpex.setReg (r : Ronpex) (a v : Nat) : Ronpex :=
  { r with regs := SMap.put rpDefault r.regs a (BitVec.ofNat 32 v) }

/-- The stored value of a register of the Plocen. -/
def Plocen.reg (p : Plocen) (a : Nat) : Nat := (SMap.look epDefault p.regs a).toNat

/-- `p` with a register set. -/
def Plocen.setReg (p : Plocen) (a v : Nat) : Plocen :=
  { p with regs := SMap.put epDefault p.regs a (BitVec.ofNat 32 v) }

/-- The stored value of a register of a part. -/
def State.reg (s : State) (p : Part) (a : Nat) : Nat :=
  match p with
  | .ronpex => s.rp.reg a
  | .plocen => s.ep.reg a

/-- `s` with a register of a part set. -/
def State.setReg (s : State) (p : Part) (a v : Nat) : State :=
  match p with
  | .ronpex => { s with rp := s.rp.setReg a v }
  | .plocen => { s with ep := s.ep.setReg a v }

/-- A field of a register: `len` bits from bit `lo`. -/
def State.fld (s : State) (p : Part) (a lo len : Nat) : Nat := bits lo len (s.reg p a)

/-- `s` with a field of a register set. -/
def State.setFld (s : State) (p : Part) (a lo len v : Nat) : State :=
  s.setReg p a (setBits lo len v (s.reg p a))

/-- A field that counts and saturates, advanced by `n`. -/
def State.satFld (s : State) (p : Part) (a lo len n : Nat) : State :=
  s.setFld p a lo len (satAdd len (s.fld p a lo len) n)

/-- The attach link carries traffic: active, not lost and not retraining (R90, R92). -/
def State.attOn (s : State) : Bool := s.ep.att.active && !s.ep.att.down && s.ep.att.retrainAt.isNone

/-- One bit of a register. -/
def State.flag (s : State) (p : Part) (a i : Nat) : Bool := bit i (s.reg p a)

/-- `s` with one bit of a register set to `b`. -/
def State.setFlag (s : State) (p : Part) (a i : Nat) (b : Bool) : State := s.setFld p a i 1 (ofBool b)

/-- A 64-bit counter held in a _LO and _HI pair, advanced by `n` modulo 2^64. -/
def State.addPair (s : State) (p : Part) (lo hi n : Nat) : State :=
  let v := s.reg p lo + 2 ^ 32 * s.reg p hi + n
  (s.setReg p lo (bits 0 32 v)).setReg p hi (bits 32 32 v)

/-- The port set of a port of a part (R299, R301). -/
def psBase (p : Part) (port : Nat) : Nat :=
  match p with
  | .ronpex => portSetBase port
  | .plocen => epPortSetBase port

/-- How many ports a part has (R4, R8). -/
def partPorts : Part → Nat
  | .ronpex => 192
  | .plocen => 8

/-- The link of a port of a part. -/
def State.link (s : State) (p : Part) (port : Nat) : Link :=
  match p with
  | .ronpex => SMap.look (fun _ => {}) s.rp.links port
  | .plocen => SMap.look (fun _ => {}) s.ep.links port

/-- `s` with the link of a port replaced. -/
def State.setLink (s : State) (p : Part) (port : Nat) (l : Link) : State :=
  match p with
  | .ronpex => { s with rp := { s.rp with links := SMap.put (fun _ => {}) s.rp.links port l } }
  | .plocen => { s with ep := { s.ep with links := SMap.put (fun _ => {}) s.ep.links port l } }

/-- `s` with the link of a port changed. -/
def State.modLink (s : State) (p : Part) (port : Nat) (f : Link → Link) : State := s.setLink p port (f (s.link p port))

/-- The state of a port (R275): 0 OFF, 1 TRAIN, 2 UP, 3 LPI, 4 TEST, 5 DOWN, 6 MISWIRED. -/
def State.portState (s : State) (p : Part) (port : Nat) : Nat := s.fld p (psBase p port + 4) 0 3

/-- A port is up in states UP and LPI (R275). -/
def State.portUp (s : State) (p : Part) (port : Nat) : Bool := s.portState p port == 2 || s.portState p port == 3

/-- Ports 4-7 of a Plocen whose link runs as the 4-module fit are held down (R6, R68). -/
def State.heldDown (s : State) (p : Part) (port : Nat) : Bool := p == .plocen && decide (4 ≤ port) && s.ep.att.modules == 4

/-- The security controller of a part. -/
def State.sec (s : State) : Part → Security
  | .ronpex => s.rp.sec
  | .plocen => s.ep.sec

/-- `s` with the security controller of a part replaced. -/
def State.setSec (s : State) (p : Part) (x : Security) : State :=
  match p with
  | .ronpex => { s with rp := { s.rp with sec := x } }
  | .plocen => { s with ep := { s.ep with sec := x } }

/-- Fabric time beside the registers, of a part. -/
def State.timeSt (s : State) : Part → TimeSt
  | .ronpex => s.rp.time
  | .plocen => s.ep.time

/-- Deferrable work of the Ronpex is held under PWRALERT_N: TIM.PWR_STAT.HOLD (R369). -/
def State.workHeld (s : State) : Bool := s.flag .ronpex Reg.timPwrStat 4

/-- Fabric time as a part holds it, in ns (R379, R383): from 0 at its reset until it takes time again. -/
def State.partNow (s : State) (p : Part) : Nat := s.now - (s.timeSt p).base

/-- `s` with the fabric time of a part replaced. -/
def State.setTimeSt (s : State) (p : Part) (t : TimeSt) : State :=
  match p with
  | .ronpex => { s with rp := { s.rp with time := t } }
  | .plocen => { s with ep := { s.ep with time := t } }

/-- The epoch and snapshot orders of a part. -/
def State.orders (s : State) : Part → Orders
  | .ronpex => s.rp.orders
  | .plocen => s.ep.orders

/-- `s` with the orders of a part replaced. -/
def State.setOrders (s : State) (p : Part) (o : Orders) : State :=
  match p with
  | .ronpex => { s with rp := { s.rp with orders := o } }
  | .plocen => { s with ep := { s.ep with orders := o } }

/-- The source of weft of a part. -/
def State.source (s : State) : Part → Source
  | .ronpex => s.rp.src
  | .plocen => s.ep.src

/-- `s` with the source of a part replaced. -/
def State.setSource (s : State) (p : Part) (x : Source) : State :=
  match p with
  | .ronpex => { s with rp := { s.rp with src := x } }
  | .plocen => { s with ep := { s.ep with src := x } }

/-- The destination of weft of a part: the Plocen, or the memory agent of the Ronpex. -/
def State.destOf (s : State) : Part → Dest
  | .ronpex => s.rp.fmem.dest
  | .plocen => s.ep.dest

/-- `s` with the destination of a part replaced. -/
def State.setDest (s : State) (p : Part) (x : Dest) : State :=
  match p with
  | .ronpex => { s with rp := { s.rp with fmem := { s.rp.fmem with dest := x } } }
  | .plocen => { s with ep := { s.ep with dest := x } }

/-! ### Memory, free values, what leaves the parts -/

/-- One byte of fabric-resident memory. -/
def State.hbmByte (s : State) (a : Nat) : Byte := SMap.look (fun _ => 0) s.hbm a

/-- `n` bytes of fabric-resident memory from `a`. -/
def State.hbmRead (s : State) (a n : Nat) : List Byte := (List.range n).map fun i => s.hbmByte (a + i)

/-- Memory with the bytes `d` stored from `a`. -/
def memStore (m : SMap Byte) (a : Nat) : List Byte → SMap Byte
  | [] => m
  | b :: r => memStore (SMap.put (fun _ => 0) m a b) (a + 1) r

/-- `s` with the bytes `d` stored from `a` in fabric-resident memory. -/
def State.hbmWrite (s : State) (a : Nat) (d : List Byte) : State := { s with hbm := memStore s.hbm a d }

/-- `s` with `n` bytes from `a` zeroed. -/
def State.hbmZero (s : State) (a n : Nat) : State :=
  { s with hbm := s.hbm.filter fun e => decide (e.1 < a) || decide (a + n ≤ e.1) }

/-- The next free value, and the state that has used it. -/
def State.draw (s : State) : BitVec 128 × State := (Config.freeValue s.free, { s with free := s.free + 1 })

/-- `s` with `o` sent outside. -/
def State.emit (s : State) (o : Out) : State := { s with out := o :: s.out }

/-- An MSI-X message of the management endpoint (R384, R408): vector `v` of MGT.MSIX, or its pending bit while the
entry's mask bit is set. -/
def State.msix (s : State) (v : Nat) : State :=
  if s.flag .ronpex (Reg.mgtMsix (4 * v + 3)) 0 then s.setFlag .ronpex (Reg.mgtMsixPba 0) v true
  else s.emit (.msix v)

/-! ### The change log (R400, R401, R403, R455) -/

/-- Bytes 0-27 of a log entry, with byte 14 zero (R400). -/
def logBytes (b : LogBody) : List Byte :=
  leBytes 8 b.time ++ leBytes 1 b.type ++ leBytes 1 b.origin ++ leBytes 2 b.requester ++ leBytes 1 b.port
    ++ leBytes 1 b.skein ++ [0, 0] ++ leBytes 4 b.addr ++ leBytes 4 b.old.toNat ++ leBytes 4 b.new.toNat

/-- The 32 bytes of a log entry (R400). -/
def logEntryBytes (e : LogEntry) : List Byte := logBytes e.body ++ leBytes 4 e.chain.toNat

/-- The 32 bytes of a log entry in the log ring: byte 14 bit 0 holds PHASE (R400). -/
def logRingBytes (phase : Bool) (e : LogEntry) : List Byte := (logEntryBytes e).set 14 (BitVec.ofNat 8 (ofBool phase))

/-- The chain value after an entry (R401). -/
def chainNext (h : BitVec 384) (b : LogBody) : BitVec 384 := Config.sha384 (leBytes 48 h.toNat ++ logBytes b)

/-- H_0 of a part with a given serial (R401): SHA-384 of the nine characters JADEL LOG and the serial. -/
def chainStart (serial : BitVec 64) : BitVec 384 :=
  Config.sha384 ([0x4A, 0x41, 0x44, 0x45, 0x4C, 0x20, 0x4C, 0x4F, 0x47] ++ leBytes 8 serial.toNat)

/-- The condition entry that starts a chain (R455, code 0x00). -/
def chainStartBody (now : Nat) : LogBody :=
  { time := now, type := 7, origin := 6, requester := 0, port := 255, skein := 0, addr := 0, old := 0, new := 0 }

/-- A log with an entry appended to a ring of `cap` entries; an entry that was not streamed and is overwritten is lost
(R402). -/
def Log.push (l : Log) (cap : Nat) (h : BitVec 384) (b : LogBody) : Log :=
  let h' := chainNext h b
  let e : LogEntry := { body := b, chain := BitVec.ofNat 32 h'.toNat }
  let full := decide (cap ≤ l.ents.length)
  let lostOne := full && decide (cap ≤ l.pend)
  { l with
    ents := (if full then l.ents.drop 1 else l.ents) ++ [e]
    count := l.count + 1
    pend := min (l.pend + 1) cap
    lost := l.lost + ofBool lostOne
    h := some h' }

/-- A log with an entry appended; the first entry of a chain is preceded by the chain-start entry (R401). -/
def Log.append (l : Log) (cap : Nat) (serial : BitVec 64) (b : LogBody) : Log :=
  match l.h with
  | some h => l.push cap h b
  | none =>
    let l1 := l.push cap (chainStart serial) (chainStartBody b.time)
    l1.push cap (l1.h.getD 0) b

/-- The change log of the Ronpex with an entry appended. A tripped supply monitor has stopped the log (R375). -/
def State.rpLog (s : State) (b : LogBody) : State :=
  if s.rp.power.supplyLost then s
  else
    let l := s.rp.log.append 262144 Config.ronpexSerial b
    let s1 := { s with rp := { s.rp with log := l } }
    s1.satFld .ronpex Reg.logLost 0 32 (l.lost - s.rp.log.lost)

/-- An entry of type 7 (R455): condition `code` with its ADDRESS 23:0, OLD and NEW. -/
def condBody (now code origin requester port skein addr old new : Nat) : LogBody :=
  { time := now, type := 7, origin := origin, requester := requester, port := port, skein := skein,
    addr := 0x1000000 * code + addr % 0x1000000, old := BitVec.ofNat 32 old, new := BitVec.ofNat 32 new }

/-- A violation by fabric traffic (R455): the source node, port, skein, offset and hank index. -/
def violBody (now requester port skein offset hank : Nat) : LogBody :=
  { time := now, type := 5, origin := 5, requester := requester, port := port, skein := skein,
    addr := bits 0 32 offset, old := BitVec.ofNat 32 (bits 32 17 offset), new := BitVec.ofNat 32 (bits 0 16 hank) }

/-- The Ronpex logs a condition. -/
def State.rpCond (s : State) (code origin requester port skein addr old new : Nat) : State :=
  s.rpLog (condBody s.now code origin requester port skein addr old new)

/-! ### Events and tenant records (R318, R389-R391) -/

/-- Entries of the event ring (R386, R408). -/
def State.evtSize (s : State) : Nat := 2 ^ (6 + min (s.fld .ronpex Reg.mgtEvtCfg 0 4) 14)

/-- The event ring has a free entry: it is enabled and not full (R391). -/
def State.evtFree (s : State) : Bool :=
  s.flag .ronpex Reg.mgtEvtCfg 4 && decide (subMod 32 s.rp.mgmt.evtTail s.rp.mgmt.evtHead < s.evtSize)

/-- Base of a management ring: a _LO and _HI pair (R386). -/
def State.ringBase (s : State) (lo hi : Nat) : Nat := s.reg .ronpex lo + 2 ^ 32 * s.reg .ronpex hi

/-- The 32 bytes of an event entry (R389): of a tenant record bytes 16-31 are those of R318. -/
def eventBytes (phase : Bool) (e : Event) : List Byte :=
  leBytes 8 e.time ++ leBytes 2 e.code ++ leBytes 1 (ofBool e.tenant.isSome) ++ leBytes 1 (ofBool phase) ++ (match e.tenant with
    | none => leBytes 2 e.unitType ++ leBytes 2 e.unit ++ leBytes 4 e.gen ++ leBytes 12 e.arg
    | some (k, scope) => leBytes 4 0 ++ leBytes 8 e.time ++ leBytes 1 k ++ leBytes 1 scope ++ leBytes 2 e.code ++ leBytes 4 e.arg)

/-- An event entry written at EVT_TAIL, with PHASE under R99, and vector 1 (R384). -/
def State.evtWrite (s : State) (e : Event) : State :=
  let t := s.rp.mgmt.evtTail
  let a := s.ringBase Reg.mgtEvtBaseLo Reg.mgtEvtBaseHi + 32 * (t % s.evtSize)
  let s1 := s.emit (.event a e (eventBytes (t / s.evtSize % 2 == 0) e))
  ({ s1 with rp := { s1.rp with mgmt := { s1.rp.mgmt with evtTail := (t + 1) % 2 ^ 32 } } }).msix 1

/-- OVERFLOW (R391): once an entry is free, the count of events lost is posted and cleared. -/
def State.evtOverflow (s : State) : State :=
  if s.evtFree && s.reg .ronpex Reg.mgtEvtOvf != 0 then
    let n := s.reg .ronpex Reg.mgtEvtOvf
    (s.evtWrite { time := s.now, code := 0x72, tenant := none, unitType := 0, unit := 0, gen := 0, arg := n * 2 ^ 32 }).setReg
      .ronpex Reg.mgtEvtOvf 0
  else s

/-- An event is posted, held while layer 1 restarts (R406), or counted as lost (R391). -/
def State.post (s : State) (e : Event) : State :=
  if s.rp.sec.restartAt.isSome then
    if s.rp.mgmt.held.length < 4096 then
      { s with rp := { s.rp with mgmt := { s.rp.mgmt with held := s.rp.mgmt.held ++ [e] } } }
    else s.satFld .ronpex Reg.mgtEvtOvf 0 32 1
  else
    let s1 := s.evtOverflow
    if s1.evtFree then s1.evtWrite e else s1.satFld .ronpex Reg.mgtEvtOvf 0 32 1

/-- The state of a skein (R303): 0 FREE, 1 QUIESCENT, 2 ACTIVE. -/
def State.skeinState (s : State) (k : Nat) : Nat := s.fld .ronpex (Reg.sknCtl k) 0 2

/-- A skein is sealed (R319). -/
def State.isSealed (s : State) (k : Nat) : Bool := s.flag .ronpex (Reg.sknCtl k) 2

/-- Tenant skeins that are ACTIVE. -/
def State.activeSkeins (s : State) : List Nat := (List.range 64).filter fun k => decide (0 < k) && s.skeinState k == 2

/-- XBR.CTL.ROLE: 0 rack, 1 leaf, 2 spine; 3 is treated as 0 (R181). -/
def State.role (s : State) : Nat := s.fld .ronpex Reg.xbrCtl 0 2 % 3

/-- The plane of the Ronpex: the port number of the Plocen at the far end of its lowest such port, since end points
connect their port p to plane p (R31; DEDUCED, log 8). A spine, which meets none, takes it from its installation. -/
def State.plane (s : State) : Nat :=
  match (List.range 192).find? fun p => bits 8 2 (s.reg .ronpex (portSetBase p + 0x18)) == 3 with
  | some p => s.reg .ronpex (portSetBase p + 0x18) % 8
  | none => if s.role = 2 then Config.spinePlane % 8 else 0

/-- A tenant record of an operator event (R318, R389). -/
def tenantOf (e : Event) (skein scope plane : Nat) : Event :=
  { e with
    time := if scope = 0 then e.time else e.time / 1000000 * 1000000
    tenant := some (skein, scope), unitType := 0, unit := 0, gen := 0
    arg := plane % 8 + 8 * (if scope = 0 then bits 0 29 e.arg else 0) }

/-- An event is posted on the event ring, and a tenant record for each skein it affects: at once for SCOPE 0, and for
SCOPE 1 and 2 at the first multiple of 1,000,000 ns after it (R318). -/
def State.postFor (s : State) (e : Event) (scope : Nat) (skeins : List Nat) : State :=
  let s1 := s.post e
  if scope = 0 then skeins.foldl (fun t k => t.post (tenantOf e k 0 t.plane)) s1
  else
    let q := skeins.map fun k => ((e.time / 1000000 + 1) * 1000000, tenantOf e k scope s1.plane)
    { s1 with rp := { s1.rp with skeins := { s1.rp.skeins with records := s1.rp.skeins.records ++ q } } }

/-- An event of no unit, with its ARG bytes 20-31 as one number. -/
def plainEvent (now code arg : Nat) : Event :=
  { time := now, code := code, tenant := none, unitType := 0, unit := 0, gen := 0, arg := arg }

/-- Bytes `l` as an ARG number. -/
def argOf (l : List Nat) : Nat := leNat (l.map fun b => BitVec.ofNat 8 b)

/-! ### The persistent store (R397-R399, R410) -/

/-- The reset of a persistent word: PST.HOLDUP.ALLOWANCE is 4,096 at manufacture, every other word 0 (log 6). -/
def pstDefault (a : Nat) : Word := if a = Reg.pstHoldup then 4096 else 0

/-- A word of the persistent store as read: the queued value while a write is in the queue (R398). -/
def Pst.word (p : Pst) (a : Nat) : Nat :=
  match (p.queue.reverse.find? fun q => q.1 == a) with
  | some q => q.2.toNat
  | none => (SMap.look pstDefault p.words a).toNat

/-- The index of a word of the persistent store (R410). -/
def pstIndex (a : Nat) : Nat := (a - 0xF00000) / 4

/-- Writes made to a word (R399). -/
def Pst.wearOf (p : Pst) (a : Nat) : Nat := SMap.look (fun _ => 0) p.wear (pstIndex a)

/-- A word is locked at 100,000 writes (R399). -/
def Pst.locked (p : Pst) (a : Nat) : Bool := decide (100000 ≤ p.wearOf a)

/-- The subcode byte of an event whose cases R390 does not number (log 9). -/
def subcodeOf (code case : Nat) : Nat := Config.subcode code case % 256

/-- A PST event (R390): case 1 for 90,000 writes, 2 locked, 3 written while locked. -/
def pstEvent (now case a : Nat) : Event := plainEvent now 0x70 (subcodeOf 0x70 case + 2 ^ 32 * pstIndex a)

/-- A write of a locked word by the hub is a violation, logged as one by hardware (R306, R399, R400). -/
def State.pstViolation (s : State) (a v : Nat) : LogBody :=
  { time := s.now, type := 5, origin := 6, requester := 0, port := 255, skein := 0, addr := a
    old := BitVec.ofNat 32 (s.rp.pst.word a), new := BitVec.ofNat 32 v }

/-- A cell is written and its wear counted (R399). A locked word keeps its value: the write is a violation, and a PST event is posted. -/
def State.pstCell (s : State) (a : Nat) (v : Nat) : State :=
  let p := s.rp.pst
  if p.locked a then (s.rpLog (s.pstViolation a v)).post (pstEvent s.now 3 a)
  else
    let w := p.wearOf a + 1
    let s1 := { s with rp := { s.rp with pst := { p with
      words := SMap.put pstDefault p.words a (BitVec.ofNat 32 v), wear := SMap.put (fun _ => 0) p.wear (pstIndex a) w } } }
    if w = 90000 then s1.post (pstEvent s.now 1 a)
    else if w = 100000 then s1.post (pstEvent s.now 2 a)
    else s1

/-- The generation of a unit by its index (R353, R410). -/
def State.gen (s : State) (i : Nat) : Nat := bits (16 * (i % 2)) 16 (s.rp.pst.word (Reg.pstGen (i / 2)))

/-- A unit's generation advances by 1 modulo 2^16 (R353); none where its word is locked (R399). -/
def State.genAdvance (s : State) (i : Nat) : Option State :=
  let a := Reg.pstGen (i / 2)
  if s.rp.pst.locked a then none
  else some (s.pstCell a (setBits (16 * (i % 2)) 16 ((s.gen i + 1) % 2 ^ 16) (s.rp.pst.word a)))

/-- A lifetime counter of the persistent store counts one; a locked word stops counting (R399). -/
def State.pstCount (s : State) (a lo len : Nat) : State :=
  if s.rp.pst.locked a then s
  else s.pstCell a (setBits lo len (satAdd len (bits lo len (s.rp.pst.word a)) 1) (s.rp.pst.word a))

/-- A unit is held fenced by its bit in PST.FENCE (R399). -/
def State.pstFenced (s : State) (i : Nat) : Bool := bit (i % 32) (s.rp.pst.word (Reg.pstFence (i / 32)))

/-! ### Units (R345, R352, R419, R420) -/

/-- The unit index of a unit named by UNIT_TYPE and number (R389, R419). -/
def unitIndex (type n : Nat) : Option Nat :=
  if type = 1 ∧ n < 192 then some n
  else if type = 2 ∧ n < 96 then some (192 + n)
  else if type = 3 ∧ n < 128 then some (288 + n)
  else if type = 4 ∧ n < 192 then some (416 + n)
  else if type = 8 then some 608
  else none

/-- UNIT_TYPE and number of a unit index (R389, R419). -/
def unitOf (i : Nat) : Nat × Nat :=
  if i < 192 then (1, i) else if i < 288 then (2, i - 192) else if i < 416 then (3, i - 288)
  else if i < 608 then (4, i - 416) else (8, 0)

/-- The region 0-15 in which a port unit, spindle or lane group lies; none for a channel controller or the package. -/
def unitRegion (i : Nat) : Option Nat :=
  if i < 192 then some (portEngine i) else if i < 288 then some (spindleRegion (i - 192))
  else if i < 416 then none else if i < 608 then some (portEngine (i - 416)) else none

/-- The die of a unit; none for the package. -/
def unitDie (i : Nat) : Option Nat :=
  if i < 192 then some (portDie i) else if i < 288 then some (spindleDie (i - 192))
  else if i < 416 then some ((i - 288) / 32) else if i < 608 then some (portDie (i - 416)) else none

/-- A region is in reset, or its die is, or its die is not awake (R418, R447). -/
def State.regionOff (s : State) (r : Nat) : Bool :=
  s.rp.units.regions.any (fun x => x.1 == r) || s.rp.units.dies.any (fun x => x.1 == r / 4)
    || !bit (r / 4) s.rp.units.awake

/-- The state of a unit as HUB.USTAT shows it (R420): 0 in service, 1 fenced, 2 quarantine, 3 off. -/
def State.unitState (s : State) (i : Nat) : Nat :=
  if i < 192 then s.fld .ronpex (portBase i) 0 2
  else if i < 288 then
    let n := i - 192
    if s.flag .ronpex (spindleBase n) 0 then 1
    else if s.regionOff (spindleRegion n) then 3
    else if SMap.look (fun _ => 0) s.rp.units.qstep i ≠ 0 then 2 else 0
  else if i < 416 then
    let c := i - 288
    if s.flag .ronpex (Reg.fmhChfence (c / 32)) (c % 32) then 1
    else if s.rp.units.dies.any (fun x => x.1 == c / 32) || s.rp.fmem.trained != 15 then 3 else 0
  else if i < 608 then
    match s.portState .ronpex (i - 416) with
    | 0 => 3
    | 1 => 2
    | 2 => 0
    | 3 => 0
    | _ => 1
  else 0

/-- The quarantine step of a unit (R420). A lane group goes through the first three with its port unit (R345, R352; DEDUCED, log 182). -/
def State.unitQstep (s : State) (i : Nat) : Nat :=
  if i < 192 then s.fld .ronpex (portBase i + 0xC) 0 3
  else if i < 416 then SMap.look (fun _ => 0) s.rp.units.qstep i
  else if i < 608 then (let k := s.fld .ronpex (portBase (i - 416) + 0xC) 0 3; if k = 4 then 0 else k)
  else 0

/-- A unit is in quarantine: STATE 2, or a channel controller in a step of R352, whose STATE does not show it (R420). -/
def State.quarantined (s : State) (i : Nat) : Bool :=
  if 288 ≤ i ∧ i < 416 then s.unitQstep i != 0 && s.unitState i != 3 else s.unitState i == 2

/-- CAUSE of a unit (R420). -/
def State.unitCause (s : State) (i : Nat) : Nat :=
  if i < 192 then s.fld .ronpex (portBase i) 8 8
  else if i < 416 then SMap.look (fun _ => 0) s.rp.units.cause i
  else if i < 608 then
    match s.portState .ronpex (i - 416) with
    | 4 => 5
    | 5 => 2
    | 6 => 2
    | _ => 0
  else 0

/-- `s` with the record of a unit changed. -/
def State.modUnits (s : State) (f : Units → Units) : State := { s with rp := { s.rp with units := f s.rp.units } }

/-- `s` with a unit's kept CAUSE and quarantine step set (R420). -/
def State.setUnit (s : State) (i cause qstep : Nat) : State :=
  s.modUnits fun u => { u with cause := SMap.put (fun _ => 0) u.cause i cause, qstep := SMap.put (fun _ => 0) u.qstep i qstep
                               since := SMap.put (fun _ => 0) u.since i s.now }

/-! ### Fabric-resident memory as it is read and written (R253, R262, R263) -/

/-- A skein is confidential (R303, R319). -/
def State.isConf (s : State) (k : Nat) : Bool := s.flag .ronpex (Reg.sknCtl k) 3

/-- The skein of a region of fabric-resident memory: bits 9:4 of FMH.RGN_CTL (R264). -/
def State.rgnSkein (s : State) (n : Nat) : Nat := s.fld .ronpex (Reg.fmhRgnCtl n) 4 6

/-- First 2 MiB unit of a region, and its units. -/
def State.rgnUnits (s : State) (n : Nat) : Nat × Nat := (s.fld .ronpex (Reg.fmhRgnBase n) 0 17, s.fld .ronpex (Reg.fmhRgnSize n) 0 17)

/-- 64-byte lines of a region: its 2 MiB units. -/
def State.zeroLines (s : State) (n : Nat) : Nat := if (s.rgnUnits n).1 + (s.rgnUnits n).2 ≤ 98304 then 2 ^ 15 * (s.rgnUnits n).2 else 0

/-- A region is VALID and covers a unit; one whose SIZE is 0 or that runs past 192 GiB covers none (R264). -/
def State.rgnCovers (s : State) (n u : Nat) : Bool :=
  let (b, z) := s.rgnUnits n
  s.flag .ronpex (Reg.fmhRgnCtl n) 0 && decide (b + z ≤ 98304) && decide (b ≤ u) && decide (u < b + z)

/-- ACTIVE skeins that hold a region: a fault of the memory concerns them (R318). -/
def State.regionSkeins (s : State) : List Nat :=
  s.activeSkeins.filter fun k => (List.range 256).any fun n => s.flag .ronpex (Reg.fmhRgnCtl n) 0 && s.rgnSkein n == k

/-- The XTS keys under which a byte of fabric-resident memory is read and written: those of the confidential skein of a region that
covers it (R263); none where it is plain. -/
def State.memKey (s : State) (off : Nat) : Option (BitVec 512) :=
  if s.rp.sec.fkeys.isEmpty then none
  else
    ((List.range 256).find? fun n => s.rgnCovers n (off / 2 ^ 21) && s.isConf (s.rgnSkein n)).bind fun n =>
      (s.rp.sec.fkeys.find? fun x => x.1 == s.rgnSkein n).map fun x => x.2

/-- What a 64-byte line that was written under some keys reads as under others, or without any: XTS-AES-256 with the line's number as
tweak (R263). -/
def foreignLine (wrote : BitVec 512) (reads : Option (BitVec 512)) (line : Nat) (plain : List Byte) : List Byte :=
  match reads with
  | some k => sliceBytes (Config.xtsDecrypt k line (Config.xtsEncrypt wrote line plain)) 0 64
  | none => sliceBytes (Config.xtsEncrypt wrote line plain) 0 64

/-- The keys under which a line was written, where it does not read as plain text under those of the present (R263). -/
def State.foreignKey (s : State) (line : Nat) : Option (BitVec 512) :=
  (SMap.find? s.rp.fmem.cipher line).filter fun k => s.memKey (64 * line) != some k

/-- One byte of fabric-resident memory as it is read (R263): a line that holds what other keys encrypted reads as their cipher text, not
as what was written. -/
def State.memByte (s : State) (a : Nat) : Byte :=
  match s.foreignKey (a / 64) with
  | none => s.hbmByte a
  | some k => (foreignLine k (s.memKey (64 * (a / 64))) (a / 64) (s.hbmRead (64 * (a / 64)) 64)).getD (a % 64) 0

/-- `n` bytes of fabric-resident memory from `a`, as they are read. -/
def State.memRead (s : State) (a n : Nat) : List Byte := (List.range n).map fun i => s.memByte (a + i)

/-- `s` with fabric-resident memory's agent changed. -/
def State.modFm (s : State) (f : Fmem → Fmem) : State := { s with rp := { s.rp with fmem := f s.rp.fmem } }

/-- A line is read before it is merged with a write: what it holds is then what it read as (R263). -/
def State.settleLine (s : State) (line : Nat) : State :=
  if (s.foreignKey line).isSome then
    (s.hbmWrite (64 * line) (s.memRead (64 * line) 64)).modFm fun m => { m with cipher := SMap.drop m.cipher line }
  else s

/-- The lines that a write touches are encrypted under the keys of their region (R263). -/
def State.sealLines (s : State) (lines : List Nat) : State :=
  s.modFm fun m => { m with cipher := lines.foldl (fun c l => match s.memKey (64 * l) with
    | some k => SMap.set c l k
    | none => SMap.drop c l) m.cipher }

/-- A write of fabric-resident memory (R263): read, merge and write of each line that it touches, under its region's keys. A burst that
it covers whole is healed (R262). -/
def State.memWrite (s : State) (a : Nat) (d : List Byte) : State :=
  let lines := linesOf a d.length
  let plain := s.rp.sec.fkeys.isEmpty && s.rp.fmem.cipher.isEmpty
  let s1 := if plain then s.hbmWrite a d else ((lines.foldl (fun t l => t.settleLine l) s).hbmWrite a d).sealLines lines
  s1.modFm fun m => { m with bad := m.bad.filter fun b => !(wholeBursts a d.length).contains b }

/-- Memory from `a` is zeroed (R255, R418): it then reads as zero under any keys (DESIGN CHOICE, log 145). -/
def State.memZero (s : State) (a n : Nat) : State :=
  (s.hbmZero a n).modFm fun m => { m with
    cipher := m.cipher.filter fun e => decide (64 * e.1 < a) || decide (a + n ≤ 64 * e.1)
    bad := m.bad.filter fun b => decide (32 * b < a) || decide (a + n ≤ 32 * b) }

end Sys2Proof.Machine
end

