-- ==== Sys2Proof/Machine/Views.lean ====
section
/-! DEFINITION. What a read of a register returns (R12-R14, R415, R416): the stored fields, and for the registers that
show something the machine holds elsewhere, that. -/

namespace Sys2Proof.Machine

open Sys2Proof

/-- The stored value of a register, without its write-only and reserved bits (R13, R15). -/
def RegRow.visible (r : RegRow) (v : Nat) : Nat := v &&& (r.rw ||| r.rwp ||| r.w1c ||| r.ro)

/-- The index of a register within an array at `base` with a stride, if `a` is one of its `n` registers. -/
def arrayIndex (base stride n a : Nat) : Option Nat :=
  if base ≤ a ∧ (a - base) % stride = 0 ∧ (a - base) / stride < n then some ((a - base) / stride) else none

/-- The skein that occupies the package in confidential mode (R340, R343). -/
def State.occupant (s : State) : Option Nat :=
  if s.flag .ronpex Reg.secDbg 14 then some (s.fld .ronpex Reg.secDbg 8 6) else none

/-- Whether `k` owns switch-side counter `n`: its range in FMH.HGRANT[k] (R254, R264). -/
def State.hcntOf (s : State) (k n : Nat) : Bool :=
  let b := s.fld .ronpex (Reg.fmhHgrant k) 0 14
  let c := s.fld .ronpex (Reg.fmhHgrant k) 16 15
  decide (b ≤ n) && decide (n < b + c)

/-- The tally of a phase that no cell has come from. -/
def noTally : Tally := { status := 0, inst := 0, round := 0, frame := 0, missed := [], ports := [], skein := 0, unknown := true }

/-- The tally that DRF.TSEL shows. -/
def State.tallyShown (s : State) : Tally :=
  SMap.look (fun _ => noTally) s.rp.warp.tallies
    (s.fld .ronpex Reg.drfTsel 0 8)

/-- The registers of FMH and SPD that belong to skein `k` (R305, R341): its seed, regions, counter grant, relays whose
counter it owns and its counters. -/
def State.skeinReg (s : State) (k a : Nat) : Bool :=
  a == Reg.spdSeedLo k || a == Reg.spdSeedHi k || a == Reg.fmhHgrant k
    || (match arrayIndex (Reg.fmhRgnBase 0) 4 1024 a with
        | some i => s.rgnSkein (i / 4) == k && s.flag .ronpex (Reg.fmhRgnCtl (i / 4)) 0
        | none => false)
    || (match arrayIndex (Reg.fmhRelayCtl 0) 4 16384 a with
        | some i => s.hcntOf k (s.fld .ronpex (Reg.fmhRelayCtl (i / 4)) 0 14)
        | none => false)
    || (match arrayIndex (Reg.fmhHcntLo 0) 4 32768 a with
        | some i => s.hcntOf k (i / 2)
        | none => false)

/-- A register of the state of the confidential skein that occupies the package (R341): with its seed and FMH registers, the tally that
DRF.TSEL shows while its phase is one of the skein. -/
def State.closedState (s : State) (a : Nat) : Bool :=
  match s.occupant with
  | none => false
  | some k => s.skeinReg k a
      || ((decide (Reg.drfTmap 0 ≤ a ∧ a < Reg.drfTmap 6) || a == Reg.drfTstat) && s.tallyShown.skein == k)

/-- A register whose reads return zero while a confidential skein occupies the package (R341): its state, and the memory window. -/
def State.closedReg (s : State) (a : Nat) : Bool :=
  s.closedState a || (s.occupant.isSome && decide (Reg.mgtWin 0 ≤ a ∧ a < Reg.mgtWin 262144))

/-- Bits of HUB.ERRSUM (R407): SPD, FMH, LAS, SEC, LOG and MGT; PRT, OPT and PST hold no error bits. -/
def State.errsum (s : State) : Nat :=
  maskOf (([(1, (List.range 96).any fun n => s.reg .ronpex (spindleBase n + 4) != 0),
    (2, s.reg .ronpex Reg.fmhErr != 0),
    (3, (List.range 4).any fun m => s.reg .ronpex (Reg.lasErr m) != 0),
    (4, s.reg .ronpex Reg.secErr != 0),
    (7, s.flag .ronpex Reg.logStat 19),
    (8, s.fld .ronpex Reg.mgtStat 1 2 != 0)].filter (·.2)).map (·.1))

/-- STATE of TIM.STAT and its other fields (R383). -/
def TimeSt.word (t : TimeSt) : Nat :=
  ofBool t.locked + 2 * ofBool t.holdover.isSome + 4 * (t.source % 4) + 16 * (min t.depth 15)

/-- 64-bit counters by index, in _LO and _HI words from `base`: the word at index `i`. -/
def pairWord (v : Nat) (i : Nat) : Nat := bits (32 * (i % 2)) 32 v

/-- The words of the PST block (R410). -/
def State.pstView (s : State) (a : Nat) : Nat :=
  let p := s.rp.pst
  if a = Reg.pstStat then p.queue.length + 2 ^ 16 * min (p.wear.filter fun e => decide (100000 ≤ e.2)).length 65535
  else if Reg.pstWear 0 ≤ a ∧ a < Reg.pstWear 16384 then
    let n := SMap.look (fun _ => 0) p.wear ((a - Reg.pstWear 0) / 4)
    n % 2 ^ 17 + 2 ^ 30 * ofBool (decide (90000 ≤ n)) + 2 ^ 31 * ofBool (decide (100000 ≤ n))
  else p.word a

/-- XBR.ANA_CTL reads with EN 0 while a confidential skein occupies the package (R179). -/
def State.anaCtl (s : State) : Nat := setBit 0 (s.flag .ronpex Reg.xbrAnaCtl 0 && s.occupant.isNone) (s.reg .ronpex Reg.xbrAnaCtl)

/-- Registers of the hub that show something held elsewhere; none where the stored value is read. -/
def State.hubView (s : State) (a : Nat) : Option Nat :=
  let layer1 := s.rp.power.ready && s.rp.sec.restartAt.isNone
  if a = Reg.hubStat then some (ofBool layer1 + 2 * ofBool s.rp.sec.restartAt.isSome)
  else if a = Reg.hubReset then
    some (maskOf (s.rp.units.regions.map (·.1)) + 2 ^ 16 * maskOf (s.rp.units.dies.map (·.1)))
  else if a = Reg.hubErrsum then some s.errsum
  else if a = Reg.sknStat then some (setBit 6 s.rp.skeins.cmd.isSome (s.reg .ronpex a))
  else if a = Reg.secFw then some (ofBool s.rp.sec.slotB + 2 * s.rp.sec.fw)
  else if a = Reg.timStat then some s.rp.time.word
  else if a = Reg.timNowLo then some (bits 0 32 (s.partNow .ronpex))
  else if a = Reg.timNowHi then some (bits 32 32 (s.partNow .ronpex))
  else if a = Reg.timOffset then some (ofSigned 32 s.rp.time.theta)
  else if a = Reg.timDelay then some (bits 0 32 s.rp.time.delay)
  else if a = Reg.timHoldup then some (s.rp.pst.word Reg.pstHoldup % 2 ^ 14 + 2 ^ 16 * (s.rp.power.volt % 2 ^ 16))
  else if a = Reg.mgtCmdDb then some s.rp.mgmt.cmdHead
  else if a = Reg.mgtEvtDb then some s.rp.mgmt.evtTail
  else if a = Reg.mgtStat then some (setBit 0 s.rp.mgmt.running.isSome (s.reg .ronpex a))
  else if a = Reg.mgtChain then
    some (s.rp.pst.word Reg.pstTray % 4 + 4 * ofBool s.rp.tray.link.1 + 8 * ofBool s.rp.tray.link.2)
  else if a = Reg.mgtSnapStat then some (setBit 18 s.rp.orders.snap.isSome (s.reg .ronpex a))
  else if a = Reg.logDb then some s.rp.mgmt.logTail
  else if a = Reg.logStat then some (setBits 0 19 s.rp.log.pend (s.reg .ronpex a))
  else if a = Reg.logCountLo then some (bits 0 32 s.rp.log.count)
  else if a = Reg.logCountHi then some (bits 32 32 s.rp.log.count)
  else if a = Reg.fmhStat then
    some (2 ^ 29 * ofBool (!s.rp.fmem.zeroing.isEmpty) + 2 ^ 30 * ofBool (s.rp.fmem.trained == 15))
  else if a = Reg.fmhScrub then some (s.rp.fmem.zeroing.headD 0)
  else if a = Reg.xbrAnaCtl then some s.anaCtl
  else if a = Reg.drfTstat then some (s.tallyShown.status + 2 ^ 16 * s.tallyShown.inst)
  else match arrayIndex (Reg.logHash 0) 4 12 a with
  | some i => some (bits (32 * i) 32 ((s.rp.log.h.getD 0).toNat))
  | none =>
  match arrayIndex (Reg.drfTmap 0) 4 6 a with
  | some k => some (maskOf ((List.range 32).filter fun i =>
      s.tallyShown.ports.contains (32 * k + i) && !s.tallyShown.missed.contains (32 * k + i)))
  | none =>
  match arrayIndex (Reg.mgtSnapLo 0) 4 32768 a with
  | some i => some (pairWord (SMap.look (fun _ => 0) s.rp.orders.image (i / 2)) i)
  | none =>
  match arrayIndex (Reg.fmhHcntLo 0) 4 32768 a with
  | some i => some (pairWord (SMap.look (fun _ => 0) s.rp.fmem.hcnt (i / 2)) i)
  | none =>
  match arrayIndex (Reg.mgtWin 0) 4 262144 a with
  | some i =>
    let o := s.fld .ronpex Reg.mgtMwin 0 18 * 2 ^ 20 + 4 * i
    some (if o < 192 * 2 ^ 30 then leNat (s.memRead o 4) else 0)
  | none =>
  match arrayIndex (Reg.secPTxcntLo 0) 4 768 a with
  | some i => if i % 4 < 2 then some (pairWord (s.link .ronpex (i / 4)).keys.txCnt i) else none
  | none =>
  match arrayIndex (Reg.hubUstat 0) 8 609 a with
  | some i => some (s.unitState i + 4 * s.unitQstep i + 256 * s.unitCause i + 2 ^ 16 * s.gen i)
  | none => if 0xF00000 ≤ a then some (s.pstView a) else none

/-- What a read of a Ronpex configuration address returns. -/
def State.rpRead (s : State) (a : Nat) : Nat :=
  match rpRow a with
  | none => 0
  | some (r, _) =>
    if s.closedReg a then 0
    else match decode412 a with
    | some (.hub, _, o) => r.visible ((s.hubView o).getD (s.reg .ronpex a))
    | some (.port, n, 8) => s.gen n
    | some (.spindle, n, 0) =>
      ofBool (s.flag .ronpex a 0) + 16 * ((SMap.look (fun _ => {}) s.rp.spindles n).ctxs.filter fun x => x.head.isSome).length
    | _ => r.visible (s.reg .ronpex a)

/-- A ring of the Plocen. -/
def State.ring (s : State) (n : Nat) : Ring := SMap.look (fun _ => {}) s.ep.rings n

/-- A shuttle of the Plocen. -/
def State.shuttle (s : State) (n : Nat) : Shuttle := SMap.look (fun _ => {}) s.ep.shuttles n

/-- The words of the change log of the Plocen (R403): word `k` of ring place `n`. -/
def Log.place (l : Log) (n : Nat) : List Byte :=
  let first := l.count - l.ents.length
  match (l.ents.zip (List.range l.ents.length)).find? fun e => (first + e.2) % 4096 == n with
  | some e => logEntryBytes e.1
  | none => []

/-- Rings' own registers (R101, R127): the word at offset `o` of ring `n`'s set, or of its doorbell page. -/
def State.ringView (s : State) (n : Nat) (o : Nat) : Option Nat :=
  let r := s.ring n
  if o = 0x1C then some (ofBool r.active + 2 * ofBool r.err + 4 * ofBool r.quiesced + 256 * r.errCode
    + 2 ^ 16 * (s.ep.gates.filter fun g => g.ring == n).length)
  else if o = 0x20 then some r.sqHead
  else if o = 0x24 then some r.sqTail
  else if o = 0x28 then some r.cqTail
  else if o = 0x2C then some r.cqHead
  else none

/-- Registers of the Plocen that show something held elsewhere; none where the stored value is read. STAT.RATE is the highest rate of
the modules that have trained, so 0 while none has, as during a retrain (DESIGN CHOICE, log 123). -/
def State.epView (s : State) (a : Nat) : Option Nat :=
  let e := s.ep
  if a = Reg.epAttStat then
    some (ofBool e.att.active + 16 * e.att.modules + 256 * ((e.att.trained.map (·.2)).foldl max 0 % 256))
  else if a = Reg.epAttCred then some (e.att.p2aLimit % 2 ^ 16 + 2 ^ 16 * 4096)
  else if a = Reg.epShtGates then some e.gates.length
  else if a = Reg.epShtActive then
    some (maskOf ((List.range 16).filter fun i => (s.shuttle i).burst.isSome)
      + 2 ^ 16 * maskOf ((List.range 16).filter fun i => (s.shuttle i).miss.isSome))
  else if a = Reg.epXltFillDb then some e.xlt.fillHead
  else if a = Reg.epXltMissDb then some e.xlt.missTail
  else if a = Reg.epXltStat then
    some (ofBool e.xlt.active + 2 * ofBool e.xlt.err + 4 * ofBool (!e.xlt.held.isEmpty) + 256 * e.xlt.errCode
      + 2 ^ 16 * min e.xlt.misses.length 65535)
  else if a = Reg.epXltOcc then some (e.xlt.outExt.length + 2 ^ 16 * e.xlt.inExt.length)
  else if a = Reg.epXltDmiss then
    some ((e.xlt.misses.map fun m => m.direct.length).sum + 2 ^ 16 * e.xlt.ovf)
  else if a = Reg.epXltDrop then some e.xlt.drop
  else if a = Reg.epXltMissTail then some e.xlt.missTail
  else if a = Reg.epXltMissHead then some e.xlt.missHead
  else if a = Reg.epXltFillTail then some e.xlt.fillTail
  else if a = Reg.epXltFillHead then some e.xlt.fillHead
  else if a = Reg.epSeqStat then some (e.dest.store.length + 2 ^ 16 * e.dest.ctxs.length)
  else if a = Reg.epSeqWstat then some (setBits 4 10 e.warp.binds.length (s.reg .plocen a))
  else if a = Reg.epSecFw then some (ofBool e.sec.slotB + 2 * e.sec.fw)
  else if a = Reg.epSecKeys then some (ofBool e.sec.model.isSome + 2 * ofBool e.sec.sky.isSome)
  else if a = Reg.epSecDbg then some (ofBool (e.sec.model.isNone && e.sec.sky.isNone))
  else if a = Reg.epSecLogStat then
    some (e.log.count % 4096 + 4096 * ofBool (decide (4096 < e.log.count)))
  else if a = Reg.epHnkSnapStat then some (setBit 18 e.orders.snap.isSome (s.reg .plocen a))
  else match arrayIndex (Reg.epRngSqDb 0) 0x1000 1024 a with
  | some n => some (s.ring n).sqHead
  | none =>
  match arrayIndex (Reg.epRngCqDb 0) 0x1000 1024 a with
  | some n => some (s.ring n).cqTail
  | none =>
  match arrayIndex (Reg.epRngSqBaseLo 0) 4 16384 a with
  | some i => s.ringView (i / 16) (4 * (i % 16))
  | none =>
  match arrayIndex (Reg.epShtStat 0) 4 64 a with
  | some i =>
    let h := s.shuttle (i / 4)
    if i % 4 = 0 then some (ofBool h.burst.isSome + 2 * ofBool h.miss.isSome + 4 * ofBool h.fenced
      + 16 * (match h.burst with | some b => b.ring | none => 0))
    else if i % 4 < 3 then some (pairWord h.formed (i % 4 - 1)) else none
  | none =>
  match arrayIndex (Reg.epHnkCntLo 0) 4 131072 a with
  | some i => some (pairWord (SMap.look (fun _ => 0) e.hanks (i / 2)) i)
  | none =>
  match arrayIndex (Reg.epHnkSnapLo 0) 4 131072 a with
  | some i => some (pairWord (SMap.look (fun _ => 0) e.orders.image (i / 2)) i)
  | none =>
  match arrayIndex (Reg.epSecLogHash 0) 4 12 a with
  | some i => some (bits (32 * i) 32 ((e.log.h.getD 0).toNat))
  | none =>
  match arrayIndex (Reg.epSecLog 0 0) 4 32768 a with
  | some i => some (fieldNat (e.log.place (i / 8)) (4 * (i % 8)) 4)
  | none =>
  match arrayIndex (Reg.epSecPTxcntLo 0) 4 32 a with
  | some i => if i % 4 < 2 then some (pairWord (s.link .plocen (i / 4)).keys.txCnt i) else none
  | none => none

/-- What a read of a Plocen register-window offset returns. -/
def State.epRead (s : State) (a : Nat) : Nat :=
  match epRow a with
  | none => 0
  | some (r, _) => r.visible ((s.epView a).getD (s.reg .plocen a))

/-- What a read of a register of a part returns. -/
def State.regRead (s : State) (p : Part) (a : Nat) : Nat :=
  match p with
  | .ronpex => s.rpRead a
  | .plocen => s.epRead a

/-- The bytes of a register read of 4 or 8 bytes: an 8-byte read covers two adjacent registers (R385, R416). -/
def State.regBytes (s : State) (p : Part) (a n : Nat) : List Byte :=
  leBytes 4 (s.regRead p a) ++ (if n = 8 then leBytes 4 (s.regRead p (a + 4)) else [])

end Sys2Proof.Machine
end

