-- ==== Sys2Proof/Machine/Route.lean ====
section
/-! DEFINITION. Routing, deflection and reflection of weft containers (R156-R169), as one set of operations. -/

namespace Sys2Proof.Machine

open Sys2Proof

/-- S of R32: XBR.CTL.SPINES, other values treated as 1 (R181). -/
def State.spines (s : State) : Nat :=
  let v := s.fld .ronpex Reg.xbrCtl 8 8
  if [1, 2, 3, 4, 6, 8, 12, 16, 24, 32, 48, 96].contains v then v else 1

/-- A port is eligible when its path-mask bit is 1, it is up and its unit is in service (R157, R345, R352). -/
def State.eligible (s : State) (p : Nat) : Bool :=
  s.flag .ronpex (Reg.xbrPathmask (p / 32)) (p % 32) && s.portUp .ronpex p && s.fld .ronpex (portBase p) 0 2 == 0

/-- Where a route entry leads (R156). -/
inductive Route where
  | unrouted
  | port (p : Nat)
  | localMem
  | several (ports : List Nat)
  deriving DecidableEq, Repr

/-- The route entry of a node (R156); kinds 6 and 7 are treated as 0 (R181), as UP and SPINE outside a leaf and LEAF
outside a spine are (DEDUCED, log 12). -/
def State.route (s : State) (node : Nat) : Route :=
  if 28672 ≤ node then .unrouted
  else
    let w := s.reg .ronpex (Reg.xbrRt node)
    let i := bits 8 8 w
    let n := 96 / s.spines
    match bits 0 3 w with
    | 1 => if i < 192 then .port i else .unrouted
    | 2 => .localMem
    | 3 => if s.role = 1 then .several ((List.range 96).map (· + 96)) else .unrouted
    | 4 => if s.role = 1 then .several ((List.range n).map (· + 96 + i * n)) else .unrouted
    | 5 => if s.role = 2 then .several ((List.range n).map (· + i * n)) else .unrouted
    | _ => .unrouted

/-- The node that a container is looked up by (R156): SRC when reflected, else DEST. -/
def lookupNode (c : Container) : Nat := if c.refl then c.src else c.dest

/-- The eligible ports of a route (R157). A PORT entry has one. -/
def State.routePorts (s : State) (r : Route) : List Nat :=
  match r with
  | .port p => [p].filter fun q => s.eligible q
  | .several l => l.filter fun q => decide (q < 192) && s.eligible q
  | _ => []

/-- The hash of a container's lookup (R157). -/
def routeHash (c : Container) : Nat := hashOf (lookupNode c) c.offset

/-- The port that R157 chooses among the eligible ports. -/
def State.choosePort (s : State) (c : Container) (l : List Nat) : Option Nat :=
  let h := if s.role = 1 then routeHash c / 2 ^ 16 % 2 ^ 16 else routeHash c % 2 ^ 16
  if l.length = 0 then none else l[h % l.length]?

/-- A candidate offered at an output; it contends in the next slot (R165), from which its stay counts. -/
def State.offer (s : State) (port : Nat) (x : EddyEnt) : State :=
  { s with rp := { s.rp with
    cand := SMap.put (fun _ => []) s.rp.cand port (SMap.look (fun _ => []) s.rp.cand port ++ [x]) } }

/-- `s` with the warp plane of the Ronpex changed. -/
def State.modWarp (s : State) (f : Warp → Warp) : State := { s with rp := { s.rp with warp := f s.rp.warp } }

/-- A node that is UNROUTED is logged once a frame (R156, R455). -/
def State.logUnrouted (s : State) (p : Nat) (c : Container) : State :=
  let n := lookupNode c
  if s.rp.warp.logged.contains n then s
  else (s.rpCond 0x02 5 c.src p c.skein n (frameOf s.now % 2 ^ 32) (ofBool c.refl)).modWarp fun w => { w with logged := w.logged ++ [n] }

/-- A container whose entry is LOCAL reaches the Ronpex itself in the next slot (R156). -/
def State.goHome (s : State) (c : Container) : State := { s with rp := { s.rp with home := s.rp.home ++ [c] } }

/-- A container that no rule sends on goes back toward its source (R167): a reply, or a packed container that holds a
reply, and a reflected container are discarded; `noPath` where its entry has no eligible port, which DEFL 15 says
(R350). The way back is the route of its SRC, by which it may come home to this Ronpex; an UNROUTED one is logged (R156). -/
def State.reflect (s : State) (x : EddyEnt) (noPath : Bool) : State :=
  if holdsReply x.c || x.c.refl then s
  else
    let c := { x.c with refl := true, hops := 3, defl := if noPath then 15 else x.c.defl }
    match s.route c.src with
    | .unrouted => s.logUnrouted x.ingress c
    | .localMem => s.goHome c
    | r => match s.choosePort c (s.routePorts r) with
      | some p => s.offer p { x with c := c }
      | none => s

/-- A container that cannot leave by output `o` is deflected to another eligible port of its entry, or reflected
(R167); a reply of the memory agent goes back to the agent and is offered again (R252). -/
def State.divert (s : State) (o : Nat) (x : EddyEnt) : State :=
  if x.agent.isSome then s.offer o x
  else
    let alt := (s.routePorts (s.route (lookupNode x.c))).filter fun p => p != o
    let dmax := min (s.fld .ronpex (clusterBase (portCluster o) + 0x40000) 8 4) 14
    if !alt.isEmpty && decide (x.c.defl < dmax) then
      let c := { x.c with defl := x.c.defl + 1 }
      match alt[(routeHash c + c.defl) % alt.length]? with
      | some p => s.offer p { x with c := c }
      | none => s
    else s.reflect x false

/-- A container enters the crossbar (R156, R157): it goes to the port its entry chooses, or is reflected where none is eligible; one
whose node is UNROUTED is discarded and logged. -/
def State.toOutput (s : State) (r : Route) (x : EddyEnt) : State :=
  match r with
  | .unrouted => s.logUnrouted x.ingress x.c
  | .localMem => s.goHome x.c
  | _ => match s.choosePort x.c (s.routePorts r) with
    | some p => s.offer p x
    | none => s.reflect x true

end Sys2Proof.Machine
end

