-- ==== Sys2Proof/Machine/Send.lean ====
section
/-! DEFINITION. MGMT messages (R392, R393): their bytes, and how a part sends one; the change log of the Plocen (R403),
which copies entries to a Ronpex by such a message. -/

namespace Sys2Proof.Machine

open Sys2Proof

/-! ### Payload bytes -/

/-- The 8-byte header and body of a MGMT payload (R392). -/
def mgmtPack (mtype : Nat) (body : List Byte) : List Byte :=
  leBytes 2 mtype ++ leBytes 2 body.length ++ leBytes 4 0 ++ body

/-- The body of ASSIGN and ASSIGN_ACK (R392). -/
def assignBody (skein : Nat) (isSealed : Bool) (slots epoch node : Nat) : List Byte :=
  leBytes 1 skein ++ leBytes 1 (ofBool isSealed) ++ leBytes 2 slots ++ leBytes 2 epoch ++ leBytes 2 (node % 2 ^ 15)

/-- The body of a SWITCH_ORDER (R393). -/
def orderBody (o : SwitchOrder) : List Byte :=
  leBytes 5 (packFields [(8, o.kind), (8, o.cls), (8, o.plane), (8, o.pairs.length), (8, o.unitType)]) ++ leBytes 1 0
    ++ leBytes 2 o.unit ++ leBytes 2 o.gen ++ leBytes 6 0 ++ leBytes 8 o.skeins.toNat ++ leBytes 4 o.faultFrame
    ++ leBytes 4 o.effective
    ++ sliceBytes (o.pairs.flatMap fun p => leBytes 4 (packFields [(8, p.1), (8, p.2.1), (8, p.2.2)])) 0 64

/-- The record of R357. -/
def reportBody (r : Report) : List Byte :=
  leBytes 1 r.type ++ leBytes 1 r.plane ++ leBytes 2 (r.target % 2 ^ 15) ++ leBytes 2 r.epoch ++ leBytes 2 r.suppressed
    ++ leBytes 8 r.time

/-- The bytes of a MGMT payload (R392). -/
def mgmtBytes : Mgmt → List Byte
  | .assign k b sl e n => mgmtPack 1 (assignBody k b sl e n)
  | .assignAck k b sl e n => mgmtPack 2 (assignBody k b sl e n)
  | .portRelease p g => mgmtPack 3 (leBytes 2 p ++ leBytes 2 g)
  | .switchOrder o => mgmtPack 4 (orderBody o)
  | .epochOrder e f => mgmtPack 5 (leBytes 4 e ++ leBytes 4 f)
  | .snapshotOrder t n k => mgmtPack 6 (leBytes 8 t ++ leBytes 8 n ++ leBytes 8 k.toNat)
  | .pathLoss p t => mgmtPack 7 (leBytes 8 p ++ leBytes 8 t)
  | .report r => mgmtPack 8 (reportBody r)
  | .logCopy e => mgmtPack 9 (logBytes e.body ++ leBytes 4 e.chain.toNat)
  | .raw b => b

/-- The rename pairs of a SWITCH_ORDER (R393). -/
def pairsOf : Nat → List Byte → List (Nat × Nat × Nat)
  | 0, _ => []
  | n + 1, b => (fieldNat b 0 1, fieldNat b 1 1, fieldNat b 2 1) :: pairsOf n (b.drop 4)

/-- The message that a MGMT payload holds (R392). -/
def mgmtOf (b : List Byte) : Mgmt :=
  let y := b.drop 8
  let f := fieldNat y
  match fieldNat b 0 1 with
  | 1 => .assign (f 0 1 % 64) (bit 0 (f 1 1)) (f 2 2) (f 4 2) (f 6 2 % 2 ^ 15)
  | 2 => .assignAck (f 0 1 % 64) (bit 0 (f 1 1)) (f 2 2) (f 4 2) (f 6 2 % 2 ^ 15)
  | 3 => .portRelease (f 0 1) (f 2 2)
  | 4 => .switchOrder { kind := f 0 1 % 4, cls := f 1 1 % 8, plane := f 2 1 % 8, unitType := f 4 1, unit := f 6 2,
                        gen := f 8 2, skeins := BitVec.ofNat 64 (f 16 8), faultFrame := f 24 4, effective := f 28 4,
                        pairs := pairsOf (min (f 3 1) 16) (y.drop 32) }
  | 5 => .epochOrder (f 0 2) (f 4 4)
  | 6 => .snapshotOrder (f 0 8) (f 8 2) (BitVec.ofNat 64 (f 16 8))
  | 7 => .pathLoss (f 0 1) (f 8 8)
  | 8 => .report { type := f 0 1, plane := f 1 1, target := f 2 2 % 2 ^ 15, epoch := f 4 2, suppressed := f 6 2,
                   time := f 8 8 }
  | 9 => .logCopy {
      body := { time := f 0 8, type := f 8 1, origin := f 9 1, requester := f 10 2, port := f 12 1, skein := f 13 1,
                addr := f 16 4, old := BitVec.ofNat 32 (f 20 4), new := BitVec.ofNat 32 (f 24 4) }
      chain := BitVec.ofNat 32 (f 28 4) }
  | _ => .raw b

/-- MTYPE of a message (R392), as a refused one is logged (R455). -/
def mtypeOf : Mgmt → Nat
  | .assign .. => 1
  | .assignAck .. => 2
  | .portRelease .. => 3
  | .switchOrder .. => 4
  | .epochOrder .. => 5
  | .snapshotOrder .. => 6
  | .pathLoss .. => 7
  | .report .. => 8
  | .logCopy .. => 9
  | .raw b => fieldNat b 0 1

/-! ### Containers of a source (R160-R163) -/

/-- AGE: bits 20:5 of fabric time (R163). -/
def ageOf (now : Nat) : Nat := bits 5 16 now

/-- The next unordered SEQ toward a node. -/
def Source.nextSeq (x : Source) (dest : Nat) : Nat := SMap.look (fun _ => 0) x.next dest

/-- A container that is being formed, its source data still being read (R55), or that waits to be formed again (R125). -/
def Held.forming (h : Held) : Bool :=
  match h.loc with
  | .forming _ => true
  | .again => true
  | _ => false

/-- The lowest of several SEQs of one sequence space. -/
def lowestSeq (l : List Nat) : Nat := l.tail.foldl (fun b q => if 2 ^ 31 ≤ subMod 32 q b then q else b) (l.headD 0)

/-- The unacknowledged SEQs of a sequence space (R163): of a stream, or of the unordered messages toward a node. Work for the own node
takes no part in it (R40). -/
def Source.unacked (x : Source) (dest : Nat) (stream : Option Nat) : List Nat :=
  (x.held.filter fun g => g.numbered && g.loc != .own && match stream with
    | some st => g.c.stream == st
    | none => g.c.dest == dest).flatMap fun g =>
      (g.msgs.filter fun y => !y.answered && y.msg.ord == stream.isSome).map fun y : SentMsg => y.msg.seq

/-- Nothing of a sequence space is unacknowledged: SYNC of R149. -/
def Source.idleTo (x : Source) (dest : Nat) (stream : Option Nat) : Bool := (x.unacked dest stream).isEmpty

/-- A message that waits for its answer, of an operation that lands nothing. -/
def plainSent (m : Msg) (own : Owner) : SentMsg :=
  { msg := m, owner := own, land := 0, hank := 0, wants := 0, decrypt := false, page := 0, owes := false, answered := false }

/-- Own node number of a part: PST.NODE, or EP_SEC.NODE (R304). -/
def State.ownNode (s : State) : Part → Nat
  | .ronpex => bits 0 15 (s.rp.pst.word Reg.pstNode)
  | .plocen => s.fld .plocen Reg.epSecNode 0 15

/-- Epoch of a part: FMH.EPOCH or EP_SEQ.EPOCH (R355). -/
def State.epoch (s : State) : Part → Nat
  | .ronpex => s.fld .ronpex Reg.fmhEpoch 0 16
  | .plocen => s.fld .plocen Reg.epSeqEpoch 0 16

/-- Retry limits of a source: RETRY_TMO in us, MAX_TMO and LIFE in us. Those of a Plocen's registers (R180); those of
R259 at a Ronpex, for its MGMT containers too (DEDUCED, log 11). -/
def State.limits (s : State) : Part → Nat × Nat × Nat
  | .ronpex => (40, 4, 800)
  | .plocen => (s.fld .plocen Reg.epSeqTmo 0 16, s.fld .plocen Reg.epSeqTmo 16 8, s.fld .plocen Reg.epSeqLife 0 10)

/-- HOPS that a source sets (R168): EP_SEQ.CTL.HOPS; 3 at a Ronpex, as R167 sets it (DEDUCED, log 11). -/
def State.sourceHops (s : State) : Part → Nat
  | .ronpex => 3
  | .plocen => max (s.fld .plocen Reg.epSeqCtl 0 4) 1

/-- Bytes of the retransmit and reply-reservation store in use: 800 for a container and its reservation (R162). -/
def Source.bytes (x : Source) : Nat := ((x.held.filter fun h => h.room).map fun h => 800 + h.reserve).sum

/-- The store has room for one more container with a reservation (R162). -/
def State.storeRoom (s : State) (reserve : Nat) : Bool := decide (s.ep.src.bytes + 800 + reserve ≤ 2 ^ 24)

/-- A new unordered container of one message in the retransmit store of a part, with the next SEQ toward its
destination (R163); one of a Plocen whose store has no room waits for it (R162). -/
def State.hold (s : State) (p : Part) (dest skein plane planes : Nat) (loc : HeldAt) (m : Msg) (own : Owner) :
    State × Held :=
  let x := s.source p
  let seq := x.nextSeq dest
  let m := { m with seq := seq }
  let c := sealed (containerOf { dest := dest, src := s.ownNode p, skein := skein, epoch := s.epoch p % 256,
                                 age := ageOf s.now, win := ofBool (p == .ronpex) * 64, stream := 0, sync := x.idleTo dest none } [m])
  let c := { c with hops := s.sourceHops p }
  let (retry, maxT, life) := s.limits p
  let h : Held := { id := x.nextId, c := c, msgs := [plainSent m own], planes := planes, plane := plane, direct := false,
                    small := false, xtags := [], room := p == .ronpex || s.storeRoom (if m.opc = 2 then m.len else 0), shuttle := none, numbered := true, loc := loc, formedAt := s.now, first := none, due := s.now + 1000 * retry,
                    tmo := 0, refls := 0, retryUs := retry, maxTmo := maxT, lifeUs := life, reserve := if m.opc = 2 then m.len else 0 }
  (s.setSource p { x with
      held := x.held ++ [h], nextId := x.nextId + 1, next := SMap.put (fun _ => 0) x.next dest ((seq + 1) % 2 ^ 32) }, h)

/-- Where the credits of a node and plane are kept; a Ronpex has one plane, kept as 0. -/
def creditKey (node plane : Nat) : Nat := node * 8 + plane % 8

/-- A container that has been injected holds a credit until it ends, or moves to another plane (R160). -/
def Held.hasCredit (h : Held) : Bool :=
  match h.loc with
  | .port => true
  | .sent => true
  | .backoff _ => true
  | _ => false

/-- Credits in use toward a node on a plane. -/
def Source.creditsUsed (x : Source) (node plane : Nat) : Nat := SMap.look (fun _ => 0) x.used (creditKey node plane)

/-- The credit that a container holds is released. -/
def Source.freeCredit (x : Source) (h : Held) : Source :=
  if h.hasCredit then
    { x with used := SMap.put (fun _ => 0) x.used (creditKey h.c.dest h.plane) (x.creditsUsed h.c.dest h.plane - 1) }
  else x

/-- The window that a destination grants on a plane (R160, R161): that of EP_SEQ.CRED until one is announced. -/
def State.windowOf (s : State) (p : Part) (node plane : Nat) : Nat :=
  let w := SMap.look (fun _ => 0) (s.source p).window (creditKey node plane)
  if w ≠ 0 then w
  else match p with
    | .ronpex => 64
    | .plocen => max (s.fld .plocen Reg.epSeqCred 0 7) 1

/-- A container keeps the limits on unacknowledged SEQs: none of its messages is 256 or more beyond the oldest of its stream (R65), nor
1,024 or more beyond the oldest unordered one toward its node (R163). -/
def Source.inLimit (x : Source) (h : Held) : Bool :=
  h.first.isSome || h.msgs.all fun y =>
    if y.msg.ord then decide (subMod 32 y.msg.seq (lowestSeq (x.unacked h.c.dest (some h.c.stream))) < 256)
    else decide (subMod 32 y.msg.seq (lowestSeq (x.unacked h.c.dest none)) < 1024)

/-- Work of a relay. -/
def Owner.isRelay (o : Owner) : Bool :=
  match o with
  | .relay _ => true
  | _ => false

/-- A HANK_SET of a relay goes nowhere while its skein is QUIESCENT (R303) or deferrable work is held (R369). -/
def State.relayHeld (s : State) (h : Held) : Bool :=
  (h.msgs.any fun y => y.owner.isRelay) && (s.workHeld || s.skeinState h.c.skein == 1)

/-- A container of a Ronpex that waits may go (R160, R163). -/
def State.rpMayPush (s : State) (h : Held) : Bool :=
  h.loc == .waiting && !s.relayHeld h && decide (s.rp.src.creditsUsed h.c.dest 0 < s.windowOf .ronpex h.c.dest 0) && s.rp.src.inLimit h

/-- A container of a Ronpex goes (R163): to the port it names, or where its route leads. -/
def State.rpSend (s : State) (h : Held) : State :=
  let x : EddyEnt := { c := { h.c with refl := false, defl := 0, hops := 3 }, ingress := 255, since := s.now, agent := none }
  if h.plane = 0 then s.toOutput (s.route h.c.dest) x else s.offer (h.plane / 8 - 1) x

/-- Containers of a Ronpex that wait and may go take their credits and go, oldest first (R160, R163). -/
def State.rpPush (s : State) : State :=
  s.rp.src.held.foldl (fun t h =>
    if !t.rpMayPush h then t
    else
      let src := t.rp.src
      let k := creditKey h.c.dest h.plane
      let age : Nat := if h.first.isSome then h.c.age else ageOf t.now
      let g : Held := { h with c := { h.c with age := age }, loc := .sent, first := some (h.first.getD t.now), due := t.now + 1000 * h.retryUs }
      let g : Held := { g with c := sealed g.c }
      let t1 := t.setSource .ronpex { src with
        held := src.held.map fun y : Held => if y.id = h.id then g else y
        used := SMap.put (fun _ => 0) src.used k (src.creditsUsed h.c.dest h.plane + 1) }
      t1.rpSend g) s

/-- The message of a MGMT container (R152, R392). -/
def mgmtMsg (m : Mgmt) : Msg :=
  { opc := 0x3E, len := (mgmtBytes m).length, reply := false, ord := false, hank := 0, seq := 0, offset := 0, ttag := 0,
    data := mgmtBytes m }

/-- The Ronpex sends a MGMT message out of a port (R304, R392): skein 0, held until it is answered. -/
def State.rpMgmtPort (s : State) (port dest : Nat) (m : Mgmt) (own : Owner) : State :=
  (s.hold .ronpex dest 0 (8 * (port + 1)) 0 .waiting (mgmtMsg m) own).1.rpPush

/-- The Ronpex sends a MGMT message to the node that its route table leads to. -/
def State.rpMgmtNode (s : State) (dest : Nat) (m : Mgmt) (own : Owner) : State :=
  (s.hold .ronpex dest 0 0 0 .waiting (mgmtMsg m) own).1.rpPush

/-- Relay `m` sends the value of its counter in the ordered class (R259): stream `m` of the Ronpex, with SYNC where the
stream has nothing unacknowledged. -/
def State.relaySend (s : State) (m node hank skein value : Nat) : State :=
  let x := s.rp.src
  let st := (SMap.find? x.streams m).getD { dest := node, next := 0 }
  let msg : Msg := { opc := 4, len := 8, reply := false, ord := true, hank := hank, seq := st.next, offset := 0, ttag := 0
                     data := leBytes 8 value }
  let c : Container := { containerOf { dest := node, src := s.ownNode .ronpex, skein := skein, epoch := s.epoch .ronpex % 256
                                       age := ageOf s.now, win := 64, stream := m, sync := x.idleTo node (some m) } [msg] with hops := 3 }
  let (retry, maxT, life) := s.limits .ronpex
  let h : Held := { id := x.nextId, c := c, msgs := [plainSent msg (.relay m)], planes := 0, plane := 0, direct := false, small := false
                    xtags := [], room := true, shuttle := none, numbered := true, loc := .waiting, formedAt := s.now, first := none, due := s.now, tmo := 0, refls := 0, retryUs := retry
                    maxTmo := maxT, lifeUs := life, reserve := 0 }
  (s.setSource .ronpex { x with
    held := x.held ++ [h], nextId := x.nextId + 1, streams := SMap.set x.streams m { dest := node, next := (st.next + 1) % 2 ^ 32 } }).rpPush

/-- A port of the Plocen carries weft: it is up, has been released into service, and is none of those that a 4-module fit holds down
(R6, R123, R354). -/
def State.epLive (s : State) (p : Nat) : Bool :=
  s.portUp .plocen p && (s.ep.released.any fun x => x.1 == p) && !s.heldDown .plocen p

/-- The live planes of the Plocen, lowest first. -/
def State.livePlanes (s : State) : List Nat := (List.range 8).filter s.epLive

/-- The Plocen sends a MGMT message to the Ronpex of a plane: skein 0, held until it is answered. -/
def State.epMgmt (s : State) (plane : Nat) (m : Mgmt) : State :=
  (s.hold .plocen (s.fld .plocen (Reg.epSeqWnode plane) 0 15) 0 plane (2 ^ plane) .waiting (mgmtMsg m) (.mgmt 0)).1

/-- The Plocen sends a MGMT message to the Ronpex of its lowest-numbered live plane; with none live nothing is sent. -/
def State.epMgmtLowest (s : State) (m : Mgmt) : State :=
  match s.livePlanes with
  | [] => s
  | p :: _ => s.epMgmt p m

/-! ### The change log of the Plocen (R403) -/

/-- What the Plocen's own ring keeps of an entry: REQUESTER, PORT and SKEIN of a violation and of a condition found in
arriving traffic are zero. -/
def ownEntry (b : LogBody) : LogBody :=
  if b.type = 5 || (b.type = 7 && b.origin = 5) then { b with requester := 0, port := 0, skein := 0 } else b

/-- The Plocen logs an entry; it copies types 3, 4 and 5 to the Ronpex, at most 64 in any 100 us (R403). -/
def State.epLog (s : State) (b : LogBody) : State :=
  let l := s.ep.log.append 4096 Config.plocenSerial (ownEntry b)
  let recent := l.copies.filter fun t => decide (s.now < t + 100000)
  let copied := b.type == 3 || b.type == 4 || b.type == 5
  let room := decide (recent.length < 64) && !s.livePlanes.isEmpty
  let s1 := { s with ep := { s.ep with log := { l with copies := if copied && room then recent ++ [s.now] else recent } } }
  if !copied then s1
  -- the copy is of the full entry, with the CHAIN of the ring's own
  else if room then s1.epMgmtLowest (.logCopy { body := b, chain := ((l.ents.getLast?.map fun e => e.chain).getD 0) })
  else s1.satFld .plocen Reg.epSecLogCopylost 0 32 1

/-- The Plocen logs a condition. -/
def State.epCond (s : State) (code origin requester port skein addr old new : Nat) : State :=
  s.epLog (condBody s.now code origin requester port skein addr old new)

/-- A part logs an entry. -/
def State.plog (s : State) (p : Part) (b : LogBody) : State :=
  match p with
  | .ronpex => s.rpLog b
  | .plocen => s.epLog b

/-- A part logs a condition. -/
def State.pcond (s : State) (p : Part) (code origin requester port skein addr old new : Nat) : State :=
  s.plog p (condBody s.now code origin requester port skein addr old new)

/-- The log entry of a register write (R400): OLD is what a read would have returned; both values are zero where R341
requires. -/
def State.writeBody (s : State) (p : Part) (a : Nat) (v : Nat) (w : Writer) (type : Nat) : LogBody :=
  let hide := p == .ronpex && s.closedState a
  { time := s.now, type := type, origin := w.origin, requester := w.requester, port := 255, skein := 0, addr := a,
    old := if hide then 0 else BitVec.ofNat 32 (s.regRead p a), new := if hide then 0 else BitVec.ofNat 32 v }

/-- An entry of skein origin (R400): both values are zero while the skein occupies the package as a confidential one (R341). -/
def State.skeinBody (s : State) (k : Nat) (b : LogBody) : LogBody :=
  let hide := s.occupant == some k
  { b with skein := k + 128, old := if hide then 0 else b.old, new := if hide then 0 else b.new }

/-- Registers of the Plocen whose writes are ring traffic and are not logged (R403). -/
def ringTraffic (p : Part) (a : Nat) : Bool :=
  p == .plocen && ((decide (0x400000 ≤ a) && decide (a < 0x800000)) || a == Reg.epXltFillDb || a == Reg.epXltMissDb
    || a == Reg.epXltArm)

/-- A register write is logged, whether it takes effect or is ignored (R16, R403). -/
def State.logWrite (s : State) (p : Part) (a : Nat) (v : Nat) (w : Writer) : State :=
  if ringTraffic p a then s else s.plog p (s.writeBody p a v w 0)

/-- A register write reaches a part: it is logged, and then has the effect `f`. The hub accepts no write once its supply
monitor has tripped (R398), and the I3C interface writes HUB.CTL only (R384). -/
def State.wrote (s : State) (p : Part) (a v : Nat) (w : Writer) (f : State → State) : State :=
  if (p == .ronpex && s.rp.power.supplyLost) || (p == .plocen && !s.attOn) then s
  else
    let s1 := s.logWrite p a v w
    if p == .ronpex && w.origin == 1 && a != Reg.hubCtl then s1 else f s1

end Sys2Proof.Machine
end

