-- ==== Sys2Proof/Machine/Flags.lean ====
section
/-! DEFINITION. Error bits and what setting one does (R88, R93, R246, R264, R300, R301, R343, R344, R390), and the
Plocen's transmissions on its attach link (R69-R79), by which its interrupts leave. -/

namespace Sys2Proof.Machine

open Sys2Proof

/-! ### Transmission on the attach link (R69-R75) -/

/-- `s` with the attach link changed. -/
def State.modAtt (s : State) (f : Attach → Attach) : State := { s with ep := { s.ep with att := f s.ep.att } }

/-- A store to a doorbell of the register window, which reaches the Plocen over the attach link: it is accepted while that link
carries traffic (R84, R92). -/
def State.viaAttach (s : State) (f : State → State) : State := if s.attOn then f s else s

/-- The body of a data flit: 15 chunks, unused ones no-ops (R69, R72). -/
def flitBody (cs : List (BitVec 128)) : List (BitVec 128) := cs.take 15 ++ List.replicate (15 - (cs.take 15).length) 0

/-- ACK, REQ_CRD and CPL_CRD of a flit that goes out now (R69, R70). Before any data flit has come, ACK is the SEQ before 0
(DESIGN CHOICE, log 116). -/
def State.totals (s : State) : Nat × Nat × Nat :=
  ((s.ep.att.rxSeq + 4095) % 4096, s.ep.att.a2pFreed % 65536, s.ep.att.cplFreed % 65536)

/-- A flit of the Plocen with its running fields and its CRC (R69, R70). -/
def State.flitOf (s : State) (kind seq : Nat) (body : List (BitVec 128)) : Flit :=
  sealedFlit { kind := kind, seq := seq, ack := s.totals.1, body := body, reqCrd := s.totals.2.1, cplCrd := s.totals.2.2, crc := 0 }

/-- A flit goes out (R69). -/
def State.sendFlit (s : State) (kind seq : Nat) (body : List (BitVec 128)) : State :=
  (s.emit (.flit (s.flitOf kind seq body))).modAtt fun a => { a with told := s.totals }

/-- A control flit goes out (R72). -/
def State.sendControl (s : State) (subtype : Nat) (params : List Byte) : State :=
  s.sendFlit 2 (Config.controlSeq s.ep.att.txSeq) (controlBody subtype params)

/-- The link passes flits: its fit is agreed, it is not lost and not retraining (R71, R90, R92). -/
def State.flitsRun (s : State) : Bool := s.ep.att.exchanged && !s.ep.att.down && s.ep.att.retrainAt.isNone

/-- An idle flit goes out where the acknowledgement or a credit total has moved since the last flit sent (R70): idle flits that would
repeat that flit's totals are left out (DESIGN CHOICE, log 117). -/
def State.idleFlit (s : State) : State :=
  if s.flitsRun && s.ep.att.told != s.totals then s.sendFlit 0 (Config.controlSeq s.ep.att.txSeq) (List.replicate 15 0) else s

/-- Chunks go out in data flits of 15, each kept until it is acknowledged (R70, R71). Each batch of chunks begins a new flit, filled up
with no-ops (DESIGN CHOICE, log 118). -/
def State.sendChunks : Nat → List (BitVec 128) → State → State
  | 0, _, s => s
  | n + 1, cs, s =>
    if cs.isEmpty then s
    else
      let b := flitBody cs
      let q := s.ep.att.txSeq
      State.sendChunks n (cs.drop 15)
        ((s.sendFlit 1 q b).modAtt fun a =>
          { a with txSeq := (q + 1) % 4096, txHeld := a.txHeld ++ [(q, b)] })

/-- A transaction goes out (R72, R77). -/
def State.sendTxn (s : State) (t : Txn) : State := ((s.emit (.attach t)).sendChunks 18 (chunksOf t))

/-- Waiting completions go out in order, while the link carries traffic and there is replay room (R71). -/
def State.pumpCpl : Nat → State → State
  | 0, s => s
  | n + 1, s =>
    match s.ep.att.cplQueue with
    | [] => s
    | t :: rest =>
      if !s.attOn || decide (1024 < s.ep.att.txHeld.length + 2) then s
      else State.pumpCpl n ((s.modAtt fun a => { a with cplQueue := rest }).sendTxn t)

/-- The completion of a load or a refused access, toward the accelerator (R85). -/
def State.complete (s : State) (rid tag addr status len : Nat) (data : List Byte) : State :=
  if s.ep.att.active && !s.ep.att.down then
    let t : Txn := { opc := 0x21, tag := tag, rid := rid, len := len, relax := false, space := false, status := status,
                     addr := addr, aux := 0, data := sliceBytes data 0 len }
    let s1 := s.modAtt fun a => { a with cplQueue := a.cplQueue ++ [t] }
    s1.pumpCpl s1.ep.att.cplQueue.length
  else s

/-- The lowest tag of P2A_REQ that is free (R77; which free tag is used is a DESIGN CHOICE, log 13). -/
@[irreducible] def freeTag (tags : SMap AttTag) : Option Nat := (List.range 4096).find? fun t => !tags.any fun e => e.1 == t

/-- The transaction of a request of the Plocen (R77, R78). -/
def AttReq.txn (r : AttReq) (tag : Nat) : Txn :=
  { opc := r.kind, tag := tag, rid := 0, len := max r.len 1, relax := false, space := false, status := 0, addr := r.addr,
    aux := r.aux, data := r.data }

/-- Waiting P2A_REQ transactions go out in order, while the link carries traffic, the accelerator's INIT has advertised credit, and
there are a tag, credit for every chunk (R74) and replay room (R71). -/
def State.pump : Nat → State → State
  | 0, s => s
  | n + 1, s =>
    match s.ep.att.queue with
    | [] => s
    | r :: rest =>
      let a := s.ep.att
      let k := txnChunks r.kind r.len
      let credit := a.initSeen && (a.p2aLimit == 0 || decide (a.p2aUsed + k ≤ a.p2aLimit + a.p2aFreed))
      if !s.attOn || !credit || decide (1024 < a.txHeld.length + 2) then s
      else
        match r.use with
        | none =>
          State.pump n ((s.modAtt fun b => { b with queue := rest, p2aUsed := b.p2aUsed + k }).sendTxn (r.txn 0))
        | some u =>
          match freeTag a.tags with
          | none => s
          | some tag =>
            let x : AttTag := { use := u, isRead := r.kind == 1, addr := r.addr, len := r.len, got := 0,
                                data := List.replicate (if r.kind == 1 then r.len else 0) 0, sentAt := s.now, dead := false, void := false }
            State.pump n ((s.modAtt fun b => { b with queue := rest, p2aUsed := b.p2aUsed + k,
                                                      tags := SMap.set b.tags tag x }).sendTxn (r.txn tag))

/-- Requests of the Plocen are queued and what may go out goes out. While the link is down nothing is sent (R90). -/
def State.request (s : State) (l : List AttReq) : State :=
  if s.ep.att.down then s
  else
    let s1 := s.modAtt fun a => { a with queue := a.queue ++ l }
    s1.pump s1.ep.att.queue.length

/-- An INTR message with its vector (R88). -/
def intrReq (v : Nat) : AttReq := { kind := 4, use := none, addr := 0, len := 1, data := [], aux := v }

/-- The pieces of a read or write of attach memory: at most 256 bytes each, none crossing a 256-byte boundary, so none
crosses a 4 KiB boundary (R78; the cut is a DESIGN CHOICE, log 13). -/
def cutPieces : Nat → Nat → Nat → List (Nat × Nat × Nat)
  | 0, _, _ => []
  | k + 1, addr, len =>
    if len = 0 then []
    else
      let n := min len (256 - addr % 256)
      (addr, 0, n) :: (cutPieces k (addr + n) (len - n)).map fun p => (p.1, p.2.1 + n, p.2.2)

/-- Address, offset and length of each piece of an access of `len` bytes. -/
def pieces (addr len : Nat) : List (Nat × Nat × Nat) := cutPieces (len / 256 + 2) addr len

/-! ### Landings and atomics on one 64-byte line (R59) -/

/-- An atomic operation (R152). -/
def isAtomic (opc : Nat) : Bool := decide (0x20 ≤ opc) && decide (opc ≤ 0x2D)

/-- `s` with the Plocen's destination side changed. -/
def State.modDest (s : State) (f : Dest → Dest) : State := { s with ep := { s.ep with dest := f s.ep.dest } }

/-- The 64-byte lines of attach memory that a started atomic is reading and writing. -/
def Dest.locked (d : Dest) : List Nat := (d.jobs.filter fun j => j.started && isAtomic j.arr.msg.opc).flatMap fun j => j.lines

/-- A write touches one of some lines. -/
def AttReq.touches (q : AttReq) (lines : List Nat) : Bool := (linesOf q.addr q.len).any fun x => lines.contains x

/-- Writes that land fabric data in attach memory go out, but for those to the line of a started atomic, which wait for its end: the
atomic is one step with respect to them (R59). -/
def State.landWrites (s : State) (l : List AttReq) : State :=
  let locked := s.ep.dest.locked
  (s.modDest fun d => { d with lineWait := d.lineWait ++ l.filter fun q => q.touches locked }).request
    (l.filter fun q => !q.touches locked)

/-- Landing writes that no started atomic keeps waiting any longer go out (R59). -/
def State.releaseLands (s : State) : State :=
  let l := s.ep.dest.lineWait
  (s.modDest fun d => { d with lineWait := [] }).landWrites l

/-- Whether an attach access lands fabric data that no request message of another source carries: a reply's, or a result cell's. -/
def AttUse.lands (u : AttUse) : Bool :=
  match u with
  | .landReply _ => true
  | .warpLand _ => true
  | _ => false

/-- A landing write to one of some lines waits, or is outstanding (R59). -/
def State.landingOn (s : State) (lines : List Nat) : Bool :=
  (s.ep.dest.lineWait.any fun q => q.touches lines)
    || (s.ep.att.queue.any fun q => (q.use.any fun u => u.lands) && q.touches lines)
    || s.ep.att.tags.any fun e => e.2.use.lands && !e.2.dead && (linesOf e.2.addr e.2.len).any fun x => lines.contains x

/-! ### Blocks received (R212, R329, R332, R333); a container or cell that arrives is what decryption at ingress gave (log 180) -/

/-- The CRC of R151 holds over the 800 bytes of a block. -/
def crcHolds (b : List Byte) : Bool := decide (fieldNat b 28 4 = crc32 (b.take 28 ++ b.drop 32))

/-- The frame in which a block that is received in the slot of time `t` was sent (R212). -/
def Link.sentIn (l : Link) (t : Nat) : Nat := frameOf (t - slotNs * l.delayIn)

/-- The blocks received from now on were sent in frame `f`: the XOR of another frame is whole, and waits to be compared (R332). -/
def Link.rxTo (l : Link) (f : Nat) : Link :=
  let k := l.keys
  if f = k.rxFrame then l
  else { l with keys := { k with
    rxFrame := f, rxTag := 0, rxClean := true
    rxDone := if k.rx.isSome then ((k.rxFrame, k.rxTag, k.rxClean) :: k.rxDone).take 64 else k.rxDone } }

/-- The receive key of a rekey is used from the slots on that were sent under it (R333). -/
def LinkKeys.rxSwitch (k : LinkKeys) (t : Nat) : LinkKeys :=
  match k.rxNext with
  | none => k
  | some (key, since) =>
    if t < since then k
    else { k with rx := some key, rxCnt := 0, rxNext := none, old := k.old.map fun o : OldKeys => { o with rx := k.rx.getD 0, rxCnt := k.rxCnt } }

/-- The first 4 blocks after F' at an end that acknowledged (R333): where they all fail the CRC of R151 under the new key and pass it under
the old one, the old keys stay in both directions until a new SWITCH (DEDUCED, log 93); `n` is the count of block `b`. -/
def LinkKeys.probe (k : LinkKeys) (key : BitVec 288) (n : Nat) (b : Block) : LinkKeys :=
  match k.old with
  | none => k
  | some o =>
    if k.rxNext.isSome then k
    else if !crcHolds (blockBytes b) && crcHolds (blockPlain o.rx (o.rxCnt + o.tried) (blockCipher key n (blockBytes b))) then
      if o.tried < 3 then { k with old := some { o with tried := o.tried + 1 } }
      else { k with
        tx := some o.tx, rx := some o.rx, txCnt := o.txCnt + k.txCnt, rxCnt := o.rxCnt + 4, fresh := some o.fresh, rekeyAt := some o.since, old := none }
    else { k with old := none }

/-- A block has been received in the slot of time `t`: the receive counter advances, and the block's tag joins those of the frame in which it
was sent. -/
def Link.rxCount (l : Link) (t : Nat) (b : Block) : Link :=
  let l1 := l.rxTo (l.sentIn t)
  let k := l1.keys.rxSwitch t
  match k.rx with
  | none => { l1 with keys := k }
  | some key =>
    let k1 : LinkKeys := { k with rxCnt := k.rxCnt + 1, rxTag := k.rxTag ^^^ blockTag key k.rxCnt (blockBytes b) }
    { l1 with keys := k1.probe key k.rxCnt b }

/-- Slots before time `t` of which it was not known are known now: each held a fill block. -/
def Link.fillsTo (l : Link) (t : Nat) : Link :=
  (l.pend.filter fun x => decide (x.1 < t)).foldl (fun l x => l.rxCount x.1 .fill) { l with pend := l.pend.filter fun x => decide (t ≤ x.1) }

/-- Light is modulated again in the present slot: while it was not, only slots after a run of IDLE slots of the draft held a block (R279-R281). -/
def Link.wakes (l : Link) : Link :=
  if !l.rxIdle then l
  else { l with
    rxIdle := false
    pend := if l.pend.any fun x => x.2 then (l.pend.reverse.takeWhile fun x => !x.2).reverse else [] }

/-- KEYGEN of a port (R343, R344). -/
def keygenReg (p : Part) (port : Nat) : Nat :=
  match p with
  | .ronpex => Reg.secPKeygen port
  | .plocen => Reg.epSecPKeygen port

/-- `s` with a port's link after some of what it received has been counted. Where the old keys come back, so does their generation. -/
def State.rxLink (s : State) (p : Part) (port : Nat) (l1 : Link) : State :=
  let s1 := s.setLink p port l1
  match (s.link p port).keys.old with
  | some o => if l1.keys.old.isNone && l1.keys.fresh.isSome then s1.setFld p (keygenReg p port) 0 16 o.gen else s1
  | none => s1

/-- A block has been received on a port in the present slot. -/
def State.rxBlock (s : State) (p : Part) (port : Nat) (b : Block) : State :=
  let l1 := (((s.link p port).wakes.fillsTo s.now).rxCount s.now b)
  s.rxLink p port { l1 with keys := { l1.keys with rxSlot := some s.now } }

/-- The container of the present slot of a port is discarded: an uncorrectable codeword touched it (R273). -/
def State.slotLost (s : State) (p : Part) (port : Nat) : Bool := (s.link p port).lost.contains (s.now - s.now % slotNs)

/-! ### Error bits of the Plocen -/

/-- Bits of EP_ATT.ERR (R93). -/
def errCrc : Nat := 0
/-- REPLAY_LIMIT (R93). -/
def errReplay : Nat := 1
/-- CREDIT (R93). -/
def errCredit : Nat := 2
/-- MALFORMED (R93). -/
def errMalformed : Nat := 3
/-- ACC_TIMEOUT (R93). -/
def errAccTimeout : Nat := 4
/-- ACC_ERROR (R93). -/
def errAccError : Nat := 5
/-- UNSUPPORTED (R93). -/
def errUnsupported : Nat := 6
/-- LINK_DOWN (R93). -/
def errLinkDown : Nat := 7
/-- SEG_DISABLED (R93). -/
def errSegDisabled : Nat := 8
/-- OPTICS (R93). -/
def errOptics : Nat := 9
/-- SECURITY (R93). -/
def errSecurity : Nat := 10

/-- A bit of EP_ATT.ERR is set; vector 1,025 is sent when it was 0 and ERR_EN is 1 (R88, R93). -/
def State.epErr (s : State) (b : Nat) : State :=
  if s.flag .plocen Reg.epAttErr b then s
  else
    let s1 := s.setFlag .plocen Reg.epAttErr b true
    if s.flag .plocen Reg.epAttCtl 1 then s1.request [intrReq 1025] else s1

/-- A bit of EP_OPT.ERR is set, and EP_ATT.ERR.OPTICS (R93, R301). -/
def State.epOptError (s : State) (b : Nat) : State := (s.setFlag .plocen Reg.epOptErr b true).epErr errOptics

/-! ### Error bits of the Ronpex -/

/-- Vector 3 (R384): sent when HUB.ERRSUM leaves 0 (DESIGN CHOICE, log 14). -/
def State.errsumMsix (s before : State) : State := if before.errsum = 0 ∧ s.errsum ≠ 0 then s.msix 3 else s

/-- A bit of SEC.ERR or EP_SEC.ERR is set (R343, R344): a SECURITY event, or EP_ATT.ERR.SECURITY. -/
def State.secError (s : State) (p : Part) (b port : Nat) : State :=
  match p with
  | .ronpex =>
    let s1 := s.setFlag .ronpex Reg.secErr b true
    (s1.post (plainEvent s.now 0x40 (2 ^ b + 256 * port))).errsumMsix s
  | .plocen => (s.setFlag .plocen Reg.epSecErr b true).epErr errSecurity

/-- A bit of FMH.ERR is set and posted with its offset (R264, R390), with tenant records of a SCOPE for `skeins`. -/
def State.fmhError (s : State) (b offset scope : Nat) (skeins : List Nat) : State :=
  let s1 := s.setFlag .ronpex Reg.fmhErr b true
  (s1.postFor (plainEvent s.now 0x21 (2 ^ b + 2 ^ 32 * offset)) scope skeins).errsumMsix s

end Sys2Proof.Machine
end

