-- ==== Sys2Proof/Machine/DraftRec.lean ====
section
/-! DEFINITION. Draft images (R185-R189, R193, R195, R196): the entries and records of a draft slot, in the Ronpex's
draft stores and in the Plocen's slot-table store, and what a phase's record fixes (R194, R222, R226). -/

namespace Sys2Proof.Machine

open Sys2Proof

/-- A phase record (R195). -/
structure PhaseRec where
  kind : Nat
  op : Nat
  fin : Nat
  fout : Nat
  mode : Nat
  pattern : Nat
  members : Nat
  first : Nat
  last : Nat
  spGroup : Nat
  shOff : Nat
  contrib : Nat
  result : Nat
  planes : Nat
  shRounds : Nat
  topkK : Nat
  topkL : Nat
  rsv : Nat                 -- bytes 13 and 28-31 and MODE 7:5, which must be zero
  deriving DecidableEq, Repr

/-- The phase record in the eight words `w`. -/
def phaseOfWords (w : Nat → Nat) : PhaseRec :=
  { kind := bits 0 8 (w 0), op := bits 8 8 (w 0), fin := bits 16 8 (w 0), fout := bits 24 8 (w 0)
    mode := bits 0 8 (w 1), pattern := bits 8 8 (w 1), members := bits 16 16 (w 1)
    first := bits 0 16 (w 2), last := bits 16 16 (w 2), spGroup := bits 0 8 (w 3), shOff := bits 16 16 (w 3)
    contrib := w 4, result := w 5, planes := bits 0 8 (w 6), shRounds := bits 8 8 (w 6), topkK := bits 16 8 (w 6)
    topkL := bits 24 8 (w 6), rsv := bits 8 8 (w 3) + w 7 + bits 5 3 (w 1) }

/-- A pattern record (R196). -/
structure PatRec where
  ready : Nat
  first : Nat
  last : Nat
  check : Nat
  stride : Nat
  rounds : Nat
  members : Nat
  rsv : Nat
  deriving DecidableEq, Repr

/-- The pattern record in the eight words `w`. -/
def patOfWords (w : Nat → Nat) : PatRec :=
  { ready := bits 0 8 (w 0), first := bits 8 8 (w 0), last := bits 16 8 (w 0), check := bits 24 8 (w 0)
    stride := bits 0 8 (w 1), rounds := w 2, members := bits 0 16 (w 3)
    rsv := bits 8 24 (w 1) + bits 16 16 (w 3) + w 4 + w 5 + w 6 + w 7 }

/-- What a phase's record says of its reduction (R195, R224). -/
def PhaseRec.red (r : PhaseRec) : RedOp :=
  { op := r.op, fin := r.fin, fout := r.fout, classF := bit 0 r.mode, w := windowOf r.mode, stoch := bit 3 r.mode }

/-- MODE.SHADOW. -/
def PhaseRec.shadow (r : PhaseRec) : Bool := bit 4 r.mode

/-- The planes that carry slices of a phase, in ascending order (R194). -/
def PhaseRec.planeList (r : PhaseRec) : List Nat := setBitsOf 8 r.planes

/-- Bytes of one slice of a phase's contribution in a round (R194). -/
def PhaseRec.sliceIn (r : PhaseRec) : Nat := r.contrib / max r.planeList.length 1

/-- Bytes of one slice of a phase's result in a round (R194, R226). -/
def PhaseRec.sliceOut (r : PhaseRec) : Nat := r.result / max r.planeList.length 1

/-- Result cells of one slice of a round (R226). -/
def PhaseRec.cellsOut (r : PhaseRec) : Nat := (r.sliceOut + fmtBytes r.fout - 1) / fmtBytes r.fout

/-- A SUM phase that an anchor phase serves (R233): a Class D SUM on floating inputs. -/
def PhaseRec.anchoredSum (r : PhaseRec) : Bool :=
  r.kind == 3 && r.op == 1 && !bit 0 r.mode && !(r.fin == 0x05 || r.fin == 0x06)

/-- Elements of one slice of a round's contribution (R222, R226). -/
def PhaseRec.elemsIn (r : PhaseRec) : Nat :=
  let full := r.sliceIn / fmtBytes r.fin
  let rest := r.sliceIn % fmtBytes r.fin
  full * fmtElems r.fin + min (8 * (if fmtIsMx r.fin then rest - 24 else rest) / fmtBits r.fin) (fmtElems r.fin)

/-! ### The Plocen's slot table (R193) -/

/-- A word of the slot-table store. -/
def State.ptWord (s : State) (slot off : Nat) : Nat := s.reg .plocen (0x200000 + 0x20000 * slot + off / 4 * 4)

/-- The slot-table entry of port `j` for slot `n`. -/
def State.ptEntry (s : State) (slot n j : Nat) : Nat :=
  let o := 2 * (n * 8 + j)
  bits (8 * (o % 4)) 16 (s.ptWord slot o)

/-- A phase record of the Plocen. -/
def State.ptPhase (s : State) (slot ph : Nat) : PhaseRec := phaseOfWords fun i => s.ptWord slot (0x10000 + 32 * ph + 4 * i)

/-- A pattern record of the Plocen. -/
def State.ptPattern (s : State) (slot pat : Nat) : PatRec := patOfWords fun i => s.ptWord slot (0x12000 + 32 * pat + 4 * i)

/-- The draft slot in effect on a port of the Plocen (R209). -/
def State.ptSlot (s : State) (j : Nat) : Nat := s.fld .plocen (Reg.epSeqWport j) 0 3

/-- A draft is in effect on the Plocen. -/
def State.ptRunning (s : State) : Bool := s.flag .plocen Reg.epSeqWstat 3

/-- TXU of an entry (R193): 0 weft, 1 warp, 2 idle, 3 sky. -/
def entryTx (e : Nat) : Nat := bits 14 2 e
/-- RXU of an entry. -/
def entryRx (e : Nat) : Nat := bits 12 2 e
/-- TXPH of an entry. -/
def entryPh (e : Nat) : Nat := bits 0 8 e

/-- The slot-table entry of port `j` in the slot of fabric time `t`: every slot is weft while no draft is in effect
(R26), and warp entries are idle where R209 and R212 say and on a plane that has left the warp plane (R208). -/
def State.ptNow (s : State) (t j : Nat) : Nat :=
  if !s.ptRunning then 0
  else
    let e := s.ptEntry (s.ptSlot j) (slotOf t) j
    if s.ep.warp.idle.contains j || s.ep.warp.out.contains j then
      (if entryTx e = 1 then 2 else entryTx e) * 2 ^ 14 + (if entryRx e = 1 then 2 else entryRx e) * 2 ^ 12 + bits 0 12 e
    else e

/-! ### The Ronpex's drafts (R185-R189) -/

/-- Where a region's draft slot starts in the configuration space. -/
def draftBase (region slot : Nat) : Nat :=
  0x1000000 * (region / 4 + 1) + 0x400000 * (region % 4) + 0x300000 + 0x20000 * slot

/-- A word of a region's draft slot. -/
def State.rdWord (s : State) (region slot off : Nat) : Nat := s.reg .ronpex (draftBase region slot + off / 4 * 4)

/-- The frame-table entry of port `p` for slot `n`. -/
def State.rdEntry (s : State) (slot n p : Nat) : Nat :=
  let o := 2 * (n * 12 + p % 12)
  bits (8 * (o % 4)) 16 (s.rdWord (p / 12) slot o)

/-- ACTION, TXW and TARGET of an entry (R186). -/
def entryAction (e : Nat) : Nat := bits 13 3 e
/-- TXW. -/
def entryTxw (e : Nat) : Bool := bit 12 e
/-- TARGET. -/
def entryTarget (e : Nat) : Nat := bits 0 12 e

/-- A pair record of a region (R188). -/
def State.rdPair (s : State) (region slot i : Nat) : Nat := s.rdWord region slot (0x18000 + 4 * i)

/-- A group record of a region, as one number (R189). -/
def State.rdGroup (s : State) (region slot i : Nat) : Nat :=
  (List.range 16).foldl (fun v k => v + 2 ^ (32 * k) * s.rdWord region slot (0x19000 + 64 * i + 4 * k)) 0

/-- A phase record of a region. -/
def State.rdPhase (s : State) (region slot ph : Nat) : PhaseRec :=
  phaseOfWords fun i => s.rdWord region slot (0x1A000 + 32 * ph + 4 * i)

/-- A pattern record of a region. -/
def State.rdPattern (s : State) (region slot pat : Nat) : PatRec :=
  patOfWords fun i => s.rdWord region slot (0x1C000 + 32 * pat + 4 * i)

/-- A phase record of the package: that of the lowest region that holds it (R185: copies are identical). -/
def State.pkgPhase (s : State) (slot ph : Nat) : Option PhaseRec :=
  ((List.range 16).map fun r => s.rdPhase r slot ph).find? fun x => x.members != 0

/-- A pattern record of the package. -/
def State.pkgPattern (s : State) (slot pat : Nat) : Option PatRec :=
  ((List.range 16).map fun r => s.rdPattern r slot pat).find? fun x => x.members != 0

/-- A group record of the package. -/
def State.pkgGroup (s : State) (slot i : Nat) : Nat :=
  (((List.range 16).map fun r => s.rdGroup r slot i).find? fun x => x != 0).getD 0

/-- A byte of a draft slot's header (R185). -/
def State.rdHeader (s : State) (region slot i : Nat) : Nat :=
  bits (8 * (i % 4)) 8 (s.rdWord region slot (0x1C800 + i))

/-- The draft slot in effect on the Ronpex. -/
def State.rdSlot (s : State) : Nat := s.fld .ronpex Reg.drfStat 0 3

/-! ### What an image's entries name -/

/-- Receive action and TARGET of an entry, that of its pair record for PAIR. -/
def State.imgRx (s : State) (slot p e : Nat) : Nat × Nat :=
  if entryAction e = 7 then
    let r := s.rdPair (p / 12) slot (entryTarget e % 1024)
    (bits 0 3 r, bits 3 12 r)
  else (entryAction e, entryTarget e)

/-- Logical ports to which an entry's cell goes. -/
def State.imgPorts (s : State) (slot n p : Nat) : List Nat :=
  match s.imgRx slot p (s.rdEntry slot n p) with
  | (2, t) => [t % 256]
  | (4, t) => setBitsOf 192 (bits 0 192 (s.pkgGroup slot (t % 64)))
  | _ => []

/-- Logical spindles to which an entry's cell goes. -/
def State.imgSpindles (s : State) (slot n p : Nat) : List Nat :=
  match s.imgRx slot p (s.rdEntry slot n p) with
  | (3, t) => [t % 128]
  | (4, t) => setBitsOf 96 (bits 192 96 (s.pkgGroup slot (t % 64)))
  | _ => []

/-- The logical spindle whose emission an entry transmits. -/
def State.imgSpout (s : State) (slot n p : Nat) : Option Nat :=
  let e := s.rdEntry slot n p
  if entryAction e = 5 then some (entryTarget e % 128)
  else if entryAction e = 7 then some (bits 15 7 (s.rdPair (p / 12) slot (entryTarget e % 1024)))
  else none

/-- Slots and logical ports of an image. -/
def allSlots : List Nat := List.range frameSlots
/-- The ports. -/
def allPorts : List Nat := List.range 192

end Sys2Proof.Machine
end

