-- ==== Sys2Proof/Machine/OrderOps.lean ====
section
/-! DEFINITION. How a Ronpex addresses its neighbours: tray-chain frames (R395, R396), end points and other packages,
and the switch orders it issues (R206, R207, R351, R393). -/

namespace Sys2Proof.Machine

open Sys2Proof

/-! ### The tray chain -/

/-- `s` with the tray chain changed. -/
def State.modTray (s : State) (f : Tray → Tray) : State := { s with rp := { s.rp with tray := f s.rp.tray } }

/-- Own tray position (R395, R410). -/
def State.trayPos (s : State) : Nat := s.rp.pst.word Reg.pstTray % 4

/-- A link of the tray chain is up. -/
def State.trayUp (s : State) (port : Nat) : Bool := if port = 0 then s.rp.tray.link.1 else s.rp.tray.link.2

/-- Header and body of a frame (R395): FTYPE, HOPS, SRC, DST, FSEQ, FLEN and 8 zero bytes, then the body. -/
def trayCore (f : TrayFrame) : List Byte :=
  let body := match f.mgmt with
    | some m => mgmtBytes m
    | none => f.body
  leBytes 1 f.ftype ++ leBytes 1 f.hops ++ leBytes 1 f.src ++ leBytes 1 f.dst ++ leBytes 2 f.fseq ++ leBytes 2 body.length
    ++ leBytes 8 0 ++ body

/-- The CRC-32 of a frame, over header and body (R395). -/
@[irreducible] def trayCrc (f : TrayFrame) : Nat := crc32 (trayCore f)

/-- A frame with its CRC computed. -/
def sealedFrame (f : TrayFrame) : TrayFrame := { f with crc := trayCrc f }

/-- The bytes of a frame on the chain (R395). -/
def trayBytes (f : TrayFrame) : List Byte := trayCore f ++ leBytes 4 (trayCrc f)

/-- What the four data lanes of the chain carry for some bytes (R395): byte n goes to lane n mod 4, and each lane codes its bytes eight by
eight (DEDUCED, log 157). -/
def trayLanes (b : List Byte) : List (List (BitVec 66)) :=
  (List.range 4).map fun l =>
    let mine := ((List.range b.length).filter fun n => n % 4 == l).map fun n => b.getD n 0
    (List.range ((mine.length + 7) / 8)).map fun i => Config.code66b (BitVec.ofNat 64 (fieldNat mine (8 * i) 8))

/-- A frame as it leaves a port of the chain. -/
def trayOutput (port : Nat) (f : TrayFrame) : Out := .tray port (sealedFrame f) (trayBytes f) (trayLanes (trayBytes f))

/-- A frame goes out of a port of the tray chain whose link is up. -/
def State.trayOut (s : State) (port : Nat) (f : TrayFrame) : State := if s.trayUp port then s.emit (trayOutput port f) else s

/-- A MGMT message goes to every package of the tray: out of both ports (R396). -/
def State.trayMgmt (s : State) (m : Mgmt) : State :=
  let f : TrayFrame := { ftype := 1, hops := 7, src := s.trayPos, dst := 255, fseq := s.rp.tray.fseq, mgmt := some m,
                         body := [], crc := 0 }
  (((s.modTray fun t => { t with fseq := (t.fseq + 1) % 2 ^ 16 }).trayOut 0 f).trayOut 1 f)

/-! ### Neighbours -/

/-- The far end of a port is a Plocen that has sent IDENT (R268, R299). -/
def State.facesPlocen (s : State) (p : Nat) : Bool := bits 8 2 (s.reg .ronpex (portSetBase p + 0x18)) == 3

/-- The far end of a port is a Ronpex that has sent IDENT. -/
def State.facesRonpex (s : State) (p : Nat) : Bool := bits 8 2 (s.reg .ronpex (portSetBase p + 0x18)) == 2

/-- The node of the end point on a port (R304). -/
def State.portNode (s : State) (p : Nat) : Nat := s.fld .ronpex (Reg.sknPort p) 8 15

/-- The node of the package that a port leads to: the lowest switch-package node whose route entry takes the port
(R35, R156; DEDUCED, log 15). -/
def State.switchNodeOf (s : State) (p : Nat) : Option Nat :=
  ((List.range 4096).map (· + 0x6000)).find? fun n =>
    match s.route n with
    | .several l => l.contains p && bits 0 3 (s.reg .ronpex (Reg.xbrRt n)) != 3
    | _ => false

/-- A MGMT message to the end point on a port. -/
def State.toEndPoint (s : State) (p : Nat) (m : Mgmt) : State := s.rpMgmtPort p (s.portNode p) m (.mgmt 0)

/-- A MGMT message to the far end of a port, end point or package; none where the far end is not known. -/
def State.toFarEnd (s : State) (p : Nat) (m : Mgmt) : State :=
  if s.facesPlocen p then s.toEndPoint p m
  else if s.facesRonpex p then
    match s.switchNodeOf p with
    | some n => s.rpMgmtPort p n m (.mgmt 0)
    | none => s
  else s

/-- Ports of the Ronpex that are up. -/
def State.upPorts (s : State) : List Nat := (List.range 192).filter fun p => s.portUp .ronpex p

/-- Ports that are up and face a member Plocen of one of the skeins of a mask (R207): their end point's skein is in the
mask. -/
def State.memberPorts (s : State) (mask : BitVec 64) : List Nat :=
  s.upPorts.filter fun p => s.facesPlocen p && bit (s.fld .ronpex (Reg.sknPort p) 0 6) mask.toNat

/-- Ports that are up and face another package. -/
def State.packagePorts (s : State) : List Nat := s.upPorts.filter s.facesRonpex

/-! ### Switch orders -/

/-- The first frame boundary at least `d` ns ahead, as a frame number (R207). -/
def State.frameAfter (s : State) (d : Nat) : Nat := (s.now + d + frameNs - 1) / frameNs

/-- A draft is in effect: DRF.STAT.RUNNING. -/
def State.running (s : State) : Bool := s.flag .ronpex Reg.drfStat 3

/-- Class `c` has an alternate (R206): DRF.ALT[c] is VALID, and the image of its slot was accepted at its last commit, since a refused
image can never be used as an alternate (R192). -/
def State.altValid (s : State) (c : Nat) : Bool :=
  s.flag .ronpex (Reg.drfAlt c) 3 && bit (s.fld .ronpex (Reg.drfAlt c) 0 3) s.rp.warp.accepted

/-- Orders of the same KIND, plane and skeins that wait are merged: the lowest FAULT_FRAME and the latest EFFECTIVE
(R351). -/
def sameOrder (a b : SwitchOrder) : Bool := a.kind == b.kind && a.plane == b.plane && a.skeins == b.skeins

/-- Frame `a` is not after frame `b`, both by their bits 31:0. -/
def frameLe (a b : Nat) : Bool := decide (subMod 32 b a < 2 ^ 31)

/-- Two orders merged: the lowest FAULT_FRAME, the latest EFFECTIVE, and the rename pairs of both (R191, R351). -/
def joinOrders (a b : SwitchOrder) : SwitchOrder :=
  { a with faultFrame := if frameLe a.faultFrame b.faultFrame then a.faultFrame else b.faultFrame
           effective := if frameLe a.effective b.effective then b.effective else a.effective
           pairs := a.pairs ++ b.pairs.filter fun p => !a.pairs.contains p }

/-- An order joins those that wait, merged with one it matches. -/
def mergeOrder (l : List PendOrder) (o : SwitchOrder) (own : Bool) : List PendOrder :=
  match l with
  | [] => [{ o := o, own := own }]
  | x :: r =>
    if sameOrder x.o o then { x with o := joinOrders x.o o } :: r
    else x :: mergeOrder r o own

/-- The Ronpex passes an order to its member Plocens (R207). -/
def State.orderToMembers (s : State) (o : SwitchOrder) : State :=
  (s.memberPorts o.skeins).foldl (fun t p => t.toEndPoint p (.switchOrder o)) s

/-- The Ronpex issues an order: it waits for its EFFECTIVE here, and goes to the members and to the other packages of
the plane, on the tray chain and as MGMT messages (R207). -/
def State.issueOrder (s : State) (o : SwitchOrder) : State :=
  let s1 := s.modWarp fun w => { w with
    orders := mergeOrder w.orders o true, seen := o :: w.seen.take 63, issued := o :: w.issued.take 63 }
  let s2 := (s1.orderToMembers o).trayMgmt (.switchOrder o)
  s2.packagePorts.foldl (fun t p => t.toFarEnd p (.switchOrder o)) s2

/-- A new order of this part's plane for some skeins, that names a unit (UNIT_TYPE 0 for none). -/
def State.newOrder (s : State) (kind cls unitType unit gen ahead : Nat) (skeins : List Nat) (pairs : List (Nat × Nat × Nat)) : SwitchOrder :=
  { kind := kind, cls := cls, plane := s.plane, unitType := unitType, unit := unit, gen := gen
    skeins := BitVec.ofNat 64 (maskOf skeins), faultFrame := frameOf s.now % 2 ^ 32, effective := s.frameAfter ahead % 2 ^ 32, pairs := pairs }

/-- The physical spindle, 0-95, of a logical spindle under the maps in effect (R191). -/
def State.spPhys (s : State) (n : Nat) : Nat := n / 24 * 24 + SMap.look (fun k => k % 24) s.rp.warp.spmap n % 24

/-- The physical port of a logical port under the maps in effect (R191). -/
def State.portPhys (s : State) (n : Nat) : Nat := SMap.look (fun k => k) s.rp.warp.pmap n

/-- A spindle is fenced. -/
def State.spFenced (s : State) (n : Nat) : Bool := s.flag .ronpex (spindleBase n) 0

/-- A spindle is not in service (R345, R352): fenced, off or in quarantine. -/
def State.spOut (s : State) (n : Nat) : Bool := s.unitState (192 + n) != 0

/-- The logical port whose column a physical port follows (R191). -/
def State.portLogical (s : State) (p : Nat) : Option Nat :=
  if s.rp.warp.pmap.isEmpty then some p else (List.range 192).find? fun k => s.portPhys k == p

/-! ### Uses of slots (R26, R186-R188, R191, R208, R212) -/

/-- Use of the receive side of an entry: 0 weft, 1 warp, 2 idle, 3 sky. -/
def rxUse (e : Nat) : Nat :=
  match entryAction e with
  | 0 => 2
  | 1 => 0
  | 5 => 0
  | 6 => 3
  | _ => 1

/-- Use of the transmit side of an entry. -/
def txUse (e : Nat) : Nat :=
  match entryAction e with
  | 0 => 2
  | 5 => 1
  | 6 => 3
  | 7 => 1
  | _ => if entryTxw e then 1 else 0

/-- The warp entries of a physical port are treated as IDLE (R208, R212). -/
def State.warpIdle (s : State) (p : Nat) : Bool :=
  s.rp.warp.idle.contains p || bit (s.fld .ronpex (Reg.sknPort p) 0 6) s.rp.warp.outSkeins

/-- The entry of physical port `p` in the slot of fabric time `t`: WEFT while no draft is in effect (R26). A physical port to which no
logical port is mapped follows no column, and every slot of it is IDLE (DESIGN CHOICE, log 177). -/
def State.rdAt (s : State) (t p : Nat) : Nat :=
  if !s.running then 0x2000
  else match s.portLogical p with
    | none => 0
    | some l =>
      let e := s.rdEntry s.rdSlot (slotOf t) l
      if s.warpIdle p ∧ (rxUse e = 1 ∨ txUse e = 1) then
        -- the sides that are warp carry nothing; the other side keeps its use
        if rxUse e = 0 ∨ txUse e = 0 then e else 0
      else e

/-- Use of the receive side of port `p` at time `t`. -/
def State.rxAt (s : State) (t p : Nat) : Nat :=
  let u := rxUse (s.rdAt t p)
  if u = 1 ∧ s.warpIdle p then 2 else u

/-- Use of the transmit side of port `p` at time `t`. -/
def State.txAt (s : State) (t p : Nat) : Nat :=
  let u := txUse (s.rdAt t p)
  if u = 1 ∧ s.warpIdle p then 2 else u

/-! ### Spares (R191) -/

/-- The physical spindle of a logical spindle once the orders that wait have taken effect (R191). -/
def State.spNext (s : State) (l : Nat) : Nat :=
  let mine := s.rp.warp.orders.filter fun x : PendOrder => decide (x.o.kind ≤ 1) && x.o.plane == s.plane
  match ((mine.flatMap fun x : PendOrder => x.o.pairs).filter fun q => q.1 == 0 && q.2.1 == l).getLast? with
  | some q => l / 24 * 24 + q.2.2 % 24
  | none => s.spPhys l

/-- The lowest spare of a die that is in service (R352) and to which no logical spindle is mapped (R191), now or by an order that waits. -/
def State.freeSpare (s : State) (d : Nat) : Option Nat :=
  [22, 23].find? fun i => !s.spOut (24 * d + i)
    && !(List.range 22).any fun k => s.spPhys (24 * d + k) == 24 * d + i || s.spNext (24 * d + k) == 24 * d + i

/-! ### The skeins that have warp on a unit (R206, R212) -/

/-- The skein whose cells alone a port carries: that of the end point it faces, or to which CHECK binds it (R304). -/
def State.ownSkein (s : State) (p : Nat) : Option Nat :=
  if s.facesPlocen p || s.flag .ronpex (Reg.sknPort p) 6 then some (s.fld .ronpex (Reg.sknPort p) 0 6) else none

/-- The column that a physical port follows names logical spindle `l`: it delivers to it or transmits its emission. -/
def State.columnNames (s : State) (p l : Nat) : Bool :=
  (s.portLogical p).any fun c => allSlots.any fun n =>
    (s.imgSpindles s.rdSlot n c).contains l || s.imgSpout s.rdSlot n c == some l

/-- The skeins of the end points that use logical spindle `l`. -/
def State.spindleWarp (s : State) (l : Nat) : List Nat :=
  (allPorts.filter fun p => (s.ownSkein p).isSome && s.columnNames p l).filterMap s.ownSkein

/-- The skeins of the end points with which a port exchanges cells in a slot's entry of its column: through the spindles that the entry
names, and through the ports to which it goes. -/
def State.slotWarp (s : State) (n c : Nat) : List Nat :=
  ((s.imgSpindles s.rdSlot n c ++ (s.imgSpout s.rdSlot n c).toList).flatMap fun l => s.spindleWarp l)
    ++ (s.imgPorts s.rdSlot n c).filterMap fun q => s.ownSkein (s.portPhys q)

/-- The skeins whose cells a port's columns bring to port `c` by FWD or MCAST. -/
def State.sentWarp (s : State) (c : Nat) : List Nat :=
  (allPorts.filter fun p => (s.ownSkein p).isSome
    && (s.portLogical p).any fun k => allSlots.any fun n => (s.imgPorts s.rdSlot n k).contains c).filterMap s.ownSkein

/-- Every ACTIVE skein where the draft leads from a unit to no end point's skein, as at a spine (DEDUCED, log 16). -/
def State.orActive (s : State) (l : List Nat) : List Nat :=
  if l.isEmpty then s.activeSkeins else s.activeSkeins.filter fun k => l.contains k

/-- The column of a logical port has a warp or sky entry. -/
def State.columnWarps (s : State) (c : Nat) : Bool :=
  allSlots.any fun n => let e := s.rdEntry s.rdSlot n c; rxUse e == 1 || txUse e == 1 || rxUse e == 3

/-- The skeins that have warp on a port: its own where its column has warp entries, or those that its column leads to. -/
def State.portWarp (s : State) (p : Nat) : List Nat :=
  match s.ownSkein p, s.portLogical p with
  | _, none => []
  | some k, some c => if s.columnWarps c then s.activeSkeins.filter fun x => x == k else []
  | none, some c => s.orActive ((allSlots.flatMap fun n => s.slotWarp n c) ++ s.sentWarp c)

/-- The skeins that have warp on a physical spindle. -/
def State.spindleSkeins (s : State) (n : Nat) : List Nat :=
  s.orActive (((List.range 22).map (spindleDie n * 24 + ·)).filter (fun l => s.spPhys l == n) |>.flatMap fun l => s.spindleWarp l)

/-! ### The skeins that an event affects (R318) -/

/-- ACTIVE skeins that have a port, or a route, through a port (R318): every one where the port leads to another package, since any skein's
containers may be routed over it (DEDUCED, log 10); else the port's own. -/
def State.portSkeins (s : State) (p : Nat) : List Nat :=
  if s.facesRonpex p && !s.flag .ronpex (Reg.sknPort p) 6 then s.activeSkeins
  else s.activeSkeins.filter fun k => k == s.fld .ronpex (Reg.sknPort p) 0 6

/-- ACTIVE skeins that have a spindle in a physical spindle (R318): those with warp on it, where the draft in effect uses it. -/
def State.spindleUsers (s : State) (n : Nat) : List Nat :=
  if s.activeSkeins.isEmpty || !s.running then []
  else
    let ls := ((List.range 22).map (spindleDie n * 24 + ·)).filter fun l => s.spPhys l == n
    if ls.any fun l => allPorts.any fun p => s.columnNames p l then s.spindleSkeins n else []

/-- The ACTIVE skeins that a fault, fence or reset of a unit affects (R318): a channel controller's are those with a region. -/
def State.unitSkeins (s : State) (i : Nat) : List Nat :=
  if i < 192 then s.portSkeins i
  else if i < 288 then s.spindleUsers (i - 192)
  else if i < 416 then s.regionSkeins
  else if i < 608 then s.portSkeins (i - 416)
  else s.activeSkeins

/-- The ACTIVE skeins that any of some units' faults affects. -/
def State.unitsSkeins (s : State) (l : List Nat) : List Nat :=
  s.activeSkeins.filter fun k => l.any fun i => (s.unitSkeins i).contains k

/-- The UNIT_STATE event of a unit (R390), with a SCOPE 1 record for the skeins it affects. -/
def State.unitEvent (s : State) (i : Nat) : State :=
  s.postFor { time := s.now, code := 2, tenant := none, unitType := (unitOf i).1, unit := (unitOf i).2,
              gen := s.gen i, arg := s.unitState i + 256 * s.unitCause i } 1 (s.unitSkeins i)

/-- Units whose state has changed since it was last shown are posted, one UNIT_STATE event each (R420); `quiet` where
one event names the whole cluster, region, die or package instead (R346). -/
def State.showUnits (s : State) (quiet : Bool) (l : List Nat) : State :=
  l.foldl (fun t i =>
    let v := t.unitState i + 1
    if SMap.look (fun _ => 4) t.rp.units.shown i = v then t
    else
      let t1 := if quiet then t else t.unitEvent i
      { t1 with rp := { t1.rp with units := { t1.rp.units with shown := SMap.put (fun _ => 4) t1.rp.units.shown i v } } }) s

/-- A bit of SPD[n].ERR is set; each bit is posted at most once per frame, with a SCOPE 1 record for the
skeins that use the spindle (R246, R318, R390). -/
def State.spdError (s : State) (n b skein : Nat) : State :=
  let s1 := s.setFlag .ronpex (spindleBase n + 4) b true
  let x := SMap.look (fun _ => {}) s1.rp.spindles n
  if bit b x.posted then s1.errsumMsix s
  else
    let s2 := { s1 with rp := { s1.rp with
      spindles := SMap.put (fun _ => {}) s1.rp.spindles n { x with posted := setBit b true x.posted } } }
    let e : Event := { time := s.now, code := 0x12, tenant := none, unitType := 2, unit := n, gen := s.gen (192 + n)
                       arg := 2 ^ b + 256 * skein }
    (s2.postFor e 1 (s2.spindleUsers n)).errsumMsix s

/-- The skeins that have warp on a unit that an order names: a port, a spindle, or more. -/
def State.warpOn (s : State) (unitType unit : Nat) : List Nat :=
  if unitType = 1 then s.portWarp unit else if unitType = 2 then s.spindleSkeins unit else s.activeSkeins

/-! ### Tallies (R199, R203) -/

/-- A tenant skein is ACTIVE; skein 0 is not counted (R302). -/
def State.activeTenant (s : State) (k : Nat) : Bool := decide (0 < k) && s.skeinState k == 2

/-- The tally of a phase. -/
def State.tally (s : State) (ph : Nat) : Tally := SMap.look (fun _ => noTally) s.rp.warp.tallies ph

/-- `s` with a tally. -/
def State.setTally (s : State) (ph : Nat) (t : Tally) : State :=
  s.modWarp fun w => { w with tallies := SMap.put (fun _ => noTally) w.tallies ph t }

/-- The tally of a phase for the round of the present frame: before anything has joined it, one that nothing is known of. -/
def State.tallyNow (s : State) (ph : Nat) : Tally :=
  let old := s.tally ph
  if old.frame = frameOf s.now then old
  else { status := 0, inst := old.inst, round := old.round, frame := frameOf s.now, missed := [], ports := [], skein := old.skein, unknown := true }

/-- A result cell's status joins the tally of its round, the worst counting, with what the worst cell's header says of the round; a VOID or
REPLAY round is posted once (R199, R390). A phase runs one round of a plane in a frame. -/
def State.addTally (s : State) (ph status inst round skein : Nat) : State :=
  let old := s.tallyNow ph
  let s1 := s.setTally ph (if old.unknown ∨ old.status < status then
      { old with status := max old.status status, inst := inst, round := round, skein := skein, unknown := false }
    else old)
  if old.status < status then
    s1.postFor (plainEvent s.now 0x11 (ph + 256 * status + 2 ^ 16 * inst)) 0 (if s1.activeTenant skein then [skein] else [])
  else s1

/-- A result cell of a phase's round leaves some ports in this frame, or does not (R203). -/
def State.tallyPorts (s : State) (ph : Nat) (l : List Nat) (ok : Bool) : State :=
  let t := s.tallyNow ph
  s.setTally ph { t with
    ports := t.ports ++ l.filter fun p => !t.ports.contains p
    missed := if ok then t.missed else t.missed ++ l.filter fun p => !t.missed.contains p }

/-- A round of which a result cell is never formed, since no header gives its instance and round, is a REPLAY that every member finds out for
itself (R199, R201): until a cell of the round gives its own, the tally's instance and round are free values (log 179). The cell leaves none
of the ports that carry the emission (R203). -/
def State.tallyLost (s : State) (ph : Nat) (l : List Nat) : State :=
  let t := s.tallyNow ph
  let (v, s0) := s.draw
  let t1 : Tally := if t.unknown then { t with inst := v.toNat % 2 ^ 16, round := v.toNat / 2 ^ 16 % 2 ^ 32 } else t
  let s1 := (if t.unknown then s0 else s).setTally ph { t1 with status := max t.status 1 }
  (if t.status = 0 then
      s1.postFor (plainEvent s.now 0x11 (ph + 256 + 2 ^ 16 * t1.inst)) 0 (if s1.activeTenant t.skein then [t.skein] else [])
    else s1).tallyPorts ph l false

/-- The spindle whose emission an entry transmits, if it does. -/
def State.entrySpout (s : State) (l e : Nat) : Option Nat :=
  if entryAction e = 5 then some (entryTarget e % 128)
  else if entryAction e = 7 then some (bits 15 7 (s.rdPair (l / 12) s.rdSlot (entryTarget e % 1024)))
  else none

/-- The logical number of a physical spindle. -/
def State.spLogical (s : State) (n : Nat) : Option Nat :=
  ((List.range 22).map (spindleDie n * 24 + ·)).find? fun l => s.spPhys l == n

/-- The ports that carry the emission of spindle `n` of the slot `d` from the present one, by die 3 or 5 slots later in the same frame (R184,
R187, R190), and how much later. -/
def State.emitPorts (s : State) (n d : Nat) : List (Nat × Nat) :=
  match s.spLogical n with
  | none => []
  | some l =>
    let later (p : Nat) : Nat := if portDie p = spindleDie n then 3 else 5
    (allPorts.filter fun p => decide (slotOf s.now + d + later p < frameSlots)
      && s.entrySpout ((s.portLogical p).getD p) (s.rdAt (s.now + slotNs * (d + later p)) p) == some l).map fun p => (p, later p)

/-- A group of a spindle from which nothing is emitted (R199): its result cells would have left 4 slots on. A READY phase has no round. -/
def State.loseGroup (s : State) (n : Nat) (r : PhaseRec) (ph : Nat) : State :=
  if r.kind = 1 then s
  else
    let k := (fmtElems r.fin + fmtElems r.fout - 1) / fmtElems r.fout
    s.tallyLost ph (((List.range k).flatMap fun i => s.emitPorts n (4 + i)).map fun p => p.1).dedup

/-- The contexts of a spindle are discarded (R345): what it would still have emitted in this frame leaves no port. -/
def State.loseContexts (s : State) (n : Nat) : State :=
  let later := (allPorts.filter fun p => (upTo (slotOf s.now) (frameSlots - 1)).any fun m =>
    (s.spLogical n).any fun l => s.entrySpout ((s.portLogical p).getD p) (s.rdAt (s.now + slotNs * (m - slotOf s.now)) p) == some l)
  let x := SMap.look (fun _ => {}) s.rp.spindles n
  let s1 := x.ctxs.foldl (fun t c =>
    if (t.pkgPhase t.rdSlot c.phase).all fun r => r.kind == 1 then t else t.tallyLost c.phase later) s
  { s1 with rp := { s1.rp with spindles := SMap.put (fun _ => {}) s1.rp.spindles n { x with ctxs := [] } } }

/-! ### Orders that a fault starts -/

/-- A class's order, which changes the slot of every skein, or PLANE_OUT of the skeins that have warp on the unit where no alternate can
serve it (R206), naming the unit. -/
def State.classOrder (s : State) (c unitType unit gen : Nat) : State :=
  if s.altValid c then s.issueOrder (s.newOrder 1 c unitType unit gen 12000 s.activeSkeins [])
  else s.issueOrder (s.newOrder 2 0 unitType unit gen 12000 (s.warpOn unitType unit) [])

/-- What the fencing of physical spindle `n` starts while a draft is in effect (R191, R206): a REMAP of each logical
spindle mapped to it, or SPINDLE_SHORT where the die has no free spare. -/
def State.spindleOrder (s : State) (n : Nat) : State :=
  let d := spindleDie n
  match ((List.range 22).map (24 * d + ·)).find? fun k => s.spNext k == n with
  | none => s
  | some k =>
    match s.freeSpare d with
    | some i => s.issueOrder (s.newOrder 0 0 2 n (s.gen (192 + n)) 12000 (s.warpOn 2 n) [(0, k, i)])
    | none => s.classOrder 2 2 n (s.gen (192 + n))

/-- `s` with the skeins changed. -/
def State.modSk (s : State) (f : Skeins → Skeins) : State := { s with rp := { s.rp with skeins := f s.rp.skeins } }

/-! ### Budgets as loaded (R307, R312, R320) -/

/-- Reset values of BUD.WEFT, SPIN, HBM and AUX (R320). -/
def budReset (w : Nat) : Nat := [0x201000, 0x60000, 0x190000, 0x01002000].getD w 0

/-- A budget register of skein `k` as loaded (R307, R312): word 0 WEFT, 1 SPIN, 2 HBM, 3 AUX. -/
def State.loaded (s : State) (k w : Nat) : Nat := SMap.look (fun i => budReset (i % 4)) s.rp.skeins.loaded (4 * k + w)

/-- Budgets are enforced (R307). -/
def State.enforced (s : State) : Bool := s.flag .ronpex Reg.budCtl 0

/-- BUD.STAT.SCALE (R312). -/
def State.scale (s : State) : Nat := s.fld .ronpex Reg.budStat 0 9

/-- A number scaled by the budget controller, rounded down (R312). -/
def State.scaledBy (s : State) (v : Nat) : Nat := v * s.scale / 256

/-! ### Assignment of a port (R304) -/

/-- SLOTS of a skein as scaled (R312). While BUD.CTL.EN is 0 it is every slot of a frame, which limits nothing (R307; DEDUCED, log 181). -/
def State.slotsOf (s : State) (k : Nat) : Nat := if s.enforced then s.scaledBy (bits 0 13 (s.loaded k 0)) else frameSlots

/-- What an assignment of a port carries (R304): the skein, SEALED, SLOTS and the node. -/
def State.assignment (s : State) (port : Nat) : Nat × Bool × Nat × Nat :=
  let k := s.fld .ronpex (Reg.sknPort port) 0 6
  (k, s.isSealed k, s.slotsOf k, s.portNode port)

/-- The assignment message of a port goes to its end point while the port is UP. -/
def State.sendAssign (s : State) (port : Nat) : State :=
  if s.portUp .ronpex port && s.facesPlocen port then
    let (k, sl, n, node) := s.assignment port
    s.toEndPoint port (.assign k sl n (s.epoch .ronpex) node)
  else s

/-- What the scaled SLOTS of each skein are from now on: the ports of every skein whose value has changed get a new assignment (R304, R312). -/
def State.sendSlots (s : State) : State :=
  let changed := (List.range 64).filter fun k => s.slotsOf k != SMap.look (fun _ => 4096) s.rp.skeins.scaled k
  let s1 := s.modSk fun x => { x with scaled := changed.foldl (fun m k => SMap.put (fun _ => 4096) m k (s.slotsOf k)) x.scaled }
  if changed.isEmpty then s
  else ((List.range 192).filter fun p => changed.contains (s1.fld .ronpex (Reg.sknPort p) 0 6)).foldl (fun t p => t.sendAssign p) s1

end Sys2Proof.Machine
end

