-- ==== Sys2Proof/Machine/CmdOps.lean ====
section
/-! DEFINITION. The end of a management command (R387) and the reports of a Plocen (R357, R359). -/

namespace Sys2Proof.Machine

open Sys2Proof

/-- `s` with the management rings changed. -/
def State.modMgmt (s : State) (f : MgmtRings → MgmtRings) : State := { s with rp := { s.rp with mgmt := f s.rp.mgmt } }

/-- CMD_DONE (R387, R390), with vector 0 (log 14). -/
def State.cmdEvent (s : State) (r : Running) (status detail : Nat) : State :=
  (s.post (plainEvent s.now 1 (r.tag + 2 ^ 32 * status + 2 ^ 40 * detail + 2 ^ 64 * r.count))).msix 0

/-- The next command is fetched where one is owed (R387): the ring is enabled and not stopped by a doorbell error,
holds a command, and none executes. -/
def State.cmdNext (s : State) : State :=
  if s.rp.mgmt.running.isNone && s.flag .ronpex Reg.mgtCmdCfg 4 && !s.flag .ronpex Reg.mgtStat 1 && s.rp.mgmt.cmdHead != s.rp.mgmt.cmdTail
      && s.rp.sec.restartAt.isNone then
    s.emit (.cmdFetch s.rp.mgmt.cmdHead)
  else s

/-- The running command ends (R387), and the next one is fetched. -/
def State.cmdDone (s : State) (status detail : Nat) : State :=
  match s.rp.mgmt.running with
  | none => s
  | some r => ((s.modMgmt fun m => { m with running := none }).cmdEvent r status detail).cmdNext

/-- The running command ends where it waits for `w`. -/
def State.cmdWaited (s : State) (w : CmdWait) (status detail : Nat) : State :=
  if s.rp.mgmt.running.any fun r => r.wait == w then s.cmdDone status detail else s

/-- A container of the running SEND has ended, answered or lost: the command ends with the last of them (R388). -/
def State.sendOver (s : State) (id : Nat) (lost : Bool) : State :=
  match s.rp.mgmt.running with
  | some ⟨tag, count, .sent ids l⟩ =>
    if !ids.contains id then s
    else
      let rest := ids.filter fun i => i != id
      if rest.isEmpty then s.cmdDone (if l || lost then 8 else 0) 0
      else s.modMgmt fun m => { m with running := some ⟨tag, count, .sent rest (l || lost)⟩ }
  | _ => s

/-! ### Reports (R357, R359) -/

/-- Reports sent in the last 100 us (R359). -/
def State.recentReports (s : State) : List Nat := s.ep.repTimes.filter fun t => decide (s.now < t + 100000)

/-- A report may go: a plane is live, and fewer than 64 went in the last 100 us (R359). -/
def State.mayReport (s : State) : Bool := decide (s.recentReports.length < 64) && !s.livePlanes.isEmpty

/-- A report goes to the Ronpex of the lowest live plane (R357). -/
def State.sendReport (s : State) (r : Report) : State :=
  ({ s with ep := { s.ep with repTimes := s.recentReports ++ [s.now] } }).epMgmtLowest (.report r)

/-- A report of a TYPE and TARGET is sent, or withheld and counted (R359). -/
def State.report (s : State) (type target plane : Nat) : State :=
  let r : Report := { type := type, plane := plane, target := target, epoch := s.epoch .plocen, suppressed := 0, time := s.now }
  let like (w : RepWin) : Bool := w.r.type == type && w.r.target == target
  match s.ep.reps.find? like with
  | some _ =>
    { s with ep := { s.ep with reps := s.ep.reps.map fun w : RepWin =>
        if (like w) then { w with r := r, withheld := satAdd 16 w.withheld 1 } else w } }
  | none =>
    let go := s.mayReport
    let s1 := { s with ep := { s.ep with reps := s.ep.reps ++ [{ r := r, since := s.now, withheld := ofBool (!go) }] } }
    if go then s1.sendReport r else s1

/-- The 100 us of a report window end (R359): what was withheld goes in one report, or waits for the next window. -/
def State.reportWindow (s : State) (type target : Nat) : State :=
  match s.ep.reps.find? fun w => w.r.type == type && w.r.target == target with
  | none => s
  | some w =>
    if s.now < w.since + 100000 then s
    else
      let rest := s.ep.reps.filter fun x => x != w
      if w.withheld = 0 then { s with ep := { s.ep with reps := rest } }
      else if s.mayReport then
        ({ s with ep := { s.ep with reps := rest ++ [{ w with since := s.now, withheld := 0 }] } }).sendReport
          { w.r with suppressed := w.withheld }
      else { s with ep := { s.ep with reps := rest ++ [{ w with since := s.now }] } }

end Sys2Proof.Machine
end

