-- ==== Sys2Proof/Machine/RingOps.lean ====
section
/-! DEFINITION. Descriptor rings (R94-R102, R116, R126, R127): fetching, completion entries, interrupts, and how a
started descriptor ends. -/

namespace Sys2Proof.Machine

open Sys2Proof

/-- `s` with a ring changed. -/
def State.modRing (s : State) (n : Nat) (f : Ring → Ring) : State :=
  { s with ep := { s.ep with rings := SMap.put (fun _ => {}) s.ep.rings n (f (s.ring n)) } }

/-- Entries of ring `n` (R94, R127). -/
def State.ringSize (s : State) (n : Nat) : Nat := 2 ^ (6 + min (s.fld .plocen (Reg.epRngCfg n) 0 4) 10)

/-- CFG.EN of a ring. -/
def State.ringOn (s : State) (n : Nat) : Bool := s.flag .plocen (Reg.epRngCfg n) 24

/-- The address-space tag of a ring. -/
def State.ringTag (s : State) (n : Nat) : Nat := s.fld .plocen (Reg.epRngCfg n) 4 12

/-- A base address held in a _LO and _HI pair of the Plocen. -/
def State.epBase (s : State) (lo hi : Nat) : Nat := s.reg .plocen lo + 2 ^ 32 * s.reg .plocen hi

/-- A ring error (R127): ERRCODE keeps the first. Every error but a bad CQ_HEAD stops fetching. -/
def State.ringError (s : State) (n code : Nat) : State :=
  s.modRing n fun r =>
    { r with err := true, errCode := if r.err then r.errCode else code, fetchStop := r.fetchStop || code != 2 }

/-- Descriptors from `c` up to SQ_TAIL are fetched, up to four with one MRD that runs neither past the end of the ring
nor across a 4 KiB boundary (R78, R97). -/
def State.fetchFrom : Nat → State → Nat → State
  | 0, s, _ => s
  | k + 1, s, n =>
    let r := s.ring n
    let left := subMod 32 r.sqTail r.issued
    if left = 0 ∨ r.fetchStop ∨ !r.active ∨ !s.ringOn n ∨ s.ep.att.down then s
    else
      let i := r.issued % s.ringSize n
      let m := min (min 4 left) (64 - i % 64)
      let q : AttReq := { kind := 1, use := some (.ringFetch n r.issued m),
                          addr := s.epBase (Reg.epRngSqBaseLo n) (Reg.epRngSqBaseHi n) + 64 * i, len := 64 * m, data := [], aux := 0 }
      State.fetchFrom k ((s.modRing n fun r => { r with issued := (r.issued + m) % 2 ^ 32 }).request [q]) n

/-- Everything that a ring may fetch is fetched. -/
def State.fetchRing (s : State) (n : Nat) : State := s.fetchFrom (subMod 32 (s.ring n).sqTail (s.ring n).issued) n

/-- INTR vector n is sent where R102 says. -/
def State.ringIntr (s : State) (n : Nat) : State :=
  let r := s.ring n
  match r.unannounced with
  | [] => s
  | t :: _ =>
    if s.flag .plocen (Reg.epRngCfg n) 25 && r.armed
        && (decide (max (s.fld .plocen (Reg.epRngImod n) 0 8) 1 ≤ r.unannounced.length)
            || decide (t + 1000 * s.fld .plocen (Reg.epRngImod n) 8 16 ≤ s.now)) then
      (s.modRing n fun r => { r with armed := false, unannounced := [] }).request [intrReq n]
    else s

/-- PHASE of entry `c` of a ring of `size` entries (R99, R136). -/
def phaseOf (c size : Nat) : Nat := if c / size % 2 = 0 then 1 else 0

/-- A completion entry is written at CQ_TAIL (R95, R116); none while the link is down (R90). -/
def State.postCompletion (s : State) (n sub code info cookie : Nat) : State :=
  if s.ep.att.down then s
  else
    let c := (s.ring n).cqTail
    let size := s.ringSize n
    (s.modRing n fun r => { r with cqTail := (c + 1) % 2 ^ 32 }).request
      [{ kind := 2, use := some (.completion n c),
         addr := s.epBase (Reg.epRngCqBaseLo n) (Reg.epRngCqBaseHi n) + 16 * (c % size), len := 16,
         data := completionBytes sub code (phaseOf c size) cookie info s.now, aux := 0 }]

/-- The MWR of a completion entry has ended: it is announced, or the ring is in error (R102, R127). -/
def State.completionDone (s : State) (n at_ : Nat) (ok : Bool) : State :=
  if ok then (s.modRing n fun r => { r with unannounced := r.unannounced ++ [at_] }).ringIntr n
  else s.ringError n 4

/-! ### Started descriptors -/

/-- A started descriptor. -/
def State.act? (s : State) (n sub : Nat) : Option Act := s.ep.acts.find? fun a => a.ring == n && a.sub == sub

/-- `s` with a started descriptor changed. -/
def State.modAct (s : State) (n sub : Nat) (f : Act → Act) : State :=
  { s with ep := { s.ep with acts := s.ep.acts.map fun a => if a.ring = n ∧ a.sub = sub then f a else a } }

/-- The ring runs and the link is up (R90). -/
def State.ringRuns (s : State) (n : Nat) : Bool := (s.ring n).active && s.ringOn n && !s.ep.att.down

/-- A descriptor of the ring may start: the ring runs and fewer than four are started (R118). -/
def State.mayStart (s : State) (n : Nat) : Bool :=
  s.ringRuns n
    && decide ((s.ep.acts.filter fun a => a.ring == n).length < 4)

/-- The descriptor at the front of a ring's start order. -/
def State.front (s : State) (n : Nat) : Option (Nat × Nat) := (s.ring n).fetched.head?

/-- `s` without the descriptor at the front of a ring's start order. -/
def State.dropFront (s : State) (n : Nat) : State := s.modRing n fun r => { r with fetched := r.fetched.drop 1 }

/-- A descriptor of an unknown opcode that reaches the front completes with BAD_DESC (R105). -/
def State.settleFront : Nat → State → Nat → State
  | 0, s, _ => s
  | k + 1, s, n =>
    match s.front n with
    | none => s
    | some (sub, raw) =>
      let d := descOf raw
      if 1 ≤ d.opc ∧ d.opc ≤ 10 ∨ !s.mayStart n then s
      else State.settleFront k ((s.dropFront n).postCompletion n sub 7 ((lowestOf (descFaults d)).getD 0) d.cookie) n

/-- The fetched descriptors of a ring that need no command of their own are settled. -/
def State.settleRing (s : State) (n : Nat) : State := s.settleFront ((s.ring n).fetched.length) n

/-- Descriptors fetched in order become ready to start, and SQ_HEAD passes them (R97). -/
def State.takeArrived : Nat → State → Nat → State
  | 0, s, _ => s
  | k + 1, s, n =>
    let r := s.ring n
    match SMap.find? r.arrived r.sqHead with
    | none => s
    | some raw =>
      State.takeArrived k (s.modRing n fun r =>
        { r with arrived := SMap.drop r.arrived r.sqHead, sqHead := (r.sqHead + 1) % 2 ^ 32,
                 fetched := r.fetched ++ [(r.sqHead, raw)] }) n

/-- A descriptor fetch has ended (R97, R127). -/
def State.ringFetched (s : State) (n first m : Nat) (data : List Byte) (ok : Bool) : State :=
  if !ok then s.ringError n 3
  else
    let s1 := s.modRing n fun r => { r with
      arrived := (List.range m).foldl (fun a i => SMap.set a ((first + i) % 2 ^ 32) (fieldNat data (64 * i) 64)) r.arrived }
    (s1.takeArrived ((s1.ring n).arrived.length) n).settleRing n

/-- A started descriptor that is ending with a code keeps the first (R117); LOST counts it once (R180). -/
def State.failAct (s : State) (n sub code info : Nat) : State :=
  match s.act? n sub with
  | none => s
  | some a =>
    if a.code ≠ 0 then s
    else
      let s1 := s.modAct n sub fun a => { a with code := code, info := info }
      if code = 5 then s1.satFld .plocen Reg.epSeqLost 0 32 1 else s1

/-- INFO of a descriptor that completes with OK (R117). -/
def okInfo (d : Desc) : Nat :=
  if d.opc = 1 ∨ d.opc = 2 ∨ d.opc = 3 ∨ d.opc = 5 ∨ d.opc = 6 ∨ d.opc = 0xA then d.len else 0

/-- Bursts of a descriptor that has ended leave their shuttles. -/
def endBursts (m : SMap Shuttle) (n sub : Nat) : SMap Shuttle :=
  (List.range 16).foldl (fun m k =>
    let x : Shuttle := SMap.look (fun _ => {}) m k
    if x.burst.any fun b => b.ring == n && b.sub == sub then SMap.put (fun _ => {}) m k { x with burst := none, miss := none }
    else m) m

/-- A shuttle holds a burst of a started descriptor (R119, R139). -/
def State.burstHeld (s : State) (ring sub : Nat) : Bool :=
  (List.range 16).any fun k => (s.shuttle k).burst.any fun b => b.ring == ring && b.sub == sub

/-- Nothing more of a started descriptor will be formed. -/
def State.formedAll (s : State) (a : Act) : Bool := a.todo.isEmpty && !s.burstHeld a.ring a.sub

/-- A container of a started descriptor is being formed. -/
def State.actForming (s : State) (n sub : Nat) : Bool :=
  s.ep.src.held.any fun h => h.forming && h.msgs.any fun x => match x.owner with
    | .desc r m => r == n && m == sub
    | _ => false

/-- A started descriptor completes once nothing of it is outstanding and nothing more will be formed (R116); after XLATE_FAULT once no
burst of it is in progress, whatever it has sent (R140). -/
def State.settleAct (s : State) (n sub : Nat) : State :=
  match s.act? n sub with
  | none => s
  | some a =>
    if (if a.code = 3 then s.actForming n sub else decide (a.parts ≠ 0 ∨ (!s.formedAll a ∧ a.code = 0))) then s
    else
      let d := descOf a.raw
      let s1 := { s with ep := { s.ep with
        acts := s.ep.acts.filter fun x => !(x.ring == n && x.sub == sub), shuttles := endBursts s.ep.shuttles n sub } }
      (s1.postCompletion n sub a.code (if a.code = 0 then okInfo d else a.info) d.cookie).settleRing n

/-- One part of a started descriptor has ended. -/
def State.partDone (s : State) (n sub : Nat) : State :=
  (s.modAct n sub fun a => { a with parts := a.parts - 1 }).settleAct n sub

/-- One part of a started descriptor has ended with a code. -/
def State.partFailed (s : State) (n sub code info : Nat) : State :=
  (s.failAct n sub code info).partDone n sub

/-! ### Hank counters (R44-R50) -/

/-- A hank counter of the Plocen. -/
def State.hank (s : State) (i : Nat) : Nat := SMap.look (fun _ => 0) s.ep.hanks i

/-- `s` with a hank counter set (R50). -/
def State.setHank (s : State) (i v : Nat) : State :=
  { s with ep := { s.ep with hanks := SMap.put (fun _ => 0) s.ep.hanks i (v % 2 ^ 64) } }

/-- A hank counter advances by committed bytes (R45, R46). -/
def State.countHank (s : State) (i n : Nat) : State := s.setHank i (s.hank i + n)

/-! ### Direct loads and stores -/

/-- Reads of EP_HNK.FENCE whose stores have all committed or ended complete (R53). -/
def State.settleFences (s : State) : State :=
  let open_ (f : FenceRd) : Bool := f.waits.any fun i => s.ep.stores.any fun x => x.id == i
  let ready := s.ep.fences.filter fun f => !open_ f
  ready.foldl (fun t f => t.complete f.rid f.tag f.addr 0 f.len (t.regBytes .plocen Reg.epHnkFence f.len))
    { s with ep := { s.ep with fences := s.ep.fences.filter open_ } }

/-- A direct store has committed or ended; `lost` where it ended with target lost (R53, R180). -/
def State.storeDone (s : State) (id : Nat) (lost : Bool) : State :=
  if !s.ep.stores.any (fun x => x.id == id) then s
  else
    let s1 := { s with ep := { s.ep with stores := s.ep.stores.filter fun x => x.id != id } }
    let s2 := if lost then (s1.satFld .plocen Reg.epHnkFence 0 32 1).satFld .plocen Reg.epSeqLost 0 32 1 else s1
    s2.settleFences

/-- A direct load completes with a status of R85, and what comes for it later finds nothing (R86); LOST counts a target lost (R180). -/
def State.loadDone (s : State) (id status : Nat) (data : List Byte) : State :=
  match s.ep.loads.find? fun l => l.id == id with
  | none => s
  | some l =>
    let s1 := { s with ep := { s.ep with loads := s.ep.loads.filter fun x => x.id != id } }
    let s2 := if status = 3 then s1.satFld .plocen Reg.epSeqLost 0 32 1 else s1
    s2.complete l.rid l.tag l.addr status l.len (if status = 0 then data else [])

end Sys2Proof.Machine
end

