-- ==== Sys2Proof/Machine/EpWarpOps.lean ====
section
/-! DEFINITION. The warp plane of the Plocen (R109, R110, R193-R205, R225-R228, R233): bindings, the cells that a member
sends, landings, and how rounds follow one another. -/

namespace Sys2Proof.Machine

open Sys2Proof

/-- `s` with the Plocen's warp plane changed. -/
def State.modEw (s : State) (f : EpWarp → EpWarp) : State := { s with ep := { s.ep with warp := f s.ep.warp } }

/-- A phase record of the primary's slot. Every alternate keeps its phases, ROUNDS, CONTRIB, RESULT and PLANES (R206, R209). -/
def State.phOf (s : State) (ph : Nat) : PhaseRec := s.ptPhase s.ep.warp.primary ph

/-- A pattern record of the primary's slot. -/
def State.patOf (s : State) (pat : Nat) : PatRec := s.ptPattern s.ep.warp.primary pat

/-- A phase record of the slot in effect on port `j` (R209). -/
def State.phAt (s : State) (j ph : Nat) : PhaseRec := s.ptPhase (s.ptSlot j) ph

/-- The data phases of a pattern (R196). -/
def State.patPhases (s : State) (pat : Nat) : List Nat := upTo (s.patOf pat).first (s.patOf pat).last

/-- The planes that carry a slice of some data phase of a pattern. -/
def State.patPlanes (s : State) (pat : Nat) : List Nat :=
  (List.range 8).filter fun p => (s.patPhases pat).any fun q => bit p (s.phOf q).planes

/-- The STRIDE by which a pattern's rounds are paced: the largest that the slots in effect on its ports give (R209). -/
def State.strideOf (s : State) (pat : Nat) : Nat :=
  (s.patPlanes pat).foldl (fun m p => max m (s.ptPattern (s.ptSlot p) pat).stride) 1

/-- The skein that the Plocen is assigned to: EP_SEC.ASSIGN.SKEIN (R304, R344). -/
def State.epSkein (s : State) : Nat := s.fld .plocen Reg.epSecAssign 0 6

/-! ### Buffers (R226) -/

/-- Bytes of a round that come before phase `ph` in a buffer of phases `b.first` to `b.last`, by CONTRIB or RESULT of the records
of draft slot `sl`. -/
def State.before (s : State) (sl : Nat) (size : PhaseRec → Nat) (b : Binding) (ph : Nat) : Nat :=
  ((upTo b.first b.last).filter (· < ph)).foldl (fun n q => n + size (s.ptPhase sl q)) 0

/-- Bytes of a round in a buffer. -/
def State.perRound (s : State) (sl : Nat) (size : PhaseRec → Nat) (b : Binding) : Nat := s.before sl size b (b.last + 1)

/-- The place of a slice among those of a phase. -/
def PhaseRec.sliceIdx (r : PhaseRec) (slice : Nat) : Nat := (r.planeList.filter (· < slice)).length

/-- Offset and length of a cell's bytes in the contribution buffer, by the records of the slot of the port that sends it (R209). -/
def State.inPlace (s : State) (sl : Nat) (b : Binding) (ph round slice cell : Nat) : Nat × Nat :=
  let r := s.ptPhase sl ph
  let n := fmtBytes r.fin
  (round * s.perRound sl (·.contrib) b + s.before sl (·.contrib) b ph + r.sliceIdx slice * r.sliceIn + cell * n,
   min n (r.sliceIn - cell * n))

/-- Offset and length of a cell's bytes in the result buffer, by the records of the slot of the port that receives it (R209). -/
def State.outPlace (s : State) (sl : Nat) (b : Binding) (ph round slice cell : Nat) : Nat × Nat :=
  let r := s.ptPhase sl ph
  let n := fmtBytes r.fout
  (round * s.perRound sl (·.result) b + s.before sl (·.result) b ph + r.sliceIdx slice * r.sliceOut + cell * n,
   min n (r.sliceOut - cell * n))

/-- The global element index of a cell's first element (R226): elements of the binding's REDUCE phases before it. -/
def State.elemIndex (s : State) (sl : Nat) (b : Binding) (ph round slice cell : Nat) : Nat :=
  let size (r : PhaseRec) : Nat := if r.kind = 3 then r.planeList.length * r.elemsIn else 0
  let r := s.ptPhase sl ph
  round * s.perRound sl size b + s.before sl size b ph + r.sliceIdx slice * r.elemsIn + cell * fmtElems r.fin

/-! ### Bindings -/

/-- `s` with a binding changed. -/
def State.modBind (s : State) (id : Nat) (f : Binding → Binding) : State :=
  s.modEw fun w => { w with binds := w.binds.map fun b : Binding => if b.id = id then f b else b }

/-- A binding. -/
def State.bind? (s : State) (id : Nat) : Option Binding := s.ep.warp.binds.find? fun b => b.id == id

/-- The binding of a phase for an instance. -/
def State.bindFor (s : State) (pat inst ph : Nat) : Option Binding :=
  s.ep.warp.binds.find? fun b =>
    b.pattern == pat && b.inst == some inst && decide (b.first ≤ ph) && decide (ph ≤ b.last) && b.code.isNone

/-- A binding covers a phase. -/
def Binding.covers (b : Binding) (ph : Nat) : Bool := decide (b.first ≤ ph) && decide (ph ≤ b.last)

/-- The binding whose contribution a run's phase sends: an open one, or one that has completed while its round runs again (R201). -/
def State.bindOf (s : State) (r : Run) (ph : Nat) : Option Binding :=
  (s.bindFor r.pattern r.inst ph).or (r.done.find? fun b => b.covers ph)

/-- The planes that carry a slice of some phase of a binding. -/
def State.bindPlanes (s : State) (b : Binding) : List Nat :=
  (List.range 8).filter fun p => (upTo b.first b.last).any fun q => bit p (s.phOf q).planes

/-- The planes of a binding that have not left the warp plane (R208). -/
def State.remaining (s : State) (b : Binding) : List Nat := (s.bindPlanes b).filter fun p => !s.ep.warp.out.contains p

/-- A pattern record of the slot in effect on port `j` (R209). -/
def State.patAt (s : State) (j pat : Nat) : PatRec := s.ptPattern (s.ptSlot j) pat

/-- Whether a plane carries a CHECK emission of a pattern to this member: its port has a CHECK transmit slot (R211). -/
def State.checksOn (s : State) (pat plane : Nat) : Bool :=
  (s.patAt plane pat).check != 255 && allSlots.any fun n =>
    let e := s.ptEntry (s.ptSlot plane) n plane
    entryTx e == 1 && entryPh e == (s.patAt plane pat).check

/-- Every round of a binding's slices has passed its CHECK phase, where the pattern has one (R211). -/
def State.allPassed (s : State) (b : Binding) : Bool :=
  (s.bindPlanes b).all fun p => !s.checksOn b.pattern p
    || (s.ep.warp.runs.find? fun r => r.pattern == b.pattern).any fun r =>
      (List.range (s.patOf b.pattern).rounds).all fun k => r.passed.contains (p, k)

/-- Result cells that a binding lands in all (R202). -/
def State.bindTotal (s : State) (b : Binding) : Nat :=
  (s.patOf b.pattern).rounds
    * ((upTo b.first b.last).foldl (fun n q => n + (if (s.phOf q).result = 0 then 0 else (s.phOf q).planeList.length * (s.phOf q).cellsOut)) 0)

/-- A binding whose end is decided completes once no landing of it is outstanding (R109, R202). -/
def State.settleBind (s : State) (id : Nat) : State :=
  match s.bind? id with
  | none => s
  | some b =>
    match b.code with
    | none => s
    | some (c, i) =>
      if b.landing ≠ 0 then s
      else
        (s.modEw fun w => { w with binds := w.binds.filter fun x => x.id != id
                                   cells := w.cells.filter fun x => x.bind != id }).postCompletion b.ring b.sub c i
          (descOf b.raw).cookie

/-- A binding's end is decided: the first decision stands. -/
def State.endBind (s : State) (id code info : Nat) : State :=
  (s.modBind id fun b => { b with code := some (b.code.getD (code, info)) }).settleBind id

/-- `s` with a pattern's run changed. -/
def State.modRun (s : State) (pat : Nat) (f : Run → Run) : State :=
  s.modEw fun w => { w with runs := w.runs.map fun r : Run => if r.pattern = pat then f r else r }

/-- A binding completes with OK once every result cell has landed (R202) and, where its pattern has a CHECK phase, every round has
passed it (R211). Its run keeps it, for a round that must run again (R201). -/
def State.checkBind (s : State) (id : Nat) : State :=
  match s.bind? id with
  | none => s
  | some b =>
    if s.bindTotal b ≠ 0 ∧ s.bindTotal b ≤ b.landed.length ∧ s.allPassed b ∧ b.code.isNone then
      (s.modRun b.pattern fun r => if b.inst = some r.inst then { r with done := r.done ++ [b] } else r).endBind id 0 b.shadowed.length
    else s.settleBind id

/-! ### Runs -/

/-- The run of a pattern. -/
def State.run? (s : State) (pat : Nat) : Option Run := s.ep.warp.runs.find? fun r => r.pattern == pat

/-- An instance ends: its bindings complete with LATE_JOIN and the first VOID phase, or ATTACH_ERROR where their own
contribution read failed (R200, R202). -/
def State.endInstance (s : State) (pat ph : Nat) : State :=
  match s.run? pat with
  | none => s
  | some r =>
    let s1 := s.modEw fun w => { w with runs := w.runs.filter fun x => x.pattern != pat
                                        late := w.late.filter fun x => x.1 != pat }
    (s.ep.warp.binds.filter fun b : Binding => b.pattern == pat && b.inst == some r.inst).foldl
      (fun t b => if b.failed.isSome then t.endBind b.id 4 0 else t.endBind b.id 9 ph) s1

/-- A binding runs a slice's round on a plane (R208): on the slice's own plane, or on that to which it was dealt as an orphan. -/
def Run.runsOn (r : Run) (b : Binding) (plane slice round : Nat) : Bool :=
  slice == plane || r.dealt.contains (b.id, plane, slice, round)

/-- The cells of a contribution that a plane's round needs are read (R202): a replay reads them again. -/
def State.readCells (s : State) (b : Binding) (plane slice round : Nat) : State :=
  if b.failed.isSome then s
  else
    (upTo b.first b.last).foldl (fun t ph =>
      let r := t.phAt plane ph
      if r.contrib = 0 ∨ r.op = 0x09 ∨ !bit slice r.planes then t
      else
        (List.range ((r.sliceIn + fmtBytes r.fin - 1) / fmtBytes r.fin)).foldl (fun t k =>
          if t.ep.warp.cells.any fun x => x.bind == b.id && x.phase == ph && x.slice == slice && x.round == round && x.cell == k
          then t
          else
            let (o, n) := t.inPlace (t.ptSlot plane) b ph round slice k
            let ps := pieces ((descOf b.raw).locl + o) n
            (t.modEw fun w => { w with cells := w.cells ++ [{ bind := b.id, phase := ph, round := round, slice := slice, cell := k
                                                              data := List.replicate n 0, left := ps.length, bad := false }] }).request
              (ps.map fun p => { kind := 1, use := some (.contribution b.id ph round slice k p.2.1), addr := p.1, len := p.2.2,
                                 data := [], aux := 0 })) t) s

/-- The cells that a run's planes send in the present frame are read. -/
def State.readRun (s : State) (pat : Nat) : State :=
  match s.run? pat with
  | none => s
  | some r =>
    ((s.ep.warp.binds.filter fun b : Binding => b.pattern == pat && b.inst == some r.inst && b.code.isNone) ++ r.done).foldl
      (fun t b => (r.cur.filter fun c => r.runsOn b c.1 c.2.1 c.2.2).foldl (fun t c => t.readCells b c.1 c.2.1 c.2.2) t) s

/-- A contribution read has ended (R202): where it failed, the member sends empties from that cell's slot on. -/
def State.contribDone (s : State) (bind ph round slice cell off : Nat) (data : List Byte) (ok : Bool) : State :=
  if ok then
    s.modEw fun w => { w with cells := w.cells.map fun x : CellData =>
      if x.bind = bind ∧ x.phase = ph ∧ x.round = round ∧ x.slice = slice ∧ x.cell = cell then
        { x with data := spliceBytes x.data off data, left := x.left - 1 } else x }
  else s.modEw fun w => { w with cells := w.cells.map fun x : CellData =>
      if x.bind = bind ∧ x.phase = ph ∧ x.round = round ∧ x.slice = slice ∧ x.cell = cell then { x with bad := true } else x }

/-- Rounds of slice `p` dealt in ascending order, round-robin over the remaining planes (R208). -/
def dealRounds (planes : List Nat) (p : Nat) (rounds : List Nat) : List (Nat × Nat × Nat) :=
  if planes.isEmpty then []
  else rounds.zipIdx.map fun x => ((planes[x.2 % planes.length]?).getD 0, p, x.1)

/-- The orphans of slice `p` that each binding deals over its own remaining planes but `p` (R208). -/
def State.dealAll (s : State) (bs : List Binding) (p : Nat) (rounds : List Nat) : List (Nat × Nat × Nat × Nat) :=
  (bs.filter fun b => (s.bindPlanes b).contains p).flatMap fun b =>
    (dealRounds ((s.remaining b).filter fun q => q != p) p rounds).map fun x => (b.id, x)

/-- The planes' orphans of some deals, in ascending round order. -/
def dealtRounds (rounds : Nat) (l : List (Nat × Nat × Nat × Nat)) : List (Nat × Nat × Nat) :=
  ((List.range rounds).flatMap fun k => (l.filter fun x => x.2.2.2 == k).map fun x => x.2).dedup

/-- GO of an instance arrives on a plane (R198): the plane's round 0 runs in the next frame. The instance starts with its
first GO: the oldest waiting bindings that do not overlap belong to it (R109). The rounds of planes that have left the warp plane are
orphans from the start, and a binding with no plane left completes with NO_PLANE (R208). -/
def State.goRun (s : State) (pat inst plane : Nat) : State :=
  let f := frameOf s.now + 1
  let s1 :=
    match s.run? pat with
    | some _ => s
    | none =>
      let mine := (s.ep.warp.binds.filter fun b : Binding => b.pattern == pat && b.inst.isNone && b.code.isNone).foldl
        (fun (l : List Binding) (b : Binding) => if l.any fun x : Binding => decide (x.first ≤ b.last) && decide (b.first ≤ x.last) then l else l ++ [b]) []
      let deals := s.ep.warp.out.flatMap fun p => s.dealAll mine p (List.range (s.patOf pat).rounds)
      let r : Run := { pattern := pat, inst := inst, start := f, next := [], orphans := dealtRounds (s.patOf pat).rounds deals, cur := []
                       replay := [], checks := [], history := [], dealt := deals, passed := [], done := [] }
      (mine.filter fun b : Binding => !(s.bindPlanes b).isEmpty && (s.remaining b).isEmpty).foldl (fun t (b : Binding) => t.endBind b.id 6 0) (s.modEw fun w => { w with
        runs := w.runs ++ [r], inst := SMap.put (fun _ => 0) w.inst pat ((inst + 1) % 2 ^ 16)
        binds := w.binds.map fun b : Binding => if mine.any fun x : Binding => x.id == b.id then { b with inst := some inst } else b })
  match s1.run? pat with
  | none => s1
  | some r =>
    if r.inst ≠ inst ∨ r.next.any (fun x => x.1 == plane) ∨ !(s1.patPlanes pat).contains plane ∨ s1.ep.warp.out.contains plane then s1
    else
      let s2 := s1.modRun pat fun r => { r with next := r.next ++ [(plane, 0, f)] }
      (s2.ep.warp.binds.filter fun b : Binding => b.pattern == pat && b.inst == some inst && b.code.isNone).foldl
        (fun t b => t.readCells b plane plane 0) s2

/-- A result cell lands (R202), at the place that the records of draft slot `sl` give: written each time it arrives. -/
def State.landCell (s : State) (sl : Nat) (b : Binding) (ph slice round cell : Nat) (payload : List Byte) : State :=
  let (o, n) := s.outPlace sl b ph round slice cell
  if n = 0 then s
  else
    let id := s.ep.warp.nextId
    let ps := pieces ((descOf b.raw).opb + o) n
    let s1 := s.modEw fun w => { w with
      nextId := id + 1
      binds := w.binds.map fun x : Binding => if x.id = b.id then { x with landing := x.landing + 1 } else x
      landings := w.landings ++ [{ id := id, bind := b.id, phase := ph, slice := slice, round := round, cell := cell, bytes := n,
                                   left := ps.length, failed := false }] }
    s1.landWrites (ps.map fun p => { kind := 2, use := some (.warpLand id), addr := p.1, len := p.2.2,
                                     data := sliceBytes payload p.2.1 p.2.2, aux := 0 })

/-- One write of a landing has ended (R45, R202). A landing that failed leaves its cell not landed; the first that succeeds counts its
bytes (R47). -/
def State.warpLanded (s : State) (id : Nat) (ok : Bool) : State :=
  match s.ep.warp.landings.find? fun l => l.id == id with
  | none => s
  | some l =>
    let bad := l.failed || !ok
    if 1 < l.left then
      s.modEw fun w => { w with landings := w.landings.map fun x : WarpLanding =>
        if x.id = id then { x with left := x.left - 1, failed := bad } else x }
    else
      let key := (l.phase, l.slice, l.round, l.cell)
      let s1 := s.modEw fun w => { w with
        landings := w.landings.filter fun x => x.id != id
        binds := w.binds.map fun b : Binding =>
          if b.id = l.bind then
            { b with landing := b.landing - 1
                     landed := if bad || b.landed.contains key then b.landed else b.landed ++ [key] }
          else b }
      let s2 := match s.bind? l.bind with
        | some b => if !b.landed.contains key && !bad then s1.countHank (descOf b.raw).lhank l.bytes else s1
        | none => s1
      s2.checkBind l.bind

/-! ### Shadows (R204, R205) -/

/-- Where a round's shadow slot starts in fabric-resident memory (R204): base and offset from the registers of the
package. -/
def State.shadowAt (s : State) (r : PhaseRec) (rounds inst round : Nat) : Nat :=
  s.reg .ronpex Reg.drfShadowBase * 2 ^ 20 + r.shOff * 65536
    + (inst * rounds + round) % max r.shRounds 1 * (64 + r.sliceOut)

/-- A shadow READ goes to the Ronpex of the plane that ran the round, on any live plane that R123 chooses (R205). -/
def State.shadowRead (s : State) (plane addr n : Nat) (own : Owner) : State :=
  let node := s.fld .plocen (Reg.epSeqWnode plane) 0 15
  match planeOf node addr (maskOf s.livePlanes) with
  | none => s
  | some p =>
    (s.hold .plocen node s.epSkein p (maskOf s.livePlanes) .waiting
      { opc := 2, len := n, reply := false, ord := false, hank := 0, seq := 0, offset := addr, ttag := 0, data := [] } own).1

/-- Cells of a phase's slice that a binding has not received in a round that a plane ran. -/
def State.lacking (s : State) (b : Binding) (plane ph slice round : Nat) : List Nat :=
  (List.range (s.phAt plane ph).cellsOut).filter fun c =>
    !b.landed.contains (ph, slice, round, c)
      && !s.ep.warp.landings.any fun l => l.bind == b.id && (l.phase, l.slice, l.round, l.cell) == (ph, slice, round, c)

/-- Phases of a pattern that land results of a slice. -/
def State.resultPhases (s : State) (pat slice : Nat) : List Nat :=
  (s.patPhases pat).filter fun q => (s.phOf q).result != 0 && bit slice (s.phOf q).planes

/-- A phase of a run lacks no result cell of a slice's round: its binding has received them all, or has completed, or runs that round
on another plane. A phase without a binding is not done. -/
def State.phaseDone (s : State) (r : Run) (plane slice round q : Nat) : Bool :=
  match s.bindFor r.pattern r.inst q with
  | some b => !r.runsOn b plane slice round || (s.lacking b plane q slice round).isEmpty
  | none => r.done.any fun b => b.covers q

/-- Every result cell of a slice's round has been received, and its CHECK emission where the plane carries one (R211). -/
def State.sliceDone (s : State) (r : Run) (plane slice round : Nat) : Bool :=
  ((s.resultPhases r.pattern slice).all fun q => s.phaseDone r plane slice round q)
  && (!s.checksOn r.pattern plane || r.checks.contains (plane, round))

/-- Every phase of which a cell is lacking keeps a shadow. -/
def State.shadowServes (s : State) (r : Run) (plane slice round : Nat) : Bool :=
  !s.checksOn r.pattern plane && (s.resultPhases r.pattern slice).all fun q =>
    s.phaseDone r plane slice round q || ((s.bindFor r.pattern r.inst q).isSome && (s.phAt plane q).shadow)

/-- The status of a round is fetched from the shadow of each phase of which a cell is lacking (R201). -/
def State.shadowFetch (s : State) (r : Run) (plane slice round : Nat) : State :=
  (s.resultPhases r.pattern slice).foldl (fun t q =>
    match t.bindFor r.pattern r.inst q with
    | none => t
    | some b =>
      if t.phaseDone r plane slice round q then t
      else t.shadowRead plane (t.shadowAt (t.phAt plane q) (t.patOf r.pattern).rounds r.inst round) 64
        (.shadow b.id plane q slice round 0 true)) s

/-- The lacking cells of a round that ended OK are read from the phase's shadow (R205): a phase round that has used none yet is counted
(R216). -/
def State.shadowCells (s : State) (b : Binding) (plane inst ph slice round : Nat) : State :=
  let r := s.phAt plane ph
  let a := s.shadowAt r (s.patOf b.pattern).rounds inst round
  let n := fmtBytes r.fout
  let s1 := if b.shadowed.contains (ph, round) then s
    else (s.modBind b.id fun b => { b with shadowed := b.shadowed ++ [(ph, round)] }).satFld .plocen Reg.epSeqWcnt 16 16 1
  (s.lacking b plane ph slice round).foldl (fun t c =>
    t.shadowRead plane (a + 64 + c * n) (min n (r.sliceOut - c * n)) (.shadow b.id plane ph slice round c false)) s1

/-- A transmit slot of a pattern's rounds has passed on a port in this frame. -/
def State.patSent (s : State) (j pat : Nat) : Bool :=
  (List.range (slotOf s.now)).any fun m =>
    let e := s.ptEntry (s.ptSlot j) m j
    (entryTx e == 1 || entryTx e == 3) && (s.phAt j (entryPh e)).pattern == pat && (s.phAt j (entryPh e)).kind != 1

/-- A slice's round that has turned out to be a REPLAY runs again on its plane from a round on (R201): in the present frame where no transmit
slot of the pattern has passed on the plane, and else in the next. What the plane was to run keeps its place. -/
def State.rerun (s : State) (pat plane slice round : Nat) : State :=
  match s.run? pat with
  | none => s
  | some r =>
    let f := frameOf s.now
    let now? := r.cur.find? fun c => c.1 == plane
    if now?.any fun c => c.2.1 == slice && decide (c.2.2 ≤ round) then s
    else if s.patSent plane pat then
      s.modRun pat fun r =>
        if slice = plane then { r with next := r.next.map fun x => if x.1 = plane then (x.1, min x.2.1 round, f + 1) else x }
        else { r with orphans := (plane, slice, round) :: r.orphans.filter fun o => o != (plane, slice, round) }
    else
      (s.modRun pat fun r => { r with
        cur := r.cur.filter (fun c => c.1 != plane) ++ [(plane, slice, round)]
        orphans := now?.toList.filter (fun c => c.2.1 != plane) ++ r.orphans.filter fun o => o != (plane, slice, round)
        next := if slice = plane then r.next.map fun x => if x.1 = plane then (x.1, min x.2.1 round, f) else x else r.next
        history := r.history.filter (fun h => !(h.1 == f && h.2.1 == plane)) ++ [(f, plane, slice, round)] }).readRun pat

/-- The answer of a shadow READ. A tally of the round with status OK has the lacking cells read; one with VOID ends the instance; else
the round runs again (R201, R205). A cell lands. -/
def State.shadowData (s : State) (bind plane ph slice round cell : Nat) (tally : Bool) (data : List Byte) : State :=
  match s.bind? bind with
  | none => s
  | some b =>
    if tally then
      match b.inst with
      | none => s
      | some i =>
        let same := fieldNat data 2 2 == i && fieldNat data 4 4 == round
        if same && fieldNat data 0 1 == 2 then s.endInstance b.pattern ph
        else if same && fieldNat data 0 1 == 0 then s.shadowCells b plane i ph slice round
        else s.rerun b.pattern plane slice round
    else s.landCell (s.ptSlot plane) b ph slice round cell data

/-! ### Rounds at a frame boundary (R201) -/

/-- What becomes of the round that a plane ran in the frame that has ended: the run, and whether its shadow is read. -/
def State.closeRound (s : State) (f : Nat) (r : Run) (c : Nat × Nat × Nat) : Run × Bool :=
  let (p, slice, round) := c
  let again (r0 : Nat) : Run :=
    if slice = p then { r with next := r.next.map fun x => if x.1 = p then (p, r0, f) else x }
    else { r with orphans := (p, slice, r0) :: r.orphans }
  let go_on : Run :=
    if slice = p then
      { r with next := r.next.map fun x => if x.1 = p then (p, round + 1, f - 1 + s.strideOf r.pattern) else x }
    else r
  match r.replay.find? fun x => x.1 == p with
  | some x => (again x.2, false)
  | none =>
    if s.sliceDone r p slice round then (go_on, false)
    else if s.shadowServes r p slice round then (go_on, true)
    else (again round, false)

/-- What each plane runs in frame `f` (R194, R208): its orphans before its own remaining rounds. -/
def State.openRounds (s : State) (f : Nat) (r : Run) : Run :=
  let rounds := (s.patOf r.pattern).rounds
  let pick (r : Run) (p : Nat) : Run :=
    match r.orphans.find? fun o => o.1 == p with
    | some o => { r with orphans := r.orphans.erase o, cur := r.cur ++ [o] }
    | none =>
      match r.next.find? fun x => x.1 == p with
      | some x => if x.2.1 < rounds ∧ x.2.2 ≤ f then { r with cur := r.cur ++ [(p, p, x.2.1)] } else r
      | none => r
  let r1 := ((List.range 8).filter fun p => !s.ep.warp.out.contains p).foldl pick { r with cur := [], replay := [], checks := [] }
  { r1 with history := (r1.history.filter fun h => decide (f < h.1 + 4)) ++ r1.cur.map fun c => (f, c) }

/-- A run has no round left, and no binding of it still waits for a result. -/
def State.runOver (s : State) (r : Run) : Bool :=
  r.cur.isEmpty && r.orphans.isEmpty && (r.next.all fun x => decide ((s.patOf r.pattern).rounds ≤ x.2.1))
    && !s.ep.warp.binds.any fun b => b.pattern == r.pattern && b.inst == some r.inst && s.bindTotal b != 0

/-- The rounds of a run that has ended a frame are closed: `f` is the frame that begins. -/
def State.closeRun (s : State) (f : Nat) (pat : Nat) : State :=
  match s.run? pat with
  | none => s
  | some r =>
    let (r1, fetch) := r.cur.foldl (fun (a : Run × List (Nat × Nat × Nat)) c =>
      let (x, b) := s.closeRound f a.1 c
      (x, if b then a.2 ++ [c] else a.2)) (r, [])
    let s1 := s.modRun pat fun _ => { r1 with cur := [] }
    -- cells that have been sent are read afresh if their round runs again
    let s2 := s1.modEw fun w => { w with cells := w.cells.filter fun x =>
      !(r.cur.any fun c => c.2.1 == x.slice && c.2.2 == x.round
          && ((s.ep.warp.binds ++ r.done).any fun b => b.id == x.bind && b.pattern == pat)) }
    fetch.foldl (fun t c => t.shadowFetch r c.1 c.2.1 c.2.2) s2

/-- A binding has landed every result of a round, on whatever planes its slices ran. -/
def State.roundLanded (s : State) (b : Binding) (round : Nat) : Bool :=
  (upTo b.first b.last).all fun q => (s.phOf q).result == 0 || (s.phOf q).planeList.all fun sl =>
    (List.range (s.phOf q).cellsOut).all fun c => b.landed.contains (q, sl, round, c)

/-- How many rounds of a run are complete, counted from the first (R197): each has run on every plane and is not to run again, and every
result of it has landed. -/
def State.roundsHeld (s : State) (r : Run) : Nat :=
  let bs := s.ep.warp.binds.filter fun b : Binding => b.pattern == r.pattern && b.inst == some r.inst && b.code.isNone
  let planes := (s.patPlanes r.pattern).filter fun p => !s.ep.warp.out.contains p
  ((List.range (s.patOf r.pattern).rounds).takeWhile fun k =>
    (planes.all fun p => r.next.any fun x => x.1 == p && decide (k < x.2.1))
      && !(r.cur ++ r.orphans).any (fun c => decide (c.2.2 ≤ k)) && bs.all fun b => s.roundLanded b k).length

/-- The rounds that a run runs in frame `f` are opened, and what they contribute is read; a run with no round left is over, and is kept for
three frames. -/
def State.openRun (s : State) (f : Nat) (pat : Nat) : State :=
  match s.run? pat with
  | none => s
  | some r =>
    let r2 := s.openRounds f r
    let held := s.roundsHeld r2
    let s3 := s.modEw fun w => { w with
      runs := w.runs.map fun x : Run => if x.pattern = pat then r2 else x
      complete := if 0 < held then SMap.set w.complete pat (r.inst, held - 1) else w.complete }
    if s3.runOver r2 then
      let s4 := s3.modEw fun w => { w with runs := w.runs.filter fun x => x.pattern != pat
                                           past := (f, r2) :: w.past.filter fun x => decide (f < x.1 + 3)
                                           late := w.late.filter fun x => x.1 != pat }
      (s4.ep.warp.binds.filter fun b : Binding => b.pattern == pat && b.inst == some r.inst && s4.bindTotal b == 0).foldl
        (fun t b => t.endBind b.id 0 0) s4
    else s3.readRun pat

/-- A run has opened its rounds of frame `f`. -/
def Run.opened (r : Run) (f : Nat) : Bool := !r.cur.isEmpty && r.history.any fun h => h.1 == f

/-- Runs whose rounds belong to an earlier frame are closed. -/
def State.closeRuns (s : State) : State :=
  let f := frameOf s.now
  ((s.ep.warp.runs.filter fun r => !r.opened f).map fun r : Run => r.pattern).foldl (fun t p => t.closeRun f p) s

/-- Runs open the rounds of the frame that begins. -/
def State.openRuns (s : State) : State :=
  let f := frameOf s.now
  ((s.ep.warp.runs.filter fun r => !r.opened f).map fun r : Run => r.pattern).foldl (fun t p => t.openRun f p) s

/-! ### Cells that a member sends (R194, R197, R198, R211, R225, R228, R233) -/

/-- The code of one element truncated to its anchor before it is sent (R228): a value that has no truncation keeps its
code, since the spindle flags it. -/
def memberCode (r : RedOp) (ff : FpFmt) (scale : Option Nat) (anchor : Bool × Int) (c : Nat) : Nat :=
  match truncate anchor.1 anchor.2 r.w (elemVal r.fin scale c) with
  | .q z =>
    let e : Int := anchor.2 - r.w - (match scale with | some k => (k : Int) - 127 | none => 0)
    if z = 0 then 0 else ff.encode false none (.fin (decide (z < 0)) z.natAbs e)
  | _ => c

/-- A contribution cell's payload as a member sends it: truncated where its phase is an anchored sum (R228, R241). -/
def memberPayload (r : RedOp) (anchors : List Nat) (d : List Byte) : List Byte :=
  match fmtFp r.fin with
  | none => d
  | some ff =>
    if !r.anchored then d
    else
      let code (x : Nat × Nat) : Nat :=
        let scale := if fmtIsMx r.fin then some ((d[x.2 / 32]?).getD 0).toNat else none
        memberCode r ff scale (blockAnchor r anchors 0 x.2) x.1
      let body := packElems (fmtBits r.fin) ((elemCodes r.fin (sliceBytes d 0 768)).zipIdx.map code)
      if fmtIsMx r.fin then sliceBytes d 0 24 ++ body else body

/-- The fp32 code of t = s * 2^(c - C) as a member sends it (R241): exact in Class F, truncated with the fixed anchor 25 in Class
D; an s that is negative, NaN, or 2^24 or more is sent as NaN. -/
def lseCode (r : RedOp) (s c cMax : Nat) : Nat :=
  match lseTest (fp32.decode s) with
  | .fin n m e =>
    let v : Val := .fin n m (e + signed 32 c - signed 32 cMax)
    fp32.encode false none (if r.classF then v else (truncate true 25 r.w v).val 25 r.w)
  | _ => fp32.nanCode

/-- The payload of an LSE cell (R241): its s_i, its c_i, and the maxima C that its port holds. -/
def lsePayload (r : RedOp) (d c cMax : List Byte) : List Byte :=
  packElems 32 ((List.range 192).map fun i => lseCode r (fieldNat d (4 * i) 4) (fieldNat c (4 * i) 4) (fieldNat cMax (4 * i) 4))

/-- The header of a cell that the Plocen sends on port `j` (R197). -/
def State.memberCell (s : State) (j ctrl ph inst round slice cell opdata : Nat) (payload : List Byte) : WarpCell :=
  sealedCell { dir := false, ctrl := ctrl, node := s.ownNode .plocen, skein := s.epSkein, epoch := s.epoch .plocen % 256,
               phase := ph, draft := s.ptSlot j, inst := inst, round := round % 2 ^ 16, cell := cell, slice := slice, status := 0,
               count := 0, opdata := opdata, crc := 0, payload := sliceBytes payload 0 768 }

/-- How many earlier slots of the frame carry the same phase and use on a port (R194). -/
def State.txIndex (s : State) (j n ph u : Nat) : Nat :=
  ((List.range n).filter fun m =>
    let e := s.ptEntry (s.ptSlot j) m j
    entryTx e == u && entryPh e == ph).length

/-- How many sky slots come directly before slot `n` of a port. -/
def State.skyPos (s : State) (j n : Nat) : Nat :=
  (((List.range n).reverse).takeWhile fun m => entryTx (s.ptEntry (s.ptSlot j) m j) == 3).length

/-- Slot `n` is the last of its sky run. -/
def State.skyLast (s : State) (j n : Nat) : Bool :=
  decide (frameSlots ≤ n + 1) || entryTx (s.ptEntry (s.ptSlot j) (n + 1) j) != 3

/-- How many earlier sky slots of the frame carry data of the same phase on a port: neither the deskew burst nor the tag cell (R210, R335). -/
def State.skyIndex (s : State) (j n ph : Nat) : Nat :=
  ((List.range n).filter fun m =>
    let e := s.ptEntry (s.ptSlot j) m j
    entryTx e == 3 && entryPh e == ph && decide (50 ≤ s.skyPos j m) && !s.skyLast j m).length

/-- What a READY cell names while its sender holds no round complete: INST and ROUND all ones (DESIGN CHOICE, log 140). -/
def noneHeld : Nat × Nat := (2 ^ 16 - 1, 2 ^ 16 - 1)

/-- The READY cell of a pattern (R197, R198). A plane whose GO has not come while the instance runs on others still waits for it (log 79). -/
def State.readyCell (s : State) (j ph pat : Nat) : WarpCell :=
  let held := SMap.look (fun _ => noneHeld) s.ep.warp.complete pat
  let first := (s.patAt j pat).first
  let ready := match s.run? pat with
    | none => s.ep.warp.binds.any fun b => b.pattern == pat && b.inst.isNone && b.code.isNone && b.covers first
    | some r => !(r.next.any fun x => x.1 == j) && (s.patPlanes pat).contains j && (s.bindOf r first).isSome
  s.memberCell j 1 ph held.1 held.2 j 0 0 (leBytes 4 (ofBool ready))

/-- The contribution data of a cell, once all of it has been read. -/
def State.cellData (s : State) (bind ph round slice cell : Nat) : Option (List Byte) :=
  (s.ep.warp.cells.find? fun x => x.bind == bind && x.phase == ph && x.round == round && x.slice == slice && x.cell == cell
    && x.left == 0 && !x.bad).map fun x : CellData => x.data

/-- The anchor codes of cell `m` of an ANCHOR phase on port `j`: those of blocks 768m to 768m + 767 of the SUM phase that it serves
(R233); none while data that it needs has not arrived. -/
def State.anchorCell (s : State) (b : Binding) (j ph round slice m : Nat) : Option (List Byte) :=
  match ((upTo (ph + 1) b.last).find? fun q => (s.phAt j q).anchoredSum) with
  | none => none
  | some q =>
    let r := s.phAt j q
    let per := fmtElems r.fin / 32
    let blocks := (r.elemsIn + 31) / 32
    let want := (List.range 768).map (768 * m + ·)
    let codes := want.map fun i =>
      if blocks ≤ i then some (BitVec.ofNat 8 0)
      else (s.cellData b.id q round slice (i / per)).map fun d =>
        BitVec.ofNat 8 (anchorCode (((cellVals r.fin (sliceBytes d 0 768)).drop (32 * (i % per))).take 32))
    if codes.all Option.isSome then some (codes.map fun c => c.getD 0) else none

/-- The c_i that an LSE cell needs: those of the LSE_MAX phase before it in the pattern (R241). -/
def State.lseMaxData (s : State) (r : Run) (ph round slice k : Nat) : Option (List Byte) :=
  (((s.patPhases r.pattern).filter fun q => decide (q < ph) && (s.phOf q).op == 0x0B).getLast?).bind fun q =>
    (s.bindOf r q).bind fun b => s.cellData b.id q round slice k

/-- The anchor store of a port, as the 768 bytes from byte 768k on (R233, R241). -/
def State.anchorBytes (s : State) (j k : Nat) : List Byte :=
  (List.range 768).map fun i => BitVec.ofNat 8 (SMap.look (fun _ => 0) s.ep.warp.anchors (65536 * j + 768 * k + i))

/-- The data cell that port `j` sends for phase `ph` in the present slot, if there is one (R194, R202, R225). -/
def State.dataCell (s : State) (j ph k : Nat) (r : Run) (slice round : Nat) : Option WarpCell :=
  match s.bindOf r ph with
  | none => none
  | some b =>
    let x := s.phAt j ph
    if b.failed.any (fun t => decide (t < s.now)) ∨ !bit slice x.planes ∨ !r.runsOn b j slice round then none
    else if x.op = 0x09 then
      (s.anchorCell b j ph round slice k).map fun d => s.memberCell j 0 ph r.inst round slice k 0 d
    else if x.contrib = 0 ∨ (s.inPlace (s.ptSlot j) b ph round slice k).2 = 0 then none
    else
      (s.cellData b.id ph round slice k).bind fun d =>
        let red := x.red
        let per := fmtElems x.fin / 32
        let anchors := (List.range 24).map fun i => SMap.look (fun _ => 0) s.ep.warp.anchors (65536 * j + k * per + i)
        let opdata :=
          if x.kind ≠ 3 then 0
          else if x.op = 0x07 then packFields [(7, x.topkK), (7, x.topkL)]
          else if (x.op = 0x01 ∨ x.op = 0x08) ∧ !(x.fin = 0x05 ∨ x.fin = 0x06) then
            packFields [(32, bits 32 32 (descOf b.raw).opa), (40, s.elemIndex (s.ptSlot j) b ph round slice k)]
          else 0
        let pay : Option (List Byte) :=
          if x.op = 0x08 ∧ x.fin = 0x00 then (s.lseMaxData r ph round slice k).map fun c => lsePayload red d c (s.anchorBytes j k)
          else some (if x.kind = 3 then memberPayload red anchors d else d)
        pay.map fun d => s.memberCell j 0 ph r.inst round slice k opdata d

/-- Whether every cell of the sky runs of a run's round has been received with a valid CRC and tag (R211, R335). -/
def State.skyGood (s : State) (j : Nat) (r : Run) (slice round : Nat) : Bool :=
  ((s.patPhases r.pattern).filter fun q => (s.phAt j q).kind == 4 && bit slice (s.phAt j q).planes).all fun q =>
    (SMap.look (fun _ => {}) s.ep.warp.skyRx j).good && s.phaseDone r j slice round q

/-- The cells of a contribution that the cell `k` of phase `ph` is made of: its own bytes; for an anchor cell the blocks of the SUM phase
that follows; for an LSE cell the c_i of the LSE_MAX phase before it too (R233, R241). -/
def State.madeOf (s : State) (b : Binding) (r : Run) (j ph k : Nat) : List (Nat × Nat) :=
  if (s.phAt j ph).op = 0x09 then
    match ((upTo (ph + 1) b.last).find? fun q => (s.phAt j q).anchoredSum) with
    | none => []
    | some q =>
      let per := max (fmtElems (s.phAt j q).fin / 32) 1
      (upTo (768 * k / per) ((768 * k + 767) / per)).map fun c => (q, c)
  else if (s.phAt j ph).op = 0x08 then
    (ph, k) :: (((s.patPhases r.pattern).filter fun q => decide (q < ph) && (s.phAt j q).op == 0x0B).getLast?).toList.map fun q => (q, k)
  else [(ph, k)]

/-- The transmit slot of a cell whose contribution could not be read comes: from it on, the binding's phases send empties (R202). -/
def State.noteFailed (s : State) (j n ph : Nat) : State :=
  match s.run? (s.phAt j ph).pattern with
  | none => s
  | some r =>
    match r.cur.find? (fun c => c.1 == j), s.bindFor r.pattern r.inst ph with
    | some (_, slice, round), some b =>
      let u := entryTx (s.ptEntry (s.ptSlot j) n j)
      let ids := s.madeOf b r j ph (if u = 3 then s.skyIndex j n ph else s.txIndex j n ph u)
      if b.failed.isNone && s.ep.warp.cells.any fun x => x.bind == b.id && x.slice == slice && x.round == round && x.bad
          && ids.contains (x.phase, x.cell) then
        s.modBind b.id fun b => { b with failed := some s.now }
      else s
    | _, _ => s

/-- The cell that port `j` sends in a warp slot of phase `ph` (TXU 1), if it has one. -/
def State.warpTx (s : State) (j n ph : Nat) : Option WarpCell :=
  let x := s.phAt j ph
  let k := s.txIndex j n ph 1
  if x.kind = 1 then some (s.readyCell j ph x.pattern)
  else
    match s.run? x.pattern with
    | none => none
    | some r =>
      match r.cur.find? fun c => c.1 == j with
      | none => none
      | some (_, slice, round) =>
        if x.kind = 5 then
          some (s.memberCell j 3 ph r.inst round slice k 0 (leBytes 4 (ofBool (s.skyGood j r slice round))))
        else s.dataCell j ph k r slice round

/-- A phase of a running instance whose first slot comes with no binding is late (R110): counted once. -/
def State.noteLate (s : State) (j ph : Nat) : State :=
  let x := s.phAt j ph
  match s.run? x.pattern with
  | none => s
  | some r =>
    if (r.done.any fun b => b.covers ph) then s
    else if x.kind = 1 ∨ x.kind = 5 ∨ !(r.cur.any fun c => c.1 == j) ∨ (s.bindFor r.pattern r.inst ph).isSome
        ∨ s.ep.warp.late.contains (x.pattern, ph) ∨ s.ep.warp.binds.any (fun b : Binding => b.pattern == x.pattern && b.inst == some r.inst
            && decide (b.first ≤ ph) && decide (ph ≤ b.last)) then s
    else (s.modEw fun w => { w with late := w.late ++ [(x.pattern, ph)] }).satFld .plocen Reg.epSeqWcnt 0 16 1

end Sys2Proof.Machine
end

