-- ==== Sys2Proof/Machine/XltOps.lean ====
section
/-! DEFINITION. Extent translation (R129-R148): lookups in the micro-caches and the extent cache, inbound extents, and
the records of the miss ring. -/

namespace Sys2Proof.Machine

open Sys2Proof

/-- `s` with the translation unit changed. -/
def State.modXlt (s : State) (f : Xlt → Xlt) : State := { s with ep := { s.ep with xlt := f s.ep.xlt } }

/-- EP_XLT.CTL.EN. -/
def State.xltOn (s : State) : Bool := s.flag .plocen Reg.epXltCtl 0

/-- Entries of the miss ring (R135). -/
def State.missSize (s : State) : Nat := 2 ^ (6 + min (s.fld .plocen Reg.epXltRcfg 0 4) 10)

/-- Entries of the fill ring (R135). -/
def State.fillSize (s : State) : Nat := 2 ^ (6 + min (s.fld .plocen Reg.epXltRcfg 4 4) 10)

/-! ### Outbound extents -/

/-- The end of an outbound extent's range. -/
def OutExt.stop (e : OutExt) : Nat := e.start + 4096 * e.pages

/-- An outbound extent covers an address of its tag (R129). -/
def OutExt.covers (e : OutExt) (tag va : Nat) : Bool := e.tag == tag && decide (e.start ≤ va) && decide (va < e.stop)

/-- Access kinds by their PERM bit: 0 read, 1 write, 2 atomic (R131). -/
def OutExt.allows (e : OutExt) (kind : Nat) : Bool := bit kind e.perm

/-- What a lookup finds (R132). -/
inductive Lookup where
  | hit (e : OutExt)
  | fault (e : OutExt)
  | miss
  deriving DecidableEq, Repr

/-- An entry moved to the most recently used end. -/
def touch (l : List OutExt) (e : OutExt) : List OutExt := (l.filter fun x => x != e) ++ [e]

/-- A micro-cache: that of shuttle 0-15, or of the direct path, 16 (R133). -/
def State.micro (s : State) (m : Nat) : List OutExt := if m < 16 then (s.shuttle m).micro else s.ep.xlt.dMicro

/-- `s` with a shuttle changed. -/
def State.modShuttle (s : State) (k : Nat) (f : Shuttle → Shuttle) : State :=
  { s with ep := { s.ep with shuttles := SMap.put (fun _ => {}) s.ep.shuttles k (f (s.shuttle k)) } }

/-- `s` with a micro-cache replaced. -/
def State.setMicro (s : State) (m : Nat) (l : List OutExt) : State :=
  if m < 16 then s.modShuttle m fun x => { x with micro := l } else s.modXlt fun x => { x with dMicro := l }

/-- An entry enters a micro-cache of 64; the least recently used one leaves, as it does from the extent cache (R133; DESIGN CHOICE,
log 125). -/
def State.intoMicro (s : State) (m : Nat) (e : OutExt) : State :=
  let l := touch (s.micro m) e
  s.setMicro m (if 64 < l.length then l.drop 1 else l)

/-- The lookup of R132 and R139 at a micro-cache and then the extent cache, which it keeps in order of use. A hit of a micro-cache is no
use of the extent-cache entry (DESIGN CHOICE, log 125). -/
def State.lookupOut (s : State) (m tag va kind : Nat) : Lookup × State :=
  match (s.micro m).find? fun e => e.covers tag va with
  | some e => (if e.allows kind then .hit e else .fault e, s.intoMicro m e)
  | none =>
    match s.ep.xlt.outExt.find? fun e => e.covers tag va with
    | some e =>
      (if e.allows kind then .hit e else .fault e, (s.modXlt fun x => { x with outExt := touch x.outExt e }).intoMicro m e)
    | none => (.miss, s)

/-- Node, offset, target tag and bytes of a translated container (R132). -/
def OutExt.place (e : OutExt) (va want : Nat) : Nat × Nat × Nat × Nat :=
  (e.target / 2 ^ 49, e.target % 2 ^ 49 + (va - e.start), e.ttag, min (min want 768) (e.stop - va))

/-! ### Inbound extents -/

/-- The inbound extent of a tag and skein that covers an offset (R130, R134). -/
def State.inExtAt (s : State) (tag skein o : Nat) : Option InExt :=
  s.ep.xlt.inExt.find? fun e => e.tag == tag && e.skein == skein && decide (e.start ≤ o) && decide (o < e.start + 4096 * e.pages)

/-- The pieces of a range at 4 KiB boundaries of the offset: offset and length of each (R134). -/
def pagePieces : Nat → Nat → Nat → List (Nat × Nat)
  | 0, _, _ => []
  | k + 1, o, n => if n = 0 then [] else
      let m := min n (4096 - o % 4096)
      (o, m) :: pagePieces k (o + m) (n - m)

/-- The pieces of a container's range with the extent that grants each, if one does (R134). -/
def State.inPieces (s : State) (tag skein o n kind : Nat) : List (Nat × Nat × Option InExt) :=
  (pagePieces 3 o n).map fun p =>
    (p.1, p.2, (s.inExtAt tag skein p.1).filter fun e => bit kind e.perm)

/-! ### The miss ring -/

/-- A record is written to the miss ring at MISS_TAIL (R136). -/
def State.writeMiss (s : State) (r : MissRec) : State :=
  let c := s.ep.xlt.missTail
  let s1 := s.modXlt fun x => { x with
    missTail := (c + 1) % 2 ^ 32, written := SMap.set x.written c r
    misses := x.misses.map fun m : Miss => if some m.id = r.id then { m with count := some c } else m }
  s1.request [{ kind := 2, use := some (.missRecord c),
                addr := s.epBase Reg.epXltMissBaseLo Reg.epXltMissBaseHi + 32 * (c % s.missSize), len := 32,
                data := missPosted r.bytes (phaseOf c s.missSize) s.now, aux := 0 }]

/-- The miss ring has an entry that the host agent has consumed (R136). -/
def State.missRoom (s : State) : Bool := decide (subMod 32 s.ep.xlt.missTail s.ep.xlt.missHead < s.missSize)

/-- A record is posted, or held for lack of room (R136); none while the link is down (R90). -/
def State.postMiss (s : State) (r : MissRec) : State :=
  if s.ep.att.down then s
  else if s.ep.xlt.held.isEmpty && s.missRoom then s.writeMiss r
  else s.modXlt fun x => { x with held := x.held ++ [r] }

/-- Held records are posted into the space there is (R136). -/
def State.postHeld : Nat → State → State
  | 0, s => s
  | k + 1, s =>
    match s.ep.xlt.held with
    | [] => s
    | r :: rest =>
      if s.missRoom && !s.ep.att.down then State.postHeld k ((s.modXlt fun x => { x with held := rest }).writeMiss r) else s

/-- INTR vector 1,024, where the arm state and INT_EN allow it (R136). -/
def State.missIntr (s : State) : State :=
  if s.flag .plocen Reg.epXltCtl 1 && s.ep.xlt.armed && decide (0 < s.ep.xlt.unannounced) then
    (s.modXlt fun x => { x with armed := false, unannounced := 0 }).request [intrReq 1024]
  else s

/-- The MWR of a miss record has ended (R136, R148): a record that failed is kept to be written again. -/
def State.missDone (s : State) (c : Nat) (ok : Bool) : State :=
  match SMap.find? s.ep.xlt.written c with
  | none => s
  | some r =>
    let s1 := s.modXlt fun x => { x with written := SMap.drop x.written c }
    if ok then (s1.modXlt fun x => { x with unannounced := x.unannounced + 1 }).missIntr
    else s1.modXlt fun x => { x with failed := x.failed ++ [(c, r)], err := true, errCode := if x.err then x.errCode else 4 }

/-- Records whose write failed are written again at their entries (R148). -/
def State.rewriteMisses (s : State) : State :=
  s.ep.xlt.failed.foldl (fun t e =>
    (t.modXlt fun x => { x with written := SMap.set x.written e.1 e.2 }).request
      [{ kind := 2, use := some (.missRecord e.1),
         addr := t.epBase Reg.epXltMissBaseLo Reg.epXltMissBaseHi + 32 * (e.1 % t.missSize), len := 32,
         data := missPosted e.2.bytes (phaseOf e.1 t.missSize) t.now, aux := 0 }])
    (s.modXlt fun x => { x with failed := [] })

/-- A record that answers a fill record: types 0x10-0x13 (R137). -/
def State.postAnswer (s : State) (type tag fill info : Nat) : State :=
  s.postMiss { bytes := missBytes type tag 0 0xFF 0xFFFF 0 0 fill info, id := none }

/-- A new MISS or FAULT record, and its number (R139): access kind, micro-cache unit, ring and submission count. -/
def State.newMiss (s : State) (fault : Bool) (tag va kind unit ring sub info : Nat) (direct : List DMiss) : State × Nat :=
  let id := s.ep.xlt.nextMiss
  let s1 := s.modXlt fun x => { x with
    nextMiss := id + 1
    misses := x.misses ++ [{ id := id, fault := fault, tag := tag, va := va, count := none, formedAt := s.now, direct := direct }] }
  (s1.postMiss { bytes := missBytes (if fault then 2 else 1) tag (2 ^ kind + if unit = 16 then 8 else 0) unit ring va sub 0 info
                 id := some id }, id)

/-- A pending MISS record with the same tag and page (R139 step 2). -/
def State.missFor (s : State) (tag va : Nat) : Option Nat :=
  (s.ep.xlt.misses.find? fun m => !m.fault && m.tag == tag && m.va / 4096 == va / 4096).map fun m : Miss => m.id

/-- A shuttle that has missed or faulted stalls on a record and keeps its burst (R139). -/
def State.stall (s : State) (k : Nat) (fault : Option OutExt) (tag va kind ring sub : Nat) : State :=
  match fault with
  | some e =>
    let (s1, id) := s.newMiss true tag va kind k ring sub e.perm []
    s1.modShuttle k fun x => { x with miss := some id }
  | none =>
    match s.missFor tag va with
    | some id => s.modShuttle k fun x => { x with miss := some id }
    | none =>
      let (s1, id) := s.newMiss false tag va kind k ring sub 0 []
      s1.modShuttle k fun x => { x with miss := some id }

/-- A direct access that ends without translation (R141): a load with REFUSED; a store is discarded. -/
def State.dropDirect (s : State) (d : DMiss) : State :=
  if d.store then s.storeDone d.id false else s.loadDone d.id 2 []

/-- Accesses in the direct miss store (R141). -/
def State.dmissCount (s : State) : Nat := (s.ep.xlt.misses.map fun m => m.direct.length).sum

/-- A direct access that misses or faults moves into the direct miss store and joins or posts a record (R141). A load
leaves the count of R122 there. -/
def State.directMiss (s : State) (fault : Option OutExt) (tag va kind : Nat) (d : DMiss) : State :=
  if 1024 ≤ s.dmissCount then
    (s.modXlt fun x => { x with ovf := satAdd 16 x.ovf 1 }).dropDirect d
  else
    let s1 := { s with ep := { s.ep with loads := s.ep.loads.map fun l : Load =>
      if !d.store && l.id == d.id then { l with inMiss := true } else l } }
    match fault with
    | some e => (s1.newMiss true tag va kind 16 0xFFFF 0 e.perm [d]).1
    | none =>
      match s1.missFor tag va with
      | some id => s1.modXlt fun x => { x with
          misses := x.misses.map fun m : Miss => if m.id = id then { m with direct := m.direct ++ [d] } else m }
      | none => (s1.newMiss false tag va kind 16 0xFFFF 0 0 [d]).1

/-- The accesses that wait on a record end (R139 steps 5 and 6, R140, R141, R147). -/
def State.endMiss (s : State) (id : Nat) : State :=
  match s.ep.xlt.misses.find? fun m => m.id == id with
  | none => s
  | some m =>
    let info := m.count.getD 0xFFFFFFFF
    let s0 := s.modXlt fun x => { x with misses := x.misses.filter fun y => y.id != id }
    let s1 := (List.range 16).foldl (fun t k =>
      if (t.shuttle k).miss = some id then
        match (t.shuttle k).burst with
        | some b =>
          ((t.modShuttle k fun x => { x with burst := none, miss := none }).failAct b.ring b.sub 3 info).settleAct b.ring b.sub
        | none => t.modShuttle k fun x => { x with miss := none }
      else t) s0
    m.direct.foldl (fun t d => (t.modXlt fun x => { x with drop := satAdd 32 x.drop 1 }).dropDirect d) s1

end Sys2Proof.Machine
end

