-- ==== Sys2Proof/Machine/WeftAnswer.lean ====
section
/-! DEFINITION. A source of weft (R160-R163, R176, R349, R350): credits, the answers of its messages and their landings,
resends, and how a container ends. -/

namespace Sys2Proof.Machine

open Sys2Proof

/-! ### The retransmit store -/

/-- `s` with the source of a part changed. -/
def State.modSource (s : State) (p : Part) (f : Source → Source) : State := s.setSource p (f (s.source p))

/-- A container of the retransmit store. -/
def State.held? (s : State) (p : Part) (id : Nat) : Option Held := (s.source p).held.find? fun h => h.id == id

/-- `s` with a container of the retransmit store changed. -/
def State.modHeld (s : State) (p : Part) (id : Nat) (f : Held → Held) : State :=
  s.modSource p fun x => { x with held := x.held.map fun h : Held => if h.id = id then f h else h }

/-- A nonzero WIN of an arriving container is adopted at once (R161). -/
def State.takeWin (s : State) (p : Part) (node plane win : Nat) : State :=
  if win = 0 then s else s.modSource p fun x => { x with window := SMap.put (fun _ => 0) x.window (creditKey node plane) win }

/-- The window that a part announces (R161). -/
def State.winNow (s : State) : Part → Nat
  | .ronpex => 64
  | .plocen => if s.ep.dest.store.length ≤ 2048 then max (s.fld .plocen Reg.epSeqCred 0 7) 1
               else max (s.fld .plocen Reg.epSeqCred 8 7) 1

/-- A container leaves the port's queue of the Plocen. -/
def State.unqueue (s : State) (plane id : Nat) : State :=
  let q : TxQ := SMap.look (fun _ => {}) s.ep.tx plane
  let q' : TxQ := { q with direct := q.direct.filter fun x => x.1 != id, shuttle := q.shuttle.filter fun x => x.1 != id }
  { s with ep := { s.ep with tx := SMap.put (fun _ => {}) s.ep.tx plane q' } }

/-- A container leaves the retransmit store with its credit and its reservation (R160, R162). -/
def State.dropHeld (s : State) (p : Part) (h : Held) : State :=
  let s1 := s.modSource p fun x => { (x.freeCredit h) with held := x.held.filter fun g => g.id != h.id }
  if p = .plocen ∧ h.loc = .port then s1.unqueue h.plane h.id else s1

/-! ### How a message ends -/

/-- Whether a descriptor's completion waits for the answers of its messages (R55). -/
def Desc.waits (d : Desc) : Bool := !(d.opc == 1 || (d.opc == 6 && !d.ack))

/-- The skein whose HGRANT range holds a switch-side counter (R254, R259). -/
def State.hcntSkein (s : State) (n : Nat) : Option Nat := (List.range 64).find? fun k => s.hcntOf k n

/-- A relay's HANK_SET ended with TARGET_LOST (R259). -/
def State.relayLost (s : State) (m : Nat) : State :=
  let k := s.hcntSkein (s.fld .ronpex (Reg.fmhRelayCtl m) 0 14)
  (s.setFlag .ronpex (Reg.fmhRelayCtl m) 14 false).fmhError 3 0 0 (match k with | some k => if k = 0 then [] else [k] | none => [])

/-- A shadow READ that ends unanswered makes its round run again (R205; UNVERIFIED, log 18). -/
def State.shadowLost (s : State) (bind plane slice round : Nat) : State :=
  match s.bind? bind with
  | none => s
  | some b => s.rerun b.pattern plane slice round

/-- A message of a part has ended without its answer: its operation ends with a code (R176, R180, R259). -/
def State.messageLost (s : State) (p : Part) (h : Held) (x : SentMsg) (code info : Nat) : State :=
  match p, x.owner with
  | .plocen, .desc r n => if x.owes then s.partFailed r n code info else (s.failAct r n code info).settleAct r n
  | .plocen, .load id => s.loadDone id 3 []
  | .plocen, .store id => s.storeDone id true
  | .plocen, .shadow b pl _ sl ro _ _ => s.shadowLost b pl sl ro
  | .ronpex, .mgmt _ => s.sendOver h.id true
  | .ronpex, .relay m => s.relayLost m
  | _, _ => s

/-- end(c, code) of R176: the container and its credit are released, and its operations end. A Plocen reports the loss of
an end-point node (R357). -/
def State.endHeld (s : State) (p : Part) (id code : Nat) : State :=
  match s.held? p id with
  | none => s
  | some h =>
    let s1 := (h.msgs.filter fun x => !x.answered).foldl (fun t x => t.messageLost p h x code (if code = 5 then h.c.dest else 0))
      (s.dropHeld p h)
    if p = .plocen ∧ code = 5 ∧ h.c.dest < 0x6000 then s1.report 1 h.c.dest h.plane else s1

/-! ### Answers -/

/-- A reply's data lands in accelerator memory (R89, R115, R338). -/
def State.land (s : State) (x : SentMsg) (data : List Byte) : State :=
  let id := s.ep.nextId
  let ps := pieces x.land x.wants
  let l : Landing := { id := id, owner := x.owner, left := ps.length, failed := false, hank := x.hank, bytes := x.wants }
  let s1 := { s with ep := { s.ep with nextId := id + 1, lands := s.ep.lands ++ [l] } }
  s1.landWrites (ps.map fun p : Nat × Nat × Nat => (
    { kind := 2, use := some (.landReply id), addr := p.1, len := p.2.2, data := sliceBytes data p.2.1 p.2.2, aux := 0 } : AttReq))

/-- Data decrypted under the model key, 64 bytes at a time (R338). -/
def decryptUnits (key : BitVec 512) : Nat → Nat → List Byte → List Byte
  | 0, _, _ => []
  | n + 1, tweak, d =>
    if d.isEmpty then [] else Config.xtsDecrypt key tweak (d.take 64) ++ decryptUnits key n (tweak + 1) (d.drop 64)

/-- The answer of a message reaches what waits for it. -/
def State.deliver (s : State) (p : Part) (h : Held) (x : SentMsg) (data : List Byte) : State :=
  match p, x.owner with
  | .plocen, .desc r n =>
    match s.act? r n with
    | none => s
    | some a =>
      if x.wants = 0 ∨ a.keyDead then (if x.owes then s.partDone r n else s)
      else
        let d := sliceBytes data 0 x.wants
        s.land x (match x.decrypt, s.ep.sec.model with
          | true, some k => sliceBytes (decryptUnits k 16 x.page d) 0 x.wants
          | _, _ => d)
  | .plocen, .load id => s.loadDone id 0 data
  | .plocen, .store id => s.storeDone id false
  | .plocen, .shadow b pl ph sl ro ce tl => s.shadowData b pl ph sl ro ce tl data
  | .ronpex, .mgmt _ => s.sendOver h.id false
  | _, _ => s

/-- Message `i` of a container has been answered (R160, R176): the container is released with its last answer. Replies
that reach a Plocen whose attach link is down are discarded (R90). -/
def State.answer (s : State) (p : Part) (id i : Nat) (data : List Byte) : State :=
  if p = .plocen ∧ s.ep.att.down then s
  else
    match s.held? p id with
    | none => s
    | some h =>
      match h.msgs[i]? with
      | none => s
      | some x =>
        if x.answered then s
        else
          let msgs := h.msgs.set i { x with answered := true }
          let s1 := s.modHeld p id fun g => { g with msgs := msgs }
          let s2 := if msgs.all fun y => y.answered then s1.dropHeld p { h with msgs := msgs } else s1
          s2.deliver p h x data

/-- The message that a reply answers: a container toward the reply's source, with its SEQ and stream (R154, R163). -/
def State.matchReply (s : State) (p : Part) (src : Nat) (stream : Option Nat) (seq : Nat) : Option (Nat × Nat) :=
  (s.source p).held.findSome? fun h =>
    if h.c.dest != src || h.loc == .own || h.forming then none
    else
      (h.msgs.zipIdx.find? fun x => x.1.msg.seq == seq && x.1.msg.ord == stream.isSome
        && (stream.isNone || stream == some h.c.stream)).map fun x => (h.id, x.2)

/-- A reply message reaches the source (R162); one that nothing waits for is discarded (R176). The stream of a packed
ACK is in its OFFSET (R154). -/
def State.takeReply (s : State) (p : Part) (c : Container) (m : Msg) : State :=
  let stream := if m.ord then some (if c.kind = 2 ∧ m.opc = 0x31 then m.offset % 4096 else c.stream) else none
  match s.matchReply p c.src stream m.seq with
  | none => s
  | some (id, i) => s.answer p id i m.data

/-- One write of a landing has ended (R45, R89). -/
def State.landDone (s : State) (id : Nat) (ok : Bool) : State :=
  match s.ep.lands.find? fun l => l.id == id with
  | none => s
  | some l =>
    let bad := l.failed || !ok
    if 1 < l.left then
      { s with ep := { s.ep with lands := s.ep.lands.map fun x : Landing =>
          if x.id = id then { x with left := x.left - 1, failed := bad } else x } }
    else
      let s1 := { s with ep := { s.ep with lands := s.ep.lands.filter fun x => x.id != id } }
      match l.owner with
      | .desc r n =>
        if bad then s1.partFailed r n 4 0
        else ((s1.countHank l.hank l.bytes).modAct r n fun a => { a with landed := a.landed + l.bytes }).partDone r n
      | _ => s1

/-! ### Resends (R124, R176, R349, R350) -/

/-- A container is older than its LIFE (R176). -/
def State.lifeOver (s : State) (h : Held) : Bool :=
  match h.first with
  | none => false
  | some t => decide (t + 1000 * h.lifeUs ≤ s.now)

/-- Planes that a container may take: those of its mask that are live and not marked unreachable for its DEST. -/
def State.openPlanes (s : State) (dest planes : Nat) : Nat :=
  maskOf ((setBitsOf 8 planes).filter fun q => s.epLive q
    && !s.ep.src.unreach.any fun u => u.1 == dest && u.2.1 == q && decide (s.now < u.2.2))

/-- A stored container as it is sent again (R176): HOPS, DEFL and REFL reset, AGE and SEQ unchanged. -/
def State.fresh (s : State) (p : Part) (c : Container) : Container :=
  { c with refl := false, defl := 0, hops := s.sourceHops p }

/-- A container takes a plane afresh under R123 (R124, R350): with none left its operation ends with TARGET_LOST. One that
has been injected waits for a credit on its new plane as a new injection would. -/
def State.replane (s : State) (id : Nat) : State :=
  match s.held? .plocen id with
  | none => s
  | some h =>
    if s.lifeOver h then s.endHeld .plocen id 5
    else match planeOf h.c.dest h.c.offset (s.openPlanes h.c.dest h.planes) with
    | none => s.endHeld .plocen id 5
    | some q =>
      if q = h.plane ∧ !h.hasCredit then s
      else
        let s1 := (s.modSource .plocen fun x => x.freeCredit h).modHeld .plocen id fun g =>
          { g with plane := q, loc := if h.hasCredit then .waiting else h.loc }
        if h.loc = .port then s1.unqueue h.plane id else s1

/-- A container of the Plocen goes to its port's queue again. -/
def State.requeue (s : State) (h : Held) : State :=
  let q : TxQ := SMap.look (fun _ => {}) s.ep.tx h.plane
  let c := s.fresh .plocen h.c
  let s1 := s.modHeld .plocen h.id fun g => { g with loc := .port, due := s.now + 1000 * h.retryUs }
  let q' : TxQ := if h.direct then { q with direct := q.direct ++ [(h.id, c)] } else { q with shuttle := q.shuttle ++ [(h.id, c)] }
  { s1 with ep := { s1.ep with tx := SMap.put (fun _ => {}) s1.ep.tx h.plane q' } }

/-- A container is sent again at once (R176), or ends because it is older than LIFE; that of a relay waits while relays do (R303, R369). -/
def State.resend (s : State) (p : Part) (id : Nat) : State :=
  match s.held? p id with
  | none => s
  | some h =>
    if s.lifeOver h then s.endHeld p id 5
    else if h.loc = .port then s
    else
      match p with
      | .plocen => if s.epLive h.plane then s.requeue h else s.replane id
      | .ronpex =>
        if s.relayHeld h then (s.modSource .ronpex fun x => x.freeCredit h).modHeld .ronpex id fun g => { g with loc := .waiting }
        else (s.modHeld .ronpex id fun g => { g with loc := .sent, due := s.now + 1000 * h.retryUs }).rpSend h

/-- BACKOFF of a source (R176): EP_SEQ.BACKOFF, and its reset value at a Ronpex (DEDUCED, log 11). -/
def State.backoffBase (s : State) : Part → Nat
  | .ronpex => 256
  | .plocen => s.fld .plocen Reg.epSeqBackoff 0 16

/-- A container comes back reflected (R176, R350): it waits for its backoff, which holds a random part (a free value, log
1); with DEFL 15 its plane is marked unreachable for its DEST for 100 ms, and it is sent again at once. A copy of it that is still queued is
the one that the backoff delays. -/
def State.reflected (s : State) (p : Part) (c : Container) (plane : Nat) : State :=
  let same (h : Held) : Bool := { h.c with refl := false, hops := 0, defl := 0 } == { c with refl := false, hops := 0, defl := 0 }
  let s0 := if p = .plocen then s.addPair .plocen Reg.epSeqReflLo Reg.epSeqReflHi 1 else s
  match (s0.source p).held.find? fun h => h.hasCredit && same h with
  | none => s0
  | some h =>
    if s0.lifeOver h then s0.endHeld p h.id 5
    else if c.defl = 15 ∧ p = .plocen then
      let s1 := s0.modSource p fun x => { x with
        unreach := (x.unreach.filter fun u => !(u.1 == h.c.dest && u.2.1 == plane)) ++ [(h.c.dest, plane, s0.now + 100000000)] }
      s1.replane h.id
    else
      let b := s0.backoffBase p
      let (v, s1) := (if p = .plocen ∧ h.loc = .port then s0.unqueue h.plane h.id else s0).draw
      s1.modHeld p h.id fun g => { g with
        refls := g.refls + 1, loc := .backoff (s0.now + b * 2 ^ min g.refls 6 + v.toNat % (b + 1)) }

/-- The backoff of a reflected container ends (R176). -/
def State.backoffEnd (s : State) (p : Part) (id : Nat) : State :=
  match s.held? p id with
  | none => s
  | some h =>
    match h.loc with
    | .backoff t => if t ≤ s.now then s.resend p id else s
    | _ => s

/-- A retry timer expires (R176). -/
def State.retryTimer (s : State) (p : Part) (id : Nat) : State :=
  match s.held? p id with
  | none => s
  | some h =>
    if h.loc ≠ .sent ∨ s.now < h.due then s
    else
      let s1 := (if p = .plocen then s.addPair .plocen Reg.epSeqToutLo Reg.epSeqToutHi 1 else s).modHeld p id fun g =>
        { g with tmo := g.tmo + 1 }
      if h.maxTmo ≤ h.tmo + 1 then s1.endHeld p id 5 else s1.resend p id

/-- A container older than LIFE ends (R176). -/
def State.lifeTimer (s : State) (p : Part) (id : Nat) : State :=
  match s.held? p id with
  | none => s
  | some h => if s.lifeOver h then s.endHeld p id 5 else s

/-- A container of the Plocen has been sent and is not queued to be sent again. -/
def Held.isOut (h : Held) : Bool :=
  match h.loc with
  | .sent => true
  | .backoff _ => true
  | _ => false

/-- A PATH_LOSS notice (R350): request containers of the plane last sent at or after T_L - 10 us are sent again on it, at once where they
wait for a backoff. -/
def State.pathLost (s : State) (plane tL : Nat) : State :=
  (s.ep.src.held.filter fun h => h.plane == plane && h.isOut && decide (tL ≤ h.due - 1000 * h.retryUs + 10000)).foldl
    (fun t h => t.resend .plocen h.id) s

/-- A port of the Plocen has gone down (R349): every unacknowledged container of its plane takes another. -/
def State.resendPlane (s : State) (plane : Nat) : State :=
  (s.ep.src.held.filter fun h => h.plane == plane && h.c.dest != s.ownNode .plocen).foldl (fun t h => t.replane h.id) s

end Sys2Proof.Machine
end

