-- ==== Sys2Proof/Machine/EpOrders.lean ====
section
/-! DEFINITION. Orders at a Plocen: switch orders (R207-R209, R349, R351), epoch orders (R355) and snapshot orders (R363). -/

namespace Sys2Proof.Machine

open Sys2Proof

/-- The fabric time at which a frame starts, from the frame's bits 31:0 (R207, R355). -/
def frameTime (now f : Nat) : Nat := ((frameOf now : Int) + signed 32 (subMod 32 f (frameOf now))).toNat * frameNs

/-- A frame, by its bits 31:0, has begun. -/
def frameDue (now f : Nat) : Bool := decide (subMod 32 (frameOf now) f < 2 ^ 31)

/-- A MGMT message goes to the Ronpex of every live plane but one. -/
def State.relayOthers (s : State) (plane : Nat) (m : Mgmt) : State :=
  (s.livePlanes.filter fun p => p != plane).foldl (fun t p => t.epMgmt p m) s

/-! ### Switch orders -/

/-- An order joins those that wait, merged with one it matches (R351). -/
def mergeEpOrder (l : List SwitchOrder) (o : SwitchOrder) : List SwitchOrder :=
  match l with
  | [] => [o]
  | x :: r =>
    if sameOrder x o then joinOrders x o :: r
    else x :: mergeEpOrder r o

/-- The Plocen takes an order that names its skein, and relays an order that it has not seen (R207, R351). -/
def State.epOrderIn (s : State) (plane : Nat) (o : SwitchOrder) : State :=
  if s.ep.warp.seenOrders.contains o then s
  else
    let s1 := s.modEw fun w => { w with
      seenOrders := o :: w.seenOrders.take 63
      orders := if bit s.epSkein o.skeins.toNat then mergeEpOrder w.orders o else w.orders }
    s1.relayOthers plane (.switchOrder o)

/-- The Plocen issues a PLANE_OUT order for its skein (R209, R349). -/
def State.epPlaneOut (s : State) (plane : Nat) : State :=
  if !s.ptRunning then s
  else
    let o : SwitchOrder := { kind := 2, cls := 0, plane := plane, unitType := 0, unit := 0, gen := 0,
                             skeins := BitVec.ofNat 64 (2 ^ s.epSkein), faultFrame := frameOf s.now % 2 ^ 32,
                             effective := s.frameAfter 12000 % 2 ^ 32, pairs := [] }
    let s1 := s.modEw fun w => { w with seenOrders := o :: w.seenOrders.take 63, orders := mergeEpOrder w.orders o }
    s1.livePlanes.foldl (fun t p => t.epMgmt p (.switchOrder o)) s1

/-- The rounds that a run ran on a plane in frames from `fault` on: slice and round (R208). -/
def Run.since (r : Run) (plane fault : Nat) : List (Nat × Nat) :=
  ((r.history.filter fun h => h.2.1 == plane && decide (subMod 32 (h.1 % 2 ^ 32) fault < 2 ^ 31)).map fun h => (h.2.2.1, h.2.2.2)).dedup

/-- One run at the EFFECTIVE of an order (R208): the disturbed rounds of the plane run again, or become orphans together
with the plane's remaining rounds. -/
def State.orderRun (s : State) (o : SwitchOrder) (r : Run) : Run :=
  let f := frameOf s.now
  let again := r.since o.plane o.faultFrame
  let own := (again.filter fun x => x.1 == o.plane).map (·.2)
  let others := again.filter fun x => x.1 != o.plane
  let mine := (r.orphans.filter fun x => x.1 == o.plane).map fun x => (x.2.1, x.2.2)
  let back := (others ++ mine).dedup
  let rest := r.orphans.filter fun x => x.1 != o.plane
  if o.kind = 2 then
    let bs := (s.ep.warp.binds.filter fun b : Binding => b.pattern == r.pattern && b.inst == some r.inst && b.code.isNone) ++ r.done
    let nextOwn : Nat := ((r.next.find? fun x => x.1 == o.plane).map fun x => x.2.1).getD 0
    let lost := (List.range (s.patOf r.pattern).rounds).filter fun k : Nat => own.contains k || decide (nextOwn ≤ k)
    let deals := s.dealAll bs o.plane lost
    -- orphans of other planes that had been dealt to this one are dealt again
    let redeals := bs.flatMap fun b =>
      let left := (s.remaining b).filter fun p => p != o.plane
      ((back.filter fun x => r.dealt.contains (b.id, o.plane, x)).zipIdx).filterMap fun x =>
        (left[x.2 % max left.length 1]?).map fun p => (b.id, p, x.1)
    let rounds := (s.patOf r.pattern).rounds
    { r with
      next := r.next.filter fun x => x.1 != o.plane
      dealt := (r.dealt.filter fun x => x.2.1 != o.plane) ++ deals ++ redeals
      orphans := rest ++ dealtRounds rounds deals ++ dealtRounds rounds redeals }
  else
    { r with
      next := r.next.map fun x => if x.1 = o.plane then (x.1, own.foldl min x.2.1, if own.isEmpty then x.2.2 else f) else x
      orphans := back.map (fun x => (o.plane, x.1, x.2)) ++ rest }

/-- Runs that are over and ran rounds on the order's plane at or after its FAULT_FRAME: those rounds run again (R208), unless the pattern's
next instance has begun, which no member that still lacks a round would have let begin (R198). -/
def State.revived (s : State) (o : SwitchOrder) : List Run :=
  ((s.ep.warp.past.filter fun x => (s.run? x.2.pattern).isNone && !(x.2.since o.plane o.faultFrame).isEmpty).map fun x => s.orderRun o x.2)

/-- The Plocen applies an order (R208, R209). -/
def State.epOrderApply (s : State) (o : SwitchOrder) : State :=
  let walt := s.reg .plocen (Reg.epSeqWalt o.cls)
  let count := satAdd 16 (s.fld .plocen Reg.epSeqWorder 16 16) 1
  let s1 := (s.setReg .plocen Reg.epSeqWorder (o.kind + 256 * o.plane + 2 ^ 16 * count)).setReg .plocen Reg.epSeqWfault o.faultFrame
  let replays := o.kind = 0 ∨ o.kind = 2 ∨ (o.kind = 1 ∧ o.cls ≠ 1)
  let back := s1.revived o
  let s2 := if !replays then s1 else s1.modEw fun w => { w with
    runs := w.runs.map (s1.orderRun o) ++ back, past := w.past.filter fun x => !(back.any fun r => r.pattern == x.2.pattern) }
  if o.kind = 1 then
    if bit 3 walt then s2.setReg .plocen (Reg.epSeqWport o.plane) (walt % 8 + 16 * o.cls)
    else
      ((s2.epCond 0x08 6 0 o.plane 0 (o.cls + 16 * o.plane) o.effective 0).modEw fun w =>
        { w with idle := o.plane :: w.idle.filter fun p => p != o.plane }).epPlaneOut o.plane
  else if o.kind = 3 then s2.setReg .plocen (Reg.epSeqWport o.plane) s2.ep.warp.primary
  else if o.kind = 2 then
    let s3 := s2.modEw fun w => { w with out := o.plane :: w.out.filter fun p => p != o.plane }
    (s3.ep.warp.binds.filter fun b => !(s3.bindPlanes b).isEmpty && (s3.remaining b).isEmpty).foldl (fun t b => t.endBind b.id 6 0) s3
  else s2

/-- Every order whose EFFECTIVE has come is applied, in the order of arrival, after the rounds of the frame that has ended. -/
def State.epOrdersDue (s : State) : State :=
  let due := s.ep.warp.orders.filter fun o => frameDue s.now o.effective
  if due.isEmpty then s
  else due.foldl (fun t o => t.epOrderApply o)
    (s.closeRuns.modEw fun w => { w with orders := w.orders.filter fun o => !frameDue s.now o.effective })

/-! ### Drafts (R209, R214, R347) -/

/-- A slot of the Plocen's slot table that uses a port for warp or sky. -/
def State.usesPort (s : State) (slot p : Nat) : Bool := allSlots.any fun n => [1, 3].contains (entryTx (s.ptEntry slot n p))

/-- A draft takes effect at the Plocen (R209, R214): bindings and instance numbers begin afresh, and a binding that was held
completes with LATE_JOIN and its first phase. A plane that the draft uses and that is not live is handled as if its port had failed in this
frame (R347, log 155). -/
def State.epDraftOn (s : State) (slot : Nat) : State :=
  let s1 := (s.setFld .plocen Reg.epSeqWstat 0 3 slot).setFlag .plocen Reg.epSeqWstat 3 true
  let s2 := (List.range 8).foldl (fun t p => t.setReg .plocen (Reg.epSeqWport p) slot) s1
  let s3 := s2.modEw fun w => { w with
    go := none, primary := slot, idle := [], out := [], runs := [], past := [], inst := [], complete := [], late := [] }
  let s4 := s.ep.warp.binds.foldl (fun t b => t.endBind b.id 9 b.first) s3
  ((List.range 8).filter fun p => !s4.epLive p && s4.usesPort slot p).foldl (fun t p => t.epPlaneOut p) s4

/-- The draft ends: every slot becomes weft (R26, R214). -/
def State.epDraftOff (s : State) : State := (s.setFlag .plocen Reg.epSeqWstat 3 false).modEw fun w => { w with stop := false, runs := [], past := [] }

/-- STOP and then GO take effect at a frame boundary (R214). -/
def State.epActivate (s : State) : State :=
  if s.now % frameNs ≠ 0 then s
  else
    let s1 := if s.ep.warp.stop then s.epDraftOff else s
    match s1.ep.warp.go with
    | none => s1
    | some (slot, start) => if frameDue s1.now start then s1.epDraftOn slot else s1

/-! ### Epochs -/

/-- An epoch order is accepted only for an epoch 1 to 32,767 ahead (R355). -/
def State.epochAhead (s : State) (p : Part) (e : Nat) : Bool :=
  let d := subMod 16 e (s.epoch p)
  decide (1 ≤ d) && decide (d ≤ 32767)

/-- The Plocen takes an epoch order and relays it once to its other planes (R355). -/
def State.epEpochIn (s : State) (plane e eff : Nat) : State :=
  let t := frameTime s.now eff
  if !s.epochAhead .plocen e ∨ s.ep.orders.epoch = some (e, t) then s
  else
    ({ s with ep := { s.ep with orders := { s.ep.orders with epoch := some (e, t) } } }).relayOthers plane (.epochOrder e eff)

/-- Receive state discarded at an epoch (R355): records, contexts and reply cache, with the entries that contexts hold. -/
def Dest.cleared (d : Dest) : Dest :=
  let held := (d.ctxs.flatMap fun c => c.held).filterMap fun a : Arrival => a.entry
  { d with
    store := (d.store.map fun e => (e.1, e.2 - (held.filter fun i => i == e.1).length)).filter fun e => e.2 != 0
    refused := none, recs := [], ctxs := [], cache := [] }

/-- The new epoch takes effect at the Plocen (R355): open operations end with TARGET_LOST, and every pattern restarts at
instance 0 (R346). -/
def State.epEpochApply (s : State) (e : Nat) : State :=
  let ids := s.ep.src.held.map fun h => h.id
  let s1 := { s with ep := { s.ep with orders := { s.ep.orders with epoch := none }, dest := s.ep.dest.cleared } }
  let s2 := s1.setFld .plocen Reg.epSeqEpoch 0 16 e
  let s3 := ids.foldl (fun t i => t.endHeld .plocen i 5) s2
  let s4 := s3.ep.acts.foldl (fun t a => (t.failAct a.ring a.sub 5 0).settleAct a.ring a.sub) s3
  let s5 := s4.ep.warp.binds.foldl (fun t b => t.endBind b.id 5 0) s4
  s5.modEw fun w => { w with runs := [], past := [], inst := [], complete := [], late := [] }

/-! ### Snapshots (R363, R364) -/

/-- The snapshot registers of a part: STAT, T_LO and T_HI. -/
def snapRegs : Part → Nat × Nat × Nat
  | .ronpex => (Reg.mgtSnapStat, Reg.mgtSnapTLo, Reg.mgtSnapTHi)
  | .plocen => (Reg.epHnkSnapStat, Reg.epHnkSnapTLo, Reg.epHnkSnapTHi)

/-- SNAPSHOT event (R390): only the Ronpex has an event ring. -/
def State.snapEvent (s : State) (p : Part) (number missed : Nat) : State :=
  match p with
  | .ronpex => s.post (plainEvent s.now 0x61 (number + 2 ^ 16 * missed))
  | .plocen => s

/-- A part takes a snapshot order (R363): one that comes after T sets MISSED, and a later one replaces one that waits. -/
def State.snapIn (s : State) (p : Part) (t number : Nat) (skeins : BitVec 64) : State :=
  let (st, lo, hi) := snapRegs p
  let s1 := (s.setReg p lo (bits 0 32 t)).setReg p hi (bits 32 32 t)
  let o := s1.orders p
  if t < s.now then
    ((s1.setOrders p { o with snap := none }).setReg p st (number + 2 ^ 17)).snapEvent p number 1
  else (s1.setOrders p { o with snap := some (t, number, skeins) }).setReg p st number

/-- At T the counters are captured (R363): the image is complete at once (the manual gives it until T + 2 frames). -/
def State.snapCapture (s : State) (p : Part) : State :=
  let o := s.orders p
  match o.snap with
  | none => s
  | some (t, number, _) =>
    if s.now < t then s
    else
      let image := match p with
        | .ronpex => s.rp.fmem.hcnt
        | .plocen => s.ep.hanks
      ((s.setOrders p { o with snap := none, image := image, imageAt := some s.now }).setReg p (snapRegs p).1
        (number + 2 ^ 16)).snapEvent p number 0

/-! ### Assignment and release (R304, R339, R354) -/

/-- The model and sky keys of a Plocen are destroyed (R339): running DECRYPT descriptors land nothing more and end with
BAD_DESC and INFO 1. The log entry's ADDRESS holds KIND and SKEIN (places DEDUCED, log 19). -/
def State.destroyEpKey (s : State) (kind : Nat) : State :=
  let had := if kind = 1 then s.ep.sec.model.isSome else s.ep.sec.sky.isSome
  if !had then s
  else
    let s1 := s.setSec .plocen (if kind = 1 then { s.ep.sec with model := none } else { s.ep.sec with sky := none })
    let s2 := s1.epLog { time := s.now, type := 3, origin := 6, requester := 0, port := 255, skein := 0,
                         addr := kind + 256 * s.epSkein, old := BitVec.ofNat 32 (s.reg .plocen (if kind = 1 then Reg.epSecModelId else Reg.epSecSkyId)),
                         new := 0 }
    let s3 := s2.setReg .plocen (if kind = 1 then Reg.epSecModelId else Reg.epSecSkyId) 0
    if kind = 1 then
      (s3.ep.acts.filter fun a => (descOf a.raw).decrypt).foldl (fun t a =>
        ((t.modAct a.ring a.sub fun x => { x with keyDead := true, code := if x.code = 0 then 7 else x.code
                                                  info := if x.code = 0 then 1 else x.info }).settleAct a.ring a.sub)) s3
    else s3

/-- An assignment is accepted (R304, R339, R354): it is shown in EP_SEC and acknowledged on its plane. -/
def State.epAssign (s : State) (plane skein : Nat) (isSealed : Bool) (slots epoch node : Nat) : State :=
  let was := s.reg .plocen Reg.epSecAssign
  let wasNode := s.reg .plocen Reg.epSecNode
  let changed := (bit 7 was && bits 0 6 was != skein) || (bit 15 wasNode && bits 0 15 wasNode != node)
  let s1 := if changed then (s.destroyEpKey 1).destroyEpKey 2 else s
  let s2 := s1.setReg .plocen Reg.epSecAssign (skein % 64 + 64 * ofBool isSealed + 128 + 2 ^ 16 * (slots % 2 ^ 13))
  let s3 := s2.setReg .plocen Reg.epSecNode (node % 2 ^ 15 + 2 ^ 15)
  (s3.setFld .plocen Reg.epSeqEpoch 0 16 epoch).epMgmt plane (.assignAck skein isSealed slots epoch node)

/-- A Plocen port that has trained is released into service (R354). -/
def State.epRelease (s : State) (port gen : Nat) : State :=
  if s.portUp .plocen port then
    { s with ep := { s.ep with released := (s.ep.released.filter fun x => x.1 != port) ++ [(port, gen)] } }
  else s

/-- A refused MGMT container is a violation (R306, R392, R455). -/
def State.mgmtRefused (s : State) (p : Part) (port node mtype : Nat) : State := s.plog p (violBody s.now node port 0 mtype 0)

/-- A Plocen accepts MGMT from the node in EP_SEQ.WNODE of the plane on which it arrives (R392). -/
def State.epMgmtOk (s : State) (plane node : Nat) : Bool := decide (plane < 8) && node == s.fld .plocen (Reg.epSeqWnode plane) 0 15

/-- A MGMT message reaches the Plocen (R392). -/
def State.epMgmtIn (s : State) (plane node : Nat) (m : Mgmt) : State :=
  if !s.epMgmtOk plane node then s.mgmtRefused .plocen plane node (mtypeOf m)
  else
    match m with
    | .assign k b sl e n => s.epAssign plane k b sl e n
    | .portRelease p g => s.epRelease p g
    | .switchOrder o => s.epOrderIn plane o
    | .epochOrder e f => s.epEpochIn plane e f
    | .snapshotOrder t n k => if bit s.epSkein k.toNat then s.snapIn .plocen t n k else s
    | .pathLoss p t => s.pathLost p t
    | m => s.mgmtRefused .plocen plane node (mtypeOf m)

end Sys2Proof.Machine
end

