-- ==== Sys2Proof/Machine/RpOrders.lean ====
section
/-! DEFINITION. Orders and other MGMT messages at a Ronpex (R207, R350, R351, R355, R360, R363, R392, R403). -/

namespace Sys2Proof.Machine

open Sys2Proof

/-! ### Switch orders -/

/-- DRAFT (R390), with its subcode and bytes 21, 22 and 23. -/
def draftEvent (now sub a b c : Nat) : Event := plainEvent now 0x10 (sub + 2 ^ 8 * a + 2 ^ 16 * b + 2 ^ 24 * c)

/-- Orders are matched by KIND, plane, skeins, FAULT_FRAME and EFFECTIVE, and by their unit where they name one (R351). -/
def sameApplied (a b : SwitchOrder) : Bool :=
  sameOrder a b && a.faultFrame == b.faultFrame && a.effective == b.effective && a.unitType == b.unitType
    && (a.unitType == 0 || (a.unit == b.unit && a.gen == b.gen))

/-- This Ronpex owns the unit that an order names (R351): it is the rack package of the order's plane, or a leaf or spine that has issued an
order of that unit itself (DEDUCED, log 20). -/
def State.ownsUnit (s : State) (o : SwitchOrder) : Bool :=
  if s.role = 0 then o.plane == s.plane
  else s.rp.warp.issued.any fun x => x.plane == o.plane && x.unitType == o.unitType && x.unit == o.unit

/-- This Ronpex owns the unit that an order names, and the order's generation is not the unit's (R351). -/
def State.staleOrder (s : State) (o : SwitchOrder) : Option Nat :=
  if o.unitType = 0 ∨ 9 < o.unitType ∨ !s.ownsUnit o then none
  else (unitIndex o.unitType o.unit).bind fun i => if s.gen i = o.gen then none else some (s.gen i)

/-- The origin, requester and port of a condition found in a MGMT message (R455). -/
def mgmtLogged (src : MgmtSource) : Nat × Nat × Nat := if src.tray then (6, 0, 255) else (5, src.node, src.port)

/-- A Ronpex takes a switch order and passes it to its members and, in a span, on to the other packages of the plane (R207, R351): one
that has come before, by whatever way, is ignored, and whether it was merged with another does not matter. -/
def State.rpOrderIn (s : State) (src : MgmtSource) (o : SwitchOrder) : State :=
  match s.staleOrder o with
  | some g =>
    s.rpCond 0x0D (mgmtLogged src).1 (mgmtLogged src).2.1 (mgmtLogged src).2.2 0 (o.kind + 256 * o.unitType) o.unit (o.gen + 2 ^ 16 * g)
  | none =>
    if s.rp.warp.applied.any (sameApplied o) || s.rp.warp.seen.any (sameApplied o) then s
    else
      let s1 := (s.modWarp fun w => { w with orders := mergeOrder w.orders o false, seen := o :: w.seen.take 63 }).orderToMembers o
      (s1.packagePorts.filter fun p => src.tray || p != src.port).foldl (fun t p => t.toFarEnd p (.switchOrder o)) s1

/-- Rename pairs take effect (R191, R207): the registers and the maps in effect. -/
def State.applyPairs (s : State) (l : List (Nat × Nat × Nat)) : State :=
  l.foldl (fun t p =>
    if p.1 = 0 ∧ p.2.1 < 96 then
      (t.setReg .ronpex (Reg.drfSpmap p.2.1) (p.2.2 % 32)).modWarp fun w =>
        { w with spmap := SMap.put (fun k => k % 24) w.spmap p.2.1 (p.2.2 % 32) }
    else if p.1 = 1 ∧ p.2.1 < 192 then
      (t.setReg .ronpex (Reg.drfPmap p.2.1) p.2.2).modWarp fun w => { w with pmap := SMap.put (fun k => k) w.pmap p.2.1 p.2.2 }
    else t) s

/-- Maps of spindles and ports written in DRF take effect (R191, R215). -/
def State.loadMaps (s : State) : State :=
  s.modWarp fun w => { w with
    spmap := (List.range 96).foldl (fun (m : SMap Nat) n => SMap.put (fun k => k % 24) m n (s.reg .ronpex (Reg.drfSpmap n))) []
    pmap := (List.range 192).foldl (fun (m : SMap Nat) n => SMap.put (fun k => k) m n (s.reg .ronpex (Reg.drfPmap n))) [] }

/-- POWER (R390): SCALE, whether the POWER alternate is in effect, and whether PWRALERT_N is asserted. It affects every ACTIVE
skein (R318). -/
def State.powerEvent (s : State) : State :=
  s.postFor (plainEvent s.now 0x30 (s.fld .ronpex Reg.budStat 0 9 + 2 ^ 16 * (ofBool (s.flag .ronpex Reg.timPwrStat 1)
    + 2 * ofBool s.rp.power.alert))) 2 s.activeSkeins

/-- The POWER alternate takes effect, or ends (R369): HBM accesses resume, and at its end deferrable work too, unless PWRALERT_N has been
asserted again by then. -/
def State.powerAlt (s : State) (on : Bool) : State :=
  let s1 := s.setFlag .ronpex Reg.timPwrStat 1 on
  let s2 : State := { s1 with rp := { s1.rp with power := { s1.rp.power with hbmHeld := !on && s1.rp.power.hbmHeld && s1.rp.power.alert } } }
  (if on || s2.rp.power.alert then s2 else s2.setFlag .ronpex Reg.timPwrStat 4 false).powerEvent

/-- A Ronpex applies an order (R207, R208): its maps and slot change where it belongs to the order's plane. -/
def State.rpOrderApply (s : State) (o : SwitchOrder) : State :=
  let count := satAdd 16 (s.fld .ronpex Reg.drfOrder 16 16) 1
  let s1 := ((s.setReg .ronpex Reg.drfOrder (o.kind % 4 + 16 * (o.cls % 8) + 256 * (o.plane % 8) + 2 ^ 16 * count)).setReg
    .ronpex Reg.drfFault o.faultFrame).setReg .ronpex Reg.drfEffect o.effective
  let s2 := s1.modWarp fun w => { w with applied := o :: w.applied.take 63 }
  let s3 :=
    if o.plane = s.plane ∧ !s.running ∧ o.kind = 1 ∧ o.cls = 1 then
      { s2 with rp := { s2.rp with power := { s2.rp.power with hbmHeld := false } } }
    else if o.plane ≠ s.plane ∨ !s.running then s2
    else match o.kind with
      | 0 => s2.applyPairs o.pairs
      | 1 =>
        let t := s2.applyPairs o.pairs
        let t1 := if t.altValid o.cls then t.setFld .ronpex Reg.drfStat 0 3 (t.fld .ronpex (Reg.drfAlt o.cls) 0 3) else t
        if o.cls = 1 then t1.powerAlt true else t1
      | 2 => s2.modWarp fun w => { w with outSkeins := bOr w.outSkeins o.skeins.toNat }
      | _ => (s2.setFld .ronpex Reg.drfStat 0 3 s2.rp.warp.primary).powerAlt false
  let scope := if o.kind = 3 ∨ (o.kind = 1 ∧ o.cls = 1) then 2 else 1
  s3.postFor (draftEvent s.now 2 o.kind o.plane o.cls) scope (s3.activeSkeins.filter fun k => bit k o.skeins.toNat)

/-- Every order whose EFFECTIVE has come is applied, in the order of arrival. -/
def State.rpOrdersDue (s : State) : State :=
  let due := s.rp.warp.orders.filter fun x : PendOrder => frameDue s.now x.o.effective
  due.foldl (fun t x => t.rpOrderApply x.o)
    (s.modWarp fun w => { w with orders := w.orders.filter fun x : PendOrder => !frameDue s.now x.o.effective })

/-! ### Epochs -/

/-- A message goes out of every port that is up. -/
def State.toAllPorts (s : State) (m : Mgmt) : State := s.upPorts.foldl (fun t p => t.toFarEnd p m) s

/-- A Ronpex takes an epoch order and forwards it on every UP port and on the tray chain (R355). -/
def State.rpEpochIn (s : State) (e eff : Nat) : State :=
  let t := frameTime s.now eff
  if !s.epochAhead .ronpex e ∨ s.rp.orders.epoch = some (e, t) then s
  else
    let s1 : State := { s with rp := { s.rp with orders := { s.rp.orders with epoch := some (e, t) } } }
    (s1.trayMgmt (.epochOrder e eff)).toAllPorts (.epochOrder e eff)

/-- FAULT_SUMMARY of a filter entry (R360, R390). -/
def summaryEvent (now : Nat) (e : RepEnt) : Event :=
  plainEvent now 0x51 (e.type + 2 ^ 16 * e.target + 2 ^ 32 * min e.count (2 ^ 32 - 1))

/-- Every entry of the report filter with a nonzero count posts a summary, and all are cleared (R360). -/
def State.clearFilter (s : State) : State :=
  (s.rp.filter.ents.filter fun e => e.count != 0).foldl (fun t e => t.post (summaryEvent t.now e))
    { s with rp := { s.rp with filter := { s.rp.filter with ents := [] } } }

/-- The new epoch takes effect at the Ronpex (R355, R360). -/
def State.rpEpochApply (s : State) (e : Nat) : State :=
  let ids := s.rp.src.held.map fun h => h.id
  let d := s.rp.fmem.dest
  let s1 : State := { s with rp := { s.rp with
    orders := { s.rp.orders with epoch := none }, cand := [], eddy := []
    fmem := { s.rp.fmem with inbox := [], waiting := [], sealedRep := [], entries := [], refused := []
                             dest := { d.cleared with store := [], replies := [] } } } }
  let s2 := s1.setFld .ronpex Reg.fmhEpoch 0 16 e
  let s3 := ids.foldl (fun t i => t.endHeld .ronpex i 5) s2
  let s4 := (s3.clearFilter.modWarp fun w => { w with inst := [] })
  s4.post (plainEvent s.now 0x60 e)

/-! ### The report filter (R360) -/

/-- FAULT_REPORT (R390): its TIME is the report's. -/
def reportEvent (node : Nat) (r : Report) : Event :=
  plainEvent r.time 0x50 (r.type + 2 ^ 8 * r.plane + 2 ^ 16 * r.target + 2 ^ 32 * r.epoch + 2 ^ 48 * r.suppressed + 2 ^ 64 * node)

/-- A report of the node `node` passes the filter (R360). -/
def State.reportIn (s : State) (node : Nat) (r : Report) : State :=
  let f := s.rp.filter
  if f.ents.any fun e => e.type == r.type && e.target == r.target then
    { s with rp := { s.rp with filter := { f with ents := f.ents.map fun e : RepEnt =>
        if e.type = r.type ∧ e.target = r.target then { e with count := e.count + 1 + r.suppressed } else e } } }
  else
    let new : RepEnt := { type := r.type, target := r.target, since := s.now, count := 0 }
    if f.ents.length < 1024 then
      ({ s with rp := { s.rp with filter := { f with ents := f.ents ++ [new] } } }).post (reportEvent node r)
    else
      let old := f.ents.filter fun e => decide (e.since + 100000 < s.now)
      match old.head? with
      | some e =>
        let s1 : State := { s with rp := { s.rp with filter := { f with ents := (f.ents.erase e) ++ [new] } } }
        (if e.count = 0 then s1 else s1.post (summaryEvent s.now e)).post (reportEvent node r)
      | none =>
        let n := f.ovf + 1
        let may := match f.ovfAt with
          | none => true
          | some t => decide (t + 100000 ≤ s.now)
        if may then
          ({ s with rp := { s.rp with filter := { f with ovf := 0, ovfAt := some s.now } } }).post
            (plainEvent s.now 0x52 (2 ^ 32 * min n (2 ^ 32 - 1)))
        else { s with rp := { s.rp with filter := { f with ovf := n } } }

/-! ### Notices -/

/-- A snapshot order reaches a Ronpex, which passes it to its members (R363). -/
def State.rpSnapIn (s : State) (t number : Nat) (skeins : BitVec 64) : State :=
  (s.memberPorts skeins).foldl (fun u p => u.toEndPoint p (.snapshotOrder t number skeins)) (s.snapIn .ronpex t number skeins)

/-- Ports that are up and face an end point. -/
def State.endPointPorts (s : State) : List Nat := s.upPorts.filter s.facesPlocen

/-- A PATH_LOSS notice is passed on (R350): a spine sends it to every leaf, and a leaf or rack package to every end point
below it. Every tier link lies in one plane (R32), so that a leaf names its own. -/
def State.rpPathLoss (s : State) (tL : Nat) : State :=
  (if s.role = 2 then s.packagePorts else s.endPointPorts).foldl (fun u p => u.toFarEnd p (.pathLoss s.plane tL)) s

/-- An end point acknowledges an assignment (R304): SENT is set where it is the one that the port has now. -/
def State.rpAssignAck (s : State) (port : Nat) (what : Nat × Bool × Nat × Nat) : State :=
  if what = s.assignment port then s.setFlag .ronpex (Reg.sknPort port) 7 true else s

/-- A change-log entry that a Plocen has copied (R403): recorded with ORIGIN 7 and the node as requester. -/
def State.rpLogCopy (s : State) (node : Nat) (b : LogBody) : State := s.rpLog { b with origin := 7, requester := node }

/-! ### Which MGMT a Ronpex accepts (R392) -/

/-- A node that is a switch package (R35). -/
def isSwitchNode (n : Nat) : Bool := decide (0x6000 ≤ n) && decide (n < 0x7000)

/-- The message comes from the end point on the port on which it arrives. -/
def State.fromEndPoint (s : State) (src : MgmtSource) : Bool :=
  !src.tray && decide (src.port < 192) && s.facesPlocen src.port && s.portNode src.port == src.node

/-- Whether a Ronpex accepts a message of an MTYPE (R392); the tray chain carries those of packages (R395). -/
def State.rpMgmtOk (s : State) (src : MgmtSource) (mtype : Nat) : Bool :=
  let package := src.tray || isSwitchNode src.node
  if mtype = 2 ∨ mtype = 8 ∨ mtype = 9 then s.fromEndPoint src
  else if mtype = 4 ∨ mtype = 5 then
    package || (s.fromEndPoint src && s.fld .ronpex (portBase src.port) 0 2 == 0)
  else package

/-- A MGMT message reaches the Ronpex (R392). -/
def State.rpMgmtIn (s : State) (src : MgmtSource) (m : Mgmt) : State :=
  if !s.rpMgmtOk src (mtypeOf m) then s.mgmtRefused .ronpex src.port src.node (mtypeOf m)
  else
    match m with
    | .assignAck k b sl _ n => s.rpAssignAck src.port (k, b, sl, n)
    | .switchOrder o => s.rpOrderIn src o
    | .epochOrder e f => s.rpEpochIn e f
    | .snapshotOrder t n k => s.rpSnapIn t n k
    | .pathLoss _ t => s.rpPathLoss t
    | .report r => s.reportIn src.node r
    | .logCopy e => s.rpLogCopy src.node e.body
    -- accepted from a switch package, and nothing to a Ronpex
    | .assign .. => s
    | .portRelease .. => s
    | .raw b => s.mgmtRefused .ronpex src.port src.node (fieldNat b 0 1)

end Sys2Proof.Machine
end

