-- ==== Sys2Proof/Machine/WeftDest.lean ====
section
/-! DEFINITION. A destination of weft (R170-R175): admission, receive records, resequencing contexts and the reply cache,
which the Plocen and the Ronpex's memory agent share; and how the Plocen serves requests (R40, R43, R59, R63, R89, R134). -/

namespace Sys2Proof.Machine

open Sys2Proof

/-! ### Admission (R170) -/

/-- An AGE is no younger than another: the signed 16-bit comparison of R165. -/
def noYounger (a b : Nat) : Bool := decide (signed 16 (subMod 16 a b) ≤ 0)

/-- A container of an age is admitted to a store of `cap` entries. -/
def Dest.admits (d : Dest) (cap age : Nat) : Bool :=
  let free := cap - d.store.length
  decide (512 < free) || (decide (0 < free) && match d.refused with | none => true | some r => noYounger age r)

/-- The admission of a container whose AGE is no younger than the remembered one clears the memory. -/
def Dest.admitted (d : Dest) (age : Nat) : Dest :=
  match d.refused with
  | some r => if noYounger age r then { d with refused := none } else d
  | none => d

/-- A refusal is remembered by the oldest AGE refused. -/
def Dest.refusal (d : Dest) (age : Nat) : Dest :=
  { d with refused := some (match d.refused with | none => age | some r => if noYounger age r then age else r) }

/-- A new entry of the store, for `n` messages. -/
def Dest.enter (d : Dest) (n : Nat) : Nat × Dest := (d.nextId, { d with nextId := d.nextId + 1, store := d.store ++ [(d.nextId, n)] })

/-- One message of an entry has ended; the entry is free after its last. -/
def Dest.leave (d : Dest) (entry : Option Nat) : Dest :=
  match entry with
  | none => d
  | some i =>
    { d with store := (d.store.map fun e : Nat × Nat => if e.1 = i then (e.1, e.2 - 1) else e).filter fun e => e.2 != 0 }

/-! ### Receive records and contexts (R171, R175) -/

/-- BASE passes the SEQs that are done. -/
def RecvRec.slide : Nat → RecvRec → RecvRec
  | 0, r => r
  | n + 1, r =>
    if r.done.contains r.base then RecvRec.slide n { r with done := r.done.erase r.base, base := (r.base + 1) % 2 ^ 32 } else r

/-- The context of a source and stream. -/
def Dest.ctx? (d : Dest) (src stream : Nat) : Option Ctx := d.ctxs.find? fun x => x.src == src && x.stream == stream

/-- `d` with a context changed. -/
def Dest.modCtx (d : Dest) (src stream : Nat) (f : Ctx → Ctx) : Dest :=
  { d with ctxs := d.ctxs.map fun x : Ctx => if x.src = src ∧ x.stream = stream then f x else x }

/-- What an arriving request message is (R171, R175). -/
inductive Verdict where
  | run
  | dup
  | prog
  | beyond (base : Nat)
  deriving DecidableEq, Repr

/-- The verdict on a request message from `src`, ordered on `stream` or not. -/
def Dest.verdict (d : Dest) (src seq : Nat) (stream : Option Nat) : Verdict :=
  match stream with
  | none =>
    match SMap.find? d.recs src with
    | none => .beyond 0
    | some r =>
      let k := subMod 32 seq r.base
      if 2 ^ 31 ≤ k ∨ r.done.contains seq then .dup
      else if r.prog.contains seq then .prog
      else if 1024 ≤ k then .beyond r.base else .run
  | some st =>
    match d.ctx? src st with
    | none => .beyond 0
    | some x =>
      let k := subMod 32 seq x.base
      if 2 ^ 31 ≤ k then .dup
      else if x.held.any fun a : Arrival => a.msg.seq == seq then .prog
      else if 256 ≤ k then .beyond x.base else .run

/-- A request message from a node arrives, admitted or not: the node's record is not silent (R171). -/
def Dest.heard (d : Dest) (src now : Nat) : Dest :=
  match SMap.find? d.recs src with
  | none => d
  | some r => { d with recs := SMap.set d.recs src { r with last := now } }

/-- A record for an unordered sequence space that has none yet: BASE is the lowest SEQ (R171). -/
def Dest.openRec (d : Dest) (src now : Nat) (seqs : List Nat) : Dest :=
  if seqs.isEmpty then d
  else
    let r := (SMap.find? d.recs src).getD { base := lowestSeq seqs, done := [], prog := [], last := now }
    { d with recs := SMap.set d.recs src r }

/-- A context for a stream that has none yet (R175). The arrival is noted. -/
def Dest.openCtx (d : Dest) (src stream now : Nat) (seqs : List Nat) : Dest :=
  if seqs.isEmpty then d
  else match d.ctx? src stream with
    | some _ => d.modCtx src stream fun x => { x with last := now }
    | none => { d with ctxs := d.ctxs ++ [{ src := src, stream := stream, base := lowestSeq seqs, held := [], busy := false, last := now }] }

/-- A message that runs is in progress, or held in its context. -/
def Dest.begin (d : Dest) (a : Arrival) : Dest :=
  match a.stream with
  | none =>
    match SMap.find? d.recs a.src with
    | none => d
    | some r => { d with recs := SMap.set d.recs a.src { r with prog := r.prog ++ [a.msg.seq] } }
  | some st => d.modCtx a.src st fun x => { x with held := x.held ++ [a] }

/-- A message has been committed and counted, or served: it is marked done (R171, R175). -/
def Dest.mark (d : Dest) (a : Arrival) : Dest :=
  if a.dup ∨ a.own.isSome then d
  else match a.stream with
    | none =>
      match SMap.find? d.recs a.src with
      | none => d
      | some r =>
        let r1 : RecvRec := { r with prog := r.prog.erase a.msg.seq, done := r.done ++ [a.msg.seq] }
        { d with recs := SMap.set d.recs a.src (RecvRec.slide r1.done.length r1) }
    | some st => d.modCtx a.src st fun x =>
        { x with busy := false, base := (a.msg.seq + 1) % 2 ^ 32, held := x.held.filter fun y : Arrival => y.msg.seq != a.msg.seq }

/-- A message has failed (R89): it is not marked, and its retry is served afresh. -/
def Dest.unmark (d : Dest) (a : Arrival) : Dest :=
  if a.dup ∨ a.own.isSome then d
  else match a.stream with
    | none =>
      match SMap.find? d.recs a.src with
      | none => d
      | some r => { d with recs := SMap.set d.recs a.src { r with prog := r.prog.erase a.msg.seq } }
    | some st => d.modCtx a.src st fun x => { x with busy := false, held := x.held.filter fun y : Arrival => y.msg.seq != a.msg.seq }

/-! ### The reply cache (R174) -/

/-- The entry of a message. -/
def Dest.cached (d : Dest) (a : Arrival) : Option CacheEnt :=
  d.cache.find? fun e => e.src == a.src && e.stream == a.stream && e.seq == a.msg.seq

/-- The old value of an atomic is kept: one that has executed, a violating one, whose old value is zero (R172), or one whose write
has failed (R89). -/
def Dest.keep (d : Dest) (a : Arrival) (old : List Byte) (failed : Bool) (now : Nat) : Dest :=
  if a.own.isSome ∨ !isAtomic a.msg.opc then d
  else { d with cache := d.cache ++ [{ src := a.src, stream := a.stream, seq := a.msg.seq, old := old, failed := failed, at_ := now }] }

/-! ### What a destination reflects whole (R171, R174, R175) -/

/-- The arrival of message `m` of a container. -/
def arrivalOf (c : Container) (plane : Nat) (entry : Option Nat) (m : Msg) : Arrival :=
  { msg := m, src := c.src, plane := plane, age := c.age, skein := c.skein, epoch := c.epoch,
    stream := if m.ord then some c.stream else none, entry := entry, own := none, dup := false }

/-- The unordered requests need a record that only SYNC may set up (R171). -/
def Dest.noRecord (d : Dest) (c : Container) (ms : List Msg) : Bool :=
  !c.sync && (ms.any fun m => !m.ord) && (SMap.find? d.recs c.src).isNone

/-- The ordered requests need a context that cannot be set up (R175). -/
def Dest.noContext (d : Dest) (c : Container) (ms : List Msg) (cap : Nat) : Bool :=
  (ms.any fun m => m.ord) && (d.ctx? c.src c.stream).isNone && (!c.sync || decide (cap ≤ d.ctxs.length))

/-- An ATOMIC that would run finds the reply cache full: atomics in progress, and those before it in its container, have their entries
reserved, once each (R174): an ordered one stands in its context until it is marked. -/
def Dest.noCache (d : Dest) (c : Container) (ms : List Msg) (cap : Nat) : Bool :=
  let waiting := (d.jobs.filter fun j => isAtomic j.arr.msg.opc && j.arr.own.isNone && j.arr.stream.isNone).length
    + ((d.ctxs.flatMap fun x => x.held).filter fun a : Arrival => isAtomic a.msg.opc).length
  let here := ms.filter fun m => isAtomic m.opc && (match d.verdict c.src m.seq (if m.ord then some c.stream else none) with
    | .dup => false
    | .prog => false
    | _ => true)
  !here.isEmpty && decide (cap < d.cache.length + waiting + here.length)

/-! ### Replies of the Plocen (R164, R173) -/

/-- A container joins the replies that wait at a port (R164). -/
def State.queueReply (s : State) (plane : Nat) (c : Container) : State :=
  let q : TxQ := SMap.look (fun _ => {}) s.ep.tx plane
  let q' : TxQ := { q with replies := q.replies ++ [c] }
  { s with ep := { s.ep with tx := SMap.put (fun _ => {}) s.ep.tx plane q' } }

/-- The oldest of several AGEs. -/
def oldestAge (l : List Nat) : Nat := l.tail.foldl (fun a b => if noYounger a b then a else b) (l.headD 0)

/-- Reply messages to one node leave in one container (R173): it carries the oldest AGE of the requests answered. None leaves while the
attach link is down (R90). -/
def State.sendReplies (s : State) (l : List Reply) : State :=
  match l with
  | [] => s
  | r :: _ =>
    let ms := l.map fun x : Reply => match l, x.ord with
      | [_], _ => x.msg
      | _, some st => { x.msg with offset := st }
      | _, none => x.msg
    let e : Envelope := { dest := r.dest, src := s.ownNode .plocen, skein := r.skein, epoch := s.epoch .plocen % 256,
                          age := oldestAge (l.map fun x : Reply => x.age), win := s.winNow .plocen, stream := r.ord.getD 0, sync := false }
    let c : Container := { containerOf e ms with hops := s.sourceHops .plocen }
    if s.ep.att.down then s else s.queueReply r.plane (sealed c)

/-- Two replies may share a container: the same node, plane and skein. -/
def Reply.like (a b : Reply) : Bool := a.dest == b.dest && a.plane == b.plane && a.skein == b.skein

/-- The records that replies take (R154). -/
def replyRecords (l : List Reply) : Nat := (l.map fun x : Reply => msgRecords x.msg.data.length).sum

/-- Replies like `r` that wait leave now. -/
def State.flushLike (s : State) (r : Reply) : State :=
  let l := s.ep.dest.replies.filter r.like
  (s.modDest fun d => { d with replies := d.replies.filter fun x => !r.like x }).sendReplies l

/-- A reply waits to be packed for at most EP_SEQ.ACK.HOLD, or leaves at once (R173). Ordered replies that are no ACK leave
alone, since only an ACK names its stream in a record (R154). -/
def State.reply (s : State) (r : Reply) : State :=
  let hold := s.fld .plocen Reg.epSeqAck 0 16
  if hold = 0 ∨ 48 < r.msg.data.length ∨ (r.ord.isSome ∧ r.msg.opc ≠ 0x31) then s.sendReplies [r]
  else
    let s1 := if 12 < replyRecords (s.ep.dest.replies.filter r.like) + 1 then s.flushLike r else s
    let s2 := s1.modDest fun d => { d with replies := d.replies ++ [{ r with due := s.now + hold }] }
    if 12 ≤ replyRecords (s2.ep.dest.replies.filter r.like) then s2.flushLike r else s2

/-- The replies to a node whose hold has run out leave, with those that share their container (R173). -/
def State.replyHold (s : State) (node : Nat) : State :=
  (s.ep.dest.replies.filter fun r => r.dest == node && decide (r.due ≤ s.now)).foldl (fun t r => t.flushLike r) s

/-- The payload of a request's answer (R152): none in an ACK, nor in the OLD of an ATOMIC whose RESULT was not requested (log 64). -/
def answerData (a : Arrival) (opc : Nat) (data : List Byte) : List Byte :=
  if opc = 0x31 ∨ (opc = 0x32 ∧ !Config.resultWanted a.src (a.stream.elim 0 (· + 1)) a.msg.seq) then [] else data

/-- The answer of a request message (R173): to its source, or inside the Plocen (R40). -/
def State.respond (s : State) (a : Arrival) (opc : Nat) (data : List Byte) : State :=
  match a.own with
  | some (id, i) => s.answer .plocen id i data
  | none =>
    s.reply { dest := a.src, plane := a.plane, skein := a.skein, age := a.age, ord := a.stream, due := s.now
              msg := { opc := opc, len := (answerData a opc data).length, reply := true, ord := a.stream.isSome, hank := 0,
                       seq := a.msg.seq, offset := 0, ttag := 0, data := answerData a opc data } }

/-- An own-node message has failed at its target (R40). -/
def State.ownFailed (s : State) (id i : Nat) : State :=
  match s.held? .plocen id with
  | none => s
  | some h =>
    match h.msgs[i]? with
    | none => s
    | some x =>
      if x.answered then s
      else
        let msgs := h.msgs.set i { x with answered := true }
        let s1 := s.modHeld .plocen id fun g => { g with msgs := msgs }
        (if msgs.all fun y => y.answered then s1.dropHeld .plocen h else s1).messageLost .plocen h x 4 0

/-! ### Jobs -/

/-- The opcode of the answer to a request (R152). -/
def answerOpc (opc : Nat) : Nat := if opc = 0x02 then 0x30 else if isAtomic opc then 0x32 else 0x31

/-- Bytes of a request's range at its target: an ATOMIC's width, a HANK_SET's and a MGMT's none. -/
def rangeLen (m : Msg) : Nat := if m.opc = 0x04 ∨ m.opc = 0x3E then 0 else m.len

/-- The access kind that a request needs (R131): 0 read, 1 write, 2 atomic. -/
def kindOf (opc : Nat) : Nat := if opc = 0x02 then 0 else if isAtomic opc then 2 else 1

/-- A request opcode of R152. -/
def isRequestOpc (opc : Nat) : Bool := opc == 1 || opc == 2 || opc == 4 || isAtomic opc || opc == 0x3E

/-- A request is refused whole (R43, R172): a stale epoch, a hank index that its skein is not granted, or an opcode that R152
does not list (DEDUCED, log 22). -/
def State.stale (s : State) (a : Arrival) : Bool :=
  !isRequestOpc a.msg.opc || (a.msg.opc != 0x3E && a.own.isNone && a.epoch % 256 != s.epoch .plocen % 256)
    || (a.msg.opc != 0x02 && a.msg.opc != 0x3E && !Config.hankGranted a.skein a.msg.hank)

/-- The pieces of attach memory that accesses to some granted pieces take: attach address, offset in the message and length. -/
def accessPieces (pcs : List (Nat × Nat × Nat)) : List (Nat × Nat × Nat) :=
  pcs.flatMap fun p : Nat × Nat × Nat => (pieces p.1 p.2.2).map fun q : Nat × Nat × Nat => (q.1, p.2.1 + q.2.1, q.2.2)

/-- A request becomes a job: the pieces that its grants allow, and a violation logged for the others (R43, R134). A
HANK_SET that is allowed has one piece, which names no memory. A container with two violating pieces makes one entry, with the
container's own offset (DESIGN CHOICE, log 126). -/
def State.newJob (s : State) (a : Arrival) : State :=
  let m := a.msg
  let ps : List (Nat × Nat × Option InExt) := if s.stale a then [(m.offset, rangeLen m, none)]
    else if m.opc = 0x04 ∨ m.opc = 0x3E then [] else s.inPieces m.ttag a.skein m.offset m.len (kindOf m.opc)
  let whole := isAtomic m.opc && ps.any fun p => p.2.2.isNone
  let good := if whole then [] else ps.filterMap fun p => p.2.2.map fun e : InExt => (e.attach + (p.1 - e.start), p.1 - m.offset, p.2.1)
  let pcs := if m.opc = 0x04 ∧ !s.stale a then [(0, 0, 8)] else good
  let id := s.ep.dest.nextId
  let j : Job := { id := id, arr := a, started := false, pcs := pcs
                   lines := if m.opc = 0x04 ∨ m.opc = 0x3E then [] else pcs.flatMap fun p : Nat × Nat × Nat => linesOf p.1 p.2.2
                   under := if whole then [] else ps.filterMap fun p => p.2.2.map fun e : InExt => (e, p.1 - m.offset, p.2.1)
                   todo := if m.opc = 0x04 ∨ m.opc = 0x3E then [] else (accessPieces pcs).map fun q : Nat × Nat × Nat => q.2.1
                   left := 0, failed := false, writing := false, buf := List.replicate (rangeLen m) 0 }
  let s1 := if ps.any fun p => p.2.2.isNone then s.plog .plocen (violBody s.now a.src a.plane a.skein m.offset m.hank) else s
  s1.modDest fun d => { d with nextId := id + 1, jobs := d.jobs ++ [j] }

/-- `s` with a job changed. -/
def State.modJob (s : State) (id : Nat) (f : Job → Job) : State :=
  s.modDest fun d => { d with jobs := d.jobs.map fun j : Job => if j.id = id then f j else j }

/-- A job has ended: it is answered, unless it failed, and its entry is released (R89, R171, R173); the old value of an atomic is
kept (R174). -/
def State.endJob (s : State) (j : Job) (failed : Bool) : State :=
  let a := j.arr
  let s1 := s.modDest fun d =>
    let d1 : Dest := { d with jobs := d.jobs.filter fun x => x.id != j.id }
    (if failed then d1.unmark a else (d1.keep a j.buf false s.now).mark a).leave a.entry
  match failed, a.own with
  | true, some (id, i) => s1.ownFailed id i
  | true, none => s1
  | false, _ => s1.respond a (answerOpc a.msg.opc) (if answerOpc a.msg.opc = 0x31 then [] else j.buf)

/-- A job that is not blocked begins its accesses, or ends at once where it has none. -/
def State.startJob (s : State) (j : Job) : State :=
  let m := j.arr.msg
  if m.opc = 0x3E then ((s.epMgmtIn j.arr.plane j.arr.src (mgmtOf m.data))).endJob j false
  else if m.opc = 0x04 then
    (if j.pcs.isEmpty then s else s.setHank m.hank (fieldNat m.data 0 8)).endJob j false
  else if j.pcs.isEmpty then s.endJob j false
  else
    let l := accessPieces j.pcs
    let rd := m.opc = 0x02 || isAtomic m.opc
    (s.modJob j.id fun x => { x with started := true, left := l.length }).request (l.map fun q : Nat × Nat × Nat => (
      { kind := if rd then 1 else 2
        use := some (if m.opc = 0x02 then AttUse.reqRead j.id q.2.1 else if rd then AttUse.atomRead j.id else AttUse.reqWrite j.id q.2.1)
        addr := q.1, len := q.2.2, data := if rd then [] else sliceBytes m.data q.2.1 q.2.2, aux := 0 } : AttReq))

/-- An earlier job that has not ended keeps a later one waiting: they touch one 64-byte line and one is atomic (R59), or
they are own-node operations on one ordered stream (R63). -/
def Job.blocks (a b : Job) : Bool :=
  ((isAtomic a.arr.msg.opc || isAtomic b.arr.msg.opc) && a.lines.any fun x => b.lines.contains x)
    || (a.arr.own.isSome && b.arr.own.isSome && a.arr.stream.isSome && a.arr.stream == b.arr.stream)

/-- The first job that has not started and that no earlier one blocks; an atomic waits also for the landings on its line that are
outstanding (R59). -/
def State.readyJob (s : State) : List Job → List Job → Option Job
  | _, [] => none
  | before, j :: r =>
    if !j.started && !(before.any fun a => a.blocks j) && !(isAtomic j.arr.msg.opc && s.landingOn j.lines) then some j
    else State.readyJob s (before ++ [j]) r

/-- The next message that a context may commit (R175). -/
def Dest.readyCtx (d : Dest) : Option Arrival :=
  d.ctxs.findSome? fun x => if x.busy then none else x.held.find? fun a : Arrival => a.msg.seq == x.base

/-- Jobs start and contexts commit for as long as one can, at most `n` times. -/
def State.destRun : Nat → State → State
  | 0, s => s
  | n + 1, s =>
    match s.ep.dest.readyCtx with
    | some a => State.destRun n ((s.modDest fun d => d.modCtx a.src (a.stream.getD 0) fun x => { x with busy := true }).newJob a)
    | none =>
      match s.readyJob [] s.ep.dest.jobs with
      | some j => State.destRun n (s.startJob j)
      | none => s

/-- Everything that can start starts. -/
def State.destGo (s : State) : State :=
  s.releaseLands.destRun (s.ep.dest.jobs.length + 2 * (s.ep.dest.ctxs.map fun x => x.held.length).sum + 1)

/-- A job of the Plocen. -/
def State.job? (s : State) (id : Nat) : Option Job := s.ep.dest.jobs.find? fun j => j.id == id

/-- A job's accesses have all ended. -/
def State.jobOver (s : State) (j : Job) : State :=
  let a := j.arr
  let m := a.msg
  if j.failed then
    if j.writing then
      -- the write of an ATOMIC failed: neither executed again nor answered (R89)
      let s1 := s.modDest fun d => (((d.keep a [] true s.now).mark a).leave a.entry)
      match a.own with
      | some (id, i) => (s1.modDest fun d => { d with jobs := d.jobs.filter fun x => x.id != j.id }).ownFailed id i
      | none => s1.modDest fun d => { d with jobs := d.jobs.filter fun x => x.id != j.id }
    else s.endJob j true
  else if isAtomic m.opc ∧ !j.writing then
    let w := m.len
    let new := atomicNew (m.opc - 0x20) w (leNat j.buf) (fieldNat m.data 0 w) (fieldNat m.data w w)
    (s.modJob j.id fun x => { x with writing := true, left := 1 }).request
      (j.pcs.map fun p : Nat × Nat × Nat => (
        { kind := 2, use := some (.atomWrite j.id), addr := p.1, len := w, data := leBytes w new, aux := 0 } : AttReq))
  else if isAtomic m.opc then
    (s.countHank m.hank m.len).endJob j false
  else if m.opc = 0x02 then s.endJob j false
  else (s.countHank m.hank (j.pcs.map fun p : Nat × Nat × Nat => p.2.2).sum).endJob j false

/-- One attach access of a job has ended, with its data where it was a read (R45, R89). An atomic's piece is over with the atomic. -/
def State.jobStep (s : State) (id off : Nat) (data : List Byte) (ok : Bool) : State :=
  match s.job? id with
  | none => s
  | some j =>
    let j1 : Job := { j with left := j.left - 1, failed := j.failed || !ok
                             todo := if isAtomic j.arr.msg.opc then j.todo else j.todo.erase off
                             buf := if ok && !data.isEmpty then spliceBytes j.buf off data else j.buf }
    let s1 := s.modJob id fun _ => j1
    if j1.left = 0 then (s1.jobOver j1).destGo else s1

/-! ### Arrivals (R153, R170-R176) -/

/-- A request container goes back as a switch would send it (R167, R170); one that holds a reply record is discarded. -/
def State.epReflect (s : State) (p : Nat) (c : Container) : State :=
  if holdsReply c then s else s.queueReply p { c with refl := true, hops := 3 }

/-- REFUSE counts a container that the destination reflects (R180). -/
def State.epRefuse (s : State) (p : Nat) (c : Container) : State :=
  (s.addPair .plocen Reg.epSeqRefuseLo Reg.epSeqRefuseHi 1).epReflect p c

/-- DUP counts a message that is discarded as a duplicate (R180). -/
def State.countDup (s : State) : State := s.addPair .plocen Reg.epSeqDupLo Reg.epSeqDupHi 1

/-- One request message of an admitted container (R171, R173-R175). -/
def State.epMessage (s : State) (a : Arrival) : State :=
  match s.ep.dest.verdict a.src a.msg.seq a.stream with
  | .run =>
    let s1 := s.modDest fun d => d.begin a
    if a.stream.isSome then s1 else s1.newJob a
  | .prog => (s.countDup).modDest fun d => d.leave a.entry
  | .beyond b =>
    (s.epCond (if a.stream.isSome then 0x04 else 0x03) 5 a.src a.plane a.skein (a.stream.getD 0) a.msg.seq b).modDest fun d =>
      d.leave a.entry
  | .dup =>
    let s1 := s.countDup
    if a.msg.opc = 0x02 then s1.newJob { a with dup := true }
    else if isAtomic a.msg.opc then
      let s2 := s1.modDest fun d => d.leave a.entry
      match (s.ep.dest.cached a).filter fun e => !e.failed with
      | some e => s2.respond a 0x32 e.old
      | none => s2.epCond 0x0E 5 a.src a.plane a.skein 0 a.msg.seq 0
    else (s1.modDest fun d => d.leave a.entry).respond a 0x31 []

/-- The requests of an arriving container (R170-R175). -/
def State.epRequests (s : State) (p : Nat) (c : Container) (ms : List Msg) : State :=
  if s.ep.att.down || ms.isEmpty then s
  else if !s.ep.dest.admits 4096 c.age then (s.modDest fun d => (d.heard c.src s.now).refusal c.age).epRefuse p c
  else
    let s1 := s.modDest fun d => (d.heard c.src s.now).admitted c.age
    let d := s1.ep.dest
    if d.noRecord c ms then s1.epReflect p c
    else if d.noContext c ms 4096 || d.noCache c ms 32768 then s1.epRefuse p c
    else
      let d1 := (d.openRec c.src s.now ((ms.filter fun m => !m.ord).map fun m => m.seq)).openCtx c.src c.stream s.now
        ((ms.filter fun m => m.ord).map fun m => m.seq)
      let (e, d2) := d1.enter ms.length
      (ms.foldl (fun t m => t.epMessage (arrivalOf c p (some e) m)) (s1.modDest fun _ => d2)).destGo

/-- A weft container in a slot that the draft gives to warp or sky is discarded, and logged once per port and frame where
the slot is warp's (R153, R210). -/
def State.epSlotUse (s : State) (p kind src skein : Nat) : Bool × State :=
  let rx := entryRx (s.ptNow s.now p)
  if rx = 3 then (true, s)
  else
    let warp := kind == 3
    if (rx == 1) == warp then (false, s)
    else if s.ep.warp.logged.contains p then (true, s)
    else
      (true, (s.epCond 0x01 5 src p skein (slotOf s.now) (frameOf s.now % 2 ^ 32) (kind + 16 * ofBool (rx == 1))).modEw fun w =>
        { w with logged := w.logged ++ [p] })

/-- A container that reaches the Plocen is its own: by its DEST, or by its SRC when it comes back reflected. A MGMT
container is known by the port on which it arrives (R304). -/
def State.epAddressed (s : State) (c : Container) : Bool :=
  (if c.refl then c.src else c.dest) == s.ownNode .plocen || c.opc == 0x3E

/-- A container arrives on a port of the Plocen. -/
def State.epArrive (s : State) (p : Nat) (c : Container) : State :=
  if !s.portUp .plocen p || c.crc != containerCrc c || !(c.kind == 1 || c.kind == 2) then s
  else
    let (gone, s1) := s.epSlotUse p c.kind c.src c.skein
    if gone || !s.epAddressed c then s1
    else if c.refl then s1.reflected .plocen c p
    else
      let ms := containerMsgs c
      let s2 := s1.takeWin .plocen c.src p c.win
      let s3 := (ms.filter fun m => m.reply).foldl (fun t m => t.takeReply .plocen c m) s2
      s3.epRequests p c (ms.filter fun m => !m.reply)

/-! ### Timers of the destination (R171, R174, R175) -/

/-- A receive record becomes empty 2 ms after the last arrival, with none in progress. -/
def State.recExpire (s : State) (p : Part) (node : Nat) : State :=
  let d := s.destOf p
  match SMap.find? d.recs node with
  | none => s
  | some r => if r.prog.isEmpty ∧ r.last + 2000000 ≤ s.now then s.setDest p { d with recs := SMap.drop d.recs node } else s

/-- A context that holds nothing is freed after 2 ms. -/
def State.ctxExpire (s : State) (p : Part) (node stream : Nat) : State :=
  let d := s.destOf p
  s.setDest p { d with ctxs := d.ctxs.filter fun x =>
    !(x.src == node && x.stream == stream && x.held.isEmpty && decide (x.last + 2000000 ≤ s.now)) }

/-- Reply-cache entries are dropped after 1 ms. -/
def State.cacheExpire (s : State) (p : Part) : State :=
  let d := s.destOf p
  s.setDest p { d with cache := d.cache.filter fun e => decide (s.now < e.at_ + 1000000) }

end Sys2Proof.Machine
end

