-- ==== Sys2Proof/Machine/WeftForm.lean ====
section
/-! DEFINITION. How the Plocen forms requests (R55, R82, R104-R124, R132, R139-R141, R160-R163): the containers of a started
descriptor, direct loads and stores, packing and injection. -/

namespace Sys2Proof.Machine

open Sys2Proof

/-! ### What a descriptor still has to send (R104-R108) -/

/-- A descriptor with a list of elements or pages. -/
def Desc.isList (d : Desc) : Bool := d.opc == 5 || d.opc == 6 || d.opc == 0xA

/-- Elements of a descriptor. -/
def Desc.count (d : Desc) : Nat := if d.isList then d.len else 1

/-- Bytes of one element. -/
def Desc.size (d : Desc) : Nat :=
  if d.opc = 0xA then 16384 else if d.isList then d.opb else if d.opc = 4 then atomWidth d.sub else if d.opc = 9 then 0 else d.len

/-- The range of everything that a descriptor has to form. -/
def Desc.whole (d : Desc) : Rng := { pos := 0, eoff := 0, endPos := d.count, endOff := 0 }

/-- A range holds nothing more to form. -/
def Rng.over (r : Rng) : Bool := decide (r.endPos < r.pos) || (r.pos == r.endPos && decide (r.endOff ≤ r.eoff))

/-- A range after `n` bytes of its first element of `size` bytes. -/
def Rng.pass (r : Rng) (size n : Nat) : Rng :=
  if size ≤ r.eoff + n then { r with pos := r.pos + 1, eoff := 0 } else { r with eoff := r.eoff + n }

/-- A range after `n` containers of 768 bytes, the last of an element shorter. -/
def Rng.skip (size : Nat) : Nat → Rng → Rng
  | 0, r => r
  | n + 1, r => if r.over then r else Rng.skip size n (r.pass size 768)

/-- The part of a range that a burst of `n` containers takes, and what is left of the range. -/
def Rng.cut (size n : Nat) (r : Rng) : Rng × List Rng :=
  let t := Rng.skip size n r
  if t.over then (r, []) else ({ r with endPos := t.pos, endOff := t.eoff }, [t])

/-- Fabric virtual address of the first element of a range; none while its list entry has not been read. -/
def Act.va (a : Act) (d : Desc) (r : Rng) : Option Nat := if d.isList then SMap.find? a.list r.pos else some d.remote

/-- Attach address of the first byte of a range. -/
def Rng.here (r : Rng) (d : Desc) : Nat := d.locl + (if d.isList then r.pos * d.size else 0) + r.eoff

/-- The bytes of its first element that a range still holds. -/
def Rng.room (r : Rng) (d : Desc) : Nat := (if r.pos = r.endPos then min d.size r.endOff else d.size) - r.eoff


/-- The access kind of a descriptor (R131). -/
def Desc.kind (d : Desc) : Nat := if d.opc = 3 ∨ d.opc = 5 ∨ d.opc = 0xA then 0 else if d.opc = 4 then 2 else 1

/-- A descriptor whose messages are small (R121). -/
def Desc.isSmall (d : Desc) : Bool := ((d.opc == 1 || d.opc == 2) && decide (d.len ≤ 64)) || d.opc == 4 || d.opc == 9

/-- The planes that a descriptor may use (R103, R123): its own mask, or its ring's. -/
def State.descPlanes (s : State) (ring : Nat) (d : Desc) : Nat :=
  if d.planes = 0 then s.fld .plocen (Reg.epRngCfg ring) 16 8 else d.planes

/-! ### Credit and room (R160, R162) -/

/-- Containers that have been formed and wait for their credit. -/
def Source.unsent (x : Source) (node plane : Nat) : Nat :=
  (x.held.filter fun h => h.c.dest == node && h.plane == plane && !h.hasCredit && h.loc != .own).length

/-- Credit for a further container. -/
def State.credits (s : State) (node plane : Nat) : Nat :=
  s.windowOf .plocen node plane - s.ep.src.creditsUsed node plane - s.ep.src.unsent node plane

/-- A stream has unacknowledged containers: those that are being formed, and those for the own node, among them (R40, R114). -/
def Source.streamBusy (x : Source) (stream : Nat) : Bool := x.held.any fun h => h.c.ord && h.c.stream == stream

/-- The node of a stream (R114). -/
def Source.streamDest (x : Source) (stream : Nat) : Nat := ((SMap.find? x.streams stream).map fun y : Stream => y.dest).getD 0

/-- Operations on one stream go in order (R63, R114): an earlier started one has not formed all of its containers. -/
def State.streamWaits (s : State) (a : Act) (d : Desc) : Bool :=
  d.ordered && (s.ep.acts.takeWhile fun x => !(x.ring == a.ring && x.sub == a.sub)).any fun x =>
    (descOf x.raw).ordered && (descOf x.raw).stream == d.stream && !s.formedAll x && x.code == 0

/-! ### The next container of a started descriptor -/

/-- What a shuttle finds when it turns to a started descriptor. -/
inductive Next where
  | none
  | list
  | stall (fault : Option OutExt) (va : Nat)
  | fail (code info : Nat)
  | lost (node plane : Nat)
  | form (node offset ttag n plane va : Nat)
  deriving DecidableEq, Repr

/-- The extents of a range of `len` bytes, followed from byte `off` on through what is cached (R117): how far they reach, and whether the
last of them names a node that is no destination. -/
def extentsAhead (l : List OutExt) (tag va len : Nat) : Nat → Nat → Nat × Bool
  | 0, off => (off, false)
  | n + 1, off =>
    if len ≤ off then (off, false)
    else match l.find? fun e => e.covers tag (va + off) with
      | none => (off, false)
      | some e => if 0x7000 ≤ e.target / 2 ^ 49 then (off, true) else extentsAhead l tag va len n (e.stop - va)

/-- What a PUT, GET or the like has of its range before it sends anything: every extent of it is asked for and looked at, so that one
that names no destination ends the descriptor with nothing sent (R37, R117; DESIGN CHOICE, log 135). -/
def State.lookAhead (s : State) (k : Nat) (a : Act) (d : Desc) : Nat × Bool :=
  let l := s.micro k ++ s.ep.xlt.outExt
  if d.isList ∨ a.sent ∨ d.len ≤ a.ahead then (max d.len a.ahead, false) else extentsAhead l (s.ringTag a.ring) d.remote d.len (l.length + 1) a.ahead

/-- The next container of a descriptor at shuttle `k` (R37, R108, R114, R123, R132, R139): the first of the range that is to be formed
next. The entries of a DECRYPT descriptor are checked before anything is sent (R338; log 134). A page entry that is both unaligned and
on another node ends with ALIGN_ERROR (DESIGN CHOICE, log 132), and an entry that ends its descriptor waits for the bursts of earlier
ones. An ordered operation that has sent containers waits for them where a later extent names another node (DESIGN CHOICE, log 133). A
descriptor that has sent and finds no plane for a further container ends with TARGET_LOST (DESIGN CHOICE, log 169). -/
def State.nextOf (s : State) (k : Nat) (a : Act) : Next × State :=
  let d := descOf a.raw
  let ends (t : State) (c i : Nat) : Next × State := (if d.isList && s.burstHeld a.ring a.sub then .none else .fail c i, t)
  match a.todo with
  | [] => (.none, s)
  | r :: _ =>
    if a.code ≠ 0 ∨ s.streamWaits a d then (.none, s)
    else if d.isList ∧ d.decrypt ∧ !a.checked then (.list, s)
    else
      let (off, bad) := s.lookAhead k a d
      let s := s.modAct a.ring a.sub fun x => { x with ahead := max x.ahead off }
      if bad then (.fail 1 0, s)
      else if off < d.len ∧ !d.isList then
        (if s.xltOn then .stall none ((d.remote + off) % 2 ^ 64) else .fail 3 0xFFFFFFFF, s)
      else match a.va d r with
      | none => (.list, s)
      | some va0 =>
        let va := (va0 + r.eoff) % 2 ^ 64
        if d.opc = 0xA ∧ va0 % 16384 ≠ 0 then ends s 2 r.pos
        else match s.lookupOut k (s.ringTag a.ring) va d.kind with
          | (.miss, t) => if s.xltOn then (.stall none va, t) else (.fail 3 0xFFFFFFFF, t)
          | (.fault e, t) => if s.xltOn then (.stall (some e) va, t) else (.fail 3 0xFFFFFFFF, t)
          | (.hit e, t) =>
            let (node, off, ttag, n) := e.place va (r.room d)
            let busy := d.ordered && s.ep.src.streamBusy d.stream && s.ep.src.streamDest d.stream != node
            if 0x7000 ≤ node ∨ (d.opc = 0xA ∧ !isSwitchNode node) then ends t 1 (if d.isList then r.pos else 0)
            else if busy then (if a.sent then (.none, t) else (.fail 10 (s.ep.src.streamDest d.stream), t))
            else if node = s.ownNode .plocen then (.form node off ttag n 0 va, t)
            else match planeOf node off (s.openPlanes node (s.descPlanes a.ring d)) with
              | none => (if a.sent then .lost node ((planeOf node off (s.descPlanes a.ring d)).getD 0) else .fail 6 0, t)
              | some p =>
                if s.credits node p ≠ 0 ∧ s.storeRoom (if d.kind = 1 then 0 else n) then (.form node off ttag n p va, t) else (.none, t)

/-- A shuttle that turns to a started descriptor finds something to do: a container that can be formed now, a list to be read on, a
translation to be asked for, or its end. -/
def State.canServe (s : State) (k : Nat) (a : Act) : Bool :=
  match (s.nextOf k a).1 with
  | .none => false
  | .list => a.todo.any fun r => decide (a.asked ≤ r.pos)
  | _ => true

/-! ### Formed containers -/

/-- A container that has its data takes its SEQ, in stream order (R163), and its place: packing, waiting, or the own node's
jobs (R40, R121). One that is formed again keeps the SEQ it has (R125). -/
def State.promoteOne (s : State) (id : Nat) : State :=
  match s.held? .plocen id with
  | none => s
  | some h =>
    let earlier := s.ep.src.held.takeWhile fun g => g.id != id
    if h.loc ≠ .forming 0 ∨ (h.c.ord ∧ earlier.any fun g => g.c.ord && g.c.stream == h.c.stream && g.forming) then s
    else if h.numbered then s.modHeld .plocen id fun g => { g with loc := .waiting }
    else if h.c.dest = s.ownNode .plocen then
      let s1 := s.modHeld .plocen id fun g => { g with loc := .own }
      h.msgs.zipIdx.foldl (fun t x =>
        t.newJob { msg := x.1.msg, src := s.ownNode .plocen, plane := 0, age := ageOf s.now, skein := h.c.skein, epoch := h.c.epoch,
                   stream := if h.c.ord then some h.c.stream else none, entry := none, own := some (id, x.2), dup := false }) s1
    else
      let x := s.ep.src
      let sync := x.idleTo h.c.dest (if h.c.ord then some h.c.stream else none)
      let seq := if h.c.ord then ((SMap.find? x.streams h.c.stream).map fun y : Stream => y.next).getD 0 else x.nextSeq h.c.dest
      let hold := s.fld .plocen Reg.epShtPack 0 16
      let x1 : Source := if h.c.ord then { x with streams := SMap.set x.streams h.c.stream { dest := h.c.dest, next := (seq + 1) % 2 ^ 32 } }
        else { x with next := SMap.put (fun _ => 0) x.next h.c.dest ((seq + 1) % 2 ^ 32) }
      (s.setSource .plocen x1).modHeld .plocen id fun g => { g with
        c := { g.c with seq := seq, sync := sync }
        msgs := g.msgs.map fun y : SentMsg => { y with msg := { y.msg with seq := seq } }
        loc := if g.small ∧ hold ≠ 0 then .packing else .waiting, formedAt := s.now, numbered := true }

/-- Records of the small messages that wait to be packed for a node and plane. -/
def Source.packing (x : Source) (node plane : Nat) : Nat :=
  ((x.held.filter fun h => h.loc == .packing && h.c.dest == node && h.plane == plane).map fun h =>
    (h.msgs.map fun y : SentMsg => msgRecords y.msg.data.length).sum).sum

/-- A container's worth of small messages waits no longer (R121). -/
def State.packFull (s : State) (node plane : Nat) : State :=
  if s.ep.src.packing node plane < 12 then s
  else s.modSource .plocen fun x => { x with held := x.held.map fun h : Held =>
    if h.loc = .packing ∧ h.c.dest = node ∧ h.plane = plane then { h with loc := .waiting } else h }

/-- The descriptors whose messages a container carries. -/
def Held.descs (h : Held) : List (Nat × Nat) :=
  (h.msgs.filterMap fun x => match x.owner with
    | .desc r n => some (r, n)
    | _ => none).dedup

/-- Every container that has its data takes its place; a descriptor that waited for that is settled (R140). -/
def State.promote (s : State) : State :=
  let l := s.ep.src.held.filter fun h => h.loc == .forming 0
  let s1 := (l.foldl (fun t h => (t.promoteOne h.id).packFull h.c.dest h.plane) s).destGo
  ((l.flatMap Held.descs).dedup).foldl (fun t x => t.settleAct x.1 x.2) s1

/-- The hold of small messages for a node and plane has run out (R121). -/
def State.packExpire (s : State) (node plane : Nat) : State :=
  let hold := s.fld .plocen Reg.epShtPack 0 16
  if s.ep.src.held.any fun h => h.loc == .packing && h.c.dest == node && h.plane == plane && decide (h.formedAt + hold ≤ s.now) then
    s.modSource .plocen fun x => { x with held := x.held.map fun h : Held =>
      if h.loc = .packing ∧ h.c.dest = node ∧ h.plane = plane then { h with loc := .waiting } else h }
  else s

/-- A new container of the Plocen with one request message, whose data is read first where `reads` names any pieces (R55); `room`
says that it has its space in the store (R162). -/
def State.newHeld (s : State) (m : Msg) (sent : SentMsg) (node plane planes xtag reserve : Nat) (stream : Option Nat)
    (direct small room : Bool) (shuttle : Option Nat) (reads : List (Nat × Nat × Nat)) : State :=
  let x := s.ep.src
  let e : Envelope := { dest := node, src := s.ownNode .plocen, skein := s.epSkein, epoch := s.epoch .plocen % 256,
                        age := ageOf s.now, win := 0, stream := stream.getD 0, sync := false }
  let (retry, maxT, life) := s.limits .plocen
  let h : Held := { id := x.nextId, c := containerOf e [m], msgs := [sent], planes := planes, plane := plane, direct := direct
                    small := small, xtags := [xtag], room := room, shuttle := shuttle, numbered := false, loc := .forming reads.length, formedAt := s.now, first := none, due := s.now
                    tmo := 0, refls := 0, retryUs := retry, maxTmo := maxT, lifeUs := life, reserve := reserve }
  (s.setSource .plocen { x with held := x.held ++ [h], nextId := x.nextId + 1 }).request (reads.map fun p : Nat × Nat × Nat => (
    { kind := 1, use := some (.source h.id p.2.1), addr := p.1, len := p.2.2, data := [], aux := 0 } : AttReq))

/-- The request message of a descriptor's next container (R104-R108, R152). -/
def descMsg (d : Desc) (off ttag n : Nat) : Msg :=
  let base : Msg := { opc := 1, len := n, reply := false, ord := d.ordered, hank := d.rhank, seq := 0, offset := off, ttag := ttag
                      data := List.replicate n 0 }
  let w := atomWidth d.sub
  let op := bits 0 4 d.sub
  if d.opc = 4 then
    let operand := if op = 0xC then (anchoredTerm (signed 16 (bits 0 16 d.len)) (bits 16 8 d.len) (bits 24 8 d.len) d.opa).getD 0
      else if op = 0xD then d.opa + 2 ^ 64 * d.opb else d.opa
    { base with opc := 0x20 + op, len := w, data := leBytes w operand ++ (if op = 9 then leBytes w d.opb else []) }
  else if d.opc = 9 then { base with opc := 4, len := 8, data := leBytes 8 d.opa }
  else if d.kind = 0 then { base with opc := 2, hank := 0, data := [] }
  else base

/-- A shuttle forms the next container of a descriptor; one of the ordered class fixes its stream's node (R114). -/
def State.formDesc (s : State) (k : Nat) (a : Act) (node off ttag n plane va : Nat) : State :=
  match a.todo with
  | [] => s
  | r :: rest =>
    let d := descOf a.raw
    let m := descMsg d off ttag n
    let own := decide (node = s.ownNode .plocen)
    let isWrite := m.opc == 1
    let owes := d.waits || own
    let wants := if d.kind = 0 then n else if d.opc = 4 ∧ d.result then m.len else 0
    let sent : SentMsg := { msg := m, owner := .desc a.ring a.sub, land := r.here d, hank := d.lhank, wants := wants
                            decrypt := d.decrypt, page := va / 64, owes := owes, answered := false }
    let r' := r.pass d.size n
    let s1 := s.modAct a.ring a.sub fun x => { x with
      todo := if r'.over then rest else r' :: rest, list := if r'.pos = r.pos then x.list else SMap.drop x.list r.pos, sent := true
      parts := x.parts + ofBool isWrite + ofBool owes }
    let s2 := s1.modShuttle k fun x => { x with formed := (x.formed + 1) % 2 ^ 64 }
    let s3 := if d.ordered then s2.modSource .plocen fun x => { x with
        streams := SMap.set x.streams d.stream { dest := node, next := ((SMap.find? x.streams d.stream).map fun y : Stream => y.next).getD 0 } }
      else s2
    (s3.newHeld m sent node plane (s.descPlanes a.ring d) (s.ringTag a.ring) (if isWrite then 0 else if d.opc = 9 then 0 else m.len)
      (if d.ordered then some d.stream else none) false d.isSmall (!own) (some k) (if isWrite then pieces (r.here d) n else [])).promote

/-- The next entries of a list are read, up to 256 bytes that cross no 4 KiB boundary (R78, R107, R108; DESIGN CHOICE, log 127): an
entry that lies across one takes two reads. -/
def State.askList (s : State) (ring sub : Nat) : State :=
  match s.act? ring sub with
  | none => s
  | some a =>
    let d := descOf a.raw
    let addr := d.opa + 8 * a.asked
    let edge := 4096 - addr % 4096
    let n := min (d.len - a.asked) (min 256 edge / 8)
    if !d.isList ∨ d.len ≤ a.asked then s
    else if n = 0 then
      (s.modAct ring sub fun x => { x with asked := x.asked + 1 }).request
        [{ kind := 1, use := some (.listPart ring sub a.asked 0), addr := addr, len := edge, data := [], aux := 0 },
         { kind := 1, use := some (.listPart ring sub a.asked edge), addr := addr + edge, len := 8 - edge, data := [], aux := 0 }]
    else (s.modAct ring sub fun x => { x with asked := x.asked + n }).request
      [{ kind := 1, use := some (.list ring sub a.asked n), addr := addr, len := 8 * n, data := [], aux := 0 }]

/-- Entries have come into a list. Those of a DECRYPT descriptor are read to the end, and then all checked to be multiples of 64
before anything is sent (R338); where all are, another check that failed ends the descriptor. -/
def State.listCheck (s : State) (ring sub : Nat) : State :=
  match s.act? ring sub with
  | none => s
  | some a =>
    let d := descOf a.raw
    if !d.decrypt ∨ a.checked ∨ a.list.length < a.asked then s
    else if a.asked < d.len then s.askList ring sub
    else
      let s1 := s.modAct ring sub fun x => { x with checked := true }
      if a.list.any fun e => e.2 % 64 != 0 then (s1.failAct ring sub 7 40).settleAct ring sub
      else match a.bad with
        | some o => (s1.failAct ring sub 7 o).settleAct ring sub
        | none => s1

/-- A read of list entries has failed (R89): ATTACH_ERROR, or the BAD_DESC that another check gives. -/
def State.listFailed (s : State) (ring sub : Nat) : State :=
  match (s.act? ring sub).bind (·.bad) with
  | some o => (s.failAct ring sub 7 o).settleAct ring sub
  | none => (s.failAct ring sub 4 0).settleAct ring sub

/-- List entries have been read, or their read has failed (R89). -/
def State.listDone (s : State) (ring sub first n : Nat) (data : List Byte) (ok : Bool) : State :=
  if ok then (s.modAct ring sub fun a => { a with
    list := (List.range n).foldl (fun l i => SMap.set l (first + i) (fieldNat data (8 * i) 8)) a.list }).listCheck ring sub
  else s.listFailed ring sub

/-- One part of a list entry that lies across a 4 KiB boundary has been read (R108): the entry is there with its second part. -/
def State.listPartDone (s : State) (ring sub entry lo : Nat) (data : List Byte) (ok : Bool) : State :=
  if ok then
    let v := leNat data * 256 ^ lo
    (s.modAct ring sub fun a => match a.halves.find? fun h => h.1 == entry with
      | none => { a with halves := a.halves ++ [(entry, v)] }
      | some h => { a with halves := a.halves.filter fun x => x.1 != entry, list := SMap.set a.list entry (h.2 + v) }).listCheck ring sub
  else s.listFailed ring sub

/-- One read of a container's source bytes has ended (R55, R89). -/
def State.sourceDone (s : State) (id off : Nat) (data : List Byte) (ok : Bool) : State :=
  match s.held? .plocen id with
  | none => s
  | some h =>
    match h.loc, h.msgs.head? with
    | .forming (r + 1), some x =>
      match x.owner with
      | .desc ring sub =>
        if !ok then
          let s1 := ((s.dropHeld .plocen h).failAct ring sub 4 0).modAct ring sub fun a => { a with parts := a.parts - ofBool x.owes }
          (s1.partDone ring sub).promote
        else
          let s1 := s.modHeld .plocen id fun g => { g with
            c := { g.c with payload := spliceBytes g.c.payload off data }, loc := .forming r
            msgs := g.msgs.map fun y : SentMsg => { y with msg := { y.msg with data := spliceBytes y.msg.data off data } } }
          if r = 0 then s1.promote.partDone ring sub else s1
      | _ => s
    | _, _ => s

/-! ### Bursts (R119, R120) -/

/-- A shuttle forms up to `n` containers of a descriptor, all for one node; the number formed, or kept with the burst while the shuttle
is stalled (R119, R139). -/
def State.formLoop : Nat → State → Nat → Nat → Nat → Option Nat → State × Nat
  | 0, s, _, _, _, _ => (s, 0)
  | n + 1, s, k, ring, sub, node =>
    match s.act? ring sub with
    | none => (s, 0)
    | some a =>
      match s.nextOf k a, a.todo with
      | _, [] => (s, 0)
      | (.none, _), _ => (s, 0)
      | (.list, _), r :: _ => (if a.asked ≤ r.pos then s.askList ring sub else s, 0)
      | (.fail c i, t), _ => ((t.failAct ring sub c i).settleAct ring sub, 0)
      | (.lost no p, t), _ =>
        let t1 := (t.failAct ring sub 5 no).settleAct ring sub
        (if no < 0x6000 then t1.report 1 no p else t1, 0)
      | (.stall e va, t), r :: rest =>
        let d := descOf a.raw
        let (mine, others) := r.cut d.size (n + 1)
        let t1 := t.modAct ring sub fun x => { x with todo := others ++ rest }
        (((t1.modShuttle k fun x => { x with burst := some { ring := ring, sub := sub, rng := mine, left := n + 1, node := node } }).stall k e
          (s.ringTag ring) va d.kind ring sub), n + 1)
      | (.form no off tt m p va, t), _ =>
        if node.isSome ∧ node ≠ some no then (s, 0)
        else
          let (u, f) := State.formLoop n (t.formDesc k a no off tt m p va) k ring sub (some no)
          (u, f + 1)

/-- A burst goes back to the scheduler (R119): its range is what its descriptor forms next. -/
def State.returnBurst (s : State) (b : Burst) : State := s.modAct b.ring b.sub fun a => { a with todo := b.rng :: a.todo }

/-- Containers that were not formed count for their ring again (R120). -/
def State.giveBack (s : State) (ring n : Nat) : State :=
  s.modRing ring fun r => { r with deficit := min (r.deficit + n) (r.weight * 64) }

/-- A shuttle that was stalled goes on with its burst; what it cannot form goes back to the scheduler (R119, R139). -/
def State.resumeShuttle (s : State) (k : Nat) : State :=
  match (s.shuttle k).burst with
  | none => s.modShuttle k fun x => { x with miss := none }
  | some b =>
    let (s2, f) := ((s.modShuttle k fun x => { x with burst := none, miss := none }).returnBurst b).formLoop b.left k b.ring b.sub b.node
    s2.giveBack b.ring (b.left - f)

/-! ### The direct path (R82, R83, R122, R141) -/

/-- A direct access that is translated and formed, held in the direct miss store, or refused. -/
def State.directGo (s : State) (x : DMiss) : State :=
  let va := x.va
  let tag := x.xtag
  let kind := if x.store then 1 else 0
  let lost (t : State) : State := (t.modXlt fun y => { y with drop := satAdd 32 y.drop 1 }).dropDirect x
  match s.lookupOut 16 tag va kind with
  | (.miss, t) => if s.xltOn then t.directMiss none tag va kind x else lost t
  | (.fault e, t) => if s.xltOn then t.directMiss (some e) tag va kind x else lost t
  | (.hit e, t) =>
    let (node, off, ttag, _) := e.place va x.len
    let own := node = s.ownNode .plocen
    if 0x7000 ≤ node then t.dropDirect x
    else
      let plane := if own then some 0 else planeOf node off (s.openPlanes node x.planes)
      match plane with
      | none => t.dropDirect x
      | some p =>
        let m : Msg := if x.store then
            { opc := 1, len := x.len, reply := false, ord := false, hank := x.hank, seq := 0
              offset := off, ttag := ttag, data := x.data }
          else { opc := 2, len := x.len, reply := false, ord := false, hank := 0, seq := 0, offset := off, ttag := ttag, data := [] }
        let sent := plainSent m (if x.store then .store x.id else .load x.id)
        let t1 : State := { t with ep := { t.ep with loads := t.ep.loads.map fun l : Load =>
          if !x.store && l.id == x.id then { l with inMiss := false } else l } }
        (t1.newHeld m sent node p x.planes tag (if x.store then 0 else x.len) none true x.store (t1.storeRoom (if x.store then 0 else x.len)) none []).promote

/-- A record is answered: the accesses that wait on it are replayed from the lookup (R139 step 4). -/
def State.replayMiss (s : State) (id : Nat) : State :=
  match s.ep.xlt.misses.find? fun m => m.id == id with
  | none => s
  | some m =>
    let s0 := s.modXlt fun x => { x with misses := x.misses.filter fun y => y.id != id }
    let s1 := (List.range 16).foldl (fun t k => if (t.shuttle k).miss = some id then t.resumeShuttle k else t) s0
    m.direct.foldl (fun t d => t.directGo d) s1

/-! ### Injection (R121, R160-R163) -/

/-- A container may be injected on a plane (R160, R162, R163, R304). -/
def State.mayInject (s : State) (p : Nat) (h : Held) : Bool :=
  h.loc == .waiting && h.plane == p && s.epLive p
    && decide (s.ep.src.creditsUsed h.c.dest p < s.windowOf .plocen h.c.dest p)
    && s.ep.src.inLimit h && (h.room || s.storeRoom h.reserve) && (s.flag .plocen Reg.epSecNode 15 || h.c.opc == 0x3E)

/-- Small messages that may share a container with `h` (R121): for the same node and plane, not yet injected, under the same SRC, SKEIN and
EPOCH of the header, and of no other ordered stream (R155). -/
def Held.mate (h g : Held) : Bool :=
  h.small && g.small && g.loc == .waiting && g.first.isNone && h.first.isNone && g.c.dest == h.c.dest && g.plane == h.plane
    && g.c.src == h.c.src && g.c.skein == h.c.skein && g.c.epoch == h.c.epoch && (!g.c.ord || !h.c.ord || g.c.stream == h.c.stream)

/-- The first of several containers whose messages fit into 12 records together. -/
def takeRecords : Nat → List Held → List Held
  | _, [] => []
  | n, h :: r =>
    let k := (h.msgs.map fun y : SentMsg => msgRecords y.msg.data.length).sum
    if k ≤ n then h :: takeRecords (n - k) r else []

/-- The containers whose messages go out packed with those of `h`, itself among them (R121). Ordered messages among them are of one
stream, and the one SYNC of the header holds for the ordered and for the unordered ones (DEDUCED, log 128). -/
def Source.mates (x : Source) (h : Held) : List Held :=
  let l := (x.held.filter fun g => h.mate g && x.inLimit g && (g.room || g.id == h.id))
  let stream := (l.find? fun g => g.c.ord).map fun g : Held => g.c.stream
  let one := l.filter fun g => !g.c.ord || some g.c.stream == stream
  let sync (ord : Bool) : Bool := one.any fun g => g.c.ord == ord && g.c.sync
  let whole := if one.all (fun g => g.c.ord == h.c.ord) || sync true == sync false then one else one.filter fun g => g.c.ord == h.c.ord
  takeRecords 12 (if whole.any fun g => g.id == h.id then whole else [h])

/-- The container in which several small messages go out (R121, R155). It is resent on a plane that every one of them may take (DESIGN
CHOICE, log 168). -/
def packOf (h : Held) (mates : List Held) : Held :=
  { h with
    c := containerOf { dest := h.c.dest, src := h.c.src, skein := h.c.skein, epoch := h.c.epoch, age := h.c.age, win := 0
                       stream := ((mates.find? fun g => g.c.ord).map fun g : Held => g.c.stream).getD 0, sync := mates.any fun g => g.c.sync }
      ((mates.flatMap fun g => g.msgs).map fun y : SentMsg => y.msg)
    msgs := mates.flatMap fun g => g.msgs
    planes := mates.foldl (fun m g => bAnd m g.planes) h.planes
    xtags := (mates.flatMap fun g => g.xtags).dedup
    reserve := (mates.map fun g => g.reserve).sum }

/-- A container is injected on plane `p` (R163): it takes its credit and joins the port's queue. Small messages that share it end as
containers of their own, and what waits for them waits for it (R145). One that has been injected before keeps its limits (R180). -/
def State.injectHeld (s : State) (p : Nat) (h : Held) : State :=
  let mates := s.ep.src.mates h
  let several := h.small && decide (1 < mates.length)
  let g := if several then packOf h mates else h
  let c : Container := sealed { g.c with age := if h.first.isSome then h.c.age else ageOf s.now, hops := s.sourceHops .plocen, defl := 0
                                         win := s.winNow .plocen }
  let (retry, maxT, life) := if h.first.isSome then (h.retryUs, h.maxTmo, h.lifeUs) else s.limits .plocen
  let h1 : Held := { g with c := c, loc := .port, first := some (h.first.getD s.now), due := s.now + 1000 * retry
                            retryUs := retry, maxTmo := maxT, lifeUs := life, room := true }
  let x := s.ep.src
  let gone := if several then (mates.map fun y : Held => y.id).filter fun i => i != h.id else []
  let x1 : Source := { x with
    held := (x.held.filter fun y => !gone.contains y.id).map fun y : Held => if y.id = h.id then h1 else y
    used := SMap.put (fun _ => 0) x.used (creditKey h.c.dest p) (x.creditsUsed h.c.dest p + 1) }
  let q : TxQ := SMap.look (fun _ => {}) s.ep.tx p
  let q' : TxQ := if h.direct then { q with direct := q.direct ++ [(h.id, c)] } else { q with shuttle := q.shuttle ++ [(h.id, c)] }
  let s1 := (s.setSource .plocen x1).modXlt fun y => { y with
    drains := y.drains.map fun d => (d.1, d.2.1, (d.2.2.1.map fun i => if gone.contains i then h.id else i).dedup, d.2.2.2) }
  { s1 with ep := { s1.ep with tx := SMap.put (fun _ => {}) s1.ep.tx p q' } }

/-- The first container that may be injected on a plane is injected; one that has been before and is older than LIFE ends (R176). -/
def State.injectOn (s : State) (p : Nat) : State :=
  match s.ep.src.held.find? fun h => s.mayInject p h with
  | none => s
  | some h => if s.lifeOver h then s.endHeld .plocen h.id 5 else s.injectHeld p h

/-- Every container that may leave is injected, as far as credit reaches. -/
def State.injectAll : Nat → State → Nat → State
  | 0, s, _ => s
  | n + 1, s, p => if s.ep.src.held.any fun h => s.mayInject p h then State.injectAll n (s.injectOn p) p else s

/-! ### Shuttle faults (R125) -/

/-- A container that a shuttle formed and no port has taken (R125). -/
def Held.unported (h : Held) (k : Nat) : Bool :=
  h.shuttle == some k && h.first.isNone && match h.loc with
    | .forming _ => true
    | .packing => true
    | .waiting => true
    | _ => false

/-- A container whose shuttle was fenced waits to be formed again (R125): the reads of its source data are given up. -/
def State.unform (s : State) (h : Held) : State :=
  let mine (u : AttUse) : Bool := match u with
    | .source i _ => i == h.id
    | _ => false
  (s.modAtt fun a => { a with
    queue := a.queue.filter fun q : AttReq => !q.use.any mine
    tags := a.tags.map fun e : Nat × AttTag => if mine e.2.use then (e.1, { e.2 with void := true }) else e }).modHeld .plocen h.id fun g =>
      { g with loc := .again }

/-- Shuttle `k` forms a container again (R125): its source data is read afresh, and it keeps what it has of SEQ and translation. -/
def State.reform (s : State) (k : Nat) (h : Held) : State :=
  match h.msgs.head? with
  | none => s
  | some x =>
    let isWrite := x.msg.opc == 1
    let reads := if isWrite then pieces x.land x.msg.len else []
    let s1 := (s.modShuttle k fun y => { y with formed := (y.formed + 1) % 2 ^ 64 }).modHeld .plocen h.id fun g => { g with
      loc := .forming reads.length, shuttle := some k }
    (s1.request (reads.map fun p : Nat × Nat × Nat => (
      { kind := 1, use := some (.source h.id p.2.1), addr := p.1, len := p.2.2, data := [], aux := 0 } : AttReq))).promote

/-- A shuttle with an internal error is fenced, and its burst goes back to the scheduler, as do the containers that no port has taken. -/
def State.fenceShuttle (s : State) (k : Nat) : State :=
  let s0 := (s.ep.src.held.filter fun h => h.unported k).foldl (fun t h => t.unform h) s
  let s1 := s0.modShuttle k fun x => { x with fenced := true, burst := none, miss := none }
  match (s.shuttle k).burst with
  | none => s1
  | some b => (s1.returnBurst b).giveBack b.ring b.left

end Sys2Proof.Machine
end

