-- ==== Sys2Proof/Machine/Ready.lean ====
section
/-! DEFINITION. The checks of a descriptor before it starts (R105, R106, R109, R233, R236, R335, R338), and which rings are ready
(R113, R118, R120). -/

namespace Sys2Proof.Machine

open Sys2Proof

/-! ### Checks made before a descriptor sends anything (R105, R106, R109, R233, R236, R335, R338) -/

/-- Phases of a WARP_JOIN. -/
def Desc.phases (d : Desc) : Nat × Nat := (bits 0 16 d.opa, bits 16 16 d.opa)

/-- An anchor phase of the pattern is bound without the SUM phase that follows it, or the SUM phase without it (R233). -/
def State.splitsAnchor (s : State) (pat f l : Nat) : Bool :=
  (s.patPhases pat).any fun a => (s.phOf a).kind == 2 && (s.phOf a).op != 0x0B &&
    match (s.patPhases pat).find? fun q => decide (a < q) && (s.phOf q).anchoredSum with
    | none => false
    | some q => (decide (f ≤ a) && decide (a ≤ l)) != (decide (f ≤ q) && decide (q ≤ l))

/-- K and LISTS of a TOPK phase are in range (R225). -/
def PhaseRec.topkGood (r : PhaseRec) : Bool :=
  decide (1 ≤ r.topkK) && decide (r.topkK ≤ 64) && decide (1 ≤ r.topkL) && decide (r.topkL ≤ 96 / r.topkK)

/-- The faults of a WARP_JOIN against the slot table: its range must lie in one pattern's data phases (DEDUCED, log 21). -/
def State.joinFaults (s : State) (d : Desc) : List Nat :=
  let (f, l) := d.phases
  let pat := (s.phOf f).pattern
  if !s.ptRunning ∨ l < f ∨ 256 ≤ l ∨ !((s.patPhases pat).contains f && (s.patPhases pat).contains l) then [40]
  else
    let b : Binding := { id := 0, ring := 0, sub := 0, raw := 0, first := f, last := l, pattern := pat, inst := none, landed := []
                         shadowed := [], failed := none, landing := 0, code := none }
    (if s.splitsAnchor pat f l then [40] else [])
      ++ (if ((s.patPhases pat).any fun q => (s.phOf q).kind == 4) && s.ep.sec.sky.isNone then [40] else [])
      ++ (if (upTo f l).any fun q => (s.phOf q).kind == 3 && (s.phOf q).op == 7 && !(s.phOf q).topkGood then [40] else [])
      ++ (if d.len = (s.patOf pat).rounds * s.perRound s.ep.warp.primary (·.contrib) b then [] else [4])

/-- The faults of a DECRYPT descriptor (R338): its key, and its multiples of 64. Its list entries are checked once they are read, before
anything is sent (`State.listCheck`). -/
def State.decryptFaults (s : State) (d : Desc) : List Nat :=
  if !d.decrypt then []
  else
    (if s.ep.sec.model.isNone then [1] else []) ++ (if d.locl % 64 ≠ 0 then [8] else [])
      ++ (if d.opc = 3 ∧ d.remote % 64 ≠ 0 then [16] else []) ++ (if d.opc = 3 ∧ d.len % 64 ≠ 0 then [4] else [])
      ++ (if d.opc = 5 ∧ d.opb % 64 ≠ 0 then [48] else [])

/-- A DECRYPT descriptor whose lowest failing offset lies above that of its list entries, 40: they are read before INFO is known (R338). -/
def listDecides (d : Desc) (o : Nat) : Bool := d.opc == 5 && d.decrypt && decide (40 < o)

/-- The lowest offset among the fields that break a rule, if one does (R105). -/
def State.badDesc (s : State) (d : Desc) : Option Nat :=
  lowestOf (descFaults d ++ s.decryptFaults d ++ (if d.opc = 7 then s.joinFaults d else [])
    ++ (if d.opc = 4 ∧ bits 0 4 d.sub = 0xC ∧ (anchoredTerm (signed 16 (bits 0 16 d.len)) (bits 16 8 d.len) (bits 24 8 d.len) d.opa).isNone
        then [40] else []))

/-- A misaligned atomic (R59, R106). -/
def Desc.misaligned (d : Desc) : Bool :=
  d.opc == 4 && (d.remote % atomWidth d.sub != 0 || (d.result && d.locl % atomWidth d.sub != 0))

/-! ### What may start (R109, R113, R118) -/

/-- A descriptor's start waits for a counter: its gate, or the threshold of a HANK_WAIT (R111, R113). -/
def State.descWaits (s : State) (d : Desc) : Bool :=
  (d.gate || d.opc == 8) && !hankMet (s.hank d.ghank) d.gthresh

/-- The binding table is full (R109). -/
def State.bindsFull (s : State) : Bool := decide (512 ≤ s.ep.warp.binds.length)

/-- A parked WARP_JOIN whose gate is met finds the binding table full: its ring starts nothing more until there is room (R109). -/
def State.joinBlocks (s : State) (n : Nat) : Bool :=
  s.bindsFull && s.ep.gates.any fun g => g.ring == n && (descOf g.raw).opc == 7 && !s.descWaits (descOf g.raw)

/-- A descriptor of a ring may start now (R109, R118). -/
def State.canStart (s : State) (n : Nat) (d : Desc) : Bool :=
  s.mayStart n && !s.joinBlocks n && !(d.opc == 7 && (s.badDesc d).isNone && s.bindsFull)

/-! ### Rings that are ready (R120) -/

/-- What a ring's next service starts: a parked descriptor whose gate is met, oldest first (R113), or none where the front is next. -/
def State.openParked (s : State) (n : Nat) : Option Parked :=
  s.ep.gates.find? fun g => g.ring == n && (descOf g.raw).opc != 8 && !s.descWaits (descOf g.raw) && s.canStart n (descOf g.raw)

/-- A ring can start a descriptor (R120). -/
def State.ringStarts (s : State) (n : Nat) : Bool :=
  (s.openParked n).isSome || ((s.front n).any fun x =>
    s.ringRuns n && !((s.badDesc (descOf x.2)).isNone && s.descWaits (descOf x.2)) && s.canStart n (descOf x.2))

/-- A ring is ready (R120) where one of its started descriptors has a container that can be formed now, or where it can start a
descriptor. -/
def State.ringReady (s : State) (k n : Nat) : Bool :=
  s.ringStarts n || (s.ep.acts.filter fun a => a.ring == n).any fun a => s.canServe k a

/-- The rings that have something started, fetched or parked, in ring order. -/
def State.busyRings (s : State) : List Nat :=
  let l := (s.ep.acts.map fun a => a.ring) ++ (s.ep.gates.map fun g => g.ring) ++ s.ep.rings.map fun e => e.1
  (List.range 1024).filter fun n => l.contains n

/-- A ring that has a deficit left and is not ready has none (R120): its descriptors, as any shuttle finds them. -/
def State.unready (s : State) : State :=
  { s with ep := { s.ep with rings := s.ep.rings.foldl (fun m e =>
    if e.2.deficit = 0 ∨ s.ringReady 0 e.1 then m else SMap.put (fun _ => {}) m e.1 { e.2 with deficit := 0 }) s.ep.rings } }

end Sys2Proof.Machine
end

