-- ==== Sys2Proof/Machine/FaultOps.lean ====
section
/-! DEFINITION. Faults by level (R29, R247, R278, R345-R354, R399, R418-R421): fencing, resets and quarantine of units, and
a port that goes DOWN. -/

namespace Sys2Proof.Machine

open Sys2Proof

/-! ### Which channel holds an offset (R247) -/

/-- The global channel 0-127 of an offset of fabric-resident memory. -/
def chanOf (offset : Nat) : Nat :=
  let g := offset / 1024
  let h := g / 128
  (g % 128) ^^^ ((h ^^^ (h / 128) ^^^ (h / 16384)) % 128)

/-! ### Orders that a lost port calls for (R206) -/

/-- A lost uplink, spine or leaf starts the order of its class while a draft is in effect (R206). -/
def State.portOrder (s : State) (p : Nat) : State :=
  let n := 96 / s.spines
  let others (b : Nat) : Bool := (List.range n).any fun i => b + i != p && s.eligible (b + i)
  if !s.running then s
  else if s.role = 1 ∧ 96 ≤ p then
    s.classOrder (if others (96 + (p - 96) / n * n) then 3 else 4) 1 p (s.gen p)
  else if s.role = 2 then (if others (p / n * n) then s else s.classOrder 5 1 p (s.gen p))
  else s

/-! ### Units -/

/-- A fence or return is logged (R400, R421): ADDRESS the unit index, OLD its HUB.USTAT, NEW 1 for a fence and 2 for a return
(the last three DEDUCED, log 32). -/
def State.fenceLog (s : State) (i origin requester what : Nat) : State :=
  s.rpLog { time := s.now, type := 2, origin := origin, requester := requester, port := 255, skein := 0, addr := i,
            old := BitVec.ofNat 32 ((s.hubView (Reg.hubUstat i)).getD 0), new := BitVec.ofNat 32 what }

/-- A fence that no software asked for is logged with ORIGIN 6; a software fence (CAUSE 5) is logged with its writer's. -/
def State.hardFence (s : State) (i cause : Nat) : State := if cause = 5 then s else s.fenceLog i 6 0 1

/-- A port's clock modulator is held at the mid level (R266, R348), until the port trains again. -/
def State.stopClock (s : State) (p : Part) (port : Nat) : State := s.modLink p port fun l => { l with clockOff := true }

/-- PST.FENCE stops a unit's return (R399). -/
def State.holdBack (s : State) (i : Nat) : State := s.modUnits fun u => { u with heldBack := i :: u.heldBack.filter fun j => j != i }

/-- A port unit is fenced (R345, R348): it carries no traffic, and its clock stops. One that is off or fenced carries none already. -/
def State.fencePort (s : State) (n cause : Nat) : State :=
  if s.fld .ronpex (portBase n) 0 2 = 1 ∨ s.fld .ronpex (portBase n) 0 2 = 3 then s
  else
    let s1 := (((s.hardFence n cause).stopClock .ronpex n).setReg .ronpex (portBase n) (1 + 256 * cause)).setFld .ronpex (portBase n + 0xC) 0 3 0
    ((s1.satFld .ronpex (portBase n + 0x10) 0 16 1).showUnits false [n]).portOrder n

/-- A spindle is fenced (R217, R345), an internal error of its own setting SPD[n].ERR.INTERNAL (R246): its contexts are discarded, and its
work goes to a spare or an alternate (R191, R206). -/
def State.fenceSpindle (s : State) (n cause : Nat) : State :=
  if s.spFenced n || s.regionOff (spindleRegion n) then s
  else
    let s1 := ((s.hardFence (192 + n) cause).setFlag .ronpex (spindleBase n) 0 true).setUnit (192 + n) cause 0
    let s2 := s1.loseContexts n
    let s3 := (if cause = 1 then s2.spdError n 3 0 else s2).showUnits false [192 + n]
    if s3.running then s3.spindleOrder n else s3

/-- An HBM channel controller is fenced (R262, R421), which FMH.ERR.CHAN_FENCED says (R264): `c` is its global channel, and `offset` the
memory offset that is posted, 0 where no access met the fault. -/
def State.fenceChannel (s : State) (c cause offset : Nat) : State :=
  if s.flag .ronpex (Reg.fmhChfence (c / 32)) (c % 32) then s
  else ((((s.fmhError 2 offset 1 s.regionSkeins).hardFence (288 + c) cause).setFlag .ronpex (Reg.fmhChfence (c / 32)) (c % 32) true).setUnit (288 + c) cause 0).showUnits
    false [288 + c]

/-! ### A port goes DOWN (R278, R349, R350, R357) -/

/-- PORT (R390): subcode, CAUSE or reason, and wavelength. -/
def State.portEvent (s : State) (port sub cause w : Nat) : State :=
  s.postFor { time := s.now, code := 3, tenant := none, unitType := 4, unit := port, gen := s.gen (416 + port),
              arg := sub + 256 * cause + 2 ^ 16 * w } 1 (s.portSkeins port)

/-- A leaf's uplink or a spine's downlink has gone DOWN (R350). -/
def State.lossNotice (s : State) (port : Nat) : State :=
  if (s.role = 1 ∧ 96 ≤ port) ∨ s.role = 2 then s.rpPathLoss s.now else s

/-- What the keys of a port keep when it stops: none of the agreement in progress, and no key (R331, R334). -/
def LinkKeys.stopped (k : LinkKeys) : LinkKeys :=
  { k with tx := none, rx := none, fresh := none, txTag := 0, rxTag := 0, rxSlot := none, rxClean := true, rxNext := none, old := none, failed := none
           rxDone := [], bad := [], cert := [], eph := [], sig := [], own := none, sigOut := false, accepted := false, prev := []
           rekeyAt := none, starter := false, switch := none }

/-- What a port of a part keeps when it stops carrying traffic. -/
def Link.stopped (l : Link) : Link :=
  { l with step := 0, rxStep := 0, farStep := 0, identGot := false, swap := none, reval := none, again := none, weftLpi := none
           lpiExit := none, fillRun := 0, groupAt := 0, txGroup := [], checkers := [], align := 0, alignSaved := none, lost := []
           laneFails := [], laneDead := 0, pend := [], groupSaved := none, badRun := none, rxIdle := false, lmcQ := [], syncSent := none, syncGot := none, measured := none, delayBad := 0, darkAt := none, keys := l.keys.stopped }

/-- A port no longer carries traffic (R29, R349, R350, R357): a Ronpex fences its unit, a Plocen moves its work to other planes
and reports the loss. -/
def State.portGone (s : State) (p : Part) (port : Nat) : State :=
  match p with
  | .ronpex => ((s.showUnits false [416 + port]).fencePort port 2).lossNotice port
  | .plocen =>
    let s1 : State := { s with ep := { s.ep with released := s.ep.released.filter fun x => x.1 != port } }
    (((s1.resendPlane port).epPlaneOut port).report 2 (s1.ownNode .plocen) port).unready

/-- A port goes DOWN with a CAUSE (R278): its clock stops (R266), its transmitter is back at step 1, the unit is fenced, and the work moves
to other ports. A
port that is off, MISWIRED or already DOWN has nothing to lose. -/
def State.portDown (s : State) (p : Part) (port cause : Nat) : State :=
  let st := s.portState p port
  if st = 0 ∨ st = 5 ∨ st = 6 then s
  else
    let a := psBase p port
    let s1 := ((s.setFld p (a + 4) 0 3 5).setFld p (a + 4) 8 8 cause).satFld p (a + 0x7C) 16 16 1
    let s2 := (s1.setFlag p (a + 4) 5 false).modLink p port fun l =>
      { l.stopped with step := 1, clockOff := true, downAt := some s.now }
    let s3 := if p = .ronpex then s2.portEvent port 1 cause 0 else s2
    if st = 2 ∨ st = 3 then s3.portGone p port
    else match p with
      | .ronpex => (s3.showUnits false [416 + port]).fencePort port 2
      | .plocen => s3

/-- A port begins training at step 1 (R276, R278); one that is held down stays as it is (R6; DESIGN CHOICE, log 131), and one whose lane group
PST.FENCE holds fenced stays DOWN (R399). -/
def State.startTraining (s : State) (p : Part) (port : Nat) : State :=
  if s.heldDown p port then s
  else if p = .ronpex ∧ s.pstFenced (416 + port) then
    (((s.setFld p (psBase p port + 4) 0 3 5).holdBack (416 + port)).showUnits false [416 + port]).fencePort port 2
  else
  let s1 := (s.setFld p (psBase p port + 4) 0 3 1).modLink p port fun l =>
    { l.stopped with step := 1, rxStep := 1, stepAt := s.now, downAt := none, clockOff := false, lmcQ := [.state 1] }
  match p with
  | .ronpex => s1.showUnits false [416 + port]
  | .plocen => s1

/-! ### Quarantine (R352, R353, R399) -/

/-- A unit enters quarantine at step 1 (R352); one held by PST.FENCE stays fenced (R399). A lane group enters it with its port unit (log 182). -/
def State.quarantine (s : State) (i : Nat) : State :=
  if s.pstFenced i then
    let s := s.holdBack i
    if i < 192 then (s.setReg .ronpex (portBase i) (1 + 256 * s.unitCause i)).showUnits false [i]
    else if i < 288 then (s.setFlag .ronpex (spindleBase (i - 192)) 0 true).showUnits false [i]
    else if i < 416 then (s.setFlag .ronpex (Reg.fmhChfence ((i - 288) / 32)) ((i - 288) % 32) true).showUnits false [i]
    else s
  else if i < 192 then
    let s1 := (s.setFld .ronpex (portBase i) 0 2 2).setFld .ronpex (portBase i + 0xC) 0 3 1
    (s1.modUnits fun u => { u with since := SMap.put (fun _ => 0) u.since i s.now }).showUnits false [i]
  else if i < 416 then (s.setUnit i (s.unitCause i) 1).showUnits false [i]
  else s

/-- The channel controllers of a die that has returned enter quarantine once every stack has trained (R345, R352, R373). -/
def State.channelsReturn (s : State) : State :=
  if s.rp.fmem.trained ≠ 15 then s
  else
    let back := (List.range 4).filter fun d => bit d s.rp.units.channels && !s.rp.units.dies.any fun x => x.1 == d
    let s1 := s.modUnits fun u => { u with channels := back.foldl (fun m d => setBit d false m) u.channels }
    (back.flatMap fun d => (List.range 32).map (288 + 32 * d + ·)).foldl (fun t i => t.quarantine i) s1

/-- A unit that PST.FENCE held back goes on to its return once its bit is cleared (R399). -/
def State.freeUnit (s : State) (i : Nat) : State :=
  if !s.rp.units.heldBack.contains i then s
  else
    let s1 := s.modUnits fun u => { u with heldBack := u.heldBack.filter fun j => j != i }
    if i < 192 then (if s1.unitState i = 1 then s1.quarantine i else s1)
    else if i < 288 then (s1.setFlag .ronpex (spindleBase (i - 192)) 0 false).quarantine i
    else if i < 416 then (s1.setFlag .ronpex (Reg.fmhChfence ((i - 288) / 32)) ((i - 288) % 32) false).quarantine i
    else if s1.portState .ronpex (i - 416) = 5 ∧ s1.fld .ronpex (portSetBase (i - 416)) 0 2 = 1 then s1.startTraining .ronpex (i - 416)
    else s1

/-- Uncorrectable codewords and frame-tag mismatches of a port that have been counted (R273, R332). -/
def State.linkErrors (s : State) (n : Nat) : Nat := s.reg .ronpex (psBase .ronpex n + 0x78) + s.fld .ronpex (Reg.secPTagstat n) 0 16

/-- The step of a unit in quarantine advances. -/
def State.qstepTo (s : State) (i n : Nat) : State :=
  let s1 := s.modUnits fun u => { u with
    since := SMap.put (fun _ => 0) u.since i s.now, qbase := if n = 4 then SMap.put (fun _ => 0) u.qbase i (s.linkErrors i) else u.qbase }
  if i < 192 then s1.setFld .ronpex (portBase i + 0xC) 0 3 n
  else s1.modUnits fun u => { u with qstep := SMap.put (fun _ => 0) u.qstep i n }

/-- A unit that fails in quarantine is fenced again (R347). -/
def State.qFail (s : State) (i cause : Nat) : State :=
  if i < 192 then s.fencePort i cause
  else if i < 288 then s.fenceSpindle (i - 192) cause
  else if i < 416 then s.fenceChannel (i - 288) cause 0
  else (s.fencePort (i - 416) cause).portDown .ronpex (i - 416) (s.fld .ronpex (psBase .ronpex (i - 416) + 4) 8 8)

/-- Writes of a word that wait in the queue of the persistent store are made, oldest first, before the hub writes the word itself
(R398, R399). -/
def State.pstDrain (s : State) (a : Nat) : State :=
  let q := s.rp.pst.queue
  (q.filter fun e => e.1 == a).foldl (fun t e => t.pstCell e.1 e.2.toNat)
    { s with rp := { s.rp with pst := { s.rp.pst with queue := q.filter fun e => e.1 != a } } }

/-- A unit that fails step 1 three times in a row is fenced for good (R399). -/
def State.selfTestFailed (s : State) (i : Nat) : State :=
  let n := SMap.look (fun _ => 0) s.rp.units.fails i + 1
  let a := Reg.pstFence (i / 32)
  let s1 := s.modUnits fun u => { u with fails := SMap.put (fun _ => 0) u.fails i (if n = 3 then 0 else n) }
  let s2 := if n = 3 then
      let t := s1.pstDrain a
      t.pstCell a (setBit (i % 32) true (t.rp.pst.word a))
    else s1
  s2.qFail i 7

/-- A port unit comes into service (R352, R354): its warp entries stay IDLE until the next activation, and the end point is
told. -/
def State.portInService (s : State) (n : Nat) : State :=
  let s1 := (s.setFld .ronpex (portBase n) 0 2 0).setFld .ronpex (portBase n + 0xC) 0 3 0
  let s2 := (s1.modWarp fun w => { w with idle := n :: w.idle.filter fun p => p != n }).showUnits false [n]
  if s2.facesPlocen n then s2.toEndPoint n (.portRelease (s2.fld .ronpex (portSetBase n + 0x18) 0 8) (s2.gen n)) else s2

/-- Step 3 of a unit: its generation advances, and with a port unit's that of its lane group (R353; DEDUCED, log 182). -/
def State.newLife (s : State) (i : Nat) : Option State :=
  (s.genAdvance i).bind fun t => if i < 192 then t.genAdvance (416 + i) else some t

/-- A step of R352 has ended. Step 2 ends with the port trained; step 3 waits where the generation cannot be advanced; step 4 lasts 64 frames
without an uncorrectable codeword or a frame-tag mismatch. -/
def State.quarantineStep (s : State) (i : Nat) (passed : Bool) : State :=
  if 608 ≤ i ∨ !s.quarantined i then s
  else if 416 ≤ i then
    (if !passed ∧ s.unitQstep i = 1 ∧ s.quarantined (i - 416) then s.selfTestFailed i else s)
  else
    match s.unitQstep i with
    | 1 =>
      if !passed then s.selfTestFailed i
      else
        let s1 := (s.modUnits fun u => { u with fails := SMap.put (fun _ => 0) u.fails i 0 }).qstepTo i (if i < 192 then 2 else 3)
        if i < 192 ∧ s.fld .ronpex (portSetBase i) 0 2 = 1 ∧ (!s.portUp .ronpex i ∨ (s.link .ronpex i).clockOff) then s1.startTraining .ronpex i else s1
    | 2 => if !passed then s.qFail i 2 else if s.portUp .ronpex i then s.qstepTo i 3 else s
    | 3 =>
      match s.newLife i with
      | none => s
      | some s1 => if i < 192 then s1.qstepTo i 4 else (s1.qstepTo i 0).showUnits false [i]
    | 4 =>
      let begun := SMap.look (fun _ => 0) s.rp.units.since i
      if !passed ∨ SMap.look (fun _ => 0) s.rp.units.qbase i < s.linkErrors i then s.qFail i 7
      else if s.now < begun + 64 * frameNs then s
      else s.portInService i
    | _ => s

/-- The units whose RETURN may act. -/
def returnPort (i : Nat) : Nat := if 416 ≤ i then i - 416 else i

/-- RETURN of a unit (R352, R365, R421): a port unit or lane group that is fenced for a cause which needs no reset; any other
is ignored. -/
def State.returnUnit (s : State) (i : Nat) : State × Bool :=
  let n := returnPort i
  let cause := s.fld .ronpex (portBase n) 8 8
  if (192 ≤ i ∧ i < 416) ∨ 608 ≤ i ∨ s.pstFenced n ∨ s.pstFenced i ∨ s.fld .ronpex (portBase n) 0 2 ≠ 1 ∨ !([1, 2, 5, 7].contains cause) then (s, false)
  else (s.quarantine n, true)

/-- A software fence of a unit (R365, R421): of a port unit or spindle with CAUSE 0x05, of an HBM channel controller, or of a lane
group, whose port goes DOWN and keeps its CAUSE. A port unit or spindle that is off or fenced, or the package, takes none. -/
def State.softFence (s : State) (i : Nat) (wr : Writer) : State :=
  if 608 ≤ i ∨ (i < 288 ∧ (s.unitState i = 1 ∨ s.unitState i = 3)) then s
  else
    let s1 := s.fenceLog i wr.origin wr.requester 1
    if i < 192 then s1.fencePort i 5
    else if i < 288 then s1.fenceSpindle (i - 192) 5
    else if i < 416 then s1.fenceChannel (i - 288) 5 0
    else s1.portDown .ronpex (i - 416) (s.fld .ronpex (psBase .ronpex (i - 416) + 4) 8 8)

/-- A software return of a unit (R365, R421). -/
def State.softReturn (s : State) (i : Nat) (wr : Writer) : State :=
  let (s1, ok) := (s.fenceLog i wr.origin wr.requester 2).returnUnit i
  if ok then s1 else s

/-- A write of FENCE and RETURN, bits 0 and 1 of a control register (R365, R421): FENCE wins. -/
def State.unitCtl (s : State) (i v : Nat) (wr : Writer) : State :=
  if bit 0 v then s.softFence i wr else if bit 1 v then s.softReturn i wr else s

/-! ### Larger parts (R345, R346) -/

/-- The ports of cluster `k`. -/
def clusterPorts (k : Nat) : List Nat := (List.range 4).map (4 * k + ·)
/-- The ports of region `r`. -/
def regionPorts (r : Nat) : List Nat := (List.range 12).map (12 * r + ·)
/-- The clusters of region `r`. -/
def regionClusters (r : Nat) : List Nat := (List.range 3).map (3 * r + ·)
/-- The spindles of region `r`. -/
def regionSpindles (r : Nat) : List Nat := (regionClusters r).flatMap clusterSpindles

/-- The units of a part (R346, R390): those of a cluster (type 5), region (6) or die (7), else of the package. -/
def partUnits (type n : Nat) : List Nat :=
  match type with
  | 5 => clusterPorts n ++ (clusterSpindles n).map (192 + ·)
  | 6 => regionPorts n ++ (regionSpindles n).map (192 + ·)
  | 7 => (List.range 48).map (48 * n + ·) ++ (List.range 24).map (192 + 24 * n + ·) ++ (List.range 32).map (288 + 32 * n + ·)
  | _ => List.range 608

/-- The ACTIVE skeins that have a port, a spindle, a region or a route in a part (R318). -/
def State.partSkeins (s : State) (type n : Nat) : List Nat :=
  if type = 8 then s.activeSkeins else s.unitsSkeins (partUnits type n)

/-- UNIT_STATE of a cluster, region, die or the package (R346): one event for it, with a SCOPE 1 record for the skeins that it affects. -/
def State.partEventFor (s : State) (type n state cause : Nat) (skeins : List Nat) : State :=
  s.postFor { time := s.now, code := 2, tenant := none, unitType := type, unit := n, gen := 0, arg := state + 256 * cause } 1 skeins

/-- UNIT_STATE of a part, for the skeins that it affects as things stand. -/
def State.partEvent (s : State) (type n state cause : Nat) : State := s.partEventFor type n state cause (s.partSkeins type n)

/-- What the eddies and crossbar of some ports hold is lost (R345); an answer of the memory agent among it frees its entry. -/
def State.loseEddies (s : State) (l : List Nat) : State :=
  let lost := (((s.rp.cand ++ s.rp.eddy).filter fun e => l.contains e.1).flatMap fun e => e.2).filterMap fun x : EddyEnt => x.agent
  let d := lost.foldl (fun d i => d.leave (some i)) s.rp.fmem.dest
  { s with rp := { s.rp with
    fmem := { s.rp.fmem with dest := d, entries := s.rp.fmem.entries.filter fun e => d.store.any fun x => x.1 == e.1 }
    cand := s.rp.cand.filter fun e => !l.contains e.1, eddy := s.rp.eddy.filter fun e => !l.contains e.1 } }

/-- Port units and spindles fenced together, with one event for the part that holds them (R346): `type` and `k` name it. -/
def State.fenceGroup (s : State) (type k cause : Nat) (ports spindles : List Nat) : State :=
  let set (t : State) (n : Nat) : State :=
    if t.fld .ronpex (portBase n) 0 2 = 1 ∨ t.fld .ronpex (portBase n) 0 2 = 3 then t
    else
      ((((t.hardFence n cause).stopClock .ronpex n).setReg .ronpex (portBase n) (1 + 256 * cause)).setFld .ronpex (portBase n + 0xC) 0 3 0).satFld .ronpex (portBase n + 0x10) 0 16 1
  let spin (t : State) (n : Nat) : State :=
    let t1 := ((if t.spFenced n then t else t.hardFence (192 + n) cause).setFlag .ronpex (spindleBase n) 0 true).setUnit (192 + n) cause 0
    t1.loseContexts n
  let s1 := spindles.foldl spin (ports.foldl set s)
  let s2 := (s1.showUnits true (ports ++ spindles.map (192 + ·))).partEvent type k 1 cause
  let s3 := if s2.running then spindles.foldl (fun t n => if s.spFenced n then t else t.spindleOrder n) s2 else s2
  (ports.filter fun n => s.fld .ronpex (portBase n) 0 2 != 1).foldl (fun t n => t.portOrder n) s3

/-- A cluster is fenced (R345): CAUSE 0x03, and its eddies are lost. -/
def State.fenceCluster (s : State) (k : Nat) : State :=
  if s.regionOff (k / 3) then s else (s.loseEddies (clusterPorts k)).fenceGroup 5 k 3 (clusterPorts k) (clusterSpindles k)

/-- A region's registers take their reset values (R418): PRT, EDY, BUD.P and SPD of its clusters, and OPT of its engine. -/
def State.resetRegion (s : State) (r : Nat) : State :=
  let hit (a : Nat) : Bool := (regionClusters r).any fun k =>
    let o := a - clusterBase k
    decide (clusterBase k ≤ a) && (decide (o < 0x50100) || (decide (0x80000 ≤ o) && decide (o < 0xA0000)))
  let eng (a : Nat) : Bool := decide (engineBase r ≤ a) && decide (a < engineBase r + 0x100000)
  let ps := regionPorts r
  let ss := regionSpindles r
  { s with rp := { s.rp with
    regs := s.rp.regs.filter fun e => !(hit e.1 || eng e.1)
    links := s.rp.links.filter fun e => !ps.contains e.1
    spindles := s.rp.spindles.filter fun e => !ss.contains e.1
    units := { s.rp.units with qstep := s.rp.units.qstep.filter fun e => !(ss.contains (e.1 - 192) && decide (192 ≤ e.1) && decide (e.1 < 288)) } } }

/-- A region is fenced and reset (R345, R418): its units are off until the reset is done. -/
def State.resetRegionAt (s : State) (r cause : Nat) (quiet : Bool) : State :=
  let ps := regionPorts r
  let ss := regionSpindles r
  let s0 := (ps ++ ss.map (192 + ·)).foldl (fun (t : State) (i : Nat) => if t.unitState i = 1 ∨ t.unitState i = 3 then t else t.hardFence i cause) s
  let s1 := ((s0.loseEddies ps).resetRegion r).modUnits fun u => { u with regions := (u.regions.filter fun x => x.1 != r) ++ [(r, s.now)] }
  let s2 := ps.foldl (fun t n => t.setFld .ronpex (portBase n) 8 8 cause) s1
  let s3 := ss.foldl (fun t n => t.setUnit (192 + n) cause 0) s2
  let s4 := s3.showUnits true (ps ++ ps.map (416 + ·) ++ ss.map (192 + ·))
  let s5 := if quiet then s4 else s4.partEventFor 6 r 3 cause (s.partSkeins 6 r)
  let s6 := if s5.running then ss.foldl (fun t n => if s.spFenced n then t else t.spindleOrder n) s5 else s5
  (ps.filter fun n => s.fld .ronpex (portBase n) 0 2 != 1).foldl (fun t n => t.portOrder n) s6

/-- A region's reset is done (R345): its units enter quarantine. A region of a die in reset waits until the die's stack has
trained and FMH.STAT.READY is 1. -/
def State.regionBack (s : State) (r : Nat) : State :=
  let d := r / 4
  let dying := s.rp.units.dies.any fun x => x.1 == d
  if !(s.rp.units.regions.any fun x => x.1 == r) ∨ (dying ∧ s.rp.fmem.trained ≠ 15) then s
  else
    let s1 := s.modUnits fun u => { u with regions := u.regions.filter fun x => x.1 != r }
    let s2 := if dying ∧ !(s1.rp.units.regions.any fun x => x.1 / 4 == d) then
        (s1.modUnits fun u => { u with dies := u.dies.filter fun x => x.1 != d }).partEvent 7 d 0 0
      else s1
    let s2 := s2.channelsReturn
    if s2.regionOff r then s2
    else
      let s3 := (regionPorts r ++ (regionSpindles r).map (192 + ·)).foldl (fun (t : State) (i : Nat) => t.quarantine i) s2
      (s3.showUnits false ((regionPorts r).map (416 + ·))).partEvent 6 r 2 4

/-- What a die loses with its reset or its power: the bits of FMH.CHFENCE, what is kept of its channel controllers, and its stack, whose
contents read afterwards as memory that nothing has written (log 2). -/
def State.dieLost (s : State) (d : Nat) : State :=
  let own (i : Nat) : Bool := decide (288 + 32 * d ≤ i) && decide (i < 320 + 32 * d)
  let s1 := (s.setReg .ronpex (Reg.fmhChfence d) 0).modUnits fun u => { u with
    channels := setBit d true u.channels, cause := u.cause.filter fun e => !own e.1, qstep := u.qstep.filter fun e => !own e.1 }
  { s1 with
    hbm := s1.hbm.filter fun e => chanOf e.1 / 32 != d
    rp := { s1.rp with fmem := { s1.rp.fmem with trained := setBit d false s1.rp.fmem.trained
                                                 cipher := s1.rp.fmem.cipher.filter fun e => chanOf (64 * e.1) / 32 != d
                                                 bad := s1.rp.fmem.bad.filter fun b => chanOf (32 * b) / 32 != d } } }

/-- A die is fenced and reset (R345, R418): its regions, and its stack, whose contents are lost (they read as memory that
nothing has written, log 2). -/
def State.resetDie (s : State) (d cause : Nat) : State :=
  let s2 := (s.modUnits fun u => { u with dies := (u.dies.filter fun x => x.1 != d) ++ [(d, s.now)] }).dieLost d
  let s3 := (List.range 4).foldl (fun t r => t.resetRegionAt (4 * d + r) cause true) s2
  let own := (List.range 32).map (288 + 32 * d + ·)
  let s4 := (s3.showUnits true own).showUnits false (((List.range 128).map (288 + ·)).filter fun i => !own.contains i)
  s4.partEventFor 7 d 3 cause (s.partSkeins 7 d)

end Sys2Proof.Machine
end

