-- ==== Sys2Proof/Machine/Budget.lean ====
section
/-! DEFINITION. Budgets in effect (R307-R312, R320): what the master budget controller loaded at the last frame boundary. -/

namespace Sys2Proof.Machine

open Sys2Proof

/-- EDDY of a skein; values above 32 are treated as 32. -/
def State.budEddy (s : State) (k : Nat) : Nat := min (bits 16 6 (s.loaded k 0)) 32

/-- Spindle slots of a skein in a frame. -/
def State.budSpinOf (s : State) (k : Nat) : Nat := bits 0 19 (s.loaded k 1)

/-- HBM accesses of a skein in a frame, scaled (R311, R312). -/
def State.budHbmOf (s : State) (k : Nat) : Nat := s.scaledBy (bits 0 21 (s.loaded k 2))

/-- FMRX of a skein. -/
def State.budFmrx (s : State) (k : Nat) : Nat := bits 0 14 (s.loaded k 3)

/-- HBM accesses of the package in a frame (R260, R312). -/
def State.hbmCapacity (s : State) : Nat := s.scaledBy 1638400

/-- ACTIVE sealed skeins. -/
def State.sealedActive (s : State) : List Nat := s.activeSkeins.filter s.isSealed

/-- A skein whose containers share slots and entries: no ACTIVE sealed one (R313, R314). -/
def State.isShared (s : State) (k : Nat) : Bool := !(s.sealedActive.contains k)

/-- The seal-map entry that governs a slot of output `p` (R313): its owner, if an ACTIVE sealed skein owns it. -/
def State.sealOwner (s : State) (p slot : Nat) : Option Nat :=
  let n := slot % 64
  let e := bits (8 * (n % 4)) 8 (s.reg .ronpex (clusterBase (portCluster p) + 0x50000 + 0x40 * (p % 4) + n / 4 * 4))
  if bit 7 e && s.sealedActive.contains (bits 0 6 e) then some (bits 0 6 e) else none

/-- Who appears in the seal map of output `p` (R313, R315): each ACTIVE sealed skein that owns an entry, and `none` for the shared slots where
any entry acts as one. -/
def State.sealedBy (s : State) (p : Nat) : List (Option Nat) :=
  let l := (List.range 64).map (s.sealOwner p)
  (none :: s.sealedActive.map some).filter fun k => l.contains k

/-- The ACTIVE sealed skeins that own an entry of output `p`. -/
def State.sealOwners (s : State) (p : Nat) : List Nat :=
  let l := (List.range 64).filterMap (s.sealOwner p)
  s.sealedActive.filter l.contains

end Sys2Proof.Machine
end

