-- ==== Sys2Proof/Machine/FmemOps.lean ====
section
/-! DEFINITION. The memory agent of a Ronpex (R249-R264, R306, R311, R316): admission, grants, budgets, execution, errors,
replies, switch-side counters and relays. -/

namespace Sys2Proof.Machine

open Sys2Proof

/-- `s` with the agent's destination side changed. -/
def State.modFmDest (s : State) (f : Dest → Dest) : State := s.modFm fun m => { m with dest := f m.dest }

/-! ### Grants (R253-R255) -/

/-- A unit of memory grants a skein an access kind (R253, R255): 0 read, 1 write, 2 atomic. Every region that covers it is the
skein's and READY, and one has the permission. -/
def State.unitGrants (s : State) (k kind u : Nat) : Bool :=
  let l := (List.range 256).filter fun n => s.rgnCovers n u
  (l.all fun n => s.rgnSkein n == k && s.flag .ronpex (Reg.fmhRgnCtl n) 10)
    && l.any fun n => s.flag .ronpex (Reg.fmhRgnCtl n) (1 + kind)

/-- Every byte of a range is granted. -/
def State.rangeGrants (s : State) (k kind off len : Nat) : Bool :=
  (upTo (off / 2 ^ 21) ((off + len - 1) / 2 ^ 21)).all fun u => s.unitGrants k kind u

/-- A request is within its skein's grants, of the current epoch and of an opcode that the agent accepts (R172, R250, R253,
R254); while FMH.CTL.EN is 0 none is. -/
def State.fmGranted (s : State) (a : Arrival) : Bool :=
  let m := a.msg
  s.flag .ronpex Reg.fmhCtl 0 && a.epoch % 256 == s.epoch .ronpex % 256 && isRequestOpc m.opc
    && (m.opc == 2 || (decide (m.hank < 16384) && s.hcntOf a.skein m.hank))
    && (m.opc == 4 || s.rangeGrants a.skein (kindOf m.opc) m.offset m.len)

/-! ### Budgets (R260, R261, R311) -/

/-- The pieces of a range by 64-byte line. -/
def linePieces (off len : Nat) : List Nat :=
  (linesOf off len).map fun l => min (64 * l + 64) (off + len) - max (64 * l) off

/-- 64-byte accesses that a request costs (R260): a partial line costs a whole one, and a write of less than a line in
confidential mode two (by line; DEDUCED, log 23). -/
def State.fmCost (s : State) (a : Arrival) : Nat :=
  let m := a.msg
  let l := linePieces m.offset m.len
  if m.opc = 4 ∨ m.opc = 0x3E then 0
  else if m.opc = 1 ∧ s.isConf a.skein then (l.map fun n => if n < 64 then 2 else 1).sum
  else l.length

/-- HBM accesses that a skein has spent in this frame. -/
def State.spentOf (s : State) (k : Nat) : Nat := SMap.look (fun _ => 0) s.rp.fmem.spent k

/-- What the ACTIVE sealed skeins have not spent: it is kept for them (R316). -/
def State.sealedRest (s : State) : Nat := (s.sealedActive.map fun k => s.budHbmOf k - s.spentOf k).sum

/-- A request waits for its skein's budget, for capacity, for an earlier one of its skein, or for the POWER alternate (R251,
R261, R316, R369). -/
def State.fmWaits (s : State) (a : Arrival) : Bool :=
  decide (0 < s.fmCost a)
    && (s.rp.power.hbmHeld || (s.rp.fmem.waiting.any fun x => x.skein == a.skein)
      || (s.enforced && decide (s.budHbmOf a.skein ≤ s.spentOf a.skein))
      || decide (s.hbmCapacity < s.rp.fmem.total + s.fmCost a + (if s.enforced && s.isShared a.skein then s.sealedRest else 0)))

/-- A request is charged (R306, R311). -/
def State.fmCharge (s : State) (a : Arrival) : State :=
  let n := s.fmCost a
  s.modFm fun m => { m with
    spent := SMap.put (fun _ => 0) m.spent a.skein (SMap.look (fun _ => 0) m.spent a.skein + n), total := m.total + n }

/-! ### Entries and replies (R250, R252, R316) -/

/-- A message of a receive-store entry has ended. -/
def State.agentLeave (s : State) (entry : Option Nat) : State :=
  let s1 := s.modFmDest fun d => d.leave entry
  s1.modFm fun m => { m with entries := m.entries.filter fun e => m.dest.store.any fun x => x.1 == e.1 }

/-- A reply is offered at the output that its route names; one with none is discarded, and its entry released. One for the Ronpex
itself reaches it in the next slot. -/
def State.agentOffer (s : State) (c : Container) (entry : Nat) : State :=
  match s.route c.dest with
  | .unrouted => (s.logUnrouted 255 c).agentLeave (some entry)
  | .localMem => (s.goHome c).agentLeave (some entry)
  | r => match s.choosePort c (s.routePorts r) with
    | some p => s.offer p { c := c, ingress := 255, since := s.now, agent := some entry }
    | none => s.agentLeave (some entry)

/-- The answer of a request (R173, R252): it carries the request's AGE and the window of 64, and a sealed skein's is held until
BUD.SEALLAT slots after the arrival (R316). -/
def State.agentReply (s : State) (a : Arrival) (opc : Nat) (data : List Byte) : State :=
  let d := answerData a opc data
  let e : Envelope := { dest := a.src, src := s.ownNode .ronpex, skein := a.skein, epoch := s.epoch .ronpex % 256, age := a.age
                        win := 64, stream := a.stream.getD 0, sync := false }
  let c : Container := sealed { containerOf e [{ opc := opc, len := d.length, reply := true, ord := a.stream.isSome, hank := 0
                                                 seq := a.msg.seq, offset := 0, ttag := 0, data := d }] with hops := 3 }
  let entry := a.entry.getD 0
  let came := ((s.rp.fmem.entries.find? fun x => x.1 == entry).map fun x => x.2.2).getD s.now
  let at_ := came + slotNs * max (s.fld .ronpex Reg.budSeallat 0 16) 1
  if s.isSealed a.skein ∧ s.now < at_ then
    s.modFm fun m => { m with sealedRep := m.sealedRep ++ [{ at_ := at_, c := c, entry := entry }] }
  else s.agentOffer c entry

/-- The replies of sealed skeins whose time has come are sent (R316). -/
def State.sealedRelease (s : State) : State :=
  (s.rp.fmem.sealedRep.filter fun x => decide (x.at_ ≤ s.now)).foldl (fun t x => t.agentOffer x.c x.entry)
    (s.modFm fun m => { m with sealedRep := m.sealedRep.filter fun x => decide (s.now < x.at_) })

/-! ### Switch-side counters and relays (R258, R259) -/

/-- A switch-side counter. -/
def State.hcnt (s : State) (n : Nat) : Nat := SMap.look (fun _ => 0) s.rp.fmem.hcnt n

/-- STEP of a relay; 0 is treated as 1 (R264). -/
def State.relayStep (s : State) (m : Nat) : Nat := max (s.reg .ronpex (Reg.fmhRelayStep m)) 1

/-- An armed relay whose counter satisfies NEXT fires (R259): once, and NEXT moves on by whole steps. A relay whose counter lies
in no skein's range, or in a QUIESCENT skein's, sends nothing, and none does while deferrable work is held (R259, R303, R369). -/
def State.relayFire (s : State) (m : Nat) : State :=
  match SMap.find? s.rp.fmem.next m with
  | none => s
  | some next =>
    let n := s.fld .ronpex (Reg.fmhRelayCtl m) 0 14
    let v := s.hcnt n
    match s.hcntSkein n with
    | none => s
    | some k =>
      if !s.flag .ronpex (Reg.fmhRelayCtl m) 14 || !hankMet v next || s.skeinState k == 1 || s.workHeld then s
      else
        let step := s.relayStep m
        let next' := (next + step * (subMod 64 v next / step + 1)) % 2 ^ 64
        (s.modFm fun f => { f with next := SMap.set f.next m next' }).relaySend m (s.fld .ronpex (Reg.fmhRelayTgt m) 0 15)
          (s.fld .ronpex (Reg.fmhRelayTgt m) 16 16) k v

/-- A switch-side counter takes a value, and its relays are looked at. -/
def State.hcntSet (s : State) (n v : Nat) : State :=
  let s1 := s.modFm fun f => { f with hcnt := SMap.put (fun _ => 0) f.hcnt n (v % 2 ^ 64) }
  ((s.rp.fmem.next.map fun e => e.1).filter fun m => s.fld .ronpex (Reg.fmhRelayCtl m) 0 14 == n).foldl (fun t m => t.relayFire m) s1

/-! ### Errors (R262) -/

/-- A channel controller is fenced (R262). -/
def State.chanFenced (s : State) (c : Nat) : Bool := s.flag .ronpex (Reg.fmhChfence (c / 32)) (c % 32)

/-- A channel controller of a range is fenced. -/
def State.chanDead (s : State) (off len : Nat) : Bool := (burstsOf off len).any fun b => s.chanFenced (chanOf (32 * b))

/-- A channel controller of a range is in quarantine: its traffic is discarded, and logged as a violation (R352). -/
def State.chanNew (s : State) (off len : Nat) : Bool :=
  !s.rp.units.qstep.isEmpty && (burstsOf off len).any fun b => s.quarantined (288 + chanOf (32 * b))

/-- An uncorrectable error at an offset: counted, logged and posted; the sixteenth of a channel in one second fences it. -/
def State.uncorrectable (s : State) (offset : Nat) : State :=
  let c := chanOf offset
  let s1 := (s.satFld .ronpex Reg.fmhUecnt 0 32 1).rpCond 0x09 6 0 255 0 c (bits 0 32 offset) (bits 32 17 offset)
  let recent := (s.rp.fmem.ues.filter fun u => decide (s.now < u.1 + 1000000000)) ++ [(s.now, c)]
  let s2 := (s1.fmhError 1 offset 1 s1.regionSkeins).modFm fun m => { m with ues := recent }
  if 16 ≤ (recent.filter fun u => u.2 == c).length ∧ !s2.flag .ronpex (Reg.fmhChfence (c / 32)) (c % 32) then
    s2.fenceChannel c 8 offset
  else s2

/-- Corrected errors (R262). -/
def State.corrected (s : State) (n offset : Nat) : State :=
  if n = 0 then s else (s.satFld .ronpex Reg.fmhCecnt 0 32 n).fmhError 0 offset 1 s.regionSkeins

/-! ### Execution (R43, R251, R258, R306) -/

/-- A request ends unanswered (R262): its retry is served afresh. -/
def State.agentLost (s : State) (a : Arrival) : State := (s.modFmDest fun d => d.unmark a).agentLeave a.entry

/-- A request has been served: it is marked done, and answered. -/
def State.agentDone (s : State) (a : Arrival) (opc : Nat) (data : List Byte) : State :=
  (s.modFmDest fun d => d.mark a).agentReply a opc data

/-- One request message is executed, as one step with respect to every other (R251). -/
def State.agentExec (s : State) (a : Arrival) : State :=
  let m := a.msg
  let reads := m.opc == 2 || isAtomic m.opc
  let bad := (burstsOf m.offset m.len).find? fun b => s.rp.fmem.bad.contains b
  if m.opc = 0x3E then (s.rpMgmtIn { port := a.plane, node := a.src, tray := false } (mgmtOf m.data)).agentDone a 0x31 []
  else if !s.fmGranted a then
    ((s.rpLog (violBody s.now a.src a.plane a.skein m.offset m.hank)).modFmDest fun d =>
      d.keep a (List.replicate m.len 0) false s.now).agentDone a (answerOpc m.opc) (List.replicate m.len 0)
  else if m.opc ≠ 4 ∧ s.chanNew m.offset m.len then (s.rpLog (violBody s.now a.src a.plane a.skein m.offset m.hank)).agentLost a
  else if m.opc ≠ 4 ∧ s.chanDead m.offset m.len then s.agentLost a
  else if reads ∧ bad.isSome then (s.uncorrectable (32 * bad.getD 0)).agentLost a
  else if m.opc = 2 then s.agentDone a 0x30 (s.memRead m.offset m.len)
  else if m.opc = 4 then (s.hcntSet m.hank (fieldNat m.data 0 8)).agentDone a 0x31 []
  else if m.opc = 1 then
    let s1 := s.memWrite m.offset (sliceBytes m.data 0 m.len)
    (s1.hcntSet m.hank (s1.hcnt m.hank + m.len)).agentDone a 0x31 []
  else
    let old := s.memRead m.offset m.len
    let new := atomicNew (m.opc - 0x20) m.len (leNat old) (fieldNat m.data 0 m.len) (fieldNat m.data m.len m.len)
    let s1 := (s.memWrite m.offset (leBytes m.len new)).modFmDest fun d => d.keep a old false s.now
    (s1.hcntSet m.hank (s1.hcnt m.hank + m.len)).agentDone a 0x32 old

/-- A request is executed, or waits for the next frame (R261). -/
def State.agentRun (s : State) (a : Arrival) : State :=
  if s.fmWaits a then s.modFm fun m => { m with waiting := m.waiting ++ [a] } else (s.fmCharge a).agentExec a

/-- Contexts commit for as long as one can (R175). -/
def State.agentCtx : Nat → State → State
  | 0, s => s
  | n + 1, s =>
    match s.rp.fmem.dest.readyCtx with
    | some a => State.agentCtx n ((s.modFmDest fun d => d.modCtx a.src (a.stream.getD 0) fun x => { x with busy := true }).agentRun a)
    | none => s

/-- Every context commits what it can. -/
def State.agentGo (s : State) : State := s.agentCtx (s.rp.fmem.dest.ctxs.map fun x => x.held.length).sum

/-- Shadow writes that are due, served pattern by pattern from `room` accesses: what is left of each, and the accesses made (R261). -/
def serveShadows (room : Nat) : SMap Nat → SMap Nat × Nat
  | [] => ([], 0)
  | (p, n) :: rest =>
    let got := min n room
    let (l, used) := serveShadows (room - got) rest
    (if n = got then l else (p, n - got) :: l, got + used)

/-- Capacity that a frame leaves over goes to the zeroing of the first region that waits (R255, R261), unless that is held (R369). -/
def State.zeroOn (s : State) : State :=
  s.modFm fun m => { m with zeroLeft := m.zeroLeft - (if s.workHeld || s.rp.fmem.trained != 15 then 0 else s.hbmCapacity - m.total) }

/-- Relays whose counter satisfies NEXT fire: those that were held (R303, R369). -/
def State.relaysGo (s : State) : State := (s.rp.fmem.next.map fun e => e.1).foldl (fun t m => t.relayFire m) s

/-- A new frame, in the order of R261: shadow writes that are due, then what waited, sealed skeins first (R316); what the frame that
has ended left over went to zeroing. -/
def State.agentFrame (s0 : State) : State :=
  let s1 := s0.zeroOn
  let (due, made) := serveShadows s1.hbmCapacity s1.rp.fmem.shadowDue
  let s := s1.modFm fun m => { m with shadowDue := due }
  let w := s.rp.fmem.waiting
  let order := (w.filter fun a => !s.isShared a.skein) ++ w.filter fun a => s.isShared a.skein
  (order.foldl (fun t a => t.agentRun a) (s.modFm fun m => { m with spent := [], total := made, waiting := [] })).agentGo.relaysGo

/-! ### Arrivals (R170-R175, R250, R311) -/

/-- Receive-store entries that a skein holds. -/
def State.agentHeld (s : State) (k : Nat) : Nat := (s.rp.fmem.entries.filter fun e => e.2.1 == k).length

/-- Receive-store entries that the shared skeins hold together. -/
def State.sharedHeld (s : State) : Nat := (s.rp.fmem.entries.filter fun e => s.isShared e.2.1).length

/-- Entries that are free to a skein (R311). -/
def State.agentFree (s : State) (k : Nat) : Nat :=
  let all := 8192 - s.rp.fmem.dest.store.length
  if !s.enforced then all
  else
    let own := min all (s.budFmrx k - s.agentHeld k)
    if s.isShared k then min own (8192 - (s.sealedActive.map s.budFmrx).sum - s.sharedHeld) else own

/-- A container of a skein and age is admitted (R170, R311). -/
def State.agentAdmits (s : State) (k age : Nat) : Bool :=
  decide (512 < s.agentFree k) || (decide (0 < s.agentFree k) && match SMap.find? s.rp.fmem.refused k with
    | none => true
    | some r => noYounger age r)

/-- One request message of an admitted container (R171, R173-R175). -/
def State.agentMessage (s : State) (a : Arrival) : State :=
  match s.rp.fmem.dest.verdict a.src a.msg.seq a.stream with
  | .run =>
    let s1 := s.modFmDest fun d => d.begin a
    if a.stream.isSome then s1 else s1.agentRun a
  | .prog => s.agentLeave a.entry
  | .beyond b =>
    (s.rpCond (if a.stream.isSome then 0x04 else 0x03) 5 a.src a.plane a.skein (a.stream.getD 0) a.msg.seq b).agentLeave a.entry
  | .dup =>
    if a.msg.opc = 0x02 then s.agentRun { a with dup := true }
    else if isAtomic a.msg.opc then
      match (s.rp.fmem.dest.cached a).filter fun e => !e.failed with
      | some e => s.agentReply a 0x32 e.old
      | none => (s.rpCond 0x0E 5 a.src a.plane a.skein 0 a.msg.seq 0).agentLeave a.entry
    else s.agentReply a 0x31 []

/-- A container that the agent cannot take goes back (R167, R170). -/
def State.agentReflect (s : State) (port : Nat) (c : Container) : State :=
  s.reflect { c := c, ingress := port, since := s.now, agent := none } false

/-- The requests of a container reach the agent (R250). -/
def State.agentTake (s : State) (port : Nat) (c : Container) : State :=
  let ms := (containerMsgs c).filter fun m => !m.reply
  let k := c.skein
  if ms.isEmpty then s
  else if !s.agentAdmits k c.age then
    let old := SMap.find? s.rp.fmem.refused k
    ((s.modFmDest fun d => d.heard c.src s.now).modFm fun m => { m with refused := SMap.set m.refused k (match old with
      | none => c.age
      | some r => if noYounger c.age r then c.age else r) }).agentReflect port c
  else
    let clear := match SMap.find? s.rp.fmem.refused k with
      | none => false
      | some r => noYounger c.age r
    let s1 := if clear then s.modFm fun m => { m with refused := SMap.drop m.refused k } else s
    let d := s1.rp.fmem.dest.heard c.src s.now
    let atomics := (s.rp.fmem.waiting.filter fun a => isAtomic a.msg.opc && a.stream.isNone).length
    if d.noRecord c ms || d.noContext c ms 4096 || d.noCache c ms (32768 - atomics) then (s1.modFmDest fun _ => d).agentReflect port c
    else
      let d1 := (d.openRec c.src s.now ((ms.filter fun m => !m.ord).map fun m => m.seq)).openCtx c.src c.stream s.now
        ((ms.filter fun m => m.ord).map fun m => m.seq)
      let (e, d2) := d1.enter ms.length
      let s2 := (s1.modFmDest fun _ => d2).modFm fun m => { m with entries := m.entries ++ [(e, k, s.now)] }
      (ms.foldl (fun t m => t.agentMessage (arrivalOf c port (some e) m)) s2).agentGo

end Sys2Proof.Machine
end

