-- ==== Sys2Proof/Machine/Fmem.lean ====
section
/-! DEFINITION. The commands of fabric-resident memory (R250-R264, R316). -/

namespace Sys2Proof.Machine

open Sys2Proof

/-- A write of FMH.RGN_CTL (R253, R255, R264): ignored while the skein that it names, or that the region was granted to, is
ACTIVE. A region made VALID for a skein that it did not serve last is zeroed before its grant takes effect. -/
def State.regionCtl (s : State) (n v : Nat) : State :=
  let a := Reg.fmhRgnCtl n
  if s.activeTenant (bits 4 6 v) || (s.flag .ronpex a 0 && s.activeTenant (s.rgnSkein n)) then s
  else
    let same := SMap.look (fun _ => 0) s.rp.fmem.served n == bits 4 6 v + 1
    let busy := s.rp.fmem.zeroing.contains n
    let s1 := s.setReg .ronpex a (bits 0 10 v + 2 ^ 10 * ofBool (bit 0 v && same && !busy))
    if bit 0 v && !same && !busy then s1.modFm fun m => { m with
      zeroing := m.zeroing ++ [n], zeroLeft := if m.zeroing.isEmpty then s1.zeroLines n else m.zeroLeft }
    else s1

/-- Zeroing of the first region that waits ends (R255), once left-over capacity has written all of it (R261): READY is set while the
region is VALID, and SCRUB_DONE is posted. It writes nothing before every stack has trained (DEDUCED, log 158), nor while it is held (R369). -/
def State.zeroed (s : State) : State :=
  match s.rp.fmem.zeroing with
  | [] => s
  | n :: rest =>
    if s.workHeld ∨ s.rp.fmem.trained ≠ 15 ∨ (s.rp.fmem.zeroLeft ≠ 0 ∧ ¬ s.rp.fmem.zeroLeft + s.rp.fmem.total ≤ s.hbmCapacity) then s else
    let (b, z) := s.rgnUnits n
    let valid := s.flag .ronpex (Reg.fmhRgnCtl n) 0
    let k := s.rgnSkein n
    let s1 := if b + z ≤ 98304 then s.memZero (2 ^ 21 * b) (2 ^ 21 * z) else s
    let s2 := (s1.setFlag .ronpex (Reg.fmhRgnCtl n) 10 valid).modFm fun m => { m with
      zeroing := rest, zeroLeft := (rest.head?.map fun r => s1.zeroLines r).getD 0, total := m.total + m.zeroLeft
      served := if valid then SMap.put (fun _ => 0) m.served n (k + 1) else m.served }
    s2.fmhError 4 (2 ^ 21 * b) 0 (if valid && s.activeTenant k then [k] else [])

/-- A write of FMH.HGRANT is ignored while its skein is ACTIVE (R264). -/
def State.hgrantStore (s : State) (k v : Nat) : State :=
  if s.activeTenant k then s else s.setReg .ronpex (Reg.fmhHgrant k) (bits 0 14 v + 2 ^ 16 * bits 16 15 v)

/-- The ACTIVE tenant skein of a relay's counter: writes of the relay are then ignored (R259, R264). -/
def State.relayBusy (s : State) (counter : Nat) : Bool := (s.hcntSkein counter).any s.activeTenant

/-- A write of FMH.RELAY_CTL (R259): setting EN sets NEXT to the counter's value plus STEP. -/
def State.relayCtl (s : State) (m v : Nat) : State :=
  let n := bits 0 14 v
  if s.relayBusy n || s.relayBusy (s.fld .ronpex (Reg.fmhRelayCtl m) 0 14) then s
  else
    (s.setReg .ronpex (Reg.fmhRelayCtl m) (bits 0 15 v)).modFm fun f => { f with
      next := if bit 14 v then SMap.set f.next m ((s.hcnt n + s.relayStep m) % 2 ^ 64) else SMap.drop f.next m }

/-- The agent takes a container that was routed LOCAL (R250, R262): the bursts in `ue` are uncorrectable, and `ce` bursts were
corrected. -/
def execMemoryAgentRequest (port : Fin 192) (c : Container) (ce : Nat) (ue : List Nat) (s : State) : Host.Outcome State Fault Refusal :=
  .next (if s.rp.fmem.inbox.contains (port.val, c) then
    ((s.modFm fun m => { m with inbox := m.inbox.erase (port.val, c), bad := m.bad ++ ue.filter fun b => !m.bad.contains b }).corrected ce
      c.offset).agentTake port c
  else s)

/-- Held replies of sealed skeins are released (R316). -/
def execSealedReplyRelease (s : State) : Host.Outcome State Fault Refusal := .next s.sealedRelease

/-- A region is granted or withdrawn (R255). -/
def execRegionGrant (n : Fin 256) (ctl : Word) (wr : Writer) (s : State) : Host.Outcome State Fault Refusal :=
  .next (s.wrote .ronpex (Reg.fmhRgnCtl n) ctl.toNat wr fun t => t.regionCtl n ctl.toNat)

/-- Zeroing of a region ends (R255). -/
def execZeroingDone (s : State) : Host.Outcome State Fault Refusal := .next s.zeroed

/-- A relay is armed or disarmed (R259). -/
def execRelayEnable (m : Fin 4096) (ctl : Word) (wr : Writer) (s : State) : Host.Outcome State Fault Refusal :=
  .next (s.wrote .ronpex (Reg.fmhRelayCtl m) ctl.toNat wr fun t => t.relayCtl m ctl.toNat)

end Sys2Proof.Machine
end

