-- ==== Sys2Proof/Machine/RpWarpOps.lean ====
section
/-! DEFINITION. The warp plane of the Ronpex (R186-R204, R217-R219, R225-R235, R310): the uses of slots, cells on their way
through the package, accumulation contexts, emissions, tallies and phase shadows. -/

namespace Sys2Proof.Machine

open Sys2Proof

/-- A spindle of the package. -/
def State.spindle (s : State) (n : Nat) : SpindleSt := SMap.look (fun _ => {}) s.rp.spindles n

/-- `s` with a spindle changed. -/
def State.modSpindle (s : State) (n : Nat) (f : SpindleSt → SpindleSt) : State :=
  { s with rp := { s.rp with spindles := SMap.put (fun _ => {}) s.rp.spindles n (f (s.spindle n)) } }

/-- The phase to which an ingress slot of a region delivers in the image of draft slot `sl`, by the draft and not by cell headers (R195,
R199): the present phase of a spindle whose range holds the slot. An accepted image has one for each slot that delivers to a spindle (CHECK
0x0A). -/
def State.phaseAt (s : State) (sl region slot : Nat) : Option Nat :=
  (List.range 256).find? fun ph =>
    let r := s.rdPhase region sl ph
    r.members != 0 && r.kind != 0 && r.kind != 4 && decide (r.first ≤ slot) && decide (slot ≤ r.last)

/-! ### Delivery at an ingress slot (R186-R190) -/

/-- Something is on its way to a place. -/
def State.fly (s : State) (slots : Nat) (dst : FlightTo) (what : Contrib) : State :=
  s.modWarp fun w => { w with flight := w.flight ++ [{ due := s.now + slotNs * slots, dst := dst, what := what }] }

/-- A contribution to logical spindle `l` from port `p`, which follows column `c`: 3 slots on the same die, 5 from another (R190). Its phase
is that of the column's region (R185, R191). -/
def State.toSpindle (s : State) (p c l : Nat) (what : Contrib) : State :=
  let n := s.spPhys l
  match s.phaseAt s.rdSlot (c / 12) (slotOf s.now) with
  | none => s
  | some ph => s.fly (if portDie p = spindleDie n then 3 else 5) (.input n ph) what

/-- A cell goes to logical port `l`: 4 slots on the same die, 6 to another (R190). Only data goes, with DIR 1, as from the Ronpex
(R197). -/
def State.toPort (s : State) (p l : Nat) (what : Contrib) : State :=
  let q := s.portPhys l
  match what with
  | .data c => s.fly (if portDie p = portDie q then 4 else 6) (.port q) (.data (sealedCell { c with dir := true }))
  | _ => s

/-- The MOVE phase to which an ingress slot of a region belongs: the present one whose range holds the slot (R195). -/
def State.moveAt (s : State) (region slot : Nat) : Option Nat :=
  (List.range 256).find? fun ph =>
    let r := s.rdPhase region s.rdSlot ph
    r.members != 0 && r.kind == 0 && decide (r.first ≤ slot) && decide (slot ≤ r.last)

/-- A cell of a MOVE phase that is missing leaves none of the ports to which its slot goes (R203). -/
def State.movesNot (s : State) (c : Nat) (l : List Nat) (what : Contrib) : State :=
  match what, s.moveAt (c / 12) (slotOf s.now) with
  | .missing, some ph => s.tallyPorts ph (l.map s.portPhys) false
  | _, _ => s

/-- What an entry of port `p` does with what the slot brought (R186, R188, R189). -/
def State.deliverAt (s : State) (p e : Nat) (what : Contrib) : State :=
  let l := (s.portLogical p).getD p
  let rec_ := s.rdPair (l / 12) s.rdSlot (entryTarget e % 1024)
  let (act, tgt) := if entryAction e = 7 then (bits 0 3 rec_, bits 3 12 rec_) else (entryAction e, entryTarget e)
  match act with
  | 2 => (s.movesNot l [tgt % 256] what).toPort p (tgt % 256) what
  | 3 => s.toSpindle p l (tgt % 128) what
  | 4 =>
    let g := s.pkgGroup s.rdSlot (tgt % 64)
    let ports := setBitsOf 192 (bits 0 192 g)
    (setBitsOf 96 (bits 192 96 g)).foldl (fun t n => t.toSpindle p l n what)
      (ports.foldl (fun t q => t.toPort p q what) (s.movesNot l ports what))
  | _ => s

/-- Something has entered port `p` in this slot. -/
def State.hear (s : State) (p : Nat) : State := s.modWarp fun w => { w with heard := w.heard ++ [p] }

/-- A discard is logged once per port and frame (R153, R303, R304). -/
def State.logOnce (s : State) (p code : Nat) (f : State → State) : State :=
  if (s.link .ronpex p).loggedNow.contains code then s
  else f (s.modLink .ronpex p fun l => { l with loggedNow := l.loggedNow ++ [code] })

/-- A container or cell in a slot of another use is discarded and logged (R153). -/
def State.slotMismatch (s : State) (p kind src skein use : Nat) : State :=
  s.logOnce p 0x01 fun t => t.rpCond 0x01 5 src p skein (slotOf s.now) (frameOf s.now % 2 ^ 32) (kind + 16 * use)

/-- A container or cell of a QUIESCENT skein, or of another skein than its port's, is discarded and logged (R303, R304). -/
def State.skeinGate (s : State) (p kind src skein : Nat) (exempt : Bool) : Bool × State :=
  let own := s.fld .ronpex (Reg.sknPort p) 0 6
  if 0 < skein ∧ s.skeinState skein = 1 then
    (true, s.logOnce p 0x05 fun t => t.rpCond 0x05 5 src p skein 0 (frameOf s.now % 2 ^ 32) kind)
  else if s.flag .ronpex (Reg.sknPort p) 6 && skein != own && !exempt then
    (true, s.logOnce p 0x06 fun t => t.rpCond 0x06 5 src p skein own (frameOf s.now % 2 ^ 32) kind)
  else (false, s)

/-- The analysis port, while EN reads 1 (R178, R179): never while a confidential skein occupies the package. -/
def State.anaPort (s : State) (p : Nat) : Bool :=
  s.flag .ronpex Reg.xbrAnaCtl 0 && s.occupant.isNone && s.fld .ronpex Reg.xbrAnaCtl 8 8 == p

/-- A port carries traffic: it is up and its unit is in service (R275, R345). -/
def State.carries (s : State) (p : Nat) : Bool := s.portUp .ronpex p && s.fld .ronpex (portBase p) 0 2 == 0

/-- Traffic of a unit in quarantine is discarded and logged as a violation (R352). -/
def State.quarTraffic (s : State) (p src skein : Nat) : State :=
  if s.portUp .ronpex p ∧ s.fld .ronpex (portBase p) 0 2 = 2 then s.rpLog (violBody s.now src p skein 0 0) else s

/-- What a member last held, from its READY cell (R197, R204). -/
def State.noteReady (s : State) (c : WarpCell) : State :=
  match s.pkgPhase s.rdSlot c.phase with
  | none => s
  | some r =>
    if r.kind ≠ 1 ∨ c.ctrl ≠ 1 then s
    else s.modWarp fun w => { w with
      heldRounds := (w.heldRounds.filter fun h => !(h.1 == r.pattern && h.2.1 == c.node)) ++ [(r.pattern, c.node, c.inst, c.round)] }

/-- An empty container enters port `p` in a warp slot (R24, R199). -/
def State.rpEmptyIn (s : State) (p : Nat) : State :=
  if !s.carries p || s.rp.warp.heard.contains p || s.rxAt s.now p != 1 then s
  else (s.hear p).deliverAt p (s.rdAt s.now p) .empty

/-- At the end of a slot, a port in whose warp slot nothing valid came holds a missing contribution (R199). -/
def State.missingIn (s : State) : State :=
  if !s.running then s
  else
    let t := ((List.range 192).filter fun p => s.rxAt s.now p == 1 && !s.rp.warp.heard.contains p).foldl
      (fun t p => t.deliverAt p (s.rdAt s.now p) .missing) s
    t.modWarp fun w => { w with heard := [] }

/-! ### Tallies and shadows (R199, R203, R204) -/

/-- Bytes of a slice of a phase's result in a round, and the rounds its shadow holds, from the package's record (log 24). -/
def PhaseRec.shadowSlot (r : PhaseRec) : Nat := 64 + r.sliceOut

/-- A round's shadow slot: its number, and where it starts (R204). -/
def State.rpShadow (s : State) (r : PhaseRec) (inst round : Nat) : Nat × Nat :=
  let rounds := ((s.pkgPattern s.rdSlot r.pattern).map fun x => x.rounds).getD 0
  let n := (inst * rounds + round) % max r.shRounds 1
  (n, s.reg .ronpex Reg.drfShadowBase * 2 ^ 20 + r.shOff * 65536 + n * r.shadowSlot)

/-- 64-byte accesses of a write into a shadow (R260): a partial line costs a whole one, and in a confidential skein two. -/
def State.shadowCost (s : State) (skein a n : Nat) : Nat :=
  let l := linePieces a n
  if s.isConf skein then (l.map fun k => if k < 64 then 2 else 1).sum else l.length

/-- Accesses of shadow writes of a pattern are due (R261). -/
def State.shadowOwed (s : State) (pat n : Nat) : State :=
  s.modFm fun m => { m with shadowDue := SMap.put (fun _ => 0) m.shadowDue pat (SMap.look (fun _ => 0) m.shadowDue pat + n) }

/-- Bytes of a write into the shadow of a pattern's phase, charged to the frame's capacity (R260, R261): what the frame has no room for
is still due in the next one. -/
def State.shadowWrite (s : State) (pat skein a : Nat) (d : List Byte) : State :=
  let n := s.shadowCost skein a d.length
  let fits := min n (s.hbmCapacity - s.rp.fmem.total)
  ((s.memWrite a d).modFm fun m => { m with total := m.total + fits }).shadowOwed pat (n - fits)

/-- A port's end point takes part in a pattern: its column delivers a cell in the range of the pattern's READY phase (R198). -/
def State.readyPort (s : State) (p pat : Nat) : Bool :=
  match s.portLogical p, s.pkgPattern s.rdSlot pat with
  | some c, some x =>
    let r := s.rdPhase (c / 12) s.rdSlot x.ready
    s.facesPlocen p && (upTo r.first r.last).any fun n => !(s.imgSpindles s.rdSlot n c).isEmpty && s.phaseAt s.rdSlot (c / 12) n == some x.ready
  | _, _ => false

/-- A member's last READY cell reports a round as held: one of a later instance, or the round itself or a later one of its instance
(R197, R204). -/
def reportsHeld (inst round hi hr : Nat) : Bool :=
  let d := signed 16 (subMod 16 hi inst)
  decide (0 < d) || (d == 0 && decide (0 ≤ signed 16 (subMod 16 hr round)))

/-- The round that a shadow slot holds is still wanted (R204): some live member's READY cell has not reported it as held. -/
def State.shadowHeld (s : State) (r : PhaseRec) (inst round : Nat) : Bool :=
  let rounds := ((s.pkgPattern s.rdSlot r.pattern).map fun x => x.rounds).getD 0
  let this := inst * rounds + round
  let old := this - max r.shRounds 1
  decide (max r.shRounds 1 ≤ this) && (s.upPorts.any fun p => s.readyPort p r.pattern &&
    !s.rp.warp.heldRounds.any fun h => h.1 == r.pattern && h.2.1 == s.portNode p && reportsHeld (old / max rounds 1) (old % max rounds 1) h.2.2.1 h.2.2.2)

/-- The rounds of a pattern wait in this frame for shadow writes of an earlier one (R204, R261). -/
def State.shadowBehind (s : State) (pat : Nat) : Bool := s.rp.fmem.shadowLate.contains pat

/-- A round of a phase waits for its shadow slot: it is still wanted, or writes of an earlier round are due (R204, R261). -/
def State.shadowWaits (s : State) (r : PhaseRec) (inst round : Nat) : Bool :=
  r.shadow && (s.shadowHeld r inst round || s.shadowBehind r.pattern)

/-- The 64-byte tally records of the frame that has ended are written, once for each round of a phase that keeps a shadow and has not waited
for its slot (R204, R257): the delivery bitmap is whole by then. They are charged to the frame that begins, and patterns whose earlier
writes are still due wait in it (R261). -/
def State.shadowTallies (s : State) : State :=
  let s1 := s.modFm fun m => { m with shadowLate := (m.shadowDue.filter fun e => e.2 != 0).map fun e => e.1 }
  (s.rp.warp.tallies.filter fun e => e.2.frame + 1 == frameOf s.now && !e.2.unknown).foldl (fun u e =>
    match s.pkgPhase s.rdSlot e.1 with
    | none => u
    | some r =>
      let t := e.2
      if !r.shadow ∨ s.reg .ronpex Reg.drfShadowSize = 0 ∨ s.shadowWaits r t.inst t.round then u
      else
        let a := (s.rpShadow r t.inst t.round).2
        let map := maskOf (t.ports.filter fun p => !t.missed.contains p)
        (u.memWrite a (sliceBytes (leBytes 2 t.status ++ leBytes 2 t.inst ++ leBytes 4 t.round ++ leBytes 24 map) 0 64)).shadowOwed
          r.pattern (s.shadowCost t.skein a 64)) s1

/-- A result cell with STATUS OK goes into its round's shadow (R204). -/
def State.shadowCell (s : State) (c : WarpCell) : State :=
  match s.pkgPhase s.rdSlot c.phase with
  | none => s
  | some r =>
    if !r.shadow ∨ s.reg .ronpex Reg.drfShadowSize = 0 ∨ c.status ≠ 0 then s
    else
      let n := fmtBytes r.fout
      s.shadowWrite r.pattern c.skein ((s.rpShadow r c.inst c.round).2 + 64 + c.cell * n) (sliceBytes c.payload 0 (min n (r.sliceOut - c.cell * n)))

/-- A data cell of a MOVE phase is its own result (R203, R204): its round's tally is OK, and it goes into the shadow. Where the round waits
for its shadow slot, it goes on with STATUS REPLAY and no payload, and the round runs again (R204; DEDUCED, log 26). -/
def State.moveTally (s : State) (c : WarpCell) : State × WarpCell :=
  match s.pkgPhase s.rdSlot c.phase with
  | none => (s, c)
  | some r =>
    if r.kind ≠ 0 ∨ c.ctrl ≠ 0 then (s, c)
    else if s.shadowWaits r c.inst c.round then
      (s.addTally c.phase 1 c.inst c.round c.skein, { c with status := 1, payload := List.replicate 768 0 })
    else ((s.addTally c.phase 0 c.inst c.round c.skein).shadowCell c, c)

/-- The skein that a slot of a port expects (R197): the port's own; where the port leads to another package, the skeins that the slot's
entry leads to, and any where the draft names none (DESIGN CHOICE, log 141). -/
def State.expectsSkein (s : State) (p k : Nat) : Bool :=
  match s.ownSkein p with
  | some x => x == k
  | none =>
    let l := (s.portLogical p).toList.flatMap fun c => s.slotWarp (slotOf s.now) c
    l.isEmpty || l.contains k

/-- A warp cell enters port `p` (R153, R186, R197): one that is discarded leaves the slot without a contribution. -/
def State.rpWarpIn (s : State) (p : Nat) (c : WarpCell) : State :=
  let use := s.rxAt s.now p
  if !s.carries p then s.quarTraffic p c.node c.skein
  else if s.rp.warp.heard.contains p || use == 3 || c.crc != cellCrc c then s
  else if use ≠ 1 then if use = 0 then s.slotMismatch p 3 c.node c.skein 0 else s
  else
    let (gone, s1) := s.skeinGate p 3 c.node c.skein false
    if gone || c.epoch != s.epoch .ronpex % 256 || !s.expectsSkein p c.skein then s1
    else
      let (s2, d) := ((s1.hear p).noteReady c).moveTally c
      s2.deliverAt p (s.rdAt s.now p) (.data d)

/-! ### Accumulation contexts (R199, R217-R219, R225, R233, R234) -/

/-- A context before its first contribution. -/
def newCtx (ph : Nat) : AccCtx :=
  { phase := ph, inputs := 0, empties := 0, missing := 0, count := 0, agree := true, head := none, node := 2 ^ 15, opdata := 0
    lowRound := 0, kept := [], elems := List.replicate 768 Elem.zero, emitAt := none, status := 0, out := [] }

/-- Anchor codes that a cell uses: those from its first block on, and where its first element lies in that block. -/
def State.cellAnchors (s : State) (n fmt cell : Nat) : List Nat × Nat :=
  let e := cell * fmtElems fmt
  ((List.range 25).map fun i => SMap.look (fun _ => 0) (s.spindle n).anchors (e / 32 + i), e % 32)

/-- A data contribution joins its context (R199, R225). READY cells need not agree: each names what its sender holds. A TOPK merges every
contribution by the K and LISTS of the lowest NODE's OPDATA; a cell of a package's node is a leaf's partial. -/
def AccCtx.join (x : AccCtx) (r : PhaseRec) (anchors : List Nat) (base : Nat) (c : WarpCell) : AccCtx :=
  let first := x.head.isNone
  let od := if first || decide (c.node < x.node) then c.opdata else x.opdata
  let same := match x.head with
    | none => true
    | some h => h.inst == c.inst && h.round == c.round && h.slice == c.slice && h.cell == c.cell
  { x with
    count := x.count + 1
    agree := x.agree && (same || r.kind == 1)
    head := some (x.head.getD { c with payload := [] })
    node := min x.node c.node
    opdata := od
    lowRound := if first then c.round else min x.lowRound c.round
    kept := if r.op = 0x07 then x.kept ++ [sliceBytes c.payload 0 768] else x.kept
    elems :=
      if r.op = 0x07 then
        ((x.kept ++ [sliceBytes c.payload 0 768]).foldl (fun (a : Bool × List Elem) d => (false, accumulate r.red a.1 anchors base od a.2 d))
          (true, x.elems)).2
      else accumulate r.red first anchors base od x.elems (sliceBytes c.payload 0 768) (decide (0x6000 ≤ c.node)) }

/-- The status of a complete group (R199), by the first case of its table that applies: none where no data came; VOID where some
contributions are empty and the rest data; REPLAY where one is missing or not in agreement; else OK. -/
def AccCtx.verdict (x : AccCtx) : Option Nat :=
  if x.count = 0 then none
  else if x.missing = 0 ∧ 0 < x.empties then some 2
  else if 0 < x.missing ∨ !x.agree then some 1
  else some 0

/-- Element 0 of a context, as int32. -/
def AccCtx.first32 (x : AccCtx) : Nat := ((x.elems.map fun e => e.acc.toNat % 2 ^ 32).headD 0)

/-- The CTRL, STATUS and INST of a group's result (R198, R199, R211): the sums of READY and CHECK phases are compared with
the pattern's MEMBERS; a leaf passes its sum on (DEDUCED, log 25). -/
def State.resultHead (s : State) (r : PhaseRec) (x : AccCtx) (status : Nat) : Nat × Nat × Nat :=
  let pat := s.pkgPattern s.rdSlot r.pattern
  let all := status == 0 && (pat.any fun p => p.members == x.first32)
  let inst := ((x.head.map fun h => h.inst).getD 0)
  if r.kind = 1 then
    if all then (2, 0, SMap.look (fun _ => 0) s.rp.warp.inst r.pattern) else (0, status, inst)
  else if r.kind = 5 then (3, if status = 0 ∧ !all ∧ s.role ≠ 1 then 1 else status, inst)
  else (0, status, inst)

/-- The output cells of a complete group (R219, R225): `n` is the spindle. -/
def State.resultCells (s : State) (n : Nat) (r : PhaseRec) (x : AccCtx) (status : Nat) : List WarpCell :=
  match x.head with
  | none => []
  | some h =>
    let (ctrl, st, inst) := s.resultHead r x status
    let per := fmtElems r.fout
    let k := (fmtElems r.fin + per - 1) / per
    let (anchors, base) := s.cellAnchors n r.fin h.cell
    let seed := s.reg .ronpex (Reg.spdSeedLo h.skein) + 2 ^ 32 * s.reg .ronpex (Reg.spdSeedHi h.skein)
    let index := bits 32 40 x.opdata
    let pays := if st = 0 ∨ r.kind = 5 ∧ status = 0 then
        emitPayloads r.red (fmtElems r.fin) anchors base seed (bits 0 32 x.opdata) index x.elems
      else []
    (List.range k).map fun i =>
      let od := if r.red.floats then
          bits 0 32 x.opdata + 2 ^ 32 * ((index + i * per) % 2 ^ 40)
        else x.opdata
      sealedCell { dir := true, ctrl := ctrl, node := s.ownNode .ronpex, skein := h.skein, epoch := s.epoch .ronpex % 256
                   phase := x.phase, draft := s.rdSlot, inst := inst, round := if st = 1 then x.lowRound else h.round
                   cell := (h.cell * k + i) % 2 ^ 16, slice := h.slice, status := st, count := x.count % 2 ^ 14, opdata := od, crc := 0
                   payload := sliceBytes (pays.getD i []) 0 768 }

/-- A group of a spindle is complete: its result leaves 4 slots after this input (R190), and its status joins the tally. A
shadow slot that is still wanted makes the round run again (R204; DEDUCED, log 26). -/
def State.closeGroup (s : State) (n : Nat) (r : PhaseRec) (x : AccCtx) : State :=
  let others := (s.spindle n).ctxs.filter fun y => !(y.phase == x.phase && y.emitAt.isNone)
  match x.verdict with
  | none =>
    let s1 := s.modSpindle n fun p => { p with ctxs := others }
    if 0 < x.missing then s1.loseGroup n r x.phase else s1
  | some v =>
    let h := x.head.getD { dir := false, ctrl := 0, node := 0, skein := 0, epoch := 0, phase := 0, draft := 0, inst := 0, round := 0
                           cell := 0, slice := 0, status := 0, count := 0, opdata := 0, crc := 0, payload := [] }
    let v := if v = 0 ∧ s.shadowWaits r h.inst h.round then 1 else v
    let out := s.resultCells n r x v
    let st := (s.resultHead r x v).2.1
    let go := (s.resultHead r x v).1 == 2
    let s1 := s.modSpindle n fun p => { p with
      ctxs := others ++ [{ x with status := st, elems := [], out := out, emitAt := some (s.now + slotNs * 4) }] }
    let s2 := if go then s1.modWarp fun w => { w with
        inst := SMap.put (fun _ => 0) w.inst r.pattern ((SMap.look (fun _ => 0) w.inst r.pattern + 1) % 2 ^ 16) } else s1
    if r.kind = 1 then s2 else s2.addTally x.phase st h.inst (if st = 1 then x.lowRound else h.round) h.skein

/-- What a slot's input is after the spindle budget of its skein (R310): a discarded cell is missing, and posted once per
skein and frame. -/
def State.spinBudget (s : State) (n : Nat) (what : Contrib) : Contrib × State :=
  match what with
  | .data c =>
    let k := c.skein
    let used := SMap.look (fun _ => 0) s.rp.skeins.spin k
    if s.enforced && decide (s.budSpinOf k ≤ used) then
      if s.rp.skeins.spinPosted.contains k then (.missing, s)
      else
        (.missing, ({ s with rp := { s.rp with skeins := { s.rp.skeins with spinPosted := s.rp.skeins.spinPosted ++ [k] } } }).postFor
          { time := s.now, code := 0x12, tenant := none, unitType := 2, unit := n, gen := s.gen (192 + n), arg := 256 * k } 0
          (if s.activeTenant k then [k] else []))
    else
      (what, { s with rp := { s.rp with skeins := { s.rp.skeins with spin := SMap.put (fun _ => 0) s.rp.skeins.spin k (used + 1) } } })
  | w => (w, s)

/-- A result of a leaf that comes up with STATUS REPLAY or VOID counts as missing or empty (DEDUCED, log 25). -/
def Contrib.settled : Contrib → Contrib
  | .data c => if c.status = 1 then .missing else if c.status = 2 then .empty else .data c
  | w => w

/-- A cell that reaches a spindle in quarantine is logged as a violation (R352). -/
def State.spindleTraffic (s : State) (n : Nat) : Contrib → State
  | .data c => if s.unitState (192 + n) = 2 then s.rpLog (violBody s.now c.node 255 c.skein 0 0) else s
  | _ => s

/-- One input slot of a spindle (R199, R217, R218). A spindle that is not in service takes no cell: its groups lack what came (R345,
R352). -/
def State.spindleIn (s : State) (n ph : Nat) (what : Contrib) : State :=
  match s.pkgPhase s.rdSlot ph with
  | none => s
  | some r =>
    let (w0, s1) : Contrib × State :=
      if s.spOut n then (match what with
        | .data _ => .missing
        | w => w, s.spindleTraffic n what)
      else s.spinBudget n what
    let x := (((s1.spindle n).ctxs.find? fun y => y.phase == ph && y.emitAt.isNone)).getD (newCtx ph)
    let inUse := ((s1.spindle n).ctxs.filter fun y => y.head.isSome).length
    let (w, s2) := match w0.settled with
      | .data c =>
        if x.head.isNone ∧ 4 ≤ inUse then (Contrib.missing, s1.spdError n 0 c.skein) else (Contrib.data c, s1)
      | w => (w, s1)
    let (x1, s3) := match w with
      | .data c =>
        let (anchors, base) := s2.cellAnchors n r.fin c.cell
        let t := if x.head.isSome ∧ c.opdata ≠ x.opdata then s2.spdError n 1 c.skein else s2
        let u := if beyondAnchor r.red anchors base (sliceBytes c.payload 0 768) then t.spdError n 2 c.skein else t
        (x.join r anchors base c, u)
      | .empty => ({ x with empties := x.empties + 1 }, s2)
      | .missing => ({ x with missing := x.missing + 1 }, s2)
    let x2 := { x1 with inputs := x1.inputs + 1 }
    if r.members ≤ x2.inputs then s3.closeGroup n r x2
    else s3.modSpindle n fun p => { p with ctxs := (p.ctxs.filter fun y => !(y.phase == ph && y.emitAt.isNone)) ++ [x2] }

/-! ### Emission (R187, R189, R190, R219, R233, R241) -/

/-- A cell emitted by spindle `n` is on its way to every port that carries its emission, and to the anchor stores of its
phase's SP_GROUP. -/
def State.emitCell (s : State) (n : Nat) (c : WarpCell) : State :=
  let s1 := ((s.emitPorts n 0).foldl (fun t p => t.fly p.2 (.port p.1) (.data c)) s).shadowCell c
  match (s.spLogical n).bind fun _ => s1.pkgPhase s1.rdSlot c.phase with
  | none => s1
  | some r =>
    if r.spGroup = 255 then s1
    else
      (setBitsOf 96 (bits 192 96 (s1.pkgGroup s1.rdSlot (r.spGroup % 64)))).foldl (fun t m =>
        let q := t.spPhys m
        t.fly (if spindleDie q = spindleDie n then 2 else 4) (.anchors q) (.data c)) s1

/-- A spindle emits at most one cell in a slot (R219): the one that is due, of the context that was complete first. -/
def State.spindleEmit (s : State) (n : Nat) : State :=
  match (s.spindle n).ctxs.find? fun x => x.emitAt.any fun t => decide (t ≤ s.now) with
  | none => s
  | some x =>
    let rest := x.out.drop 1
    let keep (y : AccCtx) : Option AccCtx :=
      if y == x then (if rest.isEmpty then none else some { x with out := rest, emitAt := some (s.now + slotNs) }) else some y
    let s1 := s.modSpindle n fun p => { p with ctxs := p.ctxs.filterMap keep }
    match x.out.head? with
    | none => s1
    | some c => s1.emitCell n c

/-- A cell reaches an anchor store (R189, R233, R241): one code a byte, from byte 768 x CELL on; 16 KiB in all. -/
def State.anchorsIn (s : State) (n : Nat) (c : WarpCell) : State :=
  if c.status ≠ 0 ∨ s.spOut n then s
  else s.modSpindle n fun p => { p with
    anchors := ((sliceBytes c.payload 0 768).zipIdx.filter fun x => decide (768 * c.cell + x.2 < 16384)).foldl
      (fun (m : SMap Nat) (x : Byte × Nat) => SMap.put (fun _ => 0) m (768 * c.cell + x.2) x.1.toNat) p.anchors }

/-- What reaches a spindle's input or anchor store in this slot. -/
def State.flightsLand (s : State) : State :=
  (s.rp.warp.flight.filter fun f => decide (f.due ≤ s.now)).foldl (fun t f =>
    match f.dst, f.what with
    | .input n ph, w => t.spindleIn n ph w
    | .anchors n, .data c => t.anchorsIn n c
    | _, _ => t) s

/-- The cell that the crossbar or a spindle brings to port `p` in this slot (R187). -/
def State.cellFor (s : State) (p : Nat) : Option WarpCell :=
  s.rp.warp.flight.findSome? fun f => if f.due = s.now ∧ f.dst = .port p then (match f.what with | .data c => some c | _ => none) else none

/-- Whether a result cell of a round left port `p` joins the tally's delivery bitmap (R203): a round runs within its frame (R184). -/
def State.delivered (s : State) (p : Nat) (c : WarpCell) (ok : Bool) : State :=
  if c.ctrl = 1 ∨ c.ctrl = 2 ∨ (s.pkgPhase s.rdSlot c.phase).any (fun r => r.kind == 1) then s else s.tallyPorts c.phase [p] ok

/-- What has landed or left is forgotten. -/
def State.flightsDone (s : State) : State := s.modWarp fun w => { w with flight := w.flight.filter fun f => decide (s.now < f.due) }

end Sys2Proof.Machine
end

