-- ==== Sys2Proof/Machine/Draft.lean ====
section
/-! DEFINITION. The load checks of a draft image (R27, R184-R192, R199, R210, R233, R257, R315), and the activation of a draft
at the Ronpex (R214, R347, R450). -/

namespace Sys2Proof.Machine

open Sys2Proof

/-! ### Where and when an image's cells go (R190) -/

/-- Delays of R190, by die. -/
def portDelay (p q : Nat) : Nat := if portDie p = portDie q then 4 else 6
/-- Ingress to spindle input. -/
def inDelay (p l : Nat) : Nat := if portDie p = l / 24 then 3 else 5
/-- Emission to egress. -/
def outDelay (l p : Nat) : Nat := if portDie p = l / 24 then 3 else 5
/-- Emission to another spindle's anchor store. -/
def anchorDelay (l m : Nat) : Nat := if l / 24 = m / 24 then 2 else 4

/-- Ports whose cell reaches logical port `q` in slot `t`. -/
def State.imgArrive (s : State) (slot t q : Nat) : Nat :=
  (allPorts.filter fun p => decide (portDelay p q ≤ t) && (s.imgPorts slot (t - portDelay p q) p).contains q).length

/-- Cells that reach logical spindle `l` in slot `t`, of ingress slots `a` to `b`, from ports of the regions that `here` names. -/
def State.imgInput (s : State) (slot t l a b : Nat) (here : Nat → Bool) : Nat :=
  (allPorts.filter fun p => here (p / 12) && decide (inDelay p l ≤ t) && decide (a ≤ t - inDelay p l) && decide (t - inDelay p l ≤ b)
    && (s.imgSpindles slot (t - inDelay p l) p).contains l).length

/-- Phases of the package that spindles serve: present, and neither MOVE nor SKY. -/
def State.imgPhases (s : State) (slot : Nat) : List (Nat × PhaseRec) :=
  (List.range 256).filterMap fun ph => ((s.pkgPhase slot ph).filter fun r => r.kind != 0 && r.kind != 4).map fun r => (ph, r)

/-- Input slots of a phase on a spindle, in slot order (R199): those of columns whose region holds the phase (R185). -/
def State.imgInputs (s : State) (slot l ph : Nat) (r : PhaseRec) : List Nat :=
  allSlots.filter fun t => s.imgInput slot t l r.first r.last (fun g => (s.rdPhase g slot ph).members != 0) != 0

/-- Emission slots of a phase on a spindle: output cells leave one slot after another (R190, R219). -/
def State.imgEmits (s : State) (slot l ph : Nat) (r : PhaseRec) : List Nat :=
  let ins := s.imgInputs slot l ph r
  let k := (fmtElems r.fin + fmtElems r.fout - 1) / fmtElems r.fout
  (List.range (ins.length / max r.members 1)).flatMap fun g =>
    (List.range k).map fun i => ins.getD (max r.members 1 * (g + 1) - 1) 0 + 4 + i

/-! ### The conditions of R192 -/

/-- The longest run of slots in which `given` is false, over one frame and the next, which repeats it; a slot in which `free` holds
ends a run (R27). -/
def longestRun (given free : Nat → Bool) : Nat :=
  ((allSlots ++ allSlots).foldl (fun (a : Nat × Nat) n => if free n || given n then (max a.1 a.2, 0) else (a.1, a.2 + 1)) (0, 0)) |> fun a => max a.1 a.2

/-- A slot of a port lies in a sky run or the 500 slots before or after it (R210). -/
def State.skyWindow (s : State) (slot n p : Nat) : Bool :=
  (List.range 1001).any fun d => decide (500 ≤ n + d) && decide (n + d - 500 < frameSlots)
    && entryAction (s.rdEntry slot (n + d - 500) p) == 6

/-- The weft floor and the seal floor of a live port (R27, R315). -/
def State.breaksFloor (s : State) (slot p : Nat) : Bool :=
  let l := (s.portLogical p).getD p
  let tx (n : Nat) : Bool := txUse (s.rdEntry slot n l) == 0
  let rx (n : Nat) : Bool := rxUse (s.rdEntry slot n l) == 0
  let sky (n : Nat) : Bool := s.skyWindow slot n l
  let floor (g : Nat → Bool) : Bool := decide (64 < longestRun g sky) || decide ((allSlots.filter g).length < 256)
  let seals := (s.sealedBy p).any fun k => decide (64 ≤ longestRun (fun n => tx n && s.sealOwner p n == k) sky)
  floor tx || floor rx || seals

/-- CHECK 0x01. A live port is one whose link is UP or in LPI, whatever the state of its unit (DESIGN CHOICE, log 178). -/
def State.check01 (s : State) (slot : Nat) : Bool := s.upPorts.any fun p => s.breaksFloor slot p

/-- CHECK 0x02: two cells reach one transmit slot. -/
def State.check02 (s : State) (slot : Nat) : Bool :=
  allPorts.any fun q => allSlots.any fun t =>
    let n := s.imgArrive slot t q
    let spout := (s.imgSpout slot t q).isSome
    decide (1 < n) || (spout && decide (0 < n))

/-- CHECK 0x03: a cell for which there is no transmit side or group. -/
def State.check03 (s : State) (slot : Nat) : Bool :=
  (allPorts.any fun p => allSlots.any fun n => (s.imgPorts slot n p).any fun q =>
    decide (n + portDelay p q < frameSlots) && decide (q < 192) && txUse (s.rdEntry slot (n + portDelay p q) q) != 1)
  || (s.imgPhases slot).any fun x => (List.range 96).any fun l => (s.imgEmits slot l x.1 x.2).any fun e =>
      x.2.spGroup == 255 && !(allPorts.any fun q => decide (e + outDelay l q < frameSlots) && s.imgSpout slot (e + outDelay l q) q == some l)

/-- CHECK 0x04: two cells reach one spindle input in one slot. -/
def State.check04 (s : State) (slot : Nat) : Bool :=
  (List.range 96).any fun l => allSlots.any fun t => decide (1 < s.imgInput slot t l 0 4095 fun _ => true)

/-- Every logical spindle that an image names. -/
def State.imgNamed (s : State) (slot : Nat) : List Nat :=
  (allPorts.flatMap fun p => allSlots.flatMap fun n => s.imgSpindles slot n p ++ (s.imgSpout slot n p).toList)
    ++ (s.imgPhases slot).flatMap fun x =>
      if x.2.spGroup = 255 then [] else setBitsOf 96 (bits 192 96 (s.pkgGroup slot (x.2.spGroup % 64)))

/-- CHECK 0x05: a spare is named, or a spindle that maps to a fenced one, or to one that no draft uses since it is in quarantine or off
(R352). -/
def State.check05 (s : State) (slot : Nat) : Bool :=
  (s.imgNamed slot).any fun l => decide (96 ≤ l) || decide (21 < l % 24) || s.spOut (s.spPhys l)

/-- CHECK 0x06: the sky rules of R210. -/
def State.check06 (s : State) (slot : Nat) : Bool :=
  let act (n p : Nat) : Nat := entryAction (s.rdEntry slot n p)
  allPorts.any fun p => allSlots.any fun n =>
    act n p == 6 && (
      let q := p / 12 * 12 + entryTarget (s.rdEntry slot n p) % 16
      let e := s.rdEntry slot n q
      decide (q / 12 ≠ p / 12) || entryAction e != 6 || entryTarget e % 16 != p % 12
        || ((n == 0 || act (n - 1) p != 6) && (decide (n < 500) || (List.range 500).any fun d => act (n - 1 - d) p != 0))
        || (act (n + 1) p != 6 && (decide (frameSlots ≤ n + 500) || (List.range 500).any fun d => act (n + 1 + d) p != 0)))

/-- The compiled link delays of a column, IN and OUT, in slots (R185). -/
def State.imgDelays (s : State) (slot p : Nat) : Nat × Nat :=
  (s.rdHeader (p / 12) slot (16 + 2 * (p % 12)), s.rdHeader (p / 12) slot (17 + 2 * (p % 12)))

/-- A cell of column `p` is sent, or received, in another frame than its slot `n` at the Ronpex (R184). -/
def State.linkCrosses (s : State) (slot n p : Nat) : Bool :=
  let e := s.rdEntry slot n p
  (rxUse e == 1 && decide (n < (s.imgDelays slot p).1)) || (txUse e == 1 && decide (frameSlots ≤ n + (s.imgDelays slot p).2))

/-- CHECK 0x07: a cell would cross a frame boundary (R184), on a link, in the crossbar, in a spindle or toward an anchor store, or a
phase's slot range does. -/
def State.check07 (s : State) (slot : Nat) : Bool :=
  (allPorts.any fun p => allSlots.any fun n =>
    s.linkCrosses slot n p
      || ((s.imgPorts slot n p).any fun q => decide (frameSlots ≤ n + portDelay p q))
      || (s.imgSpindles slot n p).any fun l => decide (frameSlots ≤ n + inDelay p l))
  || (s.imgPhases slot).any fun x => (List.range 96).any fun l => (s.imgEmits slot l x.1 x.2).any fun e =>
      decide (frameSlots ≤ e)
        || (allPorts.any fun q => decide (frameSlots ≤ e + outDelay l q) && s.imgSpout slot ((e + outDelay l q) % frameSlots) q == some l)
        || (x.2.spGroup != 255
        && (setBitsOf 96 (bits 192 96 (s.pkgGroup slot (x.2.spGroup % 64)))).any fun m => decide (frameSlots ≤ e + anchorDelay l m))
  || (List.range 256).any fun ph => ((s.pkgPhase slot ph).map fun r => decide (frameSlots ≤ r.last)).getD false

/-- An entry of the draft in effect: WEFT while there is none. -/
def State.curEntry (s : State) (n p : Nat) : Nat := if s.running then s.rdEntry s.rdSlot n p else 0x2000

/-- A record of a region as one number. -/
def State.recordAt (s : State) (g slot off words : Nat) : Nat :=
  (List.range words).foldl (fun v k => v + 2 ^ (32 * k) * s.rdWord g slot (off + 4 * k)) 0

/-- What an image says of a column in a slot: the entry, the pair and group records that it names, and for a slot that is warp or sky the
phases of its region whose range holds it, each with its record, its pattern's, and its SP_GROUP's. -/
def State.entryImage (s : State) (slot n p : Nat) : Nat × Nat × Nat × List (Nat × Nat × Nat × Nat) :=
  let e := s.rdEntry slot n p
  let g := p / 12
  let rx := s.imgRx slot p e
  let phases := if rxUse e = 1 ∨ txUse e = 1 ∨ rxUse e = 3 then
      (List.range 256).filter fun ph =>
        let r := s.rdPhase g slot ph
        r.members != 0 && decide (r.first ≤ n) && decide (n ≤ r.last)
    else []
  (e, if entryAction e = 7 then s.rdPair g slot (entryTarget e % 1024) else 0, if rx.1 = 4 then s.rdGroup g slot (rx.2 % 64) else 0,
    phases.map fun ph =>
      let r := s.rdPhase g slot ph
      (ph, s.recordAt g slot (0x1A000 + 32 * ph) 8, s.recordAt g slot (0x1C000 + 32 * (r.pattern % 64)) 8,
        if r.spGroup = 255 then 0 else s.rdGroup g slot (r.spGroup % 64)))

/-- The same for the draft in effect. -/
def State.curImage (s : State) (n p : Nat) : Nat × Nat × Nat × List (Nat × Nat × Nat × Nat) :=
  if s.running then s.entryImage s.rdSlot n p else (0x2000, 0, 0, [])

/-- Columns that ports of an ACTIVE skein follow: those that a draft must not change (R191, R192, R214, R450). -/
def State.busyPorts (s : State) : List Nat :=
  (allPorts.filter fun p => s.activeTenant (s.fld .ronpex (Reg.sknPort p) 0 6)).filterMap s.portLogical

/-- CHECK 0x08: a column or spindle of a skein that is not quiescent differs from the draft in effect. -/
def State.check08 (s : State) (slot : Nat) : Bool :=
  let busy := s.busyPorts
  let names (sl n p l : Nat) : Bool := (s.imgSpindles sl n p).contains l || s.imgSpout sl n p == some l
  let used := (busy.flatMap fun p => allSlots.flatMap fun n => s.imgSpindles slot n p ++ (s.imgSpout slot n p).toList).dedup
  (busy.any fun p => allSlots.any fun n => s.entryImage slot n p != s.curImage n p)
    || used.any fun l => allPorts.any fun q => allSlots.any fun n =>
      (names slot n q l || (s.running && names s.rdSlot n q l)) && s.entryImage slot n q != s.curImage n q

/-- CHECK 0x09: a compiled link delay differs from the measured one. -/
def State.check09 (s : State) (slot : Nat) : Bool :=
  allPorts.any fun p =>
    s.imgDelays slot p != (s.fld .ronpex (Reg.drfLdly (s.portPhys p)) 0 8, s.fld .ronpex (Reg.drfLdly (s.portPhys p)) 8 8)

/-- An entry is malformed (R186): TXW or a TARGET bit that must be zero, or an index to an absent record. -/
def State.badEntry (s : State) (slot p e : Nat) : Bool :=
  let t := entryTarget e
  let noGroup (g : Nat) : Bool := decide (63 < g) || s.rdGroup (p / 12) slot g == 0
  let r := s.rdPair (p / 12) slot (t % 1024)
  match entryAction e with
  | 0 => entryTxw e || t != 0
  | 1 => t != 0
  | 2 => decide (191 < t)
  | 3 => decide (95 < t)
  | 4 => noGroup t
  | 5 => entryTxw e || decide (95 < t)
  | 6 => entryTxw e || decide (11 < t)
  | _ => entryTxw e || decide (1023 < t) || bits 22 10 r != 0 || decide (95 < bits 15 7 r) || (match bits 0 3 r with
      | 2 => decide (191 < bits 3 12 r)
      | 3 => decide (95 < bits 3 12 r)
      | 4 => noGroup (bits 3 12 r)
      | _ => true)

/-- A phase record of a region is malformed (R192, R195, R224, R233, R257). -/
def State.badPhase (s : State) (slot g ph : Nat) : Bool :=
  let r := s.rdPhase g slot ph
  let size := s.reg .ronpex Reg.drfShadowSize * 2 ^ 20
  r.members != 0 && (r.rsv != 0 || decide (5 < r.kind) || decide (63 < r.pattern) || (s.rdPattern g slot r.pattern).members == 0
    || (r.spGroup != 255 && (decide (63 < r.spGroup) || s.rdGroup g slot r.spGroup == 0))
    || (if r.kind = 0 ∨ r.kind = 4 then r.op != 0 else !r.red.legal)
    || ((r.kind == 1 || r.kind == 5) && !(r.op == 1 && r.fin == 5))
    || r.contrib != 0 || r.topkK != 0 || r.topkL != 0
    || (!r.shadow && (r.result != 0 || r.planes != 0 || r.shRounds != 0))
    || (r.shadow && decide (size < r.shOff * 65536 + r.shRounds * r.shadowSlot)))

/-- A pattern record of a region is malformed (R192, R196, R233). -/
def State.badPattern (s : State) (slot g i : Nat) : Bool :=
  let r := s.rdPattern g slot i
  let here (ph : Nat) : Bool := (s.rdPhase g slot ph).members != 0
  r.members != 0 && (r.rsv != 0 || !here r.ready || !here r.first || !here r.last || (r.check != 255 && !here r.check)
    || (upTo r.first r.last).any fun a => here a && (s.rdPhase g slot a).kind == 2 && (s.rdPhase g slot a).op != 0x0B
      && !((upTo (a + 1) r.last).any fun q => (s.rdPhase g slot q).anchoredSum))

/-- Two regions hold different copies of one present record (R185). -/
def differ (l : List Nat) : Bool := match l.filter fun x => x != 0 with
  | [] => false
  | x :: r => r.any fun y => y != x

/-- CHECK 0x0A: a malformed record or reference. -/
def State.check0A (s : State) (slot : Nat) : Bool :=
  let regions := List.range 16
  let copies (off size count : Nat) (here : Nat → Nat → Bool) : Bool := (List.range count).any fun i =>
    differ (regions.map fun g => if here g i then s.recordAt g slot (off + size * i) (size / 4) else 0)
  (allPorts.any fun p => allSlots.any fun n => s.badEntry slot p (s.rdEntry slot n p))
    || (regions.any fun g => (List.range 256).any fun ph => s.badPhase slot g ph)
    || (regions.any fun g => (List.range 64).any fun i => s.badPattern slot g i || bits 288 224 (s.rdGroup g slot i) != 0)
    || (regions.any fun g => (List.range 1024).any fun i => bits 22 10 (s.rdPair g slot i) != 0)
    || (regions.any fun g => (List.range 256).any fun i => (s.rdPhase g slot i).rsv != 0)
    || (regions.any fun g => (List.range 64).any fun i => (s.rdPattern g slot i).rsv != 0)
    || (regions.any fun g => ((upTo 9 15) ++ (upTo 40 63)).any fun i => s.rdHeader g slot i != 0)
    || (regions.any fun g => (List.range 3568).any fun i => s.rdWord g slot (0x1C840 + 4 * i) != 0)
    || copies 0x1A000 32 256 (fun g i => (s.rdPhase g slot i).members != 0)
    || copies 0x1C000 32 64 (fun g i => (s.rdPattern g slot i).members != 0)
    || copies 0x19000 64 64 (fun g i => s.rdGroup g slot i != 0)
    || (allPorts.any fun p => allSlots.any fun n => !(s.imgSpindles slot n p).isEmpty
        && !((List.range 256).any fun ph =>
          let r := s.rdPhase (p / 12) slot ph
          r.members != 0 && r.kind != 0 && r.kind != 4 && decide (r.first ≤ n) && decide (n ≤ r.last)))
    || (List.range 96).any fun l =>
      let mine := (s.imgPhases slot).filter fun x => !(s.imgInputs slot l x.1 x.2).isEmpty
      (mine.any fun x => (s.imgInputs slot l x.1 x.2).length % x.2.members != 0)
        || mine.any fun x => mine.any fun y => decide (x.1 < y.1) && decide (x.2.first ≤ y.2.last) && decide (y.2.first ≤ x.2.last)

/-- CHECK 0x0B: SKY entries while SKY_EN is 0. -/
def State.check0B (s : State) (slot : Nat) : Bool :=
  !s.flag .ronpex Reg.drfCtl 5 && allPorts.any fun p => allSlots.any fun n => entryAction (s.rdEntry slot n p) == 6

/-- The lowest code of the conditions that an image breaks (R192); 0 where it breaks none. -/
def State.draftCheck (s : State) (slot : Nat) : Nat :=
  if s.check01 slot then 1 else if s.check02 slot then 2 else if s.check03 slot then 3 else if s.check04 slot then 4
  else if s.check05 slot then 5 else if s.check06 slot then 6 else if s.check07 slot then 7 else if s.check08 slot then 8
  else if s.check09 slot then 9 else if s.check0A slot then 10 else if s.check0B slot then 11 else 0

/-- Port units that are fenced, or off after a reset of what holds them (R345). -/
def State.fencedPorts (s : State) : List Nat := allPorts.filter fun p => s.fld .ronpex (portBase p) 0 2 == 1 || s.fld .ronpex (portBase p) 0 2 == 3

/-- The result of a commit is shown and posted (R192, R215, R390); a refused image can never be activated. -/
def State.committed (s : State) (slot code : Nat) : State :=
  let s1 := (s.setFld .ronpex Reg.drfStat 8 8 code).setFld .ronpex Reg.drfStat 16 3 slot
  (s1.modWarp fun w => { w with accepted := setBit slot (code == 0) w.accepted, fencedAt := SMap.put (fun _ => []) w.fencedAt slot s.fencedPorts }).post (draftEvent s.now 1 code slot 0)

/-- A write of DRF.COMMIT. -/
def State.commitSlot (s : State) (slot : Nat) : State := s.committed slot (s.draftCheck slot)

/-! ### GO, STOP and activation (R214, R347, R450) -/

/-- A write of DRF.CTL: a GO whose START has passed, or of a slot whose image was not accepted, is ignored and posted. -/
def State.drfCtl (s : State) (v : Nat) : State :=
  let slot := bits 0 3 v
  let start := s.reg .ronpex Reg.drfStart
  let s1 := s.setReg .ronpex Reg.drfCtl (slot + 2 ^ 5 * bits 5 1 v)
  let s2 := if bit 4 v then s1.modWarp fun w => { w with stop := true } else s1
  if !bit 3 v then s2
  else if frameDue s.now start ∨ !bit slot s.rp.warp.accepted then s2.post (draftEvent s.now 4 0 slot 0)
  else s2.modWarp fun w => { w with go := some (slot, start) }

/-- A draft would change a column of an ACTIVE skein (R214, R450). -/
def State.changesActive (s : State) (slot : Nat) : Bool :=
  s.busyPorts.any fun p => allSlots.any fun n => s.entryImage slot n p != s.curImage n p

/-- A draft takes effect at the Ronpex (R209, R214): instance numbers begin afresh, and units fenced since the commit are
handled as if they had failed in this frame (R347). -/
def State.rpDraftOn (s : State) (slot : Nat) : State :=
  let s1 := (s.setFld .ronpex Reg.drfStat 0 3 slot).setFlag .ronpex Reg.drfStat 3 true
  let s2 := s1.modWarp fun w => { w with
    go := none, primary := slot, idle := [], outSkeins := 0, inst := [], heldRounds := [], tallies := [], flight := [] }
  let s3 := ((List.range 96).filter fun n => s2.spOut n).foldl (fun t n => t.spindleOrder n) s2
  (s3.fencedPorts.filter fun p => !(SMap.look (fun _ => []) s3.rp.warp.fencedAt slot).contains p).foldl (fun t p => t.portOrder p) s3

/-- The draft ends at a frame boundary: every slot becomes weft (R26, R214). -/
def State.rpDraftOff (s : State) : State := (s.setFlag .ronpex Reg.drfStat 3 false).modWarp fun w => { w with stop := false }

/-- STOP and then GO take effect at a frame boundary (R214). An image that a commit has refused since its GO is not activated (R192). -/
def State.rpActivate (s : State) : State :=
  if s.now % frameNs ≠ 0 then s
  else
    let s1 := if s.rp.warp.stop then s.rpDraftOff else s
    match s1.rp.warp.go with
    | none => s1
    | some (slot, start) =>
      if !frameDue s1.now start then s1
      else if !bit slot s1.rp.warp.accepted || s1.changesActive slot then
        (s1.modWarp fun w => { w with go := none }).post (draftEvent s1.now 4 0 slot 0)
      else s1.rpDraftOn slot

end Sys2Proof.Machine
end

