-- ==== Sys2Proof/Machine/EpWarp.lean ====
section
/-! DEFINITION. A Plocen's drafts (R209, R214), the warp cells that it receives (R194, R198-R202, R211, R233) and its sky runs
(R210, R211, R335). -/

namespace Sys2Proof.Machine

open Sys2Proof

/-! ### GO, STOP and activation (R209, R214) -/

/-- A write of EP_SEQ.WCTL: a GO whose WSTART has passed is ignored; a later GO replaces one that waits. -/
def State.wctl (s : State) (v : Nat) : State :=
  let slot := bits 0 3 v
  let start := s.reg .plocen Reg.epSeqWstart
  let s1 := s.setReg .plocen Reg.epSeqWctl slot
  let s2 := if bit 4 v then s1.modEw fun w => { w with stop := true } else s1
  if bit 3 v ∧ !frameDue s.now start then s2.modEw fun w => { w with go := some (slot, start) } else s2

/-! ### Sky runs (R210, R211, R335) -/

/-- The sky key with the salt of a sender (R335). -/
def State.skyKey (s : State) (plane node : Nat) : Option (BitVec 288) :=
  s.ep.sec.sky.map fun k : BitVec 512 => BitVec.ofNat 288 (k.toNat % 2 ^ 256 + 2 ^ 256 * (0x80000000 + plane * 2 ^ 15 + node))

/-- What port `j` sends in a sky slot after the 50 deskew slots: the tag cell in the last slot of the run, and else the next cell of its
slice (R210, R335). -/
def State.skyCell (s : State) (j n ph : Nat) : Option WarpCell :=
  let x := s.ptPhase (s.ptSlot j) ph
  match s.run? x.pattern with
  | none => none
  | some r =>
    if s.skyLast j n then
      let tag := SMap.look (fun _ => 0) s.ep.warp.skyTx j
      some (sealedCell { s.memberCell j 0 ph r.inst 0 j 0xFFFF 0 (leBytes 16 tag.toNat) with dir := true })
    else
      let k := s.skyIndex j n ph
      match r.cur.find? fun c => c.1 == j with
      | none => none
      | some (_, slice, round) => (s.dataCell j ph k r slice round).map fun c => sealedCell { c with dir := true }

/-- `s` with the sky run that a port receives changed. -/
def State.modSky (s : State) (p : Nat) (f : SkyRun → SkyRun) : State :=
  s.modEw fun w => { w with skyRx := SMap.put (fun _ => {}) w.skyRx p (f (SMap.look (fun _ => {}) w.skyRx p)) }

/-- The round that a cell's ROUND names: the nearest to the plane's own (R197: ROUND has 16 bits). -/
def fullRound (base low : Nat) : Nat := ((base : Int) + signed 16 (subMod 16 low base)).toNat

/-- The round that a plane runs, or is to run next. -/
def Run.roundOn (r : Run) (p : Nat) : Nat :=
  match r.cur.find? fun c => c.1 == p with
  | some c => c.2.2
  | none => ((r.next.find? fun x => x.1 == p).map fun x => x.2.1).getD 0

/-- A cell of a sky run arrives (R210, R211, R335): it lands by its header, and its tag joins the run's; the tag cell ends the
run. One of another epoch or skein is discarded (R197): the run lacks a cell then. -/
def State.skyIn (s : State) (p : Nat) (c : WarpCell) : State :=
  let x := s.ptPhase (s.ptSlot p) c.phase
  match s.skyKey p c.node with
  | none => s
  | some key =>
    if c.crc ≠ cellCrc c then s.modSky p fun k => { k with bad := k.bad + 1, count := k.count + 1 }
    else if c.epoch ≠ s.epoch .plocen % 256 ∨ c.skein ≠ s.epSkein ∨ x.kind ≠ 4 then
      s.modSky p fun k => { k with tag := k.tag ^^^ blockTag key k.count (cellBytes c), bad := k.bad + 1, count := k.count + 1 }
    else if c.cell = 0xFFFF then
      let agrees := leBytes 16 (SMap.look (fun _ => {}) s.ep.warp.skyRx p).tag.toNat == sliceBytes c.payload 0 16
      let s1 := s.modSky p fun k => { k with
        tag := 0, bad := k.bad + ofBool (!agrees), good := agrees && k.bad == 0, count := k.count + 1 }
      if agrees then s1 else s1.secError .plocen 4 p
    else
      let s1 := s.modSky p fun k => { k with tag := k.tag ^^^ blockTag key k.count (cellBytes c), count := k.count + 1 }
      match s1.run? x.pattern with
      | none => s1
      | some r =>
        if r.inst ≠ c.inst then s1
        else match s1.bindFor x.pattern c.inst c.phase with
          | none => s1
          | some b => s1.landCell (s1.ptSlot p) b c.phase c.slice (fullRound (r.roundOn p) c.round) c.cell c.payload

/-! ### Cells from the Ronpex (R198-R202, R211, R233) -/

/-- Anchor codes, or the maxima of an LSE, go into the port's anchor store (R233, R241): 16 KiB. -/
def State.epAnchorsIn (s : State) (p : Nat) (c : WarpCell) : State :=
  s.modEw fun w => { w with
    anchors := ((sliceBytes c.payload 0 768).zipIdx.filter fun x => decide (768 * c.cell + x.2 < 16384)).foldl
      (fun (m : SMap Nat) (x : Byte × Nat) => SMap.put (fun _ => 0) m (65536 * p + 768 * c.cell + x.2) x.1.toNat) w.anchors }

/-- A round's CHECK emission came with OK (R211): what its plane ran has passed, and bindings that waited for it complete. -/
def State.roundPassed (s : State) (p pat : Nat) (r : Run) (round : Nat) : State :=
  let slice := ((r.cur.find? fun c => c.1 == p).map fun c => c.2.1).getD p
  let s1 := s.modRun pat fun r => { r with
    checks := r.checks ++ [(p, round)]
    passed := if r.passed.contains (slice, round) then r.passed else r.passed ++ [(slice, round)] }
  ((s.ep.warp.binds.filter fun b : Binding => b.pattern == pat && b.inst == some r.inst).map fun b => b.id).foldl (fun t i => t.checkBind i) s1

/-- A result cell of the running instance arrives (R200-R202, R211). -/
def State.resultIn (s : State) (p : Nat) (x : PhaseRec) (r : Run) (c : WarpCell) : State :=
  let base := r.roundOn p
  let round := fullRound base c.round
  if c.status = 1 then s.modRun x.pattern fun r => { r with replay := r.replay ++ [(p, min base round)] }
  else if c.status = 2 then s.endInstance x.pattern c.phase
  else if x.kind = 5 then s.roundPassed p x.pattern r round
  else
    let s1 := if x.op = 0x09 ∨ x.op = 0x0A ∨ x.op = 0x0B then s.epAnchorsIn p c else s
    match s1.bindFor x.pattern r.inst c.phase with
    | none => s1
    | some b => s1.landCell (s1.ptSlot p) b c.phase c.slice round c.cell c.payload

/-- A warp cell arrives at a port of the Plocen (R153, R197, R202): one whose slot, CRC, EPOCH or SKEIN is not the expected one
is discarded. -/
def State.epWarpIn (s : State) (p : Nat) (c : WarpCell) : State :=
  if !s.portUp .plocen p || !s.ptRunning then s
  else if entryRx (s.ptNow s.now p) = 3 then s.skyIn p c
  else
    let (gone, s1) := s.epSlotUse p 3 c.node c.skein
    if gone || c.crc != cellCrc c || c.epoch != s.epoch .plocen % 256 || c.skein != s.epSkein then s1
    else
      let x := s1.ptPhase (s1.ptSlot p) c.phase
      if x.members = 0 then s1
      else if x.kind = 1 then (if c.ctrl = 2 ∧ c.status = 0 then s1.goRun x.pattern c.inst p else s1)
      else match s1.run? x.pattern with
        | none => s1
        | some r => if r.inst = c.inst then s1.resultIn p x r c else s1

end Sys2Proof.Machine
end

