-- ==== Sys2Proof/Machine/Warp.lean ====
section
/-! DEFINITION. The commands of the warp plane (R153, R186-R219, R246, R345, R392): one meaning per row. -/

namespace Sys2Proof.Machine

open Sys2Proof

/-- A write of DRF.CTL (R214). -/
def State.drfWrite (s : State) (ctl : Word) (wr : Writer) : State := s.wrote .ronpex Reg.drfCtl ctl.toNat wr fun t => t.drfCtl ctl.toNat

/-- A write of EP_SEQ.WCTL (R214). -/
def State.wctlWrite (s : State) (ctl : Word) (wr : Writer) : State := s.wrote .plocen Reg.epSeqWctl ctl.toNat wr fun t => t.wctl ctl.toNat

/-- A draft of a part is activated at its START, and a STOP ends one (R214). -/
def State.activateDraft (s : State) : Part → State
  | .ronpex => s.rpActivate
  | .plocen => s.epActivate

/-- A MGMT message reaches a part (R392). -/
def State.mgmtIn (s : State) (p : Part) (src : MgmtSource) (m : Mgmt) : State :=
  match p with
  | .ronpex => s.rpMgmtIn src m
  | .plocen => s.epMgmtIn src.port src.node m

/-- A GO is written to DRF.CTL. -/
def execDrfGo (ctl : Word) (wr : Writer) (s : State) : Host.Outcome State Fault Refusal := .next (s.drfWrite ctl wr)

/-- A STOP is written to DRF.CTL. -/
def execDrfStop (ctl : Word) (wr : Writer) (s : State) : Host.Outcome State Fault Refusal := .next (s.drfWrite ctl wr)

/-- A GO is written to EP_SEQ.WCTL. -/
def execWctlGo (ctl : Word) (wr : Writer) (s : State) : Host.Outcome State Fault Refusal := .next (s.wctlWrite ctl wr)

/-- A STOP is written to EP_SEQ.WCTL. -/
def execWctlStop (ctl : Word) (wr : Writer) (s : State) : Host.Outcome State Fault Refusal := .next (s.wctlWrite ctl wr)

/-- An image is checked (R192). -/
def execCommit (value : Word) (wr : Writer) (s : State) : Host.Outcome State Fault Refusal :=
  .next (s.wrote .ronpex Reg.drfCommit value.toNat wr fun t => t.commitSlot (bits 0 3 value.toNat))

/-- The START frame of a draft is reached (R214). -/
def execDraftActivation (part : Part) (s : State) : Host.Outcome State Fault Refusal := .next (s.activateDraft part)

/-- A warp cell reaches a port of the Ronpex: its block is counted while the port is up, and one that an uncorrectable codeword touches is
discarded (R273); the analysis port receives nothing (R178). -/
def State.rpCellIn (s : State) (p : Nat) (c : WarpCell) : State :=
  if !s.portUp .ronpex p || s.anaPort p then s
  else
    let s1 := if s.rxAt s.now p != 3 then s.rxBlock .ronpex p (.warp c) else s
    if s.slotLost .ronpex p then s1 else s1.rpWarpIn p c

/-- A warp cell reaches a port of the Plocen: its block is counted while the port is up, in a sky window among the sky cells (R335), and one
that an uncorrectable codeword touches is discarded (R273). -/
def State.epCellIn (s : State) (p : Nat) (c : WarpCell) : State :=
  let sky := entryRx (s.ptNow s.now p) == 3
  let s1 := if s.portUp .plocen p && !sky then s.rxBlock .plocen p (.warp c) else s
  if !s.slotLost .plocen p then s1.epWarpIn p c
  else if sky then s1.modSky p fun k => { k with bad := k.bad + 1, count := k.count + 1 }
  else s1

/-- A warp cell enters the Ronpex (R153, R186). -/
def execWarpCellIngress (port : Fin 192) (c : WarpCell) (s : State) : Host.Outcome State Fault Refusal := .next (s.rpCellIn port c)

/-- A spindle emits (R219). -/
def execSpindleEmit (n : Fin 96) (s : State) : Host.Outcome State Fault Refusal := .next (s.spindleEmit n)

/-- A warp cell lands at the Plocen (R202). -/
def execWarpCellLanding (p : Fin 8) (c : WarpCell) (s : State) : Host.Outcome State Fault Refusal := .next (s.epCellIn p c)

/-- A switch order arrives (R207). -/
def execSwitchOrder (part : Part) (src : MgmtSource) (o : SwitchOrder) (s : State) : Host.Outcome State Fault Refusal :=
  .next (s.mgmtIn part src (.switchOrder o))

/-- Switch orders whose EFFECTIVE has come take effect (R208), at the first slot of a frame only (R183). -/
def State.applyOrders (s : State) (p : Part) : State :=
  if s.now % frameNs ≠ 0 then s
  else match p with
    | .ronpex => s.rpOrdersDue
    | .plocen => s.epOrdersDue

/-- Switch orders whose EFFECTIVE has come are applied (R208). -/
def execSwitchOrderApply (part : Part) (s : State) : Host.Outcome State Fault Refusal := .next (s.applyOrders part)

/-- A spindle detects an internal error (R345). -/
def execSpindleInternalError (n : Fin 96) (s : State) : Host.Outcome State Fault Refusal := .next (s.fenceSpindle n 1)

/-- SPD[n].CTL.FENCE is written (R246, R421). -/
def execSpdFence (n : Fin 96) (value : Word) (wr : Writer) (s : State) : Host.Outcome State Fault Refusal :=
  .next (s.wrote .ronpex (spindleBase n + 8) value.toNat wr fun t => if bit 0 value.toNat then t.softFence (192 + n) wr else t)

end Sys2Proof.Machine
end

