-- ==== Sys2Proof/Machine/LinkOps.lean ====
section
/-! DEFINITION. The operations of a port's link beside its keys (R212, R265-R289, R297-R299, R304, R380, R381): identity, received
power, lane swaps, revalidation, loss of clock, time exchanges and training. -/

namespace Sys2Proof.Machine

open Sys2Proof

/-! ### Which messages are taken -/

/-- The LMC of a port runs whenever its clock runs: it is not OFF, and its clock has not stopped (R266, R267, R275). -/
def State.lmcRuns (s : State) (p : Part) (port : Nat) : Bool :=
  decide (port < partPorts p) && s.portState p port != 0 && !(s.link p port).clockOff

/-- A message waits to be sent on a port's LMC. -/
def State.lmcPush (s : State) (p : Part) (port : Nat) (l : List LmcMsg) : State :=
  s.modLink p port fun k => { k with lmcQ := k.lmcQ ++ l }

/-- A slot of the draft in effect lies in a sky run of the port or in its windows (R210, R297). -/
def State.inSky (s : State) (p : Part) (port n : Nat) : Bool :=
  match p with
  | .ronpex => s.running && (s.portLogical port).any fun l => s.skyWindow s.rdSlot n l
  | .plocen => s.ptRunning && (List.range 1001).any fun d => decide (500 ≤ n + d) && decide (n + d - 500 < frameSlots)
      && (entryTx (s.ptEntry (s.ptSlot port) (n + d - 500) port) == 3 || entryRx (s.ptEntry (s.ptSlot port) (n + d - 500) port) == 3)

/-- The port is now in a sky run or its windows. -/
def State.skyNow (s : State) (p : Part) (port : Nat) : Bool := s.inSky p port (slotOf s.now)

/-- Whether uncorrectables and alarms are watched for on a port (R278, R297). -/
def State.watched (s : State) (p : Part) (port : Nat) : Bool := s.portUp p port && !s.skyNow p port

/-- Whether loss of clock is watched for (R266, R297): the port is up, in TEST, or in training with its sampling phases set. -/
def State.clockWatched (s : State) (p : Part) (port : Nat) : Bool :=
  (s.portUp p port || s.portState p port == 4 || (s.portState p port == 1 && decide (3 ≤ (s.link p port).step))) && !s.skyNow p port

/-- A cause of R278 takes a port DOWN, but not in a sky run or its windows (R297). -/
def State.causeDown (s : State) (p : Part) (port cause : Nat) : State := if s.skyNow p port then s else s.portDown p port cause

/-! ### Bytes of the messages (R268, R330, R380) -/

/-- The BODY of an IDENT message. -/
def identBody (i : Identity) : List Byte := leBytes 8 i.serial.toNat ++ leBytes 1 i.port ++ leBytes 1 (128 * ofBool i.plocen)

/-- TYPE and BODY of a message. -/
def LmcMsg.wire : LmcMsg → Nat × List Byte
  | .idle => (0x00, [])
  | .ident i => (0x01, identBody i)
  | .pwr b l => (if b then 0x03 else 0x02, (l.take 5).flatMap fun x => leBytes 2 (ofSigned 16 x))
  | .tune w request => (0x04, leBytes 1 w ++ leBytes 1 request)
  | .swapReq lane reason frame => (0x05, leBytes 1 lane ++ leBytes 1 reason ++ leBytes 4 frame)
  | .swapAck lane reason frame => (0x06, leBytes 1 lane ++ leBytes 1 reason ++ leBytes 4 frame)
  | .state step => (0x07, leBytes 1 step)
  | .sync locked master depth time16 =>
    (0x08, leBytes 1 (16 * (time16 % 16)) ++ leBytes 1 (ofBool locked + 2 * ofBool master + 16 * (depth % 16)) ++ leBytes 8 (time16 / 16))
  | .rxstamp syncSeq time16 => (0x08, leBytes 1 (1 + 16 * (time16 % 16)) ++ leBytes 1 syncSeq ++ leBytes 8 (time16 / 16))
  | .key sub f data => (0x09, leBytes 1 (sub % 16 + 16 * (f % 16)) ++ leBytes 1 (f % 4096 / 16) ++ sliceBytes data 0 8)
  | .stress apply => (0x0A, leBytes 1 (ofBool apply))

/-- The CRC-16 of a message with its SEQ. -/
@[irreducible] def lmcCrc (m : LmcMsg) (seq : Nat) : Nat := crc16 (lmcCore m.wire.1 seq m.wire.2)

/-- Whether the CRC of a received message checks. -/
def lmcGood (l : Lmc) (m : LmcMsg) : Bool := l.crc == lmcCrc m l.seq

/-- A message whose CRC fails is discarded (R268); in a sky window none passes between the Ronpex and an end point (R297). -/
def State.lmcTaken (s : State) (p : Part) (port : Nat) (l : Lmc) (m : LmcMsg) : Bool :=
  lmcGood l m && s.lmcRuns p port && !s.skyNow p port

/-! ### Identity (R268, R277) -/

/-- The identity that a port announces. -/
def State.ownIdentity (_ : State) (p : Part) (port : Nat) : Identity :=
  { serial := if p = .ronpex then Config.ronpexSerial else Config.plocenSerial, port := port, plocen := p == .plocen }

/-- The far end's identity as the IDENT registers show it. -/
def State.farIdentity (s : State) (p : Part) (port : Nat) : Option Identity :=
  let a := psBase p port
  let w := s.reg p (a + 0x18)
  if bit 9 w then
    some { serial := BitVec.ofNat 64 (s.reg p (a + 0x10) + 2 ^ 32 * s.reg p (a + 0x14)), port := w % 256, plocen := bit 8 w }
  else none

/-- The port's entry of the port map; the Plocen has no persistent store, so that its entries are empty (log 27). -/
def State.mapEntry (s : State) (p : Part) (port : Nat) : Option Identity :=
  match p with
  | .plocen => none
  | .ronpex =>
    let w := s.rp.pst.word (Reg.pstPmapPort port)
    if bit 9 w then
      some { serial := BitVec.ofNat 64 (s.rp.pst.word (Reg.pstPmapLo port) + 2 ^ 32 * s.rp.pst.word (Reg.pstPmapHi port)),
             port := w % 256, plocen := bit 8 w }
    else none

/-- The far end's identity is recorded in the IDENT registers. -/
def State.recordIdentity (s : State) (p : Part) (port : Nat) (i : Identity) : State :=
  let a := psBase p port
  ((s.setReg p (a + 0x10) (bits 0 32 i.serial.toNat)).setReg p (a + 0x14) (bits 32 32 i.serial.toNat)).setReg p (a + 0x18)
    (i.port % 256 + 256 * ofBool i.plocen + 512)

/-- One of the two log entries of a disagreement (R455). -/
def State.logIdentity (s : State) (p : Part) (port : Nat) (i : Identity) (received : Bool) : State :=
  s.pcond p 0x0A 6 0 port 0 (i.port % 256 + 256 * ofBool i.plocen + 512 * ofBool received) (bits 0 32 i.serial.toNat)
    (bits 32 32 i.serial.toNat)

/-- A port is MISWIRED (R277). -/
def State.miswire (s : State) (p : Part) (port : Nat) (expected got : Identity) : State :=
  let s1 := (s.setFld p (psBase p port + 4) 0 3 6).modLink p port Link.stopped
  let s2 := (s1.logIdentity p port expected false).logIdentity p port got true
  let s3 := if p = .ronpex then s2.portEvent port 2 0 0 else s2
  if s.portUp p port then s3.portGone p port
  else match p with
    | .ronpex => (s3.showUnits false [416 + port]).fencePort port 2
    | .plocen => s3

/-- An IDENT is compared with the port map, and while the port is up with the identity it has shown (R277). -/
def State.identIn (s : State) (p : Part) (port : Nat) (got : Identity) : State :=
  let st := s.portState p port
  let seen := if st = 2 ∨ st = 3 ∨ st = 4 then s.farIdentity p port else none
  let expected := match s.mapEntry p port with
    | some e => some e
    | none => seen
  if st = 5 ∨ st = 6 then s
  else
    let s1 := s.modLink p port fun l => { l with identGot := true }
    match expected with
    | some e => if e = got then s1.recordIdentity p port got else s1.miswire p port e got
    | none => s1.recordIdentity p port got

/-! ### Drive and received power (R268, R284, R285) -/

/-- A drive setting: amplitude, pre- and post-cursor, 8 bits each, 128 in the middle. -/
def driveReset : Nat := 0x808080

/-- A TUNE request changes one drive setting of a wavelength by one step. -/
def Link.tune (l : Link) (w request : Nat) : Link :=
  if 1 ≤ request ∧ request ≤ 6 ∧ w < 10 ∧ w ≠ 4 then
    let d := SMap.look (fun _ => driveReset) l.drive w
    let lo := 8 * ((request - 1) / 2)
    let v := bits lo 8 d
    let v' := if request % 2 = 1 then min (v + 1) 255 else v - 1
    { l with drive := SMap.put (fun _ => driveReset) l.drive w (setBits lo 8 v' d) }
  else l

/-- The receiver tunes some wavelengths: it asks the far transmitter for what its equalisers want (a free value each; log 149), and then
says that it is done (R268, R276, R289). -/
def State.tuneWls (s : State) (p : Part) (port : Nat) (ws : List Nat) : State :=
  ws.foldl (fun t w =>
    let (v, t1) := t.draw
    t1.lmcPush p port [.tune w (v.toNat % 7), .tune w 7]) s

/-- FAR readings that the far end reports, from wavelength `first` on (R284). -/
def State.farPower (s : State) (p : Part) (port first : Nat) (l : List Int) : State :=
  ((l.take 5).zipIdx).foldl (fun t x => t.setFld p (psBase p port + 0x20 + 4 * (first + x.2)) 16 16 (ofSigned 16 x.1)) s

/-- The lowest of some readings. -/
def lowestReading (l : List Int) : Int := l.foldl min (l.headD 0)

/-- The start of the sky run that a receive slot of a port of the Plocen lies in (R210, R298). -/
def State.skyRunAt (s : State) (port : Nat) : Option Nat :=
  let n := slotOf s.now
  let sky (m : Nat) : Bool := entryRx (s.ptEntry (s.ptSlot port) m port) == 3
  if s.ptRunning ∧ sky n then some (s.now - s.now % slotNs - slotNs * ((List.range n).reverse.takeWhile sky).length) else none

/-- The lowest power of a port's last sky run (R298): a reading in the run it shows lowers it, and one in a new run replaces it. -/
def State.skyPower (s : State) (port : Nat) (x : Int) : State :=
  match s.skyRunAt port with
  | none => s
  | some t =>
    let a := Reg.epOptSkypwr port
    let v := if (s.link .plocen port).skyRun = some t then min x (signed 16 (s.fld .plocen a 0 16)) else x
    (s.setReg .plocen a (ofSigned 16 v)).modLink .plocen port fun l => { l with skyRun := some t }

/-- A power average of the ten wavelengths (R284, R285, R298): a wavelength that falls below Alarm posts an event. -/
def State.powerIn (s : State) (p : Part) (port : Nat) (l : List Int) : State :=
  let l := l.take 10
  let s1 := l.zipIdx.foldl (fun t x => t.setFld p (psBase p port + 0x20 + 4 * x.2) 0 16 (ofSigned 16 x.1)) s
  if s.skyNow p port then
    (match p with
      | .plocen => s1.skyPower port (lowestReading l)
      | .ronpex => s1)
  else if !s.portUp p port then s1
  else
    l.zipIdx.foldl (fun t x =>
      let n := SMap.look (fun _ => 0) (t.link p port).low x.2
      let n' := if x.1 < -90 then n + 1 else 0
      let t1 := t.modLink p port fun k => { k with low := SMap.put (fun _ => 0) k.low x.2 n' }
      if n' = 1 ∧ p = .ronpex then t1.portEvent port 4 0 x.2 else t1) s1

/-! ### Lane swaps (R287, R288) -/

/-- The wavelength of a logical lane. -/
def State.laneWl (s : State) (p : Part) (port lane : Nat) : Nat := s.fld p (psBase p port + 8) (4 * lane) 4

/-- The spare is failed or in use (R299). -/
def State.spareGone (s : State) (p : Part) (port : Nat) : Bool := s.flag p (psBase p port + 0xC) 4

/-- The first frame boundary at least 4 us ahead, moved past a sky window (R288). -/
def State.swapFrame (s : State) (p : Part) (port : Nat) : Nat := s.frameAfter 4000 + ofBool (s.inSky p port 0)

/-- A revalidation ends. -/
def State.revalEnd (s : State) (p : Part) (port : Nat) : State :=
  (s.setFlag p (psBase p port + 4) 5 false).modLink p port fun l => { l with reval := none }

/-- A forced swap abandons a revalidation, which starts again once the swap is complete (R289). -/
def State.revalAbandon (s : State) (p : Part) (port : Nat) : State :=
  match (s.link p port).reval with
  | none => s
  | some r => (s.revalEnd p port).modLink p port fun l => { l with again := some (r.cls, r.temp) }

/-- The receiver asks for a swap (R288). A forced one replaces a planned one and abandons a revalidation (R289). -/
def State.askSwap (s : State) (p : Part) (port lane reason : Nat) : State :=
  let w : Swap := { lane := lane, reason := reason, frame := s.swapFrame p port % 2 ^ 32, asked := true, acked := false }
  let s1 := s.modLink p port fun l => { l with swap := some w }
  if reason = 1 then s1.revalAbandon p port else s1

/-- Four consecutive codewords of a lane were uncorrectable while the other lanes decoded (R287). -/
def State.laneDead (s : State) (p : Part) (port lane : Nat) : Bool := bit lane (s.link p port).laneDead

/-- A lane is failed for reason 1 (R287): a forced swap, or the port goes DOWN where no usable spare is left. -/
def State.laneFailed (s : State) (p : Part) (port lane : Nat) : State :=
  if !s.watched p port ∨ !s.laneDead p port lane ∨ (s.link p port).swap.any (fun w => w.reason == 1) then s
  else if s.spareGone p port then s.causeDown p port 0x12
  else s.askSwap p port lane 1

/-- A PORT event of a swap (R390), which only a Ronpex posts. -/
def State.swapEvent (s : State) (p : Part) (port reason w : Nat) : State := if p = .ronpex then s.portEvent port 3 reason w else s

/-- A data lane below Alarm for three readings is failed for reason 2 (R287). -/
def State.laneLow (s : State) (p : Part) (port lane : Nat) : State :=
  let w := s.laneWl p port lane
  if !s.watched p port ∨ SMap.look (fun _ => 0) (s.link p port).low w < 3 ∨ (s.link p port).swap.isSome then s
  else if s.spareGone p port then s.swapEvent p port 2 w
  else s.askSwap p port lane 2

/-- A request of the far receiver (R288): accepted while it comes 1 us before F, and acknowledged once for each message. -/
def State.swapReqIn (s : State) (p : Part) (port lane reason frame : Nat) : State :=
  let w : Swap := { lane := lane, reason := reason, frame := frame, asked := false, acked := true }
  let takes := match (s.link p port).swap with
    | none => !s.spareGone p port
    | some o => o == w || o.reason != 1 || (o.lane == lane && o.reason == reason && !o.asked)
  if !s.portUp p port ∨ 8 ≤ lane ∨ frameTime s.now frame < s.now + 1000 ∨ !takes then s
  else
    let s1 := (s.modLink p port fun l => { l with swap := some w }).lmcPush p port [.swapAck lane reason frame]
    if reason = 1 then s1.revalAbandon p port else s1

/-- An acknowledgement ends the repetition (R288). -/
def State.swapAckIn (s : State) (p : Part) (port lane frame : Nat) : State :=
  s.modLink p port fun l => { l with swap := l.swap.map fun w : Swap =>
    if w.asked ∧ w.lane = lane ∧ w.frame = frame then { w with acked := true } else w }

/-- Engine temperature of a port, degrees (R299, R301). -/
def State.engineTemp (s : State) (p : Part) (port : Nat) : Nat :=
  match p with
  | .ronpex => s.fld .ronpex (engineBase (portEngine port) + 4) 16 8
  | .plocen => s.fld .plocen Reg.epOptStat 0 8

/-- The engine temperature is measured. -/
def State.setEngineTemp (s : State) (p : Part) (port : Nat) (t : Int) : State :=
  match p with
  | .ronpex => s.setFld .ronpex (engineBase (portEngine port) + 4) 16 8 (ofSigned 8 t)
  | .plocen => s.setFld .plocen Reg.epOptStat 0 8 (ofSigned 8 t)

/-- The calibration of a wavelength is stamped (R289, R299). -/
def State.stamp (s : State) (p : Part) (port w : Nat) (cls : Bool) (temp : Int) : State :=
  (s.setReg p (psBase p port + 0xB0 + 4 * w) (ofSigned 8 temp + 512)).modLink p port fun l =>
    { l with stamps := SMap.put (fun _ => false) l.stamps w cls }

/-- The wavelengths of the data lanes. -/
def State.dataWls (s : State) (p : Part) (port : Nat) : List Nat := (List.range 8).map (s.laneWl p port)

/-- A control bit of a port's engine or of the Plocen's optics (R299, R301): 0 LPI_EN, 1 WEFT_LPI, 2 REVAL_EN. -/
def State.optCtl (s : State) (p : Part) (port b : Nat) : Bool :=
  match p with
  | .ronpex => s.flag .ronpex (engineBase (portEngine port)) b
  | .plocen => s.flag .plocen Reg.epOptCtl b

/-- Corrected symbols by wavelength. -/
def State.corrNow (s : State) (p : Part) (port : Nat) : List Nat :=
  (List.range 10).map fun w => s.reg p (psBase p port + 0x50 + 4 * w)

/-- Deferrable work is held under PWRALERT_N (R369). -/
def State.deferHeld (s : State) (p : Part) : Bool := p == .ronpex && s.workHeld

/-- A revalidation begins (R289): the far transmitter is asked for STRESS, and the spare's errors are counted. -/
def State.revalBegin (s : State) (p : Part) (port : Nat) (cls : Bool) (temp : Int) : State :=
  let s1 := (s.dataWls p port).foldl (fun t w => t.setFlag p (psBase p port + 0xB0 + 4 * w) 9 false) s
  ((s1.setFlag p (psBase p port + 4) 5 true).modLink p port fun k => { k with
    again := none
    reval := some { since := s.now, temp := temp, cls := cls, retuned := false, todo := List.range 8, corr := s.corrNow p port } }).lmcPush
    p port [.stress true]

/-- A revalidation that a forced swap abandoned starts again once the swap is complete (R289), and no hold of deferrable work stands in
its way (R369). -/
def State.revalResume (s : State) (p : Part) (port : Nat) : State :=
  let l := s.link p port
  match l.again with
  | some (cls, temp) => if l.swap.isSome ∨ l.reval.isSome ∨ s.deferHeld p then s else s.revalBegin p port cls temp
  | none => s

/-- The lane moves to the spare (R288, R299): the displaced wavelength carries PRBS31, its checker starts afresh, the receiver retunes it,
and it is out of use until it passes a check. A revalidation that a forced swap abandoned starts again (R289). -/
def State.swapNow (s : State) (p : Part) (port : Nat) (x : Swap) : State :=
  let a := psBase p port
  let old := s.laneWl p port x.lane
  let new := s.fld p (a + 0xC) 0 4
  let s1 := (s.setFld p (a + 8) (4 * x.lane) 4 new).setReg p (a + 0xC) (old + 16)
  let s2 := ((s1.satFld p (a + 0x7C) 0 16 1).modLink p port fun l => { l with
    swap := none, low := SMap.put (fun _ => 0) l.low old 0, checkers := SMap.drop l.checkers old
    laneFails := [], laneDead := setBit x.lane false l.laneDead }).swapEvent p port x.reason old
  let s3 := if x.asked then s2.tuneWls p port [old] else s2
  s3.revalResume p port

/-- A swap takes effect at its F (R288), but not in a sky window (R297). A receiver without an acknowledgement decodes the lane from both
wavelengths: the far end sends it on the spare, or it does not (a free value), and then a new F is named. -/
def State.swapApply (s : State) (p : Part) (port : Nat) : State :=
  match (s.link p port).swap with
  | none => s
  | some x =>
    if !s.watched p port ∨ !frameDue s.now x.frame then s
    else if x.asked ∧ !x.acked then
      let (v, s1) := s.draw
      if bit 0 v.toNat then s1.swapNow p port x else s1.askSwap p port x.lane x.reason
    else s.swapNow p port x

/-! ### Revalidation (R289) -/

/-- A class change, or a temperature more than 5 degrees from a data lane's stamp, starts a revalidation (R289). -/
def State.revalStart (s : State) (p : Part) (port : Nat) (cls : Bool) (temp : Int) : State :=
  let l := s.link p port
  let moved := (s.dataWls p port).any fun w =>
    let t := signed 8 (s.fld p (psBase p port + 0xB0 + 4 * w) 0 8)
    (SMap.look (fun _ => false) l.stamps w != cls) || decide (5 < temp - t) || decide (temp - t < -5)
  let s1 := s.setEngineTemp p port temp
  if !s.watched p port ∨ !s.optCtl p port 2 ∨ l.reval.isSome ∨ l.swap.isSome ∨ s.spareGone p port ∨ l.cls ≠ cls ∨ !moved
      ∨ s.deferHeld p then s1
  else s1.revalBegin p port cls temp

/-- The unstamped lane with the most corrected symbols during the check (R289); the lowest of equals. -/
def State.worstLane (s : State) (p : Part) (port : Nat) (r : Reval) : Option Nat :=
  let gain (lane : Nat) : Nat :=
    let w := s.laneWl p port lane
    s.reg p (psBase p port + 0x50 + 4 * w) - r.corr.getD w 0
  r.todo.foldl (fun b lane => match b with
    | none => some lane
    | some o => if gain o < gain lane then some lane else some o) none

/-- The errors with which a retuned spare still passes its check: the spare that the revalidation began with, those of its first check
(R289); a displaced wavelength, those of step 6 (R276, R288; DEDUCED, log 151). -/
def Reval.limit (r : Reval) : Nat := if r.todo.length = 8 then 100000 else 10000

/-- A check of the spare ends in a revalidation (R289). -/
def State.revalTurn (s : State) (p : Part) (port errors : Nat) (r : Reval) : State :=
  let a := psBase p port
  let spare := s.fld p (a + 0xC) 0 4
  if !r.retuned then
    if errors ≤ 100000 then
      (((s.dataWls p port).foldl (fun t w => t.stamp p port w r.cls r.temp) s).revalEnd p port).lmcPush p port [.stress false]
    else
      ((s.modLink p port fun k => { k with
        checkers := SMap.drop k.checkers spare
        reval := some { r with retuned := true, corr := s.corrNow p port } }).lmcPush p port [.stress false]).tuneWls p port [spare]
  else if r.limit < errors then ((s.setFlag p (a + 0xC) 4 true).swapEvent p port 3 spare).revalEnd p port
  else match s.worstLane p port r with
    | none => s.revalEnd p port
    | some lane =>
      let s1 := ((s.setFlag p (a + 0xC) 4 false).stamp p port spare r.cls r.temp).modLink p port fun k => { k with
        reval := some { r with todo := r.todo.filter fun x => x != lane, corr := s.corrNow p port } }
      let s2 := s1.askSwap p port lane 3
      if r.todo.length = 1 then s2.revalEnd p port else s2

/-- A PRBS31 check of the spare over 10^10 bits ends (R282, R288, R289); in a sky window it goes on (R297). Outside a revalidation a
wavelength that passes step 6 of R276 is a usable spare, and one that does not is failed. -/
def State.revalCheck (s : State) (p : Part) (port errors : Nat) : State :=
  let a := psBase p port
  let spare := s.fld p (a + 0xC) 0 4
  let s1 := s.satFld p (a + 0x80 + 4 * spare) 0 32 errors
  if !s.watched p port then s
  else if (s.link p port).swap.isSome then s1
  else match (s.link p port).reval with
  | none => s1.setFlag p (a + 0xC) 4 (decide (10000 < errors))
  | some r => s1.revalTurn p port errors r

/-! ### Loss of clock (R266) -/

/-- The clock's light falls below Dark: the receiver holds its phases. -/
def State.lightOut (s : State) (p : Part) (port : Nat) : State :=
  if s.clockWatched p port ∧ (s.link p port).darkAt.isNone then s.modLink p port fun l => { l with darkAt := some s.now } else s

/-- Slots before the present one, at most 500, since the port was in a sky run or its windows: loss of clock is watched for only from the
end of the trailing window on (R297). -/
def State.slotsWatched (s : State) (p : Part) (port : Nat) : Nat :=
  ((List.range 501).takeWhile fun d => decide (slotOf s.now < d) || !s.inSky p port (slotOf s.now - d)).length - 1

/-- A hold of the sampling phases that began at `t` has lasted 2 us in which loss of clock was watched for (R266, R297). -/
def State.holdOut (s : State) (p : Part) (port t : Nat) : Bool :=
  decide (t + 2000 ≤ s.now) && !s.skyNow p port && decide (500 ≤ s.slotsWatched p port)

/-- Light and clock edges return: within the 2 us, or within those that begin with the end of a sky window. -/
def State.lightBack (s : State) (p : Part) (port : Nat) : State :=
  match (s.link p port).darkAt with
  | none => s
  | some t => if s.now ≤ t + 2000 || !s.holdOut p port t then s.modLink p port fun l => { l with darkAt := none } else s

/-- Loss of clock: the port goes DOWN. -/
def State.lossOfClock (s : State) (p : Part) (port : Nat) : State := (s.setFlag p (psBase p port + 4) 3 true).portDown p port 0x10

/-- The 2 us end without light. -/
def State.holdoverOut (s : State) (p : Part) (port : Nat) : State :=
  match (s.link p port).darkAt with
  | none => s
  | some t => if s.clockWatched p port ∧ s.holdOut p port t then s.lossOfClock p port else s

/-- Light is present with no clock edge for 100 ns. -/
def State.clockStopped (s : State) (p : Part) (port : Nat) : State :=
  if s.clockWatched p port ∧ (s.link p port).darkAt.isNone then s.lossOfClock p port else s

/-! ### Codeword groups as they are received (R272, R273, R278, R279, R282) -/

/-- Use of the receive side of a port of either part. -/
def State.rxUseAt (s : State) (p : Part) (t port : Nat) : Nat :=
  match p with
  | .ronpex => s.rxAt t port
  | .plocen => entryRx (s.ptNow t port)

/-- The pattern that a checker of a wavelength follows: the one of CTL.PRBS in TEST, and PRBS31 on the spare while the port is up (R265,
R283). -/
def State.rxPattern (s : State) (p : Part) (port w : Nat) : Option Prbs :=
  let a := psBase p port
  if w = 4 ∨ 10 ≤ w then none
  else if s.portState p port = 4 then some (if s.fld p a 2 2 = 1 then .p13 else .p31)
  else if s.portUp p port ∧ w = s.fld p (a + 0xC) 0 4 then some .p31
  else none

/-- Bits of a test pattern reach the checker of a wavelength, which counts errors into PRBSERR (R282, R283). -/
def State.prbsIn (s : State) (p : Part) (port w : Nat) (l : List Nat) : State :=
  match s.rxPattern p port w with
  | none => s
  | some k =>
    let (c, e) := ((SMap.find? (s.link p port).checkers w).getD { got := 0, reg := 0 }).run k l
    (s.modLink p port fun x => { x with checkers := SMap.set x.checkers w c }).satFld p (psBase p port + 0x80 + 4 * w) 0 32 e

/-- A codeword of a group with what the decoder makes of it; none where it came without error. -/
def groupWord (g : RxGroup) (lane place : Nat) : Option (Option (List Nat × Nat)) :=
  (g.words.find? fun w => w.lane.val == lane && w.place.val == place).map fun w => rsDecode (w.symbols.map (· % 1024))

/-- A frame in which blocks were sent is unchecked: a codeword of it was uncorrectable (R332). -/
def LinkKeys.unclean (k : LinkKeys) (f : Nat) : LinkKeys :=
  if f = k.rxFrame then { k with rxClean := false }
  else { k with rxDone := k.rxDone.map fun x => if x.1 = f then (x.1, x.2.1, false) else x }

/-- One codeword of a group (R273): its corrected symbols are counted on the lane's wavelength; one that cannot be corrected is
counted, and the containers of the slots it touches are discarded. -/
def State.wordIn (s : State) (p : Part) (port : Nat) (g : RxGroup) (lane place : Nat) : State :=
  let a := psBase p port
  match groupWord g lane place with
  | none => s
  | some (some (_, n)) => s.satFld p (a + 0x50 + 4 * s.laneWl p port lane) 0 32 n
  | some none =>
    let slots := (codewordSlots place).map fun i => g.start + slotNs * i
    (s.satFld p (a + 0x78) 0 32 1).modLink p port fun l => { l with
      lost := l.lost ++ slots, keys := slots.foldl (fun k t => k.unclean (l.sentIn t)) l.keys }

/-- The codewords of all lanes at a place of a group: a lane of which four in a row have failed, while the other lanes decoded, is dead
(R287). -/
def State.placeIn (s : State) (p : Part) (port : Nat) (g : RxGroup) (place : Nat) : State :=
  let mask := maskOf ((List.range 8).filter fun lane => groupWord g lane place == some none)
  ((List.range 8).foldl (fun t lane => t.wordIn p port g lane place) s).modLink p port fun l =>
    let fails := (mask :: l.laneFails).take 4
    { l with laneFails := fails
             laneDead := ((List.range 8).filter fun lane => fails == List.replicate 4 (2 ^ lane)).foldl (fun m lane => setBit lane true m) l.laneDead }

/-- A codeword of a lane in a group could not be corrected. -/
def laneBad (g : RxGroup) (lane : Nat) : Bool :=
  g.words.any fun w => w.lane.val == lane && (rsDecode (w.symbols.map (· % 1024))).isNone

/-- How many lanes of a group have an uncorrectable codeword. -/
def badLanes (g : RxGroup) : Nat := ((List.range 8).filter (laneBad g)).length

/-- The run of consecutive groups with uncorrectables on two or more lanes, after one more group (R278). -/
def nextBadRun (run : Option (Nat × Nat)) (g : RxGroup) : Option (Nat × Nat) :=
  if badLanes g < 2 then none
  else match run with
    | some (t, n) => some (g.start, if g.start = t + 8 * slotNs then n + 1 else 1)
    | none => some (g.start, 1)

/-- A codeword group is received (R272, R273, R278): decoding is suspended in unmodulated light, whose slots hold no block (R279), and in sky
windows (R297). Sixteen consecutive groups with uncorrectables on two or more lanes take the port DOWN. -/
def State.groupIn (s : State) (p : Part) (port : Nat) (g : RxGroup) : State :=
  if s.skyNow p port ∨ !(s.portUp p port || s.portState p port == 4) then s
  else if !g.lit then
    let l := s.link p port
    let k := (if l.rxIdle then { l with pend := l.pend.filter fun x => decide (g.start ≤ x.1) } else l).fillsTo g.start
    s.rxLink p port { k with rxIdle := true, badRun := none, pend := k.pend.filter fun x => decide (g.start + 8 * slotNs ≤ x.1) }
  else
    let n := slotOf g.start
    let l := s.link p port
    let k := (if l.rxIdle then { l with pend := l.pend.filter fun x => decide (g.start ≤ x.1) } else l).fillsTo (g.start + 8 * slotNs)
    let s2 := s.rxLink p port { k with rxIdle := false, align := if g.burst then n % 8 else l.align }
    if !s.portUp p port ∨ n % 8 ≠ (s2.link p port).align then s2
    else
      let s3 := (List.range 5).foldl (fun t c => t.placeIn p port g c) s2
      let run := nextBadRun (s.link p port).badRun g
      let s4 := s3.modLink p port fun l => { l with badRun := run, lost := l.lost.filter fun t => decide (s.now ≤ t + slotNs) }
      if run.any fun r => decide (16 ≤ r.2) then s4.causeDown p port 0x11 else s4

/-- Test patterns are received (R282): counted outside sky windows (R297) in a port that is up or in TEST. -/
def State.patternsIn (s : State) (p : Part) (port : Nat) (l : List RxPattern) : State :=
  if s.skyNow p port ∨ !(s.portUp p port || s.portState p port == 4) then s
  else l.foldl (fun t x => t.prbsIn p port x.wave x.bits) s

/-- Some consecutive codeword groups are received, and with them the bits of test patterns. -/
def State.groupsIn (s : State) (p : Part) (port : Nat) (l : List RxGroup) (x : List RxPattern) : State :=
  l.foldl (fun t g => t.groupIn p port g) (s.patternsIn p port x)

/-- Codeword-group alignment is lost (R278); its CAUSE is that of uncorrectable codewords (DEDUCED, log 28). -/
def State.misaligned (s : State) (p : Part) (port : Nat) : State := if s.watched p port then s.causeDown p port 0x11 else s

/-! ### Time exchanges (R212, R380-R382) -/

/-- Whether a port is the one that its part takes time from: TIM.CTL.PARENT, or ALTPARENT when the part has changed to it; a
Plocen's is its lowest up port whose far end is LOCKED (R379, R382). -/
def State.isParent (s : State) (p : Part) (port : Nat) : Bool :=
  match p with
  | .ronpex =>
    !s.flag .ronpex Reg.timCtl 0 && s.rp.time.source != 2
      && port == s.fld .ronpex Reg.timCtl (if s.rp.time.source = 1 then 16 else 8) 8
  | .plocen =>
    ((List.range 8).find? fun q => s.portUp .plocen q && (s.link .plocen q).farTime.any fun f => f.1) == some port

/-- A TIME event of the Ronpex (R390): case 1 LOCKED gained, 2 lost, 3 holdover, 4 a change of master (log 9). -/
def State.timeEvent (s : State) (p : Part) (case : Nat) : State :=
  if p = .ronpex then s.post (plainEvent s.now 0x32 (subcodeOf 0x32 case)) else s

/-- An exchange with the parent is complete (R381): offset and delay, LOCKED, and the steering of the part's clock. `twice` is 2θ, in
1/16 ns; TIM.OFFSET shows θ rounded down, and a part that is not LOCKED steps its time (DESIGN CHOICE, log 175). -/
def State.timeFrom (s : State) (p : Part) (port : Nat) (twice : Int) (delay depth : Nat) : State :=
  let t := s.timeSt p
  let good := if -16 ≤ twice ∧ twice ≤ 16 then min (t.good + 1) 16 else 0
  let bad := if twice < -64 ∨ 64 < twice then min (t.bad + 1) 3 else 0
  let locked := (t.locked || good == 16) && bad != 3
  let t' : TimeSt := { t with
    good := good, bad := bad, locked := locked, everLocked := t.everLocked || locked, holdover := none, parent := some port
    source := if t.source = 1 then 1 else 0, depth := min (depth + 1) 15, exchAt := some s.now, theta := twice / 2, delay := delay
    base := if t.locked then t.base else 0 }
  let s1 := s.setTimeSt p t'
  let (v, s2) := s1.draw
  let s3 := if p = .ronpex then s2.setReg .ronpex Reg.timFreq (v.toNat % 2 ^ 32) else s2
  if locked ∧ !t.locked then s3.timeEvent p 1 else if t.locked ∧ !locked then s3.timeEvent p 2 else s3

/-- A delay in slots (R212): rounded up, with one slot of margin; delays are in 1/16 ns. -/
def delaySlots (d : Nat) : Nat := (d + 63) / 64 + 1

/-- The link delay of a port, IN and OUT, as its registers hold it (R215, R216). -/
def State.linkDelay (s : State) (p : Part) (port : Nat) : Nat × Nat :=
  match p with
  | .ronpex => (s.fld .ronpex (Reg.drfLdly port) 0 8, s.fld .ronpex (Reg.drfLdly port) 8 8)
  | .plocen => (s.fld .plocen (Reg.epSeqWdly port) 8 8, s.fld .plocen (Reg.epSeqWdly port) 0 8)

/-- Both ends of a port agree on fabric time: the far end is LOCKED, and so is this part, or it is the master (R379, R381). -/
def State.timeAgreed (s : State) (p : Part) (port : Nat) : Bool :=
  (s.link p port).farTime.any (fun f => f.1) && ((s.timeSt p).locked || (p == .ronpex && s.flag .ronpex Reg.timCtl 0))

/-- The delay of each direction, in slots, is measured again while the port is up: three measurements in a row that differ from its
registers take it DOWN (R212, R278). -/
def State.delayAgain (s : State) (p : Part) (port slotsIn slotsOut : Nat) : State :=
  if !s.watched p port then s
  else if s.linkDelay p port = (slotsIn % 256, slotsOut % 256) then s.modLink p port fun l => { l with delayBad := 0 }
  else if (s.link p port).delayBad + 1 < 3 then s.modLink p port fun l => { l with delayBad := l.delayBad + 1 }
  else s.causeDown p port 0x14

/-- A SYNC arrives (R380, R381): it is stamped and answered. -/
def State.syncIn (s : State) (p : Part) (port seq : Nat) (locked master : Bool) (depth time16 recv16 : Nat) : State :=
  (s.modLink p port fun l => { l with syncGot := some (time16, recv16, seq), farTime := some (locked, master, depth) }).lmcPush p port
    [.rxstamp seq recv16]

/-- An RXSTAMP completes an exchange (R381): t1 and t2 of the SYNC received, t3 and t4 of the own SYNC. Where both ends agree on fabric
time, t2 - t1 is the delay in and t4 - t3 the delay out; in a training without that, half their sum is either (R212; DEDUCED, log 142). -/
def State.exchange (s : State) (p : Part) (port syncSeq time16 : Nat) : State :=
  match (s.link p port).syncSent, (s.link p port).syncGot with
  | some (q, t3), some (t1, t2, _) =>
    if q ≠ syncSeq then s
    else
      let twice : Int := ((t2 : Int) - t1) - ((time16 : Int) - t3)
      let delay : Nat := ((((t2 : Int) - t1) + ((time16 : Int) - t3)) / 2).toNat
      let both := (delaySlots ((t2 : Int) - t1).toNat, delaySlots ((time16 : Int) - t3).toNat)
      let s1 := s.modLink p port fun l => { l with
        syncSent := none, syncGot := none, exchAt := some s.now
        measured := if l.step ≠ 8 then l.measured else if s.timeAgreed p port then some both else some (delaySlots delay, delaySlots delay) }
      let s2 := match (s.link p port).farTime with
        | some (true, _, depth) => if s.isParent p port then s1.timeFrom p port twice delay depth else s1
        | _ => s1
      if s.timeAgreed p port then s2.delayAgain p port both.1 both.2 else s2
  | _, _ => s

end Sys2Proof.Machine
end

