-- ==== Sys2Proof/Machine/Dice.lean ====
section
/-! DEFINITION. What identifies a part (R322, R323, R404): its firmware slots, the secrets that its two DICE layers derive from them, and the
certificates and signatures of the Alias key. -/

namespace Sys2Proof.Machine

open Sys2Proof

/-! ### Firmware slots (R404) -/

/-- Bytes in a firmware slot. -/
def slotBytes : Nat := 32 * 2 ^ 20

/-- A byte of a slot. -/
def Security.slotByte (x : Security) (b : Bool) (i : Nat) : Byte := SMap.look (fun _ => 0) (if b then x.slotDataB else x.slotDataA) i

/-- `n` bytes of a slot. -/
def Security.slotRead (x : Security) (b : Bool) (o n : Nat) : List Byte := (List.range n).map fun i => x.slotByte b (o + i)

/-- A slot still holds what it held at manufacture. -/
def Security.isFactory (x : Security) (b : Bool) : Bool := if b then x.factory.2 else x.factory.1

/-- `x` with bytes stored in a slot. -/
def Security.slotWrite (x : Security) (b : Bool) (o : Nat) (d : List Byte) : Security :=
  if b then { x with slotDataB := memStore x.slotDataB o d, factory := (x.factory.1, false) }
  else { x with slotDataA := memStore x.slotDataA o d, factory := (false, x.factory.2) }

/-- `x` with a slot erased. -/
def Security.slotErase (x : Security) (b : Bool) : Security :=
  if b then { x with slotDataB := [], factory := (x.factory.1, false) } else { x with slotDataA := [], factory := (false, x.factory.2) }

/-- The body length that an image's header gives. -/
def Security.bodyLength (x : Security) (b : Bool) : Nat := leNat (x.slotRead b 12 4)

/-- The measurement of a slot's image: header and body; zero where the slot is empty (R326). -/
def Security.imageOf (x : Security) (p : Part) (b : Bool) : List Byte :=
  if x.isFactory b then leBytes 48 (Config.imageDigest (p == .plocen) b).toNat
  else if (if b then x.slotDataB else x.slotDataA).isEmpty then List.replicate 48 0
  else leBytes 48 (Config.sha384 (x.slotRead b 0 (min (512 + x.bodyLength b) slotBytes))).toNat

/-! ### The DICE layers (R322, R323) -/

/-- CDI_0 = HMAC-SHA-384(UDS, SHA-384(ROM)). -/
def cdi0 (p : Part) : BitVec 384 :=
  Config.hmacSha384 (leBytes 48 (Config.uds (p == .plocen)).toNat) (leBytes 48 (Config.romDigest (p == .plocen)).toNat)

/-- CDI_1 = HMAC-SHA-384(CDI_0, SHA-384(image)) with the image of the active slot: the Alias key, and all that it signs, changes with the
image. -/
def Security.cdi1 (x : Security) (p : Part) : BitVec 384 :=
  Config.hmacSha384 (leBytes 48 (cdi0 p).toNat) (x.imageOf p x.slotB)

/-- The serial number of a part. -/
def serialOf : Part → BitVec 64
  | .ronpex => Config.ronpexSerial
  | .plocen => Config.plocenSerial

/-- The certificate chain of slot 0: DeviceID, whose subject carries the serial number, then Alias, which carries the measurement of the
image that runs (R323). -/
def State.chain (s : State) (p : Part) : List Byte :=
  let x := s.sec p
  Config.certChain (cdi0 p) (x.cdi1 p) (serialOf p) (x.imageOf p x.slotB)

/-- The Alias key's signature over some bytes (R322, R330). -/
def State.aliasSign (s : State) (p : Part) (d : List Byte) : List Byte := Config.sign ((s.sec p).cdi1 p) d

/-! ### The key agreement of a link (R330, R331) -/

/-- The private key that a port forms for its n-th agreement. -/
def ephSecret (p : Part) (port n : Nat) : BitVec 384 := Config.ephemeral (p == .plocen) port n

/-- Its 97-byte public point. -/
def ephPoint (p : Part) (port n : Nat) : List Byte := sliceBytes (Config.ecPoint (ephSecret p port n)) 0 97

/-- HKDF-Extract with SHA-384: salt and input. -/
def hkdfExtract (salt ikm : List Byte) : List Byte := leBytes 48 (Config.hmacSha384 salt ikm).toNat

/-- HKDF-Expand of at most 48 bytes: its first block. -/
def hkdfExpand (prk info : List Byte) (n : Nat) : List Byte := (leBytes 48 (Config.hmacSha384 prk (info ++ [1])).toNat).take n

/-- The ASCII bytes "JADEL LINK" (R331). -/
def linkLabel : List Byte := [0x4A, 0x41, 0x44, 0x45, 0x4C, 0x20, 0x4C, 0x49, 0x4E, 0x4B]

/-- Key and salt of the direction from end X to end Y (R331): PRK from the transcript and Z, expanded under both serials and ports. -/
def linkKey (transcript : List Byte) (z : BitVec 384) (serialX : BitVec 64) (portX : Nat) (serialY : BitVec 64) (portY : Nat) : BitVec 288 :=
  let prk := hkdfExtract (leBytes 48 (Config.sha384 transcript).toNat) (leBytes 48 z.toNat)
  let info := linkLabel ++ leBytes 8 serialX.toNat ++ leBytes 1 portX ++ leBytes 8 serialY.toNat ++ leBytes 1 portY
  BitVec.ofNat 288 (leNat (hkdfExpand prk info 36))

end Sys2Proof.Machine
end

