-- ==== Sys2Proof/Machine/KeyOps.lean ====
section
/-! DEFINITION. Keys of a link and training (R212, R276-R278, R329-R334): key agreement, rekeying, frame tags, and the steps of
training, one of which agrees the keys. -/

namespace Sys2Proof.Machine

open Sys2Proof

/-- `s` with the keys of a port changed. -/
def State.modKeys (s : State) (p : Part) (port : Nat) (f : LinkKeys → LinkKeys) : State :=
  s.modLink p port fun l => { l with keys := f l.keys }

/-- TAGSTAT of a port. -/
def tagstatReg (p : Part) (port : Nat) : Nat :=
  match p with
  | .ronpex => Reg.secPTagstat port
  | .plocen => Reg.epSecPTagstat port

/-- REKEY of a part (R343): below 20 treated as 20, above 59 as 59. -/
def State.rekeyExp (s : State) (p : Part) : Nat :=
  min (max (s.fld p (match p with | .ronpex => Reg.secCfg | .plocen => Reg.epSecCfg) 8 6) 20) 59

/-! ### Objects in fragments (R330) -/

/-- The fragments of an object: its length in the first two bytes, then its bytes. -/
def keyFrags (sub : Nat) (obj : List Byte) : List LmcMsg :=
  let b := leBytes 2 obj.length ++ obj
  (List.range ((b.length + 7) / 8)).map fun i => .key sub i (sliceBytes b (8 * i) 8)

/-- Every byte of an object has come: its length is known and reached. -/
def keyWhole (b : List Byte) : Bool := decide (2 ≤ b.length) && decide (fieldNat b 0 2 + 2 ≤ b.length)

/-- The object in its received bytes. -/
def keyObject (b : List Byte) : List Byte := (b.drop 2).take (fieldNat b 0 2)

/-! ### Key agreement (R330, R331) -/

/-- The cause with which a failed agreement takes a port DOWN: that of training, or of rekeying (R330, R333). -/
def LinkKeys.failCause (k : LinkKeys) : Nat := if k.rekeyAt.isSome then 0x13 else 7

/-- Agreement fails: ABORT tells the far end, and once it is sent the port goes DOWN (R330). -/
def State.keysFailed (s : State) (p : Part) (port reason : Nat) : State :=
  let k := (s.link p port).keys
  if k.failed.isSome then s
  else (s.secError p (if k.rekeyAt.isSome then 2 else 1) port).modLink p port fun l => { l with
    lmcQ := .key 7 0 (leBytes 8 reason) :: l.lmcQ, keys := { l.keys with failed := some k.failCause } }

/-- The transcript of an agreement: both IDENT bodies and both EPH points by ascending serial, and for a rekey the hash before. -/
def State.transcript (s : State) (p : Part) (port : Nat) (far : Identity) : List Byte :=
  let own := s.ownIdentity p port
  let k := (s.link p port).keys
  let e := match k.own with
    | some n => ephPoint p port n
    | none => []
  let f := keyObject k.eph
  let first := decide (own.serial.toNat ≤ far.serial.toNat)
  (if first then identBody own ++ identBody far ++ e ++ f else identBody far ++ identBody own ++ f ++ e)
    ++ (if k.rekeyAt.isSome then k.prev else [])

/-- The own SIG goes out once the far EPH is known. -/
def State.sendSig (s : State) (p : Part) (port : Nat) : State :=
  let k := (s.link p port).keys
  match s.farIdentity p port with
  | none => s
  | some far =>
    if k.own.isNone || k.sigOut || !keyWhole k.eph then s
    else
      (s.modKeys p port fun x => { x with sigOut := true }).lmcPush p port
        (keyFrags 3 (s.aliasSign p (leBytes 48 (Config.sha384 (s.transcript p port far)).toNat)))

/-- An own ephemeral key is formed, and CERT (in training) and EPH go out. It is a fresh one each time, whatever has been reset (R331,
R334): the count of free values numbers it. -/
def State.beginKeys (s : State) (p : Part) (port : Nat) (cert : Bool) : State :=
  let n := s.free
  (({ s with free := n + 1 }.modKeys p port fun k => { k with own := some n, sigOut := false, accepted := false }).lmcPush p port
    ((if cert then keyFrags 1 (s.chain p) else []) ++ keyFrags 2 (ephPoint p port n))).sendSig p port

/-- The keys of both directions that an agreement derives (R331): transmit and receive. -/
def State.newKeys (s : State) (p : Part) (port : Nat) (far : Identity) : BitVec 288 × BitVec 288 :=
  let own := s.ownIdentity p port
  let t := s.transcript p port far
  let k := (s.link p port).keys
  let z := Config.ecdh (ephSecret p port (k.own.getD 0)) (keyObject k.eph)
  (linkKey t z own.serial own.port far.serial far.port, linkKey t z far.serial far.port own.serial own.port)

/-- The first frame boundary at least 4 frames ahead (R333). -/
def State.switchFrame (s : State) : Nat := s.frameAfter (4 * frameNs) % 2 ^ 32

/-- A rekey's generation, modulo 4,096 (R330). -/
def State.nextGen (s : State) (p : Part) (port : Nat) : Nat := (s.fld p (keygenReg p port) 0 16 + 1) % 4096

/-- The far end is accepted (R330): at training its keys are used at once, at a rekey they wait for F'. -/
def State.keysAgreed (s : State) (p : Part) (port : Nat) (far : Identity) : State :=
  let (a, b) := s.newKeys p port far
  let prev := leBytes 48 (Config.sha384 (s.transcript p port far)).toNat
  let rekeying := (s.link p port).keys.rekeyAt.isSome
  let s1 := s.modKeys p port fun k => { k with prev := prev, own := none, eph := [], sig := [], sigOut := false, accepted := true }
  if rekeying then
    s1.modKeys p port fun k => { k with
      fresh := some (a, b), switch := if k.starter then some (s.nextGen p port, s.switchFrame, false) else k.switch }
  else
    (s1.satFld p (keygenReg p port) 0 16 1).modKeys p port fun k => { k with
      tx := some a, rx := some b, txCnt := 0, rxCnt := 0, txTag := 0, rxTag := 0, rxNext := none, old := none }

/-- Agreement is in progress: in training step 7, or in a rekey. -/
def State.agreeing (s : State) (p : Part) (port : Nat) : Bool :=
  (s.link p port).keys.failed.isNone
    && ((s.portState p port == 1 && (s.link p port).step == 7) || (s.portUp p port && (s.link p port).keys.rekeyAt.isSome))

/-- The far end's SIG, EPH and CERT are checked once they are whole (R330). -/
def State.checkSig (s : State) (p : Part) (port : Nat) : State :=
  let k := (s.link p port).keys
  match s.farIdentity p port with
  | none => s
  | some far =>
    if !s.agreeing p port || k.own.isNone || !keyWhole k.sig || !keyWhole k.eph || !keyWhole k.cert then s
    else
      let chain := keyObject k.cert
      if !Config.chainVerifies chain then s.keysFailed p port 1
      else if Config.chainSerial chain ≠ far.serial then s.keysFailed p port 3
      else if !Config.signatureVerifies chain (leBytes 48 (Config.sha384 (s.transcript p port far)).toNat) (keyObject k.sig) then s.keysFailed p port 2
      else s.keysAgreed p port far

/-- A fragment of CERT. -/
def State.certIn (s : State) (p : Part) (port f : Nat) (d : List Byte) : State :=
  if s.portState p port = 1 then
    (s.modKeys p port fun k => { k with cert := spliceBytes k.cert (8 * f) (sliceBytes d 0 8) }).checkSig p port
  else s

/-- A fragment of EPH; while the port is up it starts a rekey that the far end began (R333). -/
def State.ephIn (s : State) (p : Part) (port f : Nat) (d : List Byte) : State :=
  let k := (s.link p port).keys
  if s.portState p port ≠ 1 ∧ !s.portUp p port then s
  else
    let s1 := s.modKeys p port fun x => { x with eph := spliceBytes x.eph (8 * f) (sliceBytes d 0 8) }
    let s2 := if s.portUp p port ∧ k.rekeyAt.isNone ∧ k.tx.isSome then
        (s1.modKeys p port fun x => { x with rekeyAt := some s.now, starter := false }).beginKeys p port false
      else s1
    (s2.sendSig p port).checkSig p port

/-- A fragment of SIG. -/
def State.sigIn (s : State) (p : Part) (port f : Nat) (d : List Byte) : State :=
  if s.portState p port = 1 ∨ s.portUp p port then
    (s.modKeys p port fun k => { k with sig := spliceBytes k.sig (8 * f) (sliceBytes d 0 8) }).checkSig p port
  else s

/-- ABORT ends the agreement in progress. -/
def State.abortIn (s : State) (p : Part) (port : Nat) : State :=
  if s.agreeing p port then
    let k := (s.link p port).keys
    (s.secError p (if k.rekeyAt.isSome then 2 else 1) port).portDown p port k.failCause
  else s

/-! ### Rekeying (R333, R334) -/

/-- A transmit counter has reached 2^REKEY: a rekey starts. -/
def State.rekey (s : State) (p : Part) (port : Nat) : State :=
  let k := (s.link p port).keys
  if s.portUp p port ∧ k.tx.isSome ∧ k.rekeyAt.isNone ∧ 2 ^ s.rekeyExp p ≤ k.txCnt then
    (s.modKeys p port fun x => { x with rekeyAt := some s.now, starter := true, eph := [], sig := [] }).beginKeys p port false
  else s

/-- SWITCH names F'; a port with the new keys acknowledges it. -/
def State.switchIn (s : State) (p : Part) (port gen frame : Nat) : State :=
  if s.portUp p port ∧ (s.link p port).keys.fresh.isSome then
    (s.modKeys p port fun k => { k with switch := some (gen, frame, true) }).lmcPush p port [.key 5 gen (leBytes 8 frame)]
  else s

/-- SWITCH_ACK ends the repetition of SWITCH. -/
def State.switchAckIn (s : State) (p : Part) (port gen frame : Nat) : State :=
  s.modKeys p port fun k => { k with switch := k.switch.map fun x => if x.1 = gen ∧ x.2.1 = frame then (gen, frame, true) else x }

/-- From F' both directions use the new keys with counters at 0 (R333): what is received from the slot on that was sent in F' (R212). An end
that acknowledged keeps the old keys by until its first 4 blocks have been looked at (`LinkKeys.probe`). -/
def State.keySwitch (s : State) (p : Part) (port : Nat) : State :=
  let l := s.link p port
  let k := l.keys
  match k.fresh, k.switch with
  | some (a, b), some (_, f, true) =>
    if frameDue s.now f ∧ s.portUp p port then
      let was : OldKeys := { tx := k.tx.getD 0, rx := k.rx.getD 0, txCnt := k.txCnt, rxCnt := k.rxCnt, gen := s.fld p (keygenReg p port) 0 16
                             since := k.rekeyAt.getD s.now, fresh := (a, b), tried := 0 }
      (s.satFld p (keygenReg p port) 0 16 1).modKeys p port fun x => { x with
        tx := some a, txCnt := 0, rxNext := some (b, s.now + slotNs * l.delayIn), old := if k.starter then none else some was
        fresh := none, switch := none, rekeyAt := none, starter := false }
    else s
  | _, _ => s

/-- No acknowledgement 1 us before F': a new SWITCH with a later F'. -/
def State.switchRetry (s : State) (p : Part) (port : Nat) : State :=
  let k := (s.link p port).keys
  match k.switch with
  | some (g, f, false) =>
    if k.starter ∧ frameTime s.now f ≤ s.now + 1000 then
      s.modKeys p port fun x => { x with switch := some (g, s.switchFrame, false) }
    else s
  | _ => s

/-- A rekey that has not completed in 10 ms takes the port DOWN. -/
def State.rekeyOver (s : State) (p : Part) (port : Nat) : State :=
  match (s.link p port).keys.rekeyAt with
  | none => s
  | some t => if t + 10000000 ≤ s.now ∧ !s.skyNow p port then (s.secError p 2 port).causeDown p port 0x13 else s

/-! ### Frame tags (R332) -/

/-- A FRAMETAG is compared with the tags received in its frame. One whose CRC fails, and a frame with an uncorrectable codeword,
is unchecked. -/
def State.frameTag (s : State) (p : Part) (port : Nat) (ok : Bool) (low : Nat) (tag : BitVec 64) : State :=
  let k := (s.link p port).keys
  if !s.lmcRuns p port ∨ s.skyNow p port then s
  else if !ok then s.satFld p (tagstatReg p port) 16 16 1
  else match k.rxDone.find? fun x => x.1 % 4096 == low with
    | none => s
    | some (f, x, clean) =>
      let s1 := s.modKeys p port fun y => { y with rxDone := y.rxDone.filter fun z => z.1 != f }
      if !clean then s1.satFld p (tagstatReg p port) 16 16 1
      else if x.toNat % 2 ^ 64 = tag.toNat then s1
      else
        let bad := k.bad.filter (fun g => decide (f < g + 64)) ++ [f]
        let s2 := ((s1.satFld p (tagstatReg p port) 0 16 1).pcond p 0x0C 6 0 port 0 0 (f % 2 ^ 32) 0).secError p 0 port
        let s3 := s2.modKeys p port fun y => { y with bad := bad }
        if 3 ≤ bad.length then s3.causeDown p port 0x13 else s3

/-! ### Training (R276, R278) -/

/-- The limit of each training step, ns. -/
def stepLimit (k : Nat) : Nat := [0, 10000000, 100000, 10000, 2000000, 20000, 60000000, 10000000, 1000000].getD k 0

/-- An end enters a step (R276): in step 4 its receiver tunes all nine modulated wavelengths, and in step 7 it begins the key agreement. -/
def State.enterStep (s : State) (p : Part) (port k : Nat) : State :=
  let s1 := s.modLink p port fun l => { l with step := k, stepAt := s.now, checkers := [] }
  if k = 4 then s1.tuneWls p port ((List.range 10).filter fun w => w != 4)
  else if k = 7 then s1.beginKeys p port true
  else s1

/-- A step is entered only once the receivers of both ends have finished the step before it, as their STATE messages say (R276). -/
def State.stepOn (s : State) (p : Part) (port : Nat) : State :=
  let l := s.link p port
  if s.portState p port = 1 ∧ l.step < l.rxStep ∧ l.step < l.farStep then s.enterStep p port (l.step + 1) else s

/-- The own receiver has finished the present step, and reports the next one in STATE (R276). -/
def State.receiverOn (s : State) (p : Part) (port : Nat) : State :=
  let k := (s.link p port).step + 1
  if (s.link p port).rxStep = k then s
  else ((s.modLink p port fun l => { l with rxStep := k }).lmcPush p port [.state k]).stepOn p port

/-- STATE of the far receiver (R276). -/
def State.farStateIn (s : State) (p : Part) (port step : Nat) : State :=
  (s.modLink p port fun l => { l with farStep := step }).stepOn p port

/-- Measured delays of a training that differ from the compiled ones of the draft in effect (R212): the port's warp entries are
IDLE until the next activation, and a PLANE_OUT order is issued for every skein that has warp on the port. -/
def State.delayCheck (s : State) (port : Nat) : State :=
  match s.portLogical port with
  | none => s
  | some l =>
    let want := (s.rdHeader (l / 12) s.rdSlot (16 + 2 * (l % 12)), s.rdHeader (l / 12) s.rdSlot (17 + 2 * (l % 12)))
    if !s.running ∨ want = s.linkDelay .ronpex port then s
    else
      let o := s.newOrder 2 0 1 port (s.gen port) 12000 (s.portWarp port) []
      let e : Event := { draftEvent s.now 3 0 0 0 with
        unitType := 1, unit := port, gen := s.gen port
        arg := 3 + 2 ^ 32 * (s.linkDelay .ronpex port).1 + 2 ^ 40 * (s.linkDelay .ronpex port).2 }
      let s1 := (s.modWarp fun w => { w with idle := port :: w.idle.filter fun q => q != port }).postFor e 1 (s.portSkeins port)
      if o.skeins = 0 then s1 else s1.issueOrder o

/-- Training ends (R276, R283): the port is UP, or in TEST with MODE 2. A port unit that was fenced because its port was DOWN goes on to
quarantine (R345, R361, R448). -/
def State.trained (s : State) (p : Part) (port delayIn delayOut : Nat) : State :=
  let a := psBase p port
  let mode := s.fld p a 0 2
  let s1 := match p with
    | .ronpex => s.setReg .ronpex (Reg.drfLdly port) (delayIn % 256 + 256 * (delayOut % 256))
    | .plocen => s.setReg .plocen (Reg.epSeqWdly port) (delayOut % 256 + 256 * (delayIn % 256))
  let s2 := (s1.setFld p (a + 4) 0 3 (if mode = 2 then 4 else 2)).modLink p port fun l => { l with
    step := 0, rxStep := 0, farStep := 0, checkers := [], delayIn := delayIn % 256, delayOut := delayOut % 256, delayBad := 0, busy := [], busyNow := 0
    pend := [], keys := { l.keys with rxFrom := s.now + slotNs * (delayIn % 256), rxFrame := frameOf s.now, rxTag := 0, rxClean := true, txTag := 0 } }
  match p with
  | .plocen => s2
  | .ronpex =>
    let s3 := s2.showUnits false [416 + port]
    let s4 := if mode ≠ 2 ∧ s3.unitState port = 1 ∧ s3.unitCause port = 2 then s3.quarantine port else s3
    (s4.delayCheck port).sendAssign port

/-- Errors of step 6 by wavelength: they join PRBSERR. -/
def State.testErrors (s : State) (p : Part) (port : Nat) (errors : List Nat) : State :=
  ((errors.take 10).zipIdx.filter fun x => x.2 != 4).foldl (fun t x => t.satFld p (psBase p port + 0x80 + 4 * x.2) 0 32 x.1) s

/-- A training step is finished at the own receiver (R276): the next one is entered once the far receiver has finished it too, and after
step 8 the port is UP, with the delay that the exchanges of step 8 measured (R380), or else that the training frames did (R212; log 142).
Step 3 needs an IDENT of this training, and step 6 at most 10,000 errors on every data wavelength; a spare with
more is marked failed. -/
def State.stepDone (s : State) (p : Part) (port delayIn delayOut : Nat) (errors : List Nat) : State :=
  let a := psBase p port
  let l := s.link p port
  if s.portState p port ≠ 1 then s
  else
    match l.step with
    | 1 => (s.setFlag p (a + 4) 3 false).receiverOn p port
    | 3 => if l.identGot then s.receiverOn p port else s
    | 4 =>
      let t := signed 8 (s.engineTemp p port)
      (((List.range 10).filter fun w => w != 4).foldl (fun u w => u.stamp p port w l.cls t) s).receiverOn p port
    | 6 =>
      let s1 := if l.rxStep = 6 then s.testErrors p port errors else s
      if (s.dataWls p port).any fun w => decide (10000 < errors.getD w 0) then s1
      else (s1.setFlag p (a + 0xC) 4 (decide (10000 < errors.getD (s.fld p (a + 0xC) 0 4) 0))).receiverOn p port
    | 7 => if l.keys.accepted then (s.modKeys p port fun k => { k with accepted := false }).receiverOn p port else s
    | 8 =>
      let d := l.measured.getD (delayIn, delayOut)
      s.trained p port d.1 d.2
    | 2 | 5 => s.receiverOn p port
    | _ => s

/-- A training step exceeds its limit: DOWN with the step as CAUSE; a failed key agreement says so (R330). -/
def State.stepTimeout (s : State) (p : Part) (port : Nat) : State :=
  let l := s.link p port
  if s.portState p port ≠ 1 ∨ s.now < l.stepAt + stepLimit l.step then s
  else if l.step = 7 then s.keysFailed p port 4
  else s.portDown p port l.step

/-- A DOWN port with MODE 1 trains again 100 ms after it went down. -/
def State.downAgain (s : State) (p : Part) (port : Nat) : State :=
  match (s.link p port).downAt with
  | none => s
  | some t =>
    if s.portState p port = 5 ∧ s.fld p (psBase p port) 0 2 = 1 ∧ t + 100000000 ≤ s.now ∧ (p = .plocen ∨ !s.regionOff (portEngine port)) then
      s.startTraining p port
    else s

/-! ### MODE and CLR of a port (R275, R277, R299) -/

/-- MODE: 3 is treated as 0. -/
def modeOf (v : Nat) : Nat := if v % 4 = 3 then 0 else v % 4

/-- A port is turned off. -/
def State.portOff (s : State) (p : Part) (port : Nat) : State :=
  let s1 := (s.setFld p (psBase p port + 4) 0 3 0).modLink p port Link.stopped
  if s.portUp p port then s1.portGone p port
  else match p with
    | .ronpex => s1.showUnits false [416 + port]
    | .plocen => s1

/-- CORR, UNCORR and PRBSERR of a port are cleared. -/
def State.clearCounters (s : State) (p : Part) (port : Nat) : State :=
  let a := psBase p port
  (List.range 10).foldl (fun t w => (t.setReg p (a + 0x50 + 4 * w) 0).setReg p (a + 0x80 + 4 * w) 0) (s.setReg p (a + 0x78) 0)

/-- A write of a port's CTL: a port that is off or MISWIRED, or whose MODE changes, trains. -/
def State.portCtl (s : State) (p : Part) (port v : Nat) : State :=
  let a := psBase p port
  let old := modeOf (s.reg p a)
  let st := s.portState p port
  let s1 := s.setReg p a (v % 16)
  let s2 := if bit 4 v then s1.clearCounters p port else s1
  if modeOf v = 0 then (if st = 0 then s2 else s2.portOff p port)
  else if p = .ronpex ∧ s.regionOff (portEngine port) then s2
  else if st = 0 ∨ st = 6 then s2.startTraining p port
  else if modeOf v ≠ old then (s2.portOff p port).startTraining p port
  else s2

/-! ### The next LMC message (R268, R332, R333, R380) -/

/-- Which message goes next, and the link after it. -/
def State.lmcNext (s : State) (p : Part) (port : Nat) : LmcMsg × Link :=
  let l := s.link p port
  let up := s.portUp p port || s.portState p port == 4
  let isTag : LmcMsg → Bool := fun m => match m with
    | .key 6 _ _ => true
    | _ => false
  let since (t : Option Nat) (d : Nat) : Bool := match t with
    | none => true
    | some u => decide (u + d ≤ s.now)
  let tag := if 100 ≤ s.now % frameNs then l.lmcQ.find? isTag else none
  let t := s.timeSt p
  let sync : LmcMsg := .sync t.locked (t.source == 2) t.depth (16 * s.partNow p)
  let own := s.ownIdentity p port
  let power (first : Nat) : List Int := (List.range 5).map fun i => signed 16 (s.fld p (psBase p port + 0x20 + 4 * (first + i)) 0 16)
  let sent : Link := { l with syncAt := some s.now, syncSent := some (l.lmcSeq, 16 * s.partNow p) }
  let abort := if l.keys.failed.isSome then l.lmcQ.head? else none
  match tag.or abort with
  | some m => (m, { l with lmcQ := l.lmcQ.erase m })
  | none =>
    match l.swap with
    | some ⟨lane, reason, frame, true, false⟩ => (.swapReq lane reason frame, l)
    | _ =>
      match l.lmcQ.find? fun m => !isTag m with
      | some m => (m, { l with lmcQ := l.lmcQ.erase m })
      | none =>
        match l.keys.starter, l.keys.switch with
        | true, some (g, f, false) => (.key 4 g (leBytes 8 f), l)
        | _, _ =>
          if up && since l.identAt 1000000000 then (.ident own, { l with identAt := some s.now })
          else if l.pwrB then (.pwr true (power 5), { l with pwrB := false })
          else if (up || decide (3 ≤ l.rxStep)) && since l.pwrAt 1000000 then (.pwr false (power 0), { l with pwrB := true, pwrAt := some s.now })
          else if (l.step = 8 && l.syncAt != l.lmcAt) || (up && since l.syncAt 1000000) then (sync, sent)
          else if s.portState p port = 1 then (.ident own, { l with identAt := some s.now })
          else (.idle, l)

/-- A message is ABORT. -/
def LmcMsg.isAbort : LmcMsg → Bool
  | .key 7 _ _ => true
  | _ => false

/-- At each message boundary the pending message goes out; in a sky window messages wait (R268, R297). With ABORT sent, the port of a failed
agreement goes DOWN (R330). -/
def State.lmcSend (s : State) (p : Part) (port : Nat) : State :=
  let l := s.link p port
  let due := match l.lmcAt with
    | none => true
    | some t => decide (5 * t + 8192 ≤ 5 * s.now)
  if !s.lmcRuns p port || !due || s.skyNow p port then s
  else
    let (m, k) := s.lmcNext p port
    let s1 := (s.setLink p port { k with lmcAt := some s.now, lmcSeq := (l.lmcSeq + 1) % 256 }).emit
      (.lmc p port l.lmcSeq m (manchester (lmcFrame m.wire.1 l.lmcSeq m.wire.2)))
    match l.keys.failed with
    | some cause => if m.isAbort then s1.portDown p port cause else s1
    | none => s1

end Sys2Proof.Machine
end

