-- ==== Sys2Proof/Machine/LightOps.lean ====
section
/-! DEFINITION. What a port's transmitter sends (R265, R270-R276, R279-R283, R298, R329): codeword groups, test patterns, exit bursts, and
low-power idle. -/

namespace Sys2Proof.Machine

open Sys2Proof

/-! ### Codeword groups (R271, R272, R329) -/

/-- Where in its codeword group the present slot lies (R272, R280). -/
def State.groupPos (s : State) (p : Part) (port : Nat) : Nat := (s.now - (s.link p port).groupAt) / slotNs % 8

/-- The wavelengths that are modulated: all but the clock (R265, R282). -/
def modulatedWls : List Nat := (List.range 10).filter fun w => w != 4

/-- The 800 bytes of a slot join the codeword group in progress; a slot of it that carried none counts as zeros. With the last slot each
lane's five codewords go out on its wavelength. -/
def State.lineOut (s : State) (p : Part) (port : Nat) (b : List Byte) : State :=
  let pos := s.groupPos p port
  let before := if pos = 0 then [] else (s.link p port).txGroup
  let g := before ++ List.replicate (pos - before.length) (List.replicate 800 0) ++ [b]
  if pos < 7 then s.modLink p port fun l => { l with txGroup := g }
  else
    (List.range 8).foldl (fun t lane => t.emit (.line p port (s.laneWl p port lane) (groupLevels lane g)))
      (s.modLink p port fun l => { l with txGroup := [] })

/-- A block leaves a port in the present slot: it is encrypted, the transmit counter advances, and the block's tag joins those of its
frame. A counter that would be 2^60 or more takes the port DOWN (R334). -/
def State.sendBlock (s : State) (p : Part) (port : Nat) (b : Block) : State :=
  let k := (s.link p port).keys
  match k.tx with
  | none => (s.lineOut p port (blockBytes b)).emit (.block p port b)
  | some key =>
    if 2 ^ 60 ≤ k.txCnt then (s.secError p 2 port).causeDown p port 0x13
    else ((s.modKeys p port fun x => { x with
      txCnt := x.txCnt + 1, txTag := x.txTag ^^^ blockTag key x.txCnt (blockBytes b) }).lineOut p port
        (blockCipher key k.txCnt (blockBytes b))).emit (.block p port b)

/-- Fill codeword slots in a row, and slots with containers, are counted (R281, R289). -/
def State.countSlot (s : State) (p : Part) (port : Nat) (fill busy : Bool) : State :=
  s.modLink p port fun l => { l with fillRun := if fill then l.fillRun + 1 else 0, busyNow := l.busyNow + ofBool busy }

/-- A fill block in a weft slot (R274, R281). -/
def State.weftFill (s : State) (p : Part) (port : Nat) : State := (s.countSlot p port true false).sendBlock p port .fill

/-- A fill block in an idle slot (R25). -/
def State.idleFill (s : State) (p : Part) (port : Nat) : State := (s.countSlot p port false false).sendBlock p port .fill

/-- A container or cell. -/
def State.sendBusy (s : State) (p : Part) (port : Nat) (b : Block) : State := (s.countSlot p port false true).sendBlock p port b

/-! ### Test patterns and bursts (R265, R276, R282, R283, R298) -/

/-- Where the generator of a pattern for a wavelength is kept. -/
def genKey (k : Prbs) (w : Nat) : Nat := if k = .p31 then 16 + w else w

/-- The register of a wavelength's generator of a pattern: until it has run, the seed (which no rule gives; log 147). -/
def State.genOf (s : State) (p : Part) (port : Nat) (k : Prbs) (w : Nat) : Nat :=
  SMap.look (fun i => Config.prbsSeed i % 2 ^ k.len) (s.link p port).gens (genKey k w)

/-- The 425 UI of a pattern that a wavelength sends in the present slot; `restart` where the pattern starts afresh with each codeword
group. -/
def State.patternOut (s : State) (p : Part) (port : Nat) (k : Prbs) (restart : Bool) (w : Nat) : State :=
  if restart then
    let r := Config.prbsSeed (genKey k w) % 2 ^ k.len
    s.emit (.line p port w (k.levels 425 (k.run (850 * s.groupPos p port) r).2).1)
  else
    let (l, r) := k.levels 425 (s.genOf p port k w)
    (s.modLink p port fun x => { x with gens := SMap.set x.gens (genKey k w) r }).emit (.line p port w l)

/-- What a port sends in a slot beside blocks: in training PRBS13, from step 5 restarted with each codeword group, and from step 6 PRBS31
(R276; steps 2-4, 7 and 8 DEDUCED, log 147); in TEST the pattern of CTL.PRBS (R283); and while it is UP, PRBS31 on the spare (R265). With
its clock stopped it sends nothing (R348). -/
def State.patternSlot (s : State) (p : Part) (port : Nat) : State :=
  let l := s.link p port
  let a := psBase p port
  if l.clockOff then s
  else match s.portState p port with
  | 1 =>
    let k : Prbs := if l.step < 6 then .p13 else .p31
    modulatedWls.foldl (fun t w => t.patternOut p port k (l.step == 5) w) s
  | 4 =>
    let k : Prbs := if s.fld p a 2 2 = 1 then .p13 else .p31
    modulatedWls.foldl (fun t w => t.patternOut p port k false w) s
  | 2 => if l.lpiExit.isSome ∨ s.skyNow p port then s else s.patternOut p port .p31 false (s.fld p (a + 0xC) 0 4)
  | _ => s

/-- The exit burst on every modulated wavelength (R280, R282). -/
def State.burstOut (s : State) (p : Part) (port : Nat) : State :=
  modulatedWls.foldl (fun t w => t.emit (.line p port w exitBurst)) s

/-- The deskew burst of a sky run (R298): PRBS13 on every modulated wavelength, restarted at every 8-slot boundary. -/
def State.deskewOut (s : State) (p : Part) (port : Nat) : State :=
  modulatedWls.foldl (fun t w => t.patternOut p port .p13 true w) (s.modLink p port fun l => { l with txGroup := [] })

/-! ### Low-power idle (R279-R281) -/

/-- Use of the transmit side of a port of either part at time `t`: 0 weft, 1 warp, 2 idle, 3 sky. -/
def State.txUseAt (s : State) (p : Part) (t port : Nat) : Nat :=
  match p with
  | .ronpex => s.txAt t port
  | .plocen => entryTx (s.ptNow t port)

/-- The same with what takes effect at the next frame boundary, where that lies before `t`. -/
def State.txUseSoon (s : State) (p : Part) (t port : Nat) : Nat :=
  if frameOf t = frameOf s.now then s.txUseAt p t port
  else
    let s1 : State := { s with now := nextFrame s.now }
    match p with
    | .ronpex => (s1.loadMaps.rpOrdersDue.rpActivate).txUseAt p t port
    | .plocen => (s1.epActivate.epOrdersDue).txUseAt p t port

/-- The run of IDLE slots of the present frame that the present slot lies in: its first slot and the slot after its last. -/
def State.idleRun (s : State) (p : Part) (port : Nat) : Nat × Nat :=
  let n := slotOf s.now
  let t0 := s.now - slotNs * n
  let idle (m : Nat) : Bool := s.txUseAt p (t0 + slotNs * m) port == 2
  let before := ((List.range n).reverse.takeWhile idle).length
  let after := (((List.range (frameSlots - n)).map (n + ·)).takeWhile idle).length
  (n - before, n + after)

/-- A warp slot, or a sky slot of a Plocen, comes within 10 slots: a port that left LPI now would be just in time for the last of them (R24,
R280). -/
def State.warpSoon (s : State) (p : Part) (port : Nat) : Bool :=
  (List.range 10).any fun i =>
    let u := s.txUseSoon p (s.now + slotNs * (i + 1)) port
    u == 1 || (u == 3 && p == .plocen)

/-- A port in LPI begins to leave it (R279-R281): in time for a warp slot; by R281 once a container is ready; in a draft's run of IDLE
slots 10 slots before the run ends, or when LPI_EN is cleared. -/
def State.lpiLeaves (s : State) (p : Part) (port : Nat) (ready : Bool) : Bool :=
  let idle (t : Nat) : Bool := s.txUseSoon p t port == 2
  s.warpSoon p port
    || (if (s.link p port).weftLpi.isSome then ready
        else !s.optCtl p port 0 || !idle s.now || !idle (s.now + 10 * slotNs))

/-- Whether the present slot of a port may carry a block, with its low-power idle state one slot on (R280): data resume 10 slots after the
modulators are turned on, directly after the exit burst, and a new codeword group starts with them. Where a sky window that is waited for
no longer is one, they resume in 10 slots. -/
def State.lpiStep (s : State) (p : Part) (port : Nat) (ready : Bool) : Bool × State :=
  match (s.link p port).lpiExit with
  | some t =>
    if t ≤ s.now then
      (true, s.modLink p port fun l => { l with lpiExit := none, groupAt := s.now, txGroup := [], fillRun := 0 })
    else if t ≤ s.now + slotNs then (false, s.burstOut p port)
    else if s.now + 10 * slotNs < t ∧ !s.skyNow p port then
      (false, s.modLink p port fun l => { l with lpiExit := some (s.now + 10 * slotNs) })
    else (false, s)
  | none =>
    if s.portState p port ≠ 3 then (true, s)
    else if s.lpiLeaves p port ready then
      (false, (s.setFld p (psBase p port + 4) 0 3 2).modLink p port fun l =>
        { l with weftLpi := none, lpiExit := some (s.now + 10 * slotNs) })
    else (false, s)

/-- An IDLE slot (R25, R279): in a run of at least 32 with LPI_EN set, the port enters LPI once the codeword group in progress has been
finished with fill. -/
def State.idleSlot (s : State) (p : Part) (port : Nat) (ready : Bool) : State :=
  let (may, s1) := s.lpiStep p port ready
  let (a, b) := s.idleRun p port
  if !may then s1.countSlot p port false false
  else if s1.optCtl p port 0 ∧ a + 32 ≤ b ∧ s1.groupPos p port = 0 ∧ slotOf s.now + 10 < b then
    (s1.countSlot p port false false).setFld p (psBase p port + 4) 0 3 3
  else s1.idleFill p port

/-- A port with WEFT_LPI set enters LPI after 8 whole codeword groups of fill (R281), unless a warp slot comes before it could leave (R24); one
whose seal map holds a sealed entry does not (R314). -/
def State.fillLpi (s : State) (p : Part) (port : Nat) : State :=
  let set := s.optCtl p port 1 || (p == .ronpex && s.rp.power.optLpi)
  let kept := p == .ronpex && (List.range 64).any fun n => bit 7 (bits (8 * (n % 4)) 8 (s.reg .ronpex (clusterBase (portCluster port)
    + 0x50000 + 0x40 * (port % 4) + 4 * (n / 4))))
  if s.portState p port = 2 ∧ set ∧ 64 ≤ (s.link p port).fillRun ∧ s.groupPos p port = 0 ∧ !kept ∧ (s.link p port).lpiExit.isNone
      ∧ s.txUseAt p s.now port ≠ 1 ∧ !s.warpSoon p port then
    (s.setFld p (psBase p port + 4) 0 3 3).modLink p port fun l => { l with weftLpi := some s.now }
  else s

/-! ### Sky runs (R297, R298) -/

/-- A sky slot of the Ronpex: its transmitter is disconnected, and its first modulated slot after the trailing window is preceded by the
exit burst. A port that was in LPI is not in it any more: it transmits again from that slot on (R24). -/
def State.skySlot (s : State) (port : Nat) : State :=
  let s := if s.portState .ronpex port = 3 then
      (s.setFld .ronpex (psBase .ronpex port + 4) 0 3 2).modLink .ronpex port fun l => { l with weftLpi := none }
    else s
  s.modLink .ronpex port fun l => { l with lpiExit := some (s.now + 501 * slotNs), txGroup := [] }

/-- Before a sky run a port of the Plocen saves its alignment to the Ronpex and aligns to the frame's 8-slot boundaries, and after the run
it restores it. -/
def State.skyAlign (s : State) (port rx : Nat) : State :=
  match (s.link .plocen port).alignSaved with
  | none => if rx = 3 then s.modLink .plocen port fun l => { l with alignSaved := some l.align, align := 0 } else s
  | some a => if rx = 3 then s else s.modLink .plocen port fun l => { l with alignSaved := none, align := a }

/-- Before a sky run a port of the Plocen saves where its codeword groups toward the Ronpex began, and after the run it goes on with them; in
the run they follow the frame's 8-slot boundaries (R298). -/
def State.skyGroups (s : State) (port tx : Nat) : State :=
  match (s.link .plocen port).groupSaved with
  | none => if tx = 3 then s.modLink .plocen port fun l => { l with groupSaved := some l.groupAt, groupAt := 0, txGroup := [] } else s
  | some g => if tx = 3 then s else s.modLink .plocen port fun l => { l with groupSaved := none, groupAt := g, txGroup := [] }

/-- After its sky windows a port that has reached the last count of the sky key goes DOWN (R297, R334, R335). -/
def State.skyOut (s : State) (port : Nat) : State :=
  (s.setSec .plocen { s.ep.sec with skyOver := s.ep.sec.skyOver.filter fun q => q != port }).portDown .plocen port 0x13

/-- A sky cell leaves port `j` of the Plocen (R335): it is encrypted end to end under the sky key with this end's salt, its tag joins those of
the run, and the tag cell starts the next run's. At 2^60 cells the port stops, and it goes DOWN once no sky window forbids it (R297, R334). -/
def State.skySend (s : State) (j n ph : Nat) : State :=
  match s.skyKey j (s.ownNode .plocen), s.skyCell j n ph with
  | some key, some c =>
    let cnt := SMap.look (fun _ => 0) s.ep.sec.skyCnt j
    let tag := SMap.look (fun _ => 0) s.ep.warp.skyTx j ^^^ blockTag key cnt (cellBytes c)
    if 2 ^ 60 ≤ cnt then (if s.ep.sec.skyOver.contains j then s
      else (s.secError .plocen 2 j).setSec .plocen { s.ep.sec with skyOver := j :: s.ep.sec.skyOver })
    else
      (((s.modEw fun w => { w with skyTx := SMap.put (fun _ => 0) w.skyTx j (if c.cell = 0xFFFF then 0 else tag) }).setSec .plocen
        { s.ep.sec with skyCnt := SMap.put (fun _ => 0) s.ep.sec.skyCnt j (cnt + 1) }).lineOut .plocen j
          (blockCipher key cnt (cellBytes c))).emit (.block .plocen j (.warp c))
  | _, _ => s

end Sys2Proof.Machine
end

