-- ==== Sys2Proof/Machine/LaserOps.lean ====
section
/-! DEFINITION. Lasers and feeds (R286, R290-R296, R299-R301, R399, R410): accesses of the modules, bias ageing, feed moves and
failed emitters. -/

namespace Sys2Proof.Machine

open Sys2Proof

/-! ### What a laser module feeds (R291, R318) -/

/-- The module that feeds wavelength `w` of an engine: the primary, or the standby where the engine has moved (R291). -/
def State.feedModule (s : State) (e w : Nat) : Nat :=
  if s.flag .ronpex (engineBase e + 4) w then (e / 4 + 1) % 4 else e / 4

/-- ACTIVE skeins that have a port, or a route, through an optical engine (R318). -/
def State.engineSkeins (s : State) (e : Nat) : List Nat := s.unitsSkeins (regionPorts e)

/-- ACTIVE skeins that have a port, or a route, through an engine to which a module feeds a wavelength (R291, R318). -/
def State.moduleSkeins (s : State) (m : Nat) : List Nat :=
  s.unitsSkeins (((List.range 16).filter fun e => (List.range 10).any fun w => s.feedModule e w == m).flatMap regionPorts)

/-- A bit of LAS[m].ERR is set and posted (R300, R390), with a SCOPE 1 record for the skeins that have a port at an engine
which the module feeds (R318). -/
def State.lasError (s : State) (m b : Nat) : State :=
  let s1 := s.setFlag .ronpex (Reg.lasErr m) b true
  (s1.postFor { time := s.now, code := 4, tenant := none, unitType := 9, unit := m, gen := 0, arg := m + 256 * 2 ^ b } 1
    (s1.moduleSkeins m)).errsumMsix s

/-- `s` with the laser supply changed. -/
def State.modLas (s : State) (f : Lasers → Lasers) : State := { s with rp := { s.rp with lasers := f s.rp.lasers } }

/-! ### Accesses of a module (R294) -/

/-- The access of a module that is outstanding: the first of its list. -/
def State.lasFirst (s : State) (m : Nat) : Option LasReq := (s.rp.lasers.reqs.find? fun r => r.1 == m).map (·.2)

/-- The first access of a module replaced, or removed. -/
def setFirst : List (Nat × LasReq) → Nat → Option LasReq → List (Nat × LasReq)
  | [], _, _ => []
  | x :: r, m, new =>
    if x.1 = m then (match new with
      | some q => (m, q) :: r
      | none => r)
    else x :: setFirst r m new

/-- The first access of a module is sent, once more, as a request frame (R294). -/
def State.lasSend (s : State) (m : Nat) : State :=
  match s.lasFirst m with
  | none => s
  | some q =>
    (s.modLas fun l => { l with reqs := setFirst l.reqs m (some { q with tries := q.tries + 1, sentAt := s.now }) }).emit
      (.las m (lasWire (lasFrame (if q.write then 0x02 else 0x01) q.addr q.seq q.data.toNat)))

/-- An access of a module: sent at once where none is outstanding (R294). -/
def State.lasAsk (s : State) (m : Nat) (write : Bool) (addr data : Nat) (user : Bool) : State :=
  let seq := SMap.look (fun _ => 0) s.rp.lasers.seq m
  let q : LasReq := { write := write, addr := addr, data := BitVec.ofNat 32 data, seq := seq, sentAt := s.now, tries := 0, user := user }
  let s1 := s.modLas fun l => { l with reqs := l.reqs ++ [(m, q)], seq := SMap.put (fun _ => 0) l.seq m ((seq + 1) % 256) }
  if (s.lasFirst m).isNone then s1.lasSend m else s1

/-- The outstanding access of a module ends, and the next one that waits is sent. -/
def State.lasNext (s : State) (m : Nat) : State := (s.modLas fun l => { l with reqs := setFirst l.reqs m none }).lasSend m

/-- A write of LAS[m].ACCESS (R300): GO sends the request while none of the register is outstanding. -/
def State.lasAccess (s : State) (m v : Nat) : State :=
  let a := Reg.lasAccess m
  let busy := s.flag .ronpex a 10
  let s1 := s.setFld .ronpex a 0 9 v
  if bit 9 v ∧ !busy then
    ((s1.setFlag .ronpex a 10 true).setFlag .ronpex a 11 false).lasAsk m (bit 8 v) (v % 256) (s.reg .ronpex (Reg.lasData m)) true
  else s1

/-- The key of a wavelength of a module. -/
def lasKey (m w : Nat) : Nat := 16 * m + w

/-- The half of a JL.BIAS or JL.BIASMAX word that belongs to an emitter: A in the low half, B in the high one (R295). -/
def lasHalf (b : Bool) (v : Nat) : Nat := bits (if b then 16 else 0) 12 v

/-- A JL.BIAS word as the module holds it: each half at most its maximum, where that is known (R295). -/
def clampBias (limit : Option Nat) (v : Nat) : Nat :=
  match limit with
  | none => v
  | some x => setBits 0 12 (min (lasHalf false v) (lasHalf false x)) (setBits 16 12 (min (lasHalf true v) (lasHalf true x)) v)

/-- The hub's BIAS register of a wavelength follows what it knows of the module: bias and maximum of the active emitter (R300). -/
def State.showBias (s : State) (m w : Nat) : State :=
  let b := s.flag .ronpex (Reg.lasStat m) (w + 3)
  let s1 := match SMap.find? s.rp.lasers.biases (lasKey m w) with
    | none => s
    | some v => s.setFld .ronpex (Reg.lasBias m w) 0 12 (lasHalf b v)
  match SMap.find? s.rp.lasers.limits (lasKey m w) with
  | none => s1
  | some v => s1.setFld .ronpex (Reg.lasBias m w) 16 12 (lasHalf b v)

/-- What a value of a module register says (R295), as the hub's own registers show it (R300). -/
def State.lasLearn (s : State) (m addr v : Nat) : State :=
  if addr = 3 then
    let s1 := s.setFlag .ronpex (Reg.lasStat m) 1 (bit 0 v)
    let s2 := if bits 1 3 v = 0 then s1.setFlag .ronpex (Reg.lasStat m) 2 false else s1
    if bit 1 v then s2.lasError m 3 else s2
  else if 0x10 ≤ addr ∧ addr < 0x1A then
    let w := addr - 0x10
    let s1 := ((s.modLas fun l => { l with emits := SMap.set l.emits (lasKey m w) v }).setFlag .ronpex (Reg.lasStat m) (w + 3)
      (bit 0 v)).showBias m w
    if (bits 1 2 v = 3 ∨ bits 3 2 v = 3) ∧ s.rp.lasers.alert.contains m then s1.lasError m 1 else s1
  else if 0x20 ≤ addr ∧ addr < 0x2A then
    let k := lasKey m (addr - 0x20)
    (s.modLas fun l => { l with biases := SMap.set l.biases k (clampBias (SMap.find? l.limits k) v) }).showBias m (addr - 0x20)
  else if 0x30 ≤ addr ∧ addr < 0x3A then
    (s.modLas fun l => { l with limits := SMap.set l.limits (lasKey m (addr - 0x30)) v }).showBias m (addr - 0x30)
  else s

/-- The hub follows a changeover of a wavelength: it reads EMIT at every frame boundary, until one that comes 50 us after the start
(R293; DESIGN CHOICE, log 152). -/
def State.lasFollow (s : State) (m w : Nat) : State := s.modLas fun l => { l with follow := SMap.set l.follow (lasKey m w) s.now }

/-- The changeovers that are followed, at a frame boundary. -/
def State.lasFollowed (s : State) : State :=
  s.rp.lasers.follow.foldl (fun t e =>
    let m := e.1 / 16
    let a := 0x10 + e.1 % 16
    let t1 := if s.rp.lasers.reqs.any fun r => r.1 == m && r.2.addr == a && !r.2.write && !r.2.user then t else t.lasAsk m false a 0 false
    if e.2 + 50000 ≤ s.now then t1.modLas fun l => { l with follow := SMap.drop l.follow e.1 } else t1) s

/-- The active emitter of a wavelength lases, as far as the hub has seen (R286, R295). -/
def State.lasLases (s : State) (m w : Nat) : Bool :=
  match SMap.find? s.rp.lasers.emits (lasKey m w) with
  | none => false
  | some v => bits (if bit 0 v then 3 else 1) 2 v == 2

/-- A module reports a changeover in progress on a wavelength (R292): one is followed, or its active emitter was last seen not to lase. -/
def State.lasChanging (s : State) (m w : Nat) : Bool :=
  (SMap.find? s.rp.lasers.follow (lasKey m w)).isSome
    || ((SMap.find? s.rp.lasers.emits (lasKey m w)).isSome && !s.lasLases m w)

/-- A valid reply ends the outstanding access. -/
def State.lasDone (s : State) (m : Nat) (q : LasReq) (r : LasReply) : State :=
  let failed := r.op == 0xE0
  let a := Reg.lasAccess m
  let s1 := s.setFlag .ronpex (Reg.lasStat m) 0 true
  let s2 := if q.user then (s1.setFlag .ronpex a 10 false).setFlag .ronpex a 11 failed else s1
  let s3 := if q.user ∧ !failed ∧ !q.write then s2.setReg .ronpex (Reg.lasData m) r.data.toNat else s2
  let s4 := if failed then s3
    else if q.write then
      (if 0x20 ≤ q.addr ∧ q.addr < 0x2A then s3.lasLearn m q.addr q.data.toNat
       else if 0x10 ≤ q.addr ∧ q.addr < 0x1A ∧ bit 5 q.data.toNat then s3.lasFollow m (q.addr - 0x10)
       else s3)
    else s3.lasLearn m q.addr r.data.toNat
  (if q.addr = 3 then s4.modLas fun l => { l with alert := l.alert.filter fun x => x != m } else s4).lasNext m

/-- No valid reply came: the access is sent again up to three times, and then LINK is set (R294). -/
def State.lasRetry (s : State) (m : Nat) (q : LasReq) : State :=
  if q.tries < 4 then s.lasSend m
  else
    let s1 := (s.lasError m 0).setFlag .ronpex (Reg.lasStat m) 0 false
    let s2 := if q.user then (s1.setFlag .ronpex (Reg.lasAccess m) 10 false).setFlag .ronpex (Reg.lasAccess m) 11 true else s1
    s2.lasNext m

/-- Whether the CRC-8 of a reply frame checks (R294). -/
def lasGood (r : LasReply) : Bool := r.crc == crc8 (lasCore r.op r.addr r.seq r.data.toNat)

/-- A reply frame of a module. -/
def State.lasReplyIn (s : State) (m : Nat) (r : LasReply) : State :=
  match s.lasFirst m with
  | none => s
  | some q =>
    if !lasGood r then s.lasRetry m q
    else if r.seq = q.seq ∧ (r.op = 0xE0 ∨ r.op = (if q.write then 0x82 else 0x81)) then s.lasDone m q r
    else s

/-- 4 us without a reply. -/
def State.lasSilent (s : State) (m : Nat) : State :=
  match s.lasFirst m with
  | none => s
  | some q => if q.sentAt + 4000 ≤ s.now then s.lasRetry m q else s

/-- LAS_ALERT_N is asserted (R293): the failure is recorded and posted, the hub reads what the module shows, and it follows the changeover
of a failed emitter. -/
def State.emitterFailed (s : State) (m w : Nat) (overtemp : Bool) : State :=
  let s1 := (s.setFlag .ronpex (Reg.lasStat m) 2 true).lasError m (if overtemp then 3 else 1)
  let s2 := ((s1.modLas fun l => { l with alert := m :: l.alert.filter fun x => x != m }).lasAsk m false (0x10 + w) 0 false).lasAsk m false 3
    0 false
  if overtemp then s2 else s2.lasFollow m w

/-- An emitter of the Plocen fails (R296, R301). -/
def State.epEmitterFailed (s : State) (w : Nat) (b : Bool) : State :=
  (s.setFlag .plocen (Reg.epOptEmit w) (if b then 13 else 12) true).epOptError 2

/-! ### Feeds (R291, R292) -/

/-- FEED (R390): engine and wavelengths moved, with a SCOPE 1 record for the skeins that have a port at the engine (R318). -/
def State.feedEvent (s : State) (e mask : Nat) : State :=
  if mask = 0 then s else s.postFor (plainEvent s.now 5 (e + 2 ^ 16 * mask)) 1 (s.engineSkeins e)

/-- Wavelengths of a mask move to the standby feed, or back to the primary. -/
def State.moveFeeds (s : State) (e mask : Nat) (standby : Bool) : State :=
  let l := (setBitsOf 10 mask).filter fun w => s.flag .ronpex (engineBase e + 4) w != standby
  (l.foldl (fun t w => t.setFlag .ronpex (engineBase e + 4) w standby) s).feedEvent e (maskOf l)

/-- The key of a feed of a wavelength at an engine: the primary, or the standby. -/
def feedKey (e w : Nat) (standby : Bool) : Nat := 32 * e + 2 * w + ofBool standby

/-- One feed's power (R292): a feed within 1 dB of its reference is steady, and one that has been so for 1 s is stable, so that its reference
is taken anew. The first reading is the first reference (DEDUCED, log 153). -/
def Lasers.feedSeen (l : Lasers) (k : Nat) (x : Int) (now : Nat) : Lasers :=
  match SMap.find? l.refs k with
  | none => { l with refs := SMap.set l.refs k x, steady := SMap.set l.steady k now }
  | some r =>
    if x < r - 10 ∨ r + 10 < x then { l with steady := SMap.drop l.steady k }
    else match SMap.find? l.steady k with
      | none => { l with steady := SMap.set l.steady k now }
      | some t => if t + 1000000000 ≤ now then { l with refs := SMap.set l.refs k x } else l

/-- The power of both feeds of a wavelength is taken (R292, R299). -/
def State.feedReading (s : State) (e w : Nat) (pri stby : Int) : State :=
  let a := engineBase e + 0x10 + 4 * w
  ((s.setFld .ronpex a 0 16 (ofSigned 16 pri)).setFld .ronpex a 16 16 (ofSigned 16 stby)).modLas fun l =>
    (l.feedSeen (feedKey e w false) pri s.now).feedSeen (feedKey e w true) stby s.now

/-- FEED_TRIP, 0.1 dB: 0 is treated as 1 dB (R299). -/
def State.feedTripDb (s : State) (e : Nat) : Nat := 10 * max (s.fld .ronpex (engineBase e) 4 4) 1

/-- The selected feed of a wavelength falls FEED_TRIP below its reference: the wavelength moves to the other feed (R292). -/
def State.feedTrip (s : State) (e w : Nat) (pri stby : Int) : State :=
  let sel := s.flag .ronpex (engineBase e + 4) w
  let s1 := s.feedReading e w pri stby
  match SMap.find? s.rp.lasers.refs (feedKey e w sel) with
  | none => s1
  | some r => if (if sel then stby else pri) ≤ r - (s.feedTripDb e : Int) then s1.moveFeeds e (2 ^ w) (!sel) else s1

/-- A primary feed has been within 1 dB of its reference for 1 s (R292). -/
def State.feedStable (s : State) (e w : Nat) : Bool :=
  match SMap.find? s.rp.lasers.steady (feedKey e w false) with
  | none => false
  | some t => decide (t + 1000000000 ≤ s.now)

/-- Either module that feeds an engine reports a changeover in progress on a wavelength: a revert waits (R291, R292). -/
def State.feedWaits (s : State) (e w : Nat) : Bool := s.lasChanging (e / 4) w || s.lasChanging ((e / 4 + 1) % 4) w

/-- A primary feed is stable: the wavelength moves back at a frame boundary while REVERT_AUTO is 1 (R292). -/
def State.feedBack (s : State) (e w : Nat) (pri stby : Int) : State :=
  let s1 := s.feedReading e w pri stby
  if s.flag .ronpex (engineBase e) 3 ∧ s1.feedStable e w ∧ s.now % frameNs = 0 ∧ !s.feedWaits e w then s1.moveFeeds e (2 ^ w) false else s1

/-- A write of OPT[e].FEED (R299): FORCE moves wavelengths to the standby; REVERT moves those back whose primary is stable, at once, or at
the first frame boundary after a changeover in progress (R292). -/
def State.feedWrite (s : State) (e v : Nat) : State :=
  let s1 := s.moveFeeds e (bits 10 10 v) true
  let l := (setBitsOf 10 (bits 0 10 v)).filter (s1.feedStable e)
  let wait := l.filter (s1.feedWaits e)
  (s1.modLas fun x => { x with wanted := x.wanted ++ (wait.map fun w => 16 * e + w).filter fun k => !x.wanted.contains k }).moveFeeds e
    (maskOf (l.filter fun w => !s1.feedWaits e w)) false

/-- Commanded reverts that waited are made at a frame boundary. -/
def State.feedsDue (s : State) : State :=
  let due := s.rp.lasers.wanted.filter fun k => !s.feedWaits (k / 16) (k % 16)
  due.foldl (fun t k => if s.feedStable (k / 16) (k % 16) then t.moveFeeds (k / 16) (2 ^ (k % 16)) false else t)
    (s.modLas fun l => { l with wanted := l.wanted.filter fun k => !due.contains k })

/-! ### Bias ageing (R286, R296) -/

/-- A list in rising order. -/
def sortInts : List Int → List Int
  | [] => []
  | a :: r =>
    let rest := sortInts r
    rest.takeWhile (fun b => decide (b < a)) ++ a :: rest.dropWhile fun b => decide (b < a)

/-- Twice the median of some readings: the sum of the two middle ones. -/
def median2 (l : List Int) : Int :=
  let s := sortInts l
  s.getD ((s.length - 1) / 2) 0 + s.getD (s.length / 2) 0

/-- FAR readings of a wavelength on some ports: port and reading. -/
def State.farReadings (s : State) (p : Part) (ports : List Nat) (w : Nat) : List (Nat × Int) :=
  ports.map fun q => (q, signed 16 (s.fld p (psBase p q + 0x20 + 4 * w) 16 16))

/-- A reading more than 3 dB below the median. -/
def farOut (m2 : Int) (r : Int) : Bool := decide (2 * r < m2 - 60)

/-- Ports that are excluded from ageing are logged (R455). -/
def State.logExcluded (s : State) (p : Part) (w : Nat) (m2 : Int) (l : List (Nat × Int)) : State :=
  l.foldl (fun t x => t.pcond p 0x0B 6 0 x.1 0 w (ofSigned 32 x.2) (ofSigned 32 (m2 / 2))) s

/-- EVAL.STEP: 0 is treated as 1. -/
def evalStep (v : Nat) : Nat := max (bits 16 8 v) 1

/-- The new bias under R286, where it is raised. -/
def raised (bias mx step : Nat) (l : List Int) : Option Nat :=
  if !l.isEmpty ∧ lowestReading l < -70 ∧ bias < mx then some (min (bias + step) mx) else none

/-- SEQ of a bias record. -/
def State.biasSeq (s : State) (r : Nat) : Nat := s.rp.pst.word (Reg.pstBiasHi r)

/-- The record with the highest SEQ, if there is one. -/
def State.lastBias (s : State) : Option Nat :=
  (List.range 4096).foldl (fun b r => if s.biasSeq r = 0 then b else match b with
    | none => some r
    | some o => if s.biasSeq o < s.biasSeq r then some r else some o) none

/-- A record of the laser-bias history that can be written: neither of its words is locked (R399). -/
def State.biasOpen (s : State) (r : Nat) : Bool := !s.rp.pst.locked (Reg.pstBiasLo r) && !s.rp.pst.locked (Reg.pstBiasHi r)

/-- A change of bias is recorded in the laser-bias history (R286, R410), in the next record that is not locked (R399). -/
def State.recordBias (s : State) (m w bias : Nat) (emitterB : Bool) : State :=
  let (first, q) := match s.lastBias with
    | none => (0, 1)
    | some o => ((o + 1) % 4096, s.biasSeq o + 1)
  match (List.range 4096).find? fun k => s.biasOpen ((first + k) % 4096) with
  | none => s
  | some k =>
    let r := (first + k) % 4096
    (s.pstCell (Reg.pstBiasLo r) (bias % 4096 + 2 ^ 12 * (w % 16) + 2 ^ 16 * ofBool emitterB + 2 ^ 17 * (m % 4))).pstCell
      (Reg.pstBiasHi r) (q % 2 ^ 32)

/-- Up ports whose transmit light on a wavelength comes from a module. -/
def State.fedPorts (s : State) (m w : Nat) : List Nat := s.upPorts.filter fun p => s.feedModule (portEngine p) w == m

/-- A bias is written to the active emitter: the other emitter's half of the register stays as it is (R286, R295). -/
def State.writeBias (s : State) (m w bias : Nat) (emitterB : Bool) : State :=
  let old := (SMap.find? s.rp.lasers.biases (lasKey m w)).getD 0
  let data := setBits (if emitterB then 16 else 0) 12 bias old
  ((s.setFld .ronpex (Reg.lasBias m w) 0 12 bias).lasAsk m true (0x20 + w) data false).recordBias m w bias emitterB

/-- What the hub does not know yet of a wavelength of a module it reads: EMIT, BIAS and BIASMAX (R295). -/
def State.lasInquire (s : State) (m w : Nat) : State :=
  ((s.lasAsk m false (0x10 + w) 0 false).lasAsk m false (0x20 + w) 0 false).lasAsk m false (0x30 + w) 0 false

/-- The hub knows a wavelength of a module. -/
def State.lasKnown (s : State) (m w : Nat) : Bool :=
  let k := lasKey m w
  (SMap.find? s.rp.lasers.emits k).isSome && (SMap.find? s.rp.lasers.biases k).isSome && (SMap.find? s.rp.lasers.limits k).isSome

/-- Ageing of one emitter of a module that is lasing as active (R286). -/
def State.ageEmitter (s : State) (m w : Nat) : State :=
  let a := Reg.lasBias m w
  let mx := s.fld .ronpex a 16 12
  if !s.lasKnown m w then s.lasInquire m w
  else if !s.lasLases m w then s.lasAsk m false (0x10 + w) 0 false
  else
    let far := s.farReadings .ronpex (s.fedPorts m w) w
    let m2 := median2 (far.map (·.2))
    let out := far.filter fun x => farOut m2 x.2
    let kept := (far.filter fun x => !farOut m2 x.2).map (·.2)
    let s1 := if out.isEmpty then s else (s.lasError m 4).logExcluded .ronpex w m2 out
    if kept.isEmpty then s1
    else
      let bias := s.fld .ronpex a 0 12
      let emitterB := s.flag .ronpex (Reg.lasStat m) (w + 3)
      let s2 := match raised bias mx (evalStep (s.reg .ronpex Reg.lasEval)) kept with
        | some b => s1.writeBias m w b emitterB
        | none => s1
      let now := s2.fld .ronpex a 0 12
      let s3 := if 19 * mx ≤ 20 * now then s2.lasError m 2 else s2
      if now = mx then s3.lasAsk m true (0x10 + w) 0x60 false else s3

/-- Ageing of one pair of the Plocen: both emitters together, and no changeover (R296); one of which both
have failed is not lasing (R286). -/
def State.agePair (s : State) (w : Nat) : State :=
  let a := Reg.epOptEmit w
  let mx := s.fld .plocen a 16 12
  let far := s.farReadings .plocen ((List.range 8).filter fun p => s.portUp .plocen p) w
  let m2 := median2 (far.map (·.2))
  let out := far.filter fun x => farOut m2 x.2
  let kept := (far.filter fun x => !farOut m2 x.2).map (·.2)
  let s1 := if out.isEmpty then s else (s.epOptError 0).logExcluded .plocen w m2 out
  if s.flag .plocen a 12 && s.flag .plocen a 13 then s
  else if kept.isEmpty then s1
  else
    let s2 := match raised (s.fld .plocen a 0 12) mx (evalStep (s.reg .plocen Reg.epOptEval)) kept with
      | some b => s1.setFld .plocen a 0 12 b
      | none => s1
    if 19 * mx ≤ 20 * s2.fld .plocen a 0 12 then s2.epOptError 1 else s2

/-- EVAL.PERIOD, ns: 0 is treated as 1 s (R300, R301). -/
def evalPeriod (v : Nat) : Nat := 1000000000 * max (bits 0 16 v) 1

/-- Bias is evaluated once each EVAL period, while BIAS_AUTO is 1 (R286, R296). -/
def State.biasEval (s : State) (p : Part) (m : Nat) : State :=
  match p with
  | .ronpex =>
    if s.flag .ronpex (Reg.lasCtl m) 1 ∧ SMap.look (fun _ => 0) s.rp.lasers.evalAt m + evalPeriod (s.reg .ronpex Reg.lasEval) ≤ s.now then
      (List.range 10).foldl (fun t w => t.ageEmitter m w)
        (s.modLas fun l => { l with evalAt := SMap.put (fun _ => 0) l.evalAt m s.now })
    else s
  | .plocen =>
    if s.flag .plocen Reg.epOptCtl 3 ∧ s.ep.evalAt + evalPeriod (s.reg .plocen Reg.epOptEval) ≤ s.now then
      (List.range 10).foldl (fun t w => t.agePair w) { s with ep := { s.ep with evalAt := s.now } }
    else s

end Sys2Proof.Machine
end

