-- ==== Sys2Proof/Machine/Link.lean ====
section
/-! DEFINITION. The commands of the optical links, their keys, and the lasers (R265-R301, R329-R334): one meaning per row. -/

namespace Sys2Proof.Machine

open Sys2Proof

/-- IDENT (R277). -/
def execIdent (part : Part) (port : Fin 192) (l : Lmc) (far : Identity) (s : State) : Host.Outcome State Fault Refusal :=
  .next (if s.lmcTaken part port l (.ident far) then s.identIn part port far else s)

/-- PWR_A (R284). -/
def execPwrA (part : Part) (port : Fin 192) (l : Lmc) (readings : List Int) (s : State) : Host.Outcome State Fault Refusal :=
  .next (if s.lmcTaken part port l (.pwr false readings) then s.farPower part port 0 readings else s)

/-- PWR_B (R284). -/
def execPwrB (part : Part) (port : Fin 192) (l : Lmc) (readings : List Int) (s : State) : Host.Outcome State Fault Refusal :=
  .next (if s.lmcTaken part port l (.pwr true readings) then s.farPower part port 5 readings else s)

/-- TUNE (R268, R276). -/
def execTune (part : Part) (port : Fin 192) (l : Lmc) (w request : Nat) (s : State) : Host.Outcome State Fault Refusal :=
  .next (if s.lmcTaken part port l (.tune w request) then s.modLink part port fun k => k.tune w request else s)

/-- SWAP_REQ (R288). -/
def execSwapReq (part : Part) (port : Fin 192) (l : Lmc) (lane reason frame : Nat) (s : State) : Host.Outcome State Fault Refusal :=
  .next (if s.lmcTaken part port l (.swapReq lane reason frame) then s.swapReqIn part port lane reason frame else s)

/-- SWAP_ACK (R288). -/
def execSwapAck (part : Part) (port : Fin 192) (l : Lmc) (lane reason frame : Nat) (s : State) : Host.Outcome State Fault Refusal :=
  .next (if s.lmcTaken part port l (.swapAck lane reason frame) then s.swapAckIn part port lane frame else s)

/-- STATE (R276): the far receiver's training step. -/
def execState (part : Part) (port : Fin 192) (l : Lmc) (step : Nat) (s : State) : Host.Outcome State Fault Refusal :=
  .next (if s.lmcTaken part port l (.state step) then s.farStateIn part port step else s)

/-- STRESS (R289): the spare is sent 1.5 dB lower, or as before. -/
def execStress (part : Part) (port : Fin 192) (l : Lmc) (apply : Bool) (s : State) : Host.Outcome State Fault Refusal :=
  .next (if s.lmcTaken part port l (.stress apply) then s.modLink part port fun k => { k with stressed := apply } else s)

/-- SYNC (R380, R381). -/
def execSync (part : Part) (port : Fin 192) (l : Lmc) (locked master : Bool) (depth time16 recv16 : Nat) (s : State) :
    Host.Outcome State Fault Refusal :=
  .next (if s.lmcTaken part port l (.sync locked master depth time16) then s.syncIn part port l.seq locked master depth time16 recv16 else s)

/-- RXSTAMP (R381). -/
def execRxstamp (part : Part) (port : Fin 192) (l : Lmc) (syncSeq time16 : Nat) (s : State) : Host.Outcome State Fault Refusal :=
  .next (if s.lmcTaken part port l (.rxstamp syncSeq time16) then s.exchange part port syncSeq time16 else s)

/-- CERT (R330). -/
def execCert (part : Part) (port : Fin 192) (l : Lmc) (frag : Nat) (data : List Byte) (s : State) : Host.Outcome State Fault Refusal :=
  .next (if s.lmcTaken part port l (.key 1 frag data) then s.certIn part port frag data else s)

/-- EPH (R330, R333). -/
def execEph (part : Part) (port : Fin 192) (l : Lmc) (frag : Nat) (data : List Byte) (s : State) : Host.Outcome State Fault Refusal :=
  .next (if s.lmcTaken part port l (.key 2 frag data) then s.ephIn part port frag data else s)

/-- SIG (R330). -/
def execSig (part : Part) (port : Fin 192) (l : Lmc) (frag : Nat) (data : List Byte) (s : State) : Host.Outcome State Fault Refusal :=
  .next (if s.lmcTaken part port l (.key 3 frag data) then s.sigIn part port frag data else s)

/-- SWITCH (R333). -/
def execSwitch (part : Part) (port : Fin 192) (l : Lmc) (gen frame : Nat) (s : State) : Host.Outcome State Fault Refusal :=
  .next (if s.lmcTaken part port l (.key 4 gen (leBytes 8 frame)) then s.switchIn part port gen frame else s)

/-- SWITCH_ACK (R333). -/
def execSwitchAck (part : Part) (port : Fin 192) (l : Lmc) (gen frame : Nat) (s : State) : Host.Outcome State Fault Refusal :=
  .next (if s.lmcTaken part port l (.key 5 gen (leBytes 8 frame)) then s.switchAckIn part port gen frame else s)

/-- FRAMETAG (R332). -/
def execFrametag (part : Part) (port : Fin 192) (l : Lmc) (frameLow : Nat) (tag : BitVec 64) (s : State) :
    Host.Outcome State Fault Refusal :=
  .next (s.frameTag part port (lmcGood l (.key 6 frameLow (leBytes 8 tag.toNat))) frameLow tag)

/-- ABORT (R330). -/
def execAbort (part : Part) (port : Fin 192) (l : Lmc) (reason : Nat) (s : State) : Host.Outcome State Fault Refusal :=
  .next (if s.lmcTaken part port l (.key 7 0 (leBytes 8 reason)) then s.abortIn part port else s)

/-- F' of a rekey is reached (R333). -/
def execKeySwitchApply (part : Part) (port : Fin 192) (s : State) : Host.Outcome State Fault Refusal := .next (s.keySwitch part port)

/-- A block counter reaches 2^REKEY (R333). -/
def execRekeyStart (part : Part) (port : Fin 192) (s : State) : Host.Outcome State Fault Refusal := .next (s.rekey part port)

/-- A rekey has not completed after 10 ms (R333). -/
def execRekeyTimeout (part : Part) (port : Fin 192) (s : State) : Host.Outcome State Fault Refusal := .next (s.rekeyOver part port)

/-- The clock's light is lost (R266). -/
def execLightLost (part : Part) (port : Fin 192) (s : State) : Host.Outcome State Fault Refusal := .next (s.lightOut part port)

/-- The hold of 2 us ends (R266). -/
def execLocHoldoverExpire (part : Part) (port : Fin 192) (s : State) : Host.Outcome State Fault Refusal := .next (s.holdoverOut part port)

/-- The clock stops under light (R266). -/
def execClockStopDetect (part : Part) (port : Fin 192) (s : State) : Host.Outcome State Fault Refusal := .next (s.clockStopped part port)

/-- A training step is finished (R276). -/
def execTrainingStepDone (part : Part) (port : Fin 192) (delayIn delayOut : Nat) (errors : List Nat) (s : State) :
    Host.Outcome State Fault Refusal := .next (s.stepDone part port delayIn delayOut errors)

/-- A training step exceeds its limit (R276). -/
def execTrainingStepTimeout (part : Part) (port : Fin 192) (s : State) : Host.Outcome State Fault Refusal := .next (s.stepTimeout part port)

/-- A DOWN port trains again (R278). -/
def execDownRetry (part : Part) (port : Fin 192) (s : State) : Host.Outcome State Fault Refusal := .next (s.downAgain part port)

/-- Four consecutive codewords of a lane are uncorrectable (R287). -/
def execLaneFailed (part : Part) (port : Fin 192) (lane : Fin 8) (s : State) : Host.Outcome State Fault Refusal :=
  .next (s.laneFailed part port lane)

/-- Codeword groups are received, uncorrectable ones among them (R273, R278, R279, R282). -/
def execUncorrectableDown (part : Part) (port : Fin 192) (groups : List RxGroup) (patterns : List RxPattern) (s : State) :
    Host.Outcome State Fault Refusal :=
  .next (s.groupsIn part port groups patterns)

/-- A power average is taken (R284). -/
def execPowerReading (part : Part) (port : Fin 192) (readings : List Int) (s : State) : Host.Outcome State Fault Refusal :=
  .next (s.powerIn part port readings)

/-- A lane has been below Alarm for three readings (R287). -/
def execLowPowerLaneFail (part : Part) (port : Fin 192) (lane : Fin 8) (s : State) : Host.Outcome State Fault Refusal :=
  .next (s.laneLow part port lane)

/-- A swap takes effect at F (R288). -/
def execSwapApply (part : Part) (port : Fin 192) (s : State) : Host.Outcome State Fault Refusal := .next (s.swapApply part port)

/-- A revalidation starts (R289). -/
def execRevalidationStart (part : Part) (port : Fin 192) (cls : Bool) (temp : Int) (s : State) : Host.Outcome State Fault Refusal :=
  .next (s.revalStart part port cls temp)

/-- A check of the spare ends (R289). -/
def execRevalidationCheckDone (part : Part) (port : Fin 192) (errors : Nat) (s : State) : Host.Outcome State Fault Refusal :=
  .next (s.revalCheck part port errors)

/-- Bias ageing (R286). -/
def execBiasEval (part : Part) (m : Fin 4) (s : State) : Host.Outcome State Fault Refusal := .next (s.biasEval part m)

/-- A feed falls below its reference (R292). -/
def execFeedTrip (e : Fin 16) (w : FeedReading) (s : State) : Host.Outcome State Fault Refusal :=
  .next (s.feedTrip e w.wave w.pri w.stby)

/-- A primary feed is stable again (R292). -/
def execFeedRevert (e : Fin 16) (w : FeedReading) (s : State) : Host.Outcome State Fault Refusal :=
  .next (s.feedBack e w.wave w.pri w.stby)

/-- OPT[e].FEED.REVERT is written (R299). -/
def execFeedRevertCmd (e : Fin 16) (value : Word) (wr : Writer) (s : State) : Host.Outcome State Fault Refusal :=
  .next (s.wrote .ronpex (engineBase e + 8) value.toNat wr fun t => t.feedWrite e value.toNat)

/-- OPT[e].FEED.FORCE is written (R299). -/
def execFeedForce (e : Fin 16) (value : Word) (wr : Writer) (s : State) : Host.Outcome State Fault Refusal :=
  .next (s.wrote .ronpex (engineBase e + 8) value.toNat wr fun t => t.feedWrite e value.toNat)

/-- LAS_ALERT_N is asserted (R293). -/
def execEmitterFail (m : Fin 4) (w : Fin 10) (overtemp : Bool) (s : State) : Host.Outcome State Fault Refusal :=
  .next (s.emitterFailed m w overtemp)

/-- LAS[m].ACCESS is written (R294, R300). -/
def execLasAccessGo (m : Fin 4) (value : Word) (wr : Writer) (s : State) : Host.Outcome State Fault Refusal :=
  .next (s.wrote .ronpex (Reg.lasAccess m) value.toNat wr fun t => t.lasAccess m value.toNat)

/-- A module answers (R294). -/
def execLasReply (m : Fin 4) (r : LasReply) (s : State) : Host.Outcome State Fault Refusal := .next (s.lasReplyIn m r)

/-- A module has not answered within 4 us (R294). -/
def execLasReplyTimeout (m : Fin 4) (s : State) : Host.Outcome State Fault Refusal := .next (s.lasSilent m)

/-- An emitter of the Plocen fails (R296). -/
def execEpEmitterFail (w : Fin 10) (b : Bool) (s : State) : Host.Outcome State Fault Refusal := .next (s.epEmitterFailed w b)

/-- MODE of a port is written (R275). -/
def execPortMode (part : Part) (port : Fin 192) (value : Word) (wr : Writer) (s : State) : Host.Outcome State Fault Refusal :=
  .next (if port.val < partPorts part then s.wrote part (psBase part port) value.toNat wr fun t => t.portCtl part port value.toNat else s)

/-- CLR of a port is written (R299). -/
def execCounterClr (part : Part) (port : Fin 192) (value : Word) (wr : Writer) (s : State) : Host.Outcome State Fault Refusal :=
  .next (if port.val < partPorts part then s.wrote part (psBase part port) value.toNat wr fun t => t.portCtl part port value.toNat else s)

/-- A port enters LPI in a fill run (R281). -/
def execWeftLpiEnter (part : Part) (port : Fin 192) (s : State) : Host.Outcome State Fault Refusal := .next (s.fillLpi part port)

/-- Light and clock edges return (R266). -/
def execLightRestored (part : Part) (port : Fin 192) (s : State) : Host.Outcome State Fault Refusal := .next (s.lightBack part port)

/-- Codeword-group alignment is lost (R278). -/
def execAlignmentLost (part : Part) (port : Fin 192) (s : State) : Host.Outcome State Fault Refusal := .next (s.misaligned part port)

/-- An LMC message goes out (R268). -/
def execLmcMessageSend (part : Part) (port : Fin 192) (s : State) : Host.Outcome State Fault Refusal := .next (s.lmcSend part port)

/-- SWITCH_ACK has not come 1 us before F' (R333). -/
def execRekeySwitchRetry (part : Part) (port : Fin 192) (s : State) : Host.Outcome State Fault Refusal := .next (s.switchRetry part port)

end Sys2Proof.Machine
end

