-- ==== Sys2Proof/Machine/Pins.lean ====
section
/-! DEFINITION. Pins whose level follows the state (R90, R425, R428, R436, R444), and the test access ports (R341, R436, R444). -/

namespace Sys2Proof.Machine

open Sys2Proof

/-- EP_ALERT_N is asserted: any bit set in EP_ATT.ERR (R90, R444). -/
def State.epAlert (s : State) : Bool := s.reg .plocen Reg.epAttErr != 0

/-- LAS_ON[m] as a laser module sees it: low while PKG_RESET_N is asserted, and else LAS[m].CTL.ON (R437). -/
def State.lasOnPin (s : State) (m : Nat) : Bool := !s.rp.power.inReset && s.flag .ronpex (Reg.lasCtl m) 0

/-- THERMTRIP_N is asserted, until its latch clears (R372, R429). -/
def State.thermtripPin (s : State) : Bool := s.rp.power.tripped && decide (s.now < s.rp.power.tripClear)

/-- The static address of the I3C target, and its provisional ID: 0x04F5, 0x0192 and I3C_ADDR (R435). -/
def i3cStatic : Nat := 0x30 + Config.i3cAddr.toNat
/-- The three parts of the provisional ID of the I3C target, in order (R435). -/
def i3cPid : Nat × Nat × Nat := (0x04F5, 0x0192, Config.i3cAddr.toNat)

/-! ### The TAP of each part -/

/-- The TAP of a part. -/
def State.tap (s : State) : Part → Tap
  | .ronpex => s.rp.tap
  | .plocen => s.ep.tap

/-- `s` with the TAP of a part changed. -/
def State.modTap (s : State) (p : Part) (f : Tap → Tap) : State :=
  match p with
  | .ronpex => { s with rp := { s.rp with tap := f s.rp.tap } }
  | .plocen => { s with ep := { s.ep with tap := f s.ep.tap } }

/-- The instructions of the table of R436. -/
inductive TapInstr where
  | extest
  | sample
  | idcode
  | clamp
  | highz
  | debug          -- HUB_DEBUG of the Ronpex, EP_DEBUG of the Plocen
  | dieScan
  | mbist
  | bypass
  deriving DecidableEq, Repr

/-- The instruction of a code; every other code acts as BYPASS. -/
def tapInstr (c : Nat) : TapInstr :=
  match c with
  | 0x00 => .extest
  | 0x01 => .sample
  | 0x02 => .idcode
  | 0x03 => .clamp
  | 0x04 => .highz
  | 0x20 => .debug
  | 0x21 => .dieScan
  | 0x22 => .mbist
  | _ => .bypass

/-- Test-Logic-Reset: the instruction register holds IDCODE. -/
def Tap.reset (t : Tap) : Tap := { t with ir := 0x02 }

/-- The instruction on which the TAP of a part acts: while a confidential skein occupies the package, the Ronpex's acts on IDCODE and
SAMPLE/PRELOAD alone (R341), and while EP_SEC.DBG.OPEN is 0 the Plocen's on no debug instruction (R444). -/
def State.tapActs (s : State) (p : Part) : TapInstr :=
  let c := tapInstr (s.tap p).ir
  match p with
  | .ronpex => if s.occupant.isSome ∧ c ≠ .idcode ∧ c ≠ .sample then .bypass else c
  | .plocen =>
    if (s.epView Reg.epSecDbg).getD 0 % 2 = 0 ∧ (c = .debug ∨ c = .dieScan ∨ c = .mbist) then .bypass else c

/-- A code reaches the instruction register. -/
def State.tapUpdate (s : State) (p : Part) (code : Nat) : State := s.modTap p fun t => { t with ir := code % 256 }

/-- Data reach the boundary register, under an instruction that selects it. -/
def State.tapPreload (s : State) (p : Part) (cells : BitVec 72) : State :=
  if s.tapActs p = .extest ∨ s.tapActs p = .sample then s.modTap p fun t => { t with boundary := cells } else s

/-- IDCODE of a part (R436, R444). -/
def idcodeOf : Part → Nat
  | .ronpex => 0x101929EB
  | .plocen => 0x10E089EB

/-- What the data register that the TAP selects shifts out, the first bit first: IDCODE, the boundary register, or one bit of BYPASS; the
manual gives the debug registers no contents. -/
def State.tapShifts (s : State) (p : Part) : List Bool :=
  match s.tapActs p with
  | .extest | .sample => (List.range 72).map fun i => (s.tap p).boundary.getLsbD i
  | .idcode => (List.range 32).map fun i => bit i (idcodeOf p)
  | _ => [false]

/-! ### Supply enables (R428, R436) -/

/-- The data cell of CORE_EN[d], in the land order of R425: one cell per input, two per output and three for I3C_SDA. -/
def coreEnCell (d : Nat) : Nat := 48 + 2 * d
/-- The data cell of HBM_EN[d]. -/
def hbmEnCell (d : Nat) : Nat := 60 + 2 * d

/-- An output pin of the Ronpex under its TAP: its boundary cell in EXTEST and CLAMP, off in HIGHZ, and else what drives it. -/
def State.pinUnderTap (s : State) (cell : Nat) (own : Bool) : Bool :=
  match s.tapActs .ronpex with
  | .extest | .clamp => s.rp.tap.boundary.getLsbD cell
  | .highz => false
  | _ => own

/-- CORE_EN[d] as the board sees it. -/
def State.coreEnPin (s : State) (d : Nat) : Bool := s.pinUnderTap (coreEnCell d) (bit d s.rp.power.coreEn)
/-- HBM_EN[d] as the board sees it. -/
def State.hbmEnPin (s : State) (d : Nat) : Bool := s.pinUnderTap (hbmEnCell d) (bit d s.rp.power.hbmEn)

end Sys2Proof.Machine
end

