-- ==== Sys2Proof/Machine/SkeinOps.lean ====
section
/-! DEFINITION. Skeins (R302-R304, R315, R317-R319, R339-R342): commands, membership, the confidential occupation and its scrub,
and tenant records. -/

namespace Sys2Proof.Machine

open Sys2Proof

/-! ### Conditions of ACTIVATE (R315, R317, R340) -/

/-- EDDY, FMRX and HBM of a skein as its registers hold them. -/
def State.sealDemand (s : State) (k : Nat) : Nat × Nat × Nat :=
  (min (s.fld .ronpex (Reg.budWeft k) 16 6) 32, s.fld .ronpex (Reg.budAux k) 0 14, s.fld .ronpex (Reg.budHbm k) 0 21)

/-- The sums over some sealed skeins keep the limits of R317. -/
def State.sealSums (s : State) (l : List Nat) : Bool :=
  let d := l.map s.sealDemand
  decide ((d.map (·.1)).sum ≤ 24) && decide ((d.map (·.2.1)).sum ≤ 4096) && decide ((d.map (·.2.2)).sum ≤ 819200)

/-- The seal floor of an output against the draft in effect (R315). -/
def State.breaksSeal (s : State) (p : Nat) : Bool :=
  let l := (s.portLogical p).getD p
  let tx (n : Nat) : Bool := txUse (s.curEntry n l) == 0
  let sky (n : Nat) : Bool := s.running && s.skyWindow s.rdSlot n l
  (s.sealedBy p).any fun k => decide (64 ≤ longestRun (fun n => tx n && s.sealOwner p n == k) sky)

/-- The seal floor holds once a skein is added. -/
def State.floorHolds (s : State) (k : Nat) : Bool :=
  let t := s.setFld .ronpex (Reg.sknCtl k) 0 2 2
  !((List.range 192).any fun p => (t.sealOwners p).contains k && t.breaksSeal p)

/-- The conditions of R340 for a confidential skein. -/
def State.confOk (s : State) (k : Nat) : Bool :=
  s.role == 0 && s.isSealed k && ((List.range 64).all fun j => j == 0 || j == k || s.skeinState j == 0)
    && s.flag .ronpex (Reg.secFkeyStat k) 0 && !s.flag .ronpex Reg.xbrAnaCtl 0

/-- RESULT of a command (R303, R319); where several conditions fail, the lowest code (DESIGN CHOICE, log 29). RELEASE is a command
for a QUIESCENT skein (DEDUCED, log 30). -/
def State.cmdResult (s : State) (k op : Nat) : Nat :=
  if s.rp.skeins.cmd.isSome then 5
  else if k = 0 then 2
  else if s.skeinState k ≠ [9, 0, 1, 2, 1].getD op 9 then 1
  else if op = 1 then (if s.occupant.any fun j => j != k then 6 else 0)
  else if op = 2 then
    (if s.isSealed k ∧ !s.sealSums (k :: s.sealedActive) then 3
     else if s.isSealed k ∧ !s.floorHolds k then 4
     else if s.isConf k ∧ !s.confOk k then 6 else 0)
  else 0

/-- A write of SKN.CMD (R303): it is checked at once, and takes effect at the first frame boundary at least 1 us later. -/
def State.skeinWrite (s : State) (v : Nat) (template : Option Nat) : State :=
  let k := bits 0 6 v
  let op := bits 8 3 v
  if op = 0 ∨ 4 < op then s
  else
    let r := s.cmdResult k op
    if r = 5 then s.setFld .ronpex Reg.sknStat 8 8 5
    else
      let s1 := s.setReg .ronpex Reg.sknStat (k + 256 * r)
      if r ≠ 0 then s1
      else s1.modSk fun x => { x with cmd := some { op := op, skein := k, effect := s.frameAfter 1000 * frameNs, template := template } }

/-! ### Keys of a skein and the confidential occupation (R339, R342) -/

/-- The log entry of a key operation: its ADDRESS holds KIND and SKEIN (log 19). -/
def keyBody (now origin kind skein old new : Nat) : LogBody :=
  { time := now, type := 3, origin := origin, requester := 0, port := 255, skein := 0, addr := kind + 256 * skein,
    old := BitVec.ofNat 32 old, new := BitVec.ofNat 32 new }

/-- The FMEM keys of a skein are destroyed. -/
def State.destroyFkey (s : State) (k : Nat) : State :=
  if s.rp.sec.fkeys.any fun x => x.1 == k then
    let s1 := (s.setSec .ronpex { s.rp.sec with fkeys := s.rp.sec.fkeys.filter fun x => x.1 != k }).rpLog
      (keyBody s.now 6 3 k (s.reg .ronpex (Reg.secFkeyId k)) 0)
    (s1.setReg .ronpex (Reg.secFkeyStat k) 0).setReg .ronpex (Reg.secFkeyId k) 0
  else s

/-- The scrub of a skein that leaves confidential mode begins (R342). -/
def State.scrubStart (s : State) (k : Nat) : State :=
  if s.occupant = some k then ((s.destroyFkey k).setFlag .ronpex (Reg.sknCtl k) 3 false).setFlag .ronpex Reg.secDbg 15 true else s

/-- The scrub is complete (R342): nothing of the skein is left, and SEC.DBG returns to open. -/
def State.scrubbed (s : State) : State :=
  match s.occupant with
  | none => s
  | some k =>
    if !s.flag .ronpex Reg.secDbg 15 then s
    else
      let d := s.rp.fmem.dest
      let s1 : State := { s with rp := { s.rp with
        spindles := s.rp.spindles.map fun e : Nat × SpindleSt => (e.1, { e.2 with ctxs := [], anchors := [] })
        eddy := []
        fmem := { s.rp.fmem with dest := { d with store := [], cache := [], ctxs := [], replies := [] }
                                 waiting := [], sealedRep := [], entries := [] } } }
      let s2 := { s1 with rp := { s1.rp with spindles := s1.rp.spindles.filter fun e => !decide (e.2 = ({ } : SpindleSt)) } }
      (((s2.setReg .ronpex (Reg.spdSeedLo k) 0).setReg .ronpex (Reg.spdSeedHi k) 0).setReg .ronpex Reg.secDbg 7).post
        (plainEvent s.now 0x40 0)

/-- A write of SKN[k].CTL (R319, R340): SEALED and CONF only in QUIESCENT, and CONF of one skein only. A leaf or spine never admits
confidential mode, so that CONF is not set there (DEDUCED, log 183). -/
def State.sknCtl (s : State) (k v : Nat) : State :=
  let a := Reg.sknCtl k
  if s.skeinState k ≠ 1 then s
  else
    let s1 := s.setFld .ronpex a 2 1 (bits 2 1 v)
    if bit 3 v = s.isConf k then s1
    else if bit 3 v then
      (if s.occupant.isSome ∨ s.role ≠ 0 then s1
       else ((s1.setFlag .ronpex a 3 true).setReg .ronpex Reg.secDbg (256 * k + 2 ^ 14)).modTap .ronpex Tap.reset)
    else s1.scrubStart k

/-! ### Commands take effect (R303) -/

/-- A skein's grants and budgets return to those of a FREE skein (R303, R339, R342). -/
def State.releaseSkein (s : State) (k : Nat) : State :=
  let relays := (List.range 4096).filter fun m =>
    s.flag .ronpex (Reg.fmhRelayCtl m) 14 && s.hcntOf k (s.fld .ronpex (Reg.fmhRelayCtl m) 0 14)
  let s1 := ((List.range 256).filter fun n => s.rgnSkein n == k).foldl (fun t n => t.setFlag .ronpex (Reg.fmhRgnCtl n) 0 false) s
  let s2 := relays.foldl (fun t m => (t.setFlag .ronpex (Reg.fmhRelayCtl m) 14 false).modFm fun f => { f with next := SMap.drop f.next m }) s1
  let s3 := s2.setFld .ronpex (Reg.fmhHgrant k) 16 15 0
  let s4 := (s3.setReg .ronpex (Reg.spdSeedLo k) 0).setReg .ronpex (Reg.spdSeedHi k) 0
  let s5 := ((List.range 192).filter fun p => s.fld .ronpex (Reg.sknPort p) 0 6 == k).foldl
    (fun t p => t.setFld .ronpex (Reg.sknPort p) 0 7 0) s4
  let s6 := (List.range 4).foldl (fun t w => t.setReg .ronpex (Reg.budWeft k + 4 * w) (budReset w)) s5
  (s6.destroyFkey k).scrubStart k

/-- A template's values are loaded at a CLAIM (R388, R410). -/
def State.loadTemplate (s : State) (k t : Nat) : State :=
  let s1 := (List.range 4).foldl (fun u w => u.setReg .ronpex (Reg.budWeft k + 4 * w) (s.rp.pst.word (Reg.pstTplW0 t + 4 * w))) s
  s1.sknCtl k (s.rp.pst.word (Reg.pstTplW0 t + 16))

/-- The command that waits takes effect at its frame boundary, with a SKEIN event (R303, R318, R390). -/
def State.skeinEffect (s : State) : State :=
  match s.rp.skeins.cmd with
  | none => s
  | some c =>
    if s.now < c.effect then s
    else
      let new := [0, 1, 2, 1, 0].getD c.op 0
      let s1 := (s.modSk fun x => { x with cmd := none }).setReg .ronpex Reg.sknFrame (frameOf c.effect % 2 ^ 32)
      let s2 := s1.setFld .ronpex (Reg.sknCtl c.skein) 0 2 new
      let s3 := if c.op = 4 then s2.releaseSkein c.skein else s2
      let s4 := match c.template with
        | some t => if c.op = 1 then s3.loadTemplate c.skein t else s3
        | none => s3
      (s4.postFor (plainEvent s.now 0x20 (c.skein + 256 * new)) 0 [c.skein]).cmdWaited .skein 0 0

/-! ### Membership and records (R304, R318) -/

/-- A write of SKN.PORT[p] (R304): the end point is told while the port is UP, and SENT waits for its answer. -/
def State.sknPort (s : State) (p v : Nat) : State :=
  (s.setReg .ronpex (Reg.sknPort p) (bits 0 7 v + 256 * bits 8 15 v)).sendAssign p

/-- Tenant records whose time has come are posted (R318). -/
def State.releaseRecords (s : State) : State :=
  let due := s.rp.skeins.records.filter fun r => decide (r.1 ≤ s.now)
  due.foldl (fun t r => t.post r.2) (s.modSk fun x => { x with records := x.records.filter fun r => decide (s.now < r.1) })

end Sys2Proof.Machine
end

