-- ==== Sys2Proof/Machine/SecOps.lean ====
section
/-! DEFINITION. SPDM, measurements, keys released to the parts, and restarts of layer 1 (R322-R328, R336-R339, R387, R404-R406). The
codes of SPDM messages and errors are those of DMTF SPDM 1.3, which R324 names (PRESUMED, log 31). -/

namespace Sys2Proof.Machine

open Sys2Proof

/-- `s` with the security controller of a part changed. -/
def State.modSec (s : State) (p : Part) (f : Security → Security) : State := s.setSec p (f (s.sec p))

/-! ### Measurements (R326) -/

/-- The bytes of a bitmap of `n` bits. -/
def bitmap (n : Nat) (f : Nat → Bool) : List Byte := leBytes (n / 8) (maskOf ((List.range n).filter f))

/-- Index 5: resets and fences. -/
def State.fenceMap (s : State) (p : Part) : List Byte :=
  let restarted := ofBool (s.sec p).restarted
  match p with
  | .ronpex =>
    bitmap 16 (fun r => s.rp.units.regions.any fun x => x.1 == r) ++ bitmap 8 (fun d => s.rp.units.dies.any fun x => x.1 == d)
      ++ leBytes 1 restarted ++ bitmap 192 (fun i => s.unitState i == 1) ++ bitmap 96 (fun i => s.unitState (192 + i) == 1)
      ++ bitmap 128 (fun i => s.unitState (288 + i) == 1) ++ bitmap 192 (fun i => s.unitState (416 + i) == 1)
  | .plocen =>
    bitmap 8 (fun i => !s.ep.released.any fun x => x.1 == i) ++ bitmap 16 (fun i => (s.shuttle i).fenced) ++ leBytes 1 restarted

/-- Index 6: security configuration. The Plocen's TAP and its debug are open while EP_SEC.DBG.OPEN is 1 (R342, R444). -/
def State.secConfig (s : State) (p : Part) : List Byte :=
  match p with
  | .ronpex =>
    let d := s.reg .ronpex Reg.secDbg
    let k := s.occupant
    leBytes 1 (ofBool (s.flag .ronpex Reg.secCfg 0) + 2 * bits 0 3 d) ++ leBytes 1 (k.getD 255) ++ leBytes 1 s.role ++ [(0 : Byte)]
      ++ leBytes 2 (s.epoch .ronpex) ++ leBytes 2 (s.ownNode .ronpex)
      ++ leBytes 4 (match k with | some k => s.reg .ronpex (Reg.secFkeyId k) | none => 0) ++ leBytes 4 0
  | .plocen =>
    let a := s.reg .plocen Reg.epSecAssign
    leBytes 1 (ofBool (s.flag .plocen Reg.epSecCfg 0) + 10 * ofBool (s.ep.sec.model.isNone && s.ep.sec.sky.isNone))
      ++ leBytes 1 (if bit 7 a then bits 0 6 a else 255) ++ leBytes 1 (bits 6 1 a) ++ [(0 : Byte)]
      ++ leBytes 2 (s.epoch .plocen) ++ leBytes 2 (s.ownNode .plocen) ++ leBytes 4 (s.reg .plocen Reg.epSecModelId)
      ++ leBytes 4 (s.reg .plocen Reg.epSecSkyId)

/-- A measurement block (R326). -/
def State.measure (s : State) (p : Part) (i : Nat) : List Byte :=
  let x := s.sec p
  match i with
  | 1 => leBytes 48 (Config.romDigest (p == .plocen)).toNat
  | 2 => x.imageOf p x.slotB
  | 3 => x.imageOf p (!x.slotB)
  | 4 => leBytes 1 x.fw ++ leBytes 1 (ofBool x.slotB)
  | 5 => s.fenceMap p
  | 6 => s.secConfig p
  | _ => []

/-- The blocks that a request of an index reports: 0 the number of blocks, 255 all of them. -/
def State.measured (s : State) (p : Part) (i : Nat) : List Byte :=
  if i = 0 then [6] else if i = 255 then (upTo 1 6).flatMap (s.measure p) else s.measure p i

/-! ### Answers (R324, R327) -/

/-- The sideband words that carry an SPDM message of a Plocen (R325): the message's length in two bytes, a byte that is 1 where it is
secured, and the SPDM bytes, packed into 64-bit payloads. -/
def sidebandWords (secured : Bool) (b : List Byte) : List (BitVec 64) :=
  let m := leBytes 2 b.length ++ leBytes 1 (ofBool secured) ++ b
  (List.range ((m.length + 7) / 8)).map fun i => BitVec.ofNat 64 (fieldNat m (8 * i) 8)

/-- The 32-bit words of the PCIe data object that carries an SPDM message of the Ronpex (R325): vendor 1, type 1 for CMA/SPDM or 2 for secured
CMA/SPDM, the object's length in words, and the message's bytes, packed (PRESUMED: the PCIe standard's object, log 31). -/
def doeWords (secured : Bool) (b : List Byte) : List (BitVec 64) :=
  let n := (b.length + 3) / 4
  BitVec.ofNat 64 (1 + 2 ^ 16 * (1 + ofBool secured)) :: BitVec.ofNat 64 (n + 2)
    :: (List.range n).map fun i => BitVec.ofNat 64 (fieldNat b (4 * i) 4)

/-- Parameter 2 of an SPDM request, its byte 3: the certificate slot of KEY_EXCHANGE (PRESUMED, log 31). -/
def spdmParam2 (req : List Byte) : Nat := fieldNat req 3 1

/-- The bytes of an SPDM response of version 1.3 (R324): version, code, the two parameters, and the rest. -/
def spdmBytes (code : Nat) (body : List Byte) : List Byte := 0x13 :: BitVec.ofNat 8 code :: body

/-- A response goes out, in a session as a secured message (R324, R325): from the Ronpex as a data object of its DOE mailbox, from the Plocen
as sideband words. -/
def State.spdmReply (s : State) (p : Part) (session : Option Nat) (code : Nat) (body : List Byte) : State :=
  let n := (s.sec p).answered
  let plain := spdmBytes code body
  let b := match session with
    | none => plain
    | some id => Config.securedMessage id n plain
  let words := match p with
    | .ronpex => doeWords session.isSome b
    | .plocen => sidebandWords session.isSome b
  (s.modSec p fun x => { x with answered := n + 1 }).emit (.spdm p code body words)

/-- ERROR with a code: 1 InvalidRequest, 2 InvalidSession, 4 UnexpectedRequest, 6 DecryptError, 10 SessionLimitExceeded. -/
def State.spdmError (s : State) (p : Part) (session : Option Nat) (e : Nat) : State := s.spdmReply p session 0x7F (leBytes 2 e)

/-- A session that may carry secured requests. -/
def Security.isOpen (x : Security) (id : Nat) : Bool := x.sessions.any fun t => t.id == id && t.finished

/-- `x` with one session changed. -/
def Security.sessionSet (x : Security) (id : Option Nat) (f : Session → Session) : Security :=
  { x with sessions := x.sessions.map fun t => if (id == some t.id) then f t else t }

/-- A request is answered: its code, session, slot or index, and its bytes. -/
def State.spdmAnswer (s : State) (p : Part) (code : Nat) (session : Option Nat) (slot : Nat) (req : List Byte) : State :=
  let s := s.modSec p fun x => { x with msgs := (if code = 0x84 then [] else x.msgs) ++ [(code, req)] }
  let x := s.sec p
  let body (m : List Byte) : List Byte := Config.spdmResponse (x.cdi1 p) x.answered x.msgs code req m
  let badSession : Bool := match session with
    | none => false
    | some i => !x.isOpen i
  if code = 0x84 then (s.modSec p fun x => { x with neg := 1 }).spdmReply p session 0x04 (body [])
  else if code = 0xE1 then
    (if x.neg = 1 then (s.modSec p fun x => { x with neg := 2 }).spdmReply p session 0x61 (body []) else s.spdmError p session 4)
  else if code = 0xE3 then
    (if x.neg = 2 then (s.modSec p fun x => { x with neg := 3 }).spdmReply p session 0x63 (body []) else s.spdmError p session 4)
  else if x.neg ≠ 3 then s.spdmError p session 4
  else if code = 0x81 then s.spdmReply p session 0x01 (body (s.chain p))
  else if code = 0x82 then (if slot = 0 then s.spdmReply p session 0x02 (body (s.chain p)) else s.spdmError p session 1)
  else if code = 0x83 then (if slot = 0 then s.spdmReply p session 0x03 (body ((upTo 1 6).flatMap (s.measure p))) else s.spdmError p session 1)
  else if code = 0xE0 then
    (if badSession then s.spdmError p session 2
     else if 6 < slot ∧ slot ≠ 255 then s.spdmError p session 1
     else (s.spdmReply p session 0x60 (body (s.measured p slot))).modSec p fun x => { x with
       restarted := x.restarted && !(slot == 5 || slot == 255) })
  else if code = 0xE4 then
    (if spdmParam2 req ≠ 0 then s.spdmError p session 1
     else if 4 ≤ x.sessions.length then s.spdmError p session 10
     else (s.modSec p fun x => { x with
       sessions := x.sessions ++ [{ id := x.nextSession, finished := false, updates := 0 }], nextSession := x.nextSession + 1 }).spdmReply
         p session 0x64 (body ((upTo 1 6).flatMap (s.measure p))))
  else if code = 0xE5 then
    (if (x.sessions.any fun t => some t.id == session && !t.finished) then
      if !Config.spdmFinishVerifies (x.cdi1 p) x.msgs req then
        (s.modSec p fun x => { x with sessions := x.sessions.filter fun t : Session => some t.id != session }).spdmError p none 6
      else (s.modSec p fun x => x.sessionSet session fun t => { t with finished := true }).spdmReply p session 0x65 (body [])
     else s.spdmError p session 2)
  else if badSession ∨ session.isNone then s.spdmError p session 2
  else if code = 0xE9 then
    (s.modSec p fun x => x.sessionSet session fun t => { t with updates := t.updates + 1 }).spdmReply p session 0x69 (body [])
  else if code = 0xE8 then s.spdmReply p session 0x68 (body [])
  else if code = 0xEC then
    (s.modSec p fun x => { x with sessions := x.sessions.filter fun t : Session => some t.id != session }).spdmReply p session 0x6C (body [])
  else s.spdmError p session 4

/-- A request arrives: it is held while layer 1 restarts (R327). -/
def State.spdmIn (s : State) (p : Part) (code : Nat) (session : Option Nat) (slot : Nat) (req : List Byte) : State :=
  if (s.sec p).restartAt.isSome then
    s.modSec p fun x => { x with held := x.held ++ [{ code := code, session := session, slot := slot, req := req }] }
  else s.spdmAnswer p code session slot req

/-! ### Keys (R336, R337, R339) -/

/-- The response to a key request: OP and STATUS. -/
def State.keyReply (s : State) (p : Part) (session : Option Nat) (op status : Nat) : State :=
  s.spdmReply p session 0x7E (leBytes 1 op ++ leBytes 1 status)

/-- A refused key request sets INSTALL (R343, R344). -/
def State.keyRefused (s : State) (p : Part) (session : Option Nat) (op status : Nat) : State :=
  (s.secError p 3 0).keyReply p session op status

/-- KIND is one of the part's, and SKEIN a tenant skein. -/
def keyFits (p : Part) (kind skein : Nat) : Bool :=
  (match p with
    | .ronpex => kind == 3
    | .plocen => kind == 1 || kind == 2) && decide (1 ≤ skein) && decide (skein < 64)

/-- STATUS 0x02: the skein is not the Plocen's, or is FREE at the Ronpex. -/
def State.keySkein (s : State) (p : Part) (skein : Nat) : Bool :=
  match p with
  | .ronpex => s.skeinState skein != 0
  | .plocen => s.flag .plocen Reg.epSecAssign 7 && s.epSkein == skein

/-- KEY_STABLE of a part. -/
def State.keyStable (s : State) : Part → Bool
  | .ronpex => s.flag .ronpex Reg.secCfg 0
  | .plocen => s.flag .plocen Reg.epSecCfg 0

/-- STATUS of an INSTALL; where several conditions hold: malformed first, then the order of the table (DESIGN CHOICE, log 29). -/
def State.installStatus (s : State) (p : Part) (session : Option Nat) (kind skein : Nat) (malformed : Bool) : Nat :=
  if malformed || !keyFits p kind skein || !(session.any (s.sec p).isOpen) then 4
  else if s.keyStable p && (s.sec p).fw != 0 then 1
  else if !s.keySkein p skein then 2
  else if kind = 3 ∧ !s.isConf skein then 3
  else 0

/-- The registers that show a key: its KEY_ID. -/
def keyIdReg (kind skein : Nat) : Nat := if kind = 1 then Reg.epSecModelId else if kind = 2 then Reg.epSecSkyId else Reg.secFkeyId skein

/-- A key is installed and logged. -/
def State.keySet (s : State) (p : Part) (kind skein keyId : Nat) (key : BitVec 512) : State :=
  let old := s.reg p (keyIdReg kind skein)
  let s0 := if kind = 2 then s.modEw fun w => { w with
    skyTx := [], skyRx := w.skyRx.map fun e : Nat × SkyRun => (e.1, { e.2 with tag := 0, count := 0 }) } else s
  let s1 := s0.modSec p fun x =>
    if kind = 1 then { x with model := some key }
    else if kind = 2 then { x with sky := some key, skyCnt := [], skyOver := [] }
    else { x with fkeys := (x.fkeys.filter fun k => k.1 != skein) ++ [(skein, key)] }
  let s2 := s1.setReg p (keyIdReg kind skein) keyId
  (if kind = 3 then s2.setFlag p (Reg.secFkeyStat skein) 0 true else s2).plog p (keyBody s.now 4 kind skein old keyId)

/-- A key is destroyed. -/
def State.keyGone (s : State) (p : Part) (kind skein : Nat) : State :=
  match p with
  | .ronpex => s.destroyFkey skein
  | .plocen => s.destroyEpKey kind

/-- INSTALL. -/
def State.install (s : State) (p : Part) (session : Option Nat) (kind skein : Nat) (keyId : Word) (key : BitVec 512)
    (malformed : Bool) : State :=
  if (s.sec p).restartAt.isSome then
    s.modSec p fun x => { x with held := x.held ++ [{ code := 0xFE, session := session, slot := 1, req := [] }] }
  else
    let st := s.installStatus p session kind skein malformed
    if st = 0 then (s.keySet p kind skein keyId.toNat key).keyReply p session 1 0 else s.keyRefused p session 1 st

/-- DESTROY. -/
def State.destroy (s : State) (p : Part) (session : Option Nat) (kind skein : Nat) (malformed : Bool) : State :=
  if (s.sec p).restartAt.isSome then
    s.modSec p fun x => { x with held := x.held ++ [{ code := 0xFE, session := session, slot := 2, req := [] }] }
  else if malformed || !keyFits p kind skein || !(session.any (s.sec p).isOpen) then s.keyRefused p session 2 4
  else if !s.keySkein p skein then s.keyRefused p session 2 2
  else (s.keyGone p kind skein).keyReply p session 2 0

/-! ### Restarts of layer 1 (R327, R328, R387, R405, R406) -/

/-- FIRMWARE (R390). -/
def State.fwEvent (s : State) (p : Part) : State :=
  let x := s.sec p
  if p = .ronpex then s.post (plainEvent s.now 0x71 (x.fw + 256 * ofBool x.slotB)) else s

/-- A firmware step is logged (R400, R403): ADDRESS the active slot, OLD and NEW the states before and after. -/
def State.fwLog (s : State) (p : Part) (old : Nat) : State :=
  let x := s.sec p
  s.plog p { time := s.now, type := 4, origin := 4, requester := 0, port := 255, skein := 0, addr := ofBool x.slotB,
             old := BitVec.ofNat 32 old, new := BitVec.ofNat 32 x.fw }

/-- The firmware state of a part changes (R328). -/
def State.fwState (s : State) (p : Part) (new : Nat) : State :=
  let old := (s.sec p).fw
  ((s.modSec p fun x => { x with fw := new }).fwLog p old).fwEvent p

/-- Layer 1 begins to restart (R327): its sessions end. -/
def State.restartLayer1 (s : State) (p : Part) (activating : Bool) : State :=
  s.modSec p fun x => { x with restartAt := some s.now, activating := activating, sessions := [] }

/-- A request that was held is answered: a secured one with ERROR InvalidSession. -/
def State.heldAnswer (s : State) (p : Part) (h : HeldReq) : State :=
  if h.session.isSome then s.spdmError p none 2
  else if h.code = 0xFE then s.keyRefused p none h.slot 4
  else s.spdmAnswer p h.code none h.slot h.req

/-- Layer 1 runs again: events, commands and requests that were held go on. -/
def State.layer1Back (s : State) (p : Part) : State :=
  let x := s.sec p
  let s1 := s.modSec p fun x => { x with restartAt := none, activating := false, restarted := true, sessions := [], held := [] }
  let s2 := match p with
    | .plocen => s1
    | .ronpex =>
      let t := s1.rp.mgmt.held.foldl (fun u e => u.post e) (s1.modMgmt fun m => { m with held := [] })
      match t.rp.mgmt.aborted with
      | some r => (t.modMgmt fun m => { m with aborted := none }).cmdEvent r 7 0
      | none => t
  let s3 := x.held.foldl (fun t h => t.heldAnswer p h) s2
  match p with
  | .plocen => s3
  | .ronpex => s3.cmdNext

/-- PST.FWSVN is raised to the SVN of the image that now runs (R406). -/
def State.raiseSvn (s : State) : State :=
  let x := s.rp.sec
  if x.isFactory x.slotB then s
  else
    let svn := leNat (x.slotRead x.slotB 6 2)
    if s.rp.pst.word Reg.pstFwsvn % 2 ^ 16 < svn then s.pstCell Reg.pstFwsvn svn else s

/-- Layer 1 has restarted: an activation makes the staged slot the active one, and requests held over it see the state stable (R327, R328). -/
def State.layer1Done (s : State) (p : Part) : State :=
  let x := s.sec p
  if x.restartAt.isNone then s
  else if !x.activating then s.layer1Back p
  else
    let s2 := ((s.modSec p fun x => { x with slotB := !x.slotB }).fwState p 0).layer1Back p
    if p = .ronpex then s2.raiseSvn.cmdWaited .activate 0 0 else s2

/-- The new image does not start within 50 ms: the old one runs again. -/
def State.fwFailed (s : State) (p : Part) : State :=
  match (s.sec p).restartAt with
  | none => s
  | some t =>
    if !(s.sec p).activating ∨ s.now < t + 50000000 then s
    else
      let s1 := (s.fwState p 0).layer1Back p
      if p = .ronpex then s1.cmdWaited .activate 0 1 else s1

end Sys2Proof.Machine
end

