-- ==== Sys2Proof/Machine/PowerOps.lean ====
section
/-! DEFINITION. Power, thermal steps, sleep and wake, the hold-up save, fabric time's sources, and the resets of either part
(R345, R366-R376, R379-R383, R418, R428-R430, R447). -/

namespace Sys2Proof.Machine

open Sys2Proof

/-- `s` with the power control changed. -/
def State.modPower (s : State) (f : Power → Power) : State := { s with rp := { s.rp with power := f s.rp.power } }

/-! ### SCALE (R312, R368) -/

/-- SCALE changes (R312): the scaled SLOTS of every skein change with it, their ports get new assignments, and a power event is posted. -/
def State.setScale (s : State) (v : Nat) : State :=
  if v = s.scale then s
  else (s.setFld .ronpex Reg.budStat 0 9 v).sendSlots.powerEvent

/-- The power limit in effect, W (R368, R383): 1,000 in FULL, else LIMIT, clamped. -/
def State.powerLimit (s : State) : Nat :=
  if s.fld .ronpex Reg.timPwrCtl 0 2 = 1 ∨ s.fld .ronpex Reg.timPwrCtl 0 2 = 2 then
    max 600 (min 1000 (s.fld .ronpex Reg.timPwrCtl 4 10))
  else 1000

/-- The ceiling of SCALE under PWRALERT_N (R369, R383): without a valid POWER alternate it is 32. -/
def State.alertScale (s : State) : Nat :=
  if s.altValid 1 then max 32 (min 256 (s.fld .ronpex Reg.timPwrCtl 16 9)) else 32

/-- The ceiling of SCALE (R368): each die in reset takes a quarter of the HBM capacity away (R346; DEDUCED, log 33). -/
def State.scaleCeiling (s : State) : Nat :=
  let c := if s.rp.power.alert then s.alertScale else if 2 ≤ s.fld .ronpex Reg.timPwrStat 2 2 then 128 else 256
  min c (256 - 64 * s.rp.units.dies.length)

/-- The sum of an activity over the last 61 frames. -/
def Power.sum (x : Power) (a : Nat) : Nat := (x.hist.map fun l => l.getD a 0).sum

/-- Whether the average of an activity is over `n` hundredths of its cap (R367, R368). -/
def State.overCap (s : State) (a n : Nat) : Bool :=
  decide (powerCap a * s.powerLimit * s.rp.power.hist.length * n < 100000 * s.rp.power.sum a)

/-- Whether the average of an activity is below 0.95 of its cap. -/
def State.underCap (s : State) (a : Nat) : Bool :=
  decide (100000 * s.rp.power.sum a < 95 * powerCap a * s.powerLimit * s.rp.power.hist.length)

/-- The POWER alternate is in effect, and no PRIMARY order is on its way to end it (R369). -/
def State.powerStays (s : State) : Bool := s.flag .ronpex Reg.timPwrStat 1 && !(s.rp.warp.orders.any fun x => x.o.kind == 3)

/-- An order of class POWER is issued where its alternate is valid, unless it is in effect to stay or already on its way (R206, R207,
R369). With no draft in effect it changes no slot; it ends the hold of HBM accesses. -/
def State.powerRequest (s : State) : State :=
  if s.altValid 1 && !s.powerStays && !(s.rp.warp.orders.any fun x => x.o.kind == 1 && x.o.cls == 1) then
    s.issueOrder (s.newOrder 1 1 0 0 0 4000 s.activeSkeins [])
  else s

/-- Once PWRALERT_N has been clear for 100 ms and THERM_STEP is below 2, a PRIMARY order ends the POWER alternate (R369); where
none is in effect, held work resumes at once. -/
def State.powerReturn (s : State) : State :=
  let clear := !s.rp.power.alert && (match s.rp.power.alertOff with
    | none => true
    | some t => decide (t + 100000000 ≤ s.now))
  if !clear || decide (2 ≤ s.fld .ronpex Reg.timPwrStat 2 2) then s
  else
    let s1 := s.modPower fun x => { x with alertOff := none, wakeHeld := false }
    if s1.flag .ronpex Reg.timPwrStat 1 && s1.running then
      if s1.rp.warp.orders.any fun x => x.o.kind == 3 then s1 else s1.issueOrder (s1.newOrder 3 0 0 0 0 4000 s1.activeSkeins [])
    else ((s1.setFlag .ronpex Reg.timPwrStat 1 false).setFlag .ronpex Reg.timPwrStat 4 false).modPower fun x => { x with hbmHeld := false }

/-- The controller's loop at a frame boundary, with the power of the six activities in the frame that has ended (R367, R368), and the
capacitor's voltage where a seventh entry gives it (R383). Activity 5
over its cap calls for an event alone: a POWER event when its average goes above the cap (DEDUCED, log 156). -/
def State.powerFrame (s : State) (activity : List Nat) : State :=
  let six := activity.take 6
  let s0 := s.modPower fun x => { x with hist := (six :: x.hist).take 61, volt := activity.getD 6 x.volt }
  let n := s0.rp.power.hist.length
  let avg (a : Nat) : Nat := s0.rp.power.sum a / n
  let s1 := (List.range 6).foldl (fun t a =>
    t.setReg .ronpex (Reg.timPwr a) (avg a % 2 ^ 16 + 2 ^ 16 * (powerCap a * s0.powerLimit / 1000))) s0
  let s2 := s1.setFld .ronpex Reg.timPwrStat 16 16 (((List.range 6).map avg).sum)
  let above := s2.overCap 1 100 || s2.overCap 3 100
  let low := s2.underCap 1 && s2.underCap 3
  let calm := if low then min (s2.rp.power.calm + 1) 4 else 0
  let scale :=
    if above || decide (1000 < six.sum) then max (s2.scale - 32) 32
    else if calm = 4 then s2.scale + 8 else s2.scale
  let s3 := (s2.modPower fun x => { x with calm := calm }).setScale (min scale s2.scaleCeiling)
  let idle := s.fld .ronpex Reg.timPwrCtl 0 2 == 2
  let optCalm := if s3.underCap 0 then min (s3.rp.power.optCalm + 1) 64 else 0
  let hubCalm := if s3.underCap 4 then min (s3.rp.power.hubCalm + 1) 64 else 0
  let spinOver := if s3.overCap 2 100 then min (s3.rp.power.spinOver + 1) 4 else 0
  let s4 := s3.modPower fun x => { x with
    optCalm := optCalm, hubCalm := hubCalm, spinOver := spinOver
    otherOver := s3.overCap 5 100
    optLpi := idle || s3.overCap 0 100 || (x.optLpi && optCalm != 64)
    hubHalf := s3.overCap 4 100 || (x.hubHalf && hubCalm != 64) }
  let s5 := if s3.overCap 5 100 && !s3.rp.power.otherOver then s4.powerEvent else s4
  if spinOver = 4 then s5.powerRequest else s5

/-! ### PWRALERT_N (R369, R430) -/

/-- TIM.WAKE.STATE (R383). -/
def State.wakeState (s : State) : Nat := s.fld .ronpex Reg.timWake 2 2

/-- A wake-token frame (R395). -/
def State.tokenFrame (s : State) (tok : Nat) : TrayFrame :=
  { ftype := 2, hops := 7, src := s.trayPos, dst := 255, fseq := s.rp.tray.fseq, mgmt := none, body := [BitVec.ofNat 8 tok], crc := 0 }

/-- A token travels on, out of port 0 only (R396). The chain master notes that it has seen it, and withdraws it while the tray does
not hold the rack token (R374). -/
def State.sendToken (s : State) (tok : Nat) : State :=
  let master := s.flag .ronpex Reg.timWake 4
  let s1 := if master then s.modTray fun t => { t with tokenAt := SMap.set t.tokenAt tok s.now } else s
  if master && !s.flag .ronpex Reg.timWake 5 then s1.modTray fun t => { t with tokens := t.tokens.filter fun x => x != tok }
  else (s1.modTray fun t => { t with fseq := (t.fseq + 1) % 2 ^ 16 }).trayOut 0 (s1.tokenFrame tok)

/-- The token held is returned to the chain (R373, R374). -/
def State.returnToken (s : State) : State :=
  match s.rp.power.token with
  | none => s
  | some (tok, _) => (s.modPower fun x => { x with token := none }).sendToken tok

/-- A token is held for at most 1 ms (R396): at a frame boundary it is returned where the next one would come too late. -/
def State.tokenDue (s : State) : State :=
  match s.rp.power.token with
  | none => s
  | some (_, t) => if t + 1000000 < s.now + frameNs then s.returnToken else s

/-- PWRALERT_N is asserted (R369): SCALE falls, HBM accesses and deferrable work are held, and the POWER order is issued. Without a
valid alternate nothing would end the hold of HBM accesses, so they go on under SCALE 32 (DEDUCED, log 34). A staged wake stops
(R430). -/
def State.alertOn (s : State) : State :=
  if s.rp.power.alert then s
  else
    let s1 := (s.modPower fun x => { x with
      alert := true, alertOff := none
      hbmHeld := s.altValid 1 && !s.powerStays }).pstCount Reg.pstTrips 16 16
    let s2 := (s1.setFlag .ronpex Reg.timPwrStat 0 true).setFlag .ronpex Reg.timPwrStat 4 true
    let s3 := (s2.powerEvent.setScale (min s2.scale s2.alertScale)).powerRequest
    if s3.wakeState = 3 ∧ !s3.rp.power.ramp.isEmpty then
      ((s3.modPower fun x => { x with wakeHeld := true, t0 := none }).returnToken).setFld .ronpex Reg.timWake 2 2 2
    else if s3.wakeState = 2 then s3.modPower fun x => { x with wakeHeld := true }
    else s3

/-- PWRALERT_N is deasserted (R369): the 100 ms begin. -/
def State.alertOff (s : State) : State :=
  if s.rp.power.alert then
    ((s.modPower fun x => { x with alert := false, alertOff := some s.now }).setFlag .ronpex Reg.timPwrStat 0 false).powerEvent
  else s

/-! ### Thermal steps (R370, R371) -/

/-- A die's temperature: the highest reading of its group, 0.1 degrees (R370). -/
def dieTemp (l : List Int) (d : Nat) : Int := ((l.drop (8 * d)).take 8).foldl max (l.getD (8 * d) 0)

/-- The package's temperature (R370). -/
def packageTemp (l : List Int) : Int := max (max (dieTemp l 0) (dieTemp l 1)) (max (dieTemp l 2) (dieTemp l 3))

/-- The hottest die. -/
def hottestDie (l : List Int) : Nat := ((List.range 4).find? fun d => dieTemp l d == packageTemp l).getD 0

/-- The threshold of a thermal step, 0.1 degrees. -/
def stepAt (n : Nat) : Int := [950, 1000, 1050].getD (n - 1) 1050

/-- THERM_STEP changes: a THERMAL event for each step entered or cleared (R371, R390), and an in-band interrupt where it is enabled
(R384). -/
def State.thermStep (s : State) (n : Nat) : State :=
  let old := s.fld .ronpex Reg.timPwrStat 2 2
  if n = old then s
  else
    let steps := if old < n then (List.range (n - old)).map (old + 1 + ·) else (List.range (old - n)).map (old - ·)
    let ev (k : Nat) : Event := plainEvent s.now 0x31 (k + 256 * hottestDie s.rp.power.sensors)
    let s1 := steps.foldl (fun t k => t.postFor (ev k) 2 t.activeSkeins) (s.setFld .ronpex Reg.timPwrStat 2 2 n)
    let s2 := if s1.flag .ronpex Reg.hubCtl 1 then s1.emit .ibi else s1
    if old < 2 ∧ 2 ≤ n then s2.powerRequest else if 2 ≤ old ∧ n < 2 then s2.powerReturn else s2

/-- Since when a condition has held, by key: kept while it holds. -/
def holdSince (l : List (Nat × Nat)) (now k : Nat) (holds : Bool) : List (Nat × Nat) :=
  if !holds then l.filter fun x => x.1 != k else if l.any fun x => x.1 == k then l else l ++ [(k, now)]

/-- The region of a die with the highest sensor that step 3 has not fenced yet, which sensor lies where being open (R371). -/
def State.hottestRegion (s : State) (d : Nat) : Option Nat :=
  let l := s.rp.power.sensors
  let reg (i : Nat) : Nat := Config.sensorRegion (8 * d + i) % 4
  let ok := (List.range 8).filter fun i => !s.flag .ronpex (Reg.timTherm d) (16 + reg i)
  let best := ok.foldl (fun (b : Option Nat) i => match b with
    | none => some i
    | some j => if l.getD (8 * d + j) 0 < l.getD (8 * d + i) 0 then some i else some j) none
  best.map reg

/-- Step 3 fences a region of a die (R371): its port units with CAUSE 0x06. -/
def State.thermalFence (s : State) (d : Nat) : State :=
  let s1 := s.modPower fun x => { x with fencedAt := (x.fencedAt.filter fun e => e.1 != d) ++ [(d, s.now)] }
  match s.hottestRegion d with
  | none => s1
  | some r =>
    let s2 := s1.setFlag .ronpex (Reg.timTherm d) (16 + r) true
    if s2.regionOff (4 * d + r) then s2
    else s2.fenceGroup 6 (4 * d + r) 6 (regionPorts (4 * d + r)) (regionSpindles (4 * d + r))

/-- The sensors at a frame boundary (R370, R371): a step is entered on the frame after its threshold is reached. -/
def State.thermalFrame (s : State) (sensors : List Int) : State :=
  let old := s.rp.power.sensors
  let t := packageTemp old
  let reached := if old.isEmpty then 0 else if 1050 ≤ t then 3 else if 1000 ≤ t then 2 else if 950 ≤ t then 1 else 0
  let s1 := s.thermStep (max (s.fld .ronpex Reg.timPwrStat 2 2) reached)
  let hot (d : Nat) : Bool := !old.isEmpty && decide (1050 ≤ dieTemp old d)
  let s2 := s1.modPower fun x => { x with fencedAt := x.fencedAt.filter fun e => hot e.1 }
  let s3 := (List.range 4).foldl (fun u d => if hot d && !(u.rp.power.fencedAt.any fun e => e.1 == d) then u.thermalFence d else u) s2
  let s4 := (List.range 4).foldl (fun u d => u.setFld .ronpex (Reg.timTherm d) 0 16 (ofSigned 16 (dieTemp sensors d))) s3
  s4.modPower fun x => { x with
    sensors := sensors
    cool := (upTo 1 3).foldl (fun l n => holdSince l s.now n (decide (packageTemp sensors ≤ stepAt n - 30))) x.cool
    dieCool := (List.range 4).foldl (fun l d => holdSince l s.now d (decide (dieTemp sensors d < 970))) x.dieCool }

/-- The highest step clears, and those below it whose condition holds as well (R371). -/
def State.stepsClear : Nat → State → State
  | 0, s => s
  | n + 1, s =>
    let k := s.fld .ronpex Reg.timPwrStat 2 2
    if k ≠ 0 ∧ (s.rp.power.cool.any fun e => e.1 == k && decide (e.2 + 1000000000 ≤ s.now)) then
      stepsClear n (s.thermStep (k - 1))
    else s

/-- 500 ms after a region of a die was fenced, a further one is, while the die stays at or above 105 degrees (R371). -/
def State.thermalAgain (s : State) (d : Nat) : State :=
  if decide (1050 ≤ dieTemp s.rp.power.sensors d) && s.fld .ronpex Reg.timPwrStat 2 2 == 3
      && (s.rp.power.fencedAt.any fun e => e.1 == d && decide (e.2 + 500000000 ≤ s.now)) then
    s.thermalFence d
  else s

/-- The regions of a die that step 3 fenced are reset once the die has been below 97 degrees for 1 s (R371). -/
def State.coolReturn (s : State) (d : Nat) : State :=
  if s.rp.power.dieCool.any fun e => e.1 == d && decide (e.2 + 1000000000 ≤ s.now) then
    let l := (List.range 4).filter fun r => s.flag .ronpex (Reg.timTherm d) (16 + r)
    l.foldl (fun t r =>
      let t1 := t.setFlag .ronpex (Reg.timTherm d) (16 + r) false
      if t1.regionOff (4 * d + r) then t1 else t1.resetRegionAt (4 * d + r) 4 false) s
  else s

/-! ### Holdover (R382) -/

/-- `s` with the time state of a part changed. -/
def State.modTime (s : State) (p : Part) (f : TimeSt → TimeSt) : State := s.setTimeSt p (f (s.timeSt p))

/-- The part holds over, once it has been LOCKED since its last reset (R382). -/
def State.holdOver (s : State) (p : Part) : State :=
  let t := s.timeSt p
  let s1 := s.modTime p fun t => { t with
    parent := none, source := 3, exchAt := some s.now, good := 0, bad := 0
    holdover := if t.everLocked then (t.holdover.orElse fun _ => some s.now) else none }
  if t.everLocked && t.holdover.isNone then s1.timeEvent p 3 else s1

/-! ### Sleep and staged wake (R373, R374, R428, R447) -/

/-- A die without power (R373, R428): its units are off, and its stack's contents are lost. -/
def State.dieOff (s : State) (d : Nat) : State :=
  let l := (List.range 4).map (4 * d + ·)
  let s1 := l.foldl (fun t r => (t.loseEddies (regionPorts r)).resetRegion r) (s.dieLost d)
  let s2 := s1.modUnits fun u => { u with
    regions := u.regions.filter fun x => x.1 / 4 != d, dies := u.dies.filter fun x => x.1 != d, awake := setBit d false u.awake }
  s2.showUnits false (l.flatMap fun r => regionPorts r ++ (regionPorts r).map (416 + ·) ++ (regionSpindles r).map (192 + ·))

/-- Every enable is deasserted, and the board removes the rails (R429): the power goods fall with them (DESIGN CHOICE, log 176). -/
def State.enablesOff (s : State) : State :=
  s.modPower fun x => { x with coreEn := 0, hbmEn := 0, corePg := 0, hbmPg := 0, enAt := [], ramp := [], t0 := none }

/-- No tenant skein is ACTIVE, and no draft runs. -/
def State.quiet (s : State) : Bool := s.activeSkeins.isEmpty && !s.running

/-- What SLEEP takes from the hub (R452): the alternates, the switch-side counters, and READY of every region. -/
def State.hubAsleep (s : State) : State :=
  let s1 := (List.range 8).foldl (fun t c => t.setFlag .ronpex (Reg.drfAlt c) 3 false) s
  let s2 := (List.range 256).foldl (fun t n => t.setFlag .ronpex (Reg.fmhRgnCtl n) 10 false) s1
  { s2 with rp := { s2.rp with fmem := { s2.rp.fmem with hcnt := [], served := [], zeroing := [], zeroLeft := 0 } } }

/-- The hub's time across SLEEP (R452): it holds over and is no longer LOCKED. A master needs no parent and keeps its time (DEDUCED, log
158). -/
def State.timeAsleep (s : State) : State :=
  if s.rp.time.source = 2 then s else (s.holdOver .ronpex).modTime .ronpex fun t => { t with locked := false }

/-- SLEEP (R373, R452): accepted only while no tenant skein is ACTIVE and no draft runs. -/
def State.sleepCmd (s : State) : State :=
  if s.wakeState = 0 ∧ s.quiet then
    let s1 := (List.range 192).foldl (fun t n => t.fencePort n 5) s
    let s2 := (List.range 4).foldl (fun t d => t.dieOff d) s1
    (s2.showUnits false ((List.range 128).map (288 + ·))).enablesOff.hubAsleep.timeAsleep.setFld .ronpex Reg.timWake 2 2 1
  else s

/-- An address of the draft store of some region (R412). -/
def inDraftStore (a : Nat) : Bool := decide (0x1000000 ≤ a) && decide (a < 0x5000000) && decide (0x300000 ≤ a % 0x400000)

/-- What WAKE finds of the draft stores and the fabric-resident memory (R452): the stores are zero, and every VALID region waits to be
zeroed. -/
def State.wakeStores (s : State) : State :=
  let l := (List.range 256).filter fun n => s.flag .ronpex (Reg.fmhRgnCtl n) 0
  { s with rp := { s.rp with
    regs := s.rp.regs.filter fun e => !inDraftStore e.1
    warp := { s.rp.warp with accepted := 0 }
    fmem := { s.rp.fmem with zeroing := l, zeroLeft := (l.head?.map fun n => s.zeroLines n).getD 0 } } }

/-- WAKE (R373, R452): the package waits for a token. -/
def State.wakeCmd (s : State) : State :=
  if s.wakeState = 1 ∧ !s.rp.power.tripped then
    (s.wakeStores.modPower fun x => { x with ramp := [0, 1, 2, 3], wakeHeld := x.alert }).setFld .ronpex Reg.timWake 2 2 2
  else s

/-- Die d asserts its enables at t0 + 50 us * d (R373, R428). -/
def State.rampDue (s : State) : State :=
  match s.rp.power.t0 with
  | none => s
  | some t =>
    let go := s.rp.power.ramp.filter fun d => decide (t + 50000 * d ≤ s.now)
    s.modPower fun x => { x with
      ramp := x.ramp.filter fun d => !go.contains d
      coreEn := go.foldl (fun m d => setBit d true m) x.coreEn, hbmEn := go.foldl (fun m d => setBit d true m) x.hbmEn
      enAt := go.foldl (fun m d => SMap.set m d s.now) x.enAt }

/-- A free token passes: a package that waits takes it (R374), and t0 is that moment; else it travels on. The chain master withdraws it
while the tray does not hold the rack token, though it waits itself. A package that has tripped takes no part (R372). -/
def State.tokenHere (s : State) (tok : Nat) : State :=
  if s.rp.power.tripped then s
  else if s.flag .ronpex Reg.timWake 4 && !s.flag .ronpex Reg.timWake 5 then s.sendToken tok
  else if s.wakeState = 2 ∧ !s.rp.power.wakeHeld ∧ s.rp.power.token.isNone then
    ((s.modPower fun x => { x with token := some (tok, s.now), t0 := some s.now }).setFld .ronpex Reg.timWake 2 2 3).rampDue
  else s.sendToken tok

/-- The chain master creates a token (R374). -/
def State.newToken (s : State) (tok : Nat) : State :=
  (s.modTray fun t => { t with
    tokenAt := SMap.set t.tokenAt tok s.now, tokens := (t.tokens.filter fun x => x != tok) ++ [tok] }).tokenHere tok

/-- A token that the chain master has not seen for 10 ms is created afresh (R396). -/
def State.tokenAgain (s : State) (tok : Nat) : State :=
  if s.flag .ronpex Reg.timWake 4 && s.flag .ronpex Reg.timWake 5 && !(s.rp.power.token.any fun x => x.1 == tok)
      && decide (SMap.look (fun _ => 0) s.rp.tray.tokenAt tok + 10000000 ≤ s.now) then
    s.newToken tok
  else s

/-- TIM.WAKE is written (R373, R374, R383). A package that becomes chain master with the rack token creates the
tokens that are not out (R374). -/
def State.wakeWrite (s : State) (v : Nat) : State :=
  let creates (t : State) : Bool := t.flag .ronpex Reg.timWake 4 && t.flag .ronpex Reg.timWake 5
  let s1 := s.setFld .ronpex Reg.timWake 4 2 (bits 4 2 v)
  let s2 := if bits 0 2 v = 1 then s1.sleepCmd else if bits 0 2 v = 2 then s1.wakeCmd else s1
  if creates s2 && !creates s then
    ([0, 1].filter fun k => !s2.rp.tray.tokens.contains k).foldl (fun t k => t.newToken k) s2
  else s2

/-- CORE_PG[d] is asserted and the die's clocks lock (R373, R428): its units enter quarantine, and after die 3 the token is
returned. -/
def State.corePgOn (s : State) (d : Nat) : State :=
  if bit d s.rp.power.coreEn && !bit d s.rp.power.corePg && !s.rp.power.tripped then
    let s1 := (s.modPower fun x => { x with corePg := setBit d true x.corePg }).modUnits fun u => { u with awake := setBit d true u.awake }
    let l := (List.range 4).map (4 * d + ·)
    let us := l.flatMap fun r => regionPorts r ++ (regionSpindles r).map (192 + ·)
    let s2 := us.foldl (fun (t : State) (i : Nat) => t.quarantine i) s1
    let s3 := s2.showUnits false (l.flatMap fun r => (regionPorts r).map (416 + ·))
    let s4 := if d = 3 then s3.returnToken else s3
    if s4.rp.units.awake = 15 then (s4.modPower fun x => { x with t0 := none }).setFld .ronpex Reg.timWake 2 2 0 else s4
  else s

/-- CORE_PG[d] or HBM_PG[d] is not asserted in time, or falls (R428): a fault of die d. -/
def State.powerGoodLost (s : State) (d : Nat) : State :=
  if bit d s.rp.power.coreEn then
    (s.modPower fun x => { x with corePg := setBit d false x.corePg, hbmPg := setBit d false x.hbmPg }).resetDie d 4
  else s

/-- HBM_PG[d] is asserted, and the stack has trained (R264, R345, R428): with the last of them the channel controllers return (R352). -/
def State.stackTrained (s : State) (d : Nat) : State :=
  if bit d s.rp.power.hbmEn then
    (({ s with rp := { s.rp with
      power := { s.rp.power with hbmPg := setBit d true s.rp.power.hbmPg }
      fmem := { s.rp.fmem with trained := setBit d true s.rp.fmem.trained } } }).showUnits false
      ((List.range 128).map (288 + ·))).channelsReturn
  else s

/-! ### Hold-up (R375, R376, R397, R398) -/

/-- The writes in the queue of the persistent store are made (R398). -/
def State.pstFlush (s : State) : State :=
  let q := s.rp.pst.queue
  q.foldl (fun t e => t.pstCell e.1 e.2.toNat) { s with rp := { s.rp with pst := { s.rp.pst with queue := [] } } }

/-- The supply monitor trips (R375, R398, R429): queued writes are made, then the newest entries are saved until the voltage falls
below the save minimum (after `volt` entries) or ALLOWANCE is reached; the charge count reads zero after `charge` entries. -/
def State.supplyTrip (s : State) (volt charge : Nat) : State :=
  if s.rp.power.supplyLost then s
  else
    let s1 := s.pstFlush
    let l := s1.rp.log
    let room := min (bits 0 13 (s1.rp.pst.word Reg.pstHoldup)) (min 4096 l.ents.length)
    let n := min room volt
    let loss := if charge < n then some charge else if volt < room ∧ volt < charge then some volt else none
    let l' : Log := { l with saved := some (l.h, l.ents.reverse.take n), capLoss := loss }
    let s2 : State := { s1 with rp := { s1.rp with log := l' } }
    let s3 := (List.range 4).foldl (fun t d => t.dieOff d) s2.enablesOff
    s3.modPower fun x => { x with supplyLost := true, ready := false, token := none, auxPg := false }

/-- The saved entries go back into the log ahead of new ones, and a power-loss entry gives their number (R375); a loss of
capacitance is logged and lowers ALLOWANCE (R376). -/
def State.logRestore (s : State) : State :=
  match s.rp.log.saved with
  | none => s
  | some (h, l) =>
    let log : Log := { ents := l.reverse, pend := l.length, h := h, saved := none, capLoss := none }
    let s1 : State := { s with rp := { s.rp with log := log } }
    let s2 := s1.rpLog { time := s.now, type := 6, origin := 6, requester := 0, port := 255, skein := 0, addr := 0, old := 0,
                         new := BitVec.ofNat 32 l.length }
    match s.rp.log.capLoss with
    | none => s2
    | some c =>
      let w := s2.rp.pst.word Reg.pstHoldup
      let old := bits 0 13 w
      let new := min old c
      (s2.pstCell Reg.pstHoldup (setBit 13 true (setBits 0 13 new w))).rpCond 0x0F 6 0 255 0 0 old new

/-! ### Resets (R345, R418, R430, R434, R447) -/

/-- What a package reset at `now` leaves of the Ronpex (R418): the persistent store, the saved log and the firmware slots. TIM.NOW
counts from 0 again (R383). -/
def Ronpex.afterReset (r : Ronpex) (now : Nat) (powerUp tripped pin : Bool) (tripClear : Nat) : Ronpex :=
  { pst := r.pst
    log := { saved := r.log.saved, capLoss := r.log.capLoss }
    sec := { slotB := r.sec.slotB, fw := if r.sec.fw = 1 then 1 else 0, slotDataA := r.sec.slotDataA, slotDataB := r.sec.slotDataB
             factory := r.sec.factory }
    time := { base := now, resetAt := now }
    power := { powerUp := powerUp, tripped := tripped, inReset := pin, tripClear := tripClear, auxPg := r.power.auxPg } }

/-- The package is reset (R345): every part of it stops, and all fabric-resident memory, keys and containers are lost. -/
def State.packageReset (s : State) (powerUp tripped pin : Bool) (tripClear : Nat) : State :=
  let s1 := s.pstFlush
  { s1 with hbm := [], rp := s1.rp.afterReset s.now powerUp tripped pin tripClear }

/-- PKG_RESET_N is asserted (R345, R430): a wake token is returned. -/
def State.pkgResetPin (s : State) : State :=
  s.returnToken.packageReset (s.rp.power.powerUp || s.rp.power.supplyLost || s.rp.power.tripped) s.rp.power.tripped true
    s.rp.power.tripClear

/-- A sensor reaches 110 degrees (R372, R429): THERMTRIP_N is asserted, every enable is deasserted and the package resets. The latch of
THERMTRIP_N clears 10 ms after the power goods have fallen. -/
def State.thermTrip (s : State) : State :=
  if s.rp.power.tripped then s else (s.pstCount Reg.pstTrips 0 16).packageReset true true false (s.now + 10000000)

/-- PKG_RESET_N is deasserted (R429, R447): the hub starts, the package takes a new generation (R353), the saved log returns
(R375), and the core dies are asleep. A package that has tripped returns only by a pulse of PKG_RESET_N after its latch has cleared
(R372, R429). -/
def State.pkgStart (s : State) : State :=
  if !s.rp.power.inReset then s
  else if s.rp.power.tripped ∧ s.now < s.rp.power.tripClear then s.modPower fun x => { x with inReset := false }
  else
    let up := s.rp.power.powerUp
    let s1 := s.modPower fun x => { x with inReset := false, powerUp := false, tripped := false, supplyLost := false, ready := true, auxPg := true }
    let s2 := s1.logRestore
    let s3 := (s2.genAdvance 608).getD s2
    (if up then s3.pstCount Reg.pstCycles 0 32 else s3).setFld .ronpex Reg.timWake 2 2 1

/-- EP_RESET_N (R339, R418): every EP_ register, key and queue; the firmware slots and factory values stay. -/
def State.plocenReset (s : State) : State :=
  let x := s.ep.sec
  { s with ep := {
    time := { base := s.now, resetAt := s.now }
    sec := { slotB := x.slotB, fw := if x.fw = 1 then 1 else 0, slotDataA := x.slotDataA, slotDataB := x.slotDataB, factory := x.factory } } }

/-- The hub restarts (R345, R387): layer 1 and the budget controller restart, and a command that executes ends with ABORTED after
it. -/
def State.hubRestart (s : State) : State :=
  ((s.modMgmt fun m => { m with running := none, aborted := if m.running.isSome then m.running else m.aborted }).modPower
    fun x => { x with hist := [], calm := 0, spinOver := 0, optCalm := 0, hubCalm := 0 }).restartLayer1 .ronpex false

/-- HUB.CTL is written (R345, R406, R407): HUB_RESET is ignored while layer 1 restarts. -/
def State.hubCtlWrite (s : State) (v : Nat) : State :=
  let s1 := s.setFlag .ronpex Reg.hubCtl 1 (bit 1 v)
  if bit 0 v && s1.rp.sec.restartAt.isNone then s1.hubRestart else s1

/-- PCIE_PERST_N (R430): the EN bits of the three rings and the endpoint's MSI-X table are cleared; the counts stay. -/
def State.perst (s : State) : State :=
  let s1 := [Reg.mgtCmdCfg, Reg.mgtEvtCfg, Reg.logCfg].foldl (fun (t : State) (a : Nat) => t.setFlag .ronpex a 4 false) s
  let s2 := (List.range 16).foldl (fun t i => t.setReg .ronpex (Reg.mgtMsix i) (rpReset (Reg.mgtMsix i))) s1
  (List.range 2).foldl (fun t i => t.setReg .ronpex (Reg.mgtMsixPba i) 0) s2

/-! ### Sources of fabric time (R379, R382) -/

/-- No exchange has come from the parent for 3 ms (R382). -/
def State.parentLost (s : State) (p : Part) : State :=
  let t := s.timeSt p
  if s.now < t.exchAt.getD t.resetAt + 3000000 then s
  else match p with
  | .ronpex =>
    if s.flag .ronpex Reg.timCtl 0 ∨ t.source = 2 then s
    else if t.source ≠ 1 ∧ t.holdover.isNone ∧ s.fld .ronpex Reg.timCtl 16 8 ≠ 255 then
      s.modTime p fun t => { t with source := 1, parent := none, exchAt := some s.now, good := 0, bad := 0 }
    else if s.flag .ronpex Reg.timCtl 1 then
      (s.modTime p fun t => { t with
        source := 2, parent := none, depth := 0, locked := t.everLocked, holdover := none }).timeEvent p 4
    else s.holdOver p
  | .plocen =>
    let cur := (List.range 8).find? fun q => s.isParent .plocen q
    let s1 := match cur with
      | some q => s.modLink .plocen q fun l => { l with farTime := none }
      | none => s
    if (List.range 8).any fun q => s1.isParent .plocen q then
      s1.modTime p fun t => { t with parent := none, exchAt := some s.now, good := 0, bad := 0 }
    else s1.holdOver p

/-- A part that has held over for 150 ms fences every port it has (R382); the Ronpex's CAUSE is 0x01 (DESIGN CHOICE, log 35). -/
def State.holdoverOver (s : State) (p : Part) : State :=
  let t := s.timeSt p
  if t.everLocked && (t.holdover.any fun h => decide (h + 150000000 ≤ s.now)) then
    match p with
    | .ronpex => (List.range 192).foldl (fun u n => u.fencePort n 1) s
    | .plocen =>
      (List.range 8).foldl (fun u n => u.resendPlane n) { s with ep := { s.ep with released := [] } }
  else s

/-- An 8-byte write of TIM.SET (R379, R383): taken by the master while no draft runs and no tenant skein is ACTIVE. -/
def State.timeSetWrite (s : State) (v : Nat) : State :=
  if s.flag .ronpex Reg.timCtl 0 && s.quiet then s.modTime .ronpex fun t => { t with set := some v } else s

/-- TIM.CTL is written (R379, R383): MASTER makes the part its own source; clearing it returns to the parent. -/
def State.timCtlWrite (s : State) (v : Nat) : State :=
  let was := s.flag .ronpex Reg.timCtl 0
  let s1 := s.setReg .ronpex Reg.timCtl (bAnd v 0xFFFF03)
  if bit 0 v && !was then
    (s1.modTime .ronpex fun t => { t with
      source := 2, parent := none, depth := 0, locked := true, everLocked := true, holdover := none }).timeEvent .ronpex 4
  else if was && !bit 0 v then
    (s1.modTime .ronpex fun t => { t with
      source := if bits 8 8 v = 255 then 3 else 0, locked := false, good := 0, bad := 0, exchAt := some s.now }).timeEvent .ronpex 4
  else s1

end Sys2Proof.Machine
end

