-- ==== Sys2Proof/Machine/Faults.lean ====
section
/-! DEFINITION. The commands of faults, fencing, recovery and the fabric-wide orders (R345-R365, R421): one meaning per row. -/

namespace Sys2Proof.Machine

open Sys2Proof

/-- A fault at a unit, cluster, region or die is fenced at its level (R345). A fault of the package is a hub fault. -/
def State.siteFault (s : State) : FaultSite → State
  | .unit i =>
    if i < 192 then s.fencePort i 1
    else if i < 288 then s.fenceSpindle (i - 192) 1
    else if i < 416 then s.fenceChannel (i - 288) 1 0
    else if i < 608 then s.portDown .ronpex (i - 416) (s.fld .ronpex (psBase .ronpex (i - 416) + 4) 8 8)
    else s.hubRestart
  | .cluster k => s.fenceCluster k
  | .region r => if s.regionOff r then s else s.resetRegionAt r 4 false
  | .die d => if bit d s.rp.units.awake then s.resetDie d 4 else s

/-- A fault is detected at its level (R345, R346). -/
def execUnitInternalError (site : FaultSite) (s : State) : Host.Outcome State Fault Refusal := .next (s.siteFault site)

/-- PRT[n].CTL is written with FENCE (R365). -/
def execPrtFence (n : Fin 192) (value : Word) (wr : Writer) (s : State) : Host.Outcome State Fault Refusal :=
  .next (s.wrote .ronpex (portBase n + 4) value.toNat wr fun t => t.unitCtl n value.toNat wr)

/-- PRT[n].CTL is written with RETURN (R365, R352). -/
def execPrtReturn (n : Fin 192) (value : Word) (wr : Writer) (s : State) : Host.Outcome State Fault Refusal :=
  .next (s.wrote .ronpex (portBase n + 4) value.toNat wr fun t => t.unitCtl n value.toNat wr)

/-- HUB.UCTL[i] is written with FENCE (R421). -/
def execUctlFence (i : Fin 609) (value : Word) (wr : Writer) (s : State) : Host.Outcome State Fault Refusal :=
  .next (s.wrote .ronpex (Reg.hubUctl i) value.toNat wr fun t => t.unitCtl i value.toNat wr)

/-- HUB.UCTL[i] is written with RETURN (R421). -/
def execUctlReturn (i : Fin 609) (value : Word) (wr : Writer) (s : State) : Host.Outcome State Fault Refusal :=
  .next (s.wrote .ronpex (Reg.hubUctl i) value.toNat wr fun t => t.unitCtl i value.toNat wr)

/-- A step of a unit's quarantine ends (R352). -/
def execQuarantineStepDone (i : Fin 609) (passed : Bool) (s : State) : Host.Outcome State Fault Refusal :=
  .next (s.quarantineStep i passed)

/-- A Plocen port is released into service (R354). -/
def execPortRelease (p : Fin 8) (src : MgmtSource) (port gen : Nat) (s : State) : Host.Outcome State Fault Refusal :=
  .next (s.epMgmtIn p src.node (.portRelease port gen))

/-- A PATH_LOSS notice arrives (R350). -/
def execPathLoss (part : Part) (src : MgmtSource) (plane tL : Nat) (s : State) : Host.Outcome State Fault Refusal :=
  .next (s.mgmtIn part src (.pathLoss plane tL))

/-- An epoch order arrives (R355). -/
def execEpochOrder (part : Part) (src : MgmtSource) (epoch effective : Nat) (s : State) : Host.Outcome State Fault Refusal :=
  .next (s.mgmtIn part src (.epochOrder epoch effective))

/-- The waiting epoch order takes effect where its EFFECTIVE has come (R355). -/
def State.epochDue (s : State) (p : Part) : State :=
  match (s.orders p).epoch with
  | none => s
  | some (e, t) =>
    if s.now < t then s
    else match p with
      | .ronpex => (s.rpEpochApply e).cmdWaited (.epoch t) 0 0
      | .plocen => s.epEpochApply e

/-- EFFECTIVE of an epoch order (R355). -/
def execEpochApply (part : Part) (s : State) : Host.Outcome State Fault Refusal := .next (s.epochDue part)

/-- A fault report arrives (R360). -/
def execReport (src : MgmtSource) (r : Report) (s : State) : Host.Outcome State Fault Refusal := .next (s.rpMgmtIn src (.report r))

/-- A report window of a Plocen ends (R359). -/
def execReportWindowExpire (type target : Nat) (s : State) : Host.Outcome State Fault Refusal := .next (s.reportWindow type target)

/-- A snapshot order arrives (R363). -/
def execSnapshotOrder (part : Part) (src : MgmtSource) (t number : Nat) (skeins : BitVec 64) (s : State) :
    Host.Outcome State Fault Refusal := .next (s.mgmtIn part src (.snapshotOrder t number skeins))

/-- At T the counters are captured (R363). -/
def execSnapshotCapture (part : Part) (s : State) : Host.Outcome State Fault Refusal := .next (s.snapCapture part)

/-- The reset of a region, or of the die it is in, is done (R345): a RESET command that waits for it ends (R388). -/
def State.resetEnds (s : State) (r : Nat) : State :=
  let inReset (t : State) : Bool := t.rp.units.regions.any fun x => x.1 == r
  let dying (t : State) : Bool := t.rp.units.dies.any fun x => x.1 == r / 4
  let s1 := s.regionBack r
  let s2 := if inReset s && !inReset s1 then s1.cmdWaited (.reset false r) 0 0 else s1
  if dying s && !dying s1 then s2.cmdWaited (.reset true (r / 4)) 0 0 else s2

/-- The reset of a region ends (R345). -/
def execRegionResetDone (r : Fin 16) (s : State) : Host.Outcome State Fault Refusal := .next (s.resetEnds r)

end Sys2Proof.Machine
end

