-- ==== Sys2Proof/Machine/Power.lean ====
section
/-! DEFINITION. The commands of power, thermal steps, wake, pins and fabric time (R345, R366-R383, R418, R428-R430, R444, R447): one
meaning per row. -/

namespace Sys2Proof.Machine

open Sys2Proof

/-- PKG_RESET_N is asserted (R345, R430). -/
def execPkgReset (s : State) : Host.Outcome State Fault Refusal := .next s.pkgResetPin

/-- HUB.CTL.HUB_RESET is written (R345, R406). -/
def execHubReset (value : Word) (wr : Writer) (s : State) : Host.Outcome State Fault Refusal :=
  .next (s.wrote .ronpex Reg.hubCtl value.toNat wr fun t => t.hubCtlWrite value.toNat)

/-- A sensor reaches 110 degrees (R372). -/
def execThermtrip (s : State) : Host.Outcome State Fault Refusal := .next s.thermTrip

/-- EP_RESET_N (R418). -/
def execEpReset (s : State) : Host.Outcome State Fault Refusal := .next s.plocenReset

/-- PCIE_PERST_N (R430). -/
def execPciePerst (s : State) : Host.Outcome State Fault Refusal := .next s.perst

/-- PWRALERT_N is asserted (R369, R430). -/
def execPwralertAssert (s : State) : Host.Outcome State Fault Refusal := .next s.alertOn

/-- PWRALERT_N is deasserted (R369). -/
def execPwralertDeassert (s : State) : Host.Outcome State Fault Refusal := .next s.alertOff

/-- PWRALERT_N has been deasserted for 100 ms (R369, R430). -/
def execAlertClearTimeout (s : State) : Host.Outcome State Fault Refusal := .next s.powerReturn

/-- 500 ms after step 3 fenced a region of a die (R371). -/
def execThermalFenceTimer (d : Fin 4) (s : State) : Host.Outcome State Fault Refusal := .next (s.thermalAgain d)

/-- A thermal step clears (R371). -/
def execThermalStepClear (s : State) : Host.Outcome State Fault Refusal := .next (s.stepsClear 3)

/-- A die has been below 97 degrees for 1 s (R371). -/
def execRegionCoolReturn (d : Fin 4) (s : State) : Host.Outcome State Fault Refusal := .next (s.coolReturn d)

/-- SLEEP is written to TIM.WAKE (R373). -/
def execSleep (value : Word) (wr : Writer) (s : State) : Host.Outcome State Fault Refusal :=
  .next (s.wrote .ronpex Reg.timWake value.toNat wr fun t => t.wakeWrite value.toNat)

/-- WAKE is written to TIM.WAKE (R373). -/
def execWake (value : Word) (wr : Writer) (s : State) : Host.Outcome State Fault Refusal :=
  .next (s.wrote .ronpex Reg.timWake value.toNat wr fun t => t.wakeWrite value.toNat)

/-- A free wake token passes (R374). -/
def execWakeToken (token : Fin 2) (s : State) : Host.Outcome State Fault Refusal := .next (s.tokenHere token)

/-- CORE_PG[d] is asserted and the die's clocks lock (R373, R428). -/
def execCorePg (d : Fin 4) (s : State) : Host.Outcome State Fault Refusal := .next (s.rampDue.corePgOn d)

/-- CORE_PG[d] or HBM_PG[d] is not asserted within its limit (R428). -/
def execPowerGoodTimeout (d : Fin 4) (s : State) : Host.Outcome State Fault Refusal := .next (s.powerGoodLost d)

/-- The supply monitor trips (R375, R376). -/
def execSupplyMonitorTrip (voltEntries chargeEntries : Nat) (s : State) : Host.Outcome State Fault Refusal :=
  .next (s.supplyTrip voltEntries chargeEntries)

/-- No exchange from the parent for 3 ms (R382). -/
def execParentLoss (part : Part) (s : State) : Host.Outcome State Fault Refusal := .next (s.parentLost part)

/-- A part has held over for 150 ms (R382). -/
def execHoldoverLimit (part : Part) (s : State) : Host.Outcome State Fault Refusal := .next (s.holdoverOver part)

/-- TIM.SET is written, both halves at once (R379, R383). -/
def execTimeSet (value : BitVec 64) (wr : Writer) (s : State) : Host.Outcome State Fault Refusal :=
  .next (s.wrote .ronpex Reg.timSetLo (bits 0 32 value.toNat) wr fun t =>
    t.wrote .ronpex Reg.timSetHi (bits 32 32 value.toNat) wr fun u => u.timeSetWrite value.toNat)

/-- PKG_RESET_N is deasserted (R447). -/
def execPkgResetDeassert (s : State) : Host.Outcome State Fault Refusal := .next s.pkgStart

/-- An HBM stack has trained (R345). -/
def execHbmTrained (st : Fin 4) (s : State) : Host.Outcome State Fault Refusal := .next (s.stackTrained st)

/-- The Plocen's junction reaches 110 degrees (R444): EP_THERMTRIP_N is asserted. -/
def execEpThermtrip (s : State) : Host.Outcome State Fault Refusal := .next { s with ep := { s.ep with tripped := true } }

end Sys2Proof.Machine
end

