-- ==== Sys2Proof/Machine/MgmtOps.lean ====
section
/-! DEFINITION. Management rings and commands, the log ring, the tray chain and the persistent store (R214, R386-R399, R402,
R404-R406). -/

namespace Sys2Proof.Machine

open Sys2Proof

/-! ### Commands (R387, R388) -/

/-- Which fields of an entry an OP uses; the others must be zero (R388). -/
structure Uses where
  addr : Bool := false
  len : Bool := false
  p0 : Nat := 0             -- mask of the bits of P0 that are used
  p1 : Bool := false
  args : Nat := 0           -- bytes of ARGS that are used
  deriving DecidableEq, Repr

/-- The reserved bytes and every field that the OP does not use are zero (R387, R388). -/
def Command.unusedZero (c : Command) (u : Uses) : Bool :=
  c.rsv == 0 && (u.addr || c.addr == 0) && (u.len || c.len == 0) && bClear c.p0 u.p0 == 0 && (u.p1 || c.p1 == 0)
    && (c.args.drop u.args).all fun b => b == 0

/-- The command ring gives its next command: the ring is enabled and not stopped, holds one, none executes, and layer 1 runs. -/
def State.mayFetch (s : State) : Bool :=
  s.rp.mgmt.running.isNone && s.flag .ronpex Reg.mgtCmdCfg 4 && !s.flag .ronpex Reg.mgtStat 1
    && s.rp.mgmt.cmdHead != s.rp.mgmt.cmdTail && s.rp.sec.restartAt.isNone

/-- The fetch of a command entry ends in an error (R408): ERRCODE 0x03, and the ring fetches nothing more until it is disabled, as after a bad
doorbell (DEDUCED, log 184). -/
def State.fetchFailed (s : State) : State :=
  ((s.setFlag .ronpex Reg.mgtStat 1 true).setFld .ronpex Reg.mgtStat 8 8 3).errsumMsix s

/-- A fetched command begins (R387): `ok` says that its fields are as its OP asks; a malformed one ends with BAD_CMD. -/
def State.command (s : State) (c : Command) (op : Nat) (ok : Bool) (f : State → State) : State :=
  if !s.mayFetch then s
  else if !c.fetchOk then s.fetchFailed
  else
    let s1 := s.modMgmt fun m => { m with
      running := some { tag := c.tag, count := m.cmdHead, wait := .none }, cmdHead := (m.cmdHead + 1) % 2 ^ 32 }
    if c.op ≠ op ∨ !ok then s1.cmdDone 1 0 else f s1

/-- The running command waits. -/
def State.cmdWait (s : State) (w : CmdWait) : State :=
  s.modMgmt fun m => { m with running := m.running.map fun r => { r with wait := w } }

/-- The writer of an access that a command makes: the command ring lies behind the PCIe endpoint (R384). -/
def ringWriter : Writer := { origin := 0, requester := 0 }

/-! ### Drafts (R214, R388) -/

/-- A draft slot is in effect. -/
def State.slotInEffect (s : State) (slot : Nat) : Bool := s.running && s.rdSlot == slot

/-- A draft slot is the alternate of some class. -/
def State.slotNamed (s : State) (slot : Nat) : Bool :=
  (List.range 8).any fun c => s.flag .ronpex (Reg.drfAlt c) 3 && s.fld .ronpex (Reg.drfAlt c) 0 3 == slot

/-- A slot of which something has been written must be checked again before it is used (R192). -/
def State.slotWritten (s : State) (slot : Nat) : State := s.modWarp fun w => { w with accepted := setBit slot false w.accepted }

/-- The image of one region, 128 KiB, of a draft slot: the words listed, by their byte offset, and zero elsewhere. -/
def State.loadImage (s : State) (region slot : Nat) (words : List (Nat × Word)) : State :=
  let b := draftBase region slot
  let s1 : State := { s with rp := { s.rp with regs := s.rp.regs.filter fun e => !(decide (b ≤ e.1) && decide (e.1 < b + 0x20000)) } }
  words.foldl (fun t w => if w.1 < 0x20000 then t.setReg .ronpex (b + w.1 / 4 * 4) w.2.toNat else t) s1

/-- DRAFT_LOAD. -/
def State.draftLoad (s : State) (p0 : Nat) (image : List (Nat × Word)) (dmaOk : Bool) : State :=
  let slot := bits 8 3 p0
  if s.slotInEffect slot || s.slotNamed slot then s.cmdDone 2 0
  else if !dmaOk then s.cmdDone 4 0
  else
    let regions := if bit 7 p0 then (List.range 16).map fun r => (r, 0x20000 * r) else [(bits 0 4 p0, 0)]
    let s1 := regions.foldl (fun t r =>
      t.loadImage r.1 slot ((image.filter fun w => decide (r.2 ≤ w.1) && decide (w.1 < r.2 + 0x20000)).map fun w => (w.1 - r.2, w.2))) s
    ((s1.slotWritten slot).rpLog { time := s.now, type := 1, origin := 0, requester := 0, port := 255, skein := 0, addr := slot,
                                   old := 0, new := BitVec.ofNat 32 p0 }).cmdDone 0 0

/-! ### Skeins, units, orders -/

/-- SKEIN: as a write of SKN.CMD. -/
def State.skeinOrder (s : State) (p0 : Nat) : State :=
  let k := bits 0 6 p0
  let op := bits 8 3 p0
  let r := s.cmdResult k op
  let s1 := s.skeinWrite (k + 256 * op) (if bit 15 p0 && op == 1 then some (bits 16 6 p0) else none)
  if op = 0 ∨ 4 < op then s.cmdDone 1 0 else if r = 0 then s1.cmdWait .skein else s1.cmdDone 3 r

/-- The unit that FENCE and RETURN name (R388): UNIT_TYPE 1-4. -/
def cmdUnit (p0 : Nat) : Option Nat := if bits 0 8 p0 ≤ 4 then unitIndex (bits 0 8 p0) (bits 8 16 p0) else none

/-- FENCE. -/
def State.fenceCmd (s : State) (p0 : Nat) : State :=
  match cmdUnit p0 with
  | none => s.cmdDone 1 0
  | some i => (s.softFence i ringWriter).cmdDone 0 0

/-- RETURN: one that cannot act is REFUSED (DESIGN CHOICE, log 36). -/
def State.returnCmd (s : State) (p0 : Nat) : State :=
  match cmdUnit p0 with
  | none => s.cmdDone 1 0
  | some i => if (s.returnUnit i).2 then (s.softReturn i ringWriter).cmdDone 0 0 else s.cmdDone 3 0

/-- RESET. A region that is off or in reset cannot be reset (DESIGN CHOICE, log 36). -/
def State.resetCmd (s : State) (p0 : Nat) : State :=
  let n := bits 4 4 p0
  if bit 0 p0 then
    if 4 ≤ n then s.cmdDone 1 0
    else if !bit n s.rp.units.awake || (s.rp.units.dies.any fun x => x.1 == n) then s.cmdDone 2 0
    else (s.cmdWait (.reset true n)).resetDie n 4
  else if s.regionOff n then s.cmdDone 2 0
  else (s.cmdWait (.reset false n)).resetRegionAt n 4 false

/-- EPOCH: the order goes out with EFFECTIVE the first frame boundary at least 10 us later (R355). An epoch that is not ahead is
REFUSED (DESIGN CHOICE, log 36). -/
def State.epochCmd (s : State) (e : Nat) : State :=
  let eff := s.frameAfter 10000 % 2 ^ 32
  if s.epochAhead .ronpex e then (s.cmdWait (.epoch (frameTime s.now eff))).rpEpochIn e eff else s.cmdDone 3 0

/-- SNAPSHOT. -/
def State.snapCmd (s : State) (number t : Nat) (args : List Byte) : State :=
  (s.rpSnapIn t number (BitVec.ofNat 64 (fieldNat args 0 8))).cmdDone 0 0

/-- SEND: it ends with the answer of its container. One to the broadcast node 0x7FFF goes to every end point that a port which is up
faces, and ends with the last answer (R36; DESIGN CHOICE, log 138). -/
def State.sendCmd (s : State) (dest len : Nat) (payload : List Byte) (dmaOk : Bool) : State :=
  if 768 < len then s.cmdDone 1 0
  else if !dmaOk then s.cmdDone 4 0
  else
    let m : Mgmt := .raw (sliceBytes payload 0 len)
    let id := s.rp.src.nextId
    if dest = 0x7FFF then
      let ports := s.upPorts.filter s.facesPlocen
      if ports.isEmpty then s.cmdDone 0 0
      else ports.foldl (fun t p => t.rpMgmtPort p (t.portNode p) m (.mgmt 1))
        (s.cmdWait (.sent ((List.range ports.length).map (id + ·)) false))
    else (s.cmdWait (.sent [id] false)).rpMgmtNode dest m (.mgmt 1)

/-! ### Firmware (R404-R406) -/

/-- FW_WRITE into the inactive slot. -/
def State.fwWriteCmd (s : State) (off len : Nat) (data : List Byte) (dmaOk : Bool) : State :=
  if s.rp.sec.fw ≠ 0 then s.cmdDone 2 0
  else if off % 4096 ≠ 0 ∨ 2 ^ 20 < len ∨ slotBytes < off + len then s.cmdDone 1 0
  else if !dmaOk then s.cmdDone 4 0
  else (s.modSec .ronpex fun x => x.slotWrite (!x.slotB) off (sliceBytes data 0 len)).cmdDone 0 0

/-- PART of a firmware image (R404). -/
def imagePart : Part → Nat
  | .ronpex => 0x0192
  | .plocen => 0x0E08

/-- The result of R405's checks of the image in a part's inactive slot, in their order: 0, REFUSED, SIGNATURE or ROLLBACK. The Plocen has no
PST.FWSVN. -/
def State.fwCheck (s : State) (p : Part) : Nat :=
  let x := s.sec p
  let least := match p with
    | .ronpex => s.rp.pst.word Reg.pstFwsvn % 2 ^ 16
    | .plocen => 0
  let b := !x.slotB
  let head := x.slotRead b 0 512
  let n := x.bodyLength b
  if fieldNat head 0 4 ≠ 0x5746444A ∨ fieldNat head 4 2 ≠ imagePart p then 3
  else if !Config.firmwareSignatureVerifies (Config.sha384 (head.take 64)) (sliceBytes (head.drop 64) 0 96) then 5
  else if slotBytes < 512 + n ∨ (Config.sha384 (x.slotRead b 512 n)).toNat ≠ fieldNat head 16 48 then 5
  else if fieldNat head 6 2 < least then 6
  else 0

/-- FW_VERIFY. -/
def State.fwVerifyCmd (s : State) : State :=
  let r := s.fwCheck .ronpex
  if r ≠ 0 then s.cmdDone r 0 else if s.rp.sec.fw = 0 then (s.fwState .ronpex 1).cmdDone 0 0 else s.cmdDone 0 0

/-- FW_ACTIVATE: only a staged image. -/
def State.fwActivateCmd (s : State) : State :=
  if s.rp.sec.fw ≠ 1 then s.cmdDone 2 0 else ((s.cmdWait .activate).fwState .ronpex 2).restartLayer1 .ronpex true

/-- FW_ERASE: staged returns to stable (R328). -/
def State.fwEraseCmd (s : State) : State :=
  let s1 := s.modSec .ronpex fun x => x.slotErase (!x.slotB)
  (if s1.rp.sec.fw = 1 then s1.fwState .ronpex 0 else s1).cmdDone 0 0

/-! ### Doorbells and the log ring (R386, R402) -/

/-- SIZE of the command and log rings (R408, R409). -/
def State.mgtSize (s : State) (cfg mx : Nat) : Nat := 2 ^ (6 + min (s.fld .ronpex cfg 0 4) mx)

/-- CMD_TAIL (R96, R386). -/
def State.cmdDoorbell (s : State) (t : Nat) : State :=
  let m := s.rp.mgmt
  let n := s.mgtSize Reg.mgtCmdCfg 10
  if n < subMod 32 t m.cmdHead ∨ n < subMod 32 t m.cmdTail then
    ((s.setFlag .ronpex Reg.mgtStat 1 true).setFld .ronpex Reg.mgtStat 8 8 1).errsumMsix s
  else (s.modMgmt fun m => { m with cmdTail := t }).cmdNext

/-- EVT_HEAD (R100, R386, R391): entries are freed, and an OVERFLOW that is owed is posted. -/
def State.evtDoorbell (s : State) (h : Nat) : State :=
  let m := s.rp.mgmt
  if subMod 32 m.evtTail m.evtHead < subMod 32 h m.evtHead then
    ((s.setFlag .ronpex Reg.mgtStat 2 true).setFld .ronpex Reg.mgtStat 8 8 2).errsumMsix s
  else (s.modMgmt fun m => { m with evtHead := h }).evtOverflow

/-- LOG_HEAD (R100, R386). -/
def State.logDoorbell (s : State) (h : Nat) : State :=
  let m := s.rp.mgmt
  if subMod 32 m.logTail m.logHead < subMod 32 h m.logHead then (s.setFlag .ronpex Reg.logStat 19 true).errsumMsix s
  else s.modMgmt fun m => { m with logHead := h }

/-- The next entry is streamed where the log ring is enabled and has room (R402); after a loss, LOG_LOSS comes first. -/
def State.streamLog (s : State) : State :=
  let l := s.rp.log
  let m := s.rp.mgmt
  let n := s.mgtSize Reg.logCfg 14
  match l.ents[l.ents.length - l.pend]? with
  | none => s
  | some e =>
    if !s.flag .ronpex Reg.logCfg 4 || l.pend == 0 || decide (n ≤ subMod 32 m.logTail m.logHead) || s.rp.power.supplyLost then s
    else
      let s1 := if l.lost = 0 then s else s.post (plainEvent s.now 0x73 (2 ^ 32 * min l.lost (2 ^ 32 - 1)))
      let a := s.ringBase Reg.logBaseLo Reg.logBaseHi + 32 * (m.logTail % n)
      let s2 := (s1.emit (.logEntry a e (logRingBytes (m.logTail / n % 2 == 0) e))).modMgmt fun x => { x with logTail := (x.logTail + 1) % 2 ^ 32 }
      ({ s2 with rp := { s2.rp with log := { s2.rp.log with pend := l.pend - 1, lost := 0 } } }).msix 2

/-- The counts of a management ring start from zero when its EN is set (R95, R386). -/
def State.mgtRingStart (s : State) (a : Nat) : State :=
  s.modMgmt fun m =>
    if a = Reg.mgtCmdCfg then { m with cmdTail := 0, cmdHead := 0 }
    else if a = Reg.mgtEvtCfg then { m with evtTail := 0, evtHead := 0 }
    else { m with logTail := 0, logHead := 0 }

/-- The configuration of a management ring is written: setting EN starts its counts from zero, and clearing EN clears the ring's errors, as
R127 has it for the Plocen's rings (DEDUCED, log 37). -/
def State.ringCfgWrite (s : State) (a v : Nat) : State :=
  let s0 := if bit 4 v && !s.flag .ronpex a 4 then s.mgtRingStart a else s
  let s1 := s0.setReg .ronpex a (v % 32)
  let s2 :=
    if bit 4 v then s1
    else if a = Reg.mgtCmdCfg then (s1.setFlag .ronpex Reg.mgtStat 1 false).setFld .ronpex Reg.mgtStat 8 8 0
    else if a = Reg.mgtEvtCfg then (s1.setFlag .ronpex Reg.mgtStat 2 false).setFld .ronpex Reg.mgtStat 8 8 0
    else s1.setFlag .ronpex Reg.logStat 19 false
  if bit 4 v ∧ a = Reg.mgtCmdCfg then s2.cmdNext else if bit 4 v ∧ a = Reg.mgtEvtCfg then s2.evtOverflow else s2

/-! ### The tray chain (R395, R396) -/

/-- A frame of the package's own to its neighbour on a port: port 0 leads to the next position, port 1 to the one before. -/
def State.trayFrame (s : State) (port ftype : Nat) (body : List Byte) : TrayFrame :=
  { ftype := ftype, hops := 7, src := s.trayPos, dst := (s.trayPos + (if port = 0 then 1 else 3)) % 4, fseq := s.rp.tray.fseq
    mgmt := none, body := body, crc := 0 }

/-- It goes out. -/
def State.trayNeighbour (s : State) (port ftype : Nat) (body : List Byte) : State :=
  (s.modTray fun t => { t with fseq := (t.fseq + 1) % 2 ^ 16 }).trayOut port (s.trayFrame port ftype body)

/-- The body of a TIME message (R380). -/
def timeBody (sub b1 time16 : Nat) : List Byte := leBytes 1 (sub + 16 * (time16 % 16)) ++ leBytes 1 b1 ++ leBytes 8 (time16 / 16)

/-- SYNC goes out of a tray-chain port (R380), whose exchanges are kept under ports 192 and 193 (R383). -/
def State.traySync (s : State) (port : Nat) : State :=
  let t := s.rp.time
  let l := s.link .ronpex (192 + port)
  let due := match l.syncAt with
    | none => true
    | some u => decide (u + 1000000 ≤ s.now)
  if !s.trayUp port || !due then s
  else
    let seq := s.rp.tray.fseq % 256
    (s.trayNeighbour port 3 (timeBody 0 (ofBool t.locked + 2 * ofBool (t.source == 2) + 16 * min t.depth 15) (16 * s.partNow .ronpex))).modLink
      .ronpex (192 + port) fun l => { l with syncAt := some s.now, syncSent := some (seq, 16 * s.partNow .ronpex) }

/-- A TIME frame arrives (R380, R381): a SYNC is answered with RXSTAMP, which completes an exchange at the other end. -/
def State.trayTime (s : State) (port fseq : Nat) (b : List Byte) : State :=
  let time16 := 16 * fieldNat b 2 8 + fieldNat b 0 1 / 16
  let b1 := fieldNat b 1 1
  if fieldNat b 0 1 % 4 = 0 then
    (s.modLink .ronpex (192 + port) fun l => { l with
      syncGot := some (time16, 16 * s.partNow .ronpex, fseq % 256), farTime := some (bit 0 b1, bit 1 b1, bits 4 4 b1) }).trayNeighbour port 3
        (timeBody 1 (fseq % 256) (16 * s.partNow .ronpex))
  else if fieldNat b 0 1 % 4 = 1 then s.exchange .ronpex (192 + port) b1 time16
  else s

/-- A frame is acted on, by its type. -/
def State.trayAct (s : State) (port : Nat) (f : TrayFrame) : State :=
  match f.ftype, f.mgmt with
  | 2, _ => s.tokenHere (fieldNat f.body 0 1 % 2)
  | 1, some m => s.rpMgmtIn { port := 192 + port, node := f.src, tray := true } m
  | 3, _ => s.trayTime port f.fseq f.body
  | _, _ => s

/-- A frame arrives on a tray-chain port (R396); one whose CRC does not check is not acted on (R395; DEDUCED, log 157). -/
def State.trayIn (s : State) (port : Nat) (f : TrayFrame) : State :=
  let pos := s.trayPos
  if !s.trayUp port ∨ f.crc ≠ trayCrc f ∨ f.src = pos ∧ f.ftype ≠ 2 ∨ f.ftype = 0 then s
  else
    let recent := s.rp.tray.seen.filter fun x => decide (s.now < x.2.2 + 1000000)
    let first := !(recent.any fun x => x.1 == f.src && x.2.1 == f.fseq)
    let act := (f.dst == pos || f.dst == 255) && first
    let s1 := s.modTray fun t => { t with seen := if act then recent ++ [(f.src, f.fseq, s.now)] else recent }
    let s2 := if act then s1.trayAct port f else s1
    -- a token that is acted on travels on by itself, and one travels out of port 0 only
    if f.ftype = 2 ∧ (f.dst = 255 ∨ port = 0) ∨ f.src = pos ∨ f.dst = pos ∨ f.hops ≤ 1 then s2
    else s2.trayOut (1 - port) { f with hops := f.hops - 1 }

/-- A link of the tray chain goes up or down (R396, R408): a LINK frame tells the neighbour who is there. -/
def State.trayLink (s : State) (port : Nat) (up : Bool) : State :=
  let s1 := s.modTray fun t => { t with link := if port = 0 then (up, t.link.2) else (t.link.1, up) }
  if up then s1.trayNeighbour port 4 (leBytes 8 Config.ronpexSerial.toNat ++ leBytes 1 s.trayPos) else s1

/-! ### The persistent store (R397-R399) -/

/-- The oldest queued write becomes persistent (R398). -/
def State.pstPersist (s : State) : State :=
  match s.rp.pst.queue with
  | [] => s
  | e :: q => ({ s with rp := { s.rp with pst := { s.rp.pst with queue := q } } }).pstCell e.1 e.2.toNat

/-- An RWP word is written (R398, R399): it enters the queue, which holds 64; the write of a word that is locked, or that the writes in the
queue will lock, is a violation. Units that the write releases from PST.FENCE, and that it has held back, enter quarantine. -/
def State.pstWrite (s : State) (a v : Nat) (wr : Writer) : State :=
  if 100000 ≤ s.rp.pst.wearOf a + (s.rp.pst.queue.filter fun e => e.1 == a).length then (s.rpLog (s.writeBody .ronpex a v wr 5)).post (pstEvent s.now 3 a)
  else
    let s0 := if 64 ≤ s.rp.pst.queue.length then s.pstPersist else s
    let was := s0.rp.pst.word a
    let s1 : State := { s0 with rp := { s0.rp with pst := { s0.rp.pst with queue := s0.rp.pst.queue ++ [(a, BitVec.ofNat 32 v)] } } }
    match arrayIndex (Reg.pstFence 0) 4 19 a with
    | none => s1
    | some j =>
      let freed := (List.range 32).filter fun b => bit b was && !bit b v
      freed.foldl (fun t b => t.freeUnit (32 * j + b)) s1

end Sys2Proof.Machine
end

