-- ==== Sys2Proof/Machine/Rings.lean ====
section
/-! DEFINITION. The commands of rings, descriptors and shuttles (R95-R128). -/

namespace Sys2Proof.Machine

open Sys2Proof

/-! ### Doorbells (R96, R100-R102) -/

/-- A store to SQ_DB (R96). -/
def State.sqStore (s : State) (n t : Nat) : State :=
  let r := s.ring n
  if !s.ringOn n then s
  else if s.ringSize n < subMod 32 t r.cqHead ∨ s.ringSize n < subMod 32 t r.sqTail then s.ringError n 1
  else (s.modRing n fun r => { r with sqTail := t }).fetchRing n

/-- A store to CQ_DB (R100). -/
def State.cqStore (s : State) (n h : Nat) : State :=
  let r := s.ring n
  if !s.ringOn n then s
  else if subMod 32 r.cqTail r.cqHead < subMod 32 h r.cqHead then s.ringError n 2
  else s.modRing n fun r => { r with cqHead := h }

/-- A store to ARM (R102). -/
def State.armStore (s : State) (n v : Nat) : State :=
  if !s.ringOn n ∨ !bit 0 v then s else (s.modRing n fun r => { r with armed := true }).ringIntr n

/-! ### Starting a descriptor (R113, R118) -/

/-- The first transmit slot of a phase at this member, over all of its ports. -/
def State.firstTx (s : State) (ph : Nat) : Option Nat :=
  (List.range frameSlots).find? fun n => (List.range 8).any fun j =>
    let e := s.ptEntry (s.ptSlot j) n j
    (entryTx e == 1 || entryTx e == 3) && entryPh e == ph

/-- A WARP_JOIN binds (R109, R110): to the next instance, or to the running one while its first phase is still ahead in round
0; after that it completes with LATE_JOIN. -/
def State.bindJoin (s : State) (n sub raw : Nat) : State :=
  let d := descOf raw
  let (f, l) := d.phases
  let pat := (s.phOf f).pattern
  let running := if f = (s.patOf pat).first then none else s.run? pat
  let late := match running with
    | none => false
    | some r => s.ep.warp.late.contains (pat, f)
        || decide (r.start * frameNs + slotNs * ((s.firstTx f).getD (frameSlots - 1)) < s.now)
  if late then s.postCompletion n sub 9 f d.cookie
  else
    let b : Binding := { id := s.ep.warp.nextId, ring := n, sub := sub, raw := raw, first := f, last := l, pattern := pat
                         inst := running.map fun r : Run => r.inst, landed := [], shadowed := [], failed := none, landing := 0
                         code := none }
    let s1 := s.modEw fun w => { w with nextId := w.nextId + 1, binds := w.binds ++ [b] }
    match running with
    | none => s1
    | some r => r.next.foldl (fun t x => t.readCells b x.1 x.1 x.2.1) s1

/-- A descriptor whose gate is open starts, or completes at once where a check fails (R105, R118). The alignment of an ATOMIC is looked
at before its address is translated (DESIGN CHOICE, log 129). -/
def State.beginDesc (s : State) (n sub raw : Nat) : State :=
  let d := descOf raw
  let start (bad : Option Nat) : State :=
    let a : Act := { ring := n, sub := sub, raw := raw, todo := [d.whole], ahead := 0, list := [], halves := [], asked := 0, checked := false
                     sent := false, parts := 0, landed := 0, code := 0, info := 0, keyDead := false, bad := bad }
    ({ s with ep := { s.ep with acts := s.ep.acts ++ [a] } }).askList n sub
  match s.badDesc d with
  | some o => if listDecides d o then start (some o) else s.postCompletion n sub 7 o d.cookie
  | none =>
    if d.misaligned then s.postCompletion n sub 2 0 d.cookie
    else if d.opc = 7 then s.bindJoin n sub raw
    else if d.opc = 8 then s.postCompletion n sub 0 0 d.cookie
    else start none

/-- The descriptor at the front of a ring starts, where it may. One that waits for a counter moves into the gate pool of 8,192 as it
reaches the front, whatever has started (R113); a WARP_JOIN that meets a full binding table stays where it is (R109). -/
def State.startNext (s : State) (n : Nat) : State :=
  match s.front n with
  | none => s
  | some (sub, raw) =>
    let d := descOf raw
    if !s.ringRuns n then s
    else if (s.badDesc d).isNone && s.descWaits d then
      if 8192 ≤ s.ep.gates.length then s
      else
        let s1 := s.dropFront n
        let g : Parked := { ring := n, sub := sub, raw := raw, since := s.now }
        let s2 : State := { s1 with ep := { s1.ep with gates := s1.ep.gates ++ [g] } }
        s2.settleRing n
    else if s.canStart n d then ((s.dropFront n).beginDesc n sub raw).settleRing n
    else s

/-- The descriptor at the front of a ring has an opcode. -/
def State.frontIs (s : State) (n opc : Nat) : Bool := (s.front n).any fun x => (descOf x.2).opc == opc

/-- The descriptor at the front of a ring starts, where it has the opcode `opc` (R113, R118). -/
def State.startFront (s : State) (n opc : Nat) : State := if s.frontIs n opc then s.startNext n else s

/-- A parked descriptor. -/
def State.parked? (s : State) (n sub : Nat) : Option Parked := s.ep.gates.find? fun g => g.ring == n && g.sub == sub

/-- `s` without a parked descriptor. -/
def State.unpark (s : State) (n sub : Nat) : State :=
  { s with ep := { s.ep with gates := s.ep.gates.filter fun g => !(g.ring == n && g.sub == sub) } }

/-- A parked descriptor's threshold is met (R113): a HANK_WAIT completes, and another starts at its ring's next service. -/
def State.gateOpen (s : State) (n sub : Nat) : State :=
  match s.parked? n sub with
  | none => s
  | some g =>
    let d := descOf g.raw
    if s.descWaits d then s
    else if d.opc = 8 then (s.unpark n sub).postCompletion n sub 0 0 d.cookie
    else if s.canStart n d then (s.unpark n sub).beginDesc n sub g.raw
    else s

/-- The timeout of a HANK_WAIT (R111). It counts from the moment at which the descriptor was parked (DESIGN CHOICE, log 130). -/
def State.waitOver (s : State) (n sub : Nat) : State :=
  match s.parked? n sub with
  | none => s
  | some g =>
    let d := descOf g.raw
    let t := bits 0 32 d.opa
    if d.opc ≠ 8 ∨ t = 0 ∨ s.now < g.since + 1000 * t ∨ !s.descWaits d then s
    else (s.unpark n sub).postCompletion n sub 8 0 d.cookie

/-! ### The scheduler (R119, R120) -/

/-- A service of a ring starts what it can start (R113, R118). -/
def State.serveStart (s : State) (n : Nat) : State :=
  match s.openParked n with
  | some g => s.gateOpen n g.sub
  | none => if s.ringStarts n then s.startNext n else s

/-- The rings that are ready, in DRR order after `last` (R120). -/
def afterLast (l : List Nat) (last : Nat) : List Nat := (l.filter fun r => decide (last ≤ r)) ++ l.filter fun r => decide (r < last)

/-- A ring's deficit is refilled with the WEIGHT and BURST in force (R120, R126). -/
def State.refill (s : State) (n : Nat) : State :=
  let w := max (s.fld .plocen (Reg.epRngSched n) 0 8) 1
  let b := min (max (s.fld .plocen (Reg.epRngSched n) 8 8) 1) 64
  s.modRing n fun r => { r with weight := w, burst := b, deficit := min (r.deficit + w * 16) (w * 64) }

/-- `last[cls]` moves to a ring. -/
def State.setLast (s : State) (cls n : Nat) : State :=
  { s with ep := { s.ep with drr := if cls = 1 then (s.ep.drr.1, n + 1) else (n + 1, s.ep.drr.2) } }

/-- The deficit round-robin of R120 over the ready rings of a class, in order: the ring it comes to rest on. -/
def State.drrPick : Nat → State → Nat → List Nat → Option (Nat × State)
  | 0, _, _, _ => none
  | _, _, _, [] => none
  | n + 1, s, cls, r :: rest =>
    if 1 ≤ (s.ring r).deficit then some (r, s)
    else State.drrPick n ((s.refill r).setLast cls r) cls (rest ++ [r])

/-- A shuttle takes the next burst of a ring (R119): of its oldest started descriptor that has one. -/
def State.takeBurst (s : State) (k cls r : Nat) : State :=
  match (s.ep.acts.filter fun a => a.ring == r).find? fun a => s.canServe k a with
  | none => s
  | some a =>
    let (s1, f) := s.formLoop (min (s.ring r).burst (s.ring r).deficit) k r a.sub none
    let s2 := s1.modRing r fun x => { x with deficit := x.deficit - f }
    if (s2.ring r).deficit < 1 then s2.setLast cls r else s2

/-- A free shuttle serves the next ring (R119, R120): the ring starts what it can start, and the shuttle takes its next burst. -/
def State.serveRing (s : State) (k : Nat) : State :=
  let ready := s.busyRings.filter fun n => s.ringReady k n
  let top := ready.filter fun n => s.flag .plocen (Reg.epRngCfg n) 26
  let cls := if top.isEmpty then 0 else 1
  let l := if top.isEmpty then ready else top
  match s.drrPick (2 * l.length) cls (afterLast l (if cls = 1 then s.ep.drr.2 else s.ep.drr.1)) with
  | none => s
  | some (r, s1) => (s1.serveStart r).takeBurst k cls r

/-- A free shuttle takes work (R120, R125): the oldest container that has to be formed again, or the next burst. -/
def State.schedule (s : State) (k : Nat) : State :=
  let h := s.shuttle k
  if h.fenced ∨ h.burst.isSome ∨ !s.flag .plocen Reg.epShtCtl k then s
  else match s.ep.src.held.find? fun g => g.loc == .again with
    | some g => s.reform k g
    | none => (s.unready.serveRing k).unready

/-! ### Enabling and disabling (R126) -/

/-- A ring starts with zero counts. -/
def State.ringStart (s : State) (n : Nat) : State :=
  s.modRing n fun r => { r with
    active := true, err := false, errCode := 0, fetchStop := false, quiesced := false, sqTail := 0, sqHead := 0, cqTail := 0, cqHead := 0
    issued := 0, arrived := [], fetched := [], armed := true, unannounced := [], deficit := 0
    weight := max (s.fld .plocen (Reg.epRngSched n) 0 8) 1, burst := min (max (s.fld .plocen (Reg.epRngSched n) 8 8) 1) 64 }

/-- Whether an attach access fetches descriptors of a ring. -/
def AttUse.fetches (u : AttUse) (n : Nat) : Bool :=
  match u with
  | .ringFetch m _ _ => m == n
  | _ => false

/-- A ring stops: fetches in flight are dropped, and what has not started completes with QUIESCED. -/
def State.ringStop (s : State) (n : Nat) : State :=
  let r := s.ring n
  let s1 := s.modAtt fun a => { a with
    queue := a.queue.filter fun q : AttReq => !(q.use.any fun u => u.fetches n)
    tags := a.tags.map fun e : Nat × AttTag => if e.2.use.fetches n then (e.1, { e.2 with void := true }) else e }
  let parked := s.ep.gates.filter fun g => g.ring == n
  let waiting := r.fetched ++ parked.map fun g : Parked => (g.sub, g.raw)
  let s2 : State := { s1 with ep := { s1.ep with gates := s1.ep.gates.filter fun g => g.ring != n } }
  waiting.foldl (fun t x => t.postCompletion n x.1 11 0 (descOf x.2).cookie)
    (s2.modRing n fun r => { r with fetched := [], arrived := [], issued := r.sqHead, err := false, errCode := 0, fetchStop := false })

/-- A write to CFG (R126): its EN, INT_EN and PRIO while the ring is active, all of it otherwise; one that sets EN while the
ring drains is ignored. -/
def State.ringCfg (s : State) (n v : Nat) : State :=
  let a := Reg.epRngCfg n
  let on := bit 24 v
  let was := s.ringOn n
  let active := (s.ring n).active
  if active && !was && on then s
  else
    let s1 := s.setReg .plocen a (if active then setBits 24 3 (bits 24 3 v) (s.reg .plocen a) else bits 0 27 v)
    if on && !was then s1.ringStart n else if was && !on then s1.ringStop n else s1.ringIntr n

/-- The last of a disabled ring has finished (R126): ACTIVE clears, QUIESCED is set and the counts become zero. -/
def State.ringDrained (s : State) (n : Nat) : State :=
  let r := s.ring n
  if !r.active ∨ s.ringOn n ∨ (s.ep.acts.any fun a => a.ring == n) ∨ (s.ep.warp.binds.any fun b => b.ring == n) then s
  else s.modRing n fun r => { r with active := false, quiesced := true, sqTail := 0, sqHead := 0, cqTail := 0, cqHead := 0, issued := 0 }

/-! ### The commands -/

/-- A store to the SQ_DB of ring n. -/
def execSqDb (n : Fin 1024) (tail : Word) (s : State) : Host.Outcome State Fault Refusal := 
  .next (s.viaAttach fun t => t.sqStore n tail.toNat)

/-- A store to the CQ_DB of ring n. -/
def execCqDb (n : Fin 1024) (head : Word) (s : State) : Host.Outcome State Fault Refusal := 
  .next (s.viaAttach fun t => t.cqStore n head.toNat)

/-- A store to the ARM of ring n. -/
def execArm (n : Fin 1024) (value : Word) (s : State) : Host.Outcome State Fault Refusal := 
  .next (s.viaAttach fun t => t.armStore n value.toNat)

/-- The oldest unannounced completion has waited IMOD.TIME (R102). -/
def execIntrModerationTimeout (n : Fin 1024) (s : State) : Host.Outcome State Fault Refusal := .next (s.ringIntr n)

/-- A PUT starts. -/
def execPut (n : Fin 1024) (s : State) : Host.Outcome State Fault Refusal := .next (s.startFront n 1).unready

/-- A PUT_ACK starts. -/
def execPutAck (n : Fin 1024) (s : State) : Host.Outcome State Fault Refusal := .next (s.startFront n 2).unready

/-- A GET starts. -/
def execGet (n : Fin 1024) (s : State) : Host.Outcome State Fault Refusal := .next (s.startFront n 3).unready

/-- An ATOMIC starts. -/
def execAtomic (n : Fin 1024) (s : State) : Host.Outcome State Fault Refusal := .next (s.startFront n 4).unready

/-- A GATHER starts. -/
def execGather (n : Fin 1024) (s : State) : Host.Outcome State Fault Refusal := .next (s.startFront n 5).unready

/-- A SCATTER starts. -/
def execScatter (n : Fin 1024) (s : State) : Host.Outcome State Fault Refusal := .next (s.startFront n 6).unready

/-- A WARP_JOIN binds. -/
def execWarpJoin (n : Fin 1024) (s : State) : Host.Outcome State Fault Refusal := .next (s.startFront n 7).unready

/-- A HANK_WAIT completes or is parked. -/
def execHankWait (n : Fin 1024) (s : State) : Host.Outcome State Fault Refusal := .next (s.startFront n 8).unready

/-- A HANK_SET starts. -/
def execHankSet (n : Fin 1024) (s : State) : Host.Outcome State Fault Refusal := .next (s.startFront n 9).unready

/-- An FMEM_PAGE starts. -/
def execFmemPage (n : Fin 1024) (s : State) : Host.Outcome State Fault Refusal := .next (s.startFront n 10).unready

/-- A shuttle takes a burst (R120). -/
def execScheduleBurst (k : Fin 16) (s : State) : Host.Outcome State Fault Refusal := .next (s.schedule k)

/-- A parked descriptor's threshold is met (R113). -/
def execGateMet (n : Fin 1024) (index : Nat) (s : State) : Host.Outcome State Fault Refusal := .next (s.gateOpen n index).unready

/-- A HANK_WAIT times out (R111). -/
def execWaitTimeout (n : Fin 1024) (index : Nat) (s : State) : Host.Outcome State Fault Refusal := .next (s.waitOver n index)

/-- The packing hold of small messages ends (R121). -/
def execPackHoldExpire (dest : Nat) (plane : Fin 8) (s : State) : Host.Outcome State Fault Refusal := .next (s.packExpire dest plane)

/-- A write to CFG that sets EN (R126); it is logged as every register write is (R16). -/
def execRingEnable (n : Fin 1024) (cfg : Word) (wr : Writer) (s : State) : Host.Outcome State Fault Refusal :=
  .next (s.wrote .plocen (Reg.epRngCfg n) cfg.toNat wr fun t => (t.ringCfg n cfg.toNat).unready)

/-- A write to CFG that clears EN (R126); it is logged as every register write is (R16). -/
def execRingDisable (n : Fin 1024) (cfg : Word) (wr : Writer) (s : State) : Host.Outcome State Fault Refusal :=
  .next (s.wrote .plocen (Reg.epRngCfg n) cfg.toNat wr fun t => (t.ringCfg n cfg.toNat).unready)

/-- A disabled ring has drained (R126). -/
def execRingDrainDone (n : Fin 1024) (s : State) : Host.Outcome State Fault Refusal := .next (s.ringDrained n)

end Sys2Proof.Machine
end

