-- ==== Sys2Proof/Machine/Translate.lean ====
section
/-! DEFINITION. The commands of extent translation (R133-R148): the miss and fill rings, fills and invalidations. -/

namespace Sys2Proof.Machine

open Sys2Proof

/-! ### Fetching fill records (R135, R138) -/

/-- Fill records are rejected, waited for or blocked: the Plocen holds an answer for lack of miss-ring space (R138). -/
def State.fillBlocked (s : State) : Bool :=
  s.ep.xlt.held.any fun r => match r.bytes with
    | b :: _ => b == 0x10 || b == 0x11 || b == 0x13
    | [] => false

/-- Fill records that may still be fetched: none where FILL_TAIL has come back below what is issued already (DESIGN CHOICE, log 170). -/
def Xlt.fillsLeft (x : Xlt) : Nat := subMod 32 x.fillTail x.fillHead - subMod 32 x.issued x.fillHead

/-- Fill records up to FILL_TAIL are fetched, up to eight with one MRD that runs neither past the end of the ring nor across
a 4 KiB boundary. -/
def State.fetchFillsFrom : Nat → State → State
  | 0, s => s
  | k + 1, s =>
    let x := s.ep.xlt
    let left := x.fillsLeft
    if left = 0 ∨ x.fetchStop ∨ !x.active ∨ s.ep.att.down ∨ s.fillBlocked then s
    else
      let i := x.issued % s.fillSize
      let m := min (min 8 left) (min (s.fillSize - i) (128 - i % 128))
      let q : AttReq := { kind := 1, use := some (.fillFetch x.issued m), addr := s.epBase Reg.epXltFillBaseLo Reg.epXltFillBaseHi + 32 * i
                          len := 32 * m, data := [], aux := 0 }
      State.fetchFillsFrom k ((s.modXlt fun x => { x with issued := (x.issued + m) % 2 ^ 32 }).request [q])

/-- Everything that may be fetched is fetched. -/
def State.fetchFills (s : State) : State := s.fetchFillsFrom s.ep.xlt.fillsLeft

/-- An error of the translation rings (R148). ERRCODE keeps the first, and ERR clears as EN is cleared or set (DESIGN CHOICE, log 171). -/
def State.xltError (s : State) (code : Nat) : State :=
  s.modXlt fun x => { x with err := true, errCode := if x.err then x.errCode else code, fetchStop := x.fetchStop || code == 1 || code == 3 }

/-- The fill record at the front, where one may be processed (R138, R143, R146). -/
def State.fillFront (s : State) : Option (Nat × Nat) :=
  if s.ep.xlt.inv.isSome ∨ s.ep.xlt.removal.isSome ∨ !s.ep.xlt.active then none else s.ep.xlt.fetched.head?

/-- `s` without the fill record at the front. -/
def State.dropFill (s : State) : State := s.modXlt fun x => { x with fetched := x.fetched.drop 1 }

/-- A fill record is rejected (R138). -/
def State.rejectFill (s : State) (count : Nat) (f : Fill) (reason : Nat) : State := s.dropFill.postAnswer 0x12 (f.tag % 4096) count reason

/-- Records of an unknown OP at the front are rejected: they have no command of their own. -/
def State.settleFillsFrom : Nat → State → State
  | 0, s => s
  | k + 1, s =>
    match s.fillFront with
    | none => s
    | some (c, w) => if (fillOf w).op ≤ 6 then s else State.settleFillsFrom k (s.rejectFill c (fillOf w) 4)

/-- The same, for all of them. -/
def State.settleFills (s : State) : State := s.settleFillsFrom s.ep.xlt.fetched.length

/-- Fill records fetched in order become ready, and FILL_HEAD passes them. -/
def State.takeFills : Nat → State → State
  | 0, s => s
  | k + 1, s =>
    match SMap.find? s.ep.xlt.arrived s.ep.xlt.fillHead with
    | none => s
    | some w => State.takeFills k (s.modXlt fun x => { x with
        arrived := SMap.drop x.arrived x.fillHead, fillHead := (x.fillHead + 1) % 2 ^ 32, fetched := x.fetched ++ [(x.fillHead, w)] })

/-- A fill fetch has ended (R148). -/
def State.fillFetched (s : State) (first m : Nat) (data : List Byte) (ok : Bool) : State :=
  if !ok then s.xltError 3
  else
    let s1 := s.modXlt fun x => { x with
      arrived := (List.range m).foldl (fun a i => SMap.set a ((first + i) % 2 ^ 32) (fieldNat data (32 * i) 32)) x.arrived }
    (s1.takeFills s1.ep.xlt.arrived.length).settleFills

/-! ### Doorbells (R135, R136) -/

/-- A store to FILL_DB (R135). -/
def State.fillStore (s : State) (t : Nat) : State :=
  if !s.xltOn then s
  else if s.fillSize < subMod 32 t s.ep.xlt.fillHead then s.xltError 1
  else (s.modXlt fun x => { x with fillTail := t }).fetchFills

/-- A store to MISS_DB (R135, R148): held records are posted, and those whose write failed are written again. -/
def State.missStore (s : State) (h : Nat) : State :=
  let x := s.ep.xlt
  if !s.xltOn then s
  else if subMod 32 x.missTail x.missHead < subMod 32 h x.missHead then s.xltError 2
  else
    let s1 := (s.modXlt fun x => { x with missHead := h }).rewriteMisses
    (s1.postHeld s1.ep.xlt.held.length).fetchFills

/-- A write to EP_XLT.ARM (R136). -/
def State.xltArmStore (s : State) (v : Nat) : State :=
  if bit 0 v then (s.modXlt fun x => { x with armed := true }).missIntr else s

/-! ### Fill records (R133, R138-R146) -/

/-- Two ranges of pages overlap. -/
def overlaps (a n b m : Nat) : Bool := decide (a < b + 4096 * m) && decide (b < a + 4096 * n)

/-- The least recently used outbound extent leaves where the 4,096 entries are exceeded (R133). -/
def Xlt.trim (x : Xlt) : Xlt := if 4096 < x.outExt.length + x.inExt.length then { x with outExt := x.outExt.drop 1 } else x

/-- Records that a fill of a tag and range answers (R139 step 4). -/
def State.answeredBy (s : State) (e : OutExt) : List Nat :=
  (s.ep.xlt.misses.filter fun m => e.covers m.tag m.va).map fun m : Miss => m.id

/-- FILL_OUT (R133, R139). -/
def State.doFillOut (s : State) (c : Nat) (f : Fill) : State :=
  if s.ep.xlt.outExt.any fun e => e.tag == f.tag && overlaps e.start e.pages f.start f.pages then s.rejectFill c f 1
  else
    let e : OutExt := { tag := f.tag, start := f.start, pages := f.pages, target := f.target, ttag := f.ttag, perm := f.perm }
    let s1 := s.dropFill.modXlt fun x => { x with outExt := x.outExt ++ [e] }.trim
    ((s1.answeredBy e).foldl (fun t i => t.replayMiss i) s1).unready

/-- FILL_IN (R130, R133). -/
def State.doFillIn (s : State) (c : Nat) (f : Fill) : State :=
  if s.ep.xlt.inExt.any fun e => e.tag == f.tag && e.skein == f.ttag && overlaps e.start e.pages f.start f.pages then s.rejectFill c f 1
  else if 2048 ≤ s.ep.xlt.inExt.length then s.rejectFill c f 3
  else
    let e : InExt := { tag := f.tag, skein := f.ttag, start := f.start, pages := f.pages, attach := f.target, perm := f.perm }
    s.dropFill.modXlt fun x => { x with inExt := x.inExt ++ [e] }.trim

/-- Accesses wait on a record. -/
def State.missWaits (s : State) (m : Miss) : Bool :=
  !m.direct.isEmpty || (List.range 16).any fun k => (s.shuttle k).miss == some m.id

/-- FAULT (R138, R139 step 5). -/
def State.doFillFault (s : State) (c : Nat) (f : Fill) : State :=
  match s.ep.xlt.misses.find? fun m => m.count == some f.miss && s.missWaits m with
  | none => s.rejectFill c f 5
  | some m => (s.dropFill.endMiss m.id).unready

/-- Containers of a tag that have not ended (R145). -/
def State.openOf (s : State) (tag : Nat) : List Nat := (s.ep.src.held.filter fun h => h.xtags.contains tag && h.c.opc != 0x3E).map fun h => h.id

/-- A DRAINED record becomes due after INV_DONE (R145). -/
def State.addDrain (s : State) (c : Nat) (f : Fill) : State :=
  if f.drain then s.modXlt fun x => { x with drains := x.drains ++ [(c, f.tag, s.openOf f.tag, true)] } else s

/-- INV_TAG (R142). -/
def State.doInvTag (s : State) (c : Nat) (f : Fill) : State :=
  let s1 := s.dropFill.modXlt fun x => { x with outExt := x.outExt.filter fun e => e.tag != f.tag }
  let s2 := (List.range 17).foldl (fun t m => t.setMicro m ((t.micro m).filter fun e => e.tag != f.tag)) s1
  (s2.postAnswer 0x10 f.tag c 0x1FFFF).addDrain c f

/-- An outbound extent that a range of a tag removes (R143). -/
def Fill.hits (f : Fill) (e : OutExt) : Bool := e.tag == f.tag && overlaps e.start e.pages f.start f.pages

/-- INV_RANGE has been acknowledged by all 17 (R143): that is its removal step, so DRAINED waits for what was formed up to here (R145;
DESIGN CHOICE, log 172). -/
def State.invDone (s : State) : State :=
  match s.ep.xlt.inv with
  | none => s
  | some (c, w, m) =>
    if m ≠ 0x1FFFF then s
    else
      let f := fillOf w
      (((s.modXlt fun x => { x with inv := none }).postAnswer 0x10 f.tag c 0x1FFFF).addDrain c f).settleFills

/-- INV_RANGE (R143): the extent cache drops its entries at once; a fenced shuttle has acknowledged. -/
def State.doInvRange (s : State) (c w : Nat) (f : Fill) : State :=
  let fenced := (List.range 16).filter fun k => (s.shuttle k).fenced
  let s1 := s.dropFill.modXlt fun x => { x with outExt := x.outExt.filter fun e => !f.hits e, inv := some (c, w, maskOf fenced) }
  (fenced.foldl (fun t m => t.setMicro m ((t.micro m).filter fun e => !f.hits e)) s1).invDone

/-- A shuttle or the direct path drops its micro-cache entries and acknowledges (R143). -/
def State.microAck (s : State) (m : Nat) : State :=
  match s.ep.xlt.inv with
  | none => s
  | some (c, w, map) =>
    let f := fillOf w
    ((s.setMicro m ((s.micro m).filter fun e => !f.hits e)).modXlt fun x => { x with inv := some (c, w, setBit m true map) }).invDone

/-- DRAINED is posted for the first pending invalidation of a tag, once the containers that it waits for have ended (R145). -/
def State.drainedNow (s : State) (tag : Nat) : State :=
  match s.ep.xlt.drains.find? fun d => d.2.1 == tag with
  | none => s
  | some d =>
    if d.2.2.1.any fun i => s.ep.src.held.any fun h => h.id == i then s
    else (s.modXlt fun x => { x with drains := x.drains.erase d }).postAnswer 0x11 tag d.1 0

/-- REMOVE_IN (R146): the extents go at once; the pieces of writes and atomics that were translated under them are waited for. -/
def State.doRemoveIn (s : State) (c : Nat) (f : Fill) : State :=
  let out (e : InExt) : Bool := e.tag == f.tag && e.skein == f.ttag && overlaps e.start e.pages f.start f.pages
  let gone := s.ep.xlt.inExt.filter out
  let waits := (s.ep.dest.jobs.filter fun j => j.arr.msg.opc != 0x02).flatMap fun j : Job =>
    (j.under.filter fun u => gone.contains u.1).map fun u : InExt × Nat × Nat => (j.id, u.2.1, u.2.2)
  s.dropFill.modXlt fun x => { x with
    inExt := x.inExt.filter fun e => !out e, removal := some { fill := c, tag := f.tag, count := gone.length, waits := waits } }

/-- An attach access writes part of a piece of a job. -/
def AttUse.writesPiece (u : AttUse) (job off len : Nat) : Bool :=
  match u with
  | .reqWrite j o => j == job && decide (off ≤ o) && decide (o < off + len)
  | .atomWrite j => j == job
  | _ => false

/-- An attach write of a piece is still to be issued, or has not received its CPL, be it timed out (R89, R146). -/
def State.pieceOpen (s : State) (job off len : Nat) : Bool :=
  ((s.job? job).any fun j => j.todo.any fun o => decide (off ≤ o) && decide (o < off + len))
    || s.ep.att.tags.any fun e => e.2.use.writesPiece job off len

/-- IN_REMOVED is posted once those writes have completed (R146). -/
def State.inRemovedNow (s : State) : State :=
  match s.ep.xlt.removal with
  | none => s
  | some r =>
    if r.waits.any fun w => s.pieceOpen w.1 w.2.1 w.2.2 then s
    else ((s.modXlt fun x => { x with removal := none }).postAnswer 0x13 r.tag r.fill r.count).settleFills

/-- The fill record at the front is processed where it has OP `op`: the checks of R138 in their order. -/
def State.doFill (s : State) (op : Nat) : State :=
  match s.fillFront with
  | none => s
  | some (c, w) =>
    let f := fillOf w
    if f.op ≠ op then s
    else if op = 0 then s.dropFill.settleFills
    else
      let s1 :=
        if f.malformed then s.rejectFill c f 4
        else if f.outOfRange then s.rejectFill c f 2
        else match op with
          | 1 => s.doFillOut c f
          | 2 => s.doFillIn c f
          | 3 => s.doFillFault c f
          | 4 => s.doInvTag c f
          | 5 => s.doInvRange c w f
          | _ => s.doRemoveIn c f
      s1.settleFills

/-! ### Enabling and disabling (R135, R136, R147) -/

/-- Setting EN: the counts start from zero and the arm state is set. -/
def State.xltStart (s : State) : State :=
  s.modXlt fun x => { x with
    active := true, err := false, errCode := 0, fetchStop := false, missTail := 0, missHead := 0, fillTail := 0, fillHead := 0, issued := 0
    arrived := [], fetched := [], armed := true, unannounced := 0 }

/-- Whether an attach access fetches fill records. -/
def AttUse.isFill (u : AttUse) : Bool :=
  match u with
  | .fillFetch _ _ => true
  | _ => false

/-- Clearing EN (R147): what waits ends, and every outbound extent is removed. An invalidation or REMOVE_IN still in progress, a DRAINED
still due and the fill records fetched and not processed leave no record behind (DESIGN CHOICE, log 173). -/
def State.xltStop (s : State) : State :=
  let s1 := s.modAtt fun a => { a with
    queue := a.queue.filter fun q : AttReq => !(q.use.any fun u => u.isFill)
    tags := a.tags.map fun e : Nat × AttTag => if e.2.use.isFill then (e.1, { e.2 with void := true }) else e }
  let s2 := s.ep.xlt.misses.foldl (fun t m => t.endMiss m.id) s1
  let s3 := (List.range 17).foldl (fun t m => t.setMicro m []) s2
  s3.modXlt fun x => { x with
    active := false, err := false, errCode := 0, fetchStop := false, missTail := 0, missHead := 0, fillTail := 0, fillHead := 0, issued := 0
    arrived := [], fetched := [], outExt := [], held := [], written := [], failed := [], inv := none, drains := [], removal := none }

/-- A write to EP_XLT.CTL (R147). -/
def State.xltCtl (s : State) (v : Nat) : State :=
  let was := s.xltOn
  let s1 := s.setReg .plocen Reg.epXltCtl (bits 0 2 v)
  if bit 0 v && !was then s1.xltStart else if was && !bit 0 v then s1.xltStop else s1.missIntr

/-- A record has gone unanswered for MISS_TMO (R139 step 6). -/
def State.missTimeout (s : State) (id : Nat) : State :=
  match s.ep.xlt.misses.find? fun m => m.id == id with
  | none => s
  | some m => if m.formedAt + 1000 * max (s.fld .plocen Reg.epXltTmo 0 16) 1 ≤ s.now then (s.endMiss id).unready else s

/-! ### The commands -/

/-- A store to FILL_DB. -/
def execFillDb (tail : Word) (s : State) : Host.Outcome State Fault Refusal := 
  .next (s.viaAttach fun t => t.fillStore tail.toNat)

/-- A store to MISS_DB. -/
def execMissDb (head : Word) (s : State) : Host.Outcome State Fault Refusal := 
  .next (s.viaAttach fun t => t.missStore head.toNat)

/-- A write to EP_XLT.ARM. -/
def execXltArm (value : Word) (s : State) : Host.Outcome State Fault Refusal := 
  .next (s.viaAttach fun t => t.xltArmStore value.toNat)

/-- A NOP fill record. -/
def execFillNop (s : State) : Host.Outcome State Fault Refusal := .next (s.doFill 0)

/-- A FILL_OUT record. -/
def execFillOut (s : State) : Host.Outcome State Fault Refusal := .next (s.doFill 1)

/-- A FILL_IN record. -/
def execFillIn (s : State) : Host.Outcome State Fault Refusal := .next (s.doFill 2)

/-- A FAULT record. -/
def execFillFault (s : State) : Host.Outcome State Fault Refusal := .next (s.doFill 3)

/-- An INV_TAG record. -/
def execInvTag (s : State) : Host.Outcome State Fault Refusal := .next (s.doFill 4)

/-- An INV_RANGE record. -/
def execInvRange (s : State) : Host.Outcome State Fault Refusal := .next (s.doFill 5)

/-- An acknowledgement of an INV_RANGE. -/
def execMicroCacheAck (m : Fin 17) (s : State) : Host.Outcome State Fault Refusal := .next (s.microAck m)

/-- A shuttle detects an internal error (R125): it is fenced, and counts as acknowledged for an INV_RANGE in progress (R143). -/
def execShuttleInternalError (k : Fin 16) (s : State) : Host.Outcome State Fault Refusal := .next ((s.fenceShuttle k).microAck k)

/-- A tag has drained. -/
def execDrained (tag : Nat) (s : State) : Host.Outcome State Fault Refusal := .next (s.drainedNow tag)

/-- A REMOVE_IN record. -/
def execRemoveIn (s : State) : Host.Outcome State Fault Refusal := .next (s.doFill 6)

/-- The writes under removed extents have completed. -/
def execInRemoved (s : State) : Host.Outcome State Fault Refusal := .next s.inRemovedNow

/-- A miss record has gone unanswered: `record` is its number in the model (`Miss.id`). -/
def execMissTmoExpire (record : Nat) (s : State) : Host.Outcome State Fault Refusal := .next (s.missTimeout record)

/-- A write to EP_XLT.CTL that sets EN; it is logged as every register write is (R16). -/
def execXltEnable (ctl : Word) (wr : Writer) (s : State) : Host.Outcome State Fault Refusal :=
  .next (s.wrote .plocen Reg.epXltCtl ctl.toNat wr fun t => (t.xltCtl ctl.toNat).unready)

/-- A write to EP_XLT.CTL that clears EN; it is logged as every register write is (R16). -/
def execXltDisable (ctl : Word) (wr : Writer) (s : State) : Host.Outcome State Fault Refusal :=
  .next (s.wrote .plocen Reg.epXltCtl ctl.toNat wr fun t => (t.xltCtl ctl.toNat).unready)

end Sys2Proof.Machine
end

