-- ==== Sys2Proof/Machine/RegWrite.lean ====
section
/-! DEFINITION. REGISTER_WRITE (R13, R15, R16, R84, R385, R414, R415): a write to any address of either register space. Registers
whose writes have a row of their own act through the same operation as that row. -/

namespace Sys2Proof.Machine

open Sys2Proof

/-- A write to a register of the Ronpex by its access types (R13, R415). -/
def State.plainRp (s : State) (a v : Nat) : State :=
  match rpRow a with
  | none => s
  | some (r, _) => s.setReg .ronpex a (r.written (s.reg .ronpex a) v)

/-- A write to a register of the Plocen by its access types (R13, R415). -/
def State.plainEp (s : State) (a v : Nat) : State :=
  match epRow a with
  | none => s
  | some (r, _) => s.setReg .plocen a (r.written (s.reg .plocen a) v)

/-! ### The Ronpex -/

/-- A BUD word of skein `k` (R312, R317, R320): ignored where the skein is sealed and ACTIVE and its sums would pass a limit. -/
def State.budWrite (s : State) (k a v : Nat) : State :=
  let t := s.plainRp a v
  if s.sealedActive.contains k && !t.sealSums t.sealedActive then s else t

/-- Four entries of a seal map (R315, R321): ignored where the write adds or removes an entry of an ACTIVE sealed skein. -/
def State.sealWrite (s : State) (a v : Nat) : State :=
  let t := s.plainRp a v
  let entry (x : State) (i : Nat) : Nat := bits (8 * i) 8 (x.reg .ronpex a)
  let owned (e : Nat) : Bool := bit 7 e && s.sealedActive.contains (bits 0 6 e)
  if (List.range 4).any fun i => entry s i != entry t i && (owned (entry s i) || owned (entry t i)) then s else t

/-- The MSI-X table (R384, R408): a vector that is unmasked while its pending bit is set is sent. -/
def State.msixWrite (s : State) (a v : Nat) : State :=
  let t := s.plainRp a v
  let i := (a - Reg.mgtMsix 0) / 16
  if a % 16 == 12 && !bit 0 v && t.flag .ronpex (Reg.mgtMsixPba 0) i then
    (t.setFlag .ronpex (Reg.mgtMsixPba 0) i false).msix i
  else t

/-- A word of the memory window (R341, R408). -/
def State.winWrite (s : State) (i v : Nat) : State :=
  let o := s.fld .ronpex Reg.mgtMwin 0 18 * 2 ^ 20 + 4 * i
  if o < 192 * 2 ^ 30 then s.memWrite o (leBytes 4 v) else s

/-- TIM.PWR_CTL (R383): LIMIT is clamped to 600-1,000 W. -/
def pwrCtlValue (v : Nat) : Nat := setBits 4 10 (max 600 (min 1000 (bits 4 10 v))) v

/-- Register arrays of the hub whose writes do more than store. -/
def State.hubArray (s : State) (a v : Nat) (wr : Writer) : State :=
  match arrayIndex (Reg.spdSeedLo 0) 4 128 a with
  | some i => if i / 2 ≠ 0 ∧ s.skeinState (i / 2) = 2 then s else s.plainRp a v
  | none =>
  match arrayIndex (Reg.fmhRgnCtl 0) 16 256 a with
  | some n => s.regionCtl n v
  | none =>
  match arrayIndex (Reg.fmhHgrant 0) 4 64 a with
  | some k => s.hgrantStore k v
  | none =>
  match arrayIndex (Reg.fmhRelayCtl 0) 4 16384 a with
  | some i =>
    if i % 4 = 0 then s.relayCtl (i / 4) v
    else if s.relayBusy (s.fld .ronpex (Reg.fmhRelayCtl (i / 4)) 0 14) then s else s.plainRp a v
  | none =>
  match arrayIndex (Reg.lasAccess 0) 0x100 4 a with
  | some m => s.lasAccess m v
  | none =>
  match arrayIndex (Reg.sknCtl 0) 4 64 a with
  | some k => s.sknCtl k v
  | none =>
  match arrayIndex (Reg.sknPort 0) 4 192 a with
  | some p => s.sknPort p v
  | none =>
  match arrayIndex (Reg.budWeft 0) 4 256 a with
  | some i => s.budWrite (i / 4) a v
  | none =>
  match arrayIndex (Reg.hubUctl 0) 8 609 a with
  | some i => s.unitCtl i v wr
  | none =>
  match arrayIndex (Reg.mgtMsix 0) 4 16 a with
  | some _ => s.msixWrite a v
  | none =>
  match arrayIndex (Reg.mgtWin 0) 4 262144 a with
  | some i => s.winWrite i v
  | none => s.plainRp a v

/-- A write to a register of the hub. -/
def State.hubWrite (s : State) (a v : Nat) (wr : Writer) : State :=
  if a = Reg.hubCtl then s.hubCtlWrite v
  else if a = Reg.xbrCtl then s.plainRp a (if s.occupant.isSome then setBits 0 2 (s.fld .ronpex a 0 2) v else v)
  else if a = Reg.drfCtl then s.drfCtl v
  else if a = Reg.drfCommit then s.commitSlot (bits 0 3 v)
  else if a = Reg.sknCmd then s.skeinWrite v none
  else if a = Reg.budCtl then (s.plainRp a v).sendSlots
  else if a = Reg.timCtl then s.timCtlWrite v
  else if a = Reg.timSetLo ∨ a = Reg.timSetHi then s
  else if a = Reg.timPwrCtl then s.plainRp a (pwrCtlValue v)
  else if a = Reg.timWake then s.wakeWrite v
  else if a = Reg.logCfg ∨ a = Reg.mgtCmdCfg ∨ a = Reg.mgtEvtCfg then s.ringCfgWrite a v
  else if a = Reg.logDb then s.logDoorbell v
  else if a = Reg.mgtCmdDb then s.cmdDoorbell v
  else if a = Reg.mgtEvtDb then s.evtDoorbell v
  else if 0xF00000 ≤ a then
    match rpRow a with
    | none => s
    | some (r, _) => if r.rwp = 0 then s else s.pstWrite a (bAnd v r.rwp) wr
  else s.hubArray a v wr

/-- The effect of a 4-byte write in the configuration space (R10-R15, R412). A slot of the draft stores that is in effect keeps its
words (R214). -/
def State.rpEffect (s : State) (a v : Nat) (wr : Writer) : State :=
  match decode412 a with
  | none => s
  | some (.hub, _, o) => s.hubWrite o v wr
  | some (.port, n, 4) => s.unitCtl n v wr
  | some (.sealMap, _, _) => s.sealWrite a v
  | some (.spindle, n, 8) => if bit 0 v then s.softFence (192 + n) wr else s
  | some (.draft, _, o) =>
    let slot := o / 0x20000
    if s.slotInEffect slot then s else (s.plainRp a v).slotWritten slot
  | some (.engine, e, 8) => s.feedWrite e v
  | some (.portSet, p, 0) => s.portCtl .ronpex p v
  | some _ => s.plainRp a v

/-- Whether a write through PCIe is a violation (R179, R306, R341, R399): it is logged with TYPE 5 in place of 0 (R455). -/
def State.rpViolates (s : State) (a : Nat) : Bool :=
  (s.occupant.isSome && (a == Reg.xbrAnaCtl || decide (Reg.mgtWin 0 ≤ a ∧ a < Reg.mgtWin 262144)))
    || (decide (0xF00000 ≤ a ∧ a < 0x1000000) && ((rpRow a).any fun r => r.1.rwp != 0) && s.rp.pst.locked a)

/-- A write of one word in the configuration space. -/
def State.rpWord (s : State) (a v : Nat) (wr : Writer) : State :=
  if s.rpViolates a && wr.origin != 1 then
    (if s.rp.power.supplyLost then s
     else if 0xF00000 ≤ a then s.pstWrite a v wr
     else s.rpLog (s.writeBody .ronpex a v wr 5))
  else s.wrote .ronpex a v wr fun t => t.rpEffect a v wr

/-! ### The Plocen -/

/-- EP_SEQ.TMO and EP_SEQ.LIFE hold values that R177 admits. -/
def seqLimitsOk (tmo life : Nat) : Bool :=
  let r := bits 0 16 tmo
  let m := bits 16 8 tmo
  let l := bits 0 10 life
  decide (1 ≤ r) && decide (r ≤ 800) && decide (1 ≤ m) && decide (1 ≤ l) && decide (l ≤ 800) && decide (r * m ≤ l)

/-- A slot of the slot-table store is in effect on some port (R214). -/
def State.ptInEffect (s : State) (slot : Nat) : Bool := s.ptRunning && (List.range 8).any fun j => s.ptSlot j == slot

/-- The effect of a 4-byte write in the register window (R11, R413). -/
def State.epEffect (s : State) (a v : Nat) : State :=
  if 0x400000 ≤ a ∧ a < 0x800000 then
    let n := (a - 0x400000) / 0x1000
    if a % 0x1000 = 0 then s.sqStore n v
    else if a % 0x1000 = 8 then s.cqStore n v
    else if a % 0x1000 = 0xC then s.armStore n v
    else s
  else if 0x200000 ≤ a ∧ a < 0x300000 then
    if s.ptInEffect ((a - 0x200000) / 0x20000) then s else s.plainEp a v
  else if 0x100000 ≤ a ∧ a < 0x110000 then
    let n := (a - 0x100000) / 0x40
    if a % 0x40 = 0x10 then s.ringCfg n v
    else if a % 0x40 ≠ 0x14 ∧ (s.ring n).active then s
    else s.plainEp a v
  else if a = Reg.epXltCtl then s.xltCtl v
  else if a = Reg.epXltFillDb then s.fillStore v
  else if a = Reg.epXltMissDb then s.missStore v
  else if a = Reg.epXltArm then s.xltArmStore v
  else if Reg.epXltRcfg ≤ a ∧ a ≤ Reg.epXltTmo then if s.ep.xlt.active then s else s.plainEp a v
  else if a = Reg.epSeqTmo then if seqLimitsOk v (s.reg .plocen Reg.epSeqLife) then s.plainEp a v else s
  else if a = Reg.epSeqLife then if seqLimitsOk (s.reg .plocen Reg.epSeqTmo) v then s.plainEp a v else s
  else if a = Reg.epSeqWctl then s.wctl v
  else match arrayIndex 0x61000 0x100 8 a with
  | some p => s.portCtl .plocen p v
  | none => s.plainEp a v

/-- A write of one word in the register window. -/
def State.epWord (s : State) (a v : Nat) (wr : Writer) : State := s.wrote .plocen a v wr fun t => t.epEffect a v

/-! ### Both -/

/-- A register access of 4 or 8 bytes, naturally aligned (R84, R385). -/
def regAccess (a n : Nat) : Bool := (n == 4 || n == 8) && a % n == 0

/-- A write of 4 or 8 bytes in the configuration space (R385): an 8-byte write covers two registers, and one of TIM.SET sets both
halves at once (R383). An access of another width or alignment changes nothing, and is completed with Unsupported Request or a NACK; none
reaches the part beyond BAR0. -/
def State.rpStore (s : State) (a n v : Nat) (wr : Writer) : State :=
  if decide (2 ^ 27 ≤ a) then s
  else if !regAccess a n then (if wr.origin ≤ 1 then s.emit (.refusedAccess wr.origin) else s)
  else if n = 4 then s.rpWord a (bits 0 32 v) wr
  else if a = Reg.timSetLo then
    s.wrote .ronpex a (bits 0 32 v) wr fun t => t.wrote .ronpex (a + 4) (bits 32 32 v) wr fun u => u.timeSetWrite (bits 0 64 v)
  else (s.rpWord a (bits 0 32 v) wr).rpWord (a + 4) (bits 32 32 v) wr

/-- A write of 4 or 8 bytes in the register window (R84): any other store is discarded and sets UNSUPPORTED. -/
def State.epStore (s : State) (a n v : Nat) (wr : Writer) : State :=
  if !regAccess a n || decide (2 ^ 24 ≤ a) then s.epErr errUnsupported
  else if n = 4 then s.epWord a (bits 0 32 v) wr
  else (s.epWord a (bits 0 32 v) wr).epWord (a + 4) (bits 32 32 v) wr

/-- A write to a register of either part (R16). -/
def execRegisterWrite (part : Part) (addr width : Nat) (value : BitVec 64) (wr : Writer) (s : State) :
    Host.Outcome State Fault Refusal :=
  .next (match part with
    | .ronpex => s.rpStore addr width value.toNat wr
    | .plocen => s.viaAttach fun t => t.epStore addr width value.toNat wr)

end Sys2Proof.Machine
end

