-- ==== Sys2Proof/Machine/AttachOps.lean ====
section
/-! DEFINITION. Receiving on the attach link (R69-R72, R74, R79-R87, R89-R92, R122). -/

namespace Sys2Proof.Machine

open Sys2Proof

/-! ### What a completed access was for (R89) -/

/-- One attach access of the Plocen has ended: `ok` says without error, and `data` is what a read returned. -/
def State.accessDone (s : State) (u : AttUse) (sentAt : Nat) (data : List Byte) (ok : Bool) : State :=
  match u with
  | .ringFetch r f n => s.ringFetched r f n data ok
  | .fillFetch f n => s.fillFetched f n data ok
  | .source h off => s.sourceDone h off data ok
  | .list r sub f n => s.listDone r sub f n data ok
  | .listPart r sub e lo => s.listPartDone r sub e lo data ok
  | .landReply l => (s.landDone l ok).destGo
  | .reqRead j off => s.jobStep j off data ok
  | .reqWrite j off => s.jobStep j off [] ok
  | .atomRead j => s.jobStep j 0 data ok
  | .atomWrite j => s.jobStep j 0 [] ok
  | .completion r _ => s.completionDone r sentAt ok
  | .missRecord c => s.missDone c ok
  | .contribution b ph rd sl c off => s.contribDone b ph rd sl c off data ok
  | .warpLand l => (s.warpLanded l ok).destGo

/-- An access with a tag has ended; nothing waits for one whose use has been given up (R126, R147). -/
def State.accessOver (s : State) (x : AttTag) (data : List Byte) (ok : Bool) : State :=
  if x.void then s else s.accessDone x.use x.sentAt data ok

/-- The Plocen's waiting transactions go out as far as they may. -/
def State.attPump (s : State) : State :=
  let s1 := s.pumpCpl s.ep.att.cplQueue.length
  s1.pump s1.ep.att.queue.length

/-- The tag `tag` of P2A_REQ. -/
def State.tagOf (s : State) (tag : Nat) : Option AttTag := SMap.find? s.ep.att.tags tag

/-- `s` with a tag freed. -/
def State.dropTag (s : State) (tag : Nat) : State := s.modAtt fun a => { a with tags := SMap.drop a.tags tag }

/-- `s` with a tag replaced. -/
def State.setTag (s : State) (tag : Nat) (x : AttTag) : State := s.modAtt fun a => { a with tags := SMap.set a.tags tag x }

/-- Completion chunks that the Plocen has consumed (R69). -/
def State.cplTaken (s : State) (k : Nat) : State := s.modAtt fun a => { a with cplFreed := a.cplFreed + k }

/-- A CPL of the accelerator (R79, R81, R89). The late completion of a timed-out tag only frees the tag. -/
def State.cplIn (s : State) (t : Txn) : State :=
  let s0 := s.cplTaken 1
  match s0.tagOf t.tag with
  | none => s0
  | some x =>
    if x.isRead then s0
    else
      let s1 := s0.dropTag t.tag
      if x.dead then s1.attPump
      else if t.status = 0 then (s1.accessOver x [] true).attPump
      else ((s1.epErr errAccError).accessOver x [] false).attPump

/-- A CPLD piece of the accelerator (R79, R81, R89). A tag is free once its pieces cover the request. -/
def State.cpldIn (s : State) (t : Txn) : State :=
  let s0 := s.cplTaken (txnChunks 0x21 t.len)
  match s0.tagOf t.tag with
  | none => s0
  | some x =>
    if !x.isRead then s0
    else
      let y : AttTag := { x with got := x.got + t.len
                                 data := spliceBytes x.data (bits 0 9 t.aux) (sliceBytes t.data 0 t.len) }
      let whole := decide (x.len ≤ y.got)
      let kept (dead : Bool) : State := if whole then s0.dropTag t.tag else s0.setTag t.tag { y with dead := dead }
      if x.dead then (kept true).attPump
      else if t.status ≠ 0 then (((kept true).epErr errAccError).accessOver x [] false).attPump
      else if whole then ((kept false).accessOver x (y.data.take x.len) true).attPump
      else kept false

/-- An access is not completed within EP_ATT.TMO.ACC_TMO (R89): the tag stays in use. -/
def State.accTimeout (s : State) (tag : Nat) : State :=
  match s.tagOf tag with
  | none => s
  | some x =>
    if x.dead ∨ s.now < x.sentAt + 1000 * max 1 (s.fld .plocen Reg.epAttTmo 0 16) then s
    else ((s.setTag tag { x with dead := true }).epErr errAccTimeout).accessOver x [] false

/-- The link goes down (R90): every access outstanding or waiting ends with error, as R89 has it. -/
def State.attDown (s : State) : State :=
  let a := s.ep.att
  let open_ := a.tags.filter fun e => !e.2.dead
  let lost : List (AttUse × Nat) := ((open_.filter fun e => !e.2.void).map fun e => (e.2.use, e.2.sentAt))
    ++ (a.queue ++ s.ep.dest.lineWait).filterMap fun q : AttReq => q.use.map fun u => (u, s.now)
  let s1 := (s.modDest fun d => { d with lineWait := [] }).modAtt fun b => { b with
    down := true, active := false, retrainAt := none, tags := [], queue := [], cplQueue := [], txHeld := [], rxChunks := []
    a2pBuf := [] }
  let s2 := if open_.isEmpty ∧ lost.isEmpty then s1 else s1.epErr errAccError
  lost.foldl (fun t x => t.accessDone x.1 x.2 [] false) (s2.epErr errLinkDown)

/-! ### Direct loads and stores (R82-R87, R122) -/

/-- The first of the checks of R83 that a fabric-window access fails, as the bit of EP_ATT.ERR that it sets. -/
def State.windowFault (s : State) (store : Bool) (addr len : Nat) : Option Nat :=
  let sizeOk :=
    if store then decide (1 ≤ len) && decide (len ≤ 64) && decide (addr % 64 + len ≤ 64)
    else [1, 2, 4, 8, 16, 32, 64].contains len && addr % len == 0
  if !sizeOk then some errUnsupported
  else if 2 ^ 40 ≤ addr then some errUnsupported
  else if !s.flag .plocen (Reg.epAttFwsegCtl (bits 32 8 addr)) 0 then some errSegDisabled
  else none

/-- A direct access as its segment stands when it arrives: a later write of the segment does not change it (R93). -/
def State.windowAccess (s : State) (store : Bool) (id addr len : Nat) (data : List Byte) : DMiss :=
  let seg := bits 32 8 addr
  let ctl := s.reg .plocen (Reg.epAttFwsegCtl seg)
  { store := store, id := id, va := s.reg .plocen (Reg.epAttFwsegBase seg) * 2 ^ 32 + bits 0 32 addr, xtag := bits 4 12 ctl
    planes := bits 16 8 ctl, hank := s.fld .plocen (Reg.epAttFwsegHank seg) 0 16, len := len, data := data }

/-- LD to the fabric window, accepted at time `at_` (R82, R83, R85, R86). -/
def State.windowLoad (s : State) (t : Txn) (at_ : Nat) : State :=
  match s.windowFault false t.addr t.len with
  | some b => (s.epErr b).complete t.rid t.tag t.addr 1 t.len []
  | none =>
    let l : Load := { id := s.ep.nextId, rid := t.rid, tag := t.tag, addr := t.addr, len := t.len, at_ := at_, inMiss := false }
    let s1 := { s with ep := { s.ep with nextId := s.ep.nextId + 1, loads := s.ep.loads ++ [l] } }
    s1.directGo (s.windowAccess false s.ep.nextId t.addr t.len [])

/-- ST to the fabric window (R82, R83). -/
def State.windowStore (s : State) (t : Txn) : State :=
  match s.windowFault true t.addr t.len with
  | some b => s.epErr b
  | none =>
    let id := s.ep.nextId
    let s1 := { s with ep := { s.ep with nextId := id + 1, stores := s.ep.stores ++ [({ id := id, rid := t.rid } : Store)] } }
    s1.directGo (s.windowAccess true id t.addr t.len (sliceBytes t.data 0 t.len))

/-- LD of EP_HNK.FENCE (R53, R87): it waits for the direct stores that its requester issued before it. -/
def State.fenceLoad (s : State) (t : Txn) (at_ : Nat) : State :=
  let f : FenceRd := { rid := t.rid, tag := t.tag, addr := t.addr, len := t.len, at_ := at_
                       waits := (s.ep.stores.filter fun x => x.rid == t.rid).map (·.id) }
  ({ s with ep := { s.ep with fences := s.ep.fences ++ [f] } }).settleFences

/-- LD to the register window (R84). -/
def State.registerLoad (s : State) (t : Txn) (at_ : Nat) : State :=
  if !regAccess t.addr t.len || decide (2 ^ 24 ≤ t.addr) then (s.epErr errUnsupported).complete t.rid t.tag t.addr 1 t.len []
  else if t.addr = Reg.epHnkFence then s.fenceLoad t at_
  else s.complete t.rid t.tag t.addr 0 t.len (s.regBytes .plocen t.addr t.len)

/-- The writer that the Plocen's log names for an access of the attach link (R403). -/
def attachWriter (rid : Nat) : Writer := { origin := 8, requester := rid }

/-- A transaction of A2P_REQ that arrived at time `at_` is served (R73, R82-R84). -/
def State.a2pServe (s : State) (t : Txn) (at_ : Nat) : State :=
  if t.opc = 0x11 then (if t.space then s.registerLoad t at_ else s.windowLoad t at_)
  else if t.space then s.epStore t.addr t.len (leNat (t.data.take t.len)) (attachWriter t.rid)
  else s.windowStore t

/-- Direct loads outstanding, but for those in the direct miss store (R122). -/
def State.loadsOut (s : State) : Nat := (s.ep.loads.filter fun l => !l.inMiss).length

/-- Transactions leave the Plocen's buffers in order, and their credit is returned, while fewer than 1,024 direct loads are
outstanding (R76, R122). -/
def State.a2pRun : Nat → State → State
  | 0, s => s
  | n + 1, s =>
    match s.ep.att.a2pBuf with
    | [] => s
    | (t, at_) :: rest =>
      if 1024 ≤ s.loadsOut then s
      else State.a2pRun n ((s.modAtt fun a => { a with a2pBuf := rest, a2pFreed := a.a2pFreed + txnChunks t.opc t.len }).a2pServe t at_)

/-- Everything that may leave the buffers leaves them. -/
def State.a2pGo (s : State) : State := s.a2pRun s.ep.att.a2pBuf.length

/-- A transaction that breaks the framing is discarded and logged (R91, R455 code 0x07). The channel of an unknown opcode is a free
value (log 1). -/
def State.malformed (s : State) (h : BitVec 128) (t : Txn) (vc : Option Nat) (credit : Bool) : State :=
  let (f, s0) := s.draw
  let s1 := if vc.isSome then s else s0
  let s2 := (if credit then s1.epErr errCredit else s1).epErr errMalformed
  s2.epCond 0x07 8 t.rid 255 0 (t.opc + 256 * ((vc.getD f.toNat) % 16) + 4096 * ofBool credit) (bits 0 32 h.toNat) (bits 32 32 h.toNat)

/-- A request of the accelerator arrives on A2P_REQ (R74, R91). -/
def State.requestIn (s : State) (h : BitVec 128) (t : Txn) : State :=
  let k := txnChunks t.opc t.len
  let a := s.ep.att
  if 4096 + a.a2pFreed < a.a2pUsed + k then s.malformed h t (some 1) true
  else if 256 < t.len ∨ (t.opc = 0x12 ∧ 64 < t.len) then
    (s.modAtt fun b => { b with a2pUsed := b.a2pUsed + k, a2pFreed := b.a2pFreed + k }).malformed h t (some 1) false
  else (s.modAtt fun b => { b with a2pUsed := b.a2pUsed + k, a2pBuf := b.a2pBuf ++ [(t, s.now)] }).a2pGo

/-- A transaction of the accelerator arrives (R78, R91). -/
def State.txnIn (s : State) (h : BitVec 128) (t : Txn) : State :=
  if t.opc = 0x11 ∨ t.opc = 0x12 then s.requestIn h t
  else if t.opc = 0x21 ∨ t.opc = 0x22 then
    (if 256 < t.len then (s.cplTaken (txnChunks t.opc t.len)).malformed h t (some 3) false
     else if t.opc = 0x21 then (s.cpldIn t).a2pGo else (s.cplIn t).a2pGo)
  else s.malformed h t none false

/-- The link is up for arriving traffic (R90, R92). -/
def State.attRx (s : State) : Bool := s.ep.att.active && !s.ep.att.down && s.ep.att.retrainAt.isNone

/-- A transaction that the accelerator sends arrives whole. -/
def State.txnArrives (s : State) (t : Txn) : State := if s.attRx then s.txnIn (txnHeader t) t else s

/-- An LD that still waits in the Plocen's buffers since before `old` (R76, R86). -/
def bufferedLoad (rid tag old : Nat) (e : Txn × Nat) : Bool :=
  e.1.opc == 0x11 && e.1.rid == rid && e.1.tag == tag && decide (e.2 ≤ old)

/-- An LD has waited for EP_ATT.TMO.CPL_LIMIT since it was accepted, in the Plocen's buffers or beyond them (R76, R86): it completes
with TIMEOUT. -/
def State.loadTimeout (s : State) (rid tag : Nat) : State :=
  let limit := 1000 * max 1 (s.fld .plocen Reg.epAttTmo 16 16)
  match (if s.now < limit then none else s.ep.att.a2pBuf.find? (bufferedLoad rid tag (s.now - limit))) with
  | some (t, _) =>
    ((s.modAtt fun a => { a with a2pBuf := a.a2pBuf.filter fun e => !bufferedLoad rid tag (s.now - limit) e
                                 a2pFreed := a.a2pFreed + txnChunks t.opc t.len }).complete rid tag t.addr 4 t.len []).a2pGo
  | none =>
  match s.ep.loads.find? fun l => l.rid == rid && l.tag == tag && decide (l.at_ + limit ≤ s.now) with
  | some l =>
    (((s.modXlt fun x => { x with misses := x.misses.map fun m : Miss =>
      { m with direct := m.direct.filter fun d => d.store || d.id != l.id } }).loadDone l.id 4 [])).a2pGo
  | none =>
    match s.ep.fences.find? fun f => f.rid == rid && f.tag == tag && decide (f.at_ + limit ≤ s.now) with
    | none => s
    | some f =>
      ({ s with ep := { s.ep with fences := s.ep.fences.filter fun g => g.rid != rid || g.tag != tag } }).complete
        rid tag f.addr 4 f.len []

/-! ### Flits (R69-R72) -/

/-- The chunks of an unfinished stream are taken as transactions as far as they are whole (R72). -/
def State.takeChunks : Nat → State → State
  | 0, s => s
  | n + 1, s =>
    match s.ep.att.rxChunks with
    | [] => s
    | h :: rest =>
      if bits 0 8 h.toNat = 0 then State.takeChunks n (s.modAtt fun a => { a with rxChunks := rest })
      else
        let t := txnOfHeader h
        let k := txnChunks t.opc t.len
        if rest.length + 1 < k then s
        else
          State.takeChunks n ((s.modAtt fun a => { a with rxChunks := rest.drop (k - 1) }).txnIn h
            { t with data := bytesOfChunks t.len (rest.take (k - 1)) })

/-- Own data flits that an acknowledgement covers are released (R70). -/
def heldAfter (ack : Nat) (l : List (Nat × List (BitVec 128))) : List (Nat × List (BitVec 128)) :=
  l.filter fun e => decide (2048 ≤ subMod 12 ack e.1)

/-- ACK and REQ_CRD of a flit of any kind (R69, R70, R74): also of a data flit whose body is discarded for its SEQ (DESIGN CHOICE,
log 119). CPL_CRD frees a channel whose credit is unlimited (R74), so nothing waits for it. -/
def State.flitTotals (s : State) (f : Flit) : State :=
  (s.modAtt fun a => { a with
    txHeld := heldAfter f.ack a.txHeld, p2aFreed := a.p2aFreed + subMod 16 f.reqCrd a.p2aFreed }).attPump

/-- A NAK goes out that names the SEQ expected (R71, R72). -/
def State.sendNak (s : State) : State :=
  (s.sendControl ctlNak (leBytes 2 s.ep.att.rxSeq)).modAtt fun a => { a with nakSent := a.nakSent + 1 }

/-- A flit with a CRC error is discarded (R71). -/
def State.flitBad (s : State) : State := ((s.satFld .plocen Reg.epAttErrcnt 0 16 1).epErr errCrc).sendNak

/-- The data flits kept are sent again, in order (R71). -/
def State.resendHeld (s : State) (l : List (Nat × List (BitVec 128))) : State :=
  l.foldl (fun t e => t.sendFlit 1 e.1 e.2) s

/-- A NAK arrives (R71): what it shows to be received is released, and the rest is replayed. Each NAK so answered counts as one replay
started in ERRCNT.REPLAY; the resend after a retrain counts none (DESIGN CHOICE, log 120). -/
def State.nakIn (s : State) (seq : Nat) : State :=
    let s1 := s.modAtt fun a => { a with
      txHeld := heldAfter ((seq + 4095) % 4096) a.txHeld
      nakSeq := seq, nakRun := if a.nakSeq = seq then a.nakRun + 1 else 1 }
    if s1.ep.att.txHeld.isEmpty then s1
    else ((s1.satFld .plocen Reg.epAttErrcnt 16 16 1).resendHeld s1.ep.att.txHeld).attPump

/-- INIT arrives (R72, R92 step 4): the first one gives the accelerator's credit and requester IDs, and every one is answered. With
both it and the INIT_ACK come the link is active (R92 step 5; DEDUCED, log 121). One whose protocol version or fit is not what the
exchange agreed on is taken like any other (DESIGN CHOICE, log 166). -/
def State.initIn (s : State) (p : InitParams) : State :=
  let s1 := if s.ep.att.initSeen then s else s.modAtt fun a => { a with
    initSeen := true, p2aLimit := p.p2aReq, rids := p.rids, active := a.ackSeen }
  (s1.sendControl ctlInitAck []).attPump

/-- INIT_ACK arrives (R92 step 5). -/
def State.initAckIn (s : State) : State :=
  (s.modAtt fun a => { a with ackSeen := true, active := a.initSeen }).attPump

/-- A control flit arrives (R69-R72): a bad one is discarded, and of a good one the totals count before it acts. -/
def State.controlTaken (s : State) (f : Flit) (act : State → State) : State :=
  if !s.flitsRun then s else if !flitGood f then s.flitBad else act (s.flitTotals f)

/-- What a control flit does, by its subtype (R72); an unknown subtype does nothing. -/
def State.controlIn (s : State) (f : Flit) : State :=
  if flitSubtype f = ctlInit then s.initIn (initOf (flitParams f))
  else if flitSubtype f = ctlInitAck then s.initAckIn
  else if flitSubtype f = ctlNak then s.nakIn (fieldNat (flitParams f) 0 2 % 4096)
  else s

/-- A flit of any kind arrives (R70-R72). Before the link is active a data or idle flit, good or bad, is dropped without a NAK or a count,
and only control flits are looked at (DESIGN CHOICE, log 165). -/
def State.flitIn (s : State) (f : Flit) : State :=
  if f.kind = 2 then s.controlTaken f fun t => t.controlIn f
  else if !s.attRx then s
  else if !flitGood f then s.flitBad
  else
    let s1 := s.flitTotals f
    if f.kind ≠ 1 then s1
    else if f.seq ≠ s1.ep.att.rxSeq then s1.sendNak
    else
      let s2 := s1.modAtt fun a => { a with
        rxSeq := (a.rxSeq + 1) % 4096, nakSent := 0, rxChunks := a.rxChunks ++ f.body }
      s2.takeChunks s2.ep.att.rxChunks.length

/-- One SEQ has been NAKed 8 times in a row, by either end (R71): every module retrains. -/
def State.retrain (s : State) : State :=
  if !s.attRx ∨ (s.ep.att.nakRun < 8 ∧ s.ep.att.nakSent < 8) then s
  else ((s.epErr errReplay).modAtt fun a => { a with retrainAt := some s.now, trained := [] }).emit .attachRetrain

/-- A retrain has not succeeded within 10 ms (R71). -/
def State.retrainOver (s : State) : State :=
  match s.ep.att.retrainAt with
  | none => s
  | some t => if s.now < t + 10000000 then s else s.attDown

/-! ### Bring-up (R67, R68, R92) -/

/-- Modules 0 to `n` - 1 have trained at 32 GT/s: at 24 or 16 GT/s a module serves diagnosis only (R66; DEDUCED, log 122). -/
def Attach.trainedTo (a : Attach) (n : Nat) : Bool := (List.range n).all fun m => a.trained.any fun e => e.1 == m && e.2 == 32

/-- The data rates of R66, in GT/s. -/
def rateSupported (rate : Nat) : Bool := rate == 32 || rate == 24 || rate == 16

/-- A module completes training (R66, R92 step 1, R71); at a rate that R66 does not list it does not train. A retrain ends with the last
module in use: timed-out tags are free again (R89),
and the replay buffer is sent from its oldest flit. -/
def State.moduleTrained (s : State) (m rate : Nat) : State :=
  let a := s.ep.att
  if a.down ∨ (a.exchanged ∧ a.retrainAt.isNone) ∨ !rateSupported rate then s
  else
    let s1 := s.modAtt fun b => { b with trained := (b.trained.filter fun e => e.1 != m) ++ [(m, rate)] }
    if a.retrainAt.isSome ∧ s1.ep.att.trainedTo a.modules then
      let s2 := s1.modAtt fun b => { b with
        retrainAt := none, nakRun := 0, nakSent := 0, tags := b.tags.filter fun e => !e.2.dead }
      (s2.resendHeld s2.ep.att.txHeld).attPump
    else s1

/-- What the Plocen's INIT carries (R72, R74): protocol version 0x01, the fit, 4,096 chunks of A2P_REQ, unlimited A2P_CPL, and one
requester. -/
def ownInit (modules : Nat) : InitParams := { version := 1, modules := modules, p2aReq := 4096, p2aCpl := 0, rids := 1 }

/-- An INIT goes out (R92 step 4). -/
def State.sendInit (s : State) : State :=
  (s.sendControl ctlInit (initBytes (ownInit s.ep.att.modules))).modAtt fun a => { a with initAt := s.now }

/-- The modules that the link comes up on (R68); none where it does not come up. -/
def State.fitOf (s : State) (fit4 : Bool) : Option Nat :=
  if fit4 then (if s.ep.att.trainedTo 4 then some 4 else none)
  else if s.ep.att.trainedTo 8 then some 8
  else if s.ep.att.trainedTo 4 && s.flag .plocen Reg.epAttCtl 0 then some 4
  else none

/-- The exchange of version and fit (R92 step 2, R68): the first INIT follows it. -/
def State.exchangeDone (s : State) (version : Nat) (fit4 : Bool) : State :=
  if s.ep.att.down ∨ s.ep.att.exchanged ∨ version ≠ 1 then s
  else match s.fitOf fit4 with
    | none => s
    | some n =>
      let s1 := s.modAtt fun a => { a with exchanged := true, modules := n }
      (if n = 4 then [4, 5, 6, 7].foldl (fun (t : State) p => if t.portState .plocen p = 0 then t else t.portOff .plocen p) s1 else s1).sendInit

/-- INIT is sent again every 1 us until the other end's INIT arrives (R92 step 4). -/
def State.initAgain (s : State) : State :=
  let a := s.ep.att
  if a.down ∨ !a.exchanged ∨ a.initSeen ∨ s.now < a.initAt + 1000 then s else s.sendInit

end Sys2Proof.Machine
end

