-- ==== Sys2Proof/Machine/Attach.lean ====
section
/-! DEFINITION. The commands of the attach link (R53, R66-R92): one meaning per row. -/

namespace Sys2Proof.Machine

open Sys2Proof

/-- MODULE_TRAINED (R92 step 1). -/
def execModuleTrained (m : Fin 8) (rate : Nat) (s : State) : Host.Outcome State Fault Refusal := .next (s.moduleTrained m rate)

/-- PARAMETER_EXCHANGE (R92 step 2). -/
def execParameterExchange (version : Nat) (fit4 : Bool) (s : State) : Host.Outcome State Fault Refusal :=
  .next (s.exchangeDone version fit4)

/-- INIT (R72, R92 step 4). -/
def execInit (f : InitFlit) (s : State) : Host.Outcome State Fault Refusal :=
  .next (s.controlTaken (controlFlit f.head ctlInit (initBytes f.params)) fun t => t.initIn f.params)

/-- INIT_ACK (R92 step 5). -/
def execInitAck (s : State) (h : FlitHead := FlitHead.blank) : Host.Outcome State Fault Refusal :=
  .next (s.controlTaken (controlFlit h ctlInitAck []) State.initAckIn)

/-- INIT_RESEND (R92 step 4). -/
def execInitResend (s : State) : Host.Outcome State Fault Refusal := .next s.initAgain

/-- DATA_FLIT (R70-R72). -/
def execDataFlit (f : Flit) (s : State) : Host.Outcome State Fault Refusal := .next (s.flitIn f)

/-- NAK (R71). -/
def execNak (f : NakFlit) (s : State) : Host.Outcome State Fault Refusal :=
  .next (s.controlTaken (controlFlit f.head ctlNak (leBytes 2 f.seq)) fun t => t.nakIn f.seq)

/-- REPLAY_LIMIT_RETRAIN (R71). -/
def execReplayLimitRetrain (s : State) : Host.Outcome State Fault Refusal := .next s.retrain

/-- RETRAIN_TIMEOUT (R71, R90). -/
def execRetrainTimeout (s : State) : Host.Outcome State Fault Refusal := .next s.retrainOver

/-- DIRECT_LOAD (R82, R83): an LD of the fabric window. -/
def execDirectLoad (t : Txn) (s : State) : Host.Outcome State Fault Refusal :=
  .next (s.txnArrives { t with opc := 0x11, space := false })

/-- DIRECT_STORE (R82, R83): an ST of the fabric window. -/
def execDirectStore (t : Txn) (s : State) : Host.Outcome State Fault Refusal :=
  .next (s.txnArrives { t with opc := 0x12, space := false })

/-- EP_HNK_FENCE_READ (R53). -/
def execEpHnkFenceRead (t : Txn) (s : State) : Host.Outcome State Fault Refusal :=
  .next (s.txnArrives { t with opc := 0x11, space := true, addr := Reg.epHnkFence })

/-- CPL (R79, R81). -/
def execCpl (t : Txn) (s : State) : Host.Outcome State Fault Refusal := .next (s.txnArrives { t with opc := 0x22 }).unready

/-- CPLD (R79, R81). -/
def execCpld (t : Txn) (s : State) : Host.Outcome State Fault Refusal := .next (s.txnArrives { t with opc := 0x21 }).unready

/-- ACC_TIMEOUT (R89). -/
def execAccTimeout (tag : Nat) (s : State) : Host.Outcome State Fault Refusal := .next (s.accTimeout tag).unready

/-- TIMEOUT (R86). -/
def execTimeout (rid tag : Nat) (s : State) : Host.Outcome State Fault Refusal := .next (s.loadTimeout rid tag)

end Sys2Proof.Machine
end

