-- ==== Sys2Proof/Machine/Mgmt.lean ====
section
/-! DEFINITION. The commands of management, firmware, log, tray chain and persistent store (R386-R406): one meaning per row. -/

namespace Sys2Proof.Machine

open Sys2Proof

/-! ### TENANT (R305, R394) -/

/-- Management accesses that a skein may make in a frame (R307, R368). -/
def State.mgmtBudget (s : State) (k : Nat) : Nat :=
  let v := bits 16 16 (s.loaded k 3)
  if s.rp.power.hubHalf then v / 2 else v

/-- The registers that a management access of a skein's origin may read (R305): its own in SKN, BUD, SPD and FMH. -/
def State.ownReg (s : State) (k a : Nat) : Bool :=
  s.skeinReg k a || a == Reg.sknCtl k || a == Reg.budWeft k || a == Reg.budSpin k || a == Reg.budHbm k || a == Reg.budAux k
    || (match arrayIndex (Reg.sknPort 0) 4 192 a with
        | some p => s.fld .ronpex (Reg.sknPort p) 0 6 == k
        | none => false)

/-- One word accessed: what a read gives, within the skein's grants. A write of skein origin writes nothing; it, and a read outside
the grants, is logged as a violation (R306). An access of skein 0 is of operator origin and holds every grant (R305). -/
def State.tenantWord (s : State) (k a : Nat) (write : Bool) (v : Nat) : State × List Byte :=
  let s1 := s.modSk fun x => { x with mgmt := SMap.put (fun _ => 0) x.mgmt k (SMap.look (fun _ => 0) x.mgmt k + 1) }
  let bad (t : State) : State := t.rpLog (t.skeinBody k (t.writeBody .ronpex a v ringWriter 5))
  if k = 0 then (if write then (s1.rpStore a 4 v ringWriter, []) else (s1, leBytes 4 (s.rpRead a)))
  else if write then (bad s1, [])
  else if s.ownReg k a then (s1, leBytes 4 (s.rpRead a))
  else (bad s1, leBytes 4 0)

/-- The words of a TENANT command, `n` at most, while the skein's budget lasts: the state, the bytes read and the words left. -/
def State.tenantWords : Nat → State → Nat → Nat → Bool → List Byte → State × List Byte × Nat
  | 0, s, _, _, _, _ => (s, [], 0)
  | n + 1, s, k, a, write, d =>
    if s.enforced ∧ s.mgmtBudget k ≤ SMap.look (fun _ => 0) s.rp.skeins.mgmt k then (s, [], n + 1)
    else
      let (s1, b) := s.tenantWord k a write (fieldNat d 0 4)
      let (s2, l, r) := tenantWords n s1 k (a + 4) write (d.drop 4)
      (s2, b ++ l, r)

/-- TENANT: accesses beyond the budget wait for the next frame. -/
def State.tenantRun (s : State) (c : Command) : State :=
  let n := bits 16 4 c.p0
  let write := bit 8 c.p0
  let (s1, l, left) := State.tenantWords n s (bits 0 6 c.p0) c.p1 write c.args
  let s2 := if l.isEmpty then s1 else s1.emit (.dmaWrite c.addr l)
  if left = 0 then s2.cmdDone 0 0
  else
    let done := n - left
    s2.cmdWait (.budget { c with p0 := setBits 16 4 left c.p0, p1 := c.p1 + 4 * done, args := c.args.drop (4 * done),
                                 addr := if write then c.addr else c.addr + 4 * done })

/-- A TENANT command that waited for the frame goes on. -/
def State.tenantAgain (s : State) : State :=
  match s.rp.mgmt.running with
  | some ⟨_, _, .budget c⟩ => (s.cmdWait .none).tenantRun c
  | _ => s

/-- MGT.CMD_DB is written (R386). -/
def execCmdDb (tail : Word) (wr : Writer) (s : State) : Host.Outcome State Fault Refusal :=
  .next (s.wrote .ronpex Reg.mgtCmdDb tail.toNat wr fun t => t.cmdDoorbell tail.toNat)

/-- MGT.EVT_DB is written (R386, R391). -/
def execEvtDb (head : Word) (wr : Writer) (s : State) : Host.Outcome State Fault Refusal :=
  .next (s.wrote .ronpex Reg.mgtEvtDb head.toNat wr fun t => t.evtDoorbell head.toNat)

/-- LOG.DB is written (R386). -/
def execLogDb (head : Word) (wr : Writer) (s : State) : Host.Outcome State Fault Refusal :=
  .next (s.wrote .ronpex Reg.logDb head.toNat wr fun t => t.logDoorbell head.toNat)

/-- The next log entry is streamed (R402). -/
def execLogStream (s : State) : Host.Outcome State Fault Refusal := .next s.streamLog

/-- NOP (R388). -/
def execNop (c : Command) (s : State) : Host.Outcome State Fault Refusal :=
  .next (s.command c 0 (Command.unusedZero c {}) fun t => t.cmdDone 0 0)

/-- DRAFT_LOAD (R214, R388): LEN is 0 or the size of the images. -/
def execDraftLoad (c : Command) (image : List (Nat × Word)) (dmaOk : Bool) (s : State) : Host.Outcome State Fault Refusal :=
  let size := if bit 7 c.p0 then 0x200000 else 0x20000
  .next (s.command c 1 (Command.unusedZero c { addr := true, len := true, p0 := if bit 7 c.p0 then 0x780 else 0x78F } && (c.len == 0 || c.len == size))
    fun t => t.draftLoad c.p0 image dmaOk)

/-- SKEIN (R303, R388). -/
def execSkein (c : Command) (s : State) : Host.Outcome State Fault Refusal :=
  .next (s.command c 2 (Command.unusedZero c { p0 := if bit 15 c.p0 then 0x3F873F else 0x873F }) fun t => t.skeinOrder c.p0)

/-- FENCE (R388). -/
def execFence (c : Command) (s : State) : Host.Outcome State Fault Refusal :=
  .next (s.command c 3 (Command.unusedZero c { p0 := 0xFFFFFF }) fun t => t.fenceCmd c.p0)

/-- RETURN (R352, R388). -/
def execReturn (c : Command) (s : State) : Host.Outcome State Fault Refusal :=
  .next (s.command c 4 (Command.unusedZero c { p0 := 0xFFFFFF }) fun t => t.returnCmd c.p0)

/-- RESET (R345, R388). -/
def execReset (c : Command) (s : State) : Host.Outcome State Fault Refusal :=
  .next (s.command c 5 (Command.unusedZero c { p0 := 0xF1 }) fun t => t.resetCmd c.p0)

/-- EPOCH (R355, R388). -/
def execEpoch (c : Command) (s : State) : Host.Outcome State Fault Refusal :=
  .next (s.command c 6 (Command.unusedZero c { p0 := 0xFFFF }) fun t => t.epochCmd (bits 0 16 c.p0))

/-- SNAPSHOT (R363, R388). -/
def execSnapshot (c : Command) (s : State) : Host.Outcome State Fault Refusal :=
  .next (s.command c 7 (Command.unusedZero c { p0 := 0xFFFF, p1 := true, args := 8 }) fun t => t.snapCmd (bits 0 16 c.p0) c.p1 c.args)

/-- SEND (R388, R392). -/
def execSend (c : Command) (payload : List Byte) (dmaOk : Bool) (s : State) : Host.Outcome State Fault Refusal :=
  .next (s.command c 8 (Command.unusedZero c { addr := true, len := true, p0 := 0x7FFF }) fun t =>
    t.sendCmd (bits 0 15 c.p0) c.len payload dmaOk)

/-- TENANT (R394): COUNT is 1-8. A read uses ADDR, and a write as much of ARGS as it has words (R388). -/
def execTenant (c : Command) (s : State) : Host.Outcome State Fault Refusal :=
  let write := bit 8 c.p0
  .next (s.command c 9 (Command.unusedZero c {
      addr := !write, p0 := 0xF013F, p1 := true, args := if write then 4 * bits 16 4 c.p0 else 0 }
    && decide (1 ≤ bits 16 4 c.p0) && decide (bits 16 4 c.p0 ≤ 8) && c.p1 % 4 == 0) fun t => t.tenantRun c)

/-- FW_WRITE (R388, R404). -/
def execFwWrite (c : Command) (data : List Byte) (dmaOk : Bool) (s : State) : Host.Outcome State Fault Refusal :=
  .next (s.command c 10 (Command.unusedZero c { addr := true, len := true, p0 := 0xFFFFFFFF }) fun t => t.fwWriteCmd c.p0 c.len data dmaOk)

/-- FW_VERIFY (R405). -/
def execFwVerify (c : Command) (s : State) : Host.Outcome State Fault Refusal :=
  .next (s.command c 11 (Command.unusedZero c {}) fun t => t.fwVerifyCmd)

/-- FW_ACTIVATE (R406). -/
def execFwActivate (c : Command) (s : State) : Host.Outcome State Fault Refusal :=
  .next (s.command c 12 (Command.unusedZero c {}) fun t => t.fwActivateCmd)

/-- FW_ERASE (R328, R388). -/
def execFwErase (c : Command) (s : State) : Host.Outcome State Fault Refusal :=
  .next (s.command c 13 (Command.unusedZero c {}) fun t => t.fwEraseCmd)

/-- An end point's copy of a log entry arrives (R403). -/
def execLogCopy (src : MgmtSource) (e : LogEntry) (s : State) : Host.Outcome State Fault Refusal := .next (s.rpMgmtIn src (.logCopy e))

/-- A tray-chain frame arrives (R396). -/
def execTrayFrame (port : Fin 2) (f : TrayFrame) (s : State) : Host.Outcome State Fault Refusal := .next (s.trayIn port f)

/-- A wake-token frame arrives (R374, R396). -/
def execToken (port : Fin 2) (f : TrayFrame) (s : State) : Host.Outcome State Fault Refusal := .next (s.trayIn port { f with ftype := 2 })

/-- The chain master has not seen a token for 10 ms (R396). -/
def execTokenRegen (token : Fin 2) (s : State) : Host.Outcome State Fault Refusal := .next (s.tokenAgain token)

/-- A link of the tray chain goes up or down (R396, R408). -/
def execTrayChainLink (port : Fin 2) (up : Bool) (s : State) : Host.Outcome State Fault Refusal := .next (s.trayLink port up)

/-- A queued write becomes persistent (R398, R399). -/
def execPstWritePersist (s : State) : Host.Outcome State Fault Refusal := .next s.pstPersist

/-- An hour of operation has passed (R399). -/
def execHoursTick (s : State) : Host.Outcome State Fault Refusal := .next (s.pstCount Reg.pstHours 0 32)

end Sys2Proof.Machine
end

