-- ==== Sys2Proof/Machine/Security.lean ====
section
/-! DEFINITION. The commands of attestation and keys (R324-R328, R336-R339): one meaning per row. -/

namespace Sys2Proof.Machine

open Sys2Proof

/-- GET_VERSION (R324). -/
def execGetVersion (part : Part) (req : List Byte) (s : State) : Host.Outcome State Fault Refusal := .next (s.spdmIn part 0x84 none 0 req)

/-- GET_CAPABILITIES (R324). -/
def execGetCapabilities (part : Part) (req : List Byte) (s : State) : Host.Outcome State Fault Refusal :=
  .next (s.spdmIn part 0xE1 none 0 req)

/-- NEGOTIATE_ALGORITHMS (R324). -/
def execNegotiateAlgorithms (part : Part) (req : List Byte) (s : State) : Host.Outcome State Fault Refusal :=
  .next (s.spdmIn part 0xE3 none 0 req)

/-- GET_DIGESTS (R324). -/
def execGetDigests (part : Part) (req : List Byte) (s : State) : Host.Outcome State Fault Refusal := .next (s.spdmIn part 0x81 none 0 req)

/-- GET_CERTIFICATE (R324). -/
def execGetCertificate (part : Part) (slot : Nat) (req : List Byte) (s : State) : Host.Outcome State Fault Refusal :=
  .next (s.spdmIn part 0x82 none slot req)

/-- CHALLENGE (R327). -/
def execChallenge (part : Part) (slot : Nat) (req : List Byte) (s : State) : Host.Outcome State Fault Refusal :=
  .next (s.spdmIn part 0x83 none slot req)

/-- GET_MEASUREMENTS (R326). -/
def execGetMeasurements (part : Part) (index : Nat) (session : Option Nat) (req : List Byte) (s : State) :
    Host.Outcome State Fault Refusal := .next (s.spdmIn part 0xE0 session index req)

/-- KEY_EXCHANGE (R324). -/
def execKeyExchange (part : Part) (req : List Byte) (s : State) : Host.Outcome State Fault Refusal := .next (s.spdmIn part 0xE4 none 0 req)

/-- FINISH (R324). -/
def execFinish (part : Part) (session : Nat) (req : List Byte) (s : State) : Host.Outcome State Fault Refusal :=
  .next (s.spdmIn part 0xE5 (some session) 0 req)

/-- KEY_UPDATE (R324). -/
def execKeyUpdate (part : Part) (session : Nat) (req : List Byte) (s : State) : Host.Outcome State Fault Refusal :=
  .next (s.spdmIn part 0xE9 (some session) 0 req)

/-- HEARTBEAT (R324). -/
def execHeartbeat (part : Part) (session : Nat) (req : List Byte) (s : State) : Host.Outcome State Fault Refusal :=
  .next (s.spdmIn part 0xE8 (some session) 0 req)

/-- END_SESSION (R324). -/
def execEndSession (part : Part) (session : Nat) (req : List Byte) (s : State) : Host.Outcome State Fault Refusal :=
  .next (s.spdmIn part 0xEC (some session) 0 req)

/-- INSTALL (R336, R337). -/
def execInstall (part : Part) (session : Option Nat) (kind skein : Nat) (keyId : Word) (key : BitVec 512) (malformed : Bool) (s : State) :
    Host.Outcome State Fault Refusal := .next (s.install part session kind skein keyId key malformed)

/-- DESTROY (R336, R339). -/
def execDestroy (part : Part) (session : Option Nat) (kind skein : Nat) (_keyId : Word) (malformed : Bool) (s : State) :
    Host.Outcome State Fault Refusal := .next (s.destroy part session kind skein malformed)

/-- Layer 1 has restarted (R327, R328, R406). -/
def execLayer1RestartDone (part : Part) (s : State) : Host.Outcome State Fault Refusal := .next (s.layer1Done part)

/-- A new image fails to start (R328). -/
def execFwStartFailure (part : Part) (s : State) : Host.Outcome State Fault Refusal := .next (s.fwFailed part)

end Sys2Proof.Machine
end

