-- ==== Sys2Proof/Machine/Skein.lean ====
section
/-! DEFINITION. The commands of skeins (R302-R304, R318, R342): one meaning per row. -/

namespace Sys2Proof.Machine

open Sys2Proof

/-- What a command of SKN.CMD is written as (R319). -/
def sknCmdValue (k : Nat) (op : Nat) : Nat := k % 64 + 256 * op

/-- A write of SKN.CMD, logged (R16). -/
def State.skeinCmd (s : State) (v : Nat) (wr : Writer) : State := s.wrote .ronpex Reg.sknCmd v wr fun t => t.skeinWrite v none

/-- CLAIM (R303). -/
def execClaim (k : Fin 64) (wr : Writer) (s : State) : Host.Outcome State Fault Refusal := .next (s.skeinCmd (sknCmdValue k 1) wr)

/-- ACTIVATE (R303, R315, R317, R340). -/
def execActivate (k : Fin 64) (wr : Writer) (s : State) : Host.Outcome State Fault Refusal := .next (s.skeinCmd (sknCmdValue k 2) wr)

/-- QUIESCE (R303). -/
def execQuiesce (k : Fin 64) (wr : Writer) (s : State) : Host.Outcome State Fault Refusal := .next (s.skeinCmd (sknCmdValue k 3) wr)

/-- RELEASE (R303). -/
def execRelease (k : Fin 64) (wr : Writer) (s : State) : Host.Outcome State Fault Refusal := .next (s.skeinCmd (sknCmdValue k 4) wr)

/-- The frame boundary of a command is reached (R303). -/
def execSkeinCommandEffect (s : State) : Host.Outcome State Fault Refusal := .next s.skeinEffect

/-- The scrub of R342 completes. -/
def execConfScrubDone (s : State) : Host.Outcome State Fault Refusal := .next s.scrubbed

/-- SKN.PORT is written (R304). -/
def execPortAssign (port : Fin 192) (value : Word) (wr : Writer) (s : State) : Host.Outcome State Fault Refusal :=
  .next (s.wrote .ronpex (Reg.sknPort port) value.toNat wr fun t => t.sknPort port value.toNat)

/-- An assignment reaches the Plocen (R304). -/
def execAssign (p : Fin 8) (src : MgmtSource) (skein : Nat) (isSealed : Bool) (slots epoch node : Nat) (s : State) :
    Host.Outcome State Fault Refusal := .next (s.epMgmtIn p src.node (.assign skein isSealed slots epoch node))

/-- The end point acknowledges its assignment (R304). -/
def execAssignAck (port : Fin 192) (src : MgmtSource) (skein : Nat) (isSealed : Bool) (slots epoch node : Nat) (s : State) :
    Host.Outcome State Fault Refusal := .next (s.rpMgmtIn { src with port := port } (.assignAck skein isSealed slots epoch node))

/-- Tenant records are released (R318). -/
def execTenantRecordRelease (s : State) : Host.Outcome State Fault Refusal := .next s.releaseRecords

end Sys2Proof.Machine
end

