-- ==== Sys2Proof/Machine/SwitchOps.lean ====
section
/-! DEFINITION. The slots of every port of both parts (R23-R28, R110, R122, R164-R169, R178, R279-R281, R308, R309, R313, R314,
R329), and the entry of a weft container into the Ronpex (R153, R156, R157, R168, R178, R308). -/

namespace Sys2Proof.Machine

open Sys2Proof

/-! ### Arbitration at an output (R165, R166, R309, R313, R314) -/

/-- `x` goes before `y` (R165): older by AGE, then the lower SRC, SEQ and ingress port. -/
def EddyEnt.before (x y : EddyEnt) : Bool :=
  let d := signed 16 (subMod 16 x.c.age y.c.age)
  decide (d < 0) || (d == 0 && (decide (x.c.src < y.c.src) || (x.c.src == y.c.src && (decide (x.c.seq < y.c.seq)
    || (x.c.seq == y.c.seq && decide (x.ingress < y.ingress))))))

/-- The oldest candidate. -/
def oldestEnt (l : List EddyEnt) : Option EddyEnt :=
  l.foldl (fun (b : Option EddyEnt) x => match b with
    | none => some x
    | some y => if x.before y then some x else some y) none

/-- A list of candidates, oldest first. -/
def byAge : Nat → List EddyEnt → List EddyEnt
  | 0, _ => []
  | n + 1, l =>
    match oldestEnt l with
    | none => []
    | some x => x :: byAge n (l.erase x)

/-- The first `n` of a list that satisfy a test stay, with everything that does not: what stays, and what goes. -/
def keepFirst (n : Nat) (test : EddyEnt → Bool) (l : List EddyEnt) : List EddyEnt × List EddyEnt :=
  let r := l.foldl (fun (a : List EddyEnt × List EddyEnt × Nat) x =>
    if !test x then (a.1 ++ [x], a.2.1, a.2.2)
    else if a.2.2 < n then (a.1 ++ [x], a.2.1, a.2.2 + 1)
    else (a.1, a.2.1 ++ [x], a.2.2)) ([], [], 0)
  (r.1, r.2.1)

/-- EDDY_WAIT of an output, in slots; below 80 treated as 80 (R182). -/
def State.eddyWait (s : State) (p : Nat) : Nat := max (s.fld .ronpex (clusterBase (portCluster p) + 0x40000) 0 8) 80

/-- An entry has waited longer than EDDY_WAIT (R166). -/
def State.overWait (s : State) (p : Nat) (x : EddyEnt) : Bool := decide (slotNs * s.eddyWait p < s.now - x.since)

/-- The candidates of a weft slot of output `p` (R314): those of the sealed skein that owns the slot, or of the shared skeins. -/
def State.candidates (s : State) (p : Nat) (l : List EddyEnt) : List EddyEnt :=
  match s.sealOwner p (slotOf s.now) with
  | some k => l.filter fun x => x.c.skein == k
  | none => l.filter fun x => s.isShared x.c.skein

/-- A sealed skein that owns no entry of the output: its containers are diverted (R314). -/
def State.noSeal (s : State) (p : Nat) (x : EddyEnt) : Bool := !s.isShared x.c.skein && !(s.sealOwners p).contains x.c.skein

/-- What remains after arbitration becomes the eddy, within the limits of R309 while budgets are enforced and then those of R166:
the new eddy, and what is diverted, in order. -/
def State.eddyLimits (s : State) (p : Nat) (l : List EddyEnt) : List EddyEnt × List EddyEnt :=
  let l := byAge l.length l
  let lost0 := l.filter (s.noSeal p)
  let l0 := l.filter fun x => !s.noSeal p x
  let skeins := (l0.map fun x : EddyEnt => x.c.skein).dedup
  let (l1, lost1) :=
    if s.enforced then
      skeins.foldl (fun (a : List EddyEnt × List EddyEnt) k =>
        let (keep, go) := keepFirst (s.budEddy k) (fun x => x.c.skein == k) a.1
        (keep, a.2 ++ go)) (l0, [])
    else (l0, [])
  let (l2, lost2) :=
    if s.enforced then keepFirst (32 - ((s.sealOwners p).map s.budEddy).sum) (fun x => s.isShared x.c.skein) l1 else (l1, [])
  let lost3 := l2.filter (s.overWait p)
  let l3 := l2.filter fun x => !s.overWait p x
  (l3.take 32, lost0 ++ lost1 ++ lost2 ++ lost3 ++ l3.drop 32)

/-- The eddy of an output. -/
def State.eddyOf (s : State) (p : Nat) : List EddyEnt := SMap.look (fun _ => []) s.rp.eddy p

/-- `s` with the eddy of an output. -/
def State.setEddy (s : State) (p : Nat) (l : List EddyEnt) : State :=
  { s with rp := { s.rp with eddy := SMap.put (fun _ => []) s.rp.eddy p l } }

/-- Everything that remains at output `p` after its slot: the eddy, and what is diverted (R166, R167, R309). -/
def State.settleEddy (s : State) (p : Nat) (l : List EddyEnt) : State :=
  let (keep, go) := s.eddyLimits p l
  go.foldl (fun t x => t.divert p x) (s.setEddy p keep)

/-- An output that is down, fenced or masked out keeps nothing (R159, R169): a reply of the memory agent is offered afresh. -/
def State.abandonOutput (s : State) (p : Nat) (l : List EddyEnt) : State :=
  l.foldl (fun t x => match x.agent with
    | some e => t.agentOffer x.c e
    | none => t.divert p x) (s.setEddy p [])

/-! ### Analysis port (R178, R179) -/

/-- A container may be copied: EN reads 1, and its skein is neither sealed nor confidential. -/
def State.mayCopy (s : State) (c : Container) : Bool :=
  s.flag .ronpex Reg.xbrAnaCtl 0 && s.occupant.isNone && !s.isSealed c.skein && !s.isConf c.skein

/-- The filters of MODE 1. -/
def State.passesFilters (s : State) (c : Container) : Bool :=
  let f := s.reg .ronpex Reg.xbrAnaFlt
  (!s.flag .ronpex Reg.xbrAnaCtl 30 || s.fld .ronpex Reg.xbrAnaCtl 24 6 == c.skein)
    && (!bit 15 f || bits 0 15 f == c.src) && (!bit 31 f || bits 16 15 f == c.dest)

/-- A container that enters or leaves port `p` is copied where it is selected. -/
def State.anaCopy (s : State) (p : Nat) (entering : Bool) (c : Container) : State :=
  let sel := if s.flag .ronpex Reg.xbrAnaCtl 1 then entering && s.passesFilters c
    else s.fld .ronpex Reg.xbrAnaCtl 16 8 == p && s.flag .ronpex Reg.xbrAnaCtl (if entering then 2 else 3)
  if s.mayCopy c && sel then { s with rp := { s.rp with ana := s.rp.ana ++ [c] } } else s

/-- The oldest of some containers by AGE; the first of equals. -/
def oldestC (l : List Container) : Option Container :=
  l.foldl (fun (b : Option Container) x => match b with
    | none => some x
    | some y => if signed 16 (subMod 16 x.age y.age) < 0 then some x else some y) none

/-- The analysis port sends the oldest copy by AGE and drops the rest. One that is fenced transmits nothing (R348), and one in quarantine only
fill (R352). -/
def State.anaSlot (s : State) (p : Nat) : State :=
  let n := s.rp.ana.length
  let s1 : State := { s with rp := { s.rp with ana := [] } }
  if !s.carries p then
    let s2 := s1.satFld .ronpex Reg.xbrAnaStat 0 32 n
    if s.portUp .ronpex p && s.fld .ronpex (portBase p) 0 2 == 2 then s2.idleFill .ronpex p else s2
  else match oldestC s.rp.ana with
    | none => s1.idleFill .ronpex p
    | some c => ((s1.satFld .ronpex Reg.xbrAnaStat 0 32 (n - 1)).sendBlock .ronpex p (.weft c)).emit (.analysis c)

/-! ### A slot of a port of the Ronpex -/

/-- A weft slot of output `p` (R165, R274, R281, R314): the oldest candidate is transmitted, and the rest become the eddy. -/
def State.rpWeftSlot (s : State) (p : Nat) (l : List EddyEnt) : State :=
  let ready := oldestEnt (s.candidates p l)
  let (may, s1) := s.lpiStep .ronpex p ready.isSome
  if !may then s1.settleEddy p l
  else match ready with
    | none => (s1.weftFill .ronpex p).settleEddy p l
    | some x =>
      let s2 := (s1.anaCopy p false x.c).sendBusy .ronpex p (.weft x.c)
      let s3 := if x.agent.isSome then s2.agentLeave x.agent else s2
      s3.settleEddy p (l.erase x)

/-- A warp slot of output `p` (R24, R187, R203): the cell that reaches it, or an empty container. -/
def State.rpWarpSlot (s : State) (p : Nat) (l : List EddyEnt) : State :=
  let (may, s1) := s.lpiStep .ronpex p true
  let s2 := match s.cellFor p with
    | none => if may then (s1.countSlot .ronpex p false false).sendBlock .ronpex p .empty else s1
    | some c => if may then (s1.delivered p c true).sendBusy .ronpex p (.warp c) else s1.delivered p c false
  s2.settleEddy p l

/-- The slot that begins at the present time, at port `p` (R23): `l` are the containers that reach its output and those in its
eddy. -/
def State.rpPortSlot (s : State) (p : Nat) (l : List EddyEnt) : State :=
  let lost (t : State) : State := match s.cellFor p with
    | none => t
    | some c => if s.txAt s.now p = 1 ∧ s.carries p then t else t.delivered p c false
  if s.anaPort p then (s.abandonOutput p l).anaSlot p
  else if !s.carries p then
    let s1 := lost (s.abandonOutput p l)
    if s.portUp .ronpex p && s.fld .ronpex (portBase p) 0 2 == 2 then
      (if s.txAt s.now p = 3 then s1.skySlot p else s1.idleFill .ronpex p)
    else s1
  else
    let (l, s1) := if s.eligible p then (l, lost s) else ([], lost (s.abandonOutput p l))
    match s.txAt s.now p with
    | 0 => s1.rpWeftSlot p l
    | 1 => s1.rpWarpSlot p l
    | 2 => (s1.idleSlot .ronpex p !l.isEmpty).settleEddy p l
    | _ => (s1.skySlot p).settleEddy p l

/-- Every port of the Ronpex has its slot: what the outputs were offered before it contends in it (R165), and its stay at the output
counts from this slot (R166). -/
def State.rpSlots (s : State) : State :=
  let arrived : SMap (List EddyEnt) := s.rp.cand.map fun e : Nat × List EddyEnt => (e.1, e.2.map fun x : EddyEnt => { x with since := s.now })
  let s1 : State := { s with rp := { s.rp with cand := [] } }
  let s2 := (List.range 192).foldl (fun t p => t.rpPortSlot p (SMap.look (fun _ => []) arrived p ++ s.eddyOf p)) s1
  s2.modWarp fun w => { w with
    sky := (List.range 192).foldl (fun m p =>
      if s.running && s.txAt s.now p == 3 then SMap.set m p (portEngine p * 12 + entryTarget (s.rdAt s.now p) % 16) else m) [] }

/-! ### A slot of a port of the Plocen (R122, R164, R193, R308) -/

/-- What waits at a port. -/
def State.txq (s : State) (p : Nat) : TxQ := SMap.look (fun _ => {}) s.ep.tx p

/-- `s` with what waits at a port. -/
def State.setTxq (s : State) (p : Nat) (q : TxQ) : State := { s with ep := { s.ep with tx := SMap.put (fun _ => {}) s.ep.tx p q } }

/-- Request containers transmitted on a port in this frame. -/
def State.pacedOf (s : State) (p : Nat) : Nat := SMap.look (fun _ => 0) s.ep.paced p

/-- A Plocen transmits no weft container but MGMT until it has received an assignment (R304). -/
def State.mayTransmit (s : State) (c : Container) : Bool :=
  s.flag .plocen Reg.epSecAssign 7 || (containerMsgs c).all fun m => m.opc == 0x3E

/-- What waits at a port and may go as the assignment stands (R304). -/
def State.txOpen (s : State) (p : Nat) : TxQ :=
  let q := s.txq p
  { q with replies := q.replies.filter s.mayTransmit, direct := q.direct.filter fun x => s.mayTransmit x.2
           shuttle := q.shuttle.filter fun x => s.mayTransmit x.2 }

/-- The port may transmit a further request container in this frame (R304, R308): an assigned Plocen within SLOTS. -/
def State.mayRequest (s : State) (p : Nat) : Bool :=
  !s.flag .plocen Reg.epSecAssign 7 || decide (s.pacedOf p < s.fld .plocen Reg.epSecAssign 16 13)

/-- Which kind of request goes next (R122): while both wait, direct containers take DIRECT_SHARE sixteenths. -/
def State.directTurn (s : State) (q : TxQ) : Bool :=
  if q.shuttle.isEmpty then true
  else if q.direct.isEmpty then false
  else decide (q.turn < s.fld .plocen Reg.epShtCtl 16 4)

/-- The container that a weft slot of port `p` carries, if any. -/
def State.epReady (s : State) (p : Nat) : Bool :=
  let q := s.txOpen p
  !q.replies.isEmpty || (s.mayRequest p && !(q.direct.isEmpty && q.shuttle.isEmpty))

/-- A request container is transmitted: it is counted, and its retry timer runs (R176, R308). -/
def State.epRequestOut (s : State) (p id : Nat) (c : Container) (q : TxQ) : State :=
  let s1 := (s.setTxq p q).modHeld .plocen id fun h => { h with loc := .sent, due := s.now + 1000 * h.retryUs }
  { s1 with ep := { s1.ep with paced := SMap.put (fun _ => 0) s1.ep.paced p (s1.pacedOf p + 1) } }.sendBusy .plocen p (.weft c)

/-- A weft slot of port `p`: replies first, then requests (R122, R164). -/
def State.epWeftSend (s : State) (p : Nat) : State :=
  let q := s.txq p
  let may := s.txOpen p
  match oldestC may.replies with
  | some c => (s.setTxq p { q with replies := q.replies.erase c }).sendBusy .plocen p (.weft c)
  | none =>
    if !s.mayRequest p then s.weftFill .plocen p
    else
      let turn := if may.direct.isEmpty || may.shuttle.isEmpty then q.turn else (q.turn + 1) % 16
      match s.directTurn may, may.direct, may.shuttle with
      | true, x :: _, _ => s.epRequestOut p x.1 x.2 { q with direct := q.direct.erase x, turn := turn }
      | _, _, x :: _ => s.epRequestOut p x.1 x.2 { q with shuttle := q.shuttle.erase x, turn := turn }
      | _, _, [] => s.weftFill .plocen p

/-- The slot that begins at the present time, at port `p` of the Plocen. -/
def State.epPortSlot (s : State) (p : Nat) : State :=
  if !s.portUp .plocen p then s
  else if s.ep.sec.skyOver.contains p && !s.skyNow .plocen p then s.skyOut p
  else if !s.epLive p then s.idleFill .plocen p
  else
    let e := s.ptNow s.now p
    let s := (s.skyAlign p (entryRx e)).skyGroups p (entryTx e)
    match entryTx e with
    | 0 =>
      let (may, s1) := s.lpiStep .plocen p (s.epReady p)
      if may then s1.epWeftSend p else s1
    | 1 =>
      let (may, s1) := s.lpiStep .plocen p true
      match s1.warpTx p (slotOf s.now) (entryPh e) with
      | some c => if may then s1.sendBusy .plocen p (.warp c) else s1
      | none =>
        let s2 := (s1.noteLate p (entryPh e)).noteFailed p (slotOf s.now) (entryPh e)
        if may then (s2.countSlot .plocen p false false).sendBlock .plocen p .empty else s2
    | 2 => s.idleSlot .plocen p (s.epReady p)
    | _ =>
      let (may, s1) := s.lpiStep .plocen p true
      if !may then s1
      else if s1.skyPos p (slotOf s.now) < 50 then s1.deskewOut .plocen p
      else match s1.skyCell p (slotOf s.now) (entryPh e) with
        | some _ => s1.skySend p (slotOf s.now) (entryPh e)
        | none => (s1.noteLate p (entryPh e)).noteFailed p (slotOf s.now) (entryPh e)

/-! ### The end of a slot -/

/-- A received slot in which nothing else came held a fill block, unless the far end was in low-power idle then (R274, R279): which, the light
of its codeword group says. A slot of which no group has said so within 16 slots is as the last group was (DESIGN CHOICE, log 38). Slots of a
sky run (R335), and those sent before the far end's training ended (R212), hold none that is counted. -/
def State.fillIn (s : State) (p : Part) (port : Nat) : State :=
  let use := s.rxUseAt p s.now port
  if !s.portUp p port then s
  else
    let l := s.link p port
    let l1 := if l.keys.rxSlot == some s.now || use == 3 || s.now < l.keys.rxFrom then l else { l with pend := l.pend ++ [(s.now, use == 2)] }
    s.rxLink p port (
      if !(l1.pend.any fun x => decide (x.1 + 16 * slotNs ≤ s.now)) then l1
      else if l1.rxIdle then { l1 with pend := l1.pend.filter fun x => decide (s.now < x.1 + 16 * slotNs) }
      else l1.fillsTo (s.now - 16 * slotNs + 1))

/-- A container for fabric-resident memory or the Ronpex itself (R156, R250): its replies reach the source, and its requests wait for
the memory agent. -/
def State.localIn (s : State) (p : Nat) (c : Container) : State :=
  if c.refl then s.reflected .ronpex c 0
  else
    let ms := containerMsgs c
    let s1 := s.takeWin .ronpex c.src 0 c.win
    let s2 := (ms.filter fun m => m.reply).foldl (fun t m => t.takeReply .ronpex c m) s1
    if ms.any fun m => !m.reply then s2.modFm fun f => { f with inbox := f.inbox ++ [(p, c)] } else s2

/-- Containers of the Ronpex itself and those that come back to it reach it (R156, R167). Requests among them come to the memory agent
as from port 0 (DESIGN CHOICE, log 139). -/
def State.homeIn (s : State) : State :=
  s.rp.home.foldl (fun t c => t.localIn 0 c) { s with rp := { s.rp with home := [] } }

/-- The slot that begins at the present time (R23): every port of both parts transmits, test patterns among it, cells reach spindles, an
idle flit carries
what has moved on the attach link (R70), and time moves on to the next
slot: slots begin at multiples of 4 ns, whatever TIM.SET has set (R19). -/
def State.slotBoundary (s : State) : State :=
  let s1 := ((s.homeIn.rampDue.rpPush).flightsLand).rpSlots
  let s2 := (List.range 8).foldl (fun t p => t.epPortSlot p) s1
  let s3 := (s2.rp.links.map fun e => e.1).foldl (fun t p => if p < 192 then t.fillIn .ronpex p else t) s2
  let s4 := (s3.ep.links.map fun e => e.1).foldl (fun t p => if p < 8 then t.fillIn .plocen p else t) s3
  let s5 := ((s4.missingIn).flightsDone).idleFlit
  let s6 := (s5.rp.links.map fun e => e.1).foldl (fun t p => if p < 192 then t.patternSlot .ronpex p else t) s5
  let s7 := (s6.ep.links.map fun e => e.1).foldl (fun t p => if p < 8 then t.patternSlot .plocen p else t) s6
  { s7 with now := (s7.now / slotNs + 1) * slotNs }

/-- Entries of an eddy that have waited longer than EDDY_WAIT are diverted (R166). -/
def State.eddyExpire (s : State) (p : Nat) : State :=
  let l := s.eddyOf p
  (l.filter (s.overWait p)).foldl (fun t x => t.divert p x) (s.setEddy p (l.filter fun x => !s.overWait p x))

/-! ### A weft container enters the Ronpex -/

/-- Request containers are policed where CHECK is set (R308): the count is that of the frame in which they were transmitted, and one
beyond SLOTS is to be reflected. -/
def State.police (s : State) (p : Nat) (c : Container) : Bool × State :=
  if !s.flag .ronpex (Reg.sknPort p) 6 || holdsReply c || c.refl then (false, s)
  else
    let f := frameOf (s.now - slotNs * (s.linkDelay .ronpex p).1)
    let l := s.link .ronpex p
    let n := if l.reqFrame = f then l.reqs else 0
    let limit := SMap.look (fun _ => 4096) s.rp.skeins.police (s.fld .ronpex (Reg.sknPort p) 0 6)
    (s.enforced && decide (limit ≤ n), s.setLink .ronpex p { l with reqs := n + 1, reqFrame := f })

/-- A weft container that has passed the checks of its port is routed (R156, R157, R168). -/
def State.routeIn (s : State) (p : Nat) (c : Container) : State :=
  let r := s.route (lookupNode c)
  let last := match r with
    | .port q => s.facesPlocen q
    | .localMem => true
    | _ => false
  let x : EddyEnt := { c := { c with hops := c.hops - 1 }, ingress := p, since := s.now, agent := none }
  match r with
  | .unrouted => s.logUnrouted p c
  | .localMem => s.localIn p c
  | _ => if c.hops = 0 ∧ !last then s.reflect x false else s.toOutput r x

/-- A container of skein 0 that carries only MGMT, which comes with skein 0 through every port (R392), and acknowledgements of MGMT to this
package (R152): they are exempt from the port's skein check (DEDUCED, log 65). -/
def State.mgmtTraffic (s : State) (c : Container) : Bool :=
  c.skein == 0 && (containerMsgs c).all fun m => m.opc == 0x3E || (m.opc == 0x31 && c.dest == s.ownNode .ronpex)

/-- A weft container in a weft slot of a port (R303, R304, R308). -/
def State.weftIn (s : State) (p : Nat) (c : Container) : State :=
  let (gone, s1) := s.skeinGate p c.kind c.src c.skein (s.mgmtTraffic c)
  if gone then s1
  else
    let (beyond, s2) := (s1.anaCopy p true c).police p c
    if beyond then s2.reflect { c := c, ingress := p, since := s.now, agent := none } false else s2.routeIn p c

/-- A container enters a port of the Ronpex (R150, R153, R156): an empty one, or a weft container whose CRC checks. Only a slot that the
draft gives to warp or sky turns a weft container away (R153, R210). -/
def State.rpContainerIn (s : State) (p : Nat) (c : Container) : State :=
  if !s.portUp .ronpex p || s.anaPort p then s
  else
    let use := s.rxAt s.now p
    let s1 := if use = 3 then s else s.rxBlock .ronpex p (.weft c)
    if s.slotLost .ronpex p then s1
    else if !s.carries p then s1.quarTraffic p c.src c.skein
    else if c.crc ≠ containerCrc c then s1
    else if c.kind = 0 then s1.rpEmptyIn p
    else if ¬(c.kind = 1 ∨ c.kind = 2) then s1
    else match use with
      | 1 => s1.slotMismatch p c.kind c.src c.skein 1
      | 3 => s1
      | _ => s1.weftIn p c

/-! ### A frame boundary (R183) -/

/-- The activity class of a port is measured (R289): a new class counts once four measurements in a row have given it. -/
def Link.measure (l : Link) : Link :=
  let busy := (l.busyNow :: l.busy).take 64
  let high := decide (busy.length * frameSlots ≤ 2 * busy.sum)
  let run := if high = l.cls then 0 else l.clsRun + 1
  { l with busy := busy, busyNow := 0, cls := if run = 4 then high else l.cls, clsRun := if run = 4 then 0 else run }

/-- The tags of the frame that a port has sent (R332): FRAMETAG waits to be sent. -/
def Link.tagFrame (l : Link) (frame : Nat) : Link :=
  let k := l.keys
  let q := match k.tx with
    | some _ => [LmcMsg.key 6 (frame % 4096) (leBytes 8 (k.txTag.toNat % 2 ^ 64))]
    | none => []
  { l with lmcQ := l.lmcQ ++ q, keys := { k with txTag := 0 } }

/-- A port at a frame boundary: the frame that ended is closed, and keys and lanes change where their frame has come (R288, R289,
R332, R333). -/
def State.portFrame (s : State) (p : Part) (port : Nat) : State :=
  let up := s.portUp p port
  let s1 := s.modLink p port fun l =>
    let l1 := if up then (l.tagFrame (frameOf s.now - 1)).measure else l
    { l1 with loggedNow := [] }
  ((s1.keySwitch p port).swapApply p port).revalResume p port

/-- Budgets are loaded (R307, R312): a lowered SLOTS polices from the second boundary after the change, a raised one from the first,
and a port whose skein's scaled SLOTS has changed gets a new assignment (R304). -/
def State.loadBudgets (s : State) : State :=
  let words := (List.range 64).flatMap fun k => (List.range 4).map fun w => (4 * k + w, s.reg .ronpex (Reg.budWeft k + 4 * w))
  let loaded := words.foldl (fun (m : SMap Nat) x => SMap.put (fun i => budReset (i % 4)) m x.1 x.2) []
  let s1 := s.modSk fun x => { x with loaded := loaded, spin := [], spinPosted := [], mgmt := [] }
  let set (f : Nat → Nat) : SMap Nat := (List.range 64).foldl (fun (m : SMap Nat) k => SMap.put (fun _ => 4096) m k (f k)) []
  (s1.modSk fun x => { x with
    police := set fun k => max (s1.slotsOf k) (SMap.look (fun _ => 4096) s1.rp.skeins.scaledOld k)
    scaledOld := set s1.slotsOf }).sendSlots

/-- What is counted or logged once a frame begins afresh. No cell is in a spindle at a frame boundary (R184): what a group lacks at the
frame's end no longer comes. -/
def State.frameClear (s : State) : State :=
  let s1 := s.modWarp fun w => { w with logged := [] }
  let s2 := s1.modEw fun w => { w with
    logged := [], skyRx := w.skyRx.map fun e : Nat × SkyRun => (e.1, { e.2 with tag := 0, bad := 0, good := false }) }
  { s2 with
    rp := { s2.rp with spindles := s2.rp.spindles.map fun e : Nat × SpindleSt => (e.1, { e.2 with posted := 0, ctxs := [] }) }
    ep := { s2.ep with paced := [] } }

/-- The time that TIM.SET has set takes effect (R379). -/
def State.timeStep (s : State) : State :=
  match s.rp.time.set with
  | none => s
  | some t => { s.modTime .ronpex fun x => { x with set := none, base := 0 } with now := t }

/-- A draft that takes effect under PWRALERT_N or THERM_STEP 2 goes to its POWER alternate (R369, R371). -/
def State.powerKeep (s : State) : State :=
  if s.running && (s.rp.power.alert || decide (2 ≤ s.fld .ronpex Reg.timPwrStat 2 2)) then s.powerRequest else s

/-- A frame boundary (R183), with the power of the six activities in the frame that has ended and the sensors' readings: pending
changes of drafts, maps, orders, epochs, keys, skeins and budgets take effect, and what is counted by the frame begins afresh. -/
def State.frameBoundary (s : State) (activity : List Nat) (sensors : List Int) : State :=
  if s.now % frameNs ≠ 0 then s
  else
    let s0 := s.shadowTallies.skeinEffect.loadBudgets
    let s1 := (s0.thermalFrame sensors).powerFrame activity
    let s2 := (s1.rp.links.map fun e => e.1).foldl (fun t p => if p < 192 then t.portFrame .ronpex p else t) s1
    let s3 := (s2.ep.links.map fun e => e.1).foldl (fun t p => if p < 8 then t.portFrame .plocen p else t) s2
    let s4 := s3.timeStep.frameClear
    let s5 := (((s4.loadMaps.rpOrdersDue).epochDue .ronpex).rpActivate).powerKeep
    let s6 := if s5.ptRunning then s5.closeRuns else s5
    let s7 := ((s6.epochDue .plocen).epActivate).epOrdersDue
    let s8 := if s7.ptRunning then s7.openRuns else s7
    ((((s8.lasFollowed.feedsDue.tokenDue).agentFrame).tenantAgain.traySync 0).traySync 1).releaseRecords

end Sys2Proof.Machine
end

