-- ==== Sys2Proof/Machine/Switch.lean ====
section
/-! DEFINITION. The commands of slots, frames and the crossbar (R23, R156, R166, R183): one meaning per row. -/

namespace Sys2Proof.Machine

open Sys2Proof

/-- A slot begins: every port reads its entry and transmits (R23). -/
def execSlotBoundary (s : State) : Host.Outcome State Fault Refusal := .next s.slotBoundary.a2pGo

/-- A frame begins (R183). -/
def execFrameBoundary (activity : List Nat) (sensors : List Int) (s : State) : Host.Outcome State Fault Refusal :=
  .next (s.frameBoundary activity sensors)

/-- A container has waited longer than EDDY_WAIT (R166). -/
def execEddyWaitExpire (port : Fin 192) (s : State) : Host.Outcome State Fault Refusal := .next (s.eddyExpire port)

/-- A weft container arrives at a port of the Ronpex (R156). -/
def execContainerIngress (port : Fin 192) (c : Container) (s : State) : Host.Outcome State Fault Refusal :=
  .next (s.rpContainerIn port c)

end Sys2Proof.Machine
end

