-- ==== Sys2Proof/Machine/Weft.lean ====
section
/-! DEFINITION. The commands of a weft source and destination at the Plocen, and the timers that both parts keep
(R160-R176, R350). -/

namespace Sys2Proof.Machine

open Sys2Proof

/-- A container that holds a reply record. -/
def isReplyC (c : Container) : Bool := !c.refl && holdsReply c
/-- A container of ordered requests. -/
def isOrderedC (c : Container) : Bool := !c.refl && !holdsReply c && c.ord
/-- A container of unordered requests. -/
def isRequestC (c : Container) : Bool := !c.refl && !holdsReply c && !c.ord

/-- A destination's mark of a plane as unreachable ends after 100 ms (R350). -/
def State.reachable (s : State) (dest plane : Nat) : State :=
  s.modSource .plocen fun x => { x with unreach := x.unreach.filter fun u => !(u.1 == dest && u.2.1 == plane && decide (u.2.2 ≤ s.now)) }

/-- A container is injected on plane p (R163). -/
def execInject (p : Fin 8) (s : State) : Host.Outcome State Fault Refusal := .next (s.injectOn p)

/-- A container reaches a port of the Plocen: its block is counted, outside a sky window, while the port is up; one that
an uncorrectable codeword touches is discarded (R273). -/
def State.epContainerIn (s : State) (p : Nat) (c : Container) : State :=
  let s1 := if s.portUp .plocen p && entryRx (s.ptNow s.now p) != 3 then s.rxBlock .plocen p (.weft c) else s
  if s.slotLost .plocen p then s1 else s1.epArrive p c

/-- An unordered request container arrives (R170, R171). -/
def execRequestArrival (p : Fin 8) (c : Container) (s : State) : Host.Outcome State Fault Refusal :=
  .next (if isRequestC c then s.epContainerIn p c else s)

/-- An ordered request container arrives (R175). -/
def execOrderedArrival (p : Fin 8) (c : Container) (s : State) : Host.Outcome State Fault Refusal :=
  .next (if isOrderedC c then s.epContainerIn p c else s)

/-- A container with a reply arrives (R162, R173). -/
def execReplyArrival (p : Fin 8) (c : Container) (s : State) : Host.Outcome State Fault Refusal :=
  .next (if isReplyC c then (s.epContainerIn p c).unready else s)

/-- A container comes back reflected (R176). -/
def execReflectedArrival (p : Fin 8) (c : Container) (s : State) : Host.Outcome State Fault Refusal :=
  .next (if c.refl then (s.epContainerIn p c).unready else s)

/-- The backoff of a reflected container ends (R176). -/
def execBackoffResend (part : Part) (id : Nat) (s : State) : Host.Outcome State Fault Refusal := .next (s.backoffEnd part id).unready

/-- A retry timer expires (R176). -/
def execRetryTimeout (part : Part) (id : Nat) (s : State) : Host.Outcome State Fault Refusal := .next (s.retryTimer part id).unready

/-- A container is older than LIFE (R176). -/
def execLifeExpire (part : Part) (id : Nat) (s : State) : Host.Outcome State Fault Refusal := .next (s.lifeTimer part id).unready

/-- A receive record falls silent (R171). -/
def execReceiveRecordExpire (part : Part) (node : Nat) (s : State) : Host.Outcome State Fault Refusal := .next (s.recExpire part node)

/-- A context has been idle (R175). -/
def execContextIdleExpire (part : Part) (node stream : Nat) (s : State) : Host.Outcome State Fault Refusal :=
  .next (s.ctxExpire part node stream)

/-- Reply-cache entries are older than 1 ms (R174). -/
def execReplyCacheExpire (part : Part) (s : State) : Host.Outcome State Fault Refusal := .next (s.cacheExpire part)

/-- The hold of replies to a node ends (R173). -/
def execReplyHoldExpire (node : Nat) (s : State) : Host.Outcome State Fault Refusal := .next (s.replyHold node)

/-- An unreachable mark ends (R350). -/
def execUnreachableExpire (dest : Nat) (plane : Fin 8) (s : State) : Host.Outcome State Fault Refusal := .next (s.reachable dest plane)

end Sys2Proof.Machine
end

