-- ==== Sys2Proof/Machine/Dispatch.lean ====
section
/-! DEFINITION. The one dispatch: each command goes to its meaning. -/

namespace Sys2Proof.Machine

open Sys2Proof

/-- The effect of a command on everything but the queue of waiting commands. -/
def exec (i : Instr) (s : State) : Host.Outcome State Fault Refusal :=
  match i with
  | .registerWrite part addr width value wr => Sys2Proof.Machine.execRegisterWrite part addr width value wr s
  | .slotBoundary => Sys2Proof.Machine.execSlotBoundary s
  | .frameBoundary activity sensors => Sys2Proof.Machine.execFrameBoundary activity sensors s
  | .eddyWaitExpire port => Sys2Proof.Machine.execEddyWaitExpire port s
  | .weftLpiEnter part port => Sys2Proof.Machine.execWeftLpiEnter part port s
  | .moduleTrained m rate => Sys2Proof.Machine.execModuleTrained m rate s
  | .parameterExchange version fit4 => Sys2Proof.Machine.execParameterExchange version fit4 s
  | .init f => Sys2Proof.Machine.execInit f s
  | .initAck h => Sys2Proof.Machine.execInitAck s h
  | .initResend => Sys2Proof.Machine.execInitResend s
  | .dataFlit f => Sys2Proof.Machine.execDataFlit f s
  | .nak f => Sys2Proof.Machine.execNak f s
  | .replayLimitRetrain => Sys2Proof.Machine.execReplayLimitRetrain s
  | .retrainTimeout => Sys2Proof.Machine.execRetrainTimeout s
  | .directLoad t => Sys2Proof.Machine.execDirectLoad t s
  | .directStore t => Sys2Proof.Machine.execDirectStore t s
  | .epHnkFenceRead t => Sys2Proof.Machine.execEpHnkFenceRead t s
  | .cpl t => Sys2Proof.Machine.execCpl t s
  | .cpld t => Sys2Proof.Machine.execCpld t s
  | .accTimeout tag => Sys2Proof.Machine.execAccTimeout tag s
  | .timeout rid tag => Sys2Proof.Machine.execTimeout rid tag s
  | .sqDb n tail => Sys2Proof.Machine.execSqDb n tail s
  | .cqDb n head => Sys2Proof.Machine.execCqDb n head s
  | .arm n value => Sys2Proof.Machine.execArm n value s
  | .intrModerationTimeout n => Sys2Proof.Machine.execIntrModerationTimeout n s
  | .put n => Sys2Proof.Machine.execPut n s
  | .putAck n => Sys2Proof.Machine.execPutAck n s
  | .get n => Sys2Proof.Machine.execGet n s
  | .atomic n => Sys2Proof.Machine.execAtomic n s
  | .gather n => Sys2Proof.Machine.execGather n s
  | .scatter n => Sys2Proof.Machine.execScatter n s
  | .warpJoin n => Sys2Proof.Machine.execWarpJoin n s
  | .hankWait n => Sys2Proof.Machine.execHankWait n s
  | .hankSet n => Sys2Proof.Machine.execHankSet n s
  | .fmemPage n => Sys2Proof.Machine.execFmemPage n s
  | .scheduleBurst sp => Sys2Proof.Machine.execScheduleBurst sp s
  | .gateMet n index => Sys2Proof.Machine.execGateMet n index s
  | .waitTimeout n index => Sys2Proof.Machine.execWaitTimeout n index s
  | .packHoldExpire dest plane => Sys2Proof.Machine.execPackHoldExpire dest plane s
  | .shuttleInternalError sp => Sys2Proof.Machine.execShuttleInternalError sp s
  | .ringEnable n cfg wr => Sys2Proof.Machine.execRingEnable n cfg wr s
  | .ringDisable n cfg wr => Sys2Proof.Machine.execRingDisable n cfg wr s
  | .ringDrainDone n => Sys2Proof.Machine.execRingDrainDone n s
  | .fillDb tail => Sys2Proof.Machine.execFillDb tail s
  | .missDb head => Sys2Proof.Machine.execMissDb head s
  | .xltArm value => Sys2Proof.Machine.execXltArm value s
  | .fillNop => Sys2Proof.Machine.execFillNop s
  | .fillOut => Sys2Proof.Machine.execFillOut s
  | .fillIn => Sys2Proof.Machine.execFillIn s
  | .fillFault => Sys2Proof.Machine.execFillFault s
  | .invTag => Sys2Proof.Machine.execInvTag s
  | .invRange => Sys2Proof.Machine.execInvRange s
  | .microCacheAck m => Sys2Proof.Machine.execMicroCacheAck m s
  | .drained tag => Sys2Proof.Machine.execDrained tag s
  | .removeIn => Sys2Proof.Machine.execRemoveIn s
  | .inRemoved => Sys2Proof.Machine.execInRemoved s
  | .missTmoExpire record => Sys2Proof.Machine.execMissTmoExpire record s
  | .xltEnable ctl wr => Sys2Proof.Machine.execXltEnable ctl wr s
  | .xltDisable ctl wr => Sys2Proof.Machine.execXltDisable ctl wr s
  | .containerIngress port c => Sys2Proof.Machine.execContainerIngress port c s
  | .inject p => Sys2Proof.Machine.execInject p s
  | .requestArrival p c => Sys2Proof.Machine.execRequestArrival p c s
  | .orderedArrival p c => Sys2Proof.Machine.execOrderedArrival p c s
  | .replyArrival p c => Sys2Proof.Machine.execReplyArrival p c s
  | .reflectedArrival p c => Sys2Proof.Machine.execReflectedArrival p c s
  | .backoffResend part id => Sys2Proof.Machine.execBackoffResend part id s
  | .retryTimeout part id => Sys2Proof.Machine.execRetryTimeout part id s
  | .lifeExpire part id => Sys2Proof.Machine.execLifeExpire part id s
  | .receiveRecordExpire part node => Sys2Proof.Machine.execReceiveRecordExpire part node s
  | .contextIdleExpire part node stream => Sys2Proof.Machine.execContextIdleExpire part node stream s
  | .replyCacheExpire part => Sys2Proof.Machine.execReplyCacheExpire part s
  | .replyHoldExpire node => Sys2Proof.Machine.execReplyHoldExpire node s
  | .memoryAgentRequest port c ce ue => Sys2Proof.Machine.execMemoryAgentRequest port c ce ue s
  | .sealedReplyRelease => Sys2Proof.Machine.execSealedReplyRelease s
  | .regionGrant n ctl wr => Sys2Proof.Machine.execRegionGrant n ctl wr s
  | .zeroingDone => Sys2Proof.Machine.execZeroingDone s
  | .relayEnable m ctl wr => Sys2Proof.Machine.execRelayEnable m ctl wr s
  | .drfGo ctl wr => Sys2Proof.Machine.execDrfGo ctl wr s
  | .drfStop ctl wr => Sys2Proof.Machine.execDrfStop ctl wr s
  | .wctlGo ctl wr => Sys2Proof.Machine.execWctlGo ctl wr s
  | .wctlStop ctl wr => Sys2Proof.Machine.execWctlStop ctl wr s
  | .commit value wr => Sys2Proof.Machine.execCommit value wr s
  | .draftActivation part => Sys2Proof.Machine.execDraftActivation part s
  | .warpCellIngress port c => Sys2Proof.Machine.execWarpCellIngress port c s
  | .spindleEmit n => Sys2Proof.Machine.execSpindleEmit n s
  | .warpCellLanding p c => Sys2Proof.Machine.execWarpCellLanding p c s
  | .switchOrder part src o => Sys2Proof.Machine.execSwitchOrder part src o s
  | .switchOrderApply part => Sys2Proof.Machine.execSwitchOrderApply part s
  | .spindleInternalError n => Sys2Proof.Machine.execSpindleInternalError n s
  | .spdFence n value wr => Sys2Proof.Machine.execSpdFence n value wr s
  | .ident part port l far => Sys2Proof.Machine.execIdent part port l far s
  | .pwrA part port l readings => Sys2Proof.Machine.execPwrA part port l readings s
  | .pwrB part port l readings => Sys2Proof.Machine.execPwrB part port l readings s
  | .tune part port l w request => Sys2Proof.Machine.execTune part port l w request s
  | .swapReq part port l lane reason frame => Sys2Proof.Machine.execSwapReq part port l lane reason frame s
  | .swapAck part port l lane reason frame => Sys2Proof.Machine.execSwapAck part port l lane reason frame s
  | .state part port l step => Sys2Proof.Machine.execState part port l step s
  | .stress part port l apply => Sys2Proof.Machine.execStress part port l apply s
  | .sync part port l locked master depth time16 recv16 => Sys2Proof.Machine.execSync part port l locked master depth time16 recv16 s
  | .rxstamp part port l syncSeq time16 => Sys2Proof.Machine.execRxstamp part port l syncSeq time16 s
  | .cert part port l frag data => Sys2Proof.Machine.execCert part port l frag data s
  | .eph part port l frag data => Sys2Proof.Machine.execEph part port l frag data s
  | .sig part port l frag data => Sys2Proof.Machine.execSig part port l frag data s
  | .switch part port l gen frame => Sys2Proof.Machine.execSwitch part port l gen frame s
  | .switchAck part port l gen frame => Sys2Proof.Machine.execSwitchAck part port l gen frame s
  | .frametag part port l frameLow tag => Sys2Proof.Machine.execFrametag part port l frameLow tag s
  | .abort part port l reason => Sys2Proof.Machine.execAbort part port l reason s
  | .keySwitchApply part port => Sys2Proof.Machine.execKeySwitchApply part port s
  | .rekeyStart part port => Sys2Proof.Machine.execRekeyStart part port s
  | .rekeyTimeout part port => Sys2Proof.Machine.execRekeyTimeout part port s
  | .lightLost part port => Sys2Proof.Machine.execLightLost part port s
  | .locHoldoverExpire part port => Sys2Proof.Machine.execLocHoldoverExpire part port s
  | .clockStopDetect part port => Sys2Proof.Machine.execClockStopDetect part port s
  | .trainingStepDone part port delayIn delayOut errors => Sys2Proof.Machine.execTrainingStepDone part port delayIn delayOut errors s
  | .trainingStepTimeout part port => Sys2Proof.Machine.execTrainingStepTimeout part port s
  | .downRetry part port => Sys2Proof.Machine.execDownRetry part port s
  | .laneFailed part port lane => Sys2Proof.Machine.execLaneFailed part port lane s
  | .uncorrectableDown part port groups patterns => Sys2Proof.Machine.execUncorrectableDown part port groups patterns s
  | .powerReading part port readings => Sys2Proof.Machine.execPowerReading part port readings s
  | .lowPowerLaneFail part port lane => Sys2Proof.Machine.execLowPowerLaneFail part port lane s
  | .swapApply part port => Sys2Proof.Machine.execSwapApply part port s
  | .revalidationStart part port cls temp => Sys2Proof.Machine.execRevalidationStart part port cls temp s
  | .revalidationCheckDone part port errors => Sys2Proof.Machine.execRevalidationCheckDone part port errors s
  | .biasEval part m => Sys2Proof.Machine.execBiasEval part m s
  | .feedTrip e w => Sys2Proof.Machine.execFeedTrip e w s
  | .feedRevert e w => Sys2Proof.Machine.execFeedRevert e w s
  | .feedRevertCmd e value wr => Sys2Proof.Machine.execFeedRevertCmd e value wr s
  | .feedForce e value wr => Sys2Proof.Machine.execFeedForce e value wr s
  | .emitterFail m w overtemp => Sys2Proof.Machine.execEmitterFail m w overtemp s
  | .lasAccessGo m value wr => Sys2Proof.Machine.execLasAccessGo m value wr s
  | .lasReply m r => Sys2Proof.Machine.execLasReply m r s
  | .lasReplyTimeout m => Sys2Proof.Machine.execLasReplyTimeout m s
  | .epEmitterFail w b => Sys2Proof.Machine.execEpEmitterFail w b s
  | .portMode part port value wr => Sys2Proof.Machine.execPortMode part port value wr s
  | .counterClr part port value wr => Sys2Proof.Machine.execCounterClr part port value wr s
  | .claim k wr => Sys2Proof.Machine.execClaim k wr s
  | .activate k wr => Sys2Proof.Machine.execActivate k wr s
  | .quiesce k wr => Sys2Proof.Machine.execQuiesce k wr s
  | .release k wr => Sys2Proof.Machine.execRelease k wr s
  | .skeinCommandEffect => Sys2Proof.Machine.execSkeinCommandEffect s
  | .confScrubDone => Sys2Proof.Machine.execConfScrubDone s
  | .portAssign port value wr => Sys2Proof.Machine.execPortAssign port value wr s
  | .assign p src skein isSealed slots epoch node => Sys2Proof.Machine.execAssign p src skein isSealed slots epoch node s
  | .assignAck port src skein isSealed slots epoch node => Sys2Proof.Machine.execAssignAck port src skein isSealed slots epoch node s
  | .tenantRecordRelease => Sys2Proof.Machine.execTenantRecordRelease s
  | .getVersion part req => Sys2Proof.Machine.execGetVersion part req s
  | .getCapabilities part req => Sys2Proof.Machine.execGetCapabilities part req s
  | .negotiateAlgorithms part req => Sys2Proof.Machine.execNegotiateAlgorithms part req s
  | .getDigests part req => Sys2Proof.Machine.execGetDigests part req s
  | .getCertificate part slot req => Sys2Proof.Machine.execGetCertificate part slot req s
  | .challenge part slot req => Sys2Proof.Machine.execChallenge part slot req s
  | .getMeasurements part index session req => Sys2Proof.Machine.execGetMeasurements part index session req s
  | .keyExchange part req => Sys2Proof.Machine.execKeyExchange part req s
  | .finish part session req => Sys2Proof.Machine.execFinish part session req s
  | .keyUpdate part session req => Sys2Proof.Machine.execKeyUpdate part session req s
  | .heartbeat part session req => Sys2Proof.Machine.execHeartbeat part session req s
  | .endSession part session req => Sys2Proof.Machine.execEndSession part session req s
  | .install part session kind skein keyId key malformed => Sys2Proof.Machine.execInstall part session kind skein keyId key malformed s
  | .destroy part session kind skein keyId malformed => Sys2Proof.Machine.execDestroy part session kind skein keyId malformed s
  | .layer1RestartDone part => Sys2Proof.Machine.execLayer1RestartDone part s
  | .fwStartFailure part => Sys2Proof.Machine.execFwStartFailure part s
  | .unitInternalError site => Sys2Proof.Machine.execUnitInternalError site s
  | .prtFence n value wr => Sys2Proof.Machine.execPrtFence n value wr s
  | .prtReturn n value wr => Sys2Proof.Machine.execPrtReturn n value wr s
  | .uctlFence ix value wr => Sys2Proof.Machine.execUctlFence ix value wr s
  | .uctlReturn ix value wr => Sys2Proof.Machine.execUctlReturn ix value wr s
  | .quarantineStepDone ix passed => Sys2Proof.Machine.execQuarantineStepDone ix passed s
  | .portRelease p src port gen => Sys2Proof.Machine.execPortRelease p src port gen s
  | .pathLoss part src plane tL => Sys2Proof.Machine.execPathLoss part src plane tL s
  | .unreachableExpire dest plane => Sys2Proof.Machine.execUnreachableExpire dest plane s
  | .epochOrder part src epoch effective => Sys2Proof.Machine.execEpochOrder part src epoch effective s
  | .epochApply part => Sys2Proof.Machine.execEpochApply part s
  | .report src r => Sys2Proof.Machine.execReport src r s
  | .reportWindowExpire type target => Sys2Proof.Machine.execReportWindowExpire type target s
  | .snapshotOrder part src t number skeins => Sys2Proof.Machine.execSnapshotOrder part src t number skeins s
  | .snapshotCapture part => Sys2Proof.Machine.execSnapshotCapture part s
  | .regionResetDone r => Sys2Proof.Machine.execRegionResetDone r s
  | .pkgReset => Sys2Proof.Machine.execPkgReset s
  | .hubReset value wr => Sys2Proof.Machine.execHubReset value wr s
  | .thermtrip => Sys2Proof.Machine.execThermtrip s
  | .epReset => Sys2Proof.Machine.execEpReset s
  | .pciePerst => Sys2Proof.Machine.execPciePerst s
  | .pwralertAssert => Sys2Proof.Machine.execPwralertAssert s
  | .pwralertDeassert => Sys2Proof.Machine.execPwralertDeassert s
  | .alertClearTimeout => Sys2Proof.Machine.execAlertClearTimeout s
  | .thermalFenceTimer d => Sys2Proof.Machine.execThermalFenceTimer d s
  | .thermalStepClear => Sys2Proof.Machine.execThermalStepClear s
  | .regionCoolReturn d => Sys2Proof.Machine.execRegionCoolReturn d s
  | .sleep value wr => Sys2Proof.Machine.execSleep value wr s
  | .wake value wr => Sys2Proof.Machine.execWake value wr s
  | .wakeToken token => Sys2Proof.Machine.execWakeToken token s
  | .corePg d => Sys2Proof.Machine.execCorePg d s
  | .powerGoodTimeout d => Sys2Proof.Machine.execPowerGoodTimeout d s
  | .supplyMonitorTrip voltEntries chargeEntries => Sys2Proof.Machine.execSupplyMonitorTrip voltEntries chargeEntries s
  | .parentLoss part => Sys2Proof.Machine.execParentLoss part s
  | .holdoverLimit part => Sys2Proof.Machine.execHoldoverLimit part s
  | .timeSet value wr => Sys2Proof.Machine.execTimeSet value wr s
  | .cmdDb tail wr => Sys2Proof.Machine.execCmdDb tail wr s
  | .evtDb head wr => Sys2Proof.Machine.execEvtDb head wr s
  | .logDb head wr => Sys2Proof.Machine.execLogDb head wr s
  | .logStream => Sys2Proof.Machine.execLogStream s
  | .nop c => Sys2Proof.Machine.execNop c s
  | .draftLoad c image dmaOk => Sys2Proof.Machine.execDraftLoad c image dmaOk s
  | .skein c => Sys2Proof.Machine.execSkein c s
  | .fence c => Sys2Proof.Machine.execFence c s
  | .return c => Sys2Proof.Machine.execReturn c s
  | .reset c => Sys2Proof.Machine.execReset c s
  | .epoch c => Sys2Proof.Machine.execEpoch c s
  | .snapshot c => Sys2Proof.Machine.execSnapshot c s
  | .send c payload dmaOk => Sys2Proof.Machine.execSend c payload dmaOk s
  | .tenant c => Sys2Proof.Machine.execTenant c s
  | .fwWrite c data dmaOk => Sys2Proof.Machine.execFwWrite c data dmaOk s
  | .fwVerify c => Sys2Proof.Machine.execFwVerify c s
  | .fwActivate c => Sys2Proof.Machine.execFwActivate c s
  | .fwErase c => Sys2Proof.Machine.execFwErase c s
  | .logCopy src e => Sys2Proof.Machine.execLogCopy src e s
  | .trayFrame port f => Sys2Proof.Machine.execTrayFrame port f s
  | .token port f => Sys2Proof.Machine.execToken port f s
  | .tokenRegen token => Sys2Proof.Machine.execTokenRegen token s
  | .trayChainLink port up => Sys2Proof.Machine.execTrayChainLink port up s
  | .pstWritePersist => Sys2Proof.Machine.execPstWritePersist s
  | .hoursTick => Sys2Proof.Machine.execHoursTick s
  | .pkgResetDeassert => Sys2Proof.Machine.execPkgResetDeassert s
  | .lightRestored part port => Sys2Proof.Machine.execLightRestored part port s
  | .alignmentLost part port => Sys2Proof.Machine.execAlignmentLost part port s
  | .lmcMessageSend part port => Sys2Proof.Machine.execLmcMessageSend part port s
  | .rekeySwitchRetry part port => Sys2Proof.Machine.execRekeySwitchRetry part port s
  | .hbmTrained sp => Sys2Proof.Machine.execHbmTrained sp s
  | .epThermtrip => Sys2Proof.Machine.execEpThermtrip s

end Sys2Proof.Machine
end

