-- ==== Sys2Proof/WellFormed.lean ====
section
/-! DEFINITION. Which commands are well formed: every field of a message fits the width that the manual gives it, and a
port of the Plocen is one of its eight. A command that is not well formed spells nothing that could arrive. -/

namespace Sys2Proof

/-- `v` fits `n` bits. -/
def fits (n v : Nat) : Bool := decide (v < 2 ^ n)

/-- A port number of a part (R4, R8). -/
def Part.hasPort (p : Part) (port : Nat) : Bool :=
  match p with
  | .ronpex => decide (port < 192)
  | .plocen => decide (port < 8)

/-- The fields of a container's header fit their widths (R149, R150), and its payload is at most 768 bytes. -/
def Container.wf (c : Container) : Bool :=
  fits 3 c.kind && fits 15 c.dest && fits 15 c.src && fits 6 c.skein && fits 8 c.epoch && fits 12 c.stream
    && fits 32 c.seq && fits 16 c.hank && fits 16 c.age && fits 4 c.hops && fits 4 c.defl && fits 6 c.opc
    && fits 10 c.len && fits 49 c.offset && fits 12 c.ttag && fits 7 c.win && fits 4 c.nmsg
    && fits 32 c.crc && decide (c.payload.length ≤ 768)

/-- The fields of a warp cell fit their widths (R197). -/
def WarpCell.wf (c : WarpCell) : Bool :=
  fits 2 c.ctrl && fits 15 c.node && fits 6 c.skein && fits 8 c.epoch && fits 8 c.phase && fits 3 c.draft
    && fits 16 c.inst && fits 16 c.round && fits 16 c.cell && fits 8 c.slice && fits 2 c.status && fits 14 c.count
    && fits 72 c.opdata && fits 32 c.crc && decide (c.payload.length ≤ 768)

/-- The fields of an attach transaction fit their widths (R77). -/
def Txn.wf (t : Txn) : Bool :=
  fits 8 t.opc && fits 12 t.tag && fits 10 t.rid && decide (1 ≤ t.len) && decide (t.len ≤ 256) && fits 4 t.status
    && fits 52 t.addr && fits 24 t.aux && decide (t.data.length ≤ 256)

/-- The fields of a flit fit their widths (R69). -/
def Flit.wf (f : Flit) : Bool :=
  fits 4 f.kind && fits 12 f.seq && fits 12 f.ack && decide (f.body.length = 15) && fits 16 f.reqCrd && fits 16 f.cplCrd
    && fits 32 f.crc

/-- The running fields and the CRC of a control flit fit their widths (R69). -/
def FlitHead.wf (h : FlitHead) : Bool := fits 12 h.seq && fits 12 h.ack && fits 16 h.reqCrd && fits 16 h.cplCrd && fits 32 h.crc

/-- The parameters of an INIT fit their fields (R72, R74). -/
def InitParams.wf (p : InitParams) : Bool := fits 8 p.version && fits 16 p.p2aReq && fits 16 p.p2aCpl && decide (p.rids ≤ 1024)

/-- The fields of a switch order fit their widths (R393). -/
def SwitchOrder.wf (o : SwitchOrder) : Bool :=
  fits 2 o.kind && fits 3 o.cls && fits 3 o.plane && fits 4 o.unitType && fits 16 o.unit && fits 16 o.gen
    && fits 32 o.faultFrame && fits 32 o.effective && decide (o.pairs.length ≤ 16)

/-- The fields of a report fit their widths (R357). -/
def Report.wf (r : Report) : Bool :=
  fits 8 r.type && fits 3 r.plane && fits 15 r.target && fits 16 r.epoch && fits 16 r.suppressed && fits 64 r.time

/-- A command is one that a ring entry of 64 bytes holds (R387). -/
def Command.wf (c : Command) : Bool :=
  Machine.commandOf (Machine.commandBytes c) == { c with fetchOk := true }

/-- A register access that the interfaces carry (R84, R385): 4 or 8 bytes, naturally aligned. Other widths may still be
written by `registerWrite`, which refuses them. -/
def Writer.wf (w : Writer) : Bool := decide (w.origin ≤ 8) && fits 16 w.requester

/-- A tray-chain frame (R395). -/
def TrayFrame.wf (f : TrayFrame) : Bool :=
  decide (f.ftype ≤ 4) && decide (f.hops ≤ 7) && decide (f.src ≤ 3) && (decide (f.dst ≤ 3) || decide (f.dst = 255))
    && fits 16 f.fseq && decide (f.body.length ≤ 768) && fits 32 f.crc

/-- A codeword has 136 symbols of 10 bits (R272). -/
def RxWord.wf (w : RxWord) : Bool := decide (w.symbols.length = 136) && w.symbols.all fun x => decide (x < 1024)

/-- A codeword group starts at a slot (R272). -/
def RxGroup.wf (g : RxGroup) : Bool := decide (g.start % 4 = 0) && g.words.all RxWord.wf

/-- A test pattern is bits of one of the ten wavelengths (R282). -/
def RxPattern.wf (x : RxPattern) : Bool := decide (x.wave < 10) && x.bits.all fun b => decide (b < 2)

/-- The fields of a reply frame fit their widths (R294). -/
def LasReply.wf (r : LasReply) : Bool := fits 8 r.op && fits 8 r.addr && fits 8 r.seq && fits 8 r.crc

/-- Which commands are well formed. -/
def Instr.wf : Instr → Bool
  | .registerWrite _ addr _ _ w => fits 32 addr && w.wf
  | .frameBoundary activity sensors => decide (activity.length = 6) && decide (sensors.length = 32)
  | .init f => f.head.wf && f.params.wf
  | .dataFlit f => f.wf
  | .initAck h => h.wf
  | .nak f => f.head.wf
  | .directLoad t | .directStore t | .epHnkFenceRead t | .cpl t | .cpld t => t.wf
  | .accTimeout tag => fits 12 tag
  | .timeout rid tag => fits 10 rid && fits 12 tag
  | .containerIngress _ c | .requestArrival _ c | .orderedArrival _ c | .replyArrival _ c | .reflectedArrival _ c
  | .memoryAgentRequest _ c _ _ => c.wf
  | .warpCellIngress _ c | .warpCellLanding _ c => c.wf
  | .switchOrder _ _ o => o.wf
  | .report _ r => r.wf
  | .trayFrame _ f | .token _ f => f.wf
  | .nop c | .draftLoad c _ _ | .skein c | .fence c | .return c | .reset c | .epoch c | .snapshot c | .send c _ _
  | .tenant c | .fwWrite c _ _ | .fwVerify c | .fwActivate c | .fwErase c => c.wf
  | .weftLpiEnter p port | .ident p port _ _ | .pwrA p port _ _ | .pwrB p port _ _ | .tune p port _ _ _
  | .swapReq p port _ _ _ _ | .swapAck p port _ _ _ _ | .state p port _ _ | .stress p port _ _
  | .sync p port _ _ _ _ _ _ | .rxstamp p port _ _ _ | .cert p port _ _ _ | .eph p port _ _ _ | .sig p port _ _ _
  | .switch p port _ _ _ | .switchAck p port _ _ _ | .frametag p port _ _ _ | .abort p port _ _
  | .keySwitchApply p port | .rekeyStart p port | .rekeyTimeout p port | .lightLost p port
  | .locHoldoverExpire p port | .clockStopDetect p port | .trainingStepDone p port _ _ _ | .trainingStepTimeout p port
  | .downRetry p port | .laneFailed p port _ | .powerReading p port _
  | .lowPowerLaneFail p port _ | .swapApply p port | .revalidationStart p port _ _ | .revalidationCheckDone p port _
  | .portMode p port _ _ | .counterClr p port _ _ | .lightRestored p port | .alignmentLost p port
  | .lmcMessageSend p port | .rekeySwitchRetry p port => p.hasPort port
  | .uncorrectableDown p port groups patterns => p.hasPort port && groups.all RxGroup.wf && patterns.all RxPattern.wf
  | .lasReply _ r => r.wf
  | .slotBoundary | .eddyWaitExpire _ | .moduleTrained _ _ | .parameterExchange _ _ | .initResend
  | .replayLimitRetrain | .retrainTimeout | .sqDb _ _ | .cqDb _ _ | .arm _ _ | .intrModerationTimeout _ | .put _
  | .putAck _ | .get _ | .atomic _ | .gather _ | .scatter _ | .warpJoin _ | .hankWait _ | .hankSet _ | .fmemPage _
  | .scheduleBurst _ | .gateMet _ _ | .waitTimeout _ _ | .packHoldExpire _ _ | .shuttleInternalError _
  | .ringEnable _ _ _ | .ringDisable _ _ _ | .ringDrainDone _ | .fillDb _ | .missDb _ | .xltArm _ | .fillNop | .fillOut
  | .fillIn | .fillFault | .invTag | .invRange | .microCacheAck _ | .drained _ | .removeIn | .inRemoved
  | .missTmoExpire _ | .xltEnable _ _ | .xltDisable _ _ | .inject _ | .backoffResend _ _ | .retryTimeout _ _
  | .lifeExpire _ _ | .receiveRecordExpire _ _ | .contextIdleExpire _ _ _ | .replyCacheExpire _ | .replyHoldExpire _
  | .sealedReplyRelease | .regionGrant _ _ _ | .zeroingDone | .relayEnable _ _ _ | .drfGo _ _ | .drfStop _ _
  | .wctlGo _ _ | .wctlStop _ _ | .commit _ _ | .draftActivation _ | .spindleEmit _ | .switchOrderApply _
  | .spindleInternalError _ | .spdFence _ _ _ | .biasEval _ _ | .feedTrip _ _ | .feedRevert _ _ | .feedRevertCmd _ _ _
  | .feedForce _ _ _ | .emitterFail _ _ _ | .lasAccessGo _ _ _ | .lasReplyTimeout _
  | .epEmitterFail _ _ | .claim _ _ | .activate _ _ | .quiesce _ _ | .release _ _ | .skeinCommandEffect
  | .confScrubDone | .portAssign _ _ _ | .assign _ _ _ _ _ _ _ | .assignAck _ _ _ _ _ _ _ | .tenantRecordRelease
  | .getVersion _ _ | .getCapabilities _ _ | .negotiateAlgorithms _ _ | .getDigests _ _ | .getCertificate _ _ _
  | .challenge _ _ _ | .getMeasurements _ _ _ _ | .keyExchange _ _ | .finish _ _ _ | .keyUpdate _ _ _
  | .heartbeat _ _ _ | .endSession _ _ _ | .install _ _ _ _ _ _ _ | .destroy _ _ _ _ _ _ | .layer1RestartDone _
  | .fwStartFailure _ | .unitInternalError _ | .prtFence _ _ _ | .prtReturn _ _ _ | .uctlFence _ _ _ | .uctlReturn _ _ _
  | .quarantineStepDone _ _ | .portRelease _ _ _ _ | .pathLoss _ _ _ _ | .unreachableExpire _ _ | .epochOrder _ _ _ _
  | .epochApply _ | .reportWindowExpire _ _ | .snapshotOrder _ _ _ _ _ | .snapshotCapture _ | .regionResetDone _
  | .pkgReset | .hubReset _ _ | .thermtrip | .epReset | .pciePerst | .pwralertAssert | .pwralertDeassert
  | .alertClearTimeout | .thermalFenceTimer _ | .thermalStepClear | .regionCoolReturn _ | .sleep _ _ | .wake _ _
  | .wakeToken _ | .corePg _ | .powerGoodTimeout _ | .supplyMonitorTrip _ _ | .parentLoss _ | .holdoverLimit _
  | .timeSet _ _ | .cmdDb _ _ | .evtDb _ _ | .logDb _ _ | .logStream | .logCopy _ _ | .tokenRegen _
  | .trayChainLink _ _ | .pstWritePersist | .hoursTick | .pkgResetDeassert | .hbmTrained _ | .epThermtrip => true

end Sys2Proof
end

