-- ==== Sys2Proof/Safety.lean ====
section
/-! DEFINITION. What counts as a safe state, in the terms that statements use: the sparse stores are in canonical form,
the waiting commands are well formed, and software's writes wait only for words that it may write. -/

namespace Sys2Proof.Machine

open Sys2Proof

/-- Fabric-resident memory is in canonical form: an unlisted byte reads 0 (log 2). -/
def State.memWf (s : State) : Bool := SMap.wf (fun _ => (0 : Byte)) s.hbm

/-- Every command that waits is well formed. -/
def State.queueWf (s : State) : Bool := s.pending.all Instr.wf

/-- Every write in the queue of the persistent store is to a word that software may write (R398, R410). -/
def State.pstQueueWf (s : State) : Bool := s.rp.pst.queue.all fun e => (rpRow e.1).any fun r => r.1.rwp != 0

end Sys2Proof.Machine
end

