-- ==== Sys2Proof/Certificates/Slice0/Obligations.lean ====
section
/-! DEFINITION. The statements for the provers: one `Obligations.<Name> : Prop` each. Every statement about a command has as
its conclusion the next state that `exec` answers, what that state holds, and what the command leaves as it was. -/

open Sys2Proof Sys2Proof.Machine

/-! ### What statements say about two states -/

/-- Only the attach link of the Plocen, and what has been sent outside, may differ. -/
def Sys2Proof.Claims.onlyAttach (s t : State) : Prop :=
  t = { s with out := t.out, ep := { s.ep with att := t.ep.att } }

/-- Only the attach link, the rings and the registers of the Plocen, and what has been sent outside, may differ. -/
def Sys2Proof.Claims.onlyAttachRegs (s t : State) : Prop :=
  t = { s with out := t.out, ep := { s.ep with att := t.ep.att, regs := t.ep.regs } }

/-- Only ring `n`, the attach link and what has been sent outside may differ: the hank counters, every register, every other ring,
the Ronpex and every byte of memory are as before. -/
def Sys2Proof.Claims.onlyRing (n : Nat) (s t : State) : Prop :=
  t = { s with out := t.out, ep := { s.ep with att := t.ep.att, rings := t.ep.rings } } ∧ ∀ m, m ≠ n → t.ring m = s.ring m

/-- Every byte of fabric-resident memory reads as before. -/
def Sys2Proof.Claims.sameMem (s t : State) : Prop := ∀ a, t.hbmByte a = s.hbmByte a

/-- The Ronpex, fabric-resident memory, fabric time and the waiting commands are as before: only the Plocen, what has been sent
outside and the count of free values may differ. -/
def Sys2Proof.Claims.onlyPlocen (s t : State) : Prop :=
  t.rp = s.rp ∧ t.hbm = s.hbm ∧ t.now = s.now ∧ t.pending = s.pending

/-- The Plocen, fabric-resident memory, fabric time and the waiting commands are as before: only the Ronpex, what has been sent
outside and the count of free values may differ. -/
def Sys2Proof.Claims.onlyRonpex (s t : State) : Prop :=
  t.ep = s.ep ∧ t.hbm = s.hbm ∧ t.now = s.now ∧ t.pending = s.pending

/-- A load of the accelerator has its completion with a status: sent, or waiting to go out. -/
def Sys2Proof.Claims.answered (t : State) (rid tag status : Nat) : Prop :=
  ∃ x : Txn, x.opc = 0x21 ∧ x.rid = rid ∧ x.tag = tag ∧ x.status = status ∧ (Out.attach x ∈ t.out ∨ x ∈ t.ep.att.cplQueue)

/-- Every register of a part but those listed is as before. -/
def Sys2Proof.Claims.regsBut (s t : State) (p : Part) (l : List Nat) : Prop := ∀ a, a ∉ l → t.reg p a = s.reg p a

/-- Only one part, what has been sent outside and the count of free values may differ. -/
def Sys2Proof.Claims.onlyPart (p : Part) (s t : State) : Prop :=
  match p with
  | .ronpex => onlyRonpex s t
  | .plocen => onlyPlocen s t

/-- Only the link of one port and registers of its part may differ. -/
def Sys2Proof.Claims.onlyLink (p : Part) (port : Nat) (s t : State) : Prop :=
  (∀ q, q ≠ port → t.link p q = s.link p q) ∧
    match p with
    | .ronpex => t = { s with rp := { s.rp with links := t.rp.links, regs := t.rp.regs } }
    | .plocen => t = { s with ep := { s.ep with links := t.ep.links, regs := t.ep.regs } }

/-- Every other port of the part keeps its state and its link. -/
def Sys2Proof.Claims.otherPorts (p : Part) (port : Nat) (s t : State) : Prop :=
  ∀ q, q < partPorts p → q ≠ port → t.portState p q = s.portState p q ∧ t.link p q = s.link p q

/-- A port has gone DOWN with a CAUSE (R278): it holds no key, the port unit of a Ronpex that was in service is fenced with CAUSE 2,
and the other ports and the other part are as before. -/
def Sys2Proof.Claims.wentDown (p : Part) (port cause : Nat) (s t : State) : Prop :=
  t.portState p port = 5 ∧ t.fld p (psBase p port + 4) 8 8 = cause
    ∧ t.fld p (psBase p port + 0x7C) 16 16 = satAdd 16 (s.fld p (psBase p port + 0x7C) 16 16) 1
    ∧ (t.link p port).keys.tx = none ∧ (t.link p port).keys.rx = none ∧ (t.link p port).downAt = some s.now
    ∧ (p = .ronpex → s.fld .ronpex (portBase port) 0 2 = 0 → t.reg .ronpex (portBase port) = 0x201)
    ∧ otherPorts p port s t ∧ onlyPart p s t

/-- The DRR deficit of a ring is kept, or zero because the ring is not ready (R120); all else of the ring is as before. -/
def Sys2Proof.Claims.ringKept (s t : State) (m : Nat) : Prop :=
  t.ring m = { s.ring m with deficit := (t.ring m).deficit } ∧ ((t.ring m).deficit = (s.ring m).deficit ∨ (t.ring m).deficit = 0)

/-- The key agreement of a port has failed (R330): an ABORT with its reason is the next message of the management channel, and the port
stays up until it has gone out; the other ports and the other part are as before. -/
def Sys2Proof.Claims.aborts (p : Part) (port reason : Nat) (s t : State) : Prop :=
  (t.link p port).lmcQ = .key 7 0 (leBytes 8 reason) :: (s.link p port).lmcQ ∧ (t.link p port).keys.failed.isSome = true
    ∧ t.portState p port = s.portState p port ∧ otherPorts p port s t ∧ onlyPart p s t

/-- A register write that reaches the Ronpex: its supply monitor has not tripped, and it does not come over I3C (R384, R398). -/
def Sys2Proof.Claims.rpTakes (s : State) (w : Writer) : Prop := s.rp.power.supplyLost = false ∧ w.origin ≠ 1

open Sys2Proof.Claims

/-! ### The attach link (R66-R92) -/

/-- A flit with a good CRC, of which `P` holds, goes out between `s` and `t`. -/
def Sys2Proof.Claims.sendsFlit (s t : State) (P : Flit → Prop) : Prop :=
  ∃ (l m : List Out) (f : Flit), t.out = l ++ .flit f :: (m ++ s.out) ∧ flitGood f = true ∧ P f

/-- A control flit goes out between `s` and `t` (R72). -/
def Sys2Proof.Claims.sendsControl (s t : State) (subtype : Nat) (params : List Byte) : Prop :=
  sendsFlit s t fun f => ∃ h, f = controlFlit h subtype params

/-- Bring-up: MODULE_TRAINED, PARAMETER_EXCHANGE, INIT, INIT_ACK and INIT_RESEND (R66, R68, R72, R92). The link is active once both the
INIT and the INIT_ACK of the other end have come (log 121). -/
def Obligations.AttachBringUp : Prop :=
  ∀ s : State, s.ep.att.down = false →
    (∀ (m : Fin 8) (rate : Nat), s.ep.att.exchanged = false → s.ep.att.retrainAt = none →
      (rate = 32 ∨ rate = 24 ∨ rate = 16 →
        ∃ t, exec (.moduleTrained m rate) s = .next t ∧ ((m : Nat), rate) ∈ t.ep.att.trained ∧ onlyAttach s t) ∧
      (rate ≠ 32 → rate ≠ 24 → rate ≠ 16 → exec (.moduleTrained m rate) s = .next s)) ∧
    (∀ fit4 : Bool, s.ep.att.exchanged = false →
      ((fit4 = false ∧ s.ep.att.trainedTo 8 = true) →
        ∃ t, exec (.parameterExchange 1 fit4) s = .next t ∧ t.ep.att.exchanged = true ∧ t.ep.att.modules = 8 ∧ t.ep.att.initAt = s.now
          ∧ sendsControl s t ctlInit (initBytes (ownInit 8)) ∧ onlyAttach s t) ∧
      ((s.ep.att.trainedTo 4 = true ∧
          (fit4 = true ∨ (s.ep.att.trainedTo 8 = false ∧ s.flag .plocen Reg.epAttCtl 0 = true))) →
        (∀ p, 4 ≤ p → p < 8 → s.portState .plocen p = 0) →
        ∃ t, exec (.parameterExchange 1 fit4) s = .next t ∧ t.ep.att.exchanged = true ∧ t.ep.att.modules = 4 ∧ t.ep.att.initAt = s.now
          ∧ sendsControl s t ctlInit (initBytes (ownInit 4)) ∧ onlyAttach s t)) ∧
    (∀ (p : InitParams) (h : FlitHead), s.flitsRun = true → flitGood (controlFlit h ctlInit (initBytes p)) = true →
      ∃ t, exec (.init ⟨p, h⟩) s = .next t ∧ sendsControl s t ctlInitAck [] ∧ onlyAttach s t ∧ t.ep.att.initSeen = true
        ∧ (s.ep.att.initSeen = false →
            t.ep.att.p2aLimit = p.p2aReq ∧ t.ep.att.rids = p.rids ∧ t.ep.att.active = s.ep.att.ackSeen)) ∧
    (∀ h : FlitHead, s.flitsRun = true → flitGood (controlFlit h ctlInitAck []) = true →
      ∃ t, exec (.initAck h) s = .next t ∧ t.ep.att.ackSeen = true ∧ t.ep.att.active = s.ep.att.initSeen ∧ onlyAttach s t) ∧
    (s.ep.att.exchanged = true → s.ep.att.initSeen = false → s.ep.att.initAt + 1000 ≤ s.now →
      ∃ t, exec .initResend s = .next t ∧ t.ep.att.initAt = s.now
        ∧ sendsControl s t ctlInit (initBytes (ownInit s.ep.att.modules)) ∧ onlyAttach s t)

/-- Flits and replay: DATA_FLIT, NAK, REPLAY_LIMIT_RETRAIN, RETRAIN_TIMEOUT, and MODULE_TRAINED in a retrain (R70-R72, R90). -/
def Obligations.AttachFlits : Prop :=
  ∀ s : State,
    (∀ f : Flit, s.attRx = true → s.flitsRun = true → flitGood f = false →
      ∃ t h, exec (.dataFlit f) s = .next t ∧ t.out.head? = some (.flit (controlFlit h ctlNak (leBytes 2 s.ep.att.rxSeq)))
        ∧ t.ep.att.rxSeq = s.ep.att.rxSeq ∧ t.flag .plocen Reg.epAttErr errCrc = true
        ∧ t.fld .plocen Reg.epAttErrcnt 0 16 = satAdd 16 (s.fld .plocen Reg.epAttErrcnt 0 16) 1 ∧ onlyAttachRegs s t) ∧
    (∀ f : Flit, s.attRx = true → flitGood f = true → f.kind = 1 → f.seq ≠ s.ep.att.rxSeq →
      ∃ t h, exec (.dataFlit f) s = .next t ∧ t.out.head? = some (.flit (controlFlit h ctlNak (leBytes 2 s.ep.att.rxSeq)))
        ∧ t.ep.att.rxSeq = s.ep.att.rxSeq ∧ t.ep.att.rxChunks = s.ep.att.rxChunks ∧ onlyAttach s t) ∧
    (∀ f : Flit, s.attRx = true → flitGood f = true → f.kind = 1 → f.seq = s.ep.att.rxSeq →
      ∃ u : State, exec (.dataFlit f) s = .next (u.takeChunks u.ep.att.rxChunks.length) ∧ u.ep.att.rxSeq = (s.ep.att.rxSeq + 1) % 4096
        ∧ u.ep.att.rxChunks = s.ep.att.rxChunks ++ f.body ∧ u.ep.att.nakSent = 0 ∧ onlyAttach s u) ∧
    (∀ f : Flit, s.attRx = true → flitGood f = true → f.kind = 0 →
      ∃ t, exec (.dataFlit f) s = .next t ∧ heldAfter f.ack s.ep.att.txHeld <+: t.ep.att.txHeld
        ∧ t.ep.att.p2aFreed % 2 ^ 16 = f.reqCrd % 2 ^ 16
        ∧ t.ep.att.rxSeq = s.ep.att.rxSeq ∧ t.ep.att.rxChunks = s.ep.att.rxChunks ∧ onlyAttach s t) ∧
    (∀ (seq : Nat) (h : FlitHead), s.flitsRun = true → flitGood (controlFlit h ctlNak (leBytes 2 seq)) = true →
      ∃ t, exec (.nak ⟨seq, h⟩) s = .next t ∧ t.ep.att.nakSeq = seq
        ∧ t.ep.att.nakRun = (if s.ep.att.nakSeq = seq then s.ep.att.nakRun + 1 else 1)
        ∧ heldAfter ((seq + 4095) % 4096) (heldAfter h.ack s.ep.att.txHeld) <+: t.ep.att.txHeld
        ∧ (∀ e ∈ heldAfter ((seq + 4095) % 4096) (heldAfter h.ack s.ep.att.txHeld),
            sendsFlit s t fun f => f.kind = 1 ∧ f.seq = e.1 ∧ f.body = e.2)
        ∧ (heldAfter ((seq + 4095) % 4096) (heldAfter h.ack s.ep.att.txHeld) ≠ [] →
            t.fld .plocen Reg.epAttErrcnt 16 16 = satAdd 16 (s.fld .plocen Reg.epAttErrcnt 16 16) 1)
        ∧ onlyAttachRegs s t) ∧
    (s.attRx = true → 8 ≤ s.ep.att.nakRun ∨ 8 ≤ s.ep.att.nakSent →
      ∃ t, exec .replayLimitRetrain s = .next t ∧ t.ep.att.retrainAt = some s.now ∧ t.ep.att.trained = []
        ∧ t.out.head? = some .attachRetrain ∧ t.flag .plocen Reg.epAttErr errReplay = true ∧ onlyAttachRegs s t) ∧
    (∀ since : Nat, s.ep.att.retrainAt = some since → since + 10000000 ≤ s.now →
      exec .retrainTimeout s = .next s.attDown ∧
      ((s.ep.att.tags.all fun e => e.2.void) = true → s.ep.att.queue = [] → s.ep.dest.lineWait = [] →
        s.attDown.ep.att.down = true ∧ s.attDown.ep.att.active = false ∧ s.attDown.flag .plocen Reg.epAttErr errLinkDown = true
          ∧ ((s.ep.att.tags.any fun e => !e.2.dead) = true → s.attDown.flag .plocen Reg.epAttErr errAccError = true)
          ∧ onlyAttachRegs s s.attDown)) ∧
    (∀ m : Fin 8, s.ep.att.down = false → s.ep.att.retrainAt.isSome = true →
      (∀ k < s.ep.att.modules, k = m.val ∨ s.ep.att.trained.any (fun e => e.1 == k && e.2 == 32) = true) →
      ∃ t, exec (.moduleTrained m 32) s = .next t ∧ t.ep.att.retrainAt = none ∧ t.ep.att.nakRun = 0 ∧ t.ep.att.nakSent = 0
        ∧ s.ep.att.txHeld <+: t.ep.att.txHeld
        ∧ (∀ e ∈ s.ep.att.txHeld, sendsFlit s t fun f => f.kind = 1 ∧ f.seq = e.1 ∧ f.body = e.2) ∧ onlyAttach s t)

/-- Loads and stores of the accelerator: DIRECT_LOAD, DIRECT_STORE and EP_HNK_FENCE_READ (R53, R82, R83, R85), with nothing else
waiting in the Plocen's buffers and credit for the transaction (R74, R76). -/
def Obligations.AttachDirect : Prop :=
  ∀ (s : State) (x : Txn), s.attRx = true → s.ep.att.a2pBuf = [] → s.loadsOut < 1024 →
    s.ep.att.a2pUsed + txnChunks 0x12 x.len ≤ 4096 + s.ep.att.a2pFreed → 1 ≤ x.len → x.len ≤ 64 →
    (s.windowFault false x.addr x.len = none →
      ∃ u : State, exec (.directLoad x) s = .next (u.directGo (s.windowAccess false s.ep.nextId x.addr x.len []))
        ∧ u.ep.loads = s.ep.loads ++ [{
                                        id := s.ep.nextId, rid := x.rid, tag := x.tag, addr := x.addr, len := x.len, at_ := s.now,
                                        inMiss := false }]
        ∧ u = { s with ep := { s.ep with att := u.ep.att, loads := u.ep.loads, nextId := s.ep.nextId + 1 } }) ∧
    (s.windowFault true x.addr x.len = none →
      ∃ u : State, exec (.directStore x) s = .next (u.directGo
            (s.windowAccess true s.ep.nextId x.addr x.len (sliceBytes x.data 0 x.len)))
        ∧ u.ep.stores = s.ep.stores ++ [{ id := s.ep.nextId, rid := x.rid }]
        ∧ u = { s with ep := { s.ep with att := u.ep.att, stores := u.ep.stores, nextId := s.ep.nextId + 1 } }) ∧
    (∀ b, s.windowFault false x.addr x.len = some b →
      ∃ t, exec (.directLoad x) s = .next t ∧ t.flag .plocen Reg.epAttErr b = true ∧ answered t x.rid x.tag 1 ∧ onlyAttachRegs s t) ∧
    (∀ b, s.windowFault true x.addr x.len = some b →
      ∃ t, exec (.directStore x) s = .next t ∧ t.flag .plocen Reg.epAttErr b = true ∧ t.ep.stores = s.ep.stores
        ∧ onlyAttachRegs s t) ∧
    (x.len = 4 ∨ x.len = 8 → (s.ep.stores.all fun y => y.rid != x.rid) = true →
      ∃ t, exec (.epHnkFenceRead x) s = .next t ∧ answered t x.rid x.tag 0 ∧ onlyPlocen s t) ∧
    (x.len = 4 ∨ x.len = 8 → (s.ep.stores.any fun y => y.rid == x.rid) = true →
      ∃ t, exec (.epHnkFenceRead x) s = .next t
        ∧ { rid := x.rid, tag := x.tag, addr := Reg.epHnkFence, len := x.len, at_ := s.now
            waits := (s.ep.stores.filter fun y => y.rid == x.rid).map fun y : Store => y.id } ∈ t.ep.fences ∧ onlyPlocen s t)

/-- Completions of the accelerator and their limits: CPL, CPLD, ACC_TIMEOUT and TIMEOUT (R79, R81, R86, R89). `accessDone` is what
the end of an access does to what it served, where that has not been given up; and a ring that is then not ready loses its deficit
(R120). -/
def Obligations.AttachCompletions : Prop :=
  ∀ s : State,
    (∀ (x : Txn) (y : AttTag), s.attRx = true → s.tagOf x.tag = some y → x.len ≤ 256 → y.dead = false →
      (y.isRead = false →
        ∃ u : State, exec (.cpl x) s = .next (((u.accessOver y [] (decide (x.status = 0))).attPump).a2pGo).unready
          ∧ (x.status = 0 → u = { s with ep := { s.ep with att := { s.ep.att with
                tags := SMap.drop s.ep.att.tags x.tag, cplFreed := s.ep.att.cplFreed + 1 } } })
          ∧ (x.status ≠ 0 → u.flag .plocen Reg.epAttErr errAccError = true ∧ onlyAttachRegs s u)) ∧
      (y.isRead = true → y.len ≤ y.got + x.len → x.status = 0 →
        ∃ u : State, exec (.cpld x) s = .next (((u.accessOver y
              ((spliceBytes y.data (bits 0 9 x.aux) (sliceBytes x.data 0 x.len)).take y.len) true).attPump).a2pGo).unready
          ∧ u = { s with ep := { s.ep with att := { s.ep.att with
                tags := SMap.drop s.ep.att.tags x.tag, cplFreed := s.ep.att.cplFreed + txnChunks 0x21 x.len } } }) ∧
      (y.isRead = true → y.got + x.len < y.len → x.status = 0 →
        ∃ u : State, exec (.cpld x) s = .next (u.a2pGo).unready
          ∧ u.tagOf x.tag = some { y with got := y.got + x.len
                                          data := spliceBytes y.data (bits 0 9 x.aux) (sliceBytes x.data 0 x.len) }
          ∧ onlyAttach s u)) ∧
    (∀ (tag : Nat) (y : AttTag), s.tagOf tag = some y → y.dead = false →
      y.sentAt + 1000 * max 1 (s.fld .plocen Reg.epAttTmo 0 16) ≤ s.now →
      (∃ u : State, exec (.accTimeout tag) s = .next (u.accessOver y [] false).unready
        ∧ u.flag .plocen Reg.epAttErr errAccTimeout = true ∧ onlyAttachRegs s u) ∧
      (∀ r first n, y.use = .ringFetch r first n → y.void = false →
        ∃ t, exec (.accTimeout tag) s = .next t ∧ (t.ring r).err = true ∧ (t.ring r).fetchStop = true
          ∧ (t.ring r).errCode = (if (s.ring r).err then (s.ring r).errCode else 3))) ∧
    (∀ (rid tag : Nat) (l : Load), s.ep.att.active = true → s.ep.att.down = false → s.ep.att.a2pBuf = [] →
      (s.ep.loads.find? fun l => l.rid == rid && l.tag == tag
        && decide (l.at_ + 1000 * max 1 (s.fld .plocen Reg.epAttTmo 16 16) ≤ s.now)) = some l →
      (s.ep.loads.find? fun x => x.id == l.id) = some l →
      ∃ t, exec (.timeout rid tag) s = .next t ∧ answered t rid tag 4
        ∧ t.ep.loads = s.ep.loads.filter (fun x => x.id != l.id) ∧ onlyPlocen s t) ∧
    (∀ (x : Txn) (at_ : Nat), s.ep.att.active = true → s.ep.att.down = false → s.ep.att.a2pBuf = [(x, at_)] → x.opc = 0x11 →
      at_ + 1000 * max 1 (s.fld .plocen Reg.epAttTmo 16 16) ≤ s.now →
      ∃ t, exec (.timeout x.rid x.tag) s = .next t ∧ answered t x.rid x.tag 4 ∧ t.ep.att.a2pBuf = [] ∧ onlyAttach s t)

/-! ### Rings, descriptors and shuttles (R94-R128) -/

/-- The descriptor at the front of ring `n` starts by command `c`: it is one of the started descriptors, nothing of it has failed,
and only the Plocen changes; no hank counter and no register does. -/
def Sys2Proof.Claims.starts (c : Instr) (s : State) (n sub raw : Nat) : Prop :=
  ∃ t, exec c s = .next t ∧ (∃ a ∈ t.ep.acts, a.ring = n ∧ a.sub = sub ∧ a.raw = raw ∧ a.code = 0 ∧ a.sent = false)
    ∧ t.ep.hanks = s.ep.hanks ∧ t.ep.regs = s.ep.regs ∧ t.ep.src = s.ep.src ∧ onlyPlocen s t

/-- A descriptor that passes its checks and whose gate is open starts: PUT, PUT_ACK, GET, ATOMIC, GATHER, SCATTER, HANK_SET and
FMEM_PAGE (R104, R113, R118); nothing has been sent by then.
What does not start: a descriptor with a fault completes at once with BAD_DESC and the lowest offset, a misaligned atomic with
ALIGN_ERROR, and one whose gate is closed is parked, however many have started (R105, R59, R113); a DECRYPT whose fault lies above its
list entries starts, so that they are read before INFO is known (R338, log 134). The descriptor is the only one fetched. -/
def Obligations.Descriptors : Prop :=
  (∀ (s : State) (n : Fin 1024) (sub raw : Nat), s.front n = some (sub, raw) → s.canStart n (descOf raw) = true →
     s.badDesc (descOf raw) = none → (descOf raw).misaligned = false → s.descWaits (descOf raw) = false →
     ((descOf raw).opc = 1 → starts (.put n) s n sub raw) ∧ ((descOf raw).opc = 2 → starts (.putAck n) s n sub raw) ∧
     ((descOf raw).opc = 3 → starts (.get n) s n sub raw) ∧ ((descOf raw).opc = 4 → starts (.atomic n) s n sub raw) ∧
     ((descOf raw).opc = 5 → starts (.gather n) s n sub raw) ∧ ((descOf raw).opc = 6 → starts (.scatter n) s n sub raw) ∧
     ((descOf raw).opc = 9 → starts (.hankSet n) s n sub raw) ∧ ((descOf raw).opc = 10 → starts (.fmemPage n) s n sub raw)) ∧
  (∀ (s : State) (n : Fin 1024) (sub raw : Nat) (c : Instr), (s.ring n).fetched = [(sub, raw)] → s.ringRuns n = true →
     c ∈ [(Instr.put n, 1), (.putAck n, 2), (.get n, 3), (.atomic n, 4), (.gather n, 5), (.scatter n, 6), (.warpJoin n, 7),
          (.hankWait n, 8), (.hankSet n, 9), (.fmemPage n, 10)].filterMap (fun x => if x.2 = (descOf raw).opc then some x.1 else none) →
     (∀ o, s.canStart n (descOf raw) = true → s.badDesc (descOf raw) = some o → listDecides (descOf raw) o = false →
       ∃ u : State, exec c s = .next (u.postCompletion n sub 7 o (descOf raw).cookie).unready
         ∧ u.ring n = { s.ring n with fetched := [] } ∧ onlyRing n s u) ∧
     (∀ o, s.canStart n (descOf raw) = true → s.badDesc (descOf raw) = some o → listDecides (descOf raw) o = true →
       ∃ t, exec c s = .next t
         ∧ (∃ a ∈ t.ep.acts, a.ring = n ∧ a.sub = sub ∧ a.raw = raw ∧ a.code = 0 ∧ a.sent = false ∧ a.bad = some o)
         ∧ t.ep.hanks = s.ep.hanks ∧ t.ep.regs = s.ep.regs ∧ t.ep.src = s.ep.src ∧ onlyPlocen s t) ∧
     (s.canStart n (descOf raw) = true → s.badDesc (descOf raw) = none → s.descWaits (descOf raw) = false →
       (descOf raw).misaligned = true →
       ∃ u : State, exec c s = .next (u.postCompletion n sub 2 0 (descOf raw).cookie).unready
         ∧ u.ring n = { s.ring n with fetched := [] } ∧ onlyRing n s u) ∧
     (s.badDesc (descOf raw) = none → s.descWaits (descOf raw) = true → s.ep.gates.length < 8192 →
       ∃ t, exec c s = .next t ∧ t.ep.gates = s.ep.gates ++ [{ ring := n, sub := sub, raw := raw, since := s.now }]
         ∧ t.ep.acts = s.ep.acts ∧ t.ring n = { s.ring n with fetched := [], deficit := (t.ring n).deficit } ∧ onlyPlocen s t))

/-- Doorbells: SQ_DB, CQ_DB, ARM and INTR_MODERATION_TIMEOUT on an enabled ring (R96, R100, R102).
A completion entry: CQ_TAIL advances, and the 16 bytes of R116 go with one MWR to the entry of that count (R95, R98, R99). -/
def Obligations.DoorbellsAndCompletions : Prop :=
  (∀ (s : State) (n : Fin 1024), s.attOn = true → s.ringOn n = true →
     (∀ v : Word, subMod 32 v.toNat (s.ring n).cqHead ≤ s.ringSize n → subMod 32 v.toNat (s.ring n).sqTail ≤ s.ringSize n →
       ∃ t, exec (.sqDb n v) s = .next t ∧ t.ring n = { s.ring n with sqTail := v.toNat, issued := (t.ring n).issued } ∧ onlyRing n s t) ∧
     (∀ v : Word, s.ringSize n < subMod 32 v.toNat (s.ring n).cqHead ∨ s.ringSize n < subMod 32 v.toNat (s.ring n).sqTail →
       ∃ t, exec (.sqDb n v) s = .next t
         ∧ t.ring n = { s.ring n with err := true, errCode := (if (s.ring n).err then (s.ring n).errCode else 1), fetchStop := true }
         ∧ onlyRing n s t) ∧
     (∀ v : Word, subMod 32 v.toNat (s.ring n).cqHead ≤ subMod 32 (s.ring n).cqTail (s.ring n).cqHead →
       ∃ t, exec (.cqDb n v) s = .next t ∧ t.ring n = { s.ring n with cqHead := v.toNat } ∧ onlyRing n s t) ∧
     (∀ v : Word, subMod 32 (s.ring n).cqTail (s.ring n).cqHead < subMod 32 v.toNat (s.ring n).cqHead →
       ∃ t, exec (.cqDb n v) s = .next t
         ∧ t.ring n = { s.ring n with err := true, errCode := (if (s.ring n).err then (s.ring n).errCode else 2) }
         ∧ onlyRing n s t) ∧
     (∀ v : Word, bit 0 v.toNat = true → (s.ring n).unannounced = [] →
       ∃ t, exec (.arm n v) s = .next t ∧ t.ring n = { s.ring n with armed := true } ∧ onlyRing n s t) ∧
     (∀ (v : Word) (at_ : Nat), (s.ring n).unannounced.head? = some at_ → s.flag .plocen (Reg.epRngCfg n) 25 = true →
       (max (s.fld .plocen (Reg.epRngImod n) 0 8) 1 ≤ (s.ring n).unannounced.length
         ∨ at_ + 1000 * s.fld .plocen (Reg.epRngImod n) 8 16 ≤ s.now) →
       (bit 0 v.toNat = true →
         ∃ u : State, exec (.arm n v) s = .next (u.request [intrReq n]) ∧ u.ring n = { s.ring n with armed := false, unannounced := [] }
           ∧ onlyRing n s u) ∧
       ((s.ring n).armed = true →
         ∃ u : State, exec (.intrModerationTimeout n) s = .next (u.request [intrReq n])
           ∧ u.ring n = { s.ring n with armed := false, unannounced := [] } ∧ onlyRing n s u))) ∧
  (∀ (s : State) (n sub code info cookie : Nat), s.ep.att.down = false →
     ∃ u, s.postCompletion n sub code info cookie = u.request
         [{ kind := 2, use := some (.completion n (s.ring n).cqTail)
            addr := s.epBase (Reg.epRngCqBaseLo n) (Reg.epRngCqBaseHi n) + 16 * ((s.ring n).cqTail % s.ringSize n), len := 16
            data := completionBytes sub code (if (s.ring n).cqTail / s.ringSize n % 2 = 0 then 1 else 0) cookie info s.now, aux := 0 }]
       ∧ u.ring n = { s.ring n with cqTail := ((s.ring n).cqTail + 1) % 2 ^ 32 } ∧ onlyRing n s u)

/-- Counters: HANK_WAIT, GATE_MET, WAIT_TIMEOUT and WARP_JOIN (R48, R109, R111, R113). -/
def Obligations.WaitsAndJoins : Prop :=
  ∀ (s : State) (n : Fin 1024) (sub raw : Nat),
    ((s.ring n).fetched = [(sub, raw)] → s.canStart n (descOf raw) = true → (descOf raw).opc = 8 → s.badDesc (descOf raw) = none →
      hankMet (s.hank (descOf raw).ghank) (descOf raw).gthresh = true →
      ∃ u : State, exec (.hankWait n) s = .next (u.postCompletion n sub 0 0 (descOf raw).cookie).unready
        ∧ u.ring n = { s.ring n with fetched := [] } ∧ onlyRing n s u) ∧
    (∀ g, s.parked? n sub = some g → (descOf g.raw).opc = 8 →
      (hankMet (s.hank (descOf g.raw).ghank) (descOf g.raw).gthresh = true →
        exec (.gateMet n sub) s = .next ((s.unpark n sub).postCompletion n sub 0 0 (descOf g.raw).cookie).unready) ∧
      (hankMet (s.hank (descOf g.raw).ghank) (descOf g.raw).gthresh = false → bits 0 32 (descOf g.raw).opa ≠ 0 →
        g.since + 1000 * bits 0 32 (descOf g.raw).opa ≤ s.now →
        exec (.waitTimeout n sub) s = .next ((s.unpark n sub).postCompletion n sub 8 0 (descOf g.raw).cookie))) ∧
    (∀ g, s.parked? n sub = some g → (descOf g.raw).opc ≠ 8 → (descOf g.raw).opc ≠ 7 →
      s.canStart n (descOf g.raw) = true → s.badDesc (descOf g.raw) = none → (descOf g.raw).misaligned = false → s.descWaits (descOf g.raw) = false →
      starts (.gateMet n sub) s n sub g.raw) ∧
    ((s.ring n).fetched = [(sub, raw)] → s.canStart n (descOf raw) = true → (descOf raw).opc = 7 →
      s.badDesc (descOf raw) = none → s.descWaits (descOf raw) = false →
      bits 0 16 (descOf raw).opa = (s.patOf (s.phOf (bits 0 16 (descOf raw).opa)).pattern).first →
      ∃ t, exec (.warpJoin n) s = .next t
        ∧ t.ep.warp.binds = s.ep.warp.binds ++ [{
              id := s.ep.warp.nextId, ring := n, sub := sub, raw := raw,
              first := bits 0 16 (descOf raw).opa, last := bits 16 16 (descOf raw).opa,
              pattern := (s.phOf (bits 0 16 (descOf raw).opa)).pattern, inst := none, landed := [], shadowed := [], failed := none,
              landing := 0, code := none }]
        ∧ t.ep.acts = s.ep.acts ∧ t.ep.regs = s.ep.regs ∧ t.ep.hanks = s.ep.hanks ∧ onlyPlocen s t)

/-- Hank counters (R48, R50): a counter is a 64-bit unsigned count modulo 2^64, whether it is set or counts bytes, and setting one leaves
every other and the rest of the block as it was; a threshold is met exactly when the counter less the threshold, modulo 2^64 and read
as a signed 64-bit number, is not negative; and a descriptor waits exactly when it is a HANK_WAIT or gated and its own threshold is not
met by its own counter. -/
def Obligations.HankCounters : Prop :=
  (∀ (s : State) (i v : Nat),
    (s.setHank i v).hank i = (BitVec.ofNat 64 v).toNat ∧ (s.countHank i v).hank i = (BitVec.ofNat 64 (s.hank i) + BitVec.ofNat 64 v).toNat
      ∧ (∀ j, j ≠ i → (s.setHank i v).hank j = s.hank j ∧ (s.countHank i v).hank j = s.hank j)
      ∧ (s.setHank i v) = { s with ep := { s.ep with hanks := (s.setHank i v).ep.hanks } }) ∧
  (∀ (s : State) (i v : Nat),
    (s.hcntSet i v).hcnt i = (BitVec.ofNat 64 v).toNat ∧ (∀ j, j ≠ i → (s.hcntSet i v).hcnt j = s.hcnt j)) ∧
  (∀ c t : Nat, hankMet c t = true ↔ 0 ≤ (BitVec.ofNat 64 c - BitVec.ofNat 64 t).toInt) ∧
  (∀ (s : State) (d : Desc), s.descWaits d = true ↔
    (d.gate = true ∨ d.opc = 8) ∧ (BitVec.ofNat 64 (s.hank d.ghank) - BitVec.ofNat 64 d.gthresh).toInt < 0)

/-- What shuttle `k` formed and no port has taken waits to be formed again, and the reads of its source data are given up (R125). -/
def Sys2Proof.Claims.givenBack (k : Nat) (s t : State) : Prop :=
  t.ep.src.held = s.ep.src.held.map (fun h : Held =>
      if (s.ep.src.held.any fun g => g.id == h.id && g.unported k) = true then { h with loc := .again } else h)
    ∧ t.ep.src = { s.ep.src with held := t.ep.src.held }
    ∧ t.ep.att = { s.ep.att with queue := t.ep.att.queue, tags := t.ep.att.tags }

/-- Shuttles and packing: SHUTTLE_INTERNAL_ERROR, PACK_HOLD_EXPIRE and SCHEDULE_BURST (R118-R121, R125, R143).
SHUTTLE_INTERNAL_ERROR: the shuttle is fenced; a burst that it held goes back to its descriptor, its ring gets back what was not formed,
and what it formed and no port has yet waits to be formed again; and an INV_RANGE in progress counts the shuttle as acknowledged.
PACK_HOLD_EXPIRE: nothing of the node and plane is held for packing any longer.
SCHEDULE_BURST: a free shuttle forms again the first container that waits for it; otherwise, where one ring alone is ready, with one
started descriptor whose next container can be formed, that container is formed. -/
def Obligations.ShuttlesAndBursts : Prop :=
  (∀ (s : State) (k : Fin 16), (s.shuttle k).burst = none → s.ep.xlt.inv = none →
     ∃ t, exec (.shuttleInternalError k) s = .next t ∧ t.shuttle k = { s.shuttle k with fenced := true, burst := none, miss := none }
       ∧ (∀ j, j ≠ k.val → t.shuttle j = s.shuttle j) ∧ givenBack k s t
       ∧ t = { s with ep := { s.ep with shuttles := t.ep.shuttles, src := t.ep.src, att := t.ep.att } }) ∧
  (∀ (s : State) (k : Fin 16) (b : Burst), (s.shuttle k).burst = some b → s.ep.xlt.inv = none →
     ∃ t, exec (.shuttleInternalError k) s = .next t ∧ t.shuttle k = { s.shuttle k with fenced := true, burst := none, miss := none }
       ∧ t.ring b.ring = { s.ring b.ring with deficit := min ((s.ring b.ring).deficit + b.left) ((s.ring b.ring).weight * 64) }
       ∧ t.ep.acts = s.ep.acts.map (fun a : Act => if a.ring = b.ring ∧ a.sub = b.sub then { a with todo := b.rng :: a.todo } else a)
       ∧ (∀ j, j ≠ k.val → t.shuttle j = s.shuttle j) ∧ (∀ m, m ≠ b.ring → t.ring m = s.ring m) ∧ givenBack k s t
       ∧ t = { s with ep := { s.ep with
           shuttles := t.ep.shuttles, rings := t.ep.rings, acts := t.ep.acts, src := t.ep.src, att := t.ep.att } }) ∧
  (∀ (s : State) (k : Fin 16) (c w map : Nat), s.ep.xlt.inv = some (c, w, map) → setBit k true map ≠ 0x1FFFF →
     ∃ t, exec (.shuttleInternalError k) s = .next t ∧ (t.shuttle k).fenced = true ∧ (t.shuttle k).burst = none
       ∧ t.ep.xlt = { s.ep.xlt with inv := some (c, w, setBit k true map) }
       ∧ t.micro k = (s.micro k).filter (fun e => !(fillOf w).hits e) ∧ (∀ j, j ≠ k.val → t.shuttle j = s.shuttle j)
       ∧ onlyPlocen s t) ∧
  (∀ (s : State) (node : Nat) (plane : Fin 8),
     (s.ep.src.held.any fun h => h.loc == .packing && h.c.dest == node && h.plane == plane.val
       && decide (h.formedAt + s.fld .plocen Reg.epShtPack 0 16 ≤ s.now)) = true →
     ∃ t, exec (.packHoldExpire node plane) s = .next t
       ∧ t.ep.src.held = s.ep.src.held.map (fun h : Held =>
           if h.loc = .packing ∧ h.c.dest = node ∧ h.plane = plane.val then { h with loc := .waiting } else h)
       ∧ t = { s with ep := { s.ep with src := { s.ep.src with held := t.ep.src.held } } }) ∧
  (∀ (s : State) (k : Fin 16) (g : Held), (s.ep.src.held.find? fun g => g.loc == .again) = some g → (s.shuttle k).fenced = false →
     (s.shuttle k).burst = none → s.flag .plocen Reg.epShtCtl k = true → exec (.scheduleBurst k) s = .next (s.reform k g)) ∧
  (∀ (s : State) (k : Fin 16) (a : Act) (node off ttag b p va : Nat), s.ep.acts = [a] → a.ring < 1024 →
     (s.ep.src.held.find? fun g => g.loc == .again) = none → s.ringReady 0 a.ring = true → (s.shuttle k).fenced = false →
       (s.shuttle k).burst = none → s.flag .plocen Reg.epShtCtl k = true → 1 ≤ (s.ring a.ring).deficit →
     (s.ring a.ring).burst = 1 → (∀ n, n ≠ a.ring → s.ringReady k n = false) → s.ringStarts a.ring = false →
     (s.nextOf k a).1 = .form node off ttag b p va →
     ∃ t u : State, exec (.scheduleBurst k) s = .next t ∧ u = { (s.nextOf k a).2 with ep := { (s.nextOf k a).2.ep with rings := u.ep.rings } }
       ∧ t.ep.src = (u.formDesc k a node off ttag b p va).ep.src ∧ t.ep.acts = (u.formDesc k a node off ttag b p va).ep.acts
       ∧ t.ep.xlt = (u.formDesc k a node off ttag b p va).ep.xlt ∧ t.ep.shuttles = (u.formDesc k a node off ttag b p va).ep.shuttles
       ∧ onlyPlocen s t)

/-- A ring is enabled, disabled and drained: RING_ENABLE, RING_DISABLE and RING_DRAIN_DONE (R95, R126, R127). -/
def Obligations.RingsEnabled : Prop :=
  ∀ (s : State) (n : Fin 1024),
    (∀ (cfg : Word) (wr : Writer), s.attOn = true → s.ringOn n = false → (s.ring n).active = false → bit 24 cfg.toNat = true →
      ∃ t, exec (.ringEnable n cfg wr) s = .next t ∧ (t.ring n).active = true ∧ (t.ring n).armed = true ∧ (t.ring n).err = false
        ∧ (t.ring n).quiesced = false ∧ (t.ring n).sqTail = 0 ∧ (t.ring n).sqHead = 0 ∧ (t.ring n).cqTail = 0 ∧ (t.ring n).cqHead = 0
        ∧ t.reg .plocen (Reg.epRngCfg n) = bits 0 27 cfg.toNat ∧ (∀ m, m ≠ n.val → ringKept s t m) ∧ t.ep.hanks = s.ep.hanks
        ∧ onlyPlocen s t) ∧
    (∀ (cfg : Word) (wr : Writer), s.attOn = true → s.ringOn n = true → (s.ring n).active = true → bit 24 cfg.toNat = false →
      ∃ t, exec (.ringDisable n cfg wr) s = .next t ∧ (t.ring n).active = true ∧ (t.ring n).fetched = [] ∧ (t.ring n).err = false
        ∧ t.ep.gates = s.ep.gates.filter (fun g => g.ring != n.val) ∧ t.ep.acts = s.ep.acts
        ∧ t.reg .plocen (Reg.epRngCfg n) = setBits 24 3 (bits 24 3 cfg.toNat) (s.reg .plocen (Reg.epRngCfg n))
        ∧ (∀ m, m ≠ n.val → ringKept s t m) ∧ t.ep.hanks = s.ep.hanks ∧ onlyPlocen s t) ∧
    ((s.ring n).active = true → s.ringOn n = false → (s.ep.acts.all fun a => a.ring != n.val) = true →
      (s.ep.warp.binds.all fun b => b.ring != n.val) = true →
      ∃ t, exec (.ringDrainDone n) s = .next t
        ∧ t.ring n = { s.ring n with active := false, quiesced := true, sqTail := 0, sqHead := 0, cqTail := 0, cqHead := 0, issued := 0 }
        ∧ onlyRing n s t)

/-! ### Extent translation (R129-R148) -/

/-- Only the translation unit, the attach link and what has been sent outside may differ: the inbound and outbound extents, misses and
rings of translation are all in the unit. -/
def Sys2Proof.Claims.onlyXlt (s t : State) : Prop :=
  t = { s with out := t.out, ep := { s.ep with att := t.ep.att, xlt := t.ep.xlt } }

/-- As `onlyXlt`, and the micro-caches of the shuttles. -/
def Sys2Proof.Claims.onlyXltMicro (s t : State) : Prop :=
  t = { s with out := t.out, ep := { s.ep with att := t.ep.att, xlt := t.ep.xlt, shuttles := t.ep.shuttles } }

/-- The one fill record that waits is `w`, of count `c`, with OP `op`, well formed and in range (R138). -/
def Sys2Proof.Claims.fillReady (s : State) (c w op : Nat) : Prop :=
  s.ep.xlt.fetched = [(c, w)] ∧ s.ep.xlt.inv = none ∧ s.ep.xlt.removal = none ∧ s.ep.xlt.active = true ∧ (fillOf w).op = op
    ∧ (fillOf w).malformed = false ∧ (fillOf w).outOfRange = false

/-- Fills: FILL_NOP, FILL_OUT, FILL_IN and FILL_FAULT (R130, R133, R138, R139). A fill that overlaps an extent, or an inbound one that
finds 2,048, is rejected by name. -/
def Obligations.Fills : Prop :=
  ∀ (s : State) (c w : Nat),
    (fillReady s c w 0 → ∃ t, exec .fillNop s = .next t ∧ t.ep.xlt = { s.ep.xlt with fetched := [] } ∧ onlyXlt s t) ∧
    (fillReady s c w 1 → (s.ep.xlt.outExt.any fun e => e.tag == (fillOf w).tag
      && overlaps e.start e.pages (fillOf w).start (fillOf w).pages) = false →
      ∃ u : State, exec .fillOut s = .next (((u.answeredBy ({
              tag := (fillOf w).tag, start := (fillOf w).start, pages := (fillOf w).pages,
              target := (fillOf w).target, ttag := (fillOf w).ttag, perm := (fillOf w).perm } : OutExt)).foldl (fun t i => t.replayMiss i) u).unready.settleFills)
        ∧ u.ep.xlt.outExt = (s.ep.xlt.outExt ++ [({
              tag := (fillOf w).tag, start := (fillOf w).start, pages := (fillOf w).pages,
              target := (fillOf w).target, ttag := (fillOf w).ttag, perm := (fillOf w).perm } : OutExt)]).drop
                (if 4096 < s.ep.xlt.outExt.length + 1 + s.ep.xlt.inExt.length then 1 else 0)
        ∧ u.ep.xlt = { s.ep.xlt with fetched := [], outExt := u.ep.xlt.outExt } ∧ onlyXlt s u) ∧
    (fillReady s c w 2 → (s.ep.xlt.inExt.any fun e => e.tag == (fillOf w).tag && e.skein == (fillOf w).ttag
          && overlaps e.start e.pages (fillOf w).start (fillOf w).pages) = false → s.ep.xlt.inExt.length < 2048 →
      ∃ t, exec .fillIn s = .next t
        ∧ t.ep.xlt.inExt = s.ep.xlt.inExt ++ [{
              tag := (fillOf w).tag, skein := (fillOf w).ttag, start := (fillOf w).start,
              pages := (fillOf w).pages, attach := (fillOf w).target, perm := (fillOf w).perm }]
        ∧ t.ep.xlt = { s.ep.xlt with fetched := [], inExt := t.ep.xlt.inExt, outExt := t.ep.xlt.outExt }
        ∧ t.ep.xlt.outExt = s.ep.xlt.outExt.drop (if 4096 < s.ep.xlt.outExt.length + 1 + s.ep.xlt.inExt.length then 1 else 0)
        ∧ onlyXlt s t) ∧
    (fillReady s c w 1 → (s.ep.xlt.outExt.any fun e => e.tag == (fillOf w).tag && overlaps e.start e.pages (fillOf w).start (fillOf w).pages) = true →
      ∃ u : State, exec .fillOut s = .next (u.postAnswer 0x12 ((fillOf w).tag % 4096) c 1) ∧ u.ep.xlt = { s.ep.xlt with fetched := [] }
        ∧ onlyXlt s u) ∧
    (∀ m, fillReady s c w 3 → (s.ep.xlt.misses.find? fun m => m.count == some (fillOf w).miss && s.missWaits m) = some m →
      exec .fillFault s = .next ((s.dropFill.endMiss m.id).unready.settleFills)
        ∧ ∀ x ∈ ((s.dropFill.endMiss m.id).unready.settleFills).ep.xlt.misses, x.id ≠ m.id) ∧
    (fillReady s c w 3 → (s.ep.xlt.misses.find? fun m => m.count == some (fillOf w).miss && s.missWaits m) = none →
      ∃ u : State, exec .fillFault s = .next (u.postAnswer 0x12 ((fillOf w).tag % 4096) c 5) ∧ u.ep.xlt = { s.ep.xlt with fetched := [] }
        ∧ onlyXlt s u)

/-- Invalidation: INV_TAG, INV_RANGE, MICRO_CACHE_ACK, DRAINED, REMOVE_IN and IN_REMOVED (R142-R146): afterwards no cached extent that
was named is left, and every other one is. -/
def Obligations.Invalidations : Prop :=
  ∀ (s : State) (c w : Nat),
    (fillReady s c w 4 →
      ∃ t, exec .invTag s = .next t ∧ t.ep.xlt.outExt = s.ep.xlt.outExt.filter (fun e => e.tag != (fillOf w).tag)
        ∧ (∀ m < 17, t.micro m = (s.micro m).filter fun e => e.tag != (fillOf w).tag) ∧ t.ep.xlt.inExt = s.ep.xlt.inExt
        ∧ t.ep.xlt.drains = s.ep.xlt.drains ++ (if (fillOf w).drain then [(c, (fillOf w).tag, s.openOf (fillOf w).tag, true)] else [])
        ∧ onlyXltMicro s t) ∧
    (fillReady s c w 5 →
      ∃ t map, exec .invRange s = .next t ∧ t.ep.xlt.outExt = s.ep.xlt.outExt.filter (fun e => !(fillOf w).hits e)
        ∧ t.ep.xlt.inv = some (c, w, map) ∧ (∀ m < 17, bit m map = true → m < 16 ∧ (s.shuttle m).fenced = true)
        ∧ t.ep.xlt.inExt = s.ep.xlt.inExt ∧ onlyXltMicro s t) ∧
    (∀ (m : Fin 17) (map : Nat), s.ep.xlt.inv = some (c, w, map) →
      ∃ t, exec (.microCacheAck m) s = .next t ∧ t.micro m = (s.micro m).filter (fun e => !(fillOf w).hits e)
        ∧ (setBit m true map ≠ 0x1FFFF → t.ep.xlt.inv = some (c, w, setBit m true map))
        ∧ (setBit m true map = 0x1FFFF → t.ep.xlt.inv = none) ∧ t.ep.xlt.outExt = s.ep.xlt.outExt ∧ onlyXltMicro s t) ∧
    (∀ (tag : Nat) (d : Nat × Nat × List Nat × Bool), (s.ep.xlt.drains.find? fun d => d.2.1 == tag) = some d →
      (d.2.2.1.any fun i => s.ep.src.held.any fun h => h.id == i) = false →
      ∃ u : State, exec (.drained tag) s = .next (u.postAnswer 0x11 tag d.1 0) ∧ u.ep.xlt = { s.ep.xlt with drains := s.ep.xlt.drains.erase d }
        ∧ onlyXlt s u) ∧
    (fillReady s c w 6 →
      ∃ t, exec .removeIn s = .next t
        ∧ t.ep.xlt.inExt = s.ep.xlt.inExt.filter (fun e => !(e.tag == (fillOf w).tag && e.skein == (fillOf w).ttag
              && overlaps e.start e.pages (fillOf w).start (fillOf w).pages))
        ∧ (∃ waits, t.ep.xlt.removal = some { fill := c, tag := (fillOf w).tag, count := (s.ep.xlt.inExt.filter fun e =>
              e.tag == (fillOf w).tag && e.skein == (fillOf w).ttag
                && overlaps e.start e.pages (fillOf w).start (fillOf w).pages).length, waits := waits })
        ∧ t.ep.xlt.outExt = s.ep.xlt.outExt ∧ onlyXlt s t) ∧
    (∀ r : Removal, s.ep.xlt.removal = some r → s.ep.xlt.fetched = [] →
      (r.waits.any fun x => s.pieceOpen x.1 x.2.1 x.2.2) = false →
      ∃ u : State, exec .inRemoved s = .next (u.postAnswer 0x13 r.tag r.fill r.count) ∧ u.ep.xlt = { s.ep.xlt with removal := none } ∧ onlyXlt s u)

/-- Doorbells of translation: FILL_DB, MISS_DB and XLT_ARM (R135, R136, R148).
Translation is enabled and disabled, and a record times out: XLT_ENABLE, XLT_DISABLE and MISS_TMO_EXPIRE (R135, R139, R147). -/
def Obligations.TranslationControl : Prop :=
  (∀ (s : State) (v : Word), s.attOn = true →
     (s.xltOn = true → subMod 32 v.toNat s.ep.xlt.fillHead ≤ s.fillSize →
       ∃ t, exec (.fillDb v) s = .next t ∧ t.ep.xlt = { s.ep.xlt with fillTail := v.toNat, issued := t.ep.xlt.issued } ∧ onlyXlt s t) ∧
     (s.xltOn = true → s.fillSize < subMod 32 v.toNat s.ep.xlt.fillHead →
       ∃ t, exec (.fillDb v) s = .next t
         ∧ t.ep.xlt = { s.ep.xlt with err := true, errCode := (if s.ep.xlt.err then s.ep.xlt.errCode else 1), fetchStop := true }
         ∧ onlyXlt s t) ∧
     (s.xltOn = true → subMod 32 v.toNat s.ep.xlt.missHead ≤ subMod 32 s.ep.xlt.missTail s.ep.xlt.missHead →
       ∃ t, exec (.missDb v) s = .next t ∧ t.ep.xlt.missHead = v.toNat ∧ t.ep.xlt.outExt = s.ep.xlt.outExt
         ∧ t.ep.xlt.inExt = s.ep.xlt.inExt ∧ onlyXlt s t) ∧
     (s.xltOn = true → subMod 32 s.ep.xlt.missTail s.ep.xlt.missHead < subMod 32 v.toNat s.ep.xlt.missHead →
       ∃ t, exec (.missDb v) s = .next t
         ∧ t.ep.xlt = { s.ep.xlt with err := true, errCode := (if s.ep.xlt.err then s.ep.xlt.errCode else 2) } ∧ onlyXlt s t) ∧
     (bit 0 v.toNat = true → (s.flag .plocen Reg.epXltCtl 1 = false ∨ s.ep.xlt.unannounced = 0) →
       ∃ t, exec (.xltArm v) s = .next t ∧ t.ep.xlt = { s.ep.xlt with armed := true } ∧ onlyXlt s t) ∧
     (bit 0 v.toNat = true → s.flag .plocen Reg.epXltCtl 1 = true → 0 < s.ep.xlt.unannounced →
       ∃ u : State, exec (.xltArm v) s = .next (u.request [intrReq 1024])
         ∧ u.ep.xlt = { s.ep.xlt with armed := false, unannounced := 0 } ∧ onlyXlt s u)) ∧
  (∀ (s : State) (v : Word) (wr : Writer),
     (s.attOn = true → s.xltOn = false → bit 0 v.toNat = true →
       ∃ t, exec (.xltEnable v wr) s = .next t ∧ t.reg .plocen Reg.epXltCtl = bits 0 2 v.toNat ∧ t.ep.xlt.active = true
         ∧ t.ep.xlt.armed = true ∧ t.ep.xlt.err = false ∧ t.ep.xlt.missTail = 0 ∧ t.ep.xlt.missHead = 0 ∧ t.ep.xlt.fillTail = 0
         ∧ t.ep.xlt.fillHead = 0 ∧ t.ep.xlt.inExt = s.ep.xlt.inExt ∧ t.ep.hanks = s.ep.hanks ∧ onlyPlocen s t) ∧
     (s.attOn = true → s.xltOn = true → bit 0 v.toNat = false →
       ∃ t, exec (.xltDisable v wr) s = .next t ∧ t.reg .plocen Reg.epXltCtl = bits 0 2 v.toNat ∧ t.ep.xlt.active = false
         ∧ t.ep.xlt.err = false ∧ t.ep.xlt.outExt = [] ∧ t.ep.xlt.misses = [] ∧ (∀ m < 17, t.micro m = [])
         ∧ t.ep.xlt.inExt = s.ep.xlt.inExt ∧ t.ep.hanks = s.ep.hanks ∧ onlyPlocen s t) ∧
     (∀ (id : Nat) (m : Miss), (s.ep.xlt.misses.find? fun m => m.id == id) = some m →
       m.formedAt + 1000 * max (s.fld .plocen Reg.epXltTmo 0 16) 1 ≤ s.now →
       ∃ t, exec (.missTmoExpire id) s = .next t ∧ (∀ x ∈ t.ep.xlt.misses, x.id ≠ id)
         ∧ (∀ k < 16, (s.shuttle k).miss = some id → (t.shuttle k).burst = none ∧ (t.shuttle k).miss = none)
         ∧ t.ep.xlt.outExt = s.ep.xlt.outExt ∧ t.ep.xlt.inExt = s.ep.xlt.inExt ∧ onlyPlocen s t))

/-! ### Weft at the Plocen (R160-R176) -/

/-- The port carries weft in the present slot, no uncorrectable codeword touches it, and the container is whole and for this node: it is
taken (R153, R170, R273). -/
def Sys2Proof.Claims.epTakes (s : State) (p : Nat) (c : Container) : Prop :=
  s.portUp .plocen p = true ∧ s.slotLost .plocen p = false ∧ c.crc = containerCrc c ∧ (c.kind = 1 ∨ c.kind = 2) ∧ entryRx (s.ptNow s.now p) ≠ 1
    ∧ entryRx (s.ptNow s.now p) ≠ 3 ∧ s.epAddressed c = true ∧ s.ep.att.down = false

/-- REQUEST_ARRIVAL and ORDERED_ARRIVAL: a READ or WRITE that reaches an idle destination and that its inbound extents grant becomes the
one job, with its attach accesses begun; it is in progress, and nothing has been counted or answered (R45, R134, R170, R171, R175).
REPLY_ARRIVAL: the answer of the one message of a container releases the container and its credit; a nonzero WIN is adopted (R160,
R161, R162, R176). -/
def Obligations.RequestsAndReplies : Prop :=
  (∀ (s : State) (p : Fin 8) (c : Container) (m : Msg), epTakes s p c → c.refl = false → c.kind = 1 → containerMsgs c = [m] →
     m.reply = false → (m.opc = 1 ∨ m.opc = 2) → 1 ≤ m.len → m.len ≤ 768 → s.ep.dest.jobs = [] → s.ep.dest.ctxs = [] →
     s.ep.dest.admits 4096 c.age = true → s.stale (arrivalOf c p (some s.ep.dest.nextId) m) = false →
     ((s.inPieces m.ttag c.skein m.offset m.len (kindOf m.opc)).all fun x => x.2.2.isSome) = true →
     (m.ord = false → c.ord = false → (SMap.find? s.ep.dest.recs c.src).isNone = true → c.sync = true →
       ∃ t j r, exec (.requestArrival p c) s = .next t ∧ t.ep.dest.jobs = [j] ∧ j.arr = arrivalOf c p (some s.ep.dest.nextId) m
         ∧ j.started = true ∧ SMap.find? t.ep.dest.recs c.src = some r ∧ m.seq ∈ r.prog ∧ r.base = m.seq
         ∧ (s.ep.dest.nextId, 1) ∈ t.ep.dest.store ∧ t.ep.hanks = s.ep.hanks ∧ regsBut s t .plocen [keygenReg .plocen p] ∧ onlyPlocen s t) ∧
     (m.ord = false → c.ord = false → s.ep.dest.verdict c.src m.seq none = .run →
       ∃ t j r, exec (.requestArrival p c) s = .next t ∧ t.ep.dest.jobs = [j] ∧ j.arr = arrivalOf c p (some s.ep.dest.nextId) m
         ∧ j.started = true ∧ SMap.find? t.ep.dest.recs c.src = some r ∧ m.seq ∈ r.prog
         ∧ (s.ep.dest.nextId, 1) ∈ t.ep.dest.store ∧ t.ep.hanks = s.ep.hanks ∧ regsBut s t .plocen [keygenReg .plocen p] ∧ onlyPlocen s t) ∧
     (m.ord = true → c.ord = true → c.sync = true →
       ∃ t j x, exec (.orderedArrival p c) s = .next t ∧ t.ep.dest.jobs = [j] ∧ j.arr = arrivalOf c p (some s.ep.dest.nextId) m
         ∧ j.started = true ∧ t.ep.dest.ctx? c.src c.stream = some x ∧ x.base = m.seq ∧ x.busy = true
         ∧ t.ep.hanks = s.ep.hanks ∧ regsBut s t .plocen [keygenReg .plocen p] ∧ onlyPlocen s t)) ∧
  (∀ (s : State) (p : Fin 8) (c : Container) (m : Msg) (h : Held) (x : SentMsg), epTakes s p c → isReplyC c = true →
     containerMsgs c = [m] → m.reply = true → c.kind = 1 → s.matchReply .plocen c.src (if m.ord then some c.stream else none) m.seq = some (h.id, 0) →
     s.held? .plocen h.id = some h → h.msgs = [x] → x.answered = false → h.hasCredit = true →
     ((∃ a b, x.owner = .desc a b) ∨ (∃ a, x.owner = .load a) ∨ (∃ a, x.owner = .store a)) →
     ∃ t, exec (.replyArrival p c) s = .next t ∧ t.held? .plocen h.id = none
       ∧ t.ep.src.creditsUsed h.c.dest h.plane = s.ep.src.creditsUsed h.c.dest h.plane - 1
       ∧ (c.win ≠ 0 → SMap.look (fun _ => 0) t.ep.src.window (creditKey c.src p) = c.win)
       ∧ (∀ k, x.owner = .store k → (t.ep.stores.all fun y => y.id != k) = true)
       ∧ t.ep.hanks = s.ep.hanks ∧ onlyPlocen s t)

/-- INJECT: a container takes a credit toward its destination, and waits at its port with the AGE of its first injection, the HOPS of
EP_SEQ.CTL and the window now announced; one injected before keeps its limits, and one older than LIFE ends instead (R160, R161, R163,
R168, R176, R180).
REFLECTED_ARRIVAL: the reflection is counted, and the container waits for a backoff of at least BACKOFF times two to the reflections so
far and at most one BACKOFF more (R176, R180); the random part is a free value (log 1). -/
def Obligations.InjectionAndBackoff : Prop :=
  (∀ (s : State) (p : Fin 8) (h : Held), (s.ep.src.held.find? fun h => s.mayInject p h) = some h →
     (s.lifeOver h = true → exec (.inject p) s = .next (s.endHeld .plocen h.id 5)) ∧
     (s.lifeOver h = false → ∃ t g, exec (.inject p) s = .next t ∧ t.held? .plocen h.id = some g ∧ g.loc = .port ∧ g.first = some (h.first.getD s.now)
       ∧ g.c.age = (if h.first.isSome then h.c.age else bits 5 16 s.now) ∧ g.c.hops = max (s.fld .plocen Reg.epSeqCtl 0 4) 1
       ∧ g.c.win = s.winNow .plocen ∧ g.c.dest = h.c.dest
       ∧ t.ep.src.creditsUsed h.c.dest p = s.ep.src.creditsUsed h.c.dest p + 1
       ∧ (h.small = false → g.c.payload = h.c.payload ∧ g.c.seq = h.c.seq ∧ g.msgs = h.msgs)
       ∧ (h.first.isSome = true → g.retryUs = h.retryUs ∧ g.maxTmo = h.maxTmo ∧ g.lifeUs = h.lifeUs)
       ∧ (∀ q, q ≠ p.val → SMap.look (fun _ => ({} : TxQ)) t.ep.tx q = SMap.look (fun _ => ({} : TxQ)) s.ep.tx q)
       ∧ t = { s with ep := { s.ep with src := t.ep.src, tx := t.ep.tx, xlt := { s.ep.xlt with drains := t.ep.xlt.drains } } })) ∧
  (∀ (s : State) (p : Fin 8) (c : Container) (h : Held), epTakes s p c → c.refl = true → c.defl ≠ 15 →
     (s.ep.src.held.find? fun h => h.hasCredit
       && ({ h.c with refl := false, hops := 0, defl := 0 } == { c with refl := false, hops := 0, defl := 0 }))
       = some h → s.held? .plocen h.id = some h → s.lifeOver h = false →
     ∃ t r, exec (.reflectedArrival p c) s = .next t ∧ r ≤ s.fld .plocen Reg.epSeqBackoff 0 16
       ∧ t.held? .plocen h.id = some { h with
           refls := h.refls + 1,
           loc := .backoff (s.now + s.fld .plocen Reg.epSeqBackoff 0 16 * 2 ^ min h.refls 6 + r) }
       ∧ (t.reg .plocen Reg.epSeqReflLo + 2 ^ 32 * t.reg .plocen Reg.epSeqReflHi)
           = (s.reg .plocen Reg.epSeqReflLo + 2 ^ 32 * s.reg .plocen Reg.epSeqReflHi + 1) % 2 ^ 64
       ∧ onlyPlocen s t)

/-- Only what waits in the crossbar of the Ronpex, its source and its memory agent may differ, and the log and LOG.LOST where a
container's node is UNROUTED (R156). -/
def Sys2Proof.Claims.onlyCrossbar (s t : State) : Prop :=
  regsBut s t .ronpex [Reg.logLost] ∧ t = { s with rp := { s.rp with
    cand := t.rp.cand, eddy := t.rp.eddy, home := t.rp.home, src := t.rp.src, fmem := t.rp.fmem, log := t.rp.log, regs := t.rp.regs
    warp := { s.rp.warp with logged := t.rp.warp.logged } } }

/-- The timers of a source: BACKOFF_RESEND, RETRY_TIMEOUT and LIFE_EXPIRE (R124, R176); a relay's HANK_SET waits while its skein is
QUIESCENT or deferrable work is held (R303, R369). -/
def Obligations.SourceTimers : Prop :=
  ∀ (s : State) (part : Part) (id : Nat) (h : Held), s.held? part id = some h →
    (∀ until_, h.loc = .backoff until_ → until_ ≤ s.now → s.lifeOver h = false →
      (part = .plocen → s.epLive h.plane = true →
        ∃ t, exec (.backoffResend part id) s = .next t
          ∧ t.held? .plocen id = some { h with loc := .port, due := s.now + 1000 * h.retryUs } ∧ (∀ m, ringKept s t m)
          ∧ t = { s with ep := { s.ep with src := t.ep.src, tx := t.ep.tx, rings := t.ep.rings } }) ∧
      (part = .ronpex → s.relayHeld h = true →
        ∃ t : State, exec (.backoffResend part id) s = .next t.unready ∧ t.held? .ronpex id = some { h with loc := .waiting }
          ∧ t = { s with rp := { s.rp with src := t.rp.src } }) ∧
      (part = .ronpex → s.relayHeld h = false →
        ∃ t : State, exec (.backoffResend part id) s = .next t.unready
          ∧ t.held? .ronpex id = some { h with loc := .sent, due := s.now + 1000 * h.retryUs }
          ∧ t.rp.eddy = s.rp.eddy ∧ t.rp.fmem = s.rp.fmem ∧ onlyCrossbar s t)) ∧
    (h.loc = .sent → h.due ≤ s.now → h.tmo + 1 < h.maxTmo → s.lifeOver h = false →
      (part = .plocen → s.epLive h.plane = true →
        ∃ t, exec (.retryTimeout part id) s = .next t
          ∧ t.held? .plocen id = some { h with tmo := h.tmo + 1, loc := .port, due := s.now + 1000 * h.retryUs }
          ∧ t.ep.hanks = s.ep.hanks ∧ onlyPlocen s t) ∧
      (part = .ronpex → s.relayHeld h = false →
        ∃ t : State, exec (.retryTimeout part id) s = .next t.unready
          ∧ t.held? .ronpex id = some { h with tmo := h.tmo + 1, loc := .sent, due := s.now + 1000 * h.retryUs }
          ∧ t.rp.eddy = s.rp.eddy ∧ t.rp.fmem = s.rp.fmem ∧ onlyCrossbar s t)) ∧
    (id < (s.source part).nextId → h.loc = .sent → h.due ≤ s.now → h.maxTmo ≤ h.tmo + 1 →
      ∃ t, exec (.retryTimeout part id) s = .next t ∧ t.held? part id = none ∧ t.hbm = s.hbm) ∧
    (id < (s.source part).nextId → s.lifeOver h = true →
      ∃ t, exec (.lifeExpire part id) s = .next t ∧ t.held? part id = none ∧ t.hbm = s.hbm)

/-- The timers of a destination: RECEIVE_RECORD_EXPIRE, CONTEXT_IDLE_EXPIRE, REPLY_CACHE_EXPIRE, REPLY_HOLD_EXPIRE and
UNREACHABLE_EXPIRE (R171, R173-R175, R350). -/
def Obligations.DestinationTimers : Prop :=
  ∀ (s : State) (part : Part) (node : Nat),
    (∀ r, SMap.find? (s.destOf part).recs node = some r → r.prog = [] → r.last + 2000000 ≤ s.now →
      ∃ t, exec (.receiveRecordExpire part node) s = .next t ∧ SMap.find? (t.destOf part).recs node = none
        ∧ (∀ k, k ≠ node → SMap.find? (t.destOf part).recs k = SMap.find? (s.destOf part).recs k)
        ∧ t = s.setDest part { s.destOf part with recs := (t.destOf part).recs }) ∧
    (∀ stream, ∃ t, exec (.contextIdleExpire part node stream) s = .next t
        ∧ (∀ x ∈ (t.destOf part).ctxs, x.src = node → x.stream = stream → x.held = [] → s.now < x.last + 2000000)
        ∧ (∀ x ∈ (s.destOf part).ctxs, (x.src ≠ node ∨ x.stream ≠ stream ∨ x.held ≠ []) → x ∈ (t.destOf part).ctxs)
        ∧ t = s.setDest part { s.destOf part with ctxs := (t.destOf part).ctxs }) ∧
    (∃ t, exec (.replyCacheExpire part) s = .next t
        ∧ (∀ e, e ∈ (t.destOf part).cache ↔ e ∈ (s.destOf part).cache ∧ s.now < e.at_ + 1000000)
        ∧ t = s.setDest part { s.destOf part with cache := (t.destOf part).cache }) ∧
    (∃ t, exec (.replyHoldExpire node) s = .next t ∧ (∀ r ∈ t.ep.dest.replies, r.dest = node → s.now < r.due)
        ∧ t = { s with ep := { s.ep with dest := { s.ep.dest with replies := t.ep.dest.replies }, tx := t.ep.tx } }) ∧
    (∀ plane : Fin 8, ∃ t, exec (.unreachableExpire node plane) s = .next t
        ∧ (∀ u, u ∈ t.ep.src.unreach ↔ u ∈ s.ep.src.unreach ∧ ¬(u.1 = node ∧ u.2.1 = plane.val ∧ u.2.2 ≤ s.now))
        ∧ t = { s with ep := { s.ep with src := { s.ep.src with unreach := t.ep.src.unreach } } })

/-! ### Slots, frames and the crossbar (R23, R156-R169, R183) -/

/-- The oldest candidate of an output is one of them, and none goes before it: no candidate is older by the signed comparison of AGE
(R165), where all AGEs lie within half of their range of each other. -/
def Obligations.OldestFirst : Prop :=
  ∀ (l : List EddyEnt) (x : EddyEnt) (base : Nat), (∀ y ∈ l, y.c.age < 2 ^ 16 ∧ subMod 16 y.c.age base < 2 ^ 15) →
    oldestEnt l = some x → x ∈ l ∧ ∀ y ∈ l, subMod 16 x.c.age base ≤ subMod 16 y.c.age base

/-- SLOT_BOUNDARY: fabric time reaches the next slot of 4 ns, and the waiting commands stay, and memory where no cell lands or leaves in
the slot; and at a weft slot of an output the oldest candidate is transmitted (R23, R165, R281).
FRAME_BOUNDARY: at the first slot of a frame the time that TIM.SET set takes effect, the budgets of every skein are loaded, and the
counts of request containers begin afresh (R183, R307, R308, R379); at any other time nothing happens. -/
def Obligations.SlotsAndFrames : Prop :=
  ((∀ s : State, ∃ t, exec .slotBoundary s = .next t ∧ t.now = (s.now / 4 + 1) * 4 ∧ t.pending = s.pending
     ∧ ((∀ f ∈ s.rp.warp.flight, s.now < f.due) → t.hbm = s.hbm)) ∧
   (∀ (s : State) (p : Nat) (l : List EddyEnt) (x : EddyEnt), oldestEnt (s.candidates p l) = some x →
     s.portState .ronpex p ≠ 3 → (s.link .ronpex p).lpiExit = none →
     ((s.link .ronpex p).keys.tx = none ∨ (s.link .ronpex p).keys.txCnt < 2 ^ 60) →
     Out.block .ronpex p (.weft x.c) ∈ (s.rpWeftSlot p l).out)) ∧
  (∀ (s : State) (activity : List Nat) (sensors : List Int),
     (s.now % 16384 = 0 → s.rp.skeins.cmd = none →
       ∃ t, exec (.frameBoundary activity sensors) s = .next t ∧ t.now = s.rp.time.set.getD s.now ∧ t.ep.paced = []
         ∧ (∀ k w, k < 64 → w < 4 → t.loaded k w = s.reg .ronpex (Reg.budWeft k + 4 * w)) ∧ t.pending = s.pending) ∧
     (s.now % 16384 ≠ 0 → exec (.frameBoundary activity sensors) s = .next s))

/-- A weft container is taken at a port of the Ronpex: the port is in service, carries weft in the present slot, is no analysis port, no
uncorrectable codeword touches the slot, and the container is whole and its skein may enter there (R153, R273, R303, R304). -/
def Sys2Proof.Claims.rpEnters (s : State) (p : Fin 192) (c : Container) : Prop :=
  s.carries p = true ∧ s.slotLost .ronpex p = false ∧ s.anaPort p = false ∧ s.rxAt s.now p = 0 ∧ c.crc = containerCrc c ∧ (c.kind = 1 ∨ c.kind = 2)
    ∧ (c.skein = 0 ∨ s.skeinState c.skein ≠ 1) ∧ s.flag .ronpex (Reg.sknPort p) 6 = false

/-- EDDY_WAIT_EXPIRE: the containers of an eddy that have waited longer than EDDY_WAIT leave it, and the others stay (R166).
CONTAINER_INGRESS: a container whose node's route is a port goes to that output, with its HOPS reduced by 1 and contending from
the next slot; one for fabric-resident memory waits for the memory agent as it came (R156, R157, R165, R168). -/
def Obligations.ContainersRouted : Prop :=
  (∀ (s : State) (p : Fin 192), ∃ t, exec (.eddyWaitExpire p) s = .next t
     ∧ t.eddyOf p = (s.eddyOf p).filter (fun x => !s.overWait p x)
     ∧ (∀ q, q ≠ p.val → t.eddyOf q = s.eddyOf q)
     ∧ t.rp.src = s.rp.src ∧ t.rp.fmem = s.rp.fmem ∧ onlyCrossbar s t) ∧
  (∀ (s : State) (p : Fin 192) (c : Container), rpEnters s p c →
     (∀ q, s.route (lookupNode c) = .port q → s.eligible q = true → (1 ≤ c.hops ∨ s.facesPlocen q = true) →
       ∃ t, exec (.containerIngress p c) s = .next t
         ∧ SMap.look (fun _ => []) t.rp.cand q = SMap.look (fun _ => []) s.rp.cand q
             ++ [{ c := { c with hops := c.hops - 1 }, ingress := p, since := s.now, agent := none }]
         ∧ (∀ o, o ≠ q → SMap.look (fun _ => []) t.rp.cand o = SMap.look (fun _ => []) s.rp.cand o)
         ∧ regsBut s t .ronpex [keygenReg .ronpex p]
         ∧ t = { s with rp := { s.rp with cand := t.rp.cand, links := t.rp.links, ana := t.rp.ana, regs := t.rp.regs } }) ∧
     (s.route (lookupNode c) = .localMem → c.refl = false → (containerMsgs c).all (fun m => !m.reply) = true → containerMsgs c ≠ [] →
       ∃ t, exec (.containerIngress p c) s = .next t ∧ t.rp.fmem.inbox = s.rp.fmem.inbox ++ [(p.val, c)]
         ∧ t.rp.fmem = { s.rp.fmem with inbox := t.rp.fmem.inbox } ∧ t.rp.cand = s.rp.cand
         ∧ regsBut s t .ronpex [keygenReg .ronpex p] ∧ onlyRonpex s t))

/-! ### Fabric-resident memory (R249-R264, R316) -/

/-- One unordered request of a container that waits for the memory agent and is the next of its source is served at once: it is
admitted, granted and within budget, nothing else waits, and its answer leaves by port `q` (R170, R171, R250, R253, R261). -/
def Sys2Proof.Claims.agentServes (s : State) (p : Fin 192) (c : Container) (m : Msg) (q : Nat) : Prop :=
  s.rp.fmem.inbox.contains (p.val, c) = true ∧ containerMsgs c = [m] ∧ m.reply = false ∧ m.ord = false
    ∧ s.agentAdmits c.skein c.age = true ∧ SMap.find? s.rp.fmem.refused c.skein = none
    ∧ (∃ last, SMap.find? s.rp.fmem.dest.recs c.src = some { base := m.seq, done := [], prog := [], last := last })
    ∧ s.rp.fmem.dest.ctxs = [] ∧ s.rp.fmem.dest.jobs = [] ∧ s.rp.fmem.dest.cache.length < 32768 ∧ s.rp.fmem.waiting = []
    ∧ s.rp.fmem.bad = [] ∧ s.rp.fmem.next = [] ∧ s.chanDead m.offset m.len = false
    ∧ s.fmWaits (arrivalOf c p (some s.rp.fmem.dest.nextId) m) = false
    ∧ s.fmGranted (arrivalOf c p (some s.rp.fmem.dest.nextId) m) = true
    ∧ s.isSealed c.skein = false ∧ s.route c.src = .port q ∧ s.eligible q = true

/-- The answer of a request at output `q`: to its source, with its SEQ and AGE, the window of 64 and an opcode (R173, R252). -/
def Sys2Proof.Claims.agentAnswers (s t : State) (c : Container) (m : Msg) (q opc : Nat) (data : List Byte) : Prop :=
  ∃ e : EddyEnt, SMap.look (fun _ => []) t.rp.cand q = SMap.look (fun _ => []) s.rp.cand q ++ [e] ∧ e.c.dest = c.src ∧ e.c.opc = opc
    ∧ e.c.reply = true ∧ e.c.seq = m.seq ∧ e.c.age = c.age ∧ e.c.win = 64 ∧ e.c.payload = data
    ∧ e.agent = some s.rp.fmem.dest.nextId

/-- What serving a request leaves as it was: the registers of the Ronpex, the Plocen, fabric time and the waiting commands; and the
request is done, so that the next of its source is awaited (R171). -/
def Sys2Proof.Claims.agentFrameOf (s t : State) (c : Container) (m : Msg) : Prop :=
  SMap.find? t.rp.fmem.dest.recs c.src = some { base := (m.seq + 1) % 2 ^ 32, done := [], prog := [], last := s.now }
    ∧ t.rp.regs = s.rp.regs ∧ t.ep = s.ep ∧ t.now = s.now ∧ t.pending = s.pending

/-- MEMORY_AGENT_REQUEST: a READ returns the bytes and changes none; a WRITE stores its bytes and adds its length to the counter it
names; HANK_SET sets that counter; an ATOMIC stores the new value, and returns the old one where its RESULT was requested (R43, R152,
R251, R258). Memory is what a read of it returns, under the keys of its region (R263). -/
def Obligations.MemoryAgentRequest : Prop :=
  ∀ (s : State) (p : Fin 192) (c : Container) (m : Msg) (q : Nat), agentServes s p c m q →
    (m.opc = 2 → ∃ t, exec (.memoryAgentRequest p c 0 []) s = .next t ∧ t.hbm = s.hbm ∧ t.rp.fmem.hcnt = s.rp.fmem.hcnt
      ∧ agentAnswers s t c m q 0x30 (s.memRead m.offset m.len) ∧ agentFrameOf s t c m) ∧
    (m.opc = 1 → ∃ t, exec (.memoryAgentRequest p c 0 []) s = .next t ∧ t.memRead m.offset m.len = sliceBytes m.data 0 m.len
      ∧ (∀ a, (a < m.offset ∨ m.offset + m.len ≤ a) → t.memByte a = s.memByte a)
      ∧ t.hcnt m.hank = (s.hcnt m.hank + m.len) % 2 ^ 64 ∧ (∀ n, n ≠ m.hank → t.hcnt n = s.hcnt n)
      ∧ agentAnswers s t c m q 0x31 [] ∧ agentFrameOf s t c m) ∧
    (m.opc = 4 → ∃ t, exec (.memoryAgentRequest p c 0 []) s = .next t ∧ t.hbm = s.hbm ∧ t.hcnt m.hank = fieldNat m.data 0 8 % 2 ^ 64
      ∧ (∀ n, n ≠ m.hank → t.hcnt n = s.hcnt n) ∧ agentAnswers s t c m q 0x31 [] ∧ agentFrameOf s t c m) ∧
    (isAtomic m.opc = true → ∃ t, exec (.memoryAgentRequest p c 0 []) s = .next t
      ∧ t.memRead m.offset m.len = leBytes m.len (atomicNew (m.opc - 0x20) m.len (leNat (s.memRead m.offset m.len))
          (fieldNat m.data 0 m.len) (fieldNat m.data m.len m.len))
      ∧ (∀ a, (a < m.offset ∨ m.offset + m.len ≤ a) → t.memByte a = s.memByte a)
      ∧ t.hcnt m.hank = (s.hcnt m.hank + m.len) % 2 ^ 64 ∧ (∀ n, n ≠ m.hank → t.hcnt n = s.hcnt n)
      ∧ agentAnswers s t c m q 0x32 (answerData (arrivalOf c p (some s.rp.fmem.dest.nextId) m) 0x32 (s.memRead m.offset m.len))
        ∧ agentFrameOf s t c m)

/-- REGION_GRANT: a region is written; one made VALID for a skein it did not serve last waits to be zeroed with READY 0, and one whose
skein, or whose named skein, is ACTIVE is left as it is (R253, R255, R264).
ZEROING_DONE: once left-over capacity suffices for all of the region, every byte of it reads zero and every other byte is kept; READY
becomes 1 while the region is VALID, and FMH.ERR.SCRUB_DONE is set; until then, and while a power or thermal condition holds zeroing,
nothing happens (R255, R261, R264, R369; that the stacks have trained is log 158's). -/
def Obligations.RegionsZeroed : Prop :=
  (∀ (s : State) (n : Fin 256) (v : Word) (w : Writer), rpTakes s w →
     (s.activeTenant (bits 4 6 v.toNat) = false → (s.flag .ronpex (Reg.fmhRgnCtl n) 0 = false ∨ s.activeTenant (s.rgnSkein n) = false) →
       s.rp.fmem.zeroing.contains n.val = false →
       ∃ t, exec (.regionGrant n v w) s = .next t
         ∧ (bit 0 v.toNat = true → SMap.look (fun _ => 0) s.rp.fmem.served n ≠ bits 4 6 v.toNat + 1 →
             t.reg .ronpex (Reg.fmhRgnCtl n) = bits 0 10 v.toNat ∧ t.rp.fmem.zeroing = s.rp.fmem.zeroing ++ [n.val])
         ∧ (bit 0 v.toNat = true → SMap.look (fun _ => 0) s.rp.fmem.served n = bits 4 6 v.toNat + 1 →
             t.reg .ronpex (Reg.fmhRgnCtl n) = bits 0 10 v.toNat + 2 ^ 10 ∧ t.rp.fmem.zeroing = s.rp.fmem.zeroing)
         ∧ (bit 0 v.toNat = false → t.reg .ronpex (Reg.fmhRgnCtl n) = bits 0 10 v.toNat ∧ t.rp.fmem.zeroing = s.rp.fmem.zeroing)
         ∧ regsBut s t .ronpex [Reg.fmhRgnCtl n, Reg.logLost]
         ∧ t = { s with rp := { s.rp with regs := t.rp.regs, log := t.rp.log
                                          fmem := { s.rp.fmem with zeroing := t.rp.fmem.zeroing, zeroLeft := t.rp.fmem.zeroLeft } } }) ∧
     ((s.activeTenant (bits 4 6 v.toNat) = true ∨ (s.flag .ronpex (Reg.fmhRgnCtl n) 0 = true ∧ s.activeTenant (s.rgnSkein n) = true)) →
       exec (.regionGrant n v w) s = .next (s.logWrite .ronpex (Reg.fmhRgnCtl n) v.toNat w))) ∧
  (∀ (s : State) (n : Nat) (rest : List Nat) (b z : Nat), s.rp.fmem.zeroing = n :: rest → n < 256 → s.rgnUnits n = (b, z) →
     b + z ≤ 98304 → s.rp.fmem.trained = 15 → s.workHeld = false → (s.rp.fmem.zeroLeft = 0 ∨ s.rp.fmem.zeroLeft + s.rp.fmem.total ≤ s.hbmCapacity) →
     ∃ t, exec .zeroingDone s = .next t ∧ (∀ a, 2 ^ 21 * b ≤ a → a < 2 ^ 21 * (b + z) → t.memByte a = 0)
       ∧ (∀ a, (a < 2 ^ 21 * b ∨ 2 ^ 21 * (b + z) ≤ a) → t.memByte a = s.memByte a)
       ∧ t.flag .ronpex (Reg.fmhRgnCtl n) 10 = s.flag .ronpex (Reg.fmhRgnCtl n) 0
       ∧ t.flag .ronpex Reg.fmhErr 4 = true ∧ t.rp.fmem.zeroing = rest ∧ t.rp.fmem.hcnt = s.rp.fmem.hcnt
       ∧ t.ep = s.ep ∧ t.now = s.now ∧ t.pending = s.pending) ∧
  (∀ s : State, (s.rp.fmem.zeroing = [] ∨ s.rp.fmem.trained ≠ 15 ∨ s.workHeld = true
      ∨ (0 < s.rp.fmem.zeroLeft ∧ s.hbmCapacity < s.rp.fmem.zeroLeft + s.rp.fmem.total)) → exec .zeroingDone s = .next s)

/-- RELAY_ENABLE: arming a relay sets its NEXT to the counter's value plus STEP, disarming it forgets NEXT (R259).
SEALED_REPLY_RELEASE: the held replies whose time has come are held no longer, and one that its route leads to a port is offered
there (R252, R316). -/
def Obligations.RelaysAndHeldReplies : Prop :=
  (∀ (s : State) (m : Fin 4096) (v : Word) (w : Writer), rpTakes s w → s.relayBusy (bits 0 14 v.toNat) = false →
     s.relayBusy (s.fld .ronpex (Reg.fmhRelayCtl m) 0 14) = false →
     ∃ t, exec (.relayEnable m v w) s = .next t ∧ t.reg .ronpex (Reg.fmhRelayCtl m) = bits 0 15 v.toNat
       ∧ SMap.find? t.rp.fmem.next m = (if bit 14 v.toNat then some ((s.hcnt (bits 0 14 v.toNat) + s.relayStep m) % 2 ^ 64) else none)
       ∧ (∀ k, k ≠ m.val → SMap.find? t.rp.fmem.next k = SMap.find? s.rp.fmem.next k)
       ∧ regsBut s t .ronpex [Reg.fmhRelayCtl m, Reg.logLost]
       ∧ t = { s with rp := { s.rp with regs := t.rp.regs, log := t.rp.log, fmem := { s.rp.fmem with next := t.rp.fmem.next } } }) ∧
  (∀ s : State,
     (∃ t, exec .sealedReplyRelease s = .next t
       ∧ t.rp.fmem.sealedRep = s.rp.fmem.sealedRep.filter (fun x => decide (s.now < x.at_))
       ∧ t.rp.fmem.hcnt = s.rp.fmem.hcnt ∧ t.rp.src = s.rp.src ∧ t.rp.eddy = s.rp.eddy ∧ onlyCrossbar s t) ∧
     (∀ (x : SealedReply) (q : Nat), s.rp.fmem.sealedRep = [x] → x.at_ ≤ s.now → s.route x.c.dest = .port q → s.eligible q = true →
       ∃ t, exec .sealedReplyRelease s = .next t ∧ SMap.look (fun _ => []) t.rp.cand q = SMap.look (fun _ => []) s.rp.cand q
           ++ [{ c := x.c, ingress := 255, since := s.now, agent := some x.entry }]
         ∧ t = { s with rp := { s.rp with cand := t.rp.cand, fmem := { s.rp.fmem with sealedRep := [] } } }))

/-! ### The warp plane (R183-R219) -/

/-- DRF_GO, DRF_STOP, WCTL_GO and WCTL_STOP: a GO whose START has not passed, of a slot whose image was accepted, waits for its START;
one that has passed, or of a slot that was not accepted, changes nothing but DRF.CTL; a STOP waits for the next frame boundary
(R192, R214, R215). -/
def Obligations.DraftOrders : Prop :=
  ∀ (s : State) (v : Word) (w : Writer),
    (rpTakes s w →
      (bit 3 v.toNat = true → bit 4 v.toNat = false → frameDue s.now (s.reg .ronpex Reg.drfStart) = false →
        bit (bits 0 3 v.toNat) s.rp.warp.accepted = true →
        ∃ t, exec (.drfGo v w) s = .next t
          ∧ t.rp.warp = { s.rp.warp with go := some (bits 0 3 v.toNat, s.reg .ronpex Reg.drfStart) }
          ∧ t.reg .ronpex Reg.drfCtl = bits 0 3 v.toNat + 2 ^ 5 * bits 5 1 v.toNat
          ∧ regsBut s t .ronpex [Reg.drfCtl, Reg.logLost]
          ∧ t = { s with rp := { s.rp with regs := t.rp.regs, log := t.rp.log, warp := t.rp.warp } }) ∧
      (bit 3 v.toNat = true → bit 4 v.toNat = false →
        (frameDue s.now (s.reg .ronpex Reg.drfStart) = true ∨ bit (bits 0 3 v.toNat) s.rp.warp.accepted = false) →
        ∃ t, exec (.drfGo v w) s = .next t ∧ t.rp.warp = s.rp.warp ∧ onlyRonpex s t) ∧
      (bit 3 v.toNat = false → bit 4 v.toNat = true →
        ∃ t, exec (.drfStop v w) s = .next t ∧ t.rp.warp = { s.rp.warp with stop := true }
          ∧ regsBut s t .ronpex [Reg.drfCtl, Reg.logLost]
          ∧ t = { s with rp := { s.rp with regs := t.rp.regs, log := t.rp.log, warp := t.rp.warp } })) ∧
    (s.attOn = true → bit 3 v.toNat = true → bit 4 v.toNat = false → frameDue s.now (s.reg .plocen Reg.epSeqWstart) = false →
      ∃ t, exec (.wctlGo v w) s = .next t
        ∧ t.ep.warp = { s.ep.warp with go := some (bits 0 3 v.toNat, s.reg .plocen Reg.epSeqWstart) }
        ∧ t.reg .plocen Reg.epSeqWctl = bits 0 3 v.toNat ∧ regsBut s t .plocen [Reg.epSeqWctl]
        ∧ t = { s with ep := { s.ep with regs := t.ep.regs, log := t.ep.log, warp := t.ep.warp } }) ∧
    (s.attOn = true → bit 3 v.toNat = true → bit 4 v.toNat = false → frameDue s.now (s.reg .plocen Reg.epSeqWstart) = true →
      ∃ t, exec (.wctlGo v w) s = .next t ∧ t.ep.warp = s.ep.warp ∧ regsBut s t .plocen [Reg.epSeqWctl] ∧ onlyPlocen s t) ∧
    (s.attOn = true → bit 3 v.toNat = false → bit 4 v.toNat = true →
      ∃ t, exec (.wctlStop v w) s = .next t ∧ t.ep.warp = { s.ep.warp with stop := true } ∧ regsBut s t .plocen [Reg.epSeqWctl]
        ∧ t = { s with ep := { s.ep with regs := t.ep.regs, log := t.ep.log, warp := t.ep.warp } })

/-- COMMIT and DRAFT_ACTIVATION: a commit shows the lowest condition that the image breaks, and accepts the slot where it breaks none;
at its START the slot is in effect, with instances and tallies afresh, and a STOP ends the draft; a slot that is no longer accepted, or
changes an ACTIVE skein, does not come into effect (R192, R209, R214, R303). -/
def Obligations.DraftActivated : Prop :=
  (∀ (s : State) (v : Word) (w : Writer), rpTakes s w →
    ∃ t, exec (.commit v w) s = .next t
      ∧ t.fld .ronpex Reg.drfStat 8 8 = (s.logWrite .ronpex Reg.drfCommit v.toNat w).draftCheck (bits 0 3 v.toNat)
      ∧ t.fld .ronpex Reg.drfStat 16 3 = bits 0 3 v.toNat ∧ t.fld .ronpex Reg.drfStat 0 4 = s.fld .ronpex Reg.drfStat 0 4
      ∧ bit (bits 0 3 v.toNat) t.rp.warp.accepted
          = decide ((s.logWrite .ronpex Reg.drfCommit v.toNat w).draftCheck (bits 0 3 v.toNat) = 0)
      ∧ (∀ k, k ≠ bits 0 3 v.toNat → bit k t.rp.warp.accepted = bit k s.rp.warp.accepted)
      ∧ SMap.look (fun _ => []) t.rp.warp.fencedAt (bits 0 3 v.toNat) = s.fencedPorts
      ∧ t.rp.warp = { s.rp.warp with accepted := t.rp.warp.accepted, fencedAt := t.rp.warp.fencedAt } ∧ onlyRonpex s t) ∧
  (∀ (s : State) (slot start : Nat), s.now % 16384 = 0 → slot < 8 →
    (s.rp.warp.stop = false → s.rp.warp.go = some (slot, start) → frameDue s.now start = true → s.changesActive slot = false →
      bit slot s.rp.warp.accepted = true → (∀ n, n < 96 → s.spOut n = false) →
      (∀ p ∈ s.fencedPorts, (SMap.look (fun _ => []) s.rp.warp.fencedAt slot).contains p = true) →
      ∃ t, exec (.draftActivation .ronpex) s = .next t ∧ t.flag .ronpex Reg.drfStat 3 = true ∧ t.fld .ronpex Reg.drfStat 0 3 = slot
        ∧ t.rp.warp = { s.rp.warp with
            go := none, primary := slot, idle := [], outSkeins := 0, inst := [], heldRounds := [], tallies := [], flight := [] }
        ∧ regsBut s t .ronpex [Reg.drfStat] ∧ t = { s with rp := { s.rp with regs := t.rp.regs, warp := t.rp.warp } }) ∧
    (s.rp.warp.stop = false → s.rp.warp.go = some (slot, start) → frameDue s.now start = true →
      (bit slot s.rp.warp.accepted = false ∨ s.changesActive slot = true) →
      ∃ t, exec (.draftActivation .ronpex) s = .next t ∧ t.rp.warp = { s.rp.warp with go := none }
        ∧ t.fld .ronpex Reg.drfStat 0 4 = s.fld .ronpex Reg.drfStat 0 4 ∧ onlyRonpex s t) ∧
    (s.rp.warp.stop = true → s.rp.warp.go = none →
      ∃ t, exec (.draftActivation .ronpex) s = .next t ∧ t.flag .ronpex Reg.drfStat 3 = false
        ∧ t.rp.warp = { s.rp.warp with stop := false } ∧ regsBut s t .ronpex [Reg.drfStat]
        ∧ t = { s with rp := { s.rp with regs := t.rp.regs, warp := t.rp.warp } }) ∧
    (s.ep.warp.stop = false → s.ep.warp.go = some (slot, start) → frameDue s.now start = true → s.ep.warp.binds = [] →
      (∀ p, p < 8 → s.epLive p = true ∨ s.usesPort slot p = false) →
      ∃ t, exec (.draftActivation .plocen) s = .next t ∧ t.flag .plocen Reg.epSeqWstat 3 = true
        ∧ t.fld .plocen Reg.epSeqWstat 0 3 = slot ∧ (∀ p, p < 8 → t.reg .plocen (Reg.epSeqWport p) = slot)
        ∧ t.ep.warp = { s.ep.warp with
            go := none, primary := slot, idle := [], out := [], runs := [], past := [], inst := [], complete := [], late := [] }
        ∧ regsBut s t .plocen (Reg.epSeqWstat :: (List.range 8).map Reg.epSeqWport)
        ∧ t = { s with ep := { s.ep with regs := t.ep.regs, warp := t.ep.warp } }))

/-- WARP_CELL_INGRESS and SPINDLE_EMIT: a cell that enters an ingress slot is on its way to the port or the spindle input that its entry
names, 4 or 3 slots on the same die and 6 or 5 to another, and leaves a port with DIR 1; a spindle emits one cell that is due, to every
port whose entry takes it
in this frame (R184, R186, R187, R190, R219). -/
def Obligations.CellsMove : Prop :=
  (∀ (s : State) (p : Fin 192) (c : WarpCell) (r : PhaseRec), s.carries p = true → s.anaPort p = false → s.rxAt s.now p = 1 →
    s.slotLost .ronpex p = false → s.expectsSkein p c.skein = true → s.rp.warp.heard.contains p.val = false → c.crc = cellCrc c →
      (c.skein = 0 ∨ s.skeinState c.skein ≠ 1) →
    s.flag .ronpex (Reg.sknPort p) 6 = false → c.epoch = s.epoch .ronpex % 256 → s.pkgPhase s.rdSlot c.phase = some r →
    r.shadow = false → r.kind ≠ 1 →
    (entryAction (s.rdAt s.now p) = 2 →
      ∃ t, exec (.warpCellIngress p c) s = .next t
        ∧ t.rp.warp = { s.rp.warp with
            heard := s.rp.warp.heard ++ [p.val], tallies := t.rp.warp.tallies
            flight := s.rp.warp.flight ++ [{
              due := s.now + 4 * (if portDie p = portDie (s.portPhys (entryTarget (s.rdAt s.now p) % 256)) then 4 else 6)
              dst := .port (s.portPhys (entryTarget (s.rdAt s.now p) % 256)), what := .data (sealedCell { c with dir := true }) }] }
        ∧ regsBut s t .ronpex [keygenReg .ronpex p]
        ∧ t = { s with rp := { s.rp with links := t.rp.links, warp := t.rp.warp, regs := t.rp.regs } }) ∧
    (∀ ph, entryAction (s.rdAt s.now p) = 3 → s.phaseAt s.rdSlot ((s.portLogical p).getD p / 12) (slotOf s.now) = some ph →
      ∃ t, exec (.warpCellIngress p c) s = .next t
        ∧ t.rp.warp = { s.rp.warp with
            heard := s.rp.warp.heard ++ [p.val], tallies := t.rp.warp.tallies
            flight := s.rp.warp.flight ++ [{
              due := s.now + 4 * (if portDie p = spindleDie (s.spPhys (entryTarget (s.rdAt s.now p) % 128)) then 3 else 5)
              dst := .input (s.spPhys (entryTarget (s.rdAt s.now p) % 128)) ph, what := .data c }] }
        ∧ regsBut s t .ronpex [keygenReg .ronpex p]
        ∧ t = { s with rp := { s.rp with links := t.rp.links, warp := t.rp.warp, regs := t.rp.regs } })) ∧
  (∀ (s : State) (n : Fin 96) (x : AccCtx) (c : WarpCell) (rest : List WarpCell) (t0 l : Nat) (r : PhaseRec),
    (s.spindle n).ctxs = [x] → x.emitAt = some t0 → x.out = c :: rest →
    (s.now < t0 → exec (.spindleEmit n) s = .next s) ∧
    (t0 ≤ s.now → s.spLogical n = some l → s.pkgPhase s.rdSlot c.phase = some r → r.shadow = false → r.spGroup = 255 →
      ∃ t, exec (.spindleEmit n) s = .next t
        ∧ (t.spindle n).ctxs = (if rest.isEmpty then [] else [{ x with out := rest, emitAt := some (s.now + 4) }])
        ∧ (∀ p d, p < 192 → d = (if portDie p = spindleDie n then 3 else 5) → slotOf s.now + d < 4096 →
            s.entrySpout ((s.portLogical p).getD p) (s.rdAt (s.now + 4 * d) p) = some l →
            { due := s.now + 4 * d, dst := .port p, what := .data c } ∈ t.rp.warp.flight)
        ∧ (∀ f ∈ s.rp.warp.flight, f ∈ t.rp.warp.flight)
        ∧ t = { s with rp := { s.rp with spindles := t.rp.spindles, warp := { s.rp.warp with flight := t.rp.warp.flight } } }))

/-- WARP_CELL_LANDING: a result cell of the running instance with STATUS OK lands at its place in its binding's result buffer; one with
REPLAY names the round that runs again; one with VOID ends the instance (R197, R200-R202, R226). -/
def Obligations.CellsLand : Prop :=
  ∀ (s : State) (p : Fin 8) (c : WarpCell) (x : PhaseRec) (r : Run), s.portUp .plocen p = true → s.ptRunning = true →
    s.slotLost .plocen p = false →
    entryRx (s.ptNow s.now p) = 1 → c.crc = cellCrc c → c.epoch = s.epoch .plocen % 256 → c.skein = s.epSkein →
    x = s.ptPhase (s.ptSlot p) c.phase → x.members ≠ 0 → x.kind ≠ 1 → x.kind ≠ 5 → x.op ≠ 0x09 → x.op ≠ 0x0A → x.op ≠ 0x0B →
    s.run? x.pattern = some r → r.inst = c.inst →
    (∀ (b : Binding) (round o n : Nat), c.status = 0 → s.bindFor x.pattern r.inst c.phase = some b →
      round = fullRound (r.roundOn p) c.round → s.outPlace (s.ptSlot p) b c.phase round c.slice c.cell = (o, n) → n ≠ 0 →
      ∃ t l, exec (.warpCellLanding p c) s = .next t ∧ t.ep.warp.landings = s.ep.warp.landings ++ [l]
        ∧ l.id = s.ep.warp.nextId ∧ l.bind = b.id ∧ l.phase = c.phase ∧ l.slice = c.slice ∧ l.round = round ∧ l.cell = c.cell
        ∧ l.bytes = n ∧ l.left = (pieces ((descOf b.raw).opb + o) n).length ∧ l.failed = false
        ∧ t = { s with out := t.out, ep := { s.ep with
            att := t.ep.att, links := t.ep.links, regs := t.ep.regs, dest := { s.ep.dest with lineWait := t.ep.dest.lineWait }
            warp := { s.ep.warp with nextId := s.ep.warp.nextId + 1, binds := t.ep.warp.binds, landings := t.ep.warp.landings } } }
        ∧ regsBut s t .plocen [keygenReg .plocen p]) ∧
    (c.status = 1 →
      ∃ t, exec (.warpCellLanding p c) s = .next t
        ∧ t.run? x.pattern = some { r with replay := r.replay ++ [(p.val, min (r.roundOn p) (fullRound (r.roundOn p) c.round))] }
        ∧ regsBut s t .plocen [keygenReg .plocen p]
        ∧ t = { s with ep := { s.ep with links := t.ep.links, regs := t.ep.regs, warp := { s.ep.warp with runs := t.ep.warp.runs } } }) ∧
    (c.status = 2 →
      ∃ t, exec (.warpCellLanding p c) s = .next t ∧ t.run? x.pattern = none ∧ regsBut s t .plocen [keygenReg .plocen p] ∧ t.ep.hanks = s.ep.hanks
        ∧ onlyPlocen s t)

/-- SWITCH_ORDER and SWITCH_ORDER_APPLY: an order that a part accepts waits for its EFFECTIVE, merged with one it matches; when its
EFFECTIVE has come, at the first slot of a frame only, a PLANE_OUT takes the plane's skeins out, a REMAP changes the map and its register,
and a PRIMARY returns the port to
the primary's slot (R191, R207, R208, R209, R351). -/
def Obligations.SwitchOrders : Prop :=
  (∀ (s : State) (src : MgmtSource) (o : SwitchOrder),
    (s.rpMgmtOk src 4 = true → s.staleOrder o = none → s.rp.warp.applied.any (sameApplied o) = false →
      s.rp.warp.seen.any (sameApplied o) = false →
      ∃ t, exec (.switchOrder .ronpex src o) s = .next t
        ∧ t.rp.warp = { s.rp.warp with
            orders := mergeOrder s.rp.warp.orders o false, seen := o :: s.rp.warp.seen.take 63, logged := t.rp.warp.logged }
        ∧ regsBut s t .ronpex [Reg.logLost] ∧ onlyRonpex s t) ∧
    (s.epMgmtOk src.port src.node = true → s.ep.warp.seenOrders.contains o = false → bit s.epSkein o.skeins.toNat = true →
      ∃ t, exec (.switchOrder .plocen src o) s = .next t
        ∧ t.ep.warp = { s.ep.warp with seenOrders := o :: s.ep.warp.seenOrders.take 63, orders := mergeEpOrder s.ep.warp.orders o }
        ∧ t.ep.regs = s.ep.regs ∧ onlyPlocen s t)) ∧
  (∀ (s : State) (part : Part), s.now % 16384 ≠ 0 → exec (.switchOrderApply part) s = .next s) ∧
  (∀ (s : State) (x : PendOrder), s.now % 16384 = 0 → s.rp.warp.orders = [x] →
    (frameDue s.now x.o.effective = false → exec (.switchOrderApply .ronpex) s = .next s) ∧
    (frameDue s.now x.o.effective = true → x.o.plane = s.plane → s.running = true →
      (x.o.kind = 2 →
        ∃ t, exec (.switchOrderApply .ronpex) s = .next t
          ∧ t.rp.warp = { s.rp.warp with
              orders := [], applied := x.o :: s.rp.warp.applied.take 63, outSkeins := bOr s.rp.warp.outSkeins x.o.skeins.toNat }
          ∧ t.reg .ronpex Reg.drfFault = x.o.faultFrame % 2 ^ 32 ∧ t.reg .ronpex Reg.drfEffect = x.o.effective % 2 ^ 32
          ∧ onlyRonpex s t) ∧
      (∀ k i, x.o.kind = 0 → x.o.pairs = [(0, k, i)] → k < 96 →
        ∃ t, exec (.switchOrderApply .ronpex) s = .next t ∧ SMap.look (fun n => n % 24) t.rp.warp.spmap k = i % 32
          ∧ t.reg .ronpex (Reg.drfSpmap k) = i % 32
          ∧ (∀ j, j ≠ k → SMap.look (fun n => n % 24) t.rp.warp.spmap j = SMap.look (fun n => n % 24) s.rp.warp.spmap j)
          ∧ t.rp.warp = { s.rp.warp with
              orders := [], applied := x.o :: s.rp.warp.applied.take 63, spmap := t.rp.warp.spmap }
          ∧ onlyRonpex s t))) ∧
  (∀ (s : State) (o : SwitchOrder), s.now % 16384 = 0 → s.ep.warp.orders = [o] → frameDue s.now o.effective = true → s.ep.warp.runs = [] →
    (o.kind = 2 → s.ep.warp.binds = [] →
      ∃ t, exec (.switchOrderApply .plocen) s = .next t ∧ t.ep.warp.orders = []
        ∧ t.ep.warp.out = o.plane :: s.ep.warp.out.filter (fun q => q != o.plane)
        ∧ t.reg .plocen Reg.epSeqWfault = o.faultFrame % 2 ^ 32 ∧ t.ep.hanks = s.ep.hanks ∧ onlyPlocen s t) ∧
    (o.kind = 3 → o.plane < 8 → s.ep.warp.primary < 8 →
      ∃ t, exec (.switchOrderApply .plocen) s = .next t ∧ t.ep.warp = { s.ep.warp with orders := [] }
        ∧ t.reg .plocen (Reg.epSeqWport o.plane) = s.ep.warp.primary
        ∧ (∀ j, j < 8 → j ≠ o.plane → t.reg .plocen (Reg.epSeqWport j) = s.reg .plocen (Reg.epSeqWport j))
        ∧ t.ep.hanks = s.ep.hanks ∧ onlyPlocen s t))

/-! ### The optical links (R265-R301, R329-R334) -/

/-- LMC messages: one whose CRC fails, and one in a sky window, is discarded; IDENT is recorded or makes the port MISWIRED; PWR_A and PWR_B
are kept as the FAR
readings; TUNE changes one drive setting; STATE, STRESS and SYNC are kept, and STATE lets the next training step be entered once both
receivers have finished the present one; RXSTAMP completes an exchange (R268, R276, R277, R284, R289, R297, R380, R381). -/
def Obligations.LinkMessages : Prop :=
  (∀ (s : State) (part : Part) (port : Fin 192) (l : Lmc) (i : Identity) (rs : List Int) (x y z g : Nat) (b c : Bool) (d : List Byte),
    ∀ m ∈ [(Instr.ident part port l i, LmcMsg.ident i), (.pwrA part port l rs, .pwr false rs), (.pwrB part port l rs, .pwr true rs),
      (.tune part port l x y, .tune x y), (.swapReq part port l x y z, .swapReq x y z), (.swapAck part port l x y z, .swapAck x y z),
      (.state part port l x, .state x), (.stress part port l b, .stress b), (.sync part port l b c x y z, .sync b c x y),
      (.rxstamp part port l x y, .rxstamp x y), (.cert part port l x d, .key 1 x d), (.eph part port l x d, .key 2 x d),
      (.sig part port l x d, .key 3 x d), (.switch part port l g x, .key 4 g (leBytes 8 x)),
      (.switchAck part port l g x, .key 5 g (leBytes 8 x)), (.abort part port l x, .key 7 0 (leBytes 8 x))],
      (lmcGood l m.2 = false ∨ s.lmcRuns part port = false ∨ s.skyNow part port = true) → exec m.1 s = .next s) ∧
  (∀ (s : State) (part : Part) (port : Fin 192) (l : Lmc) (a : Nat), a = psBase part port → s.lmcRuns part port = true →
    s.skyNow part port = false →
    (∀ far : Identity, lmcGood l (.ident far) = true → far.port < 256 → s.portState part port ≠ 5 → s.portState part port ≠ 6 →
      (s.mapEntry part port = some far ∨
        (s.mapEntry part port = none ∧ (s.portState part port = 1 ∨ s.farIdentity part port = some far))) →
      ∃ t, exec (.ident part port l far) s = .next t ∧ t.farIdentity part port = some far ∧ onlyLink part port s t
        ∧ t.link part port = { s.link part port with identGot := true } ∧ regsBut s t part [a + 0x10, a + 0x14, a + 0x18]) ∧
    (∀ far e : Identity, lmcGood l (.ident far) = true → e ≠ far → s.portState part port ≠ 5 → s.portState part port ≠ 6 →
      (s.mapEntry part port = some e ∨
        (s.mapEntry part port = none ∧ s.portUp part port = true ∧ s.farIdentity part port = some e)) →
      ∃ t, exec (.ident part port l far) s = .next t ∧ t.portState part port = 6 ∧ (t.link part port).keys.tx = none
        ∧ (t.link part port).keys.rx = none ∧ otherPorts part port s t ∧ onlyPart part s t) ∧
    (∀ rs : List Int, rs.length = 5 →
      (lmcGood l (.pwr false rs) = true → ∃ t, exec (.pwrA part port l rs) s = .next t ∧ onlyLink part port s t ∧ t.link part port = s.link part port
        ∧ (∀ i < 5, t.fld part (a + 0x20 + 4 * i) 16 16 = ofSigned 16 (rs.getD i 0)
            ∧ t.fld part (a + 0x20 + 4 * i) 0 16 = s.fld part (a + 0x20 + 4 * i) 0 16)
        ∧ regsBut s t part ((List.range 5).map fun i => a + 0x20 + 4 * i)) ∧
      (lmcGood l (.pwr true rs) = true → ∃ t, exec (.pwrB part port l rs) s = .next t ∧ onlyLink part port s t ∧ t.link part port = s.link part port
        ∧ (∀ i < 5, t.fld part (a + 0x34 + 4 * i) 16 16 = ofSigned 16 (rs.getD i 0)
            ∧ t.fld part (a + 0x34 + 4 * i) 0 16 = s.fld part (a + 0x34 + 4 * i) 0 16)
        ∧ regsBut s t part ((List.range 5).map fun i => a + 0x34 + 4 * i))) ∧
    (∀ w request d : Nat, lmcGood l (.tune w request) = true → 1 ≤ request → request ≤ 6 → w < 10 → w ≠ 4 →
      d = SMap.look (fun _ => driveReset) (s.link part port).drive w →
      ∃ t, exec (.tune part port l w request) s = .next t ∧ onlyLink part port s t ∧ regsBut s t part []
        ∧ SMap.look (fun _ => driveReset) (t.link part port).drive w = setBits (8 * ((request - 1) / 2)) 8
            (if request % 2 = 1 then min (bits (8 * ((request - 1) / 2)) 8 d + 1) 255 else bits (8 * ((request - 1) / 2)) 8 d - 1) d
        ∧ t.link part port = { s.link part port with drive := (t.link part port).drive }) ∧
    (∀ (step k : Nat), lmcGood l (.state step) = true → k = (s.link part port).step →
      (s.portState part port = 1 → k < (s.link part port).rxStep → k < step →
        ∃ t, exec (.state part port l step) s = .next t ∧ (t.link part port).step = k + 1 ∧ (t.link part port).stepAt = s.now
          ∧ (t.link part port).farStep = step ∧ t.portState part port = 1 ∧ regsBut s t part [] ∧ otherPorts part port s t
          ∧ onlyPart part s t) ∧
      ((s.portState part port ≠ 1 ∨ (s.link part port).rxStep ≤ k ∨ step ≤ k) →
        ∃ t, exec (.state part port l step) s = .next t ∧ onlyLink part port s t ∧ regsBut s t part []
          ∧ t.link part port = { s.link part port with farStep := step })) ∧
    (∀ b : Bool, lmcGood l (.stress b) = true →
      ∃ t, exec (.stress part port l b) s = .next t ∧ onlyLink part port s t ∧ regsBut s t part []
        ∧ t.link part port = { s.link part port with stressed := b }) ∧
    (∀ (locked master : Bool) (depth time16 recv16 : Nat), lmcGood l (.sync locked master depth time16) = true →
      ∃ t, exec (.sync part port l locked master depth time16 recv16) s = .next t ∧ onlyLink part port s t ∧ regsBut s t part []
        ∧ t.link part port = { s.link part port with
            syncGot := some (time16, recv16, l.seq), farTime := some (locked, master, depth)
            lmcQ := (s.link part port).lmcQ ++ [.rxstamp l.seq recv16] }) ∧
    (∀ (q t1 t2 t3 t4 n : Nat) (d : Nat × Nat), lmcGood l (.rxstamp q t4) = true → (s.link part port).syncSent = some (q, t3) →
      (s.link part port).syncGot = some (t1, t2, n) →
      d = (delaySlots ((t2 : Int) - t1).toNat % 256, delaySlots ((t4 : Int) - t3).toNat % 256) →
      ((s.link part port).farTime = none →
        ∃ t, exec (.rxstamp part port l q t4) s = .next t ∧ onlyLink part port s t ∧ regsBut s t part []
          ∧ t.link part port = { s.link part port with
                syncSent := none, syncGot := none, exchAt := some s.now
                measured := if (s.link part port).step ≠ 8 then (s.link part port).measured else
                  some (delaySlots ((((t2 : Int) - t1) + ((t4 : Int) - t3)) / 2).toNat,
                    delaySlots ((((t2 : Int) - t1) + ((t4 : Int) - t3)) / 2).toNat) }) ∧
      (∀ (theta : Int) (delay depth : Nat) (m : Bool), (s.link part port).farTime = some (true, m, depth) →
        s.isParent part port = true → theta = (((t2 : Int) - t1) - ((t4 : Int) - t3)) / 2 →
        delay = ((((t2 : Int) - t1) + ((t4 : Int) - t3)) / 2).toNat →
        (s.timeAgreed part port = false ∨ s.linkDelay part port = d) →
        ∃ t, exec (.rxstamp part port l q t4) s = .next t ∧ (t.timeSt part).theta = theta ∧ (t.timeSt part).delay = delay
          ∧ (t.timeSt part).parent = some port.val ∧ (t.timeSt part).depth = min (depth + 1) 15 ∧ (t.timeSt part).holdover = none
          ∧ (t.timeSt part).exchAt = some s.now ∧ (t.link part port).syncSent = none ∧ otherPorts part port s t ∧ onlyPart part s t) ∧
      (s.timeAgreed part port = true → s.portUp part port = true → 2 ≤ (s.link part port).delayBad → s.linkDelay part port ≠ d →
        ∃ t, exec (.rxstamp part port l q t4) s = .next t ∧ wentDown part port 0x14 s t)))

/-- What the decoder makes of the codeword of a group at a lane and place, where the group holds one (R273). -/
def Sys2Proof.Claims.wordAt (g : RxGroup) (lane place : Nat) : Option (Option (List Nat × Nat)) :=
  (g.words.find? fun w => w.lane.val == lane && w.place.val == place).map fun w => rsDecode (w.symbols.map (· % 1024))

/-- Symbols that were corrected in a lane of a group (R273). -/
def Sys2Proof.Claims.corrected (g : RxGroup) (lane : Nat) : Nat :=
  ((List.range 5).map fun c => match wordAt g lane c with
    | some (some x) => x.2
    | _ => 0).sum

/-- Codewords of a lane of a group that could not be corrected (R273). -/
def Sys2Proof.Claims.uncorrected (g : RxGroup) (lane : Nat) : Nat := ((List.range 5).filter fun c => wordAt g lane c == some none).length

/-- What the checker of a wavelength makes of received bits, and how many of them are errors (R282). -/
def Sys2Proof.Claims.patternRun (s : State) (part : Part) (port : Nat) (k : Prbs) (x : RxPattern) : PrbsChecker × Nat :=
  ((SMap.find? (s.link part port).checkers x.wave).getD { got := 0, reg := 0 }).run k x.bits

/-- Loss of clock, of codewords and of alignment: LIGHT_LOST, LIGHT_RESTORED, LOC_HOLDOVER_EXPIRE (the 2 us are watched for outside sky
runs only), CLOCK_STOP_DETECT,
UNCORRECTABLE_DOWN (a codeword group is received: CORR and UNCORR count, the slots of what cannot be corrected are lost, and the sixteenth
such group in a row on two or more lanes takes the port DOWN; the errors in the bits of a test pattern count into PRBSERR), ALIGNMENT_LOST
(its CAUSE is the model's reading, log 28), and LANE_FAILED
and LOW_POWER_LANE_FAIL with no spare left (R266, R273, R278, R282, R283, R287, R297, R298). -/
def Obligations.LinkFaults : Prop :=
  ∀ (s : State) (part : Part) (port : Fin 192) (a : Nat), a = psBase part port → (port : Nat) < partPorts part →
    (s.clockWatched part port = false → exec (.lightLost part port) s = .next s ∧ exec (.clockStopDetect part port) s = .next s) ∧
    (s.watched part port = false → exec (.alignmentLost part port) s = .next s) ∧
    (s.clockWatched part port = true →
      ((s.link part port).darkAt = none →
        (∃ t, exec (.lightLost part port) s = .next t ∧ onlyLink part port s t ∧ regsBut s t part []
          ∧ t.link part port = { s.link part port with darkAt := some s.now }) ∧
        (∃ t, exec (.clockStopDetect part port) s = .next t ∧ t.flag part (a + 4) 3 = true ∧ wentDown part port 0x10 s t)) ∧
      (∀ t0, (s.link part port).darkAt = some t0 →
        (t0 + 2000 ≤ s.now → (∀ d ≤ 500, d ≤ slotOf s.now → s.inSky part port (slotOf s.now - d) = false) →
          ∃ t, exec (.locHoldoverExpire part port) s = .next t ∧ t.flag part (a + 4) 3 = true ∧ wentDown part port 0x10 s t) ∧
        (s.now < t0 + 2000 → exec (.locHoldoverExpire part port) s = .next s) ∧
        (s.now ≤ t0 + 2000 ∨ s.holdOut part port t0 = false →
          ∃ t, exec (.lightRestored part port) s = .next t ∧ onlyLink part port s t ∧ regsBut s t part []
            ∧ t.link part port = { s.link part port with darkAt := none }))) ∧
    (∀ (groups : List RxGroup) (patterns : List RxPattern), (s.skyNow part port = true ∨ (s.portUp part port = false ∧ s.portState part port ≠ 4)) →
      exec (.uncorrectableDown part port groups patterns) s = .next s) ∧
    (s.watched part port = true →
      (∀ g : RxGroup, g.lit = true → g.burst = false → slotOf g.start % 8 = (s.link part port).align →
        (∀ lane < 8, s.laneWl part port lane < 10) →
        ∃ t, exec (.uncorrectableDown part port [g] []) s = .next t
          ∧ t.reg part (a + 0x78) = satAdd 32 (s.reg part (a + 0x78)) ((List.range 8).map (uncorrected g)).sum
          ∧ (∀ w < 10, t.reg part (a + 0x50 + 4 * w) = satAdd 32 (s.reg part (a + 0x50 + 4 * w))
              (((List.range 8).filter fun lane => s.laneWl part port lane == w).map (corrected g)).sum)
          ∧ (if (nextBadRun (s.link part port).badRun g).any (fun r => decide (16 ≤ r.2)) = true then wentDown part port 0x11 s t
             else
               (t.link part port).badRun = nextBadRun (s.link part port).badRun g
                 ∧ (∀ lane < 8, ∀ c < 5, wordAt g lane c = some none → ∀ i ∈ codewordSlots c,
                     (s.now ≤ g.start + 4 * i + 4 → g.start + 4 * i ∈ (t.link part port).lost)
                       ∧ (if (s.link part port).sentIn (g.start + 4 * i) = (t.link part port).keys.rxFrame then
                            (t.link part port).keys.rxClean = false
                          else ∀ e ∈ (t.link part port).keys.rxDone,
                            e.1 = (s.link part port).sentIn (g.start + 4 * i) → e.2.2 = false))
                 ∧ onlyLink part port s t ∧ regsBut s t part (keygenReg part port :: (a + 0x78) :: (List.range 10).map fun w => a + 0x50 + 4 * w))) ∧
      (∃ t, exec (.alignmentLost part port) s = .next t ∧ wentDown part port 0x11 s t) ∧
      (∀ lane : Fin 8, s.laneDead part port lane = false → exec (.laneFailed part port lane) s = .next s) ∧
      (∀ lane : Fin 8, (s.link part port).swap = none → s.spareGone part port = true →
        (s.laneDead part port lane = true → ∃ t, exec (.laneFailed part port lane) s = .next t ∧ wentDown part port 0x12 s t) ∧
        (∃ t, exec (.lowPowerLaneFail part port lane) s = .next t ∧ t.portState part port = s.portState part port
          ∧ t.link part port = s.link part port ∧ otherPorts part port s t ∧ onlyPart part s t))) ∧
    (∀ (x : RxPattern) (k : Prbs), s.skyNow part port = false → s.portUp part port = true ∨ s.portState part port = 4 →
      s.rxPattern part port x.wave = some k →
      ∃ t, exec (.uncorrectableDown part port [] [x]) s = .next t
        ∧ t.reg part (a + 0x80 + 4 * x.wave) = satAdd 32 (s.reg part (a + 0x80 + 4 * x.wave)) (patternRun s part port k x).2
        ∧ t.link part port = { s.link part port with
            checkers := SMap.set (s.link part port).checkers x.wave (patternRun s part port k x).1 }
        ∧ onlyLink part port s t ∧ regsBut s t part [a + 0x80 + 4 * x.wave])

/-- Lane swaps: SWAP_REQ, SWAP_ACK, LANE_FAILED, LOW_POWER_LANE_FAIL and SWAP_APPLY (R287, R288, R289, R299): the displaced wavelength is
out of use until it passes a check. A receiver without an
acknowledgement at F goes by what it finds on the spare, a free value. -/
def Obligations.LaneSwaps : Prop :=
  ∀ (s : State) (part : Part) (port : Fin 192) (a : Nat), a = psBase part port → (port : Nat) < partPorts part →
    (∀ (l : Lmc) (lane reason frame : Nat), s.lmcRuns part port = true → s.skyNow part port = false → s.portUp part port = true → lane < 8 →
      (lmcGood l (.swapReq lane reason frame) = true → s.now + 1000 ≤ frameTime s.now frame → (s.link part port).swap = none →
        s.spareGone part port = false → reason ≠ 1 →
        ∃ t, exec (.swapReq part port l lane reason frame) s = .next t ∧ onlyLink part port s t ∧ regsBut s t part []
          ∧ t.link part port = { s.link part port with
              swap := some { lane := lane, reason := reason, frame := frame, asked := false, acked := true }
              lmcQ := (s.link part port).lmcQ ++ [.swapAck lane reason frame] }) ∧
      (frameTime s.now frame < s.now + 1000 → exec (.swapReq part port l lane reason frame) s = .next s) ∧
      (∀ w : Swap, lmcGood l (.swapAck lane reason frame) = true → (s.link part port).swap = some w → w.asked = true → w.lane = lane →
        w.frame = frame →
        ∃ t, exec (.swapAck part port l lane reason frame) s = .next t ∧ onlyLink part port s t ∧ regsBut s t part []
          ∧ t.link part port = { s.link part port with swap := some { w with acked := true } })) ∧
    (∀ lane : Fin 8, s.watched part port = true → (s.link part port).swap = none → s.spareGone part port = false →
      (s.laneDead part port lane = true →
        ∃ t, exec (.laneFailed part port lane) s = .next t ∧ onlyLink part port s t ∧ regsBut s t part [a + 4]
        ∧ (t.link part port).swap = some {
            lane := lane, reason := 1, frame := s.swapFrame part port % 2 ^ 32, asked := true, acked := false }
        ∧ (t.link part port).reval = none ∧ t.portState part port = s.portState part port
        ∧ (∀ r, (s.link part port).reval = some r → t.flag part (a + 4) 5 = false ∧ (t.link part port).again = some (r.cls, r.temp))) ∧
      (3 ≤ SMap.look (fun _ => 0) (s.link part port).low (s.laneWl part port lane) →
        ∃ t, exec (.lowPowerLaneFail part port lane) s = .next t ∧ onlyLink part port s t ∧ regsBut s t part []
          ∧ t.link part port = { s.link part port with
              swap := some { lane := lane, reason := 2, frame := s.swapFrame part port % 2 ^ 32, asked := true, acked := false } })) ∧
    (∀ x : Swap, (s.link part port).swap = some x → s.watched part port = true → x.lane < 8 →
      (frameDue s.now x.frame = false → exec (.swapApply part port) s = .next s) ∧
      (frameDue s.now x.frame = true →
        ∃ t, exec (.swapApply part port) s = .next t ∧ otherPorts part port s t ∧ onlyPart part s t
          ∧ (if x.asked = false ∨ x.acked = true ∨ bit 0 (Config.freeValue s.free).toNat = true then
              (t.link part port).swap = none ∧ t.laneWl part port x.lane = s.fld part (a + 0xC) 0 4
                ∧ t.reg part (a + 0xC) = s.laneWl part port x.lane + 16
                ∧ t.fld part (a + 0x7C) 0 16 = satAdd 16 (s.fld part (a + 0x7C) 0 16) 1
                ∧ ∀ j, j < 8 → j ≠ x.lane → t.laneWl part port j = s.laneWl part port j
            else
              (t.link part port).swap = some {
                  lane := x.lane, reason := x.reason, frame := s.swapFrame part port % 2 ^ 32, asked := true, acked := false }
                ∧ ∀ j, j < 8 → t.laneWl part port j = s.laneWl part port j)))

/-- Power readings and revalidation of a link: POWER_READING, REVALIDATION_START and REVALIDATION_CHECK_DONE (R284, R285, R289). -/
def Obligations.LinkReadings : Prop :=
  ∀ (s : State) (part : Part) (port : Fin 192) (a : Nat), a = psBase part port → (port : Nat) < partPorts part →
    (∀ rs : List Int, rs.length = 10 → s.skyNow part port = false →
      ∃ t, exec (.powerReading part port rs) s = .next t ∧ t.portState part port = s.portState part port
        ∧ (∀ w < 10, t.fld part (a + 0x20 + 4 * w) 0 16 = ofSigned 16 (rs.getD w 0)
            ∧ t.fld part (a + 0x20 + 4 * w) 16 16 = s.fld part (a + 0x20 + 4 * w) 16 16
            ∧ SMap.look (fun _ => 0) (t.link part port).low w =
                if s.portUp part port then (if rs.getD w 0 < -90 then SMap.look (fun _ => 0) (s.link part port).low w + 1 else 0)
                else SMap.look (fun _ => 0) (s.link part port).low w)
        ∧ t.link part port = { s.link part port with low := (t.link part port).low } ∧ otherPorts part port s t ∧ onlyPart part s t) ∧
    (∀ (cls : Bool) (temp : Int), s.watched part port = true → s.optCtl part port 2 = true → (s.link part port).reval = none →
      (s.link part port).swap = none → s.spareGone part port = false → (s.link part port).cls = cls → s.deferHeld part = false →
      (∃ lane < 8, SMap.look (fun _ => false) (s.link part port).stamps (s.laneWl part port lane) ≠ cls) →
      ∃ t r, exec (.revalidationStart part port cls temp) s = .next t ∧ t.link part port = { s.link part port with
            again := none, reval := some r, lmcQ := (s.link part port).lmcQ ++ [.stress true] }
        ∧ r.since = s.now ∧ r.temp = temp ∧ r.cls = cls ∧ r.retuned = false ∧ r.todo = List.range 8
        ∧ t.flag part (a + 4) 5 = true ∧ t.engineTemp part port = ofSigned 8 temp
        ∧ (∀ lane < 8, t.flag part (a + 0xB0 + 4 * s.laneWl part port lane) 9 = false)
        ∧ t.portState part port = s.portState part port ∧ onlyLink part port s t
        ∧ regsBut s t part ([a + 4, match part with | .ronpex => engineBase (portEngine port) + 4 | .plocen => Reg.epOptStat] ++
            (List.range 8).map fun lane => a + 0xB0 + 4 * s.laneWl part port lane)) ∧
    (∀ (r : Reval) (errors spare : Nat), (s.link part port).reval = some r → (s.link part port).swap = none → r.retuned = false →
      s.watched part port = true → spare = s.fld part (a + 0xC) 0 4 → spare < 10 →
      (errors ≤ 100000 →
        ∃ t, exec (.revalidationCheckDone part port errors) s = .next t
          ∧ t.reg part (a + 0x80 + 4 * spare) = satAdd 32 (s.reg part (a + 0x80 + 4 * spare)) errors
          ∧ (∀ lane < 8, SMap.look (fun _ => false) (t.link part port).stamps (s.laneWl part port lane) = r.cls
              ∧ t.reg part (a + 0xB0 + 4 * s.laneWl part port lane) = ofSigned 8 r.temp + 512)
          ∧ t.flag part (a + 4) 5 = false
          ∧ t.link part port = { s.link part port with
              stamps := (t.link part port).stamps, reval := none, lmcQ := (s.link part port).lmcQ ++ [.stress false] }
          ∧ onlyLink part port s t
          ∧ regsBut s t part ([a + 4, a + 0x80 + 4 * spare] ++ (List.range 8).map fun lane => a + 0xB0 + 4 * s.laneWl part port lane)) ∧
      (100000 < errors →
        ∃ t k v, exec (.revalidationCheckDone part port errors) s = .next t ∧ v < 7
          ∧ t.link part port = { s.link part port with
              checkers := SMap.drop (s.link part port).checkers spare, reval := some { r with retuned := true, corr := k }
              lmcQ := (s.link part port).lmcQ ++ [.stress false, .tune spare v, .tune spare 7] }
          ∧ regsBut s t part [a + 0x80 + 4 * spare] ∧ onlyLink part port { s with free := s.free + 1 } t)) ∧
    (∀ errors spare : Nat, (s.link part port).reval = none → (s.link part port).swap = none → s.watched part port = true →
      spare = s.fld part (a + 0xC) 0 4 → spare < 10 →
      ∃ t, exec (.revalidationCheckDone part port errors) s = .next t ∧ t.spareGone part port = decide (10000 < errors)
        ∧ t.reg part (a + 0x80 + 4 * spare) = satAdd 32 (s.reg part (a + 0x80 + 4 * spare)) errors
        ∧ t.link part port = s.link part port ∧ onlyLink part port s t ∧ regsBut s t part [a + 0xC, a + 0x80 + 4 * spare])

/-- Training and the modes of a port: TRAINING_STEP_DONE, TRAINING_STEP_TIMEOUT, DOWN_RETRY, PORT_MODE, COUNTER_CLR, WEFT_LPI_ENTER
and LMC_MESSAGE_SEND (R6, R24, R268, R275, R276, R278, R281, R299, R330, R399): where key agreement has timed out or failed, ABORT is
sent before the port goes DOWN. That a port of a 4-module fit stays OFF is log 131's. -/
def Obligations.LinkTraining : Prop :=
  ∀ (s : State) (part : Part) (port : Fin 192) (a : Nat), a = psBase part port → (port : Nat) < partPorts part →
    (s.portState part port = 1 →
      (∀ (din dout k : Nat) (errors : List Nat), k = (s.link part port).step →
        ((k = 2 ∨ k = 5) → (s.link part port).rxStep ≤ k →
          ∃ t, exec (.trainingStepDone part port din dout errors) s = .next t ∧ regsBut s t part [] ∧ otherPorts part port s t
            ∧ onlyLink part port s t
            ∧ t.link part port = (if k < (s.link part port).farStep then { s.link part port with
                rxStep := k + 1, step := k + 1, stepAt := s.now, checkers := [], lmcQ := (s.link part port).lmcQ ++ [.state (k + 1)] }
              else { s.link part port with rxStep := k + 1, lmcQ := (s.link part port).lmcQ ++ [.state (k + 1)] })) ∧
        (k = 3 → (s.link part port).identGot = false → exec (.trainingStepDone part port din dout errors) s = .next s) ∧
        (k = 6 → (s.link part port).rxStep = 6 → (∃ lane < 8, 10000 < errors.getD (s.laneWl part port lane) 0) →
          ∃ t, exec (.trainingStepDone part port din dout errors) s = .next t ∧ onlyLink part port s t
            ∧ t.link part port = s.link part port ∧ regsBut s t part ((List.range 10).map fun w => a + 0x80 + 4 * w)
            ∧ (∀ w, w < 10 → w ≠ 4 → w < errors.length →
                t.reg part (a + 0x80 + 4 * w) = satAdd 32 (s.reg part (a + 0x80 + 4 * w)) (errors.getD w 0))) ∧
        (k = 8 →
          ∃ t, exec (.trainingStepDone part port din dout errors) s = .next t
            ∧ t.portState part port = (if s.fld part a 0 2 = 2 then 4 else 2) ∧ (t.link part port).step = 0
            ∧ t.linkDelay part port =
                (((s.link part port).measured.getD (din, dout)).1 % 256, ((s.link part port).measured.getD (din, dout)).2 % 256)
            ∧ otherPorts part port s t ∧ onlyPart part s t)) ∧
      ((s.link part port).step ≤ 8 → (s.link part port).stepAt + stepLimit (s.link part port).step ≤ s.now →
        ((s.link part port).step ≠ 7 →
          ∃ t, exec (.trainingStepTimeout part port) s = .next t ∧ wentDown part port (s.link part port).step s t) ∧
        ((s.link part port).step = 7 → (s.link part port).keys.failed = none →
          ∃ t, exec (.trainingStepTimeout part port) s = .next t ∧ aborts part port 4 s t))) ∧
    (∀ t0 : Nat, (s.link part port).downAt = some t0 → s.portState part port = 5 → s.fld part a 0 2 = 1 → t0 + 100000000 ≤ s.now →
      (part = .ronpex → s.regionOff (portEngine port) = false) → s.heldDown part port = false →
      ∃ t, exec (.downRetry part port) s = .next t ∧ otherPorts part port s t ∧ onlyPart part s t
        ∧ (if part = .ronpex ∧ s.pstFenced (416 + port) = true then t.portState part port = 5
           else t.portState part port = 1 ∧ (t.link part port).step = 1 ∧ (t.link part port).stepAt = s.now
             ∧ (t.link part port).downAt = none)) ∧
    (∀ (v : Word) (w : Writer), (part = .ronpex → rpTakes s w) → (part = .plocen → s.attOn = true) →
      ((v.toNat % 4 = 1 ∨ v.toNat % 4 = 2) → s.portState part port = 0 →
        (part = .ronpex → s.regionOff (portEngine port) = false) →
        ∃ t, exec (.portMode part port v w) s = .next t ∧ t.reg part a = v.toNat % 16 ∧ otherPorts part port s t ∧ onlyPart part s t
          ∧ (if s.heldDown part port = true then t.portState part port = 0
             else if part = .ronpex ∧ s.pstFenced (416 + port) = true then t.portState part port = 5
             else t.portState part port = 1 ∧ (t.link part port).step = 1 ∧ (t.link part port).lmcQ = [.state 1])) ∧
      ((v.toNat % 4 = 0 ∨ v.toNat % 4 = 3) → s.portState part port ≠ 0 →
        ∃ t, exec (.portMode part port v w) s = .next t ∧ t.portState part port = 0 ∧ (t.link part port).keys.tx = none
          ∧ t.reg part a = v.toNat % 16 ∧ otherPorts part port s t ∧ onlyPart part s t) ∧
      (bit 4 v.toNat = true → modeOf v.toNat = modeOf (s.reg part a) → modeOf v.toNat ≠ 0 → s.portState part port ≠ 0 →
        s.portState part port ≠ 6 →
        ∃ t, exec (.counterClr part port v w) s = .next t ∧ t.reg part (a + 0x78) = 0
          ∧ (∀ k < 10, t.reg part (a + 0x50 + 4 * k) = 0 ∧ t.reg part (a + 0x80 + 4 * k) = 0)
          ∧ t.portState part port = s.portState part port ∧ t.link part port = s.link part port ∧ otherPorts part port s t
          ∧ onlyPart part s t)) ∧
    (s.portState part port = 2 → s.optCtl part port 1 = true → 64 ≤ (s.link part port).fillRun → s.groupPos part port = 0 →
      (s.link part port).lpiExit = none → s.txUseAt part s.now port ≠ 1 → s.warpSoon part port = false →
      (part = .ronpex → ∀ n < 64,
        bit 7 (bits (8 * (n % 4)) 8 (s.reg .ronpex (clusterBase (portCluster port) + 0x50000 + 0x40 * (port % 4) + 4 * (n / 4)))) = false) →
      ∃ t, exec (.weftLpiEnter part port) s = .next t ∧ t.portState part port = 3 ∧ onlyLink part port s t
        ∧ t.link part port = { s.link part port with weftLpi := some s.now } ∧ regsBut s t part [a + 4]) ∧
    (∀ (cause : Nat) (d : List Byte), s.lmcRuns part port = true → s.skyNow part port = false →
      (∀ t0, (s.link part port).lmcAt = some t0 → 5 * t0 + 8192 ≤ 5 * s.now) → (s.link part port).keys.failed = some cause →
      (s.link part port).lmcQ.head? = some (.key 7 0 d) → s.now % frameNs < 100 → s.portState part port ≠ 5 → s.portState part port ≠ 6 →
      ∃ t, exec (.lmcMessageSend part port) s = .next t ∧ wentDown part port cause s t
        ∧ Out.lmc part port (s.link part port).lmcSeq (.key 7 0 d)
            (manchester (lmcFrame (LmcMsg.key 7 0 d).wire.1 (s.link part port).lmcSeq (LmcMsg.key 7 0 d).wire.2)) ∈ t.out) ∧
    (s.lmcRuns part port = true → s.skyNow part port = false → (s.link part port).keys.failed = none →
      (∀ t0, (s.link part port).lmcAt = some t0 → 5 * t0 + 8192 ≤ 5 * s.now) →
      ∃ t m, exec (.lmcMessageSend part port) s = .next t 
        ∧ t.out = .lmc part port (s.link part port).lmcSeq m (manchester (lmcFrame m.wire.1 (s.link part port).lmcSeq m.wire.2)) :: s.out
        ∧ (t.link part port).lmcAt = some s.now ∧ (t.link part port).lmcSeq = ((s.link part port).lmcSeq + 1) % 256
        ∧ onlyLink part port s { t with out := s.out } ∧ regsBut s t part []
        ∧ (∀ x r, (s.link part port).lmcQ = x :: r → s.now % frameNs < 100 → (∀ f d, x ≠ .key 6 f d) → (s.link part port).swap = none →
            m = x ∧ (t.link part port).lmcQ = r))

/-- Key agreement in training: CERT, EPH and SIG are collected; once the three are whole they are checked, and the keys that the
agreement derives are used, with both block counters at 0, or ABORT goes out with the reason; an ABORT received takes the port DOWN
(R329-R331). -/
def Obligations.KeyAgreement : Prop :=
  ∀ (s : State) (part : Part) (port : Fin 192) (l : Lmc), s.lmcRuns part port = true → s.skyNow part port = false →
    s.portState part port = 1 →
    ((s.link part port).keys.own = none → ∀ (f : Nat) (d : List Byte),
      (lmcGood l (.key 1 f d) = true → ∃ t, exec (.cert part port l f d) s = .next t ∧ onlyLink part port s t ∧ regsBut s t part []
        ∧ t.link part port = { s.link part port with keys := { (s.link part port).keys with
            cert := spliceBytes (s.link part port).keys.cert (8 * f) (sliceBytes d 0 8) } }) ∧
      (lmcGood l (.key 2 f d) = true → ∃ t, exec (.eph part port l f d) s = .next t ∧ onlyLink part port s t ∧ regsBut s t part []
        ∧ t.link part port = { s.link part port with keys := { (s.link part port).keys with
            eph := spliceBytes (s.link part port).keys.eph (8 * f) (sliceBytes d 0 8) } }) ∧
      (lmcGood l (.key 3 f d) = true → ∃ t, exec (.sig part port l f d) s = .next t ∧ onlyLink part port s t ∧ regsBut s t part []
        ∧ t.link part port = { s.link part port with keys := { (s.link part port).keys with
            sig := spliceBytes (s.link part port).keys.sig (8 * f) (sliceBytes d 0 8) } })) ∧
    (∀ (n f : Nat) (d g : List Byte) (far : Identity), lmcGood l (.key 3 f d) = true → (s.link part port).step = 7 →
      (s.link part port).keys.own = some n →
      (s.link part port).keys.rekeyAt = none → (s.link part port).keys.failed = none → s.farIdentity part port = some far →
      g = spliceBytes (s.link part port).keys.sig (8 * f) (sliceBytes d 0 8) → keyWhole g = true →
      keyWhole (s.link part port).keys.eph = true → keyWhole (s.link part port).keys.cert = true →
      ∃ t, exec (.sig part port l f d) s = .next t ∧
        if Config.chainVerifies (keyObject (s.link part port).keys.cert) = true
            ∧ Config.chainSerial (keyObject (s.link part port).keys.cert) = far.serial
            ∧ Config.signatureVerifies (keyObject (s.link part port).keys.cert)
                (leBytes 48 (Config.sha384 (s.transcript part port far)).toNat) (keyObject g) = true then
          (t.link part port).keys.tx = some (s.newKeys part port far).1 ∧ (t.link part port).keys.rx = some (s.newKeys part port far).2
            ∧ (t.link part port).keys.txCnt = 0 ∧ (t.link part port).keys.rxCnt = 0 ∧ (t.link part port).keys.accepted = true
            ∧ t.fld part (keygenReg part port) 0 16 = satAdd 16 (s.fld part (keygenReg part port) 0 16) 1
            ∧ t.portState part port = 1 ∧ onlyLink part port s t ∧ regsBut s t part [keygenReg part port]
        else aborts part port
          (if Config.chainVerifies (keyObject (s.link part port).keys.cert) = false then 1
           else if Config.chainSerial (keyObject (s.link part port).keys.cert) ≠ far.serial then 3 else 2) s t) ∧
    (∀ reason : Nat, lmcGood l (.key 7 0 (leBytes 8 reason)) = true → (s.link part port).step = 7 → (s.link part port).keys.rekeyAt = none →
      (s.link part port).keys.failed = none → ∃ t, exec (.abort part port l reason) s = .next t ∧ wentDown part port 7 s t)

/-- Rekeying and frame tags: REKEY_START, SWITCH, SWITCH_ACK, KEY_SWITCH_APPLY, REKEY_SWITCH_RETRY, REKEY_TIMEOUT and FRAMETAG
(R332, R333): from F' both directions use the new keys; an end that acknowledged keeps the old ones by, and goes back to them where the
first 4 blocks after F' fail under the new key and pass under the old one. -/
def Obligations.Rekeying : Prop :=
  ∀ (s : State) (part : Part) (port : Fin 192) (l : Lmc) (k : LinkKeys), k = (s.link part port).keys →
    (s.portUp part port = true → k.tx.isSome = true → k.rekeyAt = none → 2 ^ s.rekeyExp part ≤ k.txCnt →
      ∃ t, exec (.rekeyStart part port) s = .next t ∧ onlyLink part port { s with free := s.free + 1 } t ∧ regsBut s t part []
        ∧ t.link part port = { s.link part port with
            keys := { k with rekeyAt := some s.now, starter := true, eph := [], sig := [], own := some s.free
                             sigOut := false, accepted := false }
            lmcQ := (s.link part port).lmcQ ++ keyFrags 2 (ephPoint part port s.free) }) ∧
    (∀ gen frame : Nat, s.lmcTaken part port l (.key 4 gen (leBytes 8 frame)) = true → s.portUp part port = true → k.fresh.isSome = true →
      ∃ t, exec (.switch part port l gen frame) s = .next t ∧ onlyLink part port s t ∧ regsBut s t part []
        ∧ t.link part port = { s.link part port with
            keys := { k with switch := some (gen, frame, true) }
            lmcQ := (s.link part port).lmcQ ++ [.key 5 gen (leBytes 8 frame)] }) ∧
    (∀ (gen frame : Nat) (b : Bool), s.lmcTaken part port l (.key 5 gen (leBytes 8 frame)) = true → k.switch = some (gen, frame, b) →
      ∃ t, exec (.switchAck part port l gen frame) s = .next t ∧ onlyLink part port s t ∧ regsBut s t part []
        ∧ t.link part port = { s.link part port with keys := { k with switch := some (gen, frame, true) } }) ∧
    (∀ (x y : BitVec 288) (gen f : Nat), k.fresh = some (x, y) → k.switch = some (gen, f, true) → s.portUp part port = true →
      (frameDue s.now f = false → exec (.keySwitchApply part port) s = .next s) ∧
      (frameDue s.now f = true →
        ∃ t, exec (.keySwitchApply part port) s = .next t ∧ onlyLink part port s t ∧ regsBut s t part [keygenReg part port]
          ∧ t.fld part (keygenReg part port) 0 16 = satAdd 16 (s.fld part (keygenReg part port) 0 16) 1
          ∧ t.link part port = { s.link part port with keys := { k with
              tx := some x, txCnt := 0, rxNext := some (y, s.now + 4 * (s.link part port).delayIn), fresh := none, switch := none
              rekeyAt := none, starter := false
              old := if k.starter = true then none else some {
                tx := k.tx.getD 0, rx := k.rx.getD 0, txCnt := k.txCnt, rxCnt := k.rxCnt, gen := s.fld part (keygenReg part port) 0 16
                since := k.rekeyAt.getD s.now, fresh := (x, y), tried := 0 } } })) ∧
    (∀ (o : OldKeys) (y : BitVec 288) (b : Block), k.old = some o → k.rx = some y → k.rxNext = none → (s.link part port).pend = [] →
      if crcHolds (blockBytes b) = true ∨ crcHolds (blockPlain o.rx (o.rxCnt + o.tried) (blockCipher y k.rxCnt (blockBytes b))) = false then
        ((s.rxBlock part port b).link part port).keys.old = none ∧ ((s.rxBlock part port b).link part port).keys.rx = some y
          ∧ ((s.rxBlock part port b).link part port).keys.tx = k.tx
      else if o.tried < 3 then
        ((s.rxBlock part port b).link part port).keys.old = some { o with tried := o.tried + 1 }
          ∧ ((s.rxBlock part port b).link part port).keys.rx = some y
      else
        ((s.rxBlock part port b).link part port).keys.tx = some o.tx ∧ ((s.rxBlock part port b).link part port).keys.rx = some o.rx
          ∧ ((s.rxBlock part port b).link part port).keys.fresh = some o.fresh
          ∧ ((s.rxBlock part port b).link part port).keys.rekeyAt = some o.since
          ∧ (s.rxBlock part port b).fld part (keygenReg part port) 0 16 = o.gen % 2 ^ 16) ∧
    (∀ gen f : Nat, k.switch = some (gen, f, false) → k.starter = true → frameTime s.now f ≤ s.now + 1000 →
      ∃ t, exec (.rekeySwitchRetry part port) s = .next t ∧ onlyLink part port s t ∧ regsBut s t part []
        ∧ t.link part port = { s.link part port with keys := { k with switch := some (gen, s.switchFrame, false) } }) ∧
    (∀ t0 : Nat, k.rekeyAt = some t0 → t0 + 10000000 ≤ s.now → s.watched part port = true →
      ∃ t, exec (.rekeyTimeout part port) s = .next t ∧ wentDown part port 0x13 s t) ∧
    (∀ (f : Nat) (x : BitVec 128) (clean good : Bool) (tag : BitVec 64), k.rxDone = [(f, x, clean)] → s.lmcRuns part port = true →
      s.skyNow part port = false → good = lmcGood l (.key 6 (f % 4096) (leBytes 8 tag.toNat)) →
      (good = false →
        ∃ t, exec (.frametag part port l (f % 4096) tag) s = .next t ∧ onlyLink part port s t ∧ t.link part port = s.link part port
          ∧ t.fld part (tagstatReg part port) 16 16 = satAdd 16 (s.fld part (tagstatReg part port) 16 16) 1
          ∧ t.fld part (tagstatReg part port) 0 16 = s.fld part (tagstatReg part port) 0 16
          ∧ regsBut s t part [tagstatReg part port]) ∧
      (good = true → clean = true → x.toNat % 2 ^ 64 = tag.toNat →
        ∃ t, exec (.frametag part port l (f % 4096) tag) s = .next t ∧ onlyLink part port s t ∧ regsBut s t part []
          ∧ t.link part port = { s.link part port with keys := { k with rxDone := [] } }) ∧
      (good = true → clean = true → x.toNat % 2 ^ 64 ≠ tag.toNat → k.bad = [] →
        ∃ t, exec (.frametag part port l (f % 4096) tag) s = .next t
          ∧ t.fld part (tagstatReg part port) 0 16 = satAdd 16 (s.fld part (tagstatReg part port) 0 16) 1
          ∧ t.flag part (match part with | .ronpex => Reg.secErr | .plocen => Reg.epSecErr) 0 = true
          ∧ t.link part port = { s.link part port with keys := { k with rxDone := [], bad := [f] } }
          ∧ otherPorts part port s t ∧ onlyPart part s t))

/-- Feeds and emitters: FEED_TRIP, FEED_REVERT, FEED_REVERT_CMD, FEED_FORCE, EMITTER_FAIL, EP_EMITTER_FAIL and BIAS_EVAL (R286, R292,
R293, R296, R299). A wavelength moves where its selected feed falls FEED_TRIP below its reference; REVERT moves back those whose primary
feed has been stable for 1 s, and those on which a changeover is in progress wait for it (the first reference is log 153's, the following
of a changeover log 152's). -/
def Obligations.Feeds : Prop :=
  ∀ s : State,
    (∀ (e : Fin 16) (w : Fin 10) (pri stby : Int) (sel : Bool), sel = s.flag .ronpex (engineBase e + 4) w →
      (∀ r : Int, SMap.find? s.rp.lasers.refs (feedKey e w sel) = some r →
        ∃ t, exec (.feedTrip e ⟨w, pri, stby⟩) s = .next t
          ∧ t.flag .ronpex (engineBase e + 4) w
              = (if (if sel then stby else pri) ≤ r - 10 * (max (s.fld .ronpex (engineBase e) 4 4) 1 : Nat) then !sel else sel)
          ∧ (∀ v : Fin 10, v ≠ w → t.flag .ronpex (engineBase e + 4) v = s.flag .ronpex (engineBase e + 4) v)
          ∧ t.fld .ronpex (engineBase e + 0x10 + 4 * w) 0 16 = ofSigned 16 pri
          ∧ t.fld .ronpex (engineBase e + 0x10 + 4 * w) 16 16 = ofSigned 16 stby
          ∧ t.rp.links = s.rp.links ∧ onlyRonpex s t) ∧
      (SMap.find? s.rp.lasers.refs (feedKey e w sel) = none →
        ∃ t, exec (.feedTrip e ⟨w, pri, stby⟩) s = .next t ∧ t.flag .ronpex (engineBase e + 4) w = sel
          ∧ SMap.find? t.rp.lasers.refs (feedKey e w sel) = some (if sel then stby else pri) ∧ onlyRonpex s t) ∧
      (∀ (r : Int) (t0 : Nat), SMap.find? s.rp.lasers.refs (feedKey e w false) = some r →
        SMap.find? s.rp.lasers.steady (feedKey e w false) = some t0 → s.flag .ronpex (engineBase e) 3 = true →
        t0 + 1000000000 ≤ s.now → s.now % frameNs = 0 → s.feedWaits e w = false →
        ∃ t, exec (.feedRevert e ⟨w, pri, stby⟩) s = .next t
          ∧ t.flag .ronpex (engineBase e + 4) w = (if r - 10 ≤ pri ∧ pri ≤ r + 10 then false else sel)
          ∧ (∀ v : Fin 10, v ≠ w → t.flag .ronpex (engineBase e + 4) v = s.flag .ronpex (engineBase e + 4) v)
          ∧ t.rp.links = s.rp.links ∧ onlyRonpex s t)) ∧
    (∀ (e : Fin 16) (v : Word) (wr : Writer), rpTakes s wr →
      (bits 0 10 v.toNat = 0 →
        ∃ t, exec (.feedForce e v wr) s = .next t ∧ t.rp.links = s.rp.links ∧ onlyRonpex s t
          ∧ ∀ w : Fin 10, t.flag .ronpex (engineBase e + 4) w = (s.flag .ronpex (engineBase e + 4) w || bit (10 + w) v.toNat)) ∧
      (bits 10 10 v.toNat = 0 →
        ∃ t, exec (.feedRevertCmd e v wr) s = .next t ∧ t.rp.links = s.rp.links ∧ onlyRonpex s t
          ∧ ∀ w : Fin 10, t.flag .ronpex (engineBase e + 4) w =
                (s.flag .ronpex (engineBase e + 4) w && !(bit w v.toNat && s.feedStable e w && !s.feedWaits e w))
              ∧ (bit w v.toNat = true → s.feedStable e w = true → s.feedWaits e w = true → 16 * e.val + w.val ∈ t.rp.lasers.wanted))) ∧
    (∀ (m : Fin 4) (w : Fin 10) (over_ : Bool),
      ∃ t, exec (.emitterFail m w over_) s = .next t ∧ t.flag .ronpex (Reg.lasStat m) 2 = true
        ∧ t.flag .ronpex (Reg.lasErr m) (if over_ then 3 else 1) = true ∧ m.val ∈ t.rp.lasers.alert
        ∧ t.rp.lasers.reqs.length = s.rp.lasers.reqs.length + 2 ∧ t.rp.links = s.rp.links ∧ onlyRonpex s t
        ∧ (over_ = false → SMap.find? t.rp.lasers.follow (lasKey m w) = some s.now)) ∧
    (∀ (w : Fin 10) (b : Bool),
      ∃ t, exec (.epEmitterFail w b) s = .next t ∧ t.flag .plocen (Reg.epOptEmit w) (if b then 13 else 12) = true
        ∧ t.flag .plocen Reg.epOptErr 2 = true ∧ t.flag .plocen Reg.epAttErr errOptics = true
        ∧ regsBut s t .plocen [Reg.epOptEmit w, Reg.epOptErr, Reg.epAttErr] ∧ onlyPlocen s t) ∧
    ((s.flag .plocen Reg.epOptCtl 3 = false ∨ s.now < s.ep.evalAt + evalPeriod (s.reg .plocen Reg.epOptEval)) →
      exec (.biasEval .plocen 0) s = .next s) ∧
    (s.flag .plocen Reg.epOptCtl 3 = true → s.ep.evalAt + evalPeriod (s.reg .plocen Reg.epOptEval) ≤ s.now →
      (∀ p, p < 8 → s.portUp .plocen p = decide (p = 0)) →
      ∃ t, exec (.biasEval .plocen 0) s = .next t ∧ t.ep.evalAt = s.now ∧ onlyPlocen s t ∧
        ∀ w : Fin 10, t.fld .plocen (Reg.epOptEmit w) 0 12 =
          if (s.flag .plocen (Reg.epOptEmit w) 12 && s.flag .plocen (Reg.epOptEmit w) 13) = false
              ∧ signed 16 (s.fld .plocen (psBase .plocen 0 + 0x20 + 4 * w) 16 16) < -70
              ∧ s.fld .plocen (Reg.epOptEmit w) 0 12 < s.fld .plocen (Reg.epOptEmit w) 16 12 then
            min (s.fld .plocen (Reg.epOptEmit w) 0 12 + max (s.fld .plocen Reg.epOptEval 16 8) 1) (s.fld .plocen (Reg.epOptEmit w) 16 12)
          else s.fld .plocen (Reg.epOptEmit w) 0 12) ∧
    (∀ m : Fin 4,
      ((s.flag .ronpex (Reg.lasCtl m) 1 = false ∨
          s.now < SMap.look (fun _ => 0) s.rp.lasers.evalAt m + evalPeriod (s.reg .ronpex Reg.lasEval)) →
        exec (.biasEval .ronpex m) s = .next s) ∧
      (∀ q : Fin 10 → Nat, s.flag .ronpex (Reg.lasCtl m) 1 = true →
        SMap.look (fun _ => 0) s.rp.lasers.evalAt m + evalPeriod (s.reg .ronpex Reg.lasEval) ≤ s.now →
        (∀ w : Fin 10, s.lasKnown m w = true ∧ s.lasLases m w = true ∧ s.fedPorts m w = [q w]) →
        ∃ t, exec (.biasEval .ronpex m) s = .next t ∧ SMap.look (fun _ => 0) t.rp.lasers.evalAt m = s.now ∧ onlyRonpex s t ∧
          ∀ w : Fin 10, t.fld .ronpex (Reg.lasBias m w) 0 12 =
            if signed 16 (s.fld .ronpex (psBase .ronpex (q w) + 0x20 + 4 * w) 16 16) < -70
                ∧ s.fld .ronpex (Reg.lasBias m w) 0 12 < s.fld .ronpex (Reg.lasBias m w) 16 12 then
              min (s.fld .ronpex (Reg.lasBias m w) 0 12 + max (s.fld .ronpex Reg.lasEval 16 8) 1) (s.fld .ronpex (Reg.lasBias m w) 16 12)
            else s.fld .ronpex (Reg.lasBias m w) 0 12))

/-- Accesses of a laser module: LAS_ACCESS_GO sends the request, LAS_REPLY ends it, LAS_REPLY_TIMEOUT sends it again up to three times
and then sets LINK (R294, R300). -/
def Obligations.LaserAccess : Prop :=
  ∀ (s : State) (m : Fin 4),
    (∀ (v : Word) (wr : Writer), rpTakes s wr → bit 9 v.toNat = true → s.flag .ronpex (Reg.lasAccess m) 10 = false →
      s.lasFirst m = none →
      ∃ t, exec (.lasAccessGo m v wr) s = .next t ∧ t.flag .ronpex (Reg.lasAccess m) 10 = true
        ∧ t.flag .ronpex (Reg.lasAccess m) 11 = false ∧ t.fld .ronpex (Reg.lasAccess m) 0 9 = bits 0 9 v.toNat
        ∧ t.out.head? = some (.las m (lasWire (lasFrame (if bit 8 v.toNat then 0x02 else 0x01) (v.toNat % 256)
            (SMap.look (fun _ => 0) s.rp.lasers.seq m) (BitVec.ofNat 32 (s.reg .ronpex (Reg.lasData m))).toNat)))
        ∧ SMap.look (fun _ => 0) t.rp.lasers.seq m = (SMap.look (fun _ => 0) s.rp.lasers.seq m + 1) % 256
        ∧ t.rp.links = s.rp.links ∧ onlyRonpex s t) ∧
    (∀ q : LasReq, s.lasFirst m = some q →
      (∀ r : LasReply, lasGood r = false → q.tries < 4 →
        ∃ t, exec (.lasReply m r) s = .next t ∧ t.rp.regs = s.rp.regs ∧ onlyRonpex s t
          ∧ t.out = .las m (lasWire (lasFrame (if q.write then 0x02 else 0x01) q.addr q.seq q.data.toNat)) :: s.out) ∧
      (∀ r : LasReply, lasGood r = true → r.seq = q.seq → q.write = false → q.user = true →
        (r.op = 0x81 →
          ∃ t, exec (.lasReply m r) s = .next t ∧ t.flag .ronpex (Reg.lasAccess m) 10 = false
            ∧ t.flag .ronpex (Reg.lasAccess m) 11 = false ∧ t.reg .ronpex (Reg.lasData m) = r.data.toNat
            ∧ t.flag .ronpex (Reg.lasStat m) 0 = true ∧ t.rp.lasers.reqs.length + 1 = s.rp.lasers.reqs.length ∧ onlyRonpex s t) ∧
        (r.op = 0xE0 →
          ∃ t, exec (.lasReply m r) s = .next t ∧ t.flag .ronpex (Reg.lasAccess m) 10 = false
            ∧ t.flag .ronpex (Reg.lasAccess m) 11 = true ∧ t.reg .ronpex (Reg.lasData m) = s.reg .ronpex (Reg.lasData m)
            ∧ t.rp.lasers.reqs.length + 1 = s.rp.lasers.reqs.length ∧ onlyRonpex s t)) ∧
      (s.now < q.sentAt + 4000 → exec (.lasReplyTimeout m) s = .next s) ∧
      (q.sentAt + 4000 ≤ s.now → q.tries < 4 →
        ∃ t, exec (.lasReplyTimeout m) s = .next t ∧ 
          t.out = .las m (lasWire (lasFrame (if q.write then 0x02 else 0x01) q.addr q.seq q.data.toNat)) :: s.out
          ∧ t.lasFirst m = some { q with tries := q.tries + 1, sentAt := s.now } ∧ t.rp.regs = s.rp.regs ∧ onlyRonpex s t) ∧
      (q.sentAt + 4000 ≤ s.now → 4 ≤ q.tries → q.user = true →
        ∃ t, exec (.lasReplyTimeout m) s = .next t ∧ t.flag .ronpex (Reg.lasErr m) 0 = true
          ∧ t.flag .ronpex (Reg.lasStat m) 0 = false ∧ t.flag .ronpex (Reg.lasAccess m) 10 = false
          ∧ t.flag .ronpex (Reg.lasAccess m) 11 = true ∧ t.rp.lasers.reqs.length + 1 = s.rp.lasers.reqs.length ∧ onlyRonpex s t))

/-! ### Skeins (R302-R304, R318, R342) -/

/-- CLAIM, ACTIVATE, QUIESCE and RELEASE are checked at once: one that passes waits for its frame boundary, the first at least 1 us later,
and one that fails shows its RESULT and changes nothing else; SKEIN_COMMAND_EFFECT gives the skein its state there, and a release takes
the skein's ports and budgets from it (R303, R319). -/
def Obligations.SkeinCommands : Prop :=
  (∀ (s u : State) (k : Fin 64) (w : Writer) (op r : Nat) (c : Instr), rpTakes s w →
    (op = 1 ∧ c = .claim k w ∨ op = 2 ∧ c = .activate k w ∨ op = 3 ∧ c = .quiesce k w ∨ op = 4 ∧ c = .release k w) →
    u = s.logWrite .ronpex Reg.sknCmd (sknCmdValue k op) w → r = u.cmdResult k op →
    (r = 0 →
      ∃ t, exec c s = .next t
        ∧ t.rp.skeins = { s.rp.skeins with cmd := some {
            op := op, skein := k, effect := s.frameAfter 1000 * frameNs, template := none } }
        ∧ t.reg .ronpex Reg.sknStat = k ∧ regsBut s t .ronpex [Reg.sknStat, Reg.logLost]
        ∧ t = { s with rp := { s.rp with regs := t.rp.regs, log := t.rp.log, skeins := t.rp.skeins } }) ∧
    (r ≠ 0 →
      ∃ t, exec c s = .next t ∧ t.fld .ronpex Reg.sknStat 8 8 = r ∧ regsBut s t .ronpex [Reg.sknStat, Reg.logLost]
        ∧ t = { s with rp := { s.rp with regs := t.rp.regs, log := t.rp.log } })) ∧
  (∀ (s : State) (c : SkeinCmd), s.rp.skeins.cmd = some c → 1 ≤ c.op → c.op ≤ 4 → c.skein < 64 → c.template = none →
    (s.now < c.effect → exec .skeinCommandEffect s = .next s) ∧
    (c.effect ≤ s.now →
      ∃ t, exec .skeinCommandEffect s = .next t ∧ t.rp.skeins.cmd = none
        ∧ t.skeinState c.skein = (if c.op = 2 then 2 else if c.op = 4 then 0 else 1)
        ∧ t.reg .ronpex Reg.sknFrame = frameOf c.effect % 2 ^ 32
        ∧ (∀ j, j < 64 → j ≠ c.skein → t.skeinState j = s.skeinState j)
        ∧ (c.op = 4 →
            (∀ p, p < 192 → s.fld .ronpex (Reg.sknPort p) 0 6 = c.skein → t.fld .ronpex (Reg.sknPort p) 0 7 = 0) ∧
            ∀ i, i < 4 → t.reg .ronpex (Reg.budWeft c.skein + 4 * i) = budReset i)
        ∧ t.rp.links = s.rp.links ∧ onlyRonpex s t))

/-- Membership, scrub and tenant records: PORT_ASSIGN, ASSIGN, ASSIGN_ACK, CONF_SCRUB_DONE and TENANT_RECORD_RELEASE (R304, R318,
R342, R392). SENT says that the end point has acknowledged the assignment that the port has now. A message from a node that the part does
not accept changes no register of the assignment. -/
def Obligations.Membership : Prop :=
  ∀ s : State,
    (∀ (port : Fin 192) (v : Word) (w : Writer), rpTakes s w →
      ∃ t, exec (.portAssign port v w) s = .next t
        ∧ t.reg .ronpex (Reg.sknPort port) = bits 0 7 v.toNat + 256 * bits 8 15 v.toNat
        ∧ (∀ q, q < 192 → q ≠ port.val → t.reg .ronpex (Reg.sknPort q) = s.reg .ronpex (Reg.sknPort q))
        ∧ t.rp.skeins = s.rp.skeins ∧ onlyRonpex s t) ∧
    (∀ (p : Fin 8) (src : MgmtSource) (k slots epoch node : Nat) (b : Bool),
      (s.epMgmtOk p src.node = true →
        ∃ t, exec (.assign p src k b slots epoch node) s = .next t
          ∧ t.reg .plocen Reg.epSecAssign = k % 64 + 64 * ofBool b + 128 + 2 ^ 16 * (slots % 2 ^ 13)
          ∧ t.reg .plocen Reg.epSecNode = node % 2 ^ 15 + 2 ^ 15 ∧ t.fld .plocen Reg.epSeqEpoch 0 16 = epoch % 2 ^ 16
          ∧ (s.fld .plocen Reg.epSecAssign 0 6 = k → s.fld .plocen Reg.epSecNode 0 15 = node → t.ep.sec = s.ep.sec)
          ∧ t.ep.hanks = s.ep.hanks ∧ onlyPlocen s t) ∧
      (s.epMgmtOk p src.node = false →
        ∃ t, exec (.assign p src k b slots epoch node) s = .next t
          ∧ t.reg .plocen Reg.epSecAssign = s.reg .plocen Reg.epSecAssign ∧ t.reg .plocen Reg.epSecNode = s.reg .plocen Reg.epSecNode
          ∧ t.ep.sec = s.ep.sec ∧ onlyPlocen s t)) ∧
    (∀ (port : Fin 192) (src : MgmtSource) (k slots epoch node : Nat) (b : Bool), s.rpMgmtOk { src with port := port } 2 = true →
      ((k, b, slots, node) ≠ s.assignment port → exec (.assignAck port src k b slots epoch node) s = .next s) ∧
      ((k, b, slots, node) = s.assignment port →
      ∃ t, exec (.assignAck port src k b slots epoch node) s = .next t ∧ t.flag .ronpex (Reg.sknPort port) 7 = true
        ∧ t.fld .ronpex (Reg.sknPort port) 0 7 = s.fld .ronpex (Reg.sknPort port) 0 7 ∧ regsBut s t .ronpex [Reg.sknPort port]
        ∧ t = { s with rp := { s.rp with regs := t.rp.regs } })) ∧
    (∀ k : Nat, s.occupant = some k → s.flag .ronpex Reg.secDbg 15 = true →
      ∃ t, exec .confScrubDone s = .next t ∧ t.reg .ronpex Reg.secDbg = 7 ∧ t.reg .ronpex (Reg.spdSeedLo k) = 0
        ∧ t.reg .ronpex (Reg.spdSeedHi k) = 0 ∧ t.rp.eddy = [] ∧ t.rp.fmem.entries = [] ∧ t.rp.fmem.waiting = []
        ∧ (∀ n : Fin 96, (t.spindle n).ctxs = [] ∧ (t.spindle n).anchors = []) ∧ t.rp.links = s.rp.links ∧ onlyRonpex s t) ∧
    (s.occupant = none → exec .confScrubDone s = .next s) ∧
    (∃ t, exec .tenantRecordRelease s = .next t
      ∧ t.rp.skeins = { s.rp.skeins with records := s.rp.skeins.records.filter fun r => decide (s.now < r.1) }
      ∧ t.rp.links = s.rp.links ∧ onlyRonpex s t) ∧
    (∀ (at_ : Nat) (e : Event), s.rp.skeins.records = [(at_, e)] → at_ ≤ s.now →
      exec .tenantRecordRelease s = .next (({ s with rp := { s.rp with skeins := { s.rp.skeins with records := [] } } } : State).post e))

/-! ### Attestation and keys (R322-R328, R336-R339) -/

/-- Only the security controller of a part, and what has been sent outside, may differ. -/
def Sys2Proof.Claims.onlySec (p : Part) (s t : State) : Prop :=
  match p with
  | .ronpex => t = { s with out := t.out, rp := { s.rp with sec := t.rp.sec } }
  | .plocen => t = { s with out := t.out, ep := { s.ep with sec := t.ep.sec } }

/-- The words of a response (R325): a Plocen's on the sideband, the Ronpex's in its mailbox; in a session, of a secured message. -/
def Sys2Proof.Claims.spdmWords (p : Part) (session : Option Nat) (n code : Nat) (body : List Byte) : List (BitVec 64) :=
  match p, session with
  | .ronpex, none => doeWords false (spdmBytes code body)
  | .ronpex, some id => doeWords true (Config.securedMessage id n (spdmBytes code body))
  | .plocen, none => sidebandWords false (spdmBytes code body)
  | .plocen, some id => sidebandWords true (Config.securedMessage id n (spdmBytes code body))

/-- The security controller with a request in its transcript, which GET_VERSION begins afresh. -/
def Sys2Proof.Claims.asked (s : State) (p : Part) (code : Nat) (req : List Byte) : Security :=
  { s.sec p with msgs := (if code = 0x84 then [] else (s.sec p).msgs) ++ [(code, req)] }

/-- The body of the response to a request: `m` is what the request asks for, and the Alias key of the image that runs signs (R322). -/
def Sys2Proof.Claims.response (s : State) (p : Part) (code : Nat) (req m : List Byte) : List Byte :=
  Config.spdmResponse ((s.sec p).cdi1 p) (s.sec p).answered (asked s p code req).msgs code req m

/-- A request is answered with one message, and leaves the security controller as `x`, with one more response counted. -/
def Sys2Proof.Claims.tells (p : Part) (c : Instr) (session : Option Nat) (s : State) (code : Nat) (body : List Byte) (x : Security) : Prop :=
  ∃ t, exec c s = .next t ∧ t.out = .spdm p code body (spdmWords p session (s.sec p).answered code body) :: s.out
    ∧ t.sec p = { x with answered := (s.sec p).answered + 1 } ∧ onlySec p s t

/-- SPDM requests (R324-R327): the version, capabilities and algorithms are settled in this order, and the other requests are
answered after them, the secured ones in an open session; while layer 1 restarts a request is held. The codes of the responses and
errors are those of DMTF SPDM 1.3, which the model presumes (log 31). -/
def Obligations.SpdmRequests : Prop :=
  ∀ (s : State) (p : Part) (req : List Byte) (x : Security), x = s.sec p →
    (x.restartAt = none →
      tells p (.getVersion p req) none s 0x04 (response s p 0x84 req []) { asked s p 0x84 req with neg := 1 } ∧
      (x.neg = 1 → tells p (.getCapabilities p req) none s 0x61 (response s p 0xE1 req []) { asked s p 0xE1 req with neg := 2 }) ∧
      (x.neg ≠ 1 → tells p (.getCapabilities p req) none s 0x7F [4, 0] (asked s p 0xE1 req)) ∧
      (x.neg = 2 → tells p (.negotiateAlgorithms p req) none s 0x63 (response s p 0xE3 req []) { asked s p 0xE3 req with neg := 3 }) ∧
      (x.neg ≠ 2 → tells p (.negotiateAlgorithms p req) none s 0x7F [4, 0] (asked s p 0xE3 req)) ∧
      (x.neg ≠ 3 → ∀ (slot i : Nat) (o : Option Nat),
        ∀ c ∈ [(Instr.getDigests p req, 0x81, none), (.getCertificate p slot req, 0x82, none), (.challenge p slot req, 0x83, none),
          (.getMeasurements p slot o req, 0xE0, o), (.keyExchange p req, 0xE4, none), (.finish p i req, 0xE5, some i),
          (.keyUpdate p i req, 0xE9, some i), (.heartbeat p i req, 0xE8, some i), (.endSession p i req, 0xEC, some i)],
          tells p c.1 c.2.2 s 0x7F [4, 0] (asked s p c.2.1 req)) ∧
      (x.neg = 3 →
        tells p (.getDigests p req) none s 0x01 (response s p 0x81 req (s.chain p)) (asked s p 0x81 req) ∧
        tells p (.getCertificate p 0 req) none s 0x02 (response s p 0x82 req (s.chain p)) (asked s p 0x82 req) ∧
        tells p (.challenge p 0 req) none s 0x03 (response s p 0x83 req ((upTo 1 6).flatMap (s.measure p))) (asked s p 0x83 req) ∧
        (∀ slot, slot ≠ 0 →
          tells p (.getCertificate p slot req) none s 0x7F [1, 0] (asked s p 0x82 req) ∧
          tells p (.challenge p slot req) none s 0x7F [1, 0] (asked s p 0x83 req)) ∧
        (∀ (i : Nat) (o : Option Nat), i ≤ 6 ∨ i = 255 → (∀ k, o = some k → x.isOpen k = true) →
          tells p (.getMeasurements p i o req) o s 0x60 (response s p 0xE0 req (s.measured p i))
            { asked s p 0xE0 req with restarted := x.restarted && !(i == 5 || i == 255) }) ∧
        (spdmParam2 req ≠ 0 → tells p (.keyExchange p req) none s 0x7F [1, 0] (asked s p 0xE4 req)) ∧
        (spdmParam2 req = 0 → x.sessions.length < 4 →
          tells p (.keyExchange p req) none s 0x64 (response s p 0xE4 req ((upTo 1 6).flatMap (s.measure p))) { asked s p 0xE4 req with
            sessions := x.sessions ++ [{ id := x.nextSession, finished := false, updates := 0 }], nextSession := x.nextSession + 1 }) ∧
        (spdmParam2 req = 0 → 4 ≤ x.sessions.length → tells p (.keyExchange p req) none s 0x7F [10, 0] (asked s p 0xE4 req)) ∧
        (∀ i, (∃ y ∈ x.sessions, y.id = i ∧ y.finished = false) →
          if Config.spdmFinishVerifies (x.cdi1 p) (asked s p 0xE5 req).msgs req = true then
            tells p (.finish p i req) (some i) s 0x65 (response s p 0xE5 req []) { asked s p 0xE5 req with
              sessions := x.sessions.map fun y : Session => if y.id = i then { y with finished := true } else y }
          else
            tells p (.finish p i req) none s 0x7F [6, 0] { asked s p 0xE5 req with
              sessions := x.sessions.filter fun y : Session => decide (y.id ≠ i) }) ∧
        (∀ i, (∀ y ∈ x.sessions, y.id = i → y.finished = true) →
          tells p (.finish p i req) (some i) s 0x7F [2, 0] (asked s p 0xE5 req)) ∧
        (∀ i, x.isOpen i = true →
          tells p (.keyUpdate p i req) (some i) s 0x69 (response s p 0xE9 req []) { asked s p 0xE9 req with
            sessions := x.sessions.map fun y : Session => if y.id = i then { y with updates := y.updates + 1 } else y } ∧
          tells p (.heartbeat p i req) (some i) s 0x68 (response s p 0xE8 req []) (asked s p 0xE8 req) ∧
          tells p (.endSession p i req) (some i) s 0x6C (response s p 0xEC req []) { asked s p 0xEC req with
            sessions := x.sessions.filter fun y : Session => decide (y.id ≠ i) }) ∧
        (∀ i, x.isOpen i = false →
          tells p (.keyUpdate p i req) (some i) s 0x7F [2, 0] (asked s p 0xE9 req) ∧
          tells p (.heartbeat p i req) (some i) s 0x7F [2, 0] (asked s p 0xE8 req) ∧
          tells p (.endSession p i req) (some i) s 0x7F [2, 0] (asked s p 0xEC req) ∧
          tells p (.getMeasurements p 1 (some i) req) (some i) s 0x7F [2, 0] (asked s p 0xE0 req)))) ∧
    (x.restartAt.isSome = true →
      ∃ t, exec (.getVersion p req) s = .next t ∧ t.out = s.out
        ∧ t.sec p = { x with held := x.held ++ [{ code := 0x84, session := none, slot := 0, req := req }] } ∧ onlySec p s t)

/-- INSTALL and DESTROY (R336, R337, R339): a key that passes the checks is held and its KEY_ID shown, a refused request sets INSTALL in
the ERR register and leaves every key, and a destroyed key is gone.
LAYER1_RESTART_DONE and FW_START_FAILURE (R327, R328, R406): after a restart layer 1 answers again with its sessions ended; an
activation makes the staged slot the active one, and an image that has not started within 50 ms leaves the old one. -/
def Obligations.KeysAndRestarts : Prop :=
  (∀ (s : State) (p : Part) (i kind k : Nat) (keyId : Word) (key : BitVec 512), (s.sec p).restartAt = none →
     ((s.sec p).isOpen i = true → keyFits p kind k = true → s.keySkein p k = true →
       ((s.keyStable p = false ∨ (s.sec p).fw = 0) → (kind = 3 → s.isConf k = true) →
         ∃ t, exec (.install p (some i) kind k keyId key false) s = .next t ∧ 
           t.out.head? = some (.spdm p 0x7E [1, 0] (spdmWords p (some i) (s.sec p).answered 0x7E [1, 0]))
           ∧ t.reg p (keyIdReg kind k) = keyId.toNat
           ∧ (kind = 1 → (t.sec p).model = some key ∧ (t.sec p).sky = (s.sec p).sky)
           ∧ (kind = 2 → (t.sec p).sky = some key ∧ (t.sec p).model = (s.sec p).model)
           ∧ (kind = 3 → (k, key) ∈ (t.sec p).fkeys ∧ t.flag .ronpex (Reg.secFkeyStat k) 0 = true
               ∧ ∀ e ∈ (s.sec p).fkeys, e.1 ≠ k → e ∈ (t.sec p).fkeys)
           ∧ (t.sec p).sessions = (s.sec p).sessions ∧ onlyPart p s t) ∧
       (∃ t, exec (.destroy p (some i) kind k keyId false) s = .next t ∧ 
         t.out.head? = some (.spdm p 0x7E [2, 0] (spdmWords p (some i) (s.sec p).answered 0x7E [2, 0]))
         ∧ (kind = 1 → (t.sec p).model = none) ∧ (kind = 2 → (t.sec p).sky = none)
         ∧ (kind = 3 → ∀ e ∈ (t.sec p).fkeys, e.1 ≠ k) ∧ (t.sec p).sessions = (s.sec p).sessions ∧ onlyPart p s t)) ∧
     (((s.sec p).isOpen i = false ∨ keyFits p kind k = false) →
       ∃ t u, exec (.install p (some i) kind k keyId key false) s = .next t
         ∧ t.out.head? = some (.spdm p 0x7E [1, 4] (spdmWords p (some i) (s.sec p).answered 0x7E [1, 4]))
         ∧ exec (.destroy p (some i) kind k keyId false) s = .next u
         ∧ u.out.head? = some (.spdm p 0x7E [2, 4] (spdmWords p (some i) (s.sec p).answered 0x7E [2, 4]))
         ∧ t.flag p (match p with | .ronpex => Reg.secErr | .plocen => Reg.epSecErr) 3 = true
         ∧ t.sec p = { s.sec p with answered := (s.sec p).answered + 1 } ∧ u.sec p = t.sec p ∧ onlyPart p s t ∧ onlyPart p s u)) ∧
  (∀ (s : State) (p : Part) (t0 : Nat), (s.sec p).held = [] → (s.sec p).restartAt = some t0 →
     ((s.sec p).activating = false →
       ∃ t, exec (.layer1RestartDone p) s = .next t ∧ onlyPart p s t
         ∧ t.sec p = { s.sec p with restartAt := none, activating := false, restarted := true, sessions := [], held := [] }) ∧
     ((s.sec p).activating = true →
       (∃ t, exec (.layer1RestartDone p) s = .next t ∧ onlyPart p s t
         ∧ t.sec p = { s.sec p with
             restartAt := none, activating := false, restarted := true, sessions := [], held := []
             slotB := !(s.sec p).slotB, fw := 0 }) ∧
       (s.now < t0 + 50000000 → exec (.fwStartFailure p) s = .next s) ∧
       (t0 + 50000000 ≤ s.now →
         ∃ t, exec (.fwStartFailure p) s = .next t ∧ onlyPart p s t
           ∧ t.sec p = { s.sec p with
               restartAt := none, activating := false, restarted := true, sessions := [], held := [], fw := 0 })))

/-! ### Faults, fences and resets (R345-R354, R365, R418, R421) -/

/-- A port unit is fenced with a CAUSE, and its clock stops (R266, R348); no other port unit and no other link has changed. -/
def Sys2Proof.Claims.portFenced (n cause : Nat) (s t : State) : Prop :=
  t.reg .ronpex (portBase n) = 1 + 256 * cause ∧ t.fld .ronpex (portBase n + 0xC) 0 3 = 0
    ∧ t.fld .ronpex (portBase n + 0x10) 0 16 = satAdd 16 (s.fld .ronpex (portBase n + 0x10) 0 16) 1
    ∧ (∀ m, m < 192 → m ≠ n → t.reg .ronpex (portBase m) = s.reg .ronpex (portBase m))
    ∧ (∀ q, q ≠ n → t.link .ronpex q = s.link .ronpex q) ∧ t.link .ronpex n = { s.link .ronpex n with clockOff := true }
    ∧ onlyRonpex s t

/-- A spindle is fenced with a CAUSE, and its contexts are discarded; an internal error of its own is in SPD[n].ERR (R246). No other
spindle and no port unit has changed. -/
def Sys2Proof.Claims.spindleFenced (n cause : Nat) (s t : State) : Prop :=
  t.spFenced n = true ∧ t.unitCause (192 + n) = cause
    ∧ t.spindle n = { s.spindle n with
        ctxs := [], posted := if cause = 1 then setBit 3 true (s.spindle n).posted else (s.spindle n).posted }
    ∧ (cause = 1 → t.flag .ronpex (spindleBase n + 4) 3 = true)
    ∧ (∀ m, m < 96 → m ≠ n → t.spFenced m = s.spFenced m ∧ t.spindle m = s.spindle m)
    ∧ (∀ m, m < 192 → t.reg .ronpex (portBase m) = s.reg .ronpex (portBase m)) ∧ t.rp.links = s.rp.links ∧ onlyRonpex s t

/-- Fences: UNIT_INTERNAL_ERROR, SPINDLE_INTERNAL_ERROR, SPD_FENCE, PRT_FENCE and UCTL_FENCE fence the unit they name, a software fence
with CAUSE 5, and a region or die that fails is reset (R217, R345, R365, R421). -/
def Obligations.UnitFences : Prop :=
  ∀ s : State,
    (∀ n : Nat, n < 192 → s.unitState n ≠ 1 → s.unitState n ≠ 3 →
      (∃ t, exec (.unitInternalError (.unit n)) s = .next t ∧ portFenced n 1 s t) ∧
      ∀ (k : Fin 192) (i : Fin 609) (v : Word) (w : Writer), k.val = n → i.val = n → rpTakes s w → bit 0 v.toNat = true →
        (∃ t, exec (.prtFence k v w) s = .next t ∧ portFenced n 5 s t) ∧
        (∃ t, exec (.uctlFence i v w) s = .next t ∧ portFenced n 5 s t)) ∧
    (∀ n : Fin 96, s.spFenced n = false → s.regionOff (spindleRegion n) = false →
      (∃ t, exec (.spindleInternalError n) s = .next t ∧ spindleFenced n 1 s t) ∧
      (∃ t, exec (.unitInternalError (.unit (192 + n))) s = .next t ∧ spindleFenced n 1 s t) ∧
      ∀ (i : Fin 609) (v : Word) (w : Writer), i.val = 192 + n.val → rpTakes s w → bit 0 v.toNat = true →
        (∃ t, exec (.spdFence n v w) s = .next t ∧ spindleFenced n 5 s t) ∧
        (∃ t, exec (.uctlFence i v w) s = .next t ∧ spindleFenced n 5 s t)) ∧
    (∀ n : Nat, n < 192 → (s.unitState n = 1 ∨ s.unitState n = 3) → exec (.unitInternalError (.unit n)) s = .next s) ∧
    (∀ c : Nat, c < 128 → s.flag .ronpex (Reg.fmhChfence (c / 32)) (c % 32) = false →
      ∃ t, exec (.unitInternalError (.unit (288 + c))) s = .next t ∧ t.flag .ronpex (Reg.fmhChfence (c / 32)) (c % 32) = true
        ∧ t.flag .ronpex Reg.fmhErr 2 = true
        ∧ (∀ m, m < 128 → m ≠ c →
            t.flag .ronpex (Reg.fmhChfence (m / 32)) (m % 32) = s.flag .ronpex (Reg.fmhChfence (m / 32)) (m % 32))
        ∧ onlyRonpex s t) ∧
    (∀ r : Nat, r < 16 → s.regionOff r = false →
      ∃ t, exec (.unitInternalError (.region r)) s = .next t ∧ t.regionOff r = true ∧ (r, s.now) ∈ t.rp.units.regions
        ∧ (∀ p ∈ regionPorts r, t.fld .ronpex (portBase p) 8 8 = 4) ∧ (∀ q, q / 12 ≠ r → t.link .ronpex q = s.link .ronpex q)
        ∧ onlyRonpex s t) ∧
    (∀ d : Nat, d < 4 → bit d s.rp.units.awake = true →
      ∃ t, exec (.unitInternalError (.die d)) s = .next t ∧ (d, s.now) ∈ t.rp.units.dies
        ∧ (∀ a, t.hbmByte a = if chanOf a / 32 = d then 0 else s.hbmByte a) ∧ (∀ c < 32, t.unitCause (288 + 32 * d + c) = 0)
        ∧ (∀ q, q / 48 ≠ d → t.link .ronpex q = s.link .ronpex q) ∧ t.ep = s.ep ∧ t.now = s.now ∧ t.pending = s.pending)

/-- Returns and quarantine: PRT_RETURN and UCTL_RETURN put a unit that was fenced for a cause which needs no reset into quarantine,
QUARANTINE_STEP_DONE takes it through the steps to service or back to its fence, as it does a spindle and a channel controller, and
REGION_RESET_DONE puts the units of the region
into quarantine (R345, R347, R352, R353). -/
def Obligations.Quarantine : Prop :=
  ∀ s : State,
    (∀ (n : Fin 192) (i : Fin 609) (v : Word) (w : Writer), (i.val = n.val ∨ i.val = 416 + n.val) → rpTakes s w →
      bit 0 v.toNat = false → bit 1 v.toNat = true →
      (s.fld .ronpex (portBase n) 0 2 = 1 → s.fld .ronpex (portBase n) 8 8 ∈ [1, 2, 5, 7] → s.pstFenced n = false →
        (∃ t, exec (.prtReturn n v w) s = .next t ∧ t.unitState n = 2 ∧ t.unitQstep n = 1
          ∧ (∀ m, m < 192 → m ≠ n.val → t.reg .ronpex (portBase m) = s.reg .ronpex (portBase m)) ∧ onlyRonpex s t) ∧
        (s.pstFenced i = false → ∃ t, exec (.uctlReturn i v w) s = .next t ∧ t.unitState n = 2 ∧ t.unitQstep n = 1
          ∧ (∀ m, m < 192 → m ≠ n.val → t.reg .ronpex (portBase m) = s.reg .ronpex (portBase m)) ∧ onlyRonpex s t)) ∧
      (s.fld .ronpex (portBase n) 0 2 ≠ 1 →
        ∃ t, exec (.prtReturn n v w) s = .next t ∧ (∀ m, m < 192 → t.reg .ronpex (portBase m) = s.reg .ronpex (portBase m))
          ∧ onlyRonpex s t)) ∧
    (∀ (i : Fin 609) (ok : Bool), (608 ≤ i.val ∨ s.quarantined i = false) → exec (.quarantineStepDone i ok) s = .next s) ∧
    (∀ i : Fin 609, 416 ≤ i.val → exec (.quarantineStepDone i true) s = .next s) ∧
    (∀ i : Fin 609, i.val < 192 → s.unitState i = 2 →
      (s.unitQstep i = 1 → s.pstFenced (416 + i) = false →
        ∃ t, exec (.quarantineStepDone i true) s = .next t ∧ t.unitState i = 2 ∧ t.unitQstep i = 2 ∧ onlyRonpex s t) ∧
      (s.unitQstep i = 2 →
        (s.portUp .ronpex i = true →
          ∃ t, exec (.quarantineStepDone i true) s = .next t ∧ t.unitState i = 2 ∧ t.unitQstep i = 3 ∧ t.rp.links = s.rp.links
            ∧ onlyRonpex s t) ∧
        (s.portUp .ronpex i = false → exec (.quarantineStepDone i true) s = .next s)) ∧
      (s.unitQstep i = 2 → ∃ t, exec (.quarantineStepDone i false) s = .next t ∧ portFenced i 2 s t) ∧
      (s.unitQstep i = 3 → s.rp.pst.locked (Reg.pstGen (i / 2)) = false → (∀ e ∈ s.rp.pst.queue, e.1 ≠ Reg.pstGen (i / 2)) →
        s.rp.pst.locked (Reg.pstGen ((416 + i) / 2)) = false → (∀ e ∈ s.rp.pst.queue, e.1 ≠ Reg.pstGen ((416 + i) / 2)) →
        ∃ t, exec (.quarantineStepDone i true) s = .next t ∧ t.unitState i = 2 ∧ t.unitQstep i = 4
          ∧ SMap.look (fun _ => 0) t.rp.units.since i = s.now ∧ SMap.look (fun _ => 0) t.rp.units.qbase i = s.linkErrors i
          ∧ t.gen i = (s.gen i + 1) % 2 ^ 16 ∧ t.gen (416 + i) = (s.gen (416 + i) + 1) % 2 ^ 16 ∧ t.rp.links = s.rp.links
          ∧ onlyRonpex s t) ∧
      (s.unitQstep i = 4 →
        (s.linkErrors i ≤ SMap.look (fun _ => 0) s.rp.units.qbase i →
          (s.now < SMap.look (fun _ => 0) s.rp.units.since i + 64 * frameNs → exec (.quarantineStepDone i true) s = .next s) ∧
          (SMap.look (fun _ => 0) s.rp.units.since i + 64 * frameNs ≤ s.now →
            ∃ t, exec (.quarantineStepDone i true) s = .next t ∧ t.unitState i = 0 ∧ t.unitQstep i = 0 ∧ i.val ∈ t.rp.warp.idle
              ∧ t.rp.links = s.rp.links ∧ onlyRonpex s t)) ∧
        (∀ passed : Bool, (passed = false ∨ SMap.look (fun _ => 0) s.rp.units.qbase i < s.linkErrors i) →
          ∃ t, exec (.quarantineStepDone i passed) s = .next t ∧ portFenced i 7 s t))) ∧
    (∀ i : Fin 609, 192 ≤ i.val → i.val < 416 → s.quarantined i = true → s.unitQstep i = 1 →
      ∃ t, exec (.quarantineStepDone i true) s = .next t ∧ t.unitQstep i = 3 ∧ t.rp.regs = s.rp.regs ∧ onlyRonpex s t) ∧
    (∀ i : Fin 609, 192 ≤ i.val → i.val < 416 → s.quarantined i = true → s.unitQstep i = 3 → s.rp.pst.locked (Reg.pstGen (i / 2)) = false →
      (∀ e ∈ s.rp.pst.queue, e.1 ≠ Reg.pstGen (i / 2)) →
      ∃ t, exec (.quarantineStepDone i true) s = .next t ∧ t.quarantined i = false ∧ t.unitQstep i = 0
        ∧ (i.val < 288 → t.unitState i = 0) ∧ t.gen i = (s.gen i + 1) % 2 ^ 16 ∧ t.rp.links = s.rp.links ∧ onlyRonpex s t) ∧
    (∀ r : Fin 16, (∃ e ∈ s.rp.units.regions, e.1 = r.val) → (∀ e ∈ s.rp.units.dies, e.1 ≠ r.val / 4) →
      bit (r / 4) s.rp.units.awake = true →
      ∃ t, exec (.regionResetDone r) s = .next t ∧ (∀ e ∈ t.rp.units.regions, e.1 ≠ r.val)
        ∧ (∀ e ∈ s.rp.units.regions, e.1 ≠ r.val → e ∈ t.rp.units.regions)
        ∧ (∀ p ∈ regionPorts r, s.pstFenced p = false → t.unitState p = 2 ∧ t.unitQstep p = 1) ∧ onlyRonpex s t) ∧
    (∀ r : Fin 16, (∀ e ∈ s.rp.units.regions, e.1 ≠ r.val) → (∀ e ∈ s.rp.units.dies, e.1 ≠ r.val / 4) →
      exec (.regionResetDone r) s = .next s)

/-- Resets: PKG_RESET and THERMTRIP leave every register of the Ronpex at its reset value and its memory as nothing has written it,
keep the persistent store and let TIM.NOW count from 0; PKG_RESET_DEASSERT starts the hub, but not while a thermal trip is latched;
HUB_RESET restarts layer 1; EP_RESET resets the Plocen alone;
PCIE_PERST clears the enables of the rings; EP_THERMTRIP is asserted (R345, R372, R418, R430, R444, R447). Memory after a reset
reads as memory that nothing has written, which is the model's choice (log 2). -/
def Obligations.Resets : Prop :=
  ∀ s : State,
    (∃ t, exec .pkgReset s = .next t ∧ t.hbm = [] ∧ (∀ a, t.reg .ronpex a = (rpDefault a).toNat) ∧ t.rp.links = []
      ∧ t.rp.power.inReset = true ∧ (s.rp.pst.queue = [] → t.rp.pst = s.rp.pst) ∧ t.rp.pst.queue = []
      ∧ t.rp.sec.slotB = s.rp.sec.slotB ∧ t.rp.sec.fkeys = [] ∧ t.rp.sec.sessions = [] ∧ t.partNow .ronpex = 0
      ∧ t.ep = s.ep ∧ t.now = s.now ∧ t.pending = s.pending) ∧
    (s.rp.power.tripped = false →
      ∃ t, exec .thermtrip s = .next t ∧ t.hbm = [] ∧ (∀ a, t.reg .ronpex a = (rpDefault a).toNat) ∧ t.rp.links = []
        ∧ t.rp.power.tripped = true ∧ t.rp.sec.fkeys = [] ∧ t.ep = s.ep ∧ t.now = s.now ∧ t.pending = s.pending) ∧
    (s.rp.power.tripped = true → exec .thermtrip s = .next s) ∧
    (s.rp.power.inReset = false → exec .pkgResetDeassert s = .next s) ∧
    (s.rp.power.inReset = true → s.rp.power.tripped = true → s.now < s.rp.power.tripClear →
      exec .pkgResetDeassert s = .next { s with rp := { s.rp with power := { s.rp.power with inReset := false } } }) ∧
    (s.rp.power.inReset = true → (s.rp.power.tripped = false ∨ s.rp.power.tripClear ≤ s.now) →
      ∃ t, exec .pkgResetDeassert s = .next t ∧ t.rp.power.inReset = false ∧ t.rp.power.ready = true ∧ t.rp.power.supplyLost = false
        ∧ t.rp.power.tripped = false ∧ t.wakeState = 1 ∧ t.rp.links = s.rp.links ∧ onlyRonpex s t) ∧
    (∀ (v : Word) (w : Writer), s.rp.power.supplyLost = false → bit 0 v.toNat = true → s.rp.sec.restartAt = none →
      ∃ t, exec (.hubReset v w) s = .next t ∧ t.rp.sec.restartAt = some s.now ∧ t.rp.sec.sessions = [] ∧ t.rp.mgmt.running = none
        ∧ (∀ r, s.rp.mgmt.running = some r → t.rp.mgmt.aborted = some r) ∧ t.rp.power.hist = []
        ∧ t.flag .ronpex Reg.hubCtl 1 = bit 1 v.toNat ∧ regsBut s t .ronpex [Reg.hubCtl, Reg.logLost] ∧ t.rp.links = s.rp.links
        ∧ onlyRonpex s t) ∧
    (∃ t, exec .epReset s = .next t ∧ (∀ a, t.reg .plocen a = (epDefault a).toNat) ∧ t.ep.rings = [] ∧ t.ep.links = []
      ∧ t.partNow .plocen = 0 ∧ t.ep.sec.slotB = s.ep.sec.slotB ∧ t.ep.sec.model = none ∧ t.ep.sec.sky = none ∧ t = { s with ep := t.ep }) ∧
    (∃ t, exec .pciePerst s = .next t
      ∧ (∀ a ∈ [Reg.mgtCmdCfg, Reg.mgtEvtCfg, Reg.logCfg], t.flag .ronpex a 4 = false ∧ t.fld .ronpex a 0 4 = s.fld .ronpex a 0 4)
      ∧ regsBut s t .ronpex ([Reg.mgtCmdCfg, Reg.mgtEvtCfg, Reg.logCfg] ++ (List.range 16).map Reg.mgtMsix
          ++ (List.range 2).map Reg.mgtMsixPba)
      ∧ t = { s with rp := { s.rp with regs := t.rp.regs } }) ∧
    (exec .epThermtrip s = .next { s with ep := { s.ep with tripped := true } })

/-! ### Power, heat, wake and time (R366-R383, R428-R430) -/

/-- The enables and power goods of the core dies and of the stacks, one bit for each die (R425, R428). -/
def Sys2Proof.Claims.powered (s : State) (coreEn hbmEn corePg hbmPg : Nat) : Prop :=
  s.rp.power.coreEn = coreEn ∧ s.rp.power.hbmEn = hbmEn ∧ s.rp.power.corePg = corePg ∧ s.rp.power.hbmPg = hbmPg

/-- Power and heat: PWRALERT_ASSERT, PWRALERT_DEASSERT, ALERT_CLEAR_TIMEOUT, THERMAL_FENCE_TIMER, THERMAL_STEP_CLEAR and
REGION_COOL_RETURN (R369, R371); and what SLEEP, WAKE, WAKE_TOKEN, CORE_PG, POWER_GOOD_TIMEOUT, HBM_TRAINED and SUPPLY_MONITOR_TRIP do to
the wake state, the enables and the power goods (R373-R375, R428, R429). That the power goods fall with the enables is the model's choice
(log 176). -/
def Obligations.PowerAndHeat : Prop :=
  ∀ s : State,
    (s.rp.power.alert = true → exec .pwralertAssert s = .next s) ∧
    (s.rp.power.alert = false → exec .pwralertDeassert s = .next s ∧
      ∃ t, exec .pwralertAssert s = .next t ∧ t.rp.power.alert = true ∧ t.flag .ronpex Reg.timPwrStat 0 = true
        ∧ t.flag .ronpex Reg.timPwrStat 4 = true ∧ t.scale = min s.scale s.alertScale ∧ t.rp.links = s.rp.links ∧ onlyRonpex s t) ∧
    (s.rp.power.alert = true →
      ∃ t, exec .pwralertDeassert s = .next t ∧ t.rp.power.alert = false ∧ t.rp.power.alertOff = some s.now
        ∧ t.flag .ronpex Reg.timPwrStat 0 = false ∧ t.scale = s.scale ∧ t.rp.links = s.rp.links ∧ onlyRonpex s t) ∧
    (∀ t0, s.rp.power.alert = false → s.rp.power.alertOff = some t0 →
      (s.now < t0 + 100000000 → exec .alertClearTimeout s = .next s) ∧
      (t0 + 100000000 ≤ s.now → s.fld .ronpex Reg.timPwrStat 2 2 < 2 → (s.flag .ronpex Reg.timPwrStat 1 = false ∨ s.running = false) →
        ∃ t, exec .alertClearTimeout s = .next t ∧ t.flag .ronpex Reg.timPwrStat 1 = false ∧ t.flag .ronpex Reg.timPwrStat 4 = false
          ∧ t.rp.power = { s.rp.power with alertOff := none, wakeHeld := false, hbmHeld := false }
          ∧ regsBut s t .ronpex [Reg.timPwrStat] ∧ t = { s with rp := { s.rp with regs := t.rp.regs, power := t.rp.power } })) ∧
    (∀ (d : Fin 4) (r t0 : Nat), s.fld .ronpex Reg.timPwrStat 2 2 = 3 → 1050 ≤ dieTemp s.rp.power.sensors d →
      s.rp.power.fencedAt = [(d.val, t0)] → s.hottestRegion d = some r → r < 4 → s.regionOff (4 * d + r) = false →
      (s.now < t0 + 500000000 → exec (.thermalFenceTimer d) s = .next s) ∧
      (t0 + 500000000 ≤ s.now →
        ∃ t, exec (.thermalFenceTimer d) s = .next t ∧ t.flag .ronpex (Reg.timTherm d) (16 + r) = true
          ∧ (∀ p ∈ regionPorts (4 * d + r), s.unitState p = 0 → t.reg .ronpex (portBase p) = 1 + 256 * 6)
          ∧ (∀ p, p < 192 → p / 12 ≠ 4 * d + r → t.reg .ronpex (portBase p) = s.reg .ronpex (portBase p))
          ∧ t.rp.power.fencedAt = [(d.val, s.now)] ∧ (∀ q, q / 12 ≠ 4 * d + r → t.link .ronpex q = s.link .ronpex q)
          ∧ onlyRonpex s t)) ∧
    (∀ k t0 : Nat, s.fld .ronpex Reg.timPwrStat 2 2 = k → k ≠ 0 → s.rp.power.cool = [(k, t0)] →
      (s.now < t0 + 1000000000 → exec .thermalStepClear s = .next s) ∧
      (t0 + 1000000000 ≤ s.now →
        ∃ t, exec .thermalStepClear s = .next t ∧ t.fld .ronpex Reg.timPwrStat 2 2 = k - 1 ∧ t.rp.links = s.rp.links ∧ onlyRonpex s t)) ∧
    (∀ (d : Fin 4) (t0 : Nat), s.rp.power.dieCool = [(d.val, t0)] →
      (s.now < t0 + 1000000000 → exec (.regionCoolReturn d) s = .next s) ∧
      (t0 + 1000000000 ≤ s.now →
        ∃ t, exec (.regionCoolReturn d) s = .next t
          ∧ (∀ r < 4, t.flag .ronpex (Reg.timTherm d) (16 + r) = false
              ∧ (s.flag .ronpex (Reg.timTherm d) (16 + r) = true → t.regionOff (4 * d + r) = true))
          ∧ (∀ r < 16, (r / 4 ≠ d.val ∨ s.flag .ronpex (Reg.timTherm d) (16 + r % 4) = false) → t.regionOff r = s.regionOff r)
          ∧ onlyRonpex s t)) ∧
    (∀ (v : Word) (w : Writer), rpTakes s w →
      (bits 0 2 v.toNat = 1 → s.wakeState = 0 → s.quiet = true →
        ∃ t, exec (.sleep v w) s = .next t ∧ t.wakeState = 1 ∧ powered t 0 0 0 0 ∧ t.ep = s.ep ∧ t.now = s.now) ∧
      (bits 0 2 v.toNat = 2 → s.wakeState = 1 → s.rp.power.tripped = false →
        ∃ t, exec (.wake v w) s = .next t ∧ (t.wakeState = 2 ∨ t.wakeState = 3) ∧ t.rp.units = s.rp.units ∧ onlyRonpex s t)) ∧
    (∀ tok : Fin 2, s.rp.power.tripped = false → s.flag .ronpex Reg.timWake 4 = false →
      ∃ t, exec (.wakeToken tok) s = .next t ∧ t.rp.units = s.rp.units ∧ onlyRonpex s t
        ∧ (t.wakeState = if s.wakeState = 2 ∧ s.rp.power.wakeHeld = false ∧ s.rp.power.token = none then 3 else s.wakeState)) ∧
    (∀ (d : Fin 4) (t0 : Nat), s.rp.power.t0 = some t0 → t0 + 50000 * d ≤ s.now → d.val ∈ s.rp.power.ramp →
      bit d s.rp.power.corePg = false → s.rp.power.tripped = false →
      ∃ t, exec (.corePg d) s = .next t ∧ bit d t.rp.power.coreEn = true ∧ bit d t.rp.power.hbmEn = true
        ∧ bit d t.rp.power.corePg = true ∧ bit d t.rp.units.awake = true ∧ onlyRonpex s t) ∧
    (∀ d : Fin 4, bit d s.rp.power.coreEn = true →
      ∃ t, exec (.powerGoodTimeout d) s = .next t ∧ bit d t.rp.power.corePg = false ∧ bit d t.rp.power.hbmPg = false
        ∧ t.rp.power.coreEn = s.rp.power.coreEn ∧ t.ep = s.ep ∧ t.now = s.now) ∧
    (∀ d : Fin 4, bit d s.rp.power.hbmEn = true →
      ∃ t, exec (.hbmTrained d) s = .next t ∧ t.rp.fmem.trained = setBit d true s.rp.fmem.trained ∧ t.rp.links = s.rp.links
        ∧ onlyRonpex s t) ∧
    (∀ volt charge : Nat, s.rp.power.supplyLost = false →
      ∃ t, exec (.supplyMonitorTrip volt charge) s = .next t ∧ t.rp.power.supplyLost = true ∧ t.rp.power.ready = false
        ∧ powered t 0 0 0 0 ∧ t.rp.pst.queue = [] ∧ t.ep = s.ep ∧ t.now = s.now)

/-- Sleep and wake: SLEEP, WAKE, WAKE_TOKEN, CORE_PG, POWER_GOOD_TIMEOUT, HBM_TRAINED and SUPPLY_MONITOR_TRIP (R373-R376, R398,
R428, R429). A stack without power reads afterwards as memory that nothing has written, which is the model's choice (log 2). -/
def Obligations.SleepAndWake : Prop :=
  ∀ s : State,
    (∀ (v : Word) (w : Writer), rpTakes s w →
      (bits 0 2 v.toNat = 1 → s.wakeState = 0 → s.quiet = true →
        ∃ t, exec (.sleep v w) s = .next t ∧ t.wakeState = 1 ∧ (∀ d, d < 4 → bit d t.rp.units.awake = false) ∧ t.rp.power.coreEn = 0
          ∧ t.rp.power.hbmEn = 0 ∧ (∀ a, t.hbmByte a = 0) ∧ t.rp.fmem.cipher = []
          ∧ (∀ c, c < 8 → t.flag .ronpex (Reg.drfAlt c) 3 = false) ∧ (∀ n, n < 256 → t.flag .ronpex (Reg.fmhRgnCtl n) 10 = false)
          ∧ (s.rp.time.source ≠ 2 → t.rp.time.locked = false ∧ t.rp.time.source = 3)
          ∧ t.ep = s.ep ∧ t.now = s.now ∧ t.pending = s.pending) ∧
      (bits 0 2 v.toNat = 1 → s.quiet = false →
        ∃ t, exec (.sleep v w) s = .next t ∧ t.rp.units = s.rp.units ∧ t.rp.links = s.rp.links ∧ t.hbm = s.hbm ∧ onlyRonpex s t) ∧
      (bits 0 2 v.toNat = 2 → bits 4 2 v.toNat ≠ 3 → s.wakeState = 1 → s.rp.power.tripped = false →
        ∃ t, exec (.wake v w) s = .next t ∧ t.wakeState = 2
          ∧ t.rp.power = { s.rp.power with ramp := [0, 1, 2, 3], wakeHeld := s.rp.power.alert }
          ∧ (∀ a, a ≠ Reg.timWake → a ≠ Reg.logLost →
              t.reg .ronpex a = if inDraftStore a then (rpDefault a).toNat else s.reg .ronpex a)
          ∧ t.rp.fmem.zeroing = (List.range 256).filter (fun n => s.flag .ronpex (Reg.fmhRgnCtl n) 0)
          ∧ t.rp.units = s.rp.units ∧ onlyRonpex s t)) ∧
    (∀ tok : Fin 2, s.rp.power.tripped = true → exec (.wakeToken tok) s = .next s) ∧
    (∀ tok : Fin 2, s.rp.power.tripped = false →
      (s.flag .ronpex Reg.timWake 4 = true → s.flag .ronpex Reg.timWake 5 = false →
        ∃ t, exec (.wakeToken tok) s = .next t ∧ tok.val ∉ t.rp.tray.tokens ∧ t.rp.power = s.rp.power ∧ t.out = s.out
          ∧ t = { s with rp := { s.rp with tray := t.rp.tray } }) ∧
      ((s.flag .ronpex Reg.timWake 4 = true → s.flag .ronpex Reg.timWake 5 = true) →
        s.wakeState = 2 → s.rp.power.wakeHeld = false → s.rp.power.token = none → s.rp.power.ramp = [0, 1, 2, 3] →
        ∃ t, exec (.wakeToken tok) s = .next t ∧ t.wakeState = 3 ∧ t.rp.power.token = some (tok.val, s.now)
          ∧ t.rp.power.t0 = some s.now ∧ bit 0 t.rp.power.coreEn = true ∧ bit 0 t.rp.power.hbmEn = true
          ∧ t.rp.power.ramp = [1, 2, 3] ∧ t.out = s.out ∧ regsBut s t .ronpex [Reg.timWake] ∧ onlyRonpex s t) ∧
      (s.wakeState ≠ 2 → s.flag .ronpex Reg.timWake 4 = false → s.trayUp 0 = true →
        ∃ t, exec (.wakeToken tok) s = .next t ∧ t.out = trayOutput 0 (s.tokenFrame tok) :: s.out
          ∧ (s.tokenFrame tok).ftype = 2 ∧ (s.tokenFrame tok).body = [BitVec.ofNat 8 tok] ∧ t.rp.power = s.rp.power
            ∧ t.rp.regs = s.rp.regs ∧ onlyRonpex s t)) ∧
    (∀ (d : Fin 4) (u : State), u = s.rampDue →
      (bit d u.rp.power.coreEn = true → bit d u.rp.power.corePg = false → s.rp.power.tripped = false →
        ∃ t, exec (.corePg d) s = .next t ∧ bit d t.rp.power.corePg = true ∧ bit d t.rp.units.awake = true
          ∧ t.rp.power.coreEn = u.rp.power.coreEn
          ∧ (∀ p, p < 192 → p / 48 = d.val → s.pstFenced p = false → t.unitState p = 2 ∧ t.unitQstep p = 1)
          ∧ (∀ p, p < 192 → p / 48 ≠ d.val → t.reg .ronpex (portBase p) = s.reg .ronpex (portBase p)) ∧ onlyRonpex s t) ∧
      ((bit d u.rp.power.coreEn = false ∨ bit d u.rp.power.corePg = true ∨ s.rp.power.tripped = true) → exec (.corePg d) s = .next u)) ∧
    (∀ d : Fin 4, bit d s.rp.power.coreEn = true →
      ∃ t, exec (.powerGoodTimeout d) s = .next t ∧ bit d t.rp.power.corePg = false ∧ bit d t.rp.power.hbmPg = false
        ∧ (d.val, s.now) ∈ t.rp.units.dies
        ∧ (∀ a, t.hbmByte a = if chanOf a / 32 = d.val then 0 else s.hbmByte a)
        ∧ t.ep = s.ep ∧ t.now = s.now ∧ t.pending = s.pending) ∧
    (∀ d : Fin 4, bit d s.rp.power.coreEn = false → exec (.powerGoodTimeout d) s = .next s) ∧
    (∀ d : Fin 4, bit d s.rp.power.hbmEn = true →
      ∃ t, exec (.hbmTrained d) s = .next t ∧ t.rp.fmem = { s.rp.fmem with trained := setBit d true s.rp.fmem.trained }
        ∧ bit d t.rp.fmem.trained = true ∧ bit d t.rp.power.hbmPg = true ∧ t.rp.links = s.rp.links ∧ onlyRonpex s t) ∧
    (∀ d : Fin 4, bit d s.rp.power.hbmEn = false → exec (.hbmTrained d) s = .next s) ∧
    (∀ volt charge : Nat,
      (s.rp.power.supplyLost = true → exec (.supplyMonitorTrip volt charge) s = .next s) ∧
      (s.rp.power.supplyLost = false → s.rp.pst.queue = [] →
        ∃ t, exec (.supplyMonitorTrip volt charge) s = .next t ∧ t.rp.power.supplyLost = true ∧ t.rp.power.ready = false
          ∧ t.rp.power.token = none ∧ t.rp.power.coreEn = 0 ∧ t.rp.pst = s.rp.pst
          ∧ t.rp.log.saved = some (s.rp.log.h, s.rp.log.ents.reverse.take
              (min (min (bits 0 13 (s.rp.pst.word Reg.pstHoldup)) (min 4096 s.rp.log.ents.length)) volt))
          ∧ (∀ a, t.hbmByte a = 0) ∧ t.ep = s.ep ∧ t.now = s.now ∧ t.pending = s.pending))

/-- Fabric time: PARENT_LOSS, HOLDOVER_LIMIT and TIME_SET (R379, R382, R383). The CAUSE with which the Ronpex fences its ports at the
holdover limit is the model's choice (log 35). -/
def Obligations.FabricTime : Prop :=
  ∀ s : State,
    (s.rp.time.exchAt = none → s.now < s.rp.time.resetAt + 3000000 → exec (.parentLoss .ronpex) s = .next s) ∧
    (∀ t0 : Nat, s.rp.time.exchAt = some t0 →
      (s.now < t0 + 3000000 → exec (.parentLoss .ronpex) s = .next s) ∧
      (t0 + 3000000 ≤ s.now → s.flag .ronpex Reg.timCtl 0 = false → s.rp.time.source = 0 → s.rp.time.holdover = none →
        (s.fld .ronpex Reg.timCtl 16 8 ≠ 255 →
          ∃ t, exec (.parentLoss .ronpex) s = .next t
            ∧ t.rp.time = { s.rp.time with source := 1, parent := none, exchAt := some s.now, good := 0, bad := 0 }
            ∧ t = { s with rp := { s.rp with time := t.rp.time } }) ∧
        (s.fld .ronpex Reg.timCtl 16 8 = 255 → s.flag .ronpex Reg.timCtl 1 = true →
          ∃ t, exec (.parentLoss .ronpex) s = .next t
            ∧ t.rp.time = { s.rp.time with
                source := 2, parent := none, depth := 0, locked := s.rp.time.everLocked, holdover := none }
            ∧ t.rp.links = s.rp.links ∧ onlyRonpex s t) ∧
        (s.fld .ronpex Reg.timCtl 16 8 = 255 → s.flag .ronpex Reg.timCtl 1 = false →
          ∃ t, exec (.parentLoss .ronpex) s = .next t
            ∧ t.rp.time = { s.rp.time with
                parent := none, source := 3, exchAt := some s.now, good := 0, bad := 0
                holdover := if s.rp.time.everLocked then some s.now else none }
            ∧ t.rp.links = s.rp.links ∧ onlyRonpex s t))) ∧
    (∀ t0 : Nat, s.ep.time.exchAt = some t0 → t0 + 3000000 ≤ s.now → s.ep.time.holdover = none →
      (∀ q, q < 8 → s.portUp .plocen q = false ∨ (s.link .plocen q).farTime = none) →
      ∃ t, exec (.parentLoss .plocen) s = .next t
        ∧ t.ep.time = { s.ep.time with
            parent := none, source := 3, exchAt := some s.now, good := 0, bad := 0
            holdover := if s.ep.time.everLocked then some s.now else none }
        ∧ t = { s with ep := { s.ep with time := t.ep.time } }) ∧
    (∀ h : Nat, s.rp.time.holdover = some h → s.rp.time.everLocked = true →
      (s.now < h + 150000000 → exec (.holdoverLimit .ronpex) s = .next s) ∧
      (h + 150000000 ≤ s.now →
        ∃ t, exec (.holdoverLimit .ronpex) s = .next t ∧ onlyRonpex s t
          ∧ (∀ n, t.link .ronpex n =
              if n < 192 ∧ s.unitState n ≠ 1 ∧ s.unitState n ≠ 3 then { s.link .ronpex n with clockOff := true } else s.link .ronpex n)
          ∧ ∀ n, n < 192 → t.unitState n = (if s.unitState n = 3 then 3 else 1) ∧ (s.unitState n = 0 → t.unitCause n = 1))) ∧
    (∀ h : Nat, s.ep.time.holdover = some h → s.ep.time.everLocked = true → h + 150000000 ≤ s.now →
      ∃ t, exec (.holdoverLimit .plocen) s = .next t ∧ t.ep.released = [] ∧ t.ep.links = s.ep.links ∧ onlyPlocen s t) ∧
    (∀ (v : BitVec 64) (w : Writer), rpTakes s w →
      (s.flag .ronpex Reg.timCtl 0 = true → s.quiet = true →
        ∃ t, exec (.timeSet v w) s = .next t ∧ t.rp.time = { s.rp.time with set := some v.toNat }
          ∧ regsBut s t .ronpex [Reg.logLost]
          ∧ t = { s with rp := { s.rp with regs := t.rp.regs, log := t.rp.log, time := t.rp.time } }) ∧
      ((s.flag .ronpex Reg.timCtl 0 = false ∨ s.quiet = false) →
        ∃ t, exec (.timeSet v w) s = .next t ∧ t.rp.time = s.rp.time ∧ regsBut s t .ronpex [Reg.logLost]
          ∧ t = { s with rp := { s.rp with regs := t.rp.regs, log := t.rp.log } }))

/-! ### Management, the log, the tray chain and the persistent store (R384-R406) -/

/-- The state in which a fetched command begins (R387): it executes, and CMD_HEAD has passed it. -/
def Sys2Proof.Claims.begun (s : State) (c : Command) : State :=
  { s with rp := { s.rp with mgmt := { s.rp.mgmt with
      running := some { tag := c.tag, count := s.rp.mgmt.cmdHead, wait := .none }, cmdHead := (s.rp.mgmt.cmdHead + 1) % 2 ^ 32 } } }

/-- The running command waits for `w`. -/
def Sys2Proof.Claims.waits (s t : State) (c : Command) (w : CmdWait) : Prop :=
  t.rp.mgmt.running = some { tag := c.tag, count := s.rp.mgmt.cmdHead, wait := w } ∧ onlyRonpex s t

/-- The command has ended. -/
def Sys2Proof.Claims.ended (s t : State) : Prop :=
  t.rp.mgmt.running = none ∧ t.rp.mgmt.cmdHead = (s.rp.mgmt.cmdHead + 1) % 2 ^ 32 ∧ t.rp.links = s.rp.links ∧ onlyRonpex s t

/-- An error of a ring of the hub is in register `a`; MSI-X vector 3 goes out where HUB.ERRSUM was 0 and the vector is not masked (R384,
R408; log 14 is the model's reading of when), and nothing else has changed. -/
def Sys2Proof.Claims.ringError (s t : State) (a : Nat) : Prop :=
  (s.errsum = 0 → s.flag .ronpex (Reg.mgtMsix 15) 0 = false → t.out = .msix 3 :: s.out)
    ∧ regsBut s t .ronpex [Reg.logLost, a, Reg.mgtMsixPba 0]
    ∧ t = { s with out := t.out, rp := { s.rp with regs := t.rp.regs, log := t.rp.log } }

/-- Doorbells and the log ring: CMD_DB, EVT_DB, LOG_DB and LOG_STREAM (R386, R402). -/
def Obligations.MgmtDoorbells : Prop :=
  ∀ (s : State) (v : Word) (w : Writer), rpTakes s w →
    ((subMod 32 v.toNat s.rp.mgmt.cmdHead ≤ s.mgtSize Reg.mgtCmdCfg 10 ∧
        subMod 32 v.toNat s.rp.mgmt.cmdTail ≤ s.mgtSize Reg.mgtCmdCfg 10) →
      ∃ t, exec (.cmdDb v w) s = .next t ∧ t.rp.mgmt = { s.rp.mgmt with cmdTail := v.toNat }
        ∧ (s.rp.mgmt.running = none → s.flag .ronpex Reg.mgtCmdCfg 4 = true → s.flag .ronpex Reg.mgtStat 1 = false →
            s.rp.mgmt.cmdHead ≠ v.toNat → s.rp.sec.restartAt = none → t.out = .cmdFetch s.rp.mgmt.cmdHead :: s.out)
        ∧ regsBut s t .ronpex [Reg.logLost]
        ∧ t = { s with out := t.out, rp := { s.rp with regs := t.rp.regs, log := t.rp.log, mgmt := t.rp.mgmt } }) ∧
    ((s.mgtSize Reg.mgtCmdCfg 10 < subMod 32 v.toNat s.rp.mgmt.cmdHead ∨
        s.mgtSize Reg.mgtCmdCfg 10 < subMod 32 v.toNat s.rp.mgmt.cmdTail) →
      ∃ t, exec (.cmdDb v w) s = .next t ∧ t.flag .ronpex Reg.mgtStat 1 = true ∧ t.fld .ronpex Reg.mgtStat 8 8 = 1 ∧ ringError s t Reg.mgtStat) ∧
    (subMod 32 v.toNat s.rp.mgmt.evtHead ≤ subMod 32 s.rp.mgmt.evtTail s.rp.mgmt.evtHead →
      ∃ t, exec (.evtDb v w) s = .next t ∧ t.rp.mgmt.evtHead = v.toNat ∧ t.rp.mgmt.running = s.rp.mgmt.running
        ∧ t.rp.links = s.rp.links ∧ onlyRonpex s t) ∧
    (subMod 32 s.rp.mgmt.evtTail s.rp.mgmt.evtHead < subMod 32 v.toNat s.rp.mgmt.evtHead →
      ∃ t, exec (.evtDb v w) s = .next t ∧ t.flag .ronpex Reg.mgtStat 2 = true ∧ t.fld .ronpex Reg.mgtStat 8 8 = 2 ∧ ringError s t Reg.mgtStat) ∧
    (subMod 32 v.toNat s.rp.mgmt.logHead ≤ subMod 32 s.rp.mgmt.logTail s.rp.mgmt.logHead →
      ∃ t, exec (.logDb v w) s = .next t ∧ t.rp.mgmt = { s.rp.mgmt with logHead := v.toNat } ∧ regsBut s t .ronpex [Reg.logLost]
        ∧ t = { s with rp := { s.rp with regs := t.rp.regs, log := t.rp.log, mgmt := t.rp.mgmt } }) ∧
    (subMod 32 s.rp.mgmt.logTail s.rp.mgmt.logHead < subMod 32 v.toNat s.rp.mgmt.logHead →
      ∃ t, exec (.logDb v w) s = .next t ∧ t.flag .ronpex Reg.logStat 19 = true ∧ ringError s t Reg.logStat) ∧
    (∀ (e : LogEntry) (n : Nat), n = s.mgtSize Reg.logCfg 14 → s.flag .ronpex Reg.logCfg 4 = true → s.rp.log.pend ≠ 0 →
      subMod 32 s.rp.mgmt.logTail s.rp.mgmt.logHead < n → s.rp.log.lost = 0 →
      s.rp.log.ents[s.rp.log.ents.length - s.rp.log.pend]? = some e →
      ∃ t, exec .logStream s = .next t
        ∧ .logEntry (s.ringBase Reg.logBaseLo Reg.logBaseHi + 32 * (s.rp.mgmt.logTail % n)) e
            (logRingBytes (s.rp.mgmt.logTail / n % 2 == 0) e) ∈ t.out
        ∧ t.rp.log = { s.rp.log with pend := s.rp.log.pend - 1 }
        ∧ t.rp.mgmt = { s.rp.mgmt with logTail := (s.rp.mgmt.logTail + 1) % 2 ^ 32 }
        ∧ regsBut s t .ronpex [Reg.mgtMsixPba 0]
        ∧ t = { s with out := t.out, rp := { s.rp with regs := t.rp.regs, log := t.rp.log, mgmt := t.rp.mgmt } })

/-- How commands begin and end (R387, R388): while none may be fetched a command changes nothing; one whose entry could not be read sets
ERRCODE 3 (R408); one whose OP is another's, or whose reserved bytes or unused fields are not zero, ends with BAD_CMD; and the end of a
command posts CMD_DONE with its tag, status, detail and number. -/
def Obligations.CommandFrame : Prop :=
  (∀ (s : State) (c : Command) (l : List (Nat × Word)) (d : List Byte) (ok : Bool),
    ∀ x ∈ [(0, Instr.nop c), (1, .draftLoad c l ok), (2, .skein c), (3, .fence c), (4, .return c), (5, .reset c), (6, .epoch c),
      (7, .snapshot c), (8, .send c d ok), (9, .tenant c), (10, .fwWrite c d ok), (11, .fwVerify c), (12, .fwActivate c),
      (13, .fwErase c)],
      (s.mayFetch = false → exec x.2 s = .next s) ∧
      (s.mayFetch = true → c.fetchOk = false →
        ∃ t, exec x.2 s = .next t ∧ t.flag .ronpex Reg.mgtStat 1 = true ∧ t.fld .ronpex Reg.mgtStat 8 8 = 3 ∧ ringError s t Reg.mgtStat) ∧
      (s.mayFetch = true → c.fetchOk = true → (c.op ≠ x.1 ∨ c.rsv ≠ 0 ∨ (x.1 ∉ [7, 9] ∧ ∃ b ∈ c.args, b ≠ 0)) →
        exec x.2 s = .next ((begun s c).cmdDone 1 0))) ∧
  (∀ (s : State) (c : Command), s.mayFetch = true → c.fetchOk = true → c.op = 0 → Command.unusedZero c {} = true →
    exec (.nop c) s = .next ((begun s c).cmdDone 0 0)) ∧
  (∀ (s : State) (c : Command) (status detail : Nat), s.rp.sec.restartAt = none → s.evtFree = true →
    s.reg .ronpex Reg.mgtEvtOvf = 0 →
    (∃ e : Event, e = plainEvent s.now 1 (c.tag + 2 ^ 32 * status + 2 ^ 40 * detail + 2 ^ 64 * s.rp.mgmt.cmdHead) ∧
        .event (s.ringBase Reg.mgtEvtBaseLo Reg.mgtEvtBaseHi + 32 * (s.rp.mgmt.evtTail % s.evtSize)) e
          (eventBytes (s.rp.mgmt.evtTail / s.evtSize % 2 == 0) e) ∈ ((begun s c).cmdDone status detail).out)
      ∧ ended s ((begun s c).cmdDone status detail))

/-- DRAFT_LOAD, SKEIN, FENCE, RETURN, RESET, EPOCH and SNAPSHOT (R214, R303, R345, R352, R355, R363, R388). Which code a RETURN, RESET
or EPOCH that cannot act ends with is the model's choice (log 36). -/
def Obligations.CommandsOfUnits : Prop :=
  ∀ (s u : State) (c : Command), s.mayFetch = true → c.fetchOk = true → u = begun s c →
    (∀ (image : List (Nat × Word)) (ok : Bool), c.op = 1 → Command.unusedZero c {
          addr := true, len := true, p0 := if bit 7 c.p0 then 0x780 else 0x78F } = true → c.len = 0 →
      ((s.slotInEffect (bits 8 3 c.p0) = true ∨ s.slotNamed (bits 8 3 c.p0) = true) →
        exec (.draftLoad c image ok) s = .next (u.cmdDone 2 0)) ∧
      (s.slotInEffect (bits 8 3 c.p0) = false → s.slotNamed (bits 8 3 c.p0) = false →
        (ok = false → exec (.draftLoad c image ok) s = .next (u.cmdDone 4 0)) ∧
        (∀ (o : Nat) (v : Word), ok = true → bit 7 c.p0 = false → image = [(o, v)] → o < 0x20000 → o % 4 = 0 →
          ∃ t, exec (.draftLoad c image ok) s = .next t
            ∧ t.reg .ronpex (draftBase (bits 0 4 c.p0) (bits 8 3 c.p0) + o) = v.toNat
            ∧ (∀ x, x < 0x20000 → x ≠ o → t.reg .ronpex (draftBase (bits 0 4 c.p0) (bits 8 3 c.p0) + x)
                = (rpDefault (draftBase (bits 0 4 c.p0) (bits 8 3 c.p0) + x)).toNat)
            ∧ bit (bits 8 3 c.p0) t.rp.warp.accepted = false ∧ ended s t))) ∧
    (∀ k op r : Nat, c.op = 2 → Command.unusedZero c { p0 := if bit 15 c.p0 then 0x3F873F else 0x873F } = true → k = bits 0 6 c.p0 →
      op = bits 8 3 c.p0 → 1 ≤ op → op ≤ 4 →
      r = u.cmdResult k op →
      (r = 0 →
        ∃ t, exec (.skein c) s = .next t ∧ waits s t c .skein
          ∧ t.rp.skeins = { s.rp.skeins with cmd := some {
              op := op, skein := k, effect := s.frameAfter 1000 * frameNs
              template := if bit 15 c.p0 = true ∧ op = 1 then some (bits 16 6 c.p0) else none } }
          ∧ t.reg .ronpex Reg.sknStat = k ∧ regsBut s t .ronpex [Reg.sknStat]) ∧
      (r ≠ 0 →
        ∃ t, exec (.skein c) s = .next t ∧ ended s t ∧ t.rp.skeins = s.rp.skeins ∧ t.fld .ronpex Reg.sknStat 8 8 = r)) ∧
    (∀ i : Nat, Command.unusedZero c { p0 := 0xFFFFFF } = true → bits 0 8 c.p0 ≤ 4 → unitIndex (bits 0 8 c.p0) (bits 8 16 c.p0) = some i →
      (c.op = 3 → exec (.fence c) s = .next ((u.softFence i ringWriter).cmdDone 0 0)) ∧
      (c.op = 4 → (u.returnUnit i).2 = true → exec (.return c) s = .next ((u.softReturn i ringWriter).cmdDone 0 0)) ∧
      (c.op = 4 → (u.returnUnit i).2 = false → exec (.return c) s = .next (u.cmdDone 3 0))) ∧
    (Command.unusedZero c { p0 := 0xFFFFFF } = true → (4 < bits 0 8 c.p0 ∨ unitIndex (bits 0 8 c.p0) (bits 8 16 c.p0) = none) →
      (c.op = 3 → exec (.fence c) s = .next (u.cmdDone 1 0)) ∧ (c.op = 4 → exec (.return c) s = .next (u.cmdDone 1 0))) ∧
    (∀ n : Nat, c.op = 5 → Command.unusedZero c { p0 := 0xF1 } = true → n = bits 4 4 c.p0 →
      (bit 0 c.p0 = false → s.regionOff n = true → exec (.reset c) s = .next (u.cmdDone 2 0)) ∧
      (bit 0 c.p0 = false → s.regionOff n = false →
        ∃ t, exec (.reset c) s = .next t ∧ waits s t c (.reset false n) ∧ (n, s.now) ∈ t.rp.units.regions ∧ t.regionOff n = true) ∧
      (bit 0 c.p0 = true → n < 4 → bit n s.rp.units.awake = true → (∀ e ∈ s.rp.units.dies, e.1 ≠ n) →
        ∃ t, exec (.reset c) s = .next t
          ∧ t.rp.mgmt.running = some { tag := c.tag, count := s.rp.mgmt.cmdHead, wait := .reset true n }
          ∧ (n, s.now) ∈ t.rp.units.dies ∧ (∀ a, t.hbmByte a = if chanOf a / 32 = n then 0 else s.hbmByte a)
          ∧ t.ep = s.ep ∧ t.now = s.now ∧ t.pending = s.pending)) ∧
    (∀ e at_ : Nat, c.op = 6 → Command.unusedZero c { p0 := 0xFFFF } = true → e = bits 0 16 c.p0 →
      at_ = frameTime s.now (s.frameAfter 10000 % 2 ^ 32) →
      (s.epochAhead .ronpex e = false → exec (.epoch c) s = .next (u.cmdDone 3 0)) ∧
      (s.epochAhead .ronpex e = true →
        ∃ t, exec (.epoch c) s = .next t ∧ waits s t c (.epoch at_) ∧ t.rp.orders.epoch = some (e, at_)
          ∧ t.epoch .ronpex = s.epoch .ronpex ∧ t.rp.links = s.rp.links)) ∧
    (c.op = 7 → Command.unusedZero c { p0 := 0xFFFF, p1 := true, args := 8 } = true → s.now ≤ c.p1 →
      ∃ t, exec (.snapshot c) s = .next t ∧ ended s t
        ∧ t.rp.orders.snap = some (c.p1, bits 0 16 c.p0, BitVec.ofNat 64 (fieldNat c.args 0 8))
        ∧ t.reg .ronpex Reg.mgtSnapStat = bits 0 16 c.p0 ∧ t.reg .ronpex Reg.mgtSnapTLo = bits 0 32 c.p1
        ∧ t.reg .ronpex Reg.mgtSnapTHi = bits 32 32 c.p1)

/-- SEND, TENANT, FW_WRITE, FW_VERIFY, FW_ACTIVATE and FW_ERASE (R328, R388, R394, R404-R406). FW_VERIFY makes the three checks of R405
in their order, MAGIC and PART, then the signature and the body digest, then SVN; a write to a slot that is staged ends with
WRONG_STATE. The codes are those of R388: 2 WRONG_STATE, 3 REFUSED, 5 SIGNATURE, 6 ROLLBACK. -/
def Obligations.CommandsOfFirmware : Prop :=
  ∀ (s u : State) (c : Command), s.mayFetch = true → c.fetchOk = true → u = begun s c →
    (∀ (d : List Byte) (ok : Bool), c.op = 8 → Command.unusedZero c { addr := true, len := true, p0 := 0x7FFF } = true →
      (768 < c.len → exec (.send c d ok) s = .next (u.cmdDone 1 0)) ∧
      (c.len ≤ 768 → ok = false → exec (.send c d ok) s = .next (u.cmdDone 4 0)) ∧
      (c.len ≤ 768 → ok = true → s.rp.src.held = [] →
        (bits 0 15 c.p0 ≠ 0x7FFF →
          ∃ t h, exec (.send c d ok) s = .next t ∧ waits s t c (.sent [s.rp.src.nextId] false) ∧ t.rp.src.held = [h]
            ∧ h.id = s.rp.src.nextId ∧ h.c.dest = bits 0 15 c.p0 ∧ t.rp.links = s.rp.links) ∧
        (∀ l : List Nat, bits 0 15 c.p0 = 0x7FFF → l = s.upPorts.filter s.facesPlocen →
          (l = [] → exec (.send c d ok) s = .next (u.cmdDone 0 0)) ∧
          (l ≠ [] →
            ∃ t, exec (.send c d ok) s = .next t
              ∧ waits s t c (.sent ((List.range l.length).map (s.rp.src.nextId + ·)) false)
              ∧ t.rp.src.held.map (fun h => h.c.dest) = l.map s.portNode ∧ t.rp.links = s.rp.links)))) ∧
    (∀ (k n : Nat) (x : State), c.op = 9 → Command.unusedZero c { addr := true, p0 := 0xF013F, p1 := true } = true →
      bits 16 4 c.p0 = 1 → bit 8 c.p0 = false → c.p1 % 4 = 0 → k = bits 0 6 c.p0 → n = SMap.look (fun _ => 0) s.rp.skeins.mgmt k →
      x = { u with rp := { u.rp with skeins := { u.rp.skeins with mgmt := SMap.put (fun _ => 0) u.rp.skeins.mgmt k (n + 1) } } } →
      ((s.enforced = false ∨ n < s.mgmtBudget k) → u.ownReg k c.p1 = true →
        ∃ t, exec (.tenant c) s = .next t ∧ ended s t ∧ .dmaWrite c.addr (leBytes 4 (u.rpRead c.p1)) ∈ t.out
          ∧ t.rp.skeins = x.rp.skeins) ∧
      (s.enforced = true → s.mgmtBudget k ≤ n →
        ∃ t, exec (.tenant c) s = .next t ∧ waits s t c (.budget c) ∧ t.out = s.out ∧ t.rp.skeins = s.rp.skeins)) ∧
    (∀ (d : List Byte) (ok : Bool), c.op = 10 → Command.unusedZero c { addr := true, len := true, p0 := 0xFFFFFFFF } = true →
      (s.rp.sec.fw ≠ 0 → exec (.fwWrite c d ok) s = .next (u.cmdDone 2 0)) ∧
      (s.rp.sec.fw = 0 → (c.p0 % 4096 ≠ 0 ∨ 2 ^ 20 < c.len ∨ slotBytes < c.p0 + c.len) →
        exec (.fwWrite c d ok) s = .next (u.cmdDone 1 0)) ∧
      (s.rp.sec.fw = 0 → c.p0 % 4096 = 0 → c.len ≤ 2 ^ 20 → c.p0 + c.len ≤ slotBytes → ok = true →
        ∃ t, exec (.fwWrite c d ok) s = .next t ∧ ended s t
          ∧ (∀ i, i < c.len → t.rp.sec.slotByte (!s.rp.sec.slotB) (c.p0 + i) = d.getD i 0)
          ∧ (∀ a, (a < c.p0 ∨ c.p0 + c.len ≤ a) →
              t.rp.sec.slotByte (!s.rp.sec.slotB) a = s.rp.sec.slotByte (!s.rp.sec.slotB) a)
          ∧ (∀ a, t.rp.sec.slotByte s.rp.sec.slotB a = s.rp.sec.slotByte s.rp.sec.slotB a)
          ∧ t.rp.sec.slotB = s.rp.sec.slotB ∧ t.rp.sec.fw = 0)) ∧
    (∀ (b : Bool) (n : Nat) (head : List Byte), c.op = 11 → Command.unusedZero c {} = true → b = !s.rp.sec.slotB →
      n = s.rp.sec.bodyLength b → head = s.rp.sec.slotRead b 0 512 →
      if fieldNat head 0 4 ≠ 0x5746444A ∨ fieldNat head 4 2 ≠ 0x0192 then exec (.fwVerify c) s = .next (u.cmdDone 3 0)
      else if Config.firmwareSignatureVerifies (Config.sha384 (head.take 64)) (sliceBytes (head.drop 64) 0 96) = false
          ∨ slotBytes < 512 + n ∨ (Config.sha384 (s.rp.sec.slotRead b 512 n)).toNat ≠ fieldNat head 16 48 then
        exec (.fwVerify c) s = .next (u.cmdDone 5 0)
      else if fieldNat head 6 2 < s.rp.pst.word Reg.pstFwsvn % 2 ^ 16 then exec (.fwVerify c) s = .next (u.cmdDone 6 0)
      else
        (s.rp.sec.fw ≠ 0 → exec (.fwVerify c) s = .next (u.cmdDone 0 0)) ∧
        (s.rp.sec.fw = 0 → ∃ t, exec (.fwVerify c) s = .next t ∧ ended s t ∧ t.rp.sec = { s.rp.sec with fw := 1 })) ∧
    (c.op = 12 → Command.unusedZero c {} = true →
      (s.rp.sec.fw ≠ 1 → exec (.fwActivate c) s = .next (u.cmdDone 2 0)) ∧
      (s.rp.sec.fw = 1 →
        ∃ t, exec (.fwActivate c) s = .next t ∧ waits s t c .activate ∧ t.rp.links = s.rp.links
          ∧ t.rp.sec = { s.rp.sec with fw := 2, restartAt := some s.now, activating := true, sessions := [] })) ∧
    (c.op = 13 → Command.unusedZero c {} = true →
      ∃ t, exec (.fwErase c) s = .next t ∧ ended s t ∧ (∀ a, t.rp.sec.slotByte (!s.rp.sec.slotB) a = 0)
        ∧ (∀ a, t.rp.sec.slotByte s.rp.sec.slotB a = s.rp.sec.slotByte s.rp.sec.slotB a)
        ∧ t.rp.sec.fw = (if s.rp.sec.fw = 1 then 0 else s.rp.sec.fw))

/-- The log, the tray chain and the persistent store: LOG_COPY, TRAY_FRAME, TOKEN, TOKEN_REGEN, TRAY_CHAIN_LINK, PST_WRITE_PERSIST and
HOURS_TICK (R374, R395, R396, R398, R399, R403). -/
def Obligations.LogTrayStore : Prop :=
  ∀ s : State,
    (∀ (src : MgmtSource) (e : LogEntry), s.rp.power.supplyLost = false →
      ∃ t, exec (.logCopy src e) s = .next t ∧ regsBut s t .ronpex [Reg.logLost]
        ∧ t.rp.log = s.rp.log.append 262144 Config.ronpexSerial
            (if s.rpMgmtOk src 9 = true then { e.body with origin := 7, requester := src.node } else violBody s.now src.node src.port 0 9 0)
        ∧ t = { s with rp := { s.rp with regs := t.rp.regs, log := t.rp.log } }) ∧
    (∀ (port : Fin 2) (f : TrayFrame), f.crc ≠ trayCrc f → exec (.trayFrame port f) s = .next s) ∧
    (∀ (port : Fin 2) (f : TrayFrame), s.trayUp port = true → f.crc = trayCrc f → f.ftype ≠ 0 → f.ftype ≠ 2 →
      (f.src = s.trayPos → exec (.trayFrame port f) s = .next s) ∧
      (f.src ≠ s.trayPos → f.dst ≠ s.trayPos → f.dst ≠ 255 → 1 < f.hops → s.trayUp (1 - port.val) = true →
        ∃ t, exec (.trayFrame port f) s = .next t ∧ t.out = trayOutput (1 - port.val) { f with hops := f.hops - 1 } :: s.out
          ∧ t = { s with out := t.out, rp := { s.rp with tray := t.rp.tray } }) ∧
      (∀ m, f.src ≠ s.trayPos → f.dst = s.trayPos → f.ftype = 1 → f.mgmt = some m →
        (∀ x ∈ s.rp.tray.seen, x.1 = f.src → x.2.1 = f.fseq → x.2.2 + 1000000 ≤ s.now) →
        ∃ l, (f.src, f.fseq, s.now) ∈ l ∧ exec (.trayFrame port f) s
          = .next (({ s with rp := { s.rp with tray := { s.rp.tray with seen := l } } } : State).rpMgmtIn
              { port := 192 + port, node := f.src, tray := true } m))) ∧
    (∀ (port : Fin 2) (f : TrayFrame), s.trayUp port = true → f.crc = trayCrc { f with ftype := 2 } → f.dst = 255 →
      (∃ x ∈ s.rp.tray.seen, x.1 = f.src ∧ x.2.1 = f.fseq ∧ s.now < x.2.2 + 1000000) →
      ∃ t, exec (.token port f) s = .next t ∧ t = { s with rp := { s.rp with tray := { s.rp.tray with seen := t.rp.tray.seen } } }) ∧
    (∀ (port : Fin 2) (f : TrayFrame) (tok : Nat), s.trayUp port = true → f.crc = trayCrc { f with ftype := 2 } →
      fieldNat f.body 0 1 % 2 = tok → (f.dst = s.trayPos ∨ f.dst = 255) → s.rp.power.tripped = false →
      (∀ x ∈ s.rp.tray.seen, x.1 = f.src → x.2.1 = f.fseq → x.2.2 + 1000000 ≤ s.now) →
      ((s.flag .ronpex Reg.timWake 4 = true → s.flag .ronpex Reg.timWake 5 = true) → s.wakeState = 2 → s.rp.power.wakeHeld = false →
        s.rp.power.token = none →
        ∃ t, exec (.token port f) s = .next t ∧ t.wakeState = 3 ∧ t.rp.power.token = some (tok, s.now)
          ∧ t.rp.power.t0 = some s.now ∧ t.out = s.out ∧ regsBut s t .ronpex [Reg.timWake] ∧ onlyRonpex s t) ∧
      (s.wakeState ≠ 2 → s.flag .ronpex Reg.timWake 4 = false → s.trayUp 0 = true →
        ∃ t, exec (.token port f) s = .next t ∧ t.out = trayOutput 0 (s.tokenFrame tok) :: s.out ∧ t.rp.power = s.rp.power
          ∧ t.rp.regs = s.rp.regs ∧ onlyRonpex s t)) ∧
    (∀ tok : Fin 2, s.flag .ronpex Reg.timWake 4 = true → s.flag .ronpex Reg.timWake 5 = true → s.rp.power.token = none →
      s.wakeState ≠ 2 → s.trayUp 0 = true → s.rp.power.tripped = false →
      (SMap.look (fun _ => 0) s.rp.tray.tokenAt tok + 10000000 ≤ s.now →
        ∃ t, exec (.tokenRegen tok) s = .next t ∧ t.out = trayOutput 0 (s.tokenFrame tok) :: s.out
          ∧ SMap.look (fun _ => 0) t.rp.tray.tokenAt tok = s.now ∧ t.rp.regs = s.rp.regs ∧ onlyRonpex s t) ∧
      (s.now < SMap.look (fun _ => 0) s.rp.tray.tokenAt tok + 10000000 → exec (.tokenRegen tok) s = .next s)) ∧
    (∀ port : Fin 2,
      (∃ t, exec (.trayChainLink port false) s = .next t ∧ t.trayUp port = false ∧ t.trayUp (1 - port.val) = s.trayUp (1 - port.val)
        ∧ t = { s with rp := { s.rp with tray := { s.rp.tray with link := t.rp.tray.link } } }) ∧
      (∃ t g, exec (.trayChainLink port true) s = .next t ∧ t.trayUp port = true ∧ t.trayUp (1 - port.val) = s.trayUp (1 - port.val)
        ∧ t.out = trayOutput port g :: s.out ∧ g.ftype = 4
        ∧ g.body = leBytes 8 Config.ronpexSerial.toNat ++ leBytes 1 s.trayPos
        ∧ t = { s with out := t.out, rp := { s.rp with tray := t.rp.tray } })) ∧
    (s.rp.pst.queue = [] → exec .pstWritePersist s = .next s) ∧
    (∀ (a : Nat) (v : Word) (q : List (Nat × Word)), s.rp.pst.queue = (a, v) :: q → s.rp.pst.locked a = false →
      ∃ t, exec .pstWritePersist s = .next t ∧ t.rp.pst.queue = q ∧ SMap.look pstDefault t.rp.pst.words a = v
        ∧ t.rp.pst.wearOf a = s.rp.pst.wearOf a + 1
        ∧ (∀ b, b ≠ a → SMap.look pstDefault t.rp.pst.words b = SMap.look pstDefault s.rp.pst.words b)
        ∧ t.rp.links = s.rp.links ∧ onlyRonpex s t) ∧
    (s.rp.pst.locked Reg.pstHours = false → (∀ e ∈ s.rp.pst.queue, e.1 ≠ Reg.pstHours) →
      ∃ t, exec .hoursTick s = .next t ∧ t.rp.pst.word Reg.pstHours = satAdd 32 (s.rp.pst.word Reg.pstHours) 1
        ∧ (∀ b, b ≠ Reg.pstHours → t.rp.pst.word b = s.rp.pst.word b) ∧ t.rp.links = s.rp.links ∧ onlyRonpex s t)

/-! ### Fabric-wide orders and reports (R350, R354-R364) -/

/-- Epochs and snapshots: EPOCH_ORDER, EPOCH_APPLY, SNAPSHOT_ORDER and SNAPSHOT_CAPTURE (R355, R363). -/
def Obligations.EpochsAndSnapshots : Prop :=
  ∀ (s : State) (p : Part),
    (∀ (src : MgmtSource) (e eff : Nat),
      (p = .ronpex → s.rpMgmtOk src 5 = true) → (p = .plocen → s.epMgmtOk src.port src.node = true) →
      (s.epochAhead p e = true →
        ∃ t, exec (.epochOrder p src e eff) s = .next t ∧ (t.orders p).epoch = some (e, frameTime s.now eff)
          ∧ (t.orders p).snap = (s.orders p).snap ∧ t.epoch p = s.epoch p ∧ onlyPart p s t) ∧
      (s.epochAhead p e = false → exec (.epochOrder p src e eff) s = .next s)) ∧
    (∀ e t0 : Nat, (s.orders p).epoch = some (e, t0) →
      (s.now < t0 → exec (.epochApply p) s = .next s) ∧
      (t0 ≤ s.now →
        ∃ t, exec (.epochApply p) s = .next t ∧ t.epoch p = e % 2 ^ 16 ∧ (t.orders p).epoch = none ∧ onlyPart p s t)) ∧
    (∀ (src : MgmtSource) (at_ number : Nat) (k : BitVec 64), number < 2 ^ 16 →
      (p = .ronpex → s.rpMgmtOk src 6 = true) →
      (p = .plocen → s.epMgmtOk src.port src.node = true ∧ bit s.epSkein k.toNat = true) →
      ∃ t, exec (.snapshotOrder p src at_ number k) s = .next t ∧ onlyPart p s t
        ∧ t.reg p (snapRegs p).2.1 = bits 0 32 at_ ∧ t.reg p (snapRegs p).2.2 = bits 32 32 at_
        ∧ (s.now ≤ at_ → (t.orders p).snap = some (at_, number, k) ∧ t.reg p (snapRegs p).1 = number)
        ∧ (at_ < s.now → (t.orders p).snap = none ∧ t.reg p (snapRegs p).1 = number + 2 ^ 17)
        ∧ (t.orders p).epoch = (s.orders p).epoch) ∧
    (∀ (at_ number : Nat) (k : BitVec 64), (s.orders p).snap = some (at_, number, k) → number < 2 ^ 16 →
      (s.now < at_ → exec (.snapshotCapture p) s = .next s) ∧
      (at_ ≤ s.now →
        ∃ t, exec (.snapshotCapture p) s = .next t ∧ t.reg p (snapRegs p).1 = number + 2 ^ 16
          ∧ t.orders p = { s.orders p with
              snap := none, imageAt := some s.now
              image := match p with
                | .ronpex => s.rp.fmem.hcnt
                | .plocen => s.ep.hanks }
          ∧ onlyPart p s t))

/-- Reports and notices: REPORT, REPORT_WINDOW_EXPIRE, PATH_LOSS and PORT_RELEASE (R350, R354, R357, R359, R360). -/
def Obligations.ReportsAndNotices : Prop :=
  ∀ s : State,
    (∀ (src : MgmtSource) (r : Report), s.rpMgmtOk src 8 = true →
      ((∀ e ∈ s.rp.filter.ents, ¬(e.type = r.type ∧ e.target = r.target)) → s.rp.filter.ents.length < 1024 →
        s.rp.sec.restartAt = none → s.evtFree = true → s.reg .ronpex Reg.mgtEvtOvf = 0 →
        ∃ t, exec (.report src r) s = .next t
          ∧ t.rp.filter = { s.rp.filter with ents := s.rp.filter.ents ++ [{ type := r.type, target := r.target, since := s.now, count := 0 }] }
          ∧ (∃ a b, Out.event a (reportEvent src.node r) b ∈ t.out) ∧ t.rp.links = s.rp.links ∧ onlyRonpex s t) ∧
      ((∃ e ∈ s.rp.filter.ents, e.type = r.type ∧ e.target = r.target) →
        ∃ t, exec (.report src r) s = .next t ∧ t = { s with rp := { s.rp with filter := t.rp.filter } }
          ∧ t.rp.filter = { s.rp.filter with ents := s.rp.filter.ents.map fun e : RepEnt =>
              if e.type = r.type ∧ e.target = r.target then { e with count := e.count + 1 + r.suppressed } else e })) ∧
    (∀ w : RepWin, s.ep.reps = [w] →
      (s.now < w.since + 100000 → exec (.reportWindowExpire w.r.type w.r.target) s = .next s) ∧
      (w.since + 100000 ≤ s.now → w.withheld = 0 →
        exec (.reportWindowExpire w.r.type w.r.target) s = .next { s with ep := { s.ep with reps := [] } }) ∧
      (w.since + 100000 ≤ s.now → w.withheld ≠ 0 →
        ∃ t, exec (.reportWindowExpire w.r.type w.r.target) s = .next t ∧ onlyPlocen s t ∧ t.ep.hanks = s.ep.hanks
          ∧ t.ep.reps = [{ w with since := s.now, withheld := if s.mayReport = true then 0 else w.withheld }]
          ∧ (s.mayReport = true → t.ep.repTimes = s.recentReports ++ [s.now])
          ∧ (s.mayReport = false → t = { s with ep := { s.ep with reps := t.ep.reps } }))) ∧
    (∀ (src : MgmtSource) (plane tL : Nat),
      (s.epMgmtOk src.port src.node = true →
        (∀ h : Held, s.ep.src.held = [h] → h.plane = plane → (h.loc = .sent ∨ ∃ t0, h.loc = .backoff t0) → tL ≤ h.due - 1000 * h.retryUs + 10000 →
          s.lifeOver h = false → s.epLive plane = true →
          ∃ t, exec (.pathLoss .plocen src plane tL) s = .next t
            ∧ t.held? .plocen h.id = some { h with loc := .port, due := s.now + 1000 * h.retryUs }
            ∧ t = { s with ep := { s.ep with src := t.ep.src, tx := t.ep.tx } }) ∧
        ((∀ h ∈ s.ep.src.held, h.plane ≠ plane) → exec (.pathLoss .plocen src plane tL) s = .next s)) ∧
      (s.rpMgmtOk src 7 = true →
        ∃ t, exec (.pathLoss .ronpex src plane tL) s = .next t
          ∧ t = (if s.role = 2 then s.packagePorts else s.endPointPorts).foldl (fun u p => u.toFarEnd p (.pathLoss s.plane tL)) s
          ∧ t.rp.links = s.rp.links ∧ onlyRonpex s t)) ∧
    (∀ (p : Fin 8) (src : MgmtSource) (port gen : Nat), s.epMgmtOk p src.node = true →
      (s.portUp .plocen port = true →
        ∃ t, exec (.portRelease p src port gen) s = .next t
          ∧ t.ep.released = (s.ep.released.filter fun x => decide (x.1 ≠ port)) ++ [(port, gen)]
          ∧ t = { s with ep := { s.ep with released := t.ep.released } }) ∧
      (s.portUp .plocen port = false → exec (.portRelease p src port gen) s = .next s))

/-! ### Register writes (R10-R16, R385, R414, R415) -/

/-- What a write by the access types leaves in bit `j` of a register of row `r` (R13): a 1 clears a W1C bit, an RW or RWP bit takes
the written bit, and any other bit is kept. -/
def Sys2Proof.Claims.bitAfter (r : RegRow) (old v j : Nat) : Bool :=
  if bit j r.w1c = true ∧ bit j v = true then false
  else if bit j r.rw = true ∨ bit j r.rwp = true then bit j v
  else bit j old

/-- A register of the Plocen whose writes act by the access types alone. -/
def Sys2Proof.Claims.epPlain (a : Nat) : Prop :=
  a % 4 = 0 ∧ a < 2 ^ 24 ∧ (a < 0x100000 ∨ 0x110000 ≤ a) ∧ (a < 0x200000 ∨ 0x300000 ≤ a) ∧ (a < 0x400000 ∨ 0x800000 ≤ a)
    ∧ a ∉ [Reg.epXltCtl, Reg.epXltFillDb, Reg.epXltMissDb, Reg.epXltArm, Reg.epSeqTmo, Reg.epSeqLife, Reg.epSeqWctl]
    ∧ (a < Reg.epXltRcfg ∨ Reg.epXltTmo < a) ∧ arrayIndex 0x61000 0x100 8 a = none

/-- A register of the Ronpex outside the hub whose writes act by the access types alone. -/
def Sys2Proof.Claims.rpPlain (a : Nat) : Prop :=
  ∃ b n o, decode412 a = some (b, n, o) ∧ (b = .port ∧ o ≠ 4 ∨ b = .eddy ∨ b = .spindle ∧ o ≠ 8 ∨ b = .engine ∧ o ≠ 8 ∨ b = .portSet ∧ o ≠ 0)

/-- REGISTER_WRITE: a register without a row of its own takes the written value by its access types and no other register changes; a
word of a draft store is written unless its slot is in effect; a reserved address and a malformed access change no register; a
register with a row of its own acts as that row; and no store reaches the Plocen while its attach link carries no traffic (R13, R15,
R84, R92, R385, R414, R415). -/
def Obligations.RegisterWrites : Prop :=
  ∀ (s : State) (v : BitVec 64) (w : Writer),
    (∀ (a : Nat) (r : RegRow) (i : List Nat), s.attOn = true → epPlain a → epRow a = some (r, i) →
      ∃ t, exec (.registerWrite .plocen a 4 v w) s = .next t
        ∧ (∀ j < 32, bit j (t.reg .plocen a) = bitAfter r (s.reg .plocen a) v.toNat j) ∧ regsBut s t .plocen [a]
        ∧ t = { s with ep := { s.ep with regs := t.ep.regs, log := t.ep.log } }) ∧
    (∀ (a : Nat) (r : RegRow) (i : List Nat), rpTakes s w → a % 4 = 0 → (rpPlain a ∨ a = Reg.drfStart ∨ a = Reg.fmhErr ∨ a = Reg.secErr) →
      rpRow a = some (r, i) →
      ∃ t, exec (.registerWrite .ronpex a 4 v w) s = .next t
        ∧ (∀ j < 32, bit j (t.reg .ronpex a) = bitAfter r (s.reg .ronpex a) v.toNat j) ∧ regsBut s t .ronpex [a, Reg.logLost]
        ∧ t = { s with rp := { s.rp with regs := t.rp.regs, log := t.rp.log } }) ∧
    (∀ a n o, rpTakes s w → a % 4 = 0 → decode412 a = some (.draft, n, o) →
      (s.slotInEffect (o / 0x20000) = true →
        ∃ t, exec (.registerWrite .ronpex a 4 v w) s = .next t ∧ regsBut s t .ronpex [Reg.logLost]
          ∧ t = { s with rp := { s.rp with regs := t.rp.regs, log := t.rp.log } }) ∧
      (s.slotInEffect (o / 0x20000) = false →
        ∃ t, exec (.registerWrite .ronpex a 4 v w) s = .next t ∧ t.reg .ronpex a = v.toNat % 2 ^ 32
          ∧ regsBut s t .ronpex [a, Reg.logLost] ∧ bit (o / 0x20000) t.rp.warp.accepted = false
          ∧ t = { s with rp := { s.rp with
                regs := t.rp.regs, log := t.rp.log, warp := { s.rp.warp with accepted := t.rp.warp.accepted } } })) ∧
    (∀ a, rpTakes s w → a % 4 = 0 → a < 2 ^ 27 → decode412 a = none →
      ∃ t, exec (.registerWrite .ronpex a 4 v w) s = .next t ∧ regsBut s t .ronpex [Reg.logLost]
        ∧ t = { s with rp := { s.rp with regs := t.rp.regs, log := t.rp.log } }) ∧
    (∀ a n, 2 ^ 27 ≤ a → exec (.registerWrite .ronpex a n v w) s = .next s) ∧
    (∀ a n, regAccess a n = false → a < 2 ^ 27 → w.origin ≤ 1 →
      exec (.registerWrite .ronpex a n v w) s = .next { s with out := .refusedAccess w.origin :: s.out }) ∧
    (∀ a n, s.attOn = false → exec (.registerWrite .plocen a n v w) s = .next s) ∧
    (∀ a n, s.attOn = true → (regAccess a n = false ∨ 2 ^ 24 ≤ a) →
      ∃ t, exec (.registerWrite .plocen a n v w) s = .next t ∧ t.flag .plocen Reg.epAttErr 6 = true
        ∧ regsBut s t .plocen [Reg.epAttErr] ∧ onlyAttachRegs s t) ∧
    (∀ p : Fin 192, exec (.registerWrite .ronpex (Reg.sknPort p) 4 v w) s = exec (.portAssign p (v.setWidth 32) w) s) ∧
    (∀ m : Fin 4, exec (.registerWrite .ronpex (Reg.lasAccess m) 4 v w) s = exec (.lasAccessGo m (v.setWidth 32) w) s) ∧
    (exec (.registerWrite .ronpex Reg.mgtCmdDb 4 v w) s = exec (.cmdDb (v.setWidth 32) w) s) ∧
    (exec (.registerWrite .ronpex Reg.timSetLo 8 v w) s = exec (.timeSet v w) s) ∧
    (exec (.registerWrite .plocen Reg.epXltCtl 4 v w) s = exec (.xltEnable (v.setWidth 32) w) s) ∧
    (∀ n : Fin 1024, exec (.registerWrite .plocen (Reg.epRngCfg n) 4 v w) s = exec (.ringEnable n (v.setWidth 32) w) s)

/-! ### The block as a whole -/

/-- The invariant of the block: fabric-resident memory is in canonical form, every waiting command is well formed, and the writes that
wait for the persistent store are to words that software may write. -/
def Sys2Proof.Claims.Inv (s : State) : Prop := s.memWf = true ∧ s.queueWf = true ∧ s.pstQueueWf = true

/-- A step takes the command at the front of the queue and runs it on the state with the queue's rest; with nothing waiting the block
idles, which is the model's choice (log 3). -/
def Obligations.StepRunsFront : Prop :=
  (∀ (s : State) (c : Instr) (rest : List Instr), step { s with pending := c :: rest } = exec c { s with pending := rest }) ∧
  (∀ s : State, s.pending = [] → step s = .next s)

/-- Every step answers a next state, which keeps the invariant and whose queue is the rest of the queue: no command stops the block, and
none puts a command into the queue or takes a second one from it. -/
def Obligations.StepKeepsInvariant : Prop :=
  ∀ s : State, Inv s → ∃ t, step s = .next t ∧ Inv t ∧ t.pending = s.pending.drop 1

/-- At reset the invariant holds, nothing waits, memory lists nothing, every register holds the value that its table gives for reset,
skein 0 is ACTIVE and every other skein FREE, and every port is OFF (R14, R275, R302, R303). -/
def Obligations.ResetState : Prop :=
  Inv State.reset ∧ State.reset.pending = [] ∧ State.reset.hbm = [] ∧ (∀ a, State.reset.reg .ronpex a = (rpDefault a).toNat)
    ∧ (∀ a, State.reset.reg .plocen a = (epDefault a).toNat) ∧ State.reset.skeinState 0 = 2
    ∧ (∀ k : Fin 64, k.val ≠ 0 → State.reset.skeinState k = 0)
    ∧ (∀ p : Fin 192, State.reset.portState .ronpex p = 0) ∧ (∀ p : Fin 8, State.reset.portState .plocen p = 0)

/-- What is stored is read back and nothing else changes: bytes of fabric-resident memory, registers, and fields of registers. Storing
and zeroing keep memory in canonical form (R12, R249). -/
def Obligations.ReadAfterWrite : Prop :=
  (∀ (s : State) (a : Nat) (d : List Byte),
    (s.hbmWrite a d).hbmRead a d.length = d ∧ (∀ b, (b < a ∨ a + d.length ≤ b) → (s.hbmWrite a d).hbmByte b = s.hbmByte b)
      ∧ (s.memWf = true → (s.hbmWrite a d).memWf = true) ∧ (s.hbmWrite a d) = { s with hbm := (s.hbmWrite a d).hbm }) ∧
  (∀ (s : State) (a n : Nat),
    (∀ b, (s.hbmZero a n).hbmByte b = if a ≤ b ∧ b < a + n then 0 else s.hbmByte b)
      ∧ (s.memWf = true → (s.hbmZero a n).memWf = true) ∧ (s.hbmZero a n) = { s with hbm := (s.hbmZero a n).hbm }) ∧
  (∀ (s : State) (p q : Part) (a b v : Nat),
    (s.setReg p a v).reg q b = if p = q ∧ a = b then v % 2 ^ 32 else s.reg q b) ∧
  (∀ (s : State) (p : Part) (a lo len v : Nat), lo + len ≤ 32 →
    (s.setFld p a lo len v).fld p a lo len = v % 2 ^ len
      ∧ (∀ j, (j < lo ∨ lo + len ≤ j) → (s.setFld p a lo len v).flag p a j = s.flag p a j)
      ∧ regsBut s (s.setFld p a lo len v) p [a])

/-- The commands that come from the accelerator, or from the Plocen's own units, and that concern the attach link, the rings and the
translation alone. -/
def Sys2Proof.Claims.attachSide : Instr → Bool
  | .moduleTrained _ _ | .parameterExchange _ _ | .init _ | .initAck _ | .initResend | .sqDb _ _ | .cqDb _ _ | .arm _ _
  | .intrModerationTimeout _ | .put _ | .putAck _ | .get _ | .atomic _ | .gather _ | .scatter _ | .warpJoin _ | .hankWait _
  | .hankSet _ | .fmemPage _ | .gateMet _ _ | .waitTimeout _ _ | .shuttleInternalError _ | .ringDrainDone _ | .fillDb _
  | .missDb _ | .xltArm _ | .microCacheAck _ | .drained _ | .inRemoved | .replyHoldExpire _ | .epReset | .epThermtrip => true
  | _ => false

/-- Such a command neither changes the Ronpex, fabric-resident memory and the queue, nor depends on them: with any others in their
place, it does the same to the Plocen and sends the same outside. -/
def Obligations.AttachIsolation : Prop :=
  ∀ (c : Instr) (s : State) (r : Ronpex) (m : SMap Byte) (q : List Instr), attachSide c = true →
    ∃ t, exec c s = .next t ∧ exec c { s with rp := r, hbm := m, pending := q } = .next { t with rp := r, hbm := m, pending := q }
end

