-- ==== Sys2Proof/Laws/Maps.lean ====
section
/-! SUPPORT. What reading and writing a sparse table do, and that every operation keeps its canonical form. -/

namespace Sys2Proof.Machine

open Sys2Proof

variable {α : Type}

@[simp] theorem SMap.look_nil (d : Nat → α) (k : Nat) : SMap.look d [] k = d k := rfl

/-- A dropped key reads as an unlisted one. -/
theorem SMap.look_drop_same (d : Nat → α) (m : SMap α) (k : Nat) : SMap.look d (SMap.drop m k) k = d k := by
  induction m with
  | nil => rfl
  | cons e r ih =>
    by_cases h : e.1 = k
    · simpa [SMap.drop, h] using ih
    · simpa [SMap.drop, SMap.look, h] using ih

/-- Dropping one key changes no other. -/
theorem SMap.look_drop_other (d : Nat → α) (m : SMap α) (k j : Nat) (h : j ≠ k) :
    SMap.look d (SMap.drop m k) j = SMap.look d m j := by
  induction m with
  | nil => rfl
  | cons e r ih =>
    by_cases hk : e.1 = k
    · have : e.1 ≠ j := fun q => h (q.symm.trans hk)
      simpa [SMap.drop, SMap.look, hk, this, h.symm] using ih
    · by_cases hj : e.1 = j
      · simp [SMap.drop, SMap.look, hj, h]
      · simpa [SMap.drop, SMap.look, hk, hj] using ih

/-- An inserted key reads as its value, where no other entry has the key. -/
theorem SMap.look_insert_same (d : Nat → α) (m : SMap α) (k : Nat) (v : α) (h : ∀ e ∈ m, e.1 ≠ k) :
    SMap.look d (SMap.insert k v m) k = v := by
  induction m with
  | nil => simp [SMap.insert, SMap.look]
  | cons e r ih =>
    have hne : e.1 ≠ k := h e (by simp)
    by_cases hlt : k < e.1
    · simp [SMap.insert, hlt, SMap.look]
    · simpa [SMap.insert, hlt, SMap.look, hne] using ih fun x hx => h x (by simp [hx])

/-- Inserting one key changes no other. -/
theorem SMap.look_insert_other (d : Nat → α) (m : SMap α) (k j : Nat) (v : α) (h : j ≠ k) :
    SMap.look d (SMap.insert k v m) j = SMap.look d m j := by
  induction m with
  | nil => simp [SMap.insert, SMap.look, h.symm]
  | cons e r ih =>
    by_cases hlt : k < e.1
    · simp [SMap.insert, hlt, SMap.look, h.symm]
    · by_cases hj : e.1 = j
      · rw [SMap.insert, if_neg hlt]; simp [SMap.look, hj]
      · simpa [SMap.insert, hlt, SMap.look, hj] using ih

theorem SMap.drop_ne (m : SMap α) (k : Nat) : ∀ e ∈ SMap.drop m k, e.1 ≠ k := by
  intro e he
  simpa [SMap.drop] using (List.mem_filter.mp he).2

section Put
variable [DecidableEq α]

/-- What is put is read back. -/
@[simp] theorem SMap.look_put_same (d : Nat → α) (m : SMap α) (k : Nat) (v : α) :
    SMap.look d (SMap.put d m k v) k = v := by
  unfold SMap.put
  split
  · next h => rw [SMap.look_drop_same, h]
  · exact SMap.look_insert_same d _ k v (SMap.drop_ne m k)

/-- Putting one key changes no other. -/
theorem SMap.look_put_other (d : Nat → α) (m : SMap α) (k j : Nat) (v : α) (h : j ≠ k) :
    SMap.look d (SMap.put d m k v) j = SMap.look d m j := by
  unfold SMap.put
  split
  · exact SMap.look_drop_other d m k j h
  · rw [SMap.look_insert_other d _ k j v h, SMap.look_drop_other d m k j h]

/-- Reading after a write, both cases at once. -/
theorem SMap.look_put (d : Nat → α) (m : SMap α) (k j : Nat) (v : α) :
    SMap.look d (SMap.put d m k v) j = if j = k then v else SMap.look d m j := by
  split
  · next h => rw [h, SMap.look_put_same]
  · next h => exact SMap.look_put_other d m k j v h

end Put

/-- Two facts about a key that is listed once: it is found, and it reads as its value. -/
theorem SMap.find?_set_same (m : SMap α) (k : Nat) (v : α) : SMap.find? (SMap.set m k v) k = some v := by
  have h := SMap.drop_ne m k
  unfold SMap.set
  generalize SMap.drop m k = l at h ⊢
  induction l with
  | nil => simp [SMap.insert, SMap.find?]
  | cons e r ih =>
    have hne : e.1 ≠ k := h e (by simp)
    by_cases hlt : k < e.1
    · simp [SMap.insert, hlt, SMap.find?]
    · simpa [SMap.insert, hlt, SMap.find?, hne] using ih fun x hx => h x (by simp [hx])

/-- Setting one key of a table changes no other. -/
theorem SMap.find?_set_other (m : SMap α) (k j : Nat) (v : α) (h : j ≠ k) :
    SMap.find? (SMap.set m k v) j = SMap.find? m j := by
  have hd : SMap.find? (SMap.drop m k) j = SMap.find? m j := by
    induction m with
    | nil => rfl
    | cons e r ih =>
      by_cases hk : e.1 = k
      · have : e.1 ≠ j := fun q => h (q.symm.trans hk)
        simpa [SMap.drop, SMap.find?, hk, this, h.symm] using ih
      · by_cases hj : e.1 = j
        · simp [SMap.drop, SMap.find?, hj, h]
        · simpa [SMap.drop, SMap.find?, hk, hj] using ih
  rw [← hd]
  unfold SMap.set
  induction SMap.drop m k with
  | nil => simp [SMap.insert, SMap.find?, h.symm]
  | cons e r ih =>
    by_cases hlt : k < e.1
    · simp [SMap.insert, hlt, SMap.find?, h.symm]
    · by_cases hj : e.1 = j
      · rw [SMap.insert, if_neg hlt]; simp [SMap.find?, hj]
      · simpa [SMap.insert, hlt, SMap.find?, hj] using ih

/-! ### The canonical form -/

/-- What a table in canonical form is, as propositions. -/
theorem SMap.wf_iff [DecidableEq α] (d : Nat → α) (m : SMap α) :
    SMap.wf d m = true ↔ (m.Pairwise fun a b => a.1 < b.1) ∧ ∀ e ∈ m, e.2 ≠ d e.1 := by
  simp [SMap.wf]

/-- Keys that strictly rise still do so after a filter. -/
theorem SMap.wf_filter [DecidableEq α] (d : Nat → α) (m : SMap α) (p : Nat × α → Bool) (h : SMap.wf d m = true) :
    SMap.wf d (m.filter p) = true := by
  rw [SMap.wf_iff] at h ⊢
  exact ⟨h.1.filter p, fun e he => h.2 e (List.mem_filter.mp he).1⟩

theorem SMap.wf_drop [DecidableEq α] (d : Nat → α) (m : SMap α) (k : Nat) (h : SMap.wf d m = true) :
    SMap.wf d (SMap.drop m k) = true := SMap.wf_filter d m _ h

theorem SMap.mem_insert (k : Nat) (v : α) (m : SMap α) (e : Nat × α) :
    e ∈ SMap.insert k v m ↔ e = (k, v) ∨ e ∈ m := by
  induction m with
  | nil => simp [SMap.insert]
  | cons x r ih =>
    by_cases hlt : k < x.1
    · simp [SMap.insert, hlt]
    · simp only [SMap.insert, hlt, if_false, List.mem_cons, ih]
      tauto

theorem SMap.rising_insert (k : Nat) (v : α) (m : SMap α) (h : m.Pairwise fun a b => a.1 < b.1) (hk : ∀ e ∈ m, e.1 ≠ k) :
    (SMap.insert k v m).Pairwise fun a b => a.1 < b.1 := by
  induction m with
  | nil => simp [SMap.insert]
  | cons x r ih =>
    rw [List.pairwise_cons] at h
    have hx : x.1 ≠ k := hk x (by simp)
    by_cases hlt : k < x.1
    · simp only [SMap.insert, hlt, if_true, List.pairwise_cons, List.mem_cons]
      refine ⟨fun e he => ?_, fun e he => h.1 e he, h.2⟩
      rcases he with rfl | he
      · exact hlt
      · exact lt_trans hlt (h.1 e he)
    · simp only [SMap.insert, hlt, if_false, List.pairwise_cons]
      refine ⟨fun e he => ?_, ih h.2 fun e he => hk e (by simp [he])⟩
      rcases (SMap.mem_insert k v r e).mp he with rfl | he
      · show x.1 < k
        omega
      · exact h.1 e he

/-- A write keeps the canonical form. -/
theorem SMap.wf_put [DecidableEq α] (d : Nat → α) (m : SMap α) (k : Nat) (v : α) (h : SMap.wf d m = true) :
    SMap.wf d (SMap.put d m k v) = true := by
  have hd := SMap.wf_drop d m k h
  unfold SMap.put
  split
  · exact hd
  · next hv =>
    rw [SMap.wf_iff] at hd ⊢
    refine ⟨SMap.rising_insert k v _ hd.1 (SMap.drop_ne m k), fun e he => ?_⟩
    rcases (SMap.mem_insert k v _ e).mp he with rfl | he
    · exact hv
    · exact hd.2 e he

end Sys2Proof.Machine
end

