-- ==== Sys2Proof/Laws/State.lean ====
section
/-! SUPPORT. What each update of the state leaves alone: one lemma for each update and field. -/

namespace Sys2Proof.Machine

open Sys2Proof

/-! ### A record sent outside -/

@[simp] theorem State.emit_now (s : State) (o : Out) : (s.emit o).now = s.now := rfl
@[simp] theorem State.emit_free (s : State) (o : Out) : (s.emit o).free = s.free := rfl
@[simp] theorem State.emit_pending (s : State) (o : Out) : (s.emit o).pending = s.pending := rfl
@[simp] theorem State.emit_out (s : State) (o : Out) : (s.emit o).out = o :: s.out := rfl
@[simp] theorem State.emit_hbm (s : State) (o : Out) : (s.emit o).hbm = s.hbm := rfl
@[simp] theorem State.emit_rp (s : State) (o : Out) : (s.emit o).rp = s.rp := rfl
@[simp] theorem State.emit_ep (s : State) (o : Out) : (s.emit o).ep = s.ep := rfl

/-! ### Fabric-resident memory -/

@[simp] theorem State.hbmWrite_now (s : State) (a : Nat) (d : List Byte) : (s.hbmWrite a d).now = s.now := rfl
@[simp] theorem State.hbmWrite_free (s : State) (a : Nat) (d : List Byte) : (s.hbmWrite a d).free = s.free := rfl
@[simp] theorem State.hbmWrite_pending (s : State) (a : Nat) (d : List Byte) : (s.hbmWrite a d).pending = s.pending := rfl
@[simp] theorem State.hbmWrite_out (s : State) (a : Nat) (d : List Byte) : (s.hbmWrite a d).out = s.out := rfl
@[simp] theorem State.hbmWrite_rp (s : State) (a : Nat) (d : List Byte) : (s.hbmWrite a d).rp = s.rp := rfl
@[simp] theorem State.hbmWrite_ep (s : State) (a : Nat) (d : List Byte) : (s.hbmWrite a d).ep = s.ep := rfl
@[simp] theorem State.hbmZero_now (s : State) (a n : Nat) : (s.hbmZero a n).now = s.now := rfl
@[simp] theorem State.hbmZero_free (s : State) (a n : Nat) : (s.hbmZero a n).free = s.free := rfl
@[simp] theorem State.hbmZero_pending (s : State) (a n : Nat) : (s.hbmZero a n).pending = s.pending := rfl
@[simp] theorem State.hbmZero_out (s : State) (a n : Nat) : (s.hbmZero a n).out = s.out := rfl
@[simp] theorem State.hbmZero_rp (s : State) (a n : Nat) : (s.hbmZero a n).rp = s.rp := rfl
@[simp] theorem State.hbmZero_ep (s : State) (a n : Nat) : (s.hbmZero a n).ep = s.ep := rfl

/-! ### A free value is drawn -/

@[simp] theorem State.draw_fst (s : State) : (s.draw).1 = Config.freeValue s.free := rfl
@[simp] theorem State.draw_now (s : State) : (s.draw).2.now = s.now := rfl
@[simp] theorem State.draw_free (s : State) : (s.draw).2.free = s.free + 1 := rfl
@[simp] theorem State.draw_pending (s : State) : (s.draw).2.pending = s.pending := rfl
@[simp] theorem State.draw_out (s : State) : (s.draw).2.out = s.out := rfl
@[simp] theorem State.draw_hbm (s : State) : (s.draw).2.hbm = s.hbm := rfl
@[simp] theorem State.draw_rp (s : State) : (s.draw).2.rp = s.rp := rfl
@[simp] theorem State.draw_ep (s : State) : (s.draw).2.ep = s.ep := rfl

/-! ### The attach link, and the record of units -/

@[simp] theorem State.modAtt_now (s : State) (f : Attach → Attach) : (s.modAtt f).now = s.now := rfl
@[simp] theorem State.modAtt_free (s : State) (f : Attach → Attach) : (s.modAtt f).free = s.free := rfl
@[simp] theorem State.modAtt_pending (s : State) (f : Attach → Attach) : (s.modAtt f).pending = s.pending := rfl
@[simp] theorem State.modAtt_out (s : State) (f : Attach → Attach) : (s.modAtt f).out = s.out := rfl
@[simp] theorem State.modAtt_hbm (s : State) (f : Attach → Attach) : (s.modAtt f).hbm = s.hbm := rfl
@[simp] theorem State.modAtt_rp (s : State) (f : Attach → Attach) : (s.modAtt f).rp = s.rp := rfl
@[simp] theorem State.modAtt_ep_regs (s : State) (f : Attach → Attach) : (s.modAtt f).ep.regs = s.ep.regs := rfl
@[simp] theorem State.modAtt_ep_hanks (s : State) (f : Attach → Attach) : (s.modAtt f).ep.hanks = s.ep.hanks := rfl
@[simp] theorem State.modAtt_ep_att (s : State) (f : Attach → Attach) : (s.modAtt f).ep.att = f s.ep.att := rfl
@[simp] theorem State.modAtt_ep_rings (s : State) (f : Attach → Attach) : (s.modAtt f).ep.rings = s.ep.rings := rfl
@[simp] theorem State.modAtt_ep_acts (s : State) (f : Attach → Attach) : (s.modAtt f).ep.acts = s.ep.acts := rfl
@[simp] theorem State.modAtt_ep_gates (s : State) (f : Attach → Attach) : (s.modAtt f).ep.gates = s.ep.gates := rfl
@[simp] theorem State.modAtt_ep_shuttles (s : State) (f : Attach → Attach) : (s.modAtt f).ep.shuttles = s.ep.shuttles := rfl
@[simp] theorem State.modAtt_ep_drr (s : State) (f : Attach → Attach) : (s.modAtt f).ep.drr = s.ep.drr := rfl
@[simp] theorem State.modAtt_ep_loads (s : State) (f : Attach → Attach) : (s.modAtt f).ep.loads = s.ep.loads := rfl
@[simp] theorem State.modAtt_ep_stores (s : State) (f : Attach → Attach) : (s.modAtt f).ep.stores = s.ep.stores := rfl
@[simp] theorem State.modAtt_ep_fences (s : State) (f : Attach → Attach) : (s.modAtt f).ep.fences = s.ep.fences := rfl
@[simp] theorem State.modAtt_ep_nextId (s : State) (f : Attach → Attach) : (s.modAtt f).ep.nextId = s.ep.nextId := rfl
@[simp] theorem State.modAtt_ep_xlt (s : State) (f : Attach → Attach) : (s.modAtt f).ep.xlt = s.ep.xlt := rfl
@[simp] theorem State.modAtt_ep_src (s : State) (f : Attach → Attach) : (s.modAtt f).ep.src = s.ep.src := rfl
@[simp] theorem State.modAtt_ep_dest (s : State) (f : Attach → Attach) : (s.modAtt f).ep.dest = s.ep.dest := rfl
@[simp] theorem State.modAtt_ep_lands (s : State) (f : Attach → Attach) : (s.modAtt f).ep.lands = s.ep.lands := rfl
@[simp] theorem State.modAtt_ep_tx (s : State) (f : Attach → Attach) : (s.modAtt f).ep.tx = s.ep.tx := rfl
@[simp] theorem State.modAtt_ep_paced (s : State) (f : Attach → Attach) : (s.modAtt f).ep.paced = s.ep.paced := rfl
@[simp] theorem State.modAtt_ep_warp (s : State) (f : Attach → Attach) : (s.modAtt f).ep.warp = s.ep.warp := rfl
@[simp] theorem State.modAtt_ep_links (s : State) (f : Attach → Attach) : (s.modAtt f).ep.links = s.ep.links := rfl
@[simp] theorem State.modAtt_ep_released (s : State) (f : Attach → Attach) : (s.modAtt f).ep.released = s.ep.released := rfl
@[simp] theorem State.modAtt_ep_sec (s : State) (f : Attach → Attach) : (s.modAtt f).ep.sec = s.ep.sec := rfl
@[simp] theorem State.modAtt_ep_reps (s : State) (f : Attach → Attach) : (s.modAtt f).ep.reps = s.ep.reps := rfl
@[simp] theorem State.modAtt_ep_repTimes (s : State) (f : Attach → Attach) : (s.modAtt f).ep.repTimes = s.ep.repTimes := rfl
@[simp] theorem State.modAtt_ep_orders (s : State) (f : Attach → Attach) : (s.modAtt f).ep.orders = s.ep.orders := rfl
@[simp] theorem State.modAtt_ep_time (s : State) (f : Attach → Attach) : (s.modAtt f).ep.time = s.ep.time := rfl
@[simp] theorem State.modAtt_ep_log (s : State) (f : Attach → Attach) : (s.modAtt f).ep.log = s.ep.log := rfl
@[simp] theorem State.modAtt_ep_tripped (s : State) (f : Attach → Attach) : (s.modAtt f).ep.tripped = s.ep.tripped := rfl
@[simp] theorem State.modAtt_ep_evalAt (s : State) (f : Attach → Attach) : (s.modAtt f).ep.evalAt = s.ep.evalAt := rfl
@[simp] theorem State.modAtt_ep_tap (s : State) (f : Attach → Attach) : (s.modAtt f).ep.tap = s.ep.tap := rfl
@[simp] theorem State.modUnits_now (s : State) (f : Units → Units) : (s.modUnits f).now = s.now := rfl
@[simp] theorem State.modUnits_free (s : State) (f : Units → Units) : (s.modUnits f).free = s.free := rfl
@[simp] theorem State.modUnits_pending (s : State) (f : Units → Units) : (s.modUnits f).pending = s.pending := rfl
@[simp] theorem State.modUnits_out (s : State) (f : Units → Units) : (s.modUnits f).out = s.out := rfl
@[simp] theorem State.modUnits_hbm (s : State) (f : Units → Units) : (s.modUnits f).hbm = s.hbm := rfl
@[simp] theorem State.modUnits_ep (s : State) (f : Units → Units) : (s.modUnits f).ep = s.ep := rfl
@[simp] theorem State.modUnits_rp_regs (s : State) (f : Units → Units) : (s.modUnits f).rp.regs = s.rp.regs := rfl
@[simp] theorem State.modUnits_rp_cand (s : State) (f : Units → Units) : (s.modUnits f).rp.cand = s.rp.cand := rfl
@[simp] theorem State.modUnits_rp_ana (s : State) (f : Units → Units) : (s.modUnits f).rp.ana = s.rp.ana := rfl
@[simp] theorem State.modUnits_rp_eddy (s : State) (f : Units → Units) : (s.modUnits f).rp.eddy = s.rp.eddy := rfl
@[simp] theorem State.modUnits_rp_warp (s : State) (f : Units → Units) : (s.modUnits f).rp.warp = s.rp.warp := rfl
@[simp] theorem State.modUnits_rp_spindles (s : State) (f : Units → Units) : (s.modUnits f).rp.spindles = s.rp.spindles := rfl
@[simp] theorem State.modUnits_rp_fmem (s : State) (f : Units → Units) : (s.modUnits f).rp.fmem = s.rp.fmem := rfl
@[simp] theorem State.modUnits_rp_src (s : State) (f : Units → Units) : (s.modUnits f).rp.src = s.rp.src := rfl
@[simp] theorem State.modUnits_rp_links (s : State) (f : Units → Units) : (s.modUnits f).rp.links = s.rp.links := rfl
@[simp] theorem State.modUnits_rp_lasers (s : State) (f : Units → Units) : (s.modUnits f).rp.lasers = s.rp.lasers := rfl
@[simp] theorem State.modUnits_rp_skeins (s : State) (f : Units → Units) : (s.modUnits f).rp.skeins = s.rp.skeins := rfl
@[simp] theorem State.modUnits_rp_sec (s : State) (f : Units → Units) : (s.modUnits f).rp.sec = s.rp.sec := rfl
@[simp] theorem State.modUnits_rp_units (s : State) (f : Units → Units) : (s.modUnits f).rp.units = f s.rp.units := rfl
@[simp] theorem State.modUnits_rp_filter (s : State) (f : Units → Units) : (s.modUnits f).rp.filter = s.rp.filter := rfl
@[simp] theorem State.modUnits_rp_orders (s : State) (f : Units → Units) : (s.modUnits f).rp.orders = s.rp.orders := rfl
@[simp] theorem State.modUnits_rp_power (s : State) (f : Units → Units) : (s.modUnits f).rp.power = s.rp.power := rfl
@[simp] theorem State.modUnits_rp_time (s : State) (f : Units → Units) : (s.modUnits f).rp.time = s.rp.time := rfl
@[simp] theorem State.modUnits_rp_mgmt (s : State) (f : Units → Units) : (s.modUnits f).rp.mgmt = s.rp.mgmt := rfl
@[simp] theorem State.modUnits_rp_log (s : State) (f : Units → Units) : (s.modUnits f).rp.log = s.rp.log := rfl
@[simp] theorem State.modUnits_rp_pst (s : State) (f : Units → Units) : (s.modUnits f).rp.pst = s.rp.pst := rfl
@[simp] theorem State.modUnits_rp_tray (s : State) (f : Units → Units) : (s.modUnits f).rp.tray = s.rp.tray := rfl
@[simp] theorem State.modUnits_rp_home (s : State) (f : Units → Units) : (s.modUnits f).rp.home = s.rp.home := rfl
@[simp] theorem State.modUnits_rp_tap (s : State) (f : Units → Units) : (s.modUnits f).rp.tap = s.rp.tap := rfl

/-! ### A register is set -/

@[simp] theorem State.setReg_now (s : State) (p : Part) (a v : Nat) : (s.setReg p a v).now = s.now := by cases p <;> rfl
@[simp] theorem State.setReg_free (s : State) (p : Part) (a v : Nat) : (s.setReg p a v).free = s.free := by cases p <;> rfl
@[simp] theorem State.setReg_pending (s : State) (p : Part) (a v : Nat) : (s.setReg p a v).pending = s.pending := by cases p <;> rfl
@[simp] theorem State.setReg_out (s : State) (p : Part) (a v : Nat) : (s.setReg p a v).out = s.out := by cases p <;> rfl
@[simp] theorem State.setReg_hbm (s : State) (p : Part) (a v : Nat) : (s.setReg p a v).hbm = s.hbm := by cases p <;> rfl
@[simp] theorem State.setReg_ronpex_ep (s : State) (a v : Nat) : (s.setReg .ronpex a v).ep = s.ep := rfl
@[simp] theorem State.setReg_plocen_rp (s : State) (a v : Nat) : (s.setReg .plocen a v).rp = s.rp := rfl
@[simp] theorem State.setReg_rp_cand (s : State) (p : Part) (a v : Nat) : (s.setReg p a v).rp.cand = s.rp.cand := by cases p <;> rfl
@[simp] theorem State.setReg_rp_ana (s : State) (p : Part) (a v : Nat) : (s.setReg p a v).rp.ana = s.rp.ana := by cases p <;> rfl
@[simp] theorem State.setReg_rp_eddy (s : State) (p : Part) (a v : Nat) : (s.setReg p a v).rp.eddy = s.rp.eddy := by cases p <;> rfl
@[simp] theorem State.setReg_rp_warp (s : State) (p : Part) (a v : Nat) : (s.setReg p a v).rp.warp = s.rp.warp := by cases p <;> rfl
@[simp] theorem State.setReg_rp_spindles (s : State) (p : Part) (a v : Nat) : (s.setReg p a v).rp.spindles = s.rp.spindles := by cases p <;> rfl
@[simp] theorem State.setReg_rp_fmem (s : State) (p : Part) (a v : Nat) : (s.setReg p a v).rp.fmem = s.rp.fmem := by cases p <;> rfl
@[simp] theorem State.setReg_rp_src (s : State) (p : Part) (a v : Nat) : (s.setReg p a v).rp.src = s.rp.src := by cases p <;> rfl
@[simp] theorem State.setReg_rp_links (s : State) (p : Part) (a v : Nat) : (s.setReg p a v).rp.links = s.rp.links := by cases p <;> rfl
@[simp] theorem State.setReg_rp_lasers (s : State) (p : Part) (a v : Nat) : (s.setReg p a v).rp.lasers = s.rp.lasers := by cases p <;> rfl
@[simp] theorem State.setReg_rp_skeins (s : State) (p : Part) (a v : Nat) : (s.setReg p a v).rp.skeins = s.rp.skeins := by cases p <;> rfl
@[simp] theorem State.setReg_rp_sec (s : State) (p : Part) (a v : Nat) : (s.setReg p a v).rp.sec = s.rp.sec := by cases p <;> rfl
@[simp] theorem State.setReg_rp_units (s : State) (p : Part) (a v : Nat) : (s.setReg p a v).rp.units = s.rp.units := by cases p <;> rfl
@[simp] theorem State.setReg_rp_filter (s : State) (p : Part) (a v : Nat) : (s.setReg p a v).rp.filter = s.rp.filter := by cases p <;> rfl
@[simp] theorem State.setReg_rp_orders (s : State) (p : Part) (a v : Nat) : (s.setReg p a v).rp.orders = s.rp.orders := by cases p <;> rfl
@[simp] theorem State.setReg_rp_power (s : State) (p : Part) (a v : Nat) : (s.setReg p a v).rp.power = s.rp.power := by cases p <;> rfl
@[simp] theorem State.setReg_rp_time (s : State) (p : Part) (a v : Nat) : (s.setReg p a v).rp.time = s.rp.time := by cases p <;> rfl
@[simp] theorem State.setReg_rp_mgmt (s : State) (p : Part) (a v : Nat) : (s.setReg p a v).rp.mgmt = s.rp.mgmt := by cases p <;> rfl
@[simp] theorem State.setReg_rp_log (s : State) (p : Part) (a v : Nat) : (s.setReg p a v).rp.log = s.rp.log := by cases p <;> rfl
@[simp] theorem State.setReg_rp_pst (s : State) (p : Part) (a v : Nat) : (s.setReg p a v).rp.pst = s.rp.pst := by cases p <;> rfl
@[simp] theorem State.setReg_rp_tray (s : State) (p : Part) (a v : Nat) : (s.setReg p a v).rp.tray = s.rp.tray := by cases p <;> rfl
@[simp] theorem State.setReg_rp_home (s : State) (p : Part) (a v : Nat) : (s.setReg p a v).rp.home = s.rp.home := by cases p <;> rfl
@[simp] theorem State.setReg_rp_tap (s : State) (p : Part) (a v : Nat) : (s.setReg p a v).rp.tap = s.rp.tap := by cases p <;> rfl
@[simp] theorem State.setReg_ep_hanks (s : State) (p : Part) (a v : Nat) : (s.setReg p a v).ep.hanks = s.ep.hanks := by cases p <;> rfl
@[simp] theorem State.setReg_ep_att (s : State) (p : Part) (a v : Nat) : (s.setReg p a v).ep.att = s.ep.att := by cases p <;> rfl
@[simp] theorem State.setReg_ep_rings (s : State) (p : Part) (a v : Nat) : (s.setReg p a v).ep.rings = s.ep.rings := by cases p <;> rfl
@[simp] theorem State.setReg_ep_acts (s : State) (p : Part) (a v : Nat) : (s.setReg p a v).ep.acts = s.ep.acts := by cases p <;> rfl
@[simp] theorem State.setReg_ep_gates (s : State) (p : Part) (a v : Nat) : (s.setReg p a v).ep.gates = s.ep.gates := by cases p <;> rfl
@[simp] theorem State.setReg_ep_shuttles (s : State) (p : Part) (a v : Nat) : (s.setReg p a v).ep.shuttles = s.ep.shuttles := by cases p <;> rfl
@[simp] theorem State.setReg_ep_drr (s : State) (p : Part) (a v : Nat) : (s.setReg p a v).ep.drr = s.ep.drr := by cases p <;> rfl
@[simp] theorem State.setReg_ep_loads (s : State) (p : Part) (a v : Nat) : (s.setReg p a v).ep.loads = s.ep.loads := by cases p <;> rfl
@[simp] theorem State.setReg_ep_stores (s : State) (p : Part) (a v : Nat) : (s.setReg p a v).ep.stores = s.ep.stores := by cases p <;> rfl
@[simp] theorem State.setReg_ep_fences (s : State) (p : Part) (a v : Nat) : (s.setReg p a v).ep.fences = s.ep.fences := by cases p <;> rfl
@[simp] theorem State.setReg_ep_nextId (s : State) (p : Part) (a v : Nat) : (s.setReg p a v).ep.nextId = s.ep.nextId := by cases p <;> rfl
@[simp] theorem State.setReg_ep_xlt (s : State) (p : Part) (a v : Nat) : (s.setReg p a v).ep.xlt = s.ep.xlt := by cases p <;> rfl
@[simp] theorem State.setReg_ep_src (s : State) (p : Part) (a v : Nat) : (s.setReg p a v).ep.src = s.ep.src := by cases p <;> rfl
@[simp] theorem State.setReg_ep_dest (s : State) (p : Part) (a v : Nat) : (s.setReg p a v).ep.dest = s.ep.dest := by cases p <;> rfl
@[simp] theorem State.setReg_ep_lands (s : State) (p : Part) (a v : Nat) : (s.setReg p a v).ep.lands = s.ep.lands := by cases p <;> rfl
@[simp] theorem State.setReg_ep_tx (s : State) (p : Part) (a v : Nat) : (s.setReg p a v).ep.tx = s.ep.tx := by cases p <;> rfl
@[simp] theorem State.setReg_ep_paced (s : State) (p : Part) (a v : Nat) : (s.setReg p a v).ep.paced = s.ep.paced := by cases p <;> rfl
@[simp] theorem State.setReg_ep_warp (s : State) (p : Part) (a v : Nat) : (s.setReg p a v).ep.warp = s.ep.warp := by cases p <;> rfl
@[simp] theorem State.setReg_ep_links (s : State) (p : Part) (a v : Nat) : (s.setReg p a v).ep.links = s.ep.links := by cases p <;> rfl
@[simp] theorem State.setReg_ep_released (s : State) (p : Part) (a v : Nat) : (s.setReg p a v).ep.released = s.ep.released := by cases p <;> rfl
@[simp] theorem State.setReg_ep_sec (s : State) (p : Part) (a v : Nat) : (s.setReg p a v).ep.sec = s.ep.sec := by cases p <;> rfl
@[simp] theorem State.setReg_ep_reps (s : State) (p : Part) (a v : Nat) : (s.setReg p a v).ep.reps = s.ep.reps := by cases p <;> rfl
@[simp] theorem State.setReg_ep_repTimes (s : State) (p : Part) (a v : Nat) : (s.setReg p a v).ep.repTimes = s.ep.repTimes := by cases p <;> rfl
@[simp] theorem State.setReg_ep_orders (s : State) (p : Part) (a v : Nat) : (s.setReg p a v).ep.orders = s.ep.orders := by cases p <;> rfl
@[simp] theorem State.setReg_ep_time (s : State) (p : Part) (a v : Nat) : (s.setReg p a v).ep.time = s.ep.time := by cases p <;> rfl
@[simp] theorem State.setReg_ep_log (s : State) (p : Part) (a v : Nat) : (s.setReg p a v).ep.log = s.ep.log := by cases p <;> rfl
@[simp] theorem State.setReg_ep_tripped (s : State) (p : Part) (a v : Nat) : (s.setReg p a v).ep.tripped = s.ep.tripped := by cases p <;> rfl
@[simp] theorem State.setReg_ep_evalAt (s : State) (p : Part) (a v : Nat) : (s.setReg p a v).ep.evalAt = s.ep.evalAt := by cases p <;> rfl
@[simp] theorem State.setReg_ep_tap (s : State) (p : Part) (a v : Nat) : (s.setReg p a v).ep.tap = s.ep.tap := by cases p <;> rfl

/-! ### A link is replaced -/

@[simp] theorem State.setLink_now (s : State) (p : Part) (port : Nat) (l : Link) : (s.setLink p port l).now = s.now := by cases p <;> rfl
@[simp] theorem State.setLink_free (s : State) (p : Part) (port : Nat) (l : Link) : (s.setLink p port l).free = s.free := by cases p <;> rfl
@[simp] theorem State.setLink_pending (s : State) (p : Part) (port : Nat) (l : Link) : (s.setLink p port l).pending = s.pending := by cases p <;> rfl
@[simp] theorem State.setLink_out (s : State) (p : Part) (port : Nat) (l : Link) : (s.setLink p port l).out = s.out := by cases p <;> rfl
@[simp] theorem State.setLink_hbm (s : State) (p : Part) (port : Nat) (l : Link) : (s.setLink p port l).hbm = s.hbm := by cases p <;> rfl
@[simp] theorem State.setLink_ronpex_ep (s : State) (port : Nat) (l : Link) : (s.setLink .ronpex port l).ep = s.ep := rfl
@[simp] theorem State.setLink_plocen_rp (s : State) (port : Nat) (l : Link) : (s.setLink .plocen port l).rp = s.rp := rfl
@[simp] theorem State.setLink_rp_regs (s : State) (p : Part) (port : Nat) (l : Link) : (s.setLink p port l).rp.regs = s.rp.regs := by cases p <;> rfl
@[simp] theorem State.setLink_rp_cand (s : State) (p : Part) (port : Nat) (l : Link) : (s.setLink p port l).rp.cand = s.rp.cand := by cases p <;> rfl
@[simp] theorem State.setLink_rp_ana (s : State) (p : Part) (port : Nat) (l : Link) : (s.setLink p port l).rp.ana = s.rp.ana := by cases p <;> rfl
@[simp] theorem State.setLink_rp_eddy (s : State) (p : Part) (port : Nat) (l : Link) : (s.setLink p port l).rp.eddy = s.rp.eddy := by cases p <;> rfl
@[simp] theorem State.setLink_rp_warp (s : State) (p : Part) (port : Nat) (l : Link) : (s.setLink p port l).rp.warp = s.rp.warp := by cases p <;> rfl
@[simp] theorem State.setLink_rp_spindles (s : State) (p : Part) (port : Nat) (l : Link) : (s.setLink p port l).rp.spindles = s.rp.spindles := by cases p <;> rfl
@[simp] theorem State.setLink_rp_fmem (s : State) (p : Part) (port : Nat) (l : Link) : (s.setLink p port l).rp.fmem = s.rp.fmem := by cases p <;> rfl
@[simp] theorem State.setLink_rp_src (s : State) (p : Part) (port : Nat) (l : Link) : (s.setLink p port l).rp.src = s.rp.src := by cases p <;> rfl
@[simp] theorem State.setLink_rp_lasers (s : State) (p : Part) (port : Nat) (l : Link) : (s.setLink p port l).rp.lasers = s.rp.lasers := by cases p <;> rfl
@[simp] theorem State.setLink_rp_skeins (s : State) (p : Part) (port : Nat) (l : Link) : (s.setLink p port l).rp.skeins = s.rp.skeins := by cases p <;> rfl
@[simp] theorem State.setLink_rp_sec (s : State) (p : Part) (port : Nat) (l : Link) : (s.setLink p port l).rp.sec = s.rp.sec := by cases p <;> rfl
@[simp] theorem State.setLink_rp_units (s : State) (p : Part) (port : Nat) (l : Link) : (s.setLink p port l).rp.units = s.rp.units := by cases p <;> rfl
@[simp] theorem State.setLink_rp_filter (s : State) (p : Part) (port : Nat) (l : Link) : (s.setLink p port l).rp.filter = s.rp.filter := by cases p <;> rfl
@[simp] theorem State.setLink_rp_orders (s : State) (p : Part) (port : Nat) (l : Link) : (s.setLink p port l).rp.orders = s.rp.orders := by cases p <;> rfl
@[simp] theorem State.setLink_rp_power (s : State) (p : Part) (port : Nat) (l : Link) : (s.setLink p port l).rp.power = s.rp.power := by cases p <;> rfl
@[simp] theorem State.setLink_rp_time (s : State) (p : Part) (port : Nat) (l : Link) : (s.setLink p port l).rp.time = s.rp.time := by cases p <;> rfl
@[simp] theorem State.setLink_rp_mgmt (s : State) (p : Part) (port : Nat) (l : Link) : (s.setLink p port l).rp.mgmt = s.rp.mgmt := by cases p <;> rfl
@[simp] theorem State.setLink_rp_log (s : State) (p : Part) (port : Nat) (l : Link) : (s.setLink p port l).rp.log = s.rp.log := by cases p <;> rfl
@[simp] theorem State.setLink_rp_pst (s : State) (p : Part) (port : Nat) (l : Link) : (s.setLink p port l).rp.pst = s.rp.pst := by cases p <;> rfl
@[simp] theorem State.setLink_rp_tray (s : State) (p : Part) (port : Nat) (l : Link) : (s.setLink p port l).rp.tray = s.rp.tray := by cases p <;> rfl
@[simp] theorem State.setLink_rp_home (s : State) (p : Part) (port : Nat) (l : Link) : (s.setLink p port l).rp.home = s.rp.home := by cases p <;> rfl
@[simp] theorem State.setLink_rp_tap (s : State) (p : Part) (port : Nat) (l : Link) : (s.setLink p port l).rp.tap = s.rp.tap := by cases p <;> rfl
@[simp] theorem State.setLink_ep_regs (s : State) (p : Part) (port : Nat) (l : Link) : (s.setLink p port l).ep.regs = s.ep.regs := by cases p <;> rfl
@[simp] theorem State.setLink_ep_hanks (s : State) (p : Part) (port : Nat) (l : Link) : (s.setLink p port l).ep.hanks = s.ep.hanks := by cases p <;> rfl
@[simp] theorem State.setLink_ep_att (s : State) (p : Part) (port : Nat) (l : Link) : (s.setLink p port l).ep.att = s.ep.att := by cases p <;> rfl
@[simp] theorem State.setLink_ep_rings (s : State) (p : Part) (port : Nat) (l : Link) : (s.setLink p port l).ep.rings = s.ep.rings := by cases p <;> rfl
@[simp] theorem State.setLink_ep_acts (s : State) (p : Part) (port : Nat) (l : Link) : (s.setLink p port l).ep.acts = s.ep.acts := by cases p <;> rfl
@[simp] theorem State.setLink_ep_gates (s : State) (p : Part) (port : Nat) (l : Link) : (s.setLink p port l).ep.gates = s.ep.gates := by cases p <;> rfl
@[simp] theorem State.setLink_ep_shuttles (s : State) (p : Part) (port : Nat) (l : Link) : (s.setLink p port l).ep.shuttles = s.ep.shuttles := by cases p <;> rfl
@[simp] theorem State.setLink_ep_drr (s : State) (p : Part) (port : Nat) (l : Link) : (s.setLink p port l).ep.drr = s.ep.drr := by cases p <;> rfl
@[simp] theorem State.setLink_ep_loads (s : State) (p : Part) (port : Nat) (l : Link) : (s.setLink p port l).ep.loads = s.ep.loads := by cases p <;> rfl
@[simp] theorem State.setLink_ep_stores (s : State) (p : Part) (port : Nat) (l : Link) : (s.setLink p port l).ep.stores = s.ep.stores := by cases p <;> rfl
@[simp] theorem State.setLink_ep_fences (s : State) (p : Part) (port : Nat) (l : Link) : (s.setLink p port l).ep.fences = s.ep.fences := by cases p <;> rfl
@[simp] theorem State.setLink_ep_nextId (s : State) (p : Part) (port : Nat) (l : Link) : (s.setLink p port l).ep.nextId = s.ep.nextId := by cases p <;> rfl
@[simp] theorem State.setLink_ep_xlt (s : State) (p : Part) (port : Nat) (l : Link) : (s.setLink p port l).ep.xlt = s.ep.xlt := by cases p <;> rfl
@[simp] theorem State.setLink_ep_src (s : State) (p : Part) (port : Nat) (l : Link) : (s.setLink p port l).ep.src = s.ep.src := by cases p <;> rfl
@[simp] theorem State.setLink_ep_dest (s : State) (p : Part) (port : Nat) (l : Link) : (s.setLink p port l).ep.dest = s.ep.dest := by cases p <;> rfl
@[simp] theorem State.setLink_ep_lands (s : State) (p : Part) (port : Nat) (l : Link) : (s.setLink p port l).ep.lands = s.ep.lands := by cases p <;> rfl
@[simp] theorem State.setLink_ep_tx (s : State) (p : Part) (port : Nat) (l : Link) : (s.setLink p port l).ep.tx = s.ep.tx := by cases p <;> rfl
@[simp] theorem State.setLink_ep_paced (s : State) (p : Part) (port : Nat) (l : Link) : (s.setLink p port l).ep.paced = s.ep.paced := by cases p <;> rfl
@[simp] theorem State.setLink_ep_warp (s : State) (p : Part) (port : Nat) (l : Link) : (s.setLink p port l).ep.warp = s.ep.warp := by cases p <;> rfl
@[simp] theorem State.setLink_ep_released (s : State) (p : Part) (port : Nat) (l : Link) : (s.setLink p port l).ep.released = s.ep.released := by cases p <;> rfl
@[simp] theorem State.setLink_ep_sec (s : State) (p : Part) (port : Nat) (l : Link) : (s.setLink p port l).ep.sec = s.ep.sec := by cases p <;> rfl
@[simp] theorem State.setLink_ep_reps (s : State) (p : Part) (port : Nat) (l : Link) : (s.setLink p port l).ep.reps = s.ep.reps := by cases p <;> rfl
@[simp] theorem State.setLink_ep_repTimes (s : State) (p : Part) (port : Nat) (l : Link) : (s.setLink p port l).ep.repTimes = s.ep.repTimes := by cases p <;> rfl
@[simp] theorem State.setLink_ep_orders (s : State) (p : Part) (port : Nat) (l : Link) : (s.setLink p port l).ep.orders = s.ep.orders := by cases p <;> rfl
@[simp] theorem State.setLink_ep_time (s : State) (p : Part) (port : Nat) (l : Link) : (s.setLink p port l).ep.time = s.ep.time := by cases p <;> rfl
@[simp] theorem State.setLink_ep_log (s : State) (p : Part) (port : Nat) (l : Link) : (s.setLink p port l).ep.log = s.ep.log := by cases p <;> rfl
@[simp] theorem State.setLink_ep_tripped (s : State) (p : Part) (port : Nat) (l : Link) : (s.setLink p port l).ep.tripped = s.ep.tripped := by cases p <;> rfl
@[simp] theorem State.setLink_ep_evalAt (s : State) (p : Part) (port : Nat) (l : Link) : (s.setLink p port l).ep.evalAt = s.ep.evalAt := by cases p <;> rfl
@[simp] theorem State.setLink_ep_tap (s : State) (p : Part) (port : Nat) (l : Link) : (s.setLink p port l).ep.tap = s.ep.tap := by cases p <;> rfl

/-! ### A security controller is replaced -/

@[simp] theorem State.setSec_now (s : State) (p : Part) (x : Security) : (s.setSec p x).now = s.now := by cases p <;> rfl
@[simp] theorem State.setSec_free (s : State) (p : Part) (x : Security) : (s.setSec p x).free = s.free := by cases p <;> rfl
@[simp] theorem State.setSec_pending (s : State) (p : Part) (x : Security) : (s.setSec p x).pending = s.pending := by cases p <;> rfl
@[simp] theorem State.setSec_out (s : State) (p : Part) (x : Security) : (s.setSec p x).out = s.out := by cases p <;> rfl
@[simp] theorem State.setSec_hbm (s : State) (p : Part) (x : Security) : (s.setSec p x).hbm = s.hbm := by cases p <;> rfl
@[simp] theorem State.setSec_ronpex_ep (s : State) (x : Security) : (s.setSec .ronpex x).ep = s.ep := rfl
@[simp] theorem State.setSec_plocen_rp (s : State) (x : Security) : (s.setSec .plocen x).rp = s.rp := rfl
@[simp] theorem State.setSec_rp_regs (s : State) (p : Part) (x : Security) : (s.setSec p x).rp.regs = s.rp.regs := by cases p <;> rfl
@[simp] theorem State.setSec_rp_cand (s : State) (p : Part) (x : Security) : (s.setSec p x).rp.cand = s.rp.cand := by cases p <;> rfl
@[simp] theorem State.setSec_rp_ana (s : State) (p : Part) (x : Security) : (s.setSec p x).rp.ana = s.rp.ana := by cases p <;> rfl
@[simp] theorem State.setSec_rp_eddy (s : State) (p : Part) (x : Security) : (s.setSec p x).rp.eddy = s.rp.eddy := by cases p <;> rfl
@[simp] theorem State.setSec_rp_warp (s : State) (p : Part) (x : Security) : (s.setSec p x).rp.warp = s.rp.warp := by cases p <;> rfl
@[simp] theorem State.setSec_rp_spindles (s : State) (p : Part) (x : Security) : (s.setSec p x).rp.spindles = s.rp.spindles := by cases p <;> rfl
@[simp] theorem State.setSec_rp_fmem (s : State) (p : Part) (x : Security) : (s.setSec p x).rp.fmem = s.rp.fmem := by cases p <;> rfl
@[simp] theorem State.setSec_rp_src (s : State) (p : Part) (x : Security) : (s.setSec p x).rp.src = s.rp.src := by cases p <;> rfl
@[simp] theorem State.setSec_rp_links (s : State) (p : Part) (x : Security) : (s.setSec p x).rp.links = s.rp.links := by cases p <;> rfl
@[simp] theorem State.setSec_rp_lasers (s : State) (p : Part) (x : Security) : (s.setSec p x).rp.lasers = s.rp.lasers := by cases p <;> rfl
@[simp] theorem State.setSec_rp_skeins (s : State) (p : Part) (x : Security) : (s.setSec p x).rp.skeins = s.rp.skeins := by cases p <;> rfl
@[simp] theorem State.setSec_rp_units (s : State) (p : Part) (x : Security) : (s.setSec p x).rp.units = s.rp.units := by cases p <;> rfl
@[simp] theorem State.setSec_rp_filter (s : State) (p : Part) (x : Security) : (s.setSec p x).rp.filter = s.rp.filter := by cases p <;> rfl
@[simp] theorem State.setSec_rp_orders (s : State) (p : Part) (x : Security) : (s.setSec p x).rp.orders = s.rp.orders := by cases p <;> rfl
@[simp] theorem State.setSec_rp_power (s : State) (p : Part) (x : Security) : (s.setSec p x).rp.power = s.rp.power := by cases p <;> rfl
@[simp] theorem State.setSec_rp_time (s : State) (p : Part) (x : Security) : (s.setSec p x).rp.time = s.rp.time := by cases p <;> rfl
@[simp] theorem State.setSec_rp_mgmt (s : State) (p : Part) (x : Security) : (s.setSec p x).rp.mgmt = s.rp.mgmt := by cases p <;> rfl
@[simp] theorem State.setSec_rp_log (s : State) (p : Part) (x : Security) : (s.setSec p x).rp.log = s.rp.log := by cases p <;> rfl
@[simp] theorem State.setSec_rp_pst (s : State) (p : Part) (x : Security) : (s.setSec p x).rp.pst = s.rp.pst := by cases p <;> rfl
@[simp] theorem State.setSec_rp_tray (s : State) (p : Part) (x : Security) : (s.setSec p x).rp.tray = s.rp.tray := by cases p <;> rfl
@[simp] theorem State.setSec_rp_home (s : State) (p : Part) (x : Security) : (s.setSec p x).rp.home = s.rp.home := by cases p <;> rfl
@[simp] theorem State.setSec_rp_tap (s : State) (p : Part) (x : Security) : (s.setSec p x).rp.tap = s.rp.tap := by cases p <;> rfl
@[simp] theorem State.setSec_ep_regs (s : State) (p : Part) (x : Security) : (s.setSec p x).ep.regs = s.ep.regs := by cases p <;> rfl
@[simp] theorem State.setSec_ep_hanks (s : State) (p : Part) (x : Security) : (s.setSec p x).ep.hanks = s.ep.hanks := by cases p <;> rfl
@[simp] theorem State.setSec_ep_att (s : State) (p : Part) (x : Security) : (s.setSec p x).ep.att = s.ep.att := by cases p <;> rfl
@[simp] theorem State.setSec_ep_rings (s : State) (p : Part) (x : Security) : (s.setSec p x).ep.rings = s.ep.rings := by cases p <;> rfl
@[simp] theorem State.setSec_ep_acts (s : State) (p : Part) (x : Security) : (s.setSec p x).ep.acts = s.ep.acts := by cases p <;> rfl
@[simp] theorem State.setSec_ep_gates (s : State) (p : Part) (x : Security) : (s.setSec p x).ep.gates = s.ep.gates := by cases p <;> rfl
@[simp] theorem State.setSec_ep_shuttles (s : State) (p : Part) (x : Security) : (s.setSec p x).ep.shuttles = s.ep.shuttles := by cases p <;> rfl
@[simp] theorem State.setSec_ep_drr (s : State) (p : Part) (x : Security) : (s.setSec p x).ep.drr = s.ep.drr := by cases p <;> rfl
@[simp] theorem State.setSec_ep_loads (s : State) (p : Part) (x : Security) : (s.setSec p x).ep.loads = s.ep.loads := by cases p <;> rfl
@[simp] theorem State.setSec_ep_stores (s : State) (p : Part) (x : Security) : (s.setSec p x).ep.stores = s.ep.stores := by cases p <;> rfl
@[simp] theorem State.setSec_ep_fences (s : State) (p : Part) (x : Security) : (s.setSec p x).ep.fences = s.ep.fences := by cases p <;> rfl
@[simp] theorem State.setSec_ep_nextId (s : State) (p : Part) (x : Security) : (s.setSec p x).ep.nextId = s.ep.nextId := by cases p <;> rfl
@[simp] theorem State.setSec_ep_xlt (s : State) (p : Part) (x : Security) : (s.setSec p x).ep.xlt = s.ep.xlt := by cases p <;> rfl
@[simp] theorem State.setSec_ep_src (s : State) (p : Part) (x : Security) : (s.setSec p x).ep.src = s.ep.src := by cases p <;> rfl
@[simp] theorem State.setSec_ep_dest (s : State) (p : Part) (x : Security) : (s.setSec p x).ep.dest = s.ep.dest := by cases p <;> rfl
@[simp] theorem State.setSec_ep_lands (s : State) (p : Part) (x : Security) : (s.setSec p x).ep.lands = s.ep.lands := by cases p <;> rfl
@[simp] theorem State.setSec_ep_tx (s : State) (p : Part) (x : Security) : (s.setSec p x).ep.tx = s.ep.tx := by cases p <;> rfl
@[simp] theorem State.setSec_ep_paced (s : State) (p : Part) (x : Security) : (s.setSec p x).ep.paced = s.ep.paced := by cases p <;> rfl
@[simp] theorem State.setSec_ep_warp (s : State) (p : Part) (x : Security) : (s.setSec p x).ep.warp = s.ep.warp := by cases p <;> rfl
@[simp] theorem State.setSec_ep_links (s : State) (p : Part) (x : Security) : (s.setSec p x).ep.links = s.ep.links := by cases p <;> rfl
@[simp] theorem State.setSec_ep_released (s : State) (p : Part) (x : Security) : (s.setSec p x).ep.released = s.ep.released := by cases p <;> rfl
@[simp] theorem State.setSec_ep_reps (s : State) (p : Part) (x : Security) : (s.setSec p x).ep.reps = s.ep.reps := by cases p <;> rfl
@[simp] theorem State.setSec_ep_repTimes (s : State) (p : Part) (x : Security) : (s.setSec p x).ep.repTimes = s.ep.repTimes := by cases p <;> rfl
@[simp] theorem State.setSec_ep_orders (s : State) (p : Part) (x : Security) : (s.setSec p x).ep.orders = s.ep.orders := by cases p <;> rfl
@[simp] theorem State.setSec_ep_time (s : State) (p : Part) (x : Security) : (s.setSec p x).ep.time = s.ep.time := by cases p <;> rfl
@[simp] theorem State.setSec_ep_log (s : State) (p : Part) (x : Security) : (s.setSec p x).ep.log = s.ep.log := by cases p <;> rfl
@[simp] theorem State.setSec_ep_tripped (s : State) (p : Part) (x : Security) : (s.setSec p x).ep.tripped = s.ep.tripped := by cases p <;> rfl
@[simp] theorem State.setSec_ep_evalAt (s : State) (p : Part) (x : Security) : (s.setSec p x).ep.evalAt = s.ep.evalAt := by cases p <;> rfl
@[simp] theorem State.setSec_ep_tap (s : State) (p : Part) (x : Security) : (s.setSec p x).ep.tap = s.ep.tap := by cases p <;> rfl

/-! ### Fabric time is replaced -/

@[simp] theorem State.setTimeSt_now (s : State) (p : Part) (x : TimeSt) : (s.setTimeSt p x).now = s.now := by cases p <;> rfl
@[simp] theorem State.setTimeSt_free (s : State) (p : Part) (x : TimeSt) : (s.setTimeSt p x).free = s.free := by cases p <;> rfl
@[simp] theorem State.setTimeSt_pending (s : State) (p : Part) (x : TimeSt) : (s.setTimeSt p x).pending = s.pending := by cases p <;> rfl
@[simp] theorem State.setTimeSt_out (s : State) (p : Part) (x : TimeSt) : (s.setTimeSt p x).out = s.out := by cases p <;> rfl
@[simp] theorem State.setTimeSt_hbm (s : State) (p : Part) (x : TimeSt) : (s.setTimeSt p x).hbm = s.hbm := by cases p <;> rfl
@[simp] theorem State.setTimeSt_ronpex_ep (s : State) (x : TimeSt) : (s.setTimeSt .ronpex x).ep = s.ep := rfl
@[simp] theorem State.setTimeSt_plocen_rp (s : State) (x : TimeSt) : (s.setTimeSt .plocen x).rp = s.rp := rfl
@[simp] theorem State.setTimeSt_rp_regs (s : State) (p : Part) (x : TimeSt) : (s.setTimeSt p x).rp.regs = s.rp.regs := by cases p <;> rfl
@[simp] theorem State.setTimeSt_rp_cand (s : State) (p : Part) (x : TimeSt) : (s.setTimeSt p x).rp.cand = s.rp.cand := by cases p <;> rfl
@[simp] theorem State.setTimeSt_rp_ana (s : State) (p : Part) (x : TimeSt) : (s.setTimeSt p x).rp.ana = s.rp.ana := by cases p <;> rfl
@[simp] theorem State.setTimeSt_rp_eddy (s : State) (p : Part) (x : TimeSt) : (s.setTimeSt p x).rp.eddy = s.rp.eddy := by cases p <;> rfl
@[simp] theorem State.setTimeSt_rp_warp (s : State) (p : Part) (x : TimeSt) : (s.setTimeSt p x).rp.warp = s.rp.warp := by cases p <;> rfl
@[simp] theorem State.setTimeSt_rp_spindles (s : State) (p : Part) (x : TimeSt) : (s.setTimeSt p x).rp.spindles = s.rp.spindles := by cases p <;> rfl
@[simp] theorem State.setTimeSt_rp_fmem (s : State) (p : Part) (x : TimeSt) : (s.setTimeSt p x).rp.fmem = s.rp.fmem := by cases p <;> rfl
@[simp] theorem State.setTimeSt_rp_src (s : State) (p : Part) (x : TimeSt) : (s.setTimeSt p x).rp.src = s.rp.src := by cases p <;> rfl
@[simp] theorem State.setTimeSt_rp_links (s : State) (p : Part) (x : TimeSt) : (s.setTimeSt p x).rp.links = s.rp.links := by cases p <;> rfl
@[simp] theorem State.setTimeSt_rp_lasers (s : State) (p : Part) (x : TimeSt) : (s.setTimeSt p x).rp.lasers = s.rp.lasers := by cases p <;> rfl
@[simp] theorem State.setTimeSt_rp_skeins (s : State) (p : Part) (x : TimeSt) : (s.setTimeSt p x).rp.skeins = s.rp.skeins := by cases p <;> rfl
@[simp] theorem State.setTimeSt_rp_sec (s : State) (p : Part) (x : TimeSt) : (s.setTimeSt p x).rp.sec = s.rp.sec := by cases p <;> rfl
@[simp] theorem State.setTimeSt_rp_units (s : State) (p : Part) (x : TimeSt) : (s.setTimeSt p x).rp.units = s.rp.units := by cases p <;> rfl
@[simp] theorem State.setTimeSt_rp_filter (s : State) (p : Part) (x : TimeSt) : (s.setTimeSt p x).rp.filter = s.rp.filter := by cases p <;> rfl
@[simp] theorem State.setTimeSt_rp_orders (s : State) (p : Part) (x : TimeSt) : (s.setTimeSt p x).rp.orders = s.rp.orders := by cases p <;> rfl
@[simp] theorem State.setTimeSt_rp_power (s : State) (p : Part) (x : TimeSt) : (s.setTimeSt p x).rp.power = s.rp.power := by cases p <;> rfl
@[simp] theorem State.setTimeSt_rp_mgmt (s : State) (p : Part) (x : TimeSt) : (s.setTimeSt p x).rp.mgmt = s.rp.mgmt := by cases p <;> rfl
@[simp] theorem State.setTimeSt_rp_log (s : State) (p : Part) (x : TimeSt) : (s.setTimeSt p x).rp.log = s.rp.log := by cases p <;> rfl
@[simp] theorem State.setTimeSt_rp_pst (s : State) (p : Part) (x : TimeSt) : (s.setTimeSt p x).rp.pst = s.rp.pst := by cases p <;> rfl
@[simp] theorem State.setTimeSt_rp_tray (s : State) (p : Part) (x : TimeSt) : (s.setTimeSt p x).rp.tray = s.rp.tray := by cases p <;> rfl
@[simp] theorem State.setTimeSt_rp_home (s : State) (p : Part) (x : TimeSt) : (s.setTimeSt p x).rp.home = s.rp.home := by cases p <;> rfl
@[simp] theorem State.setTimeSt_rp_tap (s : State) (p : Part) (x : TimeSt) : (s.setTimeSt p x).rp.tap = s.rp.tap := by cases p <;> rfl
@[simp] theorem State.setTimeSt_ep_regs (s : State) (p : Part) (x : TimeSt) : (s.setTimeSt p x).ep.regs = s.ep.regs := by cases p <;> rfl
@[simp] theorem State.setTimeSt_ep_hanks (s : State) (p : Part) (x : TimeSt) : (s.setTimeSt p x).ep.hanks = s.ep.hanks := by cases p <;> rfl
@[simp] theorem State.setTimeSt_ep_att (s : State) (p : Part) (x : TimeSt) : (s.setTimeSt p x).ep.att = s.ep.att := by cases p <;> rfl
@[simp] theorem State.setTimeSt_ep_rings (s : State) (p : Part) (x : TimeSt) : (s.setTimeSt p x).ep.rings = s.ep.rings := by cases p <;> rfl
@[simp] theorem State.setTimeSt_ep_acts (s : State) (p : Part) (x : TimeSt) : (s.setTimeSt p x).ep.acts = s.ep.acts := by cases p <;> rfl
@[simp] theorem State.setTimeSt_ep_gates (s : State) (p : Part) (x : TimeSt) : (s.setTimeSt p x).ep.gates = s.ep.gates := by cases p <;> rfl
@[simp] theorem State.setTimeSt_ep_shuttles (s : State) (p : Part) (x : TimeSt) : (s.setTimeSt p x).ep.shuttles = s.ep.shuttles := by cases p <;> rfl
@[simp] theorem State.setTimeSt_ep_drr (s : State) (p : Part) (x : TimeSt) : (s.setTimeSt p x).ep.drr = s.ep.drr := by cases p <;> rfl
@[simp] theorem State.setTimeSt_ep_loads (s : State) (p : Part) (x : TimeSt) : (s.setTimeSt p x).ep.loads = s.ep.loads := by cases p <;> rfl
@[simp] theorem State.setTimeSt_ep_stores (s : State) (p : Part) (x : TimeSt) : (s.setTimeSt p x).ep.stores = s.ep.stores := by cases p <;> rfl
@[simp] theorem State.setTimeSt_ep_fences (s : State) (p : Part) (x : TimeSt) : (s.setTimeSt p x).ep.fences = s.ep.fences := by cases p <;> rfl
@[simp] theorem State.setTimeSt_ep_nextId (s : State) (p : Part) (x : TimeSt) : (s.setTimeSt p x).ep.nextId = s.ep.nextId := by cases p <;> rfl
@[simp] theorem State.setTimeSt_ep_xlt (s : State) (p : Part) (x : TimeSt) : (s.setTimeSt p x).ep.xlt = s.ep.xlt := by cases p <;> rfl
@[simp] theorem State.setTimeSt_ep_src (s : State) (p : Part) (x : TimeSt) : (s.setTimeSt p x).ep.src = s.ep.src := by cases p <;> rfl
@[simp] theorem State.setTimeSt_ep_dest (s : State) (p : Part) (x : TimeSt) : (s.setTimeSt p x).ep.dest = s.ep.dest := by cases p <;> rfl
@[simp] theorem State.setTimeSt_ep_lands (s : State) (p : Part) (x : TimeSt) : (s.setTimeSt p x).ep.lands = s.ep.lands := by cases p <;> rfl
@[simp] theorem State.setTimeSt_ep_tx (s : State) (p : Part) (x : TimeSt) : (s.setTimeSt p x).ep.tx = s.ep.tx := by cases p <;> rfl
@[simp] theorem State.setTimeSt_ep_paced (s : State) (p : Part) (x : TimeSt) : (s.setTimeSt p x).ep.paced = s.ep.paced := by cases p <;> rfl
@[simp] theorem State.setTimeSt_ep_warp (s : State) (p : Part) (x : TimeSt) : (s.setTimeSt p x).ep.warp = s.ep.warp := by cases p <;> rfl
@[simp] theorem State.setTimeSt_ep_links (s : State) (p : Part) (x : TimeSt) : (s.setTimeSt p x).ep.links = s.ep.links := by cases p <;> rfl
@[simp] theorem State.setTimeSt_ep_released (s : State) (p : Part) (x : TimeSt) : (s.setTimeSt p x).ep.released = s.ep.released := by cases p <;> rfl
@[simp] theorem State.setTimeSt_ep_sec (s : State) (p : Part) (x : TimeSt) : (s.setTimeSt p x).ep.sec = s.ep.sec := by cases p <;> rfl
@[simp] theorem State.setTimeSt_ep_reps (s : State) (p : Part) (x : TimeSt) : (s.setTimeSt p x).ep.reps = s.ep.reps := by cases p <;> rfl
@[simp] theorem State.setTimeSt_ep_repTimes (s : State) (p : Part) (x : TimeSt) : (s.setTimeSt p x).ep.repTimes = s.ep.repTimes := by cases p <;> rfl
@[simp] theorem State.setTimeSt_ep_orders (s : State) (p : Part) (x : TimeSt) : (s.setTimeSt p x).ep.orders = s.ep.orders := by cases p <;> rfl
@[simp] theorem State.setTimeSt_ep_log (s : State) (p : Part) (x : TimeSt) : (s.setTimeSt p x).ep.log = s.ep.log := by cases p <;> rfl
@[simp] theorem State.setTimeSt_ep_tripped (s : State) (p : Part) (x : TimeSt) : (s.setTimeSt p x).ep.tripped = s.ep.tripped := by cases p <;> rfl
@[simp] theorem State.setTimeSt_ep_evalAt (s : State) (p : Part) (x : TimeSt) : (s.setTimeSt p x).ep.evalAt = s.ep.evalAt := by cases p <;> rfl
@[simp] theorem State.setTimeSt_ep_tap (s : State) (p : Part) (x : TimeSt) : (s.setTimeSt p x).ep.tap = s.ep.tap := by cases p <;> rfl

/-! ### Orders are replaced -/

@[simp] theorem State.setOrders_now (s : State) (p : Part) (x : Orders) : (s.setOrders p x).now = s.now := by cases p <;> rfl
@[simp] theorem State.setOrders_free (s : State) (p : Part) (x : Orders) : (s.setOrders p x).free = s.free := by cases p <;> rfl
@[simp] theorem State.setOrders_pending (s : State) (p : Part) (x : Orders) : (s.setOrders p x).pending = s.pending := by cases p <;> rfl
@[simp] theorem State.setOrders_out (s : State) (p : Part) (x : Orders) : (s.setOrders p x).out = s.out := by cases p <;> rfl
@[simp] theorem State.setOrders_hbm (s : State) (p : Part) (x : Orders) : (s.setOrders p x).hbm = s.hbm := by cases p <;> rfl
@[simp] theorem State.setOrders_ronpex_ep (s : State) (x : Orders) : (s.setOrders .ronpex x).ep = s.ep := rfl
@[simp] theorem State.setOrders_plocen_rp (s : State) (x : Orders) : (s.setOrders .plocen x).rp = s.rp := rfl
@[simp] theorem State.setOrders_rp_regs (s : State) (p : Part) (x : Orders) : (s.setOrders p x).rp.regs = s.rp.regs := by cases p <;> rfl
@[simp] theorem State.setOrders_rp_cand (s : State) (p : Part) (x : Orders) : (s.setOrders p x).rp.cand = s.rp.cand := by cases p <;> rfl
@[simp] theorem State.setOrders_rp_ana (s : State) (p : Part) (x : Orders) : (s.setOrders p x).rp.ana = s.rp.ana := by cases p <;> rfl
@[simp] theorem State.setOrders_rp_eddy (s : State) (p : Part) (x : Orders) : (s.setOrders p x).rp.eddy = s.rp.eddy := by cases p <;> rfl
@[simp] theorem State.setOrders_rp_warp (s : State) (p : Part) (x : Orders) : (s.setOrders p x).rp.warp = s.rp.warp := by cases p <;> rfl
@[simp] theorem State.setOrders_rp_spindles (s : State) (p : Part) (x : Orders) : (s.setOrders p x).rp.spindles = s.rp.spindles := by cases p <;> rfl
@[simp] theorem State.setOrders_rp_fmem (s : State) (p : Part) (x : Orders) : (s.setOrders p x).rp.fmem = s.rp.fmem := by cases p <;> rfl
@[simp] theorem State.setOrders_rp_src (s : State) (p : Part) (x : Orders) : (s.setOrders p x).rp.src = s.rp.src := by cases p <;> rfl
@[simp] theorem State.setOrders_rp_links (s : State) (p : Part) (x : Orders) : (s.setOrders p x).rp.links = s.rp.links := by cases p <;> rfl
@[simp] theorem State.setOrders_rp_lasers (s : State) (p : Part) (x : Orders) : (s.setOrders p x).rp.lasers = s.rp.lasers := by cases p <;> rfl
@[simp] theorem State.setOrders_rp_skeins (s : State) (p : Part) (x : Orders) : (s.setOrders p x).rp.skeins = s.rp.skeins := by cases p <;> rfl
@[simp] theorem State.setOrders_rp_sec (s : State) (p : Part) (x : Orders) : (s.setOrders p x).rp.sec = s.rp.sec := by cases p <;> rfl
@[simp] theorem State.setOrders_rp_units (s : State) (p : Part) (x : Orders) : (s.setOrders p x).rp.units = s.rp.units := by cases p <;> rfl
@[simp] theorem State.setOrders_rp_filter (s : State) (p : Part) (x : Orders) : (s.setOrders p x).rp.filter = s.rp.filter := by cases p <;> rfl
@[simp] theorem State.setOrders_rp_power (s : State) (p : Part) (x : Orders) : (s.setOrders p x).rp.power = s.rp.power := by cases p <;> rfl
@[simp] theorem State.setOrders_rp_time (s : State) (p : Part) (x : Orders) : (s.setOrders p x).rp.time = s.rp.time := by cases p <;> rfl
@[simp] theorem State.setOrders_rp_mgmt (s : State) (p : Part) (x : Orders) : (s.setOrders p x).rp.mgmt = s.rp.mgmt := by cases p <;> rfl
@[simp] theorem State.setOrders_rp_log (s : State) (p : Part) (x : Orders) : (s.setOrders p x).rp.log = s.rp.log := by cases p <;> rfl
@[simp] theorem State.setOrders_rp_pst (s : State) (p : Part) (x : Orders) : (s.setOrders p x).rp.pst = s.rp.pst := by cases p <;> rfl
@[simp] theorem State.setOrders_rp_tray (s : State) (p : Part) (x : Orders) : (s.setOrders p x).rp.tray = s.rp.tray := by cases p <;> rfl
@[simp] theorem State.setOrders_rp_home (s : State) (p : Part) (x : Orders) : (s.setOrders p x).rp.home = s.rp.home := by cases p <;> rfl
@[simp] theorem State.setOrders_rp_tap (s : State) (p : Part) (x : Orders) : (s.setOrders p x).rp.tap = s.rp.tap := by cases p <;> rfl
@[simp] theorem State.setOrders_ep_regs (s : State) (p : Part) (x : Orders) : (s.setOrders p x).ep.regs = s.ep.regs := by cases p <;> rfl
@[simp] theorem State.setOrders_ep_hanks (s : State) (p : Part) (x : Orders) : (s.setOrders p x).ep.hanks = s.ep.hanks := by cases p <;> rfl
@[simp] theorem State.setOrders_ep_att (s : State) (p : Part) (x : Orders) : (s.setOrders p x).ep.att = s.ep.att := by cases p <;> rfl
@[simp] theorem State.setOrders_ep_rings (s : State) (p : Part) (x : Orders) : (s.setOrders p x).ep.rings = s.ep.rings := by cases p <;> rfl
@[simp] theorem State.setOrders_ep_acts (s : State) (p : Part) (x : Orders) : (s.setOrders p x).ep.acts = s.ep.acts := by cases p <;> rfl
@[simp] theorem State.setOrders_ep_gates (s : State) (p : Part) (x : Orders) : (s.setOrders p x).ep.gates = s.ep.gates := by cases p <;> rfl
@[simp] theorem State.setOrders_ep_shuttles (s : State) (p : Part) (x : Orders) : (s.setOrders p x).ep.shuttles = s.ep.shuttles := by cases p <;> rfl
@[simp] theorem State.setOrders_ep_drr (s : State) (p : Part) (x : Orders) : (s.setOrders p x).ep.drr = s.ep.drr := by cases p <;> rfl
@[simp] theorem State.setOrders_ep_loads (s : State) (p : Part) (x : Orders) : (s.setOrders p x).ep.loads = s.ep.loads := by cases p <;> rfl
@[simp] theorem State.setOrders_ep_stores (s : State) (p : Part) (x : Orders) : (s.setOrders p x).ep.stores = s.ep.stores := by cases p <;> rfl
@[simp] theorem State.setOrders_ep_fences (s : State) (p : Part) (x : Orders) : (s.setOrders p x).ep.fences = s.ep.fences := by cases p <;> rfl
@[simp] theorem State.setOrders_ep_nextId (s : State) (p : Part) (x : Orders) : (s.setOrders p x).ep.nextId = s.ep.nextId := by cases p <;> rfl
@[simp] theorem State.setOrders_ep_xlt (s : State) (p : Part) (x : Orders) : (s.setOrders p x).ep.xlt = s.ep.xlt := by cases p <;> rfl
@[simp] theorem State.setOrders_ep_src (s : State) (p : Part) (x : Orders) : (s.setOrders p x).ep.src = s.ep.src := by cases p <;> rfl
@[simp] theorem State.setOrders_ep_dest (s : State) (p : Part) (x : Orders) : (s.setOrders p x).ep.dest = s.ep.dest := by cases p <;> rfl
@[simp] theorem State.setOrders_ep_lands (s : State) (p : Part) (x : Orders) : (s.setOrders p x).ep.lands = s.ep.lands := by cases p <;> rfl
@[simp] theorem State.setOrders_ep_tx (s : State) (p : Part) (x : Orders) : (s.setOrders p x).ep.tx = s.ep.tx := by cases p <;> rfl
@[simp] theorem State.setOrders_ep_paced (s : State) (p : Part) (x : Orders) : (s.setOrders p x).ep.paced = s.ep.paced := by cases p <;> rfl
@[simp] theorem State.setOrders_ep_warp (s : State) (p : Part) (x : Orders) : (s.setOrders p x).ep.warp = s.ep.warp := by cases p <;> rfl
@[simp] theorem State.setOrders_ep_links (s : State) (p : Part) (x : Orders) : (s.setOrders p x).ep.links = s.ep.links := by cases p <;> rfl
@[simp] theorem State.setOrders_ep_released (s : State) (p : Part) (x : Orders) : (s.setOrders p x).ep.released = s.ep.released := by cases p <;> rfl
@[simp] theorem State.setOrders_ep_sec (s : State) (p : Part) (x : Orders) : (s.setOrders p x).ep.sec = s.ep.sec := by cases p <;> rfl
@[simp] theorem State.setOrders_ep_reps (s : State) (p : Part) (x : Orders) : (s.setOrders p x).ep.reps = s.ep.reps := by cases p <;> rfl
@[simp] theorem State.setOrders_ep_repTimes (s : State) (p : Part) (x : Orders) : (s.setOrders p x).ep.repTimes = s.ep.repTimes := by cases p <;> rfl
@[simp] theorem State.setOrders_ep_time (s : State) (p : Part) (x : Orders) : (s.setOrders p x).ep.time = s.ep.time := by cases p <;> rfl
@[simp] theorem State.setOrders_ep_log (s : State) (p : Part) (x : Orders) : (s.setOrders p x).ep.log = s.ep.log := by cases p <;> rfl
@[simp] theorem State.setOrders_ep_tripped (s : State) (p : Part) (x : Orders) : (s.setOrders p x).ep.tripped = s.ep.tripped := by cases p <;> rfl
@[simp] theorem State.setOrders_ep_evalAt (s : State) (p : Part) (x : Orders) : (s.setOrders p x).ep.evalAt = s.ep.evalAt := by cases p <;> rfl
@[simp] theorem State.setOrders_ep_tap (s : State) (p : Part) (x : Orders) : (s.setOrders p x).ep.tap = s.ep.tap := by cases p <;> rfl

/-! ### A source of weft is replaced -/

@[simp] theorem State.setSource_now (s : State) (p : Part) (x : Source) : (s.setSource p x).now = s.now := by cases p <;> rfl
@[simp] theorem State.setSource_free (s : State) (p : Part) (x : Source) : (s.setSource p x).free = s.free := by cases p <;> rfl
@[simp] theorem State.setSource_pending (s : State) (p : Part) (x : Source) : (s.setSource p x).pending = s.pending := by cases p <;> rfl
@[simp] theorem State.setSource_out (s : State) (p : Part) (x : Source) : (s.setSource p x).out = s.out := by cases p <;> rfl
@[simp] theorem State.setSource_hbm (s : State) (p : Part) (x : Source) : (s.setSource p x).hbm = s.hbm := by cases p <;> rfl
@[simp] theorem State.setSource_ronpex_ep (s : State) (x : Source) : (s.setSource .ronpex x).ep = s.ep := rfl
@[simp] theorem State.setSource_plocen_rp (s : State) (x : Source) : (s.setSource .plocen x).rp = s.rp := rfl
@[simp] theorem State.setSource_rp_regs (s : State) (p : Part) (x : Source) : (s.setSource p x).rp.regs = s.rp.regs := by cases p <;> rfl
@[simp] theorem State.setSource_rp_cand (s : State) (p : Part) (x : Source) : (s.setSource p x).rp.cand = s.rp.cand := by cases p <;> rfl
@[simp] theorem State.setSource_rp_ana (s : State) (p : Part) (x : Source) : (s.setSource p x).rp.ana = s.rp.ana := by cases p <;> rfl
@[simp] theorem State.setSource_rp_eddy (s : State) (p : Part) (x : Source) : (s.setSource p x).rp.eddy = s.rp.eddy := by cases p <;> rfl
@[simp] theorem State.setSource_rp_warp (s : State) (p : Part) (x : Source) : (s.setSource p x).rp.warp = s.rp.warp := by cases p <;> rfl
@[simp] theorem State.setSource_rp_spindles (s : State) (p : Part) (x : Source) : (s.setSource p x).rp.spindles = s.rp.spindles := by cases p <;> rfl
@[simp] theorem State.setSource_rp_fmem (s : State) (p : Part) (x : Source) : (s.setSource p x).rp.fmem = s.rp.fmem := by cases p <;> rfl
@[simp] theorem State.setSource_rp_links (s : State) (p : Part) (x : Source) : (s.setSource p x).rp.links = s.rp.links := by cases p <;> rfl
@[simp] theorem State.setSource_rp_lasers (s : State) (p : Part) (x : Source) : (s.setSource p x).rp.lasers = s.rp.lasers := by cases p <;> rfl
@[simp] theorem State.setSource_rp_skeins (s : State) (p : Part) (x : Source) : (s.setSource p x).rp.skeins = s.rp.skeins := by cases p <;> rfl
@[simp] theorem State.setSource_rp_sec (s : State) (p : Part) (x : Source) : (s.setSource p x).rp.sec = s.rp.sec := by cases p <;> rfl
@[simp] theorem State.setSource_rp_units (s : State) (p : Part) (x : Source) : (s.setSource p x).rp.units = s.rp.units := by cases p <;> rfl
@[simp] theorem State.setSource_rp_filter (s : State) (p : Part) (x : Source) : (s.setSource p x).rp.filter = s.rp.filter := by cases p <;> rfl
@[simp] theorem State.setSource_rp_orders (s : State) (p : Part) (x : Source) : (s.setSource p x).rp.orders = s.rp.orders := by cases p <;> rfl
@[simp] theorem State.setSource_rp_power (s : State) (p : Part) (x : Source) : (s.setSource p x).rp.power = s.rp.power := by cases p <;> rfl
@[simp] theorem State.setSource_rp_time (s : State) (p : Part) (x : Source) : (s.setSource p x).rp.time = s.rp.time := by cases p <;> rfl
@[simp] theorem State.setSource_rp_mgmt (s : State) (p : Part) (x : Source) : (s.setSource p x).rp.mgmt = s.rp.mgmt := by cases p <;> rfl
@[simp] theorem State.setSource_rp_log (s : State) (p : Part) (x : Source) : (s.setSource p x).rp.log = s.rp.log := by cases p <;> rfl
@[simp] theorem State.setSource_rp_pst (s : State) (p : Part) (x : Source) : (s.setSource p x).rp.pst = s.rp.pst := by cases p <;> rfl
@[simp] theorem State.setSource_rp_tray (s : State) (p : Part) (x : Source) : (s.setSource p x).rp.tray = s.rp.tray := by cases p <;> rfl
@[simp] theorem State.setSource_rp_home (s : State) (p : Part) (x : Source) : (s.setSource p x).rp.home = s.rp.home := by cases p <;> rfl
@[simp] theorem State.setSource_rp_tap (s : State) (p : Part) (x : Source) : (s.setSource p x).rp.tap = s.rp.tap := by cases p <;> rfl
@[simp] theorem State.setSource_ep_regs (s : State) (p : Part) (x : Source) : (s.setSource p x).ep.regs = s.ep.regs := by cases p <;> rfl
@[simp] theorem State.setSource_ep_hanks (s : State) (p : Part) (x : Source) : (s.setSource p x).ep.hanks = s.ep.hanks := by cases p <;> rfl
@[simp] theorem State.setSource_ep_att (s : State) (p : Part) (x : Source) : (s.setSource p x).ep.att = s.ep.att := by cases p <;> rfl
@[simp] theorem State.setSource_ep_rings (s : State) (p : Part) (x : Source) : (s.setSource p x).ep.rings = s.ep.rings := by cases p <;> rfl
@[simp] theorem State.setSource_ep_acts (s : State) (p : Part) (x : Source) : (s.setSource p x).ep.acts = s.ep.acts := by cases p <;> rfl
@[simp] theorem State.setSource_ep_gates (s : State) (p : Part) (x : Source) : (s.setSource p x).ep.gates = s.ep.gates := by cases p <;> rfl
@[simp] theorem State.setSource_ep_shuttles (s : State) (p : Part) (x : Source) : (s.setSource p x).ep.shuttles = s.ep.shuttles := by cases p <;> rfl
@[simp] theorem State.setSource_ep_drr (s : State) (p : Part) (x : Source) : (s.setSource p x).ep.drr = s.ep.drr := by cases p <;> rfl
@[simp] theorem State.setSource_ep_loads (s : State) (p : Part) (x : Source) : (s.setSource p x).ep.loads = s.ep.loads := by cases p <;> rfl
@[simp] theorem State.setSource_ep_stores (s : State) (p : Part) (x : Source) : (s.setSource p x).ep.stores = s.ep.stores := by cases p <;> rfl
@[simp] theorem State.setSource_ep_fences (s : State) (p : Part) (x : Source) : (s.setSource p x).ep.fences = s.ep.fences := by cases p <;> rfl
@[simp] theorem State.setSource_ep_nextId (s : State) (p : Part) (x : Source) : (s.setSource p x).ep.nextId = s.ep.nextId := by cases p <;> rfl
@[simp] theorem State.setSource_ep_xlt (s : State) (p : Part) (x : Source) : (s.setSource p x).ep.xlt = s.ep.xlt := by cases p <;> rfl
@[simp] theorem State.setSource_ep_dest (s : State) (p : Part) (x : Source) : (s.setSource p x).ep.dest = s.ep.dest := by cases p <;> rfl
@[simp] theorem State.setSource_ep_lands (s : State) (p : Part) (x : Source) : (s.setSource p x).ep.lands = s.ep.lands := by cases p <;> rfl
@[simp] theorem State.setSource_ep_tx (s : State) (p : Part) (x : Source) : (s.setSource p x).ep.tx = s.ep.tx := by cases p <;> rfl
@[simp] theorem State.setSource_ep_paced (s : State) (p : Part) (x : Source) : (s.setSource p x).ep.paced = s.ep.paced := by cases p <;> rfl
@[simp] theorem State.setSource_ep_warp (s : State) (p : Part) (x : Source) : (s.setSource p x).ep.warp = s.ep.warp := by cases p <;> rfl
@[simp] theorem State.setSource_ep_links (s : State) (p : Part) (x : Source) : (s.setSource p x).ep.links = s.ep.links := by cases p <;> rfl
@[simp] theorem State.setSource_ep_released (s : State) (p : Part) (x : Source) : (s.setSource p x).ep.released = s.ep.released := by cases p <;> rfl
@[simp] theorem State.setSource_ep_sec (s : State) (p : Part) (x : Source) : (s.setSource p x).ep.sec = s.ep.sec := by cases p <;> rfl
@[simp] theorem State.setSource_ep_reps (s : State) (p : Part) (x : Source) : (s.setSource p x).ep.reps = s.ep.reps := by cases p <;> rfl
@[simp] theorem State.setSource_ep_repTimes (s : State) (p : Part) (x : Source) : (s.setSource p x).ep.repTimes = s.ep.repTimes := by cases p <;> rfl
@[simp] theorem State.setSource_ep_orders (s : State) (p : Part) (x : Source) : (s.setSource p x).ep.orders = s.ep.orders := by cases p <;> rfl
@[simp] theorem State.setSource_ep_time (s : State) (p : Part) (x : Source) : (s.setSource p x).ep.time = s.ep.time := by cases p <;> rfl
@[simp] theorem State.setSource_ep_log (s : State) (p : Part) (x : Source) : (s.setSource p x).ep.log = s.ep.log := by cases p <;> rfl
@[simp] theorem State.setSource_ep_tripped (s : State) (p : Part) (x : Source) : (s.setSource p x).ep.tripped = s.ep.tripped := by cases p <;> rfl
@[simp] theorem State.setSource_ep_evalAt (s : State) (p : Part) (x : Source) : (s.setSource p x).ep.evalAt = s.ep.evalAt := by cases p <;> rfl
@[simp] theorem State.setSource_ep_tap (s : State) (p : Part) (x : Source) : (s.setSource p x).ep.tap = s.ep.tap := by cases p <;> rfl

/-! ### A destination of weft is replaced -/

@[simp] theorem State.setDest_now (s : State) (p : Part) (x : Dest) : (s.setDest p x).now = s.now := by cases p <;> rfl
@[simp] theorem State.setDest_free (s : State) (p : Part) (x : Dest) : (s.setDest p x).free = s.free := by cases p <;> rfl
@[simp] theorem State.setDest_pending (s : State) (p : Part) (x : Dest) : (s.setDest p x).pending = s.pending := by cases p <;> rfl
@[simp] theorem State.setDest_out (s : State) (p : Part) (x : Dest) : (s.setDest p x).out = s.out := by cases p <;> rfl
@[simp] theorem State.setDest_hbm (s : State) (p : Part) (x : Dest) : (s.setDest p x).hbm = s.hbm := by cases p <;> rfl
@[simp] theorem State.setDest_ronpex_ep (s : State) (x : Dest) : (s.setDest .ronpex x).ep = s.ep := rfl
@[simp] theorem State.setDest_plocen_rp (s : State) (x : Dest) : (s.setDest .plocen x).rp = s.rp := rfl
@[simp] theorem State.setDest_rp_regs (s : State) (p : Part) (x : Dest) : (s.setDest p x).rp.regs = s.rp.regs := by cases p <;> rfl
@[simp] theorem State.setDest_rp_cand (s : State) (p : Part) (x : Dest) : (s.setDest p x).rp.cand = s.rp.cand := by cases p <;> rfl
@[simp] theorem State.setDest_rp_ana (s : State) (p : Part) (x : Dest) : (s.setDest p x).rp.ana = s.rp.ana := by cases p <;> rfl
@[simp] theorem State.setDest_rp_eddy (s : State) (p : Part) (x : Dest) : (s.setDest p x).rp.eddy = s.rp.eddy := by cases p <;> rfl
@[simp] theorem State.setDest_rp_warp (s : State) (p : Part) (x : Dest) : (s.setDest p x).rp.warp = s.rp.warp := by cases p <;> rfl
@[simp] theorem State.setDest_rp_spindles (s : State) (p : Part) (x : Dest) : (s.setDest p x).rp.spindles = s.rp.spindles := by cases p <;> rfl
@[simp] theorem State.setDest_rp_src (s : State) (p : Part) (x : Dest) : (s.setDest p x).rp.src = s.rp.src := by cases p <;> rfl
@[simp] theorem State.setDest_rp_links (s : State) (p : Part) (x : Dest) : (s.setDest p x).rp.links = s.rp.links := by cases p <;> rfl
@[simp] theorem State.setDest_rp_lasers (s : State) (p : Part) (x : Dest) : (s.setDest p x).rp.lasers = s.rp.lasers := by cases p <;> rfl
@[simp] theorem State.setDest_rp_skeins (s : State) (p : Part) (x : Dest) : (s.setDest p x).rp.skeins = s.rp.skeins := by cases p <;> rfl
@[simp] theorem State.setDest_rp_sec (s : State) (p : Part) (x : Dest) : (s.setDest p x).rp.sec = s.rp.sec := by cases p <;> rfl
@[simp] theorem State.setDest_rp_units (s : State) (p : Part) (x : Dest) : (s.setDest p x).rp.units = s.rp.units := by cases p <;> rfl
@[simp] theorem State.setDest_rp_filter (s : State) (p : Part) (x : Dest) : (s.setDest p x).rp.filter = s.rp.filter := by cases p <;> rfl
@[simp] theorem State.setDest_rp_orders (s : State) (p : Part) (x : Dest) : (s.setDest p x).rp.orders = s.rp.orders := by cases p <;> rfl
@[simp] theorem State.setDest_rp_power (s : State) (p : Part) (x : Dest) : (s.setDest p x).rp.power = s.rp.power := by cases p <;> rfl
@[simp] theorem State.setDest_rp_time (s : State) (p : Part) (x : Dest) : (s.setDest p x).rp.time = s.rp.time := by cases p <;> rfl
@[simp] theorem State.setDest_rp_mgmt (s : State) (p : Part) (x : Dest) : (s.setDest p x).rp.mgmt = s.rp.mgmt := by cases p <;> rfl
@[simp] theorem State.setDest_rp_log (s : State) (p : Part) (x : Dest) : (s.setDest p x).rp.log = s.rp.log := by cases p <;> rfl
@[simp] theorem State.setDest_rp_pst (s : State) (p : Part) (x : Dest) : (s.setDest p x).rp.pst = s.rp.pst := by cases p <;> rfl
@[simp] theorem State.setDest_rp_tray (s : State) (p : Part) (x : Dest) : (s.setDest p x).rp.tray = s.rp.tray := by cases p <;> rfl
@[simp] theorem State.setDest_rp_home (s : State) (p : Part) (x : Dest) : (s.setDest p x).rp.home = s.rp.home := by cases p <;> rfl
@[simp] theorem State.setDest_rp_tap (s : State) (p : Part) (x : Dest) : (s.setDest p x).rp.tap = s.rp.tap := by cases p <;> rfl
@[simp] theorem State.setDest_ep_regs (s : State) (p : Part) (x : Dest) : (s.setDest p x).ep.regs = s.ep.regs := by cases p <;> rfl
@[simp] theorem State.setDest_ep_hanks (s : State) (p : Part) (x : Dest) : (s.setDest p x).ep.hanks = s.ep.hanks := by cases p <;> rfl
@[simp] theorem State.setDest_ep_att (s : State) (p : Part) (x : Dest) : (s.setDest p x).ep.att = s.ep.att := by cases p <;> rfl
@[simp] theorem State.setDest_ep_rings (s : State) (p : Part) (x : Dest) : (s.setDest p x).ep.rings = s.ep.rings := by cases p <;> rfl
@[simp] theorem State.setDest_ep_acts (s : State) (p : Part) (x : Dest) : (s.setDest p x).ep.acts = s.ep.acts := by cases p <;> rfl
@[simp] theorem State.setDest_ep_gates (s : State) (p : Part) (x : Dest) : (s.setDest p x).ep.gates = s.ep.gates := by cases p <;> rfl
@[simp] theorem State.setDest_ep_shuttles (s : State) (p : Part) (x : Dest) : (s.setDest p x).ep.shuttles = s.ep.shuttles := by cases p <;> rfl
@[simp] theorem State.setDest_ep_drr (s : State) (p : Part) (x : Dest) : (s.setDest p x).ep.drr = s.ep.drr := by cases p <;> rfl
@[simp] theorem State.setDest_ep_loads (s : State) (p : Part) (x : Dest) : (s.setDest p x).ep.loads = s.ep.loads := by cases p <;> rfl
@[simp] theorem State.setDest_ep_stores (s : State) (p : Part) (x : Dest) : (s.setDest p x).ep.stores = s.ep.stores := by cases p <;> rfl
@[simp] theorem State.setDest_ep_fences (s : State) (p : Part) (x : Dest) : (s.setDest p x).ep.fences = s.ep.fences := by cases p <;> rfl
@[simp] theorem State.setDest_ep_nextId (s : State) (p : Part) (x : Dest) : (s.setDest p x).ep.nextId = s.ep.nextId := by cases p <;> rfl
@[simp] theorem State.setDest_ep_xlt (s : State) (p : Part) (x : Dest) : (s.setDest p x).ep.xlt = s.ep.xlt := by cases p <;> rfl
@[simp] theorem State.setDest_ep_src (s : State) (p : Part) (x : Dest) : (s.setDest p x).ep.src = s.ep.src := by cases p <;> rfl
@[simp] theorem State.setDest_ep_lands (s : State) (p : Part) (x : Dest) : (s.setDest p x).ep.lands = s.ep.lands := by cases p <;> rfl
@[simp] theorem State.setDest_ep_tx (s : State) (p : Part) (x : Dest) : (s.setDest p x).ep.tx = s.ep.tx := by cases p <;> rfl
@[simp] theorem State.setDest_ep_paced (s : State) (p : Part) (x : Dest) : (s.setDest p x).ep.paced = s.ep.paced := by cases p <;> rfl
@[simp] theorem State.setDest_ep_warp (s : State) (p : Part) (x : Dest) : (s.setDest p x).ep.warp = s.ep.warp := by cases p <;> rfl
@[simp] theorem State.setDest_ep_links (s : State) (p : Part) (x : Dest) : (s.setDest p x).ep.links = s.ep.links := by cases p <;> rfl
@[simp] theorem State.setDest_ep_released (s : State) (p : Part) (x : Dest) : (s.setDest p x).ep.released = s.ep.released := by cases p <;> rfl
@[simp] theorem State.setDest_ep_sec (s : State) (p : Part) (x : Dest) : (s.setDest p x).ep.sec = s.ep.sec := by cases p <;> rfl
@[simp] theorem State.setDest_ep_reps (s : State) (p : Part) (x : Dest) : (s.setDest p x).ep.reps = s.ep.reps := by cases p <;> rfl
@[simp] theorem State.setDest_ep_repTimes (s : State) (p : Part) (x : Dest) : (s.setDest p x).ep.repTimes = s.ep.repTimes := by cases p <;> rfl
@[simp] theorem State.setDest_ep_orders (s : State) (p : Part) (x : Dest) : (s.setDest p x).ep.orders = s.ep.orders := by cases p <;> rfl
@[simp] theorem State.setDest_ep_time (s : State) (p : Part) (x : Dest) : (s.setDest p x).ep.time = s.ep.time := by cases p <;> rfl
@[simp] theorem State.setDest_ep_log (s : State) (p : Part) (x : Dest) : (s.setDest p x).ep.log = s.ep.log := by cases p <;> rfl
@[simp] theorem State.setDest_ep_tripped (s : State) (p : Part) (x : Dest) : (s.setDest p x).ep.tripped = s.ep.tripped := by cases p <;> rfl
@[simp] theorem State.setDest_ep_evalAt (s : State) (p : Part) (x : Dest) : (s.setDest p x).ep.evalAt = s.ep.evalAt := by cases p <;> rfl
@[simp] theorem State.setDest_ep_tap (s : State) (p : Part) (x : Dest) : (s.setDest p x).ep.tap = s.ep.tap := by cases p <;> rfl

/-! ### Reading back what was replaced -/

@[simp] theorem State.setSec_same (s : State) (p : Part) (x : Security) : (s.setSec p x).sec p = x := by cases p <;> rfl
@[simp] theorem State.setTimeSt_same (s : State) (p : Part) (x : TimeSt) : (s.setTimeSt p x).timeSt p = x := by cases p <;> rfl
@[simp] theorem State.setOrders_same (s : State) (p : Part) (x : Orders) : (s.setOrders p x).orders p = x := by cases p <;> rfl
@[simp] theorem State.setSource_same (s : State) (p : Part) (x : Source) : (s.setSource p x).source p = x := by cases p <;> rfl
@[simp] theorem State.setDest_same (s : State) (p : Part) (x : Dest) : (s.setDest p x).destOf p = x := by cases p <;> rfl

end Sys2Proof.Machine
end

