-- ==== Sys2Proof/Laws/Ops.lean ====
section
/-! SUPPORT. What the shared operations of Machine/Ops.lean and Machine/Flags.lean can do, each said once: what a written register and
its fields read as, and which parts of the state each operation can change. -/

namespace Sys2Proof.Machine

open Sys2Proof

/-! ### Bit fields -/

/-- A field of a number stays below its own end. -/
theorem bits_lt (lo len w : Nat) : bits lo len w < 2 ^ len := Nat.mod_lt _ (Nat.two_pow_pos len)

/-- Bit `j` of `w`, as the bit test of the library. -/
theorem bit_eq_testBit (j w : Nat) : bit j w = w.testBit j := by
  rw [Nat.testBit_eq_decide_div_mod_eq]
  simp [bit, bits, Bool.beq_eq_decide_eq]

/-- A field, as the library's shift and mask spell it, bit by bit. -/
theorem testBit_bits (lo len w j : Nat) : (bits lo len w).testBit j = (decide (j < len) && w.testBit (lo + j)) := by
  rw [bits, Nat.testBit_mod_two_pow, Nat.testBit_div_two_pow, Nat.add_comm]

/-- What stands below, in and above a replaced field. -/
theorem setBits_eq (lo len v w : Nat) :
    setBits lo len v w = w % 2 ^ lo + 2 ^ lo * (v % 2 ^ len + 2 ^ len * (w / 2 ^ lo / 2 ^ len)) := by
  have h1 := Nat.div_add_mod w (2 ^ lo)
  have h2 := Nat.div_add_mod (w / 2 ^ lo) (2 ^ len)
  have h3 : w = w % 2 ^ lo + 2 ^ lo * (w / 2 ^ lo % 2 ^ len) + 2 ^ lo * (2 ^ len * (w / 2 ^ lo / 2 ^ len)) := by
    have h := congrArg (2 ^ lo * ·) h2
    simp only [Nat.mul_add] at h
    omega
  have h4 : w / 2 ^ lo % 2 ^ len * 2 ^ lo = 2 ^ lo * (w / 2 ^ lo % 2 ^ len) := Nat.mul_comm _ _
  have h5 : v % 2 ^ len * 2 ^ lo = 2 ^ lo * (v % 2 ^ len) := Nat.mul_comm _ _
  unfold setBits bits
  rw [h4, h5, Nat.mul_add]
  generalize w / 2 ^ lo % 2 ^ len = x at *
  generalize 2 ^ lo * (2 ^ len * (w / 2 ^ lo / 2 ^ len)) = y at *
  omega

/-- A replaced field reads as what was put into it (R12). -/
theorem bits_setBits_same (lo len v w : Nat) : bits lo len (setBits lo len v w) = v % 2 ^ len := by
  rw [setBits_eq, bits, Nat.add_mul_div_left _ _ (Nat.two_pow_pos lo), Nat.div_eq_of_lt (Nat.mod_lt _ (Nat.two_pow_pos lo)),
    Nat.zero_add, Nat.add_mul_mod_self_left, Nat.mod_mod]

/-! ### Registers -/

/-- A register that was set reads as the low 32 bits of the value; every other register is as it was. -/
theorem State.reg_setReg (s : State) (p q : Part) (a b v : Nat) :
    (s.setReg p a v).reg q b = if p = q ∧ a = b then v % 2 ^ 32 else s.reg q b := by
  cases p <;> cases q <;>
    simp only [State.setReg, State.reg, Ronpex.reg, Ronpex.setReg, Plocen.reg, Plocen.setReg, SMap.look_put, true_and, false_and,
      reduceCtorEq, if_false]
  all_goals
    by_cases h : a = b
    · subst h; simp
    · simp [h, Ne.symm h]

/-- A register that was set reads as the value, cut to 32 bits. -/
@[simp] theorem State.reg_setReg_same (s : State) (p : Part) (a v : Nat) : (s.setReg p a v).reg p a = v % 2 ^ 32 := by
  simp [State.reg_setReg]

/-- Setting a register leaves every other register as it was. -/
theorem State.reg_setReg_other (s : State) (p q : Part) (a b v : Nat) (h : p ≠ q ∨ a ≠ b) :
    (s.setReg p a v).reg q b = s.reg q b := by
  rw [State.reg_setReg, if_neg (by tauto)]

/-- Nothing but the register table of the one part changes when a register is set. -/
theorem State.setReg_only (s : State) (p : Part) (a v : Nat) :
    ∃ x y, s.setReg p a v = { s with rp := { s.rp with regs := x }, ep := { s.ep with regs := y } } := by
  cases p
  · exact ⟨_, s.ep.regs, rfl⟩
  · exact ⟨s.rp.regs, _, rfl⟩

/-- Setting a field leaves every other register as it was. -/
theorem State.reg_setFld_other (s : State) (p q : Part) (a b lo len v : Nat) (h : p ≠ q ∨ a ≠ b) :
    (s.setFld p a lo len v).reg q b = s.reg q b := State.reg_setReg_other s p q a b _ h

/-- A field that counts leaves every other register as it was. -/
theorem State.reg_satFld_other (s : State) (p q : Part) (a b lo len n : Nat) (h : p ≠ q ∨ a ≠ b) :
    (s.satFld p a lo len n).reg q b = s.reg q b := State.reg_setReg_other s p q a b _ h

/-- A field that counts and saturates changes nothing but a register table. -/
theorem State.satFld_only (s : State) (p : Part) (a lo len n : Nat) :
    ∃ x y, s.satFld p a lo len n = { s with rp := { s.rp with regs := x }, ep := { s.ep with regs := y } } :=
  State.setReg_only s p a _

/-- What is sent outside is no register. -/
@[simp] theorem State.reg_emit (s : State) (o : Out) (p : Part) (a : Nat) : (s.emit o).reg p a = s.reg p a := by cases p <;> rfl

/-- The attach link is no register. -/
@[simp] theorem State.reg_modAtt (s : State) (f : Attach → Attach) (p : Part) (a : Nat) : (s.modAtt f).reg p a = s.reg p a := by
  cases p <;> rfl

/-- The record of units is no register. -/
@[simp] theorem State.reg_modUnits (s : State) (f : Units → Units) (p : Part) (a : Nat) : (s.modUnits f).reg p a = s.reg p a := by
  cases p <;> rfl

/-- Memory is no register. -/
@[simp] theorem State.reg_hbmWrite (s : State) (m : Nat) (d : List Byte) (p : Part) (a : Nat) :
    (s.hbmWrite m d).reg p a = s.reg p a := by cases p <;> rfl

/-! ### Links -/

/-- A link that was replaced reads as the new one; every other link is as it was. -/
theorem State.link_setLink (s : State) (p q : Part) (a b : Nat) (l : Link) :
    (s.setLink p a l).link q b = if p = q ∧ a = b then l else s.link q b := by
  cases p <;> cases q <;>
    simp only [State.setLink, State.link, SMap.look_put, true_and, false_and, reduceCtorEq, if_false]
  all_goals
    by_cases h : a = b
    · subst h; simp
    · simp [h, Ne.symm h]

/-- A link that was changed. -/
@[simp] theorem State.link_modLink_same (s : State) (p : Part) (a : Nat) (f : Link → Link) :
    (s.modLink p a f).link p a = f (s.link p a) := by simp [State.modLink, State.link_setLink]

/-! ### What leaves the parts, the change log and events: what these operations can change -/

/-- An interrupt message changes only what has been sent and the Ronpex's registers. -/
theorem State.msix_only (s : State) (v : Nat) :
    ∃ o x, s.msix v = { s with out := o, rp := { s.rp with regs := x } } := by
  unfold State.msix
  split
  · exact ⟨s.out, _, rfl⟩
  · exact ⟨_, s.rp.regs, rfl⟩

/-- A log entry of the Ronpex changes only its log and its registers. -/
theorem State.rpLog_only (s : State) (b : LogBody) :
    ∃ l x, s.rpLog b = { s with rp := { s.rp with log := l, regs := x } } := by
  unfold State.rpLog
  split
  · exact ⟨s.rp.log, s.rp.regs, rfl⟩
  · exact ⟨_, _, rfl⟩

/-- A condition that the Ronpex logs changes only its log and its registers. -/
theorem State.rpCond_only (s : State) (code origin requester port skein addr old new : Nat) :
    ∃ l x, s.rpCond code origin requester port skein addr old new = { s with rp := { s.rp with log := l, regs := x } } :=
  State.rpLog_only s _

/-- An event entry changes only what has been sent, the management rings and the Ronpex's registers. -/
theorem State.evtWrite_only (s : State) (e : Event) :
    ∃ o m x, s.evtWrite e = { s with out := o, rp := { s.rp with mgmt := m, regs := x } } := by
  unfold State.evtWrite
  obtain ⟨o, x, h⟩ := State.msix_only ({ s.emit (.event (s.ringBase Reg.mgtEvtBaseLo Reg.mgtEvtBaseHi
    + 32 * (s.rp.mgmt.evtTail % s.evtSize)) e (eventBytes (s.rp.mgmt.evtTail / s.evtSize % 2 == 0) e)) with
      rp := { s.rp with mgmt := { s.rp.mgmt with evtTail := (s.rp.mgmt.evtTail + 1) % 2 ^ 32 } } }) 1
  exact ⟨o, _, x, h⟩

/-- The OVERFLOW event changes only what has been sent, the management rings and the Ronpex's registers. -/
theorem State.evtOverflow_only (s : State) :
    ∃ o m x, s.evtOverflow = { s with out := o, rp := { s.rp with mgmt := m, regs := x } } := by
  unfold State.evtOverflow
  split
  · obtain ⟨o, m, x, h⟩ := State.evtWrite_only s (Event.mk s.now 0x72 none 0 0 0 (s.reg .ronpex Reg.mgtEvtOvf * 2 ^ 32))
    simp only [h]
    exact ⟨o, m, _, rfl⟩
  · exact ⟨s.out, s.rp.mgmt, s.rp.regs, rfl⟩

/-- An event that is posted changes only what has been sent, the management rings and the Ronpex's registers. -/
theorem State.post_only (s : State) (e : Event) :
    ∃ o m x, s.post e = { s with out := o, rp := { s.rp with mgmt := m, regs := x } } := by
  unfold State.post
  split
  · split
    · exact ⟨s.out, _, s.rp.regs, rfl⟩
    · exact ⟨s.out, s.rp.mgmt, _, rfl⟩
  · obtain ⟨o, m, x, h⟩ := State.evtOverflow_only s
    simp only [h]
    split
    · obtain ⟨o', m', x', h'⟩ := State.evtWrite_only { s with out := o, rp := { s.rp with mgmt := m, regs := x } } e
      exact ⟨o', m', x', h'⟩
    · exact ⟨o, m, _, rfl⟩

/-- Events posted one after another change no more than one does. -/
theorem State.posts_only (f : State → Nat → Event) (l : List Nat) (s : State) :
    ∃ o m x, l.foldl (fun t k => t.post (f t k)) s = { s with out := o, rp := { s.rp with mgmt := m, regs := x } } := by
  induction l generalizing s with
  | nil => exact ⟨s.out, s.rp.mgmt, s.rp.regs, rfl⟩
  | cons k r ih =>
    obtain ⟨o, m, x, h⟩ := State.post_only s (f s k)
    obtain ⟨o', m', x', h'⟩ := ih { s with out := o, rp := { s.rp with mgmt := m, regs := x } }
    exact ⟨o', m', x', by rw [List.foldl_cons, h, h']⟩

/-- An event and its tenant records change only what has been sent, the management rings, the records that wait and the Ronpex's
registers. -/
theorem State.postFor_only (s : State) (e : Event) (scope : Nat) (ks : List Nat) :
    ∃ o m k x, s.postFor e scope ks = { s with out := o, rp := { s.rp with mgmt := m, skeins := k, regs := x } } := by
  unfold State.postFor
  obtain ⟨o, m, x, h⟩ := State.post_only s e
  simp only [h]
  split
  · obtain ⟨o', m', x', h'⟩ := State.posts_only (fun t k => tenantOf e k 0 t.plane) ks
      { s with out := o, rp := { s.rp with mgmt := m, regs := x } }
    exact ⟨o', m', s.rp.skeins, x', h'⟩
  · exact ⟨o, m, _, x, rfl⟩

/-- A write of a persistent word changes only what has been sent, the management rings, the store, the change log and the Ronpex's
registers. -/
theorem State.pstCell_only (s : State) (a v : Nat) :
    ∃ o m q l x, s.pstCell a v = { s with out := o, rp := { s.rp with mgmt := m, pst := q, log := l, regs := x } } := by
  unfold State.pstCell
  dsimp only
  split
  · obtain ⟨l, y, g⟩ := State.rpLog_only s (s.pstViolation a v)
    rw [g]
    obtain ⟨o, m, x, h⟩ := State.post_only { s with rp := { s.rp with log := l, regs := y } } (pstEvent s.now 3 a)
    exact ⟨o, m, s.rp.pst, l, x, h⟩
  · split
    · obtain ⟨o, m, x, h⟩ := State.post_only _ (pstEvent s.now 1 a)
      exact ⟨o, m, _, s.rp.log, x, h⟩
    · split
      · obtain ⟨o, m, x, h⟩ := State.post_only _ (pstEvent s.now 2 a)
        exact ⟨o, m, _, s.rp.log, x, h⟩
      · exact ⟨s.out, s.rp.mgmt, _, s.rp.log, s.rp.regs, rfl⟩

/-! ### The attach link: what sending on it can change -/

/-- A flit that goes out changes only what has been sent and the attach link. -/
theorem State.sendFlit_only (s : State) (kind seq : Nat) (body : List (BitVec 128)) :
    ∃ o a, s.sendFlit kind seq body = { s with out := o, ep := { s.ep with att := a } } := ⟨_, _, rfl⟩

/-- An idle flit changes only what has been sent and the attach link. -/
theorem State.idleFlit_only (s : State) : ∃ o a, s.idleFlit = { s with out := o, ep := { s.ep with att := a } } := by
  unfold State.idleFlit
  split
  · exact State.sendFlit_only s _ _ _
  · exact ⟨s.out, s.ep.att, rfl⟩

/-- Chunks that go out change only what has been sent and the attach link. -/
theorem State.sendChunks_only (n : Nat) (cs : List (BitVec 128)) (s : State) :
    ∃ o a, State.sendChunks n cs s = { s with out := o, ep := { s.ep with att := a } } := by
  induction n generalizing cs s with
  | zero => exact ⟨s.out, s.ep.att, rfl⟩
  | succ n ih =>
    unfold State.sendChunks
    split
    · exact ⟨s.out, s.ep.att, rfl⟩
    · obtain ⟨o₁, a₁, h₁⟩ := State.sendFlit_only s 1 s.ep.att.txSeq (flitBody cs)
      dsimp only
      rw [h₁]
      obtain ⟨o, a, h⟩ := ih (cs.drop 15) (({ s with out := o₁, ep := { s.ep with att := a₁ } } : State).modAtt fun a =>
        { a with txSeq := (s.ep.att.txSeq + 1) % 4096, txHeld := a.txHeld ++ [(s.ep.att.txSeq, flitBody cs)] })
      exact ⟨o, a, h⟩

/-- A transaction that goes out changes only what has been sent and the attach link. -/
theorem State.sendTxn_only (s : State) (t : Txn) : ∃ o a, s.sendTxn t = { s with out := o, ep := { s.ep with att := a } } := by
  obtain ⟨o, a, h⟩ := State.sendChunks_only 18 (chunksOf t) (s.emit (.attach t))
  exact ⟨o, a, h⟩

/-- Waiting completions that go out change only what has been sent and the attach link. -/
theorem State.pumpCpl_only (n : Nat) (s : State) :
    ∃ o a, State.pumpCpl n s = { s with out := o, ep := { s.ep with att := a } } := by
  induction n generalizing s with
  | zero => exact ⟨s.out, s.ep.att, rfl⟩
  | succ n ih =>
    unfold State.pumpCpl
    split
    · exact ⟨s.out, s.ep.att, rfl⟩
    · split
      · exact ⟨s.out, s.ep.att, rfl⟩
      · next t rest _ _ =>
        obtain ⟨o, a, h⟩ := State.sendTxn_only (s.modAtt fun a => { a with cplQueue := rest }) t
        obtain ⟨o', a', h'⟩ := ih ((s.modAtt fun a => { a with cplQueue := rest }).sendTxn t)
        exact ⟨o', a', by rw [h', h]; rfl⟩

/-- The same after a change of the attach link. -/
theorem State.pumpCpl_modAtt_only (n : Nat) (f : Attach → Attach) (s : State) :
    ∃ o a, State.pumpCpl n (s.modAtt f) = { s with out := o, ep := { s.ep with att := a } } := by
  obtain ⟨o, a, h⟩ := State.pumpCpl_only n (s.modAtt f)
  exact ⟨o, a, h⟩

/-- A completion changes only what has been sent and the attach link. -/
theorem State.complete_only (s : State) (rid tag addr status len : Nat) (data : List Byte) :
    ∃ o a, s.complete rid tag addr status len data = { s with out := o, ep := { s.ep with att := a } } := by
  unfold State.complete
  dsimp only
  split
  · exact State.pumpCpl_modAtt_only _ _ s
  · exact ⟨s.out, s.ep.att, rfl⟩

/-- Waiting requests that go out change only what has been sent and the attach link. -/
theorem State.pump_only (n : Nat) (s : State) : ∃ o a, State.pump n s = { s with out := o, ep := { s.ep with att := a } } := by
  induction n generalizing s with
  | zero => exact ⟨s.out, s.ep.att, by rw [State.pump]⟩
  | succ n ih =>
    have next : ∀ (f : Attach → Attach) (t : Txn),
        ∃ o a, State.pump n ((s.modAtt f).sendTxn t) = { s with out := o, ep := { s.ep with att := a } } := by
      intro f t
      obtain ⟨o, a, h⟩ := State.sendTxn_only (s.modAtt f) t
      obtain ⟨o', a', h'⟩ := ih ((s.modAtt f).sendTxn t)
      exact ⟨o', a', by rw [h', h]; rfl⟩
    rw [State.pump]
    split
    · exact ⟨s.out, s.ep.att, rfl⟩
    · dsimp only
      split
      · exact ⟨s.out, s.ep.att, rfl⟩
      · split
        · exact next _ _
        · split
          · exact ⟨s.out, s.ep.att, rfl⟩
          · exact next _ _

/-- Requests of the Plocen change only what has been sent and the attach link. -/
theorem State.request_only (s : State) (l : List AttReq) :
    ∃ o a, s.request l = { s with out := o, ep := { s.ep with att := a } } := by
  unfold State.request
  split
  · exact ⟨s.out, s.ep.att, rfl⟩
  · obtain ⟨o, a, h⟩ := State.pump_only _ (s.modAtt fun a => { a with queue := a.queue ++ l })
    exact ⟨o, a, h⟩

end Sys2Proof.Machine
end

