-- ==== Sys2Proof/Laws/Errors.lean ====
section
/-! SUPPORT. What setting an error bit, sending a management message and writing a log entry can change (Machine/Flags.lean and
Machine/Send.lean), each said once. -/

namespace Sys2Proof.Machine

open Sys2Proof

/-! ### Error bits -/

/-- A bit of EP_ATT.ERR changes only what has been sent, the attach link and the Plocen's registers. -/
theorem State.epErr_only (s : State) (b : Nat) :
    ∃ o a x, s.epErr b = { s with out := o, ep := { s.ep with att := a, regs := x } } := by
  unfold State.epErr
  dsimp only
  split
  · exact ⟨s.out, s.ep.att, s.ep.regs, rfl⟩
  · split
    · obtain ⟨o, a, h⟩ := State.request_only (s.setFlag .plocen Reg.epAttErr b true) [intrReq 1025]
      exact ⟨o, a, _, h⟩
    · exact ⟨s.out, s.ep.att, _, rfl⟩

/-- A bit of EP_OPT.ERR changes no more than a bit of EP_ATT.ERR does. -/
theorem State.epOptError_only (s : State) (b : Nat) :
    ∃ o a x, s.epOptError b = { s with out := o, ep := { s.ep with att := a, regs := x } } := by
  obtain ⟨o, a, x, h⟩ := State.epErr_only (s.setFlag .plocen Reg.epOptErr b true) errOptics
  exact ⟨o, a, x, h⟩

/-- Vector 3 changes only what has been sent and the Ronpex's registers. -/
theorem State.errsumMsix_only (s before : State) :
    ∃ o x, s.errsumMsix before = { s with out := o, rp := { s.rp with regs := x } } := by
  unfold State.errsumMsix
  split
  · exact State.msix_only s 3
  · exact ⟨s.out, s.rp.regs, rfl⟩

/-- A bit of SEC.ERR changes only what has been sent, the management rings and the Ronpex's registers. -/
theorem State.secError_ronpex_only (s : State) (b port : Nat) :
    ∃ o m x, s.secError .ronpex b port = { s with out := o, rp := { s.rp with mgmt := m, regs := x } } := by
  obtain ⟨o, m, x, h⟩ := State.post_only (s.setFlag .ronpex Reg.secErr b true) (plainEvent s.now 0x40 (2 ^ b + 256 * port))
  obtain ⟨o', x', h'⟩ := State.errsumMsix_only ((s.setFlag .ronpex Reg.secErr b true).post (plainEvent s.now 0x40 (2 ^ b + 256 * port))) s
  exact ⟨o', m, x', h'.trans (by rw [h]; rfl)⟩

/-- A bit of EP_SEC.ERR changes only what has been sent, the attach link and the Plocen's registers. -/
theorem State.secError_plocen_only (s : State) (b port : Nat) :
    ∃ o a x, s.secError .plocen b port = { s with out := o, ep := { s.ep with att := a, regs := x } } := by
  obtain ⟨o, a, x, h⟩ := State.epErr_only (s.setFlag .plocen Reg.epSecErr b true) errSecurity
  exact ⟨o, a, x, h⟩

/-- A bit of FMH.ERR changes only what has been sent, the management rings, the records that wait and the Ronpex's registers. -/
theorem State.fmhError_only (s : State) (b offset scope : Nat) (ks : List Nat) :
    ∃ o m k x, s.fmhError b offset scope ks = { s with out := o, rp := { s.rp with mgmt := m, skeins := k, regs := x } } := by
  obtain ⟨o, m, k, x, h⟩ := State.postFor_only (s.setFlag .ronpex Reg.fmhErr b true)
    (plainEvent s.now 0x21 (2 ^ b + 2 ^ 32 * offset)) scope ks
  obtain ⟨o', x', h'⟩ := State.errsumMsix_only ((s.setFlag .ronpex Reg.fmhErr b true).postFor
    (plainEvent s.now 0x21 (2 ^ b + 2 ^ 32 * offset)) scope ks) s
  exact ⟨o', m, k, x', h'.trans (by rw [h]; rfl)⟩

/-! ### Management messages and the Plocen's log -/

/-- A container of one message put into a retransmit store changes that source, and nothing of the other part's registers. -/
theorem State.hold_only (s : State) (p : Part) (dest skein plane planes : Nat) (loc : HeldAt) (m : Msg) (own : Owner) :
    ∃ x, (s.hold p dest skein plane planes loc m own).1 = s.setSource p x := ⟨_, rfl⟩

/-- A management message of the Plocen changes its source of weft alone. -/
theorem State.epMgmt_only (s : State) (plane : Nat) (m : Mgmt) :
    ∃ x, s.epMgmt plane m = { s with ep := { s.ep with src := x } } := ⟨_, rfl⟩

/-- With no live plane a management message is not sent; otherwise it changes the source of weft alone. -/
theorem State.epMgmtLowest_only (s : State) (m : Mgmt) :
    ∃ x, s.epMgmtLowest m = { s with ep := { s.ep with src := x } } := by
  unfold State.epMgmtLowest
  split
  · exact ⟨s.ep.src, rfl⟩
  · exact State.epMgmt_only s _ m

/-- A log entry of the Plocen changes only its log, its source of weft and its registers. -/
theorem State.epLog_only (s : State) (b : LogBody) :
    ∃ l x r, s.epLog b = { s with ep := { s.ep with log := l, src := x, regs := r } } := by
  unfold State.epLog
  dsimp only
  split
  · exact ⟨_, s.ep.src, s.ep.regs, rfl⟩
  · split
    · obtain ⟨x, h⟩ := State.epMgmtLowest_only { s with ep := { s.ep with log := _ } } (.logCopy _)
      exact ⟨_, x, s.ep.regs, h⟩
    · exact ⟨_, s.ep.src, _, rfl⟩

/-- A log entry of either part leaves time, the free values, the queue, memory and what has been sent as they were. -/
theorem State.plog_frame (s : State) (p : Part) (b : LogBody) :
    ∃ r e, s.plog p b = { s with rp := r, ep := e } := by
  cases p
  · obtain ⟨l, x, h⟩ := State.rpLog_only s b
    exact ⟨_, s.ep, h⟩
  · obtain ⟨l, x, r, h⟩ := State.epLog_only s b
    exact ⟨s.rp, _, h⟩

/-- The log entry of a register write leaves all but the parts as it was. -/
theorem State.logWrite_frame (s : State) (p : Part) (a v : Nat) (w : Writer) :
    ∃ r e, s.logWrite p a v w = { s with rp := r, ep := e } := by
  unfold State.logWrite
  split
  · exact ⟨s.rp, s.ep, rfl⟩
  · exact State.plog_frame s p _

/-- A register write does one of three things: nothing, its log entry alone, or its log entry and then its effect. -/
theorem State.wrote_cases (s : State) (p : Part) (a v : Nat) (w : Writer) (f : State → State) :
    s.wrote p a v w f = s ∨ s.wrote p a v w f = s.logWrite p a v w ∨ s.wrote p a v w f = f (s.logWrite p a v w) := by
  unfold State.wrote
  dsimp only
  split
  · exact .inl rfl
  · split
    · exact .inr (.inl rfl)
    · exact .inr (.inr rfl)

/-- A write to the Plocen, once its attach link takes accesses, always has its effect, after its log entry. -/
theorem State.wrote_plocen (s : State) (a v : Nat) (w : Writer) (f : State → State) (h : s.attOn = true) :
    s.wrote .plocen a v w f = f (s.logWrite .plocen a v w) := by
  simp [State.wrote, h]

end Sys2Proof.Machine
end

