-- ==== Sys2Proof/Laws/Memory.lean ====
section
/-! SUPPORT. Fabric-resident memory (R247, R249): every operation over it keeps the canonical form, and what each does to a byte. -/

namespace Sys2Proof.Machine

open Sys2Proof

/-- What memory reads as where nothing is listed. -/
@[simp] theorem State.hbmByte_reset (a : Nat) : State.reset.hbmByte a = 0 := rfl

/-- Memory after reset is in canonical form. -/
theorem memWf_reset : State.reset.memWf = true := by decide

theorem memStore_wf (m : SMap Byte) (a : Nat) (d : List Byte) (h : SMap.wf (fun _ => (0 : Byte)) m = true) :
    SMap.wf (fun _ => (0 : Byte)) (memStore m a d) = true := by
  induction d generalizing m a with
  | nil => exact h
  | cons b r ih => exact ih _ _ (SMap.wf_put _ m a b h)

/-- A store leaves the bytes below its first address alone. -/
theorem memStore_below (m : SMap Byte) (a b : Nat) (d : List Byte) (h : b < a) :
    SMap.look (fun _ => (0 : Byte)) (memStore m a d) b = SMap.look (fun _ => 0) m b := by
  induction d generalizing m a with
  | nil => rfl
  | cons x r ih => rw [memStore, ih _ _ (by omega), SMap.look_put_other _ _ _ _ _ (by omega)]

/-- A store leaves the bytes from its end on alone. -/
theorem memStore_above (m : SMap Byte) (a b : Nat) (d : List Byte) (h : a + d.length ≤ b) :
    SMap.look (fun _ => (0 : Byte)) (memStore m a d) b = SMap.look (fun _ => 0) m b := by
  induction d generalizing m a with
  | nil => rfl
  | cons x r ih =>
    simp only [List.length_cons] at h
    rw [memStore, ih _ _ (by omega), SMap.look_put_other _ _ _ _ _ (by omega)]

/-- Each stored byte reads back. -/
theorem memStore_inside (m : SMap Byte) (a : Nat) (d : List Byte) (i : Nat) (h : i < d.length) :
    SMap.look (fun _ => (0 : Byte)) (memStore m a d) (a + i) = d[i] := by
  induction d generalizing m a i with
  | nil => simp at h
  | cons x r ih =>
    rw [memStore]
    cases i with
    | zero =>
      show SMap.look _ (memStore _ (a + 1) r) a = x
      rw [memStore_below _ (a + 1) a _ (by omega), SMap.look_put_same]
    | succ j =>
      rw [show a + (j + 1) = a + 1 + j by omega]
      exact ih _ _ j (by simpa using h)

/-- Storing bytes keeps memory in canonical form. -/
theorem State.memWf_hbmWrite (s : State) (a : Nat) (d : List Byte) (h : s.memWf = true) : (s.hbmWrite a d).memWf = true :=
  memStore_wf s.hbm a d h

/-- Zeroing bytes keeps memory in canonical form. -/
theorem State.memWf_hbmZero (s : State) (a n : Nat) (h : s.memWf = true) : (s.hbmZero a n).memWf = true :=
  SMap.wf_filter _ s.hbm _ h

/-- A filter on keys leaves a kept key as it was, and makes a dropped one read as an unlisted one. -/
theorem SMap.look_filter {α : Type} (d : Nat → α) (m : SMap α) (p : Nat → Bool) (k : Nat) :
    SMap.look d (m.filter fun e => p e.1) k = if p k then SMap.look d m k else d k := by
  induction m with
  | nil => simp
  | cons e r ih =>
    by_cases hk : e.1 = k
    · cases hp : p k <;> simp [SMap.look, hk, hp, ih]
    · cases hp : p e.1 <;> simp [SMap.look, hk, hp, ih]

/-! ### Memory as it is read, and written, under keys (R263) -/

/-- A line read before it is merged keeps memory in canonical form. -/
theorem State.memWf_settleLine (s : State) (line : Nat) (h : s.memWf = true) : (s.settleLine line).memWf = true := by
  unfold State.settleLine
  split
  · exact State.memWf_hbmWrite s _ _ h
  · exact h

/-- Lines read before they are merged keep memory in canonical form. -/
theorem State.memWf_settleLines (l : List Nat) (s : State) (h : s.memWf = true) :
    (l.foldl (fun t x => t.settleLine x) s).memWf = true := by
  induction l generalizing s with
  | nil => exact h
  | cons x r ih => exact ih _ (s.memWf_settleLine x h)

/-- A write, under keys or not, keeps memory in canonical form. -/
theorem State.memWf_memWrite (s : State) (a : Nat) (d : List Byte) (h : s.memWf = true) : (s.memWrite a d).memWf = true := by
  unfold State.memWrite
  dsimp only
  split
  · exact State.memWf_hbmWrite s a d h
  · exact State.memWf_hbmWrite _ a d (State.memWf_settleLines _ s h)

/-- Zeroing keeps memory in canonical form. -/
theorem State.memWf_memZero (s : State) (a n : Nat) (h : s.memWf = true) : (s.memZero a n).memWf = true :=
  State.memWf_hbmZero s a n h

/-- With no key installed and no line written under one, a byte reads as it is stored. -/
theorem State.memByte_plain (s : State) (a : Nat) (h : s.rp.fmem.cipher = []) : s.memByte a = s.hbmByte a := by
  simp [State.memByte, State.foreignKey, h, SMap.find?]

/-- The same for several bytes. -/
theorem State.memRead_plain (s : State) (a n : Nat) (h : s.rp.fmem.cipher = []) : s.memRead a n = s.hbmRead a n := by
  simp [State.memRead, State.hbmRead, State.memByte_plain s _ h]

/-- With no key installed and no line written under one, a write stores its bytes and heals the bursts that it covers, and that is all. -/
theorem State.memWrite_plain (s : State) (a : Nat) (d : List Byte) (hk : s.rp.sec.fkeys = []) (hc : s.rp.fmem.cipher = []) :
    s.memWrite a d = (s.hbmWrite a d).modFm fun m => { m with bad := m.bad.filter fun b => !(wholeBursts a d.length).contains b } := by
  simp [State.memWrite, hk, hc]

end Sys2Proof.Machine
end

