-- ==== Sys2Proof/Laws/Parts.lean ====
section
/-! SUPPORT. What an update of one unit of a part leaves alone: one lemma for each update and field of the state, and what the unit becomes. -/

namespace Sys2Proof.Machine

open Sys2Proof

/-! ### State.modFm -/

@[simp] theorem State.modFm_now (s : State) (f : Fmem → Fmem) : (s.modFm f).now = s.now := rfl
@[simp] theorem State.modFm_free (s : State) (f : Fmem → Fmem) : (s.modFm f).free = s.free := rfl
@[simp] theorem State.modFm_pending (s : State) (f : Fmem → Fmem) : (s.modFm f).pending = s.pending := rfl
@[simp] theorem State.modFm_out (s : State) (f : Fmem → Fmem) : (s.modFm f).out = s.out := rfl
@[simp] theorem State.modFm_hbm (s : State) (f : Fmem → Fmem) : (s.modFm f).hbm = s.hbm := rfl
@[simp] theorem State.modFm_ep (s : State) (f : Fmem → Fmem) : (s.modFm f).ep = s.ep := rfl
@[simp] theorem State.modFm_rp_fmem (s : State) (f : Fmem → Fmem) : (s.modFm f).rp.fmem = f s.rp.fmem := rfl
@[simp] theorem State.modFm_rp_regs (s : State) (f : Fmem → Fmem) : (s.modFm f).rp.regs = s.rp.regs := rfl

/-! ### State.modWarp -/

@[simp] theorem State.modWarp_now (s : State) (f : Warp → Warp) : (s.modWarp f).now = s.now := rfl
@[simp] theorem State.modWarp_free (s : State) (f : Warp → Warp) : (s.modWarp f).free = s.free := rfl
@[simp] theorem State.modWarp_pending (s : State) (f : Warp → Warp) : (s.modWarp f).pending = s.pending := rfl
@[simp] theorem State.modWarp_out (s : State) (f : Warp → Warp) : (s.modWarp f).out = s.out := rfl
@[simp] theorem State.modWarp_hbm (s : State) (f : Warp → Warp) : (s.modWarp f).hbm = s.hbm := rfl
@[simp] theorem State.modWarp_ep (s : State) (f : Warp → Warp) : (s.modWarp f).ep = s.ep := rfl
@[simp] theorem State.modWarp_rp_warp (s : State) (f : Warp → Warp) : (s.modWarp f).rp.warp = f s.rp.warp := rfl
@[simp] theorem State.modWarp_rp_regs (s : State) (f : Warp → Warp) : (s.modWarp f).rp.regs = s.rp.regs := rfl

/-! ### State.modSk -/

@[simp] theorem State.modSk_now (s : State) (f : Skeins → Skeins) : (s.modSk f).now = s.now := rfl
@[simp] theorem State.modSk_free (s : State) (f : Skeins → Skeins) : (s.modSk f).free = s.free := rfl
@[simp] theorem State.modSk_pending (s : State) (f : Skeins → Skeins) : (s.modSk f).pending = s.pending := rfl
@[simp] theorem State.modSk_out (s : State) (f : Skeins → Skeins) : (s.modSk f).out = s.out := rfl
@[simp] theorem State.modSk_hbm (s : State) (f : Skeins → Skeins) : (s.modSk f).hbm = s.hbm := rfl
@[simp] theorem State.modSk_ep (s : State) (f : Skeins → Skeins) : (s.modSk f).ep = s.ep := rfl
@[simp] theorem State.modSk_rp_skeins (s : State) (f : Skeins → Skeins) : (s.modSk f).rp.skeins = f s.rp.skeins := rfl
@[simp] theorem State.modSk_rp_regs (s : State) (f : Skeins → Skeins) : (s.modSk f).rp.regs = s.rp.regs := rfl

/-! ### State.modPower -/

@[simp] theorem State.modPower_now (s : State) (f : Power → Power) : (s.modPower f).now = s.now := rfl
@[simp] theorem State.modPower_free (s : State) (f : Power → Power) : (s.modPower f).free = s.free := rfl
@[simp] theorem State.modPower_pending (s : State) (f : Power → Power) : (s.modPower f).pending = s.pending := rfl
@[simp] theorem State.modPower_out (s : State) (f : Power → Power) : (s.modPower f).out = s.out := rfl
@[simp] theorem State.modPower_hbm (s : State) (f : Power → Power) : (s.modPower f).hbm = s.hbm := rfl
@[simp] theorem State.modPower_ep (s : State) (f : Power → Power) : (s.modPower f).ep = s.ep := rfl
@[simp] theorem State.modPower_rp_power (s : State) (f : Power → Power) : (s.modPower f).rp.power = f s.rp.power := rfl
@[simp] theorem State.modPower_rp_regs (s : State) (f : Power → Power) : (s.modPower f).rp.regs = s.rp.regs := rfl

/-! ### State.modLas -/

@[simp] theorem State.modLas_now (s : State) (f : Lasers → Lasers) : (s.modLas f).now = s.now := rfl
@[simp] theorem State.modLas_free (s : State) (f : Lasers → Lasers) : (s.modLas f).free = s.free := rfl
@[simp] theorem State.modLas_pending (s : State) (f : Lasers → Lasers) : (s.modLas f).pending = s.pending := rfl
@[simp] theorem State.modLas_out (s : State) (f : Lasers → Lasers) : (s.modLas f).out = s.out := rfl
@[simp] theorem State.modLas_hbm (s : State) (f : Lasers → Lasers) : (s.modLas f).hbm = s.hbm := rfl
@[simp] theorem State.modLas_ep (s : State) (f : Lasers → Lasers) : (s.modLas f).ep = s.ep := rfl
@[simp] theorem State.modLas_rp_lasers (s : State) (f : Lasers → Lasers) : (s.modLas f).rp.lasers = f s.rp.lasers := rfl
@[simp] theorem State.modLas_rp_regs (s : State) (f : Lasers → Lasers) : (s.modLas f).rp.regs = s.rp.regs := rfl

/-! ### State.modMgmt -/

@[simp] theorem State.modMgmt_now (s : State) (f : MgmtRings → MgmtRings) : (s.modMgmt f).now = s.now := rfl
@[simp] theorem State.modMgmt_free (s : State) (f : MgmtRings → MgmtRings) : (s.modMgmt f).free = s.free := rfl
@[simp] theorem State.modMgmt_pending (s : State) (f : MgmtRings → MgmtRings) : (s.modMgmt f).pending = s.pending := rfl
@[simp] theorem State.modMgmt_out (s : State) (f : MgmtRings → MgmtRings) : (s.modMgmt f).out = s.out := rfl
@[simp] theorem State.modMgmt_hbm (s : State) (f : MgmtRings → MgmtRings) : (s.modMgmt f).hbm = s.hbm := rfl
@[simp] theorem State.modMgmt_ep (s : State) (f : MgmtRings → MgmtRings) : (s.modMgmt f).ep = s.ep := rfl
@[simp] theorem State.modMgmt_rp_mgmt (s : State) (f : MgmtRings → MgmtRings) : (s.modMgmt f).rp.mgmt = f s.rp.mgmt := rfl
@[simp] theorem State.modMgmt_rp_regs (s : State) (f : MgmtRings → MgmtRings) : (s.modMgmt f).rp.regs = s.rp.regs := rfl

/-! ### State.modTray -/

@[simp] theorem State.modTray_now (s : State) (f : Tray → Tray) : (s.modTray f).now = s.now := rfl
@[simp] theorem State.modTray_free (s : State) (f : Tray → Tray) : (s.modTray f).free = s.free := rfl
@[simp] theorem State.modTray_pending (s : State) (f : Tray → Tray) : (s.modTray f).pending = s.pending := rfl
@[simp] theorem State.modTray_out (s : State) (f : Tray → Tray) : (s.modTray f).out = s.out := rfl
@[simp] theorem State.modTray_hbm (s : State) (f : Tray → Tray) : (s.modTray f).hbm = s.hbm := rfl
@[simp] theorem State.modTray_ep (s : State) (f : Tray → Tray) : (s.modTray f).ep = s.ep := rfl
@[simp] theorem State.modTray_rp_tray (s : State) (f : Tray → Tray) : (s.modTray f).rp.tray = f s.rp.tray := rfl
@[simp] theorem State.modTray_rp_regs (s : State) (f : Tray → Tray) : (s.modTray f).rp.regs = s.rp.regs := rfl

/-! ### State.modXlt -/

@[simp] theorem State.modXlt_now (s : State) (f : Xlt → Xlt) : (s.modXlt f).now = s.now := rfl
@[simp] theorem State.modXlt_free (s : State) (f : Xlt → Xlt) : (s.modXlt f).free = s.free := rfl
@[simp] theorem State.modXlt_pending (s : State) (f : Xlt → Xlt) : (s.modXlt f).pending = s.pending := rfl
@[simp] theorem State.modXlt_out (s : State) (f : Xlt → Xlt) : (s.modXlt f).out = s.out := rfl
@[simp] theorem State.modXlt_hbm (s : State) (f : Xlt → Xlt) : (s.modXlt f).hbm = s.hbm := rfl
@[simp] theorem State.modXlt_rp (s : State) (f : Xlt → Xlt) : (s.modXlt f).rp = s.rp := rfl
@[simp] theorem State.modXlt_ep_xlt (s : State) (f : Xlt → Xlt) : (s.modXlt f).ep.xlt = f s.ep.xlt := rfl
@[simp] theorem State.modXlt_ep_regs (s : State) (f : Xlt → Xlt) : (s.modXlt f).ep.regs = s.ep.regs := rfl

/-! ### State.modDest -/

@[simp] theorem State.modDest_now (s : State) (f : Dest → Dest) : (s.modDest f).now = s.now := rfl
@[simp] theorem State.modDest_free (s : State) (f : Dest → Dest) : (s.modDest f).free = s.free := rfl
@[simp] theorem State.modDest_pending (s : State) (f : Dest → Dest) : (s.modDest f).pending = s.pending := rfl
@[simp] theorem State.modDest_out (s : State) (f : Dest → Dest) : (s.modDest f).out = s.out := rfl
@[simp] theorem State.modDest_hbm (s : State) (f : Dest → Dest) : (s.modDest f).hbm = s.hbm := rfl
@[simp] theorem State.modDest_rp (s : State) (f : Dest → Dest) : (s.modDest f).rp = s.rp := rfl
@[simp] theorem State.modDest_ep_dest (s : State) (f : Dest → Dest) : (s.modDest f).ep.dest = f s.ep.dest := rfl
@[simp] theorem State.modDest_ep_regs (s : State) (f : Dest → Dest) : (s.modDest f).ep.regs = s.ep.regs := rfl

/-! ### State.modEw -/

@[simp] theorem State.modEw_now (s : State) (f : EpWarp → EpWarp) : (s.modEw f).now = s.now := rfl
@[simp] theorem State.modEw_free (s : State) (f : EpWarp → EpWarp) : (s.modEw f).free = s.free := rfl
@[simp] theorem State.modEw_pending (s : State) (f : EpWarp → EpWarp) : (s.modEw f).pending = s.pending := rfl
@[simp] theorem State.modEw_out (s : State) (f : EpWarp → EpWarp) : (s.modEw f).out = s.out := rfl
@[simp] theorem State.modEw_hbm (s : State) (f : EpWarp → EpWarp) : (s.modEw f).hbm = s.hbm := rfl
@[simp] theorem State.modEw_rp (s : State) (f : EpWarp → EpWarp) : (s.modEw f).rp = s.rp := rfl
@[simp] theorem State.modEw_ep_warp (s : State) (f : EpWarp → EpWarp) : (s.modEw f).ep.warp = f s.ep.warp := rfl
@[simp] theorem State.modEw_ep_regs (s : State) (f : EpWarp → EpWarp) : (s.modEw f).ep.regs = s.ep.regs := rfl

end Sys2Proof.Machine
end

