-- ==== Sys2Proof/Tests/Slice0.lean ====
section
/-! SUPPORT. Own tests of the model: the well-formedness checks refuse what they should, values that the spec writes out, and for
every statement that has hypotheses a state and operands that meet them. -/

open Sys2Proof Sys2Proof.Machine Sys2Proof.Claims

/-- A small state: the reset state at a time, with registers of the Ronpex and the Plocen listed. -/
def Sys2Proof.Tests.at_ (now : Nat) (rp ep : SMap Word) : State :=
  { State.reset with now := now, rp := { State.reset.rp with regs := rp }, ep := { State.reset.ep with regs := ep } }
/-- `s` with an attach link. -/
def Sys2Proof.Tests.att (s : State) (a : Attach) : State := { s with ep := { s.ep with att := a } }
/-- An attach link that carries traffic. -/
def Sys2Proof.Tests.live : Attach := { exchanged := true, modules := 8, active := true, initSeen := true, ackSeen := true, rids := 4, p2aLimit := 64 }
/-- A transaction of requester 1 under tag 2. -/
def Sys2Proof.Tests.txn (opc len addr : Nat) : Txn :=
  { opc := opc, tag := 2, rid := 1, len := len, relax := false, space := false, status := 0, addr := addr, aux := 0, data := List.replicate len 5 }
/-- A flit of kind 1, whose CRC checks or does not. -/
def Sys2Proof.Tests.flit (seq : Nat) (ok : Bool) : Flit :=
  let f : Flit := { kind := 1, seq := seq, ack := 0, body := List.replicate 15 0, reqCrd := 0, cplCrd := 0, crc := 0 }
  if ok then sealedFlit f else f
/-- What a control flit holds beside its subtype and parameters, so that its CRC checks. -/
def Sys2Proof.Tests.ctlHead (sub : Nat) (l : List Byte) : FlitHead :=
  { seq := 0, ack := 3, reqCrd := 0, cplCrd := 0, crc := flitCrc (controlFlit { seq := 0, ack := 3, reqCrd := 0, cplCrd := 0, crc := 0 } sub l) }
open Sys2Proof.Tests
/-- A container of one WRITE of 8 bytes from node 7 to node 5. -/
def Sys2Proof.Tests.cont : Container :=
  { kind := 1, reply := false, refl := false, ord := false, sync := true, dest := 5, src := 7, skein := 2, epoch := 0, stream := 0
    seq := 4, hank := 0, age := 0, hops := 3, defl := 0, opc := 1, len := 8, offset := 64, ttag := 0, win := 0, nmsg := 1, crc := 0
    payload := [1, 2, 3, 4, 5, 6, 7, 8] }
/-- Its message. -/
def Sys2Proof.Tests.msgW : Msg :=
  { opc := 1, len := 8, reply := false, ord := false, hank := 0, seq := 4, offset := 64, ttag := 0, data := [1, 2, 3, 4, 5, 6, 7, 8] }
/-- The message as its source keeps it. -/
def Sys2Proof.Tests.sent (o : Owner) : SentMsg :=
  { msg := msgW, owner := o, land := 0, hank := 0, wants := 0, decrypt := false, page := 0, owes := true, answered := false }
/-- A container of a source, as it is kept. -/
def Sys2Proof.Tests.held (loc : HeldAt) (o : Owner) : Held :=
  { id := 3, c := { cont with dest := 9 }, msgs := [sent o], planes := 1, plane := 0, direct := false, small := false, xtags := [], room := true, loc := loc
    formedAt := 5, first := some 100, due := 200, tmo := 0, refls := 1, retryUs := 60, maxTmo := 8, lifeUs := 100000, reserve := 0, shuttle := none, numbered := true }
/-- A sealed container carries its CRC. -/
theorem Sys2Proof.Tests.sealed_crc (c : Container) : (sealed c).crc = containerCrc (sealed c) := rfl
/-- A sealed warp cell carries its CRC. -/
theorem Sys2Proof.Tests.sealedCell_crc (c : WarpCell) : (sealedCell c).crc = cellCrc (sealedCell c) := rfl
/-- The CRC of a control flit with such a head checks. -/
theorem Sys2Proof.Tests.ctlHead_good (sub : Nat) (l : List Byte) : flitGood (controlFlit (ctlHead sub l) sub l) = true := by
  unfold flitGood ctlHead controlFlit flitCrc
  exact beq_iff_eq.mpr rfl
section
set_option Elab.async false

namespace Sys2Proof.Tests

/-! ### Well-formedness: one ill-formed command for each check -/

def badC : Container := { cont with kind := 8 }
def cellW : WarpCell :=
  { dir := false, ctrl := 0, node := 7, skein := 2, epoch := 0, phase := 9, draft := 0, inst := 4, round := 2, cell := 0, slice := 0
    status := 0, count := 1, opdata := 0, crc := 0, payload := [1] }
def orderW : SwitchOrder :=
  { kind := 2, cls := 0, plane := 0, unitType := 0, unit := 0, gen := 0, skeins := 4, faultFrame := 16, effective := 19, pairs := [] }
def reportW : Report := { type := 3, plane := 1, target := 7, epoch := 5, suppressed := 2, time := 9 }
def commandW : Command := { op := 0, tag := 9, addr := 0, len := 0, p0 := 0, p1 := 0, args := List.replicate 32 0 }
def frameW : TrayFrame := { ftype := 2, hops := 7, src := 0, dst := 255, fseq := 1, mgmt := none, body := [1], crc := 0 }
def initW : InitParams := { version := 1, modules := 8, p2aReq := 64, p2aCpl := 0, rids := 1 }

theorem test_wf_accepts :
    (Instr.containerIngress 3 cont).wf ∧ (Instr.warpCellIngress 3 cellW).wf ∧ (Instr.directLoad (txn 0x10 8 64)).wf
      ∧ (Instr.dataFlit (flit 3 true)).wf ∧ (Instr.report { port := 3, node := 5, tray := false } reportW).wf
      ∧ (Instr.nop commandW).wf ∧ (Instr.trayFrame 0 frameW).wf ∧ (Instr.portMode .plocen 7 1 { origin := 8, requester := 3 }).wf := by
  decide +kernel
theorem test_wf_container : (Instr.containerIngress 3 badC).wf = false := by decide +kernel
theorem test_wf_cell : (Instr.warpCellLanding 3 { cellW with count := 2 ^ 14 }).wf = false := by decide +kernel
theorem test_wf_txn : (Instr.directLoad (txn 0x10 0 64)).wf = false := by decide +kernel
theorem test_wf_flit : (Instr.dataFlit { flit 3 true with body := [] }).wf = false := by decide +kernel
theorem test_wf_order : (Instr.switchOrder .ronpex { port := 3, node := 5, tray := false } { orderW with plane := 8 }).wf = false := by
  decide +kernel
theorem test_wf_report : (Instr.report { port := 3, node := 5, tray := false } { reportW with target := 2 ^ 15 }).wf = false := by
  decide +kernel
theorem test_wf_command : (Instr.nop { commandW with args := [] }).wf = false := by decide +kernel
theorem test_wf_tray : (Instr.token 0 { frameW with ftype := 5 }).wf = false := by decide +kernel
theorem test_wf_port : (Instr.portMode .plocen 8 1 { origin := 8, requester := 3 }).wf = false := by decide +kernel
theorem test_wf_write : (Instr.registerWrite .ronpex (2 ^ 32) 4 0 { origin := 0, requester := 3 }).wf = false := by decide +kernel
theorem test_wf_writer : (Instr.registerWrite .ronpex 4 4 0 { origin := 9, requester := 3 }).wf = false := by decide +kernel
theorem test_wf_readings : (Instr.frameBoundary [] (List.replicate 32 0)).wf = false := by decide +kernel
theorem test_wf_init : (Instr.init ⟨{ initW with rids := 1025 }, ctlHead 1 []⟩).wf = false := by decide +kernel
theorem test_wf_tag : (Instr.accTimeout 4096).wf = false ∧ (Instr.timeout 1024 0).wf = false := by decide +kernel

/-! ### Values that the spec writes out -/

/-- 00_scope: port 137 is on die 2, in region 3; its cluster's spindles are 68 and 69, and its engine is 11. -/
theorem test_port_137 :
    portDie 137 = 2 ∧ portRegion 137 = 3 ∧ clusterSpindles (portCluster 137) = [68, 69] ∧ portEngine 137 = 11 := by decide +kernel

/-- 16_register_reference: addresses that the chapter decodes. -/
theorem test_addresses :
    decode412 0x2A90004 = some (.spindle, 41, 4) ∧ clusterBase (portCluster 137) = 0x3D00000
      ∧ decode412 0x3D40000 = some (.eddy, 34, 0) ∧ decode412 0x3D50040 = some (.sealMap, 137, 0)
      ∧ (decode412 0x3F00000).map (·.1) = some .draft ∧ portSetBase 137 + 0x24 = 0x5B01524
      ∧ Reg.epRngCfg 12 = 0x100310 := by decide +kernel

/-- 08_spindle_arithmetic, one element: the four members' integers and their sum, and the results of both rounding modes. -/
theorem test_one_element :
    truncate true 3 32 (bf16.decode 0x4040) = .q 1610612736 ∧ truncate true 3 32 (bf16.decode 0xBFA0) = .q (-671088640)
      ∧ truncate true 3 32 (bf16.decode 0x3B80) = .q 2097152 ∧ truncate true 3 32 (bf16.decode 0x30C0) = .q 0
      ∧ anchorCode [bf16.decode 0x4040] = 0x80 ∧ anchorCode [bf16.decode 0xBFA0] = 0x7F ∧ anchorCode [bf16.decode 0x30C0] = 0x61
      ∧ bf16.encode false none ((Quot.q 941621248).val 3 32) = 0x3FE0
      ∧ bf16.encode false (some 0x7FFFFFFF) ((Quot.q 941621248).val 3 32) = 0x3FE1
      ∧ bf16.encode false (some 0x80000000) ((Quot.q 941621248).val 3 32) = 0x3FE0 := by decide +kernel

/-- 08_spindle_arithmetic, two switches and three: Class F in the two arrangements, and the exact sum. -/
theorem test_two_and_three :
    fp32.addCodes (fp32.addCodes (fp32.addCodes (fp32.addCodes 0x4B800000 0x3F800000) 0x3F800000) 0xCB800000)
        (fp32.addCodes 0x3F800000 0x3F000000) = 0x3FC00000
      ∧ fp32.addCodes (fp32.addCodes (fp32.addCodes (fp32.addCodes (fp32.addCodes 0x4B800000 0xCB800000) 0x3F800000) 0x3F800000)
          0x3F800000) 0x3F000000 = 0x40600000
      ∧ anchorCode [fp32.decode 0x4B800000] = 0x97 ∧ truncate true 26 32 (fp32.decode 0x4B800000) = .q 1073741824
      ∧ truncate true 26 32 (fp32.decode 0x3F000000) = .q 32
      ∧ fp32.encode false none ((Quot.q 224).val 26 32) = 0x40600000 := by decide +kernel

/-- 09_fabric_resident_memory: offset 0x0010_0000_0000 is in stack 1, channel 0, which is channel 32. -/
theorem test_channel : chanOf 0x001000000000 = 32 := by decide +kernel

/-- 09_fabric_resident_memory: the terms of an anchored add with A = 3 and W = 64. -/
theorem test_anchored_add :
    anchoredTerm 3 64 0x01 0x4040 = some 6917529027641081856 ∧ anchoredTerm 3 64 0x01 0xBFA0 = some (2 ^ 128 - 2882303761517117440)
      ∧ anchoredTerm 3 64 0x01 0x3B80 = some 9007199254740992
      ∧ (6917529027641081856 + (2 ^ 128 - 2882303761517117440) + 9007199254740992) % 2 ^ 128 = 4044232465378705408
      ∧ bf16.encode false none ((Quot.q 4044232465378705408).val 3 64) = 0x3FE0 := by decide +kernel

/-- 03_attach_protocol, one container lands: the three writes of a 768-byte landing. -/
theorem test_landing_pieces :
    pieces 0x0020010000100 768 = [(0x0020010000100, 0, 256), (0x0020010000200, 256, 256), (0x0020010000300, 512, 256)] := by
  decide +kernel

/-- A Ronpex that accepts register writes. -/
def skeinFive : State :=
  let s := at_ 0x0000012345678000 [(Reg.sknCtl 5, 1), (Reg.sknStat, 0), (Reg.logLost, 0)] []
  { s with rp := { s.rp with power := { s.rp.power with supplyLost := false } } }

/-- 15_management: bytes 0-27 of the log entry of 0x0000_0205 written to SKN.CMD by requester 0x0300. -/
theorem test_log_entry :
    (match exec (.activate 5 { origin := 0, requester := 0x300 }) skeinFive with
      | .next t => (t.rp.log.ents.getLast?).map fun e => logBytes e.body
      | _ => none) = some [0x00, 0x80, 0x67, 0x45, 0x23, 0x01, 0x00, 0x00, 0x00, 0x00, 0x00, 0x03, 0xFF, 0x00, 0x00, 0x00,
        0x00, 0x00, 0x70, 0x00, 0, 0, 0, 0, 0x05, 0x02, 0x00, 0x00] := by decide +kernel

/-- R387: a SKEIN command of TAG 0x1234 as its 64-byte entry: OP, three reserved bytes, TAG, P0 and the data argument are where the
table has them, and the entry reads back. -/
theorem test_command_entry :
    (commandBytes { commandW with op := 2, tag := 0x1234, p0 := 0x105, p1 := 7 }).take 8 = [2, 0, 0, 0, 0x34, 0x12, 0, 0]
      ∧ (commandBytes commandW).length = 64
      ∧ commandOf (commandBytes { commandW with op := 2, tag := 0x1234, p0 := 0x105, p1 := 7 })
          = { commandW with op := 2, tag := 0x1234, p0 := 0x105, p1 := 7 } := by decide +kernel

/-- Ring 12 of 04_plocen_shuttles_and_rings, with SIZE 64 and its counts at 60. -/
def ringTwelve : State :=
  let s := at_ 30000 [] [(Reg.epRngCfg 12, 0x1000000), (Reg.epRngSqBaseLo 12, 0x10000), (Reg.epAttErr, 0)]
  let r := s.ring 12
  { att s live with ep := { (att s live).ep with
      rings := [(12, { r with active := true, sqTail := 60, sqHead := 60, cqTail := 60, cqHead := 60, issued := 60 })] } }

/-- 04_plocen_shuttles_and_rings: 66 stored to SQ_DB of ring 12 fetches 256 bytes at SQ_BASE + 0xF00 and 128 bytes at SQ_BASE. -/
theorem test_ring_fetch :
    (match exec (.sqDb 12 66) ringTwelve with
      | .next t => t.out.filterMap fun o => match o with | Out.attach x => some (x.opc, x.addr, x.len) | _ => none
      | _ => []) = [(1, 0x10000, 128), (1, 0x10F00, 256)] := by decide +kernel

/-- R270: 00 is level 0, 01 level 1, 11 level 2 and 10 level 3; UI 0 carries bits 1 and 0. -/
theorem test_pam4 : [0, 1, 3, 2].map pam4 = [0, 1, 2, 3] ∧ symbolLevels 0b1011010010 = [3, 0, 1, 2, 3] := by decide +kernel

/-- R271: container bit 80 is bit 0 of symbol 8, the second symbol of lane 0. -/
theorem test_lane_symbols : (laneSymbols 0 (List.replicate 10 0 ++ [1])).take 3 = [0, 1, 0] := by decide +kernel

/-- A word of one data symbol, and the same with errors at four places, and at five. -/
def codeword : List Nat := rsEncode (List.replicate 127 0 ++ [5])
def four : List Nat := (((codeword.set 0 1).set 40 2).set 100 1023).set 135 77

/-- R272, R273: the parity of the lowest data symbol alone is the generator scaled, and four symbol errors are corrected. -/
theorem test_rs_code : codeword.drop 128 = (rsGenerator.take 8).reverse.map (gfMul 5) ∧ rsDecode codeword = some (codeword, 0) := by
  decide +kernel
theorem test_rs_corrects : rsDecode four = some (codeword, 4) := by decide +kernel

/-- R267: bit 1 is sent high then low, bit 0 low then high. -/
theorem test_manchester : (manchester [1]).take 4 = [true, false, false, true] := by decide +kernel

/-- R273: the slots that each codeword of a group touches. -/
theorem test_codeword_slots : (List.range 5).map codewordSlots = [[0, 1], [1, 2, 3], [3, 4], [4, 5, 6], [6, 7]] := by decide +kernel

/-- R436: the TAP holds IDCODE after Test-Logic-Reset, and the Ronpex shifts 0x1019_29EB out. -/
theorem test_tap : tapInstr State.reset.rp.tap.ir = tapInstr 0x02 ∧ idcodeOf .ronpex = 0x101929EB := by decide +kernel

/-! ### Hypotheses of the statements about the whole block -/

/-- A state that is not the reset state: a byte of memory is listed and two commands wait. -/
def busyBlock : State :=
  { State.reset with hbm := [(64, 7)], pending := [.hoursTick, .portMode .plocen 7 1 { origin := 8, requester := 3 }] }
theorem test_witness_StepKeepsInvariant : Claims.Inv busyBlock := by unfold Claims.Inv; decide +kernel
theorem test_witness_AttachIsolation : attachSide (.sqDb 5 6) = true ∧ attachSide .epReset = true := by decide +kernel
theorem test_witness_HankCounters : (65535 : Nat) ≠ 0 := by decide
theorem test_witness_ReadAfterWrite : 31 + 1 ≤ 32 ∧ busyBlock.memWf = true := by decide +kernel

end Sys2Proof.Tests

namespace Sys2Proof.Tests.W03

def bringUp : State := att (at_ 5000 [] [(Reg.epAttCtl, 1)]) { trained := (List.range 8).map fun k => (k, 32) }
def bringUp4 : State := att (at_ 5000 [] [(Reg.epAttCtl, 1)]) { trained := [(0, 32), (1, 32), (2, 32), (3, 32)] }
def parms : InitParams := { version := 1, modules := 8, p2aReq := 64, p2aCpl := 0, rids := 4 }
def exchd : State := att (at_ 5000 [] [(Reg.epAttErr, 0)]) { exchanged := true, modules := 8, initAt := 1000 }
def ws1 : State := att exchd { exchd.ep.att with ackSeen := true }
def attLive : State := att (at_ 30000000 [] [(Reg.epAttCtl, 3), (Reg.epAttErr, 0), (Reg.epAttErrcnt, 5), (Reg.epAttTmo, 0x00640064)])
  { live with rxSeq := 9, txHeld := [(3, [1]), (4, [2])], nakRun := 8, nakSeq := 4 }
def attRetrain : State := att attLive { live with retrainAt := some 100, trained := (List.range 7).map fun k => (k, 32), nakRun := 3, txHeld := [(3, [1])] }
def attRetrain2 : State := att attRetrain { attRetrain.ep.att with tags := [(2, { use := .fillFetch 0 1, isRead := false, addr := 64, len := 16, got := 0, data := [], sentAt := 7, dead := false, void := true })] }
def attSeg : State := att (at_ 30000000 [] [(Reg.epAttErr, 0), (Reg.epAttFwsegCtl 0, 1), (Reg.epAttFwsegCtl 1, 0)]) live
def attSt : State := { attSeg with ep := { attSeg.ep with stores := [{ id := 6, rid := 1 }] } }
def wTag : AttTag := { use := .fillFetch 0 1, isRead := false, addr := 64, len := 16, got := 0, data := List.replicate 16 0, sentAt := 7, dead := false, void := false }
def attTag (y : AttTag) : State := att (at_ 30000000 [] [(Reg.epAttErr, 0), (Reg.epAttTmo, 0x00640064)]) { live with tags := [(2, y)] }
def ws2 : State := attTag { wTag with isRead := true }
def ws3 : State := attTag { wTag with use := .ringFetch 3 0 1 }
def attLoad : State := { attTag wTag with ep := { (attTag wTag).ep with loads := [{ id := 8, rid := 1, tag := 2, addr := 64, len := 8, at_ := 3, inMiss := false }] } }
def attBuf : State := att (attTag wTag) { (attTag wTag).ep.att with a2pBuf := [(txn 0x11 8 64, 5)] }

/-- Every clause of `Obligations.AttachBringUp` that has hypotheses has them all met. -/
theorem test_witness_AttachBringUp :
    ((bringUp.ep.att.down = false)
      ∧ (bringUp.ep.att.exchanged = false)
      ∧ (bringUp.ep.att.retrainAt = none)
      ∧ (32 = 32 ∨ 32 = 24 ∨ 32 = 16)) ∧
    ((bringUp.ep.att.down = false)
      ∧ (bringUp.ep.att.exchanged = false)
      ∧ (bringUp.ep.att.retrainAt = none)
      ∧ (20 ≠ 32)
      ∧ (20 ≠ 24)
      ∧ (20 ≠ 16)) ∧
    ((bringUp.ep.att.down = false)
      ∧ (bringUp.ep.att.exchanged = false)
      ∧ (false = false ∧ bringUp.ep.att.trainedTo 8 = true)) ∧
    ((bringUp4.ep.att.down = false)
      ∧ (bringUp4.ep.att.exchanged = false)
      ∧ (bringUp4.ep.att.trainedTo 4 = true ∧ (false = true ∨ bringUp4.ep.att.trainedTo 8 = false ∧ bringUp4.flag Part.plocen Reg.epAttCtl 0 = true))
      ∧ (∀ (p : ℕ), 4 ≤ p → p < 8 → bringUp4.portState Part.plocen p = 0)) ∧
    ((exchd.ep.att.down = false)
      ∧ (exchd.flitsRun = true)
      ∧ (flitGood (controlFlit (ctlHead ctlInit (initBytes parms)) ctlInit (initBytes parms)) = true)) ∧
    ((exchd.ep.att.down = false)
      ∧ (exchd.flitsRun = true)
      ∧ (flitGood (controlFlit (ctlHead ctlInitAck []) ctlInitAck []) = true)) ∧
    ((exchd.ep.att.down = false)
      ∧ (exchd.ep.att.exchanged = true)
      ∧ (exchd.ep.att.initSeen = false)
      ∧ (exchd.ep.att.initAt + 1000 ≤ exchd.now)) := by
  and_intros <;> first | with_reducible exact ctlHead_good _ _ | decide +kernel

/-- Every clause of `Obligations.AttachFlits` that has hypotheses has them all met. -/
theorem test_witness_AttachFlits :
    ((attLive.attRx = true)
      ∧ (attLive.flitsRun = true)
      ∧ (flitGood (flit 9 false) = false)) ∧
    ((attLive.attRx = true)
      ∧ (flitGood (flit 8 true) = true)
      ∧ ((flit 8 true).kind = 1)
      ∧ ((flit 8 true).seq ≠ attLive.ep.att.rxSeq)) ∧
    ((attLive.attRx = true)
      ∧ (flitGood (flit 9 true) = true)
      ∧ ((flit 9 true).kind = 1)
      ∧ ((flit 9 true).seq = attLive.ep.att.rxSeq)) ∧
    ((attLive.attRx = true)
      ∧ (flitGood (sealedFlit ({ flit 9 true with kind := 0, ack := 3 })) = true)
      ∧ ((sealedFlit ({ flit 9 true with kind := 0, ack := 3 })).kind = 0)) ∧
    ((attLive.flitsRun = true)
      ∧ (flitGood (controlFlit (ctlHead ctlNak (leBytes 2 4)) ctlNak (leBytes 2 4)) = true)) ∧
    ((attLive.attRx = true)
      ∧ (8 ≤ attLive.ep.att.nakRun ∨ 8 ≤ attLive.ep.att.nakSent)) ∧
    ((attRetrain.ep.att.retrainAt = some 100)
      ∧ (100 + 10000000 ≤ attRetrain.now)
      ∧ ((List.all attRetrain.ep.att.tags fun e => e.2.void) = true)
      ∧ (attRetrain.ep.att.queue = [])
      ∧ (attRetrain.ep.dest.lineWait = [])) ∧
    ((attRetrain2.ep.att.retrainAt = some 100)
      ∧ (100 + 10000000 ≤ attRetrain2.now)
      ∧ ((List.all attRetrain2.ep.att.tags fun e => e.2.void) = true)
      ∧ (attRetrain2.ep.att.queue = [])
      ∧ (attRetrain2.ep.dest.lineWait = [])
      ∧ ((List.any attRetrain2.ep.att.tags fun e => !e.2.dead) = true)) ∧
    ((attRetrain.ep.att.down = false)
      ∧ (attRetrain.ep.att.retrainAt.isSome = true)
      ∧ (∀ k < attRetrain.ep.att.modules, k = 7 ∨ (attRetrain.ep.att.trained.any fun e => e.1 == k && e.2 == 32) = true)) := by
  and_intros <;> first | with_reducible exact ctlHead_good _ _ | decide +kernel

/-- Every clause of `Obligations.AttachDirect` that has hypotheses has them all met. -/
theorem test_witness_AttachDirect :
    ((attSeg.attRx = true)
      ∧ (attSeg.ep.att.a2pBuf = [])
      ∧ (attSeg.loadsOut < 1024)
      ∧ (attSeg.ep.att.a2pUsed + txnChunks 18 (txn 16 8 64).len ≤ 4096 + attSeg.ep.att.a2pFreed)
      ∧ (1 ≤ (txn 16 8 64).len)
      ∧ ((txn 16 8 64).len ≤ 64)
      ∧ (attSeg.windowFault false (txn 16 8 64).addr (txn 16 8 64).len = none)) ∧
    ((attSeg.attRx = true)
      ∧ (attSeg.ep.att.a2pBuf = [])
      ∧ (attSeg.loadsOut < 1024)
      ∧ (attSeg.ep.att.a2pUsed + txnChunks 18 (txn 18 8 64).len ≤ 4096 + attSeg.ep.att.a2pFreed)
      ∧ (1 ≤ (txn 18 8 64).len)
      ∧ ((txn 18 8 64).len ≤ 64)
      ∧ (attSeg.windowFault true (txn 18 8 64).addr (txn 18 8 64).len = none)) ∧
    ((attSeg.attRx = true)
      ∧ (attSeg.ep.att.a2pBuf = [])
      ∧ (attSeg.loadsOut < 1024)
      ∧ (attSeg.ep.att.a2pUsed + txnChunks 18 (txn 16 8 (2 ^ 32)).len ≤ 4096 + attSeg.ep.att.a2pFreed)
      ∧ (1 ≤ (txn 16 8 (2 ^ 32)).len)
      ∧ ((txn 16 8 (2 ^ 32)).len ≤ 64)
      ∧ (attSeg.windowFault false (txn 16 8 (2 ^ 32)).addr (txn 16 8 (2 ^ 32)).len = some 8)) ∧
    ((attSeg.attRx = true)
      ∧ (attSeg.ep.att.a2pBuf = [])
      ∧ (attSeg.loadsOut < 1024)
      ∧ (attSeg.ep.att.a2pUsed + txnChunks 18 (txn 18 8 (2 ^ 32)).len ≤ 4096 + attSeg.ep.att.a2pFreed)
      ∧ (1 ≤ (txn 18 8 (2 ^ 32)).len)
      ∧ ((txn 18 8 (2 ^ 32)).len ≤ 64)
      ∧ (attSeg.windowFault true (txn 18 8 (2 ^ 32)).addr (txn 18 8 (2 ^ 32)).len = some 8)) ∧
    ((attSeg.attRx = true)
      ∧ (attSeg.ep.att.a2pBuf = [])
      ∧ (attSeg.loadsOut < 1024)
      ∧ (attSeg.ep.att.a2pUsed + txnChunks 18 (txn 16 8 Reg.epHnkFence).len ≤ 4096 + attSeg.ep.att.a2pFreed)
      ∧ (1 ≤ (txn 16 8 Reg.epHnkFence).len)
      ∧ ((txn 16 8 Reg.epHnkFence).len ≤ 64)
      ∧ ((txn 16 8 Reg.epHnkFence).len = 4 ∨ (txn 16 8 Reg.epHnkFence).len = 8)
      ∧ ((attSeg.ep.stores.all fun y => y.rid != (txn 16 8 Reg.epHnkFence).rid) = true)) ∧
    ((attSt.attRx = true)
      ∧ (attSt.ep.att.a2pBuf = [])
      ∧ (attSt.loadsOut < 1024)
      ∧ (attSt.ep.att.a2pUsed + txnChunks 18 (txn 16 8 Reg.epHnkFence).len ≤ 4096 + attSt.ep.att.a2pFreed)
      ∧ (1 ≤ (txn 16 8 Reg.epHnkFence).len)
      ∧ ((txn 16 8 Reg.epHnkFence).len ≤ 64)
      ∧ ((txn 16 8 Reg.epHnkFence).len = 4 ∨ (txn 16 8 Reg.epHnkFence).len = 8)
      ∧ ((attSt.ep.stores.any fun y => y.rid == (txn 16 8 Reg.epHnkFence).rid) = true)) := by
  and_intros <;> decide +kernel

/-- Every clause of `Obligations.AttachCompletions` that has hypotheses has them all met. -/
theorem test_witness_AttachCompletions :
    (((attTag wTag).attRx = true)
      ∧ ((attTag wTag).tagOf (txn 34 16 0).tag = some wTag)
      ∧ ((txn 34 16 0).len ≤ 256)
      ∧ (wTag.dead = false)
      ∧ (wTag.isRead = false)) ∧
    ((ws2.attRx = true)
      ∧ (ws2.tagOf (txn 33 16 0).tag = some ({ wTag with isRead := true }))
      ∧ ((txn 33 16 0).len ≤ 256)
      ∧ (({ wTag with isRead := true }).dead = false)
      ∧ (({ wTag with isRead := true }).isRead = true)
      ∧ (({ wTag with isRead := true }).len ≤ ({ wTag with isRead := true }).got + (txn 33 16 0).len)
      ∧ ((txn 33 16 0).status = 0)) ∧
    ((ws2.attRx = true)
      ∧ (ws2.tagOf (txn 33 8 0).tag = some ({ wTag with isRead := true }))
      ∧ ((txn 33 8 0).len ≤ 256)
      ∧ (({ wTag with isRead := true }).dead = false)
      ∧ (({ wTag with isRead := true }).isRead = true)
      ∧ (({ wTag with isRead := true }).got + (txn 33 8 0).len < ({ wTag with isRead := true }).len)
      ∧ ((txn 33 8 0).status = 0)) ∧
    (((attTag wTag).tagOf 2 = some wTag)
      ∧ (wTag.dead = false)
      ∧ (wTag.sentAt + 1000 * max 1 ((attTag wTag).fld Part.plocen Reg.epAttTmo 0 16) ≤ (attTag wTag).now)) ∧
    ((ws3.tagOf 2 = some ({ wTag with use := AttUse.ringFetch 3 0 1 }))
      ∧ (({ wTag with use := AttUse.ringFetch 3 0 1 }).dead = false)
      ∧ (({ wTag with use := AttUse.ringFetch 3 0 1 }).sentAt + 1000 * max 1 (ws3.fld Part.plocen Reg.epAttTmo 0 16) ≤ ws3.now)
      ∧ (({ wTag with use := AttUse.ringFetch 3 0 1 }).use = AttUse.ringFetch 3 0 1)
      ∧ (({ wTag with use := AttUse.ringFetch 3 0 1 }).void = false)) ∧
    ((attLoad.ep.att.active = true)
      ∧ (attLoad.ep.att.down = false)
      ∧ (attLoad.ep.att.a2pBuf = [])
      ∧ (List.find? (fun l => l.rid == 1 && l.tag == 2 && decide (l.at_ + 1000 * max 1 (attLoad.fld Part.plocen Reg.epAttTmo 16 16) ≤ attLoad.now)) attLoad.ep.loads = some { id := 8, rid := 1, tag := 2, addr := 64, len := 8, at_ := 3, inMiss := false : Load })
      ∧ (List.find? (fun x => x.id == { id := 8, rid := 1, tag := 2, addr := 64, len := 8, at_ := 3, inMiss := false : Load }.id) attLoad.ep.loads = some { id := 8, rid := 1, tag := 2, addr := 64, len := 8, at_ := 3, inMiss := false : Load })) ∧
    ((attBuf.ep.att.active = true)
      ∧ (attBuf.ep.att.down = false)
      ∧ (attBuf.ep.att.a2pBuf = [(txn 17 8 64, 5)])
      ∧ ((txn 17 8 64).opc = 17)
      ∧ (5 + 1000 * max 1 (attBuf.fld Part.plocen Reg.epAttTmo 16 16) ≤ attBuf.now)) := by
  and_intros <;> decide +kernel

end Sys2Proof.Tests.W03

namespace Sys2Proof.Tests.W04

/-- A descriptor from fields: bit offset and value. -/
def raw (l : List (Nat × Nat)) : Nat := (l.map fun x => x.2 * 2 ^ x.1).sum
/-- A state with ring 5 enabled and as given. -/
def ring5 (r : Ring) : State :=
  { att (at_ 30000000 [] [(Reg.epAttErr, 0), (Reg.epShtCtl, 0xFFFF), (Reg.epRngCfg 5, 3 * 2 ^ 24 + 16), (Reg.epRngImod 5, 0x102)]) live with
    ep := { (att (at_ 30000000 [] [(Reg.epAttErr, 0), (Reg.epShtCtl, 0xFFFF), (Reg.epRngCfg 5, 3 * 2 ^ 24 + 16), (Reg.epRngImod 5, 0x102)]) live).ep with rings := [(5, r)] } }
def r5 : Ring := { active := true, sqTail := 8, sqHead := 4, cqTail := 6, cqHead := 2, issued := 8, burst := 1, deficit := 4 }
def ws1 : State := ring5 { r5 with unannounced := [20, 30], armed := true }
def put8 : Nat := raw [(0, 1), (32, 64), (64, 4096), (128, 8192), (448, 77)]
def putAck8 : Nat := raw [(0, 2), (32, 64), (64, 4096), (128, 8192)]
def get8 : Nat := raw [(0, 3), (32, 64), (64, 4096), (128, 8192)]
def atomic8 : Nat := raw [(0, 4), (24, 0x30), (64, 4096), (128, 8192)]
def gather8 : Nat := raw [(0, 5), (32, 2), (64, 4096), (320, 8192), (384, 64)]
def scatter8 : Nat := raw [(0, 6), (32, 2), (64, 4096), (320, 8192), (384, 64)]
def hankSet8 : Nat := raw [(0, 9), (128, 8192), (192, 5), (320, 99)]
def page8 : Nat := raw [(0, 10), (32, 2), (64, 4096), (320, 8192)]
def wait8 (n : Nat) : Nat := raw [(0, 8), (224, 9), (256, n), (320, 50)]
def front (d : Nat) : State := ring5 { r5 with fetched := [(4, d)] }
def badGet : Nat := raw [(0, 3), (32, 0), (64, 4096)]
def oddAtomic : Nat := raw [(0, 4), (24, 0x30), (64, 4096), (128, 8196)]
def gatedPut : Nat := raw [(0, 1), (8, 1), (32, 64), (64, 4096), (128, 8192), (224, 9), (256, 5)]
/-- A GATHER with DECRYPT whose element size is no multiple of 64. -/
def oddGather : Nat := raw [(0, 5), (8, 16), (32, 2), (64, 4096), (320, 8192), (384, 72)]
def keyed (d : Nat) : State := { front d with ep := { (front d).ep with sec := { (front d).ep.sec with model := some 9 } } }
def parked (d : Nat) (v : Nat) : State :=
  { ring5 r5 with ep := { (ring5 r5).ep with hanks := [(9, v)], gates := [{ ring := 5, sub := 4, raw := d, since := 5 }] } }
def pk (d : Nat) : Parked := { ring := 5, sub := 4, raw := d, since := 5 }
def shut (x : Shuttle) : State := { ring5 r5 with ep := { (ring5 r5).ep with shuttles := [(2, x)] } }
def ws2 : State := shut { formed := 4 }
def rng3 : Rng := { pos := 0, eoff := 0, endPos := 1, endOff := 0 }
def shutB : Burst := { ring := 5, sub := 4, left := 3, rng := rng3, node := some 9 }
def ws3 : State := shut { formed := 4, burst := some shutB }
def shutInv : State := { shut { formed := 4, micro := [{ tag := 3, start := 8192, pages := 1, target := 0, ttag := 4, perm := 7 }] } with
  ep := { (shut { formed := 4 }).ep with xlt := { active := true, inv := some (4, 5 + 3 * 2 ^ 16, 1) } } }
def packing : State := { at_ 30000 [] [(Reg.epShtPack, 1000)] with
  ep := { (at_ 30000 [] [(Reg.epShtPack, 1000)]).ep with src := { held := [held .packing (.desc 5 4)], nextId := 4 } } }
def againH : Held := held .again (.desc 5 4)
def reforming : State := { shut {} with ep := { (shut {}).ep with src := { held := [againH], nextId := 4 } } }

/-- Every clause of `Obligations.DoorbellsAndCompletions` that has hypotheses has them all met. -/
theorem test_witness_DoorbellsAndCompletions :
    (((ring5 r5).attOn = true)
      ∧ ((ring5 r5).ringOn 5 = true)
      ∧ (subMod 32 (BitVec.toNat (10 : Word)) ((ring5 r5).ring 5).cqHead ≤ (ring5 r5).ringSize 5)
      ∧ (subMod 32 (BitVec.toNat (10 : Word)) ((ring5 r5).ring 5).sqTail ≤ (ring5 r5).ringSize 5)) ∧
    (((ring5 r5).attOn = true)
      ∧ ((ring5 r5).ringOn 5 = true)
      ∧ ((ring5 r5).ringSize 5 < subMod 32 (BitVec.toNat (1000 : Word)) ((ring5 r5).ring 5).cqHead ∨ (ring5 r5).ringSize 5 < subMod 32 (BitVec.toNat (1000 : Word)) ((ring5 r5).ring 5).sqTail)) ∧
    (((ring5 r5).attOn = true)
      ∧ ((ring5 r5).ringOn 5 = true)
      ∧ (subMod 32 (BitVec.toNat (6 : Word)) ((ring5 r5).ring 5).cqHead ≤ subMod 32 ((ring5 r5).ring 5).cqTail ((ring5 r5).ring 5).cqHead)) ∧
    (((ring5 r5).attOn = true)
      ∧ ((ring5 r5).ringOn 5 = true)
      ∧ (subMod 32 ((ring5 r5).ring 5).cqTail ((ring5 r5).ring 5).cqHead < subMod 32 (BitVec.toNat (7 : Word)) ((ring5 r5).ring 5).cqHead)) ∧
    (((ring5 r5).attOn = true)
      ∧ ((ring5 r5).ringOn 5 = true)
      ∧ (bit 0 (BitVec.toNat (1 : Word)) = true)
      ∧ (((ring5 r5).ring 5).unannounced = [])) ∧
    ((ws1.attOn = true)
      ∧ (ws1.ringOn 5 = true)
      ∧ ((ws1.ring 5).unannounced.head? = some 20)
      ∧ (ws1.flag Part.plocen (Reg.epRngCfg 5) 25 = true)
      ∧ (max (ws1.fld Part.plocen (Reg.epRngImod 5) 0 8) 1 ≤ (ws1.ring 5).unannounced.length ∨ 20 + 1000 * ws1.fld Part.plocen (Reg.epRngImod 5) 8 16 ≤ ws1.now)
      ∧ (bit 0 (BitVec.toNat (1 : Word)) = true)) ∧
    ((ws1.attOn = true)
      ∧ (ws1.ringOn 5 = true)
      ∧ ((ws1.ring 5).unannounced.head? = some 20)
      ∧ (ws1.flag Part.plocen (Reg.epRngCfg 5) 25 = true)
      ∧ (max (ws1.fld Part.plocen (Reg.epRngImod 5) 0 8) 1 ≤ (ws1.ring 5).unannounced.length ∨ 20 + 1000 * ws1.fld Part.plocen (Reg.epRngImod 5) 8 16 ≤ ws1.now)
      ∧ ((ws1.ring 5).armed = true)) ∧
    (((ring5 r5).ep.att.down = false)) := by
  and_intros <;> decide +kernel

/-- Every clause of `Obligations.Descriptors` that has hypotheses has them all met. -/
theorem test_witness_Descriptors :
    (((front put8).front 5 = some (4, put8))
      ∧ ((front put8).canStart 5 (descOf put8) = true)
      ∧ ((front put8).badDesc (descOf put8) = none)
      ∧ ((descOf put8).misaligned = false)
      ∧ ((front put8).descWaits (descOf put8) = false)
      ∧ ((descOf put8).opc = 1)) ∧
    (((front putAck8).front 5 = some (4, putAck8))
      ∧ ((front putAck8).canStart 5 (descOf putAck8) = true)
      ∧ ((front putAck8).badDesc (descOf putAck8) = none)
      ∧ ((descOf putAck8).misaligned = false)
      ∧ ((front putAck8).descWaits (descOf putAck8) = false)
      ∧ ((descOf putAck8).opc = 2)) ∧
    (((front get8).front 5 = some (4, get8))
      ∧ ((front get8).canStart 5 (descOf get8) = true)
      ∧ ((front get8).badDesc (descOf get8) = none)
      ∧ ((descOf get8).misaligned = false)
      ∧ ((front get8).descWaits (descOf get8) = false)
      ∧ ((descOf get8).opc = 3)) ∧
    (((front atomic8).front 5 = some (4, atomic8))
      ∧ ((front atomic8).canStart 5 (descOf atomic8) = true)
      ∧ ((front atomic8).badDesc (descOf atomic8) = none)
      ∧ ((descOf atomic8).misaligned = false)
      ∧ ((front atomic8).descWaits (descOf atomic8) = false)
      ∧ ((descOf atomic8).opc = 4)) ∧
    (((front gather8).front 5 = some (4, gather8))
      ∧ ((front gather8).canStart 5 (descOf gather8) = true)
      ∧ ((front gather8).badDesc (descOf gather8) = none)
      ∧ ((descOf gather8).misaligned = false)
      ∧ ((front gather8).descWaits (descOf gather8) = false)
      ∧ ((descOf gather8).opc = 5)) ∧
    (((front scatter8).front 5 = some (4, scatter8))
      ∧ ((front scatter8).canStart 5 (descOf scatter8) = true)
      ∧ ((front scatter8).badDesc (descOf scatter8) = none)
      ∧ ((descOf scatter8).misaligned = false)
      ∧ ((front scatter8).descWaits (descOf scatter8) = false)
      ∧ ((descOf scatter8).opc = 6)) ∧
    (((front hankSet8).front 5 = some (4, hankSet8))
      ∧ ((front hankSet8).canStart 5 (descOf hankSet8) = true)
      ∧ ((front hankSet8).badDesc (descOf hankSet8) = none)
      ∧ ((descOf hankSet8).misaligned = false)
      ∧ ((front hankSet8).descWaits (descOf hankSet8) = false)
      ∧ ((descOf hankSet8).opc = 9)) ∧
    (((front page8).front 5 = some (4, page8))
      ∧ ((front page8).canStart 5 (descOf page8) = true)
      ∧ ((front page8).badDesc (descOf page8) = none)
      ∧ ((descOf page8).misaligned = false)
      ∧ ((front page8).descWaits (descOf page8) = false)
      ∧ ((descOf page8).opc = 10)) ∧
    ((((front badGet).ring 5).fetched = [(4, badGet)])
      ∧ ((front badGet).ringRuns 5 = true)
      ∧ (Instr.get 5 ∈ List.filterMap (fun x => if x.2 = (descOf badGet).opc then some x.1 else none) [(Instr.put 5, 1), (Instr.putAck 5, 2), (Instr.get 5, 3), (Instr.atomic 5, 4), (Instr.gather 5, 5), (Instr.scatter 5, 6), (Instr.warpJoin 5, 7), (Instr.hankWait 5, 8), (Instr.hankSet 5, 9), (Instr.fmemPage 5, 10)])
      ∧ ((front badGet).canStart 5 (descOf badGet) = true)
      ∧ ((front badGet).badDesc (descOf badGet) = some 4)
      ∧ (listDecides (descOf badGet) 4 = false)) ∧
    ((((front oddAtomic).ring 5).fetched = [(4, oddAtomic)])
      ∧ ((front oddAtomic).ringRuns 5 = true)
      ∧ (Instr.atomic 5 ∈ List.filterMap (fun x => if x.2 = (descOf oddAtomic).opc then some x.1 else none) [(Instr.put 5, 1), (Instr.putAck 5, 2), (Instr.get 5, 3), (Instr.atomic 5, 4), (Instr.gather 5, 5), (Instr.scatter 5, 6), (Instr.warpJoin 5, 7), (Instr.hankWait 5, 8), (Instr.hankSet 5, 9), (Instr.fmemPage 5, 10)])
      ∧ ((front oddAtomic).canStart 5 (descOf oddAtomic) = true)
      ∧ ((front oddAtomic).badDesc (descOf oddAtomic) = none)
      ∧ ((front oddAtomic).descWaits (descOf oddAtomic) = false)
      ∧ ((descOf oddAtomic).misaligned = true)) ∧
    ((((front gatedPut).ring 5).fetched = [(4, gatedPut)])
      ∧ ((front gatedPut).ringRuns 5 = true)
      ∧ (Instr.put 5 ∈ List.filterMap (fun x => if x.2 = (descOf gatedPut).opc then some x.1 else none) [(Instr.put 5, 1), (Instr.putAck 5, 2), (Instr.get 5, 3), (Instr.atomic 5, 4), (Instr.gather 5, 5), (Instr.scatter 5, 6), (Instr.warpJoin 5, 7), (Instr.hankWait 5, 8), (Instr.hankSet 5, 9), (Instr.fmemPage 5, 10)])
      ∧ ((front gatedPut).badDesc (descOf gatedPut) = none)
      ∧ ((front gatedPut).descWaits (descOf gatedPut) = true)
      ∧ ((front gatedPut).ep.gates.length < 8192)) ∧
    ((((keyed oddGather).ring 5).fetched = [(4, oddGather)])
      ∧ ((keyed oddGather).ringRuns 5 = true)
      ∧ (Instr.gather 5 ∈ List.filterMap (fun x => if x.2 = (descOf oddGather).opc then some x.1 else none) [(Instr.put 5, 1), (Instr.putAck 5, 2), (Instr.get 5, 3), (Instr.atomic 5, 4), (Instr.gather 5, 5), (Instr.scatter 5, 6), (Instr.warpJoin 5, 7), (Instr.hankWait 5, 8), (Instr.hankSet 5, 9), (Instr.fmemPage 5, 10)])
      ∧ ((keyed oddGather).canStart 5 (descOf oddGather) = true)
      ∧ ((keyed oddGather).badDesc (descOf oddGather) = some 48)
      ∧ (listDecides (descOf oddGather) 48 = true)) := by
  and_intros <;> decide +kernel

/-- Every clause of `Obligations.WaitsAndJoins` that has hypotheses has them all met. -/
theorem test_witness_WaitsAndJoins :
    ((((front (wait8 0)).ring 5).fetched = [(4, wait8 0)])
      ∧ ((front (wait8 0)).canStart 5 (descOf (wait8 0)) = true)
      ∧ ((descOf (wait8 0)).opc = 8)
      ∧ ((front (wait8 0)).badDesc (descOf (wait8 0)) = none)
      ∧ (hankMet ((front (wait8 0)).hank (descOf (wait8 0)).ghank) (descOf (wait8 0)).gthresh = true)) ∧
    (((parked (wait8 3) 4).parked? 5 4 = some (pk (wait8 3)))
      ∧ ((descOf (pk (wait8 3)).raw).opc = 8)
      ∧ (hankMet ((parked (wait8 3) 4).hank (descOf (pk (wait8 3)).raw).ghank) (descOf (pk (wait8 3)).raw).gthresh = true)) ∧
    (((parked (wait8 3) 2).parked? 5 4 = some (pk (wait8 3)))
      ∧ ((descOf (pk (wait8 3)).raw).opc = 8)
      ∧ (hankMet ((parked (wait8 3) 2).hank (descOf (pk (wait8 3)).raw).ghank) (descOf (pk (wait8 3)).raw).gthresh = false)
      ∧ (bits 0 32 (descOf (pk (wait8 3)).raw).opa ≠ 0)
      ∧ ((pk (wait8 3)).since + 1000 * bits 0 32 (descOf (pk (wait8 3)).raw).opa ≤ (parked (wait8 3) 2).now)) ∧
    (((parked gatedPut 5).parked? 5 4 = some (pk gatedPut))
      ∧ ((descOf (pk gatedPut).raw).opc ≠ 8)
      ∧ ((descOf (pk gatedPut).raw).opc ≠ 7)
      ∧ ((parked gatedPut 5).canStart 5 (descOf (pk gatedPut).raw) = true)
      ∧ ((parked gatedPut 5).badDesc (descOf (pk gatedPut).raw) = none)
      ∧ ((descOf (pk gatedPut).raw).misaligned = false)
      ∧ ((parked gatedPut 5).descWaits (descOf (pk gatedPut).raw) = false)) := by
  and_intros <;> decide +kernel

/-- Every clause of `Obligations.ShuttlesAndBursts` that has hypotheses has them all met. -/
theorem test_witness_ShuttlesAndBursts :
    (((ws2.shuttle 2).burst = none)
      ∧ (ws2.ep.xlt.inv = none)) ∧
    (((ws3.shuttle 2).burst = some shutB)
      ∧ (ws3.ep.xlt.inv = none)) ∧
    ((shutInv.ep.xlt.inv = some (4, 5 + 3 * 2 ^ 16, 1))
      ∧ (setBit 2 true 1 ≠ 131071)) ∧
    (((packing.ep.src.held.any fun h => h.loc == HeldAt.packing && h.c.dest == 9 && h.plane == 0 && decide (h.formedAt + packing.fld Part.plocen Reg.epShtPack 0 16 ≤ packing.now)) = true)) ∧
    ((List.find? (fun g => g.loc == HeldAt.again) reforming.ep.src.held = some againH)
      ∧ ((reforming.shuttle 2).fenced = false)
      ∧ ((reforming.shuttle 2).burst = none)
      ∧ (reforming.flag Part.plocen Reg.epShtCtl 2 = true)) := by
  and_intros <;> decide +kernel

end Sys2Proof.Tests.W04

namespace Sys2Proof.Tests.W04b

def act8 : Act :=
  { ring := 5, sub := 4, raw := 1 + 64 * 2 ^ 32 + 4096 * 2 ^ 64 + 8192 * 2 ^ 128, todo := [(descOf (1 + 64 * 2 ^ 32 + 4096 * 2 ^ 64 + 8192 * 2 ^ 128)).whole], list := [], halves := [], asked := 0
    checked := false, ahead := 0, sent := false, parts := 0, landed := 0, code := 0, info := 0, keyDead := false }
def bursty : State :=
  let s := at_ 30000 [] [(Reg.epShtCtl, 0xFFFF), (Reg.epRngCfg 5, 3 * 2 ^ 24 + 65552), (Reg.epXltCtl, 1), (Reg.epSecNode, 0x8007), (psBase .plocen 0 + 4, 2), (Reg.epRngSched 5, 0xFF)]
  { att s live with ep := { (att s live).ep with
      rings := [(5, { active := true, burst := 1, deficit := 4 })], acts := [act8], released := [(0, 0)]
      xlt := { active := true, outExt := [{ tag := 1, start := 0, pages := 16, target := 9 * 2 ^ 49, ttag := 3, perm := 7 }] } } }
/-- No other ring is ready. -/
theorem bursty_quiet (n : Nat) (hn : n ≠ act8.ring) : bursty.ringReady 2 n = false := by
  have h5 : (5 : Nat) ≠ n := Ne.symm hn
  have hr : bursty.ring n = {} := by
    change SMap.look (fun _ => ({} : Ring)) [(5, ({ active := true, burst := 1, deficit := 4 } : Ring))] n = {}
    simp [SMap.look, h5]
  have ha : (bursty.ep.acts.filter fun a => a.ring == n) = [] := by
    change ([act8].filter fun a => a.ring == n) = []
    simp [act8, h5]
  have hg : bursty.ep.gates = [] := rfl
  simp [State.ringReady, State.ringStarts, State.openParked, State.front, hr, ha, hg]
def off5 (en act : Nat) (a : Bool) : State :=
  let s := at_ 30000 [] [(Reg.epRngCfg 5, en * 2 ^ 24 + 16)]
  { att s live with ep := { (att s live).ep with rings := [(5, { active := a, sqTail := act, sqHead := act })] } }
def joiny (d : Nat) : State :=
  let s := at_ 30000 [] [(Reg.epRngCfg 5, 3 * 2 ^ 24 + 16), (Reg.epSeqWstat, 8), (0x210020, 3), (0x210024, 0x10000 + 0x100), (0x210030, 4096),
    (0x210038, 1), (0x212020, 0x010100), (0x212028, 2), (0x21202C, 1)]
  { att s live with ep := { (att s live).ep with rings := [(5, { active := true, fetched := [(4, d)] })] } }
def join8b : Nat := 7 + 8192 * 2 ^ 32 + 4096 * 2 ^ 64 + (1 + 1 * 65536) * 2 ^ 320 + 8192 * 2 ^ 384

/-- Every clause of `Obligations.ShuttlesAndBursts` that has hypotheses has them all met. -/
theorem test_witness_ShuttlesAndBursts :
    ((bursty.ep.acts = [act8])
      ∧ (act8.ring < 1024)
      ∧ (List.find? (fun g => g.loc == HeldAt.again) bursty.ep.src.held = none)
      ∧ (bursty.ringReady 0 act8.ring = true)
      ∧ ((bursty.shuttle 2).fenced = false)
      ∧ ((bursty.shuttle 2).burst = none)
      ∧ (bursty.flag Part.plocen Reg.epShtCtl 2 = true)
      ∧ (1 ≤ (bursty.ring act8.ring).deficit)
      ∧ ((bursty.ring act8.ring).burst = 1)
      ∧ (∀ (n : ℕ), n ≠ act8.ring → bursty.ringReady 2 n = false)
      ∧ (bursty.ringStarts act8.ring = false)
      ∧ ((bursty.nextOf 2 act8).1 = Next.form 9 8192 3 64 0 8192)) := by
  and_intros <;> first | with_reducible exact bursty_quiet | decide +kernel

/-- Every clause of `Obligations.RingsEnabled` that has hypotheses has them all met. -/
theorem test_witness_RingsEnabled :
    (((off5 0 0 false).attOn = true)
      ∧ ((off5 0 0 false).ringOn 5 = false)
      ∧ (((off5 0 0 false).ring 5).active = false)
      ∧ (bit 24 (BitVec.toNat (3 * 2 ^ 24 + 17 : Word)) = true)) ∧
    (((off5 1 4 true).attOn = true)
      ∧ ((off5 1 4 true).ringOn 5 = true)
      ∧ (((off5 1 4 true).ring 5).active = true)
      ∧ (bit 24 (BitVec.toNat (17 : Word)) = false)) ∧
    ((((off5 0 4 true).ring 5).active = true)
      ∧ ((off5 0 4 true).ringOn 5 = false)
      ∧ (((off5 0 4 true).ep.acts.all fun a => a.ring != 5) = true)
      ∧ (((off5 0 4 true).ep.warp.binds.all fun b => b.ring != 5) = true)) := by
  and_intros <;> decide +kernel

/-- Every clause of `Obligations.WaitsAndJoins` that has hypotheses has them all met. -/
theorem test_witness_WaitsAndJoins :
    ((((joiny join8b).ring 5).fetched = [(4, join8b)])
      ∧ ((joiny join8b).canStart 5 (descOf join8b) = true)
      ∧ ((descOf join8b).opc = 7)
      ∧ ((joiny join8b).badDesc (descOf join8b) = none)
      ∧ ((joiny join8b).descWaits (descOf join8b) = false)
      ∧ (bits 0 16 (descOf join8b).opa = ((joiny join8b).patOf ((joiny join8b).phOf (bits 0 16 (descOf join8b).opa)).pattern).first)) := by
  and_intros <;> decide +kernel

end Sys2Proof.Tests.W04b

namespace Sys2Proof.Tests.W05

def xlt (v : Nat) (x : Xlt) : State :=
  let s := at_ 30000000 [] [(Reg.epXltCtl, BitVec.ofNat 32 v), (Reg.epXltTmo, 100), (Reg.epAttErr, 0)]
  { att s live with ep := { (att s live).ep with xlt := x } }
def x0 : Xlt := { active := true, fillTail := 8, fillHead := 4, missTail := 9, missHead := 5, issued := 8 }
def ws1 : State := xlt 3 { x0 with unannounced := 2 }
/-- A fill record from fields: bit offset and value. -/
def rec_ (l : List (Nat × Nat)) : Nat := (l.map fun x => x.2 * 2 ^ x.1).sum
def fill (w : Nat) (o : List OutExt) (i : List InExt) : State := xlt 3 { x0 with fetched := [(4, w)], outExt := o, inExt := i }
def outW : Nat := rec_ [(0, 1), (8, 7), (16, 3), (32, 2), (64, 8192), (128, 65536), (192, 4)]
def inW : Nat := rec_ [(0, 2), (8, 7), (16, 3), (32, 2), (64, 8192), (128, 65536), (192, 4)]
def faultW : Nat := rec_ [(0, 3), (224, 6)]
def e1 : OutExt := { tag := 3, start := 8192, pages := 1, target := 0, ttag := 4, perm := 7 }
def e2 : OutExt := { tag := 2, start := 8192, pages := 1, target := 0, ttag := 4, perm := 7 }
def i1 : InExt := { tag := 3, skein := 4, start := 8192, pages := 1, attach := 65536, perm := 7 }
def i2 : InExt := { tag := 5, skein := 4, start := 8192, pages := 1, attach := 65536, perm := 7 }
def ws2 : State := fill outW [e2] [i1]
def ws3 : State := fill outW [e1, e2] []
def miss6 : Miss := { id := 2, fault := false, tag := 3, va := 8192, count := some 6, formedAt := 0, direct := [{ store := false, id := 0, va := 8192, xtag := 3, planes := 1, hank := 0, len := 8, data := [] }] }
def missy (w : Nat) (l : List Miss) : State := xlt 3 { x0 with fetched := [(4, w)], misses := l }
def ws4 : State := missy faultW [miss6]
def tagW : Nat := rec_ [(0, 4), (8, 128), (16, 3)]
def rangeW : Nat := rec_ [(0, 5), (16, 3), (32, 2), (64, 8192)]
def removeW : Nat := rec_ [(0, 6), (16, 3), (32, 2), (64, 8192), (192, 4)]
def ws5 : State := fill tagW [e1, e2] [i1]
def ws6 : State := fill rangeW [e1, e2] [i1]
def acking (map : Nat) : State := { xlt 3 { x0 with inv := some (4, rangeW, map), outExt := [e1] } with
  ep := { (xlt 3 { x0 with inv := some (4, rangeW, map), outExt := [e1] }).ep with shuttles := [(2, { micro := [e1, e2] })] } }
def draining : State := xlt 3 { x0 with drains := [(4, 3, [11], true)] }
def ws7 : State := fill removeW [e1] [i1, i2]
def rm11 : Removal := { fill := 4, tag := 3, count := 1, waits := [(11, 5, 64)] }
def removing : State := xlt 3 { x0 with removal := some rm11 }
def ws8 : State := xlt 0 { x0 with active := false }
def ws9 : State := xlt 3 { x0 with outExt := [e1], misses := [miss6], inExt := [i1] }
def expiring : State := { xlt 3 { x0 with misses := [miss6], outExt := [e1], inExt := [i1] } with
  ep := { (xlt 3 { x0 with misses := [miss6], outExt := [e1], inExt := [i1] }).ep with shuttles := [(2, { miss := some 2, burst := some { ring := 5, sub := 4, left := 3, rng := { pos := 0, eoff := 0, endPos := 1, endOff := 0 }, node := none } })] } }

/-- Every clause of `Obligations.TranslationControl` that has hypotheses has them all met. -/
theorem test_witness_TranslationControl :
    (((xlt 3 x0).attOn = true)
      ∧ ((xlt 3 x0).xltOn = true)
      ∧ (subMod 32 (BitVec.toNat (10 : Word)) (xlt 3 x0).ep.xlt.fillHead ≤ (xlt 3 x0).fillSize)) ∧
    (((xlt 3 x0).attOn = true)
      ∧ ((xlt 3 x0).xltOn = true)
      ∧ ((xlt 3 x0).fillSize < subMod 32 (BitVec.toNat (65536 : Word)) (xlt 3 x0).ep.xlt.fillHead)) ∧
    (((xlt 3 x0).attOn = true)
      ∧ ((xlt 3 x0).xltOn = true)
      ∧ (subMod 32 (BitVec.toNat (8 : Word)) (xlt 3 x0).ep.xlt.missHead ≤ subMod 32 (xlt 3 x0).ep.xlt.missTail (xlt 3 x0).ep.xlt.missHead)) ∧
    (((xlt 3 x0).attOn = true)
      ∧ ((xlt 3 x0).xltOn = true)
      ∧ (subMod 32 (xlt 3 x0).ep.xlt.missTail (xlt 3 x0).ep.xlt.missHead < subMod 32 (BitVec.toNat (10 : Word)) (xlt 3 x0).ep.xlt.missHead)) ∧
    (((xlt 3 x0).attOn = true)
      ∧ (bit 0 (BitVec.toNat (1 : Word)) = true)
      ∧ ((xlt 3 x0).flag Part.plocen Reg.epXltCtl 1 = false ∨ (xlt 3 x0).ep.xlt.unannounced = 0)) ∧
    ((ws1.attOn = true)
      ∧ (bit 0 (BitVec.toNat (1 : Word)) = true)
      ∧ (ws1.flag Part.plocen Reg.epXltCtl 1 = true)
      ∧ (0 < ws1.ep.xlt.unannounced)) ∧
    ((ws8.attOn = true)
      ∧ (ws8.xltOn = false)
      ∧ (bit 0 (BitVec.toNat (3 : Word)) = true)) ∧
    ((ws9.attOn = true)
      ∧ (ws9.xltOn = true)
      ∧ (bit 0 (BitVec.toNat (2 : Word)) = false)) ∧
    ((List.find? (fun m => m.id == 2) expiring.ep.xlt.misses = some miss6)
      ∧ (miss6.formedAt + 1000 * max (expiring.fld Part.plocen Reg.epXltTmo 0 16) 1 ≤ expiring.now)) := by
  and_intros <;> decide +kernel

/-- Every clause of `Obligations.Fills` that has hypotheses has them all met. -/
theorem test_witness_Fills :
    ((fillReady (fill 0 [e1] [i1]) 4 0 0)) ∧
    ((fillReady ws2 4 outW 1)
      ∧ ((ws2.ep.xlt.outExt.any fun e => e.tag == (fillOf outW).tag && overlaps e.start e.pages (fillOf outW).start (fillOf outW).pages) = false)) ∧
    ((fillReady (fill inW [e1] [i2]) 4 inW 2)
      ∧ (((fill inW [e1] [i2]).ep.xlt.inExt.any fun e => e.tag == (fillOf inW).tag && e.skein == (fillOf inW).ttag && overlaps e.start e.pages (fillOf inW).start (fillOf inW).pages) = false)
      ∧ ((fill inW [e1] [i2]).ep.xlt.inExt.length < 2048)) ∧
    ((fillReady ws3 4 outW 1)
      ∧ ((ws3.ep.xlt.outExt.any fun e => e.tag == (fillOf outW).tag && overlaps e.start e.pages (fillOf outW).start (fillOf outW).pages) = true)) ∧
    ((fillReady ws4 4 faultW 3)
      ∧ (List.find? (fun m => m.count == some (fillOf faultW).miss && ws4.missWaits m) ws4.ep.xlt.misses = some miss6)) ∧
    ((fillReady (missy faultW []) 4 faultW 3)
      ∧ (List.find? (fun m => m.count == some (fillOf faultW).miss && (missy faultW []).missWaits m) (missy faultW []).ep.xlt.misses = none)) := by
  unfold fillReady
  and_intros <;> decide +kernel

/-- Every clause of `Obligations.Invalidations` that has hypotheses has them all met. -/
theorem test_witness_Invalidations :
    ((fillReady ws5 4 tagW 4)) ∧
    ((fillReady ws6 4 rangeW 5)) ∧
    (((acking 16).ep.xlt.inv = some (4, rangeW, 16))) ∧
    ((List.find? (fun d => d.2.1 == 3) draining.ep.xlt.drains = some (4, 3, [11], true))
      ∧ (((4, 3, [11], true).2.2.1.any fun i => draining.ep.src.held.any fun h => h.id == i) = false)) ∧
    ((fillReady ws7 4 removeW 6)) ∧
    ((removing.ep.xlt.removal = some rm11)
      ∧ (removing.ep.xlt.fetched = [])
      ∧ ((rm11.waits.any fun x => removing.pieceOpen x.1 x.2.1 x.2.2) = false)) := by
  unfold fillReady
  and_intros <;> decide +kernel

end Sys2Proof.Tests.W05

namespace Sys2Proof.Tests.W06

/-- A state of the Plocen with port 0 in service as node 5. -/
def ep5 (now : Nat) (l : SMap Word) : State :=
  let s := at_ now [] (l ++ [(psBase .plocen 0 + 4, 2), (psBase .plocen 1 + 4, 2), (Reg.epSecNode, 0x8005), (Reg.epAttErr, 0), (Reg.epSeqWstat, 0), (Reg.epSeqEpoch, 0),
    (Reg.epSeqBackoff, 256), (Reg.epSeqReflLo, 0xFFFFFFFF), (Reg.epSeqReflHi, 0), (Reg.epSeqCtl, 6)])
  { att s live with ep := { (att s live).ep with released := [(0, 0), (1, 0)] } }
def srcOf (s : State) (x : Source) : State := { s with ep := { s.ep with src := x } }
def destIs (s : State) (x : Dest) (l : List InExt) : State := { s with ep := { s.ep with dest := x, xlt := { s.ep.xlt with inExt := l } } }
def waiter : Held := { held .waiting (.desc 5 4) with first := none }
def ws1 : State := srcOf (ep5 320000 []) { held := [waiter], nextId := 4 }
def ws2 : State := srcOf (ep5 320000 []) { held := [held .waiting (.desc 5 4)], nextId := 4 }
def ws3 : State := srcOf (ep5 320000 []) { held := [{ held .waiting (.desc 5 4) with lifeUs := 1 }], nextId := 4 }
def readC (ord : Bool) : Container := sealed { cont with opc := 2, ord := ord, stream := if ord then 9 else 0, payload := [] }
theorem readC_crc (b : Bool) : (readC b).crc = containerCrc (readC b) := by unfold readC; exact sealed_crc _
def readM (ord : Bool) : Msg := { msgW with opc := 2, ord := ord, data := [] }
def inExt5 : InExt := { tag := 0, skein := 2, start := 0, pages := 1, attach := 65536, perm := 7 }
def arriving (r : SMap RecvRec) : State := destIs (ep5 320000 []) { recs := r, nextId := 12 } [inExt5]
def ws4 : State := arriving [(7, { base := 4, done := [], prog := [], last := 5 })]
def ackC : Container := sealed { cont with reply := true, src := 9, opc := 0x31, len := 0, win := 40, payload := [] }
theorem ackC_crc : ackC.crc = containerCrc ackC := by unfold ackC; exact sealed_crc _
def ackM : Msg := { msgW with opc := 0x31, reply := true, len := 0, data := [] }
def ws5 : State := srcOf (ep5 320000 []) { held := [held .sent (.store 6)], nextId := 4, used := [] }
def reflC : Container := sealed { (held .sent (.store 6)).c with refl := true, hops := 1, defl := 2, src := 5 }
theorem reflC_crc : reflC.crc = containerCrc reflC := by unfold reflC; exact sealed_crc _
def sentH : Held := { held .sent (.store 6) with c := { sealed { (held .sent (.store 6)).c with src := 5 } with hops := 6 } }
def ws6 : State := srcOf (ep5 320000 []) { held := [sentH], nextId := 4 }
def rpSrc (s : State) (x : Source) : State := { s with rp := { s.rp with src := x } }
def mgH (loc : HeldAt) : Held := { held loc (.mgmt 0) with planes := 0 }
def srcs (loc : HeldAt) (f : Held → Held) : State := rpSrc (srcOf (ep5 320000 [(Reg.epSeqToutLo, 0), (Reg.epSeqToutHi, 0)]) { held := [f (held loc (.store 6))], nextId := 4 }) { held := [f (mgH loc)], nextId := 4 }
def ws7 : State := srcs (.backoff 100) id
def relH : Held := { mgH (.backoff 100) with msgs := [sent (.relay 3)] }
def relayS : State := let s := srcs (.backoff 100) id; { rpSrc s { held := [relH], nextId := 4 } with rp := { (rpSrc s { held := [relH], nextId := 4 }).rp with regs := [(Reg.sknCtl 2, 1)] } }
def late (h : Held) : Held := { h with tmo := 7 }
def old (h : Held) : Held := { h with lifeUs := 1 }
def d0 (n : Nat) : Dest :=
  { recs := [(7, { base := 4, done := [], prog := [], last := 5 }), (8, { base := 4, done := [], prog := [], last := n })], nextId := 9
    ctxs := [{ src := 7, stream := 2, base := 4, held := [], busy := false, last := 5 }, { src := 7, stream := 3, base := 4, held := [], busy := false, last := n }]
    cache := [{ src := 7, stream := none, seq := 3, old := [1], failed := false, at_ := 5 }, { src := 7, stream := none, seq := 4, old := [1], failed := false, at_ := n }]
    replies := [{ dest := 7, plane := 0, skein := 2, age := 4, msg := ackM, ord := none, due := 6 }] }
def dests : State :=
  let s := destIs (ep5 3000000 []) (d0 2900000) []
  srcOf { s with rp := { s.rp with fmem := { s.rp.fmem with dest := d0 2900000 } } } { unreach := [(7, 1, 100), (7, 2, 100), (7, 1, 9000000)] }

/-- The container that `reflC` answers is found. -/
theorem sentH_found :
    List.find? (fun h => h.hasCredit && { h.c with refl := false, hops := 0, defl := 0 } == { reflC with refl := false, hops := 0, defl := 0 }) ws6.ep.src.held = some sentH := by
  have hx : sentH.c.crc = reflC.crc := by unfold sentH reflC sealed containerCrc; with_reducible rfl
  exact List.find?_cons_of_pos (l := []) (by rw [Bool.and_eq_true]; exact ⟨rfl, beq_iff_eq.mpr (by dsimp only; rw [← hx]; rfl)⟩)
theorem sentH_held : ws6.held? Part.plocen sentH.id = some sentH := rfl

/-- Every clause of `Obligations.InjectionAndBackoff` that has hypotheses has them all met. -/
theorem test_witness_InjectionAndBackoff :
    ((List.find? (fun h => ws1.mayInject 0 h) ws1.ep.src.held = some waiter)
      ∧ (ws1.lifeOver waiter = false)) ∧
    ((List.find? (fun h => ws3.mayInject 0 h) ws3.ep.src.held = some ({ held HeldAt.waiting (Owner.desc 5 4) with lifeUs := 1 }))
      ∧ (ws3.lifeOver ({ held HeldAt.waiting (Owner.desc 5 4) with lifeUs := 1 }) = true)) ∧
    ((epTakes ws6 0 reflC)
      ∧ (reflC.refl = true)
      ∧ (reflC.defl ≠ 15)
      ∧ (List.find? (fun h => h.hasCredit && { h.c with refl := false, hops := 0, defl := 0 } == { reflC with refl := false, hops := 0, defl := 0 }) ws6.ep.src.held = some sentH)
      ∧ (ws6.held? Part.plocen sentH.id = some sentH)
      ∧ (ws6.lifeOver sentH = false)) := by
  unfold epTakes
  and_intros <;> first | with_reducible exact reflC_crc | with_reducible exact sentH_found | with_reducible exact sentH_held | decide +kernel

/-- Every clause of `Obligations.RequestsAndReplies` that has hypotheses has them all met. -/
theorem test_witness_RequestsAndReplies :
    ((epTakes (arriving []) 0 (readC false))
      ∧ ((readC false).refl = false)
      ∧ ((readC false).kind = 1)
      ∧ (containerMsgs (readC false) = [readM false])
      ∧ ((readM false).reply = false)
      ∧ ((readM false).opc = 1 ∨ (readM false).opc = 2)
      ∧ (1 ≤ (readM false).len)
      ∧ ((readM false).len ≤ 768)
      ∧ ((arriving []).ep.dest.jobs = [])
      ∧ ((arriving []).ep.dest.ctxs = [])
      ∧ ((arriving []).ep.dest.admits 4096 (readC false).age = true)
      ∧ ((arriving []).stale (arrivalOf (readC false) 0 (some (arriving []).ep.dest.nextId) (readM false)) = false)
      ∧ ((((arriving []).inPieces (readM false).ttag (readC false).skein (readM false).offset (readM false).len (kindOf (readM false).opc)).all fun x => x.2.2.isSome) = true)
      ∧ ((readM false).ord = false)
      ∧ ((readC false).ord = false)
      ∧ ((SMap.find? (arriving []).ep.dest.recs (readC false).src).isNone = true)
      ∧ ((readC false).sync = true)) ∧
    ((epTakes ws4 0 (readC false))
      ∧ ((readC false).refl = false)
      ∧ ((readC false).kind = 1)
      ∧ (containerMsgs (readC false) = [readM false])
      ∧ ((readM false).reply = false)
      ∧ ((readM false).opc = 1 ∨ (readM false).opc = 2)
      ∧ (1 ≤ (readM false).len)
      ∧ ((readM false).len ≤ 768)
      ∧ (ws4.ep.dest.jobs = [])
      ∧ (ws4.ep.dest.ctxs = [])
      ∧ (ws4.ep.dest.admits 4096 (readC false).age = true)
      ∧ (ws4.stale (arrivalOf (readC false) 0 (some ws4.ep.dest.nextId) (readM false)) = false)
      ∧ (((ws4.inPieces (readM false).ttag (readC false).skein (readM false).offset (readM false).len (kindOf (readM false).opc)).all fun x => x.2.2.isSome) = true)
      ∧ ((readM false).ord = false)
      ∧ ((readC false).ord = false)
      ∧ (ws4.ep.dest.verdict (readC false).src (readM false).seq none = Verdict.run)) ∧
    ((epTakes (arriving []) 0 (readC true))
      ∧ ((readC true).refl = false)
      ∧ ((readC true).kind = 1)
      ∧ (containerMsgs (readC true) = [readM true])
      ∧ ((readM true).reply = false)
      ∧ ((readM true).opc = 1 ∨ (readM true).opc = 2)
      ∧ (1 ≤ (readM true).len)
      ∧ ((readM true).len ≤ 768)
      ∧ ((arriving []).ep.dest.jobs = [])
      ∧ ((arriving []).ep.dest.ctxs = [])
      ∧ ((arriving []).ep.dest.admits 4096 (readC true).age = true)
      ∧ ((arriving []).stale (arrivalOf (readC true) 0 (some (arriving []).ep.dest.nextId) (readM true)) = false)
      ∧ ((((arriving []).inPieces (readM true).ttag (readC true).skein (readM true).offset (readM true).len (kindOf (readM true).opc)).all fun x => x.2.2.isSome) = true)
      ∧ ((readM true).ord = true)
      ∧ ((readC true).ord = true)
      ∧ ((readC true).sync = true)) ∧
    ((epTakes ws5 0 ackC)
      ∧ (isReplyC ackC = true)
      ∧ (containerMsgs ackC = [ackM])
      ∧ (ackM.reply = true)
      ∧ (ackC.kind = 1)
      ∧ (ws5.matchReply Part.plocen ackC.src (if ackM.ord = true then some ackC.stream else none) ackM.seq = some ((held HeldAt.sent (Owner.store 6)).id, 0))
      ∧ (ws5.held? Part.plocen (held HeldAt.sent (Owner.store 6)).id = some (held HeldAt.sent (Owner.store 6)))
      ∧ ((held HeldAt.sent (Owner.store 6)).msgs = [sent (Owner.store 6)])
      ∧ ((sent (Owner.store 6)).answered = false)
      ∧ ((held HeldAt.sent (Owner.store 6)).hasCredit = true)
      ∧ ((∃ a b, (sent (Owner.store 6)).owner = Owner.desc a b) ∨ (∃ a, (sent (Owner.store 6)).owner = Owner.load a) ∨ ∃ a, (sent (Owner.store 6)).owner = Owner.store a)) := by
  unfold epTakes
  and_intros <;> first | with_reducible exact readC_crc _ | with_reducible exact ackC_crc | decide +kernel | simp [sent]

/-- Every clause of `Obligations.SourceTimers` that has hypotheses has them all met. -/
theorem test_witness_SourceTimers :
    ((ws7.held? Part.plocen 3 = some (held (HeldAt.backoff 100) (Owner.store 6)))
      ∧ ((held (HeldAt.backoff 100) (Owner.store 6)).loc = HeldAt.backoff 100)
      ∧ (100 ≤ ws7.now)
      ∧ (ws7.lifeOver (held (HeldAt.backoff 100) (Owner.store 6)) = false)
      ∧ (Part.plocen = Part.plocen)
      ∧ (ws7.epLive (held (HeldAt.backoff 100) (Owner.store 6)).plane = true)) ∧
    ((ws7.held? Part.ronpex 3 = some (mgH (HeldAt.backoff 100)))
      ∧ ((mgH (HeldAt.backoff 100)).loc = HeldAt.backoff 100)
      ∧ (100 ≤ ws7.now)
      ∧ (ws7.lifeOver (mgH (HeldAt.backoff 100)) = false)
      ∧ (Part.ronpex = Part.ronpex)
      ∧ (ws7.relayHeld (mgH (HeldAt.backoff 100)) = false)) ∧
    ((relayS.held? Part.ronpex 3 = some relH)
      ∧ (relH.loc = HeldAt.backoff 100)
      ∧ (100 ≤ relayS.now)
      ∧ (relayS.lifeOver relH = false)
      ∧ (Part.ronpex = Part.ronpex)
      ∧ (relayS.relayHeld relH = true)) ∧
    (((srcs HeldAt.sent id).held? Part.plocen 3 = some (held HeldAt.sent (Owner.store 6)))
      ∧ ((held HeldAt.sent (Owner.store 6)).loc = HeldAt.sent)
      ∧ ((held HeldAt.sent (Owner.store 6)).due ≤ (srcs HeldAt.sent id).now)
      ∧ ((held HeldAt.sent (Owner.store 6)).tmo + 1 < (held HeldAt.sent (Owner.store 6)).maxTmo)
      ∧ ((srcs HeldAt.sent id).lifeOver (held HeldAt.sent (Owner.store 6)) = false)
      ∧ (Part.plocen = Part.plocen)
      ∧ ((srcs HeldAt.sent id).epLive (held HeldAt.sent (Owner.store 6)).plane = true)) ∧
    (((srcs HeldAt.sent id).held? Part.ronpex 3 = some (mgH HeldAt.sent))
      ∧ ((mgH HeldAt.sent).loc = HeldAt.sent)
      ∧ ((mgH HeldAt.sent).due ≤ (srcs HeldAt.sent id).now)
      ∧ ((mgH HeldAt.sent).tmo + 1 < (mgH HeldAt.sent).maxTmo)
      ∧ ((srcs HeldAt.sent id).lifeOver (mgH HeldAt.sent) = false)
      ∧ (Part.ronpex = Part.ronpex)
      ∧ ((srcs HeldAt.sent id).relayHeld (mgH HeldAt.sent) = false)) ∧
    (((srcs HeldAt.sent late).held? Part.plocen 3 = some (late (held HeldAt.sent (Owner.store 6))))
      ∧ (3 < ((srcs HeldAt.sent late).source Part.plocen).nextId)
      ∧ ((late (held HeldAt.sent (Owner.store 6))).loc = HeldAt.sent)
      ∧ ((late (held HeldAt.sent (Owner.store 6))).due ≤ (srcs HeldAt.sent late).now)
      ∧ ((late (held HeldAt.sent (Owner.store 6))).maxTmo ≤ (late (held HeldAt.sent (Owner.store 6))).tmo + 1)) ∧
    (((srcs HeldAt.sent old).held? Part.plocen 3 = some (old (held HeldAt.sent (Owner.store 6))))
      ∧ (3 < ((srcs HeldAt.sent old).source Part.plocen).nextId)
      ∧ ((srcs HeldAt.sent old).lifeOver (old (held HeldAt.sent (Owner.store 6))) = true)) := by
  and_intros <;> decide +kernel

/-- Every clause of `Obligations.DestinationTimers` that has hypotheses has them all met. -/
theorem test_witness_DestinationTimers :
    ((SMap.find? (dests.destOf Part.plocen).recs 7 = some { base := 4, done := [], prog := [], last := 5 : RecvRec })
      ∧ ({ base := 4, done := [], prog := [], last := 5 : RecvRec }.prog = [])
      ∧ ({ base := 4, done := [], prog := [], last := 5 : RecvRec }.last + 2000000 ≤ dests.now)) := by
  and_intros <;> decide +kernel

end Sys2Proof.Tests.W06

namespace Sys2Proof.Tests.W07

/-- A state of the Ronpex with ports 3 and 4 in service, node 5 behind port 4, node 7 behind port 3 and node 9 local. -/
def rpS (now : Nat) (l : SMap Word) : State :=
  at_ now (l ++ [(psBase .ronpex 3 + 4, 2), (psBase .ronpex 4 + 4, 2), (portBase 3, 0), (portBase 4, 0), (Reg.drfStat, 0), (Reg.xbrPathmask 0, 0xFFFFFFFF),
    (Reg.xbrRt 5, 0x401), (Reg.xbrRt 7, 0x301), (Reg.xbrRt 9, 2), (Reg.sknCtl 2, 2), (Reg.sknPort 3, 2), (Reg.sknPort 4, 2), (Reg.xbrAnaCtl, 0), (Reg.budCtl, 0), (Reg.hubErrsum, 0),
    (Reg.fmhCtl, 1), (Reg.fmhEpoch, 0), (Reg.secDbg, 7)]) []
def ent (age : Nat) : EddyEnt := { c := { cont with age := age }, ingress := 1, since := 5, agent := none }
def framing : State := { rpS 16384 [] with rp := { (rpS 16384 []).rp with time := { set := some 32768 } } }
def eddying : State := { rpS 320000 [] with rp := { (rpS 320000 []).rp with eddy := [(4, [ent 7, { ent 5 with since := 319999 }])] } }
def portC : Container := sealed cont
theorem portC_crc : portC.crc = containerCrc portC := by unfold portC; exact sealed_crc _
def localC : Container := sealed { cont with dest := 9 }
theorem localC_crc : localC.crc = containerCrc localC := by unfold localC; exact sealed_crc _
def agent (c : Container) (l : SMap Word) : State :=
  let s := rpS 320000 (l ++ [(Reg.fmhRgnCtl 0, 0x401 + 2 * 16 + 14 ), (Reg.fmhRgnBase 0, 0), (Reg.fmhRgnSize 0, 4), (Reg.fmhHgrant 2, 0x40000000), (Reg.fmhChfence 0, 0), (Reg.fmhRelayCtl 0, 0)])
  { s with hbm := [(64, 17), (66, 18)], rp := { s.rp with fmem := { inbox := [(3, c)], hcnt := [(8, 5)], dest := { recs := [(7, { base := 4, done := [], prog := [], last := 5 })], nextId := 12 } } } }
def rdC : Container := { cont with dest := 9, opc := 2, payload := [] }
def rdM : Msg := { msgW with opc := 2, data := [] }
def wrC : Container := { cont with dest := 9, hank := 8 }
def wrM : Msg := { msgW with hank := 8 }
def hsC : Container := { cont with dest := 9, opc := 4, hank := 8, offset := 0 }
def hsM : Msg := { msgW with opc := 4, hank := 8, offset := 0 }
def atC : Container := { cont with dest := 9, opc := 0x20, hank := 8 }
def atM : Msg := { msgW with opc := 0x20, hank := 8 }
def host : Writer := { origin := 0, requester := 5 }
def rgn (l : SMap Word) (f : Fmem) : State := let s := rpS 320000 (l ++ [(Reg.fmhErr, 0), (Reg.mgtEvtCfg, 0), (Reg.mgtEvtOvf, 0), (Reg.logLost, 0)]); { s with rp := { s.rp with power := { supplyLost := false }, fmem := f } }
def ws1 : State := rgn [(Reg.fmhRgnCtl 7, 0), (Reg.sknCtl 3, 1)] {}
def ws2 : State := rgn [(Reg.fmhRgnCtl 7, 0), (Reg.sknCtl 3, 1)] { served := [(7, 4)] }
def ws3 : State := rgn [(Reg.fmhRgnCtl 7, 0)] {}
def ws4 : State := rgn [(Reg.fmhRelayCtl 5, 0), (Reg.fmhRelayStep 5, 16), (Reg.fmhHgrant 2, 0)] { hcnt := [(8, 100)], next := [(6, 9)] }
def holding : State := rgn [] { sealedRep := [{ at_ := 100, c := { cont with reply := true }, entry := 4 }] }

/-- Every clause of `Obligations.SlotsAndFrames` that has hypotheses has them all met. -/
theorem test_witness_SlotsAndFrames :
    ((oldestEnt ((rpS 320000 []).candidates 4 [ent 7, ent 5]) = some (ent 5))
      ∧ ((rpS 320000 []).portState Part.ronpex 4 ≠ 3)
      ∧ (((rpS 320000 []).link Part.ronpex 4).lpiExit = none)
      ∧ (((rpS 320000 []).link Part.ronpex 4).keys.tx = none ∨ ((rpS 320000 []).link Part.ronpex 4).keys.txCnt < 2 ^ 60)) ∧
    ((framing.now % 16384 = 0)
      ∧ (framing.rp.skeins.cmd = none)) ∧
    (((rpS 16380 []).now % 16384 ≠ 0)) := by
  and_intros <;> decide +kernel

/-- Every clause of `Obligations.OldestFirst` that has hypotheses has them all met. -/
theorem test_witness_OldestFirst :
    ((∀ y ∈ [ent 7, ent 5], y.c.age < 2 ^ 16 ∧ subMod 16 y.c.age 3 < 2 ^ 15)
      ∧ (oldestEnt [ent 7, ent 5] = some (ent 5))) := by
  and_intros <;> decide +kernel

/-- Every clause of `Obligations.ContainersRouted` that has hypotheses has them all met. -/
theorem test_witness_ContainersRouted :
    ((rpEnters (rpS 320000 []) 3 portC)
      ∧ ((rpS 320000 []).route (lookupNode portC) = Route.port 4)
      ∧ ((rpS 320000 []).eligible 4 = true)
      ∧ (1 ≤ portC.hops ∨ (rpS 320000 []).facesPlocen 4 = true)) ∧
    ((rpEnters (rpS 320000 []) 3 localC)
      ∧ ((rpS 320000 []).route (lookupNode localC) = Route.localMem)
      ∧ (localC.refl = false)
      ∧ (((containerMsgs localC).all fun m => !m.reply) = true)
      ∧ (containerMsgs localC ≠ [])) := by
  unfold rpEnters
  and_intros <;> first | with_reducible exact portC_crc | with_reducible exact localC_crc | decide +kernel

/-- Every clause of `Obligations.MemoryAgentRequest` that has hypotheses has them all met. -/
theorem test_witness_MemoryAgentRequest :
    ((agentServes (agent rdC []) 3 rdC rdM 3)
      ∧ (rdM.opc = 2)) ∧
    ((agentServes (agent wrC []) 3 wrC wrM 3)
      ∧ (wrM.opc = 1)) ∧
    ((agentServes (agent hsC []) 3 hsC hsM 3)
      ∧ (hsM.opc = 4)) ∧
    ((agentServes (agent atC []) 3 atC atM 3)
      ∧ (isAtomic atM.opc = true)) := by
  unfold agentServes
  and_intros <;> first | decide +kernel | exact ⟨5, by decide +kernel⟩

/-- Every clause of `Obligations.RegionsZeroed` that has hypotheses has them all met. -/
theorem test_witness_RegionsZeroed :
    ((rpTakes ws1 host)
      ∧ (ws1.activeTenant (bits 4 6 (BitVec.toNat (55 : Word))) = false)
      ∧ (ws1.flag Part.ronpex (Reg.fmhRgnCtl 7) 0 = false ∨ ws1.activeTenant (ws1.rgnSkein 7) = false)
      ∧ (ws1.rp.fmem.zeroing.contains 7 = false)) ∧
    ((rpTakes ws3 host)
      ∧ (ws3.activeTenant (bits 4 6 (BitVec.toNat (39 : Word))) = true ∨ ws3.flag Part.ronpex (Reg.fmhRgnCtl 7) 0 = true ∧ ws3.activeTenant (ws3.rgnSkein 7) = true)) ∧
    ((({ rgn [(Reg.fmhRgnCtl 7, 55), (Reg.fmhRgnBase 7, 1), (Reg.fmhRgnSize 7, 1)] { hcnt := [(3, 4)], zeroing := [7, 9], trained := 15 : Fmem } with hbm := [(5, 6), (2 ^ 21 + 5, 7), (2 ^ 22, 8)] }).rp.fmem.zeroing = [7, 9])
      ∧ (7 < 256)
      ∧ (({ rgn [(Reg.fmhRgnCtl 7, 55), (Reg.fmhRgnBase 7, 1), (Reg.fmhRgnSize 7, 1)] { hcnt := [(3, 4)], zeroing := [7, 9], trained := 15 : Fmem } with hbm := [(5, 6), (2 ^ 21 + 5, 7), (2 ^ 22, 8)] }).rgnUnits 7 = (1, 1))
      ∧ (1 + 1 ≤ 98304)
      ∧ (({ rgn [(Reg.fmhRgnCtl 7, 55), (Reg.fmhRgnBase 7, 1), (Reg.fmhRgnSize 7, 1)] { hcnt := [(3, 4)], zeroing := [7, 9], trained := 15 : Fmem } with hbm := [(5, 6), (2 ^ 21 + 5, 7), (2 ^ 22, 8)] }).rp.fmem.trained = 15)
      ∧ (({ rgn [(Reg.fmhRgnCtl 7, 55), (Reg.fmhRgnBase 7, 1), (Reg.fmhRgnSize 7, 1)] { hcnt := [(3, 4)], zeroing := [7, 9], trained := 15 : Fmem } with hbm := [(5, 6), (2 ^ 21 + 5, 7), (2 ^ 22, 8)] }).workHeld = false)
      ∧ (({ rgn [(Reg.fmhRgnCtl 7, 55), (Reg.fmhRgnBase 7, 1), (Reg.fmhRgnSize 7, 1)] { hcnt := [(3, 4)], zeroing := [7, 9], trained := 15 : Fmem } with hbm := [(5, 6), (2 ^ 21 + 5, 7), (2 ^ 22, 8)] }).rp.fmem.zeroLeft = 0 ∨ ({ rgn [(Reg.fmhRgnCtl 7, 55), (Reg.fmhRgnBase 7, 1), (Reg.fmhRgnSize 7, 1)] { hcnt := [(3, 4)], zeroing := [7, 9], trained := 15 : Fmem } with hbm := [(5, 6), (2 ^ 21 + 5, 7), (2 ^ 22, 8)] }).rp.fmem.zeroLeft + ({ rgn [(Reg.fmhRgnCtl 7, 55), (Reg.fmhRgnBase 7, 1), (Reg.fmhRgnSize 7, 1)] { hcnt := [(3, 4)], zeroing := [7, 9], trained := 15 : Fmem } with hbm := [(5, 6), (2 ^ 21 + 5, 7), (2 ^ 22, 8)] }).rp.fmem.total ≤ ({ rgn [(Reg.fmhRgnCtl 7, 55), (Reg.fmhRgnBase 7, 1), (Reg.fmhRgnSize 7, 1)] { hcnt := [(3, 4)], zeroing := [7, 9], trained := 15 : Fmem } with hbm := [(5, 6), (2 ^ 21 + 5, 7), (2 ^ 22, 8)] }).hbmCapacity)) ∧
    (((rgn [] { : Fmem }).rp.fmem.zeroing = [] ∨ (rgn [] { : Fmem }).rp.fmem.trained ≠ 15 ∨ (rgn [] { : Fmem }).workHeld = true ∨ 0 < (rgn [] { : Fmem }).rp.fmem.zeroLeft ∧ (rgn [] { : Fmem }).hbmCapacity < (rgn [] { : Fmem }).rp.fmem.zeroLeft + (rgn [] { : Fmem }).rp.fmem.total)) := by
  unfold rpTakes
  and_intros <;> decide +kernel

/-- Every clause of `Obligations.RelaysAndHeldReplies` that has hypotheses has them all met. -/
theorem test_witness_RelaysAndHeldReplies :
    ((rpTakes ws4 host)
      ∧ (ws4.relayBusy (bits 0 14 (BitVec.toNat (16392 : Word))) = false)
      ∧ (ws4.relayBusy (ws4.fld Part.ronpex (Reg.fmhRelayCtl 5) 0 14) = false)) ∧
    ((holding.rp.fmem.sealedRep = [{ at_ := 100, c := { cont with reply := true }, entry := 4 : SealedReply }])
      ∧ ({ at_ := 100, c := { cont with reply := true }, entry := 4 : SealedReply }.at_ ≤ holding.now)
      ∧ (holding.route { at_ := 100, c := { cont with reply := true }, entry := 4 : SealedReply }.c.dest = Route.port 4)
      ∧ (holding.eligible 4 = true)) := by
  unfold rpTakes
  and_intros <;> decide +kernel

end Sys2Proof.Tests.W07

namespace Sys2Proof.Tests.W08
open Sys2Proof.Tests.W06 Sys2Proof.Tests.W07

def drafty (l : SMap Word) (w : Warp) : State := let s := rpS 320000 (l ++ [(Reg.drfCtl, 0), (Reg.drfStart, 100), (Reg.mgtEvtCfg, 0), (Reg.mgtEvtOvf, 0), (Reg.logLost, 0)]); { s with rp := { s.rp with power := { supplyLost := false }, warp := w } }
def ws1 : State := drafty [] { accepted := 4 }
def ws2 : State := drafty [(Reg.drfStart, 10)] { accepted := 4 }
def ws3 : State := drafty [] { accepted := 0 }
def epDr (l : SMap Word) (w : EpWarp) : State := let s := ep5 320000 (l ++ [(Reg.epSeqWctl, 0), (Reg.epSeqWstart, 100)]); { s with ep := { s.ep with warp := w } }
def ws4 : State := epDr [(Reg.epSeqWstart, 10)] {}
def ws5 : State := drafty [] { accepted := 6 }
def goAt (w : Warp) : State :=
  let s := drafty [(Reg.sknCtl 2, 0), (Reg.drfStat, 0)] { w with fencedAt := [(2, List.range 192)] }
  { s with now := 16384 * 20, rp := { s.rp with units := { s.rp.units with awake := 15 } } }
def ws6 : State := goAt { go := some (2, 20), accepted := 4 }
def ws7 : State := goAt { go := some (2, 20), accepted := 0 }
def ws8 : State := goAt { stop := true }
def epGo (w : EpWarp) : State :=
  let s := epDr ((List.range 6).map fun k => (psBase .plocen (k + 2) + 4, 2)) w
  { s with now := 16384 * 20, ep := { s.ep with released := (List.range 8).map fun k => (k, 0) } }
def ws9 : State := epGo { go := some (2, 20) }
/-- A cell of phase 9 in skein 2. -/
def cell9 : WarpCell := sealedCell { dir := false, ctrl := 0, node := 7, skein := 2, epoch := 0, phase := 9, draft := 0, inst := 4, round := 2, cell := 0, slice := 0
                                     status := 0, count := 1, opdata := 0, crc := 0, payload := [1, 2, 3, 4] }
theorem cell9_crc : cell9.crc = cellCrc cell9 := by unfold cell9; exact sealedCell_crc _
/-- Slot 2,176 of port 3 has an entry, and phase 9 a record with members. -/
def moving (e : BitVec 16) : State := drafty [(Reg.drfStat, 8), (draftBase 0 0 + 52228, (e ++ (0 : BitVec 16))), (draftBase 0 0 + 0x1A000 + 32 * 9, 3), (draftBase 0 0 + 0x1A000 + 32 * 9 + 4, 0x30100),
  (draftBase 0 0 + 0x1A000 + 32 * 9 + 8, 0x0FFF0000), (draftBase 0 0 + 0x1A000 + 32 * 9 + 12, 0), (draftBase 0 0 + 0x1A000 + 32 * 9 + 16, 64)] {}
def ph9 : PhaseRec := { kind := 3, op := 0, fin := 0, fout := 0, mode := 0, pattern := 1, members := 3, first := 0, last := 0x0FFF, spGroup := 0, shOff := 0, contrib := 64, result := 0, planes := 0, shRounds := 0, topkK := 0, topkL := 0, rsv := 0 }
def ph9s : PhaseRec := { ph9 with spGroup := 255 }
def ctx9 (t : Nat) : AccCtx := { phase := 9, inputs := 1, empties := 0, missing := 0, count := 1, agree := true, head := none, node := 7, opdata := 0, lowRound := 2, kept := [], elems := [], emitAt := some t, status := 0, out := [cell9, cell9] }
def emitting (t : Nat) : State :=
  let s := drafty [(Reg.drfStat, 8), (draftBase 0 0 + 52224 + 72 + 4, 0xA005 * 65536), (draftBase 0 0 + 0x1A000 + 32 * 9, 3), (draftBase 0 0 + 0x1A000 + 32 * 9 + 4, 0x30100),
    (draftBase 0 0 + 0x1A000 + 32 * 9 + 8, 0x0FFF0000), (draftBase 0 0 + 0x1A000 + 32 * 9 + 12, 255), (draftBase 0 0 + 0x1A000 + 32 * 9 + 16, 64)] {}
  { s with rp := { s.rp with spindles := [(5, { ctxs := [ctx9 t] })] } }

/-- A draft runs on the Plocen, and its phase 9 brings results. -/
def landing (w : EpWarp) : State :=
  let b := 0x210000 + 32 * 9
  epDr [(Reg.epSecAssign, 2), (Reg.epSeqWstat, 8), (Reg.epSeqWport 0, 0), (0x200000 + 34816, 0x10091009), (b, 3), (b + 4, 0x30100), (b + 8, 0x0FFF0000), (b + 16, 64), (b + 20, 64), (b + 24, 1)]
    w
def run2 : Run := { pattern := 1, inst := 4, start := 0, next := [(0, 2, 0)], orphans := [], cur := [(0, 0, 2)], replay := [], checks := [], history := [], dealt := [], passed := [], done := [] }
def bind9 : Binding := { id := 3, ring := 1, sub := 0, raw := 0x1000 * 2 ^ 384, first := 9, last := 9, pattern := 1, inst := some 4, landed := [], shadowed := [], failed := none, landing := 0, code := none }
def lw (b : Binding) : EpWarp := { runs := [run2], binds := [b], nextId := 6 }
def st9 (n : Nat) : WarpCell := sealedCell { cell9 with status := n }
theorem st9_crc (n : Nat) : (st9 n).crc = cellCrc (st9 n) := by unfold st9; exact sealedCell_crc _
def swo (k : Nat) (l : List (Nat × Nat × Nat)) : SwitchOrder := { kind := k, cls := 0, plane := 0, unitType := 0, unit := 0, gen := 0, skeins := 4, faultFrame := 16, effective := 19, pairs := l }
def trayMsg : MgmtSource := { port := 255, node := 0, tray := true }
def onFrame (s : State) : State := { s with now := 16384 * 20 }
def swr (e : Nat) (k : Nat) (l : List (Nat × Nat × Nat)) : State := onFrame <| drafty [(Reg.drfStat, 8), (Reg.drfFault, 0), (Reg.drfEffect, 0)] { orders := [{ o := { swo k l with effective := e }, own := false }] }
def ws10 : State := drafty [(Reg.xbrCtl, 0)] {}
def epOrd (l : List SwitchOrder) : State := epDr [(Reg.epSecAssign, 2), (Reg.epSeqWnode 0, 0x7F01), (Reg.epSeqWport 0, 3), (Reg.epSeqWport 1, 3), (Reg.epSeqWfault, 0)] { orders := l, primary := 2 }
def ws11 : State := swr 19 0 [(0, 4, 30)]
def ws12 : State := onFrame (epOrd [swo 2 []])
def ws13 : State := onFrame (epOrd [swo 3 []])

/-- Every clause of `Obligations.DraftOrders` that has hypotheses has them all met. -/
theorem test_witness_DraftOrders :
    ((rpTakes ws1 host)
      ∧ (bit 3 (BitVec.toNat (42 : Word)) = true)
      ∧ (bit 4 (BitVec.toNat (42 : Word)) = false)
      ∧ (frameDue ws1.now (ws1.reg Part.ronpex Reg.drfStart) = false)
      ∧ (bit (bits 0 3 (BitVec.toNat (42 : Word))) ws1.rp.warp.accepted = true)) ∧
    ((rpTakes ws2 host)
      ∧ (bit 3 (BitVec.toNat (42 : Word)) = true)
      ∧ (bit 4 (BitVec.toNat (42 : Word)) = false)
      ∧ (frameDue ws2.now (ws2.reg Part.ronpex Reg.drfStart) = true ∨ bit (bits 0 3 (BitVec.toNat (42 : Word))) ws2.rp.warp.accepted = false)) ∧
    ((rpTakes ws1 host)
      ∧ (bit 3 (BitVec.toNat (16 : Word)) = false)
      ∧ (bit 4 (BitVec.toNat (16 : Word)) = true)) ∧
    (((epDr [] { : EpWarp }).attOn = true)
      ∧ (bit 3 (BitVec.toNat (10 : Word)) = true)
      ∧ (bit 4 (BitVec.toNat (10 : Word)) = false)
      ∧ (frameDue (epDr [] { : EpWarp }).now ((epDr [] { : EpWarp }).reg Part.plocen Reg.epSeqWstart) = false)) ∧
    ((ws4.attOn = true)
      ∧ (bit 3 (BitVec.toNat (10 : Word)) = true)
      ∧ (bit 4 (BitVec.toNat (10 : Word)) = false)
      ∧ (frameDue ws4.now (ws4.reg Part.plocen Reg.epSeqWstart) = true)) ∧
    (((epDr [] { : EpWarp }).attOn = true)
      ∧ (bit 3 (BitVec.toNat (16 : Word)) = false)
      ∧ (bit 4 (BitVec.toNat (16 : Word)) = true)) := by
  unfold rpTakes
  and_intros <;> decide +kernel

/-- Every clause of `Obligations.DraftActivated` that has hypotheses has them all met. -/
theorem test_witness_DraftActivated :
    ((rpTakes ws5 host)) ∧
    ((ws6.now % 16384 = 0)
      ∧ (2 < 8)
      ∧ (ws6.rp.warp.stop = false)
      ∧ (ws6.rp.warp.go = some (2, 20))
      ∧ (frameDue ws6.now 20 = true)
      ∧ (ws6.changesActive 2 = false)
      ∧ (bit 2 ws6.rp.warp.accepted = true)
      ∧ (∀ n < 96, ws6.spOut n = false)
      ∧ (∀ p ∈ ws6.fencedPorts, (SMap.look (fun _ => []) ws6.rp.warp.fencedAt 2).contains p = true)) ∧
    ((ws7.now % 16384 = 0)
      ∧ (2 < 8)
      ∧ (ws7.rp.warp.stop = false)
      ∧ (ws7.rp.warp.go = some (2, 20))
      ∧ (frameDue ws7.now 20 = true)
      ∧ (bit 2 ws7.rp.warp.accepted = false ∨ ws7.changesActive 2 = true)) ∧
    ((ws8.now % 16384 = 0)
      ∧ (2 < 8)
      ∧ (ws8.rp.warp.stop = true)
      ∧ (ws8.rp.warp.go = none)) ∧
    ((ws9.now % 16384 = 0)
      ∧ (2 < 8)
      ∧ (ws9.ep.warp.stop = false)
      ∧ (ws9.ep.warp.go = some (2, 20))
      ∧ (frameDue ws9.now 20 = true)
      ∧ (ws9.ep.warp.binds = [])
      ∧ (∀ p < 8, ws9.epLive p = true ∨ ws9.usesPort 2 p = false)) := by
  unfold rpTakes
  and_intros <;> decide +kernel

/-- Every clause of `Obligations.CellsMove` that has hypotheses has them all met. -/
theorem test_witness_CellsMove :
    (((moving 16388).carries 3 = true)
      ∧ ((moving 16388).anaPort 3 = false)
      ∧ ((moving 16388).rxAt (moving 16388).now 3 = 1)
      ∧ ((moving 16388).slotLost Part.ronpex 3 = false)
      ∧ ((moving 16388).expectsSkein 3 cell9.skein = true)
      ∧ ((moving 16388).rp.warp.heard.contains 3 = false)
      ∧ (cell9.crc = cellCrc cell9)
      ∧ (cell9.skein = 0 ∨ (moving 16388).skeinState cell9.skein ≠ 1)
      ∧ ((moving 16388).flag Part.ronpex (Reg.sknPort 3) 6 = false)
      ∧ (cell9.epoch = (moving 16388).epoch Part.ronpex % 256)
      ∧ ((moving 16388).pkgPhase (moving 16388).rdSlot cell9.phase = some ph9)
      ∧ (ph9.shadow = false)
      ∧ (ph9.kind ≠ 1)
      ∧ (entryAction ((moving 16388).rdAt (moving 16388).now 3) = 2)) ∧
    (((moving 24581).carries 3 = true)
      ∧ ((moving 24581).anaPort 3 = false)
      ∧ ((moving 24581).rxAt (moving 24581).now 3 = 1)
      ∧ ((moving 24581).slotLost Part.ronpex 3 = false)
      ∧ ((moving 24581).expectsSkein 3 cell9.skein = true)
      ∧ ((moving 24581).rp.warp.heard.contains 3 = false)
      ∧ (cell9.crc = cellCrc cell9)
      ∧ (cell9.skein = 0 ∨ (moving 24581).skeinState cell9.skein ≠ 1)
      ∧ ((moving 24581).flag Part.ronpex (Reg.sknPort 3) 6 = false)
      ∧ (cell9.epoch = (moving 24581).epoch Part.ronpex % 256)
      ∧ ((moving 24581).pkgPhase (moving 24581).rdSlot cell9.phase = some ph9)
      ∧ (ph9.shadow = false)
      ∧ (ph9.kind ≠ 1)
      ∧ (entryAction ((moving 24581).rdAt (moving 24581).now 3) = 3)
      ∧ ((moving 24581).phaseAt (moving 24581).rdSlot (((moving 24581).portLogical 3).getD 3 / 12) (slotOf (moving 24581).now) = some 9)) ∧
    ((((emitting 400000).spindle 5).ctxs = [ctx9 400000])
      ∧ ((ctx9 400000).emitAt = some 400000)
      ∧ ((ctx9 400000).out = [cell9, cell9])
      ∧ ((emitting 400000).now < 400000)) ∧
    ((((emitting 300000).spindle 5).ctxs = [ctx9 300000])
      ∧ ((ctx9 300000).emitAt = some 300000)
      ∧ ((ctx9 300000).out = [cell9, cell9])
      ∧ (300000 ≤ (emitting 300000).now)
      ∧ ((emitting 300000).spLogical 5 = some 5)
      ∧ ((emitting 300000).pkgPhase (emitting 300000).rdSlot cell9.phase = some ph9s)
      ∧ (ph9s.shadow = false)
      ∧ (ph9s.spGroup = 255)) := by
  and_intros <;> first | with_reducible exact cell9_crc | decide +kernel | rfl

/-- Every clause of `Obligations.CellsLand` that has hypotheses has them all met. -/
theorem test_witness_CellsLand :
    (((landing (lw bind9)).portUp Part.plocen 0 = true)
      ∧ ((landing (lw bind9)).ptRunning = true)
      ∧ ((landing (lw bind9)).slotLost Part.plocen 0 = false)
      ∧ (entryRx ((landing (lw bind9)).ptNow (landing (lw bind9)).now 0) = 1)
      ∧ ((st9 0).crc = cellCrc (st9 0))
      ∧ ((st9 0).epoch = (landing (lw bind9)).epoch Part.plocen % 256)
      ∧ ((st9 0).skein = (landing (lw bind9)).epSkein)
      ∧ ((landing (lw bind9)).ptPhase ((landing (lw bind9)).ptSlot 0) 9 = (landing (lw bind9)).ptPhase ((landing (lw bind9)).ptSlot 0) (st9 0).phase)
      ∧ (((landing (lw bind9)).ptPhase ((landing (lw bind9)).ptSlot 0) 9).members ≠ 0)
      ∧ (((landing (lw bind9)).ptPhase ((landing (lw bind9)).ptSlot 0) 9).kind ≠ 1)
      ∧ (((landing (lw bind9)).ptPhase ((landing (lw bind9)).ptSlot 0) 9).kind ≠ 5)
      ∧ (((landing (lw bind9)).ptPhase ((landing (lw bind9)).ptSlot 0) 9).op ≠ 9)
      ∧ (((landing (lw bind9)).ptPhase ((landing (lw bind9)).ptSlot 0) 9).op ≠ 10)
      ∧ (((landing (lw bind9)).ptPhase ((landing (lw bind9)).ptSlot 0) 9).op ≠ 11)
      ∧ ((landing (lw bind9)).run? ((landing (lw bind9)).ptPhase ((landing (lw bind9)).ptSlot 0) 9).pattern = some run2)
      ∧ (run2.inst = (st9 0).inst)
      ∧ ((st9 0).status = 0)
      ∧ ((landing (lw bind9)).bindFor ((landing (lw bind9)).ptPhase ((landing (lw bind9)).ptSlot 0) 9).pattern run2.inst (st9 0).phase = some bind9)
      ∧ (2 = fullRound (run2.roundOn 0) (st9 0).round)
      ∧ ((landing (lw bind9)).outPlace ((landing (lw bind9)).ptSlot 0) bind9 (st9 0).phase 2 (st9 0).slice (st9 0).cell = (128, 64))
      ∧ (64 ≠ 0)) ∧
    (((landing (lw bind9)).portUp Part.plocen 0 = true)
      ∧ ((landing (lw bind9)).ptRunning = true)
      ∧ ((landing (lw bind9)).slotLost Part.plocen 0 = false)
      ∧ (entryRx ((landing (lw bind9)).ptNow (landing (lw bind9)).now 0) = 1)
      ∧ ((st9 1).crc = cellCrc (st9 1))
      ∧ ((st9 1).epoch = (landing (lw bind9)).epoch Part.plocen % 256)
      ∧ ((st9 1).skein = (landing (lw bind9)).epSkein)
      ∧ ((landing (lw bind9)).ptPhase ((landing (lw bind9)).ptSlot 0) 9 = (landing (lw bind9)).ptPhase ((landing (lw bind9)).ptSlot 0) (st9 1).phase)
      ∧ (((landing (lw bind9)).ptPhase ((landing (lw bind9)).ptSlot 0) 9).members ≠ 0)
      ∧ (((landing (lw bind9)).ptPhase ((landing (lw bind9)).ptSlot 0) 9).kind ≠ 1)
      ∧ (((landing (lw bind9)).ptPhase ((landing (lw bind9)).ptSlot 0) 9).kind ≠ 5)
      ∧ (((landing (lw bind9)).ptPhase ((landing (lw bind9)).ptSlot 0) 9).op ≠ 9)
      ∧ (((landing (lw bind9)).ptPhase ((landing (lw bind9)).ptSlot 0) 9).op ≠ 10)
      ∧ (((landing (lw bind9)).ptPhase ((landing (lw bind9)).ptSlot 0) 9).op ≠ 11)
      ∧ ((landing (lw bind9)).run? ((landing (lw bind9)).ptPhase ((landing (lw bind9)).ptSlot 0) 9).pattern = some run2)
      ∧ (run2.inst = (st9 1).inst)
      ∧ ((st9 1).status = 1)) ∧
    (((landing (lw bind9)).portUp Part.plocen 0 = true)
      ∧ ((landing (lw bind9)).ptRunning = true)
      ∧ ((landing (lw bind9)).slotLost Part.plocen 0 = false)
      ∧ (entryRx ((landing (lw bind9)).ptNow (landing (lw bind9)).now 0) = 1)
      ∧ ((st9 2).crc = cellCrc (st9 2))
      ∧ ((st9 2).epoch = (landing (lw bind9)).epoch Part.plocen % 256)
      ∧ ((st9 2).skein = (landing (lw bind9)).epSkein)
      ∧ ((landing (lw bind9)).ptPhase ((landing (lw bind9)).ptSlot 0) 9 = (landing (lw bind9)).ptPhase ((landing (lw bind9)).ptSlot 0) (st9 2).phase)
      ∧ (((landing (lw bind9)).ptPhase ((landing (lw bind9)).ptSlot 0) 9).members ≠ 0)
      ∧ (((landing (lw bind9)).ptPhase ((landing (lw bind9)).ptSlot 0) 9).kind ≠ 1)
      ∧ (((landing (lw bind9)).ptPhase ((landing (lw bind9)).ptSlot 0) 9).kind ≠ 5)
      ∧ (((landing (lw bind9)).ptPhase ((landing (lw bind9)).ptSlot 0) 9).op ≠ 9)
      ∧ (((landing (lw bind9)).ptPhase ((landing (lw bind9)).ptSlot 0) 9).op ≠ 10)
      ∧ (((landing (lw bind9)).ptPhase ((landing (lw bind9)).ptSlot 0) 9).op ≠ 11)
      ∧ ((landing (lw bind9)).run? ((landing (lw bind9)).ptPhase ((landing (lw bind9)).ptSlot 0) 9).pattern = some run2)
      ∧ (run2.inst = (st9 2).inst)
      ∧ ((st9 2).status = 2)) := by
  and_intros <;> first | with_reducible exact st9_crc _ | decide +kernel

/-- Every clause of `Obligations.SwitchOrders` that has hypotheses has them all met. -/
theorem test_witness_SwitchOrders :
    ((ws10.rpMgmtOk trayMsg 4 = true)
      ∧ (ws10.staleOrder (swo 2 []) = none)
      ∧ (ws10.rp.warp.applied.any (sameApplied (swo 2 [])) = false)
      ∧ (ws10.rp.warp.seen.any (sameApplied (swo 2 [])) = false)) ∧
    (((epOrd []).epMgmtOk { port := 0, node := 32513, tray := false : MgmtSource }.port { port := 0, node := 32513, tray := false : MgmtSource }.node = true)
      ∧ ((epOrd []).ep.warp.seenOrders.contains (swo 2 []) = false)
      ∧ (bit (epOrd []).epSkein (swo 2 []).skeins.toNat = true)) ∧
    (((epOrd []).now % 16384 ≠ 0)) ∧
    (((swr 21 2 []).now % 16384 = 0)
      ∧ ((swr 21 2 []).rp.warp.orders = [{ o := { swo 2 [] with effective := 21 }, own := false : PendOrder }])
      ∧ (frameDue (swr 21 2 []).now { o := { swo 2 [] with effective := 21 }, own := false : PendOrder }.o.effective = false)) ∧
    (((swr 19 2 []).now % 16384 = 0)
      ∧ ((swr 19 2 []).rp.warp.orders = [{ o := swo 2 [], own := false : PendOrder }])
      ∧ (frameDue (swr 19 2 []).now { o := swo 2 [], own := false : PendOrder }.o.effective = true)
      ∧ ({ o := swo 2 [], own := false : PendOrder }.o.plane = (swr 19 2 []).plane)
      ∧ ((swr 19 2 []).running = true)
      ∧ ({ o := swo 2 [], own := false : PendOrder }.o.kind = 2)) ∧
    ((ws11.now % 16384 = 0)
      ∧ (ws11.rp.warp.orders = [{ o := swo 0 [(0, 4, 30)], own := false : PendOrder }])
      ∧ (frameDue ws11.now { o := swo 0 [(0, 4, 30)], own := false : PendOrder }.o.effective = true)
      ∧ ({ o := swo 0 [(0, 4, 30)], own := false : PendOrder }.o.plane = ws11.plane)
      ∧ (ws11.running = true)
      ∧ ({ o := swo 0 [(0, 4, 30)], own := false : PendOrder }.o.kind = 0)
      ∧ ({ o := swo 0 [(0, 4, 30)], own := false : PendOrder }.o.pairs = [(0, 4, 30)])
      ∧ (4 < 96)) ∧
    ((ws12.now % 16384 = 0)
      ∧ (ws12.ep.warp.orders = [swo 2 []])
      ∧ (frameDue ws12.now (swo 2 []).effective = true)
      ∧ (ws12.ep.warp.runs = [])
      ∧ ((swo 2 []).kind = 2)
      ∧ (ws12.ep.warp.binds = [])) ∧
    ((ws13.now % 16384 = 0)
      ∧ (ws13.ep.warp.orders = [swo 3 []])
      ∧ (frameDue ws13.now (swo 3 []).effective = true)
      ∧ (ws13.ep.warp.runs = [])
      ∧ ((swo 3 []).kind = 3)
      ∧ ((swo 3 []).plane < 8)
      ∧ (ws13.ep.warp.primary < 8)) := by
  and_intros <;> decide +kernel

end Sys2Proof.Tests.W08

namespace Sys2Proof.Tests.W10

def host : Writer := { origin := 0, requester := 5 }
/-- A port of a part in a state, with its link and further registers. -/
def lks (p : Part) (port st : Nat) (k : Link) (l : SMap Word) : State :=
  let a := psBase p port
  let m := l ++ [(a + 4, BitVec.ofNat 32 st), (a + 8, 0x76543210), (a + 0xC, 8), (a, 1), (a + 0x78, 100), (portBase 3, 0), (Reg.logLost, 0), (Reg.mgtEvtCfg, 0), (Reg.mgtEvtOvf, 0), (Reg.hubErrsum, 0)]
  let s := match p with | .ronpex => at_ 320000 m [] | .plocen => at_ 320000 [] m
  s.modLink p port fun _ => k
/-- A message head whose CRC checks, and one whose CRC does not. -/
def lm (m : LmcMsg) : Lmc := { seq := 9, crc := lmcCrc m 9 }
def bad : Lmc := { seq := 9, crc := 65536 }
def farI : Identity := { serial := 0x1122334455667788, port := 7, plocen := true }
def drk (p : Part) (port : Nat) := lks p port 2 { darkAt := some 319000 } []
def ws1 : State := lks .ronpex 3 2 {} []
def ws2 : State := lks .plocen 3 2 {} []
def ws3 : State := lks .ronpex 3 1 {} []
def ws4 : State := lks .plocen 3 1 {} []
def known (p : Part) (st : Nat) : State := lks p 3 st { keys := { tx := some 5, rx := some 6 } } [(psBase p 3 + 0x10, 0x55667788), (psBase p 3 + 0x14, 0x11223344), (psBase p 3 + 0x18, 0x307)]
def ws5 : State := lks .plocen 3 2 { drive := [(7, 0xFF00)] } []
def ws6 : State := lks .plocen 3 1 { step := 2, rxStep := 3 } []
def sy (p : Part) (st : Nat) (k : Link) : State := lks p 3 st { k with syncSent := some (9, 1000), syncGot := some (4000, 900, 7) } [(Reg.timCtl, 0x300), (Reg.drfLdly 3, 0x0909), (Reg.epSeqWdly 3, 0x0909)]
def src0 (s : State) : State := { s with rp := { s.rp with time := { s.rp.time with source := 0 } } }
def lkd (s : State) : State := { s with rp := { s.rp with time := { s.rp.time with locked := true } }, ep := { s.ep with time := { s.ep.time with locked := true } } }
def ws7 : State := src0 (sy .ronpex 2 (({ farTime := some (true, true, 2) } : Link)))
def ws8 : State := sy .plocen 2 { farTime := some (true, true, 15) }
def ws9 : State := lkd (sy .ronpex 2 { delayBad := 2, farTime := some (true, true, 2) })
def ws10 : State := lkd (sy .plocen 2 { delayBad := 2, farTime := some (true, true, 2) })
def ws11 : State := lks .ronpex 3 0 {} []
def ws12 : State := lks .plocen 3 1 { step := 4 } []
def ws13 : State := lks .ronpex 3 4 {} []
/-- A codeword whose places 2 and 3 were received wrong, and one that cannot be corrected. -/
def two : RxWord := { lane := 2, place := 1, symbols := (List.replicate 136 0).set 2 5 |>.set 3 9 }
def far5 : RxWord := { lane := 6, place := 3, symbols := (List.range 136) }
def far6 : RxWord := { far5 with lane := 1, place := 0 }
def grp (t : Nat) (l : List RxWord) : RxGroup := { start := t, lit := true, burst := false, words := l }
def ws14 : State := lks .plocen 3 2 { badRun := some (319936, 15) } []
def gone (p : Part) : State := lks p 3 2 { laneDead := 4 } [(psBase p 3 + 0xC, 0x18)]
def ws15 : State := lks .plocen 3 4 {} []
def sw (asked acked : Bool) (f : Nat) (p : Part) : State := lks p 3 2 { swap := some { lane := 2, reason := 0, frame := f, asked := asked, acked := acked } } []
def ws16 : State := sw true false 30 .ronpex
def dead (p : Part) (k : Link) : State := lks p 3 2 { k with laneDead := 4 } []
def rvi : Reval := { since := 0, temp := 3, cls := false, retuned := false, todo := [], corr := [] }
def ws17 : State := dead .ronpex { low := [(2, 3)], reval := some rvi }
def ws18 : State := dead .plocen { low := [(2, 3)] }
def ws19 : State := lks .ronpex 3 2 { low := [(2, 3)] } []
def ws20 : State := sw true false 21 .ronpex
def ws21 : State := sw true true 19 .ronpex
def ws22 : State := sw true false 19 .ronpex
def ws23 : State := sw false true 19 .plocen
def ten : List Int := [1, -100, -89, -90, -91, 5, 6, 7, 8, 9]
def rv (p : Part) (k : Link) : State := lks p 3 2 k [(engineBase (portEngine 3), 4), (engineBase (portEngine 3) + 4, 0), (Reg.epOptCtl, 4), (Reg.epOptStat, 0), (Reg.timPwrStat, 0)]
def ws24 : State := rv .ronpex { cls := true }
def ws25 : State := rv .plocen { cls := true }
def rvl : Reval := { since := 5, temp := -3, cls := true, retuned := false, todo := [1, 2], corr := [] }
def ws26 : State := rv .ronpex ({ cls := true, reval := some rvl } : Link)
def ws27 : State := rv .plocen ({ cls := true, reval := some rvl } : Link)
def tr (p : Part) (st : Nat) (k : Link) (l : SMap Word) : State := let s := lks p 3 st k (l ++ [(engineBase (portEngine 3), 6), (Reg.epOptCtl, 6)]); { s with now := 2 ^ 40, rp := { s.rp with units := { s.rp.units with awake := 15 } } }
def ws28 : State := tr .ronpex 1 { step := 2, rxStep := 2, farStep := 3 } []
def ws29 : State := tr .plocen 1 { step := 5, rxStep := 5, farStep := 5 } []
def ws30 : State := tr .plocen 1 { step := 3, rxStep := 3 } []
def ws31 : State := tr .plocen 1 { step := 6, rxStep := 6 } []
def ws32 : State := tr .ronpex 1 { step := 6, rxStep := 6 } []
def ws33 : State := tr .ronpex 1 { step := 8, rxStep := 8 } []
def ws34 : State := tr .plocen 1 { step := 8, rxStep := 8 } [(psBase .plocen 3, 2)]
def ws35 : State := tr .ronpex 1 { step := 8 } []
def ws36 : State := tr .plocen 1 { step := 7, keys := { own := some 3 } } []
def ws37 : State := tr .ronpex 5 { downAt := some 5 } []
def ws38 : State := tr .plocen 5 { downAt := some 5 } []
def pm (p : Part) (st m : Nat) : State := let s := tr p st { keys := { tx := some 4 } } [(psBase p 3, BitVec.ofNat 32 m), (psBase p 3 + 0x50, 3), (psBase p 3 + 0x80, 3)]; { att s live with rp := { s.rp with power := { s.rp.power with supplyLost := false } } }
def four (s : State) : State := { s with ep := { s.ep with att := { s.ep.att with modules := 4 } } }
def ws39 : State := four (pm .plocen 0 0)
def ws40 : State := tr .ronpex 2 { fillRun := 64 } []
def ws41 : State := tr .plocen 2 { fillRun := 64 } []
def ws42 : State := tr .plocen 2 { } []
def ws43 : State := tr .plocen 5 { lmcQ := [.key 6 3 []] } []
def abq : State := { tr .ronpex 1 { step := 7, keys := { failed := some 7 }, lmcAt := some 5, lmcQ := [.key 7 0 (leBytes 8 4), .state 3] } [] with now := 16384 * 9 + 99 }
def keyB : List Byte := [1, 2, 3, 4, 5, 6, 7, 8]
def ws44 : State := tr .ronpex 1 { step := 6 } []
def ws45 : State := tr .plocen 1 { step := 6 } []
def ws46 : State := tr .plocen 1 { step := 7 } []
def kap (p : Part) : State := tr p 1 { step := 7, keys := { own := some 0, cert := [1, 0, 5], eph := [1, 0, 6], sig := [3, 0, 1, 1, 1, 1, 1, 1] } } [(psBase p 3 + 0x10, 0x55667788), (psBase p 3 + 0x14, 0x11223344), (psBase p 3 + 0x18, 0x307)]
def rk (p : Part) (k : LinkKeys) : State := tr p 2 { keys := k } []
def kf (t : BitVec 64) : Lmc := lm (.key 6 3 (leBytes 8 t.toNat))
def tagged (p : Part) : State := rk p { rxDone := [(0x1003, 0x7777777777777777777, true)] }
def ws47 : State := rk .ronpex { tx := some 3, txCnt := 2 ^ 60 }
def ws48 : State := rk .plocen { tx := some 3, txCnt := 2 ^ 60 }
def ws49 : State := rk .ronpex { fresh := some (3, 4) }
def ws50 : State := rk .plocen { fresh := some (3, 4), starter := true }
def ws51 : State := rk .plocen { switch := some (2, 40, false) }
def ws52 : State := rk .plocen { fresh := some (3, 4), switch := some (2, 0, true) }
def ws53 : State := rk .ronpex { fresh := some (3, 4), switch := some (2, 0, true) }
def ok2 (n : Nat) : OldKeys := { tx := 7, rx := 8, txCnt := 5, rxCnt := 6, gen := 9, since := 4, fresh := (3, 4), tried := n }
def probing (p : Part) (n : Nat) : State := rk p { tx := some 3, rx := some 4, old := some (ok2 n) }
def ws54 : State := rk .ronpex { rekeyAt := some 4 }
def ws55 : State := rk .plocen { rekeyAt := some 4 }
def las (f : Lasers) (l : SMap Word) : State :=
  let s := lks .ronpex 3 2 {} (l ++ [(engineBase 2 + 4, 0x11), (engineBase 2, 8), (Reg.lasStat 1, 1), (Reg.lasErr 1, 0), (Reg.lasAccess 1, 0), (Reg.lasData 1, 77)])
  { s with now := 16384 * 2 ^ 20, rp := { s.rp with lasers := f, power := { s.rp.power with supplyLost := false } } }
def ws56 : State := las { refs := [(feedKey 2 3 false, 50)] } []
def ws57 : State := las { refs := [(feedKey 2 4 true, 50)] } []
def ws58 : State := las { refs := [(feedKey 2 4 false, 50)], steady := [(feedKey 2 4 false, 5)] } []
def ws59 : State := las { steady := [(feedKey 2 4 false, 5)] } []
def ws60 : State := las { steady := [(feedKey 2 4 false, 5)], follow := [(lasKey 0 4, 6)] } []
def ws61 : State := lks .plocen 0 2 {} [(Reg.epOptCtl, 0)]
def bias (g m : Nat) : State := { lks .plocen 0 2 {} [(psBase .plocen 0 + 0x20 + 4 * 3, 0xFFB00000), (Reg.epOptCtl, 8), (Reg.epOptEval, BitVec.ofNat 32 (g * 65536)), (Reg.epOptEmit 3, BitVec.ofNat 32 (m * 65536 + 100)), (Reg.epOptEmit 4, BitVec.ofNat 32 (m * 65536 + 100))] with now := 2 ^ 40 }
def lasAll (l : SMap Word) : State :=
  las { emits := (List.range 10).map fun w => (lasKey 0 w, 4), biases := (List.range 10).map fun w => (lasKey 0 w, 100), limits := (List.range 10).map fun w => (lasKey 0 w, 200) } l
def biasF : State := { bias 3 200 with ep := { (bias 3 200).ep with regs := SMap.set (bias 3 200).ep.regs (Reg.epOptEmit 3) 0x00C83064 } }
def ws62 : State := las {} [(Reg.lasCtl 1, 0)]
def ws63 : State := lasAll [(Reg.lasCtl 0, 2), (psBase .ronpex 3 + 0x20 + 4 * 3, 0xFFB00000), (Reg.lasBias 0 3, 0x00C80064)]
def rq (tries sent : Nat) : LasReq := { write := false, addr := 5, data := 0, seq := 7, sentAt := sent, tries := tries, user := true }
def lasQ (tries sent : Nat) : State := las { reqs := [(1, rq tries sent)] } [(Reg.lasAccess 1, 0x405)]
def rep (op : Nat) : LasReply := { op := op, addr := 5, seq := 7, data := 123, crc := crc8 (lasCore op 5 7 123) }
def ws64 : State := lasQ 1 (16384 * 2 ^ 20 - 5)

/-- Every clause of `Obligations.LinkMessages` that has hypotheses has them all met. -/
theorem test_witness_LinkMessages :
    (((Instr.stress Part.ronpex 3 bad true, LmcMsg.stress true) ∈ [(Instr.ident Part.ronpex 3 bad farI, LmcMsg.ident farI), (Instr.pwrA Part.ronpex 3 bad [1, 2], LmcMsg.pwr false [1, 2]), (Instr.pwrB Part.ronpex 3 bad [1, 2], LmcMsg.pwr true [1, 2]), (Instr.tune Part.ronpex 3 bad 1 2, LmcMsg.tune 1 2), (Instr.swapReq Part.ronpex 3 bad 1 2 3, LmcMsg.swapReq 1 2 3), (Instr.swapAck Part.ronpex 3 bad 1 2 3, LmcMsg.swapAck 1 2 3), (Instr.state Part.ronpex 3 bad 1, LmcMsg.state 1), (Instr.stress Part.ronpex 3 bad true, LmcMsg.stress true), (Instr.sync Part.ronpex 3 bad true false 1 2 3, LmcMsg.sync true false 1 2), (Instr.rxstamp Part.ronpex 3 bad 1 2, LmcMsg.rxstamp 1 2), (Instr.cert Part.ronpex 3 bad 1 [], LmcMsg.key 1 1 []), (Instr.eph Part.ronpex 3 bad 1 [], LmcMsg.key 2 1 []), (Instr.sig Part.ronpex 3 bad 1 [], LmcMsg.key 3 1 []), (Instr.switch Part.ronpex 3 bad 4 1, LmcMsg.key 4 4 (leBytes 8 1)), (Instr.switchAck Part.ronpex 3 bad 4 1, LmcMsg.key 5 4 (leBytes 8 1)), (Instr.abort Part.ronpex 3 bad 1, LmcMsg.key 7 0 (leBytes 8 1))])
      ∧ (lmcGood bad (Instr.stress Part.ronpex 3 bad true, LmcMsg.stress true).2 = false ∨ ws1.lmcRuns Part.ronpex 3 = false ∨ ws1.skyNow Part.ronpex 3 = true)) ∧
    ((ws3.lmcRuns Part.ronpex 3 = true)
      ∧ (ws3.skyNow Part.ronpex 3 = false)
      ∧ (lmcGood (lm (LmcMsg.ident farI)) (LmcMsg.ident farI) = true)
      ∧ (farI.port < 256)
      ∧ (ws3.portState Part.ronpex 3 ≠ 5)
      ∧ (ws3.portState Part.ronpex 3 ≠ 6)
      ∧ (ws3.mapEntry Part.ronpex 3 = some farI ∨ ws3.mapEntry Part.ronpex 3 = none ∧ (ws3.portState Part.ronpex 3 = 1 ∨ ws3.farIdentity Part.ronpex 3 = some farI))) ∧
    (((known Part.ronpex 2).lmcRuns Part.ronpex 3 = true)
      ∧ ((known Part.ronpex 2).skyNow Part.ronpex 3 = false)
      ∧ (lmcGood (lm (LmcMsg.ident ({ farI with port := 8 }))) (LmcMsg.ident ({ farI with port := 8 })) = true)
      ∧ (farI ≠ { farI with port := 8 })
      ∧ ((known Part.ronpex 2).portState Part.ronpex 3 ≠ 5)
      ∧ ((known Part.ronpex 2).portState Part.ronpex 3 ≠ 6)
      ∧ ((known Part.ronpex 2).mapEntry Part.ronpex 3 = some farI ∨ (known Part.ronpex 2).mapEntry Part.ronpex 3 = none ∧ (known Part.ronpex 2).portUp Part.ronpex 3 = true ∧ (known Part.ronpex 2).farIdentity Part.ronpex 3 = some farI)) ∧
    (((known Part.ronpex 2).lmcRuns Part.ronpex 3 = true)
      ∧ ((known Part.ronpex 2).skyNow Part.ronpex 3 = false)
      ∧ ([1, -2, 300, 4, -5].length = 5)
      ∧ (lmcGood (lm (LmcMsg.pwr false [1, -2, 300, 4, -5])) (LmcMsg.pwr false [1, -2, 300, 4, -5]) = true)) ∧
    (((known Part.plocen 2).lmcRuns Part.plocen 3 = true)
      ∧ ((known Part.plocen 2).skyNow Part.plocen 3 = false)
      ∧ ([1, -2, 300, 4, -5].length = 5)
      ∧ (lmcGood (lm (LmcMsg.pwr true [1, -2, 300, 4, -5])) (LmcMsg.pwr true [1, -2, 300, 4, -5]) = true)) ∧
    (((known Part.ronpex 2).lmcRuns Part.ronpex 3 = true)
      ∧ ((known Part.ronpex 2).skyNow Part.ronpex 3 = false)
      ∧ (lmcGood (lm (LmcMsg.tune 2 3)) (LmcMsg.tune 2 3) = true)
      ∧ (1 ≤ 3)
      ∧ (3 ≤ 6)
      ∧ (2 < 10)
      ∧ (2 ≠ 4)
      ∧ (driveReset = SMap.look (fun _ => driveReset) ((known Part.ronpex 2).link Part.ronpex 3).drive 2)) ∧
    (((known Part.ronpex 2).lmcRuns Part.ronpex 3 = true)
      ∧ ((known Part.ronpex 2).skyNow Part.ronpex 3 = false)
      ∧ (lmcGood (lm (LmcMsg.state 5)) (LmcMsg.state 5) = true)
      ∧ ((known Part.ronpex 2).portState Part.ronpex 3 ≠ 1 ∨ ((known Part.ronpex 2).link Part.ronpex 3).rxStep ≤ 0 ∨ 5 ≤ 0)) ∧
    ((ws6.lmcRuns Part.plocen 3 = true)
      ∧ (ws6.skyNow Part.plocen 3 = false)
      ∧ (lmcGood (lm (LmcMsg.state 3)) (LmcMsg.state 3) = true)
      ∧ (ws6.portState Part.plocen 3 = 1)
      ∧ (2 < (ws6.link Part.plocen 3).rxStep)
      ∧ (2 < 3)) ∧
    (((known Part.plocen 2).lmcRuns Part.plocen 3 = true)
      ∧ ((known Part.plocen 2).skyNow Part.plocen 3 = false)
      ∧ (lmcGood (lm (LmcMsg.stress true)) (LmcMsg.stress true) = true)) ∧
    (((known Part.plocen 2).lmcRuns Part.plocen 3 = true)
      ∧ ((known Part.plocen 2).skyNow Part.plocen 3 = false)
      ∧ (lmcGood (lm (LmcMsg.sync true false 3 100)) (LmcMsg.sync true false 3 100) = true)) ∧
    (((sy Part.ronpex 1 { : Link }).lmcRuns Part.ronpex 3 = true)
      ∧ ((sy Part.ronpex 1 { : Link }).skyNow Part.ronpex 3 = false)
      ∧ (lmcGood (lm (LmcMsg.rxstamp 9 200)) (LmcMsg.rxstamp 9 200) = true)
      ∧ (((sy Part.ronpex 1 { : Link }).link Part.ronpex 3).syncSent = some (9, 1000))
      ∧ (((sy Part.ronpex 1 { : Link }).link Part.ronpex 3).syncGot = some (4000, 900, 7))
      ∧ (((sy Part.ronpex 1 { : Link }).link Part.ronpex 3).farTime = none)) ∧
    ((ws7.lmcRuns Part.ronpex 3 = true)
      ∧ (ws7.skyNow Part.ronpex 3 = false)
      ∧ (lmcGood (lm (LmcMsg.rxstamp 9 5000)) (LmcMsg.rxstamp 9 5000) = true)
      ∧ ((ws7.link Part.ronpex 3).syncSent = some (9, 1000))
      ∧ ((ws7.link Part.ronpex 3).syncGot = some (4000, 900, 7))
      ∧ ((ws7.link Part.ronpex 3).farTime = some (true, true, 2))
      ∧ (ws7.isParent Part.ronpex 3 = true)
      ∧ (-3550 = ((↑900 : ℤ) - (↑4000 : ℤ) - ((↑5000 : ℤ) - (↑1000 : ℤ))) / 2)
      ∧ (450 = (((↑900 : ℤ) - (↑4000 : ℤ) + ((↑5000 : ℤ) - (↑1000 : ℤ))) / 2).toNat)
      ∧ (ws7.timeAgreed Part.ronpex 3 = false ∨ ws7.linkDelay Part.ronpex 3 = (delaySlots ((↑900 : ℤ) - (↑4000 : ℤ)).toNat % 256, delaySlots ((↑5000 : ℤ) - (↑1000 : ℤ)).toNat % 256))) ∧
    ((ws9.lmcRuns Part.ronpex 3 = true)
      ∧ (ws9.skyNow Part.ronpex 3 = false)
      ∧ (lmcGood (lm (LmcMsg.rxstamp 9 6000)) (LmcMsg.rxstamp 9 6000) = true)
      ∧ ((ws9.link Part.ronpex 3).syncSent = some (9, 1000))
      ∧ ((ws9.link Part.ronpex 3).syncGot = some (4000, 900, 7))
      ∧ (ws9.timeAgreed Part.ronpex 3 = true)
      ∧ (ws9.portUp Part.ronpex 3 = true)
      ∧ (2 ≤ (ws9.link Part.ronpex 3).delayBad)
      ∧ (ws9.linkDelay Part.ronpex 3 ≠ (delaySlots ((↑900 : ℤ) - (↑4000 : ℤ)).toNat % 256, delaySlots ((↑6000 : ℤ) - (↑1000 : ℤ)).toNat % 256))) := by
  and_intros <;> decide +kernel

/-- Every clause of `Obligations.LinkFaults` that has hypotheses has them all met. -/
theorem test_witness_LinkFaults :
    ((3 < partPorts Part.ronpex)
      ∧ (ws11.clockWatched Part.ronpex 3 = false)) ∧
    ((3 < partPorts Part.ronpex)
      ∧ (ws3.watched Part.ronpex 3 = false)) ∧
    ((3 < partPorts Part.ronpex)
      ∧ ((known Part.ronpex 2).clockWatched Part.ronpex 3 = true)
      ∧ (((known Part.ronpex 2).link Part.ronpex 3).darkAt = none)) ∧
    ((3 < partPorts Part.ronpex)
      ∧ (({ drk Part.ronpex 3 with now := 321000 }).clockWatched Part.ronpex 3 = true)
      ∧ ((({ drk Part.ronpex 3 with now := 321000 }).link Part.ronpex 3).darkAt = some 319000)
      ∧ (319000 + 2000 ≤ ({ drk Part.ronpex 3 with now := 321000 }).now)
      ∧ (∀ d ≤ 500, d ≤ slotOf ({ drk Part.ronpex 3 with now := 321000 }).now → ({ drk Part.ronpex 3 with now := 321000 }).inSky Part.ronpex 3 (slotOf ({ drk Part.ronpex 3 with now := 321000 }).now - d) = false)) ∧
    ((3 < partPorts Part.plocen)
      ∧ ((drk Part.plocen 3).clockWatched Part.plocen 3 = true)
      ∧ (((drk Part.plocen 3).link Part.plocen 3).darkAt = some 319000)
      ∧ ((drk Part.plocen 3).now < 319000 + 2000)) ∧
    ((3 < partPorts Part.plocen)
      ∧ ((drk Part.plocen 3).clockWatched Part.plocen 3 = true)
      ∧ (((drk Part.plocen 3).link Part.plocen 3).darkAt = some 319000)
      ∧ ((drk Part.plocen 3).now ≤ 319000 + 2000 ∨ (drk Part.plocen 3).holdOut Part.plocen 3 319000 = false)) ∧
    ((3 < partPorts Part.ronpex)
      ∧ (ws3.skyNow Part.ronpex 3 = true ∨ ws3.portUp Part.ronpex 3 = false ∧ ws3.portState Part.ronpex 3 ≠ 4)) ∧
    ((3 < partPorts Part.ronpex)
      ∧ ((known Part.ronpex 2).watched Part.ronpex 3 = true)
      ∧ ((grp 319968 [two, far5]).lit = true)
      ∧ ((grp 319968 [two, far5]).burst = false)
      ∧ (slotOf (grp 319968 [two, far5]).start % 8 = ((known Part.ronpex 2).link Part.ronpex 3).align)
      ∧ (∀ lane < 8, (known Part.ronpex 2).laneWl Part.ronpex 3 lane < 10)) ∧
    ((3 < partPorts Part.plocen)
      ∧ ((known Part.plocen 2).watched Part.plocen 3 = true)) ∧
    ((3 < partPorts Part.ronpex)
      ∧ ((known Part.ronpex 2).watched Part.ronpex 3 = true)
      ∧ ((known Part.ronpex 2).laneDead Part.ronpex 3 2 = false)) ∧
    ((3 < partPorts Part.plocen)
      ∧ ((gone Part.plocen).watched Part.plocen 3 = true)
      ∧ (((gone Part.plocen).link Part.plocen 3).swap = none)
      ∧ ((gone Part.plocen).spareGone Part.plocen 3 = true)
      ∧ ((gone Part.plocen).laneDead Part.plocen 3 2 = true)) ∧
    ((3 < partPorts Part.plocen)
      ∧ ((gone Part.plocen).watched Part.plocen 3 = true)
      ∧ (((gone Part.plocen).link Part.plocen 3).swap = none)
      ∧ ((gone Part.plocen).spareGone Part.plocen 3 = true)) ∧
    ((3 < partPorts Part.plocen)
      ∧ (ws15.skyNow Part.plocen 3 = false)
      ∧ (ws15.portUp Part.plocen 3 = true ∨ ws15.portState Part.plocen 3 = 4)
      ∧ (ws15.rxPattern Part.plocen 3 { wave := 2, bits := List.replicate 66 1 : RxPattern }.wave = some Prbs.p31)) := by
  and_intros <;> decide +kernel

/-- Every clause of `Obligations.LaneSwaps` that has hypotheses has them all met. -/
theorem test_witness_LaneSwaps :
    ((3 < partPorts Part.ronpex)
      ∧ ((known Part.ronpex 2).lmcRuns Part.ronpex 3 = true)
      ∧ ((known Part.ronpex 2).skyNow Part.ronpex 3 = false)
      ∧ ((known Part.ronpex 2).portUp Part.ronpex 3 = true)
      ∧ (2 < 8)
      ∧ (lmcGood (lm (LmcMsg.swapReq 2 0 30)) (LmcMsg.swapReq 2 0 30) = true)
      ∧ ((known Part.ronpex 2).now + 1000 ≤ frameTime (known Part.ronpex 2).now 30)
      ∧ (((known Part.ronpex 2).link Part.ronpex 3).swap = none)
      ∧ ((known Part.ronpex 2).spareGone Part.ronpex 3 = false)
      ∧ (0 ≠ 1)) ∧
    ((3 < partPorts Part.ronpex)
      ∧ ((known Part.ronpex 2).lmcRuns Part.ronpex 3 = true)
      ∧ ((known Part.ronpex 2).skyNow Part.ronpex 3 = false)
      ∧ ((known Part.ronpex 2).portUp Part.ronpex 3 = true)
      ∧ (2 < 8)
      ∧ (frameTime (known Part.ronpex 2).now 19 < (known Part.ronpex 2).now + 1000)) ∧
    ((3 < partPorts Part.ronpex)
      ∧ (ws16.lmcRuns Part.ronpex 3 = true)
      ∧ (ws16.skyNow Part.ronpex 3 = false)
      ∧ (ws16.portUp Part.ronpex 3 = true)
      ∧ (2 < 8)
      ∧ (lmcGood (lm (LmcMsg.swapAck 2 0 30)) (LmcMsg.swapAck 2 0 30) = true)
      ∧ ((ws16.link Part.ronpex 3).swap = some { lane := 2, reason := 0, frame := 30, asked := true, acked := false : Swap })
      ∧ ({ lane := 2, reason := 0, frame := 30, asked := true, acked := false : Swap }.asked = true)
      ∧ ({ lane := 2, reason := 0, frame := 30, asked := true, acked := false : Swap }.lane = 2)
      ∧ ({ lane := 2, reason := 0, frame := 30, asked := true, acked := false : Swap }.frame = 30)) ∧
    ((3 < partPorts Part.ronpex)
      ∧ (ws17.watched Part.ronpex 3 = true)
      ∧ ((ws17.link Part.ronpex 3).swap = none)
      ∧ (ws17.spareGone Part.ronpex 3 = false)
      ∧ (ws17.laneDead Part.ronpex 3 2 = true)) ∧
    ((3 < partPorts Part.ronpex)
      ∧ (ws19.watched Part.ronpex 3 = true)
      ∧ ((ws19.link Part.ronpex 3).swap = none)
      ∧ (ws19.spareGone Part.ronpex 3 = false)
      ∧ (3 ≤ SMap.look (fun _ => 0) (ws19.link Part.ronpex 3).low (ws19.laneWl Part.ronpex 3 2))) ∧
    ((3 < partPorts Part.ronpex)
      ∧ ((ws20.link Part.ronpex 3).swap = some { lane := 2, reason := 0, frame := 21, asked := true, acked := false : Swap })
      ∧ (ws20.watched Part.ronpex 3 = true)
      ∧ ({ lane := 2, reason := 0, frame := 21, asked := true, acked := false : Swap }.lane < 8)
      ∧ (frameDue ws20.now { lane := 2, reason := 0, frame := 21, asked := true, acked := false : Swap }.frame = false)) ∧
    ((3 < partPorts Part.ronpex)
      ∧ ((ws21.link Part.ronpex 3).swap = some { lane := 2, reason := 0, frame := 19, asked := true, acked := true : Swap })
      ∧ (ws21.watched Part.ronpex 3 = true)
      ∧ ({ lane := 2, reason := 0, frame := 19, asked := true, acked := true : Swap }.lane < 8)
      ∧ (frameDue ws21.now { lane := 2, reason := 0, frame := 19, asked := true, acked := true : Swap }.frame = true)) := by
  and_intros <;> decide +kernel

/-- Every clause of `Obligations.LinkReadings` that has hypotheses has them all met. -/
theorem test_witness_LinkReadings :
    ((3 < partPorts Part.ronpex)
      ∧ (ten.length = 10)
      ∧ ((known Part.ronpex 2).skyNow Part.ronpex 3 = false)) ∧
    ((3 < partPorts Part.ronpex)
      ∧ (ws24.watched Part.ronpex 3 = true)
      ∧ (ws24.optCtl Part.ronpex 3 2 = true)
      ∧ ((ws24.link Part.ronpex 3).reval = none)
      ∧ ((ws24.link Part.ronpex 3).swap = none)
      ∧ (ws24.spareGone Part.ronpex 3 = false)
      ∧ ((ws24.link Part.ronpex 3).cls = true)
      ∧ (ws24.deferHeld Part.ronpex = false)
      ∧ (∃ lane < 8, SMap.look (fun _ => false) (ws24.link Part.ronpex 3).stamps (ws24.laneWl Part.ronpex 3 lane) ≠ true)) ∧
    ((3 < partPorts Part.ronpex)
      ∧ ((ws26.link Part.ronpex 3).reval = some rvl)
      ∧ ((ws26.link Part.ronpex 3).swap = none)
      ∧ (rvl.retuned = false)
      ∧ (ws26.watched Part.ronpex 3 = true)
      ∧ (8 = ws26.fld Part.ronpex (psBase Part.ronpex 3 + 12) 0 4)
      ∧ (8 < 10)
      ∧ (100000 ≤ 100000)) ∧
    ((3 < partPorts Part.ronpex)
      ∧ ((ws26.link Part.ronpex 3).reval = some rvl)
      ∧ ((ws26.link Part.ronpex 3).swap = none)
      ∧ (rvl.retuned = false)
      ∧ (ws26.watched Part.ronpex 3 = true)
      ∧ (8 = ws26.fld Part.ronpex (psBase Part.ronpex 3 + 12) 0 4)
      ∧ (8 < 10)
      ∧ (100000 < 100001)) ∧
    ((3 < partPorts Part.ronpex)
      ∧ (((rv Part.ronpex { : Link }).link Part.ronpex 3).reval = none)
      ∧ (((rv Part.ronpex { : Link }).link Part.ronpex 3).swap = none)
      ∧ ((rv Part.ronpex { : Link }).watched Part.ronpex 3 = true)
      ∧ (8 = (rv Part.ronpex { : Link }).fld Part.ronpex (psBase Part.ronpex 3 + 12) 0 4)
      ∧ (8 < 10)) := by
  and_intros <;> decide +kernel

/-- Every clause of `Obligations.LinkTraining` that has hypotheses has them all met. -/
theorem test_witness_LinkTraining :
    ((3 < partPorts Part.ronpex)
      ∧ (ws28.portState Part.ronpex 3 = 1)
      ∧ (2 = (ws28.link Part.ronpex 3).step)
      ∧ (2 = 2 ∨ 2 = 5)
      ∧ ((ws28.link Part.ronpex 3).rxStep ≤ 2)) ∧
    ((3 < partPorts Part.plocen)
      ∧ (ws30.portState Part.plocen 3 = 1)
      ∧ (3 = (ws30.link Part.plocen 3).step)
      ∧ (3 = 3)
      ∧ ((ws30.link Part.plocen 3).identGot = false)) ∧
    ((3 < partPorts Part.plocen)
      ∧ (ws31.portState Part.plocen 3 = 1)
      ∧ (6 = (ws31.link Part.plocen 3).step)
      ∧ (6 = 6)
      ∧ ((ws31.link Part.plocen 3).rxStep = 6)
      ∧ (1 < 8)
      ∧ (10000 < [5, 10001, 3, 3, 3, 3, 3].getD (ws31.laneWl Part.plocen 3 1) 0)) ∧
    ((3 < partPorts Part.ronpex)
      ∧ (ws33.portState Part.ronpex 3 = 1)
      ∧ (8 = (ws33.link Part.ronpex 3).step)
      ∧ (8 = 8)) ∧
    ((3 < partPorts Part.ronpex)
      ∧ (ws35.portState Part.ronpex 3 = 1)
      ∧ ((ws35.link Part.ronpex 3).step ≤ 8)
      ∧ ((ws35.link Part.ronpex 3).stepAt + stepLimit (ws35.link Part.ronpex 3).step ≤ ws35.now)
      ∧ ((ws35.link Part.ronpex 3).step ≠ 7)) ∧
    ((3 < partPorts Part.plocen)
      ∧ (ws36.portState Part.plocen 3 = 1)
      ∧ ((ws36.link Part.plocen 3).step ≤ 8)
      ∧ ((ws36.link Part.plocen 3).stepAt + stepLimit (ws36.link Part.plocen 3).step ≤ ws36.now)
      ∧ ((ws36.link Part.plocen 3).step = 7)
      ∧ ((ws36.link Part.plocen 3).keys.failed = none)) ∧
    ((3 < partPorts Part.ronpex)
      ∧ ((ws37.link Part.ronpex 3).downAt = some 5)
      ∧ (ws37.portState Part.ronpex 3 = 5)
      ∧ (ws37.fld Part.ronpex (psBase Part.ronpex 3) 0 2 = 1)
      ∧ (5 + 100000000 ≤ ws37.now)
      ∧ (Part.ronpex = Part.ronpex → ws37.regionOff (portEngine 3) = false)
      ∧ (ws37.heldDown Part.ronpex 3 = false)) ∧
    ((3 < partPorts Part.ronpex)
      ∧ (Part.ronpex = Part.ronpex → rpTakes (pm Part.ronpex 0 0) host)
      ∧ (Part.ronpex = Part.plocen → (pm Part.ronpex 0 0).attOn = true)
      ∧ (BitVec.toNat (1 : Word) % 4 = 1 ∨ BitVec.toNat (1 : Word) % 4 = 2)
      ∧ ((pm Part.ronpex 0 0).portState Part.ronpex 3 = 0)
      ∧ (Part.ronpex = Part.ronpex → (pm Part.ronpex 0 0).regionOff (portEngine 3) = false)) ∧
    ((3 < partPorts Part.ronpex)
      ∧ (Part.ronpex = Part.ronpex → rpTakes (pm Part.ronpex 2 1) host)
      ∧ (Part.ronpex = Part.plocen → (pm Part.ronpex 2 1).attOn = true)
      ∧ (BitVec.toNat (0 : Word) % 4 = 0 ∨ BitVec.toNat (0 : Word) % 4 = 3)
      ∧ ((pm Part.ronpex 2 1).portState Part.ronpex 3 ≠ 0)) ∧
    ((3 < partPorts Part.ronpex)
      ∧ (Part.ronpex = Part.ronpex → rpTakes (pm Part.ronpex 2 1) host)
      ∧ (Part.ronpex = Part.plocen → (pm Part.ronpex 2 1).attOn = true)
      ∧ (bit 4 (BitVec.toNat (17 : Word)) = true)
      ∧ (modeOf (BitVec.toNat (17 : Word)) = modeOf ((pm Part.ronpex 2 1).reg Part.ronpex (psBase Part.ronpex 3)))
      ∧ (modeOf (BitVec.toNat (17 : Word)) ≠ 0)
      ∧ ((pm Part.ronpex 2 1).portState Part.ronpex 3 ≠ 0)
      ∧ ((pm Part.ronpex 2 1).portState Part.ronpex 3 ≠ 6)) ∧
    ((3 < partPorts Part.ronpex)
      ∧ (ws40.portState Part.ronpex 3 = 2)
      ∧ (ws40.optCtl Part.ronpex 3 1 = true)
      ∧ (64 ≤ (ws40.link Part.ronpex 3).fillRun)
      ∧ (ws40.groupPos Part.ronpex 3 = 0)
      ∧ ((ws40.link Part.ronpex 3).lpiExit = none)
      ∧ (ws40.txUseAt Part.ronpex ws40.now 3 ≠ 1)
      ∧ (ws40.warpSoon Part.ronpex 3 = false)
      ∧ (Part.ronpex = Part.ronpex → ∀ n < 64, bit 7 (bits (8 * (n % 4)) 8 (ws40.reg Part.ronpex (clusterBase (portCluster 3) + 327680 + 64 * (3 % 4) + 4 * (n / 4)))) = false)) ∧
    ((3 < partPorts Part.ronpex)
      ∧ (({ tr Part.ronpex 2 { lmcSeq := 255, lmcAt := some 5, lmcQ := [LmcMsg.stress true, LmcMsg.state 3] : Link } [] with now := 16384 * 9 + 99 }).lmcRuns Part.ronpex 3 = true)
      ∧ (({ tr Part.ronpex 2 { lmcSeq := 255, lmcAt := some 5, lmcQ := [LmcMsg.stress true, LmcMsg.state 3] : Link } [] with now := 16384 * 9 + 99 }).skyNow Part.ronpex 3 = false)
      ∧ ((({ tr Part.ronpex 2 { lmcSeq := 255, lmcAt := some 5, lmcQ := [LmcMsg.stress true, LmcMsg.state 3] : Link } [] with now := 16384 * 9 + 99 }).link Part.ronpex 3).keys.failed = none)
      ∧ (∀ (t0 : ℕ), (({ tr Part.ronpex 2 { lmcSeq := 255, lmcAt := some 5, lmcQ := [LmcMsg.stress true, LmcMsg.state 3] : Link } [] with now := 16384 * 9 + 99 }).link Part.ronpex 3).lmcAt = some t0 → 5 * t0 + 8192 ≤ 5 * ({ tr Part.ronpex 2 { lmcSeq := 255, lmcAt := some 5, lmcQ := [LmcMsg.stress true, LmcMsg.state 3] : Link } [] with now := 16384 * 9 + 99 }).now)) ∧
    ((3 < partPorts Part.ronpex)
      ∧ (abq.lmcRuns Part.ronpex 3 = true)
      ∧ (abq.skyNow Part.ronpex 3 = false)
      ∧ (∀ (t0 : ℕ), (abq.link Part.ronpex 3).lmcAt = some t0 → 5 * t0 + 8192 ≤ 5 * abq.now)
      ∧ ((abq.link Part.ronpex 3).keys.failed = some 7)
      ∧ ((abq.link Part.ronpex 3).lmcQ.head? = some (LmcMsg.key 7 0 (leBytes 8 4)))
      ∧ (abq.now % frameNs < 100)
      ∧ (abq.portState Part.ronpex 3 ≠ 5)
      ∧ (abq.portState Part.ronpex 3 ≠ 6)) := by
  unfold rpTakes
  and_intros <;> decide +kernel

/-- Every clause of `Obligations.KeyAgreement` that has hypotheses has them all met. -/
theorem test_witness_KeyAgreement :
    ((ws44.lmcRuns Part.ronpex 3 = true)
      ∧ (ws44.skyNow Part.ronpex 3 = false)
      ∧ (ws44.portState Part.ronpex 3 = 1)
      ∧ ((ws44.link Part.ronpex 3).keys.own = none)
      ∧ (lmcGood (lm (LmcMsg.key 1 1 keyB)) (LmcMsg.key 1 1 keyB) = true)) ∧
    ((ws44.lmcRuns Part.ronpex 3 = true)
      ∧ (ws44.skyNow Part.ronpex 3 = false)
      ∧ (ws44.portState Part.ronpex 3 = 1)
      ∧ ((ws44.link Part.ronpex 3).keys.own = none)
      ∧ (lmcGood (lm (LmcMsg.key 2 1 keyB)) (LmcMsg.key 2 1 keyB) = true)) ∧
    ((ws45.lmcRuns Part.plocen 3 = true)
      ∧ (ws45.skyNow Part.plocen 3 = false)
      ∧ (ws45.portState Part.plocen 3 = 1)
      ∧ ((ws45.link Part.plocen 3).keys.own = none)
      ∧ (lmcGood (lm (LmcMsg.key 3 1 keyB)) (LmcMsg.key 3 1 keyB) = true)) ∧
    (((kap Part.ronpex).lmcRuns Part.ronpex 3 = true)
      ∧ ((kap Part.ronpex).skyNow Part.ronpex 3 = false)
      ∧ ((kap Part.ronpex).portState Part.ronpex 3 = 1)
      ∧ (lmcGood (lm (LmcMsg.key 7 0 (leBytes 8 5))) (LmcMsg.key 7 0 (leBytes 8 5)) = true)
      ∧ (((kap Part.ronpex).link Part.ronpex 3).step = 7)
      ∧ (((kap Part.ronpex).link Part.ronpex 3).keys.rekeyAt = none)
      ∧ (((kap Part.ronpex).link Part.ronpex 3).keys.failed = none)) ∧
    (((kap Part.ronpex).lmcRuns Part.ronpex 3 = true)
      ∧ ((kap Part.ronpex).skyNow Part.ronpex 3 = false)
      ∧ ((kap Part.ronpex).portState Part.ronpex 3 = 1)
      ∧ (lmcGood (lm (LmcMsg.key 3 1 keyB)) (LmcMsg.key 3 1 keyB) = true)
      ∧ (((kap Part.ronpex).link Part.ronpex 3).step = 7)
      ∧ (((kap Part.ronpex).link Part.ronpex 3).keys.own = some 0)
      ∧ (((kap Part.ronpex).link Part.ronpex 3).keys.rekeyAt = none)
      ∧ (((kap Part.ronpex).link Part.ronpex 3).keys.failed = none)
      ∧ ((kap Part.ronpex).farIdentity Part.ronpex 3 = some farI)
      ∧ ([3, 0, 1, 1, 1, 1, 1, 1, 1, 2, 3, 4, 5, 6, 7, 8] = spliceBytes ((kap Part.ronpex).link Part.ronpex 3).keys.sig (8 * 1) (sliceBytes keyB 0 8))
      ∧ (keyWhole [3, 0, 1, 1, 1, 1, 1, 1, 1, 2, 3, 4, 5, 6, 7, 8] = true)
      ∧ (keyWhole ((kap Part.ronpex).link Part.ronpex 3).keys.eph = true)
      ∧ (keyWhole ((kap Part.ronpex).link Part.ronpex 3).keys.cert = true)) := by
  and_intros <;> decide +kernel

/-- Every clause of `Obligations.Rekeying` that has hypotheses has them all met. -/
theorem test_witness_Rekeying :
    ((ws47.portUp Part.ronpex 3 = true)
      ∧ ((ws47.link Part.ronpex 3).keys.tx.isSome = true)
      ∧ ((ws47.link Part.ronpex 3).keys.rekeyAt = none)
      ∧ (2 ^ ws47.rekeyExp Part.ronpex ≤ (ws47.link Part.ronpex 3).keys.txCnt)) ∧
    ((ws49.lmcTaken Part.ronpex 3 (lm (LmcMsg.key 4 2 (leBytes 8 40))) (LmcMsg.key 4 2 (leBytes 8 40)) = true)
      ∧ (ws49.portUp Part.ronpex 3 = true)
      ∧ ((ws49.link Part.ronpex 3).keys.fresh.isSome = true)) ∧
    ((ws51.lmcTaken Part.plocen 3 (lm (LmcMsg.key 5 2 (leBytes 8 40))) (LmcMsg.key 5 2 (leBytes 8 40)) = true)
      ∧ ((ws51.link Part.plocen 3).keys.switch = some (2, 40, false))) ∧
    (((ws52.link Part.plocen 3).keys.fresh = some (3, 4))
      ∧ ((ws52.link Part.plocen 3).keys.switch = some (2, 0, true))
      ∧ (ws52.portUp Part.plocen 3 = true)
      ∧ (frameDue ws52.now 0 = true)) ∧
    (((({ rk Part.ronpex { fresh := some (3, 4), switch := some (2, 40, true) : LinkKeys } with now := 320000 }).link Part.ronpex 3).keys.fresh = some (3, 4))
      ∧ ((({ rk Part.ronpex { fresh := some (3, 4), switch := some (2, 40, true) : LinkKeys } with now := 320000 }).link Part.ronpex 3).keys.switch = some (2, 40, true))
      ∧ (({ rk Part.ronpex { fresh := some (3, 4), switch := some (2, 40, true) : LinkKeys } with now := 320000 }).portUp Part.ronpex 3 = true)
      ∧ (frameDue ({ rk Part.ronpex { fresh := some (3, 4), switch := some (2, 40, true) : LinkKeys } with now := 320000 }).now 40 = false)) ∧
    ((((probing Part.ronpex 3).link Part.ronpex 3).keys.old = some (ok2 3))
      ∧ (((probing Part.ronpex 3).link Part.ronpex 3).keys.rx = some 4)
      ∧ (((probing Part.ronpex 3).link Part.ronpex 3).keys.rxNext = none)
      ∧ (((probing Part.ronpex 3).link Part.ronpex 3).pend = [])) ∧
    (((({ rk Part.ronpex { starter := true, switch := some (2, 19, false) : LinkKeys } with now := 320000 }).link Part.ronpex 3).keys.switch = some (2, 19, false))
      ∧ ((({ rk Part.ronpex { starter := true, switch := some (2, 19, false) : LinkKeys } with now := 320000 }).link Part.ronpex 3).keys.starter = true)
      ∧ (frameTime ({ rk Part.ronpex { starter := true, switch := some (2, 19, false) : LinkKeys } with now := 320000 }).now 19 ≤ ({ rk Part.ronpex { starter := true, switch := some (2, 19, false) : LinkKeys } with now := 320000 }).now + 1000)) ∧
    (((ws54.link Part.ronpex 3).keys.rekeyAt = some 4)
      ∧ (4 + 10000000 ≤ ws54.now)
      ∧ (ws54.watched Part.ronpex 3 = true)) ∧
    ((((tagged Part.plocen).link Part.plocen 3).keys.rxDone = [(4099, 35260336405426684262263, true)])
      ∧ ((tagged Part.plocen).lmcRuns Part.plocen 3 = true)
      ∧ ((tagged Part.plocen).skyNow Part.plocen 3 = false)
      ∧ (false = lmcGood bad (LmcMsg.key 6 (4099 % 4096) (leBytes 8 (BitVec.toNat (8608480567731124087 : BitVec 64)))))
      ∧ (false = false)) ∧
    ((((tagged Part.plocen).link Part.plocen 3).keys.rxDone = [(4099, 35260336405426684262263, true)])
      ∧ ((tagged Part.plocen).lmcRuns Part.plocen 3 = true)
      ∧ ((tagged Part.plocen).skyNow Part.plocen 3 = false)
      ∧ (true = lmcGood (kf 8608480567731124087) (LmcMsg.key 6 (4099 % 4096) (leBytes 8 (BitVec.toNat (8608480567731124087 : BitVec 64)))))
      ∧ (true = true)
      ∧ (true = true)
      ∧ (BitVec.toNat (35260336405426684262263 : BitVec 128) % 2 ^ 64 = BitVec.toNat (8608480567731124087 : BitVec 64))) ∧
    ((((tagged Part.ronpex).link Part.ronpex 3).keys.rxDone = [(4099, 35260336405426684262263, true)])
      ∧ ((tagged Part.ronpex).lmcRuns Part.ronpex 3 = true)
      ∧ ((tagged Part.ronpex).skyNow Part.ronpex 3 = false)
      ∧ (true = lmcGood (kf 8608480567731124088) (LmcMsg.key 6 (4099 % 4096) (leBytes 8 (BitVec.toNat (8608480567731124088 : BitVec 64)))))
      ∧ (true = true)
      ∧ (true = true)
      ∧ (BitVec.toNat (35260336405426684262263 : BitVec 128) % 2 ^ 64 ≠ BitVec.toNat (8608480567731124088 : BitVec 64))
      ∧ (((tagged Part.ronpex).link Part.ronpex 3).keys.bad = [])) := by
  and_intros <;> decide +kernel

/-- Every clause of `Obligations.Feeds` that has hypotheses has them all met. -/
theorem test_witness_Feeds :
    ((SMap.find? ws56.rp.lasers.refs (feedKey 2 3 (ws56.flag Part.ronpex (engineBase 2 + 4) 3)) = some 50)) ∧
    ((SMap.find? (las { : Lasers } []).rp.lasers.refs (feedKey 2 4 ((las { : Lasers } []).flag Part.ronpex (engineBase 2 + 4) 4)) = none)) ∧
    ((SMap.find? ws58.rp.lasers.refs (feedKey 2 4 false) = some 50)
      ∧ (SMap.find? ws58.rp.lasers.steady (feedKey 2 4 false) = some 5)
      ∧ (ws58.flag Part.ronpex (engineBase 2) 3 = true)
      ∧ (5 + 1000000000 ≤ ws58.now)
      ∧ (ws58.now % frameNs = 0)
      ∧ (ws58.feedWaits 2 4 = false)) ∧
    ((rpTakes (las { : Lasers } []) host)
      ∧ (bits 0 10 (BitVec.toNat (7168 : Word)) = 0)) ∧
    ((rpTakes ws59 host)
      ∧ (bits 10 10 (BitVec.toNat (17 : Word)) = 0)) ∧
    ((ws61.flag Part.plocen Reg.epOptCtl 3 = false ∨ ws61.now < ws61.ep.evalAt + evalPeriod (ws61.reg Part.plocen Reg.epOptEval))) ∧
    (((bias 3 200).flag Part.plocen Reg.epOptCtl 3 = true)
      ∧ ((bias 3 200).ep.evalAt + evalPeriod ((bias 3 200).reg Part.plocen Reg.epOptEval) ≤ (bias 3 200).now)
      ∧ (∀ p < 8, (bias 3 200).portUp Part.plocen p = decide (p = 0))) ∧
    ((ws62.flag Part.ronpex (Reg.lasCtl 1) 1 = false ∨ ws62.now < SMap.look (fun _ => 0) ws62.rp.lasers.evalAt 1 + evalPeriod (ws62.reg Part.ronpex Reg.lasEval))) ∧
    ((ws63.flag Part.ronpex (Reg.lasCtl 0) 1 = true)
      ∧ (SMap.look (fun _ => 0) ws63.rp.lasers.evalAt 0 + evalPeriod (ws63.reg Part.ronpex Reg.lasEval) ≤ ws63.now)
      ∧ (∀ (w : Fin 10), ws63.lasKnown 0 (↑w : ℕ) = true ∧ ws63.lasLases 0 (↑w : ℕ) = true ∧ ws63.fedPorts 0 (↑w : ℕ) = [3])) := by
  unfold rpTakes
  and_intros <;> decide +kernel

/-- Every clause of `Obligations.LaserAccess` that has hypotheses has them all met. -/
theorem test_witness_LaserAccess :
    ((rpTakes (las { : Lasers } []) host)
      ∧ (bit 9 (BitVec.toNat (517 : Word)) = true)
      ∧ ((las { : Lasers } []).flag Part.ronpex (Reg.lasAccess 1) 10 = false)
      ∧ ((las { : Lasers } []).lasFirst 1 = none)) ∧
    (((lasQ 3 5).lasFirst 1 = some (rq 3 5))
      ∧ (lasGood ({ rep 129 with crc := 256 }) = false)
      ∧ ((rq 3 5).tries < 4)) ∧
    (((lasQ 1 5).lasFirst 1 = some (rq 1 5))
      ∧ (lasGood (rep 129) = true)
      ∧ ((rep 129).seq = (rq 1 5).seq)
      ∧ ((rq 1 5).write = false)
      ∧ ((rq 1 5).user = true)
      ∧ ((rep 129).op = 129)) ∧
    (((lasQ 1 5).lasFirst 1 = some (rq 1 5))
      ∧ (lasGood (rep 224) = true)
      ∧ ((rep 224).seq = (rq 1 5).seq)
      ∧ ((rq 1 5).write = false)
      ∧ ((rq 1 5).user = true)
      ∧ ((rep 224).op = 224)) ∧
    ((ws64.lasFirst 1 = some (rq 1 (16384 * 2 ^ 20 - 5)))
      ∧ (ws64.now < (rq 1 (16384 * 2 ^ 20 - 5)).sentAt + 4000)) ∧
    (((lasQ 3 5).lasFirst 1 = some (rq 3 5))
      ∧ ((rq 3 5).sentAt + 4000 ≤ (lasQ 3 5).now)
      ∧ ((rq 3 5).tries < 4)) ∧
    (((lasQ 4 5).lasFirst 1 = some (rq 4 5))
      ∧ ((rq 4 5).sentAt + 4000 ≤ (lasQ 4 5).now)
      ∧ (4 ≤ (rq 4 5).tries)
      ∧ ((rq 4 5).user = true)) := by
  unfold rpTakes
  and_intros <;> decide +kernel

end Sys2Proof.Tests.W10

namespace Sys2Proof.Tests.W11

def host : Writer := { origin := 0, requester := 5 }
/-- A Ronpex that accepts register writes, with registers. -/
def rpw (l : SMap Word) : State :=
  let s := at_ 320000 (l ++ [(Reg.logLost, 0), (Reg.mgtEvtCfg, 0), (Reg.mgtEvtOvf, 0), (Reg.hubErrsum, 0), (Reg.sknStat, 0), (Reg.secDbg, 0x7)]) []
  { s with rp := { s.rp with units := { s.rp.units with awake := 15 }, power := { s.rp.power with supplyLost := false } } }
def withCmd (s : State) (c : SkeinCmd) : State := { s with rp := { s.rp with skeins := { s.rp.skeins with cmd := some c } } }
def onS (k n : Nat) : State := rpw [(Reg.sknCtl k, BitVec.ofNat 32 n), (Reg.sknPort 3, 2), (Reg.sknPort 4, 3), (Reg.budWeft 2, 77)]
def cmdS (op n e : Nat) : State := withCmd (onS 2 n) { op := op, skein := 2, effect := e, template := none }
def ws1 : State := rpw [(Reg.sknPort 3, 2)]
def ws2 : State := rpw [(Reg.sknPort 3, 2), (Reg.sknCtl 3, 2)]
def epa (k : Nat) : State := let s := at_ 320000 [] [(Reg.epSeqWnode 1, 0x7F01), (Reg.epSecNode, 0x8005), (Reg.epSecAssign, BitVec.ofNat 32 (128 + k)), (Reg.epSeqEpoch, 0)]; { s with ep := { s.ep with sec := { model := some 5, sky := some 6 } } }
def mg (n : Nat) : MgmtSource := { port := 1, node := n, tray := false }
def acks : State := rpw [(portSetBase 3 + 0x18, 0x301), (Reg.sknPort 3, 0x502), (Reg.xbrRt 5, 0x301)]
def scr : State := let s := rpw [(Reg.secDbg, 0xC207), (Reg.spdSeedLo 2, 3), (Reg.spdSeedHi 2, 4)]; { s with rp := { s.rp with eddy := [(3, [])], spindles := [(3, { ctxs := [], anchors := [(3, 4)] })] } }
def recs (l : List (Nat × Event)) : State := let s := rpw []; { s with rp := { s.rp with skeins := { s.rp.skeins with records := l } } }
def evt : Event := { time := 9, code := 2, tenant := some (2, 0), unitType := 0, unit := 0, gen := 0, arg := 7 }

/-- Every clause of `Obligations.SkeinCommands` that has hypotheses has them all met. -/
theorem test_witness_SkeinCommands :
    ((rpTakes (onS 2 0) host)
      ∧ (1 = 1 ∧ Instr.claim 2 host = Instr.claim 2 host ∨ 1 = 2 ∧ Instr.claim 2 host = Instr.activate 2 host ∨ 1 = 3 ∧ Instr.claim 2 host = Instr.quiesce 2 host ∨ 1 = 4 ∧ Instr.claim 2 host = Instr.release 2 host)
      ∧ (((onS 2 0).logWrite Part.ronpex Reg.sknCmd (sknCmdValue 2 1) host).cmdResult 2 1 = 0)) ∧
    ((rpTakes (onS 2 1) host)
      ∧ (1 = 1 ∧ Instr.claim 2 host = Instr.claim 2 host ∨ 1 = 2 ∧ Instr.claim 2 host = Instr.activate 2 host ∨ 1 = 3 ∧ Instr.claim 2 host = Instr.quiesce 2 host ∨ 1 = 4 ∧ Instr.claim 2 host = Instr.release 2 host)
      ∧ (((onS 2 1).logWrite Part.ronpex Reg.sknCmd (sknCmdValue 2 1) host).cmdResult 2 1 ≠ 0)) ∧
    (((cmdS 1 0 330000).rp.skeins.cmd = some { op := 1, skein := 2, effect := 330000, template := none : SkeinCmd })
      ∧ (1 ≤ { op := 1, skein := 2, effect := 330000, template := none : SkeinCmd }.op)
      ∧ ({ op := 1, skein := 2, effect := 330000, template := none : SkeinCmd }.op ≤ 4)
      ∧ ({ op := 1, skein := 2, effect := 330000, template := none : SkeinCmd }.skein < 64)
      ∧ ({ op := 1, skein := 2, effect := 330000, template := none : SkeinCmd }.template = none)
      ∧ ((cmdS 1 0 330000).now < { op := 1, skein := 2, effect := 330000, template := none : SkeinCmd }.effect)) ∧
    (((cmdS 1 0 311296).rp.skeins.cmd = some { op := 1, skein := 2, effect := 311296, template := none : SkeinCmd })
      ∧ (1 ≤ { op := 1, skein := 2, effect := 311296, template := none : SkeinCmd }.op)
      ∧ ({ op := 1, skein := 2, effect := 311296, template := none : SkeinCmd }.op ≤ 4)
      ∧ ({ op := 1, skein := 2, effect := 311296, template := none : SkeinCmd }.skein < 64)
      ∧ ({ op := 1, skein := 2, effect := 311296, template := none : SkeinCmd }.template = none)
      ∧ ({ op := 1, skein := 2, effect := 311296, template := none : SkeinCmd }.effect ≤ (cmdS 1 0 311296).now)) := by
  unfold rpTakes
  and_intros <;> decide +kernel

/-- Every clause of `Obligations.Membership` that has hypotheses has them all met. -/
theorem test_witness_Membership :
    ((rpTakes ws1 host)) ∧
    (((epa 3).epMgmtOk 1 (mg 32513).node = true)) ∧
    (((epa 3).epMgmtOk 1 (mg 32514).node = false)) ∧
    ((acks.rpMgmtOk { port := 3, node := (mg 5).node, tray := (mg 5).tray : MgmtSource } 2 = true)
      ∧ ((2, false, 100, 5) ≠ acks.assignment 3)) ∧
    ((scr.occupant = some 2)
      ∧ (scr.flag Part.ronpex Reg.secDbg 15 = true)) ∧
    (((rpw []).occupant = none)) ∧
    (((recs [(5, evt)]).rp.skeins.records = [(5, evt)])
      ∧ (5 ≤ (recs [(5, evt)]).now)) ∧
    ((acks.rpMgmtOk { port := 3, node := (mg 5).node, tray := (mg 5).tray : MgmtSource } 2 = true)
      ∧ ((2, false, 4096, 5) = acks.assignment 3)) := by
  unfold rpTakes
  and_intros <;> decide +kernel

end Sys2Proof.Tests.W11

namespace Sys2Proof.Tests.W12

/-- A state of both parts whose security controller is `x`. -/
def scs (x : Security) (l : SMap Word) : State :=
  let m := l ++ [(Reg.logLost, 0), (Reg.mgtEvtCfg, 0), (Reg.mgtEvtOvf, 0), (Reg.hubErrsum, 0), (Reg.secErr, 0), (Reg.epSecErr, 0), (Reg.epAttErr, 0), (Reg.epSecAssign, 0x82), (Reg.sknCtl 2, 10), (Reg.secCfg, 0), (Reg.epSecCfg, 0)]
  let s := at_ 320000 m m
  { s with rp := { s.rp with sec := x }, ep := { s.ep with sec := x } }
def ses (n : Nat) (f : Bool) : Session := { id := n, finished := f, updates := 0 }
def sx (n : Nat) : Security := { neg := n, sessions := [ses 0 true, ses 3 false], nextSession := 4, restarted := true }
def ws1 : State := scs { sx 3 with sessions := [ses 0 true, ses 1 false, ses 2 true, ses 3 false] } []
def ws2 : State := scs { sx 3 with restartAt := some 5 } []
def kx : Security := { sx 3 with model := some 4, sky := some 5, fkeys := [(2, 8), (3, 9)] }
def l1 (a : Bool) : Security := { kx with restartAt := some 5, activating := a, fw := 2 }
def ws3 : State := { scs (l1 true) [] with now := 2 ^ 40 }

/-- Every clause of `Obligations.SpdmRequests` that has hypotheses has them all met. -/
theorem test_witness_SpdmRequests :
    ((((scs (sx 0) []).sec Part.ronpex).restartAt = none)) ∧
    ((((scs (sx 1) []).sec Part.ronpex).restartAt = none)) ∧
    (((ws2.sec Part.ronpex).restartAt.isSome = true)) ∧
    ((((scs (sx 3) []).sec Part.ronpex).restartAt = none)
      ∧ (((scs (sx 3) []).sec Part.ronpex).neg = 3)) ∧
    ((((scs (sx 3) []).sec Part.ronpex).restartAt = none)
      ∧ (((scs (sx 3) []).sec Part.ronpex).neg = 3)) ∧
    ((((scs (sx 3) []).sec Part.ronpex).restartAt = none)
      ∧ (((scs (sx 3) []).sec Part.ronpex).neg = 3)) ∧
    ((((scs (sx 3) []).sec Part.ronpex).restartAt = none)
      ∧ (((scs (sx 3) []).sec Part.ronpex).neg = 3)
      ∧ (spdmParam2 [1, 2] = 0)
      ∧ (((scs (sx 3) []).sec Part.ronpex).sessions.length < 4)) ∧
    (((ws1.sec Part.ronpex).restartAt = none)
      ∧ ((ws1.sec Part.ronpex).neg = 3)
      ∧ (spdmParam2 [1, 2] = 0)
      ∧ (4 ≤ (ws1.sec Part.ronpex).sessions.length)) ∧
    ((((scs (sx 3) []).sec Part.ronpex).restartAt = none)
      ∧ (((scs (sx 3) []).sec Part.ronpex).neg = 3)
      ∧ (ses 3 false ∈ ((scs (sx 3) []).sec Part.ronpex).sessions)
      ∧ ((ses 3 false).id = 3 ∧ (ses 3 false).finished = false)) ∧
    ((((scs (sx 3) []).sec Part.plocen).restartAt = none)
      ∧ (((scs (sx 3) []).sec Part.plocen).neg = 3)
      ∧ (∀ y ∈ ((scs (sx 3) []).sec Part.plocen).sessions, y.id = 0 → y.finished = true)) ∧
    ((((scs (sx 3) []).sec Part.plocen).restartAt = none)
      ∧ (((scs (sx 3) []).sec Part.plocen).neg = 3)
      ∧ (((scs (sx 3) []).sec Part.plocen).isOpen 0 = true)) ∧
    ((((scs (sx 3) []).sec Part.ronpex).restartAt = none)
      ∧ (((scs (sx 3) []).sec Part.ronpex).neg = 3)
      ∧ (((scs (sx 3) []).sec Part.ronpex).isOpen 3 = false)) ∧
    ((((scs (sx 3) []).sec Part.ronpex).restartAt = none)
      ∧ (((scs (sx 3) []).sec Part.ronpex).neg = 3)
      ∧ (spdmParam2 [1, 2, 0, 1] ≠ 0)) := by
  and_intros <;> decide +kernel

/-- Every clause of `Obligations.KeysAndRestarts` that has hypotheses has them all met. -/
theorem test_witness_KeysAndRestarts :
    ((((scs kx []).sec Part.ronpex).restartAt = none)
      ∧ (((scs kx []).sec Part.ronpex).isOpen 0 = true)
      ∧ (keyFits Part.ronpex 3 2 = true)
      ∧ ((scs kx []).keySkein Part.ronpex 2 = true)
      ∧ ((scs kx []).keyStable Part.ronpex = false ∨ ((scs kx []).sec Part.ronpex).fw = 0)
      ∧ (3 = 3 → (scs kx []).isConf 2 = true)) ∧
    ((((scs kx []).sec Part.ronpex).restartAt = none)
      ∧ (((scs kx []).sec Part.ronpex).isOpen 0 = true)
      ∧ (keyFits Part.ronpex 3 2 = true)
      ∧ ((scs kx []).keySkein Part.ronpex 2 = true)) ∧
    ((((scs kx []).sec Part.plocen).restartAt = none)
      ∧ (((scs kx []).sec Part.plocen).isOpen 3 = false ∨ keyFits Part.plocen 1 2 = false)) ∧
    ((((scs (l1 false) []).sec Part.ronpex).held = [])
      ∧ (((scs (l1 false) []).sec Part.ronpex).restartAt = some 5)
      ∧ (((scs (l1 false) []).sec Part.ronpex).activating = false)) ∧
    ((((scs (l1 true) []).sec Part.plocen).held = [])
      ∧ (((scs (l1 true) []).sec Part.plocen).restartAt = some 5)
      ∧ (((scs (l1 true) []).sec Part.plocen).activating = true)) ∧
    ((((scs (l1 true) []).sec Part.plocen).held = [])
      ∧ (((scs (l1 true) []).sec Part.plocen).restartAt = some 5)
      ∧ (((scs (l1 true) []).sec Part.plocen).activating = true)
      ∧ ((scs (l1 true) []).now < 5 + 50000000)) ∧
    (((ws3.sec Part.plocen).held = [])
      ∧ ((ws3.sec Part.plocen).restartAt = some 5)
      ∧ ((ws3.sec Part.plocen).activating = true)
      ∧ (5 + 50000000 ≤ ws3.now)) := by
  and_intros <;> decide +kernel

end Sys2Proof.Tests.W12

namespace Sys2Proof.Tests.W13

def host : Writer := { origin := 0, requester := 5 }
/-- A Ronpex that accepts register writes, with registers. -/
def rpw (l : SMap Word) : State :=
  let s := at_ 320000 (l ++ [(Reg.logLost, 0), (Reg.mgtEvtCfg, 0), (Reg.mgtEvtOvf, 0), (Reg.hubErrsum, 0), (Reg.fmhChfence 0, 0), (Reg.fmhChfence 1, 0), (Reg.drfStat, 0)]) []
  { s with hbm := [(64, 1), (2 ^ 26, 2)], rp := { s.rp with units := { s.rp.units with awake := 15 }, power := { s.rp.power with supplyLost := false }, links := [(3, { step := 4 }), (50, { step := 5 })] } }
def ws1 : State := rpw [(portBase 3, 0)]
def ws2 : State := rpw [(portBase 3, 1)]
def fenced (n c q : Nat) (st : Nat) : State := rpw [(portBase n, BitVec.ofNat 32 (st + 256 * c)), (portBase n + 0xC, BitVec.ofNat 32 q), (psBase .ronpex n + 4, 2)]
def ws3 : State := { fenced 3 2 2 2 with now := 0, rp := { (fenced 3 2 2 2).rp with regs := [(portBase 3, 0x202), (portBase 3 + 0xC, 2)] } }
def late (f : Units → Units) : State := let s := fenced 3 2 4 2; { s with now := 2 ^ 40, rp := { s.rp with units := f s.rp.units } }
def spq (q : Nat) : State := let s := rpw [(spindleBase 5 + 8, 0)]; { s with rp := { s.rp with units := { s.rp.units with qstep := [(197, q)] } } }
def regs2 : State := let s := rpw (((List.range 12).map fun i => (portBase i, (0x401 : Word)))); { s with rp := { s.rp with units := { s.rp.units with regions := [(0, 5), (3, 6)] } } }
def pows (f : Power → Power) (l : SMap Word) : State := let s := rpw l; { s with rp := { s.rp with power := f s.rp.power, sec := { fkeys := [(1, 2)], slotB := true } } }
def ws4 : State := pows (fun p => { p with tripped := true }) []
def ws5 : State := pows (fun p => { p with inReset := false }) []
def ws6 : State := pows (fun p => { p with inReset := true }) []
def eps : State := let s := at_ 5 [] [(Reg.epSecNode, 3)]; { s with ep := { s.ep with sec := { model := some 5, slotB := true } } }
def ws7 : State := rpw [(Reg.mgtCmdCfg, 0x15), (Reg.logCfg, 0x1F)]
def ws8 : State := pows (fun p => { p with inReset := true, tripped := true, tripClear := 2 ^ 60 }) []

/-- Every clause of `Obligations.UnitFences` that has hypotheses has them all met. -/
theorem test_witness_UnitFences :
    ((3 < 192)
      ∧ (ws1.unitState 3 ≠ 1)
      ∧ (ws1.unitState 3 ≠ 3)) ∧
    ((3 < 192)
      ∧ (ws1.unitState 3 ≠ 1)
      ∧ (ws1.unitState 3 ≠ 3)
      ∧ (3 = 3)
      ∧ (3 = 3)
      ∧ (rpTakes ws1 host)
      ∧ (bit 0 (BitVec.toNat (1 : Word)) = true)) ∧
    (((rpw []).spFenced 5 = false)
      ∧ ((rpw []).regionOff (spindleRegion 5) = false)) ∧
    (((rpw []).spFenced 5 = false)
      ∧ ((rpw []).regionOff (spindleRegion 5) = false)
      ∧ (197 = 192 + 5)
      ∧ (rpTakes (rpw []) host)
      ∧ (bit 0 (BitVec.toNat (1 : Word)) = true)) ∧
    ((3 < 192)
      ∧ (ws2.unitState 3 = 1 ∨ ws2.unitState 3 = 3)) ∧
    ((33 < 128)
      ∧ ((rpw []).flag Part.ronpex (Reg.fmhChfence (33 / 32)) (33 % 32) = false)) ∧
    ((4 < 16)
      ∧ ((rpw []).regionOff 4 = false)) ∧
    ((1 < 4)
      ∧ (bit 1 (rpw []).rp.units.awake = true)) := by
  unfold rpTakes
  and_intros <;> decide +kernel

/-- Every clause of `Obligations.Quarantine` that has hypotheses has them all met. -/
theorem test_witness_Quarantine :
    ((3 = 3 ∨ 3 = 416 + 3)
      ∧ (rpTakes (fenced 3 5 0 1) host)
      ∧ (bit 0 (BitVec.toNat (2 : Word)) = false)
      ∧ (bit 1 (BitVec.toNat (2 : Word)) = true)
      ∧ ((fenced 3 5 0 1).fld Part.ronpex (portBase 3) 0 2 = 1)
      ∧ ((fenced 3 5 0 1).fld Part.ronpex (portBase 3) 8 8 ∈ [1, 2, 5, 7])
      ∧ ((fenced 3 5 0 1).pstFenced 3 = false)) ∧
    ((419 = 3 ∨ 419 = 416 + 3)
      ∧ (rpTakes (fenced 3 2 0 0) host)
      ∧ (bit 0 (BitVec.toNat (2 : Word)) = false)
      ∧ (bit 1 (BitVec.toNat (2 : Word)) = true)
      ∧ ((fenced 3 2 0 0).fld Part.ronpex (portBase 3) 0 2 ≠ 1)) ∧
    ((608 ≤ 3 ∨ (fenced 3 2 0 1).quarantined 3 = false)) ∧
    ((3 < 192)
      ∧ ((fenced 3 2 1 2).unitState 3 = 2)
      ∧ ((fenced 3 2 1 2).unitQstep 3 = 1)
      ∧ ((fenced 3 2 1 2).pstFenced (416 + 3) = false)) ∧
    ((3 < 192)
      ∧ ((fenced 3 2 2 2).unitState 3 = 2)
      ∧ ((fenced 3 2 2 2).unitQstep 3 = 2)
      ∧ ((fenced 3 2 2 2).portUp Part.ronpex 3 = true)) ∧
    ((3 < 192)
      ∧ (ws3.unitState 3 = 2)
      ∧ (ws3.unitQstep 3 = 2)
      ∧ (ws3.portUp Part.ronpex 3 = false)) ∧
    ((3 < 192)
      ∧ ((fenced 3 2 2 2).unitState 3 = 2)
      ∧ ((fenced 3 2 2 2).unitQstep 3 = 2)) ∧
    ((3 < 192)
      ∧ ((fenced 3 2 3 2).unitState 3 = 2)
      ∧ ((fenced 3 2 3 2).unitQstep 3 = 3)
      ∧ ((fenced 3 2 3 2).rp.pst.locked (Reg.pstGen (3 / 2)) = false)
      ∧ (∀ e ∈ (fenced 3 2 3 2).rp.pst.queue, e.1 ≠ Reg.pstGen (3 / 2))
      ∧ ((fenced 3 2 3 2).rp.pst.locked (Reg.pstGen ((416 + 3) / 2)) = false)
      ∧ (∀ e ∈ (fenced 3 2 3 2).rp.pst.queue, e.1 ≠ Reg.pstGen ((416 + 3) / 2))) ∧
    ((3 < 192)
      ∧ ((fenced 3 2 4 2).unitState 3 = 2)
      ∧ ((fenced 3 2 4 2).unitQstep 3 = 4)
      ∧ ((fenced 3 2 4 2).linkErrors 3 ≤ SMap.look (fun _ => 0) (fenced 3 2 4 2).rp.units.qbase 3)
      ∧ ((fenced 3 2 4 2).now < SMap.look (fun _ => 0) (fenced 3 2 4 2).rp.units.since 3 + 64 * frameNs)) ∧
    ((3 < 192)
      ∧ ((late id).unitState 3 = 2)
      ∧ ((late id).unitQstep 3 = 4)
      ∧ ((late id).linkErrors 3 ≤ SMap.look (fun _ => 0) (late id).rp.units.qbase 3)
      ∧ (SMap.look (fun _ => 0) (late id).rp.units.since 3 + 64 * frameNs ≤ (late id).now)) ∧
    ((3 < 192)
      ∧ ((late id).unitState 3 = 2)
      ∧ ((late id).unitQstep 3 = 4)
      ∧ (false = false ∨ SMap.look (fun _ => 0) (late id).rp.units.qbase 3 < (late id).linkErrors 3)) ∧
    ((192 ≤ 197)
      ∧ (197 < 416)
      ∧ ((spq 1).quarantined 197 = true)
      ∧ ((spq 1).unitQstep 197 = 1)) ∧
    ((192 ≤ 197)
      ∧ (197 < 416)
      ∧ ((spq 3).quarantined 197 = true)
      ∧ ((spq 3).unitQstep 197 = 3)
      ∧ ((spq 3).rp.pst.locked (Reg.pstGen (197 / 2)) = false)
      ∧ (∀ e ∈ (spq 3).rp.pst.queue, e.1 ≠ Reg.pstGen (197 / 2))) ∧
    (((0, 5) ∈ regs2.rp.units.regions)
      ∧ ((0, 5).1 = 0)
      ∧ (∀ e ∈ regs2.rp.units.dies, e.1 ≠ 0 / 4)
      ∧ (bit (0 / 4) regs2.rp.units.awake = true)) ∧
    ((∀ e ∈ regs2.rp.units.regions, e.1 ≠ 1)
      ∧ (∀ e ∈ regs2.rp.units.dies, e.1 ≠ 1 / 4)) ∧
    ((419 = 3 ∨ 419 = 416 + 3)
      ∧ (rpTakes (fenced 3 2 0 1) host)
      ∧ (bit 0 (BitVec.toNat (2 : Word)) = false)
      ∧ (bit 1 (BitVec.toNat (2 : Word)) = true)
      ∧ ((fenced 3 2 0 1).fld Part.ronpex (portBase 3) 0 2 = 1)
      ∧ ((fenced 3 2 0 1).fld Part.ronpex (portBase 3) 8 8 ∈ [1, 2, 5, 7])
      ∧ ((fenced 3 2 0 1).pstFenced 3 = false)
      ∧ ((fenced 3 2 0 1).pstFenced 419 = false)) ∧
    ((416 ≤ 419)) := by
  unfold rpTakes
  and_intros <;> decide +kernel

/-- Every clause of `Obligations.Resets` that has hypotheses has them all met. -/
theorem test_witness_Resets :
    (((pows id []).rp.power.tripped = false)) ∧
    ((ws4.rp.power.tripped = true)) ∧
    ((ws5.rp.power.inReset = false)) ∧
    ((ws6.rp.power.inReset = true)
      ∧ (ws6.rp.power.tripped = false ∨ ws6.rp.power.tripClear ≤ ws6.now)) ∧
    (((pows id []).rp.power.supplyLost = false)
      ∧ (bit 0 (BitVec.toNat (1 : Word)) = true)
      ∧ ((pows id []).rp.sec.restartAt = none)) ∧
    ((ws8.rp.power.inReset = true)
      ∧ (ws8.rp.power.tripped = true)
      ∧ (ws8.now < ws8.rp.power.tripClear)) := by
  and_intros <;> decide +kernel

end Sys2Proof.Tests.W13

namespace Sys2Proof.Tests.W14

def host : Writer := { origin := 0, requester := 5 }
/-- A Ronpex with a power state, and registers. -/
def pwr (l : SMap Word) (f : Power → Power) : State :=
  let s := at_ (2 ^ 40) (l ++ [(Reg.logLost, 0), (Reg.mgtEvtCfg, 0), (Reg.mgtEvtOvf, 0), (Reg.hubErrsum, 0), (Reg.drfStat, 0), (Reg.timPwrStat, 0), (Reg.timWake, 0)]) []
  { s with hbm := [(64, 1), (2 ^ 26, 2)], rp := { s.rp with units := { s.rp.units with awake := 15 }, power := f { s.rp.power with supplyLost := false }, links := [(3, { step := 4 }), (50, { step := 5 })] } }
def ws1 : State := pwr [] fun p => { p with alert := true }
def ws2 : State := pwr [] fun p => { p with alert := false }
def ws3 : State := pwr [(Reg.timPwrStat, 0x13)] fun p => { p with alert := true }
def ws4 : State := pwr [] fun p => { p with alertOff := some (2 ^ 40 - 5) }
def ws5 : State := pwr [(Reg.timPwrStat, 0x12)] fun p => { p with alertOff := some 5, wakeHeld := true }
def hot (d t0 : Nat) : State := pwr [(Reg.timPwrStat, 0xC), (Reg.timTherm d, 0), (portBase (48 * d + 5), 0)] fun p => { p with sensors := (List.range 32).map fun i => if i = 8 * d + 3 then 1060 else 500, fencedAt := [(d, t0)] }
theorem hot_flag (t0 j : Nat) : (hot 1 t0).flag .ronpex (Reg.timTherm 1) j = false := by
  have h : (hot 1 t0).reg .ronpex (Reg.timTherm 1) = 0 := by rfl
  simp [State.flag, h, bit, bits]
theorem hot_region (t0 : Nat) : (hot 1 t0).hottestRegion 1 = some (Config.sensorRegion 11 % 4) := by
  unfold State.hottestRegion
  simp only [hot_flag]
  rfl
theorem hot_on : ∀ r < 4, (hot 1 5).regionOff (4 * 1 + r) = false ∧ (hot 1 (2 ^ 40 - 5)).regionOff (4 * 1 + r) = false := by decide +kernel
def ws6 : State := pwr [(Reg.timPwrStat, 8)] fun p => { p with cool := [(2, 2 ^ 40 - 5)] }
def ws7 : State := pwr [(Reg.timPwrStat, 8)] fun p => { p with cool := [(2, 5)] }
def ws8 : State := pwr [(Reg.timPwrStat, 12)] fun p => { p with cool := [(3, 5)], alert := true }
def ws9 : State := pwr [(Reg.timPwrStat, 4)] fun p => { p with cool := [(1, 5)] }
def ws10 : State := pwr [] fun p => { p with dieCool := [(1, 2 ^ 40 - 5)] }
def ws11 : State := pwr [(Reg.timTherm 1, 0x50000)] fun p => { p with dieCool := [(1, 5)] }
def ws12 : State := pwr [(Reg.drfStat, 8)] id
def ws13 : State := pwr [(Reg.timWake, 4)] id
def ws14 : State := pwr [(Reg.timWake, 4)] fun p => { p with alert := true }
def ws15 : State := pwr [(Reg.timWake, 8)] fun p => { p with ramp := [0, 1, 2, 3] }
def ws16 : State := pwr [(Reg.timWake, 0x10)] id
def ws17 : State := pwr [] fun p => { p with tripped := true }
def trayed (s : State) : State := { s with rp := { s.rp with tray := { s.rp.tray with link := (true, true) } } }
def ws18 : State := trayed (pwr [(Reg.timWake, 0)] id)
def ws19 : State := pwr [] fun p => { p with coreEn := 3 }
def ws20 : State := pwr [] fun p => { p with coreEn := 3, corePg := 2 }
def ws21 : State := pwr [] fun p => { p with coreEn := 1 }
def ws22 : State := pwr [] fun p => { p with hbmEn := 3 }
def ws23 : State := pwr [] fun p => { p with supplyLost := true }
def ws24 : State := pwr [(Reg.timWake, 0xC)] fun p => { p with coreEn := 1, hbmEn := 1, corePg := 1, ramp := [1, 2, 3], t0 := some 5 }
def tm (l : SMap Word) (f : TimeSt → TimeSt) : State := let s := pwr l id; { s with rp := { s.rp with time := f s.rp.time }, ep := { s.ep with time := f s.ep.time } }
def ws25 : State := tm [] fun t => { t with exchAt := some (2 ^ 40 - 5) }
def ws26 : State := tm [(Reg.timCtl, 0x040300)] fun t => { t with exchAt := some 5, source := 0 }
def ws27 : State := tm [(Reg.timCtl, 0xFF0302)] fun t => { t with exchAt := some 5, source := 0 }
def ws28 : State := tm [(Reg.timCtl, 0xFF0300)] fun t => { t with exchAt := some 5, source := 0, everLocked := true }
def ws29 : State := tm [(Reg.timCtl, 0xFF0300)] fun t => { t with exchAt := some 5, source := 0, everLocked := false }
def ws30 : State := tm [] fun t => { t with exchAt := some 5, everLocked := true }
def ws31 : State := tm [] fun t => { t with holdover := some (2 ^ 40 - 5), everLocked := true }
def ws32 : State := tm [(portBase 3, 0), (portBase 4, 2), (portBase 5, 0x301)] fun t => { t with holdover := some 5, everLocked := true }
def ws33 : State := tm [] fun t => { t with holdover := some 5, everLocked := true }
def ws34 : State := tm [(Reg.timCtl, 1)] id
def ws35 : State := tm [(Reg.timCtl, 0)] id
def ws36 : State := tm [] fun t => { t with exchAt := none, resetAt := 2 ^ 40 - 5 }

/-- Every clause of `Obligations.PowerAndHeat` that has hypotheses has them all met. -/
theorem test_witness_PowerAndHeat :
    ((ws1.rp.power.alert = true)) ∧
    ((ws2.rp.power.alert = false)) ∧
    ((ws3.rp.power.alert = true)) ∧
    ((ws4.rp.power.alert = false)
      ∧ (ws4.rp.power.alertOff = some (2 ^ 40 - 5))
      ∧ (ws4.now < 2 ^ 40 - 5 + 100000000)) ∧
    ((ws5.rp.power.alert = false)
      ∧ (ws5.rp.power.alertOff = some 5)
      ∧ (5 + 100000000 ≤ ws5.now)
      ∧ (ws5.fld Part.ronpex Reg.timPwrStat 2 2 < 2)
      ∧ (ws5.flag Part.ronpex Reg.timPwrStat 1 = false ∨ ws5.running = false)) ∧
    (((hot 1 (2 ^ 40 - 5)).fld Part.ronpex Reg.timPwrStat 2 2 = 3)
      ∧ (1050 ≤ dieTemp (hot 1 (2 ^ 40 - 5)).rp.power.sensors 1)
      ∧ ((hot 1 (2 ^ 40 - 5)).rp.power.fencedAt = [(1, 2 ^ 40 - 5)])
      ∧ ((hot 1 (2 ^ 40 - 5)).hottestRegion 1 = some (Config.sensorRegion 11 % 4))
      ∧ (Config.sensorRegion 11 % 4 < 4)
      ∧ ((hot 1 (2 ^ 40 - 5)).regionOff (4 * 1 + Config.sensorRegion 11 % 4) = false)
      ∧ ((hot 1 (2 ^ 40 - 5)).now < 2 ^ 40 - 5 + 500000000)) ∧
    (((hot 1 5).fld Part.ronpex Reg.timPwrStat 2 2 = 3)
      ∧ (1050 ≤ dieTemp (hot 1 5).rp.power.sensors 1)
      ∧ ((hot 1 5).rp.power.fencedAt = [(1, 5)])
      ∧ ((hot 1 5).hottestRegion 1 = some (Config.sensorRegion 11 % 4))
      ∧ (Config.sensorRegion 11 % 4 < 4)
      ∧ ((hot 1 5).regionOff (4 * 1 + Config.sensorRegion 11 % 4) = false)
      ∧ (5 + 500000000 ≤ (hot 1 5).now)) ∧
    ((ws6.fld Part.ronpex Reg.timPwrStat 2 2 = 2)
      ∧ (2 ≠ 0)
      ∧ (ws6.rp.power.cool = [(2, 2 ^ 40 - 5)])
      ∧ (ws6.now < 2 ^ 40 - 5 + 1000000000)) ∧
    ((ws7.fld Part.ronpex Reg.timPwrStat 2 2 = 2)
      ∧ (2 ≠ 0)
      ∧ (ws7.rp.power.cool = [(2, 5)])
      ∧ (5 + 1000000000 ≤ ws7.now)) ∧
    ((ws10.rp.power.dieCool = [(1, 2 ^ 40 - 5)])
      ∧ (ws10.now < 2 ^ 40 - 5 + 1000000000)) ∧
    ((ws11.rp.power.dieCool = [(1, 5)])
      ∧ (5 + 1000000000 ≤ ws11.now)) ∧
    ((rpTakes (pwr [] id) host)
      ∧ (bits 0 2 (BitVec.toNat (1 : Word)) = 1)
      ∧ ((pwr [] id).wakeState = 0)
      ∧ ((pwr [] id).quiet = true)) ∧
    ((rpTakes ws13 host)
      ∧ (bits 0 2 (BitVec.toNat (2 : Word)) = 2)
      ∧ (ws13.wakeState = 1)
      ∧ (ws13.rp.power.tripped = false)) ∧
    ((ws15.rp.power.tripped = false)
      ∧ (ws15.flag Part.ronpex Reg.timWake 4 = false)) ∧
    ((ws24.rp.power.t0 = some 5)
      ∧ (5 + 50000 * 1 ≤ ws24.now)
      ∧ (1 ∈ ws24.rp.power.ramp)
      ∧ (bit 1 ws24.rp.power.corePg = false)
      ∧ (ws24.rp.power.tripped = false)) ∧
    ((bit 1 ws20.rp.power.coreEn = true)) ∧
    ((bit 1 ws22.rp.power.hbmEn = true)) ∧
    ((ws19.rp.power.supplyLost = false)) := by
  unfold rpTakes
  and_intros <;> first | decide +kernel | exact hot_region _ | exact Nat.mod_lt _ (by decide) | exact (hot_on _ (Nat.mod_lt _ (by decide))).1

/-- Every clause of `Obligations.SleepAndWake` that has hypotheses has them all met. -/
theorem test_witness_SleepAndWake :
    ((rpTakes (pwr [] id) host)
      ∧ (bits 0 2 (BitVec.toNat (1 : Word)) = 1)
      ∧ ((pwr [] id).wakeState = 0)
      ∧ ((pwr [] id).quiet = true)) ∧
    ((rpTakes ws12 host)
      ∧ (bits 0 2 (BitVec.toNat (1 : Word)) = 1)
      ∧ (ws12.quiet = false)) ∧
    ((rpTakes ws13 host)
      ∧ (bits 0 2 (BitVec.toNat (2 : Word)) = 2)
      ∧ (bits 4 2 (BitVec.toNat (2 : Word)) ≠ 3)
      ∧ (ws13.wakeState = 1)
      ∧ (ws13.rp.power.tripped = false)) ∧
    ((ws15.rp.power.tripped = false)
      ∧ (ws15.flag Part.ronpex Reg.timWake 4 = true → ws15.flag Part.ronpex Reg.timWake 5 = true)
      ∧ (ws15.wakeState = 2)
      ∧ (ws15.rp.power.wakeHeld = false)
      ∧ (ws15.rp.power.token = none)
      ∧ (ws15.rp.power.ramp = [0, 1, 2, 3])) ∧
    ((ws16.rp.power.tripped = false)
      ∧ (ws16.flag Part.ronpex Reg.timWake 4 = true)
      ∧ (ws16.flag Part.ronpex Reg.timWake 5 = false)) ∧
    ((ws17.rp.power.tripped = true)) ∧
    ((ws18.rp.power.tripped = false)
      ∧ (ws18.wakeState ≠ 2)
      ∧ (ws18.flag Part.ronpex Reg.timWake 4 = false)
      ∧ (ws18.trayUp 0 = true)) ∧
    ((bit 1 ws19.rampDue.rp.power.coreEn = true)
      ∧ (bit 1 ws19.rampDue.rp.power.corePg = false)
      ∧ (ws19.rp.power.tripped = false)) ∧
    ((bit 1 ws20.rampDue.rp.power.coreEn = false ∨ bit 1 ws20.rampDue.rp.power.corePg = true ∨ ws20.rp.power.tripped = true)) ∧
    ((bit 1 ws20.rp.power.coreEn = true)) ∧
    ((bit 1 ws21.rp.power.coreEn = false)) ∧
    ((bit 1 ws22.rp.power.hbmEn = true)) ∧
    ((bit 2 ws22.rp.power.hbmEn = false)) ∧
    ((ws23.rp.power.supplyLost = true)) ∧
    ((ws19.rp.power.supplyLost = false)
      ∧ (ws19.rp.pst.queue = [])) := by
  unfold rpTakes
  and_intros <;> decide +kernel

/-- Every clause of `Obligations.FabricTime` that has hypotheses has them all met. -/
theorem test_witness_FabricTime :
    ((ws25.rp.time.exchAt = some (2 ^ 40 - 5))
      ∧ (ws25.now < 2 ^ 40 - 5 + 3000000)) ∧
    ((ws26.rp.time.exchAt = some 5)
      ∧ (5 + 3000000 ≤ ws26.now)
      ∧ (ws26.flag Part.ronpex Reg.timCtl 0 = false)
      ∧ (ws26.rp.time.source = 0)
      ∧ (ws26.rp.time.holdover = none)
      ∧ (ws26.fld Part.ronpex Reg.timCtl 16 8 ≠ 255)) ∧
    ((ws27.rp.time.exchAt = some 5)
      ∧ (5 + 3000000 ≤ ws27.now)
      ∧ (ws27.flag Part.ronpex Reg.timCtl 0 = false)
      ∧ (ws27.rp.time.source = 0)
      ∧ (ws27.rp.time.holdover = none)
      ∧ (ws27.fld Part.ronpex Reg.timCtl 16 8 = 255)
      ∧ (ws27.flag Part.ronpex Reg.timCtl 1 = true)) ∧
    ((ws28.rp.time.exchAt = some 5)
      ∧ (5 + 3000000 ≤ ws28.now)
      ∧ (ws28.flag Part.ronpex Reg.timCtl 0 = false)
      ∧ (ws28.rp.time.source = 0)
      ∧ (ws28.rp.time.holdover = none)
      ∧ (ws28.fld Part.ronpex Reg.timCtl 16 8 = 255)
      ∧ (ws28.flag Part.ronpex Reg.timCtl 1 = false)) ∧
    ((ws30.ep.time.exchAt = some 5)
      ∧ (5 + 3000000 ≤ ws30.now)
      ∧ (ws30.ep.time.holdover = none)
      ∧ (∀ q < 8, ws30.portUp Part.plocen q = false ∨ (ws30.link Part.plocen q).farTime = none)) ∧
    ((ws31.rp.time.holdover = some (2 ^ 40 - 5))
      ∧ (ws31.rp.time.everLocked = true)
      ∧ (ws31.now < 2 ^ 40 - 5 + 150000000)) ∧
    ((ws32.rp.time.holdover = some 5)
      ∧ (ws32.rp.time.everLocked = true)
      ∧ (5 + 150000000 ≤ ws32.now)) ∧
    ((ws33.ep.time.holdover = some 5)
      ∧ (ws33.ep.time.everLocked = true)
      ∧ (5 + 150000000 ≤ ws33.now)) ∧
    ((rpTakes ws34 host)
      ∧ (ws34.flag Part.ronpex Reg.timCtl 0 = true)
      ∧ (ws34.quiet = true)) ∧
    ((rpTakes ws35 host)
      ∧ (ws35.flag Part.ronpex Reg.timCtl 0 = false ∨ ws35.quiet = false)) ∧
    ((ws36.rp.time.exchAt = none)
      ∧ (ws36.now < ws36.rp.time.resetAt + 3000000)) := by
  unfold rpTakes
  and_intros <;> decide +kernel

end Sys2Proof.Tests.W14

namespace Sys2Proof.Tests.W15

def host : Writer := { origin := 0, requester := 5 }
/-- A Ronpex whose rings are enabled. -/
def mgw (l : SMap Word) (f : MgmtRings → MgmtRings) : State :=
  let s := at_ 320000 (l ++ [(Reg.mgtCmdCfg, 0x15), (Reg.mgtEvtCfg, 0x15), (Reg.logCfg, 0x15), (Reg.mgtEvtOvf, 0), (Reg.mgtStat, 0), (Reg.logStat, 0), (Reg.logLost, 0), (Reg.hubErrsum, 0), (Reg.drfStat, 0), (Reg.budStat, 256), (Reg.sknStat, 0), (Reg.timWake, 0), (Reg.xbrCtl, 0)]) []
  { s with hbm := [(64, 1), (2 ^ 26, 2)], rp := { s.rp with units := { s.rp.units with awake := 15 }, power := { s.rp.power with supplyLost := false }, mgmt := f { s.rp.mgmt with cmdHead := 4, cmdTail := 6 } } }
def ws1 : State := mgw [] fun m => { m with cmdHead := 6 }
def ws2 : State := mgw [] fun m => { m with evtTail := 9, evtHead := 5 }
def ws3 : State := mgw [] fun m => { m with logTail := 9, logHead := 5 }
def le (n : Nat) : LogEntry := { body := { time := n, type := 0, origin := 0, requester := 0, port := 255, skein := 0, addr := 4, old := 1, new := 2 }, chain := 77 }
def lgs (c : Nat) : State := let s := mgw [(Reg.logCfg, BitVec.ofNat 32 c)] id; { s with rp := { s.rp with log := { s.rp.log with ents := [le 1, le 2, le 3], pend := 2 } } }
def cmd (op p0 : Nat) : Command := { op := op, tag := 9, addr := 0, len := 0, p0 := p0, p1 := 0, args := List.replicate 32 0 }
def ws4 : State := mgw [] fun m => { m with cmdTail := 4 }

def ws5 : State := mgw [(Reg.drfStat, 8)] id
def loaded2 : State := mgw [(draftBase 3 2 + 8, 99), (draftBase 3 2 + 4, 98)] id
def ws6 : State := mgw [(Reg.sknCtl 2, 0)] id
def ws7 : State := mgw [(portBase 3, 0)] id
def ws8 : State := mgw [(portBase 3, 0x501)] id
def ws9 : State := mgw [(portBase 3, 0x401)] id
def resetting : State := let s := mgw [] id; { s with rp := { s.rp with units := { s.rp.units with regions := [(3, 5)] } } }
def ws10 : State := mgw [(Reg.fmhEpoch, 5)] id
def twoUp : State := mgw [(psBase .ronpex 3 + 4, 2), (psBase .ronpex 4 + 4, 2), (psBase .ronpex 3 + 0x18, 0x301), (psBase .ronpex 4 + 0x18, 0x301), (Reg.sknPort 3, 0x502), (Reg.sknPort 4, 0x602)] id
def ten (k m : Nat) : State := let s := mgw [(Reg.budCtl, 1), (Reg.budAux 2, 0x20000), (Reg.sknCtl 2, 2)] id; { s with rp := { s.rp with skeins := { s.rp.skeins with mgmt := [(k, m)] } } }
def tcmd : Command := { cmd 9 0x10002 with addr := 0x1000, p1 := Reg.budAux 2 }
def fws (n : Nat) (b : Bool) : State := let s := mgw [] id; { s with rp := { s.rp with sec := { s.rp.sec with fw := n, slotB := b, slotDataA := [(3, 5), (4097, 6), (20000, 7)], slotDataB := [(3, 5), (4097, 6), (20000, 7)] } } }
def trayed (l : SMap Word) (f : Tray → Tray) : State := let s := mgw l id; { s with rp := { s.rp with tray := f { s.rp.tray with link := (true, true) }, pst := { s.rp.pst with words := [(Reg.pstTray, 1)] } } }
def tf (ty hops src dst : Nat) (m : Option Mgmt) : TrayFrame := sealedFrame { ftype := ty, hops := hops, src := src, dst := dst, fseq := 3, mgmt := m, body := [1], crc := 0 }
def lb : LogBody := (le 5).body
def ws11 : State := mgw [(Reg.xbrRt 5, 0x301), (Reg.sknPort 3, 0x502), (portSetBase 3 + 0x18, 0x301)] id
def ws12 : State := trayed [(Reg.timWake, 8)] id
def ws13 : State := trayed [(Reg.timWake, 0)] id
def chain (t0 : Nat) : State := { trayed [(Reg.timWake, 0x30)] (fun t => { t with tokenAt := [(1, t0)] }) with now := 2 ^ 40 }
def pq (l : List (Nat × Word)) : State := let s := mgw [] id; { s with rp := { s.rp with pst := { s.rp.pst with queue := l, words := [(Reg.pstHours, 7)] } } }
def ws14 : State := pq [(Reg.pstHours, 9), (Reg.pstHours, 10)]
def ords (l : SMap Word) (o : Orders) : State :=
  let s := mgw (l ++ [(Reg.epSeqWnode 1, 0x7F01), (Reg.epSeqEpoch, 5), (Reg.fmhEpoch, 5), (Reg.epSecAssign, 0x82)]) id
  let s1 := { s with ep := { s.ep with regs := s.rp.regs } }
  { s1 with rp := { s1.rp with orders := o }, ep := { s1.ep with orders := o, hanks := [(3, 4)] } }
def trayMsg : MgmtSource := { port := 255, node := 0, tray := true }
def mg1 : MgmtSource := { port := 1, node := 0x7F01, tray := false }
def eo (t0 : Nat) : Orders := { epoch := some (6, t0), snap := some (t0, 7, 5) }
def ws15 : State := ords [] (eo 330000)
def ws16 : State := ords [] (eo 320000)
def rpt : Report := { type := 3, plane := 1, target := 7, epoch := 5, suppressed := 2, time := 9 }
def rps (l : List RepEnt) : State := let s := mgw [(Reg.xbrRt 5, 0x301), (Reg.sknPort 3, 0x502), (portSetBase 3 + 0x18, 0x301), (psBase .ronpex 3 + 4, 2)] id; { s with rp := { s.rp with filter := { s.rp.filter with ents := l } } }
def n5 : MgmtSource := { port := 3, node := 5, tray := false }
def ws17 : State := rps [{ type := 3, target := 7, since := 5, count := 1 }]
def rw_ (t0 n : Nat) : RepWin := { r := rpt, since := t0, withheld := n }
def epr (r : List RepWin) (hs : List Held) : State :=
  let s := ords [(psBase .plocen 0 + 4, 2), (psBase .plocen 1 + 4, 2)] {}
  { s with ep := { s.ep with reps := r, released := [(0, 0), (1, 0)], src := { s.ep.src with held := hs } } }
def ws18 : State := epr [rw_ 319000 0] []
def ws19 : State := epr [rw_ 9000 0] []
def ws20 : State := epr [rw_ 9000 4] []
def ws21 : State := { epr [rw_ 9000 4] [] with ep := { (epr [rw_ 9000 4] []).ep with released := [] } }
def hl : Held := { held .sent (.store 6) with plane := 1, due := 300000 }
def twice : State := trayed [] fun t => { t with seen := [(2, 3, 319000)] }
def hlb : Held := { hl with loc := .backoff 400000 }

/-- Every clause of `Obligations.MgmtDoorbells` that has hypotheses has them all met. -/
theorem test_witness_MgmtDoorbells :
    ((rpTakes (mgw [] id) host)
      ∧ (subMod 32 (BitVec.toNat (8 : Word)) (mgw [] id).rp.mgmt.cmdHead ≤ (mgw [] id).mgtSize Reg.mgtCmdCfg 10 ∧ subMod 32 (BitVec.toNat (8 : Word)) (mgw [] id).rp.mgmt.cmdTail ≤ (mgw [] id).mgtSize Reg.mgtCmdCfg 10)) ∧
    ((rpTakes (mgw [] id) host)
      ∧ ((mgw [] id).mgtSize Reg.mgtCmdCfg 10 < subMod 32 (BitVec.toNat (2147483648 : Word)) (mgw [] id).rp.mgmt.cmdHead ∨ (mgw [] id).mgtSize Reg.mgtCmdCfg 10 < subMod 32 (BitVec.toNat (2147483648 : Word)) (mgw [] id).rp.mgmt.cmdTail)) ∧
    ((rpTakes ws2 host)
      ∧ (subMod 32 (BitVec.toNat (9 : Word)) ws2.rp.mgmt.evtHead ≤ subMod 32 ws2.rp.mgmt.evtTail ws2.rp.mgmt.evtHead)) ∧
    ((rpTakes ws2 host)
      ∧ (subMod 32 ws2.rp.mgmt.evtTail ws2.rp.mgmt.evtHead < subMod 32 (BitVec.toNat (10 : Word)) ws2.rp.mgmt.evtHead)) ∧
    ((rpTakes ws3 host)
      ∧ (subMod 32 (BitVec.toNat (9 : Word)) ws3.rp.mgmt.logHead ≤ subMod 32 ws3.rp.mgmt.logTail ws3.rp.mgmt.logHead)) ∧
    ((rpTakes ws3 host)
      ∧ (subMod 32 ws3.rp.mgmt.logTail ws3.rp.mgmt.logHead < subMod 32 (BitVec.toNat (4 : Word)) ws3.rp.mgmt.logHead)) ∧
    ((rpTakes (lgs 21) host)
      ∧ ((lgs 21).flag Part.ronpex Reg.logCfg 4 = true)
      ∧ ((lgs 21).rp.log.pend ≠ 0)
      ∧ (subMod 32 (lgs 21).rp.mgmt.logTail (lgs 21).rp.mgmt.logHead < (lgs 21).mgtSize Reg.logCfg 14)
      ∧ ((lgs 21).rp.log.lost = 0)
      ∧ ((lgs 21).rp.log.ents[(lgs 21).rp.log.ents.length - (lgs 21).rp.log.pend]? = some (le 2))) := by
  unfold rpTakes
  and_intros <;> decide +kernel

/-- Every clause of `Obligations.CommandFrame` that has hypotheses has them all met. -/
theorem test_witness_CommandFrame :
    (((mgw [] id).mayFetch = true)
      ∧ ((cmd 0 0).fetchOk = true)
      ∧ ((cmd 0 0).op = 0)
      ∧ (Command.unusedZero (cmd 0 0) { : Uses } = true)) ∧
    (((mgw [] id).rp.sec.restartAt = none)
      ∧ ((mgw [] id).evtFree = true)
      ∧ ((mgw [] id).reg Part.ronpex Reg.mgtEvtOvf = 0)) ∧
    (((0, Instr.nop (cmd 0 0)) ∈ [(0, Instr.nop (cmd 0 0)), (1, Instr.draftLoad (cmd 0 0) [] true), (2, Instr.skein (cmd 0 0)), (3, Instr.fence (cmd 0 0)), (4, Instr.return (cmd 0 0)), (5, Instr.reset (cmd 0 0)), (6, Instr.epoch (cmd 0 0)), (7, Instr.snapshot (cmd 0 0)), (8, Instr.send (cmd 0 0) [] true), (9, Instr.tenant (cmd 0 0)), (10, Instr.fwWrite (cmd 0 0) [] true), (11, Instr.fwVerify (cmd 0 0)), (12, Instr.fwActivate (cmd 0 0)), (13, Instr.fwErase (cmd 0 0))])
      ∧ (ws4.mayFetch = false)) ∧
    (((0, Instr.nop ({ cmd 0 0 with fetchOk := false })) ∈ [(0, Instr.nop ({ cmd 0 0 with fetchOk := false })), (1, Instr.draftLoad ({ cmd 0 0 with fetchOk := false }) [] true), (2, Instr.skein ({ cmd 0 0 with fetchOk := false })), (3, Instr.fence ({ cmd 0 0 with fetchOk := false })), (4, Instr.return ({ cmd 0 0 with fetchOk := false })), (5, Instr.reset ({ cmd 0 0 with fetchOk := false })), (6, Instr.epoch ({ cmd 0 0 with fetchOk := false })), (7, Instr.snapshot ({ cmd 0 0 with fetchOk := false })), (8, Instr.send ({ cmd 0 0 with fetchOk := false }) [] true), (9, Instr.tenant ({ cmd 0 0 with fetchOk := false })), (10, Instr.fwWrite ({ cmd 0 0 with fetchOk := false }) [] true), (11, Instr.fwVerify ({ cmd 0 0 with fetchOk := false })), (12, Instr.fwActivate ({ cmd 0 0 with fetchOk := false })), (13, Instr.fwErase ({ cmd 0 0 with fetchOk := false }))])
      ∧ ((mgw [] id).mayFetch = true)
      ∧ (({ cmd 0 0 with fetchOk := false }).fetchOk = false)) ∧
    (((2, Instr.skein ({ cmd 2 0 with rsv := 5 })) ∈ [(0, Instr.nop ({ cmd 2 0 with rsv := 5 })), (1, Instr.draftLoad ({ cmd 2 0 with rsv := 5 }) [] true), (2, Instr.skein ({ cmd 2 0 with rsv := 5 })), (3, Instr.fence ({ cmd 2 0 with rsv := 5 })), (4, Instr.return ({ cmd 2 0 with rsv := 5 })), (5, Instr.reset ({ cmd 2 0 with rsv := 5 })), (6, Instr.epoch ({ cmd 2 0 with rsv := 5 })), (7, Instr.snapshot ({ cmd 2 0 with rsv := 5 })), (8, Instr.send ({ cmd 2 0 with rsv := 5 }) [] true), (9, Instr.tenant ({ cmd 2 0 with rsv := 5 })), (10, Instr.fwWrite ({ cmd 2 0 with rsv := 5 }) [] true), (11, Instr.fwVerify ({ cmd 2 0 with rsv := 5 })), (12, Instr.fwActivate ({ cmd 2 0 with rsv := 5 })), (13, Instr.fwErase ({ cmd 2 0 with rsv := 5 }))])
      ∧ ((mgw [] id).mayFetch = true)
      ∧ (({ cmd 2 0 with rsv := 5 }).fetchOk = true)
      ∧ (({ cmd 2 0 with rsv := 5 }).op ≠ (2, Instr.skein ({ cmd 2 0 with rsv := 5 })).1 ∨ ({ cmd 2 0 with rsv := 5 }).rsv ≠ 0 ∨ (2, Instr.skein ({ cmd 2 0 with rsv := 5 })).1 ∉ [7, 9] ∧ ∃ b ∈ ({ cmd 2 0 with rsv := 5 }).args, b ≠ 0)) := by
  and_intros <;> decide +kernel

/-- Every clause of `Obligations.CommandsOfUnits` that has hypotheses has them all met. -/
theorem test_witness_CommandsOfUnits :
    ((ws5.mayFetch = true)
      ∧ ((cmd 1 3).fetchOk = true)
      ∧ ((cmd 1 3).op = 1)
      ∧ (Command.unusedZero (cmd 1 3) { addr := true, len := true, p0 := if bit 7 (cmd 1 3).p0 = true then 1920 else 1935 : Uses } = true)
      ∧ ((cmd 1 3).len = 0)
      ∧ (ws5.slotInEffect (bits 8 3 (cmd 1 3).p0) = true ∨ ws5.slotNamed (bits 8 3 (cmd 1 3).p0) = true)) ∧
    (((mgw [] id).mayFetch = true)
      ∧ ((cmd 1 515).fetchOk = true)
      ∧ ((cmd 1 515).op = 1)
      ∧ (Command.unusedZero (cmd 1 515) { addr := true, len := true, p0 := if bit 7 (cmd 1 515).p0 = true then 1920 else 1935 : Uses } = true)
      ∧ ((cmd 1 515).len = 0)
      ∧ ((mgw [] id).slotInEffect (bits 8 3 (cmd 1 515).p0) = false)
      ∧ ((mgw [] id).slotNamed (bits 8 3 (cmd 1 515).p0) = false)
      ∧ (false = false)) ∧
    ((loaded2.mayFetch = true)
      ∧ ((cmd 1 515).fetchOk = true)
      ∧ ((cmd 1 515).op = 1)
      ∧ (Command.unusedZero (cmd 1 515) { addr := true, len := true, p0 := if bit 7 (cmd 1 515).p0 = true then 1920 else 1935 : Uses } = true)
      ∧ ((cmd 1 515).len = 0)
      ∧ (loaded2.slotInEffect (bits 8 3 (cmd 1 515).p0) = false)
      ∧ (loaded2.slotNamed (bits 8 3 (cmd 1 515).p0) = false)
      ∧ (true = true)
      ∧ (bit 7 (cmd 1 515).p0 = false)
      ∧ ([(8, 77)] = [(8, 77)])
      ∧ (8 < 131072)
      ∧ (8 % 4 = 0)) ∧
    ((ws6.mayFetch = true)
      ∧ ((cmd 2 258).fetchOk = true)
      ∧ ((cmd 2 258).op = 2)
      ∧ (Command.unusedZero (cmd 2 258) { p0 := if bit 15 (cmd 2 258).p0 = true then 4163391 else 34623 : Uses } = true)
      ∧ (2 = bits 0 6 (cmd 2 258).p0)
      ∧ (1 = bits 8 3 (cmd 2 258).p0)
      ∧ (1 ≤ 1)
      ∧ (1 ≤ 4)
      ∧ ((begun ws6 (cmd 2 258)).cmdResult 2 1 = 0)) ∧
    ((ws6.mayFetch = true)
      ∧ ((cmd 2 514).fetchOk = true)
      ∧ ((cmd 2 514).op = 2)
      ∧ (Command.unusedZero (cmd 2 514) { p0 := if bit 15 (cmd 2 514).p0 = true then 4163391 else 34623 : Uses } = true)
      ∧ (2 = bits 0 6 (cmd 2 514).p0)
      ∧ (2 = bits 8 3 (cmd 2 514).p0)
      ∧ (1 ≤ 2)
      ∧ (2 ≤ 4)
      ∧ ((begun ws6 (cmd 2 514)).cmdResult 2 2 ≠ 0)) ∧
    ((ws7.mayFetch = true)
      ∧ ((cmd 3 769).fetchOk = true)
      ∧ (Command.unusedZero (cmd 3 769) { p0 := 16777215 : Uses } = true)
      ∧ (bits 0 8 (cmd 3 769).p0 ≤ 4)
      ∧ (unitIndex (bits 0 8 (cmd 3 769).p0) (bits 8 16 (cmd 3 769).p0) = some 3)
      ∧ ((cmd 3 769).op = 3)) ∧
    ((ws8.mayFetch = true)
      ∧ ((cmd 4 769).fetchOk = true)
      ∧ (Command.unusedZero (cmd 4 769) { p0 := 16777215 : Uses } = true)
      ∧ (bits 0 8 (cmd 4 769).p0 ≤ 4)
      ∧ (unitIndex (bits 0 8 (cmd 4 769).p0) (bits 8 16 (cmd 4 769).p0) = some 3)
      ∧ ((cmd 4 769).op = 4)
      ∧ (((begun ws8 (cmd 4 769)).returnUnit 3).2 = true)) ∧
    ((ws9.mayFetch = true)
      ∧ ((cmd 4 769).fetchOk = true)
      ∧ (Command.unusedZero (cmd 4 769) { p0 := 16777215 : Uses } = true)
      ∧ (bits 0 8 (cmd 4 769).p0 ≤ 4)
      ∧ (unitIndex (bits 0 8 (cmd 4 769).p0) (bits 8 16 (cmd 4 769).p0) = some 3)
      ∧ ((cmd 4 769).op = 4)
      ∧ (((begun ws9 (cmd 4 769)).returnUnit 3).2 = false)) ∧
    (((mgw [] id).mayFetch = true)
      ∧ ((cmd 3 261889).fetchOk = true)
      ∧ (Command.unusedZero (cmd 3 261889) { p0 := 16777215 : Uses } = true)
      ∧ (4 < bits 0 8 (cmd 3 261889).p0 ∨ unitIndex (bits 0 8 (cmd 3 261889).p0) (bits 8 16 (cmd 3 261889).p0) = none)
      ∧ ((cmd 3 261889).op = 3)) ∧
    (((mgw [] id).mayFetch = true)
      ∧ ((cmd 4 261889).fetchOk = true)
      ∧ (Command.unusedZero (cmd 4 261889) { p0 := 16777215 : Uses } = true)
      ∧ (4 < bits 0 8 (cmd 4 261889).p0 ∨ unitIndex (bits 0 8 (cmd 4 261889).p0) (bits 8 16 (cmd 4 261889).p0) = none)
      ∧ ((cmd 4 261889).op = 4)) ∧
    ((resetting.mayFetch = true)
      ∧ ((cmd 5 48).fetchOk = true)
      ∧ ((cmd 5 48).op = 5)
      ∧ (Command.unusedZero (cmd 5 48) { p0 := 241 : Uses } = true)
      ∧ (3 = bits 4 4 (cmd 5 48).p0)
      ∧ (bit 0 (cmd 5 48).p0 = false)
      ∧ (resetting.regionOff 3 = true)) ∧
    (((mgw [] id).mayFetch = true)
      ∧ ((cmd 5 48).fetchOk = true)
      ∧ ((cmd 5 48).op = 5)
      ∧ (Command.unusedZero (cmd 5 48) { p0 := 241 : Uses } = true)
      ∧ (3 = bits 4 4 (cmd 5 48).p0)
      ∧ (bit 0 (cmd 5 48).p0 = false)
      ∧ ((mgw [] id).regionOff 3 = false)) ∧
    (((mgw [] id).mayFetch = true)
      ∧ ((cmd 5 49).fetchOk = true)
      ∧ ((cmd 5 49).op = 5)
      ∧ (Command.unusedZero (cmd 5 49) { p0 := 241 : Uses } = true)
      ∧ (3 = bits 4 4 (cmd 5 49).p0)
      ∧ (bit 0 (cmd 5 49).p0 = true)
      ∧ (3 < 4)
      ∧ (bit 3 (mgw [] id).rp.units.awake = true)
      ∧ (∀ e ∈ (mgw [] id).rp.units.dies, e.1 ≠ 3)) ∧
    ((ws10.mayFetch = true)
      ∧ ((cmd 6 5).fetchOk = true)
      ∧ ((cmd 6 5).op = 6)
      ∧ (Command.unusedZero (cmd 6 5) { p0 := 65535 : Uses } = true)
      ∧ (5 = bits 0 16 (cmd 6 5).p0)
      ∧ (ws10.epochAhead Part.ronpex 5 = false)) ∧
    ((ws10.mayFetch = true)
      ∧ ((cmd 6 6).fetchOk = true)
      ∧ ((cmd 6 6).op = 6)
      ∧ (Command.unusedZero (cmd 6 6) { p0 := 65535 : Uses } = true)
      ∧ (6 = bits 0 16 (cmd 6 6).p0)
      ∧ (ws10.epochAhead Part.ronpex 6 = true)) ∧
    (((mgw [] id).mayFetch = true)
      ∧ (({ cmd 7 6 with p1 := 330000, args := [1, 2, 3, 4, 5, 6, 7, 8, 0, 0] }).fetchOk = true)
      ∧ (({ cmd 7 6 with p1 := 330000, args := [1, 2, 3, 4, 5, 6, 7, 8, 0, 0] }).op = 7)
      ∧ (Command.unusedZero ({ cmd 7 6 with p1 := 330000, args := [1, 2, 3, 4, 5, 6, 7, 8, 0, 0] }) { p0 := 65535, p1 := true, args := 8 : Uses } = true)
      ∧ ((mgw [] id).now ≤ ({ cmd 7 6 with p1 := 330000, args := [1, 2, 3, 4, 5, 6, 7, 8, 0, 0] }).p1)) := by
  and_intros <;> decide +kernel

/-- Every clause of `Obligations.CommandsOfFirmware` that has hypotheses has them all met. -/
theorem test_witness_CommandsOfFirmware :
    (((mgw [] id).mayFetch = true)
      ∧ (({ cmd 8 6 with addr := 99, len := 769 }).fetchOk = true)
      ∧ (({ cmd 8 6 with addr := 99, len := 769 }).op = 8)
      ∧ (Command.unusedZero ({ cmd 8 6 with addr := 99, len := 769 }) { addr := true, len := true, p0 := 32767 : Uses } = true)
      ∧ (768 < ({ cmd 8 6 with addr := 99, len := 769 }).len)) ∧
    (((mgw [] id).mayFetch = true)
      ∧ (({ cmd 8 32767 with addr := 99, len := 3 }).fetchOk = true)
      ∧ (({ cmd 8 32767 with addr := 99, len := 3 }).op = 8)
      ∧ (Command.unusedZero ({ cmd 8 32767 with addr := 99, len := 3 }) { addr := true, len := true, p0 := 32767 : Uses } = true)
      ∧ (({ cmd 8 32767 with addr := 99, len := 3 }).len ≤ 768)
      ∧ (true = true)
      ∧ ((mgw [] id).rp.src.held = [])
      ∧ (bits 0 15 ({ cmd 8 32767 with addr := 99, len := 3 }).p0 = 32767)
      ∧ ([] = List.filter (mgw [] id).facesPlocen (mgw [] id).upPorts)) ∧
    (((mgw [] id).mayFetch = true)
      ∧ (({ cmd 8 6 with addr := 99, len := 768 }).fetchOk = true)
      ∧ (({ cmd 8 6 with addr := 99, len := 768 }).op = 8)
      ∧ (Command.unusedZero ({ cmd 8 6 with addr := 99, len := 768 }) { addr := true, len := true, p0 := 32767 : Uses } = true)
      ∧ (({ cmd 8 6 with addr := 99, len := 768 }).len ≤ 768)
      ∧ (false = false)) ∧
    (((mgw [] id).mayFetch = true)
      ∧ (({ cmd 8 6 with addr := 99, len := 768 }).fetchOk = true)
      ∧ (({ cmd 8 6 with addr := 99, len := 768 }).op = 8)
      ∧ (Command.unusedZero ({ cmd 8 6 with addr := 99, len := 768 }) { addr := true, len := true, p0 := 32767 : Uses } = true)
      ∧ (({ cmd 8 6 with addr := 99, len := 768 }).len ≤ 768)
      ∧ (true = true)
      ∧ ((mgw [] id).rp.src.held = [])
      ∧ (bits 0 15 ({ cmd 8 6 with addr := 99, len := 768 }).p0 ≠ 32767)) ∧
    (((ten 2 1).mayFetch = true)
      ∧ (tcmd.fetchOk = true)
      ∧ (tcmd.op = 9)
      ∧ (Command.unusedZero tcmd { addr := true, p0 := 983359, p1 := true : Uses } = true)
      ∧ (bits 16 4 tcmd.p0 = 1)
      ∧ (bit 8 tcmd.p0 = false)
      ∧ (tcmd.p1 % 4 = 0)
      ∧ (2 = bits 0 6 tcmd.p0)
      ∧ (1 = SMap.look (fun _ => 0) (ten 2 1).rp.skeins.mgmt 2)
      ∧ ((ten 2 1).enforced = false ∨ 1 < (ten 2 1).mgmtBudget 2)
      ∧ ((begun (ten 2 1) tcmd).ownReg 2 tcmd.p1 = true)) ∧
    (((ten 2 65536).mayFetch = true)
      ∧ (tcmd.fetchOk = true)
      ∧ (tcmd.op = 9)
      ∧ (Command.unusedZero tcmd { addr := true, p0 := 983359, p1 := true : Uses } = true)
      ∧ (bits 16 4 tcmd.p0 = 1)
      ∧ (bit 8 tcmd.p0 = false)
      ∧ (tcmd.p1 % 4 = 0)
      ∧ (2 = bits 0 6 tcmd.p0)
      ∧ (65536 = SMap.look (fun _ => 0) (ten 2 65536).rp.skeins.mgmt 2)
      ∧ ((ten 2 65536).enforced = true)
      ∧ ((ten 2 65536).mgmtBudget 2 ≤ 65536)) ∧
    (((fws 1 true).mayFetch = true)
      ∧ (({ cmd 10 4096 with addr := 5, len := 3 }).fetchOk = true)
      ∧ (({ cmd 10 4096 with addr := 5, len := 3 }).op = 10)
      ∧ (Command.unusedZero ({ cmd 10 4096 with addr := 5, len := 3 }) { addr := true, len := true, p0 := 4294967295 : Uses } = true)
      ∧ ((fws 1 true).rp.sec.fw ≠ 0)) ∧
    (((fws 0 true).mayFetch = true)
      ∧ (({ cmd 10 4097 with addr := 5, len := 3 }).fetchOk = true)
      ∧ (({ cmd 10 4097 with addr := 5, len := 3 }).op = 10)
      ∧ (Command.unusedZero ({ cmd 10 4097 with addr := 5, len := 3 }) { addr := true, len := true, p0 := 4294967295 : Uses } = true)
      ∧ ((fws 0 true).rp.sec.fw = 0)
      ∧ (({ cmd 10 4097 with addr := 5, len := 3 }).p0 % 4096 ≠ 0 ∨ 2 ^ 20 < ({ cmd 10 4097 with addr := 5, len := 3 }).len ∨ slotBytes < ({ cmd 10 4097 with addr := 5, len := 3 }).p0 + ({ cmd 10 4097 with addr := 5, len := 3 }).len)) ∧
    (((fws 0 true).mayFetch = true)
      ∧ (({ cmd 10 4096 with addr := 5, len := 3 }).fetchOk = true)
      ∧ (({ cmd 10 4096 with addr := 5, len := 3 }).op = 10)
      ∧ (Command.unusedZero ({ cmd 10 4096 with addr := 5, len := 3 }) { addr := true, len := true, p0 := 4294967295 : Uses } = true)
      ∧ ((fws 0 true).rp.sec.fw = 0)
      ∧ (({ cmd 10 4096 with addr := 5, len := 3 }).p0 % 4096 = 0)
      ∧ (({ cmd 10 4096 with addr := 5, len := 3 }).len ≤ 2 ^ 20)
      ∧ (({ cmd 10 4096 with addr := 5, len := 3 }).p0 + ({ cmd 10 4096 with addr := 5, len := 3 }).len ≤ slotBytes)
      ∧ (true = true)) ∧
    (((fws 0 true).mayFetch = true)
      ∧ ((cmd 11 0).fetchOk = true)
      ∧ ((cmd 11 0).op = 11)
      ∧ (Command.unusedZero (cmd 11 0) { : Uses } = true)) ∧
    (((fws 0 true).mayFetch = true)
      ∧ ((cmd 12 0).fetchOk = true)
      ∧ ((cmd 12 0).op = 12)
      ∧ (Command.unusedZero (cmd 12 0) { : Uses } = true)
      ∧ ((fws 0 true).rp.sec.fw ≠ 1)) ∧
    (((fws 1 true).mayFetch = true)
      ∧ ((cmd 12 0).fetchOk = true)
      ∧ ((cmd 12 0).op = 12)
      ∧ (Command.unusedZero (cmd 12 0) { : Uses } = true)
      ∧ ((fws 1 true).rp.sec.fw = 1)) ∧
    (((fws 1 false).mayFetch = true)
      ∧ ((cmd 13 0).fetchOk = true)
      ∧ ((cmd 13 0).op = 13)
      ∧ (Command.unusedZero (cmd 13 0) { : Uses } = true)) := by
  and_intros <;> decide +kernel

/-- Every clause of `Obligations.LogTrayStore` that has hypotheses has them all met. -/
theorem test_witness_LogTrayStore :
    ((ws11.rp.power.supplyLost = false)) ∧
    ((({ tf 1 3 1 2 none with crc := 2 ^ 32 }).crc ≠ trayCrc ({ tf 1 3 1 2 none with crc := 2 ^ 32 }))) ∧
    (((trayed [] id).trayUp 1 = true)
      ∧ ((tf 1 3 1 2 none).crc = trayCrc (tf 1 3 1 2 none))
      ∧ ((tf 1 3 1 2 none).ftype ≠ 0)
      ∧ ((tf 1 3 1 2 none).ftype ≠ 2)
      ∧ ((tf 1 3 1 2 none).src = (trayed [] id).trayPos)) ∧
    (((trayed [] id).trayUp 1 = true)
      ∧ ((tf 1 3 2 3 none).crc = trayCrc (tf 1 3 2 3 none))
      ∧ ((tf 1 3 2 3 none).ftype ≠ 0)
      ∧ ((tf 1 3 2 3 none).ftype ≠ 2)
      ∧ ((tf 1 3 2 3 none).src ≠ (trayed [] id).trayPos)
      ∧ ((tf 1 3 2 3 none).dst ≠ (trayed [] id).trayPos)
      ∧ ((tf 1 3 2 3 none).dst ≠ 255)
      ∧ (1 < (tf 1 3 2 3 none).hops)
      ∧ ((trayed [] id).trayUp (1 - 1) = true)) ∧
    (((trayed [] id).trayUp 1 = true)
      ∧ ((tf 1 3 2 1 (some (Mgmt.epochOrder 5 6))).crc = trayCrc (tf 1 3 2 1 (some (Mgmt.epochOrder 5 6))))
      ∧ ((tf 1 3 2 1 (some (Mgmt.epochOrder 5 6))).ftype ≠ 0)
      ∧ ((tf 1 3 2 1 (some (Mgmt.epochOrder 5 6))).ftype ≠ 2)
      ∧ ((tf 1 3 2 1 (some (Mgmt.epochOrder 5 6))).src ≠ (trayed [] id).trayPos)
      ∧ ((tf 1 3 2 1 (some (Mgmt.epochOrder 5 6))).dst = (trayed [] id).trayPos)
      ∧ ((tf 1 3 2 1 (some (Mgmt.epochOrder 5 6))).ftype = 1)
      ∧ ((tf 1 3 2 1 (some (Mgmt.epochOrder 5 6))).mgmt = some (Mgmt.epochOrder 5 6))
      ∧ (∀ x ∈ (trayed [] id).rp.tray.seen, x.1 = (tf 1 3 2 1 (some (Mgmt.epochOrder 5 6))).src → x.2.1 = (tf 1 3 2 1 (some (Mgmt.epochOrder 5 6))).fseq → x.2.2 + 1000000 ≤ (trayed [] id).now)) ∧
    ((ws12.trayUp 1 = true)
      ∧ ((tf 2 3 2 1 none).crc = trayCrc { ftype := 2, hops := (tf 2 3 2 1 none).hops, src := (tf 2 3 2 1 none).src, dst := (tf 2 3 2 1 none).dst, fseq := (tf 2 3 2 1 none).fseq, mgmt := (tf 2 3 2 1 none).mgmt, body := (tf 2 3 2 1 none).body, crc := (tf 2 3 2 1 none).crc : TrayFrame })
      ∧ (fieldNat (tf 2 3 2 1 none).body 0 1 % 2 = 1)
      ∧ ((tf 2 3 2 1 none).dst = ws12.trayPos ∨ (tf 2 3 2 1 none).dst = 255)
      ∧ (ws12.rp.power.tripped = false)
      ∧ (∀ x ∈ ws12.rp.tray.seen, x.1 = (tf 2 3 2 1 none).src → x.2.1 = (tf 2 3 2 1 none).fseq → x.2.2 + 1000000 ≤ ws12.now)
      ∧ (ws12.flag Part.ronpex Reg.timWake 4 = true → ws12.flag Part.ronpex Reg.timWake 5 = true)
      ∧ (ws12.wakeState = 2)
      ∧ (ws12.rp.power.wakeHeld = false)
      ∧ (ws12.rp.power.token = none)) ∧
    ((ws13.trayUp 1 = true)
      ∧ ((tf 2 3 2 1 none).crc = trayCrc { ftype := 2, hops := (tf 2 3 2 1 none).hops, src := (tf 2 3 2 1 none).src, dst := (tf 2 3 2 1 none).dst, fseq := (tf 2 3 2 1 none).fseq, mgmt := (tf 2 3 2 1 none).mgmt, body := (tf 2 3 2 1 none).body, crc := (tf 2 3 2 1 none).crc : TrayFrame })
      ∧ (fieldNat (tf 2 3 2 1 none).body 0 1 % 2 = 1)
      ∧ ((tf 2 3 2 1 none).dst = ws13.trayPos ∨ (tf 2 3 2 1 none).dst = 255)
      ∧ (ws13.rp.power.tripped = false)
      ∧ (∀ x ∈ ws13.rp.tray.seen, x.1 = (tf 2 3 2 1 none).src → x.2.1 = (tf 2 3 2 1 none).fseq → x.2.2 + 1000000 ≤ ws13.now)
      ∧ (ws13.wakeState ≠ 2)
      ∧ (ws13.flag Part.ronpex Reg.timWake 4 = false)
      ∧ (ws13.trayUp 0 = true)) ∧
    (((chain 5).flag Part.ronpex Reg.timWake 4 = true)
      ∧ ((chain 5).flag Part.ronpex Reg.timWake 5 = true)
      ∧ ((chain 5).rp.power.token = none)
      ∧ ((chain 5).wakeState ≠ 2)
      ∧ ((chain 5).trayUp 0 = true)
      ∧ ((chain 5).rp.power.tripped = false)
      ∧ (SMap.look (fun _ => 0) (chain 5).rp.tray.tokenAt 1 + 10000000 ≤ (chain 5).now)) ∧
    (((chain (2 ^ 40 - 5)).flag Part.ronpex Reg.timWake 4 = true)
      ∧ ((chain (2 ^ 40 - 5)).flag Part.ronpex Reg.timWake 5 = true)
      ∧ ((chain (2 ^ 40 - 5)).rp.power.token = none)
      ∧ ((chain (2 ^ 40 - 5)).wakeState ≠ 2)
      ∧ ((chain (2 ^ 40 - 5)).trayUp 0 = true)
      ∧ ((chain (2 ^ 40 - 5)).rp.power.tripped = false)
      ∧ ((chain (2 ^ 40 - 5)).now < SMap.look (fun _ => 0) (chain (2 ^ 40 - 5)).rp.tray.tokenAt 1 + 10000000)) ∧
    (((mgw [] id).rp.pst.queue = [])) ∧
    ((ws14.rp.pst.queue = [(Reg.pstHours, 9), (Reg.pstHours, 10)])
      ∧ (ws14.rp.pst.locked Reg.pstHours = false)) ∧
    (((pq []).rp.pst.locked Reg.pstHours = false)
      ∧ (∀ e ∈ (pq []).rp.pst.queue, e.1 ≠ Reg.pstHours)) ∧
    ((twice.trayUp 1 = true)
      ∧ ((tf 2 3 2 255 none).crc = trayCrc { ftype := 2, hops := (tf 2 3 2 255 none).hops, src := (tf 2 3 2 255 none).src, dst := (tf 2 3 2 255 none).dst, fseq := (tf 2 3 2 255 none).fseq, mgmt := (tf 2 3 2 255 none).mgmt, body := (tf 2 3 2 255 none).body, crc := (tf 2 3 2 255 none).crc : TrayFrame })
      ∧ ((tf 2 3 2 255 none).dst = 255)
      ∧ ((2, 3, 319000) ∈ twice.rp.tray.seen)
      ∧ ((2, 3, 319000).1 = (tf 2 3 2 255 none).src)
      ∧ ((2, 3, 319000).2.1 = (tf 2 3 2 255 none).fseq)
      ∧ (twice.now < (2, 3, 319000).2.2 + 1000000)) := by
  and_intros <;> decide +kernel

/-- Every clause of `Obligations.EpochsAndSnapshots` that has hypotheses has them all met. -/
theorem test_witness_EpochsAndSnapshots :
    ((Part.ronpex = Part.ronpex → (ords [] { : Orders }).rpMgmtOk trayMsg 5 = true)
      ∧ (Part.ronpex = Part.plocen → (ords [] { : Orders }).epMgmtOk trayMsg.port trayMsg.node = true)
      ∧ ((ords [] { : Orders }).epochAhead Part.ronpex 6 = true)) ∧
    ((Part.ronpex = Part.ronpex → (ords [] { : Orders }).rpMgmtOk trayMsg 5 = true)
      ∧ (Part.ronpex = Part.plocen → (ords [] { : Orders }).epMgmtOk trayMsg.port trayMsg.node = true)
      ∧ ((ords [] { : Orders }).epochAhead Part.ronpex 5 = false)) ∧
    (((ws15.orders Part.ronpex).epoch = some (6, 330000))
      ∧ (ws15.now < 330000)) ∧
    (((ws16.orders Part.ronpex).epoch = some (6, 320000))
      ∧ (320000 ≤ ws16.now)) ∧
    ((7 < 2 ^ 16)
      ∧ (Part.ronpex = Part.ronpex → (ords [] { : Orders }).rpMgmtOk trayMsg 6 = true)
      ∧ (Part.ronpex = Part.plocen → (ords [] { : Orders }).epMgmtOk trayMsg.port trayMsg.node = true ∧ bit (ords [] { : Orders }).epSkein (BitVec.toNat (5 : Word)) = true)) ∧
    (((ws15.orders Part.plocen).snap = some (330000, 7, 5))
      ∧ (7 < 2 ^ 16)
      ∧ (ws15.now < 330000)) ∧
    (((ws16.orders Part.plocen).snap = some (320000, 7, 5))
      ∧ (7 < 2 ^ 16)
      ∧ (320000 ≤ ws16.now)) := by
  and_intros <;> decide +kernel

/-- Every clause of `Obligations.ReportsAndNotices` that has hypotheses has them all met. -/
theorem test_witness_ReportsAndNotices :
    (((rps []).rpMgmtOk n5 8 = true)
      ∧ (∀ e ∈ (rps []).rp.filter.ents, ¬(e.type = rpt.type ∧ e.target = rpt.target))
      ∧ ((rps []).rp.filter.ents.length < 1024)
      ∧ ((rps []).rp.sec.restartAt = none)
      ∧ ((rps []).evtFree = true)
      ∧ ((rps []).reg Part.ronpex Reg.mgtEvtOvf = 0)) ∧
    ((ws17.rpMgmtOk n5 8 = true)
      ∧ (∃ e ∈ ws17.rp.filter.ents, e.type = rpt.type ∧ e.target = rpt.target)) ∧
    ((ws18.ep.reps = [rw_ 319000 0])
      ∧ (ws18.now < (rw_ 319000 0).since + 100000)) ∧
    ((ws19.ep.reps = [rw_ 9000 0])
      ∧ ((rw_ 9000 0).since + 100000 ≤ ws19.now)
      ∧ ((rw_ 9000 0).withheld = 0)) ∧
    ((ws20.ep.reps = [rw_ 9000 4])
      ∧ ((rw_ 9000 4).since + 100000 ≤ ws20.now)
      ∧ ((rw_ 9000 4).withheld ≠ 0)) ∧
    (((epr [] [hl]).epMgmtOk mg1.port mg1.node = true)
      ∧ ((epr [] [hl]).ep.src.held = [hl])
      ∧ (hl.plane = 1)
      ∧ (hl.loc = HeldAt.sent ∨ ∃ t0, hl.loc = HeldAt.backoff t0)
      ∧ (200000 ≤ hl.due - 1000 * hl.retryUs + 10000)
      ∧ ((epr [] [hl]).lifeOver hl = false)
      ∧ ((epr [] [hl]).epLive 1 = true)) ∧
    (((epr [] [hl]).epMgmtOk mg1.port mg1.node = true)
      ∧ (∀ h ∈ (epr [] [hl]).ep.src.held, h.plane ≠ 2)) ∧
    (((rps []).rpMgmtOk trayMsg 7 = true)) ∧
    (((epr [] []).epMgmtOk 1 mg1.node = true)
      ∧ ((epr [] []).portUp Part.plocen 0 = true)) ∧
    (((epr [] []).epMgmtOk 1 mg1.node = true)
      ∧ ((epr [] []).portUp Part.plocen 5 = false)) := by
  and_intros <;> first | decide +kernel | exact .inl rfl

end Sys2Proof.Tests.W15

namespace Sys2Proof.Tests.W16

def host : Writer := { origin := 0, requester := 5 }
def rgs (a : Nat) (v : Word) (l : SMap Word) : State :=
  let s := att (at_ 320000 ((a, v) :: l ++ [(Reg.logLost, 0), (Reg.drfStat, 0)]) [(a, v)]) live
  { s with rp := { s.rp with power := { s.rp.power with supplyLost := false }, warp := { s.rp.warp with accepted := 255 } } }
def ws1 : State := rgs (0x1300000 + 0x20000 * 2 + 8) 5 [(Reg.drfStat, 0x408)]
def ws2 : State := rgs (0x1300000 + 8) 5 [(Reg.drfStat, 0x8)]
def ws3 : State := rgs (0x7000000) 5 [(Reg.drfStat, 0x8)]
/-- Every clause of `Obligations.RegisterWrites` that has hypotheses has them all met. -/
theorem test_witness_RegisterWrites :
    ((rpTakes ws1 host)
      ∧ ((19922944 + 131072 * 2 + 8) % 4 = 0)
      ∧ (decode412 (19922944 + 131072 * 2 + 8) = some (Block412.draft, 0, 131072 * 2 + 8))
      ∧ (ws1.slotInEffect ((131072 * 2 + 8) / 131072) = false)) ∧
    ((rpTakes ws2 host)
      ∧ ((19922944 + 8) % 4 = 0)
      ∧ (decode412 (19922944 + 8) = some (Block412.draft, 0, 8))
      ∧ (ws2.slotInEffect (8 / 131072) = true)) ∧
    ((rpTakes ws3 host)
      ∧ (117440512 % 4 = 0)
      ∧ (117440512 < 2 ^ 27)
      ∧ (decode412 117440512 = none)) ∧
    ((2 ^ 27 ≤ 134217728)) ∧
    (((at_ 320000 [] []).attOn = false)) ∧
    ((ws2.attOn = true)
      ∧ (regAccess 19922953 4 = false ∨ 2 ^ 24 ≤ 19922953)) ∧
    ((ws2.attOn = true)
      ∧ (epPlain Reg.epOptCtl)) ∧
    ((rpTakes ws2 host)
      ∧ (Reg.drfStart % 4 = 0)
      ∧ (rpPlain Reg.drfStart ∨ Reg.drfStart = Reg.drfStart ∨ Reg.drfStart = Reg.fmhErr ∨ Reg.drfStart = Reg.secErr)) ∧
    ((regAccess 19922953 4 = false)
      ∧ (19922953 < 2 ^ 27)
      ∧ (host.origin ≤ 1)) := by
  unfold rpTakes epPlain rpPlain
  and_intros <;> first | decide +kernel | exact .inr (.inl rfl)

end Sys2Proof.Tests.W16
end
end

section
/-! Hank counters of the Plocen (R44-R50) and switch-side counters of the Ronpex (R258, R259): what a counter reads after a write,
what the write leaves unchanged, and the comparison of R48. -/

namespace Sys2Proof.Machine

open Sys2Proof

/-! ### Counters of the Plocen -/

theorem State.hank_setHank (s : State) (i j v : Nat) :
    (s.setHank i v).hank j = if j = i then v % 2 ^ 64 else s.hank j :=
  SMap.look_put _ _ i j _

theorem State.hank_countHank (s : State) (i j n : Nat) :
    (s.countHank i n).hank j = if j = i then (s.hank i + n) % 2 ^ 64 else s.hank j :=
  State.hank_setHank s i j _

/-- Setting a counter changes nothing of the state but the table of counters. -/
theorem State.setHank_only (s : State) (i v : Nat) :
    s.setHank i v = { s with ep := { s.ep with hanks := (s.setHank i v).ep.hanks } } := rfl

/-! ### The comparison of R48 -/

theorem toNat_ofNat_sub_ofNat (w a b : Nat) : (BitVec.ofNat w a - BitVec.ofNat w b).toNat = subMod w a b := by
  have hb : b % 2 ^ w < 2 ^ w := Nat.mod_lt b (Nat.two_pow_pos w)
  rw [BitVec.toNat_sub, BitVec.toNat_ofNat, BitVec.toNat_ofNat, subMod]
  congr 1
  omega

/-- The model compares the difference with 2^63; as a signed number it is then not negative. -/
theorem hankMet_iff (c t : Nat) : hankMet c t = true ↔ 0 ≤ (BitVec.ofNat 64 c - BitVec.ofNat 64 t).toInt := by
  rw [BitVec.toInt_pos_iff, toNat_ofNat_sub_ofNat, hankMet, decide_eq_true_iff]
  omega

theorem State.descWaits_iff (s : State) (d : Desc) :
    s.descWaits d = true ↔ (d.gate = true ∨ d.opc = 8) ∧ ¬ hankMet (s.hank d.ghank) d.gthresh = true := by
  simp [State.descWaits]

/-! ### What sending a container leaves unchanged

A switch-side counter that is set lets its relays fire, and a relay sends a HANK_SET. None of the functions on that way touches
fabric-resident memory. -/

@[simp] theorem State.rpCond_rp_fmem (s : State) (code origin requester port skein addr old new : Nat) :
    (s.rpCond code origin requester port skein addr old new).rp.fmem = s.rp.fmem := by
  obtain ⟨l, x, h⟩ := State.rpCond_only s code origin requester port skein addr old new
  rw [h]

@[simp] theorem State.offer_rp_fmem (s : State) (port : Nat) (x : EddyEnt) : (s.offer port x).rp.fmem = s.rp.fmem := rfl

@[simp] theorem State.goHome_rp_fmem (s : State) (c : Container) : (s.goHome c).rp.fmem = s.rp.fmem := rfl

@[simp] theorem State.modWarp_rp_fmem (s : State) (f : Warp → Warp) : (s.modWarp f).rp.fmem = s.rp.fmem := rfl

@[simp] theorem State.logUnrouted_rp_fmem (s : State) (p : Nat) (c : Container) : (s.logUnrouted p c).rp.fmem = s.rp.fmem := by
  unfold State.logUnrouted
  dsimp only
  split <;> simp

@[simp] theorem State.reflect_rp_fmem (s : State) (x : EddyEnt) (noPath : Bool) : (s.reflect x noPath).rp.fmem = s.rp.fmem := by
  unfold State.reflect
  split
  · rfl
  · dsimp only
    split
    · simp
    · simp
    · split <;> simp

@[simp] theorem State.toOutput_rp_fmem (s : State) (r : Route) (x : EddyEnt) : (s.toOutput r x).rp.fmem = s.rp.fmem := by
  unfold State.toOutput
  split
  · simp
  · simp
  · split <;> simp

@[simp] theorem State.rpSend_rp_fmem (s : State) (h : Held) : (s.rpSend h).rp.fmem = s.rp.fmem := by
  unfold State.rpSend
  dsimp only
  split <;> simp

@[simp] theorem State.rpPush_rp_fmem (s : State) : s.rpPush.rp.fmem = s.rp.fmem := by
  unfold State.rpPush
  refine List.foldlRecOn (motive := fun t : State => t.rp.fmem = s.rp.fmem) _ _ rfl fun t ht h _ => ?_
  split
  · exact ht
  · simp [ht]

@[simp] theorem State.relaySend_rp_fmem (s : State) (m node hank skein value : Nat) :
    (s.relaySend m node hank skein value).rp.fmem = s.rp.fmem := by
  simp [State.relaySend]

/-! ### Switch-side counters -/

/-- A relay moves its own NEXT on and changes no counter (R259). -/
@[simp] theorem State.relayFire_rp_fmem_hcnt (s : State) (m : Nat) : (s.relayFire m).rp.fmem.hcnt = s.rp.fmem.hcnt := by
  unfold State.relayFire
  split
  · rfl
  · dsimp only
    split
    · rfl
    · split
      · rfl
      · simp

/-- Whatever relays fire, the table of counters differs in the counter that was set alone. -/
theorem State.hcntSet_rp_fmem_hcnt (s : State) (i v : Nat) :
    (s.hcntSet i v).rp.fmem.hcnt = SMap.put (fun _ => 0) s.rp.fmem.hcnt i (v % 2 ^ 64) := by
  unfold State.hcntSet
  refine List.foldlRecOn (motive := fun t : State => t.rp.fmem.hcnt = _) _ _ rfl fun t ht m _ => ?_
  rw [State.relayFire_rp_fmem_hcnt, ht]

theorem State.hcnt_hcntSet (s : State) (i j v : Nat) :
    (s.hcntSet i v).hcnt j = if j = i then v % 2 ^ 64 else s.hcnt j := by
  rw [State.hcnt, State.hcntSet_rp_fmem_hcnt, SMap.look_put, State.hcnt]

/-! ### The obligation -/

/-- Settles O8: a counter reads as `hank_setHank`, `hank_countHank` and `hcnt_hcntSet` say, and `hankMet_iff` turns the model's
comparison into the signed one of R48. -/
theorem hankCounters : Obligations.HankCounters := by
  unfold Obligations.HankCounters
  refine ⟨fun s i v => ⟨?_, ?_, fun j hj => ⟨?_, ?_⟩, s.setHank_only i v⟩,
    fun s i v => ⟨?_, fun j hj => ?_⟩, hankMet_iff, fun s d => ?_⟩
  · rw [State.hank_setHank, if_pos rfl, BitVec.toNat_ofNat]
  · rw [State.hank_countHank, if_pos rfl, ← BitVec.ofNat_add, BitVec.toNat_ofNat]
  · rw [State.hank_setHank, if_neg hj]
  · rw [State.hank_countHank, if_neg hj]
  · rw [State.hcnt_hcntSet, if_pos rfl, BitVec.toNat_ofNat]
  · rw [State.hcnt_hcntSet, if_neg hj]
  · rw [State.descWaits_iff, hankMet_iff, Int.not_le]

end Sys2Proof.Machine
end

section
/-! The descriptor rings of the Plocen: what a ring reads after an update of the state, the frame of the operations on one ring
(fetching, interrupts, errors, completion entries), the doorbells of R96, R100 and R102, and the completion entry of R116. -/

namespace Sys2Proof.Machine

open Sys2Proof Sys2Proof.Claims

/-! ### What a ring reads after an update -/

@[simp] theorem State.ring_modRing_same (s : State) (n : Nat) (f : Ring → Ring) : (s.modRing n f).ring n = f (s.ring n) :=
  SMap.look_put_same _ _ n _

theorem State.ring_modRing_other (s : State) (n m : Nat) (f : Ring → Ring) (h : m ≠ n) : (s.modRing n f).ring m = s.ring m :=
  SMap.look_put_other _ _ n m _ h

@[simp] theorem State.fld_modRing (s : State) (n : Nat) (f : Ring → Ring) (p : Part) (a lo len : Nat) :
    (s.modRing n f).fld p a lo len = s.fld p a lo len := by
  cases p <;> rfl

@[simp] theorem State.modRing_now (s : State) (n : Nat) (f : Ring → Ring) : (s.modRing n f).now = s.now := rfl

@[simp] theorem State.ring_request (s : State) (l : List AttReq) (m : Nat) : (s.request l).ring m = s.ring m := by
  obtain ⟨o, a, h⟩ := s.request_only l
  rw [h]
  rfl

/-! ### What the operations on a ring leave unchanged -/

theorem State.onlyRing_refl (n : Nat) (s : State) : onlyRing n s s := ⟨rfl, fun _ _ => rfl⟩

theorem State.onlyRing_trans {n : Nat} {s t u : State} (h : onlyRing n s t) (k : onlyRing n t u) : onlyRing n s u := by
  obtain ⟨hst, hrings⟩ := h
  obtain ⟨htu, krings⟩ := k
  refine ⟨?_, fun m hm => (krings m hm).trans (hrings m hm)⟩
  rw [hst] at htu
  exact htu

theorem State.onlyRing_modRing (s : State) (n : Nat) (f : Ring → Ring) : onlyRing n s (s.modRing n f) :=
  ⟨rfl, fun m => s.ring_modRing_other n m f⟩

theorem State.onlyRing_request (s : State) (n : Nat) (l : List AttReq) : onlyRing n s (s.request l) := by
  obtain ⟨o, a, h⟩ := s.request_only l
  exact ⟨by rw [h], fun m _ => s.ring_request l m⟩

/-- Two changes of one ring, one after the other. -/
theorem State.onlyRing_modRing_modRing (s : State) (n : Nat) (f g : Ring → Ring) : onlyRing n s ((s.modRing n f).modRing n g) :=
  State.onlyRing_trans (s.onlyRing_modRing n f) (State.onlyRing_modRing _ n g)

/-! ### Fetching (R97) -/

/-- One round of fetching ends the fetch, or issues one MRD and goes on. -/
theorem State.fetchFrom_succ (k : Nat) (s : State) (n : Nat) :
    State.fetchFrom (k + 1) s n = s ∨
    ∃ m q, State.fetchFrom (k + 1) s n =
      State.fetchFrom k ((s.modRing n fun r => { r with issued := (r.issued + m) % 2 ^ 32 }).request [q]) n := by
  rw [State.fetchFrom]
  dsimp only
  split
  · exact .inl rfl
  · exact .inr ⟨_, _, rfl⟩

theorem State.onlyRing_fetchFrom (k : Nat) (s : State) (n : Nat) : onlyRing n s (State.fetchFrom k s n) := by
  induction k generalizing s with
  | zero => exact s.onlyRing_refl n
  | succ k ih =>
    obtain h | ⟨m, q, h⟩ := s.fetchFrom_succ k n
    · rw [h]
      exact s.onlyRing_refl n
    · rw [h]
      exact State.onlyRing_trans (State.onlyRing_trans (s.onlyRing_modRing n _) (State.onlyRing_request _ n [q])) (ih _)

/-- Fetching moves only the count of issued fetches of its ring. -/
theorem State.ring_fetchFrom (k : Nat) (s : State) (n : Nat) :
    ∃ c, (State.fetchFrom k s n).ring n = { s.ring n with issued := c } := by
  induction k generalizing s with
  | zero => exact ⟨(s.ring n).issued, rfl⟩
  | succ k ih =>
    obtain h | ⟨m, q, h⟩ := s.fetchFrom_succ k n
    · exact ⟨(s.ring n).issued, by rw [h]⟩
    · obtain ⟨c, hc⟩ := ih ((s.modRing n fun r => { r with issued := (r.issued + m) % 2 ^ 32 }).request [q])
      exact ⟨c, by rw [h, hc, State.ring_request, State.ring_modRing_same]⟩

/-! ### The interrupt of a ring (R102) -/

/-- Nothing is announced where no completion is unannounced. -/
theorem State.ringIntr_of_nil (s : State) (n : Nat) (h : (s.ring n).unannounced = []) : s.ringIntr n = s := by
  rw [State.ringIntr]
  rw [h]

/-- IMOD.COUNT completions are unannounced, or the oldest, posted at `at_`, has waited IMOD.TIME. -/
def State.intrDue (s : State) (n at_ : Nat) : Prop :=
  max (s.fld .plocen (Reg.epRngImod n) 0 8) 1 ≤ (s.ring n).unannounced.length
    ∨ at_ + 1000 * s.fld .plocen (Reg.epRngImod n) 8 16 ≤ s.now

/-- An armed ring whose interrupt is enabled and due sends it, and is no longer armed. -/
theorem State.ringIntr_of_due (s : State) (n at_ : Nat) (hhead : (s.ring n).unannounced.head? = some at_)
    (hen : s.flag .plocen (Reg.epRngCfg n) 25 = true) (harm : (s.ring n).armed = true) (hdue : s.intrDue n at_) :
    s.ringIntr n = (s.modRing n fun r => { r with armed := false, unannounced := [] }).request [intrReq n] := by
  obtain ⟨rest, hq⟩ := List.head?_eq_some_iff.mp hhead
  rw [State.intrDue, hq] at hdue
  rw [State.ringIntr]
  rw [hq]
  exact if_pos (by simpa [hen, harm] using hdue)

/-! ### What a doorbell does on an enabled ring -/

/-- R96: a tail within both limits is taken, and what it covers is fetched. -/
theorem State.sqStore_of_le (s : State) (n t : Nat) (hon : s.ringOn n = true) (hhead : subMod 32 t (s.ring n).cqHead ≤ s.ringSize n)
    (htail : subMod 32 t (s.ring n).sqTail ≤ s.ringSize n) :
    s.sqStore n t = (s.modRing n fun r => { r with sqTail := t }).fetchRing n := by
  rw [State.sqStore]
  rw [if_neg (by simp [hon]), if_neg (by omega)]

theorem State.sqStore_of_lt (s : State) (n t : Nat) (hon : s.ringOn n = true)
    (h : s.ringSize n < subMod 32 t (s.ring n).cqHead ∨ s.ringSize n < subMod 32 t (s.ring n).sqTail) :
    s.sqStore n t = s.ringError n 1 := by
  rw [State.sqStore]
  rw [if_neg (by simp [hon]), if_pos h]

theorem State.cqStore_of_le (s : State) (n h : Nat) (hon : s.ringOn n = true)
    (hle : subMod 32 h (s.ring n).cqHead ≤ subMod 32 (s.ring n).cqTail (s.ring n).cqHead) :
    s.cqStore n h = s.modRing n fun r => { r with cqHead := h } := by
  rw [State.cqStore]
  rw [if_neg (by simp [hon]), if_neg (by omega)]

theorem State.cqStore_of_lt (s : State) (n h : Nat) (hon : s.ringOn n = true)
    (hlt : subMod 32 (s.ring n).cqTail (s.ring n).cqHead < subMod 32 h (s.ring n).cqHead) :
    s.cqStore n h = s.ringError n 2 := by
  rw [State.cqStore]
  rw [if_neg (by simp [hon]), if_pos hlt]

theorem State.armStore_of_bit (s : State) (n v : Nat) (hon : s.ringOn n = true) (hv : bit 0 v = true) :
    s.armStore n v = (s.modRing n fun r => { r with armed := true }).ringIntr n :=
  if_neg (by simp [hon, hv])

/-- ERRCODE keeps the first error, and fetching goes on after a bad CQ_HEAD alone (R127). -/
theorem State.ring_ringError (s : State) (n code : Nat) :
    (s.ringError n code).ring n =
      { s.ring n with err := true, errCode := (if (s.ring n).err then (s.ring n).errCode else code)
                      fetchStop := (s.ring n).fetchStop || code != 2 } :=
  s.ring_modRing_same n _

theorem State.onlyRing_ringError (s : State) (n code : Nat) : onlyRing n s (s.ringError n code) := s.onlyRing_modRing n _

/-- A completion entry goes out while the attach link is not down (R95, R99, R116). -/
theorem State.postCompletion_of_up (s : State) (n sub code info cookie : Nat) (h : s.ep.att.down = false) :
    s.postCompletion n sub code info cookie =
      (s.modRing n fun r => { r with cqTail := ((s.ring n).cqTail + 1) % 2 ^ 32 }).request
        [{ kind := 2, use := some (.completion n (s.ring n).cqTail)
           addr := s.epBase (Reg.epRngCqBaseLo n) (Reg.epRngCqBaseHi n) + 16 * ((s.ring n).cqTail % s.ringSize n), len := 16
           data := completionBytes sub code (phaseOf (s.ring n).cqTail (s.ringSize n)) cookie info s.now, aux := 0 }] :=
  if_neg (by simp [h])

/-! ### The commands, while the attach link carries traffic -/

theorem State.viaAttach_of_on (s : State) (f : State → State) (h : s.attOn = true) : s.viaAttach f = f s := if_pos h

theorem exec_sqDb (s : State) (n : Fin 1024) (v : Word) (h : s.attOn = true) : exec (.sqDb n v) s = .next (s.sqStore n v.toNat) := by
  have hexec : exec (.sqDb n v) s = execSqDb n v s := rfl
  rw [hexec, execSqDb, s.viaAttach_of_on _ h]

theorem exec_cqDb (s : State) (n : Fin 1024) (v : Word) (h : s.attOn = true) : exec (.cqDb n v) s = .next (s.cqStore n v.toNat) := by
  have hexec : exec (.cqDb n v) s = execCqDb n v s := rfl
  rw [hexec, execCqDb, s.viaAttach_of_on _ h]

theorem exec_arm (s : State) (n : Fin 1024) (v : Word) (h : s.attOn = true) : exec (.arm n v) s = .next (s.armStore n v.toNat) := by
  have hexec : exec (.arm n v) s = execArm n v s := rfl
  rw [hexec, execArm, s.viaAttach_of_on _ h]

theorem exec_intrModerationTimeout (s : State) (n : Fin 1024) : exec (.intrModerationTimeout n) s = .next (s.ringIntr n) := rfl

/-! ### The obligation -/

/-- Settles O6: each doorbell goes by the equation of its store (`sqStore_of_le` to `armStore_of_bit`), an interrupt by
`ringIntr_of_due` and a completion entry by `postCompletion_of_up`; `onlyRing` holds of each change of the ring and of each request. -/
theorem doorbellsAndCompletions : Obligations.DoorbellsAndCompletions := by
  unfold Obligations.DoorbellsAndCompletions
  refine ⟨fun s n hatt hon => ⟨fun v hhead htail => ?sqTaken, fun v hbad => ?sqIgnored, fun v hle => ?cqTaken, fun v hlt => ?cqIgnored,
    fun v hv hnone => ?armed, fun v at_ hhead hen hdue => ⟨fun hv => ?armedDue, fun harm => ?timeout⟩⟩,
    fun s n sub code info cookie hup => ?completion⟩
  case sqTaken =>
    refine ⟨_, exec_sqDb s n v hatt, ?_⟩
    rw [s.sqStore_of_le n v.toNat hon hhead htail, State.fetchRing]
    refine ⟨?_, State.onlyRing_trans (s.onlyRing_modRing n _) (State.onlyRing_fetchFrom _ _ n)⟩
    obtain ⟨c, hc⟩ := State.ring_fetchFrom _ (s.modRing n fun r => { r with sqTail := v.toNat }) n
    rw [hc, State.ring_modRing_same]
  case sqIgnored =>
    refine ⟨_, exec_sqDb s n v hatt, ?_⟩
    rw [s.sqStore_of_lt n v.toNat hon hbad]
    exact ⟨by simp [State.ring_ringError], s.onlyRing_ringError n 1⟩
  case cqTaken =>
    refine ⟨_, exec_cqDb s n v hatt, ?_⟩
    rw [s.cqStore_of_le n v.toNat hon hle]
    exact ⟨s.ring_modRing_same n _, s.onlyRing_modRing n _⟩
  case cqIgnored =>
    refine ⟨_, exec_cqDb s n v hatt, ?_⟩
    rw [s.cqStore_of_lt n v.toNat hon hlt]
    exact ⟨by simp [State.ring_ringError], s.onlyRing_ringError n 2⟩
  case armed =>
    refine ⟨_, exec_arm s n v hatt, ?_⟩
    rw [s.armStore_of_bit n v.toNat hon hv, State.ringIntr_of_nil _ _ (by simpa using hnone)]
    exact ⟨s.ring_modRing_same n _, s.onlyRing_modRing n _⟩
  case armedDue =>
    have hfire := (s.modRing n fun r => { r with armed := true }).ringIntr_of_due n at_ (by simpa using hhead) hen (by simp)
      (by simpa [State.intrDue] using hdue)
    exact ⟨_, by rw [exec_arm s n v hatt, s.armStore_of_bit n v.toNat hon hv, hfire], by simp, s.onlyRing_modRing_modRing n _ _⟩
  case timeout =>
    exact ⟨_, by rw [exec_intrModerationTimeout, s.ringIntr_of_due n at_ hhead hen harm hdue], s.ring_modRing_same n _,
      s.onlyRing_modRing n _⟩
  case completion =>
    exact ⟨_, s.postCompletion_of_up n sub code info cookie hup, s.ring_modRing_same n _, s.onlyRing_modRing n _⟩

end Sys2Proof.Machine
end

section
/-! How a command of the management ring runs (R387, R388): what its begin, its log entries, its events and its end change, and what a
command that waits keeps. -/

namespace Sys2Proof.Machine

open Sys2Proof Sys2Proof.Claims

/-! ### What logging, interrupts and events change -/

/-- From `s` to `t` only what records an action differs: what has been sent outside, which has lost nothing, the change log, the
Ronpex's registers, and the management rings but for the running command and CMD_HEAD. -/
structure State.Recorded (s t : State) : Prop where
  frame : t = { s with out := t.out, rp := { s.rp with regs := t.rp.regs, log := t.rp.log, mgmt := t.rp.mgmt } }
  running : t.rp.mgmt.running = s.rp.mgmt.running
  cmdHead : t.rp.mgmt.cmdHead = s.rp.mgmt.cmdHead
  sent : s.out ⊆ t.out

theorem State.Recorded.refl (s : State) : s.Recorded s := ⟨rfl, rfl, rfl, List.Subset.refl _⟩

theorem State.Recorded.trans {s t u : State} (h : s.Recorded t) (k : t.Recorded u) : s.Recorded u where
  frame := by
    have hst := h.frame
    have htu := k.frame
    rw [hst] at htu
    exact htu
  running := k.running.trans h.running
  cmdHead := k.cmdHead.trans h.cmdHead
  sent := List.Subset.trans h.sent k.sent

theorem State.recorded_emit (s : State) (o : Out) : s.Recorded (s.emit o) := ⟨rfl, rfl, rfl, List.subset_cons_self _ _⟩

theorem State.recorded_setReg (s : State) (a v : Nat) : s.Recorded (s.setReg .ronpex a v) := ⟨rfl, rfl, rfl, List.Subset.refl _⟩

theorem State.recorded_satFld (s : State) (a lo len n : Nat) : s.Recorded (s.satFld .ronpex a lo len n) := s.recorded_setReg a _

theorem State.recorded_rpLog (s : State) (b : LogBody) : s.Recorded (s.rpLog b) := by
  obtain ⟨l, x, h⟩ := s.rpLog_only b
  rw [h]
  exact ⟨rfl, rfl, rfl, List.Subset.refl _⟩

theorem State.recorded_msix (s : State) (v : Nat) : s.Recorded (s.msix v) := by
  unfold State.msix
  split
  · exact s.recorded_setReg _ _
  · exact s.recorded_emit _

theorem State.recorded_evtWrite (s : State) (e : Event) : s.Recorded (s.evtWrite e) := by
  unfold State.evtWrite
  refine State.Recorded.trans ?_ (State.recorded_msix _ 1)
  exact ⟨rfl, rfl, rfl, List.subset_cons_self _ _⟩

theorem State.recorded_evtOverflow (s : State) : s.Recorded s.evtOverflow := by
  unfold State.evtOverflow
  split
  · exact (s.recorded_evtWrite _).trans (State.recorded_setReg _ _ _)
  · exact .refl s

/-- A posted event is written, held or counted as lost. -/
theorem State.recorded_post (s : State) (e : Event) : s.Recorded (s.post e) := by
  unfold State.post
  split
  · split
    · exact ⟨rfl, rfl, rfl, List.Subset.refl _⟩
    · exact s.recorded_satFld _ _ _ _
  · dsimp only
    split
    · exact s.recorded_evtOverflow.trans (State.recorded_evtWrite _ e)
    · exact s.recorded_evtOverflow.trans (State.recorded_satFld _ _ _ _ _)

theorem State.recorded_cmdNext (s : State) : s.Recorded s.cmdNext := by
  unfold State.cmdNext
  split
  · exact s.recorded_emit _
  · exact .refl s

/-- The end of a command takes it from the ring; all else that changes is a record of the end. -/
theorem State.recorded_cmdDone (s : State) (r : Running) (status detail : Nat) (h : s.rp.mgmt.running = some r) :
    (s.modMgmt fun m => { m with running := none }).Recorded (s.cmdDone status detail) := by
  unfold State.cmdDone
  rw [h]
  exact ((State.recorded_post _ _).trans (State.recorded_msix _ 0)).trans (State.recorded_cmdNext _)

theorem State.Recorded.onlyRonpex {s t : State} (h : s.Recorded t) : onlyRonpex s t := by
  rw [h.frame]
  exact ⟨rfl, rfl, rfl, rfl⟩

theorem State.Recorded.links {s t : State} (h : s.Recorded t) : t.rp.links = s.rp.links := by rw [h.frame]

theorem State.Recorded.sec {s t : State} (h : s.Recorded t) : t.rp.sec = s.rp.sec := by rw [h.frame]

theorem State.Recorded.skeins {s t : State} (h : s.Recorded t) : t.rp.skeins = s.rp.skeins := by rw [h.frame]

theorem State.onlyRonpex_trans {s t u : State} (h : onlyRonpex s t) (k : onlyRonpex t u) : onlyRonpex s u := by
  obtain ⟨hep, hhbm, hnow, hpending⟩ := h
  obtain ⟨kep, khbm, know, kpending⟩ := k
  exact ⟨kep.trans hep, khbm.trans hhbm, know.trans hnow, kpending.trans hpending⟩

/-! ### A command while it executes -/

/-- In `t` the command `c`, fetched in `s`, executes and waits for `w`; no link, and nothing outside the Ronpex, has changed. -/
structure State.Executing (s : State) (c : Command) (w : CmdWait) (t : State) : Prop where
  waits : Claims.waits s t c w
  cmdHead : t.rp.mgmt.cmdHead = (s.rp.mgmt.cmdHead + 1) % 2 ^ 32
  links : t.rp.links = s.rp.links

theorem State.executing_begun (s : State) (c : Command) : s.Executing c .none (begun s c) :=
  ⟨⟨rfl, rfl, rfl, rfl, rfl⟩, rfl, rfl⟩

section Executing
variable {s t : State} {c : Command} {w : CmdWait}

theorem State.Executing.running (h : s.Executing c w t) :
    t.rp.mgmt.running = some { tag := c.tag, count := s.rp.mgmt.cmdHead, wait := w } := h.waits.1

theorem State.Executing.onlyRonpex (h : s.Executing c w t) : onlyRonpex s t := h.waits.2

/-- A step that keeps the running command, CMD_HEAD and the links, and touches the Ronpex alone, keeps the command executing. -/
theorem State.Executing.step {u : State} (h : s.Executing c w t) (hrun : u.rp.mgmt.running = t.rp.mgmt.running)
    (hhead : u.rp.mgmt.cmdHead = t.rp.mgmt.cmdHead) (hlinks : u.rp.links = t.rp.links) (honly : Claims.onlyRonpex t u) :
    s.Executing c w u where
  waits := ⟨hrun.trans h.running, State.onlyRonpex_trans h.onlyRonpex honly⟩
  cmdHead := hhead.trans h.cmdHead
  links := hlinks.trans h.links

theorem State.Executing.recorded {u : State} (h : s.Executing c w t) (k : t.Recorded u) : s.Executing c w u :=
  h.step k.running k.cmdHead k.links k.onlyRonpex

theorem State.Executing.modSec (h : s.Executing c w t) (f : Security → Security) : s.Executing c w (t.modSec .ronpex f) :=
  h.step rfl rfl rfl ⟨rfl, rfl, rfl, rfl⟩

theorem State.Executing.cmdWait (h : s.Executing c w t) (v : CmdWait) : s.Executing c v (t.cmdWait v) where
  waits := by
    refine ⟨?_, h.onlyRonpex⟩
    rw [State.cmdWait, State.modMgmt_rp_mgmt, h.running]
    rfl
  cmdHead := h.cmdHead
  links := h.links

theorem State.Executing.ended (h : s.Executing c w t) (status detail : Nat) : ended s (t.cmdDone status detail) := by
  have hdone := t.recorded_cmdDone _ status detail h.running
  exact ⟨hdone.running, hdone.cmdHead.trans h.cmdHead, hdone.links.trans h.links,
    State.onlyRonpex_trans h.onlyRonpex hdone.onlyRonpex⟩

theorem State.Executing.sec_cmdDone (h : s.Executing c w t) (status detail : Nat) : (t.cmdDone status detail).rp.sec = t.rp.sec :=
  (t.recorded_cmdDone _ status detail h.running).sec

theorem State.Executing.skeins_cmdDone (h : s.Executing c w t) (status detail : Nat) :
    (t.cmdDone status detail).rp.skeins = t.rp.skeins :=
  (t.recorded_cmdDone _ status detail h.running).skeins

theorem State.Executing.sent_cmdDone (h : s.Executing c w t) (status detail : Nat) : t.out ⊆ (t.cmdDone status detail).out :=
  (t.recorded_cmdDone _ status detail h.running).sent

end Executing

/-- A command that may be fetched, could be read and is well formed does what its OP says. -/
theorem State.command_of_wellFormed (s : State) (c : Command) (op : Nat) (ok : Bool) (f : State → State) (hfetch : s.mayFetch = true)
    (hread : c.fetchOk = true) (hop : c.op = op) (hok : ok = true) : s.command c op ok f = f (begun s c) := by
  rw [State.command, if_neg (by simp [hfetch]), if_neg (by simp [hread])]
  exact if_neg (by simp [hop, hok])

end Sys2Proof.Machine
end

section
/-! The firmware commands and TENANT of the management ring (R328, R388, R394, R404-R406): bytes of a firmware slot, firmware states, and
what each command does, case by case. -/

namespace Sys2Proof.Machine

open Sys2Proof Sys2Proof.Claims

/-! ### Firmware slots (R404) -/

@[simp] theorem length_sliceBytes (l : List Byte) (o n : Nat) : (sliceBytes l o n).length = n := by
  simp only [sliceBytes, List.length_append, List.length_take, List.length_drop, List.length_replicate]
  omega

/-- A byte of the first `n`; bytes beyond the end of the list are zero. -/
theorem getElem_sliceBytes_zero (l : List Byte) (n i : Nat) (h : i < (sliceBytes l 0 n).length) :
    (sliceBytes l 0 n)[i] = l.getD i 0 := by
  have hn : i < n := by simpa using h
  simp only [sliceBytes, List.drop_zero, List.getElem_append, List.length_take, List.getElem_take, List.getElem_replicate,
    List.getD_eq_getElem?_getD]
  split
  · next hlt => simp [List.getElem?_eq_getElem (show i < l.length by omega)]
  · next hge => simp [List.getElem?_eq_none (show l.length ≤ i by omega)]

theorem Security.slotByte_slotWrite_inside (x : Security) (b : Bool) (o i : Nat) (d : List Byte) (h : i < d.length) :
    (x.slotWrite b o d).slotByte b (o + i) = d[i] := by
  cases b <;> exact memStore_inside _ o d i h

theorem Security.slotByte_slotWrite_outside (x : Security) (b : Bool) (o a : Nat) (d : List Byte) (h : a < o ∨ o + d.length ≤ a) :
    (x.slotWrite b o d).slotByte b a = x.slotByte b a := by
  obtain h | h := h
  · cases b <;> exact memStore_below _ o a d h
  · cases b <;> exact memStore_above _ o a d h

theorem Security.slotByte_slotWrite_other (x : Security) (b : Bool) (o a : Nat) (d : List Byte) :
    (x.slotWrite (!b) o d).slotByte b a = x.slotByte b a := by
  cases b <;> rfl

@[simp] theorem Security.slotWrite_slotB (x : Security) (b : Bool) (o : Nat) (d : List Byte) : (x.slotWrite b o d).slotB = x.slotB := by
  cases b <;> rfl

@[simp] theorem Security.slotWrite_fw (x : Security) (b : Bool) (o : Nat) (d : List Byte) : (x.slotWrite b o d).fw = x.fw := by
  cases b <;> rfl

theorem Security.slotByte_slotErase_same (x : Security) (b : Bool) (a : Nat) : (x.slotErase b).slotByte b a = 0 := by
  cases b <;> rfl

theorem Security.slotByte_slotErase_other (x : Security) (b : Bool) (a : Nat) : (x.slotErase (!b)).slotByte b a = x.slotByte b a := by
  cases b <;> rfl

@[simp] theorem Security.slotErase_fw (x : Security) (b : Bool) : (x.slotErase b).fw = x.fw := by
  cases b <;> rfl

/-- A step of the firmware state is logged and posted as an event; beside these records the state alone differs (R328, R390, R400). -/
theorem State.recorded_fwState (s : State) (new : Nat) :
    (s.modSec .ronpex fun x => { x with fw := new }).Recorded (s.fwState .ronpex new) :=
  (State.recorded_rpLog _ _).trans (State.recorded_post _ _)

theorem State.fwState_sec (s : State) (new : Nat) : (s.fwState .ronpex new).rp.sec = { s.rp.sec with fw := new } :=
  (s.recorded_fwState new).sec

theorem State.Executing.fwState {s t : State} {c : Command} {w : CmdWait} (h : s.Executing c w t) (new : Nat) :
    s.Executing c w (t.fwState .ronpex new) :=
  (h.modSec _).recorded (t.recorded_fwState new)

/-- Layer 1 begins to restart, and the command that restarts it goes on (R327). -/
theorem State.Executing.restartLayer1 {s t : State} {c : Command} {w : CmdWait} (h : s.Executing c w t) (activating : Bool) :
    s.Executing c w (t.restartLayer1 .ronpex activating) ∧ (t.restartLayer1 .ronpex activating).rp.sec =
      { t.rp.sec with restartAt := some s.now, activating := activating, sessions := [] } := by
  obtain ⟨-, -, hnow, -⟩ := h.onlyRonpex
  rw [← hnow]
  exact ⟨h.modSec _, rfl⟩

/-! ### FW_WRITE -/

theorem State.fwWriteCmd_of_busy (s : State) (off len : Nat) (d : List Byte) (ok : Bool) (h : s.rp.sec.fw ≠ 0) :
    s.fwWriteCmd off len d ok = s.cmdDone 2 0 := if_pos h

theorem State.fwWriteCmd_of_malformed (s : State) (off len : Nat) (d : List Byte) (ok : Bool) (h : s.rp.sec.fw = 0)
    (hbad : off % 4096 ≠ 0 ∨ 2 ^ 20 < len ∨ slotBytes < off + len) : s.fwWriteCmd off len d ok = s.cmdDone 1 0 := by
  rw [State.fwWriteCmd, if_neg (by simp [h]), if_pos hbad]

theorem State.fwWriteCmd_of_fits (s : State) (off len : Nat) (d : List Byte) (h : s.rp.sec.fw = 0) (hoff : off % 4096 = 0)
    (hlen : len ≤ 2 ^ 20) (hend : off + len ≤ slotBytes) :
    s.fwWriteCmd off len d true =
      (s.modSec .ronpex fun x => x.slotWrite (!x.slotB) off (sliceBytes d 0 len)).cmdDone 0 0 := by
  rw [State.fwWriteCmd, if_neg (by simp [h]), if_neg (by omega), if_neg (by simp)]

/-! ### FW_VERIFY (R405) -/

/-- The checks of R405 on the image in slot `b`, whose header is `head` and whose body is `n` bytes long: the signature and the body
digest end with one code. -/
theorem State.fwCheck_ronpex (s : State) (b : Bool) (n : Nat) (head : List Byte) (hb : b = !s.rp.sec.slotB)
    (hn : n = s.rp.sec.bodyLength b) (hhead : head = s.rp.sec.slotRead b 0 512) :
    s.fwCheck .ronpex =
      if fieldNat head 0 4 ≠ 0x5746444A ∨ fieldNat head 4 2 ≠ 0x0192 then 3
      else if Config.firmwareSignatureVerifies (Config.sha384 (head.take 64)) (sliceBytes (head.drop 64) 0 96) = false
          ∨ slotBytes < 512 + n ∨ (Config.sha384 (s.rp.sec.slotRead b 512 n)).toNat ≠ fieldNat head 16 48 then 5
      else if fieldNat head 6 2 < s.rp.pst.word Reg.pstFwsvn % 2 ^ 16 then 6
      else 0 := by
  simp only [State.fwCheck, State.sec, imagePart, ← hb, ← hn, ← hhead, Bool.not_eq_true', ite_or]

theorem State.fwVerifyCmd_of_failed (s : State) (r : Nat) (h : s.fwCheck .ronpex = r) (hr : r ≠ 0) : s.fwVerifyCmd = s.cmdDone r 0 := by
  rw [State.fwVerifyCmd, h, if_pos hr]

theorem State.fwVerifyCmd_of_stable (s : State) (h : s.fwCheck .ronpex = 0) (hfw : s.rp.sec.fw = 0) :
    s.fwVerifyCmd = (s.fwState .ronpex 1).cmdDone 0 0 := by
  rw [State.fwVerifyCmd, h, if_neg (by simp), if_pos hfw]

theorem State.fwVerifyCmd_of_staged (s : State) (h : s.fwCheck .ronpex = 0) (hfw : s.rp.sec.fw ≠ 0) :
    s.fwVerifyCmd = s.cmdDone 0 0 := by
  rw [State.fwVerifyCmd, h, if_neg (by simp), if_neg hfw]

/-! ### FW_ACTIVATE and FW_ERASE (R328, R406) -/

theorem State.fwActivateCmd_of_unstaged (s : State) (h : s.rp.sec.fw ≠ 1) : s.fwActivateCmd = s.cmdDone 2 0 := if_pos h

theorem State.fwActivateCmd_of_staged (s : State) (h : s.rp.sec.fw = 1) :
    s.fwActivateCmd = ((s.cmdWait .activate).fwState .ronpex 2).restartLayer1 .ronpex true := if_neg (by simp [h])

/-- The security controller after a slot has been erased: an image that was staged is no longer (R328). -/
def Security.erased (x : Security) : Security :=
  { x.slotErase (!x.slotB) with fw := if x.fw = 1 then 0 else x.fw }

theorem State.fwEraseCmd_of_executing {s t : State} {c : Command} {w : CmdWait} (h : s.Executing c w t) :
    ended s t.fwEraseCmd ∧ t.fwEraseCmd.rp.sec = t.rp.sec.erased := by
  have herased := h.modSec fun x => x.slotErase (!x.slotB)
  have hfw : (t.modSec .ronpex fun x => x.slotErase (!x.slotB)).rp.sec.fw = t.rp.sec.fw := t.rp.sec.slotErase_fw _
  rw [State.fwEraseCmd, Security.erased, hfw]
  split
  · have hstable := herased.fwState 0
    refine ⟨hstable.ended 0 0, ?_⟩
    rw [hstable.sec_cmdDone, State.fwState_sec]
    rfl
  · refine ⟨herased.ended 0 0, ?_⟩
    rw [herased.sec_cmdDone, ← t.rp.sec.slotErase_fw]
    rfl

/-! ### TENANT (R394) -/

/-- A field written with what it holds leaves the word as it is. -/
theorem setBits_bits (lo len w : Nat) : setBits lo len (bits lo len w) w = w := by
  have hfield : bits lo len w * 2 ^ lo ≤ w := calc
    bits lo len w * 2 ^ lo ≤ w / 2 ^ lo * 2 ^ lo := Nat.mul_le_mul_right _ (Nat.mod_le _ _)
    _ ≤ w := Nat.div_mul_le_self w _
  rw [setBits, Nat.mod_eq_of_lt (bits_lt lo len w)]
  omega

/-- An access of skein `k` is counted against its budget (R307). -/
def State.tenantCounted (s : State) (k : Nat) : State :=
  s.modSk fun x => { x with mgmt := SMap.put (fun _ => 0) x.mgmt k (SMap.look (fun _ => 0) x.mgmt k + 1) }

theorem State.Executing.tenantCounted {s t : State} {c : Command} {w : CmdWait} (h : s.Executing c w t) (k : Nat) :
    s.Executing c w (t.tenantCounted k) :=
  h.step rfl rfl rfl ⟨rfl, rfl, rfl, rfl⟩

/-- A read within the skein's grants gives the register. -/
theorem State.tenantWord_read (s : State) (k a v : Nat) (h : s.ownReg k a = true) :
    s.tenantWord k a false v = (s.tenantCounted k, leBytes 4 (s.rpRead a)) := by
  rw [State.tenantWord, if_neg (show ¬ false = true by decide), if_neg (show ¬ false = true by decide), if_pos h, ite_self]
  rfl

/-- A read of one register within the budget goes to memory, and the command ends. -/
theorem State.tenantRun_of_budget (s : State) (c : Command) (hcount : bits 16 4 c.p0 = 1) (hread : bit 8 c.p0 = false)
    (hbudget : s.enforced = false ∨ SMap.look (fun _ => 0) s.rp.skeins.mgmt (bits 0 6 c.p0) < s.mgmtBudget (bits 0 6 c.p0))
    (hown : s.ownReg (bits 0 6 c.p0) c.p1 = true) :
    s.tenantRun c = ((s.tenantCounted (bits 0 6 c.p0)).emit (.dmaWrite c.addr (leBytes 4 (s.rpRead c.p1)))).cmdDone 0 0 := by
  have hwithin : ¬(s.enforced = true ∧ s.mgmtBudget (bits 0 6 c.p0) ≤ SMap.look (fun _ => 0) s.rp.skeins.mgmt (bits 0 6 c.p0)) := by
    rintro ⟨hon, hover⟩
    obtain hoff | hunder := hbudget
    · exact absurd (hon.symm.trans hoff) (by decide)
    · omega
  rw [State.tenantRun, hcount, hread, State.tenantWords, if_neg hwithin, State.tenantWord_read _ _ _ _ hown]
  rfl

/-- Beyond the budget the command waits as it came: none of its words is done. -/
theorem State.tenantRun_of_overBudget (s : State) (c : Command) (hcount : bits 16 4 c.p0 = 1) (hon : s.enforced = true)
    (hover : s.mgmtBudget (bits 0 6 c.p0) ≤ SMap.look (fun _ => 0) s.rp.skeins.mgmt (bits 0 6 c.p0)) :
    s.tenantRun c = s.cmdWait (.budget c) := by
  have hsame : setBits 16 4 1 c.p0 = c.p0 := by rw [← hcount, setBits_bits]
  rw [State.tenantRun, hcount, State.tenantWords, if_pos ⟨hon, hover⟩]
  simp [hsame]

end Sys2Proof.Machine
end

section
/-! Management messages that the Ronpex sends (R163, R304, R388, R392): what the way of a container into the crossbar changes, which
containers the source holds afterwards, and SEND, to one node or to every end point. -/

namespace Sys2Proof.Machine

open Sys2Proof Sys2Proof.Claims

/-! ### What sending a container changes -/

/-- From `s` to `t` only containers of the Ronpex have moved: its source, its candidates, those that come home, the record of the nodes
that are UNROUTED, and the log of these may differ. -/
structure State.Moved (s t : State) : Prop where
  frame : t = { s with rp := { s.rp with
    src := t.rp.src, cand := t.rp.cand, home := t.rp.home, warp := t.rp.warp, log := t.rp.log, regs := t.rp.regs } }
  regs : regsBut s t .ronpex [Reg.logLost]

theorem State.Moved.refl (s : State) : s.Moved s := ⟨rfl, fun _ _ => rfl⟩

theorem State.Moved.trans {s t u : State} (h : s.Moved t) (k : t.Moved u) : s.Moved u where
  frame := by
    have hst := h.frame
    have htu := k.frame
    rw [hst] at htu
    exact htu
  regs := fun a ha => (k.regs a ha).trans (h.regs a ha)

theorem State.Moved.onlyRonpex {s t : State} (h : s.Moved t) : onlyRonpex s t := by
  rw [h.frame]
  exact ⟨rfl, rfl, rfl, rfl⟩

theorem State.Moved.mgmt {s t : State} (h : s.Moved t) : t.rp.mgmt = s.rp.mgmt := by rw [h.frame]

theorem State.Moved.links {s t : State} (h : s.Moved t) : t.rp.links = s.rp.links := by rw [h.frame]

theorem State.Executing.moved {s t u : State} {c : Command} {w : CmdWait} (h : s.Executing c w t) (k : t.Moved u) :
    s.Executing c w u :=
  h.step (congrArg MgmtRings.running k.mgmt) (congrArg MgmtRings.cmdHead k.mgmt) k.links k.onlyRonpex

/-- Sending leaves the node of a port as it is (R304). -/
theorem State.Moved.portNode {s t : State} (h : s.Moved t) (p : Nat) (hp : p < 192) : t.portNode p = s.portNode p := by
  have hne : Reg.sknPort p ∉ [Reg.logLost] := by
    rw [List.mem_singleton, Reg.sknPort, Reg.logLost]
    omega
  rw [State.portNode, State.fld, h.regs _ hne]
  rfl

theorem State.moved_setSource (s : State) (x : Source) : s.Moved (s.setSource .ronpex x) := ⟨rfl, fun _ _ => rfl⟩

/-- The containers move and the source stays as it is. -/
def State.Routed (s t : State) : Prop := s.Moved t ∧ t.rp.src = s.rp.src

theorem State.routed_offer (s : State) (port : Nat) (x : EddyEnt) : s.Routed (s.offer port x) := ⟨⟨rfl, fun _ _ => rfl⟩, rfl⟩

theorem State.routed_goHome (s : State) (c : Container) : s.Routed (s.goHome c) := ⟨⟨rfl, fun _ _ => rfl⟩, rfl⟩

theorem State.moved_rpLog (s : State) (b : LogBody) : s.Moved (s.rpLog b) where
  frame := by
    obtain ⟨l, x, h⟩ := s.rpLog_only b
    rw [h]
  regs := fun a ha => by
    rw [State.rpLog]
    split
    · rfl
    · rw [List.mem_singleton] at ha
      exact State.reg_satFld_other _ _ _ _ _ _ _ _ (.inr (Ne.symm ha))

theorem State.rpLog_src (s : State) (b : LogBody) : (s.rpLog b).rp.src = s.rp.src := by
  obtain ⟨l, x, h⟩ := s.rpLog_only b
  rw [h]

theorem State.routed_logUnrouted (s : State) (p : Nat) (c : Container) : s.Routed (s.logUnrouted p c) := by
  unfold State.logUnrouted
  dsimp only
  split
  · exact ⟨.refl s, rfl⟩
  · exact ⟨(s.moved_rpLog _).trans ⟨rfl, fun _ _ => rfl⟩, s.rpLog_src _⟩

theorem State.routed_reflect (s : State) (x : EddyEnt) (noPath : Bool) : s.Routed (s.reflect x noPath) := by
  unfold State.reflect
  split
  · exact ⟨.refl s, rfl⟩
  · dsimp only
    split
    · exact s.routed_logUnrouted _ _
    · exact s.routed_goHome _
    · split
      · exact s.routed_offer _ _
      · exact ⟨.refl s, rfl⟩

theorem State.routed_toOutput (s : State) (r : Route) (x : EddyEnt) : s.Routed (s.toOutput r x) := by
  unfold State.toOutput
  split
  · exact s.routed_logUnrouted _ _
  · exact s.routed_goHome _
  · split
    · exact s.routed_offer _ _
    · exact s.routed_reflect _ _

theorem State.routed_rpSend (s : State) (h : Held) : s.Routed (s.rpSend h) := by
  unfold State.rpSend
  dsimp only
  split
  · exact s.routed_toOutput _ _
  · exact s.routed_offer _ _

/-! ### What the source holds -/

/-- What tells a held container from the others, and its destination. -/
def Held.key (h : Held) : Nat × Nat := (h.id, h.c.dest)

/-- The containers that a source holds, by number and destination, oldest first. -/
def Source.keys (x : Source) : List (Nat × Nat) := x.held.map Held.key

/-- No two held containers have one number, and the next number is that of none. -/
structure Source.Numbered (x : Source) : Prop where
  distinct : (x.keys.map Prod.fst).Nodup
  fresh : ∀ k ∈ x.keys, k.1 < x.nextId

theorem Source.numbered_of_nil (x : Source) (h : x.held = []) : x.Numbered := by
  constructor <;> simp [Source.keys, h]

/-- A held container replaced by one of its number and destination leaves the numbers and destinations as they are. -/
theorem map_key_replace (l : List Held) (g h : Held) (hgh : g.key = h.key) (hd : ((l.map Held.key).map Prod.fst).Nodup)
    (hh : h.key ∈ l.map Held.key) : (l.map fun y => if y.id = h.id then g else y).map Held.key = l.map Held.key := by
  rw [List.map_map]
  refine List.map_congr_left fun y hy => ?_
  by_cases hid : y.id = h.id
  · have hkey : y.key = h.key := List.inj_on_of_nodup_map hd (List.mem_map_of_mem hy) hh hid
    simp [hid, hkey, hgh]
  · simp [hid]

/-- Containers have moved, and the source holds the same ones, by number and destination, as before. -/
structure State.Pushed (s t : State) : Prop extends s.Moved t where
  keys : t.rp.src.keys = s.rp.src.keys
  nextId : t.rp.src.nextId = s.rp.src.nextId

/-- Each container that may go is marked as sent and goes into the crossbar (R160, R163). -/
theorem State.pushed_rpPush (s : State) (hd : (s.rp.src.keys.map Prod.fst).Nodup) : s.Pushed s.rpPush := by
  unfold State.rpPush
  refine List.foldlRecOn (motive := fun t : State => s.Pushed t) _ _ ⟨.refl s, rfl, rfl⟩ fun t ht h hmem => ?_
  split
  · exact ht
  · dsimp only
    obtain ⟨hmoved, hsrc⟩ := State.routed_rpSend (t.setSource .ronpex _) _
    refine ⟨(ht.toMoved.trans (t.moved_setSource _)).trans hmoved, ?_, ?_⟩
    · have hkeys := ht.keys
      have hheld : h.key ∈ t.rp.src.keys := hkeys ▸ List.mem_map_of_mem hmem
      rw [hsrc, ← hkeys]
      rw [← hkeys] at hd
      exact map_key_replace t.rp.src.held _ h rfl hd hheld
    · rw [hsrc]
      exact ht.nextId

/-- A new container of the Ronpex, held and pushed: the source holds it after all others, under the next number. -/
structure State.Sends (s t : State) (dest : Nat) : Prop extends s.Moved t where
  keys : t.rp.src.keys = s.rp.src.keys ++ [(s.rp.src.nextId, dest)]
  nextId : t.rp.src.nextId = s.rp.src.nextId + 1

theorem State.sends_hold (s : State) (dest skein plane planes : Nat) (loc : HeldAt) (m : Msg) (own : Owner) :
    s.Sends (s.hold .ronpex dest skein plane planes loc m own).1 dest where
  frame := rfl
  regs := fun _ _ => rfl
  keys := List.map_append
  nextId := rfl

theorem State.Sends.numbered {s t : State} {dest : Nat} (h : s.Sends t dest) (hn : s.rp.src.Numbered) : t.rp.src.Numbered where
  distinct := by
    rw [h.keys, List.map_append, List.nodup_append]
    refine ⟨hn.distinct, List.nodup_singleton _, fun a ha b hb => ?_⟩
    obtain ⟨k, hk, rfl⟩ := List.mem_map.mp ha
    have := hn.fresh k hk
    simp only [List.map_cons, List.map_nil, List.mem_singleton] at hb
    omega
  fresh := fun k hk => by
    rw [h.keys, List.mem_append, List.mem_singleton] at hk
    rw [h.nextId]
    obtain hk | rfl := hk
    · exact Nat.lt_succ_of_lt (hn.fresh k hk)
    · exact Nat.lt_succ_self _

theorem State.Sends.rpPush {s t : State} {dest : Nat} (h : s.Sends t dest) (hn : s.rp.src.Numbered) : s.Sends t.rpPush dest := by
  have hpush := t.pushed_rpPush (h.numbered hn).distinct
  exact ⟨h.toMoved.trans hpush.toMoved, hpush.keys.trans h.keys, hpush.nextId.trans h.nextId⟩

theorem State.sends_rpMgmtNode (s : State) (dest : Nat) (m : Mgmt) (own : Owner) (hn : s.rp.src.Numbered) :
    s.Sends (s.rpMgmtNode dest m own) dest :=
  (s.sends_hold _ _ _ _ _ _ _).rpPush hn

theorem State.sends_rpMgmtPort (s : State) (port dest : Nat) (m : Mgmt) (own : Owner) (hn : s.rp.src.Numbered) :
    s.Sends (s.rpMgmtPort port dest m own) dest :=
  (s.sends_hold _ _ _ _ _ _ _).rpPush hn

/-- No send changes the node of a port, so each container goes to the node that its port had before the first. -/
theorem State.moved_sendToPorts (l : List Nat) (m : Mgmt) (own : Owner) (s : State) (hn : s.rp.src.Numbered) (hl : ∀ p ∈ l, p < 192) :
    s.Moved (l.foldl (fun t p => t.rpMgmtPort p (t.portNode p) m own) s)
      ∧ (l.foldl (fun t p => t.rpMgmtPort p (t.portNode p) m own) s).rp.src.keys.map Prod.snd
        = s.rp.src.keys.map Prod.snd ++ l.map s.portNode := by
  induction l generalizing s with
  | nil => exact ⟨.refl s, (List.append_nil _).symm⟩
  | cons p r ih =>
    have hsend := s.sends_rpMgmtPort p (s.portNode p) m own hn
    obtain ⟨hmoved, hkeys⟩ := ih (s.rpMgmtPort p (s.portNode p) m own) (hsend.numbered hn) fun q hq => hl q (.tail p hq)
    refine ⟨hsend.toMoved.trans hmoved, hkeys.trans ?_⟩
    have hnodes : r.map (s.rpMgmtPort p (s.portNode p) m own).portNode = r.map s.portNode :=
      List.map_congr_left fun q hq => hsend.toMoved.portNode q (hl q (.tail p hq))
    rw [hnodes, hsend.keys]
    simp

section Executing
variable {s t : State} {c : Command} {w : CmdWait} (h : s.Executing c w t) (hheld : t.rp.src.held = [])

include h hheld

/-- A message to a node, from a source that held nothing: the source holds its one container. -/
theorem State.Executing.sendToNode (dest : Nat) (m : Mgmt) (own : Owner) :
    s.Executing c w (t.rpMgmtNode dest m own)
      ∧ ∃ g, (t.rpMgmtNode dest m own).rp.src.held = [g] ∧ g.id = t.rp.src.nextId ∧ g.c.dest = dest := by
  have hsend := t.sends_rpMgmtNode dest m own (t.rp.src.numbered_of_nil hheld)
  have hkeys : (t.rpMgmtNode dest m own).rp.src.held.map Held.key = [(t.rp.src.nextId, dest)] := by
    simpa [Source.keys, hheld] using hsend.keys
  obtain ⟨g, hone, hkey⟩ := List.map_eq_singleton_iff.mp hkeys
  exact ⟨h.moved hsend.toMoved, g, hone, congrArg Prod.fst hkey, congrArg Prod.snd hkey⟩

/-- A message to the end points of several ports, from a source that held nothing: the source holds a container for each, in their
order. -/
theorem State.Executing.sendToPorts (l : List Nat) (m : Mgmt) (own : Owner) (hl : ∀ p ∈ l, p < 192) :
    s.Executing c w (l.foldl (fun t p => t.rpMgmtPort p (t.portNode p) m own) t)
      ∧ (l.foldl (fun t p => t.rpMgmtPort p (t.portNode p) m own) t).rp.src.held.map (fun g => g.c.dest) = l.map t.portNode := by
  obtain ⟨hmoved, hdests⟩ := State.moved_sendToPorts l m own t (t.rp.src.numbered_of_nil hheld) hl
  rw [Source.keys, List.map_map, Source.keys, hheld] at hdests
  exact ⟨h.moved hmoved, hdests⟩

end Executing

/-! ### SEND (R388) -/

theorem State.sendCmd_of_long (s : State) (dest len : Nat) (d : List Byte) (ok : Bool) (h : 768 < len) :
    s.sendCmd dest len d ok = s.cmdDone 1 0 := if_pos h

theorem State.sendCmd_of_unread (s : State) (dest len : Nat) (d : List Byte) (h : len ≤ 768) :
    s.sendCmd dest len d false = s.cmdDone 4 0 := by
  rw [State.sendCmd, if_neg (by omega)]
  rfl

theorem State.sendCmd_of_node (s : State) (dest len : Nat) (d : List Byte) (h : len ≤ 768) (hdest : dest ≠ 0x7FFF) :
    s.sendCmd dest len d true =
      (s.cmdWait (.sent [s.rp.src.nextId] false)).rpMgmtNode dest (.raw (sliceBytes d 0 len)) (.mgmt 1) := by
  rw [State.sendCmd, if_neg (by omega), if_neg (by simp)]
  exact if_neg hdest

theorem State.sendCmd_of_broadcast_nil (s : State) (len : Nat) (d : List Byte) (h : len ≤ 768)
    (hports : s.upPorts.filter s.facesPlocen = []) : s.sendCmd 0x7FFF len d true = s.cmdDone 0 0 := by
  rw [State.sendCmd, if_neg (by omega), if_neg (by simp), if_pos rfl, hports]
  rfl

theorem State.sendCmd_of_broadcast (s : State) (len : Nat) (d : List Byte) (h : len ≤ 768)
    (hports : s.upPorts.filter s.facesPlocen ≠ []) :
    s.sendCmd 0x7FFF len d true =
      (s.upPorts.filter s.facesPlocen).foldl (fun t p => t.rpMgmtPort p (t.portNode p) (.raw (sliceBytes d 0 len)) (.mgmt 1))
        (s.cmdWait (.sent ((List.range (s.upPorts.filter s.facesPlocen).length).map (s.rp.src.nextId + ·)) false)) := by
  rw [State.sendCmd, if_neg (by omega), if_neg (by simp), if_pos rfl, if_neg (by simpa using hports)]

theorem State.lt_of_mem_upPorts (s : State) (p : Nat) (h : p ∈ s.upPorts) : p < 192 :=
  List.mem_range.mp (List.mem_filter.mp h).1

end Sys2Proof.Machine
end

section
/-! SEND, TENANT and the firmware commands as they are executed (R387, R388), and the obligation on them. -/

namespace Sys2Proof.Machine

open Sys2Proof Sys2Proof.Claims

/-! ### Well-formed commands that may be fetched -/

section Exec
variable {s : State} {c : Command} (hfetch : s.mayFetch = true) (hread : c.fetchOk = true)

include hfetch hread

theorem exec_send (d : List Byte) (ok : Bool) (hop : c.op = 8)
    (huse : Command.unusedZero c { addr := true, len := true, p0 := 0x7FFF } = true) :
    exec (.send c d ok) s = .next ((begun s c).sendCmd (bits 0 15 c.p0) c.len d ok) := by
  have hexec : exec (.send c d ok) s = execSend c d ok s := rfl
  rw [hexec, execSend, s.command_of_wellFormed c 8 _ _ hfetch hread hop huse]

/-- TENANT that reads one register. -/
theorem exec_tenant (hop : c.op = 9) (huse : Command.unusedZero c { addr := true, p0 := 0xF013F, p1 := true } = true)
    (hcount : bits 16 4 c.p0 = 1) (hbit : bit 8 c.p0 = false) (halign : c.p1 % 4 = 0) :
    exec (.tenant c) s = .next ((begun s c).tenantRun c) := by
  have hexec : exec (.tenant c) s = execTenant c s := rfl
  rw [hexec, execTenant, s.command_of_wellFormed c 9 _ _ hfetch hread hop (by simp [hbit, hcount, halign, huse])]

theorem exec_fwWrite (d : List Byte) (ok : Bool) (hop : c.op = 10)
    (huse : Command.unusedZero c { addr := true, len := true, p0 := 0xFFFFFFFF } = true) :
    exec (.fwWrite c d ok) s = .next ((begun s c).fwWriteCmd c.p0 c.len d ok) := by
  have hexec : exec (.fwWrite c d ok) s = execFwWrite c d ok s := rfl
  rw [hexec, execFwWrite, s.command_of_wellFormed c 10 _ _ hfetch hread hop huse]

theorem exec_fwVerify (hop : c.op = 11) (huse : Command.unusedZero c {} = true) :
    exec (.fwVerify c) s = .next (begun s c).fwVerifyCmd := by
  have hexec : exec (.fwVerify c) s = execFwVerify c s := rfl
  rw [hexec, execFwVerify, s.command_of_wellFormed c 11 _ _ hfetch hread hop huse]

theorem exec_fwActivate (hop : c.op = 12) (huse : Command.unusedZero c {} = true) :
    exec (.fwActivate c) s = .next (begun s c).fwActivateCmd := by
  have hexec : exec (.fwActivate c) s = execFwActivate c s := rfl
  rw [hexec, execFwActivate, s.command_of_wellFormed c 12 _ _ hfetch hread hop huse]

theorem exec_fwErase (hop : c.op = 13) (huse : Command.unusedZero c {} = true) :
    exec (.fwErase c) s = .next (begun s c).fwEraseCmd := by
  have hexec : exec (.fwErase c) s = execFwErase c s := rfl
  rw [hexec, execFwErase, s.command_of_wellFormed c 13 _ _ hfetch hread hop huse]

end Exec

/-! ### The obligation -/

/-- Settles O51: each clause takes its command to the case of its meaning that the clause's hypotheses choose (`sendCmd_of_…` to
`fwActivateCmd_of_…`); what `State.Executing` says of the command while it runs gives what it waits for, or that it has ended. -/
theorem commandsOfFirmware : Obligations.CommandsOfFirmware := by
  unfold Obligations.CommandsOfFirmware
  intro s u c hfetch hread hu
  subst hu
  have hbegun := s.executing_begun c
  refine ⟨fun d ok hop huse => ?send, fun k n x hop huse hcount hbit halign hk hn hx => ?tenant, fun d ok hop huse => ?write,
    fun b n head hop huse hb hn hhead => ?verify, fun hop huse => ?activate, fun hop huse => ?erase⟩
  case send =>
    rw [exec_send hfetch hread d ok hop huse]
    refine ⟨fun hlong => ?_, fun hlen hok => ?_,
      fun hlen hok hheld => ⟨fun hdest => ?_, fun l hdest hl => ⟨fun hnone => ?_, fun hsome => ?_⟩⟩⟩
    · rw [(begun s c).sendCmd_of_long _ _ _ _ hlong]
    · rw [hok, (begun s c).sendCmd_of_unread _ _ _ hlen]
    · rw [hok, (begun s c).sendCmd_of_node _ _ _ hlen hdest]
      obtain ⟨hsent, h, hone, hid, hto⟩ := (hbegun.cmdWait _).sendToNode hheld (bits 0 15 c.p0) _ _
      exact ⟨_, h, rfl, hsent.waits, hone, hid, hto, hsent.links⟩
    · rw [hok, hdest, (begun s c).sendCmd_of_broadcast_nil _ _ hlen (hl.symm.trans hnone)]
    · rw [hl] at hsome
      rw [hok, hdest, (begun s c).sendCmd_of_broadcast _ _ hlen hsome, hl]
      obtain ⟨hsent, hdests⟩ := (hbegun.cmdWait _).sendToPorts hheld _ _ _ fun p hp => s.lt_of_mem_upPorts p (List.mem_filter.mp hp).1
      exact ⟨_, rfl, hsent.waits, hdests, hsent.links⟩
  case tenant =>
    rw [exec_tenant hfetch hread hop huse hcount hbit halign]
    subst hk hn hx
    refine ⟨fun hbudget hown => ?_, fun hon hover => ?_⟩
    · rw [(begun s c).tenantRun_of_budget c hcount hbit hbudget hown]
      have hsent := (hbegun.tenantCounted (bits 0 6 c.p0)).recorded
        (State.recorded_emit _ (.dmaWrite c.addr (leBytes 4 ((begun s c).rpRead c.p1))))
      exact ⟨_, rfl, hsent.ended 0 0, hsent.sent_cmdDone 0 0 List.mem_cons_self, hsent.skeins_cmdDone 0 0⟩
    · rw [(begun s c).tenantRun_of_overBudget c hcount hon hover]
      exact ⟨_, rfl, (hbegun.cmdWait _).waits, rfl, rfl⟩
  case write =>
    rw [exec_fwWrite hfetch hread d ok hop huse]
    refine ⟨fun hfw => ?_, fun hfw hbad => ?_, fun hfw hoff hlen hend hok => ?_⟩
    · rw [(begun s c).fwWriteCmd_of_busy _ _ _ _ hfw]
    · rw [(begun s c).fwWriteCmd_of_malformed _ _ _ _ hfw hbad]
    · rw [hok, (begun s c).fwWriteCmd_of_fits _ _ _ hfw hoff hlen hend]
      have hwritten := hbegun.modSec fun x => x.slotWrite (!x.slotB) c.p0 (sliceBytes d 0 c.len)
      refine ⟨_, rfl, hwritten.ended 0 0, ?_⟩
      rw [hwritten.sec_cmdDone]
      refine ⟨fun i hi => ?_, fun a ha => ?_, fun a => s.rp.sec.slotByte_slotWrite_other _ _ a _, s.rp.sec.slotWrite_slotB _ _ _,
        (s.rp.sec.slotWrite_fw _ _ _).trans hfw⟩
      · have hlt : i < (sliceBytes d 0 c.len).length := by rwa [length_sliceBytes]
        exact (s.rp.sec.slotByte_slotWrite_inside _ c.p0 i _ hlt).trans (getElem_sliceBytes_zero d c.len i hlt)
      · exact s.rp.sec.slotByte_slotWrite_outside _ c.p0 a _ (by rwa [length_sliceBytes])
  case verify =>
    rw [exec_fwVerify hfetch hread hop huse]
    have hcheck := (begun s c).fwCheck_ronpex b n head hb hn hhead
    split_ifs with himage hsign hsvn
    · rw [(begun s c).fwVerifyCmd_of_failed 3 (hcheck.trans (if_pos himage)) (by decide)]
    · rw [(begun s c).fwVerifyCmd_of_failed 5 (hcheck.trans ((if_neg himage).trans (if_pos hsign))) (by decide)]
    · rw [(begun s c).fwVerifyCmd_of_failed 6 (hcheck.trans ((if_neg himage).trans ((if_neg hsign).trans (if_pos hsvn)))) (by decide)]
    · have hpass := hcheck.trans ((if_neg himage).trans ((if_neg hsign).trans (if_neg hsvn)))
      refine ⟨fun hfw => ?_, fun hfw => ?_⟩
      · rw [(begun s c).fwVerifyCmd_of_staged hpass hfw]
      · have hstaged := hbegun.fwState 1
        rw [(begun s c).fwVerifyCmd_of_stable hpass hfw]
        exact ⟨_, rfl, hstaged.ended 0 0, (hstaged.sec_cmdDone 0 0).trans ((begun s c).fwState_sec 1)⟩
  case activate =>
    rw [exec_fwActivate hfetch hread hop huse]
    refine ⟨fun hfw => ?_, fun hfw => ?_⟩
    · rw [(begun s c).fwActivateCmd_of_unstaged hfw]
    · rw [(begun s c).fwActivateCmd_of_staged hfw]
      obtain ⟨hrestart, hsec⟩ := ((hbegun.cmdWait .activate).fwState 2).restartLayer1 true
      refine ⟨_, rfl, hrestart.waits, hrestart.links, ?_⟩
      rw [hsec, State.fwState_sec]
      rfl
  case erase =>
    rw [exec_fwErase hfetch hread hop huse]
    obtain ⟨hended, hsec⟩ := State.fwEraseCmd_of_executing hbegun
    refine ⟨_, rfl, hended, ?_⟩
    rw [hsec]
    exact ⟨s.rp.sec.slotByte_slotErase_same _, s.rp.sec.slotByte_slotErase_other _, rfl⟩

end Sys2Proof.Machine
end

section
/-! The block as a whole: a step, reset, and what is stored and read back. -/

namespace Sys2Proof.Machine

open Sys2Proof Sys2Proof.Claims

/-- Settles O56: both clauses are the two cases of `step`. -/
theorem stepRunsFront : Obligations.StepRunsFront := by
  unfold Obligations.StepRunsFront
  refine ⟨fun s c rest => rfl, fun s h => ?_⟩
  rw [step, h]

/-! ### Bytes of memory (R249) -/

theorem State.hbmRead_hbmWrite (s : State) (a : Nat) (d : List Byte) : (s.hbmWrite a d).hbmRead a d.length = d := by
  refine List.ext_getElem (by simp [State.hbmRead]) fun i _ hi => ?_
  simp only [State.hbmRead, List.getElem_map, List.getElem_range]
  exact memStore_inside s.hbm a d i hi

theorem State.hbmByte_hbmWrite_outside (s : State) (a b : Nat) (d : List Byte) (h : b < a ∨ a + d.length ≤ b) :
    (s.hbmWrite a d).hbmByte b = s.hbmByte b := by
  obtain h | h := h
  · exact memStore_below s.hbm a b d h
  · exact memStore_above s.hbm a b d h

theorem State.hbmByte_hbmZero (s : State) (a n b : Nat) :
    (s.hbmZero a n).hbmByte b = if a ≤ b ∧ b < a + n then 0 else s.hbmByte b := by
  have h := SMap.look_filter (fun _ => (0 : Byte)) s.hbm (fun k => decide (k < a) || decide (a + n ≤ k)) b
  refine h.trans ?_
  by_cases hin : a ≤ b ∧ b < a + n
  · rw [if_pos hin, if_neg (by simp; omega)]
  · rw [if_neg hin, if_pos (by simp; omega)]
    rfl

/-! ### Fields of registers (R12) -/

/-- A bit outside a replaced field is as it was. -/
theorem bit_setBits_outside (lo len v w j : Nat) (h : j < lo ∨ lo + len ≤ j) : bit j (setBits lo len v w) = bit j w := by
  rw [bit_eq_testBit, bit_eq_testBit, setBits_eq]
  obtain hlow | hhigh := h
  · rw [Nat.add_comm, Nat.testBit_two_pow_mul_add _ (Nat.mod_lt _ (Nat.two_pow_pos lo)), if_pos hlow, Nat.testBit_mod_two_pow]
    simp [hlow]
  · have hw : w / 2 ^ lo / 2 ^ len = w / 2 ^ (lo + len) := by rw [Nat.div_div_eq_div_mul, Nat.pow_add]
    rw [Nat.add_comm, Nat.testBit_two_pow_mul_add _ (Nat.mod_lt _ (Nat.two_pow_pos lo)), if_neg (by omega), Nat.add_comm,
      Nat.testBit_two_pow_mul_add _ (Nat.mod_lt _ (Nat.two_pow_pos len)), if_neg (by omega), hw, Nat.testBit_div_two_pow]
    congr 1
    omega

/-- A field within the low `n` bits leaves the word within them. -/
theorem setBits_lt (n lo len v w : Nat) (hlen : lo + len ≤ n) (hw : w < 2 ^ n) : setBits lo len v w < 2 ^ n := by
  refine Nat.lt_pow_two_of_testBit _ fun j hj => ?_
  rw [← bit_eq_testBit, bit_setBits_outside lo len v w j (.inr (by omega)), bit_eq_testBit]
  exact Nat.testBit_lt_two_pow (lt_of_lt_of_le hw (Nat.pow_le_pow_right (by decide) hj))

theorem State.reg_lt (s : State) (p : Part) (a : Nat) : s.reg p a < 2 ^ 32 := by
  cases p <;> exact BitVec.isLt _

/-- A register whose field was set holds the new word: no bit falls away where the field lies within the register. -/
theorem State.reg_setFld_same (s : State) (p : Part) (a lo len v : Nat) (h : lo + len ≤ 32) :
    (s.setFld p a lo len v).reg p a = setBits lo len v (s.reg p a) := by
  rw [State.setFld, State.reg_setReg_same, Nat.mod_eq_of_lt (setBits_lt 32 lo len v _ h (s.reg_lt p a))]

theorem State.fld_setFld_same (s : State) (p : Part) (a lo len v : Nat) (h : lo + len ≤ 32) :
    (s.setFld p a lo len v).fld p a lo len = v % 2 ^ len := by
  rw [State.fld, State.reg_setFld_same s p a lo len v h, bits_setBits_same]

theorem State.flag_setFld_outside (s : State) (p : Part) (a lo len v j : Nat) (h : lo + len ≤ 32) (hj : j < lo ∨ lo + len ≤ j) :
    (s.setFld p a lo len v).flag p a j = s.flag p a j := by
  rw [State.flag, State.reg_setFld_same s p a lo len v h, bit_setBits_outside lo len v _ j hj, State.flag]

/-- Settles O59: memory by `hbmRead_hbmWrite`, `hbmByte_hbmWrite_outside` and `hbmByte_hbmZero`, registers by `reg_setReg`, and fields by
`fld_setFld_same` and `flag_setFld_outside`. -/
theorem readAfterWrite : Obligations.ReadAfterWrite := by
  unfold Obligations.ReadAfterWrite
  refine ⟨fun s a d => ⟨s.hbmRead_hbmWrite a d, fun b => s.hbmByte_hbmWrite_outside a b d, s.memWf_hbmWrite a d, rfl⟩,
    fun s a n => ⟨s.hbmByte_hbmZero a n, s.memWf_hbmZero a n, rfl⟩, State.reg_setReg,
    fun s p a lo len v h => ⟨s.fld_setFld_same p a lo len v h, fun j => s.flag_setFld_outside p a lo len v j h, fun b hb => ?_⟩⟩
  exact s.reg_setFld_other p p a b lo len v (.inr fun hab => hb (by simp [hab]))

/-! ### Reset (R14, R275, R302, R303) -/

/-- Settles O58: no register is listed at reset, so each reads as its table's value; the states of skeins and ports are fields of these. -/
theorem resetState : Obligations.ResetState := by
  unfold Obligations.ResetState
  refine ⟨⟨memWf_reset, rfl, rfl⟩, rfl, rfl, fun a => rfl, fun a => rfl, ?_, ?_, ?_, ?_⟩
  · decide +kernel
  · decide +kernel
  · decide +kernel
  · decide +kernel

end Sys2Proof.Machine
end

section
/-! What every command keeps, operation by operation: hardly any changes fabric time, the queue, memory or the write queue of the
persistent store. One lemma for each operation that does not, in the order and under the names of the model's files. -/

namespace Sys2Proof.Machine
open Sys2Proof Sys2Proof.Claims

/-- What hardly any operation changes: fabric time, the queue, memory, and the write queue of the persistent store. -/
def State.kept (s : State) : Nat × List Instr × SMap Byte × List (Nat × Word) := (s.now, s.pending, s.hbm, s.rp.pst.queue)

@[simp] theorem State.kept_mk (s : State) (f : Nat) (o : List Out) (r : Ronpex) (e : Plocen) (h : r.pst.queue = s.rp.pst.queue) :
    State.kept { now := s.now, free := f, pending := s.pending, out := o, hbm := s.hbm, rp := r, ep := e } = s.kept := by
  simp [State.kept, h]

theorem State.kept_withRp (s : State) (r : Ronpex) (h : r.pst.queue = s.rp.pst.queue) : State.kept { s with rp := r } = s.kept :=
  State.kept_mk s _ _ r _ h

@[simp] theorem State.kept_ite (c : Prop) [Decidable c] (a b : State) : (if c then a else b).kept = if c then a.kept else b.kept := by
  split <;> rfl

@[simp] theorem State.kept_foldl {α : Type} (g : State → α → State) (h : ∀ t x, (g t x).kept = t.kept) (l : List α) (s : State) :
    (l.foldl g s).kept = s.kept := by
  induction l generalizing s with
  | nil => rfl
  | cons x r ih => rw [List.foldl_cons, ih, h]

/-! ### Machine/Ops -/

@[simp] theorem State.kept_setReg (s : State) (p : Part) (a v : Nat) : (s.setReg p a v).kept = s.kept := by
  cases p <;> rfl

@[simp] theorem State.kept_setFld (s : State) (p : Part) (a lo len v : Nat) : (s.setFld p a lo len v).kept = s.kept := by
  unfold State.setFld
  simp

@[simp] theorem State.kept_satFld (s : State) (p : Part) (a lo len n : Nat) : (s.satFld p a lo len n).kept = s.kept := by
  unfold State.satFld
  simp

@[simp] theorem State.kept_setFlag (s : State) (p : Part) (a i : Nat) (b : Bool) : (s.setFlag p a i b).kept = s.kept := by
  unfold State.setFlag
  simp

@[simp] theorem State.kept_addPair (s : State) (p : Part) (lo hi n : Nat) : (s.addPair p lo hi n).kept = s.kept := by
  unfold State.addPair
  simp

@[simp] theorem State.kept_setLink (s : State) (p : Part) (port : Nat) (l : Link) : (s.setLink p port l).kept = s.kept := by
  unfold State.setLink
  split <;> simp

@[simp] theorem State.kept_modLink (s : State) (p : Part) (port : Nat) (f : Link → Link) : (s.modLink p port f).kept = s.kept := by
  unfold State.modLink
  simp

@[simp] theorem State.kept_setSec (s : State) (p : Part) (x : Security) : (s.setSec p x).kept = s.kept := by
  unfold State.setSec
  split <;> simp

@[simp] theorem State.kept_setTimeSt (s : State) (p : Part) (t : TimeSt) : (s.setTimeSt p t).kept = s.kept := by
  unfold State.setTimeSt
  split <;> simp

@[simp] theorem State.kept_setOrders (s : State) (p : Part) (o : Orders) : (s.setOrders p o).kept = s.kept := by
  unfold State.setOrders
  split <;> simp

@[simp] theorem State.kept_setSource (s : State) (p : Part) (x : Source) : (s.setSource p x).kept = s.kept := by
  unfold State.setSource
  split <;> simp

@[simp] theorem State.kept_setDest (s : State) (p : Part) (x : Dest) : (s.setDest p x).kept = s.kept := by
  unfold State.setDest
  split <;> simp

@[simp] theorem State.kept_draw (s : State) : s.draw.2.kept = s.kept := by
  unfold State.draw
  simp

@[simp] theorem State.kept_emit (s : State) (o : Out) : (s.emit o).kept = s.kept := by
  unfold State.emit
  simp

@[simp] theorem State.kept_msix (s : State) (v : Nat) : (s.msix v).kept = s.kept := by
  unfold State.msix
  simp

@[simp] theorem State.kept_rpLog (s : State) (b : LogBody) : (s.rpLog b).kept = s.kept := by
  unfold State.rpLog
  simp

@[simp] theorem State.kept_rpCond (s : State) (code origin requester port skein addr old new : Nat) :
    (s.rpCond code origin requester port skein addr old new).kept = s.kept := by
  unfold State.rpCond
  simp

@[simp] theorem State.kept_evtWrite (s : State) (e : Event) : (s.evtWrite e).kept = s.kept := by
  unfold State.evtWrite
  simp

@[simp] theorem State.kept_evtOverflow (s : State) : s.evtOverflow.kept = s.kept := by
  unfold State.evtOverflow
  simp

@[simp] theorem State.kept_post (s : State) (e : Event) : (s.post e).kept = s.kept := by
  unfold State.post
  simp

@[simp] theorem State.kept_postFor (s : State) (e : Event) (scope : Nat) (skeins : List Nat) :
    (s.postFor e scope skeins).kept = s.kept := by
  unfold State.postFor
  simp

@[simp] theorem State.kept_pstCell (s : State) (a v : Nat) : (s.pstCell a v).kept = s.kept := by
  unfold State.pstCell
  simp

@[simp] theorem State.kept_genAdvance (s : State) (i : Nat) : ∀ t, s.genAdvance i = some t → t.kept = s.kept := by
  unfold State.genAdvance
  simp

@[simp] theorem State.kept_pstCount (s : State) (a lo len : Nat) : (s.pstCount a lo len).kept = s.kept := by
  unfold State.pstCount
  simp

@[simp] theorem State.kept_modUnits (s : State) (f : Units → Units) : (s.modUnits f).kept = s.kept := by
  unfold State.modUnits
  simp

@[simp] theorem State.kept_setUnit (s : State) (i cause qstep : Nat) : (s.setUnit i cause qstep).kept = s.kept := by
  unfold State.setUnit
  simp

@[simp] theorem State.kept_modFm (s : State) (f : Fmem → Fmem) : (s.modFm f).kept = s.kept := by
  unfold State.modFm
  simp

@[simp] theorem State.kept_sealLines (s : State) (lines : List Nat) : (s.sealLines lines).kept = s.kept := by
  unfold State.sealLines
  simp

/-! ### Machine/Route -/

@[simp] theorem State.kept_offer (s : State) (port : Nat) (x : EddyEnt) : (s.offer port x).kept = s.kept := by
  unfold State.offer
  simp

@[simp] theorem State.kept_modWarp (s : State) (f : Warp → Warp) : (s.modWarp f).kept = s.kept := by
  unfold State.modWarp
  simp

@[simp] theorem State.kept_logUnrouted (s : State) (p : Nat) (c : Container) : (s.logUnrouted p c).kept = s.kept := by
  unfold State.logUnrouted
  simp

@[simp] theorem State.kept_goHome (s : State) (c : Container) : (s.goHome c).kept = s.kept := by
  unfold State.goHome
  simp

@[simp] theorem State.kept_reflect (s : State) (x : EddyEnt) (noPath : Bool) : (s.reflect x noPath).kept = s.kept := by
  unfold State.reflect
  dsimp only
  repeat' split
  all_goals simp

@[simp] theorem State.kept_divert (s : State) (o : Nat) (x : EddyEnt) : (s.divert o x).kept = s.kept := by
  unfold State.divert
  dsimp only
  repeat' split
  all_goals simp

@[simp] theorem State.kept_toOutput (s : State) (r : Route) (x : EddyEnt) : (s.toOutput r x).kept = s.kept := by
  unfold State.toOutput
  repeat' split
  all_goals simp

/-! ### Machine/Send -/

@[simp] theorem State.kept_hold (s : State) (p : Part) (dest skein plane planes : Nat) (loc : HeldAt) (m : Msg) (own : Owner) :
    (s.hold p dest skein plane planes loc m own).1.kept = s.kept := by
  unfold State.hold
  simp

@[simp] theorem State.kept_rpSend (s : State) (h : Held) : (s.rpSend h).kept = s.kept := by
  unfold State.rpSend
  simp

@[simp] theorem State.kept_rpPush (s : State) : s.rpPush.kept = s.kept := by
  unfold State.rpPush
  simp

@[simp] theorem State.kept_rpMgmtPort (s : State) (port dest : Nat) (m : Mgmt) (own : Owner) :
    (s.rpMgmtPort port dest m own).kept = s.kept := by
  unfold State.rpMgmtPort
  simp

@[simp] theorem State.kept_rpMgmtNode (s : State) (dest : Nat) (m : Mgmt) (own : Owner) : (s.rpMgmtNode dest m own).kept = s.kept := by
  unfold State.rpMgmtNode
  simp

@[simp] theorem State.kept_relaySend (s : State) (m node hank skein value : Nat) :
    (s.relaySend m node hank skein value).kept = s.kept := by
  unfold State.relaySend
  simp

@[simp] theorem State.kept_epMgmt (s : State) (plane : Nat) (m : Mgmt) : (s.epMgmt plane m).kept = s.kept := by
  unfold State.epMgmt
  simp

@[simp] theorem State.kept_epMgmtLowest (s : State) (m : Mgmt) : (s.epMgmtLowest m).kept = s.kept := by
  unfold State.epMgmtLowest
  split <;> simp

@[simp] theorem State.kept_epLog (s : State) (b : LogBody) : (s.epLog b).kept = s.kept := by
  unfold State.epLog
  simp

@[simp] theorem State.kept_epCond (s : State) (code origin requester port skein addr old new : Nat) :
    (s.epCond code origin requester port skein addr old new).kept = s.kept := by
  unfold State.epCond
  simp

@[simp] theorem State.kept_plog (s : State) (p : Part) (b : LogBody) : (s.plog p b).kept = s.kept := by
  unfold State.plog
  split <;> simp

@[simp] theorem State.kept_pcond (s : State) (p : Part) (code origin requester port skein addr old new : Nat) :
    (s.pcond p code origin requester port skein addr old new).kept = s.kept := by
  unfold State.pcond
  simp

@[simp] theorem State.kept_logWrite (s : State) (p : Part) (a v : Nat) (w : Writer) : (s.logWrite p a v w).kept = s.kept := by
  unfold State.logWrite
  simp

@[simp] theorem State.kept_wrote (s : State) (p : Part) (a v : Nat) (w : Writer) (f : State → State) (h : ∀ t, (f t).kept = t.kept) :
    (s.wrote p a v w f).kept = s.kept := by
  unfold State.wrote
  simp [h]

/-! ### Machine/Flags -/

@[simp] theorem State.kept_modAtt (s : State) (f : Attach → Attach) : (s.modAtt f).kept = s.kept := by
  unfold State.modAtt
  simp

@[simp] theorem State.kept_viaAttach (s : State) (f : State → State) (h : ∀ t, (f t).kept = t.kept) : (s.viaAttach f).kept = s.kept := by
  unfold State.viaAttach
  simp [h]

@[simp] theorem State.kept_sendFlit (s : State) (kind seq : Nat) (body : List (BitVec 128)) :
    (s.sendFlit kind seq body).kept = s.kept := by
  unfold State.sendFlit
  simp

@[simp] theorem State.kept_sendControl (s : State) (subtype : Nat) (params : List Byte) :
    (s.sendControl subtype params).kept = s.kept := by
  unfold State.sendControl
  simp

@[simp] theorem State.kept_idleFlit (s : State) : s.idleFlit.kept = s.kept := by
  unfold State.idleFlit
  simp

@[simp] theorem State.kept_sendChunks (n : Nat) (x : List (BitVec 128)) (s : State) : (s.sendChunks n x).kept = s.kept := by
  induction n generalizing x s with
  | zero => rfl
  | succ n ih =>
    unfold State.sendChunks
    repeat' (first | split | dsimp only)
    all_goals simp [ih]

@[simp] theorem State.kept_sendTxn (s : State) (t : Txn) : (s.sendTxn t).kept = s.kept := by
  unfold State.sendTxn
  simp

@[simp] theorem State.kept_pumpCpl (n : Nat) (s : State) : (s.pumpCpl n).kept = s.kept := by
  induction n generalizing s with
  | zero => rfl
  | succ n ih =>
    unfold State.pumpCpl
    repeat' (first | split | dsimp only)
    all_goals simp [ih]

@[simp] theorem State.kept_complete (s : State) (rid tag addr status len : Nat) (data : List Byte) :
    (s.complete rid tag addr status len data).kept = s.kept := by
  unfold State.complete
  simp

@[simp] theorem State.kept_pump (n : Nat) (s : State) : (s.pump n).kept = s.kept := by
  induction n generalizing s with
  | zero => rfl
  | succ n ih =>
    unfold State.pump
    repeat' (first | split | dsimp only)
    all_goals simp [ih]

@[simp] theorem State.kept_request (s : State) (l : List AttReq) : (s.request l).kept = s.kept := by
  unfold State.request
  simp

@[simp] theorem State.kept_modDest (s : State) (f : Dest → Dest) : (s.modDest f).kept = s.kept := by
  unfold State.modDest
  simp

@[simp] theorem State.kept_landWrites (s : State) (l : List AttReq) : (s.landWrites l).kept = s.kept := by
  unfold State.landWrites
  simp

@[simp] theorem State.kept_releaseLands (s : State) : s.releaseLands.kept = s.kept := by
  unfold State.releaseLands
  simp

@[simp] theorem State.kept_rxLink (s : State) (p : Part) (port : Nat) (l1 : Link) : (s.rxLink p port l1).kept = s.kept := by
  unfold State.rxLink
  split <;> simp

@[simp] theorem State.kept_rxBlock (s : State) (p : Part) (port : Nat) (b : Block) : (s.rxBlock p port b).kept = s.kept := by
  unfold State.rxBlock
  simp

@[simp] theorem State.kept_epErr (s : State) (b : Nat) : (s.epErr b).kept = s.kept := by
  unfold State.epErr
  simp

@[simp] theorem State.kept_epOptError (s : State) (b : Nat) : (s.epOptError b).kept = s.kept := by
  unfold State.epOptError
  simp

@[simp] theorem State.kept_errsumMsix (s before : State) : (s.errsumMsix before).kept = s.kept := by
  unfold State.errsumMsix
  simp

@[simp] theorem State.kept_secError (s : State) (p : Part) (b port : Nat) : (s.secError p b port).kept = s.kept := by
  unfold State.secError
  split <;> simp

@[simp] theorem State.kept_fmhError (s : State) (b offset scope : Nat) (skeins : List Nat) :
    (s.fmhError b offset scope skeins).kept = s.kept := by
  unfold State.fmhError
  simp

/-! ### Machine/OrderOps -/

@[simp] theorem State.kept_modTray (s : State) (f : Tray → Tray) : (s.modTray f).kept = s.kept := by
  unfold State.modTray
  simp

@[simp] theorem State.kept_trayOut (s : State) (port : Nat) (f : TrayFrame) : (s.trayOut port f).kept = s.kept := by
  unfold State.trayOut
  simp

@[simp] theorem State.kept_trayMgmt (s : State) (m : Mgmt) : (s.trayMgmt m).kept = s.kept := by
  unfold State.trayMgmt
  simp

@[simp] theorem State.kept_toEndPoint (s : State) (p : Nat) (m : Mgmt) : (s.toEndPoint p m).kept = s.kept := by
  unfold State.toEndPoint
  simp

@[simp] theorem State.kept_toFarEnd (s : State) (p : Nat) (m : Mgmt) : (s.toFarEnd p m).kept = s.kept := by
  unfold State.toFarEnd
  repeat' split
  all_goals simp

@[simp] theorem State.kept_orderToMembers (s : State) (o : SwitchOrder) : (s.orderToMembers o).kept = s.kept := by
  unfold State.orderToMembers
  simp

@[simp] theorem State.kept_issueOrder (s : State) (o : SwitchOrder) : (s.issueOrder o).kept = s.kept := by
  unfold State.issueOrder
  simp

@[simp] theorem State.kept_unitEvent (s : State) (i : Nat) : (s.unitEvent i).kept = s.kept := by
  unfold State.unitEvent
  simp

@[simp] theorem State.kept_showUnits (s : State) (quiet : Bool) (l : List Nat) : (s.showUnits quiet l).kept = s.kept := by
  unfold State.showUnits
  simp

@[simp] theorem State.kept_spdError (s : State) (n b skein : Nat) : (s.spdError n b skein).kept = s.kept := by
  unfold State.spdError
  simp

@[simp] theorem State.kept_setTally (s : State) (ph : Nat) (t : Tally) : (s.setTally ph t).kept = s.kept := by
  unfold State.setTally
  simp

@[simp] theorem State.kept_addTally (s : State) (ph status inst round skein : Nat) :
    (s.addTally ph status inst round skein).kept = s.kept := by
  unfold State.addTally
  simp

@[simp] theorem State.kept_tallyPorts (s : State) (ph : Nat) (l : List Nat) (ok : Bool) : (s.tallyPorts ph l ok).kept = s.kept := by
  unfold State.tallyPorts
  simp

@[simp] theorem State.kept_tallyLost (s : State) (ph : Nat) (l : List Nat) : (s.tallyLost ph l).kept = s.kept := by
  unfold State.tallyLost
  simp

@[simp] theorem State.kept_loseGroup (s : State) (n : Nat) (r : PhaseRec) (ph : Nat) : (s.loseGroup n r ph).kept = s.kept := by
  unfold State.loseGroup
  simp

@[simp] theorem State.kept_loseContexts (s : State) (n : Nat) : (s.loseContexts n).kept = s.kept := by
  unfold State.loseContexts
  simp

@[simp] theorem State.kept_classOrder (s : State) (c unitType unit gen : Nat) : (s.classOrder c unitType unit gen).kept = s.kept := by
  unfold State.classOrder
  simp

@[simp] theorem State.kept_spindleOrder (s : State) (n : Nat) : (s.spindleOrder n).kept = s.kept := by
  unfold State.spindleOrder
  dsimp only
  repeat' split
  all_goals simp

@[simp] theorem State.kept_modSk (s : State) (f : Skeins → Skeins) : (s.modSk f).kept = s.kept := by
  unfold State.modSk
  simp

@[simp] theorem State.kept_sendAssign (s : State) (port : Nat) : (s.sendAssign port).kept = s.kept := by
  unfold State.sendAssign
  simp

@[simp] theorem State.kept_sendSlots (s : State) : s.sendSlots.kept = s.kept := by
  unfold State.sendSlots
  simp

/-! ### Machine/CmdOps -/

@[simp] theorem State.kept_modMgmt (s : State) (f : MgmtRings → MgmtRings) : (s.modMgmt f).kept = s.kept := by
  unfold State.modMgmt
  simp

@[simp] theorem State.kept_cmdEvent (s : State) (r : Running) (status detail : Nat) : (s.cmdEvent r status detail).kept = s.kept := by
  unfold State.cmdEvent
  simp

@[simp] theorem State.kept_cmdNext (s : State) : s.cmdNext.kept = s.kept := by
  unfold State.cmdNext
  simp

@[simp] theorem State.kept_cmdDone (s : State) (status detail : Nat) : (s.cmdDone status detail).kept = s.kept := by
  unfold State.cmdDone
  split <;> simp

@[simp] theorem State.kept_cmdWaited (s : State) (w : CmdWait) (status detail : Nat) : (s.cmdWaited w status detail).kept = s.kept := by
  unfold State.cmdWaited
  simp

@[simp] theorem State.kept_sendOver (s : State) (id : Nat) (lost : Bool) : (s.sendOver id lost).kept = s.kept := by
  unfold State.sendOver
  split <;> simp

@[simp] theorem State.kept_sendReport (s : State) (r : Report) : (s.sendReport r).kept = s.kept := by
  unfold State.sendReport
  simp

@[simp] theorem State.kept_report (s : State) (type target plane : Nat) : (s.report type target plane).kept = s.kept := by
  unfold State.report
  dsimp only
  split <;> simp

@[simp] theorem State.kept_reportWindow (s : State) (type target : Nat) : (s.reportWindow type target).kept = s.kept := by
  unfold State.reportWindow
  split <;> simp

/-! ### Machine/RingOps -/

@[simp] theorem State.kept_modRing (s : State) (n : Nat) (f : Ring → Ring) : (s.modRing n f).kept = s.kept := by
  unfold State.modRing
  simp

@[simp] theorem State.kept_ringError (s : State) (n code : Nat) : (s.ringError n code).kept = s.kept := by
  unfold State.ringError
  simp

@[simp] theorem State.kept_fetchFrom (n : Nat) (s : State) (x : Nat) : (s.fetchFrom n x).kept = s.kept := by
  induction n generalizing s x with
  | zero => rfl
  | succ n ih =>
    unfold State.fetchFrom
    repeat' (first | split | dsimp only)
    all_goals simp [ih]

@[simp] theorem State.kept_fetchRing (s : State) (n : Nat) : (s.fetchRing n).kept = s.kept := by
  unfold State.fetchRing
  simp

@[simp] theorem State.kept_ringIntr (s : State) (n : Nat) : (s.ringIntr n).kept = s.kept := by
  unfold State.ringIntr
  dsimp only
  split <;> simp

@[simp] theorem State.kept_postCompletion (s : State) (n sub code info cookie : Nat) :
    (s.postCompletion n sub code info cookie).kept = s.kept := by
  unfold State.postCompletion
  simp

@[simp] theorem State.kept_completionDone (s : State) (n at_ : Nat) (ok : Bool) : (s.completionDone n at_ ok).kept = s.kept := by
  unfold State.completionDone
  simp

@[simp] theorem State.kept_modAct (s : State) (n sub : Nat) (f : Act → Act) : (s.modAct n sub f).kept = s.kept := by
  unfold State.modAct
  simp

@[simp] theorem State.kept_dropFront (s : State) (n : Nat) : (s.dropFront n).kept = s.kept := by
  unfold State.dropFront
  simp

@[simp] theorem State.kept_settleFront (n : Nat) (s : State) (x : Nat) : (s.settleFront n x).kept = s.kept := by
  induction n generalizing s x with
  | zero => rfl
  | succ n ih =>
    unfold State.settleFront
    repeat' (first | split | dsimp only)
    all_goals simp [ih]

@[simp] theorem State.kept_settleRing (s : State) (n : Nat) : (s.settleRing n).kept = s.kept := by
  unfold State.settleRing
  simp

@[simp] theorem State.kept_takeArrived (n : Nat) (s : State) (x : Nat) : (s.takeArrived n x).kept = s.kept := by
  induction n generalizing s x with
  | zero => rfl
  | succ n ih =>
    unfold State.takeArrived
    repeat' (first | split | dsimp only)
    all_goals simp [ih]

@[simp] theorem State.kept_ringFetched (s : State) (n first m : Nat) (data : List Byte) (ok : Bool) :
    (s.ringFetched n first m data ok).kept = s.kept := by
  unfold State.ringFetched
  simp

@[simp] theorem State.kept_failAct (s : State) (n sub code info : Nat) : (s.failAct n sub code info).kept = s.kept := by
  unfold State.failAct
  split <;> simp

@[simp] theorem State.kept_settleAct (s : State) (n sub : Nat) : (s.settleAct n sub).kept = s.kept := by
  unfold State.settleAct
  split <;> simp

@[simp] theorem State.kept_partDone (s : State) (n sub : Nat) : (s.partDone n sub).kept = s.kept := by
  unfold State.partDone
  simp

@[simp] theorem State.kept_partFailed (s : State) (n sub code info : Nat) : (s.partFailed n sub code info).kept = s.kept := by
  unfold State.partFailed
  simp

@[simp] theorem State.kept_setHank (s : State) (i v : Nat) : (s.setHank i v).kept = s.kept := by
  unfold State.setHank
  simp

@[simp] theorem State.kept_countHank (s : State) (i n : Nat) : (s.countHank i n).kept = s.kept := by
  unfold State.countHank
  simp

@[simp] theorem State.kept_settleFences (s : State) : s.settleFences.kept = s.kept := by
  unfold State.settleFences
  simp

@[simp] theorem State.kept_storeDone (s : State) (id : Nat) (lost : Bool) : (s.storeDone id lost).kept = s.kept := by
  unfold State.storeDone
  simp

@[simp] theorem State.kept_loadDone (s : State) (id status : Nat) (data : List Byte) : (s.loadDone id status data).kept = s.kept := by
  unfold State.loadDone
  split <;> simp

/-! ### Machine/EpWarpOps -/

@[simp] theorem State.kept_modEw (s : State) (f : EpWarp → EpWarp) : (s.modEw f).kept = s.kept := by
  unfold State.modEw
  simp

@[simp] theorem State.kept_modBind (s : State) (id : Nat) (f : Binding → Binding) : (s.modBind id f).kept = s.kept := by
  unfold State.modBind
  simp

@[simp] theorem State.kept_settleBind (s : State) (id : Nat) : (s.settleBind id).kept = s.kept := by
  unfold State.settleBind
  repeat' split
  all_goals simp

@[simp] theorem State.kept_endBind (s : State) (id code info : Nat) : (s.endBind id code info).kept = s.kept := by
  unfold State.endBind
  simp

@[simp] theorem State.kept_modRun (s : State) (pat : Nat) (f : Run → Run) : (s.modRun pat f).kept = s.kept := by
  unfold State.modRun
  simp

@[simp] theorem State.kept_checkBind (s : State) (id : Nat) : (s.checkBind id).kept = s.kept := by
  unfold State.checkBind
  split <;> simp

@[simp] theorem State.kept_endInstance (s : State) (pat ph : Nat) : (s.endInstance pat ph).kept = s.kept := by
  unfold State.endInstance
  split <;> simp

@[simp] theorem State.kept_readCells (s : State) (b : Binding) (plane slice round : Nat) :
    (s.readCells b plane slice round).kept = s.kept := by
  unfold State.readCells
  simp

@[simp] theorem State.kept_readRun (s : State) (pat : Nat) : (s.readRun pat).kept = s.kept := by
  unfold State.readRun
  split <;> simp

@[simp] theorem State.kept_contribDone (s : State) (bind ph round slice cell off : Nat) (data : List Byte) (ok : Bool) :
    (s.contribDone bind ph round slice cell off data ok).kept = s.kept := by
  unfold State.contribDone
  simp

@[simp] theorem State.kept_goRun (s : State) (pat inst plane : Nat) : (s.goRun pat inst plane).kept = s.kept := by
  unfold State.goRun
  dsimp only
  repeat' split
  all_goals simp

@[simp] theorem State.kept_landCell (s : State) (sl : Nat) (b : Binding) (ph slice round cell : Nat) (payload : List Byte) :
    (s.landCell sl b ph slice round cell payload).kept = s.kept := by
  unfold State.landCell
  simp

@[simp] theorem State.kept_warpLanded (s : State) (id : Nat) (ok : Bool) : (s.warpLanded id ok).kept = s.kept := by
  unfold State.warpLanded
  repeat' split
  all_goals simp

@[simp] theorem State.kept_shadowRead (s : State) (plane addr n : Nat) (own : Owner) : (s.shadowRead plane addr n own).kept = s.kept := by
  unfold State.shadowRead
  dsimp only
  split <;> simp

@[simp] theorem State.kept_shadowFetch (s : State) (r : Run) (plane slice round : Nat) :
    (s.shadowFetch r plane slice round).kept = s.kept := by
  unfold State.shadowFetch
  refine State.kept_foldl _ (fun t q => ?_) _ _
  split
  · rfl
  · simp


@[simp] theorem State.kept_shadowCells (s : State) (b : Binding) (plane inst ph slice round : Nat) :
    (s.shadowCells b plane inst ph slice round).kept = s.kept := by
  unfold State.shadowCells
  simp

@[simp] theorem State.kept_rerun (s : State) (pat plane slice round : Nat) : (s.rerun pat plane slice round).kept = s.kept := by
  unfold State.rerun
  split <;> simp

@[simp] theorem State.kept_shadowData (s : State) (bind plane ph slice round cell : Nat) (tally : Bool) (data : List Byte) :
    (s.shadowData bind plane ph slice round cell tally data).kept = s.kept := by
  unfold State.shadowData
  repeat' split
  all_goals simp

@[simp] theorem State.kept_closeRun (s : State) (f pat : Nat) : (s.closeRun f pat).kept = s.kept := by
  unfold State.closeRun
  split <;> simp

@[simp] theorem State.kept_openRun (s : State) (f pat : Nat) : (s.openRun f pat).kept = s.kept := by
  unfold State.openRun
  split <;> simp

@[simp] theorem State.kept_closeRuns (s : State) : s.closeRuns.kept = s.kept := by
  unfold State.closeRuns
  simp

@[simp] theorem State.kept_openRuns (s : State) : s.openRuns.kept = s.kept := by
  unfold State.openRuns
  simp

@[simp] theorem State.kept_noteFailed (s : State) (j n ph : Nat) : (s.noteFailed j n ph).kept = s.kept := by
  unfold State.noteFailed
  repeat' split
  all_goals simp

@[simp] theorem State.kept_noteLate (s : State) (j ph : Nat) : (s.noteLate j ph).kept = s.kept := by
  unfold State.noteLate
  dsimp only
  split <;> simp

/-! ### Machine/XltOps -/

@[simp] theorem State.kept_modXlt (s : State) (f : Xlt → Xlt) : (s.modXlt f).kept = s.kept := by
  unfold State.modXlt
  simp

@[simp] theorem State.kept_modShuttle (s : State) (k : Nat) (f : Shuttle → Shuttle) : (s.modShuttle k f).kept = s.kept := by
  unfold State.modShuttle
  simp

@[simp] theorem State.kept_setMicro (s : State) (m : Nat) (l : List OutExt) : (s.setMicro m l).kept = s.kept := by
  unfold State.setMicro
  simp

@[simp] theorem State.kept_intoMicro (s : State) (m : Nat) (e : OutExt) : (s.intoMicro m e).kept = s.kept := by
  unfold State.intoMicro
  simp

@[simp] theorem State.kept_lookupOut (s : State) (m tag va kind : Nat) : (s.lookupOut m tag va kind).2.kept = s.kept := by
  unfold State.lookupOut
  repeat' split
  all_goals simp

@[simp] theorem State.kept_writeMiss (s : State) (r : MissRec) : (s.writeMiss r).kept = s.kept := by
  unfold State.writeMiss
  simp

@[simp] theorem State.kept_postMiss (s : State) (r : MissRec) : (s.postMiss r).kept = s.kept := by
  unfold State.postMiss
  simp

@[simp] theorem State.kept_postHeld (n : Nat) (s : State) : (s.postHeld n).kept = s.kept := by
  induction n generalizing s with
  | zero => rfl
  | succ n ih =>
    unfold State.postHeld
    repeat' (first | split | dsimp only)
    all_goals simp [ih]

@[simp] theorem State.kept_missIntr (s : State) : s.missIntr.kept = s.kept := by
  unfold State.missIntr
  simp

@[simp] theorem State.kept_missDone (s : State) (c : Nat) (ok : Bool) : (s.missDone c ok).kept = s.kept := by
  unfold State.missDone
  split <;> simp

@[simp] theorem State.kept_rewriteMisses (s : State) : s.rewriteMisses.kept = s.kept := by
  unfold State.rewriteMisses
  simp

@[simp] theorem State.kept_postAnswer (s : State) (type tag fill info : Nat) : (s.postAnswer type tag fill info).kept = s.kept := by
  unfold State.postAnswer
  simp

@[simp] theorem State.kept_newMiss (s : State) (fault : Bool) (tag va kind unit ring sub info : Nat) (direct : List DMiss) :
    (s.newMiss fault tag va kind unit ring sub info direct).1.kept = s.kept := by
  unfold State.newMiss
  simp

@[simp] theorem State.kept_stall (s : State) (k : Nat) (fault : Option OutExt) (tag va kind ring sub : Nat) :
    (s.stall k fault tag va kind ring sub).kept = s.kept := by
  unfold State.stall
  dsimp only
  repeat' split
  all_goals simp

@[simp] theorem State.kept_dropDirect (s : State) (d : DMiss) : (s.dropDirect d).kept = s.kept := by
  unfold State.dropDirect
  simp

@[simp] theorem State.kept_directMiss (s : State) (fault : Option OutExt) (tag va kind : Nat) (d : DMiss) :
    (s.directMiss fault tag va kind d).kept = s.kept := by
  unfold State.directMiss
  dsimp only
  repeat' split
  all_goals simp

@[simp] theorem State.kept_endMiss (s : State) (id : Nat) : (s.endMiss id).kept = s.kept := by
  unfold State.endMiss
  split
  · rfl
  · dsimp only
    rw [State.kept_foldl _ fun t d => by simp, State.kept_foldl _ fun t k => ?_, State.kept_modXlt]
    split
    · split <;> simp
    · rfl


/-! ### Machine/WeftAnswer -/

@[simp] theorem State.kept_modSource (s : State) (p : Part) (f : Source → Source) : (s.modSource p f).kept = s.kept := by
  unfold State.modSource
  simp

@[simp] theorem State.kept_modHeld (s : State) (p : Part) (id : Nat) (f : Held → Held) : (s.modHeld p id f).kept = s.kept := by
  unfold State.modHeld
  simp

@[simp] theorem State.kept_takeWin (s : State) (p : Part) (node plane win : Nat) : (s.takeWin p node plane win).kept = s.kept := by
  unfold State.takeWin
  simp

@[simp] theorem State.kept_unqueue (s : State) (plane id : Nat) : (s.unqueue plane id).kept = s.kept := by
  unfold State.unqueue
  simp

@[simp] theorem State.kept_dropHeld (s : State) (p : Part) (h : Held) : (s.dropHeld p h).kept = s.kept := by
  unfold State.dropHeld
  simp

@[simp] theorem State.kept_relayLost (s : State) (m : Nat) : (s.relayLost m).kept = s.kept := by
  unfold State.relayLost
  simp

@[simp] theorem State.kept_shadowLost (s : State) (bind plane slice round : Nat) :
    (s.shadowLost bind plane slice round).kept = s.kept := by
  unfold State.shadowLost
  split <;> simp

@[simp] theorem State.kept_messageLost (s : State) (p : Part) (h : Held) (x : SentMsg) (code info : Nat) :
    (s.messageLost p h x code info).kept = s.kept := by
  unfold State.messageLost
  split <;> simp

@[simp] theorem State.kept_endHeld (s : State) (p : Part) (id code : Nat) : (s.endHeld p id code).kept = s.kept := by
  unfold State.endHeld
  split <;> simp

@[simp] theorem State.kept_land (s : State) (x : SentMsg) (data : List Byte) : (s.land x data).kept = s.kept := by
  unfold State.land
  simp

@[simp] theorem State.kept_deliver (s : State) (p : Part) (h : Held) (x : SentMsg) (data : List Byte) :
    (s.deliver p h x data).kept = s.kept := by
  unfold State.deliver
  repeat' split
  all_goals simp

@[simp] theorem State.kept_answer (s : State) (p : Part) (id i : Nat) (data : List Byte) : (s.answer p id i data).kept = s.kept := by
  unfold State.answer
  repeat' split
  all_goals simp

@[simp] theorem State.kept_takeReply (s : State) (p : Part) (c : Container) (m : Msg) : (s.takeReply p c m).kept = s.kept := by
  unfold State.takeReply
  dsimp only
  split <;> simp

@[simp] theorem State.kept_landDone (s : State) (id : Nat) (ok : Bool) : (s.landDone id ok).kept = s.kept := by
  unfold State.landDone
  repeat' split
  all_goals simp

@[simp] theorem State.kept_replane (s : State) (id : Nat) : (s.replane id).kept = s.kept := by
  unfold State.replane
  repeat' split
  all_goals simp

@[simp] theorem State.kept_requeue (s : State) (h : Held) : (s.requeue h).kept = s.kept := by
  unfold State.requeue
  simp

@[simp] theorem State.kept_resend (s : State) (p : Part) (id : Nat) : (s.resend p id).kept = s.kept := by
  unfold State.resend
  repeat' split
  all_goals simp

@[simp] theorem State.kept_reflected (s : State) (p : Part) (c : Container) (plane : Nat) : (s.reflected p c plane).kept = s.kept := by
  unfold State.reflected
  dsimp only
  split <;> simp

@[simp] theorem State.kept_backoffEnd (s : State) (p : Part) (id : Nat) : (s.backoffEnd p id).kept = s.kept := by
  unfold State.backoffEnd
  repeat' split
  all_goals simp

@[simp] theorem State.kept_retryTimer (s : State) (p : Part) (id : Nat) : (s.retryTimer p id).kept = s.kept := by
  unfold State.retryTimer
  split <;> simp

@[simp] theorem State.kept_lifeTimer (s : State) (p : Part) (id : Nat) : (s.lifeTimer p id).kept = s.kept := by
  unfold State.lifeTimer
  split <;> simp

@[simp] theorem State.kept_pathLost (s : State) (plane tL : Nat) : (s.pathLost plane tL).kept = s.kept := by
  unfold State.pathLost
  simp

@[simp] theorem State.kept_resendPlane (s : State) (plane : Nat) : (s.resendPlane plane).kept = s.kept := by
  unfold State.resendPlane
  simp

/-! ### Machine/EpOrders -/

@[simp] theorem State.kept_relayOthers (s : State) (plane : Nat) (m : Mgmt) : (s.relayOthers plane m).kept = s.kept := by
  unfold State.relayOthers
  simp

@[simp] theorem State.kept_epOrderIn (s : State) (plane : Nat) (o : SwitchOrder) : (s.epOrderIn plane o).kept = s.kept := by
  unfold State.epOrderIn
  simp

@[simp] theorem State.kept_epPlaneOut (s : State) (plane : Nat) : (s.epPlaneOut plane).kept = s.kept := by
  unfold State.epPlaneOut
  simp

@[simp] theorem State.kept_epOrderApply (s : State) (o : SwitchOrder) : (s.epOrderApply o).kept = s.kept := by
  unfold State.epOrderApply
  simp

@[simp] theorem State.kept_epOrdersDue (s : State) : s.epOrdersDue.kept = s.kept := by
  unfold State.epOrdersDue
  simp

@[simp] theorem State.kept_epDraftOn (s : State) (slot : Nat) : (s.epDraftOn slot).kept = s.kept := by
  unfold State.epDraftOn
  simp

@[simp] theorem State.kept_epDraftOff (s : State) : s.epDraftOff.kept = s.kept := by
  unfold State.epDraftOff
  simp

@[simp] theorem State.kept_epActivate (s : State) : s.epActivate.kept = s.kept := by
  unfold State.epActivate
  dsimp only
  repeat' split
  all_goals simp

@[simp] theorem State.kept_epEpochIn (s : State) (plane e eff : Nat) : (s.epEpochIn plane e eff).kept = s.kept := by
  unfold State.epEpochIn
  simp

@[simp] theorem State.kept_epEpochApply (s : State) (e : Nat) : (s.epEpochApply e).kept = s.kept := by
  unfold State.epEpochApply
  simp

@[simp] theorem State.kept_snapEvent (s : State) (p : Part) (number missed : Nat) : (s.snapEvent p number missed).kept = s.kept := by
  unfold State.snapEvent
  split <;> simp

@[simp] theorem State.kept_snapIn (s : State) (p : Part) (t number : Nat) (skeins : BitVec 64) :
    (s.snapIn p t number skeins).kept = s.kept := by
  unfold State.snapIn
  simp

@[simp] theorem State.kept_snapCapture (s : State) (p : Part) : (s.snapCapture p).kept = s.kept := by
  unfold State.snapCapture
  dsimp only
  split <;> simp

@[simp] theorem State.kept_destroyEpKey (s : State) (kind : Nat) : (s.destroyEpKey kind).kept = s.kept := by
  unfold State.destroyEpKey
  simp

@[simp] theorem State.kept_epAssign (s : State) (plane skein : Nat) (isSealed : Bool) (slots epoch node : Nat) :
    (s.epAssign plane skein isSealed slots epoch node).kept = s.kept := by
  unfold State.epAssign
  simp

@[simp] theorem State.kept_epRelease (s : State) (port gen : Nat) : (s.epRelease port gen).kept = s.kept := by
  unfold State.epRelease
  simp

@[simp] theorem State.kept_mgmtRefused (s : State) (p : Part) (port node mtype : Nat) :
    (s.mgmtRefused p port node mtype).kept = s.kept := by
  unfold State.mgmtRefused
  simp

@[simp] theorem State.kept_epMgmtIn (s : State) (plane node : Nat) (m : Mgmt) : (s.epMgmtIn plane node m).kept = s.kept := by
  unfold State.epMgmtIn
  repeat' split
  all_goals simp

/-! ### Machine/RpOrders -/

@[simp] theorem State.kept_rpOrderIn (s : State) (src : MgmtSource) (o : SwitchOrder) : (s.rpOrderIn src o).kept = s.kept := by
  unfold State.rpOrderIn
  split <;> simp

@[simp] theorem State.kept_applyPairs (s : State) (l : List (Nat × Nat × Nat)) : (s.applyPairs l).kept = s.kept := by
  unfold State.applyPairs
  simp

@[simp] theorem State.kept_loadMaps (s : State) : s.loadMaps.kept = s.kept := by
  unfold State.loadMaps
  simp

@[simp] theorem State.kept_powerEvent (s : State) : s.powerEvent.kept = s.kept := by
  unfold State.powerEvent
  simp

@[simp] theorem State.kept_powerAlt (s : State) (on : Bool) : (s.powerAlt on).kept = s.kept := by
  unfold State.powerAlt
  simp

@[simp] theorem State.kept_rpOrderApply (s : State) (o : SwitchOrder) : (s.rpOrderApply o).kept = s.kept := by
  unfold State.rpOrderApply
  dsimp only
  rw [State.kept_postFor]
  split
  · exact (State.kept_withRp _ _ rfl).trans (by simp)
  · split
    · simp
    · split <;> simp


@[simp] theorem State.kept_rpOrdersDue (s : State) : s.rpOrdersDue.kept = s.kept := by
  unfold State.rpOrdersDue
  simp

@[simp] theorem State.kept_toAllPorts (s : State) (m : Mgmt) : (s.toAllPorts m).kept = s.kept := by
  unfold State.toAllPorts
  simp

@[simp] theorem State.kept_rpEpochIn (s : State) (e eff : Nat) : (s.rpEpochIn e eff).kept = s.kept := by
  unfold State.rpEpochIn
  simp

@[simp] theorem State.kept_clearFilter (s : State) : s.clearFilter.kept = s.kept := by
  unfold State.clearFilter
  simp

@[simp] theorem State.kept_rpEpochApply (s : State) (e : Nat) : (s.rpEpochApply e).kept = s.kept := by
  unfold State.rpEpochApply
  simp

@[simp] theorem State.kept_reportIn (s : State) (node : Nat) (r : Report) : (s.reportIn node r).kept = s.kept := by
  unfold State.reportIn
  dsimp only
  repeat' split
  all_goals simp

@[simp] theorem State.kept_rpSnapIn (s : State) (t number : Nat) (skeins : BitVec 64) : (s.rpSnapIn t number skeins).kept = s.kept := by
  unfold State.rpSnapIn
  simp

@[simp] theorem State.kept_rpPathLoss (s : State) (tL : Nat) : (s.rpPathLoss tL).kept = s.kept := by
  unfold State.rpPathLoss
  simp

@[simp] theorem State.kept_rpAssignAck (s : State) (port : Nat) (what : Nat × Bool × Nat × Nat) :
    (s.rpAssignAck port what).kept = s.kept := by
  unfold State.rpAssignAck
  simp

@[simp] theorem State.kept_rpLogCopy (s : State) (node : Nat) (b : LogBody) : (s.rpLogCopy node b).kept = s.kept := by
  unfold State.rpLogCopy
  simp

@[simp] theorem State.kept_rpMgmtIn (s : State) (src : MgmtSource) (m : Mgmt) : (s.rpMgmtIn src m).kept = s.kept := by
  unfold State.rpMgmtIn
  repeat' split
  all_goals simp

/-! ### Machine/WeftDest -/

@[simp] theorem State.kept_queueReply (s : State) (plane : Nat) (c : Container) : (s.queueReply plane c).kept = s.kept := by
  unfold State.queueReply
  simp

@[simp] theorem State.kept_sendReplies (s : State) (l : List Reply) : (s.sendReplies l).kept = s.kept := by
  unfold State.sendReplies
  split <;> simp

@[simp] theorem State.kept_flushLike (s : State) (r : Reply) : (s.flushLike r).kept = s.kept := by
  unfold State.flushLike
  simp

@[simp] theorem State.kept_reply (s : State) (r : Reply) : (s.reply r).kept = s.kept := by
  unfold State.reply
  simp

@[simp] theorem State.kept_replyHold (s : State) (node : Nat) : (s.replyHold node).kept = s.kept := by
  unfold State.replyHold
  simp

@[simp] theorem State.kept_respond (s : State) (a : Arrival) (opc : Nat) (data : List Byte) : (s.respond a opc data).kept = s.kept := by
  unfold State.respond
  split <;> simp

@[simp] theorem State.kept_ownFailed (s : State) (id i : Nat) : (s.ownFailed id i).kept = s.kept := by
  unfold State.ownFailed
  repeat' split
  all_goals simp

@[simp] theorem State.kept_newJob (s : State) (a : Arrival) : (s.newJob a).kept = s.kept := by
  unfold State.newJob
  simp

@[simp] theorem State.kept_modJob (s : State) (id : Nat) (f : Job → Job) : (s.modJob id f).kept = s.kept := by
  unfold State.modJob
  simp

@[simp] theorem State.kept_endJob (s : State) (j : Job) (failed : Bool) : (s.endJob j failed).kept = s.kept := by
  unfold State.endJob
  dsimp only
  split <;> simp

@[simp] theorem State.kept_startJob (s : State) (j : Job) : (s.startJob j).kept = s.kept := by
  unfold State.startJob
  simp

@[simp] theorem State.kept_destRun (n : Nat) (s : State) : (s.destRun n).kept = s.kept := by
  induction n generalizing s with
  | zero => rfl
  | succ n ih =>
    unfold State.destRun
    repeat' (first | split | dsimp only)
    all_goals simp [ih]

@[simp] theorem State.kept_destGo (s : State) : s.destGo.kept = s.kept := by
  unfold State.destGo
  simp

@[simp] theorem State.kept_jobOver (s : State) (j : Job) : (s.jobOver j).kept = s.kept := by
  unfold State.jobOver
  dsimp only
  repeat' split
  all_goals simp

@[simp] theorem State.kept_jobStep (s : State) (id off : Nat) (data : List Byte) (ok : Bool) :
    (s.jobStep id off data ok).kept = s.kept := by
  unfold State.jobStep
  split <;> simp

@[simp] theorem State.kept_epReflect (s : State) (p : Nat) (c : Container) : (s.epReflect p c).kept = s.kept := by
  unfold State.epReflect
  simp

@[simp] theorem State.kept_epRefuse (s : State) (p : Nat) (c : Container) : (s.epRefuse p c).kept = s.kept := by
  unfold State.epRefuse
  simp

@[simp] theorem State.kept_countDup (s : State) : s.countDup.kept = s.kept := by
  unfold State.countDup
  simp

@[simp] theorem State.kept_epMessage (s : State) (a : Arrival) : (s.epMessage a).kept = s.kept := by
  unfold State.epMessage
  repeat' split
  all_goals simp

@[simp] theorem State.kept_epRequests (s : State) (p : Nat) (c : Container) (ms : List Msg) : (s.epRequests p c ms).kept = s.kept := by
  unfold State.epRequests
  simp

@[simp] theorem State.kept_epSlotUse (s : State) (p kind src skein : Nat) : (s.epSlotUse p kind src skein).2.kept = s.kept := by
  unfold State.epSlotUse
  dsimp only
  repeat' split
  all_goals simp

@[simp] theorem State.kept_epArrive (s : State) (p : Nat) (c : Container) : (s.epArrive p c).kept = s.kept := by
  unfold State.epArrive
  simp

@[simp] theorem State.kept_recExpire (s : State) (p : Part) (node : Nat) : (s.recExpire p node).kept = s.kept := by
  unfold State.recExpire
  dsimp only
  split <;> simp

@[simp] theorem State.kept_ctxExpire (s : State) (p : Part) (node stream : Nat) : (s.ctxExpire p node stream).kept = s.kept := by
  unfold State.ctxExpire
  simp

@[simp] theorem State.kept_cacheExpire (s : State) (p : Part) : (s.cacheExpire p).kept = s.kept := by
  unfold State.cacheExpire
  simp

/-! ### Machine/WeftForm -/

theorem State.kept_snd_ite {α : Type} {s : State} {c : Prop} [Decidable c] {x y : α × State} (hx : x.2.kept = s.kept)
    (hy : y.2.kept = s.kept) : (if c then x else y).2.kept = s.kept := by
  split
  · exact hx
  · exact hy

/-- Where the translation of `s` leaves off, what is kept is as it was. -/
theorem State.kept_of_lookupOut {s t : State} {m tag va kind : Nat} {l : Lookup} (h : s.lookupOut m tag va kind = (l, t)) :
    t.kept = s.kept := by
  have hkept := s.kept_lookupOut m tag va kind
  rwa [h] at hkept

@[simp] theorem State.kept_nextOf (s : State) (k : Nat) (a : Act) : (s.nextOf k a).2.kept = s.kept := by
  unfold State.nextOf
  split
  · rfl
  · refine State.kept_snd_ite rfl (State.kept_snd_ite rfl (State.kept_snd_ite (State.kept_modAct _ _ _ _)
      (State.kept_snd_ite (State.kept_modAct _ _ _ _) ?_)))
    split
    · exact State.kept_modAct _ _ _ _
    · refine State.kept_snd_ite (State.kept_modAct _ _ _ _) ?_
      split
      · next h =>
        have ht := (State.kept_of_lookupOut h).trans (State.kept_modAct _ _ _ _)
        exact State.kept_snd_ite ht ht
      · next h =>
        have ht := (State.kept_of_lookupOut h).trans (State.kept_modAct _ _ _ _)
        exact State.kept_snd_ite ht ht
      · next h =>
        have ht := (State.kept_of_lookupOut h).trans (State.kept_modAct _ _ _ _)
        refine State.kept_snd_ite ht (State.kept_snd_ite (State.kept_snd_ite ht ht) (State.kept_snd_ite ht ?_))
        split
        · exact ht
        · exact State.kept_snd_ite ht ht


@[simp] theorem State.kept_promoteOne (s : State) (id : Nat) : (s.promoteOne id).kept = s.kept := by
  unfold State.promoteOne
  split <;> simp

@[simp] theorem State.kept_packFull (s : State) (node plane : Nat) : (s.packFull node plane).kept = s.kept := by
  unfold State.packFull
  simp

@[simp] theorem State.kept_promote (s : State) : s.promote.kept = s.kept := by
  unfold State.promote
  simp

@[simp] theorem State.kept_packExpire (s : State) (node plane : Nat) : (s.packExpire node plane).kept = s.kept := by
  unfold State.packExpire
  simp

@[simp] theorem State.kept_newHeld (s : State) (m : Msg) (sent : SentMsg) (node plane planes xtag reserve : Nat) (stream : Option Nat)
    (direct small room : Bool) (shuttle : Option Nat) (reads : List (Nat × Nat × Nat)) :
    (s.newHeld m sent node plane planes xtag reserve stream direct small room shuttle reads).kept = s.kept := by
  unfold State.newHeld
  simp

@[simp] theorem State.kept_formDesc (s : State) (k : Nat) (a : Act) (node off ttag n plane va : Nat) :
    (s.formDesc k a node off ttag n plane va).kept = s.kept := by
  unfold State.formDesc
  split <;> simp

@[simp] theorem State.kept_askList (s : State) (ring sub : Nat) : (s.askList ring sub).kept = s.kept := by
  unfold State.askList
  split <;> simp

@[simp] theorem State.kept_listCheck (s : State) (ring sub : Nat) : (s.listCheck ring sub).kept = s.kept := by
  unfold State.listCheck
  repeat' split
  all_goals simp

@[simp] theorem State.kept_listFailed (s : State) (ring sub : Nat) : (s.listFailed ring sub).kept = s.kept := by
  unfold State.listFailed
  split <;> simp

@[simp] theorem State.kept_listDone (s : State) (ring sub first n : Nat) (data : List Byte) (ok : Bool) :
    (s.listDone ring sub first n data ok).kept = s.kept := by
  unfold State.listDone
  simp

@[simp] theorem State.kept_listPartDone (s : State) (ring sub entry lo : Nat) (data : List Byte) (ok : Bool) :
    (s.listPartDone ring sub entry lo data ok).kept = s.kept := by
  unfold State.listPartDone
  simp

@[simp] theorem State.kept_sourceDone (s : State) (id off : Nat) (data : List Byte) (ok : Bool) :
    (s.sourceDone id off data ok).kept = s.kept := by
  unfold State.sourceDone
  repeat' split
  all_goals simp

@[simp] theorem State.kept_formLoop (n : Nat) (s : State) (x y z : Nat) (w : Option Nat) : (s.formLoop n x y z w).1.kept = s.kept := by
  induction n generalizing s w with
  | zero => rfl
  | succ n ih =>
    rw [State.formLoop]
    split
    · rfl
    · next a _ =>
      have hnext {m : Next} {t : State} (h : s.nextOf x a = (m, t)) : t.kept = s.kept := by
        have hkept := s.kept_nextOf x a
        rwa [h] at hkept
      split
      · rfl
      · rfl
      · dsimp only
        split <;> simp
      case h_4 h _ => simp [hnext h]
      case h_5 h _ =>
        dsimp only
        split <;> simp [hnext h]
      case h_6 h _ => simp [hnext h]
      case h_7 h _ =>
        dsimp only
        split
        · rfl
        · simp [ih, hnext h]


@[simp] theorem State.kept_returnBurst (s : State) (b : Burst) : (s.returnBurst b).kept = s.kept := by
  unfold State.returnBurst
  simp

@[simp] theorem State.kept_giveBack (s : State) (ring n : Nat) : (s.giveBack ring n).kept = s.kept := by
  unfold State.giveBack
  simp

@[simp] theorem State.kept_resumeShuttle (s : State) (k : Nat) : (s.resumeShuttle k).kept = s.kept := by
  unfold State.resumeShuttle
  split <;> simp

@[simp] theorem State.kept_directGo (s : State) (x : DMiss) : (s.directGo x).kept = s.kept := by
  unfold State.directGo
  dsimp only
  split
  · next h =>
    rw [← State.kept_of_lookupOut h]
    split <;> simp
  · next h =>
    rw [← State.kept_of_lookupOut h]
    split <;> simp
  · next h =>
    rw [← State.kept_of_lookupOut h]
    split
    · simp
    · split <;> simp


@[simp] theorem State.kept_replayMiss (s : State) (id : Nat) : (s.replayMiss id).kept = s.kept := by
  unfold State.replayMiss
  split <;> simp

@[simp] theorem State.kept_injectHeld (s : State) (p : Nat) (h : Held) : (s.injectHeld p h).kept = s.kept := by
  unfold State.injectHeld
  simp

@[simp] theorem State.kept_injectOn (s : State) (p : Nat) : (s.injectOn p).kept = s.kept := by
  unfold State.injectOn
  split <;> simp

@[simp] theorem State.kept_unform (s : State) (h : Held) : (s.unform h).kept = s.kept := by
  unfold State.unform
  simp

@[simp] theorem State.kept_reform (s : State) (k : Nat) (h : Held) : (s.reform k h).kept = s.kept := by
  unfold State.reform
  split <;> simp

@[simp] theorem State.kept_fenceShuttle (s : State) (k : Nat) : (s.fenceShuttle k).kept = s.kept := by
  unfold State.fenceShuttle
  split <;> simp

/-! ### Machine/Ready -/

@[simp] theorem State.kept_unready (s : State) : s.unready.kept = s.kept := by
  unfold State.unready
  simp

/-! ### Machine/FaultOps -/

@[simp] theorem State.kept_portOrder (s : State) (p : Nat) : (s.portOrder p).kept = s.kept := by
  unfold State.portOrder
  simp

@[simp] theorem State.kept_fenceLog (s : State) (i origin requester what : Nat) : (s.fenceLog i origin requester what).kept = s.kept := by
  unfold State.fenceLog
  simp

@[simp] theorem State.kept_hardFence (s : State) (i cause : Nat) : (s.hardFence i cause).kept = s.kept := by
  unfold State.hardFence
  simp

@[simp] theorem State.kept_stopClock (s : State) (p : Part) (port : Nat) : (s.stopClock p port).kept = s.kept := by
  unfold State.stopClock
  simp

@[simp] theorem State.kept_holdBack (s : State) (i : Nat) : (s.holdBack i).kept = s.kept := by
  unfold State.holdBack
  simp

@[simp] theorem State.kept_fencePort (s : State) (n cause : Nat) : (s.fencePort n cause).kept = s.kept := by
  unfold State.fencePort
  simp

@[simp] theorem State.kept_fenceSpindle (s : State) (n cause : Nat) : (s.fenceSpindle n cause).kept = s.kept := by
  unfold State.fenceSpindle
  simp

@[simp] theorem State.kept_fenceChannel (s : State) (c cause offset : Nat) : (s.fenceChannel c cause offset).kept = s.kept := by
  unfold State.fenceChannel
  simp

@[simp] theorem State.kept_portEvent (s : State) (port sub cause w : Nat) : (s.portEvent port sub cause w).kept = s.kept := by
  unfold State.portEvent
  simp

@[simp] theorem State.kept_lossNotice (s : State) (port : Nat) : (s.lossNotice port).kept = s.kept := by
  unfold State.lossNotice
  simp

@[simp] theorem State.kept_portGone (s : State) (p : Part) (port : Nat) : (s.portGone p port).kept = s.kept := by
  unfold State.portGone
  split <;> simp

@[simp] theorem State.kept_portDown (s : State) (p : Part) (port cause : Nat) : (s.portDown p port cause).kept = s.kept := by
  unfold State.portDown
  repeat' split
  all_goals simp

@[simp] theorem State.kept_startTraining (s : State) (p : Part) (port : Nat) : (s.startTraining p port).kept = s.kept := by
  unfold State.startTraining
  repeat' split
  all_goals simp

@[simp] theorem State.kept_quarantine (s : State) (i : Nat) : (s.quarantine i).kept = s.kept := by
  unfold State.quarantine
  simp

@[simp] theorem State.kept_channelsReturn (s : State) : s.channelsReturn.kept = s.kept := by
  unfold State.channelsReturn
  simp

@[simp] theorem State.kept_freeUnit (s : State) (i : Nat) : (s.freeUnit i).kept = s.kept := by
  unfold State.freeUnit
  simp

@[simp] theorem State.kept_qstepTo (s : State) (i n : Nat) : (s.qstepTo i n).kept = s.kept := by
  unfold State.qstepTo
  simp

@[simp] theorem State.kept_qFail (s : State) (i cause : Nat) : (s.qFail i cause).kept = s.kept := by
  unfold State.qFail
  simp

@[simp] theorem State.kept_portInService (s : State) (n : Nat) : (s.portInService n).kept = s.kept := by
  unfold State.portInService
  simp

@[simp] theorem State.kept_newLife (s : State) (i : Nat) : ∀ t, s.newLife i = some t → t.kept = s.kept := by
  intro t ht
  rw [State.newLife] at ht
  obtain ⟨u, hu, hut⟩ := Option.bind_eq_some_iff.mp ht
  have hus := s.kept_genAdvance i u hu
  split at hut
  · exact (State.kept_genAdvance _ _ t hut).trans hus
  · cases hut
    exact hus


@[simp] theorem State.kept_returnUnit (s : State) (i : Nat) : (s.returnUnit i).1.kept = s.kept := by
  unfold State.returnUnit
  dsimp only
  split <;> simp

@[simp] theorem State.kept_softFence (s : State) (i : Nat) (wr : Writer) : (s.softFence i wr).kept = s.kept := by
  unfold State.softFence
  simp

@[simp] theorem State.kept_softReturn (s : State) (i : Nat) (wr : Writer) : (s.softReturn i wr).kept = s.kept := by
  unfold State.softReturn
  simp

@[simp] theorem State.kept_unitCtl (s : State) (i v : Nat) (wr : Writer) : (s.unitCtl i v wr).kept = s.kept := by
  unfold State.unitCtl
  simp

@[simp] theorem State.kept_partEventFor (s : State) (type n state cause : Nat) (skeins : List Nat) :
    (s.partEventFor type n state cause skeins).kept = s.kept := by
  unfold State.partEventFor
  simp

@[simp] theorem State.kept_partEvent (s : State) (type n state cause : Nat) : (s.partEvent type n state cause).kept = s.kept := by
  unfold State.partEvent
  simp

@[simp] theorem State.kept_loseEddies (s : State) (l : List Nat) : (s.loseEddies l).kept = s.kept := by
  unfold State.loseEddies
  simp

@[simp] theorem State.kept_fenceGroup (s : State) (type k cause : Nat) (ports spindles : List Nat) :
    (s.fenceGroup type k cause ports spindles).kept = s.kept := by
  unfold State.fenceGroup
  simp

@[simp] theorem State.kept_fenceCluster (s : State) (k : Nat) : (s.fenceCluster k).kept = s.kept := by
  unfold State.fenceCluster
  simp

@[simp] theorem State.kept_resetRegion (s : State) (r : Nat) : (s.resetRegion r).kept = s.kept := by
  unfold State.resetRegion
  simp

@[simp] theorem State.kept_resetRegionAt (s : State) (r cause : Nat) (quiet : Bool) : (s.resetRegionAt r cause quiet).kept = s.kept := by
  unfold State.resetRegionAt
  simp

@[simp] theorem State.kept_regionBack (s : State) (r : Nat) : (s.regionBack r).kept = s.kept := by
  unfold State.regionBack
  dsimp only
  repeat' split
  all_goals simp

/-! ### Machine/FmemOps -/

@[simp] theorem State.kept_modFmDest (s : State) (f : Dest → Dest) : (s.modFmDest f).kept = s.kept := by
  unfold State.modFmDest
  simp

@[simp] theorem State.kept_fmCharge (s : State) (a : Arrival) : (s.fmCharge a).kept = s.kept := by
  unfold State.fmCharge
  simp

@[simp] theorem State.kept_agentLeave (s : State) (entry : Option Nat) : (s.agentLeave entry).kept = s.kept := by
  unfold State.agentLeave
  simp

@[simp] theorem State.kept_agentOffer (s : State) (c : Container) (entry : Nat) : (s.agentOffer c entry).kept = s.kept := by
  unfold State.agentOffer
  repeat' split
  all_goals simp

@[simp] theorem State.kept_agentReply (s : State) (a : Arrival) (opc : Nat) (data : List Byte) :
    (s.agentReply a opc data).kept = s.kept := by
  unfold State.agentReply
  simp

@[simp] theorem State.kept_sealedRelease (s : State) : s.sealedRelease.kept = s.kept := by
  unfold State.sealedRelease
  simp

@[simp] theorem State.kept_relayFire (s : State) (m : Nat) : (s.relayFire m).kept = s.kept := by
  unfold State.relayFire
  dsimp only
  repeat' split
  all_goals simp

@[simp] theorem State.kept_hcntSet (s : State) (n v : Nat) : (s.hcntSet n v).kept = s.kept := by
  unfold State.hcntSet
  simp

@[simp] theorem State.kept_uncorrectable (s : State) (offset : Nat) : (s.uncorrectable offset).kept = s.kept := by
  unfold State.uncorrectable
  simp

@[simp] theorem State.kept_corrected (s : State) (n offset : Nat) : (s.corrected n offset).kept = s.kept := by
  unfold State.corrected
  simp

@[simp] theorem State.kept_agentLost (s : State) (a : Arrival) : (s.agentLost a).kept = s.kept := by
  unfold State.agentLost
  simp

@[simp] theorem State.kept_agentDone (s : State) (a : Arrival) (opc : Nat) (data : List Byte) :
    (s.agentDone a opc data).kept = s.kept := by
  unfold State.agentDone
  simp

@[simp] theorem State.kept_zeroOn (s : State) : s.zeroOn.kept = s.kept := by
  unfold State.zeroOn
  simp

@[simp] theorem State.kept_relaysGo (s : State) : s.relaysGo.kept = s.kept := by
  unfold State.relaysGo
  simp

@[simp] theorem State.kept_agentReflect (s : State) (port : Nat) (c : Container) : (s.agentReflect port c).kept = s.kept := by
  unfold State.agentReflect
  simp

/-! ### Machine/Fmem -/

@[simp] theorem State.kept_regionCtl (s : State) (n v : Nat) : (s.regionCtl n v).kept = s.kept := by
  unfold State.regionCtl
  simp

@[simp] theorem State.kept_hgrantStore (s : State) (k v : Nat) : (s.hgrantStore k v).kept = s.kept := by
  unfold State.hgrantStore
  simp

@[simp] theorem State.kept_relayCtl (s : State) (m v : Nat) : (s.relayCtl m v).kept = s.kept := by
  unfold State.relayCtl
  simp

/-! ### Machine/RpWarpOps -/

@[simp] theorem State.kept_modSpindle (s : State) (n : Nat) (f : SpindleSt → SpindleSt) : (s.modSpindle n f).kept = s.kept := by
  unfold State.modSpindle
  simp

@[simp] theorem State.kept_fly (s : State) (slots : Nat) (dst : FlightTo) (what : Contrib) : (s.fly slots dst what).kept = s.kept := by
  unfold State.fly
  simp

@[simp] theorem State.kept_toSpindle (s : State) (p c l : Nat) (what : Contrib) : (s.toSpindle p c l what).kept = s.kept := by
  unfold State.toSpindle
  split <;> simp

@[simp] theorem State.kept_toPort (s : State) (p l : Nat) (what : Contrib) : (s.toPort p l what).kept = s.kept := by
  unfold State.toPort
  split <;> simp

@[simp] theorem State.kept_movesNot (s : State) (c : Nat) (l : List Nat) (what : Contrib) : (s.movesNot c l what).kept = s.kept := by
  unfold State.movesNot
  split <;> simp

@[simp] theorem State.kept_deliverAt (s : State) (p e : Nat) (what : Contrib) : (s.deliverAt p e what).kept = s.kept := by
  unfold State.deliverAt
  dsimp only
  split <;> simp

@[simp] theorem State.kept_hear (s : State) (p : Nat) : (s.hear p).kept = s.kept := by
  unfold State.hear
  simp

@[simp] theorem State.kept_logOnce (s : State) (p code : Nat) (f : State → State) (h : ∀ t, (f t).kept = t.kept) :
    (s.logOnce p code f).kept = s.kept := by
  unfold State.logOnce
  simp [h]

@[simp] theorem State.kept_slotMismatch (s : State) (p kind src skein use : Nat) :
    (s.slotMismatch p kind src skein use).kept = s.kept := by
  unfold State.slotMismatch
  simp

@[simp] theorem State.kept_skeinGate (s : State) (p kind src skein : Nat) (exempt : Bool) :
    (s.skeinGate p kind src skein exempt).2.kept = s.kept := by
  unfold State.skeinGate
  dsimp only
  repeat' split
  all_goals simp

@[simp] theorem State.kept_quarTraffic (s : State) (p src skein : Nat) : (s.quarTraffic p src skein).kept = s.kept := by
  unfold State.quarTraffic
  simp

@[simp] theorem State.kept_noteReady (s : State) (c : WarpCell) : (s.noteReady c).kept = s.kept := by
  unfold State.noteReady
  split <;> simp

@[simp] theorem State.kept_rpEmptyIn (s : State) (p : Nat) : (s.rpEmptyIn p).kept = s.kept := by
  unfold State.rpEmptyIn
  simp

@[simp] theorem State.kept_missingIn (s : State) : s.missingIn.kept = s.kept := by
  unfold State.missingIn
  simp

@[simp] theorem State.kept_shadowOwed (s : State) (pat n : Nat) : (s.shadowOwed pat n).kept = s.kept := by
  unfold State.shadowOwed
  simp

@[simp] theorem State.kept_closeGroup (s : State) (n : Nat) (r : PhaseRec) (x : AccCtx) : (s.closeGroup n r x).kept = s.kept := by
  unfold State.closeGroup
  split <;> simp

@[simp] theorem State.kept_spinBudget (s : State) (n : Nat) (what : Contrib) : (s.spinBudget n what).2.kept = s.kept := by
  unfold State.spinBudget
  dsimp only
  repeat' split
  all_goals simp

@[simp] theorem State.kept_spindleTraffic (s : State) (n : Nat) (x : Contrib) : (s.spindleTraffic n x).kept = s.kept := by
  unfold State.spindleTraffic
  split <;> simp

@[simp] theorem State.kept_spindleIn (s : State) (n ph : Nat) (what : Contrib) : (s.spindleIn n ph what).kept = s.kept := by
  unfold State.spindleIn
  dsimp only
  repeat' split
  all_goals simp

@[simp] theorem State.kept_anchorsIn (s : State) (n : Nat) (c : WarpCell) : (s.anchorsIn n c).kept = s.kept := by
  unfold State.anchorsIn
  simp

@[simp] theorem State.kept_flightsLand (s : State) : s.flightsLand.kept = s.kept := by
  unfold State.flightsLand
  refine State.kept_foldl _ (fun t f => ?_) _ _
  split <;> simp


@[simp] theorem State.kept_delivered (s : State) (p : Nat) (c : WarpCell) (ok : Bool) : (s.delivered p c ok).kept = s.kept := by
  unfold State.delivered
  simp

@[simp] theorem State.kept_flightsDone (s : State) : s.flightsDone.kept = s.kept := by
  unfold State.flightsDone
  simp

/-! ### Machine/Draft -/

@[simp] theorem State.kept_committed (s : State) (slot code : Nat) : (s.committed slot code).kept = s.kept := by
  unfold State.committed
  simp

@[simp] theorem State.kept_commitSlot (s : State) (slot : Nat) : (s.commitSlot slot).kept = s.kept := by
  unfold State.commitSlot
  simp

@[simp] theorem State.kept_drfCtl (s : State) (v : Nat) : (s.drfCtl v).kept = s.kept := by
  unfold State.drfCtl
  simp

@[simp] theorem State.kept_rpDraftOn (s : State) (slot : Nat) : (s.rpDraftOn slot).kept = s.kept := by
  unfold State.rpDraftOn
  simp

@[simp] theorem State.kept_rpDraftOff (s : State) : s.rpDraftOff.kept = s.kept := by
  unfold State.rpDraftOff
  simp

@[simp] theorem State.kept_rpActivate (s : State) : s.rpActivate.kept = s.kept := by
  unfold State.rpActivate
  dsimp only
  repeat' split
  all_goals simp

/-! ### Machine/EpWarp -/

@[simp] theorem State.kept_wctl (s : State) (v : Nat) : (s.wctl v).kept = s.kept := by
  unfold State.wctl
  simp

@[simp] theorem State.kept_modSky (s : State) (p : Nat) (f : SkyRun → SkyRun) : (s.modSky p f).kept = s.kept := by
  unfold State.modSky
  simp

@[simp] theorem State.kept_skyIn (s : State) (p : Nat) (c : WarpCell) : (s.skyIn p c).kept = s.kept := by
  unfold State.skyIn
  dsimp only
  repeat' split
  all_goals simp

@[simp] theorem State.kept_epAnchorsIn (s : State) (p : Nat) (c : WarpCell) : (s.epAnchorsIn p c).kept = s.kept := by
  unfold State.epAnchorsIn
  simp

@[simp] theorem State.kept_roundPassed (s : State) (p pat : Nat) (r : Run) (round : Nat) :
    (s.roundPassed p pat r round).kept = s.kept := by
  unfold State.roundPassed
  simp

@[simp] theorem State.kept_resultIn (s : State) (p : Nat) (x : PhaseRec) (r : Run) (c : WarpCell) :
    (s.resultIn p x r c).kept = s.kept := by
  unfold State.resultIn
  dsimp only
  repeat' split
  all_goals simp

@[simp] theorem State.kept_epWarpIn (s : State) (p : Nat) (c : WarpCell) : (s.epWarpIn p c).kept = s.kept := by
  unfold State.epWarpIn
  dsimp only
  repeat' split
  all_goals simp

/-! ### Machine/Warp -/

@[simp] theorem State.kept_drfWrite (s : State) (ctl : Word) (wr : Writer) : (s.drfWrite ctl wr).kept = s.kept := by
  unfold State.drfWrite
  simp

@[simp] theorem State.kept_wctlWrite (s : State) (ctl : Word) (wr : Writer) : (s.wctlWrite ctl wr).kept = s.kept := by
  unfold State.wctlWrite
  simp

@[simp] theorem State.kept_activateDraft (s : State) (x : Part) : (s.activateDraft x).kept = s.kept := by
  unfold State.activateDraft
  split <;> simp

@[simp] theorem State.kept_mgmtIn (s : State) (p : Part) (src : MgmtSource) (m : Mgmt) : (s.mgmtIn p src m).kept = s.kept := by
  unfold State.mgmtIn
  split <;> simp

@[simp] theorem State.kept_epCellIn (s : State) (p : Nat) (c : WarpCell) : (s.epCellIn p c).kept = s.kept := by
  unfold State.epCellIn
  simp

@[simp] theorem State.kept_applyOrders (s : State) (p : Part) : (s.applyOrders p).kept = s.kept := by
  unfold State.applyOrders
  repeat' split
  all_goals simp

/-! ### Machine/LinkOps -/

@[simp] theorem State.kept_lmcPush (s : State) (p : Part) (port : Nat) (l : List LmcMsg) : (s.lmcPush p port l).kept = s.kept := by
  unfold State.lmcPush
  simp

@[simp] theorem State.kept_causeDown (s : State) (p : Part) (port cause : Nat) : (s.causeDown p port cause).kept = s.kept := by
  unfold State.causeDown
  simp

@[simp] theorem State.kept_recordIdentity (s : State) (p : Part) (port : Nat) (i : Identity) :
    (s.recordIdentity p port i).kept = s.kept := by
  unfold State.recordIdentity
  simp

@[simp] theorem State.kept_logIdentity (s : State) (p : Part) (port : Nat) (i : Identity) (received : Bool) :
    (s.logIdentity p port i received).kept = s.kept := by
  unfold State.logIdentity
  simp

@[simp] theorem State.kept_miswire (s : State) (p : Part) (port : Nat) (expected got : Identity) :
    (s.miswire p port expected got).kept = s.kept := by
  unfold State.miswire
  repeat' split
  all_goals simp

@[simp] theorem State.kept_identIn (s : State) (p : Part) (port : Nat) (got : Identity) : (s.identIn p port got).kept = s.kept := by
  unfold State.identIn
  dsimp only
  repeat' split
  all_goals simp

@[simp] theorem State.kept_tuneWls (s : State) (p : Part) (port : Nat) (ws : List Nat) : (s.tuneWls p port ws).kept = s.kept := by
  unfold State.tuneWls
  simp

@[simp] theorem State.kept_farPower (s : State) (p : Part) (port first : Nat) (l : List Int) :
    (s.farPower p port first l).kept = s.kept := by
  unfold State.farPower
  simp

@[simp] theorem State.kept_skyPower (s : State) (port : Nat) (x : Int) : (s.skyPower port x).kept = s.kept := by
  unfold State.skyPower
  split <;> simp

@[simp] theorem State.kept_powerIn (s : State) (p : Part) (port : Nat) (l : List Int) : (s.powerIn p port l).kept = s.kept := by
  unfold State.powerIn
  repeat' split
  all_goals simp

@[simp] theorem State.kept_revalEnd (s : State) (p : Part) (port : Nat) : (s.revalEnd p port).kept = s.kept := by
  unfold State.revalEnd
  simp

@[simp] theorem State.kept_revalAbandon (s : State) (p : Part) (port : Nat) : (s.revalAbandon p port).kept = s.kept := by
  unfold State.revalAbandon
  split <;> simp

@[simp] theorem State.kept_askSwap (s : State) (p : Part) (port lane reason : Nat) : (s.askSwap p port lane reason).kept = s.kept := by
  unfold State.askSwap
  simp

@[simp] theorem State.kept_laneFailed (s : State) (p : Part) (port lane : Nat) : (s.laneFailed p port lane).kept = s.kept := by
  unfold State.laneFailed
  simp

@[simp] theorem State.kept_swapEvent (s : State) (p : Part) (port reason w : Nat) : (s.swapEvent p port reason w).kept = s.kept := by
  unfold State.swapEvent
  simp

@[simp] theorem State.kept_laneLow (s : State) (p : Part) (port lane : Nat) : (s.laneLow p port lane).kept = s.kept := by
  unfold State.laneLow
  simp

@[simp] theorem State.kept_swapReqIn (s : State) (p : Part) (port lane reason frame : Nat) :
    (s.swapReqIn p port lane reason frame).kept = s.kept := by
  unfold State.swapReqIn
  simp

@[simp] theorem State.kept_swapAckIn (s : State) (p : Part) (port lane frame : Nat) : (s.swapAckIn p port lane frame).kept = s.kept := by
  unfold State.swapAckIn
  simp

@[simp] theorem State.kept_setEngineTemp (s : State) (p : Part) (port : Nat) (t : Int) : (s.setEngineTemp p port t).kept = s.kept := by
  unfold State.setEngineTemp
  split <;> simp

@[simp] theorem State.kept_stamp (s : State) (p : Part) (port w : Nat) (cls : Bool) (temp : Int) :
    (s.stamp p port w cls temp).kept = s.kept := by
  unfold State.stamp
  simp

@[simp] theorem State.kept_revalBegin (s : State) (p : Part) (port : Nat) (cls : Bool) (temp : Int) :
    (s.revalBegin p port cls temp).kept = s.kept := by
  unfold State.revalBegin
  simp

@[simp] theorem State.kept_revalResume (s : State) (p : Part) (port : Nat) : (s.revalResume p port).kept = s.kept := by
  unfold State.revalResume
  dsimp only
  split <;> simp

@[simp] theorem State.kept_swapNow (s : State) (p : Part) (port : Nat) (x : Swap) : (s.swapNow p port x).kept = s.kept := by
  unfold State.swapNow
  simp

@[simp] theorem State.kept_swapApply (s : State) (p : Part) (port : Nat) : (s.swapApply p port).kept = s.kept := by
  unfold State.swapApply
  dsimp only
  repeat' split
  all_goals simp

@[simp] theorem State.kept_revalStart (s : State) (p : Part) (port : Nat) (cls : Bool) (temp : Int) :
    (s.revalStart p port cls temp).kept = s.kept := by
  unfold State.revalStart
  simp

@[simp] theorem State.kept_revalTurn (s : State) (p : Part) (port errors : Nat) (r : Reval) :
    (s.revalTurn p port errors r).kept = s.kept := by
  unfold State.revalTurn
  repeat' split
  all_goals simp

@[simp] theorem State.kept_revalCheck (s : State) (p : Part) (port errors : Nat) : (s.revalCheck p port errors).kept = s.kept := by
  unfold State.revalCheck
  repeat' split
  all_goals simp

@[simp] theorem State.kept_lightOut (s : State) (p : Part) (port : Nat) : (s.lightOut p port).kept = s.kept := by
  unfold State.lightOut
  simp

@[simp] theorem State.kept_lightBack (s : State) (p : Part) (port : Nat) : (s.lightBack p port).kept = s.kept := by
  unfold State.lightBack
  split <;> simp

@[simp] theorem State.kept_lossOfClock (s : State) (p : Part) (port : Nat) : (s.lossOfClock p port).kept = s.kept := by
  unfold State.lossOfClock
  simp

@[simp] theorem State.kept_holdoverOut (s : State) (p : Part) (port : Nat) : (s.holdoverOut p port).kept = s.kept := by
  unfold State.holdoverOut
  split <;> simp

@[simp] theorem State.kept_clockStopped (s : State) (p : Part) (port : Nat) : (s.clockStopped p port).kept = s.kept := by
  unfold State.clockStopped
  simp

@[simp] theorem State.kept_prbsIn (s : State) (p : Part) (port w : Nat) (l : List Nat) : (s.prbsIn p port w l).kept = s.kept := by
  unfold State.prbsIn
  split <;> simp

@[simp] theorem State.kept_wordIn (s : State) (p : Part) (port : Nat) (g : RxGroup) (lane place : Nat) :
    (s.wordIn p port g lane place).kept = s.kept := by
  unfold State.wordIn
  split <;> simp

@[simp] theorem State.kept_placeIn (s : State) (p : Part) (port : Nat) (g : RxGroup) (place : Nat) :
    (s.placeIn p port g place).kept = s.kept := by
  unfold State.placeIn
  simp

@[simp] theorem State.kept_groupIn (s : State) (p : Part) (port : Nat) (g : RxGroup) : (s.groupIn p port g).kept = s.kept := by
  unfold State.groupIn
  simp

@[simp] theorem State.kept_patternsIn (s : State) (p : Part) (port : Nat) (l : List RxPattern) :
    (s.patternsIn p port l).kept = s.kept := by
  unfold State.patternsIn
  simp

@[simp] theorem State.kept_groupsIn (s : State) (p : Part) (port : Nat) (l : List RxGroup) (x : List RxPattern) :
    (s.groupsIn p port l x).kept = s.kept := by
  unfold State.groupsIn
  simp

@[simp] theorem State.kept_misaligned (s : State) (p : Part) (port : Nat) : (s.misaligned p port).kept = s.kept := by
  unfold State.misaligned
  simp

@[simp] theorem State.kept_timeEvent (s : State) (p : Part) (case : Nat) : (s.timeEvent p case).kept = s.kept := by
  unfold State.timeEvent
  simp

@[simp] theorem State.kept_timeFrom (s : State) (p : Part) (port : Nat) (twice : Int) (delay depth : Nat) :
    (s.timeFrom p port twice delay depth).kept = s.kept := by
  unfold State.timeFrom
  simp

@[simp] theorem State.kept_delayAgain (s : State) (p : Part) (port slotsIn slotsOut : Nat) :
    (s.delayAgain p port slotsIn slotsOut).kept = s.kept := by
  unfold State.delayAgain
  simp

@[simp] theorem State.kept_syncIn (s : State) (p : Part) (port seq : Nat) (locked master : Bool) (depth time16 recv16 : Nat) :
    (s.syncIn p port seq locked master depth time16 recv16).kept = s.kept := by
  unfold State.syncIn
  simp

@[simp] theorem State.kept_exchange (s : State) (p : Part) (port syncSeq time16 : Nat) :
    (s.exchange p port syncSeq time16).kept = s.kept := by
  unfold State.exchange
  repeat' split
  all_goals simp

/-! ### Machine/KeyOps -/

@[simp] theorem State.kept_modKeys (s : State) (p : Part) (port : Nat) (f : LinkKeys → LinkKeys) :
    (s.modKeys p port f).kept = s.kept := by
  unfold State.modKeys
  simp

@[simp] theorem State.kept_keysFailed (s : State) (p : Part) (port reason : Nat) : (s.keysFailed p port reason).kept = s.kept := by
  unfold State.keysFailed
  simp

@[simp] theorem State.kept_sendSig (s : State) (p : Part) (port : Nat) : (s.sendSig p port).kept = s.kept := by
  unfold State.sendSig
  split <;> simp

@[simp] theorem State.kept_beginKeys (s : State) (p : Part) (port : Nat) (cert : Bool) : (s.beginKeys p port cert).kept = s.kept := by
  unfold State.beginKeys
  simp

@[simp] theorem State.kept_keysAgreed (s : State) (p : Part) (port : Nat) (far : Identity) : (s.keysAgreed p port far).kept = s.kept := by
  unfold State.keysAgreed
  simp

@[simp] theorem State.kept_checkSig (s : State) (p : Part) (port : Nat) : (s.checkSig p port).kept = s.kept := by
  unfold State.checkSig
  split <;> simp

@[simp] theorem State.kept_certIn (s : State) (p : Part) (port f : Nat) (d : List Byte) : (s.certIn p port f d).kept = s.kept := by
  unfold State.certIn
  simp

@[simp] theorem State.kept_ephIn (s : State) (p : Part) (port f : Nat) (d : List Byte) : (s.ephIn p port f d).kept = s.kept := by
  unfold State.ephIn
  simp

@[simp] theorem State.kept_sigIn (s : State) (p : Part) (port f : Nat) (d : List Byte) : (s.sigIn p port f d).kept = s.kept := by
  unfold State.sigIn
  simp

@[simp] theorem State.kept_abortIn (s : State) (p : Part) (port : Nat) : (s.abortIn p port).kept = s.kept := by
  unfold State.abortIn
  simp

@[simp] theorem State.kept_rekey (s : State) (p : Part) (port : Nat) : (s.rekey p port).kept = s.kept := by
  unfold State.rekey
  simp

@[simp] theorem State.kept_switchIn (s : State) (p : Part) (port gen frame : Nat) : (s.switchIn p port gen frame).kept = s.kept := by
  unfold State.switchIn
  simp

@[simp] theorem State.kept_switchAckIn (s : State) (p : Part) (port gen frame : Nat) :
    (s.switchAckIn p port gen frame).kept = s.kept := by
  unfold State.switchAckIn
  simp

@[simp] theorem State.kept_keySwitch (s : State) (p : Part) (port : Nat) : (s.keySwitch p port).kept = s.kept := by
  unfold State.keySwitch
  dsimp only
  split <;> simp

@[simp] theorem State.kept_switchRetry (s : State) (p : Part) (port : Nat) : (s.switchRetry p port).kept = s.kept := by
  unfold State.switchRetry
  dsimp only
  split <;> simp

@[simp] theorem State.kept_rekeyOver (s : State) (p : Part) (port : Nat) : (s.rekeyOver p port).kept = s.kept := by
  unfold State.rekeyOver
  split <;> simp

@[simp] theorem State.kept_frameTag (s : State) (p : Part) (port : Nat) (ok : Bool) (low : Nat) (tag : BitVec 64) :
    (s.frameTag p port ok low tag).kept = s.kept := by
  unfold State.frameTag
  dsimp only
  repeat' split
  all_goals simp

@[simp] theorem State.kept_enterStep (s : State) (p : Part) (port k : Nat) : (s.enterStep p port k).kept = s.kept := by
  unfold State.enterStep
  simp

@[simp] theorem State.kept_stepOn (s : State) (p : Part) (port : Nat) : (s.stepOn p port).kept = s.kept := by
  unfold State.stepOn
  simp

@[simp] theorem State.kept_receiverOn (s : State) (p : Part) (port : Nat) : (s.receiverOn p port).kept = s.kept := by
  unfold State.receiverOn
  simp

@[simp] theorem State.kept_farStateIn (s : State) (p : Part) (port step : Nat) : (s.farStateIn p port step).kept = s.kept := by
  unfold State.farStateIn
  simp

@[simp] theorem State.kept_delayCheck (s : State) (port : Nat) : (s.delayCheck port).kept = s.kept := by
  unfold State.delayCheck
  split <;> simp

@[simp] theorem State.kept_trained (s : State) (p : Part) (port delayIn delayOut : Nat) :
    (s.trained p port delayIn delayOut).kept = s.kept := by
  unfold State.trained
  split <;> simp

@[simp] theorem State.kept_testErrors (s : State) (p : Part) (port : Nat) (errors : List Nat) :
    (s.testErrors p port errors).kept = s.kept := by
  unfold State.testErrors
  simp

@[simp] theorem State.kept_stepDone (s : State) (p : Part) (port delayIn delayOut : Nat) (errors : List Nat) :
    (s.stepDone p port delayIn delayOut errors).kept = s.kept := by
  unfold State.stepDone
  dsimp only
  repeat' split
  all_goals simp

@[simp] theorem State.kept_stepTimeout (s : State) (p : Part) (port : Nat) : (s.stepTimeout p port).kept = s.kept := by
  unfold State.stepTimeout
  simp

@[simp] theorem State.kept_downAgain (s : State) (p : Part) (port : Nat) : (s.downAgain p port).kept = s.kept := by
  unfold State.downAgain
  split <;> simp

@[simp] theorem State.kept_portOff (s : State) (p : Part) (port : Nat) : (s.portOff p port).kept = s.kept := by
  unfold State.portOff
  repeat' split
  all_goals simp

@[simp] theorem State.kept_clearCounters (s : State) (p : Part) (port : Nat) : (s.clearCounters p port).kept = s.kept := by
  unfold State.clearCounters
  simp

@[simp] theorem State.kept_portCtl (s : State) (p : Part) (port v : Nat) : (s.portCtl p port v).kept = s.kept := by
  unfold State.portCtl
  simp

@[simp] theorem State.kept_lmcSend (s : State) (p : Part) (port : Nat) : (s.lmcSend p port).kept = s.kept := by
  unfold State.lmcSend
  dsimp only
  repeat' split
  all_goals simp

/-! ### Machine/LightOps -/

@[simp] theorem State.kept_lineOut (s : State) (p : Part) (port : Nat) (b : List Byte) : (s.lineOut p port b).kept = s.kept := by
  unfold State.lineOut
  dsimp only
  split
  · exact State.kept_modLink _ _ _ _
  · rw [State.kept_foldl _ fun t k => State.kept_emit _ _]
    exact State.kept_modLink _ _ _ _


@[simp] theorem State.kept_sendBlock (s : State) (p : Part) (port : Nat) (b : Block) : (s.sendBlock p port b).kept = s.kept := by
  unfold State.sendBlock
  dsimp only
  split <;> simp

@[simp] theorem State.kept_countSlot (s : State) (p : Part) (port : Nat) (fill busy : Bool) :
    (s.countSlot p port fill busy).kept = s.kept := by
  unfold State.countSlot
  simp

@[simp] theorem State.kept_weftFill (s : State) (p : Part) (port : Nat) : (s.weftFill p port).kept = s.kept := by
  unfold State.weftFill
  simp

@[simp] theorem State.kept_idleFill (s : State) (p : Part) (port : Nat) : (s.idleFill p port).kept = s.kept := by
  unfold State.idleFill
  simp

@[simp] theorem State.kept_sendBusy (s : State) (p : Part) (port : Nat) (b : Block) : (s.sendBusy p port b).kept = s.kept := by
  unfold State.sendBusy
  simp

@[simp] theorem State.kept_patternOut (s : State) (p : Part) (port : Nat) (k : Prbs) (restart : Bool) (w : Nat) :
    (s.patternOut p port k restart w).kept = s.kept := by
  unfold State.patternOut
  simp

@[simp] theorem State.kept_patternSlot (s : State) (p : Part) (port : Nat) : (s.patternSlot p port).kept = s.kept := by
  unfold State.patternSlot
  split <;> simp

@[simp] theorem State.kept_burstOut (s : State) (p : Part) (port : Nat) : (s.burstOut p port).kept = s.kept := by
  unfold State.burstOut
  simp

@[simp] theorem State.kept_deskewOut (s : State) (p : Part) (port : Nat) : (s.deskewOut p port).kept = s.kept := by
  unfold State.deskewOut
  simp

@[simp] theorem State.kept_lpiStep (s : State) (p : Part) (port : Nat) (ready : Bool) : (s.lpiStep p port ready).2.kept = s.kept := by
  unfold State.lpiStep
  repeat' split
  all_goals simp

@[simp] theorem State.kept_idleSlot (s : State) (p : Part) (port : Nat) (ready : Bool) : (s.idleSlot p port ready).kept = s.kept := by
  unfold State.idleSlot
  simp

@[simp] theorem State.kept_fillLpi (s : State) (p : Part) (port : Nat) : (s.fillLpi p port).kept = s.kept := by
  unfold State.fillLpi
  simp

@[simp] theorem State.kept_skySlot (s : State) (port : Nat) : (s.skySlot port).kept = s.kept := by
  unfold State.skySlot
  simp

@[simp] theorem State.kept_skyAlign (s : State) (port rx : Nat) : (s.skyAlign port rx).kept = s.kept := by
  unfold State.skyAlign
  split <;> simp

@[simp] theorem State.kept_skyGroups (s : State) (port tx : Nat) : (s.skyGroups port tx).kept = s.kept := by
  unfold State.skyGroups
  split <;> simp

@[simp] theorem State.kept_skyOut (s : State) (port : Nat) : (s.skyOut port).kept = s.kept := by
  unfold State.skyOut
  simp

@[simp] theorem State.kept_skySend (s : State) (j n ph : Nat) : (s.skySend j n ph).kept = s.kept := by
  unfold State.skySend
  split <;> simp

/-! ### Machine/LaserOps -/

@[simp] theorem State.kept_lasError (s : State) (m b : Nat) : (s.lasError m b).kept = s.kept := by
  unfold State.lasError
  simp

@[simp] theorem State.kept_modLas (s : State) (f : Lasers → Lasers) : (s.modLas f).kept = s.kept := by
  unfold State.modLas
  simp

@[simp] theorem State.kept_lasSend (s : State) (m : Nat) : (s.lasSend m).kept = s.kept := by
  unfold State.lasSend
  split <;> simp

@[simp] theorem State.kept_lasAsk (s : State) (m : Nat) (write : Bool) (addr data : Nat) (user : Bool) :
    (s.lasAsk m write addr data user).kept = s.kept := by
  unfold State.lasAsk
  simp

@[simp] theorem State.kept_lasNext (s : State) (m : Nat) : (s.lasNext m).kept = s.kept := by
  unfold State.lasNext
  simp

@[simp] theorem State.kept_lasAccess (s : State) (m v : Nat) : (s.lasAccess m v).kept = s.kept := by
  unfold State.lasAccess
  simp

@[simp] theorem State.kept_showBias (s : State) (m w : Nat) : (s.showBias m w).kept = s.kept := by
  unfold State.showBias
  repeat' split
  all_goals simp

@[simp] theorem State.kept_lasLearn (s : State) (m addr v : Nat) : (s.lasLearn m addr v).kept = s.kept := by
  unfold State.lasLearn
  simp

@[simp] theorem State.kept_lasFollow (s : State) (m w : Nat) : (s.lasFollow m w).kept = s.kept := by
  unfold State.lasFollow
  simp

@[simp] theorem State.kept_lasFollowed (s : State) : s.lasFollowed.kept = s.kept := by
  unfold State.lasFollowed
  simp

@[simp] theorem State.kept_lasDone (s : State) (m : Nat) (q : LasReq) (r : LasReply) : (s.lasDone m q r).kept = s.kept := by
  unfold State.lasDone
  simp

@[simp] theorem State.kept_lasRetry (s : State) (m : Nat) (q : LasReq) : (s.lasRetry m q).kept = s.kept := by
  unfold State.lasRetry
  simp

@[simp] theorem State.kept_lasReplyIn (s : State) (m : Nat) (r : LasReply) : (s.lasReplyIn m r).kept = s.kept := by
  unfold State.lasReplyIn
  split <;> simp

@[simp] theorem State.kept_lasSilent (s : State) (m : Nat) : (s.lasSilent m).kept = s.kept := by
  unfold State.lasSilent
  split <;> simp

@[simp] theorem State.kept_emitterFailed (s : State) (m w : Nat) (overtemp : Bool) : (s.emitterFailed m w overtemp).kept = s.kept := by
  unfold State.emitterFailed
  simp

@[simp] theorem State.kept_epEmitterFailed (s : State) (w : Nat) (b : Bool) : (s.epEmitterFailed w b).kept = s.kept := by
  unfold State.epEmitterFailed
  simp

@[simp] theorem State.kept_feedEvent (s : State) (e mask : Nat) : (s.feedEvent e mask).kept = s.kept := by
  unfold State.feedEvent
  simp

@[simp] theorem State.kept_moveFeeds (s : State) (e mask : Nat) (standby : Bool) : (s.moveFeeds e mask standby).kept = s.kept := by
  unfold State.moveFeeds
  simp

@[simp] theorem State.kept_feedReading (s : State) (e w : Nat) (pri stby : Int) : (s.feedReading e w pri stby).kept = s.kept := by
  unfold State.feedReading
  simp

@[simp] theorem State.kept_feedTrip (s : State) (e w : Nat) (pri stby : Int) : (s.feedTrip e w pri stby).kept = s.kept := by
  unfold State.feedTrip
  dsimp only
  split <;> simp

@[simp] theorem State.kept_feedBack (s : State) (e w : Nat) (pri stby : Int) : (s.feedBack e w pri stby).kept = s.kept := by
  unfold State.feedBack
  simp

@[simp] theorem State.kept_feedWrite (s : State) (e v : Nat) : (s.feedWrite e v).kept = s.kept := by
  unfold State.feedWrite
  simp

@[simp] theorem State.kept_feedsDue (s : State) : s.feedsDue.kept = s.kept := by
  unfold State.feedsDue
  simp

@[simp] theorem State.kept_logExcluded (s : State) (p : Part) (w : Nat) (m2 : Int) (l : List (Nat × Int)) :
    (s.logExcluded p w m2 l).kept = s.kept := by
  unfold State.logExcluded
  simp

@[simp] theorem State.kept_recordBias (s : State) (m w bias : Nat) (emitterB : Bool) :
    (s.recordBias m w bias emitterB).kept = s.kept := by
  unfold State.recordBias
  dsimp only
  split <;> simp

@[simp] theorem State.kept_writeBias (s : State) (m w bias : Nat) (emitterB : Bool) : (s.writeBias m w bias emitterB).kept = s.kept := by
  unfold State.writeBias
  simp

@[simp] theorem State.kept_lasInquire (s : State) (m w : Nat) : (s.lasInquire m w).kept = s.kept := by
  unfold State.lasInquire
  simp

@[simp] theorem State.kept_ageEmitter (s : State) (m w : Nat) : (s.ageEmitter m w).kept = s.kept := by
  unfold State.ageEmitter
  dsimp only
  repeat' split
  all_goals simp

@[simp] theorem State.kept_agePair (s : State) (w : Nat) : (s.agePair w).kept = s.kept := by
  unfold State.agePair
  dsimp only
  repeat' split
  all_goals simp

@[simp] theorem State.kept_biasEval (s : State) (p : Part) (m : Nat) : (s.biasEval p m).kept = s.kept := by
  unfold State.biasEval
  split <;> simp

/-! ### Machine/Pins -/

@[simp] theorem State.kept_modTap (s : State) (p : Part) (f : Tap → Tap) : (s.modTap p f).kept = s.kept := by
  unfold State.modTap
  split <;> simp

/-! ### Machine/SkeinOps -/

@[simp] theorem State.kept_skeinWrite (s : State) (v : Nat) (template : Option Nat) : (s.skeinWrite v template).kept = s.kept := by
  unfold State.skeinWrite
  simp

@[simp] theorem State.kept_destroyFkey (s : State) (k : Nat) : (s.destroyFkey k).kept = s.kept := by
  unfold State.destroyFkey
  simp

@[simp] theorem State.kept_scrubStart (s : State) (k : Nat) : (s.scrubStart k).kept = s.kept := by
  unfold State.scrubStart
  simp

@[simp] theorem State.kept_scrubbed (s : State) : s.scrubbed.kept = s.kept := by
  unfold State.scrubbed
  split <;> simp

@[simp] theorem State.kept_sknCtl (s : State) (k v : Nat) : (s.sknCtl k v).kept = s.kept := by
  unfold State.sknCtl
  simp

@[simp] theorem State.kept_releaseSkein (s : State) (k : Nat) : (s.releaseSkein k).kept = s.kept := by
  unfold State.releaseSkein
  simp

@[simp] theorem State.kept_loadTemplate (s : State) (k t : Nat) : (s.loadTemplate k t).kept = s.kept := by
  unfold State.loadTemplate
  simp

@[simp] theorem State.kept_skeinEffect (s : State) : s.skeinEffect.kept = s.kept := by
  unfold State.skeinEffect
  repeat' split
  all_goals simp

@[simp] theorem State.kept_sknPort (s : State) (p v : Nat) : (s.sknPort p v).kept = s.kept := by
  unfold State.sknPort
  simp

@[simp] theorem State.kept_releaseRecords (s : State) : s.releaseRecords.kept = s.kept := by
  unfold State.releaseRecords
  simp

/-! ### Machine/SecOps -/

@[simp] theorem State.kept_modSec (s : State) (p : Part) (f : Security → Security) : (s.modSec p f).kept = s.kept := by
  unfold State.modSec
  simp

@[simp] theorem State.kept_spdmReply (s : State) (p : Part) (session : Option Nat) (code : Nat) (body : List Byte) :
    (s.spdmReply p session code body).kept = s.kept := by
  unfold State.spdmReply
  simp

@[simp] theorem State.kept_spdmError (s : State) (p : Part) (session : Option Nat) (e : Nat) :
    (s.spdmError p session e).kept = s.kept := by
  unfold State.spdmError
  simp

@[simp] theorem State.kept_spdmAnswer (s : State) (p : Part) (code : Nat) (session : Option Nat) (slot : Nat) (req : List Byte) :
    (s.spdmAnswer p code session slot req).kept = s.kept := by
  unfold State.spdmAnswer
  simp

@[simp] theorem State.kept_spdmIn (s : State) (p : Part) (code : Nat) (session : Option Nat) (slot : Nat) (req : List Byte) :
    (s.spdmIn p code session slot req).kept = s.kept := by
  unfold State.spdmIn
  simp

@[simp] theorem State.kept_keyReply (s : State) (p : Part) (session : Option Nat) (op status : Nat) :
    (s.keyReply p session op status).kept = s.kept := by
  unfold State.keyReply
  simp

@[simp] theorem State.kept_keyRefused (s : State) (p : Part) (session : Option Nat) (op status : Nat) :
    (s.keyRefused p session op status).kept = s.kept := by
  unfold State.keyRefused
  simp

@[simp] theorem State.kept_keySet (s : State) (p : Part) (kind skein keyId : Nat) (key : BitVec 512) :
    (s.keySet p kind skein keyId key).kept = s.kept := by
  unfold State.keySet
  simp

@[simp] theorem State.kept_keyGone (s : State) (p : Part) (kind skein : Nat) : (s.keyGone p kind skein).kept = s.kept := by
  unfold State.keyGone
  split <;> simp

@[simp] theorem State.kept_install (s : State) (p : Part) (session : Option Nat) (kind skein : Nat) (keyId : Word) (key : BitVec 512) (malformed : Bool) :
    (s.install p session kind skein keyId key malformed).kept = s.kept := by
  unfold State.install
  simp

@[simp] theorem State.kept_destroy (s : State) (p : Part) (session : Option Nat) (kind skein : Nat) (malformed : Bool) :
    (s.destroy p session kind skein malformed).kept = s.kept := by
  unfold State.destroy
  simp

@[simp] theorem State.kept_fwEvent (s : State) (p : Part) : (s.fwEvent p).kept = s.kept := by
  unfold State.fwEvent
  simp

@[simp] theorem State.kept_fwLog (s : State) (p : Part) (old : Nat) : (s.fwLog p old).kept = s.kept := by
  unfold State.fwLog
  simp

@[simp] theorem State.kept_fwState (s : State) (p : Part) (new : Nat) : (s.fwState p new).kept = s.kept := by
  unfold State.fwState
  simp

@[simp] theorem State.kept_restartLayer1 (s : State) (p : Part) (activating : Bool) : (s.restartLayer1 p activating).kept = s.kept := by
  unfold State.restartLayer1
  simp

@[simp] theorem State.kept_heldAnswer (s : State) (p : Part) (h : HeldReq) : (s.heldAnswer p h).kept = s.kept := by
  unfold State.heldAnswer
  simp

@[simp] theorem State.kept_layer1Back (s : State) (p : Part) : (s.layer1Back p).kept = s.kept := by
  unfold State.layer1Back
  dsimp only
  repeat' split
  all_goals simp

@[simp] theorem State.kept_raiseSvn (s : State) : s.raiseSvn.kept = s.kept := by
  unfold State.raiseSvn
  simp

@[simp] theorem State.kept_layer1Done (s : State) (p : Part) : (s.layer1Done p).kept = s.kept := by
  unfold State.layer1Done
  simp

@[simp] theorem State.kept_fwFailed (s : State) (p : Part) : (s.fwFailed p).kept = s.kept := by
  unfold State.fwFailed
  split <;> simp

/-! ### Machine/PowerOps -/

@[simp] theorem State.kept_modPower (s : State) (f : Power → Power) : (s.modPower f).kept = s.kept := by
  unfold State.modPower
  simp

@[simp] theorem State.kept_setScale (s : State) (v : Nat) : (s.setScale v).kept = s.kept := by
  unfold State.setScale
  simp

@[simp] theorem State.kept_powerRequest (s : State) : s.powerRequest.kept = s.kept := by
  unfold State.powerRequest
  simp

@[simp] theorem State.kept_powerReturn (s : State) : s.powerReturn.kept = s.kept := by
  unfold State.powerReturn
  simp

@[simp] theorem State.kept_powerFrame (s : State) (activity : List Nat) : (s.powerFrame activity).kept = s.kept := by
  unfold State.powerFrame
  simp

@[simp] theorem State.kept_sendToken (s : State) (tok : Nat) : (s.sendToken tok).kept = s.kept := by
  unfold State.sendToken
  simp

@[simp] theorem State.kept_returnToken (s : State) : s.returnToken.kept = s.kept := by
  unfold State.returnToken
  split <;> simp

@[simp] theorem State.kept_tokenDue (s : State) : s.tokenDue.kept = s.kept := by
  unfold State.tokenDue
  split <;> simp

@[simp] theorem State.kept_alertOn (s : State) : s.alertOn.kept = s.kept := by
  unfold State.alertOn
  simp

@[simp] theorem State.kept_alertOff (s : State) : s.alertOff.kept = s.kept := by
  unfold State.alertOff
  simp

@[simp] theorem State.kept_thermStep (s : State) (n : Nat) : (s.thermStep n).kept = s.kept := by
  unfold State.thermStep
  simp

@[simp] theorem State.kept_thermalFence (s : State) (d : Nat) : (s.thermalFence d).kept = s.kept := by
  unfold State.thermalFence
  split <;> simp

@[simp] theorem State.kept_thermalFrame (s : State) (sensors : List Int) : (s.thermalFrame sensors).kept = s.kept := by
  unfold State.thermalFrame
  simp

@[simp] theorem State.kept_stepsClear (n : Nat) (s : State) : (s.stepsClear n).kept = s.kept := by
  induction n generalizing s with
  | zero => rfl
  | succ n ih =>
    unfold State.stepsClear
    repeat' (first | split | dsimp only)
    all_goals simp [ih]

@[simp] theorem State.kept_thermalAgain (s : State) (d : Nat) : (s.thermalAgain d).kept = s.kept := by
  unfold State.thermalAgain
  simp

@[simp] theorem State.kept_coolReturn (s : State) (d : Nat) : (s.coolReturn d).kept = s.kept := by
  unfold State.coolReturn
  simp

@[simp] theorem State.kept_modTime (s : State) (p : Part) (f : TimeSt → TimeSt) : (s.modTime p f).kept = s.kept := by
  unfold State.modTime
  simp

@[simp] theorem State.kept_holdOver (s : State) (p : Part) : (s.holdOver p).kept = s.kept := by
  unfold State.holdOver
  simp

@[simp] theorem State.kept_enablesOff (s : State) : s.enablesOff.kept = s.kept := by
  unfold State.enablesOff
  simp

@[simp] theorem State.kept_hubAsleep (s : State) : s.hubAsleep.kept = s.kept := by
  unfold State.hubAsleep
  simp

@[simp] theorem State.kept_timeAsleep (s : State) : s.timeAsleep.kept = s.kept := by
  unfold State.timeAsleep
  simp

@[simp] theorem State.kept_wakeStores (s : State) : s.wakeStores.kept = s.kept := by
  unfold State.wakeStores
  simp

@[simp] theorem State.kept_wakeCmd (s : State) : s.wakeCmd.kept = s.kept := by
  unfold State.wakeCmd
  simp

@[simp] theorem State.kept_rampDue (s : State) : s.rampDue.kept = s.kept := by
  unfold State.rampDue
  split <;> simp

@[simp] theorem State.kept_tokenHere (s : State) (tok : Nat) : (s.tokenHere tok).kept = s.kept := by
  unfold State.tokenHere
  simp

@[simp] theorem State.kept_newToken (s : State) (tok : Nat) : (s.newToken tok).kept = s.kept := by
  unfold State.newToken
  simp

@[simp] theorem State.kept_tokenAgain (s : State) (tok : Nat) : (s.tokenAgain tok).kept = s.kept := by
  unfold State.tokenAgain
  simp

@[simp] theorem State.kept_corePgOn (s : State) (d : Nat) : (s.corePgOn d).kept = s.kept := by
  unfold State.corePgOn
  simp

@[simp] theorem State.kept_stackTrained (s : State) (d : Nat) : (s.stackTrained d).kept = s.kept := by
  unfold State.stackTrained
  simp

@[simp] theorem State.kept_logRestore (s : State) : s.logRestore.kept = s.kept := by
  unfold State.logRestore
  repeat' split
  all_goals simp

theorem State.kept_getD (o : Option State) (s : State) (h : ∀ t, o = some t → t.kept = s.kept) : (o.getD s).kept = s.kept := by
  cases o with
  | none => rfl
  | some t => exact h t rfl

@[simp] theorem State.kept_pkgStart (s : State) : s.pkgStart.kept = s.kept := by
  unfold State.pkgStart
  dsimp only
  split
  · rfl
  · split
    · simp
    · simp [State.kept_getD _ _ (State.kept_genAdvance _ _)]


@[simp] theorem State.kept_plocenReset (s : State) : s.plocenReset.kept = s.kept := by
  unfold State.plocenReset
  simp

@[simp] theorem State.kept_hubRestart (s : State) : s.hubRestart.kept = s.kept := by
  unfold State.hubRestart
  simp

@[simp] theorem State.kept_hubCtlWrite (s : State) (v : Nat) : (s.hubCtlWrite v).kept = s.kept := by
  unfold State.hubCtlWrite
  simp

@[simp] theorem State.kept_perst (s : State) : s.perst.kept = s.kept := by
  unfold State.perst
  simp

@[simp] theorem State.kept_parentLost (s : State) (p : Part) : (s.parentLost p).kept = s.kept := by
  unfold State.parentLost
  dsimp only
  repeat' split
  all_goals simp

@[simp] theorem State.kept_holdoverOver (s : State) (p : Part) : (s.holdoverOver p).kept = s.kept := by
  unfold State.holdoverOver
  split <;> simp

@[simp] theorem State.kept_timeSetWrite (s : State) (v : Nat) : (s.timeSetWrite v).kept = s.kept := by
  unfold State.timeSetWrite
  simp

@[simp] theorem State.kept_timCtlWrite (s : State) (v : Nat) : (s.timCtlWrite v).kept = s.kept := by
  unfold State.timCtlWrite
  simp

/-! ### Machine/Faults -/

@[simp] theorem State.kept_epochDue (s : State) (p : Part) : (s.epochDue p).kept = s.kept := by
  unfold State.epochDue
  repeat' split
  all_goals simp

@[simp] theorem State.kept_resetEnds (s : State) (r : Nat) : (s.resetEnds r).kept = s.kept := by
  unfold State.resetEnds
  simp

/-! ### Machine/MgmtOps -/

@[simp] theorem State.kept_fetchFailed (s : State) : s.fetchFailed.kept = s.kept := by
  unfold State.fetchFailed
  simp

@[simp] theorem State.kept_command (s : State) (c : Command) (op : Nat) (ok : Bool) (f : State → State) (h : ∀ t, (f t).kept = t.kept) :
    (s.command c op ok f).kept = s.kept := by
  unfold State.command
  simp [h]

@[simp] theorem State.kept_cmdWait (s : State) (w : CmdWait) : (s.cmdWait w).kept = s.kept := by
  unfold State.cmdWait
  simp

@[simp] theorem State.kept_slotWritten (s : State) (slot : Nat) : (s.slotWritten slot).kept = s.kept := by
  unfold State.slotWritten
  simp

@[simp] theorem State.kept_loadImage (s : State) (region slot : Nat) (words : List (Nat × Word)) :
    (s.loadImage region slot words).kept = s.kept := by
  unfold State.loadImage
  simp

@[simp] theorem State.kept_draftLoad (s : State) (p0 : Nat) (image : List (Nat × Word)) (dmaOk : Bool) :
    (s.draftLoad p0 image dmaOk).kept = s.kept := by
  unfold State.draftLoad
  simp

@[simp] theorem State.kept_skeinOrder (s : State) (p0 : Nat) : (s.skeinOrder p0).kept = s.kept := by
  unfold State.skeinOrder
  simp

@[simp] theorem State.kept_fenceCmd (s : State) (p0 : Nat) : (s.fenceCmd p0).kept = s.kept := by
  unfold State.fenceCmd
  split <;> simp

@[simp] theorem State.kept_returnCmd (s : State) (p0 : Nat) : (s.returnCmd p0).kept = s.kept := by
  unfold State.returnCmd
  split <;> simp

@[simp] theorem State.kept_epochCmd (s : State) (e : Nat) : (s.epochCmd e).kept = s.kept := by
  unfold State.epochCmd
  simp

@[simp] theorem State.kept_snapCmd (s : State) (number t : Nat) (args : List Byte) : (s.snapCmd number t args).kept = s.kept := by
  unfold State.snapCmd
  simp

@[simp] theorem State.kept_sendCmd (s : State) (dest len : Nat) (payload : List Byte) (dmaOk : Bool) :
    (s.sendCmd dest len payload dmaOk).kept = s.kept := by
  unfold State.sendCmd
  simp

@[simp] theorem State.kept_fwWriteCmd (s : State) (off len : Nat) (data : List Byte) (dmaOk : Bool) :
    (s.fwWriteCmd off len data dmaOk).kept = s.kept := by
  unfold State.fwWriteCmd
  simp

@[simp] theorem State.kept_fwVerifyCmd (s : State) : s.fwVerifyCmd.kept = s.kept := by
  unfold State.fwVerifyCmd
  simp

@[simp] theorem State.kept_fwActivateCmd (s : State) : s.fwActivateCmd.kept = s.kept := by
  unfold State.fwActivateCmd
  simp

@[simp] theorem State.kept_fwEraseCmd (s : State) : s.fwEraseCmd.kept = s.kept := by
  unfold State.fwEraseCmd
  simp

@[simp] theorem State.kept_cmdDoorbell (s : State) (t : Nat) : (s.cmdDoorbell t).kept = s.kept := by
  unfold State.cmdDoorbell
  simp

@[simp] theorem State.kept_evtDoorbell (s : State) (h : Nat) : (s.evtDoorbell h).kept = s.kept := by
  unfold State.evtDoorbell
  simp

@[simp] theorem State.kept_logDoorbell (s : State) (h : Nat) : (s.logDoorbell h).kept = s.kept := by
  unfold State.logDoorbell
  simp

@[simp] theorem State.kept_streamLog (s : State) : s.streamLog.kept = s.kept := by
  unfold State.streamLog
  dsimp only
  split
  · rfl
  · split
    · rfl
    · rw [State.kept_msix]
      exact (State.kept_withRp _ _ rfl).trans (by simp)


@[simp] theorem State.kept_mgtRingStart (s : State) (a : Nat) : (s.mgtRingStart a).kept = s.kept := by
  unfold State.mgtRingStart
  simp

@[simp] theorem State.kept_ringCfgWrite (s : State) (a v : Nat) : (s.ringCfgWrite a v).kept = s.kept := by
  unfold State.ringCfgWrite
  simp

@[simp] theorem State.kept_trayNeighbour (s : State) (port ftype : Nat) (body : List Byte) :
    (s.trayNeighbour port ftype body).kept = s.kept := by
  unfold State.trayNeighbour
  simp

@[simp] theorem State.kept_traySync (s : State) (port : Nat) : (s.traySync port).kept = s.kept := by
  unfold State.traySync
  simp

@[simp] theorem State.kept_trayTime (s : State) (port fseq : Nat) (b : List Byte) : (s.trayTime port fseq b).kept = s.kept := by
  unfold State.trayTime
  simp

@[simp] theorem State.kept_trayAct (s : State) (port : Nat) (f : TrayFrame) : (s.trayAct port f).kept = s.kept := by
  unfold State.trayAct
  split <;> simp

@[simp] theorem State.kept_trayIn (s : State) (port : Nat) (f : TrayFrame) : (s.trayIn port f).kept = s.kept := by
  unfold State.trayIn
  simp

@[simp] theorem State.kept_trayLink (s : State) (port : Nat) (up : Bool) : (s.trayLink port up).kept = s.kept := by
  unfold State.trayLink
  simp

/-! ### Machine/Rings -/

@[simp] theorem State.kept_sqStore (s : State) (n t : Nat) : (s.sqStore n t).kept = s.kept := by
  unfold State.sqStore
  simp

@[simp] theorem State.kept_cqStore (s : State) (n h : Nat) : (s.cqStore n h).kept = s.kept := by
  unfold State.cqStore
  simp

@[simp] theorem State.kept_armStore (s : State) (n v : Nat) : (s.armStore n v).kept = s.kept := by
  unfold State.armStore
  simp

@[simp] theorem State.kept_bindJoin (s : State) (n sub raw : Nat) : (s.bindJoin n sub raw).kept = s.kept := by
  unfold State.bindJoin
  dsimp only
  split <;> simp

@[simp] theorem State.kept_beginDesc (s : State) (n sub raw : Nat) : (s.beginDesc n sub raw).kept = s.kept := by
  unfold State.beginDesc
  dsimp only
  split <;> simp

@[simp] theorem State.kept_startNext (s : State) (n : Nat) : (s.startNext n).kept = s.kept := by
  unfold State.startNext
  split <;> simp

@[simp] theorem State.kept_startFront (s : State) (n opc : Nat) : (s.startFront n opc).kept = s.kept := by
  unfold State.startFront
  simp

@[simp] theorem State.kept_unpark (s : State) (n sub : Nat) : (s.unpark n sub).kept = s.kept := by
  unfold State.unpark
  simp

@[simp] theorem State.kept_gateOpen (s : State) (n sub : Nat) : (s.gateOpen n sub).kept = s.kept := by
  unfold State.gateOpen
  split <;> simp

@[simp] theorem State.kept_waitOver (s : State) (n sub : Nat) : (s.waitOver n sub).kept = s.kept := by
  unfold State.waitOver
  split <;> simp

@[simp] theorem State.kept_serveStart (s : State) (n : Nat) : (s.serveStart n).kept = s.kept := by
  unfold State.serveStart
  split <;> simp

@[simp] theorem State.kept_refill (s : State) (n : Nat) : (s.refill n).kept = s.kept := by
  unfold State.refill
  simp

@[simp] theorem State.kept_setLast (s : State) (cls n : Nat) : (s.setLast cls n).kept = s.kept := by
  unfold State.setLast
  simp

@[simp] theorem State.kept_drrPick (n : Nat) (s : State) (x : Nat) (y : List Nat) :
    ∀ r t, s.drrPick n x y = some (r, t) → t.kept = s.kept := by
  induction n generalizing s y with
  | zero => simp [State.drrPick]
  | succ n ih =>
    intro r t ht
    cases y with
    | nil => simp [State.drrPick] at ht
    | cons q rest =>
      rw [State.drrPick] at ht
      split at ht
      · cases ht
        rfl
      · simpa using ih _ _ r t ht


@[simp] theorem State.kept_takeBurst (s : State) (k cls r : Nat) : (s.takeBurst k cls r).kept = s.kept := by
  unfold State.takeBurst
  split <;> simp

@[simp] theorem State.kept_serveRing (s : State) (k : Nat) : (s.serveRing k).kept = s.kept := by
  unfold State.serveRing
  dsimp only
  split
  · rfl
  · next r t h =>
    have hpick : t.kept = s.kept := State.kept_drrPick _ _ _ _ _ _ h
    simp [hpick]


@[simp] theorem State.kept_schedule (s : State) (k : Nat) : (s.schedule k).kept = s.kept := by
  unfold State.schedule
  split <;> simp

@[simp] theorem State.kept_ringStart (s : State) (n : Nat) : (s.ringStart n).kept = s.kept := by
  unfold State.ringStart
  simp

@[simp] theorem State.kept_ringStop (s : State) (n : Nat) : (s.ringStop n).kept = s.kept := by
  unfold State.ringStop
  simp

@[simp] theorem State.kept_ringCfg (s : State) (n v : Nat) : (s.ringCfg n v).kept = s.kept := by
  unfold State.ringCfg
  simp

@[simp] theorem State.kept_ringDrained (s : State) (n : Nat) : (s.ringDrained n).kept = s.kept := by
  unfold State.ringDrained
  simp

/-! ### Machine/Translate -/

@[simp] theorem State.kept_fetchFillsFrom (n : Nat) (s : State) : (s.fetchFillsFrom n).kept = s.kept := by
  induction n generalizing s with
  | zero => rfl
  | succ n ih =>
    unfold State.fetchFillsFrom
    repeat' (first | split | dsimp only)
    all_goals simp [ih]

@[simp] theorem State.kept_fetchFills (s : State) : s.fetchFills.kept = s.kept := by
  unfold State.fetchFills
  simp

@[simp] theorem State.kept_xltError (s : State) (code : Nat) : (s.xltError code).kept = s.kept := by
  unfold State.xltError
  simp

@[simp] theorem State.kept_dropFill (s : State) : s.dropFill.kept = s.kept := by
  unfold State.dropFill
  simp

@[simp] theorem State.kept_rejectFill (s : State) (count : Nat) (f : Fill) (reason : Nat) :
    (s.rejectFill count f reason).kept = s.kept := by
  unfold State.rejectFill
  simp

@[simp] theorem State.kept_settleFillsFrom (n : Nat) (s : State) : (s.settleFillsFrom n).kept = s.kept := by
  induction n generalizing s with
  | zero => rfl
  | succ n ih =>
    unfold State.settleFillsFrom
    repeat' (first | split | dsimp only)
    all_goals simp [ih]

@[simp] theorem State.kept_settleFills (s : State) : s.settleFills.kept = s.kept := by
  unfold State.settleFills
  simp

@[simp] theorem State.kept_takeFills (n : Nat) (s : State) : (s.takeFills n).kept = s.kept := by
  induction n generalizing s with
  | zero => rfl
  | succ n ih =>
    unfold State.takeFills
    repeat' (first | split | dsimp only)
    all_goals simp [ih]

@[simp] theorem State.kept_fillFetched (s : State) (first m : Nat) (data : List Byte) (ok : Bool) :
    (s.fillFetched first m data ok).kept = s.kept := by
  unfold State.fillFetched
  simp

@[simp] theorem State.kept_fillStore (s : State) (t : Nat) : (s.fillStore t).kept = s.kept := by
  unfold State.fillStore
  simp

@[simp] theorem State.kept_missStore (s : State) (h : Nat) : (s.missStore h).kept = s.kept := by
  unfold State.missStore
  simp

@[simp] theorem State.kept_xltArmStore (s : State) (v : Nat) : (s.xltArmStore v).kept = s.kept := by
  unfold State.xltArmStore
  simp

@[simp] theorem State.kept_doFillOut (s : State) (c : Nat) (f : Fill) : (s.doFillOut c f).kept = s.kept := by
  unfold State.doFillOut
  simp

@[simp] theorem State.kept_doFillIn (s : State) (c : Nat) (f : Fill) : (s.doFillIn c f).kept = s.kept := by
  unfold State.doFillIn
  simp

@[simp] theorem State.kept_doFillFault (s : State) (c : Nat) (f : Fill) : (s.doFillFault c f).kept = s.kept := by
  unfold State.doFillFault
  split <;> simp

@[simp] theorem State.kept_addDrain (s : State) (c : Nat) (f : Fill) : (s.addDrain c f).kept = s.kept := by
  unfold State.addDrain
  simp

@[simp] theorem State.kept_doInvTag (s : State) (c : Nat) (f : Fill) : (s.doInvTag c f).kept = s.kept := by
  unfold State.doInvTag
  simp

@[simp] theorem State.kept_invDone (s : State) : s.invDone.kept = s.kept := by
  unfold State.invDone
  split <;> simp

@[simp] theorem State.kept_doInvRange (s : State) (c w : Nat) (f : Fill) : (s.doInvRange c w f).kept = s.kept := by
  unfold State.doInvRange
  simp

@[simp] theorem State.kept_microAck (s : State) (m : Nat) : (s.microAck m).kept = s.kept := by
  unfold State.microAck
  split <;> simp

@[simp] theorem State.kept_drainedNow (s : State) (tag : Nat) : (s.drainedNow tag).kept = s.kept := by
  unfold State.drainedNow
  split <;> simp

@[simp] theorem State.kept_doRemoveIn (s : State) (c : Nat) (f : Fill) : (s.doRemoveIn c f).kept = s.kept := by
  unfold State.doRemoveIn
  simp

@[simp] theorem State.kept_inRemovedNow (s : State) : s.inRemovedNow.kept = s.kept := by
  unfold State.inRemovedNow
  split <;> simp

@[simp] theorem State.kept_doFill (s : State) (op : Nat) : (s.doFill op).kept = s.kept := by
  unfold State.doFill
  repeat' split
  all_goals simp

@[simp] theorem State.kept_xltStart (s : State) : s.xltStart.kept = s.kept := by
  unfold State.xltStart
  simp

@[simp] theorem State.kept_xltStop (s : State) : s.xltStop.kept = s.kept := by
  unfold State.xltStop
  simp

@[simp] theorem State.kept_xltCtl (s : State) (v : Nat) : (s.xltCtl v).kept = s.kept := by
  unfold State.xltCtl
  simp

@[simp] theorem State.kept_missTimeout (s : State) (id : Nat) : (s.missTimeout id).kept = s.kept := by
  unfold State.missTimeout
  split <;> simp

/-! ### Machine/RegWrite -/

@[simp] theorem State.kept_plainRp (s : State) (a v : Nat) : (s.plainRp a v).kept = s.kept := by
  unfold State.plainRp
  split <;> simp

@[simp] theorem State.kept_plainEp (s : State) (a v : Nat) : (s.plainEp a v).kept = s.kept := by
  unfold State.plainEp
  split <;> simp

@[simp] theorem State.kept_budWrite (s : State) (k a v : Nat) : (s.budWrite k a v).kept = s.kept := by
  unfold State.budWrite
  simp

@[simp] theorem State.kept_sealWrite (s : State) (a v : Nat) : (s.sealWrite a v).kept = s.kept := by
  unfold State.sealWrite
  simp

@[simp] theorem State.kept_msixWrite (s : State) (a v : Nat) : (s.msixWrite a v).kept = s.kept := by
  unfold State.msixWrite
  simp

@[simp] theorem State.kept_epEffect (s : State) (a v : Nat) : (s.epEffect a v).kept = s.kept := by
  unfold State.epEffect
  dsimp only
  cases arrayIndex 0x61000 0x100 8 a
  · simp
  · simp


@[simp] theorem State.kept_epWord (s : State) (a v : Nat) (wr : Writer) : (s.epWord a v wr).kept = s.kept := by
  unfold State.epWord
  simp

@[simp] theorem State.kept_epStore (s : State) (a n v : Nat) (wr : Writer) : (s.epStore a n v wr).kept = s.kept := by
  unfold State.epStore
  simp

/-! ### Machine/AttachOps -/

@[simp] theorem State.kept_accessDone (s : State) (u : AttUse) (sentAt : Nat) (data : List Byte) (ok : Bool) :
    (s.accessDone u sentAt data ok).kept = s.kept := by
  unfold State.accessDone
  split <;> simp

@[simp] theorem State.kept_accessOver (s : State) (x : AttTag) (data : List Byte) (ok : Bool) :
    (s.accessOver x data ok).kept = s.kept := by
  unfold State.accessOver
  simp

@[simp] theorem State.kept_attPump (s : State) : s.attPump.kept = s.kept := by
  unfold State.attPump
  simp

@[simp] theorem State.kept_dropTag (s : State) (tag : Nat) : (s.dropTag tag).kept = s.kept := by
  unfold State.dropTag
  simp

@[simp] theorem State.kept_setTag (s : State) (tag : Nat) (x : AttTag) : (s.setTag tag x).kept = s.kept := by
  unfold State.setTag
  simp

@[simp] theorem State.kept_cplTaken (s : State) (k : Nat) : (s.cplTaken k).kept = s.kept := by
  unfold State.cplTaken
  simp

@[simp] theorem State.kept_cplIn (s : State) (t : Txn) : (s.cplIn t).kept = s.kept := by
  unfold State.cplIn
  dsimp only
  split <;> simp

@[simp] theorem State.kept_cpldIn (s : State) (t : Txn) : (s.cpldIn t).kept = s.kept := by
  unfold State.cpldIn
  dsimp only
  split <;> simp

@[simp] theorem State.kept_accTimeout (s : State) (tag : Nat) : (s.accTimeout tag).kept = s.kept := by
  unfold State.accTimeout
  split <;> simp

@[simp] theorem State.kept_attDown (s : State) : s.attDown.kept = s.kept := by
  unfold State.attDown
  simp

@[simp] theorem State.kept_windowLoad (s : State) (t : Txn) (at_ : Nat) : (s.windowLoad t at_).kept = s.kept := by
  unfold State.windowLoad
  split <;> simp

@[simp] theorem State.kept_windowStore (s : State) (t : Txn) : (s.windowStore t).kept = s.kept := by
  unfold State.windowStore
  split <;> simp

@[simp] theorem State.kept_fenceLoad (s : State) (t : Txn) (at_ : Nat) : (s.fenceLoad t at_).kept = s.kept := by
  unfold State.fenceLoad
  simp

@[simp] theorem State.kept_registerLoad (s : State) (t : Txn) (at_ : Nat) : (s.registerLoad t at_).kept = s.kept := by
  unfold State.registerLoad
  simp

@[simp] theorem State.kept_a2pServe (s : State) (t : Txn) (at_ : Nat) : (s.a2pServe t at_).kept = s.kept := by
  unfold State.a2pServe
  simp

@[simp] theorem State.kept_a2pRun (n : Nat) (s : State) : (s.a2pRun n).kept = s.kept := by
  induction n generalizing s with
  | zero => rfl
  | succ n ih =>
    unfold State.a2pRun
    repeat' (first | split | dsimp only)
    all_goals simp [ih]

@[simp] theorem State.kept_a2pGo (s : State) : s.a2pGo.kept = s.kept := by
  unfold State.a2pGo
  simp

@[simp] theorem State.kept_malformed (s : State) (h : BitVec 128) (t : Txn) (vc : Option Nat) (credit : Bool) :
    (s.malformed h t vc credit).kept = s.kept := by
  unfold State.malformed
  simp

@[simp] theorem State.kept_requestIn (s : State) (h : BitVec 128) (t : Txn) : (s.requestIn h t).kept = s.kept := by
  unfold State.requestIn
  simp

@[simp] theorem State.kept_txnIn (s : State) (h : BitVec 128) (t : Txn) : (s.txnIn h t).kept = s.kept := by
  unfold State.txnIn
  simp

@[simp] theorem State.kept_txnArrives (s : State) (t : Txn) : (s.txnArrives t).kept = s.kept := by
  unfold State.txnArrives
  simp

@[simp] theorem State.kept_loadTimeout (s : State) (rid tag : Nat) : (s.loadTimeout rid tag).kept = s.kept := by
  unfold State.loadTimeout
  dsimp only
  repeat' split
  all_goals simp

@[simp] theorem State.kept_takeChunks (n : Nat) (s : State) : (s.takeChunks n).kept = s.kept := by
  induction n generalizing s with
  | zero => rfl
  | succ n ih =>
    unfold State.takeChunks
    repeat' (first | split | dsimp only)
    all_goals simp [ih]

@[simp] theorem State.kept_flitTotals (s : State) (f : Flit) : (s.flitTotals f).kept = s.kept := by
  unfold State.flitTotals
  simp

@[simp] theorem State.kept_sendNak (s : State) : s.sendNak.kept = s.kept := by
  unfold State.sendNak
  simp

@[simp] theorem State.kept_flitBad (s : State) : s.flitBad.kept = s.kept := by
  unfold State.flitBad
  simp

@[simp] theorem State.kept_resendHeld (s : State) (l : List (Nat × List (BitVec 128))) : (s.resendHeld l).kept = s.kept := by
  unfold State.resendHeld
  simp

@[simp] theorem State.kept_nakIn (s : State) (seq : Nat) : (s.nakIn seq).kept = s.kept := by
  unfold State.nakIn
  simp

@[simp] theorem State.kept_initIn (s : State) (p : InitParams) : (s.initIn p).kept = s.kept := by
  unfold State.initIn
  simp

@[simp] theorem State.kept_initAckIn (s : State) : s.initAckIn.kept = s.kept := by
  unfold State.initAckIn
  simp

@[simp] theorem State.kept_controlTaken (s : State) (f : Flit) (act : State → State) (h : ∀ t, (act t).kept = t.kept) :
    (s.controlTaken f act).kept = s.kept := by
  unfold State.controlTaken
  simp [h]

@[simp] theorem State.kept_controlIn (s : State) (f : Flit) : (s.controlIn f).kept = s.kept := by
  unfold State.controlIn
  simp

@[simp] theorem State.kept_flitIn (s : State) (f : Flit) : (s.flitIn f).kept = s.kept := by
  unfold State.flitIn
  simp

@[simp] theorem State.kept_retrain (s : State) : s.retrain.kept = s.kept := by
  unfold State.retrain
  simp

@[simp] theorem State.kept_retrainOver (s : State) : s.retrainOver.kept = s.kept := by
  unfold State.retrainOver
  split <;> simp

@[simp] theorem State.kept_moduleTrained (s : State) (m rate : Nat) : (s.moduleTrained m rate).kept = s.kept := by
  unfold State.moduleTrained
  dsimp only
  repeat' split
  all_goals simp

@[simp] theorem State.kept_sendInit (s : State) : s.sendInit.kept = s.kept := by
  unfold State.sendInit
  simp

@[simp] theorem State.kept_exchangeDone (s : State) (version : Nat) (fit4 : Bool) : (s.exchangeDone version fit4).kept = s.kept := by
  unfold State.exchangeDone
  repeat' split
  all_goals simp

@[simp] theorem State.kept_initAgain (s : State) : s.initAgain.kept = s.kept := by
  unfold State.initAgain
  simp

/-! ### Machine/Skein -/

@[simp] theorem State.kept_skeinCmd (s : State) (v : Nat) (wr : Writer) : (s.skeinCmd v wr).kept = s.kept := by
  unfold State.skeinCmd
  simp

/-! ### Machine/SwitchOps -/

@[simp] theorem State.kept_setEddy (s : State) (p : Nat) (l : List EddyEnt) : (s.setEddy p l).kept = s.kept := by
  unfold State.setEddy
  simp

@[simp] theorem State.kept_settleEddy (s : State) (p : Nat) (l : List EddyEnt) : (s.settleEddy p l).kept = s.kept := by
  unfold State.settleEddy
  simp

@[simp] theorem State.kept_abandonOutput (s : State) (p : Nat) (l : List EddyEnt) : (s.abandonOutput p l).kept = s.kept := by
  unfold State.abandonOutput
  rw [State.kept_foldl _ fun t x => ?_]
  · simp
  · split <;> simp


@[simp] theorem State.kept_anaCopy (s : State) (p : Nat) (entering : Bool) (c : Container) : (s.anaCopy p entering c).kept = s.kept := by
  unfold State.anaCopy
  simp

@[simp] theorem State.kept_anaSlot (s : State) (p : Nat) : (s.anaSlot p).kept = s.kept := by
  unfold State.anaSlot
  repeat' split
  all_goals simp

@[simp] theorem State.kept_rpWeftSlot (s : State) (p : Nat) (l : List EddyEnt) : (s.rpWeftSlot p l).kept = s.kept := by
  unfold State.rpWeftSlot
  dsimp only
  repeat' split
  all_goals simp

@[simp] theorem State.kept_rpWarpSlot (s : State) (p : Nat) (l : List EddyEnt) : (s.rpWarpSlot p l).kept = s.kept := by
  unfold State.rpWarpSlot
  dsimp only
  split <;> simp

@[simp] theorem State.kept_rpPortSlot (s : State) (p : Nat) (l : List EddyEnt) : (s.rpPortSlot p l).kept = s.kept := by
  unfold State.rpPortSlot
  repeat' split
  all_goals simp

@[simp] theorem State.kept_rpSlots (s : State) : s.rpSlots.kept = s.kept := by
  unfold State.rpSlots
  simp

@[simp] theorem State.kept_setTxq (s : State) (p : Nat) (q : TxQ) : (s.setTxq p q).kept = s.kept := by
  unfold State.setTxq
  simp

@[simp] theorem State.kept_epRequestOut (s : State) (p id : Nat) (c : Container) (q : TxQ) : (s.epRequestOut p id c q).kept = s.kept := by
  unfold State.epRequestOut
  simp

@[simp] theorem State.kept_epWeftSend (s : State) (p : Nat) : (s.epWeftSend p).kept = s.kept := by
  unfold State.epWeftSend
  dsimp only
  repeat' split
  all_goals simp

@[simp] theorem State.kept_epPortSlot (s : State) (p : Nat) : (s.epPortSlot p).kept = s.kept := by
  unfold State.epPortSlot
  dsimp only
  repeat' split
  all_goals simp

@[simp] theorem State.kept_fillIn (s : State) (p : Part) (port : Nat) : (s.fillIn p port).kept = s.kept := by
  unfold State.fillIn
  simp

@[simp] theorem State.kept_localIn (s : State) (p : Nat) (c : Container) : (s.localIn p c).kept = s.kept := by
  unfold State.localIn
  simp

@[simp] theorem State.kept_homeIn (s : State) : s.homeIn.kept = s.kept := by
  unfold State.homeIn
  simp

@[simp] theorem State.kept_eddyExpire (s : State) (p : Nat) : (s.eddyExpire p).kept = s.kept := by
  unfold State.eddyExpire
  simp

@[simp] theorem State.kept_police (s : State) (p : Nat) (c : Container) : (s.police p c).2.kept = s.kept := by
  unfold State.police
  split <;> simp

@[simp] theorem State.kept_routeIn (s : State) (p : Nat) (c : Container) : (s.routeIn p c).kept = s.kept := by
  unfold State.routeIn
  dsimp only
  split <;> simp

@[simp] theorem State.kept_weftIn (s : State) (p : Nat) (c : Container) : (s.weftIn p c).kept = s.kept := by
  unfold State.weftIn
  simp

@[simp] theorem State.kept_rpContainerIn (s : State) (p : Nat) (c : Container) : (s.rpContainerIn p c).kept = s.kept := by
  unfold State.rpContainerIn
  dsimp only
  repeat' split
  all_goals simp

@[simp] theorem State.kept_portFrame (s : State) (p : Part) (port : Nat) : (s.portFrame p port).kept = s.kept := by
  unfold State.portFrame
  simp

@[simp] theorem State.kept_loadBudgets (s : State) : s.loadBudgets.kept = s.kept := by
  unfold State.loadBudgets
  simp

@[simp] theorem State.kept_frameClear (s : State) : s.frameClear.kept = s.kept := by
  rfl

@[simp] theorem State.kept_powerKeep (s : State) : s.powerKeep.kept = s.kept := by
  unfold State.powerKeep
  simp

/-! ### Machine/Weft -/

@[simp] theorem State.kept_reachable (s : State) (dest plane : Nat) : (s.reachable dest plane).kept = s.kept := by
  unfold State.reachable
  simp

@[simp] theorem State.kept_epContainerIn (s : State) (p : Nat) (c : Container) : (s.epContainerIn p c).kept = s.kept := by
  unfold State.epContainerIn
  simp

end Sys2Proof.Machine
end

section
/-! What every command keeps (R249, R398, R410): memory in canonical form, the queue as it is, and only writable words in the write queue of
the persistent store. -/

namespace Sys2Proof.Machine

open Sys2Proof Sys2Proof.Claims

/-- From `s` to `t` the queue stays as it is, and the invariant's two other parts are kept. -/
structure State.Keeps (s t : State) : Prop where
  pending : t.pending = s.pending
  mem : s.memWf = true → t.memWf = true
  store : s.pstQueueWf = true → t.pstQueueWf = true

theorem State.Keeps.refl (s : State) : s.Keeps s := ⟨rfl, id, id⟩

theorem State.Keeps.trans {s t u : State} (h : s.Keeps t) (k : t.Keeps u) : s.Keeps u :=
  ⟨k.pending.trans h.pending, k.mem ∘ h.mem, k.store ∘ h.store⟩

theorem State.keeps_of_kept {s t : State} (h : t.kept = s.kept) : s.Keeps t := by
  obtain ⟨-, hpending, hmem, hstore⟩ : t.now = s.now ∧ t.pending = s.pending ∧ t.hbm = s.hbm ∧ t.rp.pst.queue = s.rp.pst.queue := by
    simpa [State.kept] using h
  exact ⟨hpending, by simp [State.memWf, hmem], by simp [State.pstQueueWf, hstore]⟩

/-- A step that changes nothing of what is kept, after others. -/
theorem State.Keeps.then {s t u : State} (h : s.Keeps t) (k : u.kept = t.kept) : s.Keeps u := h.trans (State.keeps_of_kept k)

theorem State.keeps_foldl {α : Type} (g : State → α → State) (h : ∀ (t : State) x, t.Keeps (g t x)) (l : List α) (s : State) :
    s.Keeps (l.foldl g s) := by
  induction l generalizing s with
  | nil => exact .refl s
  | cons x r ih => exact (h s x).trans (ih _)

theorem State.keeps_ite {s t u : State} {c : Prop} [Decidable c] (ht : s.Keeps t) (hu : s.Keeps u) : s.Keeps (if c then t else u) := by
  split
  · exact ht
  · exact hu

/-! ### Memory -/

theorem State.keeps_hbmWrite (s : State) (a : Nat) (d : List Byte) : s.Keeps (s.hbmWrite a d) := ⟨rfl, s.memWf_hbmWrite a d, id⟩

theorem State.keeps_settleLine (s : State) (line : Nat) : s.Keeps (s.settleLine line) := by
  unfold State.settleLine
  exact State.keeps_ite ((s.keeps_hbmWrite _ _).then (State.kept_modFm _ _)) (.refl s)

theorem State.keeps_memWrite (s : State) (a : Nat) (d : List Byte) : s.Keeps (s.memWrite a d) := by
  unfold State.memWrite
  refine State.Keeps.then (State.keeps_ite (s.keeps_hbmWrite a d) ?_) (State.kept_modFm _ _)
  exact ((State.keeps_foldl _ State.keeps_settleLine _ s).trans (State.keeps_hbmWrite _ a d)).then (State.kept_sealLines _ _)

theorem State.keeps_memZero (s : State) (a n : Nat) : s.Keeps (s.memZero a n) := ⟨rfl, s.memWf_memZero a n, id⟩

theorem State.keeps_winWrite (s : State) (i v : Nat) : s.Keeps (s.winWrite i v) :=
  State.keeps_ite (s.keeps_memWrite _ _) (.refl s)

theorem State.keeps_zeroed (s : State) : s.Keeps s.zeroed := by
  unfold State.zeroed
  split
  · exact .refl s
  · dsimp only
    refine State.keeps_ite (.refl s) (State.Keeps.then ?_ (State.kept_fmhError _ _ _ _ _))
    refine State.Keeps.then (State.Keeps.then ?_ (State.kept_setFlag _ _ _ _ _)) (State.kept_modFm _ _)
    exact State.keeps_ite (s.keeps_memZero _ _) (.refl s)

/-! ### The memory agent -/

theorem State.keeps_agentExec (s : State) (a : Arrival) : s.Keeps (s.agentExec a) := by
  unfold State.agentExec
  dsimp only
  refine State.keeps_ite (State.keeps_of_kept (by simp)) (State.keeps_ite (State.keeps_of_kept (by simp))
    (State.keeps_ite (State.keeps_of_kept (by simp)) (State.keeps_ite (State.keeps_of_kept (by simp))
    (State.keeps_ite (State.keeps_of_kept (by simp)) (State.keeps_ite (State.keeps_of_kept (by simp))
    (State.keeps_ite (State.keeps_of_kept (by simp)) (State.keeps_ite ?_ ?_)))))))
  · exact (s.keeps_memWrite a.msg.offset (sliceBytes a.msg.data 0 a.msg.len)).then (by simp)
  · refine State.Keeps.then (s.keeps_memWrite a.msg.offset ?_) ?_
    rotate_left
    · rw [State.kept_agentDone, State.kept_hcntSet, State.kept_modFmDest]

theorem State.keeps_agentRun (s : State) (a : Arrival) : s.Keeps (s.agentRun a) :=
  State.keeps_ite (State.keeps_of_kept (by simp)) ((State.keeps_of_kept (by simp)).trans (State.keeps_agentExec _ a))

theorem State.keeps_agentCtx (n : Nat) (s : State) : s.Keeps (s.agentCtx n) := by
  induction n generalizing s with
  | zero => exact .refl s
  | succ n ih =>
    rw [State.agentCtx]
    split
    · exact ((State.keeps_of_kept (by simp)).trans (State.keeps_agentRun _ _)).trans (ih _)
    · exact .refl s

theorem State.keeps_agentGo (s : State) : s.Keeps s.agentGo := s.keeps_agentCtx _

theorem State.keeps_agentFrame (s : State) : s.Keeps s.agentFrame := by
  unfold State.agentFrame
  refine State.Keeps.then (State.Keeps.trans ?_ (State.keeps_agentGo _)) (State.kept_relaysGo _)
  exact (State.keeps_of_kept (by simp)).trans (State.keeps_foldl _ State.keeps_agentRun _ _)

theorem State.keeps_agentMessage (s : State) (a : Arrival) : s.Keeps (s.agentMessage a) := by
  unfold State.agentMessage
  split
  · exact State.keeps_ite (State.keeps_of_kept (by simp)) ((State.keeps_of_kept (by simp)).trans (State.keeps_agentRun _ a))
  · exact State.keeps_of_kept (by simp)
  · exact State.keeps_of_kept (by simp)
  · refine State.keeps_ite (s.keeps_agentRun _) (State.keeps_ite ?_ (State.keeps_of_kept (by simp)))
    split <;> exact State.keeps_of_kept (by simp)

theorem State.keeps_agentTake (s : State) (port : Nat) (c : Container) : s.Keeps (s.agentTake port c) := by
  unfold State.agentTake
  dsimp only
  refine State.keeps_ite (.refl s) (State.keeps_ite (State.keeps_of_kept (by simp)) (State.keeps_ite (State.keeps_of_kept (by simp)) ?_))
  refine State.Keeps.trans (State.Keeps.trans (State.keeps_of_kept ?_) (State.keeps_foldl _ (fun t m => State.keeps_agentMessage _ _) _ _))
    (State.keeps_agentGo _)
  simp

/-! ### Shadows of the warp plane in memory -/

theorem State.keeps_shadowTallies (s : State) : s.Keeps s.shadowTallies := by
  unfold State.shadowTallies
  refine State.Keeps.trans (State.keeps_of_kept (by simp)) (State.keeps_foldl _ (fun u e => ?_) _ _)
  split
  · exact .refl u
  · exact State.keeps_ite (.refl u) ((u.keeps_memWrite _ _).then (State.kept_shadowOwed _ _ _))

theorem State.keeps_shadowWrite (s : State) (pat skein a : Nat) (d : List Byte) : s.Keeps (s.shadowWrite pat skein a d) :=
  (s.keeps_memWrite a d).then (by simp [State.shadowWrite])

theorem State.keeps_shadowCell (s : State) (c : WarpCell) : s.Keeps (s.shadowCell c) := by
  unfold State.shadowCell
  split
  · exact .refl s
  · exact State.keeps_ite (.refl s) (s.keeps_shadowWrite _ _ _ _)

theorem State.keeps_emitCell (s : State) (n : Nat) (c : WarpCell) : s.Keeps (s.emitCell n c) := by
  unfold State.emitCell
  dsimp only
  have hcell : s.Keeps (((s.emitPorts n 0).foldl (fun t p => t.fly p.2 (.port p.1) (.data c)) s).shadowCell c) :=
    (State.keeps_of_kept (by simp)).trans (State.keeps_shadowCell _ c)
  split
  · exact hcell
  · exact State.keeps_ite hcell (hcell.then (by simp))

theorem State.keeps_spindleEmit (s : State) (n : Nat) : s.Keeps (s.spindleEmit n) := by
  unfold State.spindleEmit
  split
  · exact .refl s
  · dsimp only
    split
    · exact State.keeps_of_kept (by simp)
    · exact (State.keeps_of_kept (by simp)).trans (State.keeps_emitCell _ n _)

theorem State.keeps_moveTally (s : State) (c : WarpCell) : s.Keeps (s.moveTally c).1 := by
  unfold State.moveTally
  split
  · exact .refl s
  · split
    · exact .refl s
    · split
      · exact State.keeps_of_kept (by simp)
      · exact (State.keeps_of_kept (by simp)).trans (State.keeps_shadowCell _ c)

theorem State.keeps_rpWarpIn (s : State) (p : Nat) (c : WarpCell) : s.Keeps (s.rpWarpIn p c) := by
  unfold State.rpWarpIn
  dsimp only
  refine State.keeps_ite (State.keeps_of_kept (by simp)) (State.keeps_ite (.refl s) (State.keeps_ite
    (State.keeps_ite (State.keeps_of_kept (by simp)) (.refl s)) (State.keeps_ite (State.keeps_of_kept (by simp)) ?_)))
  refine State.Keeps.then (State.Keeps.trans (State.keeps_of_kept ?_) (State.keeps_moveTally _ c)) (State.kept_deliverAt _ _ _ _)
  simp

theorem State.keeps_rpCellIn (s : State) (p : Nat) (c : WarpCell) : s.Keeps (s.rpCellIn p c) := by
  unfold State.rpCellIn
  dsimp only
  refine State.keeps_ite (.refl s) (State.keeps_ite (State.keeps_of_kept (by simp)) ?_)
  exact State.Keeps.trans (State.keeps_of_kept (by simp)) (State.keeps_rpWarpIn _ p c)

/-! ### The persistent store (R398, R399) -/

/-- A store whose write queue has lost entries. -/
theorem State.keeps_pstDropped (s : State) (q : List (Nat × Word)) (h : q ⊆ s.rp.pst.queue) :
    s.Keeps { s with rp := { s.rp with pst := { s.rp.pst with queue := q } } } where
  pending := rfl
  mem := id
  store hs := List.all_eq_true.mpr fun e he => List.all_eq_true.mp hs e (h he)

theorem State.keeps_pstPersist (s : State) : s.Keeps s.pstPersist := by
  unfold State.pstPersist
  split
  · exact .refl s
  · next e q h => exact (s.keeps_pstDropped q (by simp [h])).then (State.kept_pstCell _ _ _)

theorem State.keeps_pstFlush (s : State) : s.Keeps s.pstFlush :=
  (s.keeps_pstDropped [] (List.nil_subset _)).then (State.kept_foldl _ (fun t _ => t.kept_pstCell _ _) _ _)

theorem State.keeps_pstDrain (s : State) (a : Nat) : s.Keeps (s.pstDrain a) :=
  (s.keeps_pstDropped _ (List.filter_subset_self _)).then (State.kept_foldl _ (fun t _ => t.kept_pstCell _ _) _ _)

/-- A write to a word that software may write (R410). -/
theorem State.keeps_pstWrite (s : State) (a v : Nat) (wr : Writer) (h : ((rpRow a).any fun r => r.1.rwp != 0) = true) :
    s.Keeps (s.pstWrite a v wr) := by
  unfold State.pstWrite
  dsimp only
  refine State.keeps_ite (State.keeps_of_kept (by simp)) ?_
  generalize hs0 : (if 64 ≤ s.rp.pst.queue.length then s.pstPersist else s) = s0
  have hkeep : s.Keeps s0 := hs0 ▸ State.keeps_ite s.keeps_pstPersist (.refl s)
  have hqueued : s.Keeps { s0 with rp := { s0.rp with pst := { s0.rp.pst with
      queue := s0.rp.pst.queue ++ [(a, BitVec.ofNat 32 v)] } } } := by
    refine hkeep.trans ⟨rfl, id, fun hs => ?_⟩
    rw [State.pstQueueWf] at hs ⊢
    simp only [List.all_append, hs, List.all_cons, h, List.all_nil, Bool.and_self]
  split
  · exact hqueued
  · exact hqueued.then (State.kept_foldl _ (fun t b => t.kept_freeUnit _) _ _)

theorem State.keeps_selfTestFailed (s : State) (i : Nat) : s.Keeps (s.selfTestFailed i) := by
  unfold State.selfTestFailed
  dsimp only
  refine State.Keeps.then (State.keeps_ite ?_ (State.keeps_of_kept (by simp))) (State.kept_qFail _ _ _)
  exact ((State.keeps_of_kept (by simp)).trans (State.keeps_pstDrain _ _)).then (State.kept_pstCell _ _ _)

/-! ### Dies, sleep and resets -/

theorem State.keeps_dieLost (s : State) (d : Nat) : s.Keeps (s.dieLost d) where
  pending := rfl
  mem hs := SMap.wf_filter _ s.hbm _ hs
  store := id

theorem State.keeps_dieOff (s : State) (d : Nat) : s.Keeps (s.dieOff d) :=
  (s.keeps_dieLost d).then (by simp [State.dieOff])

theorem State.keeps_resetDie (s : State) (d cause : Nat) : s.Keeps (s.resetDie d cause) := by
  unfold State.resetDie
  dsimp only
  refine State.Keeps.then (State.Keeps.then (State.Keeps.then (State.Keeps.then ?_ (State.kept_foldl _ (fun t r => ?_) _ _))
    (State.kept_showUnits _ _ _)) (State.kept_showUnits _ _ _)) (State.kept_partEventFor _ _ _ _ _ _)
  · exact (State.keeps_of_kept (State.kept_modUnits s _)).trans (State.keeps_dieLost _ d)
  · exact State.kept_resetRegionAt _ _ _ _

theorem State.keeps_powerGoodLost (s : State) (d : Nat) : s.Keeps (s.powerGoodLost d) :=
  State.keeps_ite ((State.keeps_of_kept (by simp)).trans (State.keeps_resetDie _ d 4)) (.refl s)

theorem State.keeps_sleepCmd (s : State) : s.Keeps s.sleepCmd := by
  refine State.keeps_ite (State.Keeps.then (State.Keeps.then (State.Keeps.then (State.Keeps.then (State.Keeps.then ?_
    (State.kept_showUnits _ _ _)) (State.kept_enablesOff _)) (State.kept_hubAsleep _)) (State.kept_timeAsleep _))
    (State.kept_setFld _ _ _ _ _ _)) (.refl s)
  exact (State.keeps_of_kept (State.kept_foldl _ (fun t n => t.kept_fencePort n 5) _ s)).trans (State.keeps_foldl _ State.keeps_dieOff _ _)

theorem State.keeps_wakeWrite (s : State) (v : Nat) : s.Keeps (s.wakeWrite v) := by
  unfold State.wakeWrite
  dsimp only
  generalize hs1 : s.setFld .ronpex Reg.timWake 4 2 (bits 4 2 v) = s1
  have hwoken : s.Keeps (if bits 0 2 v = 1 then s1.sleepCmd else if bits 0 2 v = 2 then s1.wakeCmd else s1) := by
    refine State.Keeps.trans (State.keeps_of_kept (by simp [← hs1])) (State.keeps_ite s1.keeps_sleepCmd ?_)
    exact State.keeps_of_kept (by simp)
  exact State.keeps_ite (hwoken.then (by simp)) hwoken

theorem State.keeps_supplyTrip (s : State) (volt charge : Nat) : s.Keeps (s.supplyTrip volt charge) := by
  unfold State.supplyTrip
  dsimp only
  refine State.keeps_ite (.refl s) (State.Keeps.then (State.Keeps.trans ?_ (State.keeps_foldl _ State.keeps_dieOff _ _))
    (State.kept_modPower _ _))
  exact (s.keeps_pstFlush).then ((State.kept_enablesOff _).trans (State.kept_withRp _ _ rfl))

theorem State.keeps_packageReset (s : State) (powerUp tripped pin : Bool) (tripClear : Nat) :
    s.Keeps (s.packageReset powerUp tripped pin tripClear) where
  pending := s.keeps_pstFlush.pending
  mem _ := rfl
  store := s.keeps_pstFlush.store

theorem State.keeps_pkgResetPin (s : State) : s.Keeps s.pkgResetPin :=
  (State.keeps_of_kept (State.kept_returnToken _)).trans (State.keeps_packageReset _ _ _ _ _)

theorem State.keeps_thermTrip (s : State) : s.Keeps s.thermTrip :=
  State.keeps_ite (.refl s) ((State.keeps_of_kept (State.kept_pstCount _ _ _ _)).trans (State.keeps_packageReset _ _ _ _ _))

theorem State.keeps_siteFault (s : State) (x : FaultSite) : s.Keeps (s.siteFault x) := by
  cases x with
  | unit i => exact State.keeps_of_kept (by simp [State.siteFault])
  | cluster k => exact State.keeps_of_kept (by simp [State.siteFault])
  | region r => exact State.keeps_of_kept (by simp [State.siteFault])
  | die d => exact State.keeps_ite (s.keeps_resetDie d 4) (.refl s)

theorem State.keeps_quarantineStep (s : State) (i : Nat) (passed : Bool) : s.Keeps (s.quarantineStep i passed) := by
  unfold State.quarantineStep
  dsimp only
  refine State.keeps_ite (.refl s) (State.keeps_ite (State.keeps_ite (s.keeps_selfTestFailed i) (.refl s)) ?_)
  split
  · exact State.keeps_ite (s.keeps_selfTestFailed i) (State.keeps_of_kept (by simp))
  · exact State.keeps_of_kept (by simp)
  · split
    · exact .refl s
    · next s1 h => 
      have hlife := s.kept_newLife i s1 h
      exact State.keeps_of_kept (by simp [hlife])
  · exact State.keeps_of_kept (by simp)
  · exact .refl s

theorem State.keeps_resetCmd (s : State) (p0 : Nat) : s.Keeps (s.resetCmd p0) := by
  unfold State.resetCmd
  dsimp only
  refine State.keeps_ite (State.keeps_ite (State.keeps_of_kept (by simp)) (State.keeps_ite (State.keeps_of_kept (by simp)) ?_))
    (State.keeps_of_kept (by simp))
  exact (State.keeps_of_kept (by simp)).trans (State.keeps_resetDie _ _ _)

/-! ### Register writes -/

theorem State.keeps_hubArray (s : State) (a v : Nat) (wr : Writer) : s.Keeps (s.hubArray a v wr) := by
  unfold State.hubArray
  repeat' split
  all_goals first | exact s.keeps_winWrite _ v | exact State.keeps_of_kept (by simp)

theorem State.keeps_hubWrite (s : State) (a v : Nat) (wr : Writer) : s.Keeps (s.hubWrite a v wr) := by
  have hplain {t : State} (h : t.kept = s.kept) : s.Keeps t := State.keeps_of_kept h
  unfold State.hubWrite
  refine State.keeps_ite (hplain (by simp)) (State.keeps_ite (hplain (by simp)) (State.keeps_ite (hplain (by simp))
    (State.keeps_ite (hplain (by simp)) (State.keeps_ite (hplain (by simp)) (State.keeps_ite (hplain (by simp))
    (State.keeps_ite (hplain (by simp)) (State.keeps_ite (.refl s) (State.keeps_ite (hplain (by simp))
    (State.keeps_ite (s.keeps_wakeWrite v) (State.keeps_ite (hplain (by simp)) (State.keeps_ite (hplain (by simp))
    (State.keeps_ite (hplain (by simp)) (State.keeps_ite (hplain (by simp)) (State.keeps_ite ?_ (s.keeps_hubArray a v wr)))))))))))))))
  split
  · exact .refl s
  · next r l h =>
    split
    · exact .refl s
    · next hr => exact s.keeps_pstWrite a _ wr (by simpa [h] using hr)

theorem State.keeps_wrote (s : State) (p : Part) (a v : Nat) (w : Writer) (f : State → State) (h : ∀ t : State, t.Keeps (f t)) :
    s.Keeps (s.wrote p a v w f) := by
  obtain hnone | hlog | heffect := s.wrote_cases p a v w f
  · rw [hnone]
    exact .refl s
  · rw [hlog]
    exact State.keeps_of_kept (State.kept_logWrite _ _ _ _ _)
  · rw [heffect]
    exact (State.keeps_of_kept (State.kept_logWrite _ _ _ _ _)).trans (h _)

theorem State.keeps_rpEffect (s : State) (a v : Nat) (wr : Writer) : s.Keeps (s.rpEffect a v wr) := by
  unfold State.rpEffect
  split
  · exact .refl s
  · exact s.keeps_hubWrite _ v wr
  all_goals exact State.keeps_of_kept (by simp)

/-- A word of the store at which a write is a violation is one that software may write. -/
theorem State.writable_of_rpViolates (s : State) (a : Nat) (h : s.rpViolates a = true) (ha : 0xF00000 ≤ a) :
    ((rpRow a).any fun r => r.1.rwp != 0) = true := by
  have hwin : a ≠ Reg.xbrAnaCtl ∧ ¬ a < Reg.mgtWin 262144 := by
    have h1 : Reg.xbrAnaCtl < 0xF00000 := by decide
    have h2 : Reg.mgtWin 262144 < 0xF00000 := by decide
    omega
  simp only [State.rpViolates, Bool.or_eq_true, Bool.and_eq_true, beq_iff_eq, hwin.1, decide_eq_true_iff, hwin.2] at h
  tauto

theorem State.keeps_rpWord (s : State) (a v : Nat) (wr : Writer) : s.Keeps (s.rpWord a v wr) := by
  unfold State.rpWord
  split
  · next hv =>
    have hviol : s.rpViolates a = true := (Bool.and_eq_true _ _ ▸ hv).1
    refine State.keeps_ite (.refl s) ?_
    split
    · next ha => exact s.keeps_pstWrite a v wr (s.writable_of_rpViolates a hviol ha)
    · exact State.keeps_of_kept (by simp)
  · exact s.keeps_wrote _ _ _ _ _ fun t => t.keeps_rpEffect a v wr

theorem State.keeps_rpStore (s : State) (a n v : Nat) (wr : Writer) : s.Keeps (s.rpStore a n v wr) := by
  unfold State.rpStore
  refine State.keeps_ite (.refl s) (State.keeps_ite (State.keeps_of_kept (by simp)) (State.keeps_ite (s.keeps_rpWord _ _ wr)
    (State.keeps_ite ?_ ((s.keeps_rpWord _ _ wr).trans (State.keeps_rpWord _ _ _ wr)))))
  exact State.keeps_of_kept (by simp)

/-! ### TENANT -/

theorem State.keeps_tenantWord (s : State) (k a : Nat) (write : Bool) (v : Nat) : s.Keeps (s.tenantWord k a write v).1 := by
  unfold State.tenantWord
  dsimp only
  split
  · split
    · exact (State.keeps_of_kept (by simp)).trans (State.keeps_rpStore _ _ _ _ _)
    · exact State.keeps_of_kept (by simp)
  · split
    · exact State.keeps_of_kept (by simp)
    · split <;> exact State.keeps_of_kept (by simp)

theorem State.keeps_tenantWords (n : Nat) (s : State) (k a : Nat) (write : Bool) (d : List Byte) :
    s.Keeps (State.tenantWords n s k a write d).1 := by
  induction n generalizing s a d with
  | zero => exact .refl s
  | succ n ih =>
    rw [State.tenantWords]
    split
    · exact .refl s
    · exact (s.keeps_tenantWord k a write _).trans (ih _ _ _)

theorem State.keeps_tenantRun (s : State) (c : Command) : s.Keeps (s.tenantRun c) := by
  unfold State.tenantRun
  dsimp only
  refine State.Keeps.then (s.keeps_tenantWords (bits 16 4 c.p0) (bits 0 6 c.p0) c.p1 (bit 8 c.p0) c.args) ?_
  split <;> simp

theorem State.keeps_tenantAgain (s : State) : s.Keeps s.tenantAgain := by
  unfold State.tenantAgain
  split
  · exact (State.keeps_of_kept (by simp)).trans (State.keeps_tenantRun _ _)
  · exact .refl s

/-! ### Slots and frames -/

theorem State.keeps_now (s : State) (n : Nat) : s.Keeps { s with now := n } := ⟨rfl, id, id⟩

theorem State.keeps_timeStep (s : State) : s.Keeps s.timeStep := by
  unfold State.timeStep
  split
  · exact .refl s
  · exact (State.keeps_of_kept (by simp)).trans (State.keeps_now _ _)

theorem State.keeps_slotBoundary (s : State) : s.Keeps s.slotBoundary := by
  unfold State.slotBoundary
  dsimp only
  refine State.Keeps.trans (State.keeps_of_kept ?_) (State.keeps_now _ _)
  simp

theorem State.keeps_frameBoundary (s : State) (activity : List Nat) (sensors : List Int) : s.Keeps (s.frameBoundary activity sensors) := by
  refine State.keeps_ite (.refl s) ?_
  extract_lets s0 s1 s2 s3 s4 s5 s6 s7 s8
  have h3 : s.Keeps s3 := s.keeps_shadowTallies.then (by simp [s3, s2, s1, s0])
  have h4 : s.Keeps s4 := (h3.trans s3.keeps_timeStep).then (State.kept_frameClear _)
  have h8 : s.Keeps (s8.lasFollowed.feedsDue.tokenDue) := h4.then (by simp [s8, s7, s6, s5])
  exact ((h8.trans (State.keeps_agentFrame _)).trans (State.keeps_tenantAgain _)).then (by simp)

/-! ### Every command -/

theorem State.keeps_command (s : State) (c : Command) (op : Nat) (ok : Bool) (f : State → State) (h : ∀ t : State, t.Keeps (f t)) :
    s.Keeps (s.command c op ok f) := by
  unfold State.command
  dsimp only
  refine State.keeps_ite (.refl s) (State.keeps_ite (State.keeps_of_kept (by simp)) (State.keeps_ite (State.keeps_of_kept (by simp)) ?_))
  exact (State.keeps_of_kept (State.kept_modMgmt s _)).trans (h _)

theorem State.keeps_memoryRequest (s : State) (port : Nat) (c : Container) (f : Fmem → Fmem) (ce : Nat) :
    s.Keeps (((s.modFm f).corrected ce c.offset).agentTake port c) :=
  (State.keeps_of_kept (by simp)).trans (State.keeps_agentTake _ port c)

/-- Every command answers a next state and keeps the invariant. Most change nothing of what `State.kept` holds; the others are those that
write memory, queue or finish a write of the persistent store, or let time go on. -/
theorem exec_keeps (c : Instr) (s : State) : ∃ t, exec c s = .next t ∧ s.Keeps t := by
  cases c
  case slotBoundary => exact ⟨_, rfl, s.keeps_slotBoundary.then (State.kept_a2pGo _)⟩
  case frameBoundary activity sensors => exact ⟨_, rfl, s.keeps_frameBoundary activity sensors⟩
  case registerWrite part addr width value wr =>
    refine ⟨_, rfl, ?_⟩
    cases part
    · exact s.keeps_rpStore addr width value.toNat wr
    · exact State.keeps_of_kept (by simp)
  case memoryAgentRequest port c ce ue => exact ⟨_, rfl, State.keeps_ite (s.keeps_memoryRequest port c _ ce) (.refl s)⟩
  case zeroingDone => exact ⟨_, rfl, s.keeps_zeroed⟩
  case warpCellIngress port c => exact ⟨_, rfl, s.keeps_rpCellIn port c⟩
  case spindleEmit n => exact ⟨_, rfl, s.keeps_spindleEmit n⟩
  case unitInternalError x => exact ⟨_, rfl, s.keeps_siteFault x⟩
  case quarantineStepDone i passed => exact ⟨_, rfl, s.keeps_quarantineStep i passed⟩
  case pkgReset => exact ⟨_, rfl, s.keeps_pkgResetPin⟩
  case thermtrip => exact ⟨_, rfl, s.keeps_thermTrip⟩
  case sleep value wr => exact ⟨_, rfl, s.keeps_wrote _ _ _ _ _ fun t => t.keeps_wakeWrite _⟩
  case wake value wr => exact ⟨_, rfl, s.keeps_wrote _ _ _ _ _ fun t => t.keeps_wakeWrite _⟩
  case powerGoodTimeout d => exact ⟨_, rfl, s.keeps_powerGoodLost d⟩
  case supplyMonitorTrip volt charge => exact ⟨_, rfl, s.keeps_supplyTrip volt charge⟩
  case reset c => exact ⟨_, rfl, s.keeps_command _ _ _ _ fun t => t.keeps_resetCmd _⟩
  case tenant c => exact ⟨_, rfl, s.keeps_command _ _ _ _ fun t => t.keeps_tenantRun _⟩
  case pstWritePersist => exact ⟨_, rfl, s.keeps_pstPersist⟩
  all_goals exact ⟨_, rfl, State.keeps_of_kept (by simp)⟩

/-- Settles O57: a step on an empty queue changes nothing, and one on a command keeps the rest of the queue and the invariant by
`exec_keeps`. -/
theorem stepKeepsInvariant : Obligations.StepKeepsInvariant := by
  unfold Obligations.StepKeepsInvariant
  intro s hinv
  obtain ⟨hmem, hqueue, hstore⟩ := hinv
  cases hp : s.pending with
  | nil => exact ⟨s, by rw [step, hp], ⟨hmem, hqueue, hstore⟩, by rw [hp, List.drop_nil]⟩
  | cons c rest =>
    obtain ⟨t, hexec, hkeeps⟩ := exec_keeps c { s with pending := rest }
    refine ⟨t, by rw [step, hp]; exact hexec, ⟨hkeeps.mem hmem, ?_, hkeeps.store hstore⟩, hkeeps.pending⟩
    rw [State.queueWf, hkeeps.pending]
    rw [State.queueWf, hp, List.all_cons, Bool.and_eq_true] at hqueue
    exact hqueue.2

end Sys2Proof.Machine
end

section
/-! The accelerator's side of the Plocen is apart from the Ronpex: what the units of the attach link, the rings and the translation read and
do stays the same when another Ronpex, other memory and another queue stand in their place. One equation for each operation, in the order and
under the names of the model's files. -/

namespace Sys2Proof.Machine

open Sys2Proof Sys2Proof.Claims

/-- `s` with another Ronpex, other fabric-resident memory and another queue. -/
def State.under (s : State) (r : Ronpex) (m : SMap Byte) (q : List Instr) : State := { s with rp := r, hbm := m, pending := q }

section Under
variable (s : State) (r : Ronpex) (m : SMap Byte) (q : List Instr)

@[simp] theorem State.under_now : (s.under r m q).now = s.now := rfl
@[simp] theorem State.under_free : (s.under r m q).free = s.free := rfl
@[simp] theorem State.under_out : (s.under r m q).out = s.out := rfl
@[simp] theorem State.under_ep : (s.under r m q).ep = s.ep := rfl

/-- A change of the Plocen, of time and of what has been sent, under another Ronpex. -/
@[simp] theorem State.under_mk (n f : Nat) (o : List Out) (e : Plocen) :
    State.mk n f (s.under r m q).pending o (s.under r m q).hbm (s.under r m q).rp e =
      (State.mk n f s.pending o s.hbm s.rp e).under r m q := rfl

@[simp] theorem State.under_ite (c : Prop) [Decidable c] (t : State) :
    (if c then s else t).under r m q = if c then s.under r m q else t.under r m q := by
  split <;> rfl

@[simp] theorem State.under_foldl {α : Type} (g : State → α → State) (hg : ∀ t x, g (t.under r m q) x = (g t x).under r m q) (l : List α) :
    l.foldl g (s.under r m q) = (l.foldl g s).under r m q := by
  induction l generalizing s with
  | nil => rfl
  | cons x l ih => rw [List.foldl_cons, List.foldl_cons, hg, ih]

end Under

/-! ### Machine/Ops -/

@[simp] theorem State.under_reg (s : State) (r : Ronpex) (m : SMap Byte) (q : List Instr) (a : Nat) :
    (s.under r m q).reg .plocen a = s.reg .plocen a := by
  rfl

@[simp] theorem State.under_setReg (s : State) (r : Ronpex) (m : SMap Byte) (q : List Instr) (a v : Nat) :
    (s.under r m q).setReg .plocen a v = (s.setReg .plocen a v).under r m q := by
  rfl

@[simp] theorem State.under_fld (s : State) (r : Ronpex) (m : SMap Byte) (q : List Instr) (a lo len : Nat) :
    (s.under r m q).fld .plocen a lo len = s.fld .plocen a lo len := by
  rfl

@[simp] theorem State.under_setFld (s : State) (r : Ronpex) (m : SMap Byte) (q : List Instr) (a lo len v : Nat) :
    (s.under r m q).setFld .plocen a lo len v = (s.setFld .plocen a lo len v).under r m q := by
  rfl

@[simp] theorem State.under_satFld (s : State) (r : Ronpex) (m : SMap Byte) (q : List Instr) (a lo len n : Nat) :
    (s.under r m q).satFld .plocen a lo len n = (s.satFld .plocen a lo len n).under r m q := by
  rfl

@[simp] theorem State.under_attOn (s : State) (r : Ronpex) (m : SMap Byte) (q : List Instr) : (s.under r m q).attOn = s.attOn := by
  rfl

@[simp] theorem State.under_flag (s : State) (r : Ronpex) (m : SMap Byte) (q : List Instr) (a i : Nat) :
    (s.under r m q).flag .plocen a i = s.flag .plocen a i := by
  rfl

@[simp] theorem State.under_setFlag (s : State) (r : Ronpex) (m : SMap Byte) (q : List Instr) (a i : Nat) (b : Bool) :
    (s.under r m q).setFlag .plocen a i b = (s.setFlag .plocen a i b).under r m q := by
  rfl

@[simp] theorem State.under_link (s : State) (r : Ronpex) (m : SMap Byte) (q : List Instr) (port : Nat) :
    (s.under r m q).link .plocen port = s.link .plocen port := by
  rfl

@[simp] theorem State.under_setLink (s : State) (r : Ronpex) (m : SMap Byte) (q : List Instr) (port : Nat) (l : Link) :
    (s.under r m q).setLink .plocen port l = (s.setLink .plocen port l).under r m q := by
  rfl

@[simp] theorem State.under_modLink (s : State) (r : Ronpex) (m : SMap Byte) (q : List Instr) (port : Nat) (f : Link → Link) :
    (s.under r m q).modLink .plocen port f = (s.modLink .plocen port f).under r m q := by
  rfl

@[simp] theorem State.under_portState (s : State) (r : Ronpex) (m : SMap Byte) (q : List Instr) (port : Nat) :
    (s.under r m q).portState .plocen port = s.portState .plocen port := by
  rfl

@[simp] theorem State.under_portUp (s : State) (r : Ronpex) (m : SMap Byte) (q : List Instr) (port : Nat) :
    (s.under r m q).portUp .plocen port = s.portUp .plocen port := by
  rfl

@[simp] theorem State.under_heldDown (s : State) (r : Ronpex) (m : SMap Byte) (q : List Instr) (port : Nat) :
    (s.under r m q).heldDown .plocen port = s.heldDown .plocen port := by
  rfl

@[simp] theorem State.under_source (s : State) (r : Ronpex) (m : SMap Byte) (q : List Instr) :
    (s.under r m q).source .plocen = s.source .plocen := by
  rfl

@[simp] theorem State.under_setSource (s : State) (r : Ronpex) (m : SMap Byte) (q : List Instr) (x : Source) :
    (s.under r m q).setSource .plocen x = (s.setSource .plocen x).under r m q := by
  rfl

@[simp] theorem State.under_emit (s : State) (r : Ronpex) (m : SMap Byte) (q : List Instr) (o : Out) :
    (s.under r m q).emit o = (s.emit o).under r m q := by
  rfl

/-! ### Machine/Views -/

@[simp] theorem State.under_ring (s : State) (r : Ronpex) (m : SMap Byte) (q : List Instr) (n : Nat) :
    (s.under r m q).ring n = s.ring n := by
  rfl

@[simp] theorem State.under_shuttle (s : State) (r : Ronpex) (m : SMap Byte) (q : List Instr) (n : Nat) :
    (s.under r m q).shuttle n = s.shuttle n := by
  rfl

@[simp] theorem State.under_ringView (s : State) (r : Ronpex) (m : SMap Byte) (q : List Instr) (n o : Nat) :
    (s.under r m q).ringView n o = s.ringView n o := by
  rfl

@[simp] theorem State.under_epView (s : State) (r : Ronpex) (m : SMap Byte) (q : List Instr) (a : Nat) :
    (s.under r m q).epView a = s.epView a := by
  rfl

@[simp] theorem State.under_epRead (s : State) (r : Ronpex) (m : SMap Byte) (q : List Instr) (a : Nat) :
    (s.under r m q).epRead a = s.epRead a := by
  rfl

@[simp] theorem State.under_regRead (s : State) (r : Ronpex) (m : SMap Byte) (q : List Instr) (a : Nat) :
    (s.under r m q).regRead .plocen a = s.regRead .plocen a := by
  rfl

@[simp] theorem State.under_regBytes (s : State) (r : Ronpex) (m : SMap Byte) (q : List Instr) (a n : Nat) :
    (s.under r m q).regBytes .plocen a n = s.regBytes .plocen a n := by
  rfl

/-! ### Machine/Send -/

@[simp] theorem State.under_ownNode (s : State) (r : Ronpex) (m : SMap Byte) (q : List Instr) :
    (s.under r m q).ownNode .plocen = s.ownNode .plocen := by
  rfl

@[simp] theorem State.under_epoch (s : State) (r : Ronpex) (m : SMap Byte) (q : List Instr) :
    (s.under r m q).epoch .plocen = s.epoch .plocen := by
  rfl

@[simp] theorem State.under_limits (s : State) (r : Ronpex) (m : SMap Byte) (q : List Instr) :
    (s.under r m q).limits .plocen = s.limits .plocen := by
  rfl

@[simp] theorem State.under_sourceHops (s : State) (r : Ronpex) (m : SMap Byte) (q : List Instr) :
    (s.under r m q).sourceHops .plocen = s.sourceHops .plocen := by
  rfl

@[simp] theorem State.under_storeRoom (s : State) (r : Ronpex) (m : SMap Byte) (q : List Instr) (reserve : Nat) :
    (s.under r m q).storeRoom reserve = s.storeRoom reserve := by
  rfl

@[simp] theorem State.under_hold (s : State) (r : Ronpex) (m : SMap Byte) (q : List Instr) (dest skein plane planes : Nat) (loc : HeldAt) (m' : Msg) (own : Owner) :
    (s.under r m q).hold .plocen dest skein plane planes loc m' own = ((s.hold .plocen dest skein plane planes loc m' own).1.under r m q, (s.hold .plocen dest skein plane planes loc m' own).2) := by
  rfl

@[simp] theorem State.under_windowOf (s : State) (r : Ronpex) (m : SMap Byte) (q : List Instr) (node plane : Nat) :
    (s.under r m q).windowOf .plocen node plane = s.windowOf .plocen node plane := by
  rfl

@[simp] theorem State.under_epLive (s : State) (r : Ronpex) (m : SMap Byte) (q : List Instr) (p : Nat) :
    (s.under r m q).epLive p = s.epLive p := by
  rfl

@[simp] theorem State.under_livePlanes (s : State) (r : Ronpex) (m : SMap Byte) (q : List Instr) :
    (s.under r m q).livePlanes = s.livePlanes := by
  rfl

@[simp] theorem State.under_epMgmt (s : State) (r : Ronpex) (m : SMap Byte) (q : List Instr) (plane : Nat) (m' : Mgmt) :
    (s.under r m q).epMgmt plane m' = (s.epMgmt plane m').under r m q := by
  rfl

@[simp] theorem State.under_epMgmtLowest (s : State) (r : Ronpex) (m : SMap Byte) (q : List Instr) (m' : Mgmt) :
    (s.under r m q).epMgmtLowest m' = (s.epMgmtLowest m').under r m q := by
  unfold State.epMgmtLowest
  simp
  split <;> rfl

/-! ### Machine/Flags -/

@[simp] theorem State.under_modAtt (s : State) (r : Ronpex) (m : SMap Byte) (q : List Instr) (f : Attach → Attach) :
    (s.under r m q).modAtt f = (s.modAtt f).under r m q := by
  rfl

@[simp] theorem State.under_viaAttach (s : State) (r : Ronpex) (m : SMap Byte) (q : List Instr) (f : State → State)
    (h : ∀ t : State, f (t.under r m q) = (f t).under r m q) :
    (s.under r m q).viaAttach f = (s.viaAttach f).under r m q := by
  simp [State.viaAttach, h]

@[simp] theorem State.under_totals (s : State) (r : Ronpex) (m : SMap Byte) (q : List Instr) : (s.under r m q).totals = s.totals := by
  rfl

@[simp] theorem State.under_flitOf (s : State) (r : Ronpex) (m : SMap Byte) (q : List Instr) (kind seq : Nat) (body : List (BitVec 128)) :
    (s.under r m q).flitOf kind seq body = s.flitOf kind seq body := by
  rfl

@[simp] theorem State.under_sendFlit (s : State) (r : Ronpex) (m : SMap Byte) (q : List Instr) (kind seq : Nat) (body : List (BitVec 128)) :
    (s.under r m q).sendFlit kind seq body = (s.sendFlit kind seq body).under r m q := by
  rfl

@[simp] theorem State.under_sendControl (s : State) (r : Ronpex) (m : SMap Byte) (q : List Instr) (subtype : Nat) (params : List Byte) :
    (s.under r m q).sendControl subtype params = (s.sendControl subtype params).under r m q := by
  rfl

@[simp] theorem State.under_flitsRun (s : State) (r : Ronpex) (m : SMap Byte) (q : List Instr) : (s.under r m q).flitsRun = s.flitsRun := by
  rfl

@[simp] theorem State.under_sendChunks (s : State) (r : Ronpex) (m : SMap Byte) (q : List Instr) (n : Nat) (x : List (BitVec 128)) :
    (s.under r m q).sendChunks n x = (s.sendChunks n x).under r m q := by
  induction n generalizing x s with
  | zero => rfl
  | succ n ih =>
    simp [State.sendChunks, ih]

@[simp] theorem State.under_sendTxn (s : State) (r : Ronpex) (m : SMap Byte) (q : List Instr) (t : Txn) :
    (s.under r m q).sendTxn t = (s.sendTxn t).under r m q := by
  unfold State.sendTxn
  simp

@[simp] theorem State.under_pumpCpl (s : State) (r : Ronpex) (m : SMap Byte) (q : List Instr) (n : Nat) :
    (s.under r m q).pumpCpl n = (s.pumpCpl n).under r m q := by
  induction n generalizing s with
  | zero => rfl
  | succ n ih =>
    rw [State.pumpCpl, State.pumpCpl, State.under_ep]
    cases s.ep.att.cplQueue with
    | nil => rfl
    | cons t rest =>
      dsimp only
      rw [State.under_ite, ← ih, State.under_attOn, State.under_modAtt, State.under_sendTxn]

@[simp] theorem State.under_complete (s : State) (r : Ronpex) (m : SMap Byte) (q : List Instr) (rid tag addr status len : Nat) (data : List Byte) :
    (s.under r m q).complete rid tag addr status len data = (s.complete rid tag addr status len data).under r m q := by
  unfold State.complete
  simp

@[simp] theorem State.under_pump (s : State) (r : Ronpex) (m : SMap Byte) (q : List Instr) (n : Nat) :
    (s.under r m q).pump n = (s.pump n).under r m q := by
  induction n generalizing s with
  | zero => rw [State.pump, State.pump]
  | succ n ih =>
    rw [State.pump, State.pump, State.under_ep]
    cases s.ep.att.queue with
    | nil => rfl
    | cons x rest =>
      dsimp only
      rw [State.under_ite, State.under_attOn, State.under_now]
      cases x.use with
      | none => simp [ih]
      | some u => 
        cases freeTag s.ep.att.tags <;> simp [ih]

@[simp] theorem State.under_request (s : State) (r : Ronpex) (m : SMap Byte) (q : List Instr) (l : List AttReq) :
    (s.under r m q).request l = (s.request l).under r m q := by
  unfold State.request
  simp

@[simp] theorem State.under_modDest (s : State) (r : Ronpex) (m : SMap Byte) (q : List Instr) (f : Dest → Dest) :
    (s.under r m q).modDest f = (s.modDest f).under r m q := by
  rfl

@[simp] theorem State.under_epErr (s : State) (r : Ronpex) (m : SMap Byte) (q : List Instr) (b : Nat) :
    (s.under r m q).epErr b = (s.epErr b).under r m q := by
  unfold State.epErr
  simp

/-! ### Machine/DraftRec -/

@[simp] theorem State.under_ptWord (s : State) (r : Ronpex) (m : SMap Byte) (q : List Instr) (slot off : Nat) :
    (s.under r m q).ptWord slot off = s.ptWord slot off := by
  rfl

@[simp] theorem State.under_ptEntry (s : State) (r : Ronpex) (m : SMap Byte) (q : List Instr) (slot n j : Nat) :
    (s.under r m q).ptEntry slot n j = s.ptEntry slot n j := by
  rfl

@[simp] theorem State.under_ptPhase (s : State) (r : Ronpex) (m : SMap Byte) (q : List Instr) (slot ph : Nat) :
    (s.under r m q).ptPhase slot ph = s.ptPhase slot ph := by
  rfl

@[simp] theorem State.under_ptPattern (s : State) (r : Ronpex) (m : SMap Byte) (q : List Instr) (slot pat : Nat) :
    (s.under r m q).ptPattern slot pat = s.ptPattern slot pat := by
  rfl

@[simp] theorem State.under_ptSlot (s : State) (r : Ronpex) (m : SMap Byte) (q : List Instr) (j : Nat) :
    (s.under r m q).ptSlot j = s.ptSlot j := by
  rfl

@[simp] theorem State.under_ptRunning (s : State) (r : Ronpex) (m : SMap Byte) (q : List Instr) :
    (s.under r m q).ptRunning = s.ptRunning := by
  rfl

/-! ### Machine/OrderOps -/

@[simp] theorem State.under_frameAfter (s : State) (r : Ronpex) (m : SMap Byte) (q : List Instr) (d : Nat) :
    (s.under r m q).frameAfter d = s.frameAfter d := by
  rfl

/-! ### Machine/CmdOps -/

@[simp] theorem State.under_recentReports (s : State) (r : Ronpex) (m : SMap Byte) (q : List Instr) :
    (s.under r m q).recentReports = s.recentReports := by
  rfl

@[simp] theorem State.under_mayReport (s : State) (r : Ronpex) (m : SMap Byte) (q : List Instr) :
    (s.under r m q).mayReport = s.mayReport := by
  rfl

@[simp] theorem State.under_sendReport (s : State) (r : Ronpex) (m : SMap Byte) (q : List Instr) (r' : Report) :
    (s.under r m q).sendReport r' = (s.sendReport r').under r m q := by
  unfold State.sendReport
  simp

@[simp] theorem State.under_report (s : State) (r : Ronpex) (m : SMap Byte) (q : List Instr) (type target plane : Nat) :
    (s.under r m q).report type target plane = (s.report type target plane).under r m q := by
  unfold State.report
  simp
  repeat' split
  all_goals rfl

/-! ### Machine/RingOps -/

@[simp] theorem State.under_modRing (s : State) (r : Ronpex) (m : SMap Byte) (q : List Instr) (n : Nat) (f : Ring → Ring) :
    (s.under r m q).modRing n f = (s.modRing n f).under r m q := by
  rfl

@[simp] theorem State.under_ringSize (s : State) (r : Ronpex) (m : SMap Byte) (q : List Instr) (n : Nat) :
    (s.under r m q).ringSize n = s.ringSize n := by
  rfl

@[simp] theorem State.under_ringOn (s : State) (r : Ronpex) (m : SMap Byte) (q : List Instr) (n : Nat) :
    (s.under r m q).ringOn n = s.ringOn n := by
  rfl

@[simp] theorem State.under_ringTag (s : State) (r : Ronpex) (m : SMap Byte) (q : List Instr) (n : Nat) :
    (s.under r m q).ringTag n = s.ringTag n := by
  rfl

@[simp] theorem State.under_epBase (s : State) (r : Ronpex) (m : SMap Byte) (q : List Instr) (lo hi : Nat) :
    (s.under r m q).epBase lo hi = s.epBase lo hi := by
  rfl

@[simp] theorem State.under_ringError (s : State) (r : Ronpex) (m : SMap Byte) (q : List Instr) (n code : Nat) :
    (s.under r m q).ringError n code = (s.ringError n code).under r m q := by
  rfl

@[simp] theorem State.under_fetchFrom (s : State) (r : Ronpex) (m : SMap Byte) (q : List Instr) (n x : Nat) :
    (s.under r m q).fetchFrom n x = (s.fetchFrom n x).under r m q := by
  induction n generalizing s x with
  | zero => rfl
  | succ n ih =>
    simp [State.fetchFrom, ih]

@[simp] theorem State.under_fetchRing (s : State) (r : Ronpex) (m : SMap Byte) (q : List Instr) (n : Nat) :
    (s.under r m q).fetchRing n = (s.fetchRing n).under r m q := by
  unfold State.fetchRing
  simp

@[simp] theorem State.under_ringIntr (s : State) (r : Ronpex) (m : SMap Byte) (q : List Instr) (n : Nat) :
    (s.under r m q).ringIntr n = (s.ringIntr n).under r m q := by
  unfold State.ringIntr
  simp
  repeat' split
  all_goals rfl

@[simp] theorem State.under_postCompletion (s : State) (r : Ronpex) (m : SMap Byte) (q : List Instr) (n sub code info cookie : Nat) :
    (s.under r m q).postCompletion n sub code info cookie = (s.postCompletion n sub code info cookie).under r m q := by
  unfold State.postCompletion
  simp

@[simp] theorem State.under_act? (s : State) (r : Ronpex) (m : SMap Byte) (q : List Instr) (n sub : Nat) :
    (s.under r m q).act? n sub = s.act? n sub := by
  rfl

@[simp] theorem State.under_modAct (s : State) (r : Ronpex) (m : SMap Byte) (q : List Instr) (n sub : Nat) (f : Act → Act) :
    (s.under r m q).modAct n sub f = (s.modAct n sub f).under r m q := by
  rfl

@[simp] theorem State.under_ringRuns (s : State) (r : Ronpex) (m : SMap Byte) (q : List Instr) (n : Nat) :
    (s.under r m q).ringRuns n = s.ringRuns n := by
  rfl

@[simp] theorem State.under_mayStart (s : State) (r : Ronpex) (m : SMap Byte) (q : List Instr) (n : Nat) :
    (s.under r m q).mayStart n = s.mayStart n := by
  rfl

@[simp] theorem State.under_front (s : State) (r : Ronpex) (m : SMap Byte) (q : List Instr) (n : Nat) :
    (s.under r m q).front n = s.front n := by
  rfl

@[simp] theorem State.under_dropFront (s : State) (r : Ronpex) (m : SMap Byte) (q : List Instr) (n : Nat) :
    (s.under r m q).dropFront n = (s.dropFront n).under r m q := by
  rfl

@[simp] theorem State.under_settleFront (s : State) (r : Ronpex) (m : SMap Byte) (q : List Instr) (n x : Nat) :
    (s.under r m q).settleFront n x = (s.settleFront n x).under r m q := by
  induction n generalizing s x with
  | zero => rfl
  | succ n ih =>
    simp [State.settleFront, ih]
    repeat' split
    all_goals simp_all

@[simp] theorem State.under_settleRing (s : State) (r : Ronpex) (m : SMap Byte) (q : List Instr) (n : Nat) :
    (s.under r m q).settleRing n = (s.settleRing n).under r m q := by
  unfold State.settleRing
  simp

@[simp] theorem State.under_failAct (s : State) (r : Ronpex) (m : SMap Byte) (q : List Instr) (n sub code info : Nat) :
    (s.under r m q).failAct n sub code info = (s.failAct n sub code info).under r m q := by
  unfold State.failAct
  rw [State.under_act?]
  cases s.act? n sub with
  | none => rfl
  | some a =>
    dsimp only
    simp

@[simp] theorem State.under_burstHeld (s : State) (r : Ronpex) (m : SMap Byte) (q : List Instr) (ring sub : Nat) :
    (s.under r m q).burstHeld ring sub = s.burstHeld ring sub := by
  rfl

@[simp] theorem State.under_formedAll (s : State) (r : Ronpex) (m : SMap Byte) (q : List Instr) (a : Act) :
    (s.under r m q).formedAll a = s.formedAll a := by
  rfl

@[simp] theorem State.under_actForming (s : State) (r : Ronpex) (m : SMap Byte) (q : List Instr) (n sub : Nat) :
    (s.under r m q).actForming n sub = s.actForming n sub := by
  rfl

@[simp] theorem State.under_settleAct (s : State) (r : Ronpex) (m : SMap Byte) (q : List Instr) (n sub : Nat) :
    (s.under r m q).settleAct n sub = (s.settleAct n sub).under r m q := by
  unfold State.settleAct
  rw [State.under_act?]
  cases s.act? n sub with
  | none => rfl
  | some a =>
    dsimp only
    simp

@[simp] theorem State.under_partDone (s : State) (r : Ronpex) (m : SMap Byte) (q : List Instr) (n sub : Nat) :
    (s.under r m q).partDone n sub = (s.partDone n sub).under r m q := by
  unfold State.partDone
  simp

@[simp] theorem State.under_partFailed (s : State) (r : Ronpex) (m : SMap Byte) (q : List Instr) (n sub code info : Nat) :
    (s.under r m q).partFailed n sub code info = (s.partFailed n sub code info).under r m q := by
  unfold State.partFailed
  simp

@[simp] theorem State.under_hank (s : State) (r : Ronpex) (m : SMap Byte) (q : List Instr) (i : Nat) :
    (s.under r m q).hank i = s.hank i := by
  rfl

@[simp] theorem State.under_settleFences (s : State) (r : Ronpex) (m : SMap Byte) (q : List Instr) :
    (s.under r m q).settleFences = s.settleFences.under r m q := by
  unfold State.settleFences
  simp

@[simp] theorem State.under_storeDone (s : State) (r : Ronpex) (m : SMap Byte) (q : List Instr) (id : Nat) (lost : Bool) :
    (s.under r m q).storeDone id lost = (s.storeDone id lost).under r m q := by
  unfold State.storeDone
  simp
  repeat' split
  all_goals simp

@[simp] theorem State.under_loadDone (s : State) (r : Ronpex) (m : SMap Byte) (q : List Instr) (id status : Nat) (data : List Byte) :
    (s.under r m q).loadDone id status data = (s.loadDone id status data).under r m q := by
  unfold State.loadDone
  simp
  repeat' split
  all_goals simp

/-! ### Machine/EpWarpOps -/

@[simp] theorem State.under_modEw (s : State) (r : Ronpex) (m : SMap Byte) (q : List Instr) (f : EpWarp → EpWarp) :
    (s.under r m q).modEw f = (s.modEw f).under r m q := by
  rfl

@[simp] theorem State.under_phOf (s : State) (r : Ronpex) (m : SMap Byte) (q : List Instr) (ph : Nat) :
    (s.under r m q).phOf ph = s.phOf ph := by
  rfl

@[simp] theorem State.under_patOf (s : State) (r : Ronpex) (m : SMap Byte) (q : List Instr) (pat : Nat) :
    (s.under r m q).patOf pat = s.patOf pat := by
  rfl

@[simp] theorem State.under_phAt (s : State) (r : Ronpex) (m : SMap Byte) (q : List Instr) (j ph : Nat) :
    (s.under r m q).phAt j ph = s.phAt j ph := by
  rfl

@[simp] theorem State.under_patPhases (s : State) (r : Ronpex) (m : SMap Byte) (q : List Instr) (pat : Nat) :
    (s.under r m q).patPhases pat = s.patPhases pat := by
  rfl

@[simp] theorem State.under_epSkein (s : State) (r : Ronpex) (m : SMap Byte) (q : List Instr) : (s.under r m q).epSkein = s.epSkein := by
  rfl

@[simp] theorem State.under_before (s : State) (r : Ronpex) (m : SMap Byte) (q : List Instr) (sl : Nat) (size : PhaseRec → Nat) (b : Binding) (ph : Nat) :
    (s.under r m q).before sl size b ph = s.before sl size b ph := by
  rfl

@[simp] theorem State.under_perRound (s : State) (r : Ronpex) (m : SMap Byte) (q : List Instr) (sl : Nat) (size : PhaseRec → Nat) (b : Binding) :
    (s.under r m q).perRound sl size b = s.perRound sl size b := by
  rfl

@[simp] theorem State.under_inPlace (s : State) (r : Ronpex) (m : SMap Byte) (q : List Instr) (sl : Nat) (b : Binding) (ph round slice cell : Nat) :
    (s.under r m q).inPlace sl b ph round slice cell = s.inPlace sl b ph round slice cell := by
  rfl

@[simp] theorem State.under_bind? (s : State) (r : Ronpex) (m : SMap Byte) (q : List Instr) (id : Nat) :
    (s.under r m q).bind? id = s.bind? id := by
  rfl

@[simp] theorem State.under_modRun (s : State) (r : Ronpex) (m : SMap Byte) (q : List Instr) (pat : Nat) (f : Run → Run) :
    (s.under r m q).modRun pat f = (s.modRun pat f).under r m q := by
  rfl

@[simp] theorem State.under_run? (s : State) (r : Ronpex) (m : SMap Byte) (q : List Instr) (pat : Nat) :
    (s.under r m q).run? pat = s.run? pat := by
  rfl

@[simp] theorem State.under_readCells (s : State) (r : Ronpex) (m : SMap Byte) (q : List Instr) (b : Binding) (plane slice round : Nat) :
    (s.under r m q).readCells b plane slice round = (s.readCells b plane slice round).under r m q := by
  unfold State.readCells
  simp

@[simp] theorem State.under_readRun (s : State) (r : Ronpex) (m : SMap Byte) (q : List Instr) (pat : Nat) :
    (s.under r m q).readRun pat = (s.readRun pat).under r m q := by
  unfold State.readRun
  rw [State.under_run?]
  cases s.run? pat with
  | none => rfl
  | some a =>
    dsimp only
    refine State.under_foldl _ _ _ _ _ (fun t b => ?_) _
    exact State.under_foldl _ _ _ _ _ (fun u c => State.under_readCells _ _ _ _ _ _ _ _) _

@[simp] theorem State.under_patSent (s : State) (r : Ronpex) (m : SMap Byte) (q : List Instr) (j pat : Nat) :
    (s.under r m q).patSent j pat = s.patSent j pat := by
  rfl

@[simp] theorem State.under_rerun (s : State) (r : Ronpex) (m : SMap Byte) (q : List Instr) (pat plane slice round : Nat) :
    (s.under r m q).rerun pat plane slice round = (s.rerun pat plane slice round).under r m q := by
  unfold State.rerun
  rw [State.under_run?]
  cases s.run? pat with
  | none => rfl
  | some a =>
    dsimp only
    simp

/-! ### Machine/XltOps -/

@[simp] theorem State.under_modXlt (s : State) (r : Ronpex) (m : SMap Byte) (q : List Instr) (f : Xlt → Xlt) :
    (s.under r m q).modXlt f = (s.modXlt f).under r m q := by
  rfl

@[simp] theorem State.under_xltOn (s : State) (r : Ronpex) (m : SMap Byte) (q : List Instr) : (s.under r m q).xltOn = s.xltOn := by
  rfl

@[simp] theorem State.under_missSize (s : State) (r : Ronpex) (m : SMap Byte) (q : List Instr) : (s.under r m q).missSize = s.missSize := by
  rfl

@[simp] theorem State.under_fillSize (s : State) (r : Ronpex) (m : SMap Byte) (q : List Instr) : (s.under r m q).fillSize = s.fillSize := by
  rfl

@[simp] theorem State.under_micro (s : State) (r : Ronpex) (m : SMap Byte) (q : List Instr) (m' : Nat) :
    (s.under r m q).micro m' = s.micro m' := by
  rfl

@[simp] theorem State.under_modShuttle (s : State) (r : Ronpex) (m : SMap Byte) (q : List Instr) (k : Nat) (f : Shuttle → Shuttle) :
    (s.under r m q).modShuttle k f = (s.modShuttle k f).under r m q := by
  rfl

@[simp] theorem State.under_setMicro (s : State) (r : Ronpex) (m : SMap Byte) (q : List Instr) (m' : Nat) (l : List OutExt) :
    (s.under r m q).setMicro m' l = (s.setMicro m' l).under r m q := by
  unfold State.setMicro
  simp

@[simp] theorem State.under_intoMicro (s : State) (r : Ronpex) (m : SMap Byte) (q : List Instr) (m' : Nat) (e : OutExt) :
    (s.under r m q).intoMicro m' e = (s.intoMicro m' e).under r m q := by
  unfold State.intoMicro
  simp

@[simp] theorem State.under_lookupOut (s : State) (r : Ronpex) (m : SMap Byte) (q : List Instr) (m' tag va kind : Nat) :
    (s.under r m q).lookupOut m' tag va kind = ((s.lookupOut m' tag va kind).1, (s.lookupOut m' tag va kind).2.under r m q) := by
  unfold State.lookupOut
  simp
  repeat' split
  all_goals rfl

@[simp] theorem State.under_writeMiss (s : State) (r : Ronpex) (m : SMap Byte) (q : List Instr) (r' : MissRec) :
    (s.under r m q).writeMiss r' = (s.writeMiss r').under r m q := by
  unfold State.writeMiss
  simp

@[simp] theorem State.under_missRoom (s : State) (r : Ronpex) (m : SMap Byte) (q : List Instr) : (s.under r m q).missRoom = s.missRoom := by
  rfl

@[simp] theorem State.under_postMiss (s : State) (r : Ronpex) (m : SMap Byte) (q : List Instr) (r' : MissRec) :
    (s.under r m q).postMiss r' = (s.postMiss r').under r m q := by
  unfold State.postMiss
  simp

@[simp] theorem State.under_postHeld (s : State) (r : Ronpex) (m : SMap Byte) (q : List Instr) (n : Nat) :
    (s.under r m q).postHeld n = (s.postHeld n).under r m q := by
  induction n generalizing s with
  | zero => rfl
  | succ n ih =>
    simp [State.postHeld, ih]
    repeat' split
    all_goals simp_all

@[simp] theorem State.under_missIntr (s : State) (r : Ronpex) (m : SMap Byte) (q : List Instr) :
    (s.under r m q).missIntr = s.missIntr.under r m q := by
  unfold State.missIntr
  simp
  repeat' split
  all_goals simp_all

@[simp] theorem State.under_rewriteMisses (s : State) (r : Ronpex) (m : SMap Byte) (q : List Instr) :
    (s.under r m q).rewriteMisses = s.rewriteMisses.under r m q := by
  unfold State.rewriteMisses
  simp

@[simp] theorem State.under_postAnswer (s : State) (r : Ronpex) (m : SMap Byte) (q : List Instr) (type tag fill info : Nat) :
    (s.under r m q).postAnswer type tag fill info = (s.postAnswer type tag fill info).under r m q := by
  unfold State.postAnswer
  simp

/-! ### Machine/WeftAnswer -/

@[simp] theorem State.under_modSource (s : State) (r : Ronpex) (m : SMap Byte) (q : List Instr) (f : Source → Source) :
    (s.under r m q).modSource .plocen f = (s.modSource .plocen f).under r m q := by
  rfl

@[simp] theorem State.under_held? (s : State) (r : Ronpex) (m : SMap Byte) (q : List Instr) (id : Nat) :
    (s.under r m q).held? .plocen id = s.held? .plocen id := by
  rfl

@[simp] theorem State.under_modHeld (s : State) (r : Ronpex) (m : SMap Byte) (q : List Instr) (id : Nat) (f : Held → Held) :
    (s.under r m q).modHeld .plocen id f = (s.modHeld .plocen id f).under r m q := by
  rfl

@[simp] theorem State.under_winNow (s : State) (r : Ronpex) (m : SMap Byte) (q : List Instr) :
    (s.under r m q).winNow .plocen = s.winNow .plocen := by
  rfl

@[simp] theorem State.under_unqueue (s : State) (r : Ronpex) (m : SMap Byte) (q : List Instr) (plane id : Nat) :
    (s.under r m q).unqueue plane id = (s.unqueue plane id).under r m q := by
  rfl

@[simp] theorem State.under_dropHeld (s : State) (r : Ronpex) (m : SMap Byte) (q : List Instr) (h : Held) :
    (s.under r m q).dropHeld .plocen h = (s.dropHeld .plocen h).under r m q := by
  unfold State.dropHeld
  simp

@[simp] theorem State.under_shadowLost (s : State) (r : Ronpex) (m : SMap Byte) (q : List Instr) (bind plane slice round : Nat) :
    (s.under r m q).shadowLost bind plane slice round = (s.shadowLost bind plane slice round).under r m q := by
  unfold State.shadowLost
  rw [State.under_bind?]
  cases s.bind? bind with
  | none => rfl
  | some a =>
    dsimp only
    simp

@[simp] theorem State.under_messageLost (s : State) (r : Ronpex) (m : SMap Byte) (q : List Instr) (h : Held) (x : SentMsg) (code info : Nat) :
    (s.under r m q).messageLost .plocen h x code info = (s.messageLost .plocen h x code info).under r m q := by
  unfold State.messageLost
  simp
  split <;> simp_all

@[simp] theorem State.under_endHeld (s : State) (r : Ronpex) (m : SMap Byte) (q : List Instr) (id code : Nat) :
    (s.under r m q).endHeld .plocen id code = (s.endHeld .plocen id code).under r m q := by
  unfold State.endHeld
  rw [State.under_held?]
  cases s.held? .plocen id with
  | none => rfl
  | some a =>
    dsimp only
    simp

@[simp] theorem State.under_lifeOver (s : State) (r : Ronpex) (m : SMap Byte) (q : List Instr) (h : Held) :
    (s.under r m q).lifeOver h = s.lifeOver h := by
  rfl

@[simp] theorem State.under_openPlanes (s : State) (r : Ronpex) (m : SMap Byte) (q : List Instr) (dest planes : Nat) :
    (s.under r m q).openPlanes dest planes = s.openPlanes dest planes := by
  rfl

@[simp] theorem State.under_replane (s : State) (r : Ronpex) (m : SMap Byte) (q : List Instr) (id : Nat) :
    (s.under r m q).replane id = (s.replane id).under r m q := by
  unfold State.replane
  rw [State.under_held?]
  cases s.held? .plocen id with
  | none => rfl
  | some a =>
    dsimp only
    rw [State.under_openPlanes, State.under_lifeOver]
    cases planeOf a.c.dest a.c.offset (s.openPlanes a.c.dest a.planes) <;> simp

@[simp] theorem State.under_resendPlane (s : State) (r : Ronpex) (m : SMap Byte) (q : List Instr) (plane : Nat) :
    (s.under r m q).resendPlane plane = (s.resendPlane plane).under r m q := by
  unfold State.resendPlane
  simp

/-! ### Machine/EpOrders -/

@[simp] theorem State.under_epPlaneOut (s : State) (r : Ronpex) (m : SMap Byte) (q : List Instr) (plane : Nat) :
    (s.under r m q).epPlaneOut plane = (s.epPlaneOut plane).under r m q := by
  unfold State.epPlaneOut
  simp

/-! ### Machine/WeftDest -/

@[simp] theorem State.under_queueReply (s : State) (r : Ronpex) (m : SMap Byte) (q : List Instr) (plane : Nat) (c : Container) :
    (s.under r m q).queueReply plane c = (s.queueReply plane c).under r m q := by
  rfl

@[simp] theorem State.under_sendReplies (s : State) (r : Ronpex) (m : SMap Byte) (q : List Instr) (l : List Reply) :
    (s.under r m q).sendReplies l = (s.sendReplies l).under r m q := by
  unfold State.sendReplies
  simp
  repeat' split
  all_goals rfl

@[simp] theorem State.under_flushLike (s : State) (r : Ronpex) (m : SMap Byte) (q : List Instr) (r' : Reply) :
    (s.under r m q).flushLike r' = (s.flushLike r').under r m q := by
  unfold State.flushLike
  simp

@[simp] theorem State.under_replyHold (s : State) (r : Ronpex) (m : SMap Byte) (q : List Instr) (node : Nat) :
    (s.under r m q).replyHold node = (s.replyHold node).under r m q := by
  unfold State.replyHold
  simp
  rfl

@[simp] theorem State.under_job? (s : State) (r : Ronpex) (m : SMap Byte) (q : List Instr) (id : Nat) :
    (s.under r m q).job? id = s.job? id := by
  rfl

/-! ### Machine/WeftForm -/

@[simp] theorem State.under_descPlanes (s : State) (r : Ronpex) (m : SMap Byte) (q : List Instr) (ring : Nat) (d : Desc) :
    (s.under r m q).descPlanes ring d = s.descPlanes ring d := by
  rfl

@[simp] theorem State.under_credits (s : State) (r : Ronpex) (m : SMap Byte) (q : List Instr) (node plane : Nat) :
    (s.under r m q).credits node plane = s.credits node plane := by
  rfl

@[simp] theorem State.under_streamWaits (s : State) (r : Ronpex) (m : SMap Byte) (q : List Instr) (a : Act) (d : Desc) :
    (s.under r m q).streamWaits a d = s.streamWaits a d := by
  rfl

@[simp] theorem State.under_lookAhead (s : State) (r : Ronpex) (m : SMap Byte) (q : List Instr) (k : Nat) (a : Act) (d : Desc) :
    (s.under r m q).lookAhead k a d = s.lookAhead k a d := by
  rfl

theorem State.pair_under_ite {α : Type} {r : Ronpex} {m : SMap Byte} {q : List Instr} {c : Prop} [Decidable c] {x y x' y' : α × State}
    (hx : x' = (x.1, x.2.under r m q)) (hy : y' = (y.1, y.2.under r m q)) :
    (if c then x' else y') = ((if c then x else y).1, (if c then x else y).2.under r m q) := by
  split
  · exact hx
  · exact hy

@[simp] theorem State.under_nextOf (s : State) (r : Ronpex) (m : SMap Byte) (q : List Instr) (k : Nat) (a : Act) :
    (s.under r m q).nextOf k a = ((s.nextOf k a).1, (s.nextOf k a).2.under r m q) := by
  unfold State.nextOf
  simp only [State.under_streamWaits, State.under_lookAhead, State.under_modAct, State.under_xltOn, State.under_ringTag, State.under_lookupOut, State.under_ep, State.under_ownNode, State.under_openPlanes, State.under_descPlanes, State.under_credits, State.under_storeRoom]
  cases a.todo with
  | nil => rfl
  | cons x rest =>
    refine State.pair_under_ite rfl (State.pair_under_ite rfl (State.pair_under_ite rfl (State.pair_under_ite rfl ?_)))
    generalize (s.modAct a.ring a.sub fun x => { x with ahead := max x.ahead (s.lookAhead k a (descOf a.raw)).1 }) = t
    cases a.va (descOf a.raw) x with
    | none => rfl
    | some va =>
      refine State.pair_under_ite rfl ?_
      generalize t.lookupOut k (t.ringTag a.ring) ((va + x.eoff) % 2 ^ 64) (descOf a.raw).kind = y
      obtain ⟨l, u⟩ := y
      cases l with
      | miss => exact State.pair_under_ite rfl rfl
      | fault e => exact State.pair_under_ite rfl rfl
      | hit e =>
        refine State.pair_under_ite rfl (State.pair_under_ite (State.pair_under_ite rfl rfl) (State.pair_under_ite rfl ?_))
        dsimp only
        cases planeOf (e.place ((va + x.eoff) % 2 ^ 64) (x.room (descOf a.raw))).1 (e.place ((va + x.eoff) % 2 ^ 64) (x.room (descOf a.raw))).2.1
          (t.openPlanes (e.place ((va + x.eoff) % 2 ^ 64) (x.room (descOf a.raw))).1 (t.descPlanes a.ring (descOf a.raw))) with
        | none => rfl
        | some p => exact State.pair_under_ite rfl rfl

@[simp] theorem State.under_canServe (s : State) (r : Ronpex) (m : SMap Byte) (q : List Instr) (k : Nat) (a : Act) :
    (s.under r m q).canServe k a = s.canServe k a := by
  unfold State.canServe
  simp

@[simp] theorem State.under_askList (s : State) (r : Ronpex) (m : SMap Byte) (q : List Instr) (ring sub : Nat) :
    (s.under r m q).askList ring sub = (s.askList ring sub).under r m q := by
  unfold State.askList
  rw [State.under_act?]
  cases s.act? ring sub with
  | none => rfl
  | some a =>
    dsimp only
    simp

@[simp] theorem State.under_returnBurst (s : State) (r : Ronpex) (m : SMap Byte) (q : List Instr) (b : Burst) :
    (s.under r m q).returnBurst b = (s.returnBurst b).under r m q := by
  rfl

@[simp] theorem State.under_giveBack (s : State) (r : Ronpex) (m : SMap Byte) (q : List Instr) (ring n : Nat) :
    (s.under r m q).giveBack ring n = (s.giveBack ring n).under r m q := by
  rfl

@[simp] theorem State.under_unform (s : State) (r : Ronpex) (m : SMap Byte) (q : List Instr) (h : Held) :
    (s.under r m q).unform h = (s.unform h).under r m q := by
  rfl

@[simp] theorem State.under_fenceShuttle (s : State) (r : Ronpex) (m : SMap Byte) (q : List Instr) (k : Nat) :
    (s.under r m q).fenceShuttle k = (s.fenceShuttle k).under r m q := by
  unfold State.fenceShuttle
  simp
  split <;> rfl

/-! ### Machine/Ready -/

@[simp] theorem State.under_splitsAnchor (s : State) (r : Ronpex) (m : SMap Byte) (q : List Instr) (pat f l : Nat) :
    (s.under r m q).splitsAnchor pat f l = s.splitsAnchor pat f l := by
  rfl

@[simp] theorem State.under_joinFaults (s : State) (r : Ronpex) (m : SMap Byte) (q : List Instr) (d : Desc) :
    (s.under r m q).joinFaults d = s.joinFaults d := by
  rfl

@[simp] theorem State.under_decryptFaults (s : State) (r : Ronpex) (m : SMap Byte) (q : List Instr) (d : Desc) :
    (s.under r m q).decryptFaults d = s.decryptFaults d := by
  rfl

@[simp] theorem State.under_badDesc (s : State) (r : Ronpex) (m : SMap Byte) (q : List Instr) (d : Desc) :
    (s.under r m q).badDesc d = s.badDesc d := by
  rfl

@[simp] theorem State.under_descWaits (s : State) (r : Ronpex) (m : SMap Byte) (q : List Instr) (d : Desc) :
    (s.under r m q).descWaits d = s.descWaits d := by
  rfl

@[simp] theorem State.under_bindsFull (s : State) (r : Ronpex) (m : SMap Byte) (q : List Instr) :
    (s.under r m q).bindsFull = s.bindsFull := by
  rfl

@[simp] theorem State.under_joinBlocks (s : State) (r : Ronpex) (m : SMap Byte) (q : List Instr) (n : Nat) :
    (s.under r m q).joinBlocks n = s.joinBlocks n := by
  rfl

@[simp] theorem State.under_canStart (s : State) (r : Ronpex) (m : SMap Byte) (q : List Instr) (n : Nat) (d : Desc) :
    (s.under r m q).canStart n d = s.canStart n d := by
  rfl

@[simp] theorem State.under_openParked (s : State) (r : Ronpex) (m : SMap Byte) (q : List Instr) (n : Nat) :
    (s.under r m q).openParked n = s.openParked n := by
  rfl

@[simp] theorem State.under_ringStarts (s : State) (r : Ronpex) (m : SMap Byte) (q : List Instr) (n : Nat) :
    (s.under r m q).ringStarts n = s.ringStarts n := by
  rfl

@[simp] theorem State.under_ringReady (s : State) (r : Ronpex) (m : SMap Byte) (q : List Instr) (k n : Nat) :
    (s.under r m q).ringReady k n = s.ringReady k n := by
  unfold State.ringReady
  simp

@[simp] theorem State.under_unready (s : State) (r : Ronpex) (m : SMap Byte) (q : List Instr) :
    (s.under r m q).unready = s.unready.under r m q := by
  unfold State.unready
  simp

/-! ### Machine/FaultOps -/

@[simp] theorem State.under_portGone (s : State) (r : Ronpex) (m : SMap Byte) (q : List Instr) (port : Nat) :
    (s.under r m q).portGone .plocen port = (s.portGone .plocen port).under r m q := by
  unfold State.portGone
  simp

/-! ### Machine/KeyOps -/

@[simp] theorem State.under_portOff (s : State) (r : Ronpex) (m : SMap Byte) (q : List Instr) (port : Nat) :
    (s.under r m q).portOff .plocen port = (s.portOff .plocen port).under r m q := by
  unfold State.portOff
  simp

/-! ### Machine/PowerOps -/

@[simp] theorem State.under_plocenReset (s : State) (r : Ronpex) (m : SMap Byte) (q : List Instr) :
    (s.under r m q).plocenReset = s.plocenReset.under r m q := by
  rfl

/-! ### Machine/Rings -/

@[simp] theorem State.under_sqStore (s : State) (r : Ronpex) (m : SMap Byte) (q : List Instr) (n t : Nat) :
    (s.under r m q).sqStore n t = (s.sqStore n t).under r m q := by
  unfold State.sqStore
  simp

@[simp] theorem State.under_cqStore (s : State) (r : Ronpex) (m : SMap Byte) (q : List Instr) (n h : Nat) :
    (s.under r m q).cqStore n h = (s.cqStore n h).under r m q := by
  unfold State.cqStore
  simp

@[simp] theorem State.under_armStore (s : State) (r : Ronpex) (m : SMap Byte) (q : List Instr) (n v : Nat) :
    (s.under r m q).armStore n v = (s.armStore n v).under r m q := by
  unfold State.armStore
  simp

@[simp] theorem State.under_firstTx (s : State) (r : Ronpex) (m : SMap Byte) (q : List Instr) (ph : Nat) :
    (s.under r m q).firstTx ph = s.firstTx ph := by
  rfl

@[simp] theorem State.under_bindJoin (s : State) (r : Ronpex) (m : SMap Byte) (q : List Instr) (n sub raw : Nat) :
    (s.under r m q).bindJoin n sub raw = (s.bindJoin n sub raw).under r m q := by
  unfold State.bindJoin
  dsimp only
  simp only [State.under_phOf, State.under_patOf, State.under_run?, State.under_ep, State.under_firstTx, State.under_now]
  generalize (if (descOf raw).phases.1 = (s.patOf (s.phOf (descOf raw).phases.1).pattern).first then none
    else s.run? (s.phOf (descOf raw).phases.1).pattern) = running
  cases running <;> simp

@[simp] theorem State.under_beginDesc (s : State) (r : Ronpex) (m : SMap Byte) (q : List Instr) (n sub raw : Nat) :
    (s.under r m q).beginDesc n sub raw = (s.beginDesc n sub raw).under r m q := by
  unfold State.beginDesc
  simp
  repeat' split
  all_goals rfl

@[simp] theorem State.under_startNext (s : State) (r : Ronpex) (m : SMap Byte) (q : List Instr) (n : Nat) :
    (s.under r m q).startNext n = (s.startNext n).under r m q := by
  unfold State.startNext
  simp
  repeat' split
  all_goals rfl

@[simp] theorem State.under_frontIs (s : State) (r : Ronpex) (m : SMap Byte) (q : List Instr) (n opc : Nat) :
    (s.under r m q).frontIs n opc = s.frontIs n opc := by
  rfl

@[simp] theorem State.under_startFront (s : State) (r : Ronpex) (m : SMap Byte) (q : List Instr) (n opc : Nat) :
    (s.under r m q).startFront n opc = (s.startFront n opc).under r m q := by
  unfold State.startFront
  simp

@[simp] theorem State.under_parked? (s : State) (r : Ronpex) (m : SMap Byte) (q : List Instr) (n sub : Nat) :
    (s.under r m q).parked? n sub = s.parked? n sub := by
  rfl

@[simp] theorem State.under_unpark (s : State) (r : Ronpex) (m : SMap Byte) (q : List Instr) (n sub : Nat) :
    (s.under r m q).unpark n sub = (s.unpark n sub).under r m q := by
  rfl

@[simp] theorem State.under_gateOpen (s : State) (r : Ronpex) (m : SMap Byte) (q : List Instr) (n sub : Nat) :
    (s.under r m q).gateOpen n sub = (s.gateOpen n sub).under r m q := by
  unfold State.gateOpen
  rw [State.under_parked?]
  cases s.parked? n sub with
  | none => rfl
  | some a =>
    dsimp only
    simp

@[simp] theorem State.under_waitOver (s : State) (r : Ronpex) (m : SMap Byte) (q : List Instr) (n sub : Nat) :
    (s.under r m q).waitOver n sub = (s.waitOver n sub).under r m q := by
  unfold State.waitOver
  rw [State.under_parked?]
  cases s.parked? n sub with
  | none => rfl
  | some a =>
    dsimp only
    simp

@[simp] theorem State.under_ringDrained (s : State) (r : Ronpex) (m : SMap Byte) (q : List Instr) (n : Nat) :
    (s.under r m q).ringDrained n = (s.ringDrained n).under r m q := by
  unfold State.ringDrained
  simp

/-! ### Machine/Translate -/

@[simp] theorem State.under_fillBlocked (s : State) (r : Ronpex) (m : SMap Byte) (q : List Instr) :
    (s.under r m q).fillBlocked = s.fillBlocked := by
  rfl

@[simp] theorem State.under_fetchFillsFrom (s : State) (r : Ronpex) (m : SMap Byte) (q : List Instr) (n : Nat) :
    (s.under r m q).fetchFillsFrom n = (s.fetchFillsFrom n).under r m q := by
  induction n generalizing s with
  | zero => rfl
  | succ n ih =>
    simp [State.fetchFillsFrom, ih]

@[simp] theorem State.under_fetchFills (s : State) (r : Ronpex) (m : SMap Byte) (q : List Instr) :
    (s.under r m q).fetchFills = s.fetchFills.under r m q := by
  unfold State.fetchFills
  simp

@[simp] theorem State.under_xltError (s : State) (r : Ronpex) (m : SMap Byte) (q : List Instr) (code : Nat) :
    (s.under r m q).xltError code = (s.xltError code).under r m q := by
  rfl

@[simp] theorem State.under_fillFront (s : State) (r : Ronpex) (m : SMap Byte) (q : List Instr) :
    (s.under r m q).fillFront = s.fillFront := by
  rfl

@[simp] theorem State.under_dropFill (s : State) (r : Ronpex) (m : SMap Byte) (q : List Instr) :
    (s.under r m q).dropFill = s.dropFill.under r m q := by
  rfl

@[simp] theorem State.under_rejectFill (s : State) (r : Ronpex) (m : SMap Byte) (q : List Instr) (count : Nat) (f : Fill) (reason : Nat) :
    (s.under r m q).rejectFill count f reason = (s.rejectFill count f reason).under r m q := by
  unfold State.rejectFill
  simp

@[simp] theorem State.under_settleFillsFrom (s : State) (r : Ronpex) (m : SMap Byte) (q : List Instr) (n : Nat) :
    (s.under r m q).settleFillsFrom n = (s.settleFillsFrom n).under r m q := by
  induction n generalizing s with
  | zero => rfl
  | succ n ih =>
    simp [State.settleFillsFrom, ih]
    repeat' split
    all_goals simp_all

@[simp] theorem State.under_settleFills (s : State) (r : Ronpex) (m : SMap Byte) (q : List Instr) :
    (s.under r m q).settleFills = s.settleFills.under r m q := by
  unfold State.settleFills
  simp

@[simp] theorem State.under_fillStore (s : State) (r : Ronpex) (m : SMap Byte) (q : List Instr) (t : Nat) :
    (s.under r m q).fillStore t = (s.fillStore t).under r m q := by
  unfold State.fillStore
  simp

@[simp] theorem State.under_missStore (s : State) (r : Ronpex) (m : SMap Byte) (q : List Instr) (h : Nat) :
    (s.under r m q).missStore h = (s.missStore h).under r m q := by
  unfold State.missStore
  simp

@[simp] theorem State.under_xltArmStore (s : State) (r : Ronpex) (m : SMap Byte) (q : List Instr) (v : Nat) :
    (s.under r m q).xltArmStore v = (s.xltArmStore v).under r m q := by
  unfold State.xltArmStore
  simp

@[simp] theorem State.under_openOf (s : State) (r : Ronpex) (m : SMap Byte) (q : List Instr) (tag : Nat) :
    (s.under r m q).openOf tag = s.openOf tag := by
  rfl

@[simp] theorem State.under_addDrain (s : State) (r : Ronpex) (m : SMap Byte) (q : List Instr) (c : Nat) (f : Fill) :
    (s.under r m q).addDrain c f = (s.addDrain c f).under r m q := by
  unfold State.addDrain
  simp

@[simp] theorem State.under_invDone (s : State) (r : Ronpex) (m : SMap Byte) (q : List Instr) :
    (s.under r m q).invDone = s.invDone.under r m q := by
  unfold State.invDone
  simp
  repeat' split
  all_goals rfl

@[simp] theorem State.under_microAck (s : State) (r : Ronpex) (m : SMap Byte) (q : List Instr) (m' : Nat) :
    (s.under r m q).microAck m' = (s.microAck m').under r m q := by
  unfold State.microAck
  simp
  split <;> rfl

@[simp] theorem State.under_drainedNow (s : State) (r : Ronpex) (m : SMap Byte) (q : List Instr) (tag : Nat) :
    (s.under r m q).drainedNow tag = (s.drainedNow tag).under r m q := by
  unfold State.drainedNow
  rw [State.under_ep]
  cases s.ep.xlt.drains.find? fun d => d.2.1 == tag with
  | none => rfl
  | some d =>
    dsimp only
    simp

@[simp] theorem State.under_pieceOpen (s : State) (r : Ronpex) (m : SMap Byte) (q : List Instr) (job off len : Nat) :
    (s.under r m q).pieceOpen job off len = s.pieceOpen job off len := by
  rfl

@[simp] theorem State.under_inRemovedNow (s : State) (r : Ronpex) (m : SMap Byte) (q : List Instr) :
    (s.under r m q).inRemovedNow = s.inRemovedNow.under r m q := by
  unfold State.inRemovedNow
  simp
  repeat' split
  all_goals simp_all

/-! ### Machine/AttachOps -/

@[simp] theorem State.under_attPump (s : State) (r : Ronpex) (m : SMap Byte) (q : List Instr) :
    (s.under r m q).attPump = s.attPump.under r m q := by
  unfold State.attPump
  simp

@[simp] theorem State.under_flitTotals (s : State) (r : Ronpex) (m : SMap Byte) (q : List Instr) (f : Flit) :
    (s.under r m q).flitTotals f = (s.flitTotals f).under r m q := by
  unfold State.flitTotals
  simp

@[simp] theorem State.under_sendNak (s : State) (r : Ronpex) (m : SMap Byte) (q : List Instr) :
    (s.under r m q).sendNak = s.sendNak.under r m q := by
  rfl

@[simp] theorem State.under_flitBad (s : State) (r : Ronpex) (m : SMap Byte) (q : List Instr) :
    (s.under r m q).flitBad = s.flitBad.under r m q := by
  unfold State.flitBad
  simp

@[simp] theorem State.under_resendHeld (s : State) (r : Ronpex) (m : SMap Byte) (q : List Instr) (l : List (Nat × List (BitVec 128))) :
    (s.under r m q).resendHeld l = (s.resendHeld l).under r m q := by
  unfold State.resendHeld
  simp

@[simp] theorem State.under_initIn (s : State) (r : Ronpex) (m : SMap Byte) (q : List Instr) (p : InitParams) :
    (s.under r m q).initIn p = (s.initIn p).under r m q := by
  unfold State.initIn
  simp
  repeat' split
  all_goals simp

@[simp] theorem State.under_initAckIn (s : State) (r : Ronpex) (m : SMap Byte) (q : List Instr) :
    (s.under r m q).initAckIn = s.initAckIn.under r m q := by
  unfold State.initAckIn
  simp

@[simp] theorem State.under_controlTaken (s : State) (r : Ronpex) (m : SMap Byte) (q : List Instr) (x : Flit) (f : State → State)
    (h : ∀ t : State, f (t.under r m q) = (f t).under r m q) :
    (s.under r m q).controlTaken x f = (s.controlTaken x f).under r m q := by
  simp [State.controlTaken, h]

@[simp] theorem State.under_moduleTrained (s : State) (r : Ronpex) (m : SMap Byte) (q : List Instr) (m' rate : Nat) :
    (s.under r m q).moduleTrained m' rate = (s.moduleTrained m' rate).under r m q := by
  unfold State.moduleTrained
  simp
  split <;> simp_all

@[simp] theorem State.under_sendInit (s : State) (r : Ronpex) (m : SMap Byte) (q : List Instr) :
    (s.under r m q).sendInit = s.sendInit.under r m q := by
  rfl

@[simp] theorem State.under_fitOf (s : State) (r : Ronpex) (m : SMap Byte) (q : List Instr) (fit4 : Bool) :
    (s.under r m q).fitOf fit4 = s.fitOf fit4 := by
  rfl

@[simp] theorem State.under_exchangeDone (s : State) (r : Ronpex) (m : SMap Byte) (q : List Instr) (version : Nat) (fit4 : Bool) :
    (s.under r m q).exchangeDone version fit4 = (s.exchangeDone version fit4).under r m q := by
  have hoff (t : State) (p : Nat) :
      (if (t.under r m q).portState .plocen p = 0 then t.under r m q else (t.under r m q).portOff .plocen p) =
        (if t.portState .plocen p = 0 then t else t.portOff .plocen p).under r m q := by
    simp
  unfold State.exchangeDone
  rw [State.under_ep, State.under_fitOf]
  cases s.fitOf fit4 with
  | none => simp
  | some n =>
    dsimp only
    rw [State.under_modAtt, State.under_foldl _ _ _ _ _ hoff, ← State.under_ite, State.under_sendInit, ← State.under_ite]

@[simp] theorem State.under_initAgain (s : State) (r : Ronpex) (m : SMap Byte) (q : List Instr) :
    (s.under r m q).initAgain = s.initAgain.under r m q := by
  unfold State.initAgain
  simp

/-! ### The obligation -/

/-- Settles O60: each command of the accelerator's side is one operation on the Plocen, whose equation under another Ronpex stands above. -/
theorem attachIsolation : Obligations.AttachIsolation := by
  unfold Obligations.AttachIsolation
  intro c s r m q hside
  suffices h : ∃ t, exec c s = .next t ∧ exec c (s.under r m q) = .next (t.under r m q) from h
  cases c <;> cases hside
  all_goals exact ⟨_, rfl, congrArg Host.Outcome.next (by simp)⟩
end Sys2Proof.Machine
end

section
/-! The oldest candidate of an output: among AGEs within half of their range of each other, the signed comparison is the order of their
distances from one base. -/

namespace Sys2Proof.Machine

open Sys2Proof Sys2Proof.Claims

/-- Two AGEs less than half of their range past one base are ordered by the signed difference as their distances from it. -/
theorem signed_subMod_neg_iff {a b base : Nat} (ha : subMod 16 a base < 2 ^ 15) (hb : subMod 16 b base < 2 ^ 15) :
    signed 16 (subMod 16 a b) < 0 ↔ subMod 16 a base < subMod 16 b base := by
  unfold signed subMod at *
  split <;> omega

/-- The signed difference of two such AGEs is zero exactly where they are as far from the base. -/
theorem signed_subMod_eq_zero_iff {a b base : Nat} (ha : subMod 16 a base < 2 ^ 15) (hb : subMod 16 b base < 2 ^ 15) :
    signed 16 (subMod 16 a b) = 0 ↔ subMod 16 a base = subMod 16 b base := by
  unfold signed subMod at *
  split <;> omega

/-- A candidate that goes before another is not younger. -/
theorem EddyEnt.age_le_of_before {x y : EddyEnt} {base : Nat} (hx : subMod 16 x.c.age base < 2 ^ 15)
    (hy : subMod 16 y.c.age base < 2 ^ 15) (h : x.before y = true) : subMod 16 x.c.age base ≤ subMod 16 y.c.age base := by
  have hlt := signed_subMod_neg_iff hx hy
  have heq := signed_subMod_eq_zero_iff hx hy
  simp only [EddyEnt.before, Bool.or_eq_true, Bool.and_eq_true, decide_eq_true_eq, beq_iff_eq] at h
  obtain h | ⟨h, -⟩ := h <;> omega

/-- A candidate that does not go before another is not older. -/
theorem EddyEnt.age_le_of_not_before {x y : EddyEnt} {base : Nat} (hx : subMod 16 x.c.age base < 2 ^ 15)
    (hy : subMod 16 y.c.age base < 2 ^ 15) (h : ¬x.before y = true) : subMod 16 y.c.age base ≤ subMod 16 x.c.age base := by
  have hlt := signed_subMod_neg_iff hx hy
  simp only [EddyEnt.before, Bool.or_eq_true, not_or, decide_eq_true_eq] at h
  omega

theorem oldestEnt_append_of_none {l : List EddyEnt} {a : EddyEnt} (h : oldestEnt l = none) : oldestEnt (l ++ [a]) = some a := by
  unfold oldestEnt at *
  rw [List.foldl_append, h]
  rfl

/-- One more candidate is the oldest where it goes before the oldest of the others, and else changes nothing. -/
theorem oldestEnt_append_of_some {l : List EddyEnt} {a y : EddyEnt} (h : oldestEnt l = some y) :
    oldestEnt (l ++ [a]) = some (if a.before y then a else y) := by
  unfold oldestEnt at *
  rw [List.foldl_append, h, apply_ite some]
  rfl

/-- An output without an oldest candidate has none. -/
theorem eq_nil_of_oldestEnt_none {l : List EddyEnt} (h : oldestEnt l = none) : l = [] := by
  obtain rfl | ⟨l, a, rfl⟩ := l.eq_nil_or_concat
  · rfl
  · cases hl : oldestEnt l with
    | none => simp [oldestEnt_append_of_none hl] at h
    | some y => simp [oldestEnt_append_of_some hl] at h

/-- Settles O18, by induction on the candidates from the last one: it takes the place of the oldest so far only where it goes before it. -/
theorem oldestFirst : Obligations.OldestFirst := by
  intro l x base hl hx
  replace hl : ∀ y ∈ l, subMod 16 y.c.age base < 2 ^ 15 := fun y hy => (hl y hy).2
  induction l using List.reverseRecOn generalizing x with
  | nil => simp [oldestEnt] at hx
  | append_singleton l a ih =>
    have ha := hl a (by simp)
    have hl' : ∀ y ∈ l, subMod 16 y.c.age base < 2 ^ 15 := fun y hy => hl y (by simp [hy])
    cases ho : oldestEnt l with
    | none =>
      obtain rfl : a = x := by simpa [oldestEnt_append_of_none ho] using hx
      simp [eq_nil_of_oldestEnt_none ho]
    | some y =>
      obtain ⟨hy, hmin⟩ := ih y ho hl'
      rw [oldestEnt_append_of_some ho, Option.some.injEq] at hx
      subst hx
      by_cases hb : a.before y = true
      · have hay := EddyEnt.age_le_of_before ha (hl' y hy) hb
        simp only [hb, if_true, List.mem_append, List.mem_singleton, or_true, true_and]
        exact fun z hz => hz.elim (fun hz => hay.trans (hmin z hz)) fun hz => hz ▸ le_rfl
      · have hya := EddyEnt.age_le_of_not_before ha (hl' y hy) hb
        simp only [hb, Bool.false_eq_true, if_false, List.mem_append, List.mem_singleton]
        exact ⟨.inl hy, fun z hz => hz.elim (hmin z) fun hz => hz ▸ hya⟩

end Sys2Proof.Machine
end

section
/-! The timers of a destination: a record, a context, a cached reply and a held reply leave at their time, and nothing else changes. -/

namespace Sys2Proof.Machine

open Sys2Proof Sys2Proof.Claims

/-! ### Tables -/

section Tables
variable {α : Type}

@[simp] theorem SMap.find?_nil (k : Nat) : SMap.find? ([] : SMap α) k = none := rfl

theorem SMap.find?_cons (j k : Nat) (v : α) (m : SMap α) :
    SMap.find? ((j, v) :: m) k = if j = k then some v else SMap.find? m k := rfl

/-- A table without a key has no value for it, and every other key has its value still. -/
theorem SMap.find?_drop (m : SMap α) (k j : Nat) : SMap.find? (SMap.drop m k) j = if j = k then none else SMap.find? m j := by
  induction m with
  | nil => simp [SMap.drop]
  | cons e m ih =>
    obtain ⟨i, v⟩ := e
    unfold SMap.drop at ih ⊢
    by_cases hi : i = k
    · subst hi
      simp only [List.filter_cons, ne_eq, not_true_eq_false, decide_false, Bool.false_eq_true, if_false, ih, SMap.find?_cons]
      split
      · rfl
      · next hj => rw [if_neg (Ne.symm hj)]
    · simp only [List.filter_cons, ne_eq, hi, not_false_eq_true, decide_true, if_true, SMap.find?_cons, ih]
      split
      · next hij => subst hij; rw [if_neg hi]
      · rfl

end Tables

/-! ### The destination of a part -/

@[simp] theorem State.destOf_setDest (s : State) (p : Part) (d : Dest) : (s.setDest p d).destOf p = d := by cases p <;> rfl

/-! ### Held replies -/

/-- Sending replies changes the queues of the ports alone. -/
theorem State.sendReplies_only (s : State) (l : List Reply) :
    s.sendReplies l = { s with ep := { s.ep with tx := (s.sendReplies l).ep.tx } } := by
  unfold State.sendReplies
  cases l with
  | nil => rfl
  | cons r l =>
    dsimp only
    split <;> rfl

/-- Sending what is held like `r` takes just that from the held replies. -/
theorem State.flushLike_only (s : State) (r : Reply) :
    s.flushLike r = { s with ep := { s.ep with
      dest := { s.ep.dest with replies := s.ep.dest.replies.filter fun x => !r.like x }, tx := (s.flushLike r).ep.tx } } := by
  unfold State.flushLike
  rw [State.sendReplies_only]
  rfl

@[simp] theorem Reply.like_self (r : Reply) : r.like r = true := by simp [Reply.like]

/-- Sending what is held like each reply of a list leaves of the held replies some, none of which is in the list. -/
theorem State.flushLike_fold (l : List Reply) : ∀ s : State,
    (∀ r ∈ (l.foldl (fun t r => t.flushLike r) s).ep.dest.replies, r ∈ s.ep.dest.replies ∧ r ∉ l) ∧
      l.foldl (fun t r => t.flushLike r) s = { s with ep := { s.ep with
        dest := { s.ep.dest with replies := (l.foldl (fun t r => t.flushLike r) s).ep.dest.replies }
        tx := (l.foldl (fun t r => t.flushLike r) s).ep.tx } } := by
  induction l with
  | nil => exact fun s => ⟨fun r hr => ⟨hr, by simp⟩, rfl⟩
  | cons a l ih =>
    intro s
    obtain ⟨hmem, heq⟩ := ih (s.flushLike a)
    rw [List.foldl_cons]
    refine ⟨fun r hr => ?_, ?_⟩
    · obtain ⟨hr, hl⟩ := hmem r hr
      rw [State.flushLike_only] at hr
      have hr : r ∈ s.ep.dest.replies ∧ (!a.like r) = true := by simpa using hr
      refine ⟨hr.1, ?_⟩
      simp only [List.mem_cons, not_or]
      exact ⟨fun h => by simp [h] at hr, hl⟩
    · rw [heq, State.flushLike_only s a]

/-! ### The statement -/

/-- Settles O17: each timer filters the list it watches. -/
theorem destinationTimers : Obligations.DestinationTimers := by
  intro s part node
  refine ⟨fun r hr hprog hlast => ?_, fun stream => ?_, ?_, ?_, fun plane => ?_⟩
  · have hexp : s.recExpire part node = s.setDest part { s.destOf part with recs := SMap.drop (s.destOf part).recs node } := by
      simp [State.recExpire, hr, hprog, hlast]
    exact ⟨_, rfl, by simp [hexp, SMap.find?_drop], fun k hk => by simp [hexp, SMap.find?_drop, hk], by rw [hexp]; simp⟩
  · refine ⟨_, rfl, ?_, ?_, ?_⟩
    · intro x hx hsrc hstream hheld
      simp only [State.ctxExpire, State.destOf_setDest, List.mem_filter] at hx
      simpa [hsrc, hstream, hheld] using hx.2
    · intro x hx hne
      simp only [State.ctxExpire, State.destOf_setDest, List.mem_filter]
      refine ⟨hx, ?_⟩
      rcases hne with h | h | h <;> simp [h]
    · simp [State.ctxExpire]
  · exact ⟨_, rfl, fun e => by simp [State.cacheExpire], by simp [State.cacheExpire]⟩
  · obtain ⟨hmem, heq⟩ := State.flushLike_fold (s.ep.dest.replies.filter fun r => r.dest == node && decide (r.due ≤ s.now)) s
    refine ⟨_, rfl, fun r hr hdest => ?_, heq⟩
    obtain ⟨hin, hout⟩ := hmem r hr
    simpa [List.mem_filter, hin, hdest] using hout
  · exact ⟨_, rfl, fun u => by simp [State.reachable, State.modSource, State.setSource, State.source]; tauto, rfl⟩

end Sys2Proof.Machine
end

section
/-! What an operation of one part leaves of the other part: everything. One lemma for each operation, in the order and under the names of
the model's files; an operation that either part has leaves the part beside its own. -/

namespace Sys2Proof.Machine

open Sys2Proof Sys2Proof.Claims

/-- The other part of a state: what an operation of part `p` does not touch. -/
def State.beside (s : State) : Part → Ronpex ⊕ Plocen
  | .ronpex => .inr s.ep
  | .plocen => .inl s.rp

@[simp] theorem State.beside_mk_ronpex (s : State) (n f : Nat) (l : List Instr) (o : List Out) (m : SMap Byte) (r : Ronpex) :
    State.beside { now := n, free := f, pending := l, out := o, hbm := m, rp := r, ep := s.ep } .ronpex = s.beside .ronpex := rfl

@[simp] theorem State.beside_mk_plocen (s : State) (n f : Nat) (l : List Instr) (o : List Out) (m : SMap Byte) (e : Plocen) :
    State.beside { now := n, free := f, pending := l, out := o, hbm := m, rp := s.rp, ep := e } .plocen = s.beside .plocen := rfl

@[simp] theorem State.beside_mk (s : State) (n f : Nat) (l : List Instr) (o : List Out) (m : SMap Byte) (q : Part) :
    State.beside { now := n, free := f, pending := l, out := o, hbm := m, rp := s.rp, ep := s.ep } q = s.beside q := by cases q <;> rfl

@[simp] theorem State.beside_ite (c : Prop) [Decidable c] (a b : State) (p : Part) :
    (if c then a else b).beside p = if c then a.beside p else b.beside p := by
  split <;> rfl

@[simp] theorem State.beside_foldl {α : Type} (p : Part) (g : State → α → State) (h : ∀ t x, (g t x).beside p = t.beside p)
    (l : List α) (s : State) : (l.foldl g s).beside p = s.beside p := by
  induction l generalizing s with
  | nil => rfl
  | cons x r ih => rw [List.foldl_cons, ih, h]

/-! ### Machine/Ops -/

@[simp] theorem State.beside_setReg (s : State) (p : Part) (a v : Nat) :
    (s.setReg p a v).beside p = s.beside p := by
  unfold State.setReg
  cases p <;> simp

@[simp] theorem State.beside_setFld (s : State) (p : Part) (a lo len v : Nat) :
    (s.setFld p a lo len v).beside p = s.beside p := by
  unfold State.setFld
  simp

@[simp] theorem State.beside_satFld (s : State) (p : Part) (a lo len n : Nat) :
    (s.satFld p a lo len n).beside p = s.beside p := by
  unfold State.satFld
  simp

@[simp] theorem State.beside_setFlag (s : State) (p : Part) (a i : Nat) (b : Bool) :
    (s.setFlag p a i b).beside p = s.beside p := by
  unfold State.setFlag
  simp

@[simp] theorem State.beside_addPair (s : State) (p : Part) (lo hi n : Nat) :
    (s.addPair p lo hi n).beside p = s.beside p := by
  unfold State.addPair
  simp

@[simp] theorem State.beside_setLink (s : State) (p : Part) (port : Nat) (l : Link) :
    (s.setLink p port l).beside p = s.beside p := by
  unfold State.setLink
  cases p <;> simp

@[simp] theorem State.beside_modLink (s : State) (p : Part) (port : Nat) (f : Link → Link) :
    (s.modLink p port f).beside p = s.beside p := by
  unfold State.modLink
  simp

@[simp] theorem State.beside_setSec (s : State) (p : Part) (x : Security) :
    (s.setSec p x).beside p = s.beside p := by
  unfold State.setSec
  cases p <;> simp

@[simp] theorem State.beside_setTimeSt (s : State) (p : Part) (t : TimeSt) :
    (s.setTimeSt p t).beside p = s.beside p := by
  unfold State.setTimeSt
  cases p <;> simp

@[simp] theorem State.beside_setOrders (s : State) (p : Part) (o : Orders) :
    (s.setOrders p o).beside p = s.beside p := by
  unfold State.setOrders
  cases p <;> simp

@[simp] theorem State.beside_setSource (s : State) (p : Part) (x : Source) :
    (s.setSource p x).beside p = s.beside p := by
  unfold State.setSource
  cases p <;> simp

@[simp] theorem State.beside_setDest (s : State) (p : Part) (x : Dest) :
    (s.setDest p x).beside p = s.beside p := by
  unfold State.setDest
  cases p <;> simp

@[simp] theorem State.beside_hbmWrite (s : State) (a : Nat) (d : List Byte) (q : Part) :
    (s.hbmWrite a d).beside q = s.beside q := by
  unfold State.hbmWrite
  simp

@[simp] theorem State.beside_hbmZero (s : State) (a n : Nat) (q : Part) :
    (s.hbmZero a n).beside q = s.beside q := by
  unfold State.hbmZero
  simp

@[simp] theorem State.beside_draw (s : State) (q : Part) :
    s.draw.2.beside q = s.beside q := by
  unfold State.draw
  simp

@[simp] theorem State.beside_emit (s : State) (o : Out) (q : Part) :
    (s.emit o).beside q = s.beside q := by
  unfold State.emit
  simp

@[simp] theorem State.beside_msix (s : State) (v : Nat) :
    (s.msix v).beside .ronpex = s.beside .ronpex := by
  unfold State.msix
  simp

@[simp] theorem State.beside_rpLog (s : State) (b : LogBody) :
    (s.rpLog b).beside .ronpex = s.beside .ronpex := by
  unfold State.rpLog
  simp

@[simp] theorem State.beside_rpCond (s : State) (code origin requester port skein addr old new : Nat) :
    (s.rpCond code origin requester port skein addr old new).beside .ronpex = s.beside .ronpex := by
  unfold State.rpCond
  simp

@[simp] theorem State.beside_evtWrite (s : State) (e : Event) :
    (s.evtWrite e).beside .ronpex = s.beside .ronpex := by
  unfold State.evtWrite
  simp

@[simp] theorem State.beside_evtOverflow (s : State) :
    s.evtOverflow.beside .ronpex = s.beside .ronpex := by
  unfold State.evtOverflow
  simp

@[simp] theorem State.beside_post (s : State) (e : Event) :
    (s.post e).beside .ronpex = s.beside .ronpex := by
  unfold State.post
  simp

@[simp] theorem State.beside_postFor (s : State) (e : Event) (scope : Nat) (skeins : List Nat) :
    (s.postFor e scope skeins).beside .ronpex = s.beside .ronpex := by
  unfold State.postFor
  simp

@[simp] theorem State.beside_pstCell (s : State) (a v : Nat) :
    (s.pstCell a v).beside .ronpex = s.beside .ronpex := by
  unfold State.pstCell
  simp

theorem State.beside_genAdvance (s : State) (i : Nat) :
    ∀ t, s.genAdvance i = some t → t.beside .ronpex = s.beside .ronpex := by
  unfold State.genAdvance
  simp

@[simp] theorem State.beside_pstCount (s : State) (a lo len : Nat) :
    (s.pstCount a lo len).beside .ronpex = s.beside .ronpex := by
  unfold State.pstCount
  simp

@[simp] theorem State.beside_modUnits (s : State) (f : Units → Units) :
    (s.modUnits f).beside .ronpex = s.beside .ronpex := by
  unfold State.modUnits
  simp

@[simp] theorem State.beside_setUnit (s : State) (i cause qstep : Nat) :
    (s.setUnit i cause qstep).beside .ronpex = s.beside .ronpex := by
  unfold State.setUnit
  simp

@[simp] theorem State.beside_modFm (s : State) (f : Fmem → Fmem) :
    (s.modFm f).beside .ronpex = s.beside .ronpex := by
  unfold State.modFm
  simp

@[simp] theorem State.beside_settleLine (s : State) (line : Nat) :
    (s.settleLine line).beside .ronpex = s.beside .ronpex := by
  unfold State.settleLine
  simp

@[simp] theorem State.beside_sealLines (s : State) (lines : List Nat) :
    (s.sealLines lines).beside .ronpex = s.beside .ronpex := by
  unfold State.sealLines
  simp

@[simp] theorem State.beside_memWrite (s : State) (a : Nat) (d : List Byte) :
    (s.memWrite a d).beside .ronpex = s.beside .ronpex := by
  unfold State.memWrite
  simp

@[simp] theorem State.beside_memZero (s : State) (a n : Nat) :
    (s.memZero a n).beside .ronpex = s.beside .ronpex := by
  unfold State.memZero
  simp

/-! ### Machine/Route -/

@[simp] theorem State.beside_offer (s : State) (port : Nat) (x : EddyEnt) :
    (s.offer port x).beside .ronpex = s.beside .ronpex := by
  unfold State.offer
  simp

@[simp] theorem State.beside_modWarp (s : State) (f : Warp → Warp) :
    (s.modWarp f).beside .ronpex = s.beside .ronpex := by
  unfold State.modWarp
  simp

@[simp] theorem State.beside_logUnrouted (s : State) (p : Nat) (c : Container) :
    (s.logUnrouted p c).beside .ronpex = s.beside .ronpex := by
  unfold State.logUnrouted
  simp

@[simp] theorem State.beside_goHome (s : State) (c : Container) :
    (s.goHome c).beside .ronpex = s.beside .ronpex := by
  unfold State.goHome
  simp

@[simp] theorem State.beside_reflect (s : State) (x : EddyEnt) (noPath : Bool) :
    (s.reflect x noPath).beside .ronpex = s.beside .ronpex := by
  unfold State.reflect
  dsimp only
  repeat' split
  all_goals simp

@[simp] theorem State.beside_divert (s : State) (o : Nat) (x : EddyEnt) :
    (s.divert o x).beside .ronpex = s.beside .ronpex := by
  unfold State.divert
  dsimp only
  repeat' split
  all_goals simp

@[simp] theorem State.beside_toOutput (s : State) (r : Route) (x : EddyEnt) :
    (s.toOutput r x).beside .ronpex = s.beside .ronpex := by
  unfold State.toOutput
  repeat' split
  all_goals simp

/-! ### Machine/Send -/

@[simp] theorem State.beside_hold (s : State) (p : Part) (dest skein plane planes : Nat) (loc : HeldAt) (m : Msg) (own : Owner) :
    (s.hold p dest skein plane planes loc m own).1.beside p = s.beside p := by
  unfold State.hold
  simp

@[simp] theorem State.beside_rpSend (s : State) (h : Held) :
    (s.rpSend h).beside .ronpex = s.beside .ronpex := by
  unfold State.rpSend
  simp

@[simp] theorem State.beside_rpPush (s : State) :
    s.rpPush.beside .ronpex = s.beside .ronpex := by
  unfold State.rpPush
  simp

@[simp] theorem State.beside_rpMgmtPort (s : State) (port dest : Nat) (m : Mgmt) (own : Owner) :
    (s.rpMgmtPort port dest m own).beside .ronpex = s.beside .ronpex := by
  unfold State.rpMgmtPort
  simp

@[simp] theorem State.beside_rpMgmtNode (s : State) (dest : Nat) (m : Mgmt) (own : Owner) :
    (s.rpMgmtNode dest m own).beside .ronpex = s.beside .ronpex := by
  unfold State.rpMgmtNode
  simp

@[simp] theorem State.beside_relaySend (s : State) (m node hank skein value : Nat) :
    (s.relaySend m node hank skein value).beside .ronpex = s.beside .ronpex := by
  unfold State.relaySend
  simp

@[simp] theorem State.beside_epMgmt (s : State) (plane : Nat) (m : Mgmt) :
    (s.epMgmt plane m).beside .plocen = s.beside .plocen := by
  unfold State.epMgmt
  simp

@[simp] theorem State.beside_epMgmtLowest (s : State) (m : Mgmt) :
    (s.epMgmtLowest m).beside .plocen = s.beside .plocen := by
  unfold State.epMgmtLowest
  split <;> simp

@[simp] theorem State.beside_epLog (s : State) (b : LogBody) :
    (s.epLog b).beside .plocen = s.beside .plocen := by
  unfold State.epLog
  simp

@[simp] theorem State.beside_epCond (s : State) (code origin requester port skein addr old new : Nat) :
    (s.epCond code origin requester port skein addr old new).beside .plocen = s.beside .plocen := by
  unfold State.epCond
  simp

@[simp] theorem State.beside_plog (s : State) (p : Part) (b : LogBody) :
    (s.plog p b).beside p = s.beside p := by
  unfold State.plog
  cases p <;> simp

@[simp] theorem State.beside_pcond (s : State) (p : Part) (code origin requester port skein addr old new : Nat) :
    (s.pcond p code origin requester port skein addr old new).beside p = s.beside p := by
  unfold State.pcond
  simp

@[simp] theorem State.beside_logWrite (s : State) (p : Part) (a v : Nat) (w : Writer) :
    (s.logWrite p a v w).beside p = s.beside p := by
  unfold State.logWrite
  simp

@[simp] theorem State.beside_wrote (s : State) (p : Part) (a v : Nat) (w : Writer) (f : State → State)
    (h : ∀ t, (f t).beside p = t.beside p) :
    (s.wrote p a v w f).beside p = s.beside p := by
  unfold State.wrote
  simp [h]

/-! ### Machine/Flags -/

@[simp] theorem State.beside_modAtt (s : State) (f : Attach → Attach) :
    (s.modAtt f).beside .plocen = s.beside .plocen := by
  unfold State.modAtt
  simp

@[simp] theorem State.beside_viaAttach (s : State) (f : State → State) (q : Part) (h : ∀ t, (f t).beside q = t.beside q) :
    (s.viaAttach f).beside q = s.beside q := by
  unfold State.viaAttach
  simp [h]

@[simp] theorem State.beside_sendFlit (s : State) (kind seq : Nat) (body : List (BitVec 128)) :
    (s.sendFlit kind seq body).beside .plocen = s.beside .plocen := by
  unfold State.sendFlit
  simp

@[simp] theorem State.beside_sendControl (s : State) (subtype : Nat) (params : List Byte) :
    (s.sendControl subtype params).beside .plocen = s.beside .plocen := by
  unfold State.sendControl
  simp

@[simp] theorem State.beside_idleFlit (s : State) :
    s.idleFlit.beside .plocen = s.beside .plocen := by
  unfold State.idleFlit
  simp

@[simp] theorem State.beside_sendChunks (n : Nat) (x : List (BitVec 128)) (s : State) :
    (s.sendChunks n x).beside .plocen = s.beside .plocen := by
  induction n generalizing x s with
  | zero => rfl
  | succ n ih =>
    unfold State.sendChunks
    repeat' (first | split | dsimp only)
    all_goals simp [ih]

@[simp] theorem State.beside_sendTxn (s : State) (t : Txn) :
    (s.sendTxn t).beside .plocen = s.beside .plocen := by
  unfold State.sendTxn
  simp

@[simp] theorem State.beside_pumpCpl (n : Nat) (s : State) :
    (s.pumpCpl n).beside .plocen = s.beside .plocen := by
  induction n generalizing s with
  | zero => rfl
  | succ n ih =>
    unfold State.pumpCpl
    repeat' (first | split | dsimp only)
    all_goals simp [ih]

@[simp] theorem State.beside_complete (s : State) (rid tag addr status len : Nat) (data : List Byte) :
    (s.complete rid tag addr status len data).beside .plocen = s.beside .plocen := by
  unfold State.complete
  simp

@[simp] theorem State.beside_pump (n : Nat) (s : State) :
    (s.pump n).beside .plocen = s.beside .plocen := by
  induction n generalizing s with
  | zero => rfl
  | succ n ih =>
    unfold State.pump
    repeat' (first | split | dsimp only)
    all_goals simp [ih]

@[simp] theorem State.beside_request (s : State) (l : List AttReq) :
    (s.request l).beside .plocen = s.beside .plocen := by
  unfold State.request
  simp

@[simp] theorem State.beside_modDest (s : State) (f : Dest → Dest) :
    (s.modDest f).beside .plocen = s.beside .plocen := by
  unfold State.modDest
  simp

@[simp] theorem State.beside_landWrites (s : State) (l : List AttReq) :
    (s.landWrites l).beside .plocen = s.beside .plocen := by
  unfold State.landWrites
  simp

@[simp] theorem State.beside_releaseLands (s : State) :
    s.releaseLands.beside .plocen = s.beside .plocen := by
  unfold State.releaseLands
  simp

@[simp] theorem State.beside_rxLink (s : State) (p : Part) (port : Nat) (l1 : Link) :
    (s.rxLink p port l1).beside p = s.beside p := by
  unfold State.rxLink
  split <;> simp

@[simp] theorem State.beside_rxBlock (s : State) (p : Part) (port : Nat) (b : Block) :
    (s.rxBlock p port b).beside p = s.beside p := by
  unfold State.rxBlock
  simp

@[simp] theorem State.beside_epErr (s : State) (b : Nat) :
    (s.epErr b).beside .plocen = s.beside .plocen := by
  unfold State.epErr
  simp

@[simp] theorem State.beside_epOptError (s : State) (b : Nat) :
    (s.epOptError b).beside .plocen = s.beside .plocen := by
  unfold State.epOptError
  simp

@[simp] theorem State.beside_errsumMsix (s before : State) :
    (s.errsumMsix before).beside .ronpex = s.beside .ronpex := by
  unfold State.errsumMsix
  simp

@[simp] theorem State.beside_secError (s : State) (p : Part) (b port : Nat) :
    (s.secError p b port).beside p = s.beside p := by
  unfold State.secError
  cases p <;> simp

@[simp] theorem State.beside_fmhError (s : State) (b offset scope : Nat) (skeins : List Nat) :
    (s.fmhError b offset scope skeins).beside .ronpex = s.beside .ronpex := by
  unfold State.fmhError
  simp

/-! ### Machine/OrderOps -/

@[simp] theorem State.beside_modTray (s : State) (f : Tray → Tray) :
    (s.modTray f).beside .ronpex = s.beside .ronpex := by
  unfold State.modTray
  simp

@[simp] theorem State.beside_trayOut (s : State) (port : Nat) (f : TrayFrame) (q : Part) :
    (s.trayOut port f).beside q = s.beside q := by
  unfold State.trayOut
  simp

@[simp] theorem State.beside_trayMgmt (s : State) (m : Mgmt) :
    (s.trayMgmt m).beside .ronpex = s.beside .ronpex := by
  unfold State.trayMgmt
  simp

@[simp] theorem State.beside_toEndPoint (s : State) (p : Nat) (m : Mgmt) :
    (s.toEndPoint p m).beside .ronpex = s.beside .ronpex := by
  unfold State.toEndPoint
  simp

@[simp] theorem State.beside_toFarEnd (s : State) (p : Nat) (m : Mgmt) :
    (s.toFarEnd p m).beside .ronpex = s.beside .ronpex := by
  unfold State.toFarEnd
  repeat' split
  all_goals simp

@[simp] theorem State.beside_orderToMembers (s : State) (o : SwitchOrder) :
    (s.orderToMembers o).beside .ronpex = s.beside .ronpex := by
  unfold State.orderToMembers
  simp

@[simp] theorem State.beside_issueOrder (s : State) (o : SwitchOrder) :
    (s.issueOrder o).beside .ronpex = s.beside .ronpex := by
  unfold State.issueOrder
  simp

@[simp] theorem State.beside_unitEvent (s : State) (i : Nat) :
    (s.unitEvent i).beside .ronpex = s.beside .ronpex := by
  unfold State.unitEvent
  simp

@[simp] theorem State.beside_showUnits (s : State) (quiet : Bool) (l : List Nat) :
    (s.showUnits quiet l).beside .ronpex = s.beside .ronpex := by
  unfold State.showUnits
  simp

@[simp] theorem State.beside_spdError (s : State) (n b skein : Nat) :
    (s.spdError n b skein).beside .ronpex = s.beside .ronpex := by
  unfold State.spdError
  simp

@[simp] theorem State.beside_setTally (s : State) (ph : Nat) (t : Tally) :
    (s.setTally ph t).beside .ronpex = s.beside .ronpex := by
  unfold State.setTally
  simp

@[simp] theorem State.beside_addTally (s : State) (ph status inst round skein : Nat) :
    (s.addTally ph status inst round skein).beside .ronpex = s.beside .ronpex := by
  unfold State.addTally
  simp

@[simp] theorem State.beside_tallyPorts (s : State) (ph : Nat) (l : List Nat) (ok : Bool) :
    (s.tallyPorts ph l ok).beside .ronpex = s.beside .ronpex := by
  unfold State.tallyPorts
  simp

@[simp] theorem State.beside_tallyLost (s : State) (ph : Nat) (l : List Nat) :
    (s.tallyLost ph l).beside .ronpex = s.beside .ronpex := by
  unfold State.tallyLost
  simp

@[simp] theorem State.beside_loseGroup (s : State) (n : Nat) (r : PhaseRec) (ph : Nat) :
    (s.loseGroup n r ph).beside .ronpex = s.beside .ronpex := by
  unfold State.loseGroup
  simp

@[simp] theorem State.beside_loseContexts (s : State) (n : Nat) :
    (s.loseContexts n).beside .ronpex = s.beside .ronpex := by
  unfold State.loseContexts
  simp

@[simp] theorem State.beside_classOrder (s : State) (c unitType unit gen : Nat) :
    (s.classOrder c unitType unit gen).beside .ronpex = s.beside .ronpex := by
  unfold State.classOrder
  simp

@[simp] theorem State.beside_spindleOrder (s : State) (n : Nat) :
    (s.spindleOrder n).beside .ronpex = s.beside .ronpex := by
  unfold State.spindleOrder
  dsimp only
  repeat' split
  all_goals simp

@[simp] theorem State.beside_modSk (s : State) (f : Skeins → Skeins) :
    (s.modSk f).beside .ronpex = s.beside .ronpex := by
  unfold State.modSk
  simp

@[simp] theorem State.beside_sendAssign (s : State) (port : Nat) :
    (s.sendAssign port).beside .ronpex = s.beside .ronpex := by
  unfold State.sendAssign
  simp

@[simp] theorem State.beside_sendSlots (s : State) :
    s.sendSlots.beside .ronpex = s.beside .ronpex := by
  unfold State.sendSlots
  simp

/-! ### Machine/CmdOps -/

@[simp] theorem State.beside_modMgmt (s : State) (f : MgmtRings → MgmtRings) :
    (s.modMgmt f).beside .ronpex = s.beside .ronpex := by
  unfold State.modMgmt
  simp

@[simp] theorem State.beside_cmdEvent (s : State) (r : Running) (status detail : Nat) :
    (s.cmdEvent r status detail).beside .ronpex = s.beside .ronpex := by
  unfold State.cmdEvent
  simp

@[simp] theorem State.beside_cmdNext (s : State) (q : Part) :
    s.cmdNext.beside q = s.beside q := by
  unfold State.cmdNext
  simp

@[simp] theorem State.beside_cmdDone (s : State) (status detail : Nat) :
    (s.cmdDone status detail).beside .ronpex = s.beside .ronpex := by
  unfold State.cmdDone
  split <;> simp

@[simp] theorem State.beside_cmdWaited (s : State) (w : CmdWait) (status detail : Nat) :
    (s.cmdWaited w status detail).beside .ronpex = s.beside .ronpex := by
  unfold State.cmdWaited
  simp

@[simp] theorem State.beside_sendOver (s : State) (id : Nat) (lost : Bool) :
    (s.sendOver id lost).beside .ronpex = s.beside .ronpex := by
  unfold State.sendOver
  split <;> simp

@[simp] theorem State.beside_sendReport (s : State) (r : Report) :
    (s.sendReport r).beside .plocen = s.beside .plocen := by
  unfold State.sendReport
  simp

@[simp] theorem State.beside_report (s : State) (type target plane : Nat) :
    (s.report type target plane).beside .plocen = s.beside .plocen := by
  unfold State.report
  dsimp only
  split <;> simp

@[simp] theorem State.beside_reportWindow (s : State) (type target : Nat) :
    (s.reportWindow type target).beside .plocen = s.beside .plocen := by
  unfold State.reportWindow
  split <;> simp

/-! ### Machine/RingOps -/

@[simp] theorem State.beside_modRing (s : State) (n : Nat) (f : Ring → Ring) :
    (s.modRing n f).beside .plocen = s.beside .plocen := by
  unfold State.modRing
  simp

@[simp] theorem State.beside_ringError (s : State) (n code : Nat) :
    (s.ringError n code).beside .plocen = s.beside .plocen := by
  unfold State.ringError
  simp

@[simp] theorem State.beside_fetchFrom (n : Nat) (s : State) (x : Nat) :
    (s.fetchFrom n x).beside .plocen = s.beside .plocen := by
  induction n generalizing s x with
  | zero => rfl
  | succ n ih =>
    unfold State.fetchFrom
    repeat' (first | split | dsimp only)
    all_goals simp [ih]

@[simp] theorem State.beside_fetchRing (s : State) (n : Nat) :
    (s.fetchRing n).beside .plocen = s.beside .plocen := by
  unfold State.fetchRing
  simp

@[simp] theorem State.beside_ringIntr (s : State) (n : Nat) :
    (s.ringIntr n).beside .plocen = s.beside .plocen := by
  unfold State.ringIntr
  dsimp only
  split <;> simp

@[simp] theorem State.beside_postCompletion (s : State) (n sub code info cookie : Nat) :
    (s.postCompletion n sub code info cookie).beside .plocen = s.beside .plocen := by
  unfold State.postCompletion
  simp

@[simp] theorem State.beside_completionDone (s : State) (n at_ : Nat) (ok : Bool) :
    (s.completionDone n at_ ok).beside .plocen = s.beside .plocen := by
  unfold State.completionDone
  simp

@[simp] theorem State.beside_modAct (s : State) (n sub : Nat) (f : Act → Act) :
    (s.modAct n sub f).beside .plocen = s.beside .plocen := by
  unfold State.modAct
  simp

@[simp] theorem State.beside_dropFront (s : State) (n : Nat) :
    (s.dropFront n).beside .plocen = s.beside .plocen := by
  unfold State.dropFront
  simp

@[simp] theorem State.beside_settleFront (n : Nat) (s : State) (x : Nat) :
    (s.settleFront n x).beside .plocen = s.beside .plocen := by
  induction n generalizing s x with
  | zero => rfl
  | succ n ih =>
    unfold State.settleFront
    repeat' (first | split | dsimp only)
    all_goals simp [ih]

@[simp] theorem State.beside_settleRing (s : State) (n : Nat) :
    (s.settleRing n).beside .plocen = s.beside .plocen := by
  unfold State.settleRing
  simp

@[simp] theorem State.beside_takeArrived (n : Nat) (s : State) (x : Nat) :
    (s.takeArrived n x).beside .plocen = s.beside .plocen := by
  induction n generalizing s x with
  | zero => rfl
  | succ n ih =>
    unfold State.takeArrived
    repeat' (first | split | dsimp only)
    all_goals simp [ih]

@[simp] theorem State.beside_ringFetched (s : State) (n first m : Nat) (data : List Byte) (ok : Bool) :
    (s.ringFetched n first m data ok).beside .plocen = s.beside .plocen := by
  unfold State.ringFetched
  simp

@[simp] theorem State.beside_failAct (s : State) (n sub code info : Nat) :
    (s.failAct n sub code info).beside .plocen = s.beside .plocen := by
  unfold State.failAct
  split <;> simp

@[simp] theorem State.beside_settleAct (s : State) (n sub : Nat) :
    (s.settleAct n sub).beside .plocen = s.beside .plocen := by
  unfold State.settleAct
  split <;> simp

@[simp] theorem State.beside_partDone (s : State) (n sub : Nat) :
    (s.partDone n sub).beside .plocen = s.beside .plocen := by
  unfold State.partDone
  simp

@[simp] theorem State.beside_partFailed (s : State) (n sub code info : Nat) :
    (s.partFailed n sub code info).beside .plocen = s.beside .plocen := by
  unfold State.partFailed
  simp

@[simp] theorem State.beside_setHank (s : State) (i v : Nat) :
    (s.setHank i v).beside .plocen = s.beside .plocen := by
  unfold State.setHank
  simp

@[simp] theorem State.beside_countHank (s : State) (i n : Nat) :
    (s.countHank i n).beside .plocen = s.beside .plocen := by
  unfold State.countHank
  simp

@[simp] theorem State.beside_settleFences (s : State) :
    s.settleFences.beside .plocen = s.beside .plocen := by
  unfold State.settleFences
  simp

@[simp] theorem State.beside_storeDone (s : State) (id : Nat) (lost : Bool) :
    (s.storeDone id lost).beside .plocen = s.beside .plocen := by
  unfold State.storeDone
  simp

@[simp] theorem State.beside_loadDone (s : State) (id status : Nat) (data : List Byte) :
    (s.loadDone id status data).beside .plocen = s.beside .plocen := by
  unfold State.loadDone
  split <;> simp

/-! ### Machine/EpWarpOps -/

@[simp] theorem State.beside_modEw (s : State) (f : EpWarp → EpWarp) :
    (s.modEw f).beside .plocen = s.beside .plocen := by
  unfold State.modEw
  simp

@[simp] theorem State.beside_modBind (s : State) (id : Nat) (f : Binding → Binding) :
    (s.modBind id f).beside .plocen = s.beside .plocen := by
  unfold State.modBind
  simp

@[simp] theorem State.beside_settleBind (s : State) (id : Nat) :
    (s.settleBind id).beside .plocen = s.beside .plocen := by
  unfold State.settleBind
  repeat' split
  all_goals simp

@[simp] theorem State.beside_endBind (s : State) (id code info : Nat) :
    (s.endBind id code info).beside .plocen = s.beside .plocen := by
  unfold State.endBind
  simp

@[simp] theorem State.beside_modRun (s : State) (pat : Nat) (f : Run → Run) :
    (s.modRun pat f).beside .plocen = s.beside .plocen := by
  unfold State.modRun
  simp

@[simp] theorem State.beside_checkBind (s : State) (id : Nat) :
    (s.checkBind id).beside .plocen = s.beside .plocen := by
  unfold State.checkBind
  split <;> simp

@[simp] theorem State.beside_endInstance (s : State) (pat ph : Nat) :
    (s.endInstance pat ph).beside .plocen = s.beside .plocen := by
  unfold State.endInstance
  split <;> simp

@[simp] theorem State.beside_readCells (s : State) (b : Binding) (plane slice round : Nat) :
    (s.readCells b plane slice round).beside .plocen = s.beside .plocen := by
  unfold State.readCells
  simp

@[simp] theorem State.beside_readRun (s : State) (pat : Nat) :
    (s.readRun pat).beside .plocen = s.beside .plocen := by
  unfold State.readRun
  split <;> simp

@[simp] theorem State.beside_contribDone (s : State) (bind ph round slice cell off : Nat) (data : List Byte) (ok : Bool) :
    (s.contribDone bind ph round slice cell off data ok).beside .plocen = s.beside .plocen := by
  unfold State.contribDone
  simp

@[simp] theorem State.beside_goRun (s : State) (pat inst plane : Nat) :
    (s.goRun pat inst plane).beside .plocen = s.beside .plocen := by
  unfold State.goRun
  dsimp only
  repeat' split
  all_goals simp

@[simp] theorem State.beside_landCell (s : State) (sl : Nat) (b : Binding) (ph slice round cell : Nat) (payload : List Byte) :
    (s.landCell sl b ph slice round cell payload).beside .plocen = s.beside .plocen := by
  unfold State.landCell
  simp

@[simp] theorem State.beside_warpLanded (s : State) (id : Nat) (ok : Bool) :
    (s.warpLanded id ok).beside .plocen = s.beside .plocen := by
  unfold State.warpLanded
  repeat' split
  all_goals simp

@[simp] theorem State.beside_shadowRead (s : State) (plane addr n : Nat) (own : Owner) :
    (s.shadowRead plane addr n own).beside .plocen = s.beside .plocen := by
  unfold State.shadowRead
  dsimp only
  split <;> simp

@[simp] theorem State.beside_shadowFetch (s : State) (r : Run) (plane slice round : Nat) :
    (s.shadowFetch r plane slice round).beside .plocen = s.beside .plocen := by
  unfold State.shadowFetch
  refine State.beside_foldl _ _ (fun t q => ?_) _ _
  split
  · rfl
  · simp

@[simp] theorem State.beside_shadowCells (s : State) (b : Binding) (plane inst ph slice round : Nat) :
    (s.shadowCells b plane inst ph slice round).beside .plocen = s.beside .plocen := by
  unfold State.shadowCells
  simp

@[simp] theorem State.beside_rerun (s : State) (pat plane slice round : Nat) :
    (s.rerun pat plane slice round).beside .plocen = s.beside .plocen := by
  unfold State.rerun
  split <;> simp

@[simp] theorem State.beside_shadowData (s : State) (bind plane ph slice round cell : Nat) (tally : Bool) (data : List Byte) :
    (s.shadowData bind plane ph slice round cell tally data).beside .plocen = s.beside .plocen := by
  unfold State.shadowData
  repeat' split
  all_goals simp

@[simp] theorem State.beside_closeRun (s : State) (f pat : Nat) :
    (s.closeRun f pat).beside .plocen = s.beside .plocen := by
  unfold State.closeRun
  split <;> simp

@[simp] theorem State.beside_openRun (s : State) (f pat : Nat) :
    (s.openRun f pat).beside .plocen = s.beside .plocen := by
  unfold State.openRun
  split <;> simp

@[simp] theorem State.beside_closeRuns (s : State) :
    s.closeRuns.beside .plocen = s.beside .plocen := by
  unfold State.closeRuns
  simp

@[simp] theorem State.beside_openRuns (s : State) :
    s.openRuns.beside .plocen = s.beside .plocen := by
  unfold State.openRuns
  simp

@[simp] theorem State.beside_noteFailed (s : State) (j n ph : Nat) :
    (s.noteFailed j n ph).beside .plocen = s.beside .plocen := by
  unfold State.noteFailed
  repeat' split
  all_goals simp

@[simp] theorem State.beside_noteLate (s : State) (j ph : Nat) :
    (s.noteLate j ph).beside .plocen = s.beside .plocen := by
  unfold State.noteLate
  dsimp only
  split <;> simp

/-! ### Machine/XltOps -/

@[simp] theorem State.beside_modXlt (s : State) (f : Xlt → Xlt) :
    (s.modXlt f).beside .plocen = s.beside .plocen := by
  unfold State.modXlt
  simp

@[simp] theorem State.beside_modShuttle (s : State) (k : Nat) (f : Shuttle → Shuttle) :
    (s.modShuttle k f).beside .plocen = s.beside .plocen := by
  unfold State.modShuttle
  simp

@[simp] theorem State.beside_setMicro (s : State) (m : Nat) (l : List OutExt) :
    (s.setMicro m l).beside .plocen = s.beside .plocen := by
  unfold State.setMicro
  simp

@[simp] theorem State.beside_intoMicro (s : State) (m : Nat) (e : OutExt) :
    (s.intoMicro m e).beside .plocen = s.beside .plocen := by
  unfold State.intoMicro
  simp

@[simp] theorem State.beside_lookupOut (s : State) (m tag va kind : Nat) :
    (s.lookupOut m tag va kind).2.beside .plocen = s.beside .plocen := by
  unfold State.lookupOut
  repeat' split
  all_goals simp

@[simp] theorem State.beside_writeMiss (s : State) (r : MissRec) :
    (s.writeMiss r).beside .plocen = s.beside .plocen := by
  unfold State.writeMiss
  simp

@[simp] theorem State.beside_postMiss (s : State) (r : MissRec) :
    (s.postMiss r).beside .plocen = s.beside .plocen := by
  unfold State.postMiss
  simp

@[simp] theorem State.beside_postHeld (n : Nat) (s : State) :
    (s.postHeld n).beside .plocen = s.beside .plocen := by
  induction n generalizing s with
  | zero => rfl
  | succ n ih =>
    unfold State.postHeld
    repeat' (first | split | dsimp only)
    all_goals simp [ih]

@[simp] theorem State.beside_missIntr (s : State) :
    s.missIntr.beside .plocen = s.beside .plocen := by
  unfold State.missIntr
  simp

@[simp] theorem State.beside_missDone (s : State) (c : Nat) (ok : Bool) :
    (s.missDone c ok).beside .plocen = s.beside .plocen := by
  unfold State.missDone
  split <;> simp

@[simp] theorem State.beside_rewriteMisses (s : State) :
    s.rewriteMisses.beside .plocen = s.beside .plocen := by
  unfold State.rewriteMisses
  simp

@[simp] theorem State.beside_postAnswer (s : State) (type tag fill info : Nat) :
    (s.postAnswer type tag fill info).beside .plocen = s.beside .plocen := by
  unfold State.postAnswer
  simp

@[simp] theorem State.beside_newMiss (s : State) (fault : Bool) (tag va kind unit ring sub info : Nat) (direct : List DMiss) :
    (s.newMiss fault tag va kind unit ring sub info direct).1.beside .plocen = s.beside .plocen := by
  unfold State.newMiss
  simp

@[simp] theorem State.beside_stall (s : State) (k : Nat) (fault : Option OutExt) (tag va kind ring sub : Nat) :
    (s.stall k fault tag va kind ring sub).beside .plocen = s.beside .plocen := by
  unfold State.stall
  dsimp only
  repeat' split
  all_goals simp

@[simp] theorem State.beside_dropDirect (s : State) (d : DMiss) :
    (s.dropDirect d).beside .plocen = s.beside .plocen := by
  unfold State.dropDirect
  simp

@[simp] theorem State.beside_directMiss (s : State) (fault : Option OutExt) (tag va kind : Nat) (d : DMiss) :
    (s.directMiss fault tag va kind d).beside .plocen = s.beside .plocen := by
  unfold State.directMiss
  dsimp only
  repeat' split
  all_goals simp

@[simp] theorem State.beside_endMiss (s : State) (id : Nat) :
    (s.endMiss id).beside .plocen = s.beside .plocen := by
  unfold State.endMiss
  split
  · rfl
  · dsimp only
    rw [State.beside_foldl _ _ fun t d => by simp, State.beside_foldl _ _ fun t k => ?_, State.beside_modXlt]
    split
    · split <;> simp
    · rfl

/-! ### Machine/WeftAnswer -/

@[simp] theorem State.beside_modSource (s : State) (p : Part) (f : Source → Source) :
    (s.modSource p f).beside p = s.beside p := by
  unfold State.modSource
  simp

@[simp] theorem State.beside_modHeld (s : State) (p : Part) (id : Nat) (f : Held → Held) :
    (s.modHeld p id f).beside p = s.beside p := by
  unfold State.modHeld
  simp

@[simp] theorem State.beside_takeWin (s : State) (p : Part) (node plane win : Nat) :
    (s.takeWin p node plane win).beside p = s.beside p := by
  unfold State.takeWin
  simp

@[simp] theorem State.beside_unqueue (s : State) (plane id : Nat) :
    (s.unqueue plane id).beside .plocen = s.beside .plocen := by
  unfold State.unqueue
  simp

@[simp] theorem State.beside_dropHeld (s : State) (p : Part) (h : Held) :
    (s.dropHeld p h).beside p = s.beside p := by
  unfold State.dropHeld
  cases p <;> simp

@[simp] theorem State.beside_relayLost (s : State) (m : Nat) :
    (s.relayLost m).beside .ronpex = s.beside .ronpex := by
  unfold State.relayLost
  simp

@[simp] theorem State.beside_shadowLost (s : State) (bind plane slice round : Nat) :
    (s.shadowLost bind plane slice round).beside .plocen = s.beside .plocen := by
  unfold State.shadowLost
  split <;> simp

@[simp] theorem State.beside_messageLost (s : State) (p : Part) (h : Held) (x : SentMsg) (code info : Nat) :
    (s.messageLost p h x code info).beside p = s.beside p := by
  unfold State.messageLost
  split <;> simp

@[simp] theorem State.beside_endHeld (s : State) (p : Part) (id code : Nat) :
    (s.endHeld p id code).beside p = s.beside p := by
  unfold State.endHeld
  split
  · rfl
  · dsimp only
    split
    · next h => simp [h.1]
    · simp

@[simp] theorem State.beside_land (s : State) (x : SentMsg) (data : List Byte) :
    (s.land x data).beside .plocen = s.beside .plocen := by
  unfold State.land
  simp

@[simp] theorem State.beside_deliver (s : State) (p : Part) (h : Held) (x : SentMsg) (data : List Byte) :
    (s.deliver p h x data).beside p = s.beside p := by
  unfold State.deliver
  dsimp only
  repeat' split
  all_goals simp

@[simp] theorem State.beside_answer (s : State) (p : Part) (id i : Nat) (data : List Byte) :
    (s.answer p id i data).beside p = s.beside p := by
  unfold State.answer
  dsimp only
  repeat' split
  all_goals simp

@[simp] theorem State.beside_takeReply (s : State) (p : Part) (c : Container) (m : Msg) :
    (s.takeReply p c m).beside p = s.beside p := by
  unfold State.takeReply
  dsimp only
  repeat' split
  all_goals simp

@[simp] theorem State.beside_landDone (s : State) (id : Nat) (ok : Bool) :
    (s.landDone id ok).beside .plocen = s.beside .plocen := by
  unfold State.landDone
  repeat' split
  all_goals simp

@[simp] theorem State.beside_replane (s : State) (id : Nat) :
    (s.replane id).beside .plocen = s.beside .plocen := by
  unfold State.replane
  repeat' split
  all_goals simp

@[simp] theorem State.beside_requeue (s : State) (h : Held) :
    (s.requeue h).beside .plocen = s.beside .plocen := by
  unfold State.requeue
  simp

@[simp] theorem State.beside_resend (s : State) (p : Part) (id : Nat) :
    (s.resend p id).beside p = s.beside p := by
  unfold State.resend
  cases p
  all_goals dsimp only
  all_goals repeat' split
  all_goals simp

@[simp] theorem State.beside_reflected (s : State) (p : Part) (c : Container) (plane : Nat) :
    (s.reflected p c plane).beside p = s.beside p := by
  unfold State.reflected
  cases p <;> dsimp only <;> split <;> simp

@[simp] theorem State.beside_backoffEnd (s : State) (p : Part) (id : Nat) :
    (s.backoffEnd p id).beside p = s.beside p := by
  unfold State.backoffEnd
  repeat' (first | split | dsimp only)
  all_goals simp

@[simp] theorem State.beside_retryTimer (s : State) (p : Part) (id : Nat) :
    (s.retryTimer p id).beside p = s.beside p := by
  unfold State.retryTimer
  cases p <;> split <;> simp

@[simp] theorem State.beside_lifeTimer (s : State) (p : Part) (id : Nat) :
    (s.lifeTimer p id).beside p = s.beside p := by
  unfold State.lifeTimer
  split <;> simp

@[simp] theorem State.beside_pathLost (s : State) (plane tL : Nat) :
    (s.pathLost plane tL).beside .plocen = s.beside .plocen := by
  unfold State.pathLost
  simp

@[simp] theorem State.beside_resendPlane (s : State) (plane : Nat) :
    (s.resendPlane plane).beside .plocen = s.beside .plocen := by
  unfold State.resendPlane
  simp

/-! ### Machine/EpOrders -/

@[simp] theorem State.beside_relayOthers (s : State) (plane : Nat) (m : Mgmt) :
    (s.relayOthers plane m).beside .plocen = s.beside .plocen := by
  unfold State.relayOthers
  simp

@[simp] theorem State.beside_epOrderIn (s : State) (plane : Nat) (o : SwitchOrder) :
    (s.epOrderIn plane o).beside .plocen = s.beside .plocen := by
  unfold State.epOrderIn
  simp

@[simp] theorem State.beside_epPlaneOut (s : State) (plane : Nat) :
    (s.epPlaneOut plane).beside .plocen = s.beside .plocen := by
  unfold State.epPlaneOut
  simp

@[simp] theorem State.beside_epOrderApply (s : State) (o : SwitchOrder) :
    (s.epOrderApply o).beside .plocen = s.beside .plocen := by
  unfold State.epOrderApply
  simp

@[simp] theorem State.beside_epOrdersDue (s : State) :
    s.epOrdersDue.beside .plocen = s.beside .plocen := by
  unfold State.epOrdersDue
  simp

@[simp] theorem State.beside_epDraftOn (s : State) (slot : Nat) :
    (s.epDraftOn slot).beside .plocen = s.beside .plocen := by
  unfold State.epDraftOn
  simp

@[simp] theorem State.beside_epDraftOff (s : State) :
    s.epDraftOff.beside .plocen = s.beside .plocen := by
  unfold State.epDraftOff
  simp

@[simp] theorem State.beside_epActivate (s : State) :
    s.epActivate.beside .plocen = s.beside .plocen := by
  unfold State.epActivate
  dsimp only
  repeat' split
  all_goals simp

@[simp] theorem State.beside_epEpochIn (s : State) (plane e eff : Nat) :
    (s.epEpochIn plane e eff).beside .plocen = s.beside .plocen := by
  unfold State.epEpochIn
  simp

@[simp] theorem State.beside_epEpochApply (s : State) (e : Nat) :
    (s.epEpochApply e).beside .plocen = s.beside .plocen := by
  unfold State.epEpochApply
  simp

@[simp] theorem State.beside_snapEvent (s : State) (p : Part) (number missed : Nat) :
    (s.snapEvent p number missed).beside p = s.beside p := by
  unfold State.snapEvent
  cases p <;> simp

@[simp] theorem State.beside_snapIn (s : State) (p : Part) (t number : Nat) (skeins : BitVec 64) :
    (s.snapIn p t number skeins).beside p = s.beside p := by
  unfold State.snapIn
  simp

@[simp] theorem State.beside_snapCapture (s : State) (p : Part) :
    (s.snapCapture p).beside p = s.beside p := by
  unfold State.snapCapture
  dsimp only
  repeat' split
  all_goals simp

@[simp] theorem State.beside_destroyEpKey (s : State) (kind : Nat) :
    (s.destroyEpKey kind).beside .plocen = s.beside .plocen := by
  unfold State.destroyEpKey
  simp

@[simp] theorem State.beside_epAssign (s : State) (plane skein : Nat) (isSealed : Bool) (slots epoch node : Nat) :
    (s.epAssign plane skein isSealed slots epoch node).beside .plocen = s.beside .plocen := by
  unfold State.epAssign
  simp

@[simp] theorem State.beside_epRelease (s : State) (port gen : Nat) :
    (s.epRelease port gen).beside .plocen = s.beside .plocen := by
  unfold State.epRelease
  simp

@[simp] theorem State.beside_mgmtRefused (s : State) (p : Part) (port node mtype : Nat) :
    (s.mgmtRefused p port node mtype).beside p = s.beside p := by
  unfold State.mgmtRefused
  simp

@[simp] theorem State.beside_epMgmtIn (s : State) (plane node : Nat) (m : Mgmt) :
    (s.epMgmtIn plane node m).beside .plocen = s.beside .plocen := by
  unfold State.epMgmtIn
  repeat' split
  all_goals simp

/-! ### Machine/RpOrders -/

@[simp] theorem State.beside_rpOrderIn (s : State) (src : MgmtSource) (o : SwitchOrder) :
    (s.rpOrderIn src o).beside .ronpex = s.beside .ronpex := by
  unfold State.rpOrderIn
  split <;> simp

@[simp] theorem State.beside_applyPairs (s : State) (l : List (Nat × Nat × Nat)) :
    (s.applyPairs l).beside .ronpex = s.beside .ronpex := by
  unfold State.applyPairs
  simp

@[simp] theorem State.beside_loadMaps (s : State) :
    s.loadMaps.beside .ronpex = s.beside .ronpex := by
  unfold State.loadMaps
  simp

@[simp] theorem State.beside_powerEvent (s : State) :
    s.powerEvent.beside .ronpex = s.beside .ronpex := by
  unfold State.powerEvent
  simp

@[simp] theorem State.beside_powerAlt (s : State) (on : Bool) :
    (s.powerAlt on).beside .ronpex = s.beside .ronpex := by
  unfold State.powerAlt
  simp

@[simp] theorem State.beside_rpOrderApply (s : State) (o : SwitchOrder) :
    (s.rpOrderApply o).beside .ronpex = s.beside .ronpex := by
  unfold State.rpOrderApply
  repeat' split
  all_goals simp

@[simp] theorem State.beside_rpOrdersDue (s : State) :
    s.rpOrdersDue.beside .ronpex = s.beside .ronpex := by
  unfold State.rpOrdersDue
  simp

@[simp] theorem State.beside_toAllPorts (s : State) (m : Mgmt) :
    (s.toAllPorts m).beside .ronpex = s.beside .ronpex := by
  unfold State.toAllPorts
  simp

@[simp] theorem State.beside_rpEpochIn (s : State) (e eff : Nat) :
    (s.rpEpochIn e eff).beside .ronpex = s.beside .ronpex := by
  unfold State.rpEpochIn
  simp

@[simp] theorem State.beside_clearFilter (s : State) :
    s.clearFilter.beside .ronpex = s.beside .ronpex := by
  unfold State.clearFilter
  simp

@[simp] theorem State.beside_rpEpochApply (s : State) (e : Nat) :
    (s.rpEpochApply e).beside .ronpex = s.beside .ronpex := by
  unfold State.rpEpochApply
  simp

@[simp] theorem State.beside_reportIn (s : State) (node : Nat) (r : Report) :
    (s.reportIn node r).beside .ronpex = s.beside .ronpex := by
  unfold State.reportIn
  dsimp only
  repeat' split
  all_goals simp

@[simp] theorem State.beside_rpSnapIn (s : State) (t number : Nat) (skeins : BitVec 64) :
    (s.rpSnapIn t number skeins).beside .ronpex = s.beside .ronpex := by
  unfold State.rpSnapIn
  simp

@[simp] theorem State.beside_rpPathLoss (s : State) (tL : Nat) :
    (s.rpPathLoss tL).beside .ronpex = s.beside .ronpex := by
  unfold State.rpPathLoss
  simp

@[simp] theorem State.beside_rpAssignAck (s : State) (port : Nat) (what : Nat × Bool × Nat × Nat) :
    (s.rpAssignAck port what).beside .ronpex = s.beside .ronpex := by
  unfold State.rpAssignAck
  simp

@[simp] theorem State.beside_rpLogCopy (s : State) (node : Nat) (b : LogBody) :
    (s.rpLogCopy node b).beside .ronpex = s.beside .ronpex := by
  unfold State.rpLogCopy
  simp

@[simp] theorem State.beside_rpMgmtIn (s : State) (src : MgmtSource) (m : Mgmt) :
    (s.rpMgmtIn src m).beside .ronpex = s.beside .ronpex := by
  unfold State.rpMgmtIn
  repeat' split
  all_goals simp

/-! ### Machine/WeftDest -/

@[simp] theorem State.beside_queueReply (s : State) (plane : Nat) (c : Container) :
    (s.queueReply plane c).beside .plocen = s.beside .plocen := by
  unfold State.queueReply
  simp

@[simp] theorem State.beside_sendReplies (s : State) (l : List Reply) :
    (s.sendReplies l).beside .plocen = s.beside .plocen := by
  unfold State.sendReplies
  split <;> simp

@[simp] theorem State.beside_flushLike (s : State) (r : Reply) :
    (s.flushLike r).beside .plocen = s.beside .plocen := by
  unfold State.flushLike
  simp

@[simp] theorem State.beside_reply (s : State) (r : Reply) :
    (s.reply r).beside .plocen = s.beside .plocen := by
  unfold State.reply
  simp

@[simp] theorem State.beside_replyHold (s : State) (node : Nat) :
    (s.replyHold node).beside .plocen = s.beside .plocen := by
  unfold State.replyHold
  simp

@[simp] theorem State.beside_respond (s : State) (a : Arrival) (opc : Nat) (data : List Byte) :
    (s.respond a opc data).beside .plocen = s.beside .plocen := by
  unfold State.respond
  split <;> simp

@[simp] theorem State.beside_ownFailed (s : State) (id i : Nat) :
    (s.ownFailed id i).beside .plocen = s.beside .plocen := by
  unfold State.ownFailed
  repeat' split
  all_goals simp

@[simp] theorem State.beside_newJob (s : State) (a : Arrival) :
    (s.newJob a).beside .plocen = s.beside .plocen := by
  unfold State.newJob
  simp

@[simp] theorem State.beside_modJob (s : State) (id : Nat) (f : Job → Job) :
    (s.modJob id f).beside .plocen = s.beside .plocen := by
  unfold State.modJob
  simp

@[simp] theorem State.beside_endJob (s : State) (j : Job) (failed : Bool) :
    (s.endJob j failed).beside .plocen = s.beside .plocen := by
  unfold State.endJob
  dsimp only
  split <;> simp

@[simp] theorem State.beside_startJob (s : State) (j : Job) :
    (s.startJob j).beside .plocen = s.beside .plocen := by
  unfold State.startJob
  simp

@[simp] theorem State.beside_destRun (n : Nat) (s : State) :
    (s.destRun n).beside .plocen = s.beside .plocen := by
  induction n generalizing s with
  | zero => rfl
  | succ n ih =>
    unfold State.destRun
    repeat' (first | split | dsimp only)
    all_goals simp [ih]

@[simp] theorem State.beside_destGo (s : State) :
    s.destGo.beside .plocen = s.beside .plocen := by
  unfold State.destGo
  simp

@[simp] theorem State.beside_jobOver (s : State) (j : Job) :
    (s.jobOver j).beside .plocen = s.beside .plocen := by
  unfold State.jobOver
  dsimp only
  repeat' split
  all_goals simp

@[simp] theorem State.beside_jobStep (s : State) (id off : Nat) (data : List Byte) (ok : Bool) :
    (s.jobStep id off data ok).beside .plocen = s.beside .plocen := by
  unfold State.jobStep
  split <;> simp

@[simp] theorem State.beside_epReflect (s : State) (p : Nat) (c : Container) :
    (s.epReflect p c).beside .plocen = s.beside .plocen := by
  unfold State.epReflect
  simp

@[simp] theorem State.beside_epRefuse (s : State) (p : Nat) (c : Container) :
    (s.epRefuse p c).beside .plocen = s.beside .plocen := by
  unfold State.epRefuse
  simp

@[simp] theorem State.beside_countDup (s : State) :
    s.countDup.beside .plocen = s.beside .plocen := by
  unfold State.countDup
  simp

@[simp] theorem State.beside_epMessage (s : State) (a : Arrival) :
    (s.epMessage a).beside .plocen = s.beside .plocen := by
  unfold State.epMessage
  repeat' split
  all_goals simp

@[simp] theorem State.beside_epRequests (s : State) (p : Nat) (c : Container) (ms : List Msg) :
    (s.epRequests p c ms).beside .plocen = s.beside .plocen := by
  unfold State.epRequests
  simp

@[simp] theorem State.beside_epSlotUse (s : State) (p kind src skein : Nat) :
    (s.epSlotUse p kind src skein).2.beside .plocen = s.beside .plocen := by
  unfold State.epSlotUse
  dsimp only
  repeat' split
  all_goals simp

@[simp] theorem State.beside_epArrive (s : State) (p : Nat) (c : Container) :
    (s.epArrive p c).beside .plocen = s.beside .plocen := by
  unfold State.epArrive
  simp

@[simp] theorem State.beside_recExpire (s : State) (p : Part) (node : Nat) :
    (s.recExpire p node).beside p = s.beside p := by
  unfold State.recExpire
  dsimp only
  repeat' split
  all_goals simp

@[simp] theorem State.beside_ctxExpire (s : State) (p : Part) (node stream : Nat) :
    (s.ctxExpire p node stream).beside p = s.beside p := by
  unfold State.ctxExpire
  simp

@[simp] theorem State.beside_cacheExpire (s : State) (p : Part) :
    (s.cacheExpire p).beside p = s.beside p := by
  unfold State.cacheExpire
  simp

/-! ### Machine/WeftForm -/

theorem State.beside_snd_ite {α : Type} {p : Part} {s : State} {c : Prop} [Decidable c] {x y : α × State}
    (hx : x.2.beside p = s.beside p) (hy : y.2.beside p = s.beside p) : (if c then x else y).2.beside p = s.beside p := by
  split
  · exact hx
  · exact hy

/-- Where the translation of `s` leaves off, the Ronpex is as it was. -/
theorem State.beside_of_lookupOut {s t : State} {m tag va kind : Nat} {l : Lookup} (h : s.lookupOut m tag va kind = (l, t)) :
    t.beside .plocen = s.beside .plocen := by
  have hb := s.beside_lookupOut m tag va kind
  rwa [h] at hb

@[simp] theorem State.beside_nextOf (s : State) (k : Nat) (a : Act) :
    (s.nextOf k a).2.beside .plocen = s.beside .plocen := by
  unfold State.nextOf
  split
  · rfl
  · refine State.beside_snd_ite rfl (State.beside_snd_ite rfl (State.beside_snd_ite (State.beside_modAct _ _ _ _)
      (State.beside_snd_ite (State.beside_modAct _ _ _ _) ?_)))
    split
    · exact State.beside_modAct _ _ _ _
    · refine State.beside_snd_ite (State.beside_modAct _ _ _ _) ?_
      split
      · next h =>
        have ht := (State.beside_of_lookupOut h).trans (State.beside_modAct _ _ _ _)
        exact State.beside_snd_ite ht ht
      · next h =>
        have ht := (State.beside_of_lookupOut h).trans (State.beside_modAct _ _ _ _)
        exact State.beside_snd_ite ht ht
      · next h =>
        have ht := (State.beside_of_lookupOut h).trans (State.beside_modAct _ _ _ _)
        refine State.beside_snd_ite ht (State.beside_snd_ite (State.beside_snd_ite ht ht) (State.beside_snd_ite ht ?_))
        split
        · exact ht
        · exact State.beside_snd_ite ht ht

@[simp] theorem State.beside_promoteOne (s : State) (id : Nat) :
    (s.promoteOne id).beside .plocen = s.beside .plocen := by
  unfold State.promoteOne
  split <;> simp

@[simp] theorem State.beside_packFull (s : State) (node plane : Nat) :
    (s.packFull node plane).beside .plocen = s.beside .plocen := by
  unfold State.packFull
  simp

@[simp] theorem State.beside_promote (s : State) :
    s.promote.beside .plocen = s.beside .plocen := by
  unfold State.promote
  simp

@[simp] theorem State.beside_packExpire (s : State) (node plane : Nat) :
    (s.packExpire node plane).beside .plocen = s.beside .plocen := by
  unfold State.packExpire
  simp

@[simp] theorem State.beside_newHeld (s : State) (m : Msg) (sent : SentMsg) (node plane planes xtag reserve : Nat)
    (stream : Option Nat) (direct small room : Bool) (shuttle : Option Nat) (reads : List (Nat × Nat × Nat)) :
    (s.newHeld m sent node plane planes xtag reserve stream direct small room shuttle reads).beside .plocen = s.beside .plocen := by
  unfold State.newHeld
  simp

@[simp] theorem State.beside_formDesc (s : State) (k : Nat) (a : Act) (node off ttag n plane va : Nat) :
    (s.formDesc k a node off ttag n plane va).beside .plocen = s.beside .plocen := by
  unfold State.formDesc
  split <;> simp

@[simp] theorem State.beside_askList (s : State) (ring sub : Nat) :
    (s.askList ring sub).beside .plocen = s.beside .plocen := by
  unfold State.askList
  split <;> simp

@[simp] theorem State.beside_listCheck (s : State) (ring sub : Nat) :
    (s.listCheck ring sub).beside .plocen = s.beside .plocen := by
  unfold State.listCheck
  repeat' split
  all_goals simp

@[simp] theorem State.beside_listFailed (s : State) (ring sub : Nat) :
    (s.listFailed ring sub).beside .plocen = s.beside .plocen := by
  unfold State.listFailed
  split <;> simp

@[simp] theorem State.beside_listDone (s : State) (ring sub first n : Nat) (data : List Byte) (ok : Bool) :
    (s.listDone ring sub first n data ok).beside .plocen = s.beside .plocen := by
  unfold State.listDone
  simp

@[simp] theorem State.beside_listPartDone (s : State) (ring sub entry lo : Nat) (data : List Byte) (ok : Bool) :
    (s.listPartDone ring sub entry lo data ok).beside .plocen = s.beside .plocen := by
  unfold State.listPartDone
  simp

@[simp] theorem State.beside_sourceDone (s : State) (id off : Nat) (data : List Byte) (ok : Bool) :
    (s.sourceDone id off data ok).beside .plocen = s.beside .plocen := by
  unfold State.sourceDone
  repeat' split
  all_goals simp

@[simp] theorem State.beside_formLoop (n : Nat) (s : State) (x y z : Nat) (w : Option Nat) :
    (s.formLoop n x y z w).1.beside .plocen = s.beside .plocen := by
  induction n generalizing s w with
  | zero => rfl
  | succ n ih =>
    rw [State.formLoop]
    split
    · rfl
    · next a _ =>
      have hnext {m : Next} {t : State} (h : s.nextOf x a = (m, t)) : t.beside .plocen = s.beside .plocen := by
        have hbeside := s.beside_nextOf x a
        rwa [h] at hbeside
      split
      · rfl
      · rfl
      · dsimp only
        split <;> simp
      case h_4 h _ => simp [hnext h]
      case h_5 h _ =>
        dsimp only
        split <;> simp [hnext h]
      case h_6 h _ => simp [hnext h]
      case h_7 h _ =>
        dsimp only
        split
        · rfl
        · simp [ih, hnext h]

@[simp] theorem State.beside_returnBurst (s : State) (b : Burst) :
    (s.returnBurst b).beside .plocen = s.beside .plocen := by
  unfold State.returnBurst
  simp

@[simp] theorem State.beside_giveBack (s : State) (ring n : Nat) :
    (s.giveBack ring n).beside .plocen = s.beside .plocen := by
  unfold State.giveBack
  simp

@[simp] theorem State.beside_resumeShuttle (s : State) (k : Nat) :
    (s.resumeShuttle k).beside .plocen = s.beside .plocen := by
  unfold State.resumeShuttle
  split <;> simp

@[simp] theorem State.beside_directGo (s : State) (x : DMiss) :
    (s.directGo x).beside .plocen = s.beside .plocen := by
  unfold State.directGo
  dsimp only
  split
  · next h =>
    rw [← State.beside_of_lookupOut h]
    split <;> simp
  · next h =>
    rw [← State.beside_of_lookupOut h]
    split <;> simp
  · next h =>
    rw [← State.beside_of_lookupOut h]
    split
    · simp
    · split <;> simp

@[simp] theorem State.beside_replayMiss (s : State) (id : Nat) :
    (s.replayMiss id).beside .plocen = s.beside .plocen := by
  unfold State.replayMiss
  split <;> simp

@[simp] theorem State.beside_injectHeld (s : State) (p : Nat) (h : Held) :
    (s.injectHeld p h).beside .plocen = s.beside .plocen := by
  unfold State.injectHeld
  simp

@[simp] theorem State.beside_injectOn (s : State) (p : Nat) :
    (s.injectOn p).beside .plocen = s.beside .plocen := by
  unfold State.injectOn
  split <;> simp

@[simp] theorem State.beside_unform (s : State) (h : Held) :
    (s.unform h).beside .plocen = s.beside .plocen := by
  unfold State.unform
  simp

@[simp] theorem State.beside_reform (s : State) (k : Nat) (h : Held) :
    (s.reform k h).beside .plocen = s.beside .plocen := by
  unfold State.reform
  split <;> simp

@[simp] theorem State.beside_fenceShuttle (s : State) (k : Nat) :
    (s.fenceShuttle k).beside .plocen = s.beside .plocen := by
  unfold State.fenceShuttle
  split <;> simp

/-! ### Machine/Ready -/

@[simp] theorem State.beside_unready (s : State) :
    s.unready.beside .plocen = s.beside .plocen := by
  unfold State.unready
  simp

/-! ### Machine/FaultOps -/

@[simp] theorem State.beside_portOrder (s : State) (p : Nat) :
    (s.portOrder p).beside .ronpex = s.beside .ronpex := by
  unfold State.portOrder
  simp

@[simp] theorem State.beside_fenceLog (s : State) (i origin requester what : Nat) :
    (s.fenceLog i origin requester what).beside .ronpex = s.beside .ronpex := by
  unfold State.fenceLog
  simp

@[simp] theorem State.beside_hardFence (s : State) (i cause : Nat) :
    (s.hardFence i cause).beside .ronpex = s.beside .ronpex := by
  unfold State.hardFence
  simp

@[simp] theorem State.beside_stopClock (s : State) (p : Part) (port : Nat) :
    (s.stopClock p port).beside p = s.beside p := by
  unfold State.stopClock
  simp

@[simp] theorem State.beside_holdBack (s : State) (i : Nat) :
    (s.holdBack i).beside .ronpex = s.beside .ronpex := by
  unfold State.holdBack
  simp

@[simp] theorem State.beside_fencePort (s : State) (n cause : Nat) :
    (s.fencePort n cause).beside .ronpex = s.beside .ronpex := by
  unfold State.fencePort
  simp

@[simp] theorem State.beside_fenceSpindle (s : State) (n cause : Nat) :
    (s.fenceSpindle n cause).beside .ronpex = s.beside .ronpex := by
  unfold State.fenceSpindle
  simp

@[simp] theorem State.beside_fenceChannel (s : State) (c cause offset : Nat) :
    (s.fenceChannel c cause offset).beside .ronpex = s.beside .ronpex := by
  unfold State.fenceChannel
  simp

@[simp] theorem State.beside_portEvent (s : State) (port sub cause w : Nat) :
    (s.portEvent port sub cause w).beside .ronpex = s.beside .ronpex := by
  unfold State.portEvent
  simp

@[simp] theorem State.beside_lossNotice (s : State) (port : Nat) :
    (s.lossNotice port).beside .ronpex = s.beside .ronpex := by
  unfold State.lossNotice
  simp

@[simp] theorem State.beside_portGone (s : State) (p : Part) (port : Nat) :
    (s.portGone p port).beside p = s.beside p := by
  unfold State.portGone
  cases p <;> simp

@[simp] theorem State.beside_portDown (s : State) (p : Part) (port cause : Nat) :
    (s.portDown p port cause).beside p = s.beside p := by
  unfold State.portDown
  cases p <;> simp

@[simp] theorem State.beside_startTraining (s : State) (p : Part) (port : Nat) :
    (s.startTraining p port).beside p = s.beside p := by
  unfold State.startTraining
  cases p <;> simp

@[simp] theorem State.beside_quarantine (s : State) (i : Nat) :
    (s.quarantine i).beside .ronpex = s.beside .ronpex := by
  unfold State.quarantine
  simp

@[simp] theorem State.beside_channelsReturn (s : State) :
    s.channelsReturn.beside .ronpex = s.beside .ronpex := by
  unfold State.channelsReturn
  simp

@[simp] theorem State.beside_freeUnit (s : State) (i : Nat) :
    (s.freeUnit i).beside .ronpex = s.beside .ronpex := by
  unfold State.freeUnit
  simp

@[simp] theorem State.beside_qstepTo (s : State) (i n : Nat) :
    (s.qstepTo i n).beside .ronpex = s.beside .ronpex := by
  unfold State.qstepTo
  simp

@[simp] theorem State.beside_qFail (s : State) (i cause : Nat) :
    (s.qFail i cause).beside .ronpex = s.beside .ronpex := by
  unfold State.qFail
  simp

@[simp] theorem State.beside_pstDrain (s : State) (a : Nat) :
    (s.pstDrain a).beside .ronpex = s.beside .ronpex := by
  unfold State.pstDrain
  simp

@[simp] theorem State.beside_selfTestFailed (s : State) (i : Nat) :
    (s.selfTestFailed i).beside .ronpex = s.beside .ronpex := by
  unfold State.selfTestFailed
  simp

@[simp] theorem State.beside_portInService (s : State) (n : Nat) :
    (s.portInService n).beside .ronpex = s.beside .ronpex := by
  unfold State.portInService
  simp

theorem State.beside_newLife (s : State) (i : Nat) :
    ∀ t, s.newLife i = some t → t.beside .ronpex = s.beside .ronpex := by
  intro t ht
  rw [State.newLife] at ht
  obtain ⟨u, hu, hut⟩ := Option.bind_eq_some_iff.mp ht
  have hus := s.beside_genAdvance i u hu
  split at hut
  · exact (State.beside_genAdvance _ _ t hut).trans hus
  · cases hut
    exact hus

@[simp] theorem State.beside_quarantineStep (s : State) (i : Nat) (passed : Bool) :
    (s.quarantineStep i passed).beside .ronpex = s.beside .ronpex := by
  unfold State.quarantineStep
  split
  · rfl
  · split
    · split <;> simp
    · split
      · dsimp only
        split <;> simp
      · split
        · simp
        · split <;> simp
      · split
        · rfl
        · next h =>
          have hnew := State.beside_newLife _ _ _ h
          split <;> simp [hnew]
      · dsimp only
        split
        · simp
        · split <;> simp
      · rfl

@[simp] theorem State.beside_returnUnit (s : State) (i : Nat) :
    (s.returnUnit i).1.beside .ronpex = s.beside .ronpex := by
  unfold State.returnUnit
  dsimp only
  split <;> simp

@[simp] theorem State.beside_softFence (s : State) (i : Nat) (wr : Writer) :
    (s.softFence i wr).beside .ronpex = s.beside .ronpex := by
  unfold State.softFence
  simp

@[simp] theorem State.beside_softReturn (s : State) (i : Nat) (wr : Writer) :
    (s.softReturn i wr).beside .ronpex = s.beside .ronpex := by
  unfold State.softReturn
  simp

@[simp] theorem State.beside_unitCtl (s : State) (i v : Nat) (wr : Writer) :
    (s.unitCtl i v wr).beside .ronpex = s.beside .ronpex := by
  unfold State.unitCtl
  simp

@[simp] theorem State.beside_partEventFor (s : State) (type n state cause : Nat) (skeins : List Nat) :
    (s.partEventFor type n state cause skeins).beside .ronpex = s.beside .ronpex := by
  unfold State.partEventFor
  simp

@[simp] theorem State.beside_partEvent (s : State) (type n state cause : Nat) :
    (s.partEvent type n state cause).beside .ronpex = s.beside .ronpex := by
  unfold State.partEvent
  simp

@[simp] theorem State.beside_loseEddies (s : State) (l : List Nat) :
    (s.loseEddies l).beside .ronpex = s.beside .ronpex := by
  unfold State.loseEddies
  simp

@[simp] theorem State.beside_fenceGroup (s : State) (type k cause : Nat) (ports spindles : List Nat) :
    (s.fenceGroup type k cause ports spindles).beside .ronpex = s.beside .ronpex := by
  unfold State.fenceGroup
  simp

@[simp] theorem State.beside_fenceCluster (s : State) (k : Nat) :
    (s.fenceCluster k).beside .ronpex = s.beside .ronpex := by
  unfold State.fenceCluster
  simp

@[simp] theorem State.beside_resetRegion (s : State) (r : Nat) :
    (s.resetRegion r).beside .ronpex = s.beside .ronpex := by
  unfold State.resetRegion
  simp

@[simp] theorem State.beside_resetRegionAt (s : State) (r cause : Nat) (quiet : Bool) :
    (s.resetRegionAt r cause quiet).beside .ronpex = s.beside .ronpex := by
  unfold State.resetRegionAt
  simp

@[simp] theorem State.beside_regionBack (s : State) (r : Nat) :
    (s.regionBack r).beside .ronpex = s.beside .ronpex := by
  unfold State.regionBack
  dsimp only
  repeat' split
  all_goals simp

@[simp] theorem State.beside_dieLost (s : State) (d : Nat) :
    (s.dieLost d).beside .ronpex = s.beside .ronpex := by
  unfold State.dieLost
  simp

@[simp] theorem State.beside_resetDie (s : State) (d cause : Nat) :
    (s.resetDie d cause).beside .ronpex = s.beside .ronpex := by
  unfold State.resetDie
  simp

/-! ### Machine/FmemOps -/

@[simp] theorem State.beside_modFmDest (s : State) (f : Dest → Dest) :
    (s.modFmDest f).beside .ronpex = s.beside .ronpex := by
  unfold State.modFmDest
  simp

@[simp] theorem State.beside_fmCharge (s : State) (a : Arrival) :
    (s.fmCharge a).beside .ronpex = s.beside .ronpex := by
  unfold State.fmCharge
  simp

@[simp] theorem State.beside_agentLeave (s : State) (entry : Option Nat) :
    (s.agentLeave entry).beside .ronpex = s.beside .ronpex := by
  unfold State.agentLeave
  simp

@[simp] theorem State.beside_agentOffer (s : State) (c : Container) (entry : Nat) :
    (s.agentOffer c entry).beside .ronpex = s.beside .ronpex := by
  unfold State.agentOffer
  repeat' split
  all_goals simp

@[simp] theorem State.beside_agentReply (s : State) (a : Arrival) (opc : Nat) (data : List Byte) :
    (s.agentReply a opc data).beside .ronpex = s.beside .ronpex := by
  unfold State.agentReply
  simp

@[simp] theorem State.beside_sealedRelease (s : State) :
    s.sealedRelease.beside .ronpex = s.beside .ronpex := by
  unfold State.sealedRelease
  simp

@[simp] theorem State.beside_relayFire (s : State) (m : Nat) :
    (s.relayFire m).beside .ronpex = s.beside .ronpex := by
  unfold State.relayFire
  dsimp only
  repeat' split
  all_goals simp

@[simp] theorem State.beside_hcntSet (s : State) (n v : Nat) :
    (s.hcntSet n v).beside .ronpex = s.beside .ronpex := by
  unfold State.hcntSet
  simp

@[simp] theorem State.beside_uncorrectable (s : State) (offset : Nat) :
    (s.uncorrectable offset).beside .ronpex = s.beside .ronpex := by
  unfold State.uncorrectable
  simp

@[simp] theorem State.beside_corrected (s : State) (n offset : Nat) :
    (s.corrected n offset).beside .ronpex = s.beside .ronpex := by
  unfold State.corrected
  simp

@[simp] theorem State.beside_agentLost (s : State) (a : Arrival) :
    (s.agentLost a).beside .ronpex = s.beside .ronpex := by
  unfold State.agentLost
  simp

@[simp] theorem State.beside_agentDone (s : State) (a : Arrival) (opc : Nat) (data : List Byte) :
    (s.agentDone a opc data).beside .ronpex = s.beside .ronpex := by
  unfold State.agentDone
  simp

@[simp] theorem State.beside_agentExec (s : State) (a : Arrival) :
    (s.agentExec a).beside .ronpex = s.beside .ronpex := by
  unfold State.agentExec
  simp

@[simp] theorem State.beside_agentRun (s : State) (a : Arrival) :
    (s.agentRun a).beside .ronpex = s.beside .ronpex := by
  unfold State.agentRun
  simp

@[simp] theorem State.beside_agentCtx (n : Nat) (s : State) :
    (s.agentCtx n).beside .ronpex = s.beside .ronpex := by
  induction n generalizing s with
  | zero => rfl
  | succ n ih =>
    unfold State.agentCtx
    repeat' (first | split | dsimp only)
    all_goals simp [ih]

@[simp] theorem State.beside_agentGo (s : State) :
    s.agentGo.beside .ronpex = s.beside .ronpex := by
  unfold State.agentGo
  simp

@[simp] theorem State.beside_zeroOn (s : State) :
    s.zeroOn.beside .ronpex = s.beside .ronpex := by
  unfold State.zeroOn
  simp

@[simp] theorem State.beside_relaysGo (s : State) :
    s.relaysGo.beside .ronpex = s.beside .ronpex := by
  unfold State.relaysGo
  simp

@[simp] theorem State.beside_agentFrame (s0 : State) :
    s0.agentFrame.beside .ronpex = s0.beside .ronpex := by
  unfold State.agentFrame
  simp

@[simp] theorem State.beside_agentMessage (s : State) (a : Arrival) :
    (s.agentMessage a).beside .ronpex = s.beside .ronpex := by
  unfold State.agentMessage
  repeat' split
  all_goals simp

@[simp] theorem State.beside_agentReflect (s : State) (port : Nat) (c : Container) :
    (s.agentReflect port c).beside .ronpex = s.beside .ronpex := by
  unfold State.agentReflect
  simp

@[simp] theorem State.beside_agentTake (s : State) (port : Nat) (c : Container) :
    (s.agentTake port c).beside .ronpex = s.beside .ronpex := by
  unfold State.agentTake
  simp

/-! ### Machine/Fmem -/

@[simp] theorem State.beside_regionCtl (s : State) (n v : Nat) :
    (s.regionCtl n v).beside .ronpex = s.beside .ronpex := by
  unfold State.regionCtl
  simp

@[simp] theorem State.beside_zeroed (s : State) :
    s.zeroed.beside .ronpex = s.beside .ronpex := by
  unfold State.zeroed
  split <;> simp

@[simp] theorem State.beside_hgrantStore (s : State) (k v : Nat) :
    (s.hgrantStore k v).beside .ronpex = s.beside .ronpex := by
  unfold State.hgrantStore
  simp

@[simp] theorem State.beside_relayCtl (s : State) (m v : Nat) :
    (s.relayCtl m v).beside .ronpex = s.beside .ronpex := by
  unfold State.relayCtl
  simp

/-! ### Machine/RpWarpOps -/

@[simp] theorem State.beside_modSpindle (s : State) (n : Nat) (f : SpindleSt → SpindleSt) :
    (s.modSpindle n f).beside .ronpex = s.beside .ronpex := by
  unfold State.modSpindle
  simp

@[simp] theorem State.beside_fly (s : State) (slots : Nat) (dst : FlightTo) (what : Contrib) :
    (s.fly slots dst what).beside .ronpex = s.beside .ronpex := by
  unfold State.fly
  simp

@[simp] theorem State.beside_toSpindle (s : State) (p c l : Nat) (what : Contrib) :
    (s.toSpindle p c l what).beside .ronpex = s.beside .ronpex := by
  unfold State.toSpindle
  split <;> simp

@[simp] theorem State.beside_toPort (s : State) (p l : Nat) (what : Contrib) :
    (s.toPort p l what).beside .ronpex = s.beside .ronpex := by
  unfold State.toPort
  split <;> simp

@[simp] theorem State.beside_movesNot (s : State) (c : Nat) (l : List Nat) (what : Contrib) :
    (s.movesNot c l what).beside .ronpex = s.beside .ronpex := by
  unfold State.movesNot
  split <;> simp

@[simp] theorem State.beside_deliverAt (s : State) (p e : Nat) (what : Contrib) :
    (s.deliverAt p e what).beside .ronpex = s.beside .ronpex := by
  unfold State.deliverAt
  dsimp only
  split <;> simp

@[simp] theorem State.beside_hear (s : State) (p : Nat) :
    (s.hear p).beside .ronpex = s.beside .ronpex := by
  unfold State.hear
  simp

@[simp] theorem State.beside_logOnce (s : State) (p code : Nat) (f : State → State) (h : ∀ t, (f t).beside .ronpex = t.beside .ronpex) :
    (s.logOnce p code f).beside .ronpex = s.beside .ronpex := by
  unfold State.logOnce
  simp [h]

@[simp] theorem State.beside_slotMismatch (s : State) (p kind src skein use : Nat) :
    (s.slotMismatch p kind src skein use).beside .ronpex = s.beside .ronpex := by
  unfold State.slotMismatch
  simp

@[simp] theorem State.beside_skeinGate (s : State) (p kind src skein : Nat) (exempt : Bool) :
    (s.skeinGate p kind src skein exempt).2.beside .ronpex = s.beside .ronpex := by
  unfold State.skeinGate
  dsimp only
  repeat' split
  all_goals simp

@[simp] theorem State.beside_quarTraffic (s : State) (p src skein : Nat) :
    (s.quarTraffic p src skein).beside .ronpex = s.beside .ronpex := by
  unfold State.quarTraffic
  simp

@[simp] theorem State.beside_noteReady (s : State) (c : WarpCell) :
    (s.noteReady c).beside .ronpex = s.beside .ronpex := by
  unfold State.noteReady
  split <;> simp

@[simp] theorem State.beside_rpEmptyIn (s : State) (p : Nat) :
    (s.rpEmptyIn p).beside .ronpex = s.beside .ronpex := by
  unfold State.rpEmptyIn
  simp

@[simp] theorem State.beside_missingIn (s : State) :
    s.missingIn.beside .ronpex = s.beside .ronpex := by
  unfold State.missingIn
  simp

@[simp] theorem State.beside_shadowOwed (s : State) (pat n : Nat) :
    (s.shadowOwed pat n).beside .ronpex = s.beside .ronpex := by
  unfold State.shadowOwed
  simp

@[simp] theorem State.beside_shadowWrite (s : State) (pat skein a : Nat) (d : List Byte) :
    (s.shadowWrite pat skein a d).beside .ronpex = s.beside .ronpex := by
  unfold State.shadowWrite
  simp

@[simp] theorem State.beside_shadowTallies (s : State) :
    s.shadowTallies.beside .ronpex = s.beside .ronpex := by
  unfold State.shadowTallies
  dsimp only
  rw [State.beside_foldl _ _ fun t e => ?_]
  · simp
  · split
    · rfl
    · split <;> simp

@[simp] theorem State.beside_shadowCell (s : State) (c : WarpCell) :
    (s.shadowCell c).beside .ronpex = s.beside .ronpex := by
  unfold State.shadowCell
  split <;> simp

@[simp] theorem State.beside_moveTally (s : State) (c : WarpCell) :
    (s.moveTally c).1.beside .ronpex = s.beside .ronpex := by
  unfold State.moveTally
  repeat' split
  all_goals simp

@[simp] theorem State.beside_rpWarpIn (s : State) (p : Nat) (c : WarpCell) :
    (s.rpWarpIn p c).beside .ronpex = s.beside .ronpex := by
  unfold State.rpWarpIn
  simp

@[simp] theorem State.beside_closeGroup (s : State) (n : Nat) (r : PhaseRec) (x : AccCtx) :
    (s.closeGroup n r x).beside .ronpex = s.beside .ronpex := by
  unfold State.closeGroup
  split <;> simp

@[simp] theorem State.beside_spinBudget (s : State) (n : Nat) (what : Contrib) :
    (s.spinBudget n what).2.beside .ronpex = s.beside .ronpex := by
  unfold State.spinBudget
  dsimp only
  repeat' split
  all_goals simp

@[simp] theorem State.beside_spindleTraffic (s : State) (n : Nat) (x : Contrib) :
    (s.spindleTraffic n x).beside .ronpex = s.beside .ronpex := by
  unfold State.spindleTraffic
  split <;> simp

@[simp] theorem State.beside_spindleIn (s : State) (n ph : Nat) (what : Contrib) :
    (s.spindleIn n ph what).beside .ronpex = s.beside .ronpex := by
  unfold State.spindleIn
  dsimp only
  repeat' split
  all_goals simp

@[simp] theorem State.beside_emitCell (s : State) (n : Nat) (c : WarpCell) :
    (s.emitCell n c).beside .ronpex = s.beside .ronpex := by
  unfold State.emitCell
  dsimp only
  split <;> simp

@[simp] theorem State.beside_spindleEmit (s : State) (n : Nat) :
    (s.spindleEmit n).beside .ronpex = s.beside .ronpex := by
  unfold State.spindleEmit
  repeat' split
  all_goals simp

@[simp] theorem State.beside_anchorsIn (s : State) (n : Nat) (c : WarpCell) :
    (s.anchorsIn n c).beside .ronpex = s.beside .ronpex := by
  unfold State.anchorsIn
  simp

@[simp] theorem State.beside_flightsLand (s : State) :
    s.flightsLand.beside .ronpex = s.beside .ronpex := by
  unfold State.flightsLand
  refine State.beside_foldl _ _ (fun t f => ?_) _ _
  split <;> simp

@[simp] theorem State.beside_delivered (s : State) (p : Nat) (c : WarpCell) (ok : Bool) :
    (s.delivered p c ok).beside .ronpex = s.beside .ronpex := by
  unfold State.delivered
  simp

@[simp] theorem State.beside_flightsDone (s : State) :
    s.flightsDone.beside .ronpex = s.beside .ronpex := by
  unfold State.flightsDone
  simp

/-! ### Machine/Draft -/

@[simp] theorem State.beside_committed (s : State) (slot code : Nat) :
    (s.committed slot code).beside .ronpex = s.beside .ronpex := by
  unfold State.committed
  simp

@[simp] theorem State.beside_commitSlot (s : State) (slot : Nat) :
    (s.commitSlot slot).beside .ronpex = s.beside .ronpex := by
  unfold State.commitSlot
  simp

@[simp] theorem State.beside_drfCtl (s : State) (v : Nat) :
    (s.drfCtl v).beside .ronpex = s.beside .ronpex := by
  unfold State.drfCtl
  simp

@[simp] theorem State.beside_rpDraftOn (s : State) (slot : Nat) :
    (s.rpDraftOn slot).beside .ronpex = s.beside .ronpex := by
  unfold State.rpDraftOn
  simp

@[simp] theorem State.beside_rpDraftOff (s : State) :
    s.rpDraftOff.beside .ronpex = s.beside .ronpex := by
  unfold State.rpDraftOff
  simp

@[simp] theorem State.beside_rpActivate (s : State) :
    s.rpActivate.beside .ronpex = s.beside .ronpex := by
  unfold State.rpActivate
  dsimp only
  repeat' split
  all_goals simp

/-! ### Machine/EpWarp -/

@[simp] theorem State.beside_wctl (s : State) (v : Nat) :
    (s.wctl v).beside .plocen = s.beside .plocen := by
  unfold State.wctl
  simp

@[simp] theorem State.beside_modSky (s : State) (p : Nat) (f : SkyRun → SkyRun) :
    (s.modSky p f).beside .plocen = s.beside .plocen := by
  unfold State.modSky
  simp

@[simp] theorem State.beside_skyIn (s : State) (p : Nat) (c : WarpCell) :
    (s.skyIn p c).beside .plocen = s.beside .plocen := by
  unfold State.skyIn
  dsimp only
  repeat' split
  all_goals simp

@[simp] theorem State.beside_epAnchorsIn (s : State) (p : Nat) (c : WarpCell) :
    (s.epAnchorsIn p c).beside .plocen = s.beside .plocen := by
  unfold State.epAnchorsIn
  simp

@[simp] theorem State.beside_roundPassed (s : State) (p pat : Nat) (r : Run) (round : Nat) :
    (s.roundPassed p pat r round).beside .plocen = s.beside .plocen := by
  unfold State.roundPassed
  simp

@[simp] theorem State.beside_resultIn (s : State) (p : Nat) (x : PhaseRec) (r : Run) (c : WarpCell) :
    (s.resultIn p x r c).beside .plocen = s.beside .plocen := by
  unfold State.resultIn
  dsimp only
  repeat' split
  all_goals simp

@[simp] theorem State.beside_epWarpIn (s : State) (p : Nat) (c : WarpCell) :
    (s.epWarpIn p c).beside .plocen = s.beside .plocen := by
  unfold State.epWarpIn
  dsimp only
  repeat' split
  all_goals simp

/-! ### Machine/Warp -/

@[simp] theorem State.beside_drfWrite (s : State) (ctl : Word) (wr : Writer) :
    (s.drfWrite ctl wr).beside .ronpex = s.beside .ronpex := by
  unfold State.drfWrite
  simp

@[simp] theorem State.beside_wctlWrite (s : State) (ctl : Word) (wr : Writer) :
    (s.wctlWrite ctl wr).beside .plocen = s.beside .plocen := by
  unfold State.wctlWrite
  simp

@[simp] theorem State.beside_activateDraft (s : State) (x : Part) :
    (s.activateDraft x).beside x = s.beside x := by
  unfold State.activateDraft
  cases x <;> simp

@[simp] theorem State.beside_mgmtIn (s : State) (p : Part) (src : MgmtSource) (m : Mgmt) :
    (s.mgmtIn p src m).beside p = s.beside p := by
  unfold State.mgmtIn
  cases p <;> simp

@[simp] theorem State.beside_rpCellIn (s : State) (p : Nat) (c : WarpCell) :
    (s.rpCellIn p c).beside .ronpex = s.beside .ronpex := by
  unfold State.rpCellIn
  simp

@[simp] theorem State.beside_epCellIn (s : State) (p : Nat) (c : WarpCell) :
    (s.epCellIn p c).beside .plocen = s.beside .plocen := by
  unfold State.epCellIn
  simp

@[simp] theorem State.beside_applyOrders (s : State) (p : Part) :
    (s.applyOrders p).beside p = s.beside p := by
  unfold State.applyOrders
  cases p <;> simp

/-! ### Machine/LinkOps -/

@[simp] theorem State.beside_lmcPush (s : State) (p : Part) (port : Nat) (l : List LmcMsg) :
    (s.lmcPush p port l).beside p = s.beside p := by
  unfold State.lmcPush
  simp

@[simp] theorem State.beside_causeDown (s : State) (p : Part) (port cause : Nat) :
    (s.causeDown p port cause).beside p = s.beside p := by
  unfold State.causeDown
  simp

@[simp] theorem State.beside_recordIdentity (s : State) (p : Part) (port : Nat) (i : Identity) :
    (s.recordIdentity p port i).beside p = s.beside p := by
  unfold State.recordIdentity
  simp

@[simp] theorem State.beside_logIdentity (s : State) (p : Part) (port : Nat) (i : Identity) (received : Bool) :
    (s.logIdentity p port i received).beside p = s.beside p := by
  unfold State.logIdentity
  simp

@[simp] theorem State.beside_miswire (s : State) (p : Part) (port : Nat) (expected got : Identity) :
    (s.miswire p port expected got).beside p = s.beside p := by
  unfold State.miswire
  cases p <;> simp

@[simp] theorem State.beside_identIn (s : State) (p : Part) (port : Nat) (got : Identity) :
    (s.identIn p port got).beside p = s.beside p := by
  unfold State.identIn
  dsimp only
  repeat' split
  all_goals simp

@[simp] theorem State.beside_tuneWls (s : State) (p : Part) (port : Nat) (ws : List Nat) :
    (s.tuneWls p port ws).beside p = s.beside p := by
  unfold State.tuneWls
  simp

@[simp] theorem State.beside_farPower (s : State) (p : Part) (port first : Nat) (l : List Int) :
    (s.farPower p port first l).beside p = s.beside p := by
  unfold State.farPower
  simp

@[simp] theorem State.beside_skyPower (s : State) (port : Nat) (x : Int) :
    (s.skyPower port x).beside .plocen = s.beside .plocen := by
  unfold State.skyPower
  split <;> simp

@[simp] theorem State.beside_powerIn (s : State) (p : Part) (port : Nat) (l : List Int) :
    (s.powerIn p port l).beside p = s.beside p := by
  unfold State.powerIn
  cases p <;> simp

@[simp] theorem State.beside_revalEnd (s : State) (p : Part) (port : Nat) :
    (s.revalEnd p port).beside p = s.beside p := by
  unfold State.revalEnd
  simp

@[simp] theorem State.beside_revalAbandon (s : State) (p : Part) (port : Nat) :
    (s.revalAbandon p port).beside p = s.beside p := by
  unfold State.revalAbandon
  split <;> simp

@[simp] theorem State.beside_askSwap (s : State) (p : Part) (port lane reason : Nat) :
    (s.askSwap p port lane reason).beside p = s.beside p := by
  unfold State.askSwap
  simp

@[simp] theorem State.beside_laneFailed (s : State) (p : Part) (port lane : Nat) :
    (s.laneFailed p port lane).beside p = s.beside p := by
  unfold State.laneFailed
  simp

@[simp] theorem State.beside_swapEvent (s : State) (p : Part) (port reason w : Nat) :
    (s.swapEvent p port reason w).beside p = s.beside p := by
  unfold State.swapEvent
  cases p <;> simp

@[simp] theorem State.beside_laneLow (s : State) (p : Part) (port lane : Nat) :
    (s.laneLow p port lane).beside p = s.beside p := by
  unfold State.laneLow
  simp

@[simp] theorem State.beside_swapReqIn (s : State) (p : Part) (port lane reason frame : Nat) :
    (s.swapReqIn p port lane reason frame).beside p = s.beside p := by
  unfold State.swapReqIn
  simp

@[simp] theorem State.beside_swapAckIn (s : State) (p : Part) (port lane frame : Nat) :
    (s.swapAckIn p port lane frame).beside p = s.beside p := by
  unfold State.swapAckIn
  simp

@[simp] theorem State.beside_setEngineTemp (s : State) (p : Part) (port : Nat) (t : Int) :
    (s.setEngineTemp p port t).beside p = s.beside p := by
  unfold State.setEngineTemp
  cases p <;> simp

@[simp] theorem State.beside_stamp (s : State) (p : Part) (port w : Nat) (cls : Bool) (temp : Int) :
    (s.stamp p port w cls temp).beside p = s.beside p := by
  unfold State.stamp
  simp

@[simp] theorem State.beside_revalBegin (s : State) (p : Part) (port : Nat) (cls : Bool) (temp : Int) :
    (s.revalBegin p port cls temp).beside p = s.beside p := by
  unfold State.revalBegin
  simp

@[simp] theorem State.beside_revalResume (s : State) (p : Part) (port : Nat) :
    (s.revalResume p port).beside p = s.beside p := by
  unfold State.revalResume
  dsimp only
  repeat' split
  all_goals simp

@[simp] theorem State.beside_swapNow (s : State) (p : Part) (port : Nat) (x : Swap) :
    (s.swapNow p port x).beside p = s.beside p := by
  unfold State.swapNow
  simp

@[simp] theorem State.beside_swapApply (s : State) (p : Part) (port : Nat) :
    (s.swapApply p port).beside p = s.beside p := by
  unfold State.swapApply
  dsimp only
  repeat' split
  all_goals simp

@[simp] theorem State.beside_revalStart (s : State) (p : Part) (port : Nat) (cls : Bool) (temp : Int) :
    (s.revalStart p port cls temp).beside p = s.beside p := by
  unfold State.revalStart
  simp

@[simp] theorem State.beside_revalTurn (s : State) (p : Part) (port errors : Nat) (r : Reval) :
    (s.revalTurn p port errors r).beside p = s.beside p := by
  unfold State.revalTurn
  dsimp only
  repeat' split
  all_goals simp

@[simp] theorem State.beside_revalCheck (s : State) (p : Part) (port errors : Nat) :
    (s.revalCheck p port errors).beside p = s.beside p := by
  unfold State.revalCheck
  dsimp only
  repeat' split
  all_goals simp

@[simp] theorem State.beside_lightOut (s : State) (p : Part) (port : Nat) :
    (s.lightOut p port).beside p = s.beside p := by
  unfold State.lightOut
  simp

@[simp] theorem State.beside_lightBack (s : State) (p : Part) (port : Nat) :
    (s.lightBack p port).beside p = s.beside p := by
  unfold State.lightBack
  split <;> simp

@[simp] theorem State.beside_lossOfClock (s : State) (p : Part) (port : Nat) :
    (s.lossOfClock p port).beside p = s.beside p := by
  unfold State.lossOfClock
  simp

@[simp] theorem State.beside_holdoverOut (s : State) (p : Part) (port : Nat) :
    (s.holdoverOut p port).beside p = s.beside p := by
  unfold State.holdoverOut
  split <;> simp

@[simp] theorem State.beside_clockStopped (s : State) (p : Part) (port : Nat) :
    (s.clockStopped p port).beside p = s.beside p := by
  unfold State.clockStopped
  simp

@[simp] theorem State.beside_prbsIn (s : State) (p : Part) (port w : Nat) (l : List Nat) :
    (s.prbsIn p port w l).beside p = s.beside p := by
  unfold State.prbsIn
  split <;> simp

@[simp] theorem State.beside_wordIn (s : State) (p : Part) (port : Nat) (g : RxGroup) (lane place : Nat) :
    (s.wordIn p port g lane place).beside p = s.beside p := by
  unfold State.wordIn
  split <;> simp

@[simp] theorem State.beside_placeIn (s : State) (p : Part) (port : Nat) (g : RxGroup) (place : Nat) :
    (s.placeIn p port g place).beside p = s.beside p := by
  unfold State.placeIn
  simp

@[simp] theorem State.beside_groupIn (s : State) (p : Part) (port : Nat) (g : RxGroup) :
    (s.groupIn p port g).beside p = s.beside p := by
  unfold State.groupIn
  simp

@[simp] theorem State.beside_patternsIn (s : State) (p : Part) (port : Nat) (l : List RxPattern) :
    (s.patternsIn p port l).beside p = s.beside p := by
  unfold State.patternsIn
  simp

@[simp] theorem State.beside_groupsIn (s : State) (p : Part) (port : Nat) (l : List RxGroup) (x : List RxPattern) :
    (s.groupsIn p port l x).beside p = s.beside p := by
  unfold State.groupsIn
  simp

@[simp] theorem State.beside_misaligned (s : State) (p : Part) (port : Nat) :
    (s.misaligned p port).beside p = s.beside p := by
  unfold State.misaligned
  simp

@[simp] theorem State.beside_timeEvent (s : State) (p : Part) (case : Nat) :
    (s.timeEvent p case).beside p = s.beside p := by
  unfold State.timeEvent
  cases p <;> simp

@[simp] theorem State.beside_timeFrom (s : State) (p : Part) (port : Nat) (twice : Int) (delay depth : Nat) :
    (s.timeFrom p port twice delay depth).beside p = s.beside p := by
  unfold State.timeFrom
  cases p <;> simp

@[simp] theorem State.beside_delayAgain (s : State) (p : Part) (port slotsIn slotsOut : Nat) :
    (s.delayAgain p port slotsIn slotsOut).beside p = s.beside p := by
  unfold State.delayAgain
  simp

@[simp] theorem State.beside_syncIn (s : State) (p : Part) (port seq : Nat) (locked master : Bool) (depth time16 recv16 : Nat) :
    (s.syncIn p port seq locked master depth time16 recv16).beside p = s.beside p := by
  unfold State.syncIn
  simp

@[simp] theorem State.beside_exchange (s : State) (p : Part) (port syncSeq time16 : Nat) :
    (s.exchange p port syncSeq time16).beside p = s.beside p := by
  unfold State.exchange
  dsimp only
  repeat' split
  all_goals simp

/-! ### Machine/KeyOps -/

@[simp] theorem State.beside_modKeys (s : State) (p : Part) (port : Nat) (f : LinkKeys → LinkKeys) :
    (s.modKeys p port f).beside p = s.beside p := by
  unfold State.modKeys
  simp

@[simp] theorem State.beside_keysFailed (s : State) (p : Part) (port reason : Nat) :
    (s.keysFailed p port reason).beside p = s.beside p := by
  unfold State.keysFailed
  simp

@[simp] theorem State.beside_sendSig (s : State) (p : Part) (port : Nat) :
    (s.sendSig p port).beside p = s.beside p := by
  unfold State.sendSig
  split <;> simp

@[simp] theorem State.beside_beginKeys (s : State) (p : Part) (port : Nat) (cert : Bool) :
    (s.beginKeys p port cert).beside p = s.beside p := by
  unfold State.beginKeys
  simp

@[simp] theorem State.beside_keysAgreed (s : State) (p : Part) (port : Nat) (far : Identity) :
    (s.keysAgreed p port far).beside p = s.beside p := by
  unfold State.keysAgreed
  simp

@[simp] theorem State.beside_checkSig (s : State) (p : Part) (port : Nat) :
    (s.checkSig p port).beside p = s.beside p := by
  unfold State.checkSig
  split <;> simp

@[simp] theorem State.beside_certIn (s : State) (p : Part) (port f : Nat) (d : List Byte) :
    (s.certIn p port f d).beside p = s.beside p := by
  unfold State.certIn
  simp

@[simp] theorem State.beside_ephIn (s : State) (p : Part) (port f : Nat) (d : List Byte) :
    (s.ephIn p port f d).beside p = s.beside p := by
  unfold State.ephIn
  simp

@[simp] theorem State.beside_sigIn (s : State) (p : Part) (port f : Nat) (d : List Byte) :
    (s.sigIn p port f d).beside p = s.beside p := by
  unfold State.sigIn
  simp

@[simp] theorem State.beside_abortIn (s : State) (p : Part) (port : Nat) :
    (s.abortIn p port).beside p = s.beside p := by
  unfold State.abortIn
  simp

@[simp] theorem State.beside_rekey (s : State) (p : Part) (port : Nat) :
    (s.rekey p port).beside p = s.beside p := by
  unfold State.rekey
  simp

@[simp] theorem State.beside_switchIn (s : State) (p : Part) (port gen frame : Nat) :
    (s.switchIn p port gen frame).beside p = s.beside p := by
  unfold State.switchIn
  simp

@[simp] theorem State.beside_switchAckIn (s : State) (p : Part) (port gen frame : Nat) :
    (s.switchAckIn p port gen frame).beside p = s.beside p := by
  unfold State.switchAckIn
  simp

@[simp] theorem State.beside_keySwitch (s : State) (p : Part) (port : Nat) :
    (s.keySwitch p port).beside p = s.beside p := by
  unfold State.keySwitch
  dsimp only
  repeat' split
  all_goals simp

@[simp] theorem State.beside_switchRetry (s : State) (p : Part) (port : Nat) :
    (s.switchRetry p port).beside p = s.beside p := by
  unfold State.switchRetry
  dsimp only
  repeat' split
  all_goals simp

@[simp] theorem State.beside_rekeyOver (s : State) (p : Part) (port : Nat) :
    (s.rekeyOver p port).beside p = s.beside p := by
  unfold State.rekeyOver
  split <;> simp

@[simp] theorem State.beside_frameTag (s : State) (p : Part) (port : Nat) (ok : Bool) (low : Nat) (tag : BitVec 64) :
    (s.frameTag p port ok low tag).beside p = s.beside p := by
  unfold State.frameTag
  dsimp only
  repeat' split
  all_goals simp

@[simp] theorem State.beside_enterStep (s : State) (p : Part) (port k : Nat) :
    (s.enterStep p port k).beside p = s.beside p := by
  unfold State.enterStep
  simp

@[simp] theorem State.beside_stepOn (s : State) (p : Part) (port : Nat) :
    (s.stepOn p port).beside p = s.beside p := by
  unfold State.stepOn
  simp

@[simp] theorem State.beside_receiverOn (s : State) (p : Part) (port : Nat) :
    (s.receiverOn p port).beside p = s.beside p := by
  unfold State.receiverOn
  simp

@[simp] theorem State.beside_farStateIn (s : State) (p : Part) (port step : Nat) :
    (s.farStateIn p port step).beside p = s.beside p := by
  unfold State.farStateIn
  simp

@[simp] theorem State.beside_delayCheck (s : State) (port : Nat) :
    (s.delayCheck port).beside .ronpex = s.beside .ronpex := by
  unfold State.delayCheck
  split <;> simp

@[simp] theorem State.beside_trained (s : State) (p : Part) (port delayIn delayOut : Nat) :
    (s.trained p port delayIn delayOut).beside p = s.beside p := by
  unfold State.trained
  cases p <;> simp

@[simp] theorem State.beside_testErrors (s : State) (p : Part) (port : Nat) (errors : List Nat) :
    (s.testErrors p port errors).beside p = s.beside p := by
  unfold State.testErrors
  simp

@[simp] theorem State.beside_stepDone (s : State) (p : Part) (port delayIn delayOut : Nat) (errors : List Nat) :
    (s.stepDone p port delayIn delayOut errors).beside p = s.beside p := by
  unfold State.stepDone
  dsimp only
  repeat' split
  all_goals simp

@[simp] theorem State.beside_stepTimeout (s : State) (p : Part) (port : Nat) :
    (s.stepTimeout p port).beside p = s.beside p := by
  unfold State.stepTimeout
  simp

@[simp] theorem State.beside_downAgain (s : State) (p : Part) (port : Nat) :
    (s.downAgain p port).beside p = s.beside p := by
  unfold State.downAgain
  split <;> simp

@[simp] theorem State.beside_portOff (s : State) (p : Part) (port : Nat) :
    (s.portOff p port).beside p = s.beside p := by
  unfold State.portOff
  cases p <;> simp

@[simp] theorem State.beside_clearCounters (s : State) (p : Part) (port : Nat) :
    (s.clearCounters p port).beside p = s.beside p := by
  unfold State.clearCounters
  simp

@[simp] theorem State.beside_portCtl (s : State) (p : Part) (port v : Nat) :
    (s.portCtl p port v).beside p = s.beside p := by
  unfold State.portCtl
  simp

@[simp] theorem State.beside_lmcSend (s : State) (p : Part) (port : Nat) :
    (s.lmcSend p port).beside p = s.beside p := by
  unfold State.lmcSend
  dsimp only
  repeat' split
  all_goals simp

/-! ### Machine/LightOps -/

@[simp] theorem State.beside_lineOut (s : State) (p : Part) (port : Nat) (b : List Byte) :
    (s.lineOut p port b).beside p = s.beside p := by
  unfold State.lineOut
  dsimp only
  split
  · exact State.beside_modLink _ _ _ _
  · rw [State.beside_foldl _ _ fun t k => State.beside_emit _ _ _]
    exact State.beside_modLink _ _ _ _

@[simp] theorem State.beside_sendBlock (s : State) (p : Part) (port : Nat) (b : Block) :
    (s.sendBlock p port b).beside p = s.beside p := by
  unfold State.sendBlock
  dsimp only
  repeat' split
  all_goals simp

@[simp] theorem State.beside_countSlot (s : State) (p : Part) (port : Nat) (fill busy : Bool) :
    (s.countSlot p port fill busy).beside p = s.beside p := by
  unfold State.countSlot
  simp

@[simp] theorem State.beside_weftFill (s : State) (p : Part) (port : Nat) :
    (s.weftFill p port).beside p = s.beside p := by
  unfold State.weftFill
  simp

@[simp] theorem State.beside_idleFill (s : State) (p : Part) (port : Nat) :
    (s.idleFill p port).beside p = s.beside p := by
  unfold State.idleFill
  simp

@[simp] theorem State.beside_sendBusy (s : State) (p : Part) (port : Nat) (b : Block) :
    (s.sendBusy p port b).beside p = s.beside p := by
  unfold State.sendBusy
  simp

@[simp] theorem State.beside_patternOut (s : State) (p : Part) (port : Nat) (k : Prbs) (restart : Bool) (w : Nat) :
    (s.patternOut p port k restart w).beside p = s.beside p := by
  unfold State.patternOut
  simp

@[simp] theorem State.beside_patternSlot (s : State) (p : Part) (port : Nat) :
    (s.patternSlot p port).beside p = s.beside p := by
  unfold State.patternSlot
  split <;> simp

@[simp] theorem State.beside_burstOut (s : State) (p : Part) (port : Nat) :
    (s.burstOut p port).beside p = s.beside p := by
  unfold State.burstOut
  simp

@[simp] theorem State.beside_deskewOut (s : State) (p : Part) (port : Nat) :
    (s.deskewOut p port).beside p = s.beside p := by
  unfold State.deskewOut
  simp

@[simp] theorem State.beside_lpiStep (s : State) (p : Part) (port : Nat) (ready : Bool) :
    (s.lpiStep p port ready).2.beside p = s.beside p := by
  unfold State.lpiStep
  repeat' split
  all_goals simp

@[simp] theorem State.beside_idleSlot (s : State) (p : Part) (port : Nat) (ready : Bool) :
    (s.idleSlot p port ready).beside p = s.beside p := by
  unfold State.idleSlot
  simp

@[simp] theorem State.beside_fillLpi (s : State) (p : Part) (port : Nat) :
    (s.fillLpi p port).beside p = s.beside p := by
  unfold State.fillLpi
  simp

@[simp] theorem State.beside_skySlot (s : State) (port : Nat) :
    (s.skySlot port).beside .ronpex = s.beside .ronpex := by
  unfold State.skySlot
  simp

@[simp] theorem State.beside_skyAlign (s : State) (port rx : Nat) :
    (s.skyAlign port rx).beside .plocen = s.beside .plocen := by
  unfold State.skyAlign
  split <;> simp

@[simp] theorem State.beside_skyGroups (s : State) (port tx : Nat) :
    (s.skyGroups port tx).beside .plocen = s.beside .plocen := by
  unfold State.skyGroups
  split <;> simp

@[simp] theorem State.beside_skyOut (s : State) (port : Nat) :
    (s.skyOut port).beside .plocen = s.beside .plocen := by
  unfold State.skyOut
  simp

@[simp] theorem State.beside_skySend (s : State) (j n ph : Nat) :
    (s.skySend j n ph).beside .plocen = s.beside .plocen := by
  unfold State.skySend
  split <;> simp

/-! ### Machine/LaserOps -/

@[simp] theorem State.beside_lasError (s : State) (m b : Nat) :
    (s.lasError m b).beside .ronpex = s.beside .ronpex := by
  unfold State.lasError
  simp

@[simp] theorem State.beside_modLas (s : State) (f : Lasers → Lasers) :
    (s.modLas f).beside .ronpex = s.beside .ronpex := by
  unfold State.modLas
  simp

@[simp] theorem State.beside_lasSend (s : State) (m : Nat) :
    (s.lasSend m).beside .ronpex = s.beside .ronpex := by
  unfold State.lasSend
  split <;> simp

@[simp] theorem State.beside_lasAsk (s : State) (m : Nat) (write : Bool) (addr data : Nat) (user : Bool) :
    (s.lasAsk m write addr data user).beside .ronpex = s.beside .ronpex := by
  unfold State.lasAsk
  simp

@[simp] theorem State.beside_lasNext (s : State) (m : Nat) :
    (s.lasNext m).beside .ronpex = s.beside .ronpex := by
  unfold State.lasNext
  simp

@[simp] theorem State.beside_lasAccess (s : State) (m v : Nat) :
    (s.lasAccess m v).beside .ronpex = s.beside .ronpex := by
  unfold State.lasAccess
  simp

@[simp] theorem State.beside_showBias (s : State) (m w : Nat) :
    (s.showBias m w).beside .ronpex = s.beside .ronpex := by
  unfold State.showBias
  repeat' split
  all_goals simp

@[simp] theorem State.beside_lasLearn (s : State) (m addr v : Nat) :
    (s.lasLearn m addr v).beside .ronpex = s.beside .ronpex := by
  unfold State.lasLearn
  simp

@[simp] theorem State.beside_lasFollow (s : State) (m w : Nat) :
    (s.lasFollow m w).beside .ronpex = s.beside .ronpex := by
  unfold State.lasFollow
  simp

@[simp] theorem State.beside_lasFollowed (s : State) :
    s.lasFollowed.beside .ronpex = s.beside .ronpex := by
  unfold State.lasFollowed
  simp

@[simp] theorem State.beside_lasDone (s : State) (m : Nat) (q : LasReq) (r : LasReply) :
    (s.lasDone m q r).beside .ronpex = s.beside .ronpex := by
  unfold State.lasDone
  simp

@[simp] theorem State.beside_lasRetry (s : State) (m : Nat) (q : LasReq) :
    (s.lasRetry m q).beside .ronpex = s.beside .ronpex := by
  unfold State.lasRetry
  simp

@[simp] theorem State.beside_lasReplyIn (s : State) (m : Nat) (r : LasReply) :
    (s.lasReplyIn m r).beside .ronpex = s.beside .ronpex := by
  unfold State.lasReplyIn
  split <;> simp

@[simp] theorem State.beside_lasSilent (s : State) (m : Nat) :
    (s.lasSilent m).beside .ronpex = s.beside .ronpex := by
  unfold State.lasSilent
  split <;> simp

@[simp] theorem State.beside_emitterFailed (s : State) (m w : Nat) (overtemp : Bool) :
    (s.emitterFailed m w overtemp).beside .ronpex = s.beside .ronpex := by
  unfold State.emitterFailed
  simp

@[simp] theorem State.beside_epEmitterFailed (s : State) (w : Nat) (b : Bool) :
    (s.epEmitterFailed w b).beside .plocen = s.beside .plocen := by
  unfold State.epEmitterFailed
  simp

@[simp] theorem State.beside_feedEvent (s : State) (e mask : Nat) :
    (s.feedEvent e mask).beside .ronpex = s.beside .ronpex := by
  unfold State.feedEvent
  simp

@[simp] theorem State.beside_moveFeeds (s : State) (e mask : Nat) (standby : Bool) :
    (s.moveFeeds e mask standby).beside .ronpex = s.beside .ronpex := by
  unfold State.moveFeeds
  simp

@[simp] theorem State.beside_feedReading (s : State) (e w : Nat) (pri stby : Int) :
    (s.feedReading e w pri stby).beside .ronpex = s.beside .ronpex := by
  unfold State.feedReading
  simp

@[simp] theorem State.beside_feedTrip (s : State) (e w : Nat) (pri stby : Int) :
    (s.feedTrip e w pri stby).beside .ronpex = s.beside .ronpex := by
  unfold State.feedTrip
  dsimp only
  split <;> simp

@[simp] theorem State.beside_feedBack (s : State) (e w : Nat) (pri stby : Int) :
    (s.feedBack e w pri stby).beside .ronpex = s.beside .ronpex := by
  unfold State.feedBack
  simp

@[simp] theorem State.beside_feedWrite (s : State) (e v : Nat) :
    (s.feedWrite e v).beside .ronpex = s.beside .ronpex := by
  unfold State.feedWrite
  simp

@[simp] theorem State.beside_feedsDue (s : State) :
    s.feedsDue.beside .ronpex = s.beside .ronpex := by
  unfold State.feedsDue
  simp

@[simp] theorem State.beside_logExcluded (s : State) (p : Part) (w : Nat) (m2 : Int) (l : List (Nat × Int)) :
    (s.logExcluded p w m2 l).beside p = s.beside p := by
  unfold State.logExcluded
  simp

@[simp] theorem State.beside_recordBias (s : State) (m w bias : Nat) (emitterB : Bool) :
    (s.recordBias m w bias emitterB).beside .ronpex = s.beside .ronpex := by
  unfold State.recordBias
  dsimp only
  split <;> simp

@[simp] theorem State.beside_writeBias (s : State) (m w bias : Nat) (emitterB : Bool) :
    (s.writeBias m w bias emitterB).beside .ronpex = s.beside .ronpex := by
  unfold State.writeBias
  simp

@[simp] theorem State.beside_lasInquire (s : State) (m w : Nat) :
    (s.lasInquire m w).beside .ronpex = s.beside .ronpex := by
  unfold State.lasInquire
  simp

@[simp] theorem State.beside_ageEmitter (s : State) (m w : Nat) :
    (s.ageEmitter m w).beside .ronpex = s.beside .ronpex := by
  unfold State.ageEmitter
  dsimp only
  repeat' split
  all_goals simp

@[simp] theorem State.beside_agePair (s : State) (w : Nat) :
    (s.agePair w).beside .plocen = s.beside .plocen := by
  unfold State.agePair
  dsimp only
  repeat' split
  all_goals simp

@[simp] theorem State.beside_biasEval (s : State) (p : Part) (m : Nat) :
    (s.biasEval p m).beside p = s.beside p := by
  unfold State.biasEval
  cases p <;> simp

/-! ### Machine/Pins -/

@[simp] theorem State.beside_modTap (s : State) (p : Part) (f : Tap → Tap) :
    (s.modTap p f).beside p = s.beside p := by
  unfold State.modTap
  cases p <;> simp

/-! ### Machine/SkeinOps -/

@[simp] theorem State.beside_skeinWrite (s : State) (v : Nat) (template : Option Nat) :
    (s.skeinWrite v template).beside .ronpex = s.beside .ronpex := by
  unfold State.skeinWrite
  simp

@[simp] theorem State.beside_destroyFkey (s : State) (k : Nat) :
    (s.destroyFkey k).beside .ronpex = s.beside .ronpex := by
  unfold State.destroyFkey
  simp

@[simp] theorem State.beside_scrubStart (s : State) (k : Nat) :
    (s.scrubStart k).beside .ronpex = s.beside .ronpex := by
  unfold State.scrubStart
  simp

@[simp] theorem State.beside_scrubbed (s : State) :
    s.scrubbed.beside .ronpex = s.beside .ronpex := by
  unfold State.scrubbed
  split <;> simp

@[simp] theorem State.beside_sknCtl (s : State) (k v : Nat) :
    (s.sknCtl k v).beside .ronpex = s.beside .ronpex := by
  unfold State.sknCtl
  simp

@[simp] theorem State.beside_releaseSkein (s : State) (k : Nat) :
    (s.releaseSkein k).beside .ronpex = s.beside .ronpex := by
  unfold State.releaseSkein
  simp

@[simp] theorem State.beside_loadTemplate (s : State) (k t : Nat) :
    (s.loadTemplate k t).beside .ronpex = s.beside .ronpex := by
  unfold State.loadTemplate
  simp

@[simp] theorem State.beside_skeinEffect (s : State) :
    s.skeinEffect.beside .ronpex = s.beside .ronpex := by
  unfold State.skeinEffect
  repeat' split
  all_goals simp

@[simp] theorem State.beside_sknPort (s : State) (p v : Nat) :
    (s.sknPort p v).beside .ronpex = s.beside .ronpex := by
  unfold State.sknPort
  simp

@[simp] theorem State.beside_releaseRecords (s : State) :
    s.releaseRecords.beside .ronpex = s.beside .ronpex := by
  unfold State.releaseRecords
  simp

/-! ### Machine/SecOps -/

@[simp] theorem State.beside_modSec (s : State) (p : Part) (f : Security → Security) :
    (s.modSec p f).beside p = s.beside p := by
  unfold State.modSec
  simp

@[simp] theorem State.beside_spdmReply (s : State) (p : Part) (session : Option Nat) (code : Nat) (body : List Byte) :
    (s.spdmReply p session code body).beside p = s.beside p := by
  unfold State.spdmReply
  simp

@[simp] theorem State.beside_spdmError (s : State) (p : Part) (session : Option Nat) (e : Nat) :
    (s.spdmError p session e).beside p = s.beside p := by
  unfold State.spdmError
  simp

@[simp] theorem State.beside_spdmAnswer (s : State) (p : Part) (code : Nat) (session : Option Nat) (slot : Nat) (req : List Byte) :
    (s.spdmAnswer p code session slot req).beside p = s.beside p := by
  unfold State.spdmAnswer
  simp

@[simp] theorem State.beside_spdmIn (s : State) (p : Part) (code : Nat) (session : Option Nat) (slot : Nat) (req : List Byte) :
    (s.spdmIn p code session slot req).beside p = s.beside p := by
  unfold State.spdmIn
  simp

@[simp] theorem State.beside_keyReply (s : State) (p : Part) (session : Option Nat) (op status : Nat) :
    (s.keyReply p session op status).beside p = s.beside p := by
  unfold State.keyReply
  simp

@[simp] theorem State.beside_keyRefused (s : State) (p : Part) (session : Option Nat) (op status : Nat) :
    (s.keyRefused p session op status).beside p = s.beside p := by
  unfold State.keyRefused
  simp

@[simp] theorem State.beside_keySet (s : State) (p : Part) (kind skein keyId : Nat) (key : BitVec 512) (h : p = .ronpex → kind ≠ 2) :
    (s.keySet p kind skein keyId key).beside p = s.beside p := by
  unfold State.keySet
  cases p
  · simp [h rfl]
  · simp

@[simp] theorem State.beside_keyGone (s : State) (p : Part) (kind skein : Nat) :
    (s.keyGone p kind skein).beside p = s.beside p := by
  unfold State.keyGone
  cases p <;> simp

@[simp] theorem State.beside_install (s : State) (p : Part) (session : Option Nat) (kind skein : Nat)
    (keyId : Word) (key : BitVec 512) (malformed : Bool) :
    (s.install p session kind skein keyId key malformed).beside p = s.beside p := by
  unfold State.install
  split
  · simp
  · dsimp only
    split
    · next h =>
      have hkind : p = .ronpex → kind ≠ 2 := by
        rintro rfl rfl
        simp [State.installStatus, keyFits] at h
      simp [State.beside_keySet _ _ _ _ _ _ hkind]
    · simp

@[simp] theorem State.beside_destroy (s : State) (p : Part) (session : Option Nat) (kind skein : Nat) (malformed : Bool) :
    (s.destroy p session kind skein malformed).beside p = s.beside p := by
  unfold State.destroy
  simp

@[simp] theorem State.beside_fwEvent (s : State) (p : Part) :
    (s.fwEvent p).beside p = s.beside p := by
  unfold State.fwEvent
  cases p <;> simp

@[simp] theorem State.beside_fwLog (s : State) (p : Part) (old : Nat) :
    (s.fwLog p old).beside p = s.beside p := by
  unfold State.fwLog
  simp

@[simp] theorem State.beside_fwState (s : State) (p : Part) (new : Nat) :
    (s.fwState p new).beside p = s.beside p := by
  unfold State.fwState
  simp

@[simp] theorem State.beside_restartLayer1 (s : State) (p : Part) (activating : Bool) :
    (s.restartLayer1 p activating).beside p = s.beside p := by
  unfold State.restartLayer1
  simp

@[simp] theorem State.beside_heldAnswer (s : State) (p : Part) (h : HeldReq) :
    (s.heldAnswer p h).beside p = s.beside p := by
  unfold State.heldAnswer
  simp

@[simp] theorem State.beside_layer1Back (s : State) (p : Part) :
    (s.layer1Back p).beside p = s.beside p := by
  unfold State.layer1Back
  cases p <;> dsimp only
  · simp
    split <;> simp
  · simp

@[simp] theorem State.beside_raiseSvn (s : State) :
    s.raiseSvn.beside .ronpex = s.beside .ronpex := by
  unfold State.raiseSvn
  simp

@[simp] theorem State.beside_layer1Done (s : State) (p : Part) :
    (s.layer1Done p).beside p = s.beside p := by
  unfold State.layer1Done
  cases p <;> simp

@[simp] theorem State.beside_fwFailed (s : State) (p : Part) :
    (s.fwFailed p).beside p = s.beside p := by
  unfold State.fwFailed
  split
  · rfl
  · split
    · rfl
    · dsimp only
      split
      · next h => simp [h]
      · simp

/-! ### Machine/PowerOps -/

@[simp] theorem State.beside_modPower (s : State) (f : Power → Power) :
    (s.modPower f).beside .ronpex = s.beside .ronpex := by
  unfold State.modPower
  simp

@[simp] theorem State.beside_setScale (s : State) (v : Nat) :
    (s.setScale v).beside .ronpex = s.beside .ronpex := by
  unfold State.setScale
  simp

@[simp] theorem State.beside_powerRequest (s : State) :
    s.powerRequest.beside .ronpex = s.beside .ronpex := by
  unfold State.powerRequest
  simp

@[simp] theorem State.beside_powerReturn (s : State) :
    s.powerReturn.beside .ronpex = s.beside .ronpex := by
  unfold State.powerReturn
  simp

@[simp] theorem State.beside_powerFrame (s : State) (activity : List Nat) :
    (s.powerFrame activity).beside .ronpex = s.beside .ronpex := by
  unfold State.powerFrame
  simp

@[simp] theorem State.beside_sendToken (s : State) (tok : Nat) :
    (s.sendToken tok).beside .ronpex = s.beside .ronpex := by
  unfold State.sendToken
  simp

@[simp] theorem State.beside_returnToken (s : State) :
    s.returnToken.beside .ronpex = s.beside .ronpex := by
  unfold State.returnToken
  split <;> simp

@[simp] theorem State.beside_tokenDue (s : State) :
    s.tokenDue.beside .ronpex = s.beside .ronpex := by
  unfold State.tokenDue
  split <;> simp

@[simp] theorem State.beside_alertOn (s : State) :
    s.alertOn.beside .ronpex = s.beside .ronpex := by
  unfold State.alertOn
  simp

@[simp] theorem State.beside_alertOff (s : State) :
    s.alertOff.beside .ronpex = s.beside .ronpex := by
  unfold State.alertOff
  simp

@[simp] theorem State.beside_thermStep (s : State) (n : Nat) :
    (s.thermStep n).beside .ronpex = s.beside .ronpex := by
  unfold State.thermStep
  simp

@[simp] theorem State.beside_thermalFence (s : State) (d : Nat) :
    (s.thermalFence d).beside .ronpex = s.beside .ronpex := by
  unfold State.thermalFence
  split <;> simp

@[simp] theorem State.beside_thermalFrame (s : State) (sensors : List Int) :
    (s.thermalFrame sensors).beside .ronpex = s.beside .ronpex := by
  unfold State.thermalFrame
  simp

@[simp] theorem State.beside_stepsClear (n : Nat) (s : State) :
    (s.stepsClear n).beside .ronpex = s.beside .ronpex := by
  induction n generalizing s with
  | zero => rfl
  | succ n ih =>
    unfold State.stepsClear
    repeat' (first | split | dsimp only)
    all_goals simp [ih]

@[simp] theorem State.beside_thermalAgain (s : State) (d : Nat) :
    (s.thermalAgain d).beside .ronpex = s.beside .ronpex := by
  unfold State.thermalAgain
  simp

@[simp] theorem State.beside_coolReturn (s : State) (d : Nat) :
    (s.coolReturn d).beside .ronpex = s.beside .ronpex := by
  unfold State.coolReturn
  simp

@[simp] theorem State.beside_modTime (s : State) (p : Part) (f : TimeSt → TimeSt) :
    (s.modTime p f).beside p = s.beside p := by
  unfold State.modTime
  simp

@[simp] theorem State.beside_holdOver (s : State) (p : Part) :
    (s.holdOver p).beside p = s.beside p := by
  unfold State.holdOver
  simp

@[simp] theorem State.beside_dieOff (s : State) (d : Nat) :
    (s.dieOff d).beside .ronpex = s.beside .ronpex := by
  unfold State.dieOff
  simp

@[simp] theorem State.beside_enablesOff (s : State) :
    s.enablesOff.beside .ronpex = s.beside .ronpex := by
  unfold State.enablesOff
  simp

@[simp] theorem State.beside_hubAsleep (s : State) :
    s.hubAsleep.beside .ronpex = s.beside .ronpex := by
  unfold State.hubAsleep
  refine (State.beside_mk_ronpex _ _ _ _ _ _ _).trans ?_
  rw [State.beside_foldl _ _ fun t k => State.beside_setFlag _ _ _ _ _, State.beside_foldl _ _ fun t k => State.beside_setFlag _ _ _ _ _]

@[simp] theorem State.beside_timeAsleep (s : State) :
    s.timeAsleep.beside .ronpex = s.beside .ronpex := by
  unfold State.timeAsleep
  simp

@[simp] theorem State.beside_sleepCmd (s : State) :
    s.sleepCmd.beside .ronpex = s.beside .ronpex := by
  unfold State.sleepCmd
  dsimp only
  split <;> simp

@[simp] theorem State.beside_wakeStores (s : State) :
    s.wakeStores.beside .ronpex = s.beside .ronpex := by
  unfold State.wakeStores
  simp

@[simp] theorem State.beside_wakeCmd (s : State) :
    s.wakeCmd.beside .ronpex = s.beside .ronpex := by
  unfold State.wakeCmd
  simp

@[simp] theorem State.beside_rampDue (s : State) :
    s.rampDue.beside .ronpex = s.beside .ronpex := by
  unfold State.rampDue
  split <;> simp

@[simp] theorem State.beside_tokenHere (s : State) (tok : Nat) :
    (s.tokenHere tok).beside .ronpex = s.beside .ronpex := by
  unfold State.tokenHere
  simp

@[simp] theorem State.beside_newToken (s : State) (tok : Nat) :
    (s.newToken tok).beside .ronpex = s.beside .ronpex := by
  unfold State.newToken
  simp

@[simp] theorem State.beside_tokenAgain (s : State) (tok : Nat) :
    (s.tokenAgain tok).beside .ronpex = s.beside .ronpex := by
  unfold State.tokenAgain
  simp

@[simp] theorem State.beside_wakeWrite (s : State) (v : Nat) :
    (s.wakeWrite v).beside .ronpex = s.beside .ronpex := by
  unfold State.wakeWrite
  simp

@[simp] theorem State.beside_corePgOn (s : State) (d : Nat) :
    (s.corePgOn d).beside .ronpex = s.beside .ronpex := by
  unfold State.corePgOn
  simp

@[simp] theorem State.beside_powerGoodLost (s : State) (d : Nat) :
    (s.powerGoodLost d).beside .ronpex = s.beside .ronpex := by
  unfold State.powerGoodLost
  simp

@[simp] theorem State.beside_stackTrained (s : State) (d : Nat) :
    (s.stackTrained d).beside .ronpex = s.beside .ronpex := by
  unfold State.stackTrained
  simp

@[simp] theorem State.beside_pstFlush (s : State) :
    s.pstFlush.beside .ronpex = s.beside .ronpex := by
  unfold State.pstFlush
  simp

@[simp] theorem State.beside_supplyTrip (s : State) (volt charge : Nat) :
    (s.supplyTrip volt charge).beside .ronpex = s.beside .ronpex := by
  unfold State.supplyTrip
  simp

@[simp] theorem State.beside_logRestore (s : State) :
    s.logRestore.beside .ronpex = s.beside .ronpex := by
  unfold State.logRestore
  repeat' split
  all_goals simp

@[simp] theorem State.beside_packageReset (s : State) (powerUp tripped pin : Bool) (tripClear : Nat) :
    (s.packageReset powerUp tripped pin tripClear).beside .ronpex = s.beside .ronpex := by
  unfold State.packageReset
  simp

@[simp] theorem State.beside_pkgResetPin (s : State) :
    s.pkgResetPin.beside .ronpex = s.beside .ronpex := by
  unfold State.pkgResetPin
  simp

@[simp] theorem State.beside_thermTrip (s : State) :
    s.thermTrip.beside .ronpex = s.beside .ronpex := by
  unfold State.thermTrip
  simp

theorem State.beside_getD (p : Part) (o : Option State) (s : State) (h : ∀ t, o = some t → t.beside p = s.beside p) :
    (o.getD s).beside p = s.beside p := by
  cases o with
  | none => rfl
  | some t => exact h t rfl

@[simp] theorem State.beside_pkgStart (s : State) :
    s.pkgStart.beside .ronpex = s.beside .ronpex := by
  unfold State.pkgStart
  dsimp only
  split
  · rfl
  · split
    · simp
    · simp [State.beside_getD _ _ _ (State.beside_genAdvance _ _)]

@[simp] theorem State.beside_plocenReset (s : State) :
    s.plocenReset.beside .plocen = s.beside .plocen := by
  unfold State.plocenReset
  simp

@[simp] theorem State.beside_hubRestart (s : State) :
    s.hubRestart.beside .ronpex = s.beside .ronpex := by
  unfold State.hubRestart
  simp

@[simp] theorem State.beside_hubCtlWrite (s : State) (v : Nat) :
    (s.hubCtlWrite v).beside .ronpex = s.beside .ronpex := by
  unfold State.hubCtlWrite
  simp

@[simp] theorem State.beside_perst (s : State) :
    s.perst.beside .ronpex = s.beside .ronpex := by
  unfold State.perst
  simp

@[simp] theorem State.beside_parentLost (s : State) (p : Part) :
    (s.parentLost p).beside p = s.beside p := by
  unfold State.parentLost
  dsimp only
  repeat' split
  all_goals simp

@[simp] theorem State.beside_holdoverOver (s : State) (p : Part) :
    (s.holdoverOver p).beside p = s.beside p := by
  unfold State.holdoverOver
  cases p <;> simp

@[simp] theorem State.beside_timeSetWrite (s : State) (v : Nat) :
    (s.timeSetWrite v).beside .ronpex = s.beside .ronpex := by
  unfold State.timeSetWrite
  simp

@[simp] theorem State.beside_timCtlWrite (s : State) (v : Nat) :
    (s.timCtlWrite v).beside .ronpex = s.beside .ronpex := by
  unfold State.timCtlWrite
  simp

/-! ### Machine/Faults -/

@[simp] theorem State.beside_siteFault (s : State) (x : FaultSite) :
    (s.siteFault x).beside .ronpex = s.beside .ronpex := by
  unfold State.siteFault
  split <;> simp

@[simp] theorem State.beside_epochDue (s : State) (p : Part) :
    (s.epochDue p).beside p = s.beside p := by
  unfold State.epochDue
  repeat' split
  all_goals simp

@[simp] theorem State.beside_resetEnds (s : State) (r : Nat) :
    (s.resetEnds r).beside .ronpex = s.beside .ronpex := by
  unfold State.resetEnds
  simp

/-! ### Machine/MgmtOps -/

@[simp] theorem State.beside_fetchFailed (s : State) :
    s.fetchFailed.beside .ronpex = s.beside .ronpex := by
  unfold State.fetchFailed
  simp

@[simp] theorem State.beside_command (s : State) (c : Command) (op : Nat) (ok : Bool) (f : State → State)
    (h : ∀ t, (f t).beside .ronpex = t.beside .ronpex) :
    (s.command c op ok f).beside .ronpex = s.beside .ronpex := by
  unfold State.command
  simp [h]

@[simp] theorem State.beside_cmdWait (s : State) (w : CmdWait) :
    (s.cmdWait w).beside .ronpex = s.beside .ronpex := by
  unfold State.cmdWait
  simp

@[simp] theorem State.beside_slotWritten (s : State) (slot : Nat) :
    (s.slotWritten slot).beside .ronpex = s.beside .ronpex := by
  unfold State.slotWritten
  simp

@[simp] theorem State.beside_loadImage (s : State) (region slot : Nat) (words : List (Nat × Word)) :
    (s.loadImage region slot words).beside .ronpex = s.beside .ronpex := by
  unfold State.loadImage
  simp

@[simp] theorem State.beside_draftLoad (s : State) (p0 : Nat) (image : List (Nat × Word)) (dmaOk : Bool) :
    (s.draftLoad p0 image dmaOk).beside .ronpex = s.beside .ronpex := by
  unfold State.draftLoad
  simp

@[simp] theorem State.beside_skeinOrder (s : State) (p0 : Nat) :
    (s.skeinOrder p0).beside .ronpex = s.beside .ronpex := by
  unfold State.skeinOrder
  simp

@[simp] theorem State.beside_fenceCmd (s : State) (p0 : Nat) :
    (s.fenceCmd p0).beside .ronpex = s.beside .ronpex := by
  unfold State.fenceCmd
  split <;> simp

@[simp] theorem State.beside_returnCmd (s : State) (p0 : Nat) :
    (s.returnCmd p0).beside .ronpex = s.beside .ronpex := by
  unfold State.returnCmd
  split <;> simp

@[simp] theorem State.beside_resetCmd (s : State) (p0 : Nat) :
    (s.resetCmd p0).beside .ronpex = s.beside .ronpex := by
  unfold State.resetCmd
  simp

@[simp] theorem State.beside_epochCmd (s : State) (e : Nat) :
    (s.epochCmd e).beside .ronpex = s.beside .ronpex := by
  unfold State.epochCmd
  simp

@[simp] theorem State.beside_snapCmd (s : State) (number t : Nat) (args : List Byte) :
    (s.snapCmd number t args).beside .ronpex = s.beside .ronpex := by
  unfold State.snapCmd
  simp

@[simp] theorem State.beside_sendCmd (s : State) (dest len : Nat) (payload : List Byte) (dmaOk : Bool) :
    (s.sendCmd dest len payload dmaOk).beside .ronpex = s.beside .ronpex := by
  unfold State.sendCmd
  simp

@[simp] theorem State.beside_fwWriteCmd (s : State) (off len : Nat) (data : List Byte) (dmaOk : Bool) :
    (s.fwWriteCmd off len data dmaOk).beside .ronpex = s.beside .ronpex := by
  unfold State.fwWriteCmd
  simp

@[simp] theorem State.beside_fwVerifyCmd (s : State) :
    s.fwVerifyCmd.beside .ronpex = s.beside .ronpex := by
  unfold State.fwVerifyCmd
  simp

@[simp] theorem State.beside_fwActivateCmd (s : State) :
    s.fwActivateCmd.beside .ronpex = s.beside .ronpex := by
  unfold State.fwActivateCmd
  simp

@[simp] theorem State.beside_fwEraseCmd (s : State) :
    s.fwEraseCmd.beside .ronpex = s.beside .ronpex := by
  unfold State.fwEraseCmd
  simp

@[simp] theorem State.beside_cmdDoorbell (s : State) (t : Nat) :
    (s.cmdDoorbell t).beside .ronpex = s.beside .ronpex := by
  unfold State.cmdDoorbell
  simp

@[simp] theorem State.beside_evtDoorbell (s : State) (h : Nat) :
    (s.evtDoorbell h).beside .ronpex = s.beside .ronpex := by
  unfold State.evtDoorbell
  simp

@[simp] theorem State.beside_logDoorbell (s : State) (h : Nat) :
    (s.logDoorbell h).beside .ronpex = s.beside .ronpex := by
  unfold State.logDoorbell
  simp

@[simp] theorem State.beside_streamLog (s : State) :
    s.streamLog.beside .ronpex = s.beside .ronpex := by
  unfold State.streamLog
  dsimp only
  split <;> simp

@[simp] theorem State.beside_mgtRingStart (s : State) (a : Nat) :
    (s.mgtRingStart a).beside .ronpex = s.beside .ronpex := by
  unfold State.mgtRingStart
  simp

@[simp] theorem State.beside_ringCfgWrite (s : State) (a v : Nat) :
    (s.ringCfgWrite a v).beside .ronpex = s.beside .ronpex := by
  unfold State.ringCfgWrite
  simp

@[simp] theorem State.beside_trayNeighbour (s : State) (port ftype : Nat) (body : List Byte) :
    (s.trayNeighbour port ftype body).beside .ronpex = s.beside .ronpex := by
  unfold State.trayNeighbour
  simp

@[simp] theorem State.beside_traySync (s : State) (port : Nat) :
    (s.traySync port).beside .ronpex = s.beside .ronpex := by
  unfold State.traySync
  simp

@[simp] theorem State.beside_trayTime (s : State) (port fseq : Nat) (b : List Byte) :
    (s.trayTime port fseq b).beside .ronpex = s.beside .ronpex := by
  unfold State.trayTime
  simp

@[simp] theorem State.beside_trayAct (s : State) (port : Nat) (f : TrayFrame) :
    (s.trayAct port f).beside .ronpex = s.beside .ronpex := by
  unfold State.trayAct
  split <;> simp

@[simp] theorem State.beside_trayIn (s : State) (port : Nat) (f : TrayFrame) :
    (s.trayIn port f).beside .ronpex = s.beside .ronpex := by
  unfold State.trayIn
  simp

@[simp] theorem State.beside_trayLink (s : State) (port : Nat) (up : Bool) :
    (s.trayLink port up).beside .ronpex = s.beside .ronpex := by
  unfold State.trayLink
  simp

@[simp] theorem State.beside_pstPersist (s : State) :
    s.pstPersist.beside .ronpex = s.beside .ronpex := by
  unfold State.pstPersist
  split <;> simp

@[simp] theorem State.beside_pstWrite (s : State) (a v : Nat) (wr : Writer) :
    (s.pstWrite a v wr).beside .ronpex = s.beside .ronpex := by
  unfold State.pstWrite
  repeat' split
  all_goals simp

/-! ### Machine/Rings -/

@[simp] theorem State.beside_sqStore (s : State) (n t : Nat) :
    (s.sqStore n t).beside .plocen = s.beside .plocen := by
  unfold State.sqStore
  simp

@[simp] theorem State.beside_cqStore (s : State) (n h : Nat) :
    (s.cqStore n h).beside .plocen = s.beside .plocen := by
  unfold State.cqStore
  simp

@[simp] theorem State.beside_armStore (s : State) (n v : Nat) :
    (s.armStore n v).beside .plocen = s.beside .plocen := by
  unfold State.armStore
  simp

@[simp] theorem State.beside_bindJoin (s : State) (n sub raw : Nat) :
    (s.bindJoin n sub raw).beside .plocen = s.beside .plocen := by
  unfold State.bindJoin
  dsimp only
  split <;> simp

@[simp] theorem State.beside_beginDesc (s : State) (n sub raw : Nat) :
    (s.beginDesc n sub raw).beside .plocen = s.beside .plocen := by
  unfold State.beginDesc
  dsimp only
  split <;> simp

@[simp] theorem State.beside_startNext (s : State) (n : Nat) :
    (s.startNext n).beside .plocen = s.beside .plocen := by
  unfold State.startNext
  split <;> simp

@[simp] theorem State.beside_startFront (s : State) (n opc : Nat) :
    (s.startFront n opc).beside .plocen = s.beside .plocen := by
  unfold State.startFront
  simp

@[simp] theorem State.beside_unpark (s : State) (n sub : Nat) :
    (s.unpark n sub).beside .plocen = s.beside .plocen := by
  unfold State.unpark
  simp

@[simp] theorem State.beside_gateOpen (s : State) (n sub : Nat) :
    (s.gateOpen n sub).beside .plocen = s.beside .plocen := by
  unfold State.gateOpen
  split <;> simp

@[simp] theorem State.beside_waitOver (s : State) (n sub : Nat) :
    (s.waitOver n sub).beside .plocen = s.beside .plocen := by
  unfold State.waitOver
  split <;> simp

@[simp] theorem State.beside_serveStart (s : State) (n : Nat) :
    (s.serveStart n).beside .plocen = s.beside .plocen := by
  unfold State.serveStart
  split <;> simp

@[simp] theorem State.beside_refill (s : State) (n : Nat) :
    (s.refill n).beside .plocen = s.beside .plocen := by
  unfold State.refill
  simp

@[simp] theorem State.beside_setLast (s : State) (cls n : Nat) :
    (s.setLast cls n).beside .plocen = s.beside .plocen := by
  unfold State.setLast
  simp

theorem State.beside_drrPick (n : Nat) (s : State) (x : Nat) (y : List Nat) :
    ∀ r t, s.drrPick n x y = some (r, t) → t.beside .plocen = s.beside .plocen := by
  induction n generalizing s y with
  | zero => simp [State.drrPick]
  | succ n ih =>
    intro r t ht
    cases y with
    | nil => simp [State.drrPick] at ht
    | cons q rest =>
      rw [State.drrPick] at ht
      split at ht
      · cases ht
        rfl
      · simpa using ih _ _ r t ht

@[simp] theorem State.beside_takeBurst (s : State) (k cls r : Nat) :
    (s.takeBurst k cls r).beside .plocen = s.beside .plocen := by
  unfold State.takeBurst
  split <;> simp

@[simp] theorem State.beside_serveRing (s : State) (k : Nat) :
    (s.serveRing k).beside .plocen = s.beside .plocen := by
  unfold State.serveRing
  dsimp only
  split
  · rfl
  · next r t h =>
    have hpick : t.beside .plocen = s.beside .plocen := State.beside_drrPick _ _ _ _ _ _ h
    simp [hpick]

@[simp] theorem State.beside_schedule (s : State) (k : Nat) :
    (s.schedule k).beside .plocen = s.beside .plocen := by
  unfold State.schedule
  split <;> simp

@[simp] theorem State.beside_ringStart (s : State) (n : Nat) :
    (s.ringStart n).beside .plocen = s.beside .plocen := by
  unfold State.ringStart
  simp

@[simp] theorem State.beside_ringStop (s : State) (n : Nat) :
    (s.ringStop n).beside .plocen = s.beside .plocen := by
  unfold State.ringStop
  simp

@[simp] theorem State.beside_ringCfg (s : State) (n v : Nat) :
    (s.ringCfg n v).beside .plocen = s.beside .plocen := by
  unfold State.ringCfg
  simp

@[simp] theorem State.beside_ringDrained (s : State) (n : Nat) :
    (s.ringDrained n).beside .plocen = s.beside .plocen := by
  unfold State.ringDrained
  simp

/-! ### Machine/Translate -/

@[simp] theorem State.beside_fetchFillsFrom (n : Nat) (s : State) :
    (s.fetchFillsFrom n).beside .plocen = s.beside .plocen := by
  induction n generalizing s with
  | zero => rfl
  | succ n ih =>
    unfold State.fetchFillsFrom
    repeat' (first | split | dsimp only)
    all_goals simp [ih]

@[simp] theorem State.beside_fetchFills (s : State) :
    s.fetchFills.beside .plocen = s.beside .plocen := by
  unfold State.fetchFills
  simp

@[simp] theorem State.beside_xltError (s : State) (code : Nat) :
    (s.xltError code).beside .plocen = s.beside .plocen := by
  unfold State.xltError
  simp

@[simp] theorem State.beside_dropFill (s : State) :
    s.dropFill.beside .plocen = s.beside .plocen := by
  unfold State.dropFill
  simp

@[simp] theorem State.beside_rejectFill (s : State) (count : Nat) (f : Fill) (reason : Nat) :
    (s.rejectFill count f reason).beside .plocen = s.beside .plocen := by
  unfold State.rejectFill
  simp

@[simp] theorem State.beside_settleFillsFrom (n : Nat) (s : State) :
    (s.settleFillsFrom n).beside .plocen = s.beside .plocen := by
  induction n generalizing s with
  | zero => rfl
  | succ n ih =>
    unfold State.settleFillsFrom
    repeat' (first | split | dsimp only)
    all_goals simp [ih]

@[simp] theorem State.beside_settleFills (s : State) :
    s.settleFills.beside .plocen = s.beside .plocen := by
  unfold State.settleFills
  simp

@[simp] theorem State.beside_takeFills (n : Nat) (s : State) :
    (s.takeFills n).beside .plocen = s.beside .plocen := by
  induction n generalizing s with
  | zero => rfl
  | succ n ih =>
    unfold State.takeFills
    repeat' (first | split | dsimp only)
    all_goals simp [ih]

@[simp] theorem State.beside_fillFetched (s : State) (first m : Nat) (data : List Byte) (ok : Bool) :
    (s.fillFetched first m data ok).beside .plocen = s.beside .plocen := by
  unfold State.fillFetched
  simp

@[simp] theorem State.beside_fillStore (s : State) (t : Nat) :
    (s.fillStore t).beside .plocen = s.beside .plocen := by
  unfold State.fillStore
  simp

@[simp] theorem State.beside_missStore (s : State) (h : Nat) :
    (s.missStore h).beside .plocen = s.beside .plocen := by
  unfold State.missStore
  simp

@[simp] theorem State.beside_xltArmStore (s : State) (v : Nat) :
    (s.xltArmStore v).beside .plocen = s.beside .plocen := by
  unfold State.xltArmStore
  simp

@[simp] theorem State.beside_doFillOut (s : State) (c : Nat) (f : Fill) :
    (s.doFillOut c f).beside .plocen = s.beside .plocen := by
  unfold State.doFillOut
  simp

@[simp] theorem State.beside_doFillIn (s : State) (c : Nat) (f : Fill) :
    (s.doFillIn c f).beside .plocen = s.beside .plocen := by
  unfold State.doFillIn
  simp

@[simp] theorem State.beside_doFillFault (s : State) (c : Nat) (f : Fill) :
    (s.doFillFault c f).beside .plocen = s.beside .plocen := by
  unfold State.doFillFault
  split <;> simp

@[simp] theorem State.beside_addDrain (s : State) (c : Nat) (f : Fill) :
    (s.addDrain c f).beside .plocen = s.beside .plocen := by
  unfold State.addDrain
  simp

@[simp] theorem State.beside_doInvTag (s : State) (c : Nat) (f : Fill) :
    (s.doInvTag c f).beside .plocen = s.beside .plocen := by
  unfold State.doInvTag
  simp

@[simp] theorem State.beside_invDone (s : State) :
    s.invDone.beside .plocen = s.beside .plocen := by
  unfold State.invDone
  split <;> simp

@[simp] theorem State.beside_doInvRange (s : State) (c w : Nat) (f : Fill) :
    (s.doInvRange c w f).beside .plocen = s.beside .plocen := by
  unfold State.doInvRange
  simp

@[simp] theorem State.beside_microAck (s : State) (m : Nat) :
    (s.microAck m).beside .plocen = s.beside .plocen := by
  unfold State.microAck
  split <;> simp

@[simp] theorem State.beside_drainedNow (s : State) (tag : Nat) :
    (s.drainedNow tag).beside .plocen = s.beside .plocen := by
  unfold State.drainedNow
  split <;> simp

@[simp] theorem State.beside_doRemoveIn (s : State) (c : Nat) (f : Fill) :
    (s.doRemoveIn c f).beside .plocen = s.beside .plocen := by
  unfold State.doRemoveIn
  simp

@[simp] theorem State.beside_inRemovedNow (s : State) :
    s.inRemovedNow.beside .plocen = s.beside .plocen := by
  unfold State.inRemovedNow
  split <;> simp

@[simp] theorem State.beside_doFill (s : State) (op : Nat) :
    (s.doFill op).beside .plocen = s.beside .plocen := by
  unfold State.doFill
  repeat' split
  all_goals simp

@[simp] theorem State.beside_xltStart (s : State) :
    s.xltStart.beside .plocen = s.beside .plocen := by
  unfold State.xltStart
  simp

@[simp] theorem State.beside_xltStop (s : State) :
    s.xltStop.beside .plocen = s.beside .plocen := by
  unfold State.xltStop
  simp

@[simp] theorem State.beside_xltCtl (s : State) (v : Nat) :
    (s.xltCtl v).beside .plocen = s.beside .plocen := by
  unfold State.xltCtl
  simp

@[simp] theorem State.beside_missTimeout (s : State) (id : Nat) :
    (s.missTimeout id).beside .plocen = s.beside .plocen := by
  unfold State.missTimeout
  split <;> simp

/-! ### Machine/RegWrite -/

@[simp] theorem State.beside_plainRp (s : State) (a v : Nat) :
    (s.plainRp a v).beside .ronpex = s.beside .ronpex := by
  unfold State.plainRp
  split <;> simp

@[simp] theorem State.beside_plainEp (s : State) (a v : Nat) :
    (s.plainEp a v).beside .plocen = s.beside .plocen := by
  unfold State.plainEp
  split <;> simp

@[simp] theorem State.beside_budWrite (s : State) (k a v : Nat) :
    (s.budWrite k a v).beside .ronpex = s.beside .ronpex := by
  unfold State.budWrite
  simp

@[simp] theorem State.beside_sealWrite (s : State) (a v : Nat) :
    (s.sealWrite a v).beside .ronpex = s.beside .ronpex := by
  unfold State.sealWrite
  simp

@[simp] theorem State.beside_msixWrite (s : State) (a v : Nat) :
    (s.msixWrite a v).beside .ronpex = s.beside .ronpex := by
  unfold State.msixWrite
  simp

@[simp] theorem State.beside_winWrite (s : State) (i v : Nat) :
    (s.winWrite i v).beside .ronpex = s.beside .ronpex := by
  unfold State.winWrite
  simp

@[simp] theorem State.beside_hubArray (s : State) (a v : Nat) (wr : Writer) :
    (s.hubArray a v wr).beside .ronpex = s.beside .ronpex := by
  unfold State.hubArray
  repeat' split
  all_goals simp

@[simp] theorem State.beside_hubWrite (s : State) (a v : Nat) (wr : Writer) :
    (s.hubWrite a v wr).beside .ronpex = s.beside .ronpex := by
  unfold State.hubWrite
  simp
  intros
  split
  · rfl
  · split <;> simp

@[simp] theorem State.beside_rpEffect (s : State) (a v : Nat) (wr : Writer) :
    (s.rpEffect a v wr).beside .ronpex = s.beside .ronpex := by
  unfold State.rpEffect
  split <;> simp

@[simp] theorem State.beside_rpWord (s : State) (a v : Nat) (wr : Writer) :
    (s.rpWord a v wr).beside .ronpex = s.beside .ronpex := by
  unfold State.rpWord
  simp

@[simp] theorem State.beside_epEffect (s : State) (a v : Nat) :
    (s.epEffect a v).beside .plocen = s.beside .plocen := by
  unfold State.epEffect
  dsimp only
  cases arrayIndex 0x61000 0x100 8 a
  · simp
  · simp

@[simp] theorem State.beside_epWord (s : State) (a v : Nat) (wr : Writer) :
    (s.epWord a v wr).beside .plocen = s.beside .plocen := by
  unfold State.epWord
  simp

@[simp] theorem State.beside_rpStore (s : State) (a n v : Nat) (wr : Writer) :
    (s.rpStore a n v wr).beside .ronpex = s.beside .ronpex := by
  unfold State.rpStore
  simp

@[simp] theorem State.beside_epStore (s : State) (a n v : Nat) (wr : Writer) :
    (s.epStore a n v wr).beside .plocen = s.beside .plocen := by
  unfold State.epStore
  simp

/-! ### Machine/AttachOps -/

@[simp] theorem State.beside_accessDone (s : State) (u : AttUse) (sentAt : Nat) (data : List Byte) (ok : Bool) :
    (s.accessDone u sentAt data ok).beside .plocen = s.beside .plocen := by
  unfold State.accessDone
  split <;> simp

@[simp] theorem State.beside_accessOver (s : State) (x : AttTag) (data : List Byte) (ok : Bool) :
    (s.accessOver x data ok).beside .plocen = s.beside .plocen := by
  unfold State.accessOver
  simp

@[simp] theorem State.beside_attPump (s : State) :
    s.attPump.beside .plocen = s.beside .plocen := by
  unfold State.attPump
  simp

@[simp] theorem State.beside_dropTag (s : State) (tag : Nat) :
    (s.dropTag tag).beside .plocen = s.beside .plocen := by
  unfold State.dropTag
  simp

@[simp] theorem State.beside_setTag (s : State) (tag : Nat) (x : AttTag) :
    (s.setTag tag x).beside .plocen = s.beside .plocen := by
  unfold State.setTag
  simp

@[simp] theorem State.beside_cplTaken (s : State) (k : Nat) :
    (s.cplTaken k).beside .plocen = s.beside .plocen := by
  unfold State.cplTaken
  simp

@[simp] theorem State.beside_cplIn (s : State) (t : Txn) :
    (s.cplIn t).beside .plocen = s.beside .plocen := by
  unfold State.cplIn
  dsimp only
  split <;> simp

@[simp] theorem State.beside_cpldIn (s : State) (t : Txn) :
    (s.cpldIn t).beside .plocen = s.beside .plocen := by
  unfold State.cpldIn
  dsimp only
  split <;> simp

@[simp] theorem State.beside_accTimeout (s : State) (tag : Nat) :
    (s.accTimeout tag).beside .plocen = s.beside .plocen := by
  unfold State.accTimeout
  split <;> simp

@[simp] theorem State.beside_attDown (s : State) :
    s.attDown.beside .plocen = s.beside .plocen := by
  unfold State.attDown
  simp

@[simp] theorem State.beside_windowLoad (s : State) (t : Txn) (at_ : Nat) :
    (s.windowLoad t at_).beside .plocen = s.beside .plocen := by
  unfold State.windowLoad
  split <;> simp

@[simp] theorem State.beside_windowStore (s : State) (t : Txn) :
    (s.windowStore t).beside .plocen = s.beside .plocen := by
  unfold State.windowStore
  split <;> simp

@[simp] theorem State.beside_fenceLoad (s : State) (t : Txn) (at_ : Nat) :
    (s.fenceLoad t at_).beside .plocen = s.beside .plocen := by
  unfold State.fenceLoad
  simp

@[simp] theorem State.beside_registerLoad (s : State) (t : Txn) (at_ : Nat) :
    (s.registerLoad t at_).beside .plocen = s.beside .plocen := by
  unfold State.registerLoad
  simp

@[simp] theorem State.beside_a2pServe (s : State) (t : Txn) (at_ : Nat) :
    (s.a2pServe t at_).beside .plocen = s.beside .plocen := by
  unfold State.a2pServe
  simp

@[simp] theorem State.beside_a2pRun (n : Nat) (s : State) :
    (s.a2pRun n).beside .plocen = s.beside .plocen := by
  induction n generalizing s with
  | zero => rfl
  | succ n ih =>
    unfold State.a2pRun
    repeat' (first | split | dsimp only)
    all_goals simp [ih]

@[simp] theorem State.beside_a2pGo (s : State) :
    s.a2pGo.beside .plocen = s.beside .plocen := by
  unfold State.a2pGo
  simp

@[simp] theorem State.beside_malformed (s : State) (h : BitVec 128) (t : Txn) (vc : Option Nat) (credit : Bool) :
    (s.malformed h t vc credit).beside .plocen = s.beside .plocen := by
  unfold State.malformed
  simp

@[simp] theorem State.beside_requestIn (s : State) (h : BitVec 128) (t : Txn) :
    (s.requestIn h t).beside .plocen = s.beside .plocen := by
  unfold State.requestIn
  simp

@[simp] theorem State.beside_txnIn (s : State) (h : BitVec 128) (t : Txn) :
    (s.txnIn h t).beside .plocen = s.beside .plocen := by
  unfold State.txnIn
  simp

@[simp] theorem State.beside_txnArrives (s : State) (t : Txn) :
    (s.txnArrives t).beside .plocen = s.beside .plocen := by
  unfold State.txnArrives
  simp

@[simp] theorem State.beside_loadTimeout (s : State) (rid tag : Nat) :
    (s.loadTimeout rid tag).beside .plocen = s.beside .plocen := by
  unfold State.loadTimeout
  dsimp only
  repeat' split
  all_goals simp

@[simp] theorem State.beside_takeChunks (n : Nat) (s : State) :
    (s.takeChunks n).beside .plocen = s.beside .plocen := by
  induction n generalizing s with
  | zero => rfl
  | succ n ih =>
    unfold State.takeChunks
    repeat' (first | split | dsimp only)
    all_goals simp [ih]

@[simp] theorem State.beside_flitTotals (s : State) (f : Flit) :
    (s.flitTotals f).beside .plocen = s.beside .plocen := by
  unfold State.flitTotals
  simp

@[simp] theorem State.beside_sendNak (s : State) :
    s.sendNak.beside .plocen = s.beside .plocen := by
  unfold State.sendNak
  simp

@[simp] theorem State.beside_flitBad (s : State) :
    s.flitBad.beside .plocen = s.beside .plocen := by
  unfold State.flitBad
  simp

@[simp] theorem State.beside_resendHeld (s : State) (l : List (Nat × List (BitVec 128))) :
    (s.resendHeld l).beside .plocen = s.beside .plocen := by
  unfold State.resendHeld
  simp

@[simp] theorem State.beside_nakIn (s : State) (seq : Nat) :
    (s.nakIn seq).beside .plocen = s.beside .plocen := by
  unfold State.nakIn
  simp

@[simp] theorem State.beside_initIn (s : State) (p : InitParams) :
    (s.initIn p).beside .plocen = s.beside .plocen := by
  unfold State.initIn
  simp

@[simp] theorem State.beside_initAckIn (s : State) :
    s.initAckIn.beside .plocen = s.beside .plocen := by
  unfold State.initAckIn
  simp

@[simp] theorem State.beside_controlTaken (s : State) (f : Flit) (act : State → State)
    (h : ∀ t, (act t).beside .plocen = t.beside .plocen) :
    (s.controlTaken f act).beside .plocen = s.beside .plocen := by
  unfold State.controlTaken
  simp [h]

@[simp] theorem State.beside_controlIn (s : State) (f : Flit) :
    (s.controlIn f).beside .plocen = s.beside .plocen := by
  unfold State.controlIn
  simp

@[simp] theorem State.beside_flitIn (s : State) (f : Flit) :
    (s.flitIn f).beside .plocen = s.beside .plocen := by
  unfold State.flitIn
  simp

@[simp] theorem State.beside_retrain (s : State) :
    s.retrain.beside .plocen = s.beside .plocen := by
  unfold State.retrain
  simp

@[simp] theorem State.beside_retrainOver (s : State) :
    s.retrainOver.beside .plocen = s.beside .plocen := by
  unfold State.retrainOver
  split <;> simp

@[simp] theorem State.beside_moduleTrained (s : State) (m rate : Nat) :
    (s.moduleTrained m rate).beside .plocen = s.beside .plocen := by
  unfold State.moduleTrained
  dsimp only
  repeat' split
  all_goals simp

@[simp] theorem State.beside_sendInit (s : State) :
    s.sendInit.beside .plocen = s.beside .plocen := by
  unfold State.sendInit
  simp

@[simp] theorem State.beside_exchangeDone (s : State) (version : Nat) (fit4 : Bool) :
    (s.exchangeDone version fit4).beside .plocen = s.beside .plocen := by
  unfold State.exchangeDone
  repeat' split
  all_goals simp

@[simp] theorem State.beside_initAgain (s : State) :
    s.initAgain.beside .plocen = s.beside .plocen := by
  unfold State.initAgain
  simp

/-! ### Machine/Mgmt -/

@[simp] theorem State.beside_tenantWord (s : State) (k a : Nat) (write : Bool) (v : Nat) :
    (s.tenantWord k a write v).1.beside .ronpex = s.beside .ronpex := by
  unfold State.tenantWord
  repeat' split
  all_goals simp

@[simp] theorem State.beside_tenantWords (n : Nat) (s : State) (x y : Nat) (z : Bool) (w : List Byte) :
    (s.tenantWords n x y z w).1.beside .ronpex = s.beside .ronpex := by
  induction n generalizing s x y z w with
  | zero => rfl
  | succ n ih =>
    unfold State.tenantWords
    split
    · rfl
    · simp [ih]

@[simp] theorem State.beside_tenantRun (s : State) (c : Command) :
    (s.tenantRun c).beside .ronpex = s.beside .ronpex := by
  unfold State.tenantRun
  simp

@[simp] theorem State.beside_tenantAgain (s : State) :
    s.tenantAgain.beside .ronpex = s.beside .ronpex := by
  unfold State.tenantAgain
  split <;> simp

/-! ### Machine/Skein -/

@[simp] theorem State.beside_skeinCmd (s : State) (v : Nat) (wr : Writer) :
    (s.skeinCmd v wr).beside .ronpex = s.beside .ronpex := by
  unfold State.skeinCmd
  simp

/-! ### Machine/SwitchOps -/

@[simp] theorem State.beside_setEddy (s : State) (p : Nat) (l : List EddyEnt) :
    (s.setEddy p l).beside .ronpex = s.beside .ronpex := by
  unfold State.setEddy
  simp

@[simp] theorem State.beside_settleEddy (s : State) (p : Nat) (l : List EddyEnt) :
    (s.settleEddy p l).beside .ronpex = s.beside .ronpex := by
  unfold State.settleEddy
  simp

@[simp] theorem State.beside_abandonOutput (s : State) (p : Nat) (l : List EddyEnt) :
    (s.abandonOutput p l).beside .ronpex = s.beside .ronpex := by
  unfold State.abandonOutput
  rw [State.beside_foldl _ _ fun t x => ?_]
  · simp
  · split <;> simp

@[simp] theorem State.beside_anaCopy (s : State) (p : Nat) (entering : Bool) (c : Container) :
    (s.anaCopy p entering c).beside .ronpex = s.beside .ronpex := by
  unfold State.anaCopy
  simp

@[simp] theorem State.beside_anaSlot (s : State) (p : Nat) :
    (s.anaSlot p).beside .ronpex = s.beside .ronpex := by
  unfold State.anaSlot
  repeat' split
  all_goals simp

@[simp] theorem State.beside_rpWeftSlot (s : State) (p : Nat) (l : List EddyEnt) :
    (s.rpWeftSlot p l).beside .ronpex = s.beside .ronpex := by
  unfold State.rpWeftSlot
  dsimp only
  repeat' split
  all_goals simp

@[simp] theorem State.beside_rpWarpSlot (s : State) (p : Nat) (l : List EddyEnt) :
    (s.rpWarpSlot p l).beside .ronpex = s.beside .ronpex := by
  unfold State.rpWarpSlot
  dsimp only
  split <;> simp

@[simp] theorem State.beside_rpPortSlot (s : State) (p : Nat) (l : List EddyEnt) :
    (s.rpPortSlot p l).beside .ronpex = s.beside .ronpex := by
  unfold State.rpPortSlot
  repeat' split
  all_goals simp

@[simp] theorem State.beside_rpSlots (s : State) :
    s.rpSlots.beside .ronpex = s.beside .ronpex := by
  unfold State.rpSlots
  simp

@[simp] theorem State.beside_setTxq (s : State) (p : Nat) (q : TxQ) :
    (s.setTxq p q).beside .plocen = s.beside .plocen := by
  unfold State.setTxq
  simp

@[simp] theorem State.beside_epRequestOut (s : State) (p id : Nat) (c : Container) (q : TxQ) :
    (s.epRequestOut p id c q).beside .plocen = s.beside .plocen := by
  unfold State.epRequestOut
  simp

@[simp] theorem State.beside_epWeftSend (s : State) (p : Nat) :
    (s.epWeftSend p).beside .plocen = s.beside .plocen := by
  unfold State.epWeftSend
  dsimp only
  repeat' split
  all_goals simp

@[simp] theorem State.beside_epPortSlot (s : State) (p : Nat) :
    (s.epPortSlot p).beside .plocen = s.beside .plocen := by
  unfold State.epPortSlot
  dsimp only
  repeat' split
  all_goals simp

@[simp] theorem State.beside_fillIn (s : State) (p : Part) (port : Nat) :
    (s.fillIn p port).beside p = s.beside p := by
  unfold State.fillIn
  simp

@[simp] theorem State.beside_localIn (s : State) (p : Nat) (c : Container) :
    (s.localIn p c).beside .ronpex = s.beside .ronpex := by
  unfold State.localIn
  simp

@[simp] theorem State.beside_homeIn (s : State) :
    s.homeIn.beside .ronpex = s.beside .ronpex := by
  unfold State.homeIn
  simp

@[simp] theorem State.beside_eddyExpire (s : State) (p : Nat) :
    (s.eddyExpire p).beside .ronpex = s.beside .ronpex := by
  unfold State.eddyExpire
  simp

@[simp] theorem State.beside_police (s : State) (p : Nat) (c : Container) :
    (s.police p c).2.beside .ronpex = s.beside .ronpex := by
  unfold State.police
  split <;> simp

@[simp] theorem State.beside_routeIn (s : State) (p : Nat) (c : Container) :
    (s.routeIn p c).beside .ronpex = s.beside .ronpex := by
  unfold State.routeIn
  dsimp only
  split <;> simp

@[simp] theorem State.beside_weftIn (s : State) (p : Nat) (c : Container) :
    (s.weftIn p c).beside .ronpex = s.beside .ronpex := by
  unfold State.weftIn
  simp

@[simp] theorem State.beside_rpContainerIn (s : State) (p : Nat) (c : Container) :
    (s.rpContainerIn p c).beside .ronpex = s.beside .ronpex := by
  unfold State.rpContainerIn
  dsimp only
  repeat' split
  all_goals simp

@[simp] theorem State.beside_portFrame (s : State) (p : Part) (port : Nat) :
    (s.portFrame p port).beside p = s.beside p := by
  unfold State.portFrame
  simp

@[simp] theorem State.beside_loadBudgets (s : State) :
    s.loadBudgets.beside .ronpex = s.beside .ronpex := by
  unfold State.loadBudgets
  simp

@[simp] theorem State.beside_timeStep (s : State) :
    s.timeStep.beside .ronpex = s.beside .ronpex := by
  unfold State.timeStep
  split <;> simp

@[simp] theorem State.beside_powerKeep (s : State) :
    s.powerKeep.beside .ronpex = s.beside .ronpex := by
  unfold State.powerKeep
  simp

/-! ### Machine/Weft -/

@[simp] theorem State.beside_reachable (s : State) (dest plane : Nat) :
    (s.reachable dest plane).beside .plocen = s.beside .plocen := by
  unfold State.reachable
  simp

@[simp] theorem State.beside_epContainerIn (s : State) (p : Nat) (c : Container) :
    (s.epContainerIn p c).beside .plocen = s.beside .plocen := by
  unfold State.epContainerIn
  simp

end Sys2Proof.Machine
end

section
/-! What an operation that keeps the other part, fabric time, the queue and memory leaves, in the words of the statements. -/

namespace Sys2Proof.Machine

open Sys2Proof Sys2Proof.Claims

theorem State.ep_of_beside {s t : State} (h : t.beside .ronpex = s.beside .ronpex) : t.ep = s.ep := Sum.inr.inj h

theorem State.rp_of_beside {s t : State} (h : t.beside .plocen = s.beside .plocen) : t.rp = s.rp := Sum.inl.inj h

theorem onlyRonpex_of {s t : State} (hb : t.beside .ronpex = s.beside .ronpex) (hk : t.kept = s.kept) : onlyRonpex s t := by
  simp only [State.kept, Prod.mk.injEq] at hk
  obtain ⟨hnow, hpending, hhbm, -⟩ := hk
  exact ⟨State.ep_of_beside hb, hhbm, hnow, hpending⟩

theorem onlyPlocen_of {s t : State} (hb : t.beside .plocen = s.beside .plocen) (hk : t.kept = s.kept) : onlyPlocen s t := by
  simp only [State.kept, Prod.mk.injEq] at hk
  obtain ⟨hnow, hpending, hhbm, -⟩ := hk
  exact ⟨State.rp_of_beside hb, hhbm, hnow, hpending⟩

theorem onlyPart_of {p : Part} {s t : State} (hb : t.beside p = s.beside p) (hk : t.kept = s.kept) : onlyPart p s t := by
  cases p
  · exact onlyRonpex_of hb hk
  · exact onlyPlocen_of hb hk

end Sys2Proof.Machine
end

section
/-! What leaves the links of the Ronpex as they are: every operation of the Ronpex that is not of a link. One lemma for each, in the order
and under the names of the model's files. -/

namespace Sys2Proof.Machine

open Sys2Proof Sys2Proof.Claims

/-- The links of the Ronpex. -/
def State.rpLinks (s : State) : SMap Link := s.rp.links

@[simp] theorem State.rp_links (s : State) : s.rp.links = s.rpLinks := by rw [State.rpLinks]

@[simp] theorem State.rpLinks_mk (n f : Nat) (l : List Instr) (o : List Out) (m : SMap Byte) (r : Ronpex) (e : Plocen) :
    State.rpLinks { now := n, free := f, pending := l, out := o, hbm := m, rp := r, ep := e } = r.links := by rw [State.rpLinks]

@[simp] theorem Ronpex.setReg_links (r : Ronpex) (a v : Nat) : (r.setReg a v).links = r.links := by rw [Ronpex.setReg]

@[simp] theorem State.rpLinks_ite (c : Prop) [Decidable c] (a b : State) :
    (if c then a else b).rpLinks = if c then a.rpLinks else b.rpLinks := by
  split <;> rfl

@[simp] theorem State.rpLinks_foldl {α : Type} (g : State → α → State) (h : ∀ t x, (g t x).rpLinks = t.rpLinks) (l : List α)
    (s : State) : (l.foldl g s).rpLinks = s.rpLinks := by
  induction l generalizing s with
  | nil => rfl
  | cons x r ih => rw [List.foldl_cons, ih, h]

theorem State.rpLinks_getD (o : Option State) (s : State) (h : ∀ t, o = some t → t.rpLinks = s.rpLinks) :
    (o.getD s).rpLinks = s.rpLinks := by
  cases o with
  | none => rfl
  | some t => exact h t rfl

/-! ### Machine/Ops -/

@[simp] theorem State.rpLinks_setReg (s : State) (a v : Nat) :
    (s.setReg .ronpex a v).rpLinks = s.rpLinks := by
  unfold State.setReg
  simp

@[simp] theorem State.rpLinks_setFld (s : State) (a lo len v : Nat) :
    (s.setFld .ronpex a lo len v).rpLinks = s.rpLinks := by
  unfold State.setFld
  simp

@[simp] theorem State.rpLinks_satFld (s : State) (a lo len n : Nat) :
    (s.satFld .ronpex a lo len n).rpLinks = s.rpLinks := by
  unfold State.satFld
  simp

@[simp] theorem State.rpLinks_setFlag (s : State) (a i : Nat) (b : Bool) :
    (s.setFlag .ronpex a i b).rpLinks = s.rpLinks := by
  unfold State.setFlag
  simp

@[simp] theorem State.rpLinks_addPair (s : State) (lo hi n : Nat) :
    (s.addPair .ronpex lo hi n).rpLinks = s.rpLinks := by
  unfold State.addPair
  simp

@[simp] theorem State.rpLinks_setSec (s : State) (x : Security) :
    (s.setSec .ronpex x).rpLinks = s.rpLinks := by
  unfold State.setSec
  simp

@[simp] theorem State.rpLinks_setTimeSt (s : State) (t : TimeSt) :
    (s.setTimeSt .ronpex t).rpLinks = s.rpLinks := by
  unfold State.setTimeSt
  simp

@[simp] theorem State.rpLinks_setOrders (s : State) (o : Orders) :
    (s.setOrders .ronpex o).rpLinks = s.rpLinks := by
  unfold State.setOrders
  simp

@[simp] theorem State.rpLinks_setSource (s : State) (x : Source) :
    (s.setSource .ronpex x).rpLinks = s.rpLinks := by
  unfold State.setSource
  simp

@[simp] theorem State.rpLinks_setDest (s : State) (x : Dest) :
    (s.setDest .ronpex x).rpLinks = s.rpLinks := by
  unfold State.setDest
  simp

@[simp] theorem State.rpLinks_hbmWrite (s : State) (a : Nat) (d : List Byte) :
    (s.hbmWrite a d).rpLinks = s.rpLinks := by
  unfold State.hbmWrite
  simp

@[simp] theorem State.rpLinks_hbmZero (s : State) (a n : Nat) :
    (s.hbmZero a n).rpLinks = s.rpLinks := by
  unfold State.hbmZero
  simp

@[simp] theorem State.rpLinks_draw (s : State) :
    s.draw.2.rpLinks = s.rpLinks := by
  unfold State.draw
  simp

@[simp] theorem State.rpLinks_emit (s : State) (o : Out) :
    (s.emit o).rpLinks = s.rpLinks := by
  unfold State.emit
  simp

@[simp] theorem State.rpLinks_msix (s : State) (v : Nat) :
    (s.msix v).rpLinks = s.rpLinks := by
  unfold State.msix
  simp

@[simp] theorem State.rpLinks_rpLog (s : State) (b : LogBody) :
    (s.rpLog b).rpLinks = s.rpLinks := by
  unfold State.rpLog
  simp

@[simp] theorem State.rpLinks_rpCond (s : State) (code origin requester port skein addr old new : Nat) :
    (s.rpCond code origin requester port skein addr old new).rpLinks = s.rpLinks := by
  unfold State.rpCond
  simp

@[simp] theorem State.rpLinks_evtWrite (s : State) (e : Event) :
    (s.evtWrite e).rpLinks = s.rpLinks := by
  unfold State.evtWrite
  simp

@[simp] theorem State.rpLinks_evtOverflow (s : State) :
    s.evtOverflow.rpLinks = s.rpLinks := by
  unfold State.evtOverflow
  simp

@[simp] theorem State.rpLinks_post (s : State) (e : Event) :
    (s.post e).rpLinks = s.rpLinks := by
  unfold State.post
  simp

@[simp] theorem State.rpLinks_postFor (s : State) (e : Event) (scope : Nat) (skeins : List Nat) :
    (s.postFor e scope skeins).rpLinks = s.rpLinks := by
  unfold State.postFor
  simp

@[simp] theorem State.rpLinks_pstCell (s : State) (a v : Nat) :
    (s.pstCell a v).rpLinks = s.rpLinks := by
  unfold State.pstCell
  simp

theorem State.rpLinks_genAdvance (s : State) (i : Nat) :
    ∀ t, s.genAdvance i = some t → t.rpLinks = s.rpLinks := by
  unfold State.genAdvance
  simp

@[simp] theorem State.rpLinks_pstCount (s : State) (a lo len : Nat) :
    (s.pstCount a lo len).rpLinks = s.rpLinks := by
  unfold State.pstCount
  simp

@[simp] theorem State.rpLinks_modUnits (s : State) (f : Units → Units) :
    (s.modUnits f).rpLinks = s.rpLinks := by
  unfold State.modUnits
  simp

@[simp] theorem State.rpLinks_setUnit (s : State) (i cause qstep : Nat) :
    (s.setUnit i cause qstep).rpLinks = s.rpLinks := by
  unfold State.setUnit
  simp

@[simp] theorem State.rpLinks_modFm (s : State) (f : Fmem → Fmem) :
    (s.modFm f).rpLinks = s.rpLinks := by
  unfold State.modFm
  simp

@[simp] theorem State.rpLinks_settleLine (s : State) (line : Nat) :
    (s.settleLine line).rpLinks = s.rpLinks := by
  unfold State.settleLine
  simp

@[simp] theorem State.rpLinks_sealLines (s : State) (lines : List Nat) :
    (s.sealLines lines).rpLinks = s.rpLinks := by
  unfold State.sealLines
  simp

@[simp] theorem State.rpLinks_memWrite (s : State) (a : Nat) (d : List Byte) :
    (s.memWrite a d).rpLinks = s.rpLinks := by
  unfold State.memWrite
  simp

@[simp] theorem State.rpLinks_memZero (s : State) (a n : Nat) :
    (s.memZero a n).rpLinks = s.rpLinks := by
  rfl

/-! ### Machine/Route -/

@[simp] theorem State.rpLinks_offer (s : State) (port : Nat) (x : EddyEnt) :
    (s.offer port x).rpLinks = s.rpLinks := by
  unfold State.offer
  simp

@[simp] theorem State.rpLinks_modWarp (s : State) (f : Warp → Warp) :
    (s.modWarp f).rpLinks = s.rpLinks := by
  unfold State.modWarp
  simp

@[simp] theorem State.rpLinks_logUnrouted (s : State) (p : Nat) (c : Container) :
    (s.logUnrouted p c).rpLinks = s.rpLinks := by
  unfold State.logUnrouted
  simp

@[simp] theorem State.rpLinks_goHome (s : State) (c : Container) :
    (s.goHome c).rpLinks = s.rpLinks := by
  unfold State.goHome
  simp

@[simp] theorem State.rpLinks_reflect (s : State) (x : EddyEnt) (noPath : Bool) :
    (s.reflect x noPath).rpLinks = s.rpLinks := by
  unfold State.reflect
  dsimp only
  repeat' split
  all_goals simp

@[simp] theorem State.rpLinks_divert (s : State) (o : Nat) (x : EddyEnt) :
    (s.divert o x).rpLinks = s.rpLinks := by
  unfold State.divert
  dsimp only
  repeat' split
  all_goals simp

@[simp] theorem State.rpLinks_toOutput (s : State) (r : Route) (x : EddyEnt) :
    (s.toOutput r x).rpLinks = s.rpLinks := by
  unfold State.toOutput
  repeat' split
  all_goals simp

/-! ### Machine/Send -/

@[simp] theorem State.rpLinks_hold (s : State) (dest skein plane planes : Nat) (loc : HeldAt) (m : Msg) (own : Owner) :
    (s.hold .ronpex dest skein plane planes loc m own).1.rpLinks = s.rpLinks := by
  unfold State.hold
  simp

@[simp] theorem State.rpLinks_rpSend (s : State) (h : Held) :
    (s.rpSend h).rpLinks = s.rpLinks := by
  unfold State.rpSend
  simp

@[simp] theorem State.rpLinks_rpPush (s : State) :
    s.rpPush.rpLinks = s.rpLinks := by
  unfold State.rpPush
  simp

@[simp] theorem State.rpLinks_rpMgmtPort (s : State) (port dest : Nat) (m : Mgmt) (own : Owner) :
    (s.rpMgmtPort port dest m own).rpLinks = s.rpLinks := by
  unfold State.rpMgmtPort
  simp

@[simp] theorem State.rpLinks_rpMgmtNode (s : State) (dest : Nat) (m : Mgmt) (own : Owner) :
    (s.rpMgmtNode dest m own).rpLinks = s.rpLinks := by
  unfold State.rpMgmtNode
  simp

@[simp] theorem State.rpLinks_relaySend (s : State) (m node hank skein value : Nat) :
    (s.relaySend m node hank skein value).rpLinks = s.rpLinks := by
  unfold State.relaySend
  simp

@[simp] theorem State.rpLinks_plog (s : State) (b : LogBody) :
    (s.plog .ronpex b).rpLinks = s.rpLinks := by
  unfold State.plog
  simp

@[simp] theorem State.rpLinks_pcond (s : State) (code origin requester port skein addr old new : Nat) :
    (s.pcond .ronpex code origin requester port skein addr old new).rpLinks = s.rpLinks := by
  unfold State.pcond
  simp

@[simp] theorem State.rpLinks_logWrite (s : State) (a v : Nat) (w : Writer) :
    (s.logWrite .ronpex a v w).rpLinks = s.rpLinks := by
  unfold State.logWrite
  simp

@[simp] theorem State.rpLinks_wrote (s : State) (a v : Nat) (w : Writer) (f : State → State) (h : ∀ t, (f t).rpLinks = t.rpLinks) :
    (s.wrote .ronpex a v w f).rpLinks = s.rpLinks := by
  unfold State.wrote
  simp [h]

/-! ### Machine/Flags -/

@[simp] theorem State.rpLinks_errsumMsix (s before : State) :
    (s.errsumMsix before).rpLinks = s.rpLinks := by
  unfold State.errsumMsix
  simp

@[simp] theorem State.rpLinks_secError (s : State) (b port : Nat) :
    (s.secError .ronpex b port).rpLinks = s.rpLinks := by
  unfold State.secError
  simp

@[simp] theorem State.rpLinks_fmhError (s : State) (b offset scope : Nat) (skeins : List Nat) :
    (s.fmhError b offset scope skeins).rpLinks = s.rpLinks := by
  unfold State.fmhError
  simp

/-! ### Machine/OrderOps -/

@[simp] theorem State.rpLinks_modTray (s : State) (f : Tray → Tray) :
    (s.modTray f).rpLinks = s.rpLinks := by
  unfold State.modTray
  simp

@[simp] theorem State.rpLinks_trayOut (s : State) (port : Nat) (f : TrayFrame) :
    (s.trayOut port f).rpLinks = s.rpLinks := by
  unfold State.trayOut
  simp

@[simp] theorem State.rpLinks_trayMgmt (s : State) (m : Mgmt) :
    (s.trayMgmt m).rpLinks = s.rpLinks := by
  unfold State.trayMgmt
  simp

@[simp] theorem State.rpLinks_toEndPoint (s : State) (p : Nat) (m : Mgmt) :
    (s.toEndPoint p m).rpLinks = s.rpLinks := by
  unfold State.toEndPoint
  simp

@[simp] theorem State.rpLinks_toFarEnd (s : State) (p : Nat) (m : Mgmt) :
    (s.toFarEnd p m).rpLinks = s.rpLinks := by
  unfold State.toFarEnd
  repeat' split
  all_goals simp

@[simp] theorem State.rpLinks_orderToMembers (s : State) (o : SwitchOrder) :
    (s.orderToMembers o).rpLinks = s.rpLinks := by
  unfold State.orderToMembers
  simp

@[simp] theorem State.rpLinks_issueOrder (s : State) (o : SwitchOrder) :
    (s.issueOrder o).rpLinks = s.rpLinks := by
  unfold State.issueOrder
  simp

@[simp] theorem State.rpLinks_unitEvent (s : State) (i : Nat) :
    (s.unitEvent i).rpLinks = s.rpLinks := by
  unfold State.unitEvent
  simp

@[simp] theorem State.rpLinks_showUnits (s : State) (quiet : Bool) (l : List Nat) :
    (s.showUnits quiet l).rpLinks = s.rpLinks := by
  unfold State.showUnits
  simp

@[simp] theorem State.rpLinks_spdError (s : State) (n b skein : Nat) :
    (s.spdError n b skein).rpLinks = s.rpLinks := by
  unfold State.spdError
  simp

@[simp] theorem State.rpLinks_setTally (s : State) (ph : Nat) (t : Tally) :
    (s.setTally ph t).rpLinks = s.rpLinks := by
  unfold State.setTally
  simp

@[simp] theorem State.rpLinks_addTally (s : State) (ph status inst round skein : Nat) :
    (s.addTally ph status inst round skein).rpLinks = s.rpLinks := by
  unfold State.addTally
  simp

@[simp] theorem State.rpLinks_tallyPorts (s : State) (ph : Nat) (l : List Nat) (ok : Bool) :
    (s.tallyPorts ph l ok).rpLinks = s.rpLinks := by
  unfold State.tallyPorts
  simp

@[simp] theorem State.rpLinks_tallyLost (s : State) (ph : Nat) (l : List Nat) :
    (s.tallyLost ph l).rpLinks = s.rpLinks := by
  unfold State.tallyLost
  simp

@[simp] theorem State.rpLinks_loseGroup (s : State) (n : Nat) (r : PhaseRec) (ph : Nat) :
    (s.loseGroup n r ph).rpLinks = s.rpLinks := by
  unfold State.loseGroup
  simp

@[simp] theorem State.rpLinks_loseContexts (s : State) (n : Nat) :
    (s.loseContexts n).rpLinks = s.rpLinks := by
  unfold State.loseContexts
  simp

@[simp] theorem State.rpLinks_classOrder (s : State) (c unitType unit gen : Nat) :
    (s.classOrder c unitType unit gen).rpLinks = s.rpLinks := by
  unfold State.classOrder
  simp

@[simp] theorem State.rpLinks_spindleOrder (s : State) (n : Nat) :
    (s.spindleOrder n).rpLinks = s.rpLinks := by
  unfold State.spindleOrder
  dsimp only
  repeat' split
  all_goals simp

@[simp] theorem State.rpLinks_modSk (s : State) (f : Skeins → Skeins) :
    (s.modSk f).rpLinks = s.rpLinks := by
  unfold State.modSk
  simp

@[simp] theorem State.rpLinks_sendAssign (s : State) (port : Nat) :
    (s.sendAssign port).rpLinks = s.rpLinks := by
  unfold State.sendAssign
  simp

@[simp] theorem State.rpLinks_sendSlots (s : State) :
    s.sendSlots.rpLinks = s.rpLinks := by
  unfold State.sendSlots
  simp

/-! ### Machine/CmdOps -/

@[simp] theorem State.rpLinks_modMgmt (s : State) (f : MgmtRings → MgmtRings) :
    (s.modMgmt f).rpLinks = s.rpLinks := by
  unfold State.modMgmt
  simp

@[simp] theorem State.rpLinks_cmdEvent (s : State) (r : Running) (status detail : Nat) :
    (s.cmdEvent r status detail).rpLinks = s.rpLinks := by
  unfold State.cmdEvent
  simp

@[simp] theorem State.rpLinks_cmdNext (s : State) :
    s.cmdNext.rpLinks = s.rpLinks := by
  unfold State.cmdNext
  simp

@[simp] theorem State.rpLinks_cmdDone (s : State) (status detail : Nat) :
    (s.cmdDone status detail).rpLinks = s.rpLinks := by
  unfold State.cmdDone
  split <;> simp

@[simp] theorem State.rpLinks_cmdWaited (s : State) (w : CmdWait) (status detail : Nat) :
    (s.cmdWaited w status detail).rpLinks = s.rpLinks := by
  unfold State.cmdWaited
  simp

@[simp] theorem State.rpLinks_sendOver (s : State) (id : Nat) (lost : Bool) :
    (s.sendOver id lost).rpLinks = s.rpLinks := by
  unfold State.sendOver
  split <;> simp

/-! ### Machine/WeftAnswer -/

@[simp] theorem State.rpLinks_modSource (s : State) (f : Source → Source) :
    (s.modSource .ronpex f).rpLinks = s.rpLinks := by
  unfold State.modSource
  simp

@[simp] theorem State.rpLinks_modHeld (s : State) (id : Nat) (f : Held → Held) :
    (s.modHeld .ronpex id f).rpLinks = s.rpLinks := by
  unfold State.modHeld
  simp

@[simp] theorem State.rpLinks_takeWin (s : State) (node plane win : Nat) :
    (s.takeWin .ronpex node plane win).rpLinks = s.rpLinks := by
  unfold State.takeWin
  simp

@[simp] theorem State.rpLinks_dropHeld (s : State) (h : Held) :
    (s.dropHeld .ronpex h).rpLinks = s.rpLinks := by
  unfold State.dropHeld
  simp

@[simp] theorem State.rpLinks_relayLost (s : State) (m : Nat) :
    (s.relayLost m).rpLinks = s.rpLinks := by
  unfold State.relayLost
  simp

@[simp] theorem State.rpLinks_messageLost (s : State) (h : Held) (x : SentMsg) (code info : Nat) :
    (s.messageLost .ronpex h x code info).rpLinks = s.rpLinks := by
  unfold State.messageLost
  cases x.owner <;> simp

@[simp] theorem State.rpLinks_endHeld (s : State) (id code : Nat) :
    (s.endHeld .ronpex id code).rpLinks = s.rpLinks := by
  unfold State.endHeld
  split <;> simp

@[simp] theorem State.rpLinks_deliver (s : State) (h : Held) (x : SentMsg) (data : List Byte) :
    (s.deliver .ronpex h x data).rpLinks = s.rpLinks := by
  unfold State.deliver
  cases x.owner <;> simp

@[simp] theorem State.rpLinks_answer (s : State) (id i : Nat) (data : List Byte) :
    (s.answer .ronpex id i data).rpLinks = s.rpLinks := by
  unfold State.answer
  repeat' split
  all_goals simp

@[simp] theorem State.rpLinks_takeReply (s : State) (c : Container) (m : Msg) :
    (s.takeReply .ronpex c m).rpLinks = s.rpLinks := by
  unfold State.takeReply
  dsimp only
  split <;> simp

@[simp] theorem State.rpLinks_resend (s : State) (id : Nat) :
    (s.resend .ronpex id).rpLinks = s.rpLinks := by
  unfold State.resend
  split <;> simp

@[simp] theorem State.rpLinks_reflected (s : State) (c : Container) (plane : Nat) :
    (s.reflected .ronpex c plane).rpLinks = s.rpLinks := by
  unfold State.reflected
  dsimp only
  split <;> simp

@[simp] theorem State.rpLinks_backoffEnd (s : State) (id : Nat) :
    (s.backoffEnd .ronpex id).rpLinks = s.rpLinks := by
  unfold State.backoffEnd
  repeat' split
  all_goals simp

@[simp] theorem State.rpLinks_retryTimer (s : State) (id : Nat) :
    (s.retryTimer .ronpex id).rpLinks = s.rpLinks := by
  unfold State.retryTimer
  split <;> simp

@[simp] theorem State.rpLinks_lifeTimer (s : State) (id : Nat) :
    (s.lifeTimer .ronpex id).rpLinks = s.rpLinks := by
  unfold State.lifeTimer
  split <;> simp

/-! ### Machine/EpOrders -/

@[simp] theorem State.rpLinks_snapEvent (s : State) (number missed : Nat) :
    (s.snapEvent .ronpex number missed).rpLinks = s.rpLinks := by
  unfold State.snapEvent
  simp

@[simp] theorem State.rpLinks_snapIn (s : State) (t number : Nat) (skeins : BitVec 64) :
    (s.snapIn .ronpex t number skeins).rpLinks = s.rpLinks := by
  unfold State.snapIn
  simp

@[simp] theorem State.rpLinks_snapCapture (s : State) :
    (s.snapCapture .ronpex).rpLinks = s.rpLinks := by
  unfold State.snapCapture
  dsimp only
  split <;> simp

@[simp] theorem State.rpLinks_mgmtRefused (s : State) (port node mtype : Nat) :
    (s.mgmtRefused .ronpex port node mtype).rpLinks = s.rpLinks := by
  unfold State.mgmtRefused
  simp

/-! ### Machine/RpOrders -/

@[simp] theorem State.rpLinks_rpOrderIn (s : State) (src : MgmtSource) (o : SwitchOrder) :
    (s.rpOrderIn src o).rpLinks = s.rpLinks := by
  unfold State.rpOrderIn
  split <;> simp

@[simp] theorem State.rpLinks_applyPairs (s : State) (l : List (Nat × Nat × Nat)) :
    (s.applyPairs l).rpLinks = s.rpLinks := by
  unfold State.applyPairs
  simp

@[simp] theorem State.rpLinks_loadMaps (s : State) :
    s.loadMaps.rpLinks = s.rpLinks := by
  unfold State.loadMaps
  simp

@[simp] theorem State.rpLinks_powerEvent (s : State) :
    s.powerEvent.rpLinks = s.rpLinks := by
  unfold State.powerEvent
  simp

@[simp] theorem State.rpLinks_powerAlt (s : State) (on : Bool) :
    (s.powerAlt on).rpLinks = s.rpLinks := by
  unfold State.powerAlt
  simp

@[simp] theorem State.rpLinks_rpOrderApply (s : State) (o : SwitchOrder) :
    (s.rpOrderApply o).rpLinks = s.rpLinks := by
  unfold State.rpOrderApply
  repeat' split
  all_goals simp

@[simp] theorem State.rpLinks_rpOrdersDue (s : State) :
    s.rpOrdersDue.rpLinks = s.rpLinks := by
  unfold State.rpOrdersDue
  simp

@[simp] theorem State.rpLinks_toAllPorts (s : State) (m : Mgmt) :
    (s.toAllPorts m).rpLinks = s.rpLinks := by
  unfold State.toAllPorts
  simp

@[simp] theorem State.rpLinks_rpEpochIn (s : State) (e eff : Nat) :
    (s.rpEpochIn e eff).rpLinks = s.rpLinks := by
  unfold State.rpEpochIn
  simp

@[simp] theorem State.rpLinks_clearFilter (s : State) :
    s.clearFilter.rpLinks = s.rpLinks := by
  unfold State.clearFilter
  simp

@[simp] theorem State.rpLinks_rpEpochApply (s : State) (e : Nat) :
    (s.rpEpochApply e).rpLinks = s.rpLinks := by
  unfold State.rpEpochApply
  simp

@[simp] theorem State.rpLinks_reportIn (s : State) (node : Nat) (r : Report) :
    (s.reportIn node r).rpLinks = s.rpLinks := by
  unfold State.reportIn
  dsimp only
  repeat' split
  all_goals simp

@[simp] theorem State.rpLinks_rpSnapIn (s : State) (t number : Nat) (skeins : BitVec 64) :
    (s.rpSnapIn t number skeins).rpLinks = s.rpLinks := by
  unfold State.rpSnapIn
  simp

@[simp] theorem State.rpLinks_rpPathLoss (s : State) (tL : Nat) :
    (s.rpPathLoss tL).rpLinks = s.rpLinks := by
  unfold State.rpPathLoss
  simp

@[simp] theorem State.rpLinks_rpAssignAck (s : State) (port : Nat) (what : Nat × Bool × Nat × Nat) :
    (s.rpAssignAck port what).rpLinks = s.rpLinks := by
  unfold State.rpAssignAck
  simp

@[simp] theorem State.rpLinks_rpLogCopy (s : State) (node : Nat) (b : LogBody) :
    (s.rpLogCopy node b).rpLinks = s.rpLinks := by
  unfold State.rpLogCopy
  simp

@[simp] theorem State.rpLinks_rpMgmtIn (s : State) (src : MgmtSource) (m : Mgmt) :
    (s.rpMgmtIn src m).rpLinks = s.rpLinks := by
  unfold State.rpMgmtIn
  repeat' split
  all_goals simp

/-! ### Machine/WeftDest -/

@[simp] theorem State.rpLinks_recExpire (s : State) (node : Nat) :
    (s.recExpire .ronpex node).rpLinks = s.rpLinks := by
  unfold State.recExpire
  dsimp only
  split <;> simp

@[simp] theorem State.rpLinks_ctxExpire (s : State) (node stream : Nat) :
    (s.ctxExpire .ronpex node stream).rpLinks = s.rpLinks := by
  unfold State.ctxExpire
  simp

@[simp] theorem State.rpLinks_cacheExpire (s : State) :
    (s.cacheExpire .ronpex).rpLinks = s.rpLinks := by
  unfold State.cacheExpire
  simp

/-! ### Machine/FaultOps -/

@[simp] theorem State.rpLinks_portOrder (s : State) (p : Nat) :
    (s.portOrder p).rpLinks = s.rpLinks := by
  unfold State.portOrder
  simp

@[simp] theorem State.rpLinks_fenceLog (s : State) (i origin requester what : Nat) :
    (s.fenceLog i origin requester what).rpLinks = s.rpLinks := by
  unfold State.fenceLog
  simp

@[simp] theorem State.rpLinks_hardFence (s : State) (i cause : Nat) :
    (s.hardFence i cause).rpLinks = s.rpLinks := by
  unfold State.hardFence
  simp

@[simp] theorem State.rpLinks_holdBack (s : State) (i : Nat) :
    (s.holdBack i).rpLinks = s.rpLinks := by
  unfold State.holdBack
  simp

@[simp] theorem State.rpLinks_fenceSpindle (s : State) (n cause : Nat) :
    (s.fenceSpindle n cause).rpLinks = s.rpLinks := by
  unfold State.fenceSpindle
  simp

@[simp] theorem State.rpLinks_fenceChannel (s : State) (c cause offset : Nat) :
    (s.fenceChannel c cause offset).rpLinks = s.rpLinks := by
  unfold State.fenceChannel
  simp

@[simp] theorem State.rpLinks_portEvent (s : State) (port sub cause w : Nat) :
    (s.portEvent port sub cause w).rpLinks = s.rpLinks := by
  unfold State.portEvent
  simp

@[simp] theorem State.rpLinks_lossNotice (s : State) (port : Nat) :
    (s.lossNotice port).rpLinks = s.rpLinks := by
  unfold State.lossNotice
  simp

@[simp] theorem State.rpLinks_quarantine (s : State) (i : Nat) :
    (s.quarantine i).rpLinks = s.rpLinks := by
  unfold State.quarantine
  simp

@[simp] theorem State.rpLinks_channelsReturn (s : State) :
    s.channelsReturn.rpLinks = s.rpLinks := by
  unfold State.channelsReturn
  simp

@[simp] theorem State.rpLinks_qstepTo (s : State) (i n : Nat) :
    (s.qstepTo i n).rpLinks = s.rpLinks := by
  unfold State.qstepTo
  simp

@[simp] theorem State.rpLinks_pstDrain (s : State) (a : Nat) :
    (s.pstDrain a).rpLinks = s.rpLinks := by
  unfold State.pstDrain
  simp

@[simp] theorem State.rpLinks_portInService (s : State) (n : Nat) :
    (s.portInService n).rpLinks = s.rpLinks := by
  unfold State.portInService
  simp

theorem State.rpLinks_newLife (s : State) (i : Nat) :
    ∀ t, s.newLife i = some t → t.rpLinks = s.rpLinks := by
  intro t ht
  rw [State.newLife] at ht
  obtain ⟨u, hu, hut⟩ := Option.bind_eq_some_iff.mp ht
  have hus := s.rpLinks_genAdvance i u hu
  split at hut
  · exact (State.rpLinks_genAdvance _ _ t hut).trans hus
  · cases hut
    exact hus

@[simp] theorem State.rpLinks_returnUnit (s : State) (i : Nat) :
    (s.returnUnit i).1.rpLinks = s.rpLinks := by
  unfold State.returnUnit
  dsimp only
  split <;> simp

@[simp] theorem State.rpLinks_softReturn (s : State) (i : Nat) (wr : Writer) :
    (s.softReturn i wr).rpLinks = s.rpLinks := by
  unfold State.softReturn
  simp

@[simp] theorem State.rpLinks_partEventFor (s : State) (type n state cause : Nat) (skeins : List Nat) :
    (s.partEventFor type n state cause skeins).rpLinks = s.rpLinks := by
  unfold State.partEventFor
  simp

@[simp] theorem State.rpLinks_partEvent (s : State) (type n state cause : Nat) :
    (s.partEvent type n state cause).rpLinks = s.rpLinks := by
  unfold State.partEvent
  simp

@[simp] theorem State.rpLinks_loseEddies (s : State) (l : List Nat) :
    (s.loseEddies l).rpLinks = s.rpLinks := by
  unfold State.loseEddies
  simp

@[simp] theorem State.rpLinks_regionBack (s : State) (r : Nat) :
    (s.regionBack r).rpLinks = s.rpLinks := by
  unfold State.regionBack
  dsimp only
  repeat' split
  all_goals simp

@[simp] theorem State.rpLinks_dieLost (s : State) (d : Nat) :
    (s.dieLost d).rpLinks = s.rpLinks := by
  unfold State.dieLost
  simp

/-! ### Machine/FmemOps -/

@[simp] theorem State.rpLinks_modFmDest (s : State) (f : Dest → Dest) :
    (s.modFmDest f).rpLinks = s.rpLinks := by
  unfold State.modFmDest
  simp

@[simp] theorem State.rpLinks_fmCharge (s : State) (a : Arrival) :
    (s.fmCharge a).rpLinks = s.rpLinks := by
  unfold State.fmCharge
  simp

@[simp] theorem State.rpLinks_agentLeave (s : State) (entry : Option Nat) :
    (s.agentLeave entry).rpLinks = s.rpLinks := by
  unfold State.agentLeave
  simp

@[simp] theorem State.rpLinks_agentOffer (s : State) (c : Container) (entry : Nat) :
    (s.agentOffer c entry).rpLinks = s.rpLinks := by
  unfold State.agentOffer
  repeat' split
  all_goals simp

@[simp] theorem State.rpLinks_agentReply (s : State) (a : Arrival) (opc : Nat) (data : List Byte) :
    (s.agentReply a opc data).rpLinks = s.rpLinks := by
  unfold State.agentReply
  simp

@[simp] theorem State.rpLinks_sealedRelease (s : State) :
    s.sealedRelease.rpLinks = s.rpLinks := by
  unfold State.sealedRelease
  simp

@[simp] theorem State.rpLinks_relayFire (s : State) (m : Nat) :
    (s.relayFire m).rpLinks = s.rpLinks := by
  unfold State.relayFire
  dsimp only
  repeat' split
  all_goals simp

@[simp] theorem State.rpLinks_hcntSet (s : State) (n v : Nat) :
    (s.hcntSet n v).rpLinks = s.rpLinks := by
  unfold State.hcntSet
  simp

@[simp] theorem State.rpLinks_uncorrectable (s : State) (offset : Nat) :
    (s.uncorrectable offset).rpLinks = s.rpLinks := by
  unfold State.uncorrectable
  simp

@[simp] theorem State.rpLinks_corrected (s : State) (n offset : Nat) :
    (s.corrected n offset).rpLinks = s.rpLinks := by
  unfold State.corrected
  simp

@[simp] theorem State.rpLinks_agentLost (s : State) (a : Arrival) :
    (s.agentLost a).rpLinks = s.rpLinks := by
  unfold State.agentLost
  simp

@[simp] theorem State.rpLinks_agentDone (s : State) (a : Arrival) (opc : Nat) (data : List Byte) :
    (s.agentDone a opc data).rpLinks = s.rpLinks := by
  unfold State.agentDone
  simp

@[simp] theorem State.rpLinks_agentExec (s : State) (a : Arrival) :
    (s.agentExec a).rpLinks = s.rpLinks := by
  unfold State.agentExec
  simp

@[simp] theorem State.rpLinks_agentRun (s : State) (a : Arrival) :
    (s.agentRun a).rpLinks = s.rpLinks := by
  unfold State.agentRun
  simp

@[simp] theorem State.rpLinks_agentCtx (n : Nat) (s : State) :
    (s.agentCtx n).rpLinks = s.rpLinks := by
  induction n generalizing s with
  | zero => rfl
  | succ n ih =>
    unfold State.agentCtx
    repeat' (first | split | dsimp only)
    all_goals simp [ih]

@[simp] theorem State.rpLinks_agentGo (s : State) :
    s.agentGo.rpLinks = s.rpLinks := by
  unfold State.agentGo
  simp

@[simp] theorem State.rpLinks_zeroOn (s : State) :
    s.zeroOn.rpLinks = s.rpLinks := by
  unfold State.zeroOn
  simp

@[simp] theorem State.rpLinks_relaysGo (s : State) :
    s.relaysGo.rpLinks = s.rpLinks := by
  unfold State.relaysGo
  simp

@[simp] theorem State.rpLinks_agentFrame (s0 : State) :
    s0.agentFrame.rpLinks = s0.rpLinks := by
  unfold State.agentFrame
  simp

@[simp] theorem State.rpLinks_agentMessage (s : State) (a : Arrival) :
    (s.agentMessage a).rpLinks = s.rpLinks := by
  unfold State.agentMessage
  repeat' split
  all_goals simp

@[simp] theorem State.rpLinks_agentReflect (s : State) (port : Nat) (c : Container) :
    (s.agentReflect port c).rpLinks = s.rpLinks := by
  unfold State.agentReflect
  simp

@[simp] theorem State.rpLinks_agentTake (s : State) (port : Nat) (c : Container) :
    (s.agentTake port c).rpLinks = s.rpLinks := by
  unfold State.agentTake
  simp

/-! ### Machine/Fmem -/

@[simp] theorem State.rpLinks_regionCtl (s : State) (n v : Nat) :
    (s.regionCtl n v).rpLinks = s.rpLinks := by
  unfold State.regionCtl
  simp

@[simp] theorem State.rpLinks_zeroed (s : State) :
    s.zeroed.rpLinks = s.rpLinks := by
  unfold State.zeroed
  split <;> simp

@[simp] theorem State.rpLinks_hgrantStore (s : State) (k v : Nat) :
    (s.hgrantStore k v).rpLinks = s.rpLinks := by
  unfold State.hgrantStore
  simp

@[simp] theorem State.rpLinks_relayCtl (s : State) (m v : Nat) :
    (s.relayCtl m v).rpLinks = s.rpLinks := by
  unfold State.relayCtl
  simp

/-! ### Machine/RpWarpOps -/

@[simp] theorem State.rpLinks_modSpindle (s : State) (n : Nat) (f : SpindleSt → SpindleSt) :
    (s.modSpindle n f).rpLinks = s.rpLinks := by
  unfold State.modSpindle
  simp

@[simp] theorem State.rpLinks_fly (s : State) (slots : Nat) (dst : FlightTo) (what : Contrib) :
    (s.fly slots dst what).rpLinks = s.rpLinks := by
  unfold State.fly
  simp

@[simp] theorem State.rpLinks_toSpindle (s : State) (p c l : Nat) (what : Contrib) :
    (s.toSpindle p c l what).rpLinks = s.rpLinks := by
  unfold State.toSpindle
  split <;> simp

@[simp] theorem State.rpLinks_toPort (s : State) (p l : Nat) (what : Contrib) :
    (s.toPort p l what).rpLinks = s.rpLinks := by
  unfold State.toPort
  split <;> simp

@[simp] theorem State.rpLinks_movesNot (s : State) (c : Nat) (l : List Nat) (what : Contrib) :
    (s.movesNot c l what).rpLinks = s.rpLinks := by
  unfold State.movesNot
  split <;> simp

@[simp] theorem State.rpLinks_deliverAt (s : State) (p e : Nat) (what : Contrib) :
    (s.deliverAt p e what).rpLinks = s.rpLinks := by
  unfold State.deliverAt
  dsimp only
  split <;> simp

@[simp] theorem State.rpLinks_hear (s : State) (p : Nat) :
    (s.hear p).rpLinks = s.rpLinks := by
  unfold State.hear
  simp

@[simp] theorem State.rpLinks_quarTraffic (s : State) (p src skein : Nat) :
    (s.quarTraffic p src skein).rpLinks = s.rpLinks := by
  unfold State.quarTraffic
  simp

@[simp] theorem State.rpLinks_noteReady (s : State) (c : WarpCell) :
    (s.noteReady c).rpLinks = s.rpLinks := by
  unfold State.noteReady
  split <;> simp

@[simp] theorem State.rpLinks_rpEmptyIn (s : State) (p : Nat) :
    (s.rpEmptyIn p).rpLinks = s.rpLinks := by
  unfold State.rpEmptyIn
  simp

@[simp] theorem State.rpLinks_missingIn (s : State) :
    s.missingIn.rpLinks = s.rpLinks := by
  unfold State.missingIn
  simp

@[simp] theorem State.rpLinks_shadowOwed (s : State) (pat n : Nat) :
    (s.shadowOwed pat n).rpLinks = s.rpLinks := by
  unfold State.shadowOwed
  simp

@[simp] theorem State.rpLinks_shadowWrite (s : State) (pat skein a : Nat) (d : List Byte) :
    (s.shadowWrite pat skein a d).rpLinks = s.rpLinks := by
  unfold State.shadowWrite
  simp

@[simp] theorem State.rpLinks_shadowTallies (s : State) :
    s.shadowTallies.rpLinks = s.rpLinks := by
  unfold State.shadowTallies
  dsimp only
  rw [State.rpLinks_foldl _ fun t e => ?_]
  · simp
  · split
    · rfl
    · split <;> simp

@[simp] theorem State.rpLinks_shadowCell (s : State) (c : WarpCell) :
    (s.shadowCell c).rpLinks = s.rpLinks := by
  unfold State.shadowCell
  split <;> simp

@[simp] theorem State.rpLinks_moveTally (s : State) (c : WarpCell) :
    (s.moveTally c).1.rpLinks = s.rpLinks := by
  unfold State.moveTally
  repeat' split
  all_goals simp

@[simp] theorem State.rpLinks_closeGroup (s : State) (n : Nat) (r : PhaseRec) (x : AccCtx) :
    (s.closeGroup n r x).rpLinks = s.rpLinks := by
  unfold State.closeGroup
  split <;> simp

@[simp] theorem State.rpLinks_spinBudget (s : State) (n : Nat) (what : Contrib) :
    (s.spinBudget n what).2.rpLinks = s.rpLinks := by
  unfold State.spinBudget
  dsimp only
  repeat' split
  all_goals simp

@[simp] theorem State.rpLinks_spindleTraffic (s : State) (n : Nat) (x : Contrib) :
    (s.spindleTraffic n x).rpLinks = s.rpLinks := by
  unfold State.spindleTraffic
  split <;> simp

@[simp] theorem State.rpLinks_spindleIn (s : State) (n ph : Nat) (what : Contrib) :
    (s.spindleIn n ph what).rpLinks = s.rpLinks := by
  unfold State.spindleIn
  dsimp only
  repeat' split
  all_goals simp

@[simp] theorem State.rpLinks_emitCell (s : State) (n : Nat) (c : WarpCell) :
    (s.emitCell n c).rpLinks = s.rpLinks := by
  unfold State.emitCell
  dsimp only
  split <;> simp

@[simp] theorem State.rpLinks_spindleEmit (s : State) (n : Nat) :
    (s.spindleEmit n).rpLinks = s.rpLinks := by
  unfold State.spindleEmit
  repeat' split
  all_goals simp

@[simp] theorem State.rpLinks_anchorsIn (s : State) (n : Nat) (c : WarpCell) :
    (s.anchorsIn n c).rpLinks = s.rpLinks := by
  unfold State.anchorsIn
  simp

@[simp] theorem State.rpLinks_flightsLand (s : State) :
    s.flightsLand.rpLinks = s.rpLinks := by
  unfold State.flightsLand
  refine State.rpLinks_foldl _ (fun t f => ?_) _ _
  split <;> simp

@[simp] theorem State.rpLinks_delivered (s : State) (p : Nat) (c : WarpCell) (ok : Bool) :
    (s.delivered p c ok).rpLinks = s.rpLinks := by
  unfold State.delivered
  simp

@[simp] theorem State.rpLinks_flightsDone (s : State) :
    s.flightsDone.rpLinks = s.rpLinks := by
  unfold State.flightsDone
  simp

/-! ### Machine/Draft -/

@[simp] theorem State.rpLinks_committed (s : State) (slot code : Nat) :
    (s.committed slot code).rpLinks = s.rpLinks := by
  unfold State.committed
  simp

@[simp] theorem State.rpLinks_commitSlot (s : State) (slot : Nat) :
    (s.commitSlot slot).rpLinks = s.rpLinks := by
  unfold State.commitSlot
  simp

@[simp] theorem State.rpLinks_drfCtl (s : State) (v : Nat) :
    (s.drfCtl v).rpLinks = s.rpLinks := by
  unfold State.drfCtl
  simp

@[simp] theorem State.rpLinks_rpDraftOn (s : State) (slot : Nat) :
    (s.rpDraftOn slot).rpLinks = s.rpLinks := by
  unfold State.rpDraftOn
  simp

@[simp] theorem State.rpLinks_rpDraftOff (s : State) :
    s.rpDraftOff.rpLinks = s.rpLinks := by
  unfold State.rpDraftOff
  simp

@[simp] theorem State.rpLinks_rpActivate (s : State) :
    s.rpActivate.rpLinks = s.rpLinks := by
  unfold State.rpActivate
  dsimp only
  repeat' split
  all_goals simp

/-! ### Machine/Warp -/

@[simp] theorem State.rpLinks_drfWrite (s : State) (ctl : Word) (wr : Writer) :
    (s.drfWrite ctl wr).rpLinks = s.rpLinks := by
  unfold State.drfWrite
  simp

@[simp] theorem State.rpLinks_activateDraft (s : State) :
    (s.activateDraft .ronpex).rpLinks = s.rpLinks := by
  unfold State.activateDraft
  simp

@[simp] theorem State.rpLinks_mgmtIn (s : State) (src : MgmtSource) (m : Mgmt) :
    (s.mgmtIn .ronpex src m).rpLinks = s.rpLinks := by
  unfold State.mgmtIn
  simp

@[simp] theorem State.rpLinks_applyOrders (s : State) :
    (s.applyOrders .ronpex).rpLinks = s.rpLinks := by
  unfold State.applyOrders
  simp

/-! ### Machine/LinkOps -/

@[simp] theorem State.rpLinks_recordIdentity (s : State) (port : Nat) (i : Identity) :
    (s.recordIdentity .ronpex port i).rpLinks = s.rpLinks := by
  unfold State.recordIdentity
  simp

@[simp] theorem State.rpLinks_logIdentity (s : State) (port : Nat) (i : Identity) (received : Bool) :
    (s.logIdentity .ronpex port i received).rpLinks = s.rpLinks := by
  unfold State.logIdentity
  simp

@[simp] theorem State.rpLinks_farPower (s : State) (port first : Nat) (l : List Int) :
    (s.farPower .ronpex port first l).rpLinks = s.rpLinks := by
  unfold State.farPower
  simp

@[simp] theorem State.rpLinks_swapEvent (s : State) (port reason w : Nat) :
    (s.swapEvent .ronpex port reason w).rpLinks = s.rpLinks := by
  unfold State.swapEvent
  simp

@[simp] theorem State.rpLinks_setEngineTemp (s : State) (port : Nat) (t : Int) :
    (s.setEngineTemp .ronpex port t).rpLinks = s.rpLinks := by
  unfold State.setEngineTemp
  simp

@[simp] theorem State.rpLinks_timeEvent (s : State) (case : Nat) :
    (s.timeEvent .ronpex case).rpLinks = s.rpLinks := by
  unfold State.timeEvent
  simp

@[simp] theorem State.rpLinks_timeFrom (s : State) (port : Nat) (twice : Int) (delay depth : Nat) :
    (s.timeFrom .ronpex port twice delay depth).rpLinks = s.rpLinks := by
  unfold State.timeFrom
  simp

/-! ### Machine/KeyOps -/

@[simp] theorem State.rpLinks_delayCheck (s : State) (port : Nat) :
    (s.delayCheck port).rpLinks = s.rpLinks := by
  unfold State.delayCheck
  split <;> simp

@[simp] theorem State.rpLinks_testErrors (s : State) (port : Nat) (errors : List Nat) :
    (s.testErrors .ronpex port errors).rpLinks = s.rpLinks := by
  unfold State.testErrors
  simp

@[simp] theorem State.rpLinks_clearCounters (s : State) (port : Nat) :
    (s.clearCounters .ronpex port).rpLinks = s.rpLinks := by
  unfold State.clearCounters
  simp

/-! ### Machine/LightOps -/

@[simp] theorem State.rpLinks_burstOut (s : State) (port : Nat) :
    (s.burstOut .ronpex port).rpLinks = s.rpLinks := by
  rfl

/-! ### Machine/LaserOps -/

@[simp] theorem State.rpLinks_lasError (s : State) (m b : Nat) :
    (s.lasError m b).rpLinks = s.rpLinks := by
  unfold State.lasError
  simp

@[simp] theorem State.rpLinks_modLas (s : State) (f : Lasers → Lasers) :
    (s.modLas f).rpLinks = s.rpLinks := by
  unfold State.modLas
  simp

@[simp] theorem State.rpLinks_lasSend (s : State) (m : Nat) :
    (s.lasSend m).rpLinks = s.rpLinks := by
  unfold State.lasSend
  split <;> simp

@[simp] theorem State.rpLinks_lasAsk (s : State) (m : Nat) (write : Bool) (addr data : Nat) (user : Bool) :
    (s.lasAsk m write addr data user).rpLinks = s.rpLinks := by
  unfold State.lasAsk
  simp

@[simp] theorem State.rpLinks_lasNext (s : State) (m : Nat) :
    (s.lasNext m).rpLinks = s.rpLinks := by
  unfold State.lasNext
  simp

@[simp] theorem State.rpLinks_lasAccess (s : State) (m v : Nat) :
    (s.lasAccess m v).rpLinks = s.rpLinks := by
  unfold State.lasAccess
  simp

@[simp] theorem State.rpLinks_showBias (s : State) (m w : Nat) :
    (s.showBias m w).rpLinks = s.rpLinks := by
  unfold State.showBias
  repeat' split
  all_goals simp

@[simp] theorem State.rpLinks_lasLearn (s : State) (m addr v : Nat) :
    (s.lasLearn m addr v).rpLinks = s.rpLinks := by
  unfold State.lasLearn
  simp

@[simp] theorem State.rpLinks_lasFollow (s : State) (m w : Nat) :
    (s.lasFollow m w).rpLinks = s.rpLinks := by
  unfold State.lasFollow
  simp

@[simp] theorem State.rpLinks_lasFollowed (s : State) :
    s.lasFollowed.rpLinks = s.rpLinks := by
  unfold State.lasFollowed
  simp

@[simp] theorem State.rpLinks_lasDone (s : State) (m : Nat) (q : LasReq) (r : LasReply) :
    (s.lasDone m q r).rpLinks = s.rpLinks := by
  unfold State.lasDone
  simp

@[simp] theorem State.rpLinks_lasRetry (s : State) (m : Nat) (q : LasReq) :
    (s.lasRetry m q).rpLinks = s.rpLinks := by
  unfold State.lasRetry
  simp

@[simp] theorem State.rpLinks_lasReplyIn (s : State) (m : Nat) (r : LasReply) :
    (s.lasReplyIn m r).rpLinks = s.rpLinks := by
  unfold State.lasReplyIn
  split <;> simp

@[simp] theorem State.rpLinks_lasSilent (s : State) (m : Nat) :
    (s.lasSilent m).rpLinks = s.rpLinks := by
  unfold State.lasSilent
  split <;> simp

@[simp] theorem State.rpLinks_emitterFailed (s : State) (m w : Nat) (overtemp : Bool) :
    (s.emitterFailed m w overtemp).rpLinks = s.rpLinks := by
  unfold State.emitterFailed
  simp

@[simp] theorem State.rpLinks_feedEvent (s : State) (e mask : Nat) :
    (s.feedEvent e mask).rpLinks = s.rpLinks := by
  unfold State.feedEvent
  simp

@[simp] theorem State.rpLinks_moveFeeds (s : State) (e mask : Nat) (standby : Bool) :
    (s.moveFeeds e mask standby).rpLinks = s.rpLinks := by
  unfold State.moveFeeds
  simp

@[simp] theorem State.rpLinks_feedReading (s : State) (e w : Nat) (pri stby : Int) :
    (s.feedReading e w pri stby).rpLinks = s.rpLinks := by
  unfold State.feedReading
  simp

@[simp] theorem State.rpLinks_feedTrip (s : State) (e w : Nat) (pri stby : Int) :
    (s.feedTrip e w pri stby).rpLinks = s.rpLinks := by
  unfold State.feedTrip
  dsimp only
  split <;> simp

@[simp] theorem State.rpLinks_feedBack (s : State) (e w : Nat) (pri stby : Int) :
    (s.feedBack e w pri stby).rpLinks = s.rpLinks := by
  unfold State.feedBack
  simp

@[simp] theorem State.rpLinks_feedWrite (s : State) (e v : Nat) :
    (s.feedWrite e v).rpLinks = s.rpLinks := by
  unfold State.feedWrite
  simp

@[simp] theorem State.rpLinks_feedsDue (s : State) :
    s.feedsDue.rpLinks = s.rpLinks := by
  unfold State.feedsDue
  simp

@[simp] theorem State.rpLinks_logExcluded (s : State) (w : Nat) (m2 : Int) (l : List (Nat × Int)) :
    (s.logExcluded .ronpex w m2 l).rpLinks = s.rpLinks := by
  unfold State.logExcluded
  simp

@[simp] theorem State.rpLinks_recordBias (s : State) (m w bias : Nat) (emitterB : Bool) :
    (s.recordBias m w bias emitterB).rpLinks = s.rpLinks := by
  unfold State.recordBias
  dsimp only
  split <;> simp

@[simp] theorem State.rpLinks_writeBias (s : State) (m w bias : Nat) (emitterB : Bool) :
    (s.writeBias m w bias emitterB).rpLinks = s.rpLinks := by
  unfold State.writeBias
  simp

@[simp] theorem State.rpLinks_lasInquire (s : State) (m w : Nat) :
    (s.lasInquire m w).rpLinks = s.rpLinks := by
  unfold State.lasInquire
  simp

@[simp] theorem State.rpLinks_ageEmitter (s : State) (m w : Nat) :
    (s.ageEmitter m w).rpLinks = s.rpLinks := by
  unfold State.ageEmitter
  dsimp only
  repeat' split
  all_goals simp

@[simp] theorem State.rpLinks_biasEval (s : State) (m : Nat) :
    (s.biasEval .ronpex m).rpLinks = s.rpLinks := by
  unfold State.biasEval
  simp

/-! ### Machine/Pins -/

@[simp] theorem State.rpLinks_modTap (s : State) (f : Tap → Tap) :
    (s.modTap .ronpex f).rpLinks = s.rpLinks := by
  unfold State.modTap
  simp

/-! ### Machine/SkeinOps -/

@[simp] theorem State.rpLinks_skeinWrite (s : State) (v : Nat) (template : Option Nat) :
    (s.skeinWrite v template).rpLinks = s.rpLinks := by
  unfold State.skeinWrite
  simp

@[simp] theorem State.rpLinks_destroyFkey (s : State) (k : Nat) :
    (s.destroyFkey k).rpLinks = s.rpLinks := by
  unfold State.destroyFkey
  simp

@[simp] theorem State.rpLinks_scrubStart (s : State) (k : Nat) :
    (s.scrubStart k).rpLinks = s.rpLinks := by
  unfold State.scrubStart
  simp

@[simp] theorem State.rpLinks_scrubbed (s : State) :
    s.scrubbed.rpLinks = s.rpLinks := by
  unfold State.scrubbed
  split <;> simp

@[simp] theorem State.rpLinks_sknCtl (s : State) (k v : Nat) :
    (s.sknCtl k v).rpLinks = s.rpLinks := by
  unfold State.sknCtl
  simp

@[simp] theorem State.rpLinks_releaseSkein (s : State) (k : Nat) :
    (s.releaseSkein k).rpLinks = s.rpLinks := by
  unfold State.releaseSkein
  simp

@[simp] theorem State.rpLinks_loadTemplate (s : State) (k t : Nat) :
    (s.loadTemplate k t).rpLinks = s.rpLinks := by
  unfold State.loadTemplate
  simp

@[simp] theorem State.rpLinks_skeinEffect (s : State) :
    s.skeinEffect.rpLinks = s.rpLinks := by
  unfold State.skeinEffect
  repeat' split
  all_goals simp

@[simp] theorem State.rpLinks_sknPort (s : State) (p v : Nat) :
    (s.sknPort p v).rpLinks = s.rpLinks := by
  unfold State.sknPort
  simp

@[simp] theorem State.rpLinks_releaseRecords (s : State) :
    s.releaseRecords.rpLinks = s.rpLinks := by
  unfold State.releaseRecords
  simp

/-! ### Machine/SecOps -/

@[simp] theorem State.rpLinks_modSec (s : State) (f : Security → Security) :
    (s.modSec .ronpex f).rpLinks = s.rpLinks := by
  unfold State.modSec
  simp

@[simp] theorem State.rpLinks_spdmReply (s : State) (session : Option Nat) (code : Nat) (body : List Byte) :
    (s.spdmReply .ronpex session code body).rpLinks = s.rpLinks := by
  rfl

@[simp] theorem State.rpLinks_spdmError (s : State) (session : Option Nat) (e : Nat) :
    (s.spdmError .ronpex session e).rpLinks = s.rpLinks := by
  unfold State.spdmError
  simp

@[simp] theorem State.rpLinks_spdmAnswer (s : State) (code : Nat) (session : Option Nat) (slot : Nat) (req : List Byte) :
    (s.spdmAnswer .ronpex code session slot req).rpLinks = s.rpLinks := by
  unfold State.spdmAnswer
  simp

@[simp] theorem State.rpLinks_spdmIn (s : State) (code : Nat) (session : Option Nat) (slot : Nat) (req : List Byte) :
    (s.spdmIn .ronpex code session slot req).rpLinks = s.rpLinks := by
  unfold State.spdmIn
  simp

@[simp] theorem State.rpLinks_keyReply (s : State) (session : Option Nat) (op status : Nat) :
    (s.keyReply .ronpex session op status).rpLinks = s.rpLinks := by
  unfold State.keyReply
  simp

@[simp] theorem State.rpLinks_keyRefused (s : State) (session : Option Nat) (op status : Nat) :
    (s.keyRefused .ronpex session op status).rpLinks = s.rpLinks := by
  unfold State.keyRefused
  simp

@[simp] theorem State.rpLinks_keySet (s : State) (kind skein keyId : Nat) (key : BitVec 512) :
    (s.keySet .ronpex kind skein keyId key).rpLinks = s.rpLinks := by
  unfold State.keySet
  simp [State.modEw]

@[simp] theorem State.rpLinks_keyGone (s : State) (kind skein : Nat) :
    (s.keyGone .ronpex kind skein).rpLinks = s.rpLinks := by
  unfold State.keyGone
  simp

@[simp] theorem State.rpLinks_install (s : State) (session : Option Nat) (kind skein : Nat) (keyId : Word) (key : BitVec 512)
    (malformed : Bool) : (s.install .ronpex session kind skein keyId key malformed).rpLinks = s.rpLinks := by
  unfold State.install
  simp

@[simp] theorem State.rpLinks_destroy (s : State) (session : Option Nat) (kind skein : Nat) (malformed : Bool) :
    (s.destroy .ronpex session kind skein malformed).rpLinks = s.rpLinks := by
  unfold State.destroy
  simp

@[simp] theorem State.rpLinks_fwEvent (s : State) :
    (s.fwEvent .ronpex).rpLinks = s.rpLinks := by
  unfold State.fwEvent
  simp

@[simp] theorem State.rpLinks_fwLog (s : State) (old : Nat) :
    (s.fwLog .ronpex old).rpLinks = s.rpLinks := by
  unfold State.fwLog
  simp

@[simp] theorem State.rpLinks_fwState (s : State) (new : Nat) :
    (s.fwState .ronpex new).rpLinks = s.rpLinks := by
  unfold State.fwState
  simp

@[simp] theorem State.rpLinks_restartLayer1 (s : State) (activating : Bool) :
    (s.restartLayer1 .ronpex activating).rpLinks = s.rpLinks := by
  unfold State.restartLayer1
  simp

@[simp] theorem State.rpLinks_heldAnswer (s : State) (h : HeldReq) :
    (s.heldAnswer .ronpex h).rpLinks = s.rpLinks := by
  unfold State.heldAnswer
  simp

@[simp] theorem State.rpLinks_layer1Back (s : State) :
    (s.layer1Back .ronpex).rpLinks = s.rpLinks := by
  unfold State.layer1Back
  dsimp only
  split <;> simp

@[simp] theorem State.rpLinks_raiseSvn (s : State) :
    s.raiseSvn.rpLinks = s.rpLinks := by
  unfold State.raiseSvn
  simp

@[simp] theorem State.rpLinks_layer1Done (s : State) :
    (s.layer1Done .ronpex).rpLinks = s.rpLinks := by
  unfold State.layer1Done
  simp

@[simp] theorem State.rpLinks_fwFailed (s : State) :
    (s.fwFailed .ronpex).rpLinks = s.rpLinks := by
  unfold State.fwFailed
  split <;> simp

/-! ### Machine/PowerOps -/

@[simp] theorem State.rpLinks_modPower (s : State) (f : Power → Power) :
    (s.modPower f).rpLinks = s.rpLinks := by
  unfold State.modPower
  simp

@[simp] theorem State.rpLinks_setScale (s : State) (v : Nat) :
    (s.setScale v).rpLinks = s.rpLinks := by
  unfold State.setScale
  simp

@[simp] theorem State.rpLinks_powerRequest (s : State) :
    s.powerRequest.rpLinks = s.rpLinks := by
  unfold State.powerRequest
  simp

@[simp] theorem State.rpLinks_powerReturn (s : State) :
    s.powerReturn.rpLinks = s.rpLinks := by
  unfold State.powerReturn
  simp

@[simp] theorem State.rpLinks_powerFrame (s : State) (activity : List Nat) :
    (s.powerFrame activity).rpLinks = s.rpLinks := by
  unfold State.powerFrame
  simp

@[simp] theorem State.rpLinks_sendToken (s : State) (tok : Nat) :
    (s.sendToken tok).rpLinks = s.rpLinks := by
  unfold State.sendToken
  simp

@[simp] theorem State.rpLinks_returnToken (s : State) :
    s.returnToken.rpLinks = s.rpLinks := by
  unfold State.returnToken
  split <;> simp

@[simp] theorem State.rpLinks_tokenDue (s : State) :
    s.tokenDue.rpLinks = s.rpLinks := by
  unfold State.tokenDue
  split <;> simp

@[simp] theorem State.rpLinks_alertOn (s : State) :
    s.alertOn.rpLinks = s.rpLinks := by
  unfold State.alertOn
  simp

@[simp] theorem State.rpLinks_alertOff (s : State) :
    s.alertOff.rpLinks = s.rpLinks := by
  unfold State.alertOff
  simp

@[simp] theorem State.rpLinks_thermStep (s : State) (n : Nat) :
    (s.thermStep n).rpLinks = s.rpLinks := by
  unfold State.thermStep
  simp

@[simp] theorem State.rpLinks_stepsClear (n : Nat) (s : State) :
    (s.stepsClear n).rpLinks = s.rpLinks := by
  induction n generalizing s with
  | zero => rfl
  | succ n ih =>
    unfold State.stepsClear
    repeat' (first | split | dsimp only)
    all_goals simp [ih]

@[simp] theorem State.rpLinks_modTime (s : State) (f : TimeSt → TimeSt) :
    (s.modTime .ronpex f).rpLinks = s.rpLinks := by
  unfold State.modTime
  simp

@[simp] theorem State.rpLinks_holdOver (s : State) :
    (s.holdOver .ronpex).rpLinks = s.rpLinks := by
  unfold State.holdOver
  simp

@[simp] theorem State.rpLinks_enablesOff (s : State) :
    s.enablesOff.rpLinks = s.rpLinks := by
  unfold State.enablesOff
  simp

@[simp] theorem State.rpLinks_hubAsleep (s : State) :
    s.hubAsleep.rpLinks = s.rpLinks := by
  unfold State.hubAsleep
  simp

@[simp] theorem State.rpLinks_timeAsleep (s : State) :
    s.timeAsleep.rpLinks = s.rpLinks := by
  unfold State.timeAsleep
  simp

@[simp] theorem State.rpLinks_wakeStores (s : State) :
    s.wakeStores.rpLinks = s.rpLinks := by
  unfold State.wakeStores
  simp

@[simp] theorem State.rpLinks_wakeCmd (s : State) :
    s.wakeCmd.rpLinks = s.rpLinks := by
  unfold State.wakeCmd
  simp

@[simp] theorem State.rpLinks_rampDue (s : State) :
    s.rampDue.rpLinks = s.rpLinks := by
  unfold State.rampDue
  split <;> simp

@[simp] theorem State.rpLinks_tokenHere (s : State) (tok : Nat) :
    (s.tokenHere tok).rpLinks = s.rpLinks := by
  unfold State.tokenHere
  simp

@[simp] theorem State.rpLinks_newToken (s : State) (tok : Nat) :
    (s.newToken tok).rpLinks = s.rpLinks := by
  unfold State.newToken
  simp

@[simp] theorem State.rpLinks_tokenAgain (s : State) (tok : Nat) :
    (s.tokenAgain tok).rpLinks = s.rpLinks := by
  unfold State.tokenAgain
  simp

@[simp] theorem State.rpLinks_corePgOn (s : State) (d : Nat) :
    (s.corePgOn d).rpLinks = s.rpLinks := by
  unfold State.corePgOn
  simp

@[simp] theorem State.rpLinks_stackTrained (s : State) (d : Nat) :
    (s.stackTrained d).rpLinks = s.rpLinks := by
  unfold State.stackTrained
  simp

@[simp] theorem State.rpLinks_pstFlush (s : State) :
    s.pstFlush.rpLinks = s.rpLinks := by
  unfold State.pstFlush
  simp

@[simp] theorem State.rpLinks_logRestore (s : State) :
    s.logRestore.rpLinks = s.rpLinks := by
  unfold State.logRestore
  repeat' split
  all_goals simp

@[simp] theorem State.rpLinks_pkgStart (s : State) :
    s.pkgStart.rpLinks = s.rpLinks := by
  unfold State.pkgStart
  dsimp only
  split
  · rfl
  · split
    · simp
    · simp [State.rpLinks_getD _ _ (State.rpLinks_genAdvance _ _)]

@[simp] theorem State.rpLinks_hubRestart (s : State) :
    s.hubRestart.rpLinks = s.rpLinks := by
  unfold State.hubRestart
  simp

@[simp] theorem State.rpLinks_hubCtlWrite (s : State) (v : Nat) :
    (s.hubCtlWrite v).rpLinks = s.rpLinks := by
  unfold State.hubCtlWrite
  simp

@[simp] theorem State.rpLinks_perst (s : State) :
    s.perst.rpLinks = s.rpLinks := by
  unfold State.perst
  simp

@[simp] theorem State.rpLinks_timeSetWrite (s : State) (v : Nat) :
    (s.timeSetWrite v).rpLinks = s.rpLinks := by
  unfold State.timeSetWrite
  simp

@[simp] theorem State.rpLinks_timCtlWrite (s : State) (v : Nat) :
    (s.timCtlWrite v).rpLinks = s.rpLinks := by
  unfold State.timCtlWrite
  simp

/-! ### Machine/Faults -/

@[simp] theorem State.rpLinks_epochDue (s : State) :
    (s.epochDue .ronpex).rpLinks = s.rpLinks := by
  unfold State.epochDue
  split <;> simp

@[simp] theorem State.rpLinks_resetEnds (s : State) (r : Nat) :
    (s.resetEnds r).rpLinks = s.rpLinks := by
  unfold State.resetEnds
  simp

/-! ### Machine/MgmtOps -/

@[simp] theorem State.rpLinks_fetchFailed (s : State) :
    s.fetchFailed.rpLinks = s.rpLinks := by
  unfold State.fetchFailed
  simp

@[simp] theorem State.rpLinks_command (s : State) (c : Command) (op : Nat) (ok : Bool) (f : State → State)
    (h : ∀ t, (f t).rpLinks = t.rpLinks) : (s.command c op ok f).rpLinks = s.rpLinks := by
  unfold State.command
  simp [h]

@[simp] theorem State.rpLinks_cmdWait (s : State) (w : CmdWait) :
    (s.cmdWait w).rpLinks = s.rpLinks := by
  unfold State.cmdWait
  simp

@[simp] theorem State.rpLinks_slotWritten (s : State) (slot : Nat) :
    (s.slotWritten slot).rpLinks = s.rpLinks := by
  unfold State.slotWritten
  simp

@[simp] theorem State.rpLinks_loadImage (s : State) (region slot : Nat) (words : List (Nat × Word)) :
    (s.loadImage region slot words).rpLinks = s.rpLinks := by
  unfold State.loadImage
  simp

@[simp] theorem State.rpLinks_draftLoad (s : State) (p0 : Nat) (image : List (Nat × Word)) (dmaOk : Bool) :
    (s.draftLoad p0 image dmaOk).rpLinks = s.rpLinks := by
  unfold State.draftLoad
  simp

@[simp] theorem State.rpLinks_skeinOrder (s : State) (p0 : Nat) :
    (s.skeinOrder p0).rpLinks = s.rpLinks := by
  unfold State.skeinOrder
  simp

@[simp] theorem State.rpLinks_returnCmd (s : State) (p0 : Nat) :
    (s.returnCmd p0).rpLinks = s.rpLinks := by
  unfold State.returnCmd
  split <;> simp

@[simp] theorem State.rpLinks_epochCmd (s : State) (e : Nat) :
    (s.epochCmd e).rpLinks = s.rpLinks := by
  unfold State.epochCmd
  simp

@[simp] theorem State.rpLinks_snapCmd (s : State) (number t : Nat) (args : List Byte) :
    (s.snapCmd number t args).rpLinks = s.rpLinks := by
  unfold State.snapCmd
  simp

@[simp] theorem State.rpLinks_sendCmd (s : State) (dest len : Nat) (payload : List Byte) (dmaOk : Bool) :
    (s.sendCmd dest len payload dmaOk).rpLinks = s.rpLinks := by
  unfold State.sendCmd
  simp

@[simp] theorem State.rpLinks_fwWriteCmd (s : State) (off len : Nat) (data : List Byte) (dmaOk : Bool) :
    (s.fwWriteCmd off len data dmaOk).rpLinks = s.rpLinks := by
  unfold State.fwWriteCmd
  simp

@[simp] theorem State.rpLinks_fwVerifyCmd (s : State) :
    s.fwVerifyCmd.rpLinks = s.rpLinks := by
  unfold State.fwVerifyCmd
  simp

@[simp] theorem State.rpLinks_fwActivateCmd (s : State) :
    s.fwActivateCmd.rpLinks = s.rpLinks := by
  unfold State.fwActivateCmd
  simp

@[simp] theorem State.rpLinks_fwEraseCmd (s : State) :
    s.fwEraseCmd.rpLinks = s.rpLinks := by
  unfold State.fwEraseCmd
  simp

@[simp] theorem State.rpLinks_cmdDoorbell (s : State) (t : Nat) :
    (s.cmdDoorbell t).rpLinks = s.rpLinks := by
  unfold State.cmdDoorbell
  simp

@[simp] theorem State.rpLinks_evtDoorbell (s : State) (h : Nat) :
    (s.evtDoorbell h).rpLinks = s.rpLinks := by
  unfold State.evtDoorbell
  simp

@[simp] theorem State.rpLinks_logDoorbell (s : State) (h : Nat) :
    (s.logDoorbell h).rpLinks = s.rpLinks := by
  unfold State.logDoorbell
  simp

@[simp] theorem State.rpLinks_streamLog (s : State) :
    s.streamLog.rpLinks = s.rpLinks := by
  unfold State.streamLog
  dsimp only
  split <;> simp

@[simp] theorem State.rpLinks_mgtRingStart (s : State) (a : Nat) :
    (s.mgtRingStart a).rpLinks = s.rpLinks := by
  unfold State.mgtRingStart
  simp

@[simp] theorem State.rpLinks_ringCfgWrite (s : State) (a v : Nat) :
    (s.ringCfgWrite a v).rpLinks = s.rpLinks := by
  unfold State.ringCfgWrite
  simp

@[simp] theorem State.rpLinks_trayNeighbour (s : State) (port ftype : Nat) (body : List Byte) :
    (s.trayNeighbour port ftype body).rpLinks = s.rpLinks := by
  unfold State.trayNeighbour
  simp

@[simp] theorem State.rpLinks_trayLink (s : State) (port : Nat) (up : Bool) :
    (s.trayLink port up).rpLinks = s.rpLinks := by
  unfold State.trayLink
  simp

@[simp] theorem State.rpLinks_pstPersist (s : State) :
    s.pstPersist.rpLinks = s.rpLinks := by
  unfold State.pstPersist
  split <;> simp

/-! ### Machine/RegWrite -/

@[simp] theorem State.rpLinks_plainRp (s : State) (a v : Nat) :
    (s.plainRp a v).rpLinks = s.rpLinks := by
  unfold State.plainRp
  split <;> simp

@[simp] theorem State.rpLinks_budWrite (s : State) (k a v : Nat) :
    (s.budWrite k a v).rpLinks = s.rpLinks := by
  unfold State.budWrite
  simp

@[simp] theorem State.rpLinks_sealWrite (s : State) (a v : Nat) :
    (s.sealWrite a v).rpLinks = s.rpLinks := by
  unfold State.sealWrite
  simp

@[simp] theorem State.rpLinks_msixWrite (s : State) (a v : Nat) :
    (s.msixWrite a v).rpLinks = s.rpLinks := by
  unfold State.msixWrite
  simp

@[simp] theorem State.rpLinks_winWrite (s : State) (i v : Nat) :
    (s.winWrite i v).rpLinks = s.rpLinks := by
  unfold State.winWrite
  simp

/-! ### Machine/Skein -/

@[simp] theorem State.rpLinks_skeinCmd (s : State) (v : Nat) (wr : Writer) :
    (s.skeinCmd v wr).rpLinks = s.rpLinks := by
  unfold State.skeinCmd
  simp

/-! ### Machine/SwitchOps -/

@[simp] theorem State.rpLinks_setEddy (s : State) (p : Nat) (l : List EddyEnt) :
    (s.setEddy p l).rpLinks = s.rpLinks := by
  unfold State.setEddy
  simp

@[simp] theorem State.rpLinks_settleEddy (s : State) (p : Nat) (l : List EddyEnt) :
    (s.settleEddy p l).rpLinks = s.rpLinks := by
  unfold State.settleEddy
  simp

@[simp] theorem State.rpLinks_abandonOutput (s : State) (p : Nat) (l : List EddyEnt) :
    (s.abandonOutput p l).rpLinks = s.rpLinks := by
  unfold State.abandonOutput
  rw [State.rpLinks_foldl _ fun t x => ?_]
  · simp
  · split <;> simp

@[simp] theorem State.rpLinks_anaCopy (s : State) (p : Nat) (entering : Bool) (c : Container) :
    (s.anaCopy p entering c).rpLinks = s.rpLinks := by
  unfold State.anaCopy
  simp

@[simp] theorem State.rpLinks_localIn (s : State) (p : Nat) (c : Container) :
    (s.localIn p c).rpLinks = s.rpLinks := by
  unfold State.localIn
  simp

@[simp] theorem State.rpLinks_homeIn (s : State) :
    s.homeIn.rpLinks = s.rpLinks := by
  unfold State.homeIn
  simp

@[simp] theorem State.rpLinks_eddyExpire (s : State) (p : Nat) :
    (s.eddyExpire p).rpLinks = s.rpLinks := by
  unfold State.eddyExpire
  simp

@[simp] theorem State.rpLinks_routeIn (s : State) (p : Nat) (c : Container) :
    (s.routeIn p c).rpLinks = s.rpLinks := by
  unfold State.routeIn
  dsimp only
  split <;> simp

@[simp] theorem State.rpLinks_loadBudgets (s : State) :
    s.loadBudgets.rpLinks = s.rpLinks := by
  unfold State.loadBudgets
  simp

@[simp] theorem State.rpLinks_frameClear (s : State) :
    s.frameClear.rpLinks = s.rpLinks := by
  unfold State.frameClear
  simp

@[simp] theorem State.rpLinks_timeStep (s : State) :
    s.timeStep.rpLinks = s.rpLinks := by
  unfold State.timeStep
  split <;> simp

@[simp] theorem State.rpLinks_powerKeep (s : State) :
    s.powerKeep.rpLinks = s.rpLinks := by
  unfold State.powerKeep
  simp

end Sys2Proof.Machine
end

section
/-! Which registers an operation leaves as they were. -/

namespace Sys2Proof.Machine

open Sys2Proof Sys2Proof.Claims

theorem regsBut_refl (s : State) (p : Part) (l : List Nat) : regsBut s s p l := fun _ _ => rfl

theorem regsBut_mono {s t : State} {p : Part} {l m : List Nat} (h : regsBut s t p l) (hlm : l ⊆ m) : regsBut s t p m :=
  fun a ha => h a fun hl => ha (hlm hl)

theorem regsBut_trans {s t u : State} {p : Part} {l : List Nat} (h : regsBut s t p l) (g : regsBut t u p l) : regsBut s u p l :=
  fun a ha => (g a ha).trans (h a ha)

theorem regsBut_setReg {p : Part} {a : Nat} {l : List Nat} (s : State) (v : Nat) (h : a ∈ l) : regsBut s (s.setReg p a v) p l := by
  intro b hb
  exact State.reg_setReg_other _ _ _ _ _ _ (.inr fun hab => hb (hab ▸ h))

theorem regsBut_setFld {p : Part} {a : Nat} {l : List Nat} (s : State) (lo len v : Nat) (h : a ∈ l) :
    regsBut s (s.setFld p a lo len v) p l := regsBut_setReg s _ h

theorem regsBut_setFlag {p : Part} {a : Nat} {l : List Nat} (s : State) (i : Nat) (b : Bool) (h : a ∈ l) :
    regsBut s (s.setFlag p a i b) p l := regsBut_setReg s _ h

theorem regsBut_satFld {p : Part} {a : Nat} {l : List Nat} (s : State) (lo len n : Nat) (h : a ∈ l) :
    regsBut s (s.satFld p a lo len n) p l := regsBut_setReg s _ h

/-- Registers are as before where the table of registers is. -/
theorem State.reg_of_regs {s t : State} (h : t.rp.regs = s.rp.regs) (a : Nat) : t.reg .ronpex a = s.reg .ronpex a := by
  simp [State.reg, Ronpex.reg, h]

theorem regsBut_of_regs {s t : State} {l : List Nat} (h : t.rp.regs = s.rp.regs) : regsBut s t .ronpex l :=
  fun a _ => State.reg_of_regs h a

theorem State.reg_of_epRegs {s t : State} (h : t.ep.regs = s.ep.regs) (a : Nat) : t.reg .plocen a = s.reg .plocen a := by
  simp [State.reg, Plocen.reg, h]

theorem regsBut_of_epRegs {s t : State} {l : List Nat} (h : t.ep.regs = s.ep.regs) : regsBut s t .plocen l :=
  fun a _ => State.reg_of_epRegs h a

end Sys2Proof.Machine
end

section
/-! What leaves the registers of the Ronpex as they are, but for those that its reports are counted in: every operation that writes no
register of its own. One lemma for each, in the order and under the names of the model's files. -/

namespace Sys2Proof.Machine

open Sys2Proof Sys2Proof.Claims

/-- The registers that reports are counted in: LOG.LOST, MGT.EVT_OVF and the pending bits of the MSI-X vectors. -/
def reportRegs : List Nat := [Reg.logLost, Reg.mgtEvtOvf, Reg.mgtMsixPba 0]

/-- A table of registers of the Ronpex, without the registers that reports are counted in. -/
def unreported (m : SMap Word) (a : Nat) : Nat := if a ∈ reportRegs then 0 else (SMap.look rpDefault m a).toNat

/-- The registers of the Ronpex, without those that reports are counted in. -/
def State.rpRegs (s : State) : Nat → Nat := unreported s.rp.regs

@[simp] theorem State.unreported_regs (s : State) : unreported s.rp.regs = s.rpRegs := by rw [State.rpRegs]

@[simp] theorem State.rpRegs_mk (n f : Nat) (l : List Instr) (o : List Out) (m : SMap Byte) (r : Ronpex) (e : Plocen) :
    State.rpRegs { now := n, free := f, pending := l, out := o, hbm := m, rp := r, ep := e } = unreported r.regs := by rw [State.rpRegs]

theorem State.reg_of_rpRegs {s t : State} (h : t.rpRegs = s.rpRegs) {a : Nat} (ha : a ∉ reportRegs) :
    t.reg .ronpex a = s.reg .ronpex a := by
  have := congrFun h a
  simpa [State.rpRegs, unreported, ha, State.reg, Ronpex.reg] using this

theorem regsBut_of_rpRegs {s t : State} (h : t.rpRegs = s.rpRegs) : regsBut s t .ronpex reportRegs :=
  fun _ ha => State.reg_of_rpRegs h ha

theorem State.rpRegs_of_regsBut {s t : State} (h : regsBut s t .ronpex reportRegs) : t.rpRegs = s.rpRegs := by
  funext a
  by_cases ha : a ∈ reportRegs
  · simp [State.rpRegs, unreported, ha]
  · have := h a ha
    simpa [State.rpRegs, unreported, ha, State.reg, Ronpex.reg] using this

theorem State.rpRegs_setReg (s : State) {a : Nat} (v : Nat) (h : a ∈ reportRegs) : (s.setReg .ronpex a v).rpRegs = s.rpRegs :=
  State.rpRegs_of_regsBut (regsBut_setReg s v h)

theorem State.rpRegs_setFlag (s : State) {a : Nat} (i : Nat) (b : Bool) (h : a ∈ reportRegs) :
    (s.setFlag .ronpex a i b).rpRegs = s.rpRegs := State.rpRegs_of_regsBut (regsBut_setFlag s i b h)

theorem State.rpRegs_satFld (s : State) {a : Nat} (lo len n : Nat) (h : a ∈ reportRegs) :
    (s.satFld .ronpex a lo len n).rpRegs = s.rpRegs := State.rpRegs_of_regsBut (regsBut_satFld s lo len n h)

@[simp] theorem State.rpRegs_ite (c : Prop) [Decidable c] (a b : State) :
    (if c then a else b).rpRegs = if c then a.rpRegs else b.rpRegs := by
  split <;> rfl

@[simp] theorem State.rpRegs_foldl {α : Type} (g : State → α → State) (h : ∀ t x, (g t x).rpRegs = t.rpRegs) (l : List α)
    (s : State) : (l.foldl g s).rpRegs = s.rpRegs := by
  induction l generalizing s with
  | nil => rfl
  | cons x r ih => rw [List.foldl_cons, ih, h]

theorem State.rpRegs_getD (o : Option State) (s : State) (h : ∀ t, o = some t → t.rpRegs = s.rpRegs) :
    (o.getD s).rpRegs = s.rpRegs := by
  cases o with
  | none => rfl
  | some t => exact h t rfl

/-! ### Machine/Ops -/

@[simp] theorem State.rpRegs_setLink (s : State) (port : Nat) (l : Link) :
    (s.setLink .ronpex port l).rpRegs = s.rpRegs := by
  unfold State.setLink
  simp

@[simp] theorem State.rpRegs_modLink (s : State) (port : Nat) (f : Link → Link) :
    (s.modLink .ronpex port f).rpRegs = s.rpRegs := by
  unfold State.modLink
  simp

@[simp] theorem State.rpRegs_setSec (s : State) (x : Security) :
    (s.setSec .ronpex x).rpRegs = s.rpRegs := by
  unfold State.setSec
  simp

@[simp] theorem State.rpRegs_setTimeSt (s : State) (t : TimeSt) :
    (s.setTimeSt .ronpex t).rpRegs = s.rpRegs := by
  unfold State.setTimeSt
  simp

@[simp] theorem State.rpRegs_setOrders (s : State) (o : Orders) :
    (s.setOrders .ronpex o).rpRegs = s.rpRegs := by
  unfold State.setOrders
  simp

@[simp] theorem State.rpRegs_setSource (s : State) (x : Source) :
    (s.setSource .ronpex x).rpRegs = s.rpRegs := by
  unfold State.setSource
  simp

@[simp] theorem State.rpRegs_setDest (s : State) (x : Dest) :
    (s.setDest .ronpex x).rpRegs = s.rpRegs := by
  unfold State.setDest
  simp

@[simp] theorem State.rpRegs_hbmWrite (s : State) (a : Nat) (d : List Byte) :
    (s.hbmWrite a d).rpRegs = s.rpRegs := by
  unfold State.hbmWrite
  simp

@[simp] theorem State.rpRegs_hbmZero (s : State) (a n : Nat) :
    (s.hbmZero a n).rpRegs = s.rpRegs := by
  unfold State.hbmZero
  simp

@[simp] theorem State.rpRegs_draw (s : State) :
    s.draw.2.rpRegs = s.rpRegs := by
  unfold State.draw
  simp

@[simp] theorem State.rpRegs_emit (s : State) (o : Out) :
    (s.emit o).rpRegs = s.rpRegs := by
  unfold State.emit
  simp

@[simp] theorem State.rpRegs_msix (s : State) (v : Nat) :
    (s.msix v).rpRegs = s.rpRegs := by
  unfold State.msix
  split
  · exact State.rpRegs_setFlag _ _ _ (by simp [reportRegs])
  · simp

@[simp] theorem State.rpRegs_rpLog (s : State) (b : LogBody) :
    (s.rpLog b).rpRegs = s.rpRegs := by
  unfold State.rpLog
  split
  · rfl
  · exact (State.rpRegs_satFld _ _ _ _ (by simp [reportRegs])).trans (by simp)

@[simp] theorem State.rpRegs_rpCond (s : State) (code origin requester port skein addr old new : Nat) :
    (s.rpCond code origin requester port skein addr old new).rpRegs = s.rpRegs := by
  unfold State.rpCond
  simp

@[simp] theorem State.rpRegs_evtWrite (s : State) (e : Event) :
    (s.evtWrite e).rpRegs = s.rpRegs := by
  unfold State.evtWrite
  simp

@[simp] theorem State.rpRegs_evtOverflow (s : State) :
    s.evtOverflow.rpRegs = s.rpRegs := by
  unfold State.evtOverflow
  split
  · exact (State.rpRegs_setReg _ _ (by simp [reportRegs])).trans (by simp)
  · rfl

@[simp] theorem State.rpRegs_post (s : State) (e : Event) :
    (s.post e).rpRegs = s.rpRegs := by
  unfold State.post
  split
  · split
    · simp
    · exact State.rpRegs_satFld _ _ _ _ (by simp [reportRegs])
  · dsimp only
    split
    · simp
    · exact (State.rpRegs_satFld _ _ _ _ (by simp [reportRegs])).trans (by simp)

@[simp] theorem State.rpRegs_postFor (s : State) (e : Event) (scope : Nat) (skeins : List Nat) :
    (s.postFor e scope skeins).rpRegs = s.rpRegs := by
  unfold State.postFor
  simp

@[simp] theorem State.rpRegs_pstCell (s : State) (a v : Nat) :
    (s.pstCell a v).rpRegs = s.rpRegs := by
  unfold State.pstCell
  simp

theorem State.rpRegs_genAdvance (s : State) (i : Nat) :
    ∀ t, s.genAdvance i = some t → t.rpRegs = s.rpRegs := by
  unfold State.genAdvance
  simp

@[simp] theorem State.rpRegs_pstCount (s : State) (a lo len : Nat) :
    (s.pstCount a lo len).rpRegs = s.rpRegs := by
  unfold State.pstCount
  simp

@[simp] theorem State.rpRegs_modUnits (s : State) (f : Units → Units) :
    (s.modUnits f).rpRegs = s.rpRegs := by
  unfold State.modUnits
  simp

@[simp] theorem State.rpRegs_setUnit (s : State) (i cause qstep : Nat) :
    (s.setUnit i cause qstep).rpRegs = s.rpRegs := by
  unfold State.setUnit
  simp

@[simp] theorem State.rpRegs_modFm (s : State) (f : Fmem → Fmem) :
    (s.modFm f).rpRegs = s.rpRegs := by
  unfold State.modFm
  simp

@[simp] theorem State.rpRegs_settleLine (s : State) (line : Nat) :
    (s.settleLine line).rpRegs = s.rpRegs := by
  unfold State.settleLine
  simp

@[simp] theorem State.rpRegs_sealLines (s : State) (lines : List Nat) :
    (s.sealLines lines).rpRegs = s.rpRegs := by
  unfold State.sealLines
  simp

@[simp] theorem State.rpRegs_memWrite (s : State) (a : Nat) (d : List Byte) :
    (s.memWrite a d).rpRegs = s.rpRegs := by
  unfold State.memWrite
  simp

@[simp] theorem State.rpRegs_memZero (s : State) (a n : Nat) :
    (s.memZero a n).rpRegs = s.rpRegs := by
  unfold State.memZero
  simp

/-! ### Machine/Route -/

@[simp] theorem State.rpRegs_offer (s : State) (port : Nat) (x : EddyEnt) :
    (s.offer port x).rpRegs = s.rpRegs := by
  unfold State.offer
  simp

@[simp] theorem State.rpRegs_modWarp (s : State) (f : Warp → Warp) :
    (s.modWarp f).rpRegs = s.rpRegs := by
  unfold State.modWarp
  simp

@[simp] theorem State.rpRegs_logUnrouted (s : State) (p : Nat) (c : Container) :
    (s.logUnrouted p c).rpRegs = s.rpRegs := by
  unfold State.logUnrouted
  simp

@[simp] theorem State.rpRegs_goHome (s : State) (c : Container) :
    (s.goHome c).rpRegs = s.rpRegs := by
  unfold State.goHome
  simp

@[simp] theorem State.rpRegs_reflect (s : State) (x : EddyEnt) (noPath : Bool) :
    (s.reflect x noPath).rpRegs = s.rpRegs := by
  unfold State.reflect
  dsimp only
  repeat' split
  all_goals simp

@[simp] theorem State.rpRegs_divert (s : State) (o : Nat) (x : EddyEnt) :
    (s.divert o x).rpRegs = s.rpRegs := by
  unfold State.divert
  dsimp only
  repeat' split
  all_goals simp

@[simp] theorem State.rpRegs_toOutput (s : State) (r : Route) (x : EddyEnt) :
    (s.toOutput r x).rpRegs = s.rpRegs := by
  unfold State.toOutput
  repeat' split
  all_goals simp

/-! ### Machine/Send -/

@[simp] theorem State.rpRegs_hold (s : State) (dest skein plane planes : Nat) (loc : HeldAt) (m : Msg) (own : Owner) :
    (s.hold .ronpex dest skein plane planes loc m own).1.rpRegs = s.rpRegs := by
  unfold State.hold
  simp

@[simp] theorem State.rpRegs_rpSend (s : State) (h : Held) :
    (s.rpSend h).rpRegs = s.rpRegs := by
  unfold State.rpSend
  simp

@[simp] theorem State.rpRegs_rpPush (s : State) :
    s.rpPush.rpRegs = s.rpRegs := by
  unfold State.rpPush
  simp

@[simp] theorem State.rpRegs_rpMgmtPort (s : State) (port dest : Nat) (m : Mgmt) (own : Owner) :
    (s.rpMgmtPort port dest m own).rpRegs = s.rpRegs := by
  unfold State.rpMgmtPort
  simp

@[simp] theorem State.rpRegs_rpMgmtNode (s : State) (dest : Nat) (m : Mgmt) (own : Owner) :
    (s.rpMgmtNode dest m own).rpRegs = s.rpRegs := by
  unfold State.rpMgmtNode
  simp

@[simp] theorem State.rpRegs_relaySend (s : State) (m node hank skein value : Nat) :
    (s.relaySend m node hank skein value).rpRegs = s.rpRegs := by
  unfold State.relaySend
  simp

/-! ### Machine/Flags -/

@[simp] theorem State.rpRegs_viaAttach (s : State) (f : State → State) (h : ∀ t, (f t).rpRegs = t.rpRegs) :
    (s.viaAttach f).rpRegs = s.rpRegs := by
  unfold State.viaAttach
  simp [h]

@[simp] theorem State.rpRegs_errsumMsix (s before : State) :
    (s.errsumMsix before).rpRegs = s.rpRegs := by
  unfold State.errsumMsix
  simp

/-! ### Machine/OrderOps -/

@[simp] theorem State.rpRegs_modTray (s : State) (f : Tray → Tray) :
    (s.modTray f).rpRegs = s.rpRegs := by
  unfold State.modTray
  simp

@[simp] theorem State.rpRegs_trayOut (s : State) (port : Nat) (f : TrayFrame) :
    (s.trayOut port f).rpRegs = s.rpRegs := by
  unfold State.trayOut
  simp

@[simp] theorem State.rpRegs_trayMgmt (s : State) (m : Mgmt) :
    (s.trayMgmt m).rpRegs = s.rpRegs := by
  unfold State.trayMgmt
  simp

@[simp] theorem State.rpRegs_toEndPoint (s : State) (p : Nat) (m : Mgmt) :
    (s.toEndPoint p m).rpRegs = s.rpRegs := by
  unfold State.toEndPoint
  simp

@[simp] theorem State.rpRegs_toFarEnd (s : State) (p : Nat) (m : Mgmt) :
    (s.toFarEnd p m).rpRegs = s.rpRegs := by
  unfold State.toFarEnd
  repeat' split
  all_goals simp

@[simp] theorem State.rpRegs_orderToMembers (s : State) (o : SwitchOrder) :
    (s.orderToMembers o).rpRegs = s.rpRegs := by
  unfold State.orderToMembers
  simp

@[simp] theorem State.rpRegs_issueOrder (s : State) (o : SwitchOrder) :
    (s.issueOrder o).rpRegs = s.rpRegs := by
  unfold State.issueOrder
  simp

@[simp] theorem State.rpRegs_unitEvent (s : State) (i : Nat) :
    (s.unitEvent i).rpRegs = s.rpRegs := by
  unfold State.unitEvent
  simp

@[simp] theorem State.rpRegs_showUnits (s : State) (quiet : Bool) (l : List Nat) :
    (s.showUnits quiet l).rpRegs = s.rpRegs := by
  unfold State.showUnits
  simp

@[simp] theorem State.rpRegs_setTally (s : State) (ph : Nat) (t : Tally) :
    (s.setTally ph t).rpRegs = s.rpRegs := by
  unfold State.setTally
  simp

@[simp] theorem State.rpRegs_addTally (s : State) (ph status inst round skein : Nat) :
    (s.addTally ph status inst round skein).rpRegs = s.rpRegs := by
  unfold State.addTally
  simp

@[simp] theorem State.rpRegs_tallyPorts (s : State) (ph : Nat) (l : List Nat) (ok : Bool) :
    (s.tallyPorts ph l ok).rpRegs = s.rpRegs := by
  unfold State.tallyPorts
  simp

@[simp] theorem State.rpRegs_tallyLost (s : State) (ph : Nat) (l : List Nat) :
    (s.tallyLost ph l).rpRegs = s.rpRegs := by
  unfold State.tallyLost
  simp

@[simp] theorem State.rpRegs_loseGroup (s : State) (n : Nat) (r : PhaseRec) (ph : Nat) :
    (s.loseGroup n r ph).rpRegs = s.rpRegs := by
  unfold State.loseGroup
  simp

@[simp] theorem State.rpRegs_loseContexts (s : State) (n : Nat) :
    (s.loseContexts n).rpRegs = s.rpRegs := by
  unfold State.loseContexts
  simp

@[simp] theorem State.rpRegs_classOrder (s : State) (c unitType unit gen : Nat) :
    (s.classOrder c unitType unit gen).rpRegs = s.rpRegs := by
  unfold State.classOrder
  simp

@[simp] theorem State.rpRegs_spindleOrder (s : State) (n : Nat) :
    (s.spindleOrder n).rpRegs = s.rpRegs := by
  unfold State.spindleOrder
  dsimp only
  repeat' split
  all_goals simp

@[simp] theorem State.rpRegs_modSk (s : State) (f : Skeins → Skeins) :
    (s.modSk f).rpRegs = s.rpRegs := by
  unfold State.modSk
  simp

@[simp] theorem State.rpRegs_sendAssign (s : State) (port : Nat) :
    (s.sendAssign port).rpRegs = s.rpRegs := by
  unfold State.sendAssign
  simp

@[simp] theorem State.rpRegs_sendSlots (s : State) :
    s.sendSlots.rpRegs = s.rpRegs := by
  unfold State.sendSlots
  simp

/-! ### Machine/CmdOps -/

@[simp] theorem State.rpRegs_modMgmt (s : State) (f : MgmtRings → MgmtRings) :
    (s.modMgmt f).rpRegs = s.rpRegs := by
  unfold State.modMgmt
  simp

@[simp] theorem State.rpRegs_cmdEvent (s : State) (r : Running) (status detail : Nat) :
    (s.cmdEvent r status detail).rpRegs = s.rpRegs := by
  unfold State.cmdEvent
  simp

@[simp] theorem State.rpRegs_cmdNext (s : State) :
    s.cmdNext.rpRegs = s.rpRegs := by
  unfold State.cmdNext
  simp

@[simp] theorem State.rpRegs_cmdDone (s : State) (status detail : Nat) :
    (s.cmdDone status detail).rpRegs = s.rpRegs := by
  unfold State.cmdDone
  split <;> simp

@[simp] theorem State.rpRegs_cmdWaited (s : State) (w : CmdWait) (status detail : Nat) :
    (s.cmdWaited w status detail).rpRegs = s.rpRegs := by
  unfold State.cmdWaited
  simp

@[simp] theorem State.rpRegs_sendOver (s : State) (id : Nat) (lost : Bool) :
    (s.sendOver id lost).rpRegs = s.rpRegs := by
  unfold State.sendOver
  split <;> simp

/-! ### Machine/WeftAnswer -/

@[simp] theorem State.rpRegs_modSource (s : State) (f : Source → Source) :
    (s.modSource .ronpex f).rpRegs = s.rpRegs := by
  unfold State.modSource
  simp

@[simp] theorem State.rpRegs_modHeld (s : State) (id : Nat) (f : Held → Held) :
    (s.modHeld .ronpex id f).rpRegs = s.rpRegs := by
  unfold State.modHeld
  simp

@[simp] theorem State.rpRegs_takeWin (s : State) (node plane win : Nat) :
    (s.takeWin .ronpex node plane win).rpRegs = s.rpRegs := by
  unfold State.takeWin
  simp

@[simp] theorem State.rpRegs_dropHeld (s : State) (h : Held) :
    (s.dropHeld .ronpex h).rpRegs = s.rpRegs := by
  unfold State.dropHeld
  simp

/-! ### Machine/EpOrders -/

@[simp] theorem State.rpRegs_snapEvent (s : State) (number missed : Nat) :
    (s.snapEvent .ronpex number missed).rpRegs = s.rpRegs := by
  unfold State.snapEvent
  simp

/-! ### Machine/RpOrders -/

@[simp] theorem State.rpRegs_rpOrderIn (s : State) (src : MgmtSource) (o : SwitchOrder) :
    (s.rpOrderIn src o).rpRegs = s.rpRegs := by
  unfold State.rpOrderIn
  split <;> simp

@[simp] theorem State.rpRegs_loadMaps (s : State) :
    s.loadMaps.rpRegs = s.rpRegs := by
  unfold State.loadMaps
  simp

@[simp] theorem State.rpRegs_powerEvent (s : State) :
    s.powerEvent.rpRegs = s.rpRegs := by
  unfold State.powerEvent
  simp

@[simp] theorem State.rpRegs_toAllPorts (s : State) (m : Mgmt) :
    (s.toAllPorts m).rpRegs = s.rpRegs := by
  unfold State.toAllPorts
  simp

@[simp] theorem State.rpRegs_rpEpochIn (s : State) (e eff : Nat) :
    (s.rpEpochIn e eff).rpRegs = s.rpRegs := by
  unfold State.rpEpochIn
  simp

@[simp] theorem State.rpRegs_clearFilter (s : State) :
    s.clearFilter.rpRegs = s.rpRegs := by
  unfold State.clearFilter
  simp

@[simp] theorem State.rpRegs_reportIn (s : State) (node : Nat) (r : Report) :
    (s.reportIn node r).rpRegs = s.rpRegs := by
  unfold State.reportIn
  dsimp only
  repeat' split
  all_goals simp

@[simp] theorem State.rpRegs_rpPathLoss (s : State) (tL : Nat) :
    (s.rpPathLoss tL).rpRegs = s.rpRegs := by
  unfold State.rpPathLoss
  simp

@[simp] theorem State.rpRegs_rpLogCopy (s : State) (node : Nat) (b : LogBody) :
    (s.rpLogCopy node b).rpRegs = s.rpRegs := by
  unfold State.rpLogCopy
  simp

/-! ### Machine/WeftDest -/

@[simp] theorem State.rpRegs_recExpire (s : State) (node : Nat) :
    (s.recExpire .ronpex node).rpRegs = s.rpRegs := by
  unfold State.recExpire
  dsimp only
  split <;> simp

@[simp] theorem State.rpRegs_ctxExpire (s : State) (node stream : Nat) :
    (s.ctxExpire .ronpex node stream).rpRegs = s.rpRegs := by
  unfold State.ctxExpire
  simp

@[simp] theorem State.rpRegs_cacheExpire (s : State) :
    (s.cacheExpire .ronpex).rpRegs = s.rpRegs := by
  unfold State.cacheExpire
  simp

/-! ### Machine/FaultOps -/

@[simp] theorem State.rpRegs_portOrder (s : State) (p : Nat) :
    (s.portOrder p).rpRegs = s.rpRegs := by
  unfold State.portOrder
  simp

@[simp] theorem State.rpRegs_fenceLog (s : State) (i origin requester what : Nat) :
    (s.fenceLog i origin requester what).rpRegs = s.rpRegs := by
  unfold State.fenceLog
  simp

@[simp] theorem State.rpRegs_hardFence (s : State) (i cause : Nat) :
    (s.hardFence i cause).rpRegs = s.rpRegs := by
  unfold State.hardFence
  simp

@[simp] theorem State.rpRegs_stopClock (s : State) (port : Nat) :
    (s.stopClock .ronpex port).rpRegs = s.rpRegs := by
  unfold State.stopClock
  simp

@[simp] theorem State.rpRegs_holdBack (s : State) (i : Nat) :
    (s.holdBack i).rpRegs = s.rpRegs := by
  unfold State.holdBack
  simp

@[simp] theorem State.rpRegs_portEvent (s : State) (port sub cause w : Nat) :
    (s.portEvent port sub cause w).rpRegs = s.rpRegs := by
  unfold State.portEvent
  simp

@[simp] theorem State.rpRegs_lossNotice (s : State) (port : Nat) :
    (s.lossNotice port).rpRegs = s.rpRegs := by
  unfold State.lossNotice
  simp

@[simp] theorem State.rpRegs_pstDrain (s : State) (a : Nat) :
    (s.pstDrain a).rpRegs = s.rpRegs := by
  unfold State.pstDrain
  simp

theorem State.rpRegs_newLife (s : State) (i : Nat) :
    ∀ t, s.newLife i = some t → t.rpRegs = s.rpRegs := by
  intro t ht
  rw [State.newLife] at ht
  obtain ⟨u, hu, hut⟩ := Option.bind_eq_some_iff.mp ht
  have hus := s.rpRegs_genAdvance i u hu
  split at hut
  · exact (State.rpRegs_genAdvance _ _ t hut).trans hus
  · cases hut
    exact hus

@[simp] theorem State.rpRegs_partEventFor (s : State) (type n state cause : Nat) (skeins : List Nat) :
    (s.partEventFor type n state cause skeins).rpRegs = s.rpRegs := by
  unfold State.partEventFor
  simp

@[simp] theorem State.rpRegs_partEvent (s : State) (type n state cause : Nat) :
    (s.partEvent type n state cause).rpRegs = s.rpRegs := by
  unfold State.partEvent
  simp

@[simp] theorem State.rpRegs_loseEddies (s : State) (l : List Nat) :
    (s.loseEddies l).rpRegs = s.rpRegs := by
  unfold State.loseEddies
  simp

/-! ### Machine/FmemOps -/

@[simp] theorem State.rpRegs_modFmDest (s : State) (f : Dest → Dest) :
    (s.modFmDest f).rpRegs = s.rpRegs := by
  unfold State.modFmDest
  simp

@[simp] theorem State.rpRegs_fmCharge (s : State) (a : Arrival) :
    (s.fmCharge a).rpRegs = s.rpRegs := by
  unfold State.fmCharge
  simp

@[simp] theorem State.rpRegs_agentLeave (s : State) (entry : Option Nat) :
    (s.agentLeave entry).rpRegs = s.rpRegs := by
  unfold State.agentLeave
  simp

@[simp] theorem State.rpRegs_agentOffer (s : State) (c : Container) (entry : Nat) :
    (s.agentOffer c entry).rpRegs = s.rpRegs := by
  unfold State.agentOffer
  repeat' split
  all_goals simp

@[simp] theorem State.rpRegs_agentReply (s : State) (a : Arrival) (opc : Nat) (data : List Byte) :
    (s.agentReply a opc data).rpRegs = s.rpRegs := by
  unfold State.agentReply
  simp

@[simp] theorem State.rpRegs_sealedRelease (s : State) :
    s.sealedRelease.rpRegs = s.rpRegs := by
  unfold State.sealedRelease
  simp

@[simp] theorem State.rpRegs_relayFire (s : State) (m : Nat) :
    (s.relayFire m).rpRegs = s.rpRegs := by
  unfold State.relayFire
  dsimp only
  repeat' split
  all_goals simp

@[simp] theorem State.rpRegs_hcntSet (s : State) (n v : Nat) :
    (s.hcntSet n v).rpRegs = s.rpRegs := by
  unfold State.hcntSet
  simp

@[simp] theorem State.rpRegs_agentLost (s : State) (a : Arrival) :
    (s.agentLost a).rpRegs = s.rpRegs := by
  unfold State.agentLost
  simp

@[simp] theorem State.rpRegs_agentDone (s : State) (a : Arrival) (opc : Nat) (data : List Byte) :
    (s.agentDone a opc data).rpRegs = s.rpRegs := by
  unfold State.agentDone
  simp

@[simp] theorem State.rpRegs_zeroOn (s : State) :
    s.zeroOn.rpRegs = s.rpRegs := by
  unfold State.zeroOn
  simp

@[simp] theorem State.rpRegs_relaysGo (s : State) :
    s.relaysGo.rpRegs = s.rpRegs := by
  unfold State.relaysGo
  simp

@[simp] theorem State.rpRegs_agentReflect (s : State) (port : Nat) (c : Container) :
    (s.agentReflect port c).rpRegs = s.rpRegs := by
  unfold State.agentReflect
  simp

/-! ### Machine/RpWarpOps -/

@[simp] theorem State.rpRegs_modSpindle (s : State) (n : Nat) (f : SpindleSt → SpindleSt) :
    (s.modSpindle n f).rpRegs = s.rpRegs := by
  unfold State.modSpindle
  simp

@[simp] theorem State.rpRegs_fly (s : State) (slots : Nat) (dst : FlightTo) (what : Contrib) :
    (s.fly slots dst what).rpRegs = s.rpRegs := by
  unfold State.fly
  simp

@[simp] theorem State.rpRegs_toSpindle (s : State) (p c l : Nat) (what : Contrib) :
    (s.toSpindle p c l what).rpRegs = s.rpRegs := by
  unfold State.toSpindle
  split <;> simp

@[simp] theorem State.rpRegs_toPort (s : State) (p l : Nat) (what : Contrib) :
    (s.toPort p l what).rpRegs = s.rpRegs := by
  unfold State.toPort
  split <;> simp

@[simp] theorem State.rpRegs_movesNot (s : State) (c : Nat) (l : List Nat) (what : Contrib) :
    (s.movesNot c l what).rpRegs = s.rpRegs := by
  unfold State.movesNot
  split <;> simp

@[simp] theorem State.rpRegs_deliverAt (s : State) (p e : Nat) (what : Contrib) :
    (s.deliverAt p e what).rpRegs = s.rpRegs := by
  unfold State.deliverAt
  dsimp only
  split <;> simp

@[simp] theorem State.rpRegs_hear (s : State) (p : Nat) :
    (s.hear p).rpRegs = s.rpRegs := by
  unfold State.hear
  simp

@[simp] theorem State.rpRegs_logOnce (s : State) (p code : Nat) (f : State → State) (h : ∀ t, (f t).rpRegs = t.rpRegs) :
    (s.logOnce p code f).rpRegs = s.rpRegs := by
  unfold State.logOnce
  simp [h]

@[simp] theorem State.rpRegs_slotMismatch (s : State) (p kind src skein use : Nat) :
    (s.slotMismatch p kind src skein use).rpRegs = s.rpRegs := by
  unfold State.slotMismatch
  simp

@[simp] theorem State.rpRegs_skeinGate (s : State) (p kind src skein : Nat) (exempt : Bool) :
    (s.skeinGate p kind src skein exempt).2.rpRegs = s.rpRegs := by
  unfold State.skeinGate
  dsimp only
  repeat' split
  all_goals simp

@[simp] theorem State.rpRegs_quarTraffic (s : State) (p src skein : Nat) :
    (s.quarTraffic p src skein).rpRegs = s.rpRegs := by
  unfold State.quarTraffic
  simp

@[simp] theorem State.rpRegs_noteReady (s : State) (c : WarpCell) :
    (s.noteReady c).rpRegs = s.rpRegs := by
  unfold State.noteReady
  split <;> simp

@[simp] theorem State.rpRegs_rpEmptyIn (s : State) (p : Nat) :
    (s.rpEmptyIn p).rpRegs = s.rpRegs := by
  unfold State.rpEmptyIn
  simp

@[simp] theorem State.rpRegs_missingIn (s : State) :
    s.missingIn.rpRegs = s.rpRegs := by
  unfold State.missingIn
  simp

@[simp] theorem State.rpRegs_shadowOwed (s : State) (pat n : Nat) :
    (s.shadowOwed pat n).rpRegs = s.rpRegs := by
  unfold State.shadowOwed
  simp

@[simp] theorem State.rpRegs_shadowWrite (s : State) (pat skein a : Nat) (d : List Byte) :
    (s.shadowWrite pat skein a d).rpRegs = s.rpRegs := by
  unfold State.shadowWrite
  simp

@[simp] theorem State.rpRegs_shadowTallies (s : State) :
    s.shadowTallies.rpRegs = s.rpRegs := by
  unfold State.shadowTallies
  dsimp only
  rw [State.rpRegs_foldl _ fun t e => ?_]
  · simp
  · split
    · rfl
    · split <;> simp

@[simp] theorem State.rpRegs_shadowCell (s : State) (c : WarpCell) :
    (s.shadowCell c).rpRegs = s.rpRegs := by
  unfold State.shadowCell
  split <;> simp

@[simp] theorem State.rpRegs_moveTally (s : State) (c : WarpCell) :
    (s.moveTally c).1.rpRegs = s.rpRegs := by
  unfold State.moveTally
  repeat' split
  all_goals simp

@[simp] theorem State.rpRegs_rpWarpIn (s : State) (p : Nat) (c : WarpCell) :
    (s.rpWarpIn p c).rpRegs = s.rpRegs := by
  unfold State.rpWarpIn
  simp

@[simp] theorem State.rpRegs_closeGroup (s : State) (n : Nat) (r : PhaseRec) (x : AccCtx) :
    (s.closeGroup n r x).rpRegs = s.rpRegs := by
  unfold State.closeGroup
  split <;> simp

@[simp] theorem State.rpRegs_spinBudget (s : State) (n : Nat) (what : Contrib) :
    (s.spinBudget n what).2.rpRegs = s.rpRegs := by
  unfold State.spinBudget
  dsimp only
  repeat' split
  all_goals simp

@[simp] theorem State.rpRegs_spindleTraffic (s : State) (n : Nat) (x : Contrib) :
    (s.spindleTraffic n x).rpRegs = s.rpRegs := by
  unfold State.spindleTraffic
  split <;> simp

@[simp] theorem State.rpRegs_emitCell (s : State) (n : Nat) (c : WarpCell) :
    (s.emitCell n c).rpRegs = s.rpRegs := by
  unfold State.emitCell
  dsimp only
  split <;> simp

@[simp] theorem State.rpRegs_spindleEmit (s : State) (n : Nat) :
    (s.spindleEmit n).rpRegs = s.rpRegs := by
  unfold State.spindleEmit
  repeat' split
  all_goals simp

@[simp] theorem State.rpRegs_anchorsIn (s : State) (n : Nat) (c : WarpCell) :
    (s.anchorsIn n c).rpRegs = s.rpRegs := by
  unfold State.anchorsIn
  simp

@[simp] theorem State.rpRegs_delivered (s : State) (p : Nat) (c : WarpCell) (ok : Bool) :
    (s.delivered p c ok).rpRegs = s.rpRegs := by
  unfold State.delivered
  simp

@[simp] theorem State.rpRegs_flightsDone (s : State) :
    s.flightsDone.rpRegs = s.rpRegs := by
  unfold State.flightsDone
  simp

/-! ### Machine/LinkOps -/

@[simp] theorem State.rpRegs_lmcPush (s : State) (port : Nat) (l : List LmcMsg) :
    (s.lmcPush .ronpex port l).rpRegs = s.rpRegs := by
  unfold State.lmcPush
  simp

@[simp] theorem State.rpRegs_tuneWls (s : State) (port : Nat) (ws : List Nat) :
    (s.tuneWls .ronpex port ws).rpRegs = s.rpRegs := by
  unfold State.tuneWls
  simp

@[simp] theorem State.rpRegs_swapEvent (s : State) (port reason w : Nat) :
    (s.swapEvent .ronpex port reason w).rpRegs = s.rpRegs := by
  unfold State.swapEvent
  simp

@[simp] theorem State.rpRegs_swapAckIn (s : State) (port lane frame : Nat) :
    (s.swapAckIn .ronpex port lane frame).rpRegs = s.rpRegs := by
  unfold State.swapAckIn
  simp

@[simp] theorem State.rpRegs_lightOut (s : State) (port : Nat) :
    (s.lightOut .ronpex port).rpRegs = s.rpRegs := by
  unfold State.lightOut
  simp

@[simp] theorem State.rpRegs_lightBack (s : State) (port : Nat) :
    (s.lightBack .ronpex port).rpRegs = s.rpRegs := by
  unfold State.lightBack
  split <;> simp

@[simp] theorem State.rpRegs_timeEvent (s : State) (case : Nat) :
    (s.timeEvent .ronpex case).rpRegs = s.rpRegs := by
  unfold State.timeEvent
  simp

@[simp] theorem State.rpRegs_syncIn (s : State) (port seq : Nat) (locked master : Bool) (depth time16 recv16 : Nat) :
    (s.syncIn .ronpex port seq locked master depth time16 recv16).rpRegs = s.rpRegs := by
  unfold State.syncIn
  simp

/-! ### Machine/KeyOps -/

@[simp] theorem State.rpRegs_modKeys (s : State) (port : Nat) (f : LinkKeys → LinkKeys) :
    (s.modKeys .ronpex port f).rpRegs = s.rpRegs := by
  unfold State.modKeys
  simp

@[simp] theorem State.rpRegs_sendSig (s : State) (port : Nat) :
    (s.sendSig .ronpex port).rpRegs = s.rpRegs := by
  unfold State.sendSig
  split <;> simp

@[simp] theorem State.rpRegs_beginKeys (s : State) (port : Nat) (cert : Bool) :
    (s.beginKeys .ronpex port cert).rpRegs = s.rpRegs := by
  unfold State.beginKeys
  simp

@[simp] theorem State.rpRegs_rekey (s : State) (port : Nat) :
    (s.rekey .ronpex port).rpRegs = s.rpRegs := by
  unfold State.rekey
  simp

@[simp] theorem State.rpRegs_switchIn (s : State) (port gen frame : Nat) :
    (s.switchIn .ronpex port gen frame).rpRegs = s.rpRegs := by
  unfold State.switchIn
  simp

@[simp] theorem State.rpRegs_switchAckIn (s : State) (port gen frame : Nat) :
    (s.switchAckIn .ronpex port gen frame).rpRegs = s.rpRegs := by
  unfold State.switchAckIn
  simp

@[simp] theorem State.rpRegs_switchRetry (s : State) (port : Nat) :
    (s.switchRetry .ronpex port).rpRegs = s.rpRegs := by
  unfold State.switchRetry
  dsimp only
  split <;> simp

@[simp] theorem State.rpRegs_enterStep (s : State) (port k : Nat) :
    (s.enterStep .ronpex port k).rpRegs = s.rpRegs := by
  unfold State.enterStep
  simp

@[simp] theorem State.rpRegs_stepOn (s : State) (port : Nat) :
    (s.stepOn .ronpex port).rpRegs = s.rpRegs := by
  unfold State.stepOn
  simp

@[simp] theorem State.rpRegs_receiverOn (s : State) (port : Nat) :
    (s.receiverOn .ronpex port).rpRegs = s.rpRegs := by
  unfold State.receiverOn
  simp

@[simp] theorem State.rpRegs_farStateIn (s : State) (port step : Nat) :
    (s.farStateIn .ronpex port step).rpRegs = s.rpRegs := by
  unfold State.farStateIn
  simp

@[simp] theorem State.rpRegs_delayCheck (s : State) (port : Nat) :
    (s.delayCheck port).rpRegs = s.rpRegs := by
  unfold State.delayCheck
  split <;> simp

/-! ### Machine/LightOps -/

@[simp] theorem State.rpRegs_lineOut (s : State) (port : Nat) (b : List Byte) :
    (s.lineOut .ronpex port b).rpRegs = s.rpRegs := by
  unfold State.lineOut
  dsimp only
  split
  · exact State.rpRegs_modLink _ _ _
  · rw [State.rpRegs_foldl _ fun t k => State.rpRegs_emit _ _]
    exact State.rpRegs_modLink _ _ _

@[simp] theorem State.rpRegs_countSlot (s : State) (port : Nat) (fill busy : Bool) :
    (s.countSlot .ronpex port fill busy).rpRegs = s.rpRegs := by
  unfold State.countSlot
  simp

@[simp] theorem State.rpRegs_patternOut (s : State) (port : Nat) (k : Prbs) (restart : Bool) (w : Nat) :
    (s.patternOut .ronpex port k restart w).rpRegs = s.rpRegs := by
  unfold State.patternOut
  simp

@[simp] theorem State.rpRegs_patternSlot (s : State) (port : Nat) :
    (s.patternSlot .ronpex port).rpRegs = s.rpRegs := by
  unfold State.patternSlot
  split <;> simp

@[simp] theorem State.rpRegs_burstOut (s : State) (port : Nat) :
    (s.burstOut .ronpex port).rpRegs = s.rpRegs := by
  unfold State.burstOut
  simp

@[simp] theorem State.rpRegs_deskewOut (s : State) (port : Nat) :
    (s.deskewOut .ronpex port).rpRegs = s.rpRegs := by
  unfold State.deskewOut
  simp

/-! ### Machine/LaserOps -/

@[simp] theorem State.rpRegs_modLas (s : State) (f : Lasers → Lasers) :
    (s.modLas f).rpRegs = s.rpRegs := by
  unfold State.modLas
  simp

@[simp] theorem State.rpRegs_lasSend (s : State) (m : Nat) :
    (s.lasSend m).rpRegs = s.rpRegs := by
  unfold State.lasSend
  split <;> simp

@[simp] theorem State.rpRegs_lasAsk (s : State) (m : Nat) (write : Bool) (addr data : Nat) (user : Bool) :
    (s.lasAsk m write addr data user).rpRegs = s.rpRegs := by
  unfold State.lasAsk
  simp

@[simp] theorem State.rpRegs_lasNext (s : State) (m : Nat) :
    (s.lasNext m).rpRegs = s.rpRegs := by
  unfold State.lasNext
  simp

@[simp] theorem State.rpRegs_lasFollow (s : State) (m w : Nat) :
    (s.lasFollow m w).rpRegs = s.rpRegs := by
  unfold State.lasFollow
  simp

@[simp] theorem State.rpRegs_lasFollowed (s : State) :
    s.lasFollowed.rpRegs = s.rpRegs := by
  unfold State.lasFollowed
  simp

@[simp] theorem State.rpRegs_feedEvent (s : State) (e mask : Nat) :
    (s.feedEvent e mask).rpRegs = s.rpRegs := by
  unfold State.feedEvent
  simp

@[simp] theorem State.rpRegs_recordBias (s : State) (m w bias : Nat) (emitterB : Bool) :
    (s.recordBias m w bias emitterB).rpRegs = s.rpRegs := by
  unfold State.recordBias
  dsimp only
  split <;> simp

@[simp] theorem State.rpRegs_lasInquire (s : State) (m w : Nat) :
    (s.lasInquire m w).rpRegs = s.rpRegs := by
  unfold State.lasInquire
  simp

/-! ### Machine/Pins -/

@[simp] theorem State.rpRegs_modTap (s : State) (f : Tap → Tap) :
    (s.modTap .ronpex f).rpRegs = s.rpRegs := by
  unfold State.modTap
  simp

/-! ### Machine/SkeinOps -/

@[simp] theorem State.rpRegs_releaseRecords (s : State) :
    s.releaseRecords.rpRegs = s.rpRegs := by
  unfold State.releaseRecords
  simp

/-! ### Machine/SecOps -/

@[simp] theorem State.rpRegs_modSec (s : State) (f : Security → Security) :
    (s.modSec .ronpex f).rpRegs = s.rpRegs := by
  unfold State.modSec
  simp

@[simp] theorem State.rpRegs_spdmReply (s : State) (session : Option Nat) (code : Nat) (body : List Byte) :
    (s.spdmReply .ronpex session code body).rpRegs = s.rpRegs := by
  unfold State.spdmReply
  simp

@[simp] theorem State.rpRegs_spdmError (s : State) (session : Option Nat) (e : Nat) :
    (s.spdmError .ronpex session e).rpRegs = s.rpRegs := by
  unfold State.spdmError
  simp

@[simp] theorem State.rpRegs_spdmAnswer (s : State) (code : Nat) (session : Option Nat) (slot : Nat) (req : List Byte) :
    (s.spdmAnswer .ronpex code session slot req).rpRegs = s.rpRegs := by
  unfold State.spdmAnswer
  simp

@[simp] theorem State.rpRegs_spdmIn (s : State) (code : Nat) (session : Option Nat) (slot : Nat) (req : List Byte) :
    (s.spdmIn .ronpex code session slot req).rpRegs = s.rpRegs := by
  unfold State.spdmIn
  simp

@[simp] theorem State.rpRegs_keyReply (s : State) (session : Option Nat) (op status : Nat) :
    (s.keyReply .ronpex session op status).rpRegs = s.rpRegs := by
  unfold State.keyReply
  simp

@[simp] theorem State.rpRegs_fwEvent (s : State) :
    (s.fwEvent .ronpex).rpRegs = s.rpRegs := by
  unfold State.fwEvent
  simp

@[simp] theorem State.rpRegs_restartLayer1 (s : State) (activating : Bool) :
    (s.restartLayer1 .ronpex activating).rpRegs = s.rpRegs := by
  unfold State.restartLayer1
  simp

@[simp] theorem State.rpRegs_raiseSvn (s : State) :
    s.raiseSvn.rpRegs = s.rpRegs := by
  unfold State.raiseSvn
  simp

/-! ### Machine/PowerOps -/

@[simp] theorem State.rpRegs_modPower (s : State) (f : Power → Power) :
    (s.modPower f).rpRegs = s.rpRegs := by
  unfold State.modPower
  simp

@[simp] theorem State.rpRegs_powerRequest (s : State) :
    s.powerRequest.rpRegs = s.rpRegs := by
  unfold State.powerRequest
  simp

@[simp] theorem State.rpRegs_sendToken (s : State) (tok : Nat) :
    (s.sendToken tok).rpRegs = s.rpRegs := by
  unfold State.sendToken
  simp

@[simp] theorem State.rpRegs_returnToken (s : State) :
    s.returnToken.rpRegs = s.rpRegs := by
  unfold State.returnToken
  split <;> simp

@[simp] theorem State.rpRegs_tokenDue (s : State) :
    s.tokenDue.rpRegs = s.rpRegs := by
  unfold State.tokenDue
  split <;> simp

@[simp] theorem State.rpRegs_modTime (s : State) (f : TimeSt → TimeSt) :
    (s.modTime .ronpex f).rpRegs = s.rpRegs := by
  unfold State.modTime
  simp

@[simp] theorem State.rpRegs_holdOver (s : State) :
    (s.holdOver .ronpex).rpRegs = s.rpRegs := by
  unfold State.holdOver
  simp

@[simp] theorem State.rpRegs_enablesOff (s : State) :
    s.enablesOff.rpRegs = s.rpRegs := by
  unfold State.enablesOff
  simp

@[simp] theorem State.rpRegs_timeAsleep (s : State) :
    s.timeAsleep.rpRegs = s.rpRegs := by
  unfold State.timeAsleep
  simp

@[simp] theorem State.rpRegs_rampDue (s : State) :
    s.rampDue.rpRegs = s.rpRegs := by
  unfold State.rampDue
  split <;> simp

@[simp] theorem State.rpRegs_pstFlush (s : State) :
    s.pstFlush.rpRegs = s.rpRegs := by
  unfold State.pstFlush
  simp

@[simp] theorem State.rpRegs_logRestore (s : State) :
    s.logRestore.rpRegs = s.rpRegs := by
  unfold State.logRestore
  repeat' split
  all_goals simp

@[simp] theorem State.rpRegs_hubRestart (s : State) :
    s.hubRestart.rpRegs = s.rpRegs := by
  unfold State.hubRestart
  simp

@[simp] theorem State.rpRegs_parentLost (s : State) :
    (s.parentLost .ronpex).rpRegs = s.rpRegs := by
  unfold State.parentLost
  simp

@[simp] theorem State.rpRegs_timeSetWrite (s : State) (v : Nat) :
    (s.timeSetWrite v).rpRegs = s.rpRegs := by
  unfold State.timeSetWrite
  simp

/-! ### Machine/MgmtOps -/

@[simp] theorem State.rpRegs_cmdWait (s : State) (w : CmdWait) :
    (s.cmdWait w).rpRegs = s.rpRegs := by
  unfold State.cmdWait
  simp

@[simp] theorem State.rpRegs_slotWritten (s : State) (slot : Nat) :
    (s.slotWritten slot).rpRegs = s.rpRegs := by
  unfold State.slotWritten
  simp

@[simp] theorem State.rpRegs_epochCmd (s : State) (e : Nat) :
    (s.epochCmd e).rpRegs = s.rpRegs := by
  unfold State.epochCmd
  simp

@[simp] theorem State.rpRegs_sendCmd (s : State) (dest len : Nat) (payload : List Byte) (dmaOk : Bool) :
    (s.sendCmd dest len payload dmaOk).rpRegs = s.rpRegs := by
  unfold State.sendCmd
  simp

@[simp] theorem State.rpRegs_fwWriteCmd (s : State) (off len : Nat) (data : List Byte) (dmaOk : Bool) :
    (s.fwWriteCmd off len data dmaOk).rpRegs = s.rpRegs := by
  unfold State.fwWriteCmd
  simp

@[simp] theorem State.rpRegs_streamLog (s : State) :
    s.streamLog.rpRegs = s.rpRegs := by
  unfold State.streamLog
  dsimp only
  split <;> simp

@[simp] theorem State.rpRegs_mgtRingStart (s : State) (a : Nat) :
    (s.mgtRingStart a).rpRegs = s.rpRegs := by
  unfold State.mgtRingStart
  simp

@[simp] theorem State.rpRegs_trayNeighbour (s : State) (port ftype : Nat) (body : List Byte) :
    (s.trayNeighbour port ftype body).rpRegs = s.rpRegs := by
  unfold State.trayNeighbour
  simp

@[simp] theorem State.rpRegs_traySync (s : State) (port : Nat) :
    (s.traySync port).rpRegs = s.rpRegs := by
  unfold State.traySync
  simp

@[simp] theorem State.rpRegs_trayLink (s : State) (port : Nat) (up : Bool) :
    (s.trayLink port up).rpRegs = s.rpRegs := by
  unfold State.trayLink
  simp

@[simp] theorem State.rpRegs_pstPersist (s : State) :
    s.pstPersist.rpRegs = s.rpRegs := by
  unfold State.pstPersist
  split <;> simp

/-! ### Machine/RegWrite -/

@[simp] theorem State.rpRegs_winWrite (s : State) (i v : Nat) :
    (s.winWrite i v).rpRegs = s.rpRegs := by
  unfold State.winWrite
  simp

/-! ### Machine/SwitchOps -/

@[simp] theorem State.rpRegs_setEddy (s : State) (p : Nat) (l : List EddyEnt) :
    (s.setEddy p l).rpRegs = s.rpRegs := by
  unfold State.setEddy
  simp

@[simp] theorem State.rpRegs_settleEddy (s : State) (p : Nat) (l : List EddyEnt) :
    (s.settleEddy p l).rpRegs = s.rpRegs := by
  unfold State.settleEddy
  simp

@[simp] theorem State.rpRegs_abandonOutput (s : State) (p : Nat) (l : List EddyEnt) :
    (s.abandonOutput p l).rpRegs = s.rpRegs := by
  unfold State.abandonOutput
  rw [State.rpRegs_foldl _ fun t x => ?_]
  · simp
  · split <;> simp

@[simp] theorem State.rpRegs_anaCopy (s : State) (p : Nat) (entering : Bool) (c : Container) :
    (s.anaCopy p entering c).rpRegs = s.rpRegs := by
  unfold State.anaCopy
  simp

@[simp] theorem State.rpRegs_eddyExpire (s : State) (p : Nat) :
    (s.eddyExpire p).rpRegs = s.rpRegs := by
  unfold State.eddyExpire
  simp

@[simp] theorem State.rpRegs_police (s : State) (p : Nat) (c : Container) :
    (s.police p c).2.rpRegs = s.rpRegs := by
  unfold State.police
  split <;> simp

@[simp] theorem State.rpRegs_loadBudgets (s : State) :
    s.loadBudgets.rpRegs = s.rpRegs := by
  unfold State.loadBudgets
  simp

@[simp] theorem State.rpRegs_frameClear (s : State) :
    s.frameClear.rpRegs = s.rpRegs := by
  unfold State.frameClear
  simp

@[simp] theorem State.rpRegs_timeStep (s : State) :
    s.timeStep.rpRegs = s.rpRegs := by
  unfold State.timeStep
  split <;> simp

@[simp] theorem State.rpRegs_powerKeep (s : State) :
    s.powerKeep.rpRegs = s.rpRegs := by
  unfold State.powerKeep
  simp

end Sys2Proof.Machine
end

section
/-! The orders of a draft: GO and STOP, as register writes that reach the Ronpex or the Plocen. -/

namespace Sys2Proof.Machine

open Sys2Proof Sys2Proof.Claims

/-! ### Register writes -/

/-- A write that reaches the Ronpex acts on the state in which it is logged. -/
theorem State.wrote_ronpex {s : State} {w : Writer} (h : rpTakes s w) (a v : Nat) (f : State → State) :
    s.wrote .ronpex a v w f = f (s.logWrite .ronpex a v w) := by
  obtain ⟨hsupply, horigin⟩ := h
  simp [State.wrote, hsupply, horigin]

/-- The log of the Ronpex, and of its registers LOG.LOST alone, may differ. -/
structure State.Logged (s t : State) : Prop where
  frame : t = { s with rp := { s.rp with log := t.rp.log, regs := t.rp.regs } }
  regs : regsBut s t .ronpex [Reg.logLost]

theorem State.logged_rpLog (s : State) (b : LogBody) : s.Logged (s.rpLog b) := by
  unfold State.rpLog
  split
  · exact ⟨rfl, regsBut_refl _ _ _⟩
  · refine ⟨rfl, fun a ha => ?_⟩
    rw [State.reg_satFld_other _ _ _ _ _ _ _ _ (.inr fun h => ha (by simp [← h]))]
    rfl

theorem State.logged_logWrite (s : State) (a v : Nat) (w : Writer) : s.Logged (s.logWrite .ronpex a v w) := by
  have h : s.logWrite .ronpex a v w = s.rpLog (s.writeBody .ronpex a v w 0) := by simp [State.logWrite, ringTraffic, State.plog]
  rw [h]
  exact s.logged_rpLog _

theorem State.Logged.reg {s t : State} (h : s.Logged t) {a : Nat} (ha : a ≠ Reg.logLost) : t.reg .ronpex a = s.reg .ronpex a :=
  h.regs a (by simpa using ha)

/-- A write of the Plocen is logged there: nothing but its log differs. -/
theorem State.logWrite_plocen (s : State) (a v : Nat) (w : Writer) :
    s.logWrite .plocen a v w = { s with ep := { s.ep with log := (s.logWrite .plocen a v w).ep.log } } := by
  unfold State.logWrite
  split
  · rfl
  · simp [State.plog, State.epLog, State.writeBody]

@[simp] theorem State.reg_logWrite_plocen (s : State) (a v : Nat) (w : Writer) (p : Part) (b : Nat) :
    (s.logWrite .plocen a v w).reg p b = s.reg p b := by
  rw [State.logWrite_plocen]
  cases p <;> rfl

/-! ### GO and STOP -/

theorem drfCtl_value_lt (v : Nat) : bits 0 3 v + 2 ^ 5 * bits 5 1 v < 2 ^ 32 := by
  unfold bits
  omega

theorem State.reg_modWarp (s : State) (f : Warp → Warp) (p : Part) (a : Nat) : (s.modWarp f).reg p a = s.reg p a := by
  cases p <;> rfl

theorem State.reg_modEw (s : State) (f : EpWarp → EpWarp) (p : Part) (a : Nat) : (s.modEw f).reg p a = s.reg p a := by
  cases p <;> rfl

/-- GO, of an accepted slot whose START has not passed. -/
theorem State.drfCtl_go {u : State} {v : Nat} (h3 : bit 3 v = true) (h4 : bit 4 v = false)
    (hdue : frameDue u.now (u.reg .ronpex Reg.drfStart) = false) (hacc : bit (bits 0 3 v) u.rp.warp.accepted = true) :
    u.drfCtl v = (u.setReg .ronpex Reg.drfCtl (bits 0 3 v + 2 ^ 5 * bits 5 1 v)).modWarp fun w => { w with
      go := some (bits 0 3 v, u.reg .ronpex Reg.drfStart) } := by
  simp [State.drfCtl, h3, h4, hdue, hacc]

/-- GO, of a slot that was not accepted or whose START has passed: an event reports it. -/
theorem State.drfCtl_refused {u : State} {v : Nat} (h3 : bit 3 v = true) (h4 : bit 4 v = false)
    (h : frameDue u.now (u.reg .ronpex Reg.drfStart) = true ∨ bit (bits 0 3 v) u.rp.warp.accepted = false) :
    u.drfCtl v = (u.setReg .ronpex Reg.drfCtl (bits 0 3 v + 2 ^ 5 * bits 5 1 v)).post (draftEvent u.now 4 0 (bits 0 3 v) 0) := by
  simp [State.drfCtl, h3, h4, h]

/-- STOP without GO. -/
theorem State.drfCtl_stop {u : State} {v : Nat} (h3 : bit 3 v = false) (h4 : bit 4 v = true) :
    u.drfCtl v = (u.setReg .ronpex Reg.drfCtl (bits 0 3 v + 2 ^ 5 * bits 5 1 v)).modWarp fun w => { w with stop := true } := by
  simp [State.drfCtl, h3, h4]

/-- A change of the warp state of the Ronpex, with DRF.CTL written, in the state in which the write is logged. -/
theorem State.Logged.drfCtl_frame {s u : State} (h : s.Logged u) (x : Nat) (f : Warp → Warp) :
    let t := (u.setReg .ronpex Reg.drfCtl x).modWarp f
    t.rp.warp = f s.rp.warp ∧ t.reg .ronpex Reg.drfCtl = x % 2 ^ 32 ∧ regsBut s t .ronpex [Reg.drfCtl, Reg.logLost]
      ∧ t = { s with rp := { s.rp with regs := t.rp.regs, log := t.rp.log, warp := t.rp.warp } } := by
  dsimp only
  refine ⟨?_, ?_, regsBut_trans (regsBut_mono h.regs (by simp)) (regsBut_trans (regsBut_setReg u x (by simp)) fun a _ =>
    State.reg_modWarp _ _ _ _), ?_⟩
  · rw [h.frame]; rfl
  · rw [State.reg_modWarp, State.reg_setReg_same]
  · rw [h.frame]; rfl

/-- GO of the Plocen, whose START has not passed. -/
theorem State.wctl_go {u : State} {v : Nat} (h3 : bit 3 v = true) (h4 : bit 4 v = false)
    (hdue : frameDue u.now (u.reg .plocen Reg.epSeqWstart) = false) :
    u.wctl v = (u.setReg .plocen Reg.epSeqWctl (bits 0 3 v)).modEw fun w => { w with
      go := some (bits 0 3 v, u.reg .plocen Reg.epSeqWstart) } := by
  simp [State.wctl, h3, h4, hdue]

theorem State.wctl_refused {u : State} {v : Nat} (h4 : bit 4 v = false)
    (hdue : frameDue u.now (u.reg .plocen Reg.epSeqWstart) = true) :
    u.wctl v = u.setReg .plocen Reg.epSeqWctl (bits 0 3 v) := by
  simp [State.wctl, h4, hdue]

theorem State.wctl_stop {u : State} {v : Nat} (h3 : bit 3 v = false) (h4 : bit 4 v = true) :
    u.wctl v = (u.setReg .plocen Reg.epSeqWctl (bits 0 3 v)).modEw fun w => { w with stop := true } := by
  simp [State.wctl, h3, h4]

/-- Settles O24: each order is its register write with one change of the warp state. -/
theorem draftOrders : Obligations.DraftOrders := by
  intro s v w
  have hlog := s.logged_logWrite Reg.drfCtl v.toNat w
  have hnow : (s.logWrite .ronpex Reg.drfCtl v.toNat w).now = s.now := by rw [hlog.frame]
  have hwarp : (s.logWrite .ronpex Reg.drfCtl v.toNat w).rp.warp = s.rp.warp := by rw [hlog.frame]
  have hstart : (s.logWrite .ronpex Reg.drfCtl v.toNat w).reg .ronpex Reg.drfStart = s.reg .ronpex Reg.drfStart :=
    hlog.reg (by decide)
  have hlt : (bits 0 3 v.toNat + 2 ^ 5 * bits 5 1 v.toNat) % 2 ^ 32 = bits 0 3 v.toNat + 2 ^ 5 * bits 5 1 v.toNat :=
    Nat.mod_eq_of_lt (drfCtl_value_lt _)
  have hlt3 : bits 0 3 v.toNat % 2 ^ 32 = bits 0 3 v.toNat := by unfold bits; omega
  refine ⟨fun ht => ⟨fun hb3 hb4 hdue hacc => ?_, fun hb3 hb4 hbad => ?_, fun hb3 hb4 => ?_⟩, fun hon hb3 hb4 hdue => ?_,
    fun hon hb3 hb4 hdue => ?_, fun hon hb3 hb4 => ?_⟩
  · refine ⟨s.drfWrite v w, rfl, ?_⟩
    rw [State.drfWrite, State.wrote_ronpex ht, State.drfCtl_go hb3 hb4 (by rw [hnow, hstart, hdue]) (by rw [hwarp, hacc]), hstart]
    obtain ⟨hw, hr, hb, hf⟩ := hlog.drfCtl_frame (bits 0 3 v.toNat + 2 ^ 5 * bits 5 1 v.toNat) fun w => { w with
      go := some (bits 0 3 v.toNat, s.reg .ronpex Reg.drfStart) }
    exact ⟨hw, hr.trans hlt, hb, hf⟩
  · refine ⟨s.drfWrite v w, rfl, ?_⟩
    rw [State.drfWrite, State.wrote_ronpex ht, State.drfCtl_refused hb3 hb4 (by rwa [hnow, hstart, hwarp])]
    refine ⟨?_, onlyRonpex_of (by simp) (by simp)⟩
    obtain ⟨o, m, x, h⟩ := State.post_only (((s.logWrite .ronpex Reg.drfCtl v.toNat w)).setReg .ronpex Reg.drfCtl
      (bits 0 3 v.toNat + 2 ^ 5 * bits 5 1 v.toNat)) (draftEvent (s.logWrite .ronpex Reg.drfCtl v.toNat w).now 4 0 (bits 0 3 v.toNat) 0)
    rw [h]
    exact hwarp
  · refine ⟨s.drfWrite v w, rfl, ?_⟩
    rw [State.drfWrite, State.wrote_ronpex ht, State.drfCtl_stop hb3 hb4]
    obtain ⟨hw, -, hb, hf⟩ := hlog.drfCtl_frame (bits 0 3 v.toNat + 2 ^ 5 * bits 5 1 v.toNat) fun w => { w with stop := true }
    exact ⟨hw, hb, hf⟩
  all_goals
    have hep := s.logWrite_plocen Reg.epSeqWctl v.toNat w
    have hregs : ∀ x : Nat, regsBut s ((s.logWrite .plocen Reg.epSeqWctl v.toNat w).setReg .plocen Reg.epSeqWctl x) .plocen
        [Reg.epSeqWctl] := fun x => regsBut_trans (fun a _ => State.reg_logWrite_plocen s _ _ _ _ a) (regsBut_setReg _ x (by simp))
    refine ⟨s.wctlWrite v w, rfl, ?_⟩
    rw [State.wctlWrite, State.wrote_plocen _ _ _ _ _ hon]
  · rw [State.wctl_go hb3 hb4 (by rw [State.reg_logWrite_plocen, hep, hdue]), State.reg_logWrite_plocen]
    refine ⟨by rw [hep]; rfl, ?_, fun a ha => (State.reg_modEw _ _ _ _).trans (hregs _ a ha), by rw [hep]; rfl⟩
    rw [State.reg_modEw, State.reg_setReg_same, hlt3]
  · rw [State.wctl_refused hb4 (by rw [State.reg_logWrite_plocen, hep, hdue])]
    exact ⟨by rw [hep]; rfl, hregs _, onlyPlocen_of (by simp) (by simp)⟩
  · rw [State.wctl_stop hb3 hb4]
    exact ⟨by rw [hep]; rfl, fun a ha => (State.reg_modEw _ _ _ _).trans (hregs _ a ha), by rw [hep]; rfl⟩

end Sys2Proof.Machine
end

section
/-! Fields and bits of words and registers: what a write of one field leaves in another (R12), and where the registers of ports, spindles
and clusters lie. -/

namespace Sys2Proof.Machine

open Sys2Proof Sys2Proof.Claims

/-! ### Fields of words -/

theorem bit_eq_bit_bits {lo len j w : Nat} (h : j < len) : bit j (bits lo len w) = bit (lo + j) w := by
  rw [bit_eq_testBit, bit_eq_testBit, testBit_bits]
  simp [h]

/-- A field that does not meet a replaced one is as it was. -/
theorem bits_setBits_outside {lo len v w lo' len' : Nat} (h : lo' + len' ≤ lo ∨ lo + len ≤ lo') :
    bits lo' len' (setBits lo len v w) = bits lo' len' w := by
  refine Nat.eq_of_testBit_eq fun j => ?_
  rw [testBit_bits, testBit_bits]
  by_cases hj : j < len'
  · rw [← bit_eq_testBit, ← bit_eq_testBit, bit_setBits_outside _ _ _ _ _ (by omega)]
  · simp [hj]

@[simp] theorem bit_setBit_same (i : Nat) (b : Bool) (w : Nat) : bit i (setBit i b w) = b := by
  unfold bit setBit
  rw [bits_setBits_same]
  cases b <;> rfl

theorem bit_setBit_other {i j : Nat} (b : Bool) (w : Nat) (h : j ≠ i) : bit j (setBit i b w) = bit j w :=
  bit_setBits_outside _ _ _ _ _ (by omega)

theorem bit_bits_zero {len j w : Nat} (h : j < len) : bit j (bits 0 len w) = bit j w := by
  rw [bit_eq_bit_bits h, Nat.zero_add]

/-! ### Fields of registers -/

theorem State.fld_congr {s t : State} {p : Part} {a : Nat} (h : t.reg p a = s.reg p a) (lo len : Nat) :
    t.fld p a lo len = s.fld p a lo len := by
  rw [State.fld, State.fld, h]

theorem State.flag_congr {s t : State} {p : Part} {a : Nat} (h : t.reg p a = s.reg p a) (i : Nat) : t.flag p a i = s.flag p a i := by
  rw [State.flag, State.flag, h]

theorem State.fld_setFld_outside (s : State) (p : Part) {a lo len v lo' len' : Nat} (h : lo + len ≤ 32)
    (hd : lo' + len' ≤ lo ∨ lo + len ≤ lo') : (s.setFld p a lo len v).fld p a lo' len' = s.fld p a lo' len' := by
  rw [State.fld, State.reg_setFld_same s p a lo len v h, bits_setBits_outside hd, State.fld]

theorem State.fld_setFlag_outside (s : State) (p : Part) {a i lo' len' : Nat} (b : Bool) (h : i < 32)
    (hd : lo' + len' ≤ i ∨ i < lo') : (s.setFlag p a i b).fld p a lo' len' = s.fld p a lo' len' :=
  State.fld_setFld_outside s p h (by omega)

theorem State.flag_setFlag_same (s : State) (p : Part) {a i : Nat} (b : Bool) (h : i < 32) : (s.setFlag p a i b).flag p a i = b := by
  have hf := State.fld_setFld_same s p a i 1 (ofBool b) h
  rw [State.fld] at hf
  unfold State.flag bit State.setFlag
  rw [hf]
  cases b <;> rfl

theorem State.flag_setFlag_other (s : State) (p : Part) {a i j : Nat} (b : Bool) (h : i < 32) (hij : j ≠ i) :
    (s.setFlag p a i b).flag p a j = s.flag p a j :=
  State.flag_setFld_outside s p a i 1 (ofBool b) j h (by omega)

theorem State.flag_setReg_same (s : State) (p : Part) (a v : Nat) {i : Nat} (h : i < 32) : (s.setReg p a v).flag p a i = bit i v := by
  rw [State.flag, State.reg_setReg_same, bit_eq_testBit, bit_eq_testBit, Nat.testBit_mod_two_pow]
  simp [h]

theorem State.fld_setReg_same (s : State) (p : Part) (a v : Nat) {lo len : Nat} (h : lo + len ≤ 32) :
    (s.setReg p a v).fld p a lo len = bits lo len v := by
  refine Nat.eq_of_testBit_eq fun j => ?_
  rw [State.fld, State.reg_setReg_same, testBit_bits, testBit_bits, Nat.testBit_mod_two_pow]
  by_cases hj : j < len
  · simp [hj, show lo + j < 32 by omega]
  · simp [hj]

theorem State.reg_setFlag_other (s : State) (p q : Part) (a b i : Nat) (v : Bool) (h : p ≠ q ∨ a ≠ b) :
    (s.setFlag p a i v).reg q b = s.reg q b := State.reg_setFld_other s p q a b _ _ _ h

/-! ### Where registers lie -/

/-- The registers of the ports lie above those of the hub (R10). -/
theorem le_portBase (p : Nat) : 0x1000000 ≤ portBase p := by
  unfold portBase
  omega

theorem le_spindleBase (n : Nat) : 0x1000000 ≤ spindleBase n := by
  unfold spindleBase
  omega

theorem le_clusterBase (k : Nat) : 0x1000000 ≤ clusterBase k := by
  unfold clusterBase
  omega

theorem le_engineBase (e : Nat) : 0x5000000 ≤ engineBase e := by
  unfold engineBase
  omega

theorem le_portSetBase (p : Nat) : 0x5000000 ≤ portSetBase p := by
  unfold portSetBase engineBase
  omega

/-- The registers that reports are counted in are of the hub. -/
theorem lt_of_mem_reportRegs {a : Nat} (h : a ∈ reportRegs) : a < 0x1000000 := by
  have : ∀ a ∈ reportRegs, a < 0x1000000 := by decide
  exact this a h

theorem notMem_reportRegs {a : Nat} (h : 0x1000000 ≤ a) : a ∉ reportRegs := fun ha => absurd (lt_of_mem_reportRegs ha) (by omega)

theorem portBase_injective {p q : Nat} (hp : p < 192) (hq : q < 192) (h : portBase p = portBase q) : p = q := by
  unfold portBase at h
  omega

end Sys2Proof.Machine
end

section
/-! A draft is committed, and comes into effect or ends. -/

namespace Sys2Proof.Machine

open Sys2Proof Sys2Proof.Claims

/-! ### COMMIT -/

theorem State.fencedPorts_congr {s t : State} (h : ∀ a, 0x1000000 ≤ a → t.reg .ronpex a = s.reg .ronpex a) :
    t.fencedPorts = s.fencedPorts := by
  unfold State.fencedPorts
  congr 1
  funext p
  simp only [State.fld, h _ (le_portBase p)]

/-- The check of an image ends with one of twelve codes. -/
theorem State.draftCheck_lt (s : State) (slot : Nat) : s.draftCheck slot < 12 := by
  unfold State.draftCheck
  repeat' split
  all_goals omega

/-- What a commit leaves before its event. -/
def State.committedQuietly (s : State) (slot code : Nat) : State :=
  ((s.setFld .ronpex Reg.drfStat 8 8 code).setFld .ronpex Reg.drfStat 16 3 slot).modWarp fun w => { w with
    accepted := setBit slot (code == 0) w.accepted, fencedAt := SMap.put (fun _ => []) w.fencedAt slot s.fencedPorts }

theorem State.committed_eq (s : State) (slot code : Nat) :
    s.committed slot code = (s.committedQuietly slot code).post (draftEvent s.now 1 code slot 0) := rfl

/-- An event changes no register that reports are not counted in, and no warp state. -/
theorem State.rp_post (s : State) (e : Event) : (s.post e).rp.warp = s.rp.warp := by
  obtain ⟨o, m, x, h⟩ := s.post_only e
  rw [h]

theorem State.reg_post (s : State) (e : Event) {a : Nat} (h : a ∉ reportRegs) : (s.post e).reg .ronpex a = s.reg .ronpex a :=
  State.reg_of_rpRegs (State.rpRegs_post s e) h

theorem drfStat_notMem : Reg.drfStat ∉ reportRegs := by decide

theorem exec_commit (s : State) (v : Word) (w : Writer) (ht : rpTakes s w) :
    ∃ t, exec (.commit v w) s = .next t
      ∧ t.fld .ronpex Reg.drfStat 8 8 = (s.logWrite .ronpex Reg.drfCommit v.toNat w).draftCheck (bits 0 3 v.toNat)
      ∧ t.fld .ronpex Reg.drfStat 16 3 = bits 0 3 v.toNat ∧ t.fld .ronpex Reg.drfStat 0 4 = s.fld .ronpex Reg.drfStat 0 4
      ∧ bit (bits 0 3 v.toNat) t.rp.warp.accepted
          = decide ((s.logWrite .ronpex Reg.drfCommit v.toNat w).draftCheck (bits 0 3 v.toNat) = 0)
      ∧ (∀ k, k ≠ bits 0 3 v.toNat → bit k t.rp.warp.accepted = bit k s.rp.warp.accepted)
      ∧ SMap.look (fun _ => []) t.rp.warp.fencedAt (bits 0 3 v.toNat) = s.fencedPorts
      ∧ t.rp.warp = { s.rp.warp with accepted := t.rp.warp.accepted, fencedAt := t.rp.warp.fencedAt } ∧ onlyRonpex s t := by
  have hlog := s.logged_logWrite Reg.drfCommit v.toNat w
  refine ⟨(s.logWrite .ronpex Reg.drfCommit v.toNat w).commitSlot (bits 0 3 v.toNat), ?_, ?_⟩
  · exact congrArg Host.Outcome.next (State.wrote_ronpex ht Reg.drfCommit v.toNat fun t => t.commitSlot (bits 0 3 v.toNat))
  have hports : (s.logWrite .ronpex Reg.drfCommit v.toNat w).fencedPorts = s.fencedPorts :=
    State.fencedPorts_congr fun a ha => hlog.reg (by rintro rfl; exact absurd ha (by decide))
  have hwarp : (s.logWrite .ronpex Reg.drfCommit v.toNat w).rp.warp = s.rp.warp := by rw [hlog.frame]
  have hstat : (s.logWrite .ronpex Reg.drfCommit v.toNat w).reg .ronpex Reg.drfStat = s.reg .ronpex Reg.drfStat := hlog.reg (by decide)
  have honly : onlyRonpex s ((s.logWrite .ronpex Reg.drfCommit v.toNat w).commitSlot (bits 0 3 v.toNat)) :=
    onlyRonpex_of (by simp) (by simp)
  generalize (s.logWrite .ronpex Reg.drfCommit v.toNat w) = u at *
  have hcode := u.draftCheck_lt (bits 0 3 v.toNat)
  have hslot : bits 0 3 v.toNat < 8 := bits_lt 0 3 _
  rw [State.commitSlot, State.committed_eq] at *
  generalize u.draftCheck (bits 0 3 v.toNat) = code at *
  generalize bits 0 3 v.toNat = slot at *
  have hreg : ((u.committedQuietly slot code).post (draftEvent u.now 1 code slot 0)).reg .ronpex Reg.drfStat
      = ((u.setFld .ronpex Reg.drfStat 8 8 code).setFld .ronpex Reg.drfStat 16 3 slot).reg .ronpex Reg.drfStat := by
    rw [State.reg_post _ _ drfStat_notMem, State.committedQuietly, State.reg_modWarp]
  have hw : ((u.committedQuietly slot code).post (draftEvent u.now 1 code slot 0)).rp.warp = { s.rp.warp with
      accepted := setBit slot (code == 0) s.rp.warp.accepted, fencedAt := SMap.put (fun _ => []) s.rp.warp.fencedAt slot s.fencedPorts } := by
    rw [State.rp_post, ← hwarp, ← hports]
    rfl
  refine ⟨?_, ?_, ?_, ?_, ?_, ?_, ?_, honly⟩
  · rw [State.fld_congr hreg, State.fld_setFld_outside _ _ (by omega) (by omega), State.fld_setFld_same _ _ _ _ _ _ (by omega)]
    omega
  · rw [State.fld_congr hreg, State.fld_setFld_same _ _ _ _ _ _ (by omega)]
    omega
  · rw [State.fld_congr hreg, State.fld_setFld_outside _ _ (by omega) (by omega), State.fld_setFld_outside _ _ (by omega) (by omega)]
    exact State.fld_congr hstat _ _
  · rw [hw, bit_setBit_same]
    rfl
  · intro k hk
    rw [hw, bit_setBit_other _ _ hk]
  · rw [hw, SMap.look_put_same]
  · rw [hw]

/-! ### Activation -/

theorem frameNs_eq : frameNs = 16384 := rfl

theorem State.unitState_congr {s t : State} (h : ∀ a, 0x1000000 ≤ a → t.reg .ronpex a = s.reg .ronpex a)
    (hu : t.rp.units = s.rp.units) (n : Nat) (hn : n < 288) : t.unitState n = s.unitState n := by
  have hoff : ∀ r, t.regionOff r = s.regionOff r := fun r => by simp only [State.regionOff, hu]
  unfold State.unitState
  by_cases hport : n < 192
  · simp only [hport, if_true, State.fld, h _ (le_portBase n)]
  · simp only [hport, hn, if_true, if_false, State.flag, h _ (le_spindleBase _), hoff, hu]
    rfl

/-- The Ronpex with a draft in effect, before what is out of use is ordered away. -/
def State.rpDraftSet (s : State) (slot : Nat) : State :=
  ((s.setFld .ronpex Reg.drfStat 0 3 slot).setFlag .ronpex Reg.drfStat 3 true).modWarp fun w => { w with
    go := none, primary := slot, idle := [], outSkeins := 0, inst := [], heldRounds := [], tallies := [], flight := [] }

theorem State.reg_rpDraftSet_other (s : State) (slot : Nat) {a : Nat} (h : a ≠ Reg.drfStat) :
    (s.rpDraftSet slot).reg .ronpex a = s.reg .ronpex a := by
  rw [State.rpDraftSet, State.reg_modWarp, State.reg_setFlag_other _ _ _ _ _ _ _ (.inr h.symm),
    State.reg_setFld_other _ _ _ _ _ _ _ _ (.inr h.symm)]

/-- With every spindle in use and every fenced port known at the commit, the draft is all that changes. -/
theorem State.rpDraftOn_eq {s : State} {slot : Nat} (hsp : ∀ n, n < 96 → s.spOut n = false)
    (hp : ∀ p ∈ s.fencedPorts, (SMap.look (fun _ => []) s.rp.warp.fencedAt slot).contains p = true) :
    s.rpDraftOn slot = s.rpDraftSet slot := by
  have hreg : ∀ a, 0x1000000 ≤ a → (s.rpDraftSet slot).reg .ronpex a = s.reg .ronpex a := fun a ha =>
    s.reg_rpDraftSet_other slot (by rintro rfl; exact absurd ha (by decide))
  have hout : ((List.range 96).filter fun n => (s.rpDraftSet slot).spOut n) = [] := by
    rw [List.filter_eq_nil_iff]
    intro n hn
    have hn : n < 96 := List.mem_range.1 hn
    rw [State.spOut, State.unitState_congr hreg rfl _ (by omega)]
    simpa [State.spOut] using hsp n hn
  have hports : ((s.rpDraftSet slot).fencedPorts.filter fun p =>
      !(SMap.look (fun _ => []) (s.rpDraftSet slot).rp.warp.fencedAt slot).contains p) = [] := by
    rw [List.filter_eq_nil_iff, State.fencedPorts_congr hreg]
    intro p hmem
    have := hp p hmem
    rw [show (s.rpDraftSet slot).rp.warp.fencedAt = s.rp.warp.fencedAt from rfl, this]
    simp
  unfold State.rpDraftOn
  extract_lets s1 s2 s3
  have hs2 : s2 = s.rpDraftSet slot := rfl
  have hs3 : s3 = s.rpDraftSet slot := by simp only [s3, hs2, hout, List.foldl_nil]
  rw [hs3, hports, List.foldl_nil]

/-- A Ronpex whose draft comes into effect with everything it uses in service. -/
theorem State.rpActivate_on {s : State} {slot start : Nat} (hnow : s.now % 16384 = 0) (hstop : s.rp.warp.stop = false)
    (hgo : s.rp.warp.go = some (slot, start)) (hdue : frameDue s.now start = true) (hchg : s.changesActive slot = false)
    (hacc : bit slot s.rp.warp.accepted = true) : s.rpActivate = s.rpDraftOn slot := by
  simp [State.rpActivate, frameNs_eq, hnow, hstop, hgo, hdue, hchg, hacc]

theorem State.rpActivate_refused {s : State} {slot start : Nat} (hnow : s.now % 16384 = 0) (hstop : s.rp.warp.stop = false)
    (hgo : s.rp.warp.go = some (slot, start)) (hdue : frameDue s.now start = true)
    (h : bit slot s.rp.warp.accepted = false ∨ s.changesActive slot = true) :
    s.rpActivate = (s.modWarp fun w => { w with go := none }).post (draftEvent s.now 4 0 slot 0) := by
  simp [State.rpActivate, frameNs_eq, hnow, hstop, hgo, hdue, h]

theorem State.rpActivate_off {s : State} (hnow : s.now % 16384 = 0) (hstop : s.rp.warp.stop = true)
    (hgo : s.rp.warp.go = none) : s.rpActivate = s.rpDraftOff := by
  have hoff : s.rpDraftOff.rp.warp.go = none := hgo
  simp [State.rpActivate, frameNs_eq, hnow, hstop, hoff]

theorem State.epActivate_on {s : State} {slot start : Nat} (hnow : s.now % 16384 = 0) (hstop : s.ep.warp.stop = false)
    (hgo : s.ep.warp.go = some (slot, start)) (hdue : frameDue s.now start = true) : s.epActivate = s.epDraftOn slot := by
  simp [State.epActivate, frameNs_eq, hnow, hstop, hgo, hdue]

/-! ### The Plocen -/

/-- Every port's slot written. -/
theorem State.reg_wports (s : State) (slot n : Nat) (a : Nat) :
    ((List.range n).foldl (fun t p => t.setReg .plocen (Reg.epSeqWport p) slot) s).reg .plocen a
      = if ∃ p, p < n ∧ a = Reg.epSeqWport p then slot % 2 ^ 32 else s.reg .plocen a := by
  induction n with
  | zero => simp
  | succ n ih =>
    rw [List.range_succ, List.foldl_append, List.foldl_cons, List.foldl_nil, State.reg_setReg, ih]
    by_cases h : Reg.epSeqWport n = a
    · subst h
      rw [if_pos ⟨rfl, rfl⟩, if_pos ⟨n, by omega, rfl⟩]
    · rw [if_neg (by simp [h])]
      refine if_congr ⟨fun ⟨p, hp, ha⟩ => ⟨p, by omega, ha⟩, fun ⟨p, hp, ha⟩ => ⟨p, ?_, ha⟩⟩ rfl rfl
      rcases Nat.lt_succ_iff_lt_or_eq.1 hp with hp | rfl
      · exact hp
      · exact absurd ha.symm h

/-- The Plocen with a draft in effect, before the ports that are not in service are ordered out. -/
def State.epDraftSet (s : State) (slot : Nat) : State :=
  ((List.range 8).foldl (fun t p => t.setReg .plocen (Reg.epSeqWport p) slot)
    ((s.setFld .plocen Reg.epSeqWstat 0 3 slot).setFlag .plocen Reg.epSeqWstat 3 true)).modEw fun w => { w with
      go := none, primary := slot, idle := [], out := [], runs := [], past := [], inst := [], complete := [], late := [] }

/-- Setting registers of the Plocen one after another changes nothing but its registers. -/
theorem State.setRegs_plocen_only (f : Nat → Nat) (v : Nat) (l : List Nat) (s : State) :
    ∃ x, l.foldl (fun t p => t.setReg .plocen (f p) v) s = { s with ep := { s.ep with regs := x } } := by
  induction l generalizing s with
  | nil => exact ⟨s.ep.regs, rfl⟩
  | cons p l ih =>
    obtain ⟨x, h⟩ := ih (s.setReg .plocen (f p) v)
    exact ⟨x, by rw [List.foldl_cons, h]; rfl⟩

theorem State.epDraftSet_frame (s : State) (slot : Nat) :
    ∃ x, s.epDraftSet slot = { s with ep := { s.ep with regs := x, warp := { s.ep.warp with
      go := none, primary := slot, idle := [], out := [], runs := [], past := [], inst := [], complete := [], late := [] } } } := by
  obtain ⟨x, h⟩ := State.setRegs_plocen_only Reg.epSeqWport slot (List.range 8)
    ((s.setFld .plocen Reg.epSeqWstat 0 3 slot).setFlag .plocen Reg.epSeqWstat 3 true)
  exact ⟨x, by rw [State.epDraftSet, h]; rfl⟩

theorem State.reg_epDraftSet (s : State) (slot a : Nat) :
    (s.epDraftSet slot).reg .plocen a = if ∃ p, p < 8 ∧ a = Reg.epSeqWport p then slot % 2 ^ 32
      else ((s.setFld .plocen Reg.epSeqWstat 0 3 slot).setFlag .plocen Reg.epSeqWstat 3 true).reg .plocen a := by
  rw [State.epDraftSet, State.reg_modEw, State.reg_wports]

theorem State.reg_epDraftSet_other (s : State) (slot : Nat) {a : Nat} (h : a ∉ Reg.epSeqWstat :: (List.range 8).map Reg.epSeqWport) :
    (s.epDraftSet slot).reg .plocen a = s.reg .plocen a := by
  simp only [List.mem_cons, List.mem_map, List.mem_range, not_or, not_exists, not_and] at h
  rw [State.reg_epDraftSet, if_neg fun ⟨p, hp, ha⟩ => h.2 p hp ha.symm, State.reg_setFlag_other _ _ _ _ _ _ _ (.inr fun ha => h.1 ha.symm),
    State.reg_setFld_other _ _ _ _ _ _ _ _ (.inr fun ha => h.1 ha.symm)]

/-- The registers of the draft lie below the ports' and the image's. -/
theorem State.reg_epDraftSet_above (s : State) (slot : Nat) {a : Nat} (h : 0x51000 ≤ a) :
    (s.epDraftSet slot).reg .plocen a = s.reg .plocen a :=
  s.reg_epDraftSet_other slot (by
    simp only [List.mem_cons, List.mem_map, List.mem_range, not_or, not_exists, not_and, Reg.epSeqWstat, Reg.epSeqWport]
    exact ⟨by omega, fun p hp => by omega⟩)

theorem State.epLive_epDraftSet (s : State) (slot p : Nat) : (s.epDraftSet slot).epLive p = s.epLive p := by
  obtain ⟨x, h⟩ := s.epDraftSet_frame slot
  have hst : (s.epDraftSet slot).portState .plocen p = s.portState .plocen p :=
    State.fld_congr (s.reg_epDraftSet_above slot (by simp only [psBase, epPortSetBase]; omega)) _ _
  have hrel : (s.epDraftSet slot).ep.released = s.ep.released := by rw [h]
  have hatt : (s.epDraftSet slot).ep.att = s.ep.att := by rw [h]
  simp only [State.epLive, State.portUp, State.heldDown, hst, hrel, hatt]

theorem State.usesPort_epDraftSet (s : State) (slot k p : Nat) : (s.epDraftSet slot).usesPort k p = s.usesPort k p := by
  have hw : ∀ off, (s.epDraftSet slot).ptWord k off = s.ptWord k off := fun off => s.reg_epDraftSet_above slot (by omega)
  simp only [State.usesPort, State.ptEntry, hw]

/-- With nothing bound, and every port that the slot uses live, the draft is all that changes. -/
theorem State.epDraftOn_eq {s : State} {slot : Nat} (hb : s.ep.warp.binds = [])
    (hp : ∀ p, p < 8 → s.epLive p = true ∨ s.usesPort slot p = false) : s.epDraftOn slot = s.epDraftSet slot := by
  have hnone : ((List.range 8).filter fun p => !(s.epDraftSet slot).epLive p && (s.epDraftSet slot).usesPort slot p) = [] := by
    rw [List.filter_eq_nil_iff]
    intro p hmem
    rw [State.epLive_epDraftSet, State.usesPort_epDraftSet]
    rcases hp p (List.mem_range.1 hmem) with h | h <;> simp [h]
  unfold State.epDraftOn
  extract_lets s1 s2 s3 s4
  have hs4 : s4 = s.epDraftSet slot := by simp only [s4, hb, List.foldl_nil]; rfl
  rw [hs4, hnone, List.foldl_nil]

/-! ### The statement -/

/-- Settles O25: a commit is its code shown and its slot accepted or not; a draft in effect is its slot and a fresh warp state. -/
theorem draftActivated : Obligations.DraftActivated := by
  refine ⟨exec_commit, fun s slot start hnow hslot => ⟨fun hstop hgo hdue hchg hacc hsp hports => ?_, fun hstop hgo hdue h => ?_,
    fun hstop hgo => ?_, fun hstop hgo hdue hb hports => ?_⟩⟩
  · refine ⟨s.rpActivate, rfl, ?_⟩
    rw [State.rpActivate_on hnow hstop hgo hdue hchg hacc, State.rpDraftOn_eq hsp hports]
    refine ⟨?_, ?_, rfl, fun a ha => s.reg_rpDraftSet_other slot (by simpa using ha), rfl⟩
    · rw [State.rpDraftSet, State.flag_congr (State.reg_modWarp _ _ _ _), State.flag_setFlag_same _ _ _ (by omega)]
    · rw [State.rpDraftSet, State.fld_congr (State.reg_modWarp _ _ _ _), State.fld_setFlag_outside _ _ _ (by omega) (by omega),
        State.fld_setFld_same _ _ _ _ _ _ (by omega)]
      omega
  · refine ⟨s.rpActivate, rfl, ?_⟩
    rw [State.rpActivate_refused hnow hstop hgo hdue h]
    refine ⟨State.rp_post _ _, ?_, onlyRonpex_of (by simp) (by simp)⟩
    rw [State.fld_congr (State.reg_post _ _ drfStat_notMem), State.fld_congr (State.reg_modWarp _ _ _ _)]
  · refine ⟨s.rpActivate, rfl, ?_⟩
    rw [State.rpActivate_off hnow hstop hgo]
    refine ⟨?_, rfl, fun a ha => ?_, rfl⟩
    · rw [State.rpDraftOff, State.flag_congr (State.reg_modWarp _ _ _ _), State.flag_setFlag_same _ _ _ (by omega)]
    · rw [State.rpDraftOff, State.reg_modWarp, State.reg_setFlag_other _ _ _ _ _ _ _ (.inr fun h => ha (by simp [← h]))]
  · refine ⟨s.epActivate, rfl, ?_⟩
    rw [State.epActivate_on hnow hstop hgo hdue, State.epDraftOn_eq hb hports]
    obtain ⟨x, h⟩ := s.epDraftSet_frame slot
    have hstat : (s.epDraftSet slot).reg .plocen Reg.epSeqWstat
        = ((s.setFld .plocen Reg.epSeqWstat 0 3 slot).setFlag .plocen Reg.epSeqWstat 3 true).reg .plocen Reg.epSeqWstat := by
      rw [State.reg_epDraftSet, if_neg fun ⟨p, hp, ha⟩ => by simp only [Reg.epSeqWstat, Reg.epSeqWport] at ha; omega]
    refine ⟨?_, ?_, fun p hp => ?_, by rw [h], fun a ha => s.reg_epDraftSet_other slot ha, by rw [h]⟩
    · rw [State.flag_congr hstat, State.flag_setFlag_same _ _ _ (by omega)]
    · rw [State.fld_congr hstat, State.fld_setFlag_outside _ _ _ (by omega) (by omega), State.fld_setFld_same _ _ _ _ _ _ (by omega)]
      omega
    · rw [State.reg_epDraftSet, if_pos ⟨p, hp, rfl⟩]
      omega

end Sys2Proof.Machine
end

section
/-! The doorbells of the management rings, their errors, and the log that is streamed. -/

namespace Sys2Proof.Machine

open Sys2Proof Sys2Proof.Claims

/-! ### HUB.ERRSUM -/

theorem bit_maskOf_fold (l : List Nat) (j m : Nat) : bit j (l.foldl (fun m i => setBit i true m) m) = (bit j m || l.contains j) := by
  induction l generalizing m with
  | nil => simp
  | cons i l ih =>
    rw [List.foldl_cons, ih]
    by_cases h : j = i
    · subst h; simp
    · rw [bit_setBit_other _ _ h]
      simp [h]

theorem State.setFlag_ronpex_frame (s : State) (a i : Nat) (b : Bool) :
    s.setFlag .ronpex a i b = { s with rp := { s.rp with regs := (s.setFlag .ronpex a i b).rp.regs } } := rfl

/-- A mask has just the bits of its list. -/
theorem bit_maskOf (l : List Nat) (j : Nat) : bit j (maskOf l) = l.contains j := by
  rw [maskOf, bit_maskOf_fold]
  simp [bit, bits]

theorem maskOf_ne_zero {l : List Nat} {j : Nat} (h : j ∈ l) : maskOf l ≠ 0 := by
  intro h0
  have := bit_maskOf l j
  rw [h0] at this
  simp [bit, bits, h] at this

/-- The registers that HUB.ERRSUM sums up. -/
def errsumRegs : List Nat := [Reg.fmhErr, Reg.secErr, Reg.logStat, Reg.mgtStat] ++ (List.range 4).map Reg.lasErr

theorem State.errsum_congr {s t : State} (hsp : ∀ a, 0x1000000 ≤ a → t.reg .ronpex a = s.reg .ronpex a)
    (h : ∀ a ∈ errsumRegs, t.reg .ronpex a = s.reg .ronpex a) : t.errsum = s.errsum := by
  have hlas : ∀ m, m < 4 → t.reg .ronpex (Reg.lasErr m) = s.reg .ronpex (Reg.lasErr m) := fun m hm =>
    h _ (by simp only [errsumRegs, List.mem_append, List.mem_map, List.mem_range]; exact .inr ⟨m, hm, rfl⟩)
  have hfmh : t.reg .ronpex Reg.fmhErr = s.reg .ronpex Reg.fmhErr := h _ (by simp [errsumRegs])
  have hsec : t.reg .ronpex Reg.secErr = s.reg .ronpex Reg.secErr := h _ (by simp [errsumRegs])
  have hlog : t.flag .ronpex Reg.logStat 19 = s.flag .ronpex Reg.logStat 19 := State.flag_congr (h _ (by simp [errsumRegs])) _
  have hmgt : t.fld .ronpex Reg.mgtStat 1 2 = s.fld .ronpex Reg.mgtStat 1 2 := State.fld_congr (h _ (by simp [errsumRegs])) _ _
  have hspd : ∀ n, t.reg .ronpex (spindleBase n + 4) = s.reg .ronpex (spindleBase n + 4) := fun n =>
    hsp _ (by have := le_spindleBase n; omega)
  have hany : ((List.range 4).any fun m => t.reg .ronpex (Reg.lasErr m) != 0)
      = (List.range 4).any fun m => s.reg .ronpex (Reg.lasErr m) != 0 := by
    rw [Bool.eq_iff_iff]
    simp only [List.any_eq_true, List.mem_range]
    exact exists_congr fun m => and_congr_right fun hm => by rw [hlas m hm]
  simp only [State.errsum, hspd, hfmh, hany, hsec, hlog, hmgt]

theorem State.Logged.errsum {s u : State} (h : s.Logged u) : u.errsum = s.errsum :=
  State.errsum_congr (fun a ha => h.reg (by rintro rfl; exact absurd ha (by decide)))
    fun a ha => h.reg (by rintro rfl; exact absurd ha (by decide))

theorem State.errsum_ne_zero_of_mgtStat {s : State} (h : s.fld .ronpex Reg.mgtStat 1 2 ≠ 0) : s.errsum ≠ 0 :=
  maskOf_ne_zero (j := 8) (by simp [h])

theorem State.errsum_ne_zero_of_logStat {s : State} (h : s.flag .ronpex Reg.logStat 19 = true) : s.errsum ≠ 0 :=
  maskOf_ne_zero (j := 7) (by simp [h])

theorem State.regsBut_errsumMsix (s before : State) : regsBut s (s.errsumMsix before) .ronpex [Reg.mgtMsixPba 0] := by
  unfold State.errsumMsix State.msix
  split
  · split
    · exact regsBut_setFlag _ _ _ (by simp)
    · exact fun a _ => State.reg_emit _ _ _ _
  · exact regsBut_refl _ _ _

/-- An error noted in register `a` of the Ronpex, in the state in which the write that caused it is logged. -/
theorem ringError_of {s u v : State} {a : Nat} (hlog : s.Logged u) (hv : v = { u with rp := { u.rp with regs := v.rp.regs } })
    (ha : regsBut u v .ronpex [a]) (hne : a ≠ Reg.mgtMsix 15) (herr : v.errsum ≠ 0) : ringError s (v.errsumMsix u) a := by
  obtain ⟨o, x, h⟩ := v.errsumMsix_only u
  refine ⟨fun h0 hmask => ?_, ?_, ?_⟩
  · have hm : v.flag .ronpex (Reg.mgtMsix 15) 0 = false := by
      rw [State.flag_congr (ha _ (by simpa using hne.symm)), State.flag_congr (hlog.reg (by decide)), hmask]
    have hout : v.out = s.out := by rw [hv, hlog.frame]
    rw [State.errsumMsix, if_pos ⟨hlog.errsum.trans h0, herr⟩, State.msix]
    simp [hm, State.emit, hout]
  · refine regsBut_trans (regsBut_mono hlog.regs (by simp)) (regsBut_trans (regsBut_mono ha (by simp)) (regsBut_mono
      (v.regsBut_errsumMsix u) (by simp)))
  · rw [h, hv, hlog.frame]

/-- MGT.STAT with a ring's error bit and ERRCODE. -/
theorem State.fld_mgtStat_error {u : State} {i code : Nat} (hi : 1 ≤ i ∧ i ≤ 2) (hc : code < 256) :
    let v := (u.setFlag .ronpex Reg.mgtStat i true).setFld .ronpex Reg.mgtStat 8 8 code
    v.flag .ronpex Reg.mgtStat i = true ∧ v.fld .ronpex Reg.mgtStat 8 8 = code ∧ v.errsum ≠ 0 := by
  dsimp only
  have hflag : ((u.setFlag .ronpex Reg.mgtStat i true).setFld .ronpex Reg.mgtStat 8 8 code).flag .ronpex Reg.mgtStat i = true := by
    rw [State.flag_setFld_outside _ _ _ _ _ _ _ (by omega) (by omega), State.flag_setFlag_same _ _ _ (by omega)]
  refine ⟨hflag, ?_, State.errsum_ne_zero_of_mgtStat fun h0 => ?_⟩
  · rw [State.fld_setFld_same _ _ _ _ _ _ (by omega)]
    omega
  · have : bit (i - 1) (bits 1 2 (((u.setFlag .ronpex Reg.mgtStat i true).setFld .ronpex Reg.mgtStat 8 8 code).reg .ronpex Reg.mgtStat))
        = true := by
      rw [bit_eq_bit_bits (by omega), show 1 + (i - 1) = i by omega]
      exact hflag
    rw [show bits 1 2 _ = 0 from h0] at this
    simp [bit, bits] at this

/-- The error of a management ring: its bit, its code and the interrupt. -/
theorem mgtError_of {s u : State} {i code : Nat} (hlog : s.Logged u) (hi : 1 ≤ i ∧ i ≤ 2) (hc : code < 256) :
    let t := ((u.setFlag .ronpex Reg.mgtStat i true).setFld .ronpex Reg.mgtStat 8 8 code).errsumMsix u
    t.flag .ronpex Reg.mgtStat i = true ∧ t.fld .ronpex Reg.mgtStat 8 8 = code ∧ ringError s t Reg.mgtStat := by
  dsimp only
  obtain ⟨hflag, hcode, herr⟩ := State.fld_mgtStat_error (u := u) hi hc
  have hr := State.regsBut_errsumMsix ((u.setFlag .ronpex Reg.mgtStat i true).setFld .ronpex Reg.mgtStat 8 8 code) u Reg.mgtStat (by decide)
  refine ⟨(State.flag_congr hr _).trans hflag, (State.fld_congr hr _ _).trans hcode, ringError_of hlog rfl ?_ (by decide) herr⟩
  exact regsBut_trans (regsBut_setFlag _ _ _ (by simp)) (regsBut_setFld _ _ _ _ (by simp))

/-! ### The doorbells -/

theorem State.mgtSize_congr {s t : State} {a : Nat} (h : t.reg .ronpex a = s.reg .ronpex a) (n : Nat) : t.mgtSize a n = s.mgtSize a n := by
  rw [State.mgtSize, State.mgtSize, State.fld_congr h]

theorem cmdDb_fetches {s : State} {v : Word} {w : Writer} (ht : rpTakes s w)
    (hh : subMod 32 v.toNat s.rp.mgmt.cmdHead ≤ s.mgtSize Reg.mgtCmdCfg 10)
    (hl : subMod 32 v.toNat s.rp.mgmt.cmdTail ≤ s.mgtSize Reg.mgtCmdCfg 10) :
    ∃ t, exec (.cmdDb v w) s = .next t ∧ t.rp.mgmt = { s.rp.mgmt with cmdTail := v.toNat }
      ∧ (s.rp.mgmt.running = none → s.flag .ronpex Reg.mgtCmdCfg 4 = true → s.flag .ronpex Reg.mgtStat 1 = false →
          s.rp.mgmt.cmdHead ≠ v.toNat → s.rp.sec.restartAt = none → t.out = .cmdFetch s.rp.mgmt.cmdHead :: s.out)
      ∧ regsBut s t .ronpex [Reg.logLost]
      ∧ t = { s with out := t.out, rp := { s.rp with regs := t.rp.regs, log := t.rp.log, mgmt := t.rp.mgmt } } := by
  have hlog := s.logged_logWrite Reg.mgtCmdDb v.toNat w
  refine ⟨s.wrote .ronpex Reg.mgtCmdDb v.toNat w fun t => t.cmdDoorbell v.toNat, rfl, ?_⟩
  rw [State.wrote_ronpex ht]
  generalize s.logWrite .ronpex Reg.mgtCmdDb v.toNat w = u at hlog
  have hsize : u.mgtSize Reg.mgtCmdCfg 10 = s.mgtSize Reg.mgtCmdCfg 10 := State.mgtSize_congr (hlog.reg (by decide)) _
  have hmgmt : u.rp.mgmt = s.rp.mgmt := by rw [hlog.frame]
  have hok : u.cmdDoorbell v.toNat = (u.modMgmt fun m => { m with cmdTail := v.toNat }).cmdNext := by
    simp [State.cmdDoorbell, hsize, hmgmt, hh, hl]
  rw [hok]
  have hcfg : u.flag .ronpex Reg.mgtCmdCfg 4 = s.flag .ronpex Reg.mgtCmdCfg 4 := State.flag_congr (hlog.reg (by decide)) _
  have hstat : u.flag .ronpex Reg.mgtStat 1 = s.flag .ronpex Reg.mgtStat 1 := State.flag_congr (hlog.reg (by decide)) _
  have hrec : regsBut (u.modMgmt fun m => { m with cmdTail := v.toNat }) (u.modMgmt fun m => { m with cmdTail := v.toNat }).cmdNext .ronpex
      [Reg.logLost] := by
    unfold State.cmdNext
    split
    · exact fun a _ => State.reg_emit _ _ _ _
    · exact regsBut_refl _ _ _
  refine ⟨?_, fun hrun hcfg4 hstat1 hne hsec => ?_, regsBut_trans (regsBut_trans hlog.regs fun a _ => rfl) hrec, ?_⟩
  · unfold State.cmdNext
    split <;> simp [State.emit, State.modMgmt, hmgmt]
  · have hgo : (u.modMgmt fun m => { m with cmdTail := v.toNat }).cmdNext
        = (u.modMgmt fun m => { m with cmdTail := v.toNat }).emit (.cmdFetch s.rp.mgmt.cmdHead) := by
      have h1 : (u.modMgmt fun m => { m with cmdTail := v.toNat }).flag .ronpex Reg.mgtCmdCfg 4 = true := by rw [← hcfg4, ← hcfg]; rfl
      have h2 : (u.modMgmt fun m => { m with cmdTail := v.toNat }).flag .ronpex Reg.mgtStat 1 = false := by rw [← hstat1, ← hstat]; rfl
      have h3 : u.rp.sec.restartAt = none := by rw [hlog.frame]; exact hsec
      unfold State.cmdNext
      simp [h1, h2]
      simp [State.modMgmt, hmgmt, hrun, hne, h3]
    rw [hgo, hlog.frame]
    rfl
  · unfold State.cmdNext
    split
    · rw [hlog.frame]; rfl
    · rw [hlog.frame]; rfl

/-- The space that an event waits for: the event that reports what was lost leaves the ring's head and the running command. -/
theorem State.evtOverflow_mgmt (s : State) :
    s.evtOverflow.rp.mgmt.evtHead = s.rp.mgmt.evtHead ∧ s.evtOverflow.rp.mgmt.running = s.rp.mgmt.running := by
  have hwrite : ∀ e, (s.evtWrite e).rp.mgmt.evtHead = s.rp.mgmt.evtHead ∧ (s.evtWrite e).rp.mgmt.running = s.rp.mgmt.running := by
    intro e
    unfold State.evtWrite State.msix
    dsimp only
    split <;> exact ⟨rfl, rfl⟩
  unfold State.evtOverflow
  split
  · exact hwrite _
  · exact ⟨rfl, rfl⟩

/-- The log entry that goes out next, where the ring has room and nothing was lost. -/
theorem State.streamLog_eq {s : State} {e : LogEntry} (hcfg : s.flag .ronpex Reg.logCfg 4 = true) (hpend : s.rp.log.pend ≠ 0)
    (hroom : subMod 32 s.rp.mgmt.logTail s.rp.mgmt.logHead < s.mgtSize Reg.logCfg 14) (hlost : s.rp.log.lost = 0)
    (hsupply : s.rp.power.supplyLost = false) (he : s.rp.log.ents[s.rp.log.ents.length - s.rp.log.pend]? = some e) :
    s.streamLog = State.msix { s with
      out := .logEntry (s.ringBase Reg.logBaseLo Reg.logBaseHi + 32 * (s.rp.mgmt.logTail % s.mgtSize Reg.logCfg 14)) e
        (logRingBytes (s.rp.mgmt.logTail / s.mgtSize Reg.logCfg 14 % 2 == 0) e) :: s.out
      rp := { s.rp with
        log := { s.rp.log with pend := s.rp.log.pend - 1 }
        mgmt := { s.rp.mgmt with logTail := (s.rp.mgmt.logTail + 1) % 2 ^ 32 } } } 2 := by
  unfold State.streamLog
  dsimp only
  split
  · next h => simp [he] at h
  · next e' h =>
    obtain rfl : e = e' := Option.some.inj (he.symm.trans h)
    simp only [hcfg, hsupply, hlost, Nat.not_le.2 hroom, Bool.not_true, beq_eq_false_iff_ne.2 hpend, decide_false,
      Bool.or_false, Bool.false_eq_true, if_false, if_true, State.emit, State.modMgmt]

theorem State.regsBut_msix (s : State) (v : Nat) : regsBut s (s.msix v) .ronpex [Reg.mgtMsixPba 0] := by
  unfold State.msix
  split
  · exact regsBut_setFlag _ _ _ (by simp)
  · exact fun a _ => State.reg_emit _ _ _ _

theorem State.msix_out (s : State) (v : Nat) {o : Out} (h : o ∈ s.out) : o ∈ (s.msix v).out := by
  unfold State.msix
  split
  · exact h
  · exact List.mem_cons_of_mem _ h

/-- An entry that leaves, and the interrupt of its vector. -/
theorem State.streamed_msix {s : State} (o : Out) (l : Log) (m : MgmtRings) (n : Nat) :
    let t := State.msix { s with out := o :: s.out, rp := { s.rp with log := l, mgmt := m } } n
    o ∈ t.out ∧ t.rp.log = l ∧ t.rp.mgmt = m ∧ regsBut s t .ronpex [Reg.mgtMsixPba 0]
      ∧ t = { s with out := t.out, rp := { s.rp with regs := t.rp.regs, log := t.rp.log, mgmt := t.rp.mgmt } } := by
  dsimp only
  obtain ⟨os, x, hx⟩ := State.msix_only { s with out := o :: s.out, rp := { s.rp with log := l, mgmt := m } } n
  refine ⟨State.msix_out _ _ (List.mem_cons_self ..), ?_, ?_,
    regsBut_trans (regsBut_of_regs (t := { s with out := o :: s.out, rp := { s.rp with log := l, mgmt := m } }) rfl)
      (State.regsBut_msix _ n), ?_⟩
  all_goals rw [hx]

/-- Settles O48: each doorbell is its register write with one change of the rings, or an error of its ring. -/
theorem mgmtDoorbells : Obligations.MgmtDoorbells := by
  intro s v w ht
  refine ⟨fun h => cmdDb_fetches ht h.1 h.2, fun h => ?_, fun h => ?_, fun h => ?_, fun h => ?_, fun h => ?_,
    fun e n hn hcfg hpend hroom hlost he => ?_⟩
  · have hlog := s.logged_logWrite Reg.mgtCmdDb v.toNat w
    refine ⟨s.wrote .ronpex Reg.mgtCmdDb v.toNat w fun t => t.cmdDoorbell v.toNat, rfl, ?_⟩
    rw [State.wrote_ronpex ht]
    generalize s.logWrite .ronpex Reg.mgtCmdDb v.toNat w = u at hlog
    have hsize : u.mgtSize Reg.mgtCmdCfg 10 = s.mgtSize Reg.mgtCmdCfg 10 := State.mgtSize_congr (hlog.reg (by decide)) _
    have hmgmt : u.rp.mgmt = s.rp.mgmt := by rw [hlog.frame]
    rw [State.cmdDoorbell, if_pos (by rwa [hsize, hmgmt])]
    exact mgtError_of hlog (by decide) (by decide)
  · have hlog := s.logged_logWrite Reg.mgtEvtDb v.toNat w
    refine ⟨s.wrote .ronpex Reg.mgtEvtDb v.toNat w fun t => t.evtDoorbell v.toNat, rfl, ?_⟩
    rw [State.wrote_ronpex ht]
    have honly : onlyRonpex s ((s.logWrite .ronpex Reg.mgtEvtDb v.toNat w).evtDoorbell v.toNat) := onlyRonpex_of (by simp) (by simp)
    have hlinks : ((s.logWrite .ronpex Reg.mgtEvtDb v.toNat w).evtDoorbell v.toNat).rp.links = s.rp.links := by simp
    generalize s.logWrite .ronpex Reg.mgtEvtDb v.toNat w = u at *
    have hmgmt : u.rp.mgmt = s.rp.mgmt := by rw [hlog.frame]
    have hok : u.evtDoorbell v.toNat = (u.modMgmt fun m => { m with evtHead := v.toNat }).evtOverflow := by
      rw [State.evtDoorbell, hmgmt, if_neg (by omega)]
    obtain ⟨hhead, hrun⟩ := State.evtOverflow_mgmt (u.modMgmt fun m => { m with evtHead := v.toNat })
    refine ⟨?_, ?_, hlinks, honly⟩
    · rw [hok, hhead]
      rfl
    · rw [hok, hrun, ← hmgmt]
      rfl
  · have hlog := s.logged_logWrite Reg.mgtEvtDb v.toNat w
    refine ⟨s.wrote .ronpex Reg.mgtEvtDb v.toNat w fun t => t.evtDoorbell v.toNat, rfl, ?_⟩
    rw [State.wrote_ronpex ht]
    generalize s.logWrite .ronpex Reg.mgtEvtDb v.toNat w = u at hlog
    have hmgmt : u.rp.mgmt = s.rp.mgmt := by rw [hlog.frame]
    rw [State.evtDoorbell, if_pos (by rwa [hmgmt])]
    exact mgtError_of hlog (by decide) (by decide)
  · have hlog := s.logged_logWrite Reg.logDb v.toNat w
    refine ⟨s.wrote .ronpex Reg.logDb v.toNat w fun t => t.logDoorbell v.toNat, rfl, ?_⟩
    rw [State.wrote_ronpex ht]
    generalize s.logWrite .ronpex Reg.logDb v.toNat w = u at hlog
    have hmgmt : u.rp.mgmt = s.rp.mgmt := by rw [hlog.frame]
    have hok : u.logDoorbell v.toNat = u.modMgmt fun m => { m with logHead := v.toNat } := by
      rw [State.logDoorbell, hmgmt, if_neg (by omega)]
    rw [hok]
    refine ⟨?_, regsBut_trans hlog.regs fun a _ => rfl, ?_⟩
    · rw [State.modMgmt, hmgmt]
    · rw [hlog.frame]; rfl
  · have hlog := s.logged_logWrite Reg.logDb v.toNat w
    refine ⟨s.wrote .ronpex Reg.logDb v.toNat w fun t => t.logDoorbell v.toNat, rfl, ?_⟩
    rw [State.wrote_ronpex ht]
    generalize s.logWrite .ronpex Reg.logDb v.toNat w = u at hlog
    have hmgmt : u.rp.mgmt = s.rp.mgmt := by rw [hlog.frame]
    rw [State.logDoorbell, if_pos (by rwa [hmgmt])]
    have hflag : (u.setFlag .ronpex Reg.logStat 19 true).flag .ronpex Reg.logStat 19 = true := State.flag_setFlag_same _ _ _ (by omega)
    refine ⟨?_, ringError_of (v := u.setFlag .ronpex Reg.logStat 19 true) hlog (u.setFlag_ronpex_frame _ _ _)
      (regsBut_setFlag _ _ _ (by simp)) (by decide) (State.errsum_ne_zero_of_logStat hflag)⟩
    rw [State.flag_congr (State.regsBut_errsumMsix _ u Reg.logStat (by decide)), hflag]
  · subst hn
    refine ⟨s.streamLog, rfl, ?_⟩
    rw [State.streamLog_eq hcfg hpend hroom hlost ht.1 he]
    exact State.streamed_msix (Out.logEntry (s.ringBase Reg.logBaseLo Reg.logBaseHi + 32 * (s.rp.mgmt.logTail % s.mgtSize Reg.logCfg 14)) e
      (logRingBytes (s.rp.mgmt.logTail / s.mgtSize Reg.logCfg 14 % 2 == 0) e)) _ _ 2

end Sys2Proof.Machine
end

section
/-! What leaves the registers of the Ronpex as they are, but for those that its reports are counted in: every operation that writes no
register of its own. One lemma for each, in the order and under the names of the model's files. -/

namespace Sys2Proof.Machine

open Sys2Proof Sys2Proof.Claims

/-- The registers that reports are counted in: errors and losses of the Plocen. -/
def epReportRegs : List Nat := [Reg.epAttErrcnt, Reg.epAttErr, Reg.epOptErr, Reg.epSecErr, Reg.epSeqLost, Reg.epSeqWcnt,
  Reg.epHnkFence, Reg.epSecLogCopylost, Reg.epSeqDupLo, Reg.epSeqDupHi, Reg.epSeqReflLo,
  Reg.epSeqReflHi, Reg.epSeqRefuseLo, Reg.epSeqRefuseHi, Reg.epSeqToutLo, Reg.epSeqToutHi]

@[simp] theorem mem_epReportRegs : Reg.epAttErrcnt ∈ epReportRegs ∧ Reg.epAttErr ∈ epReportRegs ∧ Reg.epOptErr ∈ epReportRegs ∧
    Reg.epSecErr ∈ epReportRegs ∧ Reg.epSeqLost ∈ epReportRegs ∧ Reg.epSeqWcnt ∈ epReportRegs ∧
    Reg.epHnkFence ∈ epReportRegs ∧ Reg.epSecLogCopylost ∈ epReportRegs ∧ Reg.epSeqDupLo ∈ epReportRegs ∧
    Reg.epSeqDupHi ∈ epReportRegs ∧ Reg.epSeqReflLo ∈ epReportRegs ∧ Reg.epSeqReflHi ∈ epReportRegs ∧
    Reg.epSeqRefuseLo ∈ epReportRegs ∧ Reg.epSeqRefuseHi ∈ epReportRegs ∧ Reg.epSeqToutLo ∈ epReportRegs ∧
    Reg.epSeqToutHi ∈ epReportRegs := by
  simp [epReportRegs]

/-- A table of registers of the Plocen, without the registers that reports are counted in. -/
def epUnreported (m : SMap Word) (a : Nat) : Nat := if a ∈ epReportRegs then 0 else (SMap.look epDefault m a).toNat

/-- The registers of the Plocen, without those that reports are counted in. -/
def State.epOwnRegs (s : State) : Nat → Nat := epUnreported s.ep.regs

@[simp] theorem State.epUnreported_regs (s : State) : epUnreported s.ep.regs = s.epOwnRegs := by rw [State.epOwnRegs]

@[simp] theorem State.epOwnRegs_mk (n f : Nat) (l : List Instr) (o : List Out) (m : SMap Byte) (r : Ronpex) (e : Plocen) :
    State.epOwnRegs { now := n, free := f, pending := l, out := o, hbm := m, rp := r, ep := e } = epUnreported e.regs := by rw [State.epOwnRegs]

theorem State.reg_of_epOwnRegs {s t : State} (h : t.epOwnRegs = s.epOwnRegs) {a : Nat} (ha : a ∉ epReportRegs) :
    t.reg .plocen a = s.reg .plocen a := by
  have := congrFun h a
  simpa [State.epOwnRegs, epUnreported, ha, State.reg, Plocen.reg] using this

theorem regsBut_of_epOwnRegs {s t : State} (h : t.epOwnRegs = s.epOwnRegs) : regsBut s t .plocen epReportRegs :=
  fun _ ha => State.reg_of_epOwnRegs h ha

theorem State.epOwnRegs_of_regsBut {s t : State} (h : regsBut s t .plocen epReportRegs) : t.epOwnRegs = s.epOwnRegs := by
  funext a
  by_cases ha : a ∈ epReportRegs
  · simp [State.epOwnRegs, epUnreported, ha]
  · have := h a ha
    simpa [State.epOwnRegs, epUnreported, ha, State.reg, Plocen.reg] using this

@[simp] theorem State.epOwnRegs_setReg (s : State) {a : Nat} (v : Nat) (h : a ∈ epReportRegs) : (s.setReg .plocen a v).epOwnRegs = s.epOwnRegs :=
  State.epOwnRegs_of_regsBut (regsBut_setReg s v h)

@[simp] theorem State.epOwnRegs_setFlag (s : State) {a : Nat} (i : Nat) (b : Bool) (h : a ∈ epReportRegs) :
    (s.setFlag .plocen a i b).epOwnRegs = s.epOwnRegs := State.epOwnRegs_of_regsBut (regsBut_setFlag s i b h)

@[simp] theorem State.epOwnRegs_satFld (s : State) {a : Nat} (lo len n : Nat) (h : a ∈ epReportRegs) :
    (s.satFld .plocen a lo len n).epOwnRegs = s.epOwnRegs := State.epOwnRegs_of_regsBut (regsBut_satFld s lo len n h)

@[simp] theorem State.epOwnRegs_addPair (s : State) {lo hi : Nat} (n : Nat) (hlo : lo ∈ epReportRegs) (hhi : hi ∈ epReportRegs) :
    (s.addPair .plocen lo hi n).epOwnRegs = s.epOwnRegs := by
  rw [State.addPair, State.epOwnRegs_setReg _ _ hhi, State.epOwnRegs_setReg _ _ hlo]

@[simp] theorem State.epOwnRegs_ite (c : Prop) [Decidable c] (a b : State) :
    (if c then a else b).epOwnRegs = if c then a.epOwnRegs else b.epOwnRegs := by
  split <;> rfl

@[simp] theorem State.epOwnRegs_foldl {α : Type} (g : State → α → State) (h : ∀ t x, (g t x).epOwnRegs = t.epOwnRegs) (l : List α)
    (s : State) : (l.foldl g s).epOwnRegs = s.epOwnRegs := by
  induction l generalizing s with
  | nil => rfl
  | cons x r ih => rw [List.foldl_cons, ih, h]

theorem State.epOwnRegs_getD (o : Option State) (s : State) (h : ∀ t, o = some t → t.epOwnRegs = s.epOwnRegs) :
    (o.getD s).epOwnRegs = s.epOwnRegs := by
  cases o with
  | none => rfl
  | some t => exact h t rfl

/-! ### Machine/Ops -/

@[simp] theorem State.epOwnRegs_setLink (s : State) (port : Nat) (l : Link) :
    (s.setLink .plocen port l).epOwnRegs = s.epOwnRegs := by
  unfold State.setLink
  simp

@[simp] theorem State.epOwnRegs_modLink (s : State) (port : Nat) (f : Link → Link) :
    (s.modLink .plocen port f).epOwnRegs = s.epOwnRegs := by
  unfold State.modLink
  simp

@[simp] theorem State.epOwnRegs_setSec (s : State) (x : Security) :
    (s.setSec .plocen x).epOwnRegs = s.epOwnRegs := by
  unfold State.setSec
  simp

@[simp] theorem State.epOwnRegs_setTimeSt (s : State) (t : TimeSt) :
    (s.setTimeSt .plocen t).epOwnRegs = s.epOwnRegs := by
  unfold State.setTimeSt
  simp

@[simp] theorem State.epOwnRegs_setOrders (s : State) (o : Orders) :
    (s.setOrders .plocen o).epOwnRegs = s.epOwnRegs := by
  unfold State.setOrders
  simp

@[simp] theorem State.epOwnRegs_setSource (s : State) (x : Source) :
    (s.setSource .plocen x).epOwnRegs = s.epOwnRegs := by
  unfold State.setSource
  simp

@[simp] theorem State.epOwnRegs_setDest (s : State) (x : Dest) :
    (s.setDest .plocen x).epOwnRegs = s.epOwnRegs := by
  unfold State.setDest
  simp

@[simp] theorem State.epOwnRegs_hbmWrite (s : State) (a : Nat) (d : List Byte) :
    (s.hbmWrite a d).epOwnRegs = s.epOwnRegs := by
  unfold State.hbmWrite
  simp

@[simp] theorem State.epOwnRegs_hbmZero (s : State) (a n : Nat) :
    (s.hbmZero a n).epOwnRegs = s.epOwnRegs := by
  unfold State.hbmZero
  simp

@[simp] theorem State.epOwnRegs_draw (s : State) :
    s.draw.2.epOwnRegs = s.epOwnRegs := by
  unfold State.draw
  simp

@[simp] theorem State.epOwnRegs_emit (s : State) (o : Out) :
    (s.emit o).epOwnRegs = s.epOwnRegs := by
  unfold State.emit
  simp

/-! ### Machine/Send -/

@[simp] theorem State.epOwnRegs_hold (s : State) (dest skein plane planes : Nat) (loc : HeldAt) (m : Msg) (own : Owner) :
    (s.hold .plocen dest skein plane planes loc m own).1.epOwnRegs = s.epOwnRegs := by
  unfold State.hold
  simp

@[simp] theorem State.epOwnRegs_epMgmt (s : State) (plane : Nat) (m : Mgmt) :
    (s.epMgmt plane m).epOwnRegs = s.epOwnRegs := by
  unfold State.epMgmt
  simp

@[simp] theorem State.epOwnRegs_epMgmtLowest (s : State) (m : Mgmt) :
    (s.epMgmtLowest m).epOwnRegs = s.epOwnRegs := by
  unfold State.epMgmtLowest
  split <;> simp

@[simp] theorem State.epOwnRegs_epLog (s : State) (b : LogBody) :
    (s.epLog b).epOwnRegs = s.epOwnRegs := by
  unfold State.epLog
  simp

@[simp] theorem State.epOwnRegs_epCond (s : State) (code origin requester port skein addr old new : Nat) :
    (s.epCond code origin requester port skein addr old new).epOwnRegs = s.epOwnRegs := by
  unfold State.epCond
  simp

@[simp] theorem State.epOwnRegs_plog (s : State) (b : LogBody) :
    (s.plog .plocen b).epOwnRegs = s.epOwnRegs := by
  unfold State.plog
  simp

@[simp] theorem State.epOwnRegs_pcond (s : State) (code origin requester port skein addr old new : Nat) :
    (s.pcond .plocen code origin requester port skein addr old new).epOwnRegs = s.epOwnRegs := by
  unfold State.pcond
  simp

@[simp] theorem State.epOwnRegs_logWrite (s : State) (a v : Nat) (w : Writer) :
    (s.logWrite .plocen a v w).epOwnRegs = s.epOwnRegs := by
  unfold State.logWrite
  simp

@[simp] theorem State.epOwnRegs_wrote (s : State) (a v : Nat) (w : Writer) (f : State → State) (h : ∀ t, (f t).epOwnRegs = t.epOwnRegs) :
    (s.wrote .plocen a v w f).epOwnRegs = s.epOwnRegs := by
  unfold State.wrote
  simp [h]

/-! ### Machine/Flags -/

@[simp] theorem State.epOwnRegs_modAtt (s : State) (f : Attach → Attach) :
    (s.modAtt f).epOwnRegs = s.epOwnRegs := by
  unfold State.modAtt
  simp

@[simp] theorem State.epOwnRegs_viaAttach (s : State) (f : State → State) (h : ∀ t, (f t).epOwnRegs = t.epOwnRegs) :
    (s.viaAttach f).epOwnRegs = s.epOwnRegs := by
  unfold State.viaAttach
  simp [h]

@[simp] theorem State.epOwnRegs_sendFlit (s : State) (kind seq : Nat) (body : List (BitVec 128)) :
    (s.sendFlit kind seq body).epOwnRegs = s.epOwnRegs := by
  unfold State.sendFlit
  simp

@[simp] theorem State.epOwnRegs_sendControl (s : State) (subtype : Nat) (params : List Byte) :
    (s.sendControl subtype params).epOwnRegs = s.epOwnRegs := by
  unfold State.sendControl
  simp

@[simp] theorem State.epOwnRegs_idleFlit (s : State) :
    s.idleFlit.epOwnRegs = s.epOwnRegs := by
  unfold State.idleFlit
  simp

@[simp] theorem State.epOwnRegs_sendChunks (n : Nat) (x : List (BitVec 128)) (s : State) :
    (s.sendChunks n x).epOwnRegs = s.epOwnRegs := by
  induction n generalizing x s with
  | zero => rfl
  | succ n ih =>
    unfold State.sendChunks
    repeat' (first | split | dsimp only)
    all_goals simp [ih]

@[simp] theorem State.epOwnRegs_sendTxn (s : State) (t : Txn) :
    (s.sendTxn t).epOwnRegs = s.epOwnRegs := by
  unfold State.sendTxn
  simp

@[simp] theorem State.epOwnRegs_pumpCpl (n : Nat) (s : State) :
    (s.pumpCpl n).epOwnRegs = s.epOwnRegs := by
  induction n generalizing s with
  | zero => rfl
  | succ n ih =>
    unfold State.pumpCpl
    repeat' (first | split | dsimp only)
    all_goals simp [ih]

@[simp] theorem State.epOwnRegs_complete (s : State) (rid tag addr status len : Nat) (data : List Byte) :
    (s.complete rid tag addr status len data).epOwnRegs = s.epOwnRegs := by
  unfold State.complete
  simp

@[simp] theorem State.epOwnRegs_pump (n : Nat) (s : State) :
    (s.pump n).epOwnRegs = s.epOwnRegs := by
  induction n generalizing s with
  | zero => rfl
  | succ n ih =>
    unfold State.pump
    repeat' (first | split | dsimp only)
    all_goals simp [ih]

@[simp] theorem State.epOwnRegs_request (s : State) (l : List AttReq) :
    (s.request l).epOwnRegs = s.epOwnRegs := by
  unfold State.request
  simp

@[simp] theorem State.epOwnRegs_modDest (s : State) (f : Dest → Dest) :
    (s.modDest f).epOwnRegs = s.epOwnRegs := by
  unfold State.modDest
  simp

@[simp] theorem State.epOwnRegs_landWrites (s : State) (l : List AttReq) :
    (s.landWrites l).epOwnRegs = s.epOwnRegs := by
  unfold State.landWrites
  simp

@[simp] theorem State.epOwnRegs_releaseLands (s : State) :
    s.releaseLands.epOwnRegs = s.epOwnRegs := by
  unfold State.releaseLands
  simp

@[simp] theorem State.epOwnRegs_epErr (s : State) (b : Nat) :
    (s.epErr b).epOwnRegs = s.epOwnRegs := by
  unfold State.epErr
  simp

@[simp] theorem State.epOwnRegs_epOptError (s : State) (b : Nat) :
    (s.epOptError b).epOwnRegs = s.epOwnRegs := by
  unfold State.epOptError
  simp

@[simp] theorem State.epOwnRegs_secError (s : State) (b port : Nat) :
    (s.secError .plocen b port).epOwnRegs = s.epOwnRegs := by
  unfold State.secError
  simp

/-! ### Machine/OrderOps -/

@[simp] theorem State.epOwnRegs_trayOut (s : State) (port : Nat) (f : TrayFrame) :
    (s.trayOut port f).epOwnRegs = s.epOwnRegs := by
  unfold State.trayOut
  simp

/-! ### Machine/CmdOps -/

@[simp] theorem State.epOwnRegs_cmdNext (s : State) :
    s.cmdNext.epOwnRegs = s.epOwnRegs := by
  unfold State.cmdNext
  simp

@[simp] theorem State.epOwnRegs_sendReport (s : State) (r : Report) :
    (s.sendReport r).epOwnRegs = s.epOwnRegs := by
  unfold State.sendReport
  simp

@[simp] theorem State.epOwnRegs_report (s : State) (type target plane : Nat) :
    (s.report type target plane).epOwnRegs = s.epOwnRegs := by
  unfold State.report
  dsimp only
  split <;> simp

@[simp] theorem State.epOwnRegs_reportWindow (s : State) (type target : Nat) :
    (s.reportWindow type target).epOwnRegs = s.epOwnRegs := by
  unfold State.reportWindow
  split <;> simp

/-! ### Machine/RingOps -/

@[simp] theorem State.epOwnRegs_modRing (s : State) (n : Nat) (f : Ring → Ring) :
    (s.modRing n f).epOwnRegs = s.epOwnRegs := by
  unfold State.modRing
  simp

@[simp] theorem State.epOwnRegs_ringError (s : State) (n code : Nat) :
    (s.ringError n code).epOwnRegs = s.epOwnRegs := by
  unfold State.ringError
  simp

@[simp] theorem State.epOwnRegs_fetchFrom (n : Nat) (s : State) (x : Nat) :
    (s.fetchFrom n x).epOwnRegs = s.epOwnRegs := by
  induction n generalizing s x with
  | zero => rfl
  | succ n ih =>
    unfold State.fetchFrom
    repeat' (first | split | dsimp only)
    all_goals simp [ih]

@[simp] theorem State.epOwnRegs_fetchRing (s : State) (n : Nat) :
    (s.fetchRing n).epOwnRegs = s.epOwnRegs := by
  unfold State.fetchRing
  simp

@[simp] theorem State.epOwnRegs_ringIntr (s : State) (n : Nat) :
    (s.ringIntr n).epOwnRegs = s.epOwnRegs := by
  unfold State.ringIntr
  dsimp only
  split <;> simp

@[simp] theorem State.epOwnRegs_postCompletion (s : State) (n sub code info cookie : Nat) :
    (s.postCompletion n sub code info cookie).epOwnRegs = s.epOwnRegs := by
  unfold State.postCompletion
  simp

@[simp] theorem State.epOwnRegs_completionDone (s : State) (n at_ : Nat) (ok : Bool) :
    (s.completionDone n at_ ok).epOwnRegs = s.epOwnRegs := by
  unfold State.completionDone
  simp

@[simp] theorem State.epOwnRegs_modAct (s : State) (n sub : Nat) (f : Act → Act) :
    (s.modAct n sub f).epOwnRegs = s.epOwnRegs := by
  unfold State.modAct
  simp

@[simp] theorem State.epOwnRegs_dropFront (s : State) (n : Nat) :
    (s.dropFront n).epOwnRegs = s.epOwnRegs := by
  unfold State.dropFront
  simp

@[simp] theorem State.epOwnRegs_settleFront (n : Nat) (s : State) (x : Nat) :
    (s.settleFront n x).epOwnRegs = s.epOwnRegs := by
  induction n generalizing s x with
  | zero => rfl
  | succ n ih =>
    unfold State.settleFront
    repeat' (first | split | dsimp only)
    all_goals simp [ih]

@[simp] theorem State.epOwnRegs_settleRing (s : State) (n : Nat) :
    (s.settleRing n).epOwnRegs = s.epOwnRegs := by
  unfold State.settleRing
  simp

@[simp] theorem State.epOwnRegs_takeArrived (n : Nat) (s : State) (x : Nat) :
    (s.takeArrived n x).epOwnRegs = s.epOwnRegs := by
  induction n generalizing s x with
  | zero => rfl
  | succ n ih =>
    unfold State.takeArrived
    repeat' (first | split | dsimp only)
    all_goals simp [ih]

@[simp] theorem State.epOwnRegs_ringFetched (s : State) (n first m : Nat) (data : List Byte) (ok : Bool) :
    (s.ringFetched n first m data ok).epOwnRegs = s.epOwnRegs := by
  unfold State.ringFetched
  simp

@[simp] theorem State.epOwnRegs_failAct (s : State) (n sub code info : Nat) :
    (s.failAct n sub code info).epOwnRegs = s.epOwnRegs := by
  unfold State.failAct
  split <;> simp

@[simp] theorem State.epOwnRegs_settleAct (s : State) (n sub : Nat) :
    (s.settleAct n sub).epOwnRegs = s.epOwnRegs := by
  unfold State.settleAct
  split <;> simp

@[simp] theorem State.epOwnRegs_partDone (s : State) (n sub : Nat) :
    (s.partDone n sub).epOwnRegs = s.epOwnRegs := by
  unfold State.partDone
  simp

@[simp] theorem State.epOwnRegs_partFailed (s : State) (n sub code info : Nat) :
    (s.partFailed n sub code info).epOwnRegs = s.epOwnRegs := by
  unfold State.partFailed
  simp

@[simp] theorem State.epOwnRegs_setHank (s : State) (i v : Nat) :
    (s.setHank i v).epOwnRegs = s.epOwnRegs := by
  unfold State.setHank
  simp

@[simp] theorem State.epOwnRegs_countHank (s : State) (i n : Nat) :
    (s.countHank i n).epOwnRegs = s.epOwnRegs := by
  unfold State.countHank
  simp

@[simp] theorem State.epOwnRegs_settleFences (s : State) :
    s.settleFences.epOwnRegs = s.epOwnRegs := by
  unfold State.settleFences
  simp

@[simp] theorem State.epOwnRegs_storeDone (s : State) (id : Nat) (lost : Bool) :
    (s.storeDone id lost).epOwnRegs = s.epOwnRegs := by
  unfold State.storeDone
  simp

@[simp] theorem State.epOwnRegs_loadDone (s : State) (id status : Nat) (data : List Byte) :
    (s.loadDone id status data).epOwnRegs = s.epOwnRegs := by
  unfold State.loadDone
  split <;> simp

/-! ### Machine/EpWarpOps -/

@[simp] theorem State.epOwnRegs_modEw (s : State) (f : EpWarp → EpWarp) :
    (s.modEw f).epOwnRegs = s.epOwnRegs := by
  unfold State.modEw
  simp

@[simp] theorem State.epOwnRegs_modBind (s : State) (id : Nat) (f : Binding → Binding) :
    (s.modBind id f).epOwnRegs = s.epOwnRegs := by
  unfold State.modBind
  simp

@[simp] theorem State.epOwnRegs_settleBind (s : State) (id : Nat) :
    (s.settleBind id).epOwnRegs = s.epOwnRegs := by
  unfold State.settleBind
  repeat' split
  all_goals simp

@[simp] theorem State.epOwnRegs_endBind (s : State) (id code info : Nat) :
    (s.endBind id code info).epOwnRegs = s.epOwnRegs := by
  unfold State.endBind
  simp

@[simp] theorem State.epOwnRegs_modRun (s : State) (pat : Nat) (f : Run → Run) :
    (s.modRun pat f).epOwnRegs = s.epOwnRegs := by
  unfold State.modRun
  simp

@[simp] theorem State.epOwnRegs_checkBind (s : State) (id : Nat) :
    (s.checkBind id).epOwnRegs = s.epOwnRegs := by
  unfold State.checkBind
  split <;> simp

@[simp] theorem State.epOwnRegs_endInstance (s : State) (pat ph : Nat) :
    (s.endInstance pat ph).epOwnRegs = s.epOwnRegs := by
  unfold State.endInstance
  split <;> simp

@[simp] theorem State.epOwnRegs_readCells (s : State) (b : Binding) (plane slice round : Nat) :
    (s.readCells b plane slice round).epOwnRegs = s.epOwnRegs := by
  unfold State.readCells
  simp

@[simp] theorem State.epOwnRegs_readRun (s : State) (pat : Nat) :
    (s.readRun pat).epOwnRegs = s.epOwnRegs := by
  unfold State.readRun
  split <;> simp

@[simp] theorem State.epOwnRegs_contribDone (s : State) (bind ph round slice cell off : Nat) (data : List Byte) (ok : Bool) :
    (s.contribDone bind ph round slice cell off data ok).epOwnRegs = s.epOwnRegs := by
  unfold State.contribDone
  simp

@[simp] theorem State.epOwnRegs_goRun (s : State) (pat inst plane : Nat) :
    (s.goRun pat inst plane).epOwnRegs = s.epOwnRegs := by
  unfold State.goRun
  dsimp only
  repeat' split
  all_goals simp

@[simp] theorem State.epOwnRegs_landCell (s : State) (sl : Nat) (b : Binding) (ph slice round cell : Nat) (payload : List Byte) :
    (s.landCell sl b ph slice round cell payload).epOwnRegs = s.epOwnRegs := by
  unfold State.landCell
  simp

@[simp] theorem State.epOwnRegs_warpLanded (s : State) (id : Nat) (ok : Bool) :
    (s.warpLanded id ok).epOwnRegs = s.epOwnRegs := by
  unfold State.warpLanded
  repeat' split
  all_goals simp

@[simp] theorem State.epOwnRegs_shadowRead (s : State) (plane addr n : Nat) (own : Owner) :
    (s.shadowRead plane addr n own).epOwnRegs = s.epOwnRegs := by
  unfold State.shadowRead
  dsimp only
  split <;> simp

@[simp] theorem State.epOwnRegs_shadowFetch (s : State) (r : Run) (plane slice round : Nat) :
    (s.shadowFetch r plane slice round).epOwnRegs = s.epOwnRegs := by
  unfold State.shadowFetch
  refine State.epOwnRegs_foldl _ (fun t q => ?_) _ _
  split
  · rfl
  · simp

@[simp] theorem State.epOwnRegs_shadowCells (s : State) (b : Binding) (plane inst ph slice round : Nat) :
    (s.shadowCells b plane inst ph slice round).epOwnRegs = s.epOwnRegs := by
  unfold State.shadowCells
  simp

@[simp] theorem State.epOwnRegs_rerun (s : State) (pat plane slice round : Nat) :
    (s.rerun pat plane slice round).epOwnRegs = s.epOwnRegs := by
  unfold State.rerun
  split <;> simp

@[simp] theorem State.epOwnRegs_shadowData (s : State) (bind plane ph slice round cell : Nat) (tally : Bool) (data : List Byte) :
    (s.shadowData bind plane ph slice round cell tally data).epOwnRegs = s.epOwnRegs := by
  unfold State.shadowData
  repeat' split
  all_goals simp

@[simp] theorem State.epOwnRegs_closeRun (s : State) (f pat : Nat) :
    (s.closeRun f pat).epOwnRegs = s.epOwnRegs := by
  unfold State.closeRun
  split <;> simp

@[simp] theorem State.epOwnRegs_openRun (s : State) (f pat : Nat) :
    (s.openRun f pat).epOwnRegs = s.epOwnRegs := by
  unfold State.openRun
  split <;> simp

@[simp] theorem State.epOwnRegs_closeRuns (s : State) :
    s.closeRuns.epOwnRegs = s.epOwnRegs := by
  unfold State.closeRuns
  simp

@[simp] theorem State.epOwnRegs_openRuns (s : State) :
    s.openRuns.epOwnRegs = s.epOwnRegs := by
  unfold State.openRuns
  simp

@[simp] theorem State.epOwnRegs_noteFailed (s : State) (j n ph : Nat) :
    (s.noteFailed j n ph).epOwnRegs = s.epOwnRegs := by
  unfold State.noteFailed
  repeat' split
  all_goals simp

@[simp] theorem State.epOwnRegs_noteLate (s : State) (j ph : Nat) :
    (s.noteLate j ph).epOwnRegs = s.epOwnRegs := by
  unfold State.noteLate
  dsimp only
  split <;> simp

/-! ### Machine/XltOps -/

@[simp] theorem State.epOwnRegs_modXlt (s : State) (f : Xlt → Xlt) :
    (s.modXlt f).epOwnRegs = s.epOwnRegs := by
  unfold State.modXlt
  simp

@[simp] theorem State.epOwnRegs_modShuttle (s : State) (k : Nat) (f : Shuttle → Shuttle) :
    (s.modShuttle k f).epOwnRegs = s.epOwnRegs := by
  unfold State.modShuttle
  simp

@[simp] theorem State.epOwnRegs_setMicro (s : State) (m : Nat) (l : List OutExt) :
    (s.setMicro m l).epOwnRegs = s.epOwnRegs := by
  unfold State.setMicro
  simp

@[simp] theorem State.epOwnRegs_intoMicro (s : State) (m : Nat) (e : OutExt) :
    (s.intoMicro m e).epOwnRegs = s.epOwnRegs := by
  unfold State.intoMicro
  simp

@[simp] theorem State.epOwnRegs_lookupOut (s : State) (m tag va kind : Nat) :
    (s.lookupOut m tag va kind).2.epOwnRegs = s.epOwnRegs := by
  unfold State.lookupOut
  repeat' split
  all_goals simp

@[simp] theorem State.epOwnRegs_writeMiss (s : State) (r : MissRec) :
    (s.writeMiss r).epOwnRegs = s.epOwnRegs := by
  unfold State.writeMiss
  simp

@[simp] theorem State.epOwnRegs_postMiss (s : State) (r : MissRec) :
    (s.postMiss r).epOwnRegs = s.epOwnRegs := by
  unfold State.postMiss
  simp

@[simp] theorem State.epOwnRegs_postHeld (n : Nat) (s : State) :
    (s.postHeld n).epOwnRegs = s.epOwnRegs := by
  induction n generalizing s with
  | zero => rfl
  | succ n ih =>
    unfold State.postHeld
    repeat' (first | split | dsimp only)
    all_goals simp [ih]

@[simp] theorem State.epOwnRegs_missIntr (s : State) :
    s.missIntr.epOwnRegs = s.epOwnRegs := by
  unfold State.missIntr
  simp

@[simp] theorem State.epOwnRegs_missDone (s : State) (c : Nat) (ok : Bool) :
    (s.missDone c ok).epOwnRegs = s.epOwnRegs := by
  unfold State.missDone
  split <;> simp

@[simp] theorem State.epOwnRegs_rewriteMisses (s : State) :
    s.rewriteMisses.epOwnRegs = s.epOwnRegs := by
  unfold State.rewriteMisses
  simp

@[simp] theorem State.epOwnRegs_postAnswer (s : State) (type tag fill info : Nat) :
    (s.postAnswer type tag fill info).epOwnRegs = s.epOwnRegs := by
  unfold State.postAnswer
  simp

@[simp] theorem State.epOwnRegs_newMiss (s : State) (fault : Bool) (tag va kind unit ring sub info : Nat) (direct : List DMiss) :
    (s.newMiss fault tag va kind unit ring sub info direct).1.epOwnRegs = s.epOwnRegs := by
  unfold State.newMiss
  simp

@[simp] theorem State.epOwnRegs_stall (s : State) (k : Nat) (fault : Option OutExt) (tag va kind ring sub : Nat) :
    (s.stall k fault tag va kind ring sub).epOwnRegs = s.epOwnRegs := by
  unfold State.stall
  dsimp only
  repeat' split
  all_goals simp

@[simp] theorem State.epOwnRegs_dropDirect (s : State) (d : DMiss) :
    (s.dropDirect d).epOwnRegs = s.epOwnRegs := by
  unfold State.dropDirect
  simp

@[simp] theorem State.epOwnRegs_directMiss (s : State) (fault : Option OutExt) (tag va kind : Nat) (d : DMiss) :
    (s.directMiss fault tag va kind d).epOwnRegs = s.epOwnRegs := by
  unfold State.directMiss
  dsimp only
  repeat' split
  all_goals simp

@[simp] theorem State.epOwnRegs_endMiss (s : State) (id : Nat) :
    (s.endMiss id).epOwnRegs = s.epOwnRegs := by
  unfold State.endMiss
  split
  · rfl
  · dsimp only
    rw [State.epOwnRegs_foldl _ fun t d => by simp, State.epOwnRegs_foldl _ fun t k => ?_, State.epOwnRegs_modXlt]
    split
    · split <;> simp
    · rfl

/-! ### Machine/WeftAnswer -/

@[simp] theorem State.epOwnRegs_modSource (s : State) (f : Source → Source) :
    (s.modSource .plocen f).epOwnRegs = s.epOwnRegs := by
  unfold State.modSource
  simp

@[simp] theorem State.epOwnRegs_modHeld (s : State) (id : Nat) (f : Held → Held) :
    (s.modHeld .plocen id f).epOwnRegs = s.epOwnRegs := by
  unfold State.modHeld
  simp

@[simp] theorem State.epOwnRegs_takeWin (s : State) (node plane win : Nat) :
    (s.takeWin .plocen node plane win).epOwnRegs = s.epOwnRegs := by
  unfold State.takeWin
  simp

@[simp] theorem State.epOwnRegs_unqueue (s : State) (plane id : Nat) :
    (s.unqueue plane id).epOwnRegs = s.epOwnRegs := by
  unfold State.unqueue
  simp

@[simp] theorem State.epOwnRegs_dropHeld (s : State) (h : Held) :
    (s.dropHeld .plocen h).epOwnRegs = s.epOwnRegs := by
  unfold State.dropHeld
  simp

@[simp] theorem State.epOwnRegs_shadowLost (s : State) (bind plane slice round : Nat) :
    (s.shadowLost bind plane slice round).epOwnRegs = s.epOwnRegs := by
  unfold State.shadowLost
  split <;> simp

@[simp] theorem State.epOwnRegs_messageLost (s : State) (h : Held) (x : SentMsg) (code info : Nat) :
    (s.messageLost .plocen h x code info).epOwnRegs = s.epOwnRegs := by
  unfold State.messageLost
  cases x.owner
  all_goals dsimp only
  all_goals repeat' split
  all_goals simp

@[simp] theorem State.epOwnRegs_endHeld (s : State) (id code : Nat) :
    (s.endHeld .plocen id code).epOwnRegs = s.epOwnRegs := by
  unfold State.endHeld
  split <;> simp

@[simp] theorem State.epOwnRegs_land (s : State) (x : SentMsg) (data : List Byte) :
    (s.land x data).epOwnRegs = s.epOwnRegs := by
  unfold State.land
  simp

@[simp] theorem State.epOwnRegs_deliver (s : State) (h : Held) (x : SentMsg) (data : List Byte) :
    (s.deliver .plocen h x data).epOwnRegs = s.epOwnRegs := by
  unfold State.deliver
  cases x.owner
  all_goals dsimp only
  all_goals repeat' split
  all_goals simp

@[simp] theorem State.epOwnRegs_answer (s : State) (id i : Nat) (data : List Byte) :
    (s.answer .plocen id i data).epOwnRegs = s.epOwnRegs := by
  unfold State.answer
  repeat' split
  all_goals simp

@[simp] theorem State.epOwnRegs_takeReply (s : State) (c : Container) (m : Msg) :
    (s.takeReply .plocen c m).epOwnRegs = s.epOwnRegs := by
  unfold State.takeReply
  dsimp only
  split <;> simp

@[simp] theorem State.epOwnRegs_landDone (s : State) (id : Nat) (ok : Bool) :
    (s.landDone id ok).epOwnRegs = s.epOwnRegs := by
  unfold State.landDone
  repeat' split
  all_goals simp

@[simp] theorem State.epOwnRegs_replane (s : State) (id : Nat) :
    (s.replane id).epOwnRegs = s.epOwnRegs := by
  unfold State.replane
  repeat' split
  all_goals simp

@[simp] theorem State.epOwnRegs_requeue (s : State) (h : Held) :
    (s.requeue h).epOwnRegs = s.epOwnRegs := by
  unfold State.requeue
  simp

@[simp] theorem State.epOwnRegs_resend (s : State) (id : Nat) :
    (s.resend .plocen id).epOwnRegs = s.epOwnRegs := by
  unfold State.resend
  split <;> simp

@[simp] theorem State.epOwnRegs_reflected (s : State) (c : Container) (plane : Nat) :
    (s.reflected .plocen c plane).epOwnRegs = s.epOwnRegs := by
  unfold State.reflected
  dsimp only
  split <;> simp

@[simp] theorem State.epOwnRegs_backoffEnd (s : State) (id : Nat) :
    (s.backoffEnd .plocen id).epOwnRegs = s.epOwnRegs := by
  unfold State.backoffEnd
  repeat' split
  all_goals simp

@[simp] theorem State.epOwnRegs_retryTimer (s : State) (id : Nat) :
    (s.retryTimer .plocen id).epOwnRegs = s.epOwnRegs := by
  unfold State.retryTimer
  split <;> simp

@[simp] theorem State.epOwnRegs_lifeTimer (s : State) (id : Nat) :
    (s.lifeTimer .plocen id).epOwnRegs = s.epOwnRegs := by
  unfold State.lifeTimer
  split <;> simp

@[simp] theorem State.epOwnRegs_pathLost (s : State) (plane tL : Nat) :
    (s.pathLost plane tL).epOwnRegs = s.epOwnRegs := by
  unfold State.pathLost
  simp

@[simp] theorem State.epOwnRegs_resendPlane (s : State) (plane : Nat) :
    (s.resendPlane plane).epOwnRegs = s.epOwnRegs := by
  unfold State.resendPlane
  simp

/-! ### Machine/EpOrders -/

@[simp] theorem State.epOwnRegs_relayOthers (s : State) (plane : Nat) (m : Mgmt) :
    (s.relayOthers plane m).epOwnRegs = s.epOwnRegs := by
  unfold State.relayOthers
  simp

@[simp] theorem State.epOwnRegs_epOrderIn (s : State) (plane : Nat) (o : SwitchOrder) :
    (s.epOrderIn plane o).epOwnRegs = s.epOwnRegs := by
  unfold State.epOrderIn
  simp

@[simp] theorem State.epOwnRegs_epPlaneOut (s : State) (plane : Nat) :
    (s.epPlaneOut plane).epOwnRegs = s.epOwnRegs := by
  unfold State.epPlaneOut
  simp

@[simp] theorem State.epOwnRegs_epEpochIn (s : State) (plane e eff : Nat) :
    (s.epEpochIn plane e eff).epOwnRegs = s.epOwnRegs := by
  unfold State.epEpochIn
  simp

@[simp] theorem State.epOwnRegs_snapEvent (s : State) (number missed : Nat) :
    (s.snapEvent .plocen number missed).epOwnRegs = s.epOwnRegs := by
  unfold State.snapEvent
  simp

@[simp] theorem State.epOwnRegs_epRelease (s : State) (port gen : Nat) :
    (s.epRelease port gen).epOwnRegs = s.epOwnRegs := by
  unfold State.epRelease
  simp

@[simp] theorem State.epOwnRegs_mgmtRefused (s : State) (port node mtype : Nat) :
    (s.mgmtRefused .plocen port node mtype).epOwnRegs = s.epOwnRegs := by
  unfold State.mgmtRefused
  simp

/-! ### Machine/WeftDest -/

@[simp] theorem State.epOwnRegs_queueReply (s : State) (plane : Nat) (c : Container) :
    (s.queueReply plane c).epOwnRegs = s.epOwnRegs := by
  unfold State.queueReply
  simp

@[simp] theorem State.epOwnRegs_sendReplies (s : State) (l : List Reply) :
    (s.sendReplies l).epOwnRegs = s.epOwnRegs := by
  unfold State.sendReplies
  split <;> simp

@[simp] theorem State.epOwnRegs_flushLike (s : State) (r : Reply) :
    (s.flushLike r).epOwnRegs = s.epOwnRegs := by
  unfold State.flushLike
  simp

@[simp] theorem State.epOwnRegs_reply (s : State) (r : Reply) :
    (s.reply r).epOwnRegs = s.epOwnRegs := by
  unfold State.reply
  simp

@[simp] theorem State.epOwnRegs_replyHold (s : State) (node : Nat) :
    (s.replyHold node).epOwnRegs = s.epOwnRegs := by
  unfold State.replyHold
  simp

@[simp] theorem State.epOwnRegs_respond (s : State) (a : Arrival) (opc : Nat) (data : List Byte) :
    (s.respond a opc data).epOwnRegs = s.epOwnRegs := by
  unfold State.respond
  split <;> simp

@[simp] theorem State.epOwnRegs_ownFailed (s : State) (id i : Nat) :
    (s.ownFailed id i).epOwnRegs = s.epOwnRegs := by
  unfold State.ownFailed
  repeat' split
  all_goals simp

@[simp] theorem State.epOwnRegs_newJob (s : State) (a : Arrival) :
    (s.newJob a).epOwnRegs = s.epOwnRegs := by
  unfold State.newJob
  simp

@[simp] theorem State.epOwnRegs_modJob (s : State) (id : Nat) (f : Job → Job) :
    (s.modJob id f).epOwnRegs = s.epOwnRegs := by
  unfold State.modJob
  simp

@[simp] theorem State.epOwnRegs_endJob (s : State) (j : Job) (failed : Bool) :
    (s.endJob j failed).epOwnRegs = s.epOwnRegs := by
  unfold State.endJob
  dsimp only
  split <;> simp

@[simp] theorem State.epOwnRegs_jobOver (s : State) (j : Job) :
    (s.jobOver j).epOwnRegs = s.epOwnRegs := by
  unfold State.jobOver
  dsimp only
  repeat' split
  all_goals simp

@[simp] theorem State.epOwnRegs_epReflect (s : State) (p : Nat) (c : Container) :
    (s.epReflect p c).epOwnRegs = s.epOwnRegs := by
  unfold State.epReflect
  simp

@[simp] theorem State.epOwnRegs_epRefuse (s : State) (p : Nat) (c : Container) :
    (s.epRefuse p c).epOwnRegs = s.epOwnRegs := by
  unfold State.epRefuse
  simp

@[simp] theorem State.epOwnRegs_countDup (s : State) :
    s.countDup.epOwnRegs = s.epOwnRegs := by
  unfold State.countDup
  simp

@[simp] theorem State.epOwnRegs_epMessage (s : State) (a : Arrival) :
    (s.epMessage a).epOwnRegs = s.epOwnRegs := by
  unfold State.epMessage
  repeat' split
  all_goals simp

@[simp] theorem State.epOwnRegs_epSlotUse (s : State) (p kind src skein : Nat) :
    (s.epSlotUse p kind src skein).2.epOwnRegs = s.epOwnRegs := by
  unfold State.epSlotUse
  dsimp only
  repeat' split
  all_goals simp

@[simp] theorem State.epOwnRegs_recExpire (s : State) (node : Nat) :
    (s.recExpire .plocen node).epOwnRegs = s.epOwnRegs := by
  unfold State.recExpire
  dsimp only
  split <;> simp

@[simp] theorem State.epOwnRegs_ctxExpire (s : State) (node stream : Nat) :
    (s.ctxExpire .plocen node stream).epOwnRegs = s.epOwnRegs := by
  unfold State.ctxExpire
  simp

@[simp] theorem State.epOwnRegs_cacheExpire (s : State) :
    (s.cacheExpire .plocen).epOwnRegs = s.epOwnRegs := by
  unfold State.cacheExpire
  simp

/-! ### Machine/WeftForm -/

@[simp] theorem State.epOwnRegs_promoteOne (s : State) (id : Nat) :
    (s.promoteOne id).epOwnRegs = s.epOwnRegs := by
  unfold State.promoteOne
  split <;> simp

@[simp] theorem State.epOwnRegs_packFull (s : State) (node plane : Nat) :
    (s.packFull node plane).epOwnRegs = s.epOwnRegs := by
  unfold State.packFull
  simp

@[simp] theorem State.epOwnRegs_packExpire (s : State) (node plane : Nat) :
    (s.packExpire node plane).epOwnRegs = s.epOwnRegs := by
  unfold State.packExpire
  simp

@[simp] theorem State.epOwnRegs_newHeld (s : State) (m : Msg) (sent : SentMsg) (node plane planes xtag reserve : Nat) (stream : Option Nat) (direct small room : Bool) (shuttle : Option Nat) (reads : List (Nat × Nat × Nat)) :
    (s.newHeld m sent node plane planes xtag reserve stream direct small room shuttle reads).epOwnRegs = s.epOwnRegs := by
  unfold State.newHeld
  simp

@[simp] theorem State.epOwnRegs_askList (s : State) (ring sub : Nat) :
    (s.askList ring sub).epOwnRegs = s.epOwnRegs := by
  unfold State.askList
  split <;> simp

@[simp] theorem State.epOwnRegs_listCheck (s : State) (ring sub : Nat) :
    (s.listCheck ring sub).epOwnRegs = s.epOwnRegs := by
  unfold State.listCheck
  repeat' split
  all_goals simp

@[simp] theorem State.epOwnRegs_listFailed (s : State) (ring sub : Nat) :
    (s.listFailed ring sub).epOwnRegs = s.epOwnRegs := by
  unfold State.listFailed
  split <;> simp

@[simp] theorem State.epOwnRegs_listDone (s : State) (ring sub first n : Nat) (data : List Byte) (ok : Bool) :
    (s.listDone ring sub first n data ok).epOwnRegs = s.epOwnRegs := by
  unfold State.listDone
  simp

@[simp] theorem State.epOwnRegs_listPartDone (s : State) (ring sub entry lo : Nat) (data : List Byte) (ok : Bool) :
    (s.listPartDone ring sub entry lo data ok).epOwnRegs = s.epOwnRegs := by
  unfold State.listPartDone
  simp

@[simp] theorem State.epOwnRegs_returnBurst (s : State) (b : Burst) :
    (s.returnBurst b).epOwnRegs = s.epOwnRegs := by
  unfold State.returnBurst
  simp

@[simp] theorem State.epOwnRegs_giveBack (s : State) (ring n : Nat) :
    (s.giveBack ring n).epOwnRegs = s.epOwnRegs := by
  unfold State.giveBack
  simp

@[simp] theorem State.epOwnRegs_injectHeld (s : State) (p : Nat) (h : Held) :
    (s.injectHeld p h).epOwnRegs = s.epOwnRegs := by
  unfold State.injectHeld
  simp

@[simp] theorem State.epOwnRegs_injectOn (s : State) (p : Nat) :
    (s.injectOn p).epOwnRegs = s.epOwnRegs := by
  unfold State.injectOn
  split <;> simp

@[simp] theorem State.epOwnRegs_unform (s : State) (h : Held) :
    (s.unform h).epOwnRegs = s.epOwnRegs := by
  unfold State.unform
  simp

@[simp] theorem State.epOwnRegs_fenceShuttle (s : State) (k : Nat) :
    (s.fenceShuttle k).epOwnRegs = s.epOwnRegs := by
  unfold State.fenceShuttle
  split <;> simp

/-! ### Machine/Ready -/

@[simp] theorem State.epOwnRegs_unready (s : State) :
    s.unready.epOwnRegs = s.epOwnRegs := by
  unfold State.unready
  simp

/-! ### Machine/FaultOps -/

@[simp] theorem State.epOwnRegs_stopClock (s : State) (port : Nat) :
    (s.stopClock .plocen port).epOwnRegs = s.epOwnRegs := by
  unfold State.stopClock
  simp

@[simp] theorem State.epOwnRegs_portGone (s : State) (port : Nat) :
    (s.portGone .plocen port).epOwnRegs = s.epOwnRegs := by
  unfold State.portGone
  simp

/-! ### Machine/EpWarp -/

@[simp] theorem State.epOwnRegs_modSky (s : State) (p : Nat) (f : SkyRun → SkyRun) :
    (s.modSky p f).epOwnRegs = s.epOwnRegs := by
  unfold State.modSky
  simp

@[simp] theorem State.epOwnRegs_skyIn (s : State) (p : Nat) (c : WarpCell) :
    (s.skyIn p c).epOwnRegs = s.epOwnRegs := by
  unfold State.skyIn
  dsimp only
  repeat' split
  all_goals simp

@[simp] theorem State.epOwnRegs_epAnchorsIn (s : State) (p : Nat) (c : WarpCell) :
    (s.epAnchorsIn p c).epOwnRegs = s.epOwnRegs := by
  unfold State.epAnchorsIn
  simp

@[simp] theorem State.epOwnRegs_roundPassed (s : State) (p pat : Nat) (r : Run) (round : Nat) :
    (s.roundPassed p pat r round).epOwnRegs = s.epOwnRegs := by
  unfold State.roundPassed
  simp

@[simp] theorem State.epOwnRegs_resultIn (s : State) (p : Nat) (x : PhaseRec) (r : Run) (c : WarpCell) :
    (s.resultIn p x r c).epOwnRegs = s.epOwnRegs := by
  unfold State.resultIn
  dsimp only
  repeat' split
  all_goals simp

@[simp] theorem State.epOwnRegs_epWarpIn (s : State) (p : Nat) (c : WarpCell) :
    (s.epWarpIn p c).epOwnRegs = s.epOwnRegs := by
  unfold State.epWarpIn
  dsimp only
  repeat' split
  all_goals simp

/-! ### Machine/LinkOps -/

@[simp] theorem State.epOwnRegs_lmcPush (s : State) (port : Nat) (l : List LmcMsg) :
    (s.lmcPush .plocen port l).epOwnRegs = s.epOwnRegs := by
  unfold State.lmcPush
  simp

@[simp] theorem State.epOwnRegs_logIdentity (s : State) (port : Nat) (i : Identity) (received : Bool) :
    (s.logIdentity .plocen port i received).epOwnRegs = s.epOwnRegs := by
  unfold State.logIdentity
  simp

@[simp] theorem State.epOwnRegs_tuneWls (s : State) (port : Nat) (ws : List Nat) :
    (s.tuneWls .plocen port ws).epOwnRegs = s.epOwnRegs := by
  unfold State.tuneWls
  simp

@[simp] theorem State.epOwnRegs_swapEvent (s : State) (port reason w : Nat) :
    (s.swapEvent .plocen port reason w).epOwnRegs = s.epOwnRegs := by
  unfold State.swapEvent
  simp

@[simp] theorem State.epOwnRegs_swapAckIn (s : State) (port lane frame : Nat) :
    (s.swapAckIn .plocen port lane frame).epOwnRegs = s.epOwnRegs := by
  unfold State.swapAckIn
  simp

@[simp] theorem State.epOwnRegs_lightOut (s : State) (port : Nat) :
    (s.lightOut .plocen port).epOwnRegs = s.epOwnRegs := by
  unfold State.lightOut
  simp

@[simp] theorem State.epOwnRegs_lightBack (s : State) (port : Nat) :
    (s.lightBack .plocen port).epOwnRegs = s.epOwnRegs := by
  unfold State.lightBack
  split <;> simp

@[simp] theorem State.epOwnRegs_timeEvent (s : State) (case : Nat) :
    (s.timeEvent .plocen case).epOwnRegs = s.epOwnRegs := by
  unfold State.timeEvent
  simp

@[simp] theorem State.epOwnRegs_timeFrom (s : State) (port : Nat) (twice : Int) (delay depth : Nat) :
    (s.timeFrom .plocen port twice delay depth).epOwnRegs = s.epOwnRegs := by
  unfold State.timeFrom
  simp

@[simp] theorem State.epOwnRegs_syncIn (s : State) (port seq : Nat) (locked master : Bool) (depth time16 recv16 : Nat) :
    (s.syncIn .plocen port seq locked master depth time16 recv16).epOwnRegs = s.epOwnRegs := by
  unfold State.syncIn
  simp

/-! ### Machine/KeyOps -/

@[simp] theorem State.epOwnRegs_modKeys (s : State) (port : Nat) (f : LinkKeys → LinkKeys) :
    (s.modKeys .plocen port f).epOwnRegs = s.epOwnRegs := by
  unfold State.modKeys
  simp

@[simp] theorem State.epOwnRegs_keysFailed (s : State) (port reason : Nat) :
    (s.keysFailed .plocen port reason).epOwnRegs = s.epOwnRegs := by
  unfold State.keysFailed
  simp

@[simp] theorem State.epOwnRegs_sendSig (s : State) (port : Nat) :
    (s.sendSig .plocen port).epOwnRegs = s.epOwnRegs := by
  unfold State.sendSig
  split <;> simp

@[simp] theorem State.epOwnRegs_beginKeys (s : State) (port : Nat) (cert : Bool) :
    (s.beginKeys .plocen port cert).epOwnRegs = s.epOwnRegs := by
  unfold State.beginKeys
  simp

@[simp] theorem State.epOwnRegs_rekey (s : State) (port : Nat) :
    (s.rekey .plocen port).epOwnRegs = s.epOwnRegs := by
  unfold State.rekey
  simp

@[simp] theorem State.epOwnRegs_switchIn (s : State) (port gen frame : Nat) :
    (s.switchIn .plocen port gen frame).epOwnRegs = s.epOwnRegs := by
  unfold State.switchIn
  simp

@[simp] theorem State.epOwnRegs_switchAckIn (s : State) (port gen frame : Nat) :
    (s.switchAckIn .plocen port gen frame).epOwnRegs = s.epOwnRegs := by
  unfold State.switchAckIn
  simp

@[simp] theorem State.epOwnRegs_switchRetry (s : State) (port : Nat) :
    (s.switchRetry .plocen port).epOwnRegs = s.epOwnRegs := by
  unfold State.switchRetry
  dsimp only
  split <;> simp

@[simp] theorem State.epOwnRegs_enterStep (s : State) (port k : Nat) :
    (s.enterStep .plocen port k).epOwnRegs = s.epOwnRegs := by
  unfold State.enterStep
  simp

@[simp] theorem State.epOwnRegs_stepOn (s : State) (port : Nat) :
    (s.stepOn .plocen port).epOwnRegs = s.epOwnRegs := by
  unfold State.stepOn
  simp

@[simp] theorem State.epOwnRegs_receiverOn (s : State) (port : Nat) :
    (s.receiverOn .plocen port).epOwnRegs = s.epOwnRegs := by
  unfold State.receiverOn
  simp

@[simp] theorem State.epOwnRegs_farStateIn (s : State) (port step : Nat) :
    (s.farStateIn .plocen port step).epOwnRegs = s.epOwnRegs := by
  unfold State.farStateIn
  simp

/-! ### Machine/LightOps -/

@[simp] theorem State.epOwnRegs_lineOut (s : State) (port : Nat) (b : List Byte) :
    (s.lineOut .plocen port b).epOwnRegs = s.epOwnRegs := by
  unfold State.lineOut
  dsimp only
  split
  · exact State.epOwnRegs_modLink _ _ _
  · rw [State.epOwnRegs_foldl _ fun t k => State.epOwnRegs_emit _ _]
    exact State.epOwnRegs_modLink _ _ _

@[simp] theorem State.epOwnRegs_countSlot (s : State) (port : Nat) (fill busy : Bool) :
    (s.countSlot .plocen port fill busy).epOwnRegs = s.epOwnRegs := by
  unfold State.countSlot
  simp

@[simp] theorem State.epOwnRegs_patternOut (s : State) (port : Nat) (k : Prbs) (restart : Bool) (w : Nat) :
    (s.patternOut .plocen port k restart w).epOwnRegs = s.epOwnRegs := by
  unfold State.patternOut
  simp

@[simp] theorem State.epOwnRegs_patternSlot (s : State) (port : Nat) :
    (s.patternSlot .plocen port).epOwnRegs = s.epOwnRegs := by
  unfold State.patternSlot
  split <;> simp

@[simp] theorem State.epOwnRegs_burstOut (s : State) (port : Nat) :
    (s.burstOut .plocen port).epOwnRegs = s.epOwnRegs := by
  unfold State.burstOut
  simp

@[simp] theorem State.epOwnRegs_deskewOut (s : State) (port : Nat) :
    (s.deskewOut .plocen port).epOwnRegs = s.epOwnRegs := by
  unfold State.deskewOut
  simp

@[simp] theorem State.epOwnRegs_skyAlign (s : State) (port rx : Nat) :
    (s.skyAlign port rx).epOwnRegs = s.epOwnRegs := by
  unfold State.skyAlign
  split <;> simp

@[simp] theorem State.epOwnRegs_skyGroups (s : State) (port tx : Nat) :
    (s.skyGroups port tx).epOwnRegs = s.epOwnRegs := by
  unfold State.skyGroups
  split <;> simp

@[simp] theorem State.epOwnRegs_skySend (s : State) (j n ph : Nat) :
    (s.skySend j n ph).epOwnRegs = s.epOwnRegs := by
  unfold State.skySend
  split <;> simp

/-! ### Machine/LaserOps -/

@[simp] theorem State.epOwnRegs_logExcluded (s : State) (w : Nat) (m2 : Int) (l : List (Nat × Int)) :
    (s.logExcluded .plocen w m2 l).epOwnRegs = s.epOwnRegs := by
  unfold State.logExcluded
  simp

/-! ### Machine/Pins -/

@[simp] theorem State.epOwnRegs_modTap (s : State) (f : Tap → Tap) :
    (s.modTap .plocen f).epOwnRegs = s.epOwnRegs := by
  unfold State.modTap
  simp

/-! ### Machine/SecOps -/

@[simp] theorem State.epOwnRegs_modSec (s : State) (f : Security → Security) :
    (s.modSec .plocen f).epOwnRegs = s.epOwnRegs := by
  unfold State.modSec
  simp

@[simp] theorem State.epOwnRegs_spdmReply (s : State) (session : Option Nat) (code : Nat) (body : List Byte) :
    (s.spdmReply .plocen session code body).epOwnRegs = s.epOwnRegs := by
  unfold State.spdmReply
  simp

@[simp] theorem State.epOwnRegs_spdmError (s : State) (session : Option Nat) (e : Nat) :
    (s.spdmError .plocen session e).epOwnRegs = s.epOwnRegs := by
  unfold State.spdmError
  simp

@[simp] theorem State.epOwnRegs_spdmAnswer (s : State) (code : Nat) (session : Option Nat) (slot : Nat) (req : List Byte) :
    (s.spdmAnswer .plocen code session slot req).epOwnRegs = s.epOwnRegs := by
  unfold State.spdmAnswer
  simp

@[simp] theorem State.epOwnRegs_spdmIn (s : State) (code : Nat) (session : Option Nat) (slot : Nat) (req : List Byte) :
    (s.spdmIn .plocen code session slot req).epOwnRegs = s.epOwnRegs := by
  unfold State.spdmIn
  simp

@[simp] theorem State.epOwnRegs_keyReply (s : State) (session : Option Nat) (op status : Nat) :
    (s.keyReply .plocen session op status).epOwnRegs = s.epOwnRegs := by
  unfold State.keyReply
  simp

@[simp] theorem State.epOwnRegs_keyRefused (s : State) (session : Option Nat) (op status : Nat) :
    (s.keyRefused .plocen session op status).epOwnRegs = s.epOwnRegs := by
  unfold State.keyRefused
  simp

@[simp] theorem State.epOwnRegs_fwEvent (s : State) :
    (s.fwEvent .plocen).epOwnRegs = s.epOwnRegs := by
  unfold State.fwEvent
  simp

@[simp] theorem State.epOwnRegs_fwLog (s : State) (old : Nat) :
    (s.fwLog .plocen old).epOwnRegs = s.epOwnRegs := by
  unfold State.fwLog
  simp

@[simp] theorem State.epOwnRegs_fwState (s : State) (new : Nat) :
    (s.fwState .plocen new).epOwnRegs = s.epOwnRegs := by
  unfold State.fwState
  simp

@[simp] theorem State.epOwnRegs_restartLayer1 (s : State) (activating : Bool) :
    (s.restartLayer1 .plocen activating).epOwnRegs = s.epOwnRegs := by
  unfold State.restartLayer1
  simp

@[simp] theorem State.epOwnRegs_heldAnswer (s : State) (h : HeldReq) :
    (s.heldAnswer .plocen h).epOwnRegs = s.epOwnRegs := by
  unfold State.heldAnswer
  simp

@[simp] theorem State.epOwnRegs_layer1Back (s : State) :
    (s.layer1Back .plocen).epOwnRegs = s.epOwnRegs := by
  unfold State.layer1Back
  simp

@[simp] theorem State.epOwnRegs_layer1Done (s : State) :
    (s.layer1Done .plocen).epOwnRegs = s.epOwnRegs := by
  unfold State.layer1Done
  simp

@[simp] theorem State.epOwnRegs_fwFailed (s : State) :
    (s.fwFailed .plocen).epOwnRegs = s.epOwnRegs := by
  unfold State.fwFailed
  split <;> simp

/-! ### Machine/PowerOps -/

@[simp] theorem State.epOwnRegs_modTime (s : State) (f : TimeSt → TimeSt) :
    (s.modTime .plocen f).epOwnRegs = s.epOwnRegs := by
  unfold State.modTime
  simp

@[simp] theorem State.epOwnRegs_holdOver (s : State) :
    (s.holdOver .plocen).epOwnRegs = s.epOwnRegs := by
  unfold State.holdOver
  simp

@[simp] theorem State.epOwnRegs_parentLost (s : State) :
    (s.parentLost .plocen).epOwnRegs = s.epOwnRegs := by
  unfold State.parentLost
  dsimp only
  repeat' split
  all_goals simp

@[simp] theorem State.epOwnRegs_holdoverOver (s : State) :
    (s.holdoverOver .plocen).epOwnRegs = s.epOwnRegs := by
  unfold State.holdoverOver
  simp

/-! ### Machine/Rings -/

@[simp] theorem State.epOwnRegs_sqStore (s : State) (n t : Nat) :
    (s.sqStore n t).epOwnRegs = s.epOwnRegs := by
  unfold State.sqStore
  simp

@[simp] theorem State.epOwnRegs_cqStore (s : State) (n h : Nat) :
    (s.cqStore n h).epOwnRegs = s.epOwnRegs := by
  unfold State.cqStore
  simp

@[simp] theorem State.epOwnRegs_armStore (s : State) (n v : Nat) :
    (s.armStore n v).epOwnRegs = s.epOwnRegs := by
  unfold State.armStore
  simp

@[simp] theorem State.epOwnRegs_bindJoin (s : State) (n sub raw : Nat) :
    (s.bindJoin n sub raw).epOwnRegs = s.epOwnRegs := by
  unfold State.bindJoin
  dsimp only
  split <;> simp

@[simp] theorem State.epOwnRegs_beginDesc (s : State) (n sub raw : Nat) :
    (s.beginDesc n sub raw).epOwnRegs = s.epOwnRegs := by
  unfold State.beginDesc
  dsimp only
  split <;> simp

@[simp] theorem State.epOwnRegs_startNext (s : State) (n : Nat) :
    (s.startNext n).epOwnRegs = s.epOwnRegs := by
  unfold State.startNext
  split <;> simp

@[simp] theorem State.epOwnRegs_startFront (s : State) (n opc : Nat) :
    (s.startFront n opc).epOwnRegs = s.epOwnRegs := by
  unfold State.startFront
  simp

@[simp] theorem State.epOwnRegs_unpark (s : State) (n sub : Nat) :
    (s.unpark n sub).epOwnRegs = s.epOwnRegs := by
  unfold State.unpark
  simp

@[simp] theorem State.epOwnRegs_gateOpen (s : State) (n sub : Nat) :
    (s.gateOpen n sub).epOwnRegs = s.epOwnRegs := by
  unfold State.gateOpen
  split <;> simp

@[simp] theorem State.epOwnRegs_waitOver (s : State) (n sub : Nat) :
    (s.waitOver n sub).epOwnRegs = s.epOwnRegs := by
  unfold State.waitOver
  split <;> simp

@[simp] theorem State.epOwnRegs_serveStart (s : State) (n : Nat) :
    (s.serveStart n).epOwnRegs = s.epOwnRegs := by
  unfold State.serveStart
  split <;> simp

@[simp] theorem State.epOwnRegs_refill (s : State) (n : Nat) :
    (s.refill n).epOwnRegs = s.epOwnRegs := by
  unfold State.refill
  simp

@[simp] theorem State.epOwnRegs_setLast (s : State) (cls n : Nat) :
    (s.setLast cls n).epOwnRegs = s.epOwnRegs := by
  unfold State.setLast
  simp

@[simp] theorem State.epOwnRegs_ringStart (s : State) (n : Nat) :
    (s.ringStart n).epOwnRegs = s.epOwnRegs := by
  unfold State.ringStart
  simp

@[simp] theorem State.epOwnRegs_ringStop (s : State) (n : Nat) :
    (s.ringStop n).epOwnRegs = s.epOwnRegs := by
  unfold State.ringStop
  simp

@[simp] theorem State.epOwnRegs_ringDrained (s : State) (n : Nat) :
    (s.ringDrained n).epOwnRegs = s.epOwnRegs := by
  unfold State.ringDrained
  simp

/-! ### Machine/Translate -/

@[simp] theorem State.epOwnRegs_fetchFillsFrom (n : Nat) (s : State) :
    (s.fetchFillsFrom n).epOwnRegs = s.epOwnRegs := by
  induction n generalizing s with
  | zero => rfl
  | succ n ih =>
    unfold State.fetchFillsFrom
    repeat' (first | split | dsimp only)
    all_goals simp [ih]

@[simp] theorem State.epOwnRegs_fetchFills (s : State) :
    s.fetchFills.epOwnRegs = s.epOwnRegs := by
  unfold State.fetchFills
  simp

@[simp] theorem State.epOwnRegs_xltError (s : State) (code : Nat) :
    (s.xltError code).epOwnRegs = s.epOwnRegs := by
  unfold State.xltError
  simp

@[simp] theorem State.epOwnRegs_dropFill (s : State) :
    s.dropFill.epOwnRegs = s.epOwnRegs := by
  unfold State.dropFill
  simp

@[simp] theorem State.epOwnRegs_rejectFill (s : State) (count : Nat) (f : Fill) (reason : Nat) :
    (s.rejectFill count f reason).epOwnRegs = s.epOwnRegs := by
  unfold State.rejectFill
  simp

@[simp] theorem State.epOwnRegs_settleFillsFrom (n : Nat) (s : State) :
    (s.settleFillsFrom n).epOwnRegs = s.epOwnRegs := by
  induction n generalizing s with
  | zero => rfl
  | succ n ih =>
    unfold State.settleFillsFrom
    repeat' (first | split | dsimp only)
    all_goals simp [ih]

@[simp] theorem State.epOwnRegs_settleFills (s : State) :
    s.settleFills.epOwnRegs = s.epOwnRegs := by
  unfold State.settleFills
  simp

@[simp] theorem State.epOwnRegs_takeFills (n : Nat) (s : State) :
    (s.takeFills n).epOwnRegs = s.epOwnRegs := by
  induction n generalizing s with
  | zero => rfl
  | succ n ih =>
    unfold State.takeFills
    repeat' (first | split | dsimp only)
    all_goals simp [ih]

@[simp] theorem State.epOwnRegs_fillFetched (s : State) (first m : Nat) (data : List Byte) (ok : Bool) :
    (s.fillFetched first m data ok).epOwnRegs = s.epOwnRegs := by
  unfold State.fillFetched
  simp

@[simp] theorem State.epOwnRegs_fillStore (s : State) (t : Nat) :
    (s.fillStore t).epOwnRegs = s.epOwnRegs := by
  unfold State.fillStore
  simp

@[simp] theorem State.epOwnRegs_missStore (s : State) (h : Nat) :
    (s.missStore h).epOwnRegs = s.epOwnRegs := by
  unfold State.missStore
  simp

@[simp] theorem State.epOwnRegs_xltArmStore (s : State) (v : Nat) :
    (s.xltArmStore v).epOwnRegs = s.epOwnRegs := by
  unfold State.xltArmStore
  simp

@[simp] theorem State.epOwnRegs_doFillIn (s : State) (c : Nat) (f : Fill) :
    (s.doFillIn c f).epOwnRegs = s.epOwnRegs := by
  unfold State.doFillIn
  simp

@[simp] theorem State.epOwnRegs_doFillFault (s : State) (c : Nat) (f : Fill) :
    (s.doFillFault c f).epOwnRegs = s.epOwnRegs := by
  unfold State.doFillFault
  split <;> simp

@[simp] theorem State.epOwnRegs_addDrain (s : State) (c : Nat) (f : Fill) :
    (s.addDrain c f).epOwnRegs = s.epOwnRegs := by
  unfold State.addDrain
  simp

@[simp] theorem State.epOwnRegs_doInvTag (s : State) (c : Nat) (f : Fill) :
    (s.doInvTag c f).epOwnRegs = s.epOwnRegs := by
  unfold State.doInvTag
  simp

@[simp] theorem State.epOwnRegs_invDone (s : State) :
    s.invDone.epOwnRegs = s.epOwnRegs := by
  unfold State.invDone
  split <;> simp

@[simp] theorem State.epOwnRegs_doInvRange (s : State) (c w : Nat) (f : Fill) :
    (s.doInvRange c w f).epOwnRegs = s.epOwnRegs := by
  unfold State.doInvRange
  simp

@[simp] theorem State.epOwnRegs_microAck (s : State) (m : Nat) :
    (s.microAck m).epOwnRegs = s.epOwnRegs := by
  unfold State.microAck
  split <;> simp

@[simp] theorem State.epOwnRegs_drainedNow (s : State) (tag : Nat) :
    (s.drainedNow tag).epOwnRegs = s.epOwnRegs := by
  unfold State.drainedNow
  split <;> simp

@[simp] theorem State.epOwnRegs_doRemoveIn (s : State) (c : Nat) (f : Fill) :
    (s.doRemoveIn c f).epOwnRegs = s.epOwnRegs := by
  unfold State.doRemoveIn
  simp

@[simp] theorem State.epOwnRegs_inRemovedNow (s : State) :
    s.inRemovedNow.epOwnRegs = s.epOwnRegs := by
  unfold State.inRemovedNow
  split <;> simp

@[simp] theorem State.epOwnRegs_xltStart (s : State) :
    s.xltStart.epOwnRegs = s.epOwnRegs := by
  unfold State.xltStart
  simp

@[simp] theorem State.epOwnRegs_xltStop (s : State) :
    s.xltStop.epOwnRegs = s.epOwnRegs := by
  unfold State.xltStop
  simp

@[simp] theorem State.epOwnRegs_missTimeout (s : State) (id : Nat) :
    (s.missTimeout id).epOwnRegs = s.epOwnRegs := by
  unfold State.missTimeout
  split <;> simp

/-! ### Machine/AttachOps -/

@[simp] theorem State.epOwnRegs_attPump (s : State) :
    s.attPump.epOwnRegs = s.epOwnRegs := by
  unfold State.attPump
  simp

@[simp] theorem State.epOwnRegs_dropTag (s : State) (tag : Nat) :
    (s.dropTag tag).epOwnRegs = s.epOwnRegs := by
  unfold State.dropTag
  simp

@[simp] theorem State.epOwnRegs_setTag (s : State) (tag : Nat) (x : AttTag) :
    (s.setTag tag x).epOwnRegs = s.epOwnRegs := by
  unfold State.setTag
  simp

@[simp] theorem State.epOwnRegs_cplTaken (s : State) (k : Nat) :
    (s.cplTaken k).epOwnRegs = s.epOwnRegs := by
  unfold State.cplTaken
  simp

@[simp] theorem State.epOwnRegs_fenceLoad (s : State) (t : Txn) (at_ : Nat) :
    (s.fenceLoad t at_).epOwnRegs = s.epOwnRegs := by
  unfold State.fenceLoad
  simp

@[simp] theorem State.epOwnRegs_registerLoad (s : State) (t : Txn) (at_ : Nat) :
    (s.registerLoad t at_).epOwnRegs = s.epOwnRegs := by
  unfold State.registerLoad
  simp

@[simp] theorem State.epOwnRegs_malformed (s : State) (h : BitVec 128) (t : Txn) (vc : Option Nat) (credit : Bool) :
    (s.malformed h t vc credit).epOwnRegs = s.epOwnRegs := by
  unfold State.malformed
  simp

@[simp] theorem State.epOwnRegs_flitTotals (s : State) (f : Flit) :
    (s.flitTotals f).epOwnRegs = s.epOwnRegs := by
  unfold State.flitTotals
  simp

@[simp] theorem State.epOwnRegs_sendNak (s : State) :
    s.sendNak.epOwnRegs = s.epOwnRegs := by
  unfold State.sendNak
  simp

@[simp] theorem State.epOwnRegs_flitBad (s : State) :
    s.flitBad.epOwnRegs = s.epOwnRegs := by
  unfold State.flitBad
  simp

@[simp] theorem State.epOwnRegs_resendHeld (s : State) (l : List (Nat × List (BitVec 128))) :
    (s.resendHeld l).epOwnRegs = s.epOwnRegs := by
  unfold State.resendHeld
  simp

@[simp] theorem State.epOwnRegs_nakIn (s : State) (seq : Nat) :
    (s.nakIn seq).epOwnRegs = s.epOwnRegs := by
  unfold State.nakIn
  simp

@[simp] theorem State.epOwnRegs_initIn (s : State) (p : InitParams) :
    (s.initIn p).epOwnRegs = s.epOwnRegs := by
  unfold State.initIn
  simp

@[simp] theorem State.epOwnRegs_initAckIn (s : State) :
    s.initAckIn.epOwnRegs = s.epOwnRegs := by
  unfold State.initAckIn
  simp

@[simp] theorem State.epOwnRegs_controlTaken (s : State) (f : Flit) (act : State → State) (h : ∀ t, (act t).epOwnRegs = t.epOwnRegs) :
    (s.controlTaken f act).epOwnRegs = s.epOwnRegs := by
  unfold State.controlTaken
  simp [h]

@[simp] theorem State.epOwnRegs_controlIn (s : State) (f : Flit) :
    (s.controlIn f).epOwnRegs = s.epOwnRegs := by
  unfold State.controlIn
  simp

@[simp] theorem State.epOwnRegs_retrain (s : State) :
    s.retrain.epOwnRegs = s.epOwnRegs := by
  unfold State.retrain
  simp

@[simp] theorem State.epOwnRegs_moduleTrained (s : State) (m rate : Nat) :
    (s.moduleTrained m rate).epOwnRegs = s.epOwnRegs := by
  unfold State.moduleTrained
  dsimp only
  repeat' split
  all_goals simp

@[simp] theorem State.epOwnRegs_sendInit (s : State) :
    s.sendInit.epOwnRegs = s.epOwnRegs := by
  unfold State.sendInit
  simp

@[simp] theorem State.epOwnRegs_initAgain (s : State) :
    s.initAgain.epOwnRegs = s.epOwnRegs := by
  unfold State.initAgain
  simp

/-! ### Machine/SwitchOps -/

@[simp] theorem State.epOwnRegs_setTxq (s : State) (p : Nat) (q : TxQ) :
    (s.setTxq p q).epOwnRegs = s.epOwnRegs := by
  unfold State.setTxq
  simp

@[simp] theorem State.epOwnRegs_frameClear (s : State) :
    s.frameClear.epOwnRegs = s.epOwnRegs := by
  unfold State.frameClear
  simp

/-! ### Machine/Weft -/

@[simp] theorem State.epOwnRegs_reachable (s : State) (dest plane : Nat) :
    (s.reachable dest plane).epOwnRegs = s.epOwnRegs := by
  unfold State.reachable
  simp

end Sys2Proof.Machine
end

section
/-! What leaves the epoch orders and the snapshot orders as they are. One lemma for each operation, in the order and under the names of
the model's files. -/

namespace Sys2Proof.Machine

open Sys2Proof Sys2Proof.Claims

/-- The epoch orders and snapshot orders of both parts. -/
def State.bothOrders (s : State) : Orders × Orders := (s.rp.orders, s.ep.orders)

theorem State.orders_of_bothOrders {s t : State} (h : t.bothOrders = s.bothOrders) (p : Part) : t.orders p = s.orders p := by
  cases p with
  | ronpex => exact congrArg Prod.fst h
  | plocen => exact congrArg Prod.snd h

@[simp] theorem State.bothOrders_eq (s : State) : (s.rp.orders, s.ep.orders) = s.bothOrders := by rw [State.bothOrders]

@[simp] theorem State.bothOrders_mk (n f : Nat) (l : List Instr) (o : List Out) (m : SMap Byte) (r : Ronpex) (e : Plocen) :
    State.bothOrders { now := n, free := f, pending := l, out := o, hbm := m, rp := r, ep := e } = (r.orders, e.orders) := by rw [State.bothOrders]

@[simp] theorem Ronpex.setReg_orders (r : Ronpex) (a v : Nat) : (r.setReg a v).orders = r.orders := by rw [Ronpex.setReg]

@[simp] theorem Plocen.setReg_orders (r : Plocen) (a v : Nat) : (r.setReg a v).orders = r.orders := by rw [Plocen.setReg]

@[simp] theorem State.bothOrders_ite (c : Prop) [Decidable c] (a b : State) :
    (if c then a else b).bothOrders = if c then a.bothOrders else b.bothOrders := by
  split <;> rfl

@[simp] theorem State.bothOrders_foldl {α : Type} (g : State → α → State) (h : ∀ t x, (g t x).bothOrders = t.bothOrders) (l : List α) (s : State) :
    (l.foldl g s).bothOrders = s.bothOrders := by
  induction l generalizing s with
  | nil => rfl
  | cons x r ih => rw [List.foldl_cons, ih, h]

theorem State.bothOrders_getD (o : Option State) (s : State) (h : ∀ t, o = some t → t.bothOrders = s.bothOrders) : (o.getD s).bothOrders = s.bothOrders := by
  cases o with
  | none => rfl
  | some t => exact h t rfl

/-! ### Machine/Ops -/

@[simp] theorem State.bothOrders_setReg (s : State) (p : Part) (a v : Nat) :
    (s.setReg p a v).bothOrders = s.bothOrders := by
  unfold State.setReg
  split <;> simp

@[simp] theorem State.bothOrders_setFld (s : State) (p : Part) (a lo len v : Nat) :
    (s.setFld p a lo len v).bothOrders = s.bothOrders := by
  unfold State.setFld
  simp

@[simp] theorem State.bothOrders_satFld (s : State) (p : Part) (a lo len n : Nat) :
    (s.satFld p a lo len n).bothOrders = s.bothOrders := by
  unfold State.satFld
  simp

@[simp] theorem State.bothOrders_setFlag (s : State) (p : Part) (a i : Nat) (b : Bool) :
    (s.setFlag p a i b).bothOrders = s.bothOrders := by
  unfold State.setFlag
  simp

@[simp] theorem State.bothOrders_setSource (s : State) (p : Part) (x : Source) :
    (s.setSource p x).bothOrders = s.bothOrders := by
  unfold State.setSource
  split <;> simp

@[simp] theorem State.bothOrders_emit (s : State) (o : Out) :
    (s.emit o).bothOrders = s.bothOrders := by
  unfold State.emit
  simp

@[simp] theorem State.bothOrders_msix (s : State) (v : Nat) :
    (s.msix v).bothOrders = s.bothOrders := by
  unfold State.msix
  simp

@[simp] theorem State.bothOrders_rpLog (s : State) (b : LogBody) :
    (s.rpLog b).bothOrders = s.bothOrders := by
  unfold State.rpLog
  simp

@[simp] theorem State.bothOrders_rpCond (s : State) (code origin requester port skein addr old new : Nat) :
    (s.rpCond code origin requester port skein addr old new).bothOrders = s.bothOrders := by
  unfold State.rpCond
  simp

@[simp] theorem State.bothOrders_evtWrite (s : State) (e : Event) :
    (s.evtWrite e).bothOrders = s.bothOrders := by
  unfold State.evtWrite
  simp

@[simp] theorem State.bothOrders_evtOverflow (s : State) :
    s.evtOverflow.bothOrders = s.bothOrders := by
  unfold State.evtOverflow
  simp

@[simp] theorem State.bothOrders_post (s : State) (e : Event) :
    (s.post e).bothOrders = s.bothOrders := by
  unfold State.post
  simp

@[simp] theorem State.bothOrders_postFor (s : State) (e : Event) (scope : Nat) (skeins : List Nat) :
    (s.postFor e scope skeins).bothOrders = s.bothOrders := by
  unfold State.postFor
  simp

/-! ### Machine/Route -/

@[simp] theorem State.bothOrders_offer (s : State) (port : Nat) (x : EddyEnt) :
    (s.offer port x).bothOrders = s.bothOrders := by
  unfold State.offer
  simp

@[simp] theorem State.bothOrders_modWarp (s : State) (f : Warp → Warp) :
    (s.modWarp f).bothOrders = s.bothOrders := by
  unfold State.modWarp
  simp

@[simp] theorem State.bothOrders_logUnrouted (s : State) (p : Nat) (c : Container) :
    (s.logUnrouted p c).bothOrders = s.bothOrders := by
  unfold State.logUnrouted
  simp

@[simp] theorem State.bothOrders_goHome (s : State) (c : Container) :
    (s.goHome c).bothOrders = s.bothOrders := by
  unfold State.goHome
  simp

@[simp] theorem State.bothOrders_reflect (s : State) (x : EddyEnt) (noPath : Bool) :
    (s.reflect x noPath).bothOrders = s.bothOrders := by
  unfold State.reflect
  dsimp only
  repeat' split
  all_goals simp

@[simp] theorem State.bothOrders_toOutput (s : State) (r : Route) (x : EddyEnt) :
    (s.toOutput r x).bothOrders = s.bothOrders := by
  unfold State.toOutput
  repeat' split
  all_goals simp

/-! ### Machine/Send -/

@[simp] theorem State.bothOrders_hold (s : State) (p : Part) (dest skein plane planes : Nat) (loc : HeldAt) (m : Msg) (own : Owner) :
    (s.hold p dest skein plane planes loc m own).1.bothOrders = s.bothOrders := by
  unfold State.hold
  simp

@[simp] theorem State.bothOrders_rpSend (s : State) (h : Held) :
    (s.rpSend h).bothOrders = s.bothOrders := by
  unfold State.rpSend
  simp

@[simp] theorem State.bothOrders_rpPush (s : State) :
    s.rpPush.bothOrders = s.bothOrders := by
  unfold State.rpPush
  simp

@[simp] theorem State.bothOrders_rpMgmtPort (s : State) (port dest : Nat) (m : Mgmt) (own : Owner) :
    (s.rpMgmtPort port dest m own).bothOrders = s.bothOrders := by
  unfold State.rpMgmtPort
  simp

@[simp] theorem State.bothOrders_epMgmt (s : State) (plane : Nat) (m : Mgmt) :
    (s.epMgmt plane m).bothOrders = s.bothOrders := by
  unfold State.epMgmt
  simp

@[simp] theorem State.bothOrders_epMgmtLowest (s : State) (m : Mgmt) :
    (s.epMgmtLowest m).bothOrders = s.bothOrders := by
  unfold State.epMgmtLowest
  split <;> simp

/-! ### Machine/Flags -/

@[simp] theorem State.bothOrders_modAtt (s : State) (f : Attach → Attach) :
    (s.modAtt f).bothOrders = s.bothOrders := by
  unfold State.modAtt
  simp

@[simp] theorem State.bothOrders_sendFlit (s : State) (kind seq : Nat) (body : List (BitVec 128)) :
    (s.sendFlit kind seq body).bothOrders = s.bothOrders := by
  unfold State.sendFlit
  simp

@[simp] theorem State.bothOrders_sendChunks (n : Nat) (x : List (BitVec 128)) (s : State) :
    (s.sendChunks n x).bothOrders = s.bothOrders := by
  induction n generalizing x s with
  | zero => rfl
  | succ n ih =>
    unfold State.sendChunks
    repeat' (first | split | dsimp only)
    all_goals simp [ih]

@[simp] theorem State.bothOrders_sendTxn (s : State) (t : Txn) :
    (s.sendTxn t).bothOrders = s.bothOrders := by
  unfold State.sendTxn
  simp

@[simp] theorem State.bothOrders_pumpCpl (n : Nat) (s : State) :
    (s.pumpCpl n).bothOrders = s.bothOrders := by
  induction n generalizing s with
  | zero => rfl
  | succ n ih =>
    unfold State.pumpCpl
    repeat' (first | split | dsimp only)
    all_goals simp [ih]

@[simp] theorem State.bothOrders_complete (s : State) (rid tag addr status len : Nat) (data : List Byte) :
    (s.complete rid tag addr status len data).bothOrders = s.bothOrders := by
  unfold State.complete
  simp

@[simp] theorem State.bothOrders_pump (n : Nat) (s : State) :
    (s.pump n).bothOrders = s.bothOrders := by
  induction n generalizing s with
  | zero => rfl
  | succ n ih =>
    unfold State.pump
    repeat' (first | split | dsimp only)
    all_goals simp [ih]

@[simp] theorem State.bothOrders_request (s : State) (l : List AttReq) :
    (s.request l).bothOrders = s.bothOrders := by
  unfold State.request
  simp

@[simp] theorem State.bothOrders_errsumMsix (s before : State) :
    (s.errsumMsix before).bothOrders = s.bothOrders := by
  unfold State.errsumMsix
  simp

@[simp] theorem State.bothOrders_fmhError (s : State) (b offset scope : Nat) (skeins : List Nat) :
    (s.fmhError b offset scope skeins).bothOrders = s.bothOrders := by
  unfold State.fmhError
  simp

/-! ### Machine/OrderOps -/

@[simp] theorem State.bothOrders_modTray (s : State) (f : Tray → Tray) :
    (s.modTray f).bothOrders = s.bothOrders := by
  unfold State.modTray
  simp

@[simp] theorem State.bothOrders_trayOut (s : State) (port : Nat) (f : TrayFrame) :
    (s.trayOut port f).bothOrders = s.bothOrders := by
  unfold State.trayOut
  simp

@[simp] theorem State.bothOrders_trayMgmt (s : State) (m : Mgmt) :
    (s.trayMgmt m).bothOrders = s.bothOrders := by
  unfold State.trayMgmt
  simp

@[simp] theorem State.bothOrders_toEndPoint (s : State) (p : Nat) (m : Mgmt) :
    (s.toEndPoint p m).bothOrders = s.bothOrders := by
  unfold State.toEndPoint
  simp

@[simp] theorem State.bothOrders_toFarEnd (s : State) (p : Nat) (m : Mgmt) :
    (s.toFarEnd p m).bothOrders = s.bothOrders := by
  unfold State.toFarEnd
  repeat' split
  all_goals simp

/-! ### Machine/CmdOps -/

@[simp] theorem State.bothOrders_modMgmt (s : State) (f : MgmtRings → MgmtRings) :
    (s.modMgmt f).bothOrders = s.bothOrders := by
  unfold State.modMgmt
  simp

@[simp] theorem State.bothOrders_cmdEvent (s : State) (r : Running) (status detail : Nat) :
    (s.cmdEvent r status detail).bothOrders = s.bothOrders := by
  unfold State.cmdEvent
  simp

@[simp] theorem State.bothOrders_cmdNext (s : State) :
    s.cmdNext.bothOrders = s.bothOrders := by
  unfold State.cmdNext
  simp

@[simp] theorem State.bothOrders_cmdDone (s : State) (status detail : Nat) :
    (s.cmdDone status detail).bothOrders = s.bothOrders := by
  unfold State.cmdDone
  split <;> simp

@[simp] theorem State.bothOrders_cmdWaited (s : State) (w : CmdWait) (status detail : Nat) :
    (s.cmdWaited w status detail).bothOrders = s.bothOrders := by
  unfold State.cmdWaited
  simp

@[simp] theorem State.bothOrders_sendOver (s : State) (id : Nat) (lost : Bool) :
    (s.sendOver id lost).bothOrders = s.bothOrders := by
  unfold State.sendOver
  split <;> simp

@[simp] theorem State.bothOrders_sendReport (s : State) (r : Report) :
    (s.sendReport r).bothOrders = s.bothOrders := by
  unfold State.sendReport
  simp

@[simp] theorem State.bothOrders_report (s : State) (type target plane : Nat) :
    (s.report type target plane).bothOrders = s.bothOrders := by
  unfold State.report
  dsimp only
  split <;> simp

/-! ### Machine/RingOps -/

@[simp] theorem State.bothOrders_modRing (s : State) (n : Nat) (f : Ring → Ring) :
    (s.modRing n f).bothOrders = s.bothOrders := by
  unfold State.modRing
  simp

@[simp] theorem State.bothOrders_postCompletion (s : State) (n sub code info cookie : Nat) :
    (s.postCompletion n sub code info cookie).bothOrders = s.bothOrders := by
  unfold State.postCompletion
  simp

@[simp] theorem State.bothOrders_modAct (s : State) (n sub : Nat) (f : Act → Act) :
    (s.modAct n sub f).bothOrders = s.bothOrders := by
  unfold State.modAct
  simp

@[simp] theorem State.bothOrders_dropFront (s : State) (n : Nat) :
    (s.dropFront n).bothOrders = s.bothOrders := by
  unfold State.dropFront
  simp

@[simp] theorem State.bothOrders_settleFront (n : Nat) (s : State) (x : Nat) :
    (s.settleFront n x).bothOrders = s.bothOrders := by
  induction n generalizing s x with
  | zero => rfl
  | succ n ih =>
    unfold State.settleFront
    repeat' (first | split | dsimp only)
    all_goals simp [ih]

@[simp] theorem State.bothOrders_settleRing (s : State) (n : Nat) :
    (s.settleRing n).bothOrders = s.bothOrders := by
  unfold State.settleRing
  simp

@[simp] theorem State.bothOrders_failAct (s : State) (n sub code info : Nat) :
    (s.failAct n sub code info).bothOrders = s.bothOrders := by
  unfold State.failAct
  split <;> simp

@[simp] theorem State.bothOrders_settleAct (s : State) (n sub : Nat) :
    (s.settleAct n sub).bothOrders = s.bothOrders := by
  unfold State.settleAct
  split <;> simp

@[simp] theorem State.bothOrders_partDone (s : State) (n sub : Nat) :
    (s.partDone n sub).bothOrders = s.bothOrders := by
  unfold State.partDone
  simp

@[simp] theorem State.bothOrders_partFailed (s : State) (n sub code info : Nat) :
    (s.partFailed n sub code info).bothOrders = s.bothOrders := by
  unfold State.partFailed
  simp

@[simp] theorem State.bothOrders_settleFences (s : State) :
    s.settleFences.bothOrders = s.bothOrders := by
  unfold State.settleFences
  simp

@[simp] theorem State.bothOrders_storeDone (s : State) (id : Nat) (lost : Bool) :
    (s.storeDone id lost).bothOrders = s.bothOrders := by
  unfold State.storeDone
  simp

@[simp] theorem State.bothOrders_loadDone (s : State) (id status : Nat) (data : List Byte) :
    (s.loadDone id status data).bothOrders = s.bothOrders := by
  unfold State.loadDone
  split <;> simp

/-! ### Machine/EpWarpOps -/

@[simp] theorem State.bothOrders_modEw (s : State) (f : EpWarp → EpWarp) :
    (s.modEw f).bothOrders = s.bothOrders := by
  unfold State.modEw
  simp

@[simp] theorem State.bothOrders_modBind (s : State) (id : Nat) (f : Binding → Binding) :
    (s.modBind id f).bothOrders = s.bothOrders := by
  unfold State.modBind
  simp

@[simp] theorem State.bothOrders_settleBind (s : State) (id : Nat) :
    (s.settleBind id).bothOrders = s.bothOrders := by
  unfold State.settleBind
  repeat' split
  all_goals simp

@[simp] theorem State.bothOrders_endBind (s : State) (id code info : Nat) :
    (s.endBind id code info).bothOrders = s.bothOrders := by
  unfold State.endBind
  simp

@[simp] theorem State.bothOrders_modRun (s : State) (pat : Nat) (f : Run → Run) :
    (s.modRun pat f).bothOrders = s.bothOrders := by
  unfold State.modRun
  simp

@[simp] theorem State.bothOrders_readCells (s : State) (b : Binding) (plane slice round : Nat) :
    (s.readCells b plane slice round).bothOrders = s.bothOrders := by
  unfold State.readCells
  simp

@[simp] theorem State.bothOrders_readRun (s : State) (pat : Nat) :
    (s.readRun pat).bothOrders = s.bothOrders := by
  unfold State.readRun
  split <;> simp

@[simp] theorem State.bothOrders_rerun (s : State) (pat plane slice round : Nat) :
    (s.rerun pat plane slice round).bothOrders = s.bothOrders := by
  unfold State.rerun
  split <;> simp

/-! ### Machine/WeftAnswer -/

@[simp] theorem State.bothOrders_modSource (s : State) (p : Part) (f : Source → Source) :
    (s.modSource p f).bothOrders = s.bothOrders := by
  unfold State.modSource
  simp

@[simp] theorem State.bothOrders_unqueue (s : State) (plane id : Nat) :
    (s.unqueue plane id).bothOrders = s.bothOrders := by
  unfold State.unqueue
  simp

@[simp] theorem State.bothOrders_dropHeld (s : State) (p : Part) (h : Held) :
    (s.dropHeld p h).bothOrders = s.bothOrders := by
  unfold State.dropHeld
  simp

@[simp] theorem State.bothOrders_relayLost (s : State) (m : Nat) :
    (s.relayLost m).bothOrders = s.bothOrders := by
  unfold State.relayLost
  simp

@[simp] theorem State.bothOrders_shadowLost (s : State) (bind plane slice round : Nat) :
    (s.shadowLost bind plane slice round).bothOrders = s.bothOrders := by
  unfold State.shadowLost
  split <;> simp

@[simp] theorem State.bothOrders_messageLost (s : State) (p : Part) (h : Held) (x : SentMsg) (code info : Nat) :
    (s.messageLost p h x code info).bothOrders = s.bothOrders := by
  unfold State.messageLost
  split <;> simp

@[simp] theorem State.bothOrders_endHeld (s : State) (p : Part) (id code : Nat) :
    (s.endHeld p id code).bothOrders = s.bothOrders := by
  unfold State.endHeld
  split <;> simp

/-! ### Machine/EpOrders -/

@[simp] theorem State.bothOrders_relayOthers (s : State) (plane : Nat) (m : Mgmt) :
    (s.relayOthers plane m).bothOrders = s.bothOrders := by
  unfold State.relayOthers
  simp

@[simp] theorem State.bothOrders_snapEvent (s : State) (p : Part) (number missed : Nat) :
    (s.snapEvent p number missed).bothOrders = s.bothOrders := by
  unfold State.snapEvent
  split <;> simp

/-! ### Machine/RpOrders -/

@[simp] theorem State.bothOrders_toAllPorts (s : State) (m : Mgmt) :
    (s.toAllPorts m).bothOrders = s.bothOrders := by
  unfold State.toAllPorts
  simp

@[simp] theorem State.bothOrders_clearFilter (s : State) :
    s.clearFilter.bothOrders = s.bothOrders := by
  unfold State.clearFilter
  simp

end Sys2Proof.Machine
end

section
/-! Epoch orders and snapshot orders: accepted, applied and captured. -/

namespace Sys2Proof.Machine

open Sys2Proof Sys2Proof.Claims

theorem State.setOrders_orders (s : State) (p : Part) (o : Orders) : (s.setOrders p o).orders p = o := by cases p <;> rfl

theorem State.epoch_ronpex_of {s t : State} (h : t.rpRegs = s.rpRegs) : t.epoch .ronpex = s.epoch .ronpex :=
  State.fld_congr (State.reg_of_rpRegs h (by decide)) 0 16

theorem State.epoch_plocen_of {s t : State} (h : t.epOwnRegs = s.epOwnRegs) : t.epoch .plocen = s.epoch .plocen :=
  State.fld_congr (State.reg_of_epOwnRegs h (by decide)) 0 16

/-! ### Epoch orders -/

/-- The state with an epoch order accepted, before it is relayed. -/
def State.epochAccepted (s : State) : Part → Nat → Nat → State
  | .ronpex, e, at_ => { s with rp := { s.rp with orders := { s.rp.orders with epoch := some (e, at_) } } }
  | .plocen, e, at_ => { s with ep := { s.ep with orders := { s.ep.orders with epoch := some (e, at_) } } }

theorem State.rpEpochIn_ahead {s : State} {e eff : Nat} (h : s.epochAhead .ronpex e = true)
    (hne : s.rp.orders.epoch ≠ some (e, frameTime s.now eff)) :
    s.rpEpochIn e eff = ((s.epochAccepted .ronpex e (frameTime s.now eff)).trayMgmt (.epochOrder e eff)).toAllPorts (.epochOrder e eff) := by
  rw [State.rpEpochIn]
  exact if_neg (by simp [h, hne])

theorem State.epEpochIn_ahead {s : State} {e eff plane : Nat} (h : s.epochAhead .plocen e = true)
    (hne : s.ep.orders.epoch ≠ some (e, frameTime s.now eff)) :
    s.epEpochIn plane e eff = (s.epochAccepted .plocen e (frameTime s.now eff)).relayOthers plane (.epochOrder e eff) := by
  rw [State.epEpochIn]
  exact if_neg (by simp [h, hne])

theorem State.rpMgmtIn_epochOrder {s : State} {src : MgmtSource} (h : s.rpMgmtOk src 5 = true) (e eff : Nat) :
    s.rpMgmtIn src (.epochOrder e eff) = s.rpEpochIn e eff := by
  simp [State.rpMgmtIn, mtypeOf, h]

theorem State.epMgmtIn_epochOrder {s : State} {plane node : Nat} (h : s.epMgmtOk plane node = true) (e eff : Nat) :
    s.epMgmtIn plane node (.epochOrder e eff) = s.epEpochIn plane e eff := by
  simp [State.epMgmtIn, h]

/-- An epoch order that is taken is accepted; to relay it changes neither the orders nor the epoch. -/
theorem State.epochOrder_relayed {s : State} {p : Part} {src : MgmtSource} {e eff : Nat} (hr : p = .ronpex → s.rpMgmtOk src 5 = true)
    (hp : p = .plocen → s.epMgmtOk src.port src.node = true) (h : s.epochAhead p e = true)
    (hne : (s.orders p).epoch ≠ some (e, frameTime s.now eff)) :
    (s.mgmtIn p src (.epochOrder e eff)).orders p = { s.orders p with epoch := some (e, frameTime s.now eff) }
      ∧ (s.mgmtIn p src (.epochOrder e eff)).epoch p = s.epoch p := by
  cases p with
  | ronpex =>
    rw [State.mgmtIn, State.rpMgmtIn_epochOrder (hr rfl), State.rpEpochIn_ahead h hne]
    exact ⟨(State.orders_of_bothOrders (s := s.epochAccepted .ronpex e (frameTime s.now eff)) (by simp) _).trans rfl,
      (State.epoch_ronpex_of (s := s.epochAccepted .ronpex e (frameTime s.now eff)) (by simp)).trans rfl⟩
  | plocen =>
    rw [State.mgmtIn, State.epMgmtIn_epochOrder (hp rfl), State.epEpochIn_ahead h hne]
    exact ⟨(State.orders_of_bothOrders (s := s.epochAccepted .plocen e (frameTime s.now eff)) (by simp) _).trans rfl,
      (State.epoch_plocen_of (s := s.epochAccepted .plocen e (frameTime s.now eff)) (by simp)).trans rfl⟩

/-- An order that changes nothing: it is accepted already, or its epoch is not ahead. -/
theorem State.epochOrder_known {s : State} {p : Part} {src : MgmtSource} {e eff : Nat} (hr : p = .ronpex → s.rpMgmtOk src 5 = true)
    (hp : p = .plocen → s.epMgmtOk src.port src.node = true)
    (h : s.epochAhead p e = false ∨ (s.orders p).epoch = some (e, frameTime s.now eff)) : s.mgmtIn p src (.epochOrder e eff) = s := by
  cases p with
  | ronpex =>
    rw [State.mgmtIn, State.rpMgmtIn_epochOrder (hr rfl), State.rpEpochIn]
    exact if_pos (h.imp_left fun h => by simp [h])
  | plocen =>
    rw [State.mgmtIn, State.epMgmtIn_epochOrder (hp rfl), State.epEpochIn]
    exact if_pos (h.imp_left fun h => by simp [h])

/-! ### An epoch comes into effect -/

theorem State.cmdWaited_orders (s : State) (w : CmdWait) (p : Part) : (s.cmdWaited w 0 0).orders p = s.orders p :=
  State.orders_of_bothOrders (by simp) p

/-- The state in which an epoch has been written, before what waits in its part ends. -/
def State.epochWritten (s : State) (e : Nat) : Part → State
  | .ronpex => State.setFld { s with rp := { s.rp with
      orders := { s.rp.orders with epoch := none }, cand := [], eddy := []
      fmem := { s.rp.fmem with inbox := [], waiting := [], sealedRep := [], entries := [], refused := []
                               dest := { s.rp.fmem.dest.cleared with store := [], replies := [] } } } } .ronpex Reg.fmhEpoch 0 16 e
  | .plocen => State.setFld { s with ep := { s.ep with orders := { s.ep.orders with epoch := none }, dest := s.ep.dest.cleared } }
      .plocen Reg.epSeqEpoch 0 16 e

theorem State.epochWritten_epoch (s : State) (e : Nat) (p : Part) : (s.epochWritten e p).epoch p = e % 2 ^ 16 := by
  cases p with
  | ronpex => exact State.fld_setFld_same _ _ _ _ _ _ (by omega)
  | plocen => exact State.fld_setFld_same _ _ _ _ _ _ (by omega)

theorem State.epochWritten_orders (s : State) (e : Nat) (p : Part) : ((s.epochWritten e p).orders p).epoch = none := by
  cases p <;> rfl

/-- The registers of the Ronpex that an ended container may change: those that reports are counted in, FMH.ERR and those of the relays. -/
def endsIn (a : Nat) : Prop := a ∈ reportRegs ∨ a = Reg.fmhErr ∨ ∃ m, a = Reg.fmhRelayCtl m

theorem State.reg_fmhError {s : State} {a : Nat} (ha : ¬endsIn a) (b offset scope : Nat) (ks : List Nat) :
    (s.fmhError b offset scope ks).reg .ronpex a = s.reg .ronpex a := by
  simp only [endsIn, not_or] at ha
  unfold State.fmhError
  exact (State.reg_of_rpRegs (s := s.setFlag .ronpex Reg.fmhErr b true) (by simp) ha.1).trans
    (State.reg_setFlag_other _ _ _ _ _ _ _ (.inr fun h => ha.2.1 h.symm))

theorem State.reg_relayLost {s : State} {a : Nat} (ha : ¬endsIn a) (m : Nat) : (s.relayLost m).reg .ronpex a = s.reg .ronpex a := by
  unfold State.relayLost
  exact (State.reg_fmhError ha _ _ _ _).trans (State.reg_setFlag_other _ _ _ _ _ _ _ (.inr fun h => ha (.inr (.inr ⟨m, h.symm⟩))))

theorem State.reg_messageLost {s : State} {a : Nat} (ha : ¬endsIn a) (h : Held) (x : SentMsg) (code info : Nat) :
    (s.messageLost .ronpex h x code info).reg .ronpex a = s.reg .ronpex a := by
  unfold State.messageLost
  cases x.owner with
  | mgmt i => exact State.reg_of_rpRegs (State.rpRegs_sendOver _ _ _) fun h => ha (.inl h)
  | relay m => exact State.reg_relayLost ha m
  | _ => rfl

theorem State.reg_foldl {α : Type} {p : Part} {a : Nat} (f : State → α → State) (hf : ∀ t x, (f t x).reg p a = t.reg p a) (l : List α)
    (s : State) : (l.foldl f s).reg p a = s.reg p a := by
  induction l generalizing s with
  | nil => rfl
  | cons x l ih => rw [List.foldl_cons, ih, hf]

theorem State.reg_endHeld {s : State} {a : Nat} (ha : ¬endsIn a) (id code : Nat) :
    (s.endHeld .ronpex id code).reg .ronpex a = s.reg .ronpex a := by
  unfold State.endHeld
  split
  · rfl
  · next h _ =>
    rw [if_neg (by simp)]
    rw [State.reg_foldl _ fun t x => State.reg_messageLost ha h x code _]
    exact State.reg_of_rpRegs (State.rpRegs_dropHeld _ _) fun h => ha (.inl h)

theorem fmhEpoch_not_endsIn : ¬endsIn Reg.fmhEpoch := by
  rintro (h | h | ⟨m, h⟩)
  · exact absurd h (by decide)
  · exact absurd h (by decide)
  · simp only [Reg.fmhEpoch, Reg.fmhRelayCtl] at h
    omega

theorem State.reg_rpEpochApply (s : State) (e : Nat) :
    (s.rpEpochApply e).reg .ronpex Reg.fmhEpoch = (s.epochWritten e .ronpex).reg .ronpex Reg.fmhEpoch := by
  have hclear : ∀ t : State, ((t.clearFilter.modWarp fun w => { w with inst := [] }).post (plainEvent s.now 0x60 e)).reg .ronpex Reg.fmhEpoch
      = t.reg .ronpex Reg.fmhEpoch := fun t => State.reg_of_rpRegs (by simp) (by decide)
  rw [State.rpEpochApply, hclear, State.reg_foldl _ fun t i => State.reg_endHeld fmhEpoch_not_endsIn i 5]
  rfl

theorem State.bothOrders_rpEpochApply (s : State) (e : Nat) : (s.rpEpochApply e).bothOrders = (s.epochWritten e .ronpex).bothOrders := by
  rw [State.rpEpochApply, State.epochWritten]
  simp

theorem State.epOwnRegs_epEpochApply (s : State) (e : Nat) : (s.epEpochApply e).epOwnRegs = (s.epochWritten e .plocen).epOwnRegs := by
  rw [State.epEpochApply, State.epochWritten]
  simp

theorem State.bothOrders_epEpochApply (s : State) (e : Nat) : (s.epEpochApply e).bothOrders = (s.epochWritten e .plocen).bothOrders := by
  rw [State.epEpochApply, State.epochWritten]
  simp

theorem State.epochDue_ronpex {s : State} {e t0 : Nat} (h : (s.orders .ronpex).epoch = some (e, t0)) (ht : t0 ≤ s.now) :
    s.epochDue .ronpex = (s.rpEpochApply e).cmdWaited (.epoch t0) 0 0 := by
  simp only [State.epochDue, h, Nat.not_lt.2 ht, if_false]

theorem State.epochDue_plocen {s : State} {e t0 : Nat} (h : (s.orders .plocen).epoch = some (e, t0)) (ht : t0 ≤ s.now) :
    s.epochDue .plocen = s.epEpochApply e := by
  simp only [State.epochDue, h, Nat.not_lt.2 ht, if_false]

theorem State.epochDue_early {s : State} {p : Part} {e t0 : Nat} (h : (s.orders p).epoch = some (e, t0)) (ht : s.now < t0) :
    s.epochDue p = s := by
  simp only [State.epochDue, h, ht, if_true]

theorem State.epochDue_effect {s : State} {p : Part} {e t0 : Nat} (h : (s.orders p).epoch = some (e, t0)) (ht : t0 ≤ s.now) :
    (s.epochDue p).epoch p = e % 2 ^ 16 ∧ ((s.epochDue p).orders p).epoch = none := by
  rw [← s.epochWritten_epoch e p, ← s.epochWritten_orders e p]
  cases p with
  | ronpex =>
    rw [State.epochDue_ronpex h ht, State.cmdWaited_orders, State.orders_of_bothOrders (s.bothOrders_rpEpochApply e)]
    exact ⟨(State.epoch_ronpex_of (State.rpRegs_cmdWaited _ _ _ _)).trans (State.fld_congr (s.reg_rpEpochApply e) _ _), rfl⟩
  | plocen =>
    rw [State.epochDue_plocen h ht, State.orders_of_bothOrders (s.bothOrders_epEpochApply e)]
    exact ⟨State.epoch_plocen_of (s.epOwnRegs_epEpochApply e), rfl⟩

/-! ### Snapshots -/

theorem State.rpMgmtIn_snapshotOrder {s : State} {src : MgmtSource} (h : s.rpMgmtOk src 6 = true) (at_ n : Nat) (k : BitVec 64) :
    s.rpMgmtIn src (.snapshotOrder at_ n k) = s.rpSnapIn at_ n k := by
  simp [State.rpMgmtIn, mtypeOf, h]

theorem State.epMgmtIn_snapshotOrder {s : State} {plane node : Nat} (h : s.epMgmtOk plane node = true) {k : BitVec 64}
    (hk : bit s.epSkein k.toNat = true) (at_ n : Nat) :
    s.epMgmtIn plane node (.snapshotOrder at_ n k) = s.snapIn .plocen at_ n k := by
  simp [State.epMgmtIn, h, hk]

/-- The state with a snapshot order taken, before it is reported. -/
def State.snapTaken (s : State) (p : Part) (at_ number : Nat) (k : BitVec 64) : State :=
  let u := (s.setReg p (snapRegs p).2.1 (bits 0 32 at_)).setReg p (snapRegs p).2.2 (bits 32 32 at_)
  if at_ < s.now then (u.setOrders p { s.orders p with snap := none }).setReg p (snapRegs p).1 (number + 2 ^ 17)
  else (u.setOrders p { s.orders p with snap := some (at_, number, k) }).setReg p (snapRegs p).1 number

theorem State.setReg_orders (s : State) (p q : Part) (a v : Nat) : (s.setReg p a v).orders q = s.orders q := by
  cases p <;> cases q <;> rfl

theorem State.reg_setOrders (s : State) (p q : Part) (o : Orders) (a : Nat) : (s.setOrders p o).reg q a = s.reg q a := by
  cases p <;> cases q <;> rfl

theorem State.snapIn_eq (s : State) (p : Part) (at_ n : Nat) (k : BitVec 64) :
    s.snapIn p at_ n k = if at_ < s.now then (s.snapTaken p at_ n k).snapEvent p n 1 else s.snapTaken p at_ n k := by
  simp only [State.snapIn, State.snapTaken, State.setReg_orders]
  split <;> rfl

theorem snapRegs_ne (p : Part) : (snapRegs p).1 ≠ (snapRegs p).2.1 ∧ (snapRegs p).1 ≠ (snapRegs p).2.2 ∧ (snapRegs p).2.1 ≠ (snapRegs p).2.2 := by
  cases p <;> decide

theorem snapRegs_notMem : (∀ a ∈ [(snapRegs .ronpex).1, (snapRegs .ronpex).2.1, (snapRegs .ronpex).2.2], a ∉ reportRegs) := by
  decide

/-- The registers of a snapshot order that is taken. -/
theorem State.reg_snapTaken (s : State) (p : Part) (at_ : Nat) {n : Nat} (k : BitVec 64) (hn : n < 2 ^ 16) :
    (s.snapTaken p at_ n k).reg p (snapRegs p).1 = (if at_ < s.now then n + 2 ^ 17 else n)
      ∧ (s.snapTaken p at_ n k).reg p (snapRegs p).2.1 = bits 0 32 at_ ∧ (s.snapTaken p at_ n k).reg p (snapRegs p).2.2 = bits 32 32 at_ := by
  obtain ⟨h1, h2, h3⟩ := snapRegs_ne p
  have hlo := bits_lt 0 32 at_
  have hhi := bits_lt 32 32 at_
  have hst : n < 2 ^ 32 := by omega
  have hst' : n + 2 ^ 17 < 2 ^ 32 := by omega
  unfold State.snapTaken
  split
  · simpa [State.reg_setReg, State.reg_setOrders, h1, h2, h3.symm] using ⟨hst', hlo, hhi⟩
  · simpa [State.reg_setReg, State.reg_setOrders, h1, h2, h3.symm] using ⟨hst, hlo, hhi⟩

theorem State.orders_snapTaken (s : State) (p : Part) (at_ n : Nat) (k : BitVec 64) :
    (s.snapTaken p at_ n k).orders p = { s.orders p with snap := if at_ < s.now then none else some (at_, n, k) } := by
  unfold State.snapTaken
  split <;> rw [State.setReg_orders, State.setOrders_orders]

/-- To report and to relay a snapshot order that is taken changes neither the orders nor the registers of the snapshot. -/
theorem State.snapshotOrder_relayed {s : State} {p : Part} {src : MgmtSource} {at_ n : Nat} {k : BitVec 64}
    (hr : p = .ronpex → s.rpMgmtOk src 6 = true)
    (hp : p = .plocen → s.epMgmtOk src.port src.node = true ∧ bit s.epSkein k.toNat = true) :
    (s.mgmtIn p src (.snapshotOrder at_ n k)).orders p = (s.snapTaken p at_ n k).orders p
      ∧ ∀ a ∈ [(snapRegs p).1, (snapRegs p).2.1, (snapRegs p).2.2],
          (s.mgmtIn p src (.snapshotOrder at_ n k)).reg p a = (s.snapTaken p at_ n k).reg p a := by
  cases p with
  | ronpex =>
    have hregs : (s.rpSnapIn at_ n k).rpRegs = (s.snapTaken .ronpex at_ n k).rpRegs := by
      rw [State.rpSnapIn, State.snapIn_eq]
      split <;> simp
    have horders : (s.rpSnapIn at_ n k).bothOrders = (s.snapTaken .ronpex at_ n k).bothOrders := by
      rw [State.rpSnapIn, State.snapIn_eq]
      split <;> simp
    rw [State.mgmtIn, State.rpMgmtIn_snapshotOrder (hr rfl)]
    exact ⟨State.orders_of_bothOrders horders _, fun a ha => State.reg_of_rpRegs hregs (snapRegs_notMem a ha)⟩
  | plocen =>
    obtain ⟨hok, hk⟩ := hp rfl
    have : s.mgmtIn .plocen src (.snapshotOrder at_ n k) = s.snapTaken .plocen at_ n k := by
      rw [State.mgmtIn, State.epMgmtIn_snapshotOrder hok hk, State.snapIn_eq]
      split <;> rfl
    rw [this]
    exact ⟨rfl, fun _ _ => rfl⟩

theorem snapshotOrder_taken {s : State} {p : Part} {src : MgmtSource} {at_ n : Nat} {k : BitVec 64} (hn : n < 2 ^ 16)
    (hr : p = .ronpex → s.rpMgmtOk src 6 = true)
    (hp : p = .plocen → s.epMgmtOk src.port src.node = true ∧ bit s.epSkein k.toNat = true) :
    let t := s.mgmtIn p src (.snapshotOrder at_ n k)
    onlyPart p s t ∧ t.reg p (snapRegs p).2.1 = bits 0 32 at_ ∧ t.reg p (snapRegs p).2.2 = bits 32 32 at_
      ∧ (s.now ≤ at_ → (t.orders p).snap = some (at_, n, k) ∧ t.reg p (snapRegs p).1 = n)
      ∧ (at_ < s.now → (t.orders p).snap = none ∧ t.reg p (snapRegs p).1 = n + 2 ^ 17)
      ∧ (t.orders p).epoch = (s.orders p).epoch := by
  dsimp only
  obtain ⟨horders, hregs⟩ := State.snapshotOrder_relayed (at_ := at_) (n := n) hr hp
  obtain ⟨hst, hlo, hhi⟩ := s.reg_snapTaken p at_ k hn
  have honly : onlyPart p s (s.mgmtIn p src (.snapshotOrder at_ n k)) := onlyPart_of (by simp) (by simp)
  refine ⟨honly, (hregs _ (by simp)).trans hlo, (hregs _ (by simp)).trans hhi, fun h => ⟨?_, ?_⟩, fun h => ⟨?_, ?_⟩, ?_⟩
  · rw [horders, State.orders_snapTaken, if_neg (Nat.not_lt.2 h)]
  · rw [hregs _ (by simp), hst, if_neg (Nat.not_lt.2 h)]
  · rw [horders, State.orders_snapTaken, if_pos h]
  · rw [hregs _ (by simp), hst, if_pos h]
  · rw [horders, State.orders_snapTaken]

/-- The orders of a part once a snapshot is captured. -/
def State.capturedOrders (s : State) (p : Part) : Orders :=
  { s.orders p with snap := none, imageAt := some s.now, image := match p with
      | .ronpex => s.rp.fmem.hcnt
      | .plocen => s.ep.hanks }

theorem State.snapCapture_due {s : State} {p : Part} {at_ n : Nat} {k : BitVec 64} (h : (s.orders p).snap = some (at_, n, k))
    (ht : at_ ≤ s.now) :
    s.snapCapture p = ((s.setOrders p (s.capturedOrders p)).setReg p (snapRegs p).1 (n + 2 ^ 16)).snapEvent p n 0 := by
  simp only [State.snapCapture, h, Nat.not_lt.2 ht, if_false]
  rfl

theorem State.snapCapture_early {s : State} {p : Part} {at_ n : Nat} {k : BitVec 64} (h : (s.orders p).snap = some (at_, n, k))
    (ht : s.now < at_) : s.snapCapture p = s := by
  simp only [State.snapCapture, h, ht, if_true]

theorem State.snapEvent_orders_reg (s : State) (p : Part) (n m : Nat) :
    (s.snapEvent p n m).orders p = s.orders p ∧ (s.snapEvent p n m).reg p (snapRegs p).1 = s.reg p (snapRegs p).1 := by
  cases p with
  | ronpex => exact ⟨State.orders_of_bothOrders (by simp) _, State.reg_of_rpRegs (by simp) (by decide)⟩
  | plocen => exact ⟨rfl, rfl⟩

/-- Settles O53: what an order changes is named once, and neither to relay nor to report it changes that again. -/
theorem epochsAndSnapshots : Obligations.EpochsAndSnapshots := by
  intro s p
  refine ⟨fun src e eff hr hp => ⟨fun h => ?_, fun h => ?_⟩, fun e t0 h => ⟨fun ht => ?_, fun ht => ?_⟩,
    fun src at_ number k hn hr hp => ?_, fun at_ number k h hn => ⟨fun ht => ?_, fun ht => ?_⟩⟩
  · have honly : onlyPart p s (s.mgmtIn p src (.epochOrder e eff)) := onlyPart_of (by simp) (by simp)
    refine ⟨s.mgmtIn p src (.epochOrder e eff), rfl, ?_⟩
    by_cases hsame : (s.orders p).epoch = some (e, frameTime s.now eff)
    · rw [State.epochOrder_known hr hp (.inr hsame)]
      exact ⟨hsame, rfl, rfl, onlyPart_of rfl rfl⟩
    · obtain ⟨horders, hepoch⟩ := State.epochOrder_relayed hr hp h hsame
      exact ⟨by rw [horders], by rw [horders], hepoch, honly⟩
  · exact congrArg Host.Outcome.next (State.epochOrder_known hr hp (.inl h))
  · exact congrArg Host.Outcome.next (State.epochDue_early h ht)
  · obtain ⟨hepoch, horders⟩ := State.epochDue_effect h ht
    exact ⟨s.epochDue p, rfl, hepoch, horders, onlyPart_of (by simp) (by simp)⟩
  · exact ⟨s.mgmtIn p src (.snapshotOrder at_ number k), rfl, snapshotOrder_taken hn hr hp⟩
  · exact congrArg Host.Outcome.next (State.snapCapture_early h ht)
  · have honly : onlyPart p s (s.snapCapture p) := onlyPart_of (by simp) (by simp)
    refine ⟨s.snapCapture p, rfl, ?_, ?_, honly⟩
    · rw [State.snapCapture_due h ht, (State.snapEvent_orders_reg _ p number 0).2, State.reg_setReg_same]
      omega
    · rw [State.snapCapture_due h ht, (State.snapEvent_orders_reg _ p number 0).1, State.setReg_orders, State.setOrders_orders]
      rfl

end Sys2Proof.Machine
end

section
/-! Reports, and the notices of lost paths and released ports. -/

namespace Sys2Proof.Machine

open Sys2Proof Sys2Proof.Claims

/-! ### An event goes out -/

/-- The place of the next event in its ring. -/
def State.eventOut (s : State) (e : Event) : Out :=
  .event (s.ringBase Reg.mgtEvtBaseLo Reg.mgtEvtBaseHi + 32 * (s.rp.mgmt.evtTail % s.evtSize)) e
    (eventBytes (s.rp.mgmt.evtTail / s.evtSize % 2 == 0) e)

theorem State.post_written {s : State} (hrestart : s.rp.sec.restartAt = none) (hfree : s.evtFree = true)
    (hovf : s.reg .ronpex Reg.mgtEvtOvf = 0) (e : Event) : s.post e = s.evtWrite e := by
  have hlost : s.evtOverflow = s := by simp [State.evtOverflow, hovf]
  simp [State.post, hrestart, hlost, hfree]

theorem State.eventOut_mem_evtWrite (s : State) (e : Event) : s.eventOut e ∈ (s.evtWrite e).out :=
  State.msix_out _ 1 (List.mem_cons_self ..)

theorem State.eventOut_mem_post {s : State} (hrestart : s.rp.sec.restartAt = none) (hfree : s.evtFree = true)
    (hovf : s.reg .ronpex Reg.mgtEvtOvf = 0) (e : Event) : s.eventOut e ∈ (s.post e).out := by
  rw [State.post_written hrestart hfree hovf]
  exact s.eventOut_mem_evtWrite e

/-! ### Reports come to a Ronpex -/

/-- The state with a report's new entry in the filter. -/
def State.filterAdded (s : State) (r : Report) : State :=
  { s with rp := { s.rp with filter := { s.rp.filter with
    ents := s.rp.filter.ents ++ [{ type := r.type, target := r.target, since := s.now, count := 0 }] } } }

theorem State.rpMgmtIn_report {s : State} {src : MgmtSource} (h : s.rpMgmtOk src 8 = true) (r : Report) :
    s.rpMgmtIn src (.report r) = s.reportIn src.node r := by
  simp [State.rpMgmtIn, mtypeOf, h]

theorem State.reportIn_known {s : State} {node : Nat} {r : Report}
    (h : ∃ e ∈ s.rp.filter.ents, e.type = r.type ∧ e.target = r.target) :
    s.reportIn node r = { s with rp := { s.rp with filter := { s.rp.filter with ents := s.rp.filter.ents.map fun e : RepEnt =>
      if e.type = r.type ∧ e.target = r.target then { e with count := e.count + 1 + r.suppressed } else e } } } := by
  have : (s.rp.filter.ents.any fun e => e.type == r.type && e.target == r.target) = true := by simpa using h
  rw [State.reportIn]
  exact if_pos this

theorem State.reportIn_new {s : State} {node : Nat} {r : Report}
    (h : ∀ e ∈ s.rp.filter.ents, ¬(e.type = r.type ∧ e.target = r.target)) (hroom : s.rp.filter.ents.length < 1024) :
    s.reportIn node r = (s.filterAdded r).post (reportEvent node r) := by
  have : ¬(s.rp.filter.ents.any fun e => e.type == r.type && e.target == r.target) = true := by simpa using h
  rw [State.reportIn]
  dsimp only
  rw [if_neg this, if_pos hroom]
  rfl

/-! ### A report window ends -/

theorem State.reportWindow_eq {s : State} {w : RepWin} (h : s.ep.reps = [w]) :
    s.reportWindow w.r.type w.r.target =
      if s.now < w.since + 100000 then s
      else if w.withheld = 0 then { s with ep := { s.ep with reps := [] } }
      else if s.mayReport then
        State.sendReport { s with ep := { s.ep with reps := [{ w with since := s.now, withheld := 0 }] } } { w.r with suppressed := w.withheld }
      else { s with ep := { s.ep with reps := [{ w with since := s.now }] } } := by
  simp [State.reportWindow, h]

theorem State.sendReport_only (s : State) (r : Report) :
    ∃ x, s.sendReport r = { s with ep := { s.ep with src := x, repTimes := s.recentReports ++ [s.now] } } :=
  State.epMgmtLowest_only { s with ep := { s.ep with repTimes := s.recentReports ++ [s.now] } } (.report r)

theorem reportWindow_withheld {s : State} {w : RepWin} (h : s.ep.reps = [w]) (hdue : w.since + 100000 ≤ s.now) (hw : w.withheld ≠ 0) :
    let t := s.reportWindow w.r.type w.r.target
    onlyPlocen s t ∧ t.ep.hanks = s.ep.hanks
      ∧ t.ep.reps = [{ w with since := s.now, withheld := if s.mayReport = true then 0 else w.withheld }]
      ∧ (s.mayReport = true → t.ep.repTimes = s.recentReports ++ [s.now])
      ∧ (s.mayReport = false → t = { s with ep := { s.ep with reps := t.ep.reps } }) := by
  dsimp only
  rw [State.reportWindow_eq h, if_neg (Nat.not_lt.2 hdue), if_neg hw]
  by_cases hmay : s.mayReport = true
  · obtain ⟨x, hx⟩ := State.sendReport_only { s with ep := { s.ep with reps := [{ w with since := s.now, withheld := 0 }] } }
      { w.r with suppressed := w.withheld }
    rw [if_pos hmay, hx, if_pos hmay]
    exact ⟨⟨rfl, rfl, rfl, rfl⟩, rfl, rfl, fun _ => rfl, fun h => absurd hmay (by simp [h])⟩
  · rw [if_neg hmay, if_neg hmay]
    exact ⟨⟨rfl, rfl, rfl, rfl⟩, rfl, rfl, fun h => absurd h hmay, fun _ => rfl⟩

/-! ### A path is lost -/

theorem State.epMgmtIn_pathLoss {s : State} {port node : Nat} (h : s.epMgmtOk port node = true) (plane tL : Nat) :
    s.epMgmtIn port node (.pathLoss plane tL) = s.pathLost plane tL := by
  simp [State.epMgmtIn, h]

theorem State.pathLost_none {s : State} {plane : Nat} (h : ∀ h ∈ s.ep.src.held, h.plane ≠ plane) (tL : Nat) : s.pathLost plane tL = s := by
  have : (s.ep.src.held.filter fun h => h.plane == plane && h.isOut && decide (tL ≤ h.due - 1000 * h.retryUs + 10000)) = [] :=
    List.filter_eq_nil_iff.2 fun x hx => by simp [h x hx]
  simp [State.pathLost, this]

theorem State.pathLost_one {s : State} {h : Held} {plane tL : Nat} (hh : s.ep.src.held = [h]) (hplane : h.plane = plane)
    (hout : h.isOut = true) (ht : tL ≤ h.due - 1000 * h.retryUs + 10000) : s.pathLost plane tL = s.resend .plocen h.id := by
  simp [State.pathLost, hh, hplane, hout, ht]

theorem State.resend_requeue {s : State} {h : Held} (hh : s.ep.src.held = [h]) (hport : h.loc ≠ .port) (hlife : s.lifeOver h = false)
    (hlive : s.epLive h.plane = true) : s.resend .plocen h.id = s.requeue h := by
  have hfind : s.held? .plocen h.id = some h := by simp [State.held?, State.source, hh]
  simp [State.resend, hfind, hlife, hport, hlive]

theorem State.requeue_one {s : State} {h : Held} (hh : s.ep.src.held = [h]) :
    (s.requeue h).held? .plocen h.id = some { h with loc := .port, due := s.now + 1000 * h.retryUs }
      ∧ s.requeue h = { s with ep := { s.ep with src := (s.requeue h).ep.src, tx := (s.requeue h).ep.tx } } := by
  refine ⟨?_, rfl⟩
  simp [State.requeue, State.held?, State.source, State.modHeld, State.modSource, State.setSource, hh]

/-! ### A port is released -/

theorem State.epMgmtIn_portRelease {s : State} {port node : Nat} (h : s.epMgmtOk port node = true) (p g : Nat) :
    s.epMgmtIn port node (.portRelease p g) = s.epRelease p g := by
  simp [State.epMgmtIn, h]

/-- Settles O54: each report or notice is one operation of its part, taken case by case. -/
theorem reportsAndNotices : Obligations.ReportsAndNotices := by
  intro s
  refine ⟨fun src r hok => ⟨fun hnew hroom hrestart hfree hovf => ?_, fun hknown => ?_⟩, fun w hw => ⟨fun h => ?_, fun h h0 => ?_,
    fun h h0 => ?_⟩, fun src plane tL => ⟨fun hok => ⟨fun h hh hplane hloc ht hlife hlive => ?_, fun hnone => ?_⟩, fun hok => ?_⟩,
    fun p src port gen hok => ⟨fun hup => ?_, fun hdown => ?_⟩⟩
  · have honly : onlyRonpex s (s.rpMgmtIn src (.report r)) := onlyRonpex_of (by simp) (by simp)
    refine ⟨s.rpMgmtIn src (.report r), rfl, ?_, ?_, by simp, honly⟩
    · rw [State.rpMgmtIn_report hok, State.reportIn_new hnew hroom, (State.recorded_post _ _).frame]
      rfl
    · rw [State.rpMgmtIn_report hok, State.reportIn_new hnew hroom]
      exact ⟨_, _, State.eventOut_mem_post (s := s.filterAdded r) hrestart hfree hovf _⟩
  · refine ⟨s.rpMgmtIn src (.report r), rfl, ?_⟩
    rw [State.rpMgmtIn_report hok, State.reportIn_known hknown]
    exact ⟨rfl, rfl⟩
  · exact congrArg Host.Outcome.next ((State.reportWindow_eq hw).trans (if_pos h))
  · exact congrArg Host.Outcome.next ((State.reportWindow_eq hw).trans ((if_neg (Nat.not_lt.2 h)).trans (if_pos h0)))
  · exact ⟨s.reportWindow w.r.type w.r.target, rfl, reportWindow_withheld hw h h0⟩
  · have hport : h.loc ≠ .port := by
      rcases hloc with hloc | ⟨t0, hloc⟩ <;> simp [hloc]
    have hout : h.isOut = true := by
      rcases hloc with hloc | ⟨t0, hloc⟩ <;> simp [Held.isOut, hloc]
    refine ⟨s.epMgmtIn src.port src.node (.pathLoss plane tL), rfl, ?_⟩
    rw [State.epMgmtIn_pathLoss hok, State.pathLost_one hh hplane hout ht, State.resend_requeue hh hport hlife (by rwa [hplane])]
    exact State.requeue_one hh
  · exact congrArg Host.Outcome.next ((State.epMgmtIn_pathLoss hok _ _).trans (State.pathLost_none hnone tL))
  · have honly : onlyRonpex s (s.rpMgmtIn src (.pathLoss plane tL)) := onlyRonpex_of (by simp) (by simp)
    refine ⟨s.rpMgmtIn src (.pathLoss plane tL), rfl, ?_, by simp, honly⟩
    simp [State.rpMgmtIn, mtypeOf, hok, State.rpPathLoss]
  · refine ⟨s.epMgmtIn p src.node (.portRelease port gen), rfl, ?_⟩
    rw [State.epMgmtIn_portRelease hok, State.epRelease, if_pos hup]
    exact ⟨congrArg (· ++ [(port, gen)]) (List.filter_congr fun x _ => by by_cases h : x.1 = port <;> simp [h]), rfl⟩
  · exact congrArg Host.Outcome.next ((State.epMgmtIn_portRelease hok _ _).trans (if_neg (by simp [hdown])))

end Sys2Proof.Machine
end

section
/-! How commands of the command ring begin and end (R387, R388, R408). -/

namespace Sys2Proof.Machine

open Sys2Proof Sys2Proof.Claims

theorem Command.rsv_args_of_unusedZero {c : Command} {u : Uses} (h : Command.unusedZero c u = true) :
    c.rsv = 0 ∧ (u.args = 0 → ∀ b ∈ c.args, b = 0) := by
  simp only [Command.unusedZero, Bool.and_eq_true, beq_iff_eq, List.all_eq_true] at h
  obtain ⟨⟨⟨⟨⟨hrsv, -⟩, -⟩, -⟩, -⟩, hargs⟩ := h
  exact ⟨hrsv, fun h0 b hb => hargs b (by rwa [h0, List.drop_zero])⟩

/-- The command `c` as a command of the ring with the number `n`: the command runs only where its reserved bytes, and the fields that it
has no use for, are zero. -/
def ringCommand (n : Nat) (i : Instr) (s : State) (c : Command) : Prop :=
  ∃ ok f, exec i s = .next (s.command c n ok f) ∧ (ok = true → c.rsv = 0 ∧ (n ∉ [7, 9] → ∀ b ∈ c.args, b = 0))

theorem ringCommand_of {n : Nat} {i : Instr} {s : State} {c : Command} {u : Uses} {f : State → State}
    (h : exec i s = .next (s.command c n (Command.unusedZero c u) f)) (hu : n ∉ [7, 9] → u.args = 0) : ringCommand n i s c :=
  ⟨_, f, h, fun hok => (Command.rsv_args_of_unusedZero hok).imp_right fun hargs hn => hargs (hu hn)⟩

theorem ringCommand_of_mem (s : State) (c : Command) (l : List (Nat × Word)) (d : List Byte) (ok : Bool) :
    ∀ x ∈ [(0, Instr.nop c), (1, .draftLoad c l ok), (2, .skein c), (3, .fence c), (4, .return c), (5, .reset c), (6, .epoch c),
      (7, .snapshot c), (8, .send c d ok), (9, .tenant c), (10, .fwWrite c d ok), (11, .fwVerify c), (12, .fwActivate c),
      (13, .fwErase c)], ringCommand x.1 x.2 s c := by
  simp only [List.forall_mem_cons, List.not_mem_nil, false_implies, implies_true, and_true]
  refine ⟨ringCommand_of rfl fun _ => rfl, ?_, ringCommand_of rfl fun _ => rfl, ringCommand_of rfl fun _ => rfl,
    ringCommand_of rfl fun _ => rfl, ringCommand_of rfl fun _ => rfl, ringCommand_of rfl fun _ => rfl, ringCommand_of rfl (by simp),
    ringCommand_of rfl fun _ => rfl, ?_, ringCommand_of rfl fun _ => rfl, ringCommand_of rfl fun _ => rfl,
    ringCommand_of rfl fun _ => rfl, ringCommand_of rfl fun _ => rfl⟩
  · refine ⟨_, _, rfl, fun hok => ?_⟩
    exact (Command.rsv_args_of_unusedZero (Bool.and_eq_true_iff.1 hok).1).imp_right fun hargs _ => hargs rfl
  · refine ⟨_, _, rfl, fun hok => ?_⟩
    simp only [Bool.and_eq_true] at hok
    exact (Command.rsv_args_of_unusedZero hok.1.1.1).imp_right fun _ hn => absurd (by simp) hn

theorem State.command_of_malformed (s : State) (c : Command) (op : Nat) (ok : Bool) (f : State → State) (hfetch : s.mayFetch = true)
    (hread : c.fetchOk = true) (h : c.op ≠ op ∨ ok = false) : s.command c op ok f = (begun s c).cmdDone 1 0 := by
  rw [State.command, if_neg (by simp [hfetch]), if_neg (by simp [hread])]
  exact if_pos (by simpa using h)

/-- The command that a failed fetch stops (R408). -/
theorem fetchFailed_error (s : State) :
    s.fetchFailed.flag .ronpex Reg.mgtStat 1 = true ∧ s.fetchFailed.fld .ronpex Reg.mgtStat 8 8 = 3 ∧ ringError s s.fetchFailed Reg.mgtStat :=
  mgtError_of (i := 1) (code := 3) ⟨rfl, regsBut_refl _ _ _⟩ (by decide) (by decide)

theorem ringCommand.frame {n : Nat} {i : Instr} {s : State} {c : Command} (h : ringCommand n i s c) :
    (s.mayFetch = false → exec i s = .next s) ∧
    (s.mayFetch = true → c.fetchOk = false →
      ∃ t, exec i s = .next t ∧ t.flag .ronpex Reg.mgtStat 1 = true ∧ t.fld .ronpex Reg.mgtStat 8 8 = 3 ∧ ringError s t Reg.mgtStat) ∧
    (s.mayFetch = true → c.fetchOk = true → (c.op ≠ n ∨ c.rsv ≠ 0 ∨ (n ∉ [7, 9] ∧ ∃ b ∈ c.args, b ≠ 0)) →
      exec i s = .next ((begun s c).cmdDone 1 0)) := by
  obtain ⟨ok, f, hexec, hok⟩ := h
  refine ⟨fun hfetch => ?_, fun hfetch hread => ?_, fun hfetch hread hbad => ?_⟩
  · rw [hexec, State.command, if_pos (by simp [hfetch])]
  · refine ⟨s.fetchFailed, ?_, fetchFailed_error s⟩
    rw [hexec, State.command, if_neg (by simp [hfetch]), if_pos (by simp [hread])]
  · rw [hexec, State.command_of_malformed s c n ok f hfetch hread]
    rcases hbad with hop | hrsv | ⟨hn, b, hb, hne⟩
    · exact .inl hop
    · exact .inr (Bool.eq_false_iff.2 fun h => hrsv (hok h).1)
    · exact .inr (Bool.eq_false_iff.2 fun h => hne ((hok h).2 hn b hb))

/-! ### The end of a command -/

theorem State.cmdDone_eventOut {s : State} (c : Command) (status detail : Nat) (hrestart : s.rp.sec.restartAt = none)
    (hfree : s.evtFree = true) (hovf : s.reg .ronpex Reg.mgtEvtOvf = 0) :
    s.eventOut (plainEvent s.now 1 (c.tag + 2 ^ 32 * status + 2 ^ 40 * detail + 2 ^ 64 * s.rp.mgmt.cmdHead))
      ∈ ((begun s c).cmdDone status detail).out :=
  (State.recorded_cmdNext _).sent (State.msix_out _ 0
    (State.eventOut_mem_post (s := (begun s c).modMgmt fun m => { m with running := none }) hrestart hfree hovf _))

/-- Settles O49: every command begins through `State.command`, whose branches are the clauses. -/
theorem commandFrame : Obligations.CommandFrame := by
  refine ⟨fun s c l d ok x hx => (ringCommand_of_mem s c l d ok x hx).frame, fun s c hfetch hread hop huse => ?_,
    fun s c status detail hrestart hfree hovf => ⟨⟨_, rfl, ?_⟩, (s.executing_begun c).ended status detail⟩⟩
  · exact congrArg Host.Outcome.next (s.command_of_wellFormed c 0 _ _ hfetch hread hop huse)
  · exact State.cmdDone_eventOut c status detail hrestart hfree hovf

end Sys2Proof.Machine
end

section
/-! What leaves the command of the command ring that executes as it is. One lemma for each operation, in the order and under the names of\nthe model's files. -/

namespace Sys2Proof.Machine

open Sys2Proof Sys2Proof.Claims

/-- The command of the ring that executes, and the head of the ring. -/
def State.rpCmd (s : State) : Option Running × Nat := (s.rp.mgmt.running, s.rp.mgmt.cmdHead)

@[simp] theorem State.rpCmd_eq (s : State) : (s.rp.mgmt.running, s.rp.mgmt.cmdHead) = s.rpCmd := by rw [State.rpCmd]

@[simp] theorem State.rpCmd_mk (n f : Nat) (l : List Instr) (o : List Out) (m : SMap Byte) (r : Ronpex) (e : Plocen) :
    State.rpCmd { now := n, free := f, pending := l, out := o, hbm := m, rp := r, ep := e } = (r.mgmt.running, r.mgmt.cmdHead) := by rw [State.rpCmd]

@[simp] theorem Ronpex.setReg_mgmt (r : Ronpex) (a v : Nat) : (r.setReg a v).mgmt = r.mgmt := by rw [Ronpex.setReg]

@[simp] theorem State.rpCmd_ite (c : Prop) [Decidable c] (a b : State) :
    (if c then a else b).rpCmd = if c then a.rpCmd else b.rpCmd := by
  split <;> rfl

@[simp] theorem State.rpCmd_foldl {α : Type} (g : State → α → State) (h : ∀ t x, (g t x).rpCmd = t.rpCmd) (l : List α) (s : State) :
    (l.foldl g s).rpCmd = s.rpCmd := by
  induction l generalizing s with
  | nil => rfl
  | cons x r ih => rw [List.foldl_cons, ih, h]

theorem State.rpCmd_getD (o : Option State) (s : State) (h : ∀ t, o = some t → t.rpCmd = s.rpCmd) : (o.getD s).rpCmd = s.rpCmd := by
  cases o with
  | none => rfl
  | some t => exact h t rfl

/-! ### Machine/Ops -/

@[simp] theorem State.rpCmd_setReg (s : State) (a v : Nat) :
    (s.setReg .ronpex a v).rpCmd = s.rpCmd := by
  unfold State.setReg
  simp

@[simp] theorem State.rpCmd_setFld (s : State) (a lo len v : Nat) :
    (s.setFld .ronpex a lo len v).rpCmd = s.rpCmd := by
  unfold State.setFld
  simp

@[simp] theorem State.rpCmd_satFld (s : State) (a lo len n : Nat) :
    (s.satFld .ronpex a lo len n).rpCmd = s.rpCmd := by
  unfold State.satFld
  simp

@[simp] theorem State.rpCmd_setFlag (s : State) (a i : Nat) (b : Bool) :
    (s.setFlag .ronpex a i b).rpCmd = s.rpCmd := by
  unfold State.setFlag
  simp

@[simp] theorem State.rpCmd_setLink (s : State) (port : Nat) (l : Link) :
    (s.setLink .ronpex port l).rpCmd = s.rpCmd := by
  unfold State.setLink
  simp

@[simp] theorem State.rpCmd_modLink (s : State) (port : Nat) (f : Link → Link) :
    (s.modLink .ronpex port f).rpCmd = s.rpCmd := by
  unfold State.modLink
  simp

@[simp] theorem State.rpCmd_setOrders (s : State) (o : Orders) :
    (s.setOrders .ronpex o).rpCmd = s.rpCmd := by
  unfold State.setOrders
  simp

@[simp] theorem State.rpCmd_setSource (s : State) (x : Source) :
    (s.setSource .ronpex x).rpCmd = s.rpCmd := by
  unfold State.setSource
  simp

@[simp] theorem State.rpCmd_draw (s : State) :
    s.draw.2.rpCmd = s.rpCmd := by
  unfold State.draw
  simp

@[simp] theorem State.rpCmd_emit (s : State) (o : Out) :
    (s.emit o).rpCmd = s.rpCmd := by
  unfold State.emit
  simp

@[simp] theorem State.rpCmd_msix (s : State) (v : Nat) :
    (s.msix v).rpCmd = s.rpCmd := by
  unfold State.msix
  simp

@[simp] theorem State.rpCmd_rpLog (s : State) (b : LogBody) :
    (s.rpLog b).rpCmd = s.rpCmd := by
  unfold State.rpLog
  simp

@[simp] theorem State.rpCmd_rpCond (s : State) (code origin requester port skein addr old new : Nat) :
    (s.rpCond code origin requester port skein addr old new).rpCmd = s.rpCmd := by
  unfold State.rpCond
  simp

@[simp] theorem State.rpCmd_evtWrite (s : State) (e : Event) :
    (s.evtWrite e).rpCmd = s.rpCmd := by
  unfold State.evtWrite
  simp

@[simp] theorem State.rpCmd_evtOverflow (s : State) :
    s.evtOverflow.rpCmd = s.rpCmd := by
  unfold State.evtOverflow
  simp

@[simp] theorem State.rpCmd_post (s : State) (e : Event) :
    (s.post e).rpCmd = s.rpCmd := by
  unfold State.post
  simp

@[simp] theorem State.rpCmd_postFor (s : State) (e : Event) (scope : Nat) (skeins : List Nat) :
    (s.postFor e scope skeins).rpCmd = s.rpCmd := by
  unfold State.postFor
  simp

@[simp] theorem State.rpCmd_modUnits (s : State) (f : Units → Units) :
    (s.modUnits f).rpCmd = s.rpCmd := by
  unfold State.modUnits
  simp

@[simp] theorem State.rpCmd_setUnit (s : State) (i cause qstep : Nat) :
    (s.setUnit i cause qstep).rpCmd = s.rpCmd := by
  unfold State.setUnit
  simp

/-! ### Machine/Route -/

@[simp] theorem State.rpCmd_offer (s : State) (port : Nat) (x : EddyEnt) :
    (s.offer port x).rpCmd = s.rpCmd := by
  unfold State.offer
  simp

@[simp] theorem State.rpCmd_modWarp (s : State) (f : Warp → Warp) :
    (s.modWarp f).rpCmd = s.rpCmd := by
  unfold State.modWarp
  simp

@[simp] theorem State.rpCmd_logUnrouted (s : State) (p : Nat) (c : Container) :
    (s.logUnrouted p c).rpCmd = s.rpCmd := by
  unfold State.logUnrouted
  simp

@[simp] theorem State.rpCmd_goHome (s : State) (c : Container) :
    (s.goHome c).rpCmd = s.rpCmd := by
  unfold State.goHome
  simp

@[simp] theorem State.rpCmd_reflect (s : State) (x : EddyEnt) (noPath : Bool) :
    (s.reflect x noPath).rpCmd = s.rpCmd := by
  unfold State.reflect
  dsimp only
  repeat' split
  all_goals simp

@[simp] theorem State.rpCmd_toOutput (s : State) (r : Route) (x : EddyEnt) :
    (s.toOutput r x).rpCmd = s.rpCmd := by
  unfold State.toOutput
  repeat' split
  all_goals simp

/-! ### Machine/Send -/

@[simp] theorem State.rpCmd_hold (s : State) (dest skein plane planes : Nat) (loc : HeldAt) (m : Msg) (own : Owner) :
    (s.hold .ronpex dest skein plane planes loc m own).1.rpCmd = s.rpCmd := by
  unfold State.hold
  simp

@[simp] theorem State.rpCmd_rpSend (s : State) (h : Held) :
    (s.rpSend h).rpCmd = s.rpCmd := by
  unfold State.rpSend
  simp

@[simp] theorem State.rpCmd_rpPush (s : State) :
    s.rpPush.rpCmd = s.rpCmd := by
  unfold State.rpPush
  simp

@[simp] theorem State.rpCmd_rpMgmtPort (s : State) (port dest : Nat) (m : Mgmt) (own : Owner) :
    (s.rpMgmtPort port dest m own).rpCmd = s.rpCmd := by
  unfold State.rpMgmtPort
  simp

/-! ### Machine/Flags -/

@[simp] theorem State.rpCmd_errsumMsix (s before : State) :
    (s.errsumMsix before).rpCmd = s.rpCmd := by
  unfold State.errsumMsix
  simp

@[simp] theorem State.rpCmd_fmhError (s : State) (b offset scope : Nat) (skeins : List Nat) :
    (s.fmhError b offset scope skeins).rpCmd = s.rpCmd := by
  unfold State.fmhError
  simp

/-! ### Machine/OrderOps -/

@[simp] theorem State.rpCmd_modTray (s : State) (f : Tray → Tray) :
    (s.modTray f).rpCmd = s.rpCmd := by
  unfold State.modTray
  simp

@[simp] theorem State.rpCmd_trayOut (s : State) (port : Nat) (f : TrayFrame) :
    (s.trayOut port f).rpCmd = s.rpCmd := by
  unfold State.trayOut
  simp

@[simp] theorem State.rpCmd_trayMgmt (s : State) (m : Mgmt) :
    (s.trayMgmt m).rpCmd = s.rpCmd := by
  unfold State.trayMgmt
  simp

@[simp] theorem State.rpCmd_toEndPoint (s : State) (p : Nat) (m : Mgmt) :
    (s.toEndPoint p m).rpCmd = s.rpCmd := by
  unfold State.toEndPoint
  simp

@[simp] theorem State.rpCmd_toFarEnd (s : State) (p : Nat) (m : Mgmt) :
    (s.toFarEnd p m).rpCmd = s.rpCmd := by
  unfold State.toFarEnd
  repeat' split
  all_goals simp

@[simp] theorem State.rpCmd_orderToMembers (s : State) (o : SwitchOrder) :
    (s.orderToMembers o).rpCmd = s.rpCmd := by
  unfold State.orderToMembers
  simp

@[simp] theorem State.rpCmd_issueOrder (s : State) (o : SwitchOrder) :
    (s.issueOrder o).rpCmd = s.rpCmd := by
  unfold State.issueOrder
  simp

@[simp] theorem State.rpCmd_unitEvent (s : State) (i : Nat) :
    (s.unitEvent i).rpCmd = s.rpCmd := by
  unfold State.unitEvent
  simp

@[simp] theorem State.rpCmd_showUnits (s : State) (quiet : Bool) (l : List Nat) :
    (s.showUnits quiet l).rpCmd = s.rpCmd := by
  unfold State.showUnits
  simp

@[simp] theorem State.rpCmd_spdError (s : State) (n b skein : Nat) :
    (s.spdError n b skein).rpCmd = s.rpCmd := by
  unfold State.spdError
  simp

@[simp] theorem State.rpCmd_setTally (s : State) (ph : Nat) (t : Tally) :
    (s.setTally ph t).rpCmd = s.rpCmd := by
  unfold State.setTally
  simp

@[simp] theorem State.rpCmd_tallyPorts (s : State) (ph : Nat) (l : List Nat) (ok : Bool) :
    (s.tallyPorts ph l ok).rpCmd = s.rpCmd := by
  unfold State.tallyPorts
  simp

@[simp] theorem State.rpCmd_tallyLost (s : State) (ph : Nat) (l : List Nat) :
    (s.tallyLost ph l).rpCmd = s.rpCmd := by
  unfold State.tallyLost
  simp

@[simp] theorem State.rpCmd_loseContexts (s : State) (n : Nat) :
    (s.loseContexts n).rpCmd = s.rpCmd := by
  unfold State.loseContexts
  simp

@[simp] theorem State.rpCmd_classOrder (s : State) (c unitType unit gen : Nat) :
    (s.classOrder c unitType unit gen).rpCmd = s.rpCmd := by
  unfold State.classOrder
  simp

@[simp] theorem State.rpCmd_spindleOrder (s : State) (n : Nat) :
    (s.spindleOrder n).rpCmd = s.rpCmd := by
  unfold State.spindleOrder
  dsimp only
  repeat' split
  all_goals simp

/-! ### Machine/CmdOps -/

@[simp] theorem State.rpCmd_cmdEvent (s : State) (r : Running) (status detail : Nat) :
    (s.cmdEvent r status detail).rpCmd = s.rpCmd := by
  unfold State.cmdEvent
  simp

@[simp] theorem State.rpCmd_cmdNext (s : State) :
    s.cmdNext.rpCmd = s.rpCmd := by
  unfold State.cmdNext
  simp

/-! ### Machine/WeftAnswer -/

@[simp] theorem State.rpCmd_modSource (s : State) (f : Source → Source) :
    (s.modSource .ronpex f).rpCmd = s.rpCmd := by
  unfold State.modSource
  simp

@[simp] theorem State.rpCmd_modHeld (s : State) (id : Nat) (f : Held → Held) :
    (s.modHeld .ronpex id f).rpCmd = s.rpCmd := by
  unfold State.modHeld
  simp

@[simp] theorem State.rpCmd_dropHeld (s : State) (h : Held) :
    (s.dropHeld .ronpex h).rpCmd = s.rpCmd := by
  unfold State.dropHeld
  simp

@[simp] theorem State.rpCmd_relayLost (s : State) (m : Nat) :
    (s.relayLost m).rpCmd = s.rpCmd := by
  unfold State.relayLost
  simp

/-! ### Machine/EpOrders -/

@[simp] theorem State.rpCmd_snapEvent (s : State) (number missed : Nat) :
    (s.snapEvent .ronpex number missed).rpCmd = s.rpCmd := by
  unfold State.snapEvent
  simp

@[simp] theorem State.rpCmd_snapIn (s : State) (t number : Nat) (skeins : BitVec 64) :
    (s.snapIn .ronpex t number skeins).rpCmd = s.rpCmd := by
  unfold State.snapIn
  simp

/-! ### Machine/RpOrders -/

@[simp] theorem State.rpCmd_toAllPorts (s : State) (m : Mgmt) :
    (s.toAllPorts m).rpCmd = s.rpCmd := by
  unfold State.toAllPorts
  simp

@[simp] theorem State.rpCmd_rpEpochIn (s : State) (e eff : Nat) :
    (s.rpEpochIn e eff).rpCmd = s.rpCmd := by
  unfold State.rpEpochIn
  simp

@[simp] theorem State.rpCmd_rpSnapIn (s : State) (t number : Nat) (skeins : BitVec 64) :
    (s.rpSnapIn t number skeins).rpCmd = s.rpCmd := by
  unfold State.rpSnapIn
  simp

@[simp] theorem State.rpCmd_rpPathLoss (s : State) (tL : Nat) :
    (s.rpPathLoss tL).rpCmd = s.rpCmd := by
  unfold State.rpPathLoss
  simp

/-! ### Machine/FaultOps -/

@[simp] theorem State.rpCmd_portOrder (s : State) (p : Nat) :
    (s.portOrder p).rpCmd = s.rpCmd := by
  unfold State.portOrder
  simp

@[simp] theorem State.rpCmd_fenceLog (s : State) (i origin requester what : Nat) :
    (s.fenceLog i origin requester what).rpCmd = s.rpCmd := by
  unfold State.fenceLog
  simp

@[simp] theorem State.rpCmd_hardFence (s : State) (i cause : Nat) :
    (s.hardFence i cause).rpCmd = s.rpCmd := by
  unfold State.hardFence
  simp

@[simp] theorem State.rpCmd_stopClock (s : State) (port : Nat) :
    (s.stopClock .ronpex port).rpCmd = s.rpCmd := by
  unfold State.stopClock
  simp

@[simp] theorem State.rpCmd_fencePort (s : State) (n cause : Nat) :
    (s.fencePort n cause).rpCmd = s.rpCmd := by
  unfold State.fencePort
  simp

@[simp] theorem State.rpCmd_fenceSpindle (s : State) (n cause : Nat) :
    (s.fenceSpindle n cause).rpCmd = s.rpCmd := by
  unfold State.fenceSpindle
  simp

@[simp] theorem State.rpCmd_fenceChannel (s : State) (c cause offset : Nat) :
    (s.fenceChannel c cause offset).rpCmd = s.rpCmd := by
  unfold State.fenceChannel
  simp

@[simp] theorem State.rpCmd_portEvent (s : State) (port sub cause w : Nat) :
    (s.portEvent port sub cause w).rpCmd = s.rpCmd := by
  unfold State.portEvent
  simp

@[simp] theorem State.rpCmd_lossNotice (s : State) (port : Nat) :
    (s.lossNotice port).rpCmd = s.rpCmd := by
  unfold State.lossNotice
  simp

@[simp] theorem State.rpCmd_partEventFor (s : State) (type n state cause : Nat) (skeins : List Nat) :
    (s.partEventFor type n state cause skeins).rpCmd = s.rpCmd := by
  unfold State.partEventFor
  simp

@[simp] theorem State.rpCmd_loseEddies (s : State) (l : List Nat) :
    (s.loseEddies l).rpCmd = s.rpCmd := by
  unfold State.loseEddies
  simp

@[simp] theorem State.rpCmd_resetRegion (s : State) (r : Nat) :
    (s.resetRegion r).rpCmd = s.rpCmd := by
  unfold State.resetRegion
  simp

@[simp] theorem State.rpCmd_resetRegionAt (s : State) (r cause : Nat) (quiet : Bool) :
    (s.resetRegionAt r cause quiet).rpCmd = s.rpCmd := by
  unfold State.resetRegionAt
  simp

@[simp] theorem State.rpCmd_dieLost (s : State) (d : Nat) :
    (s.dieLost d).rpCmd = s.rpCmd := by
  unfold State.dieLost
  simp

@[simp] theorem State.rpCmd_resetDie (s : State) (d cause : Nat) :
    (s.resetDie d cause).rpCmd = s.rpCmd := by
  unfold State.resetDie
  simp

end Sys2Proof.Machine
end

section
/-! What leaves the regions and dies that are in reset as they are. One lemma for each operation, in the order and under the names of\nthe model's files. -/

namespace Sys2Proof.Machine

open Sys2Proof Sys2Proof.Claims

/-- What is in reset of a Ronpex: its regions and dies, and which dies are awake. -/
def State.inReset (s : State) : List (Nat × Nat) × List (Nat × Nat) × Nat := (s.rp.units.regions, s.rp.units.dies, s.rp.units.awake)

@[simp] theorem State.inReset_eq (s : State) : (s.rp.units.regions, s.rp.units.dies, s.rp.units.awake) = s.inReset := by rw [State.inReset]

@[simp] theorem State.inReset_mk (n f : Nat) (l : List Instr) (o : List Out) (m : SMap Byte) (r : Ronpex) (e : Plocen) :
    State.inReset { now := n, free := f, pending := l, out := o, hbm := m, rp := r, ep := e } = (r.units.regions, r.units.dies, r.units.awake) := by rw [State.inReset]

@[simp] theorem Ronpex.setReg_units (r : Ronpex) (a v : Nat) : (r.setReg a v).units = r.units := by rw [Ronpex.setReg]

@[simp] theorem State.inReset_ite (c : Prop) [Decidable c] (a b : State) :
    (if c then a else b).inReset = if c then a.inReset else b.inReset := by
  split <;> rfl

@[simp] theorem State.inReset_foldl {α : Type} (g : State → α → State) (h : ∀ t x, (g t x).inReset = t.inReset) (l : List α) (s : State) :
    (l.foldl g s).inReset = s.inReset := by
  induction l generalizing s with
  | nil => rfl
  | cons x r ih => rw [List.foldl_cons, ih, h]

theorem State.inReset_getD (o : Option State) (s : State) (h : ∀ t, o = some t → t.inReset = s.inReset) : (o.getD s).inReset = s.inReset := by
  cases o with
  | none => rfl
  | some t => exact h t rfl

/-! ### Machine/Ops -/

@[simp] theorem State.inReset_setReg (s : State) (a v : Nat) :
    (s.setReg .ronpex a v).inReset = s.inReset := by
  unfold State.setReg
  simp

@[simp] theorem State.inReset_setFld (s : State) (a lo len v : Nat) :
    (s.setFld .ronpex a lo len v).inReset = s.inReset := by
  unfold State.setFld
  simp

@[simp] theorem State.inReset_satFld (s : State) (a lo len n : Nat) :
    (s.satFld .ronpex a lo len n).inReset = s.inReset := by
  unfold State.satFld
  simp

@[simp] theorem State.inReset_setFlag (s : State) (a i : Nat) (b : Bool) :
    (s.setFlag .ronpex a i b).inReset = s.inReset := by
  unfold State.setFlag
  simp

@[simp] theorem State.inReset_setLink (s : State) (port : Nat) (l : Link) :
    (s.setLink .ronpex port l).inReset = s.inReset := by
  unfold State.setLink
  simp

@[simp] theorem State.inReset_modLink (s : State) (port : Nat) (f : Link → Link) :
    (s.modLink .ronpex port f).inReset = s.inReset := by
  unfold State.modLink
  simp

@[simp] theorem State.inReset_setSource (s : State) (x : Source) :
    (s.setSource .ronpex x).inReset = s.inReset := by
  unfold State.setSource
  simp

@[simp] theorem State.inReset_emit (s : State) (o : Out) :
    (s.emit o).inReset = s.inReset := by
  unfold State.emit
  simp

@[simp] theorem State.inReset_msix (s : State) (v : Nat) :
    (s.msix v).inReset = s.inReset := by
  unfold State.msix
  simp

@[simp] theorem State.inReset_rpLog (s : State) (b : LogBody) :
    (s.rpLog b).inReset = s.inReset := by
  unfold State.rpLog
  simp

@[simp] theorem State.inReset_rpCond (s : State) (code origin requester port skein addr old new : Nat) :
    (s.rpCond code origin requester port skein addr old new).inReset = s.inReset := by
  unfold State.rpCond
  simp

@[simp] theorem State.inReset_evtWrite (s : State) (e : Event) :
    (s.evtWrite e).inReset = s.inReset := by
  unfold State.evtWrite
  simp

@[simp] theorem State.inReset_evtOverflow (s : State) :
    s.evtOverflow.inReset = s.inReset := by
  unfold State.evtOverflow
  simp

@[simp] theorem State.inReset_post (s : State) (e : Event) :
    (s.post e).inReset = s.inReset := by
  unfold State.post
  simp

@[simp] theorem State.inReset_postFor (s : State) (e : Event) (scope : Nat) (skeins : List Nat) :
    (s.postFor e scope skeins).inReset = s.inReset := by
  unfold State.postFor
  simp

@[simp] theorem State.inReset_setUnit (s : State) (i cause qstep : Nat) :
    (s.setUnit i cause qstep).inReset = s.inReset := by
  unfold State.setUnit State.modUnits
  simp

/-! ### Machine/Route -/

@[simp] theorem State.inReset_offer (s : State) (port : Nat) (x : EddyEnt) :
    (s.offer port x).inReset = s.inReset := by
  unfold State.offer
  simp

@[simp] theorem State.inReset_modWarp (s : State) (f : Warp → Warp) :
    (s.modWarp f).inReset = s.inReset := by
  unfold State.modWarp
  simp

@[simp] theorem State.inReset_logUnrouted (s : State) (p : Nat) (c : Container) :
    (s.logUnrouted p c).inReset = s.inReset := by
  unfold State.logUnrouted
  simp

@[simp] theorem State.inReset_goHome (s : State) (c : Container) :
    (s.goHome c).inReset = s.inReset := by
  unfold State.goHome
  simp

@[simp] theorem State.inReset_reflect (s : State) (x : EddyEnt) (noPath : Bool) :
    (s.reflect x noPath).inReset = s.inReset := by
  unfold State.reflect
  dsimp only
  repeat' split
  all_goals simp

@[simp] theorem State.inReset_toOutput (s : State) (r : Route) (x : EddyEnt) :
    (s.toOutput r x).inReset = s.inReset := by
  unfold State.toOutput
  repeat' split
  all_goals simp

/-! ### Machine/Send -/

@[simp] theorem State.inReset_hold (s : State) (dest skein plane planes : Nat) (loc : HeldAt) (m : Msg) (own : Owner) :
    (s.hold .ronpex dest skein plane planes loc m own).1.inReset = s.inReset := by
  unfold State.hold
  simp

@[simp] theorem State.inReset_rpSend (s : State) (h : Held) :
    (s.rpSend h).inReset = s.inReset := by
  unfold State.rpSend
  simp

@[simp] theorem State.inReset_rpPush (s : State) :
    s.rpPush.inReset = s.inReset := by
  unfold State.rpPush
  simp

@[simp] theorem State.inReset_rpMgmtPort (s : State) (port dest : Nat) (m : Mgmt) (own : Owner) :
    (s.rpMgmtPort port dest m own).inReset = s.inReset := by
  unfold State.rpMgmtPort
  simp

/-! ### Machine/OrderOps -/

@[simp] theorem State.inReset_modTray (s : State) (f : Tray → Tray) :
    (s.modTray f).inReset = s.inReset := by
  unfold State.modTray
  simp

@[simp] theorem State.inReset_trayOut (s : State) (port : Nat) (f : TrayFrame) :
    (s.trayOut port f).inReset = s.inReset := by
  unfold State.trayOut
  simp

@[simp] theorem State.inReset_trayMgmt (s : State) (m : Mgmt) :
    (s.trayMgmt m).inReset = s.inReset := by
  unfold State.trayMgmt
  simp

@[simp] theorem State.inReset_toEndPoint (s : State) (p : Nat) (m : Mgmt) :
    (s.toEndPoint p m).inReset = s.inReset := by
  unfold State.toEndPoint
  simp

@[simp] theorem State.inReset_toFarEnd (s : State) (p : Nat) (m : Mgmt) :
    (s.toFarEnd p m).inReset = s.inReset := by
  unfold State.toFarEnd
  repeat' split
  all_goals simp

@[simp] theorem State.inReset_orderToMembers (s : State) (o : SwitchOrder) :
    (s.orderToMembers o).inReset = s.inReset := by
  unfold State.orderToMembers
  simp

@[simp] theorem State.inReset_issueOrder (s : State) (o : SwitchOrder) :
    (s.issueOrder o).inReset = s.inReset := by
  unfold State.issueOrder
  simp

@[simp] theorem State.inReset_unitEvent (s : State) (i : Nat) :
    (s.unitEvent i).inReset = s.inReset := by
  unfold State.unitEvent
  simp

@[simp] theorem State.inReset_showUnits (s : State) (quiet : Bool) (l : List Nat) :
    (s.showUnits quiet l).inReset = s.inReset := by
  unfold State.showUnits
  simp

@[simp] theorem State.inReset_classOrder (s : State) (c unitType unit gen : Nat) :
    (s.classOrder c unitType unit gen).inReset = s.inReset := by
  unfold State.classOrder
  simp

@[simp] theorem State.inReset_spindleOrder (s : State) (n : Nat) :
    (s.spindleOrder n).inReset = s.inReset := by
  unfold State.spindleOrder
  dsimp only
  repeat' split
  all_goals simp

/-! ### Machine/FaultOps -/

@[simp] theorem State.inReset_portOrder (s : State) (p : Nat) :
    (s.portOrder p).inReset = s.inReset := by
  unfold State.portOrder
  simp

@[simp] theorem State.inReset_fenceLog (s : State) (i origin requester what : Nat) :
    (s.fenceLog i origin requester what).inReset = s.inReset := by
  unfold State.fenceLog
  simp

@[simp] theorem State.inReset_hardFence (s : State) (i cause : Nat) :
    (s.hardFence i cause).inReset = s.inReset := by
  unfold State.hardFence
  simp

@[simp] theorem State.inReset_stopClock (s : State) (port : Nat) :
    (s.stopClock .ronpex port).inReset = s.inReset := by
  unfold State.stopClock
  simp

@[simp] theorem State.inReset_fencePort (s : State) (n cause : Nat) :
    (s.fencePort n cause).inReset = s.inReset := by
  unfold State.fencePort
  simp

@[simp] theorem State.inReset_partEventFor (s : State) (type n state cause : Nat) (skeins : List Nat) :
    (s.partEventFor type n state cause skeins).inReset = s.inReset := by
  unfold State.partEventFor
  simp

@[simp] theorem State.inReset_loseEddies (s : State) (l : List Nat) :
    (s.loseEddies l).inReset = s.inReset := by
  unfold State.loseEddies
  simp

@[simp] theorem State.inReset_resetRegion (s : State) (r : Nat) :
    (s.resetRegion r).inReset = s.inReset := by
  unfold State.resetRegion
  simp

@[simp] theorem State.inReset_dieLost (s : State) (d : Nat) :
    (s.dieLost d).inReset = s.inReset := by
  unfold State.dieLost
  simp

end Sys2Proof.Machine
end

section
/-! Commands of the ring on drafts, skeins, units, regions and dies, and orders (R214, R303, R345, R352, R355, R363, R388). -/

namespace Sys2Proof.Machine

open Sys2Proof Sys2Proof.Claims

/-! ### DRAFT_LOAD -/

/-- The state with one word in a slot of a region whose other words are zero; the slot is not accepted. -/
def State.imageLoaded (s : State) (region slot o : Nat) (v : Word) : State :=
  let u : State := { s with rp := { s.rp with regs := s.rp.regs.filter fun e =>
    !(decide (draftBase region slot ≤ e.1) && decide (e.1 < draftBase region slot + 0x20000)) } }
  (u.setReg .ronpex (draftBase region slot + o) v.toNat).slotWritten slot

/-- The entry of the change log for a load of a draft. -/
def loadBody (now slot p0 : Nat) : LogBody :=
  { time := now, type := 1, origin := 0, requester := 0, port := 255, skein := 0, addr := slot, old := 0, new := BitVec.ofNat 32 p0 }

theorem State.draftLoad_held {s : State} {p0 : Nat} (h : s.slotInEffect (bits 8 3 p0) = true ∨ s.slotNamed (bits 8 3 p0) = true)
    (image : List (Nat × Word)) (ok : Bool) : s.draftLoad p0 image ok = s.cmdDone 2 0 := by
  rw [State.draftLoad]
  exact if_pos (by simpa using h)

theorem State.draftLoad_unread {s : State} {p0 : Nat} (heff : s.slotInEffect (bits 8 3 p0) = false)
    (hnamed : s.slotNamed (bits 8 3 p0) = false) (image : List (Nat × Word)) : s.draftLoad p0 image false = s.cmdDone 4 0 := by
  simp [State.draftLoad, heff, hnamed]

theorem State.loadImage_one (s : State) (region slot : Nat) {o : Nat} (v : Word) (ho : o < 0x20000) (h4 : o % 4 = 0) :
    s.loadImage region slot [(o, v)] = State.setReg { s with rp := { s.rp with regs := s.rp.regs.filter fun e =>
      !(decide (draftBase region slot ≤ e.1) && decide (e.1 < draftBase region slot + 0x20000)) } } .ronpex
      (draftBase region slot + o) v.toNat := by
  have hword : o / 4 * 4 = o := by omega
  rw [State.loadImage]
  dsimp only
  rw [List.foldl_cons, List.foldl_nil, if_pos ho, hword]

theorem State.draftLoad_one {s : State} {p0 o : Nat} {v : Word} (heff : s.slotInEffect (bits 8 3 p0) = false)
    (hnamed : s.slotNamed (bits 8 3 p0) = false) (hall : bit 7 p0 = false) (ho : o < 0x20000) (h4 : o % 4 = 0) :
    s.draftLoad p0 [(o, v)] true
      = ((s.imageLoaded (bits 0 4 p0) (bits 8 3 p0) o v).rpLog (loadBody s.now (bits 8 3 p0) p0)).cmdDone 0 0 := by
  have hkeep : ((([(o, v)] : List (Nat × Word)).filter fun w => decide (0 ≤ w.1) && decide (w.1 < 0 + 0x20000)).map fun w => (w.1 - 0, w.2))
      = [(o, v)] := by
    rw [List.filter_cons_of_pos (by simpa using ho)]
    rfl
  rw [State.draftLoad]
  dsimp only
  rw [if_neg (by simp [heff, hnamed]), if_neg (by simp), if_neg (by simp [hall]), List.foldl_cons, List.foldl_nil, hkeep,
    State.loadImage_one _ _ _ _ ho h4]
  rfl

theorem le_draftBase (region slot : Nat) : 0x1000000 ≤ draftBase region slot := by
  unfold draftBase
  omega

/-- A word of a slot just loaded: the image's, or zero. -/
theorem State.reg_imageLoaded (s : State) (region slot o : Nat) (v : Word) {x : Nat} (hx : x < 0x20000) :
    (s.imageLoaded region slot o v).reg .ronpex (draftBase region slot + x)
      = if x = o then v.toNat else (rpDefault (draftBase region slot + x)).toNat := by
  have hfilter := SMap.look_filter rpDefault s.rp.regs
    (fun a => !(decide (draftBase region slot ≤ a) && decide (a < draftBase region slot + 0x20000))) (draftBase region slot + x)
  rw [if_neg (by simp [hx])] at hfilter
  rw [State.imageLoaded, State.slotWritten, State.reg_modWarp, State.reg_setReg]
  by_cases h : x = o
  · rw [if_pos ⟨rfl, by rw [h]⟩, if_pos h]
    exact Nat.mod_eq_of_lt v.isLt
  · rw [if_neg (by omega), if_neg h]
    exact congrArg BitVec.toNat hfilter

theorem State.executing_imageLoaded {s t : State} {c : Command} {w : CmdWait} (h : s.Executing c w t) (region slot o : Nat) (v : Word) :
    s.Executing c w (t.imageLoaded region slot o v) :=
  h.step rfl rfl rfl ⟨rfl, rfl, rfl, rfl⟩

theorem draftLoad_loaded {s u : State} {c : Command} {o : Nat} {v : Word} (h : s.Executing c .none u)
    (heff : u.slotInEffect (bits 8 3 c.p0) = false) (hnamed : u.slotNamed (bits 8 3 c.p0) = false) (hall : bit 7 c.p0 = false)
    (ho : o < 0x20000) (h4 : o % 4 = 0) :
    let t := u.draftLoad c.p0 [(o, v)] true
    t.reg .ronpex (draftBase (bits 0 4 c.p0) (bits 8 3 c.p0) + o) = v.toNat
      ∧ (∀ x, x < 0x20000 → x ≠ o → t.reg .ronpex (draftBase (bits 0 4 c.p0) (bits 8 3 c.p0) + x)
          = (rpDefault (draftBase (bits 0 4 c.p0) (bits 8 3 c.p0) + x)).toNat)
      ∧ bit (bits 8 3 c.p0) t.rp.warp.accepted = false ∧ ended s t := by
  dsimp only
  rw [State.draftLoad_one heff hnamed hall ho h4]
  have hload := (State.executing_imageLoaded h (bits 0 4 c.p0) (bits 8 3 c.p0) o v).recorded
    (State.recorded_rpLog _ (loadBody u.now (bits 8 3 c.p0) c.p0))
  have hreg : ∀ x, (((u.imageLoaded (bits 0 4 c.p0) (bits 8 3 c.p0) o v).rpLog (loadBody u.now (bits 8 3 c.p0) c.p0)).cmdDone 0 0).reg .ronpex
      (draftBase (bits 0 4 c.p0) (bits 8 3 c.p0) + x) = (u.imageLoaded (bits 0 4 c.p0) (bits 8 3 c.p0) o v).reg .ronpex
      (draftBase (bits 0 4 c.p0) (bits 8 3 c.p0) + x) := fun x =>
    State.reg_of_rpRegs (by simp) (notMem_reportRegs (by have := le_draftBase (bits 0 4 c.p0) (bits 8 3 c.p0); omega))
  refine ⟨?_, fun x hx hne => ?_, ?_, hload.ended 0 0⟩
  · rw [hreg, State.reg_imageLoaded _ _ _ _ _ ho, if_pos rfl]
  · rw [hreg, State.reg_imageLoaded _ _ _ _ _ hx, if_neg hne]
  · rw [(State.recorded_cmdDone _ _ 0 0 hload.running).frame]
    show bit _ (State.rpLog _ _).rp.warp.accepted = false
    rw [(State.recorded_rpLog _ _).frame]
    exact bit_setBit_same _ false _

/-! ### SKEIN -/

theorem bits_add_shift {k a : Nat} (hk : k < 2 ^ 6) (ha : a < 2 ^ 3) :
    bits 0 6 (k + 256 * a) = k ∧ bits 8 3 (k + 256 * a) = a := by
  constructor <;> simp only [bits] <;> omega

theorem State.cmdResult_lt (s : State) (k op : Nat) : s.cmdResult k op < 256 := by
  unfold State.cmdResult
  repeat' split
  all_goals decide

/-- The state in which a command of a skein waits for its frame boundary. -/
def State.skeinTaken (s : State) (k op : Nat) (template : Option Nat) : State :=
  (s.setReg .ronpex Reg.sknStat k).modSk fun x => { x with
    cmd := some { op := op, skein := k, effect := s.frameAfter 1000 * frameNs, template := template } }

/-- The state in which a refused command of a skein shows its RESULT. -/
def State.skeinRefused (s : State) (k r : Nat) : State :=
  if r = 5 then s.setFld .ronpex Reg.sknStat 8 8 5 else s.setReg .ronpex Reg.sknStat (k + 256 * r)

theorem State.skeinWrite_eq (s : State) {k op : Nat} (hk : k < 2 ^ 6) (h1 : 1 ≤ op) (h4 : op ≤ 4) (template : Option Nat) :
    s.skeinWrite (k + 256 * op) template
      = if s.cmdResult k op = 0 then s.skeinTaken k op template else s.skeinRefused k (s.cmdResult k op) := by
  obtain ⟨hbk, hbop⟩ := bits_add_shift hk (a := op) (by omega)
  unfold State.skeinWrite State.skeinRefused State.skeinTaken
  dsimp only
  rw [hbk, hbop, if_neg (by omega)]
  by_cases h5 : s.cmdResult k op = 5
  · rw [if_pos h5, if_neg (by omega), if_pos h5]
  · rw [if_neg h5, if_neg h5]
    by_cases h0 : s.cmdResult k op = 0
    · rw [if_neg (by simp [h0]), if_pos h0, h0, Nat.mul_zero, Nat.add_zero]
    · rw [if_pos h0, if_neg h0]

theorem State.skeinOrder_eq (s : State) {p0 k op : Nat} (hk : k = bits 0 6 p0) (hop : op = bits 8 3 p0) (h1 : 1 ≤ op) (h4 : op ≤ 4) :
    s.skeinOrder p0 = if s.cmdResult k op = 0
      then (s.skeinTaken k op (if bit 15 p0 = true ∧ op = 1 then some (bits 16 6 p0) else none)).cmdWait .skein
      else (s.skeinRefused k (s.cmdResult k op)).cmdDone 3 (s.cmdResult k op) := by
  have hklt : k < 2 ^ 6 := hk ▸ bits_lt 0 6 p0
  unfold State.skeinOrder
  dsimp only
  rw [← hk, ← hop, if_neg (by omega), State.skeinWrite_eq s hklt h1 h4]
  split
  · simp
  · rfl

theorem State.fld_skeinRefused (s : State) {k r : Nat} (hk : k < 2 ^ 6) (hr : r < 256) :
    (s.skeinRefused k r).fld .ronpex Reg.sknStat 8 8 = r := by
  unfold State.skeinRefused
  split
  · next h => exact (State.fld_setFld_same _ _ _ _ _ _ (by omega)).trans (by rw [h]; rfl)
  · rw [State.fld_setReg_same _ _ _ _ (by omega)]
    simp only [bits]
    omega

theorem State.skeinRefused_only (s : State) (k r : Nat) : ∃ x, s.skeinRefused k r = { s with rp := { s.rp with regs := x } } := by
  unfold State.skeinRefused
  split
  · exact ⟨_, rfl⟩
  · exact ⟨_, rfl⟩

theorem skein_waits {s u : State} {c : Command} {k op : Nat} (hu : s.Executing c .none u) (hk : k < 2 ^ 6) (template : Option Nat) :
    let t := (u.skeinTaken k op template).cmdWait .skein
    waits s t c .skein
      ∧ t.rp.skeins = { u.rp.skeins with cmd := some { op := op, skein := k, effect := u.frameAfter 1000 * frameNs, template := template } }
      ∧ t.reg .ronpex Reg.sknStat = k ∧ regsBut u t .ronpex [Reg.sknStat] := by
  have htaken : s.Executing c .none (u.skeinTaken k op template) := hu.step rfl rfl rfl ⟨rfl, rfl, rfl, rfl⟩
  have hreg : regsBut u (u.setReg .ronpex Reg.sknStat k) .ronpex [Reg.sknStat] := regsBut_setReg u k (List.mem_singleton_self _)
  refine ⟨(htaken.cmdWait .skein).waits, rfl, ?_, hreg⟩
  exact (State.reg_setReg_same u .ronpex Reg.sknStat k).trans (Nat.mod_eq_of_lt (by omega))

theorem skein_refused {s u : State} {c : Command} {k r : Nat} (hu : s.Executing c .none u) (hk : k < 2 ^ 6) (hr : r < 256) :
    let t := (u.skeinRefused k r).cmdDone 3 r
    ended s t ∧ t.rp.skeins = u.rp.skeins ∧ t.fld .ronpex Reg.sknStat 8 8 = r := by
  obtain ⟨x, hx⟩ := u.skeinRefused_only k r
  have href : s.Executing c .none (u.skeinRefused k r) := by
    rw [hx]
    exact hu.step rfl rfl rfl ⟨rfl, rfl, rfl, rfl⟩
  refine ⟨href.ended 3 r, (href.skeins_cmdDone 3 r).trans (by rw [hx]), ?_⟩
  rw [State.fld_congr (State.reg_of_rpRegs (State.rpRegs_cmdDone _ 3 r) (by decide)), State.fld_skeinRefused u hk hr]

/-! ### Regions and dies -/

/-- A region that is put into reset joins those that are, at the present time. -/
theorem State.inReset_resetRegionAt (s : State) (r cause : Nat) (quiet : Bool) :
    (s.resetRegionAt r cause quiet).inReset = ((s.rp.units.regions.filter fun x => x.1 != r) ++ [(r, s.now)], s.rp.units.dies, s.rp.units.awake) := by
  have hunits : ∀ t : State, t.inReset = s.inReset → State.inReset
      ((t.resetRegion r).modUnits fun u => { u with regions := (u.regions.filter fun x => x.1 != r) ++ [(r, s.now)] })
      = ((s.rp.units.regions.filter fun x => x.1 != r) ++ [(r, s.now)], s.rp.units.dies, s.rp.units.awake) := by
    intro t ht
    rw [State.inReset, State.inReset, Prod.mk.injEq, Prod.mk.injEq] at ht
    obtain ⟨hregions, hdies, hawake⟩ := ht
    rw [← hregions, ← hdies, ← hawake, State.inReset]
    rfl
  rw [← hunits ((((regionPorts r) ++ (regionSpindles r).map (192 + ·)).foldl
    (fun (t : State) (i : Nat) => if t.unitState i = 1 ∨ t.unitState i = 3 then t else t.hardFence i cause) s).loseEddies (regionPorts r)) (by simp)]
  unfold State.resetRegionAt
  simp

theorem State.regions_resetRegionAt (s : State) (r cause : Nat) (quiet : Bool) :
    (s.resetRegionAt r cause quiet).rp.units.regions = (s.rp.units.regions.filter fun x => x.1 != r) ++ [(r, s.now)] :=
  congrArg Prod.fst (s.inReset_resetRegionAt r cause quiet)

theorem State.regionOff_of_mem {s : State} {r n : Nat} (h : (r, n) ∈ s.rp.units.regions) : s.regionOff r = true := by
  have : (s.rp.units.regions.any fun x => x.1 == r) = true := List.any_eq_true.2 ⟨_, h, by simp⟩
  simp [State.regionOff, this]

theorem resetRegion_waits {s u : State} {c : Command} (hu : s.Executing c .none u) (n : Nat) :
    let t := (u.cmdWait (.reset false n)).resetRegionAt n 4 false
    waits s t c (.reset false n) ∧ (n, u.now) ∈ t.rp.units.regions ∧ t.regionOff n = true := by
  have hrun : ((u.cmdWait (.reset false n)).resetRegionAt n 4 false).rpCmd = (u.cmdWait (.reset false n)).rpCmd := by simp
  have hmem : (n, u.now) ∈ ((u.cmdWait (.reset false n)).resetRegionAt n 4 false).rp.units.regions := by
    rw [State.regions_resetRegionAt]
    exact List.mem_append_right _ (List.mem_singleton_self _)
  have honly : onlyRonpex (u.cmdWait (.reset false n)) ((u.cmdWait (.reset false n)).resetRegionAt n 4 false) :=
    onlyRonpex_of (by simp) (by simp)
  have hwait := hu.cmdWait (.reset false n)
  rw [State.rpCmd, State.rpCmd, Prod.mk.injEq] at hrun
  exact ⟨⟨hrun.1.trans hwait.running, State.onlyRonpex_trans hwait.onlyRonpex honly⟩, hmem, State.regionOff_of_mem hmem⟩

theorem State.hbmByte_dieLost (s : State) (d a : Nat) : (s.dieLost d).hbmByte a = if chanOf a / 32 = d then 0 else s.hbmByte a := by
  have h := SMap.look_filter (fun _ => (0 : Byte)) s.hbm (fun k => chanOf k / 32 != d) a
  rw [State.hbmByte, State.dieLost]
  refine h.trans ?_
  by_cases hd : chanOf a / 32 = d <;> simp [hd, State.hbmByte]

/-- A die that is put into reset: its stack is lost, and then its regions are put into reset. -/
theorem State.resetDie_after (s : State) (d cause : Nat) :
    let u := (s.modUnits fun u => { u with dies := (u.dies.filter fun x => x.1 != d) ++ [(d, s.now)] }).dieLost d
    (s.resetDie d cause).kept = u.kept ∧ (s.resetDie d cause).beside .ronpex = u.beside .ronpex ∧ (s.resetDie d cause).rpCmd = u.rpCmd
      ∧ (s.resetDie d cause).inReset.2 = u.inReset.2 := by
  have hregions : ∀ (l : List Nat) (t : State), (l.foldl (fun (t : State) (r : Nat) => t.resetRegionAt (4 * d + r) cause true) t).inReset.2 = t.inReset.2 := by
    intro l
    induction l with
    | nil => exact fun _ => rfl
    | cons r l ih =>
      intro t
      have hr := congrArg Prod.snd (t.inReset_resetRegionAt (4 * d + r) cause true)
      exact (ih _).trans hr
  dsimp only
  refine ⟨?_, ?_, ?_, ?_⟩
  · unfold State.resetDie; simp
  · unfold State.resetDie; simp
  · unfold State.resetDie; simp
  · unfold State.resetDie
    rw [State.inReset_partEventFor, State.inReset_showUnits, State.inReset_showUnits, hregions]

theorem State.dies_resetDie (s : State) (d cause : Nat) :
    (s.resetDie d cause).rp.units.dies = (s.rp.units.dies.filter fun x => x.1 != d) ++ [(d, s.now)] :=
  congrArg Prod.fst (s.resetDie_after d cause).2.2.2

theorem State.hbmByte_resetDie (s : State) (d cause a : Nat) :
    (s.resetDie d cause).hbmByte a = if chanOf a / 32 = d then 0 else s.hbmByte a := by
  have hkept := (s.resetDie_after d cause).1
  simp only [State.kept, Prod.mk.injEq] at hkept
  rw [State.hbmByte, hkept.2.2.1, ← State.hbmByte, State.hbmByte_dieLost]
  rfl

/-- What a die's reset leaves: the Plocen, fabric time and the waiting commands, and the command of the ring. -/
theorem State.resetDie_keeps (s : State) (d cause : Nat) :
    (s.resetDie d cause).ep = s.ep ∧ (s.resetDie d cause).now = s.now ∧ (s.resetDie d cause).pending = s.pending
      ∧ (s.resetDie d cause).rp.mgmt.running = s.rp.mgmt.running := by
  obtain ⟨hkept, hbeside, hrun, -⟩ := s.resetDie_after d cause
  simp only [State.kept, Prod.mk.injEq] at hkept
  obtain ⟨hnow, hpending, -, -⟩ := hkept
  exact ⟨State.ep_of_beside hbeside, hnow, hpending, congrArg Prod.fst hrun⟩

theorem resetDie_waits {s u : State} {c : Command} (hu : s.Executing c .none u) (hbyte : ∀ a, u.hbmByte a = s.hbmByte a) (n : Nat) :
    let t := (u.cmdWait (.reset true n)).resetDie n 4
    t.rp.mgmt.running = some { tag := c.tag, count := s.rp.mgmt.cmdHead, wait := .reset true n }
      ∧ (n, u.now) ∈ t.rp.units.dies ∧ (∀ a, t.hbmByte a = if chanOf a / 32 = n then 0 else s.hbmByte a)
      ∧ t.ep = s.ep ∧ t.now = s.now ∧ t.pending = s.pending := by
  obtain ⟨hep, hnow, hpending, hrun⟩ := (u.cmdWait (.reset true n)).resetDie_keeps n 4
  obtain ⟨uep, -, unow, upending⟩ := hu.onlyRonpex
  refine ⟨hrun.trans (hu.cmdWait (.reset true n)).running, ?_, fun a => ?_, hep.trans uep, hnow.trans unow, hpending.trans upending⟩
  · rw [State.dies_resetDie]
    exact List.mem_append_right _ (List.mem_singleton_self _)
  · rw [State.hbmByte_resetDie, ← hbyte]
    rfl

/-! ### EPOCH and SNAPSHOT -/

theorem epoch_waits {s u : State} {c : Command} {e eff : Nat} (hu : s.Executing c .none u) (h : u.epochAhead .ronpex e = true) :
    let t := (u.cmdWait (.epoch (frameTime u.now eff))).rpEpochIn e eff
    waits s t c (.epoch (frameTime u.now eff)) ∧ t.rp.orders.epoch = some (e, frameTime u.now eff)
      ∧ t.epoch .ronpex = u.epoch .ronpex ∧ t.rp.links = s.rp.links := by
  have hwait := hu.cmdWait (.epoch (frameTime u.now eff))
  have hstep : s.Executing c (.epoch (frameTime u.now eff)) ((u.cmdWait (.epoch (frameTime u.now eff))).rpEpochIn e eff) := by
    have hrun : ((u.cmdWait (.epoch (frameTime u.now eff))).rpEpochIn e eff).rpCmd = (u.cmdWait (.epoch (frameTime u.now eff))).rpCmd := by simp
    have honly : onlyRonpex (u.cmdWait (.epoch (frameTime u.now eff))) ((u.cmdWait (.epoch (frameTime u.now eff))).rpEpochIn e eff) :=
      onlyRonpex_of (by simp) (by simp)
    rw [State.rpCmd, State.rpCmd, Prod.mk.injEq] at hrun
    exact hwait.step hrun.1 hrun.2 (by simp) honly
  by_cases hsame : u.rp.orders.epoch = some (e, frameTime u.now eff)
  · have heq : (u.cmdWait (.epoch (frameTime u.now eff))).rpEpochIn e eff = u.cmdWait (.epoch (frameTime u.now eff)) := by
      rw [State.rpEpochIn]
      exact if_pos (.inr hsame)
    rw [heq] at hstep ⊢
    exact ⟨hstep.waits, hsame, rfl, hstep.links⟩
  · have heq := State.rpEpochIn_ahead (s := u.cmdWait (.epoch (frameTime u.now eff))) (eff := eff) h hsame
    refine ⟨hstep.waits, ?_, ?_, hstep.links⟩
    · have := State.orders_of_bothOrders (s := (u.cmdWait (.epoch (frameTime u.now eff))).epochAccepted .ronpex e (frameTime u.now eff))
        (t := (u.cmdWait (.epoch (frameTime u.now eff))).rpEpochIn e eff) (by rw [heq]; simp; rfl) .ronpex
      exact congrArg Orders.epoch this
    · have := State.epoch_ronpex_of (s := (u.cmdWait (.epoch (frameTime u.now eff))).epochAccepted .ronpex e (frameTime u.now eff))
        (t := (u.cmdWait (.epoch (frameTime u.now eff))).rpEpochIn e eff) (by rw [heq]; simp; rfl)
      exact this.trans rfl

/-- A snapshot order on its way to the end points changes neither the orders nor the registers of the snapshot. -/
theorem State.rpSnapIn_taken (s : State) (at_ n : Nat) (k : BitVec 64) :
    (s.rpSnapIn at_ n k).rpRegs = (s.snapTaken .ronpex at_ n k).rpRegs
      ∧ (s.rpSnapIn at_ n k).bothOrders = (s.snapTaken .ronpex at_ n k).bothOrders := by
  rw [State.rpSnapIn, State.snapIn_eq]
  split
  · exact ⟨by simp, by simp⟩
  · exact ⟨by simp, by simp⟩

theorem snapshot_ended {s u : State} {c : Command} {at_ n : Nat} (hu : s.Executing c .none u) (k : BitVec 64) (hn : n < 2 ^ 16)
    (hat : u.now ≤ at_) :
    let t := (u.rpSnapIn at_ n k).cmdDone 0 0
    ended s t ∧ t.rp.orders.snap = some (at_, n, k) ∧ t.reg .ronpex Reg.mgtSnapStat = n
      ∧ t.reg .ronpex Reg.mgtSnapTLo = bits 0 32 at_ ∧ t.reg .ronpex Reg.mgtSnapTHi = bits 32 32 at_ := by
  have hrun : (u.rpSnapIn at_ n k).rpCmd = u.rpCmd := by simp
  have honly : onlyRonpex u (u.rpSnapIn at_ n k) := onlyRonpex_of (by simp) (by simp)
  rw [State.rpCmd, State.rpCmd, Prod.mk.injEq] at hrun
  have hsnap : s.Executing c .none (u.rpSnapIn at_ n k) := hu.step hrun.1 hrun.2 (by simp) honly
  obtain ⟨hregs, horders⟩ := u.rpSnapIn_taken at_ n k
  obtain ⟨hst, hlo, hhi⟩ := u.reg_snapTaken .ronpex at_ k hn
  have hreg : ∀ a, a ∉ reportRegs → ((u.rpSnapIn at_ n k).cmdDone 0 0).reg .ronpex a = (u.snapTaken .ronpex at_ n k).reg .ronpex a :=
    fun a ha => State.reg_of_rpRegs ((State.rpRegs_cmdDone _ 0 0).trans hregs) ha
  have hord := State.orders_of_bothOrders ((State.bothOrders_cmdDone (u.rpSnapIn at_ n k) 0 0).trans horders) .ronpex
  refine ⟨hsnap.ended 0 0, ?_, ?_, (hreg _ (by decide)).trans hlo, (hreg _ (by decide)).trans hhi⟩
  · refine (congrArg Orders.snap (hord.trans (u.orders_snapTaken .ronpex at_ n k))).trans ?_
    exact if_neg (Nat.not_lt.2 hat)
  · rw [hreg _ (by decide)]
    exact hst.trans (if_neg (Nat.not_lt.2 hat))

/-! ### The commands -/

section Commands
variable {s : State} {c : Command} (hfetch : s.mayFetch = true) (hread : c.fetchOk = true)
include hfetch hread

theorem exec_draftLoad (image : List (Nat × Word)) (ok : Bool) (hop : c.op = 1) (huse : Command.unusedZero c {
    addr := true, len := true, p0 := if bit 7 c.p0 then 0x780 else 0x78F } = true) (hlen : c.len = 0) :
    exec (.draftLoad c image ok) s = .next ((begun s c).draftLoad c.p0 image ok) := by
  have hexec : exec (.draftLoad c image ok) s = execDraftLoad c image ok s := rfl
  rw [hexec, execDraftLoad, s.command_of_wellFormed c 1 _ _ hfetch hread hop (by rw [huse, hlen]; rfl)]

theorem exec_skein (hop : c.op = 2) (huse : Command.unusedZero c { p0 := if bit 15 c.p0 then 0x3F873F else 0x873F } = true) :
    exec (.skein c) s = .next ((begun s c).skeinOrder c.p0) := by
  have hexec : exec (.skein c) s = execSkein c s := rfl
  rw [hexec, execSkein, s.command_of_wellFormed c 2 _ _ hfetch hread hop huse]

theorem exec_fence (hop : c.op = 3) (huse : Command.unusedZero c { p0 := 0xFFFFFF } = true) :
    exec (.fence c) s = .next ((begun s c).fenceCmd c.p0) := by
  have hexec : exec (.fence c) s = execFence c s := rfl
  rw [hexec, execFence, s.command_of_wellFormed c 3 _ _ hfetch hread hop huse]

theorem exec_return (hop : c.op = 4) (huse : Command.unusedZero c { p0 := 0xFFFFFF } = true) :
    exec (.return c) s = .next ((begun s c).returnCmd c.p0) := by
  have hexec : exec (.return c) s = execReturn c s := rfl
  rw [hexec, execReturn, s.command_of_wellFormed c 4 _ _ hfetch hread hop huse]

theorem exec_reset (hop : c.op = 5) (huse : Command.unusedZero c { p0 := 0xF1 } = true) :
    exec (.reset c) s = .next ((begun s c).resetCmd c.p0) := by
  have hexec : exec (.reset c) s = execReset c s := rfl
  rw [hexec, execReset, s.command_of_wellFormed c 5 _ _ hfetch hread hop huse]

theorem exec_epoch (hop : c.op = 6) (huse : Command.unusedZero c { p0 := 0xFFFF } = true) :
    exec (.epoch c) s = .next ((begun s c).epochCmd (bits 0 16 c.p0)) := by
  have hexec : exec (.epoch c) s = execEpoch c s := rfl
  rw [hexec, execEpoch, s.command_of_wellFormed c 6 _ _ hfetch hread hop huse]

theorem exec_snapshot (hop : c.op = 7) (huse : Command.unusedZero c { p0 := 0xFFFF, p1 := true, args := 8 } = true) :
    exec (.snapshot c) s = .next ((begun s c).snapCmd (bits 0 16 c.p0) c.p1 c.args) := by
  have hexec : exec (.snapshot c) s = execSnapshot c s := rfl
  rw [hexec, execSnapshot, s.command_of_wellFormed c 7 _ _ hfetch hread hop huse]

end Commands

theorem cmdUnit_none {p0 : Nat} (h : 4 < bits 0 8 p0 ∨ unitIndex (bits 0 8 p0) (bits 8 16 p0) = none) : cmdUnit p0 = none := by
  unfold cmdUnit
  rcases h with h | h
  · exact if_neg (by omega)
  · rw [h, ite_self]

/-- Settles O50: each command is its operation on the state in which it has begun. -/
theorem commandsOfUnits : Obligations.CommandsOfUnits := by
  intro s u c hfetch hread hu
  subst hu
  have hbegun := s.executing_begun c
  refine ⟨fun image ok hop huse hlen => ⟨fun h => ?_, fun heff hnamed => ⟨fun hok => ?_, fun o v hok hall himage ho h4 => ?_⟩⟩,
    fun k op r hop huse hk hop' h1 h4 hr => ⟨fun h0 => ?_, fun h0 => ?_⟩, fun i huse hle hi => ⟨fun hop => ?_, fun hop hok => ?_, fun hop hok => ?_⟩,
    fun huse hnone => ⟨fun hop => ?_, fun hop => ?_⟩,
    fun n hop huse hn => ⟨fun hb hoff => ?_, fun hb hoff => ?_, fun hb h4 hawake hdies => ?_⟩,
    fun e at_ hop huse he hat => ⟨fun h => ?_, fun h => ?_⟩, fun hop huse hat => ?_⟩
  · rw [exec_draftLoad hfetch hread image ok hop huse hlen, State.draftLoad_held (s := begun s c) h]
  · rw [exec_draftLoad hfetch hread image ok hop huse hlen, hok, State.draftLoad_unread (s := begun s c) heff hnamed]
  · refine ⟨_, exec_draftLoad hfetch hread image ok hop huse hlen, ?_⟩
    rw [hok, himage]
    exact draftLoad_loaded hbegun heff hnamed hall ho h4
  · refine ⟨_, exec_skein hfetch hread hop huse, ?_⟩
    rw [State.skeinOrder_eq _ hk hop' h1 h4, ← hr, if_pos h0]
    exact skein_waits hbegun (hk ▸ bits_lt 0 6 c.p0) _
  · refine ⟨_, exec_skein hfetch hread hop huse, ?_⟩
    rw [State.skeinOrder_eq _ hk hop' h1 h4, ← hr, if_neg h0]
    exact skein_refused hbegun (hk ▸ bits_lt 0 6 c.p0) (hr ▸ State.cmdResult_lt _ _ _)
  · rw [exec_fence hfetch hread hop huse, State.fenceCmd, cmdUnit, if_pos hle, hi]
  · rw [exec_return hfetch hread hop huse, State.returnCmd, cmdUnit, if_pos hle, hi]
    exact congrArg Host.Outcome.next (if_pos hok)
  · rw [exec_return hfetch hread hop huse, State.returnCmd, cmdUnit, if_pos hle, hi]
    exact congrArg Host.Outcome.next (if_neg (by simp [hok]))
  · rw [exec_fence hfetch hread hop huse, State.fenceCmd, cmdUnit_none hnone]
  · rw [exec_return hfetch hread hop huse, State.returnCmd, cmdUnit_none hnone]
  · rw [exec_reset hfetch hread hop huse, State.resetCmd, ← hn]
    exact congrArg Host.Outcome.next ((if_neg (by simp [hb])).trans (if_pos hoff))
  · refine ⟨_, exec_reset hfetch hread hop huse, ?_⟩
    have heq : (begun s c).resetCmd c.p0 = ((begun s c).cmdWait (.reset false n)).resetRegionAt n 4 false := by
      rw [State.resetCmd, ← hn]
      exact (if_neg (by simp [hb])).trans (if_neg (Bool.eq_false_iff.1 hoff))
    rw [heq]
    exact resetRegion_waits hbegun n
  · refine ⟨_, exec_reset hfetch hread hop huse, ?_⟩
    have heq : (begun s c).resetCmd c.p0 = ((begun s c).cmdWait (.reset true n)).resetDie n 4 := by
      have hdie : ¬((!bit n (begun s c).rp.units.awake || ((begun s c).rp.units.dies.any fun x => x.1 == n)) = true) := by
        simpa [hawake] using ⟨hawake, fun a hm => hdies (n, a) hm rfl⟩
      rw [State.resetCmd, ← hn]
      exact (if_pos hb).trans ((if_neg (by omega)).trans (if_neg hdie))
    rw [heq]
    exact resetDie_waits hbegun (fun _ => rfl) n
  · rw [exec_epoch hfetch hread hop huse, State.epochCmd, ← he]
    exact congrArg Host.Outcome.next (if_neg (Bool.eq_false_iff.1 h))
  · refine ⟨_, exec_epoch hfetch hread hop huse, ?_⟩
    have heq : (begun s c).epochCmd (bits 0 16 c.p0) = ((begun s c).cmdWait (.epoch at_)).rpEpochIn e (s.frameAfter 10000 % 2 ^ 32) := by
      rw [State.epochCmd, ← he, hat]
      exact if_pos h
    rw [heq, hat]
    exact epoch_waits hbegun h
  · refine ⟨_, exec_snapshot hfetch hread hop huse, ?_⟩
    exact snapshot_ended hbegun _ (bits_lt 0 16 c.p0) hat

end Sys2Proof.Machine
end

section
/-! Accesses of a laser module (R294, R300): sent, ended, and sent again. -/

namespace Sys2Proof.Machine

open Sys2Proof Sys2Proof.Claims

/-! ### The accesses in progress -/

/-- The first access of a module in a list of accesses. -/
def firstReq (l : List (Nat × LasReq)) (m : Nat) : Option LasReq := (l.find? fun r => r.1 == m).map (·.2)

theorem firstReq_setFirst (l : List (Nat × LasReq)) (m : Nat) (q : LasReq) :
    firstReq (setFirst l m (some q)) m = (firstReq l m).map fun _ => q := by
  induction l with
  | nil => rfl
  | cons x l ih =>
    by_cases h : x.1 = m
    · simp [firstReq, setFirst, h]
    · simpa [firstReq, setFirst, h] using ih

theorem length_setFirst_some (l : List (Nat × LasReq)) (m : Nat) (q : LasReq) : (setFirst l m (some q)).length = l.length := by
  induction l with
  | nil => rfl
  | cons x l ih =>
    by_cases h : x.1 = m
    · simp [setFirst, h]
    · simp [setFirst, h, ih]

theorem length_setFirst_none {l : List (Nat × LasReq)} {m : Nat} {q : LasReq} (hq : firstReq l m = some q) :
    (setFirst l m none).length + 1 = l.length := by
  induction l with
  | nil => simp [firstReq] at hq
  | cons x l ih =>
    by_cases h : x.1 = m
    · simp [setFirst, h]
    · rw [firstReq, List.find?_cons_of_neg (by simpa using h)] at hq
      simp [setFirst, h, ih hq]

theorem State.lasFirst_eq (s : State) (m : Nat) : s.lasFirst m = firstReq s.rp.lasers.reqs m := rfl

/-- The frame that asks a module for an access. -/
def lasAsked (m : Nat) (q : LasReq) : Out := .las m (lasWire (lasFrame (if q.write then 0x02 else 0x01) q.addr q.seq q.data.toNat))

theorem State.lasSend_some {s : State} {m : Nat} {q : LasReq} (h : s.lasFirst m = some q) :
    s.lasSend m = { s with out := lasAsked m q :: s.out, rp := { s.rp with lasers := { s.rp.lasers with
      reqs := setFirst s.rp.lasers.reqs m (some { q with tries := q.tries + 1, sentAt := s.now }) } } } := by
  simp [State.lasSend, h, State.modLas, State.emit, lasAsked]

theorem State.lasFirst_lasSend {s : State} {m : Nat} {q : LasReq} (h : s.lasFirst m = some q) :
    (s.lasSend m).lasFirst m = some { q with tries := q.tries + 1, sentAt := s.now } := by
  rw [State.lasSend_some h, State.lasFirst_eq, firstReq_setFirst, ← State.lasFirst_eq, h]
  rfl

theorem State.lasSend_only (s : State) (m : Nat) : ∃ o l, s.lasSend m = { s with out := o, rp := { s.rp with lasers := l } }
    ∧ l.reqs.length = s.rp.lasers.reqs.length := by
  unfold State.lasSend
  split
  · exact ⟨s.out, s.rp.lasers, rfl, rfl⟩
  · exact ⟨_, _, rfl, length_setFirst_some _ _ _⟩

theorem State.regs_lasSend (s : State) (m : Nat) : (s.lasSend m).rp.regs = s.rp.regs := by
  obtain ⟨o, l, h, -⟩ := s.lasSend_only m
  rw [h]

theorem State.reg_modLas (s : State) (f : Lasers → Lasers) (a : Nat) : (s.modLas f).reg .ronpex a = s.reg .ronpex a := rfl

/-- The access that a module has ended leaves the list, and the next one goes out; no register changes. -/
theorem State.lasNext_ends {s : State} {m : Nat} {q : LasReq} (h : s.lasFirst m = some q) :
    (s.lasNext m).rp.regs = s.rp.regs ∧ (s.lasNext m).rp.lasers.reqs.length + 1 = s.rp.lasers.reqs.length := by
  obtain ⟨o, l, hl, hlen⟩ := State.lasSend_only (s.modLas fun l => { l with reqs := setFirst l.reqs m none }) m
  rw [State.lasNext, hl]
  exact ⟨rfl, (congrArg (· + 1) hlen).trans (length_setFirst_none h)⟩

/-! ### What an access leaves -/

/-- The accesses of the modules, and the registers of ACCESS and DATA and bit 0 of STAT of module `m`, are as before. -/
structure State.LasKept (m : Nat) (s t : State) : Prop where
  reqs : t.rp.lasers.reqs = s.rp.lasers.reqs
  access : t.reg .ronpex (Reg.lasAccess m) = s.reg .ronpex (Reg.lasAccess m)
  data : t.reg .ronpex (Reg.lasData m) = s.reg .ronpex (Reg.lasData m)
  stat : t.flag .ronpex (Reg.lasStat m) 0 = s.flag .ronpex (Reg.lasStat m) 0

theorem State.LasKept.refl (m : Nat) (s : State) : s.LasKept m s := ⟨rfl, rfl, rfl, rfl⟩

theorem State.LasKept.trans {m : Nat} {s t u : State} (h : s.LasKept m t) (k : t.LasKept m u) : s.LasKept m u :=
  ⟨k.reqs.trans h.reqs, k.access.trans h.access, k.data.trans h.data, k.stat.trans h.stat⟩

theorem State.LasKept.lasFirst {m : Nat} {s t : State} (h : s.LasKept m t) : t.lasFirst m = s.lasFirst m := by
  rw [State.lasFirst_eq, State.lasFirst_eq, h.reqs]

theorem State.lasKept_modLas (m : Nat) (s : State) (f : Lasers → Lasers) (hf : (f s.rp.lasers).reqs = s.rp.lasers.reqs) :
    s.LasKept m (s.modLas f) := ⟨hf, rfl, rfl, rfl⟩

/-- A write to a register other than ACCESS, DATA and STAT of the module. -/
theorem State.lasKept_setFld (m : Nat) (s : State) {a : Nat} (lo len v : Nat) (h1 : a ≠ Reg.lasAccess m) (h2 : a ≠ Reg.lasData m)
    (h3 : a ≠ Reg.lasStat m) : s.LasKept m (s.setFld .ronpex a lo len v) where
  reqs := rfl
  access := State.reg_setReg_other _ _ _ _ _ _ (.inr h1)
  data := State.reg_setReg_other _ _ _ _ _ _ (.inr h2)
  stat := State.flag_congr (State.reg_setReg_other _ _ _ _ _ _ (.inr h3)) 0

theorem State.lasKept_setStat (m : Nat) (s : State) {i : Nat} (b : Bool) (h0 : i ≠ 0) (h : i < 32) :
    s.LasKept m (s.setFlag .ronpex (Reg.lasStat m) i b) where
  reqs := rfl
  access := State.reg_setFlag_other _ _ _ _ _ _ _ (.inr (by simp only [Reg.lasStat, Reg.lasAccess]; omega))
  data := State.reg_setFlag_other _ _ _ _ _ _ _ (.inr (by simp only [Reg.lasStat, Reg.lasData]; omega))
  stat := State.flag_setFlag_other _ _ _ h h0.symm

theorem notMem_reportRegs_las {a : Nat} (h : 0x600000 ≤ a) (h' : a < 0x700000) : a ∉ reportRegs := by
  simp only [reportRegs, Reg.logLost, Reg.mgtEvtOvf, Reg.mgtMsixPba, List.mem_cons, List.not_mem_nil, or_false, not_or]
  omega

theorem State.lasKept_showBias (s : State) {m w : Nat} (hw : w < 10) : s.LasKept m (s.showBias m w) := by
  have hfld : ∀ (t : State) (lo len v : Nat), t.LasKept m (t.setFld .ronpex (Reg.lasBias m w) lo len v) := fun t lo len v =>
    t.lasKept_setFld m lo len v (by simp only [Reg.lasBias, Reg.lasAccess]; omega) (by simp only [Reg.lasBias, Reg.lasData]; omega)
      (by simp only [Reg.lasBias, Reg.lasStat]; omega)
  unfold State.showBias
  dsimp only
  split <;> split
  · exact .refl m s
  · exact hfld _ _ _ _
  · exact hfld _ _ _ _
  · exact (hfld _ _ _ _).trans (hfld _ _ _ _)

theorem State.lasError_only (s : State) (m b : Nat) :
    ∃ o n k x, s.lasError m b = { s with out := o, rp := { s.rp with mgmt := n, skeins := k, regs := x } } := by
  obtain ⟨o, n, k, x, h⟩ := State.postFor_only (s.setFlag .ronpex (Reg.lasErr m) b true)
    { time := s.now, code := 4, tenant := none, unitType := 9, unit := m, gen := 0, arg := m + 256 * 2 ^ b } 1
    ((s.setFlag .ronpex (Reg.lasErr m) b true).moduleSkeins m)
  obtain ⟨o', x', h'⟩ := State.errsumMsix_only ((s.setFlag .ronpex (Reg.lasErr m) b true).postFor
    { time := s.now, code := 4, tenant := none, unitType := 9, unit := m, gen := 0, arg := m + 256 * 2 ^ b } 1
    ((s.setFlag .ronpex (Reg.lasErr m) b true).moduleSkeins m)) s
  exact ⟨o', n, k, x', h'.trans (by rw [h]; rfl)⟩

/-- An error bit of a module is set; no other register changes but those that reports are counted in. -/
theorem State.reg_lasError (s : State) (m b : Nat) {a : Nat} (ha : a ∉ reportRegs) :
    (s.lasError m b).reg .ronpex a = (s.setFlag .ronpex (Reg.lasErr m) b true).reg .ronpex a :=
  State.reg_of_rpRegs (by unfold State.lasError; simp) ha

theorem State.lasKept_lasError (s : State) {m : Nat} (hm : m < 4) (b : Nat) : s.LasKept m (s.lasError m b) := by
  obtain ⟨o, n, k, x, h⟩ := s.lasError_only m b
  have hkept : s.LasKept m (s.setFlag .ronpex (Reg.lasErr m) b true) :=
    s.lasKept_setFld m b 1 _ (by simp only [Reg.lasErr, Reg.lasAccess]; omega) (by simp only [Reg.lasErr, Reg.lasData]; omega)
      (by simp only [Reg.lasErr, Reg.lasStat]; omega)
  refine ⟨by rw [h], (s.reg_lasError m b (notMem_reportRegs_las ?_ ?_)).trans hkept.access,
    (s.reg_lasError m b (notMem_reportRegs_las ?_ ?_)).trans hkept.data,
    (State.flag_congr (s.reg_lasError m b (notMem_reportRegs_las ?_ ?_)) 0).trans hkept.stat⟩
  all_goals
    simp only [Reg.lasAccess, Reg.lasData, Reg.lasStat]
    omega

theorem State.lasKept_ite {m : Nat} {s t u : State} {c : Prop} [Decidable c] (ht : s.LasKept m t) (hu : s.LasKept m u) :
    s.LasKept m (if c then t else u) := by
  split
  · exact ht
  · exact hu

/-- What the hub learns of a register of a module. -/
theorem State.lasKept_lasLearn (s : State) {m : Nat} (hm : m < 4) (addr v : Nat) : s.LasKept m (s.lasLearn m addr v) := by
  unfold State.lasLearn
  dsimp only
  split
  · have h1 := s.lasKept_setStat m (i := 1) (bit 0 v) (by omega) (by omega)
    have h2 := State.lasKept_ite (c := bits 1 3 v = 0) (h1.trans (State.lasKept_setStat m _ (i := 2) false (by omega) (by omega))) h1
    exact State.lasKept_ite (h2.trans (State.lasKept_lasError _ hm 3)) h2
  · split
    · have h1 := ((s.lasKept_modLas m (fun l => { l with emits := SMap.set l.emits (lasKey m (addr - 0x10)) v }) rfl).trans
        (State.lasKept_setStat m _ (i := addr - 0x10 + 3) (bit 0 v) (by omega) (by omega))).trans
        (State.lasKept_showBias _ (w := addr - 0x10) (by omega))
      exact State.lasKept_ite (h1.trans (State.lasKept_lasError _ hm 1)) h1
    · split
      · exact (s.lasKept_modLas m _ rfl).trans (State.lasKept_showBias _ (by omega))
      · split
        · exact (s.lasKept_modLas m _ rfl).trans (State.lasKept_showBias _ (by omega))
        · exact .refl m s

/-! ### The end of an access -/

/-- ACCESS of a module shows that the hub's access has ended. -/
def State.accessEnded (s : State) (m : Nat) (failed : Bool) : State :=
  (s.setFlag .ronpex (Reg.lasAccess m) 10 false).setFlag .ronpex (Reg.lasAccess m) 11 failed

theorem State.flag_accessEnded (s : State) (m : Nat) (failed : Bool) :
    (s.accessEnded m failed).flag .ronpex (Reg.lasAccess m) 10 = false
      ∧ (s.accessEnded m failed).flag .ronpex (Reg.lasAccess m) 11 = failed := by
  unfold State.accessEnded
  refine ⟨?_, State.flag_setFlag_same _ _ _ (by omega)⟩
  rw [State.flag_setFlag_other _ _ _ (by omega) (by omega), State.flag_setFlag_same _ _ _ (by omega)]

theorem State.reg_accessEnded (s : State) (m : Nat) (failed : Bool) {a : Nat} (ha : a ≠ Reg.lasAccess m) :
    (s.accessEnded m failed).reg .ronpex a = s.reg .ronpex a := by
  unfold State.accessEnded
  rw [State.reg_setFlag_other _ _ _ _ _ _ _ (.inr ha.symm), State.reg_setFlag_other _ _ _ _ _ _ _ (.inr ha.symm)]

/-- The module answers: what the hub shows of the answer before it learns from it. -/
def State.lasShown (s : State) (m : Nat) (r : LasReply) : State :=
  let u := (s.setFlag .ronpex (Reg.lasStat m) 0 true).accessEnded m (r.op == 0xE0)
  if r.op = 0xE0 then u else u.setReg .ronpex (Reg.lasData m) r.data.toNat

/-- What the hub learns from the end of a read. -/
def State.lasRead (s : State) (m : Nat) (q : LasReq) (r : LasReply) : State :=
  let u := s.lasShown m r
  let v := if r.op = 0xE0 then u else u.lasLearn m q.addr r.data.toNat
  if q.addr = 3 then v.modLas fun l => { l with alert := l.alert.filter fun x => x != m } else v

theorem State.lasDone_read {s : State} {q : LasReq} (hw : q.write = false) (hu : q.user = true) (m : Nat) (r : LasReply) :
    s.lasDone m q r = (s.lasRead m q r).lasNext m := by
  by_cases h : r.op = 0xE0
  · simp [State.lasDone, State.lasRead, State.lasShown, State.accessEnded, hw, hu, h]
  · simp [State.lasDone, State.lasRead, State.lasShown, State.accessEnded, hw, hu, h]

theorem State.lasKept_lasRead (s : State) {m : Nat} (hm : m < 4) (q : LasReq) (r : LasReply) :
    (s.lasShown m r).LasKept m (s.lasRead m q r) := by
  have hlearn := State.lasKept_ite (c := r.op = 0xE0) (.refl m (s.lasShown m r))
    (State.lasKept_lasLearn (s.lasShown m r) hm q.addr r.data.toNat)
  exact State.lasKept_ite (hlearn.trans (State.lasKept_modLas m _ _ rfl)) hlearn

theorem State.reqs_lasShown (s : State) (m : Nat) (r : LasReply) : (s.lasShown m r).rp.lasers.reqs = s.rp.lasers.reqs := by
  unfold State.lasShown
  dsimp only
  split <;> rfl

theorem State.flag_lasShown (s : State) (m : Nat) (r : LasReply) :
    (s.lasShown m r).flag .ronpex (Reg.lasAccess m) 10 = false
      ∧ (s.lasShown m r).flag .ronpex (Reg.lasAccess m) 11 = (r.op == 0xE0) ∧ (s.lasShown m r).flag .ronpex (Reg.lasStat m) 0 = true := by
  obtain ⟨h10, h11⟩ := (s.setFlag .ronpex (Reg.lasStat m) 0 true).flag_accessEnded m (r.op == 0xE0)
  have hstat : ((s.setFlag .ronpex (Reg.lasStat m) 0 true).accessEnded m (r.op == 0xE0)).flag .ronpex (Reg.lasStat m) 0 = true := by
    rw [State.flag_congr (State.reg_accessEnded _ m _ (by simp only [Reg.lasStat, Reg.lasAccess]; omega)),
      State.flag_setFlag_same _ _ _ (by omega)]
  unfold State.lasShown
  dsimp only
  split
  · exact ⟨h10, h11, hstat⟩
  · refine ⟨?_, ?_, ?_⟩
    · rwa [State.flag_congr (State.reg_setReg_other _ _ _ _ _ _ (.inr (by simp only [Reg.lasData, Reg.lasAccess]; omega)))]
    · rwa [State.flag_congr (State.reg_setReg_other _ _ _ _ _ _ (.inr (by simp only [Reg.lasData, Reg.lasAccess]; omega)))]
    · rwa [State.flag_congr (State.reg_setReg_other _ _ _ _ _ _ (.inr (by simp only [Reg.lasData, Reg.lasStat]; omega)))]

theorem State.reg_lasShown_data (s : State) (m : Nat) (r : LasReply) : (s.lasShown m r).reg .ronpex (Reg.lasData m)
    = if r.op = 0xE0 then s.reg .ronpex (Reg.lasData m) else r.data.toNat := by
  unfold State.lasShown
  dsimp only
  split
  · rw [State.reg_accessEnded _ m _ (by simp only [Reg.lasData, Reg.lasAccess]; omega),
      State.reg_setFlag_other _ _ _ _ _ _ _ (.inr (by simp only [Reg.lasStat, Reg.lasData]; omega))]
  · exact (State.reg_setReg_same _ _ _ _).trans (Nat.mod_eq_of_lt r.data.isLt)

/-- The end of a read that the hub made for a write of ACCESS. -/
theorem State.lasDone_effect {s : State} {q : LasReq} {m : Nat} (hm : m < 4) (hq : s.lasFirst m = some q) (hw : q.write = false)
    (hu : q.user = true) (r : LasReply) :
    let t := s.lasDone m q r
    t.flag .ronpex (Reg.lasAccess m) 10 = false ∧ t.flag .ronpex (Reg.lasAccess m) 11 = (r.op == 0xE0)
      ∧ t.reg .ronpex (Reg.lasData m) = (if r.op = 0xE0 then s.reg .ronpex (Reg.lasData m) else r.data.toNat)
      ∧ t.flag .ronpex (Reg.lasStat m) 0 = true ∧ t.rp.lasers.reqs.length + 1 = s.rp.lasers.reqs.length := by
  dsimp only
  have hkept := s.lasKept_lasRead hm q r
  have hreqs : (s.lasRead m q r).rp.lasers.reqs = s.rp.lasers.reqs := hkept.reqs.trans (s.reqs_lasShown m r)
  obtain ⟨hregs, hlen⟩ := State.lasNext_ends (s := s.lasRead m q r) (q := q) (by rw [State.lasFirst_eq, hreqs]; exact hq)
  obtain ⟨h10, h11, hstat⟩ := s.flag_lasShown m r
  rw [State.lasDone_read hw hu]
  refine ⟨?_, ?_, ?_, ?_, hlen.trans (by rw [hreqs])⟩
  · rw [State.flag_congr (State.reg_of_regs hregs _), State.flag_congr hkept.access, h10]
  · rw [State.flag_congr (State.reg_of_regs hregs _), State.flag_congr hkept.access, h11]
  · rw [State.reg_of_regs hregs, hkept.data, State.reg_lasShown_data]
  · rw [State.flag_congr (State.reg_of_regs hregs _), hkept.stat, hstat]

theorem State.lasReplyIn_done {s : State} {m : Nat} {q : LasReq} {r : LasReply} (hq : s.lasFirst m = some q) (hgood : lasGood r = true)
    (hseq : r.seq = q.seq) (hop : r.op = 0xE0 ∨ r.op = 0x81 ∧ q.write = false) : s.lasReplyIn m r = s.lasDone m q r := by
  have hcond : r.seq = q.seq ∧ (r.op = 0xE0 ∨ r.op = if q.write then 0x82 else 0x81) :=
    ⟨hseq, hop.imp_right fun ⟨h, hw⟩ => by rw [h, hw]; rfl⟩
  unfold State.lasReplyIn
  rw [hq]
  exact (if_neg (by simp [hgood])).trans (if_pos hcond)

/-- A module that has been silent three times: LINK. -/
def State.lasLost (s : State) (m : Nat) : State := ((s.lasError m 0).setFlag .ronpex (Reg.lasStat m) 0 false).accessEnded m true

theorem State.lasRetry_lost {s : State} {q : LasReq} (ht : 4 ≤ q.tries) (hu : q.user = true) (m : Nat) :
    s.lasRetry m q = (s.lasLost m).lasNext m := by
  simp [State.lasRetry, Nat.not_lt.2 ht, hu, State.lasLost, State.accessEnded]

theorem State.lasLost_effect (s : State) (m : Nat) :
    (s.lasLost m).flag .ronpex (Reg.lasErr m) 0 = true ∧ (s.lasLost m).flag .ronpex (Reg.lasStat m) 0 = false
      ∧ (s.lasLost m).rp.lasers.reqs = s.rp.lasers.reqs := by
  obtain ⟨o, n, k, x, h⟩ := s.lasError_only m 0
  refine ⟨?_, ?_, by show (s.lasError m 0).rp.lasers.reqs = _; rw [h]⟩
  · rw [State.lasLost, State.flag_congr (State.reg_accessEnded _ m _ (by simp only [Reg.lasErr, Reg.lasAccess]; omega)),
      State.flag_congr (State.reg_setFlag_other _ _ _ _ _ _ _ (.inr (by simp only [Reg.lasErr, Reg.lasStat]; omega))),
      State.flag_congr (s.reg_lasError m 0 (by
        simp only [reportRegs, Reg.logLost, Reg.mgtEvtOvf, Reg.mgtMsixPba, Reg.lasErr, List.mem_cons, List.not_mem_nil, or_false, not_or]
        omega)),
      State.flag_setFlag_same _ _ _ (by omega)]
  · rw [State.lasLost, State.flag_congr (State.reg_accessEnded _ m _ (by simp only [Reg.lasStat, Reg.lasAccess]; omega)),
      State.flag_setFlag_same _ _ _ (by omega)]

theorem lasRetry_ended {s : State} {q : LasReq} {m : Nat} (hq : s.lasFirst m = some q) (ht : 4 ≤ q.tries) (hu : q.user = true) :
    let t := s.lasRetry m q
    t.flag .ronpex (Reg.lasErr m) 0 = true ∧ t.flag .ronpex (Reg.lasStat m) 0 = false ∧ t.flag .ronpex (Reg.lasAccess m) 10 = false
      ∧ t.flag .ronpex (Reg.lasAccess m) 11 = true ∧ t.rp.lasers.reqs.length + 1 = s.rp.lasers.reqs.length := by
  obtain ⟨herr, hstat, hreqs⟩ := s.lasLost_effect m
  obtain ⟨h10, h11⟩ := ((s.lasError m 0).setFlag .ronpex (Reg.lasStat m) 0 false).flag_accessEnded m true
  obtain ⟨hregs, hlen⟩ := State.lasNext_ends (s := s.lasLost m) (q := q) (by rw [State.lasFirst_eq, hreqs]; exact hq)
  dsimp only
  rw [State.lasRetry_lost ht hu]
  refine ⟨?_, ?_, ?_, ?_, hlen.trans (by rw [hreqs])⟩
  · rw [State.flag_congr (State.reg_of_regs hregs _), herr]
  · rw [State.flag_congr (State.reg_of_regs hregs _), hstat]
  · rw [State.flag_congr (State.reg_of_regs hregs _)]; exact h10
  · rw [State.flag_congr (State.reg_of_regs hregs _)]; exact h11

theorem State.lasRetry_again {s : State} {q : LasReq} (ht : q.tries < 4) (m : Nat) : s.lasRetry m q = s.lasSend m := by
  simp [State.lasRetry, ht]

/-! ### A write of ACCESS -/

/-- The access that a write of ACCESS asks for. -/
def State.lasNew (s : State) (m v : Nat) : LasReq :=
  { write := bit 8 v, addr := v % 256, data := BitVec.ofNat 32 (s.reg .ronpex (Reg.lasData m))
    seq := SMap.look (fun _ => 0) s.rp.lasers.seq m, sentAt := s.now, tries := 0, user := true }

/-- ACCESS of a module while the hub's access is in progress. -/
def State.accessBegun (s : State) (m v : Nat) : State :=
  ((s.setFld .ronpex (Reg.lasAccess m) 0 9 v).setFlag .ronpex (Reg.lasAccess m) 10 true).setFlag .ronpex (Reg.lasAccess m) 11 false

theorem State.lasers_setFld (s : State) (a lo len v : Nat) : (s.setFld .ronpex a lo len v).rp.lasers = s.rp.lasers := rfl

theorem State.lasers_accessBegun (s : State) (m v : Nat) : (s.accessBegun m v).rp.lasers = s.rp.lasers := by
  rw [State.accessBegun, State.setFlag, State.lasers_setFld, State.setFlag, State.lasers_setFld, State.lasers_setFld]

theorem State.now_setFld (s : State) (p : Part) (a lo len v : Nat) : (s.setFld p a lo len v).now = s.now := by cases p <;> rfl

theorem State.now_accessBegun (s : State) (m v : Nat) : (s.accessBegun m v).now = s.now := by
  rw [State.accessBegun, State.setFlag, State.now_setFld, State.setFlag, State.now_setFld, State.now_setFld]

theorem State.lasAsk_first {s : State} {m : Nat} (h : s.lasFirst m = none) (write : Bool) (addr data : Nat) (user : Bool) :
    s.lasAsk m write addr data user = (s.modLas fun l => { l with
      reqs := l.reqs ++ [(m, { write := write, addr := addr, data := BitVec.ofNat 32 data
                               seq := SMap.look (fun _ => 0) s.rp.lasers.seq m, sentAt := s.now, tries := 0, user := user })]
      seq := SMap.put (fun _ => 0) l.seq m ((SMap.look (fun _ => 0) s.rp.lasers.seq m + 1) % 256) }).lasSend m := by
  unfold State.lasAsk
  dsimp only
  exact if_pos (by rw [h]; rfl)

/-- The state in which the access is the next one of its module to go out. -/
def State.lasAsking (s : State) (m v : Nat) : State :=
  (s.accessBegun m v).modLas fun l => { l with
    reqs := l.reqs ++ [(m, s.lasNew m v)], seq := SMap.put (fun _ => 0) l.seq m (((s.lasNew m v).seq + 1) % 256) }

theorem State.lasAccess_go {s : State} {m v : Nat} (hgo : bit 9 v = true) (hbusy : s.flag .ronpex (Reg.lasAccess m) 10 = false)
    (hnone : s.lasFirst m = none) : s.lasAccess m v = (s.lasAsking m v).lasSend m := by
  have hfirst : (s.accessBegun m v).lasFirst m = none := by rw [State.lasFirst_eq, State.lasers_accessBegun, ← State.lasFirst_eq, hnone]
  have heq : s.lasAccess m v = (s.accessBegun m v).lasAsk m (bit 8 v) (v % 256) (s.reg .ronpex (Reg.lasData m)) true := by
    unfold State.lasAccess State.accessBegun
    dsimp only
    exact if_pos ⟨hgo, by simp [hbusy]⟩
  rw [heq, State.lasAsk_first hfirst, State.lasAsking, State.lasNew, State.lasers_accessBegun, State.now_accessBegun]

theorem State.lasFirst_lasAsking {s : State} {m : Nat} (hnone : s.lasFirst m = none) (v : Nat) :
    (s.lasAsking m v).lasFirst m = some (s.lasNew m v) := by
  have hfind : (s.rp.lasers.reqs.find? fun r => r.1 == m) = none := Option.map_eq_none_iff.1 hnone
  have hreqs : (s.lasAsking m v).rp.lasers.reqs = s.rp.lasers.reqs ++ [(m, s.lasNew m v)] := by
    rw [State.lasAsking, State.modLas, s.lasers_accessBegun]
  rw [State.lasFirst_eq, hreqs, firstReq, List.find?_append, hfind]
  simp

theorem State.accessBegun_fields (s : State) (m v : Nat) :
    (s.accessBegun m v).flag .ronpex (Reg.lasAccess m) 10 = true ∧ (s.accessBegun m v).flag .ronpex (Reg.lasAccess m) 11 = false
      ∧ (s.accessBegun m v).fld .ronpex (Reg.lasAccess m) 0 9 = bits 0 9 v := by
  unfold State.accessBegun
  refine ⟨?_, State.flag_setFlag_same _ _ _ (by omega), ?_⟩
  · rw [State.flag_setFlag_other _ _ _ (by omega) (by omega), State.flag_setFlag_same _ _ _ (by omega)]
  · rw [State.fld_setFlag_outside _ _ _ (by omega) (by omega), State.fld_setFlag_outside _ _ _ (by omega) (by omega),
      State.fld_setFld_same _ _ _ _ _ _ (by omega)]
    simp [bits]

/-- Settles O37: an access is one request in the list of accesses, sent, sent again and taken from the list with its end shown. -/
theorem laserAccess : Obligations.LaserAccess := by
  intro s m
  refine ⟨fun v wr ht hgo hbusy hnone => ?_, fun q hq => ⟨fun r hbad htries => ?_, fun r hgood hseq hw hu => ⟨fun hop => ?_, fun hop => ?_⟩,
    fun hearly => ?_, fun hdue htries => ?_, fun hdue htries hu => ?_⟩⟩
  · have hlog := s.logged_logWrite (Reg.lasAccess m) v.toNat wr
    refine ⟨s.wrote .ronpex (Reg.lasAccess m) v.toNat wr fun t => t.lasAccess m v.toNat, rfl, ?_⟩
    rw [State.wrote_ronpex ht]
    have honly : onlyRonpex s ((s.logWrite .ronpex (Reg.lasAccess m) v.toNat wr).lasAccess m v.toNat) := onlyRonpex_of (by simp) (by simp)
    have hlinks : ((s.logWrite .ronpex (Reg.lasAccess m) v.toNat wr).lasAccess m v.toNat).rp.links = s.rp.links := by simp
    generalize s.logWrite .ronpex (Reg.lasAccess m) v.toNat wr = u at *
    have hreg : ∀ a, 0x600000 ≤ a → a < 0x700000 → u.reg .ronpex a = s.reg .ronpex a := fun a ha ha' =>
      hlog.reg fun h => notMem_reportRegs_las ha ha' (by simp [h, reportRegs])
    have hlas : u.rp.lasers = s.rp.lasers := by rw [hlog.frame]
    have hunone : u.lasFirst m = none := by rw [State.lasFirst_eq, hlas]; exact hnone
    have hubusy : u.flag .ronpex (Reg.lasAccess m) 10 = false := by
      rw [State.flag_congr (hreg _ (by simp only [Reg.lasAccess]; omega) (by simp only [Reg.lasAccess]; omega)), hbusy]
    have hudata : u.reg .ronpex (Reg.lasData m) = s.reg .ronpex (Reg.lasData m) :=
      hreg _ (by simp only [Reg.lasData]; omega) (by simp only [Reg.lasData]; omega)
    obtain ⟨h10, h11, hfld⟩ := u.accessBegun_fields m v.toNat
    rw [State.lasAccess_go hgo hubusy hunone] at honly hlinks ⊢
    rw [State.lasSend_some (State.lasFirst_lasAsking hunone v.toNat)] at honly hlinks ⊢
    have hregs := fun a => State.reg_of_regs ((u.lasAsking m v.toNat).regs_lasSend m) a
    rw [State.lasSend_some (State.lasFirst_lasAsking hunone v.toNat)] at hregs
    have hshown := (hregs (Reg.lasAccess m)).trans (State.reg_modLas _ _ _)
    refine ⟨(State.flag_congr hshown _).trans h10, (State.flag_congr hshown _).trans h11, (State.fld_congr hshown _ _).trans hfld, ?_, ?_,
      hlinks, honly⟩
    · rw [List.head?_cons, lasAsked, State.lasNew, hudata, hlas]
    · rw [State.lasAsking, State.modLas, State.lasers_accessBegun]
      exact (SMap.look_put_same _ _ _ _).trans (by rw [State.lasNew, hlas])
  · have heq : s.lasReplyIn m r = s.lasSend m := by
      rw [State.lasReplyIn, hq]
      exact (if_pos (by simp [hbad])).trans (State.lasRetry_again htries m)
    refine ⟨s.lasReplyIn m r, rfl, ?_⟩
    rw [heq, State.lasSend_some hq]
    exact ⟨rfl, ⟨rfl, rfl, rfl, rfl⟩, rfl⟩
  · have honly : onlyRonpex s (s.lasReplyIn m r) := onlyRonpex_of (by simp) (by simp)
    refine ⟨s.lasReplyIn m r, rfl, ?_⟩
    rw [State.lasReplyIn_done hq hgood hseq (.inr ⟨hop, hw⟩)] at honly ⊢
    obtain ⟨h10, h11, hdata, hstat, hlen⟩ := State.lasDone_effect m.isLt hq hw hu r
    have hne : r.op ≠ 0xE0 := by omega
    exact ⟨h10, h11.trans (by simp [hne]), hdata.trans (if_neg hne), hstat, hlen, honly⟩
  · have honly : onlyRonpex s (s.lasReplyIn m r) := onlyRonpex_of (by simp) (by simp)
    refine ⟨s.lasReplyIn m r, rfl, ?_⟩
    rw [State.lasReplyIn_done hq hgood hseq (.inl hop)] at honly ⊢
    obtain ⟨h10, h11, hdata, -, hlen⟩ := State.lasDone_effect m.isLt hq hw hu r
    exact ⟨h10, h11.trans (by simp [hop]), hdata.trans (if_pos hop), hlen, honly⟩
  · have heq : s.lasSilent m = s := by
      rw [State.lasSilent, hq]
      exact if_neg (Nat.not_le.2 hearly)
    exact congrArg Host.Outcome.next heq
  · have heq : s.lasSilent m = s.lasSend m := by
      rw [State.lasSilent, hq]
      exact (if_pos hdue).trans (State.lasRetry_again htries m)
    refine ⟨s.lasSilent m, rfl, ?_⟩
    rw [heq, State.lasFirst_lasSend hq, State.lasSend_some hq]
    exact ⟨rfl, rfl, rfl, ⟨rfl, rfl, rfl, rfl⟩⟩
  · have honly : onlyRonpex s (s.lasSilent m) := onlyRonpex_of (by simp) (by simp)
    have heq : s.lasSilent m = s.lasRetry m q := by
      rw [State.lasSilent, hq]
      exact if_pos hdue
    refine ⟨s.lasSilent m, rfl, ?_⟩
    rw [heq] at honly ⊢
    obtain ⟨herr, hstat, h10, h11, hlen⟩ := lasRetry_ended hq htries hu
    exact ⟨herr, hstat, h10, h11, hlen, honly⟩

end Sys2Proof.Machine
end

section
/-! What leaves the links of the Plocen, and the ports that were released to it, as they are. One lemma for each operation, in the order and\nunder the names of the model's files. -/

namespace Sys2Proof.Machine

open Sys2Proof Sys2Proof.Claims

/-- The links of the Plocen, and the ports that were released to it. -/
def State.epPorts (s : State) : SMap Link × List (Nat × Nat) := (s.ep.links, s.ep.released)

@[simp] theorem State.epPorts_eq (s : State) : (s.ep.links, s.ep.released) = s.epPorts := by rw [State.epPorts]

@[simp] theorem State.epPorts_mk (n f : Nat) (l : List Instr) (o : List Out) (m : SMap Byte) (r : Ronpex) (e : Plocen) :
    State.epPorts { now := n, free := f, pending := l, out := o, hbm := m, rp := r, ep := e } = (e.links, e.released) := by rw [State.epPorts]

@[simp] theorem Plocen.setReg_links (r : Plocen) (a v : Nat) : (r.setReg a v).links = r.links := by rw [Plocen.setReg]

@[simp] theorem Plocen.setReg_released (r : Plocen) (a v : Nat) : (r.setReg a v).released = r.released := by rw [Plocen.setReg]

@[simp] theorem State.epPorts_ite (c : Prop) [Decidable c] (a b : State) :
    (if c then a else b).epPorts = if c then a.epPorts else b.epPorts := by
  split <;> rfl

@[simp] theorem State.epPorts_foldl {α : Type} (g : State → α → State) (h : ∀ t x, (g t x).epPorts = t.epPorts) (l : List α) (s : State) :
    (l.foldl g s).epPorts = s.epPorts := by
  induction l generalizing s with
  | nil => rfl
  | cons x r ih => rw [List.foldl_cons, ih, h]

theorem State.epPorts_getD (o : Option State) (s : State) (h : ∀ t, o = some t → t.epPorts = s.epPorts) : (o.getD s).epPorts = s.epPorts := by
  cases o with
  | none => rfl
  | some t => exact h t rfl

/-! ### Machine/Ops -/

@[simp] theorem State.epPorts_setReg (s : State) (a v : Nat) :
    (s.setReg .plocen a v).epPorts = s.epPorts := by
  unfold State.setReg
  simp

@[simp] theorem State.epPorts_setFld (s : State) (a lo len v : Nat) :
    (s.setFld .plocen a lo len v).epPorts = s.epPorts := by
  unfold State.setFld
  simp

@[simp] theorem State.epPorts_satFld (s : State) (a lo len n : Nat) :
    (s.satFld .plocen a lo len n).epPorts = s.epPorts := by
  unfold State.satFld
  simp

@[simp] theorem State.epPorts_setFlag (s : State) (a i : Nat) (b : Bool) :
    (s.setFlag .plocen a i b).epPorts = s.epPorts := by
  unfold State.setFlag
  simp

@[simp] theorem State.epPorts_setSec (s : State) (x : Security) :
    (s.setSec .plocen x).epPorts = s.epPorts := by
  unfold State.setSec
  simp

@[simp] theorem State.epPorts_setOrders (s : State) (o : Orders) :
    (s.setOrders .plocen o).epPorts = s.epPorts := by
  unfold State.setOrders
  simp

@[simp] theorem State.epPorts_setSource (s : State) (x : Source) :
    (s.setSource .plocen x).epPorts = s.epPorts := by
  unfold State.setSource
  simp

@[simp] theorem State.epPorts_emit (s : State) (o : Out) :
    (s.emit o).epPorts = s.epPorts := by
  unfold State.emit
  simp

/-! ### Machine/Send -/

@[simp] theorem State.epPorts_hold (s : State) (dest skein plane planes : Nat) (loc : HeldAt) (m : Msg) (own : Owner) :
    (s.hold .plocen dest skein plane planes loc m own).1.epPorts = s.epPorts := by
  unfold State.hold
  simp

@[simp] theorem State.epPorts_epMgmt (s : State) (plane : Nat) (m : Mgmt) :
    (s.epMgmt plane m).epPorts = s.epPorts := by
  unfold State.epMgmt
  simp

@[simp] theorem State.epPorts_epMgmtLowest (s : State) (m : Mgmt) :
    (s.epMgmtLowest m).epPorts = s.epPorts := by
  unfold State.epMgmtLowest
  split <;> simp

@[simp] theorem State.epPorts_epLog (s : State) (b : LogBody) :
    (s.epLog b).epPorts = s.epPorts := by
  unfold State.epLog
  simp

@[simp] theorem State.epPorts_plog (s : State) (b : LogBody) :
    (s.plog .plocen b).epPorts = s.epPorts := by
  unfold State.plog
  simp

@[simp] theorem State.epPorts_logWrite (s : State) (a v : Nat) (w : Writer) :
    (s.logWrite .plocen a v w).epPorts = s.epPorts := by
  unfold State.logWrite
  simp

@[simp] theorem State.epPorts_wrote (s : State) (a v : Nat) (w : Writer) (f : State → State) (h : ∀ t, (f t).epPorts = t.epPorts) :
    (s.wrote .plocen a v w f).epPorts = s.epPorts := by
  unfold State.wrote
  simp [h]

/-! ### Machine/Flags -/

@[simp] theorem State.epPorts_modAtt (s : State) (f : Attach → Attach) :
    (s.modAtt f).epPorts = s.epPorts := by
  unfold State.modAtt
  simp

@[simp] theorem State.epPorts_sendFlit (s : State) (kind seq : Nat) (body : List (BitVec 128)) :
    (s.sendFlit kind seq body).epPorts = s.epPorts := by
  unfold State.sendFlit
  simp

@[simp] theorem State.epPorts_sendChunks (n : Nat) (x : List (BitVec 128)) (s : State) :
    (s.sendChunks n x).epPorts = s.epPorts := by
  induction n generalizing x s with
  | zero => rfl
  | succ n ih =>
    unfold State.sendChunks
    repeat' (first | split | dsimp only)
    all_goals simp [ih]

@[simp] theorem State.epPorts_sendTxn (s : State) (t : Txn) :
    (s.sendTxn t).epPorts = s.epPorts := by
  unfold State.sendTxn
  simp

@[simp] theorem State.epPorts_pumpCpl (n : Nat) (s : State) :
    (s.pumpCpl n).epPorts = s.epPorts := by
  induction n generalizing s with
  | zero => rfl
  | succ n ih =>
    unfold State.pumpCpl
    repeat' (first | split | dsimp only)
    all_goals simp [ih]

@[simp] theorem State.epPorts_complete (s : State) (rid tag addr status len : Nat) (data : List Byte) :
    (s.complete rid tag addr status len data).epPorts = s.epPorts := by
  unfold State.complete
  simp

@[simp] theorem State.epPorts_pump (n : Nat) (s : State) :
    (s.pump n).epPorts = s.epPorts := by
  induction n generalizing s with
  | zero => rfl
  | succ n ih =>
    unfold State.pump
    repeat' (first | split | dsimp only)
    all_goals simp [ih]

@[simp] theorem State.epPorts_request (s : State) (l : List AttReq) :
    (s.request l).epPorts = s.epPorts := by
  unfold State.request
  simp

@[simp] theorem State.epPorts_modDest (s : State) (f : Dest → Dest) :
    (s.modDest f).epPorts = s.epPorts := by
  unfold State.modDest
  simp

@[simp] theorem State.epPorts_landWrites (s : State) (l : List AttReq) :
    (s.landWrites l).epPorts = s.epPorts := by
  unfold State.landWrites
  simp

@[simp] theorem State.epPorts_releaseLands (s : State) :
    s.releaseLands.epPorts = s.epPorts := by
  unfold State.releaseLands
  simp

@[simp] theorem State.epPorts_epErr (s : State) (b : Nat) :
    (s.epErr b).epPorts = s.epPorts := by
  unfold State.epErr
  simp

/-! ### Machine/OrderOps -/

@[simp] theorem State.epPorts_trayOut (s : State) (port : Nat) (f : TrayFrame) :
    (s.trayOut port f).epPorts = s.epPorts := by
  unfold State.trayOut
  simp

/-! ### Machine/CmdOps -/

@[simp] theorem State.epPorts_cmdNext (s : State) :
    s.cmdNext.epPorts = s.epPorts := by
  unfold State.cmdNext
  simp

@[simp] theorem State.epPorts_sendReport (s : State) (r : Report) :
    (s.sendReport r).epPorts = s.epPorts := by
  unfold State.sendReport
  simp

@[simp] theorem State.epPorts_report (s : State) (type target plane : Nat) :
    (s.report type target plane).epPorts = s.epPorts := by
  unfold State.report
  dsimp only
  split <;> simp

/-! ### Machine/RingOps -/

@[simp] theorem State.epPorts_modRing (s : State) (n : Nat) (f : Ring → Ring) :
    (s.modRing n f).epPorts = s.epPorts := by
  unfold State.modRing
  simp

@[simp] theorem State.epPorts_ringError (s : State) (n code : Nat) :
    (s.ringError n code).epPorts = s.epPorts := by
  unfold State.ringError
  simp

@[simp] theorem State.epPorts_fetchFrom (n : Nat) (s : State) (x : Nat) :
    (s.fetchFrom n x).epPorts = s.epPorts := by
  induction n generalizing s x with
  | zero => rfl
  | succ n ih =>
    unfold State.fetchFrom
    repeat' (first | split | dsimp only)
    all_goals simp [ih]

@[simp] theorem State.epPorts_fetchRing (s : State) (n : Nat) :
    (s.fetchRing n).epPorts = s.epPorts := by
  unfold State.fetchRing
  simp

@[simp] theorem State.epPorts_ringIntr (s : State) (n : Nat) :
    (s.ringIntr n).epPorts = s.epPorts := by
  unfold State.ringIntr
  dsimp only
  split <;> simp

@[simp] theorem State.epPorts_postCompletion (s : State) (n sub code info cookie : Nat) :
    (s.postCompletion n sub code info cookie).epPorts = s.epPorts := by
  unfold State.postCompletion
  simp

@[simp] theorem State.epPorts_completionDone (s : State) (n at_ : Nat) (ok : Bool) :
    (s.completionDone n at_ ok).epPorts = s.epPorts := by
  unfold State.completionDone
  simp

@[simp] theorem State.epPorts_modAct (s : State) (n sub : Nat) (f : Act → Act) :
    (s.modAct n sub f).epPorts = s.epPorts := by
  unfold State.modAct
  simp

@[simp] theorem State.epPorts_dropFront (s : State) (n : Nat) :
    (s.dropFront n).epPorts = s.epPorts := by
  unfold State.dropFront
  simp

@[simp] theorem State.epPorts_settleFront (n : Nat) (s : State) (x : Nat) :
    (s.settleFront n x).epPorts = s.epPorts := by
  induction n generalizing s x with
  | zero => rfl
  | succ n ih =>
    unfold State.settleFront
    repeat' (first | split | dsimp only)
    all_goals simp [ih]

@[simp] theorem State.epPorts_settleRing (s : State) (n : Nat) :
    (s.settleRing n).epPorts = s.epPorts := by
  unfold State.settleRing
  simp

@[simp] theorem State.epPorts_takeArrived (n : Nat) (s : State) (x : Nat) :
    (s.takeArrived n x).epPorts = s.epPorts := by
  induction n generalizing s x with
  | zero => rfl
  | succ n ih =>
    unfold State.takeArrived
    repeat' (first | split | dsimp only)
    all_goals simp [ih]

@[simp] theorem State.epPorts_ringFetched (s : State) (n first m : Nat) (data : List Byte) (ok : Bool) :
    (s.ringFetched n first m data ok).epPorts = s.epPorts := by
  unfold State.ringFetched
  simp

@[simp] theorem State.epPorts_failAct (s : State) (n sub code info : Nat) :
    (s.failAct n sub code info).epPorts = s.epPorts := by
  unfold State.failAct
  split <;> simp

@[simp] theorem State.epPorts_settleAct (s : State) (n sub : Nat) :
    (s.settleAct n sub).epPorts = s.epPorts := by
  unfold State.settleAct
  split <;> simp

@[simp] theorem State.epPorts_partDone (s : State) (n sub : Nat) :
    (s.partDone n sub).epPorts = s.epPorts := by
  unfold State.partDone
  simp

@[simp] theorem State.epPorts_partFailed (s : State) (n sub code info : Nat) :
    (s.partFailed n sub code info).epPorts = s.epPorts := by
  unfold State.partFailed
  simp

@[simp] theorem State.epPorts_setHank (s : State) (i v : Nat) :
    (s.setHank i v).epPorts = s.epPorts := by
  unfold State.setHank
  simp

@[simp] theorem State.epPorts_countHank (s : State) (i n : Nat) :
    (s.countHank i n).epPorts = s.epPorts := by
  unfold State.countHank
  simp

@[simp] theorem State.epPorts_settleFences (s : State) :
    s.settleFences.epPorts = s.epPorts := by
  unfold State.settleFences
  simp

@[simp] theorem State.epPorts_storeDone (s : State) (id : Nat) (lost : Bool) :
    (s.storeDone id lost).epPorts = s.epPorts := by
  unfold State.storeDone
  simp

@[simp] theorem State.epPorts_loadDone (s : State) (id status : Nat) (data : List Byte) :
    (s.loadDone id status data).epPorts = s.epPorts := by
  unfold State.loadDone
  split <;> simp

/-! ### Machine/EpWarpOps -/

@[simp] theorem State.epPorts_modEw (s : State) (f : EpWarp → EpWarp) :
    (s.modEw f).epPorts = s.epPorts := by
  unfold State.modEw
  simp

@[simp] theorem State.epPorts_modBind (s : State) (id : Nat) (f : Binding → Binding) :
    (s.modBind id f).epPorts = s.epPorts := by
  unfold State.modBind
  simp

@[simp] theorem State.epPorts_settleBind (s : State) (id : Nat) :
    (s.settleBind id).epPorts = s.epPorts := by
  unfold State.settleBind
  repeat' split
  all_goals simp

@[simp] theorem State.epPorts_endBind (s : State) (id code info : Nat) :
    (s.endBind id code info).epPorts = s.epPorts := by
  unfold State.endBind
  simp

@[simp] theorem State.epPorts_modRun (s : State) (pat : Nat) (f : Run → Run) :
    (s.modRun pat f).epPorts = s.epPorts := by
  unfold State.modRun
  simp

@[simp] theorem State.epPorts_checkBind (s : State) (id : Nat) :
    (s.checkBind id).epPorts = s.epPorts := by
  unfold State.checkBind
  split <;> simp

@[simp] theorem State.epPorts_endInstance (s : State) (pat ph : Nat) :
    (s.endInstance pat ph).epPorts = s.epPorts := by
  unfold State.endInstance
  split <;> simp

@[simp] theorem State.epPorts_readCells (s : State) (b : Binding) (plane slice round : Nat) :
    (s.readCells b plane slice round).epPorts = s.epPorts := by
  unfold State.readCells
  simp

@[simp] theorem State.epPorts_readRun (s : State) (pat : Nat) :
    (s.readRun pat).epPorts = s.epPorts := by
  unfold State.readRun
  split <;> simp

@[simp] theorem State.epPorts_contribDone (s : State) (bind ph round slice cell off : Nat) (data : List Byte) (ok : Bool) :
    (s.contribDone bind ph round slice cell off data ok).epPorts = s.epPorts := by
  unfold State.contribDone
  simp

@[simp] theorem State.epPorts_landCell (s : State) (sl : Nat) (b : Binding) (ph slice round cell : Nat) (payload : List Byte) :
    (s.landCell sl b ph slice round cell payload).epPorts = s.epPorts := by
  unfold State.landCell
  simp

@[simp] theorem State.epPorts_warpLanded (s : State) (id : Nat) (ok : Bool) :
    (s.warpLanded id ok).epPorts = s.epPorts := by
  unfold State.warpLanded
  repeat' split
  all_goals simp

@[simp] theorem State.epPorts_shadowRead (s : State) (plane addr n : Nat) (own : Owner) :
    (s.shadowRead plane addr n own).epPorts = s.epPorts := by
  unfold State.shadowRead
  dsimp only
  split <;> simp

@[simp] theorem State.epPorts_shadowCells (s : State) (b : Binding) (plane inst ph slice round : Nat) :
    (s.shadowCells b plane inst ph slice round).epPorts = s.epPorts := by
  unfold State.shadowCells
  simp

@[simp] theorem State.epPorts_rerun (s : State) (pat plane slice round : Nat) :
    (s.rerun pat plane slice round).epPorts = s.epPorts := by
  unfold State.rerun
  split <;> simp

@[simp] theorem State.epPorts_shadowData (s : State) (bind plane ph slice round cell : Nat) (tally : Bool) (data : List Byte) :
    (s.shadowData bind plane ph slice round cell tally data).epPorts = s.epPorts := by
  unfold State.shadowData
  repeat' split
  all_goals simp

/-! ### Machine/XltOps -/

@[simp] theorem State.epPorts_modXlt (s : State) (f : Xlt → Xlt) :
    (s.modXlt f).epPorts = s.epPorts := by
  unfold State.modXlt
  simp

@[simp] theorem State.epPorts_modShuttle (s : State) (k : Nat) (f : Shuttle → Shuttle) :
    (s.modShuttle k f).epPorts = s.epPorts := by
  unfold State.modShuttle
  simp

@[simp] theorem State.epPorts_setMicro (s : State) (m : Nat) (l : List OutExt) :
    (s.setMicro m l).epPorts = s.epPorts := by
  unfold State.setMicro
  simp

@[simp] theorem State.epPorts_intoMicro (s : State) (m : Nat) (e : OutExt) :
    (s.intoMicro m e).epPorts = s.epPorts := by
  unfold State.intoMicro
  simp

@[simp] theorem State.epPorts_lookupOut (s : State) (m tag va kind : Nat) :
    (s.lookupOut m tag va kind).2.epPorts = s.epPorts := by
  unfold State.lookupOut
  repeat' split
  all_goals simp

@[simp] theorem State.epPorts_writeMiss (s : State) (r : MissRec) :
    (s.writeMiss r).epPorts = s.epPorts := by
  unfold State.writeMiss
  simp

@[simp] theorem State.epPorts_postMiss (s : State) (r : MissRec) :
    (s.postMiss r).epPorts = s.epPorts := by
  unfold State.postMiss
  simp

@[simp] theorem State.epPorts_postHeld (n : Nat) (s : State) :
    (s.postHeld n).epPorts = s.epPorts := by
  induction n generalizing s with
  | zero => rfl
  | succ n ih =>
    unfold State.postHeld
    repeat' (first | split | dsimp only)
    all_goals simp [ih]

@[simp] theorem State.epPorts_missIntr (s : State) :
    s.missIntr.epPorts = s.epPorts := by
  unfold State.missIntr
  simp

@[simp] theorem State.epPorts_missDone (s : State) (c : Nat) (ok : Bool) :
    (s.missDone c ok).epPorts = s.epPorts := by
  unfold State.missDone
  split <;> simp

@[simp] theorem State.epPorts_rewriteMisses (s : State) :
    s.rewriteMisses.epPorts = s.epPorts := by
  unfold State.rewriteMisses
  simp

@[simp] theorem State.epPorts_postAnswer (s : State) (type tag fill info : Nat) :
    (s.postAnswer type tag fill info).epPorts = s.epPorts := by
  unfold State.postAnswer
  simp

@[simp] theorem State.epPorts_newMiss (s : State) (fault : Bool) (tag va kind unit ring sub info : Nat) (direct : List DMiss) :
    (s.newMiss fault tag va kind unit ring sub info direct).1.epPorts = s.epPorts := by
  unfold State.newMiss
  simp

@[simp] theorem State.epPorts_stall (s : State) (k : Nat) (fault : Option OutExt) (tag va kind ring sub : Nat) :
    (s.stall k fault tag va kind ring sub).epPorts = s.epPorts := by
  unfold State.stall
  dsimp only
  repeat' split
  all_goals simp

@[simp] theorem State.epPorts_dropDirect (s : State) (d : DMiss) :
    (s.dropDirect d).epPorts = s.epPorts := by
  unfold State.dropDirect
  simp

@[simp] theorem State.epPorts_directMiss (s : State) (fault : Option OutExt) (tag va kind : Nat) (d : DMiss) :
    (s.directMiss fault tag va kind d).epPorts = s.epPorts := by
  unfold State.directMiss
  dsimp only
  repeat' split
  all_goals simp

@[simp] theorem State.epPorts_endMiss (s : State) (id : Nat) :
    (s.endMiss id).epPorts = s.epPorts := by
  unfold State.endMiss
  split
  · rfl
  · dsimp only
    rw [State.epPorts_foldl _ fun t d => by simp, State.epPorts_foldl _ fun t k => ?_, State.epPorts_modXlt]
    split
    · split <;> simp
    · rfl

/-! ### Machine/WeftAnswer -/

@[simp] theorem State.epPorts_modSource (s : State) (f : Source → Source) :
    (s.modSource .plocen f).epPorts = s.epPorts := by
  unfold State.modSource
  simp

@[simp] theorem State.epPorts_modHeld (s : State) (id : Nat) (f : Held → Held) :
    (s.modHeld .plocen id f).epPorts = s.epPorts := by
  unfold State.modHeld
  simp

@[simp] theorem State.epPorts_unqueue (s : State) (plane id : Nat) :
    (s.unqueue plane id).epPorts = s.epPorts := by
  unfold State.unqueue
  simp

@[simp] theorem State.epPorts_dropHeld (s : State) (h : Held) :
    (s.dropHeld .plocen h).epPorts = s.epPorts := by
  unfold State.dropHeld
  simp

@[simp] theorem State.epPorts_shadowLost (s : State) (bind plane slice round : Nat) :
    (s.shadowLost bind plane slice round).epPorts = s.epPorts := by
  unfold State.shadowLost
  split <;> simp

@[simp] theorem State.epPorts_messageLost (s : State) (h : Held) (x : SentMsg) (code info : Nat) :
    (s.messageLost .plocen h x code info).epPorts = s.epPorts := by
  unfold State.messageLost
  cases x.owner
  all_goals dsimp only
  all_goals repeat' split
  all_goals simp

@[simp] theorem State.epPorts_endHeld (s : State) (id code : Nat) :
    (s.endHeld .plocen id code).epPorts = s.epPorts := by
  unfold State.endHeld
  split <;> simp

@[simp] theorem State.epPorts_land (s : State) (x : SentMsg) (data : List Byte) :
    (s.land x data).epPorts = s.epPorts := by
  unfold State.land
  simp

@[simp] theorem State.epPorts_deliver (s : State) (h : Held) (x : SentMsg) (data : List Byte) :
    (s.deliver .plocen h x data).epPorts = s.epPorts := by
  unfold State.deliver
  cases x.owner
  all_goals dsimp only
  all_goals repeat' split
  all_goals simp

@[simp] theorem State.epPorts_answer (s : State) (id i : Nat) (data : List Byte) :
    (s.answer .plocen id i data).epPorts = s.epPorts := by
  unfold State.answer
  repeat' split
  all_goals simp

@[simp] theorem State.epPorts_landDone (s : State) (id : Nat) (ok : Bool) :
    (s.landDone id ok).epPorts = s.epPorts := by
  unfold State.landDone
  repeat' split
  all_goals simp

@[simp] theorem State.epPorts_replane (s : State) (id : Nat) :
    (s.replane id).epPorts = s.epPorts := by
  unfold State.replane
  repeat' split
  all_goals simp

@[simp] theorem State.epPorts_requeue (s : State) (h : Held) :
    (s.requeue h).epPorts = s.epPorts := by
  unfold State.requeue
  simp

@[simp] theorem State.epPorts_resend (s : State) (id : Nat) :
    (s.resend .plocen id).epPorts = s.epPorts := by
  unfold State.resend
  split <;> simp

@[simp] theorem State.epPorts_pathLost (s : State) (plane tL : Nat) :
    (s.pathLost plane tL).epPorts = s.epPorts := by
  unfold State.pathLost
  simp

@[simp] theorem State.epPorts_resendPlane (s : State) (plane : Nat) :
    (s.resendPlane plane).epPorts = s.epPorts := by
  unfold State.resendPlane
  simp

/-! ### Machine/EpOrders -/

@[simp] theorem State.epPorts_relayOthers (s : State) (plane : Nat) (m : Mgmt) :
    (s.relayOthers plane m).epPorts = s.epPorts := by
  unfold State.relayOthers
  simp

@[simp] theorem State.epPorts_epOrderIn (s : State) (plane : Nat) (o : SwitchOrder) :
    (s.epOrderIn plane o).epPorts = s.epPorts := by
  unfold State.epOrderIn
  simp

@[simp] theorem State.epPorts_epPlaneOut (s : State) (plane : Nat) :
    (s.epPlaneOut plane).epPorts = s.epPorts := by
  unfold State.epPlaneOut
  simp

@[simp] theorem State.epPorts_epEpochIn (s : State) (plane e eff : Nat) :
    (s.epEpochIn plane e eff).epPorts = s.epPorts := by
  unfold State.epEpochIn
  simp

@[simp] theorem State.epPorts_epEpochApply (s : State) (e : Nat) :
    (s.epEpochApply e).epPorts = s.epPorts := by
  unfold State.epEpochApply
  simp

@[simp] theorem State.epPorts_snapEvent (s : State) (number missed : Nat) :
    (s.snapEvent .plocen number missed).epPorts = s.epPorts := by
  unfold State.snapEvent
  simp

@[simp] theorem State.epPorts_snapIn (s : State) (t number : Nat) (skeins : BitVec 64) :
    (s.snapIn .plocen t number skeins).epPorts = s.epPorts := by
  unfold State.snapIn
  simp

@[simp] theorem State.epPorts_destroyEpKey (s : State) (kind : Nat) :
    (s.destroyEpKey kind).epPorts = s.epPorts := by
  unfold State.destroyEpKey
  simp

@[simp] theorem State.epPorts_epAssign (s : State) (plane skein : Nat) (isSealed : Bool) (slots epoch node : Nat) :
    (s.epAssign plane skein isSealed slots epoch node).epPorts = s.epPorts := by
  unfold State.epAssign
  simp

@[simp] theorem State.epPorts_mgmtRefused (s : State) (port node mtype : Nat) :
    (s.mgmtRefused .plocen port node mtype).epPorts = s.epPorts := by
  unfold State.mgmtRefused
  simp

/-! ### Machine/WeftDest -/

@[simp] theorem State.epPorts_queueReply (s : State) (plane : Nat) (c : Container) :
    (s.queueReply plane c).epPorts = s.epPorts := by
  unfold State.queueReply
  simp

@[simp] theorem State.epPorts_sendReplies (s : State) (l : List Reply) :
    (s.sendReplies l).epPorts = s.epPorts := by
  unfold State.sendReplies
  split <;> simp

@[simp] theorem State.epPorts_flushLike (s : State) (r : Reply) :
    (s.flushLike r).epPorts = s.epPorts := by
  unfold State.flushLike
  simp

@[simp] theorem State.epPorts_reply (s : State) (r : Reply) :
    (s.reply r).epPorts = s.epPorts := by
  unfold State.reply
  simp

@[simp] theorem State.epPorts_respond (s : State) (a : Arrival) (opc : Nat) (data : List Byte) :
    (s.respond a opc data).epPorts = s.epPorts := by
  unfold State.respond
  split <;> simp

@[simp] theorem State.epPorts_ownFailed (s : State) (id i : Nat) :
    (s.ownFailed id i).epPorts = s.epPorts := by
  unfold State.ownFailed
  repeat' split
  all_goals simp

@[simp] theorem State.epPorts_newJob (s : State) (a : Arrival) :
    (s.newJob a).epPorts = s.epPorts := by
  unfold State.newJob
  simp

@[simp] theorem State.epPorts_modJob (s : State) (id : Nat) (f : Job → Job) :
    (s.modJob id f).epPorts = s.epPorts := by
  unfold State.modJob
  simp

@[simp] theorem State.epPorts_endJob (s : State) (j : Job) (failed : Bool) :
    (s.endJob j failed).epPorts = s.epPorts := by
  unfold State.endJob
  dsimp only
  split <;> simp

@[simp] theorem State.epPorts_jobOver (s : State) (j : Job) :
    (s.jobOver j).epPorts = s.epPorts := by
  unfold State.jobOver
  dsimp only
  repeat' split
  all_goals simp

/-! ### Machine/WeftForm -/

@[simp] theorem State.epPorts_promoteOne (s : State) (id : Nat) :
    (s.promoteOne id).epPorts = s.epPorts := by
  unfold State.promoteOne
  split <;> simp

@[simp] theorem State.epPorts_packFull (s : State) (node plane : Nat) :
    (s.packFull node plane).epPorts = s.epPorts := by
  unfold State.packFull
  simp

@[simp] theorem State.epPorts_newHeld (s : State) (m : Msg) (sent : SentMsg) (node plane planes xtag reserve : Nat) (stream : Option Nat) (direct small room : Bool) (shuttle : Option Nat) (reads : List (Nat × Nat × Nat)) :
    (s.newHeld m sent node plane planes xtag reserve stream direct small room shuttle reads).epPorts = s.epPorts := by
  unfold State.newHeld
  simp

@[simp] theorem State.epPorts_askList (s : State) (ring sub : Nat) :
    (s.askList ring sub).epPorts = s.epPorts := by
  unfold State.askList
  split <;> simp

@[simp] theorem State.epPorts_listCheck (s : State) (ring sub : Nat) :
    (s.listCheck ring sub).epPorts = s.epPorts := by
  unfold State.listCheck
  repeat' split
  all_goals simp

@[simp] theorem State.epPorts_listFailed (s : State) (ring sub : Nat) :
    (s.listFailed ring sub).epPorts = s.epPorts := by
  unfold State.listFailed
  split <;> simp

@[simp] theorem State.epPorts_listDone (s : State) (ring sub first n : Nat) (data : List Byte) (ok : Bool) :
    (s.listDone ring sub first n data ok).epPorts = s.epPorts := by
  unfold State.listDone
  simp

@[simp] theorem State.epPorts_listPartDone (s : State) (ring sub entry lo : Nat) (data : List Byte) (ok : Bool) :
    (s.listPartDone ring sub entry lo data ok).epPorts = s.epPorts := by
  unfold State.listPartDone
  simp

/-! ### Machine/Ready -/

@[simp] theorem State.epPorts_unready (s : State) :
    s.unready.epPorts = s.epPorts := by
  unfold State.unready
  simp

/-! ### Machine/EpWarp -/

@[simp] theorem State.epPorts_wctl (s : State) (v : Nat) :
    (s.wctl v).epPorts = s.epPorts := by
  unfold State.wctl
  simp

/-! ### Machine/KeyOps -/

@[simp] theorem State.epPorts_clearCounters (s : State) (port : Nat) :
    (s.clearCounters .plocen port).epPorts = s.epPorts := by
  unfold State.clearCounters
  simp

/-! ### Machine/Rings -/

@[simp] theorem State.epPorts_sqStore (s : State) (n t : Nat) :
    (s.sqStore n t).epPorts = s.epPorts := by
  unfold State.sqStore
  simp

@[simp] theorem State.epPorts_cqStore (s : State) (n h : Nat) :
    (s.cqStore n h).epPorts = s.epPorts := by
  unfold State.cqStore
  simp

@[simp] theorem State.epPorts_armStore (s : State) (n v : Nat) :
    (s.armStore n v).epPorts = s.epPorts := by
  unfold State.armStore
  simp

@[simp] theorem State.epPorts_bindJoin (s : State) (n sub raw : Nat) :
    (s.bindJoin n sub raw).epPorts = s.epPorts := by
  unfold State.bindJoin
  dsimp only
  split <;> simp

@[simp] theorem State.epPorts_beginDesc (s : State) (n sub raw : Nat) :
    (s.beginDesc n sub raw).epPorts = s.epPorts := by
  unfold State.beginDesc
  dsimp only
  split <;> simp

@[simp] theorem State.epPorts_startNext (s : State) (n : Nat) :
    (s.startNext n).epPorts = s.epPorts := by
  unfold State.startNext
  split <;> simp

@[simp] theorem State.epPorts_unpark (s : State) (n sub : Nat) :
    (s.unpark n sub).epPorts = s.epPorts := by
  unfold State.unpark
  simp

@[simp] theorem State.epPorts_gateOpen (s : State) (n sub : Nat) :
    (s.gateOpen n sub).epPorts = s.epPorts := by
  unfold State.gateOpen
  split <;> simp

@[simp] theorem State.epPorts_serveStart (s : State) (n : Nat) :
    (s.serveStart n).epPorts = s.epPorts := by
  unfold State.serveStart
  split <;> simp

@[simp] theorem State.epPorts_refill (s : State) (n : Nat) :
    (s.refill n).epPorts = s.epPorts := by
  unfold State.refill
  simp

@[simp] theorem State.epPorts_setLast (s : State) (cls n : Nat) :
    (s.setLast cls n).epPorts = s.epPorts := by
  unfold State.setLast
  simp

@[simp] theorem State.epPorts_ringStart (s : State) (n : Nat) :
    (s.ringStart n).epPorts = s.epPorts := by
  unfold State.ringStart
  simp

@[simp] theorem State.epPorts_ringStop (s : State) (n : Nat) :
    (s.ringStop n).epPorts = s.epPorts := by
  unfold State.ringStop
  simp

@[simp] theorem State.epPorts_ringCfg (s : State) (n v : Nat) :
    (s.ringCfg n v).epPorts = s.epPorts := by
  unfold State.ringCfg
  simp

/-! ### Machine/Translate -/

@[simp] theorem State.epPorts_fetchFillsFrom (n : Nat) (s : State) :
    (s.fetchFillsFrom n).epPorts = s.epPorts := by
  induction n generalizing s with
  | zero => rfl
  | succ n ih =>
    unfold State.fetchFillsFrom
    repeat' (first | split | dsimp only)
    all_goals simp [ih]

@[simp] theorem State.epPorts_fetchFills (s : State) :
    s.fetchFills.epPorts = s.epPorts := by
  unfold State.fetchFills
  simp

@[simp] theorem State.epPorts_xltError (s : State) (code : Nat) :
    (s.xltError code).epPorts = s.epPorts := by
  unfold State.xltError
  simp

@[simp] theorem State.epPorts_dropFill (s : State) :
    s.dropFill.epPorts = s.epPorts := by
  unfold State.dropFill
  simp

@[simp] theorem State.epPorts_rejectFill (s : State) (count : Nat) (f : Fill) (reason : Nat) :
    (s.rejectFill count f reason).epPorts = s.epPorts := by
  unfold State.rejectFill
  simp

@[simp] theorem State.epPorts_settleFillsFrom (n : Nat) (s : State) :
    (s.settleFillsFrom n).epPorts = s.epPorts := by
  induction n generalizing s with
  | zero => rfl
  | succ n ih =>
    unfold State.settleFillsFrom
    repeat' (first | split | dsimp only)
    all_goals simp [ih]

@[simp] theorem State.epPorts_settleFills (s : State) :
    s.settleFills.epPorts = s.epPorts := by
  unfold State.settleFills
  simp

@[simp] theorem State.epPorts_takeFills (n : Nat) (s : State) :
    (s.takeFills n).epPorts = s.epPorts := by
  induction n generalizing s with
  | zero => rfl
  | succ n ih =>
    unfold State.takeFills
    repeat' (first | split | dsimp only)
    all_goals simp [ih]

@[simp] theorem State.epPorts_fillFetched (s : State) (first m : Nat) (data : List Byte) (ok : Bool) :
    (s.fillFetched first m data ok).epPorts = s.epPorts := by
  unfold State.fillFetched
  simp

@[simp] theorem State.epPorts_fillStore (s : State) (t : Nat) :
    (s.fillStore t).epPorts = s.epPorts := by
  unfold State.fillStore
  simp

@[simp] theorem State.epPorts_missStore (s : State) (h : Nat) :
    (s.missStore h).epPorts = s.epPorts := by
  unfold State.missStore
  simp

@[simp] theorem State.epPorts_xltArmStore (s : State) (v : Nat) :
    (s.xltArmStore v).epPorts = s.epPorts := by
  unfold State.xltArmStore
  simp

@[simp] theorem State.epPorts_xltStart (s : State) :
    s.xltStart.epPorts = s.epPorts := by
  unfold State.xltStart
  simp

@[simp] theorem State.epPorts_xltStop (s : State) :
    s.xltStop.epPorts = s.epPorts := by
  unfold State.xltStop
  all_goals simp

@[simp] theorem State.epPorts_xltCtl (s : State) (v : Nat) :
    (s.xltCtl v).epPorts = s.epPorts := by
  unfold State.xltCtl
  simp

/-! ### Machine/RegWrite -/

@[simp] theorem State.epPorts_plainEp (s : State) (a v : Nat) :
    (s.plainEp a v).epPorts = s.epPorts := by
  unfold State.plainEp
  split <;> simp

/-! ### Machine/AttachOps -/

@[simp] theorem State.epPorts_fenceLoad (s : State) (t : Txn) (at_ : Nat) :
    (s.fenceLoad t at_).epPorts = s.epPorts := by
  unfold State.fenceLoad
  simp

@[simp] theorem State.epPorts_registerLoad (s : State) (t : Txn) (at_ : Nat) :
    (s.registerLoad t at_).epPorts = s.epPorts := by
  unfold State.registerLoad
  simp

end Sys2Proof.Machine
end

section
/-! Fabric time: a lost parent, the holdover limit, and TIM.SET (R379, R382, R383). -/

namespace Sys2Proof.Machine

open Sys2Proof Sys2Proof.Claims

/-! ### A port is fenced -/

/-- A port unit that is fenced already, or in reset, is left as it is. -/
theorem State.fencePort_idle {s : State} {n : Nat} (h : s.fld .ronpex (portBase n) 0 2 = 1 ∨ s.fld .ronpex (portBase n) 0 2 = 3)
    (cause : Nat) : s.fencePort n cause = s := by
  rw [State.fencePort]
  exact if_pos h

theorem portBase_apart (m n : Nat) : portBase n + 0xC ≠ portBase m ∧ portBase n + 0x10 ≠ portBase m := by
  unfold portBase
  omega

/-- The registers that show whether ports are fenced. -/
theorem State.reg_fencePort {s : State} {n : Nat} (h : ¬(s.fld .ronpex (portBase n) 0 2 = 1 ∨ s.fld .ronpex (portBase n) 0 2 = 3))
    (cause m : Nat) : (s.fencePort n cause).reg .ronpex (portBase m)
      = if portBase m = portBase n then (1 + 256 * cause) % 2 ^ 32 else s.reg .ronpex (portBase m) := by
  obtain ⟨hc, h10⟩ := portBase_apart m n
  have hfirst : ((s.hardFence n cause).stopClock .ronpex n).reg .ronpex (portBase m) = s.reg .ronpex (portBase m) :=
    State.reg_of_rpRegs (by simp) (notMem_reportRegs (le_portBase m))
  rw [State.fencePort]
  dsimp only
  rw [if_neg h, State.reg_of_rpRegs ((State.rpRegs_portOrder _ _).trans (State.rpRegs_showUnits _ _ _)) (notMem_reportRegs (le_portBase m)),
    State.satFld, State.setFld, State.reg_setReg_other _ _ _ _ _ _ (.inr h10), State.setFld, State.reg_setReg_other _ _ _ _ _ _ (.inr hc),
    State.reg_setReg]
  by_cases heq : portBase m = portBase n
  · rw [if_pos ⟨rfl, heq.symm⟩, if_pos heq]
  · rw [if_neg fun h => heq h.2.symm, if_neg heq, hfirst]

theorem State.links_stopClock (s : State) (n : Nat) : (s.stopClock .ronpex n).rp.links = SMap.put (fun _ => {}) s.rp.links n
    { SMap.look (fun _ => {}) s.rp.links n with clockOff := true } := rfl

theorem State.link_fencePort {s : State} {n : Nat} (h : ¬(s.fld .ronpex (portBase n) 0 2 = 1 ∨ s.fld .ronpex (portBase n) 0 2 = 3))
    (cause m : Nat) : (s.fencePort n cause).link .ronpex m
      = if m = n then { s.link .ronpex n with clockOff := true } else s.link .ronpex m := by
  have hlinks : (s.fencePort n cause).rp.links = (s.stopClock .ronpex n).rp.links := by
    have hfirst : (s.hardFence n cause).rp.links = s.rp.links := by simp
    rw [State.fencePort]
    dsimp only
    rw [if_neg h, State.rp_links, State.rpLinks_portOrder, State.rpLinks_showUnits, State.rpLinks_satFld, State.rpLinks_setFld,
      State.rpLinks_setReg, ← State.rp_links]
    rw [State.links_stopClock, State.links_stopClock, hfirst]
  have hlook : (s.fencePort n cause).link .ronpex m = (s.stopClock .ronpex n).link .ronpex m := by
    rw [State.link, hlinks]
    rfl
  rw [hlook, State.stopClock, State.modLink, State.link_setLink]
  by_cases hm : m = n
  · rw [if_pos ⟨rfl, hm.symm⟩, if_pos hm]
  · rw [if_neg fun h => hm h.2.symm, if_neg hm]

/-- A port unit is fenced or in reset. -/
def State.portIdle (s : State) (n : Nat) : Prop := s.fld .ronpex (portBase n) 0 2 = 1 ∨ s.fld .ronpex (portBase n) 0 2 = 3

theorem State.portIdle_fencePort (s : State) {n m : Nat} (hn : n < 192) (hm : m < 192) (hne : m ≠ n) (cause : Nat) :
    (s.fencePort n cause).portIdle m ↔ s.portIdle m := by
  by_cases h : s.portIdle n
  · rw [State.fencePort_idle h]
  · rw [State.portIdle, State.portIdle, State.fld_congr ((State.reg_fencePort h cause m).trans
      (if_neg fun heq => hne (portBase_injective hm hn heq)))]

theorem fence_word {cause : Nat} (hc : cause < 256) :
    bits 0 2 ((1 + 256 * cause) % 2 ^ 32) = 1 ∧ bits 8 8 ((1 + 256 * cause) % 2 ^ 32) = cause := by
  constructor <;> simp only [bits] <;> omega

theorem State.portIdle_fencePort_same (s : State) (n : Nat) {cause : Nat} (hc : cause < 256) : (s.fencePort n cause).portIdle n := by
  by_cases h : s.portIdle n
  · rwa [State.fencePort_idle h]
  · refine .inl ?_
    rw [State.fld, State.reg_fencePort h, if_pos rfl]
    exact (fence_word hc).1

/-- Ports fenced one after the other: what is seen of port `m` changes once, where that port is one of them and was not fenced or in
reset. -/
theorem State.view_fencePorts {α : Type} {m cause : Nat} (V : State → α) (g : α → α) (hc : cause < 256)
    (hsame : ∀ s : State, ¬s.portIdle m → V (s.fencePort m cause) = g (V s))
    (hother : ∀ (s : State) (n : Nat), n < 192 → n ≠ m → ¬s.portIdle n → V (s.fencePort n cause) = V s)
    {l : List Nat} (hl : ∀ n ∈ l, n < 192) (s : State) :
    (m ∈ l ∧ ¬s.portIdle m → V (l.foldl (fun t n => t.fencePort n cause) s) = g (V s))
      ∧ (¬(m ∈ l ∧ ¬s.portIdle m) → V (l.foldl (fun t n => t.fencePort n cause) s) = V s) := by
  induction l generalizing s with
  | nil => exact ⟨fun h => absurd h.1 (by simp), fun _ => rfl⟩
  | cons n l ih =>
    rw [List.foldl_cons]
    obtain ⟨ihin, ihout⟩ := ih (fun x hx => hl x (List.mem_cons_of_mem _ hx)) (s.fencePort n cause)
    have hn := hl n (List.mem_cons_self ..)
    by_cases hm : m = n
    · subst hm
      rw [ihout fun h => h.2 (s.portIdle_fencePort_same m hc)]
      refine ⟨fun h => hsame s h.2, fun h => ?_⟩
      rw [State.fencePort_idle (not_not.1 fun hidle => h ⟨List.mem_cons_self .., hidle⟩)]
    · have hview : V (s.fencePort n cause) = V s := by
        by_cases hidle : s.portIdle n
        · rw [State.fencePort_idle hidle]
        · exact hother s n hn (Ne.symm hm) hidle
      rw [hview] at ihin ihout
      refine ⟨fun h => ihin ?_, fun h => ihout fun h' => h ?_⟩
      · obtain ⟨hmem, hidle⟩ := h
        exact ⟨List.mem_of_ne_of_mem hm hmem, (s.portIdle_fencePort hn (hl m hmem) hm cause).not.2 hidle⟩
      · obtain ⟨hml, hidle⟩ := h'
        exact ⟨List.mem_cons_of_mem _ hml, (s.portIdle_fencePort hn (hl m (List.mem_cons_of_mem _ hml)) hm cause).not.1 hidle⟩

/-- Every port of the package fenced. -/
def State.allFenced (s : State) (cause : Nat) : State := (List.range 192).foldl (fun t n => t.fencePort n cause) s

theorem State.link_allFenced (s : State) {cause : Nat} (hc : cause < 256) (m : Nat) :
    (m < 192 ∧ ¬s.portIdle m → (s.allFenced cause).link .ronpex m = { s.link .ronpex m with clockOff := true })
      ∧ (¬(m < 192 ∧ ¬s.portIdle m) → (s.allFenced cause).link .ronpex m = s.link .ronpex m) := by
  have h := State.view_fencePorts (l := List.range 192) (m := m) (fun t => t.link .ronpex m)
    (fun l => { l with clockOff := true }) hc (fun t h => (State.link_fencePort h cause m).trans (if_pos rfl))
    (fun t n _ hne h => (State.link_fencePort h cause m).trans (if_neg (Ne.symm hne))) (fun _ => List.mem_range.1) s
  simp only [List.mem_range] at h
  exact h

theorem State.reg_allFenced (s : State) {cause m : Nat} (hc : cause < 256) (hm : m < 192) :
    (¬s.portIdle m → (s.allFenced cause).reg .ronpex (portBase m) = (1 + 256 * cause) % 2 ^ 32)
      ∧ (s.portIdle m → (s.allFenced cause).reg .ronpex (portBase m) = s.reg .ronpex (portBase m)) := by
  obtain ⟨hin, hout⟩ := State.view_fencePorts (l := List.range 192) (m := m) (fun t => t.reg .ronpex (portBase m))
    (fun _ => (1 + 256 * cause) % 2 ^ 32) hc (fun t h => (State.reg_fencePort h cause m).trans (if_pos rfl))
    (fun t n hn hne h => (State.reg_fencePort h cause m).trans (if_neg fun heq => hne (portBase_injective hn hm heq.symm)))
    (fun _ => List.mem_range.1) s
  exact ⟨fun h => hin ⟨List.mem_range.2 hm, h⟩, fun h => hout fun h' => h'.2 h⟩

theorem State.unitState_port (s : State) {n : Nat} (hn : n < 192) : s.unitState n = s.fld .ronpex (portBase n) 0 2 := if_pos hn

theorem State.unitCause_port (s : State) {n : Nat} (hn : n < 192) : s.unitCause n = s.fld .ronpex (portBase n) 8 8 := if_pos hn

theorem State.portIdle_iff (s : State) {n : Nat} (hn : n < 192) : s.portIdle n ↔ s.unitState n = 1 ∨ s.unitState n = 3 := by
  rw [State.portIdle, s.unitState_port hn]

/-- The port units once every port has been fenced. -/
theorem State.unitState_allFenced (s : State) {cause n : Nat} (hc : cause < 256) (hn : n < 192) :
    (s.allFenced cause).unitState n = (if s.unitState n = 3 then 3 else 1) ∧ (s.unitState n = 0 → (s.allFenced cause).unitCause n = cause) := by
  obtain ⟨hfence, hidle⟩ := s.reg_allFenced hc hn
  obtain ⟨hstate, hcause⟩ := fence_word hc
  by_cases h : s.portIdle n
  · have hreg := hidle h
    rw [State.unitState_port _ hn, State.fld_congr hreg, ← State.unitState_port _ hn]
    rcases (s.portIdle_iff hn).1 h with h1 | h3
    · exact ⟨by simp [h1], fun h0 => by omega⟩
    · exact ⟨by simp [h3], fun h0 => by omega⟩
  · have hreg := hfence h
    have hne : s.unitState n ≠ 3 := fun h3 => h ((s.portIdle_iff hn).2 (.inr h3))
    rw [State.unitState_port _ hn, State.unitCause_port _ hn, if_neg hne, State.fld, State.fld, hreg]
    exact ⟨hstate, fun _ => hcause⟩

/-! ### A parent is lost -/

theorem State.rp_timeEvent (s : State) (case : Nat) : s.Recorded (s.timeEvent .ronpex case) := State.recorded_post _ _

theorem State.parentLost_early {s : State} {p : Part} (h : s.now < (s.timeSt p).exchAt.getD (s.timeSt p).resetAt + 3000000) :
    s.parentLost p = s := by
  unfold State.parentLost
  exact if_pos h

/-- The time that a part holds over with. -/
def State.heldTime (s : State) (p : Part) : TimeSt :=
  { s.timeSt p with
    parent := none, source := 3, exchAt := some s.now, good := 0, bad := 0
    holdover := if (s.timeSt p).everLocked then some s.now else none }

theorem State.holdOver_plocen {s : State} (h : s.ep.time.holdover = none) :
    s.holdOver .plocen = { s with ep := { s.ep with time := s.heldTime .plocen } } := by
  have htime : s.holdOver .plocen = s.setTimeSt .plocen (s.heldTime .plocen) := by
    simp only [State.holdOver, State.heldTime, State.timeSt, State.modTime, h, Option.orElse, State.timeEvent]
    split <;> rfl
  exact htime

theorem State.holdOver_ronpex {s : State} (h : s.rp.time.holdover = none) :
    State.Recorded { s with rp := { s.rp with time := s.heldTime .ronpex } } (s.holdOver .ronpex) := by
  have htime : s.modTime .ronpex (fun t => { t with
      parent := none, source := 3, exchAt := some s.now, good := 0, bad := 0
      holdover := if t.everLocked then (t.holdover.orElse fun _ => some s.now) else none })
      = { s with rp := { s.rp with time := s.heldTime .ronpex } } := by
    simp only [State.heldTime, State.timeSt, State.modTime, h, Option.orElse]
    rfl
  rw [← htime]
  unfold State.holdOver
  dsimp only
  split
  · exact State.recorded_post _ _
  · exact .refl _

/-- A Ronpex with no parent left holds over: what a record of it changes aside, its time alone. -/
theorem timed_of_recorded {s t : State} {x : TimeSt} (h : State.Recorded { s with rp := { s.rp with time := x } } t) :
    t.rp.time = x ∧ t.rp.links = s.rp.links ∧ onlyRonpex s t := by
  have honly := h.onlyRonpex
  have hlinks := h.links
  refine ⟨by rw [h.frame], hlinks, honly⟩

section ParentLost
variable {s : State} {t0 : Nat} (hex : s.rp.time.exchAt = some t0) (hdue : t0 + 3000000 ≤ s.now)
  (hmaster : s.flag .ronpex Reg.timCtl 0 = false) (hsource : s.rp.time.source = 0) (hhold : s.rp.time.holdover = none)
include hex hdue hmaster hsource hhold

theorem State.parentLost_alternate (h : s.fld .ronpex Reg.timCtl 16 8 ≠ 255) : s.parentLost .ronpex
    = { s with rp := { s.rp with time := { s.rp.time with source := 1, parent := none, exchAt := some s.now, good := 0, bad := 0 } } } := by
  simp [State.parentLost, State.timeSt, hex, Nat.not_lt.2 hdue, hmaster, hsource, hhold, h, State.modTime, State.setTimeSt]

omit hhold in
theorem State.parentLost_backup (h : s.fld .ronpex Reg.timCtl 16 8 = 255) (hb : s.flag .ronpex Reg.timCtl 1 = true) :
    State.Recorded { s with rp := { s.rp with time := { s.rp.time with
      source := 2, parent := none, depth := 0, locked := s.rp.time.everLocked, holdover := none } } } (s.parentLost .ronpex) := by
  have heq : s.parentLost .ronpex = State.timeEvent { s with rp := { s.rp with time := { s.rp.time with
      source := 2, parent := none, depth := 0, locked := s.rp.time.everLocked, holdover := none } } } .ronpex 4 := by
    simp [State.parentLost, State.timeSt, hex, Nat.not_lt.2 hdue, hmaster, hsource, h, hb, State.modTime, State.setTimeSt]
  rw [heq]
  exact State.rp_timeEvent _ _

omit hhold in
theorem State.parentLost_holdover (h : s.fld .ronpex Reg.timCtl 16 8 = 255) (hb : s.flag .ronpex Reg.timCtl 1 = false) :
    s.parentLost .ronpex = s.holdOver .ronpex := by
  simp [State.parentLost, State.timeSt, hex, Nat.not_lt.2 hdue, hmaster, hsource, h, hb]

end ParentLost

/-- Where no port of the Plocen has time from its far end, none is its parent. -/
theorem State.isParent_none {s : State} (h : ∀ q, q < 8 → s.portUp .plocen q = false ∨ (s.link .plocen q).farTime = none) (port : Nat) :
    s.isParent .plocen port = false := by
  have hfind : ((List.range 8).find? fun q => s.portUp .plocen q && (s.link .plocen q).farTime.any fun f => f.1) = none := by
    rw [List.find?_eq_none]
    intro q hq
    rcases h q (List.mem_range.1 hq) with hup | hfar
    · simp [hup]
    · simp [hfar]
  simp [State.isParent, hfind]

theorem State.parentLost_plocen {s : State} {t0 : Nat} (hex : s.ep.time.exchAt = some t0) (hdue : t0 + 3000000 ≤ s.now)
    (h : ∀ q, q < 8 → s.portUp .plocen q = false ∨ (s.link .plocen q).farTime = none) : s.parentLost .plocen = s.holdOver .plocen := by
  have hfind : ((List.range 8).find? fun q => s.isParent .plocen q) = none := by
    rw [List.find?_eq_none]
    intro q _
    simp [State.isParent_none h]
  have hany : ((List.range 8).any fun q => s.isParent .plocen q) = false := by
    rw [List.any_eq_false]
    intro q _
    simp [State.isParent_none h]
  have hnow : ¬s.now < (some t0).getD s.ep.time.resetAt + 3000000 := Nat.not_lt.2 hdue
  simp only [State.parentLost, State.timeSt, hex, hfind, hany, hnow, if_false, Bool.false_eq_true]

/-! ### The holdover limit -/

theorem State.holdoverOver_ronpex {s : State} {h : Nat} (hh : s.rp.time.holdover = some h) (hlock : s.rp.time.everLocked = true) :
    s.holdoverOver .ronpex = if h + 150000000 ≤ s.now then s.allFenced 1 else s := by
  unfold State.holdoverOver
  dsimp only [State.timeSt]
  rw [hh, hlock, Option.any_some, Bool.true_and]
  by_cases hdue : h + 150000000 ≤ s.now
  · rw [if_pos (decide_eq_true hdue), if_pos hdue, State.allFenced]
  · rw [if_neg (by rw [decide_eq_false hdue]; exact Bool.false_ne_true), if_neg hdue]

theorem State.holdoverOver_plocen {s : State} {h : Nat} (hh : s.ep.time.holdover = some h) (hlock : s.ep.time.everLocked = true)
    (hdue : h + 150000000 ≤ s.now) : s.holdoverOver .plocen
      = (List.range 8).foldl (fun u n => u.resendPlane n) { s with ep := { s.ep with released := [] } } := by
  unfold State.holdoverOver
  dsimp only [State.timeSt]
  rw [hh, hlock, Option.any_some, Bool.true_and, if_pos (decide_eq_true hdue)]

theorem State.epPorts_resendPlanes (s : State) (l : List Nat) : (l.foldl (fun u n => u.resendPlane n) s).epPorts = s.epPorts := by simp

/-! ### TIM.SET -/

theorem State.Logged.trans {s t u : State} (h : s.Logged t) (k : t.Logged u) : s.Logged u where
  frame := by
    have hst := h.frame
    have htu := k.frame
    rw [hst] at htu
    exact htu
  regs := regsBut_trans h.regs k.regs

theorem State.Logged.quiet {s t : State} (h : s.Logged t) : t.quiet = s.quiet := by
  have hactive : t.activeSkeins = s.activeSkeins := by
    refine List.filter_congr fun k hk => ?_
    have hk := List.mem_range.1 hk
    have hreg : t.reg .ronpex (Reg.sknCtl k) = s.reg .ronpex (Reg.sknCtl k) :=
      h.reg (by simp only [Reg.sknCtl, Reg.logLost, ne_eq]; omega)
    rw [State.skeinState, State.skeinState, State.fld_congr hreg]
  have hrunning : t.running = s.running := State.flag_congr (h.reg (by decide)) 3
  rw [State.quiet, State.quiet, hactive, hrunning]

/-- The two halves of TIM.SET are logged, and then the time is set. -/
theorem timeSet_writes {s : State} (v : BitVec 64) {w : Writer} (ht : rpTakes s w) :
    ∃ u, s.Logged u ∧ exec (.timeSet v w) s = .next (u.timeSetWrite v.toNat) := by
  have hlo := s.logged_logWrite Reg.timSetLo (bits 0 32 v.toNat) w
  have hhi := (s.logWrite .ronpex Reg.timSetLo (bits 0 32 v.toNat) w).logged_logWrite Reg.timSetHi (bits 32 32 v.toNat) w
  have ht' : rpTakes (s.logWrite .ronpex Reg.timSetLo (bits 0 32 v.toNat) w) w := ⟨by rw [hlo.frame]; exact ht.1, ht.2⟩
  refine ⟨_, hlo.trans hhi, ?_⟩
  have hexec : exec (.timeSet v w) s = execTimeSet v w s := rfl
  rw [hexec, execTimeSet, State.wrote_ronpex ht, State.wrote_ronpex ht']

/-- Settles O47: each command is one change of the time of its part, but for the holdover limit, which fences every port or plane. -/
theorem fabricTime : Obligations.FabricTime := by
  intro s
  refine ⟨fun hex hearly => ?_, fun t0 hex => ⟨fun hearly => ?_, fun hdue hmaster hsource hhold => ⟨fun h => ?_, fun h hb => ?_, fun h hb => ?_⟩⟩,
    fun t0 hex hdue hhold hnone => ?_, fun h hh hlock => ⟨fun hearly => ?_, fun hdue => ?_⟩, fun h hh hlock hdue => ?_,
    fun v w ht => ⟨fun hmaster hquiet => ?_, fun hno => ?_⟩⟩
  · exact congrArg Host.Outcome.next (State.parentLost_early (p := .ronpex) (by rw [State.timeSt, hex]; exact hearly))
  · exact congrArg Host.Outcome.next (State.parentLost_early (p := .ronpex) (by rw [State.timeSt, hex]; exact hearly))
  · exact ⟨s.parentLost .ronpex, rfl, by rw [State.parentLost_alternate hex hdue hmaster hsource hhold h],
      by rw [State.parentLost_alternate hex hdue hmaster hsource hhold h]⟩
  · exact ⟨s.parentLost .ronpex, rfl, timed_of_recorded (State.parentLost_backup hex hdue hmaster hsource h hb)⟩
  · refine ⟨s.parentLost .ronpex, rfl, ?_⟩
    rw [State.parentLost_holdover hex hdue hmaster hsource h hb]
    exact timed_of_recorded (State.holdOver_ronpex hhold)
  · refine ⟨s.parentLost .plocen, rfl, ?_⟩
    rw [State.parentLost_plocen hex hdue hnone, State.holdOver_plocen hhold]
    exact ⟨rfl, rfl⟩
  · exact congrArg Host.Outcome.next ((State.holdoverOver_ronpex hh hlock).trans (if_neg (Nat.not_le.2 hearly)))
  · have honly : onlyRonpex s (s.holdoverOver .ronpex) := onlyRonpex_of (by simp) (by simp)
    refine ⟨s.holdoverOver .ronpex, rfl, honly, ?_⟩
    rw [State.holdoverOver_ronpex hh hlock, if_pos hdue]
    refine ⟨fun n => ?_, fun n hn => s.unitState_allFenced (by omega) hn⟩
    obtain ⟨hin, hout⟩ := s.link_allFenced (cause := 1) (by omega) n
    by_cases hfence : n < 192 ∧ ¬s.portIdle n
    · rw [hin hfence, if_pos ⟨hfence.1, by rw [s.portIdle_iff hfence.1] at hfence; exact not_or.1 hfence.2⟩]
    · rw [hout hfence, if_neg fun h => hfence ⟨h.1, fun hidle => ((s.portIdle_iff h.1).1 hidle).elim h.2.1 h.2.2⟩]
  · have honly : onlyPlocen s (s.holdoverOver .plocen) := onlyPlocen_of (by simp) (by simp)
    have hports : (s.holdoverOver .plocen).epPorts = (s.ep.links, []) := by
      rw [State.holdoverOver_plocen hh hlock hdue, State.epPorts_resendPlanes]
      rfl
    rw [State.epPorts, Prod.mk.injEq] at hports
    exact ⟨s.holdoverOver .plocen, rfl, hports.2, hports.1, honly⟩
  · obtain ⟨u, hlog, hexec⟩ := timeSet_writes v ht
    have heq : u.timeSetWrite v.toNat = u.modTime .ronpex fun t => { t with set := some v.toNat } := by
      rw [State.timeSetWrite, State.flag_congr (hlog.reg (by decide)), hlog.quiet, hmaster, hquiet]
      rfl
    refine ⟨_, hexec, ?_, ?_, ?_⟩
    · rw [heq, hlog.frame]
      rfl
    · rw [heq]
      exact regsBut_trans hlog.regs (regsBut_of_regs rfl)
    · rw [heq, hlog.frame]
      rfl
  · obtain ⟨u, hlog, hexec⟩ := timeSet_writes v ht
    have heq : u.timeSetWrite v.toNat = u := by
      rw [State.timeSetWrite, State.flag_congr (hlog.reg (by decide)), hlog.quiet]
      exact if_neg (by rcases hno with h | h <;> simp [h])
    refine ⟨u, by rw [hexec, heq], by rw [hlog.frame], hlog.regs, hlog.frame⟩

end Sys2Proof.Machine
end

section
/-! Regions of fabric-resident memory: what keys they are read under, granting, and zeroing (R253, R255, R261, R264, R369). -/

namespace Sys2Proof.Machine

open Sys2Proof Sys2Proof.Claims

/-! ### The keys that memory is read under -/

/-- Two states agree on the keys of fabric-resident memory: on the keys held, on the regions, and on which skeins are confidential. -/
structure State.SameKeys (s t : State) : Prop where
  fkeys : t.rp.sec.fkeys = s.rp.sec.fkeys
  units : ∀ n, n < 256 → t.rgnUnits n = s.rgnUnits n
  valid : ∀ n, n < 256 → t.flag .ronpex (Reg.fmhRgnCtl n) 0 = s.flag .ronpex (Reg.fmhRgnCtl n) 0
  skein : ∀ n, n < 256 → t.rgnSkein n = s.rgnSkein n
  conf : ∀ k, k < 64 → t.isConf k = s.isConf k

theorem State.rgnSkein_lt (s : State) (n : Nat) : s.rgnSkein n < 64 := bits_lt 4 6 _

theorem State.SameKeys.memKey {s t : State} (h : s.SameKeys t) (off : Nat) : t.memKey off = s.memKey off := by
  have hfind : ((List.range 256).find? fun n => t.rgnCovers n (off / 2 ^ 21) && t.isConf (t.rgnSkein n))
      = (List.range 256).find? fun n => s.rgnCovers n (off / 2 ^ 21) && s.isConf (s.rgnSkein n) := by
    refine List.find?_congr fun n hn => ?_
    have hn := List.mem_range.1 hn
    rw [State.rgnCovers, State.rgnCovers, h.units n hn, h.valid n hn, h.skein n hn, h.conf _ (s.rgnSkein_lt n)]
  have hkey : ∀ n ∈ List.range 256, ((t.rp.sec.fkeys.find? fun x => x.1 == t.rgnSkein n).map fun x => x.2)
      = (s.rp.sec.fkeys.find? fun x => x.1 == s.rgnSkein n).map fun x => x.2 := fun n hn => by
    rw [h.fkeys, h.skein n (List.mem_range.1 hn)]
  rw [State.memKey, State.memKey, h.fkeys, hfind]
  split
  · rfl
  · cases hn : (List.range 256).find? fun n => s.rgnCovers n (off / 2 ^ 21) && s.isConf (s.rgnSkein n) with
    | none => rfl
    | some n =>
      have := hkey n (List.mem_of_find?_eq_some hn)
      rw [h.fkeys] at this
      exact this

/-- A byte of memory is read as before where its line, the key that wrote it and the keys now are as before. -/
theorem State.SameKeys.memByte {s t : State} (h : s.SameKeys t) {a : Nat} (hbyte : ∀ b, b / 64 = a / 64 → t.hbmByte b = s.hbmByte b)
    (hcipher : SMap.find? t.rp.fmem.cipher (a / 64) = SMap.find? s.rp.fmem.cipher (a / 64)) : t.memByte a = s.memByte a := by
  have hline : t.hbmRead (64 * (a / 64)) 64 = s.hbmRead (64 * (a / 64)) 64 := by
    refine List.map_congr_left fun i hi => hbyte _ ?_
    have := List.mem_range.1 hi
    omega
  rw [State.memByte, State.memByte, State.foreignKey, State.foreignKey, hcipher, hline, hbyte a rfl]
  simp only [h.memKey]

theorem State.memByte_uncovered {s : State} {a : Nat} (h : SMap.find? s.rp.fmem.cipher (a / 64) = none) : s.memByte a = s.hbmByte a := by
  rw [State.memByte, State.foreignKey, h]
  rfl

theorem SMap.find?_filter {α : Type} (m : SMap α) (p : Nat → Bool) (k : Nat) :
    SMap.find? (m.filter fun e => p e.1) k = if p k then SMap.find? m k else none := by
  induction m with
  | nil => simp
  | cons e r ih =>
    obtain ⟨j, v⟩ := e
    by_cases hk : j = k
    · subst hk
      cases hp : p j <;> simp [SMap.find?_cons, hp, ih]
    · cases hp : p j <;> simp [SMap.find?_cons, hp, hk, ih]

/-- Zeroed memory reads zero, and the rest as before. -/
theorem State.memByte_zeroed {s t : State} {b z : Nat} (hkeys : s.SameKeys t) (hhbm : t.hbm = (s.memZero (2 ^ 21 * b) (2 ^ 21 * z)).hbm)
    (hcipher : t.rp.fmem.cipher = (s.memZero (2 ^ 21 * b) (2 ^ 21 * z)).rp.fmem.cipher) (a : Nat) :
    t.memByte a = if 2 ^ 21 * b ≤ a ∧ a < 2 ^ 21 * (b + z) then 0 else s.memByte a := by
  have hbyte : ∀ c, t.hbmByte c = if 2 ^ 21 * b ≤ c ∧ c < 2 ^ 21 * b + 2 ^ 21 * z then 0 else s.hbmByte c := fun c => by
    rw [State.hbmByte, hhbm]
    exact s.hbmByte_hbmZero (2 ^ 21 * b) (2 ^ 21 * z) c
  have hfind : SMap.find? t.rp.fmem.cipher (a / 64)
      = if 2 ^ 21 * b ≤ 64 * (a / 64) ∧ 64 * (a / 64) < 2 ^ 21 * b + 2 ^ 21 * z then none else SMap.find? s.rp.fmem.cipher (a / 64) := by
    rw [hcipher]
    refine (SMap.find?_filter s.rp.fmem.cipher (fun k => decide (64 * k < 2 ^ 21 * b) || decide (2 ^ 21 * b + 2 ^ 21 * z ≤ 64 * k)) _).trans ?_
    by_cases hin : 2 ^ 21 * b ≤ 64 * (a / 64) ∧ 64 * (a / 64) < 2 ^ 21 * b + 2 ^ 21 * z
    · rw [if_pos hin, if_neg (by simp only [Bool.or_eq_true, decide_eq_true_eq]; omega)]
    · rw [if_neg hin, if_pos (by simp only [Bool.or_eq_true, decide_eq_true_eq]; omega)]
  by_cases hin : 2 ^ 21 * b ≤ a ∧ a < 2 ^ 21 * (b + z)
  · rw [if_pos hin, State.memByte_uncovered (hfind.trans (if_pos (by omega))), hbyte, if_pos (by omega)]
  · rw [if_neg hin]
    refine hkeys.memByte (fun c hc => (hbyte c).trans (if_neg (by omega))) (hfind.trans (if_neg (by omega)))

/-! ### A region is granted -/

theorem State.activeTenant_congr {s t : State} {k : Nat} (h : t.reg .ronpex (Reg.sknCtl k) = s.reg .ronpex (Reg.sknCtl k)) :
    t.activeTenant k = s.activeTenant k := by
  rw [State.activeTenant, State.activeTenant, State.skeinState, State.skeinState, State.fld_congr h]

theorem State.Logged.activeTenant {s u : State} (h : s.Logged u) {k : Nat} (hk : k < 64) : u.activeTenant k = s.activeTenant k :=
  State.activeTenant_congr (h.reg (by simp only [Reg.sknCtl, Reg.logLost, ne_eq]; omega))

theorem State.Logged.rgnCtl {s u : State} (h : s.Logged u) (n : Fin 256) :
    u.reg .ronpex (Reg.fmhRgnCtl n) = s.reg .ronpex (Reg.fmhRgnCtl n) :=
  h.reg (by simp only [Reg.fmhRgnCtl, Reg.logLost, ne_eq]; omega)

/-- Whether a write of a region's CTL is refused. -/
def State.grantRefused (s : State) (n v : Nat) : Bool :=
  s.activeTenant (bits 4 6 v) || (s.flag .ronpex (Reg.fmhRgnCtl n) 0 && s.activeTenant (s.rgnSkein n))

theorem State.Logged.grantRefused {s u : State} (h : s.Logged u) (n : Fin 256) (v : Nat) : u.grantRefused n v = s.grantRefused n v := by
  have hskein : u.rgnSkein n = s.rgnSkein n := State.fld_congr (h.rgnCtl n) 4 6
  rw [State.grantRefused, State.grantRefused, hskein, h.activeTenant (bits_lt 4 6 v), h.activeTenant (s.rgnSkein_lt n),
    State.flag_congr (h.rgnCtl n)]

/-- A region that is made VALID for a skein that it did not serve last. -/
def State.grantNew (s : State) (n v : Nat) : Bool := bit 0 v && !(SMap.look (fun _ => 0) s.rp.fmem.served n == bits 4 6 v + 1)

theorem State.regionCtl_refused {s : State} {n v : Nat} (h : s.grantRefused n v = true) : s.regionCtl n v = s := by
  rw [State.regionCtl]
  exact if_pos h

/-- CTL of a region as a grant leaves it: READY where the region need not be zeroed. -/
def State.grantWord (s : State) (n v : Nat) : Nat := bits 0 10 v + 2 ^ 10 * ofBool (bit 0 v && !s.grantNew n v)

theorem State.regionCtl_granted {s : State} {n v : Nat} (h : s.grantRefused n v = false) (hbusy : s.rp.fmem.zeroing.contains n = false) :
    s.regionCtl n v = if s.grantNew n v then
        (s.setReg .ronpex (Reg.fmhRgnCtl n) (s.grantWord n v)).modFm fun m => { m with
          zeroing := m.zeroing ++ [n]
          zeroLeft := if m.zeroing.isEmpty then (s.setReg .ronpex (Reg.fmhRgnCtl n) (s.grantWord n v)).zeroLines n else m.zeroLeft }
      else s.setReg .ronpex (Reg.fmhRgnCtl n) (s.grantWord n v) := by
  have hword : (bit 0 v && (SMap.look (fun _ => 0) s.rp.fmem.served n == bits 4 6 v + 1) && !s.rp.fmem.zeroing.contains n)
      = (bit 0 v && !s.grantNew n v) := by
    rw [hbusy, State.grantNew]
    cases bit 0 v <;> simp
  have hnew : (bit 0 v && !(SMap.look (fun _ => 0) s.rp.fmem.served n == bits 4 6 v + 1) && !s.rp.fmem.zeroing.contains n)
      = s.grantNew n v := by
    rw [hbusy, State.grantNew]
    simp
  rw [State.regionCtl]
  dsimp only
  rw [if_neg (by rw [← State.grantRefused, h]; exact Bool.false_ne_true), hword, hnew]
  rfl

theorem State.grantWord_lt (s : State) (n v : Nat) : s.grantWord n v < 2 ^ 32 := by
  have hlow := bits_lt 0 10 v
  have hready : ofBool (bit 0 v && !s.grantNew n v) ≤ 1 := by unfold ofBool; split <;> omega
  unfold State.grantWord
  omega

theorem State.reg_regionCtl {s : State} {n v : Nat} (h : s.grantRefused n v = false) (hbusy : s.rp.fmem.zeroing.contains n = false) :
    (s.regionCtl n v).reg .ronpex (Reg.fmhRgnCtl n) = s.grantWord n v := by
  have hreg := (State.reg_setReg_same s .ronpex (Reg.fmhRgnCtl n) (s.grantWord n v)).trans (Nat.mod_eq_of_lt (s.grantWord_lt n v))
  rw [State.regionCtl_granted h hbusy]
  split
  · exact hreg
  · exact hreg

theorem State.zeroing_regionCtl {s : State} {n v : Nat} (h : s.grantRefused n v = false) (hbusy : s.rp.fmem.zeroing.contains n = false) :
    (s.regionCtl n v).rp.fmem.zeroing = if s.grantNew n v then s.rp.fmem.zeroing ++ [n] else s.rp.fmem.zeroing := by
  rw [State.regionCtl_granted h hbusy]
  split <;> rfl

theorem State.regionCtl_frame {s : State} {n v : Nat} (h : s.grantRefused n v = false) (hbusy : s.rp.fmem.zeroing.contains n = false) :
    ∃ x y z, s.regionCtl n v = { s with rp := { s.rp with regs := x, fmem := { s.rp.fmem with zeroing := y, zeroLeft := z } } } := by
  rw [State.regionCtl_granted h hbusy]
  split
  · exact ⟨_, _, _, rfl⟩
  · exact ⟨_, _, _, rfl⟩

theorem regionGrant_granted {s : State} {n : Fin 256} {v : Word} {w : Writer} (h : s.grantRefused n v.toNat = false)
    (hbusy : s.rp.fmem.zeroing.contains n.val = false) :
    let t := (s.logWrite .ronpex (Reg.fmhRgnCtl n) v.toNat w).regionCtl n v.toNat
    (bit 0 v.toNat = true → SMap.look (fun _ => 0) s.rp.fmem.served n ≠ bits 4 6 v.toNat + 1 →
        t.reg .ronpex (Reg.fmhRgnCtl n) = bits 0 10 v.toNat ∧ t.rp.fmem.zeroing = s.rp.fmem.zeroing ++ [n.val])
      ∧ (bit 0 v.toNat = true → SMap.look (fun _ => 0) s.rp.fmem.served n = bits 4 6 v.toNat + 1 →
          t.reg .ronpex (Reg.fmhRgnCtl n) = bits 0 10 v.toNat + 2 ^ 10 ∧ t.rp.fmem.zeroing = s.rp.fmem.zeroing)
      ∧ (bit 0 v.toNat = false → t.reg .ronpex (Reg.fmhRgnCtl n) = bits 0 10 v.toNat ∧ t.rp.fmem.zeroing = s.rp.fmem.zeroing)
      ∧ regsBut s t .ronpex [Reg.fmhRgnCtl n, Reg.logLost]
      ∧ t = { s with rp := { s.rp with regs := t.rp.regs, log := t.rp.log
                                       fmem := { s.rp.fmem with zeroing := t.rp.fmem.zeroing, zeroLeft := t.rp.fmem.zeroLeft } } } := by
  dsimp only
  have hlog := s.logged_logWrite (Reg.fmhRgnCtl n) v.toNat w
  generalize s.logWrite .ronpex (Reg.fmhRgnCtl n) v.toNat w = u at hlog
  have hfm : u.rp.fmem = s.rp.fmem := by rw [hlog.frame]
  have hu : u.grantRefused n v.toNat = false := (hlog.grantRefused n v.toNat).trans h
  have hubusy : u.rp.fmem.zeroing.contains n.val = false := by rw [hfm, hbusy]
  obtain ⟨x, y, z, hframe⟩ := State.regionCtl_frame hu hubusy
  have hnew : u.grantNew n v.toNat = (bit 0 v.toNat && !(SMap.look (fun _ => 0) s.rp.fmem.served n == bits 4 6 v.toNat + 1)) := by
    rw [State.grantNew, hfm]
  have hreg := State.reg_regionCtl hu hubusy
  have hzero := State.zeroing_regionCtl hu hubusy
  rw [State.grantWord, hnew] at hreg
  rw [hnew, hfm] at hzero
  refine ⟨fun h0 hne => ?_, fun h0 heq => ?_, fun h0 => ?_, ?_, ?_⟩
  · rw [h0, beq_eq_false_iff_ne.2 hne] at hreg hzero
    exact ⟨hreg, hzero⟩
  · rw [h0, heq, beq_self_eq_true] at hreg hzero
    exact ⟨hreg, hzero⟩
  · rw [h0] at hreg hzero
    exact ⟨hreg, hzero⟩
  · refine regsBut_trans (regsBut_mono hlog.regs (by simp)) ?_
    rw [State.regionCtl_granted hu hubusy]
    have hset : regsBut u (u.setReg .ronpex (Reg.fmhRgnCtl n) (u.grantWord n v.toNat)) .ronpex [Reg.fmhRgnCtl n, Reg.logLost] :=
      regsBut_setReg _ _ (List.mem_cons_self ..)
    split
    · exact regsBut_trans hset (regsBut_of_regs rfl)
    · exact hset
  · rw [hframe, hlog.frame]

/-! ### A region is zeroed -/

/-- Zeroing waits: nothing is to be zeroed, the stacks have not trained, a condition holds it, or capacity does not suffice. -/
theorem State.zeroed_waits {s : State} (h : s.rp.fmem.zeroing = [] ∨ s.rp.fmem.trained ≠ 15 ∨ s.workHeld = true
    ∨ (0 < s.rp.fmem.zeroLeft ∧ s.hbmCapacity < s.rp.fmem.zeroLeft + s.rp.fmem.total)) : s.zeroed = s := by
  unfold State.zeroed
  split
  · rfl
  · next n rest hz =>
    refine if_pos ?_
    rcases h with h | h | h | ⟨h0, hcap⟩
    · rw [hz] at h
      cases h
    · exact .inr (.inl h)
    · exact .inl h
    · exact .inr (.inr ⟨by omega, by omega⟩)

/-- The state with a region zeroed, before its end is reported. -/
def State.regionZeroed (s : State) (n b z : Nat) (rest : List Nat) : State :=
  ((s.memZero (2 ^ 21 * b) (2 ^ 21 * z)).setFlag .ronpex (Reg.fmhRgnCtl n) 10 (s.flag .ronpex (Reg.fmhRgnCtl n) 0)).modFm fun m => { m with
    zeroing := rest, zeroLeft := (rest.head?.map fun r => (s.memZero (2 ^ 21 * b) (2 ^ 21 * z)).zeroLines r).getD 0
    total := m.total + m.zeroLeft
    served := if s.flag .ronpex (Reg.fmhRgnCtl n) 0 then SMap.put (fun _ => 0) m.served n (s.rgnSkein n + 1) else m.served }

theorem State.zeroed_eq {s : State} {n b z : Nat} {rest : List Nat} (hz : s.rp.fmem.zeroing = n :: rest) (hunits : s.rgnUnits n = (b, z))
    (hin : b + z ≤ 98304) (htrained : s.rp.fmem.trained = 15) (hheld : s.workHeld = false)
    (hcap : s.rp.fmem.zeroLeft = 0 ∨ s.rp.fmem.zeroLeft + s.rp.fmem.total ≤ s.hbmCapacity) :
    s.zeroed = (s.regionZeroed n b z rest).fmhError 4 (2 ^ 21 * b) 0
      (if s.flag .ronpex (Reg.fmhRgnCtl n) 0 && s.activeTenant (s.rgnSkein n) then [s.rgnSkein n] else []) := by
  have hgo : ¬(s.workHeld = true ∨ s.rp.fmem.trained ≠ 15 ∨ (s.rp.fmem.zeroLeft ≠ 0 ∧ ¬s.rp.fmem.zeroLeft + s.rp.fmem.total ≤ s.hbmCapacity)) := by
    rintro (h | h | ⟨h0, h⟩)
    · rw [hheld] at h
      cases h
    · exact h htrained
    · exact hcap.elim h0 h
  unfold State.zeroed
  rw [hz]
  dsimp only
  rw [if_neg hgo, hunits]
  dsimp only
  rw [if_pos hin]
  rfl

theorem State.flag_fmhError (s : State) {b : Nat} (hb : b < 32) (offset scope : Nat) (ks : List Nat) :
    (s.fmhError b offset scope ks).flag .ronpex Reg.fmhErr b = true := by
  have hreg : (s.fmhError b offset scope ks).reg .ronpex Reg.fmhErr = (s.setFlag .ronpex Reg.fmhErr b true).reg .ronpex Reg.fmhErr :=
    State.reg_of_rpRegs (by unfold State.fmhError; simp) (by decide)
  rw [State.flag_congr hreg, State.flag_setFlag_same _ _ _ hb]

theorem State.reg_fmhError_other (s : State) {a : Nat} (h : 0x501000 ≤ a) (h' : a < 0xA00000) (b offset scope : Nat) (ks : List Nat) :
    (s.fmhError b offset scope ks).reg .ronpex a = s.reg .ronpex a := by
  have hreport : a ∉ reportRegs := by
    simp only [reportRegs, Reg.logLost, Reg.mgtEvtOvf, Reg.mgtMsixPba, List.mem_cons, List.not_mem_nil, or_false, not_or]
    omega
  have hset : (s.fmhError b offset scope ks).reg .ronpex a = (s.setFlag .ronpex Reg.fmhErr b true).reg .ronpex a :=
    State.reg_of_rpRegs (by unfold State.fmhError; simp) hreport
  exact hset.trans (State.reg_setFlag_other _ _ _ _ _ _ _ (.inr (by simp only [Reg.fmhErr, ne_eq]; omega)))

/-- The registers of the Ronpex after a region has been zeroed: only READY of that region differs. -/
theorem State.reg_regionZeroed (s : State) (n b z : Nat) (rest : List Nat) (a : Nat) :
    (s.regionZeroed n b z rest).reg .ronpex a
      = (s.setFlag .ronpex (Reg.fmhRgnCtl n) 10 (s.flag .ronpex (Reg.fmhRgnCtl n) 0)).reg .ronpex a := by
  show ((s.memZero (2 ^ 21 * b) (2 ^ 21 * z)).setFlag .ronpex (Reg.fmhRgnCtl n) 10 _).reg .ronpex a = _
  rw [State.setFlag, State.setFld, State.reg_setReg, State.setFlag, State.setFld, State.reg_setReg]
  rfl

section Zeroed
variable {s : State} {n b z : Nat} {rest : List Nat} (offset : Nat) (ks : List Nat)

theorem State.rgnCtl_zeroed (m : Nat) (hm : m < 256) : ((s.regionZeroed n b z rest).fmhError 4 offset 0 ks).reg .ronpex (Reg.fmhRgnCtl m)
    = (s.setFlag .ronpex (Reg.fmhRgnCtl n) 10 (s.flag .ronpex (Reg.fmhRgnCtl n) 0)).reg .ronpex (Reg.fmhRgnCtl m) := by
  rw [State.reg_fmhError_other _ (by simp only [Reg.fmhRgnCtl]; omega) (by simp only [Reg.fmhRgnCtl]; omega), State.reg_regionZeroed]

theorem State.reg_zeroed_other {a : Nat} (h : 0x501000 ≤ a) (h' : a < 0xA00000) (hne : a ≠ Reg.fmhRgnCtl n) :
    ((s.regionZeroed n b z rest).fmhError 4 offset 0 ks).reg .ronpex a = s.reg .ronpex a := by
  rw [State.reg_fmhError_other _ h h', State.reg_regionZeroed, State.reg_setFlag_other _ _ _ _ _ _ _ (.inr hne.symm)]

/-- To zero a region changes no key that memory is read under. -/
theorem State.sameKeys_zeroed (hn : n < 256) : s.SameKeys ((s.regionZeroed n b z rest).fmhError 4 offset 0 ks) where
  fkeys := by
    obtain ⟨o, m, k, x, h⟩ := State.fmhError_only (s.regionZeroed n b z rest) 4 offset 0 ks
    rw [h]
    rfl
  units m hm := by
    have hbase := State.reg_zeroed_other (s := s) (n := n) (b := b) (z := z) (rest := rest) offset ks (a := Reg.fmhRgnBase m)
      (by simp only [Reg.fmhRgnBase]; omega) (by simp only [Reg.fmhRgnBase]; omega) (by simp only [Reg.fmhRgnBase, Reg.fmhRgnCtl]; omega)
    have hsize := State.reg_zeroed_other (s := s) (n := n) (b := b) (z := z) (rest := rest) offset ks (a := Reg.fmhRgnSize m)
      (by simp only [Reg.fmhRgnSize]; omega) (by simp only [Reg.fmhRgnSize]; omega) (by simp only [Reg.fmhRgnSize, Reg.fmhRgnCtl]; omega)
    rw [State.rgnUnits, State.rgnUnits, State.fld_congr hbase, State.fld_congr hsize]
  valid m hm := by
    rw [State.flag_congr (State.rgnCtl_zeroed offset ks m hm)]
    by_cases h : m = n
    · rw [h]
      exact State.flag_setFlag_other _ _ _ (by omega) (by omega)
    · exact State.flag_congr (State.reg_setFlag_other _ _ _ _ _ _ _ (.inr (by simp only [Reg.fmhRgnCtl]; omega))) 0
  skein m hm := by
    rw [State.rgnSkein, State.rgnSkein, State.fld_congr (State.rgnCtl_zeroed offset ks m hm)]
    by_cases h : m = n
    · rw [h]
      exact State.fld_setFlag_outside _ _ (lo' := 4) (len' := 6) _ (by omega) (by omega)
    · exact State.fld_congr (State.reg_setFlag_other _ _ _ _ _ _ _ (.inr (by simp only [Reg.fmhRgnCtl]; omega))) 4 6
  conf k hk := State.flag_congr (State.reg_zeroed_other offset ks (by simp only [Reg.sknCtl]; omega) (by simp only [Reg.sknCtl]; omega)
    (by simp only [Reg.sknCtl, Reg.fmhRgnCtl]; omega)) 3

theorem State.zeroed_frame : ∃ o m k x, (s.regionZeroed n b z rest).fmhError 4 offset 0 ks
    = { s.regionZeroed n b z rest with out := o, rp := { (s.regionZeroed n b z rest).rp with mgmt := m, skeins := k, regs := x } } :=
  State.fmhError_only _ _ _ _ _

end Zeroed

theorem zeroed_effect {s : State} {n b z : Nat} {rest : List Nat} (hn : n < 256) (offset : Nat) (ks : List Nat) :
    let t := (s.regionZeroed n b z rest).fmhError 4 offset 0 ks
    (∀ a, 2 ^ 21 * b ≤ a → a < 2 ^ 21 * (b + z) → t.memByte a = 0)
      ∧ (∀ a, (a < 2 ^ 21 * b ∨ 2 ^ 21 * (b + z) ≤ a) → t.memByte a = s.memByte a)
      ∧ t.flag .ronpex (Reg.fmhRgnCtl n) 10 = s.flag .ronpex (Reg.fmhRgnCtl n) 0
      ∧ t.flag .ronpex Reg.fmhErr 4 = true ∧ t.rp.fmem.zeroing = rest ∧ t.rp.fmem.hcnt = s.rp.fmem.hcnt
      ∧ t.ep = s.ep ∧ t.now = s.now ∧ t.pending = s.pending := by
  obtain ⟨o, m, k, x, h⟩ := State.zeroed_frame (s := s) (n := n) (b := b) (z := z) (rest := rest) offset ks
  have hkeys := State.sameKeys_zeroed (s := s) (b := b) (z := z) (rest := rest) offset ks hn
  have hready := State.rgnCtl_zeroed (s := s) (n := n) (b := b) (z := z) (rest := rest) offset ks n hn
  have herr := State.flag_fmhError (s.regionZeroed n b z rest) (b := 4) (by omega) offset 0 ks
  have hbyte := State.memByte_zeroed (b := b) (z := z) hkeys (by rw [h]; rfl) (by rw [h]; rfl)
  refine ⟨fun a ha ha' => (hbyte a).trans (if_pos ⟨ha, ha'⟩), fun a ha => (hbyte a).trans (if_neg (by omega)),
    (State.flag_congr hready 10).trans (State.flag_setFlag_same _ _ _ (by omega)), herr, by rw [h]; rfl, by rw [h]; rfl, by rw [h]; rfl,
    by rw [h]; rfl, by rw [h]; rfl⟩

/-- Settles O22: a grant is one write of CTL and of the list of regions to be zeroed; zeroing clears a range of memory and changes no
key. -/
theorem regionsZeroed : Obligations.RegionsZeroed := by
  refine ⟨fun s n v w ht => ⟨fun hnew hold hbusy => ?_, fun href => ?_⟩, fun s n rest b z hz hn hunits hin htrained hheld hcap => ?_,
    fun s h => congrArg Host.Outcome.next (State.zeroed_waits h)⟩
  · refine ⟨s.wrote .ronpex (Reg.fmhRgnCtl n) v.toNat w fun t => t.regionCtl n v.toNat, rfl, ?_⟩
    rw [State.wrote_ronpex ht]
    exact regionGrant_granted (by rw [State.grantRefused, hnew, Bool.false_or]; rcases hold with h | h <;> simp [h]) hbusy
  · have hlog := s.logged_logWrite (Reg.fmhRgnCtl n) v.toNat w
    have hrefused : (s.logWrite .ronpex (Reg.fmhRgnCtl n) v.toNat w).grantRefused n v.toNat = true := by
      rw [hlog.grantRefused, State.grantRefused]
      rcases href with h | ⟨h, h'⟩
      · rw [h, Bool.true_or]
      · rw [h, h', Bool.and_self, Bool.or_true]
    have heq : s.wrote .ronpex (Reg.fmhRgnCtl n) v.toNat w (fun t => t.regionCtl n v.toNat)
        = s.logWrite .ronpex (Reg.fmhRgnCtl n) v.toNat w := by
      rw [State.wrote_ronpex ht, State.regionCtl_refused hrefused]
    exact congrArg Host.Outcome.next heq
  · refine ⟨s.zeroed, rfl, ?_⟩
    rw [State.zeroed_eq hz hunits hin htrained hheld hcap]
    exact zeroed_effect hn _ _

end Sys2Proof.Machine
end

section
/-! Relays are armed (R259), and the replies held for sealed skeins are offered (R252, R316). -/

namespace Sys2Proof.Machine

open Sys2Proof Sys2Proof.Claims

/-! ### Relays -/

theorem State.relayCtl_free {s : State} {m v : Nat} (hnew : s.relayBusy (bits 0 14 v) = false)
    (hold : s.relayBusy (s.fld .ronpex (Reg.fmhRelayCtl m) 0 14) = false) : s.relayCtl m v
      = (s.setReg .ronpex (Reg.fmhRelayCtl m) (bits 0 15 v)).modFm fun f => { f with
          next := if bit 14 v then SMap.set f.next m ((s.hcnt (bits 0 14 v) + s.relayStep m) % 2 ^ 64) else SMap.drop f.next m } := by
  unfold State.relayCtl
  dsimp only
  exact if_neg (by simp [hnew, hold])

/-- The registers from which it is found whether a relay's counter is one of an ACTIVE skein. -/
theorem State.Logged.relayBusy {s u : State} (h : s.Logged u) (n : Nat) : u.relayBusy n = s.relayBusy n := by
  have hskein : u.hcntSkein n = s.hcntSkein n := by
    refine List.find?_congr fun k hk => ?_
    have hk := List.mem_range.1 hk
    have hreg : u.reg .ronpex (Reg.fmhHgrant k) = s.reg .ronpex (Reg.fmhHgrant k) :=
      h.reg (by simp only [Reg.fmhHgrant, Reg.logLost, ne_eq]; omega)
    rw [State.hcntOf, State.hcntOf, State.fld_congr hreg, State.fld_congr hreg]
  rw [State.relayBusy, State.relayBusy, hskein]
  cases hk : s.hcntSkein n with
  | none => rfl
  | some k => exact h.activeTenant (List.mem_range.1 (List.mem_of_find?_eq_some hk))

theorem relayEnable_armed {s : State} {m : Fin 4096} {v : Word} {w : Writer} (hnew : s.relayBusy (bits 0 14 v.toNat) = false)
    (hold : s.relayBusy (s.fld .ronpex (Reg.fmhRelayCtl m) 0 14) = false) :
    let t := (s.logWrite .ronpex (Reg.fmhRelayCtl m) v.toNat w).relayCtl m v.toNat
    t.reg .ronpex (Reg.fmhRelayCtl m) = bits 0 15 v.toNat
      ∧ SMap.find? t.rp.fmem.next m = (if bit 14 v.toNat then some ((s.hcnt (bits 0 14 v.toNat) + s.relayStep m) % 2 ^ 64) else none)
      ∧ (∀ k, k ≠ m.val → SMap.find? t.rp.fmem.next k = SMap.find? s.rp.fmem.next k)
      ∧ regsBut s t .ronpex [Reg.fmhRelayCtl m, Reg.logLost]
      ∧ t = { s with rp := { s.rp with regs := t.rp.regs, log := t.rp.log, fmem := { s.rp.fmem with next := t.rp.fmem.next } } } := by
  dsimp only
  have hlog := s.logged_logWrite (Reg.fmhRelayCtl m) v.toNat w
  generalize s.logWrite .ronpex (Reg.fmhRelayCtl m) v.toNat w = u at hlog
  have hfm : u.rp.fmem = s.rp.fmem := by rw [hlog.frame]
  have hctl : u.reg .ronpex (Reg.fmhRelayCtl m) = s.reg .ronpex (Reg.fmhRelayCtl m) :=
    hlog.reg (by simp only [Reg.fmhRelayCtl, Reg.logLost, ne_eq]; omega)
  have hstep : u.relayStep m = s.relayStep m := by
    rw [State.relayStep, State.relayStep, hlog.reg (by simp only [Reg.fmhRelayStep, Reg.logLost, ne_eq]; omega)]
  have hcnt : ∀ n, u.hcnt n = s.hcnt n := fun n => by rw [State.hcnt, State.hcnt, hfm]
  have hcond := State.relayCtl_free (s := u) (m := m) (v := v.toNat) ((hlog.relayBusy _).trans hnew)
    (by rw [State.fld_congr hctl, hlog.relayBusy, hold])
  rw [hcnt, hstep] at hcond
  rw [hcond]
  refine ⟨?_, ?_, fun k hk => ?_, ?_, ?_⟩
  · exact (State.reg_setReg_same u .ronpex _ _).trans (Nat.mod_eq_of_lt (by have := bits_lt 0 15 v.toNat; omega))
  · rw [State.modFm_rp_fmem]
    show SMap.find? (if bit 14 v.toNat then SMap.set u.rp.fmem.next m _ else SMap.drop u.rp.fmem.next m) m = _
    split
    · exact SMap.find?_set_same _ _ _
    · rw [SMap.find?_drop, if_pos rfl]
  · rw [State.modFm_rp_fmem, ← hfm]
    show SMap.find? (if bit 14 v.toNat then SMap.set u.rp.fmem.next m _ else SMap.drop u.rp.fmem.next m) k = _
    split
    · exact SMap.find?_set_other _ _ _ _ hk
    · rw [SMap.find?_drop, if_neg hk]
  · have hset : regsBut u (u.setReg .ronpex (Reg.fmhRelayCtl m) (bits 0 15 v.toNat)) .ronpex [Reg.fmhRelayCtl m, Reg.logLost] :=
      regsBut_setReg _ _ (List.mem_cons_self ..)
    exact regsBut_trans (regsBut_mono hlog.regs (by simp)) (regsBut_trans hset (regsBut_of_regs rfl))
  · rw [hlog.frame]
    rfl

/-! ### Containers of the agent leave it -/

/-- A step by which the memory agent's containers leave it: only what waits in the crossbar, the agent's store and the log differ. -/
structure State.Left (s t : State) : Prop where
  regs : regsBut s t .ronpex [Reg.logLost]
  frame : t = { s with rp := { s.rp with
    cand := t.rp.cand, home := t.rp.home, log := t.rp.log, regs := t.rp.regs
    fmem := { s.rp.fmem with dest := t.rp.fmem.dest, entries := t.rp.fmem.entries }
    warp := { s.rp.warp with logged := t.rp.warp.logged } } }

theorem State.Left.refl (s : State) : s.Left s := ⟨regsBut_refl _ _ _, rfl⟩

theorem State.Left.trans {s t u : State} (h : s.Left t) (k : t.Left u) : s.Left u where
  regs := regsBut_trans h.regs k.regs
  frame := by
    have hst := h.frame
    have htu := k.frame
    rw [hst] at htu
    exact htu

theorem State.Left.foldl {α : Type} (f : State → α → State) (hf : ∀ (t : State) x, t.Left (f t x)) (l : List α) (s : State) :
    s.Left (l.foldl f s) := by
  induction l generalizing s with
  | nil => exact .refl s
  | cons x l ih => exact (hf s x).trans (ih _)

theorem State.left_agentLeave (s : State) (e : Option Nat) : s.Left (s.agentLeave e) := ⟨regsBut_of_regs rfl, rfl⟩

theorem State.left_goHome (s : State) (c : Container) : s.Left (s.goHome c) := ⟨regsBut_of_regs rfl, rfl⟩

theorem State.left_offer (s : State) (q : Nat) (x : EddyEnt) : s.Left (s.offer q x) := ⟨regsBut_of_regs rfl, rfl⟩

theorem State.left_logUnrouted (s : State) (p : Nat) (c : Container) : s.Left (s.logUnrouted p c) := by
  unfold State.logUnrouted
  dsimp only
  split
  · exact .refl s
  · have hlog := s.logged_rpLog (condBody s.now 0x02 5 c.src p c.skein (lookupNode c) (frameOf s.now % 2 ^ 32) (ofBool c.refl))
    refine ⟨regsBut_trans hlog.regs (regsBut_of_regs rfl), ?_⟩
    rw [State.rpCond, hlog.frame]
    rfl

theorem State.left_agentOffer (s : State) (c : Container) (e : Nat) : s.Left (s.agentOffer c e) := by
  unfold State.agentOffer
  split
  · exact (s.left_logUnrouted 255 c).trans (State.left_agentLeave _ _)
  · exact (s.left_goHome c).trans (State.left_agentLeave _ _)
  · split
    · exact s.left_offer _ _
    · exact s.left_agentLeave _

/-- A container routed to one port that can take it is offered there. -/
theorem State.agentOffer_port {s : State} {c : Container} {q : Nat} (hr : s.route c.dest = .port q) (hq : s.eligible q = true) (e : Nat) :
    s.agentOffer c e = s.offer q { c := c, ingress := 255, since := s.now, agent := some e } := by
  have hports : s.routePorts (.port q) = [q] := by simp [State.routePorts, hq]
  have hchoose : s.choosePort c [q] = some q := by simp [State.choosePort, Nat.mod_one]
  simp only [State.agentOffer, hr, hports, hchoose]

/-- Settles O23: a relay is armed by one write; a held reply that is due leaves the agent's list and is offered. -/
theorem relaysAndHeldReplies : Obligations.RelaysAndHeldReplies := by
  refine ⟨fun s m v w ht hnew hold => ?_, fun s => ⟨?_, fun x q hx hdue hr hq => ?_⟩⟩
  · refine ⟨s.wrote .ronpex (Reg.fmhRelayCtl m) v.toNat w fun t => t.relayCtl m v.toNat, rfl, ?_⟩
    rw [State.wrote_ronpex ht]
    exact relayEnable_armed hnew hold
  · have hleft : State.Left (s.modFm fun m => { m with sealedRep := m.sealedRep.filter fun x => decide (s.now < x.at_) }) s.sealedRelease :=
      .foldl _ (fun t (x : SealedReply) => t.left_agentOffer x.c x.entry) _ _
    have hframe := hleft.frame
    refine ⟨s.sealedRelease, rfl, ?_, ?_, ?_, ?_, regsBut_trans (regsBut_of_regs rfl) hleft.regs, ?_⟩
    all_goals
      rw [hframe]
      rfl
  · refine ⟨s.sealedRelease, rfl, ?_⟩
    have heq : s.sealedRelease = ((s.modFm fun m => { m with sealedRep := [] }).offer q
        { c := x.c, ingress := 255, since := s.now, agent := some x.entry }) := by
      have hrest : s.modFm (fun m => { m with sealedRep := m.sealedRep.filter fun x => decide (s.now < x.at_) })
          = s.modFm fun m => { m with sealedRep := [] } := by
        simp [State.modFm, hx, Nat.not_lt.2 hdue]
      rw [State.sealedRelease, hrest, hx, List.filter_cons_of_pos (p := fun x : SealedReply => decide (x.at_ ≤ s.now)) (decide_eq_true hdue),
        List.filter_nil, List.foldl_cons, List.foldl_nil]
      exact State.agentOffer_port (s := s.modFm fun m => { m with sealedRep := [] }) hr hq x.entry
    rw [heq]
    exact ⟨SMap.look_put_same _ _ _ _, rfl⟩

end Sys2Proof.Machine
end

section
/-! A container arrives at a Ronpex (R153, R156, R157, R303), while its receiver may undo a rekey (R333). -/

namespace Sys2Proof.Machine

open Sys2Proof Sys2Proof.Claims

/-! ### A container at an ingress port -/

/-- A block that a port of the Ronpex receives changes that port's link, and the key generation shown where a rekey is undone. -/
theorem State.rxBlock_ronpex (s : State) (p : Nat) (b : Block) :
    regsBut s (s.rxBlock .ronpex p b) .ronpex [keygenReg .ronpex p]
      ∧ s.rxBlock .ronpex p b = { s with rp := { s.rp with
          links := (s.rxBlock .ronpex p b).rp.links, regs := (s.rxBlock .ronpex p b).rp.regs } } := by
  unfold State.rxBlock State.rxLink
  dsimp only
  split
  · split
    · exact ⟨regsBut_trans (regsBut_of_regs rfl) (regsBut_setFld _ _ _ _ (List.mem_cons_self ..)), rfl⟩
    · exact ⟨regsBut_of_regs rfl, rfl⟩
  · exact ⟨regsBut_of_regs rfl, rfl⟩

/-! ### The receiver undoes a rekey -/

/-- While the keys before a rekey are kept by, the first blocks under the new key are looked at: after three that the old key alone
opens, the next ends the trial whatever it is, and new keys are held. -/
theorem Link.rxCount_tried {l : Link} {key : BitVec 288} {o : OldKeys} (hrx : l.keys.rx = some key) (hnext : l.keys.rxNext = none)
    (hold : l.keys.old = some o) (htried : o.tried = 3) (hfresh : l.keys.fresh.isSome = true) (t : Nat) (b : Block) :
    (l.rxCount t b).keys.old = none ∧ (l.rxCount t b).keys.fresh.isSome = true := by
  have hto : ∀ f, (l.rxTo f).keys.rx = some key ∧ (l.rxTo f).keys.rxNext = none ∧ (l.rxTo f).keys.old = some o
      ∧ (l.rxTo f).keys.fresh.isSome = true := fun f => by
    unfold Link.rxTo
    dsimp only
    split
    · exact ⟨hrx, hnext, hold, hfresh⟩
    · exact ⟨hrx, hnext, hold, hfresh⟩
  obtain ⟨hrx', hnext', hold', hfresh'⟩ := hto (l.sentIn t)
  have hswitch : (l.rxTo (l.sentIn t)).keys.rxSwitch t = (l.rxTo (l.sentIn t)).keys := by simp only [LinkKeys.rxSwitch, hnext']
  simp only [Link.rxCount, hswitch, hrx', LinkKeys.probe, hold', hnext', htried, Option.isSome_none, Bool.false_eq_true, if_false]
  split
  · exact ⟨rfl, rfl⟩
  · exact ⟨rfl, hfresh'⟩

/-- Then KEYGEN shows the generation of the old keys. -/
theorem State.rxBlock_undone {s : State} {p : Nat} {key : BitVec 288} {o : OldKeys} (hpend : (s.link .ronpex p).pend = [])
    (hrx : (s.link .ronpex p).keys.rx = some key) (hnext : (s.link .ronpex p).keys.rxNext = none)
    (hold : (s.link .ronpex p).keys.old = some o) (htried : o.tried = 3) (hfresh : (s.link .ronpex p).keys.fresh.isSome = true)
    (hwakes : (s.link .ronpex p).wakes = s.link .ronpex p) (b : Block) :
    (s.rxBlock .ronpex p b).fld .ronpex (keygenReg .ronpex p) 0 16 = o.gen % 2 ^ 16 := by
  have hfill : (s.link .ronpex p).fillsTo s.now = s.link .ronpex p := by
    simp only [Link.fillsTo, hpend, List.filter_nil, List.foldl_nil]
    rw [← hpend]
  obtain ⟨hold', hfresh'⟩ := Link.rxCount_tried hrx hnext hold htried hfresh s.now b
  simp only [State.rxBlock, State.rxLink, hwakes, hfill, hold, hold', hfresh', Option.isNone_none, Bool.and_true, if_true]
  exact State.fld_setFld_same _ _ _ _ _ _ (by decide)

/-! ### A SKEIN beyond the 64 -/

/-- A container of a skein that is QUIESCENT goes to no output. -/
theorem State.cand_weftIn_gated {s : State} {c : Container} (h : 0 < c.skein ∧ s.skeinState c.skein = 1) (p : Nat) :
    (s.weftIn p c).rp.cand = s.rp.cand := by
  have hgate : ∀ exempt, s.skeinGate p c.kind c.src c.skein exempt
      = (true, s.logOnce p 0x05 fun t => t.rpCond 0x05 5 c.src p c.skein 0 (frameOf s.now % 2 ^ 32) c.kind) := fun exempt => by
    rw [State.skeinGate]
    exact if_pos h
  simp only [State.weftIn, hgate, if_true, State.logOnce]
  split
  · rfl
  · rw [State.rpCond, (State.logged_rpLog _ _).frame]
    rfl

theorem State.rpContainerIn_weftIn {s : State} {p : Fin 192} {c : Container} (h : rpEnters s p c) :
    s.rpContainerIn p c = (s.rxBlock .ronpex p (.weft c)).weftIn p c := by
  obtain ⟨hcarries, hlost, hana, huse, hcrc, hkind, hskein, hfenced⟩ := h
  have hup : s.portUp .ronpex p = true := (Bool.and_eq_true_iff.1 hcarries).1
  have hkind0 : c.kind ≠ 0 := by omega
  simp [State.rpContainerIn, hup, hana, huse, hlost, hcarries, ← hcrc, hkind, hkind0]

/-- A container that `rpEnters` allows goes to no output where its arrival makes its skein read as QUIESCENT. -/
theorem State.cand_rpContainerIn_gated {s : State} {p : Fin 192} {c : Container} (h : rpEnters s p c)
    (hgone : 0 < c.skein ∧ (s.rxBlock .ronpex p (.weft c)).skeinState c.skein = 1) : (s.rpContainerIn p c).rp.cand = s.rp.cand := by
  rw [State.rpContainerIn_weftIn h, State.cand_weftIn_gated hgone, (State.rxBlock_ronpex _ _ _).2]

/-- The number of a skein whose SKN.CTL would stand where SEC.P.KEYGEN of port 3 stands: a container's field has 6 bits (R153), the
statement's SKEIN is any number. -/
def skeinAtKeygen : Nat := 0x803CE

theorem sknCtl_skeinAtKeygen : Reg.sknCtl skeinAtKeygen = keygenReg .ronpex 3 := by decide

def foreignContainer : Container := sealed { emptyContainer with kind := 1, dest := 5, hops := 1, skein := skeinAtKeygen }

/-- Ports 3 and 4 are in service, node 5 lies behind port 4, and port 3 looks at the fourth block after a rekey, whose undoing shows
generation 1 again. -/
def undoingState : State := { State.reset with
  now := 320000
  rp := { State.reset.rp with
    regs := [(psBase .ronpex 3 + 4, 2), (psBase .ronpex 4 + 4, 2), (portBase 3, 0), (portBase 4, 0), (Reg.drfStat, 0),
      (Reg.xbrPathmask 0, 0xFFFFFFFF), (Reg.xbrRt 5, 0x401), (Reg.sknPort 3, 2), (Reg.xbrAnaCtl, 0), (Reg.xbrCtl, 0), (Reg.secPKeygen 3, 2)]
    links := [(3, { keys := { rx := some 0, fresh := some (0, 0)
                              old := some { tx := 0, rx := 0, txCnt := 0, rxCnt := 0, gen := 1, since := 0, fresh := (0, 0), tried := 3 } } })] } }

theorem sealed_crc_eq (c : Container) : (sealed c).crc = containerCrc (sealed c) := rfl

theorem undoingState_enters : rpEnters undoingState 3 foreignContainer := by
  refine ⟨?_, ?_, ?_, ?_, sealed_crc_eq _, .inl rfl, .inr ?_, ?_⟩ <;> decide +kernel

/-- Refutes O20: of a container with a SKEIN beyond 63, the state of the skein is read elsewhere than at its SKN.CTL, here at the
KEYGEN that the arrival itself changes, and the container is dropped as one of a QUIESCENT skein. -/
theorem not_containersRouted : ¬ Obligations.ContainersRouted := by
  intro h
  have hroute : undoingState.route (lookupNode foreignContainer) = .port 4 := by decide +kernel
  have heligible : undoingState.eligible 4 = true := by decide +kernel
  have hhops : 1 ≤ foreignContainer.hops ∨ undoingState.facesPlocen 4 = true := .inl (by decide +kernel)
  obtain ⟨t, ht, hcand, -⟩ := (h.2 undoingState 3 foreignContainer undoingState_enters).1 4 hroute heligible hhops
  have ht' : undoingState.rpContainerIn (3 : Fin 192) foreignContainer = t := Host.Outcome.next.inj ht
  have hgen := State.rxBlock_undone (s := undoingState) (p := 3) rfl rfl rfl rfl rfl rfl
    rfl (.weft foreignContainer)
  have hgone : 0 < foreignContainer.skein
      ∧ (undoingState.rxBlock .ronpex 3 (.weft foreignContainer)).skeinState foreignContainer.skein = 1 := by
    refine ⟨by decide, ?_⟩
    rw [State.fld, bits] at hgen
    rw [State.skeinState, State.fld, bits]
    change (_ : Nat) = 1 % 2 ^ 16 at hgen
    rw [show Reg.sknCtl foreignContainer.skein = keygenReg .ronpex 3 from sknCtl_skeinAtKeygen]
    omega
  rw [← ht', State.cand_rpContainerIn_gated undoingState_enters hgone] at hcand
  exact absurd hcand (by simp)

end Sys2Proof.Machine
end

section
/-! A timer of a source ends, while the map of the rings lists one ring twice (R119, R124). -/

namespace Sys2Proof.Machine

open Sys2Proof Sys2Proof.Claims

/-- A container without messages whose backoff is over. -/
def backedOff : Held :=
  { id := 0, c := emptyContainer, msgs := [], planes := 1, plane := 0, direct := false, small := false, xtags := [], room := true
    shuttle := none, numbered := true, loc := .backoff 0, formedAt := 0, first := none, due := 0, tmo := 0, refls := 1
    retryUs := 1, maxTmo := 1, lifeUs := 1, reserve := 0 }

/-- The Plocen holds `backedOff`, port 0 is in service, and of the two entries of ring 0 the second has a deficit. -/
def doubledRing : State := { State.reset with
  ep := { State.reset.ep with
    regs := [(psBase .plocen 0 + 4, 2)], released := [(0, 0)], src := { held := [backedOff], nextId := 1 }
    rings := [(0, {}), (0, { sqTail := 7, deficit := 1 })] } }

/-- The end of the timer puts the second entry, without its deficit, in the place of both. -/
theorem sqTail_doubledRing : ((doubledRing.backoffEnd .plocen 0).unready.ring 0).sqTail = 7 := by decide +kernel

/-- Refutes O16: in a state whose map of rings is not in canonical form and lists ring 0 twice, a ring that is not ready takes the
values of its second entry when its deficit is cleared. -/
theorem not_sourceTimers : ¬ Obligations.SourceTimers := by
  intro h
  have hheld : doubledRing.held? .plocen 0 = some backedOff := by decide +kernel
  have hlive : doubledRing.epLive backedOff.plane = true := by decide +kernel
  obtain ⟨t, ht, -, hring, -⟩ := ((h doubledRing .plocen 0 backedOff hheld).1 0 rfl (Nat.zero_le _) rfl).1 rfl hlive
  have ht' : (doubledRing.backoffEnd .plocen 0).unready = t := Host.Outcome.next.inj ht
  have hkept : (t.ring 0).sqTail = (doubledRing.ring 0).sqTail := by rw [(hring 0).1]
  rw [← ht', sqTail_doubledRing] at hkept
  exact absurd hkept (by decide)

end Sys2Proof.Machine
end

section
/-! A ring is enabled, while the map of the rings lists another ring twice (R119, R126). -/

namespace Sys2Proof.Machine

open Sys2Proof Sys2Proof.Claims

/-- `doubledRing` with the attach link active: ring 1 can be enabled. -/
def doubledRingActive : State := { doubledRing with ep := { doubledRing.ep with att := { active := true } } }

/-- The write to CFG of ring 1 that enables it, as RING_ENABLE carries it out. -/
def doubledRingEnabled : State :=
  doubledRingActive.wrote .plocen (Reg.epRngCfg 1) 0x1000000 { origin := 0, requester := 0 } fun t => (t.ringCfg 1 0x1000000).unready

/-- Enabling ring 1 puts the second entry of ring 0, without its deficit, in the place of both. -/
theorem sqTail_doubledRingEnabled : (doubledRingEnabled.ring 0).sqTail = 7 := by decide +kernel

/-- Refutes O10: in a state whose map of rings is not in canonical form and lists ring 0 twice, enabling ring 1 gives ring 0 the values
of its second entry, where the deficit of a ring that is not ready is cleared. -/
theorem not_ringsEnabled : ¬ Obligations.RingsEnabled := by
  intro h
  have hon : doubledRingActive.ringOn 1 = false := by decide +kernel
  obtain ⟨t, ht, -, -, -, -, -, -, -, -, -, hring, -⟩ :=
    (h doubledRingActive 1).1 0x1000000#32 { origin := 0, requester := 0 } rfl hon rfl (by decide)
  have ht' : doubledRingEnabled = t := Host.Outcome.next.inj ht
  have hkept : (t.ring 0).sqTail = (doubledRingActive.ring 0).sqTail := by rw [(hring 0 (by decide)).1]
  rw [← ht', sqTail_doubledRingEnabled] at hkept
  exact absurd hkept (by decide)

end Sys2Proof.Machine
end

section
/-! What leaves translation, the shuttles and the hank counters as they are (R129, R133). -/

namespace Sys2Proof.Machine

open Sys2Proof Sys2Proof.Claims

/-- The translation unit, the shuttles with their micro-caches, and the hank counters. -/
def State.xltUnit (s : State) : Xlt × SMap Shuttle × SMap Nat := (s.ep.xlt, s.ep.shuttles, s.ep.hanks)

@[simp] theorem State.xltUnit_eq (s : State) : (s.ep.xlt, s.ep.shuttles, s.ep.hanks) = s.xltUnit := by rw [State.xltUnit]

@[simp] theorem State.xltUnit_mk (n f : Nat) (l : List Instr) (o : List Out) (m : SMap Byte) (r : Ronpex) (e : Plocen) :
    State.xltUnit { now := n, free := f, pending := l, out := o, hbm := m, rp := r, ep := e } = (e.xlt, e.shuttles, e.hanks) := by rw [State.xltUnit]

@[simp] theorem Plocen.setReg_hanks (r : Plocen) (a v : Nat) : (r.setReg a v).hanks = r.hanks := by rw [Plocen.setReg]

@[simp] theorem Plocen.setReg_shuttles (r : Plocen) (a v : Nat) : (r.setReg a v).shuttles = r.shuttles := by rw [Plocen.setReg]

@[simp] theorem Plocen.setReg_xlt (r : Plocen) (a v : Nat) : (r.setReg a v).xlt = r.xlt := by rw [Plocen.setReg]

@[simp] theorem State.xltUnit_ite (c : Prop) [Decidable c] (a b : State) :
    (if c then a else b).xltUnit = if c then a.xltUnit else b.xltUnit := by
  split <;> rfl

@[simp] theorem State.xltUnit_foldl {α : Type} (g : State → α → State) (h : ∀ t x, (g t x).xltUnit = t.xltUnit) (l : List α) (s : State) :
    (l.foldl g s).xltUnit = s.xltUnit := by
  induction l generalizing s with
  | nil => rfl
  | cons x r ih => rw [List.foldl_cons, ih, h]

theorem State.xltUnit_getD (o : Option State) (s : State) (h : ∀ t, o = some t → t.xltUnit = s.xltUnit) : (o.getD s).xltUnit = s.xltUnit := by
  cases o with
  | none => rfl
  | some t => exact h t rfl

/-! ### Machine/Ops -/

@[simp] theorem State.xltUnit_setReg (s : State) (a v : Nat) :
    (s.setReg .plocen a v).xltUnit = s.xltUnit := by
  unfold State.setReg
  simp

@[simp] theorem State.xltUnit_setFld (s : State) (a lo len v : Nat) :
    (s.setFld .plocen a lo len v).xltUnit = s.xltUnit := by
  unfold State.setFld
  simp

@[simp] theorem State.xltUnit_satFld (s : State) (a lo len n : Nat) :
    (s.satFld .plocen a lo len n).xltUnit = s.xltUnit := by
  unfold State.satFld
  simp

@[simp] theorem State.xltUnit_setSource (s : State) (x : Source) :
    (s.setSource .plocen x).xltUnit = s.xltUnit := by
  unfold State.setSource
  simp

@[simp] theorem State.xltUnit_emit (s : State) (o : Out) :
    (s.emit o).xltUnit = s.xltUnit := by
  unfold State.emit
  simp

/-! ### Machine/Send -/

@[simp] theorem State.xltUnit_hold (s : State) (dest skein plane planes : Nat) (loc : HeldAt) (m : Msg) (own : Owner) :
    (s.hold .plocen dest skein plane planes loc m own).1.xltUnit = s.xltUnit := by
  unfold State.hold
  simp

@[simp] theorem State.xltUnit_epMgmt (s : State) (plane : Nat) (m : Mgmt) :
    (s.epMgmt plane m).xltUnit = s.xltUnit := by
  unfold State.epMgmt
  simp

@[simp] theorem State.xltUnit_epMgmtLowest (s : State) (m : Mgmt) :
    (s.epMgmtLowest m).xltUnit = s.xltUnit := by
  unfold State.epMgmtLowest
  split <;> simp

@[simp] theorem State.xltUnit_epLog (s : State) (b : LogBody) :
    (s.epLog b).xltUnit = s.xltUnit := by
  unfold State.epLog
  simp

@[simp] theorem State.xltUnit_plog (s : State) (b : LogBody) :
    (s.plog .plocen b).xltUnit = s.xltUnit := by
  unfold State.plog
  simp

@[simp] theorem State.xltUnit_logWrite (s : State) (a v : Nat) (w : Writer) :
    (s.logWrite .plocen a v w).xltUnit = s.xltUnit := by
  unfold State.logWrite
  simp

/-! ### Machine/Flags -/

@[simp] theorem State.xltUnit_modAtt (s : State) (f : Attach → Attach) :
    (s.modAtt f).xltUnit = s.xltUnit := by
  unfold State.modAtt
  simp

@[simp] theorem State.xltUnit_sendFlit (s : State) (kind seq : Nat) (body : List (BitVec 128)) :
    (s.sendFlit kind seq body).xltUnit = s.xltUnit := by
  unfold State.sendFlit
  simp

@[simp] theorem State.xltUnit_sendChunks (n : Nat) (x : List (BitVec 128)) (s : State) :
    (s.sendChunks n x).xltUnit = s.xltUnit := by
  induction n generalizing x s with
  | zero => rfl
  | succ n ih =>
    unfold State.sendChunks
    repeat' (first | split | dsimp only)
    all_goals simp [ih]

@[simp] theorem State.xltUnit_sendTxn (s : State) (t : Txn) :
    (s.sendTxn t).xltUnit = s.xltUnit := by
  unfold State.sendTxn
  simp

@[simp] theorem State.xltUnit_pumpCpl (n : Nat) (s : State) :
    (s.pumpCpl n).xltUnit = s.xltUnit := by
  induction n generalizing s with
  | zero => rfl
  | succ n ih =>
    unfold State.pumpCpl
    repeat' (first | split | dsimp only)
    all_goals simp [ih]

@[simp] theorem State.xltUnit_complete (s : State) (rid tag addr status len : Nat) (data : List Byte) :
    (s.complete rid tag addr status len data).xltUnit = s.xltUnit := by
  unfold State.complete
  simp

@[simp] theorem State.xltUnit_pump (n : Nat) (s : State) :
    (s.pump n).xltUnit = s.xltUnit := by
  induction n generalizing s with
  | zero => rfl
  | succ n ih =>
    unfold State.pump
    repeat' (first | split | dsimp only)
    all_goals simp [ih]

@[simp] theorem State.xltUnit_request (s : State) (l : List AttReq) :
    (s.request l).xltUnit = s.xltUnit := by
  unfold State.request
  simp

/-! ### Machine/RingOps -/

@[simp] theorem State.xltUnit_modRing (s : State) (n : Nat) (f : Ring → Ring) :
    (s.modRing n f).xltUnit = s.xltUnit := by
  unfold State.modRing
  simp

@[simp] theorem State.xltUnit_postCompletion (s : State) (n sub code info cookie : Nat) :
    (s.postCompletion n sub code info cookie).xltUnit = s.xltUnit := by
  unfold State.postCompletion
  simp

@[simp] theorem State.xltUnit_modAct (s : State) (n sub : Nat) (f : Act → Act) :
    (s.modAct n sub f).xltUnit = s.xltUnit := by
  unfold State.modAct
  simp

@[simp] theorem State.xltUnit_dropFront (s : State) (n : Nat) :
    (s.dropFront n).xltUnit = s.xltUnit := by
  unfold State.dropFront
  simp

@[simp] theorem State.xltUnit_settleFront (n : Nat) (s : State) (x : Nat) :
    (s.settleFront n x).xltUnit = s.xltUnit := by
  induction n generalizing s x with
  | zero => rfl
  | succ n ih =>
    unfold State.settleFront
    repeat' (first | split | dsimp only)
    all_goals simp [ih]

@[simp] theorem State.xltUnit_settleRing (s : State) (n : Nat) :
    (s.settleRing n).xltUnit = s.xltUnit := by
  unfold State.settleRing
  simp

@[simp] theorem State.xltUnit_failAct (s : State) (n sub code info : Nat) :
    (s.failAct n sub code info).xltUnit = s.xltUnit := by
  unfold State.failAct
  split <;> simp

@[simp] theorem State.xltUnit_settleFences (s : State) :
    s.settleFences.xltUnit = s.xltUnit := by
  unfold State.settleFences
  simp

@[simp] theorem State.xltUnit_storeDone (s : State) (id : Nat) (lost : Bool) :
    (s.storeDone id lost).xltUnit = s.xltUnit := by
  unfold State.storeDone
  simp

@[simp] theorem State.xltUnit_loadDone (s : State) (id status : Nat) (data : List Byte) :
    (s.loadDone id status data).xltUnit = s.xltUnit := by
  unfold State.loadDone
  split <;> simp

/-! ### Machine/XltOps -/

@[simp] theorem State.xltUnit_dropDirect (s : State) (d : DMiss) :
    (s.dropDirect d).xltUnit = s.xltUnit := by
  unfold State.dropDirect
  simp

/-! ### Machine/Ready -/

@[simp] theorem State.xltUnit_unready (s : State) :
    s.unready.xltUnit = s.xltUnit := by
  unfold State.unready
  simp

end Sys2Proof.Machine
end

section
/-! Fill records of translation (R130, R133, R137-R139, R142-R146). -/

namespace Sys2Proof.Machine

open Sys2Proof Sys2Proof.Claims

/-! ### Records posted in the miss ring -/

/-- From `s` to `t` records have been posted in the miss ring, or held for it, and fill records taken: the extents, the micro-caches and
the numbers of the misses are as they were. -/
structure State.Posted (s t : State) : Prop where
  frame : t = { s with out := t.out, ep := { s.ep with att := t.ep.att, xlt := { s.ep.xlt with
    missTail := t.ep.xlt.missTail, written := t.ep.xlt.written, misses := t.ep.xlt.misses, held := t.ep.xlt.held
    fetched := t.ep.xlt.fetched } } }
  ids : t.ep.xlt.misses.map Miss.id = s.ep.xlt.misses.map Miss.id

theorem State.Posted.refl (s : State) : s.Posted s := ⟨rfl, rfl⟩

theorem State.Posted.trans {s t u : State} (h : s.Posted t) (k : t.Posted u) : s.Posted u where
  frame := by
    have hst := h.frame
    have htu := k.frame
    rw [hst] at htu
    exact htu
  ids := k.ids.trans h.ids

theorem State.posted_request (s : State) (l : List AttReq) : s.Posted (s.request l) := by
  obtain ⟨a, o, h⟩ := s.request_only l
  rw [h]
  exact ⟨rfl, rfl⟩

theorem State.posted_writeMiss (s : State) (r : MissRec) : s.Posted (s.writeMiss r) := by
  refine .trans ?_ (State.posted_request _ _)
  refine ⟨rfl, ?_⟩
  rw [State.modXlt, List.map_map]
  refine List.map_congr_left fun m _ => ?_
  rw [Function.comp]
  split <;> rfl

theorem State.posted_postMiss (s : State) (r : MissRec) : s.Posted (s.postMiss r) := by
  unfold State.postMiss
  split
  · exact .refl s
  · split
    · exact s.posted_writeMiss r
    · exact ⟨rfl, rfl⟩

theorem State.posted_postAnswer (s : State) (type tag fill info : Nat) : s.Posted (s.postAnswer type tag fill info) :=
  s.posted_postMiss _

theorem State.posted_dropFill (s : State) : s.Posted s.dropFill := ⟨rfl, rfl⟩

theorem State.posted_settleFillsFrom (k : Nat) (s : State) : s.Posted (s.settleFillsFrom k) := by
  induction k generalizing s with
  | zero => exact .refl s
  | succ k ih =>
    rw [State.settleFillsFrom]
    split
    · exact .refl s
    · split
      · exact .refl s
      · exact (s.posted_dropFill.trans (State.posted_postAnswer _ _ _ _ _)).trans (ih _)

theorem State.posted_settleFills (s : State) : s.Posted s.settleFills := State.posted_settleFillsFrom _ s

/-- With no fill record waiting there is nothing to settle. -/
theorem State.settleFills_empty {s : State} (h : s.ep.xlt.fetched = []) : s.settleFills = s := by rw [State.settleFills, h]; rfl

theorem State.fetched_request (s : State) (l : List AttReq) : (s.request l).ep.xlt = s.ep.xlt := by
  obtain ⟨a, o, h⟩ := s.request_only l
  rw [h]

@[simp] theorem State.fetched_postAnswer (s : State) (type tag fill info : Nat) :
    (s.postAnswer type tag fill info).ep.xlt.fetched = s.ep.xlt.fetched := by
  unfold State.postAnswer State.postMiss
  split
  · rfl
  · split
    · unfold State.writeMiss
      dsimp only
      rw [State.fetched_request]
      rfl
    · rfl

/-- An answer posted while no fill record waits. -/
theorem State.settleFills_postAnswer {s : State} (h : s.ep.xlt.fetched = []) (type tag fill info : Nat) :
    (s.postAnswer type tag fill info).settleFills = s.postAnswer type tag fill info :=
  State.settleFills_empty ((s.fetched_postAnswer type tag fill info).trans h)

theorem State.Posted.micro {s t : State} (h : s.Posted t) (m : Nat) : t.micro m = s.micro m := by rw [h.frame]; rfl

theorem State.Posted.outExt {s t : State} (h : s.Posted t) : t.ep.xlt.outExt = s.ep.xlt.outExt := by rw [h.frame]

theorem State.Posted.inExt {s t : State} (h : s.Posted t) : t.ep.xlt.inExt = s.ep.xlt.inExt := by rw [h.frame]

theorem State.Posted.drains {s t : State} (h : s.Posted t) : t.ep.xlt.drains = s.ep.xlt.drains := by rw [h.frame]

theorem State.Posted.inv {s t : State} (h : s.Posted t) : t.ep.xlt.inv = s.ep.xlt.inv := by rw [h.frame]

theorem State.Posted.onlyXlt {s t : State} (h : s.Posted t) : onlyXlt s t := by rw [h.frame]; rfl

theorem onlyXlt_trans {s t u : State} (h : onlyXlt s t) (k : onlyXlt t u) : onlyXlt s u := by
  unfold onlyXlt at h k
  rw [h] at k
  exact k

theorem onlyXltMicro_trans {s t u : State} (h : onlyXltMicro s t) (k : onlyXltMicro t u) : onlyXltMicro s u := by
  unfold onlyXltMicro at h k
  rw [h] at k
  exact k

theorem onlyXltMicro_of_onlyXlt {s t : State} (h : onlyXlt s t) : onlyXltMicro s t := by
  unfold onlyXlt at h
  rw [h]
  rfl

/-! ### The one fill record that waits -/

theorem State.fillFront_ready {s : State} {c w op : Nat} (h : fillReady s c w op) : s.fillFront = some (c, w) := by
  obtain ⟨hfetched, hinv, hremoval, hactive, -⟩ := h
  simp [State.fillFront, hfetched, hinv, hremoval, hactive]

theorem fetched_dropFill {s : State} {c w op : Nat} (h : fillReady s c w op) : s.dropFill.ep.xlt.fetched = [] := by
  obtain ⟨hfetched, -⟩ := h
  rw [State.dropFill, State.modXlt, hfetched]
  rfl

theorem xlt_dropFill {s : State} {c w op : Nat} (h : fillReady s c w op) : s.dropFill.ep.xlt = { s.ep.xlt with fetched := [] } := by
  rw [← fetched_dropFill h]
  rfl

section
variable {s : State} {c w : Nat}

theorem State.doFill_nop (h : fillReady s c w 0) : s.doFill 0 = s.dropFill := by
  have hfront := State.fillFront_ready h
  have hempty := State.settleFills_empty (fetched_dropFill h)
  obtain ⟨-, -, -, -, hop, -⟩ := h
  simp [State.doFill, hfront, hop, hempty]

/-- What a fill record of operation `op` does that is well formed and in range. -/
def State.fillOp (s : State) (op c w : Nat) : State :=
  match op with
  | 1 => s.doFillOut c (fillOf w)
  | 2 => s.doFillIn c (fillOf w)
  | 3 => s.doFillFault c (fillOf w)
  | 4 => s.doInvTag c (fillOf w)
  | 5 => s.doInvRange c w (fillOf w)
  | _ => s.doRemoveIn c (fillOf w)

theorem State.doFill_ready {op : Nat} (h : fillReady s c w op) (h0 : op ≠ 0) : s.doFill op = (s.fillOp op c w).settleFills := by
  have hfront := State.fillFront_ready h
  obtain ⟨-, -, -, -, hop, hform, hrange⟩ := h
  simp only [State.doFill, hfront, hop, hform, hrange, h0, ne_eq, not_true_eq_false, Bool.false_eq_true, if_false]
  rfl

/-- A record is rejected by the reason `reason` where its own operation finds one (R138). -/
theorem State.rejectFill_ready {op : Nat} (h : fillReady s c w op) (reason : Nat) :
    (s.rejectFill c (fillOf w) reason).settleFills = s.dropFill.postAnswer 0x12 ((fillOf w).tag % 4096) c reason :=
  State.settleFills_postAnswer (fetched_dropFill h) _ _ _ _

end

/-! ### A miss ends -/

theorem State.xltUnit_xlt {s t : State} (h : t.xltUnit = s.xltUnit) : t.ep.xlt = s.ep.xlt := congrArg Prod.fst h

theorem State.xltUnit_shuttles {s t : State} (h : t.xltUnit = s.xltUnit) : t.ep.shuttles = s.ep.shuttles :=
  congrArg (fun x => x.2.1) h

theorem State.xltUnit_hanks {s t : State} (h : t.xltUnit = s.xltUnit) : t.ep.hanks = s.ep.hanks := congrArg (fun x => x.2.2) h

/-- The shuttle holds no burst and is stalled on no miss. -/
def Shuttle.idle (x : Shuttle) : Prop := x.burst = none ∧ x.miss = none

/-- A shuttle is as before, or its burst and its stall are gone. -/
def Shuttle.Cleared (x y : Shuttle) : Prop := y = x ∨ y = { x with burst := none, miss := none }

theorem Shuttle.Cleared.trans {x y z : Shuttle} (h : x.Cleared y) (k : y.Cleared z) : x.Cleared z := by
  rcases h with rfl | rfl
  · exact k
  · rcases k with rfl | rfl <;> exact .inr rfl

theorem Shuttle.Cleared.idle {x y : Shuttle} (h : x.Cleared y) (hx : x.idle) : y.idle := by
  rcases h with rfl | rfl
  · exact hx
  · exact ⟨rfl, rfl⟩

theorem Shuttle.Cleared.stalled {x y : Shuttle} (h : x.Cleared y) {id : Nat} (hx : x.miss = some id) : y.miss = some id ∨ y.idle := by
  rcases h with rfl | rfl
  · exact .inl hx
  · exact .inr ⟨rfl, rfl⟩

/-- From `s` to `t` only misses have ended in the translation unit: what waited on them has been dropped, and bursts cleared. -/
structure State.Ended (s t : State) : Prop where
  xlt : t.ep.xlt = { s.ep.xlt with misses := t.ep.xlt.misses, drop := t.ep.xlt.drop }
  misses : t.ep.xlt.misses ⊆ s.ep.xlt.misses
  hanks : t.ep.hanks = s.ep.hanks
  cleared : ∀ k, (s.shuttle k).Cleared (t.shuttle k)

theorem State.Ended.trans {s t u : State} (h : s.Ended t) (k : t.Ended u) : s.Ended u where
  xlt := by
    have hst := h.xlt
    have htu := k.xlt
    rw [hst] at htu
    exact htu
  misses := List.Subset.trans k.misses h.misses
  hanks := k.hanks.trans h.hanks
  cleared := fun n => (h.cleared n).trans (k.cleared n)

theorem State.ended_of_xltUnit {s t : State} (h : t.xltUnit = s.xltUnit) : s.Ended t := by
  have hxlt := State.xltUnit_xlt h
  refine ⟨by rw [hxlt], by rw [hxlt]; exact List.Subset.refl _, State.xltUnit_hanks h, fun k => .inl ?_⟩
  rw [State.shuttle, State.xltUnit_shuttles h]
  rfl

theorem State.Ended.refl (s : State) : s.Ended s := State.ended_of_xltUnit rfl

theorem State.Ended.foldl {α : Type} (f : State → α → State) (hf : ∀ (t : State) x, t.Ended (f t x)) (l : List α) (s : State) :
    s.Ended (l.foldl f s) := by
  induction l generalizing s with
  | nil => exact .refl s
  | cons x l ih => exact (hf s x).trans (ih _)

/-- A change of one shuttle that clears it. -/
theorem Shuttle.cleared_put {m : SMap Shuttle} {k : Nat} {y : Shuttle} (h : (SMap.look (fun _ => {}) m k).Cleared y) (n : Nat) :
    (SMap.look (fun _ => {}) m n).Cleared (SMap.look (fun _ => {}) (SMap.put (fun _ => {}) m k y) n) := by
  by_cases hn : n = k
  · rw [hn, SMap.look_put_same]
    exact h
  · rw [SMap.look_put_other _ _ _ _ _ hn]
    exact .inl rfl

theorem endBursts_cleared (m : SMap Shuttle) (r sub n : Nat) :
    (SMap.look (fun _ => {}) m n : Shuttle).Cleared (SMap.look (fun _ => {}) (endBursts m r sub) n) := by
  unfold endBursts
  induction List.range 16 generalizing m with
  | nil => exact .inl rfl
  | cons k l ih =>
    rw [List.foldl_cons]
    refine .trans ?_ (ih _)
    dsimp only
    split
    · exact Shuttle.cleared_put (.inr rfl) n
    · exact .inl rfl

theorem State.Ended.ite {s a b : State} {c : Prop} [Decidable c] (ha : s.Ended a) (hb : s.Ended b) : s.Ended (if c then a else b) := by
  split
  · exact ha
  · exact hb

/-- A started descriptor is no longer listed, and its bursts are gone. -/
def State.actGone (s : State) (n sub : Nat) : State :=
  { s with ep := { s.ep with
    acts := s.ep.acts.filter fun x => !(x.ring == n && x.sub == sub), shuttles := endBursts s.ep.shuttles n sub } }

theorem State.shuttles_actGone (s : State) (n sub : Nat) : (s.actGone n sub).ep.shuttles = endBursts s.ep.shuttles n sub := by
  rw [State.actGone]

theorem State.ended_actGone (s : State) (n sub : Nat) : s.Ended (s.actGone n sub) where
  xlt := rfl
  misses := List.Subset.refl _
  hanks := rfl
  cleared := fun k => by
    rw [State.shuttle, State.shuttle, State.shuttles_actGone]
    exact endBursts_cleared _ _ _ _

theorem State.ended_settleAct (s : State) (n sub : Nat) : s.Ended (s.settleAct n sub) := by
  unfold State.settleAct
  dsimp only
  split
  · exact .refl s
  · exact .ite (.refl s) ((s.ended_actGone n sub).trans (State.ended_of_xltUnit
      ((State.xltUnit_settleRing _ n).trans (State.xltUnit_postCompletion (s.actGone n sub) n sub _ _ _))))

theorem State.ended_modShuttle {s : State} {k : Nat} {f : Shuttle → Shuttle} (h : (s.shuttle k).Cleared (f (s.shuttle k))) :
    s.Ended (s.modShuttle k f) := ⟨rfl, List.Subset.refl _, rfl, Shuttle.cleared_put h⟩

/-- The bursts that wait on a miss end with fault 3, and their shuttles are free. -/
def State.endStall (s : State) (id info k : Nat) : State :=
  if (s.shuttle k).miss = some id then
    match (s.shuttle k).burst with
    | some b =>
      ((s.modShuttle k fun x => { x with burst := none, miss := none }).failAct b.ring b.sub 3 info).settleAct b.ring b.sub
    | none => s.modShuttle k fun x => { x with miss := none }
  else s

theorem State.endMiss_eq {s : State} {id : Nat} {m : Miss} (h : (s.ep.xlt.misses.find? fun m => m.id == id) = some m) :
    s.endMiss id = m.direct.foldl (fun t d => (t.modXlt fun x => { x with drop := satAdd 32 x.drop 1 }).dropDirect d)
      ((List.range 16).foldl (fun t k => t.endStall id (m.count.getD 0xFFFFFFFF) k)
        (s.modXlt fun x => { x with misses := x.misses.filter fun y => y.id != id })) := by
  rw [State.endMiss, h]
  rfl

theorem State.ended_endStall (s : State) (id info k : Nat) : s.Ended (s.endStall id info k) := by
  unfold State.endStall
  split
  · split
    · refine .trans (.trans ?_ (State.ended_of_xltUnit (State.xltUnit_failAct _ _ _ _ _))) (State.ended_settleAct _ _ _)
      exact State.ended_modShuttle (.inr rfl)
    · next hburst =>
      refine State.ended_modShuttle (.inr ?_)
      rw [← hburst]
  · exact .refl s

/-- After its turn a shuttle that was stalled on the miss is idle. -/
theorem State.idle_endStall {s : State} {id : Nat} {k : Nat} (h : (s.shuttle k).miss = some id) (info : Nat) :
    ((s.endStall id info k).shuttle k).idle := by
  rw [State.endStall, if_pos h]
  split
  · refine Shuttle.Cleared.idle (State.Ended.cleared (.trans (State.ended_of_xltUnit (State.xltUnit_failAct _ _ _ _ _))
      (State.ended_settleAct _ _ _)) k) ?_
    rw [State.shuttle, State.modShuttle, SMap.look_put_same]
    exact ⟨rfl, rfl⟩
  · next hburst =>
    rw [State.shuttle, State.modShuttle, SMap.look_put_same]
    exact ⟨hburst, rfl⟩

theorem State.idle_foldl_endStall (id info k : Nat) (l : List Nat) (s : State) (hk : k ∈ l) (h : (s.shuttle k).miss = some id) :
    ((l.foldl (fun t k => t.endStall id info k) s).shuttle k).idle := by
  induction l generalizing s with
  | nil => exact absurd hk (by simp)
  | cons j l ih =>
    have hrest : ∀ t : State, t.Ended (l.foldl (fun t k => t.endStall id info k) t) := .foldl _ (fun t k => t.ended_endStall id info k) l
    rw [List.foldl_cons]
    by_cases hj : k = j
    · exact Shuttle.Cleared.idle ((hrest _).cleared k) (hj ▸ State.idle_endStall (hj ▸ h) info)
    · rcases ((s.ended_endStall id info j).cleared k).stalled h with hstill | hidle
      · exact ih _ ((List.mem_cons.1 hk).resolve_left hj) hstill
      · exact Shuttle.Cleared.idle ((hrest _).cleared k) hidle

theorem State.ended_dropMiss (s : State) (id : Nat) :
    s.Ended (s.modXlt fun x => { x with misses := x.misses.filter fun y => y.id != id }) :=
  ⟨rfl, List.filter_subset_self _, rfl, fun _ => .inl rfl⟩

theorem State.ended_dropDirects (l : List DMiss) (s : State) :
    s.Ended (l.foldl (fun t d => (t.modXlt fun x => { x with drop := satAdd 32 x.drop 1 }).dropDirect d) s) :=
  .foldl _ (fun t _ => .trans (t := t.modXlt fun x => { x with drop := satAdd 32 x.drop 1 }) ⟨rfl, List.Subset.refl _, rfl, fun _ => .inl rfl⟩
    (State.ended_of_xltUnit (State.xltUnit_dropDirect _ _))) l s

/-- What follows the removal of the miss. -/
theorem State.ended_afterMiss {s : State} {id : Nat} {m : Miss} (h : (s.ep.xlt.misses.find? fun m => m.id == id) = some m) :
    State.Ended (s.modXlt fun x => { x with misses := x.misses.filter fun y => y.id != id }) (s.endMiss id) := by
  rw [State.endMiss_eq h]
  exact .trans (.foldl _ (fun t k => t.ended_endStall id _ k) _ _) (State.ended_dropDirects _ _)

theorem State.ended_endMiss (s : State) (id : Nat) : s.Ended (s.endMiss id) := by
  cases h : s.ep.xlt.misses.find? fun m => m.id == id with
  | none =>
    rw [State.endMiss, h]
    exact .refl s
  | some m => exact (s.ended_dropMiss id).trans (State.ended_afterMiss h)

theorem State.missing_endMiss (s : State) (id : Nat) : ∀ x ∈ (s.endMiss id).ep.xlt.misses, x.id ≠ id := by
  intro x hx
  cases h : s.ep.xlt.misses.find? fun m => m.id == id with
  | none =>
    rw [State.endMiss, h] at hx
    exact fun hid => List.find?_eq_none.1 h x hx (by simp [hid])
  | some m =>
    have := (State.ended_afterMiss h).misses hx
    simpa using (List.mem_filter.1 this).2

theorem State.idle_endMiss {s : State} {id k : Nat} {m : Miss} (h : (s.ep.xlt.misses.find? fun m => m.id == id) = some m) (hk : k < 16)
    (hmiss : (s.shuttle k).miss = some id) : ((s.endMiss id).shuttle k).idle := by
  rw [State.endMiss_eq h]
  exact Shuttle.Cleared.idle ((State.ended_dropDirects _ _).cleared k)
    (State.idle_foldl_endStall id _ k _ _ (List.mem_range.2 hk) hmiss)

/-! ### The micro-caches -/

theorem State.micro_setMicro_same (s : State) {m : Nat} (l : List OutExt) : (s.setMicro m l).micro m = l := by
  unfold State.setMicro State.micro
  split
  · rw [State.shuttle, State.modShuttle, SMap.look_put_same]
  · rfl

theorem State.micro_setMicro_other (s : State) {m k : Nat} (l : List OutExt) (hm : m < 17) (hk : k < 17) (h : k ≠ m) :
    (s.setMicro m l).micro k = s.micro k := by
  unfold State.setMicro State.micro
  split
  · split
    · rw [State.shuttle, State.modShuttle, SMap.look_put_other _ _ _ _ _ h]
      rfl
    · rfl
  · split
    · rfl
    · omega

theorem State.micro_foldl_setMicro (f : List OutExt → List OutExt) (l : List Nat) (hl : l.Nodup) (hlt : ∀ m ∈ l, m < 17) (s : State)
    {k : Nat} (hk : k < 17) :
    (l.foldl (fun t m => t.setMicro m (f (t.micro m))) s).micro k = if k ∈ l then f (s.micro k) else s.micro k := by
  induction l generalizing s with
  | nil => simp
  | cons m l ih =>
    obtain ⟨hm, hl⟩ := List.nodup_cons.1 hl
    rw [List.foldl_cons, ih hl (fun n hn => hlt n (List.mem_cons_of_mem _ hn))]
    by_cases hkm : k = m
    · rw [hkm, if_neg hm, State.micro_setMicro_same, if_pos (List.mem_cons_self ..)]
    · rw [State.micro_setMicro_other s _ (hlt m (List.mem_cons_self ..)) hk hkm]
      simp [hkm]

theorem State.setMicro_only (s : State) (m : Nat) (l : List OutExt) : s.setMicro m l
    = { s with ep := { s.ep with shuttles := (s.setMicro m l).ep.shuttles, xlt := { s.ep.xlt with dMicro := (s.setMicro m l).ep.xlt.dMicro } } } := by
  unfold State.setMicro
  split <;> rfl

/-- The micro-caches change, and nothing else. -/
def onlyMicro (s t : State) : Prop :=
  t = { s with ep := { s.ep with shuttles := t.ep.shuttles, xlt := { s.ep.xlt with dMicro := t.ep.xlt.dMicro } } }

theorem onlyMicro_trans {s t u : State} (h : onlyMicro s t) (k : onlyMicro t u) : onlyMicro s u := by
  unfold onlyMicro at h k
  rw [h] at k
  exact k

theorem onlyMicro_foldl (f : State → Nat → List OutExt) (l : List Nat) (s : State) :
    onlyMicro s (l.foldl (fun t m => t.setMicro m (f t m)) s) := by
  induction l generalizing s with
  | nil => rfl
  | cons m l ih => exact onlyMicro_trans (s.setMicro_only m (f s m)) (ih _)

/-! ### Fills -/

section
variable {s : State} {c w : Nat}

/-- The outbound extent of a fill record. -/
def Fill.outExt (f : Fill) : OutExt :=
  { tag := f.tag, start := f.start, pages := f.pages, target := f.target, ttag := f.ttag, perm := f.perm }

/-- The inbound extent of a fill record. -/
def Fill.inExt (f : Fill) : InExt :=
  { tag := f.tag, skein := f.ttag, start := f.start, pages := f.pages, attach := f.target, perm := f.perm }

/-- The state in which an outbound fill has installed its extent. -/
def State.filledOut (s : State) (f : Fill) : State := s.dropFill.modXlt fun x => { x with outExt := x.outExt ++ [f.outExt] }.trim

/-- The state in which an inbound fill has installed its extent. -/
def State.filledIn (s : State) (f : Fill) : State := s.dropFill.modXlt fun x => { x with inExt := x.inExt ++ [f.inExt] }.trim

theorem Xlt.trim_eq (x : Xlt) : x.trim = { x with outExt := x.outExt.drop (if 4096 < x.outExt.length + x.inExt.length then 1 else 0) } := by
  unfold Xlt.trim
  split
  · rfl
  · rfl

theorem State.filledOut_xlt (h : fillReady s c w 1) :
    (s.filledOut (fillOf w)).ep.xlt = { s.ep.xlt with
      fetched := []
      outExt := (s.ep.xlt.outExt ++ [(fillOf w).outExt]).drop
        (if 4096 < s.ep.xlt.outExt.length + 1 + s.ep.xlt.inExt.length then 1 else 0) } := by
  rw [State.filledOut, State.modXlt, xlt_dropFill h, Xlt.trim_eq]
  simp only [List.length_append, List.length_singleton]

theorem State.filledIn_xlt (h : fillReady s c w 2) :
    (s.filledIn (fillOf w)).ep.xlt = { s.ep.xlt with
      fetched := [], inExt := s.ep.xlt.inExt ++ [(fillOf w).inExt]
      outExt := s.ep.xlt.outExt.drop (if 4096 < s.ep.xlt.outExt.length + 1 + s.ep.xlt.inExt.length then 1 else 0) } := by
  rw [State.filledIn, State.modXlt, xlt_dropFill h, Xlt.trim_eq]
  simp only [List.length_append, List.length_singleton, Nat.add_assoc, Nat.add_comm 1]

theorem State.onlyXlt_filledOut (f : Fill) : onlyXlt s (s.filledOut f) := rfl

theorem State.onlyXlt_filledIn (f : Fill) : onlyXlt s (s.filledIn f) := rfl

theorem State.doFillFault_found {f : Fill} {m : Miss}
    (h : (s.ep.xlt.misses.find? fun m => m.count == some f.miss && s.missWaits m) = some m) :
    s.doFillFault c f = (s.dropFill.endMiss m.id).unready := by
  rw [State.doFillFault, h]

theorem State.doFillFault_none {f : Fill} (h : (s.ep.xlt.misses.find? fun m => m.count == some f.miss && s.missWaits m) = none) :
    s.doFillFault c f = s.rejectFill c f 5 := by
  rw [State.doFillFault, h]

theorem State.missing_settleFills {id : Nat} (h : ∀ x ∈ s.ep.xlt.misses, x.id ≠ id) : ∀ x ∈ s.settleFills.ep.xlt.misses, x.id ≠ id := by
  intro x hx
  have hid : x.id ∈ s.ep.xlt.misses.map Miss.id := s.posted_settleFills.ids ▸ List.mem_map_of_mem hx
  obtain ⟨y, hy, hxy⟩ := List.mem_map.1 hid
  exact hxy ▸ h y hy

end

/-- Settles O11, by the operation of the one fill record that waits: with no record behind it, what follows it has nothing to settle. -/
theorem fills : Obligations.Fills := by
  intro s c w
  refine ⟨fun h => ?_, fun h hover => ?_, fun h hover hroom => ?_, fun h hover => ?_, fun m h hm => ?_, fun h hm => ?_⟩
  · exact ⟨s.doFill 0, rfl, by rw [State.doFill_nop h, xlt_dropFill h], by rw [State.doFill_nop h]; rfl⟩
  · refine ⟨s.filledOut (fillOf w), ?_, ?_, ?_, State.onlyXlt_filledOut _⟩
    · show Host.Outcome.next (s.doFill 1) = _
      rw [State.doFill_ready h (by decide), State.fillOp, State.doFillOut, if_neg (by simp [hover])]
      rfl
    · rw [State.filledOut_xlt h]
      rfl
    · rw [State.filledOut_xlt h]
  · have hdone : s.doFill 2 = s.filledIn (fillOf w) := by
      rw [State.doFill_ready h (by decide), State.fillOp, State.doFillIn, if_neg (by simp [hover]), if_neg (Nat.not_le.2 hroom)]
      exact State.settleFills_empty (s := s.filledIn (fillOf w)) (by rw [State.filledIn_xlt h])
    refine ⟨s.filledIn (fillOf w), congrArg _ hdone, ?_, ?_, ?_, State.onlyXlt_filledIn _⟩
    · rw [State.filledIn_xlt h]
      rfl
    · rw [State.filledIn_xlt h]
    · rw [State.filledIn_xlt h]
  · refine ⟨s.dropFill, ?_, xlt_dropFill h, rfl⟩
    show Host.Outcome.next (s.doFill 1) = _
    rw [State.doFill_ready h (by decide), State.fillOp, State.doFillOut, if_pos hover, State.rejectFill_ready h]
  · refine ⟨?_, State.missing_settleFills fun x hx => s.dropFill.missing_endMiss m.id x ?_⟩
    · show Host.Outcome.next (s.doFill 3) = _
      rw [State.doFill_ready h (by decide), State.fillOp, State.doFillFault_found hm]
    · rwa [State.xltUnit_xlt (State.xltUnit_unready _)] at hx
  · refine ⟨s.dropFill, ?_, xlt_dropFill h, rfl⟩
    show Host.Outcome.next (s.doFill 3) = _
    rw [State.doFill_ready h (by decide), State.fillOp, State.doFillFault_none hm, State.rejectFill_ready h]

end Sys2Proof.Machine
end

section
/-! Invalidation of extents (R142-R146). -/

namespace Sys2Proof.Machine

open Sys2Proof Sys2Proof.Claims

section
variable {s : State} {c w : Nat}

/-! ### INV_TAG -/

/-- The outbound extents of a tag are gone from the extent cache. -/
def State.untagged (s : State) (tag : Nat) : State := s.dropFill.modXlt fun x => { x with outExt := x.outExt.filter fun e => e.tag != tag }

/-- They are gone from the micro-caches too. -/
def State.untaggedMicro (s : State) (tag : Nat) : State :=
  (List.range 17).foldl (fun t m => t.setMicro m ((t.micro m).filter fun e => e.tag != tag)) (s.untagged tag)

theorem State.micro_untaggedMicro (s : State) (tag : Nat) {m : Nat} (hm : m < 17) :
    (s.untaggedMicro tag).micro m = (s.micro m).filter fun e => e.tag != tag := by
  rw [State.untaggedMicro, State.micro_foldl_setMicro (fun l => l.filter fun e => e.tag != tag) _ List.nodup_range
    (fun n hn => List.mem_range.1 hn) _ hm, if_pos (List.mem_range.2 hm)]
  rfl

theorem State.onlyMicro_untaggedMicro (s : State) (tag : Nat) : onlyMicro (s.untagged tag) (s.untaggedMicro tag) :=
  onlyMicro_foldl _ _ _

theorem onlyMicro.xlt {s t : State} (h : onlyMicro s t) : t.ep.xlt = { s.ep.xlt with dMicro := t.ep.xlt.dMicro } := by
  unfold onlyMicro at h
  rw [h]

theorem onlyMicro.onlyXltMicro {s t : State} (h : onlyMicro s t) : onlyXltMicro s t := by
  unfold onlyMicro at h
  rw [h]
  rfl

theorem State.openOf_congr {s t : State} (h : t.ep.src = s.ep.src) (tag : Nat) : t.openOf tag = s.openOf tag := by
  rw [State.openOf, State.openOf, h]

theorem State.Posted.src {s t : State} (h : s.Posted t) : t.ep.src = s.ep.src := by rw [h.frame]

theorem State.addDrain_eq (s : State) (c : Nat) (f : Fill) : s.addDrain c f
    = s.modXlt fun x => { x with drains := x.drains ++ if f.drain then [(c, f.tag, s.openOf f.tag, true)] else [] } := by
  unfold State.addDrain
  split
  · rfl
  · rw [State.modXlt, List.append_nil]

theorem State.doFill_invTag (h : fillReady s c w 4) :
    s.doFill 4 = ((s.untaggedMicro (fillOf w).tag).postAnswer 0x10 (fillOf w).tag c 0x1FFFF).addDrain c (fillOf w) := by
  rw [State.doFill_ready h (by decide), State.fillOp]
  refine State.settleFills_empty ?_
  rw [State.doInvTag, State.addDrain_eq]
  refine (State.fetched_postAnswer _ _ _ _ _).trans ?_
  refine (congrArg Xlt.fetched (s.onlyMicro_untaggedMicro (fillOf w).tag).xlt).trans ?_
  exact fetched_dropFill h

theorem doFill_invTag_after (h : fillReady s c w 4) :
    (s.doFill 4).ep.xlt.outExt = s.ep.xlt.outExt.filter (fun e => e.tag != (fillOf w).tag)
      ∧ (∀ m < 17, (s.doFill 4).micro m = (s.micro m).filter fun e => e.tag != (fillOf w).tag)
      ∧ (s.doFill 4).ep.xlt.inExt = s.ep.xlt.inExt
      ∧ (s.doFill 4).ep.xlt.drains
          = s.ep.xlt.drains ++ (if (fillOf w).drain then [(c, (fillOf w).tag, s.openOf (fillOf w).tag, true)] else [])
      ∧ onlyXltMicro s (s.doFill 4) := by
  have hmicro := s.onlyMicro_untaggedMicro (fillOf w).tag
  have hpost := (s.untaggedMicro (fillOf w).tag).posted_postAnswer 0x10 (fillOf w).tag c 0x1FFFF
  have hsrc : ((s.untaggedMicro (fillOf w).tag).postAnswer 0x10 (fillOf w).tag c 0x1FFFF).ep.src = s.ep.src := by
    rw [hpost.src, hmicro]
    rfl
  rw [State.doFill_invTag h, State.addDrain_eq, State.openOf_congr hsrc]
  refine ⟨?_, fun m hm => ?_, ?_, ?_, ?_⟩
  · exact hpost.outExt.trans (congrArg Xlt.outExt hmicro.xlt)
  · exact (hpost.micro m).trans (s.micro_untaggedMicro _ hm)
  · exact hpost.inExt.trans ((congrArg Xlt.inExt hmicro.xlt).trans rfl)
  · exact congrArg (· ++ _) (hpost.drains.trans ((congrArg Xlt.drains hmicro.xlt).trans rfl))
  · have huntag : onlyXltMicro s (s.untagged (fillOf w).tag) := rfl
    refine onlyXltMicro_trans (onlyXltMicro_trans huntag hmicro.onlyXltMicro)
      (onlyXltMicro_trans (onlyXltMicro_of_onlyXlt hpost.onlyXlt) ?_)
    rfl

/-! ### INV_RANGE -/

/-- The shuttles that are fenced: they need not acknowledge. -/
def State.fencedShuttles (s : State) : List Nat := (List.range 16).filter fun k => (s.shuttle k).fenced

/-- The outbound extents that a record names are gone from the extent cache, and the fenced shuttles count as acknowledged. -/
def State.unranged (s : State) (c w : Nat) : State := s.dropFill.modXlt fun x =>
  { x with outExt := x.outExt.filter fun e => !(fillOf w).hits e, inv := some (c, w, maskOf s.fencedShuttles) }

/-- They are gone from the micro-caches of the fenced shuttles too. -/
def State.unrangedMicro (s : State) (c w : Nat) : State :=
  s.fencedShuttles.foldl (fun t m => t.setMicro m ((t.micro m).filter fun e => !(fillOf w).hits e)) (s.unranged c w)

theorem State.onlyMicro_unrangedMicro (s : State) (c w : Nat) : onlyMicro (s.unranged c w) (s.unrangedMicro c w) :=
  onlyMicro_foldl _ _ _

theorem mem_fencedShuttles {m : Nat} : m ∈ s.fencedShuttles ↔ m < 16 ∧ (s.shuttle m).fenced = true := by
  rw [State.fencedShuttles, List.mem_filter, List.mem_range]

theorem bit_maskOf_fencedShuttles {m : Nat} (h : bit m (maskOf s.fencedShuttles) = true) : m < 16 ∧ (s.shuttle m).fenced = true := by
  rw [bit_maskOf] at h
  exact mem_fencedShuttles.1 (List.contains_iff_mem.1 h)

/-- The shuttles alone never acknowledge for all 17 micro-caches. -/
theorem maskOf_fencedShuttles_ne : maskOf s.fencedShuttles ≠ 0x1FFFF := by
  intro h
  have hbit : bit 16 (maskOf s.fencedShuttles) = true := by rw [h]; decide
  exact absurd (bit_maskOf_fencedShuttles hbit).1 (by decide)

theorem State.invDone_waits {map : Nat} (h : s.ep.xlt.inv = some (c, w, map)) (hmap : map ≠ 0x1FFFF) : s.invDone = s := by
  simp [State.invDone, h, hmap]

theorem State.doFill_invRange (h : fillReady s c w 5) : s.doFill 5 = s.unrangedMicro c w := by
  have hxlt := (s.onlyMicro_unrangedMicro c w).xlt
  have hinv : (s.unrangedMicro c w).ep.xlt.inv = some (c, w, maskOf s.fencedShuttles) := (congrArg Xlt.inv hxlt).trans rfl
  rw [State.doFill_ready h (by decide), State.fillOp]
  have hdone : s.doInvRange c w (fillOf w) = s.unrangedMicro c w := State.invDone_waits hinv maskOf_fencedShuttles_ne
  rw [hdone]
  exact State.settleFills_empty ((congrArg Xlt.fetched hxlt).trans (fetched_dropFill h))

theorem doFill_invRange_after (h : fillReady s c w 5) :
    (s.doFill 5).ep.xlt.outExt = s.ep.xlt.outExt.filter (fun e => !(fillOf w).hits e)
      ∧ (s.doFill 5).ep.xlt.inv = some (c, w, maskOf s.fencedShuttles) ∧ (s.doFill 5).ep.xlt.inExt = s.ep.xlt.inExt
      ∧ onlyXltMicro s (s.doFill 5) := by
  have hmicro := s.onlyMicro_unrangedMicro c w
  have hxlt := hmicro.xlt
  rw [State.doFill_invRange h]
  refine ⟨(congrArg Xlt.outExt hxlt).trans rfl, (congrArg Xlt.inv hxlt).trans rfl, (congrArg Xlt.inExt hxlt).trans rfl, ?_⟩
  have hunranged : onlyXltMicro s (s.unranged c w) := rfl
  exact onlyXltMicro_trans hunranged hmicro.onlyXltMicro

/-! ### Acknowledgements -/

/-- A micro-cache has removed what INV_RANGE names, and acknowledged it. -/
def State.acked (s : State) (c w map m : Nat) : State :=
  (s.setMicro m ((s.micro m).filter fun e => !(fillOf w).hits e)).modXlt fun x => { x with inv := some (c, w, setBit m true map) }

theorem State.setMicro_xlt (m : Nat) (l : List OutExt) :
    (s.setMicro m l).ep.xlt = { s.ep.xlt with dMicro := (s.setMicro m l).ep.xlt.dMicro } := onlyMicro.xlt (s.setMicro_only m l)

theorem State.onlyXltMicro_acked (map m : Nat) : onlyXltMicro s (s.acked c w map m) := by
  refine onlyXltMicro_trans (onlyMicro.onlyXltMicro (s.setMicro_only m ((s.micro m).filter fun e => !(fillOf w).hits e))) ?_
  rfl

theorem State.micro_acked (map m : Nat) : (s.acked c w map m).micro m = (s.micro m).filter fun e => !(fillOf w).hits e :=
  (State.micro_setMicro_same _ _ : (s.setMicro m _).micro m = _)

theorem State.outExt_acked (map m : Nat) : (s.acked c w map m).ep.xlt.outExt = s.ep.xlt.outExt :=
  (congrArg Xlt.outExt (s.setMicro_xlt m ((s.micro m).filter fun e => !(fillOf w).hits e))).trans rfl

theorem State.microAck_eq {map : Nat} (h : s.ep.xlt.inv = some (c, w, map)) (m : Nat) : s.microAck m = (s.acked c w map m).invDone := by
  rw [State.microAck, h]
  rfl

/-- The end of INV_RANGE: INV_DONE is posted, and the fill records behind it are looked at. -/
def State.invEnded (s : State) (c w : Nat) : State :=
  (((s.modXlt fun x => { x with inv := none }).postAnswer 0x10 (fillOf w).tag c 0x1FFFF).addDrain c (fillOf w)).settleFills

theorem State.invDone_all (h : s.ep.xlt.inv = some (c, w, 0x1FFFF)) : s.invDone = s.invEnded c w := by
  simp [State.invDone, h, State.invEnded]

theorem State.invEnded_after (s : State) (c w : Nat) :
    (s.invEnded c w).ep.xlt.inv = none ∧ (∀ m, (s.invEnded c w).micro m = s.micro m)
      ∧ (s.invEnded c w).ep.xlt.outExt = s.ep.xlt.outExt ∧ onlyXlt s (s.invEnded c w) := by
  have hpost := (s.modXlt fun x => { x with inv := none }).posted_postAnswer 0x10 (fillOf w).tag c 0x1FFFF
  have hsettle := State.posted_settleFills
    (((s.modXlt fun x => { x with inv := none }).postAnswer 0x10 (fillOf w).tag c 0x1FFFF).addDrain c (fillOf w))
  rw [State.addDrain_eq] at hsettle
  rw [State.invEnded, State.addDrain_eq]
  refine ⟨?_, fun m => ?_, ?_, ?_⟩
  · exact hsettle.inv.trans (hpost.inv.trans rfl)
  · exact (hsettle.micro m).trans (hpost.micro m)
  · exact hsettle.outExt.trans (hpost.outExt.trans rfl)
  · have hnone : onlyXlt s (s.modXlt fun x => { x with inv := none }) := rfl
    refine onlyXlt_trans (onlyXlt_trans hnone hpost.onlyXlt) (onlyXlt_trans ?_ hsettle.onlyXlt)
    rfl

theorem microAck_after {map : Nat} (h : s.ep.xlt.inv = some (c, w, map)) (m : Nat) :
    (s.microAck m).micro m = (s.micro m).filter (fun e => !(fillOf w).hits e)
      ∧ (setBit m true map ≠ 0x1FFFF → (s.microAck m).ep.xlt.inv = some (c, w, setBit m true map))
      ∧ (setBit m true map = 0x1FFFF → (s.microAck m).ep.xlt.inv = none)
      ∧ (s.microAck m).ep.xlt.outExt = s.ep.xlt.outExt ∧ onlyXltMicro s (s.microAck m) := by
  have hinv : (s.acked c w map m).ep.xlt.inv = some (c, w, setBit m true map) := rfl
  have honly := s.onlyXltMicro_acked (c := c) (w := w) map m
  rw [State.microAck_eq h]
  by_cases hall : setBit m true map = 0x1FFFF
  · obtain ⟨hnone, hmicro, hout, hend⟩ := (s.acked c w map m).invEnded_after c w
    rw [State.invDone_all (hall ▸ hinv)]
    refine ⟨(hmicro m).trans (State.micro_acked map m), fun hne => absurd hall hne, fun _ => hnone, hout.trans (State.outExt_acked map m), ?_⟩
    exact onlyXltMicro_trans honly (onlyXltMicro_of_onlyXlt hend)
  · rw [State.invDone_waits hinv hall]
    exact ⟨State.micro_acked map m, fun _ => hinv, fun h => absurd h hall, State.outExt_acked map m, honly⟩

/-! ### REMOVE_IN -/

theorem State.doFill_removeIn (h : fillReady s c w 6) : s.doFill 6 = s.doRemoveIn c (fillOf w) := by
  rw [State.doFill_ready h (by decide)]
  exact State.settleFills_empty (s := s.doRemoveIn c (fillOf w)) (fetched_dropFill h)

end

/-- Settles O12, by the operation of the one fill record that waits, or by what ends the one in progress. -/
theorem invalidations : Obligations.Invalidations := by
  intro s c w
  refine ⟨fun h => ⟨s.doFill 4, rfl, doFill_invTag_after h⟩, fun h => ?_, fun m map h => ⟨s.microAck m, rfl, microAck_after h m⟩,
    fun tag d hd hopen => ?_, fun h => ?_, fun r hr hfetched hopen => ?_⟩
  · obtain ⟨hout, hinv, hin, honly⟩ := doFill_invRange_after h
    exact ⟨s.doFill 5, maskOf s.fencedShuttles, rfl, hout, hinv, fun m _ hbit => bit_maskOf_fencedShuttles hbit, hin, honly⟩
  · refine ⟨s.modXlt fun x => { x with drains := x.drains.erase d }, ?_, rfl, rfl⟩
    show Host.Outcome.next (s.drainedNow tag) = _
    simp only [State.drainedNow, hd, hopen, Bool.false_eq_true, if_false]
  · exact ⟨s.doFill 6, rfl, by rw [State.doFill_removeIn h]; rfl, by rw [State.doFill_removeIn h]; exact ⟨_, rfl⟩,
      by rw [State.doFill_removeIn h]; rfl, by rw [State.doFill_removeIn h]; rfl⟩
  · refine ⟨s.modXlt fun x => { x with removal := none }, ?_, rfl, rfl⟩
    show Host.Outcome.next s.inRemovedNow = _
    simp only [State.inRemovedNow, hr, hopen, Bool.false_eq_true, if_false]
    exact congrArg _ (State.settleFills_postAnswer (s := s.modXlt fun x => { x with removal := none }) hfetched _ _ _ _)

end Sys2Proof.Machine
end

section
/-! Doorbells of translation, its enabling and disabling, and the time limit of a miss (R135, R136, R139, R147, R148). -/

namespace Sys2Proof.Machine

open Sys2Proof Sys2Proof.Claims

/-! ### Doorbells -/

/-- From `s` to `t` records of the miss ring have been written, or written again, and fill records asked for. -/
def State.Rung (s t : State) : Prop :=
  t = { s with out := t.out, ep := { s.ep with att := t.ep.att, xlt := { s.ep.xlt with
    missTail := t.ep.xlt.missTail, written := t.ep.xlt.written, failed := t.ep.xlt.failed, misses := t.ep.xlt.misses
    held := t.ep.xlt.held, issued := t.ep.xlt.issued } } }

theorem State.Rung.refl (s : State) : s.Rung s := rfl

theorem State.Rung.trans {s t u : State} (h : s.Rung t) (k : t.Rung u) : s.Rung u := by
  unfold State.Rung at h k
  rw [h] at k
  exact k

theorem State.rung_request (s : State) (l : List AttReq) : s.Rung (s.request l) := by
  obtain ⟨a, o, h⟩ := s.request_only l
  rw [h]
  rfl

theorem State.rung_writeMiss (s : State) (r : MissRec) : s.Rung (s.writeMiss r) :=
  .trans (t := s.modXlt fun x => { x with
    missTail := (x.missTail + 1) % 2 ^ 32, written := SMap.set x.written x.missTail r
    misses := x.misses.map fun m : Miss => if some m.id = r.id then { m with count := some x.missTail } else m }) rfl
    (State.rung_request _ _)

theorem State.rung_postHeld (k : Nat) (s : State) : s.Rung (s.postHeld k) := by
  induction k generalizing s with
  | zero => exact .refl s
  | succ k ih =>
    rw [State.postHeld]
    split
    · exact .refl s
    · split
      · next r rest _ _ =>
        have hheld : s.Rung (s.modXlt fun x => { x with held := rest }) := rfl
        exact (hheld.trans (State.rung_writeMiss _ r)).trans (ih _)
      · exact .refl s

theorem State.Rung.foldl {α : Type} (f : State → α → State) (hf : ∀ (t : State) x, t.Rung (f t x)) (l : List α) (s : State) :
    s.Rung (l.foldl f s) := by
  induction l generalizing s with
  | nil => exact .refl s
  | cons x l ih => exact (hf s x).trans (ih _)

theorem State.rung_written (s : State) (g : Xlt → SMap MissRec) : s.Rung (s.modXlt fun x => { x with written := g x }) := rfl

theorem State.rung_rewriteMisses (s : State) : s.Rung s.rewriteMisses := by
  have hclear : s.Rung (s.modXlt fun x => { x with failed := [] }) := rfl
  refine hclear.trans (.foldl _ (fun t e => ?_) _ _)
  exact (t.rung_written fun x => SMap.set x.written e.1 e.2).trans (State.rung_request _ _)

/-- Asking for fill records counts them as issued. -/
def State.FillsAsked (s t : State) : Prop :=
  t = { s with out := t.out, ep := { s.ep with att := t.ep.att, xlt := { s.ep.xlt with issued := t.ep.xlt.issued } } }

theorem State.FillsAsked.trans {s t u : State} (h : s.FillsAsked t) (k : t.FillsAsked u) : s.FillsAsked u := by
  unfold State.FillsAsked at h k
  rw [h] at k
  exact k

theorem State.FillsAsked.rung {s t : State} (h : s.FillsAsked t) : s.Rung t := by
  unfold State.FillsAsked at h
  rw [h]
  rfl

theorem State.fillsAsked_issued (s : State) (g : Xlt → Nat) : s.FillsAsked (s.modXlt fun x => { x with issued := g x }) := rfl

theorem State.fillsAsked_request (s : State) (l : List AttReq) : s.FillsAsked (s.request l) := by
  obtain ⟨a, o, h⟩ := s.request_only l
  rw [h]
  rfl

theorem State.fillsAsked_fetchFillsFrom (k : Nat) (s : State) : s.FillsAsked (s.fetchFillsFrom k) := by
  induction k generalizing s with
  | zero => rfl
  | succ k ih =>
    rw [State.fetchFillsFrom]
    dsimp only
    split
    · rfl
    · exact ((s.fillsAsked_issued fun x => (x.issued + _) % 2 ^ 32).trans (State.fillsAsked_request _ _)).trans (ih _)

theorem State.fillsAsked_fetchFills (s : State) : s.FillsAsked s.fetchFills := State.fillsAsked_fetchFillsFrom _ s

theorem State.onlyXlt_modXlt (s : State) (f : Xlt → Xlt) : onlyXlt s (s.modXlt f) := rfl

theorem State.Rung.onlyXlt {s t : State} (h : s.Rung t) : onlyXlt s t := by
  unfold State.Rung at h
  rw [h]
  rfl

theorem State.FillsAsked.xlt {s t : State} (h : s.FillsAsked t) : t.ep.xlt = { s.ep.xlt with issued := t.ep.xlt.issued } := by
  unfold State.FillsAsked at h
  rw [h]

theorem State.Rung.xlt {s t : State} (h : s.Rung t) :
    t.ep.xlt.missHead = s.ep.xlt.missHead ∧ t.ep.xlt.outExt = s.ep.xlt.outExt ∧ t.ep.xlt.inExt = s.ep.xlt.inExt := by
  unfold State.Rung at h
  rw [h]
  exact ⟨rfl, rfl, rfl⟩

theorem State.viaAttach_on {s : State} (h : s.attOn = true) (f : State → State) : s.viaAttach f = f s := if_pos h

theorem fillDb_taken {s : State} {v : Nat} (hon : s.xltOn = true) (hroom : subMod 32 v s.ep.xlt.fillHead ≤ s.fillSize) :
    (s.fillStore v).ep.xlt = { s.ep.xlt with fillTail := v, issued := (s.fillStore v).ep.xlt.issued } ∧ onlyXlt s (s.fillStore v) := by
  have heq : s.fillStore v = (s.modXlt fun x => { x with fillTail := v }).fetchFills := by
    simp [State.fillStore, hon, Nat.not_lt.2 hroom]
  have hask := (s.modXlt fun x => { x with fillTail := v }).fillsAsked_fetchFills
  rw [heq]
  exact ⟨hask.xlt, onlyXlt_trans (s.onlyXlt_modXlt _) hask.rung.onlyXlt⟩

theorem missDb_taken {s : State} {v : Nat} (hon : s.xltOn = true)
    (h : subMod 32 v s.ep.xlt.missHead ≤ subMod 32 s.ep.xlt.missTail s.ep.xlt.missHead) :
    (s.missStore v).ep.xlt.missHead = v ∧ (s.missStore v).ep.xlt.outExt = s.ep.xlt.outExt
      ∧ (s.missStore v).ep.xlt.inExt = s.ep.xlt.inExt ∧ onlyXlt s (s.missStore v) := by
  have heq : s.missStore v = ((s.modXlt fun x => { x with missHead := v }).rewriteMisses.postHeld
      (s.modXlt fun x => { x with missHead := v }).rewriteMisses.ep.xlt.held.length).fetchFills := by
    simp [State.missStore, hon, Nat.not_lt.2 h]
  have hwritten := State.rung_rewriteMisses (s.modXlt fun x => { x with missHead := v })
  have hheld := State.rung_postHeld (s.modXlt fun x => { x with missHead := v }).rewriteMisses.ep.xlt.held.length
    (s.modXlt fun x => { x with missHead := v }).rewriteMisses
  have hrung := (hwritten.trans hheld).trans (State.fillsAsked_fetchFills _).rung
  obtain ⟨hhead, hout, hin⟩ := hrung.xlt
  rw [heq]
  exact ⟨hhead, hout, hin, onlyXlt_trans (s.onlyXlt_modXlt _) hrung.onlyXlt⟩

theorem State.missIntr_quiet {s : State} (h : s.flag .plocen Reg.epXltCtl 1 = false ∨ s.ep.xlt.unannounced = 0) : s.missIntr = s := by
  rcases h with hoff | hzero
  · simp [State.missIntr, hoff]
  · simp [State.missIntr, hzero]

/-! ### CTL -/

/-- A step that keeps the Plocen's own registers keeps whether translation is on. -/
theorem State.xltOn_congr {s t : State} (h : t.epOwnRegs = s.epOwnRegs) : t.xltOn = s.xltOn :=
  State.flag_congr (State.reg_of_epOwnRegs h (by decide)) 0

theorem State.reg_unready (s : State) (a : Nat) : s.unready.reg .plocen a = s.reg .plocen a := rfl

theorem xltEnable_after {s : State} {v : Nat} (hon : s.xltOn = false) (hen : bit 0 v = true) :
    (s.xltCtl v).reg .plocen Reg.epXltCtl = bits 0 2 v ∧ (s.xltCtl v).ep.xlt
      = { s.ep.xlt with
          active := true, err := false, errCode := 0, fetchStop := false, missTail := 0, missHead := 0, fillTail := 0, fillHead := 0
          issued := 0, arrived := [], fetched := [], armed := true, unannounced := 0 }
      ∧ (s.xltCtl v).ep.hanks = s.ep.hanks := by
  have heq : s.xltCtl v = (s.setReg .plocen Reg.epXltCtl (bits 0 2 v)).xltStart := by simp [State.xltCtl, hon, hen]
  rw [heq]
  refine ⟨?_, rfl, rfl⟩
  exact (State.reg_setReg_same s .plocen _ _).trans (Nat.mod_eq_of_lt (by have := bits_lt 0 2 v; omega))

/-- Disabling voids the fetches of fill records, ends every miss and clears the micro-caches. -/
def State.fetchesVoided (s : State) : State := s.modAtt fun a => { a with
  queue := a.queue.filter fun q : AttReq => !(q.use.any fun u => u.isFill)
  tags := a.tags.map fun e : Nat × AttTag => if e.2.use.isFill then (e.1, { e.2 with void := true }) else e }

def State.missesEnded (s : State) : State := s.ep.xlt.misses.foldl (fun t m => t.endMiss m.id) s.fetchesVoided

def State.microCleared (s : State) : State := (List.range 17).foldl (fun t m => t.setMicro m []) s.missesEnded

theorem State.Ended.outExt {s t : State} (h : s.Ended t) : t.ep.xlt.outExt = s.ep.xlt.outExt := by rw [h.xlt]

theorem State.Ended.inExt {s t : State} (h : s.Ended t) : t.ep.xlt.inExt = s.ep.xlt.inExt := by rw [h.xlt]

theorem State.ended_missesEnded (s : State) : s.Ended s.missesEnded :=
  .trans (t := s.fetchesVoided) ⟨rfl, List.Subset.refl _, rfl, fun _ => .inl rfl⟩ (.foldl _ (fun t (m : Miss) => t.ended_endMiss m.id) _ _)

theorem State.missing_foldl_endMiss (l : List Miss) (s : State) :
    ∀ x ∈ (l.foldl (fun t m => t.endMiss m.id) s).ep.xlt.misses, ∀ m ∈ l, x.id ≠ m.id := by
  induction l generalizing s with
  | nil => simp
  | cons m l ih =>
    intro x hx y hy
    rcases List.mem_cons.1 hy with rfl | hy
    · have hrest : State.Ended (s.endMiss y.id) (l.foldl (fun t m => t.endMiss m.id) (s.endMiss y.id)) :=
        .foldl _ (fun t (m : Miss) => t.ended_endMiss m.id) _ _
      exact s.missing_endMiss y.id x (hrest.misses hx)
    · exact ih _ x hx y hy

theorem State.misses_missesEnded (s : State) : s.missesEnded.ep.xlt.misses = [] := by
  refine List.eq_nil_iff_forall_not_mem.2 fun x hx => ?_
  exact State.missing_foldl_endMiss _ _ x hx x (s.ended_missesEnded.misses hx) rfl

theorem onlyMicro_microCleared (s : State) : onlyMicro s.missesEnded s.microCleared := onlyMicro_foldl (fun _ _ => []) _ _

theorem State.micro_microCleared (s : State) {m : Nat} (hm : m < 17) : s.microCleared.micro m = [] := by
  have := State.micro_foldl_setMicro (fun _ => []) (List.range 17) List.nodup_range (fun n hn => List.mem_range.1 hn) s.missesEnded hm
  rwa [if_pos (List.mem_range.2 hm)] at this

/-- The unit after it has been disabled: what it held is gone, but for the inbound extents. -/
def Xlt.stopped (x : Xlt) : Xlt :=
  { x with
    active := false, err := false, errCode := 0, fetchStop := false, missTail := 0, missHead := 0, fillTail := 0, fillHead := 0, issued := 0
    arrived := [], fetched := [], outExt := [], held := [], written := [], failed := [], inv := none, drains := [], removal := none }

theorem State.xltStop_eq (s : State) : s.xltStop = s.microCleared.modXlt Xlt.stopped := by
  rw [State.xltStop]
  rfl

theorem State.micro_modXlt (s : State) {f : Xlt → Xlt} (h : ∀ x, (f x).dMicro = x.dMicro) (m : Nat) :
    (s.modXlt f).micro m = s.micro m := by
  unfold State.micro
  split
  · rfl
  · exact h _

theorem State.xlt_xltStop (s : State) : s.xltStop.ep.xlt = s.microCleared.ep.xlt.stopped := by rw [s.xltStop_eq]; rfl

theorem xltStop_after (s : State) :
    s.xltStop.ep.xlt.active = false ∧ s.xltStop.ep.xlt.err = false ∧ s.xltStop.ep.xlt.outExt = [] ∧ s.xltStop.ep.xlt.misses = []
      ∧ (∀ m < 17, s.xltStop.micro m = []) ∧ s.xltStop.ep.xlt.inExt = s.ep.xlt.inExt ∧ s.xltStop.ep.hanks = s.ep.hanks := by
  have hmicro := (onlyMicro_microCleared s).xlt
  have hend := s.ended_missesEnded
  rw [s.xlt_xltStop]
  refine ⟨rfl, rfl, rfl, ?_, fun m hm => ?_, ?_, ?_⟩
  · have hmisses : s.microCleared.ep.xlt.misses = s.missesEnded.ep.xlt.misses := by rw [hmicro]
    exact hmisses.trans s.misses_missesEnded
  · rw [s.xltStop_eq, State.micro_modXlt _ (f := Xlt.stopped) (fun _ => rfl), s.micro_microCleared hm]
  · have hin : s.microCleared.ep.xlt.inExt = s.missesEnded.ep.xlt.inExt := by rw [hmicro]
    exact hin.trans hend.inExt
  · have hhanks : s.microCleared.ep.hanks = s.missesEnded.ep.hanks := by rw [onlyMicro_microCleared s]
    rw [s.xltStop_eq]
    exact hhanks.trans hend.hanks

theorem State.reg_xltStop (s : State) {a : Nat} (h : a ∉ epReportRegs) : s.xltStop.reg .plocen a = s.reg .plocen a :=
  State.reg_of_epOwnRegs (by simp) h

theorem xltDisable_after {s : State} {v : Nat} (hon : s.xltOn = true) (hdis : bit 0 v = false) :
    (s.xltCtl v).reg .plocen Reg.epXltCtl = bits 0 2 v ∧ s.xltCtl v = (s.setReg .plocen Reg.epXltCtl (bits 0 2 v)).xltStop := by
  have heq : s.xltCtl v = (s.setReg .plocen Reg.epXltCtl (bits 0 2 v)).xltStop := by simp [State.xltCtl, hon, hdis]
  refine ⟨?_, heq⟩
  rw [heq, State.reg_xltStop _ (by decide), State.reg_setReg_same]
  exact Nat.mod_eq_of_lt (by have := bits_lt 0 2 v; omega)

/-- What the write to CTL has changed when it acts is the log. -/
theorem State.xltUnit_logged (s : State) (v : Nat) (w : Writer) : (s.logWrite .plocen Reg.epXltCtl v w).xltUnit = s.xltUnit := by simp

/-- Settles O13: the doorbells, then the two writes to CTL that turn translation on and off, then the end of a miss whose time is over. -/
theorem translationControl : Obligations.TranslationControl := by
  refine ⟨fun s v hatt => ⟨fun hon hroom => ?_, fun hon hover => ?_, fun hon h => ?_, fun hon h => ?_, fun harm h => ?_, fun harm hen h => ?_⟩,
    fun s v wr => ⟨fun hatt hon hen => ?_, fun hatt hon hdis => ?_, fun id m hm hdue => ?_⟩⟩
  · refine ⟨s.fillStore v.toNat, congrArg _ (State.viaAttach_on hatt _), fillDb_taken hon hroom⟩
  · refine ⟨s.xltError 1, congrArg _ ((State.viaAttach_on hatt _).trans ?_), ?_, rfl⟩
    · simp [State.fillStore, hon, hover]
    · simp [State.xltError, State.modXlt]
  · exact ⟨s.missStore v.toNat, congrArg _ (State.viaAttach_on hatt _), missDb_taken hon h⟩
  · refine ⟨s.xltError 2, congrArg _ ((State.viaAttach_on hatt _).trans ?_), ?_, rfl⟩
    · simp [State.missStore, hon, h]
    · simp [State.xltError, State.modXlt]
  · refine ⟨s.modXlt fun x => { x with armed := true }, congrArg _ ((State.viaAttach_on hatt _).trans ?_), rfl, rfl⟩
    rw [State.xltArmStore, if_pos harm]
    exact State.missIntr_quiet h
  · refine ⟨s.modXlt fun x => { x with armed := false, unannounced := 0 }, congrArg _ ((State.viaAttach_on hatt _).trans ?_), rfl, rfl⟩
    rw [State.xltArmStore, if_pos harm, State.missIntr, if_pos]
    · rfl
    · exact Bool.and_eq_true_iff.2 ⟨Bool.and_eq_true_iff.2 ⟨hen, rfl⟩, decide_eq_true h⟩
  · refine ⟨s.wrote .plocen Reg.epXltCtl v.toNat wr fun t => (t.xltCtl v.toNat).unready, rfl, ?_⟩
    rw [State.wrote_plocen _ _ _ _ _ hatt]
    have hunit := s.xltUnit_logged v.toNat wr
    have hother := onlyPlocen_of (s := s) (t := ((s.logWrite .plocen Reg.epXltCtl v.toNat wr).xltCtl v.toNat).unready) (by simp) (by simp)
    have hown : (s.logWrite .plocen Reg.epXltCtl v.toNat wr).epOwnRegs = s.epOwnRegs := by simp
    generalize s.logWrite .plocen Reg.epXltCtl v.toNat wr = u at hunit hother hown
    obtain ⟨hreg, hxlt, hhanks⟩ := xltEnable_after ((State.xltOn_congr hown).trans hon) hen
    have hready := State.xltUnit_unready (u.xltCtl v.toNat)
    have hinExt : (u.xltCtl v.toNat).ep.xlt.inExt = s.ep.xlt.inExt := by rw [hxlt, State.xltUnit_xlt hunit]
    refine ⟨hreg, ?_, ?_, ?_, ?_, ?_, ?_, ?_, ?_, ?_, hother⟩
    · rw [State.xltUnit_xlt hready, hxlt]
    · rw [State.xltUnit_xlt hready, hxlt]
    · rw [State.xltUnit_xlt hready, hxlt]
    · rw [State.xltUnit_xlt hready, hxlt]
    · rw [State.xltUnit_xlt hready, hxlt]
    · rw [State.xltUnit_xlt hready, hxlt]
    · rw [State.xltUnit_xlt hready, hxlt]
    · rw [State.xltUnit_xlt hready, hinExt]
    · rw [State.xltUnit_hanks hready, hhanks, State.xltUnit_hanks hunit]
  · refine ⟨s.wrote .plocen Reg.epXltCtl v.toNat wr fun t => (t.xltCtl v.toNat).unready, rfl, ?_⟩
    rw [State.wrote_plocen _ _ _ _ _ hatt]
    have hunit := s.xltUnit_logged v.toNat wr
    have hother := onlyPlocen_of (s := s) (t := ((s.logWrite .plocen Reg.epXltCtl v.toNat wr).xltCtl v.toNat).unready) (by simp) (by simp)
    have hown : (s.logWrite .plocen Reg.epXltCtl v.toNat wr).epOwnRegs = s.epOwnRegs := by simp
    generalize s.logWrite .plocen Reg.epXltCtl v.toNat wr = u at hunit hother hown
    obtain ⟨hreg, hstop⟩ := xltDisable_after ((State.xltOn_congr hown).trans hon) hdis
    obtain ⟨hactive, herr, hout, hmisses, hmicro, hin, hhanks⟩ := xltStop_after (u.setReg .plocen Reg.epXltCtl (bits 0 2 v.toNat))
    rw [← hstop] at hactive herr hout hmisses hmicro hin hhanks
    have hready := State.xltUnit_unready (u.xltCtl v.toNat)
    have hxlt := State.xltUnit_xlt hready
    refine ⟨hreg, hxlt ▸ hactive, hxlt ▸ herr, hxlt ▸ hout, hxlt ▸ hmisses, hmicro, ?_, ?_, hother⟩
    · exact (hxlt ▸ hin).trans (congrArg Xlt.inExt (State.xltUnit_xlt hunit))
    · exact (State.xltUnit_hanks hready).trans (hhanks.trans (State.xltUnit_hanks hunit))
  · have hend := s.ended_endMiss id
    have hready := State.xltUnit_unready (s.endMiss id)
    have hxlt := State.xltUnit_xlt hready
    refine ⟨(s.endMiss id).unready, ?_, ?_, fun k hk hmiss => State.idle_endMiss hm hk hmiss, ?_, ?_, onlyPlocen_of (by simp) (by simp)⟩
    · show Host.Outcome.next (s.missTimeout id) = _
      rw [State.missTimeout, hm]
      exact congrArg _ (if_pos hdue)
    · rw [hxlt]
      exact s.missing_endMiss id
    · exact (congrArg Xlt.outExt hxlt).trans hend.outExt
    · exact (congrArg Xlt.inExt hxlt).trans hend.inExt

end Sys2Proof.Machine
end

section
/-! Descriptors start, wait or end (R104, R105, R113, R117, R118, R338). -/

namespace Sys2Proof.Machine

open Sys2Proof Sys2Proof.Claims

/-! ### What a completion and the fronts behind it change -/

theorem State.onlyRing_postCompletion (s : State) (n sub code info cookie : Nat) : onlyRing n s (s.postCompletion n sub code info cookie) := by
  unfold State.postCompletion
  split
  · exact s.onlyRing_refl n
  · exact State.onlyRing_trans (s.onlyRing_modRing n _) (State.onlyRing_request _ n _)

theorem State.onlyRing_settleFront (k : Nat) (s : State) (n : Nat) : onlyRing n s (s.settleFront k n) := by
  induction k generalizing s with
  | zero => exact s.onlyRing_refl n
  | succ k ih =>
    rw [State.settleFront]
    split
    · exact s.onlyRing_refl n
    · dsimp only
      split
      · exact s.onlyRing_refl n
      · exact State.onlyRing_trans (State.onlyRing_trans (s.onlyRing_modRing n _) (State.onlyRing_postCompletion _ n _ _ _ _)) (ih _)

theorem State.onlyRing_settleRing (s : State) (n : Nat) : onlyRing n s (s.settleRing n) := State.onlyRing_settleFront _ s n

theorem State.settleRing_empty {s : State} {n : Nat} (h : (s.ring n).fetched = []) : s.settleRing n = s := by rw [State.settleRing, h]; rfl

theorem State.fetched_postCompletion (s : State) (n sub code info cookie : Nat) :
    ((s.postCompletion n sub code info cookie).ring n).fetched = (s.ring n).fetched := by
  unfold State.postCompletion
  split
  · rfl
  · rw [State.ring_request, State.ring_modRing_same]

/-- The rings change, and nothing else but the attach link and what has been sent outside. -/
def onlyRings (s t : State) : Prop := t = { s with out := t.out, ep := { s.ep with att := t.ep.att, rings := t.ep.rings } }

theorem onlyRings_trans {s t u : State} (h : onlyRings s t) (k : onlyRings t u) : onlyRings s u := by
  unfold onlyRings at h k
  rw [h] at k
  exact k

theorem State.onlyRings_unready (s : State) : onlyRings s s.unready := rfl

/-- A change of the rings leaves the rest of the Plocen. -/
theorem onlyRings.kept {s t : State} (h : onlyRings s t) : t.ep.acts = s.ep.acts ∧ t.ep.gates = s.ep.gates ∧ t.ep.hanks = s.ep.hanks
    ∧ t.ep.regs = s.ep.regs ∧ t.ep.src = s.ep.src ∧ t.ep.warp = s.ep.warp ∧ onlyPlocen s t := by
  unfold onlyRings at h
  rw [h]
  exact ⟨rfl, rfl, rfl, rfl, rfl, rfl, rfl, rfl, rfl, rfl⟩

/-! ### The front of a ring -/

section
variable {s : State} {n sub raw : Nat}

theorem State.ringRuns_of_canStart {d : Desc} (h : s.canStart n d = true) : s.ringRuns n = true := by
  simp only [State.canStart, State.mayStart, Bool.and_eq_true] at h
  exact h.1.1.1

theorem State.startFront_front (h : s.front n = some (sub, raw)) : s.startFront n (descOf raw).opc = s.startNext n := by
  simp [State.startFront, State.frontIs, h]

theorem State.startNext_begins (h : s.front n = some (sub, raw)) (hcan : s.canStart n (descOf raw) = true)
    (hgo : ((s.badDesc (descOf raw)).isNone && s.descWaits (descOf raw)) = false) :
    s.startNext n = ((s.dropFront n).beginDesc n sub raw).settleRing n := by
  simp [State.startNext, h, State.ringRuns_of_canStart hcan, hgo, hcan]

theorem State.front_of_fetched (h : (s.ring n).fetched = [(sub, raw)]) : s.front n = some (sub, raw) := by rw [State.front, h]; rfl

theorem State.ring_dropFront (h : (s.ring n).fetched = [(sub, raw)]) : (s.dropFront n).ring n = { s.ring n with fetched := [] } := by
  rw [State.dropFront, State.ring_modRing_same, h]
  rfl

theorem State.onlyRing_dropFront (s : State) (n : Nat) : onlyRing n s (s.dropFront n) := s.onlyRing_modRing n _

theorem State.badDesc_dropFront (s : State) (n : Nat) (d : Desc) : (s.dropFront n).badDesc d = s.badDesc d := rfl

/-! ### A descriptor begins -/

/-- A descriptor that starts, before the reads of its list are asked for. -/
def startedAct (n sub raw : Nat) (bad : Option Nat) : Act :=
  { ring := n, sub := sub, raw := raw, todo := [(descOf raw).whole], ahead := 0, list := [], halves := [], asked := 0, checked := false
    sent := false, parts := 0, landed := 0, code := 0, info := 0, keyDead := false, bad := bad }

def State.listed (s : State) (n sub raw : Nat) (bad : Option Nat) : State :=
  { s with ep := { s.ep with acts := s.ep.acts ++ [startedAct n sub raw bad] } }

theorem State.beginDesc_bad {o : Nat} (h : s.badDesc (descOf raw) = some o) (hlist : listDecides (descOf raw) o = false) :
    s.beginDesc n sub raw = s.postCompletion n sub 7 o (descOf raw).cookie := by
  simp [State.beginDesc, h, hlist]

theorem State.beginDesc_decided {o : Nat} (h : s.badDesc (descOf raw) = some o) (hlist : listDecides (descOf raw) o = true) :
    s.beginDesc n sub raw = (s.listed n sub raw (some o)).askList n sub := by
  simp [State.beginDesc, h, hlist, State.listed, startedAct]

theorem State.beginDesc_misaligned (h : s.badDesc (descOf raw) = none) (hmis : (descOf raw).misaligned = true) :
    s.beginDesc n sub raw = s.postCompletion n sub 2 0 (descOf raw).cookie := by
  simp [State.beginDesc, h, hmis]

theorem Desc.misaligned_opc {d : Desc} (h : d.opc ≠ 4) : d.misaligned = false := by simp [Desc.misaligned, h]

theorem State.beginDesc_wait (h : s.badDesc (descOf raw) = none) (hopc : (descOf raw).opc = 8) :
    s.beginDesc n sub raw = s.postCompletion n sub 0 0 (descOf raw).cookie := by
  simp [State.beginDesc, h, hopc, Desc.misaligned_opc]

theorem State.beginDesc_join (h : s.badDesc (descOf raw) = none) (hopc : (descOf raw).opc = 7) :
    s.beginDesc n sub raw = s.bindJoin n sub raw := by
  simp [State.beginDesc, h, hopc, Desc.misaligned_opc]

theorem State.beginDesc_starts (h : s.badDesc (descOf raw) = none) (hmis : (descOf raw).misaligned = false) (h7 : (descOf raw).opc ≠ 7)
    (h8 : (descOf raw).opc ≠ 8) : s.beginDesc n sub raw = (s.listed n sub raw none).askList n sub := by
  simp [State.beginDesc, h, hmis, h7, h8, State.listed, startedAct]

end

/-- Asking for list entries changes how many have been asked for, the attach link and what has been sent outside. -/
structure State.ListAsked (s t : State) : Prop where
  frame : t = { s with out := t.out, ep := { s.ep with att := t.ep.att, acts := t.ep.acts } }
  acts : ∀ a ∈ s.ep.acts, ∃ k, { a with asked := k } ∈ t.ep.acts

theorem State.listAsked_modAct (s : State) (n sub k : Nat) (l : List AttReq) :
    s.ListAsked ((s.modAct n sub fun x => { x with asked := x.asked + k }).request l) := by
  obtain ⟨o, a, h⟩ := (s.modAct n sub fun x => { x with asked := x.asked + k }).request_only l
  rw [h]
  refine ⟨rfl, fun a ha => ?_⟩
  have hmap : (if a.ring = n ∧ a.sub = sub then { a with asked := a.asked + k } else a)
      ∈ s.ep.acts.map fun a => if a.ring = n ∧ a.sub = sub then { a with asked := a.asked + k } else a :=
    List.mem_map_of_mem ha
  by_cases hc : a.ring = n ∧ a.sub = sub
  · exact ⟨a.asked + k, by rw [if_pos hc] at hmap; exact hmap⟩
  · exact ⟨a.asked, by rw [if_neg hc] at hmap; exact hmap⟩

theorem State.listAsked_askList (s : State) (n sub : Nat) : s.ListAsked (s.askList n sub) := by
  have hrefl : s.ListAsked s := ⟨rfl, fun a ha => ⟨a.asked, ha⟩⟩
  unfold State.askList
  dsimp only
  split
  · exact hrefl
  · split
    · exact hrefl
    · split
      · exact s.listAsked_modAct n sub 1 _
      · exact s.listAsked_modAct n sub _ _

/-- What starting a descriptor leaves: the descriptor is listed, and only the attach link, the rings and the started descriptors differ. -/
theorem started_of {s u t : State} {n sub raw : Nat} {bad : Option Nat} (hu : onlyRings s u ∨ ∃ g, u = { s with ep := { s.ep with gates := g } })
    (ht : onlyRings ((u.listed n sub raw bad).askList n sub) t) :
    (∃ a ∈ t.ep.acts, a.ring = n ∧ a.sub = sub ∧ a.raw = raw ∧ a.code = 0 ∧ a.sent = false ∧ a.bad = bad)
      ∧ t.ep.hanks = s.ep.hanks ∧ t.ep.regs = s.ep.regs ∧ t.ep.src = s.ep.src ∧ onlyPlocen s t := by
  have hask := (u.listed n sub raw bad).listAsked_askList n sub
  obtain ⟨k, hk⟩ := hask.acts (startedAct n sub raw bad) (by simp [State.listed])
  obtain ⟨hacts, -, -⟩ := ht.kept
  unfold onlyRings at ht
  refine ⟨⟨_, hacts ▸ hk, rfl, rfl, rfl, rfl, rfl, rfl⟩, ?_⟩
  rw [ht, hask.frame]
  rcases hu with hu | ⟨g, hu⟩
  · unfold onlyRings at hu
    rw [hu]
    exact ⟨rfl, rfl, rfl, rfl, rfl, rfl, rfl⟩
  · rw [hu]
    exact ⟨rfl, rfl, rfl, rfl, rfl, rfl, rfl⟩

/-! ### The deficit of a ring that is not ready -/

/-- After a key has been put it is listed once at most, with what was put. -/
theorem SMap.snd_of_mem_put {α : Type} [DecidableEq α] {d : Nat → α} {m : SMap α} {k : Nat} {v : α} {e : Nat × α}
    (h : e ∈ SMap.put d m k v) (hk : e.1 = k) : e.2 = v := by
  have hdrop : ∀ e ∈ SMap.drop m k, e.1 ≠ k := fun e he => by simpa using (List.mem_filter.1 he).2
  unfold SMap.put at h
  split at h
  · exact absurd hk (hdrop e h)
  · rcases (SMap.mem_insert k v _ e).mp h with rfl | h
    · rfl
    · exact absurd hk (hdrop e h)

/-- A ring as it was, or without its deficit. -/
def Ring.Unfunded (r x : Ring) : Prop := x = r ∨ x = { r with deficit := 0 }

theorem Ring.Unfunded.eq {r x : Ring} (h : r.Unfunded x) : x = { r with deficit := x.deficit } := by
  rcases h with rfl | rfl <;> rfl

/-- Where all entries of a ring agree, only its deficit is lost while it is not ready. -/
theorem State.ring_unready {s : State} {n : Nat} (h : ∀ e ∈ s.ep.rings, e.1 = n → e.2 = s.ring n) : (s.ring n).Unfunded (s.unready.ring n) := by
  have hfold : ∀ (l : List (Nat × Ring)) (m : SMap Ring), (∀ e ∈ l, e.1 = n → e.2 = s.ring n) →
      (s.ring n).Unfunded (SMap.look (fun _ => {}) m n) →
      (s.ring n).Unfunded (SMap.look (fun _ => {}) (l.foldl (fun m e =>
        if e.2.deficit = 0 ∨ s.ringReady 0 e.1 then m else SMap.put (fun _ => {}) m e.1 { e.2 with deficit := 0 }) m) n) := fun l => by
    induction l with
    | nil => exact fun m _ hm => hm
    | cons e l ih =>
      intro m hl hm
      refine ih _ (fun x hx => hl x (List.mem_cons_of_mem _ hx)) ?_
      dsimp only
      split
      · exact hm
      · by_cases hn : n = e.1
        · rw [← hn, SMap.look_put_same, hl e (List.mem_cons_self ..) hn.symm]
          exact .inr rfl
        · rw [SMap.look_put_other _ _ _ _ _ hn]
          exact hm
  exact hfold _ _ h (.inl rfl)

/-! ### The commands -/

/-- The commands that start a descriptor, with its OPC. -/
def startCommands (n : Fin 1024) : List (Instr × Nat) :=
  [(.put n, 1), (.putAck n, 2), (.get n, 3), (.atomic n, 4), (.gather n, 5), (.scatter n, 6), (.warpJoin n, 7), (.hankWait n, 8),
   (.hankSet n, 9), (.fmemPage n, 10)]

theorem exec_startCommands (s : State) (n : Fin 1024) : ∀ x ∈ startCommands n, exec x.1 s = .next (s.startFront n x.2).unready := by
  simp only [startCommands, List.forall_mem_cons]
  exact ⟨rfl, rfl, rfl, rfl, rfl, rfl, rfl, rfl, rfl, rfl, by simp⟩

/-- Where the front of a ring starts by its own command. -/
theorem exec_start_front {s : State} {n : Fin 1024} {sub raw : Nat} {c : Instr} (hc : (c, (descOf raw).opc) ∈ startCommands n)
    (h : s.front n = some (sub, raw)) : exec c s = .next (s.startNext n).unready := by
  rw [exec_startCommands s n _ hc, State.startFront_front h]

theorem starts_front {s : State} {n : Fin 1024} {sub raw : Nat} {c : Instr} (hc : (c, (descOf raw).opc) ∈ startCommands n)
    (h : s.front n = some (sub, raw)) (hcan : s.canStart n (descOf raw) = true) (hbad : s.badDesc (descOf raw) = none)
    (hmis : (descOf raw).misaligned = false) (hwait : s.descWaits (descOf raw) = false) (h7 : (descOf raw).opc ≠ 7)
    (h8 : (descOf raw).opc ≠ 8) : starts c s n sub raw := by
  refine ⟨(s.startNext n).unready, exec_start_front hc h, ?_⟩
  rw [State.startNext_begins h hcan (by simp [hwait]),
    State.beginDesc_starts ((s.badDesc_dropFront n _).trans hbad) hmis h7 h8]
  obtain ⟨⟨a, ha, hring, hsub, hraw, hcode, hsent, -⟩, hrest⟩ := started_of (s := s) (.inl (s.onlyRing_dropFront n).1)
    (onlyRings_trans (State.onlyRing_settleRing _ n).1 (State.onlyRings_unready _))
  exact ⟨⟨a, ha, hring, hsub, hraw, hcode, hsent⟩, hrest⟩

/-- The one descriptor fetched begins, and nothing is behind it. -/
theorem State.startNext_last {s : State} {n sub raw : Nat} (h : (s.ring n).fetched = [(sub, raw)]) (hcan : s.canStart n (descOf raw) = true)
    (hgo : ((s.badDesc (descOf raw)).isNone && s.descWaits (descOf raw)) = false) {code info cookie : Nat}
    (hbegin : (s.dropFront n).beginDesc n sub raw = (s.dropFront n).postCompletion n sub code info cookie) :
    s.startNext n = (s.dropFront n).postCompletion n sub code info cookie := by
  rw [State.startNext_begins (State.front_of_fetched h) hcan hgo, hbegin]
  refine State.settleRing_empty ?_
  rw [State.fetched_postCompletion, State.ring_dropFront h]

theorem ends_front {s : State} {n : Fin 1024} {sub raw code info : Nat} {c : Instr} (hc : (c, (descOf raw).opc) ∈ startCommands n)
    (h : (s.ring n).fetched = [(sub, raw)]) (hcan : s.canStart n (descOf raw) = true)
    (hgo : ((s.badDesc (descOf raw)).isNone && s.descWaits (descOf raw)) = false)
    (hbegin : (s.dropFront n).beginDesc n sub raw = (s.dropFront n).postCompletion n sub code info (descOf raw).cookie) :
    ∃ u : State, exec c s = .next (u.postCompletion n sub code info (descOf raw).cookie).unready
      ∧ u.ring n = { s.ring n with fetched := [] } ∧ onlyRing n s u :=
  ⟨s.dropFront n, by rw [exec_start_front hc (State.front_of_fetched h), State.startNext_last h hcan hgo hbegin],
    State.ring_dropFront h, s.onlyRing_dropFront n⟩

/-- The front of a ring is parked. -/
def State.parkFront (s : State) (n sub raw : Nat) : State :=
  { s.dropFront n with ep := { (s.dropFront n).ep with
    gates := (s.dropFront n).ep.gates ++ [{ ring := n, sub := sub, raw := raw, since := s.now }] } }

theorem State.startNext_parks {s : State} {n sub raw : Nat} (h : (s.ring n).fetched = [(sub, raw)]) (hruns : s.ringRuns n = true)
    (hbad : s.badDesc (descOf raw) = none) (hwait : s.descWaits (descOf raw) = true) (hroom : s.ep.gates.length < 8192) :
    s.startNext n = s.parkFront n sub raw := by
  have hstart : s.startNext n = (s.parkFront n sub raw).settleRing n := by
    simp [State.startNext, State.front_of_fetched h, hruns, hbad, hwait, Nat.not_le.2 hroom]
    rfl
  rw [hstart]
  exact State.settleRing_empty (congrArg Ring.fetched (State.ring_dropFront h))

theorem ring_parkFront_unready {s : State} {n sub raw : Nat} (h : (s.ring n).fetched = [(sub, raw)]) :
    (s.parkFront n sub raw).unready.ring n
      = { s.ring n with fetched := [], deficit := ((s.parkFront n sub raw).unready.ring n).deficit } := by
  have hring : (s.parkFront n sub raw).ring n = { s.ring n with fetched := [] } := State.ring_dropFront h
  have hone : ∀ e ∈ (s.parkFront n sub raw).ep.rings, e.1 = n → e.2 = (s.parkFront n sub raw).ring n := fun e he hn => by
    have hmem : e ∈ SMap.put (fun _ => {}) s.ep.rings n { s.ring n with fetched := (s.ring n).fetched.drop 1 } := he
    rw [SMap.snd_of_mem_put hmem hn, hring, h]
    rfl
  have := (State.ring_unready hone).eq
  rw [hring] at this
  exact this

theorem mem_startCommands {n : Fin 1024} {k : Nat} {c : Instr}
    (h : c ∈ (startCommands n).filterMap fun x => if x.2 = k then some x.1 else none) : (c, k) ∈ startCommands n := by
  obtain ⟨⟨i, j⟩, hx, hsome⟩ := List.mem_filterMap.1 h
  dsimp only at hsome
  split at hsome
  · next hj => exact hj ▸ Option.some.inj hsome ▸ hx
  · cases hsome

/-- Settles O5: a descriptor whose checks pass and whose gate is open is listed; else, with no other behind it, it ends or is parked. -/
theorem descriptors : Obligations.Descriptors := by
  refine ⟨fun s n sub raw h hcan hbad hmis hwait => ?_, fun s n sub raw c h hruns hc => ?_⟩
  · have hstarts : ∀ c, (c, (descOf raw).opc) ∈ startCommands n → (descOf raw).opc ≠ 7 → (descOf raw).opc ≠ 8 → starts c s n sub raw :=
      fun c hc h7 h8 => starts_front hc h hcan hbad hmis hwait h7 h8
    refine ⟨fun ho => ?_, fun ho => ?_, fun ho => ?_, fun ho => ?_, fun ho => ?_, fun ho => ?_, fun ho => ?_, fun ho => ?_⟩
    all_goals exact hstarts _ (by simp [startCommands, ho]) (by omega) (by omega)
  · have hc := mem_startCommands hc
    refine ⟨fun o hcan hbad hlist => ?_, fun o hcan hbad hlist => ?_, fun hcan hbad hwait hmis => ?_, fun hbad hwait hroom => ?_⟩
    · exact ends_front hc h hcan (by simp [hbad]) (State.beginDesc_bad hbad hlist)
    · refine ⟨(s.startNext n).unready, exec_start_front hc (State.front_of_fetched h), ?_⟩
      rw [State.startNext_begins (State.front_of_fetched h) hcan (by simp [hbad]),
        State.beginDesc_decided (s := s.dropFront n) hbad hlist]
      exact started_of (s := s) (.inl (s.onlyRing_dropFront n).1) (onlyRings_trans (State.onlyRing_settleRing _ n).1 (State.onlyRings_unready _))
    · exact ends_front hc h hcan (by simp [hwait]) (State.beginDesc_misaligned hbad hmis)
    · refine ⟨(s.startNext n).unready, exec_start_front hc (State.front_of_fetched h), ?_⟩
      rw [State.startNext_parks h hruns hbad hwait hroom]
      exact ⟨rfl, rfl, ring_parkFront_unready h, rfl, rfl, rfl, rfl⟩

end Sys2Proof.Machine
end

section
/-! HANK_WAIT, gates and WARP_JOIN (R48, R109, R111, R113). -/

namespace Sys2Proof.Machine

open Sys2Proof Sys2Proof.Claims

section
variable {s : State} {n sub : Nat}

theorem State.descWaits_met {d : Desc} (h : hankMet (s.hank d.ghank) d.gthresh = true) : s.descWaits d = false := by
  simp [State.descWaits, h]

theorem State.descWaits_wait {d : Desc} (ho : d.opc = 8) (h : hankMet (s.hank d.ghank) d.gthresh = false) : s.descWaits d = true := by
  simp [State.descWaits, ho, h]

/-! ### Gates -/

variable {g : Parked}

theorem State.gateOpen_wait (h : s.parked? n sub = some g) (ho : (descOf g.raw).opc = 8)
    (hmet : hankMet (s.hank (descOf g.raw).ghank) (descOf g.raw).gthresh = true) :
    s.gateOpen n sub = (s.unpark n sub).postCompletion n sub 0 0 (descOf g.raw).cookie := by
  simp [State.gateOpen, h, State.descWaits_met hmet, ho]

theorem State.waitOver_due (h : s.parked? n sub = some g) (ho : (descOf g.raw).opc = 8)
    (hmet : hankMet (s.hank (descOf g.raw).ghank) (descOf g.raw).gthresh = false) (ht : bits 0 32 (descOf g.raw).opa ≠ 0)
    (hdue : g.since + 1000 * bits 0 32 (descOf g.raw).opa ≤ s.now) :
    s.waitOver n sub = (s.unpark n sub).postCompletion n sub 8 0 (descOf g.raw).cookie := by
  simp [State.waitOver, h, State.descWaits_wait ho hmet, ho, ht, Nat.not_lt.2 hdue]

theorem State.gateOpen_begins (h : s.parked? n sub = some g) (h8 : (descOf g.raw).opc ≠ 8) (hcan : s.canStart n (descOf g.raw) = true)
    (hwait : s.descWaits (descOf g.raw) = false) : s.gateOpen n sub = (s.unpark n sub).beginDesc n sub g.raw := by
  simp [State.gateOpen, h, hwait, h8, hcan]

end

/-! ### WARP_JOIN -/

/-- The binding of a WARP_JOIN that waits for the first phase of its pattern. -/
def joinBinding (s : State) (n sub raw : Nat) : Binding :=
  { id := s.ep.warp.nextId, ring := n, sub := sub, raw := raw
    first := bits 0 16 (descOf raw).opa, last := bits 16 16 (descOf raw).opa
    pattern := (s.phOf (bits 0 16 (descOf raw).opa)).pattern, inst := none, landed := [], shadowed := [], failed := none
    landing := 0, code := none }

/-- A WARP_JOIN from the first phase of its pattern is bound to none of the running instances. -/
theorem State.bindJoin_first {s : State} {n sub raw : Nat}
    (h : bits 0 16 (descOf raw).opa = (s.patOf (s.phOf (bits 0 16 (descOf raw).opa)).pattern).first) :
    s.bindJoin n sub raw = s.modEw fun w => { w with nextId := w.nextId + 1, binds := w.binds ++ [joinBinding s n sub raw] } := by
  unfold State.bindJoin Desc.phases
  dsimp only
  rw [if_pos h]
  rfl

/-- Settles O7, by what the front of a ring, or a parked descriptor, begins. -/
theorem waitsAndJoins : Obligations.WaitsAndJoins := by
  refine fun s n sub raw => ⟨fun h hcan ho hbad hmet => ?_, fun g h ho => ⟨fun hmet => ?_, fun hmet ht hdue => ?_⟩,
    fun g h h8 h7 hcan hbad hmis hwait => ?_, fun h hcan ho hbad hwait hfirst => ?_⟩
  · exact ends_front (by simp [startCommands, ho]) h hcan (by simp [State.descWaits_met hmet]) (State.beginDesc_wait (s := s.dropFront n) hbad ho)
  · exact congrArg (fun t : State => Host.Outcome.next t.unready) (State.gateOpen_wait h ho hmet)
  · exact congrArg Host.Outcome.next (State.waitOver_due h ho hmet ht hdue)
  · refine ⟨(s.gateOpen n sub).unready, rfl, ?_⟩
    rw [State.gateOpen_begins h h8 hcan hwait, State.beginDesc_starts (s := s.unpark n sub) hbad hmis h7 h8]
    obtain ⟨⟨a, ha, hring, hsub, hraw, hcode, hsent, -⟩, hrest⟩ := started_of (s := s) (.inr ⟨_, rfl⟩) (State.onlyRings_unready _)
    exact ⟨⟨a, ha, hring, hsub, hraw, hcode, hsent⟩, hrest⟩
  · have hjoin : (s.dropFront n).bindJoin n sub raw
        = (s.dropFront n).modEw fun w => { w with nextId := w.nextId + 1, binds := w.binds ++ [joinBinding s n sub raw] } :=
      State.bindJoin_first (s := s.dropFront n) hfirst
    have hstart : s.startNext n
        = (s.dropFront n).modEw fun w => { w with nextId := w.nextId + 1, binds := w.binds ++ [joinBinding s n sub raw] } := by
      rw [State.startNext_begins (State.front_of_fetched h) hcan (by simp [hwait]), State.beginDesc_join (s := s.dropFront n) hbad ho, hjoin]
      exact State.settleRing_empty (congrArg Ring.fetched (State.ring_dropFront h))
    refine ⟨(s.startNext n).unready, exec_start_front (by simp [startCommands, ho]) (State.front_of_fetched h), ?_⟩
    rw [hstart]
    exact ⟨rfl, rfl, rfl, rfl, rfl, rfl, rfl, rfl⟩

end Sys2Proof.Machine
end

section
/-! A shuttle is scheduled, while the map of the rings lists a ring twice (R118, R119, R120). -/

namespace Sys2Proof.Machine

open Sys2Proof Sys2Proof.Claims

/-- A PUT of 64 bytes on ring 5. -/
def onePut : Act :=
  { ring := 5, sub := 4, raw := 1 + 64 * 2 ^ 32 + 4096 * 2 ^ 64 + 8192 * 2 ^ 128
    todo := [(descOf (1 + 64 * 2 ^ 32 + 4096 * 2 ^ 64 + 8192 * 2 ^ 128)).whole], list := [], halves := [], asked := 0
    checked := false, ahead := 0, sent := false, parts := 0, landed := 0, code := 0, info := 0, keyDead := false }

/-- Ring 5 alone is ready, with `onePut` started; of the two entries of ring 6, which is of the higher class, the second has a deficit and
a descriptor fetched. -/
def doubledFront : State := { State.reset with
  now := 30000
  ep := { State.reset.ep with
    regs := [(Reg.epShtCtl, 0xFFFF), (Reg.epRngCfg 5, 3 * 2 ^ 24 + 65552), (Reg.epRngCfg 6, 5 * 2 ^ 24 + 16), (Reg.epXltCtl, 1), (Reg.epSecNode, 0x8007),
      (psBase .plocen 0 + 4, 2), (Reg.epRngSched 5, 0xFF)]
    att := { exchanged := true, modules := 8, active := true, initSeen := true, ackSeen := true, rids := 4, p2aLimit := 64 }
    rings := [(5, { active := true, burst := 1, deficit := 4 }), (6, {}), (6, { active := true, deficit := 1, fetched := [(9, 0)] })]
    acts := [onePut], released := [(0, 0)]
    xlt := { active := true, outExt := [{ tag := 1, start := 0, pages := 16, target := 9 * 2 ^ 49, ttag := 3, perm := 7 }] } } }

/-- No ring but ring 5 is ready: of ring 6 the first entry counts. -/
theorem ringReady_doubledFront (n : Nat) (hn : n ≠ onePut.ring) : doubledFront.ringReady 2 n = false := by
  have hring : doubledFront.ring n = {} := by
    have h5 : (5 : Nat) ≠ n := Ne.symm hn
    simp only [State.ring, doubledFront, SMap.look, h5, if_false]
    split <;> rfl
  have hacts : (doubledFront.ep.acts.filter fun a => a.ring == n) = [] :=
    List.filter_cons_of_neg (by simp [Ne.symm hn])
  have hgates : doubledFront.ep.gates = [] := rfl
  simp [State.ringReady, State.ringStarts, State.openParked, State.front, hring, hacts, hgates]

/-- Ring 6 takes the shuttle, which forms nothing. -/
theorem formed_schedule_doubledFront : ((doubledFront.schedule 2).shuttle 2).formed = 0 := by decide +kernel

/-! ### What forming a container would leave -/

theorem State.destRun_idle {s : State} (hdest : s.ep.dest = {}) (n : Nat) : s.destRun n = s := by
  cases n with
  | zero => rfl
  | succ n =>
    rw [State.destRun, hdest]
    rfl

/-- With nothing at the destination nothing is released but what waits for the attach link. -/
theorem State.releaseLands_idle {s : State} (hdest : s.ep.dest = {}) : s.releaseLands = s.request [] := by
  have hmod : s.modDest (fun d => { d with lineWait := [] }) = s := by
    rw [State.modDest, hdest, ← hdest]
  rw [State.releaseLands, hmod, State.landWrites, State.modDest, hdest]
  simp only [List.filter_nil, List.append_nil]
  rw [← hdest]

/-- With nothing at the destination, and no container whose parts have all been read, nothing is promoted. -/
theorem State.promote_idle {s : State} (hforming : (s.ep.src.held.filter fun h => h.loc == .forming 0) = []) (hdest : s.ep.dest = {}) :
    s.promote = s.request [] := by
  obtain ⟨a, o, hreq⟩ := s.request_only []
  have hdest' : (s.request []).ep.dest = {} := by
    rw [hreq]
    exact hdest
  simp only [State.promote, hforming, List.foldl_nil, State.destGo, State.releaseLands_idle hdest, State.destRun_idle hdest',
    List.flatMap_nil, List.dedup_nil]

theorem State.shuttle_request (s : State) (l : List AttReq) (k : Nat) : (s.request l).shuttle k = s.shuttle k := by
  obtain ⟨a, o, hreq⟩ := s.request_only l
  rw [hreq]
  rfl

/-- A container kept to be formed when its data has been read. -/
theorem State.formed_newHeld (s : State) (m : Msg) (sent : SentMsg) (node plane planes xtag reserve : Nat) (stream : Option Nat)
    (direct small room : Bool) (shuttle : Option Nat) {reads : List (Nat × Nat × Nat)} (hreads : reads ≠ []) (hsrc : s.ep.src = {})
    (hdest : s.ep.dest = {}) (k : Nat) :
    (((s.newHeld m sent node plane planes xtag reserve stream direct small room shuttle reads).promote).shuttle k).formed
      = (s.shuttle k).formed := by
  obtain ⟨h, l, hnew, hloc⟩ : ∃ (h : Held) (l : List AttReq),
      s.newHeld m sent node plane planes xtag reserve stream direct small room shuttle reads
        = (s.setSource .plocen { s.ep.src with held := s.ep.src.held ++ [h], nextId := s.ep.src.nextId + 1 }).request l
      ∧ h.loc = .forming reads.length := ⟨_, _, rfl, rfl⟩
  obtain ⟨a, o, hreq⟩ := State.request_only
    (s.setSource .plocen { s.ep.src with held := s.ep.src.held ++ [h], nextId := s.ep.src.nextId + 1 }) l
  have hforming : ((s.ep.src.held ++ [h]).filter fun h => h.loc == .forming 0) = [] := by
    rw [hsrc]
    refine List.filter_cons_of_neg ?_
    simp [hloc, hreads]
  rw [hnew, State.promote_idle, State.shuttle_request, State.shuttle_request]
  · rfl
  · rw [hreq]
    exact hforming
  · rw [hreq]
    exact hdest

/-- The PUT's data is read from the accelerator, so that forming its container counts it and no more. -/
theorem formed_formDesc_onePut {u : State} (hsrc : u.ep.src = {}) (hdest : u.ep.dest = {}) :
    ((u.formDesc 2 onePut 9 8192 3 64 0 8192).shuttle 2).formed = ((u.shuttle 2).formed + 1) % 2 ^ 64 := by
  refine (State.formed_newHeld _ _ _ _ _ _ _ _ _ _ _ _ _ ?_ ?_ ?_ 2).trans ?_
  · decide
  · exact hsrc
  · exact hdest
  · rw [State.shuttle, State.shuttle]
    exact congrArg Shuttle.formed (SMap.look_put_same _ _ _ _)

/-- Refutes O9: in a state whose map of rings is not in canonical form, the second entry of a ring, which is not ready, takes the place of
both when its deficit is cleared; the ring is ready then, of the higher class, and takes the shuttle from the one ring that was. -/
theorem not_shuttlesAndBursts : ¬ Obligations.ShuttlesAndBursts := by
  intro h
  have hnext : (doubledFront.nextOf 2 onePut).1 = .form 9 8192 3 64 0 8192 := by decide +kernel
  obtain ⟨t, u, ht, hu, -, -, -, hshuttles, -⟩ := h.2.2.2.2.2 doubledFront 2 onePut 9 8192 3 64 0 8192 rfl (by decide) rfl (by decide +kernel)
    (by decide +kernel) (by decide +kernel) (by decide +kernel) (by decide +kernel) (by decide +kernel) ringReady_doubledFront
    (by decide +kernel) hnext
  have ht' : doubledFront.schedule 2 = t := Host.Outcome.next.inj ht
  have hsrc : u.ep.src = {} := by
    rw [hu]
    exact (by decide +kernel : (doubledFront.nextOf 2 onePut).2.ep.src = {})
  have hdest : u.ep.dest = {} := by
    rw [hu]
    exact (by decide +kernel : (doubledFront.nextOf 2 onePut).2.ep.dest = {})
  have hformed : (u.shuttle 2).formed = 0 := by
    rw [hu]
    exact (by decide +kernel : ((doubledFront.nextOf 2 onePut).2.shuttle 2).formed = 0)
  have hone := formed_formDesc_onePut hsrc hdest
  have hsame : (t.shuttle 2).formed = ((u.formDesc 2 onePut 9 8192 3 64 0 8192).shuttle 2).formed := by
    rw [State.shuttle, State.shuttle]
    exact congrArg (fun m : SMap Shuttle => (SMap.look (fun _ => {}) m 2).formed) hshuttles
  rw [hone, hformed, ← ht', formed_schedule_doubledFront] at hsame
  exact absurd hsame (by decide)

end Sys2Proof.Machine
end

section
/-! A container comes in at a Plocen (R153, R170, R273), is reflected (R176, R180), and containers are injected (R160, R161, R163). -/

namespace Sys2Proof.Machine

open Sys2Proof Sys2Proof.Claims

/-! ### A container is taken at a port of the Plocen -/

/-- A block that a port of the Plocen receives changes that port's link, and the key generation shown where a rekey is undone. -/
theorem State.rxBlock_plocen (s : State) (p : Nat) (b : Block) :
    regsBut s (s.rxBlock .plocen p b) .plocen [keygenReg .plocen p]
      ∧ s.rxBlock .plocen p b = { s with ep := { s.ep with
          links := (s.rxBlock .plocen p b).ep.links, regs := (s.rxBlock .plocen p b).ep.regs } } := by
  unfold State.rxBlock State.rxLink
  dsimp only
  split
  · split
    · exact ⟨regsBut_trans (regsBut_of_epRegs rfl) (regsBut_setFld _ _ _ _ (List.mem_cons_self ..)), rfl⟩
    · exact ⟨regsBut_of_epRegs rfl, rfl⟩
  · exact ⟨regsBut_of_epRegs rfl, rfl⟩

/-- The state in which a port of the Plocen has received a container's block. -/
structure State.Received (s t : State) (p : Nat) : Prop where
  regs : regsBut s t .plocen [keygenReg .plocen p]
  frame : t = { s with ep := { s.ep with links := t.ep.links, regs := t.ep.regs } }

theorem State.received_rxBlock (s : State) (p : Nat) (b : Block) : s.Received (s.rxBlock .plocen p b) p :=
  ⟨(s.rxBlock_plocen p b).1, (s.rxBlock_plocen p b).2⟩

section
variable {s t : State} {p : Fin 8}

/-- The key generations stand apart from the registers that say how a container is taken and answered. -/
theorem State.Received.reg (h : s.Received t p) {a : Nat} (ha : a < 0x70100 ∨ 0x70200 ≤ a) : t.reg .plocen a = s.reg .plocen a :=
  h.regs a (by simp only [keygenReg, Reg.epSecPKeygen, List.mem_singleton]; omega)

theorem State.Received.fld (h : s.Received t p) {a : Nat} (ha : a < 0x70100 ∨ 0x70200 ≤ a) (lo len : Nat) :
    t.fld .plocen a lo len = s.fld .plocen a lo len := State.fld_congr (h.reg ha) lo len

theorem State.Received.flag (h : s.Received t p) {a : Nat} (ha : a < 0x70100 ∨ 0x70200 ≤ a) (i : Nat) :
    t.flag .plocen a i = s.flag .plocen a i := State.flag_congr (h.reg ha) i

theorem State.Received.now (h : s.Received t p) : t.now = s.now := by rw [h.frame]

theorem State.Received.src (h : s.Received t p) : t.ep.src = s.ep.src := by rw [h.frame]

theorem State.Received.dest (h : s.Received t p) : t.ep.dest = s.ep.dest := by rw [h.frame]

theorem State.Received.xlt (h : s.Received t p) : t.ep.xlt = s.ep.xlt := by rw [h.frame]

theorem State.Received.hanks (h : s.Received t p) : t.ep.hanks = s.ep.hanks := by rw [h.frame]

theorem State.Received.down (h : s.Received t p) : t.ep.att.down = s.ep.att.down := by rw [h.frame]

theorem State.Received.warp (h : s.Received t p) : t.ep.warp = s.ep.warp := by rw [h.frame]

theorem State.Received.onlyPlocen (h : s.Received t p) : onlyPlocen s t := by
  rw [h.frame]
  exact ⟨rfl, rfl, rfl, rfl⟩

theorem State.Received.portUp (h : s.Received t p) : t.portUp .plocen p = s.portUp .plocen p := by
  have hps : psBase .plocen p + 4 < 0x70100 ∨ 0x70200 ≤ psBase .plocen p + 4 := .inl (by simp only [psBase, epPortSetBase]; omega)
  simp only [State.portUp, State.portState, h.fld hps]

theorem State.Received.ptNow (h : s.Received t p) (n : Nat) : t.ptNow n p = s.ptNow n p := by
  have hslot : t.ptSlot p = s.ptSlot p := h.fld (.inl (by simp only [Reg.epSeqWport]; omega)) 0 3
  have hword : ∀ slot off, t.ptWord slot off = s.ptWord slot off := fun slot off => h.reg (.inr (by omega))
  have hentry : ∀ slot n j, t.ptEntry slot n j = s.ptEntry slot n j := fun slot n j => by simp only [State.ptEntry, hword]
  have hrun : t.ptRunning = s.ptRunning := h.flag (.inl (by decide)) 3
  simp only [State.ptNow, hrun, hslot, hentry, h.warp]

theorem State.Received.ownNode (h : s.Received t p) : t.ownNode .plocen = s.ownNode .plocen := h.fld (.inl (by decide)) 0 15

/-- Congruence of what decides whether a container is for this node. -/
theorem State.Received.epAddressed (h : s.Received t p) (c : Container) : t.epAddressed c = s.epAddressed c := by
  simp only [State.epAddressed, h.ownNode]

variable {c : Container}

theorem State.epContainerIn_taken (h : epTakes s p c) : s.epContainerIn p c = (s.rxBlock .plocen p (.weft c)).epArrive p c := by
  obtain ⟨hup, hlost, -, -, -, huse, -, -⟩ := h
  simp [State.epContainerIn, hup, hlost, huse]

theorem State.epSlotUse_taken (h : epTakes s p c) (hr : s.Received t p) : t.epSlotUse p c.kind c.src c.skein = (false, t) := by
  obtain ⟨-, -, -, hkind, hwarp, huse, -, -⟩ := h
  have hk : (c.kind == 3) = false := by
    rw [beq_eq_false_iff_ne]
    omega
  have hw : (entryRx (s.ptNow s.now p) == 1) = false := beq_eq_false_iff_ne.2 hwarp
  simp only [State.epSlotUse, hr.now, hr.ptNow, if_neg huse, hk, hw, beq_self_eq_true, if_true]

theorem State.epArrive_taken (h : epTakes s p c) (hr : s.Received t p) : t.epArrive p c
    = if c.refl then t.reflected .plocen c p
      else (((containerMsgs c).filter fun m => m.reply).foldl (fun t m => t.takeReply .plocen c m) (t.takeWin .plocen c.src p c.win)).epRequests
        p c ((containerMsgs c).filter fun m => !m.reply) := by
  have huse := State.epSlotUse_taken h hr
  obtain ⟨hup, -, hcrc, hkind, -, -, hto, -⟩ := h
  have hup' : t.portUp .plocen p = true := hr.portUp.trans hup
  have hto' : t.epAddressed c = true := (hr.epAddressed c).trans hto
  simp only [State.epArrive, huse, hup', hto', ← hcrc]
  have hk : (c.kind == 1 || c.kind == 2) = true := by simpa using hkind
  simp [hk]

end

/-! ### INJECT -/

section
variable (s : State) (h : Held)

/-- The containers that are packed into one with `h` (R121). -/
def State.injectMates : List Held := s.ep.src.mates h

/-- `h` is packed with others. -/
def State.injectPacks : Bool := h.small && decide (1 < (s.injectMates h).length)

/-- What is injected in the place of `h`: itself, or the container that it is packed into. -/
def State.injectGroup : Held := if s.injectPacks h then packOf h (s.injectMates h) else h

/-- The containers that are no longer held, since they are packed into the one injected. -/
def State.injectGone : List Nat := if s.injectPacks h then ((s.injectMates h).map fun y : Held => y.id).filter fun i => i != h.id else []

/-- RETRY, the limit of timeouts and LIFE that a container is sent under. -/
def State.injectLimits : Nat × Nat × Nat := if h.first.isSome then (h.retryUs, h.maxTmo, h.lifeUs) else s.limits .plocen

/-- The container as it is held after its injection. -/
def State.injected : Held :=
  { s.injectGroup h with
    c := sealed { (s.injectGroup h).c with
      age := if h.first.isSome then h.c.age else ageOf s.now, hops := s.sourceHops .plocen, defl := 0, win := s.winNow .plocen }
    loc := .port, first := some (h.first.getD s.now), due := s.now + 1000 * (s.injectLimits h).1, retryUs := (s.injectLimits h).1
    maxTmo := (s.injectLimits h).2.1, lifeUs := (s.injectLimits h).2.2, room := true }

/-- What is held after the injection. -/
def State.injectedHelds : List Held :=
  (s.ep.src.held.filter fun y => !(s.injectGone h).contains y.id).map fun y : Held => if y.id = h.id then s.injected h else y

theorem State.injectHeld_eq (p : Nat) :
    ∃ q d, s.injectHeld p h = { s with ep := { s.ep with
      src := { s.ep.src with
        held := s.injectedHelds h
        used := SMap.put (fun _ => 0) s.ep.src.used (creditKey h.c.dest p) (s.ep.src.creditsUsed h.c.dest p + 1) }
      tx := SMap.put (fun _ => {}) s.ep.tx p q
      xlt := { s.ep.xlt with drains := d } } } := ⟨_, _, rfl⟩

theorem State.injectGroup_id : (s.injectGroup h).id = h.id := by
  unfold State.injectGroup
  split <;> rfl

theorem State.injectGroup_dest : (s.injectGroup h).c.dest = h.c.dest := by
  unfold State.injectGroup
  split
  · unfold packOf containerOf
    dsimp only
    split <;> rfl
  · rfl

theorem State.injectGroup_large (hsmall : h.small = false) : s.injectGroup h = h := by
  rw [State.injectGroup, State.injectPacks, hsmall]
  rfl

theorem State.injectGone_self : (s.injectGone h).contains h.id = false := by
  unfold State.injectGone
  split <;> simp

end

/-- Where each entry of a number has been replaced by one of that number, the first of it is that one. -/
theorem find?_map_replace {l : List Held} {id : Nat} {g : Held} (hg : g.id = id) (h : ∃ y ∈ l, y.id = id) :
    ((l.map fun y : Held => if y.id = id then g else y).find? fun y => y.id == id) = some g := by
  induction l with
  | nil => simp at h
  | cons x l ih =>
    rw [List.map_cons]
    by_cases hx : x.id = id
    · rw [if_pos hx]
      exact List.find?_cons_of_pos (p := fun y : Held => y.id == id) (beq_iff_eq.2 hg)
    · rw [if_neg hx, List.find?_cons_of_neg (p := fun y : Held => y.id == id) (by simpa using hx)]
      refine ih ?_
      obtain ⟨y, hy, hid⟩ := h
      rcases List.mem_cons.1 hy with rfl | hy
      · exact absurd hid hx
      · exact ⟨y, hy, hid⟩

theorem State.held_injected {s : State} {h : Held} (hmem : h ∈ s.ep.src.held) :
    ((s.injectedHelds h).find? fun y => y.id == h.id) = some (s.injected h) := by
  refine find?_map_replace (s.injectGroup_id h) ⟨h, List.mem_filter.2 ⟨hmem, ?_⟩, rfl⟩
  rw [s.injectGone_self h]
  rfl

theorem inject_after {s : State} {p : Fin 8} {h : Held} (hmem : h ∈ s.ep.src.held) :
    let t := s.injectHeld p h
    let g := s.injected h
    t.held? .plocen h.id = some g ∧ g.loc = .port ∧ g.first = some (h.first.getD s.now)
      ∧ g.c.age = (if h.first.isSome then h.c.age else bits 5 16 s.now) ∧ g.c.hops = max (s.fld .plocen Reg.epSeqCtl 0 4) 1
      ∧ g.c.win = s.winNow .plocen ∧ g.c.dest = h.c.dest ∧ t.ep.src.creditsUsed h.c.dest p = s.ep.src.creditsUsed h.c.dest p + 1
      ∧ (h.small = false → g.c.payload = h.c.payload ∧ g.c.seq = h.c.seq ∧ g.msgs = h.msgs)
      ∧ (h.first.isSome = true → g.retryUs = h.retryUs ∧ g.maxTmo = h.maxTmo ∧ g.lifeUs = h.lifeUs)
      ∧ (∀ q, q ≠ p.val → SMap.look (fun _ => ({} : TxQ)) t.ep.tx q = SMap.look (fun _ => ({} : TxQ)) s.ep.tx q)
      ∧ t = { s with ep := { s.ep with src := t.ep.src, tx := t.ep.tx, xlt := { s.ep.xlt with drains := t.ep.xlt.drains } } } := by
  dsimp only
  obtain ⟨q, d, heq⟩ := s.injectHeld_eq h p
  rw [heq]
  refine ⟨State.held_injected hmem, rfl, rfl, rfl, rfl, rfl, s.injectGroup_dest h, ?_, fun hsmall => ?_, fun hfirst => ?_, fun q hq => ?_, rfl⟩
  · simp only [Source.creditsUsed, SMap.look_put_same]
  · simp [State.injected, s.injectGroup_large h hsmall, sealed]
  · simp only [State.injected, State.injectLimits, if_pos hfirst]
    exact ⟨trivial, trivial, trivial⟩
  · exact SMap.look_put_other (α := TxQ) _ _ _ _ _ hq

/-! ### REFLECTED -/

theorem State.reg_addPair_other (s : State) (p : Part) {lo hi a : Nat} (n : Nat) (hlo : lo ≠ a) (hhi : hi ≠ a) :
    (s.addPair p lo hi n).reg p a = s.reg p a := by
  simp only [State.addPair]
  rw [State.reg_setReg_other _ _ _ _ _ _ (.inr hhi), State.reg_setReg_other _ _ _ _ _ _ (.inr hlo)]

theorem sum_pair (v : Nat) : bits 0 32 v % 2 ^ 32 + 2 ^ 32 * (bits 32 32 v % 2 ^ 32) = v % 2 ^ 64 := by
  simp only [bits]
  omega

/-- A counter of 64 bits in two registers advances. -/
theorem State.pair_addPair (s : State) (p : Part) {lo hi : Nat} (h : lo ≠ hi) (n : Nat) :
    (s.addPair p lo hi n).reg p lo + 2 ^ 32 * (s.addPair p lo hi n).reg p hi = (s.reg p lo + 2 ^ 32 * s.reg p hi + n) % 2 ^ 64 := by
  simp only [State.addPair]
  rw [State.reg_setReg_other _ _ _ _ _ _ (.inr h.symm), State.reg_setReg_same, State.reg_setReg_same, sum_pair]

section
variable {s : State} {h : Held} {c : Container}

/-- The reflection is counted, and the container leaves its port's queue. -/
def State.reflectCounted (s : State) (h : Held) : State :=
  if h.loc = .port then (s.addPair .plocen Reg.epSeqReflLo Reg.epSeqReflHi 1).unqueue h.plane h.id
  else s.addPair .plocen Reg.epSeqReflLo Reg.epSeqReflHi 1

/-- A reflected container that is still to be tried waits for its backoff. -/
def State.backedOff (s : State) (h : Held) : State :=
  (s.reflectCounted h).draw.2.modHeld .plocen h.id fun g => { g with
    refls := g.refls + 1
    loc := .backoff (s.now + s.fld .plocen Reg.epSeqBackoff 0 16 * 2 ^ min g.refls 6
      + (s.reflectCounted h).draw.1.toNat % (s.fld .plocen Reg.epSeqBackoff 0 16 + 1)) }

theorem State.reflected_backedOff (hdefl : c.defl ≠ 15) (hfind : (s.ep.src.held.find? fun h => h.hasCredit
      && ({ h.c with refl := false, hops := 0, defl := 0 } == { c with refl := false, hops := 0, defl := 0 })) = some h)
    (hlife : s.lifeOver h = false) (plane : Nat) : s.reflected .plocen c plane = s.backedOff h := by
  have hfind' : ((s.addPair .plocen Reg.epSeqReflLo Reg.epSeqReflHi 1).source .plocen).held.find? (fun h => h.hasCredit
      && ({ h.c with refl := false, hops := 0, defl := 0 } == { c with refl := false, hops := 0, defl := 0 })) = some h := hfind
  have hlife' : (s.addPair .plocen Reg.epSeqReflLo Reg.epSeqReflHi 1).lifeOver h = false := hlife
  have hbase : (s.addPair .plocen Reg.epSeqReflLo Reg.epSeqReflHi 1).backoffBase .plocen = s.fld .plocen Reg.epSeqBackoff 0 16 :=
    State.fld_congr (s.reg_addPair_other .plocen 1 (by decide) (by decide)) 0 16
  simp only [State.reflected, if_true, hfind', hlife', hdefl, Bool.false_eq_true, if_false, false_and, true_and, hbase]
  rfl

theorem find?_map_same {l : List Held} {id : Nat} {h : Held} (f : Held → Held) (hf : ∀ g, (f g).id = g.id)
    (hl : (l.find? fun g => g.id == id) = some h) :
    ((l.map fun g : Held => if g.id = id then f g else g).find? fun g => g.id == id) = some (f h) := by
  induction l with
  | nil => simp at hl
  | cons x l ih =>
    rw [List.map_cons]
    by_cases hx : x.id = id
    · rw [List.find?_cons_of_pos (p := fun y : Held => y.id == id) (beq_iff_eq.2 hx)] at hl
      rw [if_pos hx, List.find?_cons_of_pos (p := fun y : Held => y.id == id) (by rw [hf, hx, beq_self_eq_true]), Option.some.inj hl]
    · rw [List.find?_cons_of_neg (p := fun y : Held => y.id == id) (by simpa using hx)] at hl
      rw [if_neg hx, List.find?_cons_of_neg (p := fun y : Held => y.id == id) (by simpa using hx), ih hl]

/-- The first container of a number, after a change of the containers of that number. -/
theorem State.held?_modHeld {part : Part} {id : Nat} (f : Held → Held) (hf : ∀ g, (f g).id = g.id) (hh : s.held? part id = some h) :
    (s.modHeld part id f).held? part id = some (f h) := by
  cases part
  · exact find?_map_same f hf hh
  · exact find?_map_same f hf hh

theorem State.src_reflectCounted (s : State) (h : Held) : (s.reflectCounted h).ep.src = s.ep.src := by
  unfold State.reflectCounted
  split <;> rfl

theorem State.pair_reflectCounted (s : State) (h : Held) :
    (s.reflectCounted h).reg .plocen Reg.epSeqReflLo + 2 ^ 32 * (s.reflectCounted h).reg .plocen Reg.epSeqReflHi
      = (s.reg .plocen Reg.epSeqReflLo + 2 ^ 32 * s.reg .plocen Reg.epSeqReflHi + 1) % 2 ^ 64 := by
  refine Eq.trans ?_ (s.pair_addPair .plocen (by decide : Reg.epSeqReflLo ≠ Reg.epSeqReflHi) 1)
  unfold State.reflectCounted
  split <;> rfl

theorem State.onlyPlocen_backedOff (s : State) (h : Held) : onlyPlocen s (s.backedOff h) := by
  unfold State.backedOff State.reflectCounted
  split <;> exact ⟨rfl, rfl, rfl, rfl⟩

theorem State.onlyPlocen_trans {s t u : State} (h : onlyPlocen s t) (k : onlyPlocen t u) : onlyPlocen s u := by
  obtain ⟨hrp, hhbm, hnow, hpending⟩ := h
  obtain ⟨krp, khbm, know, kpending⟩ := k
  exact ⟨krp.trans hrp, khbm.trans hhbm, know.trans hnow, kpending.trans hpending⟩

theorem backedOff_after (hh : s.held? .plocen h.id = some h) :
    ∃ r, r ≤ s.fld .plocen Reg.epSeqBackoff 0 16
      ∧ (s.backedOff h).held? .plocen h.id = some { h with
          refls := h.refls + 1
          loc := .backoff (s.now + s.fld .plocen Reg.epSeqBackoff 0 16 * 2 ^ min h.refls 6 + r) }
      ∧ (s.backedOff h).reg .plocen Reg.epSeqReflLo + 2 ^ 32 * (s.backedOff h).reg .plocen Reg.epSeqReflHi
          = (s.reg .plocen Reg.epSeqReflLo + 2 ^ 32 * s.reg .plocen Reg.epSeqReflHi + 1) % 2 ^ 64 := by
  refine ⟨(s.reflectCounted h).draw.1.toNat % (s.fld .plocen Reg.epSeqBackoff 0 16 + 1),
    Nat.le_of_lt_succ (Nat.mod_lt _ (Nat.succ_pos _)), ?_, s.pair_reflectCounted h⟩
  refine State.held?_modHeld (h := h) (fun g => { g with
    refls := g.refls + 1
    loc := .backoff (s.now + s.fld .plocen Reg.epSeqBackoff 0 16 * 2 ^ min g.refls 6
      + (s.reflectCounted h).draw.1.toNat % (s.fld .plocen Reg.epSeqBackoff 0 16 + 1)) }) (fun _ => rfl) ?_
  have hsrc : (s.reflectCounted h).draw.2.source .plocen = s.source .plocen := s.src_reflectCounted h
  rw [State.held?, hsrc]
  exact hh

end

/-- Settles O15: the container found is injected; one that comes back waits for its backoff. -/
theorem injectionAndBackoff : Obligations.InjectionAndBackoff := by
  refine ⟨fun s p h hfind => ⟨fun hlife => ?_, fun hlife => ?_⟩, fun s p c h htakes hrefl hdefl hfind hh hlife => ?_⟩
  · show Host.Outcome.next (s.injectOn p) = _
    rw [State.injectOn, hfind]
    exact congrArg _ (if_pos hlife)
  · refine ⟨s.injectHeld p h, s.injected h, ?_, inject_after (List.mem_of_find?_eq_some hfind)⟩
    show Host.Outcome.next (s.injectOn p) = _
    rw [State.injectOn, hfind]
    exact congrArg _ (if_neg (by simp [hlife]))
  · have hr := s.received_rxBlock p (.weft c)
    have hexec : exec (.reflectedArrival p c) s = .next ((s.rxBlock .plocen p (.weft c)).backedOff h).unready := by
      show Host.Outcome.next (if c.refl then (s.epContainerIn p c).unready else s) = _
      rw [if_pos hrefl, State.epContainerIn_taken htakes, State.epArrive_taken htakes hr, if_pos hrefl,
        State.reflected_backedOff hdefl (by rw [hr.src]; exact hfind) (by rw [State.lifeOver, hr.now]; exact hlife)]
    rw [hexec]
    generalize s.rxBlock .plocen p (.weft c) = t at hr
    obtain ⟨r, hle, hheld, hpair⟩ := backedOff_after (s := t) (h := h) (by rw [State.held?, State.source, hr.src]; exact hh)
    rw [hr.fld (.inl (by decide))] at hle
    rw [hr.fld (.inl (by decide)), hr.now] at hheld
    rw [hr.reg (.inl (by decide)), hr.reg (.inl (by decide))] at hpair
    exact ⟨_, r, rfl, hle, hheld, hpair, State.onlyPlocen_trans hr.onlyPlocen (t.onlyPlocen_backedOff h)⟩

end Sys2Proof.Machine
end

section
/-! SUPPORT. Sending on the attach link (R69-R72, R74): what it keeps of the link, and that it takes back nothing sent. -/

namespace Sys2Proof.Machine

open Sys2Proof Sys2Proof.Claims

/-- The fields of the attach link that sending never changes are those of `a`, and the others those of `b`. -/
def Attach.sending (a b : Attach) : Attach :=
  { a with txSeq := b.txSeq, txHeld := b.txHeld, told := b.told, p2aUsed := b.p2aUsed, cplQueue := b.cplQueue, tags := b.tags
           queue := b.queue }

/-- From `s` to `t` the Plocen has sent on its attach link, or taken up what waits to be sent there: what had gone out before is
still there, and the data flits kept for a replay are kept before the new ones. -/
structure State.Sent (s t : State) : Prop where
  only : onlyAttach s t
  att : t.ep.att = s.ep.att.sending t.ep.att
  out : ∃ l, t.out = l ++ s.out
  held : s.ep.att.txHeld <+: t.ep.att.txHeld

section
variable {s t u : State}

theorem State.Sent.refl (s : State) : s.Sent s := ⟨rfl, rfl, ⟨[], rfl⟩, List.prefix_rfl⟩

theorem State.Sent.trans (h : s.Sent t) (g : t.Sent u) : s.Sent u := by
  obtain ⟨l, hl⟩ := h.out
  obtain ⟨m, hm⟩ := g.out
  refine ⟨?_, ?_, ⟨m ++ l, by rw [hm, hl, List.append_assoc]⟩, h.held.trans g.held⟩
  · show u = _
    rw [g.only, h.only]
  · calc u.ep.att = t.ep.att.sending u.ep.att := g.att
      _ = (s.ep.att.sending t.ep.att).sending u.ep.att := by rw [← h.att]
      _ = s.ep.att.sending u.ep.att := rfl

/-- A change of the link's own sending fields alone is one of sending. -/
theorem State.sent_modAtt (s : State) (f : Attach → Attach) (hf : ∀ a, f a = a.sending (f a)) (hh : ∀ a, a.txHeld <+: (f a).txHeld) :
    s.Sent (s.modAtt f) := ⟨rfl, hf _, ⟨[], rfl⟩, hh _⟩

/-- Something that goes out. -/
theorem State.sent_emit (s : State) (o : Out) : s.Sent (s.emit o) := ⟨rfl, rfl, ⟨[o], rfl⟩, List.prefix_rfl⟩

/-- A flit that goes out. -/
theorem State.sent_sendFlit (s : State) (kind seq : Nat) (body : List (BitVec 128)) : s.Sent (s.sendFlit kind seq body) :=
  (s.sent_emit _).trans (State.sent_modAtt _ _ (by intro a; rfl) fun _ => List.prefix_rfl)

/-- The flit that has gone out is the last of what has. -/
theorem State.out_sendFlit (s : State) (kind seq : Nat) (body : List (BitVec 128)) :
    (s.sendFlit kind seq body).out = .flit (s.flitOf kind seq body) :: s.out := rfl

theorem State.sent_sendChunks (n : Nat) (cs : List (BitVec 128)) (s : State) : s.Sent (State.sendChunks n cs s) := by
  induction n generalizing cs s with
  | zero => exact .refl s
  | succ n ih =>
    rw [State.sendChunks]
    split
    · exact .refl s
    · refine ((s.sent_sendFlit 1 s.ep.att.txSeq (flitBody cs)).trans
        (State.sent_modAtt _ _ (by intro a; rfl) fun a => ?_)).trans (ih _ _)
      exact List.prefix_append _ _

theorem State.sent_sendTxn (s : State) (x : Txn) : s.Sent (s.sendTxn x) := by
  exact (s.sent_emit (.attach x)).trans (State.sent_sendChunks _ _ _)

theorem State.sent_pumpCpl (n : Nat) (s : State) : s.Sent (State.pumpCpl n s) := by
  induction n generalizing s with
  | zero => exact .refl s
  | succ n ih =>
    rw [State.pumpCpl]
    split
    · exact .refl s
    · split
      · exact .refl s
      · refine State.Sent.trans (State.Sent.trans ?_ (State.sent_sendTxn _ _)) (ih _)
        exact s.sent_modAtt _ (by intro a; rfl) fun _ => List.prefix_rfl

theorem State.sent_pump (n : Nat) (s : State) : s.Sent (State.pump n s) := by
  induction n generalizing s with
  | zero => rw [State.pump]; exact .refl s
  | succ n ih =>
    have next : ∀ (f : Attach → Attach) (x : Txn), (∀ a, f a = a.sending (f a)) → (∀ a, (f a).txHeld = a.txHeld) →
        s.Sent (State.pump n ((s.modAtt f).sendTxn x)) := fun f x hf hh =>
      ((s.sent_modAtt f hf fun a => (hh a) ▸ List.prefix_rfl).trans (State.sent_sendTxn _ _)).trans (ih _)
    rw [State.pump]
    split
    · exact .refl s
    · dsimp only
      split
      · exact .refl s
      · split
        · apply next <;> intro a <;> rfl
        · split
          · exact .refl s
          · apply next <;> intro a <;> rfl

/-- What waits goes out as far as it may. -/
theorem State.sent_attPump (s : State) : s.Sent s.attPump := (State.sent_pumpCpl _ s).trans (State.sent_pump _ _)

theorem State.sent_request (s : State) (l : List AttReq) : s.Sent (s.request l) := by
  unfold State.request
  split
  · exact .refl s
  · refine State.Sent.trans ?_ (State.sent_pump _ _)
    exact s.sent_modAtt _ (by intro a; rfl) fun _ => List.prefix_rfl

theorem State.sent_complete (s : State) (rid tag addr status len : Nat) (data : List Byte) :
    s.Sent (s.complete rid tag addr status len data) := by
  unfold State.complete
  split
  · refine State.Sent.trans ?_ (State.sent_pumpCpl _ _)
    exact s.sent_modAtt _ (by intro a; rfl) fun _ => List.prefix_rfl
  · exact .refl s

theorem State.sent_resendHeld (s : State) (l : List (Nat × List (BitVec 128))) : s.Sent (s.resendHeld l) := by
  unfold State.resendHeld
  induction l generalizing s with
  | nil => exact .refl s
  | cons e l ih => exact (s.sent_sendFlit 1 e.1 e.2).trans (ih _)

/-! ### What goes out -/

/-- A flit that has gone out still has after more. -/
theorem sendsFlit_trans {P : Flit → Prop} (h : sendsFlit s t P) (g : ∃ l, u.out = l ++ t.out) : sendsFlit s u P := by
  obtain ⟨l, m, f, ht, hf⟩ := h
  obtain ⟨l', hu⟩ := g
  exact ⟨l' ++ l, m, f, by rw [hu, ht, List.append_assoc], hf⟩

/-- A flit that goes out after other flits went out. -/
theorem sendsFlit_of_sent {P : Flit → Prop} (h : ∃ l, t.out = l ++ s.out) (g : sendsFlit t u P) : sendsFlit s u P := by
  obtain ⟨m', hm⟩ := h
  obtain ⟨l, m, f, ht, hf⟩ := g
  exact ⟨l, m ++ m', f, by rw [ht, hm, List.append_assoc], hf⟩

/-- Every flit goes out with its own CRC. -/
theorem flitGood_flitOf (s : State) (kind seq : Nat) (body : List (BitVec 128)) : flitGood (s.flitOf kind seq body) = true := by
  unfold flitGood State.flitOf sealedFlit flitCrc
  exact beq_self_eq_true _

theorem sendsFlit_sendFlit (s : State) (kind seq : Nat) (body : List (BitVec 128)) :
    sendsFlit s (s.sendFlit kind seq body) fun f => f.kind = kind ∧ f.seq = seq ∧ f.body = body :=
  ⟨[], [], _, rfl, flitGood_flitOf s kind seq body, rfl, rfl, rfl⟩

/-- The head of the control flit that `s` sends with a SEQ. -/
def State.controlHead (s : State) (subtype : Nat) (params : List Byte) : FlitHead where
  seq := Config.controlSeq s.ep.att.txSeq
  ack := s.totals.1
  reqCrd := s.totals.2.1
  cplCrd := s.totals.2.2
  crc := (s.flitOf 2 (Config.controlSeq s.ep.att.txSeq) (controlBody subtype params)).crc

theorem State.out_sendControl (s : State) (subtype : Nat) (params : List Byte) :
    (s.sendControl subtype params).out = .flit (controlFlit (s.controlHead subtype params) subtype params) :: s.out := rfl

theorem State.sent_sendControl (s : State) (subtype : Nat) (params : List Byte) : s.Sent (s.sendControl subtype params) :=
  s.sent_sendFlit _ _ _

theorem sendsControl_sendControl (s : State) (subtype : Nat) (params : List Byte) :
    sendsControl s (s.sendControl subtype params) subtype params :=
  ⟨[], [], _, rfl, flitGood_flitOf s _ _ _, s.controlHead subtype params, rfl⟩

/-- Each data flit that is sent again goes out. -/
theorem sendsFlit_resendHeld (s : State) (l : List (Nat × List (BitVec 128))) {e : Nat × List (BitVec 128)} (he : e ∈ l) :
    sendsFlit s (s.resendHeld l) fun f => f.kind = 1 ∧ f.seq = e.1 ∧ f.body = e.2 := by
  unfold State.resendHeld
  induction l generalizing s with
  | nil => cases he
  | cons d l ih =>
    rcases List.mem_cons.1 he with rfl | he
    · exact sendsFlit_trans (sendsFlit_sendFlit s 1 e.1 e.2) (State.sent_resendHeld _ l).out
    · exact sendsFlit_of_sent (s.sent_sendFlit 1 d.1 d.2).out (ih _ he)

end

end Sys2Proof.Machine
end

section
/-! The attach link comes up (R66, R68, R72, R92). -/

namespace Sys2Proof.Machine

open Sys2Proof Sys2Proof.Claims

section
variable {s t u : State}

theorem onlyAttach_trans (h : onlyAttach s t) (g : onlyAttach t u) : onlyAttach s u := by
  unfold onlyAttach at h g ⊢
  rw [g, h]

theorem State.onlyAttach_modAtt (s : State) (f : Attach → Attach) : onlyAttach s (s.modAtt f) := rfl

/-- A change of the attach link after which something has been sent. -/
theorem State.Sent.only_modAtt {f : Attach → Attach} (h : (s.modAtt f).Sent t) : onlyAttach s t :=
  onlyAttach_trans (s.onlyAttach_modAtt f) h.only

/-- What the flit's ACK and REQ_CRD do to the link. -/
def Attach.acked (f : Flit) (a : Attach) : Attach :=
  { a with txHeld := heldAfter f.ack a.txHeld, p2aFreed := a.p2aFreed + subMod 16 f.reqCrd a.p2aFreed }

theorem State.sent_flitTotals (s : State) (f : Flit) : (s.modAtt (Attach.acked f)).Sent (s.flitTotals f) := State.sent_attPump _

end

/-! ### What a command of the bring-up does -/

theorem State.moduleTrained_before {s : State} (m : Nat) {rate : Nat} (hd : s.ep.att.down = false) (hx : s.ep.att.exchanged = false)
    (hr : s.ep.att.retrainAt = none) (hs : rateSupported rate = true) :
    s.moduleTrained m rate
      = s.modAtt fun b => { b with trained := (b.trained.filter fun e => e.1 != m) ++ [(m, rate)] } := by
  unfold State.moduleTrained
  simp [hd, hx, hr, hs]

theorem State.moduleTrained_unsupported (s : State) (m : Nat) {rate : Nat} (hs : rateSupported rate = false) :
    s.moduleTrained m rate = s := by
  unfold State.moduleTrained
  simp [hs]

theorem State.exchangeDone_fits {s : State} {fit4 : Bool} {n : Nat} (hd : s.ep.att.down = false) (hx : s.ep.att.exchanged = false)
    (hn : s.fitOf fit4 = some n) (hoff : n = 4 → ∀ p, 4 ≤ p → p < 8 → s.portState .plocen p = 0) :
    s.exchangeDone 1 fit4 = (s.modAtt fun a => { a with exchanged := true, modules := n }).sendInit := by
  unfold State.exchangeDone
  simp only [hd, hx, hn]
  by_cases h4 : n = 4
  · have hp (p : Nat) (hp : 4 ≤ p ∧ p < 8) :
        (s.modAtt fun a => { a with exchanged := true, modules := n }).portState .plocen p = 0 := hoff h4 p hp.1 hp.2
    simp [h4] at hp ⊢
    simp [hp]
  · simp [h4]

/-- INIT goes out: its time is kept, and only the link changes. -/
theorem State.sendInit_does (s : State) :
    s.sendInit.ep.att.initAt = s.now ∧ sendsControl s s.sendInit ctlInit (initBytes (ownInit s.ep.att.modules))
      ∧ onlyAttach s s.sendInit ∧ s.sendInit.ep.att.exchanged = s.ep.att.exchanged
      ∧ s.sendInit.ep.att.modules = s.ep.att.modules := by
  have hsent := s.sent_sendControl ctlInit (initBytes (ownInit s.ep.att.modules))
  have hout := sendsControl_sendControl s ctlInit (initBytes (ownInit s.ep.att.modules))
  unfold State.sendInit
  generalize s.sendControl ctlInit (initBytes (ownInit s.ep.att.modules)) = t at hsent hout ⊢
  refine ⟨rfl, sendsFlit_trans hout ⟨[], rfl⟩, onlyAttach_trans hsent.only (t.onlyAttach_modAtt _), ?_, ?_⟩
  · show t.ep.att.exchanged = _
    rw [hsent.att]; rfl
  · show t.ep.att.modules = _
    rw [hsent.att]; rfl

/-- The link is exchanged on a fit: the first INIT has gone out. -/
theorem State.exchanged_fits {s : State} {fit4 : Bool} {n : Nat} (hd : s.ep.att.down = false) (hx : s.ep.att.exchanged = false)
    (hn : s.fitOf fit4 = some n) (hoff : n = 4 → ∀ p, 4 ≤ p → p < 8 → s.portState .plocen p = 0) :
    ∃ t, exec (.parameterExchange 1 fit4) s = .next t ∧ t.ep.att.exchanged = true ∧ t.ep.att.modules = n ∧ t.ep.att.initAt = s.now
      ∧ sendsControl s t ctlInit (initBytes (ownInit n)) ∧ onlyAttach s t := by
  obtain ⟨hat, hsent, honly, hex, hmod⟩ :=
    (s.modAtt fun a => { a with exchanged := true, modules := n }).sendInit_does
  exact ⟨s.exchangeDone 1 fit4, rfl, by rw [exchangeDone_fits hd hx hn hoff]; exact ⟨hex, hmod, hat, hsent, honly⟩⟩

/-- A good control flit acts after its totals. -/
theorem State.controlTaken_good {s : State} {f : Flit} (act : State → State) (hr : s.flitsRun = true) (hg : flitGood f = true) :
    s.controlTaken f act = act (s.flitTotals f) := by
  unfold State.controlTaken
  simp [hr, hg]

/-- What INIT takes up of the other end, where it is the first. -/
def Attach.inited (p : InitParams) (a : Attach) : Attach :=
  if a.initSeen then a else { a with initSeen := true, p2aLimit := p.p2aReq, rids := p.rids, active := a.ackSeen }

theorem State.initIn_eq (s : State) (p : InitParams) :
    s.initIn p = ((s.modAtt (Attach.inited p)).sendControl ctlInitAck []).attPump := by
  unfold State.initIn State.modAtt Attach.inited
  split <;> rfl

/-- An INIT that is taken is answered, and the first one's parameters are adopted. -/
theorem State.initIn_does (s : State) (p : InitParams) :
    sendsControl s (s.initIn p) ctlInitAck [] ∧ onlyAttach s (s.initIn p) ∧ (s.initIn p).ep.att.initSeen = true
      ∧ (s.ep.att.initSeen = false → (s.initIn p).ep.att.p2aLimit = p.p2aReq ∧ (s.initIn p).ep.att.rids = p.rids
          ∧ (s.initIn p).ep.att.active = s.ep.att.ackSeen) := by
  rw [s.initIn_eq p]
  generalize hu : s.modAtt (Attach.inited p) = u
  have hsent := (u.sent_sendControl ctlInitAck []).trans (State.sent_attPump _)
  have hatt := hsent.att
  have hu' : u.ep.att = Attach.inited p s.ep.att := hu ▸ rfl
  refine ⟨?_, ?_, ?_, fun hs => ?_⟩
  · have hout : ∃ l, u.out = l ++ s.out := ⟨[], hu ▸ rfl⟩
    exact sendsFlit_of_sent hout (sendsFlit_trans (sendsControl_sendControl u _ _) (State.sent_attPump _).out)
  · subst hu
    exact hsent.only_modAtt
  · rw [hatt]
    show u.ep.att.initSeen = true
    rw [hu', Attach.inited]
    cases hs : s.ep.att.initSeen <;> simp [hs]
  · rw [hatt]
    show u.ep.att.p2aLimit = _ ∧ u.ep.att.rids = _ ∧ u.ep.att.active = _
    rw [hu', Attach.inited]
    simp [hs]

theorem State.initAckIn_does (s : State) :
    s.initAckIn.ep.att.ackSeen = true ∧ s.initAckIn.ep.att.active = s.ep.att.initSeen ∧ onlyAttach s s.initAckIn := by
  have hsent := State.sent_attPump (s.modAtt fun a => { a with ackSeen := true, active := a.initSeen })
  have hatt := hsent.att
  unfold State.initAckIn
  refine ⟨?_, ?_, hsent.only_modAtt⟩
  · rw [hatt]; rfl
  · rw [hatt]; rfl

/-- The totals of a flit leave the marks of the bring-up, and only the link changes. -/
theorem State.flitTotals_does (s : State) (f : Flit) :
    (s.flitTotals f).ep.att.initSeen = s.ep.att.initSeen ∧ (s.flitTotals f).ep.att.ackSeen = s.ep.att.ackSeen
      ∧ (∃ l, (s.flitTotals f).out = l ++ s.out) ∧ onlyAttach s (s.flitTotals f) := by
  have hatt := (s.sent_flitTotals f).att
  refine ⟨?_, ?_, (s.sent_flitTotals f).out, (s.sent_flitTotals f).only_modAtt⟩
  · rw [hatt]; rfl
  · rw [hatt]; rfl

theorem rateSupported_iff (rate : Nat) : rateSupported rate = true ↔ rate = 32 ∨ rate = 24 ∨ rate = 16 := by
  simp [rateSupported, or_assoc]

/-- Settles O1, command by command: what is sent leaves the marks of the bring-up (`State.Sent`). -/
theorem attachBringUp : Obligations.AttachBringUp := by
  unfold Obligations.AttachBringUp
  intro s hdown
  refine ⟨fun m rate hx hr => ⟨fun h => ?_, fun h32 h24 h16 => ?_⟩, fun fit4 hx => ⟨?_, ?_⟩, fun p h hrun hgood => ?_,
    fun h hrun hgood => ?_, fun hx hi hat => ?_⟩
  · refine ⟨s.moduleTrained m rate, rfl, ?_⟩
    rw [State.moduleTrained_before m hdown hx hr ((rateSupported_iff rate).2 h)]
    exact ⟨List.mem_append_right _ (List.mem_singleton.2 rfl), rfl⟩
  · have hs : rateSupported rate = false := by simp [rateSupported, h32, h24, h16]
    exact congrArg Host.Outcome.next (s.moduleTrained_unsupported m hs)
  · rintro ⟨rfl, h8⟩
    exact State.exchanged_fits hdown hx (by simp [State.fitOf, h8]) fun h => absurd h (by decide)
  · rintro ⟨h4, hfit⟩ hoff
    refine State.exchanged_fits hdown hx ?_ fun _ => hoff
    rcases hfit with rfl | ⟨h8, hctl⟩
    · simp [State.fitOf, h4]
    · simp [State.fitOf, h4, h8, hctl]
  · obtain ⟨hseen, hack, hout, honly⟩ := s.flitTotals_does (controlFlit h ctlInit (initBytes p))
    obtain ⟨hsent, honly', hin, hfirst⟩ := (s.flitTotals (controlFlit h ctlInit (initBytes p))).initIn_does p
    refine ⟨_, congrArg Host.Outcome.next (State.controlTaken_good _ hrun hgood), sendsFlit_of_sent hout hsent,
      onlyAttach_trans honly honly', hin, ?_⟩
    rw [hseen, hack] at hfirst
    exact hfirst
  · obtain ⟨hseen, hack, -, honly⟩ := s.flitTotals_does (controlFlit h ctlInitAck [])
    obtain ⟨hacked, hactive, honly'⟩ := (s.flitTotals (controlFlit h ctlInitAck [])).initAckIn_does
    exact ⟨_, congrArg Host.Outcome.next (State.controlTaken_good _ hrun hgood), hacked, hactive.trans hseen,
      onlyAttach_trans honly honly'⟩
  · obtain ⟨hinit, hsent, honly, -, -⟩ := s.sendInit_does
    have heq : s.initAgain = s.sendInit := by
      unfold State.initAgain
      simp [hdown, hx, hi, hat]
    exact ⟨_, congrArg Host.Outcome.next heq, hinit, hsent, honly⟩

end Sys2Proof.Machine
end

section
/-! Flits, replay and retraining on the attach link (R70-R72, R90). -/

namespace Sys2Proof.Machine

open Sys2Proof Sys2Proof.Claims

section
variable {s t u : State}

theorem onlyAttachRegs_of_onlyAttach (h : onlyAttach s t) : onlyAttachRegs s t := by
  unfold onlyAttach at h
  unfold onlyAttachRegs
  rw [h]

theorem onlyAttachRegs_trans (h : onlyAttachRegs s t) (g : onlyAttachRegs t u) : onlyAttachRegs s u := by
  unfold onlyAttachRegs at h g ⊢
  rw [g, h]

theorem State.onlyAttachRegs_setReg (s : State) (a v : Nat) : onlyAttachRegs s (s.setReg .plocen a v) := rfl

/-- What leaves the Plocen's registers leaves each of them. -/
theorem onlyAttach_reg (h : onlyAttach s t) (a : Nat) : t.reg .plocen a = s.reg .plocen a := by
  unfold onlyAttach at h
  rw [h]; rfl

theorem State.fld_satFld_same (s : State) (p : Part) (a lo len n : Nat) (h : lo + len ≤ 32) :
    (s.satFld p a lo len n).fld p a lo len = satAdd len (s.fld p a lo len) n := by
  have hlt : satAdd len (s.fld p a lo len) n < 2 ^ len := by
    have := Nat.two_pow_pos len
    unfold satAdd
    omega
  rw [State.satFld, State.fld_setFld_same s p a lo len _ h, Nat.mod_eq_of_lt hlt]

/-! ### Bits of EP_ATT.ERR -/

/-- From `s` to `t` bit `b` of EP_ATT.ERR is set, and the accelerator is interrupted where it asked for that. -/
structure State.Raised (b : Nat) (s t : State) : Prop where
  only : onlyAttachRegs s t
  att : t.ep.att = s.ep.att.sending t.ep.att
  out : ∃ l, t.out = l ++ s.out
  held : s.ep.att.txHeld <+: t.ep.att.txHeld
  flag : t.flag .plocen Reg.epAttErr b = true
  others : ∀ i, i ≠ b → t.flag .plocen Reg.epAttErr i = s.flag .plocen Reg.epAttErr i
  regs : regsBut s t .plocen [Reg.epAttErr]

/-- What is sent after the bit was set. -/
theorem State.Sent.raised {b : Nat} {v : Bool} (hb : b < 32) (hv : v = true) (h : (s.setFlag .plocen Reg.epAttErr b v).Sent t) :
    State.Raised b s t where
  only := onlyAttachRegs_trans (s.onlyAttachRegs_setReg _ _) (onlyAttachRegs_of_onlyAttach h.only)
  att := h.att
  out := h.out
  held := h.held
  flag := by rw [State.flag_congr (onlyAttach_reg h.only _), State.flag_setFlag_same s _ _ hb, hv]
  others := fun i hi => (State.flag_congr (onlyAttach_reg h.only _) i).trans (s.flag_setFlag_other .plocen v hb hi)
  regs := fun a ha => (onlyAttach_reg h.only a).trans (regsBut_setFlag s b v (List.mem_singleton.2 rfl) a ha)

theorem State.raised_epErr (s : State) {b : Nat} (hb : b < 32) : State.Raised b s (s.epErr b) := by
  unfold State.epErr
  split
  · next h => exact ⟨rfl, rfl, ⟨[], rfl⟩, List.prefix_rfl, h, fun _ _ => rfl, fun _ _ => rfl⟩
  · dsimp only
    split
    · exact (State.sent_request _ _).raised hb rfl
    · exact (State.Sent.refl _).raised hb rfl

/-! ### Bad flits -/

/-- A NAK names the SEQ expected and is the last flit sent. -/
theorem State.sendNak_does (s : State) :
    (∃ h, s.sendNak.out.head? = some (.flit (controlFlit h ctlNak (leBytes 2 s.ep.att.rxSeq))))
      ∧ s.sendNak.ep.att.rxSeq = s.ep.att.rxSeq ∧ s.sendNak.ep.att.rxChunks = s.ep.att.rxChunks ∧ onlyAttach s s.sendNak := by
  have hsent := s.sent_sendControl ctlNak (leBytes 2 s.ep.att.rxSeq)
  have hout := s.out_sendControl ctlNak (leBytes 2 s.ep.att.rxSeq)
  unfold State.sendNak
  generalize s.sendControl ctlNak (leBytes 2 s.ep.att.rxSeq) = t at hsent hout ⊢
  refine ⟨⟨_, congrArg List.head? hout⟩, ?_, ?_, onlyAttach_trans hsent.only (t.onlyAttach_modAtt _)⟩
  · show t.ep.att.rxSeq = _
    rw [hsent.att]; rfl
  · show t.ep.att.rxChunks = _
    rw [hsent.att]; rfl

/-- A flit with a CRC error is discarded, counted and answered by a NAK. -/
theorem State.flitBad_does (s : State) :
    ∃ h, s.flitBad.out.head? = some (.flit (controlFlit h ctlNak (leBytes 2 s.ep.att.rxSeq)))
      ∧ s.flitBad.ep.att.rxSeq = s.ep.att.rxSeq ∧ s.flitBad.flag .plocen Reg.epAttErr errCrc = true
      ∧ s.flitBad.fld .plocen Reg.epAttErrcnt 0 16 = satAdd 16 (s.fld .plocen Reg.epAttErrcnt 0 16) 1
      ∧ onlyAttachRegs s s.flitBad := by
  have hcount := s.fld_satFld_same .plocen Reg.epAttErrcnt 0 16 1 (by decide)
  have honly : onlyAttachRegs s (s.satFld .plocen Reg.epAttErrcnt 0 16 1) := s.onlyAttachRegs_setReg _ _
  have hatt : (s.satFld .plocen Reg.epAttErrcnt 0 16 1).ep.att = s.ep.att := rfl
  unfold State.flitBad
  generalize s.satFld .plocen Reg.epAttErrcnt 0 16 1 = u at hcount honly hatt ⊢
  have hraised := u.raised_epErr (b := errCrc) (by decide)
  generalize u.epErr errCrc = v at hraised ⊢
  obtain ⟨⟨h, hhead⟩, hseq, -, honly'⟩ := v.sendNak_does
  have hrx : v.ep.att.rxSeq = s.ep.att.rxSeq := by
    rw [hraised.att]
    show u.ep.att.rxSeq = _
    rw [hatt]
  rw [hrx] at hhead hseq
  refine ⟨h, hhead, hseq, ?_, ?_, onlyAttachRegs_trans (onlyAttachRegs_trans honly hraised.only) (onlyAttachRegs_of_onlyAttach honly')⟩
  · rw [State.flag_congr (onlyAttach_reg honly' _)]; exact hraised.flag
  · rw [State.fld_congr (onlyAttach_reg honly' _), State.fld_congr (hraised.regs _ (by decide)), hcount]

theorem State.flitIn_bad {s : State} {f : Flit} (hrx : s.attRx = true) (hrun : s.flitsRun = true) (hg : flitGood f = false) :
    s.flitIn f = s.flitBad := by
  unfold State.flitIn State.controlTaken
  simp [hrx, hrun, hg]

/-! ### Good flits -/

/-- The totals of a flit: own flits that it acknowledges are released, and credit is freed. -/
theorem State.flitTotals_frees (s : State) (f : Flit) :
    heldAfter f.ack s.ep.att.txHeld <+: (s.flitTotals f).ep.att.txHeld
      ∧ (s.flitTotals f).ep.att.p2aFreed = s.ep.att.p2aFreed + subMod 16 f.reqCrd s.ep.att.p2aFreed
      ∧ (s.flitTotals f).ep.att.rxSeq = s.ep.att.rxSeq ∧ (s.flitTotals f).ep.att.rxChunks = s.ep.att.rxChunks
      ∧ (s.flitTotals f).ep.att.nakSeq = s.ep.att.nakSeq ∧ (s.flitTotals f).ep.att.nakRun = s.ep.att.nakRun := by
  have hsent := s.sent_flitTotals f
  have hatt := hsent.att
  refine ⟨hsent.held, ?_, ?_, ?_, ?_, ?_⟩
  · rw [hatt]; rfl
  · rw [hatt]; rfl
  · rw [hatt]; rfl
  · rw [hatt]; rfl
  · rw [hatt]; rfl

theorem State.flitIn_unexpected {s : State} {f : Flit} (hrx : s.attRx = true) (hg : flitGood f = true) (hk : f.kind = 1)
    (hseq : f.seq ≠ s.ep.att.rxSeq) : s.flitIn f = (s.flitTotals f).sendNak := by
  obtain ⟨-, -, hrxseq, -, -, -⟩ := s.flitTotals_frees f
  unfold State.flitIn
  simp [hrx, hg, hk, hrxseq, hseq]

/-- The flit expected is taken up. -/
def Attach.took (f : Flit) (a : Attach) : Attach :=
  { a with rxSeq := (a.rxSeq + 1) % 4096, nakSent := 0, rxChunks := a.rxChunks ++ f.body }

theorem State.flitIn_expected {s : State} {f : Flit} (hrx : s.attRx = true) (hg : flitGood f = true) (hk : f.kind = 1)
    (hseq : f.seq = s.ep.att.rxSeq) :
    s.flitIn f = ((s.flitTotals f).modAtt (Attach.took f)).takeChunks
      ((s.flitTotals f).modAtt (Attach.took f)).ep.att.rxChunks.length := by
  obtain ⟨-, -, hrxseq, -, -, -⟩ := s.flitTotals_frees f
  unfold State.flitIn
  simp only [hrx, hg, hk, hrxseq, hseq, ne_eq, not_true_eq_false, Bool.not_true, Bool.false_eq_true, if_false, OfNat.one_ne_ofNat]
  rfl

theorem State.flitIn_idle {s : State} {f : Flit} (hrx : s.attRx = true) (hg : flitGood f = true) (hk : f.kind = 0) :
    s.flitIn f = s.flitTotals f := by
  unfold State.flitIn
  simp [hrx, hg, hk]

theorem heldAfter_append (k : Nat) (l m : List (Nat × List (BitVec 128))) : heldAfter k (l ++ m) = heldAfter k l ++ heldAfter k m :=
  List.filter_append _ _

theorem heldAfter_prefix (k : Nat) {l m : List (Nat × List (BitVec 128))} (h : l <+: m) : heldAfter k l <+: heldAfter k m := by
  obtain ⟨r, rfl⟩ := h
  exact ⟨heldAfter k r, (heldAfter_append k l r).symm⟩

/-- What a NAK shows, of the flits kept and of the run of NAKs. -/
def Attach.nakked (seq : Nat) (a : Attach) : Attach :=
  { a with txHeld := heldAfter ((seq + 4095) % 4096) a.txHeld, nakSeq := seq, nakRun := if a.nakSeq = seq then a.nakRun + 1 else 1 }

theorem State.nakIn_eq (s : State) (seq : Nat) :
    s.nakIn seq = if (s.modAtt (Attach.nakked seq)).ep.att.txHeld.isEmpty then s.modAtt (Attach.nakked seq)
      else (((s.modAtt (Attach.nakked seq)).satFld .plocen Reg.epAttErrcnt 16 16 1).resendHeld
        (s.modAtt (Attach.nakked seq)).ep.att.txHeld).attPump := rfl

/-- The flits kept are sent again, and what waits goes out after them. -/
theorem State.resend_does (s : State) (l : List (Nat × List (BitVec 128))) :
    s.Sent (s.resendHeld l).attPump
      ∧ ∀ e ∈ l, sendsFlit s (s.resendHeld l).attPump fun f => f.kind = 1 ∧ f.seq = e.1 ∧ f.body = e.2 :=
  ⟨(s.sent_resendHeld l).trans (State.sent_attPump _),
   fun _ he => sendsFlit_trans (sendsFlit_resendHeld s l he) (State.sent_attPump _).out⟩

/-- A NAK releases what it shows to be received, and the rest is sent again. -/
theorem State.nakIn_does (s : State) (seq : Nat) :
    (s.nakIn seq).ep.att.nakSeq = seq ∧ (s.nakIn seq).ep.att.nakRun = (if s.ep.att.nakSeq = seq then s.ep.att.nakRun + 1 else 1)
      ∧ heldAfter ((seq + 4095) % 4096) s.ep.att.txHeld <+: (s.nakIn seq).ep.att.txHeld
      ∧ (∀ e ∈ heldAfter ((seq + 4095) % 4096) s.ep.att.txHeld,
          sendsFlit s (s.nakIn seq) fun f => f.kind = 1 ∧ f.seq = e.1 ∧ f.body = e.2)
      ∧ (heldAfter ((seq + 4095) % 4096) s.ep.att.txHeld ≠ [] →
          (s.nakIn seq).fld .plocen Reg.epAttErrcnt 16 16 = satAdd 16 (s.fld .plocen Reg.epAttErrcnt 16 16) 1)
      ∧ onlyAttachRegs s (s.nakIn seq) := by
  rw [s.nakIn_eq seq]
  have hkept : (s.modAtt (Attach.nakked seq)).ep.att.txHeld = heldAfter ((seq + 4095) % 4096) s.ep.att.txHeld := rfl
  have hfld : (s.modAtt (Attach.nakked seq)).fld .plocen Reg.epAttErrcnt 16 16 = s.fld .plocen Reg.epAttErrcnt 16 16 := rfl
  rw [hkept]
  split
  · next h =>
    rw [List.isEmpty_iff] at h
    rw [h]
    refine ⟨rfl, rfl, List.nil_prefix, fun e he => absurd he List.not_mem_nil, fun hne => absurd rfl hne, rfl⟩
  · have hcount := (s.modAtt (Attach.nakked seq)).fld_satFld_same .plocen Reg.epAttErrcnt 16 16 1 (by decide)
    rw [hfld] at hcount
    have hatt : ((s.modAtt (Attach.nakked seq)).satFld .plocen Reg.epAttErrcnt 16 16 1).ep.att = Attach.nakked seq s.ep.att := rfl
    have hout : ((s.modAtt (Attach.nakked seq)).satFld .plocen Reg.epAttErrcnt 16 16 1).out = s.out := rfl
    have honly : onlyAttachRegs s ((s.modAtt (Attach.nakked seq)).satFld .plocen Reg.epAttErrcnt 16 16 1) := rfl
    generalize (s.modAtt (Attach.nakked seq)).satFld .plocen Reg.epAttErrcnt 16 16 1 = u at hcount hatt hout honly ⊢
    obtain ⟨hsent, hagain⟩ := u.resend_does (heldAfter ((seq + 4095) % 4096) s.ep.att.txHeld)
    have hheld := hsent.held
    rw [hatt] at hheld
    refine ⟨?_, ?_, hheld, fun e he => sendsFlit_of_sent ⟨[], hout⟩ (hagain e he), fun _ => ?_,
      onlyAttachRegs_trans honly (onlyAttachRegs_of_onlyAttach hsent.only)⟩
    · rw [hsent.att, hatt]; rfl
    · rw [hsent.att, hatt]; rfl
    · rw [State.fld_congr (onlyAttach_reg hsent.only _), hcount]

end

/-! ### Retraining -/

theorem State.retrain_starts {s : State} (hrx : s.attRx = true) (h8 : 8 ≤ s.ep.att.nakRun ∨ 8 ≤ s.ep.att.nakSent) :
    s.retrain = ((s.epErr errReplay).modAtt fun a => { a with retrainAt := some s.now, trained := [] }).emit .attachRetrain := by
  have hn : ¬ (s.ep.att.nakRun < 8 ∧ s.ep.att.nakSent < 8) := by omega
  unfold State.retrain
  simp only [hrx, hn]
  simp

/-- The link as it goes down. -/
def Attach.lost (b : Attach) : Attach :=
  { b with down := true, active := false, retrainAt := none, tags := [], queue := [], cplQueue := [], txHeld := [], rxChunks := []
           a2pBuf := [] }

/-- Nothing that waits is for an access that is not given up: the link goes down with its error bits alone. -/
theorem State.attDown_idle {s : State} (hvoid : (s.ep.att.tags.all fun e => e.2.void) = true) (hq : s.ep.att.queue = [])
    (hl : s.ep.dest.lineWait = []) :
    s.attDown = ((if (s.ep.att.tags.any fun e => !e.2.dead) = true then (s.modAtt Attach.lost).epErr errAccError
      else s.modAtt Attach.lost).epErr errLinkDown) := by
  have hdest : (s.modDest fun d => { d with lineWait := [] }) = s := by
    have hd : (fun d : Dest => { d with lineWait := [] }) s.ep.dest = s.ep.dest := by
      show { s.ep.dest with lineWait := [] } = s.ep.dest
      rw [← hl]
    unfold State.modDest
    rw [hd]
  have hnone : ((s.ep.att.tags.filter fun e => !e.2.dead).filter fun e => !e.2.void) = [] := by
    rw [List.filter_eq_nil_iff]
    intro e he
    simp [List.all_eq_true.1 hvoid e (List.mem_of_mem_filter he)]
  have hany : (s.ep.att.tags.filter fun e => !e.2.dead).isEmpty = !(s.ep.att.tags.any fun e => !e.2.dead) := by
    induction s.ep.att.tags with
    | nil => rfl
    | cons e l ih => cases hd : e.2.dead <;> simp [hd] at ih ⊢; exact ih
  unfold State.attDown
  rw [hdest]
  dsimp only
  rw [hnone, hany, hq, hl]
  cases s.ep.att.tags.any fun e => !e.2.dead <;> rfl

theorem State.attDown_does {s : State} (hvoid : (s.ep.att.tags.all fun e => e.2.void) = true) (hq : s.ep.att.queue = [])
    (hl : s.ep.dest.lineWait = []) :
    s.attDown.ep.att.down = true ∧ s.attDown.ep.att.active = false ∧ s.attDown.flag .plocen Reg.epAttErr errLinkDown = true
      ∧ ((s.ep.att.tags.any fun e => !e.2.dead) = true → s.attDown.flag .plocen Reg.epAttErr errAccError = true)
      ∧ onlyAttachRegs s s.attDown := by
  rw [State.attDown_idle hvoid hq hl]
  have hlost : onlyAttachRegs s (s.modAtt Attach.lost) := rfl
  generalize hv : (if (s.ep.att.tags.any fun e => !e.2.dead) = true then (s.modAtt Attach.lost).epErr errAccError
    else s.modAtt Attach.lost) = v
  have hmid : onlyAttachRegs s v ∧ v.ep.att.down = true ∧ v.ep.att.active = false
      ∧ ((s.ep.att.tags.any fun e => !e.2.dead) = true → v.flag .plocen Reg.epAttErr errAccError = true) := by
    have hraised := (s.modAtt Attach.lost).raised_epErr (b := errAccError) (by decide)
    subst hv
    split
    · exact ⟨onlyAttachRegs_trans hlost hraised.only, by rw [hraised.att]; rfl, by rw [hraised.att]; rfl, fun _ => hraised.flag⟩
    · next h => exact ⟨hlost, rfl, rfl, fun hn => absurd hn h⟩
  obtain ⟨honly, hdown, hactive, hacc⟩ := hmid
  have hraised := v.raised_epErr (b := errLinkDown) (by decide)
  exact ⟨by rw [hraised.att]; exact hdown, by rw [hraised.att]; exact hactive, hraised.flag,
    fun h => (hraised.others _ (by decide)).trans (hacc h), onlyAttachRegs_trans honly hraised.only⟩

/-- The link in use again, at the end of a retrain. -/
def Attach.again (b : Attach) : Attach :=
  { b with retrainAt := none, nakRun := 0, nakSent := 0, tags := b.tags.filter fun e => !e.2.dead }

/-- A module's training is recorded. -/
def Attach.trains (m rate : Nat) (b : Attach) : Attach :=
  { b with trained := (b.trained.filter fun e => e.1 != m) ++ [(m, rate)] }

theorem Attach.trainedTo_trains {a : Attach} {n m : Nat}
    (h : ∀ k < n, k = m ∨ (a.trained.any fun e => e.1 == k && e.2 == 32) = true) : (Attach.trains m 32 a).trainedTo n = true := by
  unfold Attach.trainedTo Attach.trains
  rw [List.all_eq_true]
  intro k hk
  rw [List.any_append]
  rcases Nat.decEq k m with hkm | rfl
  · rcases h k (List.mem_range.1 hk) with rfl | hany
    · exact absurd rfl hkm
    · obtain ⟨e, he, hp⟩ := List.any_eq_true.1 hany
      obtain ⟨hek, -⟩ := Bool.and_eq_true_iff.1 hp
      have hne : e.1 ≠ m := fun h' => hkm ((beq_iff_eq.1 hek).symm.trans h')
      have hmem : e ∈ a.trained.filter fun e => e.1 != m := List.mem_filter.2 ⟨he, bne_iff_ne.2 hne⟩
      rw [List.any_eq_true.2 ⟨e, hmem, hp⟩, Bool.true_or]
  · simp

theorem State.moduleTrained_last {s : State} {m : Nat} (hd : s.ep.att.down = false) (hr : s.ep.att.retrainAt.isSome = true)
    (h : ∀ k < s.ep.att.modules, k = m ∨ (s.ep.att.trained.any fun e => e.1 == k && e.2 == 32) = true) :
    s.moduleTrained m 32 = (((s.modAtt (Attach.trains m 32)).modAtt Attach.again).resendHeld s.ep.att.txHeld).attPump := by
  have hto := Attach.trainedTo_trains h
  have hnone : s.ep.att.retrainAt.isNone = false := by simpa using hr
  unfold State.moduleTrained
  simp only [hd, hr, hnone, Bool.false_eq_true, and_false, rateSupported]
  rw [if_neg (by decide), if_pos ⟨trivial, hto⟩]
  rfl

/-- Settles O2, flit by flit: what is sent keeps the flits held for a replay in front (`State.Sent`). -/
theorem attachFlits : Obligations.AttachFlits := by
  unfold Obligations.AttachFlits
  intro s
  refine ⟨fun f hrx hrun hg => ?_, fun f hrx hg hk hseq => ?_, fun f hrx hg hk hseq => ?_, fun f hrx hg hk => ?_,
    fun seq h hrun hg => ?_, fun hrx h8 => ?_, fun since hat hnow => ⟨?_, fun hvoid hq hl => State.attDown_does hvoid hq hl⟩,
    fun m hd hr h => ?_⟩
  · obtain ⟨h, hbad⟩ := s.flitBad_does
    exact ⟨_, h, congrArg Host.Outcome.next (State.flitIn_bad hrx hrun hg), hbad⟩
  · obtain ⟨-, -, hrxseq, hchunks, -, -⟩ := s.flitTotals_frees f
    obtain ⟨-, -, -, honly⟩ := s.flitTotals_does f
    obtain ⟨⟨h, hhead⟩, hseq', hchunks', honly'⟩ := (s.flitTotals f).sendNak_does
    rw [hrxseq] at hhead hseq'
    exact ⟨_, h, congrArg Host.Outcome.next (State.flitIn_unexpected hrx hg hk hseq), hhead, hseq', hchunks'.trans hchunks,
      onlyAttach_trans honly honly'⟩
  · obtain ⟨-, -, hrxseq, hchunks, -, -⟩ := s.flitTotals_frees f
    obtain ⟨-, -, -, honly⟩ := s.flitTotals_does f
    refine ⟨(s.flitTotals f).modAtt (Attach.took f), congrArg Host.Outcome.next (State.flitIn_expected hrx hg hk hseq), ?_, ?_, rfl,
      onlyAttach_trans honly (State.onlyAttach_modAtt _ _)⟩
    · show ((s.flitTotals f).ep.att.rxSeq + 1) % 4096 = _
      rw [hrxseq]
    · show (s.flitTotals f).ep.att.rxChunks ++ f.body = _
      rw [hchunks]
  · obtain ⟨hheld, hfreed, hrxseq, hchunks, -, -⟩ := s.flitTotals_frees f
    obtain ⟨-, -, -, honly⟩ := s.flitTotals_does f
    refine ⟨_, congrArg Host.Outcome.next (State.flitIn_idle hrx hg hk), hheld, ?_, hrxseq, hchunks, honly⟩
    rw [hfreed]
    unfold subMod
    omega
  · obtain ⟨hheld, -, -, -, hseq, hrun'⟩ := s.flitTotals_frees (controlFlit h ctlNak (leBytes 2 seq))
    obtain ⟨-, -, hout, honly⟩ := s.flitTotals_does (controlFlit h ctlNak (leBytes 2 seq))
    obtain ⟨hnak, hrun1, hheld1, hagain, hcount, honly1⟩ := (s.flitTotals (controlFlit h ctlNak (leBytes 2 seq))).nakIn_does seq
    rw [hseq, hrun'] at hrun1
    have hpre := heldAfter_prefix ((seq + 4095) % 4096) hheld
    refine ⟨_, congrArg Host.Outcome.next (State.controlTaken_good _ hrun hg), hnak, hrun1, hpre.trans hheld1,
      fun e he => sendsFlit_of_sent hout (hagain e (hpre.subset he)), fun hne => ?_,
      onlyAttachRegs_trans (onlyAttachRegs_of_onlyAttach honly) honly1⟩
    rw [hcount fun h0 => hne (List.prefix_nil.1 (h0 ▸ hpre)), State.fld_congr (onlyAttach_reg honly _)]
  · have hraised := s.raised_epErr (b := errReplay) (by decide)
    refine ⟨_, congrArg Host.Outcome.next (State.retrain_starts hrx h8), rfl, rfl, rfl, hraised.flag,
      onlyAttachRegs_trans hraised.only rfl⟩
  · show Host.Outcome.next s.retrainOver = _
    unfold State.retrainOver
    simp [hat, Nat.not_lt.2 hnow]
  · have hsent := ((s.modAtt (Attach.trains m 32)).modAtt Attach.again).resend_does s.ep.att.txHeld
    obtain ⟨hsent, hagain⟩ := hsent
    refine ⟨_, congrArg Host.Outcome.next (State.moduleTrained_last hd hr h), ?_, ?_, ?_, hsent.held, fun e he => ?_, ?_⟩
    · rw [hsent.att]; rfl
    · rw [hsent.att]; rfl
    · rw [hsent.att]; rfl
    · exact sendsFlit_of_sent ⟨[], rfl⟩ (hagain e he)
    · exact onlyAttach_trans (onlyAttach_trans (s.onlyAttach_modAtt _) (State.onlyAttach_modAtt _ _)) hsent.only

end Sys2Proof.Machine
end

section
/-! Loads and stores of the accelerator, and completions (R53, R79-R89). -/

namespace Sys2Proof.Machine

open Sys2Proof Sys2Proof.Claims

/-! ### Completions that the Plocen sends -/

/-- A completion has gone out, or waits to. -/
def State.Completes (s : State) (x : Txn) : Prop := Out.attach x ∈ s.out ∨ x ∈ s.ep.att.cplQueue

section
variable {s t u : State}

theorem State.Completes.sent {x : Txn} (h : s.Completes x) (hs : s.Sent t) (hq : t.ep.att.cplQueue = s.ep.att.cplQueue) :
    t.Completes x := by
  obtain ⟨l, hl⟩ := hs.out
  rcases h with h | h
  · exact .inl (hl ▸ List.mem_append_right l h)
  · exact .inr (hq ▸ h)

/-- The completions that wait are those of before. -/
structure State.CplKept (s t : State) : Prop where
  queue : t.ep.att.cplQueue = s.ep.att.cplQueue

theorem State.CplKept.trans (h : s.CplKept t) (g : t.CplKept u) : s.CplKept u := ⟨g.queue.trans h.queue⟩

theorem State.cplKept_modAtt (s : State) (f : Attach → Attach) (hf : ∀ a, (f a).cplQueue = a.cplQueue) : s.CplKept (s.modAtt f) := ⟨hf _⟩

theorem State.cplKept_emit (s : State) (o : Out) : s.CplKept (s.emit o) := ⟨rfl⟩

theorem State.cplKept_sendFlit (s : State) (kind seq : Nat) (body : List (BitVec 128)) : s.CplKept (s.sendFlit kind seq body) :=
  (State.cplKept_emit s _).trans (State.cplKept_modAtt _ _ (by intro a; rfl))

theorem State.cplKept_sendChunks (n : Nat) (cs : List (BitVec 128)) (s : State) : s.CplKept (State.sendChunks n cs s) := by
  induction n generalizing cs s with
  | zero => exact ⟨rfl⟩
  | succ n ih =>
    rw [State.sendChunks]
    split
    · exact ⟨rfl⟩
    · exact ((s.cplKept_sendFlit 1 s.ep.att.txSeq (flitBody cs)).trans (State.cplKept_modAtt _ _ (by intro a; rfl))).trans (ih _ _)

theorem State.cplQueue_sendTxn (s : State) (x : Txn) : (s.sendTxn x).ep.att.cplQueue = s.ep.att.cplQueue :=
  (State.cplKept_sendChunks 18 (chunksOf x) (s.emit (.attach x))).queue

/-- A transaction that is sent has gone out. -/
theorem State.mem_out_sendTxn (s : State) (x : Txn) : Out.attach x ∈ (s.sendTxn x).out := by
  obtain ⟨l, hl⟩ := (State.sent_sendChunks 18 (chunksOf x) (s.emit (.attach x))).out
  exact hl ▸ List.mem_append_right l (List.mem_cons_self ..)

theorem State.completes_pumpCpl {x : Txn} (n : Nat) (s : State) (h : s.Completes x) : (State.pumpCpl n s).Completes x := by
  induction n generalizing s with
  | zero => exact h
  | succ n ih =>
    rw [State.pumpCpl]
    split
    · exact h
    · next y rest hq =>
      split
      · exact h
      · refine ih _ ?_
        rcases h with h | h
        · obtain ⟨l, hl⟩ := (State.sent_sendTxn (s.modAtt fun a => { a with cplQueue := rest }) y).out
          exact .inl (hl ▸ List.mem_append_right l h)
        · rw [hq] at h
          rcases List.mem_cons.1 h with rfl | h
          · exact .inl (State.mem_out_sendTxn _ _)
          · exact .inr ((State.cplQueue_sendTxn _ _).symm ▸ h)

/-- A further completion leaves those before it. -/
theorem State.completes_complete {x : Txn} (h : s.Completes x) (rid tag addr status len : Nat) (data : List Byte) :
    (s.complete rid tag addr status len data).Completes x := by
  unfold State.complete
  split
  · refine State.completes_pumpCpl _ _ (h.imp id fun h => ?_)
    exact List.mem_append_left _ h
  · exact h

/-- A load is answered while the link is active. -/
theorem State.answered_complete (ha : s.ep.att.active = true) (hd : s.ep.att.down = false) (rid tag addr status len : Nat)
    (data : List Byte) : answered (s.complete rid tag addr status len data) rid tag status := by
  refine ⟨{ opc := 0x21, tag := tag, rid := rid, len := len, relax := false, space := false, status := status, addr := addr, aux := 0
            data := sliceBytes data 0 len }, rfl, rfl, rfl, rfl, ?_⟩
  unfold State.complete
  rw [ha, hd]
  refine State.completes_pumpCpl _ _ (.inr ?_)
  exact List.mem_append_right _ (List.mem_singleton.2 rfl)

/-- Completions with status 0 that go out together: of the requester, tag, address and length that `g` gives, with the data `d`. -/
def State.completeAll {α : Type} (g : α → Nat × Nat × Nat × Nat) (d : State → α → List Byte) (l : List α) (s : State) : State :=
  l.foldl (fun t b => t.complete (g b).1 (g b).2.1 (g b).2.2.1 0 (g b).2.2.2 (d t b)) s

theorem State.sent_completeAll {α : Type} (g : α → Nat × Nat × Nat × Nat) (d : State → α → List Byte) (l : List α) (s : State) :
    s.Sent (State.completeAll g d l s) := by
  unfold State.completeAll
  induction l generalizing s with
  | nil => exact .refl s
  | cons b l ih => exact (State.sent_complete s ..).trans (ih _)

theorem State.completes_completeAll {α : Type} (g : α → Nat × Nat × Nat × Nat) (d : State → α → List Byte) (l : List α) (s : State)
    {x : Txn} (h : s.Completes x) : (State.completeAll g d l s).Completes x := by
  unfold State.completeAll
  induction l generalizing s with
  | nil => exact h
  | cons b l ih => exact ih _ (State.completes_complete h ..)

/-- Each of the completions that go out together answers its load. -/
theorem State.answered_completeAll {α : Type} (g : α → Nat × Nat × Nat × Nat) (d : State → α → List Byte) {l : List α} {a : α}
    (ha : a ∈ l) (s : State) (hact : s.ep.att.active = true) (hd : s.ep.att.down = false) :
    answered (State.completeAll g d l s) (g a).1 (g a).2.1 0 := by
  induction l generalizing s with
  | nil => cases ha
  | cons b l ih =>
    rcases List.mem_cons.1 ha with rfl | ha
    · obtain ⟨x, h1, h2, h3, h4, hx⟩ := State.answered_complete hact hd (g a).1 (g a).2.1 (g a).2.2.1 0 (g a).2.2.2 (d s a)
      exact ⟨x, h1, h2, h3, h4, State.completes_completeAll g d l _ hx⟩
    · have hs := s.sent_complete (g b).1 (g b).2.1 (g b).2.2.1 0 (g b).2.2.2 (d s b)
      exact ih ha _ (by rw [hs.att]; exact hact) (by rw [hs.att]; exact hd)

end

/-! ### Transactions that leave the Plocen's buffers at once -/

/-- The credit of a request of `k` chunks is used and returned, with the buffers left empty. -/
def Attach.passed (k : Nat) (a : Attach) : Attach := { a with a2pUsed := a.a2pUsed + k, a2pFreed := a.a2pFreed + k, a2pBuf := [] }

/-- The Plocen's buffers are empty, fewer than 1,024 loads are outstanding, and there is credit for `k` chunks. -/
structure State.Ready (s : State) (k : Nat) : Prop where
  rx : s.attRx = true
  buf : s.ep.att.a2pBuf = []
  loads : s.loadsOut < 1024
  credit : s.ep.att.a2pUsed + k ≤ 4096 + s.ep.att.a2pFreed

theorem State.a2pGo_empty {s : State} (h : s.ep.att.a2pBuf = []) : s.a2pGo = s := by
  unfold State.a2pGo
  rw [h]
  rfl

theorem State.attRx_iff (s : State) :
    s.attRx = true ↔ s.ep.att.active = true ∧ s.ep.att.down = false ∧ s.ep.att.retrainAt.isNone = true := by
  unfold State.attRx
  simp [and_assoc]

theorem State.txnArrives_served {s : State} {x : Txn} (hr : s.Ready (txnChunks x.opc x.len)) (hop : x.opc = 0x11 ∨ x.opc = 0x12)
    (hlen : x.len ≤ 64) :
    s.txnArrives x = (s.modAtt (Attach.passed (txnChunks x.opc x.len))).a2pServe x s.now := by
  obtain ⟨hrx, hbuf, hloads, hcredit⟩ := hr
  have h1 : ¬ (4096 + s.ep.att.a2pFreed < s.ep.att.a2pUsed + txnChunks x.opc x.len) := Nat.not_lt.2 hcredit
  have h2 : ¬ (256 < x.len ∨ x.opc = 0x12 ∧ 64 < x.len) := by omega
  unfold State.txnArrives State.txnIn State.requestIn
  rw [if_pos hrx, if_pos hop, if_neg h1, if_neg h2]
  generalize hu : (s.modAtt fun b => { b with
    a2pUsed := b.a2pUsed + txnChunks x.opc x.len, a2pBuf := b.a2pBuf ++ [(x, s.now)] }) = u
  have hub : u.ep.att.a2pBuf = [(x, s.now)] := by
    subst hu
    show s.ep.att.a2pBuf ++ _ = _
    rw [hbuf, List.nil_append]
  have hul : ¬ 1024 ≤ u.loadsOut := by
    subst hu
    exact Nat.not_le.2 hloads
  unfold State.a2pGo
  rw [hub]
  show State.a2pRun 1 u = _
  unfold State.a2pRun State.a2pRun
  rw [hub]
  dsimp only
  rw [if_neg hul, ← hu]
  rfl

end Sys2Proof.Machine
end

section
/-! Direct loads and stores, and the reading of EP_HNK.FENCE, begin (R53, R82-R85). -/

namespace Sys2Proof.Machine

open Sys2Proof Sys2Proof.Claims

/-- A fault of a window access is a bit of EP_ATT.ERR. -/
theorem State.windowFault_lt {s : State} {store : Bool} {addr len b : Nat} (h : s.windowFault store addr len = some b) : b < 32 := by
  have hbits : ∀ c ∈ [errUnsupported, errSegDisabled], c < 32 := by decide
  refine hbits b ?_
  unfold State.windowFault at h
  cases store
  all_goals
    simp only [Bool.false_eq_true, if_false, if_true] at h
    split at h
    · simp [← Option.some.inj h]
    · split at h
      · simp [← Option.some.inj h]
      · split at h
        · simp [← Option.some.inj h]
        · exact nomatch h

/-- The registers answer the checks of a window access. -/
theorem State.windowFault_modAtt (s : State) (f : Attach → Attach) (store : Bool) (addr len : Nat) :
    (s.modAtt f).windowFault store addr len = s.windowFault store addr len := rfl

theorem State.windowLoad_begins {s : State} {x : Txn} {at_ : Nat} (h : s.windowFault false x.addr x.len = none) :
    s.windowLoad x at_ = ({ s with ep := { s.ep with
        nextId := s.ep.nextId + 1
        loads := s.ep.loads ++ [{ id := s.ep.nextId, rid := x.rid, tag := x.tag, addr := x.addr, len := x.len, at_ := at_
                                  inMiss := false }] } } : State).directGo (s.windowAccess false s.ep.nextId x.addr x.len []) := by
  unfold State.windowLoad
  rw [h]

theorem State.windowLoad_faults {s : State} {x : Txn} {at_ b : Nat} (h : s.windowFault false x.addr x.len = some b) :
    s.windowLoad x at_ = (s.epErr b).complete x.rid x.tag x.addr 1 x.len [] := by
  unfold State.windowLoad
  rw [h]

theorem State.windowStore_begins {s : State} {x : Txn} (h : s.windowFault true x.addr x.len = none) :
    s.windowStore x = ({ s with ep := { s.ep with
        nextId := s.ep.nextId + 1
        stores := s.ep.stores ++ [{ id := s.ep.nextId, rid := x.rid }] } } : State).directGo
      (s.windowAccess true s.ep.nextId x.addr x.len (sliceBytes x.data 0 x.len)) := by
  unfold State.windowStore
  rw [h]

theorem State.windowStore_faults {s : State} {x : Txn} {b : Nat} (h : s.windowFault true x.addr x.len = some b) :
    s.windowStore x = s.epErr b := by
  unfold State.windowStore
  rw [h]

/-- A load whose access fails a check is answered with status 1. -/
theorem State.faulted_does {s : State} {b : Nat} (hb : b < 32) (ha : s.ep.att.active = true) (hd : s.ep.att.down = false)
    (rid tag addr len : Nat) :
    ((s.epErr b).complete rid tag addr 1 len []).flag .plocen Reg.epAttErr b = true
      ∧ answered ((s.epErr b).complete rid tag addr 1 len []) rid tag 1
      ∧ onlyAttachRegs s ((s.epErr b).complete rid tag addr 1 len []) := by
  have hraised := s.raised_epErr hb
  have hsent := (s.epErr b).sent_complete rid tag addr 1 len []
  refine ⟨(State.flag_congr (onlyAttach_reg hsent.only _) _).trans hraised.flag, State.answered_complete ?_ ?_ _ _ _ _ _ _,
    onlyAttachRegs_trans hraised.only (onlyAttachRegs_of_onlyAttach hsent.only)⟩
  · rw [hraised.att]; exact ha
  · rw [hraised.att]; exact hd

/-! ### The reading of EP_HNK.FENCE -/

/-- A store that the reading waits for is outstanding. -/
def State.waitsFor (s : State) (f : FenceRd) : Bool := f.waits.any fun i => s.ep.stores.any fun x => x.id == i

/-- The readings that wait for nothing are answered. -/
theorem State.settleFences_eq (s : State) :
    s.settleFences = State.completeAll (fun f : FenceRd => (f.rid, f.tag, f.addr, f.len))
      (fun t f => t.regBytes .plocen Reg.epHnkFence f.len) (s.ep.fences.filter fun f => !s.waitsFor f)
      ({ s with ep := { s.ep with fences := s.ep.fences.filter s.waitsFor } } : State) := rfl

/-- The reading that a load of EP_HNK.FENCE begins. -/
def State.fenceOf (s : State) (x : Txn) (at_ : Nat) : FenceRd :=
  { rid := x.rid, tag := x.tag, addr := x.addr, len := x.len, at_ := at_
    waits := (s.ep.stores.filter fun y => y.rid == x.rid).map fun y : Store => y.id }

theorem State.fenceLoad_eq (s : State) (x : Txn) (at_ : Nat) :
    s.fenceLoad x at_ = ({ s with ep := { s.ep with fences := s.ep.fences ++ [s.fenceOf x at_] } } : State).settleFences := rfl

/-- It waits where its requester has a store outstanding. -/
theorem State.waitsFor_fenceOf (s : State) (x : Txn) (at_ : Nat) :
    s.waitsFor (s.fenceOf x at_) = s.ep.stores.any fun y => y.rid == x.rid := by
  unfold State.waitsFor State.fenceOf
  rw [Bool.eq_iff_iff]
  simp only [List.any_eq_true, List.mem_map, List.mem_filter, beq_iff_eq]
  constructor
  · rintro ⟨_, ⟨y, ⟨hy, hrid⟩, rfl⟩, -⟩
    exact ⟨y, hy, hrid⟩
  · rintro ⟨y, hy, hrid⟩
    exact ⟨y.id, ⟨y, ⟨hy, hrid⟩, rfl⟩, y, hy, rfl⟩

theorem State.fenceLoad_answers {s : State} {x : Txn} (at_ : Nat) (ha : s.ep.att.active = true) (hd : s.ep.att.down = false)
    (h : (s.ep.stores.all fun y => y.rid != x.rid) = true) : answered (s.fenceLoad x at_) x.rid x.tag 0 := by
  have hfree : s.waitsFor (s.fenceOf x at_) = false := by
    rw [s.waitsFor_fenceOf x at_, List.any_eq_false]
    intro y hy hrid
    have := List.all_eq_true.1 h y hy
    rw [beq_iff_eq.1 hrid] at this
    simp at this
  rw [State.fenceLoad_eq, State.settleFences_eq]
  have hmem : s.fenceOf x at_ ∈ (s.ep.fences ++ [s.fenceOf x at_]).filter fun f =>
      !({ s with ep := { s.ep with fences := s.ep.fences ++ [s.fenceOf x at_] } } : State).waitsFor f := by
    refine List.mem_filter.2 ⟨List.mem_append_right _ (List.mem_singleton.2 rfl), ?_⟩
    show (!s.waitsFor (s.fenceOf x at_)) = true
    rw [hfree]
    rfl
  exact State.answered_completeAll (fun f : FenceRd => (f.rid, f.tag, f.addr, f.len)) _ hmem _ ha hd

theorem State.fenceLoad_waits {s : State} {x : Txn} (at_ : Nat) (h : (s.ep.stores.any fun y => y.rid == x.rid) = true) :
    s.fenceOf x at_ ∈ (s.fenceLoad x at_).ep.fences := by
  have hheld : s.waitsFor (s.fenceOf x at_) = true := (s.waitsFor_fenceOf x at_).trans h
  rw [State.fenceLoad_eq, State.settleFences_eq]
  have hsent := State.sent_completeAll (fun f : FenceRd => (f.rid, f.tag, f.addr, f.len))
    (fun t f => t.regBytes .plocen Reg.epHnkFence f.len)
  have honly := (hsent ((s.ep.fences ++ [s.fenceOf x at_]).filter fun f => !s.waitsFor f)
    ({ s with ep := { s.ep with fences := (s.ep.fences ++ [s.fenceOf x at_]).filter s.waitsFor } } : State)).only
  unfold onlyAttach at honly
  have hfences := congrArg (fun t : State => t.ep.fences) honly
  exact hfences ▸ List.mem_filter.2 ⟨List.mem_append_right _ (List.mem_singleton.2 rfl), hheld⟩

/-! ### What the commands serve -/

/-- The load as the command sends it. -/
def asLoad (x : Txn) : Txn := { x with opc := 0x11, space := false }
/-- The store as the command sends it. -/
def asStore (x : Txn) : Txn := { x with opc := 0x12, space := false }
/-- The reading of EP_HNK.FENCE as the command sends it. -/
def asFenceRead (x : Txn) : Txn := { x with opc := 0x11, space := true, addr := Reg.epHnkFence }

/-- A read request has one chunk, which a store's credit covers. -/
theorem txnChunks_load_le (len : Nat) : txnChunks 0x11 len ≤ txnChunks 0x12 len := by
  simp [txnChunks, opcHasData]

theorem State.exec_directLoad {s : State} {x : Txn} (hr : s.Ready (txnChunks 0x11 x.len)) (hlen : x.len ≤ 64) :
    exec (.directLoad x) s = .next ((s.modAtt (Attach.passed (txnChunks 0x11 x.len))).windowLoad (asLoad x) s.now) :=
  congrArg Host.Outcome.next (State.txnArrives_served (x := asLoad x) hr (.inl rfl) hlen)

theorem State.exec_directStore {s : State} {x : Txn} (hr : s.Ready (txnChunks 0x12 x.len)) (hlen : x.len ≤ 64) :
    exec (.directStore x) s = .next ((s.modAtt (Attach.passed (txnChunks 0x12 x.len))).windowStore (asStore x)) :=
  congrArg Host.Outcome.next (State.txnArrives_served (x := asStore x) hr (.inr rfl) hlen)

theorem State.exec_epHnkFenceRead {s : State} {x : Txn} (hr : s.Ready (txnChunks 0x11 x.len)) (hlen : x.len = 4 ∨ x.len = 8) :
    exec (.epHnkFenceRead x) s = .next ((s.modAtt (Attach.passed (txnChunks 0x11 x.len))).fenceLoad (asFenceRead x) s.now) := by
  have hserved := State.txnArrives_served (x := asFenceRead x) hr (.inl rfl) (by show x.len ≤ 64; omega)
  have hacc : (!regAccess Reg.epHnkFence x.len || decide (2 ^ 24 ≤ Reg.epHnkFence)) = false := by
    rcases hlen with h | h
    · rw [h]; decide
    · rw [h]; decide
  refine congrArg Host.Outcome.next (hserved.trans ?_)
  show State.registerLoad _ (asFenceRead x) s.now = _
  unfold State.registerLoad
  show (if (!regAccess Reg.epHnkFence x.len || decide (2 ^ 24 ≤ Reg.epHnkFence)) = true then _ else _) = _
  rw [hacc]
  rfl

/-- Settles O3: each command is served at once. -/
theorem attachDirect : Obligations.AttachDirect := by
  unfold Obligations.AttachDirect
  intro s x hrx hbuf hloads hcredit h1 h64
  have hstore : s.Ready (txnChunks 0x12 x.len) := ⟨hrx, hbuf, hloads, hcredit⟩
  have hload : s.Ready (txnChunks 0x11 x.len) :=
    ⟨hrx, hbuf, hloads, (Nat.add_le_add_left (txnChunks_load_le x.len) _).trans hcredit⟩
  obtain ⟨hact, hdown, -⟩ := s.attRx_iff.1 hrx
  refine ⟨fun h => ?_, fun h => ?_, fun b h => ?_, fun b h => ?_, fun hl hall => ?_, fun hl hany => ?_⟩
  · rw [State.exec_directLoad hload h64, State.windowLoad_begins (s := s.modAtt _) (x := asLoad x) h]
    exact ⟨_, rfl, rfl, rfl⟩
  · rw [State.exec_directStore hstore h64, State.windowStore_begins (s := s.modAtt _) (x := asStore x) h]
    exact ⟨_, rfl, rfl, rfl⟩
  · obtain ⟨hflag, hans, honly⟩ := (s.modAtt (Attach.passed (txnChunks 0x11 x.len))).faulted_does (State.windowFault_lt h) hact hdown
      x.rid x.tag x.addr x.len
    rw [State.exec_directLoad hload h64, State.windowLoad_faults (s := s.modAtt _) (x := asLoad x) h]
    exact ⟨_, rfl, hflag, hans, onlyAttachRegs_trans (onlyAttachRegs_of_onlyAttach (s.onlyAttach_modAtt _)) honly⟩
  · have hraised := (s.modAtt (Attach.passed (txnChunks 0x12 x.len))).raised_epErr (State.windowFault_lt h)
    have honly := hraised.only
    rw [State.exec_directStore hstore h64, State.windowStore_faults (s := s.modAtt _) (x := asStore x) h]
    refine ⟨_, rfl, hraised.flag, ?_, onlyAttachRegs_trans (onlyAttachRegs_of_onlyAttach (s.onlyAttach_modAtt _)) honly⟩
    unfold onlyAttachRegs at honly
    rw [honly]
    rfl
  · rw [State.exec_epHnkFenceRead hload hl]
    exact ⟨_, rfl, State.fenceLoad_answers _ hact hdown hall, onlyPlocen_of (by simp) (by simp)⟩
  · rw [State.exec_epHnkFenceRead hload hl]
    exact ⟨_, rfl, State.fenceLoad_waits _ hany, onlyPlocen_of (by simp) (by simp)⟩

end Sys2Proof.Machine
end

section
/-! Completions of the accelerator, and the limits on them (R79, R81, R86, R89). -/

namespace Sys2Proof.Machine

open Sys2Proof Sys2Proof.Claims

section
variable {s : State} {x : Txn} {y : AttTag}

/-! ### A completion arrives -/

/-- The link once the completion chunks are consumed and the tag is free. -/
def Attach.tagFreed (tag k : Nat) (a : Attach) : Attach := { a with tags := SMap.drop a.tags tag, cplFreed := a.cplFreed + k }

/-- The link once the completion chunks are consumed and the tag keeps `y`. -/
def Attach.tagHeld (tag k : Nat) (y : AttTag) (a : Attach) : Attach :=
  { a with tags := SMap.set a.tags tag y, cplFreed := a.cplFreed + k }

/-- The state on which the access ends: with an error it sets ACC_ERROR. -/
def State.completed (s : State) (tag k status : Nat) : State :=
  if status = 0 then s.modAtt (Attach.tagFreed tag k) else (s.modAtt (Attach.tagFreed tag k)).epErr errAccError

theorem State.exec_cpl (hrx : s.attRx = true) (hy : s.tagOf x.tag = some y) (hlen : x.len ≤ 256) (hdead : y.dead = false)
    (hread : y.isRead = false) :
    exec (.cpl x) s
      = .next ((((s.completed x.tag 1 x.status).accessOver y [] (decide (x.status = 0))).attPump).a2pGo).unready := by
  have htag : (s.cplTaken 1).tagOf x.tag = some y := hy
  have hcpl : s.cplIn { x with opc := 0x22 }
      = ((s.completed x.tag 1 x.status).accessOver y [] (decide (x.status = 0))).attPump := by
    unfold State.cplIn
    dsimp only
    rw [htag]
    by_cases h0 : x.status = 0 <;> simp [hread, hdead, h0, State.completed] <;> rfl
  show Host.Outcome.next (s.txnArrives { x with opc := 0x22 }).unready = _
  unfold State.txnArrives State.txnIn
  simp only [hrx]
  rw [← hcpl]
  simp [Nat.not_lt.2 hlen]

theorem State.exec_cpld_whole (hrx : s.attRx = true) (hy : s.tagOf x.tag = some y) (hlen : x.len ≤ 256) (hdead : y.dead = false)
    (hread : y.isRead = true) (hgot : y.len ≤ y.got + x.len) (h0 : x.status = 0) :
    exec (.cpld x) s = .next ((((s.modAtt (Attach.tagFreed x.tag (txnChunks 0x21 x.len))).accessOver y
      ((spliceBytes y.data (bits 0 9 x.aux) (sliceBytes x.data 0 x.len)).take y.len) true).attPump).a2pGo).unready := by
  have htag : (s.cplTaken (txnChunks 0x21 x.len)).tagOf x.tag = some y := hy
  have hcpl : s.cpldIn { x with opc := 0x21 } = ((s.modAtt (Attach.tagFreed x.tag (txnChunks 0x21 x.len))).accessOver y
      ((spliceBytes y.data (bits 0 9 x.aux) (sliceBytes x.data 0 x.len)).take y.len) true).attPump := by
    unfold State.cpldIn
    dsimp only
    rw [htag]
    simp [hread, hdead, h0, hgot]
    rfl
  show Host.Outcome.next (s.txnArrives { x with opc := 0x21 }).unready = _
  unfold State.txnArrives State.txnIn
  simp only [hrx]
  rw [← hcpl]
  simp [Nat.not_lt.2 hlen]

theorem State.exec_cpld_piece (hrx : s.attRx = true) (hy : s.tagOf x.tag = some y) (hlen : x.len ≤ 256) (hdead : y.dead = false)
    (hread : y.isRead = true) (hgot : y.got + x.len < y.len) (h0 : x.status = 0) :
    exec (.cpld x) s = .next ((s.modAtt (Attach.tagHeld x.tag (txnChunks 0x21 x.len)
      { y with got := y.got + x.len, data := spliceBytes y.data (bits 0 9 x.aux) (sliceBytes x.data 0 x.len) })).a2pGo).unready := by
  have htag : (s.cplTaken (txnChunks 0x21 x.len)).tagOf x.tag = some y := hy
  have hcpl : s.cpldIn { x with opc := 0x21 } = s.modAtt (Attach.tagHeld x.tag (txnChunks 0x21 x.len)
      { y with got := y.got + x.len, data := spliceBytes y.data (bits 0 9 x.aux) (sliceBytes x.data 0 x.len) }) := by
    unfold State.cpldIn
    dsimp only
    rw [htag]
    simp [hread, hdead, h0, Nat.not_le.2 hgot]
    rfl
  show Host.Outcome.next (s.txnArrives { x with opc := 0x21 }).unready = _
  unfold State.txnArrives State.txnIn
  simp only [hrx]
  rw [← hcpl]
  simp [Nat.not_lt.2 hlen]

/-! ### Limits -/

/-- The state on which an access ends that has not been completed in time. -/
def State.timedOut (s : State) (tag : Nat) (y : AttTag) : State := (s.setTag tag { y with dead := true }).epErr errAccTimeout

theorem State.accTimeout_ends {tag : Nat} (hy : s.tagOf tag = some y) (hdead : y.dead = false)
    (hat : y.sentAt + 1000 * max 1 (s.fld .plocen Reg.epAttTmo 0 16) ≤ s.now) :
    s.accTimeout tag = (s.timedOut tag y).accessOver y [] false := by
  unfold State.accTimeout
  rw [hy]
  simp only [hdead, Nat.not_lt.2 hat]
  rfl

theorem State.raised_timedOut (s : State) (tag : Nat) (y : AttTag) :
    State.Raised errAccTimeout (s.setTag tag { y with dead := true }) (s.timedOut tag y) := State.raised_epErr _ (by decide)

/-- A ring that was changed is listed once. -/
theorem State.snd_of_mem_modRing {n : Nat} {f : Ring → Ring} {e : Nat × Ring} (h : e ∈ (s.modRing n f).ep.rings) (hn : e.1 = n) :
    e.2 = f (s.ring n) := by
  have hmem : e ∈ SMap.put (fun _ => {}) s.ep.rings n (f (s.ring n)) := h
  exact SMap.snd_of_mem_put hmem hn

/-- A fetch that has failed stops the ring, which shows the first error. -/
theorem State.ringError_does (s : State) (r : Nat) :
    (((s.ringError r 3).unready).ring r).err = true ∧ (((s.ringError r 3).unready).ring r).fetchStop = true
      ∧ (((s.ringError r 3).unready).ring r).errCode = (if (s.ring r).err then (s.ring r).errCode else 3) := by
  have hring := s.ring_modRing_same r fun x =>
    { x with err := true, errCode := if x.err then x.errCode else 3, fetchStop := x.fetchStop || 3 != 2 }
  have hone : ∀ e ∈ (s.ringError r 3).ep.rings, e.1 = r → e.2 = (s.ringError r 3).ring r := fun e he hr =>
    (State.snd_of_mem_modRing he hr).trans hring.symm
  rw [(State.ring_unready hone).eq]
  dsimp only
  rw [State.ringError, hring]
  exact ⟨rfl, Bool.or_true _, rfl⟩

/-- An LD that waits beyond the Plocen's buffers has waited too long. -/
theorem State.loadTimeout_beyond {rid tag : Nat} {l : Load} (hbuf : s.ep.att.a2pBuf = [])
    (hl : (s.ep.loads.find? fun l => l.rid == rid && l.tag == tag
      && decide (l.at_ + 1000 * max 1 (s.fld .plocen Reg.epAttTmo 16 16) ≤ s.now)) = some l) :
    s.loadTimeout rid tag = ((s.modXlt fun x => { x with misses := x.misses.map fun m : Miss =>
      { m with direct := m.direct.filter fun d => d.store || d.id != l.id } }).loadDone l.id 4 []).a2pGo := by
  unfold State.loadTimeout
  rw [hbuf]
  dsimp only
  rw [List.find?_nil, ite_self, hl]

/-- An LD that waits in the Plocen's buffers has waited too long. -/
theorem State.loadTimeout_buffered {at_ : Nat} (hbuf : s.ep.att.a2pBuf = [(x, at_)]) (hop : x.opc = 0x11)
    (hat : at_ + 1000 * max 1 (s.fld .plocen Reg.epAttTmo 16 16) ≤ s.now) :
    s.loadTimeout x.rid x.tag = ((s.modAtt fun a => { a with a2pBuf := [], a2pFreed := a.a2pFreed + txnChunks x.opc x.len }).complete
      x.rid x.tag x.addr 4 x.len []).a2pGo := by
  have hold : bufferedLoad x.rid x.tag (s.now - 1000 * max 1 (s.fld .plocen Reg.epAttTmo 16 16)) (x, at_) = true := by
    unfold bufferedLoad
    simp only [hop, BEq.rfl, Bool.true_and, decide_eq_true_eq]
    omega
  have hnow : ¬ s.now < 1000 * max 1 (s.fld .plocen Reg.epAttTmo 16 16) := by omega
  have hf : (s.modAtt fun a => { a with
      a2pBuf := a.a2pBuf.filter fun e =>
        !bufferedLoad x.rid x.tag (s.now - 1000 * max 1 (s.fld .plocen Reg.epAttTmo 16 16)) e
      a2pFreed := a.a2pFreed + txnChunks x.opc x.len })
      = s.modAtt fun a => { a with a2pBuf := [], a2pFreed := a.a2pFreed + txnChunks x.opc x.len } := by
    have hnil : (s.ep.att.a2pBuf.filter fun e =>
        !bufferedLoad x.rid x.tag (s.now - 1000 * max 1 (s.fld .plocen Reg.epAttTmo 16 16)) e) = [] := by
      rw [hbuf, List.filter_cons_of_neg (by rw [hold]; decide), List.filter_nil]
    unfold State.modAtt
    dsimp only
    rw [hnil]
  unfold State.loadTimeout
  dsimp only
  rw [if_neg hnow, hbuf, List.find?_cons_of_pos hold]
  dsimp only
  rw [hf]

/-- A load that ends with an error status is answered with it, and outstanding no longer. -/
theorem State.loadDone_fails {l : Load} (hact : s.ep.att.active = true) (hdown : s.ep.att.down = false)
    (hl : (s.ep.loads.find? fun x => x.id == l.id) = some l) {status : Nat} (h3 : status ≠ 3) :
    answered (s.loadDone l.id status []) l.rid l.tag status ∧ (s.loadDone l.id status []).ep.loads = s.ep.loads.filter (fun x => x.id != l.id)
      ∧ (s.loadDone l.id status []).ep.att.a2pBuf = s.ep.att.a2pBuf := by
  unfold State.loadDone
  rw [hl]
  dsimp only
  rw [if_neg h3, ite_self]
  have hsent := State.sent_complete ({ s with ep := { s.ep with loads := s.ep.loads.filter fun x => x.id != l.id } } : State)
    l.rid l.tag l.addr status l.len []
  have honly := hsent.only
  unfold onlyAttach at honly
  exact ⟨State.answered_complete (s := { s with ep := { s.ep with loads := s.ep.loads.filter fun x => x.id != l.id } }) hact hdown
      _ _ _ _ _ _, (congrArg (fun t : State => t.ep.loads) honly).trans rfl, by rw [hsent.att]; rfl⟩

end

/-- Settles O4, completion by completion and limit by limit. -/
theorem attachCompletions : Obligations.AttachCompletions := by
  unfold Obligations.AttachCompletions
  intro s
  refine ⟨fun x y hrx hy hlen hdead => ⟨fun hread => ?_, fun hread hgot h0 => ?_, fun hread hgot h0 => ?_⟩,
    fun tag y hy hdead hat => ⟨?_, fun r first n huse hvoid => ?_⟩, fun rid tag l hact hdown hbuf hl hid => ?_,
    fun x at_ hact hdown hbuf hop hat => ?_⟩
  · refine ⟨_, State.exec_cpl hrx hy hlen hdead hread, fun h0 => ?_, fun h0 => ?_⟩
    · rw [State.completed, if_pos h0]
      rfl
    · have hraised := (s.modAtt (Attach.tagFreed x.tag 1)).raised_epErr (b := errAccError) (by decide)
      rw [State.completed, if_neg h0]
      exact ⟨hraised.flag, onlyAttachRegs_trans (onlyAttachRegs_of_onlyAttach (s.onlyAttach_modAtt _)) hraised.only⟩
  · exact ⟨_, State.exec_cpld_whole hrx hy hlen hdead hread hgot h0, rfl⟩
  · refine ⟨_, State.exec_cpld_piece hrx hy hlen hdead hread hgot h0, ?_, rfl⟩
    exact SMap.find?_set_same _ _ _
  · have hraised := s.raised_timedOut tag y
    exact ⟨_, congrArg (fun t : State => Host.Outcome.next t.unready) (State.accTimeout_ends hy hdead hat), hraised.flag,
      onlyAttachRegs_trans (onlyAttachRegs_of_onlyAttach (s.onlyAttach_modAtt _)) hraised.only⟩
  · have hrings : (s.timedOut tag y).ring r = s.ring r := by
      have honly := (s.raised_timedOut tag y).only
      unfold onlyAttachRegs at honly
      unfold State.ring
      rw [honly]
      rfl
    have hends : s.accTimeout tag = (s.timedOut tag y).ringError r 3 := by
      rw [State.accTimeout_ends hy hdead hat, State.accessOver, hvoid, huse]
      rfl
    have hring := (s.timedOut tag y).ringError_does r
    rw [hrings] at hring
    exact ⟨_, congrArg (fun t : State => Host.Outcome.next t.unready) hends, hring⟩
  · have hfound := List.find?_some hl
    simp only [Bool.and_eq_true, beq_iff_eq] at hfound
    obtain ⟨⟨rfl, rfl⟩, -⟩ := hfound
    generalize hu : (s.modXlt fun x => { x with misses := x.misses.map fun m : Miss =>
      { m with direct := m.direct.filter fun d => d.store || d.id != l.id } }) = u
    obtain ⟨hans, hloads, hbuf'⟩ := State.loadDone_fails (s := u) (l := l) (status := 4) (by rw [← hu]; exact hact) (by rw [← hu]; exact hdown)
      (by rw [← hu]; exact hid) (by decide)
    have heq : s.loadTimeout l.rid l.tag = u.loadDone l.id 4 [] := by
      rw [State.loadTimeout_beyond hbuf hl, hu]
      exact State.a2pGo_empty (by rw [hbuf', ← hu]; exact hbuf)
    refine ⟨_, congrArg Host.Outcome.next heq, hans, by rw [hloads, ← hu]; rfl, ?_⟩
    subst hu
    exact onlyPlocen_of (by simp) (by simp)
  · generalize hu : (s.modAtt fun a => { a with a2pBuf := [], a2pFreed := a.a2pFreed + txnChunks x.opc x.len }) = u
    have hsent := u.sent_complete x.rid x.tag x.addr 4 x.len []
    have hnil : (u.complete x.rid x.tag x.addr 4 x.len []).ep.att.a2pBuf = [] := by
      rw [hsent.att, ← hu]
      rfl
    have heq : s.loadTimeout x.rid x.tag = u.complete x.rid x.tag x.addr 4 x.len [] := by
      rw [State.loadTimeout_buffered hbuf hop hat, hu]
      exact State.a2pGo_empty hnil
    refine ⟨_, congrArg Host.Outcome.next heq, State.answered_complete (by rw [← hu]; exact hact) (by rw [← hu]; exact hdown) _ _ _ _ _ _,
      hnil, ?_⟩
    exact onlyAttach_trans (hu ▸ s.onlyAttach_modAtt _) hsent.only

end Sys2Proof.Machine
end

section
/-! A warp cell arrives at a Ronpex (R186, R303), while its receiver may undo a rekey (R333). -/

namespace Sys2Proof.Machine

open Sys2Proof Sys2Proof.Claims

theorem State.warp_logOnce_rpCond (s : State) (p c code origin requester port skein addr old new : Nat) :
    (s.logOnce p c fun t => t.rpCond code origin requester port skein addr old new).rp.warp = s.rp.warp := by
  unfold State.logOnce
  split
  · rfl
  · obtain ⟨l, x, h⟩ := (s.modLink .ronpex p fun l => { l with loggedNow := l.loggedNow ++ [c] }).rpCond_only
      code origin requester port skein addr old new
    dsimp only
    rw [h]
    rfl

/-- A cell of a skein that is QUIESCENT goes nowhere. -/
theorem State.warp_rpWarpIn_gated {s : State} {c : WarpCell} (h : 0 < c.skein ∧ s.skeinState c.skein = 1) (p : Nat) :
    (s.rpWarpIn p c).rp.warp = s.rp.warp := by
  have hgate : s.skeinGate p 3 c.node c.skein false
      = (true, s.logOnce p 0x05 fun t => t.rpCond 0x05 5 c.node p c.skein 0 (frameOf s.now % 2 ^ 32) 3) := by
    rw [State.skeinGate]
    exact if_pos h
  unfold State.rpWarpIn
  dsimp only
  split
  · unfold State.quarTraffic
    split
    · rw [(State.logged_rpLog _ _).frame]
    · rfl
  · split
    · rfl
    · split
      · split
        · exact s.warp_logOnce_rpCond ..
        · rfl
      · rw [hgate]
        exact s.warp_logOnce_rpCond ..

/-- A cell that arrives where its arrival makes its skein read as QUIESCENT goes nowhere. -/
theorem State.warp_rpCellIn_gated {s : State} {p : Fin 192} {c : WarpCell}
    (hgone : 0 < c.skein ∧ (s.rxBlock .ronpex p (.warp c)).skeinState c.skein = 1) (huse : s.rxAt s.now p = 1) :
    (s.rpCellIn p c).rp.warp = s.rp.warp := by
  have hrx : (s.rxBlock .ronpex p (.warp c)).rp.warp = s.rp.warp := by rw [(State.rxBlock_ronpex _ _ _).2]
  unfold State.rpCellIn
  rw [huse]
  split
  · rfl
  · dsimp only
    have h13 : (1 != 3) = true := rfl
    rw [if_pos h13]
    split
    · exact hrx
    · rw [State.warp_rpWarpIn_gated hgone, hrx]

theorem sealedCell_crc_eq (c : WarpCell) : (sealedCell c).crc = cellCrc (sealedCell c) := rfl

/-- A cell whose SKEIN is the number whose SKN.CTL would stand where SEC.P.KEYGEN of port 3 stands: a cell's field has 6 bits (R196),
the statement's SKEIN is any number. -/
def foreignCell : WarpCell :=
  sealedCell { dir := false, ctrl := 0, node := 7, skein := skeinAtKeygen, epoch := 0, phase := 9, draft := 0, inst := 4, round := 2
               cell := 0, slice := 0, status := 0, count := 1, opdata := 0, crc := 0, payload := [] }

/-- The phase of the cell. -/
def foreignPhase : PhaseRec :=
  { kind := 3, op := 0, fin := 0, fout := 0, mode := 0, pattern := 1, members := 3, first := 0, last := 0x0FFF, spGroup := 0, shOff := 0
    contrib := 64, result := 0, planes := 0, shRounds := 0, topkK := 0, topkL := 0, rsv := 0 }

/-- A draft runs whose slot 2,176 leads port 3 to port 4, and port 3 looks at the fourth block after a rekey, whose undoing shows
generation 1 again. -/
def undoingDraft : State := { undoingState with
  rp := { undoingState.rp with
    regs := [(psBase .ronpex 3 + 4, 2), (portBase 3, 0), (Reg.drfStat, 8), (Reg.sknPort 3, 2), (Reg.xbrAnaCtl, 0), (Reg.secPKeygen 3, 2),
      (draftBase 0 0 + 52228, 0x40040000), (draftBase 0 0 + 0x1A000 + 32 * 9, 3), (draftBase 0 0 + 0x1A000 + 32 * 9 + 4, 0x30100),
      (draftBase 0 0 + 0x1A000 + 32 * 9 + 8, 0x0FFF0000), (draftBase 0 0 + 0x1A000 + 32 * 9 + 12, 0),
      (draftBase 0 0 + 0x1A000 + 32 * 9 + 16, 64)] } }

/-- The end of the trial shows the generation of the old keys, and the cell's skein reads as QUIESCENT. -/
theorem undoingDraft_gated {p : Nat} (hp : p = 3) : 0 < foreignCell.skein
    ∧ (undoingDraft.rxBlock .ronpex p (.warp foreignCell)).skeinState foreignCell.skein = 1 := by
  subst hp
  have hgen := State.rxBlock_undone (s := undoingDraft) (p := 3) rfl rfl rfl rfl rfl rfl rfl (.warp foreignCell)
  refine ⟨by decide, ?_⟩
  rw [State.fld, bits] at hgen
  rw [State.skeinState, State.fld, bits]
  change (_ : Nat) = 1 % 2 ^ 16 at hgen
  rw [show Reg.sknCtl foreignCell.skein = keygenReg .ronpex 3 from sknCtl_skeinAtKeygen]
  omega

/-- Refutes O26: of a cell with a SKEIN beyond 63, the state of the skein is read elsewhere than at its SKN.CTL, here at the KEYGEN that
the arrival itself changes, and the cell is dropped as one of a QUIESCENT skein. -/
theorem not_cellsMove : ¬ Obligations.CellsMove := by
  intro h
  have hcarries : undoingDraft.carries 3 = true := by decide +kernel
  have huse : undoingDraft.rxAt undoingDraft.now (3 : Fin 192) = 1 := by decide +kernel
  have hskein : undoingDraft.expectsSkein (3 : Fin 192) foreignCell.skein = true := by decide +kernel
  have hphase : undoingDraft.pkgPhase undoingDraft.rdSlot foreignCell.phase = some foreignPhase := by decide +kernel
  have hact : entryAction (undoingDraft.rdAt undoingDraft.now (3 : Fin 192)) = 2 := by decide +kernel
  have hstate : foreignCell.skein = 0 ∨ undoingDraft.skeinState foreignCell.skein ≠ 1 := .inr (by decide +kernel)
  obtain ⟨t, ht, hwarp, -⟩ := (h.1 undoingDraft 3 foreignCell foreignPhase hcarries (by decide +kernel) huse (by decide +kernel) hskein rfl
    (sealedCell_crc_eq _)
    hstate (by decide +kernel) (by decide +kernel) hphase rfl (by decide)).1 hact
  have ht' : undoingDraft.rpCellIn (3 : Fin 192) foreignCell = t := Host.Outcome.next.inj ht
  have hheard : t.rp.warp.heard = undoingDraft.rp.warp.heard ++ [((3 : Fin 192) : Nat)] := by rw [hwarp]
  rw [← ht', State.warp_rpCellIn_gated (undoingDraft_gated rfl) huse] at hheard
  exact List.cons_ne_nil _ _ (List.self_eq_append_right.1 hheard)

end Sys2Proof.Machine
end

section
/-! A request of fabric-resident memory whose channel controller is in quarantine (R251, R352). -/

namespace Sys2Proof.Machine

open Sys2Proof Sys2Proof.Claims

/-- A READ of 32 bytes at offset 64. -/
def quarantinedRead : Container :=
  { emptyContainer with kind := 1, dest := 9, src := 7, skein := 2, seq := 4, opc := 2, len := 32, offset := 64 }

/-- Its message. -/
def quarantinedMsg : Msg := { opc := 2, len := 32, reply := false, ord := false, hank := 0, seq := 4, offset := 64, ttag := 0, data := [] }

/-- The memory agent holds the READ and is otherwise idle; region 0 grants it, its answer leaves by port 3, and every channel controller
stands at a step of quarantine. -/
def quarantinedState : State := { State.reset with
  now := 320000
  rp := { State.reset.rp with
    regs := [(psBase .ronpex 3 + 4, 2), (portBase 3, 0), (Reg.xbrPathmask 0, 0xFFFFFFFF), (Reg.xbrRt 7, 0x301), (Reg.sknCtl 2, 2), (Reg.budCtl, 0),
      (Reg.fmhCtl, 1), (Reg.fmhEpoch, 0), (Reg.fmhRgnCtl 0, 0x42F), (Reg.fmhRgnBase 0, 0), (Reg.fmhRgnSize 0, 4), (Reg.fmhChfence 0, 0)]
    units := { State.reset.rp.units with qstep := (List.range 128).map fun c => (288 + c, 1) }
    fmem := { inbox := [(3, quarantinedRead)], trained := 15
              dest := { recs := [(7, { base := 4, done := [], prog := [], last := 5 })], nextId := 12 } } } }

theorem quarantinedState_serves : agentServes quarantinedState 3 quarantinedRead quarantinedMsg 3 := by
  unfold agentServes
  refine ⟨?_, ?_, ?_, ?_, ?_, ?_, ⟨5, ?_⟩, ?_, ?_, ?_, ?_, ?_, ?_, ?_, ?_, ?_, ?_, ?_, ?_⟩ <;> decide +kernel

/-- The request is discarded: nothing answers it. -/
theorem cand_quarantinedState : (((quarantinedState.modFm fun m => { m with
    inbox := m.inbox.erase (((3 : Fin 192) : Nat), quarantinedRead), bad := m.bad ++ ([] : List Nat).filter fun b => !m.bad.contains b }).corrected 0
      quarantinedRead.offset).agentTake (3 : Fin 192) quarantinedRead).rp.cand = [] := by decide +kernel

/-- Refutes O21: the traffic of a channel controller in quarantine is discarded, so a READ of its range is not answered. -/
theorem not_memoryAgentRequest : ¬ Obligations.MemoryAgentRequest := by
  intro h
  obtain ⟨t, ht, -, -, ⟨e, hcand, -⟩, -⟩ := (h quarantinedState 3 quarantinedRead quarantinedMsg 3 quarantinedState_serves).1 rfl
  have hin : quarantinedState.rp.fmem.inbox.contains (((3 : Fin 192) : Nat), quarantinedRead) = true := by decide +kernel
  have ht' := Host.Outcome.next.inj ht
  rw [if_pos hin] at ht'
  rw [← ht', cand_quarantinedState] at hcand
  exact List.cons_ne_nil _ _ (List.append_eq_nil_iff.1 hcand.symm).2

end Sys2Proof.Machine
end

section
/-! Feeds of the lasers (R284, R286, R292, R298): which module lights a wavelength of an engine, and the readings of both. -/

namespace Sys2Proof.Machine

open Sys2Proof Sys2Proof.Claims

/-! ### The selected feeds of an engine -/

theorem bit_two_pow (v w : Nat) : bit w (2 ^ v) = decide (v = w) := by
  rw [bit_eq_testBit, Nat.testBit_two_pow]

theorem mem_setBitsOf {n m w : Nat} : w ∈ setBitsOf n m ↔ w < n ∧ bit w m = true := by
  simp [setBitsOf]

theorem State.rpRegs_feedEvent' (s : State) (e mask a : Nat) (ha : 0x1000000 ≤ a) :
    (s.feedEvent e mask).reg .ronpex a = s.reg .ronpex a :=
  State.reg_of_rpRegs (State.rpRegs_feedEvent s e mask) (notMem_reportRegs ha)

/-- The selections in a list are all set to `b`. -/
theorem State.flag_selectFeeds (e : Nat) (b : Bool) (l : List Nat) (hl : ∀ w ∈ l, w < 32) (w : Nat) (s : State) :
    (l.foldl (fun t w => t.setFlag .ronpex (engineBase e + 4) w b) s).flag .ronpex (engineBase e + 4) w
      = if w ∈ l then b else s.flag .ronpex (engineBase e + 4) w := by
  induction l generalizing s with
  | nil => simp
  | cons v l ih =>
    rw [List.foldl_cons, ih (fun w hw => hl w (List.mem_cons_of_mem _ hw))]
    by_cases hw : w ∈ l
    · simp [hw]
    · by_cases hv : w = v
      · subst hv
        simp [hw, State.flag_setFlag_same s .ronpex b (hl w List.mem_cons_self)]
      · simp [hw, hv, State.flag_setFlag_other s .ronpex b (hl v List.mem_cons_self) hv]

theorem State.reg_selectFeeds (e : Nat) (b : Bool) (l : List Nat) {a : Nat} (ha : a ≠ engineBase e + 4) (s : State) :
    (l.foldl (fun t w => t.setFlag .ronpex (engineBase e + 4) w b) s).reg .ronpex a = s.reg .ronpex a := by
  induction l generalizing s with
  | nil => rfl
  | cons v l ih =>
    rw [List.foldl_cons, ih]
    exact State.reg_setFlag_other _ _ _ _ _ _ _ (.inr ha.symm)

theorem State.selectFeeds_lasers (e : Nat) (b : Bool) (l : List Nat) (s : State) :
    (l.foldl (fun t w => t.setFlag .ronpex (engineBase e + 4) w b) s).rp.lasers = s.rp.lasers := by
  induction l generalizing s with
  | nil => rfl
  | cons v l ih => exact ih _

theorem State.feedEvent_lasers (s : State) (e mask : Nat) : (s.feedEvent e mask).rp.lasers = s.rp.lasers := by
  unfold State.feedEvent
  split
  · rfl
  · obtain ⟨o, m, k, x, h⟩ := State.postFor_only s (plainEvent s.now 5 (e + 2 ^ 16 * mask)) 1 (s.engineSkeins e)
    rw [h]

/-- The feeds that a mask names are selected; the others are as they were. -/
theorem State.flag_moveFeeds (s : State) (e mask : Nat) (b : Bool) {w : Nat} (hw : w < 10) :
    (s.moveFeeds e mask b).flag .ronpex (engineBase e + 4) w = if bit w mask then b else s.flag .ronpex (engineBase e + 4) w := by
  have he := le_engineBase e
  unfold State.moveFeeds
  rw [State.flag_congr (State.rpRegs_feedEvent' _ _ _ _ (by omega)), State.flag_selectFeeds]
  · by_cases hm : bit w mask = true
    · cases hb : s.flag .ronpex (engineBase e + 4) w <;> cases b <;> simp [mem_setBitsOf, hw, hm, hb]
    · simp [mem_setBitsOf, hm]
  · intro v hv
    have := (mem_setBitsOf.1 (List.mem_filter.1 hv).1).1
    omega

theorem State.reg_moveFeeds (s : State) (e mask : Nat) (b : Bool) {a : Nat} (h : 0x1000000 ≤ a) (ha : a ≠ engineBase e + 4) :
    (s.moveFeeds e mask b).reg .ronpex a = s.reg .ronpex a := by
  unfold State.moveFeeds
  rw [State.rpRegs_feedEvent' _ _ _ _ h, State.reg_selectFeeds _ _ _ ha]

theorem State.moveFeeds_lasers (s : State) (e mask : Nat) (b : Bool) : (s.moveFeeds e mask b).rp.lasers = s.rp.lasers := by
  unfold State.moveFeeds
  rw [State.feedEvent_lasers, State.selectFeeds_lasers]

/-! ### What the readings of a feed are compared with -/

theorem Lasers.find?_refs_feedSeen_new {l : Lasers} {k : Nat} (h : SMap.find? l.refs k = none) (x : Int) (now : Nat) :
    SMap.find? (l.feedSeen k x now).refs k = some x := by
  unfold Lasers.feedSeen
  rw [h]
  exact SMap.find?_set_same _ _ _

theorem Lasers.find?_refs_feedSeen_other (l : Lasers) {k j : Nat} (x : Int) (now : Nat) (h : j ≠ k) :
    SMap.find? (l.feedSeen k x now).refs j = SMap.find? l.refs j := by
  unfold Lasers.feedSeen
  split
  · exact SMap.find?_set_other _ _ _ _ h
  · split
    · rfl
    · split
      · rfl
      · split
        · exact SMap.find?_set_other _ _ _ _ h
        · rfl

theorem Lasers.find?_steady_feedSeen_other (l : Lasers) {k j : Nat} (x : Int) (now : Nat) (h : j ≠ k) :
    SMap.find? (l.feedSeen k x now).steady j = SMap.find? l.steady j := by
  unfold Lasers.feedSeen
  split
  · exact SMap.find?_set_other _ _ _ _ h
  · split
    · rw [SMap.find?_drop, if_neg h]
    · split
      · exact SMap.find?_set_other _ _ _ _ h
      · split <;> rfl

/-- A steady feed stays steady while its readings are within 1 dB of their reference, and no longer. -/
theorem Lasers.find?_steady_feedSeen {l : Lasers} {k t0 : Nat} {r : Int} (hr : SMap.find? l.refs k = some r)
    (ht : SMap.find? l.steady k = some t0) (x : Int) (now : Nat) :
    SMap.find? (l.feedSeen k x now).steady k = if r - 10 ≤ x ∧ x ≤ r + 10 then some t0 else none := by
  unfold Lasers.feedSeen
  rw [hr]
  dsimp only
  by_cases h : x < r - 10 ∨ r + 10 < x
  · rw [if_pos h, if_neg (by omega)]
    simp [SMap.find?_drop]
  · rw [if_neg h, if_pos (by omega), ht]
    dsimp only
    split <;> exact ht

theorem feedKey_ne (e w : Nat) : feedKey e w true ≠ feedKey e w false := by
  simp [feedKey, ofBool]

/-! ### A reading of the feeds of a wavelength -/

theorem State.feedReading_lasers (s : State) (e w : Nat) (pri stby : Int) : (s.feedReading e w pri stby).rp.lasers
    = (s.rp.lasers.feedSeen (feedKey e w false) pri s.now).feedSeen (feedKey e w true) stby s.now := rfl

theorem State.reg_feedReading (s : State) {e w : Nat} (pri stby : Int) {a : Nat} (ha : a ≠ engineBase e + 0x10 + 4 * w) :
    (s.feedReading e w pri stby).reg .ronpex a = s.reg .ronpex a := by
  unfold State.feedReading
  dsimp only
  rw [State.reg_modLas, State.reg_setFld_other _ _ _ _ _ _ _ _ (.inr ha.symm), State.reg_setFld_other _ _ _ _ _ _ _ _ (.inr ha.symm)]

theorem ofSigned_lt (n : Nat) (z : Int) : ofSigned n z < 2 ^ n := by
  have hpos : (0 : Int) < ((2 ^ n : Nat) : Int) := by
    have := Nat.two_pow_pos n
    omega
  have h1 := Int.emod_nonneg z (ne_of_gt hpos)
  have h2 := Int.emod_lt_of_pos z hpos
  unfold ofSigned
  omega

theorem State.fld_feedReading (s : State) (e w : Nat) (pri stby : Int) :
    (s.feedReading e w pri stby).fld .ronpex (engineBase e + 0x10 + 4 * w) 0 16 = ofSigned 16 pri
      ∧ (s.feedReading e w pri stby).fld .ronpex (engineBase e + 0x10 + 4 * w) 16 16 = ofSigned 16 stby := by
  unfold State.feedReading
  dsimp only
  refine ⟨(State.fld_congr (State.reg_modLas _ _ _) _ _).trans ?_, (State.fld_congr (State.reg_modLas _ _ _) _ _).trans ?_⟩
  · rw [State.fld_setFld_outside _ _ (by omega) (by omega), State.fld_setFld_same _ _ _ _ _ _ (by omega)]
    exact Nat.mod_eq_of_lt (ofSigned_lt 16 pri)
  · rw [State.fld_setFld_same _ _ _ _ _ _ (by omega)]
    exact Nat.mod_eq_of_lt (ofSigned_lt 16 stby)

/-- A feed that is not below its reference is kept, and one that has none gets it. -/
theorem State.feedTrip_new {s : State} {e w : Nat}
    (h : SMap.find? s.rp.lasers.refs (feedKey e w (s.flag .ronpex (engineBase e + 4) w)) = none) (pri stby : Int) :
    s.feedTrip e w pri stby = s.feedReading e w pri stby := by
  unfold State.feedTrip
  dsimp only
  rw [h]

theorem State.find?_refs_feedReading {s : State} {e w : Nat} {b : Bool} (h : SMap.find? s.rp.lasers.refs (feedKey e w b) = none)
    (pri stby : Int) :
    SMap.find? (s.feedReading e w pri stby).rp.lasers.refs (feedKey e w b) = some (if b then stby else pri) := by
  rw [State.feedReading_lasers]
  cases b with
  | false =>
    rw [Lasers.find?_refs_feedSeen_other _ _ _ (feedKey_ne e w).symm, Lasers.find?_refs_feedSeen_new h]
    rfl
  | true =>
    refine Lasers.find?_refs_feedSeen_new ?_ _ _
    rw [Lasers.find?_refs_feedSeen_other _ _ _ (feedKey_ne e w), h]

theorem State.feedStable_feedReading {s : State} {e w t0 : Nat} {r : Int} (hr : SMap.find? s.rp.lasers.refs (feedKey e w false) = some r)
    (ht : SMap.find? s.rp.lasers.steady (feedKey e w false) = some t0) (hold : t0 + 1000000000 ≤ s.now) (pri stby : Int) :
    (s.feedReading e w pri stby).feedStable e w = decide (r - 10 ≤ pri ∧ pri ≤ r + 10) := by
  have hnow : (s.feedReading e w pri stby).now = s.now := rfl
  unfold State.feedStable
  rw [hnow, State.feedReading_lasers, Lasers.find?_steady_feedSeen_other _ _ _ (feedKey_ne e w).symm, Lasers.find?_steady_feedSeen hr ht]
  by_cases h : r - 10 ≤ pri ∧ pri ≤ r + 10
  · rw [if_pos h, decide_eq_true h]
    exact decide_eq_true hold
  · rw [if_neg h, decide_eq_false h]

/-! ### FORCE and REVERT (R298) -/

/-- The wavelengths of a REVERT whose primary feed is stable. -/
def State.revertible (s : State) (e v : Nat) : List Nat := (setBitsOf 10 (bits 0 10 v)).filter (s.feedStable e)

/-- The wavelengths that wait for a changeover join those wanted. -/
def State.wanting (s : State) (e : Nat) (l : List Nat) : State :=
  s.modLas fun x => { x with wanted := x.wanted ++ (l.map fun w => 16 * e + w).filter fun k => !x.wanted.contains k }

theorem State.mem_wanted_wanting (s : State) (e : Nat) {l : List Nat} {w : Nat} (h : w ∈ l) :
    16 * e + w ∈ (s.wanting e l).rp.lasers.wanted := by
  show 16 * e + w ∈ s.rp.lasers.wanted ++ (l.map fun w => 16 * e + w).filter fun k => !s.rp.lasers.wanted.contains k
  by_cases hin : 16 * e + w ∈ s.rp.lasers.wanted
  · exact List.mem_append_left _ hin
  · refine List.mem_append_right _ (List.mem_filter.2 ⟨List.mem_map.2 ⟨w, h, rfl⟩, ?_⟩)
    simpa using hin

theorem State.feedStable_congr {s t : State} (h : t.rp.lasers = s.rp.lasers) (hnow : t.now = s.now) (e w : Nat) :
    t.feedStable e w = s.feedStable e w := by
  unfold State.feedStable
  rw [h, hnow]

theorem State.feedWaits_congr {s t : State} (h : t.rp.lasers = s.rp.lasers) (e w : Nat) : t.feedWaits e w = s.feedWaits e w := by
  unfold State.feedWaits State.lasChanging State.lasLases
  rw [h]

theorem State.moveFeeds_none (s : State) (e : Nat) (b : Bool) : s.moveFeeds e 0 b = s := by
  have h0 : setBitsOf 10 0 = [] := by decide
  unfold State.moveFeeds
  rw [h0]
  rfl

theorem State.feedWrite_force {v : Nat} (h : bits 0 10 v = 0) (s : State) (e : Nat) : s.feedWrite e v = s.moveFeeds e (bits 10 10 v) true := by
  have h0 : setBitsOf 10 0 = [] := by decide
  have hw (u : State) : (u.modLas fun x => { x with wanted := x.wanted ++ [] }) = u := by
    unfold State.modLas
    simp only [List.append_nil]
  unfold State.feedWrite
  dsimp only
  rw [h, h0]
  exact (State.moveFeeds_none _ _ _).trans (hw _)

theorem State.feedWrite_revert {v : Nat} (h : bits 10 10 v = 0) (s : State) (e : Nat) : s.feedWrite e v
    = (s.wanting e ((s.revertible e v).filter (s.feedWaits e))).moveFeeds e
        (maskOf ((s.revertible e v).filter fun w => !s.feedWaits e w)) false := by
  unfold State.feedWrite
  rw [h, State.moveFeeds_none]
  rfl

theorem State.mem_revertible {s : State} {e v w : Nat} (hw : w < 10) :
    w ∈ s.revertible e v ↔ bit w v = true ∧ s.feedStable e w = true := by
  rw [State.revertible, List.mem_filter, mem_setBitsOf, bit_bits_zero hw]
  simp [hw]

/-- What a REVERT does to each wavelength. -/
theorem State.feedWrite_reverts {v : Nat} (h : bits 10 10 v = 0) (s : State) (e : Nat) {w : Nat} (hw : w < 10) :
    (s.feedWrite e v).flag .ronpex (engineBase e + 4) w
        = (s.flag .ronpex (engineBase e + 4) w && !(bit w v && s.feedStable e w && !s.feedWaits e w))
      ∧ (bit w v = true → s.feedStable e w = true → s.feedWaits e w = true → 16 * e + w ∈ (s.feedWrite e v).rp.lasers.wanted) := by
  rw [State.feedWrite_revert h]
  constructor
  · rw [State.flag_moveFeeds _ _ _ _ hw, bit_maskOf]
    have hflag : (s.wanting e ((s.revertible e v).filter (s.feedWaits e))).flag .ronpex (engineBase e + 4) w
        = s.flag .ronpex (engineBase e + 4) w := rfl
    have hmem : (((s.revertible e v).filter fun w => !s.feedWaits e w).contains w)
        = (bit w v && s.feedStable e w && !s.feedWaits e w) := by
      rw [Bool.eq_iff_iff, List.contains_iff_mem, List.mem_filter, State.mem_revertible hw]
      simp
    rw [hflag, hmem]
    cases s.flag .ronpex (engineBase e + 4) w <;> cases bit w v && s.feedStable e w && !s.feedWaits e w <;> rfl
  · intro hbit hstable hwaits
    rw [State.moveFeeds_lasers]
    exact s.mem_wanted_wanting e (List.mem_filter.2 ⟨(State.mem_revertible hw).2 ⟨hbit, hstable⟩, hwaits⟩)

/-! ### A failed emitter (R288, R301) -/

/-- What asking a module for a register leaves of the lasers. -/
theorem State.lasAsk_does (s : State) (m : Nat) (write : Bool) (addr data : Nat) (user : Bool) :
    ∃ o l, s.lasAsk m write addr data user = { s with out := o, rp := { s.rp with lasers := l } }
      ∧ l.reqs.length = s.rp.lasers.reqs.length + 1
      ∧ l = { s.rp.lasers with reqs := l.reqs, seq := l.seq } := by
  have hsend (u : State) : ∃ o l, u.lasSend m = { u with out := o, rp := { u.rp with lasers := l } }
      ∧ l.reqs.length = u.rp.lasers.reqs.length ∧ l = { u.rp.lasers with reqs := l.reqs } := by
    unfold State.lasSend
    split
    · exact ⟨u.out, u.rp.lasers, rfl, rfl, rfl⟩
    · exact ⟨_, _, rfl, length_setFirst_some _ _ _, rfl⟩
  unfold State.lasAsk
  dsimp only
  split
  · obtain ⟨o, l, hl, hlen, hrest⟩ := hsend (s.modLas fun l => { l with
      reqs := l.reqs ++ [(m, { write := write, addr := addr, data := BitVec.ofNat 32 data
                               seq := SMap.look (fun _ => 0) s.rp.lasers.seq m, sentAt := s.now, tries := 0, user := user })]
      seq := SMap.put (fun _ => 0) l.seq m ((SMap.look (fun _ => 0) s.rp.lasers.seq m + 1) % 256) })
    refine ⟨o, l, hl, hlen.trans ?_, hrest.trans ?_⟩
    · exact List.length_append
    · rw [hrest]
      rfl
  · exact ⟨s.out, _, rfl, List.length_append, rfl⟩

/-- The error bit of a failed emitter, its alert and the two accesses that ask the module for more. -/
theorem State.emitterFailed_does (s : State) (m w : Nat) (hm : m < 4) (hot : Bool) :
    let t := s.emitterFailed m w hot
    t.flag .ronpex (Reg.lasStat m) 2 = true ∧ t.flag .ronpex (Reg.lasErr m) (if hot then 3 else 1) = true ∧ m ∈ t.rp.lasers.alert
      ∧ t.rp.lasers.reqs.length = s.rp.lasers.reqs.length + 2
      ∧ (hot = false → SMap.find? t.rp.lasers.follow (lasKey m w) = some s.now) := by
  have hb : (if hot then 3 else 1) < 32 := by split <;> omega
  have hstatOut : Reg.lasStat m ∉ reportRegs := notMem_reportRegs_las (by simp only [Reg.lasStat]; omega) (by simp only [Reg.lasStat]; omega)
  have herrOut : Reg.lasErr m ∉ reportRegs := notMem_reportRegs_las (by simp only [Reg.lasErr]; omega) (by simp only [Reg.lasErr]; omega)
  have hne : Reg.lasErr m ≠ Reg.lasStat m := by simp only [Reg.lasErr, Reg.lasStat]; omega
  unfold State.emitterFailed
  dsimp only
  generalize (if hot then 3 else 1) = b at hb ⊢
  have hstat : ((s.setFlag .ronpex (Reg.lasStat m) 2 true).lasError m b).flag .ronpex (Reg.lasStat m) 2 = true := by
    rw [State.flag_congr (State.reg_lasError _ m b hstatOut), State.flag_congr (State.reg_setFlag_other _ _ _ _ _ _ _ (.inr hne)),
      State.flag_setFlag_same _ _ _ (by omega)]
  have herr : ((s.setFlag .ronpex (Reg.lasStat m) 2 true).lasError m b).flag .ronpex (Reg.lasErr m) b = true := by
    rw [State.flag_congr (State.reg_lasError _ m b herrOut), State.flag_setFlag_same _ _ _ hb]
  obtain ⟨o, n, k, x, hlas⟩ := State.lasError_only (s.setFlag .ronpex (Reg.lasStat m) 2 true) m b
  have hlasers : ((s.setFlag .ronpex (Reg.lasStat m) 2 true).lasError m b).rp.lasers = s.rp.lasers := by rw [hlas]; rfl
  have hnow : ((s.setFlag .ronpex (Reg.lasStat m) 2 true).lasError m b).now = s.now := by rw [hlas]; rfl
  generalize (s.setFlag .ronpex (Reg.lasStat m) 2 true).lasError m b = u at hstat herr hlasers hnow ⊢
  obtain ⟨o1, l1, h1, hlen1, hrest1⟩ := State.lasAsk_does (u.modLas fun l => { l with alert := m :: l.alert.filter fun x => x != m }) m
    false (0x10 + w) 0 false
  obtain ⟨o2, l2, h2, hlen2, hrest2⟩ := State.lasAsk_does ((u.modLas fun l => { l with alert := m :: l.alert.filter fun x => x != m }).lasAsk m
    false (0x10 + w) 0 false) m false 3 0 false
  have hlen : l2.reqs.length = s.rp.lasers.reqs.length + 2 := by
    rw [hlen2, h1]
    show l1.reqs.length + 1 = _
    rw [hlen1]
    show u.rp.lasers.reqs.length + 1 + 1 = _
    rw [hlasers]
  have halert : m ∈ l2.alert := by
    rw [hrest2, h1]
    show m ∈ l1.alert
    rw [hrest1]
    exact List.mem_cons_self
  rw [h2, h1]
  cases hot with
  | true => exact ⟨hstat, herr, halert, hlen, fun h => by cases h⟩
  | false => exact ⟨hstat, herr, halert, hlen, fun _ => (SMap.find?_set_same _ _ _).trans (congrArg some hnow)⟩

/-- The emitter's bit and the optics error of the Plocen. -/
theorem State.epEmitterFailed_does (s : State) (w : Nat) (b : Bool) :
    let t := s.epEmitterFailed w b
    t.flag .plocen (Reg.epOptEmit w) (if b then 13 else 12) = true ∧ t.flag .plocen Reg.epOptErr 2 = true
      ∧ t.flag .plocen Reg.epAttErr errOptics = true ∧ regsBut s t .plocen [Reg.epOptEmit w, Reg.epOptErr, Reg.epAttErr] := by
  have hb : (if b then 13 else 12) < 32 := by split <;> omega
  unfold State.epEmitterFailed State.epOptError
  dsimp only
  generalize (if b then 13 else 12) = i at hb ⊢
  have hr := State.raised_epErr ((s.setFlag .plocen (Reg.epOptEmit w) i true).setFlag .plocen Reg.epOptErr 2 true) (b := errOptics)
    (by simp [errOptics])
  have hemit : Reg.epOptEmit w ≠ Reg.epAttErr := by simp only [Reg.epOptEmit, Reg.epAttErr]; omega
  have hemit' : Reg.epOptErr ≠ Reg.epOptEmit w := by simp only [Reg.epOptEmit, Reg.epOptErr]; omega
  refine ⟨?_, ?_, hr.flag, ?_⟩
  · rw [State.flag_congr (hr.regs _ (by simpa using hemit)), State.flag_congr (State.reg_setFlag_other _ _ _ _ _ _ _ (.inr hemit')),
      State.flag_setFlag_same _ _ _ hb]
  · rw [State.flag_congr (hr.regs _ (by simp)), State.flag_setFlag_same _ _ _ (by omega)]
  · exact regsBut_trans (regsBut_trans (regsBut_setFlag _ _ _ (by simp)) (regsBut_setFlag _ _ _ (by simp)))
      (regsBut_mono hr.regs (by simp))

/-! ### The ageing of the emitters (R292) -/

/-- What holds before a fold over the first numbers, and passes from each to the next, holds after it. -/
theorem foldl_range_induct {α : Type} {f : α → Nat → α} {I : Nat → α → Prop} {N : Nat} {s : α} (h0 : I 0 s)
    (hs : ∀ n t, n < N → I n t → I (n + 1) (f t n)) : I N ((List.range N).foldl f s) := by
  induction N with
  | zero => exact h0
  | succ N ih =>
    rw [List.range_succ, List.foldl_append]
    exact hs N _ (Nat.lt_succ_self N) (ih fun n t hn => hs n t (Nat.lt_succ_of_lt hn))

/-- The bias after an evaluation that has one reading. -/
def agedBias (bias mx step : Nat) (r : Int) : Nat := if r < -70 ∧ bias < mx then min (bias + step) mx else bias

theorem raised_one (bias mx step : Nat) (r : Int) :
    raised bias mx step [r] = if r < -70 ∧ bias < mx then some (min (bias + step) mx) else none := by
  simp [raised, lowestReading]

theorem median2_one (r : Int) : median2 [r] = r + r := by
  simp [median2, sortInts]

theorem farOut_one (r : Int) : farOut (r + r) r = false := by
  simp only [farOut, decide_eq_false_iff_not]
  omega

/-- Writing the aged bias where there is one. -/
def State.ageField (s : State) (p : Part) (a step : Nat) (r : Int) : State :=
  match raised (s.fld p a 0 12) (s.fld p a 16 12) step [r] with
  | some b => s.setFld p a 0 12 b
  | none => s

theorem State.fld_ageField (s : State) (p : Part) (a step : Nat) (r : Int) :
    (s.ageField p a step r).fld p a 0 12 = agedBias (s.fld p a 0 12) (s.fld p a 16 12) step r := by
  unfold State.ageField
  rw [raised_one, agedBias]
  by_cases h : r < -70 ∧ s.fld p a 0 12 < s.fld p a 16 12
  · rw [if_pos h, if_pos h, State.fld_setFld_same _ _ _ _ _ _ (by omega)]
    exact Nat.mod_eq_of_lt (lt_of_le_of_lt (Nat.min_le_right _ _) (bits_lt _ _ _))
  · rw [if_neg h, if_neg h]

theorem State.reg_ageField (s : State) (p : Part) {a b step : Nat} (r : Int) (h : b ≠ a) :
    (s.ageField p a step r).reg p b = s.reg p b := by
  unfold State.ageField
  split
  · exact State.reg_setReg_other _ _ _ _ _ _ (.inr h.symm)
  · rfl

/-! #### The Plocen's emitters -/

/-- The registers that the evaluation of the Plocen's pairs of emitters writes besides their biases. -/
def ageRegs : List Nat := [Reg.epOptErr, Reg.epAttErr]

/-- An evaluation of the pair of a wavelength with one reading. -/
theorem State.agePair_one {s : State} {w p : Nat} (h : ((List.range 8).filter fun p => s.portUp .plocen p) = [p]) :
    s.agePair w = if s.flag .plocen (Reg.epOptEmit w) 12 && s.flag .plocen (Reg.epOptEmit w) 13 then s else
      let t := s.ageField .plocen (Reg.epOptEmit w) (evalStep (s.reg .plocen Reg.epOptEval))
        (signed 16 (s.fld .plocen (psBase .plocen p + 0x20 + 4 * w) 16 16))
      if 19 * s.fld .plocen (Reg.epOptEmit w) 16 12 ≤ 20 * t.fld .plocen (Reg.epOptEmit w) 0 12 then t.epOptError 1 else t := by
  unfold State.agePair
  rw [h]
  simp only [State.farReadings, List.map_cons, List.map_nil, median2_one, List.filter_cons, List.filter_nil, farOut_one]
  rfl

/-- What an error of the optics leaves of the Plocen. -/
theorem State.epOptError_does (s : State) {b : Nat} :
    regsBut s (s.epOptError b) .plocen ageRegs ∧ (s.epOptError b).ep.evalAt = s.ep.evalAt := by
  have hr := State.raised_epErr (s.setFlag .plocen Reg.epOptErr b true) (b := errOptics) (by simp [errOptics])
  refine ⟨regsBut_trans (regsBut_setFlag s b true (by simp [ageRegs])) (regsBut_mono hr.regs (by simp [ageRegs])), ?_⟩
  unfold State.epOptError
  rw [hr.only]
  rfl

/-- What an evaluation of one pair does. -/
theorem State.agePair_does {s : State} {w p : Nat} (h : ((List.range 8).filter fun p => s.portUp .plocen p) = [p]) :
    (s.agePair w).ep.evalAt = s.ep.evalAt ∧ regsBut s (s.agePair w) .plocen (Reg.epOptEmit w :: ageRegs)
      ∧ (s.agePair w).fld .plocen (Reg.epOptEmit w) 0 12
        = if s.flag .plocen (Reg.epOptEmit w) 12 && s.flag .plocen (Reg.epOptEmit w) 13 then s.fld .plocen (Reg.epOptEmit w) 0 12
          else agedBias (s.fld .plocen (Reg.epOptEmit w) 0 12) (s.fld .plocen (Reg.epOptEmit w) 16 12)
            (evalStep (s.reg .plocen Reg.epOptEval)) (signed 16 (s.fld .plocen (psBase .plocen p + 0x20 + 4 * w) 16 16)) := by
  have hout : Reg.epOptEmit w ∉ ageRegs := by
    simp only [ageRegs, Reg.epOptEmit, Reg.epOptErr, Reg.epAttErr, List.mem_cons, List.not_mem_nil, or_false, not_or]
    omega
  rw [State.agePair_one h]
  split
  · exact ⟨rfl, regsBut_refl _ _ _, rfl⟩
  · dsimp only
    rw [← State.fld_ageField]
    have hregs : regsBut s (s.ageField .plocen (Reg.epOptEmit w) (evalStep (s.reg .plocen Reg.epOptEval))
        (signed 16 (s.fld .plocen (psBase .plocen p + 0x20 + 4 * w) 16 16))) .plocen (Reg.epOptEmit w :: ageRegs) :=
      fun a ha => State.reg_ageField _ _ _ (List.ne_of_not_mem_cons ha)
    have heval : (s.ageField .plocen (Reg.epOptEmit w) (evalStep (s.reg .plocen Reg.epOptEval))
        (signed 16 (s.fld .plocen (psBase .plocen p + 0x20 + 4 * w) 16 16))).ep.evalAt = s.ep.evalAt := by
      unfold State.ageField
      split <;> rfl
    generalize s.ageField .plocen (Reg.epOptEmit w) (evalStep (s.reg .plocen Reg.epOptEval))
        (signed 16 (s.fld .plocen (psBase .plocen p + 0x20 + 4 * w) 16 16)) = t at hregs heval ⊢
    split
    · obtain ⟨herr, hat⟩ := t.epOptError_does (b := 1)
      exact ⟨hat.trans heval, regsBut_trans hregs (regsBut_mono herr (List.subset_cons_self _ _)), State.fld_congr (herr _ hout) _ _⟩
    · exact ⟨heval, hregs, rfl⟩

/-- The bias of each pair below `n` has been evaluated, and the other registers are as before but those that an evaluation writes. -/
structure State.PairsAged (s : State) (n : Nat) (t : State) : Prop where
  evalAt : t.ep.evalAt = s.ep.evalAt
  regs : ∀ a, a ∉ ageRegs → (∀ w, w < n → a ≠ Reg.epOptEmit w) → t.reg .plocen a = s.reg .plocen a
  aged : ∀ w, w < n → t.fld .plocen (Reg.epOptEmit w) 0 12
    = if s.flag .plocen (Reg.epOptEmit w) 12 && s.flag .plocen (Reg.epOptEmit w) 13 then s.fld .plocen (Reg.epOptEmit w) 0 12
      else agedBias (s.fld .plocen (Reg.epOptEmit w) 0 12) (s.fld .plocen (Reg.epOptEmit w) 16 12)
        (evalStep (s.reg .plocen Reg.epOptEval)) (signed 16 (s.fld .plocen (psBase .plocen 0 + 0x20 + 4 * w) 16 16))

theorem State.PairsAged.step {s t : State} {n : Nat} (hup : ∀ p, p < 8 → s.portUp .plocen p = decide (p = 0)) (hn : n < 10)
    (h : s.PairsAged n t) : s.PairsAged (n + 1) (t.agePair n) := by
  have hfar : ∀ a, 0x60000 ≤ a → (a < 0x60014 ∨ 0x60020 + 4 * n ≤ a) → t.reg .plocen a = s.reg .plocen a := fun a hlo ha => by
    refine h.regs a ?_ fun w hw => ?_
    · simp only [ageRegs, Reg.epOptErr, Reg.epAttErr, List.mem_cons, List.not_mem_nil, or_false, not_or]
      omega
    · simp only [Reg.epOptEmit]
      omega
  have hport (p : Nat) : t.portUp .plocen p = s.portUp .plocen p := by
    unfold State.portUp State.portState
    rw [State.fld_congr (hfar _ (by simp only [psBase, epPortSetBase]; omega) (.inr (by simp only [psBase, epPortSetBase]; omega)))]
  have hlist : ((List.range 8).filter fun p => t.portUp .plocen p) = [0] := by
    have : ((List.range 8).filter fun p => t.portUp .plocen p) = (List.range 8).filter fun p => decide (p = 0) :=
      List.filter_congr fun p hp => (hport p).trans (hup p (List.mem_range.1 hp))
    rw [this]
    rfl
  obtain ⟨heval, hregs, hfld⟩ := State.agePair_does (w := n) hlist
  refine ⟨heval.trans h.evalAt, fun a ha hne => ?_, fun w hw => ?_⟩
  · refine (hregs a ?_).trans (h.regs a ha fun w hw => hne w (Nat.lt_succ_of_lt hw))
    exact fun hmem => (List.mem_cons.1 hmem).elim (hne n (Nat.lt_succ_self n)) ha
  · by_cases hwn : w = n
    · subst hwn
      have hemit := hfar (Reg.epOptEmit w) (by simp only [Reg.epOptEmit]; omega) (.inr (by simp only [Reg.epOptEmit]; omega))
      have hstep := hfar Reg.epOptEval (by simp only [Reg.epOptEval]; omega) (.inl (by simp only [Reg.epOptEval]; omega))
      have hread := hfar (psBase .plocen 0 + 0x20 + 4 * w) (by simp only [psBase, epPortSetBase]; omega)
        (.inr (by simp only [psBase, epPortSetBase]; omega))
      rw [hfld, State.flag_congr hemit, State.flag_congr hemit, State.fld_congr hemit, State.fld_congr hemit, hstep,
        State.fld_congr hread]
    · refine (State.fld_congr (hregs _ ?_) _ _).trans (h.aged w (by omega))
      simp only [ageRegs, Reg.epOptEmit, Reg.epOptErr, Reg.epAttErr, List.mem_cons, List.not_mem_nil, or_false, not_or]
      omega

/-- The evaluation of the Plocen's emitters, with port 0 up alone. -/
theorem State.pairsAged {s : State} (hup : ∀ p, p < 8 → s.portUp .plocen p = decide (p = 0)) :
    s.PairsAged 10 ((List.range 10).foldl (fun t w => t.agePair w) s) :=
  foldl_range_induct (I := s.PairsAged) ⟨rfl, fun _ _ _ => rfl, fun _ h => absurd h (Nat.not_lt_zero _)⟩ fun _ _ hn h => h.step hup hn

/-! #### The emitters of a module -/

/-- The write of a new bias, where there is one. -/
def State.biasWritten (s : State) (m w : Nat) (o : Option Nat) : State :=
  match o with
  | some b => s.writeBias m w b (s.flag .ronpex (Reg.lasStat m) (w + 3))
  | none => s

/-- What follows the write: the error of an emitter near its limit, and the end of one at its limit. -/
def State.biasShown (s : State) (m w mx : Nat) : State :=
  let u := if 19 * mx ≤ 20 * s.fld .ronpex (Reg.lasBias m w) 0 12 then s.lasError m 2 else s
  if s.fld .ronpex (Reg.lasBias m w) 0 12 = mx then u.lasAsk m true (0x10 + w) 0x60 false else u

/-- An evaluation of an emitter that feeds one port. -/
theorem State.ageEmitter_one {s : State} {m w q : Nat} (hknown : s.lasKnown m w = true) (hlases : s.lasLases m w = true)
    (h : s.fedPorts m w = [q]) :
    s.ageEmitter m w = (s.biasWritten m w (raised (s.fld .ronpex (Reg.lasBias m w) 0 12) (s.fld .ronpex (Reg.lasBias m w) 16 12)
      (evalStep (s.reg .ronpex Reg.lasEval)) [signed 16 (s.fld .ronpex (psBase .ronpex q + 0x20 + 4 * w) 16 16)])).biasShown m w
        (s.fld .ronpex (Reg.lasBias m w) 16 12) := by
  unfold State.ageEmitter
  rw [h]
  simp only [State.farReadings, List.map_cons, List.map_nil, median2_one, List.filter_cons, List.filter_nil, farOut_one]
  simp only [hknown, hlases, State.biasWritten, State.biasShown, Bool.not_true, Bool.false_eq_true, if_false]
  rfl

/-- The registers of the module and of the ports, and what the hub knows of the module, as an evaluation of wavelength `w` leaves them. -/
structure State.EmitterAged (m w : Nat) (s t : State) : Prop where
  regs : regsBut s t .ronpex (Reg.lasErr m :: Reg.lasBias m w :: reportRegs)
  lasers : t.rp.lasers = { s.rp.lasers with reqs := t.rp.lasers.reqs, seq := t.rp.lasers.seq }

theorem State.EmitterAged.refl (m w : Nat) (s : State) : s.EmitterAged m w s := ⟨regsBut_refl _ _ _, rfl⟩

theorem State.EmitterAged.trans {m w : Nat} {s t u : State} (h : s.EmitterAged m w t) (k : t.EmitterAged m w u) :
    s.EmitterAged m w u := ⟨regsBut_trans h.regs k.regs, by rw [k.lasers, h.lasers]⟩

theorem State.emitterAged_lasAsk (s : State) (m w : Nat) (write : Bool) (addr data : Nat) (user : Bool) :
    s.EmitterAged m w (s.lasAsk m write addr data user) := by
  obtain ⟨o, l, h, -, hl⟩ := s.lasAsk_does m write addr data user
  rw [h]
  exact ⟨regsBut_refl _ _ _, hl⟩

theorem State.emitterAged_lasError (s : State) (m w b : Nat) : s.EmitterAged m w (s.lasError m b) := by
  obtain ⟨o, n, k, x, h⟩ := s.lasError_only m b
  refine ⟨fun a ha => (s.reg_lasError m b fun h => ha (by simp [h])).trans ?_, by rw [h]⟩
  exact State.reg_setFlag_other _ _ _ _ _ _ _ (.inr fun h => ha (by simp [h]))

theorem State.lasers_pstCell (s : State) (a v : Nat) : (s.pstCell a v).rp.lasers = s.rp.lasers := by
  obtain ⟨o, m, q, l, x, h⟩ := s.pstCell_only a v
  rw [h]

theorem State.lasers_recordBias (s : State) (m w bias : Nat) (emitterB : Bool) :
    (s.recordBias m w bias emitterB).rp.lasers = s.rp.lasers := by
  unfold State.recordBias
  dsimp only
  split
  · rfl
  · rw [State.lasers_pstCell, State.lasers_pstCell]

theorem State.emitterAged_writeBias (s : State) (m w bias : Nat) (emitterB : Bool) :
    s.EmitterAged m w (s.writeBias m w bias emitterB) := by
  have hrecord (u : State) : u.EmitterAged m w (u.recordBias m w bias emitterB) :=
    ⟨fun a ha => State.reg_of_rpRegs (State.rpRegs_recordBias u m w bias emitterB) fun h => ha (by simp [h]),
      by rw [State.lasers_recordBias]⟩
  unfold State.writeBias
  dsimp only
  exact (State.EmitterAged.trans ⟨regsBut_setFld (a := Reg.lasBias m w) s 0 12 bias (by simp), rfl⟩
    (State.emitterAged_lasAsk _ m w true (0x20 + w) _ false)).trans (hrecord _)

/-- The bias that a write of one shows. -/
theorem State.fld_writeBias (s : State) {m w bias : Nat} (emitterB : Bool) (hm : m < 4) (hw : w < 10) (hb : bias < 2 ^ 12) :
    (s.writeBias m w bias emitterB).fld .ronpex (Reg.lasBias m w) 0 12 = bias := by
  have hout : Reg.lasBias m w ∉ reportRegs := notMem_reportRegs_las (by simp only [Reg.lasBias]; omega) (by simp only [Reg.lasBias]; omega)
  unfold State.writeBias
  dsimp only
  rw [State.fld_congr (State.reg_of_rpRegs (State.rpRegs_recordBias _ _ _ _ _) hout),
    State.fld_congr (State.reg_of_rpRegs (State.rpRegs_lasAsk _ _ _ _ _ _) hout), State.fld_setFld_same _ _ _ _ _ _ (by omega)]
  exact Nat.mod_eq_of_lt hb

theorem State.biasWritten_does (s : State) {m w step : Nat} (r : Int) (hm : m < 4) (hw : w < 10) :
    let t := s.biasWritten m w (raised (s.fld .ronpex (Reg.lasBias m w) 0 12) (s.fld .ronpex (Reg.lasBias m w) 16 12) step [r])
    s.EmitterAged m w t ∧ t.fld .ronpex (Reg.lasBias m w) 0 12
      = agedBias (s.fld .ronpex (Reg.lasBias m w) 0 12) (s.fld .ronpex (Reg.lasBias m w) 16 12) step r := by
  dsimp only
  rw [raised_one, agedBias]
  by_cases hc : r < -70 ∧ s.fld .ronpex (Reg.lasBias m w) 0 12 < s.fld .ronpex (Reg.lasBias m w) 16 12
  · rw [if_pos hc, if_pos hc]
    have hb : min (s.fld .ronpex (Reg.lasBias m w) 0 12 + step) (s.fld .ronpex (Reg.lasBias m w) 16 12) < 2 ^ 12 :=
      lt_of_le_of_lt (Nat.min_le_right _ _) (bits_lt _ _ _)
    generalize min (s.fld .ronpex (Reg.lasBias m w) 0 12 + step) (s.fld .ronpex (Reg.lasBias m w) 16 12) = b at hb ⊢
    rw [State.biasWritten]
    exact ⟨s.emitterAged_writeBias m w b _, s.fld_writeBias _ hm hw hb⟩
  · rw [if_neg hc, if_neg hc]
    exact ⟨.refl m w s, rfl⟩

theorem State.biasShown_does (s : State) {m w mx : Nat} (hm : m < 4) (hw : w < 10) :
    s.EmitterAged m w (s.biasShown m w mx)
      ∧ (s.biasShown m w mx).fld .ronpex (Reg.lasBias m w) 0 12 = s.fld .ronpex (Reg.lasBias m w) 0 12 := by
  have hout : Reg.lasBias m w ∉ reportRegs := notMem_reportRegs_las (by simp only [Reg.lasBias]; omega) (by simp only [Reg.lasBias]; omega)
  have herr : s.EmitterAged m w (s.lasError m 2)
      ∧ (s.lasError m 2).fld .ronpex (Reg.lasBias m w) 0 12 = s.fld .ronpex (Reg.lasBias m w) 0 12 := by
    refine ⟨s.emitterAged_lasError m w 2, State.fld_congr ((s.reg_lasError m 2 hout).trans ?_) _ _⟩
    exact State.reg_setFlag_other _ _ _ _ _ _ _ (.inr (by simp only [Reg.lasErr, Reg.lasBias]; omega))
  have hask (u : State) : u.EmitterAged m w (u.lasAsk m true (0x10 + w) 0x60 false)
      ∧ (u.lasAsk m true (0x10 + w) 0x60 false).fld .ronpex (Reg.lasBias m w) 0 12 = u.fld .ronpex (Reg.lasBias m w) 0 12 :=
    ⟨u.emitterAged_lasAsk m w true _ _ false, State.fld_congr (State.reg_of_rpRegs (State.rpRegs_lasAsk _ _ _ _ _ _) hout) _ _⟩
  unfold State.biasShown
  dsimp only
  split <;> split
  · exact ⟨herr.1.trans (hask _).1, (hask _).2.trans herr.2⟩
  · exact hask s
  · exact herr
  · exact ⟨.refl m w s, rfl⟩

/-- What an evaluation of one emitter does. -/
theorem State.ageEmitter_does {s : State} {m w q : Nat} (hm : m < 4) (hw : w < 10) (hknown : s.lasKnown m w = true)
    (hlases : s.lasLases m w = true) (h : s.fedPorts m w = [q]) :
    s.EmitterAged m w (s.ageEmitter m w) ∧ (s.ageEmitter m w).fld .ronpex (Reg.lasBias m w) 0 12
      = agedBias (s.fld .ronpex (Reg.lasBias m w) 0 12) (s.fld .ronpex (Reg.lasBias m w) 16 12) (evalStep (s.reg .ronpex Reg.lasEval))
          (signed 16 (s.fld .ronpex (psBase .ronpex q + 0x20 + 4 * w) 16 16)) := by
  obtain ⟨haged, hfld⟩ := s.biasWritten_does (step := evalStep (s.reg .ronpex Reg.lasEval))
    (signed 16 (s.fld .ronpex (psBase .ronpex q + 0x20 + 4 * w) 16 16)) hm hw
  rw [State.ageEmitter_one hknown hlases h]
  obtain ⟨haged', hfld'⟩ := State.biasShown_does (s.biasWritten m w (raised (s.fld .ronpex (Reg.lasBias m w) 0 12)
    (s.fld .ronpex (Reg.lasBias m w) 16 12) (evalStep (s.reg .ronpex Reg.lasEval))
    [signed 16 (s.fld .ronpex (psBase .ronpex q + 0x20 + 4 * w) 16 16)])) (mx := s.fld .ronpex (Reg.lasBias m w) 16 12) hm hw
  exact ⟨haged.trans haged', hfld'.trans hfld⟩

/-- The bias of each emitter below `n` of the module has been evaluated. -/
structure State.EmittersAged (m : Nat) (q : Fin 10 → Nat) (s : State) (n : Nat) (t : State) : Prop where
  lasers : t.rp.lasers = { s.rp.lasers with reqs := t.rp.lasers.reqs, seq := t.rp.lasers.seq }
  regs : ∀ a, a ∉ reportRegs → 0x600400 ≤ a → t.reg .ronpex a = s.reg .ronpex a
  later : ∀ w, n ≤ w → w < 10 → t.reg .ronpex (Reg.lasBias m w) = s.reg .ronpex (Reg.lasBias m w)
  aged : ∀ w : Fin 10, w < n → t.fld .ronpex (Reg.lasBias m w) 0 12
    = agedBias (s.fld .ronpex (Reg.lasBias m w) 0 12) (s.fld .ronpex (Reg.lasBias m w) 16 12) (evalStep (s.reg .ronpex Reg.lasEval))
        (signed 16 (s.fld .ronpex (psBase .ronpex (q w) + 0x20 + 4 * w) 16 16))

/-- What the hub knows of a module, and the ports that an emitter feeds, are of the registers of ports and engines and the answers. -/
theorem State.knows_congr {s t : State} (hl : t.rp.lasers = { s.rp.lasers with reqs := t.rp.lasers.reqs, seq := t.rp.lasers.seq })
    (hr : ∀ a, 0x1000000 ≤ a → t.reg .ronpex a = s.reg .ronpex a) (m w : Nat) :
    t.lasKnown m w = s.lasKnown m w ∧ t.lasLases m w = s.lasLases m w ∧ t.fedPorts m w = s.fedPorts m w := by
  have hport (p : Nat) : t.portUp .ronpex p = s.portUp .ronpex p := by
    have := le_portSetBase p
    unfold State.portUp State.portState
    rw [State.fld_congr (hr _ (by simp only [psBase]; omega))]
  have hfeed (e : Nat) : t.feedModule e w = s.feedModule e w := by
    have := le_engineBase e
    unfold State.feedModule
    rw [State.flag_congr (hr _ (by omega))]
  refine ⟨?_, ?_, ?_⟩
  · unfold State.lasKnown
    rw [hl]
  · unfold State.lasLases
    rw [hl]
  · unfold State.fedPorts State.upPorts
    simp only [hport, hfeed]

theorem State.EmittersAged.step {m : Nat} (hm : m < 4) {q : Fin 10 → Nat} {s t : State} {n : Nat}
    (hknow : ∀ w : Fin 10, s.lasKnown m w = true ∧ s.lasLases m w = true ∧ s.fedPorts m w = [q w]) (hn : n < 10)
    (h : s.EmittersAged m q n t) : s.EmittersAged m q (n + 1) (t.ageEmitter m n) := by
  obtain ⟨hknown, hlases, hfed⟩ := hknow ⟨n, hn⟩
  have hhigh : ∀ a, 0x1000000 ≤ a → t.reg .ronpex a = s.reg .ronpex a := fun a ha => h.regs a (notMem_reportRegs ha) (by omega)
  obtain ⟨hknown', hlases', hfed'⟩ := State.knows_congr h.lasers hhigh m n
  obtain ⟨haged, hfld⟩ := State.ageEmitter_does hm hn (hknown'.trans hknown) (hlases'.trans hlases) (hfed'.trans hfed)
  have hne : ∀ w, w < 10 → w ≠ n → (t.ageEmitter m n).reg .ronpex (Reg.lasBias m w) = t.reg .ronpex (Reg.lasBias m w) := by
    intro w hw hwn
    refine haged.regs _ ?_
    have hout : Reg.lasBias m w ∉ reportRegs := notMem_reportRegs_las (by simp only [Reg.lasBias]; omega) (by simp only [Reg.lasBias]; omega)
    simp only [List.mem_cons, not_or]
    refine ⟨?_, ?_, hout⟩
    · simp only [Reg.lasErr, Reg.lasBias]
      omega
    · simp only [Reg.lasBias]
      omega
  refine ⟨by rw [haged.lasers, h.lasers], fun a ha hhi => ?_, fun w hw hw10 => ?_, fun w hw => ?_⟩
  · refine (haged.regs a ?_).trans (h.regs a ha hhi)
    simp only [List.mem_cons, not_or]
    refine ⟨?_, ?_, ha⟩
    · simp only [Reg.lasErr]
      omega
    · simp only [Reg.lasBias]
      omega
  · exact (hne w hw10 (by omega)).trans (h.later w (by omega) hw10)
  · by_cases hwn : w.val = n
    · subst hwn
      have hread := hhigh (psBase .ronpex (q w) + 0x20 + 4 * w) (by have := le_portSetBase (q w); simp only [psBase]; omega)
      have hmine := h.later w (le_refl _) w.isLt
      rw [hfld, State.fld_congr hmine, State.fld_congr hmine, h.regs Reg.lasEval (by decide) (by decide), State.fld_congr hread]
    · exact (State.fld_congr (hne w w.isLt hwn) _ _).trans (h.aged w (by omega))

/-- The evaluation of a module whose ten emitters each feed one port. -/
theorem State.emittersAged {m : Nat} (hm : m < 4) {q : Fin 10 → Nat} {s : State}
    (hknow : ∀ w : Fin 10, s.lasKnown m w = true ∧ s.lasLases m w = true ∧ s.fedPorts m w = [q w]) :
    s.EmittersAged m q 10 ((List.range 10).foldl (fun t w => t.ageEmitter m w) s) :=
  foldl_range_induct (I := s.EmittersAged m q)
    ⟨rfl, fun _ _ _ => rfl, fun _ _ _ => rfl, fun _ h => absurd h (Nat.not_lt_zero _)⟩ fun _ _ hn h => h.step hm hknow hn


/-! ### The obligation -/

/-- A new selection of a wavelength by one of its readings. -/
theorem State.feedTrip_does {s : State} {e w : Nat} (hw : w < 10) {r : Int} (pri stby : Int)
    (hr : SMap.find? s.rp.lasers.refs (feedKey e w (s.flag .ronpex (engineBase e + 4) w)) = some r) :
    let sel := s.flag .ronpex (engineBase e + 4) w
    let t := s.feedTrip e w pri stby
    t.flag .ronpex (engineBase e + 4) w
        = (if (if sel then stby else pri) ≤ r - 10 * (max (s.fld .ronpex (engineBase e) 4 4) 1 : Nat) then !sel else sel)
      ∧ (∀ v : Fin 10, v.val ≠ w → t.flag .ronpex (engineBase e + 4) v = s.flag .ronpex (engineBase e + 4) v)
      ∧ t.fld .ronpex (engineBase e + 0x10 + 4 * w) 0 16 = ofSigned 16 pri
      ∧ t.fld .ronpex (engineBase e + 0x10 + 4 * w) 16 16 = ofSigned 16 stby := by
  have he := le_engineBase e
  obtain ⟨hp, hs⟩ := s.fld_feedReading e w pri stby
  have hread (v : Nat) : (s.feedReading e w pri stby).flag .ronpex (engineBase e + 4) v = s.flag .ronpex (engineBase e + 4) v :=
    State.flag_congr (s.reg_feedReading pri stby (by omega)) v
  have heq : s.feedTrip e w pri stby
      = if (if s.flag .ronpex (engineBase e + 4) w then stby else pri) ≤ r - (s.feedTripDb e : Int) then
          (s.feedReading e w pri stby).moveFeeds e (2 ^ w) (!s.flag .ronpex (engineBase e + 4) w)
        else s.feedReading e w pri stby := by
    unfold State.feedTrip
    dsimp only
    rw [hr]
  have hdb : (s.feedTripDb e : Int) = 10 * (max (s.fld .ronpex (engineBase e) 4 4) 1 : Nat) := by
    simp [State.feedTripDb]
  dsimp only
  rw [heq, hdb]
  by_cases hc : (if s.flag .ronpex (engineBase e + 4) w then stby else pri) ≤ r - 10 * (max (s.fld .ronpex (engineBase e) 4 4) 1 : Nat)
  · rw [if_pos hc, if_pos hc, State.flag_moveFeeds _ _ _ _ hw, State.fld_congr (State.reg_moveFeeds _ _ _ _ (by omega) (by omega)),
      State.fld_congr (State.reg_moveFeeds _ _ _ _ (by omega) (by omega))]
    refine ⟨by rw [bit_two_pow]; simp, fun v hv => ?_, hp, hs⟩
    rw [State.flag_moveFeeds _ _ _ _ v.isLt, bit_two_pow, if_neg (by simpa using hv.symm), hread]
  · rw [if_neg hc, if_neg hc]
    exact ⟨hread w, fun v _ => hread v, hp, hs⟩

/-- A wavelength returns to its primary feed where that has been stable for 1 s. -/
theorem State.feedBack_does {s : State} {e w t0 : Nat} {r : Int} (hw : w < 10)
    (hr : SMap.find? s.rp.lasers.refs (feedKey e w false) = some r) (ht : SMap.find? s.rp.lasers.steady (feedKey e w false) = some t0)
    (hauto : s.flag .ronpex (engineBase e) 3 = true) (hold : t0 + 1000000000 ≤ s.now) (hframe : s.now % frameNs = 0)
    (hwaits : s.feedWaits e w = false) (pri stby : Int) :
    (s.feedBack e w pri stby).flag .ronpex (engineBase e + 4) w
        = (if r - 10 ≤ pri ∧ pri ≤ r + 10 then false else s.flag .ronpex (engineBase e + 4) w)
      ∧ ∀ v : Fin 10, v.val ≠ w → (s.feedBack e w pri stby).flag .ronpex (engineBase e + 4) v = s.flag .ronpex (engineBase e + 4) v := by
  have he := le_engineBase e
  have hread (v : Nat) : (s.feedReading e w pri stby).flag .ronpex (engineBase e + 4) v = s.flag .ronpex (engineBase e + 4) v :=
    State.flag_congr (s.reg_feedReading pri stby (by omega)) v
  have heq : s.feedBack e w pri stby = if r - 10 ≤ pri ∧ pri ≤ r + 10 then (s.feedReading e w pri stby).moveFeeds e (2 ^ w) false
      else s.feedReading e w pri stby := by
    unfold State.feedBack
    dsimp only
    rw [State.feedStable_feedReading hr ht hold, hauto, hframe, hwaits]
    exact if_congr (by simp) rfl rfl
  rw [heq]
  by_cases hc : r - 10 ≤ pri ∧ pri ≤ r + 10
  · rw [if_pos hc, if_pos hc, State.flag_moveFeeds _ _ _ _ hw]
    refine ⟨by rw [bit_two_pow]; simp, fun v hv => ?_⟩
    rw [State.flag_moveFeeds _ _ _ _ v.isLt, bit_two_pow, if_neg (by simpa using hv.symm), hread]
  · rw [if_neg hc, if_neg hc]
    exact ⟨hread w, fun v _ => hread v⟩

/-- What the log of a write leaves of the registers and readings of the feeds. -/
theorem State.Logged.feeds {s u : State} (h : s.Logged u) (e w : Nat) :
    u.flag .ronpex (engineBase e + 4) w = s.flag .ronpex (engineBase e + 4) w ∧ u.feedStable e w = s.feedStable e w
      ∧ u.feedWaits e w = s.feedWaits e w := by
  have he := le_engineBase e
  have hlas : u.rp.lasers = s.rp.lasers := by rw [h.frame]
  have hnow : u.now = s.now := by rw [h.frame]
  exact ⟨State.flag_congr (h.reg fun hc => by simp only [Reg.logLost] at hc; omega) w, State.feedStable_congr hlas hnow e w,
    State.feedWaits_congr hlas e w⟩

/-- The end of `biasEval` where an evaluation of a module is due. -/
theorem agedBias_eq (bias mx v : Nat) (r : Int) :
    agedBias bias mx (evalStep v) r = if r < -70 ∧ bias < mx then min (bias + max (bits 16 8 v) 1) mx else bias := rfl

/-- Settles O36: the selected feeds of an engine are one register, and the evaluation of an emitter writes its bias and error alone. -/
theorem feeds : Obligations.Feeds := by
  intro s
  refine ⟨fun e w pri stby sel hsel => ?_, fun e v wr ht => ⟨fun hv => ?_, fun hv => ?_⟩, fun m w hot => ?_, fun w b => ?_,
    fun hoff => ?_, fun hon hdue hup => ?_, fun m => ⟨fun hoff => ?_, fun q hon hdue hknow => ?_⟩⟩
  · subst hsel
    refine ⟨fun r hr => ?_, fun hnone => ?_, fun r t0 hr ht hauto hold hframe hwaits => ?_⟩
    · obtain ⟨h1, h2, h3, h4⟩ := State.feedTrip_does w.isLt pri stby hr
      exact ⟨s.feedTrip e w pri stby, rfl, h1, fun v hv => h2 v fun h => hv (Fin.ext h), h3, h4, by simp, onlyRonpex_of (by simp) (by simp)⟩
    · have he := le_engineBase e
      have honly : onlyRonpex s (s.feedTrip e w pri stby) := onlyRonpex_of (by simp) (by simp)
      refine ⟨s.feedTrip e w pri stby, rfl, ?_⟩
      rw [State.feedTrip_new hnone] at honly ⊢
      exact ⟨State.flag_congr (s.reg_feedReading pri stby (by omega)) w, State.find?_refs_feedReading hnone pri stby, honly⟩
    · obtain ⟨h1, h2⟩ := State.feedBack_does w.isLt hr ht hauto hold hframe hwaits pri stby
      exact ⟨s.feedBack e w pri stby, rfl, h1, fun v hv => h2 v fun h => hv (Fin.ext h), by simp, onlyRonpex_of (by simp) (by simp)⟩
  · have hlog := s.logged_logWrite (engineBase e + 8) v.toNat wr
    refine ⟨s.wrote .ronpex (engineBase e + 8) v.toNat wr fun t => t.feedWrite e v.toNat, rfl, ?_⟩
    rw [State.wrote_ronpex ht]
    refine ⟨by simp, onlyRonpex_of (by simp) (by simp), fun w => ?_⟩
    rw [State.feedWrite_force hv, State.flag_moveFeeds _ _ _ _ w.isLt, (hlog.feeds e w).1, bit_eq_bit_bits w.isLt]
    cases s.flag .ronpex (engineBase e + 4) w <;> cases bit (10 + w) v.toNat <;> rfl
  · have hlog := s.logged_logWrite (engineBase e + 8) v.toNat wr
    refine ⟨s.wrote .ronpex (engineBase e + 8) v.toNat wr fun t => t.feedWrite e v.toNat, rfl, ?_⟩
    rw [State.wrote_ronpex ht]
    refine ⟨by simp, onlyRonpex_of (by simp) (by simp), fun w => ?_⟩
    obtain ⟨hflag, hstable, hwaits⟩ := hlog.feeds e w
    have h := State.feedWrite_reverts hv (s.logWrite .ronpex (engineBase e + 8) v.toNat wr) e w.isLt
    rwa [hflag, hstable, hwaits] at h
  · obtain ⟨hstat, herr, halert, hlen, hfollow⟩ := s.emitterFailed_does m w m.isLt hot
    exact ⟨s.emitterFailed m w hot, rfl, hstat, herr, halert, hlen, by simp, onlyRonpex_of (by simp) (by simp), hfollow⟩
  · obtain ⟨hemit, herr, hatt, hregs⟩ := s.epEmitterFailed_does w b
    exact ⟨s.epEmitterFailed w b, rfl, hemit, herr, hatt, hregs, onlyPlocen_of (by simp) (by simp)⟩
  · have hc : ¬(s.flag .plocen Reg.epOptCtl 3 = true ∧ s.ep.evalAt + evalPeriod (s.reg .plocen Reg.epOptEval) ≤ s.now) :=
      fun ⟨hf, hd⟩ => hoff.elim (by simp [hf]) (by omega)
    exact congrArg Host.Outcome.next (if_neg hc)
  · have honly : onlyPlocen s (s.biasEval .plocen 0) := onlyPlocen_of (by simp) (by simp)
    have heq : s.biasEval .plocen 0 = (List.range 10).foldl (fun t w => t.agePair w) { s with ep := { s.ep with evalAt := s.now } } :=
      if_pos ⟨hon, hdue⟩
    refine ⟨s.biasEval .plocen 0, rfl, ?_⟩
    rw [heq] at honly ⊢
    have haged := State.pairsAged (s := { s with ep := { s.ep with evalAt := s.now } }) hup
    refine ⟨haged.evalAt, honly, fun w => (haged.aged w w.isLt).trans ?_⟩
    rw [agedBias_eq]
    show (if (s.flag .plocen (Reg.epOptEmit w) 12 && s.flag .plocen (Reg.epOptEmit w) 13) = true then _ else _) = _
    cases hboth : s.flag .plocen (Reg.epOptEmit w) 12 && s.flag .plocen (Reg.epOptEmit w) 13
    · rw [if_neg (by simp)]
      exact if_congr (by rw [eq_self_iff_true, true_and]; rfl) rfl rfl
    · rw [if_pos rfl, if_neg (by simp)]
      rfl
  · have hc : ¬(s.flag .ronpex (Reg.lasCtl m) 1 = true
        ∧ SMap.look (fun _ => 0) s.rp.lasers.evalAt m + evalPeriod (s.reg .ronpex Reg.lasEval) ≤ s.now) :=
      fun ⟨hf, hd⟩ => hoff.elim (by simp [hf]) (by omega)
    exact congrArg Host.Outcome.next (if_neg hc)
  · have honly : onlyRonpex s (s.biasEval .ronpex m) := onlyRonpex_of (by simp) (by simp)
    have heq : s.biasEval .ronpex m = (List.range 10).foldl (fun t w => t.ageEmitter m w)
        (s.modLas fun l => { l with evalAt := SMap.put (fun _ => 0) l.evalAt m s.now }) := if_pos ⟨hon, hdue⟩
    refine ⟨s.biasEval .ronpex m, rfl, ?_⟩
    rw [heq] at honly ⊢
    have haged := State.emittersAged (m := m) m.isLt (q := q)
      (s := s.modLas fun l => { l with evalAt := SMap.put (fun _ => 0) l.evalAt m s.now }) hknow
    refine ⟨?_, honly, fun w => (haged.aged w w.isLt).trans (agedBias_eq _ _ _ _)⟩
    rw [haged.lasers]
    exact SMap.look_put_same _ _ _ _

end Sys2Proof.Machine
end

section
/-! What leaves the command of the skeins and the records of their tenants as they are. -/

namespace Sys2Proof.Machine

open Sys2Proof Sys2Proof.Claims

/-- The skeins of the Ronpex: their command and the records of their tenants. -/
def State.rpSkeins (s : State) : Skeins := s.rp.skeins

@[simp] theorem State.rpSkeins_eq (s : State) : s.rp.skeins = s.rpSkeins := by rw [State.rpSkeins]

@[simp] theorem State.rpSkeins_mk (n f : Nat) (l : List Instr) (o : List Out) (m : SMap Byte) (r : Ronpex) (e : Plocen) :
    State.rpSkeins { now := n, free := f, pending := l, out := o, hbm := m, rp := r, ep := e } = r.skeins := by rw [State.rpSkeins]

@[simp] theorem Ronpex.setReg_skeins (r : Ronpex) (a v : Nat) : (r.setReg a v).skeins = r.skeins := by rw [Ronpex.setReg]

@[simp] theorem State.rpSkeins_ite (c : Prop) [Decidable c] (a b : State) :
    (if c then a else b).rpSkeins = if c then a.rpSkeins else b.rpSkeins := by
  split <;> rfl

@[simp] theorem State.rpSkeins_foldl {α : Type} (g : State → α → State) (h : ∀ t x, (g t x).rpSkeins = t.rpSkeins) (l : List α) (s : State) :
    (l.foldl g s).rpSkeins = s.rpSkeins := by
  induction l generalizing s with
  | nil => rfl
  | cons x r ih => rw [List.foldl_cons, ih, h]

theorem State.rpSkeins_getD (o : Option State) (s : State) (h : ∀ t, o = some t → t.rpSkeins = s.rpSkeins) : (o.getD s).rpSkeins = s.rpSkeins := by
  cases o with
  | none => rfl
  | some t => exact h t rfl

/-! ### Machine/Ops -/

@[simp] theorem State.rpSkeins_setReg (s : State) (a v : Nat) :
    (s.setReg .ronpex a v).rpSkeins = s.rpSkeins := by
  unfold State.setReg
  simp

@[simp] theorem State.rpSkeins_setFld (s : State) (a lo len v : Nat) :
    (s.setFld .ronpex a lo len v).rpSkeins = s.rpSkeins := by
  unfold State.setFld
  simp

@[simp] theorem State.rpSkeins_satFld (s : State) (a lo len n : Nat) :
    (s.satFld .ronpex a lo len n).rpSkeins = s.rpSkeins := by
  unfold State.satFld
  simp

@[simp] theorem State.rpSkeins_setFlag (s : State) (a i : Nat) (b : Bool) :
    (s.setFlag .ronpex a i b).rpSkeins = s.rpSkeins := by
  unfold State.setFlag
  simp

@[simp] theorem State.rpSkeins_setSec (s : State) (x : Security) :
    (s.setSec .ronpex x).rpSkeins = s.rpSkeins := by
  unfold State.setSec
  simp

@[simp] theorem State.rpSkeins_setSource (s : State) (x : Source) :
    (s.setSource .ronpex x).rpSkeins = s.rpSkeins := by
  unfold State.setSource
  simp

@[simp] theorem State.rpSkeins_emit (s : State) (o : Out) :
    (s.emit o).rpSkeins = s.rpSkeins := by
  unfold State.emit
  simp

@[simp] theorem State.rpSkeins_msix (s : State) (v : Nat) :
    (s.msix v).rpSkeins = s.rpSkeins := by
  unfold State.msix
  simp

@[simp] theorem State.rpSkeins_rpLog (s : State) (b : LogBody) :
    (s.rpLog b).rpSkeins = s.rpSkeins := by
  unfold State.rpLog
  simp

@[simp] theorem State.rpSkeins_rpCond (s : State) (code origin requester port skein addr old new : Nat) :
    (s.rpCond code origin requester port skein addr old new).rpSkeins = s.rpSkeins := by
  unfold State.rpCond
  simp

@[simp] theorem State.rpSkeins_evtWrite (s : State) (e : Event) :
    (s.evtWrite e).rpSkeins = s.rpSkeins := by
  unfold State.evtWrite
  simp

@[simp] theorem State.rpSkeins_evtOverflow (s : State) :
    s.evtOverflow.rpSkeins = s.rpSkeins := by
  unfold State.evtOverflow
  simp

@[simp] theorem State.rpSkeins_post (s : State) (e : Event) :
    (s.post e).rpSkeins = s.rpSkeins := by
  unfold State.post
  simp

@[simp] theorem State.rpSkeins_modFm (s : State) (f : Fmem → Fmem) :
    (s.modFm f).rpSkeins = s.rpSkeins := by
  unfold State.modFm
  simp

/-! ### Machine/Route -/

@[simp] theorem State.rpSkeins_offer (s : State) (port : Nat) (x : EddyEnt) :
    (s.offer port x).rpSkeins = s.rpSkeins := by
  unfold State.offer
  simp

@[simp] theorem State.rpSkeins_modWarp (s : State) (f : Warp → Warp) :
    (s.modWarp f).rpSkeins = s.rpSkeins := by
  unfold State.modWarp
  simp

@[simp] theorem State.rpSkeins_logUnrouted (s : State) (p : Nat) (c : Container) :
    (s.logUnrouted p c).rpSkeins = s.rpSkeins := by
  unfold State.logUnrouted
  simp

@[simp] theorem State.rpSkeins_goHome (s : State) (c : Container) :
    (s.goHome c).rpSkeins = s.rpSkeins := by
  unfold State.goHome
  simp

@[simp] theorem State.rpSkeins_reflect (s : State) (x : EddyEnt) (noPath : Bool) :
    (s.reflect x noPath).rpSkeins = s.rpSkeins := by
  unfold State.reflect
  dsimp only
  repeat' split
  all_goals simp

@[simp] theorem State.rpSkeins_toOutput (s : State) (r : Route) (x : EddyEnt) :
    (s.toOutput r x).rpSkeins = s.rpSkeins := by
  unfold State.toOutput
  repeat' split
  all_goals simp

/-! ### Machine/Send -/

@[simp] theorem State.rpSkeins_hold (s : State) (dest skein plane planes : Nat) (loc : HeldAt) (m : Msg) (own : Owner) :
    (s.hold .ronpex dest skein plane planes loc m own).1.rpSkeins = s.rpSkeins := by
  unfold State.hold
  simp

@[simp] theorem State.rpSkeins_rpSend (s : State) (h : Held) :
    (s.rpSend h).rpSkeins = s.rpSkeins := by
  unfold State.rpSend
  simp

@[simp] theorem State.rpSkeins_rpPush (s : State) :
    s.rpPush.rpSkeins = s.rpSkeins := by
  unfold State.rpPush
  simp

@[simp] theorem State.rpSkeins_rpMgmtPort (s : State) (port dest : Nat) (m : Mgmt) (own : Owner) :
    (s.rpMgmtPort port dest m own).rpSkeins = s.rpSkeins := by
  unfold State.rpMgmtPort
  simp

/-! ### Machine/OrderOps -/

@[simp] theorem State.rpSkeins_toEndPoint (s : State) (p : Nat) (m : Mgmt) :
    (s.toEndPoint p m).rpSkeins = s.rpSkeins := by
  unfold State.toEndPoint
  simp

@[simp] theorem State.rpSkeins_sendAssign (s : State) (port : Nat) :
    (s.sendAssign port).rpSkeins = s.rpSkeins := by
  unfold State.sendAssign
  simp

/-! ### Machine/CmdOps -/

@[simp] theorem State.rpSkeins_modMgmt (s : State) (f : MgmtRings → MgmtRings) :
    (s.modMgmt f).rpSkeins = s.rpSkeins := by
  unfold State.modMgmt
  simp

@[simp] theorem State.rpSkeins_cmdEvent (s : State) (r : Running) (status detail : Nat) :
    (s.cmdEvent r status detail).rpSkeins = s.rpSkeins := by
  unfold State.cmdEvent
  simp

@[simp] theorem State.rpSkeins_cmdNext (s : State) :
    s.cmdNext.rpSkeins = s.rpSkeins := by
  unfold State.cmdNext
  simp

@[simp] theorem State.rpSkeins_cmdDone (s : State) (status detail : Nat) :
    (s.cmdDone status detail).rpSkeins = s.rpSkeins := by
  unfold State.cmdDone
  split <;> simp

@[simp] theorem State.rpSkeins_cmdWaited (s : State) (w : CmdWait) (status detail : Nat) :
    (s.cmdWaited w status detail).rpSkeins = s.rpSkeins := by
  unfold State.cmdWaited
  simp

/-! ### Machine/SkeinOps -/

@[simp] theorem State.rpSkeins_destroyFkey (s : State) (k : Nat) :
    (s.destroyFkey k).rpSkeins = s.rpSkeins := by
  unfold State.destroyFkey
  simp

@[simp] theorem State.rpSkeins_scrubStart (s : State) (k : Nat) :
    (s.scrubStart k).rpSkeins = s.rpSkeins := by
  unfold State.scrubStart
  simp

@[simp] theorem State.rpSkeins_releaseSkein (s : State) (k : Nat) :
    (s.releaseSkein k).rpSkeins = s.rpSkeins := by
  unfold State.releaseSkein
  simp

end Sys2Proof.Machine
end

section
/-! CLAIM, ACTIVATE, QUIESCE and RELEASE of a skein (R303, R319): their checks, and what they do at their frame boundary. -/

namespace Sys2Proof.Machine

open Sys2Proof Sys2Proof.Claims

/-- A register that no step of a fold writes. -/
theorem State.reg_foldl_of_mem {α : Type} {g : State → α → State} {p : Part} {a : Nat} {l : List α}
    (h : ∀ t, ∀ x ∈ l, (g t x).reg p a = t.reg p a) (s : State) : (l.foldl g s).reg p a = s.reg p a := by
  induction l generalizing s with
  | nil => rfl
  | cons x l ih => rw [List.foldl_cons, ih fun t y hy => h t y (List.mem_cons_of_mem _ hy), h s x List.mem_cons_self]

/-! ### The checks -/

theorem bits_sknCmdValue (k : Fin 64) {op : Nat} (h : op ≤ 4) :
    bits 0 6 (sknCmdValue k op) = k.val ∧ bits 8 3 (sknCmdValue k op) = op := by
  unfold bits sknCmdValue
  omega

theorem State.cmdResult_le (s : State) (k op : Nat) : s.cmdResult k op ≤ 6 := by
  unfold State.cmdResult
  repeat' split
  all_goals omega

/-- A write of SKN.CMD that passes its checks. -/
theorem State.skeinWrite_passed {s : State} {k : Fin 64} {op : Nat} (h1 : 1 ≤ op) (h4 : op ≤ 4) (h : s.cmdResult k op = 0) :
    s.skeinWrite (sknCmdValue k op) none = (s.setReg .ronpex Reg.sknStat k).modSk fun x => { x with cmd := some {
      op := op, skein := k, effect := s.frameAfter 1000 * frameNs, template := none } } := by
  obtain ⟨hk, hop⟩ := bits_sknCmdValue k h4
  unfold State.skeinWrite
  rw [hk, hop]
  simp only [h]
  rw [if_neg (by omega)]
  rfl

/-- A write of SKN.CMD that fails a check. -/
theorem State.skeinWrite_failed {s : State} {k : Fin 64} {op r : Nat} (h1 : 1 ≤ op) (h4 : op ≤ 4) (h : s.cmdResult k op = r) (hr : r ≠ 0) :
    s.skeinWrite (sknCmdValue k op) none
      = if r = 5 then s.setFld .ronpex Reg.sknStat 8 8 5 else s.setReg .ronpex Reg.sknStat (k + 256 * r) := by
  obtain ⟨hk, hop⟩ := bits_sknCmdValue k h4
  unfold State.skeinWrite
  rw [hk, hop]
  simp only [h]
  rw [if_neg (by omega), if_pos hr]

/-! ### The release -/

/-- The registers of a skein's key are the only ones, besides those that reports are counted in, that its destruction writes. -/
theorem State.reg_destroyFkey (s : State) (k : Nat) {a : Nat} (h : a < 0x900100) : (s.destroyFkey k).reg .ronpex a = s.reg .ronpex a := by
  have hout : a ≠ Reg.logLost := by simp only [Reg.logLost]; omega
  unfold State.destroyFkey
  split
  · dsimp only
    rw [State.reg_setReg_other _ _ _ _ _ _ (.inr (by simp only [Reg.secFkeyId]; omega)),
      State.reg_setReg_other _ _ _ _ _ _ (.inr (by simp only [Reg.secFkeyStat]; omega)), (State.logged_rpLog _ _).reg hout]
    rfl
  · rfl

theorem State.reg_scrubStart (s : State) (k : Nat) {a : Nat} (h : a < 0x900000) (ha : a ≠ Reg.sknCtl k) :
    (s.scrubStart k).reg .ronpex a = s.reg .ronpex a := by
  unfold State.scrubStart
  split
  · rw [State.reg_setFlag_other _ _ _ _ _ _ _ (.inr (by simp only [Reg.secDbg]; omega)),
      State.reg_setFlag_other _ _ _ _ _ _ _ (.inr ha.symm), State.reg_destroyFkey _ _ (by omega)]
  · rfl

/-- A scrub leaves the state of its skein. -/
theorem State.skeinState_scrubStart (s : State) {k : Nat} (hk : k < 64) : (s.scrubStart k).skeinState k = s.skeinState k := by
  unfold State.scrubStart State.skeinState
  split
  · rw [State.fld_congr (State.reg_setFlag_other _ _ _ _ _ _ _ (.inr (by simp only [Reg.secDbg, Reg.sknCtl]; omega))),
      State.fld_setFlag_outside _ _ _ (by omega) (by omega),
      State.fld_congr (State.reg_destroyFkey _ _ (by simp only [Reg.sknCtl]; omega))]
  · rfl

/-- The regions, relays, grant and seeds of a released skein are taken from it. -/
def State.releaseMemory (s : State) (k : Nat) : State :=
  let relays := (List.range 4096).filter fun m =>
    s.flag .ronpex (Reg.fmhRelayCtl m) 14 && s.hcntOf k (s.fld .ronpex (Reg.fmhRelayCtl m) 0 14)
  let s1 := ((List.range 256).filter fun n => s.rgnSkein n == k).foldl (fun t n => t.setFlag .ronpex (Reg.fmhRgnCtl n) 0 false) s
  let s2 := relays.foldl (fun t m => (t.setFlag .ronpex (Reg.fmhRelayCtl m) 14 false).modFm fun f => { f with next := SMap.drop f.next m }) s1
  ((s2.setFld .ronpex (Reg.fmhHgrant k) 16 15 0).setReg .ronpex (Reg.spdSeedLo k) 0).setReg .ronpex (Reg.spdSeedHi k) 0

theorem State.reg_releaseMemory (s : State) {k : Nat} (hk : k < 64) {a : Nat} (h : 0x600000 ≤ a) :
    (s.releaseMemory k).reg .ronpex a = s.reg .ronpex a := by
  unfold State.releaseMemory
  dsimp only
  rw [State.reg_setReg_other _ _ _ _ _ _ (.inr (by simp only [Reg.spdSeedHi]; omega)),
    State.reg_setReg_other _ _ _ _ _ _ (.inr (by simp only [Reg.spdSeedLo]; omega)),
    State.reg_setFld_other _ _ _ _ _ _ _ _ (.inr (by simp only [Reg.fmhHgrant]; omega)), State.reg_foldl_of_mem, State.reg_foldl_of_mem]
  · intro t n hn
    have := List.mem_range.1 (List.mem_filter.1 hn).1
    exact State.reg_setFlag_other _ _ _ _ _ _ _ (.inr (by simp only [Reg.fmhRgnCtl]; omega))
  · intro t m hm
    have := List.mem_range.1 (List.mem_filter.1 hm).1
    show (t.setFlag .ronpex (Reg.fmhRelayCtl m) 14 false).reg .ronpex a = _
    exact State.reg_setFlag_other _ _ _ _ _ _ _ (.inr (by simp only [Reg.fmhRelayCtl]; omega))

/-- The ports in a list are taken from their skein. -/
def State.freePorts (s : State) (l : List Nat) : State := l.foldl (fun t p => t.setFld .ronpex (Reg.sknPort p) 0 7 0) s

theorem State.reg_freePorts (l : List Nat) (s : State) {a : Nat} (h : ∀ p ∈ l, a ≠ Reg.sknPort p) :
    (s.freePorts l).reg .ronpex a = s.reg .ronpex a :=
  State.reg_foldl_of_mem (fun _ p hp => State.reg_setFld_other _ _ _ _ _ _ _ _ (.inr (h p hp).symm)) s

theorem State.fld_freePorts (l : List Nat) (s : State) {p : Nat} (hp : p ∈ l) : (s.freePorts l).fld .ronpex (Reg.sknPort p) 0 7 = 0 := by
  induction l generalizing s with
  | nil => cases hp
  | cons q l ih =>
    by_cases hl : p ∈ l
    · exact ih _ hl
    · have hpq : p = q := (List.mem_cons.1 hp).resolve_right hl
      subst hpq
      have hreg := State.reg_freePorts l (s.setFld .ronpex (Reg.sknPort p) 0 7 0) (a := Reg.sknPort p) fun q hq h =>
        hl (by simp only [Reg.sknPort] at h; rwa [show p = q by omega])
      exact (State.fld_congr hreg 0 7).trans (State.fld_setFld_same _ _ _ _ _ _ (by omega))

/-- The budgets of a skein as reset leaves them. -/
def State.resetBudgets (s : State) (k : Nat) : State :=
  (List.range 4).foldl (fun t w => t.setReg .ronpex (Reg.budWeft k + 4 * w) (budReset w)) s

theorem State.reg_resetBudgets (s : State) (k : Nat) {a : Nat} (h : ∀ i, i < 4 → a ≠ Reg.budWeft k + 4 * i) :
    (s.resetBudgets k).reg .ronpex a = s.reg .ronpex a :=
  State.reg_foldl_of_mem (fun _ i hi => State.reg_setReg_other _ _ _ _ _ _ (.inr (h i (List.mem_range.1 hi)).symm)) s

theorem State.budgets_resetBudgets (s : State) (k : Nat) {i : Nat} (hi : i < 4) :
    (s.resetBudgets k).reg .ronpex (Reg.budWeft k + 4 * i) = budReset i := by
  have h := foldl_range_induct (N := 4) (f := fun t w => t.setReg .ronpex (Reg.budWeft k + 4 * w) (budReset w)) (s := s)
    (I := fun n t => ∀ i, i < n → t.reg .ronpex (Reg.budWeft k + 4 * i) = budReset i) (fun _ h => absurd h (Nat.not_lt_zero _))
    fun n t hn ht i hi => by
      by_cases hin : i = n
      · subst hin
        rw [State.reg_setReg_same]
        have hall : ∀ i, i < 4 → budReset i % 2 ^ 32 = budReset i := by decide
        exact hall i hn
      · rw [State.reg_setReg_other _ _ _ _ _ _ (.inr (by omega))]
        exact ht i (by omega)
  exact h i hi

theorem State.releaseSkein_eq (s : State) (k : Nat) : s.releaseSkein k
    = ((((s.releaseMemory k).freePorts ((List.range 192).filter fun p => s.fld .ronpex (Reg.sknPort p) 0 6 == k)).resetBudgets
        k).destroyFkey k).scrubStart k := rfl

/-- A release writes no other register of the skeins. -/
theorem State.reg_releaseSkein (s : State) {k : Nat} (hk : k < 64) {a : Nat} (h : 0x700000 ≤ a) (h' : a < 0x700800) (ha : a ≠ Reg.sknCtl k) :
    (s.releaseSkein k).reg .ronpex a = s.reg .ronpex a := by
  rw [State.releaseSkein_eq, State.reg_scrubStart _ _ (by omega) ha, State.reg_destroyFkey _ _ (by omega), State.reg_resetBudgets,
    State.reg_freePorts, State.reg_releaseMemory _ hk (by omega)]
  · intro p _
    simp only [Reg.sknPort]
    omega
  · intro i _
    simp only [Reg.budWeft]
    omega

theorem State.skeinState_releaseSkein (s : State) {k j : Nat} (hk : k < 64) (hj : j < 64) :
    (s.releaseSkein k).skeinState j = s.skeinState j := by
  by_cases h : j = k
  · subst h
    rw [State.releaseSkein_eq, State.skeinState_scrubStart _ hk]
    unfold State.skeinState
    rw [State.fld_congr (State.reg_destroyFkey _ _ (by simp only [Reg.sknCtl]; omega)), State.fld_congr (State.reg_resetBudgets _ _ ?_),
      State.fld_congr (State.reg_freePorts _ _ ?_), State.fld_congr (State.reg_releaseMemory _ hk (by simp only [Reg.sknCtl]; omega))]
    · intro p _
      simp only [Reg.sknPort, Reg.sknCtl]
      omega
    · intro i _
      simp only [Reg.budWeft, Reg.sknCtl]
      omega
  · exact State.fld_congr (s.reg_releaseSkein hk (by simp only [Reg.sknCtl]; omega) (by simp only [Reg.sknCtl]; omega)
      (by simp only [Reg.sknCtl]; omega)) 0 2

/-- The ports and budgets of a released skein. -/
theorem State.releaseSkein_takes (s : State) {k : Nat} (hk : k < 64) :
    (∀ p, p < 192 → s.fld .ronpex (Reg.sknPort p) 0 6 = k → (s.releaseSkein k).fld .ronpex (Reg.sknPort p) 0 7 = 0)
      ∧ ∀ i, i < 4 → (s.releaseSkein k).reg .ronpex (Reg.budWeft k + 4 * i) = budReset i := by
  constructor
  · intro p hp hport
    rw [State.releaseSkein_eq, State.fld_congr (State.reg_scrubStart _ _ (by simp only [Reg.sknPort]; omega)
        (by simp only [Reg.sknPort, Reg.sknCtl]; omega)), State.fld_congr (State.reg_destroyFkey _ _ (by simp only [Reg.sknPort]; omega)),
      State.fld_congr (State.reg_resetBudgets _ _ ?_), State.fld_freePorts]
    · exact List.mem_filter.2 ⟨List.mem_range.2 hp, by simpa using hport⟩
    · intro i _
      simp only [Reg.sknPort, Reg.budWeft]
      omega
  · intro i hi
    rw [State.releaseSkein_eq, State.reg_scrubStart _ _ (by simp only [Reg.budWeft]; omega) (by simp only [Reg.budWeft, Reg.sknCtl]; omega),
      State.reg_destroyFkey _ _ (by simp only [Reg.budWeft]; omega), State.budgets_resetBudgets _ _ hi]

/-! ### The effect -/

theorem State.rpSkeins_postFor (s : State) (e : Event) (l : List Nat) : (s.postFor e 0 l).rp.skeins = s.rp.skeins := by
  unfold State.postFor
  rw [if_pos rfl]
  simp

/-- The state that a command gives its skein. -/
def newSkeinState (op : Nat) : Nat := [0, 1, 2, 1, 0].getD op 0

theorem newSkeinState_eq {op : Nat} (h1 : 1 ≤ op) (h4 : op ≤ 4) : newSkeinState op = if op = 2 then 2 else if op = 4 then 0 else 1 := by
  interval_cases op <;> rfl

/-- The command has given its skein its state. -/
def State.skeinChanged (s : State) (c : SkeinCmd) : State :=
  ((s.modSk fun x => { x with cmd := none }).setReg .ronpex Reg.sknFrame (frameOf c.effect % 2 ^ 32)).setFld .ronpex (Reg.sknCtl c.skein) 0 2
    (newSkeinState c.op)

theorem State.skeinEffect_eq {s : State} {c : SkeinCmd} (h : s.rp.skeins.cmd = some c) (ht : c.template = none) (hdue : c.effect ≤ s.now) :
    s.skeinEffect = ((if c.op = 4 then (s.skeinChanged c).releaseSkein c.skein else s.skeinChanged c).postFor
      (plainEvent s.now 0x20 (c.skein + 256 * newSkeinState c.op)) 0 [c.skein]).cmdWaited .skein 0 0 := by
  unfold State.skeinEffect
  rw [h]
  simp only [ht]
  exact if_neg (by omega)

theorem State.skeinChanged_does (s : State) {c : SkeinCmd} (hk : c.skein < 64) :
    (s.skeinChanged c).reg .ronpex Reg.sknFrame = frameOf c.effect % 2 ^ 32
      ∧ (s.skeinChanged c).skeinState c.skein = newSkeinState c.op
      ∧ (∀ j, j < 64 → j ≠ c.skein → (s.skeinChanged c).skeinState j = s.skeinState j)
      ∧ ∀ p, (s.skeinChanged c).reg .ronpex (Reg.sknPort p) = s.reg .ronpex (Reg.sknPort p) := by
  unfold State.skeinChanged
  have hreg : ∀ a, a ≠ Reg.sknFrame → ((s.modSk fun x => { x with cmd := none }).setReg .ronpex Reg.sknFrame
      (frameOf c.effect % 2 ^ 32)).reg .ronpex a = s.reg .ronpex a := fun a ha => State.reg_setReg_other _ _ _ _ _ _ (.inr ha.symm)
  refine ⟨?_, ?_, fun j hj hne => ?_, fun p => ?_⟩
  · rw [State.reg_setFld_other _ _ _ _ _ _ _ _ (.inr (by simp only [Reg.sknCtl, Reg.sknFrame]; omega)), State.reg_setReg_same, Nat.mod_mod]
  · rw [State.skeinState, State.fld_setFld_same _ _ _ _ _ _ (by omega)]
    refine Nat.mod_eq_of_lt ?_
    unfold newSkeinState
    rcases c.op with _ | _ | _ | _ | _ | n <;> simp
  · unfold State.skeinState
    rw [State.fld_congr (State.reg_setFld_other _ _ _ _ _ _ _ _ (.inr (by simp only [Reg.sknCtl]; omega))),
      State.fld_congr (hreg _ (by simp only [Reg.sknCtl, Reg.sknFrame]; omega))]
  · rw [State.reg_setFld_other _ _ _ _ _ _ _ _ (.inr (by simp only [Reg.sknCtl, Reg.sknPort]; omega)),
      hreg _ (by simp only [Reg.sknPort, Reg.sknFrame]; omega)]

/-- What the command does at its frame boundary, without its events. -/
def State.skeinDone (s : State) (c : SkeinCmd) : State := if c.op = 4 then (s.skeinChanged c).releaseSkein c.skein else s.skeinChanged c

theorem State.skeinDone_does (s : State) {c : SkeinCmd} (hk : c.skein < 64) :
    (s.skeinDone c).rp.skeins.cmd = none ∧ (s.skeinDone c).reg .ronpex Reg.sknFrame = frameOf c.effect % 2 ^ 32
      ∧ (s.skeinDone c).skeinState c.skein = newSkeinState c.op
      ∧ (∀ j, j < 64 → j ≠ c.skein → (s.skeinDone c).skeinState j = s.skeinState j)
      ∧ (c.op = 4 →
          (∀ p, p < 192 → s.fld .ronpex (Reg.sknPort p) 0 6 = c.skein → (s.skeinDone c).fld .ronpex (Reg.sknPort p) 0 7 = 0)
          ∧ ∀ i, i < 4 → (s.skeinDone c).reg .ronpex (Reg.budWeft c.skein + 4 * i) = budReset i) := by
  obtain ⟨hframe, hstate, hothers, hports⟩ := s.skeinChanged_does hk
  unfold State.skeinDone
  by_cases h : c.op = 4
  · rw [if_pos h]
    have hsk : ((s.skeinChanged c).releaseSkein c.skein).rp.skeins.cmd = none := by simp [State.skeinChanged, State.modSk]
    refine ⟨hsk, ?_, (State.skeinState_releaseSkein _ hk hk).trans hstate,
      fun j hj hne => (State.skeinState_releaseSkein _ hk hj).trans (hothers j hj hne), fun _ => ?_⟩
    · rw [State.reg_releaseSkein _ hk (by decide) (by decide) (by simp only [Reg.sknFrame, Reg.sknCtl]; omega), hframe]
    · obtain ⟨htaken, hbudgets⟩ := State.releaseSkein_takes (s.skeinChanged c) hk
      exact ⟨fun p hp hport => htaken p hp ((State.fld_congr (hports p) 0 6).trans hport), hbudgets⟩
  · rw [if_neg h]
    exact ⟨rfl, hframe, hstate, hothers, fun h4 => absurd h4 h⟩

/-- A register written after a write was logged. -/
theorem State.Logged.frame_setReg {s u : State} (h : s.Logged u) (a v : Nat) : u.setReg .ronpex a v
    = { s with rp := { s.rp with regs := (u.setReg .ronpex a v).rp.regs, log := (u.setReg .ronpex a v).rp.log } } := by
  show { u with rp := u.rp.setReg a v } = _
  rw [h.frame]
  rfl

/-- Settles O38: the checks of a write of SKN.CMD, and the effect of the command that passed them. -/
theorem skeinCommands : Obligations.SkeinCommands := by
  refine ⟨fun s u k w op r c ht hc hu hr => ?_, fun s c hcmd h1 h4 hk htpl => ⟨fun hearly => ?_, fun hdue => ?_⟩⟩
  · have hlog := s.logged_logWrite Reg.sknCmd (sknCmdValue k op) w
    rw [← hu] at hlog
    have hop : 1 ≤ op ∧ op ≤ 4 := by omega
    have hexec : exec c s = .next (u.skeinWrite (sknCmdValue k op) none) := by
      have hwrote : s.skeinCmd (sknCmdValue k op) w = u.skeinWrite (sknCmdValue k op) none := by
        rw [hu]
        exact State.wrote_ronpex ht _ _ _
      rcases hc with ⟨rfl, rfl⟩ | ⟨rfl, rfl⟩ | ⟨rfl, rfl⟩ | ⟨rfl, rfl⟩ <;> exact congrArg Host.Outcome.next hwrote
    have hregs (v : Nat) : regsBut s (u.setReg .ronpex Reg.sknStat v) .ronpex [Reg.sknStat, Reg.logLost] :=
      regsBut_trans (regsBut_mono hlog.regs (by simp)) (regsBut_setReg _ _ (by simp))
    refine ⟨fun h0 => ⟨_, hexec, ?_⟩, fun h0 => ⟨_, hexec, ?_⟩⟩
    · rw [State.skeinWrite_passed hop.1 hop.2 (hr.symm.trans h0)]
      have hsk : u.rp.skeins = s.rp.skeins := by rw [hlog.frame]
      have hnow : u.now = s.now := by rw [hlog.frame]
      refine ⟨?_, ?_, hregs k, ?_⟩
      · refine (congrArg (fun x : Skeins => { x with cmd := some { op := op, skein := k, effect := u.frameAfter 1000 * frameNs
                                                                   template := none } }) hsk).trans ?_
        rw [State.frameAfter, hnow, State.frameAfter]
      · show (u.setReg .ronpex Reg.sknStat k).reg .ronpex Reg.sknStat = k
        rw [State.reg_setReg_same]
        exact Nat.mod_eq_of_lt (by omega)
      · show (u.setReg .ronpex Reg.sknStat k).modSk _ = _
        rw [hlog.frame]
        rfl
    · have hle : r ≤ 6 := hr ▸ u.cmdResult_le k op
      rw [State.skeinWrite_failed hop.1 hop.2 hr.symm h0]
      split
      · next h5 =>
        refine ⟨?_, hregs _, ?_⟩
        · rw [State.fld_setFld_same _ _ _ _ _ _ (by omega), h5]
          rfl
        · exact hlog.frame_setReg _ _
      · refine ⟨?_, hregs _, ?_⟩
        · rw [State.fld_setReg_same _ _ _ _ (by omega)]
          unfold bits
          omega
        · exact hlog.frame_setReg _ _
  · refine congrArg Host.Outcome.next ?_
    unfold State.skeinEffect
    rw [hcmd]
    exact if_pos hearly
  · have honly : onlyRonpex s s.skeinEffect := onlyRonpex_of (by simp) (by simp)
    have hlinks : s.skeinEffect.rp.links = s.rp.links := by simp
    obtain ⟨hnone, hframe, hstate, hothers, hfour⟩ := s.skeinDone_does hk
    have heq : s.skeinEffect = ((s.skeinDone c).postFor (plainEvent s.now 0x20 (c.skein + 256 * newSkeinState c.op)) 0
        [c.skein]).cmdWaited .skein 0 0 := State.skeinEffect_eq hcmd htpl hdue
    have hregs (a : Nat) (ha : a < 0x900000) : s.skeinEffect.reg .ronpex a = (s.skeinDone c).reg .ronpex a := by
      rw [heq]
      refine State.reg_of_rpRegs (by simp) ?_
      simp only [reportRegs, Reg.logLost, Reg.mgtEvtOvf, Reg.mgtMsixPba, List.mem_cons, List.not_mem_nil, or_false, not_or]
      omega
    have hstates (j : Nat) (hj : j < 64) : s.skeinEffect.skeinState j = (s.skeinDone c).skeinState j :=
      State.fld_congr (hregs _ (by simp only [Reg.sknCtl]; omega)) 0 2
    refine ⟨s.skeinEffect, rfl, ?_, (hstates _ hk).trans (hstate.trans (newSkeinState_eq h1 h4)), ?_,
      fun j hj hne => (hstates j hj).trans (hothers j hj hne), fun h => ?_, hlinks, honly⟩
    · rw [heq, State.rpSkeins_eq, State.rpSkeins_cmdWaited, ← State.rpSkeins_eq, State.rpSkeins_postFor, hnone]
    · rw [hregs _ (by decide), hframe]
    · obtain ⟨htaken, hbudgets⟩ := hfour h
      exact ⟨fun p hp hport => (State.fld_congr (hregs _ (by simp only [Reg.sknPort]; omega)) 0 7).trans (htaken p hp hport),
        fun i hi => (hregs _ (by simp only [Reg.budWeft]; omega)).trans (hbudgets i hi)⟩

end Sys2Proof.Machine
end

section
/-! What leaves the hank counters of the Plocen as they are. -/

namespace Sys2Proof.Machine

open Sys2Proof Sys2Proof.Claims

/-- The hank counters of the Plocen. -/
def State.epHanks (s : State) : (SMap Nat) := s.ep.hanks

@[simp] theorem State.epHanks_eq (s : State) : s.ep.hanks = s.epHanks := by rw [State.epHanks]

@[simp] theorem State.epHanks_mk (n f : Nat) (l : List Instr) (o : List Out) (m : SMap Byte) (r : Ronpex) (e : Plocen) :
    State.epHanks { now := n, free := f, pending := l, out := o, hbm := m, rp := r, ep := e } = e.hanks := by rw [State.epHanks]

@[simp] theorem State.epHanks_ite (c : Prop) [Decidable c] (a b : State) :
    (if c then a else b).epHanks = if c then a.epHanks else b.epHanks := by
  split <;> rfl

@[simp] theorem State.epHanks_foldl {α : Type} (g : State → α → State) (h : ∀ t x, (g t x).epHanks = t.epHanks) (l : List α) (s : State) :
    (l.foldl g s).epHanks = s.epHanks := by
  induction l generalizing s with
  | nil => rfl
  | cons x r ih => rw [List.foldl_cons, ih, h]

theorem State.epHanks_getD (o : Option State) (s : State) (h : ∀ t, o = some t → t.epHanks = s.epHanks) : (o.getD s).epHanks = s.epHanks := by
  cases o with
  | none => rfl
  | some t => exact h t rfl

/-! ### Machine/Ops -/

@[simp] theorem State.epHanks_setReg (s : State) (a v : Nat) :
    (s.setReg .plocen a v).epHanks = s.epHanks := by
  unfold State.setReg
  simp

@[simp] theorem State.epHanks_setFld (s : State) (a lo len v : Nat) :
    (s.setFld .plocen a lo len v).epHanks = s.epHanks := by
  unfold State.setFld
  simp

@[simp] theorem State.epHanks_satFld (s : State) (a lo len n : Nat) :
    (s.satFld .plocen a lo len n).epHanks = s.epHanks := by
  unfold State.satFld
  simp

@[simp] theorem State.epHanks_setSec (s : State) (x : Security) :
    (s.setSec .plocen x).epHanks = s.epHanks := by
  unfold State.setSec
  simp

@[simp] theorem State.epHanks_setSource (s : State) (x : Source) :
    (s.setSource .plocen x).epHanks = s.epHanks := by
  unfold State.setSource
  simp

@[simp] theorem State.epHanks_emit (s : State) (o : Out) :
    (s.emit o).epHanks = s.epHanks := by
  unfold State.emit
  simp

/-! ### Machine/Send -/

@[simp] theorem State.epHanks_hold (s : State) (dest skein plane planes : Nat) (loc : HeldAt) (m : Msg) (own : Owner) :
    (s.hold .plocen dest skein plane planes loc m own).1.epHanks = s.epHanks := by
  unfold State.hold
  simp

@[simp] theorem State.epHanks_epMgmt (s : State) (plane : Nat) (m : Mgmt) :
    (s.epMgmt plane m).epHanks = s.epHanks := by
  unfold State.epMgmt
  simp

@[simp] theorem State.epHanks_epMgmtLowest (s : State) (m : Mgmt) :
    (s.epMgmtLowest m).epHanks = s.epHanks := by
  unfold State.epMgmtLowest
  split <;> simp

@[simp] theorem State.epHanks_epLog (s : State) (b : LogBody) :
    (s.epLog b).epHanks = s.epHanks := by
  unfold State.epLog
  simp

/-! ### Machine/Flags -/

@[simp] theorem State.epHanks_modAtt (s : State) (f : Attach → Attach) :
    (s.modAtt f).epHanks = s.epHanks := by
  unfold State.modAtt
  simp

@[simp] theorem State.epHanks_sendFlit (s : State) (kind seq : Nat) (body : List (BitVec 128)) :
    (s.sendFlit kind seq body).epHanks = s.epHanks := by
  unfold State.sendFlit
  simp

@[simp] theorem State.epHanks_sendChunks (n : Nat) (x : List (BitVec 128)) (s : State) :
    (s.sendChunks n x).epHanks = s.epHanks := by
  induction n generalizing x s with
  | zero => rfl
  | succ n ih =>
    unfold State.sendChunks
    repeat' (first | split | dsimp only)
    all_goals simp [ih]

@[simp] theorem State.epHanks_sendTxn (s : State) (t : Txn) :
    (s.sendTxn t).epHanks = s.epHanks := by
  unfold State.sendTxn
  simp

@[simp] theorem State.epHanks_pump (n : Nat) (s : State) :
    (s.pump n).epHanks = s.epHanks := by
  induction n generalizing s with
  | zero => rfl
  | succ n ih =>
    unfold State.pump
    repeat' (first | split | dsimp only)
    all_goals simp [ih]

@[simp] theorem State.epHanks_request (s : State) (l : List AttReq) :
    (s.request l).epHanks = s.epHanks := by
  unfold State.request
  simp

/-! ### Machine/RingOps -/

@[simp] theorem State.epHanks_modRing (s : State) (n : Nat) (f : Ring → Ring) :
    (s.modRing n f).epHanks = s.epHanks := by
  unfold State.modRing
  simp

@[simp] theorem State.epHanks_postCompletion (s : State) (n sub code info cookie : Nat) :
    (s.postCompletion n sub code info cookie).epHanks = s.epHanks := by
  unfold State.postCompletion
  simp

@[simp] theorem State.epHanks_modAct (s : State) (n sub : Nat) (f : Act → Act) :
    (s.modAct n sub f).epHanks = s.epHanks := by
  unfold State.modAct
  simp

@[simp] theorem State.epHanks_dropFront (s : State) (n : Nat) :
    (s.dropFront n).epHanks = s.epHanks := by
  unfold State.dropFront
  simp

@[simp] theorem State.epHanks_settleFront (n : Nat) (s : State) (x : Nat) :
    (s.settleFront n x).epHanks = s.epHanks := by
  induction n generalizing s x with
  | zero => rfl
  | succ n ih =>
    unfold State.settleFront
    repeat' (first | split | dsimp only)
    all_goals simp [ih]

@[simp] theorem State.epHanks_settleRing (s : State) (n : Nat) :
    (s.settleRing n).epHanks = s.epHanks := by
  unfold State.settleRing
  simp

@[simp] theorem State.epHanks_settleAct (s : State) (n sub : Nat) :
    (s.settleAct n sub).epHanks = s.epHanks := by
  unfold State.settleAct
  split <;> simp

/-! ### Machine/EpOrders -/

@[simp] theorem State.epHanks_destroyEpKey (s : State) (kind : Nat) :
    (s.destroyEpKey kind).epHanks = s.epHanks := by
  unfold State.destroyEpKey
  simp

end Sys2Proof.Machine
end

section
/-! Membership, scrub and tenant records (R304, R318, R342, R392). -/

namespace Sys2Proof.Machine

open Sys2Proof Sys2Proof.Claims

/-! ### PORT_ASSIGN and ASSIGN -/

theorem sknPort_notMem {q : Nat} (h : q < 192) : Reg.sknPort q ∉ reportRegs := by
  simp only [reportRegs, Reg.sknPort, Reg.logLost, Reg.mgtEvtOvf, Reg.mgtMsixPba, List.mem_cons, List.not_mem_nil, or_false, not_or]
  omega

/-- The assignment that is written is shown; those of the other ports are as before. -/
theorem State.sknPort_does (s : State) {port : Nat} (hp : port < 192) (v : Nat) :
    (s.sknPort port v).reg .ronpex (Reg.sknPort port) = bits 0 7 v + 256 * bits 8 15 v
      ∧ (∀ q, q < 192 → q ≠ port → (s.sknPort port v).reg .ronpex (Reg.sknPort q) = s.reg .ronpex (Reg.sknPort q))
      ∧ (s.sknPort port v).rp.skeins = s.rp.skeins := by
  have h7 := bits_lt 0 7 v
  have h15 := bits_lt 8 15 v
  unfold State.sknPort
  refine ⟨?_, fun q hq hne => ?_, by simp⟩
  · rw [State.reg_of_rpRegs (State.rpRegs_sendAssign _ _) (sknPort_notMem hp), State.reg_setReg_same]
    exact Nat.mod_eq_of_lt (by omega)
  · rw [State.reg_of_rpRegs (State.rpRegs_sendAssign _ _) (sknPort_notMem hq)]
    exact State.reg_setReg_other _ _ _ _ _ _ (.inr (by simp only [Reg.sknPort]; omega))

/-- The keys of a Plocen whose assignment or node changes are destroyed. -/
def State.assignKeys (s : State) (skein node : Nat) : State :=
  if (bit 7 (s.reg .plocen Reg.epSecAssign) && bits 0 6 (s.reg .plocen Reg.epSecAssign) != skein)
      || (bit 15 (s.reg .plocen Reg.epSecNode) && bits 0 15 (s.reg .plocen Reg.epSecNode) != node) then
    (s.destroyEpKey 1).destroyEpKey 2
  else s

theorem State.epMgmtIn_assign {s : State} {plane node : Nat} (h : s.epMgmtOk plane node = true) (k slots epoch n : Nat) (b : Bool) :
    s.epMgmtIn plane node (.assign k b slots epoch n)
      = ((((s.assignKeys k n).setReg .plocen Reg.epSecAssign (k % 64 + 64 * ofBool b + 128 + 2 ^ 16 * (slots % 2 ^ 13))).setReg .plocen
          Reg.epSecNode (n % 2 ^ 15 + 2 ^ 15)).setFld .plocen Reg.epSeqEpoch 0 16 epoch).epMgmt plane (.assignAck k b slots epoch n) := by
  unfold State.epMgmtIn
  exact if_neg (by rw [h]; simp)

/-- An ASSIGN that the Plocen accepts. -/
theorem State.epMgmtIn_assign_does {s : State} {plane node : Nat} (h : s.epMgmtOk plane node = true) (k slots epoch n : Nat) (b : Bool) :
    let t := s.epMgmtIn plane node (.assign k b slots epoch n)
    t.reg .plocen Reg.epSecAssign = k % 64 + 64 * ofBool b + 128 + 2 ^ 16 * (slots % 2 ^ 13)
      ∧ t.reg .plocen Reg.epSecNode = n % 2 ^ 15 + 2 ^ 15 ∧ t.fld .plocen Reg.epSeqEpoch 0 16 = epoch % 2 ^ 16
      ∧ (s.fld .plocen Reg.epSecAssign 0 6 = k → s.fld .plocen Reg.epSecNode 0 15 = n → t.ep.sec = s.ep.sec)
      ∧ t.ep.hanks = s.ep.hanks := by
  have hb : ofBool b ≤ 1 := by cases b <;> decide
  have hkeys : (s.assignKeys k n).ep.hanks = s.ep.hanks := by
    unfold State.assignKeys
    simp
  have hsame : s.fld .plocen Reg.epSecAssign 0 6 = k → s.fld .plocen Reg.epSecNode 0 15 = n → s.assignKeys k n = s := by
    intro hk hn
    unfold State.fld at hk hn
    unfold State.assignKeys
    simp [hk, hn]
  dsimp only
  rw [State.epMgmtIn_assign h]
  generalize s.assignKeys k n = u at hkeys hsame ⊢
  generalize hv : k % 64 + 64 * ofBool b + 128 + 2 ^ 16 * (slots % 2 ^ 13) = v
  generalize hw : n % 2 ^ 15 + 2 ^ 15 = w
  have hv' : v % 2 ^ 32 = v := Nat.mod_eq_of_lt (by omega)
  have hw' : w % 2 ^ 32 = w := Nat.mod_eq_of_lt (by omega)
  obtain ⟨x, hx⟩ := State.epMgmt_only (((u.setReg .plocen Reg.epSecAssign v).setReg .plocen Reg.epSecNode w).setFld .plocen Reg.epSeqEpoch
    0 16 epoch) plane (.assignAck k b slots epoch n)
  have hregs := State.reg_of_epRegs (t := (((u.setReg .plocen Reg.epSecAssign v).setReg .plocen Reg.epSecNode w).setFld .plocen
    Reg.epSeqEpoch 0 16 epoch).epMgmt plane (.assignAck k b slots epoch n))
    (s := (((u.setReg .plocen Reg.epSecAssign v).setReg .plocen Reg.epSecNode w).setFld .plocen Reg.epSeqEpoch 0 16 epoch)) (by rw [hx])
  refine ⟨?_, ?_, ?_, fun hk hn => ?_, ?_⟩
  · rw [hregs, State.reg_setFld_other _ _ _ _ _ _ _ _ (.inr (by decide)), State.reg_setReg_other _ _ _ _ _ _ (.inr (by decide)),
      State.reg_setReg_same, hv']
  · rw [hregs, State.reg_setFld_other _ _ _ _ _ _ _ _ (.inr (by decide)), State.reg_setReg_same, hw']
  · rw [State.fld_congr (hregs _), State.fld_setFld_same _ _ _ _ _ _ (by omega)]
  · rw [hx]
    show u.ep.sec = s.ep.sec
    rw [hsame hk hn]
  · rw [hx]
    exact hkeys

/-- A message that the Plocen refuses. -/
theorem State.epMgmtIn_refused_does {s : State} {plane node : Nat} (h : s.epMgmtOk plane node = false) (m : Mgmt) :
    let t := s.epMgmtIn plane node m
    t.reg .plocen Reg.epSecAssign = s.reg .plocen Reg.epSecAssign ∧ t.reg .plocen Reg.epSecNode = s.reg .plocen Reg.epSecNode
      ∧ t.ep.sec = s.ep.sec := by
  have heq : s.epMgmtIn plane node m = s.mgmtRefused .plocen plane node (mtypeOf m) := by
    unfold State.epMgmtIn
    exact if_pos (by rw [h]; rfl)
  dsimp only
  rw [heq]
  refine ⟨State.reg_of_epOwnRegs (State.epOwnRegs_mgmtRefused _ _ _ _) (by decide),
    State.reg_of_epOwnRegs (State.epOwnRegs_mgmtRefused _ _ _ _) (by decide), ?_⟩
  obtain ⟨l, x, r, hl⟩ := s.epLog_only (violBody s.now node plane 0 (mtypeOf m) 0)
  show (s.epLog _).ep.sec = _
  rw [hl]

/-! ### The scrub of a confidential package -/

/-- What every listed entry has, an entry that is looked up has too. -/
theorem SMap.look_of_forall {α : Type} {P : α → Prop} (d : Nat → α) {m : SMap α} (hd : ∀ k, P (d k)) (h : ∀ e ∈ m, P e.2) (k : Nat) :
    P (SMap.look d m k) := by
  induction m with
  | nil => exact hd k
  | cons e m ih =>
    unfold SMap.look
    split
    · exact h e List.mem_cons_self
    · exact ih fun x hx => h x (List.mem_cons_of_mem _ hx)

/-- A spindle without contexts and anchors. -/
def SpindleSt.cleared (x : SpindleSt) : SpindleSt := { x with ctxs := [], anchors := [] }

/-- The spindles of a package that has been scrubbed. -/
def clearedSpindles (m : SMap SpindleSt) : SMap SpindleSt :=
  (m.map fun e : Nat × SpindleSt => (e.1, e.2.cleared)).filter fun e => !decide (e.2 = ({ } : SpindleSt))

theorem look_clearedSpindles (m : SMap SpindleSt) (n : Nat) :
    (SMap.look (fun _ => {}) (clearedSpindles m) n : SpindleSt).ctxs = []
      ∧ (SMap.look (fun _ => {}) (clearedSpindles m) n : SpindleSt).anchors = [] := by
  refine SMap.look_of_forall (P := fun x : SpindleSt => x.ctxs = [] ∧ x.anchors = []) _ (fun _ => ⟨rfl, rfl⟩) (fun e he => ?_) n
  obtain ⟨x, -, rfl⟩ := List.mem_map.1 (List.mem_filter.1 he).1
  exact ⟨rfl, rfl⟩

/-- The package without what a confidential tenant left in it. -/
def State.scrubCleared (s : State) : State :=
  { s with rp := { s.rp with
    spindles := clearedSpindles s.rp.spindles
    eddy := []
    fmem := { s.rp.fmem with dest := { s.rp.fmem.dest with store := [], cache := [], ctxs := [], replies := [] }
                             waiting := [], sealedRep := [], entries := [] } } }

theorem State.scrubbed_eq {s : State} {k : Nat} (hk : s.occupant = some k) (h : s.flag .ronpex Reg.secDbg 15 = true) :
    s.scrubbed = (((s.scrubCleared.setReg .ronpex (Reg.spdSeedLo k) 0).setReg .ronpex (Reg.spdSeedHi k) 0).setReg .ronpex Reg.secDbg 7).post
      (plainEvent s.now 0x40 0) := by
  unfold State.scrubbed
  rw [hk]
  exact if_neg (by rw [h]; simp)

theorem State.occupant_lt {s : State} {k : Nat} (h : s.occupant = some k) : k < 64 := by
  unfold State.occupant at h
  split at h
  · rw [← Option.some.inj h]
    exact bits_lt 8 6 _
  · cases h

/-! ### The events of a tenant -/

theorem State.posts_does (l : List (Nat × Event)) (s : State) :
    ∃ o m x, l.foldl (fun t r => t.post r.2) s = { s with out := o, rp := { s.rp with mgmt := m, regs := x } } := by
  induction l generalizing s with
  | nil => exact ⟨s.out, s.rp.mgmt, s.rp.regs, rfl⟩
  | cons r l ih =>
    obtain ⟨o, m, x, h⟩ := s.post_only r.2
    obtain ⟨o', m', x', h'⟩ := ih (s.post r.2)
    exact ⟨o', m', x', by rw [List.foldl_cons, h', h]⟩

/-- Settles O39: an assignment is one register and its acknowledgement a bit of it; a scrub and a release of records end in events alone. -/
theorem membership : Obligations.Membership := by
  intro s
  refine ⟨fun port v w ht => ?_, fun p src k slots epoch node b => ⟨fun h => ?_, fun h => ?_⟩,
    fun port src k slots epoch node b h => ⟨fun hne => ?_, fun heq => ?_⟩, fun k hk hbit => ?_, fun hnone => ?_, ?_, fun at_ e he hdue => ?_⟩
  · have hlog := s.logged_logWrite (Reg.sknPort port) v.toNat w
    have honly : onlyRonpex s ((s.logWrite .ronpex (Reg.sknPort port) v.toNat w).sknPort port v.toNat) := onlyRonpex_of (by simp) (by simp)
    refine ⟨s.wrote .ronpex (Reg.sknPort port) v.toNat w fun t => t.sknPort port v.toNat, rfl, ?_⟩
    rw [State.wrote_ronpex ht]
    obtain ⟨hmine, hothers, hsk⟩ := State.sknPort_does (s.logWrite .ronpex (Reg.sknPort port) v.toNat w) port.isLt v.toNat
    refine ⟨hmine, fun q hq hne => (hothers q hq hne).trans (hlog.reg (by simp only [Reg.sknPort, Reg.logLost]; omega)), hsk.trans ?_, honly⟩
    rw [hlog.frame]
  · obtain ⟨h1, h2, h3, h4, h5⟩ := State.epMgmtIn_assign_does h k slots epoch node b
    exact ⟨s.epMgmtIn p src.node (.assign k b slots epoch node), rfl, h1, h2, h3, h4, h5, onlyPlocen_of (by simp) (by simp)⟩
  · obtain ⟨h1, h2, h3⟩ := State.epMgmtIn_refused_does h (.assign k b slots epoch node)
    exact ⟨s.epMgmtIn p src.node (.assign k b slots epoch node), rfl, h1, h2, h3, onlyPlocen_of (by simp) (by simp)⟩
  · have hin : s.rpMgmtIn { src with port := port } (.assignAck k b slots epoch node) = s.rpAssignAck port (k, b, slots, node) := by
      unfold State.rpMgmtIn
      exact if_neg (by rw [show mtypeOf (.assignAck k b slots epoch node) = 2 from rfl, h]; simp)
    exact congrArg Host.Outcome.next (hin.trans (if_neg hne))
  · have hin : s.rpMgmtIn { src with port := port } (.assignAck k b slots epoch node) = s.rpAssignAck port (k, b, slots, node) := by
      unfold State.rpMgmtIn
      exact if_neg (by rw [show mtypeOf (.assignAck k b slots epoch node) = 2 from rfl, h]; simp)
    refine ⟨s.setFlag .ronpex (Reg.sknPort port) 7 true, congrArg Host.Outcome.next (hin.trans (if_pos heq)),
      State.flag_setFlag_same _ _ _ (by omega), State.fld_setFlag_outside _ _ _ (by omega) (by omega), regsBut_setFlag _ _ _ (by simp), rfl⟩
  · have honly : onlyRonpex s s.scrubbed := onlyRonpex_of (by simp) (by simp)
    have hlinks : s.scrubbed.rp.links = s.rp.links := by simp
    have hk64 := State.occupant_lt hk
    refine ⟨s.scrubbed, rfl, ?_⟩
    rw [State.scrubbed_eq hk hbit] at honly hlinks ⊢
    have hregs (a : Nat) (ha : a < 0xB00000) := State.reg_of_rpRegs (a := a) (State.rpRegs_post
      (((s.scrubCleared.setReg .ronpex (Reg.spdSeedLo k) 0).setReg .ronpex (Reg.spdSeedHi k) 0).setReg .ronpex Reg.secDbg 7)
      (plainEvent s.now 0x40 0)) (by
        simp only [reportRegs, Reg.logLost, Reg.mgtEvtOvf, Reg.mgtMsixPba, List.mem_cons, List.not_mem_nil, or_false, not_or]
        omega)
    obtain ⟨o, m, x, hpost⟩ := State.post_only
      (((s.scrubCleared.setReg .ronpex (Reg.spdSeedLo k) 0).setReg .ronpex (Reg.spdSeedHi k) 0).setReg .ronpex Reg.secDbg 7)
      (plainEvent s.now 0x40 0)
    refine ⟨?_, ?_, ?_, ?_, ?_, ?_, fun n => ?_, hlinks, honly⟩
    · rw [hregs _ (by decide), State.reg_setReg_same]
      decide
    · rw [hregs _ (by simp only [Reg.spdSeedLo]; omega),
        State.reg_setReg_other _ _ _ _ _ _ (.inr (by simp only [Reg.spdSeedLo, Reg.secDbg]; omega)),
        State.reg_setReg_other _ _ _ _ _ _ (.inr (by simp only [Reg.spdSeedLo, Reg.spdSeedHi]; omega)), State.reg_setReg_same]
      decide
    · rw [hregs _ (by simp only [Reg.spdSeedHi]; omega),
        State.reg_setReg_other _ _ _ _ _ _ (.inr (by simp only [Reg.spdSeedHi, Reg.secDbg]; omega)),
        State.reg_setReg_same]
      decide
    · rw [hpost]
      rfl
    · rw [hpost]
      rfl
    · rw [hpost]
      rfl
    · rw [hpost]
      exact look_clearedSpindles s.rp.spindles n
  · refine congrArg Host.Outcome.next ?_
    unfold State.scrubbed
    rw [hnone]
  · have honly : onlyRonpex s s.releaseRecords := onlyRonpex_of (by simp) (by simp)
    obtain ⟨o, m, x, h⟩ := State.posts_does (s.rp.skeins.records.filter fun r => decide (r.1 ≤ s.now))
      (s.modSk fun x => { x with records := x.records.filter fun r => decide (s.now < r.1) })
    have heq : s.releaseRecords = _ := h
    exact ⟨s.releaseRecords, rfl, by rw [heq]; rfl, by simp, honly⟩
  · refine congrArg Host.Outcome.next ?_
    have hnow : (s.rp.skeins.records.filter fun r => decide (r.1 ≤ s.now)) = [(at_, e)] := by
      rw [he]
      simp [hdue]
    have hlater : (s.rp.skeins.records.filter fun r => decide (s.now < r.1)) = [] := by
      rw [he]
      simp [hdue]
    unfold State.releaseRecords State.modSk
    dsimp only
    rw [hnow, hlater]
    rfl

end Sys2Proof.Machine
end

section
/-! SPDM requests (R324-R327): what layer 1 answers, and in which order. -/

namespace Sys2Proof.Machine

open Sys2Proof Sys2Proof.Claims

@[simp] theorem State.sec_setSec (s : State) (p : Part) (x : Security) : (s.setSec p x).sec p = x := by cases p <;> rfl

@[simp] theorem State.setSec_setSec (s : State) (p : Part) (x y : Security) : (s.setSec p x).setSec p y = s.setSec p y := by cases p <;> rfl

theorem State.modSec_setSec (s : State) (p : Part) (x : Security) (f : Security → Security) :
    (s.setSec p x).modSec p f = s.setSec p (f x) := by cases p <;> rfl

theorem State.spdmReply_setSec (s : State) (p : Part) (x : Security) (session : Option Nat) (code : Nat) (body : List Byte) :
    (s.setSec p x).spdmReply p session code body = (s.setSec p { x with answered := x.answered + 1 }).emit
      (.spdm p code body (spdmWords p session x.answered code body)) := by
  unfold State.spdmReply
  dsimp only
  rw [State.modSec_setSec, State.sec_setSec]
  cases p <;> cases session <;> rfl

/-- A response that is sent is counted, and no other field of the controller changes with it. -/
theorem tells_of_reply {p : Part} {c : Instr} {session : Option Nat} {s : State} {code : Nat} {body : List Byte} {x : Security}
    (h : exec c s = .next ((s.setSec p x).spdmReply p session code body)) (ha : x.answered = (s.sec p).answered) :
    tells p c session s code body x := by
  rw [State.spdmReply_setSec, ha] at h
  refine ⟨_, h, ?_, ?_, ?_⟩
  · cases p <;> rfl
  · cases p <;> rfl
  · cases p <;> rfl

/-! ### What a request in the transcript leaves as it is -/

theorem asked_neg (s : State) (p : Part) (code : Nat) (req : List Byte) : (asked s p code req).neg = (s.sec p).neg := rfl

theorem asked_sessions (s : State) (p : Part) (code : Nat) (req : List Byte) : (asked s p code req).sessions = (s.sec p).sessions := rfl

theorem asked_isOpen (s : State) (p : Part) (code : Nat) (req : List Byte) (i : Nat) :
    (asked s p code req).isOpen i = (s.sec p).isOpen i := rfl

theorem chain_asked (s : State) (p : Part) (code : Nat) (req : List Byte) : (s.setSec p (asked s p code req)).chain p = s.chain p := by
  cases p <;> rfl

theorem measure_asked (s : State) (p : Part) (code : Nat) (req : List Byte) :
    (s.setSec p (asked s p code req)).measure p = s.measure p := by
  funext i
  cases p <;> rfl

theorem measured_asked (s : State) (p : Part) (code : Nat) (req : List Byte) (i : Nat) :
    (s.setSec p (asked s p code req)).measured p i = s.measured p i := by
  unfold State.measured
  rw [measure_asked]

/-! ### The answers -/

theorem State.modSec_asked (s : State) (p : Part) (code : Nat) (req : List Byte) :
    (s.modSec p fun x => { x with msgs := (if code = 0x84 then [] else x.msgs) ++ [(code, req)] }) = s.setSec p (asked s p code req) := rfl

/-- The body of a response that answers a request in the transcript. -/
theorem response_eq (s : State) (p : Part) (code : Nat) (req m : List Byte) :
    Config.spdmResponse ((asked s p code req).cdi1 p) (asked s p code req).answered (asked s p code req).msgs code req m
      = response s p code req m := by
  cases p <;> rfl

theorem leBytes_error : leBytes 2 4 = [4, 0] ∧ leBytes 2 1 = [1, 0] ∧ leBytes 2 2 = [2, 0] ∧ leBytes 2 6 = [6, 0] ∧ leBytes 2 10 = [10, 0] := by
  decide

section
variable {s : State} {p : Part} (req : List Byte)

/-- Which requests are answered: the version at once, the others in their order. -/
theorem State.spdmAnswer_version (o : Option Nat) (slot : Nat) : s.spdmAnswer p 0x84 o slot req
    = (s.setSec p { asked s p 0x84 req with neg := 1 }).spdmReply p o 0x04 (response s p 0x84 req []) := by
  cases p <;> rfl

theorem State.spdmAnswer_capabilities (o : Option Nat) (slot : Nat) : s.spdmAnswer p 0xE1 o slot req
    = if (s.sec p).neg = 1 then (s.setSec p { asked s p 0xE1 req with neg := 2 }).spdmReply p o 0x61 (response s p 0xE1 req [])
      else (s.setSec p (asked s p 0xE1 req)).spdmError p o 4 := by
  cases p <;> rfl

theorem State.spdmAnswer_algorithms (o : Option Nat) (slot : Nat) : s.spdmAnswer p 0xE3 o slot req
    = if (s.sec p).neg = 2 then (s.setSec p { asked s p 0xE3 req with neg := 3 }).spdmReply p o 0x63 (response s p 0xE3 req [])
      else (s.setSec p (asked s p 0xE3 req)).spdmError p o 4 := by
  cases p <;> rfl

/-- Before the algorithms are settled, the other requests are refused. -/
theorem State.spdmAnswer_early {code : Nat} (hc : code ∈ [0x81, 0x82, 0x83, 0xE0, 0xE4, 0xE5, 0xE9, 0xE8, 0xEC]) (hneg : (s.sec p).neg ≠ 3)
    (o : Option Nat) (slot : Nat) : s.spdmAnswer p code o slot req = (s.setSec p (asked s p code req)).spdmError p o 4 := by
  have h1 : code ≠ 0x84 ∧ code ≠ 0xE1 ∧ code ≠ 0xE3 := by
    simp only [List.mem_cons, List.not_mem_nil, or_false] at hc
    omega
  unfold State.spdmAnswer
  rw [State.modSec_asked]
  simp only [State.sec_setSec, h1, if_false, asked_neg]
  exact if_pos hneg

section
variable (hneg : (s.sec p).neg = 3)
include hneg

theorem State.spdmAnswer_digests (o : Option Nat) (slot : Nat) : s.spdmAnswer p 0x81 o slot req
    = (s.setSec p (asked s p 0x81 req)).spdmReply p o 0x01 (response s p 0x81 req (s.chain p)) := by
  unfold State.spdmAnswer
  rw [State.modSec_asked]
  simp [asked_neg, hneg, chain_asked, response_eq]

theorem State.spdmAnswer_certificate (o : Option Nat) (slot : Nat) : s.spdmAnswer p 0x82 o slot req
    = if slot = 0 then (s.setSec p (asked s p 0x82 req)).spdmReply p o 0x02 (response s p 0x82 req (s.chain p))
      else (s.setSec p (asked s p 0x82 req)).spdmError p o 1 := by
  unfold State.spdmAnswer
  rw [State.modSec_asked]
  simp [asked_neg, hneg, chain_asked, response_eq]

theorem State.spdmAnswer_challenge (o : Option Nat) (slot : Nat) : s.spdmAnswer p 0x83 o slot req
    = if slot = 0 then (s.setSec p (asked s p 0x83 req)).spdmReply p o 0x03 (response s p 0x83 req ((upTo 1 6).flatMap (s.measure p)))
      else (s.setSec p (asked s p 0x83 req)).spdmError p o 1 := by
  unfold State.spdmAnswer
  rw [State.modSec_asked]
  simp [asked_neg, hneg, measure_asked, response_eq]

omit hneg in
theorem State.modSec_spdmReply_restarted (x : Security) (o : Option Nat) (code : Nat) (m : List Byte) (b : Bool) :
    (((s.setSec p x).spdmReply p o code m).modSec p fun x => { x with restarted := x.restarted && b })
      = (s.setSec p { x with restarted := x.restarted && b }).spdmReply p o code m := by
  cases p <;> rfl

theorem State.spdmAnswer_measurements {o : Option Nat} (ho : ∀ k, o = some k → (s.sec p).isOpen k = true) {i : Nat} (hi : i ≤ 6 ∨ i = 255) :
    s.spdmAnswer p 0xE0 o i req
      = (s.setSec p { asked s p 0xE0 req with restarted := (s.sec p).restarted && !(i == 5 || i == 255) }).spdmReply p o 0x60
          (response s p 0xE0 req (s.measured p i)) := by
  have hslot : ¬(6 < i ∧ i ≠ 255) := by omega
  have hready : ¬(asked s p 0xE0 req).neg ≠ 3 := by simp [asked_neg, hneg]
  unfold State.spdmAnswer
  rw [State.modSec_asked]
  cases o with
  | none =>
    simp only [State.sec_setSec, hready, hslot, measured_asked, response_eq, Nat.reduceEqDiff, reduceIte, Bool.false_eq_true]
    exact State.modSec_spdmReply_restarted _ _ _ _ _
  | some k =>
    simp only [State.sec_setSec, hready, hslot, measured_asked, response_eq, Nat.reduceEqDiff, reduceIte, asked_isOpen, ho k rfl,
      Bool.not_true, Bool.false_eq_true]
    exact State.modSec_spdmReply_restarted _ _ _ _ _

theorem State.spdmAnswer_measurements_closed {k : Nat} (hk : (s.sec p).isOpen k = false) (i : Nat) :
    s.spdmAnswer p 0xE0 (some k) i req = (s.setSec p (asked s p 0xE0 req)).spdmError p (some k) 2 := by
  unfold State.spdmAnswer
  rw [State.modSec_asked]
  simp [asked_neg, hneg, asked_isOpen, hk]

theorem State.spdmAnswer_keyExchange (o : Option Nat) (slot : Nat) : s.spdmAnswer p 0xE4 o slot req
    = if spdmParam2 req ≠ 0 then (s.setSec p (asked s p 0xE4 req)).spdmError p o 1
      else if 4 ≤ (s.sec p).sessions.length then (s.setSec p (asked s p 0xE4 req)).spdmError p o 10
      else (s.setSec p { asked s p 0xE4 req with
        sessions := (s.sec p).sessions ++ [{ id := (s.sec p).nextSession, finished := false, updates := 0 }]
        nextSession := (s.sec p).nextSession + 1 }).spdmReply p o 0x64 (response s p 0xE4 req ((upTo 1 6).flatMap (s.measure p))) := by
  unfold State.spdmAnswer
  rw [State.modSec_asked]
  simp [asked_neg, hneg, measure_asked, response_eq, State.modSec_setSec]
  rfl

theorem State.spdmAnswer_finish (i slot : Nat) : s.spdmAnswer p 0xE5 (some i) slot req
    = if ((s.sec p).sessions.any fun y => some y.id == some i && !y.finished) then
        if !Config.spdmFinishVerifies ((s.sec p).cdi1 p) (asked s p 0xE5 req).msgs req then
          (s.setSec p { asked s p 0xE5 req with
            sessions := (s.sec p).sessions.filter fun y : Session => some y.id != some i }).spdmError p none 6
        else (s.setSec p ((asked s p 0xE5 req).sessionSet (some i) fun y => { y with finished := true })).spdmReply p (some i)
            0x65 (response s p 0xE5 req [])
      else (s.setSec p (asked s p 0xE5 req)).spdmError p (some i) 2 := by
  have hready : ¬(asked s p 0xE5 req).neg ≠ 3 := by simp [asked_neg, hneg]
  unfold State.spdmAnswer
  rw [State.modSec_asked]
  simp only [State.sec_setSec, hready, response_eq, State.modSec_setSec, Nat.reduceEqDiff, reduceIte]
  rfl

/-- A request of a session that is not open. -/
theorem State.spdmAnswer_closed {i : Nat} (hi : (s.sec p).isOpen i = false) {code : Nat} (hc : code ∈ [0xE9, 0xE8, 0xEC]) (slot : Nat) :
    s.spdmAnswer p code (some i) slot req = (s.setSec p (asked s p code req)).spdmError p (some i) 2 := by
  have hready : ¬(asked s p code req).neg ≠ 3 := by simp [asked_neg, hneg]
  have hcodes : code ≠ 0x84 ∧ code ≠ 0xE1 ∧ code ≠ 0xE3 ∧ code ≠ 0x81 ∧ code ≠ 0x82 ∧ code ≠ 0x83 ∧ code ≠ 0xE0 ∧ code ≠ 0xE4
      ∧ code ≠ 0xE5 := by
    simp only [List.mem_cons, List.not_mem_nil, or_false] at hc
    omega
  unfold State.spdmAnswer
  rw [State.modSec_asked]
  simp only [State.sec_setSec, hready, hcodes, reduceIte, asked_isOpen, hi, Bool.not_false, true_or]

section
variable {i : Nat} (hi : (s.sec p).isOpen i = true) (slot : Nat)
include hi

theorem State.spdmAnswer_keyUpdate : s.spdmAnswer p 0xE9 (some i) slot req
    = (s.setSec p ((asked s p 0xE9 req).sessionSet (some i) fun y => { y with updates := y.updates + 1 })).spdmReply p (some i) 0x69
        (response s p 0xE9 req []) := by
  have hready : ¬(asked s p 0xE9 req).neg ≠ 3 := by simp [asked_neg, hneg]
  unfold State.spdmAnswer
  rw [State.modSec_asked]
  simp only [State.sec_setSec, hready, response_eq, State.modSec_setSec, Nat.reduceEqDiff, reduceIte, asked_isOpen, hi, Bool.not_true,
    Bool.false_eq_true, false_or, Option.isNone_some]

theorem State.spdmAnswer_heartbeat : s.spdmAnswer p 0xE8 (some i) slot req
    = (s.setSec p (asked s p 0xE8 req)).spdmReply p (some i) 0x68 (response s p 0xE8 req []) := by
  have hready : ¬(asked s p 0xE8 req).neg ≠ 3 := by simp [asked_neg, hneg]
  unfold State.spdmAnswer
  rw [State.modSec_asked]
  simp only [State.sec_setSec, hready, response_eq, Nat.reduceEqDiff, reduceIte, asked_isOpen, hi, Bool.not_true,
    Bool.false_eq_true, false_or, Option.isNone_some]

theorem State.spdmAnswer_endSession : s.spdmAnswer p 0xEC (some i) slot req
    = (s.setSec p { asked s p 0xEC req with sessions := (s.sec p).sessions.filter fun y : Session => some y.id != some i }).spdmReply p
        (some i) 0x6C (response s p 0xEC req []) := by
  have hready : ¬(asked s p 0xEC req).neg ≠ 3 := by simp [asked_neg, hneg]
  unfold State.spdmAnswer
  rw [State.modSec_asked]
  simp only [State.sec_setSec, hready, response_eq, State.modSec_setSec, Nat.reduceEqDiff, reduceIte, asked_isOpen, hi, Bool.not_true,
    Bool.false_eq_true, false_or, Option.isNone_some]
  rfl

end

end

end

/-! ### The obligation -/

theorem Security.sessionSet_eq (x : Security) (i : Nat) (f : Session → Session) :
    x.sessionSet (some i) f = { x with sessions := x.sessions.map fun y : Session => if y.id = i then f y else y } := by
  unfold Security.sessionSet
  congr 1
  refine List.map_congr_left fun y _ => ?_
  by_cases h : y.id = i
  · simp [h]
  · simp [h, Ne.symm h]

theorem sessions_without (l : List Session) (i : Nat) :
    (l.filter fun y => some y.id != some i) = l.filter fun y : Session => decide (y.id ≠ i) :=
  List.filter_congr fun y _ => by simp [bne, beq_eq_decide]

section
variable {s : State} {p : Part} (hr : (s.sec p).restartAt = none)
include hr

theorem State.spdmIn_ready (code : Nat) (o : Option Nat) (slot : Nat) (req : List Byte) :
    s.spdmIn p code o slot req = s.spdmAnswer p code o slot req := by
  unfold State.spdmIn
  rw [hr]
  rfl

/-- A request that is answered at once. -/
theorem tells_of_answer {c : Instr} {code slot : Nat} {o o' : Option Nat} {req : List Byte} (hc : exec c s = .next (s.spdmIn p code o slot req))
    {x : Security} {rc : Nat} {body : List Byte}
    (h : s.spdmAnswer p code o slot req = (s.setSec p x).spdmReply p o' rc body) (ha : x.answered = (s.sec p).answered) :
    tells p c o' s rc body x :=
  tells_of_reply (hc.trans (congrArg Host.Outcome.next ((State.spdmIn_ready hr _ _ _ _).trans h))) ha

/-- A request that is refused at once. -/
theorem tells_of_refusal {c : Instr} {code slot e : Nat} {o o' : Option Nat} {req : List Byte}
    (hc : exec c s = .next (s.spdmIn p code o slot req)) {x : Security}
    (h : s.spdmAnswer p code o slot req = (s.setSec p x).spdmError p o' e) (ha : x.answered = (s.sec p).answered) :
    tells p c o' s 0x7F (leBytes 2 e) x :=
  tells_of_answer hr hc h ha

end

/-- Settles O40: each request has one answer, by where the requests of the transcript have come to. -/
theorem spdmRequests : Obligations.SpdmRequests := by
  intro s p req x hx
  subst hx
  obtain ⟨e4, e1, e2, e6, e10⟩ := leBytes_error
  refine ⟨fun hr => ⟨?_, fun h => ?_, fun h => ?_, fun h => ?_, fun h => ?_, fun h slot i o c hc => ?_, fun hneg => ?_⟩, fun hr => ?_⟩
  · exact tells_of_answer hr rfl (State.spdmAnswer_version req none 0) rfl
  · exact tells_of_answer hr rfl ((State.spdmAnswer_capabilities req none 0).trans (if_pos h)) rfl
  · rw [← e4]
    exact tells_of_refusal hr rfl ((State.spdmAnswer_capabilities req none 0).trans (if_neg h)) rfl
  · exact tells_of_answer hr rfl ((State.spdmAnswer_algorithms req none 0).trans (if_pos h)) rfl
  · rw [← e4]
    exact tells_of_refusal hr rfl ((State.spdmAnswer_algorithms req none 0).trans (if_neg h)) rfl
  · rw [← e4]
    simp only [List.mem_cons, List.not_mem_nil, or_false] at hc
    rcases hc with rfl | rfl | rfl | rfl | rfl | rfl | rfl | rfl | rfl <;>
      exact tells_of_refusal hr rfl (State.spdmAnswer_early req (by simp) h _ _) rfl
  · refine ⟨?_, ?_, ?_, fun slot hslot => ⟨?_, ?_⟩, fun i o hi ho => ?_, fun h => ?_, fun h hlen => ?_, fun h hlen => ?_, fun i hi => ?_,
      fun i hi => ?_, fun i hi => ⟨?_, ?_, ?_⟩, fun i hi => ⟨?_, ?_, ?_, ?_⟩⟩
    · exact tells_of_answer hr rfl (State.spdmAnswer_digests req hneg none 0) rfl
    · exact tells_of_answer hr rfl ((State.spdmAnswer_certificate req hneg none 0).trans (if_pos rfl)) rfl
    · exact tells_of_answer hr rfl ((State.spdmAnswer_challenge req hneg none 0).trans (if_pos rfl)) rfl
    · rw [← e1]
      exact tells_of_refusal hr rfl ((State.spdmAnswer_certificate req hneg none slot).trans (if_neg hslot)) rfl
    · rw [← e1]
      exact tells_of_refusal hr rfl ((State.spdmAnswer_challenge req hneg none slot).trans (if_neg hslot)) rfl
    · exact tells_of_answer hr rfl (State.spdmAnswer_measurements req hneg ho hi) rfl
    · rw [← e1]
      exact tells_of_refusal hr rfl ((State.spdmAnswer_keyExchange req hneg none 0).trans (if_pos h)) rfl
    · exact tells_of_answer hr rfl ((State.spdmAnswer_keyExchange req hneg none 0).trans
        ((if_neg (not_not.2 h)).trans (if_neg (Nat.not_le.2 hlen)))) rfl
    · rw [← e10]
      exact tells_of_refusal hr rfl ((State.spdmAnswer_keyExchange req hneg none 0).trans ((if_neg (not_not.2 h)).trans (if_pos hlen))) rfl
    · obtain ⟨y, hy, hid, hopen⟩ := hi
      have hany : ((s.sec p).sessions.any fun y => some y.id == some i && !y.finished) = true :=
        List.any_eq_true.2 ⟨y, hy, by simp [hid, hopen]⟩
      have hfin := (State.spdmAnswer_finish req hneg i 0).trans (if_pos hany)
      by_cases hv : Config.spdmFinishVerifies ((s.sec p).cdi1 p) (asked s p 0xE5 req).msgs req = true
      · rw [if_pos hv]
        rw [if_neg (by simp [hv]), Security.sessionSet_eq] at hfin
        exact tells_of_answer hr rfl hfin rfl
      · rw [if_neg hv, ← e6]
        rw [if_pos (by simpa using hv), sessions_without] at hfin
        exact tells_of_refusal hr rfl hfin rfl
    · have hany : ¬((s.sec p).sessions.any fun y => some y.id == some i && !y.finished) = true := by
        intro h
        obtain ⟨y, hy, hc⟩ := List.any_eq_true.1 h
        simp only [Bool.and_eq_true, beq_iff_eq, Option.some.injEq, Bool.not_eq_true'] at hc
        simp [hi y hy hc.1] at hc
      rw [← e2]
      exact tells_of_refusal hr rfl ((State.spdmAnswer_finish req hneg i 0).trans (if_neg hany)) rfl
    · have h := State.spdmAnswer_keyUpdate req hneg hi 0
      rw [Security.sessionSet_eq] at h
      exact tells_of_answer hr rfl h rfl
    · exact tells_of_answer hr rfl (State.spdmAnswer_heartbeat req hneg hi 0) rfl
    · have h := State.spdmAnswer_endSession req hneg hi 0
      rw [sessions_without] at h
      exact tells_of_answer hr rfl h rfl
    · rw [← e2]
      exact tells_of_refusal hr rfl (State.spdmAnswer_closed req hneg hi (by decide) 0) rfl
    · rw [← e2]
      exact tells_of_refusal hr rfl (State.spdmAnswer_closed req hneg hi (by decide) 0) rfl
    · rw [← e2]
      exact tells_of_refusal hr rfl (State.spdmAnswer_closed req hneg hi (by decide) 0) rfl
    · rw [← e2]
      exact tells_of_refusal hr rfl (State.spdmAnswer_measurements_closed req hneg hi 1) rfl
  · have heq : s.spdmIn p 0x84 none 0 req = s.setSec p { s.sec p with
        held := (s.sec p).held ++ [{ code := 0x84, session := none, slot := 0, req := req }] } := by
      unfold State.spdmIn
      exact if_pos hr
    refine ⟨_, congrArg Host.Outcome.next heq, ?_, State.sec_setSec _ _ _, ?_⟩
    · cases p <;> rfl
    · cases p <;> rfl

end Sys2Proof.Machine
end

section
/-! What leaves the security controller of the Ronpex as it is. -/

namespace Sys2Proof.Machine

open Sys2Proof Sys2Proof.Claims

/-- The security controller of the Ronpex. -/
def State.rpSec (s : State) : Security := s.rp.sec

@[simp] theorem State.rpSec_eq (s : State) : s.rp.sec = s.rpSec := by rw [State.rpSec]

@[simp] theorem State.rpSec_mk (n f : Nat) (l : List Instr) (o : List Out) (m : SMap Byte) (r : Ronpex) (e : Plocen) :
    State.rpSec { now := n, free := f, pending := l, out := o, hbm := m, rp := r, ep := e } = r.sec := by rw [State.rpSec]

@[simp] theorem Ronpex.setReg_sec (r : Ronpex) (a v : Nat) : (r.setReg a v).sec = r.sec := by rw [Ronpex.setReg]

@[simp] theorem State.rpSec_ite (c : Prop) [Decidable c] (a b : State) :
    (if c then a else b).rpSec = if c then a.rpSec else b.rpSec := by
  split <;> rfl

@[simp] theorem State.rpSec_foldl {α : Type} (g : State → α → State) (h : ∀ t x, (g t x).rpSec = t.rpSec) (l : List α) (s : State) :
    (l.foldl g s).rpSec = s.rpSec := by
  induction l generalizing s with
  | nil => rfl
  | cons x r ih => rw [List.foldl_cons, ih, h]

theorem State.rpSec_getD (o : Option State) (s : State) (h : ∀ t, o = some t → t.rpSec = s.rpSec) : (o.getD s).rpSec = s.rpSec := by
  cases o with
  | none => rfl
  | some t => exact h t rfl

/-! ### Machine/Ops -/

@[simp] theorem State.rpSec_setReg (s : State) (a v : Nat) :
    (s.setReg .ronpex a v).rpSec = s.rpSec := by
  unfold State.setReg
  simp

@[simp] theorem State.rpSec_setFld (s : State) (a lo len v : Nat) :
    (s.setFld .ronpex a lo len v).rpSec = s.rpSec := by
  unfold State.setFld
  simp

@[simp] theorem State.rpSec_satFld (s : State) (a lo len n : Nat) :
    (s.satFld .ronpex a lo len n).rpSec = s.rpSec := by
  unfold State.satFld
  simp

@[simp] theorem State.rpSec_setFlag (s : State) (a i : Nat) (b : Bool) :
    (s.setFlag .ronpex a i b).rpSec = s.rpSec := by
  unfold State.setFlag
  simp

@[simp] theorem State.rpSec_setSource (s : State) (x : Source) :
    (s.setSource .ronpex x).rpSec = s.rpSec := by
  unfold State.setSource
  simp

@[simp] theorem State.rpSec_emit (s : State) (o : Out) :
    (s.emit o).rpSec = s.rpSec := by
  unfold State.emit
  simp

@[simp] theorem State.rpSec_msix (s : State) (v : Nat) :
    (s.msix v).rpSec = s.rpSec := by
  unfold State.msix
  simp

@[simp] theorem State.rpSec_rpLog (s : State) (b : LogBody) :
    (s.rpLog b).rpSec = s.rpSec := by
  unfold State.rpLog
  simp

@[simp] theorem State.rpSec_evtWrite (s : State) (e : Event) :
    (s.evtWrite e).rpSec = s.rpSec := by
  unfold State.evtWrite
  simp

@[simp] theorem State.rpSec_evtOverflow (s : State) :
    s.evtOverflow.rpSec = s.rpSec := by
  unfold State.evtOverflow
  simp

@[simp] theorem State.rpSec_post (s : State) (e : Event) :
    (s.post e).rpSec = s.rpSec := by
  unfold State.post
  simp

@[simp] theorem State.rpSec_pstCell (s : State) (a v : Nat) :
    (s.pstCell a v).rpSec = s.rpSec := by
  unfold State.pstCell
  simp

/-! ### Machine/Send -/

@[simp] theorem State.rpSec_hold (s : State) (dest skein plane planes : Nat) (loc : HeldAt) (m : Msg) (own : Owner) :
    (s.hold .ronpex dest skein plane planes loc m own).1.rpSec = s.rpSec := by
  unfold State.hold
  simp

@[simp] theorem State.rpSec_plog (s : State) (b : LogBody) :
    (s.plog .ronpex b).rpSec = s.rpSec := by
  unfold State.plog
  simp

/-! ### Machine/Flags -/

@[simp] theorem State.rpSec_errsumMsix (s before : State) :
    (s.errsumMsix before).rpSec = s.rpSec := by
  unfold State.errsumMsix
  simp

@[simp] theorem State.rpSec_secError (s : State) (b port : Nat) :
    (s.secError .ronpex b port).rpSec = s.rpSec := by
  unfold State.secError
  simp

/-! ### Machine/CmdOps -/

@[simp] theorem State.rpSec_modMgmt (s : State) (f : MgmtRings → MgmtRings) :
    (s.modMgmt f).rpSec = s.rpSec := by
  unfold State.modMgmt
  simp

@[simp] theorem State.rpSec_cmdEvent (s : State) (r : Running) (status detail : Nat) :
    (s.cmdEvent r status detail).rpSec = s.rpSec := by
  unfold State.cmdEvent
  simp

@[simp] theorem State.rpSec_cmdNext (s : State) :
    s.cmdNext.rpSec = s.rpSec := by
  unfold State.cmdNext
  simp

@[simp] theorem State.rpSec_cmdDone (s : State) (status detail : Nat) :
    (s.cmdDone status detail).rpSec = s.rpSec := by
  unfold State.cmdDone
  split <;> simp

@[simp] theorem State.rpSec_cmdWaited (s : State) (w : CmdWait) (status detail : Nat) :
    (s.cmdWaited w status detail).rpSec = s.rpSec := by
  unfold State.cmdWaited
  simp

/-! ### Machine/SecOps -/

@[simp] theorem State.rpSec_fwEvent (s : State) :
    (s.fwEvent .ronpex).rpSec = s.rpSec := by
  unfold State.fwEvent
  simp

@[simp] theorem State.rpSec_fwLog (s : State) (old : Nat) :
    (s.fwLog .ronpex old).rpSec = s.rpSec := by
  unfold State.fwLog
  simp

@[simp] theorem State.rpSec_raiseSvn (s : State) :
    s.raiseSvn.rpSec = s.rpSec := by
  unfold State.raiseSvn
  simp

end Sys2Proof.Machine
end

section
/-! What leaves the security controller of the Plocen as it is. -/

namespace Sys2Proof.Machine

open Sys2Proof Sys2Proof.Claims

/-- The security controller of the Plocen. -/
def State.epSec (s : State) : Security := s.ep.sec

@[simp] theorem State.epSec_eq (s : State) : s.ep.sec = s.epSec := by rw [State.epSec]

@[simp] theorem State.epSec_mk (n f : Nat) (l : List Instr) (o : List Out) (m : SMap Byte) (r : Ronpex) (e : Plocen) :
    State.epSec { now := n, free := f, pending := l, out := o, hbm := m, rp := r, ep := e } = e.sec := by rw [State.epSec]

@[simp] theorem Plocen.setReg_sec (r : Plocen) (a v : Nat) : (r.setReg a v).sec = r.sec := by rw [Plocen.setReg]

@[simp] theorem State.epSec_ite (c : Prop) [Decidable c] (a b : State) :
    (if c then a else b).epSec = if c then a.epSec else b.epSec := by
  split <;> rfl

@[simp] theorem State.epSec_foldl {α : Type} (g : State → α → State) (h : ∀ t x, (g t x).epSec = t.epSec) (l : List α) (s : State) :
    (l.foldl g s).epSec = s.epSec := by
  induction l generalizing s with
  | nil => rfl
  | cons x r ih => rw [List.foldl_cons, ih, h]

theorem State.epSec_getD (o : Option State) (s : State) (h : ∀ t, o = some t → t.epSec = s.epSec) : (o.getD s).epSec = s.epSec := by
  cases o with
  | none => rfl
  | some t => exact h t rfl

/-! ### Machine/Ops -/

@[simp] theorem State.epSec_setReg (s : State) (a v : Nat) :
    (s.setReg .plocen a v).epSec = s.epSec := by
  unfold State.setReg
  simp

@[simp] theorem State.epSec_setFld (s : State) (a lo len v : Nat) :
    (s.setFld .plocen a lo len v).epSec = s.epSec := by
  unfold State.setFld
  simp

@[simp] theorem State.epSec_satFld (s : State) (a lo len n : Nat) :
    (s.satFld .plocen a lo len n).epSec = s.epSec := by
  unfold State.satFld
  simp

@[simp] theorem State.epSec_setFlag (s : State) (a i : Nat) (b : Bool) :
    (s.setFlag .plocen a i b).epSec = s.epSec := by
  unfold State.setFlag
  simp

@[simp] theorem State.epSec_setSource (s : State) (x : Source) :
    (s.setSource .plocen x).epSec = s.epSec := by
  unfold State.setSource
  simp

@[simp] theorem State.epSec_emit (s : State) (o : Out) :
    (s.emit o).epSec = s.epSec := by
  unfold State.emit
  simp

/-! ### Machine/Send -/

@[simp] theorem State.epSec_hold (s : State) (dest skein plane planes : Nat) (loc : HeldAt) (m : Msg) (own : Owner) :
    (s.hold .plocen dest skein plane planes loc m own).1.epSec = s.epSec := by
  unfold State.hold
  simp

@[simp] theorem State.epSec_epMgmt (s : State) (plane : Nat) (m : Mgmt) :
    (s.epMgmt plane m).epSec = s.epSec := by
  unfold State.epMgmt
  simp

@[simp] theorem State.epSec_epMgmtLowest (s : State) (m : Mgmt) :
    (s.epMgmtLowest m).epSec = s.epSec := by
  unfold State.epMgmtLowest
  split <;> simp

@[simp] theorem State.epSec_epLog (s : State) (b : LogBody) :
    (s.epLog b).epSec = s.epSec := by
  unfold State.epLog
  simp

@[simp] theorem State.epSec_plog (s : State) (b : LogBody) :
    (s.plog .plocen b).epSec = s.epSec := by
  unfold State.plog
  simp

/-! ### Machine/Flags -/

@[simp] theorem State.epSec_modAtt (s : State) (f : Attach → Attach) :
    (s.modAtt f).epSec = s.epSec := by
  unfold State.modAtt
  simp

@[simp] theorem State.epSec_sendFlit (s : State) (kind seq : Nat) (body : List (BitVec 128)) :
    (s.sendFlit kind seq body).epSec = s.epSec := by
  unfold State.sendFlit
  simp

@[simp] theorem State.epSec_sendChunks (n : Nat) (x : List (BitVec 128)) (s : State) :
    (s.sendChunks n x).epSec = s.epSec := by
  induction n generalizing x s with
  | zero => rfl
  | succ n ih =>
    unfold State.sendChunks
    repeat' (first | split | dsimp only)
    all_goals simp [ih]

@[simp] theorem State.epSec_sendTxn (s : State) (t : Txn) :
    (s.sendTxn t).epSec = s.epSec := by
  unfold State.sendTxn
  simp

@[simp] theorem State.epSec_pump (n : Nat) (s : State) :
    (s.pump n).epSec = s.epSec := by
  induction n generalizing s with
  | zero => rfl
  | succ n ih =>
    unfold State.pump
    repeat' (first | split | dsimp only)
    all_goals simp [ih]

@[simp] theorem State.epSec_request (s : State) (l : List AttReq) :
    (s.request l).epSec = s.epSec := by
  unfold State.request
  simp

@[simp] theorem State.epSec_epErr (s : State) (b : Nat) :
    (s.epErr b).epSec = s.epSec := by
  unfold State.epErr
  simp

/-! ### Machine/RingOps -/

@[simp] theorem State.epSec_modRing (s : State) (n : Nat) (f : Ring → Ring) :
    (s.modRing n f).epSec = s.epSec := by
  unfold State.modRing
  simp

@[simp] theorem State.epSec_postCompletion (s : State) (n sub code info cookie : Nat) :
    (s.postCompletion n sub code info cookie).epSec = s.epSec := by
  unfold State.postCompletion
  simp

@[simp] theorem State.epSec_modAct (s : State) (n sub : Nat) (f : Act → Act) :
    (s.modAct n sub f).epSec = s.epSec := by
  unfold State.modAct
  simp

@[simp] theorem State.epSec_dropFront (s : State) (n : Nat) :
    (s.dropFront n).epSec = s.epSec := by
  unfold State.dropFront
  simp

@[simp] theorem State.epSec_settleFront (n : Nat) (s : State) (x : Nat) :
    (s.settleFront n x).epSec = s.epSec := by
  induction n generalizing s x with
  | zero => rfl
  | succ n ih =>
    unfold State.settleFront
    repeat' (first | split | dsimp only)
    all_goals simp [ih]

@[simp] theorem State.epSec_settleRing (s : State) (n : Nat) :
    (s.settleRing n).epSec = s.epSec := by
  unfold State.settleRing
  simp

@[simp] theorem State.epSec_settleAct (s : State) (n sub : Nat) :
    (s.settleAct n sub).epSec = s.epSec := by
  unfold State.settleAct
  split <;> simp

/-! ### Machine/SecOps -/

@[simp] theorem State.epSec_fwLog (s : State) (old : Nat) :
    (s.fwLog .plocen old).epSec = s.epSec := by
  unfold State.fwLog
  simp

end Sys2Proof.Machine
end

section
/-! Keys are installed and destroyed, and layer 1 restarts (R327, R328, R336, R337, R339, R406). -/

namespace Sys2Proof.Machine

open Sys2Proof Sys2Proof.Claims

theorem State.sec_modSec (s : State) (p : Part) (f : Security → Security) : (s.modSec p f).sec p = f (s.sec p) := by cases p <;> rfl

theorem State.reg_modSec (s : State) (p q : Part) (f : Security → Security) (a : Nat) : (s.modSec p f).reg q a = s.reg q a := by
  cases p <;> cases q <;> rfl

/-- A response is sent and counted, and no register and no other field of the controller changes with it. -/
theorem State.spdmReply_does (s : State) (p : Part) (o : Option Nat) (code : Nat) (body : List Byte) :
    (s.spdmReply p o code body).out = .spdm p code body (spdmWords p o (s.sec p).answered code body) :: s.out
      ∧ (s.spdmReply p o code body).sec p = { s.sec p with answered := (s.sec p).answered + 1 }
      ∧ ∀ a, (s.spdmReply p o code body).reg p a = s.reg p a := by
  have h := s.spdmReply_setSec p (s.sec p) o code body
  rw [show s.setSec p (s.sec p) = s by cases p <;> rfl] at h
  rw [h]
  refine ⟨?_, ?_, fun a => ?_⟩
  · cases p <;> rfl
  · cases p <;> rfl
  · cases p <;> rfl

/-! ### The keys -/

/-- The controller with a key in its place. -/
def Security.keyed (x : Security) (kind skein : Nat) (key : BitVec 512) : Security :=
  if kind = 1 then { x with model := some key }
  else if kind = 2 then { x with sky := some key, skyCnt := [], skyOver := [] }
  else { x with fkeys := (x.fkeys.filter fun k => k.1 != skein) ++ [(skein, key)] }

theorem Security.keyed_rest (x : Security) (kind skein : Nat) (key : BitVec 512) :
    (x.keyed kind skein key).answered = x.answered ∧ (x.keyed kind skein key).sessions = x.sessions := by
  unfold Security.keyed
  split
  · exact ⟨rfl, rfl⟩
  · split <;> exact ⟨rfl, rfl⟩

/-- Which keys fit a part. -/
theorem keyFits_cases {p : Part} {kind k : Nat} (h : keyFits p kind k = true) :
    k < 64 ∧ ((p = .ronpex ∧ kind = 3) ∨ (p = .plocen ∧ (kind = 1 ∨ kind = 2))) := by
  unfold keyFits at h
  cases p <;> simp at h <;> exact ⟨h.2, by simp [h.1.1]⟩

theorem State.keySet_ronpex (s : State) (k id : Nat) (key : BitVec 512) : s.keySet .ronpex 3 k id key
    = (((s.modSec .ronpex fun x => x.keyed 3 k key).setReg .ronpex (Reg.secFkeyId k) id).setFlag .ronpex (Reg.secFkeyStat k) 0 true).rpLog
        (keyBody s.now 4 3 k (s.reg .ronpex (Reg.secFkeyId k)) id) := rfl

theorem State.keySet_model (s : State) (k id : Nat) (key : BitVec 512) : s.keySet .plocen 1 k id key
    = ((s.modSec .plocen fun x => x.keyed 1 k key).setReg .plocen Reg.epSecModelId id).epLog
        (keyBody s.now 4 1 k (s.reg .plocen Reg.epSecModelId) id) := rfl

/-- The runs of the sky plane begin afresh with its key. -/
def State.skyFresh (s : State) : State :=
  s.modEw fun w => { w with skyTx := [], skyRx := w.skyRx.map fun e : Nat × SkyRun => (e.1, { e.2 with tag := 0, count := 0 }) }

theorem State.keySet_sky (s : State) (k id : Nat) (key : BitVec 512) : s.keySet .plocen 2 k id key
    = ((s.skyFresh.modSec .plocen fun x => x.keyed 2 k key).setReg .plocen Reg.epSecSkyId id).epLog
        (keyBody s.now 4 2 k (s.reg .plocen Reg.epSecSkyId) id) := rfl

/-- The key is in its place, and its KEY_ID is shown. -/
theorem State.keySet_does (s : State) {p : Part} {kind k : Nat} (h : keyFits p kind k = true) (id : Word) (key : BitVec 512) :
    (s.keySet p kind k id.toNat key).sec p = (s.sec p).keyed kind k key
      ∧ (s.keySet p kind k id.toNat key).reg p (keyIdReg kind k) = id.toNat
      ∧ (kind = 3 → (s.keySet p kind k id.toNat key).flag .ronpex (Reg.secFkeyStat k) 0 = true) := by
  have hid : id.toNat % 2 ^ 32 = id.toNat := Nat.mod_eq_of_lt id.isLt
  obtain ⟨hk, ⟨rfl, rfl⟩ | ⟨rfl, rfl | rfl⟩⟩ := keyFits_cases h
  · rw [State.keySet_ronpex]
    have hout (a : Nat) (ha : a < 0x900500) := (State.logged_rpLog (((s.modSec .ronpex fun x => x.keyed 3 k key).setReg .ronpex
      (Reg.secFkeyId k) id.toNat).setFlag .ronpex (Reg.secFkeyStat k) 0 true)
      (keyBody s.now 4 3 k (s.reg .ronpex (Reg.secFkeyId k)) id.toNat)).reg (a := a) (by simp only [Reg.logLost]; omega)
    refine ⟨?_, ?_, fun _ => ?_⟩
    · show State.rpSec _ = _
      simp
      rfl
    · show State.reg _ .ronpex (Reg.secFkeyId k) = _
      rw [hout _ (by simp only [Reg.secFkeyId]; omega),
        State.reg_setFlag_other _ _ _ _ _ _ _ (.inr (by simp only [Reg.secFkeyStat, Reg.secFkeyId]; omega)), State.reg_setReg_same, hid]
    · rw [State.flag_congr (hout _ (by simp only [Reg.secFkeyStat]; omega)), State.flag_setFlag_same _ _ _ (by omega)]
  · rw [State.keySet_model]
    refine ⟨?_, ?_, fun h => by cases h⟩
    · show State.epSec _ = _
      simp
      rfl
    · show State.reg _ .plocen Reg.epSecModelId = _
      rw [State.reg_of_epOwnRegs (State.epOwnRegs_epLog _ _) (by decide), State.reg_setReg_same, hid]
  · rw [State.keySet_sky]
    refine ⟨?_, ?_, fun h => by cases h⟩
    · show State.epSec _ = _
      simp
      rfl
    · show State.reg _ .plocen Reg.epSecSkyId = _
      rw [State.reg_of_epOwnRegs (State.epOwnRegs_epLog _ _) (by decide), State.reg_setReg_same, hid]

/-- The controller without a key. -/
def Security.unkeyed (x : Security) (kind skein : Nat) : Security :=
  if kind = 1 then { x with model := none } else if kind = 2 then { x with sky := none }
  else { x with fkeys := x.fkeys.filter fun k => k.1 != skein }

theorem Security.unkeyed_rest (x : Security) (kind skein : Nat) :
    (x.unkeyed kind skein).answered = x.answered ∧ (x.unkeyed kind skein).sessions = x.sessions := by
  unfold Security.unkeyed
  split
  · exact ⟨rfl, rfl⟩
  · split <;> exact ⟨rfl, rfl⟩

theorem State.destroyFkey_sec (s : State) (k : Nat) : (s.destroyFkey k).rp.sec = s.rp.sec.unkeyed 3 k := by
  unfold State.destroyFkey
  split
  · show State.rpSec _ = _
    simp
    rfl
  · next h =>
    have hall : ∀ e ∈ s.rp.sec.fkeys, (e.1 != k) = true := fun e he => by
      by_contra hc
      exact h (List.any_eq_true.2 ⟨e, he, by simpa using hc⟩)
    show s.rp.sec = { s.rp.sec with fkeys := s.rp.sec.fkeys.filter fun e => e.1 != k }
    rw [List.filter_eq_self.2 hall]

theorem State.destroyEpKey_model (s : State) (k : Nat) : (s.destroyEpKey 1).ep.sec = s.ep.sec.unkeyed 1 k := by
  cases h : s.ep.sec.model with
  | none =>
    have heq : s.destroyEpKey 1 = s := if_pos (by show (!s.ep.sec.model.isSome) = true; rw [h]; rfl)
    rw [heq]
    show s.ep.sec = { s.ep.sec with model := none }
    rw [← h]
  | some key =>
    have hnot : ¬(!s.ep.sec.model.isSome) = true := by
      rw [h]
      simp
    refine (congrArg (fun t : State => t.ep.sec) (if_neg hnot)).trans ?_
    show State.epSec _ = _
    simp
    rfl

theorem State.destroyEpKey_sky (s : State) (k : Nat) : (s.destroyEpKey 2).ep.sec = s.ep.sec.unkeyed 2 k := by
  cases h : s.ep.sec.sky with
  | none =>
    have heq : s.destroyEpKey 2 = s := if_pos (by show (!s.ep.sec.sky.isSome) = true; rw [h]; rfl)
    rw [heq]
    show s.ep.sec = { s.ep.sec with sky := none }
    rw [← h]
  | some key =>
    have hnot : ¬(!s.ep.sec.sky.isSome) = true := by
      rw [h]
      simp
    refine (congrArg (fun t : State => t.ep.sec) (if_neg hnot)).trans ?_
    show State.epSec _ = _
    simp
    rfl

theorem State.keyGone_sec (s : State) {p : Part} {kind k : Nat} (h : keyFits p kind k = true) :
    (s.keyGone p kind k).sec p = (s.sec p).unkeyed kind k := by
  obtain ⟨-, ⟨rfl, rfl⟩ | ⟨rfl, rfl | rfl⟩⟩ := keyFits_cases h
  · exact s.destroyFkey_sec k
  · exact s.destroyEpKey_model k
  · exact s.destroyEpKey_sky k

/-! ### The answers to INSTALL and DESTROY -/

theorem leBytes_key : leBytes 1 1 ++ leBytes 1 0 = [1, 0] ∧ leBytes 1 2 ++ leBytes 1 0 = [2, 0] ∧ leBytes 1 1 ++ leBytes 1 4 = [1, 4]
    ∧ leBytes 1 2 ++ leBytes 1 4 = [2, 4] := by decide

theorem State.install_done {s : State} {p : Part} {i kind k : Nat} (hr : (s.sec p).restartAt = none) (hopen : (s.sec p).isOpen i = true)
    (hfits : keyFits p kind k = true) (hskein : s.keySkein p k = true) (hstable : s.keyStable p = false ∨ (s.sec p).fw = 0)
    (hconf : kind = 3 → s.isConf k = true) (id : Word) (key : BitVec 512) :
    s.install p (some i) kind k id key false = (s.keySet p kind k id.toNat key).keyReply p (some i) 1 0 := by
  have hst : s.installStatus p (some i) kind k false = 0 := by
    unfold State.installStatus
    rw [if_neg (by simp [hfits, hopen]), if_neg (by rcases hstable with h | h <;> simp [h]), if_neg (by simp [hskein]),
      if_neg (by rintro ⟨h3, hc⟩; simp [hconf h3] at hc)]
  unfold State.install
  rw [hr]
  exact if_pos hst

theorem State.destroy_done {s : State} {p : Part} {i kind k : Nat} (hr : (s.sec p).restartAt = none) (hopen : (s.sec p).isOpen i = true)
    (hfits : keyFits p kind k = true) (hskein : s.keySkein p k = true) :
    s.destroy p (some i) kind k false = (s.keyGone p kind k).keyReply p (some i) 2 0 := by
  unfold State.destroy
  rw [hr]
  refine (if_neg (by simp)).trans ((if_neg (by simp [hfits, hopen])).trans (if_neg (by simp [hskein])))

theorem State.install_refused {s : State} {p : Part} {i kind k : Nat} (hr : (s.sec p).restartAt = none)
    (h : (s.sec p).isOpen i = false ∨ keyFits p kind k = false) (id : Word) (key : BitVec 512) :
    s.install p (some i) kind k id key false = s.keyRefused p (some i) 1 4
      ∧ s.destroy p (some i) kind k false = s.keyRefused p (some i) 2 4 := by
  have hc : (false || !keyFits p kind k || !(Option.any (s.sec p).isOpen (some i))) = true := by
    rcases h with h | h <;> simp [h]
  have hst : s.installStatus p (some i) kind k false = 4 := if_pos hc
  constructor
  · unfold State.install
    rw [hr]
    refine (if_neg (by simp)).trans ?_
    dsimp only
    rw [hst]
    exact if_neg (by omega)
  · unfold State.destroy
    rw [hr]
    exact (if_neg (by simp)).trans (if_pos hc)

/-- The register that a part shows its security errors in. -/
def secErrReg (p : Part) : Nat := match p with
  | .ronpex => Reg.secErr
  | .plocen => Reg.epSecErr

theorem State.secError_does (s : State) (p : Part) {b : Nat} (hb : b < 32) :
    (s.secError p b 0).sec p = s.sec p ∧ (s.secError p b 0).flag p (secErrReg p) b = true := by
  cases p with
  | ronpex =>
    obtain ⟨o, m, x, h⟩ := s.secError_ronpex_only b 0
    refine ⟨by rw [h]; rfl, ?_⟩
    have hregs : (s.secError .ronpex b 0).rpRegs = (s.setFlag .ronpex Reg.secErr b true).rpRegs := by
      unfold State.secError
      simp
    exact (State.flag_congr (State.reg_of_rpRegs hregs (by decide)) b).trans (State.flag_setFlag_same _ _ _ hb)
  | plocen =>
    obtain ⟨o, a, x, h⟩ := s.secError_plocen_only b 0
    refine ⟨by rw [h]; rfl, ?_⟩
    have hr := State.raised_epErr (s.setFlag .plocen Reg.epSecErr b true) (b := errSecurity) (by decide)
    exact (State.flag_congr (hr.regs _ (by decide)) b).trans (State.flag_setFlag_same _ _ _ hb)

theorem State.keyRefused_does (s : State) (p : Part) (o : Option Nat) (op : Nat) :
    (s.keyRefused p o op 4).out.head?
        = some (.spdm p 0x7E (leBytes 1 op ++ leBytes 1 4) (spdmWords p o (s.sec p).answered 0x7E (leBytes 1 op ++ leBytes 1 4)))
      ∧ (s.keyRefused p o op 4).sec p = { s.sec p with answered := (s.sec p).answered + 1 }
      ∧ (s.keyRefused p o op 4).flag p (secErrReg p) 3 = true := by
  obtain ⟨hsec, hflag⟩ := s.secError_does p (b := 3) (by omega)
  obtain ⟨hout, hsec', hreg⟩ := (s.secError p 3 0).spdmReply_does p o 0x7E (leBytes 1 op ++ leBytes 1 4)
  unfold State.keyRefused State.keyReply
  refine ⟨?_, ?_, (State.flag_congr (hreg _) 3).trans hflag⟩
  · rw [hout, hsec]
    rfl
  · rw [hsec', hsec]

/-! ### The restart of layer 1 -/

/-- Layer 1 after a restart, with its sessions ended. -/
def Security.back (x : Security) : Security :=
  { x with restartAt := none, activating := false, restarted := true, sessions := [], held := [] }

theorem State.layer1Back_sec {s : State} {p : Part} (h : (s.sec p).held = []) : (s.layer1Back p).sec p = (s.sec p).back := by
  unfold State.layer1Back
  dsimp only
  rw [h]
  cases p with
  | plocen => rfl
  | ronpex =>
    show State.rpSec _ = _
    simp only [List.foldl_nil, State.rpSec_cmdNext]
    split
    · simp only [State.rpSec_cmdEvent, State.rpSec_modMgmt, State.rpSec_foldl _ (fun t x => State.rpSec_post t x)]
      rfl
    · simp only [State.rpSec_modMgmt, State.rpSec_foldl _ (fun t x => State.rpSec_post t x)]
      rfl

theorem State.sec_fwState (s : State) (p : Part) (n : Nat) : (s.fwState p n).sec p = { s.sec p with fw := n } := by
  unfold State.fwState
  cases p with
  | ronpex =>
    show State.rpSec _ = _
    simp
    rfl
  | plocen =>
    show State.epSec _ = _
    simp [State.fwEvent]
    rfl

theorem State.layer1Done_restarted {s : State} {p : Part} {t0 : Nat} (hheld : (s.sec p).held = []) (hr : (s.sec p).restartAt = some t0)
    (ha : (s.sec p).activating = false) : (s.layer1Done p).sec p = (s.sec p).back := by
  have heq : s.layer1Done p = s.layer1Back p := by
    unfold State.layer1Done
    simp [hr, ha]
  rw [heq, State.layer1Back_sec hheld]

theorem State.layer1Done_activated {s : State} {p : Part} {t0 : Nat} (hheld : (s.sec p).held = []) (hr : (s.sec p).restartAt = some t0)
    (ha : (s.sec p).activating = true) :
    (s.layer1Done p).sec p = { (s.sec p).back with slotB := !(s.sec p).slotB, fw := 0 } := by
  have hsec : ((s.modSec p fun x => { x with slotB := !x.slotB }).fwState p 0).sec p = { s.sec p with slotB := !(s.sec p).slotB, fw := 0 } := by
    rw [State.sec_fwState, State.sec_modSec]
  have hback := State.layer1Back_sec (s := (s.modSec p fun x => { x with slotB := !x.slotB }).fwState p 0) (p := p) (by rw [hsec]; exact hheld)
  rw [hsec] at hback
  unfold State.layer1Done
  simp only [hr, ha, Option.isNone_some, Bool.false_eq_true, if_false, Bool.not_true]
  cases p with
  | plocen => exact hback
  | ronpex =>
    rw [if_pos rfl]
    show State.rpSec _ = _
    rw [State.rpSec_cmdWaited, State.rpSec_raiseSvn]
    exact hback

theorem State.fwFailed_early {s : State} {p : Part} {t0 : Nat} (hr : (s.sec p).restartAt = some t0) (h : s.now < t0 + 50000000) :
    s.fwFailed p = s := by
  unfold State.fwFailed
  rw [hr]
  exact if_pos (.inr h)

theorem State.fwFailed_due {s : State} {p : Part} {t0 : Nat} (hheld : (s.sec p).held = []) (hr : (s.sec p).restartAt = some t0)
    (ha : (s.sec p).activating = true) (h : t0 + 50000000 ≤ s.now) : (s.fwFailed p).sec p = { (s.sec p).back with fw := 0 } := by
  have hback := State.layer1Back_sec (s := s.fwState p 0) (p := p) (by rw [State.sec_fwState]; exact hheld)
  rw [State.sec_fwState] at hback
  unfold State.fwFailed
  rw [hr]
  dsimp only
  rw [if_neg (by simp [ha]; omega)]
  cases p with
  | plocen => exact hback
  | ronpex =>
    rw [if_pos rfl]
    show State.rpSec _ = _
    rw [State.rpSec_cmdWaited]
    exact hback

/-- Settles O41: an installed key is one field of the controller, a destroyed one is gone from it, and a restart ends its sessions. -/
theorem keysAndRestarts : Obligations.KeysAndRestarts := by
  obtain ⟨e10, e20, e14, e24⟩ := leBytes_key
  refine ⟨fun s p i kind k id key hr => ⟨fun hopen hfits hskein => ⟨fun hstable hconf => ?_, ?_⟩, fun h => ?_⟩, fun s p t0 hheld hr =>
    ⟨fun ha => ?_, fun ha => ⟨?_, fun hearly => ?_, fun hdue => ?_⟩⟩⟩
  · have honly : onlyPart p s (s.install p (some i) kind k id key false) := onlyPart_of (by simp) (by simp)
    refine ⟨s.install p (some i) kind k id key false, rfl, ?_⟩
    rw [State.install_done hr hopen hfits hskein hstable hconf] at honly ⊢
    obtain ⟨hset, hid, hstat⟩ := s.keySet_does hfits id key
    obtain ⟨hans, hses⟩ := (s.sec p).keyed_rest kind k key
    obtain ⟨hout, hsec, hreg⟩ := (s.keySet p kind k id.toNat key).spdmReply_does p (some i) 0x7E (leBytes 1 1 ++ leBytes 1 0)
    rw [hset] at hsec hout
    rw [hans] at hout
    unfold State.keyReply at honly ⊢
    rw [e10] at honly hsec hout hreg ⊢
    refine ⟨by rw [hout]; rfl, (hreg _).trans hid, fun h => ?_, fun h => ?_, fun h => ?_, ?_, honly⟩
    · subst h
      rw [hsec]
      exact ⟨rfl, rfl⟩
    · subst h
      rw [hsec]
      exact ⟨rfl, rfl⟩
    · subst h
      have hp : p = .ronpex := by
        obtain ⟨-, ⟨hp, -⟩ | ⟨-, hk | hk⟩⟩ := keyFits_cases hfits
        · exact hp
        · cases hk
        · cases hk
      subst hp
      rw [hsec]
      refine ⟨List.mem_append_right _ (List.mem_singleton.2 rfl), (State.flag_congr (hreg _) 0).trans (hstat rfl), fun e he hne => ?_⟩
      exact List.mem_append_left _ (List.mem_filter.2 ⟨he, by simpa using hne⟩)
    · rw [hsec]
      exact hses
  · have honly : onlyPart p s (s.destroy p (some i) kind k false) := onlyPart_of (by simp) (by simp)
    refine ⟨s.destroy p (some i) kind k false, rfl, ?_⟩
    rw [State.destroy_done hr hopen hfits hskein] at honly ⊢
    have hgone := s.keyGone_sec hfits
    obtain ⟨hans, hses⟩ := (s.sec p).unkeyed_rest kind k
    obtain ⟨hout, hsec, -⟩ := (s.keyGone p kind k).spdmReply_does p (some i) 0x7E (leBytes 1 2 ++ leBytes 1 0)
    rw [hgone] at hsec hout
    rw [hans] at hout
    unfold State.keyReply at honly ⊢
    rw [e20] at honly hsec hout ⊢
    refine ⟨by rw [hout]; rfl, fun h => ?_, fun h => ?_, fun h => ?_, ?_, honly⟩
    · subst h
      rw [hsec]
      rfl
    · subst h
      rw [hsec]
      rfl
    · subst h
      rw [hsec]
      intro e he
      have := (List.mem_filter.1 (show e ∈ (s.sec p).fkeys.filter (fun e => e.1 != k) from he)).2
      simpa using this
    · rw [hsec]
      exact hses
  · obtain ⟨hin, hde⟩ := State.install_refused hr h id key
    have honly : onlyPart p s (s.install p (some i) kind k id key false) := onlyPart_of (by simp) (by simp)
    have honly' : onlyPart p s (s.destroy p (some i) kind k false) := onlyPart_of (by simp) (by simp)
    obtain ⟨hout, hsec, hflag⟩ := s.keyRefused_does p (some i) 1
    obtain ⟨hout', hsec', -⟩ := s.keyRefused_does p (some i) 2
    rw [e14] at hout
    rw [e24] at hout'
    rw [hin] at honly
    rw [hde] at honly'
    exact ⟨_, _, congrArg Host.Outcome.next hin, hout, congrArg Host.Outcome.next hde, hout', hflag, hsec, hsec'.trans hsec.symm, honly, honly'⟩
  · exact ⟨s.layer1Done p, rfl, onlyPart_of (by simp) (by simp), State.layer1Done_restarted hheld hr ha⟩
  · exact ⟨s.layer1Done p, rfl, onlyPart_of (by simp) (by simp), State.layer1Done_activated hheld hr ha⟩
  · exact congrArg Host.Outcome.next (State.fwFailed_early hr hearly)
  · exact ⟨s.fwFailed p, rfl, onlyPart_of (by simp) (by simp), State.fwFailed_due hheld hr ha hdue⟩

end Sys2Proof.Machine
end

section
/-! What leaves the causes and steps of the units, the spindles and the persistent store as they are. -/

namespace Sys2Proof.Machine

open Sys2Proof Sys2Proof.Claims

/-- What the units remember besides their registers: causes, steps of quarantine and their times, the spindles, and the persistent store. -/
def State.unitMarks (s : State) : (SMap Nat × SMap Nat × SMap Nat × SMap Nat × SMap SpindleSt × Pst) := (s.rp.units.cause, s.rp.units.qstep, s.rp.units.since, s.rp.units.qbase, s.rp.spindles, s.rp.pst)

@[simp] theorem State.unitMarks_eq (s : State) : (s.rp.units.cause, s.rp.units.qstep, s.rp.units.since, s.rp.units.qbase, s.rp.spindles, s.rp.pst) = s.unitMarks := by rw [State.unitMarks]

@[simp] theorem State.unitMarks_mk (n f : Nat) (l : List Instr) (o : List Out) (m : SMap Byte) (r : Ronpex) (e : Plocen) :
    State.unitMarks { now := n, free := f, pending := l, out := o, hbm := m, rp := r, ep := e } = (r.units.cause, r.units.qstep, r.units.since, r.units.qbase, r.spindles, r.pst) := by rw [State.unitMarks]

@[simp] theorem Ronpex.setReg_pst (r : Ronpex) (a v : Nat) : (r.setReg a v).pst = r.pst := by rw [Ronpex.setReg]

@[simp] theorem Ronpex.setReg_spindles (r : Ronpex) (a v : Nat) : (r.setReg a v).spindles = r.spindles := by rw [Ronpex.setReg]

@[simp] theorem State.unitMarks_ite (c : Prop) [Decidable c] (a b : State) :
    (if c then a else b).unitMarks = if c then a.unitMarks else b.unitMarks := by
  split <;> rfl

@[simp] theorem State.unitMarks_foldl {α : Type} (g : State → α → State) (h : ∀ t x, (g t x).unitMarks = t.unitMarks) (l : List α) (s : State) :
    (l.foldl g s).unitMarks = s.unitMarks := by
  induction l generalizing s with
  | nil => rfl
  | cons x r ih => rw [List.foldl_cons, ih, h]

theorem State.unitMarks_getD (o : Option State) (s : State) (h : ∀ t, o = some t → t.unitMarks = s.unitMarks) : (o.getD s).unitMarks = s.unitMarks := by
  cases o with
  | none => rfl
  | some t => exact h t rfl

/-! ### Machine/Ops -/

@[simp] theorem State.unitMarks_setReg (s : State) (a v : Nat) :
    (s.setReg .ronpex a v).unitMarks = s.unitMarks := by
  unfold State.setReg
  simp

@[simp] theorem State.unitMarks_setFld (s : State) (a lo len v : Nat) :
    (s.setFld .ronpex a lo len v).unitMarks = s.unitMarks := by
  unfold State.setFld
  simp

@[simp] theorem State.unitMarks_satFld (s : State) (a lo len n : Nat) :
    (s.satFld .ronpex a lo len n).unitMarks = s.unitMarks := by
  unfold State.satFld
  simp

@[simp] theorem State.unitMarks_setFlag (s : State) (a i : Nat) (b : Bool) :
    (s.setFlag .ronpex a i b).unitMarks = s.unitMarks := by
  unfold State.setFlag
  simp

@[simp] theorem State.unitMarks_setLink (s : State) (port : Nat) (l : Link) :
    (s.setLink .ronpex port l).unitMarks = s.unitMarks := by
  unfold State.setLink
  simp

@[simp] theorem State.unitMarks_modLink (s : State) (port : Nat) (f : Link → Link) :
    (s.modLink .ronpex port f).unitMarks = s.unitMarks := by
  unfold State.modLink
  simp

@[simp] theorem State.unitMarks_setSource (s : State) (x : Source) :
    (s.setSource .ronpex x).unitMarks = s.unitMarks := by
  unfold State.setSource
  simp

@[simp] theorem State.unitMarks_draw (s : State) :
    s.draw.2.unitMarks = s.unitMarks := by
  unfold State.draw
  simp

@[simp] theorem State.unitMarks_emit (s : State) (o : Out) :
    (s.emit o).unitMarks = s.unitMarks := by
  unfold State.emit
  simp

@[simp] theorem State.unitMarks_msix (s : State) (v : Nat) :
    (s.msix v).unitMarks = s.unitMarks := by
  unfold State.msix
  simp

@[simp] theorem State.unitMarks_rpLog (s : State) (b : LogBody) :
    (s.rpLog b).unitMarks = s.unitMarks := by
  unfold State.rpLog
  simp

@[simp] theorem State.unitMarks_rpCond (s : State) (code origin requester port skein addr old new : Nat) :
    (s.rpCond code origin requester port skein addr old new).unitMarks = s.unitMarks := by
  unfold State.rpCond
  simp

@[simp] theorem State.unitMarks_evtWrite (s : State) (e : Event) :
    (s.evtWrite e).unitMarks = s.unitMarks := by
  unfold State.evtWrite
  simp

@[simp] theorem State.unitMarks_evtOverflow (s : State) :
    s.evtOverflow.unitMarks = s.unitMarks := by
  unfold State.evtOverflow
  simp

@[simp] theorem State.unitMarks_post (s : State) (e : Event) :
    (s.post e).unitMarks = s.unitMarks := by
  unfold State.post
  simp

@[simp] theorem State.unitMarks_postFor (s : State) (e : Event) (scope : Nat) (skeins : List Nat) :
    (s.postFor e scope skeins).unitMarks = s.unitMarks := by
  unfold State.postFor
  simp

/-! ### Machine/Route -/

@[simp] theorem State.unitMarks_offer (s : State) (port : Nat) (x : EddyEnt) :
    (s.offer port x).unitMarks = s.unitMarks := by
  unfold State.offer
  simp

@[simp] theorem State.unitMarks_modWarp (s : State) (f : Warp → Warp) :
    (s.modWarp f).unitMarks = s.unitMarks := by
  unfold State.modWarp
  simp

@[simp] theorem State.unitMarks_logUnrouted (s : State) (p : Nat) (c : Container) :
    (s.logUnrouted p c).unitMarks = s.unitMarks := by
  unfold State.logUnrouted
  simp

@[simp] theorem State.unitMarks_goHome (s : State) (c : Container) :
    (s.goHome c).unitMarks = s.unitMarks := by
  unfold State.goHome
  simp

@[simp] theorem State.unitMarks_reflect (s : State) (x : EddyEnt) (noPath : Bool) :
    (s.reflect x noPath).unitMarks = s.unitMarks := by
  unfold State.reflect
  dsimp only
  repeat' split
  all_goals simp

@[simp] theorem State.unitMarks_toOutput (s : State) (r : Route) (x : EddyEnt) :
    (s.toOutput r x).unitMarks = s.unitMarks := by
  unfold State.toOutput
  repeat' split
  all_goals simp

/-! ### Machine/Send -/

@[simp] theorem State.unitMarks_hold (s : State) (dest skein plane planes : Nat) (loc : HeldAt) (m : Msg) (own : Owner) :
    (s.hold .ronpex dest skein plane planes loc m own).1.unitMarks = s.unitMarks := by
  unfold State.hold
  simp

@[simp] theorem State.unitMarks_rpSend (s : State) (h : Held) :
    (s.rpSend h).unitMarks = s.unitMarks := by
  unfold State.rpSend
  simp

@[simp] theorem State.unitMarks_rpPush (s : State) :
    s.rpPush.unitMarks = s.unitMarks := by
  unfold State.rpPush
  simp

@[simp] theorem State.unitMarks_rpMgmtPort (s : State) (port dest : Nat) (m : Mgmt) (own : Owner) :
    (s.rpMgmtPort port dest m own).unitMarks = s.unitMarks := by
  unfold State.rpMgmtPort
  simp

/-! ### Machine/Flags -/

@[simp] theorem State.unitMarks_errsumMsix (s before : State) :
    (s.errsumMsix before).unitMarks = s.unitMarks := by
  unfold State.errsumMsix
  simp

@[simp] theorem State.unitMarks_fmhError (s : State) (b offset scope : Nat) (skeins : List Nat) :
    (s.fmhError b offset scope skeins).unitMarks = s.unitMarks := by
  unfold State.fmhError
  simp

/-! ### Machine/OrderOps -/

@[simp] theorem State.unitMarks_modTray (s : State) (f : Tray → Tray) :
    (s.modTray f).unitMarks = s.unitMarks := by
  unfold State.modTray
  simp

@[simp] theorem State.unitMarks_trayOut (s : State) (port : Nat) (f : TrayFrame) :
    (s.trayOut port f).unitMarks = s.unitMarks := by
  unfold State.trayOut
  simp

@[simp] theorem State.unitMarks_trayMgmt (s : State) (m : Mgmt) :
    (s.trayMgmt m).unitMarks = s.unitMarks := by
  unfold State.trayMgmt
  simp

@[simp] theorem State.unitMarks_toEndPoint (s : State) (p : Nat) (m : Mgmt) :
    (s.toEndPoint p m).unitMarks = s.unitMarks := by
  unfold State.toEndPoint
  simp

@[simp] theorem State.unitMarks_toFarEnd (s : State) (p : Nat) (m : Mgmt) :
    (s.toFarEnd p m).unitMarks = s.unitMarks := by
  unfold State.toFarEnd
  repeat' split
  all_goals simp

@[simp] theorem State.unitMarks_orderToMembers (s : State) (o : SwitchOrder) :
    (s.orderToMembers o).unitMarks = s.unitMarks := by
  unfold State.orderToMembers
  simp

@[simp] theorem State.unitMarks_issueOrder (s : State) (o : SwitchOrder) :
    (s.issueOrder o).unitMarks = s.unitMarks := by
  unfold State.issueOrder
  simp

@[simp] theorem State.unitMarks_unitEvent (s : State) (i : Nat) :
    (s.unitEvent i).unitMarks = s.unitMarks := by
  unfold State.unitEvent
  simp

@[simp] theorem State.unitMarks_showUnits (s : State) (quiet : Bool) (l : List Nat) :
    (s.showUnits quiet l).unitMarks = s.unitMarks := by
  unfold State.showUnits
  simp

@[simp] theorem State.unitMarks_setTally (s : State) (ph : Nat) (t : Tally) :
    (s.setTally ph t).unitMarks = s.unitMarks := by
  unfold State.setTally
  simp

@[simp] theorem State.unitMarks_tallyPorts (s : State) (ph : Nat) (l : List Nat) (ok : Bool) :
    (s.tallyPorts ph l ok).unitMarks = s.unitMarks := by
  unfold State.tallyPorts
  simp

@[simp] theorem State.unitMarks_tallyLost (s : State) (ph : Nat) (l : List Nat) :
    (s.tallyLost ph l).unitMarks = s.unitMarks := by
  unfold State.tallyLost
  simp

@[simp] theorem State.unitMarks_classOrder (s : State) (c unitType unit gen : Nat) :
    (s.classOrder c unitType unit gen).unitMarks = s.unitMarks := by
  unfold State.classOrder
  simp

@[simp] theorem State.unitMarks_spindleOrder (s : State) (n : Nat) :
    (s.spindleOrder n).unitMarks = s.unitMarks := by
  unfold State.spindleOrder
  dsimp only
  repeat' split
  all_goals simp

/-! ### Machine/CmdOps -/

@[simp] theorem State.unitMarks_modMgmt (s : State) (f : MgmtRings → MgmtRings) :
    (s.modMgmt f).unitMarks = s.unitMarks := by
  unfold State.modMgmt
  simp

@[simp] theorem State.unitMarks_cmdEvent (s : State) (r : Running) (status detail : Nat) :
    (s.cmdEvent r status detail).unitMarks = s.unitMarks := by
  unfold State.cmdEvent
  simp

@[simp] theorem State.unitMarks_cmdNext (s : State) :
    s.cmdNext.unitMarks = s.unitMarks := by
  unfold State.cmdNext
  simp

@[simp] theorem State.unitMarks_cmdDone (s : State) (status detail : Nat) :
    (s.cmdDone status detail).unitMarks = s.unitMarks := by
  unfold State.cmdDone
  split <;> simp

@[simp] theorem State.unitMarks_cmdWaited (s : State) (w : CmdWait) (status detail : Nat) :
    (s.cmdWaited w status detail).unitMarks = s.unitMarks := by
  unfold State.cmdWaited
  simp

@[simp] theorem State.unitMarks_sendOver (s : State) (id : Nat) (lost : Bool) :
    (s.sendOver id lost).unitMarks = s.unitMarks := by
  unfold State.sendOver
  split <;> simp

/-! ### Machine/WeftAnswer -/

@[simp] theorem State.unitMarks_modSource (s : State) (f : Source → Source) :
    (s.modSource .ronpex f).unitMarks = s.unitMarks := by
  unfold State.modSource
  simp

@[simp] theorem State.unitMarks_modHeld (s : State) (id : Nat) (f : Held → Held) :
    (s.modHeld .ronpex id f).unitMarks = s.unitMarks := by
  unfold State.modHeld
  simp

@[simp] theorem State.unitMarks_dropHeld (s : State) (h : Held) :
    (s.dropHeld .ronpex h).unitMarks = s.unitMarks := by
  unfold State.dropHeld
  simp

@[simp] theorem State.unitMarks_relayLost (s : State) (m : Nat) :
    (s.relayLost m).unitMarks = s.unitMarks := by
  unfold State.relayLost
  simp

@[simp] theorem State.unitMarks_messageLost (s : State) (h : Held) (x : SentMsg) (code info : Nat) :
    (s.messageLost .ronpex h x code info).unitMarks = s.unitMarks := by
  unfold State.messageLost
  cases x.owner <;> simp

@[simp] theorem State.unitMarks_endHeld (s : State) (id code : Nat) :
    (s.endHeld .ronpex id code).unitMarks = s.unitMarks := by
  unfold State.endHeld
  dsimp only
  split <;> simp

/-! ### Machine/RpOrders -/

@[simp] theorem State.unitMarks_powerEvent (s : State) :
    s.powerEvent.unitMarks = s.unitMarks := by
  unfold State.powerEvent
  simp

@[simp] theorem State.unitMarks_rpPathLoss (s : State) (tL : Nat) :
    (s.rpPathLoss tL).unitMarks = s.unitMarks := by
  unfold State.rpPathLoss
  simp

/-! ### Machine/FaultOps -/

@[simp] theorem State.unitMarks_portOrder (s : State) (p : Nat) :
    (s.portOrder p).unitMarks = s.unitMarks := by
  unfold State.portOrder
  simp

@[simp] theorem State.unitMarks_fenceLog (s : State) (i origin requester what : Nat) :
    (s.fenceLog i origin requester what).unitMarks = s.unitMarks := by
  unfold State.fenceLog
  simp

@[simp] theorem State.unitMarks_hardFence (s : State) (i cause : Nat) :
    (s.hardFence i cause).unitMarks = s.unitMarks := by
  unfold State.hardFence
  simp

@[simp] theorem State.unitMarks_stopClock (s : State) (port : Nat) :
    (s.stopClock .ronpex port).unitMarks = s.unitMarks := by
  unfold State.stopClock
  simp

@[simp] theorem State.unitMarks_fencePort (s : State) (n cause : Nat) :
    (s.fencePort n cause).unitMarks = s.unitMarks := by
  unfold State.fencePort
  simp

@[simp] theorem State.unitMarks_portEvent (s : State) (port sub cause w : Nat) :
    (s.portEvent port sub cause w).unitMarks = s.unitMarks := by
  unfold State.portEvent
  simp

@[simp] theorem State.unitMarks_lossNotice (s : State) (port : Nat) :
    (s.lossNotice port).unitMarks = s.unitMarks := by
  unfold State.lossNotice
  simp

@[simp] theorem State.unitMarks_portGone (s : State) (port : Nat) :
    (s.portGone .ronpex port).unitMarks = s.unitMarks := by
  unfold State.portGone
  simp

@[simp] theorem State.unitMarks_portDown (s : State) (port cause : Nat) :
    (s.portDown .ronpex port cause).unitMarks = s.unitMarks := by
  unfold State.portDown
  simp

@[simp] theorem State.unitMarks_partEventFor (s : State) (type n state cause : Nat) (skeins : List Nat) :
    (s.partEventFor type n state cause skeins).unitMarks = s.unitMarks := by
  unfold State.partEventFor
  simp

@[simp] theorem State.unitMarks_loseEddies (s : State) (l : List Nat) :
    (s.loseEddies l).unitMarks = s.unitMarks := by
  unfold State.loseEddies
  simp

/-! ### Machine/PowerOps -/

@[simp] theorem State.unitMarks_modPower (s : State) (f : Power → Power) :
    (s.modPower f).unitMarks = s.unitMarks := by
  unfold State.modPower
  simp

@[simp] theorem State.unitMarks_powerRequest (s : State) :
    s.powerRequest.unitMarks = s.unitMarks := by
  unfold State.powerRequest
  simp

@[simp] theorem State.unitMarks_sendToken (s : State) (tok : Nat) :
    (s.sendToken tok).unitMarks = s.unitMarks := by
  unfold State.sendToken
  simp

@[simp] theorem State.unitMarks_returnToken (s : State) :
    s.returnToken.unitMarks = s.unitMarks := by
  unfold State.returnToken
  split <;> simp

end Sys2Proof.Machine
end

section
/-! Faults and commands that fence a unit (R217, R345, R365, R421), and the reset of a region or die. -/

namespace Sys2Proof.Machine

open Sys2Proof Sys2Proof.Claims

/-! ### Where the registers of units lie -/

theorem portBase_ne_spindle {p n : Nat} : portBase p ≠ spindleBase n ∧ portBase p ≠ spindleBase n + 4 := by
  unfold portBase spindleBase
  omega

theorem spindleBase_injective {m n : Nat} (hm : m < 96) (hn : n < 96) (h : spindleBase m = spindleBase n) : m = n := by
  unfold spindleBase at h
  omega

theorem spindleBase_apart (m n : Nat) : spindleBase m ≠ spindleBase n + 4 := by
  unfold spindleBase
  omega

/-! ### A port unit is fenced -/

theorem State.reg_stopClock (s : State) (n a : Nat) : (s.stopClock .ronpex n).reg .ronpex a = s.reg .ronpex a := rfl

/-- What a fence shows of a port unit. -/
theorem State.portFenced_fencePort {s : State} {n cause : Nat} (hn : n < 192) (hc : cause < 256) (h : ¬s.portIdle n) :
    portFenced n cause s (s.fencePort n cause) := by
  have hbase := le_portBase n
  have hword : (1 + 256 * cause) % 2 ^ 32 = 1 + 256 * cause := Nat.mod_eq_of_lt (by omega)
  have hfirst (a : Nat) (ha : 0x1000000 ≤ a) : ((s.hardFence n cause).stopClock .ronpex n).reg .ronpex a = s.reg .ronpex a :=
    State.reg_of_rpRegs (by simp) (notMem_reportRegs ha)
  have hlast (a : Nat) (ha : 0x1000000 ≤ a) : (s.fencePort n cause).reg .ronpex a
      = ((((((s.hardFence n cause).stopClock .ronpex n).setReg .ronpex (portBase n) (1 + 256 * cause)).setFld .ronpex (portBase n + 0xC)
          0 3 0)).satFld .ronpex (portBase n + 0x10) 0 16 1).reg .ronpex a := by
    rw [State.fencePort]
    dsimp only
    rw [if_neg (show ¬(s.fld .ronpex (portBase n) 0 2 = 1 ∨ s.fld .ronpex (portBase n) 0 2 = 3) from h)]
    exact State.reg_of_rpRegs ((State.rpRegs_portOrder _ _).trans (State.rpRegs_showUnits _ _ _)) (notMem_reportRegs ha)
  refine ⟨?_, ?_, ?_, fun m hm hne => ?_, fun q hq => ?_, ?_, onlyRonpex_of (by simp) (by simp)⟩
  · rw [State.reg_fencePort h, if_pos rfl, hword]
  · rw [State.fld_congr (hlast _ (by omega)), State.satFld, State.fld_congr (State.reg_setFld_other _ _ _ _ _ _ _ _ (.inr (by omega))),
      State.fld_setFld_same _ _ _ _ _ _ (by omega)]
    rfl
  · have hold : ((((s.hardFence n cause).stopClock .ronpex n).setReg .ronpex (portBase n) (1 + 256 * cause)).setFld .ronpex
        (portBase n + 0xC) 0 3 0).reg .ronpex (portBase n + 0x10) = s.reg .ronpex (portBase n + 0x10) := by
      rw [State.reg_setFld_other _ _ _ _ _ _ _ _ (.inr (by omega)), State.reg_setReg_other _ _ _ _ _ _ (.inr (by omega)),
        hfirst _ (by omega)]
    rw [State.fld_congr (hlast _ (by omega)), State.fld_satFld_same _ _ _ _ _ _ (by omega), State.fld_congr hold]
  · rw [State.reg_fencePort h, if_neg fun heq => hne (portBase_injective hm hn heq)]
  · rw [State.link_fencePort h, if_neg hq]
  · rw [State.link_fencePort h, if_pos rfl]

/-- A write that is logged leaves the registers of the units and the links. -/
theorem State.Logged.units {s u : State} (h : s.Logged u) : (∀ a, 0x1000000 ≤ a → u.reg .ronpex a = s.reg .ronpex a)
    ∧ (∀ q, u.link .ronpex q = s.link .ronpex q) ∧ onlyRonpex s u := by
  refine ⟨fun a ha => h.reg (by simp only [Reg.logLost]; omega), fun q => ?_, ?_⟩
  · rw [h.frame]
    rfl
  · rw [h.frame]
    exact ⟨rfl, rfl, rfl, rfl⟩

theorem onlyRonpex_trans {s t u : State} (h : onlyRonpex s t) (k : onlyRonpex t u) : onlyRonpex s u := by
  obtain ⟨h1, h2, h3, h4⟩ := h
  obtain ⟨k1, k2, k3, k4⟩ := k
  exact ⟨k1.trans h1, k2.trans h2, k3.trans h3, k4.trans h4⟩

/-- A fence after entries of the log. -/
theorem portFenced_of_logged {s u t : State} {n cause : Nat} (h : s.Logged u) (hf : portFenced n cause u t) : portFenced n cause s t := by
  obtain ⟨hregs, hlinks, honly⟩ := h.units
  obtain ⟨h1, h2, h3, h4, h5, h6, h7⟩ := hf
  have hbase := le_portBase n
  refine ⟨h1, h2, h3.trans (by rw [State.fld_congr (hregs _ (by omega))]), fun m hm hne => (h4 m hm hne).trans (hregs _ (le_portBase m)),
    fun q hq => (h5 q hq).trans (hlinks q), h6.trans (by rw [hlinks]), onlyRonpex_trans honly h7⟩

theorem State.logged_fenceLog (s : State) (i origin requester what : Nat) : s.Logged (s.fenceLog i origin requester what) :=
  State.logged_rpLog _ _

theorem State.Logged.portIdle {s u : State} (h : s.Logged u) {n : Nat} : u.portIdle n ↔ s.portIdle n := by
  unfold State.portIdle
  rw [State.fld_congr (h.units.1 _ (le_portBase n))]

/-- A command fences a port unit. -/
theorem State.softFence_port {s u : State} {n : Nat} (hlog : s.Logged u) (hn : n < 192) (h : ¬s.portIdle n) (wr : Writer) :
    portFenced n 5 s (u.softFence n wr) := by
  have hidle : ¬u.portIdle n := hlog.portIdle.not.2 h
  have heq : u.softFence n wr = (u.fenceLog n wr.origin wr.requester 1).fencePort n 5 := by
    unfold State.softFence
    rw [if_neg (by
      rw [← u.portIdle_iff hn]
      rintro (h608 | ⟨-, hp⟩)
      · omega
      · exact hidle hp)]
    exact if_pos hn
  have hlog' := hlog.trans (u.logged_fenceLog n wr.origin wr.requester 1)
  rw [heq]
  exact portFenced_of_logged hlog' (State.portFenced_fencePort hn (by omega) (hlog'.portIdle.not.2 h))

/-! ### A spindle is fenced -/

/-- The tallies of the contexts in a list are lost. -/
def State.talliesLost (s : State) (l : List AccCtx) (later : List Nat) : State :=
  l.foldl (fun t c => if (t.pkgPhase t.rdSlot c.phase).all fun r => r.kind == 1 then t else t.tallyLost c.phase later) s

theorem State.talliesLost_does (l : List AccCtx) (later : List Nat) (s : State) : (s.talliesLost l later).rpRegs = s.rpRegs
    ∧ (s.talliesLost l later).rpLinks = s.rpLinks ∧ (s.talliesLost l later).unitMarks = s.unitMarks := by
  unfold State.talliesLost
  induction l generalizing s with
  | nil => exact ⟨rfl, rfl, rfl⟩
  | cons c l ih =>
    rw [List.foldl_cons]
    obtain ⟨h1, h2, h3⟩ := ih (if (s.pkgPhase s.rdSlot c.phase).all fun r => r.kind == 1 then s else s.tallyLost c.phase later)
    refine ⟨h1.trans ?_, h2.trans ?_, h3.trans ?_⟩ <;> split <;> simp

theorem State.cause_of_unitMarks {s t : State} (h : t.unitMarks = s.unitMarks) : t.rp.units.cause = s.rp.units.cause := congrArg (·.1) h

theorem State.spindles_of_unitMarks {s t : State} (h : t.unitMarks = s.unitMarks) : t.rp.spindles = s.rp.spindles :=
  congrArg (·.2.2.2.2.1) h

/-- The contexts of a spindle are lost; nothing else that the units remember changes. -/
theorem State.loseContexts_does (s : State) (n : Nat) :
    (s.loseContexts n).rpRegs = s.rpRegs ∧ (s.loseContexts n).rp.links = s.rp.links
      ∧ (s.loseContexts n).rp.units.cause = s.rp.units.cause
      ∧ (s.loseContexts n).rp.spindles = SMap.put (fun _ => {}) s.rp.spindles n { s.spindle n with ctxs := [] } := by
  obtain ⟨hregs, hlinks, hmarks⟩ := State.talliesLost_does (s.spindle n).ctxs (allPorts.filter fun p =>
    (upTo (slotOf s.now) (frameSlots - 1)).any fun m => (s.spLogical n).any fun l =>
      s.entrySpout ((s.portLogical p).getD p) (s.rdAt (s.now + slotNs * (m - slotOf s.now)) p) == some l) s
  have hcause := State.cause_of_unitMarks hmarks
  refine ⟨hregs, hlinks, hcause, ?_⟩
  rw [← State.spindles_of_unitMarks hmarks]
  rfl

theorem setBit_true_of_bit {i w : Nat} (h : bit i w = true) : setBit i true w = w := by
  refine Nat.eq_of_testBit_eq fun j => ?_
  rw [← bit_eq_testBit, ← bit_eq_testBit]
  by_cases hj : j = i
  · rw [hj, bit_setBit_same, h]
  · rw [bit_setBit_other _ _ hj]

theorem State.spindle_put (s : State) (n m : Nat) (x : SpindleSt) :
    (SMap.look (fun _ => {}) (SMap.put (fun _ => {}) s.rp.spindles n x) m : SpindleSt) = if m = n then x else s.spindle m := by
  rw [SMap.look_put]
  rfl

/-- An error of a spindle: its bit is set, and it is counted as posted in this frame. -/
theorem State.spdError_does (s : State) (n skein : Nat) {b : Nat} :
    (s.spdError n b skein).rpRegs = (s.setFlag .ronpex (spindleBase n + 4) b true).rpRegs ∧ (s.spdError n b skein).rp.links = s.rp.links
      ∧ (s.spdError n b skein).rp.units.cause = s.rp.units.cause
      ∧ ∀ m, (s.spdError n b skein).spindle m
        = if m = n then { s.spindle n with posted := setBit b true (s.spindle n).posted } else s.spindle m := by
  have hsp : (s.setFlag .ronpex (spindleBase n + 4) b true).spindle n = s.spindle n := rfl
  unfold State.spdError
  dsimp only
  split
  · next h =>
    refine ⟨by simp, by simp, State.cause_of_unitMarks (by simp), fun m => ?_⟩
    have hm : ((s.setFlag .ronpex (spindleBase n + 4) b true).errsumMsix s).spindle m = s.spindle m := by
      unfold State.spindle
      rw [State.spindles_of_unitMarks (s := s) (by simp)]
    rw [hm]
    by_cases hmn : m = n
    · rw [if_pos hmn, hmn, setBit_true_of_bit (show bit b (s.spindle n).posted = true from h)]
    · rw [if_neg hmn]
  · next h =>
    refine ⟨by simp, by simp, ?_, fun m => ?_⟩
    · obtain ⟨o, x, hx⟩ := State.errsumMsix_only _ _
      rw [hx]
      obtain ⟨o', k, l, y, hy⟩ := State.postFor_only _ _ _ _
      rw [hy]
      rfl
    · obtain ⟨o, x, hx⟩ := State.errsumMsix_only _ _
      rw [hx]
      obtain ⟨o', k, l, y, hy⟩ := State.postFor_only _ _ _ _
      rw [hy]
      exact s.spindle_put n m _

theorem State.spFenced_of_rpRegs {s t : State} (h : t.rpRegs = s.rpRegs) (m : Nat) : t.spFenced m = s.spFenced m :=
  State.flag_congr (State.reg_of_rpRegs h (notMem_reportRegs (le_spindleBase m))) 0

/-- A spindle shows that it is fenced, and its cause; its contexts are not lost yet. -/
def State.spindleOut (s : State) (n cause : Nat) : State :=
  ((s.hardFence (192 + n) cause).setFlag .ronpex (spindleBase n) 0 true).setUnit (192 + n) cause 0

/-- A spindle has lost its contexts, and its own error is shown. -/
def State.spindleEmptied (s : State) (n cause : Nat) : State :=
  if cause = 1 then ((s.spindleOut n cause).loseContexts n).spdError n 3 0 else (s.spindleOut n cause).loseContexts n

theorem State.fenceSpindle_eq {s : State} {n : Nat} (hf : s.spFenced n = false) (hr : s.regionOff (spindleRegion n) = false) (cause : Nat) :
    s.fenceSpindle n cause = if ((s.spindleEmptied n cause).showUnits false [192 + n]).running then
        ((s.spindleEmptied n cause).showUnits false [192 + n]).spindleOrder n
      else (s.spindleEmptied n cause).showUnits false [192 + n] := by
  unfold State.fenceSpindle
  exact if_neg (by simp [hf, hr])

theorem State.fenceSpindle_marks {s : State} {n : Nat} (hf : s.spFenced n = false) (hr : s.regionOff (spindleRegion n) = false) (cause : Nat) :
    (s.fenceSpindle n cause).rpRegs = (s.spindleEmptied n cause).rpRegs ∧ (s.fenceSpindle n cause).rpLinks = (s.spindleEmptied n cause).rpLinks
      ∧ (s.fenceSpindle n cause).unitMarks = (s.spindleEmptied n cause).unitMarks := by
  rw [State.fenceSpindle_eq hf hr]
  refine ⟨?_, ?_, ?_⟩ <;> split <;> simp

theorem State.spindleOut_does (s : State) (n cause : Nat) :
    (s.spindleOut n cause).rpRegs = (s.setFlag .ronpex (spindleBase n) 0 true).rpRegs ∧ (s.spindleOut n cause).rp.links = s.rp.links
      ∧ SMap.look (fun _ => 0) (s.spindleOut n cause).rp.units.cause (192 + n) = cause
      ∧ ∀ m, (s.spindleOut n cause).spindle m = s.spindle m := by
  have hmarks : (s.hardFence (192 + n) cause).unitMarks = s.unitMarks := by simp
  refine ⟨?_, ?_, SMap.look_put_same _ _ _ _, fun m => ?_⟩
  · funext a
    unfold State.rpRegs unreported
    by_cases ha : a ∈ reportRegs
    · rw [if_pos ha, if_pos ha]
    · have hreg : (s.hardFence (192 + n) cause).reg .ronpex (spindleBase n) = s.reg .ronpex (spindleBase n) :=
        State.reg_of_rpRegs (by simp) (notMem_reportRegs (le_spindleBase n))
      rw [if_neg ha, if_neg ha]
      show (s.spindleOut n cause).reg .ronpex a = (s.setFlag .ronpex (spindleBase n) 0 true).reg .ronpex a
      show ((s.hardFence (192 + n) cause).setFlag .ronpex (spindleBase n) 0 true).reg .ronpex a = _
      unfold State.setFlag State.setFld
      rw [State.reg_setReg, State.reg_setReg, hreg, State.reg_of_rpRegs (s := s) (by simp) ha]
  · unfold State.spindleOut
    simp
  · show (SMap.look (fun _ => {}) (s.hardFence (192 + n) cause).rp.spindles m : SpindleSt) = _
    rw [State.spindles_of_unitMarks hmarks]
    rfl

/-- What the fence of a spindle shows, before it is reported. -/
theorem State.spindleEmptied_does (s : State) (n cause : Nat) :
    (∀ a, 0x1000000 ≤ a → a ≠ spindleBase n → a ≠ spindleBase n + 4 → (s.spindleEmptied n cause).reg .ronpex a = s.reg .ronpex a)
      ∧ (s.spindleEmptied n cause).spFenced n = true ∧ (s.spindleEmptied n cause).rp.links = s.rp.links
      ∧ (cause = 1 → (s.spindleEmptied n cause).flag .ronpex (spindleBase n + 4) 3 = true)
      ∧ SMap.look (fun _ => 0) (s.spindleEmptied n cause).rp.units.cause (192 + n) = cause
      ∧ (s.spindleEmptied n cause).spindle n = { s.spindle n with
          ctxs := [], posted := if cause = 1 then setBit 3 true (s.spindle n).posted else (s.spindle n).posted }
      ∧ ∀ m, m ≠ n → (s.spindleEmptied n cause).spindle m = s.spindle m := by
  have hbase := le_spindleBase n
  obtain ⟨oregs, olinks, ocause, ospindle⟩ := s.spindleOut_does n cause
  obtain ⟨lregs, llinks, lcause, lspindles⟩ := (s.spindleOut n cause).loseContexts_does n
  have hspindle (m : Nat) : ((s.spindleOut n cause).loseContexts n).spindle m
      = if m = n then { s.spindle n with ctxs := [] } else s.spindle m := by
    have := (s.spindleOut n cause).spindle_put n m { (s.spindleOut n cause).spindle n with ctxs := [] }
    rw [← lspindles, ospindle, ospindle] at this
    exact this
  have hreg (a : Nat) (ha : 0x1000000 ≤ a) : ((s.spindleOut n cause).loseContexts n).reg .ronpex a
      = (s.setFlag .ronpex (spindleBase n) 0 true).reg .ronpex a := State.reg_of_rpRegs (lregs.trans oregs) (notMem_reportRegs ha)
  obtain ⟨eregs, elinks, ecause, espindle⟩ := ((s.spindleOut n cause).loseContexts n).spdError_does n 0 (b := 3)
  unfold State.spindleEmptied
  by_cases h : cause = 1
  · have hereg (a : Nat) (ha : 0x1000000 ≤ a) : (((s.spindleOut n cause).loseContexts n).spdError n 3 0).reg .ronpex a
        = (((s.spindleOut n cause).loseContexts n).setFlag .ronpex (spindleBase n + 4) 3 true).reg .ronpex a :=
      State.reg_of_rpRegs eregs (notMem_reportRegs ha)
    rw [if_pos h, if_pos h]
    refine ⟨fun a ha h0 h4 => ?_, ?_, by rw [elinks, llinks, olinks], fun _ => ?_, by rw [ecause, lcause, ocause], ?_, fun m hm => ?_⟩
    · rw [hereg a ha, State.reg_setFlag_other _ _ _ _ _ _ _ (.inr h4.symm), hreg a ha, State.reg_setFlag_other _ _ _ _ _ _ _ (.inr h0.symm)]
    · rw [State.spFenced, State.flag_congr (hereg _ hbase), State.flag_congr (State.reg_setFlag_other _ _ _ _ _ _ _ (.inr (by omega))),
        State.flag_congr (hreg _ hbase), State.flag_setFlag_same _ _ _ (by omega)]
    · rw [State.flag_congr (hereg _ (by omega)), State.flag_setFlag_same _ _ _ (by omega)]
    · rw [espindle, if_pos rfl, hspindle, if_pos rfl]
    · rw [espindle, if_neg hm, hspindle, if_neg hm]
  · rw [if_neg h, if_neg h]
    refine ⟨fun a ha h0 h4 => ?_, ?_, by rw [llinks, olinks], fun hc => absurd hc h, by rw [lcause, ocause], ?_, fun m hm => ?_⟩
    · rw [hreg a ha, State.reg_setFlag_other _ _ _ _ _ _ _ (.inr h0.symm)]
    · rw [State.spFenced, State.flag_congr (hreg _ hbase), State.flag_setFlag_same _ _ _ (by omega)]
    · rw [hspindle, if_pos rfl]
    · rw [hspindle, if_neg hm]

/-- What the fence of a spindle shows. -/
theorem State.spindleFenced_fenceSpindle {s : State} {n : Nat} (hn : n < 96) (hf : s.spFenced n = false)
    (hr : s.regionOff (spindleRegion n) = false) (cause : Nat) : spindleFenced n cause s (s.fenceSpindle n cause) := by
  have hbase := le_spindleBase n
  obtain ⟨mregs, mlinks, mmarks⟩ := State.fenceSpindle_marks hf hr cause
  obtain ⟨hregs, hfenced, hlinks, herr, hcause, hmine, hothers⟩ := s.spindleEmptied_does n cause
  have hreg (a : Nat) (ha : 0x1000000 ≤ a) : (s.fenceSpindle n cause).reg .ronpex a = (s.spindleEmptied n cause).reg .ronpex a :=
    State.reg_of_rpRegs mregs (notMem_reportRegs ha)
  have hspindle (m : Nat) : (s.fenceSpindle n cause).spindle m = (s.spindleEmptied n cause).spindle m := by
    unfold State.spindle
    rw [State.spindles_of_unitMarks mmarks]
  refine ⟨(State.spFenced_of_rpRegs mregs n).trans hfenced, ?_, (hspindle n).trans hmine, fun h => ?_, fun m hm hne => ⟨?_, ?_⟩,
    fun m hm => ?_, ?_, onlyRonpex_of (by simp) (by simp)⟩
  · rw [State.unitCause, if_neg (by omega), if_pos (by omega), State.cause_of_unitMarks mmarks, hcause]
  · rw [State.flag_congr (hreg _ (by omega)), herr h]
  · have hmb := le_spindleBase m
    rw [State.spFenced_of_rpRegs mregs m, State.spFenced, State.spFenced,
      State.flag_congr (hregs _ hmb (fun h => hne (spindleBase_injective hm hn h)) (spindleBase_apart m n))]
  · rw [hspindle, hothers m hne]
  · rw [hreg _ (le_portBase m), hregs _ (le_portBase m) portBase_ne_spindle.1 portBase_ne_spindle.2]
  · rw [State.rp_links, mlinks, ← State.rp_links, hlinks]

/-- A fence of a spindle after entries of the log. -/
theorem spindleFenced_of_logged {s u t : State} {n cause : Nat} (h : s.Logged u) (hf : spindleFenced n cause u t) :
    spindleFenced n cause s t := by
  obtain ⟨hregs, hlinks, honly⟩ := h.units
  have hspindle (m : Nat) : u.spindle m = s.spindle m := by rw [h.frame]; rfl
  have hl : u.rp.links = s.rp.links := by rw [h.frame]
  obtain ⟨h1, h2, h3, h4, h5, h6, h7, h8⟩ := hf
  refine ⟨h1, h2, h3.trans (by rw [hspindle]), h4, fun m hm hne => ?_, fun m hm => (h6 m hm).trans (hregs _ (le_portBase m)), h7.trans hl,
    onlyRonpex_trans honly h8⟩
  obtain ⟨ha, hb⟩ := h5 m hm hne
  exact ⟨ha.trans (State.flag_congr (hregs _ (le_spindleBase m)) 0), hb.trans (hspindle m)⟩

theorem State.Logged.spFenced {s u : State} (h : s.Logged u) (n : Nat) : u.spFenced n = s.spFenced n :=
  State.flag_congr (h.units.1 _ (le_spindleBase n)) 0

theorem State.Logged.regionOff {s u : State} (h : s.Logged u) (r : Nat) : u.regionOff r = s.regionOff r := by
  unfold State.regionOff
  rw [h.frame]

/-- A command fences a spindle. -/
theorem State.softFence_spindle {s u : State} {n : Nat} (hlog : s.Logged u) (hn : n < 96) (hf : s.spFenced n = false)
    (hr : s.regionOff (spindleRegion n) = false) (wr : Writer) : spindleFenced n 5 s (u.softFence (192 + n) wr) := by
  have hstate : u.unitState (192 + n) ≠ 1 ∧ u.unitState (192 + n) ≠ 3 := by
    unfold State.unitState
    rw [if_neg (by omega), if_pos (by omega)]
    dsimp only
    have hsp : u.flag .ronpex (spindleBase (192 + n - 192)) 0 = false := by
      rw [Nat.add_sub_cancel_left]
      exact (hlog.spFenced n).trans hf
    have hoff : u.regionOff (spindleRegion (192 + n - 192)) = false := by
      rw [Nat.add_sub_cancel_left]
      exact (hlog.regionOff _).trans hr
    rw [hsp, hoff]
    simp only [Bool.false_eq_true, if_false]
    split <;> omega
  have heq : u.softFence (192 + n) wr = (u.fenceLog (192 + n) wr.origin wr.requester 1).fenceSpindle n 5 := by
    unfold State.softFence
    rw [if_neg (by
      rintro (h608 | ⟨-, h1 | h3⟩)
      · omega
      · exact hstate.1 h1
      · exact hstate.2 h3)]
    dsimp only
    rw [if_neg (by omega), if_pos (by omega), Nat.add_sub_cancel_left]
  have hlog' := hlog.trans (u.logged_fenceLog (192 + n) wr.origin wr.requester 1)
  rw [heq]
  exact spindleFenced_of_logged hlog' (State.spindleFenced_fenceSpindle hn ((hlog'.spFenced n).trans hf) ((hlog'.regionOff _).trans hr) 5)

end Sys2Proof.Machine
end

section
/-! Channels, regions and dies that fail (R255, R345, R346), and the fences together. -/

namespace Sys2Proof.Machine

open Sys2Proof Sys2Proof.Claims

/-! ### Channel controllers -/

theorem chfence_injective {c m : Nat} (h : Reg.fmhChfence (m / 32) = Reg.fmhChfence (c / 32)) (hb : m % 32 = c % 32) : m = c := by
  unfold Reg.fmhChfence at h
  omega

theorem notMem_reportRegs_chfence (c : Nat) (hc : c < 128) : Reg.fmhChfence (c / 32) ∉ reportRegs := by
  simp only [reportRegs, Reg.logLost, Reg.mgtEvtOvf, Reg.mgtMsixPba, Reg.fmhChfence, List.mem_cons, List.not_mem_nil, or_false, not_or]
  omega

/-- A channel controller that is fenced: its flag of CHFENCE and the error of its hub, and nothing else of the registers. -/
theorem State.fenceChannel_does {s : State} {c : Nat} (hc : c < 128)
    (h : s.flag .ronpex (Reg.fmhChfence (c / 32)) (c % 32) = false) (cause offset : Nat) :
    (s.fenceChannel c cause offset).flag .ronpex (Reg.fmhChfence (c / 32)) (c % 32) = true
      ∧ (s.fenceChannel c cause offset).flag .ronpex Reg.fmhErr 2 = true
      ∧ (∀ m, m < 128 → m ≠ c → (s.fenceChannel c cause offset).flag .ronpex (Reg.fmhChfence (m / 32)) (m % 32)
          = s.flag .ronpex (Reg.fmhChfence (m / 32)) (m % 32))
      ∧ onlyRonpex s (s.fenceChannel c cause offset) := by
  have hregs : (s.fenceChannel c cause offset).rpRegs = (((s.fmhError 2 offset 1 s.regionSkeins).hardFence (288 + c) cause).setFlag .ronpex
      (Reg.fmhChfence (c / 32)) (c % 32) true).rpRegs := by
    unfold State.fenceChannel
    rw [if_neg (by rw [h]; decide)]
    simp
  have hfirst (a : Nat) (ha : a ∉ reportRegs) : ((s.fmhError 2 offset 1 s.regionSkeins).hardFence (288 + c) cause).reg .ronpex a
      = (s.fmhError 2 offset 1 s.regionSkeins).reg .ronpex a := State.reg_of_rpRegs (by simp) ha
  refine ⟨?_, ?_, fun m hm hne => ?_, onlyRonpex_of (by simp) (by simp)⟩
  · rw [State.flag_congr (State.reg_of_rpRegs hregs (notMem_reportRegs_chfence c hc)), State.flag_setFlag_same _ _ _ (by omega)]
  · have hne : Reg.fmhChfence (c / 32) ≠ Reg.fmhErr := by
      unfold Reg.fmhChfence Reg.fmhErr
      omega
    rw [State.flag_congr (State.reg_of_rpRegs hregs (by decide)), State.flag_congr (State.reg_setFlag_other _ _ _ _ _ _ _ (.inr hne)),
      State.flag_congr (hfirst _ (by decide)), State.flag_fmhError _ (by omega)]
  · have hm' := notMem_reportRegs_chfence m hm
    have hbase : (s.fmhError 2 offset 1 s.regionSkeins).reg .ronpex (Reg.fmhChfence (m / 32)) = s.reg .ronpex (Reg.fmhChfence (m / 32)) := by
      refine State.reg_fmhError ?_ 2 offset 1 _
      unfold endsIn
      rintro (hr | he | ⟨r, hr⟩)
      · exact hm' hr
      · simp only [Reg.fmhChfence, Reg.fmhErr] at he
        omega
      · simp only [Reg.fmhChfence, Reg.fmhRelayCtl] at hr
        omega
    rw [State.flag_congr (State.reg_of_rpRegs hregs hm')]
    by_cases ha : Reg.fmhChfence (m / 32) = Reg.fmhChfence (c / 32)
    · have hb : m % 32 ≠ c % 32 := fun hb => hne (chfence_injective ha hb)
      rw [← ha, State.flag_setFlag_other _ _ _ (by omega) hb, State.flag_congr (hfirst _ hm'), State.flag_congr hbase]
    · rw [State.flag_congr (State.reg_setFlag_other _ _ _ _ _ _ _ (.inr (Ne.symm ha))), State.flag_congr (hfirst _ hm'),
        State.flag_congr hbase]

/-! ### Regions -/

theorem regionSpindles_lt {r n : Nat} (hr : r < 16) (h : n ∈ regionSpindles r) : n < 96 := by
  unfold regionSpindles regionClusters clusterSpindles at h
  simp only [List.mem_flatMap, List.mem_map, List.mem_range] at h
  obtain ⟨k, ⟨i, hi, rfl⟩, hj⟩ := h
  simp only [List.mem_cons, List.not_mem_nil, or_false] at hj
  omega

/-- The units of a region are fenced, and what waits in their eddies is lost. -/
def State.regionFenced (s : State) (r cause : Nat) : State :=
  ((regionPorts r ++ (regionSpindles r).map (192 + ·)).foldl (fun (t : State) (i : Nat) =>
    if t.unitState i = 1 ∨ t.unitState i = 3 then t else t.hardFence i cause) s).loseEddies (regionPorts r)

/-- A region is cleared and put into reset at a time. -/
def State.regionCleared (s : State) (r now : Nat) : State :=
  (s.resetRegion r).modUnits fun u : Units => { u with regions := (u.regions.filter fun x => x.1 != r) ++ [(r, now)] }

theorem State.unitMarks_regionFenced (s : State) (r cause : Nat) : (s.regionFenced r cause).unitMarks = s.unitMarks := by
  unfold State.regionFenced
  simp

theorem State.rpLinks_regionFenced (s : State) (r cause : Nat) : (s.regionFenced r cause).rpLinks = s.rpLinks := by
  unfold State.regionFenced
  simp

/-- The ports of a region show its cause. -/
def State.portsCaused (s : State) (r cause : Nat) : State :=
  (regionPorts r).foldl (fun t n => t.setFld .ronpex (portBase n) 8 8 cause) s

/-- The spindles of a region have its cause. -/
def State.spindlesCaused (s : State) (r cause : Nat) : State := (regionSpindles r).foldl (fun t n => t.setUnit (192 + n) cause 0) s

theorem State.rpRegs_resetRegionAt (s : State) (r cause : Nat) (quiet : Bool) :
    (s.resetRegionAt r cause quiet).rpRegs = (((s.regionFenced r cause).regionCleared r s.now).portsCaused r cause).rpRegs := by
  rw [State.portsCaused, State.regionCleared, State.regionFenced, State.resetRegionAt]
  simp

theorem State.unitMarks_resetRegionAt (s : State) (r cause : Nat) (quiet : Bool) :
    (s.resetRegionAt r cause quiet).unitMarks = ((((s.regionFenced r cause).regionCleared r s.now).portsCaused r cause).spindlesCaused r cause).unitMarks := by
  rw [State.spindlesCaused, State.portsCaused, State.regionCleared, State.regionFenced, State.resetRegionAt]
  simp

theorem State.cause_portsCaused (s : State) (r cause : Nat) : (s.portsCaused r cause).rp.units.cause = s.rp.units.cause :=
  State.cause_of_unitMarks (by unfold State.portsCaused; simp)

theorem State.cause_regionCleared (s : State) (r now : Nat) : (s.regionCleared r now).rp.units.cause = s.rp.units.cause := rfl

/-- The links after a region's reset: those of its own ports are as they begin. -/
theorem State.links_resetRegionAt (s : State) (r cause : Nat) (quiet : Bool) :
    (s.resetRegionAt r cause quiet).rp.links = s.rp.links.filter fun e => !(regionPorts r).contains e.1 := by
  have hall : (s.resetRegionAt r cause quiet).rpLinks = ((s.regionFenced r cause).regionCleared r s.now).rpLinks := by
    rw [State.regionCleared, State.regionFenced, State.resetRegionAt]
    simp
  have hcleared (t : State) : (t.regionCleared r s.now).rpLinks = t.rpLinks.filter fun e => !(regionPorts r).contains e.1 := rfl
  rw [State.rp_links, State.rp_links, hall, hcleared, State.rpLinks_regionFenced]

theorem State.link_resetRegionAt {s : State} {r q : Nat} (h : q ∉ regionPorts r) (cause : Nat) (quiet : Bool) :
    (s.resetRegionAt r cause quiet).link .ronpex q = s.link .ronpex q := by
  have hlook := SMap.look_filter (fun _ => ({} : Link)) s.rp.links (fun e => !(regionPorts r).contains e) q
  show SMap.look _ (s.resetRegionAt r cause quiet).rp.links q = SMap.look _ s.rp.links q
  rw [State.links_resetRegionAt]
  exact hlook.trans (if_pos (by simpa using h))

theorem State.fld_foldl_cause {cause p : Nat} (hc : cause < 256) (hp : p < 192) {l : List Nat} (hl : ∀ n ∈ l, n < 192) (s : State)
    (h : p ∈ l ∨ s.fld .ronpex (portBase p) 8 8 = cause) :
    (l.foldl (fun t n => t.setFld .ronpex (portBase n) 8 8 cause) s).fld .ronpex (portBase p) 8 8 = cause := by
  induction l generalizing s with
  | nil => exact h.resolve_left List.not_mem_nil
  | cons n l ih =>
    rw [List.foldl_cons]
    refine ih (fun m hm => hl m (List.mem_cons_of_mem _ hm)) _ ?_
    by_cases hn : n = p
    · right
      rw [hn, State.fld_setFld_same _ _ _ _ _ _ (by omega), Nat.mod_eq_of_lt (by omega)]
    · rcases h with h | h
      · exact .inl ((List.mem_cons.1 h).resolve_left (Ne.symm hn))
      · have hbase : portBase n ≠ portBase p := fun heq => hn (portBase_injective (hl n List.mem_cons_self) hp heq)
        exact .inr ((State.fld_congr (State.reg_setFld_other _ _ _ _ _ _ _ _ (.inr hbase)) 8 8).trans h)

theorem regionPorts_lt {r p : Nat} (hr : r < 16) (h : p ∈ regionPorts r) : p < 192 := by
  unfold regionPorts at h
  simp only [List.mem_map, List.mem_range] at h
  omega

/-- The registers at the end of a region's reset are those in which the CAUSE of its ports has been written. -/
theorem State.fld_resetRegionAt {s : State} {r p cause : Nat} (hr : r < 16) (hc : cause < 256) (hp : p ∈ regionPorts r) (quiet : Bool) :
    (s.resetRegionAt r cause quiet).fld .ronpex (portBase p) 8 8 = cause := by
  rw [State.fld_congr (State.reg_of_rpRegs (s.rpRegs_resetRegionAt r cause quiet) (notMem_reportRegs (le_portBase p)))]
  exact State.fld_foldl_cause hc (regionPorts_lt hr hp) (fun n => regionPorts_lt hr) _ (.inl hp)

/-- The causes of the units that are no spindles after a region's reset. -/
theorem State.cause_resetRegionAt {s : State} {r i : Nat} (hr : r < 16) (hi : 288 ≤ i) (cause : Nat) (quiet : Bool) :
    SMap.look (fun _ => 0) (s.resetRegionAt r cause quiet).rp.units.cause i = SMap.look (fun _ => 0) s.rp.units.cause i := by
  have hspindles (l : List Nat) (hl : ∀ n ∈ l, n < 96) (t : State) : SMap.look (fun _ => 0)
      (l.foldl (fun t n => t.setUnit (192 + n) cause 0) t).rp.units.cause i = SMap.look (fun _ => 0) t.rp.units.cause i := by
    induction l generalizing t with
    | nil => rfl
    | cons n l ih =>
      have hn := hl n List.mem_cons_self
      rw [List.foldl_cons, ih fun m hm => hl m (List.mem_cons_of_mem _ hm)]
      exact SMap.look_put_other _ _ _ _ _ (by omega)
  rw [State.cause_of_unitMarks (s.unitMarks_resetRegionAt r cause quiet), State.spindlesCaused,
    hspindles _ fun n => regionSpindles_lt hr, State.cause_portsCaused, State.cause_regionCleared,
    State.cause_of_unitMarks (s.unitMarks_regionFenced r cause)]

/-- What a region's reset does. -/
theorem State.resetRegionAt_does (s : State) {r : Nat} (hr : r < 16) :
    (s.resetRegionAt r 4 false).regionOff r = true ∧ (r, s.now) ∈ (s.resetRegionAt r 4 false).rp.units.regions
      ∧ (∀ p ∈ regionPorts r, (s.resetRegionAt r 4 false).fld .ronpex (portBase p) 8 8 = 4)
      ∧ (∀ q, q / 12 ≠ r → (s.resetRegionAt r 4 false).link .ronpex q = s.link .ronpex q)
      ∧ onlyRonpex s (s.resetRegionAt r 4 false) := by
  have hmem : (r, s.now) ∈ (s.resetRegionAt r 4 false).rp.units.regions := by
    rw [State.regions_resetRegionAt]
    exact List.mem_append_right _ (List.mem_singleton_self _)
  refine ⟨State.regionOff_of_mem hmem, hmem, fun p hp => State.fld_resetRegionAt hr (by omega) hp false, fun q hq => ?_,
    onlyRonpex_of (by simp) (by simp)⟩
  refine State.link_resetRegionAt (fun hmem => ?_) 4 false
  unfold regionPorts at hmem
  simp only [List.mem_map, List.mem_range] at hmem
  omega

/-! ### Dies -/

/-- The regions of a die are put into reset one after another. -/
def State.dieRegions (s : State) (d cause : Nat) : State :=
  (List.range 4).foldl (fun t r => t.resetRegionAt (4 * d + r) cause true) s

theorem State.dieRegions_does {d : Nat} (hd : d < 4) (s : State) (cause : Nat) :
    (∀ q, q / 48 ≠ d → (s.dieRegions d cause).link .ronpex q = s.link .ronpex q)
      ∧ ∀ i, 288 ≤ i → SMap.look (fun _ => 0) (s.dieRegions d cause).rp.units.cause i = SMap.look (fun _ => 0) s.rp.units.cause i := by
  unfold State.dieRegions
  refine ⟨fun q hq => ?_, fun i hi => ?_⟩
  · refine foldl_range_induct (I := fun _ (t : State) => t.link .ronpex q = s.link .ronpex q) rfl fun r t hr ht => ?_
    refine (State.link_resetRegionAt (fun hmem => ?_) cause true).trans ht
    unfold regionPorts at hmem
    simp only [List.mem_map, List.mem_range] at hmem
    omega
  · exact foldl_range_induct (I := fun _ (t : State) => SMap.look (fun _ => 0) t.rp.units.cause i = SMap.look (fun _ => 0) s.rp.units.cause i) rfl
      fun r t hr ht => (State.cause_resetRegionAt (by omega) hi cause true).trans ht

/-- The stack of a die is lost as its reset begins. -/
def State.dieBegun (s : State) (d : Nat) : State :=
  (s.modUnits fun u => { u with dies := (u.dies.filter fun x => x.1 != d) ++ [(d, s.now)] }).dieLost d

theorem State.resetDie_regions (s : State) (d cause : Nat) :
    (s.resetDie d cause).rpLinks = ((s.dieBegun d).dieRegions d cause).rpLinks
      ∧ (s.resetDie d cause).unitMarks = ((s.dieBegun d).dieRegions d cause).unitMarks := by
  unfold State.resetDie
  refine ⟨?_, ?_⟩
  · simp only [State.rpLinks_partEventFor, State.rpLinks_showUnits]
    rfl
  · simp only [State.unitMarks_partEventFor, State.unitMarks_showUnits]
    rfl

/-- The causes of the channels of a die whose stack is lost are forgotten. -/
theorem State.cause_dieBegun (s : State) {d c : Nat} (hc : c < 32) :
    SMap.look (fun _ => 0) (s.dieBegun d).rp.units.cause (288 + 32 * d + c) = 0 := by
  have hlook := SMap.look_filter (fun _ => (0 : Nat)) s.rp.units.cause (fun i => !(decide (288 + 32 * d ≤ i) && decide (i < 320 + 32 * d)))
    (288 + 32 * d + c)
  refine Eq.trans ?_ (hlook.trans (if_neg ?_))
  · rfl
  · simp
    omega

/-- What a die's reset does. -/
theorem State.resetDie_does (s : State) {d : Nat} (hd : d < 4) :
    (d, s.now) ∈ (s.resetDie d 4).rp.units.dies
      ∧ (∀ a, (s.resetDie d 4).hbmByte a = if chanOf a / 32 = d then 0 else s.hbmByte a)
      ∧ (∀ c < 32, (s.resetDie d 4).unitCause (288 + 32 * d + c) = 0)
      ∧ (∀ q, q / 48 ≠ d → (s.resetDie d 4).link .ronpex q = s.link .ronpex q)
      ∧ (s.resetDie d 4).ep = s.ep ∧ (s.resetDie d 4).now = s.now ∧ (s.resetDie d 4).pending = s.pending := by
  obtain ⟨hep, hnow, hpending, -⟩ := s.resetDie_keeps d 4
  obtain ⟨hlinks, hmarks⟩ := s.resetDie_regions d 4
  obtain ⟨rlinks, rcause⟩ := State.dieRegions_does hd (s.dieBegun d) 4
  refine ⟨?_, fun a => s.hbmByte_resetDie d 4 a, fun c hc => ?_, fun q hq => ?_, hep, hnow, hpending⟩
  · rw [State.dies_resetDie]
    exact List.mem_append_right _ (List.mem_singleton_self _)
  · rw [State.unitCause, if_neg (by omega), if_pos (by omega), State.cause_of_unitMarks hmarks, rcause _ (by omega), State.cause_dieBegun _ hc]
  · have hl : (s.resetDie d 4).link .ronpex q = ((s.dieBegun d).dieRegions d 4).link .ronpex q := by
      show SMap.look _ (s.resetDie d 4).rp.links q = SMap.look _ ((s.dieBegun d).dieRegions d 4).rp.links q
      rw [State.rp_links, hlinks]
      rfl
    rw [hl, rlinks q hq]
    rfl

/-! ### The fences together -/

theorem State.unitCtl_fence {i v : Nat} (h : bit 0 v = true) (s : State) (wr : Writer) : s.unitCtl i v wr = s.softFence i wr := by
  unfold State.unitCtl
  rw [if_pos h]

/-- Settles O42, unit by unit: each fence writes the registers of the unit that it names, and its reports write none of another unit. -/
theorem unitFences : Obligations.UnitFences := by
  intro s
  refine ⟨fun n hn h1 h3 => ?_, fun n hf hr => ?_, fun n hn h => ?_, fun c hc h => ?_, fun r hr h => ?_, fun d hd h => ?_⟩
  · have hidle : ¬s.portIdle n := (s.portIdle_iff hn).not.2 (not_or.2 ⟨h1, h3⟩)
    refine ⟨⟨s.fencePort n 1, ?_, State.portFenced_fencePort hn (by omega) hidle⟩, fun k i v w hk hi ht hv => ⟨?_, ?_⟩⟩
    · exact congrArg Host.Outcome.next (if_pos hn)
    · refine ⟨_, congrArg Host.Outcome.next (State.wrote_ronpex ht _ _ _), ?_⟩
      rw [State.unitCtl_fence hv, hk]
      exact State.softFence_port (State.logged_logWrite _ _ _ _) hn hidle w
    · refine ⟨_, congrArg Host.Outcome.next (State.wrote_ronpex ht _ _ _), ?_⟩
      rw [State.unitCtl_fence hv, hi]
      exact State.softFence_port (State.logged_logWrite _ _ _ _) hn hidle w
  · have hcase : ∀ (i : Fin 609) (v : Word) (w : Writer), i.val = 192 + n.val → rpTakes s w → bit 0 v.toNat = true →
        (∃ t, exec (.spdFence n v w) s = .next t ∧ spindleFenced n 5 s t) ∧ (∃ t, exec (.uctlFence i v w) s = .next t ∧ spindleFenced n 5 s t) := by
      intro i v w hi ht hv
      refine ⟨⟨_, congrArg Host.Outcome.next ((State.wrote_ronpex ht _ _ _).trans (if_pos hv)), ?_⟩,
        ⟨_, congrArg Host.Outcome.next (State.wrote_ronpex ht _ _ _), ?_⟩⟩
      · exact State.softFence_spindle (State.logged_logWrite _ _ _ _) n.isLt hf hr w
      · rw [State.unitCtl_fence hv, hi]
        exact State.softFence_spindle (State.logged_logWrite _ _ _ _) n.isLt hf hr w
    refine ⟨⟨_, rfl, State.spindleFenced_fenceSpindle n.isLt hf hr 1⟩, ⟨s.fenceSpindle n 1, congrArg Host.Outcome.next ?_,
      State.spindleFenced_fenceSpindle n.isLt hf hr 1⟩, hcase⟩
    have hn := n.isLt
    unfold State.siteFault
    dsimp only
    rw [if_neg (by omega), if_pos (by omega), Nat.add_sub_cancel_left]
  · refine congrArg Host.Outcome.next ((if_pos hn).trans (State.fencePort_idle ((s.portIdle_iff hn).2 h) 1))
  · obtain ⟨h1, h2, h3, h4⟩ := State.fenceChannel_does hc h 1 0
    refine ⟨s.fenceChannel c 1 0, congrArg Host.Outcome.next ?_, h1, h2, h3, h4⟩
    unfold State.siteFault
    dsimp only
    rw [if_neg (by omega), if_neg (by omega), if_pos (by omega), Nat.add_sub_cancel_left]
  · exact ⟨s.resetRegionAt r 4 false, congrArg Host.Outcome.next (if_neg (by rw [h]; decide)), s.resetRegionAt_does hr⟩
  · exact ⟨s.resetDie d 4, congrArg Host.Outcome.next (if_pos h), s.resetDie_does hd⟩

end Sys2Proof.Machine
end

section
/-! The quarantine of units (R352, R353, R399): the persistent words it advances, the units that enter it, and its steps. -/

namespace Sys2Proof.Machine

open Sys2Proof Sys2Proof.Claims

/-! ### Words of the persistent store -/

/-- The store after a write of a word that is not worn out. -/
def Pst.written (p : Pst) (a v : Nat) : Pst :=
  { p with words := SMap.put pstDefault p.words a (BitVec.ofNat 32 v), wear := SMap.put (fun _ => 0) p.wear (pstIndex a) (p.wearOf a + 1) }

theorem State.pst_post (s : State) (e : Event) : (s.post e).rp.pst = s.rp.pst := by
  obtain ⟨o, m, x, h⟩ := State.post_only s e
  rw [h]

theorem State.pst_pstCell {s : State} {a : Nat} (h : s.rp.pst.locked a = false) (v : Nat) :
    (s.pstCell a v).rp.pst = s.rp.pst.written a v := by
  unfold State.pstCell
  dsimp only
  rw [if_neg (by rw [h]; decide)]
  split
  · exact State.pst_post _ _
  · split
    · exact State.pst_post _ _
    · rfl

theorem Pst.word_of_queue {p : Pst} {a : Nat} (h : ∀ e ∈ p.queue, e.1 ≠ a) : p.word a = (SMap.look pstDefault p.words a).toNat := by
  have hnone : p.queue.reverse.find? (fun q => q.1 == a) = none :=
    List.find?_eq_none.2 fun e he => by simpa using h e (List.mem_reverse.1 he)
  rw [Pst.word, hnone]

theorem Pst.word_written_same {p : Pst} {a : Nat} (h : ∀ e ∈ p.queue, e.1 ≠ a) (v : Nat) : (p.written a v).word a = v % 2 ^ 32 := by
  rw [Pst.word_of_queue (p := p.written a v) h]
  show (SMap.look pstDefault (SMap.put pstDefault p.words a (BitVec.ofNat 32 v)) a).toNat = _
  rw [SMap.look_put_same, BitVec.toNat_ofNat]

theorem Pst.word_written_other (p : Pst) {a b : Nat} (h : b ≠ a) (v : Nat) : (p.written a v).word b = p.word b := by
  show (match p.queue.reverse.find? fun q => q.1 == b with
    | some q => q.2.toNat
    | none => (SMap.look pstDefault (SMap.put pstDefault p.words a (BitVec.ofNat 32 v)) b).toNat) = _
  rw [SMap.look_put_other _ _ _ _ _ h]
  rfl

theorem Pst.locked_written_other (p : Pst) {a b : Nat} (h : pstIndex b ≠ pstIndex a) (v : Nat) : (p.written a v).locked b = p.locked b := by
  show decide (100000 ≤ SMap.look (fun _ => 0) (SMap.put (fun _ => 0) p.wear (pstIndex a) (p.wearOf a + 1)) (pstIndex b)) = _
  rw [SMap.look_put_other _ _ _ _ _ h]
  rfl

theorem pstIndex_pstGen (k : Nat) : pstIndex (Reg.pstGen k) = 640 + k := by
  unfold pstIndex Reg.pstGen
  omega

theorem pstGen_injective {j k : Nat} (h : Reg.pstGen j = Reg.pstGen k) : j = k := by
  unfold Reg.pstGen at h
  omega

/-- A state in which one persistent word, and what the write of one reports, may differ. -/
structure State.Persisted (s t : State) (q : Pst) : Prop where
  pst : t.rp.pst = q
  units : t.rp.units = s.rp.units
  fmem : t.rp.fmem = s.rp.fmem
  regs : t.rpRegs = s.rpRegs
  links : t.rpLinks = s.rpLinks
  now : t.now = s.now
  only : onlyRonpex s t

theorem State.persisted_pstCell {s : State} {a : Nat} (h : s.rp.pst.locked a = false) (v : Nat) :
    s.Persisted (s.pstCell a v) (s.rp.pst.written a v) := by
  obtain ⟨o, m, q, l, x, hx⟩ := s.pstCell_only a v
  refine ⟨State.pst_pstCell h v, ?_, ?_, by simp, by simp, ?_, onlyRonpex_of (by simp) (by simp)⟩ <;> rw [hx]

/-- The store once the generation of a unit has advanced. -/
def State.aged (s : State) (i : Nat) : Pst :=
  s.rp.pst.written (Reg.pstGen (i / 2)) (setBits (16 * (i % 2)) 16 ((s.gen i + 1) % 2 ^ 16) (s.rp.pst.word (Reg.pstGen (i / 2))))

theorem State.genAdvance_open {s : State} {i : Nat} (h : s.rp.pst.locked (Reg.pstGen (i / 2)) = false) :
    ∃ t, s.genAdvance i = some t ∧ s.Persisted t (s.aged i) := by
  refine ⟨_, ?_, State.persisted_pstCell h _⟩
  unfold State.genAdvance
  rw [if_neg (by rw [h]; decide)]

theorem bits_mod_of_le {lo len n : Nat} (h : lo + len ≤ n) (w : Nat) : bits lo len (w % 2 ^ n) = bits lo len w := by
  refine Nat.eq_of_testBit_eq fun j => ?_
  rw [testBit_bits, testBit_bits, Nat.testBit_mod_two_pow]
  by_cases hj : j < len
  · simp [hj, show lo + j < n by omega]
  · simp [hj]

theorem State.gen_aged {s t : State} {i : Nat} (h : t.rp.pst = s.aged i) (hq : ∀ e ∈ s.rp.pst.queue, e.1 ≠ Reg.pstGen (i / 2)) :
    t.gen i = (s.gen i + 1) % 2 ^ 16 := by
  rw [State.gen, h, State.aged, Pst.word_written_same hq, bits_mod_of_le (by omega), bits_setBits_same, Nat.mod_mod]

theorem State.gen_aged_other {s t : State} {i j : Nat} (h : t.rp.pst = s.aged i) (hne : j / 2 ≠ i / 2) : t.gen j = s.gen j := by
  rw [State.gen, h, State.aged, Pst.word_written_other _ fun he => hne (pstGen_injective he)]
  rfl

theorem State.locked_aged {s t : State} {i j : Nat} (h : t.rp.pst = s.aged i) (hne : j / 2 ≠ i / 2) :
    t.rp.pst.locked (Reg.pstGen (j / 2)) = s.rp.pst.locked (Reg.pstGen (j / 2)) := by
  rw [h, State.aged, Pst.locked_written_other _ (by rw [pstIndex_pstGen, pstIndex_pstGen]; omega)]

/-! ### Units enter quarantine -/

theorem portWords_apart {m n : Nat} (hm : m < 192) (hn : n < 192) (h : n ≠ m) : portBase n ≠ portBase m ∧ portBase n ≠ portBase m + 0xC
    ∧ portBase n + 0xC ≠ portBase m ∧ portBase n + 0xC ≠ portBase m + 0xC := by
  unfold portBase
  omega

theorem spindleBase_ne_port (n m : Nat) : spindleBase n ≠ portBase m ∧ spindleBase n ≠ portBase m + 0xC := by
  unfold portBase spindleBase
  omega

/-- A unit that enters quarantine writes no register of a port unit but its own. -/
theorem State.reg_quarantine_other (s : State) {i m a : Nat} (hm : m < 192) (hne : i ≠ m) (ha : a = portBase m ∨ a = portBase m + 0xC) :
    (s.quarantine i).reg .ronpex a = s.reg .ronpex a := by
  have hbase := le_portBase m
  have hra : a ∉ reportRegs := notMem_reportRegs (by omega)
  have hshow (t : State) : (t.showUnits false [i]).reg .ronpex a = t.reg .ronpex a := State.reg_of_rpRegs (by simp) hra
  have hheld (t : State) : (t.holdBack i).reg .ronpex a = t.reg .ronpex a := rfl
  have hunits (t : State) (f : Units → Units) : (t.modUnits f).reg .ronpex a = t.reg .ronpex a := rfl
  have hsp := spindleBase_ne_port (i - 192) m
  have hport (hi : i < 192) : portBase i ≠ a ∧ portBase i + 0xC ≠ a := by
    obtain ⟨h1, h2, h3, h4⟩ := portWords_apart hm hi hne
    rcases ha with rfl | rfl
    · exact ⟨h1, h3⟩
    · exact ⟨h2, h4⟩
  unfold State.quarantine
  split
  · dsimp only
    split
    · next hi => rw [hshow, State.reg_setReg_other _ _ _ _ _ _ (.inr (hport hi).1), hheld]
    · split
      · rw [hshow, State.reg_setFlag_other _ _ _ _ _ _ _ (.inr (by omega)), hheld]
      · split
        · rw [hshow, State.reg_setFlag_other _ _ _ _ _ _ _ (.inr (by unfold Reg.fmhChfence; omega)), hheld]
        · rw [hheld]
  · split
    · next hi =>
      dsimp only
      rw [hshow, hunits, State.reg_setFld_other _ _ _ _ _ _ _ _ (.inr (hport hi).2), State.reg_setFld_other _ _ _ _ _ _ _ _ (.inr (hport hi).1)]
    · split
      · exact hshow _
      · rfl

/-- A port unit that PST.FENCE does not hold enters quarantine at step 1. -/
theorem State.quarantine_port {s : State} {n : Nat} (hn : n < 192) (h : s.pstFenced n = false) :
    (s.quarantine n).unitState n = 2 ∧ (s.quarantine n).unitQstep n = 1 := by
  have hbase := le_portBase n
  have heq : s.quarantine n = ((((s.setFld .ronpex (portBase n) 0 2 2).setFld .ronpex (portBase n + 0xC) 0 3 1).modUnits fun u =>
      { u with since := SMap.put (fun _ => 0) u.since n s.now }).showUnits false [n]) := by
    unfold State.quarantine
    rw [if_neg (by rw [h]; decide), if_pos hn]
  have hreg (a : Nat) (ha : 0x1000000 ≤ a) : (s.quarantine n).reg .ronpex a
      = ((s.setFld .ronpex (portBase n) 0 2 2).setFld .ronpex (portBase n + 0xC) 0 3 1).reg .ronpex a := by
    rw [heq]
    exact State.reg_of_rpRegs (by simp) (notMem_reportRegs ha)
  refine ⟨?_, ?_⟩
  · rw [State.unitState_port _ hn, State.fld_congr (hreg _ hbase), State.fld_congr (State.reg_setFld_other _ _ _ _ _ _ _ _ (.inr (by omega))),
      State.fld_setFld_same _ _ _ _ _ _ (by omega)]
    rfl
  · rw [State.unitQstep, if_pos hn, State.fld_congr (hreg _ (by omega)), State.fld_setFld_same _ _ _ _ _ _ (by omega)]
    rfl

theorem State.pst_setFld (s : State) (p : Part) (a lo len v : Nat) : (s.setFld p a lo len v).rp.pst = s.rp.pst := by
  unfold State.setFld
  simp

theorem State.pst_setFlag (s : State) (p : Part) (a i : Nat) (b : Bool) : (s.setFlag p a i b).rp.pst = s.rp.pst := s.pst_setFld p a i 1 _

theorem State.pst_quarantine (s : State) (i : Nat) : (s.quarantine i).rp.pst = s.rp.pst := by
  have hshow (t : State) : (t.showUnits false [i]).rp.pst = t.rp.pst := congrArg (·.2.2.2.2.2) (State.unitMarks_showUnits t false [i])
  unfold State.quarantine State.holdBack State.setUnit
  split
  · dsimp only
    split
    · rw [hshow]
      simp
    · split
      · rw [hshow, State.pst_setFlag]
        simp
      · split
        · rw [hshow, State.pst_setFlag]
          simp
        · simp
  · split
    · dsimp only
      rw [hshow, State.modUnits_rp_pst, State.pst_setFld, State.pst_setFld]
    · split
      · rw [hshow]
        simp
      · rfl

theorem State.inReset_holdBack (s : State) (i : Nat) : (s.holdBack i).inReset = s.inReset := rfl

theorem State.inReset_since (s : State) (i now : Nat) :
    (s.modUnits fun u : Units => { u with since := SMap.put (fun _ => 0) u.since i now }).inReset = s.inReset := rfl

@[simp] theorem State.inReset_quarantine (s : State) (i : Nat) : (s.quarantine i).inReset = s.inReset := by
  unfold State.quarantine
  split
  · dsimp only
    split
    · rw [State.inReset_showUnits, State.inReset_setReg, State.inReset_holdBack]
    · split
      · rw [State.inReset_showUnits, State.inReset_setFlag, State.inReset_holdBack]
      · split
        · rw [State.inReset_showUnits, State.inReset_setFlag, State.inReset_holdBack]
        · exact State.inReset_holdBack _ _
  · split
    · dsimp only
      rw [State.inReset_showUnits, State.inReset_since, State.inReset_setFld, State.inReset_setFld]
    · split
      · rw [State.inReset_showUnits, State.inReset_setUnit]
      · rfl

end Sys2Proof.Machine
end

section
/-! What sending, reporting and fencing leave of the warp plane. -/

namespace Sys2Proof.Machine

open Sys2Proof Sys2Proof.Claims

/-- What the warp plane of the Ronpex holds, but for the containers it has logged as without a route. -/
def State.rpWarp (s : State) : Warp := { s.rp.warp with logged := [] }

@[simp] theorem State.rpWarp_eq (s : State) : { s.rp.warp with logged := [] } = s.rpWarp := by rw [State.rpWarp]

@[simp] theorem State.rpWarp_mk (n f : Nat) (l : List Instr) (o : List Out) (m : SMap Byte) (r : Ronpex) (e : Plocen) :
    State.rpWarp { now := n, free := f, pending := l, out := o, hbm := m, rp := r, ep := e } = { r.warp with logged := [] } := by rw [State.rpWarp]

@[simp] theorem Ronpex.setReg_warp (r : Ronpex) (a v : Nat) : (r.setReg a v).warp = r.warp := by rw [Ronpex.setReg]

@[simp] theorem State.rpWarp_ite (c : Prop) [Decidable c] (a b : State) :
    (if c then a else b).rpWarp = if c then a.rpWarp else b.rpWarp := by
  split <;> rfl

@[simp] theorem State.rpWarp_foldl {α : Type} (g : State → α → State) (h : ∀ t x, (g t x).rpWarp = t.rpWarp) (l : List α) (s : State) :
    (l.foldl g s).rpWarp = s.rpWarp := by
  induction l generalizing s with
  | nil => rfl
  | cons x r ih => rw [List.foldl_cons, ih, h]

theorem State.rpWarp_getD (o : Option State) (s : State) (h : ∀ t, o = some t → t.rpWarp = s.rpWarp) : (o.getD s).rpWarp = s.rpWarp := by
  cases o with
  | none => rfl
  | some t => exact h t rfl

/-! ### Machine/Ops -/

@[simp] theorem State.rpWarp_setReg (s : State) (a v : Nat) :
    (s.setReg .ronpex a v).rpWarp = s.rpWarp := by
  unfold State.setReg
  simp

@[simp] theorem State.rpWarp_setFld (s : State) (a lo len v : Nat) :
    (s.setFld .ronpex a lo len v).rpWarp = s.rpWarp := by
  unfold State.setFld
  simp

@[simp] theorem State.rpWarp_satFld (s : State) (a lo len n : Nat) :
    (s.satFld .ronpex a lo len n).rpWarp = s.rpWarp := by
  unfold State.satFld
  simp

@[simp] theorem State.rpWarp_setFlag (s : State) (a i : Nat) (b : Bool) :
    (s.setFlag .ronpex a i b).rpWarp = s.rpWarp := by
  unfold State.setFlag
  simp

@[simp] theorem State.rpWarp_setSource (s : State) (x : Source) :
    (s.setSource .ronpex x).rpWarp = s.rpWarp := by
  unfold State.setSource
  simp

@[simp] theorem State.rpWarp_emit (s : State) (o : Out) :
    (s.emit o).rpWarp = s.rpWarp := by
  unfold State.emit
  simp

@[simp] theorem State.rpWarp_msix (s : State) (v : Nat) :
    (s.msix v).rpWarp = s.rpWarp := by
  unfold State.msix
  simp

@[simp] theorem State.rpWarp_rpLog (s : State) (b : LogBody) :
    (s.rpLog b).rpWarp = s.rpWarp := by
  unfold State.rpLog
  simp

@[simp] theorem State.rpWarp_rpCond (s : State) (code origin requester port skein addr old new : Nat) :
    (s.rpCond code origin requester port skein addr old new).rpWarp = s.rpWarp := by
  unfold State.rpCond
  simp

@[simp] theorem State.rpWarp_evtWrite (s : State) (e : Event) :
    (s.evtWrite e).rpWarp = s.rpWarp := by
  unfold State.evtWrite
  simp

@[simp] theorem State.rpWarp_evtOverflow (s : State) :
    s.evtOverflow.rpWarp = s.rpWarp := by
  unfold State.evtOverflow
  simp

@[simp] theorem State.rpWarp_post (s : State) (e : Event) :
    (s.post e).rpWarp = s.rpWarp := by
  unfold State.post
  simp

@[simp] theorem State.rpWarp_postFor (s : State) (e : Event) (scope : Nat) (skeins : List Nat) :
    (s.postFor e scope skeins).rpWarp = s.rpWarp := by
  unfold State.postFor
  simp

/-! ### Machine/Route -/

@[simp] theorem State.rpWarp_offer (s : State) (port : Nat) (x : EddyEnt) :
    (s.offer port x).rpWarp = s.rpWarp := by
  unfold State.offer
  simp

theorem State.rpWarp_logged (s : State) (f : Warp → List Nat) :
    (s.modWarp fun w : Warp => { w with logged := f w }).rpWarp = s.rpWarp := rfl

@[simp] theorem State.rpWarp_logUnrouted (s : State) (p : Nat) (c : Container) :
    (s.logUnrouted p c).rpWarp = s.rpWarp := by
  unfold State.logUnrouted
  dsimp only
  split
  · rfl
  · rw [State.rpWarp_logged, State.rpWarp_rpCond]

@[simp] theorem State.rpWarp_goHome (s : State) (c : Container) :
    (s.goHome c).rpWarp = s.rpWarp := by
  unfold State.goHome
  simp

@[simp] theorem State.rpWarp_reflect (s : State) (x : EddyEnt) (noPath : Bool) :
    (s.reflect x noPath).rpWarp = s.rpWarp := by
  unfold State.reflect
  dsimp only
  repeat' split
  all_goals simp

@[simp] theorem State.rpWarp_toOutput (s : State) (r : Route) (x : EddyEnt) :
    (s.toOutput r x).rpWarp = s.rpWarp := by
  unfold State.toOutput
  repeat' split
  all_goals simp

/-! ### Machine/Send -/

@[simp] theorem State.rpWarp_hold (s : State) (dest skein plane planes : Nat) (loc : HeldAt) (m : Msg) (own : Owner) :
    (s.hold .ronpex dest skein plane planes loc m own).1.rpWarp = s.rpWarp := by
  unfold State.hold
  simp

@[simp] theorem State.rpWarp_rpSend (s : State) (h : Held) :
    (s.rpSend h).rpWarp = s.rpWarp := by
  unfold State.rpSend
  simp

@[simp] theorem State.rpWarp_rpPush (s : State) :
    s.rpPush.rpWarp = s.rpWarp := by
  unfold State.rpPush
  simp

@[simp] theorem State.rpWarp_rpMgmtPort (s : State) (port dest : Nat) (m : Mgmt) (own : Owner) :
    (s.rpMgmtPort port dest m own).rpWarp = s.rpWarp := by
  unfold State.rpMgmtPort
  simp

/-! ### Machine/OrderOps -/

@[simp] theorem State.rpWarp_toEndPoint (s : State) (p : Nat) (m : Mgmt) :
    (s.toEndPoint p m).rpWarp = s.rpWarp := by
  unfold State.toEndPoint
  simp

@[simp] theorem State.rpWarp_toFarEnd (s : State) (p : Nat) (m : Mgmt) :
    (s.toFarEnd p m).rpWarp = s.rpWarp := by
  unfold State.toFarEnd
  repeat' split
  all_goals simp

@[simp] theorem State.rpWarp_orderToMembers (s : State) (o : SwitchOrder) :
    (s.orderToMembers o).rpWarp = s.rpWarp := by
  unfold State.orderToMembers
  simp

@[simp] theorem State.rpWarp_unitEvent (s : State) (i : Nat) :
    (s.unitEvent i).rpWarp = s.rpWarp := by
  unfold State.unitEvent
  simp

@[simp] theorem State.rpWarp_showUnits (s : State) (quiet : Bool) (l : List Nat) :
    (s.showUnits quiet l).rpWarp = s.rpWarp := by
  unfold State.showUnits
  simp

/-! ### Machine/FaultOps -/

@[simp] theorem State.rpWarp_partEventFor (s : State) (type n state cause : Nat) (skeins : List Nat) :
    (s.partEventFor type n state cause skeins).rpWarp = s.rpWarp := by
  unfold State.partEventFor
  simp

end Sys2Proof.Machine
end

section
/-! The steps of a unit's quarantine, and the units that a region's reset returns (R352, R353, R399). -/

namespace Sys2Proof.Machine

open Sys2Proof Sys2Proof.Claims

/-! ### What a port unit shows -/

/-- The two words of a port unit that its state and its step of quarantine stand in. -/
def State.samePort (s t : State) (n : Nat) : Prop :=
  t.reg .ronpex (portBase n) = s.reg .ronpex (portBase n) ∧ t.reg .ronpex (portBase n + 0xC) = s.reg .ronpex (portBase n + 0xC)

theorem State.samePort_of_rpRegs {s t : State} (h : t.rpRegs = s.rpRegs) (n : Nat) : s.samePort t n := by
  have hbase := le_portBase n
  exact ⟨State.reg_of_rpRegs h (notMem_reportRegs (by omega)), State.reg_of_rpRegs h (notMem_reportRegs (by omega))⟩

theorem State.samePort.trans {s t u : State} {n : Nat} (h : s.samePort t n) (k : t.samePort u n) : s.samePort u n :=
  ⟨k.1.trans h.1, k.2.trans h.2⟩

theorem State.samePort.shown {s t : State} {n : Nat} (h : s.samePort t n) (hn : n < 192) :
    t.unitState n = s.unitState n ∧ t.unitQstep n = s.unitQstep n := by
  obtain ⟨h1, h2⟩ := h
  refine ⟨?_, ?_⟩
  · rw [t.unitState_port hn, s.unitState_port hn, State.fld_congr h1]
  · rw [State.unitQstep, State.unitQstep, if_pos hn, if_pos hn, State.fld_congr h2]

theorem State.pstFenced_congr {s t : State} (h : t.rp.pst = s.rp.pst) (i : Nat) : t.pstFenced i = s.pstFenced i := by
  unfold State.pstFenced
  rw [h]

/-! ### A step ends -/

/-- The step of a port unit advances. -/
theorem State.qstepTo_port {s : State} {i n : Nat} (hi : i < 192) (hn : n < 8) :
    (s.qstepTo i n).unitState i = s.unitState i ∧ (s.qstepTo i n).unitQstep i = n := by
  have hreg (a : Nat) : (s.qstepTo i n).reg .ronpex a = (s.setFld .ronpex (portBase i + 0xC) 0 3 n).reg .ronpex a := by
    unfold State.qstepTo
    rw [if_pos hi]
    unfold State.setFld
    rw [State.reg_setReg, State.reg_setReg]
    rfl
  refine ⟨?_, ?_⟩
  · rw [State.unitState_port _ hi, State.unitState_port _ hi, State.fld_congr (hreg _),
      State.fld_congr (State.reg_setFld_other _ _ _ _ _ _ _ _ (.inr (by omega)))]
  · rw [State.unitQstep, if_pos hi, State.fld_congr (hreg _), State.fld_setFld_same _ _ _ _ _ _ (by omega), Nat.mod_eq_of_lt (by omega)]

theorem State.since_qstepTo (s : State) {i : Nat} (hi : i < 192) (n : Nat) :
    SMap.look (fun _ => 0) (s.qstepTo i n).rp.units.since i = s.now
      ∧ (n = 4 → SMap.look (fun _ => 0) (s.qstepTo i n).rp.units.qbase i = s.linkErrors i) := by
  unfold State.qstepTo
  rw [if_pos hi]
  refine ⟨SMap.look_put_same _ _ _ _, fun h => ?_⟩
  show SMap.look (fun _ => 0) (if n = 4 then SMap.put (fun _ => 0) s.rp.units.qbase i (s.linkErrors i) else s.rp.units.qbase) i = _
  rw [if_pos h, SMap.look_put_same]

theorem State.pst_qstepTo (s : State) (i n : Nat) : (s.qstepTo i n).rp.pst = s.rp.pst := by
  unfold State.qstepTo
  dsimp only
  split
  · rw [State.pst_setFld]
    rfl
  · rfl

/-- The step of a spindle or a channel controller advances. -/
theorem State.qstepTo_other {s : State} {i : Nat} (hi : ¬i < 192) (hi' : i < 416) (n : Nat) :
    (s.qstepTo i n).unitQstep i = n ∧ (s.qstepTo i n).rp.regs = s.rp.regs ∧ (s.qstepTo i n).inReset = s.inReset
      ∧ (s.qstepTo i n).rp.fmem = s.rp.fmem := by
  unfold State.qstepTo
  rw [if_neg hi]
  refine ⟨?_, rfl, rfl, rfl⟩
  rw [State.unitQstep, if_neg hi, if_pos hi']
  exact SMap.look_put_same _ _ _ _

theorem State.onlyRonpex_qstepTo (s : State) (i n : Nat) : onlyRonpex s (s.qstepTo i n) := onlyRonpex_of (by simp) (by simp)

theorem State.reg_modLink (s : State) (p : Part) (port : Nat) (f : Link → Link) (a : Nat) : (s.modLink p port f).reg .ronpex a = s.reg .ronpex a := by
  cases p <;> rfl

/-- Training that begins at a port leaves its port unit. -/
theorem State.samePort_startTraining {s : State} {n : Nat} (hn : n < 192) (h : s.pstFenced (416 + n) = false) :
    s.samePort (s.startTraining .ronpex n) n := by
  have hset := le_portSetBase n
  have hport : portBase n + 0xC < 0x5000000 := by
    unfold portBase
    omega
  have hbase := le_portBase n
  have hreg (a : Nat) (ha : 0x1000000 ≤ a) (hne : portSetBase n + 4 ≠ a) : (s.startTraining .ronpex n).reg .ronpex a = s.reg .ronpex a := by
    unfold State.startTraining
    split
    · rfl
    · rw [if_neg (by simp [h])]
      dsimp only
      have hshow (t : State) : (t.showUnits false [416 + n]).reg .ronpex a = t.reg .ronpex a :=
        State.reg_of_rpRegs (by simp) (notMem_reportRegs ha)
      rw [hshow, State.reg_modLink]
      exact State.reg_setFld_other _ _ _ _ _ _ _ _ (.inr hne)
  exact ⟨hreg _ (by omega) (by omega), hreg _ (by omega) (by omega)⟩

/-- A port unit as it comes into service, before its end point is told. -/
def State.portServes (s : State) (n : Nat) : State :=
  (((s.setFld .ronpex (portBase n) 0 2 0).setFld .ronpex (portBase n + 0xC) 0 3 0).modWarp fun w =>
    { w with idle := n :: w.idle.filter fun p => p != n }).showUnits false [n]

theorem State.portInService_eq (s : State) (n : Nat) : s.portInService n = if (s.portServes n).facesPlocen n then
      (s.portServes n).toEndPoint n (.portRelease ((s.portServes n).fld .ronpex (portSetBase n + 0x18) 0 8) ((s.portServes n).gen n))
    else s.portServes n := rfl

theorem State.idle_of_rpWarp {s t : State} (h : t.rpWarp = s.rpWarp) : t.rp.warp.idle = s.rp.warp.idle := congrArg (·.idle) h

/-- A port unit comes into service. -/
theorem State.portInService_does {s : State} {n : Nat} (hn : n < 192) :
    (s.portInService n).unitState n = 0 ∧ (s.portInService n).unitQstep n = 0 ∧ n ∈ (s.portInService n).rp.warp.idle := by
  have hbase := le_portBase n
  have hregs : (s.portInService n).rpRegs = (((s.setFld .ronpex (portBase n) 0 2 0).setFld .ronpex (portBase n + 0xC) 0 3 0)).rpRegs := by
    rw [State.portInService_eq]
    unfold State.portServes
    split <;> simp
  have hreg (a : Nat) (ha : 0x1000000 ≤ a) := State.reg_of_rpRegs hregs (notMem_reportRegs ha)
  refine ⟨?_, ?_, ?_⟩
  · rw [State.unitState_port _ hn, State.fld_congr (hreg _ hbase), State.fld_congr (State.reg_setFld_other _ _ _ _ _ _ _ _ (.inr (by omega))),
      State.fld_setFld_same _ _ _ _ _ _ (by omega)]
    rfl
  · rw [State.unitQstep, if_pos hn, State.fld_congr (hreg _ (by omega)), State.fld_setFld_same _ _ _ _ _ _ (by omega)]
    rfl
  · have hmem : n ∈ (s.portServes n).rp.warp.idle := by
      unfold State.portServes
      rw [State.idle_of_rpWarp (State.rpWarp_showUnits _ _ _)]
      exact List.mem_cons_self
    rw [State.portInService_eq]
    split
    · rw [State.idle_of_rpWarp (State.rpWarp_toEndPoint _ _ _)]
      exact hmem
    · exact hmem

/-! ### The steps of quarantine -/

section Steps
variable {s : State} {i : Nat}

theorem State.quarantineStep_idle (h : 608 ≤ i ∨ s.quarantined i = false) (passed : Bool) : s.quarantineStep i passed = s := by
  unfold State.quarantineStep
  refine if_pos ?_
  rcases h with h | h
  · exact .inl h
  · exact .inr (by simp [h])

theorem State.quarantineStep_lane (h : 416 ≤ i) : s.quarantineStep i true = s := by
  unfold State.quarantineStep
  by_cases hq : 608 ≤ i ∨ (!s.quarantined i) = true
  · rw [if_pos hq]
  · rw [if_neg hq, if_pos h, if_neg (by simp)]

theorem quarantine_goes (hi : i < 416) (h : s.quarantined i = true) : ¬(608 ≤ i ∨ (!s.quarantined i) = true) := by
  rw [h]
  simp
  omega

theorem State.quarantineStep_one (hi : i < 416) (h : s.quarantined i = true) (hq : s.unitQstep i = 1) :
    let s1 := (s.modUnits fun u => { u with fails := SMap.put (fun _ => 0) u.fails i 0 }).qstepTo i (if i < 192 then 2 else 3)
    s.quarantineStep i true
      = if i < 192 ∧ s.fld .ronpex (portSetBase i) 0 2 = 1 ∧ (!s.portUp .ronpex i ∨ (s.link .ronpex i).clockOff) then s1.startTraining .ronpex i
        else s1 := by
  unfold State.quarantineStep
  rw [if_neg (quarantine_goes hi h), if_neg (Nat.not_le.2 hi), hq]
  rfl

theorem State.quarantineStep_two (hi : i < 416) (h : s.quarantined i = true) (hq : s.unitQstep i = 2) (passed : Bool) :
    s.quarantineStep i passed = if !passed then s.qFail i 2 else if s.portUp .ronpex i then s.qstepTo i 3 else s := by
  unfold State.quarantineStep
  rw [if_neg (quarantine_goes hi h), if_neg (Nat.not_le.2 hi), hq]
  rfl

theorem State.quarantineStep_three {t : State} (hi : i < 416) (h : s.quarantined i = true) (hq : s.unitQstep i = 3) (hn : s.newLife i = some t)
    (passed : Bool) : s.quarantineStep i passed = if i < 192 then t.qstepTo i 4 else (t.qstepTo i 0).showUnits false [i] := by
  unfold State.quarantineStep
  rw [if_neg (quarantine_goes hi h), if_neg (Nat.not_le.2 hi), hq]
  rw [hn]
  rfl

theorem State.quarantineStep_four (hi : i < 416) (h : s.quarantined i = true) (hq : s.unitQstep i = 4) (passed : Bool) :
    s.quarantineStep i passed
      = if !passed ∨ SMap.look (fun _ => 0) s.rp.units.qbase i < s.linkErrors i then s.qFail i 7
        else if s.now < SMap.look (fun _ => 0) s.rp.units.since i + 64 * frameNs then s else s.portInService i := by
  unfold State.quarantineStep
  rw [if_neg (quarantine_goes hi h), if_neg (Nat.not_le.2 hi), hq]
  rfl

end Steps

/-! ### Generations -/

theorem State.linkErrors_of_rpRegs {s t : State} (h : t.rpRegs = s.rpRegs) {n : Nat} (hn : n < 192) : t.linkErrors n = s.linkErrors n := by
  have hset := le_portSetBase n
  have htag : Reg.secPTagstat n ∉ reportRegs := by
    simp only [reportRegs, Reg.logLost, Reg.mgtEvtOvf, Reg.mgtMsixPba, Reg.secPTagstat, List.mem_cons, List.not_mem_nil, or_false, not_or]
    omega
  unfold State.linkErrors
  rw [State.reg_of_rpRegs h (notMem_reportRegs (by show 0x1000000 ≤ portSetBase n + 0x78; omega)),
    State.fld_congr (State.reg_of_rpRegs h htag)]

/-- The store once the generations of a port unit and of its lane group have advanced. -/
theorem State.newLife_port {s : State} {i : Nat} (hi : i < 192) (h1 : s.rp.pst.locked (Reg.pstGen (i / 2)) = false)
    (q1 : ∀ e ∈ s.rp.pst.queue, e.1 ≠ Reg.pstGen (i / 2)) (h2 : s.rp.pst.locked (Reg.pstGen ((416 + i) / 2)) = false)
    (q2 : ∀ e ∈ s.rp.pst.queue, e.1 ≠ Reg.pstGen ((416 + i) / 2)) :
    ∃ t, s.newLife i = some t ∧ s.Persisted t t.rp.pst ∧ t.gen i = (s.gen i + 1) % 2 ^ 16 ∧ t.gen (416 + i) = (s.gen (416 + i) + 1) % 2 ^ 16 := by
  obtain ⟨u, hu, pu⟩ := State.genAdvance_open h1
  have hopen : u.rp.pst.locked (Reg.pstGen ((416 + i) / 2)) = false := (State.locked_aged pu.pst (by omega)).trans h2
  obtain ⟨t, ht, pt⟩ := State.genAdvance_open hopen
  have hqueue : u.rp.pst.queue = s.rp.pst.queue := by rw [pu.pst]; rfl
  refine ⟨t, ?_, ⟨rfl, pt.units.trans pu.units, pt.fmem.trans pu.fmem, pt.regs.trans pu.regs, pt.links.trans pu.links, pt.now.trans pu.now,
    onlyRonpex_trans pu.only pt.only⟩, ?_, ?_⟩
  · unfold State.newLife
    rw [hu]
    exact (if_pos hi).trans ht
  · rw [State.gen_aged_other pt.pst (by omega), State.gen_aged pu.pst q1]
  · rw [State.gen_aged pt.pst (by rw [hqueue]; exact q2), State.gen_aged_other pu.pst (by omega)]

theorem State.newLife_other {s : State} {i : Nat} (hi : ¬i < 192) (h : s.rp.pst.locked (Reg.pstGen (i / 2)) = false)
    (q : ∀ e ∈ s.rp.pst.queue, e.1 ≠ Reg.pstGen (i / 2)) :
    ∃ t, s.newLife i = some t ∧ s.Persisted t t.rp.pst ∧ t.gen i = (s.gen i + 1) % 2 ^ 16 := by
  obtain ⟨t, ht, pt⟩ := State.genAdvance_open h
  refine ⟨t, ?_, ⟨rfl, pt.units, pt.fmem, pt.regs, pt.links, pt.now, pt.only⟩, State.gen_aged pt.pst q⟩
  unfold State.newLife
  rw [ht]
  exact if_neg hi

/-! ### A command returns a unit -/

theorem State.quarantined_port {s : State} {i : Nat} (hi : i < 192) (h : s.unitState i = 2) : s.quarantined i = true := by
  unfold State.quarantined
  rw [if_neg (by omega), h]
  rfl

theorem State.Logged.pst {s u : State} (h : s.Logged u) : u.rp.pst = s.rp.pst := by rw [h.frame]

/-- A port unit is returned by a command on itself or on its lane group. -/
theorem State.softReturn_port {s u : State} {n i : Nat} (hlog : s.Logged u) (hn : n < 192) (hi : i = n ∨ i = 416 + n)
    (h : s.fld .ronpex (portBase n) 0 2 = 1) (hc : s.fld .ronpex (portBase n) 8 8 ∈ [1, 2, 5, 7]) (hp : s.pstFenced n = false)
    (hpi : s.pstFenced i = false) (wr : Writer) :
    (u.softReturn i wr).unitState n = 2 ∧ (u.softReturn i wr).unitQstep n = 1
      ∧ (∀ m, m < 192 → m ≠ n → (u.softReturn i wr).reg .ronpex (portBase m) = s.reg .ronpex (portBase m))
      ∧ onlyRonpex s (u.softReturn i wr) := by
  have hlog' := hlog.trans (u.logged_fenceLog i wr.origin wr.requester 2)
  obtain ⟨hregs, -, honly⟩ := hlog'.units
  have hbase := le_portBase n
  have hport : returnPort i = n := by
    unfold returnPort
    split <;> omega
  have hpst (j : Nat) (hj : s.pstFenced j = false) : (u.fenceLog i wr.origin wr.requester 2).pstFenced j = false :=
    (State.pstFenced_congr hlog'.pst j).trans hj
  have heq : u.softReturn i wr = (u.fenceLog i wr.origin wr.requester 2).quarantine n := by
    have hunit : (u.fenceLog i wr.origin wr.requester 2).returnUnit i = ((u.fenceLog i wr.origin wr.requester 2).quarantine n, true) := by
      unfold State.returnUnit
      rw [hport]
      refine if_neg ?_
      rw [hpst n hp, hpst i hpi, State.fld_congr (hregs _ hbase), State.fld_congr (hregs _ hbase), h, List.contains_iff_mem.2 hc]
      rcases hi with rfl | rfl <;> simp <;> omega
    unfold State.softReturn
    rw [hunit]
    rfl
  rw [heq]
  obtain ⟨h1, h2⟩ := State.quarantine_port hn (hpst n hp)
  refine ⟨h1, h2, fun m hm hne => ?_, onlyRonpex_trans honly (onlyRonpex_of (by simp) (by simp))⟩
  rw [State.reg_quarantine_other _ hm (Ne.symm hne) (.inl rfl), hregs _ (le_portBase m)]

/-- A command that returns a unit which is not fenced changes nothing. -/
theorem State.softReturn_none {s u : State} {n : Nat} (hlog : s.Logged u) (hn : n < 192) (h : s.fld .ronpex (portBase n) 0 2 ≠ 1) (wr : Writer) :
    u.softReturn n wr = u := by
  have hlog' := hlog.trans (u.logged_fenceLog n wr.origin wr.requester 2)
  have hport : returnPort n = n := if_neg (by omega)
  have hunit : (u.fenceLog n wr.origin wr.requester 2).returnUnit n = (u.fenceLog n wr.origin wr.requester 2, false) := by
    unfold State.returnUnit
    rw [hport]
    refine if_pos ?_
    rw [State.fld_congr (hlog'.units.1 _ (le_portBase n))]
    exact .inr (.inr (.inr (.inr (.inl h))))
  unfold State.softReturn
  rw [hunit]
  rfl

theorem State.unitCtl_return {i v : Nat} (h0 : bit 0 v = false) (h1 : bit 1 v = true) (s : State) (wr : Writer) :
    s.unitCtl i v wr = s.softReturn i wr := by
  unfold State.unitCtl
  rw [if_neg (by rw [h0]; decide), if_pos h1]

/-! ### A region returns -/

/-- The units of a list enter quarantine one after another. -/
def State.quarantineAll (s : State) (l : List Nat) : State := l.foldl (fun (t : State) (i : Nat) => t.quarantine i) s

theorem State.quarantineAll_port {p : Nat} (hp : p < 192) (l : List Nat) (s : State) (hf : s.pstFenced p = false)
    (h : p ∈ l ∨ s.unitState p = 2 ∧ s.unitQstep p = 1) :
    (s.quarantineAll l).unitState p = 2 ∧ (s.quarantineAll l).unitQstep p = 1 := by
  unfold State.quarantineAll
  induction l generalizing s with
  | nil => exact h.resolve_left List.not_mem_nil
  | cons i l ih =>
    rw [List.foldl_cons]
    refine ih _ ((State.pstFenced_congr (s.pst_quarantine i) p).trans hf) ?_
    by_cases hi : i = p
    · rw [hi]
      exact .inr (State.quarantine_port hp hf)
    · rcases h with h | h
      · exact .inl ((List.mem_cons.1 h).resolve_left (Ne.symm hi))
      · have hsame : s.samePort (s.quarantine i) p :=
          ⟨s.reg_quarantine_other hp hi (.inl rfl), s.reg_quarantine_other hp hi (.inr rfl)⟩
        obtain ⟨h1, h2⟩ := hsame.shown hp
        exact .inr ⟨h1.trans h.1, h2.trans h.2⟩

@[simp] theorem State.inReset_quarantineAll (s : State) (l : List Nat) : (s.quarantineAll l).inReset = s.inReset := by
  unfold State.quarantineAll
  simp

theorem State.pst_quarantineAll (s : State) (l : List Nat) : (s.quarantineAll l).rp.pst = s.rp.pst := by
  unfold State.quarantineAll
  induction l generalizing s with
  | nil => rfl
  | cons i l ih => rw [List.foldl_cons, ih, State.pst_quarantine]

theorem State.channelsReturn_does (s : State) : s.channelsReturn.inReset = s.inReset ∧ s.channelsReturn.rp.pst = s.rp.pst := by
  unfold State.channelsReturn
  split
  · exact ⟨rfl, rfl⟩
  · exact ⟨(State.inReset_quarantineAll _ _).trans rfl, (State.pst_quarantineAll _ _).trans rfl⟩

/-- The region leaves its reset. -/
def State.regionOut (s : State) (r : Nat) : State :=
  (s.modUnits fun u : Units => { u with regions := u.regions.filter fun x => x.1 != r }).channelsReturn

/-- The units of a region that has left its reset enter quarantine. -/
def State.regionIn (s : State) (r : Nat) : State :=
  (s.regionOut r).quarantineAll (regionPorts r ++ (regionSpindles r).map (192 + ·))

theorem State.regionBack_eq {s : State} {r : Nat} (hr : ∃ e ∈ s.rp.units.regions, e.1 = r) (hd : ∀ e ∈ s.rp.units.dies, e.1 ≠ r / 4)
    (ha : bit (r / 4) s.rp.units.awake = true) :
    s.regionBack r = ((s.regionIn r).showUnits false ((regionPorts r).map (416 + ·))).partEvent 6 r 2 4 := by
  have hdying : (s.rp.units.dies.any fun x => x.1 == r / 4) = false := by
    rw [List.any_eq_false]
    exact fun e he => by simpa using hd e he
  have hin : (s.rp.units.regions.any fun x => x.1 == r) = true := by
    obtain ⟨e, he, hr⟩ := hr
    exact List.any_eq_true.2 ⟨e, he, by simp [hr]⟩
  have hout := (s.modUnits fun u : Units => { u with regions := u.regions.filter fun x => x.1 != r }).channelsReturn_does.1
  have hoff : (s.regionOut r).regionOff r = false := by
    have hregions : (s.regionOut r).rp.units.regions = s.rp.units.regions.filter fun x => x.1 != r := congrArg (·.1) hout
    have hdies : (s.regionOut r).rp.units.dies = s.rp.units.dies := congrArg (·.2.1) hout
    have hawake : (s.regionOut r).rp.units.awake = s.rp.units.awake := congrArg (·.2.2) hout
    unfold State.regionOff
    rw [hregions, hdies, hawake, hdying, ha]
    simp
  unfold State.regionBack
  dsimp only
  rw [hdying, hin]
  simp only [Bool.not_true, Bool.false_eq_true, false_and, or_self, if_false]
  exact if_neg (Bool.eq_false_iff.1 hoff)

theorem State.inReset_cmdDone (s : State) (status detail : Nat) : (s.cmdDone status detail).inReset = s.inReset := by
  unfold State.cmdDone
  split
  · rfl
  · unfold State.cmdNext State.cmdEvent
    split <;> simp <;> rfl

theorem State.inReset_cmdWaited (s : State) (w : CmdWait) (status detail : Nat) : (s.cmdWaited w status detail).inReset = s.inReset := by
  unfold State.cmdWaited
  split
  · exact State.inReset_cmdDone _ _ _
  · rfl

end Sys2Proof.Machine
end

section
/-! Returns and quarantine of units, clause by clause (R345, R347, R352, R353). -/

namespace Sys2Proof.Machine

open Sys2Proof Sys2Proof.Claims

section Port
variable {s : State} {i : Nat}

/-- A port unit in quarantine is not idle. -/
theorem State.not_portIdle_of_quarantine (hi : i < 192) (h : s.unitState i = 2) : ¬s.portIdle i := by
  rw [s.portIdle_iff hi, h]
  decide

theorem State.step_one_port (hi : i < 192) (h : s.unitState i = 2) (hq : s.unitQstep i = 1) (hp : s.pstFenced (416 + i) = false) :
    (s.quarantineStep i true).unitState i = 2 ∧ (s.quarantineStep i true).unitQstep i = 2 ∧ onlyRonpex s (s.quarantineStep i true) := by
  have hstep := State.quarantineStep_one (by omega) (State.quarantined_port hi h) hq
  dsimp only at hstep
  rw [if_pos hi] at hstep
  obtain ⟨h1, h2⟩ := State.qstepTo_port (s := s.modUnits fun u : Units => { u with fails := SMap.put (fun _ => 0) u.fails i 0 }) hi
    (show 2 < 8 by omega)
  have honly := onlyRonpex_of (s := s) (t := (s.modUnits fun u : Units => { u with fails := SMap.put (fun _ => 0) u.fails i 0 }).qstepTo i 2)
    (by simp) (by simp)
  have hstate := h1.trans h
  rw [hstep]
  split
  · have hsame := State.samePort_startTraining hi (s := (s.modUnits fun u : Units =>
      { u with fails := SMap.put (fun _ => 0) u.fails i 0 }).qstepTo i 2) ((State.pstFenced_congr (State.pst_qstepTo _ _ _) _).trans hp)
    obtain ⟨k1, k2⟩ := hsame.shown hi
    exact ⟨k1.trans hstate, k2.trans h2, onlyRonpex_trans honly (onlyRonpex_of (by simp) (by simp))⟩
  · exact ⟨hstate, h2, honly⟩

theorem State.step_two_port (hi : i < 192) (h : s.unitState i = 2) (hq : s.unitQstep i = 2) (hup : s.portUp .ronpex i = true) :
    (s.quarantineStep i true).unitState i = 2 ∧ (s.quarantineStep i true).unitQstep i = 3
      ∧ (s.quarantineStep i true).rp.links = s.rp.links ∧ onlyRonpex s (s.quarantineStep i true) := by
  have hstep := State.quarantineStep_two (by omega) (State.quarantined_port hi h) hq true
  rw [hup] at hstep
  rw [show s.quarantineStep i true = s.qstepTo i 3 from hstep]
  obtain ⟨h1, h2⟩ := State.qstepTo_port (s := s) hi (show 3 < 8 by omega)
  exact ⟨h1.trans h, h2, State.rpLinks_qstepTo _ _ _, s.onlyRonpex_qstepTo i 3⟩

theorem State.step_two_waits (hi : i < 192) (h : s.unitState i = 2) (hq : s.unitQstep i = 2) (hup : s.portUp .ronpex i = false) :
    s.quarantineStep i true = s := by
  rw [State.quarantineStep_two (by omega) (State.quarantined_port hi h) hq, hup]
  rfl

/-- A port unit that fails in quarantine is fenced again. -/
theorem State.qFail_port (hi : i < 192) (h : s.unitState i = 2) {cause : Nat} (hc : cause < 256) : portFenced i cause s (s.qFail i cause) := by
  rw [show s.qFail i cause = s.fencePort i cause from if_pos hi]
  exact State.portFenced_fencePort hi hc (State.not_portIdle_of_quarantine hi h)

theorem State.step_three_port (hi : i < 192) (h : s.unitState i = 2) (hq : s.unitQstep i = 3)
    (h1 : s.rp.pst.locked (Reg.pstGen (i / 2)) = false) (q1 : ∀ e ∈ s.rp.pst.queue, e.1 ≠ Reg.pstGen (i / 2))
    (h2 : s.rp.pst.locked (Reg.pstGen ((416 + i) / 2)) = false) (q2 : ∀ e ∈ s.rp.pst.queue, e.1 ≠ Reg.pstGen ((416 + i) / 2)) :
    ∃ t, s.quarantineStep i true = t ∧ t.unitState i = 2 ∧ t.unitQstep i = 4
      ∧ SMap.look (fun _ => 0) t.rp.units.since i = s.now ∧ SMap.look (fun _ => 0) t.rp.units.qbase i = s.linkErrors i
      ∧ t.gen i = (s.gen i + 1) % 2 ^ 16 ∧ t.gen (416 + i) = (s.gen (416 + i) + 1) % 2 ^ 16 ∧ t.rp.links = s.rp.links ∧ onlyRonpex s t := by
  obtain ⟨u, hu, pu, hg, hg'⟩ := State.newLife_port hi h1 q1 h2 q2
  have hstep := (State.quarantineStep_three (by omega) (State.quarantined_port hi h) hq hu true).trans (if_pos hi)
  have hgen (j : Nat) : (u.qstepTo i 4).gen j = u.gen j := by
    unfold State.gen
    rw [State.pst_qstepTo]
  obtain ⟨k1, k2⟩ := State.qstepTo_port (s := u) hi (show 4 < 8 by omega)
  obtain ⟨m1, m2⟩ := u.since_qstepTo hi 4
  refine ⟨u.qstepTo i 4, hstep, ?_, k2, m1.trans pu.now, (m2 rfl).trans (State.linkErrors_of_rpRegs pu.regs hi), (hgen _).trans hg,
    (hgen _).trans hg', (State.rpLinks_qstepTo _ _ _).trans pu.links, onlyRonpex_trans pu.only (u.onlyRonpex_qstepTo i 4)⟩
  rw [k1, ((State.samePort_of_rpRegs pu.regs i).shown hi).1, h]

theorem State.step_four_waits (hi : i < 192) (h : s.unitState i = 2) (hq : s.unitQstep i = 4)
    (he : s.linkErrors i ≤ SMap.look (fun _ => 0) s.rp.units.qbase i) (ht : s.now < SMap.look (fun _ => 0) s.rp.units.since i + 64 * frameNs) :
    s.quarantineStep i true = s := by
  rw [State.quarantineStep_four (by omega) (State.quarantined_port hi h) hq, if_neg (by simp; omega), if_pos ht]

theorem State.step_four_serves (hi : i < 192) (h : s.unitState i = 2) (hq : s.unitQstep i = 4)
    (he : s.linkErrors i ≤ SMap.look (fun _ => 0) s.rp.units.qbase i) (ht : SMap.look (fun _ => 0) s.rp.units.since i + 64 * frameNs ≤ s.now) :
    s.quarantineStep i true = s.portInService i := by
  rw [State.quarantineStep_four (by omega) (State.quarantined_port hi h) hq, if_neg (by simp; omega), if_neg (by omega)]

theorem State.step_four_fails (hi : i < 192) (h : s.unitState i = 2) (hq : s.unitQstep i = 4) {passed : Bool}
    (he : passed = false ∨ SMap.look (fun _ => 0) s.rp.units.qbase i < s.linkErrors i) : s.quarantineStep i passed = s.qFail i 7 := by
  rw [State.quarantineStep_four (by omega) (State.quarantined_port hi h) hq, if_pos (by simpa using he)]

end Port

/-! ### Spindles and channel controllers -/

section Other
variable {s : State} {i : Nat}

theorem State.step_one_other (hi : 192 ≤ i) (hi' : i < 416) (h : s.quarantined i = true) (hq : s.unitQstep i = 1) :
    (s.quarantineStep i true).unitQstep i = 3 ∧ (s.quarantineStep i true).rp.regs = s.rp.regs ∧ onlyRonpex s (s.quarantineStep i true) := by
  have hstep := State.quarantineStep_one hi' h hq
  dsimp only at hstep
  rw [if_neg (show ¬i < 192 by omega), if_neg fun hc => absurd hc.1 (by omega)] at hstep
  obtain ⟨h1, h2, -, -⟩ := State.qstepTo_other (s := s.modUnits fun u : Units => { u with fails := SMap.put (fun _ => 0) u.fails i 0 })
    (show ¬i < 192 by omega) hi' 3
  rw [hstep]
  exact ⟨h1, h2, onlyRonpex_of (by simp) (by simp)⟩

/-- A spindle in quarantine is not fenced, and its region is not in reset. -/
theorem State.spindle_of_quarantined (hi : 192 ≤ i) (hi' : i < 288) (h : s.quarantined i = true) :
    s.flag .ronpex (spindleBase (i - 192)) 0 = false ∧ s.regionOff (spindleRegion (i - 192)) = false := by
  unfold State.quarantined at h
  rw [if_neg (by omega)] at h
  unfold State.unitState at h
  rw [if_neg (by omega), if_pos hi'] at h
  dsimp only at h
  cases hf : s.flag .ronpex (spindleBase (i - 192)) 0 with
  | true => simp [hf] at h
  | false =>
    cases hr : s.regionOff (spindleRegion (i - 192)) with
    | true => simp [hf, hr] at h
    | false => exact ⟨rfl, rfl⟩

theorem State.regions_of_inReset {s t : State} (h : t.inReset = s.inReset) : t.rp.units.regions = s.rp.units.regions := congrArg (·.1) h

theorem State.regionOff_of_inReset {s t : State} (h : t.inReset = s.inReset) (r : Nat) : t.regionOff r = s.regionOff r := by
  have h1 : t.rp.units.regions = s.rp.units.regions := congrArg (·.1) h
  have h2 : t.rp.units.dies = s.rp.units.dies := congrArg (·.2.1) h
  have h3 : t.rp.units.awake = s.rp.units.awake := congrArg (·.2.2) h
  unfold State.regionOff
  rw [h1, h2, h3]

theorem State.step_three_other (hi : 192 ≤ i) (hi' : i < 416) (h : s.quarantined i = true) (hq : s.unitQstep i = 3)
    (h1 : s.rp.pst.locked (Reg.pstGen (i / 2)) = false) (q1 : ∀ e ∈ s.rp.pst.queue, e.1 ≠ Reg.pstGen (i / 2)) :
    ∃ t, s.quarantineStep i true = t ∧ t.quarantined i = false ∧ t.unitQstep i = 0 ∧ (i < 288 → t.unitState i = 0)
      ∧ t.gen i = (s.gen i + 1) % 2 ^ 16 ∧ t.rp.links = s.rp.links ∧ onlyRonpex s t := by
  have hn : ¬i < 192 := by omega
  obtain ⟨u, hu, pu, hg⟩ := State.newLife_other hn h1 q1
  have hstep := (State.quarantineStep_three hi' h hq hu true).trans (if_neg hn)
  obtain ⟨k1, k2, k3, -⟩ := State.qstepTo_other (s := u) hn hi' 0
  have hmarks := State.unitMarks_showUnits (u.qstepTo i 0) false [i]
  have hzero : ((u.qstepTo i 0).showUnits false [i]).unitQstep i = 0 := by
    have hlook : ((u.qstepTo i 0).showUnits false [i]).rp.units.qstep = (u.qstepTo i 0).rp.units.qstep := congrArg (·.2.1) hmarks
    rw [State.unitQstep, if_neg hn, if_pos hi', hlook]
    rwa [State.unitQstep, if_neg hn, if_pos hi'] at k1
  have hstate : i < 288 → ((u.qstepTo i 0).showUnits false [i]).unitState i = 0 := by
    intro hs
    obtain ⟨hf, hr⟩ := State.spindle_of_quarantined hi hs h
    have hreg : ((u.qstepTo i 0).showUnits false [i]).reg .ronpex (spindleBase (i - 192)) = s.reg .ronpex (spindleBase (i - 192)) := by
      have hrp : ((u.qstepTo i 0).showUnits false [i]).rpRegs = s.rpRegs := by
        rw [State.rpRegs_showUnits, ← pu.regs]
        unfold State.rpRegs
        rw [k2]
      exact State.reg_of_rpRegs hrp (notMem_reportRegs (le_spindleBase _))
    have hoff : ((u.qstepTo i 0).showUnits false [i]).regionOff (spindleRegion (i - 192)) = false := by
      have hreset : u.inReset = s.inReset := by
        unfold State.inReset
        rw [pu.units]
      rw [State.regionOff_of_inReset ((State.inReset_showUnits _ _ _).trans (k3.trans hreset)), hr]
    have hq0 : SMap.look (fun _ => 0) ((u.qstepTo i 0).showUnits false [i]).rp.units.qstep i = 0 := by
      rwa [State.unitQstep, if_neg hn, if_pos hi'] at hzero
    unfold State.unitState
    rw [if_neg hn, if_pos hs]
    dsimp only
    rw [State.flag_congr hreg, hf, hoff, hq0]
    rfl
  refine ⟨(u.qstepTo i 0).showUnits false [i], hstep, ?_, hzero, hstate, ?_, ?_, onlyRonpex_trans pu.only (onlyRonpex_of (by simp) (by simp))⟩
  · unfold State.quarantined
    split
    · rw [hzero]
      rfl
    · rw [hstate (by omega)]
      rfl
  · have hpst : ((u.qstepTo i 0).showUnits false [i]).rp.pst = u.rp.pst := (congrArg (·.2.2.2.2.2) hmarks).trans (u.pst_qstepTo i 0)
    rw [← hg]
    unfold State.gen
    rw [hpst]
  · exact (State.rpLinks_showUnits _ _ _).trans ((State.rpLinks_qstepTo _ _ _).trans pu.links)

end Other

/-! ### Regions -/

theorem State.regionBack_does {s : State} {r : Nat} (hr16 : r < 16) (hr : ∃ e ∈ s.rp.units.regions, e.1 = r)
    (hd : ∀ e ∈ s.rp.units.dies, e.1 ≠ r / 4) (ha : bit (r / 4) s.rp.units.awake = true) :
    (s.regionBack r).rp.units.regions = s.rp.units.regions.filter (fun x => x.1 != r) ∧
      ∀ p ∈ regionPorts r, s.pstFenced p = false → (s.regionBack r).unitState p = 2 ∧ (s.regionBack r).unitQstep p = 1 := by
  obtain ⟨hreset, hpst⟩ := (s.modUnits fun u : Units => { u with regions := u.regions.filter fun x => x.1 != r }).channelsReturn_does
  rw [State.regionBack_eq hr hd ha]
  refine ⟨?_, fun p hp hf => ?_⟩
  · have hin : (((s.regionIn r).showUnits false ((regionPorts r).map (416 + ·))).partEvent 6 r 2 4).inReset = (s.regionOut r).inReset := by
      unfold State.partEvent State.regionIn
      simp
    have hregions : (s.regionOut r).rp.units.regions = s.rp.units.regions.filter fun x => x.1 != r := congrArg (·.1) hreset
    rw [← hregions]
    exact State.regions_of_inReset hin
  · have hp192 := regionPorts_lt hr16 hp
    have hsame : (s.regionIn r).samePort (((s.regionIn r).showUnits false ((regionPorts r).map (416 + ·))).partEvent 6 r 2 4) p :=
      State.samePort_of_rpRegs (by unfold State.partEvent; simp) p
    obtain ⟨h1, h2⟩ := hsame.shown hp192
    obtain ⟨k1, k2⟩ := State.quarantineAll_port hp192 (regionPorts r ++ (regionSpindles r).map (192 + ·)) (s.regionOut r)
      ((State.pstFenced_congr hpst p).trans hf) (.inl (List.mem_append_left _ hp))
    exact ⟨h1.trans k1, h2.trans k2⟩

/-- The end of a region's reset reports the command that waited for it. -/
theorem State.resetEnds_frames (s : State) (r : Nat) :
    (s.resetEnds r).inReset = (s.regionBack r).inReset ∧ (s.resetEnds r).rpRegs = (s.regionBack r).rpRegs := by
  have hfirst (c : Prop) [Decidable c] (w : CmdWait) (t : State) : (if c then t.cmdWaited w 0 0 else t).inReset = t.inReset := by
    split
    · exact State.inReset_cmdWaited _ _ _ _
    · rfl
  unfold State.resetEnds
  dsimp only
  exact ⟨(hfirst _ _ _).trans (hfirst _ _ _), by simp⟩

theorem State.resetEnds_none {s : State} {r : Nat} (hr : ∀ e ∈ s.rp.units.regions, e.1 ≠ r) :
    s.resetEnds r = s := by
  have hin : (s.rp.units.regions.any fun x => x.1 == r) = false := by
    rw [List.any_eq_false]
    exact fun e he => by simpa using hr e he
  have hback : s.regionBack r = s := by
    unfold State.regionBack
    exact if_pos (.inl (by rw [hin]; rfl))
  unfold State.resetEnds
  rw [hback]
  dsimp only
  rw [if_neg (by simp), if_neg (by simp)]

/-- Settles O43, step by step of the quarantine: no step writes a word of another port unit, and the stored generations of a unit stand in
words of their own. -/
theorem quarantine : Obligations.Quarantine := by
  intro s
  refine ⟨fun n i v w hi ht h0 h1 => ⟨fun h hc hp => ⟨?_, fun hpi => ?_⟩, fun h => ?_⟩, fun i ok h => ?_, fun i h => ?_, fun i hi h => ⟨?_, ?_, ?_, ?_, ?_⟩,
    fun i hi hi' h hq => ?_, fun i hi hi' h hq h1 q1 => ?_, fun r hr hd ha => ?_, fun r hr _ => ?_⟩
  · refine ⟨_, congrArg Host.Outcome.next (State.wrote_ronpex ht _ _ _), ?_⟩
    rw [State.unitCtl_return h0 h1]
    exact State.softReturn_port (State.logged_logWrite _ _ _ _) n.isLt (.inl rfl) h hc hp hp w
  · refine ⟨_, congrArg Host.Outcome.next (State.wrote_ronpex ht _ _ _), ?_⟩
    rw [State.unitCtl_return h0 h1]
    exact State.softReturn_port (State.logged_logWrite _ _ _ _) n.isLt hi h hc hp hpi w
  · have hlog := State.logged_logWrite s (portBase n + 4) v.toNat w
    refine ⟨_, congrArg Host.Outcome.next (State.wrote_ronpex ht _ _ _), ?_⟩
    rw [State.unitCtl_return h0 h1, State.softReturn_none hlog n.isLt h]
    exact ⟨fun m hm => hlog.units.1 _ (le_portBase m), hlog.units.2.2⟩
  · exact congrArg Host.Outcome.next (State.quarantineStep_idle h ok)
  · exact congrArg Host.Outcome.next (State.quarantineStep_lane h)
  · exact fun hq hp => ⟨_, rfl, State.step_one_port hi h hq hp⟩
  · exact fun hq => ⟨fun hup => ⟨_, rfl, State.step_two_port hi h hq hup⟩,
      fun hup => congrArg Host.Outcome.next (State.step_two_waits hi h hq hup)⟩
  · refine fun hq => ⟨s.qFail i 2, congrArg Host.Outcome.next ?_, State.qFail_port hi h (by omega)⟩
    exact State.quarantineStep_two (by omega) (State.quarantined_port hi h) hq false
  · intro hq h1 q1 h2 q2
    obtain ⟨t, ht, hdoes⟩ := State.step_three_port hi h hq h1 q1 h2 q2
    exact ⟨t, congrArg Host.Outcome.next ht, hdoes⟩
  · refine fun hq => ⟨fun he => ⟨fun ht => congrArg Host.Outcome.next (State.step_four_waits hi h hq he ht), fun ht => ?_⟩, fun passed he =>
      ⟨s.qFail i 7, congrArg Host.Outcome.next (State.step_four_fails hi h hq he), State.qFail_port hi h (by omega)⟩⟩
    obtain ⟨k1, k2, k3⟩ := State.portInService_does (s := s) hi
    exact ⟨s.portInService i, congrArg Host.Outcome.next (State.step_four_serves hi h hq he ht), k1, k2, k3, State.rpLinks_portInService _ _,
      onlyRonpex_of (by simp) (by simp)⟩
  · exact ⟨_, rfl, State.step_one_other hi hi' h hq⟩
  · obtain ⟨t, ht, hdoes⟩ := State.step_three_other hi hi' h hq h1 q1
    exact ⟨t, congrArg Host.Outcome.next ht, hdoes⟩
  · obtain ⟨hin, hregs⟩ := s.resetEnds_frames r
    obtain ⟨hregions, hports⟩ := State.regionBack_does r.isLt hr hd ha
    have hleft : (s.resetEnds r).rp.units.regions = s.rp.units.regions.filter fun x => x.1 != r.val := (State.regions_of_inReset hin).trans hregions
    refine ⟨s.resetEnds r, rfl, fun e he => ?_, fun e he hne => ?_, fun p hp hf => ?_, onlyRonpex_of (by simp) (by simp)⟩
    · rw [hleft] at he
      simpa using (List.mem_filter.1 he).2
    · rw [hleft]
      exact List.mem_filter.2 ⟨he, by simpa using hne⟩
    · obtain ⟨k1, k2⟩ := (State.samePort_of_rpRegs hregs p).shown (regionPorts_lt r.isLt hp)
      obtain ⟨m1, m2⟩ := hports p hp hf
      exact ⟨k1.trans m1, k2.trans m2⟩
  · exact congrArg Host.Outcome.next (State.resetEnds_none hr)

end Sys2Proof.Machine
end

section
/-! The resets of the package, the hub and the Plocen, and what each leaves (R345, R372, R418, R430). -/

namespace Sys2Proof.Machine

open Sys2Proof Sys2Proof.Claims

/-! ### The package -/

/-- A state in which only what the persistent store and the log report may differ. -/
def State.Restored (s t : State) : Prop :=
  ∃ o m q l x, t = { s with out := o, rp := { s.rp with mgmt := m, pst := q, log := l, regs := x } }

theorem State.Restored.refl (s : State) : s.Restored s := ⟨_, _, _, _, _, rfl⟩

theorem State.Restored.trans {s t u : State} (h : s.Restored t) (k : t.Restored u) : s.Restored u := by
  obtain ⟨o, m, q, l, x, rfl⟩ := h
  obtain ⟨o', m', q', l', x', rfl⟩ := k
  exact ⟨_, _, _, _, _, rfl⟩

theorem State.restored_rpLog (s : State) (b : LogBody) : s.Restored (s.rpLog b) := by
  obtain ⟨l, x, h⟩ := s.rpLog_only b
  exact ⟨_, _, _, l, x, h⟩

theorem State.restored_pstCell (s : State) (a v : Nat) : s.Restored (s.pstCell a v) := by
  obtain ⟨o, m, q, l, x, h⟩ := s.pstCell_only a v
  exact ⟨o, m, q, l, x, h⟩

theorem State.restored_pstCount (s : State) (a lo len : Nat) : s.Restored (s.pstCount a lo len) := by
  unfold State.pstCount
  split
  · exact .refl s
  · exact s.restored_pstCell _ _

theorem State.restored_genAdvance (s : State) (i : Nat) : s.Restored ((s.genAdvance i).getD s) := by
  unfold State.genAdvance
  dsimp only
  split
  · exact .refl s
  · exact s.restored_pstCell _ _

theorem State.restored_pstFlush (s : State) : s.Restored s.pstFlush := by
  have hfold (l : List (Nat × Word)) (t : State) : t.Restored (l.foldl (fun t e => t.pstCell e.1 e.2.toNat) t) := by
    induction l generalizing t with
    | nil => exact .refl t
    | cons e l ih => exact (t.restored_pstCell _ _).trans (ih _)
  have hclear : s.Restored { s with rp := { s.rp with pst := { s.rp.pst with queue := [] } } } := ⟨_, _, _, _, _, rfl⟩
  exact hclear.trans (hfold _ _)

theorem State.queue_pstFlush (s : State) : s.pstFlush.rp.pst.queue = [] := by
  have hkept : s.pstFlush.kept = ({ s with rp := { s.rp with pst := { s.rp.pst with queue := [] } } } : State).kept := by
    unfold State.pstFlush
    exact State.kept_foldl _ (fun t e => t.kept_pstCell _ _) _ _
  exact congrArg (·.2.2.2) hkept

theorem State.pstFlush_empty {s : State} (h : s.rp.pst.queue = []) : s.pstFlush.rp.pst = s.rp.pst := by
  unfold State.pstFlush
  rw [h]
  show { s.rp.pst with queue := [] } = s.rp.pst
  rw [← h]

/-- A package that has been reset holds what its persistent store, its log and its firmware keep, and nothing else. -/
theorem State.packageReset_does (s : State) (powerUp tripped pin : Bool) (tripClear : Nat) :
    let t := s.packageReset powerUp tripped pin tripClear
    t.hbm = [] ∧ (∀ a, t.reg .ronpex a = (rpDefault a).toNat) ∧ t.rp.links = [] ∧ t.rp.power.inReset = pin ∧ t.rp.power.tripped = tripped
      ∧ (s.rp.pst.queue = [] → t.rp.pst = s.rp.pst) ∧ t.rp.pst.queue = [] ∧ t.rp.sec.slotB = s.rp.sec.slotB ∧ t.rp.sec.fkeys = []
      ∧ t.rp.sec.sessions = [] ∧ t.partNow .ronpex = 0 ∧ t.ep = s.ep ∧ t.now = s.now ∧ t.pending = s.pending := by
  have hqueue := s.queue_pstFlush
  have hempty := State.pstFlush_empty (s := s)
  obtain ⟨o, m, q, l, x, h⟩ := s.restored_pstFlush
  rw [h] at hqueue hempty
  unfold State.packageReset
  rw [h]
  exact ⟨rfl, fun _ => rfl, rfl, rfl, rfl, hempty, hqueue, rfl, rfl, rfl, Nat.sub_self _, rfl, rfl, rfl⟩

/-- The token of staged wake goes back to its master. -/
theorem State.returnToken_keeps (s : State) : s.returnToken.rp.pst = s.rp.pst ∧ s.returnToken.rp.sec = s.rp.sec
    ∧ s.returnToken.ep = s.ep ∧ s.returnToken.now = s.now ∧ s.returnToken.pending = s.pending := by
  have hkept := s.kept_returnToken
  simp only [State.kept, Prod.mk.injEq] at hkept
  obtain ⟨hnow, hpending, -, -⟩ := hkept
  refine ⟨congrArg (·.2.2.2.2.2) s.unitMarks_returnToken, ?_, State.ep_of_beside s.beside_returnToken, hnow, hpending⟩
  have hout (t : State) (port : Nat) (f : TrayFrame) : (t.trayOut port f).rp.sec = t.rp.sec := by
    unfold State.trayOut
    split <;> rfl
  have hsend (t : State) (tok : Nat) : (t.sendToken tok).rp.sec = t.rp.sec := by
    unfold State.sendToken
    dsimp only
    split
    · split <;> rfl
    · rw [hout]
      split <;> rfl
  unfold State.returnToken
  split
  · rfl
  · exact hsend _ _

theorem State.restored_logRestore (s : State) : s.Restored s.logRestore := by
  unfold State.logRestore
  split
  · exact .refl s
  · next ents _ =>
    have hlog (g : Log) : s.Restored { s with rp := { s.rp with log := g } } := ⟨_, _, _, _, _, rfl⟩
    dsimp only
    split
    · exact (hlog _).trans (State.restored_rpLog _ _)
    · exact ((hlog _).trans (State.restored_rpLog _ _)).trans ((State.restored_pstCell _ _ _).trans (State.restored_rpLog _ _))

/-! ### The reset input is released -/

/-- What a package that starts has, before its log is restored. -/
def State.hubReady (s : State) : State :=
  s.modPower fun x => { x with inReset := false, powerUp := false, tripped := false, supplyLost := false, ready := true, auxPg := true }

theorem State.pkgStart_does {s : State} (h : s.rp.power.inReset = true) (ht : s.rp.power.tripped = false ∨ s.rp.power.tripClear ≤ s.now) :
    s.pkgStart.rp.power.inReset = false ∧ s.pkgStart.rp.power.ready = true ∧ s.pkgStart.rp.power.supplyLost = false
      ∧ s.pkgStart.rp.power.tripped = false ∧ s.pkgStart.wakeState = 1 ∧ s.pkgStart.rp.links = s.rp.links ∧ onlyRonpex s s.pkgStart := by
  have heq : ∃ u : State, s.hubReady.Restored u ∧ s.pkgStart = u.setFld .ronpex Reg.timWake 2 2 1 := by
    have hlast (c : Bool) (t : State) : t.Restored (if c then t.pstCount Reg.pstCycles 0 32 else t) := by
      split
      · exact t.restored_pstCount _ _ _
      · exact .refl t
    refine ⟨_, (s.hubReady.restored_logRestore).trans ((State.restored_genAdvance _ 608).trans (hlast s.rp.power.powerUp _)), ?_⟩
    unfold State.pkgStart
    rw [if_neg (by rw [h]; decide), if_neg ?_]
    · rfl
    · rintro ⟨h1, h2⟩
      rcases ht with ht | ht
      · rw [ht] at h1
        cases h1
      · omega
  obtain ⟨u, ⟨o, m, q, l, x, rfl⟩, heq⟩ := heq
  rw [heq]
  refine ⟨rfl, rfl, rfl, rfl, ?_, rfl, rfl, rfl, rfl, rfl⟩
  rw [State.wakeState, State.fld_setFld_same _ _ _ _ _ _ (by omega)]
  rfl

/-! ### The hub -/

theorem State.wrote_hubCtl {s : State} (h : s.rp.power.supplyLost = false) (v : Nat) (w : Writer) (f : State → State) :
    s.wrote .ronpex Reg.hubCtl v w f = f (s.logWrite .ronpex Reg.hubCtl v w) := by
  simp [State.wrote, h]

theorem State.hubCtlWrite_restarts {s : State} {v : Nat} (h0 : bit 0 v = true) (hr : s.rp.sec.restartAt = none) :
    s.hubCtlWrite v = (s.setFlag .ronpex Reg.hubCtl 1 (bit 1 v)).hubRestart := by
  unfold State.hubCtlWrite
  have hnone : (s.setFlag .ronpex Reg.hubCtl 1 (bit 1 v)).rp.sec.restartAt = none := hr
  dsimp only
  rw [if_pos (by rw [h0, hnone]; rfl)]

/-- What a restart of the hub does. -/
theorem State.hubRestart_does (s : State) :
    s.hubRestart.rp.sec.restartAt = some s.now ∧ s.hubRestart.rp.sec.sessions = [] ∧ s.hubRestart.rp.mgmt.running = none
      ∧ (∀ r, s.rp.mgmt.running = some r → s.hubRestart.rp.mgmt.aborted = some r) ∧ s.hubRestart.rp.power.hist = []
      ∧ (∀ a, s.hubRestart.reg .ronpex a = s.reg .ronpex a) ∧ s.hubRestart.rp.links = s.rp.links ∧ onlyRonpex s s.hubRestart := by
  refine ⟨rfl, rfl, rfl, fun r hr => ?_, rfl, fun _ => rfl, rfl, rfl, rfl, rfl, rfl⟩
  show (if s.rp.mgmt.running.isSome then s.rp.mgmt.running else s.rp.mgmt.aborted) = some r
  rw [hr]
  rfl

theorem hubReset_does {s : State} (h : s.rp.power.supplyLost = false) {v : Word} (h0 : bit 0 v.toNat = true) (hr : s.rp.sec.restartAt = none)
    (w : Writer) :
    ∃ t, exec (.hubReset v w) s = .next t ∧ t.rp.sec.restartAt = some s.now ∧ t.rp.sec.sessions = [] ∧ t.rp.mgmt.running = none
      ∧ (∀ r, s.rp.mgmt.running = some r → t.rp.mgmt.aborted = some r) ∧ t.rp.power.hist = []
      ∧ t.flag .ronpex Reg.hubCtl 1 = bit 1 v.toNat ∧ regsBut s t .ronpex [Reg.hubCtl, Reg.logLost] ∧ t.rp.links = s.rp.links
      ∧ onlyRonpex s t := by
  have hlog := State.logged_logWrite s Reg.hubCtl v.toNat w
  obtain ⟨-, -, hlonly⟩ := hlog.units
  have hlregs := hlog.regs
  have hframe := hlog.frame
  refine ⟨_, congrArg Host.Outcome.next (State.wrote_hubCtl h _ _ _), ?_⟩
  generalize s.logWrite .ronpex Reg.hubCtl v.toNat w = u at *
  have hur : u.rp.sec.restartAt = none := by rw [hframe]; exact hr
  have hrun : u.rp.mgmt.running = s.rp.mgmt.running := by rw [hframe]
  have hnow : u.now = s.now := by rw [hframe]
  have hlinks : u.rp.links = s.rp.links := by rw [hframe]
  rw [State.hubCtlWrite_restarts h0 hur]
  obtain ⟨h1, h2, h3, h4, h5, h6, h7, h8⟩ := (u.setFlag .ronpex Reg.hubCtl 1 (bit 1 v.toNat)).hubRestart_does
  refine ⟨h1.trans (congrArg some hnow), h2, h3, fun r hr => h4 r (hrun.trans hr), h5, ?_, fun a ha => ?_, h7.trans hlinks,
    onlyRonpex_trans hlonly h8⟩
  · rw [State.flag_congr (h6 _), State.flag_setFlag_same _ _ _ (by omega)]
  · simp only [List.mem_cons, List.not_mem_nil, or_false, not_or] at ha
    rw [h6, State.reg_setFlag_other _ _ _ _ _ _ _ (.inr (Ne.symm ha.1)), hlregs a (by simpa using ha.2)]

/-! ### PCIE_PERST_N -/

/-- Only registers of the Ronpex may differ. -/
def State.onlyRegs (s t : State) : Prop := t = { s with rp := { s.rp with regs := t.rp.regs } }

theorem State.onlyRegs.trans {s t u : State} (h : s.onlyRegs t) (k : t.onlyRegs u) : s.onlyRegs u := by
  unfold State.onlyRegs at *
  rw [k, h]

theorem State.onlyRegs_foldl {α : Type} {g : State → α → State} (hg : ∀ (t : State) x, t.onlyRegs (g t x)) (l : List α) (s : State) :
    s.onlyRegs (l.foldl g s) := by
  induction l generalizing s with
  | nil => rfl
  | cons x l ih => exact (hg s x).trans (ih _)

/-- The enables of the rings are cleared. -/
def State.ringsOff (s : State) : State :=
  [Reg.mgtCmdCfg, Reg.mgtEvtCfg, Reg.logCfg].foldl (fun (t : State) (a : Nat) => t.setFlag .ronpex a 4 false) s

theorem State.ringsOff_does (s : State) : (∀ a ∈ [Reg.mgtCmdCfg, Reg.mgtEvtCfg, Reg.logCfg],
    s.ringsOff.flag .ronpex a 4 = false ∧ s.ringsOff.fld .ronpex a 0 4 = s.fld .ronpex a 0 4)
    ∧ regsBut s s.ringsOff .ronpex [Reg.mgtCmdCfg, Reg.mgtEvtCfg, Reg.logCfg] := by
  have hmine (t : State) (a : Nat) : (t.setFlag .ronpex a 4 false).flag .ronpex a 4 = false
      ∧ (t.setFlag .ronpex a 4 false).fld .ronpex a 0 4 = t.fld .ronpex a 0 4 :=
    ⟨State.flag_setFlag_same _ _ _ (by omega), State.fld_setFlag_outside _ _ _ (by omega) (by omega)⟩
  have h0 : s.ringsOff = ((s.setFlag .ronpex Reg.mgtCmdCfg 4 false).setFlag .ronpex Reg.mgtEvtCfg 4 false).setFlag .ronpex Reg.logCfg 4 false := rfl
  have h1 (a : Nat) (h : Reg.logCfg ≠ a) : s.ringsOff.reg .ronpex a
      = ((s.setFlag .ronpex Reg.mgtCmdCfg 4 false).setFlag .ronpex Reg.mgtEvtCfg 4 false).reg .ronpex a := by
    rw [h0, State.reg_setFlag_other _ _ _ _ _ _ _ (.inr h)]
  have h2 (a : Nat) (h : Reg.mgtEvtCfg ≠ a) : ((s.setFlag .ronpex Reg.mgtCmdCfg 4 false).setFlag .ronpex Reg.mgtEvtCfg 4 false).reg .ronpex a
      = (s.setFlag .ronpex Reg.mgtCmdCfg 4 false).reg .ronpex a := State.reg_setFlag_other _ _ _ _ _ _ _ (.inr h)
  have h3 (a : Nat) (h : Reg.mgtCmdCfg ≠ a) : (s.setFlag .ronpex Reg.mgtCmdCfg 4 false).reg .ronpex a = s.reg .ronpex a :=
    State.reg_setFlag_other _ _ _ _ _ _ _ (.inr h)
  refine ⟨fun a ha => ?_, fun a ha => ?_⟩
  · simp only [List.mem_cons, List.not_mem_nil, or_false] at ha
    rcases ha with rfl | rfl | rfl
    · rw [State.flag_congr (h1 _ (by decide)), State.flag_congr (h2 _ (by decide)), State.fld_congr (h1 _ (by decide)),
        State.fld_congr (h2 _ (by decide))]
      exact hmine _ _
    · rw [State.flag_congr (h1 _ (by decide)), State.fld_congr (h1 _ (by decide))]
      obtain ⟨k1, k2⟩ := hmine (s.setFlag .ronpex Reg.mgtCmdCfg 4 false) Reg.mgtEvtCfg
      exact ⟨k1, k2.trans (State.fld_congr (h3 _ (by decide)) 0 4)⟩
    · obtain ⟨k1, k2⟩ := hmine ((s.setFlag .ronpex Reg.mgtCmdCfg 4 false).setFlag .ronpex Reg.mgtEvtCfg 4 false) Reg.logCfg
      rw [h0]
      exact ⟨k1, k2.trans ((State.fld_congr (h2 _ (by decide)) 0 4).trans (State.fld_congr (h3 _ (by decide)) 0 4))⟩
  · simp only [List.mem_cons, List.not_mem_nil, or_false, not_or] at ha
    obtain ⟨k1, k2, k3⟩ := ha
    rw [h1 a (Ne.symm k3), h2 a (Ne.symm k2), h3 a (Ne.symm k1)]

/-- The MSI-X tables of the rings after PCIE_PERST_N. -/
theorem State.reg_perst (s : State) {a : Nat} (h : a ∉ (List.range 16).map Reg.mgtMsix ++ (List.range 2).map Reg.mgtMsixPba) :
    s.perst.reg .ronpex a = s.ringsOff.reg .ronpex a := by
  simp only [List.mem_append, List.mem_map, not_or, not_exists, not_and] at h
  obtain ⟨h1, h2⟩ := h
  unfold State.perst
  exact (State.reg_foldl_of_mem (fun t i hi => State.reg_setReg_other _ _ _ _ _ _ (.inr (h2 i hi))) _).trans
    (State.reg_foldl_of_mem (fun t i hi => State.reg_setReg_other _ _ _ _ _ _ (.inr (h1 i hi))) _)

theorem State.perst_does (s : State) :
    (∀ a ∈ [Reg.mgtCmdCfg, Reg.mgtEvtCfg, Reg.logCfg], s.perst.flag .ronpex a 4 = false ∧ s.perst.fld .ronpex a 0 4 = s.fld .ronpex a 0 4)
      ∧ regsBut s s.perst .ronpex ([Reg.mgtCmdCfg, Reg.mgtEvtCfg, Reg.logCfg] ++ (List.range 16).map Reg.mgtMsix
          ++ (List.range 2).map Reg.mgtMsixPba)
      ∧ s.onlyRegs s.perst := by
  obtain ⟨hoff, hregs⟩ := s.ringsOff_does
  refine ⟨fun a ha => ?_, fun a ha => ?_, ?_⟩
  · have hout : ∀ b ∈ [Reg.mgtCmdCfg, Reg.mgtEvtCfg, Reg.logCfg], b ∉ (List.range 16).map Reg.mgtMsix ++ (List.range 2).map Reg.mgtMsixPba := by
      decide
    rw [State.flag_congr (s.reg_perst (hout a ha)), State.fld_congr (s.reg_perst (hout a ha))]
    exact hoff a ha
  · rw [List.append_assoc, List.mem_append, not_or] at ha
    rw [s.reg_perst ha.2, hregs a ha.1]
  · have hset (t : State) (a v : Nat) : t.onlyRegs (t.setReg .ronpex a v) := rfl
    unfold State.perst
    exact ((State.onlyRegs_foldl (fun t a => hset t a _) _ s).trans (State.onlyRegs_foldl (fun t i => hset t _ _) _ _)).trans
      (State.onlyRegs_foldl (fun t i => hset t _ _) _ _)

/-- Settles O44, reset by reset. -/
theorem resets : Obligations.Resets := by
  intro s
  refine ⟨?_, fun h => ?_, fun h => congrArg Host.Outcome.next (if_pos h), fun h => congrArg Host.Outcome.next (if_pos (by rw [h]; rfl)),
    fun h ht hn => ?_, fun h ht => ⟨_, rfl, State.pkgStart_does h ht⟩, fun v w h h0 hr => hubReset_does h h0 hr w, ?_, ⟨_, rfl, s.perst_does⟩, rfl⟩
  · obtain ⟨hpst, hsec, hep, hnow, hpending⟩ := s.returnToken_keeps
    obtain ⟨h1, h2, h3, h4, -, h6, h7, h8, h9, h10, h11, h12, h13, h14⟩ := s.returnToken.packageReset_does
      (s.rp.power.powerUp || s.rp.power.supplyLost || s.rp.power.tripped) s.rp.power.tripped true s.rp.power.tripClear
    rw [hpst] at h6
    rw [hsec] at h8
    exact ⟨s.pkgResetPin, rfl, h1, h2, h3, h4, h6, h7, h8, h9, h10, h11, h12.trans hep, h13.trans hnow, h14.trans hpending⟩
  · obtain ⟨o, m, q, l, x, hcount⟩ := s.restored_pstCount Reg.pstTrips 0 16
    obtain ⟨h1, h2, h3, -, h5, -, -, -, h9, -, -, h12, h13, h14⟩ := (s.pstCount Reg.pstTrips 0 16).packageReset_does true true false
      (s.now + 10000000)
    have heq : s.thermTrip = (s.pstCount Reg.pstTrips 0 16).packageReset true true false (s.now + 10000000) := if_neg (by rw [h]; decide)
    exact ⟨_, congrArg Host.Outcome.next heq, h1, h2, h3, h5, h9, h12.trans (by rw [hcount]), h13.trans (by rw [hcount]), h14.trans (by rw [hcount])⟩
  · refine congrArg Host.Outcome.next ?_
    unfold State.pkgStart
    rw [if_neg (by rw [h]; decide), if_pos ⟨ht, hn⟩]
    rfl
  · exact ⟨s.plocenReset, rfl, fun _ => rfl, rfl, rfl, Nat.sub_self _, rfl, rfl, rfl, rfl⟩

end Sys2Proof.Machine
end

section
/-! What sending, reporting, fencing and quarantine leave of power, time and memory. -/

namespace Sys2Proof.Machine

open Sys2Proof Sys2Proof.Claims

/-- The power control, the time state and the fabric-resident memory of the Ronpex. -/
def State.rpPower (s : State) : Power × TimeSt × Fmem := (s.rp.power, s.rp.time, s.rp.fmem)

@[simp] theorem State.rpPower_eq (s : State) : (s.rp.power, s.rp.time, s.rp.fmem) = s.rpPower := by rw [State.rpPower]

@[simp] theorem State.rpPower_mk (n f : Nat) (l : List Instr) (o : List Out) (m : SMap Byte) (r : Ronpex) (e : Plocen) :
    State.rpPower { now := n, free := f, pending := l, out := o, hbm := m, rp := r, ep := e } = (r.power, r.time, r.fmem) := by rw [State.rpPower]

@[simp] theorem Ronpex.setReg_fmem (r : Ronpex) (a v : Nat) : (r.setReg a v).fmem = r.fmem := by rw [Ronpex.setReg]

@[simp] theorem Ronpex.setReg_power (r : Ronpex) (a v : Nat) : (r.setReg a v).power = r.power := by rw [Ronpex.setReg]

@[simp] theorem Ronpex.setReg_time (r : Ronpex) (a v : Nat) : (r.setReg a v).time = r.time := by rw [Ronpex.setReg]

@[simp] theorem State.rpPower_ite (c : Prop) [Decidable c] (a b : State) :
    (if c then a else b).rpPower = if c then a.rpPower else b.rpPower := by
  split <;> rfl

@[simp] theorem State.rpPower_foldl {α : Type} (g : State → α → State) (h : ∀ t x, (g t x).rpPower = t.rpPower) (l : List α) (s : State) :
    (l.foldl g s).rpPower = s.rpPower := by
  induction l generalizing s with
  | nil => rfl
  | cons x r ih => rw [List.foldl_cons, ih, h]

theorem State.rpPower_getD (o : Option State) (s : State) (h : ∀ t, o = some t → t.rpPower = s.rpPower) : (o.getD s).rpPower = s.rpPower := by
  cases o with
  | none => rfl
  | some t => exact h t rfl

/-! ### Machine/Ops -/

@[simp] theorem State.rpPower_setReg (s : State) (a v : Nat) :
    (s.setReg .ronpex a v).rpPower = s.rpPower := by
  unfold State.setReg
  simp

@[simp] theorem State.rpPower_setFld (s : State) (a lo len v : Nat) :
    (s.setFld .ronpex a lo len v).rpPower = s.rpPower := by
  unfold State.setFld
  simp

@[simp] theorem State.rpPower_satFld (s : State) (a lo len n : Nat) :
    (s.satFld .ronpex a lo len n).rpPower = s.rpPower := by
  unfold State.satFld
  simp

@[simp] theorem State.rpPower_setFlag (s : State) (a i : Nat) (b : Bool) :
    (s.setFlag .ronpex a i b).rpPower = s.rpPower := by
  unfold State.setFlag
  simp

@[simp] theorem State.rpPower_setLink (s : State) (port : Nat) (l : Link) :
    (s.setLink .ronpex port l).rpPower = s.rpPower := by
  unfold State.setLink
  simp

@[simp] theorem State.rpPower_modLink (s : State) (port : Nat) (f : Link → Link) :
    (s.modLink .ronpex port f).rpPower = s.rpPower := by
  unfold State.modLink
  simp

@[simp] theorem State.rpPower_setSource (s : State) (x : Source) :
    (s.setSource .ronpex x).rpPower = s.rpPower := by
  unfold State.setSource
  simp

@[simp] theorem State.rpPower_draw (s : State) :
    s.draw.2.rpPower = s.rpPower := by
  unfold State.draw
  simp

@[simp] theorem State.rpPower_emit (s : State) (o : Out) :
    (s.emit o).rpPower = s.rpPower := by
  unfold State.emit
  simp

@[simp] theorem State.rpPower_msix (s : State) (v : Nat) :
    (s.msix v).rpPower = s.rpPower := by
  unfold State.msix
  simp

@[simp] theorem State.rpPower_rpLog (s : State) (b : LogBody) :
    (s.rpLog b).rpPower = s.rpPower := by
  unfold State.rpLog
  simp

@[simp] theorem State.rpPower_rpCond (s : State) (code origin requester port skein addr old new : Nat) :
    (s.rpCond code origin requester port skein addr old new).rpPower = s.rpPower := by
  unfold State.rpCond
  simp

@[simp] theorem State.rpPower_evtWrite (s : State) (e : Event) :
    (s.evtWrite e).rpPower = s.rpPower := by
  unfold State.evtWrite
  simp

@[simp] theorem State.rpPower_evtOverflow (s : State) :
    s.evtOverflow.rpPower = s.rpPower := by
  unfold State.evtOverflow
  simp

@[simp] theorem State.rpPower_post (s : State) (e : Event) :
    (s.post e).rpPower = s.rpPower := by
  unfold State.post
  simp

@[simp] theorem State.rpPower_postFor (s : State) (e : Event) (scope : Nat) (skeins : List Nat) :
    (s.postFor e scope skeins).rpPower = s.rpPower := by
  unfold State.postFor
  simp

@[simp] theorem State.rpPower_pstCell (s : State) (a v : Nat) :
    (s.pstCell a v).rpPower = s.rpPower := by
  unfold State.pstCell
  simp

@[simp] theorem State.rpPower_modUnits (s : State) (f : Units → Units) :
    (s.modUnits f).rpPower = s.rpPower := by
  unfold State.modUnits
  simp

@[simp] theorem State.rpPower_setUnit (s : State) (i cause qstep : Nat) :
    (s.setUnit i cause qstep).rpPower = s.rpPower := by
  unfold State.setUnit
  simp

/-! ### Machine/Route -/

@[simp] theorem State.rpPower_offer (s : State) (port : Nat) (x : EddyEnt) :
    (s.offer port x).rpPower = s.rpPower := by
  unfold State.offer
  simp

@[simp] theorem State.rpPower_modWarp (s : State) (f : Warp → Warp) :
    (s.modWarp f).rpPower = s.rpPower := by
  unfold State.modWarp
  simp

@[simp] theorem State.rpPower_logUnrouted (s : State) (p : Nat) (c : Container) :
    (s.logUnrouted p c).rpPower = s.rpPower := by
  unfold State.logUnrouted
  simp

@[simp] theorem State.rpPower_goHome (s : State) (c : Container) :
    (s.goHome c).rpPower = s.rpPower := by
  unfold State.goHome
  simp

@[simp] theorem State.rpPower_reflect (s : State) (x : EddyEnt) (noPath : Bool) :
    (s.reflect x noPath).rpPower = s.rpPower := by
  unfold State.reflect
  dsimp only
  repeat' split
  all_goals simp

@[simp] theorem State.rpPower_toOutput (s : State) (r : Route) (x : EddyEnt) :
    (s.toOutput r x).rpPower = s.rpPower := by
  unfold State.toOutput
  repeat' split
  all_goals simp

/-! ### Machine/Send -/

@[simp] theorem State.rpPower_hold (s : State) (dest skein plane planes : Nat) (loc : HeldAt) (m : Msg) (own : Owner) :
    (s.hold .ronpex dest skein plane planes loc m own).1.rpPower = s.rpPower := by
  unfold State.hold
  simp

@[simp] theorem State.rpPower_rpSend (s : State) (h : Held) :
    (s.rpSend h).rpPower = s.rpPower := by
  unfold State.rpSend
  simp

@[simp] theorem State.rpPower_rpPush (s : State) :
    s.rpPush.rpPower = s.rpPower := by
  unfold State.rpPush
  simp

@[simp] theorem State.rpPower_rpMgmtPort (s : State) (port dest : Nat) (m : Mgmt) (own : Owner) :
    (s.rpMgmtPort port dest m own).rpPower = s.rpPower := by
  unfold State.rpMgmtPort
  simp

/-! ### Machine/Flags -/

@[simp] theorem State.rpPower_errsumMsix (s before : State) :
    (s.errsumMsix before).rpPower = s.rpPower := by
  unfold State.errsumMsix
  simp

/-! ### Machine/OrderOps -/

@[simp] theorem State.rpPower_modTray (s : State) (f : Tray → Tray) :
    (s.modTray f).rpPower = s.rpPower := by
  unfold State.modTray
  simp

@[simp] theorem State.rpPower_trayOut (s : State) (port : Nat) (f : TrayFrame) :
    (s.trayOut port f).rpPower = s.rpPower := by
  unfold State.trayOut
  simp

@[simp] theorem State.rpPower_trayMgmt (s : State) (m : Mgmt) :
    (s.trayMgmt m).rpPower = s.rpPower := by
  unfold State.trayMgmt
  simp

@[simp] theorem State.rpPower_toEndPoint (s : State) (p : Nat) (m : Mgmt) :
    (s.toEndPoint p m).rpPower = s.rpPower := by
  unfold State.toEndPoint
  simp

@[simp] theorem State.rpPower_toFarEnd (s : State) (p : Nat) (m : Mgmt) :
    (s.toFarEnd p m).rpPower = s.rpPower := by
  unfold State.toFarEnd
  repeat' split
  all_goals simp

@[simp] theorem State.rpPower_orderToMembers (s : State) (o : SwitchOrder) :
    (s.orderToMembers o).rpPower = s.rpPower := by
  unfold State.orderToMembers
  simp

@[simp] theorem State.rpPower_issueOrder (s : State) (o : SwitchOrder) :
    (s.issueOrder o).rpPower = s.rpPower := by
  unfold State.issueOrder
  simp

@[simp] theorem State.rpPower_unitEvent (s : State) (i : Nat) :
    (s.unitEvent i).rpPower = s.rpPower := by
  unfold State.unitEvent
  simp

@[simp] theorem State.rpPower_showUnits (s : State) (quiet : Bool) (l : List Nat) :
    (s.showUnits quiet l).rpPower = s.rpPower := by
  unfold State.showUnits
  simp

@[simp] theorem State.rpPower_spdError (s : State) (n b skein : Nat) :
    (s.spdError n b skein).rpPower = s.rpPower := by
  unfold State.spdError
  simp

@[simp] theorem State.rpPower_setTally (s : State) (ph : Nat) (t : Tally) :
    (s.setTally ph t).rpPower = s.rpPower := by
  unfold State.setTally
  simp

@[simp] theorem State.rpPower_tallyPorts (s : State) (ph : Nat) (l : List Nat) (ok : Bool) :
    (s.tallyPorts ph l ok).rpPower = s.rpPower := by
  unfold State.tallyPorts
  simp

@[simp] theorem State.rpPower_tallyLost (s : State) (ph : Nat) (l : List Nat) :
    (s.tallyLost ph l).rpPower = s.rpPower := by
  unfold State.tallyLost
  simp

@[simp] theorem State.rpPower_loseContexts (s : State) (n : Nat) :
    (s.loseContexts n).rpPower = s.rpPower := by
  unfold State.loseContexts
  simp

@[simp] theorem State.rpPower_classOrder (s : State) (c unitType unit gen : Nat) :
    (s.classOrder c unitType unit gen).rpPower = s.rpPower := by
  unfold State.classOrder
  simp

@[simp] theorem State.rpPower_spindleOrder (s : State) (n : Nat) :
    (s.spindleOrder n).rpPower = s.rpPower := by
  unfold State.spindleOrder
  dsimp only
  repeat' split
  all_goals simp

@[simp] theorem State.rpPower_modSk (s : State) (f : Skeins → Skeins) :
    (s.modSk f).rpPower = s.rpPower := by
  unfold State.modSk
  simp

@[simp] theorem State.rpPower_sendAssign (s : State) (port : Nat) :
    (s.sendAssign port).rpPower = s.rpPower := by
  unfold State.sendAssign
  simp

@[simp] theorem State.rpPower_sendSlots (s : State) :
    s.sendSlots.rpPower = s.rpPower := by
  unfold State.sendSlots
  simp

/-! ### Machine/CmdOps -/

@[simp] theorem State.rpPower_modMgmt (s : State) (f : MgmtRings → MgmtRings) :
    (s.modMgmt f).rpPower = s.rpPower := by
  unfold State.modMgmt
  simp

@[simp] theorem State.rpPower_cmdEvent (s : State) (r : Running) (status detail : Nat) :
    (s.cmdEvent r status detail).rpPower = s.rpPower := by
  unfold State.cmdEvent
  simp

@[simp] theorem State.rpPower_cmdNext (s : State) :
    s.cmdNext.rpPower = s.rpPower := by
  unfold State.cmdNext
  simp

@[simp] theorem State.rpPower_cmdDone (s : State) (status detail : Nat) :
    (s.cmdDone status detail).rpPower = s.rpPower := by
  unfold State.cmdDone
  split <;> simp

@[simp] theorem State.rpPower_cmdWaited (s : State) (w : CmdWait) (status detail : Nat) :
    (s.cmdWaited w status detail).rpPower = s.rpPower := by
  unfold State.cmdWaited
  simp

/-! ### Machine/RpOrders -/

@[simp] theorem State.rpPower_powerEvent (s : State) :
    s.powerEvent.rpPower = s.rpPower := by
  unfold State.powerEvent
  simp

/-! ### Machine/FaultOps -/

@[simp] theorem State.rpPower_portOrder (s : State) (p : Nat) :
    (s.portOrder p).rpPower = s.rpPower := by
  unfold State.portOrder
  simp

@[simp] theorem State.rpPower_fenceLog (s : State) (i origin requester what : Nat) :
    (s.fenceLog i origin requester what).rpPower = s.rpPower := by
  unfold State.fenceLog
  simp

@[simp] theorem State.rpPower_hardFence (s : State) (i cause : Nat) :
    (s.hardFence i cause).rpPower = s.rpPower := by
  unfold State.hardFence
  simp

@[simp] theorem State.rpPower_stopClock (s : State) (port : Nat) :
    (s.stopClock .ronpex port).rpPower = s.rpPower := by
  unfold State.stopClock
  simp

@[simp] theorem State.rpPower_holdBack (s : State) (i : Nat) :
    (s.holdBack i).rpPower = s.rpPower := by
  unfold State.holdBack
  simp

@[simp] theorem State.rpPower_fencePort (s : State) (n cause : Nat) :
    (s.fencePort n cause).rpPower = s.rpPower := by
  unfold State.fencePort
  simp

@[simp] theorem State.rpPower_fenceSpindle (s : State) (n cause : Nat) :
    (s.fenceSpindle n cause).rpPower = s.rpPower := by
  unfold State.fenceSpindle
  simp

@[simp] theorem State.rpPower_quarantine (s : State) (i : Nat) :
    (s.quarantine i).rpPower = s.rpPower := by
  unfold State.quarantine
  simp

@[simp] theorem State.rpPower_channelsReturn (s : State) :
    s.channelsReturn.rpPower = s.rpPower := by
  unfold State.channelsReturn
  simp

@[simp] theorem State.rpPower_partEventFor (s : State) (type n state cause : Nat) (skeins : List Nat) :
    (s.partEventFor type n state cause skeins).rpPower = s.rpPower := by
  unfold State.partEventFor
  simp

@[simp] theorem State.rpPower_partEvent (s : State) (type n state cause : Nat) :
    (s.partEvent type n state cause).rpPower = s.rpPower := by
  unfold State.partEvent
  simp

end Sys2Proof.Machine
end

section
/-! Dies without power, and the package asleep (R373, R428, R452). -/

namespace Sys2Proof.Machine

open Sys2Proof Sys2Proof.Claims

/-! ### Channels -/

theorem chanOf_lt (a : Nat) : chanOf a < 128 := by
  unfold chanOf
  exact Nat.xor_lt_two_pow (n := 7) (Nat.mod_lt _ (by omega)) (Nat.mod_lt _ (by omega))

/-! ### A die without power -/

theorem State.power_of_rpPower {s t : State} (h : t.rpPower = s.rpPower) : t.rp.power = s.rp.power := congrArg (·.1) h

theorem State.time_of_rpPower {s t : State} (h : t.rpPower = s.rpPower) : t.rp.time = s.rp.time := congrArg (·.2.1) h

theorem State.fmem_of_rpPower {s t : State} (h : t.rpPower = s.rpPower) : t.rp.fmem = s.rp.fmem := congrArg (·.2.2) h

theorem State.pst_of_unitMarks {s t : State} (h : t.unitMarks = s.unitMarks) : t.rp.pst = s.rp.pst := congrArg (·.2.2.2.2.2) h

theorem State.hbm_of_kept {s t : State} (h : t.kept = s.kept) : t.hbm = s.hbm := congrArg (·.2.2.1) h

theorem State.now_of_kept {s t : State} (h : t.kept = s.kept) : t.now = s.now := congrArg (·.1) h

theorem State.pending_of_kept {s t : State} (h : t.kept = s.kept) : t.pending = s.pending := congrArg (·.2.1) h

theorem State.awake_of_inReset {s t : State} (h : t.inReset = s.inReset) : t.rp.units.awake = s.rp.units.awake := congrArg (·.2.2) h

theorem State.unitEvent_only (s : State) (i : Nat) :
    ∃ o m k x, s.unitEvent i = { s with out := o, rp := { s.rp with mgmt := m, skeins := k, regs := x } } := s.postFor_only _ _ _

/-- The log is as it was, but for what showing units reports. -/
theorem State.log_showUnits (s : State) (quiet : Bool) (l : List Nat) : (s.showUnits quiet l).rp.log = s.rp.log := by
  unfold State.showUnits
  induction l generalizing s with
  | nil => rfl
  | cons i l ih =>
    rw [List.foldl_cons, ih]
    dsimp only
    split
    · rfl
    · cases quiet with
      | true => rfl
      | false =>
        obtain ⟨o, m, k, x, h⟩ := s.unitEvent_only i
        show (s.unitEvent i).rp.log = s.rp.log
        rw [h]

/-- What a die without power leaves: its own stack, keys and units are gone. -/
structure State.Off (s t : State) (d : Nat) : Prop where
  byte : ∀ a, t.hbmByte a = if chanOf a / 32 = d then 0 else s.hbmByte a
  cipher : t.rp.fmem.cipher = s.rp.fmem.cipher.filter fun e => chanOf (64 * e.1) / 32 != d
  power : t.rp.power = s.rp.power
  time : t.rp.time = s.rp.time
  awake : t.rp.units.awake = setBit d false s.rp.units.awake
  pst : t.rp.pst = s.rp.pst
  log : t.rp.log = s.rp.log
  ep : t.ep = s.ep
  now : t.now = s.now
  pending : t.pending = s.pending

/-- The regions of a die lose what they hold. -/
def State.dieEmptied (s : State) (d : Nat) : State :=
  ((List.range 4).map (4 * d + ·)).foldl (fun t r => (t.loseEddies (regionPorts r)).resetRegion r) (s.dieLost d)

theorem State.dieEmptied_keeps (s : State) (d : Nat) :
    (s.dieEmptied d).hbm = (s.dieLost d).hbm ∧ (s.dieEmptied d).rp.fmem.cipher = (s.dieLost d).rp.fmem.cipher
      ∧ (s.dieEmptied d).rp.power = s.rp.power ∧ (s.dieEmptied d).rp.time = s.rp.time ∧ (s.dieEmptied d).rp.units.awake = s.rp.units.awake
      ∧ (s.dieEmptied d).rp.pst = s.rp.pst ∧ (s.dieEmptied d).rp.log = s.rp.log ∧ (s.dieEmptied d).ep = s.ep
      ∧ (s.dieEmptied d).now = s.now ∧ (s.dieEmptied d).pending = s.pending := by
  have hfold (l : List Nat) (t : State) (ht : t.hbm = (s.dieLost d).hbm ∧ t.rp.fmem.cipher = (s.dieLost d).rp.fmem.cipher
      ∧ t.rp.power = s.rp.power ∧ t.rp.time = s.rp.time ∧ t.rp.units.awake = s.rp.units.awake
      ∧ t.rp.pst = s.rp.pst ∧ t.rp.log = s.rp.log ∧ t.ep = s.ep ∧ t.now = s.now ∧ t.pending = s.pending) (u : State)
      (hu : u = l.foldl (fun t r => (t.loseEddies (regionPorts r)).resetRegion r) t) : u.hbm = (s.dieLost d).hbm
      ∧ u.rp.fmem.cipher = (s.dieLost d).rp.fmem.cipher
      ∧ u.rp.power = s.rp.power ∧ u.rp.time = s.rp.time ∧ u.rp.units.awake = s.rp.units.awake
      ∧ u.rp.pst = s.rp.pst ∧ u.rp.log = s.rp.log ∧ u.ep = s.ep ∧ u.now = s.now ∧ u.pending = s.pending := by
    induction l generalizing t with
    | nil => rw [hu]; exact ht
    | cons r l ih => exact ih ((t.loseEddies (regionPorts r)).resetRegion r) ht hu
  exact hfold _ (s.dieLost d) ⟨rfl, rfl, rfl, rfl, rfl, rfl, rfl, rfl, rfl, rfl⟩ _ rfl

/-- The regions of a die, the die itself and its power are noted as gone. -/
def State.dieDark (s : State) (d : Nat) : State :=
  s.modUnits fun u => { u with
    regions := u.regions.filter fun x => x.1 / 4 != d, dies := u.dies.filter fun x => x.1 != d, awake := setBit d false u.awake }

theorem State.dieOff_eq (s : State) (d : Nat) : ∃ l : List Nat, s.dieOff d = ((s.dieEmptied d).dieDark d).showUnits false l := by
  unfold State.dieOff
  dsimp only
  rw [← State.dieEmptied]
  exact ⟨_, rfl⟩

theorem State.dieDark_keeps (s : State) (d : Nat) : (s.dieDark d).hbm = s.hbm ∧ (s.dieDark d).rp.fmem = s.rp.fmem
    ∧ (s.dieDark d).rp.power = s.rp.power ∧ (s.dieDark d).rp.time = s.rp.time
    ∧ (s.dieDark d).rp.units.awake = setBit d false s.rp.units.awake ∧ (s.dieDark d).rp.pst = s.rp.pst ∧ (s.dieDark d).rp.log = s.rp.log
    ∧ (s.dieDark d).ep = s.ep ∧ (s.dieDark d).now = s.now ∧ (s.dieDark d).pending = s.pending :=
  ⟨rfl, rfl, rfl, rfl, rfl, rfl, rfl, rfl, rfl, rfl⟩

theorem State.cipher_dieLost (s : State) (d : Nat) :
    (s.dieLost d).rp.fmem.cipher = s.rp.fmem.cipher.filter fun e => chanOf (64 * e.1) / 32 != d := rfl

theorem State.off_dieOff (s : State) (d : Nat) : s.Off (s.dieOff d) d := by
  obtain ⟨hhbm, hcipher, hpower, htime, hawake, hpst, hlog, hep, hnow, hpending⟩ := s.dieEmptied_keeps d
  obtain ⟨dhbm, dfmem, dpower, dtime, dawake, dpst, dlog, dep, dnow, dpending⟩ := (s.dieEmptied d).dieDark_keeps d
  obtain ⟨l, heq⟩ := s.dieOff_eq d
  rw [heq]
  have hkept := ((s.dieEmptied d).dieDark d).kept_showUnits false l
  have hpow := ((s.dieEmptied d).dieDark d).rpPower_showUnits false l
  refine ⟨fun a => ?_, ?_, ?_, ?_, ?_, ?_, ?_, ?_, ?_, ?_⟩
  · rw [State.hbmByte, State.hbm_of_kept hkept, dhbm, hhbm, ← State.hbmByte, State.hbmByte_dieLost]
  · rw [State.fmem_of_rpPower hpow, dfmem, hcipher, State.cipher_dieLost]
  · rw [State.power_of_rpPower hpow, dpower, hpower]
  · rw [State.time_of_rpPower hpow, dtime, htime]
  · rw [State.awake_of_inReset (State.inReset_showUnits _ false l), dawake, hawake]
  · rw [State.pst_of_unitMarks (State.unitMarks_showUnits _ false l), dpst, hpst]
  · rw [State.log_showUnits, dlog, hlog]
  · rw [State.ep_of_beside (State.beside_showUnits _ false l), dep, hep]
  · rw [State.now_of_kept hkept, dnow, hnow]
  · rw [State.pending_of_kept hkept, dpending, hpending]

/-- Every die is without power. -/
def State.allOff (s : State) : State := (List.range 4).foldl (fun t d => t.dieOff d) s

/-- What is left once every die is without power. -/
theorem State.allOff_does (s : State) : (∀ a, s.allOff.hbmByte a = 0) ∧ s.allOff.rp.fmem.cipher = [] ∧ s.allOff.rp.power = s.rp.power
    ∧ s.allOff.rp.time = s.rp.time ∧ (∀ d, d < 4 → bit d s.allOff.rp.units.awake = false) ∧ s.allOff.rp.pst = s.rp.pst
    ∧ s.allOff.rp.log = s.rp.log ∧ s.allOff.ep = s.ep ∧ s.allOff.now = s.now ∧ s.allOff.pending = s.pending := by
  have hall := foldl_range_induct (f := fun (t : State) d => t.dieOff d) (N := 4) (s := s) (I := fun n t =>
    (∀ a, chanOf a / 32 < n → t.hbmByte a = 0) ∧ (∀ e ∈ t.rp.fmem.cipher, n ≤ chanOf (64 * e.1) / 32) ∧ t.rp.power = s.rp.power
    ∧ t.rp.time = s.rp.time ∧ (∀ d, d < n → bit d t.rp.units.awake = false) ∧ t.rp.pst = s.rp.pst
    ∧ t.rp.log = s.rp.log ∧ t.ep = s.ep ∧ t.now = s.now ∧ t.pending = s.pending)
    ⟨fun _ h => absurd h (by omega), fun _ _ => Nat.zero_le _, rfl, rfl, fun _ h => absurd h (by omega), rfl, rfl, rfl, rfl, rfl⟩
    (fun n t _ ⟨h1, h2, h3, h4, h5, h6, h7, h8, h9, h10⟩ => by
      obtain ⟨k1, k2, k3, k4, k5, k6, k7, k8, k9, k10⟩ := t.off_dieOff n
      refine ⟨fun a ha => ?_, fun e he => ?_, k3.trans h3, k4.trans h4, fun d hd => ?_, k6.trans h6, k7.trans h7, k8.trans h8, k9.trans h9,
        k10.trans h10⟩
      · rw [k1]
        split
        · rfl
        · exact h1 a (by omega)
      · rw [k2] at he
        obtain ⟨hmem, hne⟩ := List.mem_filter.1 he
        have := h2 e hmem
        have : chanOf (64 * e.1) / 32 ≠ n := by simpa using hne
        omega
      · rw [k5]
        by_cases hdn : d = n
        · rw [hdn, bit_setBit_same]
        · rw [bit_setBit_other _ _ hdn]
          exact h5 d (by omega))
  obtain ⟨h1, h2, h3, h4, h5, h6, h7, h8, h9, h10⟩ := hall
  unfold State.allOff
  refine ⟨fun a => h1 a (by have := chanOf_lt a; omega), List.eq_nil_iff_forall_not_mem.2 fun e he => ?_, h3, h4, h5, h6, h7, h8, h9, h10⟩
  have := h2 e he
  have := chanOf_lt (64 * e.1)
  omega

/-! ### The hub asleep -/

/-- A flag that a fold clears in each of its registers. -/
theorem State.flag_foldl_clear {a : Nat → Nat} {i N : Nat} (hi : i < 32) (hinj : ∀ m n, a m = a n → m = n) (s : State) :
    (∀ m < N, ((List.range N).foldl (fun t n => t.setFlag .ronpex (a n) i false) s).flag .ronpex (a m) i = false)
      ∧ ∀ b, (∀ m < N, a m ≠ b) → ((List.range N).foldl (fun t n => t.setFlag .ronpex (a n) i false) s).reg .ronpex b = s.reg .ronpex b := by
  refine foldl_range_induct (f := fun (t : State) n => t.setFlag .ronpex (a n) i false) (N := N) (s := s) (I := fun n t =>
    (∀ m < n, t.flag .ronpex (a m) i = false) ∧ ∀ b, (∀ m < n, a m ≠ b) → t.reg .ronpex b = s.reg .ronpex b)
    ⟨fun m hm => absurd hm (by omega), fun _ _ => rfl⟩ fun n t _ ⟨h1, h2⟩ => ⟨fun m hm => ?_, fun b hb => ?_⟩
  · by_cases h : m = n
    · rw [h, State.flag_setFlag_same _ _ _ hi]
    · rw [State.flag_congr (State.reg_setFlag_other _ _ _ _ _ _ _ (.inr fun he => h (hinj _ _ he.symm)))]
      exact h1 m (by omega)
  · rw [State.reg_setFlag_other _ _ _ _ _ _ _ (.inr (hb n (by omega)))]
    exact h2 b fun m hm => hb m (by omega)

/-- The alternates of the draft and READY of every region are cleared. -/
def State.hubCleared (s : State) : State :=
  (List.range 256).foldl (fun t n => t.setFlag .ronpex (Reg.fmhRgnCtl n) 10 false)
    ((List.range 8).foldl (fun t c => t.setFlag .ronpex (Reg.drfAlt c) 3 false) s)

theorem State.hubCleared_does (s : State) : (∀ c < 8, s.hubCleared.flag .ronpex (Reg.drfAlt c) 3 = false)
    ∧ (∀ n < 256, s.hubCleared.flag .ronpex (Reg.fmhRgnCtl n) 10 = false) ∧ s.onlyRegs s.hubCleared := by
  obtain ⟨h1, -⟩ := State.flag_foldl_clear (a := Reg.drfAlt) (i := 3) (N := 8) (by omega) (fun m n h => by simp only [Reg.drfAlt] at h; omega) s
  obtain ⟨k1, k2⟩ := State.flag_foldl_clear (a := Reg.fmhRgnCtl) (i := 10) (N := 256) (by omega) (fun m n h => by simp only [Reg.fmhRgnCtl] at h; omega)
    ((List.range 8).foldl (fun t c => t.setFlag .ronpex (Reg.drfAlt c) 3 false) s)
  have hset (t : State) (a i : Nat) : t.onlyRegs (t.setFlag .ronpex a i false) := rfl
  unfold State.hubCleared
  refine ⟨fun c hc => ?_, k1, (State.onlyRegs_foldl (fun t c => hset t (Reg.drfAlt c) 3) _ s).trans
    (State.onlyRegs_foldl (fun t n => hset t (Reg.fmhRgnCtl n) 10) _ _)⟩
  have hother := k2 (Reg.drfAlt c) fun m _ => by simp only [Reg.drfAlt, Reg.fmhRgnCtl]; omega
  rw [State.flag_congr hother 3]
  exact h1 c hc

/-- The counters of the hub's memory and what waits to be zeroed are forgotten. -/
def State.memForgotten (s : State) : State :=
  { s with rp := { s.rp with fmem := { s.rp.fmem with hcnt := [], served := [], zeroing := [], zeroLeft := 0 } } }

theorem State.memForgotten_keeps (s : State) : (∀ a, s.memForgotten.reg .ronpex a = s.reg .ronpex a)
    ∧ s.memForgotten.rp.fmem.cipher = s.rp.fmem.cipher ∧ s.memForgotten.hbm = s.hbm ∧ s.memForgotten.rp.power = s.rp.power
    ∧ s.memForgotten.rp.time = s.rp.time ∧ s.memForgotten.rp.units = s.rp.units ∧ s.memForgotten.ep = s.ep ∧ s.memForgotten.now = s.now
    ∧ s.memForgotten.pending = s.pending := ⟨fun _ => rfl, rfl, rfl, rfl, rfl, rfl, rfl, rfl, rfl⟩

theorem State.hubAsleep_eq (s : State) : s.hubAsleep = s.hubCleared.memForgotten := by
  unfold State.hubAsleep
  dsimp only
  rw [← State.hubCleared, ← State.memForgotten]

theorem State.onlyRegs.keeps {s t : State} (h : s.onlyRegs t) : t.rp.fmem = s.rp.fmem ∧ t.hbm = s.hbm ∧ t.rp.power = s.rp.power
    ∧ t.rp.time = s.rp.time ∧ t.rp.units = s.rp.units ∧ t.ep = s.ep ∧ t.now = s.now ∧ t.pending = s.pending := by
  unfold State.onlyRegs at h
  rw [h]
  exact ⟨rfl, rfl, rfl, rfl, rfl, rfl, rfl, rfl⟩

theorem State.hubAsleep_does (s : State) : (∀ c < 8, s.hubAsleep.flag .ronpex (Reg.drfAlt c) 3 = false)
    ∧ (∀ n < 256, s.hubAsleep.flag .ronpex (Reg.fmhRgnCtl n) 10 = false) ∧ s.hubAsleep.rp.fmem.cipher = s.rp.fmem.cipher
    ∧ s.hubAsleep.hbm = s.hbm ∧ s.hubAsleep.rp.power = s.rp.power ∧ s.hubAsleep.rp.time = s.rp.time
    ∧ s.hubAsleep.rp.units = s.rp.units ∧ s.hubAsleep.ep = s.ep ∧ s.hubAsleep.now = s.now ∧ s.hubAsleep.pending = s.pending := by
  obtain ⟨h1, k1, honly⟩ := s.hubCleared_does
  obtain ⟨c1, c2, c3, c4, c5, c6, c7, c8⟩ := honly.keeps
  obtain ⟨m1, m2, m3, m4, m5, m6, m7, m8, m9⟩ := s.hubCleared.memForgotten_keeps
  rw [s.hubAsleep_eq]
  refine ⟨fun c hc => ?_, fun n hn => ?_, ?_, m3.trans c2, m4.trans c3, m5.trans c4, m6.trans c5, m7.trans c6, m8.trans c7, m9.trans c8⟩
  · rw [State.flag_congr (m1 _), h1 c hc]
  · rw [State.flag_congr (m1 _), k1 n hn]
  · rw [m2, c1]

theorem State.timeEvent_only (s : State) (case : Nat) :
    ∃ o m x, s.timeEvent .ronpex case = { s with out := o, rp := { s.rp with mgmt := m, regs := x } } := s.post_only _

/-- The time state of a hub that holds over. -/
def State.heldOver (s : State) : State :=
  s.modTime .ronpex fun t => { t with
    parent := none, source := 3, exchAt := some s.now, good := 0, bad := 0
    holdover := if t.everLocked then (t.holdover.orElse fun _ => some s.now) else none }

theorem State.holdOver_only (s : State) :
    ∃ o m x, s.holdOver .ronpex = { s.heldOver with out := o, rp := { s.heldOver.rp with mgmt := m, regs := x } } := by
  have heq : s.holdOver .ronpex
      = if s.rp.time.everLocked && s.rp.time.holdover.isNone then s.heldOver.timeEvent .ronpex 3 else s.heldOver := rfl
  rw [heq]
  split
  · exact s.heldOver.timeEvent_only 3
  · exact ⟨_, _, _, rfl⟩

/-- Holding over changes the time state, and reports it. -/
theorem State.timeAsleep_does (s : State) : s.timeAsleep.rpRegs = s.rpRegs
    ∧ (∃ o m x y, s.timeAsleep = { s with out := o, rp := { s.rp with mgmt := m, regs := x, time := y } })
    ∧ (s.rp.time.source ≠ 2 → s.timeAsleep.rp.time.locked = false ∧ s.timeAsleep.rp.time.source = 3) := by
  obtain ⟨o, m, x, h⟩ := s.holdOver_only
  refine ⟨by unfold State.timeAsleep; split <;> simp, ?_, fun hs => ?_⟩
  · unfold State.timeAsleep
    split
    · exact ⟨_, _, _, _, rfl⟩
    · rw [h]
      exact ⟨_, _, _, _, rfl⟩
  · unfold State.timeAsleep
    rw [if_neg hs, h]
    exact ⟨rfl, rfl⟩

end Sys2Proof.Machine
end

section
/-! Sleep, wake and the tokens of a staged wake (R373, R374, R396, R452). -/

namespace Sys2Proof.Machine

open Sys2Proof Sys2Proof.Claims

/-! ### Tokens -/

/-- Only the tray chain and what has been sent outside may differ. -/
def State.onlyTray (s t : State) : Prop := t = { s with out := t.out, rp := { s.rp with tray := t.rp.tray } }

theorem State.onlyTray.trans {s t u : State} (h : s.onlyTray t) (k : t.onlyTray u) : s.onlyTray u := by
  unfold State.onlyTray at *
  rw [k, h]

theorem State.onlyTray_trayOut (s : State) (port : Nat) (f : TrayFrame) : s.onlyTray (s.trayOut port f) := by
  unfold State.trayOut
  split <;> rfl

theorem State.onlyTray_modTray (s : State) (f : Tray → Tray) : s.onlyTray (s.modTray f) := rfl

theorem State.onlyTray_sendToken (s : State) (tok : Nat) : s.onlyTray (s.sendToken tok) := by
  have hfirst : s.onlyTray (if s.flag .ronpex Reg.timWake 4 then s.modTray fun t => { t with tokenAt := SMap.set t.tokenAt tok s.now } else s) := by
    split <;> rfl
  unfold State.sendToken
  dsimp only
  split
  · exact hfirst.trans (State.onlyTray_modTray _ _)
  · exact (hfirst.trans (State.onlyTray_modTray _ _)).trans (State.onlyTray_trayOut _ _ _)

/-- What the tray chain does not touch. -/
theorem State.onlyTray.keeps {s t : State} (h : s.onlyTray t) : t.rp.regs = s.rp.regs ∧ t.rp.power = s.rp.power ∧ t.rp.units = s.rp.units
    ∧ t.rp.fmem = s.rp.fmem ∧ t.rp.time = s.rp.time ∧ t.rp.links = s.rp.links ∧ onlyRonpex s t := by
  unfold State.onlyTray at h
  rw [h]
  exact ⟨rfl, rfl, rfl, rfl, rfl, rfl, rfl, rfl, rfl, rfl⟩

theorem State.wakeState_of_regs {s t : State} (h : t.rp.regs = s.rp.regs) : t.wakeState = s.wakeState :=
  State.fld_congr (State.reg_of_regs h _) 2 2

/-- A package that takes the token. -/
def State.tokenTaken (s : State) (tok : Nat) : State :=
  ((s.modPower fun x => { x with token := some (tok, s.now), t0 := some s.now }).setFld .ronpex Reg.timWake 2 2 3).rampDue

/-- A package takes the token where it waits for one, and else sends it on. -/
theorem State.tokenHere_cases (s : State) (tok : Nat) :
    s.tokenHere tok = s ∨ s.tokenHere tok = s.sendToken tok
      ∨ s.wakeState = 2 ∧ s.tokenHere tok = s.tokenTaken tok := by
  unfold State.tokenHere
  split
  · exact .inl rfl
  · split
    · exact .inr (.inl rfl)
    · split
      · next h => exact .inr (.inr ⟨h.1, rfl⟩)
      · exact .inr (.inl rfl)

theorem State.rampDue_only (s : State) : ∃ x : Power, s.rampDue = { s with rp := { s.rp with power := x } } := by
  unfold State.rampDue
  split
  · exact ⟨_, rfl⟩
  · exact ⟨_, rfl⟩

/-- What a token that passes leaves: the units, the links and the memory; and a package in any state but the second keeps it. -/
structure State.Passed (s t : State) : Prop where
  units : t.rp.units = s.rp.units
  links : t.rp.links = s.rp.links
  only : onlyRonpex s t
  state : t.wakeState = s.wakeState ∨ s.wakeState = 2 ∧ t.wakeState = 3

theorem State.Passed.trans {s t u : State} (h : s.Passed t) (k : t.Passed u) : s.Passed u where
  units := k.units.trans h.units
  links := k.links.trans h.links
  only := onlyRonpex_trans h.only k.only
  state := by
    rcases h.state with h1 | ⟨h1, h2⟩
    · rcases k.state with k1 | ⟨k1, k2⟩
      · exact .inl (k1.trans h1)
      · exact .inr ⟨h1 ▸ k1, k2⟩
    · rcases k.state with k1 | ⟨k1, -⟩
      · exact .inr ⟨h1, k1.trans h2⟩
      · omega

theorem State.onlyTray.passed {s t : State} (h : s.onlyTray t) : s.Passed t := by
  obtain ⟨hregs, -, hunits, -, -, hlinks, honly⟩ := h.keeps
  exact ⟨hunits, hlinks, honly, .inl (State.wakeState_of_regs hregs)⟩

theorem State.wakeState_setFld (s : State) {v : Nat} (h : v < 4) : (s.setFld .ronpex Reg.timWake 2 2 v).wakeState = v := by
  rw [State.wakeState, State.fld_setFld_same _ _ _ _ _ _ (by omega), Nat.mod_eq_of_lt (by omega)]

theorem State.passed_tokenTaken {s : State} (h : s.wakeState = 2) (tok : Nat) : s.Passed (s.tokenTaken tok) := by
  obtain ⟨x, hx⟩ := State.rampDue_only ((s.modPower fun x => { x with token := some (tok, s.now), t0 := some s.now }).setFld .ronpex Reg.timWake 2 2 3)
  unfold State.tokenTaken
  rw [hx]
  refine ⟨rfl, rfl, ⟨rfl, rfl, rfl, rfl⟩, .inr ⟨h, ?_⟩⟩
  exact State.wakeState_setFld (s.modPower fun x => { x with token := some (tok, s.now), t0 := some s.now }) (by omega)

theorem State.passed_tokenHere (s : State) (tok : Nat) : s.Passed (s.tokenHere tok) := by
  rcases s.tokenHere_cases tok with h | h | ⟨hw, h⟩
  · rw [h]
    exact ⟨rfl, rfl, ⟨rfl, rfl, rfl, rfl⟩, .inl rfl⟩
  · rw [h]
    exact (s.onlyTray_sendToken tok).passed
  · rw [h]
    exact State.passed_tokenTaken hw tok

theorem State.passed_newToken (s : State) (tok : Nat) : s.Passed (s.newToken tok) :=
  ((s.onlyTray_modTray _).passed).trans (State.passed_tokenHere _ _)

/-- The tokens that are not out are created. -/
def State.newTokens (s : State) (l : List Nat) : State := l.foldl (fun t k => t.newToken k) s

theorem State.passed_newTokens (l : List Nat) (s : State) : s.Passed (s.newTokens l) := by
  unfold State.newTokens
  induction l generalizing s with
  | nil => exact ⟨rfl, rfl, ⟨rfl, rfl, rfl, rfl⟩, .inl rfl⟩
  | cons k l ih => exact (s.passed_newToken k).trans (ih _)

/-- A package that does not wait for a token creates them for the chain alone. -/
theorem State.onlyTray_newTokens (l : List Nat) {s : State} (h : s.wakeState ≠ 2) : s.onlyTray (s.newTokens l) := by
  unfold State.newTokens
  induction l generalizing s with
  | nil => rfl
  | cons k l ih =>
    have hnew : s.onlyTray (s.newToken k) := by
      have hmod := s.onlyTray_modTray fun t : Tray => { t with
        tokenAt := SMap.set t.tokenAt k s.now, tokens := (t.tokens.filter fun x => x != k) ++ [k] }
      refine hmod.trans ?_
      rcases State.tokenHere_cases (s.modTray fun t : Tray => { t with
        tokenAt := SMap.set t.tokenAt k s.now, tokens := (t.tokens.filter fun x => x != k) ++ [k] }) k with h' | h' | ⟨hw, -⟩
      · rw [State.newToken, h']
        rfl
      · rw [State.newToken, h']
        exact State.onlyTray_sendToken _ _
      · exact absurd hw h
    refine hnew.trans (ih ?_)
    rw [State.wakeState_of_regs hnew.keeps.1]
    exact h

/-! ### TIM.WAKE -/

/-- MASTER and RACK of TIM.WAKE are written. -/
def State.masterSet (s : State) (v : Nat) : State := s.setFld .ronpex Reg.timWake 4 2 (bits 4 2 v)

/-- A package is asked to sleep or to wake. -/
def State.wakeAsked (s : State) (v : Nat) : State :=
  if bits 0 2 v = 1 then (s.masterSet v).sleepCmd else if bits 0 2 v = 2 then (s.masterSet v).wakeCmd else s.masterSet v

/-- A package is chain master and holds the rack token. -/
def State.mastering (s : State) : Bool := s.flag .ronpex Reg.timWake 4 && s.flag .ronpex Reg.timWake 5

theorem State.wakeWrite_eq (s : State) (v : Nat) :
    s.wakeWrite v = if (s.wakeAsked v).mastering && !s.mastering then
        (s.wakeAsked v).newTokens ([0, 1].filter fun k => !(s.wakeAsked v).rp.tray.tokens.contains k)
      else s.wakeAsked v := rfl

theorem State.passed_wakeWrite (s : State) (v : Nat) : (s.wakeAsked v).Passed (s.wakeWrite v) := by
  rw [s.wakeWrite_eq]
  split
  · exact State.passed_newTokens _ _
  · exact State.passed_newTokens [] _

theorem State.onlyTray_wakeWrite {s : State} {v : Nat} (h : (s.wakeAsked v).wakeState ≠ 2) : (s.wakeAsked v).onlyTray (s.wakeWrite v) := by
  rw [s.wakeWrite_eq]
  split
  · exact State.onlyTray_newTokens _ h
  · rfl

theorem State.wakeWrite_quiet {s : State} {v : Nat} (h : (s.wakeAsked v).mastering = false) : s.wakeWrite v = s.wakeAsked v := by
  rw [s.wakeWrite_eq, h]
  rfl

theorem State.masterSet_does (s : State) (v : Nat) : (s.masterSet v).wakeState = s.wakeState ∧ (s.masterSet v).quiet = s.quiet
    ∧ (s.masterSet v).mastering = (bits 4 2 v == 3)
    ∧ (∀ a, a ≠ Reg.timWake → (s.masterSet v).reg .ronpex a = s.reg .ronpex a) := by
  have hreg (a : Nat) (h : a ≠ Reg.timWake) : (s.masterSet v).reg .ronpex a = s.reg .ronpex a :=
    State.reg_setFld_other _ _ _ _ _ _ _ _ (.inr h.symm)
  refine ⟨State.fld_setFld_outside _ _ (by omega) (by omega), ?_, ?_, hreg⟩
  · have hskn (k : Nat) : (s.masterSet v).skeinState k = s.skeinState k := by
      unfold State.skeinState
      by_cases hk : Reg.sknCtl k = Reg.timWake
      · rw [hk]
        exact State.fld_setFld_outside _ _ (by omega) (by omega)
      · rw [State.fld_congr (hreg _ hk)]
    have hact : (s.masterSet v).activeSkeins = s.activeSkeins := by
      unfold State.activeSkeins
      simp only [hskn]
    have hrun : (s.masterSet v).running = s.running := State.flag_congr (hreg _ (by decide)) 3
    unfold State.quiet
    rw [hact, hrun]
  · have hf : bits 4 2 ((s.masterSet v).reg .ronpex Reg.timWake) = bits 4 2 v :=
      (State.fld_setFld_same s .ronpex Reg.timWake 4 2 (bits 4 2 v) (by omega)).trans (by unfold bits; omega)
    have h4 : (s.masterSet v).flag .ronpex Reg.timWake 4 = bit 0 (bits 4 2 v) := by
      rw [← hf, bit_eq_bit_bits (by omega)]
      rfl
    have h5 : (s.masterSet v).flag .ronpex Reg.timWake 5 = bit 1 (bits 4 2 v) := by
      rw [← hf, bit_eq_bit_bits (by omega)]
      rfl
    have hlt : bits 4 2 v < 4 := by unfold bits; omega
    have hall : ∀ x < 4, (bit 0 x && bit 1 x) = (x == 3) := by decide
    unfold State.mastering
    rw [h4, h5, hall _ hlt]

end Sys2Proof.Machine
end

section
/-! What sleep, wake and the loss of supply leave (R373-R376, R398, R428, R429, R452). -/

namespace Sys2Proof.Machine

open Sys2Proof Sys2Proof.Claims

/-! ### Sleep -/

theorem State.allFenced_keeps (s : State) (cause : Nat) : (s.allFenced cause).rp.power = s.rp.power ∧ (s.allFenced cause).rp.time = s.rp.time
    ∧ (s.allFenced cause).ep = s.ep ∧ (s.allFenced cause).now = s.now ∧ (s.allFenced cause).pending = s.pending := by
  have hpow : (s.allFenced cause).rpPower = s.rpPower := by unfold State.allFenced; simp
  have hkept : (s.allFenced cause).kept = s.kept := by unfold State.allFenced; simp
  have hbeside : (s.allFenced cause).beside .ronpex = s.beside .ronpex := by unfold State.allFenced; simp
  exact ⟨State.power_of_rpPower hpow, State.time_of_rpPower hpow, State.ep_of_beside hbeside, State.now_of_kept hkept,
    State.pending_of_kept hkept⟩

/-- The dies of a package that sleeps are without power, and its enables are off. -/
def State.darkened (s : State) : State := ((s.allFenced 5).allOff.showUnits false ((List.range 128).map (288 + ·))).enablesOff

theorem State.sleepCmd_eq {s : State} (hw : s.wakeState = 0) (hq : s.quiet = true) :
    s.sleepCmd = s.darkened.hubAsleep.timeAsleep.setFld .ronpex Reg.timWake 2 2 1 := by
  unfold State.sleepCmd
  rw [if_pos ⟨hw, hq⟩]
  dsimp only
  rw [State.darkened, State.allOff, State.allFenced]

theorem State.sleepCmd_awake {s : State} (h : ¬(s.wakeState = 0 ∧ s.quiet = true)) : s.sleepCmd = s := by
  unfold State.sleepCmd
  exact if_neg h

theorem State.enablesOff_keeps (s : State) : s.enablesOff.hbm = s.hbm ∧ s.enablesOff.rp.fmem = s.rp.fmem ∧ s.enablesOff.rp.time = s.rp.time
    ∧ s.enablesOff.rp.units = s.rp.units ∧ s.enablesOff.rp.pst = s.rp.pst ∧ s.enablesOff.rp.log = s.rp.log ∧ s.enablesOff.ep = s.ep
    ∧ s.enablesOff.now = s.now ∧ s.enablesOff.pending = s.pending ∧ powered s.enablesOff 0 0 0 0 :=
  ⟨rfl, rfl, rfl, rfl, rfl, rfl, rfl, rfl, rfl, rfl, rfl, rfl, rfl⟩

theorem State.darkened_does (s : State) : (∀ a, s.darkened.hbmByte a = 0) ∧ s.darkened.rp.fmem.cipher = []
    ∧ (∀ d, d < 4 → bit d s.darkened.rp.units.awake = false) ∧ powered s.darkened 0 0 0 0 ∧ s.darkened.rp.time = s.rp.time
    ∧ s.darkened.ep = s.ep ∧ s.darkened.now = s.now ∧ s.darkened.pending = s.pending := by
  obtain ⟨-, ftime, fep, fnow, fpending⟩ := s.allFenced_keeps 5
  obtain ⟨obyte, ocipher, -, otime, oawake, -, -, oep, onow, opending⟩ := (s.allFenced 5).allOff_does
  have hkept := (s.allFenced 5).allOff.kept_showUnits false ((List.range 128).map (288 + ·))
  have hpow := (s.allFenced 5).allOff.rpPower_showUnits false ((List.range 128).map (288 + ·))
  have hreset := (s.allFenced 5).allOff.inReset_showUnits false ((List.range 128).map (288 + ·))
  have hbeside := (s.allFenced 5).allOff.beside_showUnits false ((List.range 128).map (288 + ·))
  unfold State.darkened
  generalize (s.allFenced 5).allOff.showUnits false ((List.range 128).map (288 + ·)) = u at *
  obtain ⟨e1, e2, e3, e4, -, -, e7, e8, e9, e10⟩ := u.enablesOff_keeps
  refine ⟨fun a => ?_, ?_, fun d hd => ?_, e10, ?_, ?_, ?_, ?_⟩
  · rw [State.hbmByte, e1, State.hbm_of_kept hkept, ← State.hbmByte, obyte]
  · rw [e2, State.fmem_of_rpPower hpow, ocipher]
  · rw [e4, State.awake_of_inReset hreset, oawake d hd]
  · rw [e3, State.time_of_rpPower hpow, otime, ftime]
  · rw [e7, State.ep_of_beside hbeside, oep, fep]
  · rw [e8, State.now_of_kept hkept, onow, fnow]
  · rw [e9, State.pending_of_kept hkept, opending, fpending]

theorem powered_congr {s t : State} (h : t.rp.power = s.rp.power) {a b c d : Nat} (k : powered s a b c d) : powered t a b c d := by
  unfold Sys2Proof.Claims.powered at *
  rwa [h]

/-- What a package that sleeps has. -/
structure State.Asleep (s t : State) : Prop where
  state : t.wakeState = 1
  powered : powered t 0 0 0 0
  awake : ∀ d, d < 4 → bit d t.rp.units.awake = false
  byte : ∀ a, t.hbmByte a = 0
  cipher : t.rp.fmem.cipher = []
  alternates : ∀ c, c < 8 → t.flag .ronpex (Reg.drfAlt c) 3 = false
  ready : ∀ n, n < 256 → t.flag .ronpex (Reg.fmhRgnCtl n) 10 = false
  time : s.rp.time.source ≠ 2 → t.rp.time.locked = false ∧ t.rp.time.source = 3
  ep : t.ep = s.ep
  now : t.now = s.now
  pending : t.pending = s.pending

/-- What holding over the time leaves. -/
theorem State.timeAsleep_keeps (s : State) : s.timeAsleep.rp.power = s.rp.power ∧ s.timeAsleep.rp.units = s.rp.units
    ∧ s.timeAsleep.hbm = s.hbm ∧ s.timeAsleep.rp.fmem = s.rp.fmem ∧ s.timeAsleep.ep = s.ep ∧ s.timeAsleep.now = s.now
    ∧ s.timeAsleep.pending = s.pending := by
  obtain ⟨-, ⟨o, m, x, y, h⟩, -⟩ := s.timeAsleep_does
  rw [h]
  exact ⟨rfl, rfl, rfl, rfl, rfl, rfl, rfl⟩

/-- What a write of a field leaves beside the registers. -/
theorem State.setFld_keeps (s : State) (a lo len v : Nat) : (s.setFld .ronpex a lo len v).rp.power = s.rp.power
    ∧ (s.setFld .ronpex a lo len v).rp.units = s.rp.units ∧ (s.setFld .ronpex a lo len v).hbm = s.hbm
    ∧ (s.setFld .ronpex a lo len v).rp.fmem = s.rp.fmem ∧ (s.setFld .ronpex a lo len v).ep = s.ep
    ∧ (s.setFld .ronpex a lo len v).now = s.now ∧ (s.setFld .ronpex a lo len v).pending = s.pending
    ∧ (s.setFld .ronpex a lo len v).rp.time = s.rp.time := ⟨rfl, rfl, rfl, rfl, rfl, rfl, rfl, rfl⟩

theorem State.asleep_sleepCmd {s : State} (hw : s.wakeState = 0) (hq : s.quiet = true) : s.Asleep s.sleepCmd := by
  obtain ⟨dbyte, dcipher, dawake, dpowered, dtime, dep, dnow, dpending⟩ := s.darkened_does
  obtain ⟨halt, hready, hcipher, hhbm, hpower, htime, hunits, hep, hnow, hpending⟩ := s.darkened.hubAsleep_does
  obtain ⟨tregs, -, tsource⟩ := s.darkened.hubAsleep.timeAsleep_does
  obtain ⟨t1, t2, t3, t4, t5, t6, t7⟩ := s.darkened.hubAsleep.timeAsleep_keeps
  obtain ⟨s1, s2, s3, s4, s5, s6, s7, s8⟩ := s.darkened.hubAsleep.timeAsleep.setFld_keeps Reg.timWake 2 2 1
  rw [htime, dtime] at tsource
  rw [State.sleepCmd_eq hw hq]
  have hreg (a : Nat) (ha : a ∉ reportRegs) (hne : Reg.timWake ≠ a) :
      (s.darkened.hubAsleep.timeAsleep.setFld .ronpex Reg.timWake 2 2 1).reg .ronpex a = s.darkened.hubAsleep.reg .ronpex a :=
    (State.reg_setFld_other _ _ _ _ _ _ _ _ (.inr hne)).trans (State.reg_of_rpRegs tregs ha)
  refine ⟨State.wakeState_setFld _ (by omega), powered_congr (s1.trans (t1.trans hpower)) dpowered, fun d hd => ?_, fun a => ?_, ?_,
    fun c hc => ?_, fun n hn => ?_, fun hs => ?_, s5.trans (t5.trans (hep.trans dep)), s6.trans (t6.trans (hnow.trans dnow)),
    s7.trans (t7.trans (hpending.trans dpending))⟩
  · rw [s2, t2, hunits, dawake d hd]
  · rw [State.hbmByte, s3, t3, hhbm, ← State.hbmByte, dbyte]
  · rw [s4, t4, hcipher, dcipher]
  · rw [State.flag_congr (hreg _ ?_ ?_), halt c hc]
    · simp only [reportRegs, Reg.logLost, Reg.mgtEvtOvf, Reg.mgtMsixPba, Reg.drfAlt, List.mem_cons, List.not_mem_nil, or_false, not_or]
      omega
    · simp only [Reg.timWake, Reg.drfAlt]
      omega
  · rw [State.flag_congr (hreg _ ?_ ?_), hready n hn]
    · simp only [reportRegs, Reg.logLost, Reg.mgtEvtOvf, Reg.mgtMsixPba, Reg.fmhRgnCtl, List.mem_cons, List.not_mem_nil, or_false, not_or]
      omega
    · simp only [Reg.timWake, Reg.fmhRgnCtl]
      omega
  · rw [s8]
    exact tsource hs

theorem State.Asleep.sent {s t u : State} (h : s.Asleep t) (k : t.onlyTray u) : s.Asleep u := by
  obtain ⟨hregs, hpower, hunits, hfmem, htime, -, hep, hhbm, hnow, hpending⟩ := k.keeps
  have hreg := fun a => State.reg_of_regs hregs a
  refine ⟨(State.wakeState_of_regs hregs).trans h.state, ?_, fun d hd => ?_, fun a => ?_, ?_, fun c hc => ?_, fun n hn => ?_, fun hs => ?_,
    hep.trans h.ep, hnow.trans h.now, hpending.trans h.pending⟩
  · exact powered_congr hpower h.powered
  · rw [hunits]
    exact h.awake d hd
  · rw [State.hbmByte, hhbm]
    exact h.byte a
  · rw [hfmem, h.cipher]
  · rw [State.flag_congr (hreg _), h.alternates c hc]
  · rw [State.flag_congr (hreg _), h.ready n hn]
  · rw [htime]
    exact h.time hs

/-- A write that is logged leaves the wake state, and whether the package is quiet. -/
theorem State.Logged.asked {s u : State} (h : s.Logged u) : u.wakeState = s.wakeState ∧ u.quiet = s.quiet := by
  have hreg (a : Nat) (ha : a ≠ Reg.logLost) : u.reg .ronpex a = s.reg .ronpex a := h.regs a (by simpa using ha)
  refine ⟨State.fld_congr (hreg _ (by decide)) 2 2, ?_⟩
  have hact : u.activeSkeins = s.activeSkeins := List.filter_congr fun k hk => by
    have hk := List.mem_range.1 hk
    have hskn : u.skeinState k = s.skeinState k := State.fld_congr (hreg _ (by simp only [Reg.sknCtl, Reg.logLost]; omega)) 0 2
    rw [hskn]
  have hrun : u.running = s.running := State.flag_congr (hreg _ (by decide)) 3
  unfold State.quiet
  rw [hact, hrun]

/-- What a package that takes SLEEP has, from the write on. -/
theorem sleep_asleep {s : State} {w : Writer} (ht : rpTakes s w) {v : Word} (hv : bits 0 2 v.toNat = 1) (hw : s.wakeState = 0)
    (hq : s.quiet = true) : ∃ t, exec (.sleep v w) s = .next t ∧ s.Asleep t := by
  have hlog := State.logged_logWrite s Reg.timWake v.toNat w
  refine ⟨_, congrArg Host.Outcome.next (State.wrote_ronpex ht _ _ _), ?_⟩
  generalize s.logWrite .ronpex Reg.timWake v.toNat w = u at *
  obtain ⟨hlw, hlq⟩ := hlog.asked
  obtain ⟨hmw, hmq, -, -⟩ := u.masterSet_does v.toNat
  have hasked : u.wakeAsked v.toNat = (u.masterSet v.toNat).sleepCmd := if_pos hv
  have hasleep := State.asleep_sleepCmd (s := u.masterSet v.toNat) (hmw.trans (hlw.trans hw)) (hmq.trans (hlq.trans hq))
  have hsame : (u.masterSet v.toNat).rp.time = s.rp.time ∧ (u.masterSet v.toNat).ep = s.ep ∧ (u.masterSet v.toNat).now = s.now
      ∧ (u.masterSet v.toNat).pending = s.pending := by
    rw [hlog.frame]
    exact ⟨rfl, rfl, rfl, rfl⟩
  obtain ⟨htime, hep, hnow, hpending⟩ := hsame
  rw [← hasked] at hasleep
  have hsent := hasleep.sent (State.onlyTray_wakeWrite (by rw [hasleep.state]; decide))
  exact ⟨hsent.state, hsent.powered, hsent.awake, hsent.byte, hsent.cipher, hsent.alternates, hsent.ready, fun hs => hsent.time (htime ▸ hs),
    hsent.ep.trans hep, hsent.now.trans hnow, hsent.pending.trans hpending⟩

/-- SLEEP leaves a package that is not quiet as it is. -/
theorem sleep_refused {s : State} {w : Writer} (ht : rpTakes s w) {v : Word} (hv : bits 0 2 v.toNat = 1) (hq : s.quiet = false) :
    ∃ t, exec (.sleep v w) s = .next t ∧ t.rp.units = s.rp.units ∧ t.rp.links = s.rp.links ∧ t.hbm = s.hbm ∧ onlyRonpex s t := by
  have hlog := State.logged_logWrite s Reg.timWake v.toNat w
  refine ⟨_, congrArg Host.Outcome.next (State.wrote_ronpex ht _ _ _), ?_⟩
  generalize s.logWrite .ronpex Reg.timWake v.toNat w = u at *
  obtain ⟨-, hlq⟩ := hlog.asked
  obtain ⟨-, hmq, -, -⟩ := u.masterSet_does v.toNat
  have hasked : u.wakeAsked v.toNat = u.masterSet v.toNat :=
    (if_pos hv).trans (State.sleepCmd_awake fun h => absurd (h.2.symm.trans (hmq.trans (hlq.trans hq))) (by decide))
  have hpassed := u.passed_wakeWrite v.toNat
  rw [hasked] at hpassed
  have hsame : (u.masterSet v.toNat).rp.units = s.rp.units ∧ (u.masterSet v.toNat).rp.links = s.rp.links
      ∧ (u.masterSet v.toNat).hbm = s.hbm ∧ onlyRonpex s (u.masterSet v.toNat) := by
    rw [hlog.frame]
    exact ⟨rfl, rfl, rfl, rfl, rfl, rfl, rfl⟩
  obtain ⟨h1, h2, h3, h4⟩ := hsame
  exact ⟨hpassed.units.trans h1, hpassed.links.trans h2, hpassed.only.2.1.trans h3, onlyRonpex_trans h4 hpassed.only⟩

/-! ### Wake -/

/-- What WAKE finds of the memory and the draft stores. -/
theorem State.wakeStores_does (s : State) : (∀ a, s.wakeStores.reg .ronpex a = if inDraftStore a then (rpDefault a).toNat else s.reg .ronpex a)
    ∧ s.wakeStores.rp.fmem.zeroing = (List.range 256).filter (fun n => s.flag .ronpex (Reg.fmhRgnCtl n) 0)
    ∧ s.wakeStores.rp.power = s.rp.power ∧ s.wakeStores.rp.units = s.rp.units ∧ onlyRonpex s s.wakeStores := by
  refine ⟨fun a => ?_, rfl, rfl, rfl, rfl, rfl, rfl, rfl⟩
  have hlook := SMap.look_filter rpDefault s.rp.regs (fun k => !inDraftStore k) a
  refine (congrArg BitVec.toNat hlook).trans ?_
  cases inDraftStore a <;> rfl

theorem State.mastering_setWake (s : State) (v : Nat) : (s.setFld .ronpex Reg.timWake 2 2 v).mastering = s.mastering := by
  unfold State.mastering
  rw [State.flag_setFld_outside s .ronpex Reg.timWake 2 2 v 4 (by omega) (by omega),
    State.flag_setFld_outside s .ronpex Reg.timWake 2 2 v 5 (by omega) (by omega)]

theorem State.wakeCmd_eq {s : State} (hw : s.wakeState = 1) (ht : s.rp.power.tripped = false) :
    s.wakeCmd = (s.wakeStores.modPower fun x => { x with ramp := [0, 1, 2, 3], wakeHeld := x.alert }).setFld .ronpex Reg.timWake 2 2 2 :=
  if_pos ⟨hw, by rw [ht]; rfl⟩

/-- What a package that takes WAKE has. -/
theorem State.wakeCmd_does {s : State} (hw : s.wakeState = 1) (ht : s.rp.power.tripped = false) : s.wakeCmd.wakeState = 2
    ∧ s.wakeCmd.rp.power = { s.rp.power with ramp := [0, 1, 2, 3], wakeHeld := s.rp.power.alert }
    ∧ (∀ a, a ≠ Reg.timWake → s.wakeCmd.reg .ronpex a = if inDraftStore a then (rpDefault a).toNat else s.reg .ronpex a)
    ∧ s.wakeCmd.rp.fmem.zeroing = (List.range 256).filter (fun n => s.flag .ronpex (Reg.fmhRgnCtl n) 0)
    ∧ s.wakeCmd.rp.units = s.rp.units ∧ onlyRonpex s s.wakeCmd ∧ s.wakeCmd.mastering = s.mastering := by
  obtain ⟨h1, h2, h3, h4, h5⟩ := s.wakeStores_does
  rw [State.wakeCmd_eq hw ht]
  have hreg (a : Nat) (h : a ≠ Reg.timWake) : ((s.wakeStores.modPower fun x => { x with ramp := [0, 1, 2, 3], wakeHeld := x.alert }).setFld .ronpex
      Reg.timWake 2 2 2).reg .ronpex a = s.wakeStores.reg .ronpex a := State.reg_setFld_other _ _ _ _ _ _ _ _ (.inr h.symm)
  have hwake : (s.wakeStores.modPower fun x => { x with ramp := [0, 1, 2, 3], wakeHeld := x.alert }).reg .ronpex Reg.timWake = s.reg .ronpex Reg.timWake :=
    (h1 _).trans (if_neg (by decide))
  refine ⟨State.wakeState_setFld _ (by omega), ?_, fun a ha => (hreg a ha).trans (h1 a), h2, h4, h5, ?_⟩
  · rw [← h3]
    rfl
  · rw [State.mastering_setWake, State.mastering, State.mastering, State.flag_congr hwake, State.flag_congr hwake]

theorem State.wakeAsked_wake {s : State} {v : Nat} (hv : bits 0 2 v = 2) : s.wakeAsked v = (s.masterSet v).wakeCmd :=
  (if_neg (by omega)).trans (if_pos hv)

/-- A package that takes WAKE waits for a token, or has one already. -/
theorem wake_waits {s : State} {w : Writer} (ht : rpTakes s w) {v : Word} (hv : bits 0 2 v.toNat = 2) (hw : s.wakeState = 1)
    (htrip : s.rp.power.tripped = false) :
    ∃ t, exec (.wake v w) s = .next t ∧ (t.wakeState = 2 ∨ t.wakeState = 3) ∧ t.rp.units = s.rp.units ∧ onlyRonpex s t := by
  have hlog := State.logged_logWrite s Reg.timWake v.toNat w
  refine ⟨_, congrArg Host.Outcome.next (State.wrote_ronpex ht _ _ _), ?_⟩
  generalize s.logWrite .ronpex Reg.timWake v.toNat w = u at *
  obtain ⟨hlw, -⟩ := hlog.asked
  obtain ⟨hmw, -, -, -⟩ := u.masterSet_does v.toNat
  have hsame : (u.masterSet v.toNat).rp.power.tripped = s.rp.power.tripped ∧ (u.masterSet v.toNat).rp.units = s.rp.units
      ∧ onlyRonpex s (u.masterSet v.toNat) := by
    rw [hlog.frame]
    exact ⟨rfl, rfl, rfl, rfl, rfl, rfl⟩
  obtain ⟨h1, h2, h3⟩ := hsame
  obtain ⟨k1, -, -, -, k5, k6, -⟩ := State.wakeCmd_does (hmw.trans (hlw.trans hw)) (h1.trans htrip)
  have hpassed := u.passed_wakeWrite v.toNat
  rw [State.wakeAsked_wake hv] at hpassed
  refine ⟨?_, hpassed.units.trans (k5.trans h2), onlyRonpex_trans (onlyRonpex_trans h3 k6) hpassed.only⟩
  rcases hpassed.state with h | ⟨-, h⟩
  · exact .inl (h.trans k1)
  · exact .inr h

/-- What a package that takes WAKE, and creates no token, has. -/
theorem wake_waiting {s : State} {w : Writer} (ht : rpTakes s w) {v : Word} (hv : bits 0 2 v.toNat = 2) (hm : bits 4 2 v.toNat ≠ 3)
    (hw : s.wakeState = 1) (htrip : s.rp.power.tripped = false) :
    ∃ t, exec (.wake v w) s = .next t ∧ t.wakeState = 2
      ∧ t.rp.power = { s.rp.power with ramp := [0, 1, 2, 3], wakeHeld := s.rp.power.alert }
      ∧ (∀ a, a ≠ Reg.timWake → a ≠ Reg.logLost → t.reg .ronpex a = if inDraftStore a then (rpDefault a).toNat else s.reg .ronpex a)
      ∧ t.rp.fmem.zeroing = (List.range 256).filter (fun n => s.flag .ronpex (Reg.fmhRgnCtl n) 0)
      ∧ t.rp.units = s.rp.units ∧ onlyRonpex s t := by
  have hlog := State.logged_logWrite s Reg.timWake v.toNat w
  refine ⟨_, congrArg Host.Outcome.next (State.wrote_ronpex ht _ _ _), ?_⟩
  generalize s.logWrite .ronpex Reg.timWake v.toNat w = u at *
  obtain ⟨hlw, -⟩ := hlog.asked
  obtain ⟨hmw, -, hmaster, hmreg⟩ := u.masterSet_does v.toNat
  have hsame : (u.masterSet v.toNat).rp.power = s.rp.power ∧ (u.masterSet v.toNat).rp.units = s.rp.units
      ∧ onlyRonpex s (u.masterSet v.toNat) := by
    rw [hlog.frame]
    exact ⟨rfl, rfl, rfl, rfl, rfl, rfl⟩
  obtain ⟨h1, h2, h3⟩ := hsame
  obtain ⟨k1, k2, k3, k4, k5, k6, k7⟩ := State.wakeCmd_does (hmw.trans (hlw.trans hw)) ((congrArg Power.tripped h1).trans htrip)
  have hreg (a : Nat) (ha : a ≠ Reg.timWake) (hl : a ≠ Reg.logLost) : (u.masterSet v.toNat).reg .ronpex a = s.reg .ronpex a :=
    (hmreg a ha).trans (hlog.regs a (by simpa using hl))
  have hquiet : (u.wakeAsked v.toNat).mastering = false := by
    rw [State.wakeAsked_wake hv, k7, hmaster]
    simpa using hm
  rw [State.wakeWrite_quiet hquiet, State.wakeAsked_wake hv]
  refine ⟨k1, k2.trans (by rw [h1]), fun a ha hl => (k3 a ha).trans (by rw [hreg a ha hl]), k4.trans ?_, k5.trans h2, onlyRonpex_trans h3 k6⟩
  refine List.filter_congr fun n hn => ?_
  have hn := List.mem_range.1 hn
  exact State.flag_congr (hreg _ (by simp only [Reg.fmhRgnCtl, Reg.timWake]; omega) (by simp only [Reg.fmhRgnCtl, Reg.logLost]; omega)) 0

end Sys2Proof.Machine
end

section
/-! Tokens, dies that start, stacks that train and the loss of supply (R373-R376, R396, R428, R429). -/

namespace Sys2Proof.Machine

open Sys2Proof Sys2Proof.Claims

/-! ### A token passes -/

theorem State.tokenHere_tripped {s : State} (h : s.rp.power.tripped = true) (tok : Nat) : s.tokenHere tok = s := if_pos h

/-- A chain master without the rack token withdraws the token. -/
theorem State.tokenHere_withdrawn {s : State} (h : s.rp.power.tripped = false) (h4 : s.flag .ronpex Reg.timWake 4 = true)
    (h5 : s.flag .ronpex Reg.timWake 5 = false) (tok : Nat) :
    tok ∉ (s.tokenHere tok).rp.tray.tokens ∧ (s.tokenHere tok).rp.power = s.rp.power ∧ (s.tokenHere tok).out = s.out
      ∧ s.tokenHere tok = { s with rp := { s.rp with tray := (s.tokenHere tok).rp.tray } } := by
  have heq : s.tokenHere tok = ((s.modTray fun t => { t with tokenAt := SMap.set t.tokenAt tok s.now }).modTray fun t =>
      { t with tokens := t.tokens.filter fun x => x != tok }) := by
    unfold State.tokenHere State.sendToken
    rw [if_neg (by rw [h]; decide), if_pos (by rw [h4, h5]; rfl)]
    dsimp only
    rw [if_pos (by rw [h4, h5]; rfl), if_pos h4]
  rw [heq]
  exact ⟨fun hm => absurd (List.mem_filter.1 hm).2 (by simp), rfl, rfl, rfl⟩

/-- A package that does not wait for the token sends it on. -/
theorem State.tokenHere_sent {s : State} (h : s.rp.power.tripped = false) (h4 : s.flag .ronpex Reg.timWake 4 = false) {tok : Nat}
    (hw : ¬(s.wakeState = 2 ∧ s.rp.power.wakeHeld = false ∧ s.rp.power.token = none)) : s.tokenHere tok = s.sendToken tok := by
  unfold State.tokenHere
  rw [if_neg (by rw [h]; decide), if_neg (by rw [h4]; simp), if_neg fun hc => ?_]
  obtain ⟨h1, h2, h3⟩ := hc
  exact hw ⟨h1, by simpa using h2, by simpa using h3⟩

/-- A package that waits for the token takes it. -/
theorem State.tokenHere_taken {s : State} (h : s.rp.power.tripped = false)
    (h45 : s.flag .ronpex Reg.timWake 4 = true → s.flag .ronpex Reg.timWake 5 = true) (hw : s.wakeState = 2)
    (hh : s.rp.power.wakeHeld = false) (ht : s.rp.power.token = none) (tok : Nat) : s.tokenHere tok = s.tokenTaken tok := by
  unfold State.tokenHere
  rw [if_neg (by rw [h]; decide), if_neg ?_, if_pos ⟨hw, by rw [hh]; rfl, by rw [ht]; rfl⟩]
  · rfl
  · cases h4 : s.flag .ronpex Reg.timWake 4 with
    | false => simp
    | true => simp [h45 h4]

theorem State.trayOut_up {s : State} {port : Nat} (h : s.trayUp port = true) (f : TrayFrame) :
    s.trayOut port f = s.emit (trayOutput port f) := if_pos h

/-- A token that is sent on by a package that is not the chain master. -/
theorem State.sendToken_out {s : State} (h4 : s.flag .ronpex Reg.timWake 4 = false) (hup : s.trayUp 0 = true) (tok : Nat) :
    (s.sendToken tok).out = trayOutput 0 (s.tokenFrame tok) :: s.out := by
  have heq : s.sendToken tok = (s.modTray fun t => { t with fseq := (t.fseq + 1) % 2 ^ 16 }).trayOut 0 (s.tokenFrame tok) := by
    unfold State.sendToken
    rw [h4]
    rfl
  rw [heq]
  have hmod : (s.modTray fun t => { t with fseq := (t.fseq + 1) % 2 ^ 16 }).trayUp 0 = true := hup
  rw [State.trayOut_up hmod]
  rfl

/-- The ramp at the moment of the token: die 0 asserts its enables. -/
theorem State.rampDue_begins {s : State} (h : s.rp.power.t0 = some s.now) (hr : s.rp.power.ramp = [0, 1, 2, 3]) :
    bit 0 s.rampDue.rp.power.coreEn = true ∧ bit 0 s.rampDue.rp.power.hbmEn = true ∧ s.rampDue.rp.power.ramp = [1, 2, 3]
      ∧ s.rampDue.rp.power.token = s.rp.power.token ∧ s.rampDue.rp.power.t0 = s.rp.power.t0 ∧ s.rampDue.rp.regs = s.rp.regs
      ∧ s.rampDue.out = s.out := by
  have hgo : (s.rp.power.ramp.filter fun d => decide (s.now + 50000 * d ≤ s.now)) = [0] := by
    rw [hr]
    simp
  have heq : s.rampDue = s.modPower fun x => { x with
      ramp := x.ramp.filter fun d => !([0] : List Nat).contains d
      coreEn := setBit 0 true x.coreEn, hbmEn := setBit 0 true x.hbmEn, enAt := SMap.set x.enAt 0 s.now } := by
    unfold State.rampDue
    rw [h]
    dsimp only
    rw [hgo]
    rfl
  rw [heq]
  refine ⟨bit_setBit_same _ _ _, bit_setBit_same _ _ _, ?_, rfl, rfl, rfl, rfl⟩
  show s.rp.power.ramp.filter (fun d => !([0] : List Nat).contains d) = _
  rw [hr]
  decide

theorem State.rampDue_frame {s : State} {x : Power} (h : s.rampDue = { s with rp := { s.rp with power := x } }) :
    s.rampDue.rp.regs = s.rp.regs ∧ s.rampDue.rp.pst = s.rp.pst ∧ onlyRonpex s s.rampDue := by
  rw [h]
  exact ⟨rfl, rfl, rfl, rfl, rfl, rfl⟩

theorem State.rampDue_keeps (s : State) : s.rampDue.rp.power.tripped = s.rp.power.tripped ∧ s.rampDue.rp.power.corePg = s.rp.power.corePg := by
  unfold State.rampDue
  split
  · exact ⟨rfl, rfl⟩
  · exact ⟨rfl, rfl⟩

/-- What a package that takes the token has. -/
theorem State.tokenTaken_does {s : State} (hr : s.rp.power.ramp = [0, 1, 2, 3]) (hw : s.wakeState = 2) (tok : Nat) :
    (s.tokenTaken tok).wakeState = 3 ∧ (s.tokenTaken tok).rp.power.token = some (tok, s.now) ∧ (s.tokenTaken tok).rp.power.t0 = some s.now
      ∧ bit 0 (s.tokenTaken tok).rp.power.coreEn = true ∧ bit 0 (s.tokenTaken tok).rp.power.hbmEn = true
      ∧ (s.tokenTaken tok).rp.power.ramp = [1, 2, 3] ∧ (s.tokenTaken tok).out = s.out ∧ regsBut s (s.tokenTaken tok) .ronpex [Reg.timWake]
      ∧ onlyRonpex s (s.tokenTaken tok) := by
  obtain ⟨h1, h2, h3, h4, h5, h6, h7⟩ := State.rampDue_begins
    (s := (s.modPower fun x => { x with token := some (tok, s.now), t0 := some s.now }).setFld .ronpex Reg.timWake 2 2 3) rfl hr
  have hpassed := State.passed_tokenTaken hw tok
  refine ⟨?_, h4, h5, h1, h2, h3, h7, fun a ha => ?_, hpassed.only⟩
  · rcases hpassed.state with h | ⟨-, h⟩
    · have hregs := State.wakeState_of_regs h6
      exact hregs.trans (State.wakeState_setFld _ (by omega))
    · exact h
  · exact (State.reg_of_regs h6 a).trans (State.reg_setFld_other _ _ _ _ _ _ _ _ (.inr fun h => ha (by simp [← h])))

/-! ### A die starts -/

/-- The units of a die. -/
def dieUnits (d : Nat) : List Nat := ((List.range 4).map (4 * d + ·)).flatMap fun r => regionPorts r ++ (regionSpindles r).map (192 + ·)

theorem mem_dieUnits {d p : Nat} (hp : p < 192) : p ∈ dieUnits d ↔ p / 48 = d := by
  unfold dieUnits regionPorts
  simp only [List.mem_flatMap, List.mem_map, List.mem_range, List.mem_append]
  constructor
  · rintro ⟨r, ⟨i, hi, rfl⟩, ⟨j, hj, rfl⟩ | ⟨j, -, hj⟩⟩ <;> omega
  · intro h
    exact ⟨4 * d + p % 48 / 12, ⟨p % 48 / 12, by omega, rfl⟩, .inl ⟨p % 12, by omega, by omega⟩⟩

/-- A die has its power good and its clocks. -/
def State.dieLit (s : State) (d : Nat) : State :=
  (s.modPower fun x => { x with corePg := setBit d true x.corePg }).modUnits fun u => { u with awake := setBit d true u.awake }

/-- The units of a die that has started are in quarantine. -/
def State.dieStarted (s : State) (d : Nat) : State :=
  ((s.dieLit d).quarantineAll (dieUnits d)).showUnits false (((List.range 4).map (4 * d + ·)).flatMap fun r => (regionPorts r).map (416 + ·))

/-- The ramp of a package ends with its last die. -/
def State.rampEnds (s : State) : State :=
  if s.rp.units.awake = 15 then (s.modPower fun x => { x with t0 := none }).setFld .ronpex Reg.timWake 2 2 0 else s

theorem State.corePgOn_eq {s : State} {d : Nat} (h1 : bit d s.rp.power.coreEn = true) (h2 : bit d s.rp.power.corePg = false)
    (h3 : s.rp.power.tripped = false) :
    s.corePgOn d = (if d = 3 then (s.dieStarted d).returnToken else s.dieStarted d).rampEnds := by
  unfold State.corePgOn
  rw [if_pos (by rw [h1, h2, h3]; rfl)]
  rfl

theorem State.corePgOn_none {s : State} {d : Nat} (h : bit d s.rp.power.coreEn = false ∨ bit d s.rp.power.corePg = true ∨ s.rp.power.tripped = true) :
    s.corePgOn d = s := by
  unfold State.corePgOn
  refine if_neg ?_
  rcases h with h | h | h <;> simp [h]

theorem State.rampEnds_keeps (s : State) : s.rampEnds.rp.power.coreEn = s.rp.power.coreEn ∧ s.rampEnds.rp.power.hbmEn = s.rp.power.hbmEn
    ∧ s.rampEnds.rp.power.corePg = s.rp.power.corePg ∧ s.rampEnds.rp.units = s.rp.units ∧ onlyRonpex s s.rampEnds
    ∧ ∀ a, a ≠ Reg.timWake → s.rampEnds.reg .ronpex a = s.reg .ronpex a := by
  unfold State.rampEnds
  split
  · exact ⟨rfl, rfl, rfl, rfl, ⟨rfl, rfl, rfl, rfl⟩, fun a ha => State.reg_setFld_other _ _ _ _ _ _ _ _ (.inr ha.symm)⟩
  · exact ⟨rfl, rfl, rfl, rfl, ⟨rfl, rfl, rfl, rfl⟩, fun _ _ => rfl⟩

theorem State.returnToken_does (s : State) : s.returnToken.rp.power.coreEn = s.rp.power.coreEn ∧ s.returnToken.rp.power.hbmEn = s.rp.power.hbmEn
    ∧ s.returnToken.rp.power.corePg = s.rp.power.corePg ∧ s.returnToken.rp.units = s.rp.units ∧ onlyRonpex s s.returnToken
    ∧ ∀ a, s.returnToken.reg .ronpex a = s.reg .ronpex a := by
  unfold State.returnToken
  split
  · exact ⟨rfl, rfl, rfl, rfl, ⟨rfl, rfl, rfl, rfl⟩, fun _ => rfl⟩
  · next tok _ _ =>
    obtain ⟨hregs, hpower, hunits, -, -, -, honly⟩ := ((s.modPower fun x => { x with token := none }).onlyTray_sendToken tok).keeps
    rw [hpower, hunits]
    exact ⟨rfl, rfl, rfl, rfl, onlyRonpex_trans ⟨rfl, rfl, rfl, rfl⟩ honly, fun a => (State.reg_of_regs hregs a).trans rfl⟩

/-- The port units of a die that starts enter quarantine, and no other. -/
theorem State.dieStarted_does (s : State) (d : Nat) :
    (s.dieStarted d).rp.power = { s.rp.power with corePg := setBit d true s.rp.power.corePg }
      ∧ (s.dieStarted d).rp.units.awake = setBit d true s.rp.units.awake
      ∧ (∀ p, p < 192 → p / 48 = d → s.pstFenced p = false → (s.dieStarted d).unitState p = 2 ∧ (s.dieStarted d).unitQstep p = 1)
      ∧ (∀ p, p < 192 → p / 48 ≠ d → (s.dieStarted d).reg .ronpex (portBase p) = s.reg .ronpex (portBase p))
      ∧ onlyRonpex s (s.dieStarted d) := by
  have hpow : (s.dieStarted d).rpPower = (s.dieLit d).rpPower := by
    unfold State.dieStarted State.quarantineAll
    simp
  have hreset : (s.dieStarted d).inReset = (s.dieLit d).inReset := by
    unfold State.dieStarted
    simp
  have hregs : (s.dieStarted d).rpRegs = ((s.dieLit d).quarantineAll (dieUnits d)).rpRegs := by
    unfold State.dieStarted
    simp
  have hsame (p : Nat) := State.samePort_of_rpRegs hregs p
  have honly : onlyRonpex (s.dieLit d) (s.dieStarted d) := by
    unfold State.dieStarted State.quarantineAll
    exact onlyRonpex_of (by simp) (by simp)
  refine ⟨(State.power_of_rpPower hpow).trans rfl, (State.awake_of_inReset hreset).trans rfl, fun p hp hd hf => ?_, fun p hp hd => ?_,
    onlyRonpex_trans ⟨rfl, rfl, rfl, rfl⟩ honly⟩
  · obtain ⟨h1, h2⟩ := (hsame p).shown hp
    obtain ⟨k1, k2⟩ := State.quarantineAll_port hp (dieUnits d) (s.dieLit d) ((State.pstFenced_congr rfl p).trans hf)
      (.inl ((mem_dieUnits hp).2 hd))
    exact ⟨h1.trans k1, h2.trans k2⟩
  · rw [(hsame p).1]
    unfold State.quarantineAll
    exact State.reg_foldl_of_mem (fun t i hi => t.reg_quarantine_other hp (fun h => hd ((mem_dieUnits hp).1 (h ▸ hi))) (.inl rfl)) (s.dieLit d)

/-- What a die that starts has. -/
theorem State.corePgOn_does {s : State} {d : Nat} (h1 : bit d s.rp.power.coreEn = true) (h2 : bit d s.rp.power.corePg = false)
    (h3 : s.rp.power.tripped = false) :
    bit d (s.corePgOn d).rp.power.corePg = true ∧ bit d (s.corePgOn d).rp.units.awake = true
      ∧ (s.corePgOn d).rp.power.coreEn = s.rp.power.coreEn ∧ (s.corePgOn d).rp.power.hbmEn = s.rp.power.hbmEn
      ∧ (∀ p, p < 192 → p / 48 = d → s.pstFenced p = false → (s.corePgOn d).unitState p = 2 ∧ (s.corePgOn d).unitQstep p = 1)
      ∧ (∀ p, p < 192 → p / 48 ≠ d → (s.corePgOn d).reg .ronpex (portBase p) = s.reg .ronpex (portBase p))
      ∧ onlyRonpex s (s.corePgOn d) := by
  obtain ⟨hpower, hawake, hmine, hothers, honly⟩ := s.dieStarted_does d
  rw [State.corePgOn_eq h1 h2 h3]
  generalize s.dieStarted d = t at *
  have hreturn : ∃ u, (if d = 3 then t.returnToken else t) = u ∧ u.rp.power.coreEn = t.rp.power.coreEn ∧ u.rp.power.hbmEn = t.rp.power.hbmEn
      ∧ u.rp.power.corePg = t.rp.power.corePg ∧ u.rp.units = t.rp.units ∧ onlyRonpex t u ∧ ∀ a, u.reg .ronpex a = t.reg .ronpex a := by
    split
    · exact ⟨_, rfl, t.returnToken_does⟩
    · exact ⟨t, rfl, rfl, rfl, rfl, rfl, ⟨rfl, rfl, rfl, rfl⟩, fun _ => rfl⟩
  obtain ⟨u, hu, u1, u2, u3, u4, u5, u6⟩ := hreturn
  rw [hu]
  obtain ⟨e1, e2, e3, e4, e5, e6⟩ := u.rampEnds_keeps
  have hreg (a : Nat) (ha : 0x1000000 ≤ a) : u.rampEnds.reg .ronpex a = t.reg .ronpex a :=
    (e6 a (by simp only [Reg.timWake]; omega)).trans (u6 a)
  have hsame (p : Nat) : t.samePort u.rampEnds p := by
    have hbase := le_portBase p
    exact ⟨hreg _ (by omega), hreg _ (by omega)⟩
  refine ⟨?_, ?_, ?_, ?_, fun p hp hd hf => ?_, fun p hp hd => (hreg _ (le_portBase p)).trans (hothers p hp hd),
    onlyRonpex_trans (onlyRonpex_trans honly u5) e5⟩
  · rw [e3, u3, hpower]
    exact bit_setBit_same _ _ _
  · rw [e4, u4, hawake]
    exact bit_setBit_same _ _ _
  · rw [e1, u1, hpower]
  · rw [e2, u2, hpower]
  · obtain ⟨k1, k2⟩ := (hsame p).shown hp
    obtain ⟨m1, m2⟩ := hmine p hp hd hf
    exact ⟨k1.trans m1, k2.trans m2⟩

/-! ### Power goods and stacks -/

theorem State.powerGoodLost_none {s : State} {d : Nat} (h : bit d s.rp.power.coreEn = false) : s.powerGoodLost d = s :=
  if_neg (by rw [h]; decide)

/-- The power goods of a die have fallen. -/
def State.goodsFallen (s : State) (d : Nat) : State :=
  s.modPower fun x => { x with corePg := setBit d false x.corePg, hbmPg := setBit d false x.hbmPg }

theorem State.powerGoodLost_eq {s : State} {d : Nat} (h : bit d s.rp.power.coreEn = true) : s.powerGoodLost d = (s.goodsFallen d).resetDie d 4 :=
  if_pos h

theorem State.power_regionFenced (s : State) (r cause : Nat) : (s.regionFenced r cause).rp.power = s.rp.power :=
  State.power_of_rpPower (s := s) (t := (regionPorts r ++ (regionSpindles r).map (192 + ·)).foldl (fun (t : State) (i : Nat) =>
    if t.unitState i = 1 ∨ t.unitState i = 3 then t else t.hardFence i cause) s) (by simp)

theorem State.power_resetRegionAt (s : State) (r cause : Nat) (quiet : Bool) : (s.resetRegionAt r cause quiet).rp.power = s.rp.power := by
  have hall : (s.resetRegionAt r cause quiet).rpPower = ((s.regionFenced r cause).regionCleared r s.now).rpPower := by
    rw [State.regionCleared, State.regionFenced, State.resetRegionAt]
    simp
  rw [State.power_of_rpPower hall]
  exact s.power_regionFenced r cause

theorem State.power_resetDie (s : State) (d cause : Nat) : (s.resetDie d cause).rp.power = s.rp.power := by
  have hall : (s.resetDie d cause).rpPower = ((s.dieBegun d).dieRegions d cause).rpPower := by
    unfold State.resetDie
    simp only [State.rpPower_partEventFor, State.rpPower_showUnits]
    rfl
  rw [State.power_of_rpPower hall]
  exact foldl_range_induct (f := fun (t : State) r => t.resetRegionAt (4 * d + r) cause true) (N := 4) (s := s.dieBegun d)
    (I := fun _ (t : State) => t.rp.power = s.rp.power) rfl fun r t _ ht => (t.power_resetRegionAt (4 * d + r) cause true).trans ht

theorem State.powerGoodLost_does {s : State} {d : Nat} (hd : d < 4) (h : bit d s.rp.power.coreEn = true) :
    bit d (s.powerGoodLost d).rp.power.corePg = false ∧ bit d (s.powerGoodLost d).rp.power.hbmPg = false
      ∧ (s.powerGoodLost d).rp.power.coreEn = s.rp.power.coreEn ∧ (d, s.now) ∈ (s.powerGoodLost d).rp.units.dies
      ∧ (∀ a, (s.powerGoodLost d).hbmByte a = if chanOf a / 32 = d then 0 else s.hbmByte a)
      ∧ (s.powerGoodLost d).ep = s.ep ∧ (s.powerGoodLost d).now = s.now ∧ (s.powerGoodLost d).pending = s.pending := by
  obtain ⟨h1, h2, -, -, h5, h6, h7⟩ := (s.goodsFallen d).resetDie_does hd
  rw [State.powerGoodLost_eq h, State.power_resetDie]
  exact ⟨bit_setBit_same _ _ _, bit_setBit_same _ _ _, rfl, h1, h2, h5, h6, h7⟩

theorem State.stackTrained_none {s : State} {d : Nat} (h : bit d s.rp.power.hbmEn = false) : s.stackTrained d = s := if_neg (by rw [h]; decide)

/-- A stack that has trained. -/
def State.stackUp (s : State) (d : Nat) : State :=
  { s with rp := { s.rp with
    power := { s.rp.power with hbmPg := setBit d true s.rp.power.hbmPg }
    fmem := { s.rp.fmem with trained := setBit d true s.rp.fmem.trained } } }

theorem State.stackTrained_eq {s : State} {d : Nat} (h : bit d s.rp.power.hbmEn = true) :
    s.stackTrained d = ((s.stackUp d).showUnits false ((List.range 128).map (288 + ·))).channelsReturn := if_pos h

theorem State.stackTrained_does {s : State} {d : Nat} (h : bit d s.rp.power.hbmEn = true) :
    (s.stackTrained d).rp.fmem = { s.rp.fmem with trained := setBit d true s.rp.fmem.trained }
      ∧ bit d (s.stackTrained d).rp.fmem.trained = true ∧ bit d (s.stackTrained d).rp.power.hbmPg = true
      ∧ (s.stackTrained d).rp.links = s.rp.links ∧ onlyRonpex s (s.stackTrained d) := by
  have hpow : (s.stackTrained d).rpPower = (s.stackUp d).rpPower := by
    rw [State.stackTrained_eq h, State.rpPower_channelsReturn, State.rpPower_showUnits]
  have hlinks : (s.stackTrained d).rpLinks = (s.stackUp d).rpLinks := by
    rw [State.stackTrained_eq h, State.rpLinks_channelsReturn, State.rpLinks_showUnits]
  have honly : onlyRonpex (s.stackUp d) (s.stackTrained d) := by
    rw [State.stackTrained_eq h]
    exact onlyRonpex_of (by rw [State.beside_channelsReturn, State.beside_showUnits]) (by rw [State.kept_channelsReturn, State.kept_showUnits])
  have hfmem := State.fmem_of_rpPower hpow
  refine ⟨hfmem, ?_, ?_, hlinks, onlyRonpex_trans ⟨rfl, rfl, rfl, rfl⟩ honly⟩
  · rw [hfmem]
    exact bit_setBit_same _ _ _
  · rw [State.power_of_rpPower hpow]
    exact bit_setBit_same _ _ _

/-! ### The supply is lost -/

theorem State.supplyTrip_none {s : State} (h : s.rp.power.supplyLost = true) (volt charge : Nat) : s.supplyTrip volt charge = s := if_pos h

/-- The newest entries of the log are saved. -/
def State.logSaved (s : State) (volt charge : Nat) : State :=
  let l := s.rp.log
  let room := min (bits 0 13 (s.rp.pst.word Reg.pstHoldup)) (min 4096 l.ents.length)
  let n := min room volt
  let loss := if charge < n then some charge else if volt < room ∧ volt < charge then some volt else none
  { s with rp := { s.rp with log := { l with saved := some (l.h, l.ents.reverse.take n), capLoss := loss } } }

/-- The supply is noted as lost. -/
def State.supplyGone (s : State) : State := s.modPower fun x => { x with supplyLost := true, ready := false, token := none, auxPg := false }

theorem State.supplyTrip_eq {s : State} (h : s.rp.power.supplyLost = false) (volt charge : Nat) :
    s.supplyTrip volt charge = (s.pstFlush.logSaved volt charge).enablesOff.allOff.supplyGone := by
  unfold State.supplyTrip
  rw [if_neg (by rw [h]; decide)]
  rfl

/-- What the loss of supply leaves. -/
theorem State.supplyTrip_does {s : State} (h : s.rp.power.supplyLost = false) (volt charge : Nat) :
    (s.supplyTrip volt charge).rp.power.supplyLost = true ∧ (s.supplyTrip volt charge).rp.power.ready = false
      ∧ (s.supplyTrip volt charge).rp.power.token = none ∧ powered (s.supplyTrip volt charge) 0 0 0 0
      ∧ (s.supplyTrip volt charge).rp.pst = s.pstFlush.rp.pst
      ∧ (s.supplyTrip volt charge).rp.log.saved = (s.pstFlush.logSaved volt charge).rp.log.saved
      ∧ (∀ a, (s.supplyTrip volt charge).hbmByte a = 0) ∧ (s.supplyTrip volt charge).ep = s.ep ∧ (s.supplyTrip volt charge).now = s.now
      ∧ (s.supplyTrip volt charge).pending = s.pending := by
  rw [State.supplyTrip_eq h]
  obtain ⟨o, m, q, l, x, hflush⟩ := s.restored_pstFlush
  obtain ⟨e1, e2, e3, e4, e5, e6, e7, e8, e9, e10⟩ := (s.pstFlush.logSaved volt charge).enablesOff_keeps
  obtain ⟨o1, -, o3, -, -, o6, o7, o8, o9, o10⟩ := (s.pstFlush.logSaved volt charge).enablesOff.allOff_does
  have hflushed : s.pstFlush.ep = s.ep ∧ s.pstFlush.now = s.now ∧ s.pstFlush.pending = s.pending := by
    rw [hflush]
    exact ⟨rfl, rfl, rfl⟩
  obtain ⟨f1, f2, f3⟩ := hflushed
  have hsaved (t : State) : (t.logSaved volt charge).rp.pst = t.rp.pst ∧ (t.logSaved volt charge).ep = t.ep ∧ (t.logSaved volt charge).now = t.now
      ∧ (t.logSaved volt charge).pending = t.pending := ⟨rfl, rfl, rfl, rfl⟩
  obtain ⟨l1, l2, l3, l4⟩ := hsaved s.pstFlush
  have hgone (t : State) : t.supplyGone.rp.power.supplyLost = true ∧ t.supplyGone.rp.power.ready = false ∧ t.supplyGone.rp.power.token = none
      ∧ (∀ a b c d, powered t a b c d → powered t.supplyGone a b c d) ∧ t.supplyGone.rp.pst = t.rp.pst ∧ t.supplyGone.rp.log = t.rp.log
      ∧ (∀ a, t.supplyGone.hbmByte a = t.hbmByte a) ∧ t.supplyGone.ep = t.ep ∧ t.supplyGone.now = t.now ∧ t.supplyGone.pending = t.pending :=
    ⟨rfl, rfl, rfl, fun _ _ _ _ h => h, rfl, rfl, fun _ => rfl, rfl, rfl, rfl⟩
  obtain ⟨g1, g2, g3, g4, g5, g6, g7, g8, g9, g10⟩ := hgone (s.pstFlush.logSaved volt charge).enablesOff.allOff
  exact ⟨g1, g2, g3, g4 _ _ _ _ (powered_congr o3 e10), g5.trans (o6.trans (e5.trans l1)),
    congrArg Log.saved (g6.trans (o7.trans e6)), fun a => (g7 a).trans (o1 a), g8.trans (o8.trans (e7.trans (l2.trans f1))),
    g9.trans (o9.trans (e8.trans (l3.trans f2))), g10.trans (o10.trans (e9.trans (l4.trans f3)))⟩

theorem State.pstFlush_log {s : State} (h : s.rp.pst.queue = []) : s.pstFlush.rp.log = s.rp.log := by
  unfold State.pstFlush
  rw [h]
  rfl

theorem State.saved_logSaved (s : State) (volt charge : Nat) : (s.logSaved volt charge).rp.log.saved = some (s.rp.log.h, s.rp.log.ents.reverse.take
    (min (min (bits 0 13 (s.rp.pst.word Reg.pstHoldup)) (min 4096 s.rp.log.ents.length)) volt)) := rfl

/-- Settles O46, event by event of sleep and wake. -/
theorem sleepAndWake : Obligations.SleepAndWake := by
  intro s
  refine ⟨fun v w ht => ⟨fun hv hw hq => ?_, fun hv hq => sleep_refused ht hv hq, fun hv hm hw htrip => wake_waiting ht hv hm hw htrip⟩,
    fun tok h => congrArg Host.Outcome.next (State.tokenHere_tripped h tok), fun tok h => ⟨fun h4 h5 => ⟨_, rfl, State.tokenHere_withdrawn h h4 h5 tok⟩,
      fun h45 hw hh ht hr => ?_, fun hw h4 hup => ?_⟩, fun d u hu => ⟨fun h1 h2 h3 => ?_, fun h => ?_⟩, fun d h => ?_,
    fun d h => congrArg Host.Outcome.next (State.powerGoodLost_none h), fun d h => ⟨_, rfl, State.stackTrained_does h⟩,
    fun d h => congrArg Host.Outcome.next (State.stackTrained_none h), fun volt charge => ⟨fun h => congrArg Host.Outcome.next
      (State.supplyTrip_none h volt charge), fun h hq => ?_⟩⟩
  · obtain ⟨t, hx, ha⟩ := sleep_asleep ht hv hw hq
    obtain ⟨p1, p2, -, -⟩ := ha.powered
    exact ⟨t, hx, ha.state, ha.awake, p1, p2, ha.byte, ha.cipher, ha.alternates, ha.ready, ha.time, ha.ep, ha.now, ha.pending⟩
  · exact ⟨s.tokenTaken tok, congrArg Host.Outcome.next (State.tokenHere_taken h h45 hw hh ht tok), State.tokenTaken_does hr hw tok⟩
  · obtain ⟨hregs, hpower, -, -, -, -, honly⟩ := (s.onlyTray_sendToken tok).keeps
    exact ⟨s.sendToken tok, congrArg Host.Outcome.next (State.tokenHere_sent h h4 fun hc => hw hc.1), State.sendToken_out h4 hup tok, rfl, rfl,
      hpower, hregs, honly⟩
  · subst hu
    obtain ⟨x, hx⟩ := s.rampDue_only
    obtain ⟨hregs, hpst, honly⟩ := State.rampDue_frame hx
    obtain ⟨k1, k2, k3, -, k5, k6, k7⟩ := State.corePgOn_does h1 h2 (s.rampDue_keeps.1.trans h3)
    exact ⟨s.rampDue.corePgOn d, rfl, k1, k2, k3, fun p hp hd hf => k5 p hp hd ((State.pstFenced_congr hpst p).trans hf),
      fun p hp hd => (k6 p hp hd).trans (State.reg_of_regs hregs _), onlyRonpex_trans honly k7⟩
  · subst hu
    exact congrArg Host.Outcome.next (State.corePgOn_none (by rwa [s.rampDue_keeps.1]))
  · obtain ⟨h1, h2, -, h4⟩ := State.powerGoodLost_does d.isLt h
    exact ⟨_, rfl, h1, h2, h4⟩
  · obtain ⟨h1, h2, h3, ⟨h4, -, -, -⟩, h5, h6, h7⟩ := State.supplyTrip_does h volt charge
    refine ⟨_, rfl, h1, h2, h3, h4, h5.trans (State.pstFlush_empty hq), h6.trans ?_, h7⟩
    rw [State.saved_logSaved, State.pstFlush_log hq, State.pstFlush_empty hq]

end Sys2Proof.Machine
end

section
/-! PWRALERT_N (R369, R430). -/

namespace Sys2Proof.Machine

open Sys2Proof Sys2Proof.Claims

/-! ### PWRALERT_N is asserted -/

theorem State.alertOn_none {s : State} (h : s.rp.power.alert = true) : s.alertOn = s := if_pos h

theorem State.alertOff_none {s : State} (h : s.rp.power.alert = false) : s.alertOff = s := if_neg (by rw [h]; decide)

/-- The alert is counted, before it is shown. -/
def State.alertCounted (s : State) : State :=
  (s.modPower fun x => { x with alert := true, alertOff := none, hbmHeld := s.altValid 1 && !s.powerStays }).pstCount Reg.pstTrips 16 16

/-- The alert is shown in TIM.PWRSTAT. -/
def State.alertShown (s : State) : State :=
  (s.alertCounted.setFlag .ronpex Reg.timPwrStat 0 true).setFlag .ronpex Reg.timPwrStat 4 true

/-- SCALE has fallen and the POWER order is issued. -/
def State.alertScaled (s : State) : State :=
  (s.alertShown.powerEvent.setScale (min s.alertShown.scale s.alertShown.alertScale)).powerRequest

/-- A staged wake stops at an alert. -/
def State.wakeStops (s : State) : State :=
  if s.wakeState = 3 ∧ !s.rp.power.ramp.isEmpty then
    ((s.modPower fun x => { x with wakeHeld := true, t0 := none }).returnToken).setFld .ronpex Reg.timWake 2 2 2
  else if s.wakeState = 2 then s.modPower fun x => { x with wakeHeld := true }
  else s

theorem State.alertOn_eq {s : State} (h : s.rp.power.alert = false) : s.alertOn = s.alertScaled.wakeStops := by
  unfold State.alertOn
  rw [if_neg (by rw [h]; decide)]
  rfl

theorem State.alertCounted_does (s : State) : s.alertCounted.rpRegs = s.rpRegs ∧ s.alertCounted.rp.warp = s.rp.warp
    ∧ s.alertCounted.rp.power.alert = true := by
  obtain ⟨o, m, q, l, x, h⟩ := (s.modPower fun x => { x with alert := true, alertOff := none, hbmHeld := s.altValid 1 && !s.powerStays }).restored_pstCount
    Reg.pstTrips 16 16
  refine ⟨by unfold State.alertCounted; simp, ?_, ?_⟩
  · rw [State.alertCounted, h]
    rfl
  · rw [State.alertCounted, h]
    rfl

theorem State.alertShown_does (s : State) :
    (∀ a, a ∉ reportRegs → a ≠ Reg.timPwrStat → s.alertShown.reg .ronpex a = s.reg .ronpex a)
      ∧ s.alertShown.flag .ronpex Reg.timPwrStat 0 = true ∧ s.alertShown.flag .ronpex Reg.timPwrStat 4 = true
      ∧ s.alertShown.rp.warp = s.rp.warp ∧ s.alertShown.rp.power.alert = true := by
  obtain ⟨h1, h2, h3⟩ := s.alertCounted_does
  refine ⟨fun a ha hne => ?_, ?_, State.flag_setFlag_same _ _ _ (by omega), h2, h3⟩
  · exact ((State.reg_setFlag_other _ _ _ _ _ _ _ (.inr hne.symm)).trans (State.reg_setFlag_other _ _ _ _ _ _ _ (.inr hne.symm))).trans
      (State.reg_of_rpRegs h1 ha)
  · exact (State.flag_setFlag_other _ _ _ (by omega) (by omega)).trans (State.flag_setFlag_same _ _ _ (by omega))

theorem State.scale_setScale (s : State) {v : Nat} (hv : v < 512) : (s.setScale v).scale = v
    ∧ ∀ a, a ∉ reportRegs → a ≠ Reg.budStat → (s.setScale v).reg .ronpex a = s.reg .ronpex a := by
  unfold State.setScale
  split
  · next h => exact ⟨h.symm, fun _ _ _ => rfl⟩
  · have hregs : ((s.setFld .ronpex Reg.budStat 0 9 v).sendSlots.powerEvent).rpRegs = (s.setFld .ronpex Reg.budStat 0 9 v).rpRegs := by simp
    refine ⟨?_, fun a ha hne => (State.reg_of_rpRegs hregs ha).trans (State.reg_setFld_other _ _ _ _ _ _ _ _ (.inr hne.symm))⟩
    rw [State.scale, State.fld_congr (State.reg_of_rpRegs hregs (by decide)), State.fld_setFld_same _ _ _ _ _ _ (by omega),
      Nat.mod_eq_of_lt (by omega)]

theorem State.rpPower_setScale (s : State) (v : Nat) : (s.setScale v).rpPower = s.rpPower := by
  unfold State.setScale
  split
  · rfl
  · simp

theorem State.rpPower_powerRequest (s : State) : s.powerRequest.rpPower = s.rpPower := by
  unfold State.powerRequest
  split
  · exact State.rpPower_issueOrder _ _
  · rfl

theorem State.scale_lt (s : State) : s.scale < 512 := by
  unfold State.scale State.fld bits
  omega

/-- What an alert shows before a staged wake stops. -/
theorem State.alertScaled_does (s : State) : s.alertScaled.flag .ronpex Reg.timPwrStat 0 = true
    ∧ s.alertScaled.flag .ronpex Reg.timPwrStat 4 = true ∧ s.alertScaled.scale = min s.scale s.alertScale
    ∧ s.alertScaled.rp.power.alert = true := by
  obtain ⟨h1, h2, h3, h4, h5⟩ := s.alertShown_does
  have hscale : s.alertShown.scale = s.scale := State.fld_congr (h1 _ (by decide) (by decide)) 0 9
  have halt : s.alertShown.alertScale = s.alertScale := by
    unfold State.alertScale State.altValid
    rw [State.flag_congr (h1 _ (by decide) (by decide)), State.fld_congr (h1 _ (by decide) (by decide)), h4,
      State.fld_congr (h1 _ (by decide) (by decide))]
  have hlt : min s.scale s.alertScale < 512 := by
    have := s.scale_lt
    omega
  obtain ⟨k1, k2⟩ := s.alertShown.powerEvent.scale_setScale hlt
  have hregs : s.alertScaled.rpRegs = (s.alertShown.powerEvent.setScale (min s.scale s.alertScale)).rpRegs := by
    rw [State.alertScaled, hscale, halt]
    exact State.rpRegs_powerRequest _
  have hstat : s.alertScaled.reg .ronpex Reg.timPwrStat = s.alertShown.reg .ronpex Reg.timPwrStat :=
    (State.reg_of_rpRegs hregs (by decide)).trans ((k2 _ (by decide) (by decide)).trans
      (State.reg_of_rpRegs (State.rpRegs_powerEvent _) (by decide)))
  refine ⟨(State.flag_congr hstat 0).trans h2, (State.flag_congr hstat 4).trans h3, ?_, ?_⟩
  · exact (State.fld_congr (State.reg_of_rpRegs hregs (by decide)) 0 9).trans k1
  · have hpow : s.alertScaled.rpPower = s.alertShown.rpPower := by
      rw [State.alertScaled, State.rpPower_powerRequest, State.rpPower_setScale, State.rpPower_powerEvent]
    rw [State.power_of_rpPower hpow, h5]

theorem State.alert_returnToken (s : State) : s.returnToken.rp.power.alert = s.rp.power.alert := by
  unfold State.returnToken
  split
  · rfl
  · obtain ⟨-, hpower, -⟩ := ((s.modPower fun x => { x with token := none }).onlyTray_sendToken _).keeps
    rw [hpower]
    rfl

theorem State.wakeStops_keeps (s : State) : (∀ a, a ≠ Reg.timWake → s.wakeStops.reg .ronpex a = s.reg .ronpex a)
    ∧ s.wakeStops.rp.power.alert = s.rp.power.alert := by
  unfold State.wakeStops
  split
  · obtain ⟨-, -, -, -, -, h6⟩ := (s.modPower fun x => { x with wakeHeld := true, t0 := none }).returnToken_does
    exact ⟨fun a ha => (State.reg_setFld_other _ _ _ _ _ _ _ _ (.inr ha.symm)).trans (h6 a), State.alert_returnToken _⟩
  · split
    · exact ⟨fun _ _ => rfl, rfl⟩
    · exact ⟨fun _ _ => rfl, rfl⟩

/-- What PWRALERT_N does. -/
theorem State.alertOn_does {s : State} (h : s.rp.power.alert = false) : s.alertOn.rp.power.alert = true
    ∧ s.alertOn.flag .ronpex Reg.timPwrStat 0 = true ∧ s.alertOn.flag .ronpex Reg.timPwrStat 4 = true
    ∧ s.alertOn.scale = min s.scale s.alertScale ∧ s.alertOn.rp.links = s.rp.links ∧ onlyRonpex s s.alertOn := by
  obtain ⟨h1, h2, h3, h4⟩ := s.alertScaled_does
  obtain ⟨k1, k2⟩ := s.alertScaled.wakeStops_keeps
  refine ⟨?_, ?_, ?_, ?_, s.rpLinks_alertOn, onlyRonpex_of (by simp) (by simp)⟩
  · rw [State.alertOn_eq h, k2, h4]
  · rw [State.alertOn_eq h, State.flag_congr (k1 _ (by decide)), h1]
  · rw [State.alertOn_eq h, State.flag_congr (k1 _ (by decide)), h2]
  · rw [State.alertOn_eq h, State.scale, State.fld_congr (k1 _ (by decide))]
    exact h3

/-- What the end of PWRALERT_N does. -/
theorem State.alertOff_does {s : State} (h : s.rp.power.alert = true) : s.alertOff.rp.power.alert = false
    ∧ s.alertOff.rp.power.alertOff = some s.now ∧ s.alertOff.flag .ronpex Reg.timPwrStat 0 = false ∧ s.alertOff.scale = s.scale
    ∧ s.alertOff.rp.links = s.rp.links ∧ onlyRonpex s s.alertOff := by
  have heq : s.alertOff = ((s.modPower fun x => { x with alert := false, alertOff := some s.now }).setFlag .ronpex Reg.timPwrStat 0 false).powerEvent :=
    if_pos h
  have hpow := State.power_of_rpPower (State.rpPower_powerEvent
    ((s.modPower fun x => { x with alert := false, alertOff := some s.now }).setFlag .ronpex Reg.timPwrStat 0 false))
  have hregs := State.rpRegs_powerEvent
    ((s.modPower fun x => { x with alert := false, alertOff := some s.now }).setFlag .ronpex Reg.timPwrStat 0 false)
  rw [← heq] at hpow hregs
  refine ⟨by rw [hpow]; rfl, by rw [hpow]; rfl, ?_, ?_, s.rpLinks_alertOff, onlyRonpex_of (by simp) (by simp)⟩
  · rw [State.flag_congr (State.reg_of_rpRegs hregs (by decide)), State.flag_setFlag_same _ _ _ (by omega)]
  · exact State.fld_congr ((State.reg_of_rpRegs hregs (by decide)).trans (State.reg_setFlag_other _ _ _ _ _ _ _ (.inr (by decide)))) 0 9

/-! ### 100 ms after it -/

/-- The alert is over: what it held goes on. -/
def State.alertOver (s : State) : State := s.modPower fun x => { x with alertOff := none, wakeHeld := false }

/-- The POWER alternate is no longer in effect, and what was held goes on. -/
def State.workResumes (s : State) : State :=
  ((s.setFlag .ronpex Reg.timPwrStat 1 false).setFlag .ronpex Reg.timPwrStat 4 false).modPower fun x => { x with hbmHeld := false }

/-- PWRALERT_N has been clear for 100 ms. -/
def State.alertClear (s : State) : Bool :=
  !s.rp.power.alert && match s.rp.power.alertOff with
    | none => true
    | some t => decide (t + 100000000 ≤ s.now)

theorem State.powerReturn_eq (s : State) : s.powerReturn = if !s.alertClear || decide (2 ≤ s.fld .ronpex Reg.timPwrStat 2 2) then s
    else if s.flag .ronpex Reg.timPwrStat 1 && s.running then
      if s.rp.warp.orders.any fun x => x.o.kind == 3 then s.alertOver
      else s.alertOver.issueOrder (s.alertOver.newOrder 3 0 0 0 0 4000 s.alertOver.activeSkeins [])
    else s.alertOver.workResumes := rfl

theorem State.alertClear_eq {s : State} {t0 : Nat} (ha : s.rp.power.alertOff = some t0) :
    s.alertClear = (!s.rp.power.alert && decide (t0 + 100000000 ≤ s.now)) := by
  unfold State.alertClear
  rw [ha]

theorem State.powerReturn_early {s : State} {t0 : Nat} (ha : s.rp.power.alertOff = some t0) (h : s.now < t0 + 100000000) : s.powerReturn = s := by
  rw [s.powerReturn_eq, State.alertClear_eq ha, if_pos (by simp [show ¬t0 + 100000000 ≤ s.now by omega])]

theorem State.powerReturn_cases (s : State) : s.powerReturn = s
    ∨ (∃ o, s.powerReturn = s.alertOver.issueOrder o) ∨ s.powerReturn = s.alertOver ∨ s.powerReturn = s.alertOver.workResumes := by
  rw [s.powerReturn_eq]
  split
  · exact .inl rfl
  · split
    · split
      · exact .inr (.inr (.inl rfl))
      · exact .inr (.inl ⟨_, rfl⟩)
    · exact .inr (.inr (.inr rfl))

theorem State.powerReturn_resumes {s : State} {t0 : Nat} (hoff : s.rp.power.alert = false) (ha : s.rp.power.alertOff = some t0)
    (ht : t0 + 100000000 ≤ s.now) (hs : s.fld .ronpex Reg.timPwrStat 2 2 < 2)
    (h1 : s.flag .ronpex Reg.timPwrStat 1 = false ∨ s.running = false) : s.powerReturn = s.alertOver.workResumes := by
  rw [s.powerReturn_eq, State.alertClear_eq ha, hoff, if_neg (by simp [ht]; omega), if_neg ?_]
  rcases h1 with h1 | h1 <;> simp [h1]

theorem State.workResumes_does (s : State) : s.workResumes.flag .ronpex Reg.timPwrStat 1 = false
    ∧ s.workResumes.flag .ronpex Reg.timPwrStat 4 = false ∧ regsBut s s.workResumes .ronpex [Reg.timPwrStat]
    ∧ s.workResumes.fld .ronpex Reg.timPwrStat 2 2 = s.fld .ronpex Reg.timPwrStat 2 2 := by
  have hreg (a : Nat) : s.workResumes.reg .ronpex a
      = ((s.setFlag .ronpex Reg.timPwrStat 1 false).setFlag .ronpex Reg.timPwrStat 4 false).reg .ronpex a := rfl
  refine ⟨?_, ?_, fun a ha => ?_, ?_⟩
  · rw [State.flag_congr (hreg _), State.flag_setFlag_other _ _ _ (by omega) (by omega), State.flag_setFlag_same _ _ _ (by omega)]
  · rw [State.flag_congr (hreg _), State.flag_setFlag_same _ _ _ (by omega)]
  · have hne : Reg.timPwrStat ≠ a := fun h => ha (by simp [← h])
    rw [hreg, State.reg_setFlag_other _ _ _ _ _ _ _ (.inr hne), State.reg_setFlag_other _ _ _ _ _ _ _ (.inr hne)]
  · rw [State.fld_congr (hreg _), State.fld_setFlag_outside _ _ _ (by omega) (by omega), State.fld_setFlag_outside _ _ _ (by omega) (by omega)]

/-- 100 ms after PWRALERT_N. -/
theorem alertClear_does {s : State} {t0 : Nat} (hoff : s.rp.power.alert = false) (ha : s.rp.power.alertOff = some t0)
    (ht : t0 + 100000000 ≤ s.now) (hs : s.fld .ronpex Reg.timPwrStat 2 2 < 2)
    (h1 : s.flag .ronpex Reg.timPwrStat 1 = false ∨ s.running = false) :
    ∃ t, exec .alertClearTimeout s = .next t ∧ t.flag .ronpex Reg.timPwrStat 1 = false ∧ t.flag .ronpex Reg.timPwrStat 4 = false
      ∧ t.rp.power = { s.rp.power with alertOff := none, wakeHeld := false, hbmHeld := false }
      ∧ regsBut s t .ronpex [Reg.timPwrStat] ∧ t = { s with rp := { s.rp with regs := t.rp.regs, power := t.rp.power } } := by
  obtain ⟨k1, k2, k3, -⟩ := s.alertOver.workResumes_does
  exact ⟨s.alertOver.workResumes, congrArg Host.Outcome.next (State.powerReturn_resumes hoff ha ht hs h1), k1, k2, rfl, k3, rfl⟩

end Sys2Proof.Machine
end

section
/-! Thermal steps, the regions that step 3 fences, and their return (R371). -/

namespace Sys2Proof.Machine

open Sys2Proof Sys2Proof.Claims

/-! ### A step clears -/

/-- The register that shows the step, and the times that conditions have held for. -/
def State.sameHeat (s t : State) : Prop :=
  t.fld .ronpex Reg.timPwrStat 2 2 = s.fld .ronpex Reg.timPwrStat 2 2 ∧ t.rp.power.cool = s.rp.power.cool

theorem State.sameHeat_powerReturn (s : State) : s.sameHeat s.powerReturn := by
  rcases s.powerReturn_cases with h | ⟨o, h⟩ | h | h
  · rw [h]
    exact ⟨rfl, rfl⟩
  · rw [h]
    have hpow := State.power_of_rpPower (s.alertOver.rpPower_issueOrder o)
    refine ⟨State.fld_congr ((State.reg_of_rpRegs (State.rpRegs_issueOrder s.alertOver o) (by decide)).trans rfl) 2 2, ?_⟩
    rw [hpow]
    rfl
  · rw [h]
    exact ⟨rfl, rfl⟩
  · rw [h]
    exact ⟨s.alertOver.workResumes_does.2.2.2, rfl⟩

theorem State.sameHeat_powerRequest (s : State) : s.sameHeat s.powerRequest :=
  ⟨State.fld_congr (State.reg_of_rpRegs s.rpRegs_powerRequest (by decide)) 2 2,
    congrArg Power.cool (State.power_of_rpPower s.rpPower_powerRequest)⟩

theorem State.sameHeat.trans {s t u : State} (h : s.sameHeat t) (k : t.sameHeat u) : s.sameHeat u := ⟨k.1.trans h.1, k.2.trans h.2⟩

theorem State.sameHeat_of_frames {s t : State} (h : t.rpRegs = s.rpRegs) (k : t.rpPower = s.rpPower) : s.sameHeat t :=
  ⟨State.fld_congr (State.reg_of_rpRegs h (by decide)) 2 2, congrArg Power.cool (State.power_of_rpPower k)⟩

/-- A step is shown and reported. -/
theorem State.thermStep_does {s : State} {n : Nat} (hn : n < 4) (hne : n ≠ s.fld .ronpex Reg.timPwrStat 2 2) :
    (s.thermStep n).fld .ronpex Reg.timPwrStat 2 2 = n ∧ (s.thermStep n).rp.power.cool = s.rp.power.cool := by
  have hset : (s.setFld .ronpex Reg.timPwrStat 2 2 n).fld .ronpex Reg.timPwrStat 2 2 = n := by
    rw [State.fld_setFld_same _ _ _ _ _ _ (by omega), Nat.mod_eq_of_lt (by omega)]
  have hsame : (s.setFld .ronpex Reg.timPwrStat 2 2 n).sameHeat (s.thermStep n) := by
    unfold State.thermStep
    rw [if_neg hne]
    dsimp only
    have hposts (l : List Nat) (e : Nat → Event) (t : State) : t.sameHeat (l.foldl (fun t k => t.postFor (e k) 2 t.activeSkeins) t) :=
      State.sameHeat_of_frames (by simp) (by simp)
    have hemit (t : State) : t.sameHeat (if t.flag .ronpex Reg.hubCtl 1 then t.emit .ibi else t) := by
      split
      · exact State.sameHeat_of_frames (by simp) (by simp)
      · exact ⟨rfl, rfl⟩
    have hlast (c d : Prop) [Decidable c] [Decidable d] (t : State) :
        t.sameHeat (if c then t.powerRequest else if d then t.powerReturn else t) := by
      split
      · exact t.sameHeat_powerRequest
      · split
        · exact t.sameHeat_powerReturn
        · exact ⟨rfl, rfl⟩
    exact ((hposts _ _ _).trans (hemit _)).trans (hlast _ _ _)
  exact ⟨hsame.1.trans hset, hsame.2⟩

theorem State.stepsClear_succ (n : Nat) (s : State) : s.stepsClear (n + 1)
    = if s.fld .ronpex Reg.timPwrStat 2 2 ≠ 0 ∧ (s.rp.power.cool.any fun e => e.1 == s.fld .ronpex Reg.timPwrStat 2 2
        && decide (e.2 + 1000000000 ≤ s.now)) then (s.thermStep (s.fld .ronpex Reg.timPwrStat 2 2 - 1)).stepsClear n else s := rfl

theorem State.stepsClear_waits {s : State} {k t0 : Nat} (h : s.rp.power.cool = [(k, t0)])
    (hw : s.fld .ronpex Reg.timPwrStat 2 2 ≠ k ∨ s.now < t0 + 1000000000) (n : Nat) : s.stepsClear (n + 1) = s := by
  rw [State.stepsClear_succ, h]
  refine if_neg ?_
  rintro ⟨-, hany⟩
  simp only [List.any_cons, List.any_nil, Bool.or_false, Bool.and_eq_true, beq_iff_eq, decide_eq_true_eq] at hany
  omega

/-- One step clears, and no more. -/
theorem State.stepsClear_does {s : State} {k t0 : Nat} (hk : s.fld .ronpex Reg.timPwrStat 2 2 = k) (h0 : k ≠ 0)
    (h : s.rp.power.cool = [(k, t0)]) (ht : t0 + 1000000000 ≤ s.now) : (s.stepsClear 3).fld .ronpex Reg.timPwrStat 2 2 = k - 1 := by
  have hlt : k < 4 := by
    rw [← hk]
    unfold State.fld bits
    omega
  obtain ⟨h1, h2⟩ := State.thermStep_does (s := s) (n := k - 1) (by omega) (by omega)
  rw [State.stepsClear_succ, if_pos ?_, hk, State.stepsClear_waits (h2.trans h) (.inl (by omega)), h1]
  rw [hk, h]
  refine ⟨h0, ?_⟩
  simp [ht]

/-! ### Step 3 fences a region -/

/-- A port of a region is fenced with a cause. -/
def State.portCaused (s : State) (cause n : Nat) : State :=
  if s.fld .ronpex (portBase n) 0 2 = 1 ∨ s.fld .ronpex (portBase n) 0 2 = 3 then s
  else ((((s.hardFence n cause).stopClock .ronpex n).setReg .ronpex (portBase n) (1 + 256 * cause)).setFld .ronpex (portBase n + 0xC) 0 3 0).satFld
    .ronpex (portBase n + 0x10) 0 16 1

/-- A spindle of a region is fenced with a cause. -/
def State.spindleCaused (s : State) (cause n : Nat) : State :=
  (((if s.spFenced n then s else s.hardFence (192 + n) cause).setFlag .ronpex (spindleBase n) 0 true).setUnit (192 + n) cause 0).loseContexts n

theorem State.portCaused_idle {s : State} {n : Nat} (h : s.portIdle n) (cause : Nat) : s.portCaused cause n = s := if_pos h

theorem State.reg_portCaused {s : State} {n : Nat} (h : ¬s.portIdle n) (cause : Nat) {a : Nat} (ha : a ∉ reportRegs)
    (h1 : a ≠ portBase n + 0xC) (h2 : a ≠ portBase n + 0x10) :
    (s.portCaused cause n).reg .ronpex a = if portBase n = a then (1 + 256 * cause) % 2 ^ 32 else s.reg .ronpex a := by
  have hfirst : ((s.hardFence n cause).stopClock .ronpex n).reg .ronpex a = s.reg .ronpex a := State.reg_of_rpRegs (by simp) ha
  have heq : s.portCaused cause n = ((((s.hardFence n cause).stopClock .ronpex n).setReg .ronpex (portBase n) (1 + 256 * cause)).setFld .ronpex
      (portBase n + 0xC) 0 3 0).satFld .ronpex (portBase n + 0x10) 0 16 1 := if_neg h
  rw [heq, State.satFld, State.reg_setFld_other _ _ _ _ _ _ _ _ (.inr (Ne.symm h2)),
    State.reg_setFld_other _ _ _ _ _ _ _ _ (.inr (Ne.symm h1))]
  by_cases he : portBase n = a
  · rw [if_pos he, ← he, State.reg_setReg_same]
  · rw [if_neg he, State.reg_setReg_other _ _ _ _ _ _ (.inr he), hfirst]

theorem State.link_portCaused {s : State} {n q : Nat} (h : q ≠ n) (cause : Nat) : (s.portCaused cause n).link .ronpex q = s.link .ronpex q := by
  unfold State.portCaused
  split
  · rfl
  · have hlink (t : State) : (t.stopClock .ronpex n).link .ronpex q = t.link .ronpex q := SMap.look_put_other _ _ _ _ _ h
    show ((s.hardFence n cause).stopClock .ronpex n).link .ronpex q = s.link .ronpex q
    rw [hlink]
    show SMap.look _ (s.hardFence n cause).rp.links q = SMap.look _ s.rp.links q
    rw [State.rp_links, State.rpLinks_hardFence]
    rfl

theorem State.portIdle_of_reg {s t : State} {n : Nat} (h : t.reg .ronpex (portBase n) = s.reg .ronpex (portBase n)) : t.portIdle n ↔ s.portIdle n := by
  unfold State.portIdle
  rw [State.fld_congr h]

theorem State.portIdle_of_word {s : State} {n cause : Nat} (h : s.reg .ronpex (portBase n) = 1 + 256 * cause) : s.portIdle n := by
  left
  unfold State.fld bits
  rw [h]
  omega

theorem State.reg_portCaused_other {s : State} {n p : Nat} (hn : n < 192) (hp : p < 192) (hne : n ≠ p) (cause : Nat) :
    (s.portCaused cause n).reg .ronpex (portBase p) = s.reg .ronpex (portBase p) := by
  by_cases hidle : s.portIdle n
  · rw [State.portCaused_idle hidle]
  · have hbase : portBase n ≠ portBase p := fun h => hne (portBase_injective hn hp h)
    rw [State.reg_portCaused hidle cause (notMem_reportRegs (le_portBase p)) (by unfold portBase; omega) (by unfold portBase; omega), if_neg hbase]

/-- The ports of a list are fenced with a cause. -/
def State.portsFenced (s : State) (cause : Nat) (l : List Nat) : State := l.foldl (fun t n => t.portCaused cause n) s

theorem State.portsFenced_other {cause p : Nat} (hp : p < 192) {l : List Nat} (hl : ∀ n ∈ l, n < 192) (h : p ∉ l) (s : State) :
    (s.portsFenced cause l).reg .ronpex (portBase p) = s.reg .ronpex (portBase p) :=
  State.reg_foldl_of_mem (fun _ n hn => State.reg_portCaused_other (hl n hn) hp (fun he => h (he ▸ hn)) cause) s

theorem State.portsFenced_idle {cause p : Nat} (hp : p < 192) {l : List Nat} (hl : ∀ n ∈ l, n < 192) {s : State} (h : s.portIdle p) :
    (s.portsFenced cause l).reg .ronpex (portBase p) = s.reg .ronpex (portBase p) := by
  unfold State.portsFenced
  induction l generalizing s with
  | nil => rfl
  | cons n l ih =>
    have hstep : (s.portCaused cause n).reg .ronpex (portBase p) = s.reg .ronpex (portBase p) := by
      by_cases hn : n = p
      · rw [hn, State.portCaused_idle h]
      · exact State.reg_portCaused_other (hl n List.mem_cons_self) hp hn cause
    rw [List.foldl_cons, ih (fun m hm => hl m (List.mem_cons_of_mem _ hm)) ((State.portIdle_of_reg hstep).2 h), hstep]

/-- A port of the list that is not idle shows the cause. -/
theorem State.portsFenced_mem {cause p : Nat} (hc : cause < 256) (hp : p < 192) {l : List Nat} (hl : ∀ n ∈ l, n < 192) (h : p ∈ l) {s : State}
    (hs : ¬s.portIdle p) : (s.portsFenced cause l).reg .ronpex (portBase p) = 1 + 256 * cause := by
  unfold State.portsFenced
  induction l generalizing s with
  | nil => exact absurd h List.not_mem_nil
  | cons n l ih =>
    have hl' : ∀ m ∈ l, m < 192 := fun m hm => hl m (List.mem_cons_of_mem _ hm)
    rw [List.foldl_cons]
    by_cases hn : n = p
    · subst hn
      have hword : (s.portCaused cause n).reg .ronpex (portBase n) = 1 + 256 * cause := by
        rw [State.reg_portCaused hs cause (notMem_reportRegs (le_portBase n)) (by omega) (by omega), if_pos rfl, Nat.mod_eq_of_lt (by omega)]
      exact (State.portsFenced_idle hp hl' (State.portIdle_of_word hword)).trans hword
    · have hstep := State.reg_portCaused_other (s := s) (hl n List.mem_cons_self) hp hn cause
      exact ih hl' ((List.mem_cons.1 h).resolve_left (Ne.symm hn)) fun hi => hs ((State.portIdle_of_reg hstep).1 hi)

theorem State.portsFenced_hub {cause a : Nat} (ha : a ∉ reportRegs) (h : a < 0x1000000) (l : List Nat) (s : State) :
    (s.portsFenced cause l).reg .ronpex a = s.reg .ronpex a := by
  refine State.reg_foldl_of_mem (fun t n _ => ?_) s
  have hbase := le_portBase n
  by_cases hidle : t.portIdle n
  · rw [State.portCaused_idle hidle]
  · rw [State.reg_portCaused hidle cause ha (by omega) (by omega), if_neg (by omega)]

theorem State.portsFenced_link {cause q : Nat} {l : List Nat} (h : q ∉ l) (s : State) : (s.portsFenced cause l).link .ronpex q = s.link .ronpex q := by
  unfold State.portsFenced
  induction l generalizing s with
  | nil => rfl
  | cons n l ih =>
    obtain ⟨hn, hl⟩ := not_or.1 (List.mem_cons.not.1 h)
    rw [List.foldl_cons, ih hl, State.link_portCaused hn]

/-- The spindles of a list are fenced with a cause. -/
def State.spindlesFenced (s : State) (cause : Nat) (l : List Nat) : State := l.foldl (fun t n => t.spindleCaused cause n) s

theorem State.reg_spindleCaused (s : State) (cause n : Nat) {a : Nat} (ha : a ∉ reportRegs) (hne : spindleBase n ≠ a) :
    (s.spindleCaused cause n).reg .ronpex a = s.reg .ronpex a := by
  have hregs : (s.spindleCaused cause n).rpRegs
      = ((if s.spFenced n then s else s.hardFence (192 + n) cause).setFlag .ronpex (spindleBase n) 0 true).rpRegs := by
    unfold State.spindleCaused
    simp
  have hfirst : (if s.spFenced n then s else s.hardFence (192 + n) cause).reg .ronpex a = s.reg .ronpex a :=
    State.reg_of_rpRegs (by split <;> simp) ha
  exact (State.reg_of_rpRegs hregs ha).trans ((State.reg_setFlag_other _ _ _ _ _ _ _ (.inr hne)).trans hfirst)

theorem State.links_spindleCaused (s : State) (cause n : Nat) : (s.spindleCaused cause n).rpLinks = s.rpLinks := by
  unfold State.spindleCaused
  rw [← State.rp_links, (State.loseContexts_does _ n).2.1, State.rp_links, State.rpLinks_setUnit, State.rpLinks_setFlag]
  split <;> simp

theorem State.power_spindleCaused (s : State) (cause n : Nat) : (s.spindleCaused cause n).rpPower = s.rpPower := by
  unfold State.spindleCaused
  rw [State.rpPower_loseContexts, State.rpPower_setUnit, State.rpPower_setFlag]
  split <;> simp

theorem State.spindlesFenced_does (cause : Nat) (l : List Nat) (s : State) :
    (∀ a, a ∉ reportRegs → (∀ n, spindleBase n ≠ a) → (s.spindlesFenced cause l).reg .ronpex a = s.reg .ronpex a)
      ∧ (s.spindlesFenced cause l).rpLinks = s.rpLinks ∧ (s.spindlesFenced cause l).rpPower = s.rpPower := by
  refine ⟨fun a ha hne => State.reg_foldl_of_mem (fun t n _ => t.reg_spindleCaused cause n ha (hne n)) s, ?_, ?_⟩
  · exact State.rpLinks_foldl _ (fun t n => t.links_spindleCaused cause n) _ _
  · exact State.rpPower_foldl _ (fun t n => t.power_spindleCaused cause n) _ _

theorem State.power_portsFenced (cause : Nat) (l : List Nat) (s : State) : (s.portsFenced cause l).rpPower = s.rpPower := by
  refine State.rpPower_foldl _ (fun t n => ?_) _ _
  unfold State.portCaused State.stopClock
  split <;> simp

/-- What the fence of a group shows before it is reported. -/
def State.groupFenced (s : State) (cause : Nat) (ports spindles : List Nat) : State := (s.portsFenced cause ports).spindlesFenced cause spindles

/-- The fence of a group is reported: `s` is the state in which it began. -/
def State.groupTold (t s : State) (type k cause : Nat) (units ports spindles : List Nat) : State :=
  let u := (t.showUnits true units).partEvent type k 1 cause
  ports.foldl (fun t n => t.portOrder n) (if u.running then spindles.foldl (fun t n => if s.spFenced n then t else t.spindleOrder n) u else u)

theorem State.groupTold_frames (t s : State) (type k cause : Nat) (units ports spindles : List Nat) :
    (t.groupTold s type k cause units ports spindles).rpRegs = t.rpRegs ∧ (t.groupTold s type k cause units ports spindles).rpLinks = t.rpLinks
      ∧ (t.groupTold s type k cause units ports spindles).rpPower = t.rpPower := by
  unfold State.groupTold
  refine ⟨?_, ?_, ?_⟩ <;> simp

theorem State.fenceGroup_eq (s : State) (type k cause : Nat) (ports spindles : List Nat) :
    s.fenceGroup type k cause ports spindles = (s.groupFenced cause ports spindles).groupTold s type k cause
      (ports ++ spindles.map (192 + ·)) (ports.filter fun n => s.fld .ronpex (portBase n) 0 2 != 1) spindles := rfl

/-- What the fence of a region shows. -/
theorem State.fenceRegion_does {s : State} {g cause : Nat} (hg : g < 16) (hc : cause < 256) :
    let t := s.fenceGroup 6 g cause (regionPorts g) (regionSpindles g)
    (∀ p ∈ regionPorts g, ¬s.portIdle p → t.reg .ronpex (portBase p) = 1 + 256 * cause)
      ∧ (∀ p, p < 192 → p / 12 ≠ g → t.reg .ronpex (portBase p) = s.reg .ronpex (portBase p))
      ∧ (∀ a, a ∉ reportRegs → a < 0x1000000 → t.reg .ronpex a = s.reg .ronpex a)
      ∧ (∀ q, q / 12 ≠ g → t.link .ronpex q = s.link .ronpex q) ∧ t.rp.power = s.rp.power ∧ onlyRonpex s t := by
  dsimp only
  obtain ⟨tregs, tlinks, tpow⟩ := (s.groupFenced cause (regionPorts g) (regionSpindles g)).groupTold_frames s 6 g cause
    (regionPorts g ++ (regionSpindles g).map (192 + ·)) ((regionPorts g).filter fun n => s.fld .ronpex (portBase n) 0 2 != 1) (regionSpindles g)
  obtain ⟨sregs, slinks, spow⟩ := (s.portsFenced cause (regionPorts g)).spindlesFenced_does cause (regionSpindles g)
  have honly : onlyRonpex s (s.fenceGroup 6 g cause (regionPorts g) (regionSpindles g)) := onlyRonpex_of (by simp) (by simp)
  rw [s.fenceGroup_eq] at honly ⊢
  have hout (p : Nat) (hne : p / 12 ≠ g) : p ∉ regionPorts g := by
    unfold regionPorts
    simp only [List.mem_map, List.mem_range]
    omega
  have hport (p : Nat) := (State.reg_of_rpRegs tregs (notMem_reportRegs (le_portBase p))).trans
    (sregs _ (notMem_reportRegs (le_portBase p)) fun n h => portBase_ne_spindle.1 h.symm)
  refine ⟨fun p hp hi => (hport p).trans (State.portsFenced_mem hc (regionPorts_lt hg hp) (fun n => regionPorts_lt hg) hp hi),
    fun p hp hne => (hport p).trans (State.portsFenced_other hp (fun n => regionPorts_lt hg) (hout p hne) s), fun a ha hlt => ?_, fun q hne => ?_,
    ?_, honly⟩
  · refine (State.reg_of_rpRegs tregs ha).trans ((sregs a ha fun n => ?_).trans (State.portsFenced_hub ha hlt _ s))
    have := le_spindleBase n
    omega
  · have hlinks := tlinks.trans slinks
    rw [← State.portsFenced_link (cause := cause) (hout q hne) s]
    show SMap.look _ _ q = SMap.look _ _ q
    rw [State.rp_links, State.rp_links, hlinks]
  · exact (State.power_of_rpPower tpow).trans ((State.power_of_rpPower spow).trans (State.power_of_rpPower (State.power_portsFenced _ _ _)))

/-- A region of a die is fenced at step 3. -/
theorem State.thermalFence_does {s : State} {d r : Nat} (hd : d < 4) (hr : r < 4) (hh : s.hottestRegion d = some r)
    (hoff : s.regionOff (4 * d + r) = false) :
    (s.thermalFence d).flag .ronpex (Reg.timTherm d) (16 + r) = true
      ∧ (∀ p ∈ regionPorts (4 * d + r), ¬s.portIdle p → (s.thermalFence d).reg .ronpex (portBase p) = 1 + 256 * 6)
      ∧ (∀ p, p < 192 → p / 12 ≠ 4 * d + r → (s.thermalFence d).reg .ronpex (portBase p) = s.reg .ronpex (portBase p))
      ∧ (s.thermalFence d).rp.power.fencedAt = (s.rp.power.fencedAt.filter fun e => e.1 != d) ++ [(d, s.now)]
      ∧ (∀ q, q / 12 ≠ 4 * d + r → (s.thermalFence d).link .ronpex q = s.link .ronpex q) ∧ onlyRonpex s (s.thermalFence d) := by
  have heq : s.thermalFence d = ((s.modPower fun x => { x with fencedAt := (x.fencedAt.filter fun e => e.1 != d) ++ [(d, s.now)] }).setFlag .ronpex
      (Reg.timTherm d) (16 + r) true).fenceGroup 6 (4 * d + r) 6 (regionPorts (4 * d + r)) (regionSpindles (4 * d + r)) := by
    unfold State.thermalFence
    rw [hh]
    exact if_neg (Bool.eq_false_iff.1 hoff)
  have hreg (a : Nat) (ha : Reg.timTherm d ≠ a) : ((s.modPower fun x => { x with
      fencedAt := (x.fencedAt.filter fun e => e.1 != d) ++ [(d, s.now)] }).setFlag .ronpex (Reg.timTherm d) (16 + r) true).reg .ronpex a
        = s.reg .ronpex a := State.reg_setFlag_other _ _ _ _ _ _ _ (.inr ha)
  have hne (p : Nat) : Reg.timTherm d ≠ portBase p := by
    have := le_portBase p
    simp only [Reg.timTherm]
    omega
  obtain ⟨h1, h2, h3, h4, h5, h6⟩ := State.fenceRegion_does (s := (s.modPower fun x => { x with
      fencedAt := (x.fencedAt.filter fun e => e.1 != d) ++ [(d, s.now)] }).setFlag .ronpex (Reg.timTherm d) (16 + r) true) (g := 4 * d + r)
      (cause := 6) (by omega) (by omega)
  rw [heq]
  have htherm : Reg.timTherm d ∉ reportRegs := by
    simp only [reportRegs, Reg.logLost, Reg.mgtEvtOvf, Reg.mgtMsixPba, Reg.timTherm, List.mem_cons, List.not_mem_nil, or_false, not_or]
    omega
  refine ⟨?_, fun p hp hi => h1 p hp fun hc => hi ((State.portIdle_of_reg (hreg _ (hne p))).1 hc), fun p hp hn => (h2 p hp hn).trans (hreg _ (hne p)),
    ?_, h4, onlyRonpex_trans ⟨rfl, rfl, rfl, rfl⟩ h6⟩
  · rw [State.flag_congr (h3 _ htherm (by simp only [Reg.timTherm]; omega)), State.flag_setFlag_same _ _ _ (by omega)]
  · rw [h5]
    rfl

/-! ### The regions of a die return -/

/-- A region that step 3 fenced is put into reset. -/
def State.regionCooled (s : State) (d r : Nat) : State :=
  if (s.setFlag .ronpex (Reg.timTherm d) (16 + r) false).regionOff (4 * d + r) then s.setFlag .ronpex (Reg.timTherm d) (16 + r) false
  else (s.setFlag .ronpex (Reg.timTherm d) (16 + r) false).resetRegionAt (4 * d + r) 4 false

/-- A region's reset leaves the registers of the hub. -/
theorem State.reg_resetRegion_hub (s : State) (r : Nat) {a : Nat} (hlt : a < 0x1000000) : (s.resetRegion r).reg .ronpex a = s.reg .ronpex a := by
  have hclusters : ((regionClusters r).any fun k => decide (clusterBase k ≤ a)
      && (decide (a - clusterBase k < 0x50100) || (decide (0x80000 ≤ a - clusterBase k) && decide (a - clusterBase k < 0xA0000)))) = false := by
    refine List.any_eq_false.2 fun k _ => ?_
    have := le_clusterBase k
    simp only [Bool.and_eq_true, decide_eq_true_eq, not_and]
    omega
  have hengine : decide (engineBase r ≤ a) = false := by
    unfold engineBase
    rw [decide_eq_false_iff_not]
    omega
  have hlook := SMap.look_filter rpDefault s.rp.regs (fun a => !(((regionClusters r).any fun k => decide (clusterBase k ≤ a)
      && (decide (a - clusterBase k < 0x50100) || (decide (0x80000 ≤ a - clusterBase k) && decide (a - clusterBase k < 0xA0000))))
      || (decide (engineBase r ≤ a) && decide (a < engineBase r + 0x100000)))) a
  exact congrArg BitVec.toNat (hlook.trans (if_pos (by rw [hclusters, hengine]; rfl)))

theorem State.reg_resetRegionAt {s : State} {r cause a : Nat} (ha : a ∉ reportRegs) (hlt : a < 0x1000000) (quiet : Bool) :
    (s.resetRegionAt r cause quiet).reg .ronpex a = s.reg .ronpex a := by
  have hports (t : State) : (t.portsCaused r cause).reg .ronpex a = t.reg .ronpex a := by
    refine State.reg_foldl_of_mem (fun u n _ => State.reg_setFld_other _ _ _ _ _ _ _ _ (.inr ?_)) t
    have := le_portBase n
    omega
  have hcleared (t : State) : (t.regionCleared r s.now).reg .ronpex a = t.reg .ronpex a := t.reg_resetRegion_hub r hlt
  rw [State.reg_of_rpRegs (s.rpRegs_resetRegionAt r cause quiet) ha, hports, hcleared]
  exact State.reg_of_rpRegs (by unfold State.regionFenced; simp) ha

theorem State.regionOff_eq (s : State) (r : Nat) : s.regionOff r = (s.rp.units.regions.any (fun x => x.1 == r)
    || s.rp.units.dies.any (fun x => x.1 == r / 4) || !bit (r / 4) s.rp.units.awake) := rfl

/-- Another region is in reset as before. -/
theorem State.regionOff_resetRegionAt {s : State} {r q cause : Nat} (h : q ≠ r) (quiet : Bool) :
    (s.resetRegionAt r cause quiet).regionOff q = s.regionOff q := by
  have hany : (s.resetRegionAt r cause quiet).rp.units.regions.any (fun x => x.1 == q) = s.rp.units.regions.any fun x => x.1 == q := by
    rw [State.regions_resetRegionAt, List.any_append, List.any_filter]
    have hr : (r == q) = false := beq_eq_false_iff_ne.2 (Ne.symm h)
    simp only [List.any_cons, hr, List.any_nil, Bool.or_false]
    refine congrArg (List.any s.rp.units.regions) (funext fun x => ?_)
    by_cases hx : x.1 = q
    · rw [hx]
      simp [h]
    · simp [hx]
  have hmarks := congrArg Prod.snd (s.inReset_resetRegionAt r cause quiet)
  have hdies : (s.resetRegionAt r cause quiet).rp.units.dies = s.rp.units.dies := congrArg Prod.fst hmarks
  have hawake : (s.resetRegionAt r cause quiet).rp.units.awake = s.rp.units.awake := congrArg Prod.snd hmarks
  rw [State.regionOff_eq, State.regionOff_eq, hany, hdies, hawake]

/-- One region returns to reset: its flag is cleared, and it is in reset. -/
theorem State.regionCooled_does (s : State) {d r : Nat} (hd : d < 4) (hr : r < 4) :
    (s.regionCooled d r).flag .ronpex (Reg.timTherm d) (16 + r) = false
      ∧ (∀ q, q ≠ r → (s.regionCooled d r).flag .ronpex (Reg.timTherm d) (16 + q) = s.flag .ronpex (Reg.timTherm d) (16 + q))
      ∧ (s.regionCooled d r).regionOff (4 * d + r) = true
      ∧ (∀ q, q ≠ 4 * d + r → (s.regionCooled d r).regionOff q = s.regionOff q) ∧ onlyRonpex s (s.regionCooled d r) := by
  have htherm : Reg.timTherm d ∉ reportRegs := by
    simp only [reportRegs, Reg.logLost, Reg.mgtEvtOvf, Reg.mgtMsixPba, Reg.timTherm, List.mem_cons, List.not_mem_nil, or_false, not_or]
    omega
  have hreg : (s.regionCooled d r).reg .ronpex (Reg.timTherm d)
      = (s.setFlag .ronpex (Reg.timTherm d) (16 + r) false).reg .ronpex (Reg.timTherm d) := by
    unfold State.regionCooled
    split
    · rfl
    · exact State.reg_resetRegionAt htherm (by simp only [Reg.timTherm]; omega) false
  have hoff (q : Nat) : (s.setFlag .ronpex (Reg.timTherm d) (16 + r) false).regionOff q = s.regionOff q := rfl
  refine ⟨?_, fun q hq => ?_, ?_, fun q hq => ?_, ?_⟩
  · rw [State.flag_congr hreg, State.flag_setFlag_same _ _ _ (by omega)]
  · rw [State.flag_congr hreg, State.flag_setFlag_other _ _ _ (by omega) (by omega)]
  · unfold State.regionCooled
    split
    · assumption
    · exact (State.resetRegionAt_does _ (by omega)).1
  · unfold State.regionCooled
    split
    · exact hoff q
    · exact (State.regionOff_resetRegionAt hq false).trans (hoff q)
  · unfold State.regionCooled
    split
    · exact ⟨rfl, rfl, rfl, rfl⟩
    · exact onlyRonpex_trans (t := s.setFlag .ronpex (Reg.timTherm d) (16 + r) false) ⟨rfl, rfl, rfl, rfl⟩ (State.resetRegionAt_does _ (by omega)).2.2.2.2

/-- The regions of a list return to reset. -/
def State.regionsCooled (s : State) (d : Nat) (l : List Nat) : State := l.foldl (fun t r => t.regionCooled d r) s

theorem State.regionsCooled_does {d : Nat} (hd : d < 4) {l : List Nat} (hl : ∀ r ∈ l, r < 4) (s : State) :
    (∀ r, r ∈ l ∨ s.flag .ronpex (Reg.timTherm d) (16 + r) = false → (s.regionsCooled d l).flag .ronpex (Reg.timTherm d) (16 + r) = false)
      ∧ (∀ r, r ∈ l ∨ s.regionOff (4 * d + r) = true → (s.regionsCooled d l).regionOff (4 * d + r) = true)
      ∧ (∀ q, (∀ r ∈ l, q ≠ 4 * d + r) → (s.regionsCooled d l).regionOff q = s.regionOff q) ∧ onlyRonpex s (s.regionsCooled d l) := by
  unfold State.regionsCooled
  induction l generalizing s with
  | nil => exact ⟨fun r h => h.resolve_left List.not_mem_nil, fun r h => h.resolve_left List.not_mem_nil, fun _ _ => rfl, rfl, rfl, rfl, rfl⟩
  | cons n l ih =>
    obtain ⟨f1, f2, o1, o2, h⟩ := s.regionCooled_does hd (hl n List.mem_cons_self)
    obtain ⟨i1, i2, i3, i4⟩ := ih (fun r hr => hl r (List.mem_cons_of_mem _ hr)) (s.regionCooled d n)
    refine ⟨fun r hr => i1 r ?_, fun r hr => i2 r ?_, fun q hq => ?_, onlyRonpex_trans h i4⟩
    · by_cases hn : r = n
      · exact .inr (hn ▸ f1)
      · exact hr.imp (fun hm => (List.mem_cons.1 hm).resolve_left hn) fun hf => (f2 r hn).trans hf
    · by_cases hn : r = n
      · exact .inr (hn ▸ o1)
      · exact hr.imp (fun hm => (List.mem_cons.1 hm).resolve_left hn) fun ho => (o2 _ (by omega)).trans ho
    · exact (i3 q fun r hr => hq r (List.mem_cons_of_mem _ hr)).trans (o2 q (hq n List.mem_cons_self))

theorem State.coolReturn_eq (s : State) (d : Nat) :
    s.coolReturn d = if s.rp.power.dieCool.any (fun e => e.1 == d && decide (e.2 + 1000000000 ≤ s.now)) then
        s.regionsCooled d ((List.range 4).filter fun r => s.flag .ronpex (Reg.timTherm d) (16 + r))
      else s := rfl

theorem State.coolReturn_early {s : State} {d t0 : Nat} (h : s.rp.power.dieCool = [(d, t0)]) (ht : s.now < t0 + 1000000000) : s.coolReturn d = s := by
  rw [State.coolReturn_eq, h]
  exact if_neg (by simp; omega)

/-- The regions of a die that step 3 fenced return. -/
theorem State.coolReturn_does {s : State} {d t0 : Nat} (hd : d < 4) (h : s.rp.power.dieCool = [(d, t0)]) (ht : t0 + 1000000000 ≤ s.now) :
    (∀ r < 4, (s.coolReturn d).flag .ronpex (Reg.timTherm d) (16 + r) = false
        ∧ (s.flag .ronpex (Reg.timTherm d) (16 + r) = true → (s.coolReturn d).regionOff (4 * d + r) = true))
      ∧ (∀ r < 16, (r / 4 ≠ d ∨ s.flag .ronpex (Reg.timTherm d) (16 + r % 4) = false) → (s.coolReturn d).regionOff r = s.regionOff r)
      ∧ onlyRonpex s (s.coolReturn d) := by
  have hmem (r : Nat) : r ∈ (List.range 4).filter (fun r => s.flag .ronpex (Reg.timTherm d) (16 + r))
      ↔ r < 4 ∧ s.flag .ronpex (Reg.timTherm d) (16 + r) = true := by
    rw [List.mem_filter, List.mem_range]
  obtain ⟨h1, h2, h3, h4⟩ := State.regionsCooled_does hd (l := (List.range 4).filter fun r => s.flag .ronpex (Reg.timTherm d) (16 + r))
    (fun r hr => ((hmem r).1 hr).1) s
  rw [State.coolReturn_eq, h, if_pos (by simp [ht])]
  refine ⟨fun r hr => ⟨h1 r ?_, fun hf => h2 r (.inl ((hmem r).2 ⟨hr, hf⟩))⟩, fun r hr ho => h3 r fun q hq he => ?_, h4⟩
  · cases hf : s.flag .ronpex (Reg.timTherm d) (16 + r) with
    | true => exact .inl ((hmem r).2 ⟨hr, hf⟩)
    | false => exact .inr rfl
  · obtain ⟨hq4, hf⟩ := (hmem q).1 hq
    subst he
    have hmod : (4 * d + q) % 4 = q := by omega
    rw [hmod, hf] at ho
    exact ho.elim (fun h => h (by omega)) (by decide)

end Sys2Proof.Machine
end

section
/-! What alerts, heat, sleep and supplies do (R366-R376, R428): the theorem that settles O45. -/

namespace Sys2Proof.Machine

open Sys2Proof Sys2Proof.Claims

/-! ### Thermal steps -/

theorem State.thermalAgain_eq (s : State) (d : Nat) : s.thermalAgain d
    = if decide (1050 ≤ dieTemp s.rp.power.sensors d) && s.fld .ronpex Reg.timPwrStat 2 2 == 3
        && (s.rp.power.fencedAt.any fun e => e.1 == d && decide (e.2 + 500000000 ≤ s.now)) then s.thermalFence d else s := rfl

theorem State.thermalAgain_early {s : State} {d t0 : Nat} (h : s.rp.power.fencedAt = [(d, t0)]) (ht : s.now < t0 + 500000000) :
    s.thermalAgain d = s := by
  rw [State.thermalAgain_eq, h]
  exact if_neg (by simp; omega)

/-- 500 ms after a region of a die was fenced, its hottest one is. -/
theorem State.thermalAgain_does {s : State} {d r t0 : Nat} (hd : d < 4) (hr : r < 4) (h3 : s.fld .ronpex Reg.timPwrStat 2 2 = 3)
    (hhot : 1050 ≤ dieTemp s.rp.power.sensors d) (hf : s.rp.power.fencedAt = [(d, t0)]) (hh : s.hottestRegion d = some r)
    (hoff : s.regionOff (4 * d + r) = false) (ht : t0 + 500000000 ≤ s.now) :
    (s.thermalAgain d).flag .ronpex (Reg.timTherm d) (16 + r) = true
      ∧ (∀ p ∈ regionPorts (4 * d + r), s.unitState p = 0 → (s.thermalAgain d).reg .ronpex (portBase p) = 1 + 256 * 6)
      ∧ (∀ p, p < 192 → p / 12 ≠ 4 * d + r → (s.thermalAgain d).reg .ronpex (portBase p) = s.reg .ronpex (portBase p))
      ∧ (s.thermalAgain d).rp.power.fencedAt = [(d, s.now)]
      ∧ (∀ q, q / 12 ≠ 4 * d + r → (s.thermalAgain d).link .ronpex q = s.link .ronpex q) ∧ onlyRonpex s (s.thermalAgain d) := by
  obtain ⟨k1, k2, k3, k4, k5, k6⟩ := State.thermalFence_does hd hr hh hoff
  have heq : s.thermalAgain d = s.thermalFence d := by
    rw [State.thermalAgain_eq, hf, h3]
    exact if_pos (by simp [hhot, ht])
  rw [heq]
  refine ⟨k1, fun p hp h0 => k2 p hp ?_, k3, ?_, k5, k6⟩
  · rw [State.portIdle_iff s (regionPorts_lt (by omega) hp), h0]
    decide
  · rw [k4, hf]
    simp

/-! ### The ramp of a wake -/

theorem bit_foldl_setBit_true {d : Nat} (l : List Nat) (m : Nat) (h : d ∈ l ∨ bit d m = true) :
    bit d (l.foldl (fun m d => setBit d true m) m) = true := by
  induction l generalizing m with
  | nil => exact h.resolve_left List.not_mem_nil
  | cons n l ih =>
    rw [List.foldl_cons]
    refine ih _ ?_
    by_cases hn : d = n
    · exact .inr (hn ▸ bit_setBit_same _ _ _)
    · refine h.imp (fun hm => (List.mem_cons.1 hm).resolve_left hn) fun hb => ?_
      rw [bit_setBit_other _ _ hn, hb]

/-- A die whose time in the ramp has come asserts its enables. -/
theorem State.rampDue_enables {s : State} {d t0 : Nat} (h : s.rp.power.t0 = some t0) (ht : t0 + 50000 * d ≤ s.now) (hd : d ∈ s.rp.power.ramp) :
    bit d s.rampDue.rp.power.coreEn = true ∧ bit d s.rampDue.rp.power.hbmEn = true := by
  have hgo : d ∈ s.rp.power.ramp.filter fun d => decide (t0 + 50000 * d ≤ s.now) := List.mem_filter.2 ⟨hd, decide_eq_true ht⟩
  unfold State.rampDue
  rw [h]
  exact ⟨bit_foldl_setBit_true _ _ (.inl hgo), bit_foldl_setBit_true _ _ (.inl hgo)⟩

theorem corePg_does {s : State} {d t0 : Nat} (h : s.rp.power.t0 = some t0) (ht : t0 + 50000 * d ≤ s.now) (hd : d ∈ s.rp.power.ramp)
    (hpg : bit d s.rp.power.corePg = false) (htrip : s.rp.power.tripped = false) :
    bit d (s.rampDue.corePgOn d).rp.power.coreEn = true ∧ bit d (s.rampDue.corePgOn d).rp.power.hbmEn = true
      ∧ bit d (s.rampDue.corePgOn d).rp.power.corePg = true ∧ bit d (s.rampDue.corePgOn d).rp.units.awake = true
      ∧ onlyRonpex s (s.rampDue.corePgOn d) := by
  obtain ⟨x, hx⟩ := s.rampDue_only
  obtain ⟨r1, r2⟩ := s.rampDue_keeps
  obtain ⟨e1, e2⟩ := State.rampDue_enables h ht hd
  obtain ⟨k1, k2, k3, k4, -, -, k7⟩ := State.corePgOn_does e1 (r2 ▸ hpg) (r1.trans htrip)
  exact ⟨k3 ▸ e1, k4 ▸ e2, k1, k2, onlyRonpex_trans (State.rampDue_frame hx).2.2 k7⟩

/-- A package that takes the token wakes its dies. -/
theorem State.wakeState_tokenTaken (s : State) (tok : Nat) : (s.tokenTaken tok).wakeState = 3 := by
  obtain ⟨x, hx⟩ := State.rampDue_only
    ((s.modPower fun x => { x with token := some (tok, s.now), t0 := some s.now }).setFld .ronpex Reg.timWake 2 2 3)
  exact (State.wakeState_of_regs (State.rampDue_frame hx).1).trans (State.wakeState_setFld _ (by omega))

theorem State.wakeState_tokenHere {s : State} (h : s.rp.power.tripped = false) (h4 : s.flag .ronpex Reg.timWake 4 = false) (tok : Nat) :
    (s.tokenHere tok).wakeState = if s.wakeState = 2 ∧ s.rp.power.wakeHeld = false ∧ s.rp.power.token = none then 3 else s.wakeState := by
  split
  next hc =>
    obtain ⟨hw, hheld, htok⟩ := hc
    rw [State.tokenHere_taken h (fun h => absurd h (by rw [h4]; decide)) hw hheld htok, State.wakeState_tokenTaken]
  next hc =>
    rw [State.tokenHere_sent h h4 hc]
    exact State.wakeState_of_regs (s.onlyTray_sendToken tok).keeps.1

/-- Settles O45, event by event of power and heat. -/
theorem powerAndHeat : Obligations.PowerAndHeat := by
  intro s
  refine ⟨fun h => congrArg Host.Outcome.next (State.alertOn_none h), fun h => ⟨congrArg Host.Outcome.next (State.alertOff_none h),
      _, rfl, State.alertOn_does h⟩, fun h => ⟨_, rfl, State.alertOff_does h⟩,
    fun t0 hoff ha => ⟨fun ht => congrArg Host.Outcome.next (State.powerReturn_early ha ht), fun ht hs h1 => alertClear_does hoff ha ht hs h1⟩,
    fun d r t0 h3 hhot hf hh hr hoff => ⟨fun ht => congrArg Host.Outcome.next (State.thermalAgain_early hf ht),
      fun ht => ⟨_, rfl, State.thermalAgain_does d.isLt hr h3 hhot hf hh hoff ht⟩⟩,
    fun k t0 hk h0 hc => ⟨fun ht => congrArg Host.Outcome.next (State.stepsClear_waits hc (.inr ht) 2),
      fun ht => ⟨_, rfl, State.stepsClear_does hk h0 hc ht, ?_, onlyRonpex_of (by simp) (by simp)⟩⟩,
    fun d t0 hc => ⟨fun ht => congrArg Host.Outcome.next (State.coolReturn_early hc ht), fun ht => ⟨_, rfl, State.coolReturn_does d.isLt hc ht⟩⟩,
    fun v w hw => ⟨fun hv h0 hq => ?_, fun hv h1 htrip => wake_waits hw hv h1 htrip⟩,
    fun tok htrip h4 => ⟨_, rfl, (s.passed_tokenHere tok).units, (s.passed_tokenHere tok).only, State.wakeState_tokenHere htrip h4 tok⟩,
    fun d t0 h ht hd hpg htrip => ⟨_, rfl, corePg_does h ht hd hpg htrip⟩, fun d h => ?_, fun d h => ?_, fun volt charge h => ?_⟩
  · rw [State.rp_links, State.rp_links, State.rpLinks_stepsClear]
  · obtain ⟨t, hx, ha⟩ := sleep_asleep hw hv h0 hq
    exact ⟨t, hx, ha.state, ha.powered, ha.ep, ha.now⟩
  · obtain ⟨h1, h2, h3, -, -, h6, h7, -⟩ := State.powerGoodLost_does d.isLt h
    exact ⟨_, rfl, h1, h2, h3, h6, h7⟩
  · obtain ⟨h1, -, -, h4, h5⟩ := State.stackTrained_does h
    exact ⟨_, rfl, congrArg Fmem.trained h1, h4, h5⟩
  · obtain ⟨h1, h2, -, h4, h5, -, -, h8, h9, -⟩ := State.supplyTrip_does h volt charge
    exact ⟨_, rfl, h1, h2, h4, h5 ▸ s.queue_pstFlush, h8, h9⟩

end Sys2Proof.Machine
end

section
/-! What a message sent leaves of the registers: all but the count of what the log lost. -/

namespace Sys2Proof.Machine

open Sys2Proof Sys2Proof.Claims

/-- The registers of the Ronpex beside the count of the entries that the log lost. -/
def State.notLost (s : State) : Nat → Nat := fun a => if a = Reg.logLost then 0 else s.reg .ronpex a

theorem regsBut_of_notLost {s t : State} (h : t.notLost = s.notLost) : regsBut s t .ronpex [Reg.logLost] := fun a ha => by
  have ha' : a ≠ Reg.logLost := fun he => ha (by simp [he])
  have hat := congrFun h a
  simp only [State.notLost] at hat
  rwa [if_neg ha', if_neg ha'] at hat

theorem State.notLost_of_regs {s t : State} (h : t.rp.regs = s.rp.regs) : t.notLost = s.notLost := by
  funext a
  unfold State.notLost
  rw [State.reg_of_regs h a]

@[simp] theorem State.notLost_ite (c : Prop) [Decidable c] (a b : State) :
    (if c then a else b).notLost = if c then a.notLost else b.notLost := apply_ite State.notLost c a b

theorem State.notLost_foldl {α : Type} (g : State → α → State) (h : ∀ t x, (g t x).notLost = t.notLost) (l : List α) (s : State) :
    (l.foldl g s).notLost = s.notLost := by
  induction l generalizing s with
  | nil => rfl
  | cons x l ih => exact (ih _).trans (h s x)

@[simp] theorem State.notLost_rpLog (s : State) (b : LogBody) : (s.rpLog b).notLost = s.notLost := by
  unfold State.rpLog
  split
  · rfl
  · funext a
    unfold State.notLost
    split
    · rfl
    next ha => exact State.reg_setFld_other _ _ _ _ _ _ _ _ (.inr (Ne.symm ha))

@[simp] theorem State.notLost_rpCond (s : State) (code origin requester port skein addr old new : Nat) :
    (s.rpCond code origin requester port skein addr old new).notLost = s.notLost := State.notLost_rpLog _ _

@[simp] theorem State.notLost_offer (s : State) (port : Nat) (x : EddyEnt) : (s.offer port x).notLost = s.notLost := rfl

@[simp] theorem State.notLost_goHome (s : State) (c : Container) : (s.goHome c).notLost = s.notLost := rfl

@[simp] theorem State.notLost_logUnrouted (s : State) (p : Nat) (c : Container) : (s.logUnrouted p c).notLost = s.notLost := by
  unfold State.logUnrouted
  dsimp only
  split
  · rfl
  · exact State.notLost_rpCond _ _ _ _ _ _ _ _ _

@[simp] theorem State.notLost_reflect (s : State) (x : EddyEnt) (noPath : Bool) : (s.reflect x noPath).notLost = s.notLost := by
  unfold State.reflect
  dsimp only
  repeat' split
  all_goals simp

@[simp] theorem State.notLost_toOutput (s : State) (r : Route) (x : EddyEnt) : (s.toOutput r x).notLost = s.notLost := by
  unfold State.toOutput
  repeat' split
  all_goals simp

@[simp] theorem State.notLost_setSource (s : State) (x : Source) : (s.setSource .ronpex x).notLost = s.notLost := rfl

@[simp] theorem State.notLost_rpSend (s : State) (h : Held) : (s.rpSend h).notLost = s.notLost := by
  unfold State.rpSend
  simp

@[simp] theorem State.notLost_rpPush (s : State) : s.rpPush.notLost = s.notLost := by
  refine State.notLost_foldl _ (fun t h => ?_) _ _
  split
  · rfl
  · exact (State.notLost_rpSend _ _).trans (State.notLost_setSource _ _)

@[simp] theorem State.notLost_rpMgmtPort (s : State) (port dest : Nat) (m : Mgmt) (own : Owner) :
    (s.rpMgmtPort port dest m own).notLost = s.notLost := State.notLost_rpPush _

@[simp] theorem State.notLost_toEndPoint (s : State) (p : Nat) (m : Mgmt) : (s.toEndPoint p m).notLost = s.notLost :=
  State.notLost_rpMgmtPort _ _ _ _ _

@[simp] theorem State.notLost_toFarEnd (s : State) (p : Nat) (m : Mgmt) : (s.toFarEnd p m).notLost = s.notLost := by
  unfold State.toFarEnd
  repeat' split
  all_goals simp

@[simp] theorem State.notLost_orderToMembers (s : State) (o : SwitchOrder) : (s.orderToMembers o).notLost = s.notLost :=
  State.notLost_foldl _ (fun t p => t.notLost_toEndPoint p _) _ _

/-- An order goes on to the members of its skeins and to the far ends of the package's other ports. -/
def State.orderOn (s : State) (src : MgmtSource) (o : SwitchOrder) : State :=
  ((s.orderToMembers o).packagePorts.filter fun p => src.tray || p != src.port).foldl (fun t p => t.toFarEnd p (.switchOrder o)) (s.orderToMembers o)

/-- An order accepted waits for its time. -/
def State.orderKept (s : State) (o : SwitchOrder) : State :=
  s.modWarp fun w => { w with orders := mergeOrder w.orders o false, seen := o :: w.seen.take 63 }

theorem State.rpOrderIn_eq {s : State} {o : SwitchOrder} (hstale : s.staleOrder o = none) (happ : s.rp.warp.applied.any (sameApplied o) = false)
    (hseen : s.rp.warp.seen.any (sameApplied o) = false) (src : MgmtSource) : s.rpOrderIn src o = (s.orderKept o).orderOn src o := by
  unfold State.rpOrderIn
  rw [hstale]
  exact if_neg (by simp [happ, hseen])

theorem State.orderOn_does (s : State) (src : MgmtSource) (o : SwitchOrder) :
    (s.orderOn src o).rpWarp = s.rpWarp ∧ (s.orderOn src o).notLost = s.notLost ∧ onlyRonpex s (s.orderOn src o) := by
  unfold State.orderOn
  refine ⟨by simp, ?_, onlyRonpex_of (by simp) (by simp)⟩
  exact (State.notLost_foldl _ (fun t p => t.notLost_toFarEnd p _) _ _).trans (s.notLost_orderToMembers o)

theorem State.warp_of_rpWarp {s t : State} (h : t.rpWarp = s.rpWarp) : t.rp.warp = { s.rp.warp with logged := t.rp.warp.logged } := by
  unfold State.rpWarp at h
  calc t.rp.warp = { ({ t.rp.warp with logged := [] } : Warp) with logged := t.rp.warp.logged } := rfl
    _ = _ := by rw [h]

/-- A Ronpex accepts an order. -/
theorem switchOrder_ronpex {s : State} {src : MgmtSource} {o : SwitchOrder} (hok : s.rpMgmtOk src 4 = true) (hstale : s.staleOrder o = none)
    (happ : s.rp.warp.applied.any (sameApplied o) = false) (hseen : s.rp.warp.seen.any (sameApplied o) = false) :
    ∃ t, exec (.switchOrder .ronpex src o) s = .next t
      ∧ t.rp.warp = { s.rp.warp with
          orders := mergeOrder s.rp.warp.orders o false, seen := o :: s.rp.warp.seen.take 63, logged := t.rp.warp.logged }
      ∧ regsBut s t .ronpex [Reg.logLost] ∧ onlyRonpex s t := by
  have hin : s.rpMgmtIn src (.switchOrder o) = s.rpOrderIn src o := if_neg (show ¬(!s.rpMgmtOk src 4) = true by rw [hok]; decide)
  obtain ⟨h1, h2, h3⟩ := (s.orderKept o).orderOn_does src o
  exact ⟨(s.orderKept o).orderOn src o, congrArg Host.Outcome.next (hin.trans (State.rpOrderIn_eq hstale happ hseen src)),
    State.warp_of_rpWarp h1, regsBut_of_notLost h2, onlyRonpex_trans ⟨rfl, rfl, rfl, rfl⟩ h3⟩

end Sys2Proof.Machine
end

section
/-! Switch orders that come into effect (R212-R215): the theorem that settles O28. -/

namespace Sys2Proof.Machine

open Sys2Proof Sys2Proof.Claims

/-! ### A Plocen accepts an order -/

/-- Only the source and the state of the warp plane of a Plocen may differ. -/
def State.onlyWarpSends (s t : State) : Prop := t = { s with ep := { s.ep with src := t.ep.src } }

theorem State.onlyWarpSends_relay (s : State) (l : List Nat) (m : Mgmt) : s.onlyWarpSends (l.foldl (fun t p => t.epMgmt p m) s) := by
  induction l generalizing s with
  | nil => rfl
  | cons p l ih =>
    have h := ih (s.epMgmt p m)
    unfold State.onlyWarpSends at *
    rw [List.foldl_cons, h]
    rfl

/-- A Plocen accepts an order of its skein. -/
theorem switchOrder_plocen {s : State} {src : MgmtSource} {o : SwitchOrder} (hok : s.epMgmtOk src.port src.node = true)
    (hseen : s.ep.warp.seenOrders.contains o = false) (hmine : bit s.epSkein o.skeins.toNat = true) :
    ∃ t, exec (.switchOrder .plocen src o) s = .next t
      ∧ t.ep.warp = { s.ep.warp with seenOrders := o :: s.ep.warp.seenOrders.take 63, orders := mergeEpOrder s.ep.warp.orders o }
      ∧ t.ep.regs = s.ep.regs ∧ onlyPlocen s t := by
  have hin : s.epMgmtIn src.port src.node (.switchOrder o) = s.epOrderIn src.port o :=
    if_neg (show ¬(!s.epMgmtOk src.port src.node) = true by rw [hok]; decide)
  have horder : s.epOrderIn src.port o = (s.modEw fun w => { w with
      seenOrders := o :: w.seenOrders.take 63, orders := mergeEpOrder w.orders o }).relayOthers src.port (.switchOrder o) := by
    unfold State.epOrderIn
    rw [hmine, hseen]
    rfl
  have hrelay := State.onlyWarpSends_relay (s.modEw fun w => { w with
    seenOrders := o :: w.seenOrders.take 63, orders := mergeEpOrder w.orders o })
    ((s.modEw fun w => { w with seenOrders := o :: w.seenOrders.take 63, orders := mergeEpOrder w.orders o }).livePlanes.filter
      fun p => p != src.port) (.switchOrder o)
  refine ⟨_, congrArg Host.Outcome.next (hin.trans horder), ?_⟩
  unfold State.relayOthers
  unfold State.onlyWarpSends at hrelay
  rw [hrelay]
  exact ⟨rfl, rfl, rfl, rfl, rfl, rfl⟩

/-! ### Orders wait for their time -/

theorem execSwitchOrderApply_eq (s : State) (p : Part) : exec (.switchOrderApply p) s = .next (s.applyOrders p) := rfl

theorem State.applyOrders_early {s : State} (h : s.now % 16384 ≠ 0) (p : Part) : s.applyOrders p = s := if_pos h

theorem State.applyOrders_ronpex {s : State} (h : s.now % 16384 = 0) : s.applyOrders .ronpex = s.rpOrdersDue :=
  if_neg (show ¬s.now % 16384 ≠ 0 by simp [h])

theorem State.applyOrders_plocen {s : State} (h : s.now % 16384 = 0) : s.applyOrders .plocen = s.epOrdersDue :=
  if_neg (show ¬s.now % 16384 ≠ 0 by simp [h])

/-- The orders of a Ronpex that wait. -/
def State.ordersLeft (s : State) (l : List PendOrder) : State := s.modWarp fun w => { w with orders := l }

theorem State.rpOrdersDue_none {s : State} {x : PendOrder} (h : s.rp.warp.orders = [x]) (hd : frameDue s.now x.o.effective = false) :
    s.rpOrdersDue = s := by
  unfold State.rpOrdersDue State.modWarp
  simp only [h, List.filter_cons, hd, List.filter_nil, Bool.not_false, if_true]
  rw [if_neg (by decide), List.foldl_nil, ← h]

theorem State.rpOrdersDue_one {s : State} {x : PendOrder} (h : s.rp.warp.orders = [x]) (hd : frameDue s.now x.o.effective = true) :
    s.rpOrdersDue = (s.ordersLeft []).rpOrderApply x.o := by
  unfold State.rpOrdersDue State.modWarp
  simp only [h, List.filter_cons, hd, List.filter_nil, Bool.not_true, if_true]
  rfl

/-! ### A Ronpex applies an order -/

/-- The registers of an order that comes into effect. -/
def State.orderRegs (s : State) (o : SwitchOrder) : State :=
  ((s.setReg .ronpex Reg.drfOrder (o.kind % 4 + 16 * (o.cls % 8) + 256 * (o.plane % 8)
    + 2 ^ 16 * satAdd 16 (s.fld .ronpex Reg.drfOrder 16 16) 1)).setReg .ronpex Reg.drfFault o.faultFrame).setReg .ronpex Reg.drfEffect o.effective

/-- An order that comes into effect is shown. -/
def State.orderShown (s : State) (o : SwitchOrder) : State := (s.orderRegs o).modWarp fun w => { w with applied := o :: w.applied.take 63 }

/-- What an order does to the plane that it names. -/
def State.orderEffect (s : State) (o : SwitchOrder) : State :=
  match o.kind with
  | 0 => s.applyPairs o.pairs
  | 1 =>
    let t := s.applyPairs o.pairs
    let t1 := if t.altValid o.cls then t.setFld .ronpex Reg.drfStat 0 3 (t.fld .ronpex (Reg.drfAlt o.cls) 0 3) else t
    if o.cls = 1 then t1.powerAlt true else t1
  | 2 => s.modWarp fun w => { w with outSkeins := bOr w.outSkeins o.skeins.toNat }
  | _ => (s.setFld .ronpex Reg.drfStat 0 3 s.rp.warp.primary).powerAlt false

/-- An order in effect is posted. -/
def State.orderPosted (s : State) (now : Nat) (o : SwitchOrder) : State :=
  s.postFor (draftEvent now 2 o.kind o.plane o.cls) (if o.kind = 3 ∨ (o.kind = 1 ∧ o.cls = 1) then 2 else 1)
    (s.activeSkeins.filter fun k => bit k o.skeins.toNat)

theorem State.reg_orderShown (s : State) (o : SwitchOrder) (a : Nat) : (s.orderShown o).reg .ronpex a = (s.orderRegs o).reg .ronpex a := rfl

/-- The frames of an order, as its registers show them. -/
theorem State.frames_orderShown (s : State) (o : SwitchOrder) :
    (s.orderShown o).reg .ronpex Reg.drfFault = o.faultFrame % 2 ^ 32
      ∧ (s.orderShown o).reg .ronpex Reg.drfEffect = o.effective % 2 ^ 32 := by
  rw [State.reg_orderShown, State.reg_orderShown, State.orderRegs]
  exact ⟨(State.reg_setReg_other _ _ _ _ _ _ (.inr (by decide))).trans (State.reg_setReg_same _ _ _ _), State.reg_setReg_same _ _ _ _⟩

theorem State.orderPosted_does (s : State) (now : Nat) (o : SwitchOrder) : (s.orderPosted now o).rp.warp = s.rp.warp
    ∧ (∀ a, a ∉ reportRegs → (s.orderPosted now o).reg .ronpex a = s.reg .ronpex a) ∧ onlyRonpex s (s.orderPosted now o) := by
  refine ⟨?_, fun a ha => State.reg_of_rpRegs (State.rpRegs_postFor _ _ _ _) ha,
    onlyRonpex_of (State.beside_postFor _ _ _ _) (State.kept_postFor _ _ _ _)⟩
  unfold State.orderPosted
  obtain ⟨o', m, k, x, h⟩ := State.postFor_only s (draftEvent now 2 o.kind o.plane o.cls)
    (if o.kind = 3 ∨ (o.kind = 1 ∧ o.cls = 1) then 2 else 1) (s.activeSkeins.filter fun k => bit k o.skeins.toNat)
  rw [h]

theorem State.rpOrderApply_eq (s : State) (o : SwitchOrder) : s.rpOrderApply o
    = (if o.plane = s.plane ∧ !s.running ∧ o.kind = 1 ∧ o.cls = 1 then
        { s.orderShown o with rp := { (s.orderShown o).rp with power := { (s.orderShown o).rp.power with hbmHeld := false } } }
      else if o.plane ≠ s.plane ∨ !s.running then s.orderShown o else (s.orderShown o).orderEffect o).orderPosted s.now o := rfl

/-- An order for the plane of a Ronpex on which a draft runs. -/
theorem State.rpOrderApply_running {s : State} {o : SwitchOrder} (hp : o.plane = s.plane) (hr : s.running = true) :
    s.rpOrderApply o = ((s.orderShown o).orderEffect o).orderPosted s.now o := by
  rw [State.rpOrderApply_eq, if_neg (by rw [hr]; simp), if_neg (by rw [hr, hp]; simp)]

theorem State.orderEffect_out {s : State} {o : SwitchOrder} (hk : o.kind = 2) :
    s.orderEffect o = s.modWarp fun w => { w with outSkeins := bOr w.outSkeins o.skeins.toNat } := by
  unfold State.orderEffect
  rw [hk]
  rfl

theorem State.orderEffect_remap {s : State} {o : SwitchOrder} (hk : o.kind = 0) : s.orderEffect o = s.applyPairs o.pairs := by
  unfold State.orderEffect
  rw [hk]
  rfl

theorem State.warp_setReg (s : State) (a v : Nat) : (s.setReg .ronpex a v).rp.warp = s.rp.warp := rfl

theorem onlyRonpex_setReg (s : State) (a v : Nat) : onlyRonpex s (s.setReg .ronpex a v) := ⟨rfl, rfl, rfl, rfl⟩

theorem onlyRonpex_modWarp (s : State) (f : Warp → Warp) : onlyRonpex s (s.modWarp f) := ⟨rfl, rfl, rfl, rfl⟩

theorem State.warp_modWarp (s : State) (f : Warp → Warp) : (s.modWarp f).rp.warp = f s.rp.warp := rfl

theorem State.orderShown_does (s : State) (o : SwitchOrder) :
    (s.orderShown o).rp.warp = { s.rp.warp with applied := o :: s.rp.warp.applied.take 63 } ∧ onlyRonpex s (s.orderShown o) := by
  unfold State.orderShown State.orderRegs
  refine ⟨?_, onlyRonpex_trans (onlyRonpex_trans (onlyRonpex_trans (onlyRonpex_setReg _ _ _) (onlyRonpex_setReg _ _ _)) (onlyRonpex_setReg _ _ _))
    (onlyRonpex_modWarp _ _)⟩
  rw [State.warp_modWarp, State.warp_setReg, State.warp_setReg, State.warp_setReg]

/-- A plane's skeins are taken out by an order. -/
def State.planeTaken (s : State) (o : SwitchOrder) : State :=
  (s.orderShown o).modWarp fun w => { w with outSkeins := bOr w.outSkeins o.skeins.toNat }

theorem State.planeTaken_does (s : State) (o : SwitchOrder) :
    (s.planeTaken o).rp.warp = { s.rp.warp with
        applied := o :: s.rp.warp.applied.take 63, outSkeins := bOr s.rp.warp.outSkeins o.skeins.toNat }
      ∧ (∀ a, (s.planeTaken o).reg .ronpex a = (s.orderShown o).reg .ronpex a) ∧ onlyRonpex s (s.planeTaken o) := by
  obtain ⟨h1, h2⟩ := s.orderShown_does o
  refine ⟨?_, fun _ => State.reg_modWarp _ _ _ _, onlyRonpex_trans h2 (onlyRonpex_modWarp _ _)⟩
  rw [State.planeTaken, State.warp_modWarp, h1]

/-- One spindle of the map is changed by an order, with its register. -/
def State.spindleMapped (s : State) (o : SwitchOrder) (k i : Nat) : State :=
  ((s.orderShown o).setReg .ronpex (Reg.drfSpmap k) (i % 32)).modWarp fun w => { w with spmap := SMap.put (fun k => k % 24) w.spmap k (i % 32) }

theorem State.spindleMapped_does (s : State) (o : SwitchOrder) (k i : Nat) :
    (s.spindleMapped o k i).rp.warp = { s.rp.warp with
        applied := o :: s.rp.warp.applied.take 63, spmap := SMap.put (fun k => k % 24) s.rp.warp.spmap k (i % 32) }
      ∧ (s.spindleMapped o k i).reg .ronpex (Reg.drfSpmap k) = i % 32 ∧ onlyRonpex s (s.spindleMapped o k i) := by
  obtain ⟨h1, h2⟩ := s.orderShown_does o
  refine ⟨?_, ?_, onlyRonpex_trans h2 (onlyRonpex_trans (onlyRonpex_setReg _ _ _) (onlyRonpex_modWarp _ _))⟩
  · rw [State.spindleMapped, State.warp_modWarp, State.warp_setReg, h1]
  · rw [State.spindleMapped, State.reg_modWarp, State.reg_setReg_same, Nat.mod_eq_of_lt (by omega)]

theorem State.rpOrderApply_out {s : State} {o : SwitchOrder} (hp : o.plane = s.plane) (hr : s.running = true) (hk : o.kind = 2) :
    s.rpOrderApply o = (s.planeTaken o).orderPosted s.now o := by
  rw [State.rpOrderApply_running hp hr, State.orderEffect_out hk, State.planeTaken]

theorem State.rpOrderApply_remap {s : State} {o : SwitchOrder} {k i : Nat} (hp : o.plane = s.plane) (hr : s.running = true) (hk : o.kind = 0)
    (hpairs : o.pairs = [(0, k, i)]) (hlt : k < 96) : s.rpOrderApply o = (s.spindleMapped o k i).orderPosted s.now o := by
  rw [State.rpOrderApply_running hp hr, State.orderEffect_remap hk, hpairs]
  exact congrArg (fun t : State => t.orderPosted s.now o) (if_pos (show (0 : Nat) = 0 ∧ k < 96 from ⟨rfl, hlt⟩))

theorem State.ordersLeft_keeps (s : State) (l : List PendOrder) : (s.ordersLeft l).plane = s.plane ∧ (s.ordersLeft l).running = s.running
    ∧ (s.ordersLeft l).now = s.now ∧ (s.ordersLeft l).rp.warp = { s.rp.warp with orders := l } ∧ onlyRonpex s (s.ordersLeft l) :=
  ⟨rfl, rfl, rfl, rfl, rfl, rfl, rfl, rfl⟩

/-- PLANE_OUT takes the plane's skeins out. -/
theorem orderApply_out {s : State} {x : PendOrder} (h0 : s.now % 16384 = 0) (h : s.rp.warp.orders = [x])
    (hd : frameDue s.now x.o.effective = true) (hp : x.o.plane = s.plane) (hr : s.running = true) (hk : x.o.kind = 2) :
    ∃ t, exec (.switchOrderApply .ronpex) s = .next t
      ∧ t.rp.warp = { s.rp.warp with
          orders := [], applied := x.o :: s.rp.warp.applied.take 63, outSkeins := bOr s.rp.warp.outSkeins x.o.skeins.toNat }
      ∧ t.reg .ronpex Reg.drfFault = x.o.faultFrame % 2 ^ 32 ∧ t.reg .ronpex Reg.drfEffect = x.o.effective % 2 ^ 32 ∧ onlyRonpex s t := by
  have hdue := (State.applyOrders_ronpex h0).trans (State.rpOrdersDue_one h hd)
  obtain ⟨l1, l2, l3, l4, l5⟩ := s.ordersLeft_keeps []
  generalize s.ordersLeft [] = u at *
  obtain ⟨p1, p2, p3⟩ := u.planeTaken_does x.o
  obtain ⟨k1, k2, k3⟩ := (u.planeTaken x.o).orderPosted_does u.now x.o
  obtain ⟨f1, f2⟩ := u.frames_orderShown x.o
  refine ⟨_, congrArg Host.Outcome.next (hdue.trans (State.rpOrderApply_out (hp.trans l1.symm) (l2.trans hr) hk)), ?_,
    (k2 _ (by decide)).trans ((p2 _).trans f1), (k2 _ (by decide)).trans ((p2 _).trans f2), onlyRonpex_trans l5 (onlyRonpex_trans p3 k3)⟩
  rw [k1, p1, l4]

/-- REMAP changes the map and its register. -/
theorem orderApply_remap {s : State} {x : PendOrder} {k i : Nat} (h0 : s.now % 16384 = 0) (h : s.rp.warp.orders = [x])
    (hd : frameDue s.now x.o.effective = true) (hp : x.o.plane = s.plane) (hr : s.running = true) (hk : x.o.kind = 0)
    (hpairs : x.o.pairs = [(0, k, i)]) (hlt : k < 96) :
    ∃ t, exec (.switchOrderApply .ronpex) s = .next t ∧ SMap.look (fun n => n % 24) t.rp.warp.spmap k = i % 32
      ∧ t.reg .ronpex (Reg.drfSpmap k) = i % 32
      ∧ (∀ j, j ≠ k → SMap.look (fun n => n % 24) t.rp.warp.spmap j = SMap.look (fun n => n % 24) s.rp.warp.spmap j)
      ∧ t.rp.warp = { s.rp.warp with orders := [], applied := x.o :: s.rp.warp.applied.take 63, spmap := t.rp.warp.spmap } ∧ onlyRonpex s t := by
  have hdue := (State.applyOrders_ronpex h0).trans (State.rpOrdersDue_one h hd)
  obtain ⟨l1, l2, l3, l4, l5⟩ := s.ordersLeft_keeps []
  generalize s.ordersLeft [] = u at *
  obtain ⟨p1, p2, p3⟩ := u.spindleMapped_does x.o k i
  obtain ⟨k1, k2, k3⟩ := (u.spindleMapped x.o k i).orderPosted_does u.now x.o
  have hwarp := k1.trans p1
  rw [l4] at hwarp
  refine ⟨_, congrArg Host.Outcome.next (hdue.trans (State.rpOrderApply_remap (hp.trans l1.symm) (l2.trans hr) hk hpairs hlt)), ?_,
    (k2 _ ?_).trans p2, fun j hj => ?_, ?_, onlyRonpex_trans l5 (onlyRonpex_trans p3 k3)⟩
  · rw [hwarp, SMap.look_put_same]
  · simp only [reportRegs, Reg.logLost, Reg.mgtEvtOvf, Reg.mgtMsixPba, Reg.drfSpmap, List.mem_cons, List.not_mem_nil, or_false, not_or]
    omega
  · rw [hwarp, SMap.look_put_other _ _ _ _ _ hj]
  · rw [hwarp]

/-! ### A Plocen applies an order -/

theorem State.closeRuns_none {s : State} (h : s.ep.warp.runs = []) : s.closeRuns = s := by
  unfold State.closeRuns
  rw [h]
  rfl

/-- The orders of a Plocen that wait. -/
def State.epOrdersLeft (s : State) (l : List SwitchOrder) : State := s.modEw fun w => { w with orders := l }

theorem State.epOrdersDue_one {s : State} {o : SwitchOrder} (h : s.ep.warp.orders = [o]) (hd : frameDue s.now o.effective = true)
    (hruns : s.ep.warp.runs = []) : s.epOrdersDue = (s.epOrdersLeft []).epOrderApply o := by
  unfold State.epOrdersDue State.modEw
  rw [State.closeRuns_none hruns]
  simp only [h, List.filter_cons, hd, List.filter_nil, Bool.not_true, if_true]
  rfl

/-- The registers of an order that comes into effect at a Plocen. -/
def State.epOrderShown (s : State) (o : SwitchOrder) : State :=
  (s.setReg .plocen Reg.epSeqWorder (o.kind + 256 * o.plane + 2 ^ 16 * satAdd 16 (s.fld .plocen Reg.epSeqWorder 16 16) 1)).setReg .plocen
    Reg.epSeqWfault o.faultFrame

/-- What an order does to the runs of a Plocen. -/
def State.epOrderRuns (s : State) (o : SwitchOrder) : State :=
  if !decide (o.kind = 0 ∨ o.kind = 2 ∨ (o.kind = 1 ∧ o.cls ≠ 1)) then s
  else s.modEw fun w => { w with
    runs := w.runs.map (s.orderRun o) ++ s.revived o, past := w.past.filter fun x => !((s.revived o).any fun r => r.pattern == x.2.pattern) }

/-- A plane is out. -/
def State.epOut (s : State) (plane : Nat) : State := s.modEw fun w => { w with out := plane :: w.out.filter fun p => p != plane }

theorem State.epOrderApply_eq (s : State) (o : SwitchOrder) : s.epOrderApply o
    = if o.kind = 1 then
        if bit 3 (s.reg .plocen (Reg.epSeqWalt o.cls)) then
          ((s.epOrderShown o).epOrderRuns o).setReg .plocen (Reg.epSeqWport o.plane) (s.reg .plocen (Reg.epSeqWalt o.cls) % 8 + 16 * o.cls)
        else ((((s.epOrderShown o).epOrderRuns o).epCond 0x08 6 0 o.plane 0 (o.cls + 16 * o.plane) o.effective 0).modEw fun w =>
          { w with idle := o.plane :: w.idle.filter fun p => p != o.plane }).epPlaneOut o.plane
      else if o.kind = 3 then
        ((s.epOrderShown o).epOrderRuns o).setReg .plocen (Reg.epSeqWport o.plane) ((s.epOrderShown o).epOrderRuns o).ep.warp.primary
      else if o.kind = 2 then
        ((((s.epOrderShown o).epOrderRuns o).epOut o.plane).ep.warp.binds.filter fun b =>
          !((((s.epOrderShown o).epOrderRuns o).epOut o.plane).bindPlanes b).isEmpty
            && ((((s.epOrderShown o).epOrderRuns o).epOut o.plane).remaining b).isEmpty).foldl (fun t b => t.endBind b.id 6 0)
              (((s.epOrderShown o).epOrderRuns o).epOut o.plane)
      else (s.epOrderShown o).epOrderRuns o := rfl

/-- PRIMARY returns the port to the primary's slot. -/
theorem State.epOrderApply_primary {s : State} {o : SwitchOrder} (hk : o.kind = 3) :
    s.epOrderApply o = (s.epOrderShown o).setReg .plocen (Reg.epSeqWport o.plane) s.ep.warp.primary := by
  have hruns : (s.epOrderShown o).epOrderRuns o = s.epOrderShown o := if_pos (by simp [hk])
  rw [State.epOrderApply_eq, if_neg (by omega), if_pos hk, hruns]
  rfl

theorem State.epOrderRuns_does (s : State) (o : SwitchOrder) : (s.epOrderRuns o).ep.warp.binds = s.ep.warp.binds
    ∧ (s.epOrderRuns o).ep.warp.orders = s.ep.warp.orders ∧ (s.epOrderRuns o).ep.warp.out = s.ep.warp.out
    ∧ (∀ a, (s.epOrderRuns o).reg .plocen a = s.reg .plocen a) ∧ (s.epOrderRuns o).ep.hanks = s.ep.hanks ∧ onlyPlocen s (s.epOrderRuns o) := by
  unfold State.epOrderRuns
  split
  · exact ⟨rfl, rfl, rfl, fun _ => rfl, rfl, rfl, rfl, rfl, rfl⟩
  · exact ⟨rfl, rfl, rfl, fun _ => rfl, rfl, rfl, rfl, rfl, rfl⟩

theorem State.epOrderApply_out {s : State} {o : SwitchOrder} (hk : o.kind = 2) (hb : s.ep.warp.binds = []) :
    s.epOrderApply o = ((s.epOrderShown o).epOrderRuns o).epOut o.plane := by
  have hbinds : (((s.epOrderShown o).epOrderRuns o).epOut o.plane).ep.warp.binds = [] :=
    ((s.epOrderShown o).epOrderRuns_does o).1.trans hb
  rw [State.epOrderApply_eq, if_neg (by omega), if_neg (by omega), if_pos hk, hbinds]
  rfl

/-- Settles O28, order by order. -/
theorem switchOrders : Obligations.SwitchOrders := by
  refine ⟨fun s src o => ⟨fun hok hstale happ hseen => switchOrder_ronpex hok hstale happ hseen, fun hok hseen hmine =>
      switchOrder_plocen hok hseen hmine⟩, fun s part h => congrArg Host.Outcome.next (State.applyOrders_early h part),
    fun s x h0 h => ⟨fun hd => congrArg Host.Outcome.next ((State.applyOrders_ronpex h0).trans (State.rpOrdersDue_none h hd)),
      fun hd hp hr => ⟨fun hk => orderApply_out h0 h hd hp hr hk, fun k i hk hpairs hlt => orderApply_remap h0 h hd hp hr hk hpairs hlt⟩⟩,
    fun s o h0 h hd hruns => ⟨fun hk hb => ?_, fun hk hplane hprim => ?_⟩⟩
  · have happly := (State.applyOrders_plocen h0).trans ((State.epOrdersDue_one h hd hruns).trans (State.epOrderApply_out hk hb))
    obtain ⟨-, k2, k3, k4, k5, k6⟩ := ((s.epOrdersLeft []).epOrderShown o).epOrderRuns_does o
    refine ⟨_, congrArg Host.Outcome.next happly, k2, ?_, (k4 _).trans (State.reg_setReg_same _ _ _ _), k5, k6⟩
    exact congrArg (fun l => o.plane :: l.filter fun q => q != o.plane) k3
  · have happly := (State.applyOrders_plocen h0).trans ((State.epOrdersDue_one h hd hruns).trans (State.epOrderApply_primary hk))
    refine ⟨_, congrArg Host.Outcome.next happly, rfl, ?_, fun j hj hne => ?_, rfl, rfl, rfl, rfl, rfl⟩
    · exact (State.reg_setReg_same _ _ _ _).trans (Nat.mod_eq_of_lt (show s.ep.warp.primary < 2 ^ 32 by omega))
    · rw [State.reg_setReg_other _ _ _ _ _ _ (.inr (by simp only [Reg.epSeqWport]; omega)), State.epOrderShown,
        State.reg_setReg_other _ _ _ _ _ _ (.inr (by simp only [Reg.epSeqWport, Reg.epSeqWfault]; omega)),
        State.reg_setReg_other _ _ _ _ _ _ (.inr (by simp only [Reg.epSeqWport, Reg.epSeqWorder]; omega))]
      rfl

end Sys2Proof.Machine
end

section
/-! Log copies, the tray chain and the persistent store (R396-R402): the theorem that settles O52. -/

namespace Sys2Proof.Machine

open Sys2Proof Sys2Proof.Claims

/-! ### Log copies -/

theorem State.rpLog_supplied {s : State} (h : s.rp.power.supplyLost = false) (b : LogBody) :
    (s.rpLog b).rp.log = s.rp.log.append 262144 Config.ronpexSerial b ∧ regsBut s (s.rpLog b) .ronpex [Reg.logLost]
      ∧ s.rpLog b = { s with rp := { s.rp with regs := (s.rpLog b).rp.regs, log := (s.rpLog b).rp.log } } := by
  have hlog := s.logged_rpLog b
  refine ⟨?_, hlog.regs, hlog.frame⟩
  unfold State.rpLog
  rw [if_neg (by rw [h]; decide)]
  rfl

theorem State.logCopy_eq (s : State) (src : MgmtSource) (e : LogEntry) : s.rpMgmtIn src (.logCopy e)
    = s.rpLog (if s.rpMgmtOk src 9 = true then { e.body with origin := 7, requester := src.node } else violBody s.now src.node src.port 0 9 0) := by
  have heq : s.rpMgmtIn src (.logCopy e) = if (!s.rpMgmtOk src 9) = true then s.mgmtRefused .ronpex src.port src.node 9
      else s.rpLogCopy src.node e.body := rfl
  rw [heq]
  cases s.rpMgmtOk src 9 <;> rfl

/-! ### Frames of the tray chain -/

/-- What a frame is acted on by: the frames seen in the last millisecond. -/
def State.recentFrames (s : State) : List (Nat × Nat × Nat) := s.rp.tray.seen.filter fun x => decide (s.now < x.2.2 + 1000000)

/-- A frame is acted on once, by the package that it names. -/
def State.frameActs (s : State) (f : TrayFrame) : Bool :=
  (f.dst == s.trayPos || f.dst == 255) && !(s.recentFrames.any fun x => x.1 == f.src && x.2.1 == f.fseq)

/-- The frames seen. -/
def State.seenSet (s : State) (l : List (Nat × Nat × Nat)) : State := s.modTray fun t => { t with seen := l }

/-- A frame is acted on where it is. -/
def State.frameActed (s : State) (port : Nat) (f : TrayFrame) : State :=
  if s.frameActs f then (s.seenSet (s.recentFrames ++ [(f.src, f.fseq, s.now)])).trayAct port f else s.seenSet s.recentFrames

theorem State.trayIn_eq (s : State) (port : Nat) (f : TrayFrame) : s.trayIn port f
    = if !s.trayUp port ∨ f.crc ≠ trayCrc f ∨ f.src = s.trayPos ∧ f.ftype ≠ 2 ∨ f.ftype = 0 then s
      else if f.ftype = 2 ∧ (f.dst = 255 ∨ port = 0) ∨ f.src = s.trayPos ∨ f.dst = s.trayPos ∨ f.hops ≤ 1 then s.frameActed port f
      else (s.frameActed port f).trayOut (1 - port) { f with hops := f.hops - 1 } := by
  have hacted : (if s.frameActs f then
        (s.seenSet (if s.frameActs f then s.recentFrames ++ [(f.src, f.fseq, s.now)] else s.recentFrames)).trayAct port f
      else s.seenSet (if s.frameActs f then s.recentFrames ++ [(f.src, f.fseq, s.now)] else s.recentFrames)) = s.frameActed port f := by
    unfold State.frameActed
    cases s.frameActs f <;> rfl
  rw [← hacted]
  rfl

/-- A frame that has been seen in the last millisecond, or names another package, is not acted on. -/
theorem State.frameActs_seen {s : State} {f : TrayFrame} (h : ∃ x ∈ s.rp.tray.seen, x.1 = f.src ∧ x.2.1 = f.fseq ∧ s.now < x.2.2 + 1000000) :
    s.frameActs f = false := by
  obtain ⟨x, hx, h1, h2, h3⟩ := h
  have hany : (s.recentFrames.any fun x => x.1 == f.src && x.2.1 == f.fseq) = true :=
    List.any_eq_true.2 ⟨x, List.mem_filter.2 ⟨hx, decide_eq_true h3⟩, by simp [h1, h2]⟩
  unfold State.frameActs
  rw [hany]
  simp

theorem State.frameActs_other {s : State} {f : TrayFrame} (h1 : f.dst ≠ s.trayPos) (h2 : f.dst ≠ 255) : s.frameActs f = false := by
  simp [State.frameActs, h1, h2]

theorem State.frameActs_first {s : State} {f : TrayFrame} (h : f.dst = s.trayPos ∨ f.dst = 255)
    (hnew : ∀ x ∈ s.rp.tray.seen, x.1 = f.src → x.2.1 = f.fseq → x.2.2 + 1000000 ≤ s.now) : s.frameActs f = true := by
  have hany : (s.recentFrames.any fun x => x.1 == f.src && x.2.1 == f.fseq) = false := by
    refine List.any_eq_false.2 fun x hx hc => ?_
    obtain ⟨hmem, hlt⟩ := List.mem_filter.1 hx
    simp only [Bool.and_eq_true, beq_iff_eq] at hc
    have hle := hnew x hmem hc.1 hc.2
    simp only [decide_eq_true_eq] at hlt
    omega
  unfold State.frameActs
  rw [hany]
  simpa using h

theorem State.trayIn_damaged {s : State} {f : TrayFrame} (h : f.crc ≠ trayCrc f) (port : Nat) : s.trayIn port f = s := by
  rw [State.trayIn_eq, if_pos (.inr (.inl h))]

theorem State.trayIn_own {s : State} {f : TrayFrame} (h : f.src = s.trayPos) (ht : f.ftype ≠ 2) (port : Nat) : s.trayIn port f = s := by
  rw [State.trayIn_eq, if_pos (.inr (.inr (.inl ⟨h, ht⟩)))]

/-- A frame for another package travels on. -/
theorem State.trayIn_passes {s : State} {port : Nat} {f : TrayFrame} (hup : s.trayUp port = true) (hcrc : f.crc = trayCrc f)
    (h0 : f.ftype ≠ 0) (h2 : f.ftype ≠ 2) (hsrc : f.src ≠ s.trayPos) (hdst : f.dst ≠ s.trayPos) (h255 : f.dst ≠ 255) (hhops : 1 < f.hops)
    (hother : s.trayUp (1 - port) = true) :
    s.trayIn port f = (s.seenSet s.recentFrames).emit (trayOutput (1 - port) { f with hops := f.hops - 1 }) := by
  have hacted : s.frameActed port f = s.seenSet s.recentFrames := if_neg (by rw [State.frameActs_other hdst h255]; decide)
  rw [State.trayIn_eq, if_neg (by simp [hup, hcrc, hsrc, h0]), if_neg (by simp [h2, hsrc, hdst, hhops]), hacted]
  exact State.trayOut_up (s := s.seenSet s.recentFrames) hother _

/-- A frame for this package ends here. -/
theorem State.trayIn_ends {s : State} {port : Nat} {f : TrayFrame} (hup : s.trayUp port = true) (hcrc : f.crc = trayCrc f)
    (h0 : f.ftype ≠ 0) (hsrc : f.src ≠ s.trayPos ∨ f.ftype = 2)
    (hend : f.ftype = 2 ∧ (f.dst = 255 ∨ port = 0) ∨ f.src = s.trayPos ∨ f.dst = s.trayPos ∨ f.hops ≤ 1) :
    s.trayIn port f = s.frameActed port f := by
  rw [State.trayIn_eq, if_neg ?_, if_pos hend]
  rintro (h | h | ⟨h, h'⟩ | h)
  · simp [hup] at h
  · exact h hcrc
  · exact hsrc.elim (fun k => k h) h'
  · exact h0 h

/-- A message for this package is taken from the tray chain. -/
theorem State.frameActed_mgmt {s : State} {port : Nat} {f : TrayFrame} {m : Mgmt} (ht : f.ftype = 1) (hm : f.mgmt = some m)
    (hact : s.frameActs f = true) : s.frameActed port f
      = (s.seenSet (s.recentFrames ++ [(f.src, f.fseq, s.now)])).rpMgmtIn { port := 192 + port, node := f.src, tray := true } m := by
  rw [State.frameActed, if_pos hact]
  unfold State.trayAct
  rw [ht, hm]
  rfl

theorem State.frameActed_token {s : State} {port : Nat} {f : TrayFrame} (ht : f.ftype = 2) (hact : s.frameActs f = true) :
    s.frameActed port f = (s.seenSet (s.recentFrames ++ [(f.src, f.fseq, s.now)])).tokenHere (fieldNat f.body 0 1 % 2) := by
  rw [State.frameActed, if_pos hact]
  unfold State.trayAct
  rw [ht]
  rfl

/-- A token that reaches this package. -/
theorem token_acts {s : State} {port : Fin 2} {f : TrayFrame} {tok : Nat} (hup : s.trayUp port = true) (hcrc : f.crc = trayCrc { f with ftype := 2 })
    (htok : fieldNat f.body 0 1 % 2 = tok) (hdst : f.dst = s.trayPos ∨ f.dst = 255)
    (hnew : ∀ x ∈ s.rp.tray.seen, x.1 = f.src → x.2.1 = f.fseq → x.2.2 + 1000000 ≤ s.now) :
    exec (.token port f) s = .next ((s.seenSet (s.recentFrames ++ [(f.src, f.fseq, s.now)])).tokenHere tok) := by
  have hact : s.frameActs { f with ftype := 2 } = true := State.frameActs_first (f := { f with ftype := 2 }) hdst hnew
  have hend : s.trayIn port { f with ftype := 2 } = s.frameActed port { f with ftype := 2 } :=
    State.trayIn_ends (f := { f with ftype := 2 }) hup hcrc (Nat.succ_ne_zero 1) (.inr rfl) (hdst.elim (fun h => .inr (.inr (.inl h))) fun h => .inl ⟨rfl, .inl h⟩)
  refine congrArg Host.Outcome.next (hend.trans ((State.frameActed_token rfl hact).trans ?_))
  rw [← htok]

/-! ### Tokens -/

/-- A package that takes the token shows it. -/
theorem State.tokenTaken_shown (s : State) (tok : Nat) :
    (s.tokenTaken tok).rp.power.token = some (tok, s.now) ∧ (s.tokenTaken tok).rp.power.t0 = some s.now ∧ (s.tokenTaken tok).out = s.out
      ∧ regsBut s (s.tokenTaken tok) .ronpex [Reg.timWake] ∧ onlyRonpex s (s.tokenTaken tok) := by
  have hramp (u : State) : u.rampDue.rp.power.token = u.rp.power.token ∧ u.rampDue.rp.power.t0 = u.rp.power.t0 ∧ u.rampDue.out = u.out
      ∧ (∀ a, u.rampDue.reg .ronpex a = u.reg .ronpex a) ∧ onlyRonpex u u.rampDue := by
    unfold State.rampDue
    split
    · exact ⟨rfl, rfl, rfl, fun _ => rfl, rfl, rfl, rfl, rfl⟩
    · exact ⟨rfl, rfl, rfl, fun _ => rfl, rfl, rfl, rfl, rfl⟩
  obtain ⟨h1, h2, h3, h4, h5⟩ := hramp
    ((s.modPower fun x => { x with token := some (tok, s.now), t0 := some s.now }).setFld .ronpex Reg.timWake 2 2 3)
  refine ⟨h1, h2, h3, fun a ha => ?_, onlyRonpex_trans (t := (s.modPower fun x =>
    { x with token := some (tok, s.now), t0 := some s.now }).setFld .ronpex Reg.timWake 2 2 3) ⟨rfl, rfl, rfl, rfl⟩ h5⟩
  have hne : Reg.timWake ≠ a := fun he => ha (by simp [he])
  exact (h4 a).trans (State.reg_setFld_other _ _ _ _ _ _ _ _ (.inr hne))

theorem SMap.look_set_same {α : Type} (d : Nat → α) (m : SMap α) (k : Nat) (v : α) : SMap.look d (SMap.set m k v) k = v :=
  SMap.look_insert_same d _ k v (SMap.drop_ne m k)

/-- The master of the chain sends a token that reaches it on. -/
theorem State.tokenHere_master {u : State} {tok : Nat} (k4 : u.flag .ronpex Reg.timWake 4 = true) (k5 : u.flag .ronpex Reg.timWake 5 = true)
    (kw : u.wakeState ≠ 2) (kt : u.rp.power.tripped = false) (kup : u.trayUp 0 = true) : u.tokenHere tok
      = ((u.modTray fun t => { t with tokenAt := SMap.set t.tokenAt tok u.now }).modTray fun t => { t with fseq := (t.fseq + 1) % 2 ^ 16 }).emit
          (trayOutput 0 (u.tokenFrame tok)) := by
  unfold State.tokenHere State.sendToken
  rw [if_neg (by rw [kt]; decide), if_neg (by rw [k5]; simp), if_neg fun hc => kw hc.1]
  dsimp only
  rw [if_neg (by rw [k5]; simp), if_pos k4]
  exact State.trayOut_up (s := (u.modTray fun t => { t with tokenAt := SMap.set t.tokenAt tok u.now }).modTray fun t =>
    { t with fseq := (t.fseq + 1) % 2 ^ 16 }) kup _

/-- A token is made. -/
def State.tokenMade (s : State) (tok : Nat) : State :=
  s.modTray fun t => { t with tokenAt := SMap.set t.tokenAt tok s.now, tokens := (t.tokens.filter fun x => x != tok) ++ [tok] }

/-- The master of the chain makes a token that has been lost again. -/
theorem tokenRegen_does {s : State} {tok : Nat} (h4 : s.flag .ronpex Reg.timWake 4 = true) (h5 : s.flag .ronpex Reg.timWake 5 = true)
    (hn : s.rp.power.token = none) (hw : s.wakeState ≠ 2) (hup : s.trayUp 0 = true) (ht : s.rp.power.tripped = false)
    (hlate : SMap.look (fun _ => 0) s.rp.tray.tokenAt tok + 10000000 ≤ s.now) :
    (s.tokenAgain tok).out = trayOutput 0 (s.tokenFrame tok) :: s.out ∧ SMap.look (fun _ => 0) (s.tokenAgain tok).rp.tray.tokenAt tok = s.now
      ∧ (s.tokenAgain tok).rp.regs = s.rp.regs ∧ onlyRonpex s (s.tokenAgain tok) := by
  have hnew : s.tokenAgain tok = s.newToken tok := if_pos (by simp [h4, h5, hn, hlate])
  have hregs : (s.tokenMade tok).rp.regs = s.rp.regs := rfl
  have hmade := State.tokenHere_master (u := s.tokenMade tok) (tok := tok) ((State.flag_congr (State.reg_of_regs hregs _) 4).trans h4)
    ((State.flag_congr (State.reg_of_regs hregs _) 5).trans h5)
    (fun h => hw ((State.wakeState_of_regs hregs).symm.trans h)) ht hup
  have heq : s.newToken tok = (s.tokenMade tok).tokenHere tok := rfl
  have honly : onlyRonpex s (s.tokenAgain tok) := onlyRonpex_of (by simp) (by simp)
  rw [hnew, heq, hmade] at honly ⊢
  exact ⟨rfl, SMap.look_set_same _ _ _ _, hregs, honly⟩

/-! ### The ports of the chain -/

theorem State.trayLink_down (s : State) (port : Fin 2) : (s.trayLink port false).trayUp port = false
    ∧ (s.trayLink port false).trayUp (1 - port.val) = s.trayUp (1 - port.val)
    ∧ s.trayLink port false = { s with rp := { s.rp with tray := { s.rp.tray with link := (s.trayLink port false).rp.tray.link } } } := by
  fin_cases port <;> exact ⟨rfl, rfl, rfl⟩

/-- A port of the chain that comes up. -/
theorem State.trayLink_up (s : State) (port : Fin 2) : ∃ g, (s.trayLink port true).trayUp port = true
    ∧ (s.trayLink port true).trayUp (1 - port.val) = s.trayUp (1 - port.val) ∧ (s.trayLink port true).out = trayOutput port g :: s.out ∧ g.ftype = 4
    ∧ g.body = leBytes 8 Config.ronpexSerial.toNat ++ leBytes 1 s.trayPos
    ∧ s.trayLink port true = { s with out := (s.trayLink port true).out, rp := { s.rp with tray := (s.trayLink port true).rp.tray } } := by
  refine ⟨(s.modTray fun t => { t with link := if port.val = 0 then (true, t.link.2) else (t.link.1, true) }).trayFrame port 4
    (leBytes 8 Config.ronpexSerial.toNat ++ leBytes 1 s.trayPos), ?_⟩
  fin_cases port <;> exact ⟨rfl, rfl, rfl, rfl, rfl, rfl⟩

/-! ### The persistent store -/

theorem State.pstPersist_empty {s : State} (h : s.rp.pst.queue = []) : s.pstPersist = s := by
  unfold State.pstPersist
  rw [h]

/-- The store with one write fewer that waits. -/
def State.queueLeft (s : State) (q : List (Nat × Word)) : State := { s with rp := { s.rp with pst := { s.rp.pst with queue := q } } }

theorem State.pstPersist_first {s : State} {a : Nat} {v : Word} {q : List (Nat × Word)} (h : s.rp.pst.queue = (a, v) :: q) :
    s.pstPersist = (s.queueLeft q).pstCell a v.toNat := by
  unfold State.pstPersist
  rw [h]
  rfl

theorem Pst.wearOf_written (p : Pst) (a v : Nat) : (p.written a v).wearOf a = p.wearOf a + 1 :=
  SMap.look_put_same (fun _ => 0) p.wear (pstIndex a) (p.wearOf a + 1)

/-- The first write that waits is made. -/
theorem pstPersist_does {s : State} {a : Nat} {v : Word} {q : List (Nat × Word)} (h : s.rp.pst.queue = (a, v) :: q)
    (hl : s.rp.pst.locked a = false) :
    s.pstPersist.rp.pst.queue = q ∧ SMap.look pstDefault s.pstPersist.rp.pst.words a = v
      ∧ s.pstPersist.rp.pst.wearOf a = s.rp.pst.wearOf a + 1
      ∧ (∀ b, b ≠ a → SMap.look pstDefault s.pstPersist.rp.pst.words b = SMap.look pstDefault s.rp.pst.words b)
      ∧ s.pstPersist.rp.links = s.rp.links ∧ onlyRonpex s s.pstPersist := by
  have hlocked : (s.queueLeft q).rp.pst.locked a = false := hl
  obtain ⟨k1, -, -, -, k5, -, k7⟩ := State.persisted_pstCell hlocked v.toNat
  rw [State.pstPersist_first h, k1]
  refine ⟨rfl, ?_, Pst.wearOf_written _ _ _, fun b hb => SMap.look_put_other _ _ _ _ _ hb, ?_, onlyRonpex_trans (t := s.queueLeft q)
    ⟨rfl, rfl, rfl, rfl⟩ k7⟩
  · refine (SMap.look_put_same _ _ _ _).trans ?_
    rw [BitVec.ofNat_toNat, BitVec.setWidth_eq]
  · exact (State.rp_links _).trans (k5.trans (State.rp_links _).symm)

/-- An hour is counted. -/
theorem hoursTick_does {s : State} (hl : s.rp.pst.locked Reg.pstHours = false) (hq : ∀ e ∈ s.rp.pst.queue, e.1 ≠ Reg.pstHours) :
    (s.pstCount Reg.pstHours 0 32).rp.pst.word Reg.pstHours = satAdd 32 (s.rp.pst.word Reg.pstHours) 1
      ∧ (∀ b, b ≠ Reg.pstHours → (s.pstCount Reg.pstHours 0 32).rp.pst.word b = s.rp.pst.word b)
      ∧ (s.pstCount Reg.pstHours 0 32).rp.links = s.rp.links ∧ onlyRonpex s (s.pstCount Reg.pstHours 0 32) := by
  have heq : s.pstCount Reg.pstHours 0 32 = s.pstCell Reg.pstHours (setBits 0 32
      (satAdd 32 (bits 0 32 (s.rp.pst.word Reg.pstHours)) 1) (s.rp.pst.word Reg.pstHours)) := if_neg (by rw [hl]; decide)
  have hlt : s.rp.pst.word Reg.pstHours < 2 ^ 32 := by
    rw [Pst.word_of_queue hq]
    exact BitVec.isLt _
  obtain ⟨k1, -, -, -, k5, -, k7⟩ := State.persisted_pstCell hl (setBits 0 32
      (satAdd 32 (bits 0 32 (s.rp.pst.word Reg.pstHours)) 1) (s.rp.pst.word Reg.pstHours))
  rw [heq, k1]
  refine ⟨?_, fun b hb => Pst.word_written_other _ hb _, (State.rp_links _).trans (k5.trans (State.rp_links _).symm), k7⟩
  rw [Pst.word_written_same hq]
  unfold bits satAdd at *
  rw [setBits_eq]
  omega

/-- Settles O52, row by row of the log, the tray chain and the persistent store. -/
theorem logTrayStore : Obligations.LogTrayStore := by
  intro s
  refine ⟨fun src e h => ?_, fun port f h => congrArg Host.Outcome.next (State.trayIn_damaged h port),
    fun port f hup hcrc h0 h2 => ⟨fun h => congrArg Host.Outcome.next (State.trayIn_own h h2 port), fun hsrc hdst h255 hhops hother => ?_,
      fun m hsrc hdst ht hm hnew => ?_⟩, fun port f hup hcrc hdst hseen => ?_,
    fun port f tok hup hcrc htok hdst htrip hnew => ⟨fun h45 hw hh ht => ?_, fun hw h4 hup0 => ?_⟩,
    fun tok h4 h5 hn hw hup ht => ⟨fun hlate => ⟨_, rfl, tokenRegen_does h4 h5 hn hw hup ht hlate⟩, fun hearly => ?_⟩,
    fun port => ⟨⟨_, rfl, s.trayLink_down port⟩, ?_⟩, fun h => congrArg Host.Outcome.next (State.pstPersist_empty h),
    fun a v q h hl => ⟨_, rfl, pstPersist_does h hl⟩, fun hl hq => ⟨_, rfl, hoursTick_does hl hq⟩⟩
  · obtain ⟨k1, k2, k3⟩ := State.rpLog_supplied h
      (if s.rpMgmtOk src 9 = true then { e.body with origin := 7, requester := src.node } else violBody s.now src.node src.port 0 9 0)
    exact ⟨_, congrArg Host.Outcome.next (s.logCopy_eq src e), k2, k1, k3⟩
  · exact ⟨_, congrArg Host.Outcome.next (State.trayIn_passes hup hcrc h0 h2 hsrc hdst h255 hhops hother), rfl, rfl⟩
  · have hact := State.frameActs_first (.inl hdst) hnew
    exact ⟨s.recentFrames ++ [(f.src, f.fseq, s.now)], List.mem_append_right _ (List.mem_singleton_self _),
      congrArg Host.Outcome.next ((State.trayIn_ends hup hcrc h0 (.inl hsrc) (.inr (.inr (.inl hdst)))).trans (State.frameActed_mgmt ht hm hact))⟩
  · have hact : s.frameActs { f with ftype := 2 } = false := State.frameActs_seen (f := { f with ftype := 2 }) hseen
    have hacted : s.frameActed port { f with ftype := 2 } = s.seenSet s.recentFrames := if_neg (by rw [hact]; decide)
    exact ⟨s.seenSet s.recentFrames, congrArg Host.Outcome.next ((State.trayIn_ends (f := { f with ftype := 2 }) hup hcrc (Nat.succ_ne_zero 1) (.inr rfl)
      (.inl ⟨rfl, .inl hdst⟩)).trans hacted), rfl⟩
  · have hx := token_acts hup hcrc htok hdst hnew
    refine ⟨_, hx.trans (congrArg Host.Outcome.next (State.tokenHere_taken (s := s.seenSet (s.recentFrames ++ [(f.src, f.fseq, s.now)]))
      htrip h45 hw hh ht tok)), State.wakeState_tokenTaken _ _, ?_⟩
    exact State.tokenTaken_shown (s.seenSet (s.recentFrames ++ [(f.src, f.fseq, s.now)])) tok
  · have hx := token_acts hup hcrc htok hdst hnew
    obtain ⟨hregs, hpower, -, -, -, -, honly⟩ := ((s.seenSet (s.recentFrames ++ [(f.src, f.fseq, s.now)])).onlyTray_sendToken tok).keeps
    exact ⟨_, hx.trans (congrArg Host.Outcome.next (State.tokenHere_sent (s := s.seenSet (s.recentFrames ++ [(f.src, f.fseq, s.now)])) htrip h4
      fun hc => hw hc.1)), State.sendToken_out (s := s.seenSet (s.recentFrames ++ [(f.src, f.fseq, s.now)])) h4 hup0 tok, hpower, hregs, honly⟩
  · exact congrArg Host.Outcome.next (if_neg (by simp; omega))
  · obtain ⟨g, k1, k2, k3, k4, k5, k6⟩ := s.trayLink_up port
    exact ⟨_, g, rfl, k1, k2, k3, k4, k5, k6⟩

end Sys2Proof.Machine
end

section
/-! A register write and the command of the same row (R16, R125): the refutation of O55. -/

namespace Sys2Proof.Machine

open Sys2Proof Sys2Proof.Claims

/-- A Plocen whose attach link is active, with a ring that is not ready and has a deficit left. -/
def deficitState : State :=
  { State.reset with ep := { State.reset.ep with att := { State.reset.ep.att with active := true }, rings := [(5, { deficit := 1 })] } }

/-- The deficit of ring 5 after a step. -/
def deficitAfter : Host.Outcome State Fault Refusal → Option Nat
  | .next t => some (t.ring 5).deficit
  | _ => none


/-- The write leaves the deficit. -/
theorem deficitAfter_write :
    deficitAfter (exec (.registerWrite .plocen Reg.epXltCtl 4 0 { origin := 8, requester := 0 }) deficitState) = some 1 := by
  decide +kernel

/-- The command of the row takes it. -/
theorem deficitAfter_xltEnable : deficitAfter (exec (.xltEnable 0 { origin := 8, requester := 0 }) deficitState) = some 0 := by
  decide +kernel

/-- Refutes O55: a write of EP_XLT.CTL as a register leaves the deficit of a ring that is not ready, and XLT_ENABLE, the row of its own,
takes it away. -/
theorem not_registerWrites : ¬ Obligations.RegisterWrites := by
  intro h
  obtain ⟨-, -, -, -, -, -, -, -, -, -, -, -, hxlt, -⟩ := h deficitState 0 { origin := 8, requester := 0 }
  have hsame := congrArg deficitAfter hxlt
  rw [deficitAfter_write, show (BitVec.setWidth 32 (0 : BitVec 64)) = 0 from rfl, deficitAfter_xltEnable] at hsame
  exact absurd hsame (by decide)

end Sys2Proof.Machine
end

section
/-! A cause that does not fit its register (R278, R330): the refutation of O33. -/

namespace Sys2Proof.Machine

open Sys2Proof Sys2Proof.Claims

/-- The link of a port in training whose key agreement has failed with a cause of 256, which no step gives. -/
def widestCauseLink : Link := { lmcQ := [.key 7 0 []], keys := { failed := some 256 } }

/-- Port 0 of the Ronpex in training, with that link. -/
def widestCause : State := (State.reset.setReg .ronpex (psBase .ronpex 0 + 4) 1).setLink .ronpex 0 widestCauseLink

theorem link_widestCause : widestCause.link .ronpex 0 = widestCauseLink := rfl

theorem lmcAt_widestCause : (widestCause.link .ronpex 0).lmcAt = none := rfl

theorem lmcRuns_widestCause : widestCause.lmcRuns .ronpex 0 = true := by decide +kernel

theorem skyNow_widestCause : widestCause.skyNow .ronpex 0 = false := by decide +kernel

theorem portState_widestCause : widestCause.portState .ronpex 0 = 1 := by decide +kernel

theorem State.fld_lt (s : State) (p : Part) (a lo len : Nat) : s.fld p a lo len < 2 ^ len := Nat.mod_lt _ (Nat.two_pow_pos len)

/-- Refutes O33: ABORT goes out for an agreement that failed with a CAUSE of 256, and the port that then goes DOWN cannot show that CAUSE
in 8 bits. -/
theorem not_linkTraining : ¬ Obligations.LinkTraining := by
  intro h
  obtain ⟨-, -, -, -, hsend, -⟩ := h widestCause .ronpex 0 (psBase .ronpex 0) rfl (by decide)
  have hstate := portState_widestCause
  obtain ⟨t, -, hdown, -⟩ := hsend 256 [] lmcRuns_widestCause skyNow_widestCause (fun t0 h0 => absurd (lmcAt_widestCause.symm.trans h0)
    (Option.some_ne_none t0).symm) rfl rfl (by decide) (by
      show widestCause.portState .ronpex 0 ≠ 5
      omega) (by
      show widestCause.portState .ronpex 0 ≠ 6
      omega)
  obtain ⟨-, hcause, -⟩ := hdown
  have hlt := t.fld_lt .ronpex (psBase .ronpex (0 : Fin 192) + 4) 8 8
  omega

end Sys2Proof.Machine
end

section
/-! The links of a part's ports (R266, R278): what reports leave of them, and a port that goes DOWN. -/

namespace Sys2Proof.Machine

open Sys2Proof Sys2Proof.Claims

/-! ### Addresses -/

/-- A register of the port sets of a part. -/
def linkReg (p : Part) (a : Nat) : Prop :=
  match p with
  | .ronpex => 0x5000000 ≤ a
  | .plocen => 0x61000 ≤ a ∧ a < 0x6D000

theorem linkReg_psBase (p : Part) {port k : Nat} (hp : port < 192) (hk : k < 0x100) : linkReg p (psBase p port + k) := by
  cases p
  · show 0x5000000 ≤ portSetBase port + k
    unfold portSetBase engineBase
    omega
  · show 0x61000 ≤ epPortSetBase port + k ∧ epPortSetBase port + k < 0x6D000
    unfold epPortSetBase
    omega

theorem psBase_ne (p : Part) {port q i j : Nat} (hne : q ≠ port) (hi : i < 0x100) (hj : j < 0x100) :
    psBase p q + i ≠ psBase p port + j := by
  cases p
  · show portSetBase q + i ≠ portSetBase port + j
    unfold portSetBase engineBase
    omega
  · show epPortSetBase q + i ≠ epPortSetBase port + j
    unfold epPortSetBase
    omega

theorem linkReg_unreported {a : Nat} (h : linkReg .ronpex a) : a ∉ reportRegs := notMem_reportRegs (show 0x1000000 ≤ a by
  have : 0x5000000 ≤ a := h
  omega)

theorem linkReg_epUnreported {a : Nat} (h : linkReg .plocen a) : a ∉ epReportRegs := by
  obtain ⟨h1, h2⟩ : 0x61000 ≤ a ∧ a < 0x6D000 := h
  simp only [epReportRegs, List.mem_cons, List.not_mem_nil, or_false, not_or, Reg.epAttErrcnt, Reg.epAttErr, Reg.epOptErr, Reg.epSecErr,
    Reg.epSeqLost, Reg.epSeqWcnt, Reg.epHnkFence, Reg.epSecLogCopylost, Reg.epSeqDupLo, Reg.epSeqDupHi, Reg.epSeqReflLo, Reg.epSeqReflHi,
    Reg.epSeqRefuseLo, Reg.epSeqRefuseHi, Reg.epSeqToutLo, Reg.epSeqToutHi]
  omega

theorem portBase_lt {n : Nat} (hn : n < 192) (k : Nat) (hk : k < 0x10000) : portBase n + k < 0x5000000 := by
  unfold portBase
  omega

theorem portBase_not_linkReg {n : Nat} (hn : n < 192) : ¬linkReg .ronpex (portBase n) := by
  have := portBase_lt hn 0 (by omega)
  show ¬0x5000000 ≤ portBase n
  omega

theorem onlyPart_trans {p : Part} {s t u : State} (h : onlyPart p s t) (k : onlyPart p t u) : onlyPart p s u := by
  cases p
  · exact onlyRonpex_trans h k
  · obtain ⟨h1, h2, h3, h4⟩ := h
    obtain ⟨k1, k2, k3, k4⟩ := k
    exact ⟨k1.trans h1, k2.trans h2, k3.trans h3, k4.trans h4⟩

theorem onlyPart_refl (p : Part) (s : State) : onlyPart p s s := by
  cases p <;> exact ⟨rfl, rfl, rfl, rfl⟩

theorem now_of_onlyPart {p : Part} {s t : State} (h : onlyPart p s t) : t.now = s.now := by
  cases p
  · exact h.2.2.1
  · exact h.2.2.1

/-! ### What reports leave of the ports -/

/-- The port sets, the port units and the links of a part are as before. -/
structure State.LinksQuiet (p : Part) (s t : State) : Prop where
  regs : ∀ a, linkReg p a → t.reg p a = s.reg p a
  units : p = .ronpex → ∀ n < 192, t.reg .ronpex (portBase n) = s.reg .ronpex (portBase n)
  links : ∀ q, t.link p q = s.link p q
  only : onlyPart p s t

theorem State.LinksQuiet.refl (p : Part) (s : State) : State.LinksQuiet p s s :=
  ⟨fun _ _ => rfl, fun _ _ _ => rfl, fun _ => rfl, onlyPart_refl p s⟩

theorem State.LinksQuiet.trans {p : Part} {s t u : State} (h : State.LinksQuiet p s t) (k : State.LinksQuiet p t u) : State.LinksQuiet p s u :=
  ⟨fun a ha => (k.regs a ha).trans (h.regs a ha), fun hp n hn => (k.units hp n hn).trans (h.units hp n hn),
    fun q => (k.links q).trans (h.links q), onlyPart_trans h.only k.only⟩

theorem State.link_of_rpLinks {s t : State} (h : t.rpLinks = s.rpLinks) (q : Nat) : t.link .ronpex q = s.link .ronpex q := by
  show SMap.look _ t.rp.links q = SMap.look _ s.rp.links q
  rw [State.rp_links, State.rp_links, h]

theorem State.link_of_epPorts {s t : State} (h : t.epPorts = s.epPorts) (q : Nat) : t.link .plocen q = s.link .plocen q := by
  have hlinks : t.ep.links = s.ep.links := congrArg Prod.fst h
  show SMap.look _ t.ep.links q = SMap.look _ s.ep.links q
  rw [hlinks]

theorem State.linksQuiet_ronpex {s t : State} (h : t.rpRegs = s.rpRegs) (hl : t.rpLinks = s.rpLinks) (honly : onlyRonpex s t) :
    State.LinksQuiet .ronpex s t where
  regs _ ha := State.reg_of_rpRegs h (linkReg_unreported ha)
  units _ n _ := State.reg_of_rpRegs h (notMem_reportRegs (le_portBase n))
  links q := State.link_of_rpLinks hl q
  only := honly

theorem State.linksQuiet_plocen {s t : State} (h : t.epOwnRegs = s.epOwnRegs) (hl : t.epPorts = s.epPorts) (honly : onlyPlocen s t) :
    State.LinksQuiet .plocen s t where
  regs _ ha := State.reg_of_epOwnRegs h (linkReg_epUnreported ha)
  units hp := absurd hp (by decide)
  links q := State.link_of_epPorts hl q
  only := honly

/-- A register elsewhere is written. -/
theorem State.linksQuiet_setReg (p : Part) (s : State) {a : Nat} (h : ¬linkReg p a) (hu : p = .ronpex → ∀ n < 192, a ≠ portBase n) (v : Nat) :
    State.LinksQuiet p s (s.setReg p a v) where
  regs b hb := State.reg_setReg_other _ _ _ _ _ _ (.inr fun he => h (he ▸ hb))
  units hp n hn := by
    subst hp
    exact State.reg_setReg_other _ _ _ _ _ _ (.inr (hu rfl n hn))
  links q := by cases p <;> rfl
  only := by cases p <;> exact ⟨rfl, rfl, rfl, rfl⟩

theorem State.linksQuiet_portEvent (s : State) (port sub cause w : Nat) : State.LinksQuiet .ronpex s (s.portEvent port sub cause w) :=
  State.linksQuiet_ronpex (by simp) (by simp) (onlyRonpex_of (by simp) (by simp))

theorem State.linksQuiet_showUnits (s : State) (quiet : Bool) (l : List Nat) : State.LinksQuiet .ronpex s (s.showUnits quiet l) :=
  State.linksQuiet_ronpex (by simp) (by simp) (onlyRonpex_of (by simp) (by simp))

theorem State.linksQuiet_lossNotice (s : State) (port : Nat) : State.LinksQuiet .ronpex s (s.lossNotice port) :=
  State.linksQuiet_ronpex (by simp) (by simp) (onlyRonpex_of (by simp) (by simp))

theorem State.linksQuiet_pcond (p : Part) (s : State) (code origin requester port skein addr old new : Nat) :
    State.LinksQuiet p s (s.pcond p code origin requester port skein addr old new) := by
  cases p
  · exact State.linksQuiet_ronpex (State.rpRegs_rpLog _ _) (State.rpLinks_rpLog _ _) (onlyRonpex_of (by simp) (by simp))
  · exact State.linksQuiet_plocen (by simp) (State.epPorts_plog _ _) (onlyPlocen_of (by simp) (by simp))

theorem State.linksQuiet_secError (p : Part) (s : State) (b port : Nat) : State.LinksQuiet p s (s.secError p b port) := by
  cases p
  · have hset : State.LinksQuiet .ronpex s (s.setFlag .ronpex Reg.secErr b true) := by
      refine State.linksQuiet_setReg .ronpex s (show ¬0x5000000 ≤ Reg.secErr by decide) (fun _ n _ he => ?_) _
      have := le_portBase n
      rw [← he] at this
      exact absurd this (by decide)
    exact hset.trans (State.linksQuiet_ronpex (by unfold State.secError; simp) (by unfold State.secError; simp)
      (onlyRonpex_of (by unfold State.secError; simp) (by unfold State.secError; simp)))
  · have hset : State.LinksQuiet .plocen s (s.setFlag .plocen Reg.epSecErr b true) :=
      State.linksQuiet_setReg .plocen s (show ¬(0x61000 ≤ Reg.epSecErr ∧ Reg.epSecErr < 0x6D000) by decide) (fun hp => absurd hp (by decide)) _
    exact hset.trans (State.linksQuiet_plocen (by unfold State.secError; simp) (by unfold State.secError; simp)
      (onlyPlocen_of (by unfold State.secError; simp) (by unfold State.secError; simp)))

/-! ### A port that carries no traffic any longer -/

/-- A port has stopped: its clock alone may be off in its link, and the port unit of a Ronpex that was in service is fenced with CAUSE 2. -/
structure State.PortStopped (p : Part) (port : Nat) (s t : State) : Prop where
  regs : ∀ a, linkReg p a → t.reg p a = s.reg p a
  unit : p = .ronpex → s.fld .ronpex (portBase port) 0 2 = 0 → t.reg .ronpex (portBase port) = 0x201
  others : ∀ q, q ≠ port → t.link p q = s.link p q
  link : ∃ b, t.link p port = { s.link p port with clockOff := b }
  only : onlyPart p s t

theorem State.LinksQuiet.stops {p : Part} {port : Nat} {s t u : State} (hp : port < 192) (h : State.LinksQuiet p s t)
    (k : State.PortStopped p port t u) : State.PortStopped p port s u where
  regs a ha := (k.regs a ha).trans (h.regs a ha)
  unit hr h0 := k.unit hr (by rw [State.fld_congr (h.units hr port hp), h0])
  others q hq := (k.others q hq).trans (h.links q)
  link := by
    obtain ⟨b, hb⟩ := k.link
    exact ⟨b, by rw [hb, h.links]⟩
  only := onlyPart_trans h.only k.only

theorem State.PortStopped.quiet {p : Part} {port : Nat} {s t u : State} (hp : port < 192) (h : State.PortStopped p port s t)
    (k : State.LinksQuiet p t u) : State.PortStopped p port s u where
  regs a ha := (k.regs a ha).trans (h.regs a ha)
  unit hr h0 := (k.units hr port hp).trans (h.unit hr h0)
  others q hq := (k.links q).trans (h.others q hq)
  link := by
    obtain ⟨b, hb⟩ := h.link
    exact ⟨b, (k.links port).trans hb⟩
  only := onlyPart_trans h.only k.only

/-- A fence leaves the registers beyond the port units. -/
theorem State.reg_fencePort_beyond {s : State} {n : Nat} (hn : n < 192) (cause : Nat) {a : Nat} (ha : 0x5000000 ≤ a) :
    (s.fencePort n cause).reg .ronpex a = s.reg .ronpex a := by
  by_cases h : s.portIdle n
  · rw [State.fencePort_idle h]
  · have hbase := portBase_lt hn 0x10 (by omega)
    have hrep : a ∉ reportRegs := linkReg_unreported ha
    have hfirst : ((s.hardFence n cause).stopClock .ronpex n).reg .ronpex a = s.reg .ronpex a := State.reg_of_rpRegs (by simp) hrep
    rw [State.fencePort]
    dsimp only
    rw [if_neg (show ¬(s.fld .ronpex (portBase n) 0 2 = 1 ∨ s.fld .ronpex (portBase n) 0 2 = 3) from h),
      State.reg_of_rpRegs (State.rpRegs_portOrder _ _) hrep, State.reg_of_rpRegs (State.rpRegs_showUnits _ _ _) hrep, State.satFld,
      State.reg_setFld_other _ _ _ _ _ _ _ _ (.inr (by omega)), State.reg_setFld_other _ _ _ _ _ _ _ _ (.inr (by omega)),
      State.reg_setReg_other _ _ _ _ _ _ (.inr (by omega)), hfirst]

theorem State.portStopped_fencePort (s : State) {n : Nat} (hn : n < 192) : State.PortStopped .ronpex n s (s.fencePort n 2) := by
  refine ⟨fun a ha => State.reg_fencePort_beyond hn 2 ha, fun _ h0 => ?_, fun q hq => ?_, ?_, onlyPart_of (by simp) (by simp)⟩
  · exact (State.portFenced_fencePort hn (by omega) (show ¬s.portIdle n by unfold State.portIdle; omega)).1
  · by_cases h : s.portIdle n
    · rw [State.fencePort_idle h]
    · rw [State.link_fencePort h, if_neg hq]
  · by_cases h : s.portIdle n
    · exact ⟨(s.link .ronpex n).clockOff, by rw [State.fencePort_idle h]⟩
    · exact ⟨true, by rw [State.link_fencePort h, if_pos rfl]⟩

/-- A port that was up, or not, carries no traffic any longer. -/
def State.portLeft (s : State) (p : Part) (port : Nat) (up : Bool) : State :=
  if up then s.portGone p port
  else match p with
    | .ronpex => (s.showUnits false [416 + port]).fencePort port 2
    | .plocen => s

theorem State.portStopped_refl (port : Nat) (s : State) : State.PortStopped .plocen port s s :=
  ⟨fun _ _ => rfl, fun hr => absurd hr (by decide), fun _ _ => rfl, ⟨(s.link .plocen port).clockOff, rfl⟩, onlyPart_refl .plocen s⟩

/-- The ports released to the Plocen, without one. -/
def State.releasedLeft (s : State) (port : Nat) : State :=
  { s with ep := { s.ep with released := s.ep.released.filter fun x => x.1 != port } }

theorem State.linksQuiet_gone (s : State) (port : Nat) : State.LinksQuiet .plocen s (s.portGone .plocen port) := by
  have hrel : State.LinksQuiet .plocen s (s.releasedLeft port) :=
    ⟨fun _ _ => rfl, fun hp => absurd hp (by decide), fun _ => rfl, rfl, rfl, rfl, rfl⟩
  have heq : s.portGone .plocen port
      = (((((s.releasedLeft port).resendPlane port).epPlaneOut port).report 2 ((s.releasedLeft port).ownNode .plocen) port).unready) := rfl
  rw [heq]
  exact hrel.trans (State.linksQuiet_plocen (by simp) (by simp) (onlyPlocen_of (by simp) (by simp)))

theorem State.portStopped_portLeft (s : State) (p : Part) {port : Nat} (hp : port < 192) (up : Bool) :
    State.PortStopped p port s (s.portLeft p port up) := by
  cases p with
  | ronpex =>
    have hfence := (s.linksQuiet_showUnits false [416 + port]).stops hp ((s.showUnits false [416 + port]).portStopped_fencePort hp)
    cases up with
    | true => exact hfence.quiet hp (State.linksQuiet_lossNotice _ _)
    | false => exact hfence
  | plocen =>
    cases up with
    | true => exact (s.linksQuiet_gone port).stops hp (State.portStopped_refl port _)
    | false => exact State.portStopped_refl port s

/-! ### A port goes DOWN -/

/-- What a port that is DOWN shows. -/
def State.downRegs (s : State) (p : Part) (port cause : Nat) : State :=
  (((s.setFld p (psBase p port + 4) 0 3 5).setFld p (psBase p port + 4) 8 8 cause).satFld p (psBase p port + 0x7C) 16 16 1).setFlag p
    (psBase p port + 4) 5 false

/-- A port that is DOWN. -/
def State.downShown (s : State) (p : Part) (port cause : Nat) : State :=
  (s.downRegs p port cause).modLink p port fun l => { l.stopped with step := 1, clockOff := true, downAt := some s.now }

/-- A port that is DOWN is reported. -/
def State.downTold (s : State) (p : Part) (port cause : Nat) : State := if p = .ronpex then s.portEvent port 1 cause 0 else s

theorem State.portDown_eq {s : State} {p : Part} {port : Nat} (h0 : s.portState p port ≠ 0) (h5 : s.portState p port ≠ 5)
    (h6 : s.portState p port ≠ 6) (cause : Nat) :
    s.portDown p port cause = ((s.downShown p port cause).downTold p port cause).portLeft p port (s.portUp p port) := by
  have hif : s.portDown p port cause = if s.portState p port = 2 ∨ s.portState p port = 3 then
      ((s.downShown p port cause).downTold p port cause).portLeft p port true
      else ((s.downShown p port cause).downTold p port cause).portLeft p port false := by
    unfold State.portDown
    dsimp only
    rw [if_neg (show ¬(s.portState p port = 0 ∨ s.portState p port = 5 ∨ s.portState p port = 6) by omega)]
    cases p <;> rfl
  rw [hif]
  by_cases hup : s.portState p port = 2 ∨ s.portState p port = 3
  · rw [if_pos hup, show s.portUp p port = true by simpa [State.portUp] using hup]
  · rw [if_neg hup, show s.portUp p port = false by simpa [State.portUp] using hup]

theorem State.fld_downRegs (s : State) (p : Part) (port : Nat) {cause : Nat} (hc : cause < 256) :
    (s.downRegs p port cause).fld p (psBase p port + 4) 0 3 = 5 ∧ (s.downRegs p port cause).fld p (psBase p port + 4) 8 8 = cause
      ∧ (s.downRegs p port cause).fld p (psBase p port + 0x7C) 16 16 = satAdd 16 (s.fld p (psBase p port + 0x7C) 16 16) 1 := by
  have hne : psBase p port + 0x7C ≠ psBase p port + 4 := by omega
  unfold State.downRegs
  refine ⟨?_, ?_, ?_⟩
  · rw [State.fld_setFlag_outside _ _ _ (by omega) (by omega), State.satFld,
      State.fld_congr (State.reg_setFld_other _ _ _ _ _ _ _ _ (.inr hne)), State.fld_setFld_outside _ _ (by omega) (by omega),
      State.fld_setFld_same _ _ _ _ _ _ (by omega)]
    rfl
  · rw [State.fld_setFlag_outside _ _ _ (by omega) (by omega), State.satFld,
      State.fld_congr (State.reg_setFld_other _ _ _ _ _ _ _ _ (.inr hne)), State.fld_setFld_same _ _ _ _ _ _ (by omega),
      Nat.mod_eq_of_lt (by omega)]
  · rw [State.fld_congr (State.reg_setFlag_other _ _ _ _ _ _ _ (.inr hne.symm)), State.fld_satFld_same _ _ _ _ _ _ (by omega),
      State.fld_congr (State.reg_setFld_other _ _ _ _ _ _ _ _ (.inr hne.symm)),
      State.fld_congr (State.reg_setFld_other _ _ _ _ _ _ _ _ (.inr hne.symm))]

/-- What precedes a port's going DOWN: its count of retrains, its unit and the other ports are as before. -/
structure State.PortNear (p : Part) (port : Nat) (s t : State) : Prop where
  count : t.fld p (psBase p port + 0x7C) 16 16 = s.fld p (psBase p port + 0x7C) 16 16
  unit : p = .ronpex → t.fld .ronpex (portBase port) 0 2 = s.fld .ronpex (portBase port) 0 2
  others : otherPorts p port s t
  only : onlyPart p s t

theorem State.PortNear.refl (p : Part) (port : Nat) (s : State) : State.PortNear p port s s :=
  ⟨rfl, fun _ => rfl, fun _ _ _ => ⟨rfl, rfl⟩, onlyPart_refl p s⟩

theorem State.portState_of_reg {s t : State} {p : Part} {q : Nat} (h : t.reg p (psBase p q + 4) = s.reg p (psBase p q + 4)) :
    t.portState p q = s.portState p q := State.fld_congr h 0 3

theorem partPorts_le (p : Part) : partPorts p ≤ 192 := by
  cases p <;> decide

theorem State.LinksQuiet.near {p : Part} {port : Nat} (hp : port < 192) {s t : State} (h : State.LinksQuiet p s t) : State.PortNear p port s t where
  count := State.fld_congr (h.regs _ (linkReg_psBase p hp (by omega))) 16 16
  unit hr := State.fld_congr (h.units hr port hp) 0 2
  others q hq _ := by
    have := partPorts_le p
    exact ⟨State.portState_of_reg (h.regs _ (linkReg_psBase p (by omega) (by omega))), h.links q⟩
  only := h.only

theorem State.PortNear.trans {p : Part} {port : Nat} {s t u : State} (h : State.PortNear p port s t) (k : State.PortNear p port t u) :
    State.PortNear p port s u where
  count := k.count.trans h.count
  unit hr := (k.unit hr).trans (h.unit hr)
  others q hq hne := ⟨(k.others q hq hne).1.trans (h.others q hq hne).1, (k.others q hq hne).2.trans (h.others q hq hne).2⟩
  only := onlyPart_trans h.only k.only

theorem wentDown_of_near {p : Part} {port cause : Nat} {s t u : State} (h : State.PortNear p port s t) (k : wentDown p port cause t u) :
    wentDown p port cause s u := by
  obtain ⟨k1, k2, k3, k4, k5, k6, k7, k8, k9⟩ := k
  refine ⟨k1, k2, by rw [k3, h.count], k4, k5, by rw [k6, now_of_onlyPart h.only], fun hr h0 => k7 hr (by rw [h.unit hr, h0]),
    fun q hq hne => ⟨(k8 q hq hne).1.trans (h.others q hq hne).1, (k8 q hq hne).2.trans (h.others q hq hne).2⟩, onlyPart_trans h.only k9⟩

theorem State.downRegs_other {s : State} {p : Part} {port a : Nat} (h : a ≠ psBase p port + 4) (h' : a ≠ psBase p port + 0x7C) (cause : Nat) :
    (s.downRegs p port cause).reg p a = s.reg p a := by
  unfold State.downRegs State.satFld
  rw [State.reg_setFlag_other _ _ _ _ _ _ _ (.inr h.symm), State.reg_setFld_other _ _ _ _ _ _ _ _ (.inr h'.symm),
    State.reg_setFld_other _ _ _ _ _ _ _ _ (.inr h.symm), State.reg_setFld_other _ _ _ _ _ _ _ _ (.inr h.symm)]

theorem State.reg_modLinkOf (s : State) (p : Part) (port : Nat) (f : Link → Link) (a : Nat) : (s.modLink p port f).reg p a = s.reg p a := by
  cases p <;> rfl

theorem State.link_modLink_other (s : State) (p : Part) {port q : Nat} (h : q ≠ port) (f : Link → Link) :
    (s.modLink p port f).link p q = s.link p q := by
  rw [State.modLink, State.link_setLink, if_neg fun hc => h hc.2.symm]

theorem State.link_setFldOf (s : State) (p : Part) (a lo len v q : Nat) : (s.setFld p a lo len v).link p q = s.link p q := by
  cases p <;> rfl

theorem State.link_downRegs (s : State) (p : Part) (port cause q : Nat) : (s.downRegs p port cause).link p q = s.link p q := by
  rw [State.downRegs, State.setFlag, State.link_setFldOf, State.satFld, State.link_setFldOf, State.link_setFldOf, State.link_setFldOf]

theorem onlyPart_setFld (s : State) (p : Part) (a lo len v : Nat) : onlyPart p s (s.setFld p a lo len v) := by
  cases p <;> exact ⟨rfl, rfl, rfl, rfl⟩

theorem onlyPart_modLink (s : State) (p : Part) (port : Nat) (f : Link → Link) : onlyPart p s (s.modLink p port f) := by
  cases p <;> exact ⟨rfl, rfl, rfl, rfl⟩

theorem onlyPart_downShown (s : State) (p : Part) (port cause : Nat) : onlyPart p s (s.downShown p port cause) :=
  onlyPart_trans (onlyPart_setFld _ _ _ _ _ _) (onlyPart_trans (onlyPart_setFld _ _ _ _ _ _) (onlyPart_trans (onlyPart_setFld _ _ _ _ _ _)
    (onlyPart_trans (onlyPart_setFld _ _ _ _ _ _) (onlyPart_modLink _ _ _ _))))

theorem State.linksQuiet_downTold (s : State) (p : Part) (port cause : Nat) : State.LinksQuiet p s (s.downTold p port cause) := by
  unfold State.downTold
  cases p
  · exact s.linksQuiet_portEvent port 1 cause 0
  · exact State.LinksQuiet.refl .plocen s

/-- A port that is in use, in training or in TEST goes DOWN. -/
theorem wentDown_portDown {s : State} {p : Part} {port cause : Nat} (hp : port < 192) (hc : cause < 256) (h0 : s.portState p port ≠ 0)
    (h5 : s.portState p port ≠ 5) (h6 : s.portState p port ≠ 6) : wentDown p port cause s (s.portDown p port cause) := by
  rw [State.portDown_eq h0 h5 h6]
  have hstop := ((s.downShown p port cause).linksQuiet_downTold p port cause).stops hp
    (((s.downShown p port cause).downTold p port cause).portStopped_portLeft p hp (s.portUp p port))
  obtain ⟨f1, f2, f3⟩ := s.fld_downRegs p port hc
  generalize (((s.downShown p port cause).downTold p port cause).portLeft p port (s.portUp p port)) = t at hstop
  have hreg {k : Nat} (hk : k < 0x100) : t.reg p (psBase p port + k) = (s.downRegs p port cause).reg p (psBase p port + k) :=
    (hstop.regs _ (linkReg_psBase p hp hk)).trans (State.reg_modLinkOf _ _ _ _ _)
  obtain ⟨b, hlink⟩ := hstop.link
  rw [State.downShown, State.link_modLink_same, State.link_downRegs] at hlink
  have hunit (hr : p = .ronpex) : (s.downShown p port cause).fld .ronpex (portBase port) 0 2 = s.fld .ronpex (portBase port) 0 2 := by
    subst hr
    have hlt := portBase_lt hp 0 (by omega)
    have hset : 0x5000000 ≤ psBase .ronpex port + 0 := linkReg_psBase .ronpex hp (k := 0) (by omega)
    exact State.fld_congr ((State.reg_modLinkOf _ _ _ _ _).trans (State.downRegs_other (by omega) (by omega) cause)) 0 2
  refine ⟨(State.fld_congr (hreg (by omega)) 0 3).trans f1, (State.fld_congr (hreg (by omega)) 8 8).trans f2,
    (State.fld_congr (hreg (by omega)) 16 16).trans f3, by rw [hlink]; rfl, by rw [hlink]; rfl, by rw [hlink],
    fun hr h0 => hstop.unit hr (by rw [hunit hr, h0]), fun q hq hne => ⟨State.portState_of_reg ?_, ?_⟩,
    onlyPart_trans (onlyPart_downShown s p port cause) hstop.only⟩
  · have := partPorts_le p
    rw [hstop.regs _ (linkReg_psBase p (by omega) (by omega)), State.downShown, State.reg_modLinkOf,
      State.downRegs_other (psBase_ne p hne (by omega) (by omega)) (psBase_ne p hne (by omega) (by omega))]
  · rw [hstop.others q hne, State.downShown, State.link_modLink_other _ _ hne, State.link_downRegs]

end Sys2Proof.Machine
end

section
/-! Operations that change the link of one port, and registers of its part. -/

namespace Sys2Proof.Machine

open Sys2Proof Sys2Proof.Claims

theorem onlyLink_refl (p : Part) (port : Nat) (s : State) : onlyLink p port s s := by
  cases p <;> exact ⟨fun _ _ => rfl, rfl⟩

theorem onlyLink_trans {p : Part} {port : Nat} {s t u : State} (h : onlyLink p port s t) (k : onlyLink p port t u) : onlyLink p port s u := by
  obtain ⟨h1, h2⟩ := h
  obtain ⟨k1, k2⟩ := k
  refine ⟨fun q hq => (k1 q hq).trans (h1 q hq), ?_⟩
  cases p
  · dsimp only at h2 k2 ⊢
    rw [k2, h2]
  · dsimp only at h2 k2 ⊢
    rw [k2, h2]

theorem onlyLink_modLink (s : State) (p : Part) (port : Nat) (f : Link → Link) : onlyLink p port s (s.modLink p port f) := by
  refine ⟨fun q hq => State.link_modLink_other s p hq f, ?_⟩
  cases p <;> rfl

theorem onlyLink_setFld (s : State) (p : Part) (port a lo len v : Nat) : onlyLink p port s (s.setFld p a lo len v) := by
  cases p <;> exact ⟨fun _ _ => rfl, rfl⟩

theorem onlyPart_of_onlyLink {p : Part} {port : Nat} {s t : State} (h : onlyLink p port s t) : onlyPart p s t := by
  obtain ⟨_, h2⟩ := h
  cases p
  · dsimp only at h2
    rw [h2]
    exact ⟨rfl, rfl, rfl, rfl⟩
  · dsimp only at h2
    rw [h2]
    exact ⟨rfl, rfl, rfl, rfl⟩

/-- Between two states the link of a port becomes `l`, and the registers listed alone may differ. -/
structure State.LinkSet (p : Part) (port : Nat) (L : List Nat) (l : Link) (s t : State) : Prop where
  only : onlyLink p port s t
  regs : regsBut s t p L
  link : t.link p port = l

theorem State.LinkSet.refl (p : Part) (port : Nat) (L : List Nat) (s : State) : State.LinkSet p port L (s.link p port) s s :=
  ⟨onlyLink_refl p port s, fun _ _ => rfl, rfl⟩

theorem State.LinkSet.modLink {p : Part} {port : Nat} {L : List Nat} {l : Link} {s t : State} (h : State.LinkSet p port L l s t)
    (f : Link → Link) : State.LinkSet p port L (f l) s (t.modLink p port f) :=
  ⟨onlyLink_trans h.only (onlyLink_modLink t p port f), fun a ha => (State.reg_modLinkOf _ _ _ _ _).trans (h.regs a ha),
    by rw [State.link_modLink_same, h.link]⟩

theorem State.LinkSet.setFld {p : Part} {port : Nat} {L : List Nat} {l : Link} {s t : State} (h : State.LinkSet p port L l s t)
    {a : Nat} (ha : a ∈ L) (lo len v : Nat) : State.LinkSet p port L l s (t.setFld p a lo len v) :=
  ⟨onlyLink_trans h.only (onlyLink_setFld t p port a lo len v),
    fun b hb => (State.reg_setFld_other _ _ _ _ _ _ _ _ (.inr fun he : a = b => hb (he ▸ ha))).trans (h.regs b hb),
    (State.link_setFldOf _ _ _ _ _ _ _).trans h.link⟩

theorem State.LinkSet.trans {p : Part} {port : Nat} {L : List Nat} {l m : Link} {s t u : State} (h : State.LinkSet p port L l s t)
    (k : State.LinkSet p port L m t u) : State.LinkSet p port L m s u :=
  ⟨onlyLink_trans h.only k.only, fun a ha => (k.regs a ha).trans (h.regs a ha), k.link⟩

/-- A change of the link alone. -/
theorem State.linkSet_modLink (s : State) (p : Part) (port : Nat) (L : List Nat) (f : Link → Link) :
    State.LinkSet p port L (f (s.link p port)) s (s.modLink p port f) := (State.LinkSet.refl p port L s).modLink f

theorem State.linkSet_modKeys (s : State) (p : Part) (port : Nat) (L : List Nat) (f : LinkKeys → LinkKeys) :
    State.LinkSet p port L { s.link p port with keys := f (s.link p port).keys } s (s.modKeys p port f) :=
  s.linkSet_modLink p port L fun l => { l with keys := f l.keys }

theorem State.LinkSet.modKeys {p : Part} {port : Nat} {L : List Nat} {l : Link} {s t : State} (h : State.LinkSet p port L l s t)
    (f : LinkKeys → LinkKeys) : State.LinkSet p port L { l with keys := f l.keys } s (t.modKeys p port f) :=
  h.modLink fun l => { l with keys := f l.keys }

theorem State.LinkSet.lmcPush {p : Part} {port : Nat} {L : List Nat} {l : Link} {s t : State} (h : State.LinkSet p port L l s t)
    (ms : List LmcMsg) : State.LinkSet p port L { l with lmcQ := l.lmcQ ++ ms } s (t.lmcPush p port ms) :=
  h.modLink fun l => { l with lmcQ := l.lmcQ ++ ms }

theorem State.LinkSet.satFld {p : Part} {port : Nat} {L : List Nat} {l : Link} {s t : State} (h : State.LinkSet p port L l s t)
    {a : Nat} (ha : a ∈ L) (lo len n : Nat) : State.LinkSet p port L l s (t.satFld p a lo len n) := h.setFld ha lo len _

theorem State.LinkSet.setFlag {p : Part} {port : Nat} {L : List Nat} {l : Link} {s t : State} (h : State.LinkSet p port L l s t)
    {a : Nat} (ha : a ∈ L) (i : Nat) (b : Bool) : State.LinkSet p port L l s (t.setFlag p a i b) := h.setFld ha i 1 _

theorem State.LinkSet.reg {p : Part} {port : Nat} {l : Link} {s t : State} (h : State.LinkSet p port [] l s t) (a : Nat) :
    t.reg p a = s.reg p a := h.regs a (by simp)

theorem State.LinkSet.fld {p : Part} {port : Nat} {l : Link} {s t : State} (h : State.LinkSet p port [] l s t) (a lo len : Nat) :
    t.fld p a lo len = s.fld p a lo len := State.fld_congr (h.reg a) lo len

/-- The other ports keep their states where the registers that may differ are not theirs. -/
theorem State.LinkSet.otherPorts {p : Part} {port : Nat} {L : List Nat} {l : Link} {s t : State} (h : State.LinkSet p port L l s t)
    (hL : ∀ q, q < partPorts p → q ≠ port → psBase p q + 4 ∉ L) : otherPorts p port s t :=
  fun q hq hne => ⟨State.portState_of_reg (h.regs _ (hL q hq hne)), h.only.1 q hne⟩

end Sys2Proof.Machine
end

section
/-! Rekeying and frame tags (R332-R334). -/

namespace Sys2Proof.Machine

open Sys2Proof Sys2Proof.Claims

/-! ### The rekey -/

theorem State.sendSig_waits {s : State} {p : Part} {port : Nat} (h : keyWhole (s.link p port).keys.eph = false) :
    s.sendSig p port = s := by
  unfold State.sendSig
  dsimp only
  cases s.farIdentity p port with
  | none => rfl
  | some far => exact if_pos (by simp [h])

/-- A state in which the next number of a free value has been taken. -/
def State.drawn (s : State) : State := { s with free := s.free + 1 }

theorem State.link_drawn (s : State) (p : Part) (port : Nat) : s.drawn.link p port = s.link p port := by
  cases p <;> rfl

/-- A rekey has been marked as under way. -/
def State.rekeyMarked (s : State) (p : Part) (port : Nat) : State :=
  s.modKeys p port fun x => { x with rekeyAt := some s.now, starter := true, eph := [], sig := [] }

/-- An own ephemeral key has been formed, and goes out. -/
def State.ephSent (s : State) (p : Part) (port : Nat) : State :=
  (s.drawn.modKeys p port fun k => { k with own := some s.free, sigOut := false, accepted := false }).lmcPush p port
    (keyFrags 2 (ephPoint p port s.free))

theorem State.beginKeys_rekey (s : State) (p : Part) (port : Nat) : s.beginKeys p port false = (s.ephSent p port).sendSig p port := rfl

theorem State.drawn_rekeyMarked (s : State) (p : Part) (port : Nat) : (s.rekeyMarked p port).drawn = s.drawn.rekeyMarked p port := by
  cases p <;> rfl

theorem State.free_rekeyMarked (s : State) (p : Part) (port : Nat) : (s.rekeyMarked p port).free = s.free := by
  cases p <;> rfl

theorem State.linkSet_rekeyMarked (s : State) (p : Part) (port : Nat) : State.LinkSet p port [] { s.link p port with
    keys := { (s.link p port).keys with rekeyAt := some s.now, starter := true, eph := [], sig := [], own := some s.free
                                        sigOut := false, accepted := false }
    lmcQ := (s.link p port).lmcQ ++ keyFrags 2 (ephPoint p port s.free) } s.drawn ((s.rekeyMarked p port).ephSent p port) := by
  have h := ((s.drawn.linkSet_modKeys p port [] fun x => { x with rekeyAt := some s.now, starter := true, eph := [], sig := [] }).modKeys
    fun k => { k with own := some s.free, sigOut := false, accepted := false }).lmcPush (keyFrags 2 (ephPoint p port s.free))
  rw [State.link_drawn] at h
  rw [State.ephSent, State.drawn_rekeyMarked, State.free_rekeyMarked]
  exact h

theorem State.rekey_begins {s : State} {p : Part} {port : Nat} (hup : s.portUp p port = true)
    (htx : (s.link p port).keys.tx.isSome = true) (hno : (s.link p port).keys.rekeyAt = none)
    (hcnt : 2 ^ s.rekeyExp p ≤ (s.link p port).keys.txCnt) : s.rekey p port = (s.rekeyMarked p port).ephSent p port := by
  have hk : s.rekey p port = (s.rekeyMarked p port).beginKeys p port false := if_pos ⟨hup, htx, by rw [hno]; rfl, hcnt⟩
  rw [hk, State.beginKeys_rekey, State.sendSig_waits]
  rw [(s.linkSet_rekeyMarked p port).link]
  rfl

/-! ### SWITCH and SWITCH_ACK -/

theorem State.switchIn_acknowledges {s : State} {p : Part} {port : Nat} (hup : s.portUp p port = true)
    (hf : (s.link p port).keys.fresh.isSome = true) (gen frame : Nat) : s.switchIn p port gen frame
      = (s.modKeys p port fun k => { k with switch := some (gen, frame, true) }).lmcPush p port [.key 5 gen (leBytes 8 frame)] :=
  if_pos ⟨hup, hf⟩

theorem State.linkSet_switchAckIn {s : State} {p : Part} {port gen frame : Nat} {b : Bool}
    (h : (s.link p port).keys.switch = some (gen, frame, b)) : State.LinkSet p port []
      { s.link p port with keys := { (s.link p port).keys with switch := some (gen, frame, true) } } s (s.switchAckIn p port gen frame) := by
  have hset := s.linkSet_modKeys p port []
    fun k => { k with switch := k.switch.map fun x => if x.1 = gen ∧ x.2.1 = frame then (gen, frame, true) else x }
  rw [h, Option.map_some, if_pos ⟨rfl, rfl⟩] at hset
  exact hset

/-! ### The switch of keys -/

/-- The keys that an end which acknowledged keeps by. -/
def State.oldKeys (s : State) (p : Part) (port : Nat) (x y : BitVec 288) : OldKeys :=
  { tx := (s.link p port).keys.tx.getD 0, rx := (s.link p port).keys.rx.getD 0, txCnt := (s.link p port).keys.txCnt
    rxCnt := (s.link p port).keys.rxCnt, gen := s.fld p (keygenReg p port) 0 16
    since := (s.link p port).keys.rekeyAt.getD s.now, fresh := (x, y), tried := 0 }

/-- The keys of a link from F' on. -/
def State.switchedKeys (s : State) (p : Part) (port : Nat) (x y : BitVec 288) (k : LinkKeys) : LinkKeys := { k with
  tx := some x, txCnt := 0, rxNext := some (y, s.now + slotNs * (s.link p port).delayIn)
  old := if (s.link p port).keys.starter then none else some (s.oldKeys p port x y)
  fresh := none, switch := none, rekeyAt := none, starter := false }

theorem State.keySwitch_due {s : State} {p : Part} {port gen f : Nat} {x y : BitVec 288} (hf : (s.link p port).keys.fresh = some (x, y))
    (hs : (s.link p port).keys.switch = some (gen, f, true)) : s.keySwitch p port
      = if frameDue s.now f ∧ s.portUp p port then (s.satFld p (keygenReg p port) 0 16 1).modKeys p port (s.switchedKeys p port x y) else s := by
  unfold State.keySwitch
  dsimp only
  rw [hf, hs]
  unfold State.switchedKeys State.oldKeys
  rfl

theorem State.switchRetry_late {s : State} {p : Part} {port gen f : Nat} (hs : (s.link p port).keys.switch = some (gen, f, false))
    (hst : (s.link p port).keys.starter = true) (hlate : frameTime s.now f ≤ s.now + 1000) :
    s.switchRetry p port = s.modKeys p port fun x => { x with switch := some (gen, s.switchFrame, false) } := by
  unfold State.switchRetry
  dsimp only
  rw [hs]
  exact if_pos ⟨hst, hlate⟩

/-! ### The first blocks after F' -/

/-- What a block leaves in the keys of a receiver that has its receive key: it has been counted, and the old keys have been looked at. -/
structure LinkKeys.Counted (k k' : LinkKeys) (y : BitVec 288) : Prop where
  old : k'.old = k.old
  next : k'.rxNext = none
  tx : k'.tx = k.tx
  rx : k'.rx = some y

theorem Link.fillsTo_nil {l : Link} (h : l.pend = []) (t : Nat) : l.fillsTo t = { l with pend := [] } := by
  unfold Link.fillsTo
  rw [h]
  rfl

theorem Link.wakes_nil {l : Link} (h : l.pend = []) : l.wakes.pend = [] ∧ l.wakes.keys = l.keys := by
  unfold Link.wakes
  split
  · exact ⟨h, rfl⟩
  · rw [h]
    exact ⟨rfl, rfl⟩

theorem Link.rxTo_keeps (l : Link) (f : Nat) : (l.rxTo f).keys.old = l.keys.old ∧ (l.rxTo f).keys.rxNext = l.keys.rxNext
    ∧ (l.rxTo f).keys.tx = l.keys.tx ∧ (l.rxTo f).keys.rx = l.keys.rx ∧ (l.rxTo f).keys.rxCnt = l.keys.rxCnt := by
  unfold Link.rxTo
  dsimp only
  split
  · exact ⟨rfl, rfl, rfl, rfl, rfl⟩
  · exact ⟨rfl, rfl, rfl, rfl, rfl⟩

theorem LinkKeys.rxSwitch_none {k : LinkKeys} (h : k.rxNext = none) (t : Nat) : k.rxSwitch t = k := by
  unfold LinkKeys.rxSwitch
  rw [h]

/-- The receive counter advances under the receive key `y`, and the block's tag joins those of its frame. -/
def LinkKeys.advanced (k : LinkKeys) (y : BitVec 288) (b : Block) : LinkKeys :=
  { k with rx := some y, rxCnt := k.rxCnt + 1, rxTag := k.rxTag ^^^ blockTag y k.rxCnt (blockBytes b) }

theorem Link.rxCount_keys {l : Link} {y : BitVec 288} (hr : l.keys.rx = some y) (hn : l.keys.rxNext = none) (t : Nat) (b : Block) :
    ∃ k', LinkKeys.Counted l.keys k' y ∧ (l.rxCount t b).keys = k'.probe y l.keys.rxCnt b := by
  obtain ⟨h1, h2, h3, h4, h5⟩ := l.rxTo_keeps (l.sentIn t)
  refine ⟨(l.rxTo (l.sentIn t)).keys.advanced y b, ⟨h1, h2.trans hn, h3, rfl⟩, ?_⟩
  unfold Link.rxCount
  dsimp only
  rw [LinkKeys.rxSwitch_none (h2.trans hn), h4.trans hr, ← h5]
  rfl

theorem LinkKeys.probe_kept {k : LinkKeys} {o : OldKeys} (ho : k.old = some o) (hn : k.rxNext = none) (y : BitVec 288) (n : Nat) (b : Block) :
    k.probe y n b = if crcHolds (blockBytes b) = true ∨ crcHolds (blockPlain o.rx (o.rxCnt + o.tried) (blockCipher y n (blockBytes b))) = false then
        { k with old := none }
      else if o.tried < 3 then { k with old := some { o with tried := o.tried + 1 } }
      else { k with
        tx := some o.tx, rx := some o.rx, txCnt := o.txCnt + k.txCnt, rxCnt := o.rxCnt + 4, fresh := some o.fresh, rekeyAt := some o.since
        old := none } := by
  unfold LinkKeys.probe
  rw [ho]
  dsimp only
  rw [hn, if_neg (by simp)]
  cases crcHolds (blockBytes b) <;> cases crcHolds (blockPlain o.rx (o.rxCnt + o.tried) (blockCipher y n (blockBytes b))) <;> simp

theorem State.link_rxLink (s : State) (p : Part) (port : Nat) (l : Link) : (s.rxLink p port l).link p port = l := by
  have hset : (s.setLink p port l).link p port = l := by rw [State.link_setLink, if_pos ⟨rfl, rfl⟩]
  unfold State.rxLink
  dsimp only
  cases (s.link p port).keys.old with
  | none => exact hset
  | some o =>
    dsimp only
    split
    · exact (State.link_setFldOf _ _ _ _ _ _ _).trans hset
    · exact hset

theorem State.gen_rxLink {s : State} {p : Part} {port : Nat} {l : Link} {o : OldKeys} (ho : (s.link p port).keys.old = some o)
    (hn : l.keys.old = none) (hf : l.keys.fresh.isSome = true) : (s.rxLink p port l).fld p (keygenReg p port) 0 16 = o.gen % 2 ^ 16 := by
  have hset : s.rxLink p port l = (s.setLink p port l).setFld p (keygenReg p port) 0 16 o.gen := by
    unfold State.rxLink
    dsimp only
    rw [ho]
    exact if_pos (by simp [hn, hf])
  rw [hset, State.fld_setFld_same _ _ _ _ _ _ (by omega)]

/-- The link of a port that has received a block. -/
def Link.received (l : Link) (t : Nat) (b : Block) : Link :=
  { (l.wakes.fillsTo t).rxCount t b with keys := { ((l.wakes.fillsTo t).rxCount t b).keys with rxSlot := some t } }

theorem Link.received_keys {l : Link} {y : BitVec 288} (hr : l.keys.rx = some y) (hn : l.keys.rxNext = none) (hp : l.pend = []) (t : Nat)
    (b : Block) : ∃ k', LinkKeys.Counted l.keys k' y ∧ (l.received t b).keys = { k'.probe y l.keys.rxCnt b with rxSlot := some t } := by
  obtain ⟨hpend, hkeys⟩ := Link.wakes_nil hp
  have hfill : (l.wakes.fillsTo t).keys = l.keys := by rw [Link.fillsTo_nil hpend, hkeys]
  obtain ⟨k', hc, hk⟩ := Link.rxCount_keys (l := l.wakes.fillsTo t) (by rw [hfill, hr]) (by rw [hfill, hn]) t b
  rw [hfill] at hc hk
  exact ⟨k', hc, by rw [Link.received, hk]⟩

/-! ### A rekey that takes too long -/

/-- Whether a time lies in a sky run rests on the draft in effect and its image alone. -/
theorem State.inSky_congr {s t : State} (p : Part) (hw : t.rp.warp = s.rp.warp)
    (hr : p = .ronpex → ∀ a, a = Reg.drfStat ∨ (0x1000000 ≤ a ∧ a < 0x5000000) → t.reg .ronpex a = s.reg .ronpex a)
    (he : p = .plocen → ∀ a, a = Reg.epSeqWstat ∨ (∃ j < 192, a = Reg.epSeqWport j) ∨ (0x200000 ≤ a ∧ a < 0x400000) → t.reg .plocen a = s.reg .plocen a)
    {port : Nat} (hlt192 : port < 192) (n : Nat) : t.inSky p port n = s.inSky p port n := by
  cases p with
  | ronpex =>
    have hstat : t.reg .ronpex Reg.drfStat = s.reg .ronpex Reg.drfStat := hr rfl _ (.inl rfl)
    have hslot : t.rdSlot = s.rdSlot := State.fld_congr hstat 0 3
    have hlt : s.rdSlot < 8 := Nat.mod_lt _ (by decide)
    have hentry {q m : Nat} (hq : q < 192) (hm : m < 4096) : t.rdEntry s.rdSlot m q = s.rdEntry s.rdSlot m q := by
      have hword : t.rdWord (q / 12) s.rdSlot (2 * (m * 12 + q % 12)) = s.rdWord (q / 12) s.rdSlot (2 * (m * 12 + q % 12)) :=
        hr rfl _ (.inr (by unfold draftBase; omega))
      unfold State.rdEntry
      dsimp only
      rw [hword]
    have hrun : t.running = s.running := State.flag_congr hstat 3
    have hport : t.portLogical port = s.portLogical port := by
      unfold State.portLogical State.portPhys
      rw [hw]
    have hlogical {q : Nat} (h : s.portLogical port = some q) : q < 192 := by
      unfold State.portLogical at h
      split at h
      · exact Option.some.inj h ▸ hlt192
      · exact List.mem_range.1 (List.mem_of_find?_eq_some h)
    have hwindow {q : Nat} (hq : q < 192) : t.skyWindow s.rdSlot n q = s.skyWindow s.rdSlot n q := by
      unfold State.skyWindow
      refine congrArg (List.any (List.range 1001)) (funext fun d => ?_)
      by_cases hd : n + d - 500 < 4096
      · rw [hentry hq hd]
      · rw [show decide (n + d - 500 < frameSlots) = false from decide_eq_false hd, Bool.and_false, Bool.false_and, Bool.false_and]
    unfold State.inSky
    dsimp only
    rw [hrun, hport, hslot]
    cases hq : s.portLogical port with
    | none => rw [Option.any_none, Option.any_none]
    | some q => rw [Option.any_some, Option.any_some, hwindow (hlogical hq)]
  | plocen =>
    have hslot : t.ptSlot port = s.ptSlot port := State.fld_congr (he rfl _ (.inr (.inl ⟨port, hlt192, rfl⟩))) 0 3
    have hlt : s.ptSlot port < 8 := Nat.mod_lt _ (by decide)
    have hentry {n : Nat} (hn : n < 4096) : t.ptEntry (s.ptSlot port) n port = s.ptEntry (s.ptSlot port) n port := by
      have hword : t.ptWord (s.ptSlot port) (2 * (n * 8 + port)) = s.ptWord (s.ptSlot port) (2 * (n * 8 + port)) :=
        he rfl _ (.inr (.inr (by omega)))
      unfold State.ptEntry
      dsimp only
      rw [hword]
    have hrun : t.ptRunning = s.ptRunning := State.flag_congr (he rfl _ (.inl rfl)) 3
    unfold State.inSky
    dsimp only
    rw [hrun, hslot]
    refine congrArg (s.ptRunning && ·) (congrArg (List.any (List.range 1001)) (funext fun d => ?_))
    by_cases hd : n + d - 500 < 4096
    · rw [hentry hd]
    · rw [show decide (n + d - 500 < frameSlots) = false from decide_eq_false hd, Bool.and_false]
      rfl

theorem State.reg_secError_ronpex (s : State) (b port : Nat) {a : Nat} (ha : a ≠ Reg.secErr) (hr : a ∉ reportRegs) :
    (s.secError .ronpex b port).reg .ronpex a = s.reg .ronpex a := by
  have hregs : (s.secError .ronpex b port).rpRegs = (s.setFlag .ronpex Reg.secErr b true).rpRegs := by
    unfold State.secError
    simp
  exact (State.reg_of_rpRegs hregs hr).trans (State.reg_setFlag_other _ _ _ _ _ _ _ (.inr ha.symm))

theorem State.reg_secError_plocen (s : State) (b port : Nat) {a : Nat} (hr : a ∉ epReportRegs) :
    (s.secError .plocen b port).reg .plocen a = s.reg .plocen a := State.reg_of_epOwnRegs (by simp) hr

theorem notMem_epReportRegs_warp {a : Nat} (h : a = Reg.epSeqWstat ∨ (∃ j < 192, a = Reg.epSeqWport j) ∨ (0x200000 ≤ a ∧ a < 0x400000)) : a ∉ epReportRegs := by
  simp only [epReportRegs, List.mem_cons, List.not_mem_nil, or_false, not_or, Reg.epAttErrcnt, Reg.epAttErr, Reg.epOptErr, Reg.epSecErr,
    Reg.epSeqLost, Reg.epSeqWcnt, Reg.epHnkFence, Reg.epSecLogCopylost, Reg.epSeqDupLo, Reg.epSeqDupHi, Reg.epSeqReflLo, Reg.epSeqReflHi,
    Reg.epSeqRefuseLo, Reg.epSeqRefuseHi, Reg.epSeqToutLo, Reg.epSeqToutHi]
  obtain rfl | ⟨j, hj, rfl⟩ | ⟨h1, h2⟩ := h
  · decide
  · unfold Reg.epSeqWport
    omega
  · omega

theorem State.inSky_secError (s : State) (p : Part) (b port : Nat) {q : Nat} (hq : q < 192) (t : Nat) : (s.secError p b port).inSky p q t = s.inSky p q t := by
  cases p with
  | ronpex =>
    obtain ⟨o, m, x, h⟩ := s.secError_ronpex_only b port
    refine State.inSky_congr .ronpex (by rw [h]) (fun _ a ha => ?_) (fun hp => absurd hp (by decide)) hq t
    obtain rfl | ha := ha
    · exact State.reg_secError_ronpex s b port (by decide) (by decide)
    · exact State.reg_secError_ronpex s b port (by unfold Reg.secErr; omega) (notMem_reportRegs ha.1)
  | plocen =>
    obtain ⟨o, m, x, h⟩ := s.secError_plocen_only b port
    exact State.inSky_congr .plocen (by rw [h]) (fun hp => absurd hp (by decide))
      (fun _ a ha => State.reg_secError_plocen s b port (notMem_epReportRegs_warp ha)) hq t

theorem State.rekeyOver_late {s : State} {p : Part} {port t0 : Nat} (hport : port < 192) (hr : (s.link p port).keys.rekeyAt = some t0) (hlate : t0 + 10000000 ≤ s.now)
    (hsky : s.skyNow p port = false) : s.rekeyOver p port = (s.secError p 2 port).portDown p port 0x13 := by
  have hnow : (s.secError p 2 port).skyNow p port = false := by
    unfold State.skyNow at hsky ⊢
    rw [now_of_onlyPart (s.linksQuiet_secError p 2 port).only, State.inSky_secError _ _ _ _ hport, hsky]
  unfold State.rekeyOver
  rw [hr]
  exact (if_pos ⟨hlate, by simp [hsky]⟩).trans (if_neg (by simp [hnow]))

/-! ### Frame tags -/

theorem State.frameTag_unchecked {s : State} {p : Part} {port : Nat} (hr : s.lmcRuns p port = true) (hs : s.skyNow p port = false)
    (low : Nat) (tag : BitVec 64) : s.frameTag p port false low tag = s.satFld p (tagstatReg p port) 16 16 1 := by
  unfold State.frameTag
  dsimp only
  rw [if_neg (by simp [hr, hs])]
  exact if_pos rfl

/-- The tag received of a frame has been compared. -/
def State.tagDone (s : State) (p : Part) (port f : Nat) : State :=
  s.modKeys p port fun y => { y with rxDone := y.rxDone.filter fun z => z.1 != f }

/-- A tag that differs has been counted and reported. -/
def State.tagBad (s : State) (p : Part) (port f : Nat) : State :=
  (((s.tagDone p port f).satFld p (tagstatReg p port) 0 16 1).pcond p 0x0C 6 0 port 0 0 (f % 2 ^ 32) 0).secError p 0 port

theorem State.frameTag_checked {s : State} {p : Part} {port f : Nat} {x : BitVec 128} {tag : BitVec 64} (hd : (s.link p port).keys.rxDone = [(f, x, true)])
    (hr : s.lmcRuns p port = true) (hs : s.skyNow p port = false) (hb : x.toNat % 2 ^ 64 = tag.toNat ∨ (s.link p port).keys.bad = []) :
    s.frameTag p port true (f % 4096) tag = if x.toNat % 2 ^ 64 = tag.toNat then s.tagDone p port f
      else (s.tagBad p port f).modKeys p port fun y => { y with bad := [f] } := by
  unfold State.frameTag
  dsimp only
  rw [if_neg (by simp [hr, hs]), hd, List.find?_cons_of_pos (by simp)]
  dsimp only
  rw [if_neg (by decide), if_neg (by decide)]
  by_cases he : x.toNat % 2 ^ 64 = tag.toNat
  · rw [if_pos he, if_pos he]
    rfl
  · rw [if_neg he, if_neg he, hb.resolve_left he]
    exact if_neg (by simp)

theorem State.linkSet_tagDone {s : State} {p : Part} {port f : Nat} {x : BitVec 128} {clean : Bool}
    (hd : (s.link p port).keys.rxDone = [(f, x, clean)]) (L : List Nat) : State.LinkSet p port L
      { s.link p port with keys := { (s.link p port).keys with rxDone := [] } } s (s.tagDone p port f) := by
  have h := s.linkSet_modKeys p port L fun y => { y with rxDone := y.rxDone.filter fun z => z.1 != f }
  rw [hd, List.filter_cons_of_neg (by simp), List.filter_nil] at h
  exact h

theorem State.flag_secError (s : State) (p : Part) {b : Nat} (hb : b < 32) (port : Nat) :
    (s.secError p b port).flag p (secErrReg p) b = true := by
  cases p with
  | ronpex =>
    have hregs : (s.secError .ronpex b port).rpRegs = (s.setFlag .ronpex Reg.secErr b true).rpRegs := by
      unfold State.secError
      simp
    exact (State.flag_congr (State.reg_of_rpRegs hregs (by decide)) b).trans (State.flag_setFlag_same _ _ _ hb)
  | plocen =>
    have hr := State.raised_epErr (s.setFlag .plocen Reg.epSecErr b true) (b := errSecurity) (by decide)
    exact (State.flag_congr (hr.regs _ (by decide)) b).trans (State.flag_setFlag_same _ _ _ hb)

theorem tagstat_unreported {port : Nat} : Reg.secPTagstat port ∉ reportRegs := by
  simp only [reportRegs, List.mem_cons, List.not_mem_nil, or_false, not_or, Reg.secPTagstat, Reg.logLost, Reg.mgtEvtOvf, Reg.mgtMsixPba]
  omega

theorem epTagstat_unreported {port : Nat} (hp : port < 192) : Reg.epSecPTagstat port ∉ epReportRegs := by
  simp only [epReportRegs, List.mem_cons, List.not_mem_nil, or_false, not_or, Reg.epAttErrcnt, Reg.epAttErr, Reg.epOptErr, Reg.epSecErr,
    Reg.epSeqLost, Reg.epSeqWcnt, Reg.epHnkFence, Reg.epSecLogCopylost, Reg.epSeqDupLo, Reg.epSeqDupHi, Reg.epSeqReflLo, Reg.epSeqReflHi,
    Reg.epSeqRefuseLo, Reg.epSeqRefuseHi, Reg.epSeqToutLo, Reg.epSeqToutHi, Reg.epSecPTagstat]
  omega

theorem State.tagstat_pcond (s : State) (p : Part) {port : Nat} (hp : port < 192) (code origin requester q skein addr old new : Nat) :
    (s.pcond p code origin requester q skein addr old new).reg p (tagstatReg p port) = s.reg p (tagstatReg p port) := by
  cases p with
  | ronpex => exact State.reg_of_rpRegs (State.rpRegs_rpLog _ _) tagstat_unreported
  | plocen => exact State.reg_of_epOwnRegs (by simp) (epTagstat_unreported hp)

theorem State.tagstat_secError (s : State) (p : Part) {port : Nat} (hp : port < 192) (b q : Nat) :
    (s.secError p b q).reg p (tagstatReg p port) = s.reg p (tagstatReg p port) := by
  cases p with
  | ronpex =>
    refine State.reg_secError_ronpex s b q ?_ tagstat_unreported
    simp only [tagstatReg, Reg.secErr, Reg.secPTagstat]
    omega
  | plocen => exact State.reg_secError_plocen s b q (epTagstat_unreported hp)

theorem tagstat_not_psBase (p : Part) {port q : Nat} (hp : port < 192) (hq : q < 192) : psBase p q + 4 ≠ tagstatReg p port := by
  cases p
  · simp only [psBase, portSetBase, engineBase, tagstatReg, Reg.secPTagstat]
    omega
  · simp only [psBase, epPortSetBase, tagstatReg, Reg.epSecPTagstat]
    omega

/-- A tag that differs counts, and is shown as an error. -/
theorem State.tagBad_does {s : State} {p : Part} {port : Fin 192} {f : Nat} {x : BitVec 128} {clean : Bool}
    (hd : (s.link p port).keys.rxDone = [(f, x, clean)]) :
    (s.tagBad p port f).fld p (tagstatReg p port) 0 16 = satAdd 16 (s.fld p (tagstatReg p port) 0 16) 1
      ∧ (s.tagBad p port f).flag p (secErrReg p) 0 = true
      ∧ (s.tagBad p port f).link p port = { s.link p port with keys := { (s.link p port).keys with rxDone := [] } }
      ∧ otherPorts p port s (s.tagBad p port f) ∧ onlyPart p s (s.tagBad p port f) := by
  have hset := (State.linkSet_tagDone hd [tagstatReg p port]).satFld (List.mem_singleton.2 rfl) 0 16 1
  have hquiet := (((s.tagDone p port f).satFld p (tagstatReg p port) 0 16 1).linksQuiet_pcond p 0x0C 6 0 port 0 0 (f % 2 ^ 32) 0).trans
    (State.linksQuiet_secError p _ 0 port)
  have hreg : (s.tagBad p port f).reg p (tagstatReg p port)
      = ((s.tagDone p port f).satFld p (tagstatReg p port) 0 16 1).reg p (tagstatReg p port) :=
    (State.tagstat_secError _ p port.2 0 port).trans (State.tagstat_pcond _ p port.2 0x0C 6 0 port 0 0 (f % 2 ^ 32) 0)
  have hdone : (s.tagDone p port f).fld p (tagstatReg p port) 0 16 = s.fld p (tagstatReg p port) 0 16 :=
    (State.linkSet_tagDone hd []).fld _ 0 16
  have hother := hset.otherPorts fun q hq _ => by
    have := partPorts_le p
    rw [List.mem_singleton]
    exact tagstat_not_psBase p port.2 (by omega)
  have hnear := hquiet.near port.2
  refine ⟨by rw [State.fld_congr hreg, State.fld_satFld_same _ _ _ _ _ _ (by omega), hdone], State.flag_secError _ p (by omega) port,
    (hquiet.links port).trans hset.link, fun q hq hne => ?_, onlyPart_trans (onlyPart_of_onlyLink hset.only) hquiet.only⟩
  exact ⟨(hnear.others q hq hne).1.trans (hother q hq hne).1, (hnear.others q hq hne).2.trans (hother q hq hne).2⟩

theorem watched_iff {s : State} {p : Part} {port : Nat} : s.watched p port = true ↔ s.portUp p port = true ∧ s.skyNow p port = false := by
  simp [State.watched]

theorem State.portState_of_up {s : State} {p : Part} {port : Nat} (h : s.portUp p port = true) : s.portState p port = 2 ∨ s.portState p port = 3 := by
  simpa [State.portUp] using h

/-- Settles O35: each step of a rekey changes the keys of its own link alone; the blocks after F' are tried under both keys, and a tag that
differs is counted and shown. -/
theorem rekeying : Obligations.Rekeying := by
  unfold Obligations.Rekeying
  rintro s p port l k rfl
  refine ⟨fun hup htx hno hcnt => ?_, fun gen frame hl hup hf => ?_, fun gen frame b hl hs => ?_, fun x y gen f hf hs hup => ⟨fun hd => ?_, fun hd => ?_⟩,
    fun o y b ho hy hn hp => ?_, fun gen f hs hst hlate => ?_, fun t0 hr hlate hw => ?_,
    fun f x clean good tag hd hr hsky hgood => ⟨fun hg => ?_, fun hg hc he => ?_, fun hg hc he hb => ?_⟩⟩
  · have hset := s.linkSet_rekeyMarked p port
    exact ⟨_, congrArg Host.Outcome.next (State.rekey_begins hup htx hno hcnt), hset.only, hset.regs, hset.link⟩
  · have hset := (s.linkSet_modKeys p port [] fun k => { k with switch := some (gen, frame, true) }).lmcPush [.key 5 gen (leBytes 8 frame)]
    exact ⟨_, congrArg Host.Outcome.next ((if_pos hl).trans (State.switchIn_acknowledges hup hf gen frame)), hset.only, hset.regs, hset.link⟩
  · have hset := State.linkSet_switchAckIn hs
    exact ⟨_, congrArg Host.Outcome.next (if_pos hl), hset.only, hset.regs, hset.link⟩
  · exact congrArg Host.Outcome.next ((State.keySwitch_due hf hs).trans (if_neg (by simp [hd])))
  · have hset := ((State.LinkSet.refl p port [keygenReg p port] s).satFld (List.mem_singleton.2 rfl) 0 16 1).modKeys (s.switchedKeys p port x y)
    refine ⟨_, congrArg Host.Outcome.next ((State.keySwitch_due hf hs).trans (if_pos ⟨hd, hup⟩)), hset.only, hset.regs, ?_, hset.link⟩
    exact (State.fld_congr (State.reg_modLinkOf _ _ _ _ _) 0 16).trans (State.fld_satFld_same _ _ _ _ _ _ (by omega))
  · obtain ⟨k', ⟨hold, hnext, htx, hrx⟩, hk⟩ := Link.received_keys hy hn hp s.now b
    have hlink : (s.rxBlock p port b).link p port = (s.link p port).received s.now b := s.link_rxLink p port _
    rw [hlink, hk, LinkKeys.probe_kept (hold.trans ho) hnext]
    split
    · exact ⟨rfl, hrx, htx⟩
    · next hne =>
      split
      · exact ⟨rfl, hrx⟩
      · next htried =>
        refine ⟨rfl, rfl, rfl, rfl, State.gen_rxLink (l := (s.link p port).received s.now b) ho ?_ ?_⟩
        · rw [hk, LinkKeys.probe_kept (hold.trans ho) hnext, if_neg hne, if_neg htried]
        · rw [hk, LinkKeys.probe_kept (hold.trans ho) hnext, if_neg hne, if_neg htried]
          rfl
  · have hset := s.linkSet_modKeys p port [] fun x => { x with switch := some (gen, s.switchFrame, false) }
    exact ⟨_, congrArg Host.Outcome.next (State.switchRetry_late hs hst hlate), hset.only, hset.regs, hset.link⟩
  · obtain ⟨hup, hsky⟩ := watched_iff.1 hw
    have hstate : (s.secError p 2 port).portState p port = s.portState p port :=
      State.portState_of_reg ((s.linksQuiet_secError p 2 port).regs _ (linkReg_psBase p port.2 (by omega)))
    have hin := State.portState_of_up hup
    refine ⟨_, congrArg Host.Outcome.next (State.rekeyOver_late port.2 hr hlate hsky), wentDown_of_near ((s.linksQuiet_secError p 2 port).near port.2)
      (wentDown_portDown port.2 (by omega) ?_ ?_ ?_)⟩ <;> omega
  · have hset := (State.LinkSet.refl p port [tagstatReg p port] s).satFld (List.mem_singleton.2 rfl) 16 16 1
    refine ⟨_, congrArg Host.Outcome.next ?_, hset.only, hset.link, State.fld_satFld_same _ _ _ _ _ _ (by omega),
      State.fld_setFld_outside _ _ (by omega) (by omega), hset.regs⟩
    rw [← hgood, hg]
    exact State.frameTag_unchecked hr hsky _ tag
  · have hset := State.linkSet_tagDone hd []
    refine ⟨_, congrArg Host.Outcome.next ?_, hset.only, hset.regs, hset.link⟩
    subst hc
    rw [← hgood, hg, State.frameTag_checked hd hr hsky (.inl he), if_pos he]
  · obtain ⟨h1, h2, h3, h4, h5⟩ := State.tagBad_does hd
    have hset := (s.tagBad p port f).linkSet_modKeys p port [] fun y => { y with bad := [f] }
    have hother := hset.otherPorts fun _ _ _ => List.not_mem_nil
    refine ⟨_, congrArg Host.Outcome.next ?_, (hset.fld _ 0 16).trans h1, (State.flag_congr (hset.reg _) 0).trans h2, ?_,
      fun q hq hne => ⟨(hother q hq hne).1.trans (h4 q hq hne).1, (hother q hq hne).2.trans (h4 q hq hne).2⟩,
      onlyPart_trans h5 (onlyPart_of_onlyLink hset.only)⟩
    · subst hc
      rw [← hgood, hg, State.frameTag_checked hd hr hsky (.inr hb), if_neg he]
    · rw [hset.link, h3]

end Sys2Proof.Machine
end

section
/-! Key agreement in training (R329-R331). -/

namespace Sys2Proof.Machine

open Sys2Proof Sys2Proof.Claims

/-! ### An end without an ephemeral key of its own -/

theorem State.checkSig_ownless {s : State} {p : Part} {port : Nat} (h : (s.link p port).keys.own = none) : s.checkSig p port = s := by
  unfold State.checkSig
  dsimp only
  cases s.farIdentity p port with
  | none => rfl
  | some far => exact if_pos (by simp [h])

theorem State.sendSig_ownless {s : State} {p : Part} {port : Nat} (h : (s.link p port).keys.own = none) : s.sendSig p port = s := by
  unfold State.sendSig
  dsimp only
  cases s.farIdentity p port with
  | none => rfl
  | some far => exact if_pos (by simp [h])

/-- A fragment of CERT is kept. -/
def State.certKept (s : State) (p : Part) (port f : Nat) (d : List Byte) : State :=
  s.modKeys p port fun k => { k with cert := spliceBytes k.cert (8 * f) (sliceBytes d 0 8) }

/-- A fragment of EPH is kept. -/
def State.ephKept (s : State) (p : Part) (port f : Nat) (d : List Byte) : State :=
  s.modKeys p port fun k => { k with eph := spliceBytes k.eph (8 * f) (sliceBytes d 0 8) }

/-- A fragment of SIG is kept. -/
def State.sigKept (s : State) (p : Part) (port f : Nat) (d : List Byte) : State :=
  s.modKeys p port fun k => { k with sig := spliceBytes k.sig (8 * f) (sliceBytes d 0 8) }

theorem State.linkSet_certKept (s : State) (p : Part) (port : Nat) (L : List Nat) (f : Nat) (d : List Byte) : State.LinkSet p port L
    { s.link p port with keys := { (s.link p port).keys with cert := spliceBytes (s.link p port).keys.cert (8 * f) (sliceBytes d 0 8) } } s
    (s.certKept p port f d) :=
  s.linkSet_modKeys p port L fun k => { k with cert := spliceBytes k.cert (8 * f) (sliceBytes d 0 8) }

theorem State.linkSet_ephKept (s : State) (p : Part) (port : Nat) (L : List Nat) (f : Nat) (d : List Byte) : State.LinkSet p port L
    { s.link p port with keys := { (s.link p port).keys with eph := spliceBytes (s.link p port).keys.eph (8 * f) (sliceBytes d 0 8) } } s
    (s.ephKept p port f d) :=
  s.linkSet_modKeys p port L fun k => { k with eph := spliceBytes k.eph (8 * f) (sliceBytes d 0 8) }

theorem State.linkSet_sigKept (s : State) (p : Part) (port : Nat) (L : List Nat) (f : Nat) (d : List Byte) : State.LinkSet p port L
    { s.link p port with keys := { (s.link p port).keys with sig := spliceBytes (s.link p port).keys.sig (8 * f) (sliceBytes d 0 8) } } s
    (s.sigKept p port f d) :=
  s.linkSet_modKeys p port L fun k => { k with sig := spliceBytes k.sig (8 * f) (sliceBytes d 0 8) }

theorem State.portUp_of_state {s : State} {p : Part} {port : Nat} (h : s.portState p port = 1) : s.portUp p port = false := by
  simp [State.portUp, h]

theorem State.certIn_ownless {s : State} {p : Part} {port : Nat} (h1 : s.portState p port = 1) (ho : (s.link p port).keys.own = none)
    (f : Nat) (d : List Byte) : s.certIn p port f d = s.certKept p port f d := by
  have hown : ((s.certKept p port f d).link p port).keys.own = none := by
    rw [(s.linkSet_certKept p port [] f d).link]
    exact ho
  exact (if_pos h1).trans (State.checkSig_ownless hown)

theorem State.sigIn_training {s : State} {p : Part} {port : Nat} (h1 : s.portState p port = 1) (f : Nat) (d : List Byte) :
    s.sigIn p port f d = (s.sigKept p port f d).checkSig p port := if_pos (.inl h1)

theorem State.ephIn_ownless {s : State} {p : Part} {port : Nat} (h1 : s.portState p port = 1) (ho : (s.link p port).keys.own = none)
    (f : Nat) (d : List Byte) : s.ephIn p port f d = s.ephKept p port f d := by
  have hown : ((s.ephKept p port f d).link p port).keys.own = none := by
    rw [(s.linkSet_ephKept p port [] f d).link]
    exact ho
  have hup := State.portUp_of_state h1
  unfold State.ephIn
  dsimp only
  rw [if_neg (by omega), if_neg (by simp [hup])]
  exact (congrArg (State.checkSig · p port) (State.sendSig_ownless hown)).trans (State.checkSig_ownless hown)

/-! ### The three are whole -/

theorem State.transcript_sigKept (s : State) (p : Part) (port f : Nat) (d : List Byte) (far : Identity) :
    (s.sigKept p port f d).transcript p port far = s.transcript p port far := by
  unfold State.transcript State.ownIdentity
  rw [(s.linkSet_sigKept p port [] f d).link]

theorem State.newKeys_sigKept (s : State) (p : Part) (port f : Nat) (d : List Byte) (far : Identity) :
    (s.sigKept p port f d).newKeys p port far = s.newKeys p port far := by
  unfold State.newKeys State.ownIdentity
  rw [State.transcript_sigKept, (s.linkSet_sigKept p port [] f d).link]

/-- An agreement is whole: the port agrees, has an ephemeral key of its own and knows the far end. -/
structure State.AgreementWhole (s : State) (p : Part) (port : Nat) (far : Identity) : Prop where
  agreeing : s.agreeing p port = true
  own : (s.link p port).keys.own.isSome = true
  far : s.farIdentity p port = some far
  sig : keyWhole (s.link p port).keys.sig = true
  eph : keyWhole (s.link p port).keys.eph = true
  cert : keyWhole (s.link p port).keys.cert = true

/-- What the far end signs in an agreement. -/
def State.agreementHash (s : State) (p : Part) (port : Nat) (far : Identity) : List Byte :=
  leBytes 48 (Config.sha384 (s.transcript p port far)).toNat

theorem State.checkSig_whole {s : State} {p : Part} {port : Nat} {far : Identity} (h : s.AgreementWhole p port far) : s.checkSig p port
      = if Config.chainVerifies (keyObject (s.link p port).keys.cert) = true
          ∧ Config.chainSerial (keyObject (s.link p port).keys.cert) = far.serial
          ∧ Config.signatureVerifies (keyObject (s.link p port).keys.cert) (s.agreementHash p port far) (keyObject (s.link p port).keys.sig) = true
        then s.keysAgreed p port far
        else s.keysFailed p port (if Config.chainVerifies (keyObject (s.link p port).keys.cert) = false then 1
          else if Config.chainSerial (keyObject (s.link p port).keys.cert) ≠ far.serial then 3 else 2) := by
  obtain ⟨hag, hown, hfar, hsig, heph, hcert⟩ := h
  have hno : (s.link p port).keys.own.isNone = false := by simpa [Option.isSome_iff_ne_none] using hown
  unfold State.checkSig
  dsimp only
  rw [hfar]
  dsimp only
  rw [hag, hno, hsig, heph, hcert, if_neg (by decide)]
  unfold State.agreementHash
  cases hv : Config.chainVerifies (keyObject (s.link p port).keys.cert) with
  | false => simp
  | true =>
    by_cases hs : Config.chainSerial (keyObject (s.link p port).keys.cert) = far.serial
    · cases hg : Config.signatureVerifies (keyObject (s.link p port).keys.cert) (leBytes 48 (Config.sha384 (s.transcript p port far)).toNat)
          (keyObject (s.link p port).keys.sig) with
      | false => simp [hs]
      | true => simp [hs]
    · simp [hs]

/-- The agreement is over, and its hash is kept by. -/
def LinkKeys.agreed (k : LinkKeys) (prev : List Byte) : LinkKeys :=
  { k with prev := prev, own := none, eph := [], sig := [], sigOut := false, accepted := true }

/-- New keys are used at once, with their counters at 0. -/
def LinkKeys.adopts (k : LinkKeys) (x y : BitVec 288) : LinkKeys :=
  { k with tx := some x, rx := some y, txCnt := 0, rxCnt := 0, txTag := 0, rxTag := 0, rxNext := none, old := none }

theorem State.keysAgreed_training {s : State} {p : Part} {port : Nat} (h : (s.link p port).keys.rekeyAt = none) (far : Identity) :
    s.keysAgreed p port far = ((s.modKeys p port (·.agreed (s.agreementHash p port far))).satFld p (keygenReg p port) 0 16 1).modKeys p port
      (·.adopts (s.newKeys p port far).1 (s.newKeys p port far).2) := by
  unfold State.keysAgreed
  dsimp only
  rw [h]
  rfl

theorem State.linkSet_keysAgreed {s : State} {p : Part} {port : Nat} (h : (s.link p port).keys.rekeyAt = none) (far : Identity) :
    State.LinkSet p port [keygenReg p port] { s.link p port with
      keys := ((s.link p port).keys.agreed (s.agreementHash p port far)).adopts (s.newKeys p port far).1 (s.newKeys p port far).2 } s
      (s.keysAgreed p port far) := by
  rw [State.keysAgreed_training h]
  exact ((s.linkSet_modKeys p port [keygenReg p port] (·.agreed (s.agreementHash p port far))).satFld (List.mem_singleton.2 rfl) 0 16 1).modKeys
    (·.adopts (s.newKeys p port far).1 (s.newKeys p port far).2)

theorem State.gen_keysAgreed {s : State} {p : Part} {port : Nat} (h : (s.link p port).keys.rekeyAt = none) (far : Identity) :
    (s.keysAgreed p port far).fld p (keygenReg p port) 0 16 = satAdd 16 (s.fld p (keygenReg p port) 0 16) 1 := by
  rw [State.keysAgreed_training h, State.modKeys, State.fld_congr (State.reg_modLinkOf _ _ _ _ _), State.fld_satFld_same _ _ _ _ _ _ (by omega),
    State.modKeys, State.fld_congr (State.reg_modLinkOf _ _ _ _ _)]

theorem keygen_not_psBase (p : Part) {port : Nat} (hp : port < 192) (q : Nat) (hq : q < 192) : psBase p q + 4 ≠ keygenReg p port := by
  cases p
  · simp only [psBase, portSetBase, engineBase, keygenReg, Reg.secPKeygen]
    omega
  · simp only [psBase, epPortSetBase, keygenReg, Reg.epSecPKeygen]
    omega

/-! ### An agreement fails -/

theorem State.portState_secError (s : State) (p : Part) (b port : Nat) {q : Nat} (hq : q < 192) :
    (s.secError p b port).portState p q = s.portState p q :=
  State.portState_of_reg ((s.linksQuiet_secError p b port).regs _ (linkReg_psBase p hq (by omega)))

/-- ABORT is the next message, and the agreement has failed. -/
def State.abortQueued (s : State) (p : Part) (port reason : Nat) : State :=
  s.modLink p port fun l => { l with lmcQ := .key 7 0 (leBytes 8 reason) :: l.lmcQ, keys := { l.keys with failed := some 7 } }

theorem State.keysFailed_training {s : State} {p : Part} {port : Nat} (hr : (s.link p port).keys.rekeyAt = none)
    (hf : (s.link p port).keys.failed = none) (reason : Nat) :
    s.keysFailed p port reason = (s.secError p 1 port).abortQueued p port reason := by
  unfold State.keysFailed
  dsimp only
  rw [hf, hr, if_neg (by decide)]
  unfold LinkKeys.failCause
  rw [hr]
  rfl

theorem aborts_keysFailed {s : State} {p : Part} {port : Nat} (hp : port < 192) (hr : (s.link p port).keys.rekeyAt = none)
    (hf : (s.link p port).keys.failed = none) (reason : Nat) : aborts p port reason s (s.keysFailed p port reason) := by
  have hquiet := s.linksQuiet_secError p 1 port
  have hset := (s.secError p 1 port).linkSet_modLink p port []
    fun l => { l with lmcQ := .key 7 0 (leBytes 8 reason) :: l.lmcQ, keys := { l.keys with failed := some 7 } }
  have hother := hset.otherPorts fun _ _ _ => List.not_mem_nil
  have hnear := (hquiet.near hp).others
  rw [State.keysFailed_training hr hf, State.abortQueued]
  refine ⟨?_, ?_, (hset.fld _ 0 3).trans (State.portState_secError s p 1 port hp),
    fun q hq hne => ⟨(hother q hq hne).1.trans (hnear q hq hne).1, (hother q hq hne).2.trans (hnear q hq hne).2⟩,
    onlyPart_trans hquiet.only (onlyPart_of_onlyLink hset.only)⟩
  · rw [hset.link, hquiet.links]
  · rw [hset.link]
    rfl

theorem aborts_of_linkSet {p : Part} {port reason : Nat} {l : Link} {s t u : State} (h : State.LinkSet p port [] l s t)
    (hq : l.lmcQ = (s.link p port).lmcQ) (k : aborts p port reason t u) : aborts p port reason s u := by
  obtain ⟨k1, k2, k3, k4, k5⟩ := k
  have hother := h.otherPorts fun _ _ _ => List.not_mem_nil
  exact ⟨by rw [k1, h.link, hq], k2, k3.trans (h.fld _ 0 3),
    fun q hq hne => ⟨(k4 q hq hne).1.trans (hother q hq hne).1, (k4 q hq hne).2.trans (hother q hq hne).2⟩,
    onlyPart_trans (onlyPart_of_onlyLink h.only) k5⟩

theorem State.agreeing_training {s : State} {p : Part} {port : Nat} (h1 : s.portState p port = 1) (h7 : (s.link p port).step = 7)
    (hf : (s.link p port).keys.failed = none) : s.agreeing p port = true := by
  simp [State.agreeing, h1, h7, hf]

/-- The fragment of SIG that was missing. -/
theorem State.agreementWhole_sigKept {s : State} {p : Part} {port n f : Nat} {d : List Byte} {far : Identity} (h1 : s.portState p port = 1)
    (h7 : (s.link p port).step = 7) (hn : (s.link p port).keys.own = some n) (hf : (s.link p port).keys.failed = none)
    (hfar : s.farIdentity p port = some far) (hg : keyWhole (spliceBytes (s.link p port).keys.sig (8 * f) (sliceBytes d 0 8)) = true)
    (he : keyWhole (s.link p port).keys.eph = true) (hc : keyWhole (s.link p port).keys.cert = true) :
    (s.sigKept p port f d).AgreementWhole p port far := by
  have hset := s.linkSet_sigKept p port [] f d
  have hlink := hset.link
  have hkept : (s.sigKept p port f d).farIdentity p port = s.farIdentity p port := by
    unfold State.farIdentity
    dsimp only
    rw [hset.reg, hset.reg, hset.reg]
  exact ⟨State.agreeing_training ((hset.fld _ 0 3).trans h1) (by rw [hlink, h7]) (by rw [hlink]; exact hf), by rw [hlink]; exact Option.isSome_of_eq_some hn,
    hkept.trans hfar, by rw [hlink]; exact hg, by rw [hlink]; exact he, by rw [hlink]; exact hc⟩

theorem State.abortIn_agreeing {s : State} {p : Part} {port : Nat} (ha : s.agreeing p port = true) (hr : (s.link p port).keys.rekeyAt = none) :
    s.abortIn p port = (s.secError p 1 port).portDown p port 7 := by
  unfold State.abortIn
  rw [if_pos ha]
  dsimp only
  unfold LinkKeys.failCause
  rw [hr]
  rfl

theorem lmcTaken_of_good {s : State} {p : Part} {port : Nat} (hr : s.lmcRuns p port = true) (hs : s.skyNow p port = false) {l : Lmc} {m : LmcMsg}
    (hg : lmcGood l m = true) : s.lmcTaken p port l m = true := by
  simp [State.lmcTaken, hr, hs, hg]

/-- Settles O34: fragments are collected in the keys of the link alone; the last one of SIG is checked against the certificate and the
transcript, and an ABORT takes the port DOWN. -/
theorem keyAgreement : Obligations.KeyAgreement := by
  unfold Obligations.KeyAgreement
  intro s p port l hr hs h1
  refine ⟨fun ho f d => ⟨fun hg => ?_, fun hg => ?_, fun hg => ?_⟩, ?_, fun reason hg h7 hre hf => ?_⟩
  · have hset := s.linkSet_certKept p port [] f d
    exact ⟨_, congrArg Host.Outcome.next ((if_pos (lmcTaken_of_good hr hs hg)).trans (State.certIn_ownless h1 ho f d)), hset.only, hset.regs, hset.link⟩
  · have hset := s.linkSet_ephKept p port [] f d
    exact ⟨_, congrArg Host.Outcome.next ((if_pos (lmcTaken_of_good hr hs hg)).trans (State.ephIn_ownless h1 ho f d)), hset.only, hset.regs, hset.link⟩
  · have hset := s.linkSet_sigKept p port [] f d
    exact ⟨_, congrArg Host.Outcome.next ((if_pos (lmcTaken_of_good hr hs hg)).trans ((State.sigIn_training h1 f d).trans
      (State.checkSig_ownless (by rw [hset.link]; exact ho)))), hset.only, hset.regs, hset.link⟩
  · rintro n f d g far hg h7 hn hre hf hfar rfl hsig heph hcert
    have hset := s.linkSet_sigKept p port [keygenReg p port] f d
    have hlink := hset.link
    have hre' : ((s.sigKept p port f d).link p port).keys.rekeyAt = none := by
      rw [hlink]
      exact hre
    have hf' : ((s.sigKept p port f d).link p port).keys.failed = none := by
      rw [hlink]
      exact hf
    have hcheck := State.checkSig_whole (State.agreementWhole_sigKept h1 h7 hn hf hfar hsig heph hcert)
    refine ⟨_, congrArg Host.Outcome.next ((if_pos (lmcTaken_of_good hr hs hg)).trans ((State.sigIn_training h1 f d).trans hcheck)), ?_⟩
    rw [State.agreementHash, State.transcript_sigKept, hlink]
    split
    · have hag := State.linkSet_keysAgreed hre' far
      have hall := hset.trans hag
      refine ⟨by rw [hag.link, State.newKeys_sigKept]; rfl, by rw [hag.link, State.newKeys_sigKept]; rfl, by rw [hag.link]; rfl,
        by rw [hag.link]; rfl, by rw [hag.link]; rfl, ?_, ?_, hall.only, hall.regs⟩
      · rw [State.gen_keysAgreed hre', (s.linkSet_sigKept p port [] f d).fld]
      · exact (State.portState_of_reg (hall.regs _ (by
          rw [List.mem_singleton]
          exact keygen_not_psBase p port.2 port port.2))).trans h1
    · exact aborts_of_linkSet (s.linkSet_sigKept p port [] f d) rfl (aborts_keysFailed port.2 hre' hf' _)
  · have hstate := (State.portState_secError s p 1 port port.2).trans h1
    exact ⟨_, congrArg Host.Outcome.next ((if_pos (lmcTaken_of_good hr hs hg)).trans (State.abortIn_agreeing (State.agreeing_training h1 h7 hf) hre)),
      wentDown_of_near ((s.linksQuiet_secError p 1 port).near port.2)
        (wentDown_portDown port.2 (by omega) (by omega) (by omega) (by omega))⟩

end Sys2Proof.Machine
end

section
/-! Lane swaps (R287-R289, R299). -/

namespace Sys2Proof.Machine

open Sys2Proof Sys2Proof.Claims

/-! ### Requests and acknowledgements -/

/-- The own request of a swap. -/
def State.swapAsked (s : State) (p : Part) (port lane reason : Nat) : Swap :=
  { lane := lane, reason := reason, frame := s.swapFrame p port % 2 ^ 32, asked := true, acked := false }

/-- A swap is kept in the link. -/
def Link.withSwap (l : Link) (w : Swap) : Link := { l with swap := some w }

/-- A revalidation is abandoned, to start again. -/
def Link.abandons (l : Link) (r : Reval) : Link := { l with reval := none, again := some (r.cls, r.temp) }

theorem State.swapReqIn_taken {s : State} {p : Part} {port lane reason frame : Nat} (hup : s.portUp p port = true) (hl : lane < 8)
    (hf : s.now + 1000 ≤ frameTime s.now frame) (hs : (s.link p port).swap = none) (hg : s.spareGone p port = false) (hr : reason ≠ 1) :
    s.swapReqIn p port lane reason frame
      = (s.modLink p port (·.withSwap { lane := lane, reason := reason, frame := frame, asked := false, acked := true })).lmcPush p port
        [.swapAck lane reason frame] := by
  unfold State.swapReqIn
  dsimp only
  rw [hs]
  dsimp only
  rw [if_neg (by simp [hup, hg]; omega), if_neg hr]
  rfl

theorem State.swapReqIn_late {s : State} {p : Part} {port lane reason frame : Nat} (hf : frameTime s.now frame < s.now + 1000) :
    s.swapReqIn p port lane reason frame = s := if_pos (.inr (.inr (.inl hf)))

theorem State.linkSet_swapAckIn {s : State} {p : Part} {port lane frame : Nat} {w : Swap} (hs : (s.link p port).swap = some w)
    (ha : w.asked = true) (hl : w.lane = lane) (hf : w.frame = frame) :
    State.LinkSet p port [] { s.link p port with swap := some { w with acked := true } } s (s.swapAckIn p port lane frame) := by
  have h := s.linkSet_modLink p port [] fun l => { l with swap := l.swap.map fun w : Swap =>
    if w.asked ∧ w.lane = lane ∧ w.frame = frame then { w with acked := true } else w }
  rw [hs, Option.map_some, if_pos ⟨ha, hl, hf⟩] at h
  exact h

/-! ### A failed lane asks for a swap -/

theorem State.askSwap_planned (s : State) (p : Part) (port lane : Nat) {reason : Nat} (h : reason ≠ 1) :
    s.askSwap p port lane reason = s.modLink p port (·.withSwap (s.swapAsked p port lane reason)) := if_neg h

theorem State.askSwap_alone {s : State} {p : Part} {port : Nat} (h : (s.link p port).reval = none) (lane reason : Nat) :
    s.askSwap p port lane reason = s.modLink p port (·.withSwap (s.swapAsked p port lane reason)) := by
  have habandon : (s.modLink p port (·.withSwap (s.swapAsked p port lane reason))).revalAbandon p port
      = s.modLink p port (·.withSwap (s.swapAsked p port lane reason)) := by
    unfold State.revalAbandon
    rw [State.link_modLink_same]
    unfold Link.withSwap
    rw [h]
  by_cases hr : reason = 1
  · exact (if_pos hr).trans habandon
  · exact if_neg hr

/-- A revalidation has ended, and is to start again. -/
def State.revalDropped (s : State) (p : Part) (port : Nat) (r : Reval) : State :=
  ((s.setFlag p (psBase p port + 4) 5 false).modLink p port fun l => { l with reval := none }).modLink p port
    fun l => { l with again := some (r.cls, r.temp) }

theorem State.linkSet_revalDropped {s t : State} {p : Part} {port : Nat} {l : Link} (h : State.LinkSet p port [psBase p port + 4] l s t)
    (r : Reval) : State.LinkSet p port [psBase p port + 4] (l.abandons r) s (t.revalDropped p port r) :=
  ((h.setFlag (List.mem_singleton.2 rfl) 5 false).modLink fun l => { l with reval := none }).modLink
    fun l => { l with again := some (r.cls, r.temp) }

theorem State.askSwap_forced {s : State} {p : Part} {port : Nat} {r : Reval} (h : (s.link p port).reval = some r) (lane : Nat) :
    s.askSwap p port lane 1 = (s.modLink p port (·.withSwap (s.swapAsked p port lane 1))).revalDropped p port r := by
  have hreval : ((s.modLink p port (·.withSwap (s.swapAsked p port lane 1))).link p port).reval = some r := by
    rw [State.link_modLink_same]
    exact h
  have habandon : (s.modLink p port (·.withSwap (s.swapAsked p port lane 1))).revalAbandon p port
      = (s.modLink p port (·.withSwap (s.swapAsked p port lane 1))).revalDropped p port r := by
    unfold State.revalAbandon
    rw [hreval]
    rfl
  unfold State.askSwap
  dsimp only
  rw [if_pos rfl]
  exact habandon

theorem State.reg_revalDropped (s : State) (p : Part) (port : Nat) (r : Reval) (a : Nat) :
    (s.revalDropped p port r).reg p a = (s.setFlag p (psBase p port + 4) 5 false).reg p a :=
  (State.reg_modLinkOf _ _ _ _ _).trans (State.reg_modLinkOf _ _ _ _ _)

/-- What the request of a swap leaves: the swap in the link, and no revalidation where it is forced. -/
structure State.SwapAskedFor (p : Part) (port : Nat) (w : Swap) (s t : State) : Prop where
  only : onlyLink p port s t
  regs : regsBut s t p [psBase p port + 4]
  swap : (t.link p port).swap = some w
  state : t.portState p port = s.portState p port
  reval : w.reason = 1 → (t.link p port).reval = none
  again : w.reason = 1 → ∀ r, (s.link p port).reval = some r →
    t.flag p (psBase p port + 4) 5 = false ∧ (t.link p port).again = some (r.cls, r.temp)

theorem State.swapAskedFor_alone {s : State} {p : Part} {port : Nat} {w : Swap} (h : w.reason = 1 → (s.link p port).reval = none) :
    State.SwapAskedFor p port w s (s.modLink p port (·.withSwap w)) := by
  have hset := s.linkSet_modLink p port [] (·.withSwap w)
  refine ⟨hset.only, fun a _ => hset.reg a, by rw [hset.link]; rfl, hset.fld _ 0 3, fun hr => by rw [hset.link]; exact h hr,
    fun hr r hs => ?_⟩
  rw [h hr] at hs
  exact absurd hs (by simp)

theorem State.swapAskedFor_askSwap (s : State) (p : Part) (port lane reason : Nat) :
    State.SwapAskedFor p port (s.swapAsked p port lane reason) s (s.askSwap p port lane reason) := by
  cases hv : (s.link p port).reval with
  | none =>
    rw [State.askSwap_alone hv]
    exact State.swapAskedFor_alone fun _ => hv
  | some r =>
    by_cases hr : reason = 1
    · subst hr
      have hset := State.linkSet_revalDropped (s.linkSet_modLink p port [psBase p port + 4] (·.withSwap (s.swapAsked p port lane 1))) r
      rw [State.askSwap_forced hv]
      refine ⟨hset.only, hset.regs, by rw [hset.link]; rfl, ?_, fun _ => by rw [hset.link]; rfl, fun _ r' hr' => ?_⟩
      · exact (State.fld_congr (State.reg_revalDropped _ _ _ _ _) 0 3).trans ((State.fld_setFlag_outside _ _ _ (by omega) (by omega)).trans
          (State.fld_congr (State.reg_modLinkOf _ _ _ _ _) 0 3))
      · rw [hset.link, hv.symm.trans hr' |> Option.some.inj]
        exact ⟨(State.flag_congr (State.reg_revalDropped _ _ _ _ _) 5).trans (State.flag_setFlag_same _ _ _ (by omega)), rfl⟩
    · rw [State.askSwap_planned _ _ _ _ hr]
      exact State.swapAskedFor_alone fun h => absurd h hr

/-! ### A swap takes effect -/

/-- The swap, the lanes, the spare and the counts of a port are as before, and so are the other ports. -/
structure State.SwapKept (p : Part) (port : Nat) (s t : State) : Prop where
  swap : (t.link p port).swap = (s.link p port).swap
  regs : ∀ k, k = 8 ∨ k = 0xC ∨ k = 0x7C → t.reg p (psBase p port + k) = s.reg p (psBase p port + k)
  others : otherPorts p port s t
  only : onlyPart p s t

theorem State.SwapKept.refl (p : Part) (port : Nat) (s : State) : State.SwapKept p port s s :=
  ⟨rfl, fun _ _ => rfl, fun _ _ _ => ⟨rfl, rfl⟩, onlyPart_refl p s⟩

theorem State.SwapKept.trans {p : Part} {port : Nat} {s t u : State} (h : State.SwapKept p port s t) (k : State.SwapKept p port t u) :
    State.SwapKept p port s u where
  swap := k.swap.trans h.swap
  regs j hj := (k.regs j hj).trans (h.regs j hj)
  others q hq hne := ⟨(k.others q hq hne).1.trans (h.others q hq hne).1, (k.others q hq hne).2.trans (h.others q hq hne).2⟩
  only := onlyPart_trans h.only k.only

theorem State.LinksQuiet.swapKept {p : Part} {port : Nat} (hp : port < 192) {s t : State} (h : State.LinksQuiet p s t) :
    State.SwapKept p port s t where
  swap := by rw [h.links]
  regs k hk := h.regs _ (linkReg_psBase p hp (by omega))
  others := (h.near hp).others
  only := h.only

/-- Registers of the port beside those of its lanes and counts are written, and its link beside the swap. -/
theorem State.LinkSet.swapKept {p : Part} {port : Nat} {L : List Nat} {l : Link} {s t : State} (h : State.LinkSet p port L l s t)
    (hl : l.swap = (s.link p port).swap) (hL : ∀ a ∈ L, ∃ k < 0x100, a = psBase p port + k ∧ k ≠ 8 ∧ k ≠ 0xC ∧ k ≠ 0x7C) :
    State.SwapKept p port s t where
  swap := by rw [h.link, hl]
  regs k hk := h.regs _ fun hm => by
    obtain ⟨j, _, hj, h8, hC, h7⟩ := hL _ hm
    omega
  others := h.otherPorts fun q hq hne hm => by
    obtain ⟨j, hj, he, _⟩ := hL _ hm
    exact psBase_ne p hne (by omega) hj he
  only := onlyPart_of_onlyLink h.only

theorem State.swapKept_swapEvent (s : State) (p : Part) {port : Nat} (hp : port < 192) (reason w : Nat) :
    State.SwapKept p port s (s.swapEvent p port reason w) := by
  cases p
  · exact (s.linksQuiet_portEvent port 3 reason w).swapKept hp
  · exact State.SwapKept.refl .plocen port s

theorem State.link_draw (s : State) (p : Part) (q : Nat) : s.draw.2.link p q = s.link p q := by
  cases p <;> rfl

theorem State.reg_draw (s : State) (p : Part) (a : Nat) : s.draw.2.reg p a = s.reg p a := by
  cases p <;> rfl

theorem onlyPart_draw (s : State) (p : Part) : onlyPart p s s.draw.2 := by
  cases p <;> exact ⟨rfl, rfl, rfl, rfl⟩

theorem State.swapKept_draw (s : State) (p : Part) (port : Nat) : State.SwapKept p port s s.draw.2 :=
  ⟨by rw [State.link_draw], fun _ _ => State.reg_draw _ _ _,
    fun q _ _ => ⟨State.portState_of_reg (State.reg_draw _ _ _), State.link_draw _ _ _⟩, onlyPart_draw s p⟩

/-- One wavelength is tuned. -/
def State.tuneWl (s : State) (p : Part) (port w : Nat) : State := s.draw.2.lmcPush p port [.tune w (s.draw.1.toNat % 7), .tune w 7]

theorem State.swapKept_tuneWl (s : State) (p : Part) (port w : Nat) : State.SwapKept p port s (s.tuneWl p port w) :=
  (s.swapKept_draw p port).trans (((State.LinkSet.refl p port [] s.draw.2).lmcPush [.tune w (s.draw.1.toNat % 7), .tune w 7]).swapKept rfl
    (by simp))

theorem State.tuneWls_cons (s : State) (p : Part) (port w : Nat) (ws : List Nat) :
    s.tuneWls p port (w :: ws) = (s.tuneWl p port w).tuneWls p port ws := rfl

theorem State.swapKept_tuneWls (p : Part) (port : Nat) (ws : List Nat) (s : State) : State.SwapKept p port s (s.tuneWls p port ws) := by
  induction ws generalizing s with
  | nil => exact State.SwapKept.refl p port s
  | cons w ws ih =>
    rw [State.tuneWls_cons]
    exact (s.swapKept_tuneWl p port w).trans (ih _)

/-- The registers that the beginning of a revalidation writes. -/
def revalRegs (a : Nat) (ws : List Nat) : List Nat := (a + 4) :: ws.map fun w => a + 0xB0 + 4 * w

theorem State.linkSet_unstamped {p : Part} {port : Nat} {L : List Nat} {l : Link} {s : State} (a : Nat) (ws : List Nat) (t : State)
    (h : State.LinkSet p port L l s t) (hL : ∀ w ∈ ws, a + 0xB0 + 4 * w ∈ L) :
    State.LinkSet p port L l s (ws.foldl (fun t w => t.setFlag p (a + 0xB0 + 4 * w) 9 false) t) := by
  induction ws generalizing t with
  | nil => exact h
  | cons w ws ih => exact ih _ (h.setFlag (hL w (by simp)) 9 false) fun v hv => hL v (by simp [hv])

/-- The revalidation that begins. -/
def State.revalBegun (s : State) (p : Part) (port : Nat) (cls : Bool) (temp : Int) : Reval :=
  { since := s.now, temp := temp, cls := cls, retuned := false, todo := List.range 8, corr := s.corrNow p port }

theorem State.linkSet_revalBegin (s : State) (p : Part) (port : Nat) (cls : Bool) (temp : Int) :
    State.LinkSet p port (revalRegs (psBase p port) (s.dataWls p port)) { s.link p port with
      again := none, reval := some (s.revalBegun p port cls temp), lmcQ := (s.link p port).lmcQ ++ [.stress true] } s
      (s.revalBegin p port cls temp) := by
  have hunstamped : State.LinkSet p port (revalRegs (psBase p port) (s.dataWls p port)) (s.link p port) s
      ((s.dataWls p port).foldl (fun t w => t.setFlag p (psBase p port + 0xB0 + 4 * w) 9 false) s) :=
    State.linkSet_unstamped _ _ _ (State.LinkSet.refl p port _ s)
      fun w hw => List.mem_cons_of_mem _ (List.mem_map.2 ⟨w, hw, rfl⟩)
  exact ((hunstamped.setFlag List.mem_cons_self 5 true).modLink
    fun k => { k with again := none, reval := some (s.revalBegun p port cls temp) }).lmcPush [.stress true]

theorem State.laneWl_lt (s : State) (p : Part) (port lane : Nat) : s.laneWl p port lane < 16 := Nat.mod_lt _ (by decide)

theorem State.swapKept_revalBegin (s : State) (p : Part) (port : Nat) (cls : Bool) (temp : Int) :
    State.SwapKept p port s (s.revalBegin p port cls temp) := by
  refine (s.linkSet_revalBegin p port cls temp).swapKept rfl fun a ha => ?_
  obtain rfl | ha := List.mem_cons.1 ha
  · exact ⟨4, by omega, rfl, by omega, by omega, by omega⟩
  · obtain ⟨w, hw, rfl⟩ := List.mem_map.1 ha
    obtain ⟨lane, _, rfl⟩ := List.mem_map.1 hw
    have := s.laneWl_lt p port lane
    exact ⟨0xB0 + 4 * s.laneWl p port lane, by omega, by omega, by omega, by omega, by omega⟩

theorem State.swapKept_revalResume (s : State) (p : Part) (port : Nat) : State.SwapKept p port s (s.revalResume p port) := by
  unfold State.revalResume
  dsimp only
  split
  · split
    · exact State.SwapKept.refl p port s
    · exact s.swapKept_revalBegin p port _ _
  · exact State.SwapKept.refl p port s

/-- The lane and the spare have changed places in the registers. -/
def State.swapShown (s : State) (p : Part) (port : Nat) (x : Swap) : State :=
  ((s.setFld p (psBase p port + 8) (4 * x.lane) 4 (s.fld p (psBase p port + 0xC) 0 4)).setReg p (psBase p port + 0xC)
    (s.laneWl p port x.lane + 16)).satFld p (psBase p port + 0x7C) 0 16 1

/-- The link of a port whose lane has moved to the spare. -/
def Link.swapped (l : Link) (lane old : Nat) : Link := { l with
  swap := none, low := SMap.put (fun _ => 0) l.low old 0, checkers := SMap.drop l.checkers old
  laneFails := [], laneDead := setBit lane false l.laneDead }

/-- The lane has moved to the spare. -/
def State.swapMoved (s : State) (p : Part) (port : Nat) (x : Swap) : State :=
  (s.swapShown p port x).modLink p port (·.swapped x.lane (s.laneWl p port x.lane))

/-- A swap that this receiver asked for is followed by the tuning of the displaced wavelength. -/
def State.swapTuned (s : State) (p : Part) (port : Nat) (asked : Bool) (old : Nat) : State := if asked then s.tuneWls p port [old] else s

theorem State.swapNow_eq (s : State) (p : Part) (port : Nat) (x : Swap) : s.swapNow p port x
    = (((s.swapMoved p port x).swapEvent p port x.reason (s.laneWl p port x.lane)).swapTuned p port x.asked
        (s.laneWl p port x.lane)).revalResume p port := rfl

theorem State.swapKept_swapNow (s : State) (p : Part) {port : Nat} (hp : port < 192) (x : Swap) :
    State.SwapKept p port (s.swapMoved p port x) (s.swapNow p port x) := by
  rw [State.swapNow_eq]
  have htune (u : State) : State.SwapKept p port u (u.swapTuned p port x.asked (s.laneWl p port x.lane)) := by
    unfold State.swapTuned
    split
    · exact State.swapKept_tuneWls p port _ u
    · exact State.SwapKept.refl p port u
  exact (((s.swapMoved p port x).swapKept_swapEvent p hp _ _).trans (htune _)).trans (State.swapKept_revalResume _ p port)

/-- What a swap that takes effect leaves. -/
structure State.Swapped (p : Part) (port : Nat) (x : Swap) (s t : State) : Prop where
  swap : (t.link p port).swap = none
  lane : t.laneWl p port x.lane = s.fld p (psBase p port + 0xC) 0 4
  spare : t.reg p (psBase p port + 0xC) = s.laneWl p port x.lane + 16
  count : t.fld p (psBase p port + 0x7C) 0 16 = satAdd 16 (s.fld p (psBase p port + 0x7C) 0 16) 1
  lanes : ∀ j, j < 8 → j ≠ x.lane → t.laneWl p port j = s.laneWl p port j
  others : otherPorts p port s t
  only : onlyPart p s t

theorem State.reg_swapMoved (s : State) (p : Part) (port : Nat) (x : Swap) (a : Nat) :
    (s.swapMoved p port x).reg p a = (s.swapShown p port x).reg p a := State.reg_modLinkOf _ _ _ _ _

theorem State.LinkSet.setReg {p : Part} {port : Nat} {L : List Nat} {l : Link} {s t : State} (h : State.LinkSet p port L l s t)
    {a : Nat} (ha : a ∈ L) (v : Nat) : State.LinkSet p port L l s (t.setReg p a v) := by
  have honly : onlyLink p port t (t.setReg p a v) := by
    cases p <;> exact ⟨fun _ _ => rfl, rfl⟩
  refine ⟨onlyLink_trans h.only honly,
    fun b hb => (State.reg_setReg_other _ _ _ _ _ _ (.inr fun he : a = b => hb (he ▸ ha))).trans (h.regs b hb), ?_⟩
  rw [← h.link]
  cases p <;> rfl

/-- The registers that a swap changes. -/
def swapRegs (a : Nat) : List Nat := [a + 8, a + 0xC, a + 0x7C]

theorem State.linkSet_swapMoved (s : State) (p : Part) (port : Nat) (x : Swap) :
    State.LinkSet p port (swapRegs (psBase p port)) ((s.link p port).swapped x.lane (s.laneWl p port x.lane)) s (s.swapMoved p port x) := by
  have hrefl := State.LinkSet.refl p port (swapRegs (psBase p port)) s
  have h8 : psBase p port + 8 ∈ swapRegs (psBase p port) := by simp [swapRegs]
  have hC : psBase p port + 0xC ∈ swapRegs (psBase p port) := by simp [swapRegs]
  have h7 : psBase p port + 0x7C ∈ swapRegs (psBase p port) := by simp [swapRegs]
  exact (((hrefl.setFld h8 (4 * x.lane) 4 (s.fld p (psBase p port + 0xC) 0 4)).setReg hC
    (s.laneWl p port x.lane + 16)).satFld h7 0 16 1).modLink (·.swapped x.lane (s.laneWl p port x.lane))

/-- The registers of the lanes and the counts of a port whose lane has moved to the spare. -/
theorem State.swapped_swapMoved (s : State) (p : Part) (port : Nat) {x : Swap} (hx : x.lane < 8) :
    State.Swapped p port x s (s.swapMoved p port x) := by
  have hset := s.linkSet_swapMoved p port x
  have hlanes : (s.swapMoved p port x).reg p (psBase p port + 8)
      = (s.setFld p (psBase p port + 8) (4 * x.lane) 4 (s.fld p (psBase p port + 0xC) 0 4)).reg p (psBase p port + 8) :=
    (s.reg_swapMoved p port x _).trans ((State.reg_setFld_other _ _ _ _ _ _ _ _ (.inr (by omega))).trans
      (State.reg_setReg_other _ _ _ _ _ _ (.inr (by omega))))
  refine ⟨by rw [hset.link]; rfl, ?_, ?_, ?_, fun j hj hne => ?_, hset.otherPorts fun q hq hne => ?_, onlyPart_of_onlyLink hset.only⟩
  · refine (State.fld_congr hlanes _ _).trans ((State.fld_setFld_same _ _ _ _ _ _ (by omega)).trans (Nat.mod_eq_of_lt ?_))
    exact Nat.mod_lt _ (by decide)
  · have := s.laneWl_lt p port x.lane
    exact (s.reg_swapMoved p port x _).trans ((State.reg_setFld_other _ _ _ _ _ _ _ _ (.inr (by omega))).trans
      ((State.reg_setReg_same _ _ _ _).trans (Nat.mod_eq_of_lt (by omega))))
  · refine (State.fld_congr (s.reg_swapMoved p port x _) 0 16).trans ((State.fld_satFld_same _ _ _ _ _ _ (by omega)).trans ?_)
    rw [State.fld_congr (State.reg_setReg_other _ _ _ _ _ _ (.inr (by omega))),
      State.fld_congr (State.reg_setFld_other _ _ _ _ _ _ _ _ (.inr (by omega)))]
  · exact (State.fld_congr hlanes _ _).trans (State.fld_setFld_outside _ _ (by omega) (by omega))
  · simp only [swapRegs, List.mem_cons, List.not_mem_nil, or_false, not_or]
    exact ⟨psBase_ne p hne (by omega) (by omega), psBase_ne p hne (by omega) (by omega), psBase_ne p hne (by omega) (by omega)⟩

theorem State.Swapped.kept {p : Part} {port : Nat} {x : Swap} {s t u : State} (h : State.Swapped p port x s t) (k : State.SwapKept p port t u) :
    State.Swapped p port x s u where
  swap := k.swap.trans h.swap
  lane := (State.fld_congr (k.regs 8 (.inl rfl)) _ _).trans h.lane
  spare := (k.regs 0xC (.inr (.inl rfl))).trans h.spare
  count := (State.fld_congr (k.regs 0x7C (.inr (.inr rfl))) _ _).trans h.count
  lanes j hj hne := (State.fld_congr (k.regs 8 (.inl rfl)) _ _).trans (h.lanes j hj hne)
  others q hq hne := ⟨(k.others q hq hne).1.trans (h.others q hq hne).1, (k.others q hq hne).2.trans (h.others q hq hne).2⟩
  only := onlyPart_trans h.only k.only

theorem State.Swapped.drawn {p : Part} {port : Nat} {x : Swap} {s t : State} (h : State.Swapped p port x s.draw.2 t) :
    State.Swapped p port x s t := by
  obtain ⟨h1, h2, h3, h4, h5, h6, h7⟩ := h
  have hfld (a lo len : Nat) : s.draw.2.fld p a lo len = s.fld p a lo len := State.fld_congr (State.reg_draw _ _ _) lo len
  exact ⟨h1, h2.trans (hfld _ _ _), h3.trans (congrArg (· + 16) (hfld _ _ _)), by rw [h4, hfld], fun j hj hne => (h5 j hj hne).trans (hfld _ _ _),
    fun q hq hne => ⟨(h6 q hq hne).1.trans (hfld _ _ _), (h6 q hq hne).2.trans (State.link_draw _ _ _)⟩, onlyPart_trans (onlyPart_draw s p) h7⟩

theorem State.swapped_swapNow (s : State) (p : Part) {port : Nat} (hp : port < 192) {x : Swap} (hx : x.lane < 8) :
    State.Swapped p port x s (s.swapNow p port x) := (s.swapped_swapMoved p port hx).kept (s.swapKept_swapNow p hp x)

theorem State.swapApply_due {s : State} {p : Part} {port : Nat} {x : Swap} (hx : (s.link p port).swap = some x) (hw : s.watched p port = true)
    (hd : frameDue s.now x.frame = true) : s.swapApply p port
      = if x.asked = true ∧ x.acked = false then
          if bit 0 (Config.freeValue s.free).toNat = true then s.draw.2.swapNow p port x else s.draw.2.askSwap p port x.lane x.reason
        else s.swapNow p port x := by
  unfold State.swapApply
  rw [hx]
  dsimp only
  rw [if_neg (by simp [hw, hd])]
  simp only [Bool.not_eq_true', State.draw_fst]
  rfl

theorem State.swapApply_early {s : State} {p : Part} {port : Nat} {x : Swap} (hx : (s.link p port).swap = some x)
    (hd : frameDue s.now x.frame = false) : s.swapApply p port = s := by
  unfold State.swapApply
  rw [hx]
  exact if_pos (.inr (by simp [hd]))

theorem State.laneFailed_asks {s : State} {p : Part} {port lane : Nat} (hw : s.watched p port = true) (hs : (s.link p port).swap = none)
    (hgone : s.spareGone p port = false) (hdead : s.laneDead p port lane = true) : s.laneFailed p port lane = s.askSwap p port lane 1 := by
  unfold State.laneFailed
  rw [if_neg (by simp [hw, hs, hdead]), if_neg (by simp [hgone])]

theorem State.laneLow_asks {s : State} {p : Part} {port lane : Nat} (hw : s.watched p port = true) (hs : (s.link p port).swap = none)
    (hgone : s.spareGone p port = false) (hlow : 3 ≤ SMap.look (fun _ => 0) (s.link p port).low (s.laneWl p port lane)) :
    s.laneLow p port lane = s.askSwap p port lane 2 := by
  unfold State.laneLow
  dsimp only
  rw [if_neg (by simp [hw, hs, hlow]), if_neg (by simp [hgone])]

/-- Settles O31: each step of a swap changes the link and the registers of its own port alone; at its time the lane and the spare change
places, or the request is repeated. -/
theorem laneSwaps : Obligations.LaneSwaps := by
  unfold Obligations.LaneSwaps
  rintro s p port a rfl hpart
  refine ⟨fun l lane reason frame hr hsky hup hl => ⟨fun hg hf hs hgone hne => ?_, fun hlate => ?_, fun w hg hs ha hwl hwf => ?_⟩,
    fun lane hw hs hgone => ⟨fun hdead => ?_, fun hlow => ?_⟩, fun x hx hw hlane => ⟨fun hd => ?_, fun hd => ?_⟩⟩
  · have hset := (s.linkSet_modLink p port [] (·.withSwap { lane := lane, reason := reason, frame := frame, asked := false, acked := true })).lmcPush
      [.swapAck lane reason frame]
    exact ⟨_, congrArg Host.Outcome.next ((if_pos (lmcTaken_of_good hr hsky hg)).trans (State.swapReqIn_taken hup hl hf hs hgone hne)),
      hset.only, hset.regs, hset.link⟩
  · refine congrArg Host.Outcome.next ?_
    rw [State.swapReqIn_late hlate, ite_self]
  · have hset := State.linkSet_swapAckIn hs ha hwl hwf
    exact ⟨_, congrArg Host.Outcome.next (if_pos (lmcTaken_of_good hr hsky hg)), hset.only, hset.regs, hset.link⟩
  · have hasked := s.swapAskedFor_askSwap p port lane 1
    exact ⟨_, congrArg Host.Outcome.next (State.laneFailed_asks hw hs hgone hdead), hasked.only, hasked.regs, hasked.swap, hasked.reval rfl,
      hasked.state, hasked.again rfl⟩
  · have hset := s.linkSet_modLink p port [] (·.withSwap (s.swapAsked p port lane 2))
    exact ⟨_, congrArg Host.Outcome.next ((State.laneLow_asks hw hs hgone hlow).trans (s.askSwap_planned p port lane (by decide))),
      hset.only, hset.regs, hset.link⟩
  · exact congrArg Host.Outcome.next (State.swapApply_early hx hd)
  · by_cases hnow : x.asked = true ∧ x.acked = false
    · by_cases hbit : bit 0 (Config.freeValue s.free).toNat = true
      · have hswapped := (s.draw.2.swapped_swapNow p port.2 hlane).drawn
        refine ⟨_, congrArg Host.Outcome.next ((State.swapApply_due hx hw hd).trans ((if_pos hnow).trans (if_pos hbit))), hswapped.others,
          hswapped.only, ?_⟩
        rw [if_pos (.inr (.inr hbit))]
        exact ⟨hswapped.swap, hswapped.lane, hswapped.spare, hswapped.count, hswapped.lanes⟩
      · have hasked := s.draw.2.swapAskedFor_askSwap p port x.lane x.reason
        have hframe : s.draw.2.swapFrame p port = s.swapFrame p port := by
          cases p <;> rfl
        refine ⟨_, congrArg Host.Outcome.next ((State.swapApply_due hx hw hd).trans ((if_pos hnow).trans (if_neg hbit))), ?_,
          onlyPart_trans (onlyPart_draw s p) (onlyPart_of_onlyLink hasked.only), ?_⟩
        · intro q hq hne
          refine ⟨(State.portState_of_reg (hasked.regs _ ?_)).trans (State.portState_of_reg (State.reg_draw _ _ _)),
            (hasked.only.1 q hne).trans (State.link_draw _ _ _)⟩
          rw [List.mem_singleton]
          exact psBase_ne p hne (by omega) (by omega)
        · obtain ⟨hask, hack⟩ := hnow
          rw [if_neg (by simp [hask, hack, hbit]), hasked.swap, State.swapAsked, hframe]
          refine ⟨rfl, fun j _ => (State.fld_congr (hasked.regs _ ?_) _ _).trans (State.fld_congr (State.reg_draw _ _ _) _ _)⟩
          rw [List.mem_singleton]
          omega
    · have hswapped := s.swapped_swapNow p port.2 hlane
      refine ⟨_, congrArg Host.Outcome.next ((State.swapApply_due hx hw hd).trans (if_neg hnow)), hswapped.others, hswapped.only, ?_⟩
      rw [if_pos (by cases ha : x.asked <;> cases hb : x.acked <;> simp_all)]
      exact ⟨hswapped.swap, hswapped.lane, hswapped.spare, hswapped.count, hswapped.lanes⟩

end Sys2Proof.Machine
end

section
/-! Power readings of a link (R284, R285). -/

namespace Sys2Proof.Machine

open Sys2Proof Sys2Proof.Claims

/-! ### Readings in registers -/

/-- Readings are shown, each in its register, from the `k`-th on. -/
def State.readingsIn (s : State) (p : Part) (lo : Nat) (g : Nat → Nat) (l : List Int) (k : Nat) : State :=
  (l.zipIdx k).foldl (fun t x => t.setFld p (g x.2) lo 16 (ofSigned 16 x.1)) s

theorem State.readingsIn_cons (s : State) (p : Part) (lo : Nat) (g : Nat → Nat) (x : Int) (l : List Int) (k : Nat) :
    s.readingsIn p lo g (x :: l) k = (s.setFld p (g k) lo 16 (ofSigned 16 x)).readingsIn p lo g l (k + 1) := rfl

theorem State.linkSet_readingsIn {p : Part} {port lo : Nat} {L : List Nat} {m : Link} {s : State} {g : Nat → Nat} (l : List Int) (k : Nat)
    (t : State) (h : State.LinkSet p port L m s t) (hL : ∀ i < l.length, g (k + i) ∈ L) :
    State.LinkSet p port L m s (t.readingsIn p lo g l k) := by
  induction l generalizing t k with
  | nil => exact h
  | cons x l ih =>
    rw [State.readingsIn_cons]
    refine ih (k + 1) _ (h.setFld (hL 0 (by simp)) lo 16 _) fun i hi => ?_
    rw [Nat.add_right_comm]
    exact hL (i + 1) (by simpa using hi)

theorem State.reg_readingsIn_other {p : Part} {lo a : Nat} {g : Nat → Nat} (l : List Int) (k : Nat) (s : State) (h : ∀ j, k ≤ j → g j ≠ a) :
    (s.readingsIn p lo g l k).reg p a = s.reg p a := by
  induction l generalizing s k with
  | nil => rfl
  | cons x l ih =>
    rw [State.readingsIn_cons, ih (k + 1) _ fun j hj => h j (by omega)]
    exact State.reg_setFld_other _ _ _ _ _ _ _ _ (.inr (h k (Nat.le_refl k)))

theorem State.fld_readingsIn_same {p : Part} {lo : Nat} {g : Nat → Nat} (hlo : lo + 16 ≤ 32) (hg : Function.Injective g) (l : List Int) (k : Nat)
    (s : State) {i : Nat} (hi : i < l.length) : (s.readingsIn p lo g l k).fld p (g (k + i)) lo 16 = ofSigned 16 (l.getD i 0) := by
  induction l generalizing s k i with
  | nil => exact absurd hi (by simp)
  | cons x l ih =>
    rw [State.readingsIn_cons]
    cases i with
    | zero =>
      rw [State.fld_congr (State.reg_readingsIn_other l (k + 1) _ fun j hj he => absurd (hg he) (by omega)), Nat.add_zero,
        State.fld_setFld_same _ _ _ _ _ _ hlo]
      exact Nat.mod_eq_of_lt (ofSigned_lt 16 x)
    | succ i =>
      rw [← Nat.add_assoc, Nat.add_right_comm, ih (k + 1) _ (by simpa using hi)]
      rfl

theorem State.fld_readingsIn_outside {p : Part} {lo a lo' : Nat} {g : Nat → Nat} (hd : lo' + 16 ≤ lo ∨ lo + 16 ≤ lo')
    (hlo : lo + 16 ≤ 32) (l : List Int) (k : Nat) (s : State) : (s.readingsIn p lo g l k).fld p a lo' 16 = s.fld p a lo' 16 := by
  induction l generalizing s k with
  | nil => rfl
  | cons x l ih =>
    rw [State.readingsIn_cons, ih]
    by_cases ha : g k = a
    · rw [← ha]
      exact State.fld_setFld_outside _ _ (by omega) (by omega)
    · exact State.fld_congr (State.reg_setFld_other _ _ _ _ _ _ _ _ (.inr ha)) lo' 16

/-! ### The count of readings below Alarm -/

/-- The count of a wavelength's readings in a row below Alarm, after one more. -/
def lowNext (x : Int) (n : Nat) : Nat := if x < -90 then n + 1 else 0

/-- The count of a link, of which a wavelength has one more reading. -/
def Link.lowCounted (l : Link) (w : Nat) (x : Int) : Link :=
  { l with low := SMap.put (fun _ => 0) l.low w (lowNext x (SMap.look (fun _ => 0) l.low w)) }

/-- One reading of a wavelength. -/
def State.lowIn (s : State) (p : Part) (port : Nat) (w : Nat) (x : Int) : State :=
  if lowNext x (SMap.look (fun _ => 0) (s.link p port).low w) = 1 ∧ p = .ronpex then (s.modLink p port (·.lowCounted w x)).portEvent port 4 0 w
  else s.modLink p port (·.lowCounted w x)

/-- Readings of the wavelengths from the `k`-th on. -/
def State.lowsIn (s : State) (p : Part) (port : Nat) (l : List Int) (k : Nat) : State :=
  (l.zipIdx k).foldl (fun t x => t.lowIn p port x.2 x.1) s

theorem State.lowsIn_cons (s : State) (p : Part) (port : Nat) (x : Int) (l : List Int) (k : Nat) :
    s.lowsIn p port (x :: l) k = (s.lowIn p port k x).lowsIn p port l (k + 1) := rfl

/-- Of a port only the counts of readings below Alarm may differ. -/
structure State.LowKept (p : Part) (port : Nat) (s t : State) : Prop where
  regs : ∀ a, linkReg p a → t.reg p a = s.reg p a
  link : t.link p port = { s.link p port with low := (t.link p port).low }
  others : ∀ q, q ≠ port → t.link p q = s.link p q
  only : onlyPart p s t

theorem State.LowKept.trans {p : Part} {port : Nat} {s t u : State} (h : State.LowKept p port s t) (k : State.LowKept p port t u) :
    State.LowKept p port s u where
  regs a ha := (k.regs a ha).trans (h.regs a ha)
  link := by rw [k.link, h.link]
  others q hq := (k.others q hq).trans (h.others q hq)
  only := onlyPart_trans h.only k.only

theorem State.lowKept_modLink (s : State) (p : Part) (port w : Nat) (x : Int) : State.LowKept p port s (s.modLink p port (·.lowCounted w x)) :=
  ⟨fun _ _ => State.reg_modLinkOf _ _ _ _ _, by rw [State.link_modLink_same]; rfl, fun _ hq => State.link_modLink_other _ _ hq _,
    onlyPart_modLink _ _ _ _⟩

theorem State.LinksQuiet.lowKept {p : Part} {port : Nat} {s t : State} (h : State.LinksQuiet p s t) : State.LowKept p port s t :=
  ⟨h.regs, by rw [h.links], fun q _ => h.links q, h.only⟩

theorem State.lowIn_does (s : State) (p : Part) (port w : Nat) (x : Int) : State.LowKept p port s (s.lowIn p port w x)
    ∧ ((s.lowIn p port w x).link p port).low = ((s.link p port).lowCounted w x).low := by
  unfold State.lowIn
  split
  · next h =>
    obtain ⟨_, rfl⟩ := h
    have hquiet := (s.modLink .ronpex port (·.lowCounted w x)).linksQuiet_portEvent port 4 0 w
    exact ⟨(s.lowKept_modLink .ronpex port w x).trans hquiet.lowKept, by rw [hquiet.links, State.link_modLink_same]⟩
  · exact ⟨s.lowKept_modLink p port w x, by rw [State.link_modLink_same]⟩

theorem State.lowKept_lowsIn (p : Part) (port : Nat) (l : List Int) (k : Nat) (s : State) : State.LowKept p port s (s.lowsIn p port l k) := by
  induction l generalizing s k with
  | nil => exact ⟨fun _ _ => rfl, rfl, fun _ _ => rfl, onlyPart_refl p s⟩
  | cons x l ih =>
    rw [State.lowsIn_cons]
    exact (s.lowIn_does p port k x).1.trans (ih (k + 1) _)

theorem State.low_lowsIn_before {p : Part} {port w : Nat} (l : List Int) (k : Nat) (s : State) (h : w < k) :
    SMap.look (fun _ => 0) ((s.lowsIn p port l k).link p port).low w = SMap.look (fun _ => 0) (s.link p port).low w := by
  induction l generalizing s k with
  | nil => rfl
  | cons x l ih =>
    rw [State.lowsIn_cons, ih (k + 1) _ (by omega), (s.lowIn_does p port k x).2, Link.lowCounted]
    exact SMap.look_put_other _ _ _ _ _ (by omega)

theorem State.low_lowsIn {p : Part} {port : Nat} (l : List Int) (k : Nat) (s : State) {i : Nat} (hi : i < l.length) :
    SMap.look (fun _ => 0) ((s.lowsIn p port l k).link p port).low (k + i)
      = lowNext (l.getD i 0) (SMap.look (fun _ => 0) (s.link p port).low (k + i)) := by
  induction l generalizing s k i with
  | nil => exact absurd hi (by simp)
  | cons x l ih =>
    rw [State.lowsIn_cons]
    cases i with
    | zero =>
      rw [State.low_lowsIn_before l (k + 1) _ (by omega), (s.lowIn_does p port k x).2, Link.lowCounted]
      exact SMap.look_put_same _ _ _ _
    | succ i =>
      rw [← Nat.add_assoc, Nat.add_right_comm, ih (k + 1) _ (by simpa using hi), (s.lowIn_does p port k x).2, Link.lowCounted,
        SMap.look_put_other _ _ _ _ _ (by omega)]
      rfl

/-! ### A power average -/

/-- The register of a wavelength's power. -/
def powerReg (p : Part) (port w : Nat) : Nat := psBase p port + 0x20 + 4 * w

theorem powerReg_injective (p : Part) (port : Nat) : Function.Injective (powerReg p port) := by
  intro i j h
  simp only [powerReg] at h
  omega

/-- The registers of the power of the ten wavelengths. -/
def powerRegs (p : Part) (port : Nat) : List Nat := (List.range 10).map (powerReg p port)

theorem State.powerIn_watched {s : State} {p : Part} {port : Nat} {l : List Int} (h : l.length = 10) (hs : s.skyNow p port = false) :
    s.powerIn p port l = if s.portUp p port then (s.readingsIn p 0 (powerReg p port) l 0).lowsIn p port l 0
      else s.readingsIn p 0 (powerReg p port) l 0 := by
  unfold State.powerIn
  dsimp only
  rw [List.take_of_length_le (by omega), if_neg (by simp [hs])]
  cases s.portUp p port <;> rfl

/-- What a power average leaves of a port. -/
structure State.PowerShown (p : Part) (port : Nat) (l : List Int) (s t : State) : Prop where
  state : t.portState p port = s.portState p port
  near : ∀ w < 10, t.fld p (powerReg p port w) 0 16 = ofSigned 16 (l.getD w 0)
  far : ∀ w < 10, t.fld p (powerReg p port w) 16 16 = s.fld p (powerReg p port w) 16 16
  link : t.link p port = { s.link p port with low := (t.link p port).low }
  others : otherPorts p port s t
  only : onlyPart p s t

theorem State.powerShown_readingsIn (s : State) (p : Part) {port : Nat} {l : List Int} (h : l.length = 10) :
    State.PowerShown p port l s (s.readingsIn p 0 (powerReg p port) l 0)
      ∧ (s.readingsIn p 0 (powerReg p port) l 0).link p port = s.link p port := by
  have hset : State.LinkSet p port (powerRegs p port) (s.link p port) s (s.readingsIn p 0 (powerReg p port) l 0) :=
    State.linkSet_readingsIn l 0 s (State.LinkSet.refl p port _ s) fun i hi => List.mem_map.2 ⟨i, List.mem_range.2 (by omega), by rw [Nat.zero_add]⟩
  refine ⟨⟨State.portState_of_reg (hset.regs _ ?_), fun w hw => ?_, fun w _ => ?_, by rw [hset.link], hset.otherPorts fun q hq hne => ?_,
    onlyPart_of_onlyLink hset.only⟩, hset.link⟩
  · intro hm
    obtain ⟨w, _, hw⟩ := List.mem_map.1 hm
    unfold powerReg at hw
    omega
  · have := State.fld_readingsIn_same (s := s) (p := p) (lo := 0) (by omega) (powerReg_injective p port) l 0 (i := w) (by omega)
    rwa [Nat.zero_add] at this
  · exact State.fld_readingsIn_outside (by omega) (by omega) l 0 s
  · intro hm
    obtain ⟨w, hw, he⟩ := List.mem_map.1 hm
    have hlt := List.mem_range.1 hw
    rw [powerReg, Nat.add_assoc] at he
    exact psBase_ne p hne (by omega) (by omega) he.symm

theorem State.PowerShown.lows {p : Part} {port : Nat} (hp : port < 192) {l : List Int} {s t u : State} (h : State.PowerShown p port l s t)
    (k : State.LowKept p port t u) : State.PowerShown p port l s u where
  state := (State.portState_of_reg (k.regs _ (linkReg_psBase p hp (by omega)))).trans h.state
  near w hw := (State.fld_congr (k.regs _ (by
    rw [powerReg, Nat.add_assoc]
    exact linkReg_psBase p hp (by omega))) _ _).trans (h.near w hw)
  far w hw := (State.fld_congr (k.regs _ (by
    rw [powerReg, Nat.add_assoc]
    exact linkReg_psBase p hp (by omega))) _ _).trans (h.far w hw)
  link := by rw [k.link, h.link]
  others q hq hne := by
    have := partPorts_le p
    exact ⟨(State.portState_of_reg (k.regs _ (linkReg_psBase p (by omega) (by omega)))).trans (h.others q hq hne).1,
      (k.others q hne).trans (h.others q hq hne).2⟩
  only := onlyPart_trans h.only k.only

theorem State.powerShown_powerIn {s : State} {p : Part} {port : Nat} (hp : port < 192) {l : List Int} (h : l.length = 10)
    (hs : s.skyNow p port = false) : State.PowerShown p port l s (s.powerIn p port l) := by
  rw [State.powerIn_watched h hs]
  have hshown := (s.powerShown_readingsIn p (port := port) h).1
  split
  · exact hshown.lows hp (State.lowKept_lowsIn p port l 0 _)
  · exact hshown

theorem State.low_powerIn {s : State} {p : Part} {port : Nat} {l : List Int} (h : l.length = 10) (hs : s.skyNow p port = false) {w : Nat}
    (hw : w < 10) : SMap.look (fun _ => 0) ((s.powerIn p port l).link p port).low w
      = if s.portUp p port then lowNext (l.getD w 0) (SMap.look (fun _ => 0) (s.link p port).low w)
        else SMap.look (fun _ => 0) (s.link p port).low w := by
  rw [State.powerIn_watched h hs]
  have hlink := (s.powerShown_readingsIn p (port := port) h).2
  split
  · have := State.low_lowsIn (p := p) (port := port) l 0 (s.readingsIn p 0 (powerReg p port) l 0) (i := w) (by omega)
    rwa [Nat.zero_add, hlink] at this
  · rw [hlink]

end Sys2Proof.Machine
end

section
/-! The revalidation of a link (R289). -/

namespace Sys2Proof.Machine

open Sys2Proof Sys2Proof.Claims

/-! ### A revalidation starts -/

/-- The register of a part that its engine temperature is shown in. -/
def tempReg (p : Part) (port : Nat) : Nat :=
  match p with
  | .ronpex => engineBase (portEngine port) + 4
  | .plocen => Reg.epOptStat

theorem tempReg_not_psBase (p : Part) {port k : Nat} : psBase p port + k ≠ tempReg p port := by
  cases p
  · simp only [psBase, portSetBase, tempReg, portEngine]
    omega
  · simp only [psBase, epPortSetBase, tempReg, Reg.epOptStat]
    omega

theorem State.linkSet_setEngineTemp (s : State) (p : Part) (port : Nat) (temp : Int) :
    State.LinkSet p port [tempReg p port] (s.link p port) s (s.setEngineTemp p port temp) := by
  cases p
  · exact (State.LinkSet.refl .ronpex port _ s).setFld (List.mem_singleton.2 rfl) 16 8 _
  · exact (State.LinkSet.refl .plocen port _ s).setFld (List.mem_singleton.2 rfl) 0 8 _

theorem State.engineTemp_setEngineTemp (s : State) (p : Part) (port : Nat) (temp : Int) :
    (s.setEngineTemp p port temp).engineTemp p port = ofSigned 8 temp := by
  have hlt := ofSigned_lt 8 temp
  cases p
  · exact (State.fld_setFld_same _ _ _ _ _ _ (by omega)).trans (Nat.mod_eq_of_lt hlt)
  · exact (State.fld_setFld_same _ _ _ _ _ _ (by omega)).trans (Nat.mod_eq_of_lt hlt)

theorem State.engineTemp_congr {s t : State} {p : Part} {port : Nat} (h : t.reg p (tempReg p port) = s.reg p (tempReg p port)) :
    t.engineTemp p port = s.engineTemp p port := by
  cases p
  · exact State.fld_congr h 16 8
  · exact State.fld_congr h 0 8

theorem State.dataWls_congr {s t : State} {p : Part} {port : Nat} (h : t.reg p (psBase p port + 8) = s.reg p (psBase p port + 8)) :
    t.dataWls p port = s.dataWls p port := by
  refine List.map_congr_left fun lane _ => ?_
  exact State.fld_congr h _ _

/-- A wavelength's stamp is not valid once a revalidation has begun. -/
theorem State.flag_unstamped {p : Part} {a w : Nat} (ws : List Nat) (t : State) (h : w ∈ ws ∨ t.flag p (a + 0xB0 + 4 * w) 9 = false) :
    (ws.foldl (fun t w => t.setFlag p (a + 0xB0 + 4 * w) 9 false) t).flag p (a + 0xB0 + 4 * w) 9 = false := by
  induction ws generalizing t with
  | nil => exact h.resolve_left (by simp)
  | cons v ws ih =>
    refine ih _ ?_
    by_cases hv : v = w
    · subst hv
      exact .inr (State.flag_setFlag_same _ _ _ (by omega))
    · rcases h with h | h
      · exact .inl ((List.mem_cons.1 h).resolve_left (Ne.symm hv))
      · exact .inr ((State.flag_congr (State.reg_setFlag_other _ _ _ _ _ _ _ (.inr (by omega))) 9).trans h)

/-- What the beginning of a revalidation does to the registers of the port. -/
theorem State.flags_revalBegin (s : State) (p : Part) (port : Nat) (cls : Bool) (temp : Int) :
    (s.revalBegin p port cls temp).flag p (psBase p port + 4) 5 = true
      ∧ (s.revalBegin p port cls temp).portState p port = s.portState p port
      ∧ ∀ w ∈ s.dataWls p port, (s.revalBegin p port cls temp).flag p (psBase p port + 0xB0 + 4 * w) 9 = false := by
  have hreg (a : Nat) : (s.revalBegin p port cls temp).reg p a
      = (((s.dataWls p port).foldl (fun t w => t.setFlag p (psBase p port + 0xB0 + 4 * w) 9 false) s).setFlag p (psBase p port + 4) 5 true).reg p a :=
    (State.reg_modLinkOf _ _ _ _ _).trans (State.reg_modLinkOf _ _ _ _ _)
  have hunstamped := State.linkSet_unstamped (psBase p port) (s.dataWls p port) s
    (State.LinkSet.refl p port ((s.dataWls p port).map fun w => psBase p port + 0xB0 + 4 * w) s) fun w hw => List.mem_map.2 ⟨w, hw, rfl⟩
  have hstate := State.portState_of_reg (hunstamped.regs (psBase p port + 4) fun hm => by
    obtain ⟨w, _, hw⟩ := List.mem_map.1 hm
    omega)
  refine ⟨(State.flag_congr (hreg _) 5).trans (State.flag_setFlag_same _ _ _ (by omega)),
    (State.fld_congr (hreg _) 0 3).trans ((State.fld_setFlag_outside _ _ _ (by omega) (by omega)).trans hstate), fun w hw => ?_⟩
  exact (State.flag_congr ((hreg _).trans (State.reg_setFlag_other _ _ _ _ _ _ _ (.inr (by omega)))) 9).trans
    (State.flag_unstamped _ _ (.inl hw))

theorem State.revalStart_begins {s : State} {p : Part} {port : Nat} {cls : Bool} (hw : s.watched p port = true) (hen : s.optCtl p port 2 = true)
    (hr : (s.link p port).reval = none) (hs : (s.link p port).swap = none) (hg : s.spareGone p port = false) (hc : (s.link p port).cls = cls)
    (hd : s.deferHeld p = false)
    (hm : ∃ lane < 8, SMap.look (fun _ => false) (s.link p port).stamps (s.laneWl p port lane) ≠ cls) (temp : Int) :
    s.revalStart p port cls temp = (s.setEngineTemp p port temp).revalBegin p port cls temp := by
  obtain ⟨lane, hlane, hne⟩ := hm
  unfold State.revalStart
  dsimp only
  refine if_neg ?_
  have hany : ((s.dataWls p port).any fun w => (SMap.look (fun _ => false) (s.link p port).stamps w != cls)
      || decide (5 < temp - signed 8 (s.fld p (psBase p port + 0xB0 + 4 * w) 0 8))
      || decide (temp - signed 8 (s.fld p (psBase p port + 0xB0 + 4 * w) 0 8) < -5)) = true :=
    List.any_eq_true.2 ⟨s.laneWl p port lane, List.mem_map.2 ⟨lane, List.mem_range.2 hlane, rfl⟩, by simp [hne]⟩
  rw [hany]
  simp [hw, hen, hr, hs, hg, hc, hd]

/-! ### A check ends -/

theorem bits_word {w : Nat} (h : w < 2 ^ 32) : bits 0 32 w = w := by
  unfold bits
  rw [Nat.pow_zero, Nat.div_one, Nat.mod_eq_of_lt h]

theorem satAdd_word_lt (a b : Nat) : satAdd 32 a b < 2 ^ 32 := by
  unfold satAdd
  omega

theorem State.reg_satFld_word (s : State) (p : Part) (a n : Nat) : (s.satFld p a 0 32 n).reg p a = satAdd 32 (s.reg p a) n := by
  have hlt := s.reg_lt p a
  rw [State.satFld, State.reg_setFld_same _ _ _ _ _ _ (by omega), State.fld, bits_word hlt]
  unfold setBits
  rw [bits_word hlt, Nat.mod_eq_of_lt (satAdd_word_lt _ _)]
  omega

/-- The wavelengths of some lanes are stamped. -/
def State.stampAll (s : State) (p : Part) (port : Nat) (cls : Bool) (temp : Int) (ws : List Nat) : State :=
  ws.foldl (fun t w => t.stamp p port w cls temp) s

theorem State.linkSet_stampAll {p : Part} {port : Nat} {L : List Nat} {l : Link} {s : State} {cls : Bool} {temp : Int} (ws : List Nat) (t : State)
    (m : SMap Bool) (h : State.LinkSet p port L { l with stamps := m } s t) (hL : ∀ w ∈ ws, psBase p port + 0xB0 + 4 * w ∈ L) :
    ∃ m', State.LinkSet p port L { l with stamps := m' } s (t.stampAll p port cls temp ws)
      ∧ ∀ w, w ∈ ws ∨ SMap.look (fun _ => false) m w = cls → SMap.look (fun _ => false) m' w = cls := by
  induction ws generalizing t m with
  | nil => exact ⟨m, h, fun w hw => hw.resolve_left (by simp)⟩
  | cons v ws ih =>
    obtain ⟨m', hset, hm⟩ := ih (t.stamp p port v cls temp) (SMap.put (fun _ => false) m v cls)
      ((h.setReg (hL v (by simp)) (ofSigned 8 temp + 512)).modLink fun l => { l with stamps := SMap.put (fun _ => false) l.stamps v cls })
      fun w hw => hL w (by simp [hw])
    refine ⟨m', hset, fun w hw => hm w ?_⟩
    by_cases hv : w = v
    · subst hv
      exact .inr (SMap.look_put_same _ _ _ _)
    · rw [SMap.look_put_other _ _ _ _ _ hv]
      exact hw.imp_left fun hw => (List.mem_cons.1 hw).resolve_left hv

theorem State.reg_stampAll {p : Part} {port w : Nat} {cls : Bool} {temp : Int} (ws : List Nat) (t : State)
    (h : w ∈ ws ∨ t.reg p (psBase p port + 0xB0 + 4 * w) = ofSigned 8 temp + 512) :
    (t.stampAll p port cls temp ws).reg p (psBase p port + 0xB0 + 4 * w) = ofSigned 8 temp + 512 := by
  induction ws generalizing t with
  | nil => exact h.resolve_left (by simp)
  | cons v ws ih =>
    refine ih _ ?_
    by_cases hv : v = w
    · subst hv
      have := ofSigned_lt 8 temp
      exact .inr ((State.reg_modLinkOf _ _ _ _ _).trans ((State.reg_setReg_same _ _ _ _).trans (Nat.mod_eq_of_lt (by omega))))
    · rcases h with h | h
      · exact .inl ((List.mem_cons.1 h).resolve_left (Ne.symm hv))
      · exact .inr ((State.reg_modLinkOf _ _ _ _ _).trans ((State.reg_setReg_other _ _ _ _ _ _ (.inr (by omega))).trans h))

/-- The PRBS31 errors of the spare have been counted. -/
def State.spareChecked (s : State) (p : Part) (port errors : Nat) : State :=
  s.satFld p (psBase p port + 0x80 + 4 * s.fld p (psBase p port + 0xC) 0 4) 0 32 errors

/-- A revalidation has passed: every data lane is stamped. -/
def State.revalPassed (s : State) (p : Part) (port : Nat) (r : Reval) : State :=
  ((s.stampAll p port r.cls r.temp (s.dataWls p port)).revalEnd p port).lmcPush p port [.stress false]

/-- The first check of a revalidation has failed: the spare is tuned again. -/
def State.spareRetuned (s : State) (p : Part) (port spare : Nat) (r : Reval) : State :=
  (((s.modLink p port fun k => { k with
    checkers := SMap.drop k.checkers spare, reval := some { r with retuned := true, corr := s.corrNow p port } }).lmcPush p port
      [.stress false]).tuneWl p port spare)

theorem State.revalCheck_first {s : State} {p : Part} {port errors : Nat} {r : Reval} (hw : s.watched p port = true)
    (hs : (s.link p port).swap = none) (hr : (s.link p port).reval = some r) (hn : r.retuned = false) : s.revalCheck p port errors
      = if errors ≤ 100000 then (s.spareChecked p port errors).revalPassed p port r
        else (s.spareChecked p port errors).spareRetuned p port ((s.spareChecked p port errors).fld p (psBase p port + 0xC) 0 4) r := by
  have hturn : (s.spareChecked p port errors).revalTurn p port errors r
      = if errors ≤ 100000 then (s.spareChecked p port errors).revalPassed p port r
        else (s.spareChecked p port errors).spareRetuned p port ((s.spareChecked p port errors).fld p (psBase p port + 0xC) 0 4) r := by
    unfold State.revalTurn
    dsimp only
    exact if_pos (by simp [hn])
  rw [← hturn]
  unfold State.revalCheck
  dsimp only
  rw [if_neg (by simp [hw]), if_neg (by simp [hs]), hr]
  rfl

theorem State.revalCheck_alone {s : State} {p : Part} {port errors : Nat} (hw : s.watched p port = true)
    (hs : (s.link p port).swap = none) (hr : (s.link p port).reval = none) : s.revalCheck p port errors
      = (s.spareChecked p port errors).setFlag p (psBase p port + 0xC) 4 (decide (10000 < errors)) := by
  unfold State.revalCheck
  dsimp only
  rw [if_neg (by simp [hw]), if_neg (by simp [hs]), hr]
  rfl

theorem State.linkSet_spareChecked (s : State) (p : Part) (port errors : Nat) {L : List Nat}
    (h : psBase p port + 0x80 + 4 * s.fld p (psBase p port + 0xC) 0 4 ∈ L) :
    State.LinkSet p port L (s.link p port) s (s.spareChecked p port errors) := (State.LinkSet.refl p port L s).satFld h 0 32 errors

/-- The registers that a passed revalidation writes beside the count of errors. -/
def State.passedRegs (s : State) (p : Part) (port : Nat) : List Nat :=
  (psBase p port + 4) :: (List.range 8).map fun lane => psBase p port + 0xB0 + 4 * s.laneWl p port lane

theorem State.revalPassed_does (s : State) (p : Part) (port : Nat) (r : Reval) : ∃ m,
    State.LinkSet p port (s.passedRegs p port) { s.link p port with
      stamps := m, reval := none, lmcQ := (s.link p port).lmcQ ++ [.stress false] } s (s.revalPassed p port r)
    ∧ (∀ lane < 8, SMap.look (fun _ => false) m (s.laneWl p port lane) = r.cls
        ∧ (s.revalPassed p port r).reg p (psBase p port + 0xB0 + 4 * s.laneWl p port lane) = ofSigned 8 r.temp + 512)
    ∧ (s.revalPassed p port r).flag p (psBase p port + 4) 5 = false := by
  have hrefl : State.LinkSet p port (s.passedRegs p port) { s.link p port with stamps := (s.link p port).stamps } s s :=
    State.LinkSet.refl p port _ s
  obtain ⟨m, hset, hm⟩ := State.linkSet_stampAll (cls := r.cls) (temp := r.temp) (s.dataWls p port) s (s.link p port).stamps hrefl
    fun w hw => List.mem_cons_of_mem _ (by
      obtain ⟨lane, hl, rfl⟩ := List.mem_map.1 hw
      exact List.mem_map.2 ⟨lane, hl, rfl⟩)
  have hreg (a : Nat) : (s.revalPassed p port r).reg p a
      = ((s.stampAll p port r.cls r.temp (s.dataWls p port)).setFlag p (psBase p port + 4) 5 false).reg p a :=
    (State.reg_modLinkOf _ _ _ _ _).trans (State.reg_modLinkOf _ _ _ _ _)
  refine ⟨m, ((hset.setFlag List.mem_cons_self 5 false).modLink fun l => { l with reval := none }).lmcPush [.stress false], fun lane hl => ?_,
    (State.flag_congr (hreg _) 5).trans (State.flag_setFlag_same _ _ _ (by omega))⟩
  have hmem : s.laneWl p port lane ∈ s.dataWls p port := List.mem_map.2 ⟨lane, List.mem_range.2 hl, rfl⟩
  exact ⟨hm _ (.inl hmem), (hreg _).trans ((State.reg_setFlag_other _ _ _ _ _ _ _ (.inr (by omega))).trans
    (State.reg_stampAll _ _ (.inl hmem)))⟩

theorem State.fld_spareChecked (s : State) (p : Part) (port errors : Nat) {a : Nat} (h : a < psBase p port + 0x80) (lo len : Nat) :
    (s.spareChecked p port errors).fld p a lo len = s.fld p a lo len :=
  State.fld_congr (State.reg_setFld_other _ _ _ _ _ _ _ _ (.inr (by omega))) lo len

/-- The link of a port whose spare is tuned again. -/
def State.retunedLink (s : State) (l : Link) (p : Part) (port spare : Nat) (r : Reval) (v : Nat) : Link := { l with
  checkers := SMap.drop l.checkers spare, reval := some { r with retuned := true, corr := s.corrNow p port }
  lmcQ := l.lmcQ ++ [.stress false] ++ [.tune spare v, .tune spare 7] }

theorem State.linkSet_spareRetuned (s : State) (p : Part) (port spare : Nat) (r : Reval) {L : List Nat} :
    State.LinkSet p port L (s.retunedLink (s.link p port) p port spare r ((Config.freeValue s.free).toNat % 7)) s.drawn
      (s.spareRetuned p port spare r) := by
  have hswap : s.spareRetuned p port spare r = ((s.drawn.modLink p port fun k => { k with
      checkers := SMap.drop k.checkers spare, reval := some { r with retuned := true, corr := s.corrNow p port } }).lmcPush p port
        [.stress false]).lmcPush p port [.tune spare ((Config.freeValue s.free).toNat % 7), .tune spare 7] := by
    cases p <;> rfl
  have hset := (((s.drawn.linkSet_modLink p port L fun k => { k with
      checkers := SMap.drop k.checkers spare, reval := some { r with retuned := true, corr := s.corrNow p port } }).lmcPush
        [.stress false]).lmcPush [.tune spare ((Config.freeValue s.free).toNat % 7), .tune spare 7])
  rw [State.link_drawn] at hset
  rw [hswap]
  exact hset

theorem State.drawn_spareChecked (s : State) (p : Part) (port errors : Nat) :
    (s.spareChecked p port errors).drawn = s.drawn.spareChecked p port errors := by
  cases p <;> rfl

theorem State.free_spareChecked (s : State) (p : Part) (port errors : Nat) : (s.spareChecked p port errors).free = s.free := by
  cases p <;> rfl

/-- Settles O32: readings and checks write the registers of their own port, and what the port keeps of them. -/
theorem linkReadings : Obligations.LinkReadings := by
  unfold Obligations.LinkReadings
  rintro s p port a rfl hpart
  refine ⟨fun rs hrs hsky => ?_, fun cls temp hw hen hr hs hg hc hd hm => ?_, ?_, ?_⟩
  · have hshown := State.powerShown_powerIn port.2 hrs hsky
    exact ⟨_, rfl, hshown.state, fun w hw => ⟨hshown.near w hw, hshown.far w hw, State.low_powerIn hrs hsky hw⟩, hshown.link, hshown.others,
      hshown.only⟩
  · have htemp := s.linkSet_setEngineTemp p port temp
    have hkept {k : Nat} : (s.setEngineTemp p port temp).reg p (psBase p port + k) = s.reg p (psBase p port + k) :=
      htemp.regs _ (by
        rw [List.mem_singleton]
        exact tempReg_not_psBase p)
    have hwls := State.dataWls_congr (hkept (k := 8))
    have hbegin := (s.setEngineTemp p port temp).linkSet_revalBegin p port cls temp
    obtain ⟨hflag, hstate, hstamps⟩ := (s.setEngineTemp p port temp).flags_revalBegin p port cls temp
    rw [hwls] at hbegin hstamps
    rw [htemp.link] at hbegin
    refine ⟨_, (s.setEngineTemp p port temp).revalBegun p port cls temp, congrArg Host.Outcome.next (State.revalStart_begins hw hen hr hs hg hc hd hm temp),
      hbegin.link, ?_, rfl, rfl, rfl, rfl, hflag, ?_, fun lane hl => hstamps _ (List.mem_map.2 ⟨lane, List.mem_range.2 hl, rfl⟩),
      hstate.trans (State.portState_of_reg hkept), onlyLink_trans htemp.only hbegin.only, fun a ha => ?_⟩
    · exact now_of_onlyPart (onlyPart_of_onlyLink htemp.only)
    · refine (State.engineTemp_congr (hbegin.regs _ fun hm => ?_)).trans (State.engineTemp_setEngineTemp s p port temp)
      obtain h | h := List.mem_cons.1 hm
      · exact tempReg_not_psBase p h.symm
      · obtain ⟨w, _, h⟩ := List.mem_map.1 h
        rw [Nat.add_assoc] at h
        exact tempReg_not_psBase p h
    · refine (hbegin.regs a fun hm => ha ?_).trans (htemp.regs a fun hm => ha ?_)
      · obtain rfl | h := List.mem_cons.1 hm
        · simp
        · obtain ⟨w, hw, rfl⟩ := List.mem_map.1 h
          obtain ⟨lane, hl, rfl⟩ := List.mem_map.1 hw
          exact List.mem_append_right _ (List.mem_map.2 ⟨lane, hl, rfl⟩)
      · rw [List.mem_singleton.1 hm]
        cases p <;> simp [tempReg]
  · rintro r errors _ hr hs hn hw rfl hspare
    have hcheck := State.revalCheck_first (errors := errors) hw hs hr hn
    have hlanes (lane : Nat) : (s.spareChecked p port errors).laneWl p port lane = s.laneWl p port lane := s.fld_spareChecked p port errors (by omega) _ _
    refine ⟨fun hle => ?_, fun hgt => ?_⟩
    · obtain ⟨m, hset, hm, hflag⟩ := (s.spareChecked p port errors).revalPassed_does p port r
      have hcount := s.linkSet_spareChecked p port errors List.mem_cons_self (L := [psBase p port + 0x80 + 4 * s.fld p (psBase p port + 0xC) 0 4])
      rw [hcount.link] at hset
      refine ⟨_, congrArg Host.Outcome.next (hcheck.trans (if_pos hle)), ?_, fun lane hl => ?_, hflag, by rw [hset.link],
        onlyLink_trans hcount.only hset.only, fun a ha => (hset.regs a fun hm => ha ?_).trans (hcount.regs a fun hm => ha ?_)⟩
      · refine (hset.regs _ fun hm => ?_).trans (s.reg_satFld_word p _ errors)
        obtain h | h := List.mem_cons.1 hm
        · omega
        · obtain ⟨lane, _, h⟩ := List.mem_map.1 h
          omega
      · have := hm lane hl
        rw [hlanes] at this
        exact ⟨by rw [hset.link]; exact this.1, this.2⟩
      · obtain rfl | h := List.mem_cons.1 hm
        · simp
        · obtain ⟨lane, hl, rfl⟩ := List.mem_map.1 h
          exact List.mem_append_right _ (List.mem_map.2 ⟨lane, hl, by rw [hlanes]⟩)
      · rw [List.mem_singleton.1 hm]
        simp
    · have hcount := s.drawn.linkSet_spareChecked p port errors List.mem_cons_self
        (L := [psBase p port + 0x80 + 4 * s.drawn.fld p (psBase p port + 0xC) 0 4])
      have hset := (s.spareChecked p port errors).linkSet_spareRetuned p port (s.fld p (psBase p port + 0xC) 0 4) r
        (L := [psBase p port + 0x80 + 4 * s.fld p (psBase p port + 0xC) 0 4])
      have hlink : (s.spareChecked p port errors).link p port = s.link p port := State.link_setFldOf _ _ _ _ _ _ _
      have hreg (a : Nat) : s.drawn.reg p a = s.reg p a := by
        cases p <;> rfl
      have hfld : s.drawn.fld p (psBase p port + 0xC) 0 4 = s.fld p (psBase p port + 0xC) 0 4 := State.fld_congr (hreg _) 0 4
      rw [State.drawn_spareChecked, hlink, State.free_spareChecked] at hset
      rw [hfld] at hcount
      have hall := hcount.trans hset
      refine ⟨_, (s.spareChecked p port errors).corrNow p port, (Config.freeValue s.free).toNat % 7, congrArg Host.Outcome.next (hcheck.trans ((if_neg (by omega)).trans
        (congrArg (fun w => (s.spareChecked p port errors).spareRetuned p port w r) (s.fld_spareChecked p port errors (by omega) 0 4)))),
        Nat.mod_lt _ (by decide), ?_, fun a ha => (hall.regs a ha).trans (hreg a), hall.only⟩
      rw [hall.link, State.retunedLink, List.append_assoc]
      rfl
  · rintro errors _ hr hs hw rfl hspare
    have hset := (s.linkSet_spareChecked p port errors (L := [psBase p port + 0xC, psBase p port + 0x80 + 4 * s.fld p (psBase p port + 0xC) 0 4])
      (by simp)).setFlag List.mem_cons_self 4 (decide (10000 < errors))
    exact ⟨_, congrArg Host.Outcome.next (State.revalCheck_alone hw hs hr), State.flag_setFlag_same _ _ _ (by omega),
      (State.reg_setFlag_other _ _ _ _ _ _ _ (.inr (by omega))).trans (s.reg_satFld_word p _ errors), hset.link, hset.only, hset.regs⟩

end Sys2Proof.Machine
end

section
/-! Messages of a link: identity, readings and training steps (R268, R276, R277, R284). -/

namespace Sys2Proof.Machine

open Sys2Proof Sys2Proof.Claims

/-! ### IDENT -/

theorem bits_zero_eq (n w : Nat) : bits 0 n w = w % 2 ^ n := by
  unfold bits
  rw [Nat.pow_zero, Nat.div_one]

theorem ofBool_le (b : Bool) : ofBool b ≤ 1 := by
  cases b <;> decide

theorem bit_identWord {q : Nat} (b : Bool) (hq : q < 256) :
    bit 9 (q + 256 * ofBool b + 512) = true ∧ bit 8 (q + 256 * ofBool b + 512) = b ∧ (q + 256 * ofBool b + 512) % 256 = q := by
  have hle := ofBool_le b
  have h8 : bits 8 1 (q + 256 * ofBool b + 512) = ofBool b := by
    unfold bits
    omega
  have h9 : bits 9 1 (q + 256 * ofBool b + 512) = 1 := by
    unfold bits
    omega
  refine ⟨by simp [bit, h9], ?_, by omega⟩
  unfold bit
  rw [h8]
  cases b <;> rfl

/-- The registers of the far end's identity. -/
def identRegs (a : Nat) : List Nat := [a + 0x10, a + 0x14, a + 0x18]

theorem State.linkSet_recordIdentity {s t : State} {p : Part} {port : Nat} {l : Link}
    (h : State.LinkSet p port (identRegs (psBase p port)) l s t) (i : Identity) :
    State.LinkSet p port (identRegs (psBase p port)) l s (t.recordIdentity p port i) :=
  ((h.setReg (by simp [identRegs]) _).setReg (by simp [identRegs]) _).setReg (by simp [identRegs]) _

theorem State.farIdentity_recordIdentity (s : State) (p : Part) (port : Nat) {i : Identity} (hi : i.port < 256) :
    (s.recordIdentity p port i).farIdentity p port = some i := by
  have hlo : (s.recordIdentity p port i).reg p (psBase p port + 0x10) = i.serial.toNat % 2 ^ 32 := by
    unfold State.recordIdentity
    dsimp only
    rw [State.reg_setReg_other _ _ _ _ _ _ (.inr (by omega)), State.reg_setReg_other _ _ _ _ _ _ (.inr (by omega)), State.reg_setReg_same,
      bits_zero_eq, Nat.mod_mod]
  have hhi : (s.recordIdentity p port i).reg p (psBase p port + 0x14) = i.serial.toNat / 2 ^ 32 % 2 ^ 32 := by
    unfold State.recordIdentity
    dsimp only
    rw [State.reg_setReg_other _ _ _ _ _ _ (.inr (by omega)), State.reg_setReg_same]
    exact Nat.mod_mod _ _
  have hword : (s.recordIdentity p port i).reg p (psBase p port + 0x18) = i.port + 256 * ofBool i.plocen + 512 := by
    unfold State.recordIdentity
    dsimp only
    have := ofBool_le i.plocen
    rw [State.reg_setReg_same, Nat.mod_eq_of_lt hi, Nat.mod_eq_of_lt (by omega)]
  obtain ⟨h9, h8, hport⟩ := bit_identWord i.plocen hi
  have hserial : BitVec.ofNat 64 (i.serial.toNat % 2 ^ 32 + 2 ^ 32 * (i.serial.toNat / 2 ^ 32 % 2 ^ 32)) = i.serial := by
    have hlt := i.serial.isLt
    rw [show i.serial.toNat % 2 ^ 32 + 2 ^ 32 * (i.serial.toNat / 2 ^ 32 % 2 ^ 32) = i.serial.toNat by omega, BitVec.ofNat_toNat,
      BitVec.setWidth_eq]
  unfold State.farIdentity
  dsimp only
  rw [hword, hlo, hhi, if_pos h9, h8, hport, hserial]

/-- The identity that an IDENT is compared with. -/
def State.identExpected (s : State) (p : Part) (port : Nat) : Option Identity :=
  match s.mapEntry p port with
  | some e => some e
  | none =>
    if s.portState p port = 2 ∨ s.portState p port = 3 ∨ s.portState p port = 4 then s.farIdentity p port else none

/-- An IDENT has come. -/
def State.identSeen (s : State) (p : Part) (port : Nat) : State := s.modLink p port fun l => { l with identGot := true }

theorem State.identIn_none {s : State} {p : Part} {port : Nat} (h5 : s.portState p port ≠ 5) (h6 : s.portState p port ≠ 6)
    (he : s.identExpected p port = none) (i : Identity) : s.identIn p port i = (s.identSeen p port).recordIdentity p port i := by
  unfold State.identIn
  dsimp only
  rw [if_neg (by omega)]
  unfold State.identExpected at he
  split
  · next e hexp => exact absurd (hexp.symm.trans he) (by simp)
  · rfl

theorem State.identIn_some {s : State} {p : Part} {port : Nat} {e : Identity} (h5 : s.portState p port ≠ 5) (h6 : s.portState p port ≠ 6)
    (he : s.identExpected p port = some e) (i : Identity) : s.identIn p port i
      = if e = i then (s.identSeen p port).recordIdentity p port i else (s.identSeen p port).miswire p port e i := by
  unfold State.identIn
  dsimp only
  rw [if_neg (by omega)]
  unfold State.identExpected at he
  split
  · next e' hexp => rw [Option.some.inj (hexp.symm.trans he)]; rfl
  · next hexp => exact absurd (hexp.symm.trans he) (by simp)

theorem State.identIn_agrees {s : State} {p : Part} {port : Nat} {i : Identity} (h5 : s.portState p port ≠ 5) (h6 : s.portState p port ≠ 6)
    (h : s.mapEntry p port = some i ∨ (s.mapEntry p port = none ∧ (s.portState p port = 1 ∨ s.farIdentity p port = some i))) :
    s.identIn p port i = (s.identSeen p port).recordIdentity p port i := by
  have hexp : s.identExpected p port = some i ∨ s.identExpected p port = none := by
    unfold State.identExpected
    obtain h | ⟨h, hcase⟩ := h
    · rw [h]
      exact .inl rfl
    · rw [h]
      dsimp only
      split
      · next hst => exact .inl (hcase.resolve_left (by omega))
      · exact .inr rfl
  obtain he | he := hexp
  · exact (State.identIn_some h5 h6 he i).trans (if_pos rfl)
  · exact State.identIn_none h5 h6 he i

theorem State.identIn_differs {s : State} {p : Part} {port : Nat} {e i : Identity} (h5 : s.portState p port ≠ 5) (h6 : s.portState p port ≠ 6)
    (hne : e ≠ i) (h : s.mapEntry p port = some e ∨ (s.mapEntry p port = none ∧ s.portUp p port = true ∧ s.farIdentity p port = some e)) :
    s.identIn p port i = (s.identSeen p port).miswire p port e i := by
  have hexp : s.identExpected p port = some e := by
    unfold State.identExpected
    obtain h | ⟨h, hup, hfar⟩ := h
    · rw [h]
    · rw [h]
      have := State.portState_of_up hup
      exact (if_pos (by omega)).trans hfar
  exact (State.identIn_some h5 h6 hexp i).trans (if_neg hne)

/-! ### A miswired port -/

/-- A port shows that it is MISWIRED, and carries nothing. -/
def State.miswireShown (s : State) (p : Part) (port : Nat) : State := (s.setFld p (psBase p port + 4) 0 3 6).modLink p port Link.stopped

/-- The disagreement is recorded and reported. -/
def State.miswireTold (s : State) (p : Part) (port : Nat) (expected got : Identity) : State :=
  if p = .ronpex then ((s.logIdentity p port expected false).logIdentity p port got true).portEvent port 2 0 0
  else (s.logIdentity p port expected false).logIdentity p port got true

theorem State.miswire_eq (s : State) (p : Part) (port : Nat) (expected got : Identity) : s.miswire p port expected got
    = ((s.miswireShown p port).miswireTold p port expected got).portLeft p port (s.portUp p port) := by
  unfold State.miswire State.portLeft
  dsimp only
  cases s.portUp p port <;> cases p <;> rfl

theorem State.linksQuiet_miswireTold (s : State) (p : Part) (port : Nat) (expected got : Identity) :
    State.LinksQuiet p s (s.miswireTold p port expected got) := by
  have hlog : State.LinksQuiet p s ((s.logIdentity p port expected false).logIdentity p port got true) :=
    (State.linksQuiet_pcond p s _ _ _ _ _ _ _ _).trans (State.linksQuiet_pcond p _ _ _ _ _ _ _ _ _)
  unfold State.miswireTold
  cases p
  · exact hlog.trans (State.linksQuiet_portEvent _ port 2 0 0)
  · exact hlog

theorem State.linkSet_miswireShown {s t : State} {p : Part} {port : Nat} {l : Link}
    (h : State.LinkSet p port [psBase p port + 4] l s t) :
    State.LinkSet p port [psBase p port + 4] l.stopped s (t.miswireShown p port) :=
  (h.setFld (List.mem_singleton.2 rfl) 0 3 6).modLink Link.stopped

theorem State.miswire_does (s : State) (p : Part) {port : Nat} (hp : port < 192) (expected got : Identity) :
    (((s.identSeen p port).miswire p port expected got).portState p port = 6
      ∧ (((s.identSeen p port).miswire p port expected got).link p port).keys.tx = none
      ∧ (((s.identSeen p port).miswire p port expected got).link p port).keys.rx = none)
      ∧ otherPorts p port s ((s.identSeen p port).miswire p port expected got)
      ∧ onlyPart p s ((s.identSeen p port).miswire p port expected got) := by
  have hset := State.linkSet_miswireShown (s.linkSet_modLink p port [psBase p port + 4] fun l => { l with identGot := true })
  have hother := hset.otherPorts fun q hq hne hm => psBase_ne p hne (by omega) (by omega) (List.mem_singleton.1 hm)
  rw [State.miswire_eq]
  have hstop := (((s.identSeen p port).miswireShown p port).linksQuiet_miswireTold p port expected got).stops hp
    (State.portStopped_portLeft _ p hp ((s.identSeen p port).portUp p port))
  obtain ⟨b, hlink⟩ := hstop.link
  have hshown : ((s.identSeen p port).miswireShown p port).portState p port = 6 :=
    (State.fld_congr (State.reg_modLinkOf _ _ _ _ _) 0 3).trans (State.fld_setFld_same _ _ _ _ _ _ (by omega))
  refine ⟨⟨(State.portState_of_reg (hstop.regs _ (linkReg_psBase p hp (by omega)))).trans hshown, ?_, ?_⟩, fun q hq hne => ?_,
    onlyPart_trans (onlyPart_of_onlyLink hset.only) hstop.only⟩
  · rw [hlink]
    exact congrArg (fun l : Link => l.keys.tx) hset.link
  · rw [hlink]
    exact congrArg (fun l : Link => l.keys.rx) hset.link
  · have := partPorts_le p
    exact ⟨(State.portState_of_reg (hstop.regs _ (linkReg_psBase p (by omega) (by omega)))).trans (hother q hq hne).1,
      (hstop.others q hne).trans (hother q hq hne).2⟩

/-! ### FAR readings -/

/-- The register of a wavelength, by its place in a message that begins with the wavelength `first`. -/
def farReg (p : Part) (port first i : Nat) : Nat := psBase p port + 0x20 + 4 * (first + i)

theorem State.farPower_eq (s : State) (p : Part) (port first : Nat) {l : List Int} (h : l.length = 5) :
    s.farPower p port first l = s.readingsIn p 16 (farReg p port first) l 0 := by
  unfold State.farPower State.readingsIn
  rw [List.take_of_length_le (by omega)]
  rfl

theorem State.farPower_does (s : State) (p : Part) (port first : Nat) {l : List Int} (h : l.length = 5) :
    State.LinkSet p port ((List.range 5).map (farReg p port first)) (s.link p port) s (s.farPower p port first l)
      ∧ ∀ i < 5, (s.farPower p port first l).fld p (farReg p port first i) 16 16 = ofSigned 16 (l.getD i 0)
        ∧ (s.farPower p port first l).fld p (farReg p port first i) 0 16 = s.fld p (farReg p port first i) 0 16 := by
  rw [State.farPower_eq s p port first h]
  have hinj : Function.Injective (farReg p port first) := by
    intro i j hij
    unfold farReg at hij
    omega
  refine ⟨State.linkSet_readingsIn l 0 s (State.LinkSet.refl p port _ s) fun i hi =>
    List.mem_map.2 ⟨i, List.mem_range.2 (by omega), by rw [Nat.zero_add]⟩, fun i hi => ⟨?_, State.fld_readingsIn_outside (by omega) (by omega) l 0 s⟩⟩
  have := State.fld_readingsIn_same (s := s) (p := p) (lo := 16) (by omega) hinj l 0 (i := i) (by omega)
  rwa [Nat.zero_add] at this

/-! ### TUNE -/

theorem Link.tune_does (l : Link) {w request : Nat} (h1 : 1 ≤ request) (h6 : request ≤ 6) (hw : w < 10) (h4 : w ≠ 4) :
    SMap.look (fun _ => driveReset) (l.tune w request).drive w = setBits (8 * ((request - 1) / 2)) 8
        (if request % 2 = 1 then min (bits (8 * ((request - 1) / 2)) 8 (SMap.look (fun _ => driveReset) l.drive w) + 1) 255
         else bits (8 * ((request - 1) / 2)) 8 (SMap.look (fun _ => driveReset) l.drive w) - 1)
        (SMap.look (fun _ => driveReset) l.drive w)
      ∧ l.tune w request = { l with drive := (l.tune w request).drive } := by
  unfold Link.tune
  rw [if_pos ⟨h1, h6, hw, h4⟩]
  exact ⟨SMap.look_put_same _ _ _ _, rfl⟩

/-! ### STATE -/

/-- The registers, the other ports and the place in training of a port are as before. -/
structure State.StepKept (p : Part) (port : Nat) (s t : State) : Prop where
  regs : ∀ a, t.reg p a = s.reg p a
  step : (t.link p port).step = (s.link p port).step
  stepAt : (t.link p port).stepAt = (s.link p port).stepAt
  far : (t.link p port).farStep = (s.link p port).farStep
  others : ∀ q, q ≠ port → t.link p q = s.link p q
  only : onlyPart p s t

theorem State.StepKept.refl (p : Part) (port : Nat) (s : State) : State.StepKept p port s s :=
  ⟨fun _ => rfl, rfl, rfl, rfl, fun _ _ => rfl, onlyPart_refl p s⟩

theorem State.StepKept.trans {p : Part} {port : Nat} {s t u : State} (h : State.StepKept p port s t) (k : State.StepKept p port t u) :
    State.StepKept p port s u where
  regs a := (k.regs a).trans (h.regs a)
  step := k.step.trans h.step
  stepAt := k.stepAt.trans h.stepAt
  far := k.far.trans h.far
  others q hq := (k.others q hq).trans (h.others q hq)
  only := onlyPart_trans h.only k.only

theorem State.LinkSet.stepKept {p : Part} {port : Nat} {l : Link} {s t : State} (h : State.LinkSet p port [] l s t)
    (h1 : l.step = (s.link p port).step) (h2 : l.stepAt = (s.link p port).stepAt) (h3 : l.farStep = (s.link p port).farStep) :
    State.StepKept p port s t :=
  ⟨h.reg, by rw [h.link, h1], by rw [h.link, h2], by rw [h.link, h3], h.only.1, onlyPart_of_onlyLink h.only⟩

theorem State.stepKept_lmcPush (s : State) (p : Part) (port : Nat) (ms : List LmcMsg) : State.StepKept p port s (s.lmcPush p port ms) :=
  ((State.LinkSet.refl p port [] s).lmcPush ms).stepKept rfl rfl rfl

theorem State.stepKept_modKeys (s : State) (p : Part) (port : Nat) (f : LinkKeys → LinkKeys) : State.StepKept p port s (s.modKeys p port f) :=
  (s.linkSet_modKeys p port [] f).stepKept rfl rfl rfl

theorem State.stepKept_drawn (s : State) (p : Part) (port : Nat) : State.StepKept p port s s.drawn := by
  have hlink := s.link_drawn p
  exact ⟨fun a => State.reg_draw s p a, by rw [hlink], by rw [hlink], by rw [hlink], fun q _ => hlink q, onlyPart_draw s p⟩

theorem State.stepKept_tuneWls (p : Part) (port : Nat) (ws : List Nat) (s : State) : State.StepKept p port s (s.tuneWls p port ws) := by
  induction ws generalizing s with
  | nil => exact State.StepKept.refl p port s
  | cons w ws ih =>
    rw [State.tuneWls_cons]
    exact ((s.stepKept_drawn p port).trans (s.drawn.stepKept_lmcPush p port _)).trans (ih _)

theorem State.stepKept_sendSig (s : State) (p : Part) (port : Nat) : State.StepKept p port s (s.sendSig p port) := by
  unfold State.sendSig
  dsimp only
  split
  · exact State.StepKept.refl p port s
  · split
    · exact State.StepKept.refl p port s
    · exact (s.stepKept_modKeys p port _).trans (State.stepKept_lmcPush _ p port _)

theorem State.stepKept_beginKeys (s : State) (p : Part) (port : Nat) (cert : Bool) : State.StepKept p port s (s.beginKeys p port cert) :=
  (((s.stepKept_drawn p port).trans (State.stepKept_modKeys _ p port _)).trans (State.stepKept_lmcPush _ p port _)).trans
    (State.stepKept_sendSig _ p port)

/-- The place in training of an end that enters a step. -/
def State.stepEntered (s : State) (p : Part) (port k : Nat) : State :=
  s.modLink p port fun l => { l with step := k, stepAt := s.now, checkers := [] }

theorem State.stepKept_enterStep (s : State) (p : Part) (port k : Nat) :
    State.StepKept p port (s.stepEntered p port k) (s.enterStep p port k) := by
  have heq : s.enterStep p port k = if k = 4 then (s.stepEntered p port k).tuneWls p port ((List.range 10).filter fun w => w != 4)
      else if k = 7 then (s.stepEntered p port k).beginKeys p port true else s.stepEntered p port k := rfl
  rw [heq]
  split
  · exact State.stepKept_tuneWls p port _ _
  · split
    · exact State.stepKept_beginKeys _ p port true
    · exact State.StepKept.refl p port _

/-- STATE of the far receiver is kept. -/
def State.farStepKept (s : State) (p : Part) (port step : Nat) : State := s.modLink p port fun l => { l with farStep := step }

theorem State.linkSet_farStepKept (s : State) (p : Part) (port step : Nat) :
    State.LinkSet p port [] { s.link p port with farStep := step } s (s.farStepKept p port step) :=
  s.linkSet_modLink p port [] fun l => { l with farStep := step }

theorem State.farStateIn_eq (s : State) (p : Part) (port step : Nat) : s.farStateIn p port step
    = if s.portState p port = 1 ∧ (s.link p port).step < (s.link p port).rxStep ∧ (s.link p port).step < step then
        (s.farStepKept p port step).enterStep p port ((s.link p port).step + 1)
      else s.farStepKept p port step := by
  have hset := s.linkSet_farStepKept p port step
  have hstate : (s.farStepKept p port step).portState p port = s.portState p port := hset.fld _ 0 3
  have heq : s.farStateIn p port step = (s.farStepKept p port step).stepOn p port := rfl
  rw [heq]
  unfold State.stepOn
  dsimp only
  rw [hstate, hset.link]

theorem State.farStateIn_enters {s : State} {p : Part} {port step : Nat} (h1 : s.portState p port = 1)
    (hrx : (s.link p port).step < (s.link p port).rxStep) (hfar : (s.link p port).step < step) :
    ((s.farStateIn p port step).link p port).step = (s.link p port).step + 1 ∧ ((s.farStateIn p port step).link p port).stepAt = s.now
      ∧ ((s.farStateIn p port step).link p port).farStep = step ∧ (s.farStateIn p port step).portState p port = 1
      ∧ regsBut s (s.farStateIn p port step) p [] ∧ otherPorts p port s (s.farStateIn p port step)
      ∧ onlyPart p s (s.farStateIn p port step) := by
  rw [State.farStateIn_eq, if_pos ⟨h1, hrx, hfar⟩]
  have hset := (s.linkSet_farStepKept p port step).modLink
    fun l => { l with step := (s.link p port).step + 1, stepAt := (s.farStepKept p port step).now, checkers := [] }
  have hnow : (s.farStepKept p port step).now = s.now := now_of_onlyPart (onlyPart_of_onlyLink (s.linkSet_farStepKept p port step).only)
  have hkept := (s.farStepKept p port step).stepKept_enterStep p port ((s.link p port).step + 1)
  rw [State.stepEntered] at hkept
  refine ⟨by rw [hkept.step, hset.link], by rw [hkept.stepAt, hset.link, hnow], by rw [hkept.far, hset.link],
    (State.portState_of_reg ((hkept.regs _).trans (hset.reg _))).trans h1, fun a _ => (hkept.regs a).trans (hset.reg a),
    fun q _ hne => ⟨State.portState_of_reg ((hkept.regs _).trans (hset.reg _)), (hkept.others q hne).trans (hset.only.1 q hne)⟩,
    onlyPart_trans (onlyPart_of_onlyLink hset.only) hkept.only⟩

theorem lmcTaken_none {s : State} {p : Part} {port : Nat} {l : Lmc} {m : LmcMsg}
    (h : lmcGood l m = false ∨ s.lmcRuns p port = false ∨ s.skyNow p port = true) : s.lmcTaken p port l m = false := by
  unfold State.lmcTaken
  obtain h | h | h := h <;> simp [h]

end Sys2Proof.Machine
end

section
/-! Time exchanges of a link (R212, R380, R381), and what the messages of a link do. -/

namespace Sys2Proof.Machine

open Sys2Proof Sys2Proof.Claims

/-! ### Time from the parent -/

/-- The fabric time of a part after an exchange with its parent. -/
def State.nextTime (s : State) (p : Part) (port : Nat) (twice : Int) (delay depth : Nat) : TimeSt :=
  let t := s.timeSt p
  let good := if -16 ≤ twice ∧ twice ≤ 16 then min (t.good + 1) 16 else 0
  let bad := if twice < -64 ∨ 64 < twice then min (t.bad + 1) 3 else 0
  let locked := (t.locked || good == 16) && bad != 3
  { t with
    good := good, bad := bad, locked := locked, everLocked := t.everLocked || locked, holdover := none, parent := some port
    source := if t.source = 1 then 1 else 0, depth := min (depth + 1) 15, exchAt := some s.now, theta := twice / 2, delay := delay
    base := if t.locked then t.base else 0 }

/-- The steering of a Ronpex's clock is shown. -/
def State.freqShown (s : State) (p : Part) (v : Nat) : State := if p = .ronpex then s.setReg .ronpex Reg.timFreq v else s

/-- LOCKED gained or lost is reported. -/
def State.lockTold (s : State) (p : Part) (was now : Bool) : State :=
  if now ∧ !was then s.timeEvent p 1 else if was ∧ !now then s.timeEvent p 2 else s

theorem State.timeFrom_eq (s : State) (p : Part) (port : Nat) (twice : Int) (delay depth : Nat) : s.timeFrom p port twice delay depth
    = (((s.setTimeSt p (s.nextTime p port twice delay depth)).drawn.freqShown p
        ((s.setTimeSt p (s.nextTime p port twice delay depth)).draw.1.toNat % 2 ^ 32)).lockTold p (s.timeSt p).locked
          (s.nextTime p port twice delay depth).locked) := rfl

/-- Of a part only its fabric time, the register that its steering is shown in and those that reports are counted in may differ. -/
structure State.TimeQuiet (p : Part) (s t : State) : Prop where
  quiet : State.LinksQuiet p s t
  rp : p = .ronpex → ∀ a, a ∉ reportRegs → a ≠ Reg.timFreq → t.reg .ronpex a = s.reg .ronpex a
  ep : p = .plocen → ∀ a, t.reg .plocen a = s.reg .plocen a
  warp : t.rp.warp = s.rp.warp

theorem State.TimeQuiet.refl (p : Part) (s : State) : State.TimeQuiet p s s :=
  ⟨State.LinksQuiet.refl p s, fun _ _ _ _ => rfl, fun _ _ => rfl, rfl⟩

theorem State.TimeQuiet.trans {p : Part} {s t u : State} (h : State.TimeQuiet p s t) (k : State.TimeQuiet p t u) : State.TimeQuiet p s u :=
  ⟨h.quiet.trans k.quiet, fun hp a h1 h2 => (k.rp hp a h1 h2).trans (h.rp hp a h1 h2), fun hp a => (k.ep hp a).trans (h.ep hp a),
    k.warp.trans h.warp⟩

theorem State.timeQuiet_setTimeSt (s : State) (p : Part) (x : TimeSt) : State.TimeQuiet p s (s.setTimeSt p x) := by
  cases p
  · exact ⟨⟨fun _ _ => rfl, fun _ _ _ => rfl, fun _ => rfl, rfl, rfl, rfl, rfl⟩, fun _ _ _ _ => rfl, fun hp => absurd hp (by decide), rfl⟩
  · exact ⟨⟨fun _ _ => rfl, fun _ _ _ => rfl, fun _ => rfl, rfl, rfl, rfl, rfl⟩, fun hp => absurd hp (by decide), fun _ _ => rfl, rfl⟩

theorem State.timeQuiet_drawn (s : State) (p : Part) : State.TimeQuiet p s s.drawn := by
  cases p
  · exact ⟨⟨fun _ _ => rfl, fun _ _ _ => rfl, fun _ => rfl, rfl, rfl, rfl, rfl⟩, fun _ _ _ _ => rfl, fun hp => absurd hp (by decide), rfl⟩
  · exact ⟨⟨fun _ _ => rfl, fun _ _ _ => rfl, fun _ => rfl, rfl, rfl, rfl, rfl⟩, fun hp => absurd hp (by decide), fun _ _ => rfl, rfl⟩

theorem State.timeQuiet_freqShown (s : State) (p : Part) (v : Nat) : State.TimeQuiet p s (s.freqShown p v) := by
  cases p
  · have hquiet : State.LinksQuiet .ronpex s (s.setReg .ronpex Reg.timFreq v) := by
      refine State.linksQuiet_setReg .ronpex s (show ¬0x5000000 ≤ Reg.timFreq by decide) (fun _ n _ he => ?_) _
      have := le_portBase n
      rw [← he] at this
      exact absurd this (by decide)
    show State.TimeQuiet .ronpex s (s.setReg .ronpex Reg.timFreq v)
    exact ⟨hquiet, fun _ a _ hne => State.reg_setReg_other _ _ _ _ _ _ (.inr hne.symm), fun hp => absurd hp (by decide), rfl⟩
  · exact State.TimeQuiet.refl .plocen s

theorem State.timeQuiet_timeEvent (s : State) (p : Part) (case : Nat) :
    State.TimeQuiet p s (s.timeEvent p case) ∧ (s.timeEvent p case).timeSt p = s.timeSt p := by
  cases p
  · have heq : s.timeEvent .ronpex case = s.post (plainEvent s.now 0x32 (subcodeOf 0x32 case)) := rfl
    rw [heq]
    obtain ⟨o, m, x, h⟩ := s.post_only (plainEvent s.now 0x32 (subcodeOf 0x32 case))
    refine ⟨⟨State.linksQuiet_ronpex (by simp) (by simp) (onlyRonpex_of (by simp) (by simp)),
      fun _ a ha _ => State.reg_post _ _ ha, fun hp => absurd hp (by decide), State.rp_post _ _⟩, ?_⟩
    rw [h]
    rfl
  · exact ⟨State.TimeQuiet.refl .plocen s, rfl⟩

theorem State.timeQuiet_lockTold (s : State) (p : Part) (was now : Bool) :
    State.TimeQuiet p s (s.lockTold p was now) ∧ (s.lockTold p was now).timeSt p = s.timeSt p := by
  unfold State.lockTold
  split
  · exact s.timeQuiet_timeEvent p 1
  · split
    · exact s.timeQuiet_timeEvent p 2
    · exact ⟨State.TimeQuiet.refl p s, rfl⟩

theorem State.timeFrom_does (s : State) (p : Part) (port : Nat) (twice : Int) (delay depth : Nat) :
    State.TimeQuiet p s (s.timeFrom p port twice delay depth)
      ∧ (s.timeFrom p port twice delay depth).timeSt p = s.nextTime p port twice delay depth := by
  rw [State.timeFrom_eq]
  generalize s.nextTime p port twice delay depth = x
  generalize (s.setTimeSt p x).draw.1.toNat % 2 ^ 32 = v
  obtain ⟨htold, htime⟩ := ((s.setTimeSt p x).drawn.freqShown p v).timeQuiet_lockTold p (s.timeSt p).locked x.locked
  refine ⟨(((s.timeQuiet_setTimeSt p x).trans (State.timeQuiet_drawn _ p)).trans (State.timeQuiet_freqShown _ p v)).trans htold, htime.trans ?_⟩
  cases p <;> rfl

theorem State.linkDelay_timeQuiet {p : Part} {s t : State} (h : State.TimeQuiet p s t) {port : Nat} (hp : port < 192) :
    t.linkDelay p port = s.linkDelay p port := by
  cases p
  · have hreg := h.rp rfl (Reg.drfLdly port) (by
      simp only [reportRegs, List.mem_cons, List.not_mem_nil, or_false, not_or, Reg.drfLdly, Reg.logLost, Reg.mgtEvtOvf, Reg.mgtMsixPba]
      omega) (by
      simp only [Reg.drfLdly, Reg.timFreq]
      omega)
    exact Prod.ext (State.fld_congr hreg 0 8) (State.fld_congr hreg 8 8)
  · exact Prod.ext (State.fld_congr (h.ep rfl _) 8 8) (State.fld_congr (h.ep rfl _) 0 8)

theorem State.skyNow_timeQuiet {p : Part} {s t : State} (h : State.TimeQuiet p s t) {port : Nat} (hp : port < 192) :
    t.skyNow p port = s.skyNow p port := by
  unfold State.skyNow
  rw [now_of_onlyPart h.quiet.only]
  refine State.inSky_congr p h.warp (fun hr a ha => ?_) (fun he a _ => h.ep he a) hp _
  obtain rfl | ha := ha
  · exact h.rp hr _ (by decide) (by decide)
  · exact h.rp hr a (notMem_reportRegs ha.1) (by unfold Reg.timFreq; omega)

/-! ### An exchange -/

/-- The link of a port that has completed an exchange. -/
def Link.exchanged (l : Link) (now : Nat) (m : Option (Nat × Nat)) : Link :=
  { l with syncSent := none, syncGot := none, exchAt := some now, measured := if l.step ≠ 8 then l.measured else m }

/-- The delays of both directions in slots, as two ends that agree on fabric time measure them. -/
def exchDelays (t1 t2 t3 t4 : Nat) : Nat × Nat := (delaySlots ((t2 : Int) - t1).toNat, delaySlots ((t4 : Int) - t3).toNat)

/-- Half the sum of the two delays, in 1/16 ns. -/
def exchHalf (t1 t2 t3 t4 : Nat) : Nat := ((((t2 : Int) - t1) + ((t4 : Int) - t3)) / 2).toNat

/-- Twice the offset of an exchange, in 1/16 ns. -/
def exchTwice (t1 t2 t3 t4 : Nat) : Int := ((t2 : Int) - t1) - ((t4 : Int) - t3)

/-- What a port in training measures. -/
def State.exchMeasured (s : State) (p : Part) (port t1 t2 t3 t4 : Nat) : Option (Nat × Nat) :=
  if s.timeAgreed p port then some (exchDelays t1 t2 t3 t4)
  else some (delaySlots (exchHalf t1 t2 t3 t4), delaySlots (exchHalf t1 t2 t3 t4))

/-- An exchange has been completed in the link. -/
def State.exchShown (s : State) (p : Part) (port t1 t2 t3 t4 : Nat) : State :=
  s.modLink p port (·.exchanged s.now (s.exchMeasured p port t1 t2 t3 t4))

/-- Time is taken from the far end of an exchange, where it is the parent and LOCKED. -/
def State.exchTimed (s u : State) (p : Part) (port t1 t2 t3 t4 : Nat) : State :=
  match (s.link p port).farTime with
  | some (true, _, depth) => if s.isParent p port then u.timeFrom p port (exchTwice t1 t2 t3 t4) (exchHalf t1 t2 t3 t4) depth else u
  | _ => u

theorem State.exchange_eq {s : State} {p : Part} {port q t1 t2 t3 t4 n : Nat} (hs : (s.link p port).syncSent = some (q, t3))
    (hg : (s.link p port).syncGot = some (t1, t2, n)) : s.exchange p port q t4
      = if s.timeAgreed p port then (s.exchTimed (s.exchShown p port t1 t2 t3 t4) p port t1 t2 t3 t4).delayAgain p port
            (exchDelays t1 t2 t3 t4).1 (exchDelays t1 t2 t3 t4).2
        else s.exchTimed (s.exchShown p port t1 t2 t3 t4) p port t1 t2 t3 t4 := by
  unfold State.exchange
  rw [hs, hg]
  dsimp only
  rw [if_neg (by simp)]
  rfl

theorem State.linkSet_exchShown (s : State) (p : Part) (port t1 t2 t3 t4 : Nat) :
    State.LinkSet p port [] ((s.link p port).exchanged s.now (s.exchMeasured p port t1 t2 t3 t4)) s (s.exchShown p port t1 t2 t3 t4) :=
  s.linkSet_modLink p port [] (·.exchanged s.now (s.exchMeasured p port t1 t2 t3 t4))

theorem State.timeQuiet_exchTimed (s u : State) (p : Part) (port t1 t2 t3 t4 : Nat) :
    State.TimeQuiet p u (s.exchTimed u p port t1 t2 t3 t4) := by
  unfold State.exchTimed
  split
  · split
    · exact (u.timeFrom_does p port _ _ _).1
    · exact State.TimeQuiet.refl p u
  · exact State.TimeQuiet.refl p u

theorem State.exchTimed_parent {s : State} {p : Part} {port depth : Nat} {m : Bool} (hf : (s.link p port).farTime = some (true, m, depth))
    (hp : s.isParent p port = true) (u : State) (t1 t2 t3 t4 : Nat) : s.exchTimed u p port t1 t2 t3 t4
      = u.timeFrom p port (exchTwice t1 t2 t3 t4) (exchHalf t1 t2 t3 t4) depth := by
  unfold State.exchTimed
  rw [hf]
  exact if_pos hp

theorem State.timeAgreed_none {s : State} {p : Part} {port : Nat} (h : (s.link p port).farTime = none) : s.timeAgreed p port = false := by
  simp [State.timeAgreed, h]

/-- The count of measurements that differ begins afresh. -/
def State.delayGood (s : State) (p : Part) (port : Nat) : State := s.modLink p port fun l => { l with delayBad := 0 }

theorem State.delayAgain_same {s : State} {p : Part} {port a b : Nat} (h : s.linkDelay p port = (a % 256, b % 256)) :
    s.delayAgain p port a b = if s.watched p port then s.delayGood p port else s := by
  unfold State.delayAgain
  cases s.watched p port
  · rfl
  · exact (if_neg (by decide)).trans (if_pos h)

theorem State.delayAgain_third {s : State} {p : Part} {port a b : Nat} (hup : s.portUp p port = true) (hsky : s.skyNow p port = false)
    (h : s.linkDelay p port ≠ (a % 256, b % 256)) (hbad : 2 ≤ (s.link p port).delayBad) :
    s.delayAgain p port a b = s.portDown p port 0x14 := by
  unfold State.delayAgain
  rw [watched_iff.2 ⟨hup, hsky⟩, if_neg (by decide), if_neg h, if_neg (by omega)]
  exact if_neg (by simp [hsky])

/-- A change of the link alone. -/
theorem State.LinkSet.near {p : Part} {port : Nat} {l : Link} {s t : State} (h : State.LinkSet p port [] l s t) : State.PortNear p port s t where
  count := h.fld _ 16 16
  unit hr := by
    subst hr
    exact h.fld _ 0 2
  others := h.otherPorts fun _ _ _ => List.not_mem_nil
  only := onlyPart_of_onlyLink h.only

/-- What an exchange with the parent leaves. -/
structure State.TimedBy (p : Part) (port depth : Nat) (twice : Int) (delay : Nat) (s t : State) : Prop where
  time : t.timeSt p = s.nextTime p port twice delay depth
  sent : (t.link p port).syncSent = none
  others : otherPorts p port s t
  only : onlyPart p s t

theorem State.TimedBy.delayGood {p : Part} {port depth : Nat} {twice : Int} {delay : Nat} {s t : State}
    (h : State.TimedBy p port depth twice delay s t) : State.TimedBy p port depth twice delay s (t.delayGood p port) := by
  have hset := t.linkSet_modLink p port [] fun l => { l with delayBad := 0 }
  have hother := hset.otherPorts fun _ _ _ => List.not_mem_nil
  have hlink : (t.delayGood p port).link p port = { t.link p port with delayBad := 0 } := hset.link
  refine ⟨?_, by rw [hlink]; exact h.sent,
    fun q hq hne => ⟨(hother q hq hne).1.trans (h.others q hq hne).1, (hother q hq hne).2.trans (h.others q hq hne).2⟩,
    onlyPart_trans h.only (onlyPart_of_onlyLink hset.only)⟩
  rw [← h.time]
  cases p <;> rfl

theorem State.timedBy_exchange {s : State} {p : Part} (port : Fin 192) {q t1 t2 t3 t4 n depth : Nat} {m : Bool}
    (hs : (s.link p port).syncSent = some (q, t3)) (hg : (s.link p port).syncGot = some (t1, t2, n))
    (hf : (s.link p port).farTime = some (true, m, depth)) (hp : s.isParent p port = true)
    (hd : s.timeAgreed p port = false ∨ s.linkDelay p port = ((exchDelays t1 t2 t3 t4).1 % 256, (exchDelays t1 t2 t3 t4).2 % 256)) :
    State.TimedBy p port depth (exchTwice t1 t2 t3 t4) (exchHalf t1 t2 t3 t4) s (s.exchange p port q t4) := by
  have hset := s.linkSet_exchShown p port t1 t2 t3 t4
  have hother := hset.otherPorts fun _ _ _ => List.not_mem_nil
  obtain ⟨hquiet, htime⟩ := (s.exchShown p port t1 t2 t3 t4).timeFrom_does p port (exchTwice t1 t2 t3 t4) (exchHalf t1 t2 t3 t4) depth
  have hnear := (hquiet.quiet.near port.2).others
  have htimed : State.TimedBy p port depth (exchTwice t1 t2 t3 t4) (exchHalf t1 t2 t3 t4) s
      ((s.exchShown p port t1 t2 t3 t4).timeFrom p port (exchTwice t1 t2 t3 t4) (exchHalf t1 t2 t3 t4) depth) := by
    refine ⟨htime.trans ?_, by rw [hquiet.quiet.links, hset.link]; rfl,
      fun q hq hne => ⟨(hnear q hq hne).1.trans (hother q hq hne).1, (hnear q hq hne).2.trans (hother q hq hne).2⟩,
      onlyPart_trans (onlyPart_of_onlyLink hset.only) hquiet.quiet.only⟩
    cases p <;> rfl
  have hdelay : ((s.exchShown p port t1 t2 t3 t4).timeFrom p port (exchTwice t1 t2 t3 t4) (exchHalf t1 t2 t3 t4) depth).linkDelay p port
      = s.linkDelay p port := by
    rw [State.linkDelay_timeQuiet hquiet port.2]
    cases p <;> rfl
  rw [State.exchange_eq hs hg, State.exchTimed_parent hf hp]
  split
  · next hagreed =>
    rw [State.delayAgain_same (hdelay.trans (hd.resolve_left (by simp [hagreed])))]
    split
    · exact htimed.delayGood
    · exact htimed
  · exact htimed

theorem wentDown_exchange {s : State} {p : Part} (port : Fin 192) {q t1 t2 t3 t4 n : Nat}
    (hs : (s.link p port).syncSent = some (q, t3)) (hg : (s.link p port).syncGot = some (t1, t2, n)) (hsky : s.skyNow p port = false)
    (ha : s.timeAgreed p port = true) (hup : s.portUp p port = true) (hbad : 2 ≤ (s.link p port).delayBad)
    (hd : s.linkDelay p port ≠ ((exchDelays t1 t2 t3 t4).1 % 256, (exchDelays t1 t2 t3 t4).2 % 256)) :
    wentDown p port 0x14 s (s.exchange p port q t4) := by
  have hset := s.linkSet_exchShown p port t1 t2 t3 t4
  have hquiet := s.timeQuiet_exchTimed (s.exchShown p port t1 t2 t3 t4) p port t1 t2 t3 t4
  have hnear := hset.near.trans (hquiet.quiet.near port.2)
  have hshown : (s.exchShown p port t1 t2 t3 t4).skyNow p port = s.skyNow p port := by
    cases p <;> rfl
  have hdelay : (s.exchShown p port t1 t2 t3 t4).linkDelay p port = s.linkDelay p port := by
    cases p <;> rfl
  have hstate : (s.exchTimed (s.exchShown p port t1 t2 t3 t4) p port t1 t2 t3 t4).portState p port = s.portState p port :=
    (State.portState_of_reg (hquiet.quiet.regs _ (linkReg_psBase p port.2 (by omega)))).trans (hset.fld _ 0 3)
  have hlink := (hquiet.quiet.links port).trans hset.link
  have hin := State.portState_of_up hup
  rw [State.exchange_eq hs hg, if_pos ha, State.delayAgain_third (by rw [State.portUp, hstate]; exact hup)
    (by rw [State.skyNow_timeQuiet hquiet port.2, hshown, hsky]) (by rw [State.linkDelay_timeQuiet hquiet port.2, hdelay]; exact hd)
    (by rw [hlink]; exact hbad)]
  exact wentDown_of_near hnear (wentDown_portDown port.2 (by omega) (by omega) (by omega) (by omega))

theorem State.exchange_untimed {s : State} {p : Part} {port q t1 t2 t3 t4 n : Nat} (hs : (s.link p port).syncSent = some (q, t3))
    (hg : (s.link p port).syncGot = some (t1, t2, n)) (hf : (s.link p port).farTime = none) :
    s.exchange p port q t4 = s.exchShown p port t1 t2 t3 t4
      ∧ s.exchMeasured p port t1 t2 t3 t4 = some (delaySlots (exchHalf t1 t2 t3 t4), delaySlots (exchHalf t1 t2 t3 t4)) := by
  have hno : ¬s.timeAgreed p port = true := by simp [State.timeAgreed_none hf]
  refine ⟨?_, if_neg hno⟩
  rw [State.exchange_eq hs hg, if_neg hno]
  unfold State.exchTimed
  rw [hf]

/-- Settles O29: a message that is not taken changes nothing, and each message that is taken does what its lemma says. -/
theorem linkMessages : Obligations.LinkMessages := by
  unfold Obligations.LinkMessages
  refine ⟨fun s p port l i rs x y z g b c d m hm hno => ?_, ?_⟩
  · simp only [List.mem_cons, List.not_mem_nil, or_false] at hm
    have hskip {f : State} {msg : LmcMsg} (h : lmcGood l msg = false ∨ s.lmcRuns p port = false ∨ s.skyNow p port = true) :
        (if s.lmcTaken p port l msg then f else s) = s := if_neg (by rw [lmcTaken_none h]; decide)
    obtain rfl | rfl | rfl | rfl | rfl | rfl | rfl | rfl | rfl | rfl | rfl | rfl | rfl | rfl | rfl | rfl := hm <;>
      exact congrArg Host.Outcome.next (hskip hno)
  · rintro s p port l _ rfl hr hsky
    have htaken {f : State} {msg : LmcMsg} (h : lmcGood l msg = true) : (if s.lmcTaken p port l msg then f else s) = f :=
      if_pos (lmcTaken_of_good hr hsky h)
    refine ⟨fun far hg hport h5 h6 hmap => ?_, fun far e hg hne h5 h6 hmap => ?_, fun rs hrs => ⟨fun hg => ?_, fun hg => ?_⟩, ?_, ?_,
      fun b hg => ?_, fun locked master depth time16 recv16 hg => ?_, ?_⟩
    · have hset := State.linkSet_recordIdentity (s.linkSet_modLink p port _ fun l => { l with identGot := true }) far
      exact ⟨_, congrArg Host.Outcome.next ((htaken hg).trans (State.identIn_agrees h5 h6 hmap)),
        State.farIdentity_recordIdentity _ p port hport, hset.only, hset.link, hset.regs⟩
    · obtain ⟨⟨hstate, htx, hrx⟩, hother, honly⟩ := s.miswire_does p port.2 e far
      exact ⟨_, congrArg Host.Outcome.next ((htaken hg).trans (State.identIn_differs h5 h6 hne hmap)), hstate, htx, hrx, hother, honly⟩
    · obtain ⟨hset, hfld⟩ := s.farPower_does p port 0 hrs
      refine ⟨_, congrArg Host.Outcome.next (htaken hg), hset.only, hset.link, fun i hi => ?_, ?_⟩
      · have := hfld i hi
        rwa [farReg, Nat.zero_add] at this
      · have := hset.regs
        rwa [show farReg p port 0 = fun i => psBase p port + 0x20 + 4 * i from funext fun i => by rw [farReg, Nat.zero_add]] at this
    · obtain ⟨hset, hfld⟩ := s.farPower_does p port 5 hrs
      have hreg : farReg p port 5 = fun i => psBase p port + 0x34 + 4 * i := by
        funext i
        unfold farReg
        omega
      rw [hreg] at hset hfld
      exact ⟨_, congrArg Host.Outcome.next (htaken hg), hset.only, hset.link, hfld, hset.regs⟩
    · rintro w request _ hg h1 h6 hw h4 rfl
      obtain ⟨hdrive, hrest⟩ := (s.link p port).tune_does h1 h6 hw h4
      have hset := s.linkSet_modLink p port [] fun k => k.tune w request
      exact ⟨_, congrArg Host.Outcome.next (htaken hg), hset.only, hset.regs, by rw [hset.link]; exact hdrive, by rw [hset.link]; exact hrest⟩
    · rintro step _ hg rfl
      refine ⟨fun h1 hrx hfar => ⟨_, congrArg Host.Outcome.next (htaken hg), State.farStateIn_enters h1 hrx hfar⟩, fun hstay => ?_⟩
      have hset := s.linkSet_farStepKept p port step
      refine ⟨_, congrArg Host.Outcome.next ((htaken hg).trans ((s.farStateIn_eq p port step).trans (if_neg ?_))), hset.only, hset.regs, hset.link⟩
      omega
    · have hset := s.linkSet_modLink p port [] fun k => { k with stressed := b }
      exact ⟨_, congrArg Host.Outcome.next (htaken hg), hset.only, hset.regs, hset.link⟩
    · have hset := (s.linkSet_modLink p port [] fun k => { k with
        syncGot := some (time16, recv16, l.seq), farTime := some (locked, master, depth) }).lmcPush [.rxstamp l.seq recv16]
      exact ⟨_, congrArg Host.Outcome.next (htaken hg), hset.only, hset.regs, hset.link⟩
    · rintro q t1 t2 t3 t4 n _ hg hsent hgot rfl
      refine ⟨fun hf => ?_, fun theta delay depth m hf hparent htheta hdelay hd => ?_, fun ha hup hbad hd => ?_⟩
      · obtain ⟨heq, hm⟩ := State.exchange_untimed (q := q) (t4 := t4) hsent hgot hf
        have hset := s.linkSet_exchShown p port t1 t2 t3 t4
        rw [hm] at hset
        exact ⟨_, congrArg Host.Outcome.next ((htaken hg).trans heq), hset.only, hset.regs, hset.link⟩
      · have htimed := State.timedBy_exchange port hsent hgot hf hparent (t4 := t4) hd
        subst htheta hdelay
        exact ⟨_, congrArg Host.Outcome.next (htaken hg), by rw [htimed.time]; rfl, by rw [htimed.time]; rfl, by rw [htimed.time]; rfl,
          by rw [htimed.time]; rfl, by rw [htimed.time]; rfl, by rw [htimed.time]; rfl, htimed.sent, htimed.others, htimed.only⟩
      · exact ⟨_, congrArg Host.Outcome.next (htaken hg), wentDown_exchange port hsent hgot hsky ha hup hbad hd⟩

end Sys2Proof.Machine
end

section
/-! Codeword groups as they are received (R273, R278, R332): what is counted, lost and unchecked. -/

namespace Sys2Proof.Machine

open Sys2Proof Sys2Proof.Claims

/-! ### Frames that are unchecked, and slots that are lost -/

/-- The tag of a frame is not compared. -/
def LinkKeys.Unchecked (k : LinkKeys) (f : Nat) : Prop :=
  if f = k.rxFrame then k.rxClean = false else ∀ e ∈ k.rxDone, e.1 = f → e.2.2 = false

theorem LinkKeys.rxFrame_unclean (k : LinkKeys) (f : Nat) : (k.unclean f).rxFrame = k.rxFrame := by
  unfold LinkKeys.unclean
  split <;> rfl

theorem LinkKeys.unchecked_unclean_same (k : LinkKeys) (f : Nat) : (k.unclean f).Unchecked f := by
  unfold LinkKeys.Unchecked
  rw [LinkKeys.rxFrame_unclean]
  unfold LinkKeys.unclean
  by_cases h : f = k.rxFrame
  · rw [if_pos h, if_pos h]
  · rw [if_neg h, if_neg h]
    intro e he hf
    obtain ⟨x, _, rfl⟩ := List.mem_map.1 he
    by_cases hx : x.1 = f
    · rw [if_pos hx]
    · rw [if_neg hx] at hf
      exact absurd hf hx

theorem LinkKeys.Unchecked.unclean {k : LinkKeys} {f : Nat} (h : k.Unchecked f) (g : Nat) : (k.unclean g).Unchecked f := by
  by_cases hg : g = f
  · exact hg ▸ k.unchecked_unclean_same g
  · unfold LinkKeys.Unchecked at h ⊢
    rw [LinkKeys.rxFrame_unclean]
    unfold LinkKeys.unclean
    by_cases hf : f = k.rxFrame
    · rw [if_pos hf] at h ⊢
      rw [if_neg fun hc => hg (hc.trans hf.symm)]
      exact h
    · rw [if_neg hf] at h ⊢
      split
      · exact h
      · intro e he hef
        obtain ⟨x, hx, rfl⟩ := List.mem_map.1 he
        by_cases hxg : x.1 = g
        · rw [if_pos hxg]
        · rw [if_neg hxg] at hef ⊢
          exact h x hx hef

/-- The frames of some slots are unchecked. -/
def LinkKeys.uncleanAll (k : LinkKeys) (h : Nat → Nat) (slots : List Nat) : LinkKeys := slots.foldl (fun k t => k.unclean (h t)) k

theorem LinkKeys.rxFrame_uncleanAll (h : Nat → Nat) (slots : List Nat) (k : LinkKeys) : (k.uncleanAll h slots).rxFrame = k.rxFrame := by
  induction slots generalizing k with
  | nil => rfl
  | cons t slots ih => exact (ih (k.unclean (h t))).trans (k.rxFrame_unclean (h t))

theorem LinkKeys.Unchecked.uncleanAll {f : Nat} (h : Nat → Nat) (slots : List Nat) {k : LinkKeys} (hk : k.Unchecked f) :
    (k.uncleanAll h slots).Unchecked f := by
  induction slots generalizing k with
  | nil => exact hk
  | cons t slots ih => exact ih (hk.unclean (h t))

theorem LinkKeys.unchecked_uncleanAll (h : Nat → Nat) {slots : List Nat} {t : Nat} (ht : t ∈ slots) (k : LinkKeys) :
    (k.uncleanAll h slots).Unchecked (h t) := by
  induction slots generalizing k with
  | nil => exact absurd ht (by simp)
  | cons u slots ih =>
    obtain rfl | ht := List.mem_cons.1 ht
    · exact (k.unchecked_unclean_same (h t)).uncleanAll h slots
    · exact ih ht (k.unclean (h u))

/-- A slot is lost, and the frame it was sent in unchecked. -/
def Link.Marked (l : Link) (t : Nat) : Prop := t ∈ l.lost ∧ l.keys.Unchecked (l.sentIn t)

/-- The slots that a word touches, which cannot be corrected. -/
def Link.lostWord (l : Link) (slots : List Nat) : Link := { l with lost := l.lost ++ slots, keys := l.keys.uncleanAll l.sentIn slots }

theorem Link.Marked.lostWord {l : Link} {t : Nat} (h : l.Marked t) (slots : List Nat) : (l.lostWord slots).Marked t :=
  ⟨List.mem_append_left _ h.1, LinkKeys.Unchecked.uncleanAll _ slots h.2⟩

theorem Link.marked_lostWord (l : Link) {slots : List Nat} {t : Nat} (h : t ∈ slots) : (l.lostWord slots).Marked t :=
  ⟨List.mem_append_right _ h, LinkKeys.unchecked_uncleanAll _ h _⟩

/-! ### One word -/

/-- The slots that the word at a place of a group touches. -/
def wordSlots (g : RxGroup) (c : Nat) : List Nat := (codewordSlots c).map fun i => g.start + slotNs * i

/-- 1 for a word that cannot be corrected. -/
def badAt (g : RxGroup) (lane c : Nat) : Nat := if groupWord g lane c = some none then 1 else 0

/-- The symbols that are corrected in a word. -/
def corrAt (g : RxGroup) (lane c : Nat) : Nat :=
  match groupWord g lane c with
  | some (some x) => x.2
  | _ => 0

/-- The register that a wavelength's corrected symbols are counted in. -/
def corrReg (p : Part) (port w : Nat) : Nat := psBase p port + 0x50 + 4 * w

/-- The registers in which what a group holds is counted. -/
def groupRegs (p : Part) (port : Nat) : List Nat := (psBase p port + 0x78) :: (List.range 10).map (corrReg p port)

theorem psBase_not_groupRegs (p : Part) (port : Nat) {k : Nat} (hk : k < 0x50 ∨ (0x78 < k)) : psBase p port + k ∉ groupRegs p port := by
  intro hm
  obtain h | h := List.mem_cons.1 hm
  · omega
  · obtain ⟨w, hw, h⟩ := List.mem_map.1 h
    have := List.mem_range.1 hw
    unfold corrReg at h
    omega

theorem satAdd_add {x : Nat} (a b : Nat) : satAdd 32 (satAdd 32 x a) b = satAdd 32 x (a + b) := by
  unfold satAdd
  omega

theorem satAdd_zero {x : Nat} (h : x < 2 ^ 32) : satAdd 32 x 0 = x := by
  unfold satAdd
  omega

/-- Words have been taken: so many that cannot be corrected, and so many corrected symbols of each wavelength. -/
structure State.WordsTaken (p : Part) (port N : Nat) (M : Nat → Nat) (s t : State) : Prop where
  only : onlyLink p port s t
  regs : regsBut s t p (groupRegs p port)
  bad : t.reg p (psBase p port + 0x78) = satAdd 32 (s.reg p (psBase p port + 0x78)) N
  corr : ∀ w < 10, t.reg p (corrReg p port w) = satAdd 32 (s.reg p (corrReg p port w)) (M w)
  delay : (t.link p port).delayIn = (s.link p port).delayIn
  marks : ∀ u, (s.link p port).Marked u → (t.link p port).Marked u

theorem State.WordsTaken.refl (p : Part) (port : Nat) (s : State) : State.WordsTaken p port 0 (fun _ => 0) s s :=
  ⟨onlyLink_refl p port s, fun _ _ => rfl, (satAdd_zero (s.reg_lt p _)).symm, fun _ _ => (satAdd_zero (s.reg_lt p _)).symm, rfl,
    fun _ h => h⟩

theorem State.WordsTaken.trans {p : Part} {port N N' : Nat} {M M' : Nat → Nat} {s t u : State} (h : State.WordsTaken p port N M s t)
    (k : State.WordsTaken p port N' M' t u) : State.WordsTaken p port (N + N') (fun w => M w + M' w) s u where
  only := onlyLink_trans h.only k.only
  regs a ha := (k.regs a ha).trans (h.regs a ha)
  bad := by rw [k.bad, h.bad, satAdd_add]
  corr w hw := by rw [k.corr w hw, h.corr w hw, satAdd_add]
  delay := k.delay.trans h.delay
  marks u hu := k.marks u (h.marks u hu)

theorem State.WordsTaken.laneWl {p : Part} {port N : Nat} {M : Nat → Nat} {s t : State} (h : State.WordsTaken p port N M s t) (lane : Nat) :
    t.laneWl p port lane = s.laneWl p port lane := State.fld_congr (h.regs _ (psBase_not_groupRegs p port (.inl (by omega)))) _ _

theorem State.wordIn_none {s : State} {p : Part} {port lane c : Nat} {g : RxGroup} (h : groupWord g lane c = none) :
    s.wordIn p port g lane c = s := by
  unfold State.wordIn
  dsimp only
  rw [h]

theorem State.wordIn_good {s : State} {p : Part} {port lane c : Nat} {g : RxGroup} {x : List Nat × Nat}
    (h : groupWord g lane c = some (some x)) :
    s.wordIn p port g lane c = s.satFld p (corrReg p port (s.laneWl p port lane)) 0 32 x.2 := by
  unfold State.wordIn
  dsimp only
  rw [h]
  rfl

theorem State.wordIn_bad {s : State} {p : Part} {port lane c : Nat} {g : RxGroup} (h : groupWord g lane c = some none) :
    s.wordIn p port g lane c = (s.satFld p (psBase p port + 0x78) 0 32 1).modLink p port (·.lostWord (wordSlots g c)) := by
  unfold State.wordIn
  dsimp only
  rw [h]
  rfl

/-- The corrected symbols that a word adds to a wavelength. -/
def State.wordCorr (s : State) (p : Part) (port : Nat) (g : RxGroup) (c lane w : Nat) : Nat :=
  if s.laneWl p port lane = w then corrAt g lane c else 0

theorem State.wordsTaken_good {s : State} {p : Part} {port lane : Nat} {x : Nat} (hl : s.laneWl p port lane < 10) :
    State.WordsTaken p port 0 (fun w => if s.laneWl p port lane = w then x else 0) s
      (s.satFld p (corrReg p port (s.laneWl p port lane)) 0 32 x) := by
  have hset := (State.LinkSet.refl p port (groupRegs p port) s).satFld (a := corrReg p port (s.laneWl p port lane))
    (List.mem_cons_of_mem _ (List.mem_map.2 ⟨_, List.mem_range.2 hl, rfl⟩)) 0 32 x
  refine ⟨hset.only, hset.regs, ?_, fun w hw => ?_, by rw [hset.link], fun u hu => by rw [hset.link]; exact hu⟩
  · rw [satAdd_zero (s.reg_lt p _)]
    refine State.reg_setFld_other _ _ _ _ _ _ _ _ (.inr ?_)
    unfold corrReg
    omega
  · by_cases he : s.laneWl p port lane = w
    · rw [if_pos he, ← he]
      exact State.reg_satFld_word _ _ _ _
    · rw [if_neg he, satAdd_zero (s.reg_lt p _)]
      refine State.reg_setFld_other _ _ _ _ _ _ _ _ (.inr ?_)
      unfold corrReg
      omega

theorem State.wordsTaken_bad (s : State) (p : Part) (port : Nat) (slots : List Nat) :
    State.WordsTaken p port 1 (fun _ => 0) s ((s.satFld p (psBase p port + 0x78) 0 32 1).modLink p port (·.lostWord slots))
      ∧ ∀ u ∈ slots, (((s.satFld p (psBase p port + 0x78) 0 32 1).modLink p port (·.lostWord slots)).link p port).Marked u := by
  have hset := ((State.LinkSet.refl p port (groupRegs p port) s).satFld (a := psBase p port + 0x78) List.mem_cons_self 0 32 1).modLink
    (·.lostWord slots)
  refine ⟨⟨hset.only, hset.regs, (State.reg_modLinkOf _ _ _ _ _).trans (State.reg_satFld_word _ _ _ _), fun w hw => ?_, by rw [hset.link]; rfl,
    fun u hu => by rw [hset.link]; exact hu.lostWord slots⟩, fun u hu => by rw [hset.link]; exact Link.marked_lostWord _ hu⟩
  rw [satAdd_zero (s.reg_lt p _)]
  refine (State.reg_modLinkOf _ _ _ _ _).trans (State.reg_setFld_other _ _ _ _ _ _ _ _ (.inr ?_))
  unfold corrReg
  omega

theorem State.wordsTaken_wordIn {s : State} {p : Part} {port lane c : Nat} {g : RxGroup} (hl : s.laneWl p port lane < 10) :
    State.WordsTaken p port (badAt g lane c) (s.wordCorr p port g c lane) s (s.wordIn p port g lane c)
      ∧ (groupWord g lane c = some none → ∀ u ∈ wordSlots g c, ((s.wordIn p port g lane c).link p port).Marked u) := by
  have hcorr : s.wordCorr p port g c lane = fun w => if s.laneWl p port lane = w then corrAt g lane c else 0 := rfl
  rw [hcorr]
  unfold badAt corrAt
  cases h : groupWord g lane c with
  | none =>
    rw [State.wordIn_none h]
    refine ⟨?_, fun hc => absurd hc (by simp)⟩
    have := State.WordsTaken.refl p port s
    simpa using this
  | some o =>
    cases o with
    | none =>
      rw [State.wordIn_bad h]
      obtain ⟨htaken, hmarks⟩ := s.wordsTaken_bad p port (wordSlots g c)
      refine ⟨?_, fun _ => hmarks⟩
      simpa using htaken
    | some x =>
      rw [State.wordIn_good h]
      refine ⟨?_, fun hc => absurd hc (by simp)⟩
      have := State.wordsTaken_good (x := x.2) hl
      simpa using this

/-! ### The words of a place, and of a group -/

/-- The words of some lanes at a place. -/
def State.lanesIn (s : State) (p : Part) (port : Nat) (g : RxGroup) (c : Nat) (ls : List Nat) : State :=
  ls.foldl (fun t lane => t.wordIn p port g lane c) s

theorem State.wordsTaken_lanesIn {p : Part} {port c : Nat} {g : RxGroup} (ls : List Nat) (s : State)
    (hl : ∀ lane ∈ ls, s.laneWl p port lane < 10) :
    State.WordsTaken p port (ls.map fun lane => badAt g lane c).sum (fun w => (ls.map fun lane => s.wordCorr p port g c lane w).sum) s
        (s.lanesIn p port g c ls)
      ∧ ∀ lane ∈ ls, groupWord g lane c = some none → ∀ u ∈ wordSlots g c, ((s.lanesIn p port g c ls).link p port).Marked u := by
  induction ls generalizing s with
  | nil => exact ⟨State.WordsTaken.refl p port s, fun lane hm => absurd hm (by simp)⟩
  | cons lane ls ih =>
    obtain ⟨hword, hmarks⟩ := State.wordsTaken_wordIn (s := s) (p := p) (port := port) (c := c) (g := g) (hl lane (by simp))
    obtain ⟨hrest, hothers⟩ := ih (s.wordIn p port g lane c) fun k hk => by
      rw [hword.laneWl]
      exact hl k (by simp [hk])
    have hcorr (k w : Nat) : (s.wordIn p port g lane c).wordCorr p port g c k w = s.wordCorr p port g c k w := by
      unfold State.wordCorr
      rw [hword.laneWl]
    simp only [hcorr] at hrest
    refine ⟨?_, fun k hk hbad u hu => ?_⟩
    · simp only [List.map_cons, List.sum_cons]
      exact hword.trans hrest
    · obtain rfl | hk := List.mem_cons.1 hk
      · exact hrest.marks u (hmarks hbad u hu)
      · exact hothers k hk hbad u hu

/-- The lanes of a place that could not be corrected, as a mask. -/
def placeMask (g : RxGroup) (c : Nat) : Nat := maskOf ((List.range 8).filter fun lane => groupWord g lane c == some none)

/-- The failures of the lanes at one more place. -/
def Link.placeDone (l : Link) (mask : Nat) : Link :=
  let fails := (mask :: l.laneFails).take 4
  { l with laneFails := fails
           laneDead := ((List.range 8).filter fun lane => fails == List.replicate 4 (2 ^ lane)).foldl (fun m lane => setBit lane true m) l.laneDead }

theorem State.placeIn_eq (s : State) (p : Part) (port : Nat) (g : RxGroup) (c : Nat) :
    s.placeIn p port g c = (s.lanesIn p port g c (List.range 8)).modLink p port (·.placeDone (placeMask g c)) := rfl

theorem State.wordsTaken_modLink (s : State) (p : Part) (port : Nat) {f : Link → Link} (h1 : (f (s.link p port)).delayIn = (s.link p port).delayIn)
    (h2 : (f (s.link p port)).lost = (s.link p port).lost) (h3 : (f (s.link p port)).keys = (s.link p port).keys) :
    State.WordsTaken p port 0 (fun _ => 0) s (s.modLink p port f) := by
  have hset := s.linkSet_modLink p port [] f
  refine ⟨hset.only, fun a _ => hset.reg a, ?_, fun w _ => ?_, by rw [hset.link, h1], fun u hu => ?_⟩
  · rw [hset.reg, satAdd_zero (s.reg_lt p _)]
  · rw [hset.reg, satAdd_zero (s.reg_lt p _)]
  · rw [hset.link]
    unfold Link.Marked Link.sentIn at hu ⊢
    rw [h1, h2, h3]
    exact hu

theorem State.wordsTaken_placeIn {s : State} {p : Part} {port : Nat} (g : RxGroup) (c : Nat) (hl : ∀ lane < 8, s.laneWl p port lane < 10) :
    State.WordsTaken p port ((List.range 8).map fun lane => badAt g lane c).sum
        (fun w => ((List.range 8).map fun lane => s.wordCorr p port g c lane w).sum) s (s.placeIn p port g c)
      ∧ ∀ lane < 8, groupWord g lane c = some none → ∀ u ∈ wordSlots g c, ((s.placeIn p port g c).link p port).Marked u := by
  obtain ⟨hlanes, hmarks⟩ := State.wordsTaken_lanesIn (c := c) (g := g) (List.range 8) s fun lane hm => hl lane (List.mem_range.1 hm)
  have hdone := (s.lanesIn p port g c (List.range 8)).wordsTaken_modLink p port (f := (·.placeDone (placeMask g c))) rfl rfl rfl
  rw [State.placeIn_eq]
  refine ⟨?_, fun lane hlane hbad u hu => hdone.marks u (hmarks lane (List.mem_range.2 hlane) hbad u hu)⟩
  have := hlanes.trans hdone
  simpa using this

/-- The words of some places. -/
def State.placesIn (s : State) (p : Part) (port : Nat) (g : RxGroup) (cs : List Nat) : State := cs.foldl (fun t c => t.placeIn p port g c) s

theorem State.wordsTaken_placesIn {p : Part} {port : Nat} (g : RxGroup) (cs : List Nat) (s : State) (hl : ∀ lane < 8, s.laneWl p port lane < 10) :
    State.WordsTaken p port (cs.map fun c => ((List.range 8).map fun lane => badAt g lane c).sum).sum
        (fun w => (cs.map fun c => ((List.range 8).map fun lane => s.wordCorr p port g c lane w).sum).sum) s (s.placesIn p port g cs)
      ∧ ∀ c ∈ cs, ∀ lane < 8, groupWord g lane c = some none → ∀ u ∈ wordSlots g c, ((s.placesIn p port g cs).link p port).Marked u := by
  induction cs generalizing s with
  | nil => exact ⟨State.WordsTaken.refl p port s, fun c hm => absurd hm (by simp)⟩
  | cons c cs ih =>
    obtain ⟨hplace, hmarks⟩ := State.wordsTaken_placeIn (s := s) (p := p) (port := port) g c hl
    obtain ⟨hrest, hothers⟩ := ih (s.placeIn p port g c) fun k hk => by
      rw [hplace.laneWl]
      exact hl k hk
    have hcorr (d k w : Nat) : (s.placeIn p port g c).wordCorr p port g d k w = s.wordCorr p port g d k w := by
      unfold State.wordCorr
      rw [hplace.laneWl]
    simp only [hcorr] at hrest
    refine ⟨?_, fun d hd lane hlane hbad u hu => ?_⟩
    · simp only [List.map_cons, List.sum_cons]
      exact hplace.trans hrest
    · obtain rfl | hd := List.mem_cons.1 hd
      · exact hrest.marks u (hmarks lane hlane hbad u hu)
      · exact hothers d hd lane hlane hbad u hu

/-! ### Sums over places and lanes -/

theorem sum_map_comm (xs ys : List Nat) (f : Nat → Nat → Nat) :
    (xs.map fun x => (ys.map fun y => f x y).sum).sum = (ys.map fun y => (xs.map fun x => f x y).sum).sum := by
  induction xs with
  | nil => simp
  | cons x xs ih => simp only [List.map_cons, List.sum_cons, ih, List.sum_map_add]

theorem sum_map_ite_eq_filter (xs : List Nat) (q : Nat → Bool) (f : Nat → Nat) :
    (xs.map fun x => if q x then f x else 0).sum = ((xs.filter q).map f).sum := by
  induction xs with
  | nil => rfl
  | cons x xs ih =>
    by_cases h : q x
    · simp [h, ih]
    · simp [h, ih]

theorem wordAt_eq (g : RxGroup) (lane c : Nat) : wordAt g lane c = groupWord g lane c := rfl

theorem uncorrected_eq (g : RxGroup) (lane : Nat) : uncorrected g lane = ((List.range 5).map fun c => badAt g lane c).sum := by
  have hlen (cs : List Nat) : (cs.filter fun c => wordAt g lane c == some none).length = (cs.map fun c => badAt g lane c).sum := by
    induction cs with
    | nil => rfl
    | cons c cs ih =>
      rw [List.map_cons, List.sum_cons, ← ih]
      unfold badAt
      by_cases h : groupWord g lane c = some none
      · rw [List.filter_cons_of_pos (by rw [wordAt_eq, h]; decide), if_pos h, List.length_cons, Nat.add_comm]
      · rw [List.filter_cons_of_neg (by simpa [wordAt_eq] using h), if_neg h, Nat.zero_add]
  exact hlen (List.range 5)

theorem corrected_eq (g : RxGroup) (lane : Nat) : Claims.corrected g lane = ((List.range 5).map fun c => corrAt g lane c).sum := rfl

/-- The words of a group, counted by lane. -/
theorem sum_badAt (g : RxGroup) : ((List.range 5).map fun c => ((List.range 8).map fun lane => badAt g lane c).sum).sum
    = ((List.range 8).map (uncorrected g)).sum := by
  rw [sum_map_comm]
  exact congrArg List.sum (List.map_congr_left fun lane _ => (uncorrected_eq g lane).symm)

/-- The corrected symbols of a wavelength, counted by lane. -/
theorem State.sum_wordCorr (s : State) (p : Part) (port : Nat) (g : RxGroup) (w : Nat) :
    ((List.range 5).map fun c => ((List.range 8).map fun lane => s.wordCorr p port g c lane w).sum).sum
      = (((List.range 8).filter fun lane => s.laneWl p port lane == w).map (Claims.corrected g)).sum := by
  rw [sum_map_comm, ← sum_map_ite_eq_filter]
  refine congrArg List.sum (List.map_congr_left fun lane _ => ?_)
  by_cases h : s.laneWl p port lane = w
  · simp [State.wordCorr, h, corrected_eq]
  · simp [State.wordCorr, h]

end Sys2Proof.Machine
end

section
/-! Faults of a link (R266, R273, R278, R282, R287). -/

namespace Sys2Proof.Machine

open Sys2Proof Sys2Proof.Claims

/-! ### What a change of the port's own registers leaves -/

/-- A register of a port's set, or the generation of its keys. -/
def portOwnReg (p : Part) (port a : Nat) : Prop := (∃ k < 0x100, k ≠ 0x7C ∧ a = psBase p port + k) ∨ a = keygenReg p port

theorem portOwnReg_psBase (p : Part) (port : Nat) {k : Nat} (hk : k < 0x100) (hne : k ≠ 0x7C) : portOwnReg p port (psBase p port + k) :=
  .inl ⟨k, hk, hne, rfl⟩

theorem keygen_ne_psBase (p : Part) {port q k : Nat} (hp : port < 192) (hq : q < 192) (hk : k < 0x100) :
    psBase p q + k ≠ keygenReg p port := by
  cases p
  · simp only [psBase, portSetBase, engineBase, keygenReg, Reg.secPKeygen]
    omega
  · simp only [psBase, epPortSetBase, keygenReg, Reg.epSecPKeygen]
    omega

theorem notMem_of_portOwnReg {p : Part} {port b : Nat} {L : List Nat} (hL : ∀ a ∈ L, portOwnReg p port a) (h1 : ∀ k < 0x100, k ≠ 0x7C → b ≠ psBase p port + k)
    (h2 : b ≠ keygenReg p port) : b ∉ L := by
  intro hm
  obtain ⟨k, hk, hne, he⟩ | he := hL b hm
  · exact h1 k hk hne he
  · exact h2 he

theorem State.LinkSet.nearOwn {p : Part} {port : Nat} (hp : port < 192) {L : List Nat} {l : Link} {s t : State} (h : State.LinkSet p port L l s t)
    (hL : ∀ a ∈ L, portOwnReg p port a) : State.PortNear p port s t where
  count := State.fld_congr (h.regs _ (notMem_of_portOwnReg hL (fun k _ hne => by omega) (keygen_ne_psBase p hp hp (by omega)))) 16 16
  unit hr := by
    subst hr
    have hlt := portBase_lt hp 0 (by omega)
    have hle := le_portBase port
    have hps : 0x5000000 ≤ psBase .ronpex port + 0 := linkReg_psBase .ronpex hp (by omega)
    refine State.fld_congr (h.regs _ (notMem_of_portOwnReg hL (fun k _ _ => by omega) ?_)) 0 2
    simp only [keygenReg, Reg.secPKeygen]
    omega
  others := h.otherPorts fun q hq hne => by
    have := partPorts_le p
    exact notMem_of_portOwnReg hL (fun k hk _ => psBase_ne p hne (by omega) hk) (keygen_ne_psBase p hp (by omega) (by omega))
  only := onlyPart_of_onlyLink h.only

theorem warp_of_onlyLink {p : Part} {port : Nat} {s t : State} (h : onlyLink p port s t) : t.rp.warp = s.rp.warp := by
  obtain ⟨_, h2⟩ := h
  cases p
  · dsimp only at h2
    rw [h2]
  · dsimp only at h2
    rw [h2]

theorem State.LinkSet.skyNow {p : Part} {port : Nat} (hp : port < 192) {L : List Nat} {l : Link} {s t : State} (h : State.LinkSet p port L l s t)
    (hL : ∀ a ∈ L, portOwnReg p port a) : t.skyNow p port = s.skyNow p port := by
  unfold State.skyNow
  rw [now_of_onlyPart (onlyPart_of_onlyLink h.only)]
  refine State.inSky_congr p (warp_of_onlyLink h.only) (fun hr a ha => ?_) (fun hr a ha => ?_) hp _
  · subst hr
    have hps : 0x5000000 ≤ psBase .ronpex port + 0 := linkReg_psBase .ronpex hp (by omega)
    have hd : Reg.drfStat = 0x300008 := rfl
    refine h.regs a (notMem_of_portOwnReg hL (fun k _ _ => by omega) ?_)
    simp only [keygenReg, Reg.secPKeygen]
    omega
  · subst hr
    have hps : 0x61000 ≤ psBase .plocen port + 0 ∧ psBase .plocen port + 0 < 0x6D000 := linkReg_psBase .plocen hp (by omega)
    have hw : Reg.epSeqWstat = 0x50008 := rfl
    have hrange : a < 0x61000 ∨ 0x200000 ≤ a := by
      obtain rfl | ⟨j, hj, rfl⟩ | ⟨ha, _⟩ := ha
      · omega
      · unfold Reg.epSeqWport
        omega
      · omega
    have hend : psBase .plocen port < 0x6D000 := by omega
    refine h.regs a (notMem_of_portOwnReg hL (fun k hk _ => by omega) ?_)
    simp only [keygenReg, Reg.epSecPKeygen]
    omega

/-! ### A port goes DOWN after such a change -/

theorem State.reg_portDown_other {s : State} {p : Part} {port a cause : Nat} (hp : port < 192) (ha : linkReg p a) (h0 : s.portState p port ≠ 0)
    (h5 : s.portState p port ≠ 5) (h6 : s.portState p port ≠ 6) (h4 : a ≠ psBase p port + 4) (h7 : a ≠ psBase p port + 0x7C) :
    (s.portDown p port cause).reg p a = s.reg p a := by
  rw [State.portDown_eq h0 h5 h6]
  have hstop := ((s.downShown p port cause).linksQuiet_downTold p port cause).stops hp
    (((s.downShown p port cause).downTold p port cause).portStopped_portLeft p hp (s.portUp p port))
  rw [hstop.regs a ha, State.downShown, State.reg_modLinkOf, State.downRegs_other h4 h7]

theorem State.flag_portDown {s : State} {p : Part} {port cause : Nat} (hp : port < 192) (h0 : s.portState p port ≠ 0)
    (h5 : s.portState p port ≠ 5) (h6 : s.portState p port ≠ 6) :
    (s.portDown p port cause).flag p (psBase p port + 4) 3 = s.flag p (psBase p port + 4) 3 := by
  rw [State.portDown_eq h0 h5 h6]
  have hstop := ((s.downShown p port cause).linksQuiet_downTold p port cause).stops hp
    (((s.downShown p port cause).downTold p port cause).portStopped_portLeft p hp (s.portUp p port))
  have hne : psBase p port + 0x7C ≠ psBase p port + 4 := by omega
  rw [State.flag_congr (hstop.regs _ (linkReg_psBase p hp (by omega))), State.downShown, State.flag_congr (State.reg_modLinkOf _ _ _ _ _),
    State.downRegs, State.flag_setFlag_other _ _ _ (by omega) (by omega), State.satFld,
    State.flag_congr (State.reg_setFld_other _ _ _ _ _ _ _ _ (.inr hne)), State.flag_setFld_outside _ _ _ _ _ _ _ (by omega) (by omega),
    State.flag_setFld_outside _ _ _ _ _ _ _ (by omega) (by omega)]

/-- A port that a fault takes DOWN. -/
theorem wentDown_causeDown {s t : State} {p : Part} {port cause : Nat} (hp : port < 192) (hc : cause < 256) {L : List Nat} {l : Link}
    (h : State.LinkSet p port L l s t) (hL : ∀ a ∈ L, portOwnReg p port a) (hsky : s.skyNow p port = false)
    (hstate : t.portState p port ≠ 0 ∧ t.portState p port ≠ 5 ∧ t.portState p port ≠ 6) :
    t.causeDown p port cause = t.portDown p port cause ∧ wentDown p port cause s (t.portDown p port cause) :=
  ⟨if_neg (by rw [h.skyNow hp hL, hsky]; decide),
    wentDown_of_near (h.nearOwn hp hL) (wentDown_portDown hp hc hstate.1 hstate.2.1 hstate.2.2)⟩

/-! ### The clock -/

theorem State.portState_of_clockWatched {s : State} {p : Part} {port : Nat} (h : s.clockWatched p port = true) :
    (s.portState p port ≠ 0 ∧ s.portState p port ≠ 5 ∧ s.portState p port ≠ 6) ∧ s.skyNow p port = false := by
  simp only [State.clockWatched, State.portUp, Bool.and_eq_true, Bool.or_eq_true, beq_iff_eq, Bool.not_eq_true', decide_eq_true_eq] at h
  obtain ⟨hin, hsky⟩ := h
  exact ⟨by omega, hsky⟩

/-- Loss of clock is shown. -/
def State.clockLost (s : State) (p : Part) (port : Nat) : State := s.setFlag p (psBase p port + 4) 3 true

theorem State.lossOfClock_does {s : State} {p : Part} {port : Nat} (hp : port < 192) (h : s.clockWatched p port = true) :
    (s.lossOfClock p port).flag p (psBase p port + 4) 3 = true ∧ wentDown p port 0x10 s (s.lossOfClock p port) := by
  obtain ⟨hstate, hsky⟩ := State.portState_of_clockWatched h
  have hset := (State.LinkSet.refl p port [psBase p port + 4] s).setFlag (List.mem_singleton.2 rfl) 3 true
  have hown : ∀ a ∈ [psBase p port + 4], portOwnReg p port a := fun a ha => List.mem_singleton.1 ha ▸ portOwnReg_psBase p port (by omega) (by omega)
  have hkept : (s.clockLost p port).portState p port = s.portState p port := State.fld_setFlag_outside _ _ _ (by omega) (by omega)
  rw [← hkept] at hstate
  refine ⟨(State.flag_portDown hp hstate.1 hstate.2.1 hstate.2.2).trans (State.flag_setFlag_same _ _ _ (by omega)), ?_⟩
  exact (wentDown_causeDown hp (by omega) hset hown hsky hstate).2

theorem State.slotsWatched_all {s : State} {p : Part} {port : Nat}
    (h : ∀ d ≤ 500, d ≤ slotOf s.now → s.inSky p port (slotOf s.now - d) = false) : s.slotsWatched p port = 500 := by
  have hall : ∀ d ∈ List.range 501, (decide (slotOf s.now < d) || !s.inSky p port (slotOf s.now - d)) = true := by
    intro d hd
    have hle := List.mem_range.1 hd
    by_cases hs : d ≤ slotOf s.now
    · simp [h d (by omega) hs]
    · simp
      omega
  unfold State.slotsWatched
  rw [List.takeWhile_eq_self_iff.2 hall, List.length_range]

theorem State.holdOut_of_watched {s : State} {p : Part} {port t0 : Nat} (hsky : s.skyNow p port = false) (ht : t0 + 2000 ≤ s.now)
    (h : ∀ d ≤ 500, d ≤ slotOf s.now → s.inSky p port (slotOf s.now - d) = false) : s.holdOut p port t0 = true := by
  simp [State.holdOut, hsky, ht, State.slotsWatched_all h]

theorem State.holdOut_early {s : State} {t0 : Nat} (h : s.now < t0 + 2000) (p : Part) (port : Nat) : s.holdOut p port t0 = false := by
  unfold State.holdOut
  rw [decide_eq_false (by omega)]
  rfl

/-! ### A group of codewords -/

theorem Link.delayIn_rxTo (l : Link) (f : Nat) : (l.rxTo f).delayIn = l.delayIn := by
  unfold Link.rxTo
  dsimp only
  split <;> rfl

theorem Link.delayIn_rxCount (l : Link) (t : Nat) (b : Block) : (l.rxCount t b).delayIn = l.delayIn := by
  unfold Link.rxCount
  dsimp only
  split
  · exact l.delayIn_rxTo _
  · exact l.delayIn_rxTo _

theorem Link.delayIn_fillsTo (l : Link) (t : Nat) : (l.fillsTo t).delayIn = l.delayIn := by
  have hfold (ps : List (Nat × Bool)) (m : Link) : (ps.foldl (fun l x => l.rxCount x.1 .fill) m).delayIn = m.delayIn := by
    induction ps generalizing m with
    | nil => rfl
    | cons x ps ih => exact (ih _).trans (m.delayIn_rxCount x.1 .fill)
  exact hfold _ _

/-- The link of a port before the words of a group are looked at: the slots before its end are known. -/
def Link.groupLink (l : Link) (g : RxGroup) : Link :=
  { (if l.rxIdle then { l with pend := l.pend.filter fun x => decide (g.start ≤ x.1) } else l).fillsTo (g.start + 8 * slotNs) with
    rxIdle := false, align := l.align }

theorem Link.delayIn_groupLink (l : Link) (g : RxGroup) : (l.groupLink g).delayIn = l.delayIn := by
  refine (Link.delayIn_fillsTo _ _).trans ?_
  split <;> rfl

/-- A group of the alignment is looked at. -/
def State.groupBegun (s : State) (p : Part) (port : Nat) (g : RxGroup) : State := s.rxLink p port ((s.link p port).groupLink g)

/-- The run of bad groups, and the slots that are still to come in. -/
def Link.groupDone (l : Link) (now : Nat) (run : Option (Nat × Nat)) : Link :=
  { l with badRun := run, lost := l.lost.filter fun t => decide (now ≤ t + slotNs) }

/-- The words of a group have been taken. -/
def State.groupTaken (s : State) (p : Part) (port : Nat) (g : RxGroup) : State :=
  ((s.groupBegun p port g).placesIn p port g (List.range 5)).modLink p port (·.groupDone s.now (nextBadRun (s.link p port).badRun g))

theorem State.linkSet_rxLink (s : State) (p : Part) (port : Nat) (l : Link) : State.LinkSet p port [keygenReg p port] l s (s.rxLink p port l) := by
  have hset : State.LinkSet p port [keygenReg p port] l s (s.setLink p port l) := s.linkSet_modLink p port _ fun _ => l
  unfold State.rxLink
  dsimp only
  split
  · split
    · exact hset.setFld (List.mem_singleton.2 rfl) 0 16 _
    · exact hset
  · exact hset

theorem State.groupIn_lit {s : State} {p : Part} {port : Nat} {g : RxGroup} (hw : s.watched p port = true) (hlit : g.lit = true)
    (hb : g.burst = false) (ha : slotOf g.start % 8 = (s.link p port).align) : s.groupIn p port g
      = if (nextBadRun (s.link p port).badRun g).any (fun r => decide (16 ≤ r.2)) then (s.groupTaken p port g).causeDown p port 0x11
        else s.groupTaken p port g := by
  obtain ⟨hup, hsky⟩ := watched_iff.1 hw
  have halign : ((s.groupBegun p port g).link p port).align = (s.link p port).align := by
    have hlink : (s.groupBegun p port g).link p port = (s.link p port).groupLink g := (s.linkSet_rxLink p port _).link
    rw [hlink]
    rfl
  unfold State.groupIn
  rw [if_neg (by simp [hsky, hup]), if_neg (by simp [hlit])]
  dsimp only
  rw [hb]
  exact if_neg (fun hc => hc.elim (fun h => absurd h (by simp [hup])) fun h => h (ha.trans halign.symm))

/-- The registers that a group of codewords changes. -/
def groupAllRegs (p : Part) (port : Nat) : List Nat := keygenReg p port :: groupRegs p port

theorem portOwnReg_groupAllRegs (p : Part) (port : Nat) : ∀ a ∈ groupAllRegs p port, portOwnReg p port a := by
  intro a ha
  obtain rfl | ha := List.mem_cons.1 ha
  · exact .inr rfl
  · obtain rfl | ha := List.mem_cons.1 ha
    · exact portOwnReg_psBase p port (by omega) (by omega)
    · obtain ⟨w, hw, rfl⟩ := List.mem_map.1 ha
      have := List.mem_range.1 hw
      exact .inl ⟨0x50 + 4 * w, by omega, by omega, by unfold corrReg; omega⟩

/-- What the words of a group leave. -/
structure State.GroupTaken (p : Part) (port : Nat) (g : RxGroup) (s t : State) : Prop where
  set : State.LinkSet p port (groupAllRegs p port) (t.link p port) s t
  bad : t.reg p (psBase p port + 0x78) = satAdd 32 (s.reg p (psBase p port + 0x78)) ((List.range 8).map (uncorrected g)).sum
  corr : ∀ w < 10, t.reg p (corrReg p port w) = satAdd 32 (s.reg p (corrReg p port w))
    (((List.range 8).filter fun lane => s.laneWl p port lane == w).map (Claims.corrected g)).sum
  run : (t.link p port).badRun = nextBadRun (s.link p port).badRun g
  delay : (t.link p port).delayIn = (s.link p port).delayIn
  marks : ∀ lane < 8, ∀ c < 5, groupWord g lane c = some none → ∀ u ∈ wordSlots g c,
    (s.now ≤ u + slotNs → u ∈ (t.link p port).lost) ∧ (t.link p port).keys.Unchecked ((s.link p port).sentIn u)

theorem State.groupTaken_does {s : State} {p : Part} {port : Nat} (hp : port < 192) (g : RxGroup) (hl : ∀ lane < 8, s.laneWl p port lane < 10) :
    State.GroupTaken p port g s (s.groupTaken p port g) := by
  have hbegun := s.linkSet_rxLink p port ((s.link p port).groupLink g)
  have hreg {k : Nat} (hk : k < 0x100) : (s.groupBegun p port g).reg p (psBase p port + k) = s.reg p (psBase p port + k) :=
    hbegun.regs _ fun hm => keygen_ne_psBase p hp hp hk (List.mem_singleton.1 hm)
  have hlane (lane : Nat) : (s.groupBegun p port g).laneWl p port lane = s.laneWl p port lane := State.fld_congr (hreg (by omega)) _ _
  obtain ⟨hwords, hmarks⟩ := State.wordsTaken_placesIn g (List.range 5) (s.groupBegun p port g) fun lane hlt => by
    rw [hlane]
    exact hl lane hlt
  have hdone := ((s.groupBegun p port g).placesIn p port g (List.range 5)).linkSet_modLink p port []
    (·.groupDone s.now (nextBadRun (s.link p port).badRun g))
  have hdelay : (((s.groupBegun p port g).placesIn p port g (List.range 5)).link p port).delayIn = (s.link p port).delayIn := by
    rw [hwords.delay, State.groupBegun, hbegun.link, Link.delayIn_groupLink]
  refine ⟨⟨onlyLink_trans hbegun.only (onlyLink_trans hwords.only hdone.only), fun a ha => ?_, rfl⟩, ?_, fun w hw => ?_, ?_, ?_,
    fun lane hlane c hc hbad u hu => ?_⟩
  · refine (hdone.reg a).trans ((hwords.regs a fun hm => ha (List.mem_cons_of_mem _ hm)).trans (hbegun.regs a fun hm => ha ?_))
    rw [List.mem_singleton.1 hm]
    exact List.mem_cons_self
  · rw [← sum_badAt, ← hreg (k := 0x78) (by omega)]
    exact (hdone.reg _).trans hwords.bad
  · have hcorr : (s.groupBegun p port g).reg p (corrReg p port w) = s.reg p (corrReg p port w) := by
      unfold corrReg
      rw [Nat.add_assoc]
      exact hreg (by omega)
    have hsum := (s.groupBegun p port g).sum_wordCorr p port g w
    simp only [hlane] at hsum
    rw [← hsum, ← hcorr]
    exact (hdone.reg _).trans (hwords.corr w hw)
  · rw [State.groupTaken, hdone.link]
    rfl
  · rw [State.groupTaken, hdone.link]
    exact hdelay
  · obtain ⟨hlost, hunchecked⟩ := hmarks c (List.mem_range.2 hc) lane hlane hbad u hu
    rw [State.groupTaken, hdone.link]
    refine ⟨fun hnow => List.mem_filter.2 ⟨hlost, by simp [hnow]⟩, ?_⟩
    unfold Link.sentIn at hunchecked ⊢
    rw [hdelay] at hunchecked
    exact hunchecked

theorem State.portState_groupTaken {s t : State} {p : Part} {port : Nat} (hp : port < 192) {g : RxGroup} (h : State.GroupTaken p port g s t) :
    t.portState p port = s.portState p port :=
  State.portState_of_reg (h.set.regs _ fun hm => by
    obtain he | hm := List.mem_cons.1 hm
    · exact keygen_ne_psBase p hp hp (by omega) he
    · exact psBase_not_groupRegs p port (.inl (by omega)) hm)

theorem State.groupIn_none {s : State} {p : Part} {port : Nat} (h : s.skyNow p port = true ∨ (s.portUp p port = false ∧ s.portState p port ≠ 4))
    (g : RxGroup) : s.groupIn p port g = s := if_pos (by
  obtain h | ⟨hup, hstate⟩ := h
  · exact .inl h
  · exact .inr (by simp [hup, hstate]))

theorem State.groupsIn_none {s : State} {p : Part} {port : Nat} (h : s.skyNow p port = true ∨ (s.portUp p port = false ∧ s.portState p port ≠ 4))
    (gs : List RxGroup) (xs : List RxPattern) : s.groupsIn p port gs xs = s := by
  have hpat : s.patternsIn p port xs = s := if_pos (by
    obtain h | ⟨hup, hstate⟩ := h
    · exact .inl h
    · exact .inr (by simp [hup, hstate]))
  unfold State.groupsIn
  rw [hpat]
  induction gs with
  | nil => rfl
  | cons g gs ih => rw [List.foldl_cons, State.groupIn_none h, ih]

/-! ### A test pattern -/

theorem State.prbsIn_follows {s : State} {p : Part} {port w : Nat} {k : Prbs} (h : s.rxPattern p port w = some k) (x : RxPattern)
    (hw : x.wave = w) : s.prbsIn p port w x.bits
      = (s.modLink p port fun l => { l with checkers := SMap.set l.checkers x.wave (patternRun s p port k x).1 }).satFld p
        (psBase p port + 0x80 + 4 * x.wave) 0 32 (patternRun s p port k x).2 := by
  subst hw
  unfold State.prbsIn
  rw [h]
  rfl

theorem State.groupsIn_pattern {s : State} {p : Part} {port : Nat} {x : RxPattern} (hsky : s.skyNow p port = false)
    (hin : s.portUp p port = true ∨ s.portState p port = 4) : s.groupsIn p port [] [x] = s.prbsIn p port x.wave x.bits :=
  if_neg (by
    obtain h | h := hin
    · simp [hsky, h]
    · simp [hsky, h])

/-! ### Lanes without a spare -/

theorem State.laneFailed_last {s : State} {p : Part} {port lane : Nat} (hw : s.watched p port = true) (hs : (s.link p port).swap = none)
    (hgone : s.spareGone p port = true) (hdead : s.laneDead p port lane = true) : s.laneFailed p port lane = s.causeDown p port 0x12 := by
  unfold State.laneFailed
  rw [if_neg (by simp [hw, hs, hdead]), if_pos hgone]

theorem State.laneFailed_alive {s : State} {p : Part} {port lane : Nat} (hdead : s.laneDead p port lane = false) : s.laneFailed p port lane = s :=
  if_pos (.inr (.inl (by simp [hdead])))

theorem State.laneLow_last {s : State} {p : Part} {port : Nat} (hgone : s.spareGone p port = true) (lane : Nat) :
    State.LinksQuiet p s (s.laneLow p port lane) := by
  have hevent : State.LinksQuiet p s (s.swapEvent p port 2 (s.laneWl p port lane)) := by
    cases p
    · exact s.linksQuiet_portEvent port 3 2 _
    · exact State.LinksQuiet.refl .plocen s
  unfold State.laneLow
  dsimp only
  rw [if_pos hgone]
  split
  · exact State.LinksQuiet.refl p s
  · exact hevent

/-- Settles O30: each fault of a link that is not watched for changes nothing; one that is takes the port DOWN, or is counted. -/
theorem linkFaults : Obligations.LinkFaults := by
  unfold Obligations.LinkFaults
  rintro s p port _ rfl hpart
  have hnone : ∀ a ∈ ([] : List Nat), portOwnReg p port a := fun a ha => absurd ha List.not_mem_nil
  have hdown (hw : s.watched p port = true) {cause : Nat} (hc : cause < 256) :
      s.causeDown p port cause = s.portDown p port cause ∧ wentDown p port cause s (s.portDown p port cause) := by
    obtain ⟨hup, hsky⟩ := watched_iff.1 hw
    have := State.portState_of_up hup
    exact wentDown_causeDown port.2 hc (State.LinkSet.refl p port [] s) hnone hsky ⟨by omega, by omega, by omega⟩
  refine ⟨fun hc => ⟨?_, ?_⟩, fun hw => ?_, fun hc => ⟨fun hd => ⟨?_, ?_⟩, fun t0 hd => ⟨fun ht hall => ?_, fun ht => ?_, fun hback => ?_⟩⟩,
    fun gs xs hno => congrArg Host.Outcome.next (State.groupsIn_none hno gs xs),
    fun hw => ⟨fun g hlit hb ha hl => ?_, ?_, fun lane hdead => ?_, fun lane hs hgone => ⟨fun hdead => ?_, ?_⟩⟩, fun x k hsky hin hpat => ?_⟩
  · exact congrArg Host.Outcome.next (if_neg (by simp [hc]))
  · exact congrArg Host.Outcome.next (if_neg (by simp [hc]))
  · exact congrArg Host.Outcome.next (if_neg (by simp [hw]))
  · have hset := s.linkSet_modLink p port [] fun l => { l with darkAt := some s.now }
    exact ⟨_, congrArg Host.Outcome.next (if_pos ⟨hc, by simp [hd]⟩), hset.only, hset.regs, hset.link⟩
  · exact ⟨_, congrArg Host.Outcome.next (if_pos ⟨hc, by simp [hd]⟩), State.lossOfClock_does port.2 hc⟩
  · have hout := State.holdOut_of_watched (State.portState_of_clockWatched hc).2 ht hall
    refine ⟨_, congrArg Host.Outcome.next ?_, State.lossOfClock_does port.2 hc⟩
    unfold State.holdoverOut
    rw [hd]
    exact if_pos ⟨hc, hout⟩
  · refine congrArg Host.Outcome.next ?_
    unfold State.holdoverOut
    rw [hd]
    exact if_neg (by simp [State.holdOut_early ht])
  · have hset := s.linkSet_modLink p port [] fun l => { l with darkAt := none }
    refine ⟨_, congrArg Host.Outcome.next ?_, hset.only, hset.regs, hset.link⟩
    unfold State.lightBack
    rw [hd]
    exact if_pos (by
      obtain h | h := hback
      · simp [h]
      · simp [h])
  · have hgroup : s.groupsIn p port [g] [] = s.groupIn p port g := by
      unfold State.groupsIn State.patternsIn
      rw [List.foldl_nil, ite_self]
      rfl
    have htaken := State.groupTaken_does port.2 g hl
    have hstate := State.portState_groupTaken port.2 htaken
    obtain ⟨hup, hsky⟩ := watched_iff.1 hw
    have hin := State.portState_of_up hup
    have hne : (s.groupTaken p port g).portState p port ≠ 0 ∧ (s.groupTaken p port g).portState p port ≠ 5
        ∧ (s.groupTaken p port g).portState p port ≠ 6 := by omega
    obtain ⟨hcause, hwent⟩ := wentDown_causeDown (cause := 0x11) port.2 (by omega) htaken.set (portOwnReg_groupAllRegs p port) hsky hne
    refine ⟨_, congrArg Host.Outcome.next (hgroup.trans (State.groupIn_lit hw hlit hb ha)), ?_⟩
    by_cases hrun : (nextBadRun (s.link p port).badRun g).any (fun r => decide (16 ≤ r.2)) = true
    · rw [if_pos hrun, if_pos hrun, hcause]
      have hreg {k : Nat} (hk : k < 0x7C) (h4 : k ≠ 4) : ((s.groupTaken p port g).portDown p port 0x11).reg p (psBase p port + k)
          = (s.groupTaken p port g).reg p (psBase p port + k) :=
        State.reg_portDown_other port.2 (linkReg_psBase p port.2 (by omega)) hne.1 hne.2.1 hne.2.2 (by omega) (by omega)
      refine ⟨(hreg (by omega) (by omega)).trans htaken.bad, fun w hlt => ?_, hwent⟩
      rw [Nat.add_assoc, hreg (by omega) (by omega), ← Nat.add_assoc]
      exact htaken.corr w hlt
    · rw [if_neg hrun, if_neg hrun]
      refine ⟨htaken.bad, htaken.corr, htaken.run, fun lane hlane c hcc hbad i hi => ?_, htaken.set.only, htaken.set.regs⟩
      exact htaken.marks lane hlane c hcc hbad _ (List.mem_map.2 ⟨i, hi, rfl⟩)
  · obtain ⟨hcause, hwent⟩ := hdown hw (cause := 0x11) (by omega)
    exact ⟨_, congrArg Host.Outcome.next ((if_pos hw).trans hcause), hwent⟩
  · exact congrArg Host.Outcome.next (State.laneFailed_alive hdead)
  · obtain ⟨hcause, hwent⟩ := hdown hw (cause := 0x12) (by omega)
    exact ⟨_, congrArg Host.Outcome.next ((State.laneFailed_last hw hs hgone hdead).trans hcause), hwent⟩
  · have hquiet := State.laneLow_last hgone lane
    exact ⟨_, rfl, State.portState_of_reg (hquiet.regs _ (linkReg_psBase p port.2 (by omega))), hquiet.links port,
      (hquiet.near port.2).others, hquiet.only⟩
  · have hset := (s.linkSet_modLink p port [psBase p port + 0x80 + 4 * x.wave]
      fun l => { l with checkers := SMap.set l.checkers x.wave (patternRun s p port k x).1 }).satFld (List.mem_singleton.2 rfl) 0 32
        (patternRun s p port k x).2
    refine ⟨_, congrArg Host.Outcome.next ((State.groupsIn_pattern hsky hin).trans (State.prbsIn_follows hpat x rfl)), ?_, hset.link, hset.only,
      hset.regs⟩
    rw [State.reg_satFld_word, State.reg_modLinkOf]

end Sys2Proof.Machine
end

section
/-! Result cells at a member (R197, R200-R202, R226). -/

namespace Sys2Proof.Machine

open Sys2Proof Sys2Proof.Claims

/-! ### What a received block leaves of the Plocen -/

/-- A block has been received at a port of the Plocen: its link and the generation of its keys alone may differ. -/
structure State.RxTaken (p : Nat) (s t : State) : Prop where
  eq : t = { s with ep := { s.ep with links := t.ep.links, regs := t.ep.regs } }
  regs : regsBut s t .plocen [keygenReg .plocen p]

theorem State.rxTaken_rxBlock (s : State) (p : Nat) (b : Block) : State.RxTaken p s (s.rxBlock .plocen p b) :=
  have hset := s.linkSet_rxLink .plocen p ((s.link .plocen p).received s.now b)
  ⟨hset.only.2, hset.regs⟩

section
variable {p : Nat} {s t : State}

theorem State.RxTaken.warp (h : State.RxTaken p s t) : t.ep.warp = s.ep.warp := by
  rw [h.eq]

theorem State.RxTaken.now (h : State.RxTaken p s t) : t.now = s.now := by
  rw [h.eq]

theorem State.RxTaken.reg (h : State.RxTaken p s t) (hp : p < 8) {a : Nat} (ha : a < 0x70108 ∨ 0x70188 ≤ a) : t.reg .plocen a = s.reg .plocen a :=
  h.regs a fun hm => by
    have := List.mem_singleton.1 hm
    simp only [keygenReg, Reg.epSecPKeygen] at this
    omega

theorem State.RxTaken.ptRunning (h : State.RxTaken p s t) (hp : p < 8) : t.ptRunning = s.ptRunning :=
  State.flag_congr (h.reg hp (.inl (by decide))) 3

theorem State.RxTaken.ptSlot (h : State.RxTaken p s t) (hp : p < 8) {j : Nat} (hj : j < 8) : t.ptSlot j = s.ptSlot j :=
  State.fld_congr (h.reg hp (.inl (by
    unfold Reg.epSeqWport
    omega))) 0 3

theorem State.RxTaken.ptWord (h : State.RxTaken p s t) (hp : p < 8) (slot o : Nat) : t.ptWord slot o = s.ptWord slot o :=
  h.reg hp (.inr (by omega))

theorem State.RxTaken.ptPhase (h : State.RxTaken p s t) (hp : p < 8) (slot ph : Nat) : t.ptPhase slot ph = s.ptPhase slot ph := by
  unfold State.ptPhase
  exact congrArg phaseOfWords (funext fun i => h.ptWord hp _ _)

theorem State.RxTaken.ptNow (h : State.RxTaken p s t) (hp : p < 8) (u : Nat) {j : Nat} (hj : j < 8) : t.ptNow u j = s.ptNow u j := by
  have hentry (slot n : Nat) : t.ptEntry slot n j = s.ptEntry slot n j := by
    unfold State.ptEntry
    dsimp only
    rw [h.ptWord hp]
  unfold State.ptNow
  rw [h.ptRunning hp, h.ptSlot hp hj, hentry, h.warp]

theorem State.RxTaken.outPlace (h : State.RxTaken p s t) (hp : p < 8) (sl : Nat) (b : Binding) (ph round slice cell : Nat) :
    t.outPlace sl b ph round slice cell = s.outPlace sl b ph round slice cell := by
  have hbefore (size : PhaseRec → Nat) (q : Nat) : t.before sl size b q = s.before sl size b q := by
    unfold State.before
    simp only [h.ptPhase hp]
  unfold State.outPlace State.perRound
  simp only [h.ptPhase hp, hbefore]

theorem State.RxTaken.portUp (h : State.RxTaken p s t) (hp : p < 8) {q : Nat} (hq : q < 8) : t.portUp .plocen q = s.portUp .plocen q := by
  have hstate : t.portState .plocen q = s.portState .plocen q := State.portState_of_reg (h.reg hp (.inl (by
    show epPortSetBase q + 4 < 0x70108
    unfold epPortSetBase
    omega)))
  unfold State.portUp
  rw [hstate]

end

/-! ### Cells of running instances -/

/-- A cell that a port of the Plocen takes while instances run. -/
structure State.TakesCell (s : State) (p : Nat) (c : WarpCell) (x : PhaseRec) (r : Run) : Prop where
  up : s.portUp .plocen p = true
  running : s.ptRunning = true
  rx : entryRx (s.ptNow s.now p) = 1
  crc : c.crc = cellCrc c
  epoch : c.epoch = s.epoch .plocen % 256
  skein : c.skein = s.epSkein
  phase : x = s.ptPhase (s.ptSlot p) c.phase
  members : x.members ≠ 0
  kind : x.kind ≠ 1
  run : s.run? x.pattern = some r
  inst : r.inst = c.inst

theorem State.TakesCell.received {s t : State} {p : Nat} {c : WarpCell} {x : PhaseRec} {r : Run} (hp : p < 8) (h : State.RxTaken p s t)
    (k : s.TakesCell p c x r) : t.TakesCell p c x r where
  up := (h.portUp hp hp).trans k.up
  running := (h.ptRunning hp).trans k.running
  rx := by rw [h.now, h.ptNow hp _ hp, k.rx]
  crc := k.crc
  epoch := k.epoch.trans (congrArg (· % 256) (State.fld_congr (h.reg hp (.inl (by decide))) 0 16).symm)
  skein := k.skein.trans (State.fld_congr (h.reg hp (.inl (by decide))) 0 6).symm
  phase := by rw [h.ptPhase hp, h.ptSlot hp hp, k.phase]
  members := k.members
  kind := k.kind
  run := by
    unfold State.run?
    rw [h.warp]
    exact k.run
  inst := k.inst

theorem State.epWarpIn_takes {s : State} {p : Nat} {c : WarpCell} {x : PhaseRec} {r : Run} (h : s.TakesCell p c x r) :
    s.epWarpIn p c = s.resultIn p x r c := by
  obtain ⟨hup, hrun, hrx, hcrc, hepoch, hskein, rfl, hmembers, hkind, hr, hinst⟩ := h
  have huse : s.epSlotUse p 3 c.node c.skein = (false, s) := by
    unfold State.epSlotUse
    dsimp only
    rw [hrx, if_neg (by decide)]
    exact if_pos (by decide)
  unfold State.epWarpIn
  rw [if_neg (by simp [hup, hrun]), if_neg (by omega), huse]
  dsimp only
  rw [if_neg (by simp [← hcrc, ← hepoch, ← hskein]), if_neg hmembers, if_neg hkind, hr]
  exact if_pos hinst

theorem State.epCellIn_takes {s : State} {p : Nat} {c : WarpCell} {x : PhaseRec} {r : Run} (hp : p < 8) (h : s.TakesCell p c x r)
    (hl : s.slotLost .plocen p = false) : s.epCellIn p c = (s.rxBlock .plocen p (.warp c)).resultIn p x r c := by
  have hsky : (entryRx (s.ptNow s.now p) == 3) = false := by rw [h.rx]; rfl
  unfold State.epCellIn
  dsimp only
  rw [h.up, hl, hsky]
  exact State.epWarpIn_takes (h.received hp (s.rxTaken_rxBlock p _))

/-! ### A round that runs again -/

/-- A run in which a round of a plane runs again. -/
def Run.replayed (r : Run) (p round : Nat) : Run := { r with replay := r.replay ++ [(p, round)] }

theorem State.run?_modRun {s : State} {pat : Nat} {r : Run} (h : s.run? pat = some r) {f : Run → Run} (hf : ∀ q, (f q).pattern = q.pattern) :
    (s.modRun pat f).run? pat = some (f r) := by
  have hlist (l : List Run) (hr : l.find? (fun q => q.pattern == pat) = some r) :
      (l.map fun q : Run => if q.pattern = pat then f q else q).find? (fun q => q.pattern == pat) = some (f r) := by
    induction l with
    | nil => exact absurd hr (by simp)
    | cons q l ih =>
      by_cases hq : q.pattern = pat
      · rw [List.find?_cons_of_pos (by simp [hq])] at hr
        rw [List.map_cons, if_pos hq, List.find?_cons_of_pos (by simp [hf, hq]), Option.some.inj hr]
      · rw [List.find?_cons_of_neg (by simp [hq])] at hr
        rw [List.map_cons, if_neg hq, List.find?_cons_of_neg (by simp [hq]), ih hr]
  exact hlist _ h

/-! ### Instances that end -/

/-- Only bindings and their cells, rings and the attach link of the Plocen may differ. -/
def onlyBinds (s t : State) : Prop :=
  t = { s with out := t.out, ep := { s.ep with
    att := t.ep.att, rings := t.ep.rings, warp := { s.ep.warp with binds := t.ep.warp.binds, cells := t.ep.warp.cells } } }

theorem onlyBinds_trans {s t u : State} (h : onlyBinds s t) (k : onlyBinds t u) : onlyBinds s u := by
  unfold onlyBinds at *
  rw [k, h]

theorem onlyBinds_refl (s : State) : onlyBinds s s := rfl

theorem onlyBinds_of_onlyRing {n : Nat} {s t : State} (h : onlyRing n s t) : onlyBinds s t := by
  unfold onlyBinds
  rw [h.1]

/-- A binding is forgotten, and its cells. -/
def State.bindDropped (s : State) (id : Nat) : State :=
  s.modEw fun w => { w with binds := w.binds.filter fun x => x.id != id, cells := w.cells.filter fun x => x.bind != id }

theorem onlyBinds_bindDropped (s : State) (id : Nat) : onlyBinds s (s.bindDropped id) := rfl

theorem onlyBinds_modBind (s : State) (id : Nat) (f : Binding → Binding) : onlyBinds s (s.modBind id f) := rfl

theorem onlyBinds_settleBind (s : State) (id : Nat) : onlyBinds s (s.settleBind id) := by
  unfold State.settleBind
  split
  · rfl
  · split
    · rfl
    · split
      · rfl
      · exact onlyBinds_trans (onlyBinds_bindDropped s id) (onlyBinds_of_onlyRing (State.onlyRing_postCompletion _ _ _ _ _ _))

theorem onlyBinds_endBind (s : State) (id code info : Nat) : onlyBinds s (s.endBind id code info) :=
  onlyBinds_trans (onlyBinds_modBind s id _) (onlyBinds_settleBind _ id)

/-- Bindings end with their instances. -/
def State.bindsVoid (s : State) (bs : List Binding) (ph : Nat) : State :=
  bs.foldl (fun t b => if b.failed.isSome then t.endBind b.id 4 0 else t.endBind b.id 9 ph) s

theorem onlyBinds_bindsVoid (bs : List Binding) (ph : Nat) (s : State) : onlyBinds s (s.bindsVoid bs ph) := by
  induction bs generalizing s with
  | nil => rfl
  | cons b bs ih =>
    refine onlyBinds_trans ?_ (ih _)
    dsimp only
    split
    · exact onlyBinds_endBind s b.id 4 0
    · exact onlyBinds_endBind s b.id 9 ph

/-- The run of a pattern is over. -/
def State.runDropped (s : State) (pat : Nat) : State :=
  s.modEw fun w => { w with runs := w.runs.filter fun x => x.pattern != pat, late := w.late.filter fun x => x.1 != pat }

theorem State.endInstance_eq {s : State} {pat : Nat} {r : Run} (h : s.run? pat = some r) (ph : Nat) : s.endInstance pat ph
    = (s.runDropped pat).bindsVoid (s.ep.warp.binds.filter fun b : Binding => b.pattern == pat && b.inst == some r.inst) ph := by
  unfold State.endInstance
  rw [h]
  rfl

/-- What instances leave when they end. -/
structure State.InstanceEnded (pat : Nat) (s t : State) : Prop where
  run : t.run? pat = none
  regs : ∀ a, t.reg .plocen a = s.reg .plocen a
  hanks : t.ep.hanks = s.ep.hanks
  only : onlyPlocen s t

theorem State.instanceEnded_endInstance {s : State} {pat : Nat} {r : Run} (h : s.run? pat = some r) (ph : Nat) :
    State.InstanceEnded pat s (s.endInstance pat ph) := by
  rw [State.endInstance_eq h]
  have hvoid := onlyBinds_bindsVoid (s.ep.warp.binds.filter fun b : Binding => b.pattern == pat && b.inst == some r.inst) ph (s.runDropped pat)
  generalize ((s.runDropped pat).bindsVoid _ ph) = t at hvoid
  unfold onlyBinds at hvoid
  refine ⟨?_, fun a => by rw [hvoid]; rfl, by rw [hvoid]; rfl, by rw [hvoid]; exact ⟨rfl, rfl, rfl, rfl⟩⟩
  have hruns : t.ep.warp.runs = s.ep.warp.runs.filter fun x => x.pattern != pat := by
    rw [hvoid]
    rfl
  unfold State.run?
  rw [hruns, List.find?_eq_none]
  intro q hq
  simpa using (List.mem_filter.1 hq).2

/-! ### A cell that lands -/

/-- The landing of a result cell. -/
def landingOf (id bind ph slice round cell bytes left : Nat) : WarpLanding :=
  { id := id, bind := bind, phase := ph, slice := slice, round := round, cell := cell, bytes := bytes, left := left, failed := false }

/-- A landing is outstanding. -/
def State.landingBegun (s : State) (b : Binding) (l : WarpLanding) : State :=
  s.modEw fun w => { w with
    nextId := s.ep.warp.nextId + 1
    binds := w.binds.map fun x : Binding => if x.id = b.id then { x with landing := x.landing + 1 } else x
    landings := w.landings ++ [l] }

/-- Only the attach link and what waits for a line of the Plocen may differ. -/
theorem State.landWrites_only (s : State) (l : List AttReq) : s.landWrites l = { s with out := (s.landWrites l).out, ep := { s.ep with
    att := (s.landWrites l).ep.att, dest := { s.ep.dest with lineWait := (s.landWrites l).ep.dest.lineWait } } } := by
  unfold State.landWrites
  dsimp only
  have h := ((s.modDest fun d => { d with lineWait := d.lineWait ++ l.filter fun q => q.touches s.ep.dest.locked }).sent_request
    (l.filter fun q => !q.touches s.ep.dest.locked)).only
  unfold onlyAttach at h
  rw [h]
  rfl

theorem State.landCell_eq {s : State} {sl ph slice round cell o n : Nat} {b : Binding} (h : s.outPlace sl b ph round slice cell = (o, n)) (hn : n ≠ 0)
    (payload : List Byte) : s.landCell sl b ph slice round cell payload
      = (s.landingBegun b (landingOf s.ep.warp.nextId b.id ph slice round cell n (pieces ((descOf b.raw).opb + o) n).length)).landWrites
        ((pieces ((descOf b.raw).opb + o) n).map fun p => { kind := 2, use := some (.warpLand s.ep.warp.nextId), addr := p.1, len := p.2.2,
                                                            data := sliceBytes payload p.2.1 p.2.2, aux := 0 }) := by
  unfold State.landCell
  rw [h]
  exact if_neg hn

/-- What a cell that lands leaves. -/
theorem State.landCell_does {s : State} {sl ph slice round cell o n : Nat} {b : Binding} (h : s.outPlace sl b ph round slice cell = (o, n))
    (hn : n ≠ 0) (payload : List Byte) : (s.landCell sl b ph slice round cell payload).ep.warp.landings
        = s.ep.warp.landings ++ [landingOf s.ep.warp.nextId b.id ph slice round cell n (pieces ((descOf b.raw).opb + o) n).length]
      ∧ s.landCell sl b ph slice round cell payload = { s with out := (s.landCell sl b ph slice round cell payload).out, ep := { s.ep with
          att := (s.landCell sl b ph slice round cell payload).ep.att
          dest := { s.ep.dest with lineWait := (s.landCell sl b ph slice round cell payload).ep.dest.lineWait }
          warp := { s.ep.warp with
            nextId := s.ep.warp.nextId + 1, binds := (s.landCell sl b ph slice round cell payload).ep.warp.binds
            landings := (s.landCell sl b ph slice round cell payload).ep.warp.landings } } } := by
  rw [State.landCell_eq h hn]
  generalize (pieces ((descOf b.raw).opb + o) n).map _ = reqs
  have honly := (s.landingBegun b (landingOf s.ep.warp.nextId b.id ph slice round cell n (pieces ((descOf b.raw).opb + o) n).length)).landWrites_only reqs
  generalize (s.landingBegun b _).landWrites reqs = t at honly ⊢
  refine ⟨?_, ?_⟩
  · rw [honly]
    rfl
  · rw [honly]
    rfl

theorem State.resultIn_lands {s : State} {p : Nat} {x : PhaseRec} {r : Run} {c : WarpCell} {b : Binding} (hs : c.status = 0) (h5 : x.kind ≠ 5)
    (h9 : x.op ≠ 0x09) (hA : x.op ≠ 0x0A) (hB : x.op ≠ 0x0B) (hb : s.bindFor x.pattern r.inst c.phase = some b) :
    s.resultIn p x r c = s.landCell (s.ptSlot p) b c.phase c.slice (fullRound (r.roundOn p) c.round) c.cell c.payload := by
  unfold State.resultIn
  dsimp only
  rw [if_neg (by omega), if_neg (by omega), if_neg h5, if_neg (by omega), hb]

theorem State.resultIn_replay {s : State} {p : Nat} {x : PhaseRec} {r : Run} {c : WarpCell} (hs : c.status = 1) : s.resultIn p x r c
    = s.modRun x.pattern (·.replayed p (min (r.roundOn p) (fullRound (r.roundOn p) c.round))) := if_pos hs

theorem State.resultIn_void {s : State} {p : Nat} {x : PhaseRec} {r : Run} {c : WarpCell} (hs : c.status = 2) :
    s.resultIn p x r c = s.endInstance x.pattern c.phase := (if_neg (by omega)).trans (if_pos hs)

/-- Settles O27: a cell that a port takes while its binding runs lands, names a round that runs again, or ends the run. -/
theorem cellsLand : Obligations.CellsLand := by
  unfold Obligations.CellsLand
  intro s p c x r hup hrunning hlost hrx hcrc hepoch hskein hx hmembers hkind h5 h9 hA hB hr hinst
  have htakes : s.TakesCell p c x r := ⟨hup, hrunning, hrx, hcrc, hepoch, hskein, hx, hmembers, hkind, hr, hinst⟩
  have hcell := State.epCellIn_takes p.2 htakes hlost
  have hrxd := s.rxTaken_rxBlock p (.warp c)
  generalize s.rxBlock .plocen p (.warp c) = u at hcell hrxd
  refine ⟨fun b round o n hs hb hround hplace hn => ?_, fun hs => ?_, fun hs => ?_⟩
  · subst hround
    have hbind : u.bindFor x.pattern r.inst c.phase = some b := by
      unfold State.bindFor
      rw [hrxd.warp]
      exact hb
    have hout : u.outPlace (u.ptSlot p) b c.phase (fullRound (r.roundOn p) c.round) c.slice c.cell = (o, n) := by
      rw [hrxd.outPlace p.2, hrxd.ptSlot p.2 p.2, hplace]
    obtain ⟨hlands, honly⟩ := State.landCell_does hout hn c.payload
    have heq := hcell.trans (State.resultIn_lands hs h5 h9 hA hB hbind)
    generalize u.landCell (u.ptSlot p) b c.phase c.slice (fullRound (r.roundOn p) c.round) c.cell c.payload = t at hlands honly heq
    rw [hrxd.warp] at hlands
    refine ⟨_, _, congrArg Host.Outcome.next heq, hlands, rfl, rfl, rfl, rfl, rfl, rfl, rfl, rfl, rfl, ?_, fun a ha => ?_⟩
    · rw [honly, hrxd.eq]
    · refine Eq.trans ?_ (hrxd.regs a ha)
      rw [honly]
      rfl
  · have hrun : u.run? x.pattern = some r := by
      unfold State.run?
      rw [hrxd.warp]
      exact hr
    have hrun' := State.run?_modRun hrun (f := (·.replayed p (min (r.roundOn p) (fullRound (r.roundOn p) c.round)))) fun _ => rfl
    refine ⟨_, congrArg Host.Outcome.next (hcell.trans (State.resultIn_replay hs)), hrun', hrxd.regs, ?_⟩
    unfold State.modRun State.modEw
    rw [hrxd.eq]
  · have hrun : u.run? x.pattern = some r := by
      unfold State.run?
      rw [hrxd.warp]
      exact hr
    have hended := State.instanceEnded_endInstance hrun c.phase
    refine ⟨_, congrArg Host.Outcome.next (hcell.trans (State.resultIn_void hs)), hended.run, fun a ha => (hended.regs a).trans (hrxd.regs a ha), ?_, ?_⟩
    · rw [hended.hanks, hrxd.eq]
    · refine onlyPart_trans (p := .plocen) ?_ hended.only
      rw [hrxd.eq]
      exact ⟨rfl, rfl, rfl, rfl⟩

end Sys2Proof.Machine
end

section
/-! What a frame boundary sets once and leaves from then on -/

namespace Sys2Proof.Machine

open Sys2Proof Sys2Proof.Claims

/-- Fabric time, the budgets that a frame loaded, and what each port of the Plocen has been paced by in the frame. -/
def State.beat (s : State) : Nat × SMap Nat × SMap Nat := (s.now, s.rpSkeins.loaded, s.ep.paced)

@[simp] theorem State.beat_eq (s : State) : (s.now, s.rpSkeins.loaded, s.ep.paced) = s.beat := by rw [State.beat]

@[simp] theorem State.beat_mk (n f : Nat) (l : List Instr) (o : List Out) (m : SMap Byte) (r : Ronpex) (e : Plocen) :
    State.beat { now := n, free := f, pending := l, out := o, hbm := m, rp := r, ep := e } = (n, r.skeins.loaded, e.paced) := by rw [State.beat]; rfl

@[simp] theorem Plocen.setReg_paced (r : Plocen) (a v : Nat) : (r.setReg a v).paced = r.paced := by rw [Plocen.setReg]

@[simp] theorem State.beat_ite (c : Prop) [Decidable c] (a b : State) :
    (if c then a else b).beat = if c then a.beat else b.beat := by
  split <;> rfl

@[simp] theorem State.beat_foldl {α : Type} (g : State → α → State) (h : ∀ t x, (g t x).beat = t.beat) (l : List α) (s : State) :
    (l.foldl g s).beat = s.beat := by
  induction l generalizing s with
  | nil => rfl
  | cons x r ih => rw [List.foldl_cons, ih, h]

theorem State.beat_getD (o : Option State) (s : State) (h : ∀ t, o = some t → t.beat = s.beat) : (o.getD s).beat = s.beat := by
  cases o with
  | none => rfl
  | some t => exact h t rfl

/-! ### Machine/Ops -/

@[simp] theorem State.beat_setReg (s : State) (p : Part) (a v : Nat) :
    (s.setReg p a v).beat = s.beat := by
  unfold State.setReg
  split <;> simp

@[simp] theorem State.beat_setFld (s : State) (p : Part) (a lo len v : Nat) :
    (s.setFld p a lo len v).beat = s.beat := by
  unfold State.setFld
  simp

@[simp] theorem State.beat_satFld (s : State) (p : Part) (a lo len n : Nat) :
    (s.satFld p a lo len n).beat = s.beat := by
  unfold State.satFld
  simp

@[simp] theorem State.beat_setFlag (s : State) (p : Part) (a i : Nat) (b : Bool) :
    (s.setFlag p a i b).beat = s.beat := by
  unfold State.setFlag
  simp

@[simp] theorem State.beat_setLink (s : State) (p : Part) (port : Nat) (l : Link) :
    (s.setLink p port l).beat = s.beat := by
  unfold State.setLink
  split <;> simp

@[simp] theorem State.beat_modLink (s : State) (p : Part) (port : Nat) (f : Link → Link) :
    (s.modLink p port f).beat = s.beat := by
  unfold State.modLink
  simp

@[simp] theorem State.beat_setSec (s : State) (p : Part) (x : Security) :
    (s.setSec p x).beat = s.beat := by
  unfold State.setSec
  split <;> simp

@[simp] theorem State.beat_setTimeSt (s : State) (p : Part) (t : TimeSt) :
    (s.setTimeSt p t).beat = s.beat := by
  unfold State.setTimeSt
  split <;> simp

@[simp] theorem State.beat_setOrders (s : State) (p : Part) (o : Orders) :
    (s.setOrders p o).beat = s.beat := by
  unfold State.setOrders
  split <;> simp

@[simp] theorem State.beat_setSource (s : State) (p : Part) (x : Source) :
    (s.setSource p x).beat = s.beat := by
  unfold State.setSource
  split <;> simp

@[simp] theorem State.beat_hbmWrite (s : State) (a : Nat) (d : List Byte) :
    (s.hbmWrite a d).beat = s.beat := by
  unfold State.hbmWrite
  simp

@[simp] theorem State.beat_draw (s : State) :
    s.draw.2.beat = s.beat := by
  unfold State.draw
  simp

@[simp] theorem State.beat_emit (s : State) (o : Out) :
    (s.emit o).beat = s.beat := by
  unfold State.emit
  simp

@[simp] theorem State.beat_msix (s : State) (v : Nat) :
    (s.msix v).beat = s.beat := by
  unfold State.msix
  simp

@[simp] theorem State.beat_rpLog (s : State) (b : LogBody) :
    (s.rpLog b).beat = s.beat := by
  unfold State.rpLog
  simp

@[simp] theorem State.beat_rpCond (s : State) (code origin requester port skein addr old new : Nat) :
    (s.rpCond code origin requester port skein addr old new).beat = s.beat := by
  unfold State.rpCond
  simp

@[simp] theorem State.beat_evtWrite (s : State) (e : Event) :
    (s.evtWrite e).beat = s.beat := by
  unfold State.evtWrite
  simp

@[simp] theorem State.beat_evtOverflow (s : State) :
    s.evtOverflow.beat = s.beat := by
  unfold State.evtOverflow
  simp

@[simp] theorem State.beat_post (s : State) (e : Event) :
    (s.post e).beat = s.beat := by
  unfold State.post
  simp

@[simp] theorem State.beat_postFor (s : State) (e : Event) (scope : Nat) (skeins : List Nat) :
    (s.postFor e scope skeins).beat = s.beat := by
  unfold State.postFor
  dsimp only
  split
  · simp
  · exact Eq.trans (b := (s.post e).beat) rfl (s.beat_post e)

@[simp] theorem State.beat_pstCell (s : State) (a v : Nat) :
    (s.pstCell a v).beat = s.beat := by
  unfold State.pstCell
  simp

@[simp] theorem State.beat_modUnits (s : State) (f : Units → Units) :
    (s.modUnits f).beat = s.beat := by
  unfold State.modUnits
  simp

@[simp] theorem State.beat_setUnit (s : State) (i cause qstep : Nat) :
    (s.setUnit i cause qstep).beat = s.beat := by
  unfold State.setUnit
  simp

@[simp] theorem State.beat_modFm (s : State) (f : Fmem → Fmem) :
    (s.modFm f).beat = s.beat := by
  unfold State.modFm
  simp

@[simp] theorem State.beat_settleLine (s : State) (line : Nat) :
    (s.settleLine line).beat = s.beat := by
  unfold State.settleLine
  simp

@[simp] theorem State.beat_sealLines (s : State) (lines : List Nat) :
    (s.sealLines lines).beat = s.beat := by
  unfold State.sealLines
  simp

@[simp] theorem State.beat_memWrite (s : State) (a : Nat) (d : List Byte) :
    (s.memWrite a d).beat = s.beat := by
  unfold State.memWrite
  simp

/-! ### Machine/Route -/

@[simp] theorem State.beat_offer (s : State) (port : Nat) (x : EddyEnt) :
    (s.offer port x).beat = s.beat := by
  unfold State.offer
  simp

@[simp] theorem State.beat_modWarp (s : State) (f : Warp → Warp) :
    (s.modWarp f).beat = s.beat := by
  unfold State.modWarp
  simp

@[simp] theorem State.beat_logUnrouted (s : State) (p : Nat) (c : Container) :
    (s.logUnrouted p c).beat = s.beat := by
  unfold State.logUnrouted
  simp

@[simp] theorem State.beat_goHome (s : State) (c : Container) :
    (s.goHome c).beat = s.beat := by
  unfold State.goHome
  simp

@[simp] theorem State.beat_reflect (s : State) (x : EddyEnt) (noPath : Bool) :
    (s.reflect x noPath).beat = s.beat := by
  unfold State.reflect
  dsimp only
  repeat' split
  all_goals simp

@[simp] theorem State.beat_toOutput (s : State) (r : Route) (x : EddyEnt) :
    (s.toOutput r x).beat = s.beat := by
  unfold State.toOutput
  repeat' split
  all_goals simp

/-! ### Machine/Send -/

@[simp] theorem State.beat_hold (s : State) (p : Part) (dest skein plane planes : Nat) (loc : HeldAt) (m : Msg) (own : Owner) :
    (s.hold p dest skein plane planes loc m own).1.beat = s.beat := by
  unfold State.hold
  simp

@[simp] theorem State.beat_rpSend (s : State) (h : Held) :
    (s.rpSend h).beat = s.beat := by
  unfold State.rpSend
  simp

@[simp] theorem State.beat_rpPush (s : State) :
    s.rpPush.beat = s.beat := by
  unfold State.rpPush
  simp

@[simp] theorem State.beat_rpMgmtPort (s : State) (port dest : Nat) (m : Mgmt) (own : Owner) :
    (s.rpMgmtPort port dest m own).beat = s.beat := by
  unfold State.rpMgmtPort
  simp

@[simp] theorem State.beat_relaySend (s : State) (m node hank skein value : Nat) :
    (s.relaySend m node hank skein value).beat = s.beat := by
  unfold State.relaySend
  simp

@[simp] theorem State.beat_epMgmt (s : State) (plane : Nat) (m : Mgmt) :
    (s.epMgmt plane m).beat = s.beat := by
  unfold State.epMgmt
  simp

@[simp] theorem State.beat_epMgmtLowest (s : State) (m : Mgmt) :
    (s.epMgmtLowest m).beat = s.beat := by
  unfold State.epMgmtLowest
  split <;> simp

@[simp] theorem State.beat_epLog (s : State) (b : LogBody) :
    (s.epLog b).beat = s.beat := by
  unfold State.epLog
  simp

@[simp] theorem State.beat_epCond (s : State) (code origin requester port skein addr old new : Nat) :
    (s.epCond code origin requester port skein addr old new).beat = s.beat := by
  unfold State.epCond
  simp

@[simp] theorem State.beat_plog (s : State) (p : Part) (b : LogBody) :
    (s.plog p b).beat = s.beat := by
  unfold State.plog
  split <;> simp

@[simp] theorem State.beat_logWrite (s : State) (p : Part) (a v : Nat) (w : Writer) :
    (s.logWrite p a v w).beat = s.beat := by
  unfold State.logWrite
  simp

@[simp] theorem State.beat_wrote (s : State) (p : Part) (a v : Nat) (w : Writer) (f : State → State) (h : ∀ t, (f t).beat = t.beat) :
    (s.wrote p a v w f).beat = s.beat := by
  unfold State.wrote
  simp [h]

/-! ### Machine/Flags -/

@[simp] theorem State.beat_modAtt (s : State) (f : Attach → Attach) :
    (s.modAtt f).beat = s.beat := by
  unfold State.modAtt
  simp

@[simp] theorem State.beat_sendFlit (s : State) (kind seq : Nat) (body : List (BitVec 128)) :
    (s.sendFlit kind seq body).beat = s.beat := by
  unfold State.sendFlit
  simp

@[simp] theorem State.beat_sendChunks (n : Nat) (x : List (BitVec 128)) (s : State) :
    (s.sendChunks n x).beat = s.beat := by
  induction n generalizing x s with
  | zero => rfl
  | succ n ih =>
    unfold State.sendChunks
    repeat' (first | split | dsimp only)
    all_goals simp [ih]

@[simp] theorem State.beat_sendTxn (s : State) (t : Txn) :
    (s.sendTxn t).beat = s.beat := by
  unfold State.sendTxn
  simp

@[simp] theorem State.beat_pumpCpl (n : Nat) (s : State) :
    (s.pumpCpl n).beat = s.beat := by
  induction n generalizing s with
  | zero => rfl
  | succ n ih =>
    unfold State.pumpCpl
    repeat' (first | split | dsimp only)
    all_goals simp [ih]

@[simp] theorem State.beat_complete (s : State) (rid tag addr status len : Nat) (data : List Byte) :
    (s.complete rid tag addr status len data).beat = s.beat := by
  unfold State.complete
  simp

@[simp] theorem State.beat_pump (n : Nat) (s : State) :
    (s.pump n).beat = s.beat := by
  induction n generalizing s with
  | zero => rfl
  | succ n ih =>
    unfold State.pump
    repeat' (first | split | dsimp only)
    all_goals simp [ih]

@[simp] theorem State.beat_request (s : State) (l : List AttReq) :
    (s.request l).beat = s.beat := by
  unfold State.request
  simp

@[simp] theorem State.beat_errsumMsix (s before : State) :
    (s.errsumMsix before).beat = s.beat := by
  unfold State.errsumMsix
  simp

@[simp] theorem State.beat_fmhError (s : State) (b offset scope : Nat) (skeins : List Nat) :
    (s.fmhError b offset scope skeins).beat = s.beat := by
  unfold State.fmhError
  simp

/-! ### Machine/OrderOps -/

@[simp] theorem State.beat_modTray (s : State) (f : Tray → Tray) :
    (s.modTray f).beat = s.beat := by
  unfold State.modTray
  simp

@[simp] theorem State.beat_trayOut (s : State) (port : Nat) (f : TrayFrame) :
    (s.trayOut port f).beat = s.beat := by
  unfold State.trayOut
  simp

@[simp] theorem State.beat_trayMgmt (s : State) (m : Mgmt) :
    (s.trayMgmt m).beat = s.beat := by
  unfold State.trayMgmt
  simp

@[simp] theorem State.beat_toEndPoint (s : State) (p : Nat) (m : Mgmt) :
    (s.toEndPoint p m).beat = s.beat := by
  unfold State.toEndPoint
  simp

@[simp] theorem State.beat_toFarEnd (s : State) (p : Nat) (m : Mgmt) :
    (s.toFarEnd p m).beat = s.beat := by
  unfold State.toFarEnd
  repeat' split
  all_goals simp

@[simp] theorem State.beat_orderToMembers (s : State) (o : SwitchOrder) :
    (s.orderToMembers o).beat = s.beat := by
  unfold State.orderToMembers
  simp

@[simp] theorem State.beat_issueOrder (s : State) (o : SwitchOrder) :
    (s.issueOrder o).beat = s.beat := by
  unfold State.issueOrder
  simp

@[simp] theorem State.beat_unitEvent (s : State) (i : Nat) :
    (s.unitEvent i).beat = s.beat := by
  unfold State.unitEvent
  simp

@[simp] theorem State.beat_showUnits (s : State) (quiet : Bool) (l : List Nat) :
    (s.showUnits quiet l).beat = s.beat := by
  unfold State.showUnits
  split <;> simp

@[simp] theorem State.beat_spdError (s : State) (n b skein : Nat) :
    (s.spdError n b skein).beat = s.beat := by
  unfold State.spdError
  dsimp only
  split
  · simp
  · rw [State.beat_errsumMsix, State.beat_postFor]
    exact Eq.trans (b := (s.setFlag .ronpex (spindleBase n + 4) b true).beat) rfl (s.beat_setFlag _ _ _ _)

@[simp] theorem State.beat_setTally (s : State) (ph : Nat) (t : Tally) :
    (s.setTally ph t).beat = s.beat := by
  unfold State.setTally
  simp

@[simp] theorem State.beat_tallyPorts (s : State) (ph : Nat) (l : List Nat) (ok : Bool) :
    (s.tallyPorts ph l ok).beat = s.beat := by
  unfold State.tallyPorts
  simp

@[simp] theorem State.beat_tallyLost (s : State) (ph : Nat) (l : List Nat) :
    (s.tallyLost ph l).beat = s.beat := by
  unfold State.tallyLost
  simp

@[simp] theorem State.beat_loseContexts (s : State) (n : Nat) :
    (s.loseContexts n).beat = s.beat := by
  unfold State.loseContexts
  simp

@[simp] theorem State.beat_classOrder (s : State) (c unitType unit gen : Nat) :
    (s.classOrder c unitType unit gen).beat = s.beat := by
  unfold State.classOrder
  simp

@[simp] theorem State.beat_spindleOrder (s : State) (n : Nat) :
    (s.spindleOrder n).beat = s.beat := by
  unfold State.spindleOrder
  dsimp only
  repeat' split
  all_goals simp

@[simp] theorem State.beat_modSk (s : State) (f : Skeins → Skeins) (h : ∀ x, (f x).loaded = x.loaded) :
    (s.modSk f).beat = s.beat := by
  unfold State.modSk
  simp [h]

@[simp] theorem State.beat_sendAssign (s : State) (port : Nat) :
    (s.sendAssign port).beat = s.beat := by
  unfold State.sendAssign
  simp

@[simp] theorem State.beat_sendSlots (s : State) :
    s.sendSlots.beat = s.beat := by
  unfold State.sendSlots
  simp

/-! ### Machine/CmdOps -/

@[simp] theorem State.beat_modMgmt (s : State) (f : MgmtRings → MgmtRings) :
    (s.modMgmt f).beat = s.beat := by
  unfold State.modMgmt
  simp

@[simp] theorem State.beat_cmdEvent (s : State) (r : Running) (status detail : Nat) :
    (s.cmdEvent r status detail).beat = s.beat := by
  unfold State.cmdEvent
  simp

@[simp] theorem State.beat_cmdNext (s : State) :
    s.cmdNext.beat = s.beat := by
  unfold State.cmdNext
  simp

@[simp] theorem State.beat_cmdDone (s : State) (status detail : Nat) :
    (s.cmdDone status detail).beat = s.beat := by
  unfold State.cmdDone
  split <;> simp

@[simp] theorem State.beat_cmdWaited (s : State) (w : CmdWait) (status detail : Nat) :
    (s.cmdWaited w status detail).beat = s.beat := by
  unfold State.cmdWaited
  simp

@[simp] theorem State.beat_sendOver (s : State) (id : Nat) (lost : Bool) :
    (s.sendOver id lost).beat = s.beat := by
  unfold State.sendOver
  split <;> simp

@[simp] theorem State.beat_sendReport (s : State) (r : Report) :
    (s.sendReport r).beat = s.beat := by
  unfold State.sendReport
  simp

@[simp] theorem State.beat_report (s : State) (type target plane : Nat) :
    (s.report type target plane).beat = s.beat := by
  unfold State.report
  dsimp only
  split <;> simp

/-! ### Machine/RingOps -/

@[simp] theorem State.beat_modRing (s : State) (n : Nat) (f : Ring → Ring) :
    (s.modRing n f).beat = s.beat := by
  unfold State.modRing
  simp

@[simp] theorem State.beat_postCompletion (s : State) (n sub code info cookie : Nat) :
    (s.postCompletion n sub code info cookie).beat = s.beat := by
  unfold State.postCompletion
  simp

@[simp] theorem State.beat_modAct (s : State) (n sub : Nat) (f : Act → Act) :
    (s.modAct n sub f).beat = s.beat := by
  unfold State.modAct
  simp

@[simp] theorem State.beat_dropFront (s : State) (n : Nat) :
    (s.dropFront n).beat = s.beat := by
  unfold State.dropFront
  simp

@[simp] theorem State.beat_settleFront (n : Nat) (s : State) (x : Nat) :
    (s.settleFront n x).beat = s.beat := by
  induction n generalizing s x with
  | zero => rfl
  | succ n ih =>
    unfold State.settleFront
    repeat' (first | split | dsimp only)
    all_goals simp [ih]

@[simp] theorem State.beat_settleRing (s : State) (n : Nat) :
    (s.settleRing n).beat = s.beat := by
  unfold State.settleRing
  simp

@[simp] theorem State.beat_failAct (s : State) (n sub code info : Nat) :
    (s.failAct n sub code info).beat = s.beat := by
  unfold State.failAct
  split <;> simp

@[simp] theorem State.beat_settleAct (s : State) (n sub : Nat) :
    (s.settleAct n sub).beat = s.beat := by
  unfold State.settleAct
  split <;> simp

@[simp] theorem State.beat_partDone (s : State) (n sub : Nat) :
    (s.partDone n sub).beat = s.beat := by
  unfold State.partDone
  simp

@[simp] theorem State.beat_partFailed (s : State) (n sub code info : Nat) :
    (s.partFailed n sub code info).beat = s.beat := by
  unfold State.partFailed
  simp

@[simp] theorem State.beat_settleFences (s : State) :
    s.settleFences.beat = s.beat := by
  unfold State.settleFences
  simp

@[simp] theorem State.beat_storeDone (s : State) (id : Nat) (lost : Bool) :
    (s.storeDone id lost).beat = s.beat := by
  unfold State.storeDone
  simp

@[simp] theorem State.beat_loadDone (s : State) (id status : Nat) (data : List Byte) :
    (s.loadDone id status data).beat = s.beat := by
  unfold State.loadDone
  split <;> simp

/-! ### Machine/EpWarpOps -/

@[simp] theorem State.beat_modEw (s : State) (f : EpWarp → EpWarp) :
    (s.modEw f).beat = s.beat := by
  unfold State.modEw
  simp

@[simp] theorem State.beat_modBind (s : State) (id : Nat) (f : Binding → Binding) :
    (s.modBind id f).beat = s.beat := by
  unfold State.modBind
  simp

@[simp] theorem State.beat_settleBind (s : State) (id : Nat) :
    (s.settleBind id).beat = s.beat := by
  unfold State.settleBind
  repeat' split
  all_goals simp

@[simp] theorem State.beat_endBind (s : State) (id code info : Nat) :
    (s.endBind id code info).beat = s.beat := by
  unfold State.endBind
  simp

@[simp] theorem State.beat_modRun (s : State) (pat : Nat) (f : Run → Run) :
    (s.modRun pat f).beat = s.beat := by
  unfold State.modRun
  simp

@[simp] theorem State.beat_readCells (s : State) (b : Binding) (plane slice round : Nat) :
    (s.readCells b plane slice round).beat = s.beat := by
  unfold State.readCells
  simp

@[simp] theorem State.beat_readRun (s : State) (pat : Nat) :
    (s.readRun pat).beat = s.beat := by
  unfold State.readRun
  split <;> simp

@[simp] theorem State.beat_shadowRead (s : State) (plane addr n : Nat) (own : Owner) :
    (s.shadowRead plane addr n own).beat = s.beat := by
  unfold State.shadowRead
  dsimp only
  split <;> simp

@[simp] theorem State.beat_shadowFetch (s : State) (r : Run) (plane slice round : Nat) :
    (s.shadowFetch r plane slice round).beat = s.beat := by
  unfold State.shadowFetch
  refine State.beat_foldl _ (fun t q => ?_) _ _
  split
  · rfl
  · simp

@[simp] theorem State.beat_rerun (s : State) (pat plane slice round : Nat) :
    (s.rerun pat plane slice round).beat = s.beat := by
  unfold State.rerun
  split <;> simp

@[simp] theorem State.beat_closeRun (s : State) (f pat : Nat) :
    (s.closeRun f pat).beat = s.beat := by
  unfold State.closeRun
  split <;> simp

@[simp] theorem State.beat_openRun (s : State) (f pat : Nat) :
    (s.openRun f pat).beat = s.beat := by
  unfold State.openRun
  split <;> simp

@[simp] theorem State.beat_closeRuns (s : State) :
    s.closeRuns.beat = s.beat := by
  unfold State.closeRuns
  simp

@[simp] theorem State.beat_openRuns (s : State) :
    s.openRuns.beat = s.beat := by
  unfold State.openRuns
  simp

/-! ### Machine/WeftAnswer -/

@[simp] theorem State.beat_modSource (s : State) (p : Part) (f : Source → Source) :
    (s.modSource p f).beat = s.beat := by
  unfold State.modSource
  simp

@[simp] theorem State.beat_modHeld (s : State) (p : Part) (id : Nat) (f : Held → Held) :
    (s.modHeld p id f).beat = s.beat := by
  unfold State.modHeld
  simp

@[simp] theorem State.beat_unqueue (s : State) (plane id : Nat) :
    (s.unqueue plane id).beat = s.beat := by
  unfold State.unqueue
  simp

@[simp] theorem State.beat_dropHeld (s : State) (p : Part) (h : Held) :
    (s.dropHeld p h).beat = s.beat := by
  unfold State.dropHeld
  simp

@[simp] theorem State.beat_relayLost (s : State) (m : Nat) :
    (s.relayLost m).beat = s.beat := by
  unfold State.relayLost
  simp

@[simp] theorem State.beat_shadowLost (s : State) (bind plane slice round : Nat) :
    (s.shadowLost bind plane slice round).beat = s.beat := by
  unfold State.shadowLost
  split <;> simp

@[simp] theorem State.beat_messageLost (s : State) (p : Part) (h : Held) (x : SentMsg) (code info : Nat) :
    (s.messageLost p h x code info).beat = s.beat := by
  unfold State.messageLost
  split <;> simp

@[simp] theorem State.beat_endHeld (s : State) (p : Part) (id code : Nat) :
    (s.endHeld p id code).beat = s.beat := by
  unfold State.endHeld
  split <;> simp

@[simp] theorem State.beat_replane (s : State) (id : Nat) :
    (s.replane id).beat = s.beat := by
  unfold State.replane
  repeat' split
  all_goals simp

@[simp] theorem State.beat_resendPlane (s : State) (plane : Nat) :
    (s.resendPlane plane).beat = s.beat := by
  unfold State.resendPlane
  simp

/-! ### Machine/EpOrders -/

@[simp] theorem State.beat_epPlaneOut (s : State) (plane : Nat) :
    (s.epPlaneOut plane).beat = s.beat := by
  unfold State.epPlaneOut
  simp

@[simp] theorem State.beat_epOrderApply (s : State) (o : SwitchOrder) :
    (s.epOrderApply o).beat = s.beat := by
  unfold State.epOrderApply
  simp

@[simp] theorem State.beat_epOrdersDue (s : State) :
    s.epOrdersDue.beat = s.beat := by
  unfold State.epOrdersDue
  simp

@[simp] theorem State.beat_epDraftOn (s : State) (slot : Nat) :
    (s.epDraftOn slot).beat = s.beat := by
  unfold State.epDraftOn
  simp

@[simp] theorem State.beat_epDraftOff (s : State) :
    s.epDraftOff.beat = s.beat := by
  unfold State.epDraftOff
  simp

@[simp] theorem State.beat_epActivate (s : State) :
    s.epActivate.beat = s.beat := by
  unfold State.epActivate
  dsimp only
  repeat' split
  all_goals simp

@[simp] theorem State.beat_epEpochApply (s : State) (e : Nat) :
    (s.epEpochApply e).beat = s.beat := by
  unfold State.epEpochApply
  simp

@[simp] theorem State.beat_snapEvent (s : State) (p : Part) (number missed : Nat) :
    (s.snapEvent p number missed).beat = s.beat := by
  unfold State.snapEvent
  split <;> simp

@[simp] theorem State.beat_snapIn (s : State) (p : Part) (t number : Nat) (skeins : BitVec 64) :
    (s.snapIn p t number skeins).beat = s.beat := by
  unfold State.snapIn
  simp

@[simp] theorem State.beat_mgmtRefused (s : State) (p : Part) (port node mtype : Nat) :
    (s.mgmtRefused p port node mtype).beat = s.beat := by
  unfold State.mgmtRefused
  simp

/-! ### Machine/RpOrders -/

@[simp] theorem State.beat_rpOrderIn (s : State) (src : MgmtSource) (o : SwitchOrder) :
    (s.rpOrderIn src o).beat = s.beat := by
  unfold State.rpOrderIn
  split <;> simp

@[simp] theorem State.beat_applyPairs (s : State) (l : List (Nat × Nat × Nat)) :
    (s.applyPairs l).beat = s.beat := by
  unfold State.applyPairs
  simp

@[simp] theorem State.beat_loadMaps (s : State) :
    s.loadMaps.beat = s.beat := by
  unfold State.loadMaps
  simp

@[simp] theorem State.beat_powerEvent (s : State) :
    s.powerEvent.beat = s.beat := by
  unfold State.powerEvent
  simp

@[simp] theorem State.beat_powerAlt (s : State) (on : Bool) :
    (s.powerAlt on).beat = s.beat := by
  have h : (s.setFlag .ronpex Reg.timPwrStat 1 on).beat = s.beat := s.beat_setFlag _ _ _ _
  unfold State.powerAlt
  dsimp only
  rw [State.beat_powerEvent]
  split
  · exact h
  · rw [State.beat_setFlag]
    exact h

@[simp] theorem State.beat_rpOrderApply (s : State) (o : SwitchOrder) :
    (s.rpOrderApply o).beat = s.beat := by
  unfold State.rpOrderApply
  repeat' split
  all_goals simp

@[simp] theorem State.beat_rpOrdersDue (s : State) :
    s.rpOrdersDue.beat = s.beat := by
  unfold State.rpOrdersDue
  simp

@[simp] theorem State.beat_toAllPorts (s : State) (m : Mgmt) :
    (s.toAllPorts m).beat = s.beat := by
  unfold State.toAllPorts
  simp

@[simp] theorem State.beat_rpEpochIn (s : State) (e eff : Nat) :
    (s.rpEpochIn e eff).beat = s.beat := by
  unfold State.rpEpochIn
  simp

@[simp] theorem State.beat_clearFilter (s : State) :
    s.clearFilter.beat = s.beat := by
  unfold State.clearFilter
  simp

@[simp] theorem State.beat_rpEpochApply (s : State) (e : Nat) :
    (s.rpEpochApply e).beat = s.beat := by
  unfold State.rpEpochApply
  simp

@[simp] theorem State.beat_reportIn (s : State) (node : Nat) (r : Report) :
    (s.reportIn node r).beat = s.beat := by
  unfold State.reportIn
  dsimp only
  repeat' split
  all_goals simp

@[simp] theorem State.beat_rpSnapIn (s : State) (t number : Nat) (skeins : BitVec 64) :
    (s.rpSnapIn t number skeins).beat = s.beat := by
  unfold State.rpSnapIn
  simp

@[simp] theorem State.beat_rpPathLoss (s : State) (tL : Nat) :
    (s.rpPathLoss tL).beat = s.beat := by
  unfold State.rpPathLoss
  simp

@[simp] theorem State.beat_rpAssignAck (s : State) (port : Nat) (what : Nat × Bool × Nat × Nat) :
    (s.rpAssignAck port what).beat = s.beat := by
  unfold State.rpAssignAck
  simp

@[simp] theorem State.beat_rpLogCopy (s : State) (node : Nat) (b : LogBody) :
    (s.rpLogCopy node b).beat = s.beat := by
  unfold State.rpLogCopy
  simp

@[simp] theorem State.beat_rpMgmtIn (s : State) (src : MgmtSource) (m : Mgmt) :
    (s.rpMgmtIn src m).beat = s.beat := by
  unfold State.rpMgmtIn
  repeat' split
  all_goals simp

/-! ### Machine/Ready -/

@[simp] theorem State.beat_unready (s : State) :
    s.unready.beat = s.beat := by
  unfold State.unready
  simp

/-! ### Machine/FaultOps -/

@[simp] theorem State.beat_portOrder (s : State) (p : Nat) :
    (s.portOrder p).beat = s.beat := by
  unfold State.portOrder
  simp

@[simp] theorem State.beat_fenceLog (s : State) (i origin requester what : Nat) :
    (s.fenceLog i origin requester what).beat = s.beat := by
  unfold State.fenceLog
  simp

@[simp] theorem State.beat_hardFence (s : State) (i cause : Nat) :
    (s.hardFence i cause).beat = s.beat := by
  unfold State.hardFence
  simp

@[simp] theorem State.beat_stopClock (s : State) (p : Part) (port : Nat) :
    (s.stopClock p port).beat = s.beat := by
  unfold State.stopClock
  simp

@[simp] theorem State.beat_holdBack (s : State) (i : Nat) :
    (s.holdBack i).beat = s.beat := by
  unfold State.holdBack
  simp

@[simp] theorem State.beat_fencePort (s : State) (n cause : Nat) :
    (s.fencePort n cause).beat = s.beat := by
  unfold State.fencePort
  simp

@[simp] theorem State.beat_fenceSpindle (s : State) (n cause : Nat) :
    (s.fenceSpindle n cause).beat = s.beat := by
  unfold State.fenceSpindle
  simp

@[simp] theorem State.beat_fenceChannel (s : State) (c cause offset : Nat) :
    (s.fenceChannel c cause offset).beat = s.beat := by
  unfold State.fenceChannel
  simp

@[simp] theorem State.beat_portEvent (s : State) (port sub cause w : Nat) :
    (s.portEvent port sub cause w).beat = s.beat := by
  unfold State.portEvent
  simp

@[simp] theorem State.beat_lossNotice (s : State) (port : Nat) :
    (s.lossNotice port).beat = s.beat := by
  unfold State.lossNotice
  simp

@[simp] theorem State.beat_portGone (s : State) (p : Part) (port : Nat) :
    (s.portGone p port).beat = s.beat := by
  unfold State.portGone
  split <;> simp

@[simp] theorem State.beat_portDown (s : State) (p : Part) (port cause : Nat) :
    (s.portDown p port cause).beat = s.beat := by
  unfold State.portDown
  repeat' split
  all_goals simp

@[simp] theorem State.beat_startTraining (s : State) (p : Part) (port : Nat) :
    (s.startTraining p port).beat = s.beat := by
  unfold State.startTraining
  repeat' split
  all_goals simp

@[simp] theorem State.beat_quarantine (s : State) (i : Nat) :
    (s.quarantine i).beat = s.beat := by
  unfold State.quarantine
  simp

@[simp] theorem State.beat_freeUnit (s : State) (i : Nat) :
    (s.freeUnit i).beat = s.beat := by
  unfold State.freeUnit
  simp

@[simp] theorem State.beat_returnUnit (s : State) (i : Nat) :
    (s.returnUnit i).1.beat = s.beat := by
  unfold State.returnUnit
  dsimp only
  split <;> simp

@[simp] theorem State.beat_softFence (s : State) (i : Nat) (wr : Writer) :
    (s.softFence i wr).beat = s.beat := by
  unfold State.softFence
  simp

@[simp] theorem State.beat_softReturn (s : State) (i : Nat) (wr : Writer) :
    (s.softReturn i wr).beat = s.beat := by
  unfold State.softReturn
  simp

@[simp] theorem State.beat_unitCtl (s : State) (i v : Nat) (wr : Writer) :
    (s.unitCtl i v wr).beat = s.beat := by
  unfold State.unitCtl
  simp

@[simp] theorem State.beat_partEventFor (s : State) (type n state cause : Nat) (skeins : List Nat) :
    (s.partEventFor type n state cause skeins).beat = s.beat := by
  unfold State.partEventFor
  simp

@[simp] theorem State.beat_partEvent (s : State) (type n state cause : Nat) :
    (s.partEvent type n state cause).beat = s.beat := by
  unfold State.partEvent
  simp

@[simp] theorem State.beat_loseEddies (s : State) (l : List Nat) :
    (s.loseEddies l).beat = s.beat := by
  unfold State.loseEddies
  simp

@[simp] theorem State.beat_fenceGroup (s : State) (type k cause : Nat) (ports spindles : List Nat) :
    (s.fenceGroup type k cause ports spindles).beat = s.beat := by
  unfold State.fenceGroup
  simp

@[simp] theorem State.beat_resetRegion (s : State) (r : Nat) :
    (s.resetRegion r).beat = s.beat := by
  unfold State.resetRegion
  simp

@[simp] theorem State.beat_dieLost (s : State) (d : Nat) :
    (s.dieLost d).beat = s.beat := by
  rfl

/-! ### Machine/FmemOps -/

@[simp] theorem State.beat_modFmDest (s : State) (f : Dest → Dest) :
    (s.modFmDest f).beat = s.beat := by
  unfold State.modFmDest
  simp

@[simp] theorem State.beat_fmCharge (s : State) (a : Arrival) :
    (s.fmCharge a).beat = s.beat := by
  unfold State.fmCharge
  simp

@[simp] theorem State.beat_agentLeave (s : State) (entry : Option Nat) :
    (s.agentLeave entry).beat = s.beat := by
  unfold State.agentLeave
  simp

@[simp] theorem State.beat_agentOffer (s : State) (c : Container) (entry : Nat) :
    (s.agentOffer c entry).beat = s.beat := by
  unfold State.agentOffer
  repeat' split
  all_goals simp

@[simp] theorem State.beat_agentReply (s : State) (a : Arrival) (opc : Nat) (data : List Byte) :
    (s.agentReply a opc data).beat = s.beat := by
  unfold State.agentReply
  simp

@[simp] theorem State.beat_relayFire (s : State) (m : Nat) :
    (s.relayFire m).beat = s.beat := by
  unfold State.relayFire
  dsimp only
  repeat' split
  all_goals simp

@[simp] theorem State.beat_hcntSet (s : State) (n v : Nat) :
    (s.hcntSet n v).beat = s.beat := by
  unfold State.hcntSet
  simp

@[simp] theorem State.beat_uncorrectable (s : State) (offset : Nat) :
    (s.uncorrectable offset).beat = s.beat := by
  unfold State.uncorrectable
  simp

@[simp] theorem State.beat_agentLost (s : State) (a : Arrival) :
    (s.agentLost a).beat = s.beat := by
  unfold State.agentLost
  simp

@[simp] theorem State.beat_agentDone (s : State) (a : Arrival) (opc : Nat) (data : List Byte) :
    (s.agentDone a opc data).beat = s.beat := by
  unfold State.agentDone
  simp

@[simp] theorem State.beat_agentExec (s : State) (a : Arrival) :
    (s.agentExec a).beat = s.beat := by
  unfold State.agentExec
  simp

@[simp] theorem State.beat_agentRun (s : State) (a : Arrival) :
    (s.agentRun a).beat = s.beat := by
  unfold State.agentRun
  simp

@[simp] theorem State.beat_agentCtx (n : Nat) (s : State) :
    (s.agentCtx n).beat = s.beat := by
  induction n generalizing s with
  | zero => rfl
  | succ n ih =>
    unfold State.agentCtx
    repeat' (first | split | dsimp only)
    all_goals simp [ih]

@[simp] theorem State.beat_agentGo (s : State) :
    s.agentGo.beat = s.beat := by
  unfold State.agentGo
  simp

@[simp] theorem State.beat_zeroOn (s : State) :
    s.zeroOn.beat = s.beat := by
  unfold State.zeroOn
  simp

@[simp] theorem State.beat_relaysGo (s : State) :
    s.relaysGo.beat = s.beat := by
  unfold State.relaysGo
  simp

@[simp] theorem State.beat_agentFrame (s0 : State) :
    s0.agentFrame.beat = s0.beat := by
  unfold State.agentFrame
  simp

/-! ### Machine/Fmem -/

@[simp] theorem State.beat_regionCtl (s : State) (n v : Nat) :
    (s.regionCtl n v).beat = s.beat := by
  unfold State.regionCtl
  simp

@[simp] theorem State.beat_hgrantStore (s : State) (k v : Nat) :
    (s.hgrantStore k v).beat = s.beat := by
  unfold State.hgrantStore
  simp

@[simp] theorem State.beat_relayCtl (s : State) (m v : Nat) :
    (s.relayCtl m v).beat = s.beat := by
  unfold State.relayCtl
  simp

/-! ### Machine/RpWarpOps -/

@[simp] theorem State.beat_shadowOwed (s : State) (pat n : Nat) :
    (s.shadowOwed pat n).beat = s.beat := by
  unfold State.shadowOwed
  simp

@[simp] theorem State.beat_shadowTallies (s : State) :
    s.shadowTallies.beat = s.beat := by
  unfold State.shadowTallies
  dsimp only
  rw [State.beat_foldl _ fun t e => ?_]
  · simp
  · split
    · rfl
    · split <;> simp

/-! ### Machine/Draft -/

@[simp] theorem State.beat_committed (s : State) (slot code : Nat) :
    (s.committed slot code).beat = s.beat := by
  unfold State.committed
  simp

@[simp] theorem State.beat_commitSlot (s : State) (slot : Nat) :
    (s.commitSlot slot).beat = s.beat := by
  unfold State.commitSlot
  simp

@[simp] theorem State.beat_drfCtl (s : State) (v : Nat) :
    (s.drfCtl v).beat = s.beat := by
  unfold State.drfCtl
  simp

@[simp] theorem State.beat_rpDraftOn (s : State) (slot : Nat) :
    (s.rpDraftOn slot).beat = s.beat := by
  unfold State.rpDraftOn
  simp

@[simp] theorem State.beat_rpDraftOff (s : State) :
    s.rpDraftOff.beat = s.beat := by
  unfold State.rpDraftOff
  simp

@[simp] theorem State.beat_rpActivate (s : State) :
    s.rpActivate.beat = s.beat := by
  unfold State.rpActivate
  dsimp only
  repeat' split
  all_goals simp

/-! ### Machine/LinkOps -/

@[simp] theorem State.beat_lmcPush (s : State) (p : Part) (port : Nat) (l : List LmcMsg) :
    (s.lmcPush p port l).beat = s.beat := by
  unfold State.lmcPush
  simp

@[simp] theorem State.beat_tuneWls (s : State) (p : Part) (port : Nat) (ws : List Nat) :
    (s.tuneWls p port ws).beat = s.beat := by
  unfold State.tuneWls
  simp

@[simp] theorem State.beat_revalEnd (s : State) (p : Part) (port : Nat) :
    (s.revalEnd p port).beat = s.beat := by
  unfold State.revalEnd
  simp

@[simp] theorem State.beat_revalAbandon (s : State) (p : Part) (port : Nat) :
    (s.revalAbandon p port).beat = s.beat := by
  unfold State.revalAbandon
  split <;> simp

@[simp] theorem State.beat_askSwap (s : State) (p : Part) (port lane reason : Nat) :
    (s.askSwap p port lane reason).beat = s.beat := by
  unfold State.askSwap
  simp

@[simp] theorem State.beat_swapEvent (s : State) (p : Part) (port reason w : Nat) :
    (s.swapEvent p port reason w).beat = s.beat := by
  unfold State.swapEvent
  simp

@[simp] theorem State.beat_revalBegin (s : State) (p : Part) (port : Nat) (cls : Bool) (temp : Int) :
    (s.revalBegin p port cls temp).beat = s.beat := by
  unfold State.revalBegin
  simp

@[simp] theorem State.beat_revalResume (s : State) (p : Part) (port : Nat) :
    (s.revalResume p port).beat = s.beat := by
  unfold State.revalResume
  dsimp only
  split <;> simp

@[simp] theorem State.beat_swapNow (s : State) (p : Part) (port : Nat) (x : Swap) :
    (s.swapNow p port x).beat = s.beat := by
  unfold State.swapNow
  simp

@[simp] theorem State.beat_swapApply (s : State) (p : Part) (port : Nat) :
    (s.swapApply p port).beat = s.beat := by
  unfold State.swapApply
  dsimp only
  repeat' split
  all_goals simp

@[simp] theorem State.beat_timeEvent (s : State) (p : Part) (case : Nat) :
    (s.timeEvent p case).beat = s.beat := by
  unfold State.timeEvent
  simp

/-! ### Machine/KeyOps -/

@[simp] theorem State.beat_modKeys (s : State) (p : Part) (port : Nat) (f : LinkKeys → LinkKeys) :
    (s.modKeys p port f).beat = s.beat := by
  unfold State.modKeys
  simp

@[simp] theorem State.beat_keySwitch (s : State) (p : Part) (port : Nat) :
    (s.keySwitch p port).beat = s.beat := by
  unfold State.keySwitch
  dsimp only
  split <;> simp

@[simp] theorem State.beat_portOff (s : State) (p : Part) (port : Nat) :
    (s.portOff p port).beat = s.beat := by
  unfold State.portOff
  repeat' split
  all_goals simp

@[simp] theorem State.beat_clearCounters (s : State) (p : Part) (port : Nat) :
    (s.clearCounters p port).beat = s.beat := by
  unfold State.clearCounters
  simp

@[simp] theorem State.beat_portCtl (s : State) (p : Part) (port v : Nat) :
    (s.portCtl p port v).beat = s.beat := by
  unfold State.portCtl
  simp

/-! ### Machine/LaserOps -/

@[simp] theorem State.beat_modLas (s : State) (f : Lasers → Lasers) :
    (s.modLas f).beat = s.beat := by
  unfold State.modLas
  simp

@[simp] theorem State.beat_lasSend (s : State) (m : Nat) :
    (s.lasSend m).beat = s.beat := by
  unfold State.lasSend
  split <;> simp

@[simp] theorem State.beat_lasAsk (s : State) (m : Nat) (write : Bool) (addr data : Nat) (user : Bool) :
    (s.lasAsk m write addr data user).beat = s.beat := by
  unfold State.lasAsk
  simp

@[simp] theorem State.beat_lasAccess (s : State) (m v : Nat) :
    (s.lasAccess m v).beat = s.beat := by
  unfold State.lasAccess
  simp

@[simp] theorem State.beat_lasFollowed (s : State) :
    s.lasFollowed.beat = s.beat := by
  unfold State.lasFollowed
  simp

@[simp] theorem State.beat_feedEvent (s : State) (e mask : Nat) :
    (s.feedEvent e mask).beat = s.beat := by
  unfold State.feedEvent
  simp

@[simp] theorem State.beat_moveFeeds (s : State) (e mask : Nat) (standby : Bool) :
    (s.moveFeeds e mask standby).beat = s.beat := by
  unfold State.moveFeeds
  simp

@[simp] theorem State.beat_feedWrite (s : State) (e v : Nat) :
    (s.feedWrite e v).beat = s.beat := by
  unfold State.feedWrite
  simp

@[simp] theorem State.beat_feedsDue (s : State) :
    s.feedsDue.beat = s.beat := by
  unfold State.feedsDue
  simp

/-! ### Machine/Pins -/

@[simp] theorem State.beat_modTap (s : State) (p : Part) (f : Tap → Tap) :
    (s.modTap p f).beat = s.beat := by
  unfold State.modTap
  split <;> simp

/-! ### Machine/SkeinOps -/

@[simp] theorem State.beat_skeinWrite (s : State) (v : Nat) (template : Option Nat) :
    (s.skeinWrite v template).beat = s.beat := by
  unfold State.skeinWrite
  simp

@[simp] theorem State.beat_destroyFkey (s : State) (k : Nat) :
    (s.destroyFkey k).beat = s.beat := by
  unfold State.destroyFkey
  simp

@[simp] theorem State.beat_scrubStart (s : State) (k : Nat) :
    (s.scrubStart k).beat = s.beat := by
  unfold State.scrubStart
  simp

@[simp] theorem State.beat_sknCtl (s : State) (k v : Nat) :
    (s.sknCtl k v).beat = s.beat := by
  unfold State.sknCtl
  simp

@[simp] theorem State.beat_sknPort (s : State) (p v : Nat) :
    (s.sknPort p v).beat = s.beat := by
  unfold State.sknPort
  simp

@[simp] theorem State.beat_releaseRecords (s : State) :
    s.releaseRecords.beat = s.beat := by
  unfold State.releaseRecords
  simp

/-! ### Machine/SecOps -/

@[simp] theorem State.beat_modSec (s : State) (p : Part) (f : Security → Security) :
    (s.modSec p f).beat = s.beat := by
  unfold State.modSec
  simp

@[simp] theorem State.beat_restartLayer1 (s : State) (p : Part) (activating : Bool) :
    (s.restartLayer1 p activating).beat = s.beat := by
  unfold State.restartLayer1
  simp

/-! ### Machine/PowerOps -/

@[simp] theorem State.beat_modPower (s : State) (f : Power → Power) :
    (s.modPower f).beat = s.beat := by
  unfold State.modPower
  simp

@[simp] theorem State.beat_setScale (s : State) (v : Nat) :
    (s.setScale v).beat = s.beat := by
  unfold State.setScale
  simp

@[simp] theorem State.beat_powerRequest (s : State) :
    s.powerRequest.beat = s.beat := by
  unfold State.powerRequest
  simp

@[simp] theorem State.beat_powerReturn (s : State) :
    s.powerReturn.beat = s.beat := by
  unfold State.powerReturn
  simp

@[simp] theorem State.beat_powerFrame (s : State) (activity : List Nat) :
    (s.powerFrame activity).beat = s.beat := by
  unfold State.powerFrame
  simp

@[simp] theorem State.beat_sendToken (s : State) (tok : Nat) :
    (s.sendToken tok).beat = s.beat := by
  unfold State.sendToken
  simp

@[simp] theorem State.beat_returnToken (s : State) :
    s.returnToken.beat = s.beat := by
  unfold State.returnToken
  split <;> simp

@[simp] theorem State.beat_tokenDue (s : State) :
    s.tokenDue.beat = s.beat := by
  unfold State.tokenDue
  split <;> simp

@[simp] theorem State.beat_thermStep (s : State) (n : Nat) :
    (s.thermStep n).beat = s.beat := by
  unfold State.thermStep
  simp

@[simp] theorem State.beat_thermalFence (s : State) (d : Nat) :
    (s.thermalFence d).beat = s.beat := by
  unfold State.thermalFence
  split <;> simp

@[simp] theorem State.beat_thermalFrame (s : State) (sensors : List Int) :
    (s.thermalFrame sensors).beat = s.beat := by
  unfold State.thermalFrame
  simp

@[simp] theorem State.beat_modTime (s : State) (p : Part) (f : TimeSt → TimeSt) :
    (s.modTime p f).beat = s.beat := by
  unfold State.modTime
  simp

@[simp] theorem State.beat_holdOver (s : State) (p : Part) :
    (s.holdOver p).beat = s.beat := by
  unfold State.holdOver
  simp

@[simp] theorem State.beat_dieOff (s : State) (d : Nat) :
    (s.dieOff d).beat = s.beat := by
  unfold State.dieOff
  simp

@[simp] theorem State.beat_enablesOff (s : State) :
    s.enablesOff.beat = s.beat := by
  unfold State.enablesOff
  simp

@[simp] theorem State.beat_hubAsleep (s : State) :
    s.hubAsleep.beat = s.beat := by
  unfold State.hubAsleep
  dsimp only
  rw [State.beat_mk]
  change State.beat _ = _
  rw [State.beat_foldl _ fun t k => State.beat_setFlag _ _ _ _ _, State.beat_foldl _ fun t k => State.beat_setFlag _ _ _ _ _]

@[simp] theorem State.beat_timeAsleep (s : State) :
    s.timeAsleep.beat = s.beat := by
  unfold State.timeAsleep
  simp

@[simp] theorem State.beat_sleepCmd (s : State) :
    s.sleepCmd.beat = s.beat := by
  unfold State.sleepCmd
  simp

@[simp] theorem State.beat_wakeStores (s : State) :
    s.wakeStores.beat = s.beat := by
  unfold State.wakeStores
  simp

@[simp] theorem State.beat_wakeCmd (s : State) :
    s.wakeCmd.beat = s.beat := by
  unfold State.wakeCmd
  simp

@[simp] theorem State.beat_rampDue (s : State) :
    s.rampDue.beat = s.beat := by
  unfold State.rampDue
  split <;> simp

@[simp] theorem State.beat_tokenHere (s : State) (tok : Nat) :
    (s.tokenHere tok).beat = s.beat := by
  unfold State.tokenHere
  simp

@[simp] theorem State.beat_newToken (s : State) (tok : Nat) :
    (s.newToken tok).beat = s.beat := by
  unfold State.newToken
  simp

@[simp] theorem State.beat_wakeWrite (s : State) (v : Nat) :
    (s.wakeWrite v).beat = s.beat := by
  unfold State.wakeWrite
  simp

@[simp] theorem State.beat_hubRestart (s : State) :
    s.hubRestart.beat = s.beat := by
  unfold State.hubRestart
  simp

@[simp] theorem State.beat_hubCtlWrite (s : State) (v : Nat) :
    (s.hubCtlWrite v).beat = s.beat := by
  unfold State.hubCtlWrite
  simp

@[simp] theorem State.beat_timeSetWrite (s : State) (v : Nat) :
    (s.timeSetWrite v).beat = s.beat := by
  unfold State.timeSetWrite
  simp

@[simp] theorem State.beat_timCtlWrite (s : State) (v : Nat) :
    (s.timCtlWrite v).beat = s.beat := by
  unfold State.timCtlWrite
  simp

/-! ### Machine/Faults -/

@[simp] theorem State.beat_epochDue (s : State) (p : Part) :
    (s.epochDue p).beat = s.beat := by
  unfold State.epochDue
  repeat' split
  all_goals simp

/-! ### Machine/MgmtOps -/

@[simp] theorem State.beat_cmdWait (s : State) (w : CmdWait) :
    (s.cmdWait w).beat = s.beat := by
  unfold State.cmdWait
  simp

@[simp] theorem State.beat_slotWritten (s : State) (slot : Nat) :
    (s.slotWritten slot).beat = s.beat := by
  unfold State.slotWritten
  simp

@[simp] theorem State.beat_cmdDoorbell (s : State) (t : Nat) :
    (s.cmdDoorbell t).beat = s.beat := by
  unfold State.cmdDoorbell
  simp

@[simp] theorem State.beat_evtDoorbell (s : State) (h : Nat) :
    (s.evtDoorbell h).beat = s.beat := by
  unfold State.evtDoorbell
  simp

@[simp] theorem State.beat_logDoorbell (s : State) (h : Nat) :
    (s.logDoorbell h).beat = s.beat := by
  unfold State.logDoorbell
  simp

@[simp] theorem State.beat_mgtRingStart (s : State) (a : Nat) :
    (s.mgtRingStart a).beat = s.beat := by
  unfold State.mgtRingStart
  simp

@[simp] theorem State.beat_ringCfgWrite (s : State) (a v : Nat) :
    (s.ringCfgWrite a v).beat = s.beat := by
  unfold State.ringCfgWrite
  simp

@[simp] theorem State.beat_trayNeighbour (s : State) (port ftype : Nat) (body : List Byte) :
    (s.trayNeighbour port ftype body).beat = s.beat := by
  unfold State.trayNeighbour
  simp

@[simp] theorem State.beat_traySync (s : State) (port : Nat) :
    (s.traySync port).beat = s.beat := by
  unfold State.traySync
  simp

@[simp] theorem State.beat_pstPersist (s : State) :
    s.pstPersist.beat = s.beat := by
  unfold State.pstPersist
  split <;> simp

@[simp] theorem State.beat_pstWrite (s : State) (a v : Nat) (wr : Writer) :
    (s.pstWrite a v wr).beat = s.beat := by
  unfold State.pstWrite
  repeat' split
  all_goals simp

/-! ### Machine/RegWrite -/

@[simp] theorem State.beat_plainRp (s : State) (a v : Nat) :
    (s.plainRp a v).beat = s.beat := by
  unfold State.plainRp
  split <;> simp

@[simp] theorem State.beat_budWrite (s : State) (k a v : Nat) :
    (s.budWrite k a v).beat = s.beat := by
  unfold State.budWrite
  simp

@[simp] theorem State.beat_sealWrite (s : State) (a v : Nat) :
    (s.sealWrite a v).beat = s.beat := by
  unfold State.sealWrite
  simp

@[simp] theorem State.beat_msixWrite (s : State) (a v : Nat) :
    (s.msixWrite a v).beat = s.beat := by
  unfold State.msixWrite
  simp

@[simp] theorem State.beat_winWrite (s : State) (i v : Nat) :
    (s.winWrite i v).beat = s.beat := by
  unfold State.winWrite
  simp

@[simp] theorem State.beat_hubArray (s : State) (a v : Nat) (wr : Writer) :
    (s.hubArray a v wr).beat = s.beat := by
  unfold State.hubArray
  repeat' split
  all_goals simp

@[simp] theorem State.beat_hubWrite (s : State) (a v : Nat) (wr : Writer) :
    (s.hubWrite a v wr).beat = s.beat := by
  unfold State.hubWrite
  simp
  intros
  split
  · rfl
  · split <;> simp

@[simp] theorem State.beat_rpEffect (s : State) (a v : Nat) (wr : Writer) :
    (s.rpEffect a v wr).beat = s.beat := by
  unfold State.rpEffect
  split <;> simp

@[simp] theorem State.beat_rpWord (s : State) (a v : Nat) (wr : Writer) :
    (s.rpWord a v wr).beat = s.beat := by
  unfold State.rpWord
  simp

@[simp] theorem State.beat_rpStore (s : State) (a n v : Nat) (wr : Writer) :
    (s.rpStore a n v wr).beat = s.beat := by
  unfold State.rpStore
  simp

/-! ### Machine/Mgmt -/

@[simp] theorem State.beat_tenantWord (s : State) (k a : Nat) (write : Bool) (v : Nat) :
    (s.tenantWord k a write v).1.beat = s.beat := by
  unfold State.tenantWord
  repeat' split
  all_goals simp

@[simp] theorem State.beat_tenantWords (n : Nat) (s : State) (x y : Nat) (z : Bool) (w : List Byte) :
    (s.tenantWords n x y z w).1.beat = s.beat := by
  induction n generalizing s x y z w with
  | zero => rfl
  | succ n ih =>
    unfold State.tenantWords
    split
    · rfl
    · simp [ih]

@[simp] theorem State.beat_tenantRun (s : State) (c : Command) :
    (s.tenantRun c).beat = s.beat := by
  unfold State.tenantRun
  simp

@[simp] theorem State.beat_tenantAgain (s : State) :
    s.tenantAgain.beat = s.beat := by
  unfold State.tenantAgain
  split <;> simp

/-! ### Machine/SwitchOps -/

@[simp] theorem State.beat_portFrame (s : State) (p : Part) (port : Nat) :
    (s.portFrame p port).beat = s.beat := by
  unfold State.portFrame
  simp

@[simp] theorem State.beat_powerKeep (s : State) :
    s.powerKeep.beat = s.beat := by
  unfold State.powerKeep
  simp

end Sys2Proof.Machine
end

section
/-! The functions of a frame that leave the fabric time of the Ronpex -/

namespace Sys2Proof.Machine

open Sys2Proof Sys2Proof.Claims

/-- The fabric time that the Ronpex keeps. -/
def State.rpTime (s : State) : TimeSt := s.rp.time

@[simp] theorem State.rpTime_eq (s : State) : s.rp.time = s.rpTime := by rw [State.rpTime]

@[simp] theorem State.rpTime_mk (n f : Nat) (l : List Instr) (o : List Out) (m : SMap Byte) (r : Ronpex) (e : Plocen) :
    State.rpTime { now := n, free := f, pending := l, out := o, hbm := m, rp := r, ep := e } = r.time := by rw [State.rpTime]

@[simp] theorem State.rpTime_ite (c : Prop) [Decidable c] (a b : State) :
    (if c then a else b).rpTime = if c then a.rpTime else b.rpTime := by
  split <;> rfl

@[simp] theorem State.rpTime_foldl {α : Type} (g : State → α → State) (h : ∀ t x, (g t x).rpTime = t.rpTime) (l : List α) (s : State) :
    (l.foldl g s).rpTime = s.rpTime := by
  induction l generalizing s with
  | nil => rfl
  | cons x r ih => rw [List.foldl_cons, ih, h]

theorem State.rpTime_getD (o : Option State) (s : State) (h : ∀ t, o = some t → t.rpTime = s.rpTime) : (o.getD s).rpTime = s.rpTime := by
  cases o with
  | none => rfl
  | some t => exact h t rfl

/-! ### Machine/Ops -/

@[simp] theorem State.rpTime_setReg (s : State) (p : Part) (a v : Nat) :
    (s.setReg p a v).rpTime = s.rpTime := by
  unfold State.setReg
  split <;> simp

@[simp] theorem State.rpTime_setFld (s : State) (p : Part) (a lo len v : Nat) :
    (s.setFld p a lo len v).rpTime = s.rpTime := by
  unfold State.setFld
  simp

@[simp] theorem State.rpTime_satFld (s : State) (p : Part) (a lo len n : Nat) :
    (s.satFld p a lo len n).rpTime = s.rpTime := by
  unfold State.satFld
  simp

@[simp] theorem State.rpTime_setFlag (s : State) (p : Part) (a i : Nat) (b : Bool) :
    (s.setFlag p a i b).rpTime = s.rpTime := by
  unfold State.setFlag
  simp

@[simp] theorem State.rpTime_setLink (s : State) (p : Part) (port : Nat) (l : Link) :
    (s.setLink p port l).rpTime = s.rpTime := by
  unfold State.setLink
  split <;> simp

@[simp] theorem State.rpTime_modLink (s : State) (p : Part) (port : Nat) (f : Link → Link) :
    (s.modLink p port f).rpTime = s.rpTime := by
  unfold State.modLink
  simp

@[simp] theorem State.rpTime_setSource (s : State) (p : Part) (x : Source) :
    (s.setSource p x).rpTime = s.rpTime := by
  unfold State.setSource
  split <;> simp

@[simp] theorem State.rpTime_hbmWrite (s : State) (a : Nat) (d : List Byte) :
    (s.hbmWrite a d).rpTime = s.rpTime := by
  unfold State.hbmWrite
  simp

@[simp] theorem State.rpTime_draw (s : State) :
    s.draw.2.rpTime = s.rpTime := by
  unfold State.draw
  simp

@[simp] theorem State.rpTime_emit (s : State) (o : Out) :
    (s.emit o).rpTime = s.rpTime := by
  unfold State.emit
  simp

@[simp] theorem State.rpTime_msix (s : State) (v : Nat) :
    (s.msix v).rpTime = s.rpTime := by
  unfold State.msix
  simp

@[simp] theorem State.rpTime_rpLog (s : State) (b : LogBody) :
    (s.rpLog b).rpTime = s.rpTime := by
  unfold State.rpLog
  simp

@[simp] theorem State.rpTime_rpCond (s : State) (code origin requester port skein addr old new : Nat) :
    (s.rpCond code origin requester port skein addr old new).rpTime = s.rpTime := by
  unfold State.rpCond
  simp

@[simp] theorem State.rpTime_evtWrite (s : State) (e : Event) :
    (s.evtWrite e).rpTime = s.rpTime := by
  unfold State.evtWrite
  simp

@[simp] theorem State.rpTime_evtOverflow (s : State) :
    s.evtOverflow.rpTime = s.rpTime := by
  unfold State.evtOverflow
  simp

@[simp] theorem State.rpTime_post (s : State) (e : Event) :
    (s.post e).rpTime = s.rpTime := by
  unfold State.post
  simp

@[simp] theorem State.rpTime_postFor (s : State) (e : Event) (scope : Nat) (skeins : List Nat) :
    (s.postFor e scope skeins).rpTime = s.rpTime := by
  unfold State.postFor
  simp

@[simp] theorem State.rpTime_modUnits (s : State) (f : Units → Units) :
    (s.modUnits f).rpTime = s.rpTime := by
  unfold State.modUnits
  simp

@[simp] theorem State.rpTime_setUnit (s : State) (i cause qstep : Nat) :
    (s.setUnit i cause qstep).rpTime = s.rpTime := by
  unfold State.setUnit
  simp

@[simp] theorem State.rpTime_modFm (s : State) (f : Fmem → Fmem) :
    (s.modFm f).rpTime = s.rpTime := by
  unfold State.modFm
  simp

@[simp] theorem State.rpTime_settleLine (s : State) (line : Nat) :
    (s.settleLine line).rpTime = s.rpTime := by
  unfold State.settleLine
  simp

@[simp] theorem State.rpTime_sealLines (s : State) (lines : List Nat) :
    (s.sealLines lines).rpTime = s.rpTime := by
  unfold State.sealLines
  simp

@[simp] theorem State.rpTime_memWrite (s : State) (a : Nat) (d : List Byte) :
    (s.memWrite a d).rpTime = s.rpTime := by
  unfold State.memWrite
  simp

/-! ### Machine/Route -/

@[simp] theorem State.rpTime_offer (s : State) (port : Nat) (x : EddyEnt) :
    (s.offer port x).rpTime = s.rpTime := by
  unfold State.offer
  simp

@[simp] theorem State.rpTime_modWarp (s : State) (f : Warp → Warp) :
    (s.modWarp f).rpTime = s.rpTime := by
  unfold State.modWarp
  simp

@[simp] theorem State.rpTime_logUnrouted (s : State) (p : Nat) (c : Container) :
    (s.logUnrouted p c).rpTime = s.rpTime := by
  unfold State.logUnrouted
  simp

@[simp] theorem State.rpTime_goHome (s : State) (c : Container) :
    (s.goHome c).rpTime = s.rpTime := by
  unfold State.goHome
  simp

@[simp] theorem State.rpTime_reflect (s : State) (x : EddyEnt) (noPath : Bool) :
    (s.reflect x noPath).rpTime = s.rpTime := by
  unfold State.reflect
  dsimp only
  repeat' split
  all_goals simp

@[simp] theorem State.rpTime_toOutput (s : State) (r : Route) (x : EddyEnt) :
    (s.toOutput r x).rpTime = s.rpTime := by
  unfold State.toOutput
  repeat' split
  all_goals simp

/-! ### Machine/Send -/

@[simp] theorem State.rpTime_hold (s : State) (p : Part) (dest skein plane planes : Nat) (loc : HeldAt) (m : Msg) (own : Owner) :
    (s.hold p dest skein plane planes loc m own).1.rpTime = s.rpTime := by
  unfold State.hold
  simp

@[simp] theorem State.rpTime_rpSend (s : State) (h : Held) :
    (s.rpSend h).rpTime = s.rpTime := by
  unfold State.rpSend
  simp

@[simp] theorem State.rpTime_rpPush (s : State) :
    s.rpPush.rpTime = s.rpTime := by
  unfold State.rpPush
  simp

@[simp] theorem State.rpTime_rpMgmtPort (s : State) (port dest : Nat) (m : Mgmt) (own : Owner) :
    (s.rpMgmtPort port dest m own).rpTime = s.rpTime := by
  unfold State.rpMgmtPort
  simp

/-! ### Machine/OrderOps -/

@[simp] theorem State.rpTime_modTray (s : State) (f : Tray → Tray) :
    (s.modTray f).rpTime = s.rpTime := by
  unfold State.modTray
  simp

@[simp] theorem State.rpTime_trayOut (s : State) (port : Nat) (f : TrayFrame) :
    (s.trayOut port f).rpTime = s.rpTime := by
  unfold State.trayOut
  simp

@[simp] theorem State.rpTime_trayMgmt (s : State) (m : Mgmt) :
    (s.trayMgmt m).rpTime = s.rpTime := by
  unfold State.trayMgmt
  simp

@[simp] theorem State.rpTime_toEndPoint (s : State) (p : Nat) (m : Mgmt) :
    (s.toEndPoint p m).rpTime = s.rpTime := by
  unfold State.toEndPoint
  simp

@[simp] theorem State.rpTime_toFarEnd (s : State) (p : Nat) (m : Mgmt) :
    (s.toFarEnd p m).rpTime = s.rpTime := by
  unfold State.toFarEnd
  repeat' split
  all_goals simp

@[simp] theorem State.rpTime_orderToMembers (s : State) (o : SwitchOrder) :
    (s.orderToMembers o).rpTime = s.rpTime := by
  unfold State.orderToMembers
  simp

@[simp] theorem State.rpTime_issueOrder (s : State) (o : SwitchOrder) :
    (s.issueOrder o).rpTime = s.rpTime := by
  unfold State.issueOrder
  simp

@[simp] theorem State.rpTime_unitEvent (s : State) (i : Nat) :
    (s.unitEvent i).rpTime = s.rpTime := by
  unfold State.unitEvent
  simp

@[simp] theorem State.rpTime_showUnits (s : State) (quiet : Bool) (l : List Nat) :
    (s.showUnits quiet l).rpTime = s.rpTime := by
  unfold State.showUnits
  simp

@[simp] theorem State.rpTime_setTally (s : State) (ph : Nat) (t : Tally) :
    (s.setTally ph t).rpTime = s.rpTime := by
  unfold State.setTally
  simp

@[simp] theorem State.rpTime_tallyPorts (s : State) (ph : Nat) (l : List Nat) (ok : Bool) :
    (s.tallyPorts ph l ok).rpTime = s.rpTime := by
  unfold State.tallyPorts
  simp

@[simp] theorem State.rpTime_tallyLost (s : State) (ph : Nat) (l : List Nat) :
    (s.tallyLost ph l).rpTime = s.rpTime := by
  unfold State.tallyLost
  simp

@[simp] theorem State.rpTime_loseContexts (s : State) (n : Nat) :
    (s.loseContexts n).rpTime = s.rpTime := by
  unfold State.loseContexts
  simp

@[simp] theorem State.rpTime_classOrder (s : State) (c unitType unit gen : Nat) :
    (s.classOrder c unitType unit gen).rpTime = s.rpTime := by
  unfold State.classOrder
  simp

@[simp] theorem State.rpTime_spindleOrder (s : State) (n : Nat) :
    (s.spindleOrder n).rpTime = s.rpTime := by
  unfold State.spindleOrder
  dsimp only
  repeat' split
  all_goals simp

@[simp] theorem State.rpTime_modSk (s : State) (f : Skeins → Skeins) :
    (s.modSk f).rpTime = s.rpTime := by
  unfold State.modSk
  simp

@[simp] theorem State.rpTime_sendAssign (s : State) (port : Nat) :
    (s.sendAssign port).rpTime = s.rpTime := by
  unfold State.sendAssign
  simp

@[simp] theorem State.rpTime_sendSlots (s : State) :
    s.sendSlots.rpTime = s.rpTime := by
  unfold State.sendSlots
  simp

/-! ### Machine/RpOrders -/

@[simp] theorem State.rpTime_powerEvent (s : State) :
    s.powerEvent.rpTime = s.rpTime := by
  unfold State.powerEvent
  simp

/-! ### Machine/FaultOps -/

@[simp] theorem State.rpTime_portOrder (s : State) (p : Nat) :
    (s.portOrder p).rpTime = s.rpTime := by
  unfold State.portOrder
  simp

@[simp] theorem State.rpTime_fenceLog (s : State) (i origin requester what : Nat) :
    (s.fenceLog i origin requester what).rpTime = s.rpTime := by
  unfold State.fenceLog
  simp

@[simp] theorem State.rpTime_hardFence (s : State) (i cause : Nat) :
    (s.hardFence i cause).rpTime = s.rpTime := by
  unfold State.hardFence
  simp

@[simp] theorem State.rpTime_stopClock (s : State) (p : Part) (port : Nat) :
    (s.stopClock p port).rpTime = s.rpTime := by
  unfold State.stopClock
  simp

@[simp] theorem State.rpTime_portEvent (s : State) (port sub cause w : Nat) :
    (s.portEvent port sub cause w).rpTime = s.rpTime := by
  unfold State.portEvent
  simp

@[simp] theorem State.rpTime_partEventFor (s : State) (type n state cause : Nat) (skeins : List Nat) :
    (s.partEventFor type n state cause skeins).rpTime = s.rpTime := by
  unfold State.partEventFor
  simp

@[simp] theorem State.rpTime_partEvent (s : State) (type n state cause : Nat) :
    (s.partEvent type n state cause).rpTime = s.rpTime := by
  unfold State.partEvent
  simp

@[simp] theorem State.rpTime_fenceGroup (s : State) (type k cause : Nat) (ports spindles : List Nat) :
    (s.fenceGroup type k cause ports spindles).rpTime = s.rpTime := by
  unfold State.fenceGroup
  simp

/-! ### Machine/RpWarpOps -/

@[simp] theorem State.rpTime_shadowOwed (s : State) (pat n : Nat) :
    (s.shadowOwed pat n).rpTime = s.rpTime := by
  unfold State.shadowOwed
  simp

@[simp] theorem State.rpTime_shadowTallies (s : State) :
    s.shadowTallies.rpTime = s.rpTime := by
  unfold State.shadowTallies
  dsimp only
  rw [State.rpTime_foldl _ fun t e => ?_]
  · simp
  · split
    · rfl
    · split <;> simp

/-! ### Machine/LinkOps -/

@[simp] theorem State.rpTime_lmcPush (s : State) (p : Part) (port : Nat) (l : List LmcMsg) :
    (s.lmcPush p port l).rpTime = s.rpTime := by
  unfold State.lmcPush
  simp

@[simp] theorem State.rpTime_tuneWls (s : State) (p : Part) (port : Nat) (ws : List Nat) :
    (s.tuneWls p port ws).rpTime = s.rpTime := by
  unfold State.tuneWls
  simp

@[simp] theorem State.rpTime_revalEnd (s : State) (p : Part) (port : Nat) :
    (s.revalEnd p port).rpTime = s.rpTime := by
  unfold State.revalEnd
  simp

@[simp] theorem State.rpTime_revalAbandon (s : State) (p : Part) (port : Nat) :
    (s.revalAbandon p port).rpTime = s.rpTime := by
  unfold State.revalAbandon
  split <;> simp

@[simp] theorem State.rpTime_askSwap (s : State) (p : Part) (port lane reason : Nat) :
    (s.askSwap p port lane reason).rpTime = s.rpTime := by
  unfold State.askSwap
  simp

@[simp] theorem State.rpTime_swapEvent (s : State) (p : Part) (port reason w : Nat) :
    (s.swapEvent p port reason w).rpTime = s.rpTime := by
  unfold State.swapEvent
  simp

@[simp] theorem State.rpTime_revalBegin (s : State) (p : Part) (port : Nat) (cls : Bool) (temp : Int) :
    (s.revalBegin p port cls temp).rpTime = s.rpTime := by
  unfold State.revalBegin
  simp

@[simp] theorem State.rpTime_revalResume (s : State) (p : Part) (port : Nat) :
    (s.revalResume p port).rpTime = s.rpTime := by
  unfold State.revalResume
  dsimp only
  split <;> simp

@[simp] theorem State.rpTime_swapNow (s : State) (p : Part) (port : Nat) (x : Swap) :
    (s.swapNow p port x).rpTime = s.rpTime := by
  unfold State.swapNow
  simp

@[simp] theorem State.rpTime_swapApply (s : State) (p : Part) (port : Nat) :
    (s.swapApply p port).rpTime = s.rpTime := by
  unfold State.swapApply
  dsimp only
  repeat' split
  all_goals simp

/-! ### Machine/KeyOps -/

@[simp] theorem State.rpTime_modKeys (s : State) (p : Part) (port : Nat) (f : LinkKeys → LinkKeys) :
    (s.modKeys p port f).rpTime = s.rpTime := by
  unfold State.modKeys
  simp

@[simp] theorem State.rpTime_keySwitch (s : State) (p : Part) (port : Nat) :
    (s.keySwitch p port).rpTime = s.rpTime := by
  unfold State.keySwitch
  dsimp only
  split <;> simp

/-! ### Machine/PowerOps -/

@[simp] theorem State.rpTime_modPower (s : State) (f : Power → Power) :
    (s.modPower f).rpTime = s.rpTime := by
  unfold State.modPower
  simp

@[simp] theorem State.rpTime_setScale (s : State) (v : Nat) :
    (s.setScale v).rpTime = s.rpTime := by
  unfold State.setScale
  simp

@[simp] theorem State.rpTime_powerRequest (s : State) :
    s.powerRequest.rpTime = s.rpTime := by
  unfold State.powerRequest
  simp

@[simp] theorem State.rpTime_powerReturn (s : State) :
    s.powerReturn.rpTime = s.rpTime := by
  unfold State.powerReturn
  simp

@[simp] theorem State.rpTime_powerFrame (s : State) (activity : List Nat) :
    (s.powerFrame activity).rpTime = s.rpTime := by
  unfold State.powerFrame
  simp

@[simp] theorem State.rpTime_thermStep (s : State) (n : Nat) :
    (s.thermStep n).rpTime = s.rpTime := by
  unfold State.thermStep
  simp

@[simp] theorem State.rpTime_thermalFence (s : State) (d : Nat) :
    (s.thermalFence d).rpTime = s.rpTime := by
  unfold State.thermalFence
  split <;> simp

@[simp] theorem State.rpTime_thermalFrame (s : State) (sensors : List Int) :
    (s.thermalFrame sensors).rpTime = s.rpTime := by
  unfold State.thermalFrame
  simp

/-! ### Machine/SwitchOps -/

@[simp] theorem State.rpTime_portFrame (s : State) (p : Part) (port : Nat) :
    (s.portFrame p port).rpTime = s.rpTime := by
  unfold State.portFrame
  simp

@[simp] theorem State.rpTime_loadBudgets (s : State) :
    s.loadBudgets.rpTime = s.rpTime := by
  unfold State.loadBudgets
  simp

end Sys2Proof.Machine
end

section
/-! The slot boundary and the frame boundary (R129, R165, R303, R309, R355). -/

namespace Sys2Proof.Machine

open Sys2Proof Sys2Proof.Claims

/-! ### The slot boundary -/

/-- A slot boundary lets fabric time reach the next slot; memory and the waiting commands are as before. -/
theorem State.slotBoundary_does (s : State) :
    s.slotBoundary.now = (s.now / 4 + 1) * 4 ∧ s.slotBoundary.pending = s.pending ∧ s.slotBoundary.hbm = s.hbm := by
  unfold State.slotBoundary
  extract_lets s1 s2 s3 s4 s5 s6 s7
  have h : s7.kept = s.kept := by simp [s7, s6, s5, s4, s3, s2, s1]
  have hnow : s7.now = s.now := congrArg Prod.fst h
  refine ⟨?_, congrArg (fun k => k.2.1) h, congrArg (fun k => k.2.2.1) h⟩
  rw [← hnow]
  rfl

/-! ### A weft slot of an output -/

theorem State.Routed.out {s t : State} (h : s.Routed t) : t.out = s.out := by rw [h.1.frame]

theorem State.out_divert (s : State) (o : Nat) (x : EddyEnt) : (s.divert o x).out = s.out := by
  unfold State.divert
  split
  · exact (s.routed_offer o x).out
  · dsimp only
    split
    · split
      · exact (s.routed_offer _ _).out
      · rfl
    · exact (s.routed_reflect x false).out

/-- What goes back into the crossbar from an eddy is not sent outside. -/
theorem State.out_settleEddy (s : State) (p : Nat) (l : List EddyEnt) : (s.settleEddy p l).out = s.out := by
  have hfold (go : List EddyEnt) (t : State) : (go.foldl (fun u x => u.divert p x) t).out = t.out := by
    induction go generalizing t with
    | nil => rfl
    | cons x go ih => rw [List.foldl_cons, ih, State.out_divert]
  exact hfold _ _

theorem State.out_agentLeave (s : State) (e : Option Nat) : (s.agentLeave e).out = s.out := rfl

/-- A block is sent while its port holds no key, or one that has not run out (R332). -/
theorem State.block_sendBlock {s : State} {p : Part} {port : Nat} (h : (s.link p port).keys.tx = none ∨ (s.link p port).keys.txCnt < 2 ^ 60)
    (b : Block) : Out.block p port b ∈ (s.sendBlock p port b).out := by
  unfold State.sendBlock
  dsimp only
  split
  · exact List.mem_cons_self
  · next key htx =>
    have hcnt : ¬ 2 ^ 60 ≤ (s.link p port).keys.txCnt := by
      rw [htx] at h
      simpa using h
    rw [if_neg hcnt]
    exact List.mem_cons_self

theorem State.block_sendBusy {s : State} {p : Part} {port : Nat} (h : (s.link p port).keys.tx = none ∨ (s.link p port).keys.txCnt < 2 ^ 60)
    (b : Block) : Out.block p port b ∈ (s.sendBusy p port b).out := by
  refine State.block_sendBlock ?_ b
  rw [State.countSlot, State.link_modLink_same]
  exact h

theorem State.link_anaCopy (s : State) (p : Nat) (entering : Bool) (c : Container) (q : Part) (port : Nat) :
    (s.anaCopy p entering c).link q port = s.link q port := by
  unfold State.anaCopy
  extract_lets sel
  split
  · cases q <;> rfl
  · rfl

theorem State.lpiStep_up {s : State} {p : Part} {port : Nat} (hstate : s.portState p port ≠ 3) (hexit : (s.link p port).lpiExit = none)
    (ready : Bool) : s.lpiStep p port ready = (true, s) := by
  rw [State.lpiStep, hexit]
  exact if_pos hstate

/-- The oldest candidate of an output is transmitted in its weft slot (R165). -/
theorem State.block_rpWeftSlot {s : State} {p : Nat} {l : List EddyEnt} {x : EddyEnt} (hx : oldestEnt (s.candidates p l) = some x)
    (hstate : s.portState .ronpex p ≠ 3) (hexit : (s.link .ronpex p).lpiExit = none)
    (hkey : (s.link .ronpex p).keys.tx = none ∨ (s.link .ronpex p).keys.txCnt < 2 ^ 60) :
    Out.block .ronpex p (.weft x.c) ∈ (s.rpWeftSlot p l).out := by
  have hsent : Out.block .ronpex p (.weft x.c) ∈ ((s.anaCopy p false x.c).sendBusy .ronpex p (.weft x.c)).out := by
    refine State.block_sendBusy ?_ _
    rw [State.link_anaCopy]
    exact hkey
  rw [State.rpWeftSlot, State.lpiStep_up hstate hexit, hx]
  dsimp only
  rw [if_neg (by decide), State.out_settleEddy]
  split
  · rw [State.out_agentLeave]
    exact hsent
  · exact hsent

/-! ### The budgets that a frame loads -/

/-- A table into which entries are put that follow `f` holds what `f` gives at every place put. -/
theorem SMap.look_foldl_put {α : Type} [DecidableEq α] (d f : Nat → α) (l : List (Nat × α)) (m : SMap α) (i : Nat)
    (hf : ∀ x ∈ l, x.2 = f x.1) (h : SMap.look d m i = f i ∨ i ∈ l.map Prod.fst) :
    SMap.look d (l.foldl (fun m x => SMap.put d m x.1 x.2) m) i = f i := by
  induction l generalizing m with
  | nil => simpa using h
  | cons x l ih =>
    refine ih _ (fun y hy => hf y (List.mem_cons_of_mem _ hy)) ?_
    by_cases hi : i = x.1
    · left
      rw [hi, SMap.look_put_same, hf x List.mem_cons_self]
    · rw [SMap.look_put_other _ _ _ _ _ hi]
      simpa [hi] using h

/-- The word of the weft budgets at which LOADED has its place `i`. -/
def State.budWord (s : State) (i : Nat) : Nat := s.reg .ronpex (Reg.budWeft (i / 4) + 4 * (i % 4))

/-- The words of the weft budgets, at their places in LOADED. -/
def State.budWords (s : State) : List (Nat × Nat) :=
  (List.range 64).flatMap fun k => (List.range 4).map fun w => (4 * k + w, s.reg .ronpex (Reg.budWeft k + 4 * w))

theorem State.loaded_sendSlots (s : State) : s.sendSlots.rp.skeins.loaded = s.rp.skeins.loaded := congrArg (fun b => b.2.1) s.beat_sendSlots

theorem State.loadBudgets_loaded (s : State) :
    s.loadBudgets.rp.skeins.loaded = s.budWords.foldl (fun m x => SMap.put (fun i => budReset (i % 4)) m x.1 x.2) [] := by
  simp only [State.loadBudgets, State.loaded_sendSlots, State.modSk, State.budWords]

theorem State.budWord_place (s : State) {w : Nat} (hw : w < 4) (k : Nat) :
    s.budWord (4 * k + w) = s.reg .ronpex (Reg.budWeft k + 4 * w) := by
  rw [State.budWord, show (4 * k + w) / 4 = k by omega, show (4 * k + w) % 4 = w by omega]

/-- LOADED takes the weft budgets of every skein (R303). -/
theorem State.look_budWords (s : State) {k w : Nat} (hk : k < 64) (hw : w < 4) :
    SMap.look (fun i => budReset (i % 4)) (s.budWords.foldl (fun m x => SMap.put (fun i => budReset (i % 4)) m x.1 x.2) []) (4 * k + w)
      = s.reg .ronpex (Reg.budWeft k + 4 * w) := by
  rw [← s.budWord_place hw]
  refine SMap.look_foldl_put _ s.budWord s.budWords [] _ (fun x hx => ?_) (.inr ?_)
  · simp only [State.budWords, List.mem_flatMap, List.mem_map, List.mem_range] at hx
    obtain ⟨k, -, w, hw, rfl⟩ := hx
    exact (s.budWord_place hw k).symm
  · simp only [State.budWords, List.mem_map, List.mem_flatMap, List.mem_range]
    exact ⟨_, ⟨k, hk, w, hw, rfl⟩, rfl⟩

/-! ### The frame boundary -/

@[simp] theorem State.rpSkeins_hbmWrite (s : State) (a : Nat) (d : List Byte) : (s.hbmWrite a d).rpSkeins = s.rpSkeins := rfl

@[simp] theorem State.rpSkeins_settleLine (s : State) (line : Nat) : (s.settleLine line).rpSkeins = s.rpSkeins := by
  unfold State.settleLine
  split
  · rfl
  · rfl

@[simp] theorem State.rpSkeins_sealLines (s : State) (lines : List Nat) : (s.sealLines lines).rpSkeins = s.rpSkeins := rfl

@[simp] theorem State.rpSkeins_memWrite (s : State) (a : Nat) (d : List Byte) : (s.memWrite a d).rpSkeins = s.rpSkeins := by
  unfold State.memWrite
  simp

@[simp] theorem State.rpSkeins_shadowOwed (s : State) (pat n : Nat) : (s.shadowOwed pat n).rpSkeins = s.rpSkeins := rfl

/-- The tallies of shadowed phases go to memory; the skeins are as before. -/
theorem State.rpSkeins_shadowTallies (s : State) : s.shadowTallies.rpSkeins = s.rpSkeins := by
  unfold State.shadowTallies
  dsimp only
  rw [State.rpSkeins_foldl _ fun t e => ?_]
  · simp
  · split
    · rfl
    · split <;> simp

/-- What is left of a frame boundary once its budgets are loaded, until fabric time steps. -/
theorem State.beat_frameClear (s : State) : s.frameClear.beat = (s.now, s.rp.skeins.loaded, []) := rfl

theorem State.timeStep_does (s : State) :
    s.timeStep.now = s.rp.time.set.getD s.now ∧ s.timeStep.rp.skeins.loaded = s.rp.skeins.loaded := by
  unfold State.timeStep
  split
  · next h =>
    rw [h]
    exact ⟨rfl, rfl⟩
  · next t h =>
    rw [h]
    exact ⟨rfl, rfl⟩

/-- No skein command waits at a frame boundary: no skein changes its state. -/
theorem State.skeinEffect_none {s : State} (h : s.rp.skeins.cmd = none) : s.skeinEffect = s := by
  rw [State.skeinEffect, h]

theorem State.of_beat {t : State} {n : Nat} {l p : SMap Nat} (h : t.beat = (n, l, p)) :
    t.now = n ∧ t.rp.skeins.loaded = l ∧ t.ep.paced = p := by
  unfold State.beat at h
  obtain ⟨hnow, hrest⟩ := Prod.mk.inj h
  obtain ⟨hloaded, hpaced⟩ := Prod.mk.inj hrest
  exact ⟨hnow, hloaded, hpaced⟩

/-- The budgets of a frame, as LOADED takes them. -/
def State.frameBudgets (s : State) : SMap Nat := s.budWords.foldl (fun m x => SMap.put (fun i => budReset (i % 4)) m x.1 x.2) []

theorem State.budWords_shadowTallies (s : State) : s.shadowTallies.budWords = s.budWords := by
  refine List.flatMap_congr fun k hk => List.map_congr_left fun w hw => ?_
  have hk : k < 64 := List.mem_range.mp hk
  have hw : w < 4 := List.mem_range.mp hw
  rw [State.reg_of_rpRegs s.rpRegs_shadowTallies]
  simp only [reportRegs, Reg.budWeft, Reg.logLost, Reg.mgtEvtOvf, Reg.mgtMsixPba, List.mem_cons, List.not_mem_nil, or_false, not_or]
  refine ⟨?_, ?_, ?_⟩ <;> omega

theorem State.frameBoundary_loads (s : State) (activity : List Nat) (sensors : List Int) (h0 : s.now % 16384 = 0)
    (hcmd : s.rp.skeins.cmd = none) :
    (s.frameBoundary activity sensors).beat = (s.rp.time.set.getD s.now, s.frameBudgets, []) := by
  unfold State.frameBoundary
  refine Eq.trans (congrArg State.beat (if_neg (not_not_intro h0))) ?_
  extract_lets s0 s1 s2 s3 s4 s5 s6 s7 s8
  have hs0 : s0 = s.shadowTallies.loadBudgets :=
    congrArg State.loadBudgets (State.skeinEffect_none ((congrArg Skeins.cmd s.rpSkeins_shadowTallies).trans hcmd))
  have hbeat : s3.beat = s0.beat := by simp [s3, s2, s1]
  have htime : s3.rpTime = s0.rpTime := by simp [s3, s2, s1]
  have hs4 : s4 = s3.timeStep.frameClear := rfl
  have hrest : ((((s8.lasFollowed.feedsDue.tokenDue).agentFrame).tenantAgain.traySync 0).traySync 1).releaseRecords.beat = s4.beat := by
    simp [s8, s7, s6, s5]
  clear_value s8 s7 s6 s5 s4 s3 s2 s1 s0
  subst hs4 hs0
  obtain ⟨hnow, hloaded, -⟩ := State.of_beat hbeat
  obtain ⟨hstep, hkeep⟩ := s3.timeStep_does
  have htime' : s3.rp.time = s.rp.time := htime.trans (by simp)
  have hnow' : s3.now = s.now :=
    hnow.trans ((congrArg Prod.fst (State.kept_loadBudgets _)).trans (congrArg Prod.fst s.beat_shadowTallies))
  rw [hrest, State.beat_frameClear, hstep, hkeep, htime', hnow', hloaded, ← State.rpSkeins_eq, State.loadBudgets_loaded,
    State.budWords_shadowTallies]
  rfl

/-- Settles O19: a slot boundary only lets time reach the next slot, as far as memory and the waiting commands go; a weft slot sends the
oldest candidate; and what a frame boundary loads, sets and clears is left by all that it does from then on. -/
theorem slotsAndFrames : Obligations.SlotsAndFrames := by
  refine ⟨⟨fun s => ?_, fun s p l x hx hstate hexit hkey => State.block_rpWeftSlot hx hstate hexit hkey⟩,
    fun s activity sensors => ⟨fun h0 hcmd => ?_, fun h => ?_⟩⟩
  · obtain ⟨hnow, hpending, hhbm⟩ := s.slotBoundary_does
    have hlast := State.kept_a2pGo s.slotBoundary
    exact ⟨_, rfl, (congrArg Prod.fst hlast).trans hnow, (congrArg (fun k => k.2.1) hlast).trans hpending,
      fun _ => (congrArg (fun k => k.2.2.1) hlast).trans hhbm⟩
  · obtain ⟨hnow, hloaded, hpaced⟩ := State.of_beat (s.frameBoundary_loads activity sensors h0 hcmd)
    refine ⟨_, rfl, hnow, hpaced, fun k w hk hw => ?_, (s.keeps_frameBoundary activity sensors).pending⟩
    rw [State.loaded, hloaded]
    exact s.look_budWords hk hw
  · exact congrArg Host.Outcome.next (if_pos h)

end Sys2Proof.Machine
end

section
/-! What ends with the answer of a message -/

namespace Sys2Proof.Machine

open Sys2Proof Sys2Proof.Claims

/-- What the answer of a message leaves of the Plocen once its container is settled: the hank counters, the source and the direct stores. -/
def State.answering (s : State) : SMap Nat × Source × List Store := (s.epHanks, s.ep.src, s.ep.stores)

@[simp] theorem State.answering_eq (s : State) : (s.epHanks, s.ep.src, s.ep.stores) = s.answering := by rw [State.answering]

@[simp] theorem State.answering_mk (n f : Nat) (l : List Instr) (o : List Out) (m : SMap Byte) (r : Ronpex) (e : Plocen) :
    State.answering { now := n, free := f, pending := l, out := o, hbm := m, rp := r, ep := e } = (e.hanks, e.src, e.stores) := by rw [State.answering]; rfl

@[simp] theorem Plocen.setReg_src (r : Plocen) (a v : Nat) : (r.setReg a v).src = r.src := by rw [Plocen.setReg]

@[simp] theorem Plocen.setReg_stores (r : Plocen) (a v : Nat) : (r.setReg a v).stores = r.stores := by rw [Plocen.setReg]

@[simp] theorem State.answering_ite (c : Prop) [Decidable c] (a b : State) :
    (if c then a else b).answering = if c then a.answering else b.answering := by
  split <;> rfl

@[simp] theorem State.answering_foldl {α : Type} (g : State → α → State) (h : ∀ t x, (g t x).answering = t.answering) (l : List α) (s : State) :
    (l.foldl g s).answering = s.answering := by
  induction l generalizing s with
  | nil => rfl
  | cons x r ih => rw [List.foldl_cons, ih, h]

theorem State.answering_getD (o : Option State) (s : State) (h : ∀ t, o = some t → t.answering = s.answering) : (o.getD s).answering = s.answering := by
  cases o with
  | none => rfl
  | some t => exact h t rfl

/-! ### Machine/Ops -/

@[simp] theorem State.answering_setReg (s : State) (a v : Nat) :
    (s.setReg .plocen a v).answering = s.answering := by
  unfold State.setReg
  simp

@[simp] theorem State.answering_setFld (s : State) (a lo len v : Nat) :
    (s.setFld .plocen a lo len v).answering = s.answering := by
  unfold State.setFld
  simp

@[simp] theorem State.answering_satFld (s : State) (a lo len n : Nat) :
    (s.satFld .plocen a lo len n).answering = s.answering := by
  unfold State.satFld
  simp

@[simp] theorem State.answering_emit (s : State) (o : Out) :
    (s.emit o).answering = s.answering := by
  unfold State.emit
  simp

/-! ### Machine/Flags -/

@[simp] theorem State.answering_modAtt (s : State) (f : Attach → Attach) :
    (s.modAtt f).answering = s.answering := by
  unfold State.modAtt
  simp

@[simp] theorem State.answering_sendFlit (s : State) (kind seq : Nat) (body : List (BitVec 128)) :
    (s.sendFlit kind seq body).answering = s.answering := by
  unfold State.sendFlit
  simp

@[simp] theorem State.answering_sendChunks (n : Nat) (x : List (BitVec 128)) (s : State) :
    (s.sendChunks n x).answering = s.answering := by
  induction n generalizing x s with
  | zero => rfl
  | succ n ih =>
    unfold State.sendChunks
    repeat' (first | split | dsimp only)
    all_goals simp [ih]

@[simp] theorem State.answering_sendTxn (s : State) (t : Txn) :
    (s.sendTxn t).answering = s.answering := by
  unfold State.sendTxn
  simp

@[simp] theorem State.answering_pumpCpl (n : Nat) (s : State) :
    (s.pumpCpl n).answering = s.answering := by
  induction n generalizing s with
  | zero => rfl
  | succ n ih =>
    unfold State.pumpCpl
    repeat' (first | split | dsimp only)
    all_goals simp [ih]

@[simp] theorem State.answering_complete (s : State) (rid tag addr status len : Nat) (data : List Byte) :
    (s.complete rid tag addr status len data).answering = s.answering := by
  unfold State.complete
  simp

@[simp] theorem State.answering_pump (n : Nat) (s : State) :
    (s.pump n).answering = s.answering := by
  induction n generalizing s with
  | zero => rfl
  | succ n ih =>
    unfold State.pump
    repeat' (first | split | dsimp only)
    all_goals simp [ih]

@[simp] theorem State.answering_request (s : State) (l : List AttReq) :
    (s.request l).answering = s.answering := by
  unfold State.request
  simp

@[simp] theorem State.answering_modDest (s : State) (f : Dest → Dest) :
    (s.modDest f).answering = s.answering := by
  unfold State.modDest
  simp

@[simp] theorem State.answering_landWrites (s : State) (l : List AttReq) :
    (s.landWrites l).answering = s.answering := by
  unfold State.landWrites
  simp

/-! ### Machine/RingOps -/

@[simp] theorem State.answering_modRing (s : State) (n : Nat) (f : Ring → Ring) :
    (s.modRing n f).answering = s.answering := by
  unfold State.modRing
  simp

@[simp] theorem State.answering_postCompletion (s : State) (n sub code info cookie : Nat) :
    (s.postCompletion n sub code info cookie).answering = s.answering := by
  unfold State.postCompletion
  simp

@[simp] theorem State.answering_modAct (s : State) (n sub : Nat) (f : Act → Act) :
    (s.modAct n sub f).answering = s.answering := by
  unfold State.modAct
  simp

@[simp] theorem State.answering_dropFront (s : State) (n : Nat) :
    (s.dropFront n).answering = s.answering := by
  unfold State.dropFront
  simp

@[simp] theorem State.answering_settleFront (n : Nat) (s : State) (x : Nat) :
    (s.settleFront n x).answering = s.answering := by
  induction n generalizing s x with
  | zero => rfl
  | succ n ih =>
    unfold State.settleFront
    repeat' (first | split | dsimp only)
    all_goals simp [ih]

@[simp] theorem State.answering_settleRing (s : State) (n : Nat) :
    (s.settleRing n).answering = s.answering := by
  unfold State.settleRing
  simp

@[simp] theorem State.answering_settleAct (s : State) (n sub : Nat) :
    (s.settleAct n sub).answering = s.answering := by
  unfold State.settleAct
  split <;> simp

@[simp] theorem State.answering_partDone (s : State) (n sub : Nat) :
    (s.partDone n sub).answering = s.answering := by
  unfold State.partDone
  simp

@[simp] theorem State.answering_settleFences (s : State) :
    s.settleFences.answering = s.answering := by
  unfold State.settleFences
  simp

@[simp] theorem State.answering_loadDone (s : State) (id status : Nat) (data : List Byte) :
    (s.loadDone id status data).answering = s.answering := by
  unfold State.loadDone
  split <;> simp

/-! ### Machine/WeftAnswer -/

@[simp] theorem State.answering_land (s : State) (x : SentMsg) (data : List Byte) :
    (s.land x data).answering = s.answering := by
  unfold State.land
  simp

/-! ### Machine/Ready -/

@[simp] theorem State.answering_unready (s : State) :
    s.unready.answering = s.answering := by
  unfold State.unready
  simp

end Sys2Proof.Machine
end

section
/-! Requests begin at an idle destination (R45, R134, R170, R171, R175), and an answer releases its container (R160-R162, R176). -/

namespace Sys2Proof.Machine

open Sys2Proof Sys2Proof.Claims

/-! ### What a request may touch -/

/-- From `s` to `t` a request has come in at port `p` of the Plocen and begun: its port's link, the source's windows, the attach link and
the destination may differ, and of the registers the key generation of the port alone. -/
structure State.Begins (s t : State) (p : Nat) : Prop where
  frame : t = { s with out := t.out, ep := { s.ep with
    links := t.ep.links, regs := t.ep.regs, att := t.ep.att, src := t.ep.src, dest := t.ep.dest } }
  regs : regsBut s t .plocen [keygenReg .plocen p]

theorem State.Begins.trans {s t u : State} {p : Nat} (h : s.Begins t p) (k : t.Begins u p) : s.Begins u p where
  frame := by
    have hst := h.frame
    have htu := k.frame
    rw [hst] at htu
    exact htu
  regs := regsBut_trans h.regs k.regs

theorem State.Received.begins {s t : State} {p : Nat} (h : s.Received t p) : s.Begins t p where
  frame := by
    rw [h.frame]
  regs := h.regs

theorem State.begins_modDest (s : State) (f : Dest → Dest) (p : Nat) : s.Begins (s.modDest f) p := ⟨rfl, regsBut_of_epRegs rfl⟩

theorem State.begins_takeWin (s : State) (c : Container) (p : Nat) : s.Begins (s.takeWin .plocen c.src p c.win) p := by
  unfold State.takeWin
  split
  · exact ⟨rfl, regsBut_refl _ _ _⟩
  · exact ⟨rfl, regsBut_of_epRegs rfl⟩

theorem State.att_takeWin (s : State) (node plane win : Nat) : (s.takeWin .plocen node plane win).ep.att = s.ep.att := by
  unfold State.takeWin
  split <;> rfl

theorem State.dest_takeWin (s : State) (node plane win : Nat) : (s.takeWin .plocen node plane win).ep.dest = s.ep.dest := by
  unfold State.takeWin
  split <;> rfl

theorem State.begins_request (s : State) (l : List AttReq) (p : Nat) : s.Begins (s.request l) p := by
  obtain ⟨a, o, h⟩ := s.request_only l
  rw [h]
  exact ⟨rfl, regsBut_of_epRegs rfl⟩

theorem State.begins_landWrites (s : State) (l : List AttReq) (p : Nat) : s.Begins (s.landWrites l) p :=
  (s.begins_modDest _ p).trans (State.begins_request _ _ p)

section
variable {s t : State} {p : Fin 8} (h : s.Begins t p)
include h

theorem State.Begins.onlyPlocen : onlyPlocen s t := by
  rw [h.frame]
  exact ⟨rfl, rfl, rfl, rfl⟩

theorem State.Begins.hanks : t.ep.hanks = s.ep.hanks := by rw [h.frame]

theorem State.Begins.stale (a : Arrival) : t.stale a = s.stale a := by
  have hepoch : t.epoch .plocen = s.epoch .plocen :=
    State.fld_congr (h.regs _ (by simp only [keygenReg, Reg.epSecPKeygen, Reg.epSeqEpoch, List.mem_singleton]; omega)) 0 16
  simp only [State.stale, hepoch]

theorem State.Begins.inPieces (tag skein o n kind : Nat) : t.inPieces tag skein o n kind = s.inPieces tag skein o n kind := by
  have hxlt : t.ep.xlt = s.ep.xlt := by rw [h.frame]
  simp only [State.inPieces, State.inExtAt, hxlt]

end

/-! ### A READ or WRITE becomes a job and starts -/

/-- A job that has not started and reads or writes without being atomic, and that has pages to access. -/
structure Job.Plain (j : Job) : Prop where
  notStarted : j.started = false
  opc : j.arr.msg.opc = 1 ∨ j.arr.msg.opc = 2
  pages : j.pcs ≠ []

theorem Job.Plain.notAtomic {j : Job} (h : j.Plain) : isAtomic j.arr.msg.opc = false := by
  obtain h | h := h.opc <;> rw [h] <;> rfl

/-- A range of at least one byte lies in at least one page. -/
theorem State.inPieces_ne_nil (s : State) (tag skein o kind : Nat) {n : Nat} (hn : 1 ≤ n) : s.inPieces tag skein o n kind ≠ [] := by
  have h0 : ¬ n = 0 := by omega
  simp [State.inPieces, pagePieces, h0]

/-- A list in which each entry has its value yields as many values. -/
theorem filterMap_ne_nil_of_all {α β γ : Type} {l : List α} {f : α → Option β} {g : α → β → γ} (hl : l ≠ [])
    (hall : (l.all fun x => (f x).isSome) = true) : (l.filterMap fun x => (f x).map (g x)) ≠ [] := by
  cases l with
  | nil => exact absurd rfl hl
  | cons x l =>
    have hx : (f x).isSome = true := List.all_eq_true.mp hall x List.mem_cons_self
    obtain ⟨y, hy⟩ := Option.isSome_iff_exists.mp hx
    rw [List.filterMap_cons, hy]
    exact List.cons_ne_nil _ _

/-- A READ or WRITE that the inbound extents grant becomes the last job. -/
theorem State.newJob_granted {s : State} {a : Arrival} (hopc : a.msg.opc = 1 ∨ a.msg.opc = 2) (hlen : 1 ≤ a.msg.len)
    (hstale : s.stale a = false)
    (hin : ((s.inPieces a.msg.ttag a.skein a.msg.offset a.msg.len (kindOf a.msg.opc)).all fun x => x.2.2.isSome) = true) :
    ∃ j : Job, j.Plain ∧ j.arr = a ∧ j.id = s.ep.dest.nextId
      ∧ s.newJob a = s.modDest fun d => { d with nextId := s.ep.dest.nextId + 1, jobs := d.jobs ++ [j] } := by
  have hset : ¬ a.msg.opc = 0x04 := by omega
  have hmgmt : ¬ a.msg.opc = 0x3E := by omega
  have hatomic : isAtomic a.msg.opc = false := by obtain h | h := hopc <;> rw [h] <;> rfl
  have hpieces := s.inPieces_ne_nil a.msg.ttag a.skein a.msg.offset (kindOf a.msg.opc) hlen
  unfold State.newJob
  simp only [hstale, hset, hmgmt, hatomic, or_self, false_and, if_false, Bool.false_and, Bool.false_eq_true]
  generalize s.inPieces a.msg.ttag a.skein a.msg.offset a.msg.len (kindOf a.msg.opc) = ps at hin hpieces
  have hgranted : (ps.any fun x => x.2.2.isNone) = false := by
    simpa [List.all_eq_true, List.any_eq_false, Option.isSome_iff_ne_none] using hin
  simp only [hgranted, Bool.false_eq_true, if_false]
  refine ⟨_, ⟨rfl, hopc, ?_⟩, rfl, rfl, rfl⟩
  exact filterMap_ne_nil_of_all (f := fun x => x.2.2) (g := fun p e => (e.attach + (p.1 - e.start), p.1 - a.msg.offset, p.2.1)) hpieces hin

/-- The one job, a READ or WRITE, starts. -/
theorem State.startJob_plain {s : State} {j : Job} (hj : j.Plain) (hjobs : s.ep.dest.jobs = [j]) (p : Nat) :
    s.Begins (s.startJob j) p
      ∧ ∃ k : Job, k.arr = j.arr ∧ k.started = true ∧ (s.startJob j).ep.dest = { s.ep.dest with jobs := [k] } := by
  unfold State.startJob
  have hmgmt : ¬ j.arr.msg.opc = 0x3E := by have := hj.opc; omega
  have hcounter : ¬ j.arr.msg.opc = 0x04 := by have := hj.opc; omega
  have hpages : ¬ j.pcs.isEmpty = true := by simpa using hj.pages
  dsimp only
  rw [if_neg hmgmt, if_neg hcounter, if_neg hpages]
  have hmod : (s.modJob j.id fun x => { x with started := true, left := (accessPieces j.pcs).length }).ep.dest
      = { s.ep.dest with jobs := [{ j with started := true, left := (accessPieces j.pcs).length }] } := by
    simp [State.modJob, State.modDest, hjobs]
  generalize (accessPieces j.pcs).map _ = l
  obtain ⟨o, b, hreq⟩ := State.request_only (s.modJob j.id fun x => { x with started := true, left := (accessPieces j.pcs).length }) l
  refine ⟨(s.begins_modDest _ p).trans (State.begins_request _ l p), { j with started := true, left := (accessPieces j.pcs).length }, rfl, rfl, ?_⟩
  rw [hreq]
  exact hmod

theorem State.releaseLands_does (s : State) (p : Nat) :
    s.Begins s.releaseLands p ∧ ∃ l, s.releaseLands.ep.dest = { s.ep.dest with lineWait := l } := by
  refine ⟨(s.begins_modDest _ p).trans (State.begins_landWrites _ _ p), (s.releaseLands).ep.dest.lineWait, ?_⟩
  have h := State.landWrites_only (s.modDest fun d => { d with lineWait := [] }) s.ep.dest.lineWait
  exact congrArg (fun t => t.ep.dest) h

theorem State.readyJob_plain {s : State} {j : Job} (hj : j.Plain) : s.readyJob [] [j] = some j := by
  simp [State.readyJob, hj.notStarted, hj.notAtomic]

theorem State.readyJob_started {s : State} {k : Job} (hk : k.started = true) : s.readyJob [] [k] = none := by
  simp [State.readyJob, hk]

/-- With the one job started and no context whose next message is there, nothing more begins. -/
theorem State.destRun_started {s : State} {k : Job} (hctx : s.ep.dest.readyCtx = none) (hjobs : s.ep.dest.jobs = [k]) (hk : k.started = true)
    (n : Nat) : s.destRun n = s := by
  cases n with
  | zero => rfl
  | succ n =>
    rw [State.destRun, hctx, hjobs]
    dsimp only
    rw [State.readyJob_started hk]

/-- The one job starts, and nothing more begins. -/
theorem State.destRun_plain {s : State} {j : Job} (hctx : s.ep.dest.readyCtx = none) (hj : j.Plain) (hjobs : s.ep.dest.jobs = [j]) (n : Nat) :
    s.destRun (n + 1) = s.startJob j := by
  obtain ⟨-, k, -, hk, hdest⟩ := State.startJob_plain hj hjobs 0
  rw [State.destRun, hctx, hjobs]
  dsimp only
  rw [State.readyJob_plain hj]
  dsimp only
  refine State.destRun_started ?_ (congrArg Dest.jobs hdest) hk n
  rw [hdest]
  exact hctx

/-- What the destination does where its one job is a READ or WRITE that has not started: it starts. -/
theorem State.destGo_plain {s : State} {j : Job} (hctx : s.ep.dest.readyCtx = none) (hj : j.Plain) (hjobs : s.ep.dest.jobs = [j]) (p : Nat) :
    s.Begins s.destGo p
      ∧ ∃ (k : Job) (l : List AttReq), k.arr = j.arr ∧ k.started = true ∧ s.destGo.ep.dest = { s.ep.dest with jobs := [k], lineWait := l } := by
  obtain ⟨hbegins, l, hl⟩ := s.releaseLands_does p
  have hctx' : s.releaseLands.ep.dest.readyCtx = none := by
    rw [hl]
    exact hctx
  have hjobs' : s.releaseLands.ep.dest.jobs = [j] := by
    rw [hl]
    exact hjobs
  have hrun : s.destGo = s.releaseLands.startJob j := State.destRun_plain hctx' hj hjobs' _
  obtain ⟨hstart, k, harr, hk, hdest⟩ := State.startJob_plain hj hjobs' p
  rw [hrun]
  refine ⟨hbegins.trans hstart, k, l, harr, hk, ?_⟩
  rw [hdest, hl]

/-! ### The destination takes one request -/

/-- One unordered READ or WRITE whose SEQ may run is counted as in progress, becomes the one job, and starts. -/
theorem State.epMessage_destGo {s : State} {a : Arrival} {r : RecvRec} (hverdict : s.ep.dest.verdict a.src a.msg.seq a.stream = .run)
    (hstream : a.stream = none) (hrec : SMap.find? s.ep.dest.recs a.src = some r) (hopc : a.msg.opc = 1 ∨ a.msg.opc = 2) (hlen : 1 ≤ a.msg.len)
    (hstale : s.stale a = false) (hjobs : s.ep.dest.jobs = []) (hctxs : s.ep.dest.ctxs = [])
    (hin : ((s.inPieces a.msg.ttag a.skein a.msg.offset a.msg.len (kindOf a.msg.opc)).all fun x => x.2.2.isSome) = true) (p : Fin 8) :
    s.Begins (s.epMessage a).destGo p ∧ ∃ k : Job, k.arr = a ∧ k.started = true ∧ (s.epMessage a).destGo.ep.dest.jobs = [k]
      ∧ SMap.find? (s.epMessage a).destGo.ep.dest.recs a.src = some { r with prog := r.prog ++ [a.msg.seq] }
      ∧ (s.epMessage a).destGo.ep.dest.store = s.ep.dest.store := by
  have hbegin : s.epMessage a = (s.modDest fun d => d.begin a).newJob a := by
    rw [State.epMessage, hverdict]
    dsimp only
    rw [hstream]
    rfl
  have hset : s.ep.dest.begin a = { s.ep.dest with recs := SMap.set s.ep.dest.recs a.src { r with prog := r.prog ++ [a.msg.seq] } } := by
    simp only [Dest.begin, hstream, hrec]
  have h1 := s.begins_modDest (fun d => d.begin a) p
  obtain ⟨j, hj, harr, -, hjob⟩ := State.newJob_granted (s := s.modDest fun d => d.begin a) hopc hlen ((h1.stale a).trans hstale)
    (by rw [h1.inPieces]; exact hin)
  have hdest : (s.epMessage a).ep.dest = { s.ep.dest with
      recs := SMap.set s.ep.dest.recs a.src { r with prog := r.prog ++ [a.msg.seq] }, nextId := s.ep.dest.nextId + 1, jobs := [j] } := by
    rw [hbegin, hjob]
    show { s.ep.dest.begin a with nextId := (s.ep.dest.begin a).nextId + 1, jobs := (s.ep.dest.begin a).jobs ++ [j] } = _
    rw [hset, hjobs]
    rfl
  have hctx : (s.epMessage a).ep.dest.readyCtx = none := by
    rw [hdest, Dest.readyCtx, hctxs]
    rfl
  obtain ⟨hgo, k, l, hkarr, hk, hgone⟩ := State.destGo_plain hctx hj (congrArg Dest.jobs hdest) p
  have hmsg : s.Begins (s.epMessage a) p := by
    rw [hbegin, hjob]
    exact h1.trans (State.begins_modDest _ _ p)
  refine ⟨hmsg.trans hgo, k, hkarr.trans harr, hk, ?_⟩
  rw [hgone, hdest]
  exact ⟨rfl, SMap.find?_set_same _ _ _, rfl⟩

/-- The context of an ordered message with only it held, next to be executed. -/
def ctxFor (a : Arrival) (st now : Nat) (held : List Arrival) (busy : Bool) : Ctx :=
  { src := a.src, stream := st, base := a.msg.seq, held := held, busy := busy, last := now }

theorem Dest.modCtx_ctxFor {d : Dest} {a : Arrival} {st now : Nat} {held : List Arrival} {busy : Bool}
    (h : d.ctxs = [ctxFor a st now held busy]) (f : Ctx → Ctx) :
    d.modCtx a.src st f = { d with ctxs := [f (ctxFor a st now held busy)] } := by
  simp [Dest.modCtx, h, ctxFor]

/-- The next message of a context becomes a job, the one job, and starts. -/
theorem State.destRun_ctx {s : State} {a : Arrival} {st now : Nat} (hstream : a.stream = some st) (hopc : a.msg.opc = 1 ∨ a.msg.opc = 2)
    (hlen : 1 ≤ a.msg.len) (hstale : s.stale a = false) (hjobs : s.ep.dest.jobs = []) (hctxs : s.ep.dest.ctxs = [ctxFor a st now [a] false])
    (hin : ((s.inPieces a.msg.ttag a.skein a.msg.offset a.msg.len (kindOf a.msg.opc)).all fun x => x.2.2.isSome) = true) (p : Fin 8) (n : Nat) :
    s.Begins (s.destRun (n + 2)) p ∧ ∃ k : Job, k.arr = a ∧ k.started = true ∧ (s.destRun (n + 2)).ep.dest.jobs = [k]
      ∧ (s.destRun (n + 2)).ep.dest.ctxs = [ctxFor a st now [a] true] := by
  have hready : s.ep.dest.readyCtx = some a := by
    simp [Dest.readyCtx, hctxs, ctxFor]
  have hbusy := Dest.modCtx_ctxFor hctxs fun x => { x with busy := true }
  have h1 := s.begins_modDest (fun d => d.modCtx a.src st fun x => { x with busy := true }) p
  obtain ⟨j, hj, harr, -, hjob⟩ := State.newJob_granted (s := s.modDest fun d => d.modCtx a.src st fun x => { x with busy := true }) hopc hlen
    ((h1.stale a).trans hstale) (by rw [h1.inPieces]; exact hin)
  have hstep : s.destRun (n + 2)
      = ((s.modDest fun d => d.modCtx a.src st fun x => { x with busy := true }).newJob a).destRun (n + 1) := by
    rw [State.destRun, hready]
    dsimp only
    rw [hstream]
    rfl
  generalize hu : (s.modDest fun d => d.modCtx a.src st fun x => { x with busy := true }).newJob a = u at hstep hjob
  have hdest : u.ep.dest = { s.ep.dest with
      ctxs := [ctxFor a st now [a] true], nextId := s.ep.dest.nextId + 1, jobs := [j] } := by
    rw [hjob]
    simp only [State.modDest, hbusy, hjobs, List.nil_append]
    rfl
  have hctx : u.ep.dest.readyCtx = none := by
    simp [Dest.readyCtx, hdest, ctxFor]
  rw [hstep, State.destRun_plain hctx hj (congrArg Dest.jobs hdest)]
  obtain ⟨hstart, k, hkarr, hk, hgone⟩ := State.startJob_plain hj (congrArg Dest.jobs hdest) p
  have hu' : s.Begins u p := by
    rw [hjob]
    exact h1.trans (State.begins_modDest _ _ p)
  refine ⟨hu'.trans hstart, k, hkarr.trans harr, hk, ?_⟩
  rw [hgone, hdest]
  exact ⟨rfl, rfl⟩

/-- One ordered READ or WRITE that is the next of a new context waits there, becomes the one job, and starts; its context is busy. -/
theorem State.epMessage_destGo_ordered {s : State} {a : Arrival} {st now : Nat} (hstream : a.stream = some st)
    (hopc : a.msg.opc = 1 ∨ a.msg.opc = 2) (hlen : 1 ≤ a.msg.len) (hstale : s.stale a = false) (hjobs : s.ep.dest.jobs = [])
    (hctxs : s.ep.dest.ctxs = [ctxFor a st now [] false])
    (hin : ((s.inPieces a.msg.ttag a.skein a.msg.offset a.msg.len (kindOf a.msg.opc)).all fun x => x.2.2.isSome) = true) (p : Fin 8) :
    s.Begins (s.epMessage a).destGo p ∧ ∃ k : Job, k.arr = a ∧ k.started = true ∧ (s.epMessage a).destGo.ep.dest.jobs = [k]
      ∧ (s.epMessage a).destGo.ep.dest.ctxs = [ctxFor a st now [a] true] := by
  have hverdict : s.ep.dest.verdict a.src a.msg.seq a.stream = .run := by
    rw [hstream]
    simp [Dest.verdict, Dest.ctx?, hctxs, ctxFor, subMod]
  have hbegin : s.epMessage a = s.modDest fun d => d.begin a := by
    rw [State.epMessage, hverdict]
    dsimp only
    rw [hstream]
    rfl
  have hheld := Dest.modCtx_ctxFor hctxs fun x => { x with held := x.held ++ [a] }
  have hdest : (s.epMessage a).ep.dest = { s.ep.dest with ctxs := [ctxFor a st now [a] false] } := by
    rw [hbegin]
    simp only [State.modDest, Dest.begin, hstream, hheld]
    rfl
  have h1 : s.Begins (s.epMessage a) p := by
    rw [hbegin]
    exact s.begins_modDest _ p
  generalize s.epMessage a = u at hdest h1
  obtain ⟨h2, l, hl⟩ := u.releaseLands_does p
  have hgo : u.destGo = u.releaseLands.destRun (1 + 2) := by
    rw [State.destGo, hdest]
    simp [hjobs, ctxFor]
  rw [hgo]
  have h3 := h1.trans h2
  obtain ⟨hrun, hrest⟩ := State.destRun_ctx (s := u.releaseLands) (st := st) (now := now) hstream hopc hlen ((h3.stale a).trans hstale)
    (by rw [hl, hdest]; exact hjobs) (by rw [hl, hdest]) (by rw [h3.inPieces]; exact hin) p 1
  exact ⟨h3.trans hrun, hrest⟩

/-! ### A container of one request at the destination -/

/-- The destination once it has heard from a source and admitted its container (R170, R171). -/
def Dest.greeted (d : Dest) (src now age : Nat) : Dest := (d.heard src now).admitted age

theorem Dest.heard_eq (d : Dest) (src now : Nat) : d.heard src now = { d with recs := (d.heard src now).recs } := by
  unfold Dest.heard
  split <;> rfl

theorem Dest.admitted_eq (d : Dest) (age : Nat) : d.admitted age = { d with refused := (d.admitted age).refused } := by
  unfold Dest.admitted
  split
  · split <;> rfl
  · rfl

theorem Dest.greeted_eq (d : Dest) (src now age : Nat) : d.greeted src now age = { d with
    recs := (d.greeted src now age).recs, refused := (d.greeted src now age).refused } := by
  unfold Dest.greeted
  rw [Dest.admitted_eq, Dest.heard_eq]

theorem Dest.nextId_greeted (d : Dest) (src now age : Nat) : (d.greeted src now age).nextId = d.nextId := by
  rw [Dest.greeted_eq]

theorem Dest.ctxs_greeted (d : Dest) (src now age : Nat) : (d.greeted src now age).ctxs = d.ctxs := by
  rw [Dest.greeted_eq]

theorem Dest.jobs_greeted (d : Dest) (src now age : Nat) : (d.greeted src now age).jobs = d.jobs := by
  rw [Dest.greeted_eq]

theorem Dest.find?_greeted (d : Dest) (src now age : Nat) :
    SMap.find? (d.greeted src now age).recs src = (SMap.find? d.recs src).map fun r => { r with last := now } := by
  rw [Dest.greeted, Dest.admitted_eq]
  show SMap.find? (d.heard src now).recs src = _
  rw [Dest.heard]
  split
  · next h => rw [h]; rfl
  · next r h =>
    rw [h]
    exact SMap.find?_set_same _ _ _

/-- The state in which the one message of an admitted container is looked at: its entry in the receive store is taken, its source or
stream is on record. -/
def State.entered (u : State) (d : Dest) : State :=
  u.modDest fun _ => { d with nextId := d.nextId + 1, store := d.store ++ [(d.nextId, 1)] }

/-- The receive record under which the one unordered message of a container is looked at. -/
def Dest.recFor (d : Dest) (src now seq : Nat) : RecvRec :=
  (SMap.find? d.recs src).getD { base := seq, done := [], prog := [], last := now }

theorem Dest.noCache_plain {d : Dest} {c : Container} {m : Msg} (hopc : m.opc = 1 ∨ m.opc = 2) (cap : Nat) : d.noCache c [m] cap = false := by
  have hatomic : isAtomic m.opc = false := by obtain h | h := hopc <;> rw [h] <;> rfl
  simp [Dest.noCache, hatomic]

section
variable {u : State} {p : Fin 8} {c : Container} {m : Msg} (hdown : u.ep.att.down = false) (hadmits : u.ep.dest.admits 4096 c.age = true)
  (hopc : m.opc = 1 ∨ m.opc = 2)
include hdown hadmits hopc

theorem State.epRequests_unordered (hord : m.ord = false)
    (hrec : c.sync = true ∨ (SMap.find? u.ep.dest.recs c.src).isSome = true) : u.epRequests p c [m]
      = ((u.entered { u.ep.dest.greeted c.src u.now c.age with
          recs := SMap.set (u.ep.dest.greeted c.src u.now c.age).recs c.src ((u.ep.dest.greeted c.src u.now c.age).recFor c.src u.now m.seq) }).epMessage
        (arrivalOf c p (some u.ep.dest.nextId) m)).destGo := by
  have hnext := u.ep.dest.nextId_greeted c.src u.now c.age
  have hknown : (u.ep.dest.greeted c.src u.now c.age).noRecord c [m] = false := by
    obtain hsync | hsome := hrec
    · simp [Dest.noRecord, hsync]
    · obtain ⟨r, hr⟩ := Option.isSome_iff_exists.mp hsome
      simp [Dest.noRecord, Dest.find?_greeted, hr]
  have hctx : (u.ep.dest.greeted c.src u.now c.age).noContext c [m] 4096 = false := by simp [Dest.noContext, hord]
  have hcache := Dest.noCache_plain (d := u.ep.dest.greeted c.src u.now c.age) (c := c) hopc 32768
  unfold State.epRequests
  rw [if_neg (by simp [hdown]), if_neg (by simp [hadmits])]
  change (if (u.ep.dest.greeted c.src u.now c.age).noRecord c [m] then _
    else if (u.ep.dest.greeted c.src u.now c.age).noContext c [m] 4096 || (u.ep.dest.greeted c.src u.now c.age).noCache c [m] 32768 then _ else _) = _
  rw [hknown, hctx, hcache, if_neg (by decide), if_neg (by decide), ← hnext]
  simp only [List.filter_cons, hord]
  rfl

theorem State.epRequests_ordered (hord : m.ord = true) (hctxs : u.ep.dest.ctxs = []) (hsync : c.sync = true) :
    u.epRequests p c [m]
      = ((u.entered { u.ep.dest.greeted c.src u.now c.age with
          ctxs := [ctxFor (arrivalOf c p (some u.ep.dest.nextId) m) c.stream u.now [] false] }).epMessage
        (arrivalOf c p (some u.ep.dest.nextId) m)).destGo := by
  have hnext := u.ep.dest.nextId_greeted c.src u.now c.age
  have hnone := (u.ep.dest.ctxs_greeted c.src u.now c.age).trans hctxs
  have hknown : (u.ep.dest.greeted c.src u.now c.age).noRecord c [m] = false := by simp [Dest.noRecord, hord]
  have hctx : (u.ep.dest.greeted c.src u.now c.age).noContext c [m] 4096 = false := by simp [Dest.noContext, hsync, hnone]
  have hcache := Dest.noCache_plain (d := u.ep.dest.greeted c.src u.now c.age) (c := c) hopc 32768
  have hopen : (u.ep.dest.greeted c.src u.now c.age).openCtx c.src c.stream u.now [m.seq] = { u.ep.dest.greeted c.src u.now c.age with
      ctxs := [ctxFor (arrivalOf c p (some u.ep.dest.nextId) m) c.stream u.now [] false] } := by
    simp [Dest.openCtx, Dest.ctx?, hnone, ctxFor, arrivalOf, lowestSeq]
  unfold State.epRequests
  rw [if_neg (by simp [hdown]), if_neg (by simp [hadmits])]
  change (if (u.ep.dest.greeted c.src u.now c.age).noRecord c [m] then _
    else if (u.ep.dest.greeted c.src u.now c.age).noContext c [m] 4096 || (u.ep.dest.greeted c.src u.now c.age).noCache c [m] 32768 then _ else _) = _
  rw [hknown, hctx, hcache, if_neg (by decide), if_neg (by decide)]
  simp only [List.filter_cons, hord]
  change ((State.modDest _ fun _ => (((u.ep.dest.greeted c.src u.now c.age).openCtx c.src c.stream u.now [m.seq]).enter 1).2).epMessage
    (arrivalOf c p (some (((u.ep.dest.greeted c.src u.now c.age).openCtx c.src c.stream u.now [m.seq]).enter 1).1) m)).destGo = _
  rw [hopen]
  simp only [Dest.enter, hnext]
  rfl

/-- An unordered READ or WRITE comes in whose SEQ may run under the record that it is looked at with. -/
theorem State.epRequests_run (hord : m.ord = false) (hrec : c.sync = true ∨ (SMap.find? u.ep.dest.recs c.src).isSome = true)
    (hjobs : u.ep.dest.jobs = []) (hctxs : u.ep.dest.ctxs = []) (hlen : 1 ≤ m.len)
    (hstale : u.stale (arrivalOf c p (some u.ep.dest.nextId) m) = false)
    (hin : ((u.inPieces m.ttag c.skein m.offset m.len (kindOf m.opc)).all fun x => x.2.2.isSome) = true) {r : RecvRec}
    (hr : (u.ep.dest.greeted c.src u.now c.age).recFor c.src u.now m.seq = r)
    (hrun : ∀ d : Dest, SMap.find? d.recs c.src = some r → d.verdict c.src m.seq none = .run) :
    u.Begins (u.epRequests p c [m]) p ∧ ∃ k : Job, k.arr = arrivalOf c p (some u.ep.dest.nextId) m ∧ k.started = true
      ∧ (u.epRequests p c [m]).ep.dest.jobs = [k]
      ∧ SMap.find? (u.epRequests p c [m]).ep.dest.recs c.src = some { r with prog := r.prog ++ [m.seq] }
      ∧ (u.ep.dest.nextId, 1) ∈ (u.epRequests p c [m]).ep.dest.store := by
  rw [State.epRequests_unordered hdown hadmits hopc hord hrec, hr]
  have h1 : u.Begins (u.entered { u.ep.dest.greeted c.src u.now c.age with
      recs := SMap.set (u.ep.dest.greeted c.src u.now c.age).recs c.src r }) p := u.begins_modDest _ p
  generalize hw : u.entered { u.ep.dest.greeted c.src u.now c.age with
      recs := SMap.set (u.ep.dest.greeted c.src u.now c.age).recs c.src r } = w at h1
  have hfind : SMap.find? w.ep.dest.recs c.src = some r := by
    rw [← hw]
    exact SMap.find?_set_same _ _ _
  have hstore : (u.ep.dest.nextId, 1) ∈ w.ep.dest.store := by
    rw [← hw, ← u.ep.dest.nextId_greeted c.src u.now c.age]
    exact List.mem_append_right _ (List.mem_singleton_self _)
  have hwjobs : w.ep.dest.jobs = [] := by
    rw [← hw]
    exact (u.ep.dest.jobs_greeted c.src u.now c.age).trans hjobs
  have hwctxs : w.ep.dest.ctxs = [] := by
    rw [← hw]
    exact (u.ep.dest.ctxs_greeted c.src u.now c.age).trans hctxs
  have hstream : (arrivalOf c p (some u.ep.dest.nextId) m).stream = none := by simp [arrivalOf, hord]
  obtain ⟨hgo, k, hkarr, hk, hkjobs, hkrec, hkstore⟩ := State.epMessage_destGo (s := w) (a := arrivalOf c p (some u.ep.dest.nextId) m) (r := r)
    (by rw [hstream]; exact hrun _ hfind) hstream hfind hopc hlen ((h1.stale _).trans hstale) hwjobs hwctxs (by rw [h1.inPieces]; exact hin) p
  exact ⟨h1.trans hgo, k, hkarr, hk, hkjobs, hkrec, by rw [hkstore]; exact hstore⟩

/-- An ordered READ or WRITE comes in that opens its context. -/
theorem State.epRequests_opens (hord : m.ord = true) (hctxs : u.ep.dest.ctxs = []) (hsync : c.sync = true)
    (hjobs : u.ep.dest.jobs = []) (hlen : 1 ≤ m.len)
    (hstale : u.stale (arrivalOf c p (some u.ep.dest.nextId) m) = false)
    (hin : ((u.inPieces m.ttag c.skein m.offset m.len (kindOf m.opc)).all fun x => x.2.2.isSome) = true) :
    u.Begins (u.epRequests p c [m]) p ∧ ∃ k : Job, k.arr = arrivalOf c p (some u.ep.dest.nextId) m ∧ k.started = true
      ∧ (u.epRequests p c [m]).ep.dest.jobs = [k]
      ∧ (u.epRequests p c [m]).ep.dest.ctxs = [ctxFor (arrivalOf c p (some u.ep.dest.nextId) m) c.stream u.now
          [arrivalOf c p (some u.ep.dest.nextId) m] true] := by
  rw [State.epRequests_ordered hdown hadmits hopc hord hctxs hsync]
  have h1 : u.Begins (u.entered { u.ep.dest.greeted c.src u.now c.age with
      ctxs := [ctxFor (arrivalOf c p (some u.ep.dest.nextId) m) c.stream u.now [] false] }) p := u.begins_modDest _ p
  have hstream : (arrivalOf c p (some u.ep.dest.nextId) m).stream = some c.stream := by simp [arrivalOf, hord]
  obtain ⟨hgo, hrest⟩ := State.epMessage_destGo_ordered (a := arrivalOf c p (some u.ep.dest.nextId) m) (now := u.now) hstream hopc hlen
    ((h1.stale _).trans hstale) ((u.ep.dest.jobs_greeted c.src u.now c.age).trans hjobs) rfl (by rw [h1.inPieces]; exact hin) p
  exact ⟨h1.trans hgo, hrest⟩

end

/-! ### A container of one request at a port -/

/-- A container of one request, taken at a port of the Plocen, goes to the destination. -/
theorem State.epContainerIn_request {s : State} {p : Fin 8} {c : Container} {m : Msg} (h : epTakes s p c) (hrefl : c.refl = false)
    (hmsgs : containerMsgs c = [m]) (hreply : m.reply = false) :
    ∃ u, s.Begins u p ∧ u.ep.dest = s.ep.dest ∧ u.ep.att.down = false ∧ s.epContainerIn p c = u.epRequests p c [m] := by
  have hr := s.received_rxBlock p (.weft c)
  refine ⟨(s.rxBlock .plocen p (.weft c)).takeWin .plocen c.src p c.win, hr.begins.trans (State.begins_takeWin _ c p), ?_, ?_, ?_⟩
  · rw [State.dest_takeWin, hr.dest]
  · obtain ⟨-, -, -, -, -, -, -, hdown⟩ := h
    rw [State.att_takeWin, hr.down, hdown]
  · rw [State.epContainerIn_taken h, State.epArrive_taken h hr, hrefl, hmsgs]
    simp [hreply]

/-- The first SEQ of a new record runs. -/
theorem Dest.verdict_first {d : Dest} {src seq now : Nat}
    (h : SMap.find? d.recs src = some { base := seq, done := [], prog := [], last := now }) : d.verdict src seq none = .run := by
  simp [Dest.verdict, h, subMod]

/-- When a source was last heard does not decide what becomes of its message. -/
theorem Dest.verdict_last {d e : Dest} {src seq now : Nat} {r : RecvRec} (hd : SMap.find? d.recs src = some r)
    (he : SMap.find? e.recs src = some { r with last := now }) : e.verdict src seq none = d.verdict src seq none := by
  simp only [Dest.verdict, hd, he]

theorem Dest.recFor_known {d : Dest} {src : Nat} {r : RecvRec} (h : SMap.find? d.recs src = some r) (now age seq : Nat) :
    (d.greeted src now age).recFor src now seq = { r with last := now } := by
  rw [Dest.recFor, Dest.find?_greeted, h]
  rfl

theorem Dest.recFor_new {d : Dest} {src : Nat} (h : (SMap.find? d.recs src).isNone = true) (now age seq : Nat) :
    (d.greeted src now age).recFor src now seq = { base := seq, done := [], prog := [], last := now } := by
  rw [Dest.recFor, Dest.find?_greeted, Option.isNone_iff_eq_none.mp h]
  rfl

/-- A READ or WRITE that reaches an idle destination begins: unordered under a new record or one that is there, or as the first of a
context. -/
theorem requests_begin (s : State) (p : Fin 8) (c : Container) (m : Msg) (h : epTakes s p c) (hrefl : c.refl = false)
    (hmsgs : containerMsgs c = [m]) (hreply : m.reply = false) (hopc : m.opc = 1 ∨ m.opc = 2) (hlen : 1 ≤ m.len)
    (hjobs : s.ep.dest.jobs = []) (hctxs : s.ep.dest.ctxs = []) (hadmits : s.ep.dest.admits 4096 c.age = true)
    (hstale : s.stale (arrivalOf c p (some s.ep.dest.nextId) m) = false)
    (hin : ((s.inPieces m.ttag c.skein m.offset m.len (kindOf m.opc)).all fun x => x.2.2.isSome) = true) :
    (m.ord = false → c.ord = false → (SMap.find? s.ep.dest.recs c.src).isNone = true → c.sync = true →
      ∃ t j r, exec (.requestArrival p c) s = .next t ∧ t.ep.dest.jobs = [j] ∧ j.arr = arrivalOf c p (some s.ep.dest.nextId) m
        ∧ j.started = true ∧ SMap.find? t.ep.dest.recs c.src = some r ∧ m.seq ∈ r.prog ∧ r.base = m.seq
        ∧ (s.ep.dest.nextId, 1) ∈ t.ep.dest.store ∧ t.ep.hanks = s.ep.hanks ∧ regsBut s t .plocen [keygenReg .plocen p] ∧ onlyPlocen s t) ∧
    (m.ord = false → c.ord = false → s.ep.dest.verdict c.src m.seq none = .run →
      ∃ t j r, exec (.requestArrival p c) s = .next t ∧ t.ep.dest.jobs = [j] ∧ j.arr = arrivalOf c p (some s.ep.dest.nextId) m
        ∧ j.started = true ∧ SMap.find? t.ep.dest.recs c.src = some r ∧ m.seq ∈ r.prog
        ∧ (s.ep.dest.nextId, 1) ∈ t.ep.dest.store ∧ t.ep.hanks = s.ep.hanks ∧ regsBut s t .plocen [keygenReg .plocen p] ∧ onlyPlocen s t) ∧
    (m.ord = true → c.ord = true → c.sync = true →
      ∃ t j x, exec (.orderedArrival p c) s = .next t ∧ t.ep.dest.jobs = [j] ∧ j.arr = arrivalOf c p (some s.ep.dest.nextId) m
        ∧ j.started = true ∧ t.ep.dest.ctx? c.src c.stream = some x ∧ x.base = m.seq ∧ x.busy = true
        ∧ t.ep.hanks = s.ep.hanks ∧ regsBut s t .plocen [keygenReg .plocen p] ∧ onlyPlocen s t) := by
  obtain ⟨u, hu, hdest, hdown, hreq⟩ := State.epContainerIn_request h hrefl hmsgs hreply
  have hholds : holdsReply c = false := by simp [holdsReply, hmsgs, hreply]
  refine ⟨fun hord hc hnone hsync => ?_, fun hord hc hrun => ?_, fun hord hc hsync => ?_⟩
  · have hexec : exec (.requestArrival p c) s = .next (u.epRequests p c [m]) := by
      rw [← hreq]
      exact congrArg Host.Outcome.next (if_pos (by simp [isRequestC, hrefl, hholds, hc]))
    obtain ⟨hb, k, hkarr, hk, hkjobs, hkrec, hkstore⟩ := State.epRequests_run (u := u) (p := p) hdown (by rw [hdest]; exact hadmits) hopc hord
      (.inl hsync) (by rw [hdest]; exact hjobs) (by rw [hdest]; exact hctxs) hlen (by rw [hdest, hu.stale]; exact hstale)
      (by rw [hu.inPieces]; exact hin) (Dest.recFor_new (by rw [hdest]; exact hnone) _ _ _) fun d hd => Dest.verdict_first hd
    rw [hdest] at hkarr hkstore
    exact ⟨_, k, _, hexec, hkjobs, hkarr, hk, hkrec, List.mem_singleton_self _, rfl, hkstore, (hu.trans hb).hanks, (hu.trans hb).regs,
      (hu.trans hb).onlyPlocen⟩
  · have hexec : exec (.requestArrival p c) s = .next (u.epRequests p c [m]) := by
      rw [← hreq]
      exact congrArg Host.Outcome.next (if_pos (by simp [isRequestC, hrefl, hholds, hc]))
    obtain ⟨r, hr⟩ : ∃ r, SMap.find? s.ep.dest.recs c.src = some r := by
      cases hfind : SMap.find? s.ep.dest.recs c.src with
      | none => simp [Dest.verdict, hfind] at hrun
      | some r => exact ⟨r, rfl⟩
    rw [← hdest] at hr hrun
    obtain ⟨hb, k, hkarr, hk, hkjobs, hkrec, hkstore⟩ := State.epRequests_run (u := u) (p := p) hdown (by rw [hdest]; exact hadmits) hopc hord
      (.inr (by rw [hr]; rfl)) (by rw [hdest]; exact hjobs) (by rw [hdest]; exact hctxs) hlen (by rw [hdest, hu.stale]; exact hstale)
      (by rw [hu.inPieces]; exact hin) (Dest.recFor_known hr _ _ _) fun d hd => (Dest.verdict_last hr hd).trans hrun
    rw [hdest] at hkarr hkstore
    exact ⟨_, k, _, hexec, hkjobs, hkarr, hk, hkrec, List.mem_append_right _ (List.mem_singleton_self _), hkstore, (hu.trans hb).hanks,
      (hu.trans hb).regs, (hu.trans hb).onlyPlocen⟩
  · have hexec : exec (.orderedArrival p c) s = .next (u.epRequests p c [m]) := by
      rw [← hreq]
      exact congrArg Host.Outcome.next (if_pos (by simp [isOrderedC, hrefl, hholds, hc]))
    obtain ⟨hb, k, hkarr, hk, hkjobs, hkctxs⟩ := State.epRequests_opens (u := u) (p := p) hdown (by rw [hdest]; exact hadmits) hopc hord
      (by rw [hdest]; exact hctxs) hsync (by rw [hdest]; exact hjobs) hlen (by rw [hdest, hu.stale]; exact hstale)
      (by rw [hu.inPieces]; exact hin)
    rw [hdest] at hkarr
    refine ⟨_, k, ctxFor (arrivalOf c p (some s.ep.dest.nextId) m) c.stream u.now [arrivalOf c p (some s.ep.dest.nextId) m] true, hexec,
      hkjobs, hkarr, hk, ?_, rfl, rfl, (hu.trans hb).hanks, (hu.trans hb).regs, (hu.trans hb).onlyPlocen⟩
    rw [Dest.ctx?, hkctxs, hdest]
    simp [ctxFor, arrivalOf]

/-! ### The answer of a container's one message -/

/-- The message of a container of one, answered. -/
def Held.answered (h : Held) (x : SentMsg) : Held := { h with msgs := [{ x with answered := true }] }

/-- The state in which a container whose one message is answered is held no longer, and its credit is back. -/
def State.released (u : State) (h : Held) (x : SentMsg) : State :=
  (u.modHeld .plocen h.id fun g => { g with msgs := [{ x with answered := true }] }).dropHeld .plocen (h.answered x)

theorem State.answer_one {u : State} {h : Held} {x : SentMsg} (hdown : u.ep.att.down = false) (hheld : u.held? .plocen h.id = some h)
    (hmsgs : h.msgs = [x]) (hx : x.answered = false) (data : List Byte) :
    u.answer .plocen h.id 0 data = (u.released h x).deliver .plocen h x data := by
  unfold State.answer
  rw [hheld]
  simp [hdown, hmsgs, hx, State.released, Held.answered]

/-- Forgetting a container at its port touches no more of the Plocen than the queue of that port. -/
theorem State.answering_released (u : State) (h : Held) (x : SentMsg) : (u.released h x).answering
    = (u.ep.hanks, { ((u.modHeld .plocen h.id fun g => { g with msgs := [{ x with answered := true }] }).ep.src.freeCredit (h.answered x)) with
        held := (u.modHeld .plocen h.id fun g => { g with msgs := [{ x with answered := true }] }).ep.src.held.filter fun g => g.id != h.id },
      u.ep.stores) := by
  unfold State.released State.dropHeld
  dsimp only
  split
  · rfl
  · rfl

theorem State.of_answering {s : State} {a : SMap Nat} {b : Source} {c : List Store} (h : s.answering = (a, b, c)) :
    s.ep.hanks = a ∧ s.ep.src = b ∧ s.ep.stores = c := by
  unfold State.answering at h
  obtain ⟨hhanks, hrest⟩ := Prod.mk.inj h
  obtain ⟨hsrc, hstores⟩ := Prod.mk.inj hrest
  exact ⟨hhanks, hsrc, hstores⟩

/-- A container that is held no longer has given its credit back, and nothing else of the source's windows and credits differs. -/
structure State.LetGo (s t : State) (h : Held) : Prop where
  gone : t.held? .plocen h.id = none
  credit : t.ep.src.creditsUsed h.c.dest h.plane = s.ep.src.creditsUsed h.c.dest h.plane - 1
  window : t.ep.src.window = s.ep.src.window
  hanks : t.ep.hanks = s.ep.hanks

theorem State.letGo_released (u : State) {h : Held} (x : SentMsg) (hcredit : h.hasCredit = true) : u.LetGo (u.released h x) h := by
  obtain ⟨hhanks, hsrc, -⟩ := State.of_answering (u.answering_released h x)
  have hfree : (h.answered x).hasCredit = true := hcredit
  rw [Source.freeCredit, if_pos hfree] at hsrc
  refine ⟨?_, ?_, ?_, hhanks⟩
  · show (u.released h x).ep.src.held.find? _ = none
    rw [hsrc, List.find?_eq_none]
    intro g hg
    simpa using (List.mem_filter.mp hg).2
  · rw [hsrc]
    exact SMap.look_put_same _ _ _ _
  · rw [hsrc]
    rfl

theorem State.LetGo.of_src {s t v : State} {h : Held} (k : s.LetGo t h) (hsrc : v.ep.src = t.ep.src) (hhanks : v.ep.hanks = t.ep.hanks) :
    s.LetGo v h where
  gone := by
    show v.ep.src.held.find? _ = none
    rw [hsrc]
    exact k.gone
  credit := by
    rw [hsrc]
    exact k.credit
  window := by
    rw [hsrc]
    exact k.window
  hanks := hhanks.trans k.hanks

/-- What the answer of a message of a descriptor or of a load does beside the source. -/
theorem State.answering_deliver {v : State} {h : Held} {x : SentMsg} (hx : (∃ a b, x.owner = .desc a b) ∨ ∃ a, x.owner = .load a)
    (data : List Byte) : (v.deliver .plocen h x data).answering = v.answering := by
  unfold State.deliver
  obtain ⟨a, b, hx⟩ | ⟨a, hx⟩ := hx
  · rw [hx]
    dsimp only
    split
    · rfl
    · split
      · split
        · exact State.answering_partDone _ _ _
        · rfl
      · exact State.answering_land _ _ _
  · rw [hx]
    exact State.answering_loadDone _ _ _ _

/-- The answer of a direct store ends it, and what waits for it. -/
theorem State.answering_storeDone (v : State) (k : Nat) :
    (v.storeDone k false).answering = (v.ep.hanks, v.ep.src, v.ep.stores.filter fun y => y.id != k) := by
  unfold State.storeDone
  split
  · next hnone =>
    have hkeep : (v.ep.stores.filter fun y => y.id != k) = v.ep.stores := by
      rw [List.filter_eq_self]
      simpa using hnone
    rw [hkeep]
    rfl
  · exact State.answering_settleFences _

/-- The answer that ends the message of a descriptor, of a load or of a store lets its container go. -/
theorem State.letGo_deliver {s v : State} {h : Held} {x : SentMsg} (k : s.LetGo v h)
    (hx : (∃ a b, x.owner = .desc a b) ∨ (∃ a, x.owner = .load a) ∨ ∃ a, x.owner = .store a) (data : List Byte) :
    s.LetGo (v.deliver .plocen h x data).unready h
      ∧ ∀ n, x.owner = .store n → ((v.deliver .plocen h x data).unready.ep.stores.all fun y => y.id != n) = true := by
  have hfree := State.answering_unready (v.deliver .plocen h x data)
  have hplain (hx : (∃ a b, x.owner = .desc a b) ∨ ∃ a, x.owner = .load a) : s.LetGo (v.deliver .plocen h x data).unready h := by
    obtain ⟨hhanks, hsrc, -⟩ := State.of_answering (hfree.trans ((State.answering_deliver hx data).trans v.answering_eq.symm))
    exact k.of_src hsrc hhanks
  obtain hx | hx | ⟨n, hx⟩ := hx
  · obtain ⟨a, b, hown⟩ := hx
    exact ⟨hplain (.inl ⟨a, b, hown⟩), fun n hn => by simp [hown] at hn⟩
  · obtain ⟨a, hown⟩ := hx
    exact ⟨hplain (.inr ⟨a, hown⟩), fun n hn => by simp [hown] at hn⟩
  · have hstore : (v.deliver .plocen h x data) = v.storeDone n false := by
      unfold State.deliver
      rw [hx]
    rw [hstore] at hfree ⊢
    obtain ⟨hhanks, hsrc, hstores⟩ := State.of_answering (hfree.trans (v.answering_storeDone n))
    refine ⟨k.of_src hsrc hhanks, fun i hi => ?_⟩
    obtain rfl : n = i := by simpa [hx] using hi
    rw [hstores, List.all_filter]
    simp

/-- A nonzero WIN is adopted (R162), and nothing else of the source differs. -/
theorem State.takeWin_adopts (s : State) (node plane win : Nat) : ∃ w, (s.takeWin .plocen node plane win).ep.src = { s.ep.src with window := w }
    ∧ (win ≠ 0 → SMap.look (fun _ => 0) w (creditKey node plane) = win) := by
  unfold State.takeWin
  split
  · next h => exact ⟨s.ep.src.window, rfl, fun hne => absurd h hne⟩
  · exact ⟨_, rfl, fun _ => SMap.look_put_same _ _ _ _⟩

/-- A container of one answer, taken at a port of the Plocen, is matched and answers its message. -/
theorem State.epContainerIn_reply {s : State} {p : Fin 8} {c : Container} {m : Msg} (h : epTakes s p c) (hrefl : c.refl = false)
    (hmsgs : containerMsgs c = [m]) (hreply : m.reply = true) (hkind : c.kind = 1) {i : Nat × Nat}
    (hmatch : s.matchReply .plocen c.src (if m.ord then some c.stream else none) m.seq = some i) :
    ∃ u w, s.Begins u p ∧ u.ep.att.down = false ∧ u.ep.src = { s.ep.src with window := w }
      ∧ (c.win ≠ 0 → SMap.look (fun _ => 0) w (creditKey c.src p) = c.win) ∧ s.epContainerIn p c = u.answer .plocen i.1 i.2 m.data := by
  have hr := s.received_rxBlock p (.weft c)
  have hin := State.epContainerIn_taken h
  rw [State.epArrive_taken h hr] at hin
  have hbegins := hr.begins.trans (State.begins_takeWin (s.rxBlock .plocen p (.weft c)) c p)
  obtain ⟨w, hsrc, hwin⟩ := (s.rxBlock .plocen p (.weft c)).takeWin_adopts c.src p c.win
  have hdown : ((s.rxBlock .plocen p (.weft c)).takeWin .plocen c.src p c.win).ep.att.down = false := by
    obtain ⟨-, -, -, -, -, -, -, hdown⟩ := h
    rw [State.att_takeWin, hr.down, hdown]
  generalize (s.rxBlock .plocen p (.weft c)).takeWin .plocen c.src p c.win = u at hin hsrc hdown hbegins
  rw [hr.src] at hsrc
  have hmatch' : u.matchReply .plocen c.src (if m.ord then some c.stream else none) m.seq = some i := by
    rw [State.matchReply, State.source, hsrc]
    exact hmatch
  refine ⟨u, w, hbegins, hdown, hsrc, hwin, ?_⟩
  rw [hin, hrefl, hmsgs]
  simp [hreply, State.takeReply, hkind, hmatch', State.epRequests]

/-- Settles O14: a request taken at an idle destination opens or finds its record or context, becomes the one job and starts; an answer
taken lets the container of its message go. -/
theorem requestsAndReplies : Obligations.RequestsAndReplies := by
  refine ⟨fun s p c m h hrefl _ hmsgs hreply hopc hlen _ hjobs hctxs hadmits hstale hin =>
    requests_begin s p c m h hrefl hmsgs hreply hopc hlen hjobs hctxs hadmits hstale hin, ?_⟩
  intro s p c m h x htakes hc hmsgs hreply hkind hmatch hheld hone hx hcredit howner
  have hrefl : c.refl = false := by
    simp only [isReplyC, Bool.and_eq_true, Bool.not_eq_true'] at hc
    exact hc.1
  obtain ⟨u, w, hu, hdown, hsrc, hwin, hin⟩ := State.epContainerIn_reply htakes hrefl hmsgs hreply hkind hmatch
  have hheld' : u.held? .plocen h.id = some h := by
    rw [State.held?, State.source, hsrc]
    exact hheld
  have hend : (s.epContainerIn p c).unready = ((u.released h x).deliver .plocen h x m.data).unready := by
    rw [hin, State.answer_one hdown hheld' hone hx]
  obtain ⟨hgo, hstores⟩ := State.letGo_deliver (u.letGo_released x hcredit) howner m.data
  have honly : onlyPlocen s (s.epContainerIn p c).unready := onlyPlocen_of (by simp) (by simp)
  rw [hend] at honly
  refine ⟨_, (congrArg Host.Outcome.next (if_pos hc)).trans (congrArg Host.Outcome.next hend), hgo.gone, ?_, fun hne => ?_, hstores,
    hgo.hanks.trans hu.hanks, honly⟩
  · rw [hgo.credit, hsrc]
    rfl
  · rw [hgo.window, hsrc]
    exact hwin hne

end Sys2Proof.Machine
end
